-- ==== Sys2Proof/Word.lean ====
section
/-! DEFINITION. The word types of the model: registers and PST words (00_scope.md R9, R11), lines
(02_memory_model.md R50), stored lines (09_integrity_and_drift.md R262), sparse tables, register fields and
the rows of the register table. -/

set_option autoImplicit false

namespace Sys2Proof

/-- A register or a PST word is 32 bits (R9). -/
abbrev Word := BitVec 32

/-- The 64 bytes of one line (R50); byte b is bits 8b + 7 to 8b. -/
abbrev Line := BitVec 512

/-- The 88 bytes that hold one line on media (R262). -/
abbrev StoredLine := BitVec 704

/-- A table in which most keys hold the same default value: the entries that differ, keys rising. -/
abbrev Sparse (α : Type) := List (Nat × α)

/-- A field of a register: the register's window offset, the lowest bit, the width. -/
structure Fld where
  off : Nat
  lo  : Nat
  width : Nat
  deriving DecidableEq, Repr

/-- A range of a configuration field: its place in the register, the limits and the default its table gives. -/
structure RegClamp where
  lo : Nat
  width : Nat
  min : Nat
  max : Nat
  dflt : Nat
  deriving DecidableEq, Repr

/-- One row of a register table: the first page and the number of pages that hold it, the page offset, the
number of registers and their distance, and the bits of each access code of Table 0.3 (bits in none of the
four masks ignore writes), the bits that `cfg` loads, and the ranges. -/
structure RegDef where
  page : Nat
  pages : Nat
  off : Nat
  count : Nat
  stride : Nat
  rw : Word
  rwl : Word
  w1c : Word
  w1s : Word
  cfg : Word
  clamps : List RegClamp
  deriving DecidableEq, Repr

end Sys2Proof
end

