-- ==== Sys2Proof/Syntax.lean ====
section
/-! DEFINITION. The commands of the block, one constructor per row of spec/opcode_table.json, and the types of
their operands. An operand says what the environment brings with the command: what a host, a twin, a die, a rail
or an analogue conversion presents (notes/assumptions/1). -/

set_option autoImplicit false

namespace Sys2Proof

/-- An access path to the register window (R16, R374, R589): a logical port or the out-of-band target. -/
inductive Path where
  | port (p : Fin 8)
  | oob
  deriving DecidableEq, Repr


/-- The data-path queues by the block that owns them (R27, R528): the router's, a host port's, the line cache's, a DRAM channel's, a media
channel's, a codec's, the cipher engine's and Caravan's. -/
inductive DataQueue where
  | router
  | port (n : Fin 8)
  | lineCache
  | dram (ch : Fin 6)
  | media (c : Fin 40)
  | codec (g : Fin 5)
  | cipher
  | caravan
  deriving DecidableEq, Repr

/-- What an upset of the on-die arrays does to one lookup (R142, R143, R161, R528). -/
inductive Upset where
  /-- Tag parity error in a way, TCOPY good. -/
  | tag (w : Fin 16)
  /-- Tag parity error in a way, TCOPY uncorrectable. -/
  | lost (w : Fin 16)
  /-- A correctable error in a data word of a way. -/
  | ce (w : Fin 16) (word : Fin 4)
  /-- An uncorrectable data word in a way. -/
  | ue (w : Fin 16) (word : Fin 4)
  /-- A correctable, or an uncorrectable, error in the tile's map-cache way. -/
  | mapCe
  | mapUe
  /-- The pointer copies of a data-path queue disagree (R528). -/
  | pointer (q : DataQueue)
  deriving DecidableEq, Repr

/-- How a DRAM read returns (R402, R405, R410): clean, corrected, served by reconstruction under refresh, rebuilt from its
stripe, or uncorrectable and not rebuilt. -/
inductive DramRes where
  | ok
  | ce
  | recon
  | rebuilt
  | ue
  deriving DecidableEq, Repr

/-- The word that the DRAM scrub has read, by the areas of Table 13.2 and the rows of Table 13.5. -/
inductive DramArea where
  /-- A line of a tile-stage slot. -/
  | slotLine (slot : Nat) (line : Fin 64)
  /-- A tile-map entry. -/
  | mapEntry (tile : BitVec 32)
  /-- A bucket of the poison table. -/
  | bucket (b : Nat)
  /-- Any other protected word: parity, a slot's state block. -/
  | parity
  /-- A word of the block table of a block. -/
  | blockTable (die : Fin 320) (block : Fin 2048)
  /-- A 32-bit word of the resync bitmap. -/
  | bitmap (word : BitVec 27)
  | fenceList
  | programBuffer (id : Nat)
  | journalBuffer
  /-- Entry of the DRAM ledger, oldest first. -/
  | ledger (n : Nat)
  /-- A refined reference table: die and band. -/
  | refTable (die : Fin 320) (band : Fin 4)
  | other
  deriving DecidableEq, Repr

/-- Who starts a range operation (R150, R151): a write of LC_RANGE_CTL with START, its OVERRIDE_LOCK and ALL; or the Range
Operation mailbox command on a port, 8 + q for management queue q, over a range of lines. -/
inductive RangeSrc where
  | reg (path : Path) (ovr all : Bool)
  | mbox (port : Fin 16) (ovr : Bool) (first : BitVec 38) (count : BitVec 39)
  deriving DecidableEq, Repr

/-- What the retries of a line that did not decode at the first pass come to (R216, R278, R286): accepted at retry n + 1, or all three
failed, the last of them at its tag when `tag`. -/
inductive RecoverBy where
  | retry (n : Fin 3)
  | no (tag : Bool)
  deriving DecidableEq, Repr


/-- What the training of a media channel finds (Table 8.10): the step that failed, if any; the CE_N positions where a die
answers; those that report geometry code 0x01; and per position the read phase, the reference code and the launch delay. -/
structure ChanTrain where
  fail : Option (Fin 8)
  present : BitVec 8
  geom : BitVec 8
  trn : List (BitVec 6 × BitVec 5 × BitVec 6)
  deriving DecidableEq, Repr

/-- What the SRAM patrol finds in the word it reads (R267, R268). `changed` tells that the word was written in the meantime. -/
inductive Patrol where
  | clean
  /-- A correctable word of an array that no other constructor names: TCOPY, an OBP accumulator, a FIFO. -/
  | fix (changed : Bool)
  | lcData (set : Fin 65536) (way : Fin 16) (word : Fin 4) (ue changed : Bool)
  /-- A tag parity error; `lost` when TCOPY is uncorrectable. -/
  | lcTag (set : Fin 65536) (way : Fin 16) (lost : Bool)
  | mapc (tile : BitVec 32) (ue changed : Bool)
  /-- A correctable word of a core's local SRAM: T0–T23 as 0–23, P0–P3 as 24–27. -/
  | coreFix (n : Fin 28) (changed : Bool)
  /-- An uncorrectable word of a core. -/
  | core (n : Fin 28)
  /-- An uncorrectable word of the accumulator of an open stripe. -/
  | obp (stripe : Nat)
  deriving DecidableEq, Repr

/-- Attributes of a region as Region Set gives them (Table 2.1, Table 12.7): BASE and SIZE in 256 MiB, PORT on side 0 and side 1. -/
structure RgAttr where
  base : BitVec 16
  size : BitVec 17
  port0 : Fin 8
  port1 : Fin 8
  owner : Bool
  noalloc : Bool
  discard : Bool
  lockOk : Bool
  xfer : Bool
  deriving DecidableEq, Repr

/-- Mailbox commands that run one at a time across the device (R388), with their arguments (Table 12.7). -/
inductive SerCmd where
  | regionSet (n : Fin 16) (a : RgAttr)
  | contextSet (n : Fin 16) (en : Bool) (epoch : BitVec 16) (tenant : BitVec 96)
  | enable (n : Fin 16)
  | disable (n : Fin 16) (force : Bool)
  | prepare (label : BitVec 128)
  | rekey (n : Fin 16) (erase : Bool)
  /-- Roles of ports 0–7, 2 bits each: 0 unassigned, 1 tenant, 2 manager. -/
  | roles (r : BitVec 16)
  | lifecycle (target : Fin 3)
  | admitPair
  | admitSolo
  | admitKeep (side : Fin 2)
  | detach (side : Fin 2)
  /-- A region of the source's table with its context, sent at admission when the tables differ (R359). -/
  | table (n : Fin 16) (a : RgAttr) (en : Bool) (label : BitVec 128)
  deriving DecidableEq, Repr

/-- What an MCMD carries (Table 11.4, FLAGS op): discards as first tile and tile count, poison commands, region commands. -/
inductive TwinCmd where
  | hint (first : BitVec 32) (count : BitVec 33)
  | secure (first : BitVec 32) (count : BitVec 33)
  | inject (line : BitVec 38)
  | clear (line : BitVec 38) (d : Line)
  | region (c : SerCmd)
  deriving DecidableEq, Repr

/-- A HELLO (Table 11.4): `role` 0 NONE, 1 PAIRED, 2 SOLO, 3 FENCED; `down` 0 drain short, 1 drain finished, 2 clean. -/
structure Hello where
  side : Fin 2
  role : Fin 4
  down : Fin 3
  devId : Word
  devRev : Word
  cap : Word
  hash : Word
  pairGen : Word
  nonce : BitVec 64
  splitGen : Word
  deriving DecidableEq, Repr

/-- A message of CXL IDE_KM for a stream (R383). -/
inductive IdeMsg where
  | prog (key : BitVec 256)
  | go
  | stop
  deriving DecidableEq, Repr

/-- An SPDM request (R384). -/
inductive SpdmReq where
  | version
  | capabilities
  | algorithms
  | digests
  | certificate (slot : Fin 8)
  | challenge (slot : Fin 8) (nonce : BitVec 256)
  | measurements (block : BitVec 8) (signed : Bool)
  | keyExchange
  | heartbeat (session : Nat)
  | keyUpdate (session : Nat)
  | endSession (session : Nat)
  | other (code : BitVec 8)
  deriving DecidableEq, Repr

/-- How Load Transfer Key brings its key (R319): in the clear, through an SPDM session of the port or through the mailbox; or wrapped
under a TRANSFER key already held. -/
inductive KeyLoad where
  | clear (session : Option Nat) (key : BitVec 256)
  | wrapped (slot : Fin 4096) (form : BitVec 320)
  deriving DecidableEq, Repr

/-- The mailbox command that a management queue's packet spells (R529): a command of Table 12.6 or Table 12.7, with its arguments. -/
inductive MboxOp where
  | getEvents (log : Fin 5)
  | clearEvents (log : Fin 5) (count : Nat)
  | getPolicy
  | setPolicy (v : BitVec 40)
  | getFwInfo
  | transferFw (part : List Nat) (first last : Bool)
  | activateFw
  | getTime
  | setTime (ns : BitVec 64)
  | getLogs
  | getLog (effects : Bool)
  | identify
  | health
  | getAlerts
  | setAlerts (v : List Nat)
  | getShutdown
  | setShutdown (clean : Bool)
  | poisonList (first : BitVec 38) (count : BitVec 39)
  | inject (line : BitVec 38)
  | clear (line : BitVec 38) (d : Line)
  | scanCaps (first : BitVec 38) (count : BitVec 39)
  | scan (first : BitVec 38) (count : BitVec 39) (bad : List (BitVec 38))
  | scanResults
  | sanitize
  | secureErase
  | dcConfig
  | dcExtents
  | addDc (exts : List (BitVec 16 × BitVec 17))
  | releaseDc (exts : List (BitVec 16 × BitVec 17))
  | latency (clear : Bool)
  | regionSet (n : Fin 16) (a : RgAttr)
  | contextSet (n : Fin 16) (en : Bool) (epoch : BitVec 16) (tenant : BitVec 96)
  | enable (n : Fin 16)
  | disable (n : Fin 16) (force : Bool)
  | query (n : Fin 16)
  | prepare (label : BitVec 128)
  | rekey (n : Fin 16) (erase : Bool)
  | discard (first : BitVec 32) (count : BitVec 33)
  | range (op : Fin 6) (ovr : Bool) (first : BitVec 38) (count : BitVec 39)
  | reportCard
  | readWrite
  | roles (r : BitVec 16)
  | lifecycle (target : Fin 3)
  | wrappedKey (slot : Fin 4096) (form : BitVec 320)
  | streamOpen (window : Fin 16) (imp : Bool) (slot : Fin 4096) (tag : Word) (first : BitVec 38) (count : BitVec 39)
  | streamRun (handle : Fin 4096)
  | streamSave (handle : Fin 4096) (wrapped : Bool)
  | streamRestore (rec : List Word)
  | streamAbort (handle : Fin 4096)
  | admitPair
  | admitSolo
  | admitKeep (side : Fin 2)
  | detach (side : Fin 2)
  | rollRead (first : Fin 8192) (count : Fin 257)
  | rollClear (last : Fin 8192)
  | paramRead (addr : BitVec 17) (count : Fin 2049)
  | paramWrite (addr : BitVec 17) (words : List Word)
  deriving DecidableEq, Repr

/-- A lane-margining command of a link partner (R539): the capability reports, a step with the errors sampled, any other command. -/
inductive MargCmd where
  | caps
  | step (voltage side : Bool) (n : BitVec 7) (errors : BitVec 6)
  | other (code : BitVec 8)
  deriving DecidableEq, Repr

/-- A fault word as the collector reads it (R496); `bad` has a parity error. -/
structure FltWord where
  src : BitVec 8
  sev : Fin 4
  kind : Fin 14
  detail : BitVec 24
  bad : Bool
  deriving DecidableEq, Repr


/-- A copy of the configuration image (R547): its generation, the values of the fields whose Reset reads cfg by window offset, the
governor's parameters (Table 1.5: indices in hundredths, millivolts, evaluations), the port roles (R386), the default reference tables
by (group × 4 + band) × 8 + set (Table 9.8), and LOCK_AT_ACTIVE (R585). -/
structure CfgImage where
  gen : Word
  regs : List (BitVec 24 × Word)
  govLow : BitVec 7
  govHigh : BitVec 7
  govStep : BitVec 5
  govHold : BitVec 7
  roles : BitVec 16
  refs : List (Fin 160 × BitVec 24)
  lockActive : Bool
  deriving DecidableEq, Repr

/-- A paced read of a page by the media patrol (R285): the lines that decode, with their counts of corrected bits, and those that do not. -/
structure ScrubRead where
  bits : List (Fin 257 × Fin 10)
  bad : List (Fin 257)
  deriving DecidableEq, Repr

/-- What the start-up's reads of stored lines add (R186): by place, 512 × page + position, the error patterns of the first read and of up to
three reference-shift retries; a line not listed reads as stored. -/
abbrev ReadNoise := List (Nat × List (BitVec 704))

/-- The commands of the block, one for each row of spec/opcode_table.json, in its order. -/
inductive Instr where
  /-- SPEED_WINDOW_END (R37): A 1,024-tick window of the eight speed monitors ends; the device speed index is formed and the admission guard evaluates it. -/
  | speedWindowEnd (idx : BitVec 88)
  /-- GUARD_LEVEL_RETURN (R41): After 1,024 consecutive windows at or above the return threshold, the guard drops one level. -/
  | guardLevelReturn
  /-- SPEED_MONITOR_ODD (R464): A monitor more than 0.10 below the median in 128 consecutive windows raises a SUPPLY fault and sets its SPD_ODD bit. -/
  | speedMonitorOdd (mon : Fin 8)
  /-- GOVERNOR_EVALUATION (R39): Once per 1 ms interval the lead Proctor compares the speed index with the governor thresholds and may write a new VCORE set point. -/
  | governorEvaluation
  /-- AVSBUS_WRITE_DONE (R40): An AVSBus write settles, or is not acknowledged or fails PEC and is retried once or faulted. -/
  | avsbusWriteDone (ok : Bool)
  /-- TICK_COPY_COMPARE (R46): Every 65,536 ticks each tick copy is compared with page 0 and a differing copy is reloaded with a severity-1 fault. -/
  | tickCopyCompare (differ : BitVec 110)
  /-- REFCLK_ABSENT (R47): No REFCLK edge for 8 µs declares REFCLK absent: tick copies hold, host and Caravan links go down, severity-2 fault. -/
  | refclkAbsent
  /-- REFCLK_RETURN (R47): REFCLK returns and tick counting resumes from the held value. -/
  | refclkReturn
  /-- MEM_READ_REQUEST (R87): A CXL.mem read reaches the router, which applies the state, region, twin-routing and ordering checks and starts the line-cache and map lookups. -/
  | memReadRequest (port : Fin 8) (tag : BitVec 16) (line : BitVec 38) (ups : List Upset)
  /-- DRAM_READ_COMPLETE (R93): A DRAM priority or background read returns, and the read path continues by the tile state of Table 3.3. -/
  | dramReadComplete (id : Nat) (ch : Fin 6) (res : DramRes)
  /-- HELD_MISS_DISPATCH (R90): A held miss is dispatched in acceptance order once the die's count falls below 8. -/
  | heldMissDispatch (die : Fin 320)
  /-- MEDIA_LINE_RECEIVED (R102): A stored line arrives over DQ, is decoded and tag-checked, and is released to the port and the line-cache fill. -/
  | mediaLineReceived (id : Nat) (err : StoredLine) (slotErr seedDue : Bool)
  /-- CIPHER_REQUEST_DONE (R303): A cipher request of class B or S completes into its reserved output buffer. -/
  | cipherRequestDone (id : Nat) (slotErr : Option (Fin 4096 × Bool)) (seedDue bad : Bool)
  /-- GPF_PHASE_1 (R64): GPF Phase 1 stops credits on every port and completes accepted requests. -/
  | gpfPhase1 (port : Fin 8)
  /-- GPF_PHASE_2 (R64): GPF Phase 2 is answered within 10 µs with no media write. -/
  | gpfPhase2 (port : Fin 8)
  /-- MEM_WRITE_REQUEST (R114): A CXL.mem write passes ingress, router, line-cache lookup, charge and data write, and completes or is mirrored. -/
  | memWriteRequest (port : Fin 8) (tag : BitVec 16) (line : BitVec 38) (d : Line) (be : BitVec 64) (ups : List Upset)
  /-- BP_HOLD_EXPIRY (R123): TS_BP_HOLD passes for a held write, which is then charged and proceeds. -/
  | bpHoldExpiry (id : Nat)
  /-- LINE_EVICTION (R127): A line in an eviction buffer is XTS-encrypted into its tile's slot and the buffer frees when the DRAM queue accepts it. -/
  | lineEviction (line : BitVec 38)
  /-- TILE_AGE_LIMIT (R130): A staged tile's age reaches TS_AGE_LIM and it becomes due for programming. -/
  | tileAgeLimit (tile : BitVec 32)
  /-- PAGE_WAIT_EXPIRY (R131): The oldest due tile of a die waits TS_PAGE_WAIT and its page is programmed with empty positions. -/
  | pageWaitExpiry (die : Fin 320)
  /-- PAGE_PROGRAM_START (R132): A page of four due tiles is assembled, its Dirty lines become Flight, and completion reads are issued. -/
  | pageProgramStart (die : Fin 320)
  /-- PAGE_PROGRAM_ISSUE (R132): Once its lines are gathered and encrypted, a page is accumulated into parity and its multi-plane program issued. -/
  | pageProgramIssue (id : Nat)
  /-- STATUS_WORD_RECEIVED (R248): A die's status word and DCRC arrive and the ended program or erase is acted on. -/
  | statusWordReceived (die : Fin 320) (sw : Word) (dcrcOk : Bool)
  /-- TS_FLUSH (R138): TS_CTL.FLUSH makes every tile with a Dirty line due and holds FLUSH_BUSY until they commit. -/
  | tsFlush (path : Path)
  /-- TS_CNT_CLR (R137): A write to TS_CNT_CLR clears the selected tile-stage counters. -/
  | tsCntClr (path : Path) (v : Word)
  /-- LC_EN_CLEAR (R155): A write of 0 to LC_CTL.EN turns the line cache off at once, possibly leaving stale lines held. -/
  | lcEnClear (path : Path)
  /-- LC_EN_SET (R156): A write of 1 to LC_CTL.EN re-enables the line cache, with corruption and STALE_REENABLED if stale lines are held. -/
  | lcEnSet (path : Path)
  /-- SAFE_DISABLE (R158): LC_CTL.SAFE_DISABLE writes back and invalidates every line through the walker and then clears EN. -/
  | safeDisable (path : Path)
  /-- RANGE_INVALIDATE (R148): START with OP 0, or the Range Operation command, queues an INVALIDATE of a DPA range. -/
  | rangeInvalidate (src : RangeSrc)
  /-- RANGE_CLEAN (R148): START with OP 1, or the Range Operation command, queues a CLEAN of a DPA range. -/
  | rangeClean (src : RangeSrc)
  /-- RANGE_CLEAN_INV (R148): START with OP 2, or the Range Operation command, queues a CLEAN_INV of a DPA range. -/
  | rangeCleanInv (src : RangeSrc)
  /-- RANGE_LOCK (R146): START with OP 3, or the Range Operation command, queues a LOCK of a DPA range. -/
  | rangeLock (src : RangeSrc)
  /-- RANGE_UNLOCK (R148): START with OP 4, or the Range Operation command, queues an UNLOCK of a DPA range. -/
  | rangeUnlock (src : RangeSrc)
  /-- RANGE_ZERO (R152): START with OP 5, or the Range Operation command, queues a ZERO of a DPA range. -/
  | rangeZero (src : RangeSrc)
  /-- WALKER_TAKE_OPERATION (R154): The walker takes the next queued register, mailbox or internal operation and sets RUN. -/
  | walkerTakeOperation
  /-- WALKER_VISIT (R152): The walker acts atomically on one set or line of its running operation. -/
  | walkerVisit (ups : List Upset)
  /-- LC_CHECK_WALK_DONE (R163): The post-reset tag walk or clear ends, counting kept dirty and locked lines. -/
  | lcCheckWalkDone (found : List (Fin 65536 × Upset))
  /-- LC_CNT_CLR (R164): A write to LC_CNT_CLR clears the selected line-cache counters. -/
  | lcCntClr (path : Path) (v : Word)
  /-- MAPC_EN_CLEAR (R162): MAPC_CTL.EN going from 1 to 0 starts the map-cache invalidation. -/
  | mapcEnClear (path : Path)
  /-- MAPC_INV (R170): MAPC_CTL.INV starts the map-cache invalidation. -/
  | mapcInv (path : Path)
  /-- MAPC_INV_DONE (R162): The 131,072-step map-cache invalidation ends and INV_BUSY clears. -/
  | mapcInvDone
  /-- MAPC_CNT_CLR (R169): A write to MAPC_CNT_CLR clears the selected map-cache counters. -/
  | mapcCntClr (path : Path) (v : Word)
  /-- MAP_REPAIR_DONE (R175): The repair of an uncorrectable tile-map entry from slot, checkpoint and journal completes. -/
  | mapRepairDone (tile : BitVec 32) (source : Bool)
  /-- PTILE_CONVERT (R178): When the poison table has room, a PTILE tile is converted into line entries. -/
  | ptileConvert (tile : BitVec 32)
  /-- SEQ_HW_RAISED (R189): The PAGE_SEQ_HW increment completes in PST, raising HW and releasing waiting programs. -/
  | seqHwRaised
  /-- JOURNAL_INTERVAL_EXPIRY (R194): TE_JRN_INT passes since the last flush and a journal flush starts. -/
  | journalIntervalExpiry
  /-- TE_FLUSH (R204): TE_CTL.FLUSH flushes the journal. -/
  | teFlush (path : Path)
  /-- TE_CKPT_ALL (R204): TE_CTL.CKPT_ALL checkpoints every changed segment within 4 s. -/
  | teCkptAll (path : Path)
  /-- CHECKPOINT_WRITE (R195): The checkpoint writer programs a changed segment into the map area to keep the journal span. -/
  | checkpointWrite (seg : Nat)
  /-- TE_CNT_CLR (R203): A write to TE_CNT_CLR clears the selected translation-engine counters. -/
  | teCntClr (path : Path) (v : Word)
  /-- REBUILD (R197): After DRAM training the map is rebuilt by the clean, power-loss or kept path, ending in map ready. -/
  | rebuild (noise : ReadNoise)
  /-- STRIPE_CLOSE_TIMEOUT (R211): MG_OBP_WAIT passes after a stripe opened and the stripe closes. -/
  | stripeCloseTimeout (id : Nat)
  /-- VERIFY_ELIGIBLE (R215): 10 ms after its program a page becomes eligible for verification. -/
  | verifyEligible (die : Fin 320) (block page : Fin 2048)
  /-- PAGE_VERIFY (R215): The Sirocco engine reads all 257 lines of a page and verifies it, copying or retiring as found. -/
  | pageVerify (die : Fin 320) (block page : Fin 2048) (bits : List (Fin 257 × Fin 10)) (bad : List (Fin 257 × RecoverBy))
  /-- BLOCK_ERASE (R218): A block awaiting erase whose conditions all hold is erased. -/
  | blockErase (die : Fin 320) (block : Fin 2048)
  /-- GC_COPY (R220): A Tutor chooses a source block by score and copies its valid tiles into the open copy block. -/
  | gcCopy (die : Fin 320) (tutor : Fin 24)
  /-- WEAR_LEVEL_COPY (R223): Static wear levelling copies the least-worn verified block while the erase spread exceeds TE_WL_SPREAD. -/
  | wearLevelCopy (die : Fin 320) (tutor : Fin 24)
  /-- SPARE_RECOMPUTE (R227): Every 1 ms and on block state change the spare percentages are recomputed. -/
  | spareRecompute
  /-- RETIRED_DIE_TILE_WORK (R226): The Tutors move or whole-poison each tile homed on a retired die. -/
  | retiredDieTileWork (die : Fin 320) (twin : Option (List Line))
  /-- TE_UPK_CNT_CLR (R232): A write to TE_UPK_CNT_CLR clears the selected upkeep counters. -/
  | teUpkCntClr (path : Path) (v : Word)
  /-- MG_OBP_CNT_CLR (R235): A write to MG_OBP_CNT_CLR clears the selected OBP counters. -/
  | mgObpCntClr (group : Fin 5) (path : Path) (v : Word)
  /-- CHANNEL_TRAINING (R252): Once VMIO is good a media channel is reset and trained through the steps of Table 8.10. -/
  | channelTraining (ch : Fin 40) (r : ChanTrain)
  /-- READY_ROUND_REPORT (R242): A die's ready-round slot reports HC, B and D, and the controller issues SEND or STATUS. -/
  | readyRoundReport (die : Fin 320) (hc : Fin 4) (b d : Bool)
  /-- READ_TIMEOUT (R255): A line not reported MG_RD_TO after its READ_LINE starts the timeout recovery. -/
  | readTimeout (id : Nat) (mark occupied : Bool)
  /-- TRACK_INTERVAL (R253): MG_TRACK_INT passes and a die's read phase is re-checked by TRAIN sub-operation 3. -/
  | trackInterval (die : Fin 320) (up down : Bool)
  /-- SUSPEND_WARN (R246): A program or erase stays suspended for MG_SUSP_WARN and a Roll book record is written. -/
  | suspendWarn (die : Fin 320)
  /-- MC_RETRAIN (R259): MC_CTL.RETRAIN re-runs channel training while EN is 0. -/
  | mcRetrain (ch : Fin 40) (path : Path)
  /-- MC_PAT_START (R261): MC_PAT_CTL.START starts the pattern test at both ends. -/
  | mcPatStart (ch : Fin 40) (path : Path) (v : Word)
  /-- MC_PAT_STOP (R261): MC_PAT_CTL.STOP stops the pattern test and reads the die's PAT_ERR. -/
  | mcPatStop (ch : Fin 40) (path : Path) (errs : Word) (lanes : BitVec 16)
  /-- MC_CNT_CLR (R258): A write to MC_CNT_CLR clears the selected channel counters. -/
  | mcCntClr (ch : Fin 40) (path : Path) (v : Word)
  /-- READ_LINE (R241): The die accepts READ_LINE into the named slot and starts sensing the line. -/
  | readLine (die : Fin 320) (arg : BitVec 40) (crc : BitVec 8)
  /-- SEND_H (R243): The die drives its oldest sensed host line on DQ and frees the slot. -/
  | sendH (die : Fin 320) (crc : BitVec 8)
  /-- SEND_B (R243): The die drives its oldest sensed background line on DQ and frees the slot. -/
  | sendB (die : Fin 320) (crc : BitVec 8)
  /-- PROG_SETUP (R240): The die opens a page image and enters LOADING. -/
  | progSetup (die : Fin 320) (arg : BitVec 24) (crc : BitVec 8)
  /-- DATA_IN (R244): The die takes one 256-byte burst of the page image. -/
  | dataIn (die : Fin 320) (idx : BitVec 8) (data : BitVec 2048) (crc : BitVec 8)
  /-- PROG_CONFIRM (R245): The die starts the multi-plane program once occupied slots are sensed. -/
  | progConfirm (die : Fin 320) (crc : BitVec 8)
  /-- PROG_CANCEL (R240): The die discards the page image and returns to IDLE. -/
  | progCancel (die : Fin 320) (crc : BitVec 8)
  /-- ERASE (R240): The die starts a block erase once occupied slots are sensed. -/
  | erase (die : Fin 320) (arg : BitVec 16) (crc : BitVec 8)
  /-- SUSPEND (R246): The die begins suspending a running program or erase. -/
  | suspend (die : Fin 320) (crc : BitVec 8)
  /-- RESUME (R246): The die resumes a suspended operation after sensing occupied slots. -/
  | resume (die : Fin 320) (crc : BitVec 8)
  /-- STATUS (R248): The die drives its status word and DCRC and clears D and the sticky errors. -/
  | status (die : Fin 320) (crc : BitVec 8)
  /-- FEATURE_SET (R249): The die writes a feature of Table 8.7. -/
  | featureSet (die : Fin 320) (addr : BitVec 8) (v : Word) (crc : BitVec 8)
  /-- FEATURE_GET (R249): The die drives the value of a feature. -/
  | featureGet (die : Fin 320) (addr : BitVec 8) (crc : BitVec 8)
  /-- REF_ADJ (R250): The die loads a reference set's three offsets. -/
  | refAdj (die : Fin 320) (set : BitVec 8) (offs : BitVec 24) (crc : BitVec 8)
  /-- TRAIN (R252): The die runs a TRAIN sub-operation. -/
  | train (ch : Fin 40) (ce : BitVec 8) (sub param : BitVec 8) (crc : BitVec 8)
  /-- SYNC (R242): The die aligns its ready round and leaves CA_TRAIN. -/
  | sync (ch : Fin 40) (ce : BitVec 8) (crc : BitVec 8)
  /-- RESET (R245): The die soft-resets into RESET. -/
  | reset (ch : Fin 40) (ce : BitVec 8) (crc : BitVec 8)
  /-- RST_N (R245): RST_N low puts every die of a channel in RESET; its release leads to CA_TRAIN. -/
  | rstN (ch : Fin 40) (high : Bool)
  /-- LINE_SENSED (R243): A die finishes sensing a line into its output register. -/
  | lineSensed (die : Fin 320) (slot : Fin 12) (err : StoredLine)
  /-- OPERATION_ENDS (R245): A die's program or erase ends, setting D and PF. -/
  | operationEnds (die : Fin 320) (failed : Bool)
  /-- SUSPENSION_POINT_REACHED (R245): A suspending die reaches its suspension point and enters SUSPENDED. -/
  | suspensionPointReached (die : Fin 320)
  /-- DIE_RESET_DONE (R245): A die leaves RESET for IDLE after the RESET command. -/
  | dieResetDone (die : Fin 320)
  /-- DRIFT_CLOCK_SECOND (R273): Each second every zone's drift clock advances by its band's factor. -/
  | driftClockSecond
  /-- AGE_LEDGER_ENTRY (R274): After 60 minutes of operating time an age-ledger entry is written to PST. -/
  | ageLedgerEntry
  /-- DRAM_LEDGER_ENTRY (R274): At least once a minute the next sequence number and drift clocks are recorded in DRAM. -/
  | dramLedgerEntry
  /-- BLOCK_AGE_RECOMPUTE (R276): Every 60 s each block age-table entry is recomputed. -/
  | blockAgeRecompute
  /-- REFERENCE_SET_LOAD (R277): A changed reference set is loaded by REF_ADJ when its die is next idle, loading or suspended. -/
  | referenceSetLoad (die : Fin 320)
  /-- READ_REFERENCE_TRACKING (R279): Once per SIR_TRACK_INT each die's reference sets are refined from sample reads. -/
  | readReferenceTracking (die : Fin 320) (scores : List (Fin 5 × Nat × List Nat))
  /-- AGE_SWEEP (R282): The age sweep reads UNKNOWN blocks with sets 0–5 to classify them. -/
  | ageSweep (die : Fin 320) (block : Fin 2048) (bits : List Nat)
  /-- DRIFT_REFRESH (R284): A block due by drift is refreshed by copying its valid tiles. -/
  | driftRefresh (die : Fin 320) (block : Fin 2048)
  /-- SCRUB_PASS (R287): A media patrol scrub pass starts against its deadline grid. -/
  | scrubPass
  /-- UNREQUESTED_RECOVERY (R286): An uncorrectable line found by background work is recovered or poisoned. -/
  | unrequestedRecovery (how : RecoverBy)
  /-- SRAM_PATROL_PASS (R268): An SRAM patrol pass starts against its deadline grid. -/
  | sramPatrolPass
  /-- SRAM_PATROL_WORD (R267): The patrol reads a word, corrects it and rewrites it if unchanged. -/
  | sramPatrolWord (r : Patrol)
  /-- SIR_CHK_WRITE (R270): SIR_CHK_CTL.WRITE stores data and check bits raw into a tested word. -/
  | sirChkWrite (path : Path) (array : Fin 8)
  /-- SIR_CHK_READ (R270): SIR_CHK_CTL.READ passes the tested word through its checker. -/
  | sirChkRead (path : Path) (array : Fin 8)
  /-- SIR_CHK_END (R270): SIR_CHK_CTL.END ends the checker test and invalidates tested entries. -/
  | sirChkEnd (path : Path)
  /-- MG_CW_ENCODE (R271): MG_CW_CTL.ENCODE computes PAR in the codeword buffer. -/
  | mgCwEncode (group : Fin 5) (path : Path)
  /-- MG_CW_DECODE (R271): MG_CW_CTL.DECODE decodes the codeword buffer into MG_CW_RES. -/
  | mgCwDecode (group : Fin 5) (path : Path) (wb : Bool)
  /-- SIR_LAG_CLR (R290): SIR_CTL.LAG_CLR sets SIR_LAG_MAX to SIR_LAG. -/
  | sirLagClr (path : Path)
  /-- SIR_CNT_CLR (R289): A write to SIR_CNT_CLR clears the selected Sirocco counters. -/
  | sirCntClr (path : Path) (v : Word)
  /-- MG_CDC_CNT_CLR (R288): A write to MG_CDC_CNT_CLR clears the selected codec counters. -/
  | mgCdcCntClr (group : Fin 5) (path : Path) (v : Word)
  /-- KEY_DERIVATION_DONE (R301): A key derivation completes and its slot becomes VALID. -/
  | keyDerivationDone
  /-- SLOT_FREED (R300): A RELEASING slot is zeroised and freed once its request count reaches 0. -/
  | slotFreed (slot : Fin 4096)
  /-- ROTATION_RECORD_WRITTEN (R308): The region's PST record with both epochs and ROT_SEQ completes and the new key takes effect. -/
  | rotationRecordWritten (region : Fin 16)
  /-- ENTROPY_HEALTH_TEST (R314): A 1,024-sample health-test window ends, passing or discarding its samples. -/
  | entropyHealthTest (pass : Bool)
  /-- ENTROPY_RETRY (R314): A failed entropy source retries after 100 ms. -/
  | entropyRetry (pass : Bool)
  /-- DRBG_RESEED (R315): The DRBG reseeds after 2^20 requests or 1 s, or stops when the source has failed. -/
  | drbgReseed
  /-- EXPORT_CHUNK_PRODUCE (R320): The next export chunk is produced into its frame once the host has read an earlier trailer. -/
  | exportChunkProduce (window : Fin 16)
  /-- IMPORT_LINE_WRITE (R321): A ciphertext or PMAP line written into an import window is decrypted and accumulated. -/
  | importLineWrite (port : Fin 8) (tag : BitVec 16) (line : BitVec 38) (d : Line) (be : BitVec 64)
  /-- IMPORT_TRAILER (R321): Trailer line 0 arrives and the chunk is checked for completeness, form and tag. -/
  | importTrailer (port : Fin 8) (tag : BitVec 16) (line : BitVec 38) (d : Line) (be : BitVec 64)
  /-- IMPORT_CHUNK_COMMIT (R322): A verified chunk commits its lines once the dirty count is below the hold mark. -/
  | importChunkCommit (window : Fin 16)
  /-- KAT_RUN (R328): CE_CTL.KAT_RUN repeats the known-answer tests in OPEN. -/
  | katRun (path : Path)
  /-- CE_CNT_CLR (R327): A write to CE_CNT_CLR clears the selected cipher counters. -/
  | ceCntClr (path : Path) (v : Word)
  /-- HELLO (R345): A received HELLO is checked and answered with PROOF. -/
  | hello (h : Hello) (flistOk : Bool)
  /-- PROOF (R345): A received PROOF completes the attach checks and may attach the pair. -/
  | proof (mac : Nat)
  /-- HB (R346): A received heartbeat restarts the idle timer. -/
  | hb (dev : Fin 6) (role : Fin 4) (token draining : Bool)
  /-- CRD (R343): Returned Caravan credits are added to their classes. -/
  | crd (f m : BitVec 16) (p r : BitVec 8)
  /-- DOWN (R354): A received DOWN makes the controller take the token and become SOLO. -/
  | down (cause : Fin 4)
  /-- FWD_RD (R336): The owner performs a forwarded read as though its own port received it. -/
  | fwdRd (tag : BitVec 32) (line : BitVec 38) (port : Fin 8) (ups : List Upset)
  /-- FWD_WR (R336): The owner performs a forwarded write and mirrors it back. -/
  | fwdWr (tag : BitVec 32) (line : BitVec 38) (port : Fin 8) (be : BitVec 64) (d : Line) (ups : List Upset)
  /-- FWD_RSP (R336): A forwarded read's response arrives and is sent to the host. -/
  | fwdRsp (tag : Nat) (poison : Bool) (cls : Fin 8) (rank : Fin 16) (d : Line)
  /-- FWD_CMP (R336): A forwarded write's completion arrives and the write completes to the host. -/
  | fwdCmp (tag : Nat) (np : Bool) (cls : Fin 8) (rank : Fin 16)
  /-- MWR (R337): The partner places and charges a mirrored line and acknowledges it. -/
  | mwr (seq : Nat) (line : BitVec 38) (d : Line) (poison : Bool) (ups : List Upset)
  /-- MCMD (R337): The twin performs a mirrored command and sends MCMD_ACK. -/
  | mcmd (tag : Nat) (c : TwinCmd)
  /-- MACK (R337): A cumulative MACK completes every covered mirrored write. -/
  | mack (seq : Nat) (held : Bool)
  /-- MCMD_ACK (R337): An MCMD_ACK completes a mirrored command or its secure-discard part. -/
  | mcmdAck (tag : Nat) (status : BitVec 7) (done : Bool)
  /-- REP_REQ (R339): The twin reads the requested line and answers REP_RSP. -/
  | repReq (tag : Nat) (line : BitVec 38) (ups : List Upset)
  /-- REP_RSP (R339): A repair response releases the line or counts as FAIL. -/
  | repRsp (tag : Nat) (fail : Bool) (d : Line)
  /-- TOKEN_OFFER (R349): The receiver pulls TWIN_TOKEN low and sends TOKEN_TAKE. -/
  | tokenOffer
  /-- TOKEN_TAKE (R349): The holder releases the token and sends TOKEN_DONE. -/
  | tokenTake
  /-- TOKEN_DONE (R349): The receiver becomes the token holder. -/
  | tokenDone
  /-- RS_START (R360): The target starts a resync stream for a region. -/
  | rsStart (region : Fin 16) (full : Bool) (gen : Word) (nonce : BitVec 64)
  /-- RS_CHUNK (R360): The target receives and verifies one resync chunk. -/
  | rsChunk (chunk : BitVec 64) (tile : BitVec 32) (zero staged : Bool) (pmap : BitVec 64) (tag : BitVec 128) (data : List Line)
  /-- RS_CHUNK_COMMIT (R360): A verified resync chunk commits its tile as bypassing writes. -/
  | rsChunkCommit (chunk : BitVec 64)
  /-- RS_RES (R360): The source receives a chunk result and re-sets bits of failed chunks. -/
  | rsRes (chunk : BitVec 64) (res : Fin 16)
  /-- RS_SUSPECT (R359): The source sets the bitmap bits of the listed fence-list tiles. -/
  | rsSuspect (tiles : List (BitVec 32))
  /-- RS_END (R361): The target receives the end of a region's resync. -/
  | rsEnd (region : Fin 16) (last : Bool)
  /-- CAR_IDLE_TO (R346): No packet received for CAR_IDLE_TO declares link loss. -/
  | carIdleTo
  /-- CAR_RSP_TO (R346): An MWR or token packet unanswered for CAR_RSP_TO declares link loss. -/
  | carRspTo
  /-- MCMD_TIMEOUT (R346): An MCMD without its first MCMD_ACK for 100 ms declares link loss. -/
  | mcmdTimeout
  /-- REPAIR_TIMEOUT (R339): A REP_REQ unanswered for 15 µs counts as FAIL. -/
  | repairTimeout (tag : Nat)
  /-- FLIT_REPLAY_LIMIT (R346): A flit replayed four times declares link loss. -/
  | flitReplayLimit
  /-- ALIVE_TIMEOUT (R346): No edge on TWIN_ALIVE_IN for 100 µs declares link loss. -/
  | aliveTimeout
  /-- CARAVAN_SIGNAL_LOSS (R350): Loss of signal at the Caravan PHY declares link loss. -/
  | caravanSignalLoss
  /-- FAILOVER_SETTLE (R350): The holder reaches T0 + CAR_SETTLE and becomes SOLO. -/
  | failoverSettle
  /-- FAILOVER_WINDOW_END (R350): A non-holder whose token line stayed low until T0 + 30 µs fences. -/
  | failoverWindowEnd
  /-- SIDE1_TOKEN_WAIT (R350): Side 1's 100 µs wait ends; it pulls the token if the line is still high, or fences. -/
  | side1TokenWait
  /-- TWIN_TOKEN_CHANGE (R347): The filtered TWIN_TOKEN line changes level. -/
  | twinTokenChange (high : Bool)
  /-- ALIVE_TOGGLE (R348): Every 10 µs TWIN_ALIVE_OUT toggles while the core is in service. -/
  | aliveToggle
  /-- HB_SEND (R346): After 1 µs with no other packet sent, a heartbeat is sent. -/
  | hbSend
  /-- CARAVAN_LINK_UP (R345): Caravan trains to x16 at 64 GT/s and sends HELLO. -/
  | caravanLinkUp
  /-- CARAVAN_TRAIN_RETRY (R340): A failed Caravan training repeats every 100 ms. -/
  | caravanTrainRetry
  /-- ROLE_DECISION (R363): At the later of map ready and CAR_ATTACH_TO the twin role is decided by the start-up rules. -/
  | roleDecision
  /-- ADMIT_PAIR (R359): Admit in pair mode admits the fenced controller as resync target. -/
  | admitPair (port : Fin 8)
  /-- ADMIT_SOLO (R355): Admit in SOLO mode makes a fenced controller SOLO with its own copy. -/
  | admitSolo (port : Fin 8)
  /-- ADMIT_KEEP (R356): Admit in KEEP mode settles a diverged pair by fencing or keeping the named side. -/
  | admitKeep (port : Fin 8) (side : Fin 2)
  /-- DETACH (R364): Detach moves the token, sends DOWN, fences the leaving controller and makes the other SOLO. -/
  | detach (port : Fin 8) (side : Fin 2)
  /-- CAR_RETRAIN (R367): CAR_CTL.RETRAIN retrains the link while not paired. -/
  | carRetrain (path : Path)
  /-- CAR_CNT_CLR (R366): A write to CAR_CNT_CLR clears the selected Caravan counters. -/
  | carCntClr (path : Path) (v : Word)
  /-- PERST_N_ASSERT (R372): PERST_N[n] resets port n's link, IDE, SPDM, decoders, configuration space and counters. -/
  | perstNAssert (port : Fin 8)
  /-- PERST_N_RELEASE (R372): PERST_N[n] rises and port n begins training. -/
  | perstNRelease (port : Fin 8)
  /-- HOST_LINK_UP (R370): A host link reaches L0 and enables CXL.mem only at 64 GT/s flit mode. -/
  | hostLinkUp (port : Fin 8) (width : Fin 17) (rate : Fin 7) (flit256 lopt : Bool)
  /-- HOST_LINK_DOWN (R395): A host link leaves L0 other than by PERST_N. -/
  | hostLinkDown (port : Fin 8)
  /-- IDE_INTEGRITY_FAILURE (R383): An IDE integrity failure ends the stream and raises a severity-2 fault. -/
  | ideIntegrityFailure (port : Fin 8) (mem : Bool)
  /-- IDE_KM (R383): An IDE_KM message sets keys of a port's IDE streams inside an SPDM session. -/
  | ideKm (port : Fin 8) (session : Nat) (mem : Bool) (msg : IdeMsg)
  /-- SPDM_REQUEST (R384): The SPDM responder answers a request on the port's DOE. -/
  | spdmRequest (port : Fin 8) (req : SpdmReq)
  /-- GET_EVENT_RECORDS (R393): Returns event records of a port's log. -/
  | getEventRecords (port : Fin 8) (log : Fin 5)
  /-- CLEAR_EVENT_RECORDS (R393): Clears event records of a port's log. -/
  | clearEventRecords (port : Fin 8) (log : Fin 5) (count : Nat)
  /-- GET_EVENT_INTERRUPT_POLICY (R393): Returns the event interrupt policy. -/
  | getEventInterruptPolicy (port : Fin 8)
  /-- SET_EVENT_INTERRUPT_POLICY (R393): Sets the event interrupt policy. -/
  | setEventInterruptPolicy (port : Fin 8) (v : BitVec 40)
  /-- GET_FW_INFO (R389): Returns information on the two firmware slots. -/
  | getFwInfo (port : Fin 8)
  /-- TRANSFER_FW (R389): Writes firmware into the inactive slot and checks its signature at the last part. -/
  | transferFw (port : Fin 8) (part : List Nat) (first last : Bool)
  /-- ACTIVATE_FW (R549): Makes the other slot active in the directory from the next DEV_RST_N. -/
  | activateFw (port : Fin 8)
  /-- GET_TIMESTAMP (R389): Returns the timestamp. -/
  | getTimestamp (port : Fin 8)
  /-- SET_TIMESTAMP (R281): Sets the timestamp and may end the unknown-age state. -/
  | setTimestamp (port : Fin 8) (ns : BitVec 64)
  /-- GET_SUPPORTED_LOGS (R389): Returns the supported logs. -/
  | getSupportedLogs (port : Fin 8)
  /-- GET_LOG (R389): Returns the Command Effects Log. -/
  | getLog (port : Fin 8) (effects : Bool)
  /-- IDENTIFY_MEMORY_DEVICE (R389): Returns the memory device identity and capacities. -/
  | identifyMemoryDevice (port : Fin 8)
  /-- GET_HEALTH_INFO (R390): Returns health fields filtered by port role. -/
  | getHealthInfo (port : Fin 8)
  /-- GET_ALERT_CONFIGURATION (R389): Returns alert thresholds. -/
  | getAlertConfiguration (port : Fin 8)
  /-- SET_ALERT_CONFIGURATION (R389): Sets alert thresholds. -/
  | setAlertConfiguration (port : Fin 8) (v : List Nat)
  /-- GET_SHUTDOWN_STATE (R381): Returns the clean-shutdown flag from PST. -/
  | getShutdownState (port : Fin 8)
  /-- SET_SHUTDOWN_STATE (R381): Writes the clean-shutdown flag in PST. -/
  | setShutdownState (port : Fin 8) (clean : Bool)
  /-- GET_POISON_LIST (R394): Returns poison-table entries of the requested range in ascending DPA. -/
  | getPoisonList (port : Fin 8) (first : BitVec 38) (count : BitVec 39)
  /-- INJECT_POISON (R394): Poisons one line, ordered as a write and mirrored. -/
  | injectPoison (port : Fin 8) (line : BitVec 38)
  /-- CLEAR_POISON (R71): Clears a line's poison and stores the data carried. -/
  | clearPoison (port : Fin 8) (line : BitVec 38) (d : Line)
  /-- GET_SCAN_MEDIA_CAPABILITIES (R394): Returns scan-media capabilities for a range. -/
  | getScanMediaCapabilities (port : Fin 8) (first : BitVec 38) (count : BitVec 39)
  /-- SCAN_MEDIA (R394): Reads every line of a range at background priority. -/
  | scanMedia (port : Fin 8) (first : BitVec 38) (count : BitVec 39) (bad : List (BitVec 38))
  /-- GET_SCAN_MEDIA_RESULTS (R394): Returns the lines a scan found uncorrectable. -/
  | getScanMediaResults (port : Fin 8)
  /-- SANITIZE (R389): Generates a new RK, erases every block, unmaps every tile and disables every region. -/
  | sanitize (port : Fin 8)
  /-- SECURE_ERASE (R389): Generates a new RK so encrypted lines read as poison. -/
  | secureErase (port : Fin 8)
  /-- GET_DC_CONFIGURATION (R377): Returns the Dynamic Capacity configuration. -/
  | getDcConfiguration (port : Fin 8)
  /-- GET_DC_EXTENT_LIST (R377): Returns the extents of the port's own regions. -/
  | getDcExtentList (port : Fin 8)
  /-- ADD_DC_RESPONSE (R378): A host's response accepts or declines an offered extent. -/
  | addDcResponse (port : Fin 8) (exts : List (BitVec 16 × BitVec 17))
  /-- RELEASE_DC (R379): A host releases an extent with a release pending, completing Region Disable. -/
  | releaseDc (port : Fin 8) (exts : List (BitVec 16 × BitVec 17))
  /-- UNSUPPORTED_OPCODE (R389): An unlisted standard opcode returns Unsupported. -/
  | unsupportedOpcode (port : Fin 8) (opcode : BitVec 16)
  /-- GET_LATENCY_REPORT (R392): Returns the LATE and router counters captured in one handshake, optionally clearing them. -/
  | getLatencyReport (port : Fin 8) (clear : Bool)
  /-- REGION_SET (R52): Sets a disabled region's attributes. -/
  | regionSet (port : Fin 8) (n : Fin 16) (a : RgAttr)
  /-- CONTEXT_SET (R297): Sets a disabled region's context label or None. -/
  | contextSet (port : Fin 8) (n : Fin 16) (en : Bool) (epoch : BitVec 16) (tenant : BitVec 96)
  /-- REGION_ENABLE (R378): Derives the region's key, sets EN and offers the extent. -/
  | regionEnable (port : Fin 8) (n : Fin 16)
  /-- REGION_DISABLE (R379): Places a Release Capacity record and waits for the host's release. -/
  | regionDisable (port : Fin 8) (n : Fin 16)
  /-- REGION_DISABLE_FORCE (R379): Clears EN at once and places a Forced Capacity Release record. -/
  | regionDisableForce (port : Fin 8) (n : Fin 16)
  /-- REGION_DISABLE_TIMEOUT (R379): No release arrives within TIMEOUT and Region Disable completes with TIMEOUT. -/
  | regionDisableTimeout (n : Fin 16)
  /-- REGION_QUERY (R391): Returns a region's control, status, extent state and slot. -/
  | regionQuery (port : Fin 8) (n : Fin 16)
  /-- CONTEXT_PREPARE (R299): Derives a context's key into a slot ahead of use. -/
  | contextPrepare (port : Fin 8) (label : BitVec 128)
  /-- REKEY (R308): Derives EPOCH + 1 and starts a key rotation. -/
  | rekey (port : Fin 8) (n : Fin 16)
  /-- REKEY_ERASE (R309): Derives EPOCH + 1 and secure-discards the region's range. -/
  | rekeyErase (port : Fin 8) (n : Fin 16)
  /-- DISCARD (R65): Records a discard of a tile range in the region's discard mode. -/
  | discard (port : Fin 8) (first : BitVec 32) (count : BitVec 33)
  /-- SECURE_DISCARD_ACCEPT (R66): After the walker's line-cache pass and the journal flush, a secure discard is accepted and reads zero. -/
  | secureDiscardAccept (id : Nat)
  /-- GET_REPORT_CARD (R231): Returns the 1,920-byte Report card on the manager port. -/
  | getReportCard (port : Fin 8)
  /-- SET_READ_WRITE (R229): Returns the device to read-write when CRITICAL and SEQ_RO are clear. -/
  | setReadWrite (port : Fin 8)
  /-- PORT_ROLE_SET (R387): Changes port roles, including the manager port. -/
  | portRoleSet (port : Fin 8) (r : BitVec 16)
  /-- LIFECYCLE_SET (R295): Moves the cipher engine to SECURED or RETIRED. -/
  | lifecycleSet (port : Fin 8) (target : Fin 3)
  /-- LOAD_TRANSFER_KEY (R319): Loads a transfer key into a TRANSFER slot. -/
  | loadTransferKey (port : Fin 8) (k : KeyLoad)
  /-- LOAD_PAIR_KEY (R345): Loads the twin pair key into slot 3 and PST. -/
  | loadPairKey (port : Fin 8) (session : Option Nat) (key : BitVec 256)
  /-- STREAM_OPEN (R319): Opens a sealed stream on a window and returns the device nonce. -/
  | streamOpen (port : Fin 8) (window : Fin 16) (imp : Bool) (slot : Fin 4096) (tag : Word) (first : BitVec 38) (count : BitVec 39)
  /-- STREAM_RUN (R320): Runs a stream until it ends with its result. -/
  | streamRun (port : Fin 8) (handle : Fin 4096)
  /-- STREAM_SAVE (R324): Parks a stream and returns its state record. -/
  | streamSave (port : Fin 8) (handle : Fin 4096) (wrapped : Bool)
  /-- STREAM_RESTORE (R325): Restores a parked stream from its record after the checks. -/
  | streamRestore (port : Fin 8) (rec : List Word)
  /-- STREAM_ABORT (R323): Ends a stream with result ABORT. -/
  | streamAbort (port : Fin 8) (handle : Fin 4096)
  /-- ROLL_BOOK_READ (R489): Returns up to 256 Roll book records. -/
  | rollBookRead (port : Fin 8) (first : Fin 8192) (count : Fin 257)
  /-- ROLL_BOOK_ARCHIVE_AND_CLEAR (R491): Closes the open record, moves the head and erases the freed rows. -/
  | rollBookArchiveAndClear (port : Fin 8) (last : Fin 8192)
  /-- PARAMETER_READ (R475): Returns up to 2,048 PST words. -/
  | parameterRead (port : Fin 8) (addr : BitVec 17) (count : Fin 2049)
  /-- PARAMETER_WRITE (R482): Writes a new cell of a configuration record with changed words. -/
  | parameterWrite (port : Fin 8) (addr : BitVec 17) (words : List Word)
  /-- HP_RETRAIN (R395): HP_CTL.RETRAIN retrains the port's link. -/
  | hpRetrain (path : Path) (port : Fin 8)
  /-- HP_CNT_CLR (R395): A write to HP_CNT_CLR clears the selected port counters. -/
  | hpCntClr (path : Path) (port : Fin 8) (v : Word)
  /-- HP_BW_WIN_WRITE (R396): A write to HP_BW_WIN discards the window in progress and starts a new one. -/
  | hpBwWinWrite (path : Path) (port : Fin 8) (v : Word)
  /-- BANDWIDTH_WINDOW_END (R396): A bandwidth window ends, latching byte counts and starting the next. -/
  | bandwidthWindowEnd (port : Fin 8)
  /-- DRAM_TRAINING (R407): Once VDDQ is good a DRAM channel trains through Table 13.4. -/
  | dramTraining (ch : Fin 6) (ok popOk : Bool)
  /-- DRAM_REFRESH (R404): A same-bank refresh is issued in turn across the stripe group. -/
  | dramRefresh (group : Fin 2) (bank : Fin 32)
  /-- MR4_POLL (R403): Every 16 ms MR4 of every device is read and the refresh rate adjusted. -/
  | mr4Poll (ch : Fin 6) (code : BitVec 3) (hot oor : Bool)
  /-- DRAM_SCRUB_WORD (R409): The DRAM scrub reads a word in idle time and rewrites a corrected one. -/
  | dramScrubWord (ch : Fin 6) (res : DramRes) (area : DramArea) (last : Bool)
  /-- DC_CNT_CLR (R412): A write to DC_CNT_CLR clears the selected DRAM counters. -/
  | dcCntClr (ch : Fin 6) (path : Path) (v : Word)
  /-- MOD_EN_RISE (R419): A rising MOD_EN is an on request. -/
  | modEnRise
  /-- MOD_EN_FALL (R419): A falling MOD_EN is an off request. -/
  | modEnFall
  /-- PSQ_ON (R445): PSQ_CTL.ON is an on request. -/
  | psqOn (path : Path)
  /-- PSQ_OFF (R445): PSQ_CTL.OFF is an off request. -/
  | psqOff (path : Path)
  /-- PSQ_CLR_LOCK (R424): PSQ_CTL.CLR_LOCK leaves LOCKOUT of cause 1, 2 or 4 for OFF. -/
  | psqClrLock (path : Path)
  /-- INPUT_FAIL (R426): IN_SNS falls below the fail threshold and the phase's input-failure outcome follows. -/
  | inputFail
  /-- INPUT_GOOD (R426): IN_SNS stays above the good threshold for 10 ms and the input is good. -/
  | inputGood
  /-- POWER_UP_START (R422): With an on request, good input and rails discharged, the power-up sequence begins. -/
  | powerUpStart
  /-- DISCH_WAIT_TIMEOUT (R422): A rail still not discharged 5 s into DISCH_WAIT enters LOCKOUT cause 2. -/
  | dischWaitTimeout
  /-- RAIL_ENABLE_DELAY (R422): An entry's DLY passes and its RAIL_EN is asserted. -/
  | railEnableDelay
  /-- RAIL_POWER_GOOD (R422): An entry becomes good and the next entry starts, or RAILS_UP is set after the last. -/
  | railPowerGood (kat : Bool)
  /-- PG_TIMEOUT (R423): An entry's PG_TO expires and the power-up fails. -/
  | pgTimeout
  /-- RAIL_DISCHARGED (R425): A rail counts as discharged and DOWN proceeds to the next entry. -/
  | railDischarged
  /-- DIS_TIMEOUT (R425): An entry's DIS_TO passes before discharge and DOWN continues with a fault. -/
  | disTimeout
  /-- MIN_OFF_END (R421): The 250 ms minimum off time ends and the PSQ returns to OFF or power-up. -/
  | minOffEnd
  /-- RAIL_PG_FALL (R427): A good rail's RAIL_PG falls and a rail fault is declared. -/
  | railPgFall (pg : Fin 16)
  /-- MARGIN_APPLY (R431): PSQ_MARG_CTL.APPLY margins a PMB or VCORE entry. -/
  | marginApply (path : Path) (entry : Fin 16) (off : BitVec 8) (lvl : Fin 4)
  /-- MARGIN_STOP (R432): PSQ_MARG_CTL.STOP returns every margin to nominal. -/
  | marginStop (path : Path)
  /-- MARGIN_TIMEOUT (R432): PSQ_MARG_TO after the latest APPLY returns every margin to nominal. -/
  | marginTimeout
  /-- PMBUS_TRANSACTION_DONE (R430): A PMBus transaction completes, or fails and is retried or faulted. -/
  | pmbusTransactionDone (ok : Bool) (data : BitVec 16)
  /-- CISTERN_AVERAGE (R433): Each 1 ms the Cistern conversions are averaged into CIS_V. -/
  | cisternAverage (sum : BitVec 16)
  /-- BUDGET_COMPUTE (R437): Every 1 ms the PSQ computes the dirty budget and delivers it to the tile stage. -/
  | budgetCompute
  /-- CIS_TEST (R435): CIS_CTL.TEST starts a capacitance test. -/
  | cisTest (path : Path)
  /-- CIS_CHARGE_DEADLINE (R435): At start-up CIS_V reaches CIS_VFULL or CIS_CHG_TO passes, starting the first test. -/
  | cisChargeDeadline (timeout : Bool)
  /-- CIS_TEST_INTERVAL (R435): CIS_TEST_INT passes and a capacitance test starts. -/
  | cisTestInterval
  /-- CIS_TEST_DEFER_RETRY (R435): A deferred test retries its start conditions after 1 s. -/
  | cisTestDeferRetry
  /-- CIS_TEST_REPEAT (R436): An invalid test is repeated once after 60 s. -/
  | cisTestRepeat
  /-- CAP_TEST_STEP (R434): A timed window of the capacitance test ends and its reading is taken. -/
  | capTestStep
  /-- DRAIN_STEP_DONE (R439): A drain step completes and the next step of Table 14.9 begins. -/
  | drainStepDone
  /-- THERMAL_DRAIN_LIMIT (R439): 500 ms after a thermal trip the unfinished drain ends short. -/
  | thermalDrainLimit
  /-- SHUTDOWN_STEP_DONE (R442): A clean-shutdown step completes and the next begins. -/
  | shutdownStepDone
  /-- PSQ_CNT_CLR (R444): A write to PSQ_CNT_CLR clears the PSQ counters. -/
  | psqCntClr (path : Path) (v : Word)
  /-- CIS_CNT_CLR (R444): A write to CIS_CNT_CLR clears the Cistern counters. -/
  | cisCntClr (path : Path) (v : Word)
  /-- HOUSEKEEPING_READING (R453): A housekeeping conversion ends and every rule using that channel is evaluated. -/
  | housekeepingReading (ch : Fin 64) (raw : BitVec 12)
  /-- THROTTLE_LEVEL_FALL (R458): After 125 rounds below THERM_LVL the level falls by one. -/
  | throttleLevelFall
  /-- ROR_ARM (R459): After 4 rounds the rate-of-rise check is armed. -/
  | rorArm
  /-- RESTART_HOLD_RELEASE (R462): 30 s below 90 °C with the other conditions met releases the thermal restart hold. -/
  | restartHoldRelease
  /-- HK_READMIT (R456): HK_READMIT readmits excluded channels. -/
  | hkReadmit (path : Path) (v : Word)
  /-- HK_CNT_CLR (R465): A write to HK_CNT_CLR clears the housekeeping counters. -/
  | hkCntClr (path : Path) (v : Word)
  /-- OPERATING_SECOND (R457): An operating second ends, adding to TEMP_HIST and advancing OP_TIME and LAST_ALIVE where due. -/
  | operatingSecond
  /-- PST_PROGRAM_DONE (R468): A PST word program completes and is verified. -/
  | pstProgramDone (readBack : Word) (auxMv capMv : BitVec 12)
  /-- PST_ERASE_DONE (R468): A PST row erase completes. -/
  | pstEraseDone (auxMv capMv : BitVec 12)
  /-- PST_SUPPLY_RETRY (R472): A failed supply check is retried every 100 µs. -/
  | pstSupplyRetry (auxMv capMv : BitVec 12)
  /-- PST_SUPPLY_ABANDON (R472): After 2 ms of failed checks the PST operation is abandoned with a fault. -/
  | pstSupplyAbandon
  /-- PST_WRITE_REREQUEST (R472): An abandoned device write is requested again after 100 ms. -/
  | pstWriteRerequest
  /-- PST_WIN_READ (R475): A read of the PST data window returns its word once the row's operations complete. -/
  | pstWinRead (path : Path) (k : Fin 64)
  /-- PST_WIN_WRITE (R475): A write of the PST data window programs an erased user-row word or is refused. -/
  | pstWinWrite (path : Path) (k : Fin 64) (w : Word)
  /-- PST_ERASE (R483): PST_CMD ERASE erases the user row named. -/
  | pstErase (path : Path)
  /-- PST_LOAD (R482): PST_CMD LOAD copies a configuration record into the staging registers. -/
  | pstLoad (path : Path) (num : Fin 8)
  /-- PST_COMMIT (R482): PST_CMD COMMIT writes the staged record as a new cell. -/
  | pstCommit (path : Path) (num : Fin 8)
  /-- PST_PATROL_ROW (R484): Every 280 s the patrol margin-reads one row and restores a weak one. -/
  | pstPatrolRow (weak : Option (Fin 64))
  /-- PST_CNT_CLR (R493): A write to PST_CNT_CLR clears the PST counters. -/
  | pstCntClr (path : Path) (v : Word)
  /-- ROLL_BOOK_RECORD_WRITE (R488): A queued Roll book record is programmed into its slot. -/
  | rollBookRecordWrite (bad : Option (Fin 8 × Word))
  /-- RB_REC_READ (R493): A read of RB_REC is answered as a PST data access. -/
  | rbRecRead (path : Path) (k : Fin 8)
  /-- RB_CNT_CLR (R493): A write to RB_CNT_CLR clears RB_DROPPED. -/
  | rbCntClr (path : Path) (v : Word)
  /-- FAULT_RAISE (R501): A source's pair goes to FAULT and the collector latches, counts and records the fault. -/
  | faultRaise (fs : List FltWord)
  /-- WIRE_FAULT (R498): A pair held at 0,0 or 1,1 is a wire fault and the source is polled from then on. -/
  | wireFault (src : BitVec 8)
  /-- FAULT_WORD_POLL (R498): Every 10 µs the fault word of a wire-faulted source is read. -/
  | faultWordPoll (src : BitVec 8)
  /-- FLT_FORCE_GO (R500): FLT_FORCE.GO raises an injected fault through the real pair. -/
  | fltForceGo (page : Fin 110) (path : Path) (sev sub : Fin 4)
  /-- FLT_FORCE_WIRE (R499): FLT_FORCE.WIRE holds a source's pair at 1,1 for 1 µs. -/
  | fltForceWire (page : Fin 110) (path : Path) (sub : Fin 4)
  /-- ESCALATION_TIMEOUT (R505): A source's escalation timer expires and the class reaction of Table 17.5 follows. -/
  | escalationTimeout (src : BitVec 8)
  /-- FC_ACK (R504): A Proctor acknowledges a severity-2 fault, stopping its timer. -/
  | fcAck (src : BitVec 8)
  /-- FC_RESOLVE (R504): A Proctor resolves a source's fault. -/
  | fcResolve (src : BitVec 8)
  /-- FC_ESC (R504): A Proctor escalates a source at once. -/
  | fcEsc (src : BitVec 8)
  /-- FC_REVOKE (R509): A Proctor revokes every lease of a fenced or out holder. -/
  | fcRevoke (holder : BitVec 8)
  /-- REVOCATION_DONE (R509): All leases of the holder are checked and released and BUSY clears. -/
  | revocationDone (bad : List Bool)
  /-- FC_UNFENCE (R507): A Proctor returns a fenced block to service. -/
  | fcUnfence (src : BitVec 8)
  /-- FC_PROC_BEAT (R512): A Proctor writes its heartbeat. -/
  | fcProcBeat (p : Fin 4)
  /-- PROCTOR_BEAT_MISSING (R512): A Proctor beat missing for 4 ms raises a severity-3 STALL fault. -/
  | proctorBeatMissing (p : Fin 4)
  /-- REVOKE_OVERDUE (R508): No FC_REVOKE for a fenced block within FC_ESC_T2 raises a severity-3 fault against the lead. -/
  | revokeOverdue (src : BitVec 8)
  /-- FC_FIRST_CLR (R517): FC_CTL.FIRST_CLR clears FC_FIRST and its tick. -/
  | fcFirstClr (path : Path)
  /-- FC_CONTAIN_NOW (R517): FC_CTL.CONTAIN_NOW starts device containment. -/
  | fcContainNow (path : Path)
  /-- FC_DRAIN_LIMIT (R514): FC_DRAIN_LIM passes before the containment drain ends and it ends short. -/
  | fcDrainLimit
  /-- FC_CNT_CLR (R516): A write to FC_CNT_CLR clears the selected collector counters. -/
  | fcCntClr (path : Path) (v : Word)
  /-- MQ_PUSH_LO (R523): Stores the low half of a word in the path's hold register. -/
  | mqPushLo (q : Fin 8) (path : Path) (v : Word)
  /-- MQ_PUSH_HI (R523): Appends a word with END 0 to the down direction, or overruns. -/
  | mqPushHi (q : Fin 8) (path : Path) (v : Word) (ptr : Bool)
  /-- MQ_PUSH_HI_END (R523): Appends a word with END 1, closing the packet. -/
  | mqPushHiEnd (q : Fin 8) (path : Path) (v : Word) (ptr : Bool)
  /-- MQ_POP_LO (R525): Returns the low half of the head word without advancing. -/
  | mqPopLo (q : Fin 8) (path : Path)
  /-- MQ_POP_HI (R525): Returns the high half of the head word and advances the queue. -/
  | mqPopHi (q : Fin 8) (path : Path) (ptr : Bool)
  /-- MQ_FLUSH_DN (R526): Flushes the down direction at the next packet boundary. -/
  | mqFlushDn (q : Fin 8) (path : Path)
  /-- MQ_FLUSH_UP (R526): Flushes the up direction at the next packet boundary. -/
  | mqFlushUp (q : Fin 8) (path : Path)
  /-- MQ_RESET (R526): Discards both directions and increments EPOCH. -/
  | mqReset (q : Fin 8) (path : Path)
  /-- MQ_CNT_CLR (R531): A write to MQ_CNT_CLR clears the queue counters. -/
  | mqCntClr (q : Fin 8) (path : Path) (v : Word)
  /-- MQ_COMMAND (R529): Firmware takes a whole down packet and runs it as a mailbox command. -/
  | mqCommand (q : Fin 8) (op : Option MboxOp)
  /-- MQ_REPLY (R529): A completed queue command's reply packet is pushed up and may interrupt. -/
  | mqReply (q : Fin 8)
  /-- PC_WIN_START (R534): PC_WIN_CTL.START opens or restarts a page's counting window. -/
  | pcWinStart (page : Fin 110) (path : Path) (v : Word)
  /-- PC_WIN_STOP (R534): PC_WIN_CTL.STOP closes a page's counting window. -/
  | pcWinStop (page : Fin 110) (path : Path) (v : Word)
  /-- PC_WIN_CLR (R534): PC_WIN_CTL.CLR clears a page's counters and OVF. -/
  | pcWinClr (page : Fin 110) (path : Path) (v : Word)
  /-- PC_WINDOW_END (R534): A counting window closes LEN × 10,000 ticks after its START. -/
  | pcWindowEnd (page : Fin 110)
  /-- TST_PC_START (R534): TST_PC_CTL.START opens every page's window at once. -/
  | tstPcStart (path : Path)
  /-- TST_PC_STOP (R534): TST_PC_CTL.STOP closes every page's window at once. -/
  | tstPcStop (path : Path)
  /-- TST_PHY_CTL_WRITE (R536): A write to TST_PHY_CTL holds or releases host PHYs and the Caravan PHY. -/
  | tstPhyCtlWrite (path : Path) (v : Word)
  /-- TST_PAT_START (R537): TST_PAT_CTL.START starts a lane's pattern generator and checker. -/
  | tstPatStart (path : Path) (v : Word)
  /-- TST_PAT_STOP (R537): TST_PAT_CTL.STOP stops a lane's pattern. -/
  | tstPatStop (path : Path) (counts : List (Nat × Nat))
  /-- TST_PAT_INJ (R537): TST_PAT_CTL.INJ inverts one generated bit. -/
  | tstPatInj (path : Path)
  /-- TST_MARG_START (R540): TST_MARG_CTL.START starts a Caravan margin step. -/
  | tstMargStart (path : Path) (v : Word)
  /-- TST_MARG_STOP (R540): TST_MARG_CTL.STOP ends a Caravan margin step. -/
  | tstMargStop (path : Path) (errs : BitVec 6)
  /-- MARGIN_STEP_END (R540): A margin step ends at 63 errors or after DWELL. -/
  | marginStepEnd (errs : BitVec 6)
  /-- LANE_MARGIN_COMMAND (R539): A host port answers a PCIe lane-margining command. -/
  | laneMarginCommand (port : Fin 8) (lane : Fin 16) (cmd : MargCmd)
  /-- PCIE_LOOPBACK_ENTRY (R538): A link partner directs a host port into PCIe Loopback as follower. -/
  | pcieLoopbackEntry (port : Fin 8)
  /-- JTAG_INSTRUCTION_UPDATE (R541): A new JTAG instruction is loaded, holding or releasing the core domain. -/
  | jtagInstructionUpdate (code : BitVec 8) (kat : Bool)
  /-- TRST_N (R541): TRST_N resets the test access port to Test-Logic-Reset. -/
  | trstN (kat : Bool)
  /-- AUX_RISE (R598): AUX_3V3 rises through 2.90 V and the AON domain leaves reset. -/
  | auxRise
  /-- AUX_FALL (R598): AUX_3V3 falls through 2.75 V: AUX power-on reset with RAIL_EN released. -/
  | auxFall
  /-- AON_READY (R35): The AON domain becomes ready and the store, PSQ and housekeeping begin. -/
  | aonReady (side : Bool) (cfg : List (BitVec 24 × Word))
  /-- CONFIGURATION_LOADED (R547): The valid configuration image and PST records are loaded into every cfg field. -/
  | configurationLoaded (a b : Option CfgImage) (records : List (BitVec 24 × Word))
  /-- FIRMWARE_VERIFIED (R548): The boot code verifies a firmware slot, or halts when both fail. -/
  | firmwareVerified (directory ok0 ok1 : Bool)
  /-- MEMORY_ACTIVE (R544): Once every condition holds, Memory_Active is set and the device leaves booting. -/
  | memoryActive
  /-- DEV_RST_N_ASSERT (R555): DEV_RST_N low passes its filter and the core domain enters reset with DRAM in self-refresh. -/
  | devRstNAssert
  /-- DEV_RST_N_RELEASE (R555): DEV_RST_N high restarts the core domain at phase 2. -/
  | devRstNRelease (kat : Bool)
  /-- BOOT_CTL_RESET (R556): A keyed BOOT_CTL write starts the register device reset. -/
  | bootCtlReset (path : Path) (v : Word)
  /-- REGISTER_RESET_EXECUTE (R556): Once accepted requests complete, the register device reset resets as DEV_RST_N. -/
  | registerResetExecute (kat : Bool)
  /-- SOFT_RST (R583): PG_CTL.SOFT_RST resets the page's block where accepted. -/
  | softRst (page : Fin 110) (path : Option Path)
  /-- LOCK_SET (R584): A write of 1 to a page's lock register makes its RWL fields read-only. -/
  | lockSet (page : Fin 110) (path : Path)
  /-- DEV_LOCK_ALL (R585): DEV_LOCK_ALL sets every lock register at once. -/
  | devLockAll (path : Path)
  /-- CORE_CNT_CLR (R588): A write to CORE_CNT_CLR clears the core's SRAM error counters. -/
  | coreCntClr (core : Fin 28) (path : Path) (v : Word)
  /-- RT_LATE_CLR (R83): A write to RT_LATE_CLR clears the selected LATE, stray and drop counters. -/
  | rtLateClr (path : Path) (v : Word)
  /-- RT_MIN_CLR (R107): RT_CTL.MIN_CLR sets SPD_MIN to the current speed index. -/
  | rtMinClr (path : Path)
  /-- RT_HELD_CLR (R107): RT_CTL.HELD_CLR clears RT_HELD_CNT and RT_HELD_MAX. -/
  | rtHeldClr (path : Path)
  /-- RT_LVL_CLR (R107): RT_CTL.LVL_CLR clears the level window counters. -/
  | rtLvlClr (path : Path)
  /-- OOB_READ (R589): An out-of-band read returns up to 256 bytes of the window. -/
  | oobRead (off : BitVec 24) (n : Fin 65) (pec : Bool)
  /-- OOB_WRITE (R589): An out-of-band write carries one register value. -/
  | oobWrite (off : BitVec 24) (v : Word) (pec : Bool)
  /-- I3C_DYNAMIC_ADDRESS (R589): An I3C dynamic address is assigned and the target answers I3C only. -/
  | i3cDynamicAddress (addr : BitVec 7)
  /-- I3C_RSTDAA (R589): RSTDAA returns the target to its static SMBus address. -/
  | i3cRstdaa
  /-- ALERT_RESPONSE_READ (R591): A read of the Alert Response Address releases ALERT_N when no cause remains. -/
  | alertResponseRead (pec : Bool)
  /-- REGISTER_WRITE (R12): A write to a register without a row of its own stores or is ignored under its access code. -/
  | registerWrite (path : Path) (off : BitVec 24) (v : Word) (be : BitVec 4)
  /-- TWIN_ALIVE_IN_EDGE (R348): An edge arrives on TWIN_ALIVE_IN, restarting the alive timer and setting CAR_STS.ALIVE_IN_OK. -/
  | twinAliveInEdge
  /-- CARAVAN_BAD_PACKET (R342): A Caravan packet arrives with an undefined TYPE or a wrong LEN, and the receiver takes the link down with cause 4. -/
  | caravanBadPacket
  /-- RESYNC_SCAN (R360): The source's resync scan, Sirocco class 9, visits set bitmap bits or every tile, reads each tile and sends RS_START, RS_CHUNK and RS_END, paced to CAR_RSYNC_BW. -/
  | resyncScan
  /-- ROTATION_COPY (R308): During a key rotation the Tutors copy every valid tile of the region in pages below ROT_SEQ, at wear-levelling priority. -/
  | rotationCopy (region : Fin 16) (die : Fin 320) (tutor : Fin 24)
  /-- SECURE_DISCARD_RELOCATE (R66): Sirocco class 8 relocates valid data out of blocks that hold copies of a securely discarded range, and erases those copies in the tile stage and on media. -/
  | secureDiscardRelocate (id : Nat) (die : Fin 320)
  /-- MEDIA_SCRUB_READ (R285): The media patrol issues its next paced scrub read of a valid tile position or a journal, checkpoint or parity page. -/
  | mediaScrubRead (r : ScrubRead)
  /-- SIROCCO_DEADLINE_PASSED (R287): A Sirocco class's deadline passes with its pass or item unfinished, so the class becomes late, SIR_LAG rises and an EVT_EN record may be written. -/
  | siroccoDeadlinePassed (cls : Fin 10) (ms : Word)
  /-- PATTERN_SYNC_GAIN (R537): A lane or media pattern checker has matched 64 consecutive bits and sets SYNC or PAT_SYNC, after which bits are counted. -/
  | patternSyncGain (lane : Fin 120)
  /-- PATTERN_SYNC_LOSS (R537): A lane checker sees 256 errors within 4,096 bits, clears SYNC and seeds itself again. -/
  | patternSyncLoss (lane : Fin 80) (bits errs : Nat)
  /-- TRAIN_PATTERN_END (R245): A die's TRAIN sub-operation pattern ends and the die returns from TRAINING to its former state. -/
  | trainPatternEnd (die : Fin 320)
  /-- DRAM_PHY_LOCK_LOSS (R411): A DRAM channel PHY loses lock, so the channel is lost, with a severity-3 fault and containment. -/
  | dramPhyLockLoss (ch : Fin 6)
  /-- DRAM_WRITE_CRC_ERROR (R411): A DRAM device reports a write CRC error, and the burst is retried or, after a failed retry, the channel is lost. -/
  | dramWriteCrcError (ch : Fin 6) (again : Bool)
  /-- HDM_DECODER_COMMIT (R376): Host software commits or locks an HDM decoder of a port through its component registers. -/
  | hdmDecoderCommit (port : Fin 8) (k : Fin 8) (base : BitVec 64) (size : BitVec 64) (ways : Nat) (gran : Nat) (skip : BitVec 64) (lock : Bool)
  /-- POWER_STATE_CHANGE (R373): Host software moves a port's function between D0 and D3hot, and in D3hot the port grants no CXL.mem credit. -/
  | powerStateChange (port : Fin 8) (d3 : Bool)
  /-- SPLIT_VALUE_LO_READ (R16): A read of a _LO register captures the whole wide value for the next _HI read on the same access path. -/
  | splitValueLoRead (path : Path) (off : BitVec 24)
  deriving DecidableEq, Repr

end Sys2Proof
end

