-- ==== Sys2Proof/Machine/Codec.lean ====
section
/-! DEFINITION. The codec of stored lines: the BCH code over GF(2^10) (09_integrity_and_drift.md R264, R265), the fields
of a stored line (R262, R263), and the fixed hashes of 06_translation_layer.md (R176, R180). -/

set_option autoImplicit false

namespace Sys2Proof.Machine

/-! ### GF(2^10) -/

/-- Multiplication by α, reduced by x^10 + x^3 + 1 (R264). -/
def gfX (a : Nat) : Nat := if a * 2 ≥ 1024 then (a * 2) ^^^ 1033 else a * 2

/-- Multiplication of two field elements. -/
def gfMul (a b : Nat) : Nat :=
  ((List.range 10).foldl (fun (acc : Nat × Nat) k =>
    (if b / 2 ^ k % 2 = 1 then acc.1 ^^^ acc.2 else acc.1, gfX acc.2)) (0, a)).1

/-- A power of α. -/
def gfPow (e : Nat) : Nat := (List.range (e % 1023)).foldl (fun x _ => gfX x) 1

/-- The inverse a^1022, by squaring; 0 for 0. -/
def gfInv (a : Nat) : Nat :=
  ((List.range 9).foldl (fun (acc : Nat × Nat) _ =>
    let sq := gfMul acc.2 acc.2
    (gfMul acc.1 sq, sq)) (1, a)).1

/-! ### The BCH code of R264 -/

/-- The generator g(x) of degree 90: the least common multiple of the minimal polynomials of α, α^3, …, α^17 (R264). -/
def bchGen : Nat := 0x5a756d8a96a24b479c95a19

/-- Bit b of byte j of a stored line. -/
def slBit (w : StoredLine) (j b : Nat) : Nat := if w.getLsbD (8 * j + b) then 1 else 0

/-- The bits of the codeword of a stored line, coefficient of x^697 first: the message, then the parity (R264). -/
def codeBits (w : StoredLine) : List Nat :=
  (List.range 698).map (fun k => slBit w (k / 8) (7 - k % 8))

/-- Place in the stored line of codeword coefficient x^e. -/
def coefPlace (e : Nat) : Nat := 8 * ((697 - e) / 8) + 7 - (697 - e) % 8

/-- One step of the division by g(x). -/
def bchStep (r b : Nat) : Nat :=
  let r' := r * 2 + b
  if r' ≥ 2 ^ 90 then r' ^^^ bchGen else r'

/-- The parity m(x) · x^90 mod g(x) of bytes 0–75. -/
def bchParity (w : StoredLine) : Nat :=
  ((codeBits w).take 608 ++ List.replicate 90 0).foldl bchStep 0

/-- A stored line with PAR computed; bits [5:0] of byte 87 are 0 (R264). -/
def bchEncode (w : StoredLine) : StoredLine :=
  let p := bchParity w
  let msg : StoredLine := BitVec.ofNat 704 (w.toNat % 2 ^ 608)
  (List.range 90).foldl (fun (acc : StoredLine) e =>
    if p / 2 ^ e % 2 = 1 then acc ||| (BitVec.ofNat 704 (2 ^ coefPlace e)) else acc) msg

/-- Syndrome r(α^j). -/
def bchSyndrome (bits : List Nat) (j : Nat) : Nat :=
  let a := gfPow j
  bits.foldl (fun acc b => gfMul acc a ^^^ b) 0

/-- Coefficient i of a polynomial, lowest first. -/
def pcoef (p : List Nat) (i : Nat) : Nat := p.getD i 0

/-- State of the Berlekamp–Massey search: locator, previous locator, length, previous discrepancy, gap. -/
structure BmSt where
  c : List Nat
  b : List Nat
  l : Nat
  db : Nat
  m : Nat
  deriving DecidableEq, Repr

/-- One step of the search. -/
def bmStep (syn : List Nat) (s : BmSt) (n : Nat) : BmSt :=
  let d := (List.range (s.l + 1)).foldl (fun acc i => acc ^^^ gfMul (pcoef s.c i) (if i ≤ n then syn.getD (n - i) 0 else 0)) 0
  if d = 0 then { s with m := s.m + 1 }
  else
    let f := gfMul d (gfInv s.db)
    let c' := (List.range 19).map (fun i =>
      pcoef s.c i ^^^ (if i ≥ s.m then gfMul f (pcoef s.b (i - s.m)) else 0))
    if 2 * s.l ≤ n then ⟨c', s.c, n + 1 - s.l, d, 1⟩ else { s with c := c', m := s.m + 1 }

/-- The error locator of the eighteen syndromes. -/
def bmRun (syn : List Nat) : BmSt := (List.range 18).foldl (bmStep syn) ⟨[1], [1], 0, 1, 1⟩

/-- Value of a polynomial. -/
def polyEval (p : List Nat) (x : Nat) : Nat := p.reverse.foldl (fun acc c => gfMul acc x ^^^ c) 0

/-- Codeword exponents whose bits the locator names. -/
def bchRoots (c : List Nat) : List Nat :=
  ((List.range 698).foldl (fun (acc : List Nat × Nat) e =>
    let inv := gfInv acc.2
    (if polyEval c inv = 0 then e :: acc.1 else acc.1, gfX acc.2)) ([], 1)).1

/-- Decode a stored line: the corrected line and the number of bits corrected, or `none` (R265). A word that g(x) divides has every syndrome 0. -/
def bchDecode (w : StoredLine) : Option (StoredLine × Nat) :=
  let bits := codeBits w
  let syn := (List.range 18).map (fun j => bchSyndrome bits (j + 1))
  if bits.foldl bchStep 0 = 0 then some (w, 0)
  else
    let bm := bmRun syn
    let roots := bchRoots bm.c
    if bm.l ≤ 9 ∧ roots.length = bm.l then
      some (roots.foldl (fun (acc : StoredLine) e => acc ^^^ (BitVec.ofNat 704 (2 ^ coefPlace e))) w, bm.l)
    else none

/-! ### Fields of a stored line (Table 9.1, Table 9.2) -/

/-- DATA of a stored line. -/
def slData (w : StoredLine) : Line := w.extractLsb' 0 512

/-- TAG of a stored line, its first byte at byte 64 taken as the most significant. -/
def slTag (w : StoredLine) : BitVec 64 :=
  (List.range 8).foldl (fun (acc : BitVec 64) k => acc ||| ((w.extractLsb' (512 + 8 * k) 8).setWidth 64 <<< (8 * (7 - k)))) 0

/-- The bytes of a tag in the order of TAG. -/
def tagField (t : BitVec 64) : BitVec 64 :=
  (List.range 8).foldl (fun (acc : BitVec 64) k => acc ||| ((t.extractLsb' (8 * (7 - k)) 8).setWidth 64 <<< (8 * k))) 0

/-- META.PRES, ENC and LCHK. -/
def slPres (w : StoredLine) : Bool := w.getLsbD 576
def slEnc (w : StoredLine) : Bool := w.getLsbD 577
def slLchk (w : StoredLine) : Nat := (w.extractLsb' 584 24).toNat

/-- Lay out a stored line with its parity. -/
def slMake (data : Line) (tag : BitVec 64) (pres enc hdr : Bool) (lchk : Nat) : StoredLine :=
  let flags := pres.toNat + 2 * enc.toNat + 4 * hdr.toNat + lchk % 2 ^ 24 * 256
  bchEncode (BitVec.ofNat 704 (data.toNat + (tagField tag).toNat * 2 ^ 512 + flags * 2 ^ 576))

/-- The 24 spare bytes 64–87 of a stored line, over which RB_TAG runs (R186). -/
def slSpare (w : StoredLine) : List Nat := (List.range 24).map (fun k => (w.extractLsb' (512 + 8 * k) 8).toNat)

/-! ### Hashes -/

/-- home_hash of R180, in 32-bit arithmetic. -/
def homeHash (t : BitVec 32) : BitVec 32 :=
  let h := t ^^^ (t >>> 15)
  let h := h * 0x6a3f1c5b#32
  let h := h ^^^ (h >>> 13)
  let h := h * 0x2d9e47a3#32
  h ^^^ (h >>> 16)

/-- home_index of R180. -/
def homeIndex (t n : Nat) : Nat := (homeHash (BitVec.ofNat 32 t)).toNat * n / 2 ^ 32

/-- First bucket of a tile (R176). -/
def bucket1 (t : Nat) : Nat := t % 32768

/-- Second bucket of a tile (R176): bit 0 is inverted where both would lie on one channel. -/
def bucket2 (t : Nat) : Nat :=
  let h := (homeHash (BitVec.ofNat 32 t)).toNat % 32768
  if h % 6 = bucket1 t % 6 then h ^^^ 1 else h

end Sys2Proof.Machine
end

