-- ==== Sys2Proof/Config.lean ====
section
/-! DEFINITION. What an implementation fixes and the spec does not state, the free values, and the results of the
published ciphers that the spec names: opaque constants without a body, of which Lean can prove no value
(notes/assumptions/5, 6). -/

set_option autoImplicit false

namespace Sys2Proof

/-- The n-th value that the spec leaves open, as a number; the step cuts it to the width it needs and counts
`State.freeCtr` on. -/
opaque Config.freeValue : Nat → Nat

/-- The AES-256 block permutation under a key (R298, R311), as the exchanges of two blocks that make it up: every permutation of the blocks
is such a product. Byte 0 of a block is its lowest. -/
opaque Config.aes : Nat → List (BitVec 128 × BitVec 128)

/-- Known-answer test keys of slots 4–7, fixed in silicon (Table 10.3). -/
opaque Config.testKey : Nat → Nat

/-- The hardware unique key fused at manufacture (R294). -/
opaque Config.huk : Nat

/-- Turelalon's vendor ID as the PCI-SIG assigned it (R4); the spec gives no number. -/
opaque Config.vendorId : BitVec 16

/-- The serial number fused at manufacture (R586). -/
opaque Config.serial : BitVec 64

/-- The firmware image's ECDSA signature and key hash verify (R389, R548). -/
opaque Config.fwSigOk : List Nat → Bool

/-- Words of an SPDM answer that hold certificates, signatures and hashes (R384): code and arguments. -/
opaque Config.spdm : Nat → List Nat → List Nat

/-- Output of the DRBG: state and position (R314, R315). -/
opaque Config.drbg : Nat → Nat

/-- SEC-DED check bits of a word of an array, by array number and data (R266, R269). -/
opaque Config.secded : Nat → Nat → Nat

/-- Digest of a byte or word sequence (R548, R319). -/
opaque Config.digest : List Nat → Nat

/-- Maker code and stepping of a media die, the die's own parts of DIE_ID (R249). -/
opaque Config.dieIdent : Nat → BitVec 16

end Sys2Proof
end

