-- ==== Sys2Proof/Machine/Crypt.lean ====
section
/-! DEFINITION. The published algorithms that chapters 10 and 11 name, written out over the opaque AES-256 of Config: XTS (IEEE 1619), CMAC and
its key derivation (SP 800-108), GCM (SP 800-38D) and AES-KW (SP 800-38F), with the messages, IVs and AADs that the spec lays out
(10_cipher_engine.md R294, R301, R304, R312, R318, R324; 11_twin_pair.md Table 11.4, R360). Byte 0 of a block, of a key and of a line is the lowest. -/

set_option autoImplicit false

namespace Sys2Proof.Machine

/-! ### Bytes and blocks -/

/-- The `n` lowest bytes of a number, the lowest first. -/
def leBytes (n v : Nat) : List (BitVec 8) := (List.range n).map (fun k => BitVec.ofNat 8 (v / 256 ^ k))

/-- The `n` lowest bytes of a number, the highest first. -/
def beBytes (n v : Nat) : List (BitVec 8) := (leBytes n v).reverse

/-- Up to 16 bytes as a block; missing bytes are zero. -/
def blockOf (l : List (BitVec 8)) : BitVec 128 := BitVec.ofNat 128 (l.foldr (fun b n => b.toNat + 256 * n) 0)

/-- Bytes as blocks, the last filled up with zeros. -/
def blocksOf (l : List (BitVec 8)) : List (BitVec 128) :=
  (List.range ((l.length + 15) / 16)).map (fun j => blockOf ((l.drop (16 * j)).take 16))

/-- A block with its bytes in the other order. -/
def byteSwap (x : BitVec 128) : BitVec 128 := blockOf (beBytes 16 x.toNat)

/-- Block j of a line. -/
def lineBlock (d : Line) (j : Nat) : BitVec 128 := d.extractLsb' (128 * j) 128

/-- The four blocks of a line. -/
def lineBlocks (d : Line) : List (BitVec 128) := (List.range 4).map (lineBlock d)

/-- A line out of its four blocks. -/
def lineOf (b : Nat → BitVec 128) : Line := b 3 ++ (b 2 ++ (b 1 ++ b 0))

/-! ### The block cipher -/

/-- Two blocks exchanged. -/
def exchange (p : BitVec 128 × BitVec 128) (x : BitVec 128) : BitVec 128 := if x = p.1 then p.2 else if x = p.2 then p.1 else x

/-- AES-256 of a block. -/
def aesEnc (key : Nat) (x : BitVec 128) : BitVec 128 := (Config.aes key).foldl (fun y p => exchange p y) x

/-- The block that AES-256 takes to `x`. -/
def aesDec (key : Nat) (x : BitVec 128) : BitVec 128 := (Config.aes key).foldr exchange x

/-! ### XTS (R311, R312) -/

/-- A block times the polynomial x in GF(2^128), its first byte the lowest (IEEE 1619). -/
def xtsNext (t : BitVec 128) : BitVec 128 := (t <<< 1) ^^^ (if t.msb then 0x87 else 0)

/-- Tweak of block j of the data unit `unit` under the second key: the number is a little-endian block. -/
def xtsTweak (k2 unit : Nat) : Nat → BitVec 128
  | 0 => aesEnc k2 (BitVec.ofNat 128 unit)
  | j + 1 => xtsNext (xtsTweak k2 unit j)

/-- One line in XTS-AES-256. -/
def xtsSeal (k1 k2 unit : Nat) (d : Line) : Line :=
  lineOf (fun j => aesEnc k1 (lineBlock d j ^^^ xtsTweak k2 unit j) ^^^ xtsTweak k2 unit j)

/-- The line that an XTS form decrypts to. -/
def xtsOpen (k1 k2 unit : Nat) (c : Line) : Line :=
  lineOf (fun j => aesDec k1 (lineBlock c j ^^^ xtsTweak k2 unit j) ^^^ xtsTweak k2 unit j)

/-! ### CMAC and the derivation of keys (R301) -/

/-- A CMAC subkey from the one before: doubling with the first byte the highest (SP 800-38B). -/
def cmacNext (x : BitVec 128) : BitVec 128 := byteSwap (xtsNext (byteSwap x))

/-- AES-256-CMAC of a message (SP 800-38B). -/
def cmac (key : Nat) (m : List (BitVec 8)) : BitVec 128 :=
  let k1 := cmacNext (aesEnc key 0)
  let n := max 1 ((m.length + 15) / 16)
  let rest := m.drop (16 * (n - 1))
  let last := if rest.length = 16 then blockOf rest ^^^ k1 else blockOf (rest ++ [0x80]) ^^^ cmacNext k1
  aesEnc key ((List.range (n - 1)).foldl (fun c j => aesEnc key (c ^^^ blockOf ((m.drop (16 * j)).take 16))) 0 ^^^ last)

/-- The four ASCII bytes of a purpose: VSDK, VSWK, VSSK (R301). -/
def purposeBytes (p : Nat) : List (BitVec 8) := [0x56, 0x53, if p = 0 then 0x44 else if p = 1 then 0x57 else 0x53, 0x4B]

/-- M_i of R301: counter, purpose, a zero byte, the 16 bytes of context, and the length in bits. -/
def kdfMessage (i purpose ctx : Nat) : List (BitVec 8) := beBytes 4 i ++ purposeBytes purpose ++ [0] ++ leBytes 16 ctx ++ beBytes 4 256

/-- The key derived under a PRF key: bytes 0–15 from M_1, bytes 16–31 from M_2 (R301). -/
def kdf (key purpose ctx : Nat) : Nat :=
  (cmac key (kdfMessage 1 purpose ctx)).toNat + 2 ^ 128 * (cmac key (kdfMessage 2 purpose ctx)).toNat

/-! ### GCM (R304, R318) -/

/-- Product in GF(2^128) as GHASH takes it, on blocks whose first byte is the highest. -/
def ghMul (x y : BitVec 128) : BitVec 128 :=
  ((List.range 128).foldl (fun (a : BitVec 128 × BitVec 128) k =>
    (if x.getMsbD k then a.1 ^^^ a.2 else a.1,
     (a.2 >>> 1) ^^^ (if a.2.getLsbD 0 then (0xE1 : BitVec 128) <<< 120 else 0))) (0, y)).1

/-- GHASH of blocks under a hash subkey. -/
def ghash (h : BitVec 128) (l : List (BitVec 128)) : BitVec 128 :=
  byteSwap (l.foldl (fun y x => ghMul (y ^^^ byteSwap x) (byteSwap h)) 0)

/-- Counter block n of a 96-bit IV: the IV, then the counter with its highest byte first. -/
def gcmCtr (iv : List (BitVec 8)) (n : Nat) : BitVec 128 := blockOf (iv.take 12 ++ beBytes 4 n)

/-- Keystream of line j of a message under an IV: the blocks that follow J0 (counter 1). -/
def gcmStream (key : Nat) (iv : List (BitVec 8)) (j : Nat) : Line := lineOf (fun b => aesEnc key (gcmCtr iv (2 + 4 * j + b)))

/-- The tag of an AAD and lines of ciphertext: GHASH over both and their lengths in bits, with the keystream block of J0. -/
def gcmTag (key : Nat) (h : BitVec 128) (iv aad : List (BitVec 8)) (ct : List Line) : BitVec 128 :=
  ghash h (blocksOf aad ++ ct.flatMap lineBlocks ++ [blockOf (beBytes 8 (8 * aad.length) ++ beBytes 8 (512 * ct.length))]) ^^^
    aesEnc key (gcmCtr iv 1)

/-- IV of a line on media: the page's SEQ with its highest byte first, the position, zeros (R304). -/
def lineIv (seq pos : Nat) : List (BitVec 8) := beBytes 6 seq ++ [BitVec.ofNat 8 pos] ++ List.replicate 5 0

/-- AAD of a line on media: its index with the highest byte first (R304). -/
def lineAad (line : Nat) : List (BitVec 8) := beBytes 8 line

/-- IV of a chunk: four zero bytes, then CHUNK with its highest byte first (R318). -/
def chunkIv (chunk : Nat) : List (BitVec 8) := List.replicate 4 0 ++ beBytes 8 chunk

/-! ### AES-KW (R294, R324) -/

/-- The step count as AES-KW takes it into the first semiblock: its highest byte first. -/
def kwCount (t : Nat) : BitVec 64 := (blockOf (beBytes 8 t)).setWidth 64

/-- AES-KW of semiblocks: the result has one more (SP 800-38F). -/
def kwWrap (key : Nat) (r : List (BitVec 64)) : List (BitVec 64) :=
  let x := (List.range (6 * r.length)).foldl (fun (a : BitVec 64 × List (BitVec 64)) k =>
    let i := k % r.length
    let b := aesEnc key (a.2.getD i 0 ++ a.1)
    (b.setWidth 64 ^^^ kwCount (k + 1), a.2.set i (b.extractLsb' 64 64))) (0xA6A6A6A6A6A6A6A6, r)
  x.1 :: x.2

/-- The semiblocks that an AES-KW form holds, when its check value is right. -/
def kwUnwrap (key : Nat) (c : List (BitVec 64)) : Option (List (BitVec 64)) :=
  let r := c.drop 1
  let x := (List.range (6 * r.length)).foldl (fun (a : BitVec 64 × List (BitVec 64)) k =>
    let t := 6 * r.length - k
    let i := (t - 1) % r.length
    let b := aesDec key (a.2.getD i 0 ++ (a.1 ^^^ kwCount t))
    (b.setWidth 64, a.2.set i (b.extractLsb' 64 64))) (c.headD 0, r)
  if x.1 = 0xA6A6A6A6A6A6A6A6 then some x.2 else none

/-- A number as `n` semiblocks, its lowest byte first. -/
def semiblocks (n v : Nat) : List (BitVec 64) := (List.range n).map (fun k => BitVec.ofNat 64 (v / 2 ^ (64 * k)))

/-- The number that semiblocks make up. -/
def ofSemiblocks (l : List (BitVec 64)) : Nat := l.foldr (fun b n => b.toNat + 2 ^ 64 * n) 0

end Sys2Proof.Machine
end

