-- ==== Sys2Proof/Machine/RegMap.lean ====
section
/-! DEFINITION. The register window of 21_register_pages.md R579–R582: the window offset of every register
of the spec's register tables (R11: page × 0x1000 + offset), the named fields of its field tables (the
instance of a register that stands several times is taken modulo their number, so that an offset always lies in
the window), and one row per register with its access masks (R12, Table 0.3), its `cfg` mask (R15), and the ranges and defaults
that the tables give. -/

set_option autoImplicit false

namespace Sys2Proof.Machine

/-! ### Registers of 02_memory_model.md -/

/-- RT_LATE_STATE, R82 Table 2.5. -/
def R.RT_LATE_STATE : Nat := 0x1F400
/-- RT_LATE_FAILOVER, R82 Table 2.5. -/
def R.RT_LATE_FAILOVER : Nat := 0x1F404
/-- RT_LATE_AGE, R82 Table 2.5. -/
def R.RT_LATE_AGE : Nat := 0x1F408
/-- RT_LATE_OBP, R82 Table 2.5. -/
def R.RT_LATE_OBP : Nat := 0x1F40C
/-- RT_LATE_RETRY, R82 Table 2.5. -/
def R.RT_LATE_RETRY : Nat := 0x1F410
/-- RT_LATE_DIE, R82 Table 2.5. -/
def R.RT_LATE_DIE : Nat := 0x1F414
/-- RT_LATE_BP, R82 Table 2.5. -/
def R.RT_LATE_BP : Nat := 0x1F418
/-- RT_LATE_UNEXPL, R82 Table 2.5. -/
def R.RT_LATE_UNEXPL : Nat := 0x1F41C
/-- RT_LATE_CLR, R82 Table 2.5. -/
def R.RT_LATE_CLR : Nat := 0x1F420
abbrev F.RT_LATE_CLR.LATE : Fld := ⟨R.RT_LATE_CLR, 0, 8⟩
abbrev F.RT_LATE_CLR.STRAY : Fld := ⟨R.RT_LATE_CLR, 8, 1⟩
abbrev F.RT_LATE_CLR.DROP : Fld := ⟨R.RT_LATE_CLR, 9, 1⟩
/-- RT_STRAY_CNT, R82 Table 2.5. -/
def R.RT_STRAY_CNT : Nat := 0x1F424
/-- RT_WR_DROP_STATE, R82 Table 2.5. -/
def R.RT_WR_DROP_STATE : Nat := 0x1F428
/-- RT_LATE_CTL, R82 Table 2.5. -/
def R.RT_LATE_CTL : Nat := 0x1F42C
abbrev F.RT_LATE_CTL.MON_EN : Fld := ⟨R.RT_LATE_CTL, 0, 1⟩
abbrev F.RT_LATE_CTL.EVT_EN : Fld := ⟨R.RT_LATE_CTL, 1, 1⟩

/-! ### Registers of 03_read_path.md -/

/-- RT_CTL, R106 Table 3.5. -/
def R.RT_CTL : Nat := 0x1F100
abbrev F.RT_CTL.HELD_EVT_EN : Fld := ⟨R.RT_CTL, 0, 1⟩
abbrev F.RT_CTL.MIN_CLR : Fld := ⟨R.RT_CTL, 1, 1⟩
abbrev F.RT_CTL.HELD_CLR : Fld := ⟨R.RT_CTL, 2, 1⟩
abbrev F.RT_CTL.LVL_CLR : Fld := ⟨R.RT_CTL, 3, 1⟩
/-- RT_STS, R106 Table 3.5. -/
def R.RT_STS : Nat := 0x1F104
abbrev F.RT_STS.GUARD_LVL : Fld := ⟨R.RT_STS, 0, 2⟩
abbrev F.RT_STS.THERM_LVL : Fld := ⟨R.RT_STS, 2, 2⟩
abbrev F.RT_STS.MARGIN_LVL : Fld := ⟨R.RT_STS, 4, 2⟩
abbrev F.RT_STS.APPLIED_LVL : Fld := ⟨R.RT_STS, 6, 2⟩
abbrev F.RT_STS.HELD_ANY : Fld := ⟨R.RT_STS, 8, 1⟩
abbrev F.RT_STS.SPD_VALID : Fld := ⟨R.RT_STS, 9, 1⟩
/-- RT_SPD, R106 Table 3.5. -/
def R.RT_SPD : Nat := 0x1F108
abbrev F.RT_SPD.SPD_IDX : Fld := ⟨R.RT_SPD, 0, 11⟩
abbrev F.RT_SPD.SPD_MON : Fld := ⟨R.RT_SPD, 12, 3⟩
abbrev F.RT_SPD.SPD_MIN : Fld := ⟨R.RT_SPD, 16, 11⟩
/-- RT_LVL_WIN_CNT0, R106 Table 3.5. -/
def R.RT_LVL_WIN_CNT0 : Nat := 0x1F110
/-- RT_LVL_WIN_CNT1, R106 Table 3.5. -/
def R.RT_LVL_WIN_CNT1 : Nat := 0x1F114
/-- RT_LVL_WIN_CNT2, R106 Table 3.5. -/
def R.RT_LVL_WIN_CNT2 : Nat := 0x1F118
/-- RT_LVL_WIN_CNT3, R106 Table 3.5. -/
def R.RT_LVL_WIN_CNT3 : Nat := 0x1F11C
/-- RT_CRD_REQ, R106 Table 3.5. -/
def R.RT_CRD_REQ : Nat := 0x1F120
/-- RT_CRD_RWD, R106 Table 3.5. -/
def R.RT_CRD_RWD : Nat := 0x1F124
/-- RT_CRD_FWD, R106 Table 3.5. -/
def R.RT_CRD_FWD : Nat := 0x1F128
/-- RT_LOCK, R106 Table 3.5. -/
def R.RT_LOCK : Nat := 0x1F12C
abbrev F.RT_LOCK.LOCK : Fld := ⟨R.RT_LOCK, 0, 1⟩
/-- RT_DIE_SEL, R106 Table 3.5. -/
def R.RT_DIE_SEL : Nat := 0x1F130
abbrev F.RT_DIE_SEL.DIE : Fld := ⟨R.RT_DIE_SEL, 0, 9⟩
/-- RT_DIE_CNT, R106 Table 3.5. -/
def R.RT_DIE_CNT : Nat := 0x1F134
abbrev F.RT_DIE_CNT.OUT : Fld := ⟨R.RT_DIE_CNT, 0, 4⟩
abbrev F.RT_DIE_CNT.HELD : Fld := ⟨R.RT_DIE_CNT, 8, 13⟩
abbrev F.RT_DIE_CNT.BG : Fld := ⟨R.RT_DIE_CNT, 21, 3⟩
abbrev F.RT_DIE_CNT.SUSP : Fld := ⟨R.RT_DIE_CNT, 24, 1⟩
/-- RT_HELD_CNT, R106 Table 3.5. -/
def R.RT_HELD_CNT : Nat := 0x1F138
/-- RT_HELD_MAX, R106 Table 3.5. -/
def R.RT_HELD_MAX : Nat := 0x1F13C
/-- RT_RG_CTL, R111 Table 3.10. -/
def R.RT_RG_CTL (k : Nat) : Nat := 0x6D100 + k % 16 * 0x20
abbrev F.RT_RG_CTL.EN (k : Nat) : Fld := ⟨R.RT_RG_CTL k, 0, 1⟩
abbrev F.RT_RG_CTL.OWNER (k : Nat) : Fld := ⟨R.RT_RG_CTL k, 1, 1⟩
abbrev F.RT_RG_CTL.NOALLOC (k : Nat) : Fld := ⟨R.RT_RG_CTL k, 2, 1⟩
abbrev F.RT_RG_CTL.DISCARD (k : Nat) : Fld := ⟨R.RT_RG_CTL k, 3, 1⟩
abbrev F.RT_RG_CTL.LOCK_OK (k : Nat) : Fld := ⟨R.RT_RG_CTL k, 4, 1⟩
abbrev F.RT_RG_CTL.XFER (k : Nat) : Fld := ⟨R.RT_RG_CTL k, 5, 1⟩
abbrev F.RT_RG_CTL.CTX_EN (k : Nat) : Fld := ⟨R.RT_RG_CTL k, 6, 1⟩
abbrev F.RT_RG_CTL.PORT (k : Nat) : Fld := ⟨R.RT_RG_CTL k, 8, 3⟩
/-- RT_RG_BASE, R111 Table 3.10. -/
def R.RT_RG_BASE (k : Nat) : Nat := 0x6D104 + k % 16 * 0x20
abbrev F.RT_RG_BASE.BASE (k : Nat) : Fld := ⟨R.RT_RG_BASE k, 0, 16⟩
/-- RT_RG_SIZE, R111 Table 3.10. -/
def R.RT_RG_SIZE (k : Nat) : Nat := 0x6D108 + k % 16 * 0x20
abbrev F.RT_RG_SIZE.SIZE (k : Nat) : Fld := ⟨R.RT_RG_SIZE k, 0, 17⟩
/-- RT_RG_STS, R111 Table 3.10. -/
def R.RT_RG_STS (k : Nat) : Nat := 0x6D10C + k % 16 * 0x20
abbrev F.RT_RG_STS.ACCEPT (k : Nat) : Fld := ⟨R.RT_RG_STS k, 0, 1⟩
abbrev F.RT_RG_STS.CLOSING (k : Nat) : Fld := ⟨R.RT_RG_STS k, 1, 1⟩
abbrev F.RT_RG_STS.SDISC (k : Nat) : Fld := ⟨R.RT_RG_STS k, 2, 1⟩
abbrev F.RT_RG_STS.EXPORT (k : Nat) : Fld := ⟨R.RT_RG_STS k, 3, 1⟩
abbrev F.RT_RG_STS.SDISC_PCT (k : Nat) : Fld := ⟨R.RT_RG_STS k, 8, 7⟩

/-! ### Registers of 04_write_path_and_dirty_budget.md -/

/-- TS_CTL, R137 Table 4.7. -/
def R.TS_CTL : Nat := 0x9100
abbrev F.TS_CTL.RD_KEEP : Fld := ⟨R.TS_CTL, 0, 1⟩
abbrev F.TS_CTL.HOLD_EN : Fld := ⟨R.TS_CTL, 1, 1⟩
abbrev F.TS_CTL.EVT_EN : Fld := ⟨R.TS_CTL, 2, 1⟩
abbrev F.TS_CTL.FLUSH : Fld := ⟨R.TS_CTL, 3, 1⟩
/-- TS_STS, R137 Table 4.7. -/
def R.TS_STS : Nat := 0x9104
abbrev F.TS_STS.BUDGET_VALID : Fld := ⟨R.TS_STS, 0, 1⟩
abbrev F.TS_STS.PRESS : Fld := ⟨R.TS_STS, 1, 1⟩
abbrev F.TS_STS.HOLD : Fld := ⟨R.TS_STS, 2, 1⟩
abbrev F.TS_STS.OVER : Fld := ⟨R.TS_STS, 3, 1⟩
abbrev F.TS_STS.SLOT_LOW : Fld := ⟨R.TS_STS, 4, 1⟩
abbrev F.TS_STS.FLUSH_BUSY : Fld := ⟨R.TS_STS, 5, 1⟩
/-- TS_DB_LO, R137 Table 4.7. -/
def R.TS_DB_LO : Nat := 0x9108
/-- TS_DB_HI, R137 Table 4.7. -/
def R.TS_DB_HI : Nat := 0x910C
/-- TS_DB_CAP_LO, R137 Table 4.7. -/
def R.TS_DB_CAP_LO : Nat := 0x9110
/-- TS_DB_CAP_HI, R137 Table 4.7. -/
def R.TS_DB_CAP_HI : Nat := 0x9114
/-- TS_DIRTY_LO, R137 Table 4.7. -/
def R.TS_DIRTY_LO : Nat := 0x9118
/-- TS_DIRTY_HI, R137 Table 4.7. -/
def R.TS_DIRTY_HI : Nat := 0x911C
/-- TS_DB_GUARD, R137 Table 4.7. -/
def R.TS_DB_GUARD : Nat := 0x9120
/-- TS_DB_PRESS, R137 Table 4.7. -/
def R.TS_DB_PRESS : Nat := 0x9124
/-- TS_AGE_LIM, R137 Table 4.7. -/
def R.TS_AGE_LIM : Nat := 0x9128
/-- TS_PAGE_WAIT, R137 Table 4.7. -/
def R.TS_PAGE_WAIT : Nat := 0x912C
/-- TS_BP_HOLD, R137 Table 4.7. -/
def R.TS_BP_HOLD : Nat := 0x9130
/-- TS_SLOT_CNT, R137 Table 4.7. -/
def R.TS_SLOT_CNT : Nat := 0x9134
/-- TS_SLOT_FREE, R137 Table 4.7. -/
def R.TS_SLOT_FREE : Nat := 0x9138
/-- TS_SLOT_DIRTY, R137 Table 4.7. -/
def R.TS_SLOT_DIRTY : Nat := 0x913C
/-- TS_DUE_CNT, R137 Table 4.7. -/
def R.TS_DUE_CNT : Nat := 0x9140
/-- TS_HELD_CNT, R137 Table 4.7. -/
def R.TS_HELD_CNT : Nat := 0x9144
/-- TS_OVER_CNT, R137 Table 4.7. -/
def R.TS_OVER_CNT : Nat := 0x9148
/-- TS_PAD_CNT, R137 Table 4.7. -/
def R.TS_PAD_CNT : Nat := 0x914C
/-- TS_FILL_RD_CNT, R137 Table 4.7. -/
def R.TS_FILL_RD_CNT : Nat := 0x9150
/-- TS_CNT_CLR, R137 Table 4.7. -/
def R.TS_CNT_CLR : Nat := 0x9154
/-- TS_LOCK, R137 Table 4.7. -/
def R.TS_LOCK : Nat := 0x9158
abbrev F.TS_LOCK.LOCK : Fld := ⟨R.TS_LOCK, 0, 1⟩

/-! ### Registers of 05_on_die_caches.md -/

/-- LC_CTL, R164 Table 5.8. -/
def R.LC_CTL : Nat := 0x7100
abbrev F.LC_CTL.EN : Fld := ⟨R.LC_CTL, 0, 1⟩
abbrev F.LC_CTL.SAFE_DISABLE : Fld := ⟨R.LC_CTL, 1, 1⟩
abbrev F.LC_CTL.INV_ON_RST : Fld := ⟨R.LC_CTL, 2, 1⟩
abbrev F.LC_CTL.EVT_EN : Fld := ⟨R.LC_CTL, 3, 1⟩
/-- LC_STS, R164 Table 5.8. -/
def R.LC_STS : Nat := 0x7104
abbrev F.LC_STS.STALE_HELD : Fld := ⟨R.LC_STS, 0, 1⟩
abbrev F.LC_STS.SAFE_BUSY : Fld := ⟨R.LC_STS, 1, 1⟩
abbrev F.LC_STS.CHECK_BUSY : Fld := ⟨R.LC_STS, 2, 1⟩
abbrev F.LC_STS.STALE_REENABLED : Fld := ⟨R.LC_STS, 3, 1⟩
abbrev F.LC_STS.KEPT : Fld := ⟨R.LC_STS, 4, 1⟩
/-- LC_DIRTY_CNT, R164 Table 5.8. -/
def R.LC_DIRTY_CNT : Nat := 0x7108
/-- LC_LOCK_CNT, R164 Table 5.8. -/
def R.LC_LOCK_CNT : Nat := 0x710C
/-- LC_LOCK_WAYS, R164 Table 5.8. -/
def R.LC_LOCK_WAYS : Nat := 0x7110
/-- LC_LOCK_MAX, R164 Table 5.8. -/
def R.LC_LOCK_MAX : Nat := 0x7114
/-- LC_LOCK, R164 Table 5.8. -/
def R.LC_LOCK : Nat := 0x7118
abbrev F.LC_LOCK.LOCK : Fld := ⟨R.LC_LOCK, 0, 1⟩
/-- LC_RANGE_BASE_LO, R164 Table 5.8. -/
def R.LC_RANGE_BASE_LO : Nat := 0x7120
abbrev F.LC_RANGE_BASE_LO.DPA : Fld := ⟨R.LC_RANGE_BASE_LO, 6, 26⟩
/-- LC_RANGE_BASE_HI, R164 Table 5.8. -/
def R.LC_RANGE_BASE_HI : Nat := 0x7124
abbrev F.LC_RANGE_BASE_HI.DPA : Fld := ⟨R.LC_RANGE_BASE_HI, 0, 12⟩
/-- LC_RANGE_LEN_LO, R164 Table 5.8. -/
def R.LC_RANGE_LEN_LO : Nat := 0x7128
/-- LC_RANGE_LEN_HI, R164 Table 5.8. -/
def R.LC_RANGE_LEN_HI : Nat := 0x712C
/-- LC_RANGE_CTL, R164 Table 5.8. -/
def R.LC_RANGE_CTL : Nat := 0x7130
abbrev F.LC_RANGE_CTL.OP : Fld := ⟨R.LC_RANGE_CTL, 0, 3⟩
abbrev F.LC_RANGE_CTL.OVERRIDE_LOCK : Fld := ⟨R.LC_RANGE_CTL, 3, 1⟩
abbrev F.LC_RANGE_CTL.ALL : Fld := ⟨R.LC_RANGE_CTL, 4, 1⟩
abbrev F.LC_RANGE_CTL.START : Fld := ⟨R.LC_RANGE_CTL, 5, 1⟩
/-- LC_RANGE_STS, R164 Table 5.8. -/
def R.LC_RANGE_STS : Nat := 0x7134
abbrev F.LC_RANGE_STS.BUSY : Fld := ⟨R.LC_RANGE_STS, 0, 1⟩
abbrev F.LC_RANGE_STS.RUN : Fld := ⟨R.LC_RANGE_STS, 1, 1⟩
abbrev F.LC_RANGE_STS.DONE : Fld := ⟨R.LC_RANGE_STS, 2, 1⟩
abbrev F.LC_RANGE_STS.PARTIAL : Fld := ⟨R.LC_RANGE_STS, 3, 1⟩
abbrev F.LC_RANGE_STS.ERR : Fld := ⟨R.LC_RANGE_STS, 4, 3⟩
abbrev F.LC_RANGE_STS.PCT : Fld := ⟨R.LC_RANGE_STS, 8, 7⟩
/-- LC_RANGE_DONE, R164 Table 5.8. -/
def R.LC_RANGE_DONE : Nat := 0x7138
/-- LC_RANGE_SKIPPED, R164 Table 5.8. -/
def R.LC_RANGE_SKIPPED : Nat := 0x713C
/-- LC_HIT_RD, R164 Table 5.8. -/
def R.LC_HIT_RD : Nat := 0x7140
/-- LC_MISS_RD, R164 Table 5.8. -/
def R.LC_MISS_RD : Nat := 0x7144
/-- LC_HIT_WR, R164 Table 5.8. -/
def R.LC_HIT_WR : Nat := 0x7148
/-- LC_MISS_WR, R164 Table 5.8. -/
def R.LC_MISS_WR : Nat := 0x714C
/-- LC_BYPASS_WR, R164 Table 5.8. -/
def R.LC_BYPASS_WR : Nat := 0x7150
/-- LC_FILL_DROP, R164 Table 5.8. -/
def R.LC_FILL_DROP : Nat := 0x7154
/-- LC_LOCK_FAIL, R164 Table 5.8. -/
def R.LC_LOCK_FAIL : Nat := 0x7158
/-- LC_CE_CNT, R164 Table 5.8. -/
def R.LC_CE_CNT : Nat := 0x715C
/-- LC_UE_CNT, R164 Table 5.8. -/
def R.LC_UE_CNT : Nat := 0x7160
/-- LC_TAG_PE_CNT, R164 Table 5.8. -/
def R.LC_TAG_PE_CNT : Nat := 0x7164
/-- LC_RST_LOST, R164 Table 5.8. -/
def R.LC_RST_LOST : Nat := 0x7168
/-- LC_CNT_CLR, R164 Table 5.8. -/
def R.LC_CNT_CLR : Nat := 0x716C
abbrev F.LC_CNT_CLR.ACC : Fld := ⟨R.LC_CNT_CLR, 0, 1⟩
/-- MAPC_CTL, R169 Table 5.13. -/
def R.MAPC_CTL : Nat := 0x8100
abbrev F.MAPC_CTL.EN : Fld := ⟨R.MAPC_CTL, 0, 1⟩
abbrev F.MAPC_CTL.INV : Fld := ⟨R.MAPC_CTL, 1, 1⟩
/-- MAPC_STS, R169 Table 5.13. -/
def R.MAPC_STS : Nat := 0x8104
abbrev F.MAPC_STS.INV_BUSY : Fld := ⟨R.MAPC_STS, 0, 1⟩
/-- MAPC_HIT, R169 Table 5.13. -/
def R.MAPC_HIT : Nat := 0x8108
/-- MAPC_MISS, R169 Table 5.13. -/
def R.MAPC_MISS : Nat := 0x810C
/-- MAPC_CE_CNT, R169 Table 5.13. -/
def R.MAPC_CE_CNT : Nat := 0x8110
/-- MAPC_UE_CNT, R169 Table 5.13. -/
def R.MAPC_UE_CNT : Nat := 0x8114
/-- MAPC_VALID_CNT, R169 Table 5.13. -/
def R.MAPC_VALID_CNT : Nat := 0x8118
/-- MAPC_CNT_CLR, R169 Table 5.13. -/
def R.MAPC_CNT_CLR : Nat := 0x811C

/-! ### Registers of 06_translation_layer.md -/

/-- TE_CTL, R203 Table 6.12. -/
def R.TE_CTL : Nat := 0x8200
abbrev F.TE_CTL.EVT_EN : Fld := ⟨R.TE_CTL, 0, 1⟩
abbrev F.TE_CTL.FLUSH : Fld := ⟨R.TE_CTL, 1, 1⟩
abbrev F.TE_CTL.CKPT_ALL : Fld := ⟨R.TE_CTL, 2, 1⟩
/-- TE_STS, R203 Table 6.12. -/
def R.TE_STS : Nat := 0x8204
abbrev F.TE_STS.MAP_READY : Fld := ⟨R.TE_STS, 0, 1⟩
abbrev F.TE_STS.BLD_BUSY : Fld := ⟨R.TE_STS, 1, 1⟩
abbrev F.TE_STS.BLD_STEP : Fld := ⟨R.TE_STS, 2, 4⟩
abbrev F.TE_STS.UNCLEAN : Fld := ⟨R.TE_STS, 6, 1⟩
abbrev F.TE_STS.FALLBACK : Fld := ⟨R.TE_STS, 7, 1⟩
abbrev F.TE_STS.SEQ_WARN : Fld := ⟨R.TE_STS, 8, 1⟩
abbrev F.TE_STS.SEQ_RO : Fld := ⟨R.TE_STS, 9, 1⟩
abbrev F.TE_STS.PT_FULL : Fld := ⟨R.TE_STS, 10, 1⟩
abbrev F.TE_STS.REPAIR_BUSY : Fld := ⟨R.TE_STS, 11, 1⟩
/-- TE_SEQ_LO, R203 Table 6.12. -/
def R.TE_SEQ_LO : Nat := 0x8208
/-- TE_SEQ_HI, R203 Table 6.12. -/
def R.TE_SEQ_HI : Nat := 0x820C
/-- TE_SEQ_HW_LO, R203 Table 6.12. -/
def R.TE_SEQ_HW_LO : Nat := 0x8210
/-- TE_SEQ_HW_HI, R203 Table 6.12. -/
def R.TE_SEQ_HW_HI : Nat := 0x8214
abbrev F.TE_SEQ_HW_HI.HW : Fld := ⟨R.TE_SEQ_HW_HI, 0, 16⟩
/-- TE_JSEQ_LO, R203 Table 6.12. -/
def R.TE_JSEQ_LO : Nat := 0x8218
/-- TE_JSEQ_HI, R203 Table 6.12. -/
def R.TE_JSEQ_HI : Nat := 0x821C
/-- TE_JRN_INT, R203 Table 6.12. -/
def R.TE_JRN_INT : Nat := 0x8220
/-- TE_JRN_BATCH, R203 Table 6.12. -/
def R.TE_JRN_BATCH : Nat := 0x8224
/-- TE_JRN_SPAN, R203 Table 6.12. -/
def R.TE_JRN_SPAN : Nat := 0x8228
/-- TE_DIES, R203 Table 6.12. -/
def R.TE_DIES : Nat := 0x822C
/-- TE_SUB_SEL, R203 Table 6.12. -/
def R.TE_SUB_SEL : Nat := 0x8230
/-- TE_SUB, R203 Table 6.12. -/
def R.TE_SUB : Nat := 0x8234
abbrev F.TE_SUB.VALID : Fld := ⟨R.TE_SUB, 31, 1⟩
/-- TE_PT_LINES, R203 Table 6.12. -/
def R.TE_PT_LINES : Nat := 0x8238
/-- TE_PT_TILES, R203 Table 6.12. -/
def R.TE_PT_TILES : Nat := 0x823C
/-- TE_PT_WHOLE, R203 Table 6.12. -/
def R.TE_PT_WHOLE : Nat := 0x8240
/-- TE_BLD_PAGES, R203 Table 6.12. -/
def R.TE_BLD_PAGES : Nat := 0x8244
/-- TE_BLD_TORN, R203 Table 6.12. -/
def R.TE_BLD_TORN : Nat := 0x8248
/-- TE_BLD_RECON, R203 Table 6.12. -/
def R.TE_BLD_RECON : Nat := 0x824C
/-- TE_BLD_MERGED, R203 Table 6.12. -/
def R.TE_BLD_MERGED : Nat := 0x8250
/-- TE_BLD_REPLAY, R203 Table 6.12. -/
def R.TE_BLD_REPLAY : Nat := 0x8254
/-- TE_BLD_MS, R203 Table 6.12. -/
def R.TE_BLD_MS : Nat := 0x8258
/-- TE_MAP_REPAIR, R203 Table 6.12. -/
def R.TE_MAP_REPAIR : Nat := 0x825C
/-- TE_JRN_FLUSH_CNT, R203 Table 6.12. -/
def R.TE_JRN_FLUSH_CNT : Nat := 0x8260
/-- TE_CNT_CLR, R203 Table 6.12. -/
def R.TE_CNT_CLR : Nat := 0x8264
/-- TE_LOCK, R203 Table 6.12. -/
def R.TE_LOCK : Nat := 0x8268
abbrev F.TE_LOCK.LOCK : Fld := ⟨R.TE_LOCK, 0, 1⟩

/-! ### Registers of 07_media_upkeep.md -/

/-- TE_UPK_CTL, R232 Table 7.5. -/
def R.TE_UPK_CTL : Nat := 0x8300
abbrev F.TE_UPK_CTL.WL_EN : Fld := ⟨R.TE_UPK_CTL, 0, 1⟩
abbrev F.TE_UPK_CTL.EVT_EN : Fld := ⟨R.TE_UPK_CTL, 1, 1⟩
/-- TE_UPK_STS, R232 Table 7.5. -/
def R.TE_UPK_STS : Nat := 0x8304
abbrev F.TE_UPK_STS.LOW_SPARE : Fld := ⟨R.TE_UPK_STS, 0, 1⟩
abbrev F.TE_UPK_STS.CRITICAL : Fld := ⟨R.TE_UPK_STS, 1, 1⟩
abbrev F.TE_UPK_STS.URGENT : Fld := ⟨R.TE_UPK_STS, 2, 1⟩
abbrev F.TE_UPK_STS.WL_ACTIVE : Fld := ⟨R.TE_UPK_STS, 3, 1⟩
abbrev F.TE_UPK_STS.DIE_RETIRED : Fld := ⟨R.TE_UPK_STS, 4, 1⟩
abbrev F.TE_UPK_STS.OPEN_WAIT : Fld := ⟨R.TE_UPK_STS, 5, 1⟩
/-- TE_GC_START, R232 Table 7.5. -/
def R.TE_GC_START : Nat := 0x8308
/-- TE_GC_URGENT, R232 Table 7.5. -/
def R.TE_GC_URGENT : Nat := 0x830C
/-- TE_GC_STOP, R232 Table 7.5. -/
def R.TE_GC_STOP : Nat := 0x8310
/-- TE_GC_WEAR_W, R232 Table 7.5. -/
def R.TE_GC_WEAR_W : Nat := 0x8314
/-- TE_WL_SPREAD, R232 Table 7.5. -/
def R.TE_WL_SPREAD : Nat := 0x8318
/-- TE_VFY_BITS, R232 Table 7.5. -/
def R.TE_VFY_BITS : Nat := 0x831C
/-- TE_VFY_DEADLINE, R232 Table 7.5. -/
def R.TE_VFY_DEADLINE : Nat := 0x8320
/-- TE_SPARE_LOW, R232 Table 7.5. -/
def R.TE_SPARE_LOW : Nat := 0x8324
/-- TE_SPARE_CRIT, R232 Table 7.5. -/
def R.TE_SPARE_CRIT : Nat := 0x8328
/-- TE_SPARE_TOTAL, R232 Table 7.5. -/
def R.TE_SPARE_TOTAL : Nat := 0x832C
/-- TE_SPARE_PCT, R232 Table 7.5. -/
def R.TE_SPARE_PCT : Nat := 0x8330
abbrev F.TE_SPARE_PCT.MIN : Fld := ⟨R.TE_SPARE_PCT, 0, 16⟩
abbrev F.TE_SPARE_PCT.TOTAL : Fld := ⟨R.TE_SPARE_PCT, 16, 16⟩
/-- TE_UPK_DIE_SEL, R232 Table 7.5. -/
def R.TE_UPK_DIE_SEL : Nat := 0x8334
/-- TE_DIE_SPARE, R232 Table 7.5. -/
def R.TE_DIE_SPARE : Nat := 0x8338
/-- TE_DIE_ERASE, R232 Table 7.5. -/
def R.TE_DIE_ERASE : Nat := 0x833C
/-- TE_GC_COPIED, R232 Table 7.5. -/
def R.TE_GC_COPIED : Nat := 0x8340
/-- TE_WL_COPIED, R232 Table 7.5. -/
def R.TE_WL_COPIED : Nat := 0x8344
/-- TE_BLK_RETIRED, R232 Table 7.5. -/
def R.TE_BLK_RETIRED : Nat := 0x8348
/-- TE_PGM_FAIL, R232 Table 7.5. -/
def R.TE_PGM_FAIL : Nat := 0x834C
/-- TE_ERS_FAIL, R232 Table 7.5. -/
def R.TE_ERS_FAIL : Nat := 0x8350
/-- TE_GC_ABORT, R232 Table 7.5. -/
def R.TE_GC_ABORT : Nat := 0x8354
/-- TE_LIFE_USED, R232 Table 7.5. -/
def R.TE_LIFE_USED : Nat := 0x8358
/-- TE_UPK_CNT_CLR, R232 Table 7.5. -/
def R.TE_UPK_CNT_CLR : Nat := 0x835C
/-- MG_OBP_WAIT, R235 Table 7.8. -/
def R.MG_OBP_WAIT (i : Nat) : Nat := (26 + i % 5) * 0x1000 + 0x600
/-- MG_OBP_STS, R235 Table 7.8. -/
def R.MG_OBP_STS (i : Nat) : Nat := (26 + i % 5) * 0x1000 + 0x604
abbrev F.MG_OBP_STS.STALL (i : Nat) : Fld := ⟨R.MG_OBP_STS i, 6, 1⟩
/-- MG_OBP_STRIPES, R235 Table 7.8. -/
def R.MG_OBP_STRIPES (i : Nat) : Nat := (26 + i % 5) * 0x1000 + 0x608
/-- MG_OBP_SHORT, R235 Table 7.8. -/
def R.MG_OBP_SHORT (i : Nat) : Nat := (26 + i % 5) * 0x1000 + 0x60C
/-- MG_OBP_NOPAR, R235 Table 7.8. -/
def R.MG_OBP_NOPAR (i : Nat) : Nat := (26 + i % 5) * 0x1000 + 0x610
/-- MG_OBP_RECON, R235 Table 7.8. -/
def R.MG_OBP_RECON (i : Nat) : Nat := (26 + i % 5) * 0x1000 + 0x614
/-- MG_OBP_FAIL, R235 Table 7.8. -/
def R.MG_OBP_FAIL (i : Nat) : Nat := (26 + i % 5) * 0x1000 + 0x618
/-- MG_OBP_HELD, R235 Table 7.8. -/
def R.MG_OBP_HELD (i : Nat) : Nat := (26 + i % 5) * 0x1000 + 0x61C
/-- MG_OBP_CNT_CLR, R235 Table 7.8. -/
def R.MG_OBP_CNT_CLR (i : Nat) : Nat := (26 + i % 5) * 0x1000 + 0x620

/-! ### Registers of 08_media_channels.md -/

/-- MG_CTL, R257 Table 8.13. -/
def R.MG_CTL (i : Nat) : Nat := (26 + i % 5) * 0x1000 + 0x100
abbrev F.MG_CTL.TRACK_EN (i : Nat) : Fld := ⟨R.MG_CTL i, 0, 1⟩
abbrev F.MG_CTL.EVT_EN (i : Nat) : Fld := ⟨R.MG_CTL i, 1, 1⟩
/-- MG_STS, R257 Table 8.13. -/
def R.MG_STS (i : Nat) : Nat := (26 + i % 5) * 0x1000 + 0x104
abbrev F.MG_STS.TRAIN_BUSY (i : Nat) : Fld := ⟨R.MG_STS i, 16, 1⟩
/-- MG_IO_CFG, R257 Table 8.13. -/
def R.MG_IO_CFG (i : Nat) : Nat := (26 + i % 5) * 0x1000 + 0x108
/-- MG_RD_TO, R257 Table 8.13. -/
def R.MG_RD_TO (i : Nat) : Nat := (26 + i % 5) * 0x1000 + 0x10C
/-- MG_DIE_RET_LIM, R257 Table 8.13. -/
def R.MG_DIE_RET_LIM (i : Nat) : Nat := (26 + i % 5) * 0x1000 + 0x110
/-- MG_SUSP_WARN, R257 Table 8.13. -/
def R.MG_SUSP_WARN (i : Nat) : Nat := (26 + i % 5) * 0x1000 + 0x114
/-- MG_TRACK_INT, R257 Table 8.13. -/
def R.MG_TRACK_INT (i : Nat) : Nat := (26 + i % 5) * 0x1000 + 0x118
/-- MG_LOCK, R257 Table 8.13. -/
def R.MG_LOCK (i : Nat) : Nat := (26 + i % 5) * 0x1000 + 0x11C
abbrev F.MG_LOCK.LOCK (i : Nat) : Fld := ⟨R.MG_LOCK i, 0, 1⟩
/-- MC_CTL, R258 Table 8.14. -/
def R.MC_CTL (i : Nat) : Nat := (32 + i % 40) * 0x1000 + 0x100
abbrev F.MC_CTL.EN (i : Nat) : Fld := ⟨R.MC_CTL i, 0, 1⟩
abbrev F.MC_CTL.RETRAIN (i : Nat) : Fld := ⟨R.MC_CTL i, 1, 1⟩
abbrev F.MC_CTL.EVT_EN (i : Nat) : Fld := ⟨R.MC_CTL i, 2, 1⟩
/-- MC_STS, R258 Table 8.14. -/
def R.MC_STS (i : Nat) : Nat := (32 + i % 40) * 0x1000 + 0x104
abbrev F.MC_STS.TRAINED (i : Nat) : Fld := ⟨R.MC_STS i, 0, 1⟩
abbrev F.MC_STS.FAILED (i : Nat) : Fld := ⟨R.MC_STS i, 1, 1⟩
abbrev F.MC_STS.TRAIN_BUSY (i : Nat) : Fld := ⟨R.MC_STS i, 2, 1⟩
abbrev F.MC_STS.PAT_SYNC (i : Nat) : Fld := ⟨R.MC_STS i, 3, 1⟩
abbrev F.MC_STS.PRESENT (i : Nat) : Fld := ⟨R.MC_STS i, 8, 8⟩
abbrev F.MC_STS.DIE_FAILED (i : Nat) : Fld := ⟨R.MC_STS i, 16, 8⟩
/-- MC_DIES, R258 Table 8.14. -/
def R.MC_DIES (i : Nat) : Nat := (32 + i % 40) * 0x1000 + 0x108
/-- MC_DIE_SEL, R258 Table 8.14. -/
def R.MC_DIE_SEL (i : Nat) : Nat := (32 + i % 40) * 0x1000 + 0x10C
/-- MC_DIE_STS, R258 Table 8.14. -/
def R.MC_DIE_STS (i : Nat) : Nat := (32 + i % 40) * 0x1000 + 0x110
/-- MC_DIE_TRN, R258 Table 8.14. -/
def R.MC_DIE_TRN (i : Nat) : Nat := (32 + i % 40) * 0x1000 + 0x114
/-- MC_PAT_CTL, R258 Table 8.14. -/
def R.MC_PAT_CTL (i : Nat) : Nat := (32 + i % 40) * 0x1000 + 0x118
abbrev F.MC_PAT_CTL.PAT (i : Nat) : Fld := ⟨R.MC_PAT_CTL i, 0, 3⟩
abbrev F.MC_PAT_CTL.DIR (i : Nat) : Fld := ⟨R.MC_PAT_CTL i, 3, 1⟩
abbrev F.MC_PAT_CTL.DIE (i : Nat) : Fld := ⟨R.MC_PAT_CTL i, 4, 3⟩
abbrev F.MC_PAT_CTL.START (i : Nat) : Fld := ⟨R.MC_PAT_CTL i, 7, 1⟩
abbrev F.MC_PAT_CTL.STOP (i : Nat) : Fld := ⟨R.MC_PAT_CTL i, 8, 1⟩
/-- MC_PAT_ERR, R258 Table 8.14. -/
def R.MC_PAT_ERR (i : Nat) : Nat := (32 + i % 40) * 0x1000 + 0x11C
/-- MC_PAT_LANES, R258 Table 8.14. -/
def R.MC_PAT_LANES (i : Nat) : Nat := (32 + i % 40) * 0x1000 + 0x120
/-- MC_RD_H_CNT, R258 Table 8.14. -/
def R.MC_RD_H_CNT (i : Nat) : Nat := (32 + i % 40) * 0x1000 + 0x124
/-- MC_RD_B_CNT, R258 Table 8.14. -/
def R.MC_RD_B_CNT (i : Nat) : Nat := (32 + i % 40) * 0x1000 + 0x128
/-- MC_PGM_CNT, R258 Table 8.14. -/
def R.MC_PGM_CNT (i : Nat) : Nat := (32 + i % 40) * 0x1000 + 0x12C
/-- MC_ERS_CNT, R258 Table 8.14. -/
def R.MC_ERS_CNT (i : Nat) : Nat := (32 + i % 40) * 0x1000 + 0x130
/-- MC_SUSP_CNT, R258 Table 8.14. -/
def R.MC_SUSP_CNT (i : Nat) : Nat := (32 + i % 40) * 0x1000 + 0x134
/-- MC_SUSP_MAX, R258 Table 8.14. -/
def R.MC_SUSP_MAX (i : Nat) : Nat := (32 + i % 40) * 0x1000 + 0x138
/-- MC_RD_TO_CNT, R258 Table 8.14. -/
def R.MC_RD_TO_CNT (i : Nat) : Nat := (32 + i % 40) * 0x1000 + 0x13C
/-- MC_ERR_CNT, R258 Table 8.14. -/
def R.MC_ERR_CNT (i : Nat) : Nat := (32 + i % 40) * 0x1000 + 0x140
/-- MC_CNT_CLR, R258 Table 8.14. -/
def R.MC_CNT_CLR (i : Nat) : Nat := (32 + i % 40) * 0x1000 + 0x144

/-! ### Registers of 09_integrity_and_drift.md -/

/-- MG_CDC_CTL, R288 Table 9.10. -/
def R.MG_CDC_CTL (i : Nat) : Nat := (26 + i % 5) * 0x1000 + 0x200
abbrev F.MG_CDC_CTL.LCHK_EN (i : Nat) : Fld := ⟨R.MG_CDC_CTL i, 0, 1⟩
abbrev F.MG_CDC_CTL.EVT_EN (i : Nat) : Fld := ⟨R.MG_CDC_CTL i, 1, 1⟩
/-- MG_CDC_STS, R288 Table 9.10. -/
def R.MG_CDC_STS (i : Nat) : Nat := (26 + i % 5) * 0x1000 + 0x204
/-- MG_CE_LINES, R288 Table 9.10. -/
def R.MG_CE_LINES (i : Nat) : Nat := (26 + i % 5) * 0x1000 + 0x208
/-- MG_CE_BITS, R288 Table 9.10. -/
def R.MG_CE_BITS (i : Nat) : Nat := (26 + i % 5) * 0x1000 + 0x20C
/-- MG_RETRY1, R288 Table 9.10. -/
def R.MG_RETRY1 (i : Nat) : Nat := (26 + i % 5) * 0x1000 + 0x210
/-- MG_RETRY2, R288 Table 9.10. -/
def R.MG_RETRY2 (i : Nat) : Nat := (26 + i % 5) * 0x1000 + 0x214
/-- MG_RETRY3, R288 Table 9.10. -/
def R.MG_RETRY3 (i : Nat) : Nat := (26 + i % 5) * 0x1000 + 0x218
/-- MG_UE_LINES, R288 Table 9.10. -/
def R.MG_UE_LINES (i : Nat) : Nat := (26 + i % 5) * 0x1000 + 0x21C
/-- MG_LCHK_CNT, R288 Table 9.10. -/
def R.MG_LCHK_CNT (i : Nat) : Nat := (26 + i % 5) * 0x1000 + 0x220
/-- MG_CDC_CNT_CLR, R288 Table 9.10. -/
def R.MG_CDC_CNT_CLR (i : Nat) : Nat := (26 + i % 5) * 0x1000 + 0x224
/-- MG_REF_SEL, R288 Table 9.10. -/
def R.MG_REF_SEL (i : Nat) : Nat := (26 + i % 5) * 0x1000 + 0x228
abbrev F.MG_REF_SEL.DEF (i : Nat) : Fld := ⟨R.MG_REF_SEL i, 11, 1⟩
/-- MG_REF_VAL, R288 Table 9.10. -/
def R.MG_REF_VAL (i : Nat) : Nat := (26 + i % 5) * 0x1000 + 0x22C
/-- MG_AGE_SEL, R288 Table 9.10. -/
def R.MG_AGE_SEL (i : Nat) : Nat := (26 + i % 5) * 0x1000 + 0x230
/-- MG_AGE_VAL, R288 Table 9.10. -/
def R.MG_AGE_VAL (i : Nat) : Nat := (26 + i % 5) * 0x1000 + 0x234
abbrev F.MG_AGE_VAL.UNKNOWN (i : Nat) : Fld := ⟨R.MG_AGE_VAL i, 3, 1⟩
abbrev F.MG_AGE_VAL.VALID (i : Nat) : Fld := ⟨R.MG_AGE_VAL i, 4, 1⟩
/-- MG_CW, R288 Table 9.10. -/
def R.MG_CW (i k : Nat) : Nat := (26 + i % 5) * 0x1000 + 0x300 + k % 22 * 0x4
/-- MG_CW_CTL, R288 Table 9.10. -/
def R.MG_CW_CTL (i : Nat) : Nat := (26 + i % 5) * 0x1000 + 0x358
abbrev F.MG_CW_CTL.ENCODE (i : Nat) : Fld := ⟨R.MG_CW_CTL i, 0, 1⟩
abbrev F.MG_CW_CTL.DECODE (i : Nat) : Fld := ⟨R.MG_CW_CTL i, 1, 1⟩
abbrev F.MG_CW_CTL.WB (i : Nat) : Fld := ⟨R.MG_CW_CTL i, 2, 1⟩
/-- MG_CW_RES, R288 Table 9.10. -/
def R.MG_CW_RES (i : Nat) : Nat := (26 + i % 5) * 0x1000 + 0x35C
abbrev F.MG_CW_RES.FAIL (i : Nat) : Fld := ⟨R.MG_CW_RES i, 4, 1⟩
abbrev F.MG_CW_RES.DONE (i : Nat) : Fld := ⟨R.MG_CW_RES i, 5, 1⟩
/-- SIR_CTL, R289 Table 9.11. -/
def R.SIR_CTL : Nat := 0xA100
abbrev F.SIR_CTL.SCRUB_EN : Fld := ⟨R.SIR_CTL, 0, 1⟩
abbrev F.SIR_CTL.TRACK_EN : Fld := ⟨R.SIR_CTL, 1, 1⟩
abbrev F.SIR_CTL.SRAM_EN : Fld := ⟨R.SIR_CTL, 2, 1⟩
abbrev F.SIR_CTL.EVT_EN : Fld := ⟨R.SIR_CTL, 3, 1⟩
abbrev F.SIR_CTL.LAG_CLR : Fld := ⟨R.SIR_CTL, 4, 1⟩
/-- SIR_STS, R289 Table 9.11. -/
def R.SIR_STS : Nat := 0xA104
abbrev F.SIR_STS.UNKNOWN_AGE : Fld := ⟨R.SIR_STS, 0, 1⟩
abbrev F.SIR_STS.SWEEP_BUSY : Fld := ⟨R.SIR_STS, 1, 1⟩
abbrev F.SIR_STS.LATE : Fld := ⟨R.SIR_STS, 2, 1⟩
abbrev F.SIR_STS.SWEEP_PCT : Fld := ⟨R.SIR_STS, 8, 7⟩
/-- SIR_LAG, R289 Table 9.11. -/
def R.SIR_LAG : Nat := 0xA108
/-- SIR_LAG_MAX, R289 Table 9.11. -/
def R.SIR_LAG_MAX : Nat := 0xA10C
/-- SIR_SCRUB_PERIOD, R289 Table 9.11. -/
def R.SIR_SCRUB_PERIOD : Nat := 0xA110
/-- SIR_SRAM_PERIOD, R289 Table 9.11. -/
def R.SIR_SRAM_PERIOD : Nat := 0xA114
/-- SIR_TRACK_INT, R289 Table 9.11. -/
def R.SIR_TRACK_INT : Nat := 0xA118
/-- SIR_TRACK_LIM, R289 Table 9.11. -/
def R.SIR_TRACK_LIM : Nat := 0xA11C
/-- SIR_SCRUB_BITS, R289 Table 9.11. -/
def R.SIR_SCRUB_BITS : Nat := 0xA120
/-- SIR_REFRESH_B, R289 Table 9.11. -/
def R.SIR_REFRESH_B (k : Nat) : Nat := 0xA124 + k % 4 * 0x4
/-- SIR_AGE_BND, R289 Table 9.11. -/
def R.SIR_AGE_BND (k : Nat) : Nat := 0xA134 + k % 4 * 0x4
/-- SIR_OFF_BAND, R289 Table 9.11. -/
def R.SIR_OFF_BAND : Nat := 0xA144
/-- SIR_ZONE_BAND, R289 Table 9.11. -/
def R.SIR_ZONE_BAND : Nat := 0xA148
/-- SIR_ZONE_SEL, R289 Table 9.11. -/
def R.SIR_ZONE_SEL : Nat := 0xA14C
/-- SIR_DRIFT_LO, R289 Table 9.11. -/
def R.SIR_DRIFT_LO : Nat := 0xA150
/-- SIR_DRIFT_HI, R289 Table 9.11. -/
def R.SIR_DRIFT_HI : Nat := 0xA154
/-- SIR_LAG_VFY, R289 Table 9.11. -/
def R.SIR_LAG_VFY : Nat := 0xA158
/-- SIR_LAG_REF, R289 Table 9.11. -/
def R.SIR_LAG_REF : Nat := 0xA15C
/-- SIR_LAG_TRK, R289 Table 9.11. -/
def R.SIR_LAG_TRK : Nat := 0xA160
/-- SIR_LAG_SCR, R289 Table 9.11. -/
def R.SIR_LAG_SCR : Nat := 0xA164
/-- SIR_LAG_SRAM, R289 Table 9.11. -/
def R.SIR_LAG_SRAM : Nat := 0xA168
/-- SIR_SCRUB_PAGES, R289 Table 9.11. -/
def R.SIR_SCRUB_PAGES : Nat := 0xA16C
/-- SIR_SCRUB_COPY, R289 Table 9.11. -/
def R.SIR_SCRUB_COPY : Nat := 0xA170
/-- SIR_UE_FOUND, R289 Table 9.11. -/
def R.SIR_UE_FOUND : Nat := 0xA174
/-- SIR_RECOV_RETRY, R289 Table 9.11. -/
def R.SIR_RECOV_RETRY : Nat := 0xA178
/-- SIR_RECOV_OBP, R289 Table 9.11. -/
def R.SIR_RECOV_OBP : Nat := 0xA17C
/-- SIR_RECOV_PEER, R289 Table 9.11. -/
def R.SIR_RECOV_PEER : Nat := 0xA180
/-- SIR_POISONED, R289 Table 9.11. -/
def R.SIR_POISONED : Nat := 0xA184
/-- SIR_REFRESH_BLK, R289 Table 9.11. -/
def R.SIR_REFRESH_BLK : Nat := 0xA188
/-- SIR_SRAM_FIX, R289 Table 9.11. -/
def R.SIR_SRAM_FIX : Nat := 0xA18C
/-- SIR_CNT_CLR, R289 Table 9.11. -/
def R.SIR_CNT_CLR : Nat := 0xA190
/-- SIR_LOCK, R289 Table 9.11. -/
def R.SIR_LOCK : Nat := 0xA194
abbrev F.SIR_LOCK.LOCK : Fld := ⟨R.SIR_LOCK, 0, 1⟩
/-- SIR_CHK_CTL, R289 Table 9.11. -/
def R.SIR_CHK_CTL : Nat := 0xA200
abbrev F.SIR_CHK_CTL.ARRAY : Fld := ⟨R.SIR_CHK_CTL, 0, 3⟩
abbrev F.SIR_CHK_CTL.WRITE : Fld := ⟨R.SIR_CHK_CTL, 3, 1⟩
abbrev F.SIR_CHK_CTL.READ : Fld := ⟨R.SIR_CHK_CTL, 4, 1⟩
abbrev F.SIR_CHK_CTL.END : Fld := ⟨R.SIR_CHK_CTL, 5, 1⟩
/-- SIR_CHK_STS, R289 Table 9.11. -/
def R.SIR_CHK_STS : Nat := 0xA204
abbrev F.SIR_CHK_STS.ACTIVE : Fld := ⟨R.SIR_CHK_STS, 0, 1⟩
abbrev F.SIR_CHK_STS.DONE : Fld := ⟨R.SIR_CHK_STS, 1, 1⟩
abbrev F.SIR_CHK_STS.RESULT : Fld := ⟨R.SIR_CHK_STS, 2, 2⟩
abbrev F.SIR_CHK_STS.ERR : Fld := ⟨R.SIR_CHK_STS, 4, 2⟩
abbrev F.SIR_CHK_STS.POS : Fld := ⟨R.SIR_CHK_STS, 8, 8⟩
abbrev F.SIR_CHK_STS.SYN : Fld := ⟨R.SIR_CHK_STS, 16, 9⟩
/-- SIR_CHK_IDX, R289 Table 9.11. -/
def R.SIR_CHK_IDX : Nat := 0xA208
/-- SIR_CHK_D, R289 Table 9.11. -/
def R.SIR_CHK_D (k : Nat) : Nat := 0xA20C + k % 4 * 0x4
/-- SIR_CHK_CB, R289 Table 9.11. -/
def R.SIR_CHK_CB : Nat := 0xA21C

/-! ### Registers of 10_cipher_engine.md -/

/-- CE_CTL, R327 Table 10.10. -/
def R.CE_CTL : Nat := 0x6100
abbrev F.CE_CTL.EVT_EN : Fld := ⟨R.CE_CTL, 0, 1⟩
abbrev F.CE_CTL.KAT_RUN : Fld := ⟨R.CE_CTL, 1, 1⟩
/-- CE_STS, R327 Table 10.10. -/
def R.CE_STS : Nat := 0x6104
abbrev F.CE_STS.LCS : Fld := ⟨R.CE_STS, 0, 2⟩
abbrev F.CE_STS.RK_VALID : Fld := ⟨R.CE_STS, 2, 1⟩
abbrev F.CE_STS.XTS_VALID : Fld := ⟨R.CE_STS, 3, 1⟩
abbrev F.CE_STS.DRBG_OK : Fld := ⟨R.CE_STS, 4, 1⟩
abbrev F.CE_STS.ENT_DEGRADED : Fld := ⟨R.CE_STS, 5, 1⟩
abbrev F.CE_STS.SEED_LOW : Fld := ⟨R.CE_STS, 6, 1⟩
abbrev F.CE_STS.KAT_BUSY : Fld := ⟨R.CE_STS, 7, 1⟩
abbrev F.CE_STS.KAT_FAIL : Fld := ⟨R.CE_STS, 8, 1⟩
/-- CE_SLOTS_USED, R327 Table 10.10. -/
def R.CE_SLOTS_USED : Nat := 0x6108
/-- CE_SLOTS_PEAK, R327 Table 10.10. -/
def R.CE_SLOTS_PEAK : Nat := 0x610C
/-- CE_DERIVE_CNT, R327 Table 10.10. -/
def R.CE_DERIVE_CNT : Nat := 0x6110
/-- CE_TAG_FAIL_CNT, R327 Table 10.10. -/
def R.CE_TAG_FAIL_CNT : Nat := 0x6114
/-- CE_TAGFAIL_LIM, R327 Table 10.10. -/
def R.CE_TAGFAIL_LIM : Nat := 0x6118
/-- CE_XF_AHEAD, R327 Table 10.10. -/
def R.CE_XF_AHEAD : Nat := 0x611C
/-- CE_XF_SEL, R327 Table 10.10. -/
def R.CE_XF_SEL : Nat := 0x6120
/-- CE_XF_STS, R327 Table 10.10. -/
def R.CE_XF_STS : Nat := 0x6124
abbrev F.CE_XF_STS.DIR : Fld := ⟨R.CE_XF_STS, 2, 1⟩
abbrev F.CE_XF_STS.CHUNK : Fld := ⟨R.CE_XF_STS, 16, 16⟩
/-- CE_CHUNK_OK, R327 Table 10.10. -/
def R.CE_CHUNK_OK : Nat := 0x6128
/-- CE_CHUNK_BAD, R327 Table 10.10. -/
def R.CE_CHUNK_BAD : Nat := 0x612C
/-- CE_XF_DROP, R327 Table 10.10. -/
def R.CE_XF_DROP : Nat := 0x6130
/-- CE_SEED_LATE, R327 Table 10.10. -/
def R.CE_SEED_LATE : Nat := 0x6134
/-- CE_ENT_FAIL, R327 Table 10.10. -/
def R.CE_ENT_FAIL : Nat := 0x6138
/-- CE_RESEED_CNT, R327 Table 10.10. -/
def R.CE_RESEED_CNT : Nat := 0x613C
/-- CE_CNT_CLR, R327 Table 10.10. -/
def R.CE_CNT_CLR : Nat := 0x6140
/-- CE_LOCK, R327 Table 10.10. -/
def R.CE_LOCK : Nat := 0x6144
abbrev F.CE_LOCK.LOCK : Fld := ⟨R.CE_LOCK, 0, 1⟩
/-- CE_RG_LBL0, R330 Table 10.13. -/
def R.CE_RG_LBL0 (k : Nat) : Nat := 0x6D400 + k % 16 * 0x20
/-- CE_RG_LBL1, R330 Table 10.13. -/
def R.CE_RG_LBL1 (k : Nat) : Nat := 0x6D404 + k % 16 * 0x20
/-- CE_RG_LBL2, R330 Table 10.13. -/
def R.CE_RG_LBL2 (k : Nat) : Nat := 0x6D408 + k % 16 * 0x20
/-- CE_RG_LBL3, R330 Table 10.13. -/
def R.CE_RG_LBL3 (k : Nat) : Nat := 0x6D40C + k % 16 * 0x20
/-- CE_RG_SLOT, R330 Table 10.13. -/
def R.CE_RG_SLOT (k : Nat) : Nat := 0x6D410 + k % 16 * 0x20
abbrev F.CE_RG_SLOT.ROTATING (k : Nat) : Fld := ⟨R.CE_RG_SLOT k, 24, 1⟩
abbrev F.CE_RG_SLOT.SUSPECT (k : Nat) : Fld := ⟨R.CE_RG_SLOT k, 25, 1⟩
abbrev F.CE_RG_SLOT.VALID (k : Nat) : Fld := ⟨R.CE_RG_SLOT k, 31, 1⟩
/-- CE_RG_ROTSEQ_LO, R330 Table 10.13. -/
def R.CE_RG_ROTSEQ_LO (k : Nat) : Nat := 0x6D414 + k % 16 * 0x20
/-- CE_RG_ROTSEQ_HI, R330 Table 10.13. -/
def R.CE_RG_ROTSEQ_HI (k : Nat) : Nat := 0x6D418 + k % 16 * 0x20
abbrev F.CE_RG_ROTSEQ_HI.ROT_SEQ (k : Nat) : Fld := ⟨R.CE_RG_ROTSEQ_HI k, 0, 16⟩
/-- CE_RG_ROT_PCT, R330 Table 10.13. -/
def R.CE_RG_ROT_PCT (k : Nat) : Nat := 0x6D41C + k % 16 * 0x20
/-- CE_SLOT_SEL, R330 Table 10.13. -/
def R.CE_SLOT_SEL : Nat := 0x6D600
/-- CE_SLOT_INFO, R330 Table 10.13. -/
def R.CE_SLOT_INFO : Nat := 0x6D604
/-- CE_SLOT_LBL, R330 Table 10.13. -/
def R.CE_SLOT_LBL (k : Nat) : Nat := 0x6D608 + k % 4 * 0x4

/-! ### Registers of 11_twin_pair.md -/

/-- CAR_CTL, R366 Table 11.9. -/
def R.CAR_CTL : Nat := 0xB100
abbrev F.CAR_CTL.EVT_EN : Fld := ⟨R.CAR_CTL, 0, 1⟩
abbrev F.CAR_CTL.RETRAIN : Fld := ⟨R.CAR_CTL, 1, 1⟩
/-- CAR_STS, R366 Table 11.9. -/
def R.CAR_STS : Nat := 0xB104
abbrev F.CAR_STS.LINK_UP : Fld := ⟨R.CAR_STS, 0, 1⟩
abbrev F.CAR_STS.PAIRED : Fld := ⟨R.CAR_STS, 1, 1⟩
abbrev F.CAR_STS.ROLE : Fld := ⟨R.CAR_STS, 2, 2⟩
abbrev F.CAR_STS.SIDE : Fld := ⟨R.CAR_STS, 4, 1⟩
abbrev F.CAR_STS.TOKEN_HELD : Fld := ⟨R.CAR_STS, 5, 1⟩
abbrev F.CAR_STS.TOKEN_LINE : Fld := ⟨R.CAR_STS, 6, 1⟩
abbrev F.CAR_STS.ALIVE_IN_OK : Fld := ⟨R.CAR_STS, 7, 1⟩
abbrev F.CAR_STS.FENCED : Fld := ⟨R.CAR_STS, 8, 1⟩
abbrev F.CAR_STS.FAILOVER : Fld := ⟨R.CAR_STS, 9, 1⟩
abbrev F.CAR_STS.BMAP_VALID : Fld := ⟨R.CAR_STS, 10, 1⟩
abbrev F.CAR_STS.FLIST_VALID : Fld := ⟨R.CAR_STS, 11, 1⟩
abbrev F.CAR_STS.ATTACH_ERR : Fld := ⟨R.CAR_STS, 12, 4⟩
abbrev F.CAR_STS.LAST_DOWN : Fld := ⟨R.CAR_STS, 16, 4⟩
/-- CAR_CFG, R366 Table 11.9. -/
def R.CAR_CFG : Nat := 0xB108
abbrev F.CAR_CFG.EN : Fld := ⟨R.CAR_CFG, 0, 1⟩
abbrev F.CAR_CFG.TOKEN_SIDE : Fld := ⟨R.CAR_CFG, 1, 1⟩
abbrev F.CAR_CFG.AUTO_ADMIT : Fld := ⟨R.CAR_CFG, 2, 1⟩
/-- CAR_IDLE_TO, R366 Table 11.9. -/
def R.CAR_IDLE_TO : Nat := 0xB10C
/-- CAR_RSP_TO, R366 Table 11.9. -/
def R.CAR_RSP_TO : Nat := 0xB110
/-- CAR_SETTLE, R366 Table 11.9. -/
def R.CAR_SETTLE : Nat := 0xB114
/-- CAR_ATTACH_TO, R366 Table 11.9. -/
def R.CAR_ATTACH_TO : Nat := 0xB118
/-- CAR_CRD_MIR, R366 Table 11.9. -/
def R.CAR_CRD_MIR : Nat := 0xB11C
/-- CAR_RSYNC_BW, R366 Table 11.9. -/
def R.CAR_RSYNC_BW : Nat := 0xB120
/-- CAR_RG_STS, R366 Table 11.9. -/
def R.CAR_RG_STS : Nat := 0xB124
abbrev F.CAR_RG_STS.EFF_OWN : Fld := ⟨R.CAR_RG_STS, 0, 16⟩
abbrev F.CAR_RG_STS.IN_SYNC : Fld := ⟨R.CAR_RG_STS, 16, 16⟩
/-- CAR_BMAP_LO, R366 Table 11.9. -/
def R.CAR_BMAP_LO : Nat := 0xB128
/-- CAR_BMAP_HI, R366 Table 11.9. -/
def R.CAR_BMAP_HI : Nat := 0xB12C
/-- CAR_RSYNC, R366 Table 11.9. -/
def R.CAR_RSYNC : Nat := 0xB130
abbrev F.CAR_RSYNC.PCT : Fld := ⟨R.CAR_RSYNC, 0, 7⟩
abbrev F.CAR_RSYNC.FULL : Fld := ⟨R.CAR_RSYNC, 12, 1⟩
abbrev F.CAR_RSYNC.BUSY : Fld := ⟨R.CAR_RSYNC, 13, 1⟩
/-- CAR_PAIR_GEN, R366 Table 11.9. -/
def R.CAR_PAIR_GEN : Nat := 0xB134
/-- CAR_FO_CNT, R366 Table 11.9. -/
def R.CAR_FO_CNT : Nat := 0xB138
/-- CAR_FO_LAST, R366 Table 11.9. -/
def R.CAR_FO_LAST : Nat := 0xB13C
/-- CAR_FO_MAX, R366 Table 11.9. -/
def R.CAR_FO_MAX : Nat := 0xB140
/-- CAR_LINK_DOWN, R366 Table 11.9. -/
def R.CAR_LINK_DOWN : Nat := 0xB144
/-- CAR_MIR_CNT, R366 Table 11.9. -/
def R.CAR_MIR_CNT : Nat := 0xB148
/-- CAR_FWD_CNT, R366 Table 11.9. -/
def R.CAR_FWD_CNT : Nat := 0xB14C
/-- CAR_REP_OK, R366 Table 11.9. -/
def R.CAR_REP_OK : Nat := 0xB150
/-- CAR_REP_FAIL, R366 Table 11.9. -/
def R.CAR_REP_FAIL : Nat := 0xB154
/-- CAR_RSYNC_CHUNKS, R366 Table 11.9. -/
def R.CAR_RSYNC_CHUNKS : Nat := 0xB158
/-- CAR_CNT_CLR, R366 Table 11.9. -/
def R.CAR_CNT_CLR : Nat := 0xB15C
/-- CAR_LOCK, R366 Table 11.9. -/
def R.CAR_LOCK : Nat := 0xB160
abbrev F.CAR_LOCK.LOCK : Fld := ⟨R.CAR_LOCK, 0, 1⟩

/-! ### Registers of 12_host_ports.md -/

/-- HP_CFG, R395 Table 12.11. -/
def R.HP_CFG (i : Nat) : Nat := (12 + i % 8) * 0x1000 + 0x100
abbrev F.HP_CFG.BIFUR (i : Nat) : Fld := ⟨R.HP_CFG i, 0, 1⟩
abbrev F.HP_CFG.IDE_REQ (i : Nat) : Fld := ⟨R.HP_CFG i, 1, 1⟩
abbrev F.HP_CFG.LOPT_EN (i : Nat) : Fld := ⟨R.HP_CFG i, 2, 1⟩
/-- HP_CTL, R395 Table 12.11. -/
def R.HP_CTL (i : Nat) : Nat := (12 + i % 8) * 0x1000 + 0x104
abbrev F.HP_CTL.EVT_EN (i : Nat) : Fld := ⟨R.HP_CTL i, 0, 1⟩
abbrev F.HP_CTL.RETRAIN (i : Nat) : Fld := ⟨R.HP_CTL i, 1, 1⟩
/-- HP_STS, R395 Table 12.11. -/
def R.HP_STS (i : Nat) : Nat := (12 + i % 8) * 0x1000 + 0x108
abbrev F.HP_STS.PRESENT (i : Nat) : Fld := ⟨R.HP_STS i, 0, 1⟩
abbrev F.HP_STS.LINK_UP (i : Nat) : Fld := ⟨R.HP_STS i, 1, 1⟩
abbrev F.HP_STS.WIDTH (i : Nat) : Fld := ⟨R.HP_STS i, 2, 5⟩
abbrev F.HP_STS.RATE (i : Nat) : Fld := ⟨R.HP_STS i, 7, 3⟩
abbrev F.HP_STS.LOPT (i : Nat) : Fld := ⟨R.HP_STS i, 10, 1⟩
abbrev F.HP_STS.MEM_ON (i : Nat) : Fld := ⟨R.HP_STS i, 11, 1⟩
abbrev F.HP_STS.IDE_IO (i : Nat) : Fld := ⟨R.HP_STS i, 12, 1⟩
abbrev F.HP_STS.IDE_MEM (i : Nat) : Fld := ⟨R.HP_STS i, 13, 1⟩
abbrev F.HP_STS.MEM_ACTIVE (i : Nat) : Fld := ⟨R.HP_STS i, 14, 1⟩
abbrev F.HP_STS.VIRAL (i : Nat) : Fld := ⟨R.HP_STS i, 15, 1⟩
abbrev F.HP_STS.GPF_HELD (i : Nat) : Fld := ⟨R.HP_STS i, 16, 1⟩
abbrev F.HP_STS.D3HOT (i : Nat) : Fld := ⟨R.HP_STS i, 17, 1⟩
abbrev F.HP_STS.ROLE (i : Nat) : Fld := ⟨R.HP_STS i, 18, 2⟩
/-- HP_BW_WIN, R395 Table 12.11. -/
def R.HP_BW_WIN (i : Nat) : Nat := (12 + i % 8) * 0x1000 + 0x10C
/-- HP_BW_RD_LO, R395 Table 12.11. -/
def R.HP_BW_RD_LO (i : Nat) : Nat := (12 + i % 8) * 0x1000 + 0x110
/-- HP_BW_RD_HI, R395 Table 12.11. -/
def R.HP_BW_RD_HI (i : Nat) : Nat := (12 + i % 8) * 0x1000 + 0x114
/-- HP_BW_WR_LO, R395 Table 12.11. -/
def R.HP_BW_WR_LO (i : Nat) : Nat := (12 + i % 8) * 0x1000 + 0x118
/-- HP_BW_WR_HI, R395 Table 12.11. -/
def R.HP_BW_WR_HI (i : Nat) : Nat := (12 + i % 8) * 0x1000 + 0x11C
/-- HP_BW_SEQ, R395 Table 12.11. -/
def R.HP_BW_SEQ (i : Nat) : Nat := (12 + i % 8) * 0x1000 + 0x120
/-- HP_RD_CNT, R395 Table 12.11. -/
def R.HP_RD_CNT (i : Nat) : Nat := (12 + i % 8) * 0x1000 + 0x124
/-- HP_WR_CNT, R395 Table 12.11. -/
def R.HP_WR_CNT (i : Nat) : Nat := (12 + i % 8) * 0x1000 + 0x128
/-- HP_POISON_RSP, R395 Table 12.11. -/
def R.HP_POISON_RSP (i : Nat) : Nat := (12 + i % 8) * 0x1000 + 0x12C
/-- HP_IDE_ERR, R395 Table 12.11. -/
def R.HP_IDE_ERR (i : Nat) : Nat := (12 + i % 8) * 0x1000 + 0x130
/-- HP_LINK_DOWN, R395 Table 12.11. -/
def R.HP_LINK_DOWN (i : Nat) : Nat := (12 + i % 8) * 0x1000 + 0x134
/-- HP_MBOX_CNT, R395 Table 12.11. -/
def R.HP_MBOX_CNT (i : Nat) : Nat := (12 + i % 8) * 0x1000 + 0x138
/-- HP_EVT_DROP, R395 Table 12.11. -/
def R.HP_EVT_DROP (i : Nat) : Nat := (12 + i % 8) * 0x1000 + 0x13C
/-- HP_CNT_CLR, R395 Table 12.11. -/
def R.HP_CNT_CLR (i : Nat) : Nat := (12 + i % 8) * 0x1000 + 0x140
/-- HP_LOCK, R395 Table 12.11. -/
def R.HP_LOCK (i : Nat) : Nat := (12 + i % 8) * 0x1000 + 0x144
abbrev F.HP_LOCK.LOCK (i : Nat) : Fld := ⟨R.HP_LOCK i, 0, 1⟩

/-! ### Registers of 13_dram_channels.md -/

/-- DC_CTL, R412 Table 13.6. -/
def R.DC_CTL (i : Nat) : Nat := (20 + i % 6) * 0x1000 + 0x100
abbrev F.DC_CTL.EVT_EN (i : Nat) : Fld := ⟨R.DC_CTL i, 0, 1⟩
abbrev F.DC_CTL.SCRUB_EN (i : Nat) : Fld := ⟨R.DC_CTL i, 1, 1⟩
/-- DC_STS, R412 Table 13.6. -/
def R.DC_STS (i : Nat) : Nat := (20 + i % 6) * 0x1000 + 0x104
abbrev F.DC_STS.TRAINED (i : Nat) : Fld := ⟨R.DC_STS i, 0, 1⟩
abbrev F.DC_STS.TRAIN_BUSY (i : Nat) : Fld := ⟨R.DC_STS i, 1, 1⟩
abbrev F.DC_STS.FAILED (i : Nat) : Fld := ⟨R.DC_STS i, 2, 1⟩
abbrev F.DC_STS.HOT (i : Nat) : Fld := ⟨R.DC_STS i, 3, 1⟩
abbrev F.DC_STS.KEPT (i : Nat) : Fld := ⟨R.DC_STS i, 4, 1⟩
abbrev F.DC_STS.SELF_REF (i : Nat) : Fld := ⟨R.DC_STS i, 5, 1⟩
/-- DC_CFG, R412 Table 13.6. -/
def R.DC_CFG (i : Nat) : Nat := (20 + i % 6) * 0x1000 + 0x108
abbrev F.DC_CFG.SPEED (i : Nat) : Fld := ⟨R.DC_CFG i, 0, 1⟩
abbrev F.DC_CFG.WIDTH (i : Nat) : Fld := ⟨R.DC_CFG i, 1, 1⟩
abbrev F.DC_CFG.RANKS (i : Nat) : Fld := ⟨R.DC_CFG i, 2, 1⟩
/-- DC_SCRUB_PERIOD, R412 Table 13.6. -/
def R.DC_SCRUB_PERIOD (i : Nat) : Nat := (20 + i % 6) * 0x1000 + 0x10C
/-- DC_SCRUB_LAG, R412 Table 13.6. -/
def R.DC_SCRUB_LAG (i : Nat) : Nat := (20 + i % 6) * 0x1000 + 0x110
/-- DC_MR4, R412 Table 13.6. -/
def R.DC_MR4 (i : Nat) : Nat := (20 + i % 6) * 0x1000 + 0x114
/-- DC_CE_CNT, R412 Table 13.6. -/
def R.DC_CE_CNT (i : Nat) : Nat := (20 + i % 6) * 0x1000 + 0x118
/-- DC_UE_CNT, R412 Table 13.6. -/
def R.DC_UE_CNT (i : Nat) : Nat := (20 + i % 6) * 0x1000 + 0x11C
/-- DC_RECON_RD, R412 Table 13.6. -/
def R.DC_RECON_RD (i : Nat) : Nat := (20 + i % 6) * 0x1000 + 0x120
/-- DC_REBUILD, R412 Table 13.6. -/
def R.DC_REBUILD (i : Nat) : Nat := (20 + i % 6) * 0x1000 + 0x124
/-- DC_CRC_RETRY, R412 Table 13.6. -/
def R.DC_CRC_RETRY (i : Nat) : Nat := (20 + i % 6) * 0x1000 + 0x128
/-- DC_SCRUB_PASS, R412 Table 13.6. -/
def R.DC_SCRUB_PASS (i : Nat) : Nat := (20 + i % 6) * 0x1000 + 0x12C
/-- DC_CNT_CLR, R412 Table 13.6. -/
def R.DC_CNT_CLR (i : Nat) : Nat := (20 + i % 6) * 0x1000 + 0x130
/-- DC_LOCK, R412 Table 13.6. -/
def R.DC_LOCK (i : Nat) : Nat := (20 + i % 6) * 0x1000 + 0x134
abbrev F.DC_LOCK.LOCK (i : Nat) : Fld := ⟨R.DC_LOCK i, 0, 1⟩

/-! ### Registers of 14_power_and_cistern.md -/

/-- PSQ_CTL, R444 Table 14.11. -/
def R.PSQ_CTL : Nat := 0x2100
abbrev F.PSQ_CTL.ON : Fld := ⟨R.PSQ_CTL, 0, 1⟩
abbrev F.PSQ_CTL.OFF : Fld := ⟨R.PSQ_CTL, 1, 1⟩
abbrev F.PSQ_CTL.CLR_LOCK : Fld := ⟨R.PSQ_CTL, 2, 1⟩
abbrev F.PSQ_CTL.EVT_EN : Fld := ⟨R.PSQ_CTL, 3, 1⟩
/-- PSQ_STS, R444 Table 14.11. -/
def R.PSQ_STS : Nat := 0x2104
abbrev F.PSQ_STS.PHASE : Fld := ⟨R.PSQ_STS, 0, 4⟩
abbrev F.PSQ_STS.IN_GOOD : Fld := ⟨R.PSQ_STS, 4, 1⟩
abbrev F.PSQ_STS.MOD_EN : Fld := ⟨R.PSQ_STS, 5, 1⟩
abbrev F.PSQ_STS.RAILS_UP : Fld := ⟨R.PSQ_STS, 6, 1⟩
abbrev F.PSQ_STS.MARGIN : Fld := ⟨R.PSQ_STS, 7, 1⟩
abbrev F.PSQ_STS.TBL_BAD : Fld := ⟨R.PSQ_STS, 8, 1⟩
abbrev F.PSQ_STS.LOCK_CAUSE : Fld := ⟨R.PSQ_STS, 9, 3⟩
abbrev F.PSQ_STS.STEP : Fld := ⟨R.PSQ_STS, 12, 4⟩
abbrev F.PSQ_STS.PD_LAST : Fld := ⟨R.PSQ_STS, 16, 3⟩
abbrev F.PSQ_STS.ON_KEPT : Fld := ⟨R.PSQ_STS, 19, 1⟩
/-- PSQ_RAIL, R444 Table 14.11. -/
def R.PSQ_RAIL : Nat := 0x2108
abbrev F.PSQ_RAIL.RAIL_EN : Fld := ⟨R.PSQ_RAIL, 0, 16⟩
abbrev F.PSQ_RAIL.RAIL_PG : Fld := ⟨R.PSQ_RAIL, 16, 16⟩
/-- PSQ_RAIL_FLT, R444 Table 14.11. -/
def R.PSQ_RAIL_FLT : Nat := 0x210C
/-- PSQ_IN_CFG, R444 Table 14.11. -/
def R.PSQ_IN_CFG : Nat := 0x2110
abbrev F.PSQ_IN_CFG.FAIL : Fld := ⟨R.PSQ_IN_CFG, 0, 6⟩
abbrev F.PSQ_IN_CFG.OK : Fld := ⟨R.PSQ_IN_CFG, 8, 6⟩
/-- PSQ_RETRY, R444 Table 14.11. -/
def R.PSQ_RETRY : Nat := 0x2114
/-- PSQ_MARG_CTL, R444 Table 14.11. -/
def R.PSQ_MARG_CTL : Nat := 0x2118
abbrev F.PSQ_MARG_CTL.ENTRY : Fld := ⟨R.PSQ_MARG_CTL, 0, 4⟩
abbrev F.PSQ_MARG_CTL.OFFSET : Fld := ⟨R.PSQ_MARG_CTL, 4, 8⟩
abbrev F.PSQ_MARG_CTL.APPLY : Fld := ⟨R.PSQ_MARG_CTL, 12, 1⟩
abbrev F.PSQ_MARG_CTL.STOP : Fld := ⟨R.PSQ_MARG_CTL, 13, 1⟩
abbrev F.PSQ_MARG_CTL.LVL : Fld := ⟨R.PSQ_MARG_CTL, 16, 2⟩
/-- PSQ_MARG_STS, R444 Table 14.11. -/
def R.PSQ_MARG_STS : Nat := 0x211C
abbrev F.PSQ_MARG_STS.ACTIVE : Fld := ⟨R.PSQ_MARG_STS, 0, 16⟩
abbrev F.PSQ_MARG_STS.BUSY : Fld := ⟨R.PSQ_MARG_STS, 16, 1⟩
abbrev F.PSQ_MARG_STS.ERR : Fld := ⟨R.PSQ_MARG_STS, 17, 3⟩
/-- PSQ_MARG_TO, R444 Table 14.11. -/
def R.PSQ_MARG_TO : Nat := 0x2120
/-- PSQ_VCORE, R444 Table 14.11. -/
def R.PSQ_VCORE : Nat := 0x2124
abbrev F.PSQ_VCORE.VCORE : Fld := ⟨R.PSQ_VCORE, 0, 10⟩
/-- PSQ_UP_US, R444 Table 14.11. -/
def R.PSQ_UP_US : Nat := 0x2128
/-- PSQ_DRAIN_US, R444 Table 14.11. -/
def R.PSQ_DRAIN_US : Nat := 0x212C
/-- PSQ_DRAIN_LINES_LO, R444 Table 14.11. -/
def R.PSQ_DRAIN_LINES_LO : Nat := 0x2130
/-- PSQ_DRAIN_LINES_HI, R444 Table 14.11. -/
def R.PSQ_DRAIN_LINES_HI : Nat := 0x2134
/-- PSQ_PUP_FAIL_CNT, R444 Table 14.11. -/
def R.PSQ_PUP_FAIL_CNT : Nat := 0x2138
/-- PSQ_RAIL_FLT_CNT, R444 Table 14.11. -/
def R.PSQ_RAIL_FLT_CNT : Nat := 0x213C
/-- PSQ_DRAIN_CNT, R444 Table 14.11. -/
def R.PSQ_DRAIN_CNT : Nat := 0x2140
/-- PSQ_PMB_ERR, R444 Table 14.11. -/
def R.PSQ_PMB_ERR : Nat := 0x2144
/-- PSQ_CNT_CLR, R444 Table 14.11. -/
def R.PSQ_CNT_CLR : Nat := 0x2148
/-- PSQ_LOCK, R444 Table 14.11. -/
def R.PSQ_LOCK : Nat := 0x214C
abbrev F.PSQ_LOCK.LOCK : Fld := ⟨R.PSQ_LOCK, 0, 1⟩
/-- CIS_CTL, R444 Table 14.11. -/
def R.CIS_CTL : Nat := 0x2200
abbrev F.CIS_CTL.TEST : Fld := ⟨R.CIS_CTL, 0, 1⟩
abbrev F.CIS_CTL.EVT_EN : Fld := ⟨R.CIS_CTL, 1, 1⟩
/-- CIS_STS, R444 Table 14.11. -/
def R.CIS_STS : Nat := 0x2204
abbrev F.CIS_STS.TEST_BUSY : Fld := ⟨R.CIS_STS, 0, 1⟩
abbrev F.CIS_STS.TEST_BAD : Fld := ⟨R.CIS_STS, 1, 1⟩
abbrev F.CIS_STS.C_VALID : Fld := ⟨R.CIS_STS, 2, 1⟩
abbrev F.CIS_STS.C_STORED : Fld := ⟨R.CIS_STS, 3, 1⟩
abbrev F.CIS_STS.C_LOW : Fld := ⟨R.CIS_STS, 4, 1⟩
abbrev F.CIS_STS.ESR_HIGH : Fld := ⟨R.CIS_STS, 5, 1⟩
abbrev F.CIS_STS.DEFER : Fld := ⟨R.CIS_STS, 6, 1⟩
abbrev F.CIS_STS.CHG_TO : Fld := ⟨R.CIS_STS, 7, 1⟩
/-- CIS_V, R444 Table 14.11. -/
def R.CIS_V : Nat := 0x2208
/-- CIS_C, R444 Table 14.11. -/
def R.CIS_C : Nat := 0x220C
/-- CIS_ESR, R444 Table 14.11. -/
def R.CIS_ESR : Nat := 0x2210
abbrev F.CIS_ESR.ESR : Fld := ⟨R.CIS_ESR, 0, 16⟩
/-- CIS_E, R444 Table 14.11. -/
def R.CIS_E : Nat := 0x2214
/-- CIS_BUDGET_LO, R444 Table 14.11. -/
def R.CIS_BUDGET_LO : Nat := 0x2218
/-- CIS_BUDGET_HI, R444 Table 14.11. -/
def R.CIS_BUDGET_HI : Nat := 0x221C
/-- CIS_DIV, R444 Table 14.11. -/
def R.CIS_DIV : Nat := 0x2220
/-- CIS_VMIN, R444 Table 14.11. -/
def R.CIS_VMIN : Nat := 0x2224
/-- CIS_VFULL, R444 Table 14.11. -/
def R.CIS_VFULL : Nat := 0x2228
/-- CIS_ETA, R444 Table 14.11. -/
def R.CIS_ETA : Nat := 0x222C
/-- CIS_EFIX, R444 Table 14.11. -/
def R.CIS_EFIX : Nat := 0x2230
/-- CIS_PDRAIN, R444 Table 14.11. -/
def R.CIS_PDRAIN : Nat := 0x2234
/-- CIS_TEST_I, R444 Table 14.11. -/
def R.CIS_TEST_I : Nat := 0x2238
/-- CIS_TEST_T, R444 Table 14.11. -/
def R.CIS_TEST_T : Nat := 0x223C
/-- CIS_TEST_INT, R444 Table 14.11. -/
def R.CIS_TEST_INT : Nat := 0x2240
/-- CIS_C_MIN, R444 Table 14.11. -/
def R.CIS_C_MIN : Nat := 0x2244
/-- CIS_ESR_MAX, R444 Table 14.11. -/
def R.CIS_ESR_MAX : Nat := 0x2248
/-- CIS_CHG_TO, R444 Table 14.11. -/
def R.CIS_CHG_TO : Nat := 0x224C
/-- CIS_TEST_CNT, R444 Table 14.11. -/
def R.CIS_TEST_CNT : Nat := 0x2250
/-- CIS_TEST_BAD_CNT, R444 Table 14.11. -/
def R.CIS_TEST_BAD_CNT : Nat := 0x2254
/-- CIS_DEFER_CNT, R444 Table 14.11. -/
def R.CIS_DEFER_CNT : Nat := 0x2258
/-- CIS_CNT_CLR, R444 Table 14.11. -/
def R.CIS_CNT_CLR : Nat := 0x225C

/-! ### Registers of 15_thermal_and_monitors.md -/

/-- HK_CTL, R465 Table 15.8. -/
def R.HK_CTL : Nat := 0x3100
abbrev F.HK_CTL.EVT_EN : Fld := ⟨R.HK_CTL, 0, 1⟩
/-- HK_STS, R465 Table 15.8. -/
def R.HK_STS : Nat := 0x3104
abbrev F.HK_STS.TRIP : Fld := ⟨R.HK_STS, 0, 1⟩
abbrev F.HK_STS.HOT_OFF : Fld := ⟨R.HK_STS, 1, 1⟩
abbrev F.HK_STS.THERM_LVL : Fld := ⟨R.HK_STS, 2, 2⟩
abbrev F.HK_STS.ROR : Fld := ⟨R.HK_STS, 4, 1⟩
abbrev F.HK_STS.ARMED : Fld := ⟨R.HK_STS, 5, 1⟩
abbrev F.HK_STS.MZ_HOT : Fld := ⟨R.HK_STS, 6, 1⟩
abbrev F.HK_STS.FEW_SENS : Fld := ⟨R.HK_STS, 7, 1⟩
abbrev F.HK_STS.RST_WAIT : Fld := ⟨R.HK_STS, 8, 1⟩
abbrev F.HK_STS.RST_24H : Fld := ⟨R.HK_STS, 9, 2⟩
abbrev F.HK_STS.SPD_ODD : Fld := ⟨R.HK_STS, 16, 8⟩
/-- HK_TRIP, R465 Table 15.8. -/
def R.HK_TRIP : Nat := 0x3108
/-- HK_THR, R465 Table 15.8. -/
def R.HK_THR : Nat := 0x310C
abbrev F.HK_THR.L1 : Fld := ⟨R.HK_THR, 0, 8⟩
abbrev F.HK_THR.L2 : Fld := ⟨R.HK_THR, 8, 8⟩
abbrev F.HK_THR.L3 : Fld := ⟨R.HK_THR, 16, 8⟩
/-- HK_ROR_LIM, R465 Table 15.8. -/
def R.HK_ROR_LIM : Nat := 0x3110
/-- HK_MZ_THR, R465 Table 15.8. -/
def R.HK_MZ_THR : Nat := 0x3114
/-- HK_TH_B, R465 Table 15.8. -/
def R.HK_TH_B : Nat := 0x3118
/-- HK_TH_NOM, R465 Table 15.8. -/
def R.HK_TH_NOM : Nat := 0x311C
/-- HK_EXCL, R465 Table 15.8. -/
def R.HK_EXCL : Nat := 0x3120
/-- HK_READMIT, R465 Table 15.8. -/
def R.HK_READMIT : Nat := 0x3124
/-- HK_HOT, R465 Table 15.8. -/
def R.HK_HOT : Nat := 0x3128
/-- HK_ROR, R465 Table 15.8. -/
def R.HK_ROR : Nat := 0x312C
/-- HK_ROUND_CNT, R465 Table 15.8. -/
def R.HK_ROUND_CNT : Nat := 0x3130
/-- HK_THROT_CNT, R465 Table 15.8. -/
def R.HK_THROT_CNT : Nat := 0x3134
/-- HK_EXCL_CNT, R465 Table 15.8. -/
def R.HK_EXCL_CNT : Nat := 0x3138
/-- HK_TRIP_CNT, R465 Table 15.8. -/
def R.HK_TRIP_CNT : Nat := 0x313C
/-- HK_CNT_CLR, R465 Table 15.8. -/
def R.HK_CNT_CLR : Nat := 0x3140
/-- HK_LOCK, R465 Table 15.8. -/
def R.HK_LOCK : Nat := 0x3144
abbrev F.HK_LOCK.LOCK : Fld := ⟨R.HK_LOCK, 0, 1⟩
/-- HK_CH, R465 Table 15.8. -/
def R.HK_CH (k : Nat) : Nat := 0x3200 + k % 64 * 0x4
abbrev F.HK_CH.CODE (k : Nat) : Fld := ⟨R.HK_CH k, 0, 12⟩
abbrev F.HK_CH.VALID (k : Nat) : Fld := ⟨R.HK_CH k, 12, 1⟩
abbrev F.HK_CH.EXCL (k : Nat) : Fld := ⟨R.HK_CH k, 13, 1⟩
abbrev F.HK_CH.FAULT (k : Nat) : Fld := ⟨R.HK_CH k, 14, 1⟩
abbrev F.HK_CH.ROUND (k : Nat) : Fld := ⟨R.HK_CH k, 16, 16⟩
/-- HK_RS_DIV, R465 Table 15.8. -/
def R.HK_RS_DIV (k : Nat) : Nat := 0x3300 + k % 32 * 0x4

/-! ### Registers of 16_parameter_store_and_roll_book.md -/

/-- PST_CTL, R493 Table 16.7. -/
def R.PST_CTL : Nat := 0x4100
abbrev F.PST_CTL.PATROL_EN : Fld := ⟨R.PST_CTL, 0, 1⟩
/-- PST_STS, R493 Table 16.7. -/
def R.PST_STS : Nat := 0x4104
abbrev F.PST_STS.BUSY : Fld := ⟨R.PST_STS, 0, 1⟩
abbrev F.PST_STS.SUPPLY_LOW : Fld := ⟨R.PST_STS, 1, 1⟩
abbrev F.PST_STS.COMMIT_BUSY : Fld := ⟨R.PST_STS, 2, 1⟩
abbrev F.PST_STS.ERASE_BUSY : Fld := ⟨R.PST_STS, 3, 1⟩
abbrev F.PST_STS.WIN_REFUSED : Fld := ⟨R.PST_STS, 4, 1⟩
abbrev F.PST_STS.USER_WEAK : Fld := ⟨R.PST_STS, 5, 1⟩
abbrev F.PST_STS.RESCUE : Fld := ⟨R.PST_STS, 6, 1⟩
/-- PST_CMD, R493 Table 16.7. -/
def R.PST_CMD : Nat := 0x4108
abbrev F.PST_CMD.OP : Fld := ⟨R.PST_CMD, 0, 2⟩
abbrev F.PST_CMD.REC : Fld := ⟨R.PST_CMD, 4, 3⟩
/-- PST_ROW, R493 Table 16.7. -/
def R.PST_ROW : Nat := 0x410C
/-- PST_AUX_MIN, R493 Table 16.7. -/
def R.PST_AUX_MIN : Nat := 0x4110
/-- PST_SUPPLY, R493 Table 16.7. -/
def R.PST_SUPPLY : Nat := 0x4114
abbrev F.PST_SUPPLY.STORE_CAP : Fld := ⟨R.PST_SUPPLY, 0, 12⟩
abbrev F.PST_SUPPLY.AUX_3V3 : Fld := ⟨R.PST_SUPPLY, 16, 12⟩
/-- PST_CNT_SEL, R493 Table 16.7. -/
def R.PST_CNT_SEL : Nat := 0x4118
/-- PST_CNT_VAL, R493 Table 16.7. -/
def R.PST_CNT_VAL : Nat := 0x411C
/-- PST_PATROL_ROW, R493 Table 16.7. -/
def R.PST_PATROL_ROW : Nat := 0x4120
/-- PST_WEAK_CNT, R493 Table 16.7. -/
def R.PST_WEAK_CNT : Nat := 0x4124
/-- PST_WR_FAIL, R493 Table 16.7. -/
def R.PST_WR_FAIL : Nat := 0x4128
/-- PST_SUPPLY_FAIL, R493 Table 16.7. -/
def R.PST_SUPPLY_FAIL : Nat := 0x412C
/-- PST_CNT_CLR, R493 Table 16.7. -/
def R.PST_CNT_CLR : Nat := 0x4130
/-- PST_LOCK, R493 Table 16.7. -/
def R.PST_LOCK : Nat := 0x4134
abbrev F.PST_LOCK.LOCK : Fld := ⟨R.PST_LOCK, 0, 1⟩
/-- PST_WIN, R493 Table 16.7. -/
def R.PST_WIN (k : Nat) : Nat := 0x4400 + k % 64 * 0x4
/-- PST_STG, R493 Table 16.7. -/
def R.PST_STG (k : Nat) : Nat := 0x4600 + k % 62 * 0x4
/-- RB_STS, R493 Table 16.9. -/
def R.RB_STS : Nat := 0x5100
abbrev F.RB_STS.READY : Fld := ⟨R.RB_STS, 0, 1⟩
abbrev F.RB_STS.FULL : Fld := ⟨R.RB_STS, 1, 1⟩
abbrev F.RB_STS.CLEARING : Fld := ⟨R.RB_STS, 2, 1⟩
abbrev F.RB_STS.OPEN : Fld := ⟨R.RB_STS, 3, 1⟩
abbrev F.RB_STS.QUEUE : Fld := ⟨R.RB_STS, 4, 7⟩
/-- RB_HEAD, R493 Table 16.9. -/
def R.RB_HEAD : Nat := 0x5104
/-- RB_TAIL, R493 Table 16.9. -/
def R.RB_TAIL : Nat := 0x5108
/-- RB_COUNT, R493 Table 16.9. -/
def R.RB_COUNT : Nat := 0x510C
/-- RB_OPEN_REPEAT, R493 Table 16.9. -/
def R.RB_OPEN_REPEAT : Nat := 0x5110
/-- RB_DROPPED, R493 Table 16.9. -/
def R.RB_DROPPED : Nat := 0x5114
/-- RB_SEL, R493 Table 16.9. -/
def R.RB_SEL : Nat := 0x5118
/-- RB_CNT_CLR, R493 Table 16.9. -/
def R.RB_CNT_CLR : Nat := 0x511C
/-- RB_REC, R493 Table 16.9. -/
def R.RB_REC (k : Nat) : Nat := 0x5200 + k % 8 * 0x4

/-! ### Registers of 17_fault_collection.md -/

/-- FLT_STS, R499 Table 17.3. -/
def R.FLT_STS (page : Nat) : Nat := page * 0x1000 + 0x20
/-- FLT_MASK, R499 Table 17.3. -/
def R.FLT_MASK (page : Nat) : Nat := page * 0x1000 + 0x24
/-- FLT_FORCE, R499 Table 17.3. -/
def R.FLT_FORCE (page : Nat) : Nat := page * 0x1000 + 0x28
abbrev F.FLT_FORCE.SEV (page : Nat) : Fld := ⟨R.FLT_FORCE page, 0, 2⟩
abbrev F.FLT_FORCE.SUB (page : Nat) : Fld := ⟨R.FLT_FORCE page, 8, 2⟩
abbrev F.FLT_FORCE.GO (page : Nat) : Fld := ⟨R.FLT_FORCE page, 16, 1⟩
abbrev F.FLT_FORCE.WIRE (page : Nat) : Fld := ⟨R.FLT_FORCE page, 17, 1⟩
/-- FLT_SEV, R499 Table 17.3. -/
def R.FLT_SEV (page : Nat) : Nat := page * 0x1000 + 0x2C
abbrev F.FLT_SEV.ACTIVE (page : Nat) : Fld := ⟨R.FLT_SEV page, 2, 1⟩
abbrev F.FLT_SEV.FENCED (page : Nat) : Fld := ⟨R.FLT_SEV page, 3, 1⟩
abbrev F.FLT_SEV.WIRE (page : Nat) : Fld := ⟨R.FLT_SEV page, 4, 1⟩
/-- FLT_TIMER, R499 Table 17.3. -/
def R.FLT_TIMER (page : Nat) : Nat := page * 0x1000 + 0x30
/-- FLT_DETAIL, R499 Table 17.3. -/
def R.FLT_DETAIL (page : Nat) : Nat := page * 0x1000 + 0x34
/-- FC_CTL, R516 Table 17.10. -/
def R.FC_CTL : Nat := 0x1100
abbrev F.FC_CTL.RB_MIN : Fld := ⟨R.FC_CTL, 0, 2⟩
abbrev F.FC_CTL.INJ_NOACT : Fld := ⟨R.FC_CTL, 2, 1⟩
abbrev F.FC_CTL.FIRST_CLR : Fld := ⟨R.FC_CTL, 3, 1⟩
abbrev F.FC_CTL.CONTAIN_NOW : Fld := ⟨R.FC_CTL, 4, 1⟩
/-- FC_STS, R516 Table 17.10. -/
def R.FC_STS : Nat := 0x1104
abbrev F.FC_STS.HEALTHY : Fld := ⟨R.FC_STS, 0, 4⟩
abbrev F.FC_STS.LEAD : Fld := ⟨R.FC_STS, 4, 2⟩
abbrev F.FC_STS.NO_PROCTOR : Fld := ⟨R.FC_STS, 6, 1⟩
abbrev F.FC_STS.CONTAINING : Fld := ⟨R.FC_STS, 7, 1⟩
abbrev F.FC_STS.HELD : Fld := ⟨R.FC_STS, 8, 1⟩
abbrev F.FC_STS.DEGRADED : Fld := ⟨R.FC_STS, 9, 1⟩
/-- FC_FIRST, R516 Table 17.10. -/
def R.FC_FIRST : Nat := 0x1108
abbrev F.FC_FIRST.SRC : Fld := ⟨R.FC_FIRST, 0, 8⟩
abbrev F.FC_FIRST.SEV : Fld := ⟨R.FC_FIRST, 8, 2⟩
abbrev F.FC_FIRST.SIMULT : Fld := ⟨R.FC_FIRST, 10, 1⟩
abbrev F.FC_FIRST.VALID : Fld := ⟨R.FC_FIRST, 11, 1⟩
abbrev F.FC_FIRST.KIND : Fld := ⟨R.FC_FIRST, 12, 4⟩
abbrev F.FC_FIRST.SRC2 : Fld := ⟨R.FC_FIRST, 16, 8⟩
/-- FC_FIRST_TICK_LO, R516 Table 17.10. -/
def R.FC_FIRST_TICK_LO : Nat := 0x110C
/-- FC_FIRST_TICK_HI, R516 Table 17.10. -/
def R.FC_FIRST_TICK_HI : Nat := 0x1110
/-- FC_ESC_T2, R516 Table 17.10. -/
def R.FC_ESC_T2 : Nat := 0x1114
/-- FC_ESC_T3, R516 Table 17.10. -/
def R.FC_ESC_T3 : Nat := 0x1118
/-- FC_DRAIN_LIM, R516 Table 17.10. -/
def R.FC_DRAIN_LIM : Nat := 0x111C
/-- FC_SRC_SEL, R516 Table 17.10. -/
def R.FC_SRC_SEL : Nat := 0x1120
/-- FC_SRC_INFO, R516 Table 17.10. -/
def R.FC_SRC_INFO : Nat := 0x1124
abbrev F.FC_SRC_INFO.SEV : Fld := ⟨R.FC_SRC_INFO, 0, 2⟩
abbrev F.FC_SRC_INFO.ACTIVE : Fld := ⟨R.FC_SRC_INFO, 2, 1⟩
abbrev F.FC_SRC_INFO.ACKED : Fld := ⟨R.FC_SRC_INFO, 3, 1⟩
abbrev F.FC_SRC_INFO.FENCED : Fld := ⟨R.FC_SRC_INFO, 4, 1⟩
abbrev F.FC_SRC_INFO.WIRE : Fld := ⟨R.FC_SRC_INFO, 5, 1⟩
abbrev F.FC_SRC_INFO.CLASS : Fld := ⟨R.FC_SRC_INFO, 6, 2⟩
abbrev F.FC_SRC_INFO.FENCE_1H : Fld := ⟨R.FC_SRC_INFO, 8, 4⟩
abbrev F.FC_SRC_INFO.TIMER : Fld := ⟨R.FC_SRC_INFO, 12, 20⟩
/-- FC_ACK, R516 Table 17.10. -/
def R.FC_ACK : Nat := 0x1128
/-- FC_RESOLVE, R516 Table 17.10. -/
def R.FC_RESOLVE : Nat := 0x112C
/-- FC_ESC, R516 Table 17.10. -/
def R.FC_ESC : Nat := 0x1130
/-- FC_REVOKE, R516 Table 17.10. -/
def R.FC_REVOKE : Nat := 0x1134
/-- FC_REV_STS, R516 Table 17.10. -/
def R.FC_REV_STS : Nat := 0x1138
abbrev F.FC_REV_STS.BUSY : Fld := ⟨R.FC_REV_STS, 8, 1⟩
abbrev F.FC_REV_STS.DONE : Fld := ⟨R.FC_REV_STS, 9, 1⟩
abbrev F.FC_REV_STS.CHK_FAIL : Fld := ⟨R.FC_REV_STS, 10, 1⟩
abbrev F.FC_REV_STS.REFUSED : Fld := ⟨R.FC_REV_STS, 11, 1⟩
/-- FC_UNFENCE, R516 Table 17.10. -/
def R.FC_UNFENCE : Nat := 0x113C
/-- FC_PROC_BEAT, R516 Table 17.10. -/
def R.FC_PROC_BEAT : Nat := 0x1140
/-- FC_SEEN, R516 Table 17.10. -/
def R.FC_SEEN (k : Nat) : Nat := 0x1160 + k % 8 * 0x4
/-- FC_ACTIVE, R516 Table 17.10. -/
def R.FC_ACTIVE (k : Nat) : Nat := 0x1180 + k % 8 * 0x4
/-- FC_CNT_SEV, R516 Table 17.10. -/
def R.FC_CNT_SEV (k : Nat) : Nat := 0x11A0 + k % 4 * 0x4
/-- FC_ESC_CNT, R516 Table 17.10. -/
def R.FC_ESC_CNT : Nat := 0x11B0
/-- FC_REVOKE_CNT, R516 Table 17.10. -/
def R.FC_REVOKE_CNT : Nat := 0x11B4
/-- FC_WIRE_CNT, R516 Table 17.10. -/
def R.FC_WIRE_CNT : Nat := 0x11B8
/-- FC_CONTAIN_CNT, R516 Table 17.10. -/
def R.FC_CONTAIN_CNT : Nat := 0x11BC
/-- FC_CNT_CLR, R516 Table 17.10. -/
def R.FC_CNT_CLR : Nat := 0x11C0
/-- FC_LOCK, R516 Table 17.10. -/
def R.FC_LOCK : Nat := 0x11C4
abbrev F.FC_LOCK.LOCK : Fld := ⟨R.FC_LOCK, 0, 1⟩

/-! ### Registers of 18_queues_counters_test.md -/

/-- MQ_CFG, R531 Table 18.2. -/
def R.MQ_CFG (i : Nat) : Nat := (100 + i % 8) * 0x1000 + 0x100
abbrev F.MQ_CFG.PATH (i : Nat) : Fld := ⟨R.MQ_CFG i, 0, 2⟩
abbrev F.MQ_CFG.VEC (i : Nat) : Fld := ⟨R.MQ_CFG i, 4, 4⟩
/-- MQ_CTL, R531 Table 18.2. -/
def R.MQ_CTL (i : Nat) : Nat := (100 + i % 8) * 0x1000 + 0x104
abbrev F.MQ_CTL.IRQ_EN (i : Nat) : Fld := ⟨R.MQ_CTL i, 0, 1⟩
abbrev F.MQ_CTL.FLUSH_DN (i : Nat) : Fld := ⟨R.MQ_CTL i, 1, 1⟩
abbrev F.MQ_CTL.FLUSH_UP (i : Nat) : Fld := ⟨R.MQ_CTL i, 2, 1⟩
abbrev F.MQ_CTL.RESET (i : Nat) : Fld := ⟨R.MQ_CTL i, 3, 1⟩
/-- MQ_STS, R531 Table 18.2. -/
def R.MQ_STS (i : Nat) : Nat := (100 + i % 8) * 0x1000 + 0x108
abbrev F.MQ_STS.UNDERRUN (i : Nat) : Fld := ⟨R.MQ_STS i, 0, 1⟩
abbrev F.MQ_STS.OVERRUN (i : Nat) : Fld := ⟨R.MQ_STS i, 1, 1⟩
abbrev F.MQ_STS.PTR_FAULT (i : Nat) : Fld := ⟨R.MQ_STS i, 2, 1⟩
abbrev F.MQ_STS.FLUSH_PEND_DN (i : Nat) : Fld := ⟨R.MQ_STS i, 3, 1⟩
abbrev F.MQ_STS.FLUSH_PEND_UP (i : Nat) : Fld := ⟨R.MQ_STS i, 4, 1⟩
abbrev F.MQ_STS.DN_OPEN (i : Nat) : Fld := ⟨R.MQ_STS i, 5, 1⟩
abbrev F.MQ_STS.UP_OPEN (i : Nat) : Fld := ⟨R.MQ_STS i, 6, 1⟩
abbrev F.MQ_STS.EPOCH (i : Nat) : Fld := ⟨R.MQ_STS i, 8, 8⟩
/-- MQ_PKTS, R531 Table 18.2. -/
def R.MQ_PKTS (i : Nat) : Nat := (100 + i % 8) * 0x1000 + 0x10C
abbrev F.MQ_PKTS.DN (i : Nat) : Fld := ⟨R.MQ_PKTS i, 0, 12⟩
abbrev F.MQ_PKTS.UP (i : Nat) : Fld := ⟨R.MQ_PKTS i, 16, 12⟩
/-- MQ_SPACE, R531 Table 18.2. -/
def R.MQ_SPACE (i : Nat) : Nat := (100 + i % 8) * 0x1000 + 0x110
abbrev F.MQ_SPACE.DN_FREE (i : Nat) : Fld := ⟨R.MQ_SPACE i, 0, 12⟩
abbrev F.MQ_SPACE.UP_WORDS (i : Nat) : Fld := ⟨R.MQ_SPACE i, 16, 12⟩
/-- MQ_PUSH_LO, R531 Table 18.2. -/
def R.MQ_PUSH_LO (i : Nat) : Nat := (100 + i % 8) * 0x1000 + 0x120
/-- MQ_PUSH_HI, R531 Table 18.2. -/
def R.MQ_PUSH_HI (i : Nat) : Nat := (100 + i % 8) * 0x1000 + 0x124
/-- MQ_PUSH_HI_END, R531 Table 18.2. -/
def R.MQ_PUSH_HI_END (i : Nat) : Nat := (100 + i % 8) * 0x1000 + 0x128
/-- MQ_POP_LO, R531 Table 18.2. -/
def R.MQ_POP_LO (i : Nat) : Nat := (100 + i % 8) * 0x1000 + 0x130
/-- MQ_POP_HI, R531 Table 18.2. -/
def R.MQ_POP_HI (i : Nat) : Nat := (100 + i % 8) * 0x1000 + 0x134
/-- MQ_POP_FLG, R531 Table 18.2. -/
def R.MQ_POP_FLG (i : Nat) : Nat := (100 + i % 8) * 0x1000 + 0x138
abbrev F.MQ_POP_FLG.END (i : Nat) : Fld := ⟨R.MQ_POP_FLG i, 0, 1⟩
abbrev F.MQ_POP_FLG.VALID (i : Nat) : Fld := ⟨R.MQ_POP_FLG i, 1, 1⟩
/-- MQ_DROP_PKT, R531 Table 18.2. -/
def R.MQ_DROP_PKT (i : Nat) : Nat := (100 + i % 8) * 0x1000 + 0x140
/-- MQ_PTR_CNT, R531 Table 18.2. -/
def R.MQ_PTR_CNT (i : Nat) : Nat := (100 + i % 8) * 0x1000 + 0x144
/-- MQ_CNT_CLR, R531 Table 18.2. -/
def R.MQ_CNT_CLR (i : Nat) : Nat := (100 + i % 8) * 0x1000 + 0x148
/-- MQ_LOCK, R531 Table 18.2. -/
def R.MQ_LOCK (i : Nat) : Nat := (100 + i % 8) * 0x1000 + 0x14C
abbrev F.MQ_LOCK.LOCK (i : Nat) : Fld := ⟨R.MQ_LOCK i, 0, 1⟩
/-- TST_PC_CTL, R542 Table 18.12. -/
def R.TST_PC_CTL : Nat := 0x6C100
abbrev F.TST_PC_CTL.START : Fld := ⟨R.TST_PC_CTL, 0, 1⟩
abbrev F.TST_PC_CTL.STOP : Fld := ⟨R.TST_PC_CTL, 1, 1⟩
/-- TST_PHY_CTL, R542 Table 18.12. -/
def R.TST_PHY_CTL : Nat := 0x6C104
abbrev F.TST_PHY_CTL.HOLD : Fld := ⟨R.TST_PHY_CTL, 0, 4⟩
abbrev F.TST_PHY_CTL.HOLD_CAR : Fld := ⟨R.TST_PHY_CTL, 4, 1⟩
/-- TST_LANE_SEL, R542 Table 18.12. -/
def R.TST_LANE_SEL : Nat := 0x6C108
/-- TST_PAT_CTL, R542 Table 18.12. -/
def R.TST_PAT_CTL : Nat := 0x6C10C
abbrev F.TST_PAT_CTL.PAT : Fld := ⟨R.TST_PAT_CTL, 0, 3⟩
abbrev F.TST_PAT_CTL.GEN : Fld := ⟨R.TST_PAT_CTL, 3, 1⟩
abbrev F.TST_PAT_CTL.CHK : Fld := ⟨R.TST_PAT_CTL, 4, 1⟩
abbrev F.TST_PAT_CTL.LOOP : Fld := ⟨R.TST_PAT_CTL, 5, 3⟩
abbrev F.TST_PAT_CTL.RATE : Fld := ⟨R.TST_PAT_CTL, 8, 3⟩
abbrev F.TST_PAT_CTL.START : Fld := ⟨R.TST_PAT_CTL, 11, 1⟩
abbrev F.TST_PAT_CTL.STOP : Fld := ⟨R.TST_PAT_CTL, 12, 1⟩
abbrev F.TST_PAT_CTL.INJ : Fld := ⟨R.TST_PAT_CTL, 13, 1⟩
abbrev F.TST_PAT_CTL.ALL : Fld := ⟨R.TST_PAT_CTL, 14, 1⟩
/-- TST_PAT_STS, R542 Table 18.12. -/
def R.TST_PAT_STS : Nat := 0x6C110
abbrev F.TST_PAT_STS.RUN : Fld := ⟨R.TST_PAT_STS, 0, 1⟩
abbrev F.TST_PAT_STS.SYNC : Fld := ⟨R.TST_PAT_STS, 1, 1⟩
abbrev F.TST_PAT_STS.REFUSED : Fld := ⟨R.TST_PAT_STS, 2, 1⟩
/-- TST_PAT_ERR, R542 Table 18.12. -/
def R.TST_PAT_ERR : Nat := 0x6C114
/-- TST_PAT_BITS_LO, R542 Table 18.12. -/
def R.TST_PAT_BITS_LO : Nat := 0x6C118
/-- TST_PAT_BITS_HI, R542 Table 18.12. -/
def R.TST_PAT_BITS_HI : Nat := 0x6C11C
/-- TST_MARG_CTL, R542 Table 18.12. -/
def R.TST_MARG_CTL : Nat := 0x6C120
abbrev F.TST_MARG_CTL.TYPE : Fld := ⟨R.TST_MARG_CTL, 0, 1⟩
abbrev F.TST_MARG_CTL.SIDE : Fld := ⟨R.TST_MARG_CTL, 1, 1⟩
abbrev F.TST_MARG_CTL.STEP : Fld := ⟨R.TST_MARG_CTL, 2, 5⟩
abbrev F.TST_MARG_CTL.START : Fld := ⟨R.TST_MARG_CTL, 7, 1⟩
abbrev F.TST_MARG_CTL.STOP : Fld := ⟨R.TST_MARG_CTL, 8, 1⟩
abbrev F.TST_MARG_CTL.DWELL : Fld := ⟨R.TST_MARG_CTL, 16, 16⟩
/-- TST_MARG_STS, R542 Table 18.12. -/
def R.TST_MARG_STS : Nat := 0x6C124
abbrev F.TST_MARG_STS.DONE : Fld := ⟨R.TST_MARG_STS, 6, 1⟩
abbrev F.TST_MARG_STS.REFUSED : Fld := ⟨R.TST_MARG_STS, 7, 1⟩

/-! ### Registers of 19_startup_reset_and_pin_states.md -/

/-- BOOT_STS, R560 Table 19.7. -/
def R.BOOT_STS : Nat := 0x140
abbrev F.BOOT_STS.PHASE : Fld := ⟨R.BOOT_STS, 0, 3⟩
abbrev F.BOOT_STS.HALT : Fld := ⟨R.BOOT_STS, 3, 1⟩
abbrev F.BOOT_STS.CAUSE : Fld := ⟨R.BOOT_STS, 4, 3⟩
abbrev F.BOOT_STS.FW_SLOT : Fld := ⟨R.BOOT_STS, 7, 1⟩
abbrev F.BOOT_STS.FW_ALT : Fld := ⟨R.BOOT_STS, 8, 1⟩
abbrev F.BOOT_STS.FORMAT : Fld := ⟨R.BOOT_STS, 9, 1⟩
abbrev F.BOOT_STS.PATH : Fld := ⟨R.BOOT_STS, 10, 2⟩
abbrev F.BOOT_STS.LAST_RST : Fld := ⟨R.BOOT_STS, 12, 3⟩
abbrev F.BOOT_STS.DIRTY_LOST : Fld := ⟨R.BOOT_STS, 15, 1⟩
/-- BOOT_CTL, R560 Table 19.7. -/
def R.BOOT_CTL : Nat := 0x144
abbrev F.BOOT_CTL.RESET : Fld := ⟨R.BOOT_CTL, 0, 1⟩
abbrev F.BOOT_CTL.KEY : Fld := ⟨R.BOOT_CTL, 16, 16⟩
/-- BOOT_MS_MAP, R560 Table 19.7. -/
def R.BOOT_MS_MAP : Nat := 0x148
/-- BOOT_MS_ACTIVE, R560 Table 19.7. -/
def R.BOOT_MS_ACTIVE : Nat := 0x14C
/-- BOOT_RST_CNT, R560 Table 19.7. -/
def R.BOOT_RST_CNT : Nat := 0x150

/-! ### Registers of 20_mode_combinations.md -/

/-- DEV_MODE, R577 Table 20.8. -/
def R.DEV_MODE : Nat := 0x160
abbrev F.DEV_MODE.STATE : Fld := ⟨R.DEV_MODE, 0, 3⟩
abbrev F.DEV_MODE.COND : Fld := ⟨R.DEV_MODE, 4, 5⟩
abbrev F.DEV_MODE.ROLE : Fld := ⟨R.DEV_MODE, 10, 2⟩
abbrev F.DEV_MODE.LC : Fld := ⟨R.DEV_MODE, 12, 2⟩
abbrev F.DEV_MODE.THROTTLED : Fld := ⟨R.DEV_MODE, 14, 1⟩
abbrev F.DEV_MODE.MARGINING : Fld := ⟨R.DEV_MODE, 15, 1⟩
abbrev F.DEV_MODE.TEST_HOLD : Fld := ⟨R.DEV_MODE, 16, 1⟩
abbrev F.DEV_MODE.TEST_CHK : Fld := ⟨R.DEV_MODE, 17, 1⟩
abbrev F.DEV_MODE.TEST_MEDIA : Fld := ⟨R.DEV_MODE, 18, 1⟩
abbrev F.DEV_MODE.SCAN : Fld := ⟨R.DEV_MODE, 19, 1⟩

/-! ### Registers of 21_register_pages.md -/

/-- PG_TYPE, R582 Table 21.2. -/
def R.PG_TYPE (page : Nat) : Nat := page * 0x1000 + 0x0
/-- PG_INST, R582 Table 21.2. -/
def R.PG_INST (page : Nat) : Nat := page * 0x1000 + 0x4
/-- PG_CTL, R582 Table 21.2. -/
def R.PG_CTL (page : Nat) : Nat := page * 0x1000 + 0x10
abbrev F.PG_CTL.EN (page : Nat) : Fld := ⟨R.PG_CTL page, 0, 1⟩
abbrev F.PG_CTL.SOFT_RST (page : Nat) : Fld := ⟨R.PG_CTL page, 1, 1⟩
/-- PG_STS, R582 Table 21.2. -/
def R.PG_STS (page : Nat) : Nat := page * 0x1000 + 0x14
abbrev F.PG_STS.PRESENT (page : Nat) : Fld := ⟨R.PG_STS page, 0, 1⟩
abbrev F.PG_STS.SOFT_BUSY (page : Nat) : Fld := ⟨R.PG_STS page, 1, 1⟩
abbrev F.PG_STS.LOCKED (page : Nat) : Fld := ⟨R.PG_STS page, 2, 1⟩
abbrev F.PG_STS.AON (page : Nat) : Fld := ⟨R.PG_STS page, 3, 1⟩
/-- PC_TICK, R582 Table 21.2. -/
def R.PC_TICK (page k : Nat) : Nat := page * 0x1000 + 0x40 + k % 2 * 0x4
/-- PC_SEL, R582 Table 21.2. -/
def R.PC_SEL (page k : Nat) : Nat := page * 0x1000 + 0x48 + k % 8 * 0x4
abbrev F.PC_SEL.EVENT (page k : Nat) : Fld := ⟨R.PC_SEL page k, 0, 8⟩
abbrev F.PC_SEL.LEVEL (page k : Nat) : Fld := ⟨R.PC_SEL page k, 8, 1⟩
abbrev F.PC_SEL.EN (page k : Nat) : Fld := ⟨R.PC_SEL page k, 9, 1⟩
abbrev F.PC_SEL.WIN (page k : Nat) : Fld := ⟨R.PC_SEL page k, 10, 1⟩
/-- PC_CNT, R582 Table 21.2. -/
def R.PC_CNT (page k : Nat) : Nat := page * 0x1000 + 0x80 + k % 16 * 0x4
/-- PC_WIN_CTL, R582 Table 21.2. -/
def R.PC_WIN_CTL (page : Nat) : Nat := page * 0x1000 + 0xC0
abbrev F.PC_WIN_CTL.START (page : Nat) : Fld := ⟨R.PC_WIN_CTL page, 0, 1⟩
abbrev F.PC_WIN_CTL.STOP (page : Nat) : Fld := ⟨R.PC_WIN_CTL page, 1, 1⟩
abbrev F.PC_WIN_CTL.CLR (page : Nat) : Fld := ⟨R.PC_WIN_CTL page, 2, 1⟩
abbrev F.PC_WIN_CTL.OVF (page : Nat) : Fld := ⟨R.PC_WIN_CTL page, 8, 8⟩
abbrev F.PC_WIN_CTL.LEN (page : Nat) : Fld := ⟨R.PC_WIN_CTL page, 16, 16⟩
/-- DEV_ID, R586 Table 21.6. -/
def R.DEV_ID : Nat := 0x100
/-- DEV_REV, R586 Table 21.6. -/
def R.DEV_REV : Nat := 0x104
/-- DEV_SN_LO, R586 Table 21.6. -/
def R.DEV_SN_LO : Nat := 0x108
/-- DEV_SN_HI, R586 Table 21.6. -/
def R.DEV_SN_HI : Nat := 0x10C
/-- DEV_CAP, R586 Table 21.6. -/
def R.DEV_CAP : Nat := 0x110
/-- DEV_LOCK_ALL, R586 Table 21.6. -/
def R.DEV_LOCK_ALL : Nat := 0x114
/-- DEV_LOCK, R586 Table 21.6. -/
def R.DEV_LOCK : Nat := 0x118
abbrev F.DEV_LOCK.LOCK : Fld := ⟨R.DEV_LOCK, 0, 1⟩
/-- OOB_ADDR, R586 Table 21.6. -/
def R.OOB_ADDR : Nat := 0x11C
/-- CORE_STS, R588 Table 21.7. -/
def R.CORE_STS (i : Nat) : Nat := (72 + i % 28) * 0x1000 + 0x100
abbrev F.CORE_STS.STATE (i : Nat) : Fld := ⟨R.CORE_STS i, 0, 2⟩
abbrev F.CORE_STS.LEAD (i : Nat) : Fld := ⟨R.CORE_STS i, 2, 1⟩
abbrev F.CORE_STS.IMAGE_OK (i : Nat) : Fld := ⟨R.CORE_STS i, 3, 1⟩
/-- CORE_CE_CNT, R588 Table 21.7. -/
def R.CORE_CE_CNT (i : Nat) : Nat := (72 + i % 28) * 0x1000 + 0x104
/-- CORE_UE_CNT, R588 Table 21.7. -/
def R.CORE_UE_CNT (i : Nat) : Nat := (72 + i % 28) * 0x1000 + 0x108
/-- CORE_LEASES, R588 Table 21.7. -/
def R.CORE_LEASES (i : Nat) : Nat := (72 + i % 28) * 0x1000 + 0x10C
/-- CORE_CNT_CLR, R588 Table 21.7. -/
def R.CORE_CNT_CLR (i : Nat) : Nat := (72 + i % 28) * 0x1000 + 0x110

/-- Rows of the register table, part 0. -/
def regDefs0 : List RegDef :=
  [ ⟨31, 1, 0x400, 1, 4, 0x0, 0x0, 0x0, 0x0, 0x0, []⟩,
    ⟨31, 1, 0x404, 1, 4, 0x0, 0x0, 0x0, 0x0, 0x0, []⟩,
    ⟨31, 1, 0x408, 1, 4, 0x0, 0x0, 0x0, 0x0, 0x0, []⟩,
    ⟨31, 1, 0x40C, 1, 4, 0x0, 0x0, 0x0, 0x0, 0x0, []⟩,
    ⟨31, 1, 0x410, 1, 4, 0x0, 0x0, 0x0, 0x0, 0x0, []⟩,
    ⟨31, 1, 0x414, 1, 4, 0x0, 0x0, 0x0, 0x0, 0x0, []⟩,
    ⟨31, 1, 0x418, 1, 4, 0x0, 0x0, 0x0, 0x0, 0x0, []⟩,
    ⟨31, 1, 0x41C, 1, 4, 0x0, 0x0, 0x0, 0x0, 0x0, []⟩,
    ⟨31, 1, 0x420, 1, 4, 0x0, 0x0, 0x0, 0x0, 0x0, []⟩,
    ⟨31, 1, 0x424, 1, 4, 0x0, 0x0, 0x0, 0x0, 0x0, []⟩,
    ⟨31, 1, 0x428, 1, 4, 0x0, 0x0, 0x0, 0x0, 0x0, []⟩,
    ⟨31, 1, 0x42C, 1, 4, 0x3, 0x0, 0x0, 0x0, 0x0, []⟩,
    ⟨31, 1, 0x100, 1, 4, 0x1, 0x0, 0x0, 0x0, 0x0, []⟩,
    ⟨31, 1, 0x104, 1, 4, 0x0, 0x0, 0x0, 0x0, 0x0, []⟩,
    ⟨31, 1, 0x108, 1, 4, 0x0, 0x0, 0x0, 0x0, 0x0, []⟩,
    ⟨31, 1, 0x110, 1, 4, 0x0, 0x0, 0x0, 0x0, 0x0, []⟩,
    ⟨31, 1, 0x114, 1, 4, 0x0, 0x0, 0x0, 0x0, 0x0, []⟩,
    ⟨31, 1, 0x118, 1, 4, 0x0, 0x0, 0x0, 0x0, 0x0, []⟩,
    ⟨31, 1, 0x11C, 1, 4, 0x0, 0x0, 0x0, 0x0, 0x0, []⟩,
    ⟨31, 1, 0x120, 1, 4, 0x0, 0x3FF, 0x0, 0x0, 0x3FF, [⟨0, 10, 32, 512, 256⟩]⟩,
    ⟨31, 1, 0x124, 1, 4, 0x0, 0x3FF, 0x0, 0x0, 0x3FF, [⟨0, 10, 16, 256, 128⟩]⟩,
    ⟨31, 1, 0x128, 1, 4, 0x0, 0x3FF, 0x0, 0x0, 0x3FF, [⟨0, 10, 32, 512, 256⟩]⟩,
    ⟨31, 1, 0x12C, 1, 4, 0x0, 0x0, 0x0, 0x1, 0x0, []⟩,
    ⟨31, 1, 0x130, 1, 4, 0x1FF, 0x0, 0x0, 0x0, 0x0, []⟩,
    ⟨31, 1, 0x134, 1, 4, 0x0, 0x0, 0x0, 0x0, 0x0, []⟩,
    ⟨31, 1, 0x138, 1, 4, 0x0, 0x0, 0x0, 0x0, 0x0, []⟩,
    ⟨31, 1, 0x13C, 1, 4, 0x0, 0x0, 0x0, 0x0, 0x0, []⟩,
    ⟨109, 1, 0x100, 16, 32, 0x0, 0x0, 0x0, 0x0, 0x0, []⟩,
    ⟨109, 1, 0x104, 16, 32, 0x0, 0x0, 0x0, 0x0, 0x0, []⟩,
    ⟨109, 1, 0x108, 16, 32, 0x0, 0x0, 0x0, 0x0, 0x0, []⟩,
    ⟨109, 1, 0x10C, 16, 32, 0x0, 0x0, 0x0, 0x0, 0x0, []⟩,
    ⟨9, 1, 0x100, 1, 4, 0x7, 0x0, 0x0, 0x8, 0x0, []⟩,
    ⟨9, 1, 0x104, 1, 4, 0x0, 0x0, 0x0, 0x0, 0x0, []⟩,
    ⟨9, 1, 0x108, 1, 4, 0x0, 0x0, 0x0, 0x0, 0x0, []⟩,
    ⟨9, 1, 0x10C, 1, 4, 0x0, 0x0, 0x0, 0x0, 0x0, []⟩,
    ⟨9, 1, 0x110, 1, 4, 0x0, 0xFFFFFFFF, 0x0, 0x0, 0xFFFFFFFF, [⟨0, 32, 0, 4294967295, 4294967295⟩]⟩,
    ⟨9, 1, 0x114, 1, 4, 0x0, 0xFF, 0x0, 0x0, 0xFF, [⟨0, 8, 0, 255, 255⟩]⟩,
    ⟨9, 1, 0x118, 1, 4, 0x0, 0x0, 0x0, 0x0, 0x0, []⟩,
    ⟨9, 1, 0x11C, 1, 4, 0x0, 0x0, 0x0, 0x0, 0x0, []⟩,
    ⟨9, 1, 0x120, 1, 4, 0x0, 0x0, 0x0, 0x0, 0x0, []⟩ ]

/-- Rows of the register table, part 1. -/
def regDefs1 : List RegDef :=
  [ ⟨9, 1, 0x124, 1, 4, 0x0, 0x7F, 0x0, 0x0, 0x7F, [⟨0, 7, 50, 95, 90⟩]⟩,
    ⟨9, 1, 0x128, 1, 4, 0x0, 0x3FF, 0x0, 0x0, 0x3FF, [⟨0, 10, 10, 1000, 200⟩]⟩,
    ⟨9, 1, 0x12C, 1, 4, 0x0, 0x7F, 0x0, 0x0, 0x7F, [⟨0, 7, 5, 100, 20⟩]⟩,
    ⟨9, 1, 0x130, 1, 4, 0x0, 0x3F, 0x0, 0x0, 0x3F, [⟨0, 6, 5, 50, 50⟩]⟩,
    ⟨9, 1, 0x134, 1, 4, 0x0, 0x0, 0x0, 0x0, 0x0, []⟩,
    ⟨9, 1, 0x138, 1, 4, 0x0, 0x0, 0x0, 0x0, 0x0, []⟩,
    ⟨9, 1, 0x13C, 1, 4, 0x0, 0x0, 0x0, 0x0, 0x0, []⟩,
    ⟨9, 1, 0x140, 1, 4, 0x0, 0x0, 0x0, 0x0, 0x0, []⟩,
    ⟨9, 1, 0x144, 1, 4, 0x0, 0x0, 0x0, 0x0, 0x0, []⟩,
    ⟨9, 1, 0x148, 1, 4, 0x0, 0x0, 0x0, 0x0, 0x0, []⟩,
    ⟨9, 1, 0x14C, 1, 4, 0x0, 0x0, 0x0, 0x0, 0x0, []⟩,
    ⟨9, 1, 0x150, 1, 4, 0x0, 0x0, 0x0, 0x0, 0x0, []⟩,
    ⟨9, 1, 0x154, 1, 4, 0x0, 0x0, 0x0, 0x0, 0x0, []⟩,
    ⟨9, 1, 0x158, 1, 4, 0x0, 0x0, 0x0, 0x1, 0x0, []⟩,
    ⟨7, 1, 0x100, 1, 4, 0xD, 0x0, 0x0, 0x2, 0x5, [⟨0, 1, 0, 1, 1⟩, ⟨2, 1, 0, 1, 0⟩]⟩,
    ⟨7, 1, 0x104, 1, 4, 0x0, 0x0, 0x8, 0x0, 0x0, []⟩,
    ⟨7, 1, 0x108, 1, 4, 0x0, 0x0, 0x0, 0x0, 0x0, []⟩,
    ⟨7, 1, 0x10C, 1, 4, 0x0, 0x0, 0x0, 0x0, 0x0, []⟩,
    ⟨7, 1, 0x110, 1, 4, 0x0, 0x1F, 0x0, 0x0, 0x1F, [⟨0, 5, 0, 16, 8⟩]⟩,
    ⟨7, 1, 0x114, 1, 4, 0x0, 0x1FFFFF, 0x0, 0x0, 0x1FFFFF, [⟨0, 21, 0, 1048576, 262144⟩]⟩,
    ⟨7, 1, 0x118, 1, 4, 0x0, 0x0, 0x0, 0x1, 0x0, []⟩,
    ⟨7, 1, 0x120, 1, 4, 0xFFFFFFC0, 0x0, 0x0, 0x0, 0x0, []⟩,
    ⟨7, 1, 0x124, 1, 4, 0xFFF, 0x0, 0x0, 0x0, 0x0, []⟩,
    ⟨7, 1, 0x128, 1, 4, 0xFFFFFFFF, 0x0, 0x0, 0x0, 0x0, []⟩,
    ⟨7, 1, 0x12C, 1, 4, 0x7F, 0x0, 0x0, 0x0, 0x0, []⟩,
    ⟨7, 1, 0x130, 1, 4, 0x1F, 0x0, 0x0, 0x20, 0x0, []⟩,
    ⟨7, 1, 0x134, 1, 4, 0x0, 0x0, 0x0, 0x0, 0x0, []⟩,
    ⟨7, 1, 0x138, 1, 4, 0x0, 0x0, 0x0, 0x0, 0x0, []⟩,
    ⟨7, 1, 0x13C, 1, 4, 0x0, 0x0, 0x0, 0x0, 0x0, []⟩,
    ⟨7, 1, 0x140, 1, 4, 0x0, 0x0, 0x0, 0x0, 0x0, []⟩,
    ⟨7, 1, 0x144, 1, 4, 0x0, 0x0, 0x0, 0x0, 0x0, []⟩,
    ⟨7, 1, 0x148, 1, 4, 0x0, 0x0, 0x0, 0x0, 0x0, []⟩,
    ⟨7, 1, 0x14C, 1, 4, 0x0, 0x0, 0x0, 0x0, 0x0, []⟩,
    ⟨7, 1, 0x150, 1, 4, 0x0, 0x0, 0x0, 0x0, 0x0, []⟩,
    ⟨7, 1, 0x154, 1, 4, 0x0, 0x0, 0x0, 0x0, 0x0, []⟩,
    ⟨7, 1, 0x158, 1, 4, 0x0, 0x0, 0x0, 0x0, 0x0, []⟩,
    ⟨7, 1, 0x15C, 1, 4, 0x0, 0x0, 0x0, 0x0, 0x0, []⟩,
    ⟨7, 1, 0x160, 1, 4, 0x0, 0x0, 0x0, 0x0, 0x0, []⟩,
    ⟨7, 1, 0x164, 1, 4, 0x0, 0x0, 0x0, 0x0, 0x0, []⟩,
    ⟨7, 1, 0x168, 1, 4, 0x0, 0x0, 0x0, 0x0, 0x0, []⟩ ]

/-- Rows of the register table, part 2. -/
def regDefs2 : List RegDef :=
  [ ⟨7, 1, 0x16C, 1, 4, 0x0, 0x0, 0x0, 0x0, 0x0, []⟩,
    ⟨8, 1, 0x100, 1, 4, 0x1, 0x0, 0x0, 0x2, 0x0, []⟩,
    ⟨8, 1, 0x104, 1, 4, 0x0, 0x0, 0x0, 0x0, 0x0, []⟩,
    ⟨8, 1, 0x108, 1, 4, 0x0, 0x0, 0x0, 0x0, 0x0, []⟩,
    ⟨8, 1, 0x10C, 1, 4, 0x0, 0x0, 0x0, 0x0, 0x0, []⟩,
    ⟨8, 1, 0x110, 1, 4, 0x0, 0x0, 0x0, 0x0, 0x0, []⟩,
    ⟨8, 1, 0x114, 1, 4, 0x0, 0x0, 0x0, 0x0, 0x0, []⟩,
    ⟨8, 1, 0x118, 1, 4, 0x0, 0x0, 0x0, 0x0, 0x0, []⟩,
    ⟨8, 1, 0x11C, 1, 4, 0x0, 0x0, 0x0, 0x0, 0x0, []⟩,
    ⟨8, 1, 0x200, 1, 4, 0x1, 0x0, 0x0, 0x4, 0x0, []⟩,
    ⟨8, 1, 0x204, 1, 4, 0x0, 0x0, 0x0, 0x0, 0x0, []⟩,
    ⟨8, 1, 0x208, 1, 4, 0x0, 0x0, 0x0, 0x0, 0x0, []⟩,
    ⟨8, 1, 0x20C, 1, 4, 0x0, 0x0, 0x0, 0x0, 0x0, []⟩,
    ⟨8, 1, 0x210, 1, 4, 0x0, 0x0, 0x0, 0x0, 0x0, []⟩,
    ⟨8, 1, 0x214, 1, 4, 0x0, 0x0, 0x0, 0x0, 0x0, []⟩,
    ⟨8, 1, 0x218, 1, 4, 0x0, 0x0, 0x0, 0x0, 0x0, []⟩,
    ⟨8, 1, 0x21C, 1, 4, 0x0, 0x0, 0x0, 0x0, 0x0, []⟩,
    ⟨8, 1, 0x220, 1, 4, 0x0, 0x7F, 0x0, 0x0, 0x7F, [⟨0, 7, 1, 100, 10⟩]⟩,
    ⟨8, 1, 0x224, 1, 4, 0x0, 0x1FFF, 0x0, 0x0, 0x1FFF, [⟨0, 13, 1024, 4096, 4096⟩]⟩,
    ⟨8, 1, 0x228, 1, 4, 0x0, 0x1FF, 0x0, 0x0, 0x1FF, [⟨0, 9, 16, 256, 128⟩]⟩,
    ⟨8, 1, 0x22C, 1, 4, 0x0, 0x0, 0x0, 0x0, 0x1FF, []⟩,
    ⟨8, 1, 0x230, 1, 4, 0x1FF, 0x0, 0x0, 0x0, 0x0, []⟩,
    ⟨8, 1, 0x234, 1, 4, 0x0, 0x0, 0x0, 0x0, 0x0, []⟩,
    ⟨8, 1, 0x238, 1, 4, 0x0, 0x0, 0x0, 0x0, 0x0, []⟩,
    ⟨8, 1, 0x23C, 1, 4, 0x0, 0x0, 0x0, 0x0, 0x0, []⟩,
    ⟨8, 1, 0x240, 1, 4, 0x0, 0x0, 0x0, 0x0, 0x0, []⟩,
    ⟨8, 1, 0x244, 1, 4, 0x0, 0x0, 0x0, 0x0, 0x0, []⟩,
    ⟨8, 1, 0x248, 1, 4, 0x0, 0x0, 0x0, 0x0, 0x0, []⟩,
    ⟨8, 1, 0x24C, 1, 4, 0x0, 0x0, 0x0, 0x0, 0x0, []⟩,
    ⟨8, 1, 0x250, 1, 4, 0x0, 0x0, 0x0, 0x0, 0x0, []⟩,
    ⟨8, 1, 0x254, 1, 4, 0x0, 0x0, 0x0, 0x0, 0x0, []⟩,
    ⟨8, 1, 0x258, 1, 4, 0x0, 0x0, 0x0, 0x0, 0x0, []⟩,
    ⟨8, 1, 0x25C, 1, 4, 0x0, 0x0, 0x0, 0x0, 0x0, []⟩,
    ⟨8, 1, 0x260, 1, 4, 0x0, 0x0, 0x0, 0x0, 0x0, []⟩,
    ⟨8, 1, 0x264, 1, 4, 0x0, 0x0, 0x0, 0x0, 0x0, []⟩,
    ⟨8, 1, 0x268, 1, 4, 0x0, 0x0, 0x0, 0x1, 0x0, []⟩,
    ⟨8, 1, 0x300, 1, 4, 0x3, 0x0, 0x0, 0x0, 0x0, []⟩,
    ⟨8, 1, 0x304, 1, 4, 0x0, 0x0, 0x0, 0x0, 0x0, []⟩,
    ⟨8, 1, 0x308, 1, 4, 0x0, 0xFF, 0x0, 0x0, 0xFF, [⟨0, 8, 8, 128, 24⟩]⟩,
    ⟨8, 1, 0x30C, 1, 4, 0x0, 0xFF, 0x0, 0x0, 0xFF, [⟨0, 8, 4, 64, 8⟩]⟩ ]

/-- Rows of the register table, part 3. -/
def regDefs3 : List RegDef :=
  [ ⟨8, 1, 0x310, 1, 4, 0x0, 0xFF, 0x0, 0x0, 0xFF, [⟨0, 8, 12, 192, 32⟩]⟩,
    ⟨8, 1, 0x314, 1, 4, 0x0, 0x3F, 0x0, 0x0, 0x3F, [⟨0, 6, 0, 63, 2⟩]⟩,
    ⟨8, 1, 0x318, 1, 4, 0x0, 0x3FFF, 0x0, 0x0, 0x3FFF, [⟨0, 14, 500, 10000, 2000⟩]⟩,
    ⟨8, 1, 0x31C, 1, 4, 0x0, 0xF, 0x0, 0x0, 0xF, [⟨0, 4, 1, 8, 5⟩]⟩,
    ⟨8, 1, 0x320, 1, 4, 0x0, 0xFFF, 0x0, 0x0, 0xFFF, [⟨0, 12, 100, 4000, 1000⟩]⟩,
    ⟨8, 1, 0x324, 1, 4, 0x0, 0x3FF, 0x0, 0x0, 0x3FF, [⟨0, 10, 100, 1000, 200⟩]⟩,
    ⟨8, 1, 0x328, 1, 4, 0x0, 0x3FF, 0x0, 0x0, 0x3FF, [⟨0, 10, 20, 200, 50⟩]⟩,
    ⟨8, 1, 0x32C, 1, 4, 0x0, 0x0, 0x0, 0x0, 0x0, []⟩,
    ⟨8, 1, 0x330, 1, 4, 0x0, 0x0, 0x0, 0x0, 0x0, []⟩,
    ⟨8, 1, 0x334, 1, 4, 0x1FF, 0x0, 0x0, 0x0, 0x0, []⟩,
    ⟨8, 1, 0x338, 1, 4, 0x0, 0x0, 0x0, 0x0, 0x0, []⟩,
    ⟨8, 1, 0x33C, 1, 4, 0x0, 0x0, 0x0, 0x0, 0x0, []⟩,
    ⟨8, 1, 0x340, 1, 4, 0x0, 0x0, 0x0, 0x0, 0x0, []⟩,
    ⟨8, 1, 0x344, 1, 4, 0x0, 0x0, 0x0, 0x0, 0x0, []⟩,
    ⟨8, 1, 0x348, 1, 4, 0x0, 0x0, 0x0, 0x0, 0x0, []⟩,
    ⟨8, 1, 0x34C, 1, 4, 0x0, 0x0, 0x0, 0x0, 0x0, []⟩,
    ⟨8, 1, 0x350, 1, 4, 0x0, 0x0, 0x0, 0x0, 0x0, []⟩,
    ⟨8, 1, 0x354, 1, 4, 0x0, 0x0, 0x0, 0x0, 0x0, []⟩,
    ⟨8, 1, 0x358, 1, 4, 0x0, 0x0, 0x0, 0x0, 0x0, []⟩,
    ⟨8, 1, 0x35C, 1, 4, 0x0, 0x0, 0x0, 0x0, 0x0, []⟩,
    ⟨26, 5, 0x600, 1, 4, 0x0, 0x3F, 0x0, 0x0, 0x3F, [⟨0, 6, 5, 50, 20⟩]⟩,
    ⟨26, 5, 0x604, 1, 4, 0x0, 0x0, 0x0, 0x0, 0x0, []⟩,
    ⟨26, 5, 0x608, 1, 4, 0x0, 0x0, 0x0, 0x0, 0x0, []⟩,
    ⟨26, 5, 0x60C, 1, 4, 0x0, 0x0, 0x0, 0x0, 0x0, []⟩,
    ⟨26, 5, 0x610, 1, 4, 0x0, 0x0, 0x0, 0x0, 0x0, []⟩,
    ⟨26, 5, 0x614, 1, 4, 0x0, 0x0, 0x0, 0x0, 0x0, []⟩,
    ⟨26, 5, 0x618, 1, 4, 0x0, 0x0, 0x0, 0x0, 0x0, []⟩,
    ⟨26, 5, 0x61C, 1, 4, 0x0, 0x0, 0x0, 0x0, 0x0, []⟩,
    ⟨26, 5, 0x620, 1, 4, 0x0, 0x0, 0x0, 0x0, 0x0, []⟩,
    ⟨26, 5, 0x100, 1, 4, 0x3, 0x0, 0x0, 0x0, 0x0, []⟩,
    ⟨26, 5, 0x104, 1, 4, 0x0, 0x0, 0x0, 0x0, 0x0, []⟩,
    ⟨26, 5, 0x108, 1, 4, 0x0, 0xFF, 0x0, 0x0, 0xFF, [⟨0, 2, 0, 2, 1⟩, ⟨2, 2, 0, 3, 1⟩, ⟨4, 2, 0, 3, 1⟩, ⟨6, 2, 0, 3, 1⟩]⟩,
    ⟨26, 5, 0x10C, 1, 4, 0x0, 0x7F, 0x0, 0x0, 0x7F, [⟨0, 7, 27, 80, 30⟩]⟩,
    ⟨26, 5, 0x110, 1, 4, 0x0, 0x7FF, 0x0, 0x0, 0x7FF, [⟨0, 11, 64, 1024, 256⟩]⟩,
    ⟨26, 5, 0x114, 1, 4, 0x0, 0x3FF, 0x0, 0x0, 0x3FF, [⟨0, 10, 10, 1000, 100⟩]⟩,
    ⟨26, 5, 0x118, 1, 4, 0x0, 0x3FF, 0x0, 0x0, 0x3FF, [⟨0, 10, 10, 1000, 100⟩]⟩,
    ⟨26, 5, 0x11C, 1, 4, 0x0, 0x0, 0x0, 0x1, 0x0, []⟩,
    ⟨32, 40, 0x100, 1, 4, 0x4, 0x0, 0x0, 0x2, 0x1, [⟨0, 1, 0, 1, 1⟩]⟩,
    ⟨32, 40, 0x104, 1, 4, 0x0, 0x0, 0x0, 0x0, 0x0, []⟩,
    ⟨32, 40, 0x108, 1, 4, 0x0, 0x0, 0x0, 0x0, 0xF, [⟨0, 4, 0, 8, 8⟩]⟩ ]

/-- Rows of the register table, part 4. -/
def regDefs4 : List RegDef :=
  [ ⟨32, 40, 0x10C, 1, 4, 0x7, 0x0, 0x0, 0x0, 0x0, []⟩,
    ⟨32, 40, 0x110, 1, 4, 0x0, 0x0, 0x0, 0x0, 0x0, []⟩,
    ⟨32, 40, 0x114, 1, 4, 0x0, 0x0, 0x0, 0x0, 0x0, []⟩,
    ⟨32, 40, 0x118, 1, 4, 0x7F, 0x0, 0x0, 0x80, 0x0, []⟩,
    ⟨32, 40, 0x11C, 1, 4, 0x0, 0x0, 0x0, 0x0, 0x0, []⟩,
    ⟨32, 40, 0x120, 1, 4, 0x0, 0x0, 0x0, 0x0, 0x0, []⟩,
    ⟨32, 40, 0x124, 1, 4, 0x0, 0x0, 0x0, 0x0, 0x0, []⟩,
    ⟨32, 40, 0x128, 1, 4, 0x0, 0x0, 0x0, 0x0, 0x0, []⟩,
    ⟨32, 40, 0x12C, 1, 4, 0x0, 0x0, 0x0, 0x0, 0x0, []⟩,
    ⟨32, 40, 0x130, 1, 4, 0x0, 0x0, 0x0, 0x0, 0x0, []⟩,
    ⟨32, 40, 0x134, 1, 4, 0x0, 0x0, 0x0, 0x0, 0x0, []⟩,
    ⟨32, 40, 0x138, 1, 4, 0x0, 0x0, 0x0, 0x0, 0x0, []⟩,
    ⟨32, 40, 0x13C, 1, 4, 0x0, 0x0, 0x0, 0x0, 0x0, []⟩,
    ⟨32, 40, 0x140, 1, 4, 0x0, 0x0, 0x0, 0x0, 0x0, []⟩,
    ⟨32, 40, 0x144, 1, 4, 0x0, 0x0, 0x0, 0x0, 0x0, []⟩,
    ⟨26, 5, 0x200, 1, 4, 0x3, 0x0, 0x0, 0x0, 0x0, []⟩,
    ⟨26, 5, 0x204, 1, 4, 0x0, 0x0, 0x0, 0x0, 0x0, []⟩,
    ⟨26, 5, 0x208, 1, 4, 0x0, 0x0, 0x0, 0x0, 0x0, []⟩,
    ⟨26, 5, 0x20C, 1, 4, 0x0, 0x0, 0x0, 0x0, 0x0, []⟩,
    ⟨26, 5, 0x210, 1, 4, 0x0, 0x0, 0x0, 0x0, 0x0, []⟩,
    ⟨26, 5, 0x214, 1, 4, 0x0, 0x0, 0x0, 0x0, 0x0, []⟩,
    ⟨26, 5, 0x218, 1, 4, 0x0, 0x0, 0x0, 0x0, 0x0, []⟩,
    ⟨26, 5, 0x21C, 1, 4, 0x0, 0x0, 0x0, 0x0, 0x0, []⟩,
    ⟨26, 5, 0x220, 1, 4, 0x0, 0x0, 0x0, 0x0, 0x0, []⟩,
    ⟨26, 5, 0x224, 1, 4, 0x0, 0x0, 0x0, 0x0, 0x0, []⟩,
    ⟨26, 5, 0x228, 1, 4, 0xFFF, 0x0, 0x0, 0x0, 0x0, []⟩,
    ⟨26, 5, 0x22C, 1, 4, 0x0, 0xFFFFFF, 0x0, 0x0, 0x0, []⟩,
    ⟨26, 5, 0x230, 1, 4, 0x1FFFF, 0x0, 0x0, 0x0, 0x0, []⟩,
    ⟨26, 5, 0x234, 1, 4, 0x0, 0x0, 0x0, 0x0, 0x0, []⟩,
    ⟨26, 5, 0x300, 22, 4, 0xFFFFFFFF, 0x0, 0x0, 0x0, 0x0, []⟩,
    ⟨26, 5, 0x358, 1, 4, 0x0, 0x0, 0x0, 0x0, 0x0, []⟩,
    ⟨26, 5, 0x35C, 1, 4, 0x0, 0x0, 0x0, 0x0, 0x0, []⟩,
    ⟨10, 1, 0x100, 1, 4, 0xF, 0x0, 0x0, 0x0, 0x0, []⟩,
    ⟨10, 1, 0x104, 1, 4, 0x0, 0x0, 0x8, 0x0, 0x0, []⟩,
    ⟨10, 1, 0x108, 1, 4, 0x0, 0x0, 0x0, 0x0, 0x0, []⟩,
    ⟨10, 1, 0x10C, 1, 4, 0x0, 0x0, 0x0, 0x0, 0x0, []⟩,
    ⟨10, 1, 0x110, 1, 4, 0x0, 0x3FF, 0x0, 0x0, 0x3FF, [⟨0, 10, 24, 720, 168⟩]⟩,
    ⟨10, 1, 0x114, 1, 4, 0x0, 0x3FF, 0x0, 0x0, 0x3FF, [⟨0, 10, 1, 600, 100⟩]⟩,
    ⟨10, 1, 0x118, 1, 4, 0x0, 0x7FF, 0x0, 0x0, 0x7FF, [⟨0, 11, 10, 1440, 60⟩]⟩,
    ⟨10, 1, 0x11C, 1, 4, 0x0, 0x1F, 0x0, 0x0, 0x1F, [⟨0, 5, 2, 31, 12⟩]⟩ ]

/-- Rows of the register table, part 5. -/
def regDefs5 : List RegDef :=
  [ ⟨10, 1, 0x120, 1, 4, 0x0, 0xF, 0x0, 0x0, 0xF, [⟨0, 4, 3, 8, 6⟩]⟩,
    ⟨10, 1, 0x124, 1, 4, 0x0, 0xFFF, 0x0, 0x0, 0xFFF, [⟨0, 12, 4, 2160, 720⟩]⟩,
    ⟨10, 1, 0x128, 1, 4, 0x0, 0xFFF, 0x0, 0x0, 0xFFF, [⟨0, 12, 4, 2160, 240⟩]⟩,
    ⟨10, 1, 0x12C, 1, 4, 0x0, 0xFFF, 0x0, 0x0, 0xFFF, [⟨0, 12, 4, 2160, 72⟩]⟩,
    ⟨10, 1, 0x130, 1, 4, 0x0, 0xFFF, 0x0, 0x0, 0xFFF, [⟨0, 12, 4, 2160, 20⟩]⟩,
    ⟨10, 1, 0x134, 1, 4, 0x0, 0xFFFFF, 0x0, 0x0, 0xFFFFF, [⟨0, 20, 1, 259200, 60⟩]⟩,
    ⟨10, 1, 0x138, 1, 4, 0x0, 0xFFFFF, 0x0, 0x0, 0xFFFFF, [⟨0, 20, 1, 259200, 1440⟩]⟩,
    ⟨10, 1, 0x13C, 1, 4, 0x0, 0xFFFFF, 0x0, 0x0, 0xFFFFF, [⟨0, 20, 1, 259200, 5760⟩]⟩,
    ⟨10, 1, 0x140, 1, 4, 0x0, 0xFFFFF, 0x0, 0x0, 0xFFFFF, [⟨0, 20, 1, 259200, 17280⟩]⟩,
    ⟨10, 1, 0x144, 1, 4, 0x0, 0x3, 0x0, 0x0, 0x3, [⟨0, 2, 0, 3, 1⟩]⟩,
    ⟨10, 1, 0x148, 1, 4, 0x0, 0x0, 0x0, 0x0, 0x0, []⟩,
    ⟨10, 1, 0x14C, 1, 4, 0x7, 0x0, 0x0, 0x0, 0x0, []⟩,
    ⟨10, 1, 0x150, 1, 4, 0x0, 0x0, 0x0, 0x0, 0x0, []⟩,
    ⟨10, 1, 0x154, 1, 4, 0x0, 0x0, 0x0, 0x0, 0x0, []⟩,
    ⟨10, 1, 0x158, 1, 4, 0x0, 0x0, 0x0, 0x0, 0x0, []⟩,
    ⟨10, 1, 0x15C, 1, 4, 0x0, 0x0, 0x0, 0x0, 0x0, []⟩,
    ⟨10, 1, 0x160, 1, 4, 0x0, 0x0, 0x0, 0x0, 0x0, []⟩,
    ⟨10, 1, 0x164, 1, 4, 0x0, 0x0, 0x0, 0x0, 0x0, []⟩,
    ⟨10, 1, 0x168, 1, 4, 0x0, 0x0, 0x0, 0x0, 0x0, []⟩,
    ⟨10, 1, 0x16C, 1, 4, 0x0, 0x0, 0x0, 0x0, 0x0, []⟩,
    ⟨10, 1, 0x170, 1, 4, 0x0, 0x0, 0x0, 0x0, 0x0, []⟩,
    ⟨10, 1, 0x174, 1, 4, 0x0, 0x0, 0x0, 0x0, 0x0, []⟩,
    ⟨10, 1, 0x178, 1, 4, 0x0, 0x0, 0x0, 0x0, 0x0, []⟩,
    ⟨10, 1, 0x17C, 1, 4, 0x0, 0x0, 0x0, 0x0, 0x0, []⟩,
    ⟨10, 1, 0x180, 1, 4, 0x0, 0x0, 0x0, 0x0, 0x0, []⟩,
    ⟨10, 1, 0x184, 1, 4, 0x0, 0x0, 0x0, 0x0, 0x0, []⟩,
    ⟨10, 1, 0x188, 1, 4, 0x0, 0x0, 0x0, 0x0, 0x0, []⟩,
    ⟨10, 1, 0x18C, 1, 4, 0x0, 0x0, 0x0, 0x0, 0x0, []⟩,
    ⟨10, 1, 0x190, 1, 4, 0x0, 0x0, 0x0, 0x0, 0x0, []⟩,
    ⟨10, 1, 0x194, 1, 4, 0x0, 0x0, 0x0, 0x1, 0x0, []⟩,
    ⟨10, 1, 0x200, 1, 4, 0x7, 0x0, 0x0, 0x0, 0x0, []⟩,
    ⟨10, 1, 0x204, 1, 4, 0x0, 0x0, 0x0, 0x0, 0x0, []⟩,
    ⟨10, 1, 0x208, 1, 4, 0x3FFFFF, 0x0, 0x0, 0x0, 0x0, []⟩,
    ⟨10, 1, 0x20C, 4, 4, 0xFFFFFFFF, 0x0, 0x0, 0x0, 0x0, []⟩,
    ⟨10, 1, 0x21C, 1, 4, 0x1FF, 0x0, 0x0, 0x0, 0x0, []⟩,
    ⟨6, 1, 0x100, 1, 4, 0x1, 0x0, 0x0, 0x2, 0x0, []⟩,
    ⟨6, 1, 0x104, 1, 4, 0x0, 0x0, 0x0, 0x0, 0x0, []⟩,
    ⟨6, 1, 0x108, 1, 4, 0x0, 0x0, 0x0, 0x0, 0x0, []⟩,
    ⟨6, 1, 0x10C, 1, 4, 0x0, 0x0, 0x0, 0x0, 0x0, []⟩,
    ⟨6, 1, 0x110, 1, 4, 0x0, 0x0, 0x0, 0x0, 0x0, []⟩ ]

/-- Rows of the register table, part 6. -/
def regDefs6 : List RegDef :=
  [ ⟨6, 1, 0x114, 1, 4, 0x0, 0x0, 0x0, 0x0, 0x0, []⟩,
    ⟨6, 1, 0x118, 1, 4, 0x0, 0xFFFFF, 0x0, 0x0, 0xFFFFF, [⟨0, 20, 16, 1048575, 65536⟩]⟩,
    ⟨6, 1, 0x11C, 1, 4, 0x0, 0xF, 0x0, 0x0, 0xF, [⟨0, 4, 1, 8, 4⟩]⟩,
    ⟨6, 1, 0x120, 1, 4, 0xF, 0x0, 0x0, 0x0, 0x0, []⟩,
    ⟨6, 1, 0x124, 1, 4, 0x0, 0x0, 0x0, 0x0, 0x0, []⟩,
    ⟨6, 1, 0x128, 1, 4, 0x0, 0x0, 0x0, 0x0, 0x0, []⟩,
    ⟨6, 1, 0x12C, 1, 4, 0x0, 0x0, 0x0, 0x0, 0x0, []⟩,
    ⟨6, 1, 0x130, 1, 4, 0x0, 0x0, 0x0, 0x0, 0x0, []⟩,
    ⟨6, 1, 0x134, 1, 4, 0x0, 0x0, 0x0, 0x0, 0x0, []⟩,
    ⟨6, 1, 0x138, 1, 4, 0x0, 0x0, 0x0, 0x0, 0x0, []⟩,
    ⟨6, 1, 0x13C, 1, 4, 0x0, 0x0, 0x0, 0x0, 0x0, []⟩,
    ⟨6, 1, 0x140, 1, 4, 0x0, 0x0, 0x0, 0x0, 0x0, []⟩,
    ⟨6, 1, 0x144, 1, 4, 0x0, 0x0, 0x0, 0x1, 0x0, []⟩,
    ⟨109, 1, 0x400, 16, 32, 0x0, 0x0, 0x0, 0x0, 0x0, []⟩,
    ⟨109, 1, 0x404, 16, 32, 0x0, 0x0, 0x0, 0x0, 0x0, []⟩,
    ⟨109, 1, 0x408, 16, 32, 0x0, 0x0, 0x0, 0x0, 0x0, []⟩,
    ⟨109, 1, 0x40C, 16, 32, 0x0, 0x0, 0x0, 0x0, 0x0, []⟩,
    ⟨109, 1, 0x410, 16, 32, 0x0, 0x0, 0x0, 0x0, 0x0, []⟩,
    ⟨109, 1, 0x414, 16, 32, 0x0, 0x0, 0x0, 0x0, 0x0, []⟩,
    ⟨109, 1, 0x418, 16, 32, 0x0, 0x0, 0x0, 0x0, 0x0, []⟩,
    ⟨109, 1, 0x41C, 16, 32, 0x0, 0x0, 0x0, 0x0, 0x0, []⟩,
    ⟨109, 1, 0x600, 1, 4, 0x1FFF, 0x0, 0x0, 0x0, 0x0, []⟩,
    ⟨109, 1, 0x604, 1, 4, 0x0, 0x0, 0x0, 0x0, 0x0, []⟩,
    ⟨109, 1, 0x608, 4, 4, 0x0, 0x0, 0x0, 0x0, 0x0, []⟩,
    ⟨11, 1, 0x100, 1, 4, 0x1, 0x0, 0x0, 0x2, 0x0, []⟩,
    ⟨11, 1, 0x104, 1, 4, 0x0, 0x0, 0x0, 0x0, 0x0, []⟩,
    ⟨11, 1, 0x108, 1, 4, 0x0, 0x7, 0x0, 0x0, 0x7, [⟨0, 1, 0, 1, 0⟩, ⟨1, 1, 0, 1, 0⟩, ⟨2, 1, 0, 1, 0⟩]⟩,
    ⟨11, 1, 0x10C, 1, 4, 0x0, 0x7F, 0x0, 0x0, 0x7F, [⟨0, 7, 4, 64, 8⟩]⟩,
    ⟨11, 1, 0x110, 1, 4, 0x0, 0x3FF, 0x0, 0x0, 0x3FF, [⟨0, 10, 10, 1000, 20⟩]⟩,
    ⟨11, 1, 0x114, 1, 4, 0x0, 0x3FF, 0x0, 0x0, 0x3FF, [⟨0, 10, 20, 1000, 50⟩]⟩,
    ⟨11, 1, 0x118, 1, 4, 0x0, 0x1F, 0x0, 0x0, 0x1F, [⟨0, 5, 1, 30, 4⟩]⟩,
    ⟨11, 1, 0x11C, 1, 4, 0x0, 0x7FF, 0x0, 0x0, 0x7FF, [⟨0, 11, 64, 1024, 256⟩]⟩,
    ⟨11, 1, 0x120, 1, 4, 0x0, 0x3F, 0x0, 0x0, 0x3F, [⟨0, 6, 1, 60, 10⟩]⟩,
    ⟨11, 1, 0x124, 1, 4, 0x0, 0x0, 0x0, 0x0, 0x0, []⟩,
    ⟨11, 1, 0x128, 1, 4, 0x0, 0x0, 0x0, 0x0, 0x0, []⟩,
    ⟨11, 1, 0x12C, 1, 4, 0x0, 0x0, 0x0, 0x0, 0x0, []⟩,
    ⟨11, 1, 0x130, 1, 4, 0x0, 0x0, 0x0, 0x0, 0x0, []⟩,
    ⟨11, 1, 0x134, 1, 4, 0x0, 0x0, 0x0, 0x0, 0xFFFFFFFF, []⟩,
    ⟨11, 1, 0x138, 1, 4, 0x0, 0x0, 0x0, 0x0, 0x0, []⟩,
    ⟨11, 1, 0x13C, 1, 4, 0x0, 0x0, 0x0, 0x0, 0x0, []⟩ ]

/-- Rows of the register table, part 7. -/
def regDefs7 : List RegDef :=
  [ ⟨11, 1, 0x140, 1, 4, 0x0, 0x0, 0x0, 0x0, 0x0, []⟩,
    ⟨11, 1, 0x144, 1, 4, 0x0, 0x0, 0x0, 0x0, 0x0, []⟩,
    ⟨11, 1, 0x148, 1, 4, 0x0, 0x0, 0x0, 0x0, 0x0, []⟩,
    ⟨11, 1, 0x14C, 1, 4, 0x0, 0x0, 0x0, 0x0, 0x0, []⟩,
    ⟨11, 1, 0x150, 1, 4, 0x0, 0x0, 0x0, 0x0, 0x0, []⟩,
    ⟨11, 1, 0x154, 1, 4, 0x0, 0x0, 0x0, 0x0, 0x0, []⟩,
    ⟨11, 1, 0x158, 1, 4, 0x0, 0x0, 0x0, 0x0, 0x0, []⟩,
    ⟨11, 1, 0x15C, 1, 4, 0x0, 0x0, 0x0, 0x0, 0x0, []⟩,
    ⟨11, 1, 0x160, 1, 4, 0x0, 0x0, 0x0, 0x1, 0x0, []⟩,
    ⟨12, 8, 0x100, 1, 4, 0x0, 0x6, 0x0, 0x0, 0x7, [⟨0, 1, 0, 1, 0⟩, ⟨1, 1, 0, 1, 0⟩, ⟨2, 1, 0, 1, 1⟩]⟩,
    ⟨12, 8, 0x104, 1, 4, 0x1, 0x0, 0x0, 0x2, 0x0, []⟩,
    ⟨12, 8, 0x108, 1, 4, 0x0, 0x0, 0x0, 0x0, 0xC0000, []⟩,
    ⟨12, 8, 0x10C, 1, 4, 0x3FFF, 0x0, 0x0, 0x0, 0x0, []⟩,
    ⟨12, 8, 0x110, 1, 4, 0x0, 0x0, 0x0, 0x0, 0x0, []⟩,
    ⟨12, 8, 0x114, 1, 4, 0x0, 0x0, 0x0, 0x0, 0x0, []⟩,
    ⟨12, 8, 0x118, 1, 4, 0x0, 0x0, 0x0, 0x0, 0x0, []⟩,
    ⟨12, 8, 0x11C, 1, 4, 0x0, 0x0, 0x0, 0x0, 0x0, []⟩,
    ⟨12, 8, 0x120, 1, 4, 0x0, 0x0, 0x0, 0x0, 0x0, []⟩,
    ⟨12, 8, 0x124, 1, 4, 0x0, 0x0, 0x0, 0x0, 0x0, []⟩,
    ⟨12, 8, 0x128, 1, 4, 0x0, 0x0, 0x0, 0x0, 0x0, []⟩,
    ⟨12, 8, 0x12C, 1, 4, 0x0, 0x0, 0x0, 0x0, 0x0, []⟩,
    ⟨12, 8, 0x130, 1, 4, 0x0, 0x0, 0x0, 0x0, 0x0, []⟩,
    ⟨12, 8, 0x134, 1, 4, 0x0, 0x0, 0x0, 0x0, 0x0, []⟩,
    ⟨12, 8, 0x138, 1, 4, 0x0, 0x0, 0x0, 0x0, 0x0, []⟩,
    ⟨12, 8, 0x13C, 1, 4, 0x0, 0x0, 0x0, 0x0, 0x0, []⟩,
    ⟨12, 8, 0x140, 1, 4, 0x0, 0x0, 0x0, 0x0, 0x0, []⟩,
    ⟨12, 8, 0x144, 1, 4, 0x0, 0x0, 0x0, 0x1, 0x0, []⟩,
    ⟨20, 6, 0x100, 1, 4, 0x3, 0x0, 0x0, 0x0, 0x0, []⟩,
    ⟨20, 6, 0x104, 1, 4, 0x0, 0x0, 0x0, 0x0, 0x0, []⟩,
    ⟨20, 6, 0x108, 1, 4, 0x0, 0x0, 0x0, 0x0, 0x7, [⟨0, 1, 0, 1, 0⟩, ⟨1, 1, 0, 1, 0⟩, ⟨2, 1, 0, 1, 0⟩]⟩,
    ⟨20, 6, 0x10C, 1, 4, 0x0, 0xFF, 0x0, 0x0, 0xFF, [⟨0, 8, 1, 168, 24⟩]⟩,
    ⟨20, 6, 0x110, 1, 4, 0x0, 0x0, 0x0, 0x0, 0x0, []⟩,
    ⟨20, 6, 0x114, 1, 4, 0x0, 0x0, 0x0, 0x0, 0x0, []⟩,
    ⟨20, 6, 0x118, 1, 4, 0x0, 0x0, 0x0, 0x0, 0x0, []⟩,
    ⟨20, 6, 0x11C, 1, 4, 0x0, 0x0, 0x0, 0x0, 0x0, []⟩,
    ⟨20, 6, 0x120, 1, 4, 0x0, 0x0, 0x0, 0x0, 0x0, []⟩,
    ⟨20, 6, 0x124, 1, 4, 0x0, 0x0, 0x0, 0x0, 0x0, []⟩,
    ⟨20, 6, 0x128, 1, 4, 0x0, 0x0, 0x0, 0x0, 0x0, []⟩,
    ⟨20, 6, 0x12C, 1, 4, 0x0, 0x0, 0x0, 0x0, 0x0, []⟩,
    ⟨20, 6, 0x130, 1, 4, 0x0, 0x0, 0x0, 0x0, 0x0, []⟩ ]

/-- Rows of the register table, part 8. -/
def regDefs8 : List RegDef :=
  [ ⟨20, 6, 0x134, 1, 4, 0x0, 0x0, 0x0, 0x1, 0x0, []⟩,
    ⟨2, 1, 0x100, 1, 4, 0x8, 0x0, 0x0, 0x0, 0x0, []⟩,
    ⟨2, 1, 0x104, 1, 4, 0x0, 0x0, 0x0, 0x0, 0x0, []⟩,
    ⟨2, 1, 0x108, 1, 4, 0x0, 0x0, 0x0, 0x0, 0x0, []⟩,
    ⟨2, 1, 0x10C, 1, 4, 0x0, 0x0, 0xFFFFFFFF, 0x0, 0x0, []⟩,
    ⟨2, 1, 0x110, 1, 4, 0x0, 0x3F3F, 0x0, 0x0, 0x3F3F, [⟨0, 6, 0, 50, 36⟩, ⟨8, 6, 0, 50, 48⟩]⟩,
    ⟨2, 1, 0x114, 1, 4, 0x0, 0x3, 0x0, 0x0, 0x3, [⟨0, 2, 0, 3, 2⟩]⟩,
    ⟨2, 1, 0x118, 1, 4, 0x30FFF, 0x0, 0x0, 0x1000, 0x0, []⟩,
    ⟨2, 1, 0x11C, 1, 4, 0x0, 0x0, 0x0, 0x0, 0x0, []⟩,
    ⟨2, 1, 0x120, 1, 4, 0x0, 0xFFF, 0x0, 0x0, 0xFFF, [⟨0, 12, 1, 3600, 60⟩]⟩,
    ⟨2, 1, 0x124, 1, 4, 0x0, 0x0, 0x0, 0x0, 0x0, []⟩,
    ⟨2, 1, 0x128, 1, 4, 0x0, 0x0, 0x0, 0x0, 0x0, []⟩,
    ⟨2, 1, 0x12C, 1, 4, 0x0, 0x0, 0x0, 0x0, 0x0, []⟩,
    ⟨2, 1, 0x130, 1, 4, 0x0, 0x0, 0x0, 0x0, 0x0, []⟩,
    ⟨2, 1, 0x134, 1, 4, 0x0, 0x0, 0x0, 0x0, 0x0, []⟩,
    ⟨2, 1, 0x138, 1, 4, 0x0, 0x0, 0x0, 0x0, 0x0, []⟩,
    ⟨2, 1, 0x13C, 1, 4, 0x0, 0x0, 0x0, 0x0, 0x0, []⟩,
    ⟨2, 1, 0x140, 1, 4, 0x0, 0x0, 0x0, 0x0, 0x0, []⟩,
    ⟨2, 1, 0x144, 1, 4, 0x0, 0x0, 0x0, 0x0, 0x0, []⟩,
    ⟨2, 1, 0x148, 1, 4, 0x0, 0x0, 0x0, 0x0, 0x0, []⟩,
    ⟨2, 1, 0x14C, 1, 4, 0x0, 0x0, 0x0, 0x1, 0x0, []⟩,
    ⟨2, 1, 0x200, 1, 4, 0x2, 0x0, 0x0, 0x1, 0x0, []⟩,
    ⟨2, 1, 0x204, 1, 4, 0x0, 0x0, 0x0, 0x0, 0x0, []⟩,
    ⟨2, 1, 0x208, 1, 4, 0x0, 0x0, 0x0, 0x0, 0x0, []⟩,
    ⟨2, 1, 0x20C, 1, 4, 0x0, 0x0, 0x0, 0x0, 0x0, []⟩,
    ⟨2, 1, 0x210, 1, 4, 0x0, 0x0, 0x0, 0x0, 0x0, []⟩,
    ⟨2, 1, 0x214, 1, 4, 0x0, 0x0, 0x0, 0x0, 0x0, []⟩,
    ⟨2, 1, 0x218, 1, 4, 0x0, 0x0, 0x0, 0x0, 0x0, []⟩,
    ⟨2, 1, 0x21C, 1, 4, 0x0, 0x0, 0x0, 0x0, 0x0, []⟩,
    ⟨2, 1, 0x220, 1, 4, 0x0, 0xFFFF, 0x0, 0x0, 0xFFFF, [⟨0, 16, 1000, 60000, 20000⟩]⟩,
    ⟨2, 1, 0x224, 1, 4, 0x0, 0xFFFF, 0x0, 0x0, 0xFFFF, [⟨0, 16, 1000, 60000, 8000⟩]⟩,
    ⟨2, 1, 0x228, 1, 4, 0x0, 0xFFFF, 0x0, 0x0, 0xFFFF, [⟨0, 16, 1000, 60000, 16000⟩]⟩,
    ⟨2, 1, 0x22C, 1, 4, 0x0, 0x7F, 0x0, 0x0, 0x7F, [⟨0, 7, 50, 100, 85⟩]⟩,
    ⟨2, 1, 0x230, 1, 4, 0x0, 0x3FF, 0x0, 0x0, 0x3FF, [⟨0, 10, 10, 1000, 60⟩]⟩,
    ⟨2, 1, 0x234, 1, 4, 0x0, 0x7FF, 0x0, 0x0, 0x7FF, [⟨0, 11, 100, 2000, 480⟩]⟩,
    ⟨2, 1, 0x238, 1, 4, 0x0, 0x7FFF, 0x0, 0x0, 0x7FFF, [⟨0, 15, 100, 20000, 2000⟩]⟩,
    ⟨2, 1, 0x23C, 1, 4, 0x0, 0x3FF, 0x0, 0x0, 0x3FF, [⟨0, 10, 20, 1000, 180⟩]⟩,
    ⟨2, 1, 0x240, 1, 4, 0x0, 0xFF, 0x0, 0x0, 0xFF, [⟨0, 8, 1, 168, 24⟩]⟩,
    ⟨2, 1, 0x244, 1, 4, 0x0, 0xFFFF, 0x0, 0x0, 0xFFFF, [⟨0, 16, 0, 65535, 0⟩]⟩,
    ⟨2, 1, 0x248, 1, 4, 0x0, 0xFFFF, 0x0, 0x0, 0xFFFF, [⟨0, 16, 0, 65535, 1000⟩]⟩ ]

/-- Rows of the register table, part 9. -/
def regDefs9 : List RegDef :=
  [ ⟨2, 1, 0x24C, 1, 4, 0x0, 0x7F, 0x0, 0x0, 0x7F, [⟨0, 7, 1, 120, 20⟩]⟩,
    ⟨2, 1, 0x250, 1, 4, 0x0, 0x0, 0x0, 0x0, 0x0, []⟩,
    ⟨2, 1, 0x254, 1, 4, 0x0, 0x0, 0x0, 0x0, 0x0, []⟩,
    ⟨2, 1, 0x258, 1, 4, 0x0, 0x0, 0x0, 0x0, 0x0, []⟩,
    ⟨2, 1, 0x25C, 1, 4, 0x0, 0x0, 0x0, 0x0, 0x0, []⟩,
    ⟨3, 1, 0x100, 1, 4, 0x1, 0x0, 0x0, 0x0, 0x0, []⟩,
    ⟨3, 1, 0x104, 1, 4, 0x0, 0x0, 0x0, 0x0, 0x0, []⟩,
    ⟨3, 1, 0x108, 1, 4, 0x0, 0xFF, 0x0, 0x0, 0xFF, [⟨0, 8, 100, 118, 118⟩]⟩,
    ⟨3, 1, 0x10C, 1, 4, 0x0, 0xFFFFFF, 0x0, 0x0, 0xFFFFFF, [⟨0, 8, 85, 114, 100⟩, ⟨8, 8, 85, 114, 106⟩, ⟨16, 8, 85, 114, 112⟩]⟩,
    ⟨3, 1, 0x110, 1, 4, 0x0, 0xFF, 0x0, 0x0, 0xFF, [⟨0, 8, 5, 100, 20⟩]⟩,
    ⟨3, 1, 0x114, 1, 4, 0x0, 0xFF, 0x0, 0x0, 0xFF, [⟨0, 8, 60, 100, 85⟩]⟩,
    ⟨3, 1, 0x118, 1, 4, 0x0, 0x1FFF, 0x0, 0x0, 0x1FFF, [⟨0, 13, 2000, 6000, 3435⟩]⟩,
    ⟨3, 1, 0x11C, 1, 4, 0x0, 0x3FFFF, 0x0, 0x0, 0x3FFFF, [⟨0, 18, 1000, 200000, 10000⟩]⟩,
    ⟨3, 1, 0x120, 1, 4, 0x0, 0x0, 0x0, 0x0, 0x0, []⟩,
    ⟨3, 1, 0x124, 1, 4, 0x0, 0x0, 0x0, 0x0, 0x0, []⟩,
    ⟨3, 1, 0x128, 1, 4, 0x0, 0x0, 0x0, 0x0, 0x0, []⟩,
    ⟨3, 1, 0x12C, 1, 4, 0x0, 0x0, 0x0, 0x0, 0x0, []⟩,
    ⟨3, 1, 0x130, 1, 4, 0x0, 0x0, 0x0, 0x0, 0x0, []⟩,
    ⟨3, 1, 0x134, 1, 4, 0x0, 0x0, 0x0, 0x0, 0x0, []⟩,
    ⟨3, 1, 0x138, 1, 4, 0x0, 0x0, 0x0, 0x0, 0x0, []⟩,
    ⟨3, 1, 0x13C, 1, 4, 0x0, 0x0, 0x0, 0x0, 0x0, []⟩,
    ⟨3, 1, 0x140, 1, 4, 0x0, 0x0, 0x0, 0x0, 0x0, []⟩,
    ⟨3, 1, 0x144, 1, 4, 0x0, 0x0, 0x0, 0x1, 0x0, []⟩,
    ⟨3, 1, 0x200, 64, 4, 0x0, 0x0, 0x0, 0x0, 0x0, []⟩,
    ⟨3, 1, 0x300, 32, 4, 0x0, 0xFFFF, 0x0, 0x0, 0xFFFF, [⟨0, 16, 1000, 20000, 1000⟩]⟩,
    ⟨4, 1, 0x100, 1, 4, 0x1, 0x0, 0x0, 0x0, 0x0, []⟩,
    ⟨4, 1, 0x104, 1, 4, 0x0, 0x0, 0x30, 0x0, 0x0, []⟩,
    ⟨4, 1, 0x108, 1, 4, 0x0, 0x0, 0x0, 0x0, 0x0, []⟩,
    ⟨4, 1, 0x10C, 1, 4, 0x7FF, 0x0, 0x0, 0x0, 0x0, []⟩,
    ⟨4, 1, 0x110, 1, 4, 0x0, 0x1FF, 0x0, 0x0, 0x1FF, [⟨0, 9, 290, 320, 305⟩]⟩,
    ⟨4, 1, 0x114, 1, 4, 0x0, 0x0, 0x0, 0x0, 0x0, []⟩,
    ⟨4, 1, 0x118, 1, 4, 0xF, 0x0, 0x0, 0x0, 0x0, []⟩,
    ⟨4, 1, 0x11C, 1, 4, 0x0, 0x0, 0x0, 0x0, 0x0, []⟩,
    ⟨4, 1, 0x120, 1, 4, 0x0, 0x0, 0x0, 0x0, 0x0, []⟩,
    ⟨4, 1, 0x124, 1, 4, 0x0, 0x0, 0x0, 0x0, 0x0, []⟩,
    ⟨4, 1, 0x128, 1, 4, 0x0, 0x0, 0x0, 0x0, 0x0, []⟩,
    ⟨4, 1, 0x12C, 1, 4, 0x0, 0x0, 0x0, 0x0, 0x0, []⟩,
    ⟨4, 1, 0x130, 1, 4, 0x0, 0x0, 0x0, 0x0, 0x0, []⟩,
    ⟨4, 1, 0x134, 1, 4, 0x0, 0x0, 0x0, 0x1, 0x0, []⟩,
    ⟨4, 1, 0x400, 64, 4, 0xFFFFFFFF, 0x0, 0x0, 0x0, 0x0, []⟩ ]

/-- Rows of the register table, part 10. -/
def regDefs10 : List RegDef :=
  [ ⟨4, 1, 0x600, 62, 4, 0xFFFFFFFF, 0x0, 0x0, 0x0, 0x0, []⟩,
    ⟨5, 1, 0x100, 1, 4, 0x0, 0x0, 0x0, 0x0, 0x0, []⟩,
    ⟨5, 1, 0x104, 1, 4, 0x0, 0x0, 0x0, 0x0, 0x0, []⟩,
    ⟨5, 1, 0x108, 1, 4, 0x0, 0x0, 0x0, 0x0, 0x0, []⟩,
    ⟨5, 1, 0x10C, 1, 4, 0x0, 0x0, 0x0, 0x0, 0x0, []⟩,
    ⟨5, 1, 0x110, 1, 4, 0x0, 0x0, 0x0, 0x0, 0x0, []⟩,
    ⟨5, 1, 0x114, 1, 4, 0x0, 0x0, 0x0, 0x0, 0x0, []⟩,
    ⟨5, 1, 0x118, 1, 4, 0x1FFF, 0x0, 0x0, 0x0, 0x0, []⟩,
    ⟨5, 1, 0x11C, 1, 4, 0x0, 0x0, 0x0, 0x0, 0x0, []⟩,
    ⟨5, 1, 0x200, 8, 4, 0x0, 0x0, 0x0, 0x0, 0x0, []⟩,
    ⟨0, 110, 0x20, 1, 4, 0x0, 0x0, 0x3FFF, 0x0, 0x0, []⟩,
    ⟨0, 110, 0x24, 1, 4, 0x3FFF, 0x0, 0x0, 0x0, 0x0, []⟩,
    ⟨0, 110, 0x28, 1, 4, 0x0, 0x0, 0x0, 0x0, 0x0, []⟩,
    ⟨0, 110, 0x2C, 1, 4, 0x0, 0x0, 0x0, 0x0, 0x0, []⟩,
    ⟨0, 110, 0x30, 1, 4, 0x0, 0x0, 0x0, 0x0, 0x0, []⟩,
    ⟨0, 110, 0x34, 1, 4, 0x0, 0x0, 0x0, 0x0, 0x0, []⟩,
    ⟨1, 1, 0x100, 1, 4, 0x7, 0x0, 0x0, 0x0, 0x0, []⟩,
    ⟨1, 1, 0x104, 1, 4, 0x0, 0x0, 0x0, 0x0, 0x0, []⟩,
    ⟨1, 1, 0x108, 1, 4, 0x0, 0x0, 0x0, 0x0, 0x0, []⟩,
    ⟨1, 1, 0x10C, 1, 4, 0x0, 0x0, 0x0, 0x0, 0x0, []⟩,
    ⟨1, 1, 0x110, 1, 4, 0x0, 0x0, 0x0, 0x0, 0x0, []⟩,
    ⟨1, 1, 0x114, 1, 4, 0x0, 0xFFFFF, 0x0, 0x0, 0xFFFFF, [⟨0, 20, 1, 1000000, 10000⟩]⟩,
    ⟨1, 1, 0x118, 1, 4, 0x0, 0xFFFFF, 0x0, 0x0, 0xFFFFF, [⟨0, 20, 1, 1000000, 100⟩]⟩,
    ⟨1, 1, 0x11C, 1, 4, 0x0, 0x7FF, 0x0, 0x0, 0x7FF, [⟨0, 11, 100, 2000, 1000⟩]⟩,
    ⟨1, 1, 0x120, 1, 4, 0xFF, 0x0, 0x0, 0x0, 0x0, []⟩,
    ⟨1, 1, 0x124, 1, 4, 0x0, 0x0, 0x0, 0x0, 0x0, []⟩,
    ⟨1, 1, 0x128, 1, 4, 0x0, 0x0, 0x0, 0x0, 0x0, []⟩,
    ⟨1, 1, 0x12C, 1, 4, 0x0, 0x0, 0x0, 0x0, 0x0, []⟩,
    ⟨1, 1, 0x130, 1, 4, 0x0, 0x0, 0x0, 0x0, 0x0, []⟩,
    ⟨1, 1, 0x134, 1, 4, 0x0, 0x0, 0x0, 0x0, 0x0, []⟩,
    ⟨1, 1, 0x138, 1, 4, 0x0, 0x0, 0x0, 0x0, 0x0, []⟩,
    ⟨1, 1, 0x13C, 1, 4, 0x0, 0x0, 0x0, 0x0, 0x0, []⟩,
    ⟨1, 1, 0x140, 1, 4, 0x0, 0x0, 0x0, 0x0, 0x0, []⟩,
    ⟨1, 1, 0x160, 8, 4, 0x0, 0x0, 0xFFFFFFFF, 0x0, 0x0, []⟩,
    ⟨1, 1, 0x180, 8, 4, 0x0, 0x0, 0x0, 0x0, 0x0, []⟩,
    ⟨1, 1, 0x1A0, 4, 4, 0x0, 0x0, 0x0, 0x0, 0x0, []⟩,
    ⟨1, 1, 0x1B0, 1, 4, 0x0, 0x0, 0x0, 0x0, 0x0, []⟩,
    ⟨1, 1, 0x1B4, 1, 4, 0x0, 0x0, 0x0, 0x0, 0x0, []⟩,
    ⟨1, 1, 0x1B8, 1, 4, 0x0, 0x0, 0x0, 0x0, 0x0, []⟩,
    ⟨1, 1, 0x1BC, 1, 4, 0x0, 0x0, 0x0, 0x0, 0x0, []⟩ ]

/-- Rows of the register table, part 11. -/
def regDefs11 : List RegDef :=
  [ ⟨1, 1, 0x1C0, 1, 4, 0x0, 0x0, 0x0, 0x0, 0x0, []⟩,
    ⟨1, 1, 0x1C4, 1, 4, 0x0, 0x0, 0x0, 0x1, 0x0, []⟩,
    ⟨100, 8, 0x100, 1, 4, 0x0, 0xF3, 0x0, 0x0, 0xF3, [⟨0, 2, 0, 2, 0⟩, ⟨4, 4, 0, 15, 0⟩]⟩,
    ⟨100, 8, 0x104, 1, 4, 0x1, 0x0, 0x0, 0x6, 0x0, []⟩,
    ⟨100, 8, 0x108, 1, 4, 0x0, 0x0, 0x7, 0x0, 0x0, []⟩,
    ⟨100, 8, 0x10C, 1, 4, 0x0, 0x0, 0x0, 0x0, 0x0, []⟩,
    ⟨100, 8, 0x110, 1, 4, 0x0, 0x0, 0x0, 0x0, 0x0, []⟩,
    ⟨100, 8, 0x120, 1, 4, 0x0, 0x0, 0x0, 0x0, 0x0, []⟩,
    ⟨100, 8, 0x124, 1, 4, 0x0, 0x0, 0x0, 0x0, 0x0, []⟩,
    ⟨100, 8, 0x128, 1, 4, 0x0, 0x0, 0x0, 0x0, 0x0, []⟩,
    ⟨100, 8, 0x130, 1, 4, 0x0, 0x0, 0x0, 0x0, 0x0, []⟩,
    ⟨100, 8, 0x134, 1, 4, 0x0, 0x0, 0x0, 0x0, 0x0, []⟩,
    ⟨100, 8, 0x138, 1, 4, 0x0, 0x0, 0x0, 0x0, 0x0, []⟩,
    ⟨100, 8, 0x140, 1, 4, 0x0, 0x0, 0x0, 0x0, 0x0, []⟩,
    ⟨100, 8, 0x144, 1, 4, 0x0, 0x0, 0x0, 0x0, 0x0, []⟩,
    ⟨100, 8, 0x148, 1, 4, 0x0, 0x0, 0x0, 0x0, 0x0, []⟩,
    ⟨100, 8, 0x14C, 1, 4, 0x0, 0x0, 0x0, 0x1, 0x0, []⟩,
    ⟨108, 1, 0x100, 1, 4, 0x0, 0x0, 0x0, 0x0, 0x0, []⟩,
    ⟨108, 1, 0x104, 1, 4, 0x1F, 0x0, 0x0, 0x0, 0x0, []⟩,
    ⟨108, 1, 0x108, 1, 4, 0x7F, 0x0, 0x0, 0x0, 0x0, []⟩,
    ⟨108, 1, 0x10C, 1, 4, 0x47FF, 0x0, 0x0, 0x800, 0x0, []⟩,
    ⟨108, 1, 0x110, 1, 4, 0x0, 0x0, 0x0, 0x0, 0x0, []⟩,
    ⟨108, 1, 0x114, 1, 4, 0x0, 0x0, 0x0, 0x0, 0x0, []⟩,
    ⟨108, 1, 0x118, 1, 4, 0x0, 0x0, 0x0, 0x0, 0x0, []⟩,
    ⟨108, 1, 0x11C, 1, 4, 0x0, 0x0, 0x0, 0x0, 0x0, []⟩,
    ⟨108, 1, 0x120, 1, 4, 0xFFFF007F, 0x0, 0x0, 0x80, 0x0, []⟩,
    ⟨108, 1, 0x124, 1, 4, 0x0, 0x0, 0x0, 0x0, 0x0, []⟩,
    ⟨0, 1, 0x140, 1, 4, 0x0, 0x0, 0x0, 0x0, 0x0, []⟩,
    ⟨0, 1, 0x144, 1, 4, 0x0, 0x0, 0x0, 0x0, 0x0, []⟩,
    ⟨0, 1, 0x148, 1, 4, 0x0, 0x0, 0x0, 0x0, 0x0, []⟩,
    ⟨0, 1, 0x14C, 1, 4, 0x0, 0x0, 0x0, 0x0, 0x0, []⟩,
    ⟨0, 1, 0x150, 1, 4, 0x0, 0x0, 0x0, 0x0, 0x0, []⟩,
    ⟨0, 1, 0x160, 1, 4, 0x0, 0x0, 0x0, 0x0, 0x0, []⟩,
    ⟨0, 110, 0x0, 1, 4, 0x0, 0x0, 0x0, 0x0, 0x0, []⟩,
    ⟨0, 110, 0x4, 1, 4, 0x0, 0x0, 0x0, 0x0, 0x0, []⟩,
    ⟨0, 110, 0x10, 1, 4, 0x0, 0x0, 0x0, 0x2, 0x0, []⟩,
    ⟨0, 110, 0x14, 1, 4, 0x0, 0x0, 0x0, 0x0, 0x0, []⟩,
    ⟨0, 110, 0x40, 2, 4, 0x0, 0x0, 0x0, 0x0, 0x0, []⟩,
    ⟨0, 110, 0x48, 8, 4, 0x7FF, 0x0, 0x0, 0x0, 0x0, []⟩,
    ⟨0, 110, 0x80, 16, 4, 0x0, 0x0, 0x0, 0x0, 0x0, []⟩ ]

/-- Rows of the register table, part 12. -/
def regDefs12 : List RegDef :=
  [ ⟨0, 110, 0xC0, 1, 4, 0xFFFF0000, 0x0, 0xFF00, 0x1, 0x0, []⟩,
    ⟨0, 1, 0x100, 1, 4, 0x0, 0x0, 0x0, 0x0, 0x0, []⟩,
    ⟨0, 1, 0x104, 1, 4, 0x0, 0x0, 0x0, 0x0, 0x0, []⟩,
    ⟨0, 1, 0x108, 1, 4, 0x0, 0x0, 0x0, 0x0, 0x0, []⟩,
    ⟨0, 1, 0x10C, 1, 4, 0x0, 0x0, 0x0, 0x0, 0x0, []⟩,
    ⟨0, 1, 0x110, 1, 4, 0x0, 0x0, 0x0, 0x0, 0x0, []⟩,
    ⟨0, 1, 0x114, 1, 4, 0x0, 0x0, 0x0, 0x0, 0x0, []⟩,
    ⟨0, 1, 0x118, 1, 4, 0x0, 0x0, 0x0, 0x1, 0x0, []⟩,
    ⟨0, 1, 0x11C, 1, 4, 0x0, 0x7F, 0x0, 0x0, 0x7F, [⟨0, 7, 0, 127, 76⟩]⟩,
    ⟨72, 28, 0x100, 1, 4, 0x0, 0x0, 0x0, 0x0, 0x0, []⟩,
    ⟨72, 28, 0x104, 1, 4, 0x0, 0x0, 0x0, 0x0, 0x0, []⟩,
    ⟨72, 28, 0x108, 1, 4, 0x0, 0x0, 0x0, 0x0, 0x0, []⟩,
    ⟨72, 28, 0x10C, 1, 4, 0x0, 0x0, 0x0, 0x0, 0x0, []⟩,
    ⟨72, 28, 0x110, 1, 4, 0x0, 0x0, 0x0, 0x0, 0x0, []⟩ ]

/-- Every register of the window, one row for each base name (R579). -/
def regDefs : List RegDef :=
  regDefs0 ++ regDefs1 ++ regDefs2 ++ regDefs3 ++ regDefs4 ++ regDefs5 ++ regDefs6 ++ regDefs7 ++ regDefs8 ++ regDefs9 ++ regDefs10 ++ regDefs11 ++ regDefs12

end Sys2Proof.Machine
end

