-- ==== Sys2Proof/Machine/Sparse.lean ====
section
/-! DEFINITION. Sparse tables in one canonical form: keys strictly rising, no entry equal to the value that an
unlisted key reads as. Registers, line-cache ways, the tile map, PST words and the other large tables of the
spec are held so. -/

set_option autoImplicit false

namespace Sys2Proof.Machine

/-- The value at a key; `d` is what an unlisted key reads as. -/
def sget {α : Type} (d : α) : Sparse α → Nat → α
  | [], _ => d
  | (k', v) :: t, k => if k' = k then v else sget d t k

/-- Remove every entry of a key. -/
def serase {α : Type} (l : Sparse α) (k : Nat) : Sparse α := l.filter (fun e => e.1 != k)

/-- Put an entry before the first entry of a higher key. -/
def sins {α : Type} (k : Nat) (v : α) : Sparse α → Sparse α
  | [] => [(k, v)]
  | (k', v') :: t => if k < k' then (k, v) :: (k', v') :: t else (k', v') :: sins k v t

/-- Store a value at a key; storing the default removes the entry. -/
def sset {α : Type} [DecidableEq α] (d : α) (l : Sparse α) (k : Nat) (v : α) : Sparse α :=
  if v = d then serase l k else sins k v (serase l k)

/-- Change the value at a key. -/
def smod {α : Type} [DecidableEq α] (d : α) (l : Sparse α) (k : Nat) (f : α → α) : Sparse α :=
  sset d l k (f (sget d l k))

/-- Keep the entries whose key meets a test. -/
def skeep {α : Type} (l : Sparse α) (p : Nat → Bool) : Sparse α := l.filter (fun e => p e.1)

/-- The canonical form: keys strictly rising and above `lo`'s bound, no entry at the default. -/
def swfFrom {α : Type} [DecidableEq α] (d : α) : Nat → Sparse α → Bool
  | _, [] => true
  | lo, (k, v) :: t => decide (lo ≤ k) && decide (v ≠ d) && swfFrom d (k + 1) t

/-- The canonical form of a sparse table. -/
def swf {α : Type} [DecidableEq α] (d : α) (l : Sparse α) : Bool := swfFrom d 0 l

/-- A set of numbers held as a rising list. -/
def setIns (k : Nat) (l : List Nat) : List Nat :=
  (sins k () (serase (l.map (fun x => (x, ()))) k)).map (·.1)

/-- Remove a number from a set. -/
def setDel (k : Nat) (l : List Nat) : List Nat := l.filter (fun x => x != k)

end Sys2Proof.Machine
end

