-- ==== Sys2Proof/Machine/State.lean ====
section
/-! DEFINITION. The state of the VS7464: every piece of state the spec names (INVENTORY.md, '## State'), the
queue of commands that wait, and the state after reset. Registers have one home, the register file `regs`;
what the register tables do not hold has typed fields, chapter by chapter. -/

set_option autoImplicit false

namespace Sys2Proof.Machine

/-! ### What leaves the block (the model's own, notes/assumptions/4) -/

/-- Place of a tile on media (Table 6.1): die, block, page, tile position. -/
structure Loc where
  die : Nat
  block : Nat
  page : Nat
  tip : Nat
  deriving DecidableEq, Repr

/-- Who is answered when a command completes: a port's mailbox, a port's background command, the twin's MCMD, or nobody. -/
inductive ReplyTo where
  | mbox (port : Nat)
  | bg (port : Nat)
  | twin (tag : Nat)
  | none
  deriving DecidableEq, Repr

/-- Where a memory request came from: a host port with its tag, the twin's forward with its tag, a mirror write, the device, or
the Clear Poison command that it carries out. -/
inductive ReqFrom where
  | host (port : Fin 8) (tag : Nat)
  | twin (tag : Nat)
  | mirror (seq : Nat)
  /-- A line that the twin asks for with REP_REQ (R339). -/
  | rep (tag : Nat)
  | device
  | cmd (dst : ReplyTo)
  deriving DecidableEq, Repr

/-- A packet of Caravan (Table 11.4): its type's name, its tag and its words. -/
structure CarPacket where
  typ : Nat
  tag : Nat
  words : List Nat
  deriving DecidableEq, Repr

/-- CXL return codes that the spec names (Table 12.8, R388, R389, R512). -/
inductive Rc where
  | success
  | background
  | invalidInput
  | unsupported
  | busy
  | aborted
  | invalidSecurity
  | internal
  deriving DecidableEq, Repr

/-- Identity and resources of a port's function (Table 12.2, R4, R376): its BARs in bytes, its MSI-X vectors, its HDM decoders; the duration in µs
and the power in mW that its GPF DVSEC advertises for Phase 2 (R64, R381), and its Memory_Active_Timeout field (R380). -/
structure PortFn where
  vendor : BitVec 16
  device : BitVec 16
  revision : BitVec 8
  cls : BitVec 24
  bar0 : Nat
  bar2 : Nat
  msix : Nat
  decoders : Nat
  gpfUs : Nat
  gpfMw : Nat
  memTimeout : Nat
  deriving DecidableEq, Repr

/-- Output pins that the block's commands change (Table 19.6). -/
inductive OutPin where
  | railEn (k : Nat)
  | cisTest
  | twinToken
  | twinAliveOut
  | alertN
  | mcRstN (ch : Nat)
  | dcResetN (ch : Nat)
  | spi
  | tdo
  deriving DecidableEq, Repr

/-- What the block answers or drives. -/
inductive Output where
  /-- The value returned for a register read, with the path that asked. -/
  | regRead (path : Path) (off : Nat) (v : Word)
  /-- The response to a memory read: data, poison. -/
  | memData (dst : ReqFrom) (data : Line) (poison : Bool)
  /-- The completion of a memory write. -/
  | memDone (dst : ReqFrom)
  /-- A command, address or data cycle on a media channel: channel, operation, arguments. -/
  | media (ch : Nat) (op : Nat) (args : List Nat)
  /-- What a media die drives on DQ: die, words. -/
  | dq (die : Nat) (words : List Nat)
  /-- A packet sent on Caravan. -/
  | caravan (p : CarPacket)
  /-- A CXL event record placed for a port's log: port, record class, words. -/
  | cxlEvent (port : Nat) (cls : Nat) (words : List Nat)
  /-- An MCMD sent on Caravan: its sequence number and command (Table 11.4). -/
  | carCmd (tag : Nat) (c : TwinCmd)
  /-- A mailbox reply: port, return code, extended status, words. -/
  | mailbox (port : Nat) (rc : Rc) (ext : Nat) (words : List Nat)
  /-- The function that a port presents to its host in configuration space (R4, R373). -/
  | function (port : Nat) (f : PortFn)
  /-- A response or message of a host port: port, code, words. -/
  | hostMsg (port : Nat) (code : Nat) (words : List Nat)
  /-- A pin changes: driven high or low, or released to high impedance. -/
  | pin (p : OutPin) (v : Option Bool)
  /-- A write on a supply bus: rail, millivolts. -/
  | avs (rail : Nat) (mv : Nat)
  /-- Anything else that a unit sends: unit code, words. -/
  | other (unit : Nat) (words : List Nat)
  deriving DecidableEq, Repr

/-! ### 01_architecture.md -/

/-- Speed monitors, admission guard and governor beside their registers (R37–R44, R464). -/
structure ArchSt where
  /-- Latest index of each monitor (R37). -/
  mons : List Nat
  /-- Consecutive windows at or above the return threshold of the guard's level (R41). -/
  retCnt : Nat
  /-- Consecutive windows in which a monitor lies more than 0.10 below the median (R464). -/
  odd : List Nat
  /-- GOV_LOW, GOV_HIGH in hundredths, GOV_STEP in mV, GOV_HOLD (Table 1.5). -/
  govLow : Nat
  govHigh : Nat
  govStep : Nat
  govHold : Nat
  /-- Evaluations above GOV_HIGH so far. -/
  hold : Nat
  /-- Governor's set point without a margin, and the last one acknowledged, in mV (R40). -/
  vset : Nat
  vack : Nat
  /-- An AVSBus voltage write that has not settled: the value on the bus in mV, and whether it is the retry (R40). -/
  pend : Option (Nat × Bool)
  deriving DecidableEq, Repr
/-! ### 02_memory_model.md to 07_media_upkeep.md: the data path -/

/-- A tile-map entry (Table 6.1). `st` is 0 unmapped, 1 media, 2 staged, 3 discarded; no `loc` stands for a LOC of
all ones; slot 0 means none. -/
structure TEntry where
  st : Nat
  pline : Bool
  ptile : Bool
  loc : Option Loc
  slot : Nat
  deriving DecidableEq, Repr

/-- An unmapped tile. -/
def TEntry.unmapped : TEntry := ⟨0, false, false, none, 0⟩

/-- Kind of a memory request (R57–R59). -/
inductive ReqKind where
  | read
  | write (d : Line)
  | part (d : Line) (be : BitVec 64)
  /-- Inject Poison, ordered as a write of its line (R394). -/
  | inject
  deriving DecidableEq, Repr

/-- Where a request stands (Table 3.1, Table 4.1). -/
inductive Stage where
  /-- To be looked up: the front of the work that the router does next. -/
  | ready
  /-- Ordered behind an earlier request to its line (R60). -/
  | after (id : Nat)
  /-- A read joined to an outstanding miss or a hazard entry (R88). -/
  | joined (id : Nat)
  /-- The tile-map entry is being read from DRAM (S4). -/
  | mapRead
  /-- The poison table or the slot is being read from DRAM (S6). -/
  | second
  /-- Held in a die's overflow queue (R78). -/
  | held (die : Nat)
  /-- A partial write with its old line merged, to be placed (R118). -/
  | placing
  /-- Outstanding on a die (S8–S13). -/
  | media (die : Nat)
  /-- Being reconstructed from its stripe, under the number of the reconstruction (R104, R214). -/
  | recon (job : Nat)
  /-- A copy asked of the twin with REP_REQ (R104, R143). -/
  | partner
  /-- A write that waits for the repair of its tile's entry (R175). -/
  | repair
  /-- A write held before W4 (R123). -/
  | budget
  /-- A held write that may now be charged (R123). -/
  | cleared
  /-- Waiting for the MACK of a mirror sequence number (R134). -/
  | mirror (seq : Nat)
  /-- Forwarded to the owner over Caravan (R335). -/
  | forward
  /-- Held by the failover (R350). -/
  | failover
  /-- A write to a transfer window that waits for a slot or for the commit of the chunk its frame holds (R128, R321). -/
  | window
  deriving DecidableEq, Repr

/-- An accepted request. -/
structure Req where
  id : Nat
  src : ReqFrom
  line : Nat
  kind : ReqKind
  stage : Stage
  region : Option Nat
  /-- Stamp at the last flit, in ticks (R80). -/
  stamp : Nat
  /-- Class found so far (Table 2.3): 0 hit, 1 tile stage, 2 media, 3 write solo, 4 write mirrored, 5–7 partial mirrored
  over 0–2, 8–10 partial solo over 0–2. -/
  cls : Nat
  /-- Ranks of Table 2.4 that applied. -/
  excs : List Nat
  /-- Reference-shift retries made (R104). -/
  retries : Nat
  /-- The die's count when the miss was held (R79). -/
  dieN : Nat
  /-- A partial write whose old line has been merged. -/
  merged : Bool
  /-- Re-issued once under R511. -/
  reissued : Bool
  /-- The line stays poisoned: a partial write merged over poison (R71). -/
  poison : Bool
  /-- Bytes that a write enables. -/
  be : BitVec 64
  /-- A later write to the line has been placed: no further request joins it, and its data goes into no cache (R60). -/
  closed : Bool
  /-- A discard has covered the line since: it is answered with zeros (R65, R66). -/
  zero : Bool
  /-- B1 has found the tile's entry (R114). -/
  atHand : Bool
  deriving DecidableEq, Repr

/-- A way of the line cache (Table 5.2). -/
structure Way where
  /-- The tag entry: V, TAG, D, L, P. -/
  v : Bool
  tag : Nat
  d : Bool
  l : Bool
  p : Bool
  /-- Even parity over the 26 bits above. -/
  par : Bool
  /-- WORD0–WORD3. -/
  data : Line
  /-- The check bits of WORD0–WORD3, 9 each. -/
  chk : BitVec 36
  /-- Words whose stored bits carry a correctable error (R143). -/
  ce : BitVec 4
  /-- TCOPY, written with the tag entry, and its check bits. -/
  tcopy : BitVec 26
  tchk : BitVec 6
  deriving DecidableEq, Repr

/-- An invalid way. -/
def Way.none : Way := ⟨false, 0, false, false, false, false, 0, 0, 0, 0, 0⟩

/-- A valid way of the map cache (R159): the 15-bit tag, the 64-bit tile-map entry and the check bits over the way; `ce` marks a
correctable error in the stored bits (R161). -/
structure MapWay where
  tag : Nat
  entry : TEntry
  chk : BitVec 8
  ce : Bool
  deriving DecidableEq, Repr

/-- A line in an eviction buffer (R116). -/
structure EvBuf where
  line : Nat
  data : Line
  deriving DecidableEq, Repr

/-- What the walker does (R148, R154): a range operation, SAFE_DISABLE, a region UNLOCK, or the line-cache pass of a
secure discard. -/
inductive WalkKind where
  | range (op : Nat) (ovr : Bool)
  | safeDisable
  | unlock (region : Nat)
  | discard (id : Nat)
  deriving DecidableEq, Repr

/-- An operation of the walker. `port` is the mailbox port that asked; `none` for the registers or the device. -/
structure WalkOp where
  kind : WalkKind
  first : Nat
  count : Nat
  port : Option Nat
  pos : Nat
  /-- The way of the set at `pos` that the walker waits at. -/
  way : Nat
  /-- Lines acted on, locked lines skipped, and LOCKs that a limit stopped, so far. -/
  done : Nat
  skipped : Nat
  partl : Bool
  deriving DecidableEq, Repr

/-- The line cache beside its registers (R140–R158). -/
structure LcSt where
  /-- Ways by set × 16 + way. -/
  ways : Sparse Way
  /-- Pseudo-LRU bits by set. -/
  plru : Sparse Nat
  /-- Ways withdrawn from use (R142). -/
  withdrawn : List Nat
  /-- Dirty ways with an uncorrectable word, whose line is being fetched from the partner (R143). -/
  lost : List Nat
  /-- Eviction buffers, oldest first. -/
  bufs : List EvBuf
  walker : Option WalkOp
  walkQ : List WalkOp
  /-- What a reset kept of the line cache and its eviction buffers is not yet charged (R163). -/
  keptUncharged : Bool
  /-- Words written raw by the checker test, by array and index: data and check bits (R270). -/
  test : List (Nat × Nat × Nat × Nat)
  /-- A write of EN = 1 waits for the test's or the invalidation's end: LC, MAPC (R162, R270). -/
  enWait : Bool
  mapcEnWait : Bool
  deriving DecidableEq, Repr

/-- A tile-stage slot (R126). Line states are the codes 0 Absent, 1 Clean, 2 Dirty, 3 Flight, 4 Flight-dirty. -/
structure Slot where
  tile : Option Nat
  st : Sparse Nat
  data : Sparse Line
  loc : Option Loc
  age : Nat
  due : Bool
  /-- Due since this tick, for the page wait (R131). -/
  dueAt : Nat
  lru : Nat
  /-- The tile was discarded with a program in flight; the slot frees at its step 7 (R174). -/
  doomed : Bool
  /-- Key slot of the sealed stream that holds it for a tile of its window (R320, R321). -/
  stream : Option Nat
  deriving DecidableEq, Repr

/-- A free slot. -/
def Slot.free : Slot := ⟨none, [], [], none, 0, false, 0, 0, false, none⟩

/-- A poison-table entry (Table 6.4). -/
structure PtEntry where
  tile : Nat
  mask : BitVec 64
  deriving DecidableEq, Repr

/-- A journal entry (Table 6.8). -/
inductive JEntry where
  | tmap (tile : Nat) (e : TEntry)
  | page (die block page seq : Nat)
  | poison (line : Nat) (add : Bool)
  | tpoison (tile : Nat) (set : Bool)
  | block (die block ev erases : Nat)
  | discard (first count : Nat) (secure : Bool) (seq : Nat)
  | subst (die sub : Nat)
  | clean (seq : Nat)
  deriving DecidableEq, Repr

/-- States of Table 7.1: 0 free, 1 open host, 2 open copy, 3 open parity, 4 closed, 5 verified, 6 parity held,
7 awaiting erase, 8 retired, 9 reserved. -/
structure Blk where
  st : Nat
  erases : Nat
  /-- Pages programmed or issued. -/
  next : Nat
  /-- Page sequence numbers by page (R188). -/
  seqs : List Nat
  /-- Pages verified, pages eligible for verification (R215), and pages read whose tiles are still to be copied (R216). -/
  verified : List Nat
  eligible : List Nat
  copying : List Nat
  /-- Marked for retirement (R216, R225). -/
  condemned : Bool
  /-- Copy blocks that received its tiles (R218). -/
  copiedTo : List Nat
  /-- Number of journal flushes that must have completed before the erase (R218). -/
  flushAt : Nat
  /-- Start of the programming, in drift ticks, and age marks (R275, R280). -/
  age : Nat
  unknown : Bool
  erasing : Bool
  deriving DecidableEq, Repr

/-- A free block as formatting leaves it, with erase count 1 (R552). -/
def Blk.fresh : Blk := ⟨0, 1, 0, [], [], [], [], false, [], 0, 0, false, false⟩

/-- A tile position in a program or on a page. -/
structure PTile where
  tile : Nat
  slot : Nat
  /-- Lines taken as Flight. -/
  flight : BitVec 64
  /-- Present lines. -/
  present : BitVec 64
  data : Sparse Line
  partl : Bool
  vseq : Nat
  /-- Source location of a copy (R220). -/
  src : Option Loc
  deriving DecidableEq, Repr

/-- A programmed page (R183): its stored lines by position 0–256, the header at 256; a position not listed is 88 zero bytes (R262). -/
structure MPage where
  lines : Sparse StoredLine
  deriving DecidableEq, Repr

/-- An erased page. -/
def MPage.erased : MPage := ⟨[]⟩

/-- What a program is for. -/
inductive PKind where
  | host
  /-- A copy for garbage collection (false) or wear levelling (true) out of a block. -/
  | copy (wear : Bool)
  | parity (stripe : Nat)
  /-- A page of a segment's checkpoint (R195). -/
  | ckpt (seg page : Nat)
  deriving DecidableEq, Repr

/-- Where a program stands (Table 4.6). -/
inductive PStage where
  /-- Waits for a page sequence number (R189). -/
  | number
  /-- Completion reads outstanding (step 2). -/
  | gather
  /-- Waits for the cipher engine (step 4). -/
  | cipher
  /-- Ready to be issued (step 5). -/
  | ready
  /-- Issued; the die is busy (step 6). -/
  | busy
  deriving DecidableEq, Repr

/-- A page program in its program buffer. -/
structure Prog where
  id : Nat
  kind : PKind
  die : Nat
  tiles : List (Option PTile)
  seq : Nat
  stage : PStage
  drain : Bool
  /-- Absent lines still to be read: position and line. -/
  need : List (Nat × Nat)
  block : Nat
  page : Nat
  lines : Sparse StoredLine
  /-- The program buffer reserved for it (R573); a parity page has its accumulator. -/
  buf : Option Nat
  deriving DecidableEq, Repr

/-- A stripe (R210, R211): group, parity die, members as die, block and page packed, accumulator, closing. -/
structure Stripe where
  id : Nat
  group : Nat
  parityDie : Nat
  members : List Nat
  acc : Sparse StoredLine
  closed : Bool
  /-- Members whose program status has not been read. -/
  waiting : List Nat
  openedAt : Nat
  /-- Parity page once programmed. -/
  parity : Option Nat
  /-- Released (R217). -/
  released : Bool
  deriving DecidableEq, Repr

/-- What a line read is for: a host or forwarded miss; a line of a page that is being assembled, for a host program or a copy; or a
line of another member or of the parity page of a reconstruction (R213). -/
inductive MPurpose where
  | host (req : Nat)
  | gather (prog pos line : Nat)
  | member (job : Nat)
  deriving DecidableEq, Repr

/-- A reconstruction under way (R213, R214): for whom, the line, its place and position, the XOR so far, the reads outstanding, and
whether a member's line could not be read. -/
structure Recon where
  id : Nat
  why : MPurpose
  line : Nat
  loc : Loc
  pos : Nat
  acc : StoredLine
  left : Nat
  bad : Bool
  deriving DecidableEq, Repr

/-- A line read outstanding on a die (R96). -/
structure MRead where
  id : Nat
  purpose : MPurpose
  loc : Loc
  /-- Line position in the page, 0–256. -/
  pos : Nat
  retry : Nat
  /-- Key slot with which the read began, 0 for none (R300). -/
  key : Nat
  /-- Its READ_LINE has been issued; a background read waits for a slot and for its die (R96, R98). -/
  issued : Bool
  /-- The buffer reserved before the command: for a miss one of the router's fill buffers, for another read a background read buffer
  (R97, R573). -/
  buf : Option Nat
  deriving DecidableEq, Repr

/-- A discard in progress (R65, R66): `pass` the walker has made its pass; `accepted`; `pct` done. -/
structure Discard where
  id : Nat
  first : Nat
  count : Nat
  secure : Bool
  /-- Who is told that it has reached 100. -/
  dst : ReplyTo
  region : Option Nat
  pass : Bool
  accepted : Bool
  /-- The twin's second MCMD_ACK is awaited (R337). -/
  twinWait : Bool
  /-- Blocks that still hold copies of the range's data. -/
  blocks : List Nat
  total : Nat
  deriving DecidableEq, Repr

/-- A complete checkpoint in the map area (R195): JSEQ at which it was captured, and the places of its 64 pages. -/
structure CkptRef where
  jseq : Nat
  pages : List Nat
  deriving DecidableEq, Repr

/-- A checkpoint that is being programmed (R195): the segment as captured, JSEQ then, JSEQ of its oldest change, and the places of the pages
whose programs have passed, plus 1, by page. -/
structure CkptJob where
  seg : Nat
  jseq : Nat
  since : Nat
  map : Sparse TEntry
  blocks : Sparse Blk
  buckets : Sparse (List PtEntry)
  pages : Sparse Nat
  deriving DecidableEq, Repr

/-- A media die as the controller keeps it. -/
structure DieCtl where
  failed : Bool
  retired : Bool
  suspended : Bool
  /-- Block of the erase in flight. -/
  erase : Option Nat
  urgent : Bool
  wl : Bool
  /-- Collection has started and not stopped (R219). -/
  collecting : Bool
  /-- Ticks of the timeout recoveries of the last second, and the step reached (R255, R256). -/
  recoveries : List Nat
  step : Nat
  /-- An erase has been issued again after a reset (Table 8.12). -/
  eraseAgain : Bool
  /-- Tick of the suspension that runs, ticks suspended before in the operation, and whether the record of a long
  suspension is written (R246). -/
  suspAt : Nat
  suspTot : Nat
  suspRec : Bool
  /-- Status word last read, and the trained values: read phase, reference code, launch delay (Table 8.14). -/
  sts : Word
  phase : Nat
  refCode : Nat
  delay : Nat
  /-- The Sirocco engine waits for a background slot of the die (R283). -/
  sirWait : Bool
  deriving DecidableEq, Repr

/-- A die in service. -/
def DieCtl.ok : DieCtl := ⟨false, false, false, none, false, false, false, [], 0, false, 0, 0, false, 0, 0, 0, 0, false⟩

/-- A copy in progress (R220–R223): die, source block, whether for wear levelling, its copy block, tiles to copy again
with their places in the source and in the failed block (R222). -/
structure GcJob where
  die : Nat
  src : Nat
  wear : Bool
  /-- The Tutor that holds the leases, 0–23; 24 for none (R221). -/
  tutor : Nat
  again : List (Nat × Loc × Loc)
  /-- Only the listed tiles are copied: a rewrite after a recovery. -/
  only : Bool
  deriving DecidableEq, Repr

/-- A tile of a flush (Table 4.5): lines that the next commit of their program completes, and lines that were Flight-dirty, whose
newer data takes one more. -/
structure FlushTile where
  tile : Nat
  now : BitVec 64
  later : BitVec 64
  deriving DecidableEq, Repr

/-- The router (R85–R110). -/
structure RtSt where
  reqs : List Req
  nextId : Nat
  /-- Pool sizes in force by port (R106). -/
  reqPool : List Nat
  rwdPool : List Nat
  fwdPool : Nat
  /-- Mirror credits granted to the twin, in force. -/
  mirPool : Nat
  /-- Credits that each port's host holds and has not spent, M2S Req and RwD (R89). -/
  reqCred : List Nat
  rwdCred : List Nat
  /-- Credits kept back under R123, oldest first: pool 0–7 the ports' RwD, 8 forwarded, 9 mirror. -/
  withheld : List Nat
  /-- Ports whose credits GPF Phase 1 has stopped (R64). -/
  gpf : List Nat
  deriving DecidableEq, Repr

/-- The tile stage, the map and media upkeep (R126–R236). -/
structure TeSt where
  map : Sparse TEntry
  /-- Tiles whose DRAM entry is uncorrectable and under repair (R175). -/
  bad : List Nat
  /-- Map-cache tags by set, most recent first (R159). -/
  mapc : Sparse (List MapWay)
  /-- Poison-table buckets. -/
  buckets : Sparse (List PtEntry)
  /-- Buckets that could not be rebuilt (R410). -/
  badBuckets : List Nat
  /-- Lines written in full since PTILE was set (R178). -/
  since : Sparse (BitVec 64)
  slots : Sparse Slot
  /-- Unflushed journal buffer, and the next position of the journal ring. -/
  jbuf : List JEntry
  ringNext : Nat
  /-- A flush waits for page sequence numbers (R189, R191). -/
  flushWait : Bool
  /-- Complete checkpoints by segment, newest first, two at most; those being programmed; the segments that CKPT_ALL still waits for. -/
  ckpts : Sparse (List CkptRef)
  ckptJobs : List CkptJob
  ckptTodo : List Nat
  /-- Segments changed since their newest checkpoint was captured: JSEQ of the oldest change, plus 1. -/
  changed : Sparse Nat
  blocks : Sparse Blk
  media : Sparse MPage
  progs : List Prog
  nextProg : Nat
  reads : List MRead
  nextRead : Nat
  recons : List Recon
  nextRecon : Nat
  stripes : List Stripe
  nextStripe : Nat
  dies : Sparse DieCtl
  /-- Dies recorded at formatting, ascending (R180), and substitutions (R181). -/
  fmt : List Nat
  subst : List (Nat × Nat)
  discards : List Discard
  nextDiscard : Nat
  /-- PAGE_SEQ_HW increments requested and not completed (R189). -/
  hwAsked : Nat
  /-- Budget delivered by the PSQ, before the caps (R122). -/
  budget : Nat
  /-- Tiles that a flush made due, with the lines it waits for (Table 4.5). -/
  flushTiles : List FlushTile
  closing : List (Nat × Nat)
  /-- Read-only since CRITICAL or SEQ_RO (R229). -/
  readOnly : Bool
  /-- Tiles left to work through, of a retired die: die and tiles (R226); tiles lost of it so far. -/
  dieWork : List (Nat × List Nat × Nat)
  gc : List GcJob
  /-- A drain runs: blocks and pages follow its rules (R207, R208). -/
  drainMode : Bool
  /-- Tiles copied by wear levelling, never cleared (Table 7.4). -/
  wlTotal : Nat
  deriving DecidableEq, Repr

/-! ### 08_media_channels.md -/

/-- A line read that occupies a slot of a die (R241, R243): slot, line, page, block, the offsets latched, and the line in the
output register once sensed. -/
structure DRead where
  slot : Nat
  line : Nat
  page : Nat
  block : Nat
  refs : BitVec 24
  sensed : Option StoredLine
  deriving DecidableEq, Repr

/-- A media die (R239–R250). `st` is the code of Table 8.4. -/
structure MDie where
  st : Nat
  /-- The RESET state was entered by RST_N. -/
  hard : Bool
  /-- State before TRAINING. -/
  former : Nat
  /-- Occupied slots in the order of their commands, host and background (R243). -/
  host : List DRead
  bg : List DRead
  /-- The page image: bursts received (R244). -/
  bursts : Sparse (BitVec 2048)
  got : List Nat
  page : Nat
  block : Nat
  /-- PROG_CONFIRM or ERASE accepted while a slot was not yet sensed (Table 8.5). -/
  waiting : Bool
  /-- Operation that PF or SUSP concerns: false program, true erase. -/
  kind : Bool
  pf : Bool
  d : Bool
  dcrc : Word
  caErr : Bool
  stateErr : Bool
  addrErr : Bool
  sendErr : Bool
  /-- Features of Table 8.7. -/
  drive : Nat
  odt : Nat
  patErr : Nat
  patCtl : Nat
  /-- Reference sets: offsets of references 1, 2 and 3 from the lowest byte, by set (R250). -/
  refs : Sparse (BitVec 24)
  /-- The ready round runs, aligned by a SYNC (R242). -/
  aligned : Bool
  deriving DecidableEq, Repr

/-- A die that has entered RESET; `hard` by RST_N. -/
def MDie.inReset (hard : Bool) : MDie :=
  ⟨0, hard, 0, [], [], [], [], 0, 0, false, false, false, false, 0, false, false, false, false, 1, 1, 0, 0, [], false⟩

/-! ### 09_integrity_and_drift.md -/

/-- A pass class of the Sirocco engine (R287): a pass runs, and the deadline of the running or the next pass, in ticks. -/
structure SirPass where
  on : Bool
  due : Nat
  deriving DecidableEq, Repr

/-- The Sirocco engine and the drift of the media (R272–R287). -/
structure SirSt where
  /-- D_z by zone in 1/16 s (R273), and as resumed at this start-up (R274). -/
  drift : Sparse Nat
  resume : Sparse Nat
  /-- DRAM ledger, oldest first: next page sequence number and D_0–D_7 (R274). -/
  ledger : List (Nat × List Nat)
  /-- Age class by block (R276). -/
  ages : Sparse Nat
  /-- Default reference table by (group × 4 + band) × 8 + set; as it stood at this start-up; and the refined entries by
  (die × 4 + band) × 8 + set (R277, R279). -/
  refDef : Sparse (BitVec 24)
  refStart : Sparse (BitVec 24)
  refined : Sparse (Option (BitVec 24))
  /-- Dies whose reference sets wait to be loaded (R277). -/
  refPend : List Nat
  scrub : SirPass
  /-- Pages that the running scrub pass has still to read. -/
  scrubTodo : List Nat
  sram : SirPass
  /-- Next tracking deadline and lag in ms by die. -/
  trkDue : Sparse Nat
  trkLag : Sparse Nat
  /-- Blocks swept with the class found (R282). -/
  swept : List (Nat × Nat)
  /-- Refreshes in progress: block, pages, tiles still to be committed with their places (R284). -/
  refresh : List (Nat × Nat × List (Nat × Loc))
  /-- Pages drift-refreshed by band, and refreshes completed (Table 7.4). -/
  refPages : Sparse Nat
  refPasses : Nat
  /-- Unreadable lines that class 1 has still to recover: page place and line position (R286). -/
  recover : List (Loc × Nat)
  /-- Lines got from the twin for a rewrite (R286). -/
  got : List (Nat × Line)
  /-- Lines corrected, and lines uncorrectable after recovery, by channel (Table 7.4). -/
  errOk : Sparse Nat
  errUe : Sparse Nat
  deriving DecidableEq, Repr

/-! ### 10_cipher_engine.md -/

/-- A key slot (R298, R313): state of Table 10.4 and kind of Table 10.3 in table order from 0; the key and, for GCM kinds, the hash subkey
as two Boolean shares each. -/
structure KeySlot where
  st : Nat
  kind : Nat
  label : Nat
  key0 : BitVec 256
  key1 : BitVec 256
  h0 : BitVec 128
  h1 : BitVec 128
  holder : Nat
  /-- A PREPARE holds it (R300). -/
  prepared : Bool
  /-- Tag failures counted (R306). -/
  fails : Nat
  deriving DecidableEq, Repr

/-- A FREE slot. -/
def KeySlot.free : KeySlot := ⟨0, 0, 0, 0, 0, 0, 0, 0, false, 0⟩

/-- Why a derivation was asked: an enable or a prepare, a rekey of a region (with ERASE), a stream, a re-derivation, the
per-boot WRAP key. -/
inductive DeriveFor where
  | enable (region : Nat)
  | prepare
  | rekey (region : Nat) (erase : Bool)
  | stream (handle : Nat)
  | again
  | wrap
  | restart (region : Nat) (old : Bool)
  deriving DecidableEq, Repr

/-- A derivation in the queue of R301: slot, purpose, the slot of its PRF key (none for RK) and context. -/
structure Derive where
  slot : Nat
  why : DeriveFor
  purpose : Nat
  prf : Option Nat
  ctx : Nat
  deriving DecidableEq, Repr

/-- A cipher request of class B or S outstanding (R303). -/
inductive CipherJob where
  | program (id : Nat)
  /-- XTS of a media-read line into its slot as Clean (R129). -/
  | keep (line : Nat) (data : Line)
  /-- A LOCK brought in (R148). -/
  | kat
  deriving DecidableEq, Repr

/-- A sealed stream (R317–R325), named by its STREAM key slot. `dir` 0 export, 1 import; `st` 1 active, 2 parked, 3 opened and not yet
run, 4 its Stream Run waits for the key. -/
structure Stream where
  window : Nat
  dir : Nat
  st : Nat
  place : Nat
  slot : Nat
  /-- First line and number of lines of the source or destination. -/
  first : Nat
  count : Nat
  port : Nat
  /-- Next chunk to produce (export) or in progress (import). -/
  chunk : Nat
  lastOk : Option Nat
  unread : Nat
  saves : Nat
  /-- Tile-stage slots that hold tiles of the window, by tile offset in the window (R320, R321). -/
  tiles : Sparse Nat
  /-- Import: lines that have arrived, by line offset in the window. -/
  seen : List Nat
  /-- Import: chunks verified and not yet committed, with line 0 of their trailers, and the lines placed of the first (R124, R322). -/
  ready : List (Nat × Line)
  placed : Nat
  tag : Nat
  nonce : Nat
  deriving DecidableEq, Repr

/-- The cipher engine (R294–R330). -/
structure CeSt where
  /-- RK as two shares (R294, R313). -/
  rk0 : BitVec 256
  rk1 : BitVec 256
  slots : Sparse KeySlot
  derives : List Derive
  /-- Cipher requests outstanding with their numbers; each holds its output buffer from its issue to its end (R303, Table 20.5). -/
  jobs : List (Nat × CipherJob)
  nextJob : Nat
  streams : List Stream
  /-- Rekeys that wait for the PST record: region, new slot, ROT_SEQ. -/
  rotations : List (Nat × Nat × Nat)
  /-- Enables that wait for their key: region and who asked. -/
  enables : List (Nat × ReplyTo)
  drbg : Nat
  /-- Generate requests since the reseed. -/
  drbgUse : Nat
  bootNonce : Nat
  entFails : Nat
  entPasses : Nat
  entFailed : Bool
  seeds : Nat
  /-- Media lines received that wait for a key being derived again, each with the errors of its read (R302). -/
  waits : List (MRead × StoredLine)
  deriving DecidableEq, Repr

/-! ### 11_twin_pair.md -/

/-- What a REP_REQ outstanding is for (R339): a host request's media line, a dirty way, a line that background work could not read, or a
line of a page that is being assembled. `tag` tells that the last failure was of the tag (R105). -/
inductive RepFor where
  | host (req : Nat) (tag : Bool)
  | way (set way line : Nat) (req : Option Nat)
  | background (line : Nat) (loc : Option Loc) (tag : Bool)
  | gather (prog pos line : Nat) (tag : Bool)
  deriving DecidableEq, Repr

/-- A mailbox command mirrored as an MCMD (R334, R337): its sequence number, who waits for it, its own result, the status of the
first MCMD_ACK, and the secure discard that its second MCMD_ACK lets reach 100. -/
structure TwCmd where
  seq : Nat
  dst : ReplyTo
  own : Option (Rc × Nat × List Nat)
  ack : Option Nat
  disc : Option Nat
  deriving DecidableEq, Repr

/-- Where a failover stands (Table 11.7): 4a settling, 4b the window with the line low, 4c side 1's wait. -/
inductive FoPhase where
  | settle
  | window
  | wait
  deriving DecidableEq, Repr

/-- A failover in progress: T0 in ticks, phase and cause. -/
structure Failover where
  t0 : Nat
  phase : FoPhase
  cause : Nat
  deriving DecidableEq, Repr

/-- The resync that this controller sources (R360): regions left, the one in progress, its stream, and what has been sent. -/
structure RsSource where
  left : List Nat
  region : Option Nat
  slot : Nat
  chunk : Nat
  /-- Chunks without an RS_RES, with their tiles. -/
  sent : List (Nat × Nat)
  full : Bool
  /-- Tiles of a full resync visited in the region. -/
  scan : Nat
  /-- RS_END has been sent and not acknowledged. -/
  ended : Bool
  total : Nat
  done : Nat
  deriving DecidableEq, Repr

/-- A verified chunk at the target, not yet committed: chunk, tile, poisoned lines, plaintext, and the lines that an MWR has
overtaken (R360); lines placed so far (R124). -/
structure RsChunk where
  chunk : Nat
  tile : Nat
  pmap : BitVec 64
  data : List Line
  newer : List Nat
  placed : Nat
  deriving DecidableEq, Repr

/-- The resync that this controller receives (R360). -/
structure RsTarget where
  region : Nat
  slot : Nat
  last : Option Nat
  ready : List RsChunk
  deriving DecidableEq, Repr

/-- The twin pair beside its registers (R331–R367). -/
structure TwSt where
  /-- Credits that the twin has granted and this controller holds, by class 0 F, 1 M, 2 P, 3 S (Table 11.5), and the credited
  packets that wait for one. -/
  cred : Sparse Nat
  waits : List (Nat × Output)
  /-- Class-F credits in circulation of those granted to the twin (R42, R343). -/
  fwdOut : Nat
  /-- Sequence number of the next MWR (R337), and MWRs sent without a covering MACK with their lines. -/
  mirSeq : Nat
  mwr : List (Nat × Nat)
  /-- Highest mirror sequence number placed for the twin. -/
  placedMax : Nat
  /-- Tag of the next REP_REQ, and those outstanding: tag and purpose. -/
  nextTag : Nat
  reps : List (Nat × RepFor)
  /-- Next MCMD sequence number, and commands outstanding. -/
  cmdSeq : Nat
  cmds : List TwCmd
  /-- This link-up's nonce, the twin's accepted HELLO, and whether its proof has verified (R345). -/
  nonce : Nat
  hello : Option Hello
  proof : Bool
  /-- The twin has been admitted, so that writes are mirrored (R359). -/
  admitted : Bool
  /-- The twin role has been decided since the start of the core domain (R363). -/
  decided : Bool
  /-- This controller pulls TWIN_TOKEN low (R347). -/
  pull : Bool
  /-- Token exchange (R349): 0 none, 1 TOKEN_OFFER sent, 2 TOKEN_TAKE sent. -/
  tokMove : Nat
  /-- A DETACH of this controller waits for the token to have moved (R364). -/
  leaving : Option ReplyTo
  fo : Option Failover
  /-- CAR_CFG as it stood at the latest link-up (R366). -/
  cfg : Word
  /-- The dirty-tile bitmap (R357): kept, and its tiles. -/
  bmapOn : Bool
  bmap : List Nat
  /-- The fence list (R358). -/
  flist : List Nat
  /-- The twin's fence list is valid, as far as this controller knows. -/
  twinList : Bool
  src : Option RsSource
  tgt : Option RsTarget
  /-- The twin's device state as its last HB gave it (Table 11.4). -/
  twinState : Nat
  /-- A KEEP has been accepted here: the twin is admitted at the next attachment (R356). -/
  keep : Bool
  /-- Level driven on TWIN_ALIVE_OUT (R348). -/
  alive : Bool
  deriving DecidableEq, Repr

/-! ### 12_host_ports.md -/

/-- An event record (Table 12.10): 0 General Media per line, 1 General Media of the device, 2 DRAM, 3 Memory Module,
4 Dynamic Capacity; and its words. -/
structure CxlRec where
  kind : Nat
  words : List Nat
  deriving DecidableEq, Repr

/-- A committed HDM decoder (R376): HPA base, size, ways, granularity and DPA skip in bytes, and its lock. -/
structure HdmDecoder where
  base : Nat
  size : Nat
  ways : Nat
  gran : Nat
  skip : Nat
  lock : Bool
  deriving DecidableEq, Repr

/-- The host ports beside their registers (R374–R396). -/
structure HpSt where
  /-- Event logs by port and log. -/
  logs : Sparse (List CxlRec)
  /-- Bytes counted in the running bandwidth window, by port (R392). -/
  bwRd : Sparse Nat
  bwWr : Sparse Nat
  /-- Extent state by region: 0 none, 1 offered, 2 accepted (R378). -/
  ext : Sparse Nat
  /-- The region's PORT on the other controller of the pair (R334). -/
  otherPort : Sparse Nat
  /-- Ports whose background command runs, and those of them whose completion is not reported (R372, R388). -/
  bg : List Nat
  muted : List Nat
  /-- The command that runs of those that run one at a time across the device, and those waiting (R388). -/
  serial : Option ReplyTo
  serialQ : List (ReplyTo × SerCmd)
  /-- Region Disables that wait for the host's release: region and who asked (R379). -/
  releases : List (Nat × ReplyTo)
  /-- Port that waits for a Roll book archive and clear (R491). -/
  archiver : Option Nat
  /-- Committed decoders by port × 8 + decoder. -/
  decs : Sparse (Option HdmDecoder)
  /-- Keys programmed for IDE streams by port × 2 + stream, 0 CXL.io and 1 CXL.cachemem (R383). -/
  ideKeys : Sparse (Option Nat)
  /-- SPDM sessions: port and session number; the next number (R384). -/
  spdm : List (Nat × Nat)
  nextSess : Nat
  /-- Event interrupt policy by port. -/
  policy : Sparse Nat
  /-- The timestamp as set, in ns, and the tick at which it was set (R281, R480). -/
  stamp : Option (Nat × Nat)
  /-- Alert thresholds (Table 12.6). -/
  alerts : List Nat
  /-- Parts of the firmware being transferred; images written by slot; the slot that the directory names (R389, R549). -/
  fwParts : List (List Nat)
  fwImg : Sparse (List Nat)
  fwNext : Nat
  /-- Sources of poison by line: 0 internal, 1 injected, 2 vendor specific (R394). -/
  psrc : Sparse Nat
  /-- Tick at which the poison table filled (R394). -/
  fullAt : Option Nat
  /-- Lines that the latest media scan of a port found uncorrectable. -/
  scans : Sparse (List Nat)
  /-- Ports whose PERST_N is low, and ports whose logs a reset has cleared (R372, R378). -/
  perst : List Nat
  lost : List Nat
  deriving DecidableEq, Repr

/-! ### 13_dram_channels.md -/

/-- The DRAM channels beside their registers (R397–R414). -/
structure DcSt where
  /-- Ticks of the uncorrectable words of the last second, by channel (R411). -/
  ueTicks : Sparse (List Nat)
  /-- Channels whose failed training is being repeated (R407). -/
  again : List Nat
  /-- Tick at which a channel last met the range above 85 °C (R403). -/
  hotAt : Sparse Nat
  /-- Tick at which the scrub pass in progress began, by channel (R409). -/
  passAt : Sparse Nat
  /-- Channel of each stripe group whose turn it is, by group × 32 + bank index (R404). -/
  turn : Sparse Nat
  deriving DecidableEq, Repr


/-! ### 14_power_and_cistern.md -/

/-- A PMBus write or read that waits or runs: entry, command of Table 14.6, data. -/
structure PmbOp where
  entry : Nat
  code : Nat
  data : Nat
  deriving DecidableEq, Repr

/-- A capacitance test (Table 14.7): the step that runs, and the readings in mV. `osc` when a window was timed by the timing
oscillator. -/
structure CisTest where
  step : Nat
  va : Nat
  vb : Nat
  v1 : Nat
  osc : Bool
  deriving DecidableEq, Repr

/-- The power sequencer and the Cistern beside their registers (R415–R449). -/
structure PsqSt where
  /-- Words of the entries of the sequencing table in force, three an entry; empty when none is valid. -/
  table : List Word
  /-- Entries enabled, in power-up order, and the number of them that have become good. -/
  on : List Nat
  good : Nat
  /-- Consecutive power-up failures (R423). -/
  fails : Nat
  /-- An off request in UP waits for the step in progress (Table 14.4). -/
  offReq : Bool
  /-- The power-up runs again after MIN_OFF (R423). -/
  retry : Bool
  /-- An off request has come since the drain, the trip or the removal began (Table 14.4, R462). -/
  offSince : Bool
  /-- Power-up follows a drain (Table 14.4). -/
  afterDrain : Bool
  /-- A drain has started in this power-on (R438). -/
  drained : Bool
  /-- Step of Table 14.9 or Table 14.10 that runs, 0 for none; what triggered the drain: 0 input, 1 rail, 2 thermal,
  3 containment. -/
  step : Nat
  trigger : Nat
  /-- The drain, or the shutdown, began before map ready (R441). -/
  early : Bool
  /-- The 500 ms limit of a thermal trip, and FC_DRAIN_LIM, run (R439). -/
  thermLim : Bool
  contLim : Bool
  /-- The drain ends in DOWN although containment started it (R439, R515). -/
  toDown : Bool
  /-- The drain has run short (R440). -/
  short : Bool
  /-- LOCKOUT cause to be entered at the end of MIN_OFF, 0 for none (R423, R463). -/
  lock : Nat
  /-- Margined entries with their signed offsets (R431). -/
  marg : List (Nat × Int)
  /-- Entries whose VOUT_MODE read as ULINEAR16 (R430). -/
  linear : List Nat
  /-- PMBus transactions, the one on the bus first; it is the retry. -/
  pmb : List PmbOp
  pmbTry : Bool
  /-- Consecutive rounds out of the window by entry (R428). -/
  outs : Sparse Nat
  /-- Tick at which the power-up or the drain began, and the dirty count then. -/
  since : Nat
  lines0 : Nat
  /-- The capacitance test that runs (R434); the last test was invalid and is to be repeated, or was that repetition (R436). -/
  test : Option CisTest
  again : Bool
  second : Bool
  /-- The first test of the start-up has started (R435). -/
  firstTest : Bool
  deriving DecidableEq, Repr
/-! ### 15_thermal_and_monitors.md -/

/-- A condition of Table 15.4: in force, and consecutive rounds since its release condition holds. -/
structure ThermCond where
  on : Bool
  rel : Nat
  deriving DecidableEq, Repr

/-- The monitors beside their registers (R450–R467). -/
structure HkSt where
  /-- Codes of the latest complete round, and of the channels that the round in progress has read so far (R443). -/
  last : List Nat
  /-- TEMP_HIST by zone × 16 + bin (R457). -/
  hist : Sparse Nat
  /-- Latest readings of each on-die sensor, newest first, 129 at most, taken since the check was disarmed (R459). -/
  past : Sparse (List Nat)
  /-- Rounds since AON ready or RAILS_UP, while the rate check is disarmed or armed (R459). -/
  rounds : Nat
  /-- Consecutive rounds in which a channel deviates (R454, R455). -/
  odd : Sparse Nat
  /-- Conditions of Table 15.4: 0–2 on-die at L1–L3, 3 and 4 rate of rise, 5 thermistor, 6 MR4. -/
  conds : Sparse ThermCond
  /-- Consecutive rounds with the highest level called for below THERM_LVL (R458). -/
  below : Nat
  /-- The trip condition held at the latest reading, and the 125 °C condition since the last removal (R460, R461). -/
  tripOn : Bool
  hotOn : Bool
  /-- Consecutive rounds with every reading below 90 °C (R462), and whether this round has kept it so far. -/
  cool : Nat
  coolNow : Bool
  /-- Operating seconds since the start of the core domain, and since TEMP_HIST was last written (R457, R480). -/
  coreSecs : Nat
  histSecs : Nat
  deriving DecidableEq, Repr
/-! ### 16_parameter_store_and_roll_book.md -/

/-- What one operation of the store writes or erases (R473, R476, R482–R485, R491). -/
inductive PstJob where
  /-- One increment of a spread counter (R477). -/
  | counterInc (i : Nat)
  /-- A spread counter raised to a value (LAST_ALIVE, R480). -/
  | counterTo (i v : Nat)
  /-- A new status-word cell of a record area (R476). -/
  | status (area v : Nat)
  /-- A new record cell of a record area; the data words without the last (R476). -/
  | record (area : Nat) (data : List Word)
  /-- A new cell of a configuration record (R482); `staged` for PST_CMD COMMIT. -/
  | config (num : Nat) (data : List Word) (staged : Bool)
  /-- A new cell of an anchor record (Table 16.1). -/
  | anchor (num : Nat) (data : List Word)
  /-- A data-window program of one word of a user row (R475). -/
  | window (addr : Nat) (w : Word)
  /-- PST_CMD ERASE of a user row (R483). -/
  | userErase (row : Nat)
  /-- An age-ledger entry, nine words (R485). -/
  | ledger (data : List Word)
  /-- The erase of a former live row or of a row outside the book (R478, R486, R491). -/
  | pingPong (row : Nat)
  /-- The restore of a weak row through the rescue rows, or of a weak spread-cell row (R484). -/
  | restore (row : Nat)
  /-- The restore that a power loss cut short, finished from the rescue rows at AON ready (R484). -/
  | rescue (row : Nat)
  deriving DecidableEq, Repr

/-- One step of an operation: the program of a word or the erase of a row. -/
inductive PstStep where
  | program (addr : Nat) (w : Word)
  | erase (row : Nat)
  deriving DecidableEq, Repr

/-- An operation of the store: what it is, its steps still to come, whether these have been laid out, and whether
it is the second writing of a failed cell (R474). -/
structure PstOp where
  job : PstJob
  steps : List PstStep
  planned : Bool
  second : Bool
  deriving DecidableEq, Repr

/-- The parameter store (R468–R485). -/
structure PstSt where
  /-- The words by PST word address; an unlisted word is erased, 0xFFFF_FFFF. -/
  words : Sparse Word
  /-- The operation in progress, or failing its supply check. -/
  cur : Option PstOp
  /-- Operations waiting, oldest first. -/
  queue : List PstOp
  /-- The supply check of `cur` has failed and is being retried (R472). -/
  failing : Bool
  /-- Abandoned writes of the device to be requested again (R472). -/
  rereq : List PstJob
  /-- Reads of the data window not yet answered: path, register and PST word address (R475). -/
  reads : List (Path × Nat × Nat)
  /-- Supply voltages that the next check meets, in mV. -/
  auxMv : Nat
  capMv : Nat
  deriving DecidableEq, Repr

/-- An event for the Roll book (Table 16.5, Table 16.6). -/
structure RbEvent where
  code : Nat
  sev : Nat
  src : Nat
  p0 : Word
  p1 : Word
  p2 : Word
  deriving DecidableEq, Repr

/-- A record waiting in the queue of R490; `rep` is its REPEAT once closed, and `snap` marks a snapshot. -/
structure RbRec where
  ev : RbEvent
  opSeconds : Nat
  powerCycle : Nat
  flags : Nat
  rep : Option Nat
  snap : Bool
  deriving DecidableEq, Repr

/-- The Roll book beside its registers (R486–R491). -/
structure RbSt where
  queue : List RbRec
  /-- The open record's event, and its slot once written. -/
  opened : Option (RbEvent × Option Nat)
  /-- REPEAT of a closed, written record whose word 1 is still to be programmed. -/
  closing : Option (Nat × Nat)
  /-- Rows that a running archive and clear has still to erase, with their number and L (R491). -/
  clearing : Option (List Nat × Nat × Nat)
  /-- Rows that the tasks of AON ready have still to erase (R486). -/
  tasks : List Nat
  deriving DecidableEq, Repr

/-! ### 17_fault_collection.md -/

/-- A fault word with its source (R496). -/
structure Flt where
  src : Nat
  sev : Nat
  kind : Nat
  detail : Nat
  deriving DecidableEq, Repr

/-- One fault source (R496–R507, R520). -/
structure FcSrc where
  /-- Severity of the active faults, 2 or 3; 0 when none is active (R503). -/
  sev : Nat
  /-- Kind of the fault that set the severity. -/
  kind : Nat
  acked : Bool
  /-- Detail of that fault. -/
  detail : Nat
  /-- The time in µs that the running timer was started with, and the tick at which it was. -/
  timer : Option Nat
  timerAt : Nat
  fenced : Bool
  wire : Bool
  /-- A fault word not yet polled, of a source in wire fault (R498). -/
  word : Option Flt
  /-- OP_SECONDS of the fences (R507). -/
  fences : List Nat
  /-- FC_REVOKE has been written since the fence (R508). -/
  revoked : Bool
  /-- Fenced for the third time within 1 h: it stays fenced (R507). -/
  stuck : Bool
  deriving DecidableEq, Repr

/-- A source with no fault. -/
def FcSrc.idle : FcSrc := ⟨0, 0, false, 0, none, 0, false, false, none, [], false, false⟩

/-- A resource that a lease of R509 grants, by the rows of Table 17.7 that the device's blocks hold. -/
inductive LeaseOf where
  | credit (id : Nat)
  | blockLock (block : Nat)
  | walker (n : Nat)
  | sirItem (id : Nat)
  | programBuffer (id : Nat)
  | backSlot (read : Nat)
  | mailbox (port : Nat)
  deriving DecidableEq, Repr

/-- A lease: the holder's source number and the resource (R509). -/
structure Lease where
  holder : Nat
  res : LeaseOf
  deriving DecidableEq, Repr

/-- The fault collector beside its registers (R494–R520). -/
structure FcSt where
  src : Sparse FcSrc
  /-- AON sources that faulted while the core was out of service, to enter FC_SEEN (R495). -/
  aonSeen : List Nat
  /-- Leases that fenced blocks and Proctors that are out still hold; those of a block in service follow from its work. -/
  leases : List Lease
  /-- Holder whose revocation runs, and those waiting (R509). -/
  revoking : Option Nat
  revokeQ : List Nat
  /-- OP_SECONDS of the containments (R515). -/
  contains : List Nat
  /-- Tick of each Proctor's latest beat (R512). -/
  beats : Sparse Nat
  deriving DecidableEq, Repr

/-! ### 18_queues_counters_test.md -/

/-- A management queue (R521–R530): words carry their END mark first, oldest first. -/
structure Mq where
  /-- Hold register of each path: 0 the manager port, 1 the I3C target (R523). -/
  hold : Sparse Word
  dn : List (Bool × BitVec 64)
  /-- Words are discarded up to the next END (R524). -/
  skip : Bool
  up : List (Bool × BitVec 64)
  /-- Host software has popped part of the packet at the head (R525). -/
  inPkt : Bool
  /-- What MQ_POP_LO and MQ_POP_HI last returned on each path (R525). -/
  lastLo : Sparse Word
  lastHi : Sparse Word
  /-- Opcode and tag of the command that firmware runs, and of the queue's background command (R529). -/
  cur : Option (Nat × Nat)
  bgc : Option (Nat × Nat)
  /-- Completed replies, oldest first, that firmware has still to push. -/
  replies : List (List (Bool × BitVec 64))
  deriving DecidableEq, Repr

/-- An empty queue. -/
def Mq.empty : Mq := ⟨[], [], false, [], false, [], [], none, none, []⟩

/-- A serial lane's pattern generator and checker (R535–R538): TST_PAT_CTL[10:0] and ALL as last written for the lane, and the
counts of the run. -/
structure Lane where
  run : Bool
  sync : Bool
  ctl : Nat
  errs : Nat
  bits : Nat
  deriving DecidableEq, Repr

/-- A lane without a pattern. -/
def Lane.idle : Lane := ⟨false, false, 0, 0, 0⟩

/-- Counters, link patterns and the test access port beside their registers (R532–R542). -/
structure TstSt where
  lanes : Sparse Lane
  /-- Lane of the margin step that runs (R540). -/
  marg : Option Nat
  /-- Instruction of the test access port; IDCODE after Test-Logic-Reset (R541). -/
  jtag : Nat
  /-- Tick at which each page's window last started (R534). -/
  winAt : Sparse Nat
  /-- Level counters, page × 8 + number, whose event has occurred since the last tick (R533). -/
  seen : List Nat
  /-- Level events, page × 8 + event, asserted at the last tick (R533). -/
  lvl : List Nat
  /-- The model's own: the access of the command in progress has been counted (Table 18.6, REGACC). -/
  quiet : Bool
  deriving DecidableEq, Repr


/-! ### 19_startup_reset_and_pin_states.md -/

/-- Which domains are in service (R34, R35, R598, R564). -/
structure DomSt where
  /-- AUX_3V3 is valid. -/
  aux : Bool
  /-- The AON domain is ready. -/
  aon : Bool
  /-- The core domain is in service. -/
  coreUp : Bool
  /-- Memory_Active of the device. -/
  memActive : Bool
  deriving DecidableEq, Repr

/-- Start-up and resets beside their registers (R543–R561). -/
structure BootSt where
  /-- The filtered level of DEV_RST_N is low (R555). -/
  rstN : Bool
  /-- A boundary-scan instruction holds the core domain out of service (R541). -/
  jtag : Bool
  /-- Tick of the latest release of the core domain. -/
  upAt : Nat
  /-- Tick at which DRAM training ended: step 1 of the rebuild (Table 6.9). -/
  dramAt : Nat
  /-- BIFUR of the four PHYs as loaded since the latest AUX power-on reset (R369). -/
  bifur : Option Nat
  /-- A register device reset waits for the accepted requests (R556); containment ends in the held state or in the reset. -/
  resetReq : Bool
  /-- Dirty count latched at the reset, for the restart (R557). -/
  latched : Option Nat
  /-- Every DRAM channel and the line cache were kept by the latest reset (R550, R557). -/
  kept : Bool
  /-- Every DRAM channel was kept by the latest reset (R557). -/
  dram : Bool
  /-- LC_CTL, LC_LOCK_WAYS and LC_LOCK_MAX have been loaded since the last reset that returns them (Table 5.7, Table 5.8). -/
  lcCfg : Bool
  /-- LOCK_AT_ACTIVE of the configuration image (R585). -/
  lockActive : Bool
  /-- TWIN_SIDE (R331). -/
  side : Bool
  /-- ALERT_N is driven low (R591). -/
  alert : Bool
  /-- I3C: a dynamic address is assigned (R589). -/
  i3c : Bool
  /-- Wide values captured by a _LO read: path, window offset of the _HI register, its value (R16). -/
  caps : List (Path × Nat × Word)
  deriving DecidableEq, Repr
/-- Why the block stops with a fault. The spec's own faults are events of the fault collector and never stop the
block; no command of this model ends here (safe). -/
inductive Fault where
  /-- Raised by no command: kept so that the type is inhabited (safe). -/
  | none
  deriving DecidableEq, Repr

/-- Why a command has no meaning here. -/
inductive Refusal where
  /-- Raised by exec's arm of a command whose meaning is not written (safe: the block stops). -/
  | notModelled (mnemonic : String)
  deriving DecidableEq, Repr

/-- The state of the block. -/
structure State where
  /-- The commands that wait, first in first out (the model's own). -/
  pending : List Instr
  /-- What the block has answered and driven, oldest first (the model's own). -/
  out : List Output
  /-- How many free values have been drawn (the model's own). -/
  freeCtr : Nat
  /-- The register window by window offset; an unlisted register holds 0 (R11, R15). -/
  regs : Sparse Word
  /-- The tick counter of page 0, which every copy reads (R45). -/
  tick : BitVec 64
  /-- REFCLK is present (R47). -/
  refclk : Bool
  /-- The domains in service (R34, R35, R598, R564). -/
  dom : DomSt
  /-- Operating seconds since the last OP_TIME increment (R480). -/
  opSecs : Nat
  /-- The parameter store. -/
  pst : PstSt
  /-- The Roll book. -/
  rb : RbSt
  /-- The fault collector. -/
  fc : FcSt
  /-- The router. -/
  rt : RtSt
  /-- The line cache. -/
  lc : LcSt
  /-- The tile stage, the map and media upkeep. -/
  te : TeSt
  /-- The cipher engine. -/
  ce : CeSt
  /-- The host ports. -/
  hp : HpSt
  /-- The twin pair. -/
  tw : TwSt
  /-- The DRAM channels. -/
  dc : DcSt
  /-- The media dies by die number; an unlisted die is held in RESET by RST_N. -/
  md : Sparse MDie
  /-- Channels whose training has failed once (R252). -/
  mcTry : List Nat
  /-- The Sirocco engine. -/
  sir : SirSt
  /-- The monitors. -/
  hk : HkSt
  /-- Speed monitors, admission guard and governor. -/
  arch : ArchSt
  /-- The power sequencer and the Cistern. -/
  psq : PsqSt
  /-- Start-up and resets. -/
  boot : BootSt
  /-- The management queues. -/
  mq : Sparse Mq
  /-- Counters, link patterns and the test access port. -/
  tst : TstSt
  deriving DecidableEq, Repr

/-- The core domain is in service. -/
abbrev State.coreUp (s : State) : Bool := s.dom.coreUp

/-- Memory_Active of the device. -/
abbrev State.memActive (s : State) : Bool := s.dom.memActive

/-- The registers that the tables give a reset value other than 0 (R15). -/
def resetRegs : Sparse Word :=
  [ (0x100, 0x56537464),
    (0x104, 0xB0),
    (0x1100, 0x1),
    (0x1104, 0xF),
    (0x2118, 0x10000),
    (0x4100, 0x1),
    (0x8100, 0x1),
    (0x8300, 0x1),
    (0x9100, 0x3),
    (0xA100, 0x7),
    (0xC10C, 0x3E8),
    (0xD10C, 0x3E8),
    (0xE10C, 0x3E8),
    (0xF10C, 0x3E8),
    (0x1010C, 0x3E8),
    (0x1110C, 0x3E8),
    (0x1210C, 0x3E8),
    (0x1310C, 0x3E8),
    (0x14100, 0x2),
    (0x15100, 0x2),
    (0x16100, 0x2),
    (0x17100, 0x2),
    (0x18100, 0x2),
    (0x19100, 0x2),
    (0x1A100, 0x1),
    (0x1A200, 0x1),
    (0x1B100, 0x1),
    (0x1B200, 0x1),
    (0x1C100, 0x1),
    (0x1C200, 0x1),
    (0x1D100, 0x1),
    (0x1D200, 0x1),
    (0x1E100, 0x1),
    (0x1E200, 0x1),
    (0x1F108, 0x7FF0000),
    (0x1F42C, 0x1),
    (0x64110, 0x800),
    (0x65110, 0x800),
    (0x66110, 0x800),
    (0x67110, 0x800),
    (0x68110, 0x800),
    (0x69110, 0x800),
    (0x6A110, 0x800),
    (0x6B110, 0x800) ]

/-- The state right after an AUX power-on reset (R15): registers at the Reset column of their tables; every
field that no table covers at the value INVENTORY.md's '## State' and notes/assumptions name. -/
def State.reset : State :=
  { pending := [],
    out := [],
    freeCtr := 0,
    regs := resetRegs,
    tick := 0,
    refclk := true,
    dom := { aux := true, aon := false, coreUp := false, memActive := false },
    opSecs := 0,
    pst := ⟨[], none, [], false, [], [], 3300, 3300⟩,
    rb := ⟨[], none, none, none, []⟩,
    fc := ⟨[], [], [], none, [], [], []⟩,
    rt := ⟨[], 0, [256, 256, 256, 256, 256, 256, 256, 256], [128, 128, 128, 128, 128, 128, 128, 128], 256, 256, [0, 0, 0, 0, 0, 0, 0, 0], [0, 0, 0, 0, 0, 0, 0, 0], [], []⟩,
    lc := ⟨[], [], [], [], [], none, [], false, [], false, false⟩,
    te := { map := [], bad := [], mapc := [], buckets := [], badBuckets := [], since := [], slots := [], jbuf := [], ringNext := 0, flushWait := false, ckpts := [], ckptJobs := [], ckptTodo := [], changed := [], blocks := [], media := [], progs := [], nextProg := 0, reads := [], nextRead := 0, recons := [], nextRecon := 0, stripes := [], nextStripe := 0, dies := [], fmt := [], subst := [], discards := [], nextDiscard := 0, hwAsked := 0, budget := 0, flushTiles := [], closing := [], readOnly := false, dieWork := [], gc := [], drainMode := false, wlTotal := 0 },
    ce := { rk0 := 0, rk1 := 0, slots := [], derives := [], jobs := [], nextJob := 0, streams := [], rotations := [], enables := [], drbg := 0, drbgUse := 0, bootNonce := 0, entFails := 0, entPasses := 0, entFailed := false, seeds := 0, waits := [] },
    hp := { logs := [], bwRd := [], bwWr := [], ext := [], otherPort := [], bg := [], muted := [], serial := none, serialQ := [], releases := [], archiver := none, decs := [], ideKeys := [], spdm := [], nextSess := 0, policy := [], stamp := none, alerts := [], fwParts := [], fwImg := [], fwNext := 0, psrc := [], fullAt := none, scans := [], perst := [], lost := [] },
    tw := { cred := [], waits := [], fwdOut := 0, mirSeq := 1, mwr := [], placedMax := 0, nextTag := 0, reps := [], cmdSeq := 1, cmds := [], nonce := 0, hello := none, proof := false, admitted := false, decided := false, pull := false, tokMove := 0, leaving := none, fo := none, cfg := 0, bmapOn := false, bmap := [], flist := [], twinList := true, src := none, tgt := none, twinState := 1, keep := false, alive := false },
    dc := ⟨[], [], [], [], []⟩,
    md := [],
    mcTry := [],
    sir := { drift := [], resume := [], ledger := [], ages := [], refDef := [], refStart := [], refined := [], refPend := [], scrub := ⟨false, 0⟩, scrubTodo := [], sram := ⟨false, 0⟩, trkDue := [], trkLag := [], swept := [], refresh := [], refPages := [], refPasses := 0, recover := [], got := [], errOk := [], errUe := [] },
    hk := { last := [], hist := [], past := [], rounds := 0, odd := [], conds := [], below := 0, tripOn := false, hotOn := false, cool := 0, coolNow := true, coreSecs := 0, histSecs := 0 },
    arch := { mons := [0, 0, 0, 0, 0, 0, 0, 0], retCnt := 0, odd := [0, 0, 0, 0, 0, 0, 0, 0], govLow := 84, govHigh := 92, govStep := 5, govHold := 16, hold := 0, vset := 800, vack := 800, pend := none },
    psq := { table := [], on := [], good := 0, fails := 0, offReq := false, retry := false, offSince := false, afterDrain := false, drained := false, step := 0, trigger := 0, early := false, thermLim := false, contLim := false, toDown := false, short := false, lock := 0, marg := [], linear := [], pmb := [], pmbTry := false, outs := [], since := 0, lines0 := 0, test := none, again := false, second := false, firstTest := false },
    boot := { rstN := false, jtag := false, upAt := 0, dramAt := 0, bifur := none, resetReq := false, latched := none, kept := false, dram := false, lcCfg := false, lockActive := false, side := false, alert := false, i3c := false, caps := [] },
    mq := [],
    tst := { lanes := [], marg := none, jtag := 1, winAt := [], seen := [], lvl := [], quiet := false } }

end Sys2Proof.Machine
end

