-- ==== Sys2Proof/Machine/Ops.lean ====
section
/-! DEFINITION. The named operations over the state: registers and their fields (00_scope.md R11–R16),
outputs, free values, the Roll book's entry (16_parameter_store_and_roll_book.md R489, R490), the parameter
store's operations (R468–R485), and the raising of a fault (17_fault_collection.md R501–R503). -/

set_option autoImplicit false

namespace Sys2Proof.Machine

/-- The outcome of every command. -/
abbrev Out := Host.Outcome State Fault Refusal

/-! ### Registers -/

/-- The stored value of the register at a window offset (R11). -/
def State.rd (s : State) (o : Nat) : Word := sget 0 s.regs o

/-- Store a register. -/
def State.wr (s : State) (o : Nat) (v : Word) : State := { s with regs := sset 0 s.regs o v }

/-- The bits of a field of a word. -/
def fldOf (f : Fld) (w : Word) : Nat := w.toNat / 2 ^ f.lo % 2 ^ f.width

/-- A word with a field replaced; the value is cut to the field's width. -/
def fldPut (f : Fld) (w : Word) (v : Nat) : Word :=
  BitVec.ofNat 32 (w.toNat - fldOf f w * 2 ^ f.lo + v % 2 ^ f.width * 2 ^ f.lo)

/-- Read a field. -/
def State.get (s : State) (f : Fld) : Nat := fldOf f (s.rd f.off)

/-- Read a one-bit field. -/
def State.bit (s : State) (f : Fld) : Bool := s.get f != 0

/-- Write a field of a register, as hardware does. -/
def State.set (s : State) (f : Fld) (v : Nat) : State := s.wr f.off (fldPut f (s.rd f.off) v)

/-- Write a one-bit field. -/
def State.setBit (s : State) (f : Fld) (b : Bool) : State := s.set f b.toNat

/-- The value of a register as a number. -/
def State.num (s : State) (o : Nat) : Nat := (s.rd o).toNat

/-- Store a number in a register, cut to 32 bits. -/
def State.wrN (s : State) (o : Nat) (v : Nat) : State := s.wr o (BitVec.ofNat 32 v)

/-- The value of a _LO and _HI pair (R16); the _HI register follows the _LO register. -/
def State.num64 (s : State) (lo : Nat) : Nat := s.num lo + 2 ^ 32 * s.num (lo + 4)

/-- Store a _LO and _HI pair. -/
def State.wr64 (s : State) (lo : Nat) (v : Nat) : State := (s.wrN lo v).wrN (lo + 4) (v / 2 ^ 32)

/-- A 32-bit counter that saturates at 0xFFFF_FFFF counts `n` on. -/
def State.addCnt (s : State) (o : Nat) (n : Nat) : State := s.wrN o (min (s.num o + n) 0xFFFFFFFF)

/-- A saturating counter counts one on. -/
def State.bump (s : State) (o : Nat) : State := s.addCnt o 1

/-- Keep the highest value seen. -/
def State.maxIn (s : State) (o : Nat) (v : Nat) : State := s.wrN o (max (s.num o) v)

/-- Write 0 to each register of a list. -/
def State.zero (s : State) (os : List Nat) : State := os.foldl (fun s o => s.wr o 0) s

/-- The register offsets `o`, `o + 4`, … of `n` registers. -/
def regRange (o n : Nat) : List Nat := (List.range n).map (fun k => o + 4 * k)

/-- A path is the manager port (R386: role 2). -/
def State.isManager (s : State) : Path → Bool
  | .port p => s.get (F.HP_STS.ROLE p) == 2
  | .oob => false

/-- A path is the manager port or the out-of-band target. -/
def State.mgrOrOob (s : State) : Path → Bool
  | .oob => true
  | .port p => s.isManager (.port p)

/-- Apply an effect when a condition holds. -/
def State.when (s : State) (c : Bool) (f : State → State) : State := if c then f s else s

/-- The next free value, cut to `w` bits. -/
def State.free (s : State) (w : Nat) : Nat := Config.freeValue s.freeCtr % 2 ^ w

/-- Count a free value as drawn. -/
def State.drawn (s : State) : State := { s with freeCtr := s.freeCtr + 1 }

/-! ### Performance counters (R532–R534) -/

/-- Counter k of a page counts `n` on; it wraps at 2^48 and sets its bit of OVF (R533). -/
def State.pcAdd (s : State) (page k n : Nat) : State :=
  let v := s.num64 (R.PC_CNT page (2 * k)) + n
  let s := s.wr64 (R.PC_CNT page (2 * k)) (v % 2 ^ 48)
  if 2 ^ 48 ≤ v then s.setBit ⟨R.PC_WIN_CTL page, 8 + k, 1⟩ true else s

/-- A pulse event of Table 18.6 occurs `n` times at a page: each enabled counter that selects it counts the occurrences, or, at
level counting, the tick in which they fall. -/
def State.pcEvent (s : State) (page ev n : Nat) : State :=
  (List.range 8).foldl (fun s k =>
    if s.bit (F.PC_SEL.EN page k) && s.get (F.PC_SEL.EVENT page k) == ev &&
        (!s.bit (F.PC_SEL.WIN page k) || s.bit (F.PC_WIN_CTL.START page)) then
      if s.bit (F.PC_SEL.LEVEL page k) then { s with tst.seen := setIns (8 * page + k) s.tst.seen } else s.pcAdd page k n
    else s) s

/-- Work items of Table 18.7 that a page's block accepts and completes within one command. -/
def State.pcItem (s : State) (page : Nat) : State := (s.pcEvent page 2 1).pcEvent page 3 1

/-- A tick (R45): every page's counters of TICK, and the level counters whose event has occurred in it. -/
def State.pcTick (s : State) : State :=
  let s := s.tst.seen.foldl (fun s i => s.pcAdd (i / 8) (i % 8) 1) s
  (List.range 110).foldl (fun s p => s.pcEvent p 1 1) { s with tst.seen := [] }

/-- A block grants a lease (R509; Table 18.6, LEASE): the router's credits and slots at page 31, source-block locks at page 8, the walker's
operations at page 7, Sirocco items at page 10, program buffers at page 9, a mailbox or queue at its own page. -/
def State.leased (s : State) (page : Nat) : State := s.pcEvent page 9 1

/-- A register of a page is accessed: REGACC there, and a work item of page 0 (Table 18.6, Table 18.7). -/
def State.regAcc (s : State) (page : Nat) : State := if s.tst.quiet then s else (s.pcEvent page 8 1).pcItem 0

/-- Work items of Table 18.7 that an output begins or ends: a media command issued, a Caravan packet sent, the response to a
CXL.mem request, which the router has then released. -/
def State.pcOut (s : State) : Output → State
  | .media c _ _ => s.pcEvent (32 + c) 2 1
  | .caravan _ => s.pcEvent 11 3 1
  | .carCmd _ _ => s.pcEvent 11 3 1
  | .memData (.host p _) _ _ => (s.pcEvent (12 + p) 3 1).pcEvent 31 3 1
  | .memDone (.host p _) => (s.pcEvent (12 + p) 3 1).pcEvent 31 3 1
  | _ => s

/-- Record what leaves the block. -/
def State.emit (s : State) (o : Output) : State := { s with out := s.out ++ [o] }.pcOut o

/-! ### Checks of the published kind -/

/-- One step of a CRC that shifts right: the register after a byte's bit. -/
def crcBitR (poly : Nat) (c : Nat) : Nat := if c % 2 = 1 then (c / 2) ^^^ poly else c / 2

/-- CRC-32C over bytes (Castagnoli, reflected, initial value and final XOR all ones). -/
def crc32c (bytes : List Nat) : Nat :=
  (bytes.foldl (fun c b => (List.range 8).foldl (fun c _ => crcBitR 0x82F63B78 c) (c ^^^ b % 256))
    0xFFFFFFFF) ^^^ 0xFFFFFFFF

/-- The four bytes of a word, lowest first (R9). -/
def wordBytes (w : Word) : List Nat :=
  [w.toNat % 256, w.toNat / 256 % 256, w.toNat / 65536 % 256, w.toNat / 16777216]

/-- One bit of a CRC-16 that shifts left with polynomial 0x1021. -/
def crc16Bit (c : Nat) : Nat := if c ≥ 0x8000 then (c * 2 % 65536) ^^^ 0x1021 else c * 2

/-- CRC-16/CCITT of R487: polynomial 0x1021, initial value 0xFFFF, no reflection, no final XOR. -/
def crc16 (bytes : List Nat) : Nat :=
  bytes.foldl (fun c b => (List.range 8).foldl (fun c _ => crc16Bit c) (c ^^^ (b % 256 * 256))) 0xFFFF

/-! ### The parameter store's contents -/

/-- An erased word (R468). -/
def erasedWord : Word := 0xFFFFFFFF

/-- Word `n` of row `r` (R468). -/
def State.pstWord (s : State) (r n : Nat) : Word := sget erasedWord s.pst.words (64 * r + n)

/-- Row in which nothing is programmed. -/
def State.rowErased (s : State) (r : Nat) : Bool :=
  (List.range 64).all (fun n => s.pstWord r n == erasedWord)

/-- Erase a row. -/
def State.eraseRow (s : State) (r : Nat) : State :=
  { s with pst.words := skeep s.pst.words (fun a => a / 64 != r) }

/-- First of the two rows of spread counter i (Table 16.1). -/
def counterRow (i : Nat) : Nat := 1024 + 2 * i

/-- First of the two rows of record area j (Table 16.1). -/
def areaRow (j : Nat) : Nat := 1056 + 2 * j

/-- First of the two rows of configuration record r (Table 16.1). -/
def configRow (r : Nat) : Nat := 1446 + 2 * r

/-- First of the two rows of anchor record a (Table 16.1). -/
def anchorRow (a : Nat) : Nat := 1462 + 2 * a

/-- Width in words of the cells of a record area (Table 16.4). -/
def areaWidth (j : Nat) : Nat :=
  if j ≤ 3 then 1 else if j = 4 ∨ j = 6 ∨ j = 9 ∨ j = 13 then 2 else if j = 5 then 5
  else if j = 7 ∨ j = 8 then 11 else if j ≤ 12 then 49 else if 16 ≤ j ∧ j ≤ 31 then 6
  else if 32 ≤ j ∧ j ≤ 47 then 3 else 1

/-- What orders the cells of an area: VALUE of a counter, GEN of any other cell (R477, Table 16.2). -/
def cellKey (status : Bool) (last : Word) : Nat :=
  if status then last.toNat / 16 % 2 ^ 24 else last.toNat % 2 ^ 28

/-- The words of the cell at a position. -/
def State.cellWords (s : State) (row pos w : Nat) : List Word :=
  (List.range w).map (fun k => s.pstWord row (pos * w + k))

/-- A cell is valid when MARK reads 0b0101 and, for a 64-word cell, CRC-32C matches (R476). -/
def State.cellValid (s : State) (row pos w : Nat) : Bool :=
  (s.pstWord row (pos * w + w - 1)).toNat / 2 ^ 28 == 5 &&
    (w != 64 || crc32c (((List.range 62).map (s.pstWord row)).flatMap wordBytes) ==
      (s.pstWord row 62).toNat)

/-- The cells of a pair of rows: row and position. -/
def cellPlaces (base w : Nat) : List (Nat × Nat) :=
  (List.range (64 / w)).map (fun p => (base, p)) ++ (List.range (64 / w)).map (fun p => (base + 1, p))

/-- The cell in force of a pair of rows: its key, row and position (R477). -/
def State.cellInForce (s : State) (base w : Nat) (status : Bool) : Option (Nat × Nat × Nat) :=
  (cellPlaces base w).foldl (fun best (rp : Nat × Nat) =>
    if s.cellValid rp.1 rp.2 w then
      let key := cellKey status (s.pstWord rp.1 (rp.2 * w + w - 1))
      match best with
      | none => some (key, rp.1, rp.2)
      | some b => if b.1 < key then some (key, rp.1, rp.2) else best
    else best) none

/-- Value of spread counter i (R477). -/
def State.counter (s : State) (i : Nat) : Nat :=
  match s.cellInForce (counterRow i) 1 false with
  | none => 0
  | some b => b.1

/-- Value of a status word, `none` when the area is empty (R476, R481). -/
def State.statusWord (s : State) (area : Nat) : Option Nat :=
  (s.cellInForce (areaRow area) 1 true).map (fun b => (s.pstWord b.2.1 b.2.2).toNat % 16)

/-- The data words of a record area in force (without the last word), `none` when it is empty. -/
def State.recordOf (s : State) (area : Nat) : Option (List Word) :=
  (s.cellInForce (areaRow area) (areaWidth area) false).map
    (fun b => (s.cellWords b.2.1 b.2.2 (areaWidth area)).take (areaWidth area - 1))

/-- The 62 data words of a configuration record in force. -/
def State.configOf (s : State) (r : Nat) : Option (List Word) :=
  (s.cellInForce (configRow r) 64 false).map (fun b => (s.cellWords b.2.1 0 64).take 62)

/-! ### The parameter store's operations -/

/-- Place of a job in the order of R473. -/
def PstJob.rank : PstJob → Nat
  | .counterInc _ | .counterTo _ _ => 1
  | .window _ _ => 2
  | .status _ _ | .record _ _ | .config _ _ _ | .anchor _ _ | .userErase _ => 3
  | .ledger _ => 5
  | .pingPong _ => 6
  | .restore _ => 7
  | .rescue _ => 0

/-- A job erases and programs nothing by itself. -/
def PstJob.isErase : PstJob → Bool
  | .userErase _ | .pingPong _ => true
  | _ => false

/-- Where the next cell of an area goes: row, position, row to be erased first, and the key of the cell in
force (R477, R478). -/
def State.nextCell (s : State) (base w : Nat) (status : Bool) : Nat × Nat × Option Nat × Nat :=
  match s.cellInForce base w status with
  | none => (base, 0, if s.rowErased base then none else some base, 0)
  | some (key, row, _) =>
    let used := (List.range 64).foldl (fun m n => if s.pstWord row n == erasedWord then m else n + 1) 0
    let pos := (used + w - 1) / w
    if (pos + 1) * w ≤ 64 then (row, pos, none, key)
    else
      let spare := base + (base + 1 - row)
      (spare, 0, if s.rowErased spare then none else some spare, key)

/-- The last word of a cell: MARK over the key (Table 16.2). -/
def markWord (v : Nat) : Word := BitVec.ofNat 32 (5 * 2 ^ 28 + v % 2 ^ 28)

/-- Lay out a cell of data words and its last word. -/
def layCell (row pos : Nat) (data : List Word) (last : Word) : List (Nat × Word) :=
  let ws := data ++ [last]
  ws.zipIdx.map (fun (x : Word × Nat) => (64 * row + pos * ws.length + x.2, x.1))

/-- Pad or cut a list of words. -/
def padWords (n : Nat) (l : List Word) : List Word := (l ++ List.replicate n 0).take n

/-- The slot of the age ledger that the next entry takes, in ring order (R485). -/
def State.ledgerNext (s : State) : Nat :=
  let best := (List.range 2058).foldl (fun (b : Option (Nat × Nat)) e =>
    let r := 1152 + e / 7
    let n := 9 * (e % 7)
    if (s.pstWord r (n + 8)).toNat / 2 ^ 28 == 5 then
      let key := (s.pstWord r n).toNat
      match b with
      | none => some (key, e)
      | some x => if x.1 < key then some (key, e) else b
    else b) none
  match best with
  | none => 0
  | some x => (x.2 + 1) % 2058

/-- The programs of laid-out words. -/
def progs (l : List (Nat × Word)) : List PstStep := l.map (fun x => .program x.1 x.2)

/-- The erase that a cell needs first, if any. -/
def preErase : Option Nat → List PstStep
  | none => []
  | some r => [.erase r]

/-- The programs of a new cell at its place, after the erase of the spare where it is needed (R478). -/
def State.cellSteps (s : State) (base : Nat) (data : List Word) (status : Bool) (last : Nat → Nat) : List PstStep :=
  let c := s.nextCell base (data.length + 1) status
  preErase c.2.2.1 ++ progs (layCell c.1 c.2.1 data (markWord (last c.2.2.2)))

/-- The 64-word cell of a configuration or anchor record (Table 16.2). -/
def crcCell (d : List Word) : List Word :=
  let ws := padWords 62 d
  ws ++ [BitVec.ofNat 32 (crc32c (ws.flatMap wordBytes))]

/-- Base row, cell width and whether it is a status word, of the spread-cell area that holds a row (Table 16.1). -/
def rowArea (r : Nat) : Option (Nat × Nat × Bool) :=
  if 1024 ≤ r ∧ r ≤ 1055 then some (r - r % 2, 1, false)
  else if 1056 ≤ r ∧ r ≤ 1151 then
    some (r - r % 2, areaWidth ((r - 1056) / 2), decide ((r - 1056) / 2 ≤ 3))
  else if 1446 ≤ r ∧ r ≤ 1547 then some (r - r % 2, 64, false)
  else none

/-- The programmed words of a row, as programs of another row. -/
def State.copyRow (s : State) (src dst : Nat) : List PstStep :=
  ((List.range 64).filter (fun n => s.pstWord src n != erasedWord)).map
    (fun n => .program (64 * dst + n) (s.pstWord src n))

/-- Row 1,549's word 0: the row under restore and MARK (R484). -/
def rescueMark (r : Nat) : Word := BitVec.ofNat 32 (r % 2048 + 5 * 2 ^ 28)

/-- The restore of a weak row (R484): a spread-cell area writes its content in force at position 0 of the spare and
erases the weak row; a Roll book or ledger row goes through the rescue rows. -/
def State.restoreSteps (s : State) (r : Nat) : List PstStep :=
  match rowArea r with
  | some (base, w, status) =>
    match s.cellInForce base w status with
    | none => [.erase r]
    | some (key, row, pos) =>
      let spare := base + (base + 1 - row)
      let ws := (s.cellWords row pos w).take (w - 1)
      let key' := if base < 1056 then key else key + 1
      let last := if status then key' % 2 ^ 24 * 16 + (s.pstWord row (pos * w + w - 1)).toNat % 16 else key'
      (if s.rowErased spare then [] else [.erase spare]) ++ progs (layCell spare 0 ws (markWord last)) ++ [.erase r]
  | none =>
    s.copyRow r 1548 ++ [.program (64 * 1549) (rescueMark r), .erase r] ++ s.copyRow r r ++
      [.erase 1548, .erase 1549]

/-- What a job erases and programs, laid out when it starts. -/
def State.planJob (s : State) : PstJob → List PstStep
  | .counterInc i =>
    if s.counter i ≥ 2 ^ 28 - 1 then [] else s.cellSteps (counterRow i) [] false (fun _ => s.counter i + 1)
  | .counterTo i v =>
    if v ≤ s.counter i then [] else s.cellSteps (counterRow i) [] false (fun _ => min v (2 ^ 28 - 1))
  | .status a v => s.cellSteps (areaRow a) [] true (fun g => (g + 1) % 2 ^ 24 * 16 + v % 16)
  | .record a d => s.cellSteps (areaRow a) (padWords (areaWidth a - 1) d) false (fun g => g + 1)
  | .config r d _ => s.cellSteps (configRow r) (crcCell d) false (fun g => g + 1)
  | .anchor r d => s.cellSteps (anchorRow r) (crcCell d) false (fun g => g + 1)
  | .window a w => [.program a w]
  | .userErase r => [.erase r]
  | .pingPong r => [.erase r]
  | .restore r => s.restoreSteps r
  | .rescue r => (if s.rowErased r then [] else [.erase r]) ++ s.copyRow 1548 r ++ [.erase 1548, .erase 1549]
  | .ledger d =>
    let e := s.ledgerNext
    let r := 1152 + e / 7
    (if e % 7 = 0 ∧ !s.rowErased r then [.erase r] else []) ++
      progs ((padWords 9 d).zipIdx.map (fun (x : Word × Nat) => (64 * r + 9 * (e % 7) + x.2, x.1)))

/-- The first operation of the lowest rank, and the others (R473). -/
def pickOp : List PstOp → Option (PstOp × List PstOp)
  | [] => none
  | o :: t =>
    match pickOp t with
    | none => some (o, t)
    | some (b, t') => if b.job.rank < o.job.rank then some (b, o :: t') else some (o, t)

/-- Both conditions of R471 hold for the readings of the next check. -/
def State.supplyGood (s : State) : Bool :=
  decide (s.num R.PST_AUX_MIN * 10 ≤ s.pst.auxMv) && decide (2800 ≤ s.pst.capMv)

/-- Store the readings of a supply check in PST_SUPPLY (Table 16.7). -/
def State.supplyLatch (s : State) : State :=
  (s.set F.PST_SUPPLY.STORE_CAP s.pst.capMv).set F.PST_SUPPLY.AUX_3V3 s.pst.auxMv

/-- Make the supply check of the operation at the front and start it, or leave it failing (R471, R472). -/
def State.pstCheck (s : State) : State :=
  match s.pst.cur with
  | none => s.setBit F.PST_STS.BUSY false
  | some _ =>
    let s := s.supplyLatch
    if s.supplyGood then
      { (s.setBit F.PST_STS.SUPPLY_LOW false).setBit F.PST_STS.BUSY true with pst.failing := false }
    else { s.setBit F.PST_STS.BUSY false with pst.failing := true }

/-- Row that a step touches. -/
def PstStep.row : PstStep → Nat
  | .program a _ => a / 64
  | .erase r => r

/-- Row of the step in progress. -/
def State.pstBusyRow (s : State) : Option Nat :=
  match s.pst.cur with
  | none => none
  | some o => if s.pst.failing then none else o.steps.head?.map PstStep.row

/-- Answer the data-window reads whose row has no program or erase in progress (R475). -/
def State.pstAnswer (s : State) : State :=
  let ready := s.pst.reads.filter (fun r => s.pstBusyRow != some (r.2.2 / 64))
  let left := s.pst.reads.filter (fun r => s.pstBusyRow == some (r.2.2 / 64))
  ready.foldl (fun s r => s.emit (.regRead r.1 r.2.1 (sget erasedWord s.pst.words r.2.2)))
    { s with pst.reads := left }

/-- Take the next operation when none is in progress, lay it out and check the supply (R473). A job that has no step
is dropped, at most `n` of them. -/
def State.pstNextN : Nat → State → State
  | 0, s => s
  | n + 1, s =>
    match s.pst.cur with
    | some _ => s
    | none =>
      match pickOp s.pst.queue with
      | none => (s.setBit F.PST_STS.BUSY false).pstAnswer
      | some (o, rest) =>
        let steps := if o.planned then o.steps else s.planJob o.job
        if steps.isEmpty then State.pstNextN n { s with pst.queue := rest }
        else
          { s with pst.cur := some { o with steps := steps, planned := true }
                   pst.queue := rest }.pstCheck.pstAnswer

/-- Take the next operation of the store (R473). -/
def State.pstNext (s : State) : State := s.pstNextN (s.pst.queue.length + 1)

/-- Request an operation of the store. A program that waits suspends an erase in progress (R469). -/
def State.pstAdd (s : State) (j : PstJob) : State :=
  let op : PstOp := ⟨j, [], false, false⟩
  let s := { s with pst.queue := s.pst.queue ++ [op] }.pcEvent 4 2 1
  match s.pst.cur with
  | none => s.pstNext
  | some c =>
    if c.job.isErase && !j.isErase && decide (j.rank < c.job.rank) then
      { s with pst.cur := none, pst.queue := c :: s.pst.queue }.pstNext
    else s

/-! ### The Roll book -/

/-- OP_SECONDS of a record (Table 16.5). -/
def State.opSeconds (s : State) : Nat := s.counter 1 * 360 + s.opSecs

/-- FLAGS of a record: core domain out of service; PHASE SHUTDOWN, DRAIN or DOWN (Table 16.5). -/
def State.rbFlags (s : State) : Nat :=
  (if s.coreUp then 0 else 1) +
    (if s.get F.PSQ_STS.PHASE = 3 ∨ s.get F.PSQ_STS.PHASE = 4 ∨ s.get F.PSQ_STS.PHASE = 5 then 2 else 0)

/-- The record of an event that enters the queue now. -/
def State.rbRecord (s : State) (e : RbEvent) (rep : Option Nat) (snap : Bool) : RbRec :=
  ⟨e, s.opSeconds, s.counter 0, s.rbFlags, rep, snap⟩

/-- Close the open record with REPEAT = RB_OPEN_REPEAT (R489). -/
def State.rbClose (s : State) : State :=
  match s.rb.opened with
  | none => s
  | some (_, some slot) =>
    { s.setBit F.RB_STS.OPEN false with rb.opened := none, rb.closing := some (slot, s.num R.RB_OPEN_REPEAT) }
  | some (_, none) =>
    let n := s.num R.RB_OPEN_REPEAT
    { s.setBit F.RB_STS.OPEN false with
        rb.opened := none
        rb.queue := s.rb.queue.map (fun r => if r.rep.isNone then { r with rep := some n } else r) }

/-- Free slots of the book that no queued record will take. -/
def State.rbFree (s : State) : Nat := 8192 - s.num R.RB_COUNT - s.rb.queue.length

/-- RB_STS.QUEUE follows the queue. -/
def State.rbCountQueue (s : State) : State := s.set F.RB_STS.QUEUE s.rb.queue.length

/-- An event that carries no snapshot enters the Roll book (R489, R490). -/
def State.rbEvent (s : State) (e : RbEvent) : State :=
  if s.rb.opened.any (fun o => o.1 == { e with sev := o.1.sev }) then
    let s := s.addCnt R.RB_OPEN_REPEAT 1
    if s.num R.RB_OPEN_REPEAT ≥ 65535 then s.rbClose else s
  else if s.rb.queue.length ≥ 64 ∨ s.rbFree = 0 then s.bump R.RB_DROPPED
  else
    let s := s.rbClose
    { (s.wrN R.RB_OPEN_REPEAT 1).setBit F.RB_STS.OPEN true with
        rb.queue := s.rb.queue ++ [s.rbRecord e none false]
        rb.opened := some (e, none) }.rbCountQueue.pcEvent 5 2 1

/-- An event of Table 16.6 with its parameters as numbers; `src` is the raising block's source. -/
def State.roll (s : State) (code sev src p0 p1 p2 : Nat) : State :=
  s.rbEvent ⟨code, sev, src, BitVec.ofNat 32 p0, BitVec.ofNat 32 p1, BitVec.ofNat 32 p2⟩

/-- An event with a snapshot of eight records (R443, R489, R490): it never merges; the snapshot needs eight free
entries and slots and otherwise counts 8 as dropped. -/
def State.rbEventSnap (s : State) (e : RbEvent) (snap : List RbEvent) : State :=
  let s :=
    if s.rb.queue.length ≥ 64 ∨ s.rbFree = 0 then s.bump R.RB_DROPPED
    else
      let s := s.rbClose
      { (s.wrN R.RB_OPEN_REPEAT 1).setBit F.RB_STS.OPEN true with
          rb.queue := s.rb.queue ++ [s.rbRecord e none false]
          rb.opened := some (e, none) }
  (if s.rb.queue.length + 8 > 64 ∨ s.rbFree < 8 then s.addCnt R.RB_DROPPED 8
   else
     let s := s.rbClose
     { s with rb.queue := s.rb.queue ++ snap.map (fun x => s.rbRecord x (some 1) true) }.pcEvent 5 2 8).rbCountQueue

/-! ### Faults -/

/-- Classes of Table 17.1. -/
inductive FcClass where
  | a | c | f | p
  deriving DecidableEq, Repr

/-- Class of a source (Table 17.1). -/
def srcClass (n : Nat) : FcClass :=
  if n ≤ 5 then .a else if n ≤ 9 then .c else if n ≤ 19 then .f else if n ≤ 31 then .c
  else if n ≤ 95 then .f else if n ≤ 99 then .p else if n ≤ 108 then .f else if n ≤ 114 then .c
  else if n ≤ 119 then .f else if n = 120 then .c else if n ≤ 123 then .a else .c

/-- Code of a class in FC_SRC_INFO (Table 17.14). -/
def FcClass.code : FcClass → Nat
  | .a => 0 | .c => 1 | .f => 2 | .p => 3

/-- Page and sub-index of a source (Table 17.1). -/
def srcPage (n : Nat) : Nat × Nat :=
  if n ≤ 109 then (n, 0) else if n ≤ 114 then (n - 110 + 26, 1) else if n ≤ 119 then (n - 115 + 26, 2)
  else if n = 120 then (3, 1) else if n = 121 then (0, 1) else if n = 122 then (2, 1)
  else if n = 123 then (6, 1) else (6, 2)

/-- Source of a page's sub-index, `none` where Table 17.1 has none. -/
def pageSrc (page sub : Nat) : Option Nat :=
  (List.range 125).find? (fun n => srcPage n == (page, sub))

/-- Sources whose page lies in the AON domain (R495). -/
def aonSrc (n : Nat) : Bool := decide (n = 0) || (decide (2 ≤ n) && decide (n ≤ 5)) || n == 121 || n == 122

/-- The source's part of the collector. -/
def State.fcSrc (s : State) (n : Nat) : FcSrc := sget FcSrc.idle s.fc.src n

/-- The source's block is fenced (R506). -/
def State.fencedSrc (s : State) (n : Nat) : Bool := (s.fcSrc n).fenced

/-- Change the source's part of the collector. -/
def State.fcMod (s : State) (n : Nat) (f : FcSrc → FcSrc) : State :=
  { s with fc.src := smod FcSrc.idle s.fc.src n f }

/-- A block that is not returned by FC_UNFENCE comes back as Table 17.6 states for it (R507). -/
def State.unfence (s : State) (n : Nat) : State := s.fcMod n (fun x => { x with fenced := false, revoked := false })

/-- The reset of a page ends the wire faults of its sources (R498). -/
def State.wireEnd (s : State) (page : Nat) : State :=
  let ends := s.fc.src.map (fun (x : Nat × FcSrc) => if (srcPage x.1).1 = page then (x.1, { x.2 with wire := false, word := none }) else x)
  { s with fc.src := ends.filter (fun (x : Nat × FcSrc) => x.2 != FcSrc.idle) }

/-- Set or clear bit n of a bank of bit registers such as FC_SEEN (Table 17.10). -/
def State.bankBit (s : State) (bank n : Nat) (b : Bool) : State :=
  s.setBit ⟨bank + 4 * (n / 32 % 4), n % 32, 1⟩ b

/-- Kind codes of Table 17.4. -/
def Kind.CE : Nat := 0
def Kind.UE : Nat := 1
def Kind.PARITY : Nat := 2
def Kind.PTR : Nat := 3
def Kind.LINK : Nat := 4
def Kind.TIMEOUT : Nat := 5
def Kind.CHECK : Nat := 6
def Kind.STALL : Nat := 7
def Kind.SUPPLY : Nat := 8
def Kind.EXT : Nat := 9
def Kind.STATE : Nat := 10
def Kind.INJECT : Nat := 11
def Kind.WIRE : Nat := 12
def Kind.LIMIT : Nat := 13

/-- The Roll book record of a fault (R501). -/
def fltEvent (f : Flt) (p1 p2 : Nat) : RbEvent :=
  ⟨0x0C00 + f.src, f.sev, f.src, BitVec.ofNat 32 (f.kind % 16 + f.detail % 2 ^ 24 * 256), BitVec.ofNat 32 p1,
    BitVec.ofNat 32 p2⟩

/-- A kind that FLT_MASK keeps from being raised (Table 17.3): severities 0 and 1, never INJECT. -/
def State.fltMasked (s : State) (f : Flt) : Bool :=
  decide (f.sev ≤ 1) && f.kind != Kind.INJECT &&
    s.bit ⟨R.FLT_MASK (srcPage f.src).1, f.kind, 1⟩

/-- FLT_STS takes the kind's bit (Table 17.3). -/
def State.fltSts (s : State) (f : Flt) : State :=
  s.setBit ⟨R.FLT_STS (srcPage f.src).1, f.kind, 1⟩ true

/-- A reason to drive ALERT_N low (R591): an active severity-3 fault, or, in SMBus mode, a reply waiting in an I3C-path queue with
IRQ_EN set. -/
def State.alertCause (s : State) : Bool :=
  s.fc.src.any (fun (x : Nat × FcSrc) => x.2.sev == 3) ||
    (!s.boot.i3c && (List.range 8).any (fun q =>
      s.get (F.MQ_CFG.PATH q) == 1 && s.bit (F.MQ_CTL.IRQ_EN q) && decide (0 < s.get (F.MQ_PKTS.UP q))))

/-- ALERT_N follows its causes (R591). -/
def State.alertShow (s : State) : State :=
  if s.alertCause == s.boot.alert then s
  else { s.emit (.pin .alertN (if s.alertCause then some false else none)) with boot.alert := s.alertCause }

/-- The collector takes one fault that is not masked: FC_SEEN, the severity's counter, FLT_DETAIL, the record of
severity FC_CTL.RB_MIN and above, and the escalation timer (R501, R503). `aff` is PARAM2 of a wire fault. -/
def State.fltTake (s : State) (f : Flt) (aff : Nat) : State :=
  let pg := srcPage f.src
  let s := (s.pcEvent pg.1 7 1).pcItem 1
  let s := (s.bankBit (R.FC_SEEN 0) f.src true).bump (R.FC_CNT_SEV f.sev)
  let s := s.wrN (R.FLT_DETAIL pg.1) (f.kind % 16 + f.sev % 4 * 16 + pg.2 % 4 * 64 + f.detail % 2 ^ 24 * 256)
  let s := s.when (decide (s.get F.FC_CTL.RB_MIN ≤ f.sev)) (fun s => s.rbEvent (fltEvent f 0 aff))
  if f.sev ≥ 2 ∧ (s.fcSrc f.src).sev < f.sev then
    let t := if f.sev = 2 then s.num R.FC_ESC_T2 else s.num R.FC_ESC_T3
    ((s.fcMod f.src (fun x => { x with
      sev := f.sev, kind := f.kind, detail := f.detail, acked := false, timer := some t, timerAt := s.tick.toNat })).bankBit
      (R.FC_ACTIVE 0) f.src true).alertShow
  else s

/-- A stronger arrival under R502: higher severity, then lower source number. -/
def fltBefore (a b : Flt) : Bool := decide (b.sev < a.sev) || (a.sev == b.sev && decide (a.src < b.src))

/-- The first of a window's faults under R502. -/
def fltFirst : List Flt → Option Flt
  | [] => none
  | f :: t =>
    match fltFirst t with
    | none => some f
    | some g => if fltBefore g f then some g else some f

/-- FC_FIRST and FC_FIRST_TICK take the first fault of severity 1 or above (R502). -/
def State.fltFirstTake (s : State) (fs : List Flt) : State :=
  match fltFirst (fs.filter (fun f => decide (1 ≤ f.sev))) with
  | none => s
  | some f =>
    if s.bit F.FC_FIRST.VALID then s
    else
      let second := fltFirst (fs.filter (fun g => g.src != f.src))
      ((s.wrN R.FC_FIRST (f.src % 256 + f.sev % 4 * 256 + (if second.isSome then 1024 else 0) + 2048 +
        f.kind % 16 * 4096 + (match second with | none => 0 | some g => g.src % 256 * 65536)))).wr64
        R.FC_FIRST_TICK_LO s.tick.toNat

/-- One arbitration window of the collector (R501, R502): the faults of reserved sources are none (R494); those of
sources in wire fault wait for the next poll (R498); while the core domain is out of service the AON domain
records the faults of its own sources and keeps them for FC_SEEN, and no other block runs (R495). -/
def State.raiseWindow (s : State) (fs : List Flt) : State :=
  let fs := fs.filter (fun f => decide (f.src ≤ 124))
  if s.coreUp then
    let wired := fs.filter (fun f => (s.fcSrc f.src).wire)
    let s := wired.foldl (fun s f => s.fcMod f.src (fun x => { x with word := some f })) s
    let fs := fs.filter (fun f => !(s.fcSrc f.src).wire)
    let live := fs.filter (fun f => !s.fltMasked f)
    let s := fs.foldl State.fltSts s
    let s := s.fltFirstTake live
    live.foldl (fun s f => s.fltTake f 0) s
  else
    (fs.filter (fun f => aonSrc f.src)).foldl
      (fun s f => { s.rbEvent (fltEvent f 0 0) with fc.aonSeen := setIns f.src s.fc.aonSeen }) s

/-- A block raises a fault whose 24-bit detail its chapter does not give: a free value. -/
def State.raise (s : State) (src sev kind : Nat) : State :=
  s.drawn.raiseWindow [⟨src, sev, kind, s.free 24⟩]

end Sys2Proof.Machine
end

