-- ==== Sys2Proof/Machine/LinkOps.lean ====
section
/-! DEFINITION. What leaves on Caravan under credits, and the dirty-tile bitmap: the operations that the data path shares with the
twin pair (11_twin_pair.md R337, R341–R344, R357). -/

set_option autoImplicit false

namespace Sys2Proof.Machine

/-! ### Caravan -/

/-- A packet leaves on Caravan while the link is up. -/
def State.car (s : State) (typ tag : Nat) (words : List Nat) : State :=
  if s.bit F.CAR_STS.LINK_UP then s.emit (.caravan ⟨typ, tag, words⟩) else s

/-- A packet has arrived from Caravan (Table 18.7). -/
def State.carGot (s : State) : State := s.when (s.bit F.CAR_STS.LINK_UP) (fun s => s.pcEvent 11 2 1)

/-- A credited packet leaves once a credit of its class is held, in order within the class (R343, R344). -/
def State.carSend (s : State) (k : Nat) (o : Output) : State :=
  if s.bit F.CAR_STS.LINK_UP then
    if 0 < sget 0 s.tw.cred k ∧ !(s.tw.waits.any (fun w => w.1 == k)) then
      { s.emit o with tw.cred := smod 0 s.tw.cred k (fun n => n - 1) }
    else { s with tw.waits := s.tw.waits ++ [(k, o)] }
  else s

/-- Credits return from the twin, and packets that waited leave (R343). -/
def State.carCredits (s : State) (f m p r : Nat) : State :=
  let add := fun (c : Sparse Nat) (x : Nat × Nat) => smod 0 c x.1 (fun n => n + x.2)
  let w := s.tw.waits
  let s := { s with tw.cred := [(0, f), (1, m), (2, p), (3, r)].foldl add s.tw.cred, tw.waits := [] }
  w.foldl (fun s (x : Nat × Output) => s.carSend x.1 x.2) s

/-- CRD returns credits to the twin (Table 11.4); nothing is sent for none. -/
def State.crd (s : State) (f m p r : Nat) : State := if f + m + p + r = 0 then s else s.car 0x04 0 [f, m, p, r]

/-- Share of a pool at the applied admission level (Table 1.6). -/
def poolShare (pool lvl : Nat) : Nat := pool * (4 - lvl) / 4

/-- Class-F credits that the twin may hold at the applied level (R42). -/
def State.fwdShare (s : State) : Nat := poolShare s.rt.fwdPool (s.get F.RT_STS.APPLIED_LVL)

/-- A class-F credit returns, unless the applied level keeps it back (R42). -/
def State.fwdReturn (s : State) : State :=
  if s.fwdShare < s.tw.fwdOut then { s with tw.fwdOut := s.tw.fwdOut - 1 } else s.crd 1 0 0 0

/-- A lower level grants class-F credits again (R42). -/
def State.fwdGrant (s : State) : State :=
  if s.tw.hello.isSome && decide (s.tw.fwdOut < s.fwdShare) then
    { s.crd (s.fwdShare - s.tw.fwdOut) 0 0 0 with tw.fwdOut := s.fwdShare }
  else s

/-- The pair is attached, no failover runs, and the twin has been admitted: writes and commands are mirrored (R337, R359). -/
def State.mirroring (s : State) : Bool := s.bit F.CAR_STS.PAIRED && s.tw.admitted

/-- The link to an admitted twin stands: packets can be exchanged with it. -/
def State.twinUp (s : State) : Bool := s.mirroring && !s.bit F.CAR_STS.FAILOVER

/-- Send a line to the twin as an MWR on a mirror credit (R134, R135); during a failover it waits with the others. -/
def State.sendMwr (s : State) (line : Nat) (d : Line) (poison : Bool) : Nat × State :=
  let q := s.tw.mirSeq
  let s := { s with tw.mirSeq := q + 1, tw.mwr := s.tw.mwr ++ [(q, line)] }
  (q, if s.twinUp then (s.bump R.CAR_MIR_CNT).carSend 1 (.caravan ⟨0x20, q, [poison.toNat, line, d.toNat]⟩) else s)

/-! ### The dirty-tile bitmap and the fence list (R357, R358) -/

/-- CAR_BMAP_LO and CAR_BMAP_HI count the bits set. -/
def State.bmapShow (s : State) : State :=
  (s.wrN R.CAR_BMAP_LO s.tw.bmap.length).wrN R.CAR_BMAP_HI (s.tw.bmap.length / 2 ^ 32 % 2)

/-- Set a tile's bit. -/
def State.bmapSet (s : State) (t : Nat) : State :=
  if s.tw.bmapOn then { s with tw.bmap := setIns t s.tw.bmap }.bmapShow else s

/-- A tile enters the fence list; on overflow the list becomes invalid (R358). -/
def State.flistAdd (s : State) (t : Nat) : State :=
  if s.tw.flist.contains t then s
  else if s.tw.flist.length ≥ 65536 then { s.setBit F.CAR_STS.FLIST_VALID false with tw.flist := [] }
  else if s.bit F.CAR_STS.FLIST_VALID then { s with tw.flist := setIns t s.tw.flist } else s

/-- A discard or poison command has touched a tile: its bit, and while fenced the fence list. -/
def State.touched (s : State) (t : Nat) : State :=
  let s := s.bmapSet t
  if s.bit F.CAR_STS.FENCED then s.flistAdd t else s

end Sys2Proof.Machine
end

