-- ==== Sys2Proof/Machine/BudgetOps.lean ====
section
/-! DEFINITION. The device's states, request credits and the dirty budget as operations over the state (02_memory_model.md R64, R73;
03_read_path.md R89, R106; 04_write_path_and_dirty_budget.md R120–R130, R135; 20_mode_combinations.md R564, R565). -/

set_option autoImplicit false

namespace Sys2Proof.Machine

/-! ### Device state (R73, R564, R565) -/

/-- Draining: PHASE SHUTDOWN or DRAIN, or the drain of a containment. -/
def State.draining (s : State) : Bool :=
  s.get F.PSQ_STS.PHASE == 3 || s.get F.PSQ_STS.PHASE == 4 || (s.bit F.FC_STS.CONTAINING && !s.bit F.FC_STS.HELD)

/-- Booting: Memory_Active 0, or held after containments. -/
def State.booting (s : State) : Bool := !s.memActive || s.bit F.FC_STS.HELD

/-- Fenced (R353). -/
def State.fenced (s : State) : Bool := s.bit F.CAR_STS.FENCED

/-- Read-only: CRITICAL, SEQ_RO, or not returned to read-write since (R74, R229). -/
def State.roState (s : State) : Bool := s.te.readOnly || s.bit F.TE_UPK_STS.CRITICAL || s.bit F.TE_STS.SEQ_RO

/-- Degraded: a die is retired, or FC_STS.DEGRADED. -/
def State.degraded (s : State) : Bool := s.bit F.TE_UPK_STS.DIE_RETIRED || s.bit F.FC_STS.DEGRADED

/-- The device state: the condition of the lowest rank held (R564), by its code in DEV_MODE: 0 booting, 1 ready, 2 degraded,
3 read-only, 4 fenced, 5 draining. -/
def State.devState (s : State) : Nat :=
  if s.draining then 5 else if s.booting then 0 else if s.fenced then 4 else if s.roState then 3 else if s.degraded then 2 else 1

/-! ### The dirty budget (R120–R125) -/

/-- The dirty count (R120). -/
def State.dirty (s : State) : Nat := s.num R.TS_DIRTY_LO + 2 ^ 32 * (s.num R.TS_DIRTY_HI % 256)

/-- Store the dirty count. -/
def State.setDirty (s : State) (n : Nat) : State := (s.wrN R.TS_DIRTY_LO n).wrN R.TS_DIRTY_HI (n / 2 ^ 32 % 256)

/-- The budget in force (R122). -/
def State.budgetInForce (s : State) : Nat :=
  let cap := s.num R.TS_DB_CAP_LO + 2 ^ 32 * (s.num R.TS_DB_CAP_HI % 256)
  let b := min s.te.budget cap
  if s.bit F.TE_STS.SEQ_WARN then min b (2 ^ 20) else b

/-- The guard G of R122, from the sizes in force. -/
def State.guardG (s : State) : Nat := s.rt.rwdPool.foldl (· + ·) 0 + s.rt.fwdPool + s.rt.mirPool

/-- The hold mark. -/
def State.holdMark (s : State) : Nat := s.budgetInForce - s.guardG

/-- The pressure mark. -/
def State.pressMark (s : State) : Nat := s.budgetInForce * (s.num R.TS_DB_PRESS % 128) / 100

/-- Where pressure ends: 5 points of the budget below. -/
def State.pressEnd (s : State) : Nat := s.budgetInForce * (s.num R.TS_DB_PRESS % 128 - 5) / 100

/-- No dirty charge beyond the mark: the hold of R123. -/
def State.holding (s : State) : Bool := decide (s.holdMark ≤ s.dirty)

/-! ### Slots as the budget sees them (R126–R130) -/

/-- A slot line is Dirty, Flight or Flight-dirty. -/
def Slot.anyCounted (x : Slot) : Bool := x.st.any (fun e => decide (2 ≤ e.2))

/-- A slot holds a Dirty line (R130). -/
def Slot.anyDirty (x : Slot) : Bool := x.st.any (fun e => e.2 == 2 || e.2 == 4)

/-- A slot has a program in flight. -/
def Slot.inFlight (x : Slot) : Bool := x.st.any (fun e => e.2 == 3 || e.2 == 4) || x.doomed

/-- A slot that rule 2 of R128 may drop: all lines Absent or Clean. -/
def Slot.cleanOnly (x : Slot) : Bool := x.tile.isSome && !x.anyCounted && !x.doomed

/-- All 64 lines Dirty. -/
def Slot.full (x : Slot) : Bool := decide (x.st.length = 64) && x.st.all (fun e => e.2 == 2)

/-- Slots of the stage and the free pool (R126). -/
def State.slotCnt (s : State) : Nat := s.num R.TS_SLOT_CNT

/-- Slots in the free pool. -/
def State.slotFree (s : State) : Nat := s.slotCnt - s.te.slots.length

/-- Free and clean slots together. -/
def State.slotSpare (s : State) : Nat := s.slotFree + (s.te.slots.filter (fun x => x.2.cleanOnly)).length

/-- A flush still waits for a Dirty line of the slot (Table 4.5). -/
def FlushTile.wants (f : FlushTile) (x : Slot) : Bool :=
  x.tile == some f.tile && x.st.any (fun e => (e.2 == 2 || e.2 == 4) && (f.now ||| f.later).getLsbD e.1)

/-- A slot's tile is due (Table 4.5). -/
def State.slotDue (s : State) (x : Slot) : Bool :=
  x.anyDirty && !x.inFlight &&
    (x.full || x.due || s.bit F.TS_STS.PRESS || s.bit F.TS_STS.OVER || s.bit F.TS_STS.SLOT_LOW ||
      s.te.flushTiles.any (fun f => f.wants x))

/-- The status and count registers of the tile stage follow its state (Table 4.5, Table 4.7, Table 4.9): pressure ends only with
OVER clear. -/
def State.tsStatus (s : State) : State :=
  let d := s.dirty
  let s := s.setBit F.TS_STS.HOLD s.holding
  let s := if d ≤ s.holdMark then s.setBit F.TS_STS.OVER false else s
  let s := if s.pressMark ≤ d || s.bit F.TS_STS.OVER then s.setBit F.TS_STS.PRESS true
    else if d < s.pressEnd then s.setBit F.TS_STS.PRESS false else s
  let s := if s.slotSpare < 2 * s.guardG ∧ 0 < s.slotCnt then s.setBit F.TS_STS.SLOT_LOW true
    else if 4 * s.guardG ≤ s.slotSpare then s.setBit F.TS_STS.SLOT_LOW false else s
  let s := (s.wrN R.TS_SLOT_FREE s.slotFree).wrN R.TS_SLOT_DIRTY (s.te.slots.filter (fun x => x.2.anyCounted)).length
  let s := s.wrN R.TS_DUE_CNT (s.te.slots.filter (fun x => s.slotDue x.2)).length
  s.wrN R.TS_DB_GUARD (s.guardG % 8192)

/-- Credits go back only in step with released lines (R123, R125, R128). -/
def State.creditsHeld (s : State) : Bool := s.holding || s.bit F.TS_STS.OVER || s.bit F.TS_STS.SLOT_LOW

/-- Charge lines (Table 4.4). -/
def State.charge (s : State) (n : Nat) : State := (s.setDirty (s.dirty + n)).tsStatus

/-- OVER is entered: the dirty count is above the budget in force (R125, R138). -/
def State.overEnter (s : State) : State :=
  if s.budgetInForce < s.dirty ∧ !s.bit F.TS_STS.OVER then
    let s := (s.setBit F.TS_STS.OVER true).bump R.TS_OVER_CNT
    (s.when (s.bit F.TS_CTL.EVT_EN) (fun s => s.roll 0x0110 0 9 (s.budgetInForce % 2 ^ 32) (s.dirty % 2 ^ 32) 0)).tsStatus
  else s

/-- A new budget comes into force, whatever changed it (R122, R125, R138): TS_DB follows, a change of more than 1 % and an entry
into OVER write their records. -/
def State.showBudget (s : State) : State :=
  let old := s.num R.TS_DB_LO + 2 ^ 32 * (s.num R.TS_DB_HI % 256)
  let new := s.budgetInForce
  let s := (s.wrN R.TS_DB_LO new).wrN R.TS_DB_HI (new / 2 ^ 32 % 256)
  let s := s.when (s.bit F.TS_CTL.EVT_EN && decide (old < 100 * (max old new - min old new))) (fun s =>
    s.roll 0x0110 0 9 (new % 2 ^ 32) (s.dirty % 2 ^ 32) 0)
  s.tsStatus.overEnter

/-! ### Credits (R42, R64, R89, R106, R122, R123, R125, R128, R135) -/

/-- Requests of a port's pool that are outstanding: M2S Req for reads, RwD for writes. -/
def State.poolOut (s : State) (port : Nat) (wr : Bool) : Nat :=
  (s.rt.reqs.filter (fun r => match r.src with
    | .host p _ => p.val == port && (r.kind != .read || r.merged) == wr
    | _ => false)).length

/-- The port carries a region that this controller mirrors, and no mirror credit is held (R135). -/
def State.mirrorStarved (s : State) (port : Nat) : Bool :=
  s.mirroring && sget 0 s.tw.cred 1 == 0 && (List.range 16).any (fun n =>
    s.bit (F.RT_RG_CTL.EN n) && s.get (F.RT_RG_CTL.PORT n) == port && (s.rd R.CAR_RG_STS).getLsbD n)

/-- The port's link carries CXL.mem. -/
def State.portMem (s : State) (p : Nat) : Bool := s.bit (F.HP_STS.LINK_UP p) && s.bit (F.HP_STS.MEM_ON p)

/-- The router returns request credits on a port: its link carries CXL.mem, and no GPF, D3hot, Viral or drain stops them
(R64, R73, Table 12.2). -/
def State.portGrants (s : State) (p : Nat) : Bool :=
  s.portMem p && !s.bit (F.HP_STS.GPF_HELD p) && !s.bit (F.HP_STS.D3HOT p) && !s.bit (F.HP_STS.VIRAL p) && !s.draining &&
    !s.rt.gpf.contains p

/-- The router returns RwD credits on a port: a budget has been delivered, OVER is clear, and a mirrored region's port finds a mirror
credit (R122, R125, R135). -/
def State.rwdGrants (s : State) (p : Nat) : Bool :=
  s.portGrants p && s.bit F.TS_STS.BUDGET_VALID && !s.bit F.TS_STS.OVER && !s.mirrorStarved p

/-- Credits of a kind that a port's host holds. -/
def State.credOf (s : State) (port : Nat) (wr : Bool) : Nat := if wr then s.rt.rwdCred.getD port 0 else s.rt.reqCred.getD port 0

/-- Credits that a port's host holds once the router has returned those it may: with those spent on outstanding requests no more than
the applied level's share of the pool (R42, R89). -/
def State.topUp (s : State) (port : Nat) (wr : Bool) : Nat :=
  let pool := if wr then s.rt.rwdPool.getD port 0 else s.rt.reqPool.getD port 0
  if (if wr then s.rwdGrants port && !s.creditsHeld else s.portGrants port) then
    max (s.credOf port wr) (poolShare pool (s.get F.RT_STS.APPLIED_LVL) - s.poolOut port wr)
  else s.credOf port wr

/-- Return every request credit that nothing keeps back. -/
def State.grant (s : State) : State :=
  { s with
    rt.reqCred := (List.range 8).map (fun p => s.topUp p false)
    rt.rwdCred := (List.range 8).map (fun p => s.topUp p true) }

/-- A port's host holds a credit for a request (R89). -/
def State.hasCredit (s : State) (port : Fin 8) (wr : Bool) : Bool := s.portMem port && decide (0 < s.grant.credOf port wr)

/-- A request of a port spends a credit. After GPF Phase 2 it is the host resuming traffic, which ends the port's hold (R64). -/
def State.spend (s : State) (port : Fin 8) (wr : Bool) : State :=
  let s := (s.setBit (F.HP_STS.GPF_HELD port) false).grant
  if wr then { s with rt.rwdCred := s.rt.rwdCred.modify port.val (fun n => n - 1) }
  else { s with rt.reqCred := s.rt.reqCred.modify port.val (fun n => n - 1) }

/-- The held write that a released line lets go: the oldest (R123). -/
def State.letOne (s : State) : State :=
  match s.rt.reqs.find? (fun r => r.stage == .budget) with
  | none => s
  | some r => { s with rt.reqs := s.rt.reqs.map (fun (x : Req) => if x.id = r.id then { x with stage := .cleared } else x) }

/-- Let every held write go. -/
def State.letAll (s : State) : State :=
  { s with rt.reqs := s.rt.reqs.map (fun (x : Req) => if x.stage == .budget then { x with stage := .cleared } else x) }

/-- Return the oldest `n` of the credits kept back that nothing else stops; forwarded and mirror credits go back to the twin
(R123). -/
def State.unhold (s : State) (n : Nat) : State :=
  let gone := (s.rt.withheld.filter (fun k => decide (8 ≤ k) || s.rwdGrants k)).take n
  let s := { s with
    rt.withheld := gone.foldl (fun (l : List Nat) k => l.erase k) s.rt.withheld
    rt.rwdCred := gone.foldl (fun (c : List Nat) k => c.modify k (fun n => n + 1)) s.rt.rwdCred }
  let s := (gone.filter (fun k => k == 8)).foldl (fun s _ => s.fwdReturn) s
  s.crd 0 (gone.filter (fun k => k == 9)).length 0 0

/-- Every credit that R123 kept back returns. -/
def State.unholdAll (s : State) : State :=
  let s := s.unhold s.rt.withheld.length
  { s with rt.withheld := s.rt.withheld.filter (fun k => decide (8 ≤ k)) }.grant

/-- Release lines (Table 4.4): each lets one held write go and returns one credit; below the hold mark all go (R123). -/
def State.release (s : State) (n : Nat) : State :=
  let s := (s.setDirty (s.dirty - n)).tsStatus
  if s.creditsHeld then
    let s := (List.range (min n s.rt.reqs.length)).foldl (fun s _ => s.letOne) s
    if s.bit F.TS_STS.OVER then s else s.unhold n
  else s.unholdAll.letAll

/-- Keep back a credit of a pool. -/
def State.keepBack (s : State) (pool : Nat) : State := { s with rt.withheld := s.rt.withheld ++ [pool] }

/-- A mirror credit goes back to the twin, or is kept back (R123, R337). -/
def State.mirReturn (s : State) : State := if s.creditsHeld then s.keepBack 9 else s.crd 0 1 0 0

/-- The credit of an answered request returns, or is kept back: a host's RwD, a forwarded request's and a mirror write's
(R123, R125, R128). -/
def State.creditBack (s : State) (r : Req) : State :=
  match r.src with
  | .host p _ => (if s.creditsHeld && (r.kind != .read || r.merged) then s.keepBack p.val else s).grant
  | .twin _ => if s.creditsHeld then s.keepBack 8 else s.fwdReturn
  | .mirror _ => s.mirReturn
  | .device => s
  | .rep _ => s
  | .cmd _ => s

end Sys2Proof.Machine
end

