-- ==== Sys2Proof/Machine/MailOps.lean ====
section
/-! DEFINITION. Mailbox replies, and commands mirrored to the twin (11_twin_pair.md R334, R337; 12_host_ports.md R388, R391,
Table 12.8). -/

set_option autoImplicit false

namespace Sys2Proof.Machine

/-- Number of a CXL return code, as an MCMD_ACK carries it. PRESUMED: the published CXL numbering (R2;
notes/assumptions/27). -/
def Rc.code : Rc → Nat
  | .success => 0
  | .background => 1
  | .invalidInput => 2
  | .unsupported => 3
  | .busy => 6
  | .aborted => 18
  | .invalidSecurity => 19
  | .internal => 4

/-- The return code of a number. -/
def Rc.ofCode (n : Nat) : Rc :=
  if n = 0 then .success else if n = 3 then .unsupported else if n = 4 then .internal else if n = 6 then .busy else if n = 18 then .aborted
  else if n = 19 then .invalidSecurity else .invalidInput

/-- Extended status codes of Table 12.8. -/
def Ext.NO_SLOT : Nat := 1
def Ext.EPOCH_EXHAUSTED : Nat := 2
def Ext.OVERLAP : Nat := 3
def Ext.REGION_EN : Nat := 4
def Ext.TIMEOUT : Nat := 5
def Ext.LCS : Nat := 6
def Ext.PARKED : Nat := 7
def Ext.STREAM : Nat := 8
def Ext.NOT_SECURED : Nat := 9
def Ext.ROLE : Nat := 10
def Ext.STATE : Nat := 11
def Ext.PAIR : Nat := 12

/-- The reply packet of a queue's command (R529, Table 18.1): the header with OPCODE, TAG, LEN, RC and XS, then the words. -/
def replyPacket (cmd : Nat × Nat) (rc : Rc) (ext : Nat) (words : List Nat) : List (Bool × BitVec 64) :=
  let head := cmd.1 % 2 ^ 16 + cmd.2 % 2 ^ 16 * 2 ^ 16 + words.length % 2 ^ 11 * 2 ^ 32 + rc.code % 2 ^ 8 * 2 ^ 48 + ext % 2 ^ 8 * 2 ^ 56
  let ws := head :: words
  ws.zipIdx.map (fun (x : Nat × Nat) => (x.2 + 1 == ws.length, BitVec.ofNat 64 x.1))

/-- A management queue. -/
def State.mqOf (s : State) (q : Nat) : Mq := sget Mq.empty s.mq q

/-- Change a management queue. -/
def State.mqMod (s : State) (q : Nat) (f : Mq → Mq) : State := { s with mq := smod Mq.empty s.mq q f }

/-- The port's mailbox takes commands: the link is in L0, the firmware has been verified (R380, Table 19.1), and a healthy Proctor runs it
(R26). Management queue q counts as port 8 + q (R529). -/
def State.mail (s : State) (p : Nat) : Bool :=
  s.coreUp && s.get F.FC_STS.HEALTHY != 0 && (decide (8 ≤ p) || s.bit (F.HP_STS.LINK_UP p)) && decide (3 ≤ s.get F.BOOT_STS.PHASE)

/-- A mailbox command of a port completes; that of a management queue is answered by a reply packet (R529). -/
def State.mbox (s : State) (p : Nat) (rc : Rc) (ext : Nat) (words : List Nat) : State :=
  if p < 8 then (s.emit (.mailbox p rc ext words)).bump (R.HP_MBOX_CNT p)
  else match (s.mqOf (p - 8)).cur with
    | some c => s.mqMod (p - 8) (fun m => { m with cur := none, replies := m.replies ++ [replyPacket c rc ext words] })
    | none => s

/-- A port's background command starts (R388). -/
def State.bgStart (s : State) (p : Nat) : State :=
  let s := { s with hp.bg := setIns p s.hp.bg }.leased (if p < 8 then 12 + p else 92 + p)
  if p < 8 then s.emit (.mailbox p .background 0 [])
  else s.mqMod (p - 8) (fun m => { m with bgc := m.cur, cur := none })

/-- A port's background command ends; after a PERST_N of the port its completion is not reported (R372). -/
def State.bgDone (s : State) (p : Nat) (rc : Rc) (ext : Nat) (words : List Nat) : State :=
  let quiet := s.hp.muted.contains p
  let was := s.hp.bg.contains p
  let s := { s with hp.bg := setDel p s.hp.bg, hp.muted := setDel p s.hp.muted }
  if !was then s
  else if quiet then s.mqMod (p - 8) (fun m => if p < 8 then m else { m with bgc := none })
  else if p < 8 then s.mbox p rc ext words
  else match (s.mqOf (p - 8)).bgc with
    | some c => s.mqMod (p - 8) (fun m => { m with bgc := none, replies := m.replies ++ [replyPacket c rc ext words] })
    | none => s

/-- The answer of a completed command goes out, and the command that runs one at a time is over (R388). -/
def State.answer (s : State) (dst : ReplyTo) (rc : Rc) (ext : Nat) (words : List Nat) : State :=
  let s := if s.hp.serial = some dst then { s with hp.serial := none } else s
  match dst with
  | .mbox p => s.mbox p rc ext words
  | .bg p => s.bgDone p rc ext words
  | .twin tag => (s.car 0x23 tag [rc.code % 128 + 128]).mirReturn
  | .none => s

/-- A command that was mirrored completes once it has its own result and its MCMD_ACK (R334, R337); a twin's refusal is the
command's result. -/
def State.twinSettle (s : State) : State :=
  let ready := s.tw.cmds.filter (fun c => c.own.isSome && c.ack.isSome)
  ready.foldl (fun s (c : TwCmd) =>
    let s := { s with tw.cmds := s.tw.cmds.filter (fun (x : TwCmd) => x.seq != c.seq) }
    match c.own, c.ack with
    | some (rc, ext, ws), some 0 => s.answer c.dst rc ext ws
    | _, some n => s.answer c.dst (Rc.ofCode n) 0 []
    | _, _ => s) s

/-- A command completes on this controller: it is answered, or waits for the twin's part (R334). -/
def State.reply (s : State) (dst : ReplyTo) (rc : Rc) (ext : Nat) (words : List Nat) : State :=
  match s.tw.cmds.find? (fun c => c.dst == dst && c.own.isNone) with
  | none => s.answer dst rc ext words
  | some c =>
    { s with tw.cmds := s.tw.cmds.map (fun (x : TwCmd) => if x.seq = c.seq then { x with own := some (rc, ext, words) } else x) }.twinSettle

/-- Mirror a mailbox command to the twin (R334, R337): its completion waits for the MCMD_ACK. -/
def State.sendCmd (s : State) (dst : ReplyTo) (c : TwinCmd) (disc : Option Nat) : State :=
  let q := s.tw.cmdSeq
  { s with tw.cmdSeq := q + 1, tw.cmds := s.tw.cmds ++ [TwCmd.mk q dst none none disc] }.carSend 1 (.carCmd q c)

end Sys2Proof.Machine
end

