-- ==== Sys2Proof/Machine/KeyOps.lean ====
section
/-! DEFINITION. Key slots with their shares, and the XTS form of what the tile stage and the program buffers keep in DRAM
(10_cipher_engine.md R298, R311–R313; 13_dram_channels.md R399). -/

set_option autoImplicit false

namespace Sys2Proof.Machine

/-! ### Key slots (R298, R313) -/

/-- A key slot. -/
def State.keySlot (s : State) (n : Nat) : KeySlot := sget KeySlot.free s.ce.slots n

/-- Change a key slot. -/
def State.keyMod (s : State) (n : Nat) (f : KeySlot → KeySlot) : State :=
  { s with ce.slots := smod KeySlot.free s.ce.slots n f }

/-- The key that a slot's shares make up; no step holds it: the ciphers take it from the shares. -/
def KeySlot.key (k : KeySlot) : Nat := (k.key0 ^^^ k.key1).toNat

/-- The hash subkey that a slot's shares make up. -/
def KeySlot.h (k : KeySlot) : BitVec 128 := k.h0 ^^^ k.h1

/-- Kinds whose slots hold a hash subkey: WRAP, TEST, DATA and STREAM; the others serve XTS, CMAC and key derivation. -/
def gcmKind (kind : Nat) : Bool := kind == 1 || kind == 3 || kind == 4 || kind == 6

/-- A slot takes a key, split by fresh masks; a GCM kind takes H = AES_K(0^128) likewise. -/
def KeySlot.load (k : KeySlot) (key : Nat) (m : BitVec 256) (mh : BitVec 128) : KeySlot :=
  { k with
    key0 := BitVec.ofNat 256 key ^^^ m, key1 := m
    h0 := if gcmKind k.kind then aesEnc (key % 2 ^ 256) 0 ^^^ mh else 0
    h1 := if gcmKind k.kind then mh else 0 }

/-- A slot's shares are re-randomised with fresh masks: the key and H stay what they are. -/
def KeySlot.remask (k : KeySlot) (m : BitVec 256) (mh : BitVec 128) : KeySlot :=
  { k with key0 := k.key0 ^^^ m, key1 := k.key1 ^^^ m, h0 := k.h0 ^^^ mh, h1 := k.h1 ^^^ mh }

/-- Fresh mask bits (R313): what a lane expands from its seed is open. -/
def State.mask (s : State) : BitVec 256 × BitVec 128 := (BitVec.ofNat 256 (s.free 256), BitVec.ofNat 128 (s.drawn.free 128))

/-- A slot takes a key and becomes VALID. -/
def State.keyLoad (s : State) (n key : Nat) : State :=
  (s.keyMod n (fun k => { k with st := 2 }.load key s.mask.1 s.mask.2)).drawn.drawn

/-- Fill a fixed key slot (Table 10.3). -/
def State.fixSlot (s : State) (n kind key : Nat) : State := (s.keyMod n (fun _ => { KeySlot.free with kind := kind })).keyLoad n key

/-- A slot's key is used: its shares are re-randomised (R313). -/
def State.keyUse (s : State) (n : Nat) : State :=
  if (s.keySlot n).st = 0 then s else (s.keyMod n (fun k => k.remask s.mask.1 s.mask.2)).drawn.drawn

/-- RK out of its shares. -/
def State.rk (s : State) : Nat := (s.ce.rk0 ^^^ s.ce.rk1).toNat

/-- RK takes a value, split by a fresh mask. -/
def State.rkLoad (s : State) (key : Nat) : State :=
  { s with ce.rk0 := BitVec.ofNat 256 key ^^^ s.mask.1, ce.rk1 := s.mask.1 }.drawn.drawn

/-- RK is used (R313). -/
def State.rkUse (s : State) : State := { s with ce.rk0 := s.ce.rk0 ^^^ s.mask.1, ce.rk1 := s.ce.rk1 ^^^ s.mask.1 }.drawn.drawn

/-- The lifecycle state is RETIRED: contexts, streams and rekeys are refused (Table 10.1). -/
def State.retired (s : State) : Bool := s.get F.CE_STS.LCS == 2

/-! ### The DRBG (R315) -/

/-- The next DRBG output (R315). -/
def State.drbgTake (s : State) : Nat × State :=
  (Config.drbg s.ce.drbg, { s with ce.drbg := s.ce.drbg + 1, ce.drbgUse := s.ce.drbgUse + 1 })

/-- What becomes of a request that names a slot: 0 served, 1 waits, 2 refused (Table 10.4, R303). A request already counted is served by a
RELEASING slot. -/
def State.keyGate (s : State) (n : Nat) : Nat :=
  let st := (s.keySlot n).st
  if st = 2 ∨ st = 3 then 0 else if st = 1 ∨ st = 4 then 1 else 2

/-! ### XTS (R311, R312) -/

/-- DRAM byte address divided by 64 of line k of slot n: the slots follow the areas before them, 78 units a slot (Table 13.2). DESIGN CHOICE:
the spec gives the areas' sizes and no base (notes/assumptions/58). -/
def slotUnit (n k : Nat) : Nat := 2 ^ 30 + 78 * n + k

/-- DRAM byte address divided by 64 of a line of a program buffer: 2^15 buffers of 256 lines lie in the working areas (DESIGN CHOICE,
notes/assumptions/58). -/
def bufUnit (buf : Option Nat) (pos : Nat) : Nat := 2 ^ 29 + 2 ^ 28 + buf.getD 0 * 256 + pos

/-- Encrypt a line for a DRAM place under the tile-stage pair (slots 0 and 1). -/
def State.xtsOut (s : State) (unit : Nat) (d : Line) : Line := xtsSeal (s.keySlot 0).key (s.keySlot 1).key unit d

/-- Decrypt what stands at a DRAM place. -/
def State.xtsIn (s : State) (unit : Nat) (c : Line) : Line := xtsOpen (s.keySlot 0).key (s.keySlot 1).key unit c

/-- The tile-stage pair is used. -/
def State.xtsUse (s : State) : State := (s.keyUse 0).keyUse 1

end Sys2Proof.Machine
end

