-- ==== Sys2Proof/Machine/PageOps.lean ====
section
/-! DEFINITION. What stands on media (06_translation_layer.md R182–R186, R192, R195; 07_media_upkeep.md R212): the page header, whole
pages, journal entries and checkpoint segments as the bytes of their pages, and the reserved areas. -/

set_option autoImplicit false

namespace Sys2Proof.Machine

/-! ### Places -/

/-- A page's place as one number: die, block, page. -/
def packPage (d b p : Nat) : Nat := d * 2 ^ 22 + b * 2 ^ 11 + p

/-- Channel of a die. -/
def chanOf (die : Nat) : Nat := die / 8

/-- Key of a page in the media table. -/
def pageKey (d b p : Nat) : Nat := (2048 * d + b) * 2048 + p

/-- A page on media. -/
def State.mpage (s : State) (d b p : Nat) : MPage := sget MPage.erased s.te.media (pageKey d b p)

/-- Page at a packed place. -/
def State.pageAt (s : State) (key : Nat) : MPage := s.mpage (key / 2 ^ 22) (key / 2 ^ 11 % 2048) (key % 2048)

/-! ### Commands of a channel -/

/-- Commands of Table 8.2 as the controller emits them. -/
def Cmd.readLine : Nat := 1
def Cmd.program : Nat := 2
def Cmd.erase : Nat := 3
def Cmd.suspend : Nat := 4
def Cmd.resume : Nat := 5
def Cmd.status : Nat := 6
def Cmd.reset : Nat := 7
def Cmd.train : Nat := 8
def Cmd.refAdj : Nat := 9
def Cmd.sendH : Nat := 10
def Cmd.sendB : Nat := 11
def Cmd.featureSet : Nat := 12

/-! ### The page header (Table 6.6, Table 6.7, Table 7.2) -/

/-- The lowest `k` bytes of a number, lowest first. -/
def bytesOf (k n : Nat) : List Nat := (List.range k).map (fun i => n / 2 ^ (8 * i) % 256)

/-- A page header: TYPE, TFLAGS, PFLAGS, SEQ, bytes 10–49 as one number, RB_TAG, HDR_CRC. -/
structure PageHdr where
  typ : Nat
  tflags : Nat
  pflags : Nat
  seq : Nat
  body : Nat
  rbTag : Nat
  crc : Nat
  deriving DecidableEq, Repr

/-- Bytes 0–59 of a header; bytes 54–59 are 0. -/
def PageHdr.front (h : PageHdr) : Nat :=
  h.typ % 2 ^ 16 + h.tflags % 2 ^ 8 * 2 ^ 16 + h.pflags % 2 ^ 8 * 2 ^ 24 + h.seq % 2 ^ 48 * 2 ^ 32 + h.body % 2 ^ 320 * 2 ^ 80 +
    h.rbTag % 2 ^ 32 * 2 ^ 400

/-- HDR_CRC matches: the CRC-32C over bytes 0–59. -/
def PageHdr.crcOk (h : PageHdr) : Bool := h.crc == crc32c (bytesOf 60 h.front)

/-- A header's 64 bytes. -/
def PageHdr.data (h : PageHdr) : Line := BitVec.ofNat 512 (h.front + h.crc % 2 ^ 32 * 2 ^ 480)

/-- The header that 64 bytes spell. -/
def PageHdr.ofData (w : Line) : PageHdr :=
  let n := w.toNat
  ⟨n % 2 ^ 16, n / 2 ^ 16 % 2 ^ 8, n / 2 ^ 24 % 2 ^ 8, n / 2 ^ 32 % 2 ^ 48, n / 2 ^ 80 % 2 ^ 320, n / 2 ^ 400 % 2 ^ 32, n / 2 ^ 480⟩

/-- The stored line at position 256 (R183, R262, R263): the header in DATA, 0 in TAG, HDR = 1, PRES in journal and checkpoint pages, LCHK
from SEQ. -/
def PageHdr.line (h : PageHdr) : StoredLine := slMake h.data 0 (h.typ == 0x5A02 || h.typ == 0x5A03) false true h.seq

/-- RB_TAG (R186): the CRC-32C over the 24 spare bytes of stored lines 0–255, in line order. -/
def rbTag (l : Sparse StoredLine) : Nat := crc32c ((List.range 256).flatMap (fun i => slSpare (sget 0 l i)))

/-- A page as it is programmed: its stored lines, and its header with RB_TAG and HDR_CRC. -/
def makePage (typ tflags : Nat) (drain : Bool) (seq body : Nat) (lines : Sparse StoredLine) : MPage :=
  let h : PageHdr := ⟨typ, tflags, drain.toNat, seq, body, rbTag lines, 0⟩
  ⟨lines ++ [(256, { h with crc := crc32c (bytesOf 60 h.front) }.line)]⟩

/-- TFLAGS of a data page: bit 2k EMPTY, bit 2k + 1 PARTIAL. -/
def tileFlags (tiles : List (Option PTile)) : Nat :=
  (List.range 4).foldl (fun n k => match (tiles[k]?).join with
    | none => n + 2 ^ (2 * k)
    | some t => if t.partl then n + 2 ^ (2 * k + 1) else n) 0

/-- TILE0–TILE3 and VSEQ0–VSEQ3 of a data page. -/
def tileBody (tiles : List (Option PTile)) : Nat :=
  (List.range 4).foldl (fun n k => match (tiles[k]?).join with
    | none => n + (2 ^ 32 - 1) * 2 ^ (32 * k)
    | some t => n + t.tile % 2 ^ 32 * 2 ^ (32 * k) + t.vseq % 2 ^ 48 * 2 ^ (128 + 48 * k)) 0

/-- TILE0, TILE1, VSEQ0 and VSEQ1 of a journal or checkpoint page (Table 6.7). DESIGN CHOICE: the fields that the table does not name hold
0 (notes/assumptions/57). -/
def areaBody (t0 t1 jseq : Nat) : Nat :=
  t0 % 2 ^ 32 + t1 % 2 ^ 32 * 2 ^ 32 + jseq % 2 ^ 48 * 2 ^ 128 + jseq / 2 ^ 48 % 2 ^ 16 * 2 ^ 176

/-- MEMBERn, MCOUNT and SGROUP of a parity page (Table 7.2). -/
def stripeBody (members : List Nat) (group : Nat) : Nat :=
  (members.take 7).zipIdx.foldl (fun n (x : Nat × Nat) =>
    n + (x.1 / 2 ^ 22 % 512 + x.1 / 2 ^ 11 % 2048 * 2 ^ 9 + x.1 % 2048 * 2 ^ 20 + 2 ^ 31) * 2 ^ (32 * x.2)) 0 +
    members.length % 256 * 2 ^ 224 + group % 256 * 2 ^ 232

/-! ### Reading a page (R186) -/

/-- Header type of a page whose header does not decode, or fails HDR_CRC. -/
def tornType : Nat := 0xFFFF

/-- What the read of a stored line and its reference-shift retries, 3 at most, come to: the first that decodes. -/
def correctedRead (noise : ReadNoise) (key pos : Nat) (w : StoredLine) : Option StoredLine :=
  let tries := match noise.find? (fun (x : Nat × List StoredLine) => x.1 == 512 * key + pos) with
    | some x => x.2.take 4
    | none => [0]
  tries.findSome? (fun e => (bchDecode (w ^^^ e)).map (fun c => c.1))

/-- The page's header line as stored; an unprogrammed page has none. -/
def MPage.hdrLine (p : MPage) : StoredLine := sget 0 p.lines 256

/-- The header, where it decodes and HDR_CRC matches. -/
def MPage.hdrRead (p : MPage) (noise : ReadNoise) (key : Nat) : Option PageHdr :=
  if p.hdrLine = 0 then none
  else ((correctedRead noise key 256 p.hdrLine).map (fun w => PageHdr.ofData (slData w))).filter PageHdr.crcOk

/-- The header as a read without errors finds it. -/
def MPage.hdr (p : MPage) : Option PageHdr := p.hdrRead [] 0

/-- TYPE; 0 where the header reads erased. -/
def MPage.typ (p : MPage) : Nat := match p.hdr with
  | some h => h.typ
  | none => if p.hdrLine = 0 then 0 else tornType

/-- SEQ of the header, 0 without one. -/
def MPage.seq (p : MPage) : Nat := (p.hdr.map (fun h => h.seq)).getD 0

/-- The stored lines as they read back, corrected where they decode. -/
def MPage.readBack (p : MPage) (noise : ReadNoise) (key : Nat) : Sparse StoredLine :=
  p.lines.map (fun (e : Nat × StoredLine) => (e.1, (correctedRead noise key e.1 e.2).getD e.2))

/-- A page is whole (R186). -/
def MPage.whole (p : MPage) (noise : ReadNoise) (key : Nat) : Bool :=
  match p.hdrRead noise key with
  | none => false
  | some h => rbTag (p.readBack noise key) == h.rbTag

/-- A tile position that a data page names: the present lines are those that carry the mark (R185). -/
structure PageTile where
  tile : Nat
  partl : Bool
  vseq : Nat
  present : BitVec 64
  deriving DecidableEq, Repr

/-- The tile positions of a data page; none on other pages. -/
def MPage.tiles (p : MPage) : List (Option PageTile) :=
  match p.hdr with
  | none => []
  | some h =>
    if h.typ ≠ 0x5A01 then []
    else (List.range 4).map (fun k =>
      if h.tflags.testBit (2 * k) then none
      else
        let marks := (List.range 64).foldl (fun n i =>
          if slPres ((correctedRead [] 0 (64 * k + i) (sget 0 p.lines (64 * k + i))).getD 0) then n + 2 ^ i else n) 0
        some ⟨h.body / 2 ^ (32 * k) % 2 ^ 32, h.tflags.testBit (2 * k + 1), h.body / 2 ^ (128 + 48 * k) % 2 ^ 48, BitVec.ofNat 64 marks⟩)

/-- The members that a parity page names. -/
def PageHdr.members (h : PageHdr) : List Nat :=
  (List.range 7).filterMap (fun k =>
    let m := h.body / 2 ^ (32 * k) % 2 ^ 32
    if m < 2 ^ 31 then none else some (packPage (m % 512) (m / 2 ^ 9 % 2048) (m / 2 ^ 20 % 2048)))

/-- JSEQ of a journal or checkpoint page (Table 6.7). -/
def PageHdr.jseq (h : PageHdr) : Nat := h.body / 2 ^ 128 % 2 ^ 64

/-- TILE0 and TILE1. -/
def PageHdr.tile0 (h : PageHdr) : Nat := h.body % 2 ^ 32
def PageHdr.tile1 (h : PageHdr) : Nat := h.body / 2 ^ 32 % 2 ^ 32

/-- The stored lines of a journal or checkpoint page out of its 256 lines of data (R262, R263). -/
def areaLines (seq : Nat) (data : Nat → Nat) : Sparse StoredLine :=
  (List.range 256).map (fun i => (i, slMake (BitVec.ofNat 512 (data i)) 0 true false false seq))

/-- Data of a page's line i as it reads back. -/
def MPage.dataAt (p : MPage) (noise : ReadNoise) (key i : Nat) : Nat :=
  ((correctedRead noise key i (sget 0 p.lines i)).map (fun w => (slData w).toNat)).getD 0

/-! ### Tile-map entries and poison-table entries (Table 6.1, Table 6.4) -/

/-- The 64 bits of an entry (Table 6.1). -/
def TEntry.encode (e : TEntry) : BitVec 64 :=
  let loc := match e.loc with
    | none => 2 ^ 33 - 1
    | some l => l.tip % 4 + l.page % 2048 * 4 + l.block % 2048 * 2 ^ 13 + l.die % 512 * 2 ^ 24
  BitVec.ofNat 64 (e.st % 4 + e.pline.toNat * 4 + e.ptile.toNat * 8 + loc * 16 + e.slot % 2 ^ 27 * 2 ^ 37)

/-- The entry that 64 bits spell. -/
def TEntry.decode (n : Nat) : TEntry :=
  let loc := n / 16 % 2 ^ 33
  ⟨n % 4, n.testBit 2, n.testBit 3,
    if loc = 2 ^ 33 - 1 then none else some ⟨loc / 2 ^ 24, loc / 2 ^ 13 % 2048, loc / 4 % 2048, loc % 4⟩, n / 2 ^ 37 % 2 ^ 27⟩

/-- The entry as the journal records it (R192): staged by its LOC alone, SLOT 0. -/
def TEntry.recorded (e : TEntry) : TEntry :=
  { e with slot := 0, st := if e.st = 2 then (if e.loc.isSome then 1 else 0) else e.st }

/-- The 16 bytes of a poison-table entry: MASK, TILE, VALID (Table 6.4). -/
def PtEntry.encode (e : PtEntry) : Nat := e.mask.toNat + e.tile % 2 ^ 32 * 2 ^ 64 + 2 ^ 96

/-- The entry that 16 bytes spell; none where VALID reads free. -/
def PtEntry.decode (n : Nat) : Option PtEntry :=
  if n / 2 ^ 96 % 256 = 1 then some ⟨n / 2 ^ 64 % 2 ^ 32, BitVec.ofNat 64 (n % 2 ^ 64)⟩ else none

/-- The 64 bytes of a bucket: four entries (R176). -/
def bucketData (l : List PtEntry) : Nat := (l.take 4).zipIdx.foldl (fun n (x : PtEntry × Nat) => n + x.1.encode * 2 ^ (128 * x.2)) 0

/-! ### Journal entries (R192, R193, Table 6.8) -/

/-- Words A and B of an entry. -/
def JEntry.words : JEntry → Nat × Nat
  | .tmap t e => (1 + t % 2 ^ 32 * 2 ^ 4, e.recorded.encode.toNat)
  | .page d b p q => (2 + d % 512 * 2 ^ 4 + b % 2048 * 2 ^ 13 + p % 2048 * 2 ^ 24, q % 2 ^ 48)
  | .poison line add => (3 + line % 2 ^ 38 * 2 ^ 4 + add.toNat * 2 ^ 42, 0)
  | .tpoison t set => (4 + t % 2 ^ 32 * 2 ^ 4 + set.toNat * 2 ^ 36, 0)
  | .block d b ev n => (5 + d % 512 * 2 ^ 4 + b % 2048 * 2 ^ 13 + ev % 16 * 2 ^ 24, n % 2 ^ 32)
  | .discard t n sec q => (6 + t % 2 ^ 32 * 2 ^ 4 + sec.toNat * 2 ^ 36 + (n - 1) % 2 ^ 27 * 2 ^ 37, q % 2 ^ 48)
  | .subst d x => (7 + d % 512 * 2 ^ 4 + x % 512 * 2 ^ 13, 0)
  | .clean q => (15, q % 2 ^ 48)

/-- The entry that words A and B spell; none for PAD. -/
def JEntry.ofWords (a b : Nat) : Option JEntry :=
  let f := fun (o w : Nat) => a / 2 ^ o % 2 ^ w
  match a % 16 with
  | 1 => some (.tmap (f 4 32) (TEntry.decode b))
  | 2 => some (.page (f 4 9) (f 13 11) (f 24 11) (b % 2 ^ 48))
  | 3 => some (.poison (f 4 38) (a.testBit 42))
  | 4 => some (.tpoison (f 4 32) (a.testBit 36))
  | 5 => some (.block (f 4 9) (f 13 11) (f 24 4) (b % 2 ^ 32))
  | 6 => some (.discard (f 4 32) (f 37 27 + 1) (a.testBit 36) (b % 2 ^ 48))
  | 7 => some (.subst (f 4 9) (f 13 9))
  | 15 => some (.clean (b % 2 ^ 48))
  | _ => none

/-- Line i of a journal page: four entries of 16 bytes; PAD entries are zeros. -/
def journalLine (es : List JEntry) (i : Nat) : Nat :=
  ((es.drop (4 * i)).take 4).zipIdx.foldl (fun n (x : JEntry × Nat) => n + (x.1.words.1 + x.1.words.2 * 2 ^ 64) * 2 ^ (128 * x.2)) 0

/-- The entries of a journal page with their JSEQ. -/
def MPage.entries (p : MPage) (noise : ReadNoise) (key : Nat) (first : Nat) : List (Nat × JEntry) :=
  (List.range 1024).filterMap (fun k =>
    let w := p.dataAt noise key (k / 4) / 2 ^ (128 * (k % 4))
    (JEntry.ofWords (w % 2 ^ 64) (w / 2 ^ 64 % 2 ^ 64)).map (fun e => (first + k, e)))

/-! ### Segments (R195) -/

/-- Segment of the tile map that holds a tile's entry. -/
def mapSegment (t : Nat) : Nat := t / 131072

/-- Segment of the block table that holds a block's record. DESIGN CHOICE: the spec gives no layout for a record; it takes 129 lines of 64
bytes here, and a segment holds 127 of them (notes/assumptions/57). -/
def blockSegment (k : Nat) : Nat := 32768 + k / 127

/-- The two segments of the poison table: that of a bucket. -/
def ptSegment (b : Nat) : Nat := 32768 + 5161 + b / 16384

/-- Line 0 of a block's record: BASE_SEQ, state, marks, erase count, pages, age. -/
def Blk.recHead (k : Blk) : Nat :=
  k.seqs.headD 0 % 2 ^ 48 + k.st % 256 * 2 ^ 48 + (k.condemned.toNat + 2 * k.unknown.toNat) * 2 ^ 56 + k.erases % 2 ^ 32 * 2 ^ 64 +
    k.next % 2 ^ 16 * 2 ^ 96 + k.age % 2 ^ 64 * 2 ^ 128

/-- Lines 1–128 of a block's record: SEQ − BASE_SEQ of its pages, 16 to a line (R188). -/
def Blk.recWords (k : Blk) (i : Nat) : Nat :=
  (List.range 16).foldl (fun n j => n + (k.seqs.getD (16 * i + j) (k.seqs.headD 0) - k.seqs.headD 0) % 2 ^ 32 * 2 ^ (32 * j)) 0

/-- The block that a record's lines spell. -/
def Blk.ofRec (line : Nat → Nat) : Blk :=
  let h := line 0
  let n := h / 2 ^ 96 % 2 ^ 16
  let st := h / 2 ^ 48 % 256
  { Blk.fresh with
    st := st
    erases := h / 2 ^ 64 % 2 ^ 32
    next := n
    seqs := (List.range n).map (fun p => h % 2 ^ 48 + line (1 + p / 16) / 2 ^ (32 * (p % 16)) % 2 ^ 32)
    verified := if st = 5 then List.range n else []
    condemned := h.testBit 56
    unknown := h.testBit 57
    age := h / 2 ^ 128 % 2 ^ 64 }

/-- Line `gl` of a segment's 16,384, as captured. -/
def CkptJob.line (c : CkptJob) (gl : Nat) : Nat :=
  if c.seg < 32768 then
    (List.range 8).foldl (fun n k =>
      n + (sget TEntry.unmapped c.map (131072 * c.seg + 8 * gl + k)).encode.toNat * 2 ^ (64 * k)) 0
  else if c.seg < ptSegment 0 then
    let k := 127 * (c.seg - 32768) + gl / 129
    if 127 * 129 ≤ gl then 0
    else if gl % 129 = 0 then (sget Blk.fresh c.blocks k).recHead
    else (sget Blk.fresh c.blocks k).recWords (gl % 129 - 1)
  else bucketData (sget [] c.buckets (16384 * (c.seg - ptSegment 0) + gl))

/-- Line `gl` of a segment as its 64 checkpoint pages hold it. -/
def State.segLine (s : State) (noise : ReadNoise) (pages : List Nat) (gl : Nat) : Nat :=
  let key := pages.getD (gl / 256) 0
  (s.pageAt key).dataAt noise key (gl % 256)

/-- The tile-map entries of a checkpointed segment, as the journal would record them. -/
def State.segMap (s : State) (noise : ReadNoise) (seg : Nat) (pages : List Nat) : Sparse TEntry :=
  (List.range 16384).flatMap (fun gl =>
    let w := s.segLine noise pages gl
    (List.range 8).filterMap (fun k =>
      let e := (TEntry.decode (w / 2 ^ (64 * k) % 2 ^ 64)).recorded
      if e = TEntry.unmapped then none else some (131072 * seg + 8 * gl + k, e)))

/-- One tile's entry out of a checkpointed segment. -/
def State.segEntry (s : State) (noise : ReadNoise) (pages : List Nat) (t : Nat) : TEntry :=
  (TEntry.decode (s.segLine noise pages (t % 131072 / 8) / 2 ^ (64 * (t % 8)) % 2 ^ 64)).recorded

/-- The blocks of a checkpointed segment. -/
def State.segBlocks (s : State) (noise : ReadNoise) (seg : Nat) (pages : List Nat) : Sparse Blk :=
  (List.range 127).filterMap (fun r =>
    let k := Blk.ofRec (fun i => s.segLine noise pages (129 * r + i))
    if k = Blk.fresh then none else some (127 * (seg - 32768) + r, k))

/-- The poison-table entries of a checkpointed segment. -/
def State.segPoison (s : State) (noise : ReadNoise) (pages : List Nat) : List PtEntry :=
  (List.range 16384).flatMap (fun gl =>
    let w := s.segLine noise pages gl
    (List.range 4).filterMap (fun k => PtEntry.decode (w / 2 ^ (128 * k) % 2 ^ 128)))

/-! ### The reserved areas (R182, Table 6.5) -/

/-- Dies that hold a block of the journal ring: two in five, taken in turn over the channels (Table 6.5). -/
def journalDies (dies : List Nat) : List Nat :=
  let l := dies.foldl (fun (acc : List (Nat × Nat)) d => sins (d % 8 * 64 + d / 8) d acc) []
  (l.take ((2 * dies.length + 4) / 5)).map (·.2)

/-- Blocks 0–7 of each die are the map area; block 8 of the journal's dies is the ring (DESIGN CHOICE, notes/assumptions/57). -/
def ringBlock : Nat := 8

/-- A block is one of the reserved areas'. -/
def isReserved (dies : List Nat) (d b : Nat) : Bool := decide (b < ringBlock) || (b == ringBlock && (journalDies dies).contains d)

/-- Die and page of a ring position: four dies take turns until their blocks are full, then the next four (DESIGN CHOICE: a flush of up to
four pages goes to distinct dies, and a block holds consecutive positions, so that it can be erased as one; notes/assumptions/57). -/
def ringPlace (ds : List Nat) (pos : Nat) : Option (Nat × Nat) :=
  let m := (ds.drop (4 * (pos / 8192))).take 4
  if m.isEmpty then none
  else
    let off := pos % 8192
    if m.length * 2048 ≤ off then none else some (m.getD (off % m.length) 0, off / m.length)

/-- Positions of the ring. -/
def ringSize (ds : List Nat) : Nat := 2048 * ds.length

end Sys2Proof.Machine
end

