-- ==== Sys2Proof/Machine/MapOps.lean ====
section
/-! DEFINITION. The tile map, the map cache, the poison table, the journal and the tile-stage slots, as operations over the state
(04_write_path_and_dirty_budget.md R126–R133, 06_translation_layer.md R171–R196, 05_on_die_caches.md R159–R162). -/

set_option autoImplicit false

namespace Sys2Proof.Machine

/-- Tile of a line (R50). -/
def tileOf (line : Nat) : Nat := line / 64

/-- Lines of the exported capacity: 16 TiB (R50). -/
def imageLines : Nat := 2 ^ 38

/-- Bit of a line in a tile's mask. -/
def lineBit (line : Nat) : BitVec 64 := BitVec.ofNat 64 (2 ^ (line % 64))

/-! ### Event records (R393, Table 12.10) -/

/-- Logs of a port: 0 Informational, 1 Warning, 2 Failure, 3 Fatal, 4 Dynamic Capacity. -/
def logKey (p log : Nat) : Nat := 8 * p + log

/-- Place a record in a port's log; a log holds 256 records (R393). -/
def State.logEvent (s : State) (p log : Nat) (r : CxlRec) : State :=
  if (sget [] s.hp.logs (logKey p log)).length ≥ 256 then s.bump (R.HP_EVT_DROP p)
  else { s with hp.logs := smod [] s.hp.logs (logKey p log) (fun l => l ++ [r]) }

/-- The manager ports (R386). -/
def State.managers (s : State) : List Nat := (List.range 8).filter (fun p => s.get (F.HP_STS.ROLE p) == 2)

/-- A record to each port of a list. -/
def State.logTo (s : State) (ps : List Nat) (log : Nat) (r : CxlRec) : State :=
  ps.foldl (fun s p => s.logEvent p log r) s

/-- A General Media Event record of the device. -/
def State.gmDevice (s : State) (words : List Nat) : State := s.logTo s.managers 1 ⟨1, words⟩

/-- A DRAM Event record. -/
def State.dramEvent (s : State) (words : List Nat) : State := s.logTo s.managers 2 ⟨2, words⟩

/-- A Memory Module Event record. -/
def State.moduleEvent (s : State) (words : List Nat) : State := s.logTo s.managers 1 ⟨3, words⟩

/-- A Memory Module Event record in the Fatal log, on containment. -/
def State.fatalEvent (s : State) (words : List Nat) : State := s.logTo s.managers 3 ⟨3, words⟩

/-! ### Tile-map entries (R171–R173) -/

/-- The DRAM entry of a tile. -/
def State.entry (s : State) (t : Nat) : TEntry := sget TEntry.unmapped s.te.map t

/-- Mark a segment as changed, under the JSEQ that the entry of its oldest change can have (R195). -/
def State.segChanged (s : State) (g : Nat) : State :=
  if sget 0 s.te.changed g = 0 then { s with te.changed := sset 0 s.te.changed g (s.num64 R.TE_JSEQ_LO + s.te.jbuf.length + 1) } else s

/-! ### The map cache (R159–R162) -/

/-- Set and tag of a tile (R159). -/
def mapcSet (t : Nat) : Nat := t % 131072
def mapcTag (t : Nat) : Nat := t / 131072

/-- A way of the map cache as it is written: the tag, the valid bit and the entry under one SEC-DED code (R159). -/
def MapWay.of (t : Nat) (e : TEntry) : MapWay :=
  ⟨mapcTag t, e, BitVec.ofNat 8 (Config.secded 3 (mapcTag t % 2 ^ 15 + 2 ^ 15 + e.encode.toNat * 2 ^ 16)), false⟩

/-- Change a tile's entry; the map cache's copy follows in the same handshake (R160). -/
def State.setEntry (s : State) (t : Nat) (e : TEntry) : State :=
  { s with
    te.map := sset TEntry.unmapped s.te.map t e
    te.mapc := smod [] s.te.mapc (mapcSet t) (fun (l : List MapWay) => l.map (fun (w : MapWay) => if w.tag = mapcTag t then MapWay.of t e else w))
    }.segChanged (mapSegment t)

/-- Lookups and fills run. -/
def State.mapcOn (s : State) : Bool := s.bit F.MAPC_CTL.EN && !s.bit F.MAPC_STS.INV_BUSY

/-- The way that holds a tile's entry. -/
def State.mapcWay (s : State) (t : Nat) : Option MapWay :=
  (sget [] s.te.mapc (mapcSet t)).find? (fun (w : MapWay) => w.tag == mapcTag t)

/-- The map cache holds the tile's entry. -/
def State.mapcHit (s : State) (t : Nat) : Bool := s.mapcOn && (s.mapcWay t).isSome

/-- A way takes a tile's set as its most recently used one. -/
def State.mapcFront (s : State) (t : Nat) (w : MapWay) : State :=
  { s with te.mapc := smod [] s.te.mapc (mapcSet t) (fun (l : List MapWay) => w :: (l.filter (fun (x : MapWay) => x.tag != w.tag)).take 7) }

/-- Make a way the most recently used. -/
def State.mapcTouch (s : State) (t : Nat) : State :=
  match s.mapcWay t with
  | some w => s.mapcFront t w
  | none => s

/-- Fill on a host read's miss; a full set loses its least recently used way (R94). -/
def State.mapcFill (s : State) (t : Nat) : State :=
  if !s.mapcOn then s
  else if (s.mapcWay t).isSome then s.mapcTouch t
  else
    let full := decide (8 ≤ (sget [] s.te.mapc (mapcSet t)).length)
    (s.mapcFront t (MapWay.of t (s.entry t))).wrN R.MAPC_VALID_CNT (s.num R.MAPC_VALID_CNT + (!full).toNat)

/-- Invalidate a way. -/
def State.mapcDrop (s : State) (t : Nat) : State :=
  if (s.mapcWay t).isSome then
    { s with te.mapc := smod [] s.te.mapc (mapcSet t) (fun (l : List MapWay) => l.filter (fun (x : MapWay) => x.tag != mapcTag t)) }.wrN
      R.MAPC_VALID_CNT (s.num R.MAPC_VALID_CNT - 1)
  else s

/-- Leave a correctable error in a stored way, or write the way anew (R161). -/
def State.mapcMark (s : State) (t : Nat) (bad : Bool) : State :=
  { s with te.mapc := smod [] s.te.mapc (mapcSet t) (fun (l : List MapWay) => l.map (fun (w : MapWay) => if w.tag = mapcTag t then { w with ce := bad } else w)) }

/-- The entry that a lookup uses: the map cache's, where it holds one, otherwise the DRAM's (R91, R160). -/
def State.entryFor (s : State) (t : Nat) : TEntry :=
  if s.mapcHit t then ((s.mapcWay t).map (fun (w : MapWay) => w.entry)).getD (s.entry t) else s.entry t

/-- Start the invalidation of R162; MAPC_CTL.INV reads 1 meanwhile (R170). -/
def State.mapcInvStart (s : State) : State := (s.setBit F.MAPC_STS.INV_BUSY true).setBit F.MAPC_CTL.INV true

/-! ### Journal (R192–R196) -/

/-- A die's controller state. -/
def State.die (s : State) (d : Nat) : DieCtl := sget DieCtl.ok s.te.dies d

/-- JSEQ of the next entry to be flushed. -/
def State.jseq (s : State) : Nat := s.num64 R.TE_JSEQ_LO

/-- Next page sequence number (R187). -/
def State.seqNext (s : State) : Nat := s.num R.TE_SEQ_LO + 2 ^ 32 * (s.num R.TE_SEQ_HI % 65536)

/-- HW as programmed in PST (R189). -/
def State.seqHw (s : State) : Nat := s.num R.TE_SEQ_HW_LO + 2 ^ 32 * (s.num R.TE_SEQ_HW_HI % 65536)

/-- The device enters read-only (R74). As partner it takes its regions out of sync, and a holder whose twin is not read-only
offers the token to it (R349, R567). -/
def State.enterReadOnly (s : State) : State :=
  let s := { s with te.readOnly := true }
  if s.twinUp then
    let own := s.get F.CAR_RG_STS.EFF_OWN
    let s := s.set F.CAR_RG_STS.IN_SYNC ((List.range 16).foldl (fun n k =>
      if own / 2 ^ k % 2 = 1 ∧ s.get F.CAR_RG_STS.IN_SYNC / 2 ^ k % 2 = 1 then n + 2 ^ k else n) 0)
    if s.bit F.CAR_STS.TOKEN_HELD && s.tw.twinState != 3 && s.tw.tokMove == 0 then
      { s.car 0x40 0 [] with tw.tokMove := 1 }
    else s
  else s

/-- The next number has reached 2^48 − 2^36 or 2^48 − 2^20 (R191), and HW − 2^19 (R189). -/
def State.seqMarks (s : State) : State :=
  let n := s.seqNext
  let s := s.when (decide (2 ^ 48 - 2 ^ 36 ≤ n) && !s.bit F.TE_STS.SEQ_WARN) (fun s =>
    (((s.setBit F.TE_STS.SEQ_WARN true).roll 0x0503 0 8 0 (n % 2 ^ 32) (n / 2 ^ 32)).gmDevice [8]).showBudget)
  let s := s.when (decide (2 ^ 48 - 2 ^ 20 ≤ n) && !s.bit F.TE_STS.SEQ_RO) (fun s =>
    ((s.setBit F.TE_STS.SEQ_RO true).roll 0x0503 0 8 1 (n % 2 ^ 32) (n / 2 ^ 32)).enterReadOnly)
  s.when (decide (s.seqHw + s.te.hwAsked * 2 ^ 20 ≤ n + 2 ^ 19) && s.te.hwAsked == 0) (fun s =>
    { s with te.hwAsked := 1 }.pstAdd (.counterInc 3))

/-- Who takes a page sequence number (R191). -/
inductive SeqUse where
  | journal
  /-- Dirty data, drain programs included. -/
  | dirty
  /-- A checkpoint that the journal span requires. -/
  | span
  | other
  deriving DecidableEq, Repr

/-- A use may take a number: past 2^48 − 2^20 only three may, in their order (R191). -/
def State.seqMay (s : State) (u : SeqUse) : Bool :=
  !s.bit F.TE_STS.SEQ_RO ||
    match u with
    | .journal => true
    | .dirty => !s.te.flushWait
    | .span => !s.te.flushWait && !s.te.progs.any (fun (p : Prog) => p.stage == .number && p.kind == .host)
    | .other => false

/-- Assign the next page sequence number, below HW only (R187, R189, R191). -/
def State.seqTake (s : State) (u : SeqUse) : Option (Nat × State) :=
  let n := s.seqNext
  if n < s.seqHw ∧ n < 2 ^ 48 ∧ s.seqMay u then
    some (n, ((s.wrN R.TE_SEQ_LO (n + 1)).wrN R.TE_SEQ_HI ((n + 1) / 2 ^ 32)).seqMarks)
  else none

/-- JSEQ below which every entry is covered by the newest checkpoints of the segments it concerns (R195). -/
def State.jrnFloor (s : State) : Nat :=
  let head := s.jseq + s.te.jbuf.length
  let a := s.te.changed.foldl (fun m (x : Nat × Nat) => min m (x.2 - 1)) head
  s.te.ckptJobs.foldl (fun m (c : CkptJob) => min m c.since) a

/-- TE_JRN_SPAN in entries; its range begins at 16. -/
def State.jrnSpan (s : State) : Nat := max 16 (s.num R.TE_JRN_SPAN % 512) * 2 ^ 20

/-- The span is about to be exceeded: less than 2^18 entries of it are left (R195; DESIGN CHOICE, notes/assumptions/57). -/
def State.spanNear (s : State) : Bool := decide (s.jrnFloor + s.jrnSpan < s.jseq + s.te.jbuf.length + 2 ^ 18)

/-- Journal pages that a flush programs. -/
def journalPages (n : Nat) : Nat := (n + 1023) / 1024

/-- The dies of the journal ring. -/
def State.ringDies (s : State) : List Nat := journalDies s.te.fmt

/-- The whole journal pages of the ring: JSEQ of the first entry, ring position, place, in JSEQ order (R197). -/
def State.ringPages (s : State) (noise : ReadNoise) : List (Nat × Nat × Nat) :=
  let ds := s.ringDies
  let found := s.te.media.filterMap (fun (x : Nat × MPage) =>
    if x.1 / 2048 % 2048 = ringBlock ∧ ds.contains (x.1 / 2 ^ 22) then
      match x.2.hdrRead noise x.1 with
      | some h => if h.typ = 0x5A02 ∧ x.2.whole noise x.1 then some (h.jseq, h.tile0, x.1) else none
      | none => none
    else none)
  (found.foldl (fun (acc : List (Nat × (Nat × Nat × Nat))) x => sins x.1 x acc) []).map (fun x => x.2)

/-- The entries of the ring's whole pages with their JSEQ, in order. -/
def State.ringRead (s : State) (noise : ReadNoise) : List (Nat × JEntry) :=
  (s.ringPages noise).flatMap (fun (x : Nat × Nat × Nat) => (s.pageAt x.2.2).entries noise x.2.2 x.1)

/-- The next ring position whose die is in service, with its die and page. -/
def State.ringSpot (s : State) : Option (Nat × Nat × Nat) :=
  let ds := s.ringDies
  let here := s.te.ringNext
  let tries := (List.range 4).map (fun k => here + k) ++
    (List.range (ds.length / 4 + 2)).flatMap (fun g => (List.range 4).map (fun k => (here / 8192 + 1 + g) * 8192 % max 1 (ringSize ds) + k))
  tries.findSome? (fun pos => match ringPlace ds (pos % max 1 (ringSize ds)) with
    | some (d, pg) => if (s.die d).failed || (s.die d).retired then none else some (pos % max 1 (ringSize ds), d, pg)
    | none => none)

/-- The first JSEQ after a ring page that is still on a die's ring block, the highest of them. -/
def State.ringTop (s : State) (d : Nat) : Nat :=
  s.te.media.foldl (fun m (x : Nat × MPage) =>
    if x.1 / 2048 = 2048 * d + ringBlock then (match x.2.hdr with | some h => max m (h.jseq + 1024) | none => m) else m) 0

/-- Make a ring page ready to be programmed: erased, or the first of a block whose every entry is covered by checkpoints, which is erased
for its reuse (R195); `none` while an entry is not covered. -/
def State.ringReady (s : State) (d pg : Nat) : Option State :=
  if s.mpage d ringBlock pg = MPage.erased then some s
  else if pg = 0 ∧ s.ringTop d ≤ s.jrnFloor then
    some { s with
      te.media := skeep s.te.media (fun k => k / 2048 != 2048 * d + ringBlock)
      te.blocks := smod Blk.fresh s.te.blocks (2048 * d + ringBlock) (fun k => { k with next := 0, seqs := [], erases := min 65535 (k.erases + 1) }) }
  else none

/-- Program one journal page of up to 1,024 entries at the next ring position (R182, R184, R193): `none` while the ring cannot be reused,
the span would be exceeded, or no page sequence number can be taken (R189, R195). -/
def State.flushPage (s : State) (es : List JEntry) : Option State :=
  match s.ringSpot with
  | none => none
  | some (pos, d, pg) =>
    if s.jrnFloor + s.jrnSpan < s.jseq + 1024 then none
    else match s.ringReady d pg with
    | none => none
    | some s => match s.seqTake .journal with
      | none => none
      | some (q, s) =>
        let page := makePage 0x5A02 0 s.te.drainMode q (areaBody pos es.length s.jseq) (areaLines q (journalLine es))
        some (({ s with
          te.media := sset MPage.erased s.te.media (pageKey d ringBlock pg) page
          te.blocks := smod Blk.fresh s.te.blocks (2048 * d + ringBlock) (fun k => { k with next := pg + 1, seqs := k.seqs ++ [q] })
          te.ringNext := (pos + 1) % max 1 (ringSize s.ringDies)
          }.wr64 R.TE_JSEQ_LO (s.jseq + 1024)).bump (R.MC_PGM_CNT (chanOf d)) |>.emit (.media (chanOf d) Cmd.program [d, ringBlock, pg, q]))

/-- Program the pages of a flush. -/
def State.flushPages : List (List JEntry) → State → Option State
  | [], s => some s
  | es :: rest, s => match s.flushPage es with
    | none => none
    | some s => State.flushPages rest s

/-- Flush the journal buffer (R193, R194): its entries go to the ring, 1,024 to a page, the last one filled with PAD, and the flush counts;
it waits as a whole while one of its pages cannot be programmed. -/
def State.journalFlush (s : State) : State :=
  let pages := (List.range (journalPages s.te.jbuf.length)).map (fun k => (s.te.jbuf.drop (1024 * k)).take 1024)
  match State.flushPages pages s with
  | none => { s with te.flushWait := true }
  | some s => { s with te.jbuf := [], te.flushWait := false }.bump R.TE_JRN_FLUSH_CNT

/-- Append journal entries in one handshake; TE_JRN_BATCH gathered entries start a flush (R193, R194). -/
def State.journal (s : State) (es : List JEntry) : State :=
  let s := { s with te.jbuf := s.te.jbuf ++ es }
  if s.num R.TE_JRN_BATCH ≤ s.te.jbuf.length ∧ 0 < s.num R.TE_JRN_BATCH then s.journalFlush else s

/-- The segments of the poison table that hold a tile's two buckets have changed (R179, R195, R196). -/
def State.ptChanged (s : State) (t : Nat) : State := (s.segChanged (ptSegment (bucket1 t))).segChanged (ptSegment (bucket2 t))

/-- Both segments have changed: entries were moved. -/
def State.ptAllChanged (s : State) : State := (s.segChanged (ptSegment 0)).segChanged (ptSegment 16384)

/-! ### The poison table (R176–R179) -/

/-- A bucket's entries. -/
def State.bucket (s : State) (b : Nat) : List PtEntry := sget [] s.te.buckets b

/-- Poisoned lines of a tile as listed. -/
def State.ptMask (s : State) (t : Nat) : BitVec 64 :=
  match ((s.bucket (bucket1 t)) ++ (s.bucket (bucket2 t))).find? (fun e => e.tile == t) with
  | none => 0
  | some e => e.mask

/-- A line is listed. -/
def State.listed (s : State) (line : Nat) : Bool := (s.ptMask (tileOf line)).getLsbD (line % 64)

/-- The alternative bucket of an entry. -/
def altBucket (t b : Nat) : Nat := if b = bucket1 t then bucket2 t else bucket1 t

/-- Make room in a bucket by moving its first entry to its alternative bucket, up to `n` moves (R178). DESIGN CHOICE: which entries are
moved is open; the first of the bucket goes, and the chain starts at the tile's bucket h1 only (notes/assumptions/63). -/
def ptRoom : Nat → Sparse (List PtEntry) → Nat → Option (Sparse (List PtEntry))
  | 0, bk, b => if (sget [] bk b).length < 4 then some bk else none
  | n + 1, bk, b =>
    match sget [] bk b with
    | [] => some bk
    | e :: rest =>
      if rest.length < 3 then some bk
      else match ptRoom n (sset [] bk b rest) (altBucket e.tile b) with
        | none => none
        | some bk' => some (smod [] bk' (altBucket e.tile b) (fun l => l ++ [e]))

/-- Room for a tile without an entry: the buckets with a place free in one of its two. -/
def State.ptPlace (s : State) (t : Nat) : Option (Sparse (List PtEntry) × Nat) :=
  if (s.bucket (bucket1 t)).length < 4 then some (s.te.buckets, bucket1 t)
  else if (s.bucket (bucket2 t)).length < 4 then some (s.te.buckets, bucket2 t)
  else match ptRoom 32 s.te.buckets (bucket1 t) with
    | some bk => if (sget [] bk (bucket1 t)).length < 4 then some (bk, bucket1 t) else none
    | none => none

/-- Number of bits set. -/
def popMask (m : BitVec 64) : Nat := (List.range 64).foldl (fun n k => if m.getLsbD k then n + 1 else n) 0

/-- PTILE is set on a tile and journalled (R72, R178). -/
def State.ptWhole (s : State) (t : Nat) : State :=
  let e := s.entry t
  if e.ptile then s
  else
    let s := s.setEntry t { e with ptile := true }
    ({ s with te.since := serase s.te.since t }.addCnt R.TE_PT_WHOLE 1).journal [.tpoison t true]

/-- The poison table fills: its 65,536th line is listed, or a tile's buckets have no room (R72, R178). -/
def State.ptFull (s : State) (t : Nat) : State :=
  s.when (!s.bit F.TE_STS.PT_FULL) (fun s =>
    { (s.setBit F.TE_STS.PT_FULL true).roll 0x0502 0 8 0 t 0 with hp.fullAt := some s.tick.toNat })

/-- Enter a line into the poison table (R177): into its tile's entry, or into a new one; `none` when the table or both buckets
are full. -/
def State.ptPut (s : State) (line : Nat) : Option State :=
  let t := tileOf line
  if 65536 ≤ s.num R.TE_PT_LINES then none
  else if s.ptMask t != (0 : BitVec 64) then
    let upd := fun l : List PtEntry => l.map (fun e => if e.tile = t then { e with mask := e.mask ||| lineBit line } else e)
    some ({ s with te.buckets := smod [] (smod [] s.te.buckets (bucket1 t) upd) (bucket2 t) upd }.ptChanged t)
  else match s.ptPlace t with
    | none => none
    | some r =>
      let moved := (s.bucket (bucket1 t)).length == 4 && (s.bucket (bucket2 t)).length == 4
      let s := { s with te.buckets := smod [] r.1 r.2 (fun l => l ++ [PtEntry.mk t (lineBit line)]) }.addCnt R.TE_PT_TILES 1
      some (if moved then s.ptAllChanged else s.ptChanged t)

/-- Add a line to the poison table, or poison its whole tile when the table is full for it (R177, R178). -/
def State.poisonLine (s : State) (line : Nat) : State :=
  let t := tileOf line
  let s := { s.bmapSet t with hp.psrc := serase s.hp.psrc line }
  if s.listed line || (s.entry t).ptile then
    { s with te.since := smod 0 s.te.since t (fun m => m &&& ~~~(lineBit line)) }
  else
    match s.ptPut line with
    | some s =>
      let s := s.setEntry t { s.entry t with pline := true }
      let s := (s.addCnt R.TE_PT_LINES 1).journal [.poison line true]
      if 65536 ≤ s.num R.TE_PT_LINES then s.ptFull t else s
    | none => (s.ptFull t).ptWhole t

/-- Remove a line from the poison table (R177); under PTILE the line counts as written in full (R178). -/
def State.unpoisonLine (s : State) (line : Nat) : State :=
  let t := tileOf line
  let e := s.entry t
  let s := if e.ptile then { s with te.since := smod 0 s.te.since t (fun m => m ||| lineBit line) } else s
  if s.listed line then
    let s := { s.bmapSet t with hp.psrc := serase s.hp.psrc line }
    let mask := s.ptMask t &&& ~~~(lineBit line)
    let upd := fun l : List PtEntry =>
      if mask = 0 then l.filter (fun e => e.tile != t) else l.map (fun e => if e.tile = t then { e with mask := mask } else e)
    let s := { s with te.buckets := smod [] (smod [] s.te.buckets (bucket1 t) upd) (bucket2 t) upd }.ptChanged t
    let s := s.wrN R.TE_PT_LINES (s.num R.TE_PT_LINES - 1)
    let s := s.when (decide (mask = 0)) (fun s =>
      (s.wrN R.TE_PT_TILES (s.num R.TE_PT_TILES - 1)).setEntry t { s.entry t with pline := false })
    (s.setBit F.TE_STS.PT_FULL false).journal [.poison line false]
  else s

/-- Clear PTILE of a tile (R178). -/
def State.ptWholeClear (s : State) (t : Nat) : State :=
  let e := s.entry t
  if e.ptile then
    let s := s.setEntry t { e with ptile := false }
    ({ s with te.since := serase s.te.since t }.wrN R.TE_PT_WHOLE (s.num R.TE_PT_WHOLE - 1)).journal [.tpoison t false]
  else s

/-- The notices of a line poisoned after recovery (R105, R143, R286): a General Media Event record to the manager and the
region's port, and a Roll book record. -/
def State.lineEvents (s : State) (line src : Nat) : State :=
  let port := (List.range 16).filterMap (fun n =>
    if s.bit (F.RT_RG_CTL.EN n) && decide (s.num (R.RT_RG_BASE n) % 65536 * 2 ^ 22 ≤ line) &&
        decide (line < s.num (R.RT_RG_BASE n) % 65536 * 2 ^ 22 + s.num (R.RT_RG_SIZE n) % 2 ^ 17 * 2 ^ 22) then
      some (s.get (F.RT_RG_CTL.PORT n)) else none)
  let s := s.logTo (s.managers ++ port.filter (fun p => !(s.managers.contains p))) 2 ⟨0, [line]⟩
  s.roll 0x0603 0 src (line % 2 ^ 32) (line / 2 ^ 32) 0

/-- A read of the line meets poison under its entry: PTILE or the table (R72, R92). -/
def State.poisoned (s : State) (line : Nat) : Bool :=
  let e := s.entry (tileOf line)
  e.ptile || (e.pline && s.listed line)

/-! ### Slots (R126–R129, R172, R173) -/

/-- A slot's contents. -/
def State.slot (s : State) (n : Nat) : Slot := sget Slot.free s.te.slots n

/-- Change a slot. -/
def State.slotMod (s : State) (n : Nat) (f : Slot → Slot) : State :=
  { s with te.slots := smod Slot.free s.te.slots n f }

/-- Lowest free slot number, from 1. -/
def State.slotLowest (s : State) : Option Nat :=
  (List.range (s.te.slots.length + 1)).findSome? (fun k =>
    let n := k + 1
    if n ≤ s.slotCnt ∧ !(s.te.slots.any (fun x => x.1 == n)) then some n else none)

/-- The least recently used slot whose lines are all Absent or Clean. -/
def State.slotClean (s : State) : Option Nat :=
  (s.te.slots.foldl (fun (b : Option (Nat × Nat)) (x : Nat × Slot) =>
    if x.2.cleanOnly then
      match b with
      | none => some (x.2.lru, x.1)
      | some y => if x.2.lru < y.1 then some (x.2.lru, x.1) else b
    else b) none).map (·.2)

/-- Drop a slot: its tile's entry is media with SLOT 0, or unmapped where LOC is all ones (Table 6.3). -/
def State.slotDrop (s : State) (n : Nat) : State :=
  match (s.slot n).tile with
  | none => s
  | some t =>
    let e := s.entry t
    let s := if e.slot = n then s.setEntry t { e with slot := 0, st := if e.loc.isSome then 1 else 0 } else s
    { s with te.slots := serase s.te.slots n }

/-- The slot that is taken next in the order of R128, and the state with it free; `reserve` for writes and evictions, the only ones that
may use the last G. -/
def State.slotNext (s : State) (reserve : Bool) : Option (Nat × State) :=
  let free := s.slotCnt - s.te.slots.length
  if s.guardG < free then s.slotLowest.map (fun n => (n, s))
  else match s.slotClean with
    | some n => some (n, s.slotDrop n)
    | none => if reserve then s.slotLowest.map (fun n => (n, s)) else none

/-- A tile takes a slot (R128). -/
def State.slotTake (s : State) (t : Nat) (reserve : Bool) : Option (Nat × State) :=
  match s.slotNext reserve with
  | none => none
  | some (n, s) =>
    let x : Slot := { Slot.free with tile := some t, loc := (s.entry t).loc, lru := s.tick.toNat }
    some (n, { s with te.slots := sset Slot.free s.te.slots n x })

/-- The slot of a tile, taken where it has none. -/
def State.slotOf (s : State) (t : Nat) (reserve : Bool) : Option (Nat × State) :=
  if (s.entry t).slot ≠ 0 then some ((s.entry t).slot, s) else s.slotTake t reserve

/-- State of a line in a slot. -/
def Slot.lineSt (x : Slot) (k : Nat) : Nat := sget 0 x.st k

/-- Line k of a slot, decrypted (R312). -/
def State.slotLine (s : State) (n k : Nat) : Line := s.xtsIn (slotUnit n k) (sget 0 (s.slot n).data k)

/-- Put a Dirty line into the slot of its tile, in XTS, taking a slot where there is none, from the reserve only for writes and evictions
(R128); the entry becomes staged (R127, Table 6.3). The result tells the line's state before. `none` when no slot can be taken. -/
def State.slotPutDirty (s : State) (line : Nat) (d : Line) (reserve : Bool) : Option (Nat × State) :=
  let t := tileOf line
  let k := line % 64
  match s.slotOf t reserve with
  | none => none
  | some (n, s) =>
    let e := s.entry t
    let old := (s.slot n).lineSt k
    let hadDirty := (s.slot n).anyDirty
    let nw := if old = 3 ∨ old = 4 then 4 else 2
    let c := s.xtsOut (slotUnit n k) d
    let s := s.xtsUse.slotMod n (fun x =>
      { x with st := sset 0 x.st k nw, data := sset 0 x.data k c, lru := s.tick.toNat,
               age := if hadDirty then x.age else s.tick.toNat,
               due := if hadDirty then x.due else false })
    let loc := if e.st = 1 ∨ e.st = 2 then e.loc else none
    let s := s.slotMod n (fun x => { x with loc := loc })
    let s := if e.st = 2 ∧ e.slot = n then s else s.setEntry t { e with st := 2, slot := n, loc := loc }
    some (old, s.pcItem 9)

/-- Put a line read from media into its tile's slot as Clean (R129); only where the slot holds nothing of it, and only by
rules 1 and 2 of R128. -/
def State.slotPutClean (s : State) (line : Nat) (d : Line) : State :=
  let t := tileOf line
  let k := line % 64
  let e := s.entry t
  if e.st ≠ 1 ∧ e.st ≠ 2 then s
  else
    let got : Option (Nat × State) := if e.slot ≠ 0 then some (e.slot, s) else s.slotTake t false
    match got with
    | none => s
    | some (n, s) =>
      if (s.slot n).lineSt k ≠ 0 then s
      else
        let s := if (s.entry t).slot = n then s else s.setEntry t { s.entry t with slot := n }
        let c := s.xtsOut (slotUnit n k) d
        (s.xtsUse.slotMod n (fun x => { x with st := sset 0 x.st k 1, data := sset 0 x.data k c, lru := s.tick.toNat })).tsStatus.pcItem 9

/-! ### Blocks, dies and placing (R180–R182, R206–R208) -/

/-- A block. -/
def State.blk (s : State) (d b : Nat) : Blk := sget Blk.fresh s.te.blocks (2048 * d + b)

/-- Change a block. -/
def State.blkMod (s : State) (d b : Nat) (f : Blk → Blk) : State :=
  { s with te.blocks := smod Blk.fresh s.te.blocks (2048 * d + b) f }.segChanged (blockSegment (2048 * d + b))

/-- A page of a reserved block is programmed: its number is found in its header at the next start, so that its record is no change that a
checkpoint waits for (R197). -/
def State.areaPage (s : State) (d b pg seq : Nat) : State :=
  { s with te.blocks := smod Blk.fresh s.te.blocks (2048 * d + b) (fun k => { k with next := pg + 1, seqs := k.seqs ++ [seq] }) }

/-- Change a die's controller state. -/
def State.dieMod (s : State) (d : Nat) (f : DieCtl → DieCtl) : State :=
  { s with te.dies := smod DieCtl.ok s.te.dies d f }

/-- Blocks of a die in a state. -/
def State.blocksIn (s : State) (d : Nat) (st : Nat) : List Nat :=
  (List.range 2048).filter (fun b => (s.blk d b).st == st)

/-- The die where a tile is programmed: its home die, or the substitute (R180, R181). -/
def State.homeDie (s : State) (t : Nat) : Nat :=
  let h := s.te.fmt.getD (homeIndex t s.te.fmt.length) 0
  match s.te.subst.find? (fun x => x.1 == h) with
  | none => h
  | some x => x.2

/-- The first of a list with the lowest key. -/
def argMin (key : Nat → Nat) : List Nat → Option Nat
  | [] => none
  | x :: t => match argMin key t with
    | none => some x
    | some y => if key y < key x then some y else some x

/-- The first of a list with the highest key. -/
def argMax (key : Nat → Nat) : List Nat → Option Nat
  | [] => none
  | x :: t => match argMax key t with
    | none => some x
    | some y => if key x < key y then some y else some x

/-- Page sequence number of a page (R188). -/
def State.pageSeq (s : State) (l : Loc) : Nat := (s.blk l.die l.block).seqs.getD l.page 0

/-- A tile position is valid: an entry has its LOC there, media or staged (R220). -/
def State.validAt (s : State) (t : Nat) (l : Loc) : Bool :=
  let e := s.entry t
  (e.st == 1 || e.st == 2) && e.loc == some l

/-- Valid tiles of a block with their places. -/
def State.validTiles (s : State) (d b : Nat) : List (Nat × Loc) :=
  s.te.map.filterMap (fun (x : Nat × TEntry) =>
    match x.2.loc with
    | some l => if l.die = d ∧ l.block = b ∧ (x.2.st = 1 ∨ x.2.st = 2) then some (x.1, l) else none
    | none => none)

/-- Nothing keeps a closed block: no valid tile position, and no unreleased parity page (Table 7.1). -/
def State.blkSpent (s : State) (d b : Nat) : Bool :=
  let st := (s.blk d b).st
  ((st == 4 || st == 5) && (s.validTiles d b).isEmpty) ||
    (st == 6 && s.te.stripes.all (fun y => y.released || y.parity.all (fun k => k / 2048 != 2048 * d + b)))

/-- A page whose tiles verification has sent to be copied counts as verified once no tile is left there (R216); a closed block whose every
page is verified is verified (Table 7.1). -/
def State.pageSettle (s : State) (d b : Nat) : State :=
  let tiles := s.validTiles d b
  let done := (s.blk d b).copying.filter (fun p => !(tiles.any (fun (x : Nat × Loc) => x.2.page == p)))
  let s := if done.isEmpty then s else s.blkMod d b (fun k =>
    { k with verified := done.foldl (fun l p => setIns p l) k.verified, copying := done.foldl (fun l p => setDel p l) k.copying })
  let k := s.blk d b
  if k.st = 4 ∧ k.next ≠ 0 ∧ (List.range k.next).all (fun p => k.verified.contains p) then
    (s.blkMod d b (fun k => { k with st := 5 })).journal [.block d b 5 k.erases]
  else s

/-- A closed, verified or parity-held block that nothing keeps any more becomes awaiting erase, or is retired when it has been marked
(Table 7.1, R216, R225). -/
def State.blkSettle (s : State) (d b : Nat) : State :=
  let s := s.pageSettle d b
  let k := s.blk d b
  if s.blkSpent d b then
    if k.condemned then
      (((s.blkMod d b (fun k => { k with st := 8 })).journal [.block d b 6 k.erases]).addCnt R.TE_BLK_RETIRED 1).roll
        0x0505 0 8 d b 0
    else s.blkMod d b (fun k => { k with st := 7, flushAt := s.jseq + s.te.jbuf.length })
  else s

/-! ### Regions (R52–R56, R111) -/

/-- Bounds of region n in lines: first line and length. -/
def State.rgFirst (s : State) (n : Nat) : Nat := s.num (R.RT_RG_BASE n) % 65536 * 2 ^ 22
def State.rgLines (s : State) (n : Nat) : Nat := s.num (R.RT_RG_SIZE n) % 2 ^ 17 * 2 ^ 22

/-- A line lies in region n's range. -/
def State.inRegion (s : State) (n line : Nat) : Bool :=
  decide (s.rgFirst n ≤ line) && decide (line < s.rgFirst n + s.rgLines n)

/-- The enabled region that holds a line. -/
def State.regionOf (s : State) (line : Nat) : Option Nat :=
  (List.range 16).find? (fun n => s.bit (F.RT_RG_CTL.EN n) && s.inRegion n line)

/-- The region whose attributes apply to a line on media: enabled, or closing (R54). -/
def State.regionAny (s : State) (line : Nat) : Option Nat :=
  (List.range 16).find? (fun n =>
    (s.bit (F.RT_RG_CTL.EN n) || s.bit (F.RT_RG_STS.CLOSING n) || s.te.closing.any (fun x => x.1 == n)) && s.inRegion n line)

/-! ### Keys (R298, R304, R308) -/

/-- The slot whose key a page of a region uses: the old slot below ROT_SEQ while the region rotates (R308). -/
def State.keyFor (s : State) (n seq : Nat) : Nat :=
  let w := s.num (R.CE_RG_SLOT n)
  let rot := s.num (R.CE_RG_ROTSEQ_LO n) + 2 ^ 32 * (s.num (R.CE_RG_ROTSEQ_HI n) % 65536)
  if s.bit (F.CE_RG_SLOT.ROTATING n) && decide (seq < rot) then w / 4096 % 4096 else w % 4096

/-- The key of a line's region is used, for the page of a sequence number or as named (R303, R313). -/
def State.lineKeyUse (s : State) (line seq own : Nat) : State :=
  match s.regionAny line with
  | some n => if s.bit (F.RT_RG_CTL.CTX_EN n) then s.keyUse (if own = 0 then s.keyFor n seq else own) else s
  | none => s

/-- The line's own stored form under its region's context (R262, R304). -/
def State.storeLine (s : State) (line seq pos : Nat) (d : Line) : StoredLine :=
  match s.regionAny line with
  | some n =>
    if s.bit (F.RT_RG_CTL.CTX_EN n) then
      let k := s.keySlot (s.keyFor n seq)
      let c := d ^^^ gcmStream k.key (lineIv seq pos) 0
      slMake c ((gcmTag k.key k.h (lineIv seq pos) (lineAad line) [c]).setWidth 64) true true false line
    else slMake d 0 true false false line
  | none => slMake d 0 true false false line

/-- What the codec and the cipher engine make of a received line: the plaintext and corrected bits, a failed decode,
a failed LCHK, or a failed tag (R265, R304, R306). -/
inductive Decoded where
  | ok (d : Line) (bits : Nat)
  | bad
  | lchk
  | tag (slot : Option Nat)
  deriving DecidableEq, Repr

/-- The check failed on the tag. -/
def Decoded.tagBad : Decoded → Bool
  | .tag _ => true
  | _ => false

/-- Decode and check one received stored line of a data page. `group` is the media group whose codec decodes it, `own` the key
slot with which the read began (R300); 0 leaves the choice to the page's sequence number (R308). -/
def State.checkLine (s : State) (group line seq pos own : Nat) (w : StoredLine) : Decoded :=
  match bchDecode w with
  | none => .bad
  | some (c, bits) =>
    if s.bit (F.MG_CDC_CTL.LCHK_EN group) && slLchk c != line % 2 ^ 24 then .lchk
    else match s.regionAny line with
      | some n =>
        let slot := if own = 0 then s.keyFor n seq else own
        if s.bit (F.RT_RG_CTL.CTX_EN n) != slEnc c then .tag (if s.bit (F.RT_RG_CTL.CTX_EN n) then some slot else none)
        else if slEnc c then
          let k := s.keySlot slot
          if s.keyGate slot = 0 ∧ (gcmTag k.key k.h (lineIv seq pos) (lineAad line) [slData c]).setWidth 64 = slTag c then
            .ok (slData c ^^^ gcmStream k.key (lineIv seq pos) 0) bits
          else .tag (some slot)
        else .ok (slData c) bits
      | none => if slEnc c then .tag none else .ok (slData c) bits

/-- The key slot that a read of a page's tile takes as it begins (R101, R300); 0 for none. -/
def State.readKey (s : State) (l : Loc) : Nat :=
  match (s.mpage l.die l.block l.page).tiles[l.tip]? with
  | some (some t) => match s.regionAny (64 * t.tile) with
    | some n => if s.bit (F.RT_RG_CTL.CTX_EN n) then s.keyFor n (s.pageSeq l) else 0
    | none => 0
  | _ => 0

end Sys2Proof.Machine
end

