-- ==== Sys2Proof/Machine/CacheOps.lean ====
section
/-! DEFINITION. The line cache as operations over the state (05_on_die_caches.md R140–R158): lookup, replacement, victim
move, writes in place, fills, and the actions of range operations on one way. -/

set_option autoImplicit false

namespace Sys2Proof.Machine

/-- Set and tag of a line (R140). -/
def lcSet (line : Nat) : Nat := line % 65536
def lcTag (line : Nat) : Nat := line / 65536

/-- A way of a set. -/
def State.way (s : State) (set w : Nat) : Way := sget Way.none s.lc.ways (16 * set + w)

/-- The 26 bits of the tag entry under its parity: TAG, V, D, L and P from bit 0 (Table 5.2). -/
def Way.tagBits (x : Way) : BitVec 26 :=
  BitVec.ofNat 26 (x.tag % 2 ^ 22 + x.v.toNat * 2 ^ 22 + x.d.toNat * 2 ^ 23 + x.l.toNat * 2 ^ 24 + x.p.toNat * 2 ^ 25)

/-- Ones among the low `n` bits of a number. -/
def popBits (n v : Nat) : Nat := ((List.range n).filter (fun k => v.testBit k)).length

/-- A way as it is stored: PAR and TCOPY follow the tag entry, the check bits their words (R141, R266). An invalid way is stored cleared. -/
def Way.sealed (x : Way) : Way :=
  if !x.v then Way.none
  else
    let t := x.tagBits
    { x with
      par := decide (popBits 26 t.toNat % 2 = 1)
      tcopy := t
      tchk := BitVec.ofNat 6 (Config.secded 1 t.toNat)
      chk := BitVec.ofNat 36 ((List.range 4).foldl (fun n k =>
        n + Config.secded 0 (x.data.toNat / 2 ^ (128 * k) % 2 ^ 128) % 2 ^ 9 * 2 ^ (9 * k)) 0) }

/-- The tag entry as TCOPY gives it (R142). -/
def Way.fromCopy (x : Way) : Way :=
  { x with
    tag := x.tcopy.toNat % 2 ^ 22, v := x.tcopy.getLsbD 22, d := x.tcopy.getLsbD 23, l := x.tcopy.getLsbD 24, p := x.tcopy.getLsbD 25 }

/-- Store a way. -/
def State.setWay (s : State) (set w : Nat) (x : Way) : State :=
  { s with lc.ways := sset Way.none s.lc.ways (16 * set + w) x.sealed }

/-- A dirty way has an uncorrectable word, and its line is on its way from the partner (R143). -/
def State.wayLost (s : State) (set w : Nat) : Bool := s.lc.lost.contains (16 * set + w)

/-- The way's line is fetched, or the way takes other data or is emptied. -/
def State.wayFetch (s : State) (set w : Nat) (on : Bool) : State :=
  { s with lc.lost := if on then setIns (16 * set + w) s.lc.lost else setDel (16 * set + w) s.lc.lost }

/-- Line that a way of a set holds. -/
def wayLine (set : Nat) (x : Way) : Nat := x.tag * 65536 + set

/-- Ways of a set in use: not withdrawn (R142). -/
def State.waysOf (s : State) (set : Nat) : List Nat :=
  (List.range 16).filter (fun w => !(s.lc.withdrawn.contains (16 * set + w)))

/-- Lookups in the ways run (R91, R155, R166). -/
def State.lcOn (s : State) : Bool := s.bit F.LC_CTL.EN && !s.bit F.LC_STS.CHECK_BUSY

/-- The way that holds a line. -/
def State.lcFind (s : State) (line : Nat) : Option Nat :=
  (s.waysOf (lcSet line)).find? (fun w => let x := s.way (lcSet line) w; x.v && x.tag == lcTag line)

/-- The newest eviction buffer of a line (R119). -/
def State.bufFind (s : State) (line : Nat) : Option EvBuf := s.lc.bufs.reverse.find? (fun b => b.line == line)

/-! ### The pseudo-LRU tree (R140) -/

/-- Point the four nodes on a way's path away from it; node n's children are 2n and 2n + 1, from node 1. -/
def plruTouch (t w : Nat) : Nat :=
  (List.range 4).foldl (fun (acc : Nat × Nat) k =>
    let b := w / 2 ^ (3 - k) % 2
    let bit := 2 ^ (acc.2 - 1)
    let cleared := if acc.1 / bit % 2 = 1 then acc.1 - bit else acc.1
    (if b = 0 then cleared + bit else cleared, 2 * acc.2 + b)) (t, 1) |>.1

/-- The way that the tree chooses among allowed ways: at each node the side its bit points to, when that side has an
allowed way, otherwise the other side. -/
def plruPick (t : Nat) (allowed : List Nat) : Nat → Nat → Nat → Option Nat
  | 0, base, _ => if allowed.contains base then some base else none
  | n + 1, base, node =>
    let lo := base
    let hi := base + 2 ^ n
    let first := if t / 2 ^ (node - 1) % 2 = 0 then plruPick t allowed n lo (2 * node) else plruPick t allowed n hi (2 * node + 1)
    match first with
    | some w => some w
    | none =>
      if t / 2 ^ (node - 1) % 2 = 0 then plruPick t allowed n hi (2 * node + 1) else plruPick t allowed n lo (2 * node)

/-- Update the tree on a hit or an allocation. -/
def State.lcTouch (s : State) (set w : Nat) : State :=
  { s with lc.plru := smod 0 s.lc.plru set (fun t => plruTouch t w) }

/-! ### Counts -/

/-- Lower a register. -/
def State.subCnt (s : State) (o n : Nat) : State := s.wrN o (s.num o - n)

/-- STALE_HELD clears when no valid line remains (R157). -/
def State.staleShow (s : State) : State :=
  if s.bit F.LC_STS.STALE_HELD && s.lc.ways.all (fun (x : Nat × Way) => !x.2.v) then s.setBit F.LC_STS.STALE_HELD false else s

/-- Dirty lines in the ways. -/
def State.lcDirty (s : State) : Nat := (s.lc.ways.filter (fun (x : Nat × Way) => x.2.v && x.2.d)).length

/-- Completed writes that lie above the tile stage and that the dirty count holds, or will hold with the first budget: eviction buffers
and, unless STALE_HELD, dirty ways (R155, R163). -/
def State.lcCounted (s : State) : Nat := (if s.bit F.LC_STS.STALE_HELD then 0 else s.lcDirty) + s.lc.bufs.length

/-- Empty a way without write-back: its dirty line releases 1, its lock is released (Table 4.4). While STALE_HELD is 1 the held dirty
lines are outside the dirty count already (R155); lines kept across a reset are charged with the first budget only (R163). -/
def State.lcClear (s : State) (set w : Nat) : State :=
  let x := s.way set w
  let s := (s.setWay set w Way.none).wayFetch set w false
  let s := if x.v && x.l then s.subCnt R.LC_LOCK_CNT 1 else s
  let s := if x.v && x.d then
      let s := s.subCnt R.LC_DIRTY_CNT 1
      if s.bit F.LC_STS.STALE_HELD || s.lc.keptUncharged then s else s.release 1
    else s
  s.staleShow

/-- Invalidate a way without write-back. -/
def State.lcInvalidate (s : State) (set w : Nat) : State := if (s.way set w).v then s.lcClear set w else s

/-- Leave a correctable error in a stored word, or write the word anew (R143). -/
def State.lcMark (s : State) (set w k : Nat) (bad : Bool) : State :=
  let x := s.way set w
  let bit := BitVec.ofNat 4 (2 ^ k)
  if x.v then s.setWay set w { x with ce := if bad then x.ce ||| bit else x.ce &&& ~~~bit } else s

/-- Uncorrectable data words of a way that an access meets. -/
def ueWords (ups : List Upset) (w : Nat) : Nat :=
  ((List.range 4).filter (fun k => ups.any (fun u => match u with | .ue v j => v.val == w && j.val == k | _ => false))).length

/-- Move a dirty way's line into an eviction buffer, keeping it valid and clean (R116, Table 5.3); its corrected words count (R143). -/
def State.lcWriteBack (s : State) (set w : Nat) : State :=
  let x := s.way set w
  if x.v && x.d then
    ({ s.setWay set w { x with d := false } with lc.bufs := s.lc.bufs ++ [EvBuf.mk (wayLine set x) x.data] }.subCnt R.LC_DIRTY_CNT 1).addCnt
      R.LC_CE_CNT (popBits 4 x.ce.toNat)
  else s

/-- Choose the way of an allocation (R144); `none` where the rules give none. -/
def State.lcVictim (s : State) (set : Nat) : Option Nat :=
  let ws := s.waysOf set
  match ws.find? (fun w => !(s.way set w).v) with
  | some w => some w
  | none =>
    let t := sget 0 s.lc.plru set
    match plruPick t (ws.filter (fun w => let x := s.way set w; !x.d && !x.l)) 4 0 1 with
    | some w => some w
    | none =>
      if s.lc.bufs.length < 512 then plruPick t (ws.filter (fun w => let x := s.way set w; x.d && !x.l)) 4 0 1 else none

/-- Empty the chosen way, moving a dirty victim into an eviction buffer. -/
def State.lcEmpty (s : State) (set w : Nat) : State :=
  let s := s.lcWriteBack set w
  (s.setWay set w Way.none).wayFetch set w false

/-- Write data into a way that holds the line, or into the chosen way (W6); the data word's error goes (R143). -/
def State.lcPut (s : State) (line w : Nat) (d : Line) (dirty p : Bool) : State :=
  let set := lcSet line
  let x := s.way set w
  let s := if dirty && !x.d then s.addCnt R.LC_DIRTY_CNT 1 else s
  (s.setWay set w { Way.none with v := true, tag := lcTag line, d := x.d || dirty, l := x.l, p := p, data := d }).wayFetch set w false
    |>.lcTouch set w

/-- A fill after a read (R103, R144, R158): never over a line held, never with poison; dropped and counted when no way is
found, its victim's line waits for the partner's copy, or SAFE_DISABLE runs. -/
def State.lcFill (s : State) (line : Nat) (d : Line) : State :=
  if !s.lcOn then s
  else if (s.lcFind line).isSome || (s.bufFind line).isSome then s
  else if s.bit F.LC_STS.SAFE_BUSY then s.bump R.LC_FILL_DROP
  else match s.lcVictim (lcSet line) with
    | none => s.bump R.LC_FILL_DROP
    | some w =>
      if s.wayLost (lcSet line) w then s.bump R.LC_FILL_DROP
      else (s.lcEmpty (lcSet line) w).lcPut line w d false false

/-- Raise against the line cache, source 7. -/
def State.lcFault (s : State) (sev kind : Nat) : State := s.raise 7 sev kind

/-- A tag parity error repaired from TCOPY (R142). -/
def State.lcTagRepair (s : State) (set w : Nat) : State :=
  let x := s.way set w
  ((s.setWay set w { x.fromCopy with ce := x.ce }).bump R.LC_TAG_PE_CNT).lcFault 1 Kind.PARITY

/-- A way whose tag and TCOPY are both lost is withdrawn until the next AUX power-on reset (R142). -/
def State.lcWithdraw (s : State) (set w : Nat) : State :=
  ({ s.lcClear set w with lc.withdrawn := setIns (16 * set + w) s.lc.withdrawn }).lcFault 3 Kind.UE

/-- An uncorrectable data word of a dirty way that no partner copy repairs (R143): poison table, invalidation, notices,
severity-2 fault. -/
def State.lcLoseDirty (s : State) (set w : Nat) : State :=
  let line := wayLine set (s.way set w)
  (((s.poisonLine line).lcInvalidate set w).lineEvents line 7).lcFault 2 Kind.UE

/-- Newer data of a line has been accepted: the line cache, an eviction buffer or the slot holds it. -/
def State.superseded (s : State) (line : Nat) : Bool :=
  (s.bufFind line).isSome ||
  (match s.lcFind line with | some w => (s.way (lcSet line) w).d | none => false) ||
  decide (2 ≤ (s.slot (s.entry (tileOf line)).slot).lineSt (line % 64)) && (s.entry (tileOf line)).slot != 0

/-- A line becomes poisoned wherever a copy lies (R69, R70): it is listed, and its copies hold the zeros that partial writes
merge into (R71). -/
def State.poisonNow (s : State) (line : Nat) : State :=
  let s := s.poisonLine line
  let s := match s.lcFind line with
    | some w => (s.setWay (lcSet line) w { s.way (lcSet line) w with p := true, data := 0 }).wayFetch (lcSet line) w false
    | none => s
  let s := { s with lc.bufs := s.lc.bufs.map (fun (b : EvBuf) => if b.line = line then { b with data := 0 } else b) }
  let n := (s.entry (tileOf line)).slot
  if n = 0 ∨ (s.slot n).lineSt (line % 64) = 0 then s
  else
    let c := s.xtsOut (slotUnit n (line % 64)) 0
    s.xtsUse.slotMod n (fun x => { x with data := sset 0 x.data (line % 64) c })

/-- The pair is attached and the line's region in sync (R339). -/
def State.partnerCopy (s : State) (line : Nat) : Bool :=
  s.twinUp && match s.regionOf line with
    | none => false
    | some n => s.rd R.CAR_RG_STS |>.getLsbD (16 + n)

end Sys2Proof.Machine
end

