-- ==== Sys2Proof/Machine/PathOps.lean ====
section
/-! DEFINITION. Requests as operations over the state: measurement, responses, supply and merge of data, media reads, the start of a
reconstruction, and the loss of a line (02_memory_model.md R57–R60, R69–R81; 03_read_path.md R87–R105;
07_media_upkeep.md R213, R214). -/

set_option autoImplicit false

namespace Sys2Proof.Machine

/-! ### Classes and measurement (R75–R81) -/

/-- Class bound in ns (Table 2.3). -/
def classNs (c : Nat) : Nat :=
  match c with
  | 0 => 220 | 1 => 420 | 2 => 4000 | 3 => 350 | 4 => 900
  | 5 => 900 | 6 => 1100 | 7 => 4680
  | 8 => 350 | 9 => 550 | 10 => 4130
  | _ => 0

/-- Additions of the exceptions that a partial write's read of its old line met (R79, R118). -/
def Req.additions (r : Req) : Nat :=
  if 5 ≤ r.cls then
    (if r.excs.contains 50 then 36000 else if r.excs.contains 4 then 26000 else 4500 * r.retries) +
      (if r.excs.contains 6 then 1600 * ((r.dieN - 8 + 3) / 4) else 0)
  else 0

/-- Lowest rank of Table 2.4 that applied, 0 for none; 50 is the partner repair of rank 5. -/
def Req.rank (r : Req) : Nat :=
  r.excs.foldl (fun m x => let x := if x = 50 then 5 else x; if m = 0 ∨ x < m then x else m) 0

/-- Bound that the receiving controller measures against: forwarding adds 400 ns. -/
def Req.boundNs (r : Req) (fwd : Bool) : Nat := classNs r.cls + r.additions + (if fwd then 400 else 0)

/-- LATE counter of a rank (Table 2.5); rank 0 stands for RT_LATE_UNEXPL. -/
def lateReg (rank : Nat) : Nat := R.RT_LATE_STATE + 4 * ((rank + 7) % 8)

/-- Count one request beyond its class bound; with EVT_EN the first increment writes a record (R80, R84). -/
def State.countLate (s : State) (rank : Nat) : State :=
  let o := lateReg rank
  let s := s.when (s.bit F.RT_LATE_CTL.EVT_EN && s.num o == 0) (fun s => s.roll 0x0300 0 31 0 (o % 4096) 0)
  let s := s.bump o
  if rank = 0 then s.raise 31 2 Kind.LIMIT else s

/-- Measure an answered request (R80, R81). -/
def State.measure (s : State) (r : Req) (fwd : Bool) : State :=
  if s.bit F.RT_LATE_CTL.MON_EN && decide (r.boundNs fwd < 10 * (s.tick.toNat - r.stamp)) then s.countLate r.rank else s

/-! ### Requests -/

/-- Change a request. -/
def State.reqMod (s : State) (id : Nat) (f : Req → Req) : State :=
  { s with rt.reqs := s.rt.reqs.map (fun r => if r.id = id then f r else r) }

/-- Remove a request. -/
def State.reqDel (s : State) (id : Nat) : State := { s with rt.reqs := s.rt.reqs.filter (fun r => r.id != id) }

/-- A request by number. -/
def State.req (s : State) (id : Nat) : Option Req := s.rt.reqs.find? (fun r => r.id == id)

/-- FLAGS of FWD_RSP and FWD_CMP (Table 11.4): poison or not performed, owner's class, lowest rank. -/
def fwdFlags (b : Bool) (r : Req) : Nat := b.toNat + r.cls % 8 * 2 + r.rank % 16 * 16

/-- Highest mirror sequence number that a MACK may name: every MWR at or below it is placed (R337). -/
def State.mackTag (s : State) : Nat :=
  s.rt.reqs.foldl (fun m r => match r.src with | .mirror q => min m (q - 1) | _ => m) s.tw.placedMax

/-- The response leaves: measured, counted and its credit returned. `np` marks a write not performed. -/
def State.respond (s : State) (r : Req) (d : Line) (poison np : Bool) : State :=
  let s := s.reqDel r.id
  let rd := r.kind == .read
  let s := match r.src with
    | .host p _ =>
      let s := if rd then
          let s := { s.emit (.memData r.src d poison) with hp.bwRd := smod 0 s.hp.bwRd p.val (fun n => n + 64) }
          if poison then s.bump (R.HP_POISON_RSP p) else s
        else s.emit (.memDone r.src)
      s.measure r (r.stage == Stage.forward)
    | .twin tag =>
      if rd then s.car 0x12 tag [fwdFlags poison r, d.toNat] else s.car 0x13 tag [fwdFlags np r]
    | .mirror q =>
      let s := { s with tw.placedMax := max q s.tw.placedMax }
      s.car 0x22 s.mackTag []
    | .rep tag => (s.car 0x31 tag [poison.toNat, if poison then 0 else d.toNat]).crd 0 0 1 0
    | .device => s
    | .cmd dst => s.reply dst .success 0 []
  s.creditBack r

/-- Merge the enabled bytes of a partial write (R59, R118). -/
def mergeBytes (old d : Line) (be : BitVec 64) : Line :=
  (List.range 64).foldl (fun (acc : Line) k =>
    if be.getLsbD k then (acc &&& ~~~((0xFF : Line) <<< (8 * k))) ||| (((d >>> (8 * k)) &&& 0xFF) <<< (8 * k)) else acc) old

/-- A line that the twin asks for (R339). -/
def Req.forTwin (r : Req) : Bool := match r.src with | .rep _ => true | _ => false

/-- Retries that a request's media line may take: one for a repair, three for any other (R278, R339). -/
def Req.retryMax (r : Req) : Nat := if r.forTwin then 1 else 3

/-- A new request. -/
def Req.new (id : Nat) (src : ReqFrom) (line : Nat) (k : ReqKind) (stage : Stage) (region : Option Nat) (stamp cls : Nat) : Req :=
  { id := id, src := src, line := line, kind := k, stage := stage, region := region, stamp := stamp, cls := cls, excs := [],
    retries := 0, dieN := 0, merged := false, reissued := false, poison := false,
    be := (match k with | .part _ be => be | _ => BitVec.allOnes 64), closed := false, zero := false, atHand := false }

/-- A line of a whole-poisoned tile that has not been written in full since (R72, R178). -/
def State.wholeLine (s : State) (line : Nat) : Bool :=
  (s.entry (tileOf line)).ptile && !(sget 0 s.te.since (tileOf line)).getLsbD (line % 64)

/-- The data of a write. -/
def Req.wdata (r : Req) : Line := match r.kind with | .write d => d | .part d _ => d | _ => 0

/-- Data found for one request: a read is answered, with poison under a whole-poisoned tile (R72); a partial write takes it as its old
line (R118). A line discarded since is zero (R65, R66). -/
def State.supplyOne (s : State) (r : Req) (d : Line) (poison : Bool) (cls : Nat) : State :=
  let old := if r.zero then 0 else d
  match r.kind with
  | .read => s.respond { r with cls := cls } old (!r.zero && (poison || (s.entry (tileOf r.line)).ptile)) false
  | .part w be =>
    s.reqMod r.id (fun x => { x with
      kind := .write (mergeBytes old w be), merged := true, poison := !r.zero && (poison || s.wholeLine r.line), cls := 8 + cls,
      stage := .placing, excs := r.excs, retries := r.retries, dieN := r.dieN })
  | _ => s

/-- Requests ordered behind one go on (R60). -/
def State.wakeAfter (s : State) (id : Nat) : State :=
  { s with rt.reqs := s.rt.reqs.map (fun (x : Req) => if x.stage == .after id then { x with stage := .ready } else x) }

/-- A request joined to another takes the exceptions that the other met beside its own (R79, R88). -/
def Req.joinedTo (x r : Req) : Req :=
  { x with excs := x.excs ++ r.excs, retries := max x.retries r.retries, dieN := max x.dieN r.dieN }

/-- Requests joined to another are given its data, class and exceptions (R88). -/
def State.supplyJoined (s : State) (r : Req) (d : Line) (poison : Bool) (cls : Nat) : State :=
  (s.rt.reqs.filter (fun (x : Req) => x.stage == .joined r.id)).foldl (fun s (x : Req) => s.supplyOne (x.joinedTo r) d poison cls) s

/-- Reads joined to a partial write receive the merged line once its old line is there (R88). -/
def State.supplyBehind (s : State) (r : Req) (cls : Nat) : State :=
  match s.req r.id with
  | some w => s.supplyJoined w w.wdata w.poison cls
  | none => s

/-- Data found for a request and for those joined to it, and to a partial write among them (R88). -/
def State.supply (s : State) (r : Req) (d : Line) (poison : Bool) (cls : Nat) : State :=
  let parts := s.rt.reqs.filter (fun (x : Req) => x.stage == .joined r.id && x.kind != .read)
  let s := s.supplyOne r d poison cls
  match r.kind with
  | .read => (parts.foldl (fun s (x : Req) => s.supplyBehind x cls) (s.supplyJoined r d poison cls)).wakeAfter r.id
  | .part _ _ => s.supplyBehind r cls
  | _ => s

/-- A read of a line is under way below the line cache. -/
def Stage.below : Stage → Bool
  | .mapRead | .second | .partner => true
  | .held _ | .media _ | .recon _ => true
  | _ => false

/-- A line's contents change: reads of it that are under way take no further request and fill no cache, and no read copy of it is
kept (R60, R103, R129). -/
def State.closeReads (s : State) (line : Nat) : State :=
  { s with
    rt.reqs := s.rt.reqs.map (fun (x : Req) => if x.line = line ∧ x.kind = .read ∧ x.stage.below then { x with closed := true } else x)
    ce.jobs := s.ce.jobs.filter (fun (j : Nat × CipherJob) => match j.2 with | .keep l _ => l != line | _ => true) }

/-! ### Stripes as reads use them (R210, R213) -/

/-- Place of a packed page. -/
def pagePlace (key : Nat) : Loc := ⟨key / 2 ^ 22, key / 2 ^ 11 % 2048, key % 2048, 0⟩

/-- The stripe that holds a page as a member. -/
def State.stripeOfPage (s : State) (key : Nat) : Option Stripe :=
  s.te.stripes.find? (fun x => x.members.contains key && !x.released)

/-! ### Media reads (R96–R100, R241, R277, R278) -/

/-- Media group of a die. -/
def groupOf (die : Nat) : Nat := die / 64

/-- Host and forwarded misses counted on a die (R77). -/
def State.dieOut (s : State) (d : Nat) : Nat := (s.rt.reqs.filter (fun r => r.stage == .media d)).length

/-- Misses in a die's overflow queue. -/
def State.dieHeld (s : State) (d : Nat) : Nat := (s.rt.reqs.filter (fun r => r.stage == .held d)).length

/-- RT_STS.HELD_ANY follows the overflow queues (Table 3.7). -/
def State.heldShow (s : State) : State :=
  s.setBit F.RT_STS.HELD_ANY (s.rt.reqs.any (fun r => match r.stage with | .held _ => true | _ => false))

/-- A program or erase runs on the die. -/
def State.dieBusy (s : State) (d : Nat) : Bool :=
  s.te.progs.any (fun p => p.die == d && p.stage == .busy) || (s.die d).erase.isSome

/-- Reference set of a class's base read or retry (Table 9.7). -/
def refSet (row retry : Nat) : Nat :=
  ([[0, 1, 6, 2], [1, 2, 0, 3], [2, 3, 1, 4], [3, 4, 2, 5], [4, 5, 3, 2]].getD row []).getD retry 0

/-- Row of Table 9.7 by which a block is read: its age class, or A4 while the unknown-age state lasts and it is marked (R276, R278). -/
def State.ageRow (s : State) (d b : Nat) : Nat :=
  if s.bit F.SIR_STS.UNKNOWN_AGE && (s.blk d b).unknown then 4 else sget 0 s.sir.ages (2048 * d + b)

/-- A host or forwarded miss. -/
def MPurpose.host? : MPurpose → Bool
  | .host _ => true
  | _ => false

/-- A read has host priority: a miss, or a line that a reconstruction for a miss needs (R214). -/
def State.urgentRead (s : State) (p : MPurpose) : Bool :=
  match p with
  | .host _ => true
  | .gather _ _ _ => false
  | .member j => s.te.recons.any (fun (x : Recon) => x.id == j && x.why.host?)

/-- READ_LINE as it goes to the die: place, line, reference set, and whether it takes a host slot. -/
def State.readCmd (s : State) (m : MRead) : State :=
  s.emit (.media (chanOf m.loc.die) Cmd.readLine
    [m.loc.die, m.loc.block, m.loc.page, m.pos, refSet (s.ageRow m.loc.die m.loc.block) m.retry, m.purpose.host?.toNat])

/-- Suspend a program or erase that runs on the die (R98). -/
def State.suspendDie (s : State) (d : Nat) : State :=
  if s.dieBusy d && !(s.die d).suspended then
    ((s.emit (.media (chanOf d) Cmd.suspend [d])).bump (R.MC_SUSP_CNT (chanOf d))).dieMod d
      (fun x => { x with suspended := true, suspAt := s.tick.toNat })
  else s

/-- Background slots of a die in use (R96): from the READ_LINE until the die has delivered the line, which frees the slot (R243). -/
def State.bgUsed (s : State) (d : Nat) : Nat :=
  (s.te.reads.filter (fun m => m.loc.die == d && m.issued && !m.purpose.host?)).length

/-- A free fill buffer of a die: the router holds 2,560, one for each host slot of the 320 dies (R97). -/
def State.fillBuf (s : State) (d : Nat) : Option Nat :=
  ((List.range 8).map (fun k => 8 * d + k)).find? (fun b => !s.te.reads.any (fun (m : MRead) => m.purpose.host? && m.buf == some b))

/-- A free background read buffer of a die, one for each of its background slots (R96, R573). -/
def State.backBuf (s : State) (d : Nat) : Option Nat :=
  ((List.range 4).map (fun k => 4 * d + k)).find? (fun b => !s.te.reads.any (fun (m : MRead) => !m.purpose.host? && m.buf == some b))

/-- Background slots of a die that other work may take: where the Sirocco engine waits for one too, it keeps 2 of the 4 (R283). -/
def State.bgShare (s : State) (d : Nat) : Nat := if (s.die d).sirWait then 2 else 4

/-- Issue one waiting background read when a slot and a buffer are free and its die idle or suspended (R96, R98, R573); one with host
priority may suspend (R214). Issued reads stand in the order of their commands. -/
def State.bgOne (s : State) (m : MRead) : State :=
  let d := m.loc.die
  let urgent := s.urgentRead m.purpose
  let buf := s.backBuf d
  if decide (s.bgUsed d < if urgent then 4 else s.bgShare d) && buf.isSome && (urgent || !s.dieBusy d || (s.die d).suspended) then
    let s := if urgent then s.suspendDie d else s
    let m' := { m with issued := true, buf := buf }
    { s with te.reads := s.te.reads.filter (fun (x : MRead) => x.id != m.id) ++ [m'] }.readCmd m' |>.leased 31
  else s

/-- Issue what may be issued of a die's waiting background reads, in their order. -/
def State.bgIssue (s : State) (d : Nat) : State :=
  (s.te.reads.filter (fun m => m.loc.die == d && !m.issued)).foldl State.bgOne s

/-- Put a line read on its way: a miss at once on its host slot and with its fill buffer, suspending what
runs on the die; any other read in a background slot
(R96–R98, R214). -/
def State.sendRead (s : State) (m : MRead) : State :=
  let host := m.purpose.host?
  let m := { m with issued := host, buf := if host then (if m.buf.isSome then m.buf else s.fillBuf m.loc.die) else none }
  let s := { s with te.reads := s.te.reads ++ [m] }
  (if host then (s.suspendDie m.loc.die).readCmd m |>.leased 31 else s).bgIssue m.loc.die

/-- A new line read with the base set (R278). -/
def State.issueRead (s : State) (p : MPurpose) (l : Loc) (pos : Nat) : State :=
  { s with te.nextRead := s.te.nextRead + 1 }.sendRead ⟨s.te.nextRead, p, l, pos, 0, s.readKey l, false, none⟩

/-- The next retry of a read (R278). -/
def State.retryRead (s : State) (m : MRead) : State := s.sendRead { m with retry := m.retry + 1 }

/-- A read whose line the die delivers next: the oldest of its queue (R243). -/
def State.readNext (s : State) (m : MRead) : Bool :=
  (s.te.reads.find? (fun x => x.loc.die == m.loc.die && x.issued && x.purpose.host? == m.purpose.host?)).any (fun x => x.id == m.id)

/-- The suspension of a die's operation ends: its length adds to the operation's total, in ticks (R246, Table 8.14). -/
def State.suspEnd (s : State) (d : Nat) : State :=
  if (s.die d).suspended then
    let tot := (s.die d).suspTot + (s.tick.toNat - (s.die d).suspAt)
    let s := s.dieMod d (fun x => { x with suspended := false, suspTot := tot })
    s.maxIn (R.MC_SUSP_MAX (chanOf d)) (min (tot / 100) 0xFFFFF)
  else s

/-- A program or erase of a die is over: its suspensions are forgotten. -/
def State.suspClear (s : State) (d : Nat) : State :=
  (s.suspEnd d).dieMod d (fun x => { x with suspTot := 0, suspRec := false })

/-- Resume a die's program or erase once its count and its overflow queue are empty and no reconstruction for a miss reads it
(R98, R214). -/
def State.resumeIdle (s : State) (d : Nat) : State :=
  if (s.die d).suspended && s.dieOut d == 0 && s.dieHeld d == 0 &&
      !(s.te.reads.any (fun m => m.loc.die == d && s.urgentRead m.purpose)) then
    (s.emit (.media (chanOf d) Cmd.resume [d])).suspEnd d
  else s

/-- A die that cannot be read: retired, failed, or on a failed channel (R90). -/
def State.dieLost (s : State) (d : Nat) : Bool :=
  (s.die d).retired || (s.die d).failed || s.bit (F.MC_STS.FAILED (chanOf d))

/-- Start the reconstruction of line `pos` of a page that a stripe holds (steps 1 and 2 of Table 7.3): the line of every other member and
of the parity page is read, in parallel; while the stripe is open its accumulator takes the parity page's place (R213). -/
def State.reconStart (s : State) (why : MPurpose) (line : Nat) (l : Loc) (pos : Nat) : State :=
  let key := packPage l.die l.block l.page
  match s.stripeOfPage key with
  | none => s
  | some x =>
    let others := x.members.filter (fun m => m != key) ++ x.parity.toList
    let live := others.filter (fun k => !s.dieLost (pagePlace k).die)
    let job : Recon := ⟨s.te.nextRecon, why, line, l, pos, (if x.parity.isSome then 0 else sget 0 x.acc pos), live.length,
      decide (live.length < others.length)⟩
    let s := { s with te.recons := s.te.recons ++ [job], te.nextRecon := s.te.nextRecon + 1 }
    live.foldl (fun s k => s.issueRead (.member job.id) (pagePlace k) pos) s

/-! ### Fills, the partner copy and the loss of a line (R103–R105, R339) -/

/-- Fill the line cache from a read of media or the tile stage, where the region allocates (R103); a line that has been listed as
poison, written or discarded meanwhile is not filled. -/
def State.fillFor (s : State) (r : Req) (d : Line) : State :=
  if s.listed r.line || r.closed || r.zero then s
  else match r.region with
  | some n => if s.bit (F.RT_RG_CTL.NOALLOC n) then s else s.lcFill r.line d
  | none => s.lcFill r.line d

/-- A REP_REQ to the twin (R339). -/
def State.repReq (s : State) (line : Nat) (why : RepFor) : State :=
  { s.carSend 2 (.caravan ⟨0x30, s.tw.nextTag, [line]⟩) with
      tw.reps := s.tw.reps ++ [(s.tw.nextTag, why)], tw.nextTag := s.tw.nextTag + 1 }

/-- Take a line's class exceptions for one retry (Table 2.4 ranks 3 and 5). -/
def State.retryRank (s : State) : Nat := if s.bit F.SIR_STS.UNKNOWN_AGE then 3 else 5

/-- A tag failed: counted for the engine and for its slot; at CE_TAGFAIL_LIM the region is SUSPECT (R306). -/
def State.tagFailed (s : State) (line : Nat) (slot : Option Nat) : State :=
  let s := s.bump R.CE_TAG_FAIL_CNT
  match slot, s.regionAny line with
  | some k, some n =>
    let f := (s.keySlot k).fails + 1
    let s := s.keyMod k (fun x => { x with fails := f })
    if f ≥ s.num R.CE_TAGFAIL_LIM ∧ !s.bit (F.CE_RG_SLOT.SUSPECT n) then
      ((s.setBit (F.CE_RG_SLOT.SUSPECT n) true).roll 0x0800 0 6 0 n k).gmDevice [6, n]
    else s
  | _, _ => s

/-- A line that no recovery step repaired: listed, noticed, and a severity-1 fault against the codec or the cipher engine, whichever
failed last (R105). A line whose newer data has been accepted since (`stale`) is not listed: its poison would belong to data that a
write or a discard has replaced (R71, R177). -/
def State.loseLine (s : State) (line die : Nat) (tag stale : Bool) : State :=
  let s := if stale || s.superseded line then s else s.poisonLine line
  let s := s.lineEvents line (110 + groupOf die)
  let s := { s with sir.errUe := smod 0 s.sir.errUe (chanOf die) (fun n => n + 1) }
  if tag then s.raise 6 1 Kind.CHECK else s.raise (110 + groupOf die) 1 Kind.UE

end Sys2Proof.Machine
end

