-- ==== Sys2Proof/Machine/DramOps.lean ====
section
/-! DEFINITION. What a DRAM read or scrub finds (13_dram_channels.md R402–R411). -/

set_option autoImplicit false

namespace Sys2Proof.Machine

/-- A channel is lost: FAILED, and a severity-3 fault, which containment follows (R411). -/
def State.dramLost (s : State) (ch : Nat) : State :=
  (s.setBit (F.DC_STS.FAILED ch) true).raise (20 + ch) 3 Kind.UE

/-- Count an uncorrectable word; 64 within 1 s lose the channel (R410, R411). -/
def State.dramUeCount (s : State) (ch : Nat) : State :=
  let now := s.tick.toNat
  let l := ((sget [] s.dc.ueTicks ch).filter (fun t => decide (now < t + 100000000))) ++ [now]
  let s := { (s.bump (R.DC_UE_CNT ch)).dramEvent [20 + ch] with dc.ueTicks := sset [] s.dc.ueTicks ch l }
  if l.length ≥ 64 ∧ !s.bit (F.DC_STS.FAILED ch) then s.dramLost ch else s

/-- An uncorrectable word rebuilt from its stripe and rewritten (R410). -/
def State.dramRebuilt (s : State) (ch : Nat) : State :=
  let s := ((s.dramUeCount ch).bump (R.DC_REBUILD ch)).raise (20 + ch) 1 Kind.UE
  s.when (s.bit (F.DC_CTL.EVT_EN ch)) (fun s => s.roll 0x0B00 0 (20 + ch) ch 1 0)

/-- An uncorrectable word that cannot be rebuilt (R410). -/
def State.dramUe (s : State) (ch : Nat) : State := (s.dramUeCount ch).raise (20 + ch) 2 Kind.UE

/-- What a read of DRAM counts by the way it returned (R402, R405, R410). -/
def State.dramRead (s : State) (ch : Nat) (res : DramRes) : State :=
  let s := s.pcItem (20 + ch)
  match res with
  | .ok => s
  | .ce => s.bump (R.DC_CE_CNT ch)
  | .recon => s.bump (R.DC_RECON_RD ch)
  | .rebuilt => s.dramRebuilt ch
  | .ue => s.dramUe ch

end Sys2Proof.Machine
end

