-- ==== Sys2Proof/Machine/CipherOps.lean ====
section
/-! DEFINITION. Key slots, derivations and sealed streams as operations over the state (10_cipher_engine.md R297–R325). -/

set_option autoImplicit false

namespace Sys2Proof.Machine

/-- CE_SLOTS_USED and CE_SLOTS_PEAK follow the slots. -/
def State.slotCountShow (s : State) : State :=
  let n := (s.ce.slots.filter (fun x => x.2.st != 0)).length
  (s.wrN R.CE_SLOTS_USED n).maxIn R.CE_SLOTS_PEAK n

/-- Lowest free slot of 8–4,095; the last 32 serve only enables and rekeys (R299). -/
def State.keySlotFree (s : State) (held : Bool) : Option Nat :=
  let used := (s.ce.slots.filter (fun x => decide (8 ≤ x.1) && x.2.st != 0)).length
  if used ≥ 4088 ∨ (!held ∧ used ≥ 4056) then none
  else (List.range (used + 1)).findSome? (fun k => if (s.keySlot (8 + k)).st = 0 then some (8 + k) else none)

/-- Take a slot for a key to be derived. -/
def State.keySlotTake (s : State) (n kind label holder : Nat) : State :=
  (s.keyMod n (fun _ => { KeySlot.free with st := 1, kind := kind, label := label, holder := holder })).slotCountShow

/-- A PREPARE or other derivation refused for want of a slot (R328). -/
def State.noSlot (s : State) : State := s.when (s.bit F.CE_CTL.EVT_EN) (fun s => s.roll 0x0802 0 6 0 0 0)

/-- Put a derivation in the queue (R301). -/
def State.derive (s : State) (d : Derive) : State := { s with ce.derives := s.ce.derives ++ [d] }

/-- The PRF key of a derivation: RK, or a TRANSFER slot's (R301). -/
def State.prfKey (s : State) : Option Nat → Nat
  | none => s.rk
  | some n => (s.keySlot n).key

/-- The PRF key of a derivation is used (R313). -/
def State.prfUse (s : State) : Option Nat → State
  | none => s.rkUse
  | some n => s.keyUse n

/-- The DATA slot of a label (R299). -/
def State.dataSlot (s : State) (label : Nat) : Option Nat :=
  (s.ce.slots.find? (fun x => x.2.kind == 4 && x.2.st != 0 && x.2.st != 3 && x.2.label == label)).map (·.1)

/-- Label of region n as CE_RG_LBL0–3 show it (R297). -/
def State.label (s : State) (n : Nat) : Nat :=
  s.num (R.CE_RG_LBL0 n) + 2 ^ 32 * s.num (R.CE_RG_LBL1 n) + 2 ^ 64 * s.num (R.CE_RG_LBL2 n) + 2 ^ 96 * s.num (R.CE_RG_LBL3 n)

/-- Show a label. -/
def State.setLabel (s : State) (n l : Nat) : State :=
  (((s.wrN (R.CE_RG_LBL0 n) l).wrN (R.CE_RG_LBL1 n) (l / 2 ^ 32)).wrN (R.CE_RG_LBL2 n) (l / 2 ^ 64)).wrN (R.CE_RG_LBL3 n) (l / 2 ^ 96)

/-- Release a slot; a PREPARE keeps it (R300). -/
def State.keyRelease (s : State) (n : Nat) : State :=
  if (s.keySlot n).prepared || (s.keySlot n).st == 0 then s else s.keyMod n (fun x => { x with st := 3 })

/-- Zeroise and free a slot. -/
def State.keyFree (s : State) (n : Nat) : State := { s with ce.slots := serase s.ce.slots n }.slotCountShow

/-- Requests in progress that name a key slot (R298). -/
def State.slotRefs (s : State) (n : Nat) : Nat :=
  (s.te.reads.filter (fun m => m.key == n)).length + (s.ce.waits.filter (fun (w : MRead × StoredLine) => w.1.key == n)).length +
    (s.ce.streams.filter (fun x => x.slot == n)).length + (s.ce.derives.filter (fun q => q.prf == some n)).length

/-! ### Streams (R317–R325) -/

/-- Lines and tiles of a frame: 1,052,672 bytes (R317). -/
def frameLines : Nat := 16448
def frameTiles : Nat := 257

/-- Frames of region n. -/
def State.frames (s : State) (n : Nat) : Nat := s.rgLines n / frameLines

/-- The stream of a handle, which is its STREAM key slot. -/
def State.streamBy (s : State) (h : Nat) : Option Stream := s.ce.streams.find? (fun (x : Stream) => x.slot == h)

/-- The stream that stands on a window: the active one, else one that is parked or opened. -/
def State.streamOf (s : State) (w : Nat) : Option Stream :=
  match s.ce.streams.find? (fun (x : Stream) => x.window == w && (x.st == 1 || x.st == 4)) with
  | some x => some x
  | none => s.ce.streams.find? (fun (x : Stream) => x.window == w)

/-- Change the stream of a handle. -/
def State.streamMod (s : State) (h : Nat) (f : Stream → Stream) : State :=
  { s with ce.streams := s.ce.streams.map (fun (x : Stream) => if x.slot = h then f x else x) }

/-- A tile of a stream's window takes a slot of the tile stage, by rules 1 and 2 of R128 (R320, R321); uncharged, and attached to no entry of
the map. `none` while free pool and clean slots are exhausted. -/
def State.streamTile (s : State) (h k : Nat) : Option State :=
  match s.streamBy h with
  | none => none
  | some x =>
    if sget 0 x.tiles k ≠ 0 then some s
    else match s.slotNext false with
      | none => none
      | some (n, s) =>
        let s := { s with te.slots := sset Slot.free s.te.slots n { Slot.free with stream := some h, lru := s.tick.toNat } }
        some (s.streamMod h (fun y => { y with tiles := sset 0 y.tiles k n })).tsStatus

/-- A line of a stream's window, by its offset: a clean line of the tile's slot, in XTS (R312, R320, R321). -/
def State.streamPut (s : State) (h off : Nat) (d : Line) : Option State :=
  match s.streamTile h (off / 64) with
  | none => none
  | some s =>
    let n := match s.streamBy h with | some x => sget 0 x.tiles (off / 64) | none => 0
    let c := s.xtsOut (slotUnit n (off % 64)) d
    some (s.xtsUse.slotMod n (fun y => { y with st := sset 0 y.st (off % 64) 1, data := sset 0 y.data (off % 64) c, lru := s.tick.toNat }))

/-- Lines of a stream's window, by their offsets, in order. -/
def State.streamPuts (s : State) (h : Nat) (l : List (Nat × Line)) : Option State :=
  l.foldl (fun (o : Option State) (x : Nat × Line) => o.bind (fun s => s.streamPut h x.1 x.2)) (some s)

/-- A line that a stream's window holds; one that has not been written is zero. -/
def State.streamLine (s : State) (x : Stream) (off : Nat) : Line :=
  let n := sget 0 x.tiles (off / 64)
  if (s.slot n).lineSt (off % 64) = 0 then 0 else s.slotLine n (off % 64)

/-- The slots of the window's tiles that `f` names are freed. -/
def State.streamFree (s : State) (h : Nat) (f : Nat → Bool) : State :=
  match s.streamBy h with
  | none => s
  | some x =>
    let gone := x.tiles.filter (fun (y : Nat × Nat) => f y.1)
    let s := gone.foldl (fun s (y : Nat × Nat) => { s with te.slots := serase s.te.slots y.2 }) s
    (s.streamMod h (fun y => { y with tiles := y.tiles.filter (fun (z : Nat × Nat) => !f z.1) })).tsStatus

/-- A frame's slots are freed and its lines forgotten. -/
def State.windowFree (s : State) (h f : Nat) : State :=
  (s.streamFree h (fun k => k / frameTiles == f)).streamMod h (fun y => { y with seen := y.seen.filter (fun o => o / frameLines != f) })

/-- The two-word result packet of a chunk (R323). -/
def State.chunkPacket (s : State) (w chunk res : Nat) (final : Bool) : State :=
  let s := if res = 0 then s.bump R.CE_CHUNK_OK else s.bump R.CE_CHUNK_BAD
  s.emit (.other 6 [chunk, w % 256 + res % 16 * 256 + (if res = 1 then 4096 else 0) + final.toNat * 8192])

/-- A stream ends with a result: its staged tiles are freed, its slot released, the command completes, and any result but
OK writes a Roll book record (R323). -/
def State.streamEnd (s : State) (h res : Nat) : State :=
  match s.streamBy h with
  | none => s
  | some x =>
    let last := match x.lastOk with | none => 0xFFFFFFFF | some k => k
    let s := s.streamFree h (fun _ => true)
    let s := { s with ce.streams := s.ce.streams.filter (fun y => y.slot != h) }
    let s := (s.setBit (F.RT_RG_STS.EXPORT x.window) ((s.streamOf x.window).any (fun y => y.dir == 0 && y.st == 1))).keyRelease h
    let s := if x.st = 2 ∨ x.st = 3 then s else if res = 0 then s.bgDone x.port .success 0 [0, last] else s.bgDone x.port .aborted (Ext.STREAM + 256 * res) [res, last]
    if res = 0 then s else s.roll 0x0801 0 6 x.window res last

/-- A stream ends with ABORT and its chunk's packet (Table 10.8). -/
def State.streamAbort (s : State) (x : Stream) : State := (s.chunkPacket x.window x.chunk 6 false).streamEnd x.slot 6

/-- A frame of an export holds a chunk that the host has not read: its trailer tile is there (R320). -/
def Stream.produced (x : Stream) (f : Nat) : Bool := sget 0 x.tiles (frameTiles * f + 256) != 0

/-- What a read of a transfer window meets: data, poison, class, and the state after. An active export answers from its produced
frames, as a tile-stage hit, and with poison elsewhere (R320); the window of an import that has been run answers poison (R321); any other
line of a window reads as zeros (R57). -/
def State.windowRead (s : State) (w off : Nat) : Line × Bool × Nat × State :=
  match s.streamOf w with
  | none => (0, false, 0, s)
  | some x =>
    if x.dir = 1 then (0, x.st != 3, 0, s)
    else if x.st ≠ 1 then (0, false, 0, s)
    else if !x.produced (off / frameLines) then (0, true, 1, s)
    else
      let d := s.streamLine x off
      let s := s.xtsUse
      if off % frameLines = 16384 then
        let s := (s.windowFree x.slot (off / frameLines)).streamMod x.slot (fun y => { y with unread := y.unread - 1 })
        (d, false, 1, if d.getLsbD 160 then s.streamEnd x.slot 0 else s)
      else (d, false, 1, s)

/-! ### Import windows (R321) -/

/-- Fields of a trailer's line 0 (Table 10.7). -/
def trChunk (d : Line) : Nat := d.toNat % 2 ^ 64
def trToff (d : Line) : Nat := d.toNat / 2 ^ 64 % 2 ^ 64
def trLen (d : Line) : Nat := d.toNat / 2 ^ 128 % 2 ^ 32
def trFinal (d : Line) : Bool := d.getLsbD 160
def trTag (d : Line) : BitVec 128 := d.extractLsb' 256 128

/-- AAD of a chunk: bytes 0–31 of line 0, then PMAP (R318). -/
def chunkAad (tr : Line) (pmap : Nat → Line) : List (BitVec 8) :=
  leBytes 32 tr.toNat ++ (List.range 32).flatMap (fun k => leBytes 64 (pmap k).toNat)

/-- The chunk whose lines a frame of an import takes now: the chunk in progress, or the next after it that uses the frame (R317). -/
def Stream.frameChunk (x : Stream) (frames f : Nat) : Nat := x.chunk + (f + frames - x.chunk % frames) % frames

/-- An import stops with a result for a chunk (R323). -/
def State.importStop (s : State) (x : Stream) (chunk res : Nat) (final : Bool) : State :=
  (s.chunkPacket x.window chunk res final).streamEnd x.slot res

/-- An import window takes one line that is not trailer line 0 (R321, Table 10.8): a partial write ends the stream with FORM, a line
written twice with DUP; a ciphertext line is decrypted, and the plaintext staged; a PMAP line is kept as it is. -/
def State.importLine (s : State) (x : Stream) (off : Nat) (d : Line) (whole : Bool) : State :=
  let n := off % frameLines
  let k := x.frameChunk (s.frames x.window) (off / frameLines)
  if !whole then s.importStop x k 4 false
  else if x.seen.contains off then s.importStop x k 3 false
  else if 16416 < n then s
  else
    let p := if n < 16384 then d ^^^ gcmStream (s.keySlot x.slot).key (chunkIv k) n else d
    match (s.keyUse x.slot).streamPut x.slot off p with
    | none => s
    | some s => s.streamMod x.slot (fun y => { y with seen := setIns off y.seen })

/-- Ciphertext of the first lines of a frame's chunk, out of the staged plaintext. -/
def State.importCt (s : State) (x : Stream) (f k len : Nat) : List Line :=
  (List.range len).map (fun n => s.streamLine x (frameLines * f + n) ^^^ gcmStream (s.keySlot x.slot).key (chunkIv k) n)

/-- PMAP line k of a frame. -/
def State.framePmap (s : State) (x : Stream) (f k : Nat) : Line := s.streamLine x (frameLines * f + 16385 + k)

/-- Trailer line 0 of a frame arrives: the chunk is checked for completeness and form, then its tag (R321, Table 10.8). -/
def State.importTrailer (s : State) (x : Stream) (f : Nat) (d : Line) (whole : Bool) : State :=
  let len := trLen d
  let final := trFinal d
  let k := x.frameChunk (s.frames x.window) f
  let has := fun (n : Nat) => x.seen.contains (frameLines * f + n)
  if !whole ∨ len = 0 ∨ 16384 < len then s.importStop x k 4 final
  else if !((List.range len).all has && (List.range 32).all (fun j => has (16385 + j))) then s.importStop x k 2 final
  else if (!final ∧ len < 16384) ∨ x.count < 64 * trToff d + len then s.importStop x k 4 final
  else if x.lastOk.any (fun m => decide (trChunk d ≤ m)) then (s.chunkPacket x.window (trChunk d) 5 final).windowFree x.slot f
  else
    let key := s.keySlot x.slot
    if gcmTag key.key key.h (chunkIv k) (chunkAad d (s.framePmap x f)) (s.importCt x f k len) = trTag d then
      (s.keyUse x.slot).streamMod x.slot (fun y => { y with ready := y.ready ++ [(k, d)] })
    else (s.keyUse x.slot).importStop x k 1 final

/-- A write to a transfer window can be taken now: an active import waits for a slot where the tile has none (R128), and for the commit of
the chunk that its frame still holds (R322). -/
def State.windowTakes (s : State) (w off : Nat) : Bool :=
  match s.streamOf w with
  | none => true
  | some x =>
    !(x.dir == 1 && x.st == 1 && decide (off < s.frames w * frameLines)) ||
      (!(x.ready.any (fun (y : Nat × Line) => y.1 % s.frames w == off / frameLines)) &&
        (sget 0 x.tiles (off / 64) != 0 || off % frameLines == 16384 || (s.slotNext false).isSome))

/-- A write to a transfer window on which a stream stands (R320, R321, R324): an active import takes it, any other is discarded
and counted. -/
def State.importWrite (s : State) (w off : Nat) (d : Line) (whole : Bool) : State :=
  match s.streamOf w with
  | none => s
  | some x =>
    if x.dir = 1 ∧ x.st = 1 ∧ off < s.frames w * frameLines then
      if off % frameLines = 16384 then s.importTrailer x (off / frameLines) d whole else s.importLine x off d whole
    else s.bump R.CE_XF_DROP

end Sys2Proof.Machine
end

