-- ==== Sys2Proof/Machine/ProgOps.lean ====
section
/-! DEFINITION. Page programs, blocks and stripes as operations over the state (04_write_path_and_dirty_budget.md R130–R133,
06_translation_layer.md R173, R174, R181, 07_media_upkeep.md R206–R226). -/

set_option autoImplicit false

namespace Sys2Proof.Machine

/-! ### Blocks -/

/-- States that the limit of R207 counts together. -/
def limitState (st : Nat) : Bool := st == 1 || st == 2 || st == 3 || st == 4 || st == 6

/-- Blocks of a die that the limit counts. -/
def State.limitCount (s : State) (d : Nat) : Nat :=
  ((List.range 2048).filter (fun b => limitState (s.blk d b).st)).length

/-- Close a block (Table 7.1): verified at once where every programmed page is verified. -/
def State.closeBlock (s : State) (d b : Nat) : State :=
  let k := s.blk d b
  ((s.blkMod d b (fun k => { k with st := if k.st = 3 then 6 else 4 })).journal [.block d b 3 k.erases]).blkSettle d b

/-- The block of a die open in a state, with room. -/
def State.openIn (s : State) (d st : Nat) : Option Nat :=
  (s.blocksIn d st).find? (fun b => decide ((s.blk d b).next < 2048))

/-- Open a block for host (1), copy (2) or parity (3) programs under R207 and R208; its BLOCK entry is flushed before its
first program (R194), and while that flush waits no block is opened. -/
def State.openBlock (s : State) (d st : Nat) : Option (Nat × State) :=
  let free := s.blocksIn d 0
  let lim := if s.te.drainMode && st == 1 then 3 else 2
  if s.limitCount d > lim then none
  else if st = 1 ∧ !s.te.drainMode ∧ free.length ≤ 2 then none
  else
    match (if st = 2 then argMax (fun b => (s.blk d b).erases) free else argMin (fun b => (s.blk d b).erases) free) with
    | none => none
    | some b =>
      let s := s.blkMod d b (fun k => { Blk.fresh with st := st, erases := k.erases, age := k.age })
      let s := (s.journal [.block d b (st - 1) (s.blk d b).erases]).journalFlush
      if s.te.flushWait then none else some (b, s)

/-- The open block of a kind closes when its next page would need a word of 2^32 or more (R188). -/
def State.closeLong (s : State) (d st seq : Nat) : State :=
  match s.openIn d st with
  | some b => if (s.blk d b).seqs ≠ [] ∧ seq - (s.blk d b).seqs.headD 0 ≥ 2 ^ 32 then s.closeBlock d b else s
  | none => s

/-- The page that the next program of a kind takes on a die: block, page and the state with the block open. -/
def State.nextPage (s : State) (d st seq : Nat) : Option (Nat × Nat × State) :=
  let s := s.closeLong d st seq
  match s.openIn d st with
  | some b => some (b, (s.blk d b).next, s)
  | none => match s.openBlock d st with
    | some r => some (r.1, 0, r.2)
    | none => none

/-! ### Stripes (R209–R211, R217) -/

/-- Stripe group of a die: media group × 8 + CE_N position (R209). -/
def stripeGroup (d : Nat) : Nat := 8 * (d / 64) + d % 8

/-- Dies of a stripe group, ascending channel. -/
def groupDies (g : Nat) : List Nat := (List.range 8).map (fun c => 64 * (g / 8) + 8 * c + g % 8)

/-- In-service dies of a stripe group. -/
def State.groupLive (s : State) (g : Nat) : List Nat :=
  (groupDies g).filter (fun d => s.te.fmt.contains d && !(s.die d).retired && !(s.die d).failed)

/-- Open stripes of a group, oldest first, whose accumulators are in use. -/
def State.stripesOf (s : State) (g : Nat) : List Stripe :=
  s.te.stripes.filter (fun x => x.group == g && x.parity.isNone && !x.released)

/-- Change a stripe. -/
def State.stripeMod (s : State) (id : Nat) (f : Stripe → Stripe) : State :=
  { s with te.stripes := s.te.stripes.map (fun x => if x.id = id then f x else x) }

/-- MG_OBP_STS.OPEN of a media group follows its open stripes. -/
def State.obpShow (s : State) (g : Nat) : State :=
  s.set ⟨R.MG_OBP_STS (g / 8), 0, 6⟩
    (s.te.stripes.filter (fun x => x.group / 8 == g / 8 && x.parity.isNone && !x.released)).length

/-- XOR stored lines into an accumulator (R210). -/
def xorLines (acc lines : Sparse StoredLine) : Sparse StoredLine :=
  lines.foldl (fun a (e : Nat × StoredLine) => smod 0 a e.1 (fun x => x ^^^ e.2)) acc

/-- The in-service die of a group that follows a die in ascending channel order, the first after the last. -/
def State.dieAfter (s : State) (g d : Nat) : Nat :=
  ((s.groupLive g).find? (fun x => decide (d < x))).getD ((s.groupLive g).headD d)

/-- Parity die of a new stripe: the in-service die that follows the previous stripe's (R210). DESIGN CHOICE: the first stripe of a group
follows none, and takes the in-service die of the lowest channel; where the die that follows is the die of the page that opens the
stripe, the stripe takes the next one (notes/assumptions/56). -/
def State.nextParityDie (s : State) (g : Nat) : Option Nat :=
  match (s.te.stripes.filter (fun x => x.group == g)).getLast? with
  | none => (s.groupLive g).head?
  | some x => if (s.groupLive g).isEmpty then none else some (s.dieAfter g x.parityDie)

/-- A stripe that can take a page of a die: the oldest open one, or a new one; `none` when the page must wait. The inner
`none` says that the group forms no stripes (R210). -/
def State.stripeFor (s : State) (d : Nat) : Option (Option Nat × State) :=
  let g := stripeGroup d
  let n := (s.groupLive g).length
  if n ≤ 1 || s.fencedSrc (115 + d / 64) then some (none, s)
  else match (s.stripesOf g).find? (fun x => !x.closed && x.parityDie != d && x.members.all (fun m => m / 2 ^ 22 != d)) with
    | some x => some (some x.id, s)
    | none =>
      if (s.stripesOf g).length ≥ 4 then none
      else match s.nextParityDie g with
        | none => some (none, s)
        | some pd =>
          let pd := if pd = d then s.dieAfter g pd else pd
          let x : Stripe := ⟨s.te.nextStripe, g, pd, [], [], false, [], s.tick.toNat, none, false⟩
          some (some x.id, { s with te.stripes := s.te.stripes ++ [x], te.nextStripe := s.te.nextStripe + 1 }.obpShow g)

/-- A stripe closes, or ends, without a parity page (R210, R211): its accumulator is free. -/
def State.stripeNoParity (s : State) (id : Nat) : State :=
  match s.te.stripes.find? (fun x => x.id == id) with
  | none => s
  | some x =>
    ((s.stripeMod id (fun x => { x with closed := true, released := true })).bump (R.MG_OBP_NOPAR (x.group / 8))).obpShow x.group

/-- Queue the parity page of a closed stripe once every member's status has been read; a stripe without a member left closes without
one (R211), and so does every stripe once no parity page takes a number any more (R191). -/
def State.stripeParity (s : State) (id : Nat) : State :=
  match s.te.stripes.find? (fun x => x.id == id) with
  | none => s
  | some x =>
    if x.closed && x.waiting.isEmpty && x.parity.isNone && !x.released &&
        !(s.te.progs.any (fun p => p.kind == .parity id)) then
      if x.members.isEmpty || s.bit F.TE_STS.SEQ_RO then s.stripeNoParity id
      else
        { s with te.progs := s.te.progs ++ [⟨s.te.nextProg, .parity id, x.parityDie, [], 0, .number, false, [], 0, 0, x.acc, none⟩]
                 te.nextProg := s.te.nextProg + 1 }
    else s

/-- Close a stripe (R211). -/
def State.stripeClose (s : State) (id : Nat) : State :=
  match s.te.stripes.find? (fun x => x.id == id) with
  | none => s
  | some x =>
    if x.closed then s
    else
      let g := x.group / 8
      let s := if x.members.length + 1 < (s.groupLive x.group).length then s.bump (R.MG_OBP_SHORT g) else s
      (s.stripeMod id (fun x => { x with closed := true })).stripeParity id

/-- Remove a failed member from its stripe by XORing its program-buffer data in again (R211). -/
def State.stripeRemove (s : State) (key : Nat) (lines : Sparse StoredLine) : State :=
  match s.stripeOfPage key with
  | none => s
  | some x =>
    (s.stripeMod x.id (fun x => { x with
      members := x.members.filter (fun m => m != key), waiting := x.waiting.filter (fun m => m != key),
      acc := xorLines x.acc lines })).stripeParity x.id

/-- A member is verified or gone: its page verified, or its block awaiting erase, retired or already erased (R217). -/
def State.memberDone (s : State) (key : Nat) : Bool :=
  let k := s.blk (key / 2 ^ 22) (key / 2 ^ 11 % 2048)
  k.verified.contains (key % 2048) || k.st == 7 || k.st == 8 || k.st == 0

/-- Release the parity pages whose members are all verified or gone; a parity block with every page released reaches
awaiting erase (R217). -/
def State.parityRelease (s : State) : State :=
  s.te.stripes.foldl (fun s (x : Stripe) =>
    match x.parity with
    | none => s
    | some key =>
      if !x.released && x.members.all s.memberDone then
        let d := key / 2 ^ 22
        let b := key / 2 ^ 11 % 2048
        let s := s.stripeMod x.id (fun x => { x with released := true })
        let s := s.wrN (R.MG_OBP_HELD (x.group / 8)) (s.num (R.MG_OBP_HELD (x.group / 8)) - 1)
        s.blkSettle d b
      else s) s

/-- Stored line i of a page as the codec corrects it; `none` where it does not decode or its die is lost. -/
def State.correctedLine (s : State) (key i : Nat) : Option StoredLine :=
  let l := pagePlace key
  if s.dieLost l.die then none else (bchDecode (sget 0 (s.mpage l.die l.block l.page).lines i)).map (·.1)

/-- Line i of a member reconstructed by XOR of the other members and the parity page or the accumulator, each corrected by BCH;
`none` where one of them stays uncorrectable (R213). -/
def State.reconstruct (s : State) (key i : Nat) : Option StoredLine :=
  match s.stripeOfPage key with
  | none => none
  | some x =>
    (x.members.filter (fun m => m != key) ++ x.parity.toList).foldl (fun (acc : Option StoredLine) k =>
      match acc, s.correctedLine k i with
      | some a, some w => some (a ^^^ w)
      | _, _ => none) (some (if x.parity.isSome then 0 else sget 0 x.acc i))

/-! ### Programs (R131, R132, R219) -/

/-- Change a program. -/
def State.progMod (s : State) (id : Nat) (f : Prog → Prog) : State :=
  { s with te.progs := s.te.progs.map (fun p => if p.id = id then f p else p) }

/-- Remove a program: its buffer is freed. -/
def State.progDel (s : State) (id : Nat) : State :=
  { s with
    te.progs := s.te.progs.filter (fun p => p.id != id)
    te.discards := s.te.discards.map (fun (d : Discard) => { d with blocks := setDel (2 ^ 40 + id) d.blocks }) }

/-- Ask the cipher engine for a program's lines, on class B (R303). -/
def State.progCipher (s : State) (id : Nat) : State :=
  { s.progMod id (fun p => { p with stage := .cipher }) with
      ce.jobs := s.ce.jobs ++ [(s.ce.nextJob, .program id)], ce.nextJob := s.ce.nextJob + 1 }

/-- A checkpoint's programs go ahead of garbage collection: its span is about to be exceeded, or CKPT_ALL asked for it (R195, R204). -/
def State.ckptAhead (s : State) (seg : Nat) : Bool := s.spanNear || s.te.ckptTodo.contains seg

/-- What a program takes its number for (R191). -/
def State.progUse (s : State) (p : Prog) : SeqUse :=
  match p.kind with
  | .host => .dirty
  | .ckpt _ _ => if s.spanNear then .span else .other
  | _ => .other

/-- Give a program its page sequence number (step 3 of Table 4.6) and send it on: to the cipher engine, or, for a page without tiles,
straight to issue. It waits while no number can be assigned or a rotation record is being written (R187, R189, R308); a copy that can
take none any more is abandoned, its tiles stay in the source (R191). -/
def State.progNumber (s : State) (p : Prog) : State :=
  if !s.ce.rotations.isEmpty then s
  else if s.bit F.TE_STS.SEQ_RO && (match p.kind with | .copy _ => true | _ => false) then s.progDel p.id
  else match s.seqTake (s.progUse p) with
    | none => s
    | some (n, s) =>
      let tiles := p.tiles.map (fun (x : Option PTile) => x.map (fun t => if t.src.isSome then t else { t with vseq := n }))
      let s := s.progMod p.id (fun p => { p with seq := n, stage := .ready, tiles := tiles })
      match p.kind with
      | .parity _ | .ckpt _ _ => s
      | _ => s.progCipher p.id

/-- Number every program that waits for a number, and take up a flush that waits (R189). -/
def State.progNumbers (s : State) : State :=
  let s := if s.te.flushWait then s.journalFlush else s
  s.te.progs.foldl (fun s (p : Prog) => if p.stage = .number then s.progNumber p else s) s

/-- A program of the tile is in flight, from its assembly to its status (R174). -/
def State.tileFlying (s : State) (t : Nat) : Bool :=
  s.te.progs.any (fun p => p.tiles.any (fun x => x.any (fun y => y.tile == t)))

/-- Due slots of a die, oldest age stamp first, as slot numbers (R130, R131); a tile whose copy is in flight waits for it (R174). -/
def State.dueOf (s : State) (d : Nat) : List Nat :=
  let l := s.te.slots.filter (fun x => s.slotDue x.2 &&
    x.2.tile.any (fun t => s.homeDie t == d && !(s.te.bad.contains t) && !s.tileFlying t))
  (l.foldl (fun (acc : List (Nat × Nat)) (x : Nat × Slot) => sins (x.2.age * 2 ^ 27 + x.1) x.1 acc) []).map (·.2)

/-- Lines of a slot in a state. -/
def slotMask (x : Slot) (p : Nat → Bool) : BitVec 64 :=
  x.st.foldl (fun (m : BitVec 64) e => if p e.2 then m ||| 1#64 <<< e.1 else m) 0

/-- Free program buffers, the lowest `n` (R573). -/
def State.bufsFree (s : State) (n : Nat) : List Nat :=
  ((List.range (s.te.progs.length + n)).filter (fun b => decide (b < 2 ^ 15) && !s.te.progs.any (fun (p : Prog) => p.buf == some b))).take n

/-- The lowest free program buffer. -/
def State.bufFree (s : State) : Option Nat := (s.bufsFree 1).head?

/-- A tile's part of a program buffer (steps 1 and 2 of Table 4.6): the lines kept, decrypted out of the slot and encrypted for the buffer's
own place; lines of a full tile without a media location are zero (R312). -/
def State.bufTile (s : State) (buf : Option Nat) (pos n : Nat) (keep : BitVec 64) (bare : Bool) : Sparse Line :=
  (List.range 64).foldl (fun (l : Sparse Line) k =>
    if keep.getLsbD k then sset 0 l k (s.xtsOut (bufUnit buf (64 * pos + k)) (s.slotLine n k))
    else if bare then l
    else sset 0 l k (s.xtsOut (bufUnit buf (64 * pos + k)) 0)) []

/-- Take a slot's tile into position `pos` of a program buffer: Dirty lines become Flight, present lines are copied (step 1 of Table 4.6). -/
def State.takeTile (s : State) (buf : Option Nat) (pos n : Nat) (drain : Bool) : PTile × State :=
  let x := s.slot n
  let t := x.tile.getD 0
  let flight := slotMask x (fun c => c == 2)
  let present := slotMask x (fun c => decide (1 ≤ c))
  let keep := if drain then flight else present
  let partl := drain && keep != BitVec.allOnes 64
  let pt : PTile := ⟨t, n, flight, keep, s.bufTile buf pos n keep (partl || x.loc.isSome), partl, 0, none⟩
  (pt, s.xtsUse.slotMod n (fun x => { x with st := x.st.map (fun (e : Nat × Nat) => if e.2 = 2 then (e.1, 3) else e), due := false }))

/-- Absent lines that a full tile with a media location still needs (step 2 of Table 4.6). -/
def needLines (pos : Nat) (pt : PTile) (loc : Option Loc) : List (Nat × Nat) :=
  if pt.partl || loc.isNone then [] else
    ((List.range 64).filter (fun k => !pt.present.getLsbD k)).map (fun k => (pos, k))

/-- A program's lines are all at hand: it goes on to take its number (steps 2 and 3 of Table 4.6). -/
def State.progGathered (s : State) (id : Nat) : State :=
  match s.te.progs.find? (fun p => p.id == id) with
  | some p =>
    if p.need.isEmpty ∧ p.stage = .gather then
      (s.progMod id (fun p => { p with stage := .number })).progNumber { p with stage := .number }
    else s
  | none => s

/-- Put a program into a program buffer and ask for the lines it lacks: each takes a background slot in its turn (step 2 of Table 4.6,
R96, R220). `src` gives the place from which a position's lines are read. -/
def State.progStart (s : State) (kind : PKind) (d : Nat) (tiles : List (Option PTile)) (need : List (Nat × Nat)) (drain : Bool)
    (src : Nat → Option Loc) : State :=
  let id := s.te.nextProg
  let p : Prog := ⟨id, kind, d, tiles ++ List.replicate (4 - tiles.length) none, 0, .gather, drain, need, 0, 0, [], s.bufFree⟩
  let s := { s with te.progs := s.te.progs ++ [p], te.nextProg := id + 1 }.leased 9
  let s := need.foldl (fun s (x : Nat × Nat) => match src x.1 with
    | some l => s.issueRead (.gather id x.1 x.2) l (64 * l.tip + x.2)
    | none => s) s
  s.progGathered id

/-- Assemble a page of up to four due tiles of a die in a program buffer (steps 1 and 2 of Table 4.6). -/
def State.startPage (s : State) (d : Nat) (drain : Bool) : State :=
  let ns := (s.dueOf d).take 4
  if ns.isEmpty || s.bufFree.isNone then s
  else
    let r := ns.foldl (fun (acc : List (PTile × Option Loc) × State) n =>
      let loc := (acc.2.slot n).loc
      let q := acc.2.takeTile s.bufFree acc.1.length n drain
      (acc.1 ++ [(q.1, loc)], q.2)) ([], s)
    let need := (r.1.zipIdx.map (fun (x : (PTile × Option Loc) × Nat) => needLines x.2 x.1.1 x.1.2)).flatten
    let s := (r.2.addCnt R.TS_PAD_CNT (4 - r.1.length)).addCnt R.TS_FILL_RD_CNT need.length
    (s.progStart .host d (r.1.map (fun x => some x.1)) need drain (fun k => (r.1[k]?).bind (fun x => x.2))).tsStatus

/-- A completion line has been gathered (or stays uncorrectable and is programmed as zeros). -/
def State.gathered (s : State) (id pos line : Nat) (d : Line) : State :=
  let c := s.xtsOut (bufUnit ((s.te.progs.find? (fun (p : Prog) => p.id == id)).bind (fun p => p.buf)) (64 * pos + line)) d
  let s := s.xtsUse.progMod id (fun p => { p with
    need := p.need.filter (fun x => x != (pos, line))
    tiles := p.tiles.zipIdx.map (fun (x : Option PTile × Nat) =>
      if x.2 = pos then x.1.map (fun t => { t with data := sset 0 t.data line c }) else x.1) })
  s.progGathered id

/-- Stored lines 0–255 of a page: every line of a full tile, the present lines of a partial tile (R185, R262, R304); the accumulator's of a
parity page; a segment's of a checkpoint page. -/
def State.encodePage (s : State) (p : Prog) : Sparse StoredLine :=
  match p.kind with
  | .parity _ => p.lines
  | .ckpt seg page => match s.te.ckptJobs.find? (fun (c : CkptJob) => c.seg == seg) with
    | some c => areaLines p.seq (fun i => c.line (256 * page + i))
    | none => []
  | _ => (p.tiles.zipIdx.map (fun (x : Option PTile × Nat) => match x.1 with
      | none => []
      | some t => ((List.range 64).filter (fun k => !t.partl || t.present.getLsbD k)).map (fun k =>
          (64 * x.2 + k, s.storeLine (64 * t.tile + k) p.seq (64 * x.2 + k)
            (s.xtsIn (bufUnit p.buf (64 * x.2 + k)) (sget 0 t.data k)))))).flatten

/-- The page that a program puts on media: its stored lines with the header of its kind (Table 6.6, Table 6.7, Table 7.2). -/
def State.progPage (s : State) (p : Prog) (lines : Sparse StoredLine) : MPage :=
  match p.kind with
  | .parity id =>
    let x := s.te.stripes.find? (fun x => x.id == id)
    makePage 0x5A04 0 p.drain p.seq (stripeBody ((x.map (fun x => x.members)).getD []) ((x.map (fun x => x.group)).getD 0)) lines
  | .ckpt seg page =>
    let j := ((s.te.ckptJobs.find? (fun (c : CkptJob) => c.seg == seg)).map (fun c => c.jseq)).getD 0
    makePage 0x5A03 0 p.drain p.seq (areaBody seg page j) lines
  | _ => makePage 0x5A01 (tileFlags p.tiles) p.drain p.seq (tileBody p.tiles) lines

/-- Class of a program in R219, lowest first. DESIGN CHOICE: the list names no class for parity pages, which are served with the host
programs, and none for checkpoints that are not ahead of garbage collection, which come last (notes/assumptions/56). -/
def State.progClass (s : State) (p : Prog) : Nat :=
  if p.drain then 1 else match p.kind with
    | .host => 4
    | .parity _ => 4
    | .ckpt seg _ => if s.ckptAhead seg then 2 else 7
    | .copy w => if (s.die p.die).urgent then 3 else if w then 6 else 5

/-- Die that a program goes to: a host program's home may have been substituted since (R131, R225). -/
def State.progDie (s : State) (p : Prog) : Nat :=
  match s.te.subst.find? (fun x => x.1 == p.die) with
  | some x => x.2
  | none => p.die

/-- Block state of a program's kind. -/
def PKind.blk : PKind → Nat
  | .host => 1
  | .copy _ => 2
  | .parity _ => 3
  | .ckpt _ _ => 9

/-- A program that still carries a tile of a secure discard (R66, R174): the block that it goes to is one of those to be erased; while
it has none, it stands in the list under its own number above 2^40. -/
def State.discardIssue (s : State) (p : Prog) (key : Nat) : State :=
  let doom := fun (d : Discard) => d.secure && d.accepted && p.tiles.any (fun (x : Option PTile) =>
    x.any (fun t => decide (d.first ≤ t.tile) && decide (t.tile < d.first + d.count) && (s.slot t.slot).doomed))
  { s with te.discards := s.te.discards.map (fun (d : Discard) => if doom d then
      { d with blocks := setIns key (setDel (2 ^ 40 + p.id) d.blocks), total := d.total + 1 } else d) }

/-- Put a numbered page on its block and issue it (step 5 of Table 4.6). -/
def State.issueOn (s : State) (p : Prog) (d b pg : Nat) (str : Option Nat) : State :=
  let lines := s.encodePage p
  let s := p.tiles.foldl (fun s (x : Option PTile) => match x with | some t => s.lineKeyUse (64 * t.tile) p.seq 0 | none => s) s.xtsUse
  let key := packPage d b pg
  let s := { s with te.media := sset MPage.erased s.te.media (pageKey d b pg) (s.progPage p lines) }
  let s := match p.kind with
    | .ckpt _ _ => s.areaPage d b pg p.seq
    | _ => s.blkMod d b (fun k => { k with next := pg + 1, seqs := k.seqs ++ [p.seq] })
  let s := match str with
    | some id =>
      let s := s.stripeMod id (fun x =>
        { x with members := x.members ++ [key], waiting := x.waiting ++ [key], acc := xorLines x.acc lines })
      match s.te.stripes.find? (fun (x : Stripe) => x.id == id) with
      | some x => if x.members.length + 1 ≥ (s.groupLive x.group).length then s.stripeClose id else s
      | none => s
    | none => s
  let s := s.progMod p.id (fun p => { p with stage := .busy, die := d, block := b, page := pg, lines := lines })
  let s := s.discardIssue p (2048 * d + b)
  (s.bump (R.MC_PGM_CNT (chanOf d))).emit (.media (chanOf d) Cmd.program [d, b, pg, p.seq])

/-- A program is served before another of its die: by its class, and within a class the older first (R219). -/
def State.progBefore (s : State) (q p : Prog) : Bool :=
  decide (s.progClass q < s.progClass p) || (s.progClass q == s.progClass p && decide (q.id < p.id))

/-- MG_OBP_STS.STALL: a page of the group waits for a stripe (R210, Table 7.8). -/
def State.stallShow (s : State) (g : Nat) : State :=
  s.setBit (F.MG_OBP_STS.STALL g) (s.te.progs.any (fun p => p.stage == .ready && groupOf (s.progDie p) == g &&
    (match p.kind with | .parity _ | .ckpt _ _ => false | _ => (s.stripeFor (s.progDie p)).isNone)))

/-- TE_UPK_STS.OPEN_WAIT: a program waits for a block to open (Table 7.7). -/
def State.openShow (s : State) : State :=
  s.setBit F.TE_UPK_STS.OPEN_WAIT (s.te.progs.any (fun p => p.stage == .ready && p.kind.blk != 9 && (s.nextPage (s.progDie p) p.kind.blk p.seq).isNone))

/-- The die that takes a stripe's parity page: its parity die, or the lowest-numbered non-member die of the group that can take the
page; `none` where no die can (R211). -/
def State.parityTarget (s : State) (x : Stripe) (seq : Nat) : Option Nat :=
  let can := fun (d : Nat) => (s.nextPage d 3 seq).isSome
  let live := s.groupLive x.group
  if live.contains x.parityDie && can x.parityDie then some x.parityDie
  else live.find? (fun d => x.members.all (fun m => m / 2 ^ 22 != d) && can d)

/-- The place of a die's next checkpoint page: in the first of its map-area blocks with room, or in one of which no checkpoint needs a page
any more, which is erased for it (R182, R195). -/
def State.mapSpot (s : State) (d : Nat) : Option (Nat × Nat × State) :=
  let needed := fun (b : Nat) =>
    s.te.ckpts.any (fun (x : Nat × List CkptRef) => x.2.any (fun c => c.pages.any (fun k => k / 2048 == 2048 * d + b))) ||
      s.te.ckptJobs.any (fun (c : CkptJob) => c.pages.any (fun (x : Nat × Nat) => (x.2 - 1) / 2048 == 2048 * d + b))
  match (List.range ringBlock).find? (fun b => decide ((s.blk d b).next < 2048) && !(s.blk d b).condemned) with
  | some b => some (b, (s.blk d b).next, s)
  | none => match (List.range ringBlock).find? (fun b => !needed b && !(s.blk d b).condemned) with
    | some b => some (b, 0, { s with
        te.media := skeep s.te.media (fun k => k / 2048 != 2048 * d + b)
        te.blocks := smod Blk.fresh s.te.blocks (2048 * d + b) (fun k => { k with next := 0, seqs := [], erases := min 65535 (k.erases + 1) }) })
    | none => none

/-- Issue a ready program whose die is free, in the order of R219; it waits for a block under R207 and for a stripe under
R210. -/
def State.issueProg (s : State) (p : Prog) : State :=
  if p.stage ≠ .ready then s
  else match p.kind with
    | .parity id => match s.te.stripes.find? (fun x => x.id == id) with
      | none => s.progDel p.id
      | some x => match s.parityTarget x p.seq with
        | none => ((s.stripeNoParity id).progDel p.id).openShow
        | some d =>
          if s.dieBusy d ∨ s.te.progs.any (fun q => q.stage == .ready && s.progDie q == d && s.progBefore q p) then s
          else match s.nextPage d 3 p.seq with
            | none => s
            | some (b, pg, s) => (s.issueOn p d b pg none).openShow
    | .ckpt _ _ =>
      let d := p.die
      if s.dieBusy d ∨ (s.die d).failed ∨ s.te.progs.any (fun q => q.stage == .ready && s.progDie q == d && s.progBefore q p) then s
      else match s.mapSpot d with
        | none => s
        | some (b, pg, s) => s.issueOn p d b pg none
    | _ =>
      let d := s.progDie p
      if s.dieBusy d ∨ (s.die d).failed ∨ s.te.progs.any (fun q => q.stage == .ready && s.progDie q == d && s.progBefore q p) then s
      else match s.nextPage d p.kind.blk p.seq with
        | none => s.openShow
        | some (b, pg, s1) => match s1.stripeFor d with
          | none => s1.stallShow (groupOf d)
          | some (str, s2) => ((s2.issueOn p d b pg str).stallShow (groupOf d)).openShow

/-! ### Commit (R133, R173, R174, R222, R225) -/

/-- Count the Flight and Flight-dirty lines of a mask in a slot. -/
def flightCount (x : Slot) (m : BitVec 64) : Nat :=
  (x.st.filter (fun (e : Nat × Nat) => m.getLsbD e.1 && (e.2 == 3 || e.2 == 4))).length

/-- Flight lines of a mask: Flight becomes `a`, Flight-dirty becomes Dirty. -/
def endFlight (x : Slot) (m : BitVec 64) (a : Nat) : Slot :=
  { x with st := x.st.map (fun (e : Nat × Nat) =>
      if m.getLsbD e.1 then (if e.2 = 3 then (e.1, a) else if e.2 = 4 then (e.1, 2) else e) else e) }

/-- A flush has a program's lines on media (Table 4.5): those taken since they were Flight-dirty wait for one more. -/
def State.flushCommit (s : State) (t : Nat) (flight : BitVec 64) : State :=
  { s with te.flushTiles := s.te.flushTiles.map (fun (f : FlushTile) =>
      if f.tile = t then { f with now := (f.now &&& ~~~flight) ||| (f.later &&& flight), later := f.later &&& ~~~flight } else f) }

/-- Commit one tile of a program (step 7 of Table 4.6); returns whether its entry changed. A partial tile of a drain leaves the entry at
its former copy, with which the rebuild merges it (R200). -/
def State.commitTile (s : State) (pt : PTile) (l : Loc) : Bool × State :=
  let e := s.entry pt.tile
  match pt.src with
  | some src =>
    if e.st = 1 ∧ e.loc = some src then
      let s := (s.setEntry pt.tile { e with loc := some l }).blkMod src.die src.block (fun k =>
        { k with copiedTo := setIns (2048 * l.die + l.block) k.copiedTo })
      (true, if e.slot ≠ 0 then s.slotMod e.slot (fun x => { x with loc := some l }) else s)
    else (false, s)
  | none =>
    let x := s.slot pt.slot
    if x.doomed then (false, { s with te.slots := serase s.te.slots pt.slot }.tsStatus)
    else if x.tile = some pt.tile then
      let n := flightCount x pt.flight
      let s := (s.flushCommit pt.tile pt.flight).slotMod pt.slot (fun x => { endFlight x pt.flight 1 with lru := s.tick.toNat })
      let ok : Bool := e.st == 2 && e.slot == pt.slot && !pt.partl
      let s := if ok then
          let st := if (s.slot pt.slot).anyDirty then 2 else 1
          (s.setEntry pt.tile { e with st := st, loc := some l }).slotMod pt.slot (fun x =>
            { x with loc := some l })
        else s
      (ok, s.release n)
    else (false, s)

/-- A flush ends when every line that was Dirty at its start has committed, or is dirty in its slot no more (Table 4.5). -/
def State.flushDone (s : State) : State :=
  let left := s.te.flushTiles.filter (fun (f : FlushTile) => s.te.slots.any (fun x =>
    x.2.tile == some f.tile && x.2.st.any (fun e => decide (2 ≤ e.2) && (f.now ||| f.later).getLsbD e.1)))
  let s := { s with te.flushTiles := left }
  if left.isEmpty && s.bit F.TS_STS.FLUSH_BUSY then
    (s.setBit F.TS_STS.FLUSH_BUSY false).setBit F.TS_CTL.FLUSH false
  else s

/-- A closed region has no line left that is not yet on media, in the line cache, an eviction buffer, a slot or a program: its DATA slot
is released (R54, R300). Until then its lines are stored under its context. -/
def State.closingDone (s : State) : State :=
  let busy := fun (n : Nat) => s.te.slots.any (fun x => x.2.anyCounted && x.2.tile.any (fun t => s.inRegion n (64 * t))) ||
    s.lc.ways.any (fun (x : Nat × Way) => x.2.v && x.2.d && s.inRegion n (wayLine (x.1 / 16) x.2)) ||
    s.lc.bufs.any (fun (b : EvBuf) => s.inRegion n b.line) || s.te.progs.any (fun p => p.tiles.any (fun x => x.any (fun t => s.inRegion n (64 * t.tile))))
  let done := s.te.closing.filter (fun (c : Nat × Nat) => !busy c.1 && !s.bit (F.RT_RG_STS.CLOSING c.1))
  let s := { s with te.closing := s.te.closing.filter (fun (c : Nat × Nat) => !done.contains c) }
  done.foldl (fun s (c : Nat × Nat) => if c.2 = 0 then s else s.keyRelease c.2) s

/-- A region's accepted requests have completed: CLOSING goes (R54, R113). -/
def State.closeRegions (s : State) : State :=
  ((List.range 16).foldl (fun s n =>
    if s.bit (F.RT_RG_STS.CLOSING n) && !(s.rt.reqs.any (fun r => r.region == some n)) then
      s.setBit (F.RT_RG_STS.CLOSING n) false else s) s).closingDone

/-- Write a region's rotation record: ROT_SEQ, 0 for none, and EPOCH (Table 16.4). -/
def State.rotSave (s : State) (n rot : Nat) : State :=
  s.pstAdd (.record (32 + n) [BitVec.ofNat 32 rot, BitVec.ofNat 32 (rot / 2 ^ 32 % 65536 + s.label n / 65536 % 65536 * 65536)])

/-- No valid tile of a rotating region lies below ROT_SEQ: the rotation ends (R308). -/
def State.rotationEnd (s : State) (n : Nat) : State :=
  if s.bit (F.CE_RG_SLOT.ROTATING n) then
    let rot := s.num (R.CE_RG_ROTSEQ_LO n) + 2 ^ 32 * (s.num (R.CE_RG_ROTSEQ_HI n) % 65536)
    let below := s.te.map.filter (fun (x : Nat × TEntry) =>
      (x.2.st == 1 || x.2.st == 2) && s.inRegion n (64 * x.1) && x.2.loc.any (fun l => decide (s.pageSeq l < rot)))
    let flying := s.te.progs.any (fun p => decide (p.seq < rot) && p.stage != .number &&
      p.tiles.any (fun x => x.any (fun t => s.inRegion n (64 * t.tile))))
    if below.isEmpty && !flying then
      let w := s.num (R.CE_RG_SLOT n)
      let s := s.keyRelease (w / 4096 % 4096)
      let s := s.set ⟨R.CE_RG_SLOT n, 12, 12⟩ 0
      let s := ((s.setBit (F.CE_RG_SLOT.ROTATING n) false).setBit (F.CE_RG_SLOT.SUSPECT n) false).set ⟨R.CE_RG_ROT_PCT n, 0, 7⟩ 100
      let lbl := s.label n
      (s.rotSave n 0).roll
        0x0800 0 6 1 n (lbl / 65536 % 65536)
    else
      let all := s.te.map.filter (fun (x : Nat × TEntry) =>
        (x.2.st == 1 || x.2.st == 2) && s.inRegion n (64 * x.1) && x.2.loc.isSome)
      s.set ⟨R.CE_RG_ROT_PCT n, 0, 7⟩ (min 99 (100 * (all.length - below.length) / max 1 all.length))
  else s

/-- Refreshes whose last tile has committed are complete (R284). -/
def State.refreshDone (s : State) : State :=
  s.sir.refresh.foldl (fun s (x : Nat × Nat × List (Nat × Loc)) =>
    let left := x.2.2.filter (fun (y : Nat × Loc) => s.validAt y.1 y.2)
    if left.isEmpty then
      let band := s.num R.SIR_ZONE_BAND / 4 ^ (chanOf (x.1 / 2048) / 5) % 4
      let s := { s with
        sir.refresh := s.sir.refresh.filter (fun (y : Nat × Nat × List (Nat × Loc)) => y.1 != x.1)
        sir.refPages := smod 0 s.sir.refPages band (fun n => n + x.2.1)
        sir.refPasses := s.sir.refPasses + 1 }
      (s.bump R.SIR_REFRESH_BLK).pcEvent 10 3 1
    else s) s

/-- What a change of the map lets end: blocks without a valid tile, rotations, flushes, closing regions (R66, R308). -/
def State.afterMap (s : State) (old : List (Nat × Nat)) : State :=
  let s := old.foldl (fun s (x : Nat × Nat) => s.blkSettle x.1 x.2) s
  let s := (List.range 16).foldl State.rotationEnd s
  (s.flushDone.refreshDone).closeRegions

/-! ### Checkpoints (R195, R196, R204) -/

/-- CKPT_ALL reads 1 until every segment that it asked for has its checkpoint. -/
def State.ckptShow (s : State) : State :=
  if s.te.ckptTodo.isEmpty then s.setBit F.TE_CTL.CKPT_ALL false else s

/-- CKPT_ALL asks for a checkpoint of every changed segment (R204). -/
def State.ckptAll (s : State) : State :=
  let todo := s.te.changed.map (fun (x : Nat × Nat) => x.1) ++ s.te.ckptJobs.map (fun (c : CkptJob) => c.seg)
  ({ s with te.ckptTodo := todo.foldl (fun l g => setIns g l) s.te.ckptTodo }.setBit F.TE_CTL.CKPT_ALL true).ckptShow

/-- The in-service dies, in turn, over which a segment's pages are spread. -/
def State.ckptDie (s : State) (g k : Nat) : Nat :=
  let ds := s.te.fmt.filter (fun d => !(s.die d).failed && !(s.die d).retired)
  ds.getD ((64 * g + k) % max 1 ds.length) 0

/-- The checkpoint writer captures a changed segment and queues the programs of its 64 pages, out of place (R195). -/
def State.ckptBegin (s : State) (g : Nat) : State :=
  let since := sget 0 s.te.changed g
  let bufs := s.bufsFree 64
  if since = 0 ∨ s.te.ckptJobs.any (fun (c : CkptJob) => c.seg == g) ∨ bufs.length < 64 then s
  else
    let job : CkptJob := ⟨g, s.jseq + s.te.jbuf.length, since - 1,
      if g < 32768 then s.te.map.filter (fun (x : Nat × TEntry) => mapSegment x.1 == g) else [],
      if 32768 ≤ g ∧ g < ptSegment 0 then s.te.blocks.filter (fun (x : Nat × Blk) => blockSegment x.1 == g) else [],
      if ptSegment 0 ≤ g then s.te.buckets else [], []⟩
    let id := s.te.nextProg
    let progs := (List.range 64).map (fun k => (⟨id + k, .ckpt g k, s.ckptDie g k, [], 0, .number, s.te.drainMode, [], 0, 0, [], bufs[k]?⟩ : Prog))
    let s := { s with
      te.changed := serase s.te.changed g, te.ckptJobs := s.te.ckptJobs ++ [job], te.progs := s.te.progs ++ progs, te.nextProg := id + 64 }
    progs.foldl State.progNumber s

/-- A segment's checkpoint; the two segments of the poison table are captured together, so that an entry moved between them is in one of the
two (R178, R195). -/
def State.checkpoint (s : State) (g : Nat) : State :=
  if ptSegment 0 ≤ g ∧ (s.bufsFree 128).length < 128 then s
  else if ptSegment 0 ≤ g then
    let s := (s.segChanged (ptSegment 0)).segChanged (ptSegment 16384)
    (s.ckptBegin (ptSegment 0)).ckptBegin (ptSegment 16384)
  else s.ckptBegin g

/-- A checkpoint page has passed; with its 64th page the checkpoint is complete, the map area keeps the segment's two newest (R195),
and a flush that waits for the ring is taken up. -/
def State.ckptPass (s : State) (g k key : Nat) : State :=
  match s.te.ckptJobs.find? (fun (c : CkptJob) => c.seg == g) with
  | none => s
  | some c =>
    let pages := sset 0 c.pages k (key + 1)
    if pages.length < 64 then
      { s with te.ckptJobs := s.te.ckptJobs.map (fun (x : CkptJob) => if x.seg = g then { x with pages := pages } else x) }
    else
      let done : CkptRef := ⟨c.jseq, pages.map (fun (x : Nat × Nat) => x.2 - 1)⟩
      { s with
        te.ckpts := smod [] s.te.ckpts g (fun (l : List CkptRef) => done :: l.take 1)
        te.ckptJobs := s.te.ckptJobs.filter (fun (x : CkptJob) => x.seg != g)
        te.ckptTodo := setDel g s.te.ckptTodo }.ckptShow.when s.te.flushWait State.journalFlush

/-- Checkpoints that are not complete are given up; their segments are changed still (R439, R442). -/
def State.ckptDrop (s : State) : State :=
  let s := { s with te.progs := s.te.progs.filter (fun (p : Prog) => p.stage == PStage.busy || (match p.kind with | PKind.ckpt _ _ => false | _ => true)) }
  { s with
    te.changed := s.te.ckptJobs.foldl (fun (l : Sparse Nat) (c : CkptJob) => sset 0 l c.seg (c.since + 1)) s.te.changed
    te.ckptJobs := [] }

/-- A program's status has passed (step 7 of Table 4.6); its block's age is class A0 (R276). A drain's pages are left to the rebuild,
which finds them by their headers (R198, R200). -/
def State.progPass (s : State) (p : Prog) : State :=
  let s := { s with sir.ages := serase s.sir.ages (2048 * p.die + p.block) }
  let key := packPage p.die p.block p.page
  let s := match p.kind with
    | .parity id =>
      let s := s.stripeMod id (fun x => { x with parity := some key })
      let g := groupOf p.die
      let s := ((s.bump (R.MG_OBP_STRIPES g)).addCnt (R.MG_OBP_HELD g) 1).obpShow (stripeGroup p.die)
      (s.progDel p.id).journal [.page p.die p.block p.page p.seq]
    | .ckpt seg k => (s.progDel p.id).ckptPass seg k key
    | _ =>
      let olds := p.tiles.filterMap (fun (x : Option PTile) => x.bind (fun t => (s.entry t.tile).loc.map (fun (l : Loc) => (l.die, l.block))))
      let r := p.tiles.zipIdx.foldl (fun (acc : List Nat × State) (x : Option PTile × Nat) => match x.1 with
        | none => acc
        | some t =>
          let q := acc.2.commitTile t ⟨p.die, p.block, p.page, x.2⟩
          (if q.1 then acc.1 ++ [t.tile] else acc.1, q.2)) ([], s)
      let s := r.2.progDel p.id
      let s := match p.kind with
        | .copy true => { s.addCnt R.TE_WL_COPIED r.1.length with te.wlTotal := s.te.wlTotal + r.1.length }
        | .copy false => s.addCnt R.TE_GC_COPIED r.1.length
        | _ => s
      let s := if p.drain then s else
        s.journal (.page p.die p.block p.page p.seq :: r.1.map (fun t => .tmap t (s.entry t).recorded))
      let s := match s.stripeOfPage key with
        | some x => (s.stripeMod x.id (fun x => { x with waiting := x.waiting.filter (fun m => m != key) })).stripeParity x.id
        | none => s
      s.afterMap olds
  let s := if (s.blk p.die p.block).next ≥ 2048 ∧ 1 ≤ (s.blk p.die p.block).st ∧ (s.blk p.die p.block).st ≤ 3 then s.closeBlock p.die p.block else s
  s.parityRelease.progNumbers

/-- Return a host program's lines to their slots: Flight becomes Dirty, Flight-dirty becomes Dirty and releases 1 (R225). -/
def State.progReturn (s : State) (p : Prog) : State :=
  (p.tiles.foldl (fun s (x : Option PTile) => match x with
    | none => s
    | some t =>
      if (s.slot t.slot).doomed then { s with te.slots := serase s.te.slots t.slot }.tsStatus
      else
        let n := ((s.slot t.slot).st.filter (fun (e : Nat × Nat) => t.flight.getLsbD e.1 && e.2 == 4)).length
        (s.slotMod t.slot (fun x => endFlight x t.flight 2)).release n) s).progDel p.id

/-- Program again from the program buffer, under a new page sequence number (R187, R225); a parity page finds its die when it is
issued (R211), a checkpoint page goes to another die. -/
def State.progAgain (s : State) (p : Prog) : State :=
  let d := match p.kind with | .parity _ => p.die | .ckpt seg k => s.ckptDie seg (k + 1) | _ => s.progDie p
  let gone := match p.kind with | .parity _ | .ckpt _ _ => false | _ => (s.die d).failed || (s.die d).retired
  if gone then s.progReturn p
  else
    let p' := { p with stage := .number, die := d }
    (s.progMod p.id (fun _ => p')).progNumber p'

/-- A program's status has failed (step 8 of Table 4.6, R222, R225). -/
def State.progFail (s : State) (p : Prog) : State :=
  let key := packPage p.die p.block p.page
  let s := s.bump R.TE_PGM_FAIL
  let s := s.blkMod p.die p.block (fun k => { k with condemned := true })
  let s := if 1 ≤ (s.blk p.die p.block).st ∧ (s.blk p.die p.block).st ≤ 3 then s.closeBlock p.die p.block else s
  match p.kind with
  | .parity _ | .ckpt _ _ => s.progAgain p
  | .host => (s.stripeRemove key p.lines).progAgain p
  | .copy w =>
    let s := (s.stripeRemove key p.lines).bump R.TE_GC_ABORT
    let failed := s.validTiles p.die p.block
    let again := failed.filterMap (fun (x : Nat × Loc) =>
      ((s.te.media.filterMap (fun (e : Nat × MPage) =>
        match s.te.gc.find? (fun g => g.die == p.die && g.wear == w) with
        | some g => if e.1 / 2048 = 2048 * g.die + g.src then
            (e.2.tiles.zipIdx.find? (fun (y : Option PageTile × Nat) => y.1.any (fun t => t.tile == x.1))).map
              (fun y => (Loc.mk g.die g.src (e.1 % 2048) y.2))
          else none
        | none => none)).getLast?).map (fun l => (x.1, l, x.2)))
    { s with te.gc := s.te.gc.map (fun (g : GcJob) => if g.die = p.die ∧ g.wear = w then { g with again := again } else g) }.progDel p.id

end Sys2Proof.Machine
end

