-- ==== Sys2Proof/Machine/RecoverOps.lean ====
section
/-! DEFINITION. Recovery of a media line that fails decode or tag: retries, open-block parity, the partner copy, and the loss
of a line (03_read_path.md R104, R105; 09_integrity_and_drift.md R278, R286; 07_media_upkeep.md R214), and the discards that
erases complete (02_memory_model.md R66). -/

set_option autoImplicit false

namespace Sys2Proof.Machine

/-- Line counters of a channel's codec for an accepted line (R288, Table 7.4). -/
def State.codecOk (s : State) (c bits retry : Nat) : State :=
  let g := c / 8
  let s := s.pcItem (26 + g)
  let s := if bits = 0 ∧ retry = 0 then s else { s with sir.errOk := smod 0 s.sir.errOk c (fun n => n + 1) }
  if retry = 0 then
    if bits = 0 then s else (s.bump (R.MG_CE_LINES g)).addCnt (R.MG_CE_BITS g) bits
  else s.bump (R.MG_RETRY1 g + 4 * ((retry - 1) % 3))

/-- What a failed decode counts (R265, R306). -/
def State.codecBad (s : State) (g line : Nat) (d : Decoded) : State :=
  let s := s.pcItem (26 + g)
  match d with
  | .lchk => s.bump (R.MG_LCHK_CNT g)
  | .tag k => s.tagFailed line k
  | _ => s

/-- A line has failed every retry (R278, R288). -/
def State.codecUe (s : State) (l : Loc) (pos : Nat) : State :=
  let g := groupOf l.die
  let s := s.bump (R.MG_UE_LINES g)
  s.when (s.bit (F.MG_CDC_CTL.EVT_EN g)) (fun s => s.roll 0x0602 0 (110 + g) l.die l.block (l.page * 512 + pos))

/-- A stripe still holds the page: its lines can be reconstructed (R213, R286). -/
def State.obpHolds (s : State) (l : Loc) : Bool := (s.stripeOfPage (packPage l.die l.block l.page)).isSome

/-- Step 2 of R104: a stripe holds the page, and its block is open or not yet verified. -/
def State.obpFor (s : State) (l : Loc) : Bool :=
  s.obpHolds l && (let st := (s.blk l.die l.block).st; st == 1 || st == 2 || st == 4)

/-- Reconstruct one line and check it as though read from its own page, within one command of the Sirocco engine or a Tutor (R213):
counted as success or failure. -/
def State.obpTry (s : State) (line : Nat) (l : Loc) (pos : Nat) : Decoded × State :=
  let g := groupOf l.die
  let got := match s.reconstruct (packPage l.die l.block l.page) pos with
    | none => Decoded.bad
    | some w => s.checkLine g line (s.pageSeq l) pos 0 w
  let s := s.lineKeyUse line (s.pageSeq l) 0
  match got with
  | .ok d n => (.ok d n, s.bump (R.MG_OBP_RECON g))
  | .tag k => (.tag k, (s.bump (R.MG_OBP_FAIL g)).tagFailed line k)
  | r => (r, s.bump (R.MG_OBP_FAIL g))

/-- A recovered line's stored copy is rewritten in the background (R104): a tile in the media state is queued for a copy by the die's
Tutor; a staged one, which no copy takes (R220), is programmed again from its slot, as due at once. -/
def State.rewriteTile (s : State) (t : Nat) : State :=
  let e := s.entry t
  match e.loc with
  | some l =>
    if e.st = 1 ∧ !(s.te.gc.any (fun g => g.again.any (fun x => x.1 == t))) then
      { s with te.gc := s.te.gc ++ [GcJob.mk l.die l.block false 24 [(t, l, l)] true] }.leased 8
    else if e.st = 2 then (s.slotMod e.slot (fun x => { x with due := true })).tsStatus
    else s
  | none => s

/-- Release a media line to a host read or a partial write, fill the line cache, and keep it in its slot as a class-B
request (R102, R103, R129). -/
def State.releaseLine (s : State) (r : Req) (d : Line) : State :=
  let s := if r.kind = .read then s.fillFor r d else s
  let s := if s.bit F.TS_CTL.RD_KEEP && r.kind == .read && !r.closed && !r.zero then
      { s with ce.jobs := s.ce.jobs ++ [(s.ce.nextJob, .keep r.line d)], ce.nextJob := s.ce.nextJob + 1 }
    else s
  s.supply r d false 2

/-- The Tutors take a retired die's tile next (R226). -/
def State.tileNext (s : State) (t : Nat) : State :=
  { s with te.dieWork := s.te.dieWork.map (fun (w : Nat × List Nat × Nat) =>
      if w.2.1.contains t then (w.1, t :: w.2.1.filter (fun x => x != t), w.2.2) else w) }

/-- No step recovered a host or forwarded miss (R105). A line lost with its die is answered with poison, without an entry or a notice,
and the Tutors take its tile next (R226). -/
def State.loseHost (s : State) (r : Req) (die : Nat) (tag : Bool) : State :=
  (if s.dieLost die then s.tileNext (tileOf r.line) else s.loseLine r.line die tag (r.closed || r.zero)).supply r 0 true 2

/-- The last step before a host miss is lost: the partner copy, when the pair is attached and the region in sync (R104). -/
def State.afterObp (s : State) (r : Req) (die : Nat) (tag : Bool) : State :=
  if s.partnerCopy r.line then
    (s.repReq r.line (.host r.id tag)).reqMod r.id (fun x => { x with stage := .partner, excs := x.excs ++ [50] })
  else s.loseHost r die tag

/-- The tile at a position of a program is copied for a drift refresh, class 3 of the Sirocco engine (R284). -/
def State.refreshGather (s : State) (pid pos : Nat) : Bool :=
  s.te.progs.any (fun (p : Prog) => p.id == pid && ((p.tiles[pos]?).join).any (fun t =>
    t.src.any (fun l => s.sir.refresh.any (fun x => x.1 == 2048 * l.die + l.block))))

/-- A line of a page that is being assembled stays uncorrectable: programmed as zeros, and listed unless its poison, newer data or another
place of its tile stands against it (R105, R132, R220). -/
def State.gatherLose (s : State) (pid pos line ln : Nat) (l : Loc) (tag : Bool) : State :=
  let s := if s.poisoned ln then s
    else (s.loseLine ln l.die tag (!(s.validAt (tileOf ln) l))).when (s.refreshGather pid pos) (fun s => s.bump R.SIR_POISONED)
  s.gathered pid pos line 0

/-- The partner copy of a line that is being assembled, which may have come already (R286), or its loss (R104, R132, R220). -/
def State.gatherPartner (s : State) (pid pos line ln : Nat) (l : Loc) (tag : Bool) : State :=
  match s.sir.got.find? (fun x => x.1 == ln) with
  | some x => { s with sir.got := s.sir.got.erase x }.gathered pid pos line x.2
  | none =>
  if s.partnerCopy ln then s.repReq ln (.gather pid pos line tag) else s.gatherLose pid pos line ln l tag

/-- A reconstruction has read all it needs (step 3 of Table 7.3, R213, R214): its line is checked as though read from its own page; a
failure passes it on to the partner copy. -/
def State.reconDone (s : State) (id : Nat) : State :=
  match s.te.recons.find? (fun (x : Recon) => x.id == id) with
  | none => s
  | some x =>
    if x.left ≠ 0 then s
    else
      let g := groupOf x.loc.die
      let s := { s with te.recons := s.te.recons.filter (fun (y : Recon) => y.id != id) }
      let got := if x.bad then Decoded.bad else s.checkLine g x.line (s.pageSeq x.loc) x.pos 0 x.acc
      let s := s.lineKeyUse x.line (s.pageSeq x.loc) 0
      match got with
      | .ok d _ =>
        let s := s.bump (R.MG_OBP_RECON g)
        match x.why with
        | .host rid => match s.req rid with
          | some r => (s.rewriteTile (tileOf x.line)).releaseLine r d
          | none => s
        | .gather pid pos line => (s.when (s.refreshGather pid pos) (fun s => s.bump R.SIR_RECOV_OBP)).gathered pid pos line d
        | .member _ => s
      | failed =>
        let s := s.bump (R.MG_OBP_FAIL g)
        let s := match failed with | .tag k => s.tagFailed x.line k | _ => s
        match x.why with
        | .host rid => match s.req rid with
          | some r => s.afterObp r x.loc.die failed.tagBad
          | none => s
        | .gather pid pos line => s.gatherPartner pid pos line x.line x.loc failed.tagBad
        | .member _ => s

/-- Recovery of a host or forwarded miss that its own page does not yield (R104, R214): from its stripe, else from the partner. A line that
the twin asks for is answered FAIL and recovered in the background (R339). -/
def State.hostRecover (s : State) (r : Req) (l : Loc) (pos : Nat) (tag : Bool) : State :=
  if r.forTwin then
    (if s.dieLost l.die then s else { s with sir.recover := s.sir.recover ++ [(l, pos)] }).supply r 0 true 2
  else if s.obpFor l then
    let id := s.te.nextRecon
    ((s.reqMod r.id (fun x => { x with stage := .recon id, excs := x.excs ++ [4] })).reconStart (.host r.id) r.line l pos).reconDone id
  else s.afterObp r l.die tag

/-- A host or forwarded miss has failed its last retry (R104, R214). -/
def State.hostUnread (s : State) (r : Req) (m : MRead) (tag : Bool) : State :=
  (if r.forTwin then s else s.codecUe m.loc m.pos).hostRecover r m.loc m.pos tag

/-- A miss to a lost die (R73, R90, R226): repaired from its stripe or from the partner where one can, else answered with poison. -/
def State.lostMiss (s : State) (r : Req) (l : Loc) : State :=
  s.hostRecover { r with cls := 2 } l (64 * l.tip + r.line % 64) false

/-- Line number of a line that a program gathers. -/
def State.gatherLine (s : State) (pid pos line : Nat) : Option Nat :=
  match s.te.progs.find? (fun p => p.id == pid) with
  | some p => match p.tiles[pos]? with | some (some t) => some (64 * t.tile + line) | _ => none
  | none => none

/-- Recovery of a line of a page that is being assembled (R104, R132, R220). -/
def State.gatherRecover (s : State) (pid pos line ln : Nat) (l : Loc) (mpos : Nat) (tag : Bool) : State :=
  if s.obpFor l then
    let id := s.te.nextRecon
    (s.reconStart (.gather pid pos line) ln l mpos).reconDone id
  else s.gatherPartner pid pos line ln l tag

/-- A member's line has come for a reconstruction, corrected, or stays uncorrectable (R213). -/
def State.reconLine (s : State) (id : Nat) (w : Option StoredLine) : State :=
  { s with te.recons := s.te.recons.map (fun (x : Recon) =>
      if x.id = id then { x with left := x.left - 1, acc := x.acc ^^^ w.getD 0, bad := x.bad || w.isNone } else x) }.reconDone id

/-- A read of a die that can no longer be read ends (R90, R132, R213, R226). -/
def State.readLost (s : State) (m : MRead) : State :=
  let s := { s with te.reads := s.te.reads.filter (fun x => x.id != m.id) }
  match m.purpose with
  | .host rid => match s.req rid with
    | some r => s.lostMiss r m.loc
    | none => s
  | .gather pid pos line => match s.gatherLine pid pos line with
    | some ln => s.gatherRecover pid pos line ln m.loc m.pos false
    | none => s
  | .member id => s.reconLine id none

/-- A background read of a die could be issued now: a slot is free, and the die is idle or suspended (R96, R98). -/
def State.bgCan (s : State) (d : Nat) : Bool :=
  decide (s.bgUsed d < 4) && (!s.dieBusy d || (s.die d).suspended) && !s.dieLost d

/-- The Sirocco engine has had its turn at a die, or waits for one (R283). -/
def State.sirTurnEnd (s : State) (d : Nat) (waits : Bool) : State :=
  if (s.die d).sirWait == waits then s else (s.dieMod d (fun x => { x with sirWait := waits })).bgIssue d

/-! ### Discards that erases complete (R66) -/

/-- Percentage of a discard done. -/
def Discard.pct (d : Discard) : Nat :=
  if d.blocks.isEmpty && d.accepted && !d.twinWait then 100
  else if d.total = 0 then 0 else min 99 (100 * (d.total - d.blocks.length) / d.total)

/-- RT_RG_STS shows the oldest secure discard that runs in region n; with none left SDISC goes and the percentage stays at 100 (R113). -/
def State.sdiscShow (s : State) (n : Nat) : State :=
  match s.te.discards.find? (fun (d : Discard) => d.secure && d.region == some n) with
  | some d => (s.setBit (F.RT_RG_STS.SDISC n) true).set (F.RT_RG_STS.SDISC_PCT n) d.pct
  | none => (s.setBit (F.RT_RG_STS.SDISC n) false).set (F.RT_RG_STS.SDISC_PCT n) 100

/-- Show a secure discard's progress in its region's status, and end it at 100 (R66, R113). -/
def State.discardShow (s : State) (d : Discard) : State :=
  let full := decide (d.pct = 100)
  let s := if full then { s with te.discards := s.te.discards.filter (fun x => x.id != d.id) } else s
  let s := match d.region with
    | some n => s.sdiscShow n
    | none => s
  if full then
    match d.dst with
    | .twin tag => s.car 0x23 tag [128]
    | dst => s.answer dst .success 0 [100]
  else s

/-- A block has been erased: no copy of a discarded range is left in it (R66). -/
def State.discardErased (s : State) (key : Nat) : State :=
  let s := { s with te.discards := s.te.discards.map (fun (d : Discard) => { d with blocks := d.blocks.filter (fun b => b != key) }) }
  s.te.discards.foldl (fun s (d : Discard) => if d.accepted && d.secure then s.discardShow d else s) s

/-! ### Erases (R218, R225) -/

/-- The former pages of discarded tiles in a block are reclaimed: their tiles are unmapped (Table 6.3). -/
def State.reclaim (s : State) (d b : Nat) : State :=
  s.te.map.foldl (fun s (x : Nat × TEntry) =>
    if x.2.st = 3 ∧ x.2.loc.any (fun l => l.die == d && l.block == b) then s.setEntry x.1 TEntry.unmapped else s) s

/-- An erase has ended well: the block is free, its pages are gone. -/
def State.erasePass (s : State) (d b : Nat) : State :=
  let n := min 65535 ((s.blk d b).erases + 1)
  let s := s.blkMod d b (fun k => { Blk.fresh with erases := n, age := k.age })
  let s := { s with te.media := skeep s.te.media (fun k => k / 2048 != 2048 * d + b) }.reclaim d b
  let s := (s.journal [.block d b 4 n]).dieMod d (fun x => { x with erase := none })
  (s.discardErased (2048 * d + b)).parityRelease

/-- Retire a block (R225): journalled, counted and recorded. -/
def State.retireBlock (s : State) (d b : Nat) : State :=
  let s := s.blkMod d b (fun k => { k with st := 8 })
  ((s.journal [.block d b 6 (s.blk d b).erases]).bump R.TE_BLK_RETIRED).roll 0x0505 0 8 d b 0

/-- An erase has failed (R225). -/
def State.eraseFail (s : State) (d b : Nat) : State :=
  let s := (s.bump R.TE_ERS_FAIL).dieMod d (fun x => { x with erase := none })
  ((s.retireBlock d b).discardErased (2048 * d + b)).parityRelease

end Sys2Proof.Machine
end

