-- ==== Sys2Proof/Machine/RouteOps.lean ====
section
/-! DEFINITION. The way of a request through the router as operations over the state: media dispatch, lookups, placing of writes,
mirroring and same-line ordering (02_memory_model.md R57–R60; 03_read_path.md R87–R95; 04_write_path_and_dirty_budget.md R114–R123,
R134; 11_twin_pair.md R335–R337). -/

set_option autoImplicit false

namespace Sys2Proof.Machine

/-! ### Media dispatch and lookups (R77, R78, R87–R97) -/

/-- S8: dispatch a miss to its die, or hold it in the die's overflow queue behind those already held (R77, R78, R90, R97). -/
def State.dispatch (s : State) (r : Req) (l : Loc) : State :=
  if s.dieLost l.die then s.lostMiss r l
  else
    let out := s.dieOut l.die
    if 8 ≤ out ∨ 0 < s.dieHeld l.die then
      let held := s.dieHeld l.die + 1
      let s := s.when (s.bit F.RT_CTL.HELD_EVT_EN && s.num R.RT_HELD_CNT == 0) (fun s => s.roll 0x0300 0 31 1 l.die 0)
      let s := (s.bump R.RT_HELD_CNT).maxIn R.RT_HELD_MAX held
      (s.reqMod r.id (fun x => { x with stage := .held l.die, cls := 2, excs := x.excs ++ [6], dieN := out + held })).heldShow
    else
      (s.reqMod r.id (fun x => { x with stage := .media l.die, cls := 2 })).issueRead (.host r.id) l (64 * l.tip + r.line % 64)

/-- What the tile's entry decides (Table 3.3). A partial write over a line of a whole-poisoned tile that has been written since finds its
data below (R72). -/
def State.byEntry (s : State) (r : Req) : State :=
  let e := s.entryFor (tileOf r.line)
  if e.ptile && (r.kind == .read || s.wholeLine r.line) then s.supply r 0 true 1
  else if e.pline && s.listed r.line && (e.st == 0 || e.st == 3) then s.supply r 0 true 1
  else if e.st = 0 ∨ e.st = 3 then s.supply r 0 false 0
  else if e.st = 1 ∧ !e.pline then
    match e.loc with
    | some l => s.dispatch r l
    | none => s.supply r 0 false 0
  else s.reqMod r.id (fun x => { x with stage := .second })

/-- S6: the poison table and the slot (Table 3.3). A listed line gives its merged contents with poison (R69); a line that has never been
written reads as zero in the hit class (R57). -/
def State.bySecond (s : State) (r : Req) : State :=
  let t := tileOf r.line
  let e := s.entry t
  let here : Bool := e.st == 2 && (s.slot e.slot).lineSt (r.line % 64) != 0
  let d := s.slotLine e.slot (r.line % 64)
  let r := { r with cls := 1 }
  if e.ptile && (r.kind == .read || s.wholeLine r.line) then s.supply r 0 true 1
  else if e.pline && (s.te.badBuckets.contains (bucket1 t) || s.te.badBuckets.contains (bucket2 t) || s.listed r.line) then
    s.supply r (if here && s.listed r.line then d else 0) true 1
  else if here then
    let s := s.xtsUse.slotMod e.slot (fun x => { x with lru := s.tick.toNat })
    (if r.kind = .read then s.fillFor r d else s).supply r d false 1
  else if e.st = 1 ∨ e.st = 2 then
    match e.loc with
    | some l => s.dispatch r l
    | none => s.supply r 0 false 0
  else s.supply r 0 false 0

/-- The map-cache lookup of S4 and B1, with its errors (R161, R162): `true` when the entry is at hand. -/
def State.mapcLookup (s : State) (t : Nat) (ups : List Upset) : Bool × State :=
  if s.mapcHit t then
    if ups.contains .mapUe then
      (false, (((s.mapcDrop t).bump R.MAPC_UE_CNT).raise 8 1 Kind.UE).bump R.MAPC_MISS)
    else
      let s := if ups.contains .mapCe then s.mapcMark t true else s
      let s := s.when ((s.mapcWay t).any (fun w => w.ce)) (fun s => s.bump R.MAPC_CE_CNT)
      (true, (s.mapcTouch t).bump R.MAPC_HIT)
  else (false, s.bump R.MAPC_MISS)

/-- S4 for a request that the line cache does not answer. -/
def State.mapPath (s : State) (r : Req) (ups : List Upset) : State :=
  let s := s.pcItem 8
  let m := s.mapcLookup (tileOf r.line) ups
  if m.1 then m.2.byEntry r else m.2.reqMod r.id (fun x => { x with stage := .mapRead })

/-- Errors that a lookup of a set meets: a tag's parity error, whether its way is valid or not (R142), and a correctable error that a
stored word keeps (R143). -/
def State.tagUpsets (s : State) (set : Nat) (ups : List Upset) : State :=
  ups.foldl (fun s u => match u with
    | .tag w => if s.lc.withdrawn.contains (16 * set + w) then s else s.lcTagRepair set w
    | .lost w => if s.lc.withdrawn.contains (16 * set + w) then s else s.lcWithdraw set w
    | .ce w k => s.lcMark set w k true
    | _ => s) s

/-- The partner is asked for the line of a dirty way with an uncorrectable word (R143); `req` waits for it. -/
def State.wayAsk (s : State) (set w : Nat) (req : Option Nat) : State :=
  let line := wayLine set (s.way set w)
  (s.repReq line (.way set w line req)).wayFetch set w true

/-- A way is read to move its line down (R116, R143, R148): `false` when an uncorrectable word of a dirty line stops that, because the
partner's copy has been asked for or the line is lost and the way empty. -/
def State.wayRead (s : State) (set w : Nat) (ups : List Upset) : Bool × State :=
  let x := s.way set w
  if !x.v || !x.d then (true, s)
  else if s.wayLost set w then (false, s)
  else
    let ue := ueWords ups w
    if ue = 0 then (true, s)
    else
      let s := s.addCnt R.LC_UE_CNT ue
      (false, if s.partnerCopy (wayLine set x) then s.wayAsk set w none else s.lcLoseDirty set w)

/-- The way of an allocation, once its line can be moved (R144). A victim whose dirty line waits for the partner's copy is not taken, and
the allocation finds no way (DESIGN CHOICE: R144 names no other way then;
notes/assumptions/63). -/
def State.lcAllocate (s : State) (set : Nat) (ups : List Upset) : Option Nat × State :=
  match s.lcVictim set with
  | none => (none, s)
  | some w =>
    let m := s.wayRead set w ups
    (if m.1 || !(m.2.way set w).v then some w else none, m.2)

/-- S3 and S4 for a read or the old line of a partial write (R88, R91, R143). -/
def State.lookup (s : State) (r : Req) (ups : List Upset) : State :=
  let s := s.pcItem 7
  let set := lcSet r.line
  if s.lcOn then
    let s := s.tagUpsets set ups
    match s.lcFind r.line with
    | some w =>
      let x := s.way set w
      let ue := ueWords ups w
      if ue ≠ 0 ∨ s.wayLost set w then
        let s := s.addCnt R.LC_UE_CNT ue
        if !x.d then (s.lcInvalidate set w).mapPath r ups
        else if s.partnerCopy r.line && r.forTwin then (s.wayAsk set w none).supply r 0 true 0
        else if s.partnerCopy r.line then
          (s.wayAsk set w (some r.id)).reqMod r.id (fun y => { y with stage := .partner })
        else (s.lcLoseDirty set w).supply r 0 true 0
      else
        let s := s.addCnt R.LC_CE_CNT (popBits 4 x.ce.toNat)
        let s := if r.kind = .read then s.bump R.LC_HIT_RD else s
        ((s.mapcLookup (tileOf r.line) ups).2.lcTouch set w).supply r x.data x.p 0
    | none =>
      match s.bufFind r.line with
      | some b =>
        let s := if r.kind = .read then s.bump R.LC_HIT_RD else s
        (s.mapcLookup (tileOf r.line) ups).2.supply r b.data (s.listed r.line) 0
      | none => (if r.kind = .read then s.bump R.LC_MISS_RD else s).mapPath r ups
  else
    match s.bufFind r.line with
    | some b => (s.mapcLookup (tileOf r.line) ups).2.supply r b.data (s.listed r.line) 0
    | none => s.mapPath r ups

/-! ### Writes (R114–R123, R134) -/

/-- The write is mirrored to the twin (R335, R337). -/
def State.mirrors (s : State) (r : Req) : Bool :=
  s.mirroring && match r.src with | .mirror _ => false | .cmd _ => false | _ => true

/-- The line cache or the slot has taken the write's data: reads of the line under way take no more requests, writes behind it go on, and
it completes or is mirrored (R60, R88, R134). -/
def State.placed (s : State) (r : Req) : State :=
  let d := r.wdata
  let s := (s.closeReads r.line).supplyJoined r d r.poison (if r.merged then r.cls - 8 else 0)
  let s := (s.wakeAfter r.id).bmapSet (tileOf r.line)
  if s.mirrors r then
    let m := s.sendMwr r.line d r.poison
    m.2.reqMod r.id (fun x => { x with stage := .mirror m.1, cls := if r.merged then r.cls - 3 else 4 })
  else s.respond r d false false

/-- A partial write merged over poison leaves the line poisoned; any other write removes it from the table (R71, R177). -/
def State.placePoison (s : State) (r : Req) : State :=
  if r.merged then s else s.unpoisonLine r.line

/-- Hold a write before W4 (R123). -/
def State.holdWrite (s : State) (r : Req) : State :=
  (s.bump R.TS_HELD_CNT).reqMod r.id (fun x => { x with stage := .budget, excs := x.excs ++ [7] })

/-- The oldest eviction buffer of a line enters the slot of its tile, and frees (R127, Table 4.4); `none` while no slot can be taken. -/
def State.evictLine (s : State) (line : Nat) : Option State :=
  match s.lc.bufs.find? (fun (b : EvBuf) => b.line == line) with
  | none => some s
  | some b => match s.slotPutDirty line b.data true with
    | none => none
    | some (old, s) =>
      let s := { s with lc.bufs := s.lc.bufs.erase b }
      some (if old = 2 ∨ old = 4 then s.release 1 else s.tsStatus)

/-- Every eviction buffer of a line enters its slot, the oldest first: a bypassing write follows the copies that lie there (R117, R119). -/
def State.evictAll (s : State) (line : Nat) : Option State :=
  (s.lc.bufs.filter (fun (b : EvBuf) => b.line == line)).foldl (fun (o : Option State) _ => o.bind (fun s => s.evictLine line)) (some s)

/-- A full line into the slot of its tile, behind what the eviction buffers hold of it. -/
def State.evictPut (s : State) (line : Nat) (d : Line) (reserve : Bool) : Option (Nat × State) :=
  match s.evictAll line with
  | none => none
  | some s => s.slotPutDirty line d reserve

/-- A bypassing write: charged, placed in the slot of its tile and refunded when the slot's line was already Dirty or
Flight-dirty (R117, Table 4.4). It waits while no slot can be taken. -/
def State.bypass (s : State) (r : Req) : State :=
  match s.evictPut r.line r.wdata true with
  | none => s.reqMod r.id (fun x => { x with stage := .budget })
  | some (old, s) =>
    let s := if old = 2 ∨ old = 4 then s.tsStatus else s.charge 1
    ((s.bump R.LC_BYPASS_WR).placePoison r).placed r

/-- W3–W6: place a full line, in the line cache or past it (R116, R117, R123, R158). Past it, B1 reads the entry that the map cache does
not hold, a tile under repair is waited for (R114, R175), and a read that is still looking for the line goes first (R60). `clear` skips
the hold. -/
def State.place (s : State) (r : Req) (ups : List Upset) (clear : Bool) : State :=
  let set := lcSet r.line
  let hold := s.holding && s.bit F.TS_CTL.HOLD_EN && !clear
  match (if s.lcOn then s.lcFind r.line else none) with
  | some w =>
    let x := s.way set w
    if !x.d && hold then s.holdWrite r
    else
      let s := s.lcPut r.line w r.wdata true r.poison
      let s := if x.d then s else s.charge 1
      ((s.bump R.LC_HIT_WR).placePoison r).placed r
  | none =>
    let a := if s.lcOn && !s.bit F.LC_STS.SAFE_BUSY then s.lcAllocate set ups else (none, s)
    let s := a.2
    match a.1 with
    | some w =>
      if hold then s.holdWrite r
      else
        let s := (s.lcEmpty set w).lcPut r.line w r.wdata true r.poison
        (((s.charge 1).bump R.LC_MISS_WR).placePoison r).placed r
    | none =>
      if !r.atHand then s.reqMod r.id (fun y => { y with stage := .mapRead })
      else if s.te.bad.contains (tileOf r.line) then s.reqMod r.id (fun y => { y with stage := .repair })
      else if hold then s.holdWrite r
      else match s.rt.reqs.find? (fun x => x.line == r.line && x.id != r.id && x.kind == .read &&
            (x.stage == .mapRead || x.stage == .second)) with
        | some x => s.reqMod r.id (fun y => { y with stage := .after x.id })
        | none => s.bypass r

/-- Poison injected into a line, in its turn among the writes of the line (R60, R70, R394): it follows a read that still looks for the line, and
reads accepted later take its outcome. -/
def State.placeInject (s : State) (r : Req) : State :=
  match s.rt.reqs.find? (fun x => x.line == r.line && x.id != r.id && x.kind == .read && (x.stage == .mapRead || x.stage == .second)) with
  | some x => s.reqMod r.id (fun y => { y with stage := .after x.id })
  | none =>
    let s := (((s.closeReads r.line).poisonNow r.line).touched (tileOf r.line)).wakeAfter r.id
    { s with hp.psrc := sset 0 s.hp.psrc r.line 1 }.respond r 0 false false

/-- Do what a request's stage asks next. -/
def State.runReq (s : State) (r : Req) (ups : List Upset) : State :=
  match r.stage with
  | .ready =>
    match r.kind with
    | .read => s.lookup r ups
    | .part _ be =>
      if be = 0 then
        let s := s.wakeAfter r.id
        s.respond { r with cls := 3 } 0 false false
      else s.lookup r ups
    | .write _ =>
      let s := if s.lcOn then s.tagUpsets (lcSet r.line) ups else s
      let m := s.mapcLookup (tileOf r.line) ups
      let r := { r with atHand := r.atHand || m.1 }
      (m.2.reqMod r.id (fun x => { x with atHand := r.atHand })).place r ups false
    | .inject => s.placeInject r
  | .placing => s.place r [] false
  | .cleared => s.place r [] true
  | .window => match r.region with
    | some n => (s.importWrite n (r.line - s.rgFirst n) r.wdata (match r.kind with | .write _ => true | _ => false)).respond r 0 false true
    | none => s
  | _ => s

/-- A write that waits at a transfer window can go on (R128, R321). -/
def State.windowReady (s : State) (r : Req) : Bool :=
  r.stage == .window && r.region.any (fun n => s.windowTakes n (r.line - s.rgFirst n))

/-- The next request that can go on. -/
def State.nextReady (s : State) : Option Req :=
  s.rt.reqs.find? (fun r => r.stage == .ready || r.stage == .placing || r.stage == .cleared || s.windowReady r)

/-- Let requests go on until none can, at most `n` of them. -/
def State.pumpN : Nat → State → State
  | 0, s => s
  | n + 1, s => match s.nextReady with
    | none => s
    | some r => State.pumpN n (s.runReq r [])

/-- Let every request that can go on do so. -/
def State.pump (s : State) : State := s.pumpN (4 * s.rt.reqs.length + 4)

/-! ### Same-line ordering (R60, R88) -/

/-- A write that enables no byte (R59). -/
def Req.empty (r : Req) : Bool := match r.kind with | .part _ be => be == 0 | _ => false

/-- A write whose data the line cache or the slot has not yet taken: a hazard entry (R88). A write that enables no byte leaves none. -/
def Req.hazard (r : Req) : Bool :=
  (r.kind != .read) && !r.empty && (match r.stage with | .mirror _ => false | .forward => false | .failover => false | _ => true)

/-- A read of a line that later requests may join: under way below the line cache, with no later write placed (R60, R88). -/
def Req.joinable (r : Req) : Bool := r.kind == .read && r.stage.below && !r.closed && !r.zero

/-- Where a new request to a line stands behind the earlier ones, and the data, poison and class that it takes at once from the hazard
entry of the latest write: the hit class from a full line, the class of its old line's place from a merged partial write (R60, R88). -/
def State.order (s : State) (line : Nat) (k : ReqKind) : Stage × Option (Line × Bool × Nat) :=
  let same := s.rt.reqs.filter (fun r => r.line == line)
  let none? : Bool := match k with | .part _ be => be == 0 | _ => false
  match same.reverse.find? Req.hazard with
  | some w =>
    match k, w.kind with
    | .read, .write d => (.ready, some (d, w.poison, if w.merged then w.cls - 8 else 0))
    | .read, .part _ _ => (.joined w.id, none)
    | _, _ => (.after w.id, none)
  | none =>
    match same.reverse.find? Req.joinable with
    | some m => match k with
      | .write _ | .inject => (.ready, none)
      | _ => (if none? then .after m.id else .joined m.id, none)
    | none => (.ready, none)

/-- Add a request to the router and run it as far as it goes. `pz` marks a mirror write that carries poison (R337). -/
def State.admitP (s : State) (src : ReqFrom) (line : Nat) (k : ReqKind) (region : Option Nat) (excs : List Nat)
    (ups : List Upset) (pz : Bool) : State :=
  let o := s.order line k
  let id := s.rt.nextId
  let r : Req := { Req.new id src line k o.1 region s.tick.toNat (match k with | .read => 0 | _ => 3) with
    excs := excs, merged := pz, poison := pz }
  let s := { s with rt.reqs := s.rt.reqs ++ [r], rt.nextId := id + 1 }.pcEvent 31 2 1
  let s := match src with
    | .host _ _ | .twin _ | .mirror _ => s.leased 31
    | _ => s
  match o.2 with
  | some dp => (s.supplyOne r dp.1 dp.2.1 dp.2.2).pump
  | none => (s.runReq r ups).pump

/-- Add a request without poison. -/
def State.enqueue (s : State) (src : ReqFrom) (line : Nat) (k : ReqKind) (region : Option Nat) (excs : List Nat)
    (ups : List Upset) : State := s.admitP src line k region excs ups false

/-! ### Lines as background work of the cipher engine and the twin reads them (R102, R320, R360) -/

/-- A line as its media copy gives it: decoded and checked, else reconstructed from its stripe (R102, R104). -/
def State.mediaNow (s : State) (line : Nat) (l : Loc) : Line × Bool :=
  let pos := 64 * l.tip + line % 64
  let check := fun (w : StoredLine) => s.checkLine (groupOf l.die) line (s.pageSeq l) pos 0 w
  let first := if s.dieLost l.die then Decoded.bad else check (sget 0 (s.mpage l.die l.block l.page).lines pos)
  let got := match first with
    | .ok d n => Decoded.ok d n
    | no => if s.obpFor l then (match s.reconstruct (packPage l.die l.block l.page) pos with | some w => check w | none => no) else no
  match got with
  | .ok d _ => (d, false)
  | _ => (0, true)

/-- The die whose media copy a line is read from: none where the line cache, an eviction buffer, the slot or its tile's entry answers. -/
def State.lineDie (s : State) (line : Nat) : Option Nat :=
  let e := s.entry (tileOf line)
  if (s.lcOn && (s.lcFind line).isSome) || (s.bufFind line).isSome || s.te.bad.contains (tileOf line) || s.poisoned line ||
      (e.st == 2 && (s.slot e.slot).lineSt (line % 64) != 0) || e.st == 0 || e.st == 3 then none
  else e.loc.map (fun l => l.die)

/-- What a line holds now, and whether it reads as poison: the newest copy, wherever it lies (R102, R320, R360). -/
def State.lineNow (s : State) (line : Nat) : Line × Bool :=
  let e := s.entry (tileOf line)
  let cached := if s.lcOn then s.lcFind line else none
  match cached with
  | some w => let x := s.way (lcSet line) w; (x.data, x.p || e.ptile)
  | none => match s.bufFind line with
    | some b => (b.data, s.poisoned line)
    | none =>
      if s.te.bad.contains (tileOf line) then (0, true)
      else if e.st = 2 ∧ (s.slot e.slot).lineSt (line % 64) ≠ 0 then (s.slotLine e.slot (line % 64), s.poisoned line)
      else if s.poisoned line then (0, true)
      else if e.st = 0 ∨ e.st = 3 then (0, false)
      else match e.loc with
        | none => (0, false)
        | some l => s.mediaNow line l

/-- Background reads of lines can run now: each die that is read has a slot free, and idles or is suspended (R96, R98). -/
def State.linesCan (s : State) (first count : Nat) : Bool :=
  (List.range count).all (fun k => (s.lineDie (first + k)).all (fun d => s.dieLost d || s.bgCan d))

/-- Lines that the engine has read at a die are background lines delivered (Table 8.14). -/
def State.sirLines (s : State) (d n : Nat) : State := (s.addCnt (R.MC_RD_B_CNT (chanOf d)) n).pcEvent (32 + chanOf d) 3 n

/-- The lines of a range that media gave are counted where they were read. -/
def State.linesRead (s : State) (first count : Nat) : State :=
  ((List.range count).filterMap (fun k => s.lineDie (first + k))).foldl (fun s d => s.sirLines d 1) s

end Sys2Proof.Machine
end

