-- ==== Sys2Proof/Machine/UpkeepOps.lean ====
section
/-! DEFINITION. Garbage collection, spares, substitution of dies and the failure of a die as operations over the state
(07_media_upkeep.md R217–R228, 06_translation_layer.md R181, 08_media_channels.md R256). -/

set_option autoImplicit false

namespace Sys2Proof.Machine

/-- In-service blocks of a die, reserved blocks among them. -/
def State.blocksLive (s : State) (d : Nat) : Nat := 2048 - (s.blocksIn d 8).length

/-- Valid tiles homed on a die (R227). -/
def State.homed (s : State) (d : Nat) : Nat :=
  (s.te.map.filter (fun (x : Nat × TEntry) => (x.2.st == 1 || x.2.st == 2) && s.homeDie x.1 == d)).length

/-- Spare blocks s_d of R227. -/
def State.spareOf (s : State) (d : Nat) : Nat :=
  s.blocksLive d - (s.blocksIn d 9).length - 6 - (s.homed d + 8191) / 8192

/-- Dies in service: recorded at formatting and not retired. -/
def State.diesLive (s : State) : List Nat := s.te.fmt.filter (fun d => !(s.die d).retired)

/-- Spare percentage of a die in 0.01 %. -/
def sparePct (n : Nat) : Nat := 10000 * n / 2048

/-- The lowest of a list, or a default. -/
def lowest (d : Nat) (l : List Nat) : Nat := l.foldl min d

/-- Erase counts of a die's in-service blocks that meet a test. -/
def State.eraseCounts (s : State) (d : Nat) (p : Nat → Bool) : List Nat :=
  ((List.range 2048).filter (fun b => p (s.blk d b).st)).map (fun b => (s.blk d b).erases)

/-- Spread of a die's erase counts, reserved and retired blocks left out (R223). -/
def State.spread (s : State) (d : Nat) : Nat :=
  let l := s.eraseCounts d (fun st => st != 8 && st != 9)
  l.foldl max 0 - lowest 65535 l

/-- Life Used of R230. -/
def State.lifeUsed (s : State) : Nat :=
  if s.bit F.TE_UPK_STS.CRITICAL then 100
  else
    let mean := fun d =>
      let l := s.eraseCounts d (fun st => st != 8)
      l.foldl (· + ·) 0 / max 1 l.length
    min 100 (100 * (s.diesLive.map mean).foldl max 0 / 60000)

/-- A spare threshold is crossed or cleared (R228). -/
def State.spareFlag (s : State) (f : Fld) (pct thr code : Nat) : State :=
  if pct ≤ thr then
    if s.bit f then s else ((s.setBit f true).roll 0x0504 0 8 code pct 0).moduleEvent [8, code]
  else if thr + 25 ≤ pct then
    if s.bit f then (s.setBit f false).roll 0x0504 0 8 (code + 2) pct 0 else s
  else s

/-- Urgent collection starts and stops on a die (R219, R233). -/
def State.urgentFlags (s : State) : State :=
  let s := s.diesLive.foldl (fun s d =>
    let n := (s.blocksIn d 0).length
    let u := decide (n < s.num R.TE_GC_URGENT % 256)
    if u == (s.die d).urgent then s
    else (s.dieMod d (fun x => { x with urgent := u })).when (s.bit F.TE_UPK_CTL.EVT_EN) (fun s => s.roll 0x0506 0 8 d u.toNat 0)) s
  s.setBit F.TE_UPK_STS.URGENT (s.te.dies.any (fun x => x.2.urgent))

/-- Recompute the spares, their flags and Life Used (R227, R228, R230). CRITICAL enters read-only (R74). -/
def State.spares (s : State) : State :=
  if s.te.fmt.isEmpty then s
  else
    let dies := s.diesLive
    let per := dies.map s.spareOf
    let total := per.foldl (· + ·) 0
    let tp := 10000 * total / (2048 * max 1 dies.length)
    let mp := sparePct (lowest 2048 per)
    let pct := min tp mp
    let s := (s.wrN R.TE_SPARE_TOTAL total).wrN R.TE_SPARE_PCT (tp % 65536 + mp % 65536 * 65536)
    let s := s.spareFlag F.TE_UPK_STS.LOW_SPARE pct (s.num R.TE_SPARE_LOW % 1024) 0
    let was := s.bit F.TE_UPK_STS.CRITICAL
    let s := s.spareFlag F.TE_UPK_STS.CRITICAL pct (s.num R.TE_SPARE_CRIT % 1024) 1
    let s := if s.bit F.TE_UPK_STS.CRITICAL && !was then (s.raise 8 2 Kind.LIMIT).enterReadOnly else s
    (s.wrN R.TE_LIFE_USED s.lifeUsed).urgentFlags

/-- Name a substitute for a retired die (R181): the in-service die on another channel with the most spare blocks, lower
numbers first; a substitute that is retired passes both roles on. -/
def State.substitute (s : State) (d : Nat) : State :=
  let cand := (s.diesLive).filter (fun x => chanOf x != chanOf d && x != d)
  match argMax s.spareOf cand with
  | none => s
  | some x =>
    let roles := d :: (s.te.subst.filter (fun y => y.2 == d)).map (·.1)
    let s := { s with te.subst := s.te.subst.filter (fun (y : Nat × Nat) => y.2 != d && y.1 != d) ++ roles.map (fun r => (r, x)) }
    s.journal (roles.map (fun r => JEntry.subst r x))

/-- Retire a die and substitute it: the device is degraded, and its tiles are to be worked through (R181, R226). -/
def State.retireDie (s : State) (d : Nat) : State :=
  let s := (s.dieMod d (fun x => { x with retired := true, suspended := false, erase := none })).setBit F.TE_UPK_STS.DIE_RETIRED true
  let s := s.substitute d
  let tiles := s.te.map.filterMap (fun (x : Nat × TEntry) =>
    if (x.2.st = 1 ∨ x.2.st = 2) ∧ x.2.loc.any (fun l => l.die == d) then some x.1 else none)
  { s with te.dieWork := s.te.dieWork ++ [(d, tiles, 0)] }

/-- Every read of a die that can no longer be read ends, and its held misses with them: recovered from the stripe or the partner where
one can, else lost (R73, R90, R132, R226). -/
def State.loseReads (s : State) (d : Nat) : State :=
  let s := (s.te.reads.filter (fun m => m.loc.die == d)).foldl State.readLost s
  ((s.rt.reqs.filter (fun r => r.stage == .held d)).foldl (fun s (r : Req) =>
    match (s.entry (tileOf r.line)).loc with
    | some l => s.dispatch r l
    | none => s.supply r 0 false 0) s).heldShow

/-- A die is declared failed (R256): never selected again, recorded, faulted, retired and substituted. -/
def State.dieFail (s : State) (d : Nat) : State :=
  if (s.die d).failed then s
  else
    let s := s.dieMod d (fun x => { x with failed := true })
    let s := s.setBit ⟨R.MC_STS (chanOf d), 16 + d % 8, 1⟩ true
    let s := (s.roll 0x0601 0 (32 + chanOf d) 0 d 0).raise (32 + chanOf d) 2 Kind.EXT
    let busy := s.te.progs.filter (fun p => p.die == d && p.stage == .busy)
    let s := s.retireDie d
    let s := busy.foldl State.progFail s
    (s.loseReads d).pump

/-- Retired blocks of a die beyond MG_DIE_RET_LIM declare it failed (R256). -/
def State.retLimit (s : State) (d : Nat) : State :=
  if s.num (R.MG_DIE_RET_LIM (groupOf d)) % 2048 < (s.blocksIn d 8).length ∧ 0 < s.num (R.MG_DIE_RET_LIM (groupOf d)) % 2048 then
    s.dieFail d
  else s

/-- A copy program is under way on a die for a kind of copy. -/
def State.copying (s : State) (d : Nat) : Bool :=
  s.te.progs.any (fun p => p.die == d && (match p.kind with | .copy _ => true | _ => false))

/-- The tiles that a copy has still to take: those to be copied again, then the valid media-state tiles of its source (R220, R222).
Each comes with the place read and the place that its entry must still have. -/
def State.copyLeft (s : State) (g : GcJob) : List (Nat × Loc × Loc) :=
  let ok := fun (x : Nat × Loc × Loc) => (s.entry x.1).st == 1 && (s.entry x.1).loc == some x.2.2
  let again := g.again.filter ok
  let rest := if g.only then [] else (s.validTiles g.die g.src).map (fun (x : Nat × Loc) => (x.1, x.2, x.2))
  again ++ rest.filter ok

/-- The tiles of the next page of a copy; one with a program in flight waits for it (R174). -/
def State.copyTiles (s : State) (g : GcJob) : List (Nat × Loc × Loc) :=
  ((s.copyLeft g).filter (fun (x : Nat × Loc × Loc) => !s.tileFlying x.1)).take 4

/-- VSEQ of the tile at a place (R185). -/
def State.vseqAt (s : State) (l : Loc) : Nat :=
  match (s.mpage l.die l.block l.page).tiles[l.tip]? with
  | some (some t) => t.vseq
  | _ => 0

/-- Form the next page of a copy (R220): its 64 lines a tile are read in background slots and recovered like any others, then numbered
and encrypted. A copy without a tile left ends. -/
def State.copyStep (s : State) (g : GcJob) : State :=
  let ts := s.copyTiles g
  if (s.copyLeft g).isEmpty then
    { s with te.gc := s.te.gc.erase g }.blkSettle g.die g.src
  else if ts.isEmpty || s.bufFree.isNone then s
  else
    let tiles := ts.map (fun (x : Nat × Loc × Loc) =>
      some (⟨x.1, 0, 0, BitVec.allOnes 64, [], false, s.vseqAt x.2.1, some x.2.2⟩ : PTile))
    let need := (List.range (64 * ts.length)).map (fun k => (k / 64, k % 64))
    let g' := { g with again := g.again.filter (fun x => !(ts.any (fun (y : Nat × Loc × Loc) => y.1 == x.1))) }
    { s with te.gc := g' :: s.te.gc.erase g }.progStart (.copy g.wear) (s.homeDie (ts.headD (0, ⟨0, 0, 0, 0⟩, ⟨0, 0, 0, 0⟩)).1)
      tiles need false (fun k => (ts[k]?).map (fun (x : Nat × Loc × Loc) => x.2.1))

end Sys2Proof.Machine
end

