-- ==== Sys2Proof/Machine/DieOps.lean ====
section
/-! DEFINITION. A media die's side of the channel protocol as operations over the state (08_media_channels.md R239–R250):
acceptance of a command, the die's states, its slots, its page image and its status word. -/

set_option autoImplicit false

namespace Sys2Proof.Machine

/-- One bit of the CRC-8 of R239. -/
def crc8Bit (c : Nat) : Nat := if c ≥ 0x80 then (c * 2 % 256) ^^^ 0x07 else c * 2

/-- CRC-8 of R239: polynomial x^8 + x^2 + x + 1, initial value 0xFF, no reflection, no final XOR. -/
def crc8 (bytes : List Nat) : Nat :=
  bytes.foldl (fun c b => (List.range 8).foldl (fun c _ => crc8Bit c) (c ^^^ b % 256)) 0xFF

/-- The low `n` bytes of an argument, the least significant first. -/
def argBytes (n v : Nat) : List Nat := (List.range n).map (fun k => v / 2 ^ (8 * k) % 256)

/-- A media die. -/
def State.mdie (s : State) (d : Nat) : MDie := sget (MDie.inReset true) s.md d

/-- Store a media die. -/
def State.setMdie (s : State) (d : Nat) (m : MDie) : State := { s with md := sset (MDie.inReset true) s.md d m }

/-- States of Table 8.4. -/
def Ds.reset : Nat := 0
def Ds.caTrain : Nat := 1
def Ds.idle : Nat := 2
def Ds.loading : Nat := 3
def Ds.progBusy : Nat := 4
def Ds.eraseBusy : Nat := 5
def Ds.suspending : Nat := 6
def Ds.suspended : Nat := 7
def Ds.resuming : Nat := 8
def Ds.training : Nat := 9

/-- All states but RESET and TRAINING; all states but RESET; all states (Table 8.3). -/
def Ds.awake : List Nat := [1, 2, 3, 4, 5, 6, 7, 8]
def Ds.notReset : List Nat := [1, 2, 3, 4, 5, 6, 7, 8, 9]
def Ds.any : List Nat := [0, 1, 2, 3, 4, 5, 6, 7, 8, 9]

/-- A command reaches a die (R239, R240): a failed CRC, a state that does not accept it and an address beyond the geometry set
their sticky bits and change nothing else; the CE_N of a failed die is never asserted (R256). -/
def State.dieCmd (s : State) (d op : Nat) (args : List Nat) (crc : BitVec 8) (ok : List Nat) (addr : Bool)
    (f : MDie → State → State) : State :=
  let m := s.mdie d
  if (s.die d).failed then s
  else if crc8 (op :: args) ≠ crc.toNat then s.setMdie d { m with caErr := true }
  else if !ok.contains m.st then s.setMdie d { m with stateErr := true }
  else if !addr then s.setMdie d { m with addrErr := true }
  else f m s

/-- A refused command of a die in a state that accepts its opcode. -/
def State.dieStateErr (s : State) (d : Nat) (m : MDie) : State := s.setMdie d { m with stateErr := true }

/-- Every occupied slot is sensed. -/
def MDie.allSensed (m : MDie) : Bool := m.host.all (fun r => r.sensed.isSome) && m.bg.all (fun r => r.sensed.isSome)

/-- The transitions that wait for every occupied slot to be sensed (Table 8.5). -/
def MDie.settle (m : MDie) : MDie :=
  if m.allSensed then
    if m.waiting then { m with waiting := false, st := if m.kind then Ds.eraseBusy else Ds.progBusy }
    else if m.st = Ds.resuming then { m with st := if m.kind then Ds.eraseBusy else Ds.progBusy }
    else m
  else m

/-- A slot is occupied. -/
def MDie.occupied (m : MDie) (slot : Nat) : Bool := m.host.any (fun r => r.slot == slot) || m.bg.any (fun r => r.slot == slot)

/-- The status word (Table 8.6). -/
def MDie.status (m : MDie) : Nat :=
  m.st % 16 + m.pf.toNat * 16 + m.d.toNat * 32 + (if m.st = Ds.suspended ∨ m.st = Ds.resuming then 64 else 0) + m.kind.toNat * 128 +
    m.host.length % 16 * 256 + m.bg.length % 8 * 4096 + m.caErr.toNat * 2 ^ 15 + m.stateErr.toNat * 2 ^ 16 + m.addrErr.toNat * 2 ^ 17 +
    m.sendErr.toNat * 2 ^ 18 + 5 * 2 ^ 28

/-- Page image of 22,616 bytes as one number (R244). -/
def MDie.image (m : MDie) : Nat :=
  m.bursts.foldl (fun n (e : Nat × BitVec 2048) => n + (if e.1 = 88 then e.2.toNat % 2 ^ 704 else e.2.toNat) * 2 ^ (2048 * e.1)) 0

/-- Bytes of the image. -/
def MDie.imageBytes (m : MDie) : List Nat :=
  (List.range 89).flatMap (fun b => argBytes (if b = 88 then 88 else 256) (sget 0 m.bursts b).toNat)

/-- Values without meaning take the place of a page's stored lines, its header's among them (R246, R247). -/
def State.scramble (s : State) (d b p : Nat) : State :=
  let pg := s.mpage d b p
  let r := pg.lines.foldl (fun (acc : Sparse StoredLine × State) (e : Nat × StoredLine) =>
    (sset 0 acc.1 e.1 (BitVec.ofNat 704 (acc.2.free 704)), acc.2.drawn)) ([], s)
  { r.2 with te.media := sset MPage.erased r.2.te.media (pageKey d b p) ⟨r.1⟩ }

/-- A page that an interrupted program may leave unreadable (R247). -/
def State.mayScramble (s : State) (d b p : Nat) : State := if s.free 1 = 1 then s.drawn.scramble d b p else s.drawn

/-- An operation of a die is cut short by RST_N, RESET or the loss of VMIO (R247). DESIGN CHOICE: RESUMING, which R247 does not list, counts
as SUSPENDED does (notes/assumptions/59). -/
def State.dieCut (s : State) (d : Nat) : State :=
  let m := s.mdie d
  if m.st = Ds.eraseBusy ∨ (m.kind ∧ Ds.suspending ≤ m.st ∧ m.st ≤ Ds.resuming) then
    (List.range 2048).foldl (fun s p => s.scramble d m.block p) s
  else if m.st = Ds.progBusy ∨ (Ds.suspending ≤ m.st ∧ m.st ≤ Ds.resuming) then
    (List.range 4).foldl (fun s k => if k ≤ m.page then s.mayScramble d m.block (m.page - k) else s) s
  else s

/-- A die enters RESET (R245, R250): offsets and features at their reset values. -/
def State.dieReset (s : State) (d : Nat) (hard : Bool) : State := (s.dieCut d).setMdie d (MDie.inReset hard)

/-- Deliver the oldest line of a queue, or set SEND_ERR (R243). -/
def State.dieSend (s : State) (d : Nat) (m : MDie) (host : Bool) : State :=
  match (if host then m.host else m.bg) with
  | [] => s.setMdie d { m with sendErr := true }
  | r :: rest => match r.sensed with
    | none => s.setMdie d { m with sendErr := true }
    | some w => (s.setMdie d (if host then { m with host := rest } else { m with bg := rest })).emit (.dq d [w.toNat])

/-- Dies of a broadcast: the channel's positions whose CE_N is low. -/
def ceDies (ch : Nat) (ce : BitVec 8) : List Nat := ((List.range 8).filter (fun k => ce.getLsbD k)).map (fun k => 8 * ch + k)

end Sys2Proof.Machine
end

