-- ==== Sys2Proof/Machine/Channel.lean ====
section
/-! DEFINITION. The controller's side of the media channels (08_media_channels.md R238, R242, R252–R261). -/

set_option autoImplicit false

namespace Sys2Proof.Machine

/-- MG_STS of a channel's group follows its channels (Table 8.13). -/
def State.mgShow (s : State) (ch : Nat) : State :=
  let g := ch / 8
  let bits := fun (f : Nat → Fld) => (List.range 8).foldl (fun n i => if s.bit (f (8 * g + i)) then n + 2 ^ i else n) 0
  let busy := (List.range 8).any (fun i => s.bit (F.MC_STS.TRAIN_BUSY (8 * g + i)))
  ((s.set ⟨R.MG_STS g, 0, 8⟩ (bits F.MC_STS.TRAINED)).set ⟨R.MG_STS g, 8, 8⟩ (bits F.MC_STS.FAILED)).setBit (F.MG_STS.TRAIN_BUSY g) busy

/-- Start the training of a channel: RST_N goes low (Table 8.10). -/
def State.trainStart (s : State) (ch : Nat) : State :=
  let s := (List.range 8).foldl (fun s k => s.dieReset (8 * ch + k) true) s
  let s := (s.emit (.pin (.mcRstN ch) (some false))).emit (.media ch Cmd.reset [])
  ((s.setBit (F.MC_STS.TRAIN_BUSY ch) true).setBit (F.MC_STS.TRAINED ch) false).mgShow ch

/-- A die found failed by training (R252): marked, and taken out of service once the map is ready (R226). -/
def State.trainDieFail (s : State) (d : Nat) : State :=
  if (s.die d).failed then s
  else
    let s := (s.dieMod d (fun x => { x with failed := true })).setBit ⟨R.MC_STS (chanOf d), 16 + d % 8, 1⟩ true
    if s.bit F.TE_STS.MAP_READY && s.te.fmt.contains d && !(s.die d).retired then (s.retireDie d).loseReads d else s

/-- A die has been trained: IDLE, with DRIVE and ODT from MG_IO_CFG (steps 3 to 6 of Table 8.10). -/
def State.trainDie (s : State) (d : Nat) (t : BitVec 6 × BitVec 5 × BitVec 6) : State :=
  let io := s.num (R.MG_IO_CFG (groupOf d))
  (s.setMdie d { MDie.inReset false with st := Ds.idle, drive := io / 16 % 4, odt := io / 64 % 4, aligned := true }).dieMod d
    (fun x => { x with phase := t.1.toNat, refCode := t.2.1.toNat, delay := t.2.2.toNat })

/-- A channel's training runs to its end (R252): a failed step resets the channel and trains it once more; a second failure
fails the channel and its dies. -/
def execChannelTraining (ch : Fin 40) (r : ChanTrain) (s : State) : Out :=
  let c := ch.val
  let src := 32 + c
  if !s.bit (F.MC_STS.TRAIN_BUSY c) then .next s
  else match r.fail with
    | some k =>
      let s := s.when (s.bit (F.MC_CTL.EVT_EN c)) (fun s => s.roll 0x0604 0 src 0 c k.val)
      if s.mcTry.contains c then
        let s := { s with mcTry := setDel c s.mcTry }
        let s := ((s.setBit (F.MC_STS.FAILED c) true).setBit (F.MC_STS.TRAIN_BUSY c) false).setBit (F.MC_CTL.RETRAIN c) false
        let n := s.num (R.MC_DIES c) % 16
        let s := (List.range n).foldl (fun s k => s.trainDieFail (8 * c + k)) s
        .next (((s.raise src 2 Kind.LINK).mgShow c).pump)
      else .next ({ s with mcTry := setIns c s.mcTry }.trainStart c)
    | none =>
      let n := s.num (R.MC_DIES c) % 16
      let s := { s with mcTry := setDel c s.mcTry }
      let s := s.set (F.MC_STS.PRESENT c) r.present.toNat
      let s := (List.range n).foldl (fun s k =>
        let d := 8 * c + k
        if r.present.getLsbD k && r.geom.getLsbD k then s.trainDie d (r.trn.getD k (0, 0, 0)) else s.trainDieFail d) s
      let s := ((s.setBit (F.MC_STS.TRAINED c) true).setBit (F.MC_STS.TRAIN_BUSY c) false).setBit (F.MC_CTL.RETRAIN c) false
      .next ((s.emit (.pin (.mcRstN c) (some true))).mgShow c).pump

/-- A die's ready-round slot reports (R242, R243): the controller sends for as many host lines as HC counts, for a background
line, and for the status of an ended operation. A failed die's slots are ignored (R256). -/
def execReadyRoundReport (die : Fin 320) (hc : Fin 4) (b d : Bool) (s : State) : Out :=
  let c := chanOf die
  if (s.die die).failed then .next s
  else
    let reads := s.te.reads.filter (fun m => m.loc.die == die.val && m.issued)
    let host := (reads.filter (fun m => m.purpose.host?)).length
    let s := (List.range (min hc.val host)).foldl (fun s _ => s.emit (.media c Cmd.sendH [die])) s
    let s := s.when (b && decide (host < reads.length)) (fun s => s.emit (.media c Cmd.sendB [die]))
    .next (s.when d (fun s => s.emit (.media c Cmd.status [die])))

/-- Steps 4 and 5 of Table 8.12: RESET, the running operation's end, retraining, and every outstanding READ_LINE again. -/
def State.dieRecover (s : State) (d : Nat) : State :=
  let c := chanOf d
  let s := (s.emit (.media c Cmd.reset [d])).dieMod d (fun x => { x with step := 5 })
  let s := s.suspClear d
  let s := (s.te.progs.filter (fun p => p.die == d && p.stage == .busy)).foldl State.progFail s
  let s := match (s.die d).erase with
    | some b =>
      if (s.die d).eraseAgain then (s.eraseFail d b).dieMod d (fun x => { x with eraseAgain := false })
      else (s.dieMod d (fun x => { x with eraseAgain := true })).emit (.media c Cmd.erase [d, b])
    | none => s
  let s := s.when (s.bit (F.MC_CTL.EVT_EN c)) (fun s => s.roll 0x0604 0 (32 + c) 1 c (d % 8))
  let s := s.emit (.media c Cmd.train [d])
  (s.te.reads.filter (fun m => m.loc.die == d && m.issued)).foldl State.readCmd s |>.bgIssue d

/-- The report of a line has not arrived MG_RD_TO after its READ_LINE (R255, R256): `mark` and `occupied` tell what the STATUS
of step 1 returned. -/
def execReadTimeout (id : Nat) (mark occupied : Bool) (s : State) : Out :=
  match s.te.reads.find? (fun m => m.id == id && m.issued) with
  | none => .next s
  | some m =>
    let d := m.loc.die
    let c := chanOf d
    let evt := fun (s : State) (step : Nat) => s.when (s.bit (F.MG_CTL.EVT_EN (c / 8))) (fun s => s.roll 0x0600 0 (32 + c) d step 0)
    if (s.die d).failed then .next s
    else match (s.die d).step with
      | 0 =>
        let now := s.tick.toNat
        let s := (s.bump (R.MC_RD_TO_CNT c)).emit (.media c Cmd.status [d])
        let l := ((s.die d).recoveries.filter (fun t => decide (now < t + 100000000))) ++ [now]
        let s := s.dieMod d (fun x => { x with recoveries := l })
        if l.length ≥ 3 then .next ((evt s 6).dieFail d)
        else if !mark then .next ((evt s 4).dieRecover d).pump
        else if occupied then .next ((evt s 2).dieMod d (fun x => { x with step := 2 }))
        else .next (((evt s 3).dieMod d (fun x => { x with step := 3 })).readCmd m)
      | 2 => .next (s.dieRecover d).pump
      | 3 => .next (s.dieRecover d).pump
      | _ => .next (s.dieFail d)

/-- MG_TRACK_INT passes: the read phase of a die is checked and moves by at most one step (R253). -/
def execTrackInterval (die : Fin 320) (up down : Bool) (s : State) : Out :=
  let d := die.val
  if s.bit (F.MG_CTL.TRACK_EN (groupOf d)) && s.bit (F.MC_STS.TRAINED (chanOf d)) && !(s.die d).failed &&
      s.te.reads.all (fun m => m.loc.die != d) then
    .next ((s.emit (.media (chanOf d) Cmd.train [d, 3])).dieMod d (fun x =>
      { x with phase := if up && !down then min 63 (x.phase + 1) else if down && !up then x.phase - 1 else x.phase }))
  else .next s

/-- An operation's total suspension reaches MG_SUSP_WARN: one record (R246, R257). -/
def execSuspendWarn (die : Fin 320) (s : State) : Out :=
  let d := die.val
  if (s.die d).suspended && !(s.die d).suspRec then
    .next ((s.dieMod d (fun x => { x with suspRec := true })).roll 0x0601 0 (32 + chanOf d) 1 d
      (s.num (R.MG_SUSP_WARN (groupOf d)) % 1024))
  else .next s

/-- MC_CTL.RETRAIN: accepted only while EN is 0 (R259); a channel with no die is never driven (R238), and a fenced one does not return
(Table 17.6). -/
def execMcRetrain (ch : Fin 40) (path : Path) (s : State) : Out :=
  let s := s.regAcc (32 + ch)
  let c := ch.val
  if s.isManager path && !s.bit (F.MC_CTL.EN c) && s.num (R.MC_DIES c) % 16 != 0 && !s.fencedSrc (32 + c) then
    .next ({ s.setBit (F.MC_CTL.RETRAIN c) true with mcTry := setDel c s.mcTry }.trainStart c)
  else .next s

/-- MC_PAT_CTL with START (R254, R261): both ends start; the die's side runs through feature 0x04. -/
def execMcPatStart (ch : Fin 40) (path : Path) (v : Word) (s : State) : Out :=
  let s := s.regAcc (32 + ch)
  let c := ch.val
  if s.isManager path && !s.bit (F.MC_CTL.EN c) then
    let n := v.toNat
    let s := s.wrN (R.MC_PAT_CTL c) (n % 128 + 128)
    let s := (s.zero [R.MC_PAT_ERR c, R.MC_PAT_LANES c]).setBit (F.MC_STS.PAT_SYNC c) false
    let d := 8 * c + n / 16 % 8
    let m := s.mdie d
    let gen := n / 8 % 2
    .next ((s.setMdie d { m with patCtl := n % 8 + 8 * gen + 16, patErr := if gen = 0 then 0 else m.patErr }).emit
      (.media c Cmd.featureSet [d, 4, n % 8 + 8 * gen + 16]))
  else .next s

/-- MC_PAT_CTL with STOP (R254, R261): both ends stop; with DIR = 0 the die's PAT_ERR is read into MC_PAT_ERR. `errs` and
`lanes` are what the active checker has counted. -/
def execMcPatStop (ch : Fin 40) (path : Path) (errs : Word) (lanes : BitVec 16) (s : State) : Out :=
  let s := s.regAcc (32 + ch)
  let c := ch.val
  if s.isManager path && !s.bit (F.MC_CTL.EN c) && s.bit (F.MC_PAT_CTL.START c) then
    let d := 8 * c + s.get (F.MC_PAT_CTL.DIE c)
    let m := s.mdie d
    let toDie := !s.bit (F.MC_PAT_CTL.DIR c)
    let s := s.setMdie d { m with patCtl := m.patCtl % 16, patErr := if toDie then errs.toNat else m.patErr }
    let s := (s.wr (R.MC_PAT_ERR c) errs).wrN (R.MC_PAT_LANES c) (if toDie then s.num (R.MC_PAT_LANES c) else lanes.toNat)
    .next (((s.setBit (F.MC_PAT_CTL.START c) false).setBit (F.MC_STS.PAT_SYNC c) false).emit (.media c Cmd.featureSet [d, 4, m.patCtl % 16]))
  else .next s

/-- A write of MC_CNT_CLR (Table 8.14). -/
def execMcCntClr (ch : Fin 40) (path : Path) (v : Word) (s : State) : Out :=
  let s := s.regAcc (32 + ch)
  let c := ch.val
  .next (s.when (s.isManager path) (fun s =>
    (s.when (v.getLsbD 0) (fun s => s.zero (regRange (R.MC_RD_H_CNT c) 6))).when (v.getLsbD 1)
      (fun s => s.zero [R.MC_RD_TO_CNT c, R.MC_ERR_CNT c])))

end Sys2Proof.Machine
end

