-- ==== Sys2Proof/Machine/Memory.lean ====
section
/-! DEFINITION. The commands of the read path, the write path and the tile stage (03_read_path.md,
04_write_path_and_dirty_budget.md, GPF of 02_memory_model.md). -/

set_option autoImplicit false

namespace Sys2Proof.Machine

/-- A request of the block's own making for a response that no other stage touches (R73). -/
def State.quickReq (s : State) (src : ReqFrom) (line : Nat) (k : ReqKind) (cls : Nat) : Req :=
  Req.new s.rt.nextId src line k .ready none s.tick.toNat cls

/-- Fault source of the block that owns a data-path queue (Table 17.1). -/
def queueSource : DataQueue → Nat
  | .router => 31
  | .port n => 12 + n
  | .lineCache => 7
  | .dram ch => 20 + ch
  | .media c => 32 + c
  | .codec g => 110 + g
  | .cipher => 6
  | .caravan => 11

/-- A request has an entry in a queue: in the router's while it is looked up or held, in a DRAM channel's while it reads there, in a media
channel's while its line is read, in Caravan's while it is forwarded. The other queues hold no request between two commands. -/
def queueHolds (q : DataQueue) (r : Req) : Bool :=
  match q, r.stage with
  | .router, .mapRead => true
  | .router, .second => true
  | .router, .held _ => true
  | .dram _, .mapRead => true
  | .dram _, .second => true
  | .media c, .media d => chanOf d == c.val
  | .caravan, .forward => true
  | _, _ => false

/-- The FWD_RD or FWD_WR of a forwarded request goes out (R336, Table 11.4). -/
def State.sendForward (s : State) (r : Req) : State :=
  let port := match r.src with | .host p _ => p.val | _ => 0
  match r.kind with
  | .read => s.carSend 0 (.caravan ⟨0x10, r.id, [r.line, port]⟩)
  | .write d => s.carSend 0 (.caravan ⟨0x11, r.id, [r.line, port, 2 ^ 64 - 1, d.toNat]⟩)
  | .part d be => s.carSend 0 (.caravan ⟨0x11, r.id, [r.line, port, be.toNat, d.toNat]⟩)
  | .inject => s

/-- A request whose queue entry was lost is re-issued once; the second time it ends: a read with poison, a write not performed, its line
listed (R511, R528). -/
def State.reissue (s : State) (r : Req) : State :=
  if r.reissued then
    match r.kind with
    | .read => s.supply r 0 true r.cls
    | _ => ((if r.stage = .forward then s else s.poisonNow r.line).wakeAfter r.id).respond r 0 false true
  else
    let s := s.reqMod r.id (fun x => { x with reissued := true })
    match r.stage with
    | .forward => s.sendForward r
    | .media _ => match s.te.reads.find? (fun (m : MRead) => m.purpose == .host r.id) with
      | some m => { s with te.reads := s.te.reads.filter (fun (x : MRead) => x.id != m.id) }.issueRead m.purpose m.loc m.pos
      | none => s
    | _ => s.reqMod r.id (fun x => { x with stage := .ready })

/-- A media channel's queue is reset: its background reads start again (R528). -/
def State.rereadChan (s : State) (c : Nat) : State :=
  (s.te.reads.filter (fun (m : MRead) => chanOf m.loc.die == c && m.issued && !m.purpose.host?)).foldl (fun s (m : MRead) =>
    { s with te.reads := s.te.reads.filter (fun (x : MRead) => x.id != m.id) }.sendRead m) s

/-- A data-path queue's pointer copies disagree (R528): the queue is reset, the fault raised against its owner, and what had an entry in
it is issued again. -/
def State.queueReset (s : State) (q : DataQueue) : State :=
  let s := s.raise (queueSource q) 2 Kind.PTR
  let s := match q with | .media c => s.rereadChan c | _ => s
  (((s.rt.reqs.filter (queueHolds q)).foldl State.reissue s).heldShow).pump

/-- Queues whose pointer copies disagree as a request passes are reset before its own lookup. -/
def State.ptrUpset (s : State) (ups : List Upset) : State :=
  ups.foldl (fun s u => match u with | .pointer q => s.queueReset q | _ => s) s

/-- Send a request to the owner over Caravan (R335, R336). -/
def State.forward (s : State) (src : ReqFrom) (line : Nat) (k : ReqKind) (n : Nat) : State :=
  let r := Req.new s.rt.nextId src line k .forward (some n) s.tick.toNat 0
  { s with rt.reqs := s.rt.reqs ++ [r], rt.nextId := s.rt.nextId + 1 }.bump R.CAR_FWD_CNT |>.sendForward r

/-- Hold a request that needs the twin while the failover runs (R350). -/
def State.holdFailover (s : State) (src : ReqFrom) (line : Nat) (k : ReqKind) (n : Nat) : State :=
  let r := Req.new s.rt.nextId src line k .failover (some n) s.tick.toNat (if k = .read then 0 else 3)
  { s with rt.reqs := s.rt.reqs ++ [{ r with excs := [2] }], rt.nextId := s.rt.nextId + 1 }

/-- This controller owns region n effectively (R333). -/
def State.owns (s : State) (n : Nat) : Bool := !s.bit F.CAR_STS.PAIRED || (s.rd R.CAR_RG_STS).getLsbD n

/-- The region is in sync (R338). -/
def State.inSync (s : State) (n : Nat) : Bool := (s.rd R.CAR_RG_STS).getLsbD (16 + n)

/-- Rank of the state exception for a request accepted now, if any. -/
def State.stateExc (s : State) : List Nat := if s.bit F.CAR_STS.FAILOVER then [2] else []

/-- A region with a context in the RETIRED state: its lines read as poison (Table 10.1). -/
def State.sealedOff (s : State) (n : Nat) : Bool := s.retired && s.bit (F.RT_RG_CTL.CTX_EN n)

/-- The port's IDE requirement is met (R383). -/
def State.ideOk (s : State) (p : Nat) : Bool :=
  !s.bit (F.HP_CFG.IDE_REQ p) || (s.bit (F.HP_STS.IDE_IO p) && s.bit (F.HP_STS.IDE_MEM p))

/-- A CXL.mem read (R87): the state rules, the region, transfer windows, twin routing, same-line ordering, then the lookups.
Without a credit no request reaches the device. -/
def execMemReadRequest (port : Fin 8) (tag : BitVec 16) (line : BitVec 38) (ups : List Upset) (s : State) : Out :=
  if !s.hasCredit port false then .next s
  else
    let src : ReqFrom := .host port tag.toNat
    let ln := line.toNat
    let s := (((s.spend port false).bump (R.HP_RD_CNT port)).pcEvent (12 + port) 2 1).ptrUpset ups
    if s.booting || s.fenced then .next (s.respond { s.quickReq src ln .read 0 with excs := [1] } 0 true false)
    else
      match (if s.ideOk port then s.regionOf ln else none) with
      | none => .next ((s.bump R.RT_STRAY_CNT).respond (s.quickReq src ln .read 0) 0 true false)
      | some n =>
        if s.get (F.RT_RG_CTL.PORT n) ≠ port.val then
          .next ((s.bump R.RT_STRAY_CNT).respond (s.quickReq src ln .read 0) 0 true false)
        else if s.sealedOff n then .next (s.respond (s.quickReq src ln .read 0) 0 true false)
        else if s.bit (F.RT_RG_CTL.XFER n) then
          let w := s.windowRead n (ln - s.rgFirst n)
          .next (w.2.2.2.respond (w.2.2.2.quickReq src ln .read w.2.2.1) w.1 w.2.1 false)
        else if s.owns n then .next (s.enqueue src ln .read (some n) s.stateExc ups)
        else if s.bit F.CAR_STS.FAILOVER then .next (s.holdFailover src ln .read n)
        else if s.inSync n then .next (s.enqueue src ln .read (some n) [] ups)
        else .next (s.forward src ln .read n)

/-- A tile is handed to the translation engine for repair (R93, R175). -/
def State.handRepair (s : State) (t : Nat) : State :=
  { s with te.bad := setIns t s.te.bad }.setBit F.TE_STS.REPAIR_BUSY true

/-- The entry of a request's tile cannot be read (R93, R175): a read, and a partial write's read of its old line, meets poison; a write
that goes past the line cache waits for the repair. -/
def State.entryLost (s : State) (r : Req) : State :=
  let s := s.handRepair (tileOf r.line)
  match r.kind with
  | .write _ => s.reqMod r.id (fun x => { x with stage := .repair })
  | _ => s.supply r 0 true 1

/-- The slot word of a host read cannot be read (R93, R410, Table 13.5): a Dirty or Flight line comes from the partner or is listed, a
Clean one is dropped; the read completes with poison and the tile is handed over for repair. -/
def State.slotLost (s : State) (r : Req) : State :=
  let n := (s.entry (tileOf r.line)).slot
  if 2 ≤ (s.slot n).lineSt (r.line % 64) then
    if s.partnerCopy r.line && r.forTwin then (s.repReq r.line (.background r.line none false)).supply r 0 true 1
    else if s.partnerCopy r.line then (s.repReq r.line (.host r.id false)).reqMod r.id (fun x => { x with stage := .partner })
    else ((s.poisonLine r.line).lineEvents r.line 9).handRepair (tileOf r.line) |>.supply r 0 true 1
  else
    (s.slotMod n (fun x => { x with st := serase x.st (r.line % 64), data := serase x.data (r.line % 64) })).handRepair (tileOf r.line)
      |>.supply r 0 true 1

/-- A completed DRAM read of a request's map entry, poison table or slot (R92–R95, R114, R410). -/
def execDramReadComplete (id : Nat) (ch : Fin 6) (res : DramRes) (s : State) : Out :=
  match s.req id with
  | none => .next s
  | some r =>
    let t := tileOf r.line
    if r.stage = .mapRead then
      let s := s.dramRead ch res
      if res = .ue ∨ s.te.bad.contains t then .next (s.entryLost r).pump
      else match r.kind with
        | .write _ => .next (s.reqMod id (fun x => { x with atHand := true, stage := .placing })).pump
        | _ => .next ((s.mapcFill t).byEntry { r with stage := .ready }).pump
    else if r.stage = .second then
      let s := s.dramRead ch res
      if res = .ue then
        if (s.entry t).pline then
          let b := if ch.val = bucket2 t % 6 then bucket2 t else bucket1 t
          .next ({ s with te.badBuckets := setIns b s.te.badBuckets }.supply r 0 true 1).pump
        else .next (s.slotLost r).pump
      else .next (s.bySecond { r with stage := .ready }).pump
    else .next s

/-- The oldest held miss of a die is dispatched once the die's count is below 8 (R90). -/
def execHeldMissDispatch (die : Fin 320) (s : State) : Out :=
  if s.dieOut die < 8 then
    match s.rt.reqs.find? (fun r => r.stage == .held die.val) with
    | none => .next s
    | some r =>
      let s := match (s.entry (tileOf r.line)).loc with
        | some l =>
          if l.die = die.val then
            (s.reqMod r.id (fun x => { x with stage := .media l.die })).issueRead (.host r.id) l (64 * l.tip + r.line % 64)
          else s.byEntry { r with stage := .ready }
        | none => s.byEntry { r with stage := .ready }
      .next ((s.heldShow).resumeIdle die).pump
  else .next s

/-- The stored line that a read returns: what the page holds, with the errors of this read. -/
def State.rawLine (s : State) (m : MRead) (err : StoredLine) : StoredLine :=
  sget 0 (s.mpage m.loc.die m.loc.block m.loc.page).lines m.pos ^^^ err

/-- A key-slot word is uncorrectable (R302): DATA and WRAP keys are derived again, XTS and PAIR repaired from the shadow, a
TRANSFER or STREAM slot ends its stream; a TEST key is fixed in silicon (Table 10.3). `shadow` tells that the shadow is also uncorrectable. -/
def State.slotFailed (s : State) (n : Nat) (shadow : Bool) : State :=
  let k := s.keySlot n
  let s := s.raise 6 1 Kind.UE
  if k.st = 0 then s
  else if k.kind = 0 ∨ k.kind = 2 then if shadow then s.raise 6 3 Kind.UE else s
  else if k.kind = 3 then s.fixSlot n 3 (Config.testKey n)
  else if k.kind = 5 ∨ k.kind = 6 then
    match s.ce.streams.find? (fun x => x.slot == n) with
    | some x => (s.streamAbort x).keyFree n
    | none => s.keyFree n
  else (s.keyMod n (fun x => { x with st := 4 })).derive ⟨n, .again, if k.kind = 1 then 1 else 0, none,
    if k.kind = 1 then s.ce.bootNonce else k.label⟩

/-- A lane takes a new mask seed from the FIFO (R316), which a running DRBG fills again: with the FIFO empty a class-H lane goes on and the
event counts. -/
def State.seedTake (s : State) : State :=
  if s.ce.seeds = 0 then (s.bump R.CE_SEED_LATE).when (s.bit F.CE_CTL.EVT_EN) (fun s => s.roll 0x0802 0 6 1 0 0)
  else if s.bit F.CE_STS.DRBG_OK then s.drbgTake.2
  else { s with ce.seeds := s.ce.seeds - 1 }.setBit F.CE_STS.SEED_LOW (decide (s.ce.seeds < 9))

/-- The stored line of a host miss is decoded and checked (R102, R104, R105, R278): released, read again, recovered or lost. -/
def State.lineHost (s : State) (m : MRead) (rid : Nat) (r : Req) (err : StoredLine) : State :=
  let g := groupOf m.loc.die
  let got := s.checkLine g r.line (s.pageSeq m.loc) m.pos m.key (s.rawLine m err)
  let s := s.lineKeyUse r.line (s.pageSeq m.loc) m.key
  match got with
  | .ok d bits =>
    let s := (s.codecOk (chanOf m.loc.die) bits m.retry).releaseLine r d
    if m.retry = 0 then s else s.rewriteTile (tileOf r.line)
  | failed =>
    let s := s.codecBad g r.line failed
    if m.retry < r.retryMax then
      (s.reqMod rid (fun x => { x with retries := m.retry + 1, excs := x.excs ++ [s.retryRank] })).retryRead m
    else s.hostUnread r m failed.tagBad

/-- The stored line of a completion read of a page that is being assembled is decoded and checked (R132, R220, R278, R286). -/
def State.lineGather (s : State) (m : MRead) (pid pos line : Nat) (err : StoredLine) : State :=
  match s.gatherLine pid pos line with
  | none => s
  | some ln =>
    let g := groupOf m.loc.die
    let got := s.checkLine g ln (s.pageSeq m.loc) m.pos m.key (s.rawLine m err)
    let s := s.lineKeyUse ln (s.pageSeq m.loc) m.key
    match got with
    | .ok d bits =>
      let s := s.when (m.retry != 0 && s.refreshGather pid pos) (fun s => s.bump R.SIR_RECOV_RETRY)
      (s.codecOk (chanOf m.loc.die) bits m.retry).gathered pid pos line d
    | failed =>
      let s := s.codecBad g ln failed
      let s := s.when (m.retry == 0 && s.refreshGather pid pos) (fun s => s.bump R.SIR_UE_FOUND)
      if m.retry < 3 then s.retryRead m
      else (s.codecUe m.loc m.pos).gatherRecover pid pos line ln m.loc m.pos failed.tagBad

/-- A line of another member of a stripe, or of its parity page, is corrected for a reconstruction, with one retry (R213). -/
def State.lineMember (s : State) (m : MRead) (job : Nat) (err : StoredLine) : State :=
  match bchDecode (s.rawLine m err) with
  | some (w, bits) => (s.codecOk (chanOf m.loc.die) bits m.retry).reconLine job (some w)
  | none => if m.retry = 0 then s.retryRead m else s.reconLine job none

/-- A received media line goes where its read belongs. -/
def State.lineTaken (s : State) (m : MRead) (err : StoredLine) : State :=
  match m.purpose with
  | .host rid => match s.req rid with
    | none => s
    | some r => s.lineHost m rid r err
  | .gather pid pos line => s.lineGather m pid pos line err
  | .member job => s.lineMember m job err

/-- A received media line names its key slot (R302, R303): it waits while the key is derived again; where the slot is free it is refused,
with a fault, and its tag fails. -/
def State.lineKeyed (s : State) (m : MRead) (err : StoredLine) : State :=
  if m.key = 0 then s.lineTaken m err
  else if s.keyGate m.key = 1 then { s with ce.waits := s.ce.waits ++ [(m, err)] }
  else if s.keyGate m.key = 2 then (s.raise 6 2 Kind.CHECK).lineTaken m err
  else s.lineTaken m err

/-- A stored line arrives over DQ (R99, R102, R243, R278): the die delivers the oldest read of its queue, which leaves its slot, counts,
and goes where its read belongs. `slotErr` is an uncorrectable word of the key slot it needs (R302); `seedDue` tells that its lane's mask
seed falls due. -/
def execMediaLineReceived (id : Nat) (err : StoredLine) (slotErr seedDue : Bool) (s : State) : Out :=
  match s.te.reads.find? (fun m => m.id == id && m.issued && s.readNext m) with
  | none => .next s
  | some m =>
    let die := m.loc.die
    let s := ((if seedDue then s.seedTake else s).pcItem 6).pcEvent (32 + chanOf die) 3 1
    let s := { s with te.reads := s.te.reads.filter (fun x => x.id != id) }.dieMod die (fun x => { x with step := 0 })
    let s := s.bump (match m.purpose with
      | .host _ => R.MC_RD_H_CNT (chanOf die)
      | _ => R.MC_RD_B_CNT (chanOf die))
    let s := if slotErr && m.key != 0 then s.slotFailed m.key false else s
    .next ((((s.lineKeyed m err).bgIssue die).resumeIdle die).pump)

/-- Key slots that the encryption of a program names: those of its tiles' regions (R304, R308). -/
def State.jobKeys (s : State) (job : CipherJob) : List Nat :=
  match job with
  | .program pid => match s.te.progs.find? (fun p => p.id == pid) with
    | none => []
    | some p => p.tiles.filterMap (fun (t : Option PTile) => match t with
      | none => none
      | some t => match s.regionAny (64 * t.tile) with
        | some n => if s.bit (F.RT_RG_CTL.CTX_EN n) then some (s.keyFor n p.seq) else none
        | none => none)
  | _ => []

/-- A key that the job names is being derived again (R302). -/
def State.jobWaits (s : State) (job : CipherJob) : Bool := (s.jobKeys job).any (fun k => s.keyGate k == 1)

/-- A slot that the job names is free: the request is refused (R303). -/
def State.jobRefused (s : State) (job : CipherJob) : Bool := (s.jobKeys job).any (fun k => s.keyGate k == 2)

/-- A cipher request of class B or S completes (R129, R303, R326); its lane stalls while the mask FIFO holds fewer than 8 seeds
(R316). `bad` tells that a known-answer test failed. -/
def execCipherRequestDone (id : Nat) (slotErr : Option (Fin 4096 × Bool)) (seedDue bad : Bool) (s : State) : Out :=
  if s.ce.seeds < 8 then .next s
  else
  let s := if seedDue then s.seedTake else s
  let s := match slotErr with
    | some (n, shadow) => s.slotFailed n shadow
    | none => s
  match s.ce.jobs.find? (fun j => j.1 == id) with
  | none => .next s
  | some (_, job) =>
    if s.jobWaits job then .next s else
    let s := s.when (s.jobRefused job) (fun s => s.raise 6 2 Kind.CHECK)
    let s := { s with ce.jobs := s.ce.jobs.filter (fun j => j.1 != id) }.pcItem 6
    match job with
    | .program pid => .next (s.progMod pid (fun p => { p with stage := .ready }))
    | .keep line d => .next (s.slotPutClean line d)
    | .kat =>
      let s := ([4, 5, 6, 7].foldl State.keyUse s)
      let s := (s.setBit F.CE_STS.KAT_BUSY false).setBit F.CE_CTL.KAT_RUN false
      .next (if bad then (s.setBit F.CE_STS.KAT_FAIL true).raise 6 3 Kind.CHECK else s)

/-- GPF Phase 1 (R64): no more credits are granted on any port; accepted requests complete. -/
def execGpfPhase1 (port : Fin 8) (s : State) : Out :=
  if s.bit (F.HP_STS.LINK_UP port) then .next { s with rt.gpf := List.range 8 } else .next s

/-- GPF Phase 2 (R64): answered without a media write; the ports stay without credits until their reset or until their host resumes
traffic. -/
def execGpfPhase2 (port : Fin 8) (s : State) : Out :=
  if s.rt.gpf.contains port.val then
    let s := s.rt.gpf.foldl (fun s p => s.setBit (F.HP_STS.GPF_HELD p) true) s
    .next ({ s with rt.gpf := [] }.emit (.hostMsg port 2 []))
  else .next s

/-- Discard a write that the state, the region or a stream leaves unperformed: it completes (R56, R73, R320). -/
def State.dropWrite (s : State) (src : ReqFrom) (line : Nat) (exc : List Nat) : State :=
  s.respond { s.quickReq src line (.write 0) 3 with excs := exc } 0 false true

/-- A write to a transfer window on which a stream stands: it completes once the stream has taken or discarded it (R320, R321, R324); where
it must wait for a slot or a commit, it waits with its credit (R128, Table 20.5). -/
def State.windowWrite (s : State) (src : ReqFrom) (line n : Nat) (k : ReqKind) : State :=
  let off := line - s.rgFirst n
  let r := { s.quickReq src line k 3 with stage := .window, region := some n }
  if s.windowTakes n off then
    (s.importWrite n off r.wdata (match k with | .write _ => true | _ => false)).dropWrite src line [] |>.pump
  else { s with rt.reqs := s.rt.reqs ++ [r], rt.nextId := s.rt.nextId + 1 }

/-- A write that read-only leaves unperformed: counted, its line poisoned where a region takes it, and the poisoned line mirrored
(R70, R73, R568). -/
def State.roWrite (s : State) (line : Nat) (hit : Bool) : State :=
  let s := s.bump R.RT_WR_DROP_STATE
  if hit then
    let s := s.poisonNow line
    let s := { s with hp.psrc := sset 0 s.hp.psrc line 2 }
    if s.mirroring then (s.sendMwr line 0 true).2 else s
  else s

/-- A CXL.mem write (R73, R87, R114): the state rules, the region, transfer windows, twin routing, ordering, then placing. -/
def execMemWriteRequest (port : Fin 8) (tag : BitVec 16) (line : BitVec 38) (d : Line) (be : BitVec 64) (ups : List Upset)
    (s : State) : Out :=
  if !s.hasCredit port true then .next s
  else
    let src : ReqFrom := .host port tag.toNat
    let ln := line.toNat
    let k : ReqKind := if be = BitVec.allOnes 64 then .write d else .part d be
    let s := { (((s.spend port true).bump (R.HP_WR_CNT port)).pcEvent (12 + port) 2 1).ptrUpset ups with hp.bwWr := smod 0 s.hp.bwWr port.val (fun n => n + 64) }
    if s.booting || s.fenced then .next ((s.bump R.RT_WR_DROP_STATE).dropWrite src ln [1])
    else
      let n? := (s.regionOf ln).filter (fun n => s.get (F.RT_RG_CTL.PORT n) == port.val && s.ideOk port)
      if s.roState && n?.all s.owns then
        .next ((s.roWrite ln n?.isSome).dropWrite src ln [1])
      else match n? with
        | none => .next ((s.bump R.RT_STRAY_CNT).dropWrite src ln [])
        | some n =>
          if s.bit (F.RT_RG_CTL.XFER n) && (s.streamOf n).isSome then .next (s.windowWrite src ln n k)
          else if s.owns n then
            if s.bit F.CAR_STS.FAILOVER && s.mirroring then .next (s.holdFailover src ln k n)
            else .next (s.enqueue src ln k (some n) s.stateExc ups)
          else if s.bit F.CAR_STS.FAILOVER then .next (s.holdFailover src ln k n)
          else .next (s.forward src ln k n)

/-- TS_BP_HOLD has passed for a held write: it is charged and proceeds (R123). -/
def execBpHoldExpiry (id : Nat) (s : State) : Out :=
  match s.req id with
  | some r => if r.stage = .budget then .next (s.reqMod id (fun x => { x with stage := .cleared })).pump else .next s
  | none => .next s

/-- The oldest eviction buffer of a line is encrypted into the slot of its tile, and frees (R127, Table 4.4). It waits for
the reads of the line that are under way below the line cache (R60), for a slot, for the repair of its tile's entry (R175), and for the
map to be ready (R163). -/
def execLineEviction (line : BitVec 38) (s : State) : Out :=
  let ln := line.toNat
  if s.rt.reqs.any (fun r => r.line == ln && (r.stage == .mapRead || r.stage == .second)) || !s.bit F.TE_STS.MAP_READY ||
      s.te.bad.contains (tileOf ln) then .next s
  else match s.evictLine ln with
    | some s => .next s.pump
    | none => .next s.pump

/-- A staged tile's age has reached TS_AGE_LIM (R130). -/
def execTileAgeLimit (tile : BitVec 32) (s : State) : Out :=
  let e := s.entry tile.toNat
  let x := s.slot e.slot
  if e.st = 2 ∧ x.anyDirty then .next (s.slotMod e.slot (fun x => { x with due := true, dueAt := s.tick.toNat })).tsStatus
  else .next s

/-- The oldest due tile of a die has waited TS_PAGE_WAIT without three others: its page is programmed padded (R131). -/
def execPageWaitExpiry (die : Fin 320) (s : State) : Out :=
  let n := (s.dueOf die).length
  if 1 ≤ n ∧ n < 4 then .next (s.startPage die false) else .next s

/-- A page of four due tiles of a die is assembled (R131, R132). -/
def execPageProgramStart (die : Fin 320) (s : State) : Out :=
  if 4 ≤ (s.dueOf die).length then .next (s.startPage die false) else .next s

/-- A gathered and encrypted page is accumulated into its stripe and programmed (R132, R210). -/
def execPageProgramIssue (id : Nat) (s : State) : Out :=
  match s.te.progs.find? (fun p => p.id == id) with
  | none => .next s
  | some p => .next (s.issueProg p)

/-- A die's status word and the comparison of its DCRC (R248): the ended program or erase is acted on. A word whose MARK is
not 0b0101 comes from no die. -/
def execStatusWordReceived (die : Fin 320) (sw : Word) (dcrcOk : Bool) (s : State) : Out :=
  let w := sw.toNat
  let s := (s.dieMod die (fun x => { x with sts := sw })).pcEvent (32 + chanOf die) 3 1
  if w / 2 ^ 28 ≠ 5 then .next s
  else
    let s := s.addCnt (R.MC_ERR_CNT (chanOf die)) (w / 2 ^ 15 % 2 + w / 2 ^ 18 % 2)
    let s := if w / 2 ^ 15 % 2 = 1 then s.raise (32 + chanOf die) 1 Kind.LINK else s
    if w / 32 % 2 = 0 then .next s
    else
      let pf := decide (w / 16 % 2 = 1)
      let s := s.suspClear die
      match s.te.progs.find? (fun p => p.die == die.val && p.stage == .busy) with
      | some p =>
        if pf then .next (((s.progFail p).retLimit die).bgIssue die).pump
        else if !dcrcOk then .next ((((s.bump (R.MC_ERR_CNT (chanOf die))).progFail p).retLimit die).bgIssue die).pump
        else .next ((s.progPass p).bgIssue die).pump
      | none =>
        match (s.die die).erase with
        | some b => .next ((if pf then (s.eraseFail die b).retLimit die else s.erasePass die b).bgIssue die).pump
        | none => .next (s.bgIssue die)

/-- TS_CTL.FLUSH: every tile with a Dirty line at this moment is due until it has committed (R130, R138). -/
def execTsFlush (path : Path) (s : State) : Out :=
  let s := s.regAcc 9
  if !s.isManager path then .next s
  else
  let ts : List FlushTile := s.te.slots.filterMap (fun (x : Nat × Slot) =>
    if x.2.anyDirty then x.2.tile.map (fun t => ⟨t, slotMask x.2 (fun c => c == 2), slotMask x.2 (fun c => c == 4)⟩) else none)
  let s := { s with te.flushTiles := s.te.flushTiles ++ ts }
  .next (((s.setBit F.TS_CTL.FLUSH true).setBit F.TS_STS.FLUSH_BUSY true).tsStatus).flushDone

/-- A write of TS_CNT_CLR (Table 4.7). -/
def execTsCntClr (path : Path) (v : Word) (s : State) : Out :=
  let s := s.regAcc 9
  .next (s.when (s.isManager path) (fun s =>
    (((s.when (v.getLsbD 0) (fun s => s.zero [R.TS_HELD_CNT])).when (v.getLsbD 1) (fun s => s.zero [R.TS_OVER_CNT])).when
      (v.getLsbD 2) (fun s => s.zero [R.TS_PAD_CNT])).when (v.getLsbD 3) (fun s => s.zero [R.TS_FILL_RD_CNT])))

/-- RT_CTL.MIN_CLR: SPD_MIN takes the current SPD_IDX (Table 3.6). -/
def execRtMinClr (path : Path) (s : State) : Out :=
  let s := s.regAcc 31
  .next (s.when (s.isManager path) (fun s => s.set F.RT_SPD.SPD_MIN (s.get F.RT_SPD.SPD_IDX)))

/-- RT_CTL.HELD_CLR (Table 3.6). -/
def execRtHeldClr (path : Path) (s : State) : Out :=
  let s := s.regAcc 31
  .next (s.when (s.isManager path) (fun s => s.zero [R.RT_HELD_CNT, R.RT_HELD_MAX]))

/-- RT_CTL.LVL_CLR (Table 3.6). -/
def execRtLvlClr (path : Path) (s : State) : Out :=
  let s := s.regAcc 31
  .next (s.when (s.isManager path) (fun s => s.zero (regRange R.RT_LVL_WIN_CNT0 4)))

/-- A write of RT_LATE_CLR (Table 2.6), through the manager port or out of band (Table 21.8). -/
def execRtLateClr (path : Path) (v : Word) (s : State) : Out :=
  let s := s.regAcc 31
  .next (s.when (s.coreUp && s.mgrOrOob path) (fun s =>
    let s := s.zero ((List.range 8).filterMap (fun k => if v.getLsbD k then some (R.RT_LATE_STATE + 4 * k) else none))
    (s.when (v.getLsbD 8) (fun s => s.zero [R.RT_STRAY_CNT])).when (v.getLsbD 9) (fun s => s.zero [R.RT_WR_DROP_STATE])))

end Sys2Proof.Machine
end

