-- ==== Sys2Proof/Machine/SirOps.lean ====
section
/-! DEFINITION. The Sirocco engine as operations over the state: drift and its ledgers, age classes, reference sets, the lags of
its classes, recovery of lines that background work finds, and the end of the unknown-age state (09_integrity_and_drift.md). -/

set_option autoImplicit false

namespace Sys2Proof.Machine

/-! ### Drift (R272–R276) -/

/-- Zone of a die: zone z covers channels 5z to 5z + 4 (R272). -/
def zoneOf (die : Nat) : Nat := chanOf die / 5

/-- Band of a zone. -/
def State.band (s : State) (z : Nat) : Nat := s.num R.SIR_ZONE_BAND / 4 ^ z % 4

/-- Refresh interval of a band in hours. -/
def State.refreshH (s : State) (k : Nat) : Nat := s.num (R.SIR_REFRESH_B k) % 4096

/-- Drift factor f_k in sixteenths (R273). -/
def State.factor16 (s : State) (k : Nat) : Nat := 16 * s.refreshH 0 / max 1 (s.refreshH k)

/-- D_z in sixteenths of a second. -/
def State.driftOf (s : State) (z : Nat) : Nat := sget 0 s.sir.drift z

/-- Advance D_z. -/
def State.driftAdd (s : State) (z n : Nat) : State := { s with sir.drift := smod 0 s.sir.drift z (fun d => (d + n) % 2 ^ 52) }

/-- D_z in minutes. -/
def State.driftMin (s : State) (z : Nat) : Nat := s.driftOf z / 960

/-- Write a PST ledger entry (R274, R485). -/
def State.ledgerWrite (s : State) : State :=
  let ds := (List.range 8).map (fun z => s.driftMin z % 2 ^ 28 + (if z = 7 then 5 * 2 ^ 28 else 0))
  s.pstAdd (.ledger ((s.seqNext / 65536 :: ds).map (BitVec.ofNat 32)))

/-- Record in the DRAM ledger (R274). -/
def State.dramLedger (s : State) : State :=
  { s with sir.ledger := s.sir.ledger ++ [(s.seqNext, (List.range 8).map s.driftOf)] }

/-- The valid PST ledger entries: sequence number and D_z in sixteenths of a second (R485). -/
def State.pstLedger (s : State) : List (Nat × List Nat) :=
  (List.range 2058).filterMap (fun e =>
    let r := 1152 + e / 7
    let n := 9 * (e % 7)
    if (s.pstWord r (n + 8)).toNat / 2 ^ 28 = 5 then
      some ((s.pstWord r n).toNat * 65536, (List.range 8).map (fun z => (s.pstWord r (n + 1 + z)).toNat % 2 ^ 28 * 960))
    else none)

/-- The newest entry of a ledger whose sequence number is not above `seq`. -/
def ledgerAt (seq : Nat) (l : List (Nat × List Nat)) : Option (Nat × List Nat) :=
  l.foldl (fun b (x : Nat × List Nat) =>
    if seq < x.1 then b else match b with
      | none => some x
      | some y => if y.1 ≤ x.1 then some x else b) none

/-- Drift of a page of a zone in sixteenths of a second; `none` when it is older than the ledgers reach (R275). -/
def State.pageDrift (s : State) (l : List (Nat × List Nat)) (z seq : Nat) : Option Nat :=
  (ledgerAt seq l).map (fun x => s.driftOf z - x.2.getD z 0)

/-- Both ledgers. -/
def State.ledgers (s : State) : List (Nat × List Nat) := s.pstLedger ++ s.sir.ledger

/-- Lower drift bound of a class in minutes (Table 9.6). -/
def State.ageBound (s : State) (c : Nat) : Nat := if c = 0 then 0 else s.num (R.SIR_AGE_BND (c - 1)) % 2 ^ 20

/-- Age class of a drift (Table 9.6). -/
def State.ageClass (s : State) : Option Nat → Nat
  | none => 4
  | some d =>
    let m := d / 960
    if s.ageBound 4 ≤ m then 4 else if s.ageBound 3 ≤ m then 3 else if s.ageBound 2 ≤ m then 2
    else if s.ageBound 1 ≤ m then 1 else 0

/-- Blocks that hold a programmed page, as 2,048 × die + block. -/
def State.usedBlocks (s : State) : List Nat :=
  s.te.blocks.filterMap (fun (x : Nat × Blk) => if x.2.seqs.isEmpty then none else some x.1)

/-- Recompute every entry of the block age table (R276). -/
def State.agesAll (s : State) : State :=
  let l := s.ledgers
  s.usedBlocks.foldl (fun s k =>
    let seq := (s.blk (k / 2048) (k % 2048)).seqs.getLastD 0
    { s with sir.ages := sset 0 s.sir.ages k (s.ageClass (s.pageDrift l (zoneOf (k / 2048)) seq)) }) s

/-! ### Lags (R287) -/

/-- Register of a class's lag (Table 9.8). -/
def lagReg (cls : Nat) : Option Nat :=
  match cls with
  | 2 => some R.SIR_LAG_VFY
  | 3 => some R.SIR_LAG_REF
  | 5 => some R.SIR_LAG_TRK
  | 6 => some R.SIR_LAG_SCR
  | 7 => some R.SIR_LAG_SRAM
  | _ => none

/-- SIR_LAG, SIR_LAG_CLS, LATE and SIR_LAG_MAX follow the lags of the classes. -/
def State.lagShow (s : State) : State :=
  let m := [2, 3, 5, 6, 7].foldl (fun (b : Nat × Nat) c => match lagReg c with
    | some r => if b.2 < s.num r then (c, s.num r) else b
    | none => b) (0, 0)
  (((s.wrN R.SIR_LAG m.2).setBit F.SIR_STS.LATE (m.2 != 0)).set ⟨R.SIR_STS, 16, 4⟩ m.1).maxIn R.SIR_LAG_MAX m.2

/-- Set the lag of a class in ms; with EVT_EN a record when the class becomes late and when its lag returns to 0 (R290). -/
def State.setLag (s : State) (cls ms : Nat) : State :=
  match lagReg cls with
  | none => s
  | some r =>
    let was := s.num r
    let ms := min ms 0xFFFFFFFF
    let s := s.wrN r ms
    let s := s.when (s.bit F.SIR_CTL.EVT_EN && ((was == 0) != (ms == 0))) (fun s =>
      s.roll 0x0700 0 10 cls (if ms = 0 then 0 else 1) ms)
    s.lagShow

/-- Ticks in a millisecond. -/
def msTicks : Nat := 100000

/-- A pass of a class ends and the next starts on the grid of R287: the lag is what the end overran the deadline. -/
def State.passLag (s : State) (cls : Nat) (p : SirPass) : State :=
  s.setLag cls (if p.on then (s.tick.toNat - p.due) / msTicks else 0)

/-- An item of class 2 or 3 has finished: with none unfinished the lag is 0 (R287). -/
def State.itemLag (s : State) (cls : Nat) : State :=
  let none2 := s.te.blocks.all (fun x => x.2.eligible.isEmpty)
  if (cls = 2 ∧ none2) ∨ (cls = 3 ∧ s.sir.refresh.isEmpty) then s.setLag cls 0 else s

/-- A class whose enable bit in SIR_CTL is 0 has lag 0 and, enabled again, starts on a new grid (R287). -/
def State.sirEnables (s : State) : State :=
  let s := s.when (!s.bit F.SIR_CTL.SCRUB_EN) (fun s => { s with sir.scrub := ⟨false, 0⟩, sir.scrubTodo := [] }.setLag 6 0)
  let s := s.when (!s.bit F.SIR_CTL.TRACK_EN) (fun s => { s with sir.trkDue := [], sir.trkLag := [] }.setLag 5 0)
  s.when (!s.bit F.SIR_CTL.SRAM_EN) (fun s => { s with sir.sram := ⟨false, 0⟩ }.setLag 7 0)

/-! ### Reference sets (R277, R279) -/

/-- The refined offsets of a die's set in a band. -/
def State.refOf (s : State) (die band set : Nat) : BitVec 24 :=
  match sget none s.sir.refined ((die * 4 + band) * 8 + set) with
  | some v => v
  | none => sget 0 s.sir.refStart ((groupOf die * 4 + band) * 8 + set)

/-- MG_CDC_STS shows the channels with a load pending. -/
def State.refShow (s : State) (g : Nat) : State :=
  s.set ⟨R.MG_CDC_STS g, 0, 8⟩ ((List.range 8).foldl (fun n i =>
    if s.sir.refPend.any (fun d => chanOf d == 8 * g + i) then n + 2 ^ i else n) 0)

/-- A die's sets have changed: they wait to be loaded (R277). -/
def State.refChanged (s : State) (die : Nat) : State :=
  { s with sir.refPend := setIns die s.sir.refPend }.refShow (groupOf die)

/-- A zone's band changes: every in-service die of the zone takes the sets of the new band (R277). -/
def State.setBand (s : State) (z k : Nat) : State :=
  if s.band z = k then s
  else
    let s := s.set ⟨R.SIR_ZONE_BAND, 2 * z, 2⟩ k
    (s.te.fmt.filter (fun d => zoneOf d == z && !(s.die d).failed && !(s.die d).retired)).foldl State.refChanged s

/-- Offset i of a set as a signed number. -/
def refInt (v : BitVec 24) (i : Nat) : Int := (v.extractLsb' (8 * i) 8).toInt

/-- Move offset i of a set by one step. -/
def refMove (v : BitVec 24) (i : Nat) (up : Bool) : BitVec 24 :=
  let b := v.extractLsb' (8 * i) 8
  let b' := if up then b + 1 else b - 1
  (v &&& ~~~((0xFF : BitVec 24) <<< (8 * i))) ||| (b'.setWidth 24 <<< (8 * i))

/-! ### The engine's turn at a die (R283) -/

/-- No work of a lower class waits at the die: recovery, verification, then the age sweep. -/
def State.sirTurn (s : State) (cls d : Nat) : Bool :=
  (decide (cls ≤ 1) || s.sir.recover.all (fun (x : Loc × Nat) => x.1.die != d)) &&
    (decide (cls ≤ 2) || s.te.blocks.all (fun (x : Nat × Blk) => x.1 / 2048 != d || x.2.eligible.isEmpty)) &&
    (decide (cls ≤ 4) || !s.bit F.SIR_STS.SWEEP_BUSY ||
      s.te.blocks.all (fun (x : Nat × Blk) => x.1 / 2048 != d || !x.2.unknown || s.sir.swept.any (fun y => y.1 == x.1)))

/-- Media work of the engine may run: the map is ready, and the device does not drain (R283). -/
def State.sirWorks (s : State) : Bool := s.bit F.TE_STS.MAP_READY && !s.draining

/-- Reads that a line's recovery adds: its retries (R278). -/
def recoverReads : RecoverBy → Nat
  | .retry n => n.val + 1
  | .no _ => 3

/-! ### Lines that background work cannot read (R286) -/

/-- Tile at a position of a page. -/
def State.tileAt (s : State) (l : Loc) (pos : Nat) : Option Nat :=
  match (s.mpage l.die l.block l.page).tiles[pos / 64]? with
  | some (some t) => some t.tile
  | _ => none

/-- An uncorrectable line of a data page found by classes 2–6 (R286): recovered at a retry, from its stripe, asked of the twin, or lost. A
recovered line's tile is copied. -/
def State.sirBad (s : State) (l : Loc) (pos : Nat) (how : RecoverBy) : State :=
  let s := s.bump R.SIR_UE_FOUND
  let tile := s.tileAt l pos
  let place : Loc := ⟨l.die, l.block, l.page, pos / 64⟩
  let copy := fun (s : State) => match tile with
    | some t => if s.validAt t place then s.rewriteTile t else s
    | none => s
  match how with
  | .retry n => copy ((s.codecOk (chanOf l.die) 0 (n.val + 1)).bump R.SIR_RECOV_RETRY)
  | .no tag =>
    let s := s.codecUe l pos
    match tile with
    | none => s
    | some t =>
      let line := 64 * t + pos % 64
      let r := if s.obpHolds place then s.obpTry line place pos else (if tag then .tag none else .bad, s)
      match r.1 with
      | .ok _ _ => copy (r.2.bump R.SIR_RECOV_OBP)
      | failed =>
        let s := r.2
        if !s.validAt t place ∨ s.superseded line then s
        else if s.partnerCopy line then s.repReq line (.background line (some place) failed.tagBad)
        else (s.loseLine line l.die failed.tagBad false).bump R.SIR_POISONED

/-! ### The end of the unknown-age state (R280–R282) -/

/-- The state ends: marks go, the ages are recomputed, a record says how, and a PST ledger entry is written. -/
def State.unknownEnd (s : State) (how : Nat) : State :=
  let marked := s.te.blocks.filterMap (fun (x : Nat × Blk) => if x.2.unknown then some x.1 else none)
  let s := marked.foldl (fun s k => s.blkMod (k / 2048) (k % 2048) (fun b => { b with unknown := false })) s
  let s := { s with sir.swept := [] }
  let s := (s.setBit F.SIR_STS.UNKNOWN_AGE false).setBit F.SIR_STS.SWEEP_BUSY false
  (s.agesAll.roll 0x0701 0 10 how 0 0).ledgerWrite

/-- Blocks marked UNKNOWN. -/
def State.unknownBlocks (s : State) : List Nat :=
  s.te.blocks.filterMap (fun (x : Nat × Blk) => if x.2.unknown then some x.1 else none)

/-- Entry of the unknown-age state at map ready (R280): blocks whose newest page lies below the resumed number are UNKNOWN;
with none the state ends at once. -/
def State.unknownEnter (s : State) (resumed : Nat) : State :=
  let s := { s with sir.resume := s.sir.drift, sir.swept := [] }
  let s := s.usedBlocks.foldl (fun s k =>
    let b := s.blk (k / 2048) (k % 2048)
    s.blkMod (k / 2048) (k % 2048) (fun b' => { b' with unknown := decide (b.seqs.getLastD 0 < resumed) })) s
  if s.unknownBlocks.isEmpty then s.unknownEnd 2
  else ((s.setBit F.SIR_STS.UNKNOWN_AGE true).setBit F.SIR_STS.SWEEP_BUSY true).set ⟨R.SIR_STS, 8, 7⟩ 0

/-- A timestamp accepted on a port, in units of LAST_ALIVE, 16 s (R281, R480). -/
def State.ageByTimestamp (s : State) (t last : Option Nat) (secs : Nat) : State :=
  if !s.bit F.SIR_STS.UNKNOWN_AGE then s
  else
    let reject := fun (s : State) => (s.setBit ⟨R.SIR_STS, 3, 1⟩ true).roll 0x0702 0 10 (t.getD 0) (last.getD 0) 0
    match t, last with
    | some a, some b =>
      if a < b then reject s
      else
        let f := s.factor16 (s.num R.SIR_OFF_BAND % 4)
        ((List.range 8).foldl (fun s z => s.driftAdd z (secs * f)) s).unknownEnd 0
    | _, _ => reject s

end Sys2Proof.Machine
end

