-- ==== Sys2Proof/Machine/RegionOps.lean ====
section
/-! DEFINITION. The region table's operations: enabling, closing, the extent of a region and its PST records
(02_memory_model.md R52–R55, 12_host_ports.md R378, R379, 16_parameter_store_and_roll_book.md Table 16.4). -/

set_option autoImplicit false

namespace Sys2Proof.Machine

/-- Extent state of a region: 0 none, 1 offered, 2 accepted (R378). -/
def State.extent (s : State) (n : Nat) : Nat := sget 0 s.hp.ext n

/-- Write a region's PST record: attributes with the PORT of each side and the extent state, BASE, SIZE, TENANT (Table 16.4);
the placing of the fields in its private words is the model's. -/
def State.regionSave (s : State) (n : Nat) : State :=
  let ctl := s.num (R.RT_RG_CTL n) % 2048 + s.extent n * 2 ^ 11 + sget 0 s.hp.otherPort n * 2 ^ 13 + s.num (R.RT_RG_SIZE n) / 65536 % 2 * 2 ^ 16
  let bs := s.num (R.RT_RG_BASE n) % 65536 + s.num (R.RT_RG_SIZE n) % 65536 * 65536
  (s.pcItem 109).pstAdd (.record (16 + n) [BitVec.ofNat 32 ctl, BitVec.ofNat 32 bs, s.rd (R.CE_RG_LBL1 n), s.rd (R.CE_RG_LBL2 n), s.rd (R.CE_RG_LBL3 n)])

/-- Set a region's extent state. -/
def State.setExtent (s : State) (n e : Nat) : State := { s with hp.ext := sset 0 s.hp.ext n e }

/-- A Dynamic Capacity record of a region in its port's log (R378, R379): 0 Add, 1 Release, 2 Forced Release. -/
def State.dcRecord (s : State) (n kind : Nat) : State :=
  s.logEvent (s.get (F.RT_RG_CTL.PORT n)) 4 ⟨4, [kind, n, s.num (R.RT_RG_BASE n), s.num (R.RT_RG_SIZE n)]⟩

/-- EN is set: the router accepts requests, and the extent is offered (R53, R378). -/
def State.regionOn (s : State) (n : Nat) : State :=
  let s := (s.setBit (F.RT_RG_CTL.EN n) true).setBit (F.RT_RG_STS.ACCEPT n) true
  let s := { s.setBit (F.RT_RG_STS.CLOSING n) false with te.closing := s.te.closing.filter (fun (c : Nat × Nat) => c.1 != n) }
  let mine := !s.bit F.CAR_STS.PAIRED || s.get (F.RT_RG_CTL.OWNER n) == s.get F.CAR_STS.SIDE
  let s := s.setBit ⟨R.CAR_RG_STS, n, 1⟩ mine
  ((s.setExtent n 1).regionSave n).dcRecord n 0

/-- An enable whose region has been waiting for its key completes to the port that asked (R300). -/
def State.enableDone (s : State) (n : Nat) : State :=
  match s.ce.enables.find? (fun x => x.1 == n) with
  | none => s
  | some x =>
    let s := { s with ce.enables := s.ce.enables.filter (fun (y : Nat × ReplyTo) => y.1 != n) }
    (s.regionOn n).reply x.2 .success 0 []

/-- The region's current slot, with VALID once its key is (Table 10.13). -/
def State.setRgSlot (s : State) (n slot : Nat) (valid : Bool) : State :=
  (s.set ⟨R.CE_RG_SLOT n, 0, 12⟩ slot).setBit (F.CE_RG_SLOT.VALID n) valid

/-- Tiles of a region with a line not yet on media become due (R130). -/
def State.regionDue (s : State) (n : Nat) : State :=
  { s with te.slots := s.te.slots.map (fun (x : Nat × Slot) =>
      if x.2.anyDirty && x.2.tile.any (fun t => s.inRegion n (64 * t)) then (x.1, { x.2 with due := true, dueAt := s.tick.toNat }) else x) }

/-- Locked ways of a region are unlocked by the walker once it closes (R147). -/
def State.regionUnlock (s : State) (n : Nat) : State :=
  if s.bit (F.RT_RG_CTL.LOCK_OK n) then
    { s with lc.walkQ := s.lc.walkQ ++ [WalkOp.mk (.unlock n) (s.rgFirst n) (s.rgLines n) none 0 0 0 0 false] }.leased 7
  else s

/-- EN goes to 0 (R54): no further request is accepted, accepted ones complete, the region's tiles become due, its slot is
released once they have committed, and any stream on it ends with ABORT (R323, R324). -/
def State.regionOff (s : State) (n : Nat) : State :=
  let slot := if s.bit (F.RT_RG_CTL.CTX_EN n) then s.num (R.CE_RG_SLOT n) % 4096 else 0
  let s := (s.ce.streams.filter (fun x => x.window == n || (x.dir == 1 && s.inRegion n x.first))).foldl
    State.streamAbort s
  let s := ((s.setBit (F.RT_RG_CTL.EN n) false).setBit (F.RT_RG_STS.ACCEPT n) false).setBit (F.RT_RG_STS.CLOSING n) true
  let s := { s with te.closing := s.te.closing.filter (fun (c : Nat × Nat) => c.1 != n) ++ [(n, slot)] }
  let s := (s.setRgSlot n (s.num (R.CE_RG_SLOT n) % 4096) false).setBit ⟨R.CAR_RG_STS, n, 1⟩ false
  (((s.setExtent n 0).regionSave n).regionDue n).regionUnlock n |>.tsStatus.closeRegions

/-- A secure discard starts (R66): the walker's line-cache pass over the range comes next. `region` shows its progress. -/
def State.secureStart (s : State) (first count : Nat) (region : Option Nat) (dst : ReplyTo) (twin : Bool) : State :=
  let id := s.te.nextDiscard
  let s := { s with
    te.nextDiscard := id + 1
    te.discards := s.te.discards ++ [Discard.mk id first count true dst region false false twin [] 0]
    lc.walkQ := s.lc.walkQ ++ [WalkOp.mk (.discard id) (64 * first) (64 * count) none 0 0 0 0 false] }.leased 7
  match region with
  | some n => s.sdiscShow n
  | none => s

/-- The DATA slot of a label, or the lowest free slot taken for it (R299); `none` for NO_SLOT. The Boolean tells a slot that is
new and must be derived. -/
def State.dataSlotFor (s : State) (label : Nat) (held : Bool) : Option (Nat × Bool × State) :=
  match s.dataSlot label with
  | some k => some (k, false, s)
  | none => match s.keySlotFree held with
    | none => none
    | some k => some (k, true, s.keySlotTake k 4 label 0)

end Sys2Proof.Machine
end

