-- ==== Sys2Proof/Machine/Cipher.lean ====
section
/-! DEFINITION. The commands of the cipher engine: derivations, slots, rotations, randomness, sealed streams
(10_cipher_engine.md). -/

set_option autoImplicit false

namespace Sys2Proof.Machine

/-- EPOCH of a label. -/
def epochOf (label : Nat) : Nat := label / 65536 % 65536

/-- The new slot of a rekey is VALID (R308, R309): with ERASE the new key applies at once, otherwise ROT_SEQ is taken and the
region's record is written. -/
def State.rekeyValid (s : State) (n slot : Nat) (erase : Bool) : State :=
  let s := s.pcItem 109
  if erase then
    let old := s.num (R.CE_RG_SLOT n) % 4096
    let s := (s.setLabel n (s.keySlot slot).label).setRgSlot n slot true
    let s := ((s.keyRelease old).rotSave n 0).setBit (F.CE_RG_SLOT.SUSPECT n) false
    s.secureStart (s.rgFirst n / 64) (s.rgLines n / 64) (some n) .none false
  else
    let rot := s.seqNext
    let e := epochOf (s.keySlot slot).label
    { s with ce.rotations := s.ce.rotations ++ [(n, slot, rot)] }.pstAdd
      (.record (32 + n) [BitVec.ofNat 32 rot, BitVec.ofNat 32 (rot / 2 ^ 32 % 65536 + e * 65536)])

/-- Lines that waited for a slot's key go on (R302). -/
def State.keyWaits (s : State) (slot : Nat) : State :=
  let l := s.ce.waits.filter (fun (w : MRead × StoredLine) => w.1.key == slot)
  let s := { s with ce.waits := s.ce.waits.filter (fun (w : MRead × StoredLine) => w.1.key != slot) }
  l.foldl (fun s (w : MRead × StoredLine) => s.lineTaken w.1 w.2) s

/-- The oldest derivation completes: its slot is VALID, and what waited for it goes on (R300, R301). It waits for DRBG output
(R316), and a failed known-answer test stops all derivation (R326). -/
def State.keyDerivationDone (s : State) : State :=
  if s.bit F.CE_STS.KAT_FAIL || !s.bit F.CE_STS.DRBG_OK then s
  else match s.ce.derives with
    | [] => s
    | q :: rest =>
      let s := { s with ce.derives := rest }.bump R.CE_DERIVE_CNT
      let s := (s.prfUse q.prf).keyLoad q.slot (kdf (s.prfKey q.prf) q.purpose q.ctx)
      let s := s.ce.enables.foldl (fun s (x : Nat × ReplyTo) =>
        if s.num (R.CE_RG_SLOT x.1) % 4096 = q.slot then (s.setRgSlot x.1 q.slot true).enableDone x.1 else s) s
      match q.why with
      | .enable _ => s.pump
      | .prepare => s.pump
      | .rekey n erase => (s.rekeyValid n q.slot erase).pump
      | .stream h => s.streamMod h (fun y => if y.st = 4 then { y with st := 1 } else y)
      | .again => (s.keyWaits q.slot).pump
      | .wrap => s
      | .restart n old => (if old then s.set ⟨R.CE_RG_SLOT n, 12, 12⟩ q.slot else s.setRgSlot n q.slot true)

/-- A RELEASING slot with no request counted is zeroised and freed (R300). -/
def execSlotFreed (slot : Fin 4096) (s : State) : Out :=
  .next (if (s.keySlot slot).st = 3 ∧ s.slotRefs slot = 0 then s.keyFree slot else s)

/-- The record of a starting rotation is written: the new key takes effect from ROT_SEQ on, and page programs go on (R308). -/
def execRotationRecordWritten (region : Fin 16) (s : State) : Out :=
  let n := region.val
  match s.ce.rotations.find? (fun x => x.1 == n) with
  | none => .next s
  | some (_, slot, rot) =>
    let old := s.num (R.CE_RG_SLOT n) % 4096
    let s := { s with ce.rotations := s.ce.rotations.filter (fun (x : Nat × Nat × Nat) => x.1 != n) }
    let s := (s.setLabel n (s.keySlot slot).label).setRgSlot n slot true
    let s := (s.set ⟨R.CE_RG_SLOT n, 12, 12⟩ old).setBit (F.CE_RG_SLOT.ROTATING n) true
    let s := ((s.wrN (R.CE_RG_ROTSEQ_LO n) rot).wrN (R.CE_RG_ROTSEQ_HI n) (rot / 2 ^ 32 % 65536)).wrN (R.CE_RG_ROT_PCT n) 0
    .next ((s.rotationEnd n).progNumbers).pump

/-- A health-test window ends (R314): failed samples are discarded and counted; three consecutive failures mark the source
failed. -/
def execEntropyHealthTest (pass : Bool) (s : State) : Out :=
  if s.ce.entFailed then .next s
  else if pass then .next { s with ce.entFails := 0, ce.entPasses := s.ce.entPasses + 1 }
  else
    let s := { s.bump R.CE_ENT_FAIL with ce.entFails := s.ce.entFails + 1, ce.entPasses := 0 }
    .next (if 3 ≤ s.ce.entFails then
      ({ s with ce.entFailed := true }.setBit F.CE_STS.ENT_DEGRADED true).raise 123 2 Kind.LIMIT
    else s)

/-- A failed source retries; 16 consecutive passes clear ENT_DEGRADED (R314). -/
def execEntropyRetry (pass : Bool) (s : State) : Out :=
  if !s.ce.entFailed then .next s
  else if pass then
    let s := { s with ce.entPasses := s.ce.entPasses + 1 }
    .next (if 16 ≤ s.ce.entPasses then
      { s with ce.entFailed := false, ce.entFails := 0 }.setBit F.CE_STS.ENT_DEGRADED false
    else s)
  else .next { s.bump R.CE_ENT_FAIL with ce.entPasses := 0 }

/-- A reseed falls due (R315): with the source failed the DRBG stops. -/
def execDrbgReseed (s : State) : Out :=
  if !s.bit F.CE_STS.DRBG_OK then .next s
  else if s.ce.entFailed then .next ((s.setBit F.CE_STS.DRBG_OK false).raise 124 3 Kind.STALL)
  else .next ({ s with ce.drbgUse := 0, ce.drbg := s.ce.drbg + 1 }.bump R.CE_RESEED_CNT)

/-- The next chunk of an export may be produced (R316, R317, R320): class S has its seeds, the host has read the trailer of the chunk
CE_XF_AHEAD before it, its frame is free, and the lines of the source can be read. -/
def State.exportDue (s : State) (x : Stream) : Bool :=
  let done := x.chunk * 16384
  let f := s.frames x.window
  let a := s.num R.CE_XF_AHEAD % 16
  x.dir == 0 && x.st == 1 && decide (8 ≤ s.ce.seeds) && decide (done < x.count) && f != 0 && !x.produced (x.chunk % f) &&
    (decide (x.chunk < a) || !x.produced ((x.chunk - a) % f)) && s.linesCan (x.first + done) (min 16384 (x.count - done))

/-- Lines of a chunk of an export as its source gives them now, each with its poison (R320). -/
def State.exportLines (s : State) (x : Stream) : List (Line × Bool) :=
  (List.range (min 16384 (x.count - x.chunk * 16384))).map (fun n => s.lineNow (x.first + x.chunk * 16384 + n))

/-- PMAP line j of lines with their poison (Table 10.7). -/
def pmapLine (l : List (Line × Bool)) (j : Nat) : Line :=
  BitVec.ofNat 512 (((l.drop (512 * j)).take 512).foldr (fun (y : Line × Bool) n => y.2.toNat + 2 * n) 0)

/-- Ciphertext of a chunk's lines; a poisoned line goes as zeros (R318, R320). -/
def chunkCt (key chunk : Nat) (l : List (Line × Bool)) : List Line :=
  l.zipIdx.map (fun (y : (Line × Bool) × Nat) => (if y.1.2 then (0 : Line) else y.1.1) ^^^ gcmStream key (chunkIv chunk) y.2)

/-- Line 0 of the trailer of a chunk without its tag: CHUNK, TOFF, LEN, FINAL (Table 10.7). -/
def trailerHead (chunk len : Nat) (final : Bool) : Line :=
  BitVec.ofNat 512 (chunk % 2 ^ 64 + chunk * 256 % 2 ^ 64 * 2 ^ 64 + len * 2 ^ 128 + final.toNat * 2 ^ 160)

/-- The lines of a produced frame by window offset: ciphertext, trailer line 0 with its tag, PMAP (Table 10.7). -/
def State.frameLinesOf (s : State) (x : Stream) (l : List (Line × Bool)) : List (Nat × Line) :=
  let k := s.keySlot x.slot
  let base := x.chunk % s.frames x.window * frameLines
  let ct := chunkCt k.key x.chunk l
  let head := trailerHead x.chunk l.length (decide (x.count ≤ x.chunk * 16384 + 16384))
  let tag := gcmTag k.key k.h (chunkIv x.chunk) (chunkAad head (pmapLine l)) ct
  ct.zipIdx.map (fun (y : Line × Nat) => (base + y.2, y.1)) ++ [(base + 16384, head ||| (tag.setWidth 512 <<< 256))] ++
    (List.range 32).map (fun j => (base + 16385 + j, pmapLine l j))

/-- The next chunk of an active export is read, encrypted and placed in its frame, once the tile stage has the slots (R128, R317, R318,
R320). -/
def execExportChunkProduce (window : Fin 16) (s : State) : Out :=
  match s.streamOf window with
  | none => .next s
  | some x =>
    if !s.exportDue x then .next s
    else
      let l := s.exportLines x
      let first := x.first + x.chunk * 16384
      match ((s.linesRead first l.length).keyUse x.slot).streamPuts x.slot (s.frameLinesOf x l) with
      | none => .next s
      | some s =>
        let s := s.streamMod x.slot (fun y => { y with chunk := y.chunk + 1, unread := y.unread + 1, lastOk := some x.chunk })
        .next (s.chunkPacket window x.chunk 0 (decide (x.count ≤ x.chunk * 16384 + 16384)))

/-- A write of a host to an import window (R321): it completes to the host once the stream has taken it. `tr` selects trailer line 0. -/
def State.importCmd (s : State) (port : Fin 8) (tag : BitVec 16) (line : BitVec 38) (d : Line) (be : BitVec 64) (tr : Bool) : State :=
  let ln := line.toNat
  match s.regionOf ln with
  | none => s
  | some n =>
    let off := ln - s.rgFirst n
    if !s.hasCredit port true ∨ s.booting ∨ s.fenced ∨ s.roState ∨ s.get (F.RT_RG_CTL.PORT n) ≠ port.val ∨
        !s.bit (F.RT_RG_CTL.XFER n) ∨ (s.streamOf n).isNone ∨ (off % frameLines = 16384) ≠ tr then s
    else
      let s := { (s.spend port true).bump (R.HP_WR_CNT port) with hp.bwWr := smod 0 s.hp.bwWr port.val (fun n => n + 64) }
      s.windowWrite (.host port tag.toNat) ln n (if be = BitVec.allOnes 64 then .write d else .part d be)

/-- A ciphertext or PMAP line written into an import window (R321). -/
def execImportLineWrite (port : Fin 8) (tag : BitVec 16) (line : BitVec 38) (d : Line) (be : BitVec 64) (s : State) : Out :=
  .next (s.importCmd port tag line d be false)

/-- Trailer line 0 written into an import window (R321). -/
def execImportTrailer (port : Fin 8) (tag : BitVec 16) (line : BitVec 38) (d : Line) (be : BitVec 64) (s : State) : Out :=
  .next (s.importCmd port tag line d be true)

/-- Place one line of a committing chunk (R124, R322): as a full-line write of the plaintext in the tile stage, behind what the line cache's
buffers hold, charged as a bypassing write, mirrored when paired; a line-cache copy is invalidated; a poisoned line enters the poison
table, any other leaves it. `none` while the dirty count stands at the hold mark, a request of the line goes first (R60), the tile's entry
is under repair, or no slot is free or clean. -/
def State.commitLine (s : State) (line : Nat) (d : Line) (poison mirror : Bool) : Option State :=
  if s.holding || s.te.bad.contains (tileOf line) ||
      s.rt.reqs.any (fun (r : Req) => r.line == line && (r.hazard || r.stage == .mapRead || r.stage == .second)) then none
  else
    let s := match s.lcFind line with
      | some w => s.lcInvalidate (lcSet line) w
      | none => s
    match s.evictPut line d false with
    | none => none
    | some (old, s) =>
      let s := if old = 2 ∨ old = 4 then s.tsStatus else s.charge 1
      let s := ((if poison then s.poisonLine line else s.unpoisonLine line).bmapSet (tileOf line)).closeReads line
      some (if mirror && s.mirroring then (s.sendMwr line d poison).2 else s)

/-- Place the lines of a chunk, each with its data and poison, `none` for one to be left out, until one must wait: how many were dealt with,
and the state after (R124, R322, R360). -/
def State.commitLines (s : State) (mirror : Bool) : List (Nat × Option (Line × Bool)) → Nat × State
  | [] => (0, s)
  | (line, x) :: rest =>
    match (match x with | none => some s | some y => s.commitLine line y.1 y.2 mirror) with
    | none => (0, s)
    | some s => let r := s.commitLines mirror rest; (r.1 + 1, r.2)

/-- The lines of a verified chunk not yet placed, each with its plaintext and poison (R322). -/
def State.chunkLines (s : State) (x : Stream) (chunk : Nat) (tr : Line) : List (Nat × Option (Line × Bool)) :=
  let f := chunk % s.frames x.window
  (List.range' x.placed (trLen tr - x.placed)).map (fun n =>
    (x.first + 64 * trToff tr + n,
      some (s.streamLine x (frameLines * f + n), (s.framePmap x f (n / 512)).getLsbD (n % 512))))

/-- A verified chunk commits, line by line, while the dirty count stays below the hold mark and the stage has room (R124, R322); class S
waits for mask seeds (R316). -/
def execImportChunkCommit (window : Fin 16) (s : State) : Out :=
  match s.streamOf window with
  | none => .next s
  | some x =>
    match (if x.st = 1 ∧ 8 ≤ s.ce.seeds then x.ready else []) with
    | [] => .next s
    | (k, tr) :: rest =>
      let lines := s.chunkLines x k tr
      let r := s.xtsUse.commitLines true lines
      let s := r.2
      if r.1 < lines.length then .next (s.streamMod x.slot (fun y => { y with placed := y.placed + r.1 })).pump
      else
        let s := (s.windowFree x.slot (k % s.frames x.window)).streamMod x.slot (fun y => { y with
          chunk := k + 1, lastOk := some k, ready := rest, placed := 0 })
        let s := s.chunkPacket window k 0 (trFinal tr)
        .next (if trFinal tr then s.streamEnd x.slot 0 else s).pump

/-- CE_CTL.KAT_RUN repeats the known-answer tests, in OPEN only (R326, R328). -/
def execKatRun (path : Path) (s : State) : Out :=
  let s := s.regAcc 6
  if s.isManager path && s.get F.CE_STS.LCS == 0 && !s.bit F.CE_STS.KAT_BUSY then
    .next { (s.setBit F.CE_CTL.KAT_RUN true).setBit F.CE_STS.KAT_BUSY true with
      ce.jobs := s.ce.jobs ++ [(s.ce.nextJob, .kat)]
      ce.nextJob := s.ce.nextJob + 1 }
  else .next s

/-- A write of CE_CNT_CLR (Table 10.10). -/
def execCeCntClr (path : Path) (v : Word) (s : State) : Out :=
  let s := s.regAcc 6
  .next (s.when (s.isManager path) (fun s =>
    ((s.when (v.getLsbD 0) (fun s => s.zero [R.CE_SLOTS_PEAK, R.CE_DERIVE_CNT, R.CE_TAG_FAIL_CNT])).when (v.getLsbD 1)
      (fun s => s.zero [R.CE_CHUNK_OK, R.CE_CHUNK_BAD, R.CE_XF_DROP])).when (v.getLsbD 2)
      (fun s => s.zero [R.CE_SEED_LATE, R.CE_ENT_FAIL, R.CE_RESEED_CNT])))

end Sys2Proof.Machine
end

