-- ==== Sys2Proof/Machine/HostOps.lean ====
section
/-! DEFINITION. Discards, poison commands and region commands as operations that a mailbox and an MCMD share
(02_memory_model.md R52–R55, R65–R71; 06_translation_layer.md R174, R192; 10_cipher_engine.md R297–R300, R307–R309;
12_host_ports.md R378, R379, R391, R394; 20_mode_combinations.md R570). -/

set_option autoImplicit false

namespace Sys2Proof.Machine

/-! ### Discards -/

/-- What a discard does to a tile's slot (R174): its counted copies are released; with a program in flight the slot stays until
that program's step 7. -/
def State.discardSlot (s : State) (n : Nat) : State :=
  let x := s.slot n
  let k := (x.st.filter (fun e => e.2 == 2 || e.2 == 3)).length + 2 * (x.st.filter (fun e => e.2 == 4)).length
  let s := if x.inFlight then s.slotMod n (fun y => { y with st := [], data := [], doomed := true })
    else { s with te.slots := serase s.te.slots n }
  s.release k

/-- A discard of one tile (Table 6.3, R65, R68): its slot, its entry, which keeps its former location until that is reclaimed (Table 6.2),
its poison. -/
def State.discardTile (s : State) (t : Nat) : State :=
  let e := s.entry t
  let s := if e.slot ≠ 0 then s.discardSlot e.slot else s
  let m := s.ptMask t
  let s := if m = 0 then s else
    let del := fun (l : List PtEntry) => l.filter (fun (x : PtEntry) => x.tile != t)
    let s := { s with te.buckets := smod [] (smod [] s.te.buckets (bucket1 t) del) (bucket2 t) del }.ptChanged t
    ((s.subCnt R.TE_PT_LINES (popMask m)).subCnt R.TE_PT_TILES 1).setBit F.TE_STS.PT_FULL false
  let s := if e.ptile then s.subCnt R.TE_PT_WHOLE 1 else s
  { s.setEntry t ⟨3, false, false, e.loc, 0⟩ with te.since := serase s.te.since t, hp.psrc := skeep s.hp.psrc (fun l => tileOf l != t) }.touched t

/-- Consecutive DISCARD entries of at most 2^27 tiles (R192). -/
def discardEntries (first count seq : Nat) (secure : Bool) : List JEntry :=
  (List.range ((count + 2 ^ 27 - 1) / 2 ^ 27)).map (fun k =>
    .discard (first + k * 2 ^ 27) (min (2 ^ 27) (count - k * 2 ^ 27)) secure seq)

/-- What a discard does to the requests of its range that are under way (R65, R66): reads take no more requests and fill nothing; under a
secure discard they are answered with zeros; a partial write that waits with its merged line merges into zeros, under a hint discard
where it had met poison. -/
def Req.discarded (r : Req) (secure : Bool) : Req :=
  if r.kind = .read then
    if r.stage.below || (match r.stage with | .joined _ => true | _ => false) then { r with closed := true, zero := r.zero || secure } else r
  else match r.kind with
    | .write d => if r.merged && (secure || r.poison) then
        { r with kind := .write (mergeBytes 0 d r.be), poison := false } else r
    | _ => { r with zero := r.zero || (secure && (r.stage.below || (match r.stage with | .joined _ => true | _ => false))) }

/-- What a discard of a range does above the tile stage: a secure one, at its acceptance, leaves no copy of a line of the range in the line
cache or an eviction buffer (R66); a hint leaves zeros without poison where a poisoned line lies, whose lock it does not release (R65, R147). -/
def State.discardAbove (s : State) (first count : Nat) (secure : Bool) : State :=
  let inR := fun (line : Nat) => decide (64 * first ≤ line) && decide (line < 64 * (first + count))
  let s := if secure then
      let gone := s.lc.ways.filterMap (fun (x : Nat × Way) => if x.2.v && inR (wayLine (x.1 / 16) x.2) then some x.1 else none)
      let s := gone.foldl (fun s k => s.lcInvalidate (k / 16) (k % 16)) s
      let n := (s.lc.bufs.filter (fun (b : EvBuf) => inR b.line)).length
      { s with lc.bufs := s.lc.bufs.filter (fun (b : EvBuf) => !inR b.line) }.release n
    else
      let bad := fun (line : Nat) => inR line && s.poisoned line
      { s with
        lc.ways := s.lc.ways.map (fun (x : Nat × Way) => if x.2.v && (x.2.p && inR (wayLine (x.1 / 16) x.2) || bad (wayLine (x.1 / 16) x.2)) then
          (x.1, Way.sealed { x.2 with p := false, data := 0 }) else x)
        lc.bufs := s.lc.bufs.map (fun (b : EvBuf) => if bad b.line then { b with data := 0 } else b) }
  { s with
    rt.reqs := s.rt.reqs.map (fun (r : Req) => if inR r.line then r.discarded secure else r)
    ce.jobs := s.ce.jobs.filter (fun (j : Nat × CipherJob) => match j.2 with | .keep l _ => !inR l | _ => true) }

/-- Record a discard of a range of tiles: its copies above the tile stage, every mapped tile and its poison, and the journal entries
(R65, R66, R68, R192). -/
def State.discardRange (s : State) (first count : Nat) (secure : Bool) : State :=
  let inR := fun (t : Nat) => decide (first ≤ t) && decide (t < first + count)
  let tiles := (s.te.map.filter (fun (x : Nat × TEntry) => inR x.1)).map (fun x => x.1)
  let olds := (s.te.map.filter (fun (x : Nat × TEntry) => inR x.1)).filterMap (fun x => x.2.loc.map (fun l => (l.die, l.block)))
  let s := tiles.foldl State.discardTile (s.discardAbove first count secure)
  ((s.journal (discardEntries first count s.seqNext secure)).afterMap olds).tsStatus.pump

/-- The blocks on which copies of a range's data stand, or are being programmed (R66). -/
def State.rangeBlocks (s : State) (first count : Nat) : List Nat :=
  let inR := fun (x : Option PTile) => x.any (fun p => decide (first ≤ p.tile) && decide (p.tile < first + count))
  let there := fun (x : Option PageTile) => x.any (fun p => decide (first ≤ p.tile) && decide (p.tile < first + count))
  let on := s.te.media.filterMap (fun (x : Nat × MPage) => if x.2.tiles.any there then some (x.1 / 2048) else none)
  let going := s.te.progs.filterMap (fun (p : Prog) => if p.stage == .busy && p.tiles.any inR then some (2048 * p.die + p.block)
    else if p.tiles.any inR then some (2 ^ 40 + p.id) else none)
  (on ++ going).foldl (fun l k => setIns k l) []

/-- A secure discard is accepted once its line-cache pass and the journal flush have been made (R66, R194): reads return zero, and
the blocks to be erased are known. It waits while no page sequence number can be taken for the flush. -/
def State.secureAccept (s : State) (d : Discard) : State :=
  let blocks := s.rangeBlocks d.first d.count
  let s' := (s.discardRange d.first d.count true).journalFlush
  if s'.te.flushWait then s
  else
    let d' : Discard := { d with accepted := true, blocks := blocks, total := blocks.length }
    let s := { s' with te.discards := s'.te.discards.map (fun (x : Discard) => if x.id = d.id then d' else x) }
    let s := match d.dst with
      | .twin tag => (s.car 0x23 tag [0]).crd 0 1 0 0
      | _ => s
    s.discardShow d'

/-! ### Regions -/

/-- Exported capacity in units of 256 MiB (R50). -/
def State.capUnits (s : State) : Nat := s.num R.DEV_CAP % 2 ^ 17

/-- BASE and SIZE of a region in units of 256 MiB. -/
def State.rgBase (s : State) (n : Nat) : Nat := s.num (R.RT_RG_BASE n) % 65536
def State.rgSize (s : State) (n : Nat) : Nat := s.num (R.RT_RG_SIZE n) % 2 ^ 17

/-- The region would overlap an enabled one, or end beyond the capacity (R53). -/
def State.rgOverlap (s : State) (n : Nat) : Bool :=
  decide (s.capUnits < s.rgBase n + s.rgSize n) || (List.range 16).any (fun k =>
    k != n && s.bit (F.RT_RG_CTL.EN k) && decide (s.rgBase k < s.rgBase n + s.rgSize n) && decide (s.rgBase n < s.rgBase k + s.rgSize k))

/-- This side's PORT of attributes. -/
def State.attrPort (s : State) (a : RgAttr) : Nat := if s.bit F.CAR_STS.SIDE then a.port1.val else a.port0.val

/-- Store a disabled region's attributes; the label's PORT byte follows (R297). -/
def State.rgStore (s : State) (n : Nat) (a : RgAttr) : State :=
  let port := s.attrPort a
  let other := if s.bit F.CAR_STS.SIDE then a.port0.val else a.port1.val
  let s := ((((s.setBit (F.RT_RG_CTL.OWNER n) a.owner).setBit (F.RT_RG_CTL.NOALLOC n) a.noalloc).setBit (F.RT_RG_CTL.DISCARD n)
    a.discard).setBit (F.RT_RG_CTL.LOCK_OK n) a.lockOk).setBit (F.RT_RG_CTL.XFER n) a.xfer
  let s := ((s.set (F.RT_RG_CTL.PORT n) port).wrN (R.RT_RG_BASE n) a.base.toNat).wrN (R.RT_RG_SIZE n) a.size.toNat
  let s := { s with hp.otherPort := sset 0 s.hp.otherPort n other }
  let l := s.label n
  (if s.bit (F.RT_RG_CTL.CTX_EN n) then s.setLabel n (l - l % 256 + port) else s).regionSave n

/-- Region Set (R52, R54, R386, R570). -/
def State.regionSet (s : State) (dst : ReplyTo) (n : Nat) (a : RgAttr) : State :=
  if s.bit (F.RT_RG_CTL.EN n) then s.reply dst .busy Ext.REGION_EN []
  else if s.get (F.HP_STS.ROLE (s.attrPort a)) = 0 ∨ a.size = 0 ∨ 65536 < a.size.toNat ∨
      (a.xfer ∧ (s.bit (F.RT_RG_CTL.CTX_EN n) ∨ a.lockOk)) then s.reply dst .invalidInput 0 []
  else (s.rgStore n a).reply dst .success 0 []

/-- Context Set (R54, R297, R570, Table 10.1). -/
def State.contextSet (s : State) (dst : ReplyTo) (n : Nat) (en : Bool) (epoch tenant : Nat) : State :=
  if s.bit (F.RT_RG_CTL.EN n) then s.reply dst .busy Ext.REGION_EN []
  else if en && s.retired then s.reply dst .invalidSecurity Ext.LCS []
  else if en && s.bit (F.RT_RG_CTL.XFER n) then s.reply dst .invalidInput 0 []
  else
    let l := s.get (F.RT_RG_CTL.PORT n) + n * 2 ^ 8 + epoch * 2 ^ 16 + tenant * 2 ^ 32
    let s := (s.setBit (F.RT_RG_CTL.CTX_EN n) en).setLabel n (if en then l else 0)
    ((s.regionSave n).rotSave n 0).reply dst .success 0 []

/-- Region Enable (R53, R300, R378): without a context EN is set at once; with one, once the slot of its label is VALID. -/
def State.regionEnable (s : State) (dst : ReplyTo) (n : Nat) : State :=
  if s.bit (F.RT_RG_CTL.EN n) then s.reply dst .busy Ext.REGION_EN []
  else if s.rgSize n = 0 ∨ s.rgOverlap n then s.reply dst .invalidInput Ext.OVERLAP []
  else if s.bit (F.RT_RG_CTL.CTX_EN n) then
    if s.retired then s.reply dst .invalidSecurity Ext.LCS []
    else match s.dataSlotFor (s.label n) true with
      | none => s.noSlot.reply dst .busy Ext.NO_SLOT []
      | some (k, fresh, s) =>
        if !fresh && (s.keySlot k).st == 2 then ((s.setRgSlot n k true).regionOn n).reply dst .success 0 []
        else
          let s := { s.setRgSlot n k false with ce.enables := s.ce.enables ++ [(n, dst)] }
          if fresh then s.derive ⟨k, .enable n, 0, none, s.label n⟩ else s
  else (s.regionOn n).reply dst .success 0 []

/-- EN goes to 0 at once, with a Forced Capacity Release record (R379). -/
def State.disableNow (s : State) (n : Nat) : State := (s.regionOff n).dcRecord n 2

/-- Region Disable (R379): with FORCE at once; otherwise a Release Capacity record, and the host's answer is awaited. -/
def State.regionDisable (s : State) (dst : ReplyTo) (n : Nat) (force : Bool) : State :=
  if !s.bit (F.RT_RG_CTL.EN n) then s.reply dst .invalidInput 0 []
  else if force then (s.disableNow n).reply dst .success 0 []
  else { s.dcRecord n 1 with hp.releases := s.hp.releases ++ [(n, dst)] }

/-- Context Prepare (R299): a slot for a label ahead of use. -/
def State.contextPrepare (s : State) (dst : ReplyTo) (label : Nat) : State :=
  if s.retired then s.reply dst .invalidSecurity Ext.LCS []
  else match s.dataSlotFor label false with
    | none => s.noSlot.reply dst .busy Ext.NO_SLOT []
    | some (k, fresh, s) =>
      let s := (s.keyMod k (fun x => { x with prepared := true })).pcItem 109
      (if fresh then s.derive ⟨k, .prepare, 0, none, label⟩ else s).reply dst .success 0 [k]

/-- Rekey (R307–R309): refused for the causes of R307, otherwise the label with EPOCH + 1 is derived into a new slot. -/
def State.rekey (s : State) (dst : ReplyTo) (n : Nat) (erase : Bool) : State :=
  let l := s.label n
  let running := s.bit (F.CE_RG_SLOT.ROTATING n) || s.ce.rotations.any (fun x => x.1 == n) ||
    s.ce.derives.any (fun d => match d.why with | .rekey k _ => k == n | _ => false)
  if s.retired then s.reply dst .invalidSecurity Ext.LCS []
  else if s.bit (F.RT_RG_STS.CLOSING n) then s.reply dst .busy 0 []
  else if !s.bit (F.RT_RG_CTL.EN n) || !s.bit (F.RT_RG_CTL.CTX_EN n) then s.reply dst .invalidInput 0 []
  else if epochOf l = 65535 then s.reply dst .invalidInput Ext.EPOCH_EXHAUSTED []
  else if running then s.reply dst .busy 0 []
  else match s.keySlotFree true with
    | none => s.noSlot.reply dst .busy Ext.NO_SLOT []
    | some k =>
      ((s.keySlotTake k 4 (l + 2 ^ 16) n).derive ⟨k, .rekey n erase, 0, none, l + 2 ^ 16⟩).reply dst .success 0 []

/-! ### Poison commands (R71, R394) -/

/-- Inject Poison of one line: ordered with the requests to the line as a write. -/
def State.injectPoison (s : State) (dst : ReplyTo) (line : Nat) : State :=
  s.enqueue (.cmd dst) line .inject (s.regionOf line) [] []

/-- Clear Poison of one line: the data it carries is stored as by a full-line write. -/
def State.clearPoison (s : State) (dst : ReplyTo) (line : Nat) (d : Line) : State :=
  (s.touched (tileOf line)).enqueue (.cmd dst) line (.write d) (s.regionOf line) [] []

end Sys2Proof.Machine
end

