-- ==== Sys2Proof/Machine/TwinOps.lean ====
section
/-! DEFINITION. The twin pair as operations over the state: HELLO and attachment, roles, link loss and failover, fencing, the
token, admission and resync (11_twin_pair.md; 20_mode_combinations.md R567, R568). -/

set_option autoImplicit false

namespace Sys2Proof.Machine

/-! ### The token line and the twin record (R347, R362) -/

/-- Pull TWIN_TOKEN low, or release it (R347). -/
def State.pullToken (s : State) (b : Bool) : State :=
  if s.tw.pull == b then s
  else { s.emit (.pin .twinToken (if b then some false else none)) with tw.pull := b }

/-- Become or cease to be the holder. -/
def State.holdToken (s : State) (b : Bool) : State := (s.pullToken b).setBit F.CAR_STS.TOKEN_HELD b

/-- CAR_CFG.TOKEN_SIDE and CAR_CFG.AUTO_ADMIT as they stood at the link-up (R366). -/
def State.tokenSide (s : State) : Nat := s.tw.cfg.toNat / 2 % 2
def State.autoAdmit (s : State) : Bool := s.tw.cfg.getLsbD 2

/-- The ROLE record: 0 NONE, 1 PAIRED, 2 SOLO, 3 FENCED. -/
def State.roleRec (s : State) : Nat := (s.statusWord 1).getD 0

/-- Record a role (R362). -/
def State.recordRole (s : State) (r : Nat) : State := s.pstAdd (.status 1 r)

/-- SPLIT_GEN (R362). -/
def State.splitGen (s : State) : Nat := match s.recordOf 13 with | some (w :: _) => w.toNat | _ => 0

/-- Raise PAIR_GEN to a value (R362, R477). -/
def State.raiseGen (s : State) (v : Nat) : State := (s.wrN R.CAR_PAIR_GEN v).pstAdd (.counterTo 7 v)

/-- The writes of every way to become SOLO: SPLIT_GEN, then PAIR_GEN + 1, then the ROLE record (R362). -/
def State.recordSolo (s : State) : State :=
  let g := s.num R.CAR_PAIR_GEN
  (((s.pstAdd (.record 13 [BitVec.ofNat 32 g])).wrN R.CAR_PAIR_GEN (g + 1)).pstAdd (.counterInc 7)).recordRole 2

/-- A Caravan link event (R367, Table 16.6): only with EVT_EN. -/
def State.linkEvent (s : State) (up : Bool) : State :=
  s.when (s.bit F.CAR_CTL.EVT_EN) (fun s => s.roll 0x0901 0 11 up.toNat (s.get F.CAR_STS.ATTACH_ERR) 0)

/-! ### HELLO (R345) -/

/-- REGION_HASH: CRC-32C over the region table and labels, without PORT and without the labels' lowest byte. -/
def State.regionHash (s : State) : Nat :=
  crc32c ((List.range 16).flatMap (fun n =>
    ([fldPut (F.RT_RG_CTL.PORT n) (s.rd (R.RT_RG_CTL n)) 0, s.rd (R.RT_RG_BASE n), s.rd (R.RT_RG_SIZE n),
      fldPut ⟨0, 0, 8⟩ (s.rd (R.CE_RG_LBL0 n)) 0, s.rd (R.CE_RG_LBL1 n), s.rd (R.CE_RG_LBL2 n), s.rd (R.CE_RG_LBL3 n)]).flatMap wordBytes))

/-- Byte 10 of HELLO: the last power-down was clean, finished its drain, or neither. -/
def State.lastDown (s : State) : Nat := if s.get F.PSQ_STS.PD_LAST = 4 then 2 else if s.get F.PSQ_STS.PD_LAST = 3 then 1 else 0

/-- Send HELLO with a fresh nonce. -/
def State.sendHello (s : State) : State :=
  let n := s.free 64
  let s := { s.drawn with tw.nonce := n }
  s.car 0x01 0 [s.get F.CAR_STS.SIDE, s.roleRec, s.lastDown, s.num R.DEV_ID, s.num R.DEV_REV, s.capUnits, s.regionHash,
    s.num R.CAR_PAIR_GEN, n, s.splitGen]

/-- Slot 3 holds the PAIR key. -/
def State.pairKey (s : State) : Option Nat := if (s.keySlot 3).st = 2 then some (s.keySlot 3).key else none

/-- Bytes of the proof of a side: "VSPP", its side, its nonce and the other's. -/
def proofOf (side nonce other : Nat) : List (BitVec 8) := [0x56, 0x53, 0x50, 0x50, BitVec.ofNat 8 side] ++ leBytes 8 nonce ++ leBytes 8 other

/-- The source of a resync by rule 4 of R363: `some true` for this side; `none` when neither side is by that rule. -/
def State.sourceByRule4 (s : State) (h : Hello) : Option Bool :=
  let g := s.num R.CAR_PAIR_GEN
  if h.pairGen.toNat < g then some true
  else if g < h.pairGen.toNat then some false
  else if (s.roleRec = 0) = (h.role.val = 0) then none
  else some (decide (s.roleRec ≠ 0))

/-- The first attach check that fails, in the order of R345; 0 for none. -/
def State.attachErr (s : State) (h : Hello) : Nat :=
  if h.side.val = s.get F.CAR_STS.SIDE then 1
  else if h.devId ≠ s.rd R.DEV_ID ∨ h.devRev ≠ s.rd R.DEV_REV then 2
  else if h.cap.toNat ≠ s.capUnits then 3
  else if s.roleRec = 2 ∧ h.role.val = 2 ∧ h.splitGen.toNat = s.splitGen then 7
  else if h.hash.toNat ≠ s.regionHash ∧ s.sourceByRule4 h = none then 4
  else if s.pairKey.isNone then 6
  else 0

/-! ### Attachment, roles and admission (R355–R364) -/

/-- Every region is in sync and effectively owned as its OWNER attribute says (R333, R338). -/
def State.inSyncAll (s : State) : State :=
  let on := (List.range 16).filter (fun n => s.bit (F.RT_RG_CTL.EN n))
  let own := on.filter (fun n => s.get (F.RT_RG_CTL.OWNER n) == s.get F.CAR_STS.SIDE)
  (s.set F.CAR_RG_STS.EFF_OWN (own.foldl (fun m n => m + 2 ^ n) 0)).set F.CAR_RG_STS.IN_SYNC (on.foldl (fun m n => m + 2 ^ n) 0)

/-- Tiles of region n. -/
def State.rgTiles (s : State) (n : Nat) : Nat := s.rgLines n / 64

/-- Start to source a resync (R359, R360): full, or from the bitmap, of the given regions. -/
def State.startSource (s : State) (regions : List Nat) (full : Bool) : State :=
  let total := if full then regions.foldl (fun n k => n + s.rgTiles k) 0 else s.tw.bmap.length
  let s := { s.unfence 11 with
    tw.admitted := true
    tw.bmapOn := true
    tw.src := some ⟨regions, none, 0, 0, [], full, 0, false, total, 0⟩ }
  ((s.setBit F.CAR_STS.BMAP_VALID true).set F.CAR_STS.ROLE 2).wrN R.CAR_RSYNC (4096 * full.toNat + 8192)

/-- Attributes of a region as the admission sends them (R359). -/
def State.rgAttr (s : State) (n : Nat) : RgAttr :=
  let p := s.get (F.RT_RG_CTL.PORT n)
  let q := sget 0 s.hp.otherPort n
  let port := fun (k : Nat) => if h : k % 8 < 8 then (⟨k % 8, h⟩ : Fin 8) else 0
  let side := s.bit F.CAR_STS.SIDE
  ⟨BitVec.ofNat 16 (s.rgBase n), BitVec.ofNat 17 (s.rgSize n), port (if side then q else p), port (if side then p else q),
    s.bit (F.RT_RG_CTL.OWNER n), s.bit (F.RT_RG_CTL.NOALLOC n), s.bit (F.RT_RG_CTL.DISCARD n), s.bit (F.RT_RG_CTL.LOCK_OK n),
    s.bit (F.RT_RG_CTL.XFER n)⟩

/-- The source admits its twin (R359): it sends its region table where the hashes differ, mirrors from now on, and resyncs in
full when its bitmap is invalid or the tables differ. -/
def State.admitTwin (s : State) : State :=
  match s.tw.hello with
  | none => s
  | some h =>
    let differ := decide (h.hash.toNat ≠ s.regionHash)
    let on := (List.range 16).filter (fun n => s.bit (F.RT_RG_CTL.EN n))
    let full := differ || !s.bit F.CAR_STS.BMAP_VALID || !s.tw.twinList
    let s := (s.startSource on full).set F.CAR_RG_STS.IN_SYNC 0
    let s := s.set F.CAR_RG_STS.EFF_OWN 0xFFFF
    if differ then
      (List.finRange 16).foldl (fun s (n : Fin 16) => s.sendCmd .none (.region (if s.bit (F.RT_RG_CTL.EN n) then
          .table n (s.rgAttr n) (s.bit (F.RT_RG_CTL.CTX_EN n)) (BitVec.ofNat 128 (s.label n)) else .disable n true)) none) s
    else s

/-- The fenced controller is admitted as target (R359): it leaves the fenced state and sends its fence list. -/
def State.admitSelf (s : State) : State :=
  let l := s.tw.flist
  let s := (s.setBit F.CAR_STS.FENCED false).set F.CAR_STS.ROLE 3
  let s := ((s.set F.CAR_RG_STS.EFF_OWN 0).set F.CAR_RG_STS.IN_SYNC 0).setBit F.CAR_STS.FLIST_VALID false
  let s := { s.unfence 11 with tw.admitted := true, tw.flist := [] }
  (List.range ((l.length + 55) / 56)).foldl (fun s k => s.car 0x53 0 ((l.drop (56 * k)).take 56)) s

/-- A fenced, attached controller learns from its source's packets that it has been admitted. -/
def State.targetWake (s : State) : State :=
  if s.bit F.CAR_STS.FENCED && s.bit F.CAR_STS.PAIRED && !s.bit F.CAR_STS.TOKEN_HELD then s.admitSelf else s

/-- Both HELLOs are accepted and the proofs verify: the pair is attached (R345). A holder with AUTO_ADMIT, or one to which KEEP
named its own side, admits the twin once its role has been decided (R356, R359). -/
def State.attach (s : State) : State :=
  if s.bit F.CAR_STS.PAIRED then s
  else
    let s := (s.setBit F.CAR_STS.PAIRED true).set F.CAR_STS.ATTACH_ERR 0
    if s.tw.decided && s.bit F.CAR_STS.TOKEN_HELD && (s.autoAdmit || s.tw.keep) then
      { s with tw.keep := false }.admitTwin
    else s

/-- Both sides are in sync and the pair records PAIRED (R361, rule 5 of R363). -/
def State.becomePaired (s : State) : State :=
  { ((s.unfence 11).set F.CAR_STS.ROLE 1).recordRole 1 with tw.admitted := true, tw.bmapOn := false, tw.bmap := [] }.bmapShow

/-- The resync has ended on both controllers (R361): PAIR_GEN is one more than the higher of the two, and the token returns to
TOKEN_SIDE. -/
def State.resyncEnd (s : State) : State :=
  let g := max (s.num R.CAR_PAIR_GEN) (match s.tw.hello with | some h => h.pairGen.toNat | none => 0) + 1
  let s := (s.raiseGen g).becomePaired
  let s := { s with tw.src := none, tw.tgt := none, tw.hello := s.tw.hello.map (fun (h : Hello) => { h with pairGen := BitVec.ofNat 32 g }) }
  let s := (s.wrN R.CAR_RSYNC 100).setBit F.CAR_STS.BMAP_VALID false
  if s.bit F.CAR_STS.TOKEN_HELD && s.tokenSide != s.get F.CAR_STS.SIDE && s.tw.twinState != 3 && s.tw.tokMove == 0 then
    { s.car 0x40 0 [] with tw.tokMove := 1 }
  else s

/-! ### Losing the link (R350–R354) -/

/-- A mailbox command that waits for the twin completes with its own result alone. -/
def State.cmdsAlone (s : State) : State :=
  let s := { s with tw.cmds := s.tw.cmds.map (fun (c : TwCmd) => { c with ack := some 0 }) }.twinSettle
  let s := { s with te.discards := s.te.discards.map (fun (d : Discard) => { d with twinWait := false }) }
  s.te.discards.foldl (fun s (d : Discard) => if d.accepted && d.secure then s.discardShow d else s) s

/-- Responses owed to the twin are discarded: its requests go on as the device's own (R352). -/
def State.disown (s : State) : State :=
  { s with
    rt.reqs := s.rt.reqs.map (fun (r : Req) => match r.src with
      | .twin _ => { r with src := .device }
      | .mirror _ => { r with src := .device }
      | .rep _ => { r with src := .device }
      | _ => r)
    rt.withheld := s.rt.withheld.filter (fun k => decide (k < 8)) }

/-- The bits with which a failover starts the bitmap: MWRs without a covering MACK, and forwarded writes without FWD_CMP (R357). -/
def State.startBitmap (s : State) : State :=
  let un := s.tw.mwr.map (fun (x : Nat × Nat) => tileOf x.2)
  let fw := s.rt.reqs.filterMap (fun (r : Req) => match r.src with
    | .twin _ => if r.kind = .read then none else some (tileOf r.line)
    | _ => none)
  ({ s with tw.bmapOn := true, tw.bmap := (un ++ fw).foldl (fun l t => setIns t l) [] }.setBit F.CAR_STS.BMAP_VALID true).bmapShow

/-- Step 5 of Table 11.7: FAILOVER clears, the length is recorded, with a Roll book record and a Memory Module Event. -/
def State.failoverEnd (s : State) : State :=
  match s.tw.fo with
  | none => s
  | some f =>
    let us := (s.tick.toNat - f.t0) / 100 % 2 ^ 20
    let s := ({ s with tw.fo := none }.setBit F.CAR_STS.FAILOVER false).wrN R.CAR_FO_LAST us
    let s := ((s.maxIn R.CAR_FO_MAX us).bump R.CAR_FO_CNT).roll 0x0900 0 11 0 f.cause us
    s.moduleEvent [11, f.cause]

/-- What every end of the attachment leaves: no pair, no twin admitted, no exchange, no resync. The chunks without an RS_RES set
their bits again (R360). -/
def State.unpair (s : State) : State :=
  let again := match s.tw.src with | some x => x.sent.map (fun (y : Nat × Nat) => y.2) | none => []
  let s := again.foldl State.bmapSet s
  let s := match s.tw.src with | some x => s.keyRelease x.slot | none => s
  let s := match s.tw.tgt with | some x => s.keyRelease x.slot | none => s
  { (s.setBit F.CAR_STS.PAIRED false).wrN R.CAR_RSYNC 0 with
    tw.admitted := false, tw.src := none, tw.tgt := none, tw.tokMove := 0, tw.mwr := [], tw.reps := [], tw.waits := [] }

/-- The controller becomes SOLO after losing its twin (R352): held mirrored writes complete, forwarded and held requests are
performed locally, and the bitmap starts. -/
def State.becomeSolo (s : State) : State :=
  let s := s.startBitmap.recordSolo
  let s := (s.holdToken true).set F.CAR_STS.ROLE 0
  let s := (s.set F.CAR_RG_STS.EFF_OWN 0xFFFF).set F.CAR_RG_STS.IN_SYNC 0
  let failed := s.tw.reps
  let s := s.disown.unpair
  let s := s.cmdsAlone
  let done := s.rt.reqs.filter (fun r => match r.stage with | .mirror _ => true | _ => false)
  let s := done.foldl (fun s (r : Req) => s.respond { r with excs := r.excs ++ [2] } 0 false false) s
  let s := { s with rt.reqs := s.rt.reqs.map (fun (r : Req) =>
    if r.stage == Stage.forward || r.stage == Stage.failover then { r with stage := .ready, cls := (if r.kind = ReqKind.read then 0 else 3), excs := r.excs ++ [2] } else r) }
  let s := { s with tw.reps := failed }
  s.pump

/-- An accepted write that has not completed ends without being performed, and what waited behind it goes on (R353). -/
def State.dropAccepted (s : State) (r : Req) : State :=
  let s := { s with rt.reqs := s.rt.reqs.map (fun (x : Req) => if x.stage == Stage.joined r.id then { x with stage := Stage.ready } else x) }.wakeAfter r.id
  (s.bump R.RT_WR_DROP_STATE).respond { r with excs := r.excs ++ [1] } 0 false true

/-- The controller fences (R353): its held requests and every write not yet completed are answered under the fenced state, and the fence list
is built (R358). -/
def State.fence (s : State) : State :=
  let writes := s.rt.reqs.filter (fun r => match r.src with | .host _ _ => r.kind != .read | _ => false)
  let s := { (s.setBit F.CAR_STS.FENCED true).setBit F.CAR_STS.FLIST_VALID true with tw.flist := [] }
  let s := writes.foldl (fun s (r : Req) => s.flistAdd (tileOf r.line)) s
  let s := ((s.holdToken false).set F.CAR_STS.ROLE 0).recordRole 3
  let s := (s.set F.CAR_RG_STS.EFF_OWN 0).set F.CAR_RG_STS.IN_SYNC 0
  let failed := s.tw.reps
  let s := (s.disown.unpair).cmdsAlone
  let held := s.rt.reqs.filter (fun (r : Req) => match r.kind, r.stage, r.src with
    | .read, .forward, _ => true
    | .read, .failover, _ => true
    | .read, _, _ => false
    | _, _, .cmd _ => false
    | _, _, _ => true)
  let s := held.foldl (fun s (r : Req) =>
    if r.kind = .read then s.respond { r with excs := r.excs ++ [1] } 0 true false else s.dropAccepted r) s
  let s := { s with tw.reps := failed, tw.bmapOn := false }
  s.pump

/-- Step 3 and the entry of step 4 of Table 11.7: a pull without being holder is released, and the line is sampled. -/
def State.failoverSample (s : State) (t0 cause : Nat) : State :=
  let s := if s.tw.pull && !s.bit F.CAR_STS.TOKEN_HELD then s.pullToken false else s
  let start := fun (s : State) (p : FoPhase) => { s with tw.fo := some ⟨t0, p, cause⟩ }
  if s.bit F.CAR_STS.TOKEN_HELD then start s .settle
  else if !s.bit F.CAR_STS.TOKEN_LINE then start s .window
  else if s.bit F.CAR_STS.SIDE then start s .wait
  else start (s.holdToken true) .settle

/-- The link is down: its HELLO, proof and credits are gone. -/
def State.linkDown (s : State) (cause : Nat) : State :=
  let s := ((s.setBit F.CAR_STS.LINK_UP false).set F.CAR_STS.LAST_DOWN cause)
  { s with tw.hello := none, tw.proof := false, tw.cred := [], tw.fwdOut := 0, tw.waits := [] }

/-- Link loss (R350): an attached controller that is not fenced idles its transmitters and starts the failover of Table 11.7; any other only
loses the link. -/
def State.linkLoss (s : State) (cause : Nat) : State :=
  if !s.bit F.CAR_STS.LINK_UP then s
  else
    let s := (s.linkDown cause).bump R.CAR_LINK_DOWN
    if s.bit F.CAR_STS.PAIRED && !s.bit F.CAR_STS.FENCED && !s.draining then
      ((s.emit (.other 11 [0])).setBit F.CAR_STS.FAILOVER true).failoverSample s.tick.toNat cause
    else (s.unpair.linkEvent false)

/-- A non-holder whose line is high takes the token, or side 1 waits (step 4c). -/
def State.failoverHigh (s : State) (f : Failover) : State :=
  if s.bit F.CAR_STS.SIDE then { s with tw.fo := some { f with phase := .wait } }
  else { s.holdToken true with tw.fo := some { f with phase := .settle } }

/-- Send DOWN and leave the link (R354). -/
def State.sendDown (s : State) (cause : Nat) : State :=
  if s.bit F.CAR_STS.LINK_UP then (((s.car 0x05 cause []).linkDown 7).bump R.CAR_LINK_DOWN).holdToken false else s.holdToken false

/-! ### Resync streams (R360) -/

/-- The key slot of a resync stream, derived from the PAIR key for the region, PAIR_GEN and the source's nonce. -/
def State.pairStream (s : State) (region gen nonce : Nat) : Option (Nat × State) :=
  match s.pairKey, s.keySlotFree false with
  | some k, some n =>
    let ctx := 2 + region * 2 ^ 8 + gen % 2 ^ 32 * 2 ^ 32 + nonce % 2 ^ 64 * 2 ^ 64
    let s := ((s.keyUse 3).keySlotTake n 6 region 0).keyLoad n (kdf k 2 ctx)
    some (n, s.bump R.CE_DERIVE_CNT)
  | _, _ => none

/-- AAD of an RS_CHUNK: packet bytes 8–31. -/
def rsAad (chunk tile : Nat) (zero staged : Bool) (pmap : BitVec 64) : List (BitVec 8) :=
  leBytes 8 chunk ++ leBytes 4 tile ++ leBytes 4 (zero.toNat + 2 * staged.toNat) ++ leBytes 8 pmap.toNat

/-- A tile is staged or on media; otherwise it goes as ZERO (R360). -/
def State.tileHeld (s : State) (t : Nat) : Bool :=
  (s.entry t).st == 1 || (s.entry t).st == 2 || (s.entry t).ptile || (List.range 64).any (fun k =>
    (s.lcFind (64 * t + k)).isSome || (s.bufFind (64 * t + k)).isSome)

/-- Show the resync's progress (Table 11.9). -/
def State.rsShow (s : State) (x : RsSource) : State :=
  (((s.set F.CAR_RSYNC.PCT (100 * x.done / max 1 x.total)).set ⟨R.CAR_RSYNC, 8, 4⟩ (x.region.getD 0)).setBit F.CAR_RSYNC.FULL x.full).setBit
    F.CAR_RSYNC.BUSY true

/-- Next tile of a region to be sent: a set bit, else in a full resync the next tile not yet visited. -/
def State.rsNext (s : State) (x : RsSource) (n : Nat) : Option (Nat × RsSource) :=
  let first := s.rgFirst n / 64
  if x.full ∧ x.scan < s.rgTiles n then some (first + x.scan, { x with scan := x.scan + 1 })
  else (s.tw.bmap.find? (fun t => s.inRegion n (64 * t))).map (fun t => (t, x))

/-- Send one tile as an RS_CHUNK (R360), read at background priority. -/
def State.rsSend (s : State) (x : RsSource) (t : Nat) : State :=
  let s := { s with tw.bmap := setDel t s.tw.bmap }.bmapShow
  let zero := !s.tileHeld t
  let cur := (List.range 64).map (fun k => s.lineNow (64 * t + k))
  let pmap := (cur.zipIdx.foldl (fun (m : BitVec 64) (y : (Line × Bool) × Nat) => if y.1.2 then m ||| lineBit y.2 else m) 0)
  let k := s.keySlot x.slot
  let ct := if zero then [] else cur.zipIdx.map (fun (y : (Line × Bool) × Nat) =>
    (if y.1.2 then (0 : Line) else y.1.1) ^^^ gcmStream k.key (chunkIv x.chunk) y.2)
  let staged := (s.entry t).st == 2
  let tag := gcmTag k.key k.h (chunkIv x.chunk) (rsAad x.chunk t zero staged pmap) ct
  let s := ((s.linesRead (64 * t) 64).xtsUse.keyUse x.slot).carSend 3 (.caravan ⟨0x51, 0, [x.chunk, t, zero.toNat + 2 * staged.toNat, pmap.toNat, tag.toNat] ++
    ct.map (fun c => c.toNat)⟩)
  let x := { x with chunk := x.chunk + 1, sent := x.sent ++ [(x.chunk, t)], done := x.done + 1 }
  { s with tw.src := some x }.rsShow x

/-- A region has come into sync at the source (R361); after the last, the pair is PAIRED. -/
def State.rsRegionDone (s : State) (x : RsSource) (n : Nat) : State :=
  let s := (s.setBit ⟨R.CAR_RG_STS, 16 + n, 1⟩ true).keyRelease x.slot
  let x := { x with region := none, slot := 0, chunk := 0, sent := [], scan := 0, ended := false }
  let s := { s with tw.src := some x }
  if x.left = [] then s.resyncEnd else s

/-- Start the resync of the next region (R360): RS_START with a fresh nonce. -/
def State.rsBegin (s : State) (x : RsSource) (n : Nat) (left : List Nat) : State :=
  let nonce := s.free 64
  match s.pairStream n (s.num R.CAR_PAIR_GEN) nonce with
  | none => s
  | some (k, s) =>
    let s := s.drawn.car 0x50 0 [n, x.full.toNat, s.num R.CAR_PAIR_GEN, nonce]
    let x := { x with region := some n, slot := k, chunk := 0, left := left, ended := false }
    { s with tw.src := some x }.rsShow x

end Sys2Proof.Machine
end

