-- ==== Sys2Proof/Machine/SerOps.lean ====
section
/-! DEFINITION. The commands that run one at a time across the device (12_host_ports.md R388): their running, their queue, and the
twin's part of them (11_twin_pair.md R334, R355, R356, R359, R364). -/

set_option autoImplicit false

namespace Sys2Proof.Machine

/-! ### Admit and Detach -/

/-- Admit in pair mode (R359). -/
def State.admitPair (s : State) (dst : ReplyTo) : State :=
  if s.bit F.CAR_STS.FAILOVER then s.reply dst .busy 0 []
  else if !s.bit F.CAR_STS.LINK_UP || !s.bit F.CAR_STS.PAIRED || s.tw.hello.isNone then s.reply dst .busy Ext.PAIR []
  else if s.bit F.CAR_STS.FENCED then s.admitSelf.reply dst .success 0 []
  else if s.bit F.CAR_STS.TOKEN_HELD && !s.tw.admitted then s.admitTwin.reply dst .success 0 []
  else s.reply dst .busy Ext.PAIR []

/-- The controller takes the token and serves its own copy alone (R355, rule 2 of R363). -/
def State.soloAlone (s : State) : State :=
  let s := ((s.recordSolo.holdToken true).set F.CAR_STS.ROLE 0).setBit F.CAR_STS.FENCED false
  ((s.set F.CAR_RG_STS.EFF_OWN 0xFFFF).set F.CAR_RG_STS.IN_SYNC 0).setBit F.CAR_STS.FLIST_VALID false

/-- Admit in SOLO mode (R355): only a fenced controller with the link down and TWIN_TOKEN high. -/
def State.admitSolo (s : State) (dst : ReplyTo) : State :=
  if s.bit F.CAR_STS.FAILOVER then s.reply dst .busy 0 []
  else if !s.bit F.CAR_STS.FENCED || s.bit F.CAR_STS.LINK_UP || !s.bit F.CAR_STS.TOKEN_LINE then s.reply dst .busy Ext.PAIR []
  else
    let s := { s.soloAlone with tw.flist := [] }
    (s.roll 0x0900 0 11 1 0 (s.num R.CAR_FO_LAST)).reply dst .success 0 []

/-- Admit in KEEP mode (R356): the side not kept fences; the side kept takes the token and raises PAIR_GEN, and the pair attaches
again with the HELLOs of a new link-up. -/
def State.admitKeep (s : State) (dst : ReplyTo) (side : Nat) : State :=
  let err := s.get F.CAR_STS.ATTACH_ERR
  if s.bit F.CAR_STS.FAILOVER then s.reply dst .busy 0 []
  else if err ≠ 4 ∧ err ≠ 7 then s.reply dst .busy Ext.PAIR []
  else if side ≠ s.get F.CAR_STS.SIDE then
    (s.fence.roll 0x0900 0 11 1 side 0).reply dst .success 0 []
  else if s.tw.twinState ≠ 4 ∨ !(s.bit F.CAR_STS.TOKEN_LINE || s.bit F.CAR_STS.TOKEN_HELD) then s.reply dst .busy Ext.PAIR []
  else
    let g := max (s.num R.CAR_PAIR_GEN) (match s.tw.hello with | some h => h.pairGen.toNat | none => 0) + 1
    let s := (s.holdToken true).raiseGen g
    let s := { (s.linkDown (s.get F.CAR_STS.LAST_DOWN)).setBit F.CAR_CTL.RETRAIN true with tw.keep := true }
    (s.roll 0x0900 0 11 1 side 0).reply dst .success 0 []

/-- The leaving controller sends DOWN with cause 1 and fences (R364). -/
def State.leave (s : State) (dst : ReplyTo) : State :=
  let s := { s with tw.leaving := none }
  ((s.reply dst .success 0 []).sendDown 1).fence

/-- Detach (R364): the leaving controller first moves the token where it holds it; the staying controller passes the command on. -/
def State.detach (s : State) (dst : ReplyTo) (side : Nat) : State :=
  if !s.twinUp then s.reply dst .busy Ext.PAIR []
  else if side ≠ s.get F.CAR_STS.SIDE then
    (s.sendCmd dst (.region (.detach (if side = 0 then 0 else 1))) none).reply dst .success 0 []
  else if s.bit F.CAR_STS.TOKEN_HELD then
    let s := { s with tw.leaving := some dst }
    if s.tw.tokMove = 0 then { s.car 0x40 0 [] with tw.tokMove := 1 } else s
  else s.leave dst

/-! ### Region commands from the source at admission (R359) -/

/-- The region's entry and label are those of the source, but for PORT and the label's lowest byte. -/
def State.sameEntry (s : State) (n : Nat) (a : RgAttr) (en : Bool) (label : Nat) : Bool :=
  s.bit (F.RT_RG_CTL.EN n) && s.rgBase n == a.base.toNat && s.rgSize n == a.size.toNat && s.bit (F.RT_RG_CTL.OWNER n) == a.owner &&
    s.bit (F.RT_RG_CTL.NOALLOC n) == a.noalloc && s.bit (F.RT_RG_CTL.DISCARD n) == a.discard &&
    s.bit (F.RT_RG_CTL.LOCK_OK n) == a.lockOk && s.bit (F.RT_RG_CTL.XFER n) == a.xfer && s.bit (F.RT_RG_CTL.CTX_EN n) == en &&
    s.label n / 256 == label / 256

/-- The target takes one region of the source's table: a region that differs is disabled, its range discarded securely, and
the source's attributes, label and enable follow. -/
def State.takeRegion (s : State) (dst : ReplyTo) (n : Nat) (a : RgAttr) (en : Bool) (label : Nat) : State :=
  if s.sameEntry n a en label then s.reply dst .success 0 []
  else
    let s := if s.bit (F.RT_RG_CTL.EN n) then
        let first := s.rgFirst n / 64
        let count := s.rgLines n / 64
        (s.disableNow n).secureStart first count none .none false
      else s
    let s := (s.setBit (F.RT_RG_CTL.CTX_EN n) en).rgStore n a
    let s := if en then s.setLabel n (label - label % 65536 + n * 256 + s.get (F.RT_RG_CTL.PORT n)) else s.setLabel n 0
    ((s.regionSave n).rotSave n 0).regionEnable dst n

/-! ### Roles and the lifecycle (R295, R386, R387) -/

/-- Role that a Port Role Set gives a port. -/
def roleOf (r : BitVec 16) (p : Nat) : Nat := r.toNat / 4 ^ p % 4

/-- Port Role Set (R387): one manager; Busy when it would unassign a port that an enabled region names. -/
def State.roleSet (s : State) (dst : ReplyTo) (r : BitVec 16) : State :=
  let mgr := (List.range 8).filter (fun p => roleOf r p == 2)
  let used := (List.range 16).any (fun n => s.bit (F.RT_RG_CTL.EN n) && roleOf r (s.get (F.RT_RG_CTL.PORT n)) == 0)
  if mgr.length ≠ 1 ∨ (List.range 8).any (fun p => roleOf r p == 3) then s.reply dst .invalidInput 0 []
  else if used then s.reply dst .busy 0 []
  else
    let s := (List.range 8).foldl (fun s p => s.set (F.HP_STS.ROLE p) (roleOf r p)) s
    (s.pstAdd (.record 9 [r.setWidth 32])).reply dst .success 0 []

/-- RETIRED (Table 10.1): RK and its PST rows are erased, every slot is cleared, and streams end. The tile-stage pair and the test keys stay:
regions without a context work normally, and the start-up tests use the test keys in every state (DEDUCED, notes/assumptions/58). -/
def State.retire (s : State) : State :=
  let s := s.ce.streams.foldl State.streamAbort s
  let s := { s with ce.rk0 := 0, ce.rk1 := 0, ce.slots := s.ce.slots.filter (fun (x : Nat × KeySlot) => x.2.kind == 0 || x.2.kind == 3), ce.derives := [], ce.rotations := [] }.slotCountShow
  let s := (List.range 16).foldl (fun s n => s.wrN (R.CE_RG_SLOT n) 0) s
  ((s.pstAdd (.pingPong (areaRow 7))).pstAdd (.pingPong (areaRow 7 + 1))).setBit F.CE_STS.RK_VALID false

/-- Lifecycle Set (R295): OPEN to SECURED or RETIRED, SECURED to RETIRED. -/
def State.lifecycleSet (s : State) (dst : ReplyTo) (target : Nat) : State :=
  if target ≤ s.get F.CE_STS.LCS then s.reply dst .invalidSecurity Ext.LCS []
  else
    let s := if target = 2 then s.retire else s
    ((s.set F.CE_STS.LCS target).pstAdd (.status 2 target)).reply dst .success 0 []

/-! ### One at a time (R388) -/

/-- Carry out one command on this controller. -/
def State.serDo (s : State) (dst : ReplyTo) : SerCmd → State
  | .regionSet n a => s.regionSet dst n a
  | .contextSet n en e t => s.contextSet dst n en e.toNat t.toNat
  | .enable n => s.regionEnable dst n
  | .disable n f => s.regionDisable dst n f
  | .prepare l => s.contextPrepare dst l.toNat
  | .rekey n e => s.rekey dst n e
  | .roles r => s.roleSet dst r
  | .lifecycle t => s.lifecycleSet dst t
  | .admitPair => s.admitPair dst
  | .admitSolo => s.admitSolo dst
  | .admitKeep d => s.admitKeep dst d
  | .detach d => s.detach dst d
  | .table n a en l => s.takeRegion dst n a en l.toNat

/-- Commands that are applied on both controllers (R334). A Region Disable without FORCE reaches the twin when EN goes to 0. -/
def serMirrored : SerCmd → Bool
  | .regionSet _ _ => true
  | .contextSet _ _ _ _ => true
  | .enable _ => true
  | .disable _ f => f
  | .rekey _ _ => true
  | _ => false

/-- Start a command: mirrored to an admitted twin, then carried out here. -/
def State.serStart (s : State) (dst : ReplyTo) (c : SerCmd) : State :=
  let s := { s with hp.serial := some dst }
  let s := if s.twinUp && serMirrored c then s.sendCmd dst (.region c) none else s
  s.serDo dst c

/-- Start waiting commands until one runs on. -/
def State.serPumpN : Nat → State → State
  | 0, s => s
  | n + 1, s =>
    match s.hp.serial, s.hp.serialQ with
    | none, x :: rest => State.serPumpN n ({ s with hp.serialQ := rest }.serStart x.1 x.2)
    | _, _ => s

/-- Start waiting commands (R388). -/
def State.serPump (s : State) : State := s.serPumpN s.hp.serialQ.length

/-- A command of a manager port joins the order of R388; any other port is refused (Table 12.4). -/
def State.serCmd (s : State) (p : Nat) (c : SerCmd) : State :=
  if !s.mail p then s
  else if (p < 8 ∧ s.get (F.HP_STS.ROLE p) ≠ 2) then s.mbox p .unsupported Ext.ROLE []
  else { s with hp.serialQ := s.hp.serialQ ++ [(ReplyTo.mbox p, c)] }.serPump

/-- A background command of a manager port joins the order of R388; a second background command of the port is refused. -/
def State.serCmdBg (s : State) (p : Nat) (c : SerCmd) : State :=
  if !s.mail p then s
  else if (p < 8 ∧ s.get (F.HP_STS.ROLE p) ≠ 2) then s.mbox p .unsupported Ext.ROLE []
  else if s.hp.bg.contains p then s.mbox p .busy 0 []
  else { s.bgStart p with hp.serialQ := s.hp.serialQ ++ [(ReplyTo.bg p, c)] }.serPump

end Sys2Proof.Machine
end

