-- ==== Sys2Proof/Machine/Host.lean ====
section
/-! DEFINITION. The commands of the host ports: links, IDE and SPDM, and the standard mailbox commands (12_host_ports.md R369–R394).
A mailbox command that arrives while the port has no mailbox changes nothing. -/

set_option autoImplicit false

namespace Sys2Proof.Machine

/-- Role of a port: 0 unassigned, 1 tenant, 2 manager (R386). A management queue runs its commands as the manager (R529). -/
def State.role (s : State) (p : Nat) : Nat := if p < 8 then s.get (F.HP_STS.ROLE p) else 2

/-- Port whose event logs and policy a mailbox command means: for a management queue the manager port's. -/
def State.logPort (s : State) (p : Nat) : Nat := if p < 8 then p else s.managers.headD 0

/-- A foreground command of the manager port (Table 12.4, Table 12.6). -/
def State.mgrCmd (s : State) (p : Nat) (f : State → State) : Out :=
  .next (if !s.mail p then s else if s.role p ≠ 2 then s.mbox p .unsupported Ext.ROLE [] else f s)

/-- A foreground command of a manager or tenant port. -/
def State.hostCmd (s : State) (p : Nat) (f : State → State) : Out :=
  .next (if !s.mail p then s else if s.role p = 0 then s.mbox p .unsupported Ext.ROLE [] else f s)

/-- A command marked T for a region: the manager port, or the port that the region names (R391). -/
def State.regionCmd (s : State) (p : Nat) (n : Nat) (f : State → State) : Out :=
  .next (if !s.mail p then s
    else if s.role p = 2 ∨ (s.role p = 1 ∧ s.get (F.RT_RG_CTL.PORT n) = p) then f s
    else s.mbox p .unsupported Ext.ROLE [])

/-- A foreground command completes with Success and its words. -/
def State.done (s : State) (p : Nat) (ws : List Nat) : State := s.mbox p .success 0 ws

/-! ### Links (R369–R372) -/

/-- The port's requests lose their host: they go on as the device's own, and the credits kept back are forgotten. -/
def State.portLost (s : State) (p : Nat) : State :=
  { s with
    rt.reqs := s.rt.reqs.map (fun (r : Req) => match r.src with
      | .host q _ => if q.val = p then { r with src := .device } else r
      | _ => r)
    rt.withheld := s.rt.withheld.filter (fun k => k != p)
    rt.reqCred := s.rt.reqCred.set p 0
    rt.rwdCred := s.rt.rwdCred.set p 0
    rt.gpf := setDel p s.rt.gpf }

/-- What the end of a link leaves in HP_STS: no link, no lanes, no CXL.mem, no IDE. -/
def State.linkGone (s : State) (p : Nat) : State :=
  let s := (((s.setBit (F.HP_STS.LINK_UP p) false).set (F.HP_STS.WIDTH p) 0).set (F.HP_STS.RATE p) 0).setBit (F.HP_STS.LOPT p) false
  ((s.setBit (F.HP_STS.MEM_ON p) false).setBit (F.HP_STS.IDE_IO p) false).setBit (F.HP_STS.IDE_MEM p) false

/-- A link event of a port (Table 12.13, Table 16.6): only with EVT_EN. -/
def State.hostEvent (s : State) (p : Nat) (up : Bool) : State :=
  s.when (s.bit (F.HP_CTL.EVT_EN p)) (fun s => s.roll 0x0A00 0 (12 + p) p up.toNat 0)

/-- What a reset of port n ends beside its link: IDE keys, SPDM sessions, decoders, Viral, GPF hold, D3hot (R372, R382, R64). -/
def State.portReset (s : State) (p : Nat) : State :=
  let s := (((s.linkGone p).portLost p).setBit (F.HP_STS.VIRAL p) false).setBit (F.HP_STS.GPF_HELD p) false
  { s.setBit (F.HP_STS.D3HOT p) false with
    hp.ideKeys := skeep s.hp.ideKeys (fun k => k / 2 != p)
    hp.spdm := s.hp.spdm.filter (fun (x : Nat × Nat) => x.1 != p)
    hp.decs := skeep s.hp.decs (fun k => k / 8 != p)
    hp.policy := serase s.hp.policy p
    hp.bwRd := serase s.hp.bwRd p
    hp.bwWr := serase s.hp.bwWr p }

/-- Registers of a port's page at their reset values under its PERST_N (R15, R372, R532): counters, HP_CTL, HP_BW_WIN, and the performance
counters with their selects and window; HP_CFG and the status that outlives the reset stay. -/
def State.portRegs (s : State) (p : Nat) : State :=
  (s.zero (regRange (R.HP_BW_RD_LO p) 12 ++ [R.HP_CTL p] ++ regRange (R.PC_SEL (12 + p) 0) 8 ++ regRange (R.PC_CNT (12 + p) 0) 16 ++
    [R.PC_WIN_CTL (12 + p)])).wrN (R.HP_BW_WIN p) 1000

/-- PERST_N[n] falls (R372): ignored where the port is absent (R369). -/
def execPerstNAssert (port : Fin 8) (s : State) : Out :=
  if !s.bit (F.HP_STS.PRESENT port) then .next s
  else
    let up := s.bit (F.HP_STS.LINK_UP port)
    let s := ((s.portReset port).unfence (12 + port)).wireEnd (12 + port)
    let s := (s.when up (fun s => s.hostEvent port false)).portRegs port
    .next { s.mapcInvStart with
      hp.perst := setIns port.val s.hp.perst
      hp.muted := if s.hp.bg.contains port.val then setIns port.val s.hp.muted else s.hp.muted }

/-- PERST_N[n] rises: the port's credit pools take the sizes written (R106), and its link may train. -/
def execPerstNRelease (port : Fin 8) (s : State) : Out :=
  if !s.bit (F.HP_STS.PRESENT port) then .next s
  else .next { s with
    hp.perst := setDel port.val s.hp.perst
    rt.reqPool := s.rt.reqPool.set port.val (s.num R.RT_CRD_REQ % 1024)
    rt.rwdPool := s.rt.rwdPool.set port.val (s.num R.RT_CRD_RWD % 1024) }.tsStatus

/-- Widest link of a port (Table 12.1). -/
def State.portLanes (s : State) (p : Nat) : Nat := if s.bit (F.HP_CFG.BIFUR (p - p % 2)) then 8 else 16

/-- The function that every present port presents (R4, R373, R376, R380, R381). -/
def portFn : PortFn := ⟨Config.vendorId, 0x7464, 0xB0, 0x050210, 2 ^ 18, 2 ^ 24, 16, 8, 10, 0, 3⟩

/-- A host link reaches L0 (R370), and the host finds the port's function in configuration space: CXL.mem only at 64 GT/s in 256-byte flit mode. A port whose log a reset has cleared takes the
Add Capacity records of its offered extents again (R378). -/
def execHostLinkUp (port : Fin 8) (width : Fin 17) (rate : Fin 7) (flit256 lopt : Bool) (s : State) : Out :=
  if !s.bit (F.HP_STS.PRESENT port) || s.hp.perst.contains port.val || s.bit (F.HP_STS.LINK_UP port) || !s.coreUp || !s.refclk ||
      s.get F.BOOT_STS.PHASE < 2 || width == 0 || rate == 0 || decide (s.portLanes port < width.val) ||
      s.bit ⟨R.TST_PHY_CTL, port.val / 2, 1⟩ then .next s
  else
    let mem := rate == 6 && flit256
    let s := ((s.setBit (F.HP_STS.LINK_UP port) true).set (F.HP_STS.WIDTH port) width).set (F.HP_STS.RATE port) rate
    let s := (s.setBit (F.HP_STS.LOPT port) (mem && lopt && s.bit (F.HP_CFG.LOPT_EN port))).setBit (F.HP_STS.MEM_ON port) mem
    let s := ((s.setBit (F.HP_CTL.RETRAIN port) false).hostEvent port true).emit (.function port portFn)
    if s.hp.lost.contains port.val then
      let s := { s with hp.lost := setDel port.val s.hp.lost }
      .next ((List.range 16).foldl (fun s n =>
        if s.bit (F.RT_RG_CTL.EN n) && s.get (F.RT_RG_CTL.PORT n) == port.val && s.extent n == 1 then s.dcRecord n 0 else s) s)
    else .next s

/-- A host link leaves L0 other than by PERST_N (Table 12.11). -/
def State.hostLinkDown (s : State) (p : Nat) : State :=
  if s.bit (F.HP_STS.LINK_UP p) then ((s.linkGone p).bump (R.HP_LINK_DOWN p)).hostEvent p false else s

/-- A host link leaves L0 other than by PERST_N. -/
def execHostLinkDown (port : Fin 8) (s : State) : Out := .next (s.hostLinkDown port)

/-- HP_CTL.RETRAIN (Table 12.13). -/
def execHpRetrain (path : Path) (port : Fin 8) (s : State) : Out :=
  let s := s.regAcc (12 + port)
  .next (if s.isManager path && s.bit (F.HP_STS.PRESENT port) then (s.hostLinkDown port).setBit (F.HP_CTL.RETRAIN port) true else s)

/-- The function of a port enters or leaves D3hot (Table 12.2). -/
def execPowerStateChange (port : Fin 8) (d3 : Bool) (s : State) : Out :=
  .next (if s.bit (F.HP_STS.LINK_UP port) then s.setBit (F.HP_STS.D3HOT port) d3 else s)

/-- Interleave ways and granularities that a decoder takes (R376). -/
def decWays : List Nat := [1, 2, 3, 4, 6, 8, 12, 16]
def decGrans : List Nat := [256, 512, 1024, 2048, 4096, 8192, 16384]

/-- DPA bytes below decoder k of a port: the skips and shares of the decoders before it. -/
def State.dpaBelow (s : State) (p k : Nat) : Nat :=
  (List.range k).foldl (fun n j => match sget none s.hp.decs (8 * p + j) with
    | some d => n + d.skip + d.size / d.ways
    | none => n) 0

/-- Commit of an HDM decoder (R376): refused where it is locked, malformed, or maps DPA outside DC region 0. -/
def execHdmDecoderCommit (port : Fin 8) (k : Fin 8) (base size : BitVec 64) (ways gran : Nat) (skip : BitVec 64) (lock : Bool)
    (s : State) : Out :=
  if !s.bit (F.HP_STS.LINK_UP port) then .next s
  else
    let key := 8 * port.val + k.val
    let locked := match sget none s.hp.decs key with | some d => d.lock | none => false
    let legal := decWays.contains ways && decGrans.contains gran && size != 0 && size.toNat % (2 ^ 28 * ways) == 0 &&
      base.toNat % 2 ^ 28 == 0 && decide (s.dpaBelow port k + skip.toNat + size.toNat / ways ≤ s.capUnits * 2 ^ 28)
    if locked || !legal then .next (s.emit (.hostMsg port 0x20 [k, 0]))
    else .next ({ s with hp.decs := sset none s.hp.decs key (some ⟨base.toNat, size.toNat, ways, gran, skip.toNat, lock⟩) }.emit
      (.hostMsg port 0x20 [k, 1]))

/-! ### IDE and SPDM (R383–R385) -/

/-- The stream's secure bit. -/
def ideFld (p : Nat) (mem : Bool) : Fld := if mem then F.HP_STS.IDE_MEM p else F.HP_STS.IDE_IO p

/-- An integrity failure ends a secure stream (R383). -/
def execIdeIntegrityFailure (port : Fin 8) (mem : Bool) (s : State) : Out :=
  if !s.bit (ideFld port mem) then .next s
  else .next (((s.setBit (ideFld port mem) false).bump (R.HP_IDE_ERR port)).raise (12 + port) 2 Kind.LINK)

/-- A session of a port. -/
def State.session (s : State) (p id : Nat) : Bool := s.hp.spdm.contains (p, id)

/-- The SPDM responder runs: the firmware is verified and the link is up (Table 19.1). -/
def State.spdmOn (s : State) (p : Nat) : Bool := s.mail p

/-- IDE_KM inside an SPDM session (R383): a key is programmed, a stream starts with its key, or stops. -/
def execIdeKm (port : Fin 8) (session : Nat) (mem : Bool) (msg : IdeMsg) (s : State) : Out :=
  if !s.spdmOn port || !s.session port session then .next s
  else
    let key := 2 * port.val + mem.toNat
    let ok := fun (s : State) (r : Nat) => s.emit (.hostMsg port 0x30 [mem.toNat, r])
    match msg with
    | .prog k => .next (ok { s with hp.ideKeys := sset none s.hp.ideKeys key (some k.toNat) } 0)
    | .go => .next (if (sget none s.hp.ideKeys key).isSome then ok (s.setBit (ideFld port mem) true) 0 else ok s 1)
    | .stop => .next (ok ({ s with hp.ideKeys := serase s.hp.ideKeys key }.setBit (ideFld port mem) false) 0)

/-- Measurement blocks of R384: firmware image hash, configuration image hash, identity, lifecycle state. -/
def State.measurement (s : State) (b : Nat) : List Nat :=
  if b = 1 then Config.spdm 1 [] else if b = 2 then Config.spdm 2 []
  else if b = 3 then [s.num R.DEV_ID, s.num R.DEV_REV] else if b = 4 then [s.get F.CE_STS.LCS] else []

/-- The SPDM responder's answers (R384). Code 0x7F is an error answer. -/
def execSpdmRequest (port : Fin 8) (req : SpdmReq) (s : State) : Out :=
  if !s.spdmOn port then .next s
  else
    let p := port.val
    let say := fun (s : State) (c : Nat) (ws : List Nat) => s.emit (.hostMsg p c ws)
    match req with
    | .version => .next (say s 0x04 [0x12, 0x11])
    | .capabilities => .next (say s 0x61 (Config.spdm 0x61 []))
    | .algorithms => .next (say s 0x63 (Config.spdm 0x63 []))
    | .digests => .next (say s 0x01 (1 :: Config.spdm 0x01 []))
    | .certificate n => .next (if n = 0 then say s 0x02 (Config.spdm 0x02 []) else say s 0x7F [n])
    | .challenge n c => .next (if n = 0 then say s 0x03 (Config.spdm 0x03 [c.toNat]) else say s 0x7F [n])
    | .measurements b sg =>
      let m := if b = 255 then (List.range 4).flatMap (fun k => s.measurement (k + 1)) else s.measurement b.toNat
      .next (if b = 0 then say s 0x60 [4]
        else if m.isEmpty then say s 0x7F [b.toNat] else say s 0x60 (m ++ (if sg then Config.spdm 0x60 m else [])))
    | .keyExchange =>
      if (s.hp.spdm.filter (fun (x : Nat × Nat) => x.1 == p)).length ≥ 4 then .next (say s 0x7F [4])
      else
        let id := s.hp.nextSess
        .next (say { s with hp.spdm := s.hp.spdm ++ [(p, id)], hp.nextSess := id + 1 } 0x64 (id :: Config.spdm 0x64 [id]))
    | .heartbeat id => .next (if s.session p id then say s 0x68 [id] else say s 0x7F [id])
    | .keyUpdate id => .next (if s.session p id then say s 0x69 [id] else say s 0x7F [id])
    | .endSession id => .next (if s.session p id then
        say { s with hp.spdm := s.hp.spdm.filter (fun (x : Nat × Nat) => x != (p, id)) } 0x6C [id] else say s 0x7F [id])
    | .other c => .next (say s 0x7F [c.toNat])

/-! ### Events (R393) -/

/-- Get Event Records of a log. -/
def execGetEventRecords (port : Nat) (log : Fin 5) (s : State) : Out :=
  s.hostCmd port (fun s => s.done port ((sget [] s.hp.logs (logKey (s.logPort port) log)).flatMap (fun (r : CxlRec) => r.kind :: r.words)))

/-- Clear Event Records: the oldest `count` records of a log. -/
def execClearEventRecords (port : Nat) (log : Fin 5) (count : Nat) (s : State) : Out :=
  s.hostCmd port (fun s =>
    if (sget [] s.hp.logs (logKey (s.logPort port) log)).length < count then s.mbox port .invalidInput 0 []
    else { s with hp.logs := smod [] s.hp.logs (logKey (s.logPort port) log) (fun l => l.drop count) }.done port [])

/-- Get Event Interrupt Policy. -/
def execGetEventInterruptPolicy (port : Nat) (s : State) : Out :=
  s.hostCmd port (fun s => s.done port [sget 0 s.hp.policy (s.logPort port)])

/-- Set Event Interrupt Policy. -/
def execSetEventInterruptPolicy (port : Nat) (v : BitVec 40) (s : State) : Out :=
  s.hostCmd port (fun s => { s with hp.policy := sset 0 s.hp.policy (s.logPort port) v.toNat }.done port [])

/-! ### Firmware (R389, R549) -/

/-- Get FW Info: two slots, the slot that runs, the slot of the directory, and what is known of each image. -/
def execGetFwInfo (port : Nat) (s : State) : Out :=
  s.mgrCmd port (fun s => s.done port ([2, s.get F.BOOT_STS.FW_SLOT, s.hp.fwNext] ++
    (List.range 2).map (fun k => Config.digest (sget [] s.hp.fwImg k))))

/-- Transfer FW: parts are collected for the inactive slot; at the last part the signature is checked (R389). -/
def execTransferFw (port : Nat) (part : List Nat) (first last : Bool) (s : State) : Out :=
  s.mgrCmd port (fun s =>
    let parts := (if first then [] else s.hp.fwParts) ++ [part]
    if !last then { s with hp.fwParts := parts }.done port []
    else if Config.fwSigOk parts.flatten then
      { s with hp.fwParts := [], hp.fwImg := sset [] s.hp.fwImg (1 - s.hp.fwNext % 2) parts.flatten }.done port []
    else { s with hp.fwParts := [] }.mbox port .invalidInput 0 [])

/-- Activate FW: the other slot becomes active in the directory from the next DEV_RST_N (R549). -/
def execActivateFw (port : Nat) (s : State) : Out :=
  s.mgrCmd port (fun s =>
    if sget [] s.hp.fwImg (1 - s.hp.fwNext % 2) = [] then s.mbox port .invalidInput 0 []
    else { s with hp.fwNext := 1 - s.hp.fwNext % 2 }.done port [])

/-! ### Timestamp and logs -/

/-- The timestamp now, in ns; 0 while it has not been set. -/
def State.timeNow (s : State) : Nat := match s.hp.stamp with | some (v, t) => v + (s.tick.toNat - t) * 10 | none => 0

/-- Get Timestamp. -/
def execGetTimestamp (port : Nat) (s : State) : Out := s.hostCmd port (fun s => s.done port [s.timeNow])

/-- Set Timestamp: it may end the unknown-age state (R281). -/
def execSetTimestamp (port : Nat) (ns : BitVec 64) (s : State) : Out :=
  s.hostCmd port (fun s =>
    let s := { s with hp.stamp := some (ns.toNat, s.tick.toNat) }
    let last := s.counter 6
    (s.ageByTimestamp (some (ns.toNat / 16000000000)) (if last = 0 then none else some last) (ns.toNat / 1000000000 - 16 * last)).done port [])

/-- Opcodes that the Command Effects Log lists (Table 12.6, Table 12.7). -/
def opcodes : List Nat :=
  [0x0100, 0x0101, 0x0102, 0x0103, 0x0200, 0x0201, 0x0202, 0x0300, 0x0301, 0x0400, 0x0401, 0x4000, 0x4200, 0x4201, 0x4202, 0x4203, 0x4204,
   0x4300, 0x4301, 0x4302, 0x4303, 0x4304, 0x4305, 0x4400, 0x4401, 0x4800, 0x4801, 0x4802, 0x4803] ++
  [0xC000, 0xC010, 0xC011, 0xC012, 0xC013, 0xC014, 0xC015, 0xC016, 0xC020, 0xC021, 0xC030, 0xC031, 0xC032, 0xC040, 0xC041, 0xC042, 0xC043,
   0xC044, 0xC045, 0xC046, 0xC047, 0xC050, 0xC051, 0xC060, 0xC061, 0xC062, 0xC063]

/-- Get Supported Logs: the Command Effects Log only. -/
def execGetSupportedLogs (port : Nat) (s : State) : Out := s.hostCmd port (fun s => s.done port [1, 4 * opcodes.length])

/-- Get Log: the Command Effects Log; the effect words are the published ones and left free. -/
def execGetLog (port : Nat) (effects : Bool) (s : State) : Out :=
  s.hostCmd port (fun s => if effects then s.drawn.done port (opcodes ++ [s.free 16]) else s.mbox port .invalidInput 0 [])

/-- Identify Memory Device: total capacity in 256 MiB, no volatile-only or persistent-only capacity, poison list maximum. -/
def execIdentifyMemoryDevice (port : Nat) (s : State) : Out := s.hostCmd port (fun s => s.done port [s.capUnits, 0, 0, 65536])

/-! ### Health (R390) -/

/-- Health Status. -/
def State.healthStatus (s : State) : Nat :=
  (s.bit F.TE_UPK_STS.LOW_SPARE).toNat + 2 * (decide (0 < s.get F.RT_STS.APPLIED_LVL) || s.degraded).toNat +
    4 * (s.bit F.TE_UPK_STS.CRITICAL || s.bit F.TE_STS.SEQ_RO).toNat

/-- Media Status, in the order of R390: 1 Not Ready, 2 Write Persistency Lost, 5 Write Persistency Loss in the Event of Power Loss,
0 Normal. PRESUMED: the published CXL numbering (R2;
notes/assumptions/27). -/
def State.mediaStatus (s : State) : Nat :=
  if s.booting then 1 else if s.roState || s.fenced then 2 else if s.bit F.LC_STS.STALE_HELD || s.bit F.TS_STS.OVER then 5 else 0

/-- SRAM and DRAM corrections. -/
def State.volatileFixed (s : State) : Nat := (List.range 6).foldl (fun n c => n + s.num (R.DC_CE_CNT c)) (s.num R.SIR_SRAM_FIX)

/-- Media lines corrected. -/
def State.mediaFixed (s : State) : Nat := s.sir.errOk.foldl (fun n (x : Nat × Nat) => n + x.2) 0

/-- Get Health Info: every field for the manager; Life Used, Media Status and Dirty Shutdown Count for the others, other fields 0.
Words: Health Status, Media Status, Life Used, Device Temperature in 1/16 °C above −64 °C, Dirty Shutdown Count, corrected volatile,
corrected persistent. -/
def execGetHealthInfo (port : Nat) (s : State) : Out :=
  let life := s.num R.TE_LIFE_USED % 128
  .next (if !s.mail port then s
    else if s.role port = 2 then
      s.done port [s.healthStatus, s.mediaStatus, life, s.num R.HK_HOT % 4096, s.counter 2, s.volatileFixed, s.mediaFixed]
    else s.done port [0, s.mediaStatus, life, 0, s.counter 2, 0, 0])

/-- Get Alert Configuration. -/
def execGetAlertConfiguration (port : Nat) (s : State) : Out := s.mgrCmd port (fun s => s.done port s.hp.alerts)

/-- Set Alert Configuration: Life Used, temperature and corrected-error thresholds. -/
def execSetAlertConfiguration (port : Nat) (v : List Nat) (s : State) : Out :=
  s.mgrCmd port (fun s => { s with hp.alerts := v }.done port [])

/-- Get Shutdown State: the clean flag kept in PST (R381). -/
def execGetShutdownState (port : Nat) (s : State) : Out := s.mgrCmd port (fun s => s.done port [(s.statusWord 3).getD 0])

/-- Set Shutdown State (R381). -/
def execSetShutdownState (port : Nat) (clean : Bool) (s : State) : Out :=
  s.mgrCmd port (fun s => (s.pstAdd (.status 3 clean.toNat)).done port [])

/-! ### Poison and scan (R394) -/

/-- A port may see the region of a line (Table 12.4). -/
def State.sees (s : State) (p line : Nat) : Bool :=
  match s.regionOf line with
  | none => false
  | some n => s.role p == 2 || s.get (F.RT_RG_CTL.PORT n) == p

/-- Poisoned tiles of a range, ascending, with what is listed of each: its lines, or `none` for a whole tile. -/
def State.poisonTiles (s : State) (first count : Nat) : List (Nat × Option (BitVec 64)) :=
  let inR := fun (t : Nat) => decide (first < 64 * t + 64) && decide (64 * t < first + count)
  let a := s.te.buckets.flatMap (fun (b : Nat × List PtEntry) => b.2.map (fun (e : PtEntry) => e.tile))
  let b := (s.te.map.filter (fun (x : Nat × TEntry) => x.2.ptile)).map (fun x => x.1)
  let ts := (a ++ b).foldl (fun l t => if inR t then setIns t l else l) []
  ts.map (fun t => (t, if (s.entry t).ptile then none else some (s.ptMask t)))

/-- Records of the poison list: line, length in lines, source. -/
def State.poisonRecords (s : State) (p first count : Nat) : List Nat :=
  (s.poisonTiles first count).flatMap (fun (x : Nat × Option (BitVec 64)) =>
    if !s.sees p (64 * x.1) then []
    else match x.2 with
      | none => [64 * x.1, 64, 0]
      | some m => (List.range 64).flatMap (fun k =>
          let line := 64 * x.1 + k
          if m.getLsbD k && decide (first ≤ line) && decide (line < first + count) then [line, 1, sget 0 s.hp.psrc line] else []))

/-- Get Poison List: the overflow flag with its time, and the entries of the range in ascending DPA. -/
def execGetPoisonList (port : Nat) (first : BitVec 38) (count : BitVec 39) (s : State) : Out :=
  s.hostCmd port (fun s =>
    let full := s.bit F.TE_STS.PT_FULL
    let at' := if full then match s.hp.stamp, s.hp.fullAt with
      | some (v, t), some f => v + f * 10 - t * 10
      | _, _ => 0 else 0
    s.done port ([full.toNat, at'] ++ s.poisonRecords port first.toNat count.toNat))

/-- A poison command of a port on a line of a region that it may see; mirrored to an admitted twin (R334, R337). -/
def State.poisonCmd (s : State) (p : Nat) (line : Nat) (c : TwinCmd) (f : State → State) : State :=
  if !s.sees p line then s.mbox p .invalidInput 0 []
  else f (if s.twinUp then s.sendCmd (.mbox p) c none else s)

/-- Inject Poison (R70, R394). -/
def execInjectPoison (port : Nat) (line : BitVec 38) (s : State) : Out :=
  s.hostCmd port (fun s => s.poisonCmd port line.toNat (.inject line) (fun s => s.injectPoison (.mbox port) line.toNat))

/-- Clear Poison (R71, R394). -/
def execClearPoison (port : Nat) (line : BitVec 38) (d : Line) (s : State) : Out :=
  s.hostCmd port (fun s => s.poisonCmd port line.toNat (.clear line d) (fun s => s.clearPoison (.mbox port) line.toNat d))

/-- Get Scan Media Capabilities: the estimated time, which the spec does not give. -/
def execGetScanMediaCapabilities (port : Nat) (first : BitVec 38) (count : BitVec 39) (s : State) : Out :=
  s.hostCmd port (fun s => if s.sees port first.toNat && count != 0 then s.drawn.done port [s.free 32] else s.mbox port .invalidInput 0 [])

/-- Scan Media: every line of the range is read at background priority. `bad` are the lines that it finds uncorrectable; those on
media follow R286, and all are listed. -/
def execScanMedia (port : Nat) (first : BitVec 38) (count : BitVec 39) (bad : List (BitVec 38)) (s : State) : Out :=
  s.hostCmd port (fun s =>
    if s.hp.bg.contains port then s.mbox port .busy 0 []
    else if !s.sees port first.toNat || count == 0 then s.mbox port .invalidInput 0 []
    else
      let lines := (bad.map (fun (l : BitVec 38) => l.toNat)).filter (fun (l : Nat) =>
        decide (first.toNat ≤ l) && decide (l < first.toNat + count.toNat) && s.sees port l && (s.entry (tileOf l)).loc.isSome)
      let s := s.bgStart port
      let s := lines.foldl (fun s l => match (s.entry (tileOf l)).loc with
        | some loc => { s with sir.recover := s.sir.recover ++ [(loc, 64 * loc.tip + l % 64)] }
        | none => s) s
      { s with hp.scans := sset [] s.hp.scans port lines }.bgDone port .success 0 [])

/-- Get Scan Media Results. -/
def execGetScanMediaResults (port : Nat) (s : State) : Out :=
  s.hostCmd port (fun s => s.done port (sget [] s.hp.scans port))

/-! ### Secure Erase (R389) -/

/-- A key wrapped under the hardware unique key, as the words of its PST record (R294, Table 16.4). -/
def State.wrapKey (s : State) (area key : Nat) : State :=
  let w := ofSemiblocks (kwWrap Config.huk (semiblocks 4 key))
  s.pstAdd (.record area ((List.range 10).map (fun k => BitVec.ofNat 32 (w / 2 ^ (32 * k)))))

/-- A new RK replaces the old one (R294): its record is written, and the DATA keys are derived from it again. -/
def State.newRk (s : State) : State :=
  let r := s.drbgTake
  let s := (r.2.rkLoad r.1).wrapKey 7 (r.1 % 2 ^ 256)
  let s := s.setBit F.CE_STS.RK_VALID true
  let ks := (s.ce.slots.filter (fun (x : Nat × KeySlot) => x.2.kind == 4 && x.2.st == 2)).map (fun x => x.1)
  ks.foldl (fun s k => (s.keyMod k (fun x => { x with st := 1 })).derive ⟨k, .again, 0, none, (s.keySlot k).label⟩) s

/-- Secure Erase (R389): a new RK only; Busy while paired. -/
def execSecureErase (port : Nat) (s : State) : Out :=
  s.mgrCmd port (fun s => if s.bit F.CAR_STS.PAIRED then s.mbox port .busy 0 [] else s.newRk.done port [])

/-! ### Dynamic Capacity (R377–R379) -/

/-- Get Dynamic Capacity Configuration: one region, base 0, its length and its block size, in 256 MiB. -/
def execGetDcConfiguration (port : Nat) (s : State) : Out := s.hostCmd port (fun s => s.done port [1, 0, s.capUnits, 1])

/-- Get Dynamic Capacity Extent List: the accepted extents of the port's own regions, as base, size and tag. -/
def execGetDcExtentList (port : Nat) (s : State) : Out :=
  s.hostCmd port (fun s => s.done port ((List.range 16).flatMap (fun n =>
    if s.bit (F.RT_RG_CTL.EN n) && s.get (F.RT_RG_CTL.PORT n) == port && s.extent n == 2 then [s.rgBase n, s.rgSize n, n] else [])))

/-- The enabled region of a port whose extent is named. -/
def State.extentOf (s : State) (p : Nat) (x : BitVec 16 × BitVec 17) : Option Nat :=
  (List.range 16).find? (fun n => s.bit (F.RT_RG_CTL.EN n) && s.get (F.RT_RG_CTL.PORT n) == p && s.rgBase n == x.1.toNat &&
    s.rgSize n == x.2.toNat)

/-- Add Dynamic Capacity Response (R378): the extents named are accepted; an empty list declines and leaves the extent offered. -/
def execAddDcResponse (port : Nat) (exts : List (BitVec 16 × BitVec 17)) (s : State) : Out :=
  s.hostCmd port (fun s =>
    if exts.all (fun x => match s.extentOf port x with | some n => s.extent n != 0 | none => false) then
      (exts.foldl (fun s x => match s.extentOf port x with | some n => (s.setExtent n 2).regionSave n | none => s) s).done port []
    else s.mbox port .invalidInput 0 [])

/-- The host's release of a region's extent completes its Region Disable (R379): EN goes to 0, on the twin as well. -/
def State.releaseOne (s : State) (n : Fin 16) : State :=
  match s.hp.releases.find? (fun x => x.1 == n.val) with
  | none => s
  | some x =>
    let s := { s with hp.releases := s.hp.releases.filter (fun (y : Nat × ReplyTo) => y.1 != n.val) }
    let s := if s.twinUp then s.sendCmd x.2 (.region (.disable n true)) none else s
    (s.regionOff n).reply x.2 .success 0 []

/-- Release Dynamic Capacity (R379): only extents with a release pending. -/
def execReleaseDc (port : Nat) (exts : List (BitVec 16 × BitVec 17)) (s : State) : Out :=
  s.hostCmd port (fun s =>
    let pend := fun (x : BitVec 16 × BitVec 17) => match s.extentOf port x with
      | some n => s.hp.releases.any (fun (y : Nat × ReplyTo) => y.1 == n)
      | none => false
    if exts.all pend then
      let ns := exts.filterMap (fun x => s.extentOf port x)
      let s := ns.foldl (fun s n => if h : n < 16 then s.releaseOne ⟨n, h⟩ else s) s
      (s.done port []).serPump
    else s.mbox port .invalidInput 0 [])

/-- Any other standard opcode (R389). -/
def execUnsupportedOpcode (port : Nat) (_opcode : BitVec 16) (s : State) : Out :=
  .next (if s.mail port then s.mbox port .unsupported 0 [] else s)

/-! ### Counters and bandwidth (R395, R396) -/

/-- A write through the manager port or the port's own page (R374). -/
def State.ownOrManager (s : State) (path : Path) (p : Fin 8) : Bool :=
  s.isManager path || (match path with | .port q => q == p | .oob => false)

/-- A write of HP_CNT_CLR. -/
def execHpCntClr (path : Path) (port : Fin 8) (v : Word) (s : State) : Out :=
  let s := s.regAcc (12 + port)
  .next (s.when (s.ownOrManager path port) (fun s =>
    (s.when (v.getLsbD 0) (fun s => s.zero (regRange (R.HP_RD_CNT port) 3))).when (v.getLsbD 1) (fun s => s.zero (regRange (R.HP_IDE_ERR port) 4))))

/-- A new window starts. -/
def State.bwStart (s : State) (p : Nat) : State := { s with hp.bwRd := serase s.hp.bwRd p, hp.bwWr := serase s.hp.bwWr p }

/-- A write of HP_BW_WIN, within its range, discards the window in progress (R396). -/
def execHpBwWinWrite (path : Path) (port : Fin 8) (v : Word) (s : State) : Out :=
  let s := s.regAcc (12 + port)
  .next (if s.ownOrManager path port then
    (s.wrN (R.HP_BW_WIN port) (min 10000 (max 1 (v.toNat % 16384)))).bwStart port else s)

/-- A bandwidth window ends (R396). -/
def execBandwidthWindowEnd (port : Fin 8) (s : State) : Out :=
  if !s.bit (F.HP_STS.PRESENT port) then .next s
  else
    let rd := sget 0 s.hp.bwRd port % 2 ^ 48
    let wr := sget 0 s.hp.bwWr port % 2 ^ 48
    .next ((((s.wr64 (R.HP_BW_RD_LO port) rd).wr64 (R.HP_BW_WR_LO port) wr).bump (R.HP_BW_SEQ port)).bwStart port)

end Sys2Proof.Machine
end

