-- ==== Sys2Proof/Machine/Vendor.lean ====
section
/-! DEFINITION. The vendor mailbox commands (12_host_ports.md Table 12.7; 02_memory_model.md R65, R66; 07_media_upkeep.md R229–R231;
10_cipher_engine.md R319–R325; 16_parameter_store_and_roll_book.md R475, R482, R489, R491). -/

set_option autoImplicit false

namespace Sys2Proof.Machine

/-! ### Latency report (R392) -/

/-- Get Latency Report: one word for each field of Table 12.9; with CLEAR the counters are cleared in the same handshake. -/
def execGetLatencyReport (port : Nat) (clear : Bool) (s : State) : Out :=
  s.mgrCmd port (fun s =>
    let ws := (regRange R.RT_LATE_STATE 8).map s.num ++
      [s.num R.RT_STRAY_CNT, s.num R.RT_WR_DROP_STATE, s.tick.toNat, s.num R.RT_STS % 256, s.num R.RT_SPD]
    (s.when clear (fun s => s.zero (regRange R.RT_LATE_STATE 8 ++ [R.RT_STRAY_CNT, R.RT_WR_DROP_STATE]))).done port ws)

/-! ### Regions and contexts -/

/-- Region Set (R52, R570). -/
def execRegionSet (port : Nat) (n : Fin 16) (a : RgAttr) (s : State) : Out := .next (s.serCmd port (.regionSet n a))
/-- Context Set (R297). -/
def execContextSet (port : Nat) (n : Fin 16) (en : Bool) (epoch : BitVec 16) (tenant : BitVec 96) (s : State) : Out :=
  .next (s.serCmd port (.contextSet n en epoch tenant))
/-- Region Enable (R53, R300, R378). -/
def execRegionEnable (port : Nat) (n : Fin 16) (s : State) : Out := .next (s.serCmd port (.enable n))
/-- Region Disable without FORCE (R379). -/
def execRegionDisable (port : Nat) (n : Fin 16) (s : State) : Out := .next (s.serCmdBg port (.disable n false))
/-- Region Disable with FORCE (R379). -/
def execRegionDisableForce (port : Nat) (n : Fin 16) (s : State) : Out := .next (s.serCmdBg port (.disable n true))

/-- No release arrived within TIMEOUT (R379): the command completes with TIMEOUT and EN stays 1. -/
def execRegionDisableTimeout (n : Fin 16) (s : State) : Out :=
  match s.hp.releases.find? (fun x => x.1 == n.val) with
  | none => .next s
  | some x => .next (({ s with hp.releases := s.hp.releases.filter (fun (y : Nat × ReplyTo) => y.1 != n.val) }.reply x.2 .aborted
      Ext.TIMEOUT []).serPump)

/-- Region Query (R391). -/
def execRegionQuery (port : Nat) (n : Fin 16) (s : State) : Out :=
  s.regionCmd port n (fun s => s.done port
    [s.num (R.RT_RG_CTL n), s.num (R.RT_RG_STS n), s.extent n, s.num (R.CE_RG_SLOT n), s.num (R.CE_RG_ROT_PCT n)])

/-- Context Prepare (R299). -/
def execContextPrepare (port : Nat) (label : BitVec 128) (s : State) : Out := .next (s.serCmd port (.prepare label))
/-- The oldest derivation completes (R301); a command that waited for it completes, and the next of those that run one at a time
starts (R388). -/
def execKeyDerivationDone (s : State) : Out := .next s.keyDerivationDone.serPump

/-- Rekey without ERASE (R307, R308). -/
def execRekey (port : Nat) (n : Fin 16) (s : State) : Out := .next (s.serCmd port (.rekey n false))
/-- Rekey with ERASE (R309). -/
def execRekeyErase (port : Nat) (n : Fin 16) (s : State) : Out := .next (s.serCmd port (.rekey n true))
/-- Port Role Set (R387). -/
def execPortRoleSet (port : Nat) (r : BitVec 16) (s : State) : Out := .next (s.serCmd port (.roles r))
/-- Lifecycle Set (R295). -/
def execLifecycleSet (port : Nat) (target : Fin 3) (s : State) : Out := .next (s.serCmd port (.lifecycle target))

/-! ### Discards (R65, R66) -/

/-- The region that holds a range of tiles whole. -/
def State.rangeRegion (s : State) (first count : Nat) : Option Nat :=
  match s.regionOf (64 * first) with
  | none => none
  | some n => if 0 < count ∧ 64 * (first + count) ≤ s.rgFirst n + s.rgLines n then some n else none

/-- Discard in the region's mode (R65, R66): mirrored to an admitted twin; secure runs in the background. A window with a stream
refuses it (Table 20.4). -/
def execDiscard (port : Nat) (first : BitVec 32) (count : BitVec 33) (s : State) : Out :=
  match s.rangeRegion first.toNat count.toNat with
  | none => s.hostCmd port (fun s => s.mbox port .invalidInput 0 [])
  | some n => s.regionCmd port n (fun s =>
    let f := first.toNat
    let c := count.toNat
    if s.bit (F.RT_RG_CTL.XFER n) && s.ce.streams.any (fun (x : Stream) => x.window == n && x.st != 3) then s.mbox port .invalidInput Ext.STATE []
    else if s.bit (F.RT_RG_CTL.DISCARD n) then
      if s.hp.bg.contains port then s.mbox port .busy 0 []
      else
        let s := s.bgStart port
        let up := s.twinUp
        let s := if up then s.sendCmd (.bg port) (.secure first count) (some s.te.nextDiscard) else s
        s.secureStart f c (some n) (.bg port) up
    else
      let s := if s.twinUp then s.sendCmd (.mbox port) (.hint first count) none else s
      (s.discardRange f c false).reply (.mbox port) .success 0 [])

/-- A secure discard is accepted after the walker's line-cache pass and the journal flush (R66). -/
def execSecureDiscardAccept (id : Nat) (s : State) : Out :=
  match s.te.discards.find? (fun d => d.id == id) with
  | some d => .next (if d.secure && d.pass && !d.accepted then (s.secureAccept d).pump else s)
  | none => .next s

/-! ### Report card and read-write (R229–R231) -/

/-- Sum of a function over a list. -/
def sumOf (f : Nat → Nat) (l : List Nat) : Nat := l.foldl (fun n x => n + f x) 0

/-- Two 32-bit words of a 64-bit count. -/
def two (n : Nat) : List Nat := let m := min n (2 ^ 64 - 1); [m % 2 ^ 32, m / 2 ^ 32]

/-- A 32-bit word that saturates. -/
def sat (n : Nat) : Nat := min n 0xFFFFFFFF

/-- Erase counts of every in-service block. -/
def State.allErases (s : State) : List Nat := s.diesLive.flatMap (fun d => s.eraseCounts d (fun _ => true))

/-- The Report card as 480 words (Table 7.4). -/
def State.reportCard (s : State) : List Nat :=
  let dies := s.diesLive
  let pct := s.num R.TE_SPARE_PCT
  let worst := (argMin s.spareOf dies).getD 0
  let es := s.allErases
  let chDies := fun (c : Nat) => dies.filter (fun d => chanOf d == c)
  let bin := fun (k : Nat) => (es.filter (fun e => min (e / 1000) 63 == k)).length
  [1920, (s.bit F.TE_UPK_STS.LOW_SPARE).toNat + 2 * (s.bit F.TE_UPK_STS.CRITICAL).toNat + 4 * s.roState.toNat + 8 * s.degraded.toNat,
    sat s.opSeconds, sat (s.counter 0), s.num R.TE_SPARE_TOTAL, pct, worst % 65536 + s.lifeUsed % 256 * 65536,
    (s.te.fmt.filter (fun d => (s.die d).retired)).length] ++
  (List.range 40).map (fun c => sumOf s.spareOf (chDies c)) ++
  (List.range 40).map (fun c => sumOf (fun k => (s.blocksIn (8 * c + k) 8).length) (List.range 8)) ++
  (List.range 10).map (fun w => sumOf (fun k => if (s.die (32 * w + k)).retired then 2 ^ k else 0) (List.range 32)) ++
  [sat (es.foldl min (es.headD 0)), sat (es.foldl max 0), sat (es.foldl (· + ·) 0 / max 1 es.length), sat s.te.wlTotal] ++
  (List.range 64).map (fun k => sat (bin k)) ++
  (List.range 40).flatMap (fun c => two (sget 0 s.sir.errOk c) ++ two (sget 0 s.sir.errUe c)) ++
  (List.range 144).map (fun k => sat (sget 0 s.hk.hist k)) ++
  (List.range 4).flatMap (fun k => two (sget 0 s.sir.refPages k)) ++
  [sat s.sir.refPasses, s.num R.SIR_LAG_MAX]

/-- Get Report Card (R231). -/
def execGetReportCard (port : Nat) (s : State) : Out := s.mgrCmd port (fun s => s.done port s.reportCard)

/-- Set Read-Write (R229). -/
def execSetReadWrite (port : Nat) (s : State) : Out :=
  s.mgrCmd port (fun s =>
    if s.bit F.TE_UPK_STS.CRITICAL || s.bit F.TE_STS.SEQ_RO then s.mbox port .invalidInput Ext.STATE []
    else { s with te.readOnly := false }.done port [])

/-! ### Keys (R319, R345, R385) -/

/-- A transfer key takes a TRANSFER slot (R299, R319). -/
def State.transferKey (s : State) (p : Nat) (key : Nat) : State :=
  match s.keySlotFree false with
  | none => s.noSlot.mbox p .busy Ext.NO_SLOT []
  | some k => ((s.keySlotTake k 5 0 0).keyLoad k key).done p [k]

/-- Load Transfer Key (R319, R385). -/
def execLoadTransferKey (port : Nat) (k : KeyLoad) (s : State) : Out :=
  s.mgrCmd port (fun s =>
    if s.retired then s.mbox port .invalidSecurity Ext.LCS []
    else match k with
      | .clear session key =>
        if session.any (fun id => s.session port id) then s.transferKey port key.toNat
        else s.mbox port .invalidSecurity Ext.NOT_SECURED []
      | .wrapped slot form =>
        let x := s.keySlot slot
        if x.kind ≠ 5 ∨ x.st ≠ 2 then s.mbox port .invalidInput 0 []
        else match kwUnwrap x.key (semiblocks 5 form.toNat) with
          | some key => (s.keyUse slot).transferKey port (ofSemiblocks key)
          | none => s.mbox port .invalidInput 0 [])

/-- Load Pair Key: into slot 3, kept in PST (R345, R385). -/
def execLoadPairKey (port : Nat) (session : Option Nat) (key : BitVec 256) (s : State) : Out :=
  s.mgrCmd port (fun s =>
    if !session.any (fun id => s.session port id) then s.mbox port .invalidSecurity Ext.NOT_SECURED []
    else if s.retired then s.mbox port .invalidSecurity Ext.LCS []
    else ((s.fixSlot 3 2 key.toNat).slotCountShow.wrapKey 8 key.toNat).done port [])

/-! ### Sealed streams (R317–R325) -/

/-- Context of a STREAM key (R319). -/
def streamCtx (imp : Bool) (window tag nonce : Nat) : Nat :=
  imp.toNat + window * 2 ^ 8 + tag * 2 ^ 32 + nonce % 2 ^ 64 * 2 ^ 64

/-- A range of lines lies in one enabled region that the port may use. -/
def State.streamRange (s : State) (p : Nat) (first count : Nat) : Bool :=
  match s.regionOf first with
  | none => false
  | some n => decide (0 < count) && decide (first + count ≤ s.rgFirst n + s.rgLines n) && !s.bit (F.RT_RG_CTL.XFER n) &&
      (s.role p == 2 || s.get (F.RT_RG_CTL.PORT n) == p)

/-- Stream Open (R317, R319): the STREAM key's derivation starts, and the reply gives the device nonce and the handle, which is the STREAM
slot. An import names its destination from the base tile to the end given. A start waits for DRBG output (R316): with the DRBG stopped, none
comes before the next start of the core domain. -/
def execStreamOpen (port : Nat) (window : Fin 16) (imp : Bool) (slot : Fin 4096) (tag : Word) (first : BitVec 38) (count : BitVec 39)
    (s : State) : Out :=
  s.regionCmd port window (fun s =>
    let w := window.val
    let x := s.keySlot slot
    if s.retired then s.mbox port .invalidSecurity Ext.LCS []
    else if !s.bit (F.RT_RG_CTL.EN w) || !s.bit (F.RT_RG_CTL.XFER w) || x.kind != 5 || x.st != 2 ||
        !s.streamRange port first.toNat count.toNat || (imp && first.toNat % 64 != 0) then s.mbox port .invalidInput 0 []
    else if !s.bit F.CE_STS.DRBG_OK then s
    else match s.keySlotFree false with
      | none => s.noSlot.mbox port .busy Ext.NO_SLOT []
      | some k =>
        let r := s.drbgTake
        let nonce := r.1 % 2 ^ 64
        let ctx := streamCtx imp w tag.toNat nonce
        let s := (r.2.keySlotTake k 6 ctx 0).derive ⟨k, .stream k, 2, some slot.val, ctx⟩
        let str : Stream := ⟨w, imp.toNat, 3, 0, k, first.toNat, count.toNat, port, 0, none, 0, 0, [], [], [], 0, tag.toNat, nonce⟩
        { s with ce.streams := s.ce.streams ++ [str] }.done port [nonce, k])

/-- The lowest free active place of eight (R317). -/
def State.streamPlace (s : State) : Option Nat :=
  (List.range 8).find? (fun k => !s.ce.streams.any (fun x => (x.st == 1 || x.st == 4) && x.place == k))

/-- A stream of the window is active (R317). -/
def State.windowBusy (s : State) (w : Nat) : Bool := s.ce.streams.any (fun x => x.window == w && (x.st == 1 || x.st == 4))

/-- A stream becomes active on a port. -/
def State.streamActive (s : State) (x : Stream) (p : Nat) (place : Nat) : State :=
  let s := s.streamMod x.slot (fun y => { y with st := if (s.keySlot y.slot).st = 2 then 1 else 4, port := p, place := place })
  s.setBit (F.RT_RG_STS.EXPORT x.window) (x.dir == 0)

/-- A command marked T that names a stream by its handle (R391). -/
def State.streamCmd (s : State) (p h : Nat) (f : State → Stream → State) : Out :=
  match s.streamBy h with
  | some x => s.regionCmd p x.window (fun s => f s x)
  | none => s.hostCmd p (fun s => s.mbox p .invalidInput 0 [])

/-- Stream Run (R320, R321): the stream runs in the background until it ends. -/
def execStreamRun (port : Nat) (handle : Fin 4096) (s : State) : Out :=
  s.streamCmd port handle (fun s x =>
    if s.hp.bg.contains port || s.windowBusy x.window then s.mbox port .busy 0 []
    else match s.streamPlace with
      | some k => if x.st = 3 then (s.bgStart port).streamActive x port k else s.mbox port .invalidInput 0 []
      | none => s.mbox port .busy 0 [])

/-- The lifecycle state allows a record's form (Table 10.1, R324). -/
def State.formOk (s : State) (wrapped : Bool) : Bool := s.get F.CE_STS.LCS == 0 || (s.get F.CE_STS.LCS == 1 && wrapped)

/-- A hash subkey to a power. -/
def ghPow (h : BitVec 128) : Nat → BitVec 128
  | 0 => (1 : BitVec 128) <<< 127
  | n + 1 => ghMul (ghPow h n) h

/-- GHASH accumulator of an import's chunk in progress (R321, Table 10.9): the terms of the ciphertext lines that have arrived. DESIGN CHOICE:
each stands at its place in a chunk of 16,384 lines, since LEN comes with the trailer only (notes/assumptions/60). -/
def State.streamHash (s : State) (x : Stream) : BitVec 128 :=
  let f := x.chunk % s.frames x.window
  let k := s.keySlot x.slot
  if x.dir = 0 then 0
  else (List.range 16384).foldl (fun (a : BitVec 128) n =>
    if x.seen.contains (frameLines * f + n) then
      let c := s.streamLine x (frameLines * f + n) ^^^ gcmStream k.key (chunkIv x.chunk) n
      a ^^^ byteSwap (ghMul (byteSwap (ghash k.h (lineBlocks c))) (ghPow (byteSwap k.h) (65533 - 4 * n)))
    else a) 0

/-- Numbers of the ciphertext lines of an import's chunk in progress that have arrived. -/
def State.streamSeen (s : State) (x : Stream) : List Nat :=
  let f := x.chunk % s.frames x.window
  if x.dir = 0 then [] else (List.range 16384).filter (fun n => x.seen.contains (frameLines * f + n))

/-- The 2,176 bytes of a stream-state record (Table 10.9), of the stream's next save. -/
def State.recordBytes (s : State) (x : Stream) (wrapped : Bool) : List (BitVec 8) :=
  let seen := s.streamSeen x
  leBytes 16 s.ce.bootNonce ++ leBytes 4 (wrapped.toNat + 2 ^ 8 * x.dir + 2 ^ 16 * x.window) ++ leBytes 4 x.slot ++ leBytes 4 (x.saves + 1) ++
    leBytes 8 x.chunk ++ leBytes 4 seen.length ++ List.replicate 24 0 ++ leBytes 16 (s.streamHash x).toNat ++
    leBytes 2048 (seen.foldl (fun m n => m + 2 ^ n) 0) ++ List.replicate 48 0

/-- Bytes as 32-bit words of a reply, the lowest byte first. -/
def wordsOf (l : List (BitVec 8)) : List Nat :=
  (List.range (l.length / 4)).map (fun j => ((l.drop (4 * j)).take 4).foldr (fun (b : BitVec 8) n => b.toNat + 256 * n) 0)

/-- Words of a stream-state record: in the clear, or wrapped with AES-KW under the WRAP key (R324). -/
def State.streamRecord (s : State) (x : Stream) (wrapped : Bool) : List Nat :=
  let ws := wordsOf (s.recordBytes x wrapped)
  if wrapped then
    (kwWrap (s.keySlot 2).key ((List.range 272).map (fun k => BitVec.ofNat 64 (ws.getD (2 * k) 0 + 2 ^ 32 * ws.getD (2 * k + 1) 0)))).flatMap
      (fun b => [b.toNat % 2 ^ 32, b.toNat / 2 ^ 32])
  else ws

/-- Stream Save (R324): an active stream is parked, its place becomes free, and the running command ends with PARKED. No more than 64 streams
are parked: a further save is refused with Busy. -/
def execStreamSave (port : Nat) (handle : Fin 4096) (wrapped : Bool) (s : State) : Out :=
  s.streamCmd port handle (fun s x =>
    if !s.formOk wrapped then s.mbox port .invalidSecurity Ext.LCS []
    else if x.st ≠ 1 then s.mbox port .invalidInput 0 []
    else if 64 ≤ (s.ce.streams.filter (fun (y : Stream) => y.st == 2)).length then s.mbox port .busy 0 []
    else
      let ws := s.streamRecord x wrapped
      let s := if wrapped then s.keyUse 2 else s
      let s := s.streamMod x.slot (fun y => { y with st := 2, saves := y.saves + 1 })
      let s := s.setBit (F.RT_RG_STS.EXPORT x.window) false
      (s.bgDone x.port .aborted Ext.PARKED []).done port ws)

/-- The 544 words of a record that a host presents: in the clear, or unwrapped; `none` when the unwrap does not verify (R325). -/
def State.recordOpen (s : State) (rec : List Word) : Option (List Nat) :=
  if rec.length = 544 then some (rec.map (fun w => w.toNat))
  else (kwUnwrap (s.keySlot 2).key ((List.range 273).map (fun k =>
      BitVec.ofNat 64 ((rec.getD (2 * k) 0).toNat + 2 ^ 32 * (rec.getD (2 * k + 1) 0).toNat)))).map (fun l =>
    l.flatMap (fun b => [b.toNat % 2 ^ 32, b.toNat / 2 ^ 32]))

/-- Stream Restore (R325): the checks in order; the first that fails leaves the stream parked. A record is 2,176 bytes in the clear or 2,184
wrapped; the reply of a failed check gives its number. -/
def execStreamRestore (port : Nat) (rec : List Word) (s : State) : Out :=
  s.hostCmd port (fun s =>
    if rec.length ≠ 544 ∧ rec.length ≠ 546 then s.mbox port .invalidInput 0 []
    else if !s.formOk (rec.length == 546) then s.mbox port .invalidSecurity Ext.LCS []
    else match s.recordOpen rec with
      | none => s.mbox port .invalidInput 0 [2]
      | some ws =>
        let boot := ws.getD 0 0 + 2 ^ 32 * ws.getD 1 0 + 2 ^ 64 * ws.getD 2 0 + 2 ^ 96 * ws.getD 3 0
        if boot ≠ s.ce.bootNonce then s.mbox port .invalidInput 0 [3]
        else match (s.streamBy (ws.getD 5 0 % 4096)).filter (fun x => x.st == 2 && x.saves == ws.getD 6 0) with
          | none => s.mbox port .invalidInput 0 [4]
          | some x =>
            if s.role port ≠ 2 ∧ s.get (F.RT_RG_CTL.PORT x.window) ≠ port then s.mbox port .unsupported Ext.ROLE []
            else match (if s.windowBusy x.window || s.hp.bg.contains port then none else s.streamPlace) with
              | none => s.mbox port .busy 0 [5]
              | some k => (s.bgStart port).streamActive x port k)

/-- Stream Abort (R323): RESULT 6. -/
def execStreamAbort (port : Nat) (handle : Fin 4096) (s : State) : Out :=
  s.streamCmd port handle (fun s x => (s.streamAbort x).done port [])

/-! ### Roll book and parameters -/

/-- The eight words of a Roll book slot; REPEAT of the open record is RB_OPEN_REPEAT (R489). -/
def State.rbSlot (s : State) (slot : Nat) : List Nat :=
  (List.range 8).map (fun k =>
    if k = 1 ∧ s.rb.opened.any (fun o => o.2 == some slot) then s.num R.RB_OPEN_REPEAT
    else (sget erasedWord s.pst.words (8 * slot + k)).toNat)

/-- Roll Book Read: up to 256 written slots from the first asked for, in ring order. -/
def execRollBookRead (port : Nat) (first : Fin 8192) (count : Fin 257) (s : State) : Out :=
  s.mgrCmd port (fun s =>
    let off := (first.val + 8192 - s.num R.RB_HEAD % 8192) % 8192
    let n := min count.val (s.num R.RB_COUNT - off)
    s.done port ((List.range n).flatMap (fun k => s.rbSlot ((first.val + k) % 8192))))

/-- Roll Book Archive and Clear (R491): the open record closes, the head moves, area 4 is written, and the freed rows are erased. -/
def execRollBookArchiveAndClear (port : Nat) (last : Fin 8192) (s : State) : Out :=
  s.mgrCmd port (fun s =>
    let head := s.num R.RB_HEAD
    let n := (last.val + 8192 - head % 8192) % 8192 + 1
    if s.hp.bg.contains port || s.rb.clearing.isSome then s.mbox port .busy 0 []
    else if s.num R.RB_COUNT < n then s.mbox port .invalidInput 0 []
    else
      let s := (s.bgStart port).rbClose
      let rows := (List.range (n / 8)).map (fun k => (head / 8 + k) % 1024)
      if rows.isEmpty then s.bgDone port .success 0 []
      else
        let new := (head / 8 + n / 8) % 1024
        let s := ((s.wrN R.RB_HEAD (8 * new)).setBit F.RB_STS.CLEARING true).pstAdd (.record 4 [BitVec.ofNat 32 new])
        let s := { s with rb.clearing := some (rows, n / 8, last), hp.archiver := some port }
        rows.foldl (fun s r => s.pstAdd (.pingPong r)) s)

/-- Parameter Read: up to 2,048 PST words (R475). -/
def execParameterRead (port : Nat) (addr : BitVec 17) (count : Fin 2049) (s : State) : Out :=
  s.mgrCmd port (fun s =>
    if 2 ^ 17 < addr.toNat + count.val then s.mbox port .invalidInput 0 []
    else s.done port ((List.range count).map (fun k => (sget erasedWord s.pst.words (addr.toNat + k)).toNat)))

/-- Draw `n` free words. -/
def State.freeWords (s : State) : Nat → List Word × State
  | 0 => ([], s)
  | n + 1 => let r := State.freeWords s n; (r.1 ++ [BitVec.ofNat 32 (r.2.free 32)], r.2.drawn)

/-- Parameter Write (R482): a new cell of one configuration record, with its other words kept. The words that an empty record stands
for are the image's, and free here. -/
def execParameterWrite (port : Nat) (addr : BitVec 17) (words : List Word) (s : State) : Out :=
  s.mgrCmd port (fun s =>
    let row := addr.toNat / 64
    let n := addr.toNat % 64
    if row < 1446 ∨ 1461 < row ∨ words = [] ∨ 16 < words.length ∨ 62 < n + words.length then s.mbox port .invalidInput 0 []
    else
      let r := (row - 1446) / 2
      let b := match s.configOf r with
        | some d => (d, s)
        | none => s.freeWords 62
      let data := b.1.take n ++ words ++ b.1.drop (n + words.length)
      (b.2.pstAdd (.config r data false)).done port [])

end Sys2Proof.Machine
end

