-- ==== Sys2Proof/Machine/ResetOps.lean ====
section
/-! DEFINITION. The core domain leaving and entering service: what each reset of Table 19.4 reaches and what the start of the core
domain does (19_startup_reset_and_pin_states.md R554–R557; 05_on_die_caches.md R163, Table 5.7; 08_media_channels.md R247;
10_cipher_engine.md R294, R311, R325; 13_dram_channels.md R408; 14_power_and_cistern.md R441). -/

set_option autoImplicit false

namespace Sys2Proof.Machine

/-! ### The power-down record (R441, R557) -/

/-- Value of the power-down record: the newest one whose writing has been requested, else the one in PST. -/
def State.pdRecord (s : State) : Option Nat :=
  let asked := (s.pst.cur.toList ++ s.pst.queue).filterMap (fun (o : PstOp) => match o.job with
    | .status 0 v => some v
    | _ => none)
  match asked.getLast? with
  | some v => some v
  | none => s.statusWord 0

/-- Write the power-down record: 0 BOOTING, 1 RUNNING, 2 DRAIN_STARTED, 3 DRAIN_DONE, 4 CLEAN. The open Roll book record closes as it becomes
DRAIN_DONE or CLEAN (R489). -/
def State.pdWrite (s : State) (v : Nat) : State := (if 3 ≤ v then s.rbClose else s).pstAdd (.status 0 v)

/-! ### What a reset reaches -/

/-- A register that a reset of the core domain leaves as it is: the pages of the AON domain, and, where power stays, the
registers that their tables keep (R15, Table 5.7, Table 17.10). -/
def coreKept (power : Bool) (o : Nat) : Bool :=
  let pg := o / 0x1000
  pg == 0 || (decide (2 ≤ pg) && decide (pg ≤ 5)) || (decide (R.TE_BLD_PAGES ≤ o) && decide (o ≤ R.TE_BLD_MS)) ||
    (power && [R.FC_FIRST, R.FC_FIRST_TICK_LO, R.FC_FIRST_TICK_HI, R.FC_CONTAIN_CNT, R.LC_LOCK_WAYS, R.LC_LOCK_MAX, R.LC_RST_LOST].contains o)

/-- Registers of the core domain at their reset values. RT_STS.MARGIN_LVL follows the margins, which a reset with the rails on leaves as
they are (R43, R432), and a port stays in Viral until its PERST_N (R382, Table 17.8). -/
def State.coreRegs (s : State) (power : Bool) : State :=
  let regs := skeep s.regs (coreKept power)
  let regs := resetRegs.foldl (fun (r : Sparse Word) (e : Nat × Word) => if coreKept power e.1 then r else sset 0 r e.1 e.2) regs
  let t := { s with regs := regs }
  let t := if power then
      let t := (t.wr R.LC_CTL (fldPut F.LC_CTL.SAFE_DISABLE (s.rd R.LC_CTL) 0)).set F.RT_STS.MARGIN_LVL (s.get F.RT_STS.MARGIN_LVL)
      let t := (t.setBit F.LC_STS.STALE_HELD (s.bit F.LC_STS.STALE_HELD)).setBit F.LC_STS.STALE_REENABLED (s.bit F.LC_STS.STALE_REENABLED)
      (List.range 8).foldl (fun t p => t.setBit (F.HP_STS.VIRAL p) (s.bit (F.HP_STS.VIRAL p))) t
    else t
  t.setBit F.CAR_STS.TOKEN_LINE (s.bit F.CAR_STS.TOKEN_LINE)

/-- Programs and erases in flight are cut (R247, R555), and the media dies enter RESET by RST_N. -/
def State.cutMedia (s : State) : State :=
  let s := s.te.progs.foldl (fun s (p : Prog) =>
    if p.stage = .busy then (List.range 4).foldl (fun s k => if k ≤ p.page then s.mayScramble p.die p.block (p.page - k) else s) s
    else s) s
  let s := s.te.dies.foldl (fun s (x : Nat × DieCtl) => match x.2.erase with
    | some b => (List.range (s.blk x.1 b).next).foldl (fun s p => s.scramble x.1 b p) s
    | none => s) s
  s.md.foldl (fun s (x : Nat × MDie) => s.dieReset x.1 true) s

/-- Line cache across a reset (Table 5.7): kept, or cleared with the dirty lines lost counted. Ways withdrawn stay so until an AUX
power-on reset (R142). -/
def State.lcReset (s : State) (power : Bool) : State :=
  let unlocks := (s.lc.walker.toList ++ s.lc.walkQ).filter (fun (o : WalkOp) => match o.kind with | .unlock _ => true | _ => false)
  let again := unlocks.map (fun (o : WalkOp) => { o with pos := 0, way := 0, done := 0, skipped := 0, partl := false })
  let clear := !power || s.bit F.LC_CTL.INV_ON_RST
  let lost := s.lcDirty + s.lc.bufs.length
  let s := { s with lc.lost := [], lc.walker := none, lc.walkQ := again, lc.keptUncharged := !clear, lc.test := [], lc.enWait := false,
                    lc.mapcEnWait := false }
  if clear then
    let s := { s with lc.ways := [], lc.plru := [], lc.bufs := [] }.staleShow
    if power then (s.wrN R.LC_RST_LOST lost).roll 0x0401 0 7 1 lost 0 else s
  else s

/-- A media die's controller state across a reset: failed until the next AUX power-on reset (R256), retired with its
substitution; the rest is trained again. -/
def DieCtl.afterReset (x : DieCtl) : DieCtl := { DieCtl.ok with failed := x.failed, retired := x.retired, sts := x.sts }

/-- The tile stage, the map and media upkeep across a reset: what lies on media stays, what lies in DRAM stays with `dram`. -/
def State.teReset (s : State) (dram : Bool) : State :=
  let t := s.te
  { s with te := { State.reset.te with
      slots := if dram then t.slots else []
      ringNext := t.ringNext, ckpts := t.ckpts, blocks := t.blocks, media := t.media, fmt := t.fmt, subst := t.subst, wlTotal := t.wlTotal
      dies := (t.dies.map (fun (x : Nat × DieCtl) => (x.1, x.2.afterReset))).filter (fun x => x.2 != DieCtl.ok)
      nextProg := t.nextProg, nextRead := t.nextRead, nextStripe := t.nextStripe, nextDiscard := t.nextDiscard
      stripes := t.stripes.filter (fun (x : Stripe) => x.parity.isSome && !x.released)
      discards := (t.discards.filter (fun (d : Discard) => d.secure && d.accepted)).map (fun (d : Discard) =>
        { d with dst := .none, twinWait := false, blocks := d.blocks.filter (fun b => decide (b < 2 ^ 40)) }) } }

/-- A source's part of the collector across a reset of the core domain: the wire faults of the AON domain stay, and with the rails on the
fences of host ports and media channels, which return only as Table 17.6 states (R498, R507). -/
def FcSrc.afterReset (x : FcSrc) (n : Nat) (power : Bool) : FcSrc :=
  let stays := power && x.fenced && (decide (12 ≤ n) && decide (n ≤ 19) || decide (32 ≤ n) && decide (n ≤ 71))
  let y : FcSrc := if aonSrc n && x.wire then { FcSrc.idle with wire := true, word := x.word } else FcSrc.idle
  if stays then { y with fenced := true, revoked := x.revoked, fences := x.fences, stuck := x.stuck } else y

/-- Pins of the core domain as it leaves service (Table 19.6): the media dies' RST_N and the SPI pins at high impedance; a channel whose DRAM
is not kept releases its retention drivers (R559). -/
def State.pinsDown (s : State) (held : List Bool) : State :=
  let s := (List.range 40).foldl (fun s c => s.emit (.pin (.mcRstN c) none)) ((s.emit (.pin .twinAliveOut none)).emit (.pin .spi none))
  (List.range 6).foldl (fun s c => if held.getD c false then s else s.emit (.pin (.dcResetN c) none)) s

/-- The channel's DRAM keeps its contents in self-refresh across the reset (R408). -/
def State.dramHeld (s : State) (ch : Nat) : Bool := s.bit (F.DC_STS.TRAINED ch) && !s.bit (F.DC_STS.FAILED ch)

/-- The core domain leaves service (Table 19.4). `kind` is the code of BOOT_STS.LAST_RST; power stays for all but the PSQ power
cycle (5). Streams end with ABORT, requests are neither completed nor answered, the token is released. -/
def State.coreDown (s : State) (kind : Nat) : State :=
  let power := kind != 5
  let held := (List.range 6).map (fun ch => power && s.memActive && s.dramHeld ch)
  let dram := held.all id
  let ups := (List.range 8).filter (fun p => s.bit (F.HP_STS.LINK_UP p))
  let s := s.ce.streams.foldl (fun s (x : Stream) => s.streamEnd x.slot 6) s
  let s := ups.foldl (fun s p => s.hostLinkDown p) s
  let s := (s.when (s.bit F.CAR_STS.LINK_UP) (fun s => s.linkEvent false)).holdToken false
  let latched := s.dirty - (if s.bit F.LC_CTL.INV_ON_RST && s.bit F.TS_STS.BUDGET_VALID then s.lcCounted else 0)
  let s := (s.pinsDown held).cutMedia
  let s := s.lcReset power
  let lcKept := power && !s.bit F.LC_CTL.INV_ON_RST
  let s := (s.teReset dram).coreRegs power
  let s := s.setBit F.LC_STS.KEPT lcKept
  let s := (List.range 6).foldl (fun s ch => s.when (held.getD ch false) (fun s => s.setBit (F.DC_STS.SELF_REF ch) true)) s
  let s := if dram then
      (((s.setBit F.CAR_STS.BMAP_VALID s.tw.bmapOn).setBit F.CAR_STS.FLIST_VALID (!s.tw.flist.isEmpty))).bmapShow
    else s
  let w := s.tw
  State.alertShow { s with
    dom := { s.dom with coreUp := false, memActive := false }
    rt := State.reset.rt
    ce := { State.reset.ce with
      drbg := s.ce.drbg + 1
      slots := if power then s.ce.slots.filter (fun (x : Nat × KeySlot) => decide (x.1 < 2)) else [] }
    tw := { State.reset.tw with
      bmapOn := dram && w.bmapOn, bmap := if dram then w.bmap else [], flist := if dram then w.flist else [], pull := w.pull }
    hp := { State.reset.hp with
      ext := s.hp.ext, otherPort := s.hp.otherPort, fwImg := s.hp.fwImg, fwNext := s.hp.fwNext, psrc := s.hp.psrc, perst := s.hp.perst
      lost := List.range 8 }
    dc := State.reset.dc
    mcTry := []
    sir := { State.reset.sir with
      refDef := s.sir.refDef, refPages := s.sir.refPages, refPasses := s.sir.refPasses, errOk := s.sir.errOk, errUe := s.sir.errUe }
    fc := { State.reset.fc with
      src := (s.fc.src.map (fun (x : Nat × FcSrc) => (x.1, x.2.afterReset x.1 power))).filter (fun (x : Nat × FcSrc) => x.2 != FcSrc.idle)
      aonSeen := s.fc.aonSeen, contains := if power then s.fc.contains else [] }
    hk := { s.hk with coreSecs := 0 }
    arch := { s.arch with retCnt := 0, hold := 0 }
    mq := []
    tst := { State.reset.tst with jtag := if power then s.tst.jtag else 1 }
    boot := { s.boot with
      jtag := power && s.boot.jtag
      resetReq := false, kept := dram && lcKept, dram := dram, lcCfg := power && s.boot.lcCfg, caps := []
      latched := if power then some latched else none } }

/-- A reset of the core domain with its rails on begins (R555, R557): the dirty count is latched and BOOTING written to the
power-down record, once for a reset; PHASE returns to 1. DEV_RST_N and the register device reset, that of step 4 of a containment
included, set the tick to 0 (R20, R45); a boundary-scan instruction does so when it is left (R541). -/
def State.coreReset (s : State) (kind : Nat) : State :=
  let s := if s.coreUp then (s.coreDown kind).pdWrite 0 else s
  let s := { s.bump R.BOOT_RST_CNT with psq.drained := false, tick := if kind = 4 then s.tick else 0 }
  let s := (s.setBit F.FC_STS.HELD false).setBit F.FC_STS.CONTAINING false
  (((s.set F.BOOT_STS.PHASE 1).setBit F.BOOT_STS.HALT false).set F.BOOT_STS.CAUSE 0).set F.BOOT_STS.LAST_RST kind

/-! ### The start of the core domain -/

/-- The key that a PST record holds wrapped under the hardware unique key (R294, R345). -/
def State.unwrapRec (s : State) (area : Nat) : Option Nat :=
  match s.recordOf area with
  | none => none
  | some ws =>
    let w := (ws.zipIdx).foldl (fun n (x : Word × Nat) => n + x.1.toNat * 2 ^ (32 * x.2)) 0
    (kwUnwrap Config.huk (semiblocks 5 w)).map ofSemiblocks

/-- Keys at the start of the core domain: the known-answer tests (R326), RK, the XTS pair kept or drawn (R311), the TEST keys, the
PAIR key (R345) and the per-boot WRAP key with a fresh boot nonce (R325). -/
def State.keysStart (s : State) (kat : Bool) : State :=
  let s := { s.setBit F.CE_STS.DRBG_OK true with ce.seeds := 32 }
  let s := s.set F.CE_STS.LCS ((s.statusWord 2).getD 0)
  let s := if (s.keySlot 0).st = 2 then s else
    let a := s.drbgTake
    let b := a.2.drbgTake
    (b.2.fixSlot 0 0 a.1).fixSlot 1 0 b.1
  let s := s.setBit F.CE_STS.XTS_VALID true
  let s := [4, 5, 6, 7].foldl (fun s n => s.fixSlot n 3 (Config.testKey n)) s
  let s := match s.unwrapRec 7 with
    | some k => (s.rkLoad k).setBit F.CE_STS.RK_VALID true
    | none => s
  let s := match s.unwrapRec 8 with
    | some k => s.fixSlot 3 2 k
    | none => s
  let n := s.drbgTake
  let s := { n.2 with ce.bootNonce := n.1 % 2 ^ 128 }
  if !kat then (s.setBit F.CE_STS.KAT_FAIL true).raise 6 3 Kind.CHECK
  else if s.bit F.CE_STS.RK_VALID then (s.keySlotTake 2 1 0 0).derive ⟨2, .wrap, 1, none, s.ce.bootNonce⟩
  else s.slotCountShow

/-- Lines are kept dirty in the line cache or the tile stage (R441). -/
def State.keptDirty (s : State) : Bool :=
  (s.lc.keptUncharged && decide (0 < s.lcCounted)) || (s.boot.kept && s.te.slots.any (fun (x : Nat × Slot) => x.2.anyCounted))

/-- A dirty shutdown is counted (R62, R441, R557). -/
def State.dirtyShutdown (s : State) (words : List Nat) : State := (s.pstAdd (.counterInc 2)).moduleEvent words

/-- Halt of start-up with a cause of Table 19.8. -/
def State.bootHalt (s : State) (cause : Nat) : State := (s.setBit F.BOOT_STS.HALT true).set F.BOOT_STS.CAUSE cause

/-- The applied admission level is the highest of the guard's, the throttle's and the one requested while VCORE is margined (R43);
a lower level grants forwarded credits again (R42). -/
def State.applyLevel (s : State) : State :=
  let old := s.get F.RT_STS.APPLIED_LVL
  let new := max (s.get F.RT_STS.GUARD_LVL) (max (s.get F.RT_STS.THERM_LVL) (s.get F.RT_STS.MARGIN_LVL))
  let s := s.set F.RT_STS.APPLIED_LVL new
  if new < old then s.fwdGrant else s

/-- The core domain is in service (R441): PSQ_STS.PD_LAST reads the power-down record; the walk or the clear of the tag array and the
invalidation of the map cache start, as after every reset (R162, R163, Table 5.7). -/
def State.coreRelease (s : State) : State :=
  { ((s.set F.PSQ_STS.PD_LAST (s.pdRecord.getD 4)).setBit F.LC_STS.CHECK_BUSY true).mapcInvStart with
    dom.coreUp := true, boot.upAt := s.tick.toNat }

/-- What start-up does first (R441, R543, R545): the faults that the AON domain has seen, the start-up status, the keys, the record of
the start and the new power-down record. `old` is the record that was read. -/
def State.coreBegin (s : State) (old : Option Nat) (kat : Bool) : State :=
  let s := s.fc.aonSeen.foldl (fun s n => s.bankBit (R.FC_SEEN 0) n true) s
  let s := { s with fc.aonSeen := [], sir.refStart := s.sir.refDef }
  let s := (((s.set F.BOOT_STS.PHASE 1).setBit F.BOOT_STS.FW_ALT false).setBit F.BOOT_STS.FORMAT false).setBit F.BOOT_STS.DIRTY_LOST false
  let s := (s.wrN R.CAR_PAIR_GEN (s.counter 7)).setBit F.CAR_STS.SIDE s.boot.side
  let s := (s.set F.RT_STS.THERM_LVL (s.get F.HK_STS.THERM_LVL)).applyLevel
  let s := s.keysStart kat
  let s := if !kat then s.bootHalt 5 else s
  let s := if old = some 1 ∨ old = some 2 then s.dirtyShutdown [2, old.getD 0] else s
  let s := s.roll 0x0101 0 2 (old.getD 4) (s.num R.PSQ_UP_US) 0
  s.pdWrite (if s.keptDirty then 1 else 0)

/-- The core domain is released from reset and restarts at phase 2 (R441, R543). Only a ready AON domain releases it. -/
def State.coreStart (s : State) (kat : Bool) : State :=
  if !s.dom.aon then s else s.coreRelease.coreBegin s.pdRecord kat

/-- A latched dirty count above 0 together with DRAM that was not kept counts a dirty shutdown (R557). A line cache that INV_ON_RST has
cleared, the only one that a reset with the rails on does not keep, counts none (R163). -/
def State.latchedLoss (s : State) : State :=
  match s.boot.latched with
  | none => s
  | some n =>
    let s := { s with boot.latched := none }
    if 0 < n ∧ !s.boot.dram then (s.setBit F.BOOT_STS.DIRTY_LOST true).dirtyShutdown [0, n] else s

end Sys2Proof.Machine
end

