-- ==== Sys2Proof/Machine/ThermOps.lean ====
section
/-! DEFINITION. Housekeeping readings, exclusion, and the thermal throttle level as operations over the state
(15_thermal_and_monitors.md R450–R459; 09_integrity_and_drift.md R272). -/

set_option autoImplicit false

namespace Sys2Proof.Machine

/-- Latest code of a housekeeping channel. -/
def State.hkCode (s : State) (n : Nat) : Nat := s.get (F.HK_CH.CODE n)

/-- A channel has been read, and is not excluded. -/
def State.hkLive (s : State) (n : Nat) : Bool := s.bit (F.HK_CH.VALID n) && !s.bit (F.HK_CH.EXCL n)

/-- Code of a temperature in °C (Table 15.2). -/
def tempCode (c : Nat) : Nat := (c + 64) * 16

/-! ### The thermistors (R452) -/

/-- Natural logarithm of a ratio of numbers below 2^32, in units of 2^-48: the power of two below it, and the series of the area hyperbolic
tangent of the rest. -/
def lnFix (n d : Nat) : Int :=
  let j := ((List.range 64).filter (fun k => decide (d * 2 ^ k ≤ n * 2 ^ 32))).length - 1
  let m := n * 2 ^ 80 / (d * 2 ^ j)
  let z := (m - 2 ^ 48) * 2 ^ 48 / (m + 2 ^ 48)
  let sum := (List.range 24).foldl (fun (a : Nat × Nat) k => (a.1 + a.2 / (2 * k + 1), a.2 * z / 2 ^ 48 * z / 2 ^ 48)) (0, z)
  ((j : Int) - 32) * 195103586505167 + 2 * sum.1

/-- Code of the temperature that a thermistor's raw code means (R452): Rt from the raw code, 1/T from the B equation, and the code of T in
Table 15.2. DESIGN CHOICE: the nearest code, held within 0 to 4,095, with the highest for a raw code of 0 (notes/assumptions/61). -/
def thermistorCode (b nom c : Nat) : Nat :=
  if c = 0 then 4095
  else
    let den : Int := 100 * b * 2 ^ 48 + 29815 * lnFix (10000 * c) ((4096 - c) * nom)
    if den ≤ 0 then 4095
    else min 4095 ((1600 * (b * 29815 * 2 ^ 48 : Int) - 334590 * den) / (100 * den)).toNat

/-- Reading code of a channel from its raw code: speed monitors are copied (R37, R464). -/
def State.hkConvert (s : State) (n raw : Nat) : Nat :=
  if 56 ≤ n then s.arch.mons.getD (n - 56) 0 % 2048
  else if 16 ≤ n ∧ n < 24 then thermistorCode (s.num R.HK_TH_B % 8192) (s.num R.HK_TH_NOM % 2 ^ 18) raw
  else raw

/-- On-die sensors that are not excluded. -/
def State.sensorsLive (s : State) : List Nat := (List.range 16).filter s.hkLive

/-- On-die sensors left by exclusion (R456). -/
def State.sensLeft (s : State) : Nat := ((List.range 16).filter (fun n => !s.bit (F.HK_CH.EXCL n))).length

/-- Zone z has a populated channel (R455). -/
def State.zoneUsed (s : State) (z : Nat) : Bool := (List.range 5).any (fun i => s.num (R.MC_DIES (5 * z + i)) % 16 != 0)

/-- Thermistor channels of populated zones that are not excluded. -/
def State.zonesLive (s : State) : List Nat := ((List.range 8).filter (fun z => s.zoneUsed z && s.hkLive (16 + z))).map (fun z => 16 + z)

/-- The channel of a list with the highest code, the first of equals. -/
def State.hottest (s : State) (l : List Nat) : Option Nat := argMax s.hkCode l

/-- Twice the median of the codes of a list of channels: the mean of the middle two where their number is even. -/
def State.median2 (s : State) (l : List Nat) : Nat :=
  let c := (l.foldl (fun (acc : List (Nat × Nat)) n => sins (s.hkCode n * 64 + n) (s.hkCode n) acc) []).map (fun x => x.2)
  let k := c.length
  if k = 0 then 0 else c.getD ((k - 1) / 2) 0 + c.getD (k / 2) 0

/-- Orthogonal neighbours of a sensor in the 4 × 4 grid (Table 15.1). -/
def gridNext (n : Nat) : List Nat :=
  let r := n / 4
  let c := n % 4
  (if 0 < r then [n - 4] else []) ++ (if r < 3 then [n + 4] else []) ++ (if 0 < c then [n - 1] else []) ++ (if c < 3 then [n + 1] else [])

/-- Distance of twice a code from twice a median. -/
def apart (a b : Nat) : Nat := max a b - min a b

/-- HK_HOT (Table 15.8). -/
def State.hotShow (s : State) : State :=
  let d := match s.hottest s.sensorsLive with | some n => s.hkCode n + n * 4096 | none => 0
  let z := match s.hottest s.zonesLive with | some n => s.hkCode n * 65536 + (n - 16) * 2 ^ 28 | none => 0
  s.wrN R.HK_HOT (d + z)

/-- Band of a zone temperature as Table 9.5 states it: a rise at once, a fall once the reading is 2 °C below the band's lower
limit. -/
def nextBand (old code : Nat) : Nat :=
  let up := if tempCode 70 ≤ code then 3 else if tempCode 55 ≤ code then 2 else if tempCode 40 ≤ code then 1 else 0
  let down := if tempCode 68 ≤ code then 3 else if tempCode 53 ≤ code then 2 else if tempCode 38 ≤ code then 1 else 0
  if old < up then up else if down < old then down else old

/-- Exclude a channel (R456); a zone whose thermistor is excluded is in band B3. -/
def State.exclude (s : State) (n : Nat) : State :=
  if s.bit (F.HK_CH.EXCL n) then s
  else
    let s := (s.setBit (F.HK_CH.EXCL n) true).setBit ⟨R.HK_EXCL, n, 1⟩ true
    let s := ((s.bump R.HK_EXCL_CNT).raise 3 1 Kind.EXT).roll 0x0203 0 3 n (s.hkCode n) 0
    let s := s.moduleEvent [3, n, s.hkCode n]
    let s := if 16 ≤ n then s.setBand (n - 16) 3 else s
    if s.sensLeft < 12 ∧ !s.bit F.HK_STS.FEW_SENS then (s.setBit F.HK_STS.FEW_SENS true).raise 3 2 Kind.EXT else s

/-- A reading deviates or not: three consecutive rounds exclude the channel (R454, R455). -/
def State.oddRound (s : State) (n : Nat) (bad : Bool) : State :=
  let k := if bad then sget 0 s.hk.odd n + 1 else 0
  if 3 ≤ k then { s with hk.odd := serase s.hk.odd n }.exclude n else { s with hk.odd := sset 0 s.hk.odd n k }

/-- The cross-check of a reading (R452, R454, R455). -/
def State.crossCheck (s : State) (n raw : Nat) : State :=
  if s.bit (F.HK_CH.EXCL n) then s
  else if n < 16 then
    let near := (gridNext n).filter s.hkLive
    let ref := if near.length < 2 then s.sensorsLive else near
    s.oddRound n (decide (2 * 192 < apart (2 * s.hkCode n) (s.median2 ref)))
  else if n < 24 && s.zoneUsed (n - 16) then
    if 4064 ≤ raw ∨ raw ≤ 32 then (s.setBit (F.HK_CH.FAULT n) true).exclude n
    else (s.setBit (F.HK_CH.FAULT n) false).oddRound n (decide (2 * 400 < apart (2 * s.hkCode n) (s.median2 s.zonesLive)))
  else s

/-! ### The rate of rise (R459) -/

/-- Sum of the last four readings of a sensor at a place of its list. -/
def sum4 (l : List Nat) (k : Nat) : Nat := ((l.drop k).take 4).foldl (fun a x => a + x) 0

/-- Width of a sensor's window in rounds: rounds since A_0, 125 at most. -/
def rorWidth (l : List Nat) : Nat := min 125 (l.length - 4)

/-- A_k − A_(k−w) of a sensor, in 1/64 °C. -/
def rorRise (l : List Nat) : Int := (sum4 l 0 : Int) - sum4 l (rorWidth l)

/-- A sensor rises faster than a limit in 0.1 °C/s. -/
def rorAbove (l : List Nat) (lim : Nat) : Bool :=
  decide (0 < rorWidth l) && decide ((512 * lim * rorWidth l : Nat) < rorRise l * 10000) && decide (16 ≤ rorRise l)

/-- A sensor's rate in 0.01 °C/s. -/
def rorRate (l : List Nat) : Int := rorRise l * 100000 / (512 * (rorWidth l : Int))

/-- Readings of a sensor, newest first. -/
def State.pastOf (s : State) (n : Nat) : List Nat := sget [] s.hk.past n

/-- A rate condition above a limit holds for some non-excluded sensor. -/
def State.rorHolds (s : State) (lim : Nat) : Bool :=
  s.bit F.HK_STS.ARMED && s.sensorsLive.any (fun n => rorAbove (s.pastOf n) lim)

/-- HK_ROR: the highest current rate and its sensor. -/
def State.rorShow (s : State) : State :=
  let l := s.sensorsLive.filter (fun n => decide (0 < rorWidth (s.pastOf n)))
  if s.bit F.HK_STS.ARMED then
    match l with
    | [] => s
    | a :: t =>
      let n := t.foldl (fun (b n : Nat) => if rorRate (s.pastOf b) < rorRate (s.pastOf n) then n else b) a
      s.wrN R.HK_ROR (((rorRate (s.pastOf n)) % 65536).toNat + n * 65536)
  else s

/-! ### The throttle (R458) -/

/-- Levels of the conditions of Table 15.4. -/
def condLevel (c : Nat) : Nat := [1, 2, 3, 1, 2, 2, 3].getD c 0

/-- A condition of Table 15.4 holds at the latest readings. -/
def State.condHolds (s : State) (c : Nat) : Bool :=
  let hot := fun (f : Fld) => match s.hottest s.sensorsLive with | some n => decide (tempCode (s.get f) ≤ s.hkCode n) | none => false
  match c with
  | 0 => hot F.HK_THR.L1
  | 1 => hot F.HK_THR.L2
  | 2 => hot F.HK_THR.L3
  | 3 => s.rorHolds (s.num R.HK_ROR_LIM % 256)
  | 4 => s.rorHolds (2 * (s.num R.HK_ROR_LIM % 256))
  | 5 => match s.hottest s.zonesLive with | some n => decide (tempCode (s.num R.HK_MZ_THR % 256) ≤ s.hkCode n) | none => false
  | _ => (List.range 6).any (fun ch => s.bit ⟨R.DC_MR4 ch, 3, 1⟩)

/-- A condition's release condition holds at the latest readings. DEDUCED: the 1 s without the MR4 indication is the 125 rounds of R458, not
followed by 125 more (notes/assumptions/61). -/
def State.condFree (s : State) (c : Nat) : Bool :=
  let cold := fun (f : Fld) => match s.hottest s.sensorsLive with | some n => decide (s.hkCode n < tempCode (s.get f) - 48) | none => true
  match c with
  | 0 => cold F.HK_THR.L1
  | 1 => cold F.HK_THR.L2
  | 2 => cold F.HK_THR.L3
  | 5 => match s.hottest s.zonesLive with | some n => decide (s.hkCode n < tempCode (s.num R.HK_MZ_THR % 256) - 48) | none => true
  | _ => !s.condHolds c

/-- A condition. -/
def State.cond (s : State) (c : Nat) : ThermCond := sget ⟨false, 0⟩ s.hk.conds c

/-- Store a condition. -/
def State.setCond (s : State) (c : Nat) (x : ThermCond) : State := { s with hk.conds := sset ⟨false, 0⟩ s.hk.conds c x }

/-- Highest level called for. -/
def State.thermWant (s : State) : Nat := (List.range 7).foldl (fun m c => if (s.cond c).on then max m (condLevel c) else m) 0

/-- THERM_LVL takes a level, at the router as well. -/
def State.setTherm (s : State) (n : Nat) : State :=
  let old := s.get F.HK_STS.THERM_LVL
  if old = n then s
  else
    let s := (s.set F.HK_STS.THERM_LVL n).set F.RT_STS.THERM_LVL n
    let s := s.when (s.bit F.HK_CTL.EVT_EN || old == 0) (fun s => s.roll 0x0200 0 3 old n 0)
    let s := s.when (old == 0) (fun s => s.bump R.HK_THROT_CNT)
    let s := s.when (n == 3) (fun s => s.moduleEvent [3, 3])
    s.applyLevel

/-- THERM_LVL follows the levels called for: up at once, and down by one at once when the highest falls below it. -/
def State.throttle (s : State) : State :=
  let lvl := s.get F.HK_STS.THERM_LVL
  let want := s.thermWant
  if lvl < want then { s.setTherm want with hk.below := 0 }
  else if want = lvl then { s with hk.below := 0 }
  else if s.hk.below = 0 then { s.setTherm (lvl - 1) with hk.below := if want < lvl - 1 then 1 else 0 }
  else s

/-- The flags of HK_STS that show conditions in force. -/
def State.condShow (s : State) : State :=
  (s.setBit F.HK_STS.ROR ((s.cond 3).on || (s.cond 4).on)).setBit F.HK_STS.MZ_HOT (s.cond 5).on

/-- Take up every condition that holds, and restart the release of every one that is not free. -/
def State.condsNow (s : State) : State :=
  ((List.range 7).foldl (fun s c =>
    if s.condHolds c then s.setCond c ⟨true, 0⟩
    else if (s.cond c).on && !s.condFree c then s.setCond c ⟨true, 0⟩ else s) s).condShow.throttle

/-- A round ends: conditions free for 125 rounds are released, and the rounds below THERM_LVL are counted. -/
def State.condsRound (s : State) : State :=
  let s := (List.range 7).foldl (fun s c =>
    let x := s.cond c
    if x.on && s.condFree c then (if 125 ≤ x.rel + 1 then s.setCond c ⟨false, 0⟩ else s.setCond c ⟨true, x.rel + 1⟩) else s) s
  let s := s.condShow.throttle
  if 0 < s.hk.below then { s with hk.below := s.hk.below + 1 } else s

/-- The rate check is disarmed (R459): its conditions are dropped at once, and THERM_LVL takes the level of the others. -/
def State.rorDisarm (s : State) : State :=
  let s := { s with hk.rounds := 0, hk.past := [], hk.conds := serase (serase s.hk.conds 3) 4 }
  let s := (s.setBit F.HK_STS.ARMED false).condShow
  { s.setTherm s.thermWant with hk.below := 0 }

/-- Temperature bin of a code (Table 7.4). -/
def histBin (code : Nat) : Nat := if code < tempCode 25 then 0 else min 15 ((code - tempCode 20) / 80)

end Sys2Proof.Machine
end

