-- ==== Sys2Proof/Machine/Translation.lean ====
section
/-! DEFINITION. The commands of the translation engine (06_translation_layer.md). -/

set_option autoImplicit false

namespace Sys2Proof.Machine

/-- What one journal entry makes of a tile's entry (R175, R192). -/
def replayOne (t : Nat) (e : TEntry) : JEntry → TEntry
  | .tmap t' e' => if t' = t then e' else e
  | .tpoison t' b => if t' = t then { e with ptile := b } else e
  | .discard first n _ _ => if first ≤ t ∧ t < first + n then ⟨3, false, false, none, 0⟩ else e
  | _ => e

/-- A tile's entry from its newest checkpoint and every newer journal entry, flushed or not (R175). -/
def State.replayEntry (s : State) (t : Nat) : TEntry :=
  let ck := (sget [] s.te.ckpts (mapSegment t)).head?
  let base := match ck with | some c => s.segEntry [] c.pages t | none => TEntry.unmapped
  let from' := match ck with | some c => c.jseq | none => 0
  let ents := ((s.ringRead []).filter (fun (x : Nat × JEntry) => decide (from' ≤ x.1))).map (fun x => x.2) ++ s.te.jbuf
  ents.foldl (replayOne t) base

/-- Writes that waited for the repair of a tile's entry go on (R175). -/
def State.wakeRepair (s : State) (t : Nat) : State :=
  { s with rt.reqs := s.rt.reqs.map (fun (r : Req) =>
      if r.stage == Stage.repair && tileOf r.line == t then { r with stage := .placing } else r) }.pump

/-- The repair of an uncorrectable tile-map entry ends (R175): from the tile's slot, else from checkpoint and journal; with
no source the tile is whole-poisoned. The tile's poison-table buckets that could not be read are rebuilt alike (R410). -/
def execMapRepairDone (tile : BitVec 32) (source : Bool) (s : State) : Out :=
  let t := tile.toNat
  let s := { s with te.badBuckets := setDel (bucket1 t) (setDel (bucket2 t) s.te.badBuckets) }
  if s.te.bad.contains t then
    let s := { s with te.bad := setDel t s.te.bad }
    let s := (s.bump R.TE_MAP_REPAIR).setBit F.TE_STS.REPAIR_BUSY (!s.te.bad.isEmpty)
    let pl := s.ptMask t != 0
    match s.te.slots.find? (fun x => x.2.tile == some t && !x.2.doomed) with
    | some (n, x) =>
      let st := if x.anyCounted then 2 else if x.loc.isSome then 1 else 0
      .next ((s.setEntry t ⟨st, pl, (s.entry t).ptile, x.loc, n⟩).wakeRepair t)
    | none =>
      if source then .next ((s.setEntry t { s.replayEntry t with pline := pl, slot := 0 }).wakeRepair t)
      else .next (((s.ptWhole t).roll 0x0502 0 8 1 t 0).wakeRepair t)
  else .next s

/-- A PTILE tile becomes line entries once the table has room for every line still poisoned (R72, R178). -/
def execPtileConvert (tile : BitVec 32) (s : State) : Out :=
  let t := tile.toNat
  let left := (List.range 64).filter (fun k => !(sget 0 s.te.since t).getLsbD k)
  if (s.entry t).ptile ∧ s.num R.TE_PT_LINES + left.length ≤ 65536 ∧ (s.ptMask t ≠ 0 ∨ (s.ptPlace t).isSome ∨ left = []) then
    .next (left.foldl (fun s k => s.poisonLine (64 * t + k)) (s.ptWholeClear t))
  else .next s

/-- An increment of PAGE_SEQ_HW has completed in PST (R189): HW rises and the programs that waited go on. -/
def execSeqHwRaised (s : State) : Out :=
  let hw := s.counter 3 * 2 ^ 20
  if s.seqHw < hw then
    let n := (hw - s.seqHw) / 2 ^ 20
    let s := { (s.wrN R.TE_SEQ_HW_LO hw).wrN R.TE_SEQ_HW_HI (hw / 2 ^ 32) with te.hwAsked := s.te.hwAsked - n }
    .next (s.dramLedger.seqMarks.progNumbers).pump
  else .next s

/-- TE_JRN_INT has passed since the last flush (R194). -/
def execJournalIntervalExpiry (s : State) : Out := .next (if s.te.jbuf.isEmpty then s else s.journalFlush)

/-- TE_CTL.FLUSH (R194, R204). -/
def execTeFlush (path : Path) (s : State) : Out :=
  let s := s.regAcc 8
  .next (if s.isManager path && !s.te.jbuf.isEmpty then s.journalFlush else s)

/-- TE_CTL.CKPT_ALL (R196, R204): reads 1 until every changed segment has its checkpoint. -/
def execTeCkptAll (path : Path) (s : State) : Out :=
  let s := s.regAcc 8
  .next (if s.isManager path then s.ckptAll else s)

/-- The checkpoint writer takes up a changed segment (R195); its pages are programs like others. It works once the map is ready. -/
def execCheckpointWrite (seg : Nat) (s : State) : Out :=
  .next (if s.bit F.TE_STS.MAP_READY && !s.draining then s.checkpoint seg else s)

/-- A write of TE_CNT_CLR (Table 6.12). -/
def execTeCntClr (path : Path) (v : Word) (s : State) : Out :=
  let s := s.regAcc 8
  .next (s.when (s.isManager path) (fun s =>
    (s.when (v.getLsbD 0) (fun s => s.zero [R.TE_MAP_REPAIR])).when (v.getLsbD 1) (fun s => s.zero [R.TE_JRN_FLUSH_CNT])))

end Sys2Proof.Machine
end

