-- ==== Sys2Proof/Machine/PowerOps.lean ====
section
/-! DEFINITION. The power sequencer, the Cistern, the drain and containment as operations over the state
(14_power_and_cistern.md; 15_thermal_and_monitors.md R462, R463; 17_fault_collection.md R514, R515). -/

set_option autoImplicit false

namespace Sys2Proof.Machine

/-! ### The sequencing table (R416–R418) -/

/-- Phases of Table 14.3. -/
def Ph.off : Nat := 0
def Ph.up : Nat := 1
def Ph.on : Nat := 2
def Ph.shutdown : Nat := 3
def Ph.drain : Nat := 4
def Ph.down : Nat := 5
def Ph.minOff : Nat := 6
def Ph.dischWait : Nat := 7
def Ph.lockout : Nat := 8

/-- A field of an entry's words: word, lowest bit, width (Table 14.2). -/
def entField (t : List Word) (i w lo width : Nat) : Nat := (t.getD (3 * i + w) 0).toNat / 2 ^ lo % 2 ^ width

/-- Fields of entry i of the table in force (Table 14.2). -/
def State.entEn (s : State) (i : Nat) : Nat := entField s.psq.table i 0 0 4
def State.entPg (s : State) (i : Nat) : Nat := entField s.psq.table i 0 4 4
def State.entPgUse (s : State) (i : Nat) : Bool := entField s.psq.table i 0 8 1 == 1
def State.entCharger (s : State) (i : Nat) : Bool := entField s.psq.table i 0 9 1 == 1
def State.entPmb (s : State) (i : Nat) : Bool := entField s.psq.table i 0 10 1 == 1
def State.entVcore (s : State) (i : Nat) : Bool := entField s.psq.table i 0 11 1 == 1
def State.entCrit (s : State) (i : Nat) : Bool := entField s.psq.table i 0 12 1 == 1
def State.entVsns (s : State) (i : Nat) : Nat := entField s.psq.table i 1 8 5
def State.entVsnsUse (s : State) (i : Nat) : Bool := entField s.psq.table i 1 13 1 == 1
def State.entDisPct (s : State) (i : Nat) : Nat := entField s.psq.table i 1 24 8
def State.entNom (s : State) (i : Nat) : Nat := entField s.psq.table i 2 0 16
def State.entWin (s : State) (i : Nat) : Nat := entField s.psq.table i 2 16 8
def State.entMarg (s : State) (i : Nat) : Nat := entField s.psq.table i 2 24 8

/-- Entries of the table in force. -/
def State.entCount (s : State) : Nat := s.psq.table.length / 3

/-- No number stands twice in a list. -/
def distinct : List Nat → Bool
  | [] => true
  | x :: t => !t.contains x && distinct t

/-- The entries of a valid sequencing table (R416, R417). -/
def validTable (ws : List Word) : Option (List Word) :=
  let n := (ws.getD 0 0).toNat
  let t := (ws.drop 1).take (3 * n)
  let is := List.range n
  let f := fun (i w lo width : Nat) => entField t i w lo width
  let vc := is.filter (fun i => f i 0 11 1 == 1)
  let ch := is.filter (fun i => f i 0 9 1 == 1)
  if 1 ≤ n ∧ n ≤ 16 ∧ t.length = 3 * n ∧
      crc32c ((ws.take (3 * n + 1)).flatMap wordBytes) = (ws.getD (3 * n + 1) 0).toNat ∧
      distinct (is.map (fun i => f i 0 0 4)) ∧ distinct (is.map (fun i => f i 0 4 4)) ∧
      vc.length = 1 ∧ vc.all (fun i => f i 0 10 1 == 0 && f i 0 12 1 == 1) ∧
      ch.length ≤ 1 ∧ ch.all (fun i => f i 0 12 1 == 0) ∧
      is.all (fun i => f i 0 8 1 == 1 || f i 1 13 1 == 1) ∧
      is.foldl (fun (a : Nat) i => a + f i 0 16 8 * 100 + f i 0 24 8 * 1000) 0 ≤ 60000 then some t
  else none

/-- The table that PST's configuration record 0 holds (R418, R482). -/
def State.readTable (s : State) : Option (List Word) := (s.configOf 0).bind validTable

/-! ### Readings, snapshots, phases -/

/-- Twice the reading of an entry's sense in units of 1/4,096,000 mV (Table 15.2): code × 2,000 × HK_RS_DIV. -/
def State.senseScaled (s : State) (i : Nat) : Nat :=
  s.hkCode (24 + s.entVsns i) * 2000 * (s.num (R.HK_RS_DIV (s.entVsns i)) % 65536)

/-- An entry's sense in mV. -/
def State.senseMv (s : State) (i : Nat) : Nat := s.senseScaled i / 4096000

/-- A rail with VSNS_USE counts as discharged (R425). -/
def State.railLow (s : State) (i : Nat) : Bool :=
  !s.entVsnsUse i || (s.bit (F.HK_CH.VALID (24 + s.entVsns i)) &&
    decide (s.senseScaled i * 100 < s.entDisPct i * s.entNom i * 4096000))

/-- Every entry of the table reads discharged (R422). -/
def State.allLow (s : State) : Bool := (List.range s.entCount).all s.railLow

/-- The eight records of a snapshot (R443). -/
def State.snapshot (s : State) : List RbEvent :=
  (List.range 8).map (fun k =>
    let n := (List.range 8).foldl (fun (a : Nat) j => a + s.hk.last.getD (8 * k + j) 0 * 2 ^ (12 * j)) 0
    ⟨0x0100, 0, k, BitVec.ofNat 32 n, BitVec.ofNat 32 (n / 2 ^ 32), BitVec.ofNat 32 (n / 2 ^ 64)⟩)

/-- A Roll book record of the PSQ with a snapshot (R443). -/
def State.rollSnap (s : State) (code src p0 p1 p2 : Nat) : State :=
  s.rbEventSnap ⟨code, 0, src, BitVec.ofNat 32 p0, BitVec.ofNat 32 p1, BitVec.ofNat 32 p2⟩ s.snapshot

/-- PSQ_STS.PHASE. -/
def State.phase (s : State) : Nat := s.get F.PSQ_STS.PHASE

/-- Enter a phase, with a record where EVT_EN asks for one (R445). -/
def State.setPhase (s : State) (p : Nat) : State :=
  let old := s.phase
  (s.when (s.bit F.PSQ_CTL.EVT_EN && old != p) (fun s => s.roll 0x0108 0 2 old p 0)).set F.PSQ_STS.PHASE p |>.when (old != p) (fun s => s.pcItem 2)

/-- Drive a RAIL_EN output. -/
def State.railEn (s : State) (k : Nat) (b : Bool) : State :=
  (s.emit (.pin (.railEn k) (some b))).setBit ⟨R.PSQ_RAIL, k, 1⟩ b

/-- Microseconds of the tick since the sequence began. -/
def State.sinceUs (s : State) : Nat := (s.tick.toNat - s.psq.since) / 100

/-- Enter LOCKOUT (R418, R422–R424, R463). -/
def State.lockout (s : State) (cause : Nat) : State :=
  let s := (s.setPhase Ph.lockout).set F.PSQ_STS.LOCK_CAUSE cause
  { s with psq.lock := 0, psq.retry := false, psq.afterDrain := false }.rollSnap 0x0105 2 cause 0 0

/-! ### Margins (R430–R432) -/

/-- PSQ_MARG_STS and PSQ_STS.MARGIN follow the margined entries; PSQ_MARG_CTL.LVL is requested while VCORE is margined. -/
def State.margShow (s : State) : State :=
  let act := s.psq.marg.foldl (fun n (x : Nat × Int) => n + 2 ^ x.1) 0
  let s := (s.set F.PSQ_MARG_STS.ACTIVE act).setBit F.PSQ_STS.MARGIN (act != 0)
  let s := s.set F.RT_STS.MARGIN_LVL (if s.psq.marg.any (fun (x : Nat × Int) => s.entVcore x.1) then s.get F.PSQ_MARG_CTL.LVL else 0)
  s.applyLevel

/-- Put PMBus transactions in the queue. -/
def State.pmbPut (s : State) (l : List PmbOp) : State := { s with psq.pmb := s.psq.pmb ++ l }

/-- VCORE's set point with its margin, held within 0.68–0.85 V (R431). -/
def vcoreTarget (vset : Nat) (off : Int) : Nat := (max 680 (min 850 ((vset : Int) + 5 * off))).toNat

/-- Write VCORE over AVSBus. -/
def State.vcoreWrite (s : State) (mv : Nat) : State :=
  { (s.emit (.avs 0 mv)).set F.PSQ_VCORE.VCORE mv with arch.pend := some (mv, false) }

/-- One margin returns to nominal. -/
def State.margDrop (s : State) (e : Nat) : State :=
  if s.psq.marg.any (fun (x : Nat × Int) => x.1 == e) then
    let s := { s with psq.marg := s.psq.marg.filter (fun (x : Nat × Int) => x.1 != e) }
    let s := if s.entVcore e then s.vcoreWrite s.arch.vset else (s.pmbPut [⟨e, 0x01, 0x80⟩]).setBit F.PSQ_MARG_STS.BUSY true
    s.margShow
  else s

/-- Every margin returns to nominal (R432). -/
def State.margClear (s : State) : State := (s.psq.marg.map (fun (x : Nat × Int) => x.1)).foldl State.margDrop s

/-! ### The thermal restart history (R463) -/

/-- OP_TIME of the last thermal restarts, oldest first, and LOCKED; the words are private to the device (R481): OP_TIME + 1. -/
def State.restarts (s : State) : List Nat × Bool :=
  match s.recordOf 5 with
  | none => ([], false)
  | some ws => (((ws.take 3).filter (fun w => w != 0)).map (fun w => w.toNat - 1), ws.getD 3 0 != 0)

/-- Write the history. -/
def State.restartsPut (s : State) (l : List Nat) (locked : Bool) : State :=
  s.pstAdd (.record 5 (padWords 3 (l.map (fun t => BitVec.ofNat 32 (t + 1))) ++ [if locked then 1 else 0]))

/-- Restarts within the last 24 h of operating time. -/
def State.recent (s : State) (l : List Nat) : Nat := (l.filter (fun t => decide (s.counter 1 < t + 240))).length

/-- HK_STS.RST_24H. -/
def State.rst24 (s : State) : State := s.set F.HK_STS.RST_24H (min 3 (s.recent s.restarts.1))

/-- A thermal restart at step 1 of its power-up (R462). -/
def State.thermRestart (s : State) : State :=
  if s.bit F.HK_STS.RST_WAIT then
    let l := s.restarts.1
    let l := (l.drop (l.length - 2)) ++ [s.counter 1]
    let n := min 3 (s.recent l)
    let s := ((s.setBit F.HK_STS.RST_WAIT false).pstAdd (.counterInc 5)).restartsPut l s.restarts.2
    (s.set F.HK_STS.RST_24H n).roll 0x0204 0 3 n 0 0
  else s

/-- What a trip or a 125 °C removal finds in the history: LOCKOUT with cause 3 comes at the end of MIN_OFF (R463). DESIGN CHOICE: where no MIN_OFF
follows it comes at once, and a LOCKOUT of another cause takes cause 3 (notes/assumptions/61). -/
def State.restartHold (s : State) : State :=
  let s := { s.setBit F.HK_STS.RST_WAIT true with psq.offSince := false, hk.cool := 0 }
  let h := s.restarts
  if h.1.length ≥ 3 ∧ s.recent h.1 ≥ 3 then
    let s := (s.restartsPut h.1 true).roll 0x0205 0 3 0 0 0
    if s.phase = Ph.off ∨ s.phase = Ph.dischWait then s.lockout 3
    else if s.phase = Ph.lockout then s.set F.PSQ_STS.LOCK_CAUSE 3
    else { s with psq.lock := 3 }
  else s

/-! ### Power-up and power-down (R419–R425) -/

/-- Step 1 of Table 14.5 with a valid table and rails discharged. -/
def State.startUp (s : State) : State :=
  let s := { (s.setPhase Ph.up).setBit F.PSQ_STS.ON_KEPT false with
    psq.on := [], psq.good := 0, psq.offReq := false, psq.offSince := false, psq.afterDrain := false, psq.retry := false
    psq.drained := false, psq.step := 0, psq.short := false, psq.toDown := false, psq.marg := [], psq.linear := [], psq.pmb := []
    psq.pmbTry := false, psq.outs := [], psq.since := s.tick.toNat, arch.vset := 800, arch.vack := 800 }
  let s := ((s.set F.PSQ_STS.STEP 0).margShow).vcoreWrite 800
  let pmb := (List.range s.entCount).filter s.entPmb
  (s.pmbPut (pmb.flatMap (fun e => [⟨e, 0x03, 0⟩, ⟨e, 0x20, 0⟩]))).thermRestart

/-- Take up a power-up: the table is read and checked (R418), and the rails must read discharged (R422). -/
def State.powerUp (s : State) : State :=
  match s.readTable with
  | none => ({ s with psq.table := [] }.setBit F.PSQ_STS.TBL_BAD true).lockout 4
  | some t =>
    let s := { s with psq.table := t }.setBit F.PSQ_STS.TBL_BAD false
    if s.allLow then s.startUp else s.setPhase Ph.dischWait

/-- A power-up is wanted: a kept request, a retry, or the end of a drain with MOD_EN high (Table 14.4). -/
def State.wantUp (s : State) : Bool :=
  s.bit F.PSQ_STS.ON_KEPT || s.psq.retry || (s.psq.afterDrain && s.bit F.PSQ_STS.MOD_EN && !s.psq.offSince)

/-- From OFF, power up when it is wanted, the input is good and no thermal restart holds it. -/
def State.tryUp (s : State) : State :=
  if s.phase = Ph.off ∧ s.wantUp ∧ s.bit F.PSQ_STS.IN_GOOD ∧ !s.bit F.HK_STS.RST_WAIT then s.powerUp else s

/-- Switch off the last entry enabled, or reach MIN_OFF (R425). -/
def State.downNext (s : State) : State :=
  match s.psq.on.getLast? with
  | some e => (s.railEn (s.entEn e) false).set F.PSQ_STS.STEP e
  | none => (s.setPhase Ph.minOff).set F.PSQ_STS.STEP 0

/-- The core rails go: what stood in the core domain is lost (Table 19.4). -/
def State.coreOff (s : State) : State :=
  if s.bit F.PSQ_STS.RAILS_UP then
    let s := (s.coreDown 5).setBit F.PSQ_STS.RAILS_UP false
    let s := ((s.bump R.BOOT_RST_CNT).set F.BOOT_STS.PHASE 0).set F.BOOT_STS.LAST_RST 5
    (s.setBit F.BOOT_STS.HALT false).set F.BOOT_STS.CAUSE 0
  else s

/-- Write the temperature histogram to PST (R457): areas 10–12, three zones of 16 words each. -/
def State.histSave (s : State) : State :=
  (List.range 3).foldl (fun s j =>
    s.pstAdd (.record (10 + j) ((List.range 48).map (fun k => BitVec.ofNat 32 (sget 0 s.hk.hist (48 * j + k))))))
    { s with hk.histSecs := 0 }

/-- DOWN begins (R425): the open Roll book record closes (R489). -/
def State.startDown (s : State) : State :=
  let s := { ((s.histSave).setPhase Ph.down).rbClose with
    psq.step := 0, psq.offReq := false, psq.thermLim := false, psq.contLim := false, te.drainMode := false }
  (s.coreOff).downNext

/-- A power-up fails at an entry (R423). -/
def State.upFail (s : State) (e : Nat) : State :=
  let n := s.psq.fails + 1
  let s := ((s.bump R.PSQ_PUP_FAIL_CNT).raise 2 2 Kind.SUPPLY).rollSnap 0x0102 2 e (s.senseMv e) 0
  if s.get ⟨R.PSQ_RETRY, 0, 2⟩ < n then { s with psq.fails := n, psq.lock := 1 }.startDown
  else { s with psq.fails := n, psq.retry := true }.startDown

/-- Step 3 of Table 14.5: RAILS_UP, ON, the core domain is released. -/
def State.railsUp (s : State) (kat : Bool) : State :=
  let s := ((s.setBit F.PSQ_STS.RAILS_UP true).setPhase Ph.on).set F.PSQ_STS.STEP 0
  let s := { (s.wrN R.PSQ_UP_US s.sinceUs).pstAdd (.counterInc 0) with
    psq.fails := 0 }
  let s := s.rorDisarm
  if s.boot.rstN || s.boot.jtag then s.set F.BOOT_STS.PHASE 1 else s.coreStart kat

/-! ### Requests in flight at a drain, a shutdown or a register reset (Table 14.9, step 2) -/

/-- Accepted requests complete: mirrored writes without their MACK, and requests that the twin will not answer any more. -/
def State.settleReqs (s : State) : State :=
  let ends := s.rt.reqs.filter (fun r => match r.stage with | .mirror _ => true | .forward => true | .failover => true | _ => false)
  let s := ends.foldl (fun s (r : Req) => match r.stage with
    | .mirror _ => s.respond r 0 false false
    | _ => if r.kind = .read then s.respond r 0 true false else (s.bump R.RT_WR_DROP_STATE).respond r 0 false true) s
  s.letAll.pump

/-- Media work of the Sirocco engine and the Tutors stops (step 3): copies and checkpoint pages that have not been issued are abandoned, and
a running erase is suspended and left. -/
def State.stopMedia (s : State) : State :=
  let gone := s.te.progs.filter (fun (p : Prog) => p.stage != PStage.busy && (match p.kind with | .copy _ => true | _ => false))
  let s := gone.foldl (fun s (p : Prog) => s.progDel p.id) s
  let s := s.te.dies.foldl (fun s (x : Nat × DieCtl) =>
    if x.2.erase.isSome && !x.2.suspended then s.dieMod x.1 (fun y => { y with suspended := true }) else s) s
  { s with te.gc := [], te.reads := s.te.reads.filter (fun (r : MRead) => match r.purpose with
    | .gather id _ _ => s.te.progs.any (fun (p : Prog) => p.id == id)
    | _ => true) }.ckptDrop

/-- Programs in flight have finished. -/
def State.mediaQuiet (s : State) : Bool := !s.te.progs.any (fun (p : Prog) => p.stage == .busy)

/-! ### Programming every counted copy (Table 14.9, step 5; Table 14.10, step 2) -/

/-- Supply a program's missing lines: left out of a drain's partial tiles, read for full ones. -/
def State.fillProg (s : State) (p : Prog) (drain : Bool) : Prog :=
  if drain then
    { p with drain := true, need := [], tiles := p.tiles.map (fun (x : Option PTile) => x.map (fun t =>
      if t.present != BitVec.allOnes 64 && !t.partl then { t with partl := true, present := t.flight, data := t.data.filter (fun e => t.flight.getLsbD e.1) }
      else t)) }
  else
    { p with need := [], tiles := p.tiles.zipIdx.map (fun (x : Option PTile × Nat) => x.1.map (fun t =>
      (p.need.filter (fun (y : Nat × Nat) => y.1 == x.2)).foldl (fun (t : PTile) (y : Nat × Nat) =>
        let l := s.lineNow (64 * t.tile + y.2)
        { t with data := sset 0 t.data y.2 (s.xtsOut (bufUnit p.buf (64 * x.2 + y.2)) (if l.2 then 0 else l.1)) }) t)) }

/-- Carry a program through to its commit in one step. -/
def State.finishProg (s : State) (id : Nat) (drain : Bool) : State :=
  match s.te.progs.find? (fun (p : Prog) => p.id == id) with
  | none => s
  | some p =>
    let full := match p.kind with | .parity _ | .ckpt _ _ => p | _ => if p.stage = .gather then s.fillProg p drain else p
    let s := { s.progMod id (fun _ => full) with
      te.reads := s.te.reads.filter (fun (r : MRead) => match r.purpose with | .gather q _ _ => q != id | _ => true) }
    let s := s.progGathered id
    match s.te.progs.find? (fun (p : Prog) => p.id == id) with
    | none => s
    | some p =>
      if p.stage = .number then s
      else
        let p' := if p.stage = .busy then p else { p with stage := .ready }
        let s := { s.progMod id (fun _ => p') with
          ce.jobs := s.ce.jobs.filter (fun (j : Nat × CipherJob) => j.2 != CipherJob.program id) }
        let s := s.issueProg p'
        match s.te.progs.find? (fun (p : Prog) => p.id == id) with
        | some q => if q.stage = PStage.busy then s.progPass q else s
        | none => s

/-- Every tile with a Dirty line becomes due. -/
def State.allDue (s : State) : State :=
  { s with te.slots := s.te.slots.map (fun (x : Nat × Slot) => if x.2.anyDirty then (x.1, { x.2 with due := true }) else x) }

/-- Program the due tiles of a die, a page at a time. -/
def State.dieProgram (drain : Bool) (s : State) (d : Nat) : State :=
  (List.range (s.dueOf d).length).foldl (fun s _ =>
    let id := s.te.nextProg
    (s.startPage d drain).finishProg id drain) s

/-- Program every tile with a Dirty line. -/
def State.programAll (s : State) (drain : Bool) : State :=
  let s := (s.te.progs.map (fun (p : Prog) => p.id)).foldl (fun s id => s.finishProg id drain) s
  (s.te.fmt ++ s.te.subst.map (fun (x : Nat × Nat) => x.2)).foldl (State.dieProgram drain) s.allDue

/-- Move one counted copy from an eviction buffer, or a dirty line of the line cache, locked ones included, to its slot; lines held
while STALE_HELD never move (R440). `none` when nothing is left or no slot can be taken. -/
def State.moveDirty (s : State) : Option State :=
  match s.lc.bufs with
  | b :: rest =>
    match s.slotPutDirty b.line b.data true with
    | some (old, s) =>
      let s := { s with lc.bufs := rest }
      some (if old = 2 ∨ old = 4 then s.release 1 else s.tsStatus)
    | none => none
  | [] =>
    if s.bit F.LC_STS.STALE_HELD then none
    else match s.lc.ways.find? (fun (w : Nat × Way) => w.2.v && w.2.d) with
      | none => none
      | some (k, w) =>
        let line := wayLine (k / 16) w
        if s.wayLost (k / 16) (k % 16) then some (s.lcLoseDirty (k / 16) (k % 16))
        else match s.slotPutDirty line w.data true with
        | some (old, s) =>
          let s := (s.setWay (k / 16) (k % 16) { w with d := false }).subCnt R.LC_DIRTY_CNT 1
          some (if old = 2 ∨ old = 4 then s.release 1 else s.tsStatus)
        | none => none

/-- Move counted copies to their slots while slots can be taken, `n` at most. -/
def State.moveDirtyN : Nat → State → State
  | 0, s => s
  | n + 1, s => match s.moveDirty with
    | none => s
    | some s => State.moveDirtyN n s

/-- Counted copies above the tile stage. -/
def State.aboveStage (s : State) : Nat := s.lc.bufs.length + s.lcDirty

/-- Rounds of moving and programming until nothing is left to move. -/
def State.drainRounds (drain : Bool) : Nat → State → State
  | 0, s => s
  | n + 1, s =>
    let m := s.aboveStage
    let s := (s.moveDirtyN m).programAll drain
    if s.aboveStage = 0 ∨ m ≤ s.aboveStage then s else State.drainRounds drain n s

/-- Program every counted copy in the order of step 5: program buffers and slot lines, then eviction buffers and dirty lines of
the line cache. -/
def State.drainAll (s : State) (drain : Bool) : State :=
  let s := s.programAll drain
  State.drainRounds drain (s.aboveStage + 1) s

/-- Close the open stripes and program their parity pages (R211). -/
def State.closeStripes (s : State) : State :=
  let ids := (s.te.stripes.filter (fun (x : Stripe) => x.parity.isNone && !x.released)).map (fun x => x.id)
  let s := ids.foldl State.stripeClose s
  let ps := s.te.progs.filter (fun (p : Prog) => match p.kind with | .parity _ => true | _ => false)
  ps.foldl (fun s (p : Prog) => s.finishProg p.id true) s

/-! ### The drain (R438–R441) -/

/-- Abort a running capacitance test (R435). -/
def State.cisAbort (s : State) : State :=
  match s.psq.test with
  | none => s
  | some _ =>
    let s := s.emit (.pin .cisTest (some false))
    let s := (List.range s.entCount).foldl (fun s e => if s.entCharger e && s.psq.on.contains e then s.railEn (s.entEn e) true else s) s
    { (s.setBit F.CIS_STS.TEST_BUSY false).setBit F.CIS_CTL.TEST false with psq.test := none }

/-- LAST_ALIVE takes the present time, in units of 16 s, once the timestamp has been set (R480). -/
def State.lastAlive (s : State) : State :=
  match s.hp.stamp with
  | none => s
  | some _ => s.pstAdd (.counterTo 6 (s.timeNow / 16000000000))

/-- Rails go down with the core domain in reset (R557): RUNNING is written, no drain runs. -/
def State.resetDown (s : State) : State := (s.pdWrite 1).startDown

/-- Step 1 of Table 14.9. During a shutdown the drain takes over at step 4 (R442) and ends in DOWN, since a started shutdown always reaches OFF
(R421). -/
def State.drainStart (s : State) (trigger : Nat) : State :=
  if s.phase ≠ Ph.on ∧ s.phase ≠ Ph.shutdown then s
  else if !s.coreUp then s.resetDown
  else if s.psq.drained then s
  else
    let beyond := s.phase == Ph.shutdown
    let early := !s.bit F.TE_STS.MAP_READY
    let s := (s.setPhase Ph.drain).cisAbort
    let s := { s with
      psq.drained := true, psq.trigger := trigger, psq.early := early, psq.short := false, psq.toDown := beyond, psq.offSince := false
      psq.afterDrain := true, psq.step := if beyond then 4 else 2, psq.since := s.tick.toNat, psq.lines0 := s.dirty
      psq.contLim := trigger == 3, te.drainMode := true, boot.resetReq := false }
    let s := if beyond then s else
      let s := (s.sendDown (if trigger = 3 then 2 else 0)).margClear
      (if early then s else s.pdWrite 2).lastAlive
    ((s.bump R.PSQ_DRAIN_CNT).rollSnap 0x0106 2 trigger (s.dirty % 2 ^ 32) (s.budgetInForce % 2 ^ 32))

/-- The clean shutdown starts (R442): step 1 of Table 14.10. -/
def State.shutdownStart (s : State) : State :=
  if !s.coreUp then s.resetDown
  else
    let s := ((s.setPhase Ph.shutdown).sendDown 0).margClear
    { s with psq.step := 1, psq.early := !s.bit F.TE_STS.MAP_READY, boot.resetReq := false }

/-- Containment ends after its drain: in the held state (R515), or with the register device reset of step 4. -/
def State.containEnd (s : State) : State :=
  let held := !s.memActive || decide (3 ≤ s.fc.contains.length)
  let s := { s.setPhase Ph.on with psq.step := 0, psq.contLim := false, psq.thermLim := false, psq.afterDrain := false, te.drainMode := false }
  if held then
    let s := { (s.coreDown 3) with boot.latched := none }
    ((s.setBit F.FC_STS.CONTAINING false).setBit F.FC_STS.HELD true).set F.BOOT_STS.LAST_RST 3
  else { s with boot.resetReq := true }

/-- The drain has ended, in full or short (R439, R440): its length and lines are recorded; DOWN, or the end of the containment. -/
def State.drainEnd (s : State) : State :=
  let lines := s.psq.lines0 - s.dirty
  let us := s.sinceUs
  let s := ((s.wrN R.PSQ_DRAIN_US us).wrN R.PSQ_DRAIN_LINES_LO lines).wrN R.PSQ_DRAIN_LINES_HI (lines / 2 ^ 32 % 256)
  let s := s.roll 0x0107 0 2 (lines % 2 ^ 32) us s.psq.short.toNat
  if s.psq.trigger = 3 ∧ !s.psq.toDown then s.containEnd else s.startDown

/-- The drain runs short (R440): no new program is issued. -/
def State.drainShort (s : State) : State :=
  if s.phase = Ph.drain ∧ 2 ≤ s.psq.step ∧ s.psq.step ≤ 6 then { s with psq.short := true }.drainEnd else s

/-- Close every open host and copy block: a drain ends (R206). -/
def State.closeOpen (s : State) : State :=
  (s.te.blocks.filter (fun (x : Nat × Blk) => x.2.st == 1 || x.2.st == 2)).foldl (fun s (x : Nat × Blk) => s.closeBlock (x.1 / 2048) (x.1 % 2048)) s

/-- Step 6 of Table 14.9: parity pages, closed blocks, journal, record. A drain from before map ready writes DRAIN_DONE over BOOTING only
(R441). -/
def State.drainSix (s : State) : State :=
  if s.psq.early then (if s.pdRecord = some 0 then s.pdWrite 3 else s)
  else (s.closeStripes.closeOpen.journalFlush).pdWrite 3

/-- A step of the drain completes (Table 14.9). Steps 2 and 3 end once the accepted requests and the programs in flight have. -/
def State.drainStep (s : State) : State :=
  let next := fun (s : State) (k : Nat) => { s with psq.step := k }
  match s.psq.step with
  | 2 => let s := s.settleReqs; if s.rt.reqs.isEmpty then next s 3 else s
  | 3 => let s := s.stopMedia; if s.mediaQuiet then next s 4 else s
  | 4 => next (if s.psq.early then s else s.journalFlush) 5
  | 5 => next (if s.psq.early then s else s.drainAll true) 6
  | 6 => s.drainSix.drainEnd
  | _ => s

/-- Checkpoint every changed segment at once (step 3 of Table 14.10, R196). -/
def State.checkpointNow (s : State) : State :=
  let s := (s.te.changed.map (fun (x : Nat × Nat) => x.1)).foldl State.checkpoint s
  (s.te.progs.filter (fun (p : Prog) => match p.kind with | .ckpt _ _ => true | _ => false)).foldl (fun s (p : Prog) => s.finishProg p.id false) s

/-- Steps 2 and 3 of Table 14.10: write-back and programs; checkpoints, CLEAN entry, PST ledger entry and record (R196, R274). -/
def State.shutdownStep (s : State) : State :=
  let next := fun (s : State) (k : Nat) => { s with psq.step := k }
  match s.psq.step with
  | 1 =>
    let s := s.settleReqs
    if s.rt.reqs.isEmpty then
      let s := s.stopMedia
      if s.mediaQuiet then next s 2 else s
    else s
  | 2 => next (if s.psq.early then s else (s.drainAll false).closeStripes) 3
  | 3 =>
    if s.psq.early then next s 4
    else
      let s := s.journalFlush.checkpointNow
      let s := ((s.journal [.clean s.seqNext]).journalFlush).ledgerWrite
      next (s.lastAlive.pdWrite 4) 4
  | 4 => s.startDown
  | _ => s

/-! ### Rail faults (R427–R429) -/

/-- A rail fault of an entry. In UP the power-up fails; otherwise the fault is recorded with the regulator's STATUS_WORD, which the
block reads over PMBus as a free value, and a CRIT entry starts the drain. A fall of VCORE's RAIL_PG releases the token (R347). -/
def State.railFault (s : State) (e : Nat) : State :=
  let s := s.bump R.PSQ_RAIL_FLT_CNT
  if s.phase = Ph.up then s.upFail e
  else
    let s := s.setBit ⟨R.PSQ_RAIL_FLT, e, 1⟩ true
    let w := if s.entPmb e then s.free 16 else 0
    let s := if s.entPmb e then (s.drawn).pmbPut [⟨e, 0x79, 0⟩] else s
    let s := (s.rollSnap 0x0104 2 e (s.senseMv e) w).margDrop e
    let s := if s.entVcore e then s.holdToken false else s
    if s.entCrit e then s.drainStart 1 else s.raise 2 2 Kind.SUPPLY

/-! ### Requests and the input (R419, R421, R426) -/

/-- An on request (R419): it acts at once from OFF with the input good, is kept where it cannot, and has no effect where the module
is up or coming up. -/
def State.onRequest (s : State) : State :=
  if s.phase = Ph.on ∨ s.phase = Ph.dischWait ∨ (s.phase = Ph.up ∧ !s.psq.offReq) then s
  else (s.setBit F.PSQ_STS.ON_KEPT true).tryUp

/-- An off request (Table 14.4). -/
def State.offRequest (s : State) : State :=
  let s := { s.setBit F.PSQ_STS.ON_KEPT false with psq.offSince := true, psq.retry := false }
  if s.phase = Ph.up then { s with psq.offReq := true }
  else if s.phase = Ph.on then s.shutdownStart
  else if s.phase = Ph.dischWait then s.setPhase Ph.off
  else s

/-- The input fails (Table 14.4). -/
def State.inputFail (s : State) : State :=
  let s := s.setBit F.PSQ_STS.IN_GOOD false
  if s.phase = Ph.up then
    (if s.psq.offReq then s else s.setBit F.PSQ_STS.ON_KEPT true).startDown
  else if s.phase = Ph.drain then { s with psq.toDown := true }
  else s.drainStart 0

/-! ### Containment (R514, R515) -/

/-- Viral on every present port (R382). -/
def State.viralAll (s : State) : State :=
  (List.range 8).foldl (fun s p => s.when (s.bit (F.HP_STS.PRESENT p)) (fun s => s.setBit (F.HP_STS.VIRAL p) true)) s

/-- Start device containment (R514): step 1 of Table 17.8, and the drain. During a drain only Viral and the record are added
(R515). -/
def State.contain (s : State) : State :=
  if !s.coreUp || s.bit F.FC_STS.CONTAINING then s
  else
    let rec1 := fun (s : State) => s.rbEvent ⟨0x0C01, 3, 1, 0, 3, 0⟩
    if s.phase = Ph.drain then rec1 s.viralAll
    else
      let now := s.opSeconds
      let s := { s with fc.contains := (s.fc.contains.filter (fun t => decide (now < t + 3600))) ++ [now] }
      let s := (s.setBit F.FC_STS.CONTAINING true).viralAll
      let s := { s.emit (.pin .twinAliveOut (some false)) with tw.alive := false }
      (((rec1 (s.bump R.FC_CONTAIN_CNT)).fatalEvent [1])).drainStart 3

/-! ### The Cistern (R433–R437) -/

/-- Budget of R437 at a bank voltage in mV: energy in units of 10⁻⁹ J × 2. -/
def State.budgetAt (s : State) (mv : Nat) : Nat :=
  let c := s.num R.CIS_C % 65536
  let vm := s.num R.CIS_VMIN % 65536
  let e := c * (mv * mv - vm * vm) * 3 * (s.num R.CIS_ETA % 128)
  let fix := (s.num R.CIS_EFIX % 1024) * 600000000000
  min (2 ^ 40 - 1) ((e - fix) / (640 * (s.num R.CIS_PDRAIN % 2048)))

/-- E_usable in mJ. -/
def State.energyMj (s : State) : Nat :=
  let v := s.num R.CIS_V % 65536
  let vm := s.num R.CIS_VMIN % 65536
  (s.num R.CIS_C % 65536) * (v * v - vm * vm) / 2000000

/-- The start conditions of a test (R435). -/
def State.cisMay (s : State) : Bool :=
  let c := s.num R.CIS_C % 65536
  let drop := if c = 0 then 0 else 3 * (s.num R.CIS_TEST_I % 2 ^ 15) * (s.num R.CIS_TEST_T % 1024 + 3) / (2 * c)
  s.bit F.PSQ_STS.IN_GOOD && decide (s.phase ≤ 2) && decide (s.dirty ≤ s.budgetAt (s.num R.CIS_V % 65536 - drop))

/-- Step 1 of Table 14.7: the charger rail goes off. -/
def State.cisStart (s : State) : State :=
  let s := (List.range s.entCount).foldl (fun s e => if s.entCharger e && s.psq.on.contains e then s.railEn (s.entEn e) false else s) s
  { ((s.setBit F.CIS_STS.TEST_BUSY true).setBit F.CIS_STS.DEFER false).setBit F.CIS_CTL.TEST true with
    psq.test := some ⟨1, 0, 0, 0, !s.refclk⟩ }

/-- A test is due: it starts, or waits with DEFER set (R435). -/
def State.cisRequest (s : State) : State :=
  if s.psq.test.isSome then s
  else if s.cisMay then s.cisStart
  else if s.bit F.CIS_STS.DEFER then s
  else (s.setBit F.CIS_STS.DEFER true).bump R.CIS_DEFER_CNT

end Sys2Proof.Machine
end

