-- ==== Sys2Proof/Machine/Twin.lean ====
section
/-! DEFINITION. The commands of the twin pair: received Caravan packets, the link's timers, the token and the admission commands
(11_twin_pair.md). A packet that arrives while the link is down is none; a draining controller ignores received packets (R576). -/

set_option autoImplicit false

namespace Sys2Proof.Machine

/-- Packets are taken while the link is up and the device does not drain (R576). -/
def State.carOn (s : State) : Bool := s.bit F.CAR_STS.LINK_UP && !s.draining

/-- A received HELLO (R345): the checks in order, the initial credits once accepted (R343), and PROOF. `flistOk` is what the source
knows of the twin's fence list, which no packet field carries. -/
def execHello (h : Hello) (flistOk : Bool) (s : State) : Out :=
  let s := s.carGot
  if !s.carOn then .next s
  else
    let err := s.attachErr h
    let s := { s with tw.hello := some h }
    let s := match s.pairKey with
      | some k => (s.keyUse 3).car 0x02 0 [(cmac k (proofOf (s.get F.CAR_STS.SIDE) s.tw.nonce h.nonce.toNat)).toNat]
      | none => s
    let s := s.set F.CAR_STS.ATTACH_ERR err
    if err ≠ 0 then .next (s.linkEvent true)
    else
      .next ({ s with tw.fwdOut := s.fwdShare, tw.twinList := flistOk }.crd s.fwdShare s.rt.mirPool 16 8)

/-- A received PROOF (R345): with every check passed the pair attaches. -/
def execProof (mac : Nat) (s : State) : Out :=
  let s := s.carGot
  match (if s.carOn then s.tw.hello else none), s.pairKey with
  | some h, some k =>
    let s := s.keyUse 3
    if s.get F.CAR_STS.ATTACH_ERR ≠ 0 then .next s
    else if mac = (cmac k (proofOf h.side h.nonce.toNat s.tw.nonce)).toNat then
      .next { s with tw.proof := true }.attach
    else .next ((s.set F.CAR_STS.ATTACH_ERR 5).linkEvent true)
  | _, _ => .next s

/-- A received heartbeat (R346, R359, R567): an owner sees its partner enter and leave read-only, and a source sees a target that
has been admitted on its own side. -/
def execHb (dev : Fin 6) (role : Fin 4) (token draining : Bool) (s : State) : Out :=
  let s := s.carGot
  if !s.carOn then .next s
  else
    let was := s.tw.twinState
    let s := { s with tw.twinState := dev.val }
    let mine := s.get F.CAR_RG_STS.EFF_OWN
    if s.twinUp && dev.val == 3 && was != 3 then
      let keep := (List.range 16).foldl (fun m k =>
        if s.get F.CAR_RG_STS.IN_SYNC / 2 ^ k % 2 = 1 ∧ mine / 2 ^ k % 2 = 0 then m + 2 ^ k else m) 0
      .next ({ s.set F.CAR_RG_STS.IN_SYNC keep with tw.bmapOn := true }.setBit F.CAR_STS.BMAP_VALID true)
    else if s.twinUp && dev.val != 3 && was == 3 && s.tw.src.isNone then
      .next (s.startSource ((List.range 16).filter (fun k => s.bit (F.RT_RG_CTL.EN k) && mine / 2 ^ k % 2 == 1 &&
        !s.inSync k)) (!s.bit F.CAR_STS.BMAP_VALID))
    else if s.bit F.CAR_STS.PAIRED && s.bit F.CAR_STS.TOKEN_HELD && !s.tw.admitted && role.val == 3 && !token && !draining then
      .next s.admitTwin
    else .next s

/-- Returned credits (R343, Table 11.4). -/
def execCrd (f m : BitVec 16) (p r : BitVec 8) (s : State) : Out :=
  let s := s.carGot
  .next (if s.carOn then s.carCredits f.toNat m.toNat p.toNat r.toNat else s)

/-- A received DOWN (R354): an attached controller takes the token and becomes SOLO without waiting. -/
def execDown (_cause : Fin 4) (s : State) : Out :=
  let s := s.carGot
  if !s.carOn then .next s
  else
    let s := (s.linkDown 6).bump R.CAR_LINK_DOWN
    if s.bit F.CAR_STS.PAIRED && !s.bit F.CAR_STS.FENCED then
      let s := { s.setBit F.CAR_STS.FAILOVER true with tw.fo := some ⟨s.tick.toNat, .settle, 6⟩ }
      .next s.becomeSolo.failoverEnd
    else .next (s.unpair.linkEvent false)

/-- A forwarded read (R336): performed as though the owner's own port had received it. -/
def execFwdRd (tag : BitVec 32) (line : BitVec 38) (_port : Fin 8) (ups : List Upset) (s : State) : Out :=
  let s := s.carGot
  if !s.carOn then .next s
  else
    let src : ReqFrom := .twin tag.toNat
    let s := s.ptrUpset ups
    if s.booting || s.fenced then .next (s.respond { s.quickReq src line.toNat .read 0 with excs := [1] } 0 true false)
    else match s.regionOf line.toNat with
      | none => .next ((s.bump R.RT_STRAY_CNT).respond (s.quickReq src line.toNat .read 0) 0 true false)
      | some n =>
        if s.sealedOff n then .next (s.respond (s.quickReq src line.toNat .read 0) 0 true false)
        else .next (s.enqueue src line.toNat .read (some n) [] ups)

/-- A forwarded write (R336): performed by the owner, mirrored back, and completed with FWD_CMP after the MACK. -/
def execFwdWr (tag : BitVec 32) (line : BitVec 38) (_port : Fin 8) (be : BitVec 64) (d : Line) (ups : List Upset) (s : State) : Out :=
  let s := s.carGot
  if !s.carOn then .next s
  else
    let src : ReqFrom := .twin tag.toNat
    let s := s.ptrUpset ups
    let k : ReqKind := if be = BitVec.allOnes 64 then .write d else .part d be
    if s.booting || s.fenced then .next ((s.bump R.RT_WR_DROP_STATE).dropWrite src line.toNat [1])
    else match s.regionOf line.toNat with
      | none => .next ((s.bump R.RT_STRAY_CNT).dropWrite src line.toNat [])
      | some n =>
        if s.roState then .next ((s.roWrite line.toNat true).dropWrite src line.toNat [1])
        else .next (s.enqueue src line.toNat k (some n) [] ups)

/-- The request that was forwarded under a tag. -/
def State.forwarded (s : State) (tag : Nat) : Option Req := (s.req tag).filter (fun r => r.stage == .forward)

/-- The owner's class and lowest rank enter the request for its measurement (R336). -/
def Req.owned (r : Req) (cls rank : Nat) : Req := { r with cls := cls, excs := if rank = 0 then r.excs else r.excs ++ [rank] }

/-- The response of a forwarded read goes to the host (R336). -/
def execFwdRsp (tag : Nat) (poison : Bool) (cls : Fin 8) (rank : Fin 16) (d : Line) (s : State) : Out :=
  let s := s.carGot
  match (if s.carOn then s.forwarded tag else none) with
  | some r => if r.kind = .read then .next (s.respond (r.owned cls rank) d poison false) else .next s
  | none => .next s

/-- The completion of a forwarded write completes it to the host (R336). -/
def execFwdCmp (tag : Nat) (np : Bool) (cls : Fin 8) (rank : Fin 16) (s : State) : Out :=
  let s := s.carGot
  match (if s.carOn then s.forwarded tag else none) with
  | some r => if r.kind = .read then .next s else .next (s.respond (r.owned cls rank) 0 false np)
  | none => .next s

/-- A mirror write (R134–R136, R337, R567): placed and charged, then acknowledged; a read-only partner only lists the line. Lines of
chunks that it overtakes are skipped at their commit (R360). -/
def execMwr (seq : Nat) (line : BitVec 38) (d : Line) (poison : Bool) (ups : List Upset) (s : State) : Out :=
  let s := s.carGot
  if !s.carOn || !s.bit F.CAR_STS.PAIRED then .next s
  else
    let ln := line.toNat
    let s := (s.targetWake).ptrUpset ups
    let s := { s with tw.tgt := s.tw.tgt.map (fun (x : RsTarget) => { x with ready := x.ready.map (fun (c : RsChunk) =>
      if c.tile = tileOf ln then { c with newer := setIns (ln % 64) c.newer } else c) }) }
    if s.roState then .next ((s.poisonNow ln).respond (s.quickReq (.mirror seq) ln (.write d) 3) 0 false false)
    else if poison then .next ((s.admitP (.mirror seq) ln (.write d) (s.regionOf ln) [] ups true).poisonLine ln)
    else .next (s.enqueue (.mirror seq) ln (.write d) (s.regionOf ln) [] ups)

/-- A mirrored command is performed (R334, R337) and acknowledged by its reply. -/
def execMcmd (tag : Nat) (c : TwinCmd) (s : State) : Out :=
  let s := s.carGot
  if !s.carOn || !s.bit F.CAR_STS.PAIRED then .next s
  else
    let s := s.targetWake
    let dst : ReplyTo := .twin tag
    match c with
    | .hint first n => .next ((s.discardRange first.toNat n.toNat false).reply dst .success 0 [])
    | .secure first n => .next (s.secureStart first.toNat n.toNat (s.regionOf (64 * first.toNat)) dst false)
    | .inject line => .next (s.injectPoison dst line.toNat)
    | .clear line d => .next (s.clearPoison dst line.toNat d)
    | .region r => .next ((s.serDo dst r).serPump)

/-- A MACK covers every MWR at or below its number (R337): those writes complete. `held` tells that the partner held them above its hold
mark, which counts here under rank 7 (R136). -/
def execMack (seq : Nat) (held : Bool) (s : State) : Out :=
  let s := s.carGot
  if !s.carOn then .next s
  else
    let s := { s with tw.mwr := s.tw.mwr.filter (fun (x : Nat × Nat) => decide (seq < x.1)) }
    let done := s.rt.reqs.filter (fun r => match r.stage with | .mirror q => decide (q ≤ seq) | _ => false)
    .next ((done.foldl (fun s (r : Req) => s.respond { r with excs := if held then r.excs ++ [7] else r.excs } 0 false false) s).pump)

/-- An MCMD_ACK completes a mirrored command; the second one of a secure discard completes the twin's part (R337). -/
def execMcmdAck (tag : Nat) (status : BitVec 7) (done : Bool) (s : State) : Out :=
  let s := s.carGot
  if !s.carOn then .next s
  else match s.tw.cmds.find? (fun c => c.seq == tag) with
    | none => .next s
    | some c =>
      let first := c.ack.isNone
      let s := if first then
          { s with tw.cmds := s.tw.cmds.map (fun (x : TwCmd) => if x.seq = tag then { x with ack := some status.toNat } else x) }
        else s
      let s := match c.disc with
        | some id =>
          if done then
            let s := { s with te.discards := s.te.discards.map (fun (d : Discard) => if d.id = id then { d with twinWait := false } else d) }
            let s := { s with tw.cmds := s.tw.cmds.filter (fun (x : TwCmd) => x.seq != tag) }
            (s.te.discards.filter (fun (d : Discard) => d.id == id && d.accepted)).foldl State.discardShow s
          else s
        | none => s.twinSettle
      .next s.serPump

/-- A repair request (R339): the line is read through this controller's own read path at host priority, with one retry, behind every MWR
that came before it, and answered in a REP_RSP: FAIL where it is poisoned or stays uncorrectable, which also starts its own recovery. -/
def execRepReq (tag : Nat) (line : BitVec 38) (ups : List Upset) (s : State) : Out :=
  let s := s.carGot
  if !s.carOn || !s.bit F.CAR_STS.PAIRED then .next s
  else .next ((s.ptrUpset ups).enqueue (.rep tag) line.toNat .read (s.regionOf line.toNat) [] ups)

/-- The line is counted in its tile's slot: Dirty, Flight or Flight-dirty. -/
def State.slotCounts (s : State) (line : Nat) : Bool :=
  let e := s.entry (tileOf line)
  e.slot != 0 && decide (2 ≤ (s.slot e.slot).lineSt (line % 64))

/-- A repaired line goes back where it was lost: into the tile's slot, else by a rewrite of its tile on media (R104, R410). -/
def State.mendLine (s : State) (line : Nat) (d : Line) : State :=
  let e := s.entry (tileOf line)
  if s.slotCounts line then
    let c := s.xtsOut (slotUnit e.slot (line % 64)) d
    s.xtsUse.slotMod e.slot (fun x => { x with data := sset 0 x.data (line % 64) c })
  else s.rewriteTile (tileOf line)

/-- Die of a line's location on media, 0 where it has none. -/
def State.dieOf (s : State) (line : Nat) : Nat := ((s.entry (tileOf line)).loc.map (fun l => l.die)).getD 0

/-- The way still waits for the line that a REP_REQ asked for. -/
def State.wayHolds (s : State) (set w line : Nat) : Bool :=
  s.wayLost set w && (s.way set w).v && wayLine set (s.way set w) == line

/-- What a repair that failed leaves (R105, R132, R143, R286). -/
def State.repairFailed (s : State) (why : RepFor) : State :=
  let s := s.bump R.CAR_REP_FAIL
  match why with
  | .host id tag => match s.req id with
    | some r =>
      if s.slotCounts r.line then ((((s.poisonLine r.line).lineEvents r.line 9).handRepair (tileOf r.line)).supply r 0 true 1).pump
      else (s.loseHost r (s.dieOf r.line) tag).pump
    | none => s
  | .way set w line id =>
    let s := if s.wayHolds set w line then s.lcLoseDirty set w else s
    match id.bind s.req with
    | some r => (s.supply r 0 true 0).pump
    | none => s.pump
  | .background line l tag => match l with
    | none => if s.slotCounts line then (s.poisonLine line).lineEvents line 9 else s
    | some l => if s.validAt (tileOf line) l && !s.superseded line then (s.loseLine line l.die tag false).bump R.SIR_POISONED else s
  | .gather pid pos line tag => match s.gatherLine pid pos line with
    | some ln => (s.gatherLose pid pos line ln ((s.entry (tileOf ln)).loc.getD ⟨0, 0, 0, 0⟩) tag).pump
    | none => s

/-- A repair response (R102, R104, R132, R143, R286, R339). -/
def execRepRsp (tag : Nat) (fail : Bool) (d : Line) (s : State) : Out :=
  let s := s.carGot
  match (if s.carOn then s.tw.reps.find? (fun x => x.1 == tag) else none) with
  | none => .next s
  | some (_, why) =>
    let s := { s with tw.reps := s.tw.reps.filter (fun (x : Nat × RepFor) => x.1 != tag) }
    if fail then .next (s.repairFailed why)
    else
      let s := s.bump R.CAR_REP_OK
      match why with
      | .host id _ => match s.req id with
        | some r => .next ((if r.closed || r.zero then s else s.mendLine r.line d).releaseLine r d).pump
        | none => .next s
      | .way set w line id =>
        let held := s.wayHolds set w line
        let s := if held then (s.setWay set w { s.way set w with data := d, ce := 0 }).wayFetch set w false else s
        match id.bind s.req with
        | some r => .next (s.supply r d (held && (s.way set w).p) 0).pump
        | none => .next s.pump
      | .background line l _ =>
        if l.isNone then .next (s.mendLine line d)
        else .next ({ s with sir.got := s.sir.got ++ [(line, d)] }.bump R.SIR_RECOV_PEER |>.mendLine line d)
      | .gather pid pos line _ => .next ((s.when (s.refreshGather pid pos) (fun s => s.bump R.SIR_RECOV_PEER)).gathered pid pos line d).pump

/-- The receiver of TOKEN_OFFER pulls the line and answers TOKEN_TAKE (R349). -/
def execTokenOffer (s : State) : Out :=
  let s := s.carGot
  .next (if s.carOn && s.bit F.CAR_STS.PAIRED && !s.bit F.CAR_STS.TOKEN_HELD then
    { (s.pullToken true).car 0x41 0 [] with tw.tokMove := 2 } else s)

/-- The holder releases the token on TOKEN_TAKE and answers TOKEN_DONE (R349); a DETACH that waited goes on (R364). -/
def execTokenTake (s : State) : Out :=
  let s := s.carGot
  if s.carOn && s.tw.tokMove == 1 then
    let s := { (s.holdToken false).car 0x42 0 [] with tw.tokMove := 0 }
    match s.tw.leaving with
    | some dst => .next (s.leave dst).serPump
    | none => .next s
  else .next s

/-- The receiver becomes holder on TOKEN_DONE (R349). -/
def execTokenDone (s : State) : Out :=
  let s := s.carGot
  .next (if s.carOn && s.tw.tokMove == 2 then { s.holdToken true with tw.tokMove := 0 } else s)

/-- RS_START (R360): the stream of a region begins; a running one of an earlier RS_START is replaced. -/
def execRsStart (region : Fin 16) (full : Bool) (gen : Word) (nonce : BitVec 64) (s : State) : Out :=
  let s := s.carGot
  if !s.carOn || !s.bit F.CAR_STS.PAIRED then .next s
  else
    let s := s.targetWake
    let s := match s.tw.tgt with | some x => s.keyRelease x.slot | none => s
    match s.pairStream region gen.toNat nonce.toNat with
    | none => .next s
    | some (k, s) =>
      let s := { s with tw.tgt := some ⟨region, k, none, []⟩ }.setBit ⟨R.CAR_RG_STS, 16 + region.val, 1⟩ false
      .next ((s.set F.CAR_STS.ROLE 3).wrN R.CAR_RSYNC (region.val * 256 + 4096 * full.toNat + 8192))

/-- The answer to a chunk: RS_RES, and its credit (R343, R360). -/
def State.rsRes (s : State) (chunk res : Nat) : State := (s.car 0x52 0 [res, chunk]).crd 0 0 0 1

/-- RS_CHUNK (R360): the chunk is verified; a tag that fails ends the stream (R323). -/
def execRsChunk (chunk : BitVec 64) (tile : BitVec 32) (zero staged : Bool) (pmap : BitVec 64) (tag : BitVec 128) (data : List Line)
    (s : State) : Out :=
  let s := s.carGot
  match (if s.carOn then s.tw.tgt else none) with
  | none => .next s
  | some x =>
    let c := chunk.toNat
    let k := s.keySlot x.slot
    let s := s.keyUse x.slot
    let stop := fun (s : State) (res : Nat) => { (s.keyRelease x.slot).rsRes c res with tw.tgt := none }
    if x.last.any (fun k => decide (c ≤ k)) then .next (s.rsRes c 5)
    else if !zero && data.length != 64 then .next (stop s 4)
    else if gcmTag k.key k.h (chunkIv c) (rsAad c tile.toNat zero staged pmap) (if zero then [] else data) ≠ tag then
      .next (stop s 1)
    else
      let plain := if zero then List.replicate 64 (0 : Line) else
        data.zipIdx.map (fun (y : Line × Nat) => y.1 ^^^ gcmStream k.key (chunkIv c) y.2)
      .next { s with tw.tgt := some { x with last := some c, ready := x.ready ++ [⟨c, tile.toNat, pmap, plain, [], 0⟩] } }

/-- The lines of a received chunk not yet placed, each with its data and poison; one that the twin has mirrored since is left out (R360). -/
def rsLines (c : RsChunk) : List (Nat × Option (Line × Bool)) :=
  (c.data.zipIdx.drop c.placed).map (fun (y : Line × Nat) =>
    (64 * c.tile + y.2, if c.newer.contains y.2 then none else some (y.1, c.pmap.getLsbD y.2)))

/-- A verified chunk commits in the manner of R322 without mirroring (R360), once the dirty count allows it; lines that an MWR has
overtaken are skipped. -/
def execRsChunkCommit (chunk : BitVec 64) (s : State) : Out :=
  match s.tw.tgt with
  | none => .next s
  | some x => match x.ready.find? (fun c => c.chunk == chunk.toNat) with
    | none => .next s
    | some c =>
      let r := s.commitLines false (rsLines c)
      let s := r.2
      let left := decide (c.placed + r.1 < c.data.length)
      let ready : List RsChunk := if left then x.ready.map (fun (z : RsChunk) => if z.chunk = c.chunk then { z with placed := z.placed + r.1 } else z)
        else x.ready.filter (fun (z : RsChunk) => z.chunk != c.chunk)
      let s := { s with tw.tgt := some { x with ready := ready } }
      .next (if left then s else s.rsRes c.chunk 0).pump

/-- The CHUNK with which RS_END is acknowledged in an RS_RES. -/
def rsEndMark : Nat := 2 ^ 64 - 1

/-- RS_RES (R360, R361): OK forgets the chunk; any other result ends the stream, sets the bits of every chunk without an OK again,
and the region starts over. The acknowledgement of RS_END brings the region into sync when none of its bits is set;
with a bit set it starts over for those tiles. -/
def execRsRes (chunk : BitVec 64) (res : Fin 16) (s : State) : Out :=
  let s := s.carGot
  match (if s.carOn then s.tw.src else none) with
  | none => .next s
  | some x => match x.region with
    | none => .next s
    | some n =>
      if chunk.toNat = rsEndMark then
        if !x.ended then .next s
        else if s.tw.bmap.any (fun t => s.inRegion n (64 * t)) then
          .next { s.keyRelease x.slot with tw.src := some { x with region := none, left := n :: x.left, sent := [], slot := 0, ended := false } }
        else .next (s.rsRegionDone x n)
      else if res = 0 then
        .next ({ s with tw.src := some { x with sent := x.sent.filter (fun (y : Nat × Nat) => y.1 != chunk.toNat) } }.bump R.CAR_RSYNC_CHUNKS)
      else if res = 5 then .next s
      else
        let s := x.sent.foldl (fun s (y : Nat × Nat) => s.bmapSet y.2) s
        .next { s.keyRelease x.slot with tw.src := some { x with region := none, left := n :: x.left, sent := [], slot := 0 } }

/-- RS_SUSPECT (R359): the bits of the listed tiles are set; a target that was admitted on its own side is admitted here too. -/
def execRsSuspect (tiles : List (BitVec 32)) (s : State) : Out :=
  let s := s.carGot
  if !s.carOn || !s.bit F.CAR_STS.PAIRED || !s.bit F.CAR_STS.TOKEN_HELD then .next s
  else
    let s := if s.tw.admitted then s else s.admitTwin
    .next (tiles.foldl (fun s (t : BitVec 32) => s.bmapSet t.toNat) s)

/-- RS_END (R361): the region comes into sync at the target, which acknowledges it; after the last, the pair is PAIRED. -/
def execRsEnd (region : Fin 16) (last : Bool) (s : State) : Out :=
  let s := s.carGot
  match (if s.carOn then s.tw.tgt else none) with
  | none => .next s
  | some x =>
    if x.region ≠ region.val ∨ x.ready ≠ [] then .next s
    else
      let s := { s.keyRelease x.slot with tw.tgt := none }.setBit ⟨R.CAR_RG_STS, 16 + region.val, 1⟩ true
      let s := s.car 0x52 0 [0, rsEndMark]
      .next (if last then s.resyncEnd else s)

/-! ### Timers and the link (R340, R346–R350) -/

/-- Nothing received for CAR_IDLE_TO (Table 11.6). -/
def execCarIdleTo (s : State) : Out := .next (s.linkLoss 2)

/-- An MWR or a token packet unanswered for CAR_RSP_TO (Table 11.6). -/
def execCarRspTo (s : State) : Out := .next (if s.tw.mwr.isEmpty && s.tw.tokMove == 0 then s else s.linkLoss 3)

/-- An MCMD without its first MCMD_ACK for 100 ms (Table 11.6). -/
def execMcmdTimeout (s : State) : Out := .next (if s.tw.cmds.any (fun c => c.ack.isNone) then s.linkLoss 3 else s)

/-- A REP_REQ unanswered for 15 µs (R339). -/
def execRepairTimeout (tag : Nat) (s : State) : Out :=
  match s.tw.reps.find? (fun x => x.1 == tag) with
  | none => .next s
  | some (_, why) => .next ({ s with tw.reps := s.tw.reps.filter (fun (x : Nat × RepFor) => x.1 != tag) }.repairFailed why)

/-- A flit replayed four times (Table 11.6). -/
def execFlitReplayLimit (s : State) : Out := .next (s.linkLoss 4)

/-- No edge on TWIN_ALIVE_IN for 100 µs (R348, Table 11.6). -/
def execAliveTimeout (s : State) : Out := .next ((s.setBit F.CAR_STS.ALIVE_IN_OK false).linkLoss 5)

/-- Loss of signal at the PHY (R350). -/
def execCaravanSignalLoss (s : State) : Out := .next (s.linkLoss 1)

/-- An undefined TYPE, or a LEN other than the type's (R342). -/
def execCaravanBadPacket (s : State) : Out := .next (s.carGot.linkLoss 4)

/-- The holder reaches T0 + CAR_SETTLE (step 4a of Table 11.7). -/
def execFailoverSettle (s : State) : Out :=
  match s.tw.fo with
  | some f => if f.phase = .settle then .next s.becomeSolo.failoverEnd.serPump else .next s
  | none => .next s

/-- The line has stayed low until T0 + 30 µs: the controller fences (step 4b). -/
def execFailoverWindowEnd (s : State) : Out :=
  match s.tw.fo with
  | some f => if f.phase = .window then .next s.fence.failoverEnd.serPump else .next s
  | none => .next s

/-- Side 1's wait ends: it pulls if the line is still high, otherwise it fences (step 4c); at start-up rule 2 of R363 makes it SOLO
or fenced. -/
def execSide1TokenWait (s : State) : Out :=
  match s.tw.fo with
  | some f =>
    if f.phase = .wait then
      if !s.bit F.CAR_STS.FAILOVER then
        let s := { s with tw.fo := none, tw.decided := true }
        .next (if s.bit F.CAR_STS.TOKEN_LINE then s.soloAlone else s.fence)
      else if s.bit F.CAR_STS.TOKEN_LINE then .next { s.holdToken true with tw.fo := some { f with phase := .settle } }
      else .next s.fence.failoverEnd.serPump
    else .next s
  | none => .next s

/-- The filtered TWIN_TOKEN line changes (R347): a rise within the window of step 4b leads on to step 4c. -/
def execTwinTokenChange (high : Bool) (s : State) : Out :=
  let s := s.setBit F.CAR_STS.TOKEN_LINE high
  match s.tw.fo with
  | some f => .next (if f.phase = .window ∧ high then s.failoverHigh f else s)
  | none => .next s

/-- TWIN_ALIVE_OUT toggles while the core domain is in service and no containment runs (R348). -/
def execAliveToggle (s : State) : Out :=
  .next (if s.coreUp && !s.bit F.FC_STS.CONTAINING then
    { s.emit (.pin .twinAliveOut (some (!s.tw.alive))) with tw.alive := !s.tw.alive } else s)

/-- An edge on TWIN_ALIVE_IN (R348). -/
def execTwinAliveInEdge (s : State) : Out := .next (s.setBit F.CAR_STS.ALIVE_IN_OK true)

/-- A heartbeat leaves after 1 µs without another packet (R346). -/
def execHbSend (s : State) : Out :=
  .next (s.car 0x03 0 [s.devState, s.get F.CAR_STS.ROLE, (s.bit F.CAR_STS.TOKEN_HELD).toNat + 2 * s.draining.toNat,
    s.tick.toNat % 2 ^ 32])

/-- Caravan has trained to x16 at 64 GT/s (R340, R345): register values take effect, and HELLO is sent. -/
def execCaravanLinkUp (s : State) : Out :=
  if s.bit F.CAR_CFG.EN && s.coreUp && s.refclk && !s.bit F.CAR_STS.LINK_UP && !s.bit F.CAR_STS.FAILOVER && !s.draining &&
      !s.bit ⟨R.TST_PHY_CTL, 4, 1⟩ then
    let s := (s.setBit F.CAR_STS.LINK_UP true).setBit F.CAR_CTL.RETRAIN false
    let s := { s with tw.cred := [], tw.waits := [], tw.hello := none, tw.proof := false, tw.fwdOut := 0, tw.placedMax := 0, tw.cfg := s.rd R.CAR_CFG,
                      rt.mirPool := s.num R.CAR_CRD_MIR % 2048, rt.fwdPool := s.num R.RT_CRD_FWD % 1024 }
    .next ((s.linkEvent true).sendHello.tsStatus)
  else .next s

/-- A failed training is repeated (R340); a PHY held for test trains nothing (R536). -/
def execCaravanTrainRetry (s : State) : Out :=
  .next (if s.bit F.CAR_CFG.EN && s.coreUp && !s.bit F.CAR_STS.LINK_UP && !s.bit ⟨R.TST_PHY_CTL, 4, 1⟩ then s.emit (.other 11 [1]) else s)

/-- CAR_CTL.RETRAIN (R367): accepted only while PAIRED is 0. -/
def execCarRetrain (path : Path) (s : State) : Out :=
  let s := s.regAcc 11
  .next (if s.isManager path && !s.bit F.CAR_STS.PAIRED then
    ((s.linkDown (s.get F.CAR_STS.LAST_DOWN)).setBit F.CAR_CTL.RETRAIN true).emit (.other 11 [1]) else s)

/-- A write of CAR_CNT_CLR (Table 11.9). -/
def execCarCntClr (path : Path) (v : Word) (s : State) : Out :=
  let s := s.regAcc 11
  .next (s.when (s.isManager path) (fun s =>
    (s.when (v.getLsbD 0) (fun s => s.zero (regRange R.CAR_FO_CNT 4))).when (v.getLsbD 1) (fun s => s.zero (regRange R.CAR_MIR_CNT 5))))

/-! ### Roles and admission (R355–R364) -/

/-- The start-up rules of R363 in order. -/
def execRoleDecision (s : State) : Out :=
  if s.tw.decided || !s.bit F.TE_STS.MAP_READY || !s.coreUp then .next s
  else
    let side := s.get F.CAR_STS.SIDE
    let s := { s with tw.decided := true }
    if !s.bit F.CAR_CFG.EN then
      .next ((s.set F.CAR_STS.ROLE 0).set F.CAR_RG_STS.EFF_OWN 0xFFFF)
    else match (if s.bit F.CAR_STS.PAIRED then s.tw.hello else none) with
      | none =>
        if s.roleRec = 2 ∧ s.bit F.CAR_STS.TOKEN_LINE then
          if side = 0 then .next s.soloAlone
          else .next { s with tw.fo := some ⟨s.tick.toNat, .wait, 0⟩, tw.decided := false }
        else .next s.fence
      | some h =>
        match s.sourceByRule4 h with
        | some true =>
          let s := ((s.holdToken true).set F.CAR_STS.ROLE 2).set F.CAR_RG_STS.EFF_OWN 0xFFFF
          .next (if s.autoAdmit || s.tw.keep then { s with tw.keep := false }.admitTwin else s)
        | some false =>
          let s := (s.holdToken false).setBit F.CAR_STS.FENCED true
          .next ((s.set F.CAR_RG_STS.EFF_OWN 0).recordRole 3)
        | none =>
          if s.lastDown = 2 ∧ h.down.val = 2 then
            .next ((s.holdToken (side == s.tokenSide)).inSyncAll).becomePaired
          else
            let mine := decide (1 ≤ s.lastDown)
            let its := decide (1 ≤ h.down.val)
            let src := if mine == its then side == s.tokenSide else mine
            if src then
              let s := (s.holdToken true).inSyncAll
              .next ((s.set F.CAR_RG_STS.IN_SYNC 0).startSource ((List.range 16).filter (fun n => s.bit (F.RT_RG_CTL.EN n))) true)
            else
              let s := ((s.holdToken false).inSyncAll).set F.CAR_RG_STS.IN_SYNC 0
              .next { (s.unfence 11).set F.CAR_STS.ROLE 3 with tw.admitted := true }

/-- Admit in pair mode (R359). -/
def execAdmitPair (port : Nat) (s : State) : Out := .next (s.serCmd port .admitPair)
/-- Admit in SOLO mode (R355). -/
def execAdmitSolo (port : Nat) (s : State) : Out := .next (s.serCmd port .admitSolo)
/-- Admit in KEEP mode (R356). -/
def execAdmitKeep (port : Nat) (side : Fin 2) (s : State) : Out := .next (s.serCmd port (.admitKeep side))
/-- Detach (R364). -/
def execDetach (port : Nat) (side : Fin 2) (s : State) : Out := .next (s.serCmd port (.detach side))

/-- One step of the source's resync scan (R360): the next region's RS_START, the next tile's RS_CHUNK, or RS_END once nothing is left
to send or to be answered. -/
def execResyncScan (s : State) : Out :=
  if s.fencedSrc 10 then .next s else
  match (if s.twinUp then s.tw.src else none) with
  | none => .next s
  | some x => match x.region with
    | none => match x.left with
      | [] => .next s.resyncEnd
      | n :: rest => .next (s.rsBegin x n rest)
    | some n =>
      if x.ended then .next s
      else match s.rsNext x n with
        | some (t, x) => .next (if s.linesCan (64 * t) 64 then s.rsSend x t else s)
        | none =>
          if x.sent.isEmpty then
            let s := s.car 0x54 0 [n, x.left.isEmpty.toNat]
            .next { s with tw.src := some { x with ended := true } }
          else .next s

end Sys2Proof.Machine
end

