-- ==== Sys2Proof/Machine/QueueOps.lean ====
section
/-! DEFINITION. The management queues and the test page as operations (18_queues_counters_test.md R521–R527, R534–R542). -/

set_option autoImplicit false

namespace Sys2Proof.Machine

/-! ### Level events and the tick (R533) -/

/-- A work item of a page's row of Table 18.7 is in progress (BUSY). Pages whose items begin and end within one command have none. -/
def State.pageBusy (s : State) (p : Nat) : Bool :=
  if p = 4 then s.pst.cur.isSome
  else if p = 5 then !s.rb.queue.isEmpty
  else if p = 6 then !s.ce.jobs.isEmpty || !s.ce.waits.isEmpty
  else if p = 10 then s.lc.walker.isSome || !s.lc.walkQ.isEmpty || !s.sir.refresh.isEmpty
  else if 12 ≤ p ∧ p ≤ 19 then s.rt.reqs.any (fun (r : Req) => match r.src with | .host q _ => q.val == p - 12 | _ => false)
  else if p = 31 then !s.rt.reqs.isEmpty
  else if 32 ≤ p ∧ p ≤ 71 then
    s.te.reads.any (fun (m : MRead) => m.issued && chanOf m.loc.die == p - 32) || (List.range 8).any (fun k => s.dieBusy (8 * (p - 32) + k))
  else if 72 ≤ p ∧ p ≤ 99 then s.get (F.CORE_STS.STATE (p - 72)) == 1
  else if p = 108 then s.tst.lanes.any (fun (x : Nat × Lane) => x.2.run)
  else false

/-- A level event of Table 18.6 is asserted at a page: BUSY; STALL, packets that wait for a credit of the twin; QFULL, the Roll book's
queue and a management queue's down direction. -/
def State.levelOn (s : State) (p ev : Nat) : Bool :=
  if ev = 4 then s.pageBusy p
  else if ev = 5 then p == 11 && !s.tw.waits.isEmpty
  else if ev = 6 then (p == 5 && decide (64 ≤ s.rb.queue.length)) ||
    (decide (100 ≤ p) && decide (p ≤ 107) && decide (2048 ≤ (s.mqOf (p - 100)).dn.length))
  else false

/-- The level events asserted now, as page × 8 + event. -/
def State.levels (s : State) : List Nat :=
  (List.range 110).flatMap (fun p => ([4, 5, 6].filter (fun ev => s.levelOn p ev)).map (fun ev => 8 * p + ev))

/-- A level event is asserted during a tick: a counter that selects it counts the tick at level counting, and a rise at edge
counting. -/
def State.levelCount (s : State) (i : Nat) (rise : Bool) : State :=
  let p := i / 8
  (List.range 8).foldl (fun s k =>
    if s.bit (F.PC_SEL.EN p k) && s.get (F.PC_SEL.EVENT p k) == i % 8 && (s.bit (F.PC_SEL.LEVEL p k) || rise) &&
        (!s.bit (F.PC_SEL.WIN p k) || s.bit (F.PC_WIN_CTL.START p)) then s.pcAdd p k 1 else s) s

/-- The level events of a tick. -/
def State.levelTick (s : State) : State :=
  let now := s.levels
  let was := s.tst.lvl
  (now.foldl (fun s i => s.levelCount i (!was.contains i)) s)|> fun s => { s with tst.lvl := now }

/-- A core that runs retires instructions in a tick, both ACCEPT and DONE of its page (Table 18.7). How many is left open: a free value,
drawn where a counter of the page is enabled. -/
def State.coreRetire (s : State) (p : Nat) : State :=
  let n := s.free 8
  if s.get (F.CORE_STS.STATE (p - 72)) == 1 && (List.range 8).any (fun k => s.bit (F.PC_SEL.EN p k)) then
    s.drawn.when (n != 0) (fun s => (s.pcEvent p 2 n).pcEvent p 3 n)
  else s

/-- What the performance counters of a tick count (R533): the work of the cores in it, the pulses it ends, and the levels. -/
def State.pcTicks (s : State) : State :=
  (((List.range 28).foldl (fun s k => s.coreRetire (72 + k)) s).pcTick).levelTick

/-! ### Management queues -/

/-- The queue acts through the path (R522), by its number among the paths: 0 the manager port, 1 the I3C target. -/
def State.mqPath (s : State) (q : Nat) (path : Path) : Option Nat :=
  match path with
  | .oob => if s.get (F.MQ_CFG.PATH q) = 1 ∧ s.coreUp then some 1 else none
  | .port p => if s.get (F.MQ_CFG.PATH q) = 0 ∧ s.isManager (.port p) then some 0 else none

/-- A down packet is open on the host path: words without an END, or words being discarded (R523, R524). -/
def Mq.dnOpen (m : Mq) : Bool := m.skip || (match m.dn.getLast? with | some w => !w.1 | none => false)

/-- Whole packets in a direction. -/
def wholePackets (l : List (Bool × BitVec 64)) : Nat := (l.filter (fun w => w.1)).length

/-- MQ_PKTS, MQ_SPACE, MQ_POP_FLG and the open marks follow the queue (Table 18.2, Table 18.4). -/
def State.mqShow (s : State) (q : Nat) : State :=
  let m := s.mqOf q
  let s := (s.set (F.MQ_PKTS.DN q) (wholePackets m.dn)).set (F.MQ_PKTS.UP q) (wholePackets m.up)
  let s := (s.set (F.MQ_SPACE.DN_FREE q) (2048 - m.dn.length)).set (F.MQ_SPACE.UP_WORDS q) m.up.length
  let s := (s.setBit (F.MQ_POP_FLG.END q) (m.up.head?.any (fun w => w.1))).setBit (F.MQ_POP_FLG.VALID q) (!m.up.isEmpty)
  (s.setBit (F.MQ_STS.DN_OPEN q) m.dnOpen).setBit (F.MQ_STS.UP_OPEN q) m.inPkt

/-- Queue changes with its registers. -/
def State.mqPut (s : State) (q : Nat) (f : Mq → Mq) : State := ((s.mqMod q f).mqShow q).alertShow

/-- Firmware has pushed part of a reply packet and not yet its END. -/
def Mq.upBegun (m : Mq) : Bool := match m.up.getLast? with | some w => !w.1 | none => m.inPkt

/-- Reply packets without what is left of one already begun (R526). -/
def Mq.dropBegun (m : Mq) : List (List (Bool × BitVec 64)) := if m.upBegun then m.replies.drop 1 else m.replies

/-- MQ_CTL.RESET (R526): both directions and the hold register are discarded, EPOCH counts on, no flush is pending. Commands that
firmware runs, and their replies, stay, but for what is left of a reply already begun. -/
def State.mqReset (s : State) (q : Nat) : State :=
  let s := s.mqPut q (fun m => { m with hold := [], dn := [], skip := false, up := [], inPkt := false, replies := m.dropBegun })
  let s := s.set (F.MQ_STS.EPOCH q) (s.get (F.MQ_STS.EPOCH q) + 1)
  let s := (s.setBit (F.MQ_STS.FLUSH_PEND_DN q) false).setBit (F.MQ_STS.FLUSH_PEND_UP q) false
  (s.setBit (F.MQ_CTL.FLUSH_DN q) false).setBit (F.MQ_CTL.FLUSH_UP q) false

/-- The queue is reset as for a pointer fault (R527), which also counts it. -/
def State.mqPtrReset (s : State) (q : Nat) : State :=
  ((s.mqReset q).setBit (F.MQ_STS.PTR_FAULT q) true).bump (R.MQ_PTR_CNT q)

/-- The pointer copies of a queue disagree (R527). -/
def State.mqPtrFault (s : State) (q : Nat) : State := (s.mqPtrReset q).raise (100 + q) 2 Kind.PTR

/-- The flush of the down direction acts (R526): firmware has taken nothing of what is queued. -/
def State.mqFlushDn (s : State) (q : Nat) : State :=
  ((s.mqPut q (fun m => { m with dn := [] })).setBit (F.MQ_STS.FLUSH_PEND_DN q) false).setBit (F.MQ_CTL.FLUSH_DN q) false

/-- The flush of the up direction acts. -/
def State.mqFlushUp (s : State) (q : Nat) : State :=
  ((s.mqPut q (fun m => { m with up := [], replies := m.dropBegun })).setBit (F.MQ_STS.FLUSH_PEND_UP q) false).setBit (F.MQ_CTL.FLUSH_UP q) false

/-- The words before the last open packet. -/
def dropOpen (l : List (Bool × BitVec 64)) : List (Bool × BitVec 64) := (l.reverse.dropWhile (fun w => !w.1)).reverse

/-- Append a word in the down direction (R523, R524): an overrun drops the open packet and what follows up to its END. -/
def State.mqPush (s : State) (q k : Nat) (v : Word) (fin : Bool) : State :=
  let m := s.mqOf q
  let w : BitVec 64 := v ++ sget 0 m.hold k
  let s := s.mqMod q (fun m => { m with hold := sset 0 m.hold k 0 })
  let s := s.pcEvent (100 + q) 2 1
  let s :=
    if m.skip then s.mqPut q (fun m => { m with skip := !fin })
    else if m.dn.length ≥ 2048 then
      ((s.mqPut q (fun m => { m with dn := dropOpen m.dn, skip := !fin })).setBit (F.MQ_STS.OVERRUN q) true).bump (R.MQ_DROP_PKT q)
    else s.mqPut q (fun m => { m with dn := m.dn ++ [(fin, w)] })
  s.when (fin && s.bit (F.MQ_STS.FLUSH_PEND_DN q)) (fun s => s.mqFlushDn q)

/-- The first whole packet of a direction and the rest. -/
def takePacket (l : List (Bool × BitVec 64)) : Option (List (Bool × BitVec 64) × List (Bool × BitVec 64)) :=
  let a := l.takeWhile (fun w => !w.1)
  match l.drop a.length with
  | [] => none
  | w :: t => some (a ++ [w], t)

/-! ### Counting windows and patterns -/

/-- The fields of PC_WIN_CTL that any write of it carries: LEN, and the 1 bits of OVF (Table 18.8). -/
def State.winWrite (s : State) (page : Nat) (v : Word) : State :=
  let s := s.set (F.PC_WIN_CTL.LEN page) (v.toNat / 2 ^ 16)
  s.set (F.PC_WIN_CTL.OVF page) (s.get (F.PC_WIN_CTL.OVF page) &&& (255 - v.toNat / 256 % 256))

/-- Bits of PC_WIN_CTL.OVF that an access of the page's registers sets by itself: the counters of REGACC, and of page 0's work items, that
wrap with it (R533). -/
def State.wrapsOf (s : State) (p : Nat) : Nat := ((s.set (F.PC_WIN_CTL.OVF p) 0).regAcc p).get (F.PC_WIN_CTL.OVF p)

/-- A bit of OVF that hardware sets in the handshake of a write of 1 to it ends set (R14). -/
def State.keepWraps (s : State) (p w : Nat) : State :=
  if s.get (F.PC_WIN_CTL.OVF p) ||| w = s.get (F.PC_WIN_CTL.OVF p) then s else s.set (F.PC_WIN_CTL.OVF p) (s.get (F.PC_WIN_CTL.OVF p) ||| w)

/-- Open a page's window, or restart its length count (R534). -/
def State.winOpen (s : State) (page : Nat) : State :=
  { s.setBit (F.PC_WIN_CTL.START page) true with tst.winAt := sset 0 s.tst.winAt page s.tick.toNat }

/-- Close a page's window. -/
def State.winClose (s : State) (page : Nat) : State := s.setBit (F.PC_WIN_CTL.START page) false

/-- A lane. -/
def State.lane (s : State) (n : Nat) : Lane := sget Lane.idle s.tst.lanes n

/-- Change a lane. -/
def State.laneMod (s : State) (n : Nat) (f : Lane → Lane) : State := { s with tst.lanes := smod Lane.idle s.tst.lanes n f }

/-- The PHY of a lane is held (R536): host PHYs 0–3, Caravan 4. -/
def State.phyHeld (s : State) (k : Nat) : Bool := s.bit ⟨R.TST_PHY_CTL, k, 1⟩

/-- The lane registers show the selected lane (R535, Table 18.12); a selection of 80 and above reads 0. -/
def State.laneShow (s : State) : State :=
  let n := s.num R.TST_LANE_SEL % 128
  if n < 80 then
    let l := s.lane n
    let s := (s.setBit F.TST_PAT_STS.RUN l.run).setBit F.TST_PAT_STS.SYNC l.sync
    let s := s.wrN R.TST_PAT_CTL (l.ctl + (if l.run then 2048 else 0))
    ((s.wrN R.TST_PAT_ERR l.errs).wrN R.TST_PAT_BITS_LO l.bits).wrN R.TST_PAT_BITS_HI (l.bits / 2 ^ 32 % 65536)
  else s.zero [R.TST_PAT_STS, R.TST_PAT_CTL, R.TST_PAT_ERR, R.TST_PAT_BITS_LO, R.TST_PAT_BITS_HI]

/-- Bits and errors counted in a lane; past 2^48 bits the count is open. -/
def State.laneCount (s : State) (n bits errs : Nat) : State :=
  let l := s.lane n
  let e := min (l.errs + errs) 0xFFFFFFFF
  if l.bits + bits < 2 ^ 48 then s.laneMod n (fun x => { x with bits := l.bits + bits, errs := e })
  else s.drawn.laneMod n (fun x => { x with bits := s.free 48, errs := e })

/-- Stop a lane's pattern; the counts keep their values, which are open where the lane was in sync until now. -/
def State.laneStop (s : State) (n : Nat) : State :=
  if !(s.lane n).run then s
  else if (s.lane n).sync then
    (s.drawn.drawn.laneMod n (fun x => { x with run := false, sync := false, bits := s.free 48, errs := s.drawn.free 32 })).pcEvent 108 3 1
  else (s.laneMod n (fun x => { x with run := false })).pcEvent 108 3 1

/-- The margin step that runs ends with its errors (R540). -/
def State.margEnd (s : State) (errs : Nat) : State :=
  match s.tst.marg with
  | none => s
  | some _ =>
    let s := (s.set ⟨R.TST_MARG_STS, 0, 6⟩ (min errs 63)).setBit F.TST_MARG_STS.DONE true
    { s.setBit F.TST_MARG_CTL.START false with tst.marg := none }

/-- Every pattern and margin step stops (R506, R542). -/
def State.testStop (s : State) : State :=
  let s := (s.tst.lanes.map (fun (x : Nat × Lane) => x.1)).foldl State.laneStop s
  (s.drawn.margEnd (s.free 6)).laneShow

end Sys2Proof.Machine
end

