-- ==== Sys2Proof/Machine/FaultOps.lean ====
section
/-! DEFINITION. What the fault collector does when a source escalates: fencing, leases, Proctors, containment
(17_fault_collection.md R503–R515). -/

set_option autoImplicit false

namespace Sys2Proof.Machine

/-! ### Leases (R509) -/

/-- The lead Proctor. -/
def State.lead (s : State) : Nat := s.get F.FC_STS.LEAD

/-- A Proctor is healthy (R512). -/
def State.healthy (s : State) (p : Nat) : Bool := s.bit ⟨R.FC_STS, p, 1⟩

/-- The Proctors run: some Proctor is healthy and the core domain is in service. -/
def State.proctors (s : State) : Bool := s.coreUp && s.get F.FC_STS.HEALTHY != 0

/-- Leases that a block in service holds by its work: a Tutor its copies' source and copy blocks, program buffers and background slots (R221, Table 17.9), the
Sirocco engine its walker operations and items (R154, R283), a port and Caravan the credits of their requests, the lead Proctor the
mailbox commands in progress (R512). -/
def State.leasesOf (s : State) (n : Nat) : List LeaseOf :=
  if 72 ≤ n ∧ n ≤ 95 then
    let jobs := s.te.gc.filter (fun (g : GcJob) => g.tutor == n - 72)
    jobs.flatMap (fun (g : GcJob) =>
      let mine := s.te.progs.filter (fun (p : Prog) => p.die == g.die && p.kind == PKind.copy g.wear)
      LeaseOf.blockLock (2048 * g.die + g.src) ::
        ((s.blocksIn g.die 2).take 1).map (fun b => LeaseOf.blockLock (2048 * g.die + b)) ++
        mine.map (fun (p : Prog) => LeaseOf.programBuffer p.id) ++
        (s.te.reads.filter (fun (m : MRead) => m.issued && (match m.purpose with
          | .gather k _ _ => mine.any (fun (p : Prog) => p.id == k)
          | _ => false))).map (fun (m : MRead) => LeaseOf.backSlot m.id))
  else if n = 10 then
    (List.range (s.lc.walker.toList.length + s.lc.walkQ.length)).map LeaseOf.walker ++
      s.sir.refresh.map (fun (x : Nat × Nat × List (Nat × Loc)) => LeaseOf.sirItem x.1)
  else if n = 11 then
    (s.rt.reqs.filter (fun (r : Req) => match r.src with | .twin _ => true | .mirror _ => true | _ => false)).map (fun (r : Req) => LeaseOf.credit r.id)
  else if 12 ≤ n ∧ n ≤ 19 then
    (s.rt.reqs.filter (fun (r : Req) => match r.src with | .host p _ => p.val == n - 12 | _ => false)).map (fun (r : Req) => LeaseOf.credit r.id)
  else if n = 96 + s.lead then s.hp.bg.map LeaseOf.mailbox
  else []

/-- Leases that source n holds: those of a fenced block or a Proctor out are kept by the collector. -/
def State.held (s : State) (n : Nat) : List LeaseOf := (s.fc.leases.filter (fun (l : Lease) => l.holder == n)).map (fun (l : Lease) => l.res)

/-- A block gives up its work: what it holds stays leased until it is revoked. -/
def State.leaseKeep (s : State) (n : Nat) : State :=
  { s with fc.leases := s.fc.leases ++ (s.leasesOf n).map (fun (r : LeaseOf) => Lease.mk n r) }

/-- Source that grants a resource. -/
def LeaseOf.grantor : LeaseOf → Nat
  | .credit _ => 31
  | .backSlot _ => 31
  | .blockLock _ => 8
  | .walker _ => 7
  | .sirItem _ => 10
  | .programBuffer _ => 9
  | .mailbox p => if p < 8 then 12 + p else 92 + p

/-! ### Fencing (R506, R507) -/

/-- A walker operation is abandoned with its lease (R154): a register or mailbox operation ends with ERR = 7; an internal one waits
to begin again. -/
def State.walkAbandon (s : State) (o : WalkOp) : State :=
  match o.kind with
  | .range op _ =>
    match o.port with
    | some p => (s.bgDone p .aborted 0 [o.done, o.skipped, 7]).when (s.bit F.LC_CTL.EVT_EN) (fun s => s.roll 0x0400 0 7 op 7 o.skipped)
    | none =>
      let s := (((s.setBit F.LC_RANGE_STS.BUSY false).setBit F.LC_RANGE_STS.RUN false).setBit F.LC_RANGE_STS.DONE true).set F.LC_RANGE_STS.ERR 7
      let s := s.setBit F.LC_RANGE_CTL.START false
      s.when (s.bit F.LC_CTL.EVT_EN) (fun s => s.roll 0x0400 0 7 op 7 (s.num R.LC_RANGE_SKIPPED))
  | _ => { s with lc.walkQ := s.lc.walkQ ++ [{ o with pos := 0, way := 0, done := 0, skipped := 0, partl := false }] }

/-- The Sirocco engine's operations and items are abandoned (R154, R283). -/
def State.siroccoAbandon (s : State) : State :=
  let ops := s.lc.walker.toList ++ s.lc.walkQ
  ops.foldl State.walkAbandon { s with lc.walker := none, lc.walkQ := [], sir.refresh := [] }

/-- A Tutor's copies are abandoned (R221): tiles not yet committed stay in the source. -/
def State.tutorAbandon (s : State) (t : Nat) : State :=
  let jobs := s.te.gc.filter (fun (g : GcJob) => g.tutor == t)
  let mine := fun (p : Prog) => p.stage != PStage.busy && jobs.any (fun (g : GcJob) => p.die == g.die && p.kind == PKind.copy g.wear)
  let s := { s with te.gc := s.te.gc.filter (fun (g : GcJob) => g.tutor != t) }
  (s.te.progs.filter mine).foldl (fun s (p : Prog) => s.progDel p.id) s

/-- What fencing means for the block (Table 17.6). -/
def State.fenceEffect (s : State) (n : Nat) : State :=
  if n = 10 then s.siroccoAbandon
  else if n = 11 then s.drawn.linkLoss (s.free 3)
  else if 12 ≤ n ∧ n ≤ 19 then s.setBit (F.HP_STS.VIRAL (n - 12)) true
  else if 32 ≤ n ∧ n ≤ 71 then
    let c := n - 32
    let s := (s.setBit (F.MC_STS.FAILED c) true).setBit (F.MC_STS.TRAIN_BUSY c) false
    (((List.range (s.num (R.MC_DIES c) % 16)).foldl (fun s k => s.dieFail (8 * c + k)) s).mgShow c).pump
  else if 72 ≤ n ∧ n ≤ 95 then (s.set (F.CORE_STS.STATE (n - 72)) 2).tutorAbandon (n - 72)
  else if 100 ≤ n ∧ n ≤ 107 then s.mqPtrReset (n - 100)
  else if n = 108 then s.testStop
  else if 115 ≤ n ∧ n ≤ 119 then
    (s.te.stripes.filter (fun (x : Stripe) => !x.closed && x.group / 8 == n - 115)).foldl (fun s (x : Stripe) => s.stripeNoParity x.id) s
  else s

/-- Fence a block (R506): its third fence within 1 h of operating time stays until a reset (R507). -/
def State.fenceSrc (s : State) (n : Nat) : State :=
  if s.fencedSrc n then s
  else
    let now := s.opSeconds
    let l := ((s.fcSrc n).fences.filter (fun t => decide (now < t + 3600))) ++ [now]
    let s := (s.leaseKeep n).fcMod n (fun x => { x with fenced := true, revoked := false, fences := l, stuck := decide (3 ≤ l.length) })
    s.fenceEffect n

/-! ### Proctors (R512, R513) -/

/-- LEAD and the core pages follow HEALTHY (R26, Table 21.7). -/
def State.leadShow (s : State) : State :=
  let s := match (List.range 4).find? s.healthy with
    | some p => s.set F.FC_STS.LEAD p
    | none => s
  (List.range 4).foldl (fun s p => s.setBit (F.CORE_STS.LEAD (24 + p)) (s.healthy p && p == s.lead)) s

/-- A Proctor is taken out (R512); without a healthy Proctor the device contains (R513). -/
def State.proctorOut (s : State) (p : Nat) : State :=
  if !s.healthy p then s
  else
    let s := (s.leaseKeep (96 + p)).setBit ⟨R.FC_STS, p, 1⟩ false
    let s := (s.set (F.CORE_STS.STATE (24 + p)) 2).leadShow
    if s.get F.FC_STS.HEALTHY = 0 then (s.setBit F.FC_STS.NO_PROCTOR true).contain else s

/-! ### Escalation (R505) -/

/-- The second record of an escalation, with the action's code: 1 fence, 2 Proctor out, 3 containment, 4 record only. -/
def State.escRecord (s : State) (n code : Nat) : State :=
  let x := s.fcSrc n
  (s.bump R.FC_ESC_CNT).rbEvent (fltEvent ⟨n, x.sev, x.kind, x.detail⟩ code 0)

/-- A source escalates (Table 17.5); an injected fault only records while FC_CTL.INJ_NOACT is 1 (R500). -/
def State.escalate (s : State) (n : Nat) : State :=
  let x := s.fcSrc n
  let s := s.fcMod n (fun x => { x with timer := none })
  if x.kind = Kind.INJECT ∧ s.bit F.FC_CTL.INJ_NOACT then s.escRecord n 4
  else match srcClass n with
    | .a => if x.sev = 3 then (s.escRecord n 3).contain else (s.escRecord n 4).setBit F.FC_STS.DEGRADED true
    | .c => (s.escRecord n 3).contain
    | .f => (s.escRecord n 1).fenceSrc n
    | .p => (s.escRecord n 2).proctorOut (n - 96)

/-! ### Wire faults (R498) -/

/-- The pair of a source is in wire fault: counted, raised against the collector, and polled from then on. -/
def State.wireFault (s : State) (n : Nat) : State :=
  if (s.fcSrc n).wire || decide (124 < n) then s
  else
    let s := (s.fcMod n (fun x => { x with wire := true })).bump R.FC_WIRE_CNT
    let f : Flt := ⟨1, 2, Kind.WIRE, n⟩
    ((s.fltSts f).fltFirstTake [f]).fltTake f n

/-- The fault word of a source in wire fault is read: a new fault found there is taken as any other. -/
def State.wirePoll (s : State) (n : Nat) : State :=
  match (s.fcSrc n).word with
  | none => s
  | some f =>
    let s := (s.fcMod n (fun x => { x with word := none, wire := false })).raiseWindow [f]
    s.fcMod n (fun x => { x with wire := true })

/-! ### Revocation (R509–R511) -/

/-- A resource is released: a mailbox command ends with Internal Error (R512). -/
def State.leaseFree (s : State) (r : LeaseOf) : State :=
  match r with
  | .mailbox p =>
    let s := { s with hp.serialQ := s.hp.serialQ.filter (fun (x : ReplyTo × SerCmd) => x.1 != ReplyTo.bg p) }
    let s := if s.hp.serial = some (ReplyTo.bg p) then { s with hp.serial := none } else s
    s.bgDone p .internal 0 []
  | _ => s

/-- The revocation that runs releases every lease of its holder; `bad` says for each whether its check fails (R510). -/
def State.revokeEnd (s : State) (h : Nat) (bad : List Bool) : State :=
  let l := s.held h
  let s := { s with fc.leases := s.fc.leases.filter (fun (x : Lease) => x.holder != h) }
  let s := (l.zipIdx).foldl (fun s (x : LeaseOf × Nat) =>
    let s := s.leaseFree x.1
    s.when (bad.getD x.2 false) (fun s => s.raise x.1.grantor 1 Kind.CHECK)) s
  let s := if 12 ≤ h ∧ h ≤ 19 then s.portLost (h - 12) else s
  let fail := (l.zipIdx).any (fun (x : LeaseOf × Nat) => bad.getD x.2 false)
  let s := (s.wrN R.FC_REV_STS (h + 512 + (if fail then 1024 else 0) + min l.length 65535 * 65536)).addCnt R.FC_REVOKE_CNT l.length
  s.serPump

/-- A revocation starts, or waits while another runs. -/
def State.revokeStart (s : State) (h : Nat) : State :=
  let s := s.fcMod h (fun x => { x with revoked := true })
  if s.fc.revoking.isSome then { s with fc.revokeQ := s.fc.revokeQ ++ [h] }
  else { s.wrN R.FC_REV_STS (h + 256) with fc.revoking := some h }

/-- FC_UNFENCE returns the block (R507, Table 17.6). -/
def returnable (n : Nat) : Bool := n == 10 || (decide (72 ≤ n) && decide (n ≤ 95)) || (decide (100 ≤ n) && decide (n ≤ 108)) ||
  (decide (115 ≤ n) && decide (n ≤ 119))

end Sys2Proof.Machine
end

