-- ==== Sys2Proof/Machine/Arch.lean ====
section
/-! DEFINITION. The commands of the speed monitors, the admission guard, the governor and the time base (01_architecture.md R37–R47,
15_thermal_and_monitors.md R464). -/

set_option autoImplicit false

namespace Sys2Proof.Machine

/-- Index of monitor k in a window's eight indices, 11 bits each, in units of 1/1,024 (R37). -/
def monOf (idx : BitVec 88) (k : Nat) : Nat := idx.toNat / 2 ^ (11 * k) % 2048

/-- Highest guard level that a reading calls for (Table 1.6; 0.82, 0.76 and 0.70 in units of 1/1,024). -/
def guardCalls (v : Nat) : Nat := if v < 717 then 3 else if v < 779 then 2 else if v < 840 then 1 else 0

/-- Threshold at or above which a level is left for the one below (Table 1.6). -/
def guardReturn (level : Nat) : Nat := if level = 1 then 861 else if level = 2 then 799 else 738

/-- The lowest index and the monitor that has it; of monitors that tie, the lowest number (DESIGN CHOICE: R37 and SPD_MON name none; notes/assumptions/63). -/
def lowestMon (l : List Nat) : Nat × Nat :=
  (l.zipIdx).foldl (fun (b : Nat × Nat) (x : Nat × Nat) => if x.1 < b.1 then x else b) (l.getD 0 0, 0)

/-- Numbers in rising order. -/
def sortNat (l : List Nat) : List Nat :=
  (l.zipIdx.foldl (fun (acc : List (Nat × Nat)) (x : Nat × Nat) => sins (x.1 * 64 + x.2) x.1 acc) []).map (·.2)

/-- A monitor's index lies more than 0.10 below the median of the eight (R464). -/
def monOdd (l : List Nat) (v : Nat) : Bool :=
  let a := sortNat l
  decide (1024 + 10 * v < 5 * (a.getD 3 0 + a.getD 4 0))

/-- A window of the speed monitors ends (R37): the device index, the guard (R41) and the 0.62 floor (R44). -/
def execSpeedWindowEnd (idx : BitVec 88) (s : State) : Out :=
  if !s.coreUp || !s.refclk then .next s
  else
    let l := (List.range 8).map (monOf idx)
    let m := lowestMon l
    let s := s.bump (R.RT_LVL_WIN_CNT0 + 4 * s.get F.RT_STS.APPLIED_LVL)
    let odd := (l.zipIdx).map (fun (x : Nat × Nat) => if monOdd l x.1 then s.arch.odd.getD x.2 0 + 1 else 0)
    let s := { s with arch.mons := l, arch.odd := odd }
    let s := (s.set F.RT_SPD.SPD_IDX m.1).set F.RT_SPD.SPD_MON m.2
    let s := (s.set F.RT_SPD.SPD_MIN (min m.1 (s.get F.RT_SPD.SPD_MIN))).setBit F.RT_STS.SPD_VALID true
    let g := s.get F.RT_STS.GUARD_LVL
    let s := if g < guardCalls m.1 then { s.set F.RT_STS.GUARD_LVL (guardCalls m.1) with arch.retCnt := 0 }.applyLevel
      else { s with arch.retCnt := if 0 < g ∧ guardReturn g ≤ m.1 then s.arch.retCnt + 1 else 0 }
    .next (s.when (decide (m.1 < 635)) (fun s => s.raise 120 3 Kind.SUPPLY))

/-- The guard drops one level after 1,024 consecutive windows at or above the return threshold (R41). -/
def execGuardLevelReturn (s : State) : Out :=
  let g := s.get F.RT_STS.GUARD_LVL
  .next (if 0 < g ∧ 1024 ≤ s.arch.retCnt then { s.set F.RT_STS.GUARD_LVL (g - 1) with arch.retCnt := 0 }.applyLevel else s)

/-- A monitor has been odd in 128 consecutive windows (R464). -/
def execSpeedMonitorOdd (mon : Fin 8) (s : State) : Out :=
  .next (if s.coreUp ∧ 128 ≤ s.arch.odd.getD mon.val 0 ∧ !s.bit ⟨R.HK_STS, 16 + mon.val, 1⟩ then
    (s.setBit ⟨R.HK_STS, 16 + mon.val, 1⟩ true).raise 120 1 Kind.SUPPLY else s)

/-- Offset of a margined VCORE, 0 when it is not margined. -/
def State.vcoreOff (s : State) : Int :=
  match s.psq.marg.find? (fun (x : Nat × Int) => s.entVcore x.1) with
  | some x => x.2
  | none => 0

/-- The governor's set_vcore: a new set point without margin, between 0.68 V and 0.85 V. -/
def State.setVcore (s : State) (mv : Nat) : State := { s with arch.vset := mv }.vcoreWrite (vcoreTarget mv s.vcoreOff)

/-- The governor's evaluation by the lead Proctor (R26, R39, R40): none without a healthy Proctor and none while a write has not settled.
The index is compared exactly with the decimal thresholds (R37). -/
def execGovernorEvaluation (s : State) : Out :=
  if !s.proctors || decide (s.get F.BOOT_STS.PHASE < 3) || s.arch.pend.isSome || !s.bit F.RT_STS.SPD_VALID then .next s
  else
    let v := s.get F.RT_SPD.SPD_IDX
    let a := s.arch
    if v < 840 then .next ({ s with arch.hold := 0 }.setVcore (min (a.vset + 4 * a.govStep) 850))
    else if 100 * v < 1024 * a.govLow then .next ({ s with arch.hold := 0 }.setVcore (min (a.vset + a.govStep) 850))
    else if 1024 * a.govHigh < 100 * v ∧ s.get F.RT_STS.APPLIED_LVL = 0 ∧ !(s.psq.marg.any (fun (x : Nat × Int) => s.entVcore x.1)) then
      if a.govHold ≤ a.hold + 1 then .next ({ s with arch.hold := 0 }.setVcore (max (a.vset - a.govStep) 680))
      else .next { s with arch.hold := a.hold + 1 }
    else .next { s with arch.hold := 0 }

/-- An AVSBus write has settled, or was not acknowledged or failed its PEC check (R40). -/
def execAvsbusWriteDone (ok : Bool) (s : State) : Out :=
  match s.arch.pend with
  | none => .next s
  | some (mv, retry) =>
    if ok then .next { s with arch.pend := none, arch.vack := mv }
    else if !retry then .next ({ s with arch.pend := some (mv, true) }.emit (.avs 0 mv))
    else
      let s := (s.set F.PSQ_VCORE.VCORE s.arch.vack).raise 122 2 Kind.LINK
      .next { s with arch.pend := none, arch.vset := if s.vcoreOff = 0 then s.arch.vack else s.arch.vset }

/-- The tick copies are compared with page 0 (R46): a copy that differs is reloaded, with a severity-1 fault against its page. -/
def execTickCopyCompare (differ : BitVec 110) (s : State) : Out :=
  .next (((List.range 110).filter (fun p => p != 0 && differ.getLsbD p)).foldl (fun s p => s.raise p 1 Kind.CHECK) s)

/-- REFCLK is declared absent (R47): the copies hold and the links go down. -/
def execRefclkAbsent (s : State) : Out :=
  if !s.refclk then .next s
  else
    let s := { s with refclk := false }.raise 121 2 Kind.SUPPLY
    let s := (List.range 8).foldl (fun s p => s.hostLinkDown p) s
    .next (s.when s.coreUp (fun s => s.linkLoss 1))

/-- REFCLK returns: counting resumes from the held value (R47). -/
def execRefclkReturn (s : State) : Out := .next { s with refclk := true }

end Sys2Proof.Machine
end

