-- ==== Sys2Proof/Machine/Dram.lean ====
section
/-! DEFINITION. The commands of the DRAM channels (13_dram_channels.md). -/

set_option autoImplicit false

namespace Sys2Proof.Machine

/-- Every channel is trained. -/
def State.dramReady (s : State) : Bool := (List.range 6).all (fun ch => s.bit (F.DC_STS.TRAINED ch))

/-- Exported capacity of n dies in units of 256 MiB: 16 TiB at 320 dies (Table 1.8, R50). -/
def capOf (n : Nat) : Nat := max 1 (min 65536 (65536 * n / 320))

/-- Dies of the module: those recorded at formatting, before it those that the configuration places. -/
def State.dieCount (s : State) : Nat :=
  if s.te.fmt.isEmpty then (List.range 40).foldl (fun n c => n + s.num (R.MC_DIES c) % 16) 0 else s.te.fmt.length

/-- What the number has reached shows again after a reset; neither state is entered anew (R191: the read-only state cannot be left). -/
def State.seqShow (s : State) : State :=
  let n := s.seqNext
  let s := s.setBit F.TE_STS.SEQ_WARN (decide (2 ^ 48 - 2 ^ 36 ≤ n))
  if 2 ^ 48 - 2 ^ 20 ≤ n then { s.setBit F.TE_STS.SEQ_RO true with te.readOnly := true } else s

/-- The page sequence number resumes, and PAGE_SEQ_HW is incremented twice before the first program (R190). -/
def State.seqResume (s : State) : State :=
  let k := s.counter 3
  let n := (k + 1) * 2 ^ 20
  let s := (((s.wrN R.TE_SEQ_LO n).wrN R.TE_SEQ_HI (n / 2 ^ 32)).wrN R.TE_SEQ_HW_LO (k * 2 ^ 20)).wrN R.TE_SEQ_HW_HI (k * 2 ^ 20 / 2 ^ 32)
  ({ s.seqShow with te.hwAsked := 2 }.pstAdd (.counterInc 3)).pstAdd (.counterInc 3)

/-- GiB of DRAM that the channels' populations give (R397, R398). -/
def State.dramGiB (s : State) : Nat :=
  (List.range 6).foldl (fun n ch =>
    n + 16 * (if s.bit (F.DC_CFG.WIDTH ch) then 1 else 2) * (if s.bit (F.DC_CFG.RANKS ch) then 2 else 1)) 0

/-- Tile-stage slots that the DRAM holds: what Table 13.2 leaves, 4,992 bytes a slot (R399). -/
def State.slotRoom (s : State) : Nat :=
  (s.dramGiB * 2 ^ 30 - (38 * 2 ^ 30 + 2 ^ 29) - 6871947674 - 2516583 - 2 ^ 30) / 4992

/-- Phase 4 completes once the firmware runs and every channel is trained (Table 19.1); the latched dirty count is then judged
(R557). -/
def State.dramPhase (s : State) : State :=
  if s.get F.BOOT_STS.PHASE = 3 ∧ s.dramReady ∧ !s.bit F.BOOT_STS.HALT then
    let all := (List.range 6).all (fun ch => s.bit (F.DC_STS.KEPT ch))
    let s := { (s.set F.BOOT_STS.PHASE 4).wrN R.TS_SLOT_CNT s.slotRoom with boot.kept := s.boot.kept && all, boot.dram := s.boot.dram && all, boot.dramAt := s.tick.toNat }
    let s := ((s.setBit F.TE_STS.BLD_BUSY true).set F.TE_STS.BLD_STEP 1).seqResume
    s.latchedLoss.tsStatus
  else s

/-- A channel's training ends (R407, Table 13.4): a first failure repeats it, a second halts start-up; a population that differs from
DC_CFG, or that falls short of 24 GiB per TiB, halts it (R398); a channel in self-refresh keeps its contents (R408). -/
def execDramTraining (ch : Fin 6) (ok popOk : Bool) (s : State) : Out :=
  if !s.coreUp || decide (s.get F.BOOT_STS.PHASE < 2) || s.bit (F.DC_STS.TRAINED ch) || s.bit (F.DC_STS.FAILED ch) then .next s
  else if !ok then
    if s.dc.again.contains ch.val then
      .next ((((s.setBit (F.DC_STS.FAILED ch) true).setBit (F.DC_STS.TRAIN_BUSY ch) false).raise (20 + ch) 3 Kind.EXT).bootHalt 3)
    else
      .next (({ s with dc.again := setIns ch.val s.dc.again }.setBit (F.DC_STS.TRAIN_BUSY ch) true).emit (.pin (.dcResetN ch.val) (some true)))
  else if !popOk || decide (s.dramGiB * 4096 < 24 * capOf s.dieCount) then .next ((s.setBit (F.DC_STS.TRAIN_BUSY ch) false).bootHalt 6)
  else
    let kept := s.bit (F.DC_STS.SELF_REF ch)
    let s := ((s.setBit (F.DC_STS.TRAIN_BUSY ch) false).setBit (F.DC_STS.SELF_REF ch) false).setBit (F.DC_STS.KEPT ch) kept
    let s := (s.setBit (F.DC_STS.TRAINED ch) true).emit (.pin (.dcResetN ch.val) (some true))
    .next { s with dc.passAt := sset 0 s.dc.passAt ch s.tick.toNat, dc.again := setDel ch.val s.dc.again }.dramPhase

/-- A same-bank refresh: the six channels of a stripe group take a bank index in turn (R403, R404). -/
def execDramRefresh (group : Fin 2) (bank : Fin 32) (s : State) : Out :=
  let k := group.val * 32 + bank.val
  let ch := sget 0 s.dc.turn k
  if s.coreUp && s.bit (F.DC_STS.TRAINED ch) then
    .next ({ s with dc.turn := sset 0 s.dc.turn k ((ch + 1) % 6) }.emit (.other 13 [ch, group.val, bank.val]))
  else .next s

/-- MR4 of every device of a channel has been read (R403): the rate doubles at once and returns after 1 s without the indication; an
out-of-range level is a severity-2 fault with a Memory Module Event record. -/
def execMr4Poll (ch : Fin 6) (code : BitVec 3) (hot oor : Bool) (s : State) : Out :=
  if !s.coreUp || !s.bit (F.DC_STS.TRAINED ch) then .next s
  else
    let had := s.bit ⟨R.DC_MR4 ch, 3, 1⟩
    let was := s.bit (F.DC_STS.HOT ch)
    let s := s.wrN (R.DC_MR4 ch) (code.toNat + 8 * oor.toNat)
    let s := if hot then { s with dc.hotAt := sset 0 s.dc.hotAt ch s.tick.toNat } else s
    let is := hot || (was && decide (s.tick.toNat < sget 0 s.dc.hotAt ch + 100000000))
    let s := s.setBit (F.DC_STS.HOT ch) is
    let s := s.when (was != is && s.bit (F.DC_CTL.EVT_EN ch)) (fun s => s.roll 0x0B00 0 (20 + ch) ch 0 0)
    let s := s.when (oor && !had) (fun s => (s.raise (20 + ch) 2 Kind.EXT).moduleEvent [20 + ch])
    .next s.condsNow

/-- A host program's buffer is filled again from its slots (Table 13.5: step 1 of Table 4.6); a copy is read from its source again,
a parity page from its accumulator and a checkpoint page from the captured segment, with the same data. An issued program is in its die. -/
def State.progRestart (s : State) (id : Nat) : State :=
  match s.te.progs.find? (fun (p : Prog) => p.id == id && decide (p.stage ≠ PStage.busy)) with
  | none => s
  | some p =>
    let s := { s with ce.jobs := s.ce.jobs.filter (fun (j : Nat × CipherJob) => j.2 != CipherJob.program id) }
    match p.kind with
    | .host =>
      let tiles := p.tiles.zipIdx.map (fun (x : Option PTile × Nat) => x.1.map (fun t =>
        { t with data := s.bufTile p.buf x.2 t.slot t.present (t.partl || (s.slot t.slot).loc.isSome) }))
      let need := (tiles.zipIdx.map (fun (x : Option PTile × Nat) => match x.1 with
        | some t => needLines x.2 t (s.slot t.slot).loc
        | none => [])).flatten
      let mine := fun (m : MRead) => match m.purpose with | .gather i _ _ => i == id | _ => false
      let s := { s.xtsUse.progMod id (fun p => { p with tiles := tiles, need := need, stage := .gather }) with
        te.reads := s.te.reads.filter (fun m => !mine m) }
      (need.foldl (fun s (x : Nat × Nat) => match tiles[x.1]? with
        | some (some t) => match (s.slot t.slot).loc with
          | some l => (s.issueRead (.gather id x.1 x.2) l (64 * l.tip + x.2)).bump R.TS_FILL_RD_CNT
          | none => s
        | _ => s) s).progGathered id
    | .copy _ => (s.progMod id (fun p => { p with stage := .gather })).progGathered id
    | .parity _ | .ckpt _ _ => (s.progMod id (fun p => { p with stage := .number })).progNumber { p with stage := .number }

/-- Areas laid out in stripes (Table 13.2). -/
def dramStriped : DramArea → Bool
  | .slotLine _ _ | .mapEntry _ | .bucket _ | .parity => true
  | _ => false

/-- The handling of an uncorrectable word that is not rebuilt (Table 13.5). -/
def State.scrubLost (s : State) (area : DramArea) : State :=
  match area with
  | .slotLine n k =>
    let x := s.slot n
    match x.tile with
    | none => s
    | some t =>
      let line := 64 * t + k.val
      if x.lineSt k ≥ 2 then
        if s.partnerCopy line then s.repReq line (.background line none false) else (s.poisonLine line).lineEvents line 9
      else s.slotMod n (fun x => { x with st := serase x.st k, data := serase x.data k })
  | .mapEntry t => { s with te.bad := setIns t.toNat s.te.bad }.setBit F.TE_STS.REPAIR_BUSY true
  | .bucket b => { s with te.badBuckets := setIns b s.te.badBuckets }
  | .parity => s
  | .blockTable _ _ => s
  | .bitmap w => (List.range 32).foldl (fun s k => s.bmapSet (32 * w.toNat + k)) s
  | .fenceList => { s.setBit F.CAR_STS.FLIST_VALID false with tw.flist := [] }
  | .programBuffer id => s.progRestart id
  | .journalBuffer => s.ckptAll
  | .ledger n => { s with sir.ledger := s.sir.ledger.eraseIdx n }
  | .refTable d k =>
    (List.range 8).foldl (fun s n => { s with sir.refined := serase s.sir.refined ((d.val * 4 + k.val) * 8 + n) }) s |>.refChanged d
  | .other => s

/-- A pass of the scrub ends (R409). -/
def State.scrubPassEnd (s : State) (ch : Nat) : State :=
  let s := (s.bump (R.DC_SCRUB_PASS ch)).wrN (R.DC_SCRUB_LAG ch) 0
  { s with dc.passAt := sset 0 s.dc.passAt ch s.tick.toNat }

/-- The scrub reads a word (R409, R410): a corrected word is rewritten, an uncorrectable one is rebuilt from its stripe or handled by
its area; the lag follows the pass's period. -/
def execDramScrubWord (ch : Fin 6) (res : DramRes) (area : DramArea) (last : Bool) (s : State) : Out :=
  if !s.coreUp || !s.bit (F.DC_STS.TRAINED ch) || s.bit (F.DC_STS.FAILED ch) || !s.bit (F.DC_CTL.SCRUB_EN ch) then .next s
  else
    let res : DramRes := match res with
      | .recon => .ok
      | .rebuilt => if dramStriped area then .rebuilt else .ue
      | r => r
    let s := s.dramRead ch res
    let s := if res = .ue then s.scrubLost area else s
    let due := sget 0 s.dc.passAt ch + s.num (R.DC_SCRUB_PERIOD ch) * 360000000000
    let s := s.wrN (R.DC_SCRUB_LAG ch) (min ((s.tick.toNat - due) / 100000) 0xFFFFFFFF)
    .next (if last then s.scrubPassEnd ch else s)

/-- A write of DC_CNT_CLR (R412). -/
def execDcCntClr (ch : Fin 6) (path : Path) (v : Word) (s : State) : Out :=
  let s := s.regAcc (20 + ch)
  .next (s.when (s.isManager path) (fun s =>
    (s.when (v.getLsbD 0) (fun s => s.zero (regRange (R.DC_CE_CNT ch) 5))).when (v.getLsbD 1) (fun s => s.zero [R.DC_SCRUB_PASS ch])))

/-- A channel's PHY has lost lock: the channel is lost (R411). -/
def execDramPhyLockLoss (ch : Fin 6) (s : State) : Out :=
  .next (if s.coreUp && s.bit (F.DC_STS.TRAINED ch) && !s.bit (F.DC_STS.FAILED ch) then s.dramLost ch else s)

/-- A device reports a write CRC error (R411): the burst is retried once; an error of the retry loses the channel. -/
def execDramWriteCrcError (ch : Fin 6) (again : Bool) (s : State) : Out :=
  .next (if s.coreUp && s.bit (F.DC_STS.TRAINED ch) && !s.bit (F.DC_STS.FAILED ch) then
    (if again then s.dramLost ch else s.bump (R.DC_CRC_RETRY ch)) else s)

end Sys2Proof.Machine
end

