-- ==== Sys2Proof/Machine/Store.lean ====
section
/-! DEFINITION. The commands of the parameter store and the Roll book (16_parameter_store_and_roll_book.md). -/

set_option autoImplicit false

namespace Sys2Proof.Machine

/-- The other row of a spread-cell area. -/
def otherRow (base row : Nat) : Nat := base + (base + 1 - row)

/-- The base row of the area that a job writes a cell of. -/
def PstJob.cellBase : PstJob → Option Nat
  | .counterInc i | .counterTo i _ => some (counterRow i)
  | .status a _ | .record a _ => some (areaRow a)
  | .config r _ _ => some (configRow r)
  | .anchor r _ => some (anchorRow r)
  | _ => none

/-- The end of an archive and clear's erase of one row (R491): the slots are free, FULL clears, and the last row ends
the clear with record 0x0001. -/
def State.clearStep (s : State) (row : Nat) : State :=
  match s.rb.clearing with
  | none => s
  | some (rows, n, last) =>
    if rows.contains row then
      let left := rows.filter (fun r => r != row)
      let s := (s.wrN R.RB_COUNT (s.num R.RB_COUNT - 8)).setBit F.RB_STS.FULL false
      if left.isEmpty then
        let s := { s.setBit F.RB_STS.CLEARING false with rb.clearing := none }.roll 0x0001 0 5 n (s.num R.RB_HEAD / 8) last
        match s.hp.archiver with
        | some p => { s with hp.archiver := none }.bgDone p .success 0 []
        | none => s
      else { s with rb.clearing := some (left, n, last) }
    else s

/-- RB_STS.READY is set once every task of AON ready has completed (R486). -/
def State.rbReadyShow (s : State) : State :=
  if s.dom.aon && s.rb.tasks.isEmpty && !s.bit F.PST_STS.RESCUE then s.setBit F.RB_STS.READY true else s

/-- What follows the last step of a job: the erase of the former live row once a cell is valid in the spare (R478),
and the status bits of a commit, a user erase, a clear or a restore. `row` is the row of the last step. -/
def State.pstFinish (s : State) (j : PstJob) (row : Nat) : State :=
  let s := match j.cellBase with
    | none => s
    | some base =>
      if row = base ∨ row = base + 1 then
        if s.rowErased (otherRow base row) then s else s.pstAdd (.pingPong (otherRow base row))
      else s
  match j with
  | .config _ _ true => s.setBit F.PST_STS.COMMIT_BUSY false
  | .userErase _ => s.setBit F.PST_STS.ERASE_BUSY false
  | .pingPong r => ({ s with rb.tasks := s.rb.tasks.filter (fun k => k != r) }.rbReadyShow).clearStep r
  | .restore _ => s.setBit F.PST_STS.RESCUE false
  | .rescue _ => (s.setBit F.PST_STS.RESCUE false).rbReadyShow
  | _ => s

/-- A step of the operation in progress has ended well: continue it at its place in the order, or finish it. -/
def State.pstStepped (s : State) (o : PstOp) (row : Nat) : State :=
  match o.steps.tail with
  | [] => (({ s with pst.cur := none }.pcEvent 4 3 1).pstFinish o.job row).pstNext
  | rest =>
    { s with pst.cur := none, pst.queue := { o with steps := rest } :: s.pst.queue }.pstNext

/-- The readings that the supply check of the next operation meets. -/
def State.supplyReading (s : State) (auxMv capMv : BitVec 12) : State :=
  { s with pst.auxMv := auxMv.toNat, pst.capMv := capMv.toNat }

/-- A verify failure (R474): counted, faulted and recorded. -/
def State.pstVerifyFail (s : State) (addr : Nat) : State :=
  ((s.bump R.PST_WR_FAIL).raise 4 2 Kind.UE).roll 0x0003 0 4 addr 0 0

/-- A word program completes and is read back (R468, R474). A failed cell counts as cut short and is written once
more at the next position. -/
def execPstProgramDone (readBack : Word) (auxMv capMv : BitVec 12) (s : State) : Out :=
  let s := s.supplyReading auxMv capMv
  match s.pst.cur, s.pst.failing with
  | some o, false =>
    match o.steps with
    | .program a w :: _ =>
      let s := { s with pst.words := sset erasedWord s.pst.words a readBack }
      if readBack = w then .next (s.pstStepped o (a / 64))
      else
        let s := s.pstVerifyFail a
        if o.job.cellBase.isSome && !o.second then
          .next { s with pst.cur := none
                         pst.queue := { o with steps := [], planned := false, second := true } :: s.pst.queue }.pstNext
        else .next (s.pstStepped o (a / 64))
    | _ => .next s
  | _, _ => .next s

/-- A row erase completes (R468). -/
def execPstEraseDone (auxMv capMv : BitVec 12) (s : State) : Out :=
  let s := s.supplyReading auxMv capMv
  match s.pst.cur, s.pst.failing with
  | some o, false =>
    match o.steps with
    | .erase r :: _ => .next ((s.eraseRow r).pstStepped o r)
    | _ => .next s
  | _, _ => .next s

/-- The failed supply check is made again (R472). -/
def execPstSupplyRetry (auxMv capMv : BitVec 12) (s : State) : Out :=
  let s := s.supplyReading auxMv capMv
  if s.pst.failing then .next s.pstCheck.pstAnswer else .next s

/-- Where an abandoned operation leaves the status bits, and the writes of the device itself that are requested again
(R472, R475). -/
def State.pstAbandon (s : State) : PstJob → State
  | .window _ _ => s.setBit F.PST_STS.WIN_REFUSED true
  | .userErase _ => (s.setBit F.PST_STS.ERASE_BUSY false).setBit F.PST_STS.WIN_REFUSED true
  | .config _ _ true => (s.setBit F.PST_STS.COMMIT_BUSY false).setBit F.PST_STS.WIN_REFUSED true
  | j => { s with pst.rereq := s.pst.rereq ++ [j] }

/-- After 2 ms of failed checks the operation is abandoned (R472). -/
def execPstSupplyAbandon (s : State) : Out :=
  match s.pst.cur, s.pst.failing with
  | some o, true =>
    let s := { s with pst.cur := none, pst.failing := false }
    let s := ((s.bump R.PST_SUPPLY_FAIL).setBit F.PST_STS.SUPPLY_LOW true).raise 4 2 Kind.SUPPLY
    .next ((s.pstAbandon o.job).pstNext)
  | _, _ => .next s

/-- 100 ms after it was abandoned, a write of the device is requested again (R472). -/
def execPstWriteRerequest (s : State) : Out :=
  match s.pst.rereq with
  | [] => .next s
  | j :: t => .next ({ s with pst.rereq := t }.pstAdd j)

/-- A read of a data-window word is answered once no program or erase of the row is in progress (R475). -/
def execPstWinRead (path : Path) (k : Fin 64) (s : State) : Out :=
  let s := s.regAcc 4
  if !s.mgrOrOob path then .next (s.emit (.regRead path (R.PST_WIN k) 0))
  else .next { s with pst.reads := s.pst.reads ++ [(path, R.PST_WIN k, 64 * s.num R.PST_ROW + k)] }.pstAnswer

/-- A row is a user row (Table 16.1). -/
def userRow (r : Nat) : Bool := decide (1984 ≤ r) && decide (r ≤ 2047)

/-- A write of a data-window word programs an erased word of a user row; any other write is refused (R475). -/
def execPstWinWrite (path : Path) (k : Fin 64) (w : Word) (s : State) : Out :=
  let s := s.regAcc 4
  let r := s.num R.PST_ROW
  if !s.mgrOrOob path then .next s
  else if userRow r && s.pstWord r k == erasedWord &&
      !(s.pst.queue.any (fun o => match o.job with | .window a _ => a == 64 * r + k | _ => false)) then
    .next (s.pstAdd (.window (64 * r + k) w))
  else .next (s.setBit F.PST_STS.WIN_REFUSED true)

/-- PST_CMD ERASE erases the user row that PST_ROW names (R483); for any other row the command is refused. -/
def execPstErase (path : Path) (s : State) : Out :=
  let s := s.regAcc 4
  if s.mgrOrOob path then
    if userRow (s.num R.PST_ROW) then
      .next ((s.setBit F.PST_STS.ERASE_BUSY true).pstAdd (.userErase (s.num R.PST_ROW)))
    else .next (s.setBit F.PST_STS.WIN_REFUSED true)
  else .next s

/-- Draw free values into the staging registers, for an empty record. -/
def State.stageFree (s : State) : State :=
  (List.range 62).foldl (fun s k => (s.wrN (R.PST_STG k) (s.free 32)).drawn) s

/-- PST_CMD LOAD copies a configuration record into PST_STG0–PST_STG61 (R482). -/
def execPstLoad (path : Path) (num : Fin 8) (s : State) : Out :=
  let s := s.regAcc 4
  if s.mgrOrOob path then
    match s.configOf num with
    | none => .next s.stageFree
    | some ws => .next (ws.zipIdx.foldl (fun s (x : Word × Nat) => s.wr (R.PST_STG x.2) x.1) s)
  else .next s

/-- PST_CMD COMMIT writes the staged record as a new cell, only through the out-of-band target and in phase OFF or
LOCKOUT (R482); otherwise the command is refused. -/
def execPstCommit (path : Path) (num : Fin 8) (s : State) : Out :=
  let s := s.regAcc 4
  if path = .oob ∧ (s.get F.PSQ_STS.PHASE = 0 ∨ s.get F.PSQ_STS.PHASE = 8) then
    .next ((s.setBit F.PST_STS.COMMIT_BUSY true).pstAdd
      (.config num ((List.range 62).map (fun k => s.rd (R.PST_STG k))) true))
  else if s.mgrOrOob path then .next (s.setBit F.PST_STS.WIN_REFUSED true)
  else .next s

/-- The patrol margin-reads one row; `weak` is the first failing word, if any. A weak row is counted, recorded and
restored; a weak user row only sets USER_WEAK (R484). -/
def execPstPatrolRow (weak : Option (Fin 64)) (s : State) : Out :=
  if s.bit F.PST_CTL.PATROL_EN then
    let r := s.num R.PST_PATROL_ROW
    let s := s.wrN R.PST_PATROL_ROW ((r + 1) % 2048)
    match weak with
    | none => .next s
    | some n =>
      if s.pstWord r n = erasedWord then .next s
      else
        let s := (s.bump R.PST_WEAK_CNT).roll 0x0002 0 4 r n 0
        if userRow r then .next (s.setBit F.PST_STS.USER_WEAK true)
        else .next ((s.when (rowArea r).isNone (fun s => s.setBit F.PST_STS.RESCUE true)).pstAdd (.restore r))
  else .next s

/-- A write of PST_CNT_CLR: bit 0 clears 0x124–0x12C (Table 16.7). -/
def execPstCntClr (path : Path) (v : Word) (s : State) : Out :=
  let s := s.regAcc 4
  .next (s.when (s.mgrOrOob path && v.getLsbD 0)
    (fun s => s.zero [R.PST_WEAK_CNT, R.PST_WR_FAIL, R.PST_SUPPLY_FAIL]))

/-- Words 0 and 2–7 of a record; word 1 is REPEAT (Table 16.5). -/
def recWord (r : RbRec) (n : Nat) : Word :=
  let w0 : Word := BitVec.ofNat 32 (r.ev.code % 65536 + r.ev.sev % 16 * 65536 + r.ev.src % 256 * 2 ^ 20 + r.flags % 16 * 2 ^ 28)
  let w2 : Word := BitVec.ofNat 32 r.opSeconds
  let w3 : Word := BitVec.ofNat 32 r.powerCycle
  match n with
  | 0 => w0
  | 2 => w2
  | 3 => w3
  | 4 => r.ev.p0
  | 5 => r.ev.p1
  | 6 => r.ev.p2
  | 7 => BitVec.ofNat 32 (crc16 (([w0, w2, w3, r.ev.p0, r.ev.p1, r.ev.p2].flatMap wordBytes) ++ [0xA5]) + 0xA5 * 2 ^ 24)
  | _ => erasedWord

/-- Program the word 1 of a closed record that still waits for it (R489). -/
def State.rbWriteClosing (s : State) : State :=
  match s.rb.closing with
  | none => s
  | some (slot, n) =>
    { s with rb.closing := none, pst.words := sset erasedWord s.pst.words (8 * slot + 1) (BitVec.ofNat 32 n) }

/-- Program the words of the record at the front of the queue into the tail slot (R488, R489). `bad` is a word that
reads back otherwise. -/
def State.rbWriteFront (s : State) (bad : Option (Fin 8 × Word)) : State :=
  match s.rb.queue with
  | [] => s
  | r :: rest =>
    let slot := s.num R.RB_TAIL
    let words := ([0, 2, 3, 4, 5, 6, 7].map (fun n => (8 * slot + n, recWord r n))) ++
      (match r.rep with | none => [] | some n => [(8 * slot + 1, (BitVec.ofNat 32 n : Word))])
    let words := match bad with
      | none => words
      | some (k, w) => words.map (fun (x : Nat × Word) => if x.1 = 8 * slot + k.val then (x.1, w) else x)
    let s := words.foldl (fun s (x : Nat × Word) => { s with pst.words := sset erasedWord s.pst.words x.1 x.2 }) s
    let s := { s with
        rb.queue := rest
        rb.opened := if r.rep.isNone then some (r.ev, some slot) else s.rb.opened }
    let s := (s.wrN R.RB_TAIL ((slot + 1) % 8192)).wrN R.RB_COUNT (s.num R.RB_COUNT + 1)
    let s := (s.setBit F.RB_STS.FULL (decide (s.num R.RB_COUNT ≥ 8192))).rbCountQueue
    match bad with
    | none => s.pcEvent 5 3 1
    | some (k, _) => s.pstVerifyFail (8 * slot + k)

/-- A queued record is programmed into its slot, after the word 1 of a record closed before it. It waits while RB_STS.READY
is 0, while an operation that goes before Roll book words is in progress or waits (R473), while a restore of rows runs
(R484), while the latest supply readings fail the checks of R471, and for a free slot (R490). -/
def execRollBookRecordWrite (bad : Option (Fin 8 × Word)) (s : State) : Out :=
  if s.bit F.RB_STS.READY && !s.bit F.PST_STS.RESCUE && s.supplyGood && s.pst.cur.all (fun o => decide (o.job.rank > 4)) &&
      s.pst.queue.all (fun o => decide (o.job.rank > 4)) then
    let s := s.rbWriteClosing
    if s.num R.RB_COUNT < 8192 then .next (s.rbWriteFront bad) else .next s
  else .next s

/-- A read of RB_REC0–RB_REC7 is a data access of the store; REPEAT of the open record reads RB_OPEN_REPEAT (R489, R493). -/
def execRbRecRead (path : Path) (k : Fin 8) (s : State) : Out :=
  let s := s.regAcc 5
  let slot := s.num R.RB_SEL
  if !s.mgrOrOob path then .next (s.emit (.regRead path (R.RB_REC k) 0))
  else if k.val = 1 ∧ s.rb.opened.any (fun o => o.2 == some slot) then
    .next (s.emit (.regRead path (R.RB_REC 1) (BitVec.ofNat 32 (s.num R.RB_OPEN_REPEAT))))
  else .next { s with pst.reads := s.pst.reads ++ [(path, R.RB_REC k, 8 * slot + k)] }.pstAnswer

/-- A write of RB_CNT_CLR: bit 0 clears RB_DROPPED (Table 16.9). -/
def execRbCntClr (path : Path) (v : Word) (s : State) : Out :=
  let s := s.regAcc 5
  .next (s.when (s.mgrOrOob path && v.getLsbD 0) (fun s => s.zero [R.RB_DROPPED]))

end Sys2Proof.Machine
end

