-- ==== Sys2Proof/Machine/BootOps.lean ====
section
/-! DEFINITION. Start-up as operations: configuration fields (00_scope.md R15; 16_parameter_store_and_roll_book.md R482), locks
(21_register_pages.md R584, R585), the tasks of AON ready (16_parameter_store_and_roll_book.md R478, R484, R486), the region table out
of its records (Table 16.4; 10_cipher_engine.md R300, R310), and the AUX power-on reset (19_startup_reset_and_pin_states.md R554). -/

set_option autoImplicit false

namespace Sys2Proof.Machine

/-! ### Configuration fields -/

/-- Pages of the AON domain (Table 21.4). -/
def aonPage (p : Nat) : Bool := p == 0 || (decide (2 ≤ p) && decide (p ≤ 5))

/-- A word with its ranged fields at the nearest limits (R84, R137 and their like). -/
def clampWord (l : List RegClamp) (w : Word) : Word :=
  l.foldl (fun (w : Word) (c : RegClamp) =>
    let f : Fld := ⟨0, c.lo, c.width⟩
    fldPut f w (min c.max (max c.min (fldOf f w)))) w

/-- The defaults that a register's ranges give. -/
def defaultWord (l : List RegClamp) : Word := l.foldl (fun (w : Word) (c : RegClamp) => fldPut ⟨0, c.lo, c.width⟩ w c.dflt) 0

/-- Window offsets of a row of the register table. -/
def defOffsets (d : RegDef) : List Nat :=
  (List.range d.pages).flatMap (fun p => (List.range d.count).map (fun k => (d.page + p) * 0x1000 + d.off + k * d.stride))

/-- Registers of the line cache that keep their values across every reset but those that take the power (Table 5.7, Table 5.8). -/
def lcKeptRegs : List Nat := [R.LC_CTL, R.LC_LOCK_WAYS, R.LC_LOCK_MAX]

/-- The nearest value within limits. -/
def near (lo hi v : Nat) : Nat := min hi (max lo v)

/-- Load the fields whose Reset reads cfg in the pages of one side, but for the registers kept: the value given last, else the default of
the table (R15, R482). -/
def State.cfgLoad (s : State) (aon : Bool) (keep : List Nat) (vals : List (BitVec 24 × Word)) : State :=
  let defs := regDefs.filter (fun d => d.cfg != (0 : Word))
  { s with regs := defs.foldl (fun (r : Sparse Word) (d : RegDef) => (defOffsets d).foldl (fun (r : Sparse Word) o =>
      if aonPage (o / 0x1000) != aon || keep.contains o then r
      else
        let given := (vals.filter (fun (x : BitVec 24 × Word) => x.1.toNat == o)).getLast?
        let w := match given with | some x => clampWord d.clamps x.2 | none => defaultWord d.clamps
        sset 0 r o ((sget 0 r o &&& ~~~d.cfg) ||| (w &&& d.cfg))) r) s.regs }

/-! ### Locks (R584, R585) -/

/-- Page offset of a page's lock register (Table 21.1). -/
def lockOff (page : Nat) : Option Nat :=
  if page = 0 ∨ page = 7 then some 0x118 else if page = 1 then some 0x1C4 else if page = 2 then some 0x14C
  else if page = 3 ∨ page = 6 then some 0x144 else if page = 4 then some 0x134 else if page = 8 then some 0x268
  else if page = 9 then some 0x158 else if page = 10 then some 0x194 else if page = 11 then some 0x160
  else if 12 ≤ page ∧ page ≤ 19 then some 0x144 else if 20 ≤ page ∧ page ≤ 25 then some 0x134
  else if 26 ≤ page ∧ page ≤ 30 then some 0x11C else if page = 31 then some 0x12C
  else if 100 ≤ page ∧ page ≤ 107 then some 0x14C else none

/-- A page's lock is set. -/
def State.locked (s : State) (page : Nat) : Bool := match lockOff page with
  | some o => s.bit ⟨page * 0x1000 + o, 0, 1⟩
  | none => false

/-- Set a page's lock; the pages of the core domain take no write while it is out of service. -/
def State.lockPage (s : State) (page : Nat) : State := match lockOff page with
  | some o => if aonPage page || s.coreUp then s.setBit ⟨page * 0x1000 + o, 0, 1⟩ true else s
  | none => s

/-- Set every lock (R585). -/
def State.lockAll (s : State) : State := (List.range 110).foldl State.lockPage s

/-! ### The tasks of AON ready -/

/-- The two rows of every spread-cell area: base, cell width, status word (Table 16.1). -/
def areaRows : List (Nat × Nat × Bool) :=
  (List.range 16).map (fun i => (counterRow i, 1, false)) ++
    (List.range 48).map (fun j => (areaRow j, areaWidth j, decide (j ≤ 3))) ++
    (List.range 8).map (fun r => (configRow r, 64, false)) ++ (List.range 43).map (fun a => (anchorRow a, 64, false))

/-- Rows of an area that AON ready erases (R478). -/
def State.staleRows (s : State) (a : Nat × Nat × Bool) : List Nat :=
  match s.cellInForce a.1 a.2.1 a.2.2 with
  | some (_, row, _) => [a.1 + (a.1 + 1 - row)].filter (fun r => !s.rowErased r)
  | none => [a.1, a.1 + 1].filter (fun r => !s.rowErased r)

/-- Records of the book from its head row on, up to the first slot whose word 0 is erased (R486). -/
def State.bookLength (s : State) (head : Nat) : Nat → Nat
  | 0 => 0
  | n + 1 =>
    let k := s.bookLength head n
    let slot := (8 * head + n) % 8192
    if k = n ∧ s.pstWord (slot / 8) (8 * (slot % 8)) ≠ erasedWord then n + 1 else k

/-- The Roll book and the areas of PST at AON ready: stale rows are erased, a rescue restore is finished, and READY is set once
all of it has been done (R478, R484, R486). -/
def State.storeReady (s : State) : State :=
  let head := match s.recordOf 4 with | some (w :: _) => w.toNat % 1024 | _ => 0
  let n := s.bookLength head 8192
  let s := ((s.wrN R.RB_HEAD (8 * head)).wrN R.RB_TAIL ((8 * head + n) % 8192)).wrN R.RB_COUNT n
  let s := s.setBit F.RB_STS.FULL (decide (n = 8192))
  let used := (n + 7) / 8
  let outside := (List.range 1024).filter (fun r => decide (used ≤ (r + 1024 - head) % 1024) && !s.rowErased r)
  let rows := areaRows.flatMap s.staleRows ++ outside
  let mark := s.pstWord 1549 0
  let s := { s with rb.tasks := rows }
  let s := if mark.toNat / 2 ^ 28 = 5 then (s.setBit F.PST_STS.RESCUE true).pstAdd (.rescue (mark.toNat % 2048)) else s
  (rows.foldl (fun s r => s.pstAdd (.pingPong r)) s).rbReadyShow

/-- What the monitors and the Cistern take from PST at AON ready (R436, R457, R463). -/
def State.monitorReady (s : State) : State :=
  let s := match s.recordOf 6 with
    | some (w :: _) => (s.set ⟨R.CIS_C, 0, 16⟩ (w.toNat % 65536 * 80 / 100)).setBit ⟨R.CIS_STS, 3, 1⟩ true
    | _ => s
  let hist := (List.range 144).foldl (fun (h : Sparse Nat) k =>
    sset 0 h k (((s.recordOf (10 + k / 48)).getD []).getD (k % 48) 0).toNat) ([] : Sparse Nat)
  let s := { s with hk.hist := hist }
  let r := s.restarts
  let s := if r.2 then (s.restartsPut [] false).roll 0x0205 0 3 1 0 0 else s
  s.rst24.rorDisarm

/-! ### The region table and the port roles out of PST -/

/-- The key slot that a region's label takes at a restart, its key being derived where it is new (R300, R310). -/
def State.restartSlot (s : State) (n label : Nat) (old : Bool) : Option Nat × State :=
  match s.dataSlotFor label true with
  | none => (none, s.noSlot)
  | some (k, fresh, s) => (some k, if fresh then s.derive ⟨k, .restart n old, 0, none, label⟩ else s)

/-- One region's attributes out of its record (Table 16.4); its keys are derived before map ready, both of them while it rotates
(R300, R310). -/
def State.regionLoad (s : State) (n : Nat) : State :=
  match s.recordOf (16 + n) with
  | none => s
  | some ws =>
    let w := fun k => (ws.getD k 0).toNat
    let rot := match s.recordOf (32 + n) with | some rs => (rs.getD 0 0).toNat + (rs.getD 1 0).toNat * 2 ^ 32 | none => 0
    let seq := rot % 2 ^ 48
    let epoch := rot / 2 ^ 48
    let s := ((s.wrN (R.RT_RG_CTL n) (w 0 % 2048)).wrN (R.RT_RG_BASE n) (w 1 % 65536)).wrN (R.RT_RG_SIZE n)
      (w 1 / 65536 + w 0 / 65536 % 2 * 65536)
    let s := { s with hp.ext := sset 0 s.hp.ext n (w 0 / 2 ^ 11 % 4), hp.otherPort := sset 0 s.hp.otherPort n (w 0 / 2 ^ 13 % 8) }
    let ctx := s.bit (F.RT_RG_CTL.CTX_EN n)
    let label := s.get (F.RT_RG_CTL.PORT n) + n * 2 ^ 8 + epoch * 2 ^ 16 + w 2 * 2 ^ 32 + w 3 * 2 ^ 64 + w 4 * 2 ^ 96
    let s := s.setLabel n (if ctx then label else 0)
    let s := s.setBit (F.RT_RG_STS.ACCEPT n) (s.bit (F.RT_RG_CTL.EN n))
    if ctx && s.bit (F.RT_RG_CTL.EN n) && s.bit F.CE_STS.RK_VALID && !s.retired then
      let r := s.restartSlot n label false
      let s := match r.1 with | some k => r.2.setRgSlot n k ((r.2.keySlot k).st == 2) | none => r.2
      if seq = 0 then s
      else
        let r := s.restartSlot n (label - 2 ^ 16) true
        let s := match r.1 with | some k => r.2.set ⟨R.CE_RG_SLOT n, 12, 12⟩ k | none => r.2
        ((s.setBit (F.CE_RG_SLOT.ROTATING n) true).wrN (R.CE_RG_ROTSEQ_LO n) seq).wrN (R.CE_RG_ROTSEQ_HI n) (seq / 2 ^ 32)
    else s

/-- Ports present under BIFUR, which stands from the first loading after an AUX power-on reset (R369), and their roles: those of PST,
at first those of the image (R386). -/
def State.portsLoad (s : State) (roles : BitVec 16) : State :=
  let b := match s.boot.bifur with
    | some b => b
    | none => (List.range 4).foldl (fun n k => if s.bit (F.HP_CFG.BIFUR (2 * k)) then n + 2 ^ k else n) 0
  let s := { s with boot.bifur := some b }
  let s := (List.range 4).foldl (fun s k => s.setBit (F.HP_CFG.BIFUR (2 * k)) (b / 2 ^ k % 2 == 1)) s
  let r : BitVec 16 := match s.recordOf 9 with | some (w :: _) => w.setWidth 16 | _ => roles
  (List.range 8).foldl (fun s p =>
    (s.setBit (F.HP_STS.PRESENT p) (p % 2 == 0 || b / 2 ^ (p / 2) % 2 == 1)).set (F.HP_STS.ROLE p) (roleOf r p)) s

/-! ### The AUX power-on reset -/

/-- The AUX power-on reset (Table 19.4, R598): what PST, the SPI NOR and the media hold stays, pin levels stay, everything else takes
its reset value. Programs and erases in flight are cut. -/
def State.auxReset (s : State) : State :=
  let s := if s.coreUp then s.coreDown 5 else s
  let t := s.te
  let z := State.reset
  { z with
    pending := s.pending
    out := s.out
    freeCtr := s.freeCtr
    refclk := s.refclk
    regs := sset 0 (sset 0 z.regs R.CAR_STS (fldPut F.CAR_STS.TOKEN_LINE 0 (s.get F.CAR_STS.TOKEN_LINE)))
      R.PSQ_STS (fldPut F.PSQ_STS.MOD_EN 0 (s.get F.PSQ_STS.MOD_EN))
    pst := { z.pst with words := s.pst.words, auxMv := s.pst.auxMv, capMv := s.pst.capMv }
    te := { z.te with
      blocks := t.blocks, media := t.media, fmt := t.fmt, subst := t.subst, wlTotal := t.wlTotal
      dies := (t.dies.map (fun (x : Nat × DieCtl) => (x.1, { DieCtl.ok with retired := x.2.retired }))).filter (fun x => x.2 != DieCtl.ok)
      nextProg := t.nextProg, nextRead := t.nextRead, nextStripe := t.nextStripe, nextDiscard := t.nextDiscard
      stripes := t.stripes, discards := t.discards }
    ce := { z.ce with drbg := s.ce.drbg + 1 }
    hp := { z.hp with fwImg := s.hp.fwImg, fwNext := s.hp.fwNext, perst := s.hp.perst, ext := s.hp.ext, otherPort := s.hp.otherPort }
    tw := { z.tw with pull := false }
    dom := { z.dom with aux := false }
    boot := { z.boot with rstN := s.boot.rstN } }

end Sys2Proof.Machine
end

