-- ==== Sys2Proof/Machine/RebuildOps.lean ====
section
/-! DEFINITION. The restoring of the map (06_translation_layer.md R186, R190, R197–R202; 19_startup_reset_and_pin_states.md R550–R552):
whole and torn pages, the anchor, the replay, the choice of each tile's newest copy, formatting. -/

set_option autoImplicit false

namespace Sys2Proof.Machine

/-! ### Torn pages (R199) -/

/-- A torn page's stored lines out of its stripe, when every other member and the parity page are whole and the result passes R186
(R199). -/
def State.rebuildPage (s : State) (noise : ReadNoise) (key : Nat) : Option (Sparse StoredLine) :=
  match s.stripeOfPage key, (s.pageAt key).hdrRead noise key with
  | some x, some h => match x.parity with
    | none => none
    | some pk =>
      let others := pk :: x.members.filter (fun m => m != key)
      let lines := others.foldl (fun (acc : Sparse StoredLine) k => xorLines acc (((s.pageAt k).readBack noise k).filter (fun e => e.1 != 256))) []
      if others.all (fun k => (s.pageAt k).whole noise k) && rbTag lines == h.rbTag then some lines else none
  | _, _ => none

/-- The stripes whose parity pages stand in the parity blocks, as their headers name them (R212, R217): members, group and place. -/
def State.stripesFound (s : State) (noise : ReadNoise) : State :=
  let pages := s.te.media.filter (fun (x : Nat × MPage) =>
    let st := (s.blk (x.1 / 2 ^ 22) (x.1 / 2048 % 2048)).st
    st == 3 || st == 6)
  let s := { s with te.stripes := [] }
  let s := pages.foldl (fun s (x : Nat × MPage) => match x.2.hdrRead noise x.1 with
    | some h =>
      if h.typ = 0x5A04 then
        { s with
          te.stripes := s.te.stripes ++ [⟨s.te.nextStripe, h.body / 2 ^ 232 % 256, x.1 / 2 ^ 22, h.members, [], true, [], s.tick.toNat, some x.1, false⟩]
          te.nextStripe := s.te.nextStripe + 1 }
      else s
    | none => s) s
  (List.range 5).foldl (fun s g => s.wrN (R.MG_OBP_HELD g) (s.te.stripes.filter (fun (x : Stripe) => x.group / 8 == g)).length) s

/-! ### The anchor and the reserved areas (R182, R552) -/

/-- Block table of a formatted module: eight map-area blocks on each die, the journal ring's blocks, everything else free. -/
def reservedBlocks (dies : List Nat) : Sparse Blk :=
  let j := journalDies dies
  dies.flatMap (fun d => (List.range (if j.contains d then ringBlock + 1 else ringBlock)).map (fun b => (2048 * d + b, { Blk.fresh with st := 9 })))

/-- The anchor's words: the number of dies, then each die with the mark of a journal block. -/
def anchorWords (dies : List Nat) : List Word :=
  let j := journalDies dies
  BitVec.ofNat 32 dies.length :: dies.map (fun d => BitVec.ofNat 32 (d + if j.contains d then 512 else 0))

/-- Data words of an anchor record in force. -/
def State.anchorRec (s : State) (r : Nat) : Option (List Word) :=
  (s.cellInForce (anchorRow r) 64 false).map (fun b => (s.cellWords b.2.1 0 64).take 62)

/-- The dies that the anchor lists, `none` when PST holds no anchor record. -/
def State.anchor (s : State) : Option (List Nat) :=
  match s.anchorRec 0 with
  | none => none
  | some ws =>
    let n := (ws.headD 0).toNat
    let recs := (List.range ((n + 62) / 62)).map s.anchorRec
    if recs.all Option.isSome then
      some (((recs.flatMap (fun r => r.getD [])).drop 1).take n |>.map (fun (w : Word) => w.toNat % 512))
    else none

/-- Write the anchor. -/
def State.anchorWrite (s : State) (dies : List Nat) : State :=
  let ws := anchorWords dies
  (List.range ((ws.length + 61) / 62)).foldl (fun s r => s.pstAdd (.anchor r ((ws.drop (62 * r)).take 62))) s

/-- Dies that the channels in service have found and that are in service; those of a channel with EN = 0 are not (R259). -/
def State.presentDies (s : State) : List Nat :=
  (List.range 320).filter (fun d => s.bit (F.MC_CTL.EN (d / 8)) && s.bit (F.MC_STS.TRAINED (d / 8)) && s.get (F.MC_STS.PRESENT (d / 8)) / 2 ^ (d % 8) % 2 == 1 &&
    !(s.die d).failed && !(s.die d).retired)

/-- TE_DIES and DEV_CAP (R180, Table 21.6). -/
def State.showDies (s : State) : State :=
  let n := s.te.fmt.length
  (s.wrN R.TE_DIES n).wrN R.DEV_CAP (capOf n + n * 2 ^ 17)

/-- Formatting (R552): every block erased and counted, the reserved areas placed, RK generated, the anchor written; each block's entry
into Free or Reserved is journalled (Table 7.1). `count` gives a block's erase count. -/
def State.format (s : State) (count : Nat → Nat) : State :=
  let dies := s.presentDies
  let base := reservedBlocks dies
  let blocks := dies.flatMap (fun d => (List.range 2048).map (fun b => (2048 * d + b, { sget Blk.fresh base (2048 * d + b) with erases := count (2048 * d + b) })))
  let s := { s with te := { s.te with
    fmt := dies, subst := [], ringNext := 0, jbuf := [], ckpts := [], ckptJobs := [], ckptTodo := [], changed := [], media := [], map := []
    bad := [], mapc := [], buckets := [], badBuckets := [], since := [], slots := [], progs := [], reads := [], recons := [], stripes := []
    discards := [], gc := [], flushWait := false
    dieWork := [], flushTiles := [], closing := [], blocks := blocks.filter (fun (x : Nat × Blk) => x.2 != Blk.fresh) } }
  let s := ((s.zero [R.TE_PT_LINES, R.TE_PT_TILES, R.TE_PT_WHOLE]).wr64 R.TE_JSEQ_LO 0).setBit F.TE_STS.PT_FULL false
  let s := s.journal (blocks.map (fun (x : Nat × Blk) => .block (x.1 / 2048) (x.1 % 2048) (if x.2.st = 9 then 2 else 4) x.2.erases))
  ((s.newRk.anchorWrite dies).showDies).setBit F.BOOT_STS.FORMAT true

/-! ### The replay (R195, R197) -/

/-- The whole checkpoint pages of the map area: segment, JSEQ, page of the segment, place (step 2 of Table 6.9); and the segment and
JSEQ that each header there names. -/
def State.areaPages (s : State) (noise : ReadNoise) : List (Nat × Nat × Nat × Nat) × List (Nat × Nat) :=
  let heads := s.te.media.filterMap (fun (x : Nat × MPage) =>
    if x.1 / 2048 % 2048 < ringBlock ∧ s.te.fmt.contains (x.1 / 2 ^ 22) then
      ((x.2.hdrRead noise x.1).filter (fun h => h.typ == 0x5A03)).map (fun h => (x, h))
    else none)
  ((heads.filter (fun (x : (Nat × MPage) × PageHdr) => x.1.2.whole noise x.1.1)).map (fun x => (x.2.tile0, x.2.jseq, x.2.tile1, x.1.1)),
    heads.map (fun (x : (Nat × MPage) × PageHdr) => (x.2.tile0, x.2.jseq)))

/-- Each segment's complete checkpoints, of 64 whole pages, newest first, two at most. -/
def ckptsFound (pages : List (Nat × Nat × Nat × Nat)) (segs : List Nat) : Sparse (List CkptRef) :=
  segs.filterMap (fun g =>
    let mine := pages.filter (fun (x : Nat × Nat × Nat × Nat) => x.1 == g)
    let ends := (mine.foldl (fun l (x : Nat × Nat × Nat × Nat) => setIns x.2.1 l) []).reverse
    let refs := ends.filterMap (fun j =>
      let places := (List.range 64).filterMap (fun k => (mine.find? (fun (x : Nat × Nat × Nat × Nat) => x.2.1 == j && x.2.2.1 == k)).map (fun x => x.2.2.2))
      if places.length = 64 then some (⟨j, places⟩ : CkptRef) else none)
    if refs.isEmpty then none else some (g, refs.take 2))

/-- JSEQ from which the ring's whole pages follow one another without a gap up to the newest. -/
def ringFrom (pages : List (Nat × Nat × Nat)) : Nat :=
  match pages.reverse with
  | [] => 0
  | last :: rest => rest.foldl (fun f (x : Nat × Nat × Nat) => if x.1 + 1024 = f then x.1 else f) last.1

/-- JSEQ from which a segment is replayed: that of its newest checkpoint. -/
def State.segFrom (s : State) (g : Nat) : Nat := match (sget [] s.te.ckpts g).head? with | some c => c.jseq | none => 0

/-- Segments of the tile map whose newest checkpoint is not whole, where the ring does not reach back to the whole one below it (step 3 of
Table 6.9). -/
def State.mapLost (s : State) (heads : List (Nat × Nat)) (from' : Nat) : List Nat :=
  heads.foldl (fun l (x : Nat × Nat) =>
    if x.1 < 32768 ∧ s.segFrom x.1 < from' ∧ (s.segFrom x.1 < x.2 ∨ (sget [] s.te.ckpts x.1).isEmpty) then setIns x.1 l else l) []

/-- The newest checkpoints of a range of segments. -/
def State.newest (s : State) (p : Nat → Bool) : List (Nat × CkptRef) :=
  (s.te.ckpts.filter (fun (x : Nat × List CkptRef) => p x.1)).filterMap (fun x => x.2.head?.map (fun c => (x.1, c)))

/-- The tile map of the checkpoints. -/
def State.baseMap (s : State) (noise : ReadNoise) : Sparse TEntry :=
  (s.newest (fun g => decide (g < 32768))).flatMap (fun (x : Nat × CkptRef) => s.segMap noise x.1 x.2.pages)

/-- One journal entry over the tile map; an erase reclaims the former pages of discarded tiles (Table 6.3). -/
def State.replayMap (s : State) (m : Sparse TEntry) (x : Nat × JEntry) : Sparse TEntry :=
  let newer := fun (t : Nat) => decide (s.segFrom (mapSegment t) ≤ x.1)
  match x.2 with
  | .tmap t e => if newer t then sset TEntry.unmapped m t e else m
  | .tpoison t b => if newer t then smod TEntry.unmapped m t (fun e => { e with ptile := b }) else m
  | .discard first n _ _ => m.map (fun (y : Nat × TEntry) =>
      if first ≤ y.1 ∧ y.1 < first + n ∧ newer y.1 then (y.1, ⟨3, false, false, y.2.loc, 0⟩) else y)
  | .block d b 4 _ => m.map (fun (y : Nat × TEntry) =>
      if y.2.st = 3 ∧ y.2.loc.any (fun l => l.die == d && l.block == b) ∧ newer y.1 then (y.1, TEntry.unmapped) else y)
  | _ => m

/-- Block table of the checkpoints, over the reserved areas as formatting placed them. -/
def State.baseBlocks (s : State) (noise : ReadNoise) : Sparse Blk :=
  let held := s.newest (fun g => decide (32768 ≤ g) && decide (g < ptSegment 0))
  let res := (reservedBlocks s.te.fmt).filter (fun (x : Nat × Blk) => (sget [] s.te.ckpts (blockSegment x.1)).isEmpty)
  (held.flatMap (fun (x : Nat × CkptRef) => s.segBlocks noise x.1 x.2.pages)).foldl (fun (l : Sparse Blk) (x : Nat × Blk) => sset Blk.fresh l x.1 x.2) res

/-- A block's state after one of its events (Table 6.8, Table 7.1); event 2 opens a parity block, or places a reserved one. -/
def Blk.event (k : Blk) (reserved : Bool) (ev erases : Nat) : Blk :=
  match ev with
  | 0 => { Blk.fresh with st := 1, erases := erases }
  | 1 => { Blk.fresh with st := 2, erases := erases }
  | 2 => { Blk.fresh with st := if reserved then 9 else 3, erases := erases }
  | 3 => { k with st := if k.st = 3 then 6 else 4 }
  | 4 => { Blk.fresh with erases := erases }
  | 5 => { k with st := 5, verified := List.range k.next }
  | _ => { k with st := 8 }

/-- One journal entry over the block table. -/
def State.replayBlock (s : State) (l : Sparse Blk) (x : Nat × JEntry) : Sparse Blk :=
  let at' := fun (d b : Nat) (f : Blk → Blk) =>
    let k := 2048 * d + b
    if s.segFrom (blockSegment k) ≤ x.1 then smod Blk.fresh l k f else l
  match x.2 with
  | .block d b ev n => at' d b (fun k => k.event (isReserved s.te.fmt d b) ev n)
  | .page d b p q => at' d b (fun k => { k with next := max k.next (p + 1), seqs := (k.seqs ++ List.replicate (p - k.seqs.length) q).take p ++ [q] })
  | _ => l

/-- JSEQ and lines of the newest poison-table checkpoint: the newest at which both segments were captured and are whole. -/
def State.basePoison (s : State) (noise : ReadNoise) : Nat × Sparse (BitVec 64) :=
  let b := sget [] s.te.ckpts (ptSegment 16384)
  match (sget [] s.te.ckpts (ptSegment 0)).findSome? (fun (x : CkptRef) => (b.find? (fun (y : CkptRef) => y.jseq == x.jseq)).map (fun y => (x, y))) with
  | none => (0, [])
  | some (x, y) => (x.jseq, (s.segPoison noise x.pages ++ s.segPoison noise y.pages).foldl (fun (l : Sparse (BitVec 64)) e => sset 0 l e.tile e.mask) [])

/-- One journal entry over the poisoned lines by tile. -/
def replayPoison (from' : Nat) (l : Sparse (BitVec 64)) (x : Nat × JEntry) : Sparse (BitVec 64) :=
  if x.1 < from' then l
  else match x.2 with
    | .poison line true => smod 0 l (tileOf line) (fun m => m ||| lineBit line)
    | .poison line false => smod 0 l (tileOf line) (fun m => m &&& ~~~(lineBit line))
    | .discard first n _ _ => skeep l (fun t => !(decide (first ≤ t) && decide (t < first + n)))
    | _ => l

/-- Put a tile's poisoned lines into the table; a tile without a place is poisoned whole (R178). -/
def State.ptLoad (s : State) (x : Nat × BitVec 64) : State :=
  let e := s.entry x.1
  match s.ptPlace x.1 with
  | some (bk, b) =>
    (({ s with te.buckets := smod [] bk b (fun l => l ++ [PtEntry.mk x.1 x.2]), te.map := sset TEntry.unmapped s.te.map x.1 { e with pline := true } }).addCnt
      R.TE_PT_TILES 1).addCnt R.TE_PT_LINES (popMask x.2)
  | none => { s with te.map := sset TEntry.unmapped s.te.map x.1 { e with ptile := true } }

/-- Steps 2 and 3 of Table 6.9: the complete checkpoints of the map area are the directory from now on, and the ring goes on after its
newest page; JSEQ likewise. -/
def State.loadAreas (s : State) (noise : ReadNoise) : State :=
  let a := s.areaPages noise
  let r := s.ringPages noise
  let s := { s with te.ckpts := ckptsFound a.1 (a.2.foldl (fun l (x : Nat × Nat) => setIns x.1 l) []), te.ckptJobs := [], te.ckptTodo := [] }
  let ends := s.te.ckpts.foldl (fun m (x : Nat × List CkptRef) => x.2.foldl (fun m (c : CkptRef) => max m ((c.jseq + 1023) / 1024 * 1024)) m) 0
  match r.getLast? with
  | some x => { s with te.ringNext := (x.2.1 + 1) % max 1 (ringSize s.ringDies) }.wr64 R.TE_JSEQ_LO (max ends (x.1 + 1024))
  | none => { s with te.ringNext := 0 }.wr64 R.TE_JSEQ_LO ends

/-- Steps 3 and 4 of Table 6.9: checkpoints loaded, and, on the power-loss path, every newer journal entry replayed. -/
def State.replay (s : State) (noise : ReadNoise) (entries : List (Nat × JEntry)) : State :=
  let m := entries.foldl s.replayMap (s.baseMap noise)
  let b := entries.foldl s.replayBlock (s.baseBlocks noise)
  let p := s.basePoison noise
  let lines := entries.foldl (replayPoison p.1) p.2
  let mark := fun (l : Sparse Nat) (g j : Nat) => if sget 0 l g = 0 then sset 0 l g (j + 1) else l
  let touched := entries.foldl (fun (l : Sparse Nat) x => match x.2 with
    | .tmap t _ | .tpoison t _ => mark l (mapSegment t) x.1
    | .block d b _ _ | .page d b _ _ => mark l (blockSegment (2048 * d + b)) x.1
    | .poison _ _ => mark (mark l (ptSegment 0) x.1) (ptSegment 16384) x.1
    | .discard first n _ _ => m.foldl (fun l (y : Nat × TEntry) => if first ≤ y.1 ∧ y.1 < first + n then mark l (mapSegment y.1) x.1 else l)
        (mark (mark l (ptSegment 0) x.1) (ptSegment 16384) x.1)
    | _ => l) []
  let m := m.map (fun (x : Nat × TEntry) => (x.1, { x.2 with pline := false }))
  let s := { s with te.map := m.filter (fun (x : Nat × TEntry) => x.2 != TEntry.unmapped), te.blocks := b, te.buckets := [], te.changed := touched, te.jbuf := [] }
  let s := s.zero [R.TE_PT_LINES, R.TE_PT_TILES, R.TE_PT_WHOLE]
  let s := lines.foldl State.ptLoad s
  s.wrN R.TE_PT_WHOLE (s.te.map.filter (fun (x : Nat × TEntry) => x.2.ptile)).length

/-! ### The pages that the journal may not know (R197 step 5, R198, R199) -/

/-- Programmed pages of a block from one page on: up to the first whose header reads erased. -/
def State.runFrom (s : State) (d b p : Nat) : Nat → List Nat
  | 0 => []
  | n + 1 => if (s.mpage d b p).typ = 0 then [] else p :: s.runFrom d b (p + 1) n

/-- Pages checked in a block: from the second below its last journalled page, or from page 0. -/
def State.scanPages (s : State) (d b : Nat) : List Nat :=
  let k := s.blk d b
  let first := if k.seqs.length < 3 then 0 else k.seqs.length - 3
  s.runFrom d b first (2048 - first)

/-- Blocks open or unverified after the replay. -/
def State.scanBlocks (s : State) : List Nat :=
  s.te.blocks.filterMap (fun (x : Nat × Blk) => if 1 ≤ x.2.st ∧ x.2.st ≤ 4 then some x.1 else none)

/-- A page as step 5 and step 6 leave it: its place, and its lines where they were reconstructed. -/
structure Found where
  key : Nat
  recon : Option (Sparse StoredLine)
  deriving DecidableEq, Repr

/-- A copy of a tile on a page that may be used (R200). -/
structure TCopy where
  tile : Nat
  loc : Loc
  vseq : Nat
  seq : Nat
  partl : Bool
  present : BitVec 64
  recon : Option (Sparse StoredLine)
  deriving DecidableEq, Repr

/-- The page sequence words of a scanned block are restored from the headers read; a torn header repeats the word below it. -/
def State.restoreSeqs (s : State) (k : Nat) (pages : List Nat) : State :=
  { s with te.blocks := smod Blk.fresh s.te.blocks k (fun (x : Blk) =>
    let seqs := pages.foldl (fun (l : List Nat) p =>
      let pg := s.mpage (k / 2048) (k % 2048) p
      let q := match pg.hdr with | some h => h.seq | none => (l.take p).getLastD 0
      l.take p ++ [q]) x.seqs
    { x with seqs := seqs, next := seqs.length }) }

/-- Copies of tiles that a usable data page names. -/
def State.copiesOf (s : State) (f : Found) : List TCopy :=
  let pg := s.pageAt f.key
  if pg.typ ≠ 0x5A01 then []
  else pg.tiles.zipIdx.filterMap (fun (x : Option PageTile × Nat) => x.1.map (fun t =>
    ⟨t.tile, ⟨f.key / 2 ^ 22, f.key / 2 ^ 11 % 2048, f.key % 2048, x.2⟩, t.vseq, pg.seq, t.partl, t.present, f.recon⟩))

/-- Latest DISCARD mark of a tile in the journal (R200). -/
def discardMark (ring : List (Nat × JEntry)) (t : Nat) : Nat :=
  ring.foldl (fun (m : Nat) (x : Nat × JEntry) => match x.2 with
    | .discard first n _ q => if first ≤ t ∧ t < first + n then q else m
    | _ => m) 0

/-- The copy with the highest VSEQ, between equal ones the highest page SEQ. -/
def bestCopy (l : List TCopy) : Option TCopy :=
  l.foldl (fun (b : Option TCopy) c => match b with
    | none => some c
    | some y => if y.vseq < c.vseq ∨ (y.vseq = c.vseq ∧ y.seq < c.seq) then some c else b) none

/-- Copies in ascending VSEQ order. -/
def byVseq (l : List TCopy) : List TCopy :=
  (l.foldl (fun (acc : List (Nat × TCopy)) c => sins (c.vseq * 2 ^ 48 + c.seq) c acc) []).map (·.2)

/-- Lines of a copy, decoded and checked; a line that fails is poisoned. -/
def State.copyLines (s : State) (c : TCopy) (mask : BitVec 64) : List (Nat × Option Line) :=
  let pg := s.mpage c.loc.die c.loc.block c.loc.page
  let lines := c.recon.getD pg.lines
  ((List.range 64).filter (fun k => mask.getLsbD k)).map (fun k =>
    let pos := 64 * c.loc.tip + k
    (k, match s.checkLine (groupOf c.loc.die) (64 * c.tile + k) c.seq pos 0 (sget 0 lines pos) with
      | .ok d _ => some d
      | _ => none))

/-- Put lines into the tile's slot as Dirty, charging those that were not (Table 4.4). -/
def State.stageLines (s : State) (t : Nat) (l : List (Nat × Option Line)) : State :=
  l.foldl (fun s (x : Nat × Option Line) => match x.2 with
    | none => s.poisonLine (64 * t + x.1)
    | some d => match s.slotPutDirty (64 * t + x.1) d true with
      | some (old, s) => if 2 ≤ old then s else s.charge 1
      | none => s) s

/-- What step 7 and R201 make of one tile: its newest copy, merged with the partial copies above it. -/
def State.chooseTile (s : State) (ring : List (Nat × JEntry)) (checked lostSegs : List Nat) (copies : List TCopy) (t : Nat) : State :=
  let e := s.entry t
  let mark := discardMark ring t
  let old : List TCopy := match e.loc with
    | some l =>
      if (e.st = 1 ∨ e.st = 2) ∧ !(checked.contains (packPage l.die l.block l.page)) ∧ !(lostSegs.contains (mapSegment t)) then
        [⟨t, l, s.vseqAt l, s.pageSeq l, false, BitVec.allOnes 64, none⟩]
      else []
    | none => []
  let cands := (old ++ copies.filter (fun c => c.tile == t)).filter (fun c => decide (mark ≤ c.vseq))
  let win := bestCopy (cands.filter (fun c => !c.partl))
  let parts := byVseq (cands.filter (fun c => c.partl && win.all (fun w => decide (w.vseq < c.vseq))))
  let s := s.segChanged (mapSegment t)
  match win with
  | none =>
    let s := { s with te.map := sset TEntry.unmapped s.te.map t { e with st := if mark = 0 then 0 else 3, loc := none } }
    if parts.isEmpty then s
    else (parts.foldl (fun s (c : TCopy) => s.stageLines t (s.copyLines c c.present)) s).bump R.TE_BLD_MERGED
  | some w =>
    let loc := if w.recon.isSome then none else some w.loc
    let s := { s with te.map := sset TEntry.unmapped s.te.map t { e with st := if loc.isSome then 1 else 0, loc := loc } }
    let s := if w.recon.isSome then s.stageLines t (s.copyLines w (BitVec.allOnes 64)) else s
    if parts.isEmpty then s
    else (parts.foldl (fun s (c : TCopy) => s.stageLines t (s.copyLines c c.present)) s).bump R.TE_BLD_MERGED

/-- Keys listed once each, ascending. -/
def once (l : List Nat) : List Nat := l.foldl (fun acc k => setIns k acc) []

/-- What the block table does not hold: closed blocks without a valid tile await their erase again, for which every copy block not yet
verified of their die must be verified first (R218; DESIGN CHOICE: which blocks received their tiles is not on media, notes/assumptions/63). -/
def State.derived (s : State) : State :=
  s.te.blocks.foldl (fun s (x : Nat × Blk) =>
    if 4 ≤ x.2.st ∧ x.2.st ≤ 6 then
      let d := x.1 / 2048
      let open' := (s.te.blocks.filter (fun (y : Nat × Blk) => y.1 / 2048 == d && y.1 != x.1 && (y.2.st == 2 || y.2.st == 4))).map (fun y => y.1)
      (s.blkMod d (x.1 % 2048) (fun k => { k with copiedTo := open' })).blkSettle d (x.1 % 2048)
    else s) s

/-- Steps 5 to 7 of Table 6.9, with the fallback of step 3: a tile whose segment `lostSegs` lists is chosen among the copies of every data
page on media. A tile whose entry points into a page that is lost falls back to its newest copy likewise (Table 6.11). What was found is
journalled. The list returned is of the torn pages that could not be reconstructed. -/
def State.rebuildPages (s : State) (noise : ReadNoise) (ring : List (Nat × JEntry)) (lostSegs : List Nat) : List Nat × State :=
  let s := s.stripesFound noise
  let whole := fun (key : Nat) => (s.pageAt key).whole noise key
  let blocks := s.scanBlocks
  let keys := blocks.flatMap (fun k => (s.scanPages (k / 2048) (k % 2048)).map (fun p => packPage (k / 2048) (k % 2048) p))
  let known := fun (key : Nat) => decide (key % 2048 < (s.blk (key / 2 ^ 22) (key / 2 ^ 11 % 2048)).seqs.length)
  let found := keys.filterMap (fun key => if whole key then some ⟨key, none⟩ else (s.rebuildPage noise key).map (fun l => (⟨key, some l⟩ : Found)))
  let lost := keys.filter (fun key => !(found.any (fun f => f.key == key)))
  let gone := (s.te.map.filter (fun (x : Nat × TEntry) => x.2.loc.any (fun l => lost.contains (packPage l.die l.block l.page)))).map (fun x => x.1)
  let rest := if gone.isEmpty && lostSegs.isEmpty then [] else
    (s.te.media.filter (fun (e : Nat × MPage) => !(lost.contains e.1) && e.2.whole noise e.1)).flatMap (fun e =>
      (s.copiesOf ⟨e.1, none⟩).filter (fun c => gone.contains c.tile || lostSegs.contains (mapSegment c.tile)))
  let copies := found.flatMap s.copiesOf
  let all := copies ++ rest.filter (fun c => !(copies.any (fun y => y.loc == c.loc)))
  let stale := (s.te.map.filter (fun (x : Nat × TEntry) => x.2.loc.isSome && lostSegs.contains (mapSegment x.1))).map (fun x => x.1)
  let tiles := once (all.map (fun c => c.tile) ++ gone ++ stale)
  let news := found.filter (fun f => f.recon.isNone && !(known f.key))
  let s := blocks.foldl (fun s k => s.restoreSeqs k (s.scanPages (k / 2048) (k % 2048))) s
  let s := s.wrN R.TE_BLD_PAGES keys.length
  let s := s.wrN R.TE_BLD_TORN (keys.filter (fun key => !(whole key))).length
  let s := s.wrN R.TE_BLD_RECON (found.filter (fun f => f.recon.isSome)).length
  let s := tiles.foldl (fun s t => s.chooseTile ring keys lostSegs all t) s
  let s := s.journal (news.map (fun f => .page (f.key / 2 ^ 22) (f.key / 2 ^ 11 % 2048) (f.key % 2048) (s.pageAt f.key).seq) ++
    tiles.map (fun t => .tmap t (s.entry t).recorded))
  (lost, s.derived)

/-- Attach the lines of kept slots that are not yet on media (R551). -/
def State.attachKept (s : State) (kept : Sparse Slot) : State :=
  kept.foldl (fun s (x : Nat × Slot) => match x.2.tile with
    | some t => if x.2.doomed then s else
        s.stageLines t ((x.2.st.filter (fun (y : Nat × Nat) => decide (2 ≤ y.2))).map (fun y => (y.1, some (sget 0 x.2.data y.1))))
    | none => s) s

/-- An entry's change is in its segment's newest checkpoint. -/
def State.inCkpt (s : State) (base : Sparse TEntry) (pois : Nat) (x : Nat × JEntry) : Bool :=
  match x.2 with
  | .tmap t _ | .tpoison t _ => decide (x.1 < s.segFrom (mapSegment t))
  | .page d b _ _ | .block d b _ _ => decide (x.1 < s.segFrom (blockSegment (2048 * d + b)))
  | .poison _ _ => decide (x.1 < pois)
  | .discard first n _ _ => decide (x.1 < pois) && base.all (fun (y : Nat × TEntry) =>
      decide (y.1 < first) || decide (first + n ≤ y.1) || decide (x.1 < s.segFrom (mapSegment y.1)))
  | .subst _ _ => true
  | .clean _ => true

/-- The entries that the newest checkpoints do not cover. -/
def State.newer (s : State) (noise : ReadNoise) (ring : List (Nat × JEntry)) : List (Nat × JEntry) :=
  let base := s.baseMap noise
  let pois := (s.basePoison noise).1
  ring.filter (fun (x : Nat × JEntry) => !(s.inCkpt base pois x))

/-- The newest journal entry is CLEAN and every segment's changes are in its newest checkpoint (R197). -/
def State.cleanEnd (s : State) (ring newer : List (Nat × JEntry)) : Bool :=
  (match ring.getLast? with | some (_, .clean _) => true | _ => false) && newer.isEmpty && (match s.te.jbuf with | [] => true | _ => false)

/-- Dies recorded at formatting that the channels do not find, or found failed, are taken out of service, and the work on retired
dies resumes (R226, Table 8.14). -/
def State.retireLost (s : State) : State :=
  let there := s.presentDies
  let s := (s.te.fmt.filter (fun d => !(there.contains d) && !(s.die d).retired)).foldl (fun s d =>
    ((s.dieMod d (fun x => { x with failed := true })).setBit ⟨R.MC_STS (chanOf d), 16 + d % 8, 1⟩ true).retireDie d) s
  let old := s.te.fmt.filter (fun d => (s.die d).retired && !(s.te.dieWork.any (fun w => w.1 == d)))
  let work := old.map (fun d => (d, (s.te.map.filter (fun (x : Nat × TEntry) => (x.2.st == 1 || x.2.st == 2) && x.2.loc.any (fun l => l.die == d))).map
    (fun x => x.1), 0))
  { s with te.dieWork := s.te.dieWork ++ work.filter (fun (w : Nat × List Nat × Nat) => !w.2.1.isEmpty) }.setBit F.TE_UPK_STS.DIE_RETIRED
    (s.te.fmt.any (fun d => (s.die d).retired))

/-- Milliseconds since a tick. -/
def State.msSince (s : State) (t : Nat) : Nat := (s.tick.toNat - t) / msTicks

/-- Step 9 of Table 6.9: the map is ready. `path` is BOOT_STS.PATH; `resumed` the number at which this start-up resumed. -/
def State.mapReady (s : State) (path resumed : Nat) (fall : Bool) (lost : List Nat) : State :=
  let s := ((((s.setBit F.TE_STS.MAP_READY true).setBit F.TE_STS.BLD_BUSY false).set F.TE_STS.BLD_STEP 0).setBit F.TE_STS.UNCLEAN
    (path == 1 || path == 2)).setBit F.TE_STS.FALLBACK fall
  let s := ((s.set F.BOOT_STS.PATH path).set F.BOOT_STS.PHASE 5).showDies
  let s := (s.wrN R.TE_BLD_MS (s.msSince s.boot.dramAt)).wrN R.BOOT_MS_MAP (s.msSince s.boot.upAt)
  let s := s.when (s.bit F.TE_CTL.EVT_EN) (fun s =>
    (lost.foldl (fun s key => s.roll 0x0501 0 8 (key / 2 ^ 22) (key / 2 ^ 11 % 2048) (key % 2048)) s).roll 0x0500 0 8
      (s.num R.TE_BLD_TORN) (s.num R.TE_BLD_MS) 0)
  let ds := match ledgerAt (2 ^ 48) s.pstLedger with | some x => x.2 | none => []
  let s := { s with sir.drift := (ds.zipIdx.map (fun (x : Nat × Nat) => (x.2, x.1))).filter (fun (x : Nat × Nat) => x.2 != 0) }
  let s := (s.retireLost.unknownEnter resumed).pdWrite 1
  let s := s.te.discards.foldl (fun s (d : Discard) => s.discardShow d) s
  s.tsStatus.pump

end Sys2Proof.Machine
end

