-- ==== Sys2Proof/Machine/Boot.lean ====
section
/-! DEFINITION. The commands of start-up and reset (19_startup_reset_and_pin_states.md), the rebuild of the map (06_translation_layer.md
R197–R202) and Sanitize (12_host_ports.md R389). -/

set_option autoImplicit false

namespace Sys2Proof.Machine

/-- AUX_3V3 rises through 2.90 V: the AON domain leaves its reset (R598). -/
def execAuxRise (s : State) : Out := .next { s with dom.aux := true }

/-- AUX_3V3 falls through 2.75 V: the AUX power-on reset, with every RAIL_EN and the sidebands at high impedance (R558, R598). -/
def execAuxFall (s : State) : Out :=
  if !s.dom.aux then .next s
  else
    let s := s.auxReset
    let s := (List.range 16).foldl (fun s k => s.emit (.pin (.railEn k) none)) (s.emit (.pin .cisTest none))
    .next (((s.emit (.pin .twinToken none)).emit (.pin .twinAliveOut none)).emit (.pin .alertN none))

/-- The AON domain is ready (R35): RAIL_EN and CIS_TEST are driven low (Table 19.6), TWIN_SIDE has been sampled, the AON pages' cfg fields take their values, the store, the Roll book and
the monitors start, and the PSQ reads its table (R418) and MOD_EN (R419). -/
def execAonReady (side : Bool) (cfg : List (BitVec 24 × Word)) (s : State) : Out :=
  if !s.dom.aux || s.dom.aon then .next s
  else
    let s := { s with dom.aon := true, boot.side := side }.cfgLoad true [] cfg
    let s := if s.num R.OOB_ADDR % 128 = 0x4C ∧ !(cfg.any (fun x => x.1.toNat == R.OOB_ADDR)) then s.wrN R.OOB_ADDR (0x4C + side.toNat) else s
    let s := (List.range 16).foldl (fun s k => s.emit (.pin (.railEn k) (some false))) (s.emit (.pin .cisTest (some false)))
    let s := s.storeReady.monitorReady
    let s := match s.readTable with
      | none => (s.setBit F.PSQ_STS.TBL_BAD true).lockout 4
      | some t => { s with psq.table := t }
    .next (if s.bit F.PSQ_STS.MOD_EN then s.onRequest else s)

/-- The valid copy of the configuration image with the higher generation (R547). -/
def imageOf (a b : Option CfgImage) : Option CfgImage :=
  match a, b with
  | some x, some y => if x.gen.toNat < y.gen.toNat then some y else some x
  | some x, none => some x
  | none, y => y

/-- The governor's parameters of the image; one outside its range of Table 1.5 is taken at the nearest limit, and GOV_STEP at the multiple
of 5 mV below it (DESIGN CHOICE, notes/assumptions/55: the spec says only that the image sets each within its range). -/
def State.govLoad (s : State) (i : CfgImage) : State :=
  let low := near 82 90 i.govLow.toNat
  { s with arch.govLow := low, arch.govHigh := near (low + 4) 100 i.govHigh.toNat
           arch.govStep := near 5 20 (i.govStep.toNat / 5 * 5), arch.govHold := near 4 64 i.govHold.toNat }

/-- The pool sizes loaded are in force on every link that trains from here on (R106). -/
def State.poolsLoad (s : State) : State :=
  { s with
    rt.reqPool := List.replicate 8 (s.num R.RT_CRD_REQ % 1024), rt.rwdPool := List.replicate 8 (s.num R.RT_CRD_RWD % 1024)
    rt.fwdPool := s.num R.RT_CRD_FWD % 1024 }

/-- Phase 2 (R547, Table 19.1): the image's values, those of PST above them, every cfg field set, the region table and port roles out
of PST; DRAM and media training start. Without a valid copy start-up halts with CFG. -/
def execConfigurationLoaded (a b : Option CfgImage) (records : List (BitVec 24 × Word)) (s : State) : Out :=
  if !s.coreUp || s.get F.BOOT_STS.PHASE != 1 || (s.bit F.BOOT_STS.HALT && s.get F.BOOT_STS.CAUSE == 1) then .next s
  else match imageOf a b with
    | none => .next (s.bootHalt 1)
    | some i =>
      let s := s.cfgLoad false (if s.boot.lcCfg then lcKeptRegs else []) (i.regs ++ records)
      let refs := i.refs.foldl (fun (l : Sparse (BitVec 24)) (x : Fin 160 × BitVec 24) => sset 0 l x.1.val x.2) ([] : Sparse (BitVec 24))
      let s := { s with
        boot.lockActive := i.lockActive, boot.lcCfg := true, sir.refDef := refs, sir.refStart := refs }
      let s := ((s.govLoad i).poolsLoad).portsLoad i.roles
      let s := (List.range 16).foldl State.regionLoad s
      let s := (List.range 6).foldl (fun s c => s.setBit (F.DC_STS.TRAIN_BUSY c) true) s
      let s := (List.range 40).foldl (fun s c => if s.num (R.MC_DIES c) % 16 = 0 then s.setBit (F.MC_CTL.EN c) false
        else if s.fencedSrc (32 + c) then (s.setBit (F.MC_STS.FAILED c) true).mgShow c else s.trainStart c) s
      .next ((s.emit (.pin .spi (some true))).set F.BOOT_STS.PHASE 2)

/-- Phase 3 (R548, R549): the slot that the directory names, then the other one. Proctors and Tutors run. With both slots bad start-up
halts with FW. The record of a slot that failed has no code in Table 16.6. -/
def execFirmwareVerified (directory ok0 ok1 : Bool) (s : State) : Out :=
  if !s.coreUp || s.get F.BOOT_STS.PHASE != 2 || s.bit F.BOOT_STS.HALT then .next s
  else
    let first := if directory then s.hp.fwNext % 2 else 0
    let ok := fun (k : Nat) => if k = 0 then ok0 else ok1
    let s := if ok first then s else
      (s.roll (s.free 16) 0 (96 + s.lead) first 0 0).drawn
    if !ok first && !ok (1 - first) then .next (s.bootHalt 2)
    else
      let s := (s.setBit F.BOOT_STS.FW_SLOT ((if ok first then first else 1 - first) == 1)).setBit F.BOOT_STS.FW_ALT (!ok first)
      let s := (List.range 28).foldl (fun s k => (s.set (F.CORE_STS.STATE k) 1).setBit (F.CORE_STS.IMAGE_OK k) true) s
      let s := (s.set F.FC_STS.HEALTHY 15).leadShow
      .next (s.set F.BOOT_STS.PHASE 3).dramPhase

/-- The rebuild of the map (Table 6.9, R550–R552), or the formatting of a module without anchor and without a header; a module whose media
hold pages that no anchor names halts with NO_ANCHOR. It waits for DRAM and media training, for the keys of R310, and, before step 8 programs,
for both increments of PAGE_SEQ_HW (R190). -/
def execRebuild (noise : ReadNoise) (s : State) : Out :=
  let waiting := (List.range 40).any (fun c => s.bit (F.MC_STS.TRAIN_BUSY c)) ||
    s.ce.derives.any (fun d => match d.why with | .restart _ _ => true | _ => false)
  if !s.coreUp || s.get F.BOOT_STS.PHASE != 4 || s.bit F.BOOT_STS.HALT || waiting then .next s
  else
    let resumed := (s.counter 3 + 1) * 2 ^ 20
    let resumed := if s.seqNext < resumed then s.seqNext else resumed
    match s.anchor with
    | none =>
      let there := s.presentDies
      if s.te.media.any (fun (e : Nat × MPage) => e.1 % 2048 == 0 && (e.2.hdrRead noise e.1).isSome && there.contains (e.1 / 2 ^ 22)) then
        .next (((s.setBit F.TE_STS.BLD_BUSY false).set F.TE_STS.BLD_STEP 0).bootHalt 4)
      else .next ((s.format (fun _ => 1)).mapReady 3 resumed false [])
    | some dies =>
      let kept := s.boot.kept && s.bit F.LC_STS.KEPT
      let slots := if kept then s.te.slots else []
      let s1 := { s with te.fmt := dies, te.slots := [], te.jbuf := [] }.loadAreas noise
      let ring := s1.ringRead noise
      let newer := s1.newer noise ring
      if !kept && s1.cleanEnd ring newer then
        let s := (((s1.replay noise []).stripesFound noise).wrN R.TE_BLD_REPLAY 0).zero [R.TE_BLD_PAGES, R.TE_BLD_TORN, R.TE_BLD_RECON, R.TE_BLD_MERGED]
        .next (s.derived.mapReady 0 resumed false [])
      else if s.seqHw ≤ s.seqNext then .next (s.set F.TE_STS.BLD_STEP 8)
      else
        let lostSegs := s1.mapLost (s1.areaPages noise).2 (ringFrom (s1.ringPages noise))
        let s := ((s1.replay noise newer).wrN R.TE_BLD_REPLAY newer.length).zero [R.TE_BLD_MERGED]
        let r := s.rebuildPages noise ring lostSegs
        let s := ((r.2.attachKept slots).programAll false).journalFlush
        .next (s.mapReady (if kept then 2 else 1) resumed (!lostSegs.isEmpty) r.1)

/-- Memory Active (R544): the device leaves the booting state once every condition holds; LOCK_AT_ACTIVE sets the locks (R585). -/
def execMemoryActive (s : State) : Out :=
  let keys := (List.range 16).all (fun n => !s.bit (F.RT_RG_CTL.EN n) || !s.bit (F.RT_RG_CTL.CTX_EN n) ||
    (s.bit (F.CE_RG_SLOT.VALID n) && (!s.bit (F.CE_RG_SLOT.ROTATING n) || (s.keySlot (s.get ⟨R.CE_RG_SLOT n, 12, 12⟩)).st == 2)))
  let counted := !s.bit F.LC_STS.KEPT || !s.bit F.LC_STS.CHECK_BUSY
  if s.coreUp && s.get F.BOOT_STS.PHASE == 5 && s.bit F.TE_STS.MAP_READY && decide (s.seqNext < s.seqHw) && keys && s.tw.decided && counted then
    let s := { s.set F.BOOT_STS.PHASE 6 with dom.memActive := true }
    let s := (List.range 8).foldl (fun s p => s.when (s.bit (F.HP_STS.PRESENT p)) (fun s => s.setBit (F.HP_STS.MEM_ACTIVE p) true)) s
    let s := s.wrN R.BOOT_MS_ACTIVE (s.msSince s.boot.upAt)
    .next ((s.when s.boot.lockActive State.lockAll).tsStatus.pump)
  else .next s

/-- DEV_RST_N has been low for its filter time (R555): the core domain enters its reset. A power-down that was running goes on to DOWN
(R557). -/
def execDevRstNAssert (s : State) : Out :=
  if s.boot.rstN then .next s
  else
    let s := { s with boot.rstN := true }
    if !s.bit F.PSQ_STS.RAILS_UP then .next { s with tick := 0 }
    else
      let s := s.coreReset 1
      .next (if s.phase = Ph.drain ∨ s.phase = Ph.shutdown then s.resetDown else s)

/-- DEV_RST_N returns high (R555): the core domain restarts at phase 2. `kat` is the result of the known-answer tests. -/
def execDevRstNRelease (kat : Bool) (s : State) : Out :=
  if !s.boot.rstN then .next s
  else
    let s := { s with boot.rstN := false }
    .next (if s.bit F.PSQ_STS.RAILS_UP && s.phase == Ph.on && !s.coreUp && !s.boot.jtag then s.coreStart kat else s)

/-- BOOT_CTL with KEY and RESET (R556): credits stop and DOWN is sent. -/
def execBootCtlReset (path : Path) (v : Word) (s : State) : Out :=
  let s := s.regAcc 0
  if s.isManager path && s.coreUp && s.phase == Ph.on && v.toNat / 65536 == 0xD0E5 && v.getLsbD 0 && !s.boot.resetReq then
    .next { s.sendDown 3 with boot.resetReq := true }
  else .next s

/-- The register device reset, or step 4 of containment: once the accepted requests have completed it resets as DEV_RST_N does, and the
core domain restarts (R556, Table 17.8). -/
def execRegisterResetExecute (kat : Bool) (s : State) : Out :=
  if !s.boot.resetReq || !s.coreUp then .next s
  else
    let s := s.settleReqs
    if !s.rt.reqs.isEmpty then .next s
    else
      let s := s.coreReset (if s.bit F.FC_STS.CONTAINING then 3 else 2)
      .next (if s.boot.rstN || s.boot.jtag then s else s.coreStart kat)

/-- Sanitize (R389): Busy while paired. RK is new, every block is erased, every tile is unmapped, the poison table is empty and every
region is disabled; lines held above the map are dropped (R57), and the module is formatted anew (R180, R552). -/
def execSanitize (port : Nat) (s : State) : Out :=
  s.mgrCmd port (fun s =>
    if s.bit F.CAR_STS.PAIRED then s.mbox port .busy 0 []
    else
      let s := s.bgStart port
      let s := (List.range 16).foldl (fun s n => if s.bit (F.RT_RG_CTL.EN n) then s.disableNow n else s) s
      let ends := s.rt.reqs.filter (fun (r : Req) => match r.stage with | .media _ | .held _ | .mapRead | .second | .partner => true | _ => false)
      let s := ends.foldl (fun s (r : Req) => s.supply r 0 false 0) s
      let s := { s with lc.ways := [], lc.lost := [], lc.bufs := [] }.staleShow.zero [R.LC_DIRTY_CNT, R.LC_LOCK_CNT]
      let had := !s.te.fmt.isEmpty
      let old := s.te.blocks
      let s := s.format (fun k => if had then (sget Blk.fresh old k).erases + 1 else 1)
      let s := (s.setDirty 0).tsStatus.closeRegions
      let s := s.setBit F.BOOT_STS.FORMAT (!had)
      s.pump.bgDone port .success 0 [])

end Sys2Proof.Machine
end

