-- ==== Sys2Proof/Machine/Cache.lean ====
section
/-! DEFINITION. The commands of the line cache, the walker and the map cache (05_on_die_caches.md). -/

set_option autoImplicit false

namespace Sys2Proof.Machine

/-- Exported capacity in lines: DEV_CAP counts units of 256 MiB (R50). -/
def State.capLines (s : State) : Nat := s.num R.DEV_CAP % 2 ^ 17 * 2 ^ 22

/-- A write of 0 to LC_CTL.EN (R155): ignored while SAFE_BUSY. -/
def execLcEnClear (path : Path) (s : State) : Out :=
  let s := s.regAcc 7
  if s.isManager path && s.bit F.LC_CTL.EN && !s.bit F.LC_STS.SAFE_BUSY then
    let s := s.setBit F.LC_CTL.EN false
    if s.lc.ways.all (fun (x : Nat × Way) => !x.2.v) then .next s.pump
    else .next ((s.release (if s.lc.keptUncharged then 0 else s.lcDirty)).setBit F.LC_STS.STALE_HELD true).pump
  else .next s

/-- EN becomes 1; stale lines held come back as they stand and are charged again, before the first budget with the other kept lines
(R156, R163). -/
def State.lcEnable (s : State) : State :=
  let stale := s.bit F.LC_STS.STALE_HELD
  let s := s.setBit F.LC_CTL.EN true
  if stale then
    let n := s.lcDirty
    let s := (s.setBit F.LC_STS.STALE_HELD false).setBit F.LC_STS.STALE_REENABLED true
    (s.charge (if s.lc.keptUncharged then 0 else n)).tsStatus.overEnter.roll 0x0401 0 7 0 n 0
  else s

/-- A write of 1 to LC_CTL.EN (R156). It waits for the end of a checker test of an on-die cache array (R270). -/
def execLcEnSet (path : Path) (s : State) : Out :=
  let s := s.regAcc 7
  if s.isManager path && !s.bit F.LC_CTL.EN && !s.bit F.LC_STS.SAFE_BUSY then
    if s.bit F.SIR_CHK_STS.ACTIVE && decide (s.get F.SIR_CHK_CTL.ARRAY ≤ 3) then .next { s with lc.enWait := true }
    else .next s.lcEnable
  else .next s

/-- LC_CTL.SAFE_DISABLE (R158): no effect while EN reads 0 or while it runs. -/
def execSafeDisable (path : Path) (s : State) : Out :=
  let s := s.regAcc 7
  if s.isManager path && s.bit F.LC_CTL.EN && !s.bit F.LC_STS.SAFE_BUSY then
    let s := (s.setBit F.LC_STS.SAFE_BUSY true).setBit F.LC_CTL.SAFE_DISABLE true
    .next ({ s with lc.walkQ := s.lc.walkQ ++ [WalkOp.mk .safeDisable 0 imageLines none 0 0 0 0 false] }.leased 7)
  else .next s

/-! ### Starting a range operation -/

/-- Lines of a range that lie in enabled regions meeting a test. -/
def State.covered (s : State) (first count : Nat) (p : Nat → Bool) : Nat :=
  (List.range 16).foldl (fun n k =>
    if s.bit (F.RT_RG_CTL.EN k) && p k then
      n + (min (first + count) (s.rgFirst k + s.rgLines k) - max first (s.rgFirst k))
    else n) 0

/-- The first error of Table 5.4 that applies, in the order BUSY, OP, RANGE, STATE, STALE, PERM; 0 for none. -/
def State.rangeErr (s : State) (op first count : Nat) (all busy : Bool) : Nat :=
  if busy then 1
  else if op ≥ 6 then 2
  else if !all && (count == 0 || decide (s.capLines < first + count)) then 6
  else if (s.booting || s.draining) ||
      ((op == 3 || op == 5) && (!s.bit F.LC_CTL.EN || s.roState || s.fenced)) then 4
  else if (op == 1 || op == 2) && s.bit F.LC_STS.STALE_HELD then 5
  else if op == 3 && decide (s.covered first count (fun k => s.bit (F.RT_RG_CTL.LOCK_OK k)) < count) then 3
  else if op == 5 && decide (s.covered first count (fun _ => true) < count) then 3
  else 0

/-- Return code and extended status of a refused Range Operation. -/
def rangeReply (err : Nat) : Rc × Nat :=
  if err = 1 then (.busy, 0) else if err = 4 ∨ err = 5 then (.invalidInput, Ext.STATE) else (.invalidInput, 0)

/-- Start a range operation (R150, R151): refused with an error of Table 5.4, or queued for the walker. A tenant's range lies
in one of its own regions. -/
def State.rangeStart (s : State) (op : Nat) (src : RangeSrc) : State :=
  match src with
  | .reg path ovr all =>
    let s := s.regAcc 7
    if !s.isManager path then s
    else
      let busy := s.bit F.LC_RANGE_STS.BUSY
      let first := if all then 0 else (s.num R.LC_RANGE_BASE_LO + 2 ^ 32 * (s.num R.LC_RANGE_BASE_HI % 4096)) / 64
      let count := if all then s.capLines else s.num R.LC_RANGE_LEN_LO + 2 ^ 32 * (s.num R.LC_RANGE_LEN_HI % 128)
      let err := s.rangeErr op first count all busy
      if err = 1 then s.set F.LC_RANGE_STS.ERR 1
      else
        let s := ((s.set F.LC_RANGE_CTL.OP op).setBit F.LC_RANGE_CTL.OVERRIDE_LOCK ovr).setBit F.LC_RANGE_CTL.ALL all
        if err ≠ 0 then s.set F.LC_RANGE_STS.ERR err
        else
          let s := (s.wrN R.LC_RANGE_STS 1).setBit F.LC_RANGE_CTL.START true
          { s.zero [R.LC_RANGE_DONE, R.LC_RANGE_SKIPPED] with
              lc.walkQ := s.lc.walkQ ++ [WalkOp.mk (.range op ovr) first count none 0 0 0 0 false] }.leased 7
  | .mbox port ovr first count =>
    let own := (List.range 16).any (fun k => s.bit (F.RT_RG_CTL.EN k) && s.get (F.RT_RG_CTL.PORT k) == port.val &&
      decide (s.rgFirst k ≤ first.toNat) && decide (first.toNat + count.toNat ≤ s.rgFirst k + s.rgLines k))
    let role := if port.val < 8 then s.get (F.HP_STS.ROLE port) else 2
    let err := if !(own || role == 2) then 6 else s.rangeErr op first.toNat count.toNat false false
    if !s.mail port then s
    else if role = 0 then s.mbox port .unsupported Ext.ROLE []
    else if s.hp.bg.contains port.val then s.mbox port .busy 0 []
    else if err ≠ 0 then s.mbox port (rangeReply err).1 (rangeReply err).2 [err]
    else { s.bgStart port with lc.walkQ := s.lc.walkQ ++ [WalkOp.mk (.range op ovr) first.toNat count.toNat (some port.val) 0 0 0 0 false] }.leased 7

/-- START with OP 0 (R148). -/
def execRangeInvalidate (src : RangeSrc) (s : State) : Out := .next (s.rangeStart 0 src)
/-- START with OP 1 (R148). -/
def execRangeClean (src : RangeSrc) (s : State) : Out := .next (s.rangeStart 1 src)
/-- START with OP 2 (R148). -/
def execRangeCleanInv (src : RangeSrc) (s : State) : Out := .next (s.rangeStart 2 src)
/-- START with OP 3 (R146). -/
def execRangeLock (src : RangeSrc) (s : State) : Out := .next (s.rangeStart 3 src)
/-- START with OP 4 (R148). -/
def execRangeUnlock (src : RangeSrc) (s : State) : Out := .next (s.rangeStart 4 src)
/-- START with OP 5 (R152). -/
def execRangeZero (src : RangeSrc) (s : State) : Out := .next (s.rangeStart 5 src)

/-! ### The walker -/

/-- An operation of the registers. -/
def WalkOp.isReg (o : WalkOp) : Bool := o.port.isNone && (match o.kind with | .range _ _ => true | _ => false)

/-- The walker takes the next operation: a secure discard's pass before any other, then in order (R66, R154). -/
def execWalkerTakeOperation (s : State) : Out :=
  if s.fencedSrc 10 then .next s else
  match s.lc.walker with
  | some _ => .next s
  | none =>
    let isPass := fun (o : WalkOp) => match o.kind with | .discard _ => true | _ => false
    match (match s.lc.walkQ.find? isPass with | some o => some o | none => s.lc.walkQ.head?) with
    | none => .next s
    | some o =>
      let s := { s with lc.walker := some o, lc.walkQ := s.lc.walkQ.erase o }.pcEvent 10 2 1
      .next (if o.isReg then s.setBit F.LC_RANGE_STS.RUN true else s)

/-- The line lies in an operation's range. -/
def WalkOp.covers (o : WalkOp) (line : Nat) : Bool := decide (o.first ≤ line) && decide (line < o.first + o.count)

/-- Release the lock of a way. -/
def State.lcUnlock (s : State) (set w : Nat) : State :=
  let x := s.way set w
  if x.l then (s.setWay set w { x with l := false }).subCnt R.LC_LOCK_CNT 1 else s

/-- Write a way's line back: whether the way is then clean or empty, and the state; not while no eviction buffer is free or while the
partner's copy of the line is awaited (R143, R148). -/
def State.walkBack (s : State) (set w : Nat) (ups : List Upset) : Bool × State :=
  let x := s.way set w
  if !x.d then (true, s)
  else
    let m := s.wayRead set w ups
    if !m.1 then (!(m.2.way set w).v, m.2)
    else if s.lc.bufs.length < 512 then (true, m.2.lcWriteBack set w)
    else (false, s)

/-- What a tag walk does to one way (Table 5.3, R149): whether it is done, the state after, lines acted on, locked lines skipped. Lines
acted on, which the spec does not define: a clean line under CLEAN is not counted; a line without a lock under UNLOCK is (DESIGN CHOICE,
R164; notes/assumptions/63). Once EN is 0 nothing is written back (R155), and a CLEAN or CLEAN_INV that is still running passes over every line (DESIGN
CHOICE, notes/assumptions/63). -/
def State.walkWay (s : State) (o : WalkOp) (set w : Nat) (ups : List Upset) : (Bool × Nat × Nat) × State :=
  let x := s.way set w
  let m := s.walkBack set w ups
  let away : (Bool × Nat × Nat) × State := if m.1 then ((true, 1, 0), m.2.lcInvalidate set w) else ((false, 0, 0), m.2)
  if !x.v || !o.covers (wayLine set x) then ((true, 0, 0), s)
  else
    match o.kind with
    | .range 0 ovr => if x.l && !ovr then ((true, 0, 1), s) else ((true, 1, 0), s.lcInvalidate set w)
    | .range 1 _ =>
      if !x.d || !s.bit F.LC_CTL.EN then ((true, 0, 0), s) else ((m.1, m.1.toNat, 0), m.2)
    | .range 2 ovr =>
      if !s.bit F.LC_CTL.EN then ((true, 0, 0), s)
      else if x.l && !ovr then ((true, 0, 1), s)
      else away
    | .range 4 _ => ((true, 1, 0), s.lcUnlock set w)
    | .safeDisable => away
    | .unlock _ => ((true, 1, 0), s.lcUnlock set w)
    | .discard _ => ((true, 1, 0), s.lcInvalidate set w)
    | _ => ((true, 0, 0), s)

/-- What the visit of a set has come to: whether every way so far is done, the next way to visit, and the operation's counts. -/
structure SetVisit where
  ok : Bool
  way : Nat
  done : Nat
  skipped : Nat
  deriving DecidableEq, Repr

/-- Visit a set from a way on: its ways in order, up to one whose write-back must wait. -/
def State.walkSet (s : State) (o : WalkOp) (set from_ : Nat) (ups : List Upset) : SetVisit × State :=
  (s.waysOf set).foldl (fun (acc : SetVisit × State) w =>
    if !acc.1.ok || decide (w < from_) then acc
    else
      let m := acc.2.walkWay o set w ups
      (⟨m.1.1, if m.1.1 then w + 1 else w, acc.1.done + m.1.2.1, acc.1.skipped + m.1.2.2⟩, m.2)) (⟨true, from_, o.done, o.skipped⟩, s)

/-- The line's contents below the line cache, unless it reads with poison (R57, R69, R92). -/
def State.below (s : State) (line : Nat) : Option Line :=
  if s.listed line || s.wholeLine line then none
  else match s.bufFind line with
  | some b => some b.data
  | none =>
    let e := s.entry (tileOf line)
    let media : Option Line := match e.loc with
      | none => some 0
      | some l =>
        let pos := 64 * l.tip + line % 64
        if s.dieLost l.die then none
        else match s.checkLine (groupOf l.die) line (s.pageSeq l) pos 0 (sget 0 (s.mpage l.die l.block l.page).lines pos) with
        | .ok d _ => some d
        | _ => none
    if e.st = 0 ∨ e.st = 3 then some 0
    else if e.st = 2 ∧ (s.slot e.slot).lineSt (line % 64) ≠ 0 then some (s.slotLine e.slot (line % 64))
    else media

/-- Locked ways of a set. -/
def State.lockedIn (s : State) (set : Nat) : Nat := ((s.waysOf set).filter (fun w => (s.way set w).l)).length

/-- The media read that brings a line in has its place among a die's background reads (R96, R98, R148). -/
def State.lockCan (s : State) (line : Nat) : Bool :=
  let e := s.entry (tileOf line)
  match e.loc with
  | some l => (s.lcFind line).isSome || (s.bufFind line).isSome || e.st == 0 || e.st == 3 ||
      (e.st == 2 && (s.slot e.slot).lineSt (line % 64) != 0) || s.dieLost l.die || s.bgCan l.die
  | none => true

/-- LOCK of one line (R146): brought in where absent, then locked. A limit, no way, or no data to bring in (a line that reads with poison
or that its code does not recover: DESIGN CHOICE) leaves the line and counts it, and so does a cache that is off or runs SAFE_DISABLE and
therefore takes no line in (R155, R158). An already locked line counts as acted on
(DESIGN CHOICE, R164; notes/assumptions/63). -/
def State.lockLine (s : State) (line : Nat) (ups : List Upset) : Bool × State :=
  let set := lcSet line
  let fail := fun (s : State) => (false, s.bump R.LC_LOCK_FAIL)
  let ok := (List.range 16).any (fun k => s.bit (F.RT_RG_CTL.EN k) && s.bit (F.RT_RG_CTL.LOCK_OK k) && s.inRegion k line)
  let lim := decide (s.lockedIn set < s.num R.LC_LOCK_WAYS % 32) && decide (s.num R.LC_LOCK_CNT < s.num R.LC_LOCK_MAX % 2 ^ 21)
  let lock := fun (s : State) (w : Nat) =>
    (true, (s.setWay set w { s.way set w with l := true }).addCnt R.LC_LOCK_CNT 1)
  if !s.bit F.LC_CTL.EN then fail s else
  match s.lcFind line with
  | some w => if (s.way set w).l then (true, s) else if ok && lim then lock s w else fail s
  | none =>
    if !(ok && lim) then fail s
    else match s.below line with
      | none => fail s
      | some d =>
        if s.bit F.LC_STS.SAFE_BUSY then fail (s.bump R.LC_FILL_DROP)
        else
          let a := s.lcAllocate set ups
          match a.1 with
          | some w => lock ((a.2.lcEmpty set w).lcPut line w d false false) w
          | none => fail a.2

/-- The walk of a running operation has ended (R158, R168). -/
def State.walkEnd (s : State) (o : WalkOp) : State :=
  let s := { s with lc.walker := none }.pcEvent 10 3 1
  match o.kind with
  | .range op _ =>
    match o.port with
    | some p => (s.bgDone p .success 0 [o.done, o.skipped, o.partl.toNat]).when (s.bit F.LC_CTL.EVT_EN) (fun s => s.roll 0x0400 0 7 op 0 o.skipped)
    | none =>
      let s := (((s.setBit F.LC_RANGE_STS.BUSY false).setBit F.LC_RANGE_STS.RUN false).setBit F.LC_RANGE_STS.DONE true).setBit
        F.LC_RANGE_CTL.START false
      let s := (s.set F.LC_RANGE_STS.PCT 100).set F.LC_RANGE_STS.ERR 0
      s.when (s.bit F.LC_CTL.EVT_EN) (fun s => s.roll 0x0400 0 7 op 0 (s.num R.LC_RANGE_SKIPPED))
  | .safeDisable =>
    ((s.setBit F.LC_CTL.EN false).setBit F.LC_STS.SAFE_BUSY false).setBit F.LC_CTL.SAFE_DISABLE false
  | .unlock _ => s
  | .discard id => { s with te.discards := s.te.discards.map (fun d => if d.id = id then { d with pass := true } else d) }

/-- Show a register operation's progress. -/
def State.walkShow (s : State) (o : WalkOp) (total : Nat) : State :=
  if o.isReg then
    ((s.wrN R.LC_RANGE_DONE (min (2 ^ 32 - 1) o.done)).wrN R.LC_RANGE_SKIPPED (min (2 ^ 32 - 1) o.skipped)).set F.LC_RANGE_STS.PCT (100 * o.pos / max 1 total)
      |>.setBit F.LC_RANGE_STS.PARTIAL o.partl
  else s

/-- Drop the eviction buffers of a discarded range (R66): each releases 1. -/
def State.dropBufs (s : State) (o : WalkOp) : State :=
  let n := (s.lc.bufs.filter (fun b => o.covers b.line)).length
  { s with lc.bufs := s.lc.bufs.filter (fun b => !o.covers b.line) }.release n

/-- The walker visits the next set, or the next line of an address walk, in order (R152). A visit waits while its write-back has no
buffer or its line comes from the partner, a ZERO at or above the hold mark, and a LOCK for its die. A ZERO passes over lines that no
enabled region holds any more (DESIGN CHOICE, notes/assumptions/63). -/
def execWalkerVisit (ups : List Upset) (s : State) : Out :=
  if s.fencedSrc 10 then .next s else
  match s.lc.walker with
  | none => .next s
  | some o =>
    let addr := match o.kind with | .range op _ => op == 3 || op == 5 | _ => false
    let total := if addr then o.count else 65536
    if addr then
      let line := o.first + o.pos
      let op := match o.kind with | .range op _ => op | _ => 0
      if op = 5 ∧ s.holding then .next s
      else if op = 3 ∧ !s.lockCan line then .next s
      else
        let r := if op = 3 then s.lockLine line ups
          else match s.regionOf line with
            | some n => (true, s.enqueue .device line (.write 0) (some n) [] ups)
            | none => (false, s)
        let o := { o with pos := o.pos + 1, done := o.done + r.1.toNat, partl := o.partl || (op == 3 && !r.1) }
        let s := { r.2 with lc.walker := some o }.walkShow o total
        .next (if o.pos ≥ total then s.walkEnd o else s).pump
    else
      let m := s.walkSet o o.pos o.way ups
      let o := { o with done := m.1.done, skipped := m.1.skipped }
      if !m.1.ok then .next ({ m.2 with lc.walker := some { o with way := m.1.way } }.walkShow o total).pump
      else
        let s := if o.pos = 0 then (match o.kind with | .discard _ => m.2.dropBufs o | _ => m.2) else m.2
        let o := { o with pos := o.pos + 1, way := 0 }
        let s := { s with lc.walker := some o }.walkShow o total
        .next (if o.pos ≥ total then s.walkEnd o else s).pump

/-- The tag walk or clear after a reset ends (R163): parity errors met on the way are repaired or withdraw their ways, and the
dirty and locked lines are counted. -/
def execLcCheckWalkDone (found : List (Fin 65536 × Upset)) (s : State) : Out :=
  if s.coreUp && s.bit F.LC_STS.CHECK_BUSY then
    let s := found.foldl (fun s (x : Fin 65536 × Upset) => s.tagUpsets x.1.val [x.2]) s
    let d := s.lcDirty
    let l := (s.lc.ways.filter (fun w => w.2.v && w.2.l)).length
    .next (((s.wrN R.LC_DIRTY_CNT d).wrN R.LC_LOCK_CNT l).setBit F.LC_STS.CHECK_BUSY false)
  else .next s

/-- A write of LC_CNT_CLR (Table 5.8). -/
def execLcCntClr (path : Path) (v : Word) (s : State) : Out :=
  let s := s.regAcc 7
  .next (s.when (s.isManager path) (fun s =>
    (((s.when (v.getLsbD 0) (fun s => s.zero [R.LC_HIT_RD, R.LC_MISS_RD, R.LC_HIT_WR, R.LC_MISS_WR, R.LC_BYPASS_WR])).when
      (v.getLsbD 1) (fun s => s.zero [R.LC_FILL_DROP])).when (v.getLsbD 2) (fun s => s.zero [R.LC_LOCK_FAIL])).when
      (v.getLsbD 3) (fun s => s.zero [R.LC_CE_CNT, R.LC_UE_CNT, R.LC_TAG_PE_CNT])))

/-- MAPC_CTL.EN from 1 to 0 starts the invalidation (R162). -/
def execMapcEnClear (path : Path) (s : State) : Out :=
  let s := s.regAcc 8
  if s.isManager path && s.bit F.MAPC_CTL.EN then .next ((s.setBit F.MAPC_CTL.EN false).mapcInvStart) else .next s

/-- MAPC_CTL.INV starts the invalidation (R162, R170). -/
def execMapcInv (path : Path) (s : State) : Out :=
  let s := s.regAcc 8
  if s.isManager path then .next s.mapcInvStart else .next s

/-- The invalidation ends with every way invalid (R162); a write of EN = 1 made meanwhile takes effect. -/
def execMapcInvDone (s : State) : Out :=
  if s.coreUp && s.bit F.MAPC_STS.INV_BUSY then
    let s := { (s.setBit F.MAPC_STS.INV_BUSY false).setBit F.MAPC_CTL.INV false with te.mapc := [] }.wrN R.MAPC_VALID_CNT 0
    if s.lc.mapcEnWait && !(s.bit F.SIR_CHK_STS.ACTIVE && decide (s.get F.SIR_CHK_CTL.ARRAY ≤ 3)) then
      .next { s.setBit F.MAPC_CTL.EN true with lc.mapcEnWait := false }
    else .next s
  else .next s

/-- A write of MAPC_CNT_CLR (Table 5.13). -/
def execMapcCntClr (path : Path) (v : Word) (s : State) : Out :=
  let s := s.regAcc 8
  .next (s.when (s.isManager path) (fun s =>
    (s.when (v.getLsbD 0) (fun s => s.zero [R.MAPC_HIT, R.MAPC_MISS])).when (v.getLsbD 1)
      (fun s => s.zero [R.MAPC_CE_CNT, R.MAPC_UE_CNT])))

end Sys2Proof.Machine
end

