-- ==== Sys2Proof/Machine/Die.lean ====
section
/-! DEFINITION. The commands and events of a media die (08_media_channels.md, Tables 8.3 to 8.7). -/

set_option autoImplicit false

namespace Sys2Proof.Machine

/-- READ_LINE (R241, R243, R246): the named slot is occupied and the line will be sensed under the reference set's offsets. -/
def execReadLine (die : Fin 320) (arg : BitVec 40) (crc : BitVec 8) (s : State) : Out :=
  let a := arg.toNat
  let slot := a % 16
  let line := a / 16 % 512
  let addr : Bool := decide (slot < 12) && decide (line ≤ 256) && decide (a / 2 ^ 35 % 4 = 0)
  .next (s.dieCmd die 0x10 (argBytes 5 a) crc [Ds.idle, Ds.loading, Ds.suspending, Ds.suspended] addr (fun m s =>
    if m.occupied slot then s.dieStateErr die m
    else
      let r : DRead := ⟨slot, line, a / 2 ^ 13 % 2048, a / 2 ^ 24 % 2048, sget 0 m.refs (a / 2 ^ 37), none⟩
      s.setMdie die (if slot < 8 then { m with host := m.host ++ [r] } else { m with bg := m.bg ++ [r] })))

/-- SEND_H (R243). -/
def execSendH (die : Fin 320) (crc : BitVec 8) (s : State) : Out :=
  .next (s.dieCmd die 0x11 [] crc Ds.awake true (fun m s => s.dieSend die m true))

/-- SEND_B (R243). -/
def execSendB (die : Fin 320) (crc : BitVec 8) (s : State) : Out :=
  .next (s.dieCmd die 0x12 [] crc Ds.awake true (fun m s => s.dieSend die m false))

/-- PROG_SETUP opens a page image (Table 8.3). DESIGN CHOICE: argument bits that a table states as 0 and that are not, here and in ERASE and
READ_LINE, and a DATA_IN index above 88, are address errors; the spec names no error for them (notes/assumptions/59). -/
def execProgSetup (die : Fin 320) (arg : BitVec 24) (crc : BitVec 8) (s : State) : Out :=
  let a := arg.toNat
  .next (s.dieCmd die 0x20 (argBytes 3 a) crc [Ds.idle] (decide (a < 2 ^ 22)) (fun m s =>
    if m.waiting then s.dieStateErr die m
    else s.setMdie die { m with st := Ds.loading, page := a % 2048, block := a / 2048 % 2048, bursts := [], got := [] }))

/-- DATA_IN: the last copy of a burst prevails (R244). -/
def execDataIn (die : Fin 320) (idx : BitVec 8) (data : BitVec 2048) (crc : BitVec 8) (s : State) : Out :=
  let b := idx.toNat
  .next (s.dieCmd die 0x21 [b] crc [Ds.loading] (decide (b ≤ 88)) (fun m s =>
    if m.waiting then s.dieStateErr die m
    else s.setMdie die { m with bursts := sset 0 m.bursts b data, got := setIns b m.got }))

/-- PROG_CONFIRM with every burst received starts the program once every occupied slot is sensed (R244, R245). -/
def execProgConfirm (die : Fin 320) (crc : BitVec 8) (s : State) : Out :=
  .next (s.dieCmd die 0x22 [] crc [Ds.loading] true (fun m s =>
    if m.waiting ∨ m.got.length < 89 then s.dieStateErr die m
    else s.setMdie die ({ m with waiting := true, kind := false, dcrc := BitVec.ofNat 32 (crc32c m.imageBytes) } : MDie).settle))

/-- PROG_CANCEL discards the page image (Table 8.3). DESIGN CHOICE: while a PROG_CONFIRM or an ERASE waits for slots to be sensed, a
PROG_SETUP, DATA_IN, PROG_CONFIRM, PROG_CANCEL or ERASE is a state error (R245 does not say; notes/assumptions/59). -/
def execProgCancel (die : Fin 320) (crc : BitVec 8) (s : State) : Out :=
  .next (s.dieCmd die 0x23 [] crc [Ds.loading] true (fun m s =>
    if m.waiting then s.dieStateErr die m else s.setMdie die { m with st := Ds.idle, bursts := [], got := [] }))

/-- ERASE starts once every occupied slot is sensed (R245). -/
def execErase (die : Fin 320) (arg : BitVec 16) (crc : BitVec 8) (s : State) : Out :=
  let a := arg.toNat
  .next (s.dieCmd die 0x28 (argBytes 2 a) crc [Ds.idle] (decide (a < 2048)) (fun m s =>
    if m.waiting then s.dieStateErr die m
    else s.setMdie die ({ m with waiting := true, kind := true, block := a } : MDie).settle))

/-- SUSPEND (R245, R246): no effect and no error where nothing runs. -/
def execSuspend (die : Fin 320) (crc : BitVec 8) (s : State) : Out :=
  .next (s.dieCmd die 0x30 [] crc Ds.awake true (fun m s =>
    if m.st = Ds.progBusy ∨ m.st = Ds.eraseBusy then s.setMdie die { m with st := Ds.suspending } else s))

/-- RESUME (R245, R246): the operation goes on once every occupied slot is sensed. -/
def execResume (die : Fin 320) (crc : BitVec 8) (s : State) : Out :=
  .next (s.dieCmd die 0x31 [] crc Ds.awake true (fun m s =>
    if m.st = Ds.suspending ∨ m.st = Ds.suspended then s.setMdie die ({ m with st := Ds.resuming } : MDie).settle else s))

/-- STATUS drives the status word and DCRC, and clears D and the sticky bits (R248). -/
def execStatus (die : Fin 320) (crc : BitVec 8) (s : State) : Out :=
  .next (s.dieCmd die 0x40 [] crc Ds.notReset true (fun m s =>
    (s.setMdie die { m with d := false, caErr := false, stateErr := false, addrErr := false, sendErr := false }).emit
      (.dq die [m.status, m.dcrc.toNat])))

/-- FEATURE_SET (R249, R254): a checker start clears PAT_ERR. -/
def execFeatureSet (die : Fin 320) (addr : BitVec 8) (v : Word) (crc : BitVec 8) (s : State) : Out :=
  let a := addr.toNat
  .next (s.dieCmd die 0x50 (a :: argBytes 4 v.toNat) crc [Ds.idle, Ds.suspended] (a == 1 || a == 2 || a == 4) (fun m s =>
    if a = 1 then s.setMdie die { m with drive := v.toNat % 4 }
    else if a = 2 then s.setMdie die { m with odt := v.toNat % 4 }
    else
      let n := v.toNat % 32
      s.setMdie die { m with patCtl := n, patErr := if n / 16 = 1 ∧ n / 8 % 2 = 0 then 0 else m.patErr }))

/-- FEATURE_GET (R249). DESIGN CHOICE: an address that Table 8.7 does not list is an address error, and the die drives nothing; R249 says so of
FEATURE_SET only (notes/assumptions/59). -/
def execFeatureGet (die : Fin 320) (addr : BitVec 8) (crc : BitVec 8) (s : State) : Out :=
  let a := addr.toNat
  .next (s.dieCmd die 0x51 [a] crc Ds.notReset (decide (a ≤ 4)) (fun m s =>
    let v := match a with
      | 0 => (Config.dieIdent die.val).toNat % 256 + 256 + (Config.dieIdent die.val).toNat / 256 * 65536
      | 1 => m.drive
      | 2 => m.odt
      | 3 => m.patErr
      | _ => m.patCtl
    s.emit (.dq die [v])))

/-- REF_ADJ loads a reference set (R250). -/
def execRefAdj (die : Fin 320) (set : BitVec 8) (offs : BitVec 24) (crc : BitVec 8) (s : State) : Out :=
  .next (s.dieCmd die 0x60 (set.toNat :: argBytes 3 offs.toNat) crc [Ds.idle, Ds.loading, Ds.suspended] (decide (set.toNat < 8))
    (fun m s => s.setMdie die { m with refs := sset 0 m.refs set.toNat offs }))

/-- States in which a TRAIN sub-operation is accepted (R252, R253). DESIGN CHOICE: sub-operation 0, for which Table 8.10 names no state, is
accepted in CA_TRAIN and leaves the die there; one above 3 is a state error (notes/assumptions/59). -/
def trainStates (m : MDie) (sub : Nat) : List Nat :=
  if sub = 0 then [Ds.caTrain]
  else if sub = 1 ∨ sub = 2 then [Ds.idle]
  else if sub = 3 ∧ m.host.isEmpty ∧ m.bg.isEmpty then [Ds.idle, Ds.progBusy, Ds.eraseBusy, Ds.suspended]
  else []

/-- TRAIN (R252, R253): the die runs the pattern and returns to its former state when it ends. Only sub-operation 0 is a
broadcast; it goes on with the CA echo. -/
def execTrain (ch : Fin 40) (ce : BitVec 8) (sub param : BitVec 8) (crc : BitVec 8) (s : State) : Out :=
  let n := sub.toNat
  let dies := ceDies ch ce
  if 1 < dies.length ∧ n ≠ 0 then .next s
  else
    .next (dies.foldl (fun s d =>
      s.dieCmd d 0x70 [n, param.toNat] crc (trainStates (s.mdie d) n) true (fun m s =>
        if n = 0 then s
        else
          let s := s.setMdie d { m with st := Ds.training, former := m.st, patErr := if n = 2 then 0 else m.patErr }
          if n = 2 then s else s.emit (.dq d [if n = 1 then 1024 else 64]))) s)

/-- A TRAIN sub-operation's pattern ends: the die returns to its former state (R245, R252). -/
def execTrainPatternEnd (die : Fin 320) (s : State) : Out :=
  let m := s.mdie die
  .next (if m.st = Ds.training then s.setMdie die { m with st := m.former } else s)

/-- SYNC aligns the ready round and ends CA training (R242, R245). -/
def execSync (ch : Fin 40) (ce : BitVec 8) (crc : BitVec 8) (s : State) : Out :=
  .next ((ceDies ch ce).foldl (fun s d => s.dieCmd d 0x7E [] crc Ds.any true (fun m s =>
    s.setMdie d { m with aligned := true, st := if m.st = Ds.caTrain then Ds.idle else m.st })) s)

/-- RESET, the soft reset (R245). A die held in RESET by RST_N stays there. -/
def execReset (ch : Fin 40) (ce : BitVec 8) (crc : BitVec 8) (s : State) : Out :=
  .next ((ceDies ch ce).foldl (fun s d => s.dieCmd d 0x7F [] crc Ds.any true (fun m s =>
    if m.st = Ds.reset ∧ m.hard then s else s.dieReset d false)) s)

/-- RST_N of a channel falls or rises (R245). -/
def execRstN (ch : Fin 40) (high : Bool) (s : State) : Out :=
  .next ((List.range 8).foldl (fun s k =>
    let d := 8 * ch.val + k
    if high then
      let m := s.mdie d
      if m.st = Ds.reset ∧ m.hard then s.setMdie d { m with st := Ds.caTrain } else s
    else s.dieReset d true) s)

/-- What a die senses: the stored line with this read's errors; a line of the page being programmed or of the block being
erased has no meaning (R246). -/
def State.sense (s : State) (d : Nat) (m : MDie) (r : DRead) (err : StoredLine) : StoredLine × State :=
  if Ds.suspending ≤ m.st ∧ m.st ≤ Ds.resuming ∧ r.block = m.block ∧ (m.kind ∨ r.page = m.page) then
    (BitVec.ofNat 704 (s.free 704), s.drawn)
  else (sget 0 (s.mpage d r.block r.page).lines r.line ^^^ err, s)

/-- A die has sensed the line of a slot (R243, R245, R246). -/
def execLineSensed (die : Fin 320) (slot : Fin 12) (err : StoredLine) (s : State) : Out :=
  let m := s.mdie die
  if m.st = Ds.reset ∨ m.st = Ds.suspending then .next s
  else match (m.host ++ m.bg).find? (fun r => r.slot == slot.val && r.sensed.isNone) with
    | none => .next s
    | some r =>
      let q := s.sense die m r err
      let upd := fun (l : List DRead) => l.map (fun (x : DRead) => if x.slot = slot.val then { x with sensed := some q.1 } else x)
      .next (q.2.setMdie die ({ m with host := upd m.host, bg := upd m.bg } : MDie).settle)

/-- Stored lines of a page image. -/
def MDie.imageLines (m : MDie) : Sparse StoredLine :=
  let img := m.image
  (List.range 257).foldl (fun (acc : Sparse StoredLine) i => sset 0 acc i (BitVec.ofNat 704 (img / 2 ^ (704 * i)))) []

/-- A program or erase ends (R245): D and PF, and what the page or the block then holds. -/
def execOperationEnds (die : Fin 320) (failed : Bool) (s : State) : Out :=
  let m := s.mdie die
  if m.st = Ds.progBusy ∨ m.st = Ds.eraseBusy then
    let s := s.setMdie die { m with st := Ds.idle, d := true, pf := failed }
    if m.st = Ds.progBusy then
      let s := { s with te.media := sset MPage.erased s.te.media (pageKey die m.block m.page) ⟨m.imageLines⟩ }
      .next (if failed then s.scramble die m.block m.page else s)
    else if failed then .next ((List.range 2048).foldl (fun s p => s.scramble die m.block p) s)
    else .next { s with te.media := skeep s.te.media (fun k => k / 2048 != 2048 * die.val + m.block) }
  else .next s

/-- A suspending die reaches its suspension point (R245). -/
def execSuspensionPointReached (die : Fin 320) (s : State) : Out :=
  let m := s.mdie die
  .next (if m.st = Ds.suspending then s.setMdie die { m with st := Ds.suspended } else s)

/-- A die leaves RESET for IDLE after the RESET command (R245). -/
def execDieResetDone (die : Fin 320) (s : State) : Out :=
  let m := s.mdie die
  .next (if m.st = Ds.reset ∧ !m.hard then s.setMdie die { m with st := Ds.idle } else s)

end Sys2Proof.Machine
end

