-- ==== Sys2Proof/Machine/Fault.lean ====
section
/-! DEFINITION. The commands of the fault collector (17_fault_collection.md). -/

set_option autoImplicit false

namespace Sys2Proof.Machine

/-- A fault word as taken: one with a parity error is severity 2 of kind PARITY (R496). -/
def fltOf (w : FltWord) : Flt := ⟨w.src.toNat, if w.bad then 2 else w.sev.val, if w.bad then Kind.PARITY else w.kind.val, w.detail.toNat⟩

/-- Faults arrive in one arbitration window (R501, R502). -/
def execFaultRaise (fs : List FltWord) (s : State) : Out := .next (s.raiseWindow (fs.map fltOf))

/-- A pair has been held at 0,0 or 1,1 for 16 reference steps or more (R498). -/
def execWireFault (src : BitVec 8) (s : State) : Out := .next (s.when s.coreUp (fun s => s.wireFault src.toNat))

/-- The fault word of a source in wire fault is read (R498). -/
def execFaultWordPoll (src : BitVec 8) (s : State) : Out :=
  .next (s.when (s.coreUp && (s.fcSrc src.toNat).wire) (fun s => s.wirePoll src.toNat))

/-- FLT_FORCE.GO (R499, R500): a fault of kind INJECT of the page's source SUB. -/
def execFltForceGo (page : Fin 110) (path : Path) (sev sub : Fin 4) (s : State) : Out :=
  let s := s.regAcc page
  .next (if s.isManager path then match pageSrc page sub with
    | some n => s.raise n sev Kind.INJECT
    | none => s
  else s)

/-- FLT_FORCE.WIRE: the pair is held at 1, 1 for 1 µs, which is a wire fault (R498, R499). -/
def execFltForceWire (page : Fin 110) (path : Path) (sub : Fin 4) (s : State) : Out :=
  let s := s.regAcc page
  .next (if s.isManager path && s.coreUp then match pageSrc page sub with
    | some n => s.wireFault n
    | none => s
  else s)

/-- A source's escalation timer expires (R505). -/
def execEscalationTimeout (src : BitVec 8) (s : State) : Out :=
  .next (s.when (s.coreUp && (s.fcSrc src.toNat).timer.isSome) (fun s => s.escalate src.toNat))

/-- FC_ACK (R504): a severity-2 fault's timer stops. -/
def execFcAck (src : BitVec 8) (s : State) : Out :=
  let x := s.fcSrc src.toNat
  .next (if s.proctors && x.sev == 2 && x.timer.isSome then s.fcMod src.toNat (fun x => { x with timer := none, acked := true }) else s)

/-- FC_RESOLVE (R504): ignored while a severity-3 timer runs. -/
def execFcResolve (src : BitVec 8) (s : State) : Out :=
  let x := s.fcSrc src.toNat
  .next (if s.proctors && x.sev != 0 && !(x.sev == 3 && x.timer.isSome) then
    ((s.fcMod src.toNat (fun x => { x with sev := 0, kind := 0, detail := 0, acked := false, timer := none, timerAt := 0 })).bankBit
      (R.FC_ACTIVE 0) src.toNat false).alertShow
  else s)

/-- FC_ESC (R504): an active source escalates at once. -/
def execFcEsc (src : BitVec 8) (s : State) : Out :=
  .next (s.when (s.proctors && (s.fcSrc src.toNat).sev != 0) (fun s => s.escalate src.toNat))

/-- FC_REVOKE (R509): accepted for a fenced holder and for a Proctor that is out. -/
def execFcRevoke (holder : BitVec 8) (s : State) : Out :=
  let h := holder.toNat
  if !s.proctors then .next s
  else if s.fencedSrc h || (decide (96 ≤ h) && decide (h ≤ 99) && !s.healthy (h - 96)) then .next (s.revokeStart h)
  else .next (s.setBit ⟨R.FC_REV_STS, 11, 1⟩ true)

/-- All leases of the holder have been checked and released (R509, R510); a revocation that waits runs next. -/
def execRevocationDone (bad : List Bool) (s : State) : Out :=
  match s.fc.revoking with
  | none => .next s
  | some h =>
    let s := { s with fc.revoking := none }.revokeEnd h bad
    match s.fc.revokeQ with
    | [] => .next s
    | k :: rest => .next { s.wrN R.FC_REV_STS (k + 256) with fc.revoking := some k, fc.revokeQ := rest }

/-- FC_UNFENCE (R507): refused while any lease remains, and for a block fenced for the third time within 1 h. -/
def execFcUnfence (src : BitVec 8) (s : State) : Out :=
  let n := src.toNat
  let x := s.fcSrc n
  if s.proctors && x.fenced && returnable n && !x.stuck && (s.held n).isEmpty then
    let s := s.fcMod n (fun x => { x with fenced := false, revoked := false })
    .next (if 72 ≤ n ∧ n ≤ 95 then s.set (F.CORE_STS.STATE (n - 72)) 1 else s)
  else .next s

/-- FC_PROC_BEAT (R512). -/
def execFcProcBeat (p : Fin 4) (s : State) : Out :=
  .next (if s.coreUp && s.healthy p then { s with fc.beats := sset 0 s.fc.beats p s.tick.toNat } else s)

/-- A beat has been missing for 4 ms (R512); while the tick runs it also tells. -/
def execProctorBeatMissing (p : Fin 4) (s : State) : Out :=
  let beyond := !s.refclk || decide (sget 0 s.fc.beats p + 400000 ≤ s.tick.toNat)
  .next (s.when (s.coreUp && s.healthy p && beyond && decide (3 ≤ s.get F.BOOT_STS.PHASE)) (fun s => s.raise (96 + p) 3 Kind.STALL))

/-- No FC_REVOKE within FC_ESC_T2 of the fence (R508). -/
def execRevokeOverdue (src : BitVec 8) (s : State) : Out :=
  let x := s.fcSrc src.toNat
  .next (s.when (s.coreUp && x.fenced && !x.revoked) (fun s => s.raise (96 + s.lead) 3 Kind.STALL))

/-- FC_CTL.FIRST_CLR (R517). -/
def execFcFirstClr (path : Path) (s : State) : Out :=
  let s := s.regAcc 1
  .next (s.when (s.isManager path) (fun s => s.zero [R.FC_FIRST, R.FC_FIRST_TICK_LO, R.FC_FIRST_TICK_HI]))

/-- FC_CTL.CONTAIN_NOW (R514). -/
def execFcContainNow (path : Path) (s : State) : Out :=
  let s := s.regAcc 1
  .next (s.when (s.isManager path) State.contain)

/-- FC_DRAIN_LIM passes before the containment's drain ends: it ends short (Table 17.8, R440). -/
def execFcDrainLimit (s : State) : Out := .next (s.when s.psq.contLim State.drainShort)

/-- A write of FC_CNT_CLR (Table 17.10). -/
def execFcCntClr (path : Path) (v : Word) (s : State) : Out :=
  let s := s.regAcc 1
  .next (s.when (s.isManager path) (fun s =>
    (s.when (v.getLsbD 0) (fun s => s.zero (regRange (R.FC_CNT_SEV 0) 7))).when (v.getLsbD 1) (fun s => s.zero [R.FC_CONTAIN_CNT])))

end Sys2Proof.Machine
end

