-- ==== Sys2Proof/Machine/Power.lean ====
section
/-! DEFINITION. The commands of the power sequencer and the Cistern (14_power_and_cistern.md). -/

set_option autoImplicit false

namespace Sys2Proof.Machine

/-- MOD_EN rises: an on request (R419). -/
def execModEnRise (s : State) : Out :=
  let s := s.setBit F.PSQ_STS.MOD_EN true
  .next (s.when s.dom.aon State.onRequest)

/-- MOD_EN falls: an off request (R419). -/
def execModEnFall (s : State) : Out :=
  let s := s.setBit F.PSQ_STS.MOD_EN false
  .next (s.when s.dom.aon State.offRequest)

/-- PSQ_CTL.ON (R419, R445). -/
def execPsqOn (path : Path) (s : State) : Out :=
  let s := s.regAcc 2
  .next (s.when (s.dom.aon && s.mgrOrOob path) State.onRequest)

/-- PSQ_CTL.OFF (R419, R445). -/
def execPsqOff (path : Path) (s : State) : Out :=
  let s := s.regAcc 2
  .next (s.when (s.dom.aon && s.mgrOrOob path) State.offRequest)

/-- PSQ_CTL.CLR_LOCK leaves LOCKOUT of cause 1, 2 or 4 for OFF (R424). -/
def execPsqClrLock (path : Path) (s : State) : Out :=
  let s := s.regAcc 2
  let c := s.get F.PSQ_STS.LOCK_CAUSE
  if s.mgrOrOob path && s.phase == Ph.lockout && (c == 1 || c == 2 || c == 4) then
    .next (({ s.setPhase Ph.off with psq.fails := 0 }.set F.PSQ_STS.LOCK_CAUSE 0).tryUp)
  else .next s

/-- The input-fail comparator trips (R426, Table 14.4). -/
def execInputFail (s : State) : Out := .next (s.when (s.dom.aon && s.bit F.PSQ_STS.IN_GOOD) State.inputFail)

/-- The input has stayed good for 10 ms (R426): a power-up that waits for it follows. -/
def execInputGood (s : State) : Out := .next (s.when s.dom.aon (fun s => (s.setBit F.PSQ_STS.IN_GOOD true).tryUp))

/-- A power-up begins (R422): from OFF when it is wanted, or from DISCH_WAIT once every rail reads discharged. -/
def execPowerUpStart (s : State) : Out :=
  if !s.dom.aon then .next s
  else if s.phase = Ph.dischWait then .next (s.when (s.allLow && s.bit F.PSQ_STS.IN_GOOD) State.startUp)
  else .next s.tryUp

/-- 5 s of DISCH_WAIT (R422). -/
def execDischWaitTimeout (s : State) : Out := .next (s.when (s.phase == Ph.dischWait && !s.allLow) (fun s => s.lockout 2))

/-- DLY of the step's entry has passed: its RAIL_EN is asserted (Table 14.5). -/
def execRailEnableDelay (s : State) : Out :=
  let e := s.get F.PSQ_STS.STEP
  if s.phase = Ph.up ∧ !s.psq.on.contains e ∧ e < s.entCount then
    .next ({ s with psq.on := s.psq.on ++ [e] }.railEn (s.entEn e) true)
  else .next s

/-- The step's entry is good (Table 14.5): the next entry starts, or RAILS_UP is set after the last; an off request that waited
runs DOWN (Table 14.4). `kat` is the result of the start-up's known-answer tests (R326). -/
def execRailPowerGood (kat : Bool) (s : State) : Out :=
  let e := s.get F.PSQ_STS.STEP
  if s.phase = Ph.up ∧ s.psq.on.contains e ∧ s.psq.good = e then
    let s := { s with psq.good := e + 1 }
    let s := if s.entPgUse e then s.setBit ⟨R.PSQ_RAIL, 16 + s.entPg e, 1⟩ true else s
    .next (if s.psq.offReq then s.startDown
      else if e + 1 < s.entCount then s.set F.PSQ_STS.STEP (e + 1)
      else s.railsUp kat)
  else .next s

/-- PG_TO of the step's entry expires (R423); with an off request waiting this is no failure (Table 14.4). -/
def execPgTimeout (s : State) : Out :=
  let e := s.get F.PSQ_STS.STEP
  if s.phase = Ph.up ∧ s.psq.on.contains e ∧ s.psq.good = e then
    .next (if s.psq.offReq then s.startDown else s.upFail e)
  else .next s

/-- The rail being switched off is done with: the next one follows (R425). -/
def State.downDone (s : State) : State :=
  match s.psq.on.getLast? with
  | none => s
  | some e =>
    let s := { s with psq.on := s.psq.on.dropLast }
    (s.setBit ⟨R.PSQ_RAIL, 16 + s.entPg e, 1⟩ (s.bit ⟨R.PSQ_RAIL, 16 + s.entPg e, 1⟩ && !s.entPgUse e)).downNext

/-- A rail counts as discharged (R425). -/
def execRailDischarged (s : State) : Out := .next (s.when (s.phase == Ph.down && !s.psq.on.isEmpty) State.downDone)

/-- DIS_TO passes before discharge (R425). -/
def execDisTimeout (s : State) : Out :=
  match s.psq.on.getLast? with
  | some e =>
    if s.phase = Ph.down then
      let s := s.setBit ⟨R.PSQ_RAIL_FLT, 16 + e, 1⟩ true
      .next ((((s.raise 2 1 Kind.SUPPLY).rollSnap 0x0103 2 e (s.senseMv e) 0)).downDone)
    else .next s
  | none => .next s

/-- 250 ms of MIN_OFF have passed (Table 14.4): LOCKOUT where one is due, otherwise OFF and the power-up that is wanted. -/
def execMinOffEnd (s : State) : Out :=
  if s.phase = Ph.minOff then
    if s.psq.lock ≠ 0 then .next (s.lockout s.psq.lock)
    else .next (s.setPhase Ph.off).tryUp
  else .next s

/-- A RAIL_PG falls (R427). -/
def execRailPgFall (pg : Fin 16) (s : State) : Out :=
  let s := s.setBit ⟨R.PSQ_RAIL, 16 + pg.val, 1⟩ false
  match s.psq.on.find? (fun e => s.entPgUse e && s.entPg e == pg.val && decide (e < s.psq.good)) with
  | some e => .next (s.when (decide (1 ≤ s.phase) && decide (s.phase ≤ 4)) (fun s => s.railFault e))
  | none => .next s

/-! ### Margins -/

/-- PSQ_MARG_CTL.APPLY (R431, R432). -/
def execMarginApply (path : Path) (entry : Fin 16) (off : BitVec 8) (lvl : Fin 4) (s : State) : Out :=
  let s := s.regAcc 2
  if !s.mgrOrOob path then .next s
  else
    let e := entry.val
    let s := ((s.set F.PSQ_MARG_CTL.ENTRY e).set F.PSQ_MARG_CTL.OFFSET off.toNat).set F.PSQ_MARG_CTL.LVL lvl
    let err := fun (n : Nat) => s.set F.PSQ_MARG_STS.ERR n
    if s.phase ≠ Ph.on ∨ s.draining ∨ s.entCount ≤ e ∨ !(s.entPmb e || s.entVcore e) then .next (err 3)
    else if s.entPmb e ∧ !s.psq.linear.contains e then .next (err 4)
    else
      let m : Int := s.entMarg e
      let o := off.toInt
      let o' := max (-m) (min m o)
      let s := err (if o' = o then 0 else 1)
      let s := { s with psq.marg := s.psq.marg.filter (fun (x : Nat × Int) => x.1 != e) ++ (if o' = 0 then [] else [(e, o')]) }
      if s.entVcore e then .next ((s.vcoreWrite (vcoreTarget s.arch.vset o')).margShow)
      else
        let mv := ((s.entNom e : Int) * (200 + o') / 200).toNat
        let ops : List PmbOp :=
          if o' = 0 then [⟨e, 0x01, 0x80⟩]
          else if 0 < o' then [⟨e, 0x25, mv⟩, ⟨e, 0x01, 0xA8⟩] else [⟨e, 0x26, mv⟩, ⟨e, 0x01, 0x98⟩]
        .next ((((s.pmbPut ops).setBit F.PSQ_MARG_STS.BUSY true).setBit F.PSQ_MARG_CTL.APPLY true).margShow)

/-- PSQ_MARG_CTL.STOP (R432). -/
def execMarginStop (path : Path) (s : State) : Out :=
  let s := s.regAcc 2
  .next (s.when (s.mgrOrOob path) State.margClear)

/-- PSQ_MARG_TO after the latest APPLY (R432). -/
def execMarginTimeout (s : State) : Out := .next s.margClear

/-- The PMBus transaction on the bus ends (R430): a failure is retried once, a second failure is counted and raised. -/
def execPmbusTransactionDone (ok : Bool) (data : BitVec 16) (s : State) : Out :=
  match s.psq.pmb with
  | [] => .next s
  | op :: rest =>
    if !ok ∧ !s.psq.pmbTry then .next { s with psq.pmbTry := true }
    else
      let marg := op.code == 0x01 || op.code == 0x25 || op.code == 0x26
      let s := { s with psq.pmb := rest, psq.pmbTry := false }
      let s := if ok then
          (if op.code = 0x20 ∧ data.toNat / 32 % 8 = 0 then { s with psq.linear := setIns op.entry s.psq.linear } else s)
        else
          let s := (s.bump R.PSQ_PMB_ERR).raise 2 2 Kind.LINK
          s.when marg (fun s => s.set F.PSQ_MARG_STS.ERR 2)
      let busy := rest.any (fun (x : PmbOp) => x.code == 0x01 || x.code == 0x25 || x.code == 0x26)
      .next ((s.setBit F.PSQ_MARG_STS.BUSY busy).setBit F.PSQ_MARG_CTL.APPLY (busy && s.bit F.PSQ_MARG_CTL.APPLY))

/-! ### The Cistern -/

/-- 16 conversions of CIS_SNS, as their sum, give CIS_V (R433); below CIS_VMIN a drain runs short (R440). -/
def execCisternAverage (sum : BitVec 16) (s : State) : Out :=
  if !s.dom.aon then .next s
  else
    let mv := min 65535 (sum.toNat * (s.num R.CIS_DIV % 65536) / 65536)
    let s := s.wrN R.CIS_V mv
    .next (s.when (decide (mv < s.num R.CIS_VMIN % 65536)) State.drainShort)

/-- The first budget after a reset charges the lines kept across it (R163); without the check walk's count it waits. -/
def State.firstBudget (s : State) : State :=
  if s.bit F.TS_STS.BUDGET_VALID then s
  else
    let s := s.setBit F.TS_STS.BUDGET_VALID true
    if s.lc.keptUncharged then
      { s with lc.keptUncharged := false }.charge s.lcCounted
    else s

/-- The budget is computed and delivered to the tile stage (R437, R122, R125). -/
def execBudgetCompute (s : State) : Out :=
  if !s.dom.aon || !(s.phase == Ph.up || s.phase == Ph.on || s.phase == Ph.shutdown) then .next s
  else
    let b := s.budgetAt (s.num R.CIS_V % 65536)
    let s := ((s.wrN R.CIS_E s.energyMj).wrN R.CIS_BUDGET_LO b).wrN R.CIS_BUDGET_HI (b / 2 ^ 32)
    if !s.coreUp || (s.bit F.LC_STS.CHECK_BUSY && !s.bit F.TS_STS.BUDGET_VALID) then .next s
    else
      let s := { s with te.budget := b }.firstBudget.showBudget
      .next (s.release 0).pump

/-- CIS_CTL.TEST (R435). -/
def execCisTest (path : Path) (s : State) : Out :=
  let s := s.regAcc 2
  .next (s.when (s.dom.aon && s.mgrOrOob path) State.cisRequest)

/-- The first test of a start-up: CIS_V reaches CIS_VFULL, or CIS_CHG_TO passes (R435). -/
def execCisChargeDeadline (timeout : Bool) (s : State) : Out :=
  let full := decide (s.num R.CIS_VFULL % 65536 ≤ s.num R.CIS_V % 65536)
  if s.dom.aon && !s.psq.firstTest && (timeout || full) then
    .next ({ s.when (!full) (fun s => s.setBit F.CIS_STS.CHG_TO true) with psq.firstTest := true }.cisRequest)
  else .next s

/-- CIS_TEST_INT has passed (R435). -/
def execCisTestInterval (s : State) : Out := .next (s.when s.dom.aon State.cisRequest)

/-- A deferred test retries its conditions (R435). -/
def execCisTestDeferRetry (s : State) : Out :=
  .next (s.when (s.bit F.CIS_STS.DEFER && s.cisMay && s.psq.test.isNone) State.cisStart)

/-- 60 s after an invalid test it is repeated (R436). -/
def execCisTestRepeat (s : State) : Out :=
  .next (s.when s.psq.again (fun s => { s with psq.again := false, psq.second := true }.cisRequest))

/-- The result of a test (R434, R436): I in mA, T in ms, voltages in mV. -/
def State.cisResult (s : State) (t : CisTest) (v2 : Nat) : State :=
  let i := s.num R.CIS_TEST_I % 2 ^ 15
  let net : Int := ((t.v1 : Int) - v2) - ((t.va : Int) - t.vb)
  let c0 := i * (s.num R.CIS_TEST_T % 1024) / net.toNat
  let c := min 65535 (if t.osc then c0 * 98 / 100 else c0)
  let esr := min 65535 ((t.vb - t.v1) * 10000 / i)
  let use := s.num R.CIS_C % 65536
  let ok := decide (20 ≤ net) && (use == 0 || (decide (use ≤ 2 * c) && decide (c ≤ 2 * use)))
  let s := { (s.setBit F.CIS_STS.TEST_BUSY false).setBit F.CIS_CTL.TEST false with psq.test := none }
  let s := s.set ⟨R.CIS_C, 16, 16⟩ c
  let s := if ok then
      let s := { (((s.set ⟨R.CIS_C, 0, 16⟩ c).wrN R.CIS_ESR esr).pstAdd (.record 6 [BitVec.ofNat 32 c])).bump R.CIS_TEST_CNT with
        psq.again := false, psq.second := false }
      let s := ((s.setBit F.CIS_STS.TEST_BAD false).setBit F.CIS_STS.C_VALID true).setBit F.CIS_STS.C_STORED false
      let low := decide (c < s.num R.CIS_C_MIN % 65536)
      let high := decide (s.num R.CIS_ESR_MAX % 65536 < esr)
      let s := (s.setBit F.CIS_STS.C_LOW low).setBit F.CIS_STS.ESR_HIGH high
      let s := s.when low (fun s => (s.moduleEvent [2, 1]).raise 2 2 Kind.LIMIT)
      s.when high (fun s => s.moduleEvent [2, 2])
    else
      let s := (s.setBit F.CIS_STS.TEST_BAD true).bump R.CIS_TEST_BAD_CNT
      if s.psq.second then { s with psq.second := false }.raise 2 2 Kind.CHECK else { s with psq.again := true }
  s.when (s.bit F.CIS_CTL.EVT_EN) (fun s => s.roll 0x0109 0 2 c esr (s.num R.CIS_STS))

/-- A window of the capacitance test ends and its reading is taken (Table 14.7). -/
def execCapTestStep (s : State) : Out :=
  match s.psq.test with
  | none => .next s
  | some t =>
    let v := s.num R.CIS_V % 65536
    let t := { t with osc := t.osc || !s.refclk }
    match t.step with
    | 1 => .next { s with psq.test := some { t with step := 2, va := v } }
    | 2 => .next { s.emit (.pin .cisTest (some true)) with psq.test := some { t with step := 3, vb := v } }
    | 3 => .next { s with psq.test := some { t with step := 4, v1 := v } }
    | _ =>
      let s := s.emit (.pin .cisTest (some false))
      let s := (List.range s.entCount).foldl (fun s e => if s.entCharger e && s.psq.on.contains e then s.railEn (s.entEn e) true else s) s
      .next (s.cisResult t v)

/-! ### Drain and shutdown -/

/-- The running step of Table 14.9 completes. -/
def execDrainStepDone (s : State) : Out := .next (s.when (s.phase == Ph.drain) State.drainStep)

/-- 500 ms after a thermal trip the unfinished drain ends short (R439). -/
def execThermalDrainLimit (s : State) : Out := .next (s.when s.psq.thermLim State.drainShort)

/-- The running step of Table 14.10 completes. -/
def execShutdownStepDone (s : State) : Out := .next (s.when (s.phase == Ph.shutdown) State.shutdownStep)

/-- PSQ_CNT_CLR (Table 14.11). -/
def execPsqCntClr (path : Path) (v : Word) (s : State) : Out :=
  let s := s.regAcc 2
  .next (s.when (s.mgrOrOob path && v.getLsbD 0) (fun s =>
    s.zero [R.PSQ_PUP_FAIL_CNT, R.PSQ_RAIL_FLT_CNT, R.PSQ_DRAIN_CNT, R.PSQ_PMB_ERR]))

/-- CIS_CNT_CLR (Table 14.11). -/
def execCisCntClr (path : Path) (v : Word) (s : State) : Out :=
  let s := s.regAcc 2
  .next (s.when (s.mgrOrOob path && v.getLsbD 0) (fun s => s.zero [R.CIS_TEST_CNT, R.CIS_TEST_BAD_CNT, R.CIS_DEFER_CNT]))

end Sys2Proof.Machine
end

