-- ==== Sys2Proof/Machine/Queue.lean ====
section
/-! DEFINITION. The commands of the management queues, the counting windows, the link patterns, lane margining and boundary scan
(18_queues_counters_test.md). -/

set_option autoImplicit false

namespace Sys2Proof.Machine

/-! ### Pushing and popping (R521–R528) -/

/-- MQ_PUSH_LO (R523): the path's hold register takes the low half. -/
def execMqPushLo (q : Fin 8) (path : Path) (v : Word) (s : State) : Out :=
  let s := s.regAcc (100 + q)
  match s.mqPath q path with
  | none => .next s
  | some k => .next (if s.fencedSrc (100 + q) then s else s.mqMod q (fun m => { m with hold := sset 0 m.hold k v }))

/-- A high-half write: the word is appended, unless the queue is fenced or its pointer copies disagree (R523, R506, R527). -/
def State.pushHigh (s : State) (q : Nat) (path : Path) (v : Word) (fin ptr : Bool) : State :=
  match s.mqPath q path with
  | none => s
  | some k => if s.fencedSrc (100 + q) then s else if ptr then s.mqPtrFault q else s.mqPush q k v fin

/-- MQ_PUSH_HI. -/
def execMqPushHi (q : Fin 8) (path : Path) (v : Word) (ptr : Bool) (s : State) : Out :=
  let s := s.regAcc (100 + q)
  .next (s.pushHigh q path v false ptr)

/-- MQ_PUSH_HI_END. -/
def execMqPushHiEnd (q : Fin 8) (path : Path) (v : Word) (ptr : Bool) (s : State) : Out :=
  let s := s.regAcc (100 + q)
  .next (s.pushHigh q path v true ptr)

/-- MQ_POP_LO (R525): the low half of the head word, or what was last returned, with UNDERRUN. -/
def execMqPopLo (q : Fin 8) (path : Path) (s : State) : Out :=
  let s := s.regAcc (100 + q)
  match s.mqPath q path with
  | none => .next (s.emit (.regRead path (R.MQ_POP_LO q) 0))
  | some k =>
    let m := s.mqOf q
    match m.up with
    | [] => .next ((s.setBit (F.MQ_STS.UNDERRUN q) true).emit (.regRead path (R.MQ_POP_LO q) (sget 0 m.lastLo k)))
    | w :: _ =>
      let v : Word := w.2.setWidth 32
      .next ((s.mqMod q (fun m => { m with lastLo := sset 0 m.lastLo k v })).emit (.regRead path (R.MQ_POP_LO q) v))

/-- MQ_POP_HI (R525, R526): the high half of the head word, which leaves the queue; a flush that waited for the packet's END acts.
Where the pointer copies disagree the queue is reset and the value returned is open (R527). -/
def execMqPopHi (q : Fin 8) (path : Path) (ptr : Bool) (s : State) : Out :=
  let s := s.regAcc (100 + q)
  match s.mqPath q path with
  | none => .next (s.emit (.regRead path (R.MQ_POP_HI q) 0))
  | some k =>
    let m := s.mqOf q
    if ptr then
      let v := BitVec.ofNat 32 (s.free 32)
      .next (((s.drawn.mqPtrFault q).mqMod q (fun m => { m with lastHi := sset 0 m.lastHi k v })).emit (.regRead path (R.MQ_POP_HI q) v))
    else match m.up with
      | [] => .next ((s.setBit (F.MQ_STS.UNDERRUN q) true).emit (.regRead path (R.MQ_POP_HI q) (sget 0 m.lastHi k)))
      | w :: rest =>
        let v : Word := (w.2 >>> 32).setWidth 32
        let s := s.mqPut q (fun m => { m with up := rest, inPkt := !w.1, lastHi := sset 0 m.lastHi k v })
        let s := (s.pcEvent (100 + q) 3 1).emit (.regRead path (R.MQ_POP_HI q) v)
        .next (s.when (w.1 && s.bit (F.MQ_STS.FLUSH_PEND_UP q)) (fun s => s.mqFlushUp q))

/-- MQ_CTL.FLUSH_DN (R526). -/
def execMqFlushDn (q : Fin 8) (path : Path) (s : State) : Out :=
  let s := s.regAcc (100 + q)
  match s.mqPath q path with
  | none => .next s
  | some _ =>
    if (s.mqOf q).dnOpen then .next ((s.setBit (F.MQ_CTL.FLUSH_DN q) true).setBit (F.MQ_STS.FLUSH_PEND_DN q) true)
    else .next (s.mqFlushDn q)

/-- MQ_CTL.FLUSH_UP (R526). -/
def execMqFlushUp (q : Fin 8) (path : Path) (s : State) : Out :=
  let s := s.regAcc (100 + q)
  match s.mqPath q path with
  | none => .next s
  | some _ =>
    if (s.mqOf q).inPkt then .next ((s.setBit (F.MQ_CTL.FLUSH_UP q) true).setBit (F.MQ_STS.FLUSH_PEND_UP q) true)
    else .next (s.mqFlushUp q)

/-- MQ_CTL.RESET (R526). -/
def execMqReset (q : Fin 8) (path : Path) (s : State) : Out :=
  let s := s.regAcc (100 + q)
  match s.mqPath q path with
  | none => .next s
  | some _ => .next (s.mqReset q)

/-- A write of MQ_CNT_CLR through the queue's path or the manager port. -/
def execMqCntClr (q : Fin 8) (path : Path) (v : Word) (s : State) : Out :=
  let s := s.regAcc (100 + q)
  .next (s.when (v.getLsbD 0 && (s.isManager path || (s.mqPath q path).isSome)) (fun s => s.zero [R.MQ_DROP_PKT q, R.MQ_PTR_CNT q]))

/-! ### Packets (R529, R530) -/

end Sys2Proof.Machine

/-- Opcode of the command that a packet spells (Table 12.6, Table 12.7). -/
def Sys2Proof.MboxOp.code : Sys2Proof.MboxOp → Nat
  | .getEvents _ => 0x0100
  | .clearEvents _ _ => 0x0101
  | .getPolicy => 0x0102
  | .setPolicy _ => 0x0103
  | .getFwInfo => 0x0200
  | .transferFw _ _ _ => 0x0201
  | .activateFw => 0x0202
  | .getTime => 0x0300
  | .setTime _ => 0x0301
  | .getLogs => 0x0400
  | .getLog _ => 0x0401
  | .identify => 0x4000
  | .health => 0x4200
  | .getAlerts => 0x4201
  | .setAlerts _ => 0x4202
  | .getShutdown => 0x4203
  | .setShutdown _ => 0x4204
  | .poisonList _ _ => 0x4300
  | .inject _ => 0x4301
  | .clear _ _ => 0x4302
  | .scanCaps _ _ => 0x4303
  | .scan _ _ _ => 0x4304
  | .scanResults => 0x4305
  | .sanitize => 0x4400
  | .secureErase => 0x4401
  | .dcConfig => 0x4800
  | .dcExtents => 0x4801
  | .addDc _ => 0x4802
  | .releaseDc _ => 0x4803
  | .latency _ => 0xC000
  | .regionSet _ _ => 0xC010
  | .contextSet _ _ _ _ => 0xC011
  | .enable _ => 0xC012
  | .disable _ _ => 0xC013
  | .query _ => 0xC014
  | .prepare _ => 0xC015
  | .rekey _ _ => 0xC016
  | .discard _ _ => 0xC020
  | .range _ _ _ _ => 0xC021
  | .reportCard => 0xC030
  | .readWrite => 0xC031
  | .roles _ => 0xC032
  | .lifecycle _ => 0xC040
  | .wrappedKey _ _ => 0xC041
  | .streamOpen _ _ _ _ _ _ => 0xC043
  | .streamRun _ => 0xC044
  | .streamSave _ _ => 0xC045
  | .streamRestore _ => 0xC046
  | .streamAbort _ => 0xC047
  | .admitPair => 0xC050
  | .admitSolo => 0xC050
  | .admitKeep _ => 0xC050
  | .detach _ => 0xC051
  | .rollRead _ _ => 0xC060
  | .rollClear _ => 0xC061
  | .paramRead _ _ => 0xC062
  | .paramWrite _ _ => 0xC063

namespace Sys2Proof.Machine

/-- The state that an outcome leaves. -/
def thenState (o : Out) (s : State) : State := match o with
  | .next t => t
  | _ => s

/-- The command of management queue q, as a mailbox command of port 8 + q (R529). -/
def runMbox (o : MboxOp) (q : Fin 8) (s : State) : Out :=
  let p : Nat := 8 + q.val
  let p16 : Fin 16 := ⟨8 + q.val, by omega⟩
  match o with
  | .getEvents log => execGetEventRecords p log s
  | .clearEvents log n => execClearEventRecords p log n s
  | .getPolicy => execGetEventInterruptPolicy p s
  | .setPolicy v => execSetEventInterruptPolicy p v s
  | .getFwInfo => execGetFwInfo p s
  | .transferFw part a b => execTransferFw p part a b s
  | .activateFw => execActivateFw p s
  | .getTime => execGetTimestamp p s
  | .setTime ns => execSetTimestamp p ns s
  | .getLogs => execGetSupportedLogs p s
  | .getLog e => execGetLog p e s
  | .identify => execIdentifyMemoryDevice p s
  | .health => execGetHealthInfo p s
  | .getAlerts => execGetAlertConfiguration p s
  | .setAlerts v => execSetAlertConfiguration p v s
  | .getShutdown => execGetShutdownState p s
  | .setShutdown c => execSetShutdownState p c s
  | .poisonList a n => execGetPoisonList p a n s
  | .inject l => execInjectPoison p l s
  | .clear l d => execClearPoison p l d s
  | .scanCaps a n => execGetScanMediaCapabilities p a n s
  | .scan a n bad => execScanMedia p a n bad s
  | .scanResults => execGetScanMediaResults p s
  | .sanitize => execSanitize p s
  | .secureErase => execSecureErase p s
  | .dcConfig => execGetDcConfiguration p s
  | .dcExtents => execGetDcExtentList p s
  | .addDc e => execAddDcResponse p e s
  | .releaseDc e => execReleaseDc p e s
  | .latency c => execGetLatencyReport p c s
  | .regionSet n a => execRegionSet p n a s
  | .contextSet n en ep t => execContextSet p n en ep t s
  | .enable n => execRegionEnable p n s
  | .disable n f => if f then execRegionDisableForce p n s else execRegionDisable p n s
  | .query n => execRegionQuery p n s
  | .prepare l => execContextPrepare p l s
  | .rekey n e => if e then execRekeyErase p n s else execRekey p n s
  | .discard a n => execDiscard p a n s
  | .range op ovr a n =>
    let src : RangeSrc := .mbox p16 ovr a n
    match op with
    | 0 => execRangeInvalidate src s
    | 1 => execRangeClean src s
    | 2 => execRangeCleanInv src s
    | 3 => execRangeLock src s
    | 4 => execRangeUnlock src s
    | 5 => execRangeZero src s
  | .reportCard => execGetReportCard p s
  | .readWrite => execSetReadWrite p s
  | .roles r => execPortRoleSet p r s
  | .lifecycle t => execLifecycleSet p t s
  | .wrappedKey k ws => execLoadTransferKey p (.wrapped k ws) s
  | .streamOpen w i k t a n => execStreamOpen p w i k t a n s
  | .streamRun w => execStreamRun p w s
  | .streamSave w x => execStreamSave p w x s
  | .streamRestore r => execStreamRestore p r s
  | .streamAbort w => execStreamAbort p w s
  | .admitPair => execAdmitPair p s
  | .admitSolo => execAdmitSolo p s
  | .admitKeep x => execAdmitKeep p x s
  | .detach x => execDetach p x s
  | .rollRead a n => execRollBookRead p a n s
  | .rollClear l => execRollBookArchiveAndClear p l s
  | .paramRead a n => execParameterRead p a n s
  | .paramWrite a ws => execParameterWrite p a ws s

/-- Firmware takes the first whole packet and runs it (R529): a wrong LEN and a payload that spells no arguments of the opcode give
Invalid Input, an opcode outside the set gives Unsupported. -/
def execMqCommand (q : Fin 8) (op : Option MboxOp) (s : State) : Out :=
  let m := s.mqOf q
  if !s.coreUp || decide (s.get F.BOOT_STS.PHASE < 3) || s.fencedSrc (100 + q) || m.cur.isSome then .next s
  else match takePacket m.dn with
    | none => .next s
    | some (pkt, rest) =>
      let head := match pkt with | w :: _ => w.2.toNat | [] => 0
      let code := head % 2 ^ 16
      let len := head / 2 ^ 32 % 2 ^ 11
      let s := s.mqPut q (fun m => { m with dn := rest, cur := some (code, head / 2 ^ 16 % 2 ^ 16) })
      if len > 1024 ∨ len ≠ pkt.length - 1 then .next (s.mbox (8 + q) .invalidInput 0 [])
      else if !opcodes.contains code || code == 0xC042 then .next (s.mbox (8 + q) .unsupported 0 [])
      else match op with
        | none => .next (s.mbox (8 + q) .invalidInput 0 [])
        | some o => if o.code = code then runMbox o q s else .next (s.mbox (8 + q) .invalidInput 0 [])

/-- Firmware pushes the words of its oldest reply that find room (R525, R529); a first whole packet interrupts (R530): MSI-X vector
VEC of the manager port, or, in I3C mode, an in-band interrupt whose byte is the queue's number. -/
def execMqReply (q : Fin 8) (s : State) : Out :=
  let m := s.mqOf q
  match m.replies with
  | [] => .next s
  | r :: rest =>
    let room := 2048 - m.up.length
    if !s.coreUp || s.fencedSrc (100 + q) || room == 0 then .next s
    else
      let was := s.get (F.MQ_PKTS.UP q)
      let left := r.drop room
      let s := s.mqPut q (fun m => { m with up := m.up ++ r.take room, replies := if left.isEmpty then rest else left :: rest })
      .next (s.when (was == 0 && decide (0 < s.get (F.MQ_PKTS.UP q)) && s.bit (F.MQ_CTL.IRQ_EN q)) (fun s =>
        if s.get (F.MQ_CFG.PATH q) = 0 then s.emit (.other 100 [q, s.get (F.MQ_CFG.VEC q)])
        else if s.get (F.MQ_CFG.PATH q) = 1 ∧ s.boot.i3c then s.emit (.other 101 [q]) else s))

/-! ### Counting windows (R534) -/

/-- A write of PC_WIN_CTL through the manager port (Table 18.8). -/
def State.winCtl (s : State) (page : Nat) (v : Word) (w : Nat) : State :=
  let s := (s.winWrite page v).keepWraps page w
  let s := s.when (v.getLsbD 2) (fun s => (s.zero (regRange (R.PC_CNT page 0) 16)).set (F.PC_WIN_CTL.OVF page) 0)
  let s := s.when (v.getLsbD 0) (fun s => s.winOpen page)
  s.when (v.getLsbD 1) (fun s => s.winClose page)

/-- PC_WIN_CTL.START. -/
def execPcWinStart (page : Fin 110) (path : Path) (v : Word) (s : State) : Out :=
  let w := s.wrapsOf page
  let s := s.regAcc page
  .next (s.when (s.isManager path && v.getLsbD 0) (fun s => s.winCtl page v w))

/-- PC_WIN_CTL.STOP. -/
def execPcWinStop (page : Fin 110) (path : Path) (v : Word) (s : State) : Out :=
  let w := s.wrapsOf page
  let s := s.regAcc page
  .next (s.when (s.isManager path && v.getLsbD 1) (fun s => s.winCtl page v w))

/-- PC_WIN_CTL.CLR. -/
def execPcWinClr (page : Fin 110) (path : Path) (v : Word) (s : State) : Out :=
  let w := s.wrapsOf page
  let s := s.regAcc page
  .next (s.when (s.isManager path && v.getLsbD 2) (fun s => s.winCtl page v w))

/-- LEN × 10,000 ticks after the latest START. -/
def State.winDue (s : State) (page : Nat) : Bool :=
  s.bit (F.PC_WIN_CTL.START page) && s.get (F.PC_WIN_CTL.LEN page) != 0 &&
    decide (sget 0 s.tst.winAt page + s.get (F.PC_WIN_CTL.LEN page) * 10000 ≤ s.tick.toNat)

/-- A window reaches its length. -/
def execPcWindowEnd (page : Fin 110) (s : State) : Out := .next (s.when (s.winDue page) (fun s => s.winClose page))

/-- TST_PC_CTL.START: the windows of all 110 pages. -/
def execTstPcStart (path : Path) (s : State) : Out :=
  let s := s.regAcc 108
  .next (s.when (s.isManager path) (fun s => (List.range 110).foldl State.winOpen s))

/-- TST_PC_CTL.STOP. -/
def execTstPcStop (path : Path) (s : State) : Out :=
  let s := s.regAcc 108
  .next (s.when (s.isManager path) (fun s => (List.range 110).foldl State.winClose s))

/-! ### Link patterns (R535–R538) -/

/-- PHY of a lane: host PHYs 0–3, Caravan 4 (R535). -/
def lanePhy (n : Nat) : Nat := n / 16

/-- The lanes of a PHY. -/
def phyLanes (k : Nat) : List Nat := (List.range 16).map (fun l => 16 * k + l)

/-- The lane chosen by TST_LANE_SEL. -/
def State.laneSel (s : State) : Option Nat := let n := s.num R.TST_LANE_SEL % 128; if n < 80 then some n else none

/-- The PHY may be held (R536): no logical port of it in L0; for Caravan, PAIRED 0. -/
def State.mayHold (s : State) (k : Nat) : Bool :=
  if k < 4 then !s.bit (F.HP_STS.LINK_UP (2 * k)) && !s.bit (F.HP_STS.LINK_UP (2 * k + 1)) else !s.bit F.CAR_STS.PAIRED

/-- Hold a PHY: Caravan's link goes down with a cause that is open. -/
def State.holdPhy (s : State) (k : Nat) : State :=
  let s := s.setBit ⟨R.TST_PHY_CTL, k, 1⟩ true
  if k = 4 then s.drawn.linkLoss (s.free 3) else s

/-- Release a PHY: its patterns stop and it trains again. -/
def State.releasePhy (s : State) (k : Nat) : State :=
  ((phyLanes k).foldl State.laneStop s).setBit ⟨R.TST_PHY_CTL, k, 1⟩ false

/-- A write of TST_PHY_CTL (R536): each bit alone; a refused 1 sets REFUSED, which an accepted write clears. -/
def execTstPhyCtlWrite (path : Path) (v : Word) (s : State) : Out :=
  let s := s.regAcc 108
  if !s.isManager path then .next s
  else
    let want := (List.range 5).filter (fun k => v.getLsbD k && !s.phyHeld k)
    let bad := want.any (fun k => !s.mayHold k)
    let s1 := ((List.range 5).filter (fun k => !v.getLsbD k && s.phyHeld k)).foldl State.releasePhy s
    let s2 := (want.filter s.mayHold).foldl State.holdPhy s1
    .next ((s2.laneShow).setBit F.TST_PAT_STS.REFUSED bad)

/-- A START is accepted (R536–R538): the lane's PHY is held, LOOP and RATE are defined, Caravan at rate 6 only, no fence. -/
def State.mayStart (s : State) (n : Nat) (v : Word) : Bool :=
  let loop := v.toNat / 32 % 8
  let rate := v.toNat / 256 % 8
  s.phyHeld (lanePhy n) && decide (loop ≤ 3) && decide (1 ≤ rate) && decide (rate ≤ 6) && (decide (n < 64) || rate == 6) && !s.fencedSrc 108

/-- TST_PAT_CTL with START (R537): the lane, or with ALL every lane of its PHY, takes the settings and starts with its counts at 0. -/
def execTstPatStart (path : Path) (v : Word) (s : State) : Out :=
  let s := s.regAcc 108
  match s.laneSel with
  | none => .next s
  | some n =>
    if !s.isManager path then .next s
    else
      let ctl := v.toNat % 2048 + (if v.getLsbD 14 then 2 ^ 14 else 0)
      if s.mayStart n v then
        let ls := if v.getLsbD 14 then phyLanes (lanePhy n) else [n]
        let s := ls.foldl (fun s l => (s.laneMod l (fun _ => ⟨true, false, ctl, 0, 0⟩)).pcEvent 108 2 1) s
        .next ((s.setBit F.TST_PAT_STS.REFUSED false).laneShow)
      else .next (((s.laneMod n (fun x => { x with ctl := ctl })).laneShow).setBit F.TST_PAT_STS.REFUSED true)

/-- TST_PAT_CTL with STOP: the lane, or with ALL every lane of its PHY, stops. `counts` are the bits checked and in error that the
lanes have counted in sync and that no report has brought. -/
def execTstPatStop (path : Path) (counts : List (Nat × Nat)) (s : State) : Out :=
  let s := s.regAcc 108
  match s.laneSel with
  | none => .next s
  | some n =>
    if !s.isManager path then .next s
    else
      let ls := if (s.lane n).ctl / 2 ^ 14 % 2 = 1 then phyLanes (lanePhy n) else [n]
      let s := ls.zipIdx.foldl (fun s (x : Nat × Nat) =>
        let c := counts.getD x.2 (0, 0)
        let s := if (s.lane x.1).sync then (s.laneCount x.1 c.1 c.2).laneMod x.1 (fun l => { l with sync := false }) else s
        s.laneStop x.1) s
      .next ((s.setBit F.TST_PAT_STS.REFUSED false).laneShow)

/-- TST_PAT_CTL with INJ: one bit of the lane's generated stream is inverted. -/
def execTstPatInj (path : Path) (s : State) : Out :=
  let s := s.regAcc 108
  match s.laneSel with
  | none => .next s
  | some n => .next (s.when (s.isManager path && (s.lane n).run && (s.lane n).ctl / 8 % 2 == 1) (fun s => s.emit (.other 108 [n])))

/-- A checker has matched 64 bits (R537, R254): a lane's, or a media channel's as 80 + c. -/
def execPatternSyncGain (lane : Fin 120) (s : State) : Out :=
  if lane.val < 80 then
    let x := s.lane lane
    .next (if x.run && x.ctl / 16 % 2 == 1 then (s.laneMod lane (fun l => { l with sync := true })).laneShow else s)
  else
    let c := lane.val - 80
    .next (if s.bit (F.MC_PAT_CTL.START c) then s.setBit (F.MC_STS.PAT_SYNC c) true else s)

/-- 256 errors within 4,096 bits (R537): what was counted in sync until then is added, and SYNC clears. -/
def execPatternSyncLoss (lane : Fin 80) (bits errs : Nat) (s : State) : Out :=
  .next (if (s.lane lane).run && (s.lane lane).sync then
    ((s.laneCount lane bits errs).laneMod lane (fun l => { l with sync := false })).laneShow else s)

/-! ### Lane margining (R539, R540) -/

/-- TST_MARG_CTL with START (R540). -/
def execTstMargStart (path : Path) (v : Word) (s : State) : Out :=
  let s := s.regAcc 108
  if !s.isManager path then .next s
  else
    let n := v.toNat
    let step := n / 4 % 32
    let dwell := n / 2 ^ 16
    let s := s.wrN R.TST_MARG_CTL (n % 128 + dwell * 2 ^ 16 + (if s.tst.marg.isSome then 128 else 0))
    match s.laneSel with
    | none => .next (s.setBit F.TST_MARG_STS.REFUSED true)
    | some l =>
      let top := if n % 2 = 0 then 16 else 32
      if 64 ≤ l && s.bit F.CAR_STS.LINK_UP && !s.bit F.CAR_STS.PAIRED && decide (1 ≤ step) && decide (step ≤ top) && decide (1 ≤ dwell) &&
          !s.fencedSrc 108 then
        .next { (s.wrN R.TST_MARG_STS 0).setBit F.TST_MARG_CTL.START true with tst.marg := some l }
      else .next (s.setBit F.TST_MARG_STS.REFUSED true)

/-- TST_MARG_CTL with STOP: the step ends with the errors counted. -/
def execTstMargStop (path : Path) (errs : BitVec 6) (s : State) : Out :=
  let s := s.regAcc 108
  .next (s.when (s.isManager path) (fun s => s.margEnd errs.toNat))

/-- The step ends at 63 errors or after DWELL. -/
def execMarginStepEnd (errs : BitVec 6) (s : State) : Out := .next (s.margEnd errs.toNat)

/-- A lane-margining command of a host port's link partner at 16 GT/s and above (R539, Table 18.10): capabilities in the table's order,
the errors of a step within them, and PCIe's own answer, which is left open, to anything else. -/
def execLaneMarginCommand (port : Fin 8) (lane : Fin 16) (cmd : MargCmd) (s : State) : Out :=
  let p := port.val
  if !s.bit (F.HP_STS.LINK_UP p) || decide (s.get (F.HP_STS.RATE p) < 4) || decide (s.get (F.HP_STS.WIDTH p) ≤ lane.val) then .next s
  else match cmd with
    | .caps => .next (s.emit (.hostMsg p 0x40 [lane, 16, 30, 32, 120, 1, 1]))
    | .step v side n e =>
      if n.toNat ≤ (if v then 32 else 16) then .next (s.emit (.hostMsg p 0x41 [lane, v.toNat, side.toNat, n.toNat, e.toNat]))
      else .next (s.drawn.emit (.hostMsg p 0x42 [lane, s.free 8]))
    | .other c => .next (s.drawn.emit (.hostMsg p 0x42 [lane, c.toNat, s.free 8]))

/-- A link partner directs a port into PCIe Loopback (R538): the port follows, without HOLD and without any register; its link is not
in L0. -/
def execPcieLoopbackEntry (port : Fin 8) (s : State) : Out :=
  if s.bit (F.HP_STS.PRESENT port) && s.coreUp && !s.hp.perst.contains port.val then
    .next ((s.hostLinkDown port).emit (.hostMsg port 0x43 []))
  else .next s

/-! ### Boundary scan (R541) -/

/-- Instructions of Table 18.11; every other code acts as BYPASS. -/
def jtagCode (c : Nat) : Nat := if c ≤ 6 then c else 0xFF

/-- An instruction other than BYPASS, IDCODE and SAMPLE/PRELOAD holds the core domain in reset. -/
def jtagHolds (c : Nat) : Bool := c == 0 || c == 3 || c == 4 || c == 5 || c == 6

/-- A new instruction is in force: a holding one resets the core domain, as DEV_RST_N does; leaving it releases the core domain. -/
def State.jtagLoad (s : State) (c : Nat) (kat : Bool) : State :=
  if !s.dom.aux || !s.bit F.PSQ_STS.RAILS_UP then s
  else
    let s := { s with tst.jtag := c }
    if jtagHolds c && !s.boot.jtag then
      let s := { s with boot.jtag := true }.coreReset 4
      if s.phase = Ph.drain ∨ s.phase = Ph.shutdown then s.resetDown else s
    else if !jtagHolds c && s.boot.jtag then
      let s := { s with boot.jtag := false, tick := 0 }
      if s.phase == Ph.on && !s.coreUp && !s.boot.rstN then s.coreStart kat else s
    else s

/-- Update-IR with a code; `kat` is the result of the known-answer tests of the restart. -/
def execJtagInstructionUpdate (code : BitVec 8) (kat : Bool) (s : State) : Out := .next (s.jtagLoad (jtagCode code.toNat) kat)

/-- TRST_N: Test-Logic-Reset selects IDCODE. -/
def execTrstN (kat : Bool) (s : State) : Out := .next (s.jtagLoad 1 kat)

end Sys2Proof.Machine
end

