-- ==== Sys2Proof/Machine/Flags.lean ====
section
/-! DEFINITION. Status registers whose value is computed from the state when they are read, and the value that each register reads as
(17_fault_collection.md Tables 17.3, 17.14; 20_mode_combinations.md Table 20.9; 21_register_pages.md Tables 21.2–21.4, 21.7; the
registers of the other chapters that report what a selector names). -/

set_option autoImplicit false

namespace Sys2Proof.Machine

/-! ### The common layout (Tables 21.1–21.4) -/

/-- PG_TYPE (Table 21.1). -/
def pageType (p : Nat) : Nat :=
  if p ≤ 11 then 0x100 + p else if p ≤ 19 then 0x110 else if p ≤ 25 then 0x111 else if p ≤ 30 then 0x112 else if p = 31 then 0x113
  else if p ≤ 71 then 0x114 else if p ≤ 95 then 0x115 else if p ≤ 99 then 0x116 else if p ≤ 107 then 0x117
  else if p = 108 then 0x118 else if p = 109 then 0x119 else 0

/-- PG_INST (R581). -/
def pageInst (p : Nat) : Nat :=
  if 12 ≤ p ∧ p ≤ 19 then p - 12 else if 20 ≤ p ∧ p ≤ 25 then p - 20 else if 26 ≤ p ∧ p ≤ 30 then p - 26
  else if 32 ≤ p ∧ p ≤ 71 then p - 32 else if 72 ≤ p ∧ p ≤ 95 then p - 72 else if 96 ≤ p ∧ p ≤ 99 then p - 96
  else if 100 ≤ p ∧ p ≤ 107 then p - 100 else 0

/-- PG_STS.PRESENT: the instance exists (R238, R369). -/
def State.pagePresent (s : State) (p : Nat) : Bool :=
  if 12 ≤ p ∧ p ≤ 19 then s.bit (F.HP_STS.PRESENT (p - 12))
  else if 32 ≤ p ∧ p ≤ 71 then s.num (R.MC_DIES (p - 32)) % 16 != 0 else decide (p < 110)

/-- PG_CTL.EN: present and in service (Table 21.3). -/
def State.pageEn (s : State) (p : Nat) : Bool :=
  s.pagePresent p && !(match pageSrc p 0 with | some n => s.fencedSrc n | none => false) &&
    (if 96 ≤ p ∧ p ≤ 99 then s.healthy (p - 96) else true)

/-- PG_STS (Table 21.4); a soft reset ends within its command, so SOFT_BUSY reads 0. -/
def State.pageSts (s : State) (p : Nat) : Nat :=
  (s.pagePresent p).toNat + 4 * (s.locked p).toNat + 8 * (aonPage p).toNat

/-! ### Faults (Table 17.3, Table 17.14) -/

/-- Sources of a page. -/
def pageSrcs (p : Nat) : List Nat := (List.range 125).filter (fun n => (srcPage n).1 == p)

/-- µs left on a source's escalation timer; 0xF_FFFF when none runs. -/
def State.timerLeft (s : State) (n : Nat) : Nat := match (s.fcSrc n).timer with
  | some t => min 0xFFFFF (t - (s.tick.toNat - (s.fcSrc n).timerAt) / 100)
  | none => 0xFFFFF

/-- FLT_SEV. -/
def State.fltSev (s : State) (p : Nat) : Nat :=
  let l := pageSrcs p
  (l.foldl (fun m n => max m (s.fcSrc n).sev) 0) + 4 * (l.any (fun n => (s.fcSrc n).sev != 0)).toNat +
    8 * (l.any s.fencedSrc).toNat + 16 * (l.any (fun n => (s.fcSrc n).wire)).toNat

/-- FLT_TIMER. -/
def State.fltTimer (s : State) (p : Nat) : Nat := (pageSrcs p).foldl (fun m n => min m (s.timerLeft n)) 0xFFFFF

/-- FC_SRC_INFO of the source that FC_SRC_SEL names; 0 for a reserved source (R520). -/
def State.srcInfo (s : State) (n : Nat) : Nat :=
  if 124 < n then 0
  else
    let x := s.fcSrc n
    let now := s.opSeconds
    x.sev % 4 + 4 * (x.sev != 0).toNat + 8 * x.acked.toNat + 16 * x.fenced.toNat + 32 * x.wire.toNat + 64 * (srcClass n).code +
      256 * min 15 (x.fences.filter (fun t => decide (now < t + 3600))).length + 4096 * s.timerLeft n

/-! ### Mode register (Table 20.9) -/

/-- DEV_MODE. While the core domain is out of service STATE reads 0. -/
def State.devMode (s : State) : Nat :=
  (if s.coreUp then s.devState else 0) + 16 * s.draining.toNat + 32 * s.booting.toNat + 64 * s.fenced.toNat + 128 * s.roState.toNat +
    256 * s.degraded.toNat + 2 ^ 10 * s.get F.CAR_STS.ROLE +
    2 ^ 12 * (if s.bit F.LC_STS.STALE_HELD then 2 else if s.coreUp && !s.bit F.LC_CTL.EN then 1 else 0) +
    2 ^ 14 * (decide (0 < s.get F.RT_STS.APPLIED_LVL)).toNat + 2 ^ 15 * (s.get F.PSQ_MARG_STS.ACTIVE != 0).toNat +
    2 ^ 16 * (s.num R.TST_PHY_CTL % 32 != 0).toNat + 2 ^ 17 * (s.bit F.SIR_CHK_STS.ACTIVE).toNat +
    2 ^ 18 * ((List.range 40).any (fun c => s.bit (F.MC_PAT_CTL.START c))).toNat + 2 ^ 19 * s.boot.jtag.toNat

/-! ### Registers that report what a selector names -/

/-- RT_DIE_CNT (Table 3.9). -/
def State.dieCnt (s : State) (d : Nat) : Nat :=
  s.dieOut d + 2 ^ 8 * (s.dieHeld d) + 2 ^ 21 * (s.bgUsed d) + 2 ^ 24 * (s.die d).suspended.toNat

/-- TE_SUB: the substitute of a retired die (R181). -/
def State.subInfo (s : State) (d : Nat) : Nat :=
  match s.te.subst.find? (fun (x : Nat × Nat) => x.1 == d) with
  | some x => if (s.die d).retired then x.2 % 512 + 2 ^ 31 else 0
  | none => 0

/-- TE_DIE_SPARE. -/
def State.dieSpare (s : State) (d : Nat) : Nat :=
  if 320 ≤ d then 0
  else sparePct (s.spareOf d) % 2 ^ 14 + 2 ^ 14 * ((s.blocksIn d 8).length % 2 ^ 11) + 2 ^ 25 * (s.die d).retired.toNat +
    2 ^ 26 * (s.te.subst.any (fun (x : Nat × Nat) => x.2 == d)).toNat

/-- TE_DIE_ERASE: lowest and highest erase count of the die. -/
def State.dieErase (s : State) (d : Nat) : Nat :=
  if 320 ≤ d then 0
  else
    let l := (List.range 2048).map (fun b => (s.blk d b).erases)
    min 65535 (lowest 65535 l) + 65536 * min 65535 (l.foldl max 0)

/-- MC_DIE_TRN. -/
def State.dieTrn (s : State) (d : Nat) : Nat := (s.die d).phase % 64 + 64 * ((s.die d).refCode % 32) + 2048 * ((s.die d).delay % 64)

/-- MG_REF_VAL: an entry of the group's default table with DEF, else of the die's refined table (R277). -/
def State.refEntry (s : State) (g : Nat) : BitVec 24 :=
  let v := s.num (R.MG_REF_SEL g)
  if v / 2048 % 2 = 1 then sget 0 s.sir.refDef ((g * 4 + v / 64 % 4) * 8 + v / 256 % 8)
  else s.refOf (64 * g + v % 64) (v / 64 % 4) (v / 256 % 8)

/-- MG_AGE_VAL. -/
def State.ageEntry (s : State) (g : Nat) : Nat :=
  let v := s.num (R.MG_AGE_SEL g)
  let d := 64 * g + v / 2048 % 64
  let b := v % 2048
  sget 0 s.sir.ages (2048 * d + b) % 8 + 8 * (s.blk d b).unknown.toNat + 16 * (decide (0 < (s.blk d b).next)).toNat

/-- CE_XF_STS of a window. -/
def State.xfSts (s : State) (w : Nat) : Nat :=
  match s.streamOf w with
  | some x => (if x.st = 2 then 2 else if x.st = 3 then 0 else 1) + 4 * (x.dir % 2) + 8 * (x.place % 8) + 256 * (x.unread % 16) + 65536 * (x.chunk % 65536)
  | none => 0

/-- CE_SLOT_INFO. -/
def State.slotInfo (s : State) (n : Nat) : Nat :=
  if 4096 ≤ n then 0
  else
    let k := s.keySlot n
    if k.st = 0 then 0 else k.st % 8 + 8 * (k.kind % 8) + 256 * (k.holder % 256) + 65536 * (s.slotRefs n % 65536)

/-- CE_SLOT_LBL0–CE_SLOT_LBL3: the label of a DATA slot. -/
def State.slotLbl (s : State) (n k : Nat) : Nat :=
  if n < 4096 ∧ (s.keySlot n).st ≠ 0 ∧ (s.keySlot n).kind = 4 then (s.keySlot n).label / 2 ^ (32 * k) % 2 ^ 32 else 0

/-- Words of the Roll book read through RB_REC, REPEAT of the open record among them (R489). -/
def State.rbRecWord (s : State) (k : Nat) : Word :=
  let slot := s.num R.RB_SEL
  if k = 1 ∧ s.rb.opened.any (fun (o : RbEvent × Option Nat) => o.2 == some slot) then BitVec.ofNat 32 (s.num R.RB_OPEN_REPEAT)
  else sget erasedWord s.pst.words (8 * slot + k)

/-- The value of a register of a page, by page offset, where it is computed. -/
def State.computed (s : State) (p x : Nat) : Option Nat :=
  if x = 0 then some (pageType p) else if x = 4 then some (pageInst p) else if x = 0x10 then some (s.pageEn p).toNat
  else if x = 0x14 then some (s.pageSts p) else if x = 0x2C then some (s.fltSev p) else if x = 0x30 then some (s.fltTimer p)
  else if x = 0x40 then some (s.tick.toNat % 2 ^ 32) else if x = 0x44 then some (s.tick.toNat / 2 ^ 32)
  else if p = 0 ∧ x = 0x108 then some (Config.serial.toNat % 2 ^ 32) else if p = 0 ∧ x = 0x10C then some (Config.serial.toNat / 2 ^ 32)
  else if p = 0 ∧ x = 0x160 then some s.devMode
  else if p = 1 ∧ x = 0x124 then some (s.srcInfo (s.num R.FC_SRC_SEL % 256))
  else if p = 4 ∧ x = 0x11C then some (s.counter (s.num R.PST_CNT_SEL % 16))
  else if p = 4 ∧ 0x400 ≤ x ∧ x ≤ 0x4FC then some (s.pstWord (s.num R.PST_ROW % 2048) ((x - 0x400) / 4)).toNat
  else if p = 5 ∧ 0x200 ≤ x ∧ x ≤ 0x21C then some (s.rbRecWord ((x - 0x200) / 4)).toNat
  else if p = 6 ∧ x = 0x124 then some (s.xfSts (s.num R.CE_XF_SEL % 16))
  else if p = 8 ∧ x = 0x234 then some (s.subInfo (s.num R.TE_SUB_SEL % 512))
  else if p = 8 ∧ x = 0x338 then some (s.dieSpare (s.num R.TE_UPK_DIE_SEL % 512))
  else if p = 8 ∧ x = 0x33C then some (s.dieErase (s.num R.TE_UPK_DIE_SEL % 512))
  else if p = 10 ∧ x = 0x150 then some (sget 0 s.sir.drift (s.num R.SIR_ZONE_SEL % 8) / 16 % 2 ^ 32)
  else if p = 10 ∧ x = 0x154 then some (sget 0 s.sir.drift (s.num R.SIR_ZONE_SEL % 8) / 16 / 2 ^ 32 % 2 ^ 16)
  else if 26 ≤ p ∧ p ≤ 30 ∧ x = 0x22C then some (s.refEntry (p - 26)).toNat
  else if 26 ≤ p ∧ p ≤ 30 ∧ x = 0x234 then some (s.ageEntry (p - 26))
  else if p = 31 ∧ x = 0x134 then some (if s.num R.RT_DIE_SEL % 512 < 320 then s.dieCnt (s.num R.RT_DIE_SEL % 512) else 0)
  else if 32 ≤ p ∧ p ≤ 71 ∧ x = 0x110 then some (s.die (8 * (p - 32) + s.num (R.MC_DIE_SEL (p - 32)) % 8)).sts.toNat
  else if 32 ≤ p ∧ p ≤ 71 ∧ x = 0x114 then some (s.dieTrn (8 * (p - 32) + s.num (R.MC_DIE_SEL (p - 32)) % 8))
  else if 72 ≤ p ∧ p ≤ 99 ∧ x = 0x10C then some (min 65535 ((s.leasesOf p).length + (s.held p).length))
  else if p = 109 ∧ x = 0x604 then some (s.slotInfo (s.num R.CE_SLOT_SEL % 8192))
  else if p = 109 ∧ 0x608 ≤ x ∧ x ≤ 0x614 then some (s.slotLbl (s.num R.CE_SLOT_SEL % 8192) ((x - 0x608) / 4))
  else none

/-- The value of a register (R11): computed or stored; pages 110 and above read 0 (R579). -/
def State.reg (s : State) (o : Nat) : Word :=
  if 110 * 0x1000 ≤ o then 0
  else match s.computed (o / 0x1000) (o % 0x1000) with
    | some v => BitVec.ofNat 32 v
    | none => s.rd o

end Sys2Proof.Machine
end

