-- ==== Sys2Proof/Machine/Operands.lean ====
section
/-! DEFINITION. Register accesses as operands of commands: which access path reaches which register (12_host_ports.md R374;
18_queues_counters_test.md R522; 21_register_pages.md R586, R590), reads with the capture of wide values (00_scope.md R16), and the
write of a register under its access code, its page's lock, and the ranges and orders of its table (00_scope.md R12–R14;
21_register_pages.md R579, R584). -/

set_option autoImplicit false

namespace Sys2Proof.Machine

/-! ### Reads -/

/-- Page of a window offset. -/
def pageOf (o : Nat) : Nat := o / 0x1000

/-- Out-of-band subset for reading (Table 21.8): block-specific offsets of a page. -/
def State.oobReads (s : State) (p x : Nat) : Bool :=
  if p = 0 ∨ p = 1 ∨ p = 109 ∨ (2 ≤ p ∧ p ≤ 5) then true
  else if p = 7 then [0x100, 0x104, 0x108, 0x10C].contains x
  else if p = 8 then [0x204, 0x208, 0x20C, 0x304, 0x330, 0x358].contains x
  else if p = 9 then [0x104, 0x108, 0x10C, 0x118, 0x11C].contains x
  else if p = 11 then [R.CAR_STS % 0x1000, R.CAR_RG_STS % 0x1000, R.CAR_RSYNC % 0x1000, R.CAR_PAIR_GEN % 0x1000].contains x
  else if p = 31 then x == 0x104 || x == 0x108 || (decide (0x400 ≤ x) && decide (x ≤ 0x42C))
  else decide (100 ≤ p) && decide (p ≤ 107) && s.get (F.MQ_CFG.PATH (p - 100)) == 1

/-- Pages of the out-of-band subset, whose common layout may be read too (R590). -/
def State.oobPage (s : State) (p : Nat) : Bool :=
  (decide (p ≤ 5) || p == 7 || p == 8 || p == 9 || p == 11 || p == 31 || p == 109) ||
    (decide (100 ≤ p) && decide (p ≤ 107) && s.get (F.MQ_CFG.PATH (p - 100)) == 1)

/-- The path reads the register: a manager port every page, another port page 0 and its own, the out-of-band target its subset, of
the core domain only while that is in service (R374, R590). -/
def State.readable (s : State) (path : Path) (o : Nat) : Bool :=
  let p := pageOf o
  match path with
  | .port n => s.isManager path || p == 0 || p == 12 + n.val
  | .oob => s.dom.aon && (aonPage p || s.coreUp) && s.oobPage p && (decide (o % 0x1000 < 0x100) || s.oobReads p (o % 0x1000))

/-- Offsets 0x120–0x138 of a queue page act only through the queue's path (R522). -/
def queueReg (o : Nat) : Bool :=
  decide (100 ≤ pageOf o) && decide (pageOf o ≤ 107) && decide (0x120 ≤ o % 0x1000) && decide (o % 0x1000 ≤ 0x138)

/-- The value that a path reads without side effect; where it may not read, 0. -/
def State.readValue (s : State) (path : Path) (o : Nat) : Word :=
  if !s.readable path o then 0
  else if queueReg o && (s.mqPath (pageOf o - 100) path).isNone then 0 else s.reg o

/-- A _LO register whose value goes on in the register after it (R16). -/
def wideLo (o : Nat) : Bool :=
  let p := pageOf o
  let x := o % 0x1000
  if 110 ≤ p then false
  else if x = 0x40 ∨ (0x80 ≤ x ∧ x < 0xC0 ∧ x % 8 = 0) then true
  else if p = 0 then x == 0x108 else if p = 1 then x == 0x10C else if p = 2 then x == 0x130 || x == 0x218
  else if p = 7 then x == 0x120 || x == 0x128 else if p = 8 then x == 0x208 || x == 0x210 || x == 0x218
  else if p = 9 then x == 0x108 || x == 0x110 || x == 0x118 else if p = 10 then x == 0x150 else if p = 11 then x == 0x128
  else if 12 ≤ p ∧ p ≤ 19 then x == 0x110 || x == 0x118 else if p = 108 then x == 0x118
  else p == 109 && decide (0x414 ≤ x) && decide (x ≤ 0x414 + 15 * 0x20) && (x - 0x414) % 0x20 == 0

/-- A read of a lane's counts while the lane is in sync finds a value that is open (R537). -/
def State.laneOpen (s : State) (o : Nat) : Bool :=
  (o == R.TST_PAT_BITS_LO || o == R.TST_PAT_BITS_LO + 4 || o == R.TST_PAT_ERR) &&
    (match s.laneSel with | some n => (s.lane n).run && (s.lane n).sync | none => false)

/-- A read of a _LO register: its value, and the upper bits captured for the path (R16). -/
def State.readLo (s : State) (path : Path) (o : Nat) : Word × State :=
  let cap := fun (s : State) (hi : Word) =>
    { s with boot.caps := (s.boot.caps.filter (fun (c : Path × Nat × Word) => !(c.1 == path && c.2.1 == o + 4))) ++ [(path, o + 4, hi)] }
  if s.readable path o && s.laneOpen o then (BitVec.ofNat 32 (s.free 32), cap s.drawn.drawn (BitVec.ofNat 32 (s.drawn.free 16)))
  else (s.readValue path o, cap s (s.readValue path (o + 4)))

/-- A read of any register by a path: a captured upper half is returned once. -/
def State.readAny (s : State) (path : Path) (o : Nat) : Word × State :=
  if wideLo o then s.readLo path o
  else match s.boot.caps.find? (fun (c : Path × Nat × Word) => c.1 == path && c.2.1 == o) with
    | some c => (c.2.2, { s with boot.caps := s.boot.caps.filter (fun (x : Path × Nat × Word) => !(x.1 == path && x.2.1 == o)) })
    | none => if s.readable path o && s.laneOpen o then (BitVec.ofNat 32 (s.free 32), s.drawn) else (s.readValue path o, s)

/-! ### Writes -/

/-- Registers of every page that only the manager port writes: PG_CTL, FLT_MASK, FLT_FORCE, PC_SEL and PC_WIN_CTL (R499, R532, R583). -/
def managerOnly (o : Nat) : Bool :=
  let x := o % 0x1000
  x == 0x10 || x == 0x24 || x == 0x28 || (decide (0x48 ≤ x) && decide (x ≤ 0x64)) || x == 0xC0

/-- The path's write of the register takes effect: the manager port's; the out-of-band target's in pages 0 and 2–5 and in its queues. -/
def State.writable (s : State) (path : Path) (o : Nat) : Bool :=
  let p := pageOf o
  (aonPage p || s.coreUp) &&
  (match path with
    | .port _ => s.isManager path && !(p == 0 && !s.dom.aon)
    | .oob => s.dom.aon && !managerOnly o &&
        (aonPage p || (decide (100 ≤ p) && decide (p ≤ 107) && s.get (F.MQ_CFG.PATH (p - 100)) == 1)))

/-- The row of the register table that covers a window offset. -/
def defAt (o : Nat) : Option RegDef :=
  let p := pageOf o
  let x := o % 0x1000
  regDefs.find? (fun d => decide (d.page ≤ p) && decide (p < d.page + d.pages) && decide (d.off ≤ x) &&
    decide (x < d.off + d.count * d.stride) && (x - d.off) % d.stride == 0)

/-- The orders that some pages keep among their fields; a write that would break one stores the value nearest to it (R232, R289, R426,
R465). DESIGN CHOICE: a TE_JRN_BATCH between two of its steps of 1,024 (R203) is stored as the lower step (notes/assumptions/59). `w` is the word to be stored at the offset. -/
def State.ordered (s : State) (o : Nat) (w : Word) : Word :=
  let v := w.toNat
  let n := s.num
  if o = R.TE_JRN_BATCH then BitVec.ofNat 32 (v / 1024 * 1024)
  else if o = R.TE_GC_URGENT then BitVec.ofNat 32 (near 0 (n R.TE_GC_START - 1) v)
  else if o = R.TE_GC_START then BitVec.ofNat 32 (near (n R.TE_GC_URGENT + 1) (n R.TE_GC_STOP - 1) v)
  else if o = R.TE_GC_STOP then BitVec.ofNat 32 (max (n R.TE_GC_START + 1) v)
  else if o = R.TE_SPARE_LOW then BitVec.ofNat 32 (max (n R.TE_SPARE_CRIT + 1) v)
  else if o = R.TE_SPARE_CRIT then BitVec.ofNat 32 (min (n R.TE_SPARE_LOW - 1) v)
  else if o = R.SIR_REFRESH_B 0 then BitVec.ofNat 32 (max (n (R.SIR_REFRESH_B 1)) v)
  else if o = R.SIR_REFRESH_B 1 then BitVec.ofNat 32 (near (n (R.SIR_REFRESH_B 2)) (n (R.SIR_REFRESH_B 0)) v)
  else if o = R.SIR_REFRESH_B 2 then BitVec.ofNat 32 (near (n (R.SIR_REFRESH_B 3)) (n (R.SIR_REFRESH_B 1)) v)
  else if o = R.SIR_REFRESH_B 3 then BitVec.ofNat 32 (min (n (R.SIR_REFRESH_B 2)) v)
  else if o = R.SIR_AGE_BND 0 then BitVec.ofNat 32 (min (n (R.SIR_AGE_BND 1) - 1) v)
  else if o = R.SIR_AGE_BND 1 then BitVec.ofNat 32 (near (n (R.SIR_AGE_BND 0) + 1) (n (R.SIR_AGE_BND 2) - 1) v)
  else if o = R.SIR_AGE_BND 2 then BitVec.ofNat 32 (near (n (R.SIR_AGE_BND 1) + 1) (n (R.SIR_AGE_BND 3) - 1) v)
  else if o = R.SIR_AGE_BND 3 then BitVec.ofNat 32 (max (n (R.SIR_AGE_BND 2) + 1) v)
  else if o = R.PSQ_IN_CFG then fldPut ⟨0, 8, 6⟩ w (max (v % 64 + 4) (v / 256 % 64))
  else if o = R.HK_TRIP then BitVec.ofNat 32 (max (n R.HK_THR / 65536 % 256 + 2) v)
  else if o = R.HK_THR then
    let l3 := near 89 (n R.HK_TRIP - 2) (v / 65536 % 256)
    let l2 := near 87 (l3 - 2) (v / 256 % 256)
    BitVec.ofNat 32 (near 85 (l2 - 2) (v % 256) + 256 * l2 + 65536 * l3)
  else w

/-- Bits of a register that a command of their own writes: LC_CTL.EN (LC_EN_SET, LC_EN_CLEAR), HP_BW_WIN, TST_PHY_CTL and the data
window of PST. -/
def ownBits (o : Nat) : Word :=
  if o = R.LC_CTL then 1
  else if (12 ≤ pageOf o ∧ pageOf o ≤ 19 ∧ o % 0x1000 = 0x10C) ∨ o = R.TST_PHY_CTL ∨
    (pageOf o = 4 ∧ 0x400 ≤ o % 0x1000 ∧ o % 0x1000 ≤ 0x4FC) then 0xFFFFFFFF
  else 0

/-- The word that a write leaves in a register (R12): RW bits, RWL bits unless the page is locked, 1 bits of W1C fields cleared; then
the ranges and the orders. -/
def State.stored (s : State) (d : RegDef) (o : Nat) (v : Word) : Word :=
  let old := s.rd o
  let m := (d.rw ||| (if s.locked (pageOf o) then 0 else d.rwl)) &&& ~~~(ownBits o)
  let w := (old &&& ~~~m) ||| (v &&& m)
  let w := if m = 0 then w else s.ordered o (clampWord d.clamps w)
  w &&& ~~~(v &&& d.w1c)

/-- A write of MG_REF_VAL: an entry of a default table, with DEF = 1 and sets 0–6, unless the page is locked. -/
def State.refWrite (s : State) (g : Nat) (v : Word) : State :=
  let x := s.num (R.MG_REF_SEL g)
  if s.locked (26 + g) || decide (x / 2048 % 2 = 0) || decide (x / 256 % 8 = 7) then s
  else { s with sir.refDef := sset 0 s.sir.refDef ((g * 4 + x / 64 % 4) * 8 + x / 256 % 8) (v.setWidth 24) }

/-- A write of MAPC_CTL.EN = 1 waits for an invalidation or a checker test (R162, R270); its change to 0 is a command of its own. -/
def State.mapcEnWrite (s : State) (v : Word) : State :=
  if !v.getLsbD 0 || s.bit F.MAPC_CTL.EN then s
  else if s.bit F.MAPC_STS.INV_BUSY || (s.bit F.SIR_CHK_STS.ACTIVE && decide (s.get F.SIR_CHK_CTL.ARRAY ≤ 3)) then
    { s with lc.mapcEnWait := true }
  else s.setBit F.MAPC_CTL.EN true

/-- A write of PC_WIN_CTL whose own access wraps the counters of `w` leaves their OVF bits set (R14). -/
def State.keepOwn (s : State) (o w : Nat) : State := if o % 0x1000 = 0xC0 then s.keepWraps (pageOf o) w else s

/-- A write of one of the LC_RANGE_ base, length and control registers while BUSY is ignored; START then, and START with OP 6 or 7,
answers an error (R151). START with an operation of Table 5.3 is a command of its own. -/
def State.rangeWrite (s : State) (o : Nat) (v w : Word) : State :=
  let start := o == R.LC_RANGE_CTL && v.getLsbD 5
  if s.bit F.LC_RANGE_STS.BUSY then s.when start (fun s => s.set F.LC_RANGE_STS.ERR 1)
  else (s.wr o w).when (start && decide (6 ≤ v.toNat % 8)) (fun s => s.set F.LC_RANGE_STS.ERR 2)

/-- The write of a register by a path that may write it: what its access codes store, and what follows at once. -/
def State.regWrite (s : State) (path : Path) (o : Nat) (v : Word) : State :=
  let p := pageOf o
  let x := o % 0x1000
  if !s.writable path o then s
  else if x = 0xC0 then s.winWrite p v
  else if 26 ≤ p ∧ p ≤ 30 ∧ x = 0x22C then s.refWrite (p - 26) v
  else if o = R.MAPC_CTL then s.mapcEnWrite v
  else if o = R.TST_PAT_CTL then
    match s.laneSel with
    | some n => (s.laneMod n (fun l => { l with ctl := v.toNat % 2048 + (if v.getLsbD 14 then 2 ^ 14 else 0) })).laneShow
    | none => s
  else if 100 ≤ p ∧ p ≤ 107 ∧ x = 0x104 ∧ (s.mqPath (p - 100) path).isNone then s
  else match defAt o with
    | none => s
    | some d =>
      let s := if R.LC_RANGE_BASE_LO ≤ o ∧ o ≤ R.LC_RANGE_CTL then s.rangeWrite o v (s.stored d o v) else s.wr o (s.stored d o v)
      let s := s.when (o == R.TST_LANE_SEL) State.laneShow
      let s := s.when (o == R.SIR_CTL) State.sirEnables
      let s := s.when (o == R.PSQ_MARG_CTL) State.margShow
      let s := s.when (p == 9) (fun s => (if s.bit F.TS_CTL.HOLD_EN then s.showBudget else s.showBudget.letAll).pump)
      s.when (decide (100 ≤ p) && decide (p ≤ 107)) State.alertShow

end Sys2Proof.Machine
end

