-- ==== Sys2Proof/Machine/Thermal.lean ====
section
/-! DEFINITION. The commands of the monitors (15_thermal_and_monitors.md), with the rail windows of 14_power_and_cistern.md R428. -/

set_option autoImplicit false

namespace Sys2Proof.Machine

/-- A 125 °C removal (R461): every RAIL_EN goes at once, a drain is abandoned, DOWN is not run. -/
def State.hotRemoval (s : State) (n : Nat) : State :=
  let s := s.psq.on.foldl (fun s e => s.railEn (s.entEn e) false) s
  let s := ((s.setBit F.HK_STS.HOT_OFF true).bump R.HK_TRIP_CNT).pstAdd (.counterInc 4)
  let s := (s.rollSnap 0x0202 3 n (s.hkCode n) 0).coreOff
  let s := { s with
    psq.on := [], psq.good := 0, psq.step := 0, psq.offReq := false, psq.thermLim := false, psq.contLim := false, te.drainMode := false
    psq.afterDrain := true }
  (if s.phase = Ph.lockout then s else s.setPhase Ph.minOff).restartHold

/-- The sensors that meet the trip condition (R460). -/
def State.tripSensors (s : State) : List Nat := s.sensorsLive.filter (fun n => decide (tempCode (s.num R.HK_TRIP % 256) ≤ s.hkCode n))

/-- The thermal trip by phase (Table 15.5). DEDUCED: a power-up that waits in DISCH_WAIT returns to OFF, where R462 holds it
(notes/assumptions/61). -/
def State.trip (s : State) : State :=
  let l := s.tripSensors
  let a := l.getD 0 0
  let b := l.getD 1 0
  let s := ((s.setBit F.HK_STS.TRIP true).bump R.HK_TRIP_CNT).pstAdd (.counterInc 4)
  let s := s.rollSnap 0x0201 3 (a + b * 256) (s.hkCode a + s.hkCode b * 4096) 0
  let s := if s.phase = Ph.on ∨ s.phase = Ph.shutdown then { s.drainStart 2 with psq.thermLim := true }
    else if s.phase = Ph.drain then { s with psq.thermLim := true, psq.toDown := true }
    else if s.phase = Ph.up then
      (if s.psq.offReq then s else s.setBit F.PSQ_STS.ON_KEPT true).startDown
    else if s.phase = Ph.dischWait then s.setPhase Ph.off
    else s
  { s with psq.afterDrain := true }.restartHold

/-- The trip and the removal at a reading of an on-die sensor: each takes place at the reading at which its condition begins. -/
def State.tripCheck (s : State) (n : Nat) : State :=
  let hot := s.sensorsLive.any (fun k => decide (0xBD0 ≤ s.hkCode k))
  let s := if hot && !s.hk.hotOn then { s with hk.hotOn := true }.hotRemoval n else { s with hk.hotOn := hot }
  let on := decide (2 ≤ s.tripSensors.length) || decide (s.sensLeft < 2)
  if on && !s.hk.tripOn then { s with hk.tripOn := true }.trip else { s with hk.tripOn := on }

/-- Room of a supervision window: twice the centre and the half width in units of 0.5 % of 1 mV (R428). -/
def State.railWindow (s : State) (e : Nat) : Nat × Nat :=
  let m := match s.psq.marg.find? (fun (x : Nat × Int) => x.1 == e) with | some x => x.2 | none => 0
  if s.entVcore e then
    let v := s.get F.PSQ_VCORE.VCORE
    (200 * v, v * s.entWin e)
  else (((s.entNom e : Int) * (200 + m)).toNat, s.entNom e * s.entWin e)

/-- A rail sense is read (R428): outside its window in two consecutive rounds it is a rail fault. -/
def State.railSense (s : State) (k : Nat) : State :=
  if decide (2 ≤ s.phase) && decide (s.phase ≤ 4) then
    match s.psq.on.find? (fun e => s.entVsnsUse e && s.entVsns e == k) with
    | none => s
    | some e =>
      let w := s.railWindow e
      let v := s.senseScaled e * 200
      let out := decide (v < (w.1 - w.2) * 4096000) || decide ((w.1 + w.2) * 4096000 < v)
      let n := if out then sget 0 s.psq.outs e + 1 else 0
      let s := { s with psq.outs := sset 0 s.psq.outs e n }
      if n = 2 then s.railFault e else s
  else s

/-- The round ends with channel 63 (R453). -/
def State.roundEnd (s : State) : State :=
  let s := s.bump R.HK_ROUND_CNT
  let s := { s with
    hk.last := (List.range 64).map s.hkCode, hk.rounds := s.hk.rounds + 1
    hk.cool := if s.hk.coolNow then s.hk.cool + 1 else 0, hk.coolNow := true }
  s.condsRound

/-- A conversion ends, and every rule that uses its channel is evaluated (R453). `raw` is the code that the converter gives; a thermistor's is
converted (R452), and channels 56–63 copy the speed monitors (R37). -/
def execHousekeepingReading (ch : Fin 64) (raw : BitVec 12) (s : State) : Out :=
  if !s.dom.aon then .next s
  else
    let n := ch.val
    let s := s.pcItem 3
    let c := s.hkConvert n raw.toNat
    let s := ((s.set (F.HK_CH.CODE n) c).setBit (F.HK_CH.VALID n) true).set (F.HK_CH.ROUND n) (s.num R.HK_ROUND_CNT)
    let s := s.crossCheck n raw.toNat
    let s := if n < 16 then
        let s := { s with hk.past := sset [] s.hk.past n ((c :: s.pastOf n).take 129) }
        let s := { s with hk.coolNow := s.hk.coolNow && (!s.hkLive n || decide (c < 0x9A0)) }
        (((s.hotShow).rorShow).condsNow).tripCheck n
      else if n < 24 then
        let s := { s with hk.coolNow := s.hk.coolNow && (!s.zoneUsed (n - 16) || !s.hkLive n || decide (c < 0x9A0)) }
        let s := if s.zoneUsed (n - 16) && s.hkLive n then s.setBand (n - 16) (nextBand (s.band (n - 16)) c) else s
        s.hotShow.condsNow
      else if n < 56 then s.railSense (n - 24)
      else s
    .next (if n = 63 then s.roundEnd else s)

/-- 125 rounds below THERM_LVL since the last fall: one level down (R458). -/
def execThrottleLevelFall (s : State) : Out :=
  let lvl := s.get F.HK_STS.THERM_LVL
  if 125 < s.hk.below ∧ s.thermWant < lvl then
    .next { s.setTherm (lvl - 1) with hk.below := if s.thermWant < lvl - 1 then 1 else 0 }
  else .next s

/-- After 4 rounds the rate check is armed (R459): the next average is A_0. -/
def execRorArm (s : State) : Out :=
  if 4 ≤ s.hk.rounds ∧ !s.bit F.HK_STS.ARMED then
    .next { s.setBit F.HK_STS.ARMED true with hk.past := s.hk.past.map (fun (x : Nat × List Nat) => (x.1, x.2.take 3)) }
  else .next s

/-- The restart held after a trip or a removal is released (R462). -/
def execRestartHoldRelease (s : State) : Out :=
  if s.bit F.HK_STS.RST_WAIT && s.phase == Ph.off && decide (3750 ≤ s.hk.cool) && decide (2 ≤ s.sensLeft) &&
      s.bit F.PSQ_STS.IN_GOOD && s.bit F.PSQ_STS.MOD_EN && (!s.psq.offSince || s.bit F.PSQ_STS.ON_KEPT) then
    .next s.powerUp
  else .next s

/-- HK_READMIT (R456). -/
def execHkReadmit (path : Path) (v : Word) (s : State) : Out :=
  let s := s.regAcc 3
  .next (if s.mgrOrOob path then
    let s := (List.range 24).foldl (fun s n =>
      if v.getLsbD n && s.bit (F.HK_CH.EXCL n) then
        { (s.setBit (F.HK_CH.EXCL n) false).setBit ⟨R.HK_EXCL, n, 1⟩ false with hk.odd := serase s.hk.odd n }
      else s) s
    (s.setBit F.HK_STS.FEW_SENS (s.bit F.HK_STS.FEW_SENS && decide (s.sensLeft < 12))).hotShow
  else s)

/-- HK_CNT_CLR (Table 15.8). -/
def execHkCntClr (path : Path) (v : Word) (s : State) : Out :=
  let s := s.regAcc 3
  .next (s.when (s.mgrOrOob path && v.getLsbD 0) (fun s => s.zero [R.HK_THROT_CNT, R.HK_EXCL_CNT, R.HK_TRIP_CNT]))

/-- Add one to the bin of a zone's latest reading (R457). -/
def State.histAdd (s : State) (zone : Nat) (ch : Option Nat) : State :=
  match ch with
  | none => s
  | some n => { s with hk.hist := smod 0 s.hk.hist (16 * zone + histBin (s.hkCode n)) (fun k => k + 1) }

/-- An operating second ends (R457, R480): a second with RAILS_UP. -/
def execOperatingSecond (s : State) : Out :=
  if !s.bit F.PSQ_STS.RAILS_UP then .next s
  else
    let s := s.histAdd 0 (s.hottest s.sensorsLive)
    let s := (List.range 8).foldl (fun s z => s.histAdd (z + 1) (if s.zoneUsed z && s.hkLive (16 + z) then some (16 + z) else none)) s
    let s := if s.opSecs + 1 ≥ 360 then ({ s with opSecs := 0 }.pstAdd (.counterInc 1)) else { s with opSecs := s.opSecs + 1 }
    let s := if s.coreUp then
        let s := { s with hk.coreSecs := s.hk.coreSecs + 1 }
        s.when (s.hk.coreSecs % 600 == 0) State.lastAlive
      else s
    let s := { s with hk.histSecs := s.hk.histSecs + 1 }
    .next ((if 3600 ≤ s.hk.histSecs then s.histSave else s).rst24)

end Sys2Proof.Machine
end

