-- ==== Sys2Proof/Machine/Regs.lean ====
section
/-! DEFINITION. The commands of the register window and of the out-of-band target (21_register_pages.md; 00_scope.md R12, R16). -/

set_option autoImplicit false

namespace Sys2Proof.Machine

/-! ### Soft resets (R583, Table 21.5) -/

/-- Performance counters of a page at their reset values. -/
def State.pcReset (s : State) (p : Nat) : State :=
  s.zero (regRange (R.PC_SEL p 0) 8 ++ regRange (R.PC_CNT p 0) 16 ++ [R.PC_WIN_CTL p])

/-- Block-specific registers of a page at their reset values, but for RWL fields, lock registers and the offsets kept; and its
performance counters (R583). -/
def State.softRegs (s : State) (p : Nat) (keep : List Nat) : State :=
  let offs := (regDefs.filter (fun d => decide (d.page ≤ p) && decide (p < d.page + d.pages) && decide (0x100 ≤ d.off))).flatMap
    (fun d => (List.range d.count).map (fun k => (p * 0x1000 + d.off + k * d.stride, d.rwl)))
  let s := offs.foldl (fun s (x : Nat × Word) =>
    if keep.contains x.1 || lockOff p == some (x.1 % 0x1000) then s
    else s.wr x.1 ((s.rd x.1 &&& x.2) ||| (sget 0 resetRegs x.1 &&& ~~~x.2))) s
  s.pcReset p

/-- The line cache under PG_CTL.SOFT_RST (R154, R163, Table 5.7): as under DEV_RST_N, with its dirty lines charged as they are. -/
def State.softLc (s : State) : State :=
  let ops := s.lc.walker.toList ++ s.lc.walkQ
  let ranges := ops.filter (fun (o : WalkOp) => match o.kind with | .range _ _ => true | _ => false)
  let dropped := ops.filterMap (fun (o : WalkOp) => match o.kind with | .discard id => some id | _ => none)
  let s := ranges.foldl State.walkAbandon s
  let ports := (s.te.discards.filter (fun (d : Discard) => dropped.contains d.id)).filterMap
    (fun (d : Discard) => match d.dst with | .bg p => some p | _ => none)
  let s := { s with te.discards := s.te.discards.filter (fun (d : Discard) => !dropped.contains d.id), hp.bg := s.hp.bg.filter (fun p => !ports.contains p) }
  let again := s.bit F.LC_STS.STALE_REENABLED
  let unch := s.lc.keptUncharged
  let clear := s.bit F.LC_CTL.INV_ON_RST
  let charged := if unch then 0 else s.lcCounted
  let s := s.lcReset true
  let stale := s.bit F.LC_STS.STALE_HELD
  let s := if clear then s.release charged else { s with lc.keptUncharged := unch }
  let s := s.softRegs 7 [R.LC_CTL, R.LC_LOCK_WAYS, R.LC_LOCK_MAX, R.LC_RST_LOST]
  let s := ((s.setBit F.LC_CTL.SAFE_DISABLE false).setBit F.LC_STS.STALE_HELD stale).setBit F.LC_STS.STALE_REENABLED again
  (((s.setBit F.LC_STS.KEPT (!clear)).setBit F.LC_STS.CHECK_BUSY true).mapcInvStart).pump

/-- The map cache under PG_CTL.SOFT_RST of page 8: its registers and the invalidation of R162; the translation engine is untouched. -/
def State.softMapc (s : State) : State :=
  let s := { s.zero [R.MAPC_HIT, R.MAPC_MISS, R.MAPC_CE_CNT, R.MAPC_UE_CNT] with lc.mapcEnWait := false }
  (((s.wr R.MAPC_CTL 1).wrN R.MAPC_STS 0).pcReset 8).mapcInvStart

/-- The Sirocco engine in its initial state. -/
def State.softSir (s : State) : State :=
  { s.softRegs 10 [] with
    sir.scrub := { s.sir.scrub with on := false }, sir.scrubTodo := [], sir.sram := { s.sir.sram with on := false }, sir.swept := [], sir.refresh := [],
    sir.trkLag := [] }

/-- What the soft reset of a page does where it is accepted (Table 21.5). -/
def State.softReset (s : State) (p : Nat) : State :=
  if p = 7 then s.softLc
  else if p = 8 then s.softMapc
  else if p = 11 then
    if s.bit F.CAR_STS.PAIRED then s
    else (s.drawn.linkLoss (s.free 3)).softRegs 11 [R.CAR_STS, R.CAR_RG_STS, R.CAR_BMAP_LO, R.CAR_BMAP_HI, R.CAR_RSYNC, R.CAR_PAIR_GEN]
  else if h : 12 ≤ p ∧ p ≤ 19 then
    let n : Fin 8 := ⟨p - 12, by omega⟩
    if s.hp.perst.contains (p - 12) then thenState (execPerstNAssert n s) s
    else
      let s := thenState (execPerstNAssert n s) s
      thenState (execPerstNRelease n s) s
  else if p = 10 then if s.fencedSrc 10 then s.softSir else s
  else if 72 ≤ p ∧ p ≤ 95 then if s.fencedSrc p then s.softRegs p [R.CORE_STS (p - 72)] else s
  else if 100 ≤ p ∧ p ≤ 107 then
    if s.fencedSrc p then ({ s with mq := serase s.mq (p - 100) }.softRegs p []).alertShow else s
  else if p = 108 then
    if s.fencedSrc 108 then
      let s := (List.range 5).foldl State.releasePhy s.testStop
      { s.softRegs 108 [] with tst.lanes := [] }
    else s
  else if 26 ≤ p ∧ p ≤ 30 then
    if s.fencedSrc (115 + (p - 26)) then s.zero (regRange (R.MG_OBP_STRIPES (p - 26)) 5) else s
  else s

/-- SOFT_RST reaches the page: it has a reset of its own, and where only a fenced block takes one, the block is fenced (R581). -/
def State.softReaches (s : State) (p : Nat) : Bool :=
  p == 7 || p == 8 || (p == 11 && !s.bit F.CAR_STS.PAIRED) ||
    ((p == 10 || (decide (72 ≤ p) && decide (p ≤ 95)) || (decide (100 ≤ p) && decide (p ≤ 108))) && s.fencedSrc p) ||
    (decide (26 ≤ p) && decide (p ≤ 30) && s.fencedSrc (115 + (p - 26)))

/-- PG_CTL.SOFT_RST through the manager port, or by the lead Proctor (no path) as the second step of R507. -/
def execSoftRst (page : Fin 110) (path : Option Path) (s : State) : Out :=
  let allowed := match path with | some q => s.isManager q | none => s.proctors
  .next (if s.coreUp && allowed then (s.softReset page).when (s.softReaches page) (fun s => s.wireEnd page) else s)

/-! ### Locks -/

/-- A write of 1 to a page's lock register (R584). -/
def execLockSet (page : Fin 110) (path : Path) (s : State) : Out :=
  let s := s.regAcc page
  .next (match lockOff page with
    | some o => if s.writable path (page * 0x1000 + o) then s.lockPage page else s
    | none => s)

/-- DEV_LOCK_ALL (R585). -/
def execDevLockAll (path : Path) (s : State) : Out :=
  let s := s.regAcc 0
  .next (s.when (s.writable path R.DEV_LOCK_ALL) State.lockAll)

/-- A write of CORE_CNT_CLR (Table 21.7). -/
def execCoreCntClr (core : Fin 28) (path : Path) (v : Word) (s : State) : Out :=
  let s := s.regAcc (72 + core)
  .next (s.when (s.isManager path && v.getLsbD 0) (fun s => s.zero [R.CORE_CE_CNT core, R.CORE_UE_CNT core]))

/-! ### Register accesses without a command of their own -/

/-- A write to a register without a row of its own (R12–R14, R374, R579): all four bytes must be enabled. -/
def execRegisterWrite (path : Path) (off : BitVec 24) (v : Word) (be : BitVec 4) (s : State) : Out :=
  let o := off.toNat
  let p := pageOf o
  let t := s.regAcc p
  .next (if be = 15 ∧ o % 4 = 0 then (t.regWrite path o v).keepOwn o (s.wrapsOf p) else t)

/-- A read that a command of its own carries: the pop registers of a queue (R525), the data window of the store and the record window
of the Roll book (R475, R489). -/
def ownRead (o : Nat) : Bool :=
  let p := pageOf o
  let x := o % 0x1000
  (decide (100 ≤ p) && decide (p ≤ 107) && (x == 0x130 || x == 0x134)) || (p == 4 && decide (0x400 ≤ x) && decide (x < 0x500)) ||
    (p == 5 && decide (0x200 ≤ x) && decide (x < 0x220))

/-- A read of a split value through an access path (R16): a _LO register captures the upper bits for the path, the _HI register after it
returns them once and the live bits otherwise; any other register without a read of its own answers with its value. -/
def execSplitValueLoRead (path : Path) (off : BitVec 24) (s : State) : Out :=
  let s := s.regAcc (pageOf off.toNat)
  let o := off.toNat
  if o % 4 = 0 ∧ !ownRead o then
    let r := s.readAny path o
    .next (r.2.emit (.regRead path o r.1))
  else .next s

/-! ### The out-of-band target (R589–R591) -/

/-- A word of an out-of-band read: the queues' pop registers act (R525), the store's windows answer as R475 says. -/
def State.oobWord (s : State) (o : Nat) : State :=
  let p := pageOf o
  let x := o % 0x1000
  let plain := let r := s.readAny .oob o; r.2.emit (.regRead .oob o r.1)
  if h : 100 ≤ p ∧ p ≤ 107 ∧ x = 0x130 then thenState (execMqPopLo ⟨p - 100, by omega⟩ .oob s) s
  else if h : 100 ≤ p ∧ p ≤ 107 ∧ x = 0x134 then thenState (execMqPopHi ⟨p - 100, by omega⟩ .oob false s) s
  else if h : p = 4 ∧ 0x400 ≤ x ∧ x < 0x500 then thenState (execPstWinRead .oob ⟨(x - 0x400) / 4, by omega⟩ s) s
  else if h : p = 5 ∧ 0x200 ≤ x ∧ x < 0x220 then thenState (execRbRecRead .oob ⟨(x - 0x200) / 4, by omega⟩ s) s
  else plain

/-- A read meets a row of PST with a program or erase in progress (R475). -/
def State.oobWaits (s : State) (o : Nat) : Bool :=
  let x := o % 0x1000
  (pageOf o == 4 && decide (0x400 ≤ x) && decide (x < 0x500) && s.pstBusyRow == some (s.num R.PST_ROW)) ||
    (pageOf o == 5 && decide (0x200 ≤ x) && decide (x < 0x220) && s.pstBusyRow == some (s.num R.RB_SEL / 8))

/-- An out-of-band read of n words, up to 256 bytes (R589): words beyond the page read 0; an unaligned offset is NACKed; a failed PEC
discards an SMBus transaction; in I3C mode a read that must wait is NACKed, in SMBus mode its answer comes when the row is free. -/
def execOobRead (off : BitVec 24) (n : Fin 65) (pec : Bool) (s : State) : Out :=
  let o := off.toNat
  if !s.dom.aon || (!s.boot.i3c && !pec) then .next s
  else if o % 4 ≠ 0 then .next (s.emit (.other 104 [o]))
  else
    let offs := (List.range n.val).map (fun k => o + 4 * k)
    if s.boot.i3c && offs.any (fun a => pageOf a == pageOf o && s.oobWaits a) then .next (s.emit (.other 104 [o]))
    else .next (offs.foldl (fun (s : State) a =>
      if pageOf a = pageOf o then { ({ s.regAcc (pageOf a) with tst.quiet := true }.oobWord a) with tst.quiet := false }
      else s.emit (.regRead .oob a 0)) s)

/-- What an out-of-band write does beside storing fields: the commands that its register carries. -/
def State.oobAct (s : State) (o : Nat) (v : Word) : State :=
  let p := pageOf o
  let x := o % 0x1000
  let n := v.toNat
  let bit := fun (k : Nat) => v.getLsbD k
  let go := fun (s : State) (c : Bool) (f : State → Out) => if c then thenState (f s) s else s
  if o = R.DEV_LOCK_ALL then go s (bit 0) (execDevLockAll .oob)
  else if h : p < 110 ∧ lockOff p = some x then go s (bit 0) (execLockSet ⟨p, h.1⟩ .oob)
  else if o = R.PSQ_CTL then go (go (go s (bit 0) (execPsqOn .oob)) (bit 1) (execPsqOff .oob)) (bit 2) (execPsqClrLock .oob)
  else if o = R.PSQ_MARG_CTL then
    go (go s (bit 12) (execMarginApply .oob ⟨n % 16, by omega⟩ (BitVec.ofNat 8 (n / 16)) ⟨n / 65536 % 4, by omega⟩)) (bit 13) (execMarginStop .oob)
  else if o = R.PSQ_CNT_CLR then go s true (execPsqCntClr .oob v)
  else if o = R.CIS_CTL then go s (bit 0) (execCisTest .oob)
  else if o = R.CIS_CNT_CLR then go s true (execCisCntClr .oob v)
  else if o = R.HK_READMIT then go s true (execHkReadmit .oob v)
  else if o = R.HK_CNT_CLR then go s true (execHkCntClr .oob v)
  else if o = R.PST_CMD then
    let num : Fin 8 := ⟨n / 16 % 8, by omega⟩
    go (go (go s (n % 4 == 1) (execPstErase .oob)) (n % 4 == 2) (execPstLoad .oob num)) (n % 4 == 3) (execPstCommit .oob num)
  else if h : p = 4 ∧ 0x400 ≤ x ∧ x < 0x500 then go s true (execPstWinWrite .oob ⟨(x - 0x400) / 4, by omega⟩ v)
  else if o = R.PST_CNT_CLR then go s true (execPstCntClr .oob v)
  else if o = R.RB_CNT_CLR then go s true (execRbCntClr .oob v)
  else if o = R.RT_LATE_CLR then go s true (execRtLateClr .oob v)
  else if h : 100 ≤ p ∧ p ≤ 107 then
    let q : Fin 8 := ⟨p - 100, by omega⟩
    if x = 0x104 then go (go (go s (bit 1) (execMqFlushDn q .oob)) (bit 2) (execMqFlushUp q .oob)) (bit 3) (execMqReset q .oob)
    else if x = 0x120 then go s true (execMqPushLo q .oob v)
    else if x = 0x124 then go s true (execMqPushHi q .oob v false)
    else if x = 0x128 then go s true (execMqPushHiEnd q .oob v false)
    else if x = 0x148 then go s true (execMqCntClr q .oob v)
    else s
  else s

/-- An out-of-band write of one register (R589, R590). -/
def execOobWrite (off : BitVec 24) (v : Word) (pec : Bool) (s : State) : Out :=
  let o := off.toNat
  if !s.dom.aon || (!s.boot.i3c && !pec) then .next s
  else if o % 4 ≠ 0 then .next (s.emit (.other 104 [o]))
  else
    let t := s.regAcc (pageOf o)
    let t := ({ t with tst.quiet := true }.regWrite .oob o v).keepOwn o (s.wrapsOf (pageOf o))
    .next { (t.oobAct o v) with tst.quiet := false }

/-- An I3C dynamic address is assigned: the target answers I3C only (R589). -/
def execI3cDynamicAddress (addr : BitVec 7) (s : State) : Out :=
  .next (if s.dom.aon && addr != 0 then { s with boot.i3c := true }.alertShow else s)

/-- RSTDAA: the target answers SMBus at its static address again. -/
def execI3cRstdaa (s : State) : Out := .next (if s.dom.aon then { s with boot.i3c := false }.alertShow else s)

/-- A read of the SMBus Alert Response Address: while ALERT_N is low the target answers with its address; ALERT_N is released once no
cause remains (R591). -/
def execAlertResponseRead (pec : Bool) (s : State) : Out :=
  .next (if s.dom.aon && !s.boot.i3c && pec && s.boot.alert then (s.emit (.other 102 [s.num R.OOB_ADDR % 128])).alertShow else s)

end Sys2Proof.Machine
end

