-- ==== Sys2Proof/Machine/Sirocco.lean ====
section
/-! DEFINITION. The commands of the Sirocco engine, the checker test mode and the codec's test (09_integrity_and_drift.md). -/

set_option autoImplicit false

namespace Sys2Proof.Machine

/-- Every zone's drift clock advances by its band's factor while the core domain is up (R273). -/
def execDriftClockSecond (s : State) : Out :=
  .next (s.when s.coreUp (fun s => (List.range 8).foldl (fun s z => s.driftAdd z (s.factor16 (s.band z))) s))

/-- 60 minutes of operating time have passed: a PST ledger entry (R274). -/
def execAgeLedgerEntry (s : State) : Out := .next s.ledgerWrite

/-- A minute has passed: a DRAM ledger entry (R274). -/
def execDramLedgerEntry (s : State) : Out := .next (s.when (s.bit F.TE_STS.MAP_READY) State.dramLedger)

/-- The block age table is recomputed (R276). -/
def execBlockAgeRecompute (s : State) : Out := .next (s.when (s.bit F.TE_STS.MAP_READY) State.agesAll)

/-- A die with a load pending is idle, loading or suspended: REF_ADJ loads its sets 0–6 (R277). -/
def execReferenceSetLoad (die : Fin 320) (s : State) : Out :=
  let d := die.val
  if s.sir.refPend.contains d && !(s.die d).failed && (!s.dieBusy d || (s.die d).suspended) then
    let k := s.band (zoneOf d)
    let s := (List.range 7).foldl (fun s n =>
      let m := s.mdie d
      let v := s.refOf d k n
      (s.setMdie d { m with refs := sset 0 m.refs n v }).emit (.media (chanOf d) Cmd.refAdj [d, n, v.toNat])) s
    .next ({ s with sir.refPend := setDel d s.sir.refPend }.refShow (groupOf d))
  else .next s

/-- One reference of a class's set moves by one step where its better candidate scores below the base set, within
SIR_TRACK_LIM of the default table (R279). DESIGN CHOICE: where both candidates
score below the base set, the lower one is taken, the step up on a tie (R279 does not say; notes/assumptions/59). -/
def State.trackRef (s : State) (d k n i base up down : Nat) : State :=
  if base ≤ up ∧ base ≤ down then s
  else
    let dir := decide (up ≤ down)
    let v := s.refOf d k n
    let v' := refMove v i dir
    let d0 := sget 0 s.sir.refStart ((groupOf d * 4 + k) * 8 + n)
    let diff := (if dir then refInt v i + 1 else refInt v i - 1) - refInt d0 i
    if diff.natAbs ≤ s.num R.SIR_TRACK_LIM % 32 ∧ -128 ≤ (refInt d0 i + diff) ∧ (refInt d0 i + diff) ≤ 127 then
      { s with sir.refined := sset none s.sir.refined ((d * 4 + k) * 8 + n) (some v') }.refChanged d
    else s

/-- A class is present among a die's verified pages (R279). -/
def State.classPresent (s : State) (d c : Nat) : Bool :=
  s.usedBlocks.any (fun k => decide (k / 2048 = d) && sget 0 s.sir.ages k == c && !(s.blk d (k % 2048)).verified.isEmpty)

/-- Lines that one class's samples take: 32 of each of its newest two verified pages, with seven sets (R279). -/
def State.trackLines (s : State) (d c : Nat) : Nat :=
  224 * min 2 ((s.usedBlocks.filter (fun k => decide (k / 2048 = d) && sget 0 s.sir.ages k == c)).foldl
    (fun n k => n + (s.blk d (k % 2048)).verified.length) 0)

/-- A tracking pass of a die: its sets are refined from sample reads (R279). Pass m starts once the deadline of the pass before it has come,
and its lag is what its end overruns its own (R287); `trkDue` holds the deadline of the latest pass. Each entry of `scores` gives a class, the
score of its base set and those of the six candidates: reference 1 up, 1 down, 2 up, 2 down, 3 up, 3 down. -/
def execReadReferenceTracking (die : Fin 320) (scores : List (Fin 5 × Nat × List Nat)) (s : State) : Out :=
  if s.fencedSrc 10 then .next s else
  let d := die.val
  let now := s.tick.toNat
  let due := sget 0 s.sir.trkDue d
  if !s.bit F.SIR_CTL.TRACK_EN || !s.sirWorks || !s.sirTurn 5 d || decide (now < due) then .next s
  else if !s.bgCan d then .next (s.sirTurnEnd d true)
  else
    let p := s.num R.SIR_TRACK_INT % 2048 * 60000 * msTicks
    let next := (if due = 0 then now else due) + p
    let s := { s with
      sir.trkDue := sset 0 s.sir.trkDue d next
      sir.trkLag := sset 0 s.sir.trkLag d ((now - next) / msTicks) }
    let s := (s.pcItem 10).setLag 5 (s.sir.trkLag.foldl (fun m (x : Nat × Nat) => max m x.2) 0)
    let k := s.band (zoneOf d)
    .next ((scores.foldl (fun s (x : Fin 5 × Nat × List Nat) =>
      if s.classPresent d x.1.val then
        let s := s.sirLines d (s.trackLines d x.1.val)
        (List.range 3).foldl (fun s i => s.trackRef d k x.1.val i x.2.1 (x.2.2.getD (2 * i) x.2.1) (x.2.2.getD (2 * i + 1) x.2.1)) s
      else s) s).sirTurnEnd d false)

/-- The set of the fewest corrected bits, the younger on a tie (R282). -/
def sweepClass (bits : List Nat) : Nat :=
  min 4 (((List.range 6).foldl (fun (b : Nat × Nat) c => if bits.getD c 0 < b.2 then (c, bits.getD c 0) else b) (0, bits.getD 0 0)).1)

/-- The age sweep reads one UNKNOWN block with each of sets 0–5: `bits` are the bits corrected with each. With the last
block swept every D_z advances and the state ends (R282). DESIGN CHOICE: the drift recorded for a block older than every ledger entry is the
whole resumed D_z (notes/assumptions/59). -/
def execAgeSweep (die : Fin 320) (block : Fin 2048) (bits : List Nat) (s : State) : Out :=
  if s.fencedSrc 10 then .next s else
  let k := 2048 * die.val + block.val
  if !s.bit F.SIR_STS.SWEEP_BUSY || !(s.blk die block).unknown || s.sir.swept.any (fun x => x.1 == k) || !s.sirWorks || !s.sirTurn 4 die then .next s
  else if !s.bgCan die then .next (s.sirTurnEnd die true)
  else
    let s := (({ s with sir.swept := s.sir.swept ++ [(k, sweepClass bits)] }.pcItem 10).sirLines die 48).sirTurnEnd die false
    let all := s.unknownBlocks
    let left := all.filter (fun b => !(s.sir.swept.any (fun x => x.1 == b)))
    let s := s.set ⟨R.SIR_STS, 8, 7⟩ (100 * (all.length - left.length) / max 1 all.length)
    if left.isEmpty then
      let l := s.pstLedger
      let adv := fun (z : Nat) =>
        (s.sir.swept.filter (fun (x : Nat × Nat) => zoneOf (x.1 / 2048) == z)).foldl (fun (m : Option Nat) (x : Nat × Nat) =>
          let b := s.blk (x.1 / 2048) (x.1 % 2048)
          let before := match ledgerAt (b.seqs.getLastD 0) l with
            | some e => sget 0 s.sir.resume z - e.2.getD z 0
            | none => sget 0 s.sir.resume z
          let a := s.ageBound x.2 * 960 - before
          some (match m with | none => a | some n => min n a)) none
      .next (((List.range 8).foldl (fun s z => s.driftAdd z ((adv z).getD 0)) s).unknownEnd 1)
    else .next s

/-- A page of a block is due for refresh: 7/8 of SIR_REFRESH_B0 of drift (Table 9.8). -/
def State.refreshDue (s : State) (z seq : Nat) : Bool :=
  match s.pageDrift s.ledgers z seq with
  | none => true
  | some d => decide (7 * (s.refreshH 0 * 3600 * 16) ≤ 8 * d)

/-- Drift refresh of a block (R284): every valid tile of a closed or verified block, the tiles of the due pages of an open one.
While it is under way its copy goes on. -/
def execDriftRefresh (die : Fin 320) (block : Fin 2048) (s : State) : Out :=
  if s.fencedSrc 10 then .next s else
  let d := die.val
  let b := block.val
  let key := 2048 * d + b
  let k := s.blk d b
  if !s.bit F.TE_STS.MAP_READY ∨ s.draining ∨ k.unknown ∨ (s.die d).failed then .next s
  else if s.sir.refresh.any (fun x => x.1 == key) then
    match s.te.gc.find? (fun g => g.die == d && g.src == b && g.only) with
    | some g => .next (if s.copying d then s else s.copyStep g)
    | none => .next (s.refreshDone.itemLag 3)
  else if !((k.st = 1 ∨ k.st = 2 ∨ k.st = 4 ∨ k.st = 5) ∧ k.seqs ≠ [] ∧ s.refreshDue (zoneOf d) (k.seqs.headD 0)) then .next s
  else
    let whole := k.st = 4 ∨ k.st = 5
    let ts := (s.validTiles d b).filter (fun (x : Nat × Loc) => whole || s.refreshDue (zoneOf d) (k.seqs.getD x.2.page 0))
    let pages := (ts.foldl (fun (acc : List Nat) x => setIns x.2.page acc) []).length
    let s := { s with sir.refresh := s.sir.refresh ++ [(key, pages, ts)] }.pcEvent 10 2 1 |>.leased 10
    if ts.isEmpty then .next (s.refreshDone.itemLag 3)
    else
      let g : GcJob := ⟨d, b, false, 24, ts.map (fun (x : Nat × Loc) => (x.1, x.2, x.2)), true⟩
      let s := { s with te.gc := s.te.gc ++ [g] }.leased 8
      .next (if s.copying d then s else s.copyStep g)

/-- Pages that a scrub pass reads: each programmed page (R285). -/
def State.scrubPages (s : State) : List Nat := s.te.media.map (·.1)

/-- The running scrub pass has read its last page: the class's lag is what the end overran the deadline (R287). -/
def State.scrubEnd (s : State) : State :=
  if s.sir.scrub.on && s.sir.scrubTodo.isEmpty then
    { s with sir.scrub := { s.sir.scrub with on := false } }.setLag 6 ((s.tick.toNat - s.sir.scrub.due) / msTicks)
  else s

/-- A media patrol scrub pass starts on its grid (R285, R287): the pass before it has ended, and its deadline has come. -/
def execScrubPass (s : State) : Out :=
  if s.fencedSrc 10 then .next s else
  if s.bit F.SIR_CTL.SCRUB_EN && s.sirWorks && s.sir.scrubTodo.isEmpty && decide (s.sir.scrub.due ≤ s.tick.toNat) then
    let p := s.num R.SIR_SCRUB_PERIOD % 1024 * 3600000 * msTicks
    let due := if s.sir.scrub.due = 0 then s.tick.toNat + p else s.sir.scrub.due + p
    .next { s with sir.scrub := ⟨true, due⟩, sir.scrubTodo := s.scrubPages }.scrubEnd
  else .next s

/-- The tiles of a data page whose location is the page are copied out of it. -/
def State.copyPage (s : State) (d b p : Nat) : State :=
  (s.mpage d b p).tiles.zipIdx.foldl (fun s (x : Option PageTile × Nat) => match x.1 with
    | some t => if s.validAt t.tile ⟨d, b, p, x.2⟩ then s.rewriteTile t.tile else s
    | none => s) s

/-- The segment that a checkpoint page belongs to is checkpointed again (R285, R286). -/
def State.ckptAgain (s : State) (d b p : Nat) : State :=
  match (s.mpage d b p).hdr with
  | some h => (s.segChanged h.tile0).checkpoint h.tile0
  | none => s

/-- Lines that the patrol reads of a page: the valid tile positions and the header of a data page, all of any other (R285). -/
def State.scrubLines (s : State) (d b p : Nat) : Nat :=
  if (s.mpage d b p).typ = 0x5A01 then
    1 + 64 * ((s.mpage d b p).tiles.zipIdx.filter (fun (x : Option PageTile × Nat) => x.1.any (fun t => s.validAt t.tile ⟨d, b, p, x.2⟩))).length
  else 257

/-- A patrol read of a page (R285): a line with more than SIR_SCRUB_BITS corrected bits has a data page's valid tiles copied and a checkpoint
page's segment checkpointed again, and is only counted in any other page; an uncorrectable line goes to class 1. -/
def State.scrubPage (s : State) (key : Nat) (r : ScrubRead) : State :=
  let d := key / 2048 / 2048
  let b := key / 2048 % 2048
  let p := key % 2048
  let s := (s.bump R.SIR_SCRUB_PAGES).sirLines d (s.scrubLines d b p)
  let s := r.bits.foldl (fun s (x : Fin 257 × Fin 10) => s.codecOk (chanOf d) x.2.val 0) s
  let poor := r.bits.any (fun (x : Fin 257 × Fin 10) => decide (s.num R.SIR_SCRUB_BITS % 16 < x.2.val))
  let typ := (s.mpage d b p).typ
  let s := s.when (poor && typ == 0x5A01) (fun s => (s.copyPage d b p).bump R.SIR_SCRUB_COPY)
  let s := s.when (poor && typ == 0x5A03) (fun s => s.ckptAgain d b p)
  { s with sir.recover := s.sir.recover ++ r.bad.map (fun (x : Fin 257) => ((⟨d, b, p, 0⟩ : Loc), x.val)) }

/-- The next paced read of the media patrol (R285): the head of the pass's page list, skipped when it has been erased. -/
def execMediaScrubRead (r : ScrubRead) (s : State) : Out :=
  if s.fencedSrc 10 || !s.bit F.SIR_CTL.SCRUB_EN || !s.sirWorks || !s.sir.scrub.on then .next s
  else match s.sir.scrubTodo with
    | [] => .next s
    | key :: rest =>
      let there := s.te.media.any (fun x => x.1 == key)
      let d := key / 2048 / 2048
      if there && !s.sirTurn 6 d then .next s
      else if there && !s.bgCan d then .next (s.sirTurnEnd d true) else
      let s := { s with sir.scrubTodo := rest }.pcItem 10
      let s := if there then (s.scrubPage key r).sirTurnEnd d false else s
      .next s.scrubEnd

/-- A deadline of a class passes with its pass or item unfinished: the class is late and its lag rises (R287, R290). `ms` is
the lateness of the earliest unfinished item of classes 2 and 3. -/
def execSiroccoDeadlinePassed (cls : Fin 10) (ms : Word) (s : State) : Out :=
  if s.fencedSrc 10 then .next s else
  let now := s.tick.toNat
  let c := cls.val
  if c = 6 then
    .next (if s.bit F.SIR_CTL.SCRUB_EN && s.sir.scrub.on && decide (s.sir.scrub.due ≤ now) then
      s.setLag 6 (max (s.num R.SIR_LAG_SCR) ((now - s.sir.scrub.due) / msTicks)) else s)
  else if c = 7 then
    .next (if s.bit F.SIR_CTL.SRAM_EN && s.sir.sram.on && decide (s.sir.sram.due ≤ now) then
      s.setLag 7 (max (s.num R.SIR_LAG_SRAM) ((now - s.sir.sram.due) / msTicks)) else s)
  else if c = 5 then
    .next (if s.bit F.SIR_CTL.TRACK_EN then
      let l := s.sir.trkDue.foldl (fun m (x : Nat × Nat) => if x.2 = 0 then m else max m ((now - (x.2 + s.num R.SIR_TRACK_INT % 2048 * 60000 * msTicks)) / msTicks)) 0
      s.setLag 5 (max (s.num R.SIR_LAG_TRK) l) else s)
  else if c = 2 then
    .next (if s.te.blocks.any (fun x => !x.2.eligible.isEmpty) then s.setLag 2 ms.toNat else s)
  else if c = 3 then
    .next (if s.sir.refresh.isEmpty then s else s.setLag 3 ms.toNat)
  else .next s

/-- The stripe of a parity page counts as having none (R286): its page is kept no more. -/
def State.parityGone (s : State) (key : Nat) : State :=
  match s.te.stripes.find? (fun x => x.parity == some key && !x.released) with
  | none => s
  | some x =>
    let g := x.group / 8
    (((s.stripeMod x.id (fun x => { x with released := true })).wrN (R.MG_OBP_HELD g) (s.num (R.MG_OBP_HELD g) - 1)).blkSettle
      (key / 2 ^ 22) (key / 2 ^ 11 % 2048))

/-- Line `pos` of a parity page can be made again from the stripe's members (R213, R286). -/
def State.parityRemade (s : State) (key pos : Nat) : Bool :=
  s.te.stripes.any (fun x => x.parity == some key && !x.released && x.members.all (fun m => (s.correctedLine m pos).isSome))

/-- A line of a journal, checkpoint or parity page that its retries have failed (R286): a parity page's line may be made again from its
stripe; else nothing is poisoned, the stripe counts as having no parity page, the segment is checkpointed again from DRAM, or the journal's
entries are covered by CKPT_ALL. -/
def State.sirArea (s : State) (l : Loc) (pos : Nat) : State :=
  let key := packPage l.die l.block l.page
  let g := groupOf l.die
  match (s.mpage l.die l.block l.page).typ with
  | 0x5A02 => s.ckptAll
  | 0x5A03 => s.ckptAgain l.die l.block l.page
  | _ =>
    if s.parityRemade key pos then (s.bump (R.MG_OBP_RECON g)).bump R.SIR_RECOV_OBP else (s.bump (R.MG_OBP_FAIL g)).parityGone key

/-- Class 1: the oldest uncorrectable line that scrub found is read again on a background slot of its die, recovered or poisoned (R286).
Lines of journal, checkpoint and parity pages take the first two steps only. -/
def execUnrequestedRecovery (how : RecoverBy) (s : State) : Out :=
  if s.fencedSrc 10 then .next s else
  match s.sir.recover with
  | [] => .next s
  | (l, pos) :: rest =>
    if !s.sirWorks then .next s
    else if !s.bgCan l.die then .next (s.sirTurnEnd l.die true)
    else
      let s := (({ s with sir.recover := rest }.pcItem 10).sirLines l.die (recoverReads how)).sirTurnEnd l.die false
      if [0x5A02, 0x5A03, 0x5A04].contains (s.mpage l.die l.block l.page).typ then
        let s := s.bump R.SIR_UE_FOUND
        match how with
        | .retry n => .next ((s.codecOk (chanOf l.die) 0 (n.val + 1)).bump R.SIR_RECOV_RETRY)
        | .no _ => .next ((s.codecUe l pos).sirArea l pos)
      else .next (s.sirBad l pos how)

/-- An accumulator word cannot be corrected (R210): its stripe closes without a parity page, and the fault is against its engine. -/
def State.accuLost (s : State) (id : Nat) : State :=
  let s := match s.te.stripes.find? (fun x => x.id == id) with
    | some x => s.raise (115 + x.group / 8) 1 Kind.UE
    | none => s
  s.stripeNoParity id

/-- An SRAM patrol pass starts on its grid (R268, R287). -/
def execSramPatrolPass (s : State) : Out :=
  if s.fencedSrc 10 then .next s else
  if s.bit F.SIR_CTL.SRAM_EN && decide (s.sir.sram.due ≤ s.tick.toNat) then
    let p := s.num R.SIR_SRAM_PERIOD % 1024 * 100 * msTicks
    let due := if s.sir.sram.due = 0 then s.tick.toNat + p else s.sir.sram.due + p
    let s := s.passLag 7 s.sir.sram
    .next { s with sir.sram := ⟨true, due⟩ }
  else .next s

/-- The patrol reads a word (R142, R143, R161, R267, R268): corrected and rewritten if unchanged, or handled as though a request
had met it. A clean line-cache line is invalidated with no request answered. -/
def execSramPatrolWord (r : Patrol) (s : State) : Out :=
  if s.fencedSrc 10 then .next s else
  if !s.sir.sram.on then .next s
  else
  let s := s.pcItem 10
  match r with
    | .clean => .next s
    | .fix changed => .next (if changed then s else s.bump R.SIR_SRAM_FIX)
    | .lcData set way word ue changed =>
      let x := s.way set way
      if ue then
        if !x.v || s.wayLost set way then .next s
        else
          let s := s.bump R.LC_UE_CNT
          if !x.d then .next (s.lcInvalidate set way)
          else if s.partnerCopy (wayLine set x) then .next (s.wayAsk set way none)
          else .next (s.lcLoseDirty set way).pump
      else if changed then .next s
      else .next ((s.lcMark set way word false).bump R.SIR_SRAM_FIX)
    | .lcTag set way lost => .next (s.tagUpsets set [if lost then .lost way else .tag way]).pump
    | .mapc tile ue changed =>
      if ue then .next (if s.mapcHit tile.toNat then ((s.mapcDrop tile.toNat).raise 8 1 Kind.UE).bump R.MAPC_UE_CNT else s)
      else .next (if changed then s else (s.mapcMark tile.toNat false).bump R.SIR_SRAM_FIX)
    | .coreFix n changed => .next (if changed then s else (s.bump R.SIR_SRAM_FIX).bump (R.CORE_CE_CNT n))
    | .core n => .next ((s.bump (R.CORE_UE_CNT n)).raise (if n.val < 24 then 72 + n.val else 96 + (n.val - 24)) 3 Kind.UE)
    | .obp id => .next (if s.te.stripes.any (fun x => x.id == id && x.parity.isNone && !x.released) then s.accuLost id else s)

/-! ### The checker test mode (R269, R270) -/

/-- Data width and check-bit width of a test array (Table 9.3, Table 9.4). -/
def chkWidth (a : Nat) : Nat × Nat :=
  match a with
  | 0 => (128, 9) | 1 => (26, 6) | 2 => (26, 1) | 3 => (80, 8) | 4 => (32, 7) | 5 => (64, 8) | 6 => (32, 8) | _ => (65, 8)

/-- SIR_CHK_IDX names no word of the array (Table 9.4). -/
def chkRange (a i : Nat) : Bool :=
  match a with
  | 0 => false
  | 1 => decide (2 ^ 20 ≤ i)
  | 2 => decide (2 ^ 20 ≤ i)
  | 3 => decide (2 ^ 20 ≤ i)
  | 4 => decide (28 ≤ i % 32) || decide (2 ^ 11 ≤ i)
  | 5 => decide (5 ≤ i % 8) || decide (2815 < i / 256)
  | 6 => decide (6 ≤ i % 8) || decide (2 ^ 14 ≤ i)
  | _ => decide (2 ^ 12 ≤ i)

/-- The array accepts a test (Table 9.4). -/
def State.chkAccepts (s : State) (a i : Nat) : Bool :=
  match a with
  | 3 => !s.bit F.MAPC_CTL.EN && !s.bit F.MAPC_STS.INV_BUSY
  | 4 => true
  | 5 =>
    let acc := i / 8 % 32
    decide ((s.stripesOf (8 * (i % 8) + acc / 4)).length ≤ acc % 4)
  | 6 => s.bit (F.DC_STS.TRAINED (i % 8))
  | 7 => true
  | _ => !s.bit F.LC_CTL.EN && s.lc.ways.all (fun x => !x.2.v) && !s.bit F.LC_STS.SAFE_BUSY && !s.bit F.LC_STS.CHECK_BUSY

/-- Error of a test operation: 0 none, 1 array not accepting, 2 index out of range (Table 9.15). -/
def State.chkErr (s : State) (a i : Nat) : Nat := if chkRange a i then 2 else if s.chkAccepts a i then 0 else 1

/-- The 22-bit index. -/
def State.chkIdx (s : State) : Nat := s.num R.SIR_CHK_IDX % 2 ^ 22

/-- SIR_CHK_CTL.WRITE stores data and check bits raw (R270). -/
def execSirChkWrite (path : Path) (array : Fin 8) (s : State) : Out :=
  let s := s.regAcc 10
  if !s.isManager path then .next s
  else
    let a := array.val
    let i := s.chkIdx
    let s := (s.set F.SIR_CHK_CTL.ARRAY a).setBit F.SIR_CHK_STS.DONE true
    let e := s.chkErr a i
    let s := s.set F.SIR_CHK_STS.ERR e
    if e ≠ 0 then .next s
    else
      let w := chkWidth a
      let d := (s.num (R.SIR_CHK_D 0) + s.num (R.SIR_CHK_D 1) * 2 ^ 32 + s.num (R.SIR_CHK_D 2) * 2 ^ 64 + s.num (R.SIR_CHK_D 3) * 2 ^ 96) %
        2 ^ w.1
      let c := s.num R.SIR_CHK_CB % 2 ^ w.2
      .next ({ s with lc.test := s.lc.test.filter (fun (x : Nat × Nat × Nat × Nat) => !(x.1 == a && x.2.1 == i)) ++ [(a, i, d, c)] }.setBit F.SIR_CHK_STS.ACTIVE true)

/-- Even parity of a number. -/
def parityOf (n w : Nat) : Nat := (List.range w).foldl (fun p k => (p + n / 2 ^ k) % 2) 0

/-- Check bits of a word of an array (R266): the code itself is the implementation's, but for the tag's parity. -/
def chkCode (a d : Nat) : Nat := if a = 2 then parityOf d 26 else Config.secded a d % 2 ^ (chkWidth a).2

/-- What the checker makes of a stored word: result, corrected data, position, syndrome. -/
def chkDecode (a d c : Nat) : Nat × Nat × Nat × Nat :=
  let syn := chkCode a d ^^^ c
  if syn = 0 then (0, d, 0, 0)
  else if a = 2 then (2, d, 0, syn)
  else
    let w := chkWidth a
    match (List.range w.1).find? (fun k => chkCode a (d ^^^ 2 ^ k) == c) with
    | some k => (1, d ^^^ 2 ^ k, k, syn)
    | none => match (List.range w.2).find? (fun k => chkCode a d == c ^^^ 2 ^ k) with
      | some k => (1, d, w.1 + k, syn)
      | none => (2, d, 0, syn)

/-- SIR_CHK_CTL.READ passes the stored word through its checker (R270). A word that no test has written holds a value left
open. -/
def execSirChkRead (path : Path) (array : Fin 8) (s : State) : Out :=
  let s := s.regAcc 10
  if !s.isManager path then .next s
  else
    let a := array.val
    let i := s.chkIdx
    let s := (s.set F.SIR_CHK_CTL.ARRAY a).setBit F.SIR_CHK_STS.DONE true
    let e := s.chkErr a i
    let s := s.set F.SIR_CHK_STS.ERR e
    if e ≠ 0 then .next s
    else
      let w := chkWidth a
      let r := match s.lc.test.find? (fun x => x.1 == a && x.2.1 == i) with
        | some x => (x.2.2.1, x.2.2.2, s)
        | none =>
          let d := s.free w.1
          let c := s.drawn.free w.2
          (d, c, { s.drawn.drawn with lc.test := s.lc.test ++ [(a, i, d, c)] })
      let q := chkDecode a r.1 r.2.1
      let s := (List.range 4).foldl (fun s k => s.wrN (R.SIR_CHK_D k) (q.2.1 / 2 ^ (32 * k))) r.2.2
      .next ((((s.wrN R.SIR_CHK_CB r.2.1).set F.SIR_CHK_STS.RESULT q.1).set F.SIR_CHK_STS.POS q.2.2.1).set F.SIR_CHK_STS.SYN q.2.2.2)

/-- SIR_CHK_CTL.END (R270): cache entries written in the test become invalid, and a write of EN = 1 that waited takes effect. -/
def execSirChkEnd (path : Path) (s : State) : Out :=
  let s := s.regAcc 10
  if !s.isManager path then .next s
  else
    let s := { s with lc.test := s.lc.test.filter (fun (x : Nat × Nat × Nat × Nat) => decide (4 ≤ x.1)) }
    let s := (s.setBit F.SIR_CHK_STS.ACTIVE false).setBit F.SIR_CHK_STS.DONE true
    let s := if s.lc.enWait then { s with lc.enWait := false }.lcEnable else s
    .next (if s.lc.mapcEnWait && !s.bit F.MAPC_STS.INV_BUSY then { s with lc.mapcEnWait := false }.setBit F.MAPC_CTL.EN true else s)

/-! ### The codec's test (R271) -/

/-- The codeword buffer of a group. -/
def State.cwBuf (s : State) (g : Nat) : StoredLine :=
  BitVec.ofNat 704 ((List.range 22).foldl (fun n k => n + s.num (R.MG_CW g k) * 2 ^ (32 * k)) 0)

/-- Store the codeword buffer. -/
def State.setCw (s : State) (g : Nat) (w : StoredLine) : State :=
  (List.range 22).foldl (fun s k => s.wrN (R.MG_CW g k) (w.toNat / 2 ^ (32 * k))) s

/-- MG_CW_CTL.ENCODE computes PAR from bytes 0–75 (R271). -/
def execMgCwEncode (group : Fin 5) (path : Path) (s : State) : Out :=
  let s := s.regAcc (26 + group)
  .next (s.when (s.isManager path) (fun s =>
    (s.setCw group (bchEncode (s.cwBuf group))).setBit ⟨R.MG_CW_RES group, 5, 1⟩ true))

/-- MG_CW_CTL.DECODE decodes the buffer; WB writes the corrected codeword back (R271). -/
def execMgCwDecode (group : Fin 5) (path : Path) (wb : Bool) (s : State) : Out :=
  let s := s.regAcc (26 + group)
  .next (s.when (s.isManager path) (fun s =>
    match bchDecode (s.cwBuf group) with
    | some (w, n) => (if wb then s.setCw group w else s).wrN (R.MG_CW_RES group) (n + 32)
    | none => s.wrN (R.MG_CW_RES group) (16 + 32)))

/-- SIR_CTL.LAG_CLR (R290). -/
def execSirLagClr (path : Path) (s : State) : Out :=
  let s := s.regAcc 10
  .next (s.when (s.isManager path) (fun s => s.wr R.SIR_LAG_MAX (s.rd R.SIR_LAG)))

/-- A write of SIR_CNT_CLR (Table 9.11). -/
def execSirCntClr (path : Path) (v : Word) (s : State) : Out :=
  let s := s.regAcc 10
  .next (s.when (s.isManager path) (fun s =>
    (s.when (v.getLsbD 0) (fun s => s.zero (regRange R.SIR_SCRUB_PAGES 8))).when (v.getLsbD 1) (fun s => s.zero [R.SIR_SRAM_FIX])))

/-- A write of MG_CDC_CNT_CLR (Table 9.10). -/
def execMgCdcCntClr (group : Fin 5) (path : Path) (v : Word) (s : State) : Out :=
  let s := s.regAcc (26 + group)
  let g := group.val
  .next (s.when (s.isManager path) (fun s =>
    (s.when (v.getLsbD 0) (fun s => s.zero (regRange (R.MG_CE_LINES g) 6))).when (v.getLsbD 1) (fun s => s.zero [R.MG_LCHK_CNT g])))

end Sys2Proof.Machine
end

