-- ==== Sys2Proof/Machine/Upkeep.lean ====
section
/-! DEFINITION. The commands of media upkeep (07_media_upkeep.md). -/

set_option autoImplicit false

namespace Sys2Proof.Machine

/-- MG_OBP_WAIT has passed after a stripe opened: it closes (R211). -/
def execStripeCloseTimeout (id : Nat) (s : State) : Out := .next ((s.stripeClose id).progNumbers)

/-- A page becomes eligible for verification: programmed, and its three next pages programmed or its block closed (R215). -/
def execVerifyEligible (die : Fin 320) (block page : Fin 2048) (s : State) : Out :=
  let k := s.blk die block
  if (k.st = 1 ∨ k.st = 2 ∨ k.st = 4) ∧ page.val < k.next ∧ (k.st = 4 ∨ page.val + 3 < k.next) ∧
      !(k.verified.contains page.val) ∧ !(k.copying.contains page.val) ∧
      !(s.te.progs.any (fun p => p.stage == .busy && p.die == die.val && p.block == block.val &&
        decide (p.page ≤ (if k.st = 4 then page.val else page.val + 3)))) then
    .next (s.blkMod die block (fun k => { k with eligible := setIns page.val k.eligible }))
  else .next s

/-- The Sirocco engine verifies a page on background slots of its die (R96, R98, R215, R216): `bits` are the lines corrected at the first
pass with their counts, `bad` the lines that did not decode and what their retries came to. Findings copy the page's valid tiles, and the
page counts as verified once they have left it; an undecodable line marks the block for retirement. -/
def execPageVerify (die : Fin 320) (block page : Fin 2048) (bits : List (Fin 257 × Fin 10)) (bad : List (Fin 257 × RecoverBy))
    (s : State) : Out :=
  if s.fencedSrc 10 then .next s else
  let k := s.blk die block
  if !(k.eligible.contains page.val) || !s.sirWorks || !s.sirTurn 2 die then .next s
  else if !s.bgCan die then .next (s.sirTurnEnd die true)
  else
    let l : Loc := ⟨die, block, page, 0⟩
    let s := (s.pcItem 10).sirLines die (257 + (bad.map (fun (x : Fin 257 × RecoverBy) => recoverReads x.2)).foldl (· + ·) 0)
    let s := bits.foldl (fun s (x : Fin 257 × Fin 10) => s.codecOk (chanOf die) x.2.val 0) s
    let s := bad.foldl (fun s (x : Fin 257 × RecoverBy) => s.sirBad l x.1.val x.2) s
    let poor := bits.any (fun x => decide (s.num R.TE_VFY_BITS % 16 < x.2.val)) || !bad.isEmpty
    let s := if poor then
        (s.mpage die block page).tiles.zipIdx.foldl (fun s (x : Option PageTile × Nat) => match x.1 with
          | some t => if s.validAt t.tile ⟨die, block, page, x.2⟩ then s.rewriteTile t.tile else s
          | none => s) s
      else s
    let s := s.blkMod die block (fun k => { k with
      verified := if poor then k.verified else setIns page.val k.verified
      copying := if poor then setIns page.val k.copying else k.copying
      eligible := setDel page.val k.eligible
      condemned := k.condemned || !bad.isEmpty })
    .next ((((s.blkSettle die block).parityRelease).itemLag 2).sirTurnEnd die false)

/-- A Tutor runs media work: the firmware runs, background media work is in use (Table 19.1), no drain runs, and it is not fenced (R25,
R440, R507). -/
def State.tutorsRun (s : State) (k : Nat) : Bool :=
  s.coreUp && decide (5 ≤ s.get F.BOOT_STS.PHASE) && !s.draining && !s.fencedSrc (72 + k)

/-- A block awaiting erase whose conditions all hold is erased (R218). -/
def execBlockErase (die : Fin 320) (block : Fin 2048) (s : State) : Out :=
  let k := s.blk die block
  let copied := k.copiedTo.all (fun c => let st := (s.blk (c / 2048) (c % 2048)).st; st == 5 || st == 7 || st == 8 || st == 0)
  if k.st = 7 ∧ !k.erasing ∧ copied ∧ k.flushAt ≤ s.jseq ∧ !(s.te.reads.any (fun m => m.loc.die == die.val && m.loc.block == block.val)) ∧
      !s.dieBusy die ∧ !(s.die die).failed then
    .next (((s.blkMod die block (fun k => { k with erasing := true })).dieMod die (fun x => { x with erase := some block.val, eraseAgain := false })).bump
      (R.MC_ERS_CNT (chanOf die)) |>.emit (.media (chanOf die) Cmd.erase [die, block]))
  else .next s

/-- A Tutor collects on a die (R219, R220): it goes on with the die's copy, or takes the verified block of lowest score while
collection runs. -/
def execGcCopy (die : Fin 320) (tutor : Fin 24) (s : State) : Out :=
  if !s.tutorsRun tutor then .next s else
  let d := die.val
  let free := (s.blocksIn d 0).length
  let run := if free < s.num R.TE_GC_START % 256 then true else if s.num R.TE_GC_STOP % 256 ≤ free then false else (s.die d).collecting
  let s := (s.dieMod d (fun x => { x with collecting := run })).urgentFlags
  if s.copying d ∨ (s.die d).failed then .next s
  else match s.te.gc.find? (fun g => g.die == d && !g.wear) with
    | some g => .next (s.copyStep g)
    | none =>
      let busy := fun b => s.te.gc.any (fun g => g.die == d && g.src == b)
      let cand := (s.blocksIn d 5).filter (fun b => !busy b)
      let emin := lowest 65535 (s.eraseCounts d (fun st => st != 8))
      let score := fun b => (s.validTiles d b).length + (s.num R.TE_GC_WEAR_W % 64) * ((s.blk d b).erases - emin)
      match (if run then argMin score cand else none) with
      | some b => .next ({ s with te.gc := s.te.gc ++ [GcJob.mk d b false tutor.val [] false] }.leased 8 |>.copyStep
          ⟨d, b, false, tutor.val, [], false⟩)
      | none => .next s

/-- Static wear levelling on a die (R223): while the spread exceeds TE_WL_SPREAD, down to three quarters of it or until the die
is urgent. -/
def execWearLevelCopy (die : Fin 320) (tutor : Fin 24) (s : State) : Out :=
  if !s.tutorsRun tutor then .next s else
  let d := die.val
  let sp := s.spread d
  let lim := s.num R.TE_WL_SPREAD % 16384
  let run := s.bit F.TE_UPK_CTL.WL_EN && !(s.die d).urgent &&
    (decide (lim < sp) || ((s.die d).wl && decide (3 * lim < 4 * sp)))
  let s := s.dieMod d (fun x => { x with wl := run })
  let s := s.setBit F.TE_UPK_STS.WL_ACTIVE (s.te.dies.any (fun x => x.2.wl))
  if !run ∨ s.copying d ∨ (s.die d).failed then .next s
  else match s.te.gc.find? (fun g => g.die == d && g.wear) with
    | some g => .next (s.copyStep g)
    | none =>
      let busy := fun b => s.te.gc.any (fun g => g.die == d && g.src == b)
      match argMin (fun b => (s.blk d b).erases) ((s.blocksIn d 5).filter (fun b => !busy b)) with
      | some b => .next ({ s with te.gc := s.te.gc ++ [GcJob.mk d b true tutor.val [] false] }.leased 8 |>.copyStep
          ⟨d, b, true, tutor.val, [], false⟩)
      | none => .next s

/-- A Tutor copies valid tiles of a rotating region out of pages below ROT_SEQ on a die, at the priority of wear levelling
(R308). -/
def execRotationCopy (region : Fin 16) (die : Fin 320) (tutor : Fin 24) (s : State) : Out :=
  if !s.tutorsRun tutor then .next s else
  let n := region.val
  let d := die.val
  if !s.bit (F.CE_RG_SLOT.ROTATING n) ∨ s.copying d ∨ (s.die d).failed ∨ (s.die d).urgent then .next s
  else match s.te.gc.find? (fun g => g.die == d && g.only && g.tutor != 24) with
    | some g => .next (s.copyStep g)
    | none =>
      let rot := s.num (R.CE_RG_ROTSEQ_LO n) + 2 ^ 32 * (s.num (R.CE_RG_ROTSEQ_HI n) % 65536)
      let tiles := s.te.map.filterMap (fun (x : Nat × TEntry) => match x.2.loc with
        | some l => if x.2.st = 1 ∧ l.die = d ∧ s.inRegion n (64 * x.1) ∧ s.pageSeq l < rot then some (x.1, l, l) else none
        | none => none)
      match tiles with
      | [] => .next s
      | x :: _ =>
        let g : GcJob := ⟨d, x.2.1.block, false, tutor, tiles.filter (fun y => y.2.1.block == x.2.1.block), true⟩
        .next ({ s with te.gc := s.te.gc ++ [g] }.leased 8 |>.copyStep g)

/-- The Sirocco engine, class 8, relocates the valid tiles of a block on a die that still holds copies of a securely discarded
range; a block left without one awaits its erase (R66, R218). Open and closed blocks take their turn once they are verified. -/
def execSecureDiscardRelocate (id : Nat) (die : Fin 320) (s : State) : Out :=
  if s.fencedSrc 10 then .next s else
  let d := die.val
  match s.te.discards.find? (fun x => x.id == id && x.secure && x.accepted) with
  | none => .next s
  | some x =>
    if !s.bit F.TE_STS.MAP_READY ∨ s.draining ∨ s.copying d ∨ (s.die d).failed then .next s
    else match x.blocks.find? (fun b => decide (b < 2 ^ 40) && b / 2048 == d && (s.blk d (b % 2048)).st == 5) with
      | none => .next s
      | some key =>
        let b := key % 2048
        match s.te.gc.find? (fun g => g.die == d && g.src == b) with
        | some g => .next (s.copyStep g)
        | none =>
          let ts := s.validTiles d b
          if ts.isEmpty then .next (s.blkSettle d b)
          else
            let g : GcJob := ⟨d, b, false, 24, ts.map (fun (y : Nat × Loc) => (y.1, y.2, y.2)), true⟩
            .next ({ s with te.gc := s.te.gc ++ [g] }.leased 8 |>.copyStep g)

/-- The spare percentages are recomputed (R227, R228). -/
def execSpareRecompute (s : State) : Out := .next s.spares

/-- The last tile of a retired die has been worked through: one record and one event (R226). -/
def State.dieWorkEnd (s : State) (lost : Nat) : State := (s.roll 0x0502 0 8 2 lost 0).gmDevice [8]

/-- The Tutors take the next tile homed on a retired die (R226): moved onto the substitute from its open stripe or from the
twin's copy of its 64 lines, or whole-poisoned. A staged tile is programmed from its slot, whose program recovers the lines that it lacks in
the same way; a tile with a program in flight is left for later (R174). -/
def execRetiredDieTileWork (die : Fin 320) (twin : Option (List Line)) (s : State) : Out :=
  if !(List.range 24).any s.tutorsRun then .next s else
  match s.te.dieWork.find? (fun (w : Nat × List Nat × Nat) => w.1 == die.val) with
  | none => .next s
  | some w =>
    match w.2.1 with
    | [] => .next ({ s with te.dieWork := s.te.dieWork.erase w }.dieWorkEnd w.2.2)
    | t :: rest =>
      let upd := fun (s : State) (lost : Nat) =>
        let s := { s with te.dieWork := s.te.dieWork.map (fun x => if x = w then (w.1, rest, w.2.2 + lost) else x) }
        if rest.isEmpty then { s with te.dieWork := s.te.dieWork.filter (fun x => x.1 != die.val) }.dieWorkEnd (w.2.2 + lost) else s
      let e := s.entry t
      match e.loc with
      | none => .next (upd s 0)
      | some l =>
        if l.die ≠ die.val ∨ (e.st ≠ 1 ∧ e.st ≠ 2) then .next (upd s 0)
        else
          let got : Option (Sparse Line) :=
            if s.obpHolds l then
              (List.range 64).foldl (fun (acc : Option (Sparse Line)) k => match acc with
                | none => none
                | some m => match (s.obpTry (64 * t + k) l (64 * l.tip + k)).1 with
                  | .ok d _ => some (sset 0 m k (s.xtsOut (bufUnit s.bufFree k) d))
                  | _ => none) (some [])
            else if s.partnerCopy (64 * t) then
              match twin with
              | some ls => if ls.length = 64 then some (ls.zipIdx.foldl (fun m (x : Line × Nat) => sset 0 m x.2 (s.xtsOut (bufUnit s.bufFree x.2) x.1)) []) else none
              | none => none
            else none
          match got with
          | some m =>
            if s.tileFlying t || s.bufFree.isNone then .next s
            else if e.st = 2 then .next (upd (s.rewriteTile t) 0)
            else
              let pt : PTile := ⟨t, 0, 0, BitVec.allOnes 64, m, false, s.vseqAt l, some l⟩
              .next (upd (s.xtsUse.progStart (.copy false) (s.homeDie t) [some pt] [] false (fun _ => none)) 0)
          | none => .next (upd (s.ptWhole t) 1)

/-- A write of TE_UPK_CNT_CLR (Table 7.5). -/
def execTeUpkCntClr (path : Path) (v : Word) (s : State) : Out :=
  let s := s.regAcc 8
  .next (s.when (s.isManager path) (fun s =>
    (s.when (v.getLsbD 0) (fun s => s.zero [R.TE_GC_COPIED, R.TE_WL_COPIED])).when (v.getLsbD 1)
      (fun s => s.zero [R.TE_PGM_FAIL, R.TE_ERS_FAIL, R.TE_GC_ABORT])))

/-- A write of MG_OBP_CNT_CLR (Table 7.8). -/
def execMgObpCntClr (group : Fin 5) (path : Path) (v : Word) (s : State) : Out :=
  let s := s.regAcc (26 + group)
  let g := group.val
  .next (s.when (s.isManager path) (fun s =>
    (s.when (v.getLsbD 0) (fun s => s.zero [R.MG_OBP_STRIPES g, R.MG_OBP_SHORT g, R.MG_OBP_NOPAR g])).when (v.getLsbD 1)
      (fun s => s.zero [R.MG_OBP_RECON g, R.MG_OBP_FAIL g])))

end Sys2Proof.Machine
end

