-- ==== Sys2Proof/Machine/Dispatch.lean ====
section
/-! DEFINITION. The dispatch of every command to its meaning, one arm per constructor of Instr. -/

namespace Sys2Proof.Machine

def exec (i : Instr) (s : State) : Host.Outcome State Fault Refusal :=
  match i with
  | .speedWindowEnd idx => Sys2Proof.Machine.execSpeedWindowEnd idx s
  | .guardLevelReturn => Sys2Proof.Machine.execGuardLevelReturn s
  | .speedMonitorOdd mon => Sys2Proof.Machine.execSpeedMonitorOdd mon s
  | .governorEvaluation => Sys2Proof.Machine.execGovernorEvaluation s
  | .avsbusWriteDone ok => Sys2Proof.Machine.execAvsbusWriteDone ok s
  | .tickCopyCompare differ => Sys2Proof.Machine.execTickCopyCompare differ s
  | .refclkAbsent => Sys2Proof.Machine.execRefclkAbsent s
  | .refclkReturn => Sys2Proof.Machine.execRefclkReturn s
  | .memReadRequest port tag line ups => Sys2Proof.Machine.execMemReadRequest port tag line ups s
  | .dramReadComplete id ch res => Sys2Proof.Machine.execDramReadComplete id ch res s
  | .heldMissDispatch die => Sys2Proof.Machine.execHeldMissDispatch die s
  | .mediaLineReceived id err slotErr seedDue => Sys2Proof.Machine.execMediaLineReceived id err slotErr seedDue s
  | .cipherRequestDone id slotErr seedDue bad => Sys2Proof.Machine.execCipherRequestDone id slotErr seedDue bad s
  | .gpfPhase1 port => Sys2Proof.Machine.execGpfPhase1 port s
  | .gpfPhase2 port => Sys2Proof.Machine.execGpfPhase2 port s
  | .memWriteRequest port tag line d be ups => Sys2Proof.Machine.execMemWriteRequest port tag line d be ups s
  | .bpHoldExpiry id => Sys2Proof.Machine.execBpHoldExpiry id s
  | .lineEviction line => Sys2Proof.Machine.execLineEviction line s
  | .tileAgeLimit tile => Sys2Proof.Machine.execTileAgeLimit tile s
  | .pageWaitExpiry die => Sys2Proof.Machine.execPageWaitExpiry die s
  | .pageProgramStart die => Sys2Proof.Machine.execPageProgramStart die s
  | .pageProgramIssue id => Sys2Proof.Machine.execPageProgramIssue id s
  | .statusWordReceived die sw dcrcOk => Sys2Proof.Machine.execStatusWordReceived die sw dcrcOk s
  | .tsFlush path => Sys2Proof.Machine.execTsFlush path s
  | .tsCntClr path v => Sys2Proof.Machine.execTsCntClr path v s
  | .lcEnClear path => Sys2Proof.Machine.execLcEnClear path s
  | .lcEnSet path => Sys2Proof.Machine.execLcEnSet path s
  | .safeDisable path => Sys2Proof.Machine.execSafeDisable path s
  | .rangeInvalidate src => Sys2Proof.Machine.execRangeInvalidate src s
  | .rangeClean src => Sys2Proof.Machine.execRangeClean src s
  | .rangeCleanInv src => Sys2Proof.Machine.execRangeCleanInv src s
  | .rangeLock src => Sys2Proof.Machine.execRangeLock src s
  | .rangeUnlock src => Sys2Proof.Machine.execRangeUnlock src s
  | .rangeZero src => Sys2Proof.Machine.execRangeZero src s
  | .walkerTakeOperation => Sys2Proof.Machine.execWalkerTakeOperation s
  | .walkerVisit ups => Sys2Proof.Machine.execWalkerVisit ups s
  | .lcCheckWalkDone found => Sys2Proof.Machine.execLcCheckWalkDone found s
  | .lcCntClr path v => Sys2Proof.Machine.execLcCntClr path v s
  | .mapcEnClear path => Sys2Proof.Machine.execMapcEnClear path s
  | .mapcInv path => Sys2Proof.Machine.execMapcInv path s
  | .mapcInvDone => Sys2Proof.Machine.execMapcInvDone s
  | .mapcCntClr path v => Sys2Proof.Machine.execMapcCntClr path v s
  | .mapRepairDone tile source => Sys2Proof.Machine.execMapRepairDone tile source s
  | .ptileConvert tile => Sys2Proof.Machine.execPtileConvert tile s
  | .seqHwRaised => Sys2Proof.Machine.execSeqHwRaised s
  | .journalIntervalExpiry => Sys2Proof.Machine.execJournalIntervalExpiry s
  | .teFlush path => Sys2Proof.Machine.execTeFlush path s
  | .teCkptAll path => Sys2Proof.Machine.execTeCkptAll path s
  | .checkpointWrite seg => Sys2Proof.Machine.execCheckpointWrite seg s
  | .teCntClr path v => Sys2Proof.Machine.execTeCntClr path v s
  | .rebuild noise => Sys2Proof.Machine.execRebuild noise s
  | .stripeCloseTimeout id => Sys2Proof.Machine.execStripeCloseTimeout id s
  | .verifyEligible die block page => Sys2Proof.Machine.execVerifyEligible die block page s
  | .pageVerify die block page bits bad => Sys2Proof.Machine.execPageVerify die block page bits bad s
  | .blockErase die block => Sys2Proof.Machine.execBlockErase die block s
  | .gcCopy die tutor => Sys2Proof.Machine.execGcCopy die tutor s
  | .wearLevelCopy die tutor => Sys2Proof.Machine.execWearLevelCopy die tutor s
  | .spareRecompute => Sys2Proof.Machine.execSpareRecompute s
  | .retiredDieTileWork die twin => Sys2Proof.Machine.execRetiredDieTileWork die twin s
  | .teUpkCntClr path v => Sys2Proof.Machine.execTeUpkCntClr path v s
  | .mgObpCntClr group path v => Sys2Proof.Machine.execMgObpCntClr group path v s
  | .channelTraining ch r => Sys2Proof.Machine.execChannelTraining ch r s
  | .readyRoundReport die hc b d => Sys2Proof.Machine.execReadyRoundReport die hc b d s
  | .readTimeout id mark occupied => Sys2Proof.Machine.execReadTimeout id mark occupied s
  | .trackInterval die up down => Sys2Proof.Machine.execTrackInterval die up down s
  | .suspendWarn die => Sys2Proof.Machine.execSuspendWarn die s
  | .mcRetrain ch path => Sys2Proof.Machine.execMcRetrain ch path s
  | .mcPatStart ch path v => Sys2Proof.Machine.execMcPatStart ch path v s
  | .mcPatStop ch path errs lanes => Sys2Proof.Machine.execMcPatStop ch path errs lanes s
  | .mcCntClr ch path v => Sys2Proof.Machine.execMcCntClr ch path v s
  | .readLine die arg crc => Sys2Proof.Machine.execReadLine die arg crc s
  | .sendH die crc => Sys2Proof.Machine.execSendH die crc s
  | .sendB die crc => Sys2Proof.Machine.execSendB die crc s
  | .progSetup die arg crc => Sys2Proof.Machine.execProgSetup die arg crc s
  | .dataIn die idx data crc => Sys2Proof.Machine.execDataIn die idx data crc s
  | .progConfirm die crc => Sys2Proof.Machine.execProgConfirm die crc s
  | .progCancel die crc => Sys2Proof.Machine.execProgCancel die crc s
  | .erase die arg crc => Sys2Proof.Machine.execErase die arg crc s
  | .suspend die crc => Sys2Proof.Machine.execSuspend die crc s
  | .resume die crc => Sys2Proof.Machine.execResume die crc s
  | .status die crc => Sys2Proof.Machine.execStatus die crc s
  | .featureSet die addr v crc => Sys2Proof.Machine.execFeatureSet die addr v crc s
  | .featureGet die addr crc => Sys2Proof.Machine.execFeatureGet die addr crc s
  | .refAdj die set offs crc => Sys2Proof.Machine.execRefAdj die set offs crc s
  | .train ch ce sub param crc => Sys2Proof.Machine.execTrain ch ce sub param crc s
  | .sync ch ce crc => Sys2Proof.Machine.execSync ch ce crc s
  | .reset ch ce crc => Sys2Proof.Machine.execReset ch ce crc s
  | .rstN ch high => Sys2Proof.Machine.execRstN ch high s
  | .lineSensed die slot err => Sys2Proof.Machine.execLineSensed die slot err s
  | .operationEnds die failed => Sys2Proof.Machine.execOperationEnds die failed s
  | .suspensionPointReached die => Sys2Proof.Machine.execSuspensionPointReached die s
  | .dieResetDone die => Sys2Proof.Machine.execDieResetDone die s
  | .driftClockSecond => Sys2Proof.Machine.execDriftClockSecond s
  | .ageLedgerEntry => Sys2Proof.Machine.execAgeLedgerEntry s
  | .dramLedgerEntry => Sys2Proof.Machine.execDramLedgerEntry s
  | .blockAgeRecompute => Sys2Proof.Machine.execBlockAgeRecompute s
  | .referenceSetLoad die => Sys2Proof.Machine.execReferenceSetLoad die s
  | .readReferenceTracking die scores => Sys2Proof.Machine.execReadReferenceTracking die scores s
  | .ageSweep die block bits => Sys2Proof.Machine.execAgeSweep die block bits s
  | .driftRefresh die block => Sys2Proof.Machine.execDriftRefresh die block s
  | .scrubPass => Sys2Proof.Machine.execScrubPass s
  | .unrequestedRecovery how => Sys2Proof.Machine.execUnrequestedRecovery how s
  | .sramPatrolPass => Sys2Proof.Machine.execSramPatrolPass s
  | .sramPatrolWord r => Sys2Proof.Machine.execSramPatrolWord r s
  | .sirChkWrite path array => Sys2Proof.Machine.execSirChkWrite path array s
  | .sirChkRead path array => Sys2Proof.Machine.execSirChkRead path array s
  | .sirChkEnd path => Sys2Proof.Machine.execSirChkEnd path s
  | .mgCwEncode group path => Sys2Proof.Machine.execMgCwEncode group path s
  | .mgCwDecode group path wb => Sys2Proof.Machine.execMgCwDecode group path wb s
  | .sirLagClr path => Sys2Proof.Machine.execSirLagClr path s
  | .sirCntClr path v => Sys2Proof.Machine.execSirCntClr path v s
  | .mgCdcCntClr group path v => Sys2Proof.Machine.execMgCdcCntClr group path v s
  | .keyDerivationDone => Sys2Proof.Machine.execKeyDerivationDone s
  | .slotFreed slot => Sys2Proof.Machine.execSlotFreed slot s
  | .rotationRecordWritten region => Sys2Proof.Machine.execRotationRecordWritten region s
  | .entropyHealthTest pass => Sys2Proof.Machine.execEntropyHealthTest pass s
  | .entropyRetry pass => Sys2Proof.Machine.execEntropyRetry pass s
  | .drbgReseed => Sys2Proof.Machine.execDrbgReseed s
  | .exportChunkProduce window => Sys2Proof.Machine.execExportChunkProduce window s
  | .importLineWrite port tag line d be => Sys2Proof.Machine.execImportLineWrite port tag line d be s
  | .importTrailer port tag line d be => Sys2Proof.Machine.execImportTrailer port tag line d be s
  | .importChunkCommit window => Sys2Proof.Machine.execImportChunkCommit window s
  | .katRun path => Sys2Proof.Machine.execKatRun path s
  | .ceCntClr path v => Sys2Proof.Machine.execCeCntClr path v s
  | .hello h flistOk => Sys2Proof.Machine.execHello h flistOk s
  | .proof mac => Sys2Proof.Machine.execProof mac s
  | .hb dev role token draining => Sys2Proof.Machine.execHb dev role token draining s
  | .crd f m p r => Sys2Proof.Machine.execCrd f m p r s
  | .down cause => Sys2Proof.Machine.execDown cause s
  | .fwdRd tag line port ups => Sys2Proof.Machine.execFwdRd tag line port ups s
  | .fwdWr tag line port be d ups => Sys2Proof.Machine.execFwdWr tag line port be d ups s
  | .fwdRsp tag poison cls rank d => Sys2Proof.Machine.execFwdRsp tag poison cls rank d s
  | .fwdCmp tag np cls rank => Sys2Proof.Machine.execFwdCmp tag np cls rank s
  | .mwr seq line d poison ups => Sys2Proof.Machine.execMwr seq line d poison ups s
  | .mcmd tag c => Sys2Proof.Machine.execMcmd tag c s
  | .mack seq held => Sys2Proof.Machine.execMack seq held s
  | .mcmdAck tag status done => Sys2Proof.Machine.execMcmdAck tag status done s
  | .repReq tag line ups => Sys2Proof.Machine.execRepReq tag line ups s
  | .repRsp tag fail d => Sys2Proof.Machine.execRepRsp tag fail d s
  | .tokenOffer => Sys2Proof.Machine.execTokenOffer s
  | .tokenTake => Sys2Proof.Machine.execTokenTake s
  | .tokenDone => Sys2Proof.Machine.execTokenDone s
  | .rsStart region full gen nonce => Sys2Proof.Machine.execRsStart region full gen nonce s
  | .rsChunk chunk tile zero staged pmap tag data => Sys2Proof.Machine.execRsChunk chunk tile zero staged pmap tag data s
  | .rsChunkCommit chunk => Sys2Proof.Machine.execRsChunkCommit chunk s
  | .rsRes chunk res => Sys2Proof.Machine.execRsRes chunk res s
  | .rsSuspect tiles => Sys2Proof.Machine.execRsSuspect tiles s
  | .rsEnd region last => Sys2Proof.Machine.execRsEnd region last s
  | .carIdleTo => Sys2Proof.Machine.execCarIdleTo s
  | .carRspTo => Sys2Proof.Machine.execCarRspTo s
  | .mcmdTimeout => Sys2Proof.Machine.execMcmdTimeout s
  | .repairTimeout tag => Sys2Proof.Machine.execRepairTimeout tag s
  | .flitReplayLimit => Sys2Proof.Machine.execFlitReplayLimit s
  | .aliveTimeout => Sys2Proof.Machine.execAliveTimeout s
  | .caravanSignalLoss => Sys2Proof.Machine.execCaravanSignalLoss s
  | .failoverSettle => Sys2Proof.Machine.execFailoverSettle s
  | .failoverWindowEnd => Sys2Proof.Machine.execFailoverWindowEnd s
  | .side1TokenWait => Sys2Proof.Machine.execSide1TokenWait s
  | .twinTokenChange high => Sys2Proof.Machine.execTwinTokenChange high s
  | .aliveToggle => Sys2Proof.Machine.execAliveToggle s
  | .hbSend => Sys2Proof.Machine.execHbSend s
  | .caravanLinkUp => Sys2Proof.Machine.execCaravanLinkUp s
  | .caravanTrainRetry => Sys2Proof.Machine.execCaravanTrainRetry s
  | .roleDecision => Sys2Proof.Machine.execRoleDecision s
  | .admitPair port => Sys2Proof.Machine.execAdmitPair port s
  | .admitSolo port => Sys2Proof.Machine.execAdmitSolo port s
  | .admitKeep port side => Sys2Proof.Machine.execAdmitKeep port side s
  | .detach port side => Sys2Proof.Machine.execDetach port side s
  | .carRetrain path => Sys2Proof.Machine.execCarRetrain path s
  | .carCntClr path v => Sys2Proof.Machine.execCarCntClr path v s
  | .perstNAssert port => Sys2Proof.Machine.execPerstNAssert port s
  | .perstNRelease port => Sys2Proof.Machine.execPerstNRelease port s
  | .hostLinkUp port width rate flit256 lopt => Sys2Proof.Machine.execHostLinkUp port width rate flit256 lopt s
  | .hostLinkDown port => Sys2Proof.Machine.execHostLinkDown port s
  | .ideIntegrityFailure port mem => Sys2Proof.Machine.execIdeIntegrityFailure port mem s
  | .ideKm port session mem msg => Sys2Proof.Machine.execIdeKm port session mem msg s
  | .spdmRequest port req => Sys2Proof.Machine.execSpdmRequest port req s
  | .getEventRecords port log => Sys2Proof.Machine.execGetEventRecords port log s
  | .clearEventRecords port log count => Sys2Proof.Machine.execClearEventRecords port log count s
  | .getEventInterruptPolicy port => Sys2Proof.Machine.execGetEventInterruptPolicy port s
  | .setEventInterruptPolicy port v => Sys2Proof.Machine.execSetEventInterruptPolicy port v s
  | .getFwInfo port => Sys2Proof.Machine.execGetFwInfo port s
  | .transferFw port part first last => Sys2Proof.Machine.execTransferFw port part first last s
  | .activateFw port => Sys2Proof.Machine.execActivateFw port s
  | .getTimestamp port => Sys2Proof.Machine.execGetTimestamp port s
  | .setTimestamp port ns => Sys2Proof.Machine.execSetTimestamp port ns s
  | .getSupportedLogs port => Sys2Proof.Machine.execGetSupportedLogs port s
  | .getLog port effects => Sys2Proof.Machine.execGetLog port effects s
  | .identifyMemoryDevice port => Sys2Proof.Machine.execIdentifyMemoryDevice port s
  | .getHealthInfo port => Sys2Proof.Machine.execGetHealthInfo port s
  | .getAlertConfiguration port => Sys2Proof.Machine.execGetAlertConfiguration port s
  | .setAlertConfiguration port v => Sys2Proof.Machine.execSetAlertConfiguration port v s
  | .getShutdownState port => Sys2Proof.Machine.execGetShutdownState port s
  | .setShutdownState port clean => Sys2Proof.Machine.execSetShutdownState port clean s
  | .getPoisonList port first count => Sys2Proof.Machine.execGetPoisonList port first count s
  | .injectPoison port line => Sys2Proof.Machine.execInjectPoison port line s
  | .clearPoison port line d => Sys2Proof.Machine.execClearPoison port line d s
  | .getScanMediaCapabilities port first count => Sys2Proof.Machine.execGetScanMediaCapabilities port first count s
  | .scanMedia port first count bad => Sys2Proof.Machine.execScanMedia port first count bad s
  | .getScanMediaResults port => Sys2Proof.Machine.execGetScanMediaResults port s
  | .sanitize port => Sys2Proof.Machine.execSanitize port s
  | .secureErase port => Sys2Proof.Machine.execSecureErase port s
  | .getDcConfiguration port => Sys2Proof.Machine.execGetDcConfiguration port s
  | .getDcExtentList port => Sys2Proof.Machine.execGetDcExtentList port s
  | .addDcResponse port exts => Sys2Proof.Machine.execAddDcResponse port exts s
  | .releaseDc port exts => Sys2Proof.Machine.execReleaseDc port exts s
  | .unsupportedOpcode port opcode => Sys2Proof.Machine.execUnsupportedOpcode port opcode s
  | .getLatencyReport port clear => Sys2Proof.Machine.execGetLatencyReport port clear s
  | .regionSet port n a => Sys2Proof.Machine.execRegionSet port n a s
  | .contextSet port n en epoch tenant => Sys2Proof.Machine.execContextSet port n en epoch tenant s
  | .regionEnable port n => Sys2Proof.Machine.execRegionEnable port n s
  | .regionDisable port n => Sys2Proof.Machine.execRegionDisable port n s
  | .regionDisableForce port n => Sys2Proof.Machine.execRegionDisableForce port n s
  | .regionDisableTimeout n => Sys2Proof.Machine.execRegionDisableTimeout n s
  | .regionQuery port n => Sys2Proof.Machine.execRegionQuery port n s
  | .contextPrepare port label => Sys2Proof.Machine.execContextPrepare port label s
  | .rekey port n => Sys2Proof.Machine.execRekey port n s
  | .rekeyErase port n => Sys2Proof.Machine.execRekeyErase port n s
  | .discard port first count => Sys2Proof.Machine.execDiscard port first count s
  | .secureDiscardAccept id => Sys2Proof.Machine.execSecureDiscardAccept id s
  | .getReportCard port => Sys2Proof.Machine.execGetReportCard port s
  | .setReadWrite port => Sys2Proof.Machine.execSetReadWrite port s
  | .portRoleSet port r => Sys2Proof.Machine.execPortRoleSet port r s
  | .lifecycleSet port target => Sys2Proof.Machine.execLifecycleSet port target s
  | .loadTransferKey port k => Sys2Proof.Machine.execLoadTransferKey port k s
  | .loadPairKey port session key => Sys2Proof.Machine.execLoadPairKey port session key s
  | .streamOpen port window imp slot tag first count => Sys2Proof.Machine.execStreamOpen port window imp slot tag first count s
  | .streamRun port handle => Sys2Proof.Machine.execStreamRun port handle s
  | .streamSave port handle wrapped => Sys2Proof.Machine.execStreamSave port handle wrapped s
  | .streamRestore port rec => Sys2Proof.Machine.execStreamRestore port rec s
  | .streamAbort port handle => Sys2Proof.Machine.execStreamAbort port handle s
  | .rollBookRead port first count => Sys2Proof.Machine.execRollBookRead port first count s
  | .rollBookArchiveAndClear port last => Sys2Proof.Machine.execRollBookArchiveAndClear port last s
  | .parameterRead port addr count => Sys2Proof.Machine.execParameterRead port addr count s
  | .parameterWrite port addr words => Sys2Proof.Machine.execParameterWrite port addr words s
  | .hpRetrain path port => Sys2Proof.Machine.execHpRetrain path port s
  | .hpCntClr path port v => Sys2Proof.Machine.execHpCntClr path port v s
  | .hpBwWinWrite path port v => Sys2Proof.Machine.execHpBwWinWrite path port v s
  | .bandwidthWindowEnd port => Sys2Proof.Machine.execBandwidthWindowEnd port s
  | .dramTraining ch ok popOk => Sys2Proof.Machine.execDramTraining ch ok popOk s
  | .dramRefresh group bank => Sys2Proof.Machine.execDramRefresh group bank s
  | .mr4Poll ch code hot oor => Sys2Proof.Machine.execMr4Poll ch code hot oor s
  | .dramScrubWord ch res area last => Sys2Proof.Machine.execDramScrubWord ch res area last s
  | .dcCntClr ch path v => Sys2Proof.Machine.execDcCntClr ch path v s
  | .modEnRise => Sys2Proof.Machine.execModEnRise s
  | .modEnFall => Sys2Proof.Machine.execModEnFall s
  | .psqOn path => Sys2Proof.Machine.execPsqOn path s
  | .psqOff path => Sys2Proof.Machine.execPsqOff path s
  | .psqClrLock path => Sys2Proof.Machine.execPsqClrLock path s
  | .inputFail => Sys2Proof.Machine.execInputFail s
  | .inputGood => Sys2Proof.Machine.execInputGood s
  | .powerUpStart => Sys2Proof.Machine.execPowerUpStart s
  | .dischWaitTimeout => Sys2Proof.Machine.execDischWaitTimeout s
  | .railEnableDelay => Sys2Proof.Machine.execRailEnableDelay s
  | .railPowerGood kat => Sys2Proof.Machine.execRailPowerGood kat s
  | .pgTimeout => Sys2Proof.Machine.execPgTimeout s
  | .railDischarged => Sys2Proof.Machine.execRailDischarged s
  | .disTimeout => Sys2Proof.Machine.execDisTimeout s
  | .minOffEnd => Sys2Proof.Machine.execMinOffEnd s
  | .railPgFall pg => Sys2Proof.Machine.execRailPgFall pg s
  | .marginApply path entry off lvl => Sys2Proof.Machine.execMarginApply path entry off lvl s
  | .marginStop path => Sys2Proof.Machine.execMarginStop path s
  | .marginTimeout => Sys2Proof.Machine.execMarginTimeout s
  | .pmbusTransactionDone ok data => Sys2Proof.Machine.execPmbusTransactionDone ok data s
  | .cisternAverage sum => Sys2Proof.Machine.execCisternAverage sum s
  | .budgetCompute => Sys2Proof.Machine.execBudgetCompute s
  | .cisTest path => Sys2Proof.Machine.execCisTest path s
  | .cisChargeDeadline timeout => Sys2Proof.Machine.execCisChargeDeadline timeout s
  | .cisTestInterval => Sys2Proof.Machine.execCisTestInterval s
  | .cisTestDeferRetry => Sys2Proof.Machine.execCisTestDeferRetry s
  | .cisTestRepeat => Sys2Proof.Machine.execCisTestRepeat s
  | .capTestStep => Sys2Proof.Machine.execCapTestStep s
  | .drainStepDone => Sys2Proof.Machine.execDrainStepDone s
  | .thermalDrainLimit => Sys2Proof.Machine.execThermalDrainLimit s
  | .shutdownStepDone => Sys2Proof.Machine.execShutdownStepDone s
  | .psqCntClr path v => Sys2Proof.Machine.execPsqCntClr path v s
  | .cisCntClr path v => Sys2Proof.Machine.execCisCntClr path v s
  | .housekeepingReading ch raw => Sys2Proof.Machine.execHousekeepingReading ch raw s
  | .throttleLevelFall => Sys2Proof.Machine.execThrottleLevelFall s
  | .rorArm => Sys2Proof.Machine.execRorArm s
  | .restartHoldRelease => Sys2Proof.Machine.execRestartHoldRelease s
  | .hkReadmit path v => Sys2Proof.Machine.execHkReadmit path v s
  | .hkCntClr path v => Sys2Proof.Machine.execHkCntClr path v s
  | .operatingSecond => Sys2Proof.Machine.execOperatingSecond s
  | .pstProgramDone readBack auxMv capMv => Sys2Proof.Machine.execPstProgramDone readBack auxMv capMv s
  | .pstEraseDone auxMv capMv => Sys2Proof.Machine.execPstEraseDone auxMv capMv s
  | .pstSupplyRetry auxMv capMv => Sys2Proof.Machine.execPstSupplyRetry auxMv capMv s
  | .pstSupplyAbandon => Sys2Proof.Machine.execPstSupplyAbandon s
  | .pstWriteRerequest => Sys2Proof.Machine.execPstWriteRerequest s
  | .pstWinRead path k => Sys2Proof.Machine.execPstWinRead path k s
  | .pstWinWrite path k w => Sys2Proof.Machine.execPstWinWrite path k w s
  | .pstErase path => Sys2Proof.Machine.execPstErase path s
  | .pstLoad path num => Sys2Proof.Machine.execPstLoad path num s
  | .pstCommit path num => Sys2Proof.Machine.execPstCommit path num s
  | .pstPatrolRow weak => Sys2Proof.Machine.execPstPatrolRow weak s
  | .pstCntClr path v => Sys2Proof.Machine.execPstCntClr path v s
  | .rollBookRecordWrite bad => Sys2Proof.Machine.execRollBookRecordWrite bad s
  | .rbRecRead path k => Sys2Proof.Machine.execRbRecRead path k s
  | .rbCntClr path v => Sys2Proof.Machine.execRbCntClr path v s
  | .faultRaise fs => Sys2Proof.Machine.execFaultRaise fs s
  | .wireFault src => Sys2Proof.Machine.execWireFault src s
  | .faultWordPoll src => Sys2Proof.Machine.execFaultWordPoll src s
  | .fltForceGo page path sev sub => Sys2Proof.Machine.execFltForceGo page path sev sub s
  | .fltForceWire page path sub => Sys2Proof.Machine.execFltForceWire page path sub s
  | .escalationTimeout src => Sys2Proof.Machine.execEscalationTimeout src s
  | .fcAck src => Sys2Proof.Machine.execFcAck src s
  | .fcResolve src => Sys2Proof.Machine.execFcResolve src s
  | .fcEsc src => Sys2Proof.Machine.execFcEsc src s
  | .fcRevoke holder => Sys2Proof.Machine.execFcRevoke holder s
  | .revocationDone bad => Sys2Proof.Machine.execRevocationDone bad s
  | .fcUnfence src => Sys2Proof.Machine.execFcUnfence src s
  | .fcProcBeat p => Sys2Proof.Machine.execFcProcBeat p s
  | .proctorBeatMissing p => Sys2Proof.Machine.execProctorBeatMissing p s
  | .revokeOverdue src => Sys2Proof.Machine.execRevokeOverdue src s
  | .fcFirstClr path => Sys2Proof.Machine.execFcFirstClr path s
  | .fcContainNow path => Sys2Proof.Machine.execFcContainNow path s
  | .fcDrainLimit => Sys2Proof.Machine.execFcDrainLimit s
  | .fcCntClr path v => Sys2Proof.Machine.execFcCntClr path v s
  | .mqPushLo q path v => Sys2Proof.Machine.execMqPushLo q path v s
  | .mqPushHi q path v ptr => Sys2Proof.Machine.execMqPushHi q path v ptr s
  | .mqPushHiEnd q path v ptr => Sys2Proof.Machine.execMqPushHiEnd q path v ptr s
  | .mqPopLo q path => Sys2Proof.Machine.execMqPopLo q path s
  | .mqPopHi q path ptr => Sys2Proof.Machine.execMqPopHi q path ptr s
  | .mqFlushDn q path => Sys2Proof.Machine.execMqFlushDn q path s
  | .mqFlushUp q path => Sys2Proof.Machine.execMqFlushUp q path s
  | .mqReset q path => Sys2Proof.Machine.execMqReset q path s
  | .mqCntClr q path v => Sys2Proof.Machine.execMqCntClr q path v s
  | .mqCommand q op => Sys2Proof.Machine.execMqCommand q op s
  | .mqReply q => Sys2Proof.Machine.execMqReply q s
  | .pcWinStart page path v => Sys2Proof.Machine.execPcWinStart page path v s
  | .pcWinStop page path v => Sys2Proof.Machine.execPcWinStop page path v s
  | .pcWinClr page path v => Sys2Proof.Machine.execPcWinClr page path v s
  | .pcWindowEnd page => Sys2Proof.Machine.execPcWindowEnd page s
  | .tstPcStart path => Sys2Proof.Machine.execTstPcStart path s
  | .tstPcStop path => Sys2Proof.Machine.execTstPcStop path s
  | .tstPhyCtlWrite path v => Sys2Proof.Machine.execTstPhyCtlWrite path v s
  | .tstPatStart path v => Sys2Proof.Machine.execTstPatStart path v s
  | .tstPatStop path counts => Sys2Proof.Machine.execTstPatStop path counts s
  | .tstPatInj path => Sys2Proof.Machine.execTstPatInj path s
  | .tstMargStart path v => Sys2Proof.Machine.execTstMargStart path v s
  | .tstMargStop path errs => Sys2Proof.Machine.execTstMargStop path errs s
  | .marginStepEnd errs => Sys2Proof.Machine.execMarginStepEnd errs s
  | .laneMarginCommand port lane cmd => Sys2Proof.Machine.execLaneMarginCommand port lane cmd s
  | .pcieLoopbackEntry port => Sys2Proof.Machine.execPcieLoopbackEntry port s
  | .jtagInstructionUpdate code kat => Sys2Proof.Machine.execJtagInstructionUpdate code kat s
  | .trstN kat => Sys2Proof.Machine.execTrstN kat s
  | .auxRise => Sys2Proof.Machine.execAuxRise s
  | .auxFall => Sys2Proof.Machine.execAuxFall s
  | .aonReady side cfg => Sys2Proof.Machine.execAonReady side cfg s
  | .configurationLoaded a b records => Sys2Proof.Machine.execConfigurationLoaded a b records s
  | .firmwareVerified directory ok0 ok1 => Sys2Proof.Machine.execFirmwareVerified directory ok0 ok1 s
  | .memoryActive => Sys2Proof.Machine.execMemoryActive s
  | .devRstNAssert => Sys2Proof.Machine.execDevRstNAssert s
  | .devRstNRelease kat => Sys2Proof.Machine.execDevRstNRelease kat s
  | .bootCtlReset path v => Sys2Proof.Machine.execBootCtlReset path v s
  | .registerResetExecute kat => Sys2Proof.Machine.execRegisterResetExecute kat s
  | .softRst page path => Sys2Proof.Machine.execSoftRst page path s
  | .lockSet page path => Sys2Proof.Machine.execLockSet page path s
  | .devLockAll path => Sys2Proof.Machine.execDevLockAll path s
  | .coreCntClr core path v => Sys2Proof.Machine.execCoreCntClr core path v s
  | .rtLateClr path v => Sys2Proof.Machine.execRtLateClr path v s
  | .rtMinClr path => Sys2Proof.Machine.execRtMinClr path s
  | .rtHeldClr path => Sys2Proof.Machine.execRtHeldClr path s
  | .rtLvlClr path => Sys2Proof.Machine.execRtLvlClr path s
  | .oobRead off n pec => Sys2Proof.Machine.execOobRead off n pec s
  | .oobWrite off v pec => Sys2Proof.Machine.execOobWrite off v pec s
  | .i3cDynamicAddress addr => Sys2Proof.Machine.execI3cDynamicAddress addr s
  | .i3cRstdaa => Sys2Proof.Machine.execI3cRstdaa s
  | .alertResponseRead pec => Sys2Proof.Machine.execAlertResponseRead pec s
  | .registerWrite path off v be => Sys2Proof.Machine.execRegisterWrite path off v be s
  | .twinAliveInEdge => Sys2Proof.Machine.execTwinAliveInEdge s
  | .caravanBadPacket => Sys2Proof.Machine.execCaravanBadPacket s
  | .resyncScan => Sys2Proof.Machine.execResyncScan s
  | .rotationCopy region die tutor => Sys2Proof.Machine.execRotationCopy region die tutor s
  | .secureDiscardRelocate id die => Sys2Proof.Machine.execSecureDiscardRelocate id die s
  | .mediaScrubRead r => Sys2Proof.Machine.execMediaScrubRead r s
  | .siroccoDeadlinePassed cls ms => Sys2Proof.Machine.execSiroccoDeadlinePassed cls ms s
  | .patternSyncGain lane => Sys2Proof.Machine.execPatternSyncGain lane s
  | .patternSyncLoss lane bits errs => Sys2Proof.Machine.execPatternSyncLoss lane bits errs s
  | .trainPatternEnd die => Sys2Proof.Machine.execTrainPatternEnd die s
  | .dramPhyLockLoss ch => Sys2Proof.Machine.execDramPhyLockLoss ch s
  | .dramWriteCrcError ch again => Sys2Proof.Machine.execDramWriteCrcError ch again s
  | .hdmDecoderCommit port k base size ways gran skip lock => Sys2Proof.Machine.execHdmDecoderCommit port k base size ways gran skip lock s
  | .powerStateChange port d3 => Sys2Proof.Machine.execPowerStateChange port d3 s
  | .splitValueLoRead path off => Sys2Proof.Machine.execSplitValueLoRead path off s

end Sys2Proof.Machine
end

