-- ==== Sys2Proof/Machine/Step.lean ====
section
/-! DEFINITION. One step of the block: the command at the front of the queue; with an empty queue a tick (notes/assumptions/2). -/

set_option autoImplicit false

namespace Sys2Proof.Machine

/-- A REFCLK edge with no command waiting (R45, R47): the tick counter counts while REFCLK is present and no reset holds it,
and the counters of performance events count it (R533). -/
def State.idle (s : State) : State :=
  if s.refclk && s.dom.aux && !s.boot.rstN then { s with tick := s.tick + 1 }.pcTicks else s

/-- Take the command at the front of the queue and run it on the queue's rest; with an empty queue, idle for one tick. -/
def step (s : State) : Host.Outcome State Fault Refusal :=
  match s.pending with
  | c :: rest => exec c { s with pending := rest }
  | [] => .next s.idle

/-- The state with the command that a word spells put at the front of its queue. -/
def State.withFetchWord (s : State) (nbits w : Nat) : State :=
  match Sys2Proof.decodeTableWord nbits w with
  | some c => { s with pending := c :: s.pending }
  | none => s

end Sys2Proof.Machine
end

