-- ==== Sys2Proof/Safety.lean ====
section
/-! DEFINITION. What counts as a safe run, in the terms the statements use: the domains of the block in a legal
combination, and the parts of the state that a command leaves alone. -/

set_option autoImplicit false

namespace Sys2Proof.Machine

/-- The domains in service are a legal combination (R34, R35, R550, R598): the AON domain is ready only while AUX_3V3 is valid,
the core domain is in service only while the AON domain is ready, and memory is active only while the core domain is in
service. -/
def DomSt.legal (d : DomSt) : Prop :=
  (d.memActive = true → d.coreUp = true) ∧ (d.coreUp = true → d.aon = true) ∧ (d.aon = true → d.aux = true)

/-- The state's domains are a legal combination. -/
def State.domainsLegal (s : State) : Prop := s.dom.legal

/-- A register that an event of any block may change: those of the fault collector and of the Roll book (pages 1 and 5), and, on
every page, FLT_STS, FLT_DETAIL and the performance counters with their OVF bits (R490, R501, R533). -/
def bookReg (o : Nat) : Bool :=
  pageOf o == 1 || pageOf o == 5 || o % 0x1000 == 0x20 || o % 0x1000 == 0x34 ||
    (decide (0x80 ≤ o % 0x1000) && decide (o % 0x1000 ≤ 0xC0))

/-- Every register but those of `bookReg` reads as in the other state. -/
def State.regsAre (t u : State) : Prop := ∀ o, bookReg o = false → t.rd o = u.rd o

/-- The block of registers that an offset lies in (R579, R580): 0 for the registers that every page has, 1 to 12 for pages 0
to 11, then the host ports, the DRAM channels, the media groups, the router, the media channels, the cores, the management
queues, the test page and the region page. -/
def regBlk (o : Nat) : Nat :=
  if o % 0x1000 < 0x100 then 0
  else if pageOf o ≤ 11 then pageOf o + 1
  else if pageOf o ≤ 19 then 13
  else if pageOf o ≤ 25 then 14
  else if pageOf o ≤ 30 then 15
  else if pageOf o = 31 then 16
  else if pageOf o ≤ 71 then 17
  else if pageOf o ≤ 99 then 18
  else if pageOf o ≤ 107 then 19
  else if pageOf o = 108 then 20
  else 21

/-- FLT_STS of the source's page holds the kind's bit: the source has raised a fault of the kind (R501, Table 17.3). -/
def State.fltSeen (s : State) (src kind : Nat) : Bool := s.bit ⟨R.FLT_STS (srcPage src).1, kind, 1⟩

/-- Every register of the lists whose condition holds reads 0, and every other register but those of `bookReg` reads as in the other
state. -/
def State.cleared (t s : State) (l : List (Bool × List Nat)) : Prop :=
  ∀ o, bookReg o = false → t.rd o = if l.any (fun x => x.1 && x.2.contains o) then 0 else s.rd o

/-- A die of a channel that has not failed it takes a command: the CRC-8 over the opcode and the argument bytes matches, and the
die's state is one of those named (R239, R240, Table 8.3). -/
def State.dieTakes (s : State) (d op : Nat) (args : List Nat) (crc : BitVec 8) (states : List Nat) : Prop :=
  (s.die d).failed = false ∧ crc.toNat = crc8 (op :: args) ∧ (s.mdie d).st ∈ states

/-- A host request of the port to the line reaches the request pipeline of this controller: the device state admits it, the port's
IDE requirement is met, the line lies in a region of the port that is not in transfer, and this controller owns the region
(R73, R87, R335, R383). -/
def State.reaches (s : State) (port : Fin 8) (line n : Nat) : Prop :=
  s.booting = false ∧ s.fenced = false ∧ s.ideOk port = true ∧ s.regionOf line = some n ∧
    s.get (F.RT_RG_CTL.PORT n) = port.val ∧ s.bit (F.RT_RG_CTL.XFER n) = false ∧ s.owns n = true

/-- Port p can give a command that only the manager may (R380, Table 12.4). -/
def State.managerMail (s : State) (p : Nat) : Prop := s.mail p = true ∧ s.role p = 2

/-- Port p can give a command that every assigned port may (R380, Table 12.4). -/
def State.hostMail (s : State) (p : Nat) : Prop := s.mail p = true ∧ s.role p ≠ 0

/-- A manager command that runs one at a time starts at once and is carried out on this controller alone (R334, R388). -/
def State.serialFree (s : State) (p : Nat) : Prop :=
  s.managerMail p ∧ s.hp.serial = none ∧ s.hp.serialQ = [] ∧ s.tw.cmds = [] ∧ s.twinUp = false

/-- The command of port p has been answered by its mailbox: return code, extended status and words (R380). -/
def State.replied (t : State) (p : Nat) (rc : Rc) (ext : Nat) (ws : List Nat) : Prop := Output.mailbox p rc ext ws ∈ t.out

end Sys2Proof.Machine
end

