-- ==== Sys2Proof/Footprint.lean ====
section
/-! DEFINITION. Which parts of the state each command may change: what the frame statements name. Every part that a command's list
does not hold is unchanged when the command answers a next state; the queue never changes, and the outputs and the free-value counter
may always go on. -/

set_option autoImplicit false

namespace Sys2Proof.Machine

/-- A part of the state: a field of State, or the registers of a block as `regBlk` numbers the blocks. -/
inductive Part where
  | tick | refclk | domains | opSecs | pst | rb | fc | rt | lc | te | ce | hp | tw | dc | media | mcTry | sir | hk | arch | psq | boot
  | mq | test
  | regs (block : Nat)
  deriving DecidableEq, Repr

/-- The part of s is the same in t. Registers of `bookReg` (the fault collector's, the Roll book's, FLT_STS, FLT_DETAIL and the
performance counters) are in no block. -/
def Part.kept (s t : State) : Part → Prop
  | .tick => t.tick = s.tick
  | .refclk => t.refclk = s.refclk
  | .domains => t.dom = s.dom
  | .opSecs => t.opSecs = s.opSecs
  | .pst => t.pst = s.pst
  | .rb => t.rb = s.rb
  | .fc => t.fc = s.fc
  | .rt => t.rt = s.rt
  | .lc => t.lc = s.lc
  | .te => t.te = s.te
  | .ce => t.ce = s.ce
  | .hp => t.hp = s.hp
  | .tw => t.tw = s.tw
  | .dc => t.dc = s.dc
  | .media => t.md = s.md
  | .mcTry => t.mcTry = s.mcTry
  | .sir => t.sir = s.sir
  | .hk => t.hk = s.hk
  | .arch => t.arch = s.arch
  | .psq => t.psq = s.psq
  | .boot => t.boot = s.boot
  | .mq => t.mq = s.mq
  | .test => t.tst = s.tst
  | .regs b => ∀ o, bookReg o = false → regBlk o = b → t.rd o = s.rd o

/-- The registers of every block. -/
def Part.registers : List Part := (List.range 22).map Part.regs

/-- The data path, the media and the upkeep of them (chapters 4–10, 13). -/
def Part.dataPath : List Part := [.rt, .lc, .te, .ce, .dc, .media, .mcTry, .sir]

/-- The host ports, the twin pair, the management queues, the fault collector, the Roll book and the parameter store (chapters 11, 12,
16–18). -/
def Part.service : List Part := [.hp, .tw, .mq, .fc, .rb, .pst]

/-- The time base, the domains, the power sequencer, the monitors, start-up and the test page (chapters 1, 14, 15, 18, 19). -/
def Part.aon : List Part := [.tick, .refclk, .domains, .opSecs, .hk, .arch, .psq, .boot, .test]

end Sys2Proof.Machine

open Sys2Proof.Machine

/-- The parts that a command may change. A command whose chapter lets it raise a fault or count an event holds the parts that do so
(R490, R501, R533); one that may end in a drain or a reset of the core domain (R426, R439, R514, R555) holds nearly every part. -/
def Sys2Proof.Instr.parts : Sys2Proof.Instr → List Part
  | .speedWindowEnd .. =>
    [.rb, .fc, .tw, .arch, .boot, .test, .regs 16]
  | .guardLevelReturn .. =>
    [.tw, .arch, .test, .regs 16]
  | .speedMonitorOdd .. =>
    [.rb, .fc, .boot, .test, .regs 4]
  | .governorEvaluation .. =>
    [.arch, .test, .regs 3]
  | .avsbusWriteDone .. =>
    [.rb, .fc, .arch, .boot, .test, .regs 3]
  | .tickCopyCompare .. | .faultRaise .. | .wireFault .. | .faultWordPoll .. | .fltForceGo .. | .fltForceWire ..
    | .proctorBeatMissing .. | .revokeOverdue .. =>
    [.rb, .fc, .boot, .test]
  | .refclkAbsent .. =>
    [.refclk, .rb, .fc, .ce, .tw, .boot, .test, .regs 12, .regs 13]
  | .refclkReturn .. =>
    [.refclk]
  | .memReadRequest .. | .heldMissDispatch .. | .mediaLineReceived .. | .memWriteRequest .. | .bpHoldExpiry ..
    | .lineEviction .. | .statusWordReceived .. | .lcEnClear .. | .walkerVisit .. | .mapRepairDone .. | .seqHwRaised ..
    | .readTimeout .. | .keyDerivationDone .. | .rotationRecordWritten .. | .importLineWrite .. | .importTrailer ..
    | .importChunkCommit .. | .down .. | .fwdRd .. | .fwdWr .. | .mwr .. | .mcmd .. | .mack .. | .mcmdAck .. | .repReq ..
    | .repRsp .. | .tokenTake .. | .rsChunkCommit .. | .repairTimeout .. | .failoverSettle .. | .failoverWindowEnd ..
    | .side1TokenWait .. | .roleDecision .. | .admitPair .. | .admitSolo .. | .admitKeep .. | .detach .. | .injectPoison ..
    | .clearPoison .. | .releaseDc .. | .regionSet .. | .contextSet .. | .regionEnable .. | .regionDisable ..
    | .regionDisableForce .. | .regionDisableTimeout .. | .contextPrepare .. | .rekey .. | .rekeyErase .. | .discard ..
    | .secureDiscardAccept .. | .portRoleSet .. | .lifecycleSet .. | .revocationDone .. =>
    [.pst, .rb, .fc, .rt, .lc, .te, .ce, .hp, .tw, .sir, .boot, .mq, .test, .regs 5, .regs 7, .regs 8, .regs 9, .regs 10,
     .regs 11, .regs 12, .regs 13, .regs 15, .regs 16, .regs 17, .regs 21]
  | .dramReadComplete .. =>
    [.pst, .rb, .fc, .rt, .lc, .te, .ce, .hp, .tw, .dc, .sir, .boot, .mq, .test, .regs 5, .regs 7, .regs 8, .regs 9, .regs 10,
     .regs 11, .regs 12, .regs 13, .regs 14, .regs 15, .regs 16, .regs 17, .regs 21]
  | .cipherRequestDone .. =>
    [.rb, .fc, .te, .ce, .hp, .boot, .mq, .test, .regs 7, .regs 10, .regs 13, .regs 21]
  | .gpfPhase1 .. =>
    [.rt]
  | .gpfPhase2 .. =>
    [.rt, .test, .regs 13]
  | .tileAgeLimit .. =>
    [.te, .regs 10]
  | .pageWaitExpiry .. | .pageProgramStart .. | .gcCopy .. | .wearLevelCopy .. | .rotationCopy .. | .secureDiscardRelocate .. =>
    [.pst, .rb, .te, .ce, .hp, .tw, .test, .regs 5, .regs 9, .regs 10, .regs 12, .regs 13, .regs 17]
  | .pageProgramIssue .. | .stripeCloseTimeout .. =>
    [.pst, .rb, .te, .ce, .hp, .tw, .test, .regs 5, .regs 9, .regs 10, .regs 12, .regs 13, .regs 15, .regs 17]
  | .tsFlush .. =>
    [.te, .test, .regs 10]
  | .tsCntClr .. =>
    [.test, .regs 10]
  | .lcEnSet .. =>
    [.rb, .lc, .test, .regs 8, .regs 10]
  | .safeDisable .. | .walkerTakeOperation .. =>
    [.lc, .test, .regs 8]
  | .rangeInvalidate .. | .rangeClean .. | .rangeCleanInv .. | .rangeLock .. | .rangeUnlock .. | .rangeZero .. =>
    [.lc, .hp, .mq, .test, .regs 8, .regs 13]
  | .lcCheckWalkDone .. =>
    [.rb, .fc, .rt, .lc, .tw, .boot, .test, .regs 8, .regs 10]
  | .lcCntClr .. =>
    [.test, .regs 8]
  | .mapcEnClear .. | .mapcInv .. | .mapcCntClr .. | .teCntClr .. | .teUpkCntClr .. =>
    [.test, .regs 9]
  | .mapcInvDone .. =>
    [.lc, .te, .regs 9]
  | .ptileConvert .. | .journalIntervalExpiry .. | .teFlush .. =>
    [.pst, .rb, .te, .hp, .tw, .test, .regs 5, .regs 9, .regs 10, .regs 12, .regs 13, .regs 17]
  | .teCkptAll .. =>
    [.te, .test, .regs 9]
  | .checkpointWrite .. =>
    [.pst, .rb, .te, .ce, .hp, .tw, .test, .regs 5, .regs 9, .regs 10, .regs 12, .regs 13]
  | .rebuild .. | .sanitize .. =>
    [.pst, .rb, .fc, .rt, .lc, .te, .ce, .hp, .tw, .sir, .boot, .mq, .test, .regs 1, .regs 5, .regs 7, .regs 8, .regs 9,
     .regs 10, .regs 11, .regs 12, .regs 13, .regs 15, .regs 16, .regs 17, .regs 21]
  | .verifyEligible .. =>
    [.te]
  | .pageVerify .. | .unrequestedRecovery .. =>
    [.pst, .rb, .fc, .te, .ce, .hp, .tw, .sir, .boot, .test, .regs 5, .regs 7, .regs 9, .regs 10, .regs 11, .regs 12, .regs 13,
     .regs 15, .regs 17, .regs 21]
  | .blockErase .. =>
    [.te, .test, .regs 17]
  | .spareRecompute .. =>
    [.rb, .fc, .te, .hp, .tw, .boot, .test, .regs 9, .regs 12, .regs 13]
  | .retiredDieTileWork .. =>
    [.pst, .rb, .te, .ce, .hp, .tw, .test, .regs 5, .regs 7, .regs 9, .regs 10, .regs 12, .regs 13, .regs 15, .regs 17, .regs 21]
  | .mgObpCntClr .. | .mgCwEncode .. | .mgCwDecode .. | .mgCdcCntClr .. =>
    [.test, .regs 15]
  | .channelTraining .. =>
    [.pst, .rb, .fc, .rt, .lc, .te, .ce, .hp, .tw, .media, .mcTry, .sir, .boot, .mq, .test, .regs 5, .regs 7, .regs 8, .regs 9,
     .regs 10, .regs 11, .regs 12, .regs 13, .regs 15, .regs 16, .regs 17, .regs 21]
  | .readyRoundReport .. | .hbSend .. | .caravanTrainRetry .. | .rbCntClr .. | .fcFirstClr .. | .fcCntClr .. | .pcWinStart ..
    | .pcWinStop .. | .pcWinClr .. | .tstPcStart .. | .tstPcStop .. | .tstPatInj .. | .laneMarginCommand .. =>
    [.test]
  | .trackInterval .. =>
    [.te, .test]
  | .suspendWarn .. =>
    [.rb, .te, .test]
  | .mcRetrain .. =>
    [.te, .media, .mcTry, .test, .regs 15, .regs 17]
  | .mcPatStart .. | .mcPatStop .. =>
    [.media, .test, .regs 17]
  | .mcCntClr .. =>
    [.test, .regs 17]
  | .readLine .. | .progSetup .. | .dataIn .. | .progConfirm .. | .progCancel .. | .erase .. | .suspend .. | .resume ..
    | .featureSet .. | .refAdj .. | .sync .. | .lineSensed .. | .suspensionPointReached .. | .dieResetDone ..
    | .trainPatternEnd .. =>
    [.media]
  | .sendH .. | .sendB .. | .status .. | .featureGet .. | .train .. =>
    [.media, .test]
  | .reset .. | .rstN .. | .operationEnds .. =>
    [.te, .media]
  | .driftClockSecond .. | .dramLedgerEntry .. | .blockAgeRecompute .. =>
    [.sir]
  | .ageLedgerEntry .. | .pstSupplyRetry .. | .pstWriteRerequest .. | .pstWinWrite .. | .pstErase .. | .pstCommit .. =>
    [.pst, .test, .regs 5]
  | .referenceSetLoad .. =>
    [.media, .sir, .test, .regs 15]
  | .readReferenceTracking .. =>
    [.rb, .te, .sir, .test, .regs 11, .regs 15, .regs 17]
  | .ageSweep .. =>
    [.pst, .rb, .te, .sir, .test, .regs 5, .regs 11, .regs 17]
  | .driftRefresh .. =>
    [.pst, .rb, .te, .ce, .hp, .tw, .sir, .test, .regs 5, .regs 9, .regs 10, .regs 11, .regs 12, .regs 13, .regs 17]
  | .scrubPass .. | .sramPatrolPass .. =>
    [.rb, .sir, .test, .regs 11]
  | .sramPatrolWord .. =>
    [.pst, .rb, .fc, .rt, .lc, .te, .ce, .hp, .tw, .sir, .boot, .mq, .test, .regs 5, .regs 7, .regs 8, .regs 9, .regs 10,
     .regs 11, .regs 12, .regs 13, .regs 15, .regs 16, .regs 17, .regs 18, .regs 21]
  | .sirChkWrite .. | .sirChkRead .. =>
    [.lc, .test, .regs 11]
  | .sirChkEnd .. =>
    [.rb, .lc, .test, .regs 8, .regs 9, .regs 10, .regs 11]
  | .sirLagClr .. | .sirCntClr .. =>
    [.test, .regs 11]
  | .slotFreed .. | .entropyRetry .. =>
    [.ce, .regs 7]
  | .entropyHealthTest .. | .drbgReseed .. =>
    [.rb, .fc, .ce, .boot, .test, .regs 7]
  | .exportChunkProduce .. =>
    [.te, .ce, .test, .regs 7, .regs 10, .regs 17]
  | .katRun .. =>
    [.ce, .test, .regs 7]
  | .ceCntClr .. =>
    [.test, .regs 7]
  | .hello .. | .carIdleTo .. | .carRspTo .. | .mcmdTimeout .. | .flitReplayLimit .. | .aliveTimeout .. | .caravanSignalLoss ..
    | .caravanBadPacket .. =>
    [.rb, .ce, .tw, .test, .regs 12]
  | .proof .. =>
    [.rb, .fc, .ce, .tw, .test, .regs 12]
  | .hb .. | .rsSuspect .. =>
    [.fc, .tw, .test, .regs 12]
  | .crd .. | .tokenOffer .. | .aliveToggle .. =>
    [.tw, .test]
  | .fwdRsp .. | .fwdCmp .. =>
    [.rb, .fc, .rt, .hp, .tw, .boot, .mq, .test, .regs 13, .regs 16]
  | .tokenDone .. | .twinTokenChange .. | .carRetrain .. =>
    [.tw, .test, .regs 12]
  | .rsStart .. =>
    [.fc, .ce, .tw, .test, .regs 7, .regs 12]
  | .rsChunk .. =>
    [.ce, .tw, .test]
  | .rsRes .. | .rsEnd .. =>
    [.pst, .fc, .ce, .tw, .test, .regs 5, .regs 12]
  | .caravanLinkUp .. =>
    [.rb, .rt, .tw, .test, .regs 10, .regs 12]
  | .carCntClr .. =>
    [.test, .regs 12]
  | .perstNAssert .. =>
    [.rb, .fc, .rt, .hp, .test, .regs 0, .regs 9, .regs 13]
  | .perstNRelease .. =>
    [.rt, .hp, .regs 10]
  | .hostLinkUp .. =>
    [.rb, .hp, .test, .regs 13]
  | .hostLinkDown .. | .hpRetrain .. | .pcieLoopbackEntry .. =>
    [.rb, .test, .regs 13]
  | .ideIntegrityFailure .. =>
    [.rb, .fc, .boot, .test, .regs 13]
  | .ideKm .. | .hpBwWinWrite .. =>
    [.hp, .test, .regs 13]
  | .spdmRequest .. | .hdmDecoderCommit .. =>
    [.hp, .test]
  | .getEventRecords .. | .getEventInterruptPolicy .. | .getFwInfo .. | .getTimestamp .. | .getSupportedLogs .. | .getLog ..
    | .identifyMemoryDevice .. | .getHealthInfo .. | .getAlertConfiguration .. | .getShutdownState .. | .getPoisonList ..
    | .getScanMediaCapabilities .. | .getScanMediaResults .. | .getDcConfiguration .. | .getDcExtentList ..
    | .unsupportedOpcode .. | .regionQuery .. | .getReportCard .. | .rollBookRead .. | .parameterRead .. =>
    [.mq, .test, .regs 13]
  | .clearEventRecords .. | .setEventInterruptPolicy .. | .transferFw .. | .activateFw .. | .setAlertConfiguration .. =>
    [.hp, .mq, .test, .regs 13]
  | .setTimestamp .. =>
    [.pst, .rb, .te, .hp, .sir, .mq, .test, .regs 5, .regs 11, .regs 13]
  | .setShutdownState .. | .parameterWrite .. =>
    [.pst, .mq, .test, .regs 5, .regs 13]
  | .scanMedia .. =>
    [.hp, .sir, .mq, .test, .regs 13]
  | .secureErase .. | .loadPairKey .. =>
    [.pst, .ce, .mq, .test, .regs 5, .regs 7, .regs 13]
  | .addDcResponse .. =>
    [.pst, .hp, .mq, .test, .regs 5, .regs 13]
  | .getLatencyReport .. =>
    [.mq, .test, .regs 13, .regs 16]
  | .setReadWrite .. =>
    [.te, .mq, .test, .regs 13]
  | .loadTransferKey .. | .streamOpen .. =>
    [.rb, .ce, .mq, .test, .regs 7, .regs 13]
  | .streamRun .. | .streamSave .. | .streamRestore .. =>
    [.ce, .hp, .mq, .test, .regs 13, .regs 21]
  | .streamAbort .. =>
    [.rb, .te, .ce, .hp, .mq, .test, .regs 7, .regs 10, .regs 13, .regs 21]
  | .rollBookArchiveAndClear .. | .pstEraseDone .. =>
    [.pst, .rb, .hp, .mq, .test, .regs 5, .regs 13]
  | .hpCntClr .. =>
    [.test, .regs 13]
  | .bandwidthWindowEnd .. =>
    [.hp, .regs 13]
  | .dramTraining .. =>
    [.pst, .rb, .fc, .te, .hp, .dc, .boot, .test, .regs 1, .regs 5, .regs 9, .regs 10, .regs 13, .regs 14]
  | .dramRefresh .. =>
    [.dc, .test]
  | .mr4Poll .. =>
    [.rb, .fc, .hp, .tw, .dc, .hk, .boot, .test, .regs 4, .regs 13, .regs 14, .regs 16]
  | .dramScrubWord .. =>
    [.pst, .rb, .fc, .te, .ce, .hp, .tw, .dc, .sir, .boot, .test, .regs 5, .regs 9, .regs 10, .regs 12, .regs 13, .regs 14,
     .regs 15, .regs 17]
  | .dcCntClr .. =>
    [.test, .regs 14]
  | .modEnRise .. | .psqOn .. | .psqClrLock .. | .inputGood .. | .powerUpStart .. | .minOffEnd .. | .restartHoldRelease .. =>
    [.pst, .rb, .tw, .arch, .psq, .test, .regs 3, .regs 4, .regs 5, .regs 16]
  | .modEnFall .. | .psqOff .. | .inputFail .. | .railPowerGood .. | .pgTimeout .. | .railPgFall .. | .cisternAverage ..
    | .drainStepDone .. | .thermalDrainLimit .. | .shutdownStepDone .. | .housekeepingReading .. | .escalationTimeout ..
    | .fcEsc .. | .fcContainNow .. | .fcDrainLimit .. | .oobWrite .. =>
    [.domains, .pst, .rb, .fc, .rt, .lc, .te, .ce, .hp, .tw, .dc, .media, .mcTry, .sir, .hk, .arch, .psq, .boot, .mq, .test,
     .regs 0, .regs 1, .regs 2, .regs 3, .regs 4, .regs 5, .regs 6, .regs 7, .regs 8, .regs 9, .regs 10, .regs 11, .regs 12,
     .regs 13, .regs 14, .regs 15, .regs 16, .regs 17, .regs 18, .regs 19, .regs 20, .regs 21]
  | .dischWaitTimeout .. | .railDischarged .. =>
    [.rb, .psq, .test, .regs 3]
  | .railEnableDelay .. | .cisTest .. | .cisChargeDeadline .. | .cisTestInterval .. | .cisTestDeferRetry .. | .cisTestRepeat .. =>
    [.psq, .test, .regs 3]
  | .disTimeout .. | .pmbusTransactionDone .. =>
    [.rb, .fc, .psq, .boot, .test, .regs 3]
  | .marginApply .. | .marginStop .. | .marginTimeout .. =>
    [.tw, .arch, .psq, .test, .regs 3, .regs 16]
  | .budgetCompute .. =>
    [.pst, .rb, .fc, .rt, .lc, .te, .ce, .hp, .tw, .sir, .boot, .mq, .test, .regs 3, .regs 5, .regs 7, .regs 8, .regs 9,
     .regs 10, .regs 11, .regs 12, .regs 13, .regs 15, .regs 16, .regs 17, .regs 21]
  | .capTestStep .. =>
    [.pst, .rb, .fc, .hp, .psq, .boot, .test, .regs 3, .regs 5, .regs 13]
  | .psqCntClr .. | .cisCntClr .. =>
    [.test, .regs 3]
  | .throttleLevelFall .. =>
    [.rb, .hp, .tw, .hk, .test, .regs 4, .regs 13, .regs 16]
  | .rorArm .. =>
    [.hk, .regs 4]
  | .hkReadmit .. =>
    [.hk, .test, .regs 4]
  | .hkCntClr .. =>
    [.test, .regs 4]
  | .operatingSecond .. =>
    [.opSecs, .pst, .hk, .test, .regs 4, .regs 5]
  | .pstProgramDone .. =>
    [.pst, .rb, .fc, .hp, .boot, .mq, .test, .regs 5, .regs 13]
  | .pstSupplyAbandon .. | .rollBookRecordWrite .. =>
    [.pst, .rb, .fc, .boot, .test, .regs 5]
  | .pstWinRead .. | .rbRecRead .. =>
    [.pst, .test]
  | .pstLoad .. | .pstCntClr .. =>
    [.test, .regs 5]
  | .pstPatrolRow .. =>
    [.pst, .rb, .test, .regs 5]
  | .fcAck .. | .fcRevoke .. | .fcProcBeat .. =>
    [.fc]
  | .fcResolve .. =>
    [.fc, .boot, .test]
  | .fcUnfence .. =>
    [.fc, .regs 18]
  | .mqPushLo .. =>
    [.mq, .test]
  | .mqPushHi .. | .mqPushHiEnd .. | .mqPopHi .. =>
    [.rb, .fc, .boot, .mq, .test, .regs 19]
  | .mqPopLo .. =>
    [.mq, .test, .regs 19]
  | .mqFlushDn .. | .mqFlushUp .. | .mqReset .. | .mqReply .. =>
    [.boot, .mq, .test, .regs 19]
  | .mqCntClr .. =>
    [.test, .regs 19]
  | .mqCommand .. =>
    [.pst, .rb, .fc, .rt, .lc, .te, .ce, .hp, .tw, .sir, .boot, .mq, .test, .regs 1, .regs 5, .regs 7, .regs 8, .regs 9,
     .regs 10, .regs 11, .regs 12, .regs 13, .regs 15, .regs 16, .regs 17, .regs 19, .regs 21]
  | .pcWindowEnd .. =>
    []
  | .tstPhyCtlWrite .. =>
    [.rb, .ce, .tw, .test, .regs 12, .regs 20]
  | .tstPatStart .. | .tstPatStop .. | .tstMargStart .. | .tstMargStop .. | .marginStepEnd .. | .patternSyncLoss .. =>
    [.test, .regs 20]
  | .jtagInstructionUpdate .. | .trstN .. | .devRstNAssert .. | .registerResetExecute .. =>
    [.tick, .domains, .pst, .rb, .fc, .rt, .lc, .te, .ce, .hp, .tw, .dc, .media, .mcTry, .sir, .hk, .arch, .psq, .boot, .mq,
     .test, .regs 0, .regs 1, .regs 2, .regs 3, .regs 4, .regs 5, .regs 6, .regs 7, .regs 8, .regs 9, .regs 10, .regs 11,
     .regs 12, .regs 13, .regs 14, .regs 15, .regs 16, .regs 17, .regs 18, .regs 19, .regs 20, .regs 21]
  | .auxRise .. =>
    [.domains]
  | .auxFall .. =>
    [.tick, .domains, .opSecs, .pst, .rb, .fc, .rt, .lc, .te, .ce, .hp, .tw, .dc, .media, .mcTry, .sir, .hk, .arch, .psq,
     .boot, .mq, .test, .regs 0, .regs 1, .regs 2, .regs 3, .regs 4, .regs 5, .regs 6, .regs 7, .regs 8, .regs 9, .regs 10,
     .regs 11, .regs 12, .regs 13, .regs 14, .regs 15, .regs 16, .regs 17, .regs 18, .regs 19, .regs 20, .regs 21]
  | .aonReady .. =>
    [.domains, .pst, .rb, .hp, .tw, .hk, .arch, .psq, .boot, .test, .regs 0, .regs 1, .regs 2, .regs 3, .regs 4, .regs 5,
     .regs 6, .regs 7, .regs 8, .regs 9, .regs 10, .regs 11, .regs 12, .regs 13, .regs 14, .regs 15, .regs 16, .regs 17,
     .regs 18, .regs 19, .regs 20, .regs 21]
  | .configurationLoaded .. =>
    [.rb, .rt, .te, .ce, .hp, .media, .sir, .arch, .boot, .test, .regs 0, .regs 1, .regs 2, .regs 3, .regs 4, .regs 5, .regs 6,
     .regs 7, .regs 8, .regs 9, .regs 10, .regs 11, .regs 12, .regs 13, .regs 14, .regs 15, .regs 16, .regs 17, .regs 18,
     .regs 19, .regs 20, .regs 21]
  | .firmwareVerified .. =>
    [.pst, .rb, .te, .hp, .boot, .test, .regs 1, .regs 5, .regs 9, .regs 10, .regs 13, .regs 18]
  | .memoryActive .. =>
    [.domains, .pst, .rb, .fc, .rt, .lc, .te, .ce, .hp, .tw, .sir, .boot, .mq, .test, .regs 0, .regs 1, .regs 2, .regs 3,
     .regs 4, .regs 5, .regs 6, .regs 7, .regs 8, .regs 9, .regs 10, .regs 11, .regs 12, .regs 13, .regs 14, .regs 15,
     .regs 16, .regs 17, .regs 18, .regs 19, .regs 20, .regs 21]
  | .devRstNRelease .. =>
    [.domains, .pst, .rb, .fc, .ce, .hp, .tw, .sir, .boot, .test, .regs 1, .regs 3, .regs 5, .regs 7, .regs 8, .regs 9,
     .regs 12, .regs 13, .regs 16]
  | .bootCtlReset .. =>
    [.tw, .boot, .test, .regs 12]
  | .softRst .. | .registerWrite .. =>
    [.pst, .rb, .fc, .rt, .lc, .te, .ce, .hp, .tw, .sir, .boot, .mq, .test, .regs 0, .regs 1, .regs 2, .regs 3, .regs 4,
     .regs 5, .regs 6, .regs 7, .regs 8, .regs 9, .regs 10, .regs 11, .regs 12, .regs 13, .regs 14, .regs 15, .regs 16,
     .regs 17, .regs 18, .regs 19, .regs 20, .regs 21]
  | .lockSet .. | .devLockAll .. =>
    [.test, .regs 0, .regs 1, .regs 2, .regs 3, .regs 4, .regs 5, .regs 6, .regs 7, .regs 8, .regs 9, .regs 10, .regs 11,
     .regs 12, .regs 13, .regs 14, .regs 15, .regs 16, .regs 17, .regs 18, .regs 19, .regs 20, .regs 21]
  | .coreCntClr .. =>
    [.test, .regs 18]
  | .rtLateClr .. | .rtMinClr .. | .rtHeldClr .. | .rtLvlClr .. =>
    [.test, .regs 16]
  | .oobRead .. =>
    [.pst, .rb, .fc, .boot, .mq, .test, .regs 19]
  | .i3cDynamicAddress .. | .i3cRstdaa .. | .alertResponseRead .. | .splitValueLoRead .. =>
    [.boot, .test]
  | .twinAliveInEdge .. =>
    [.regs 12]
  | .resyncScan .. =>
    [.pst, .fc, .ce, .tw, .test, .regs 5, .regs 7, .regs 12, .regs 17]
  | .mediaScrubRead .. =>
    [.pst, .rb, .te, .ce, .hp, .tw, .sir, .test, .regs 5, .regs 9, .regs 10, .regs 11, .regs 12, .regs 13, .regs 15, .regs 17]
  | .siroccoDeadlinePassed .. =>
    [.rb, .test, .regs 11]
  | .patternSyncGain .. =>
    [.test, .regs 17, .regs 20]
  | .dramPhyLockLoss .. | .dramWriteCrcError .. =>
    [.rb, .fc, .boot, .test, .regs 14]
  | .powerStateChange .. =>
    [.regs 13]
end

