-- ==== Sys2Proof/Certificates/Slice0/Obligations.lean ====
section
/-! DEFINITION. The statements for the provers, one definition each.

They go through the families of commands in the order of the opcode table: the result statements say that a command answers a
next state and which, from hypotheses on the state and the operands alone; the frames are in the terms of Footprint.lean; the
statements about every step close the file. -/

set_option autoImplicit false

open Sys2Proof Sys2Proof.Machine

/-- SPEED_WINDOW_END, GUARD_LEVEL_RETURN, SPEED_MONITOR_ODD, GOVERNOR_EVALUATION, AVSBUS_WRITE_DONE, TICK_COPY_COMPARE,
REFCLK_ABSENT and REFCLK_RETURN complete with their effects (R26, R37–R41, R46, R47, R464). The kind of the fault of a tick copy is
the model's reading of Table 17.4 (log entry 18). -/
def Obligations.SpeedMonitorsGovernorAndTimeBase : Prop :=
  (∀ (idx : BitVec 88) (s : State), s.coreUp = true → s.refclk = true → ∃ t, exec (.speedWindowEnd idx) s = .next t ∧
    (∀ k, k < 8 → t.get F.RT_SPD.SPD_IDX ≤ monOf idx k) ∧
    monOf idx (t.get F.RT_SPD.SPD_MON) = t.get F.RT_SPD.SPD_IDX ∧
    t.arch.mons = (List.range 8).map (monOf idx) ∧
    t.get F.RT_STS.GUARD_LVL = max (s.get F.RT_STS.GUARD_LVL) (guardCalls (t.get F.RT_SPD.SPD_IDX))) ∧
  (∀ s : State, 0 < s.get F.RT_STS.GUARD_LVL → 1024 ≤ s.arch.retCnt → ∃ t, exec .guardLevelReturn s = .next t ∧
    t.get F.RT_STS.GUARD_LVL = s.get F.RT_STS.GUARD_LVL - 1 ∧ t.arch.retCnt = 0) ∧
  (∀ (mon : Fin 8) (s : State), s.coreUp = true → 128 ≤ s.arch.odd.getD mon.val 0 → s.bit ⟨R.HK_STS, 16 + mon.val, 1⟩ = false →
    (s.fcSrc 120).wire = false → ∃ t, exec (.speedMonitorOdd mon) s = .next t ∧
    t.regsAre (s.setBit ⟨R.HK_STS, 16 + mon.val, 1⟩ true) ∧ t.fltSeen 120 Kind.SUPPLY = true) ∧
  (∀ s : State, s.proctors = true → 3 ≤ s.get F.BOOT_STS.PHASE → s.arch.pend = none → s.bit F.RT_STS.SPD_VALID = true →
    ∃ t, exec .governorEvaluation s = .next t ∧
    (let v := s.get F.RT_SPD.SPD_IDX
     (v < 840 → t.arch.vset = min (s.arch.vset + 4 * s.arch.govStep) 850 ∧ t.arch.hold = 0) ∧
     (840 ≤ v → 100 * v < 1024 * s.arch.govLow → t.arch.vset = min (s.arch.vset + s.arch.govStep) 850 ∧ t.arch.hold = 0) ∧
     (840 ≤ v → 1024 * s.arch.govLow ≤ 100 * v → 100 * v ≤ 1024 * s.arch.govHigh → t.arch.vset = s.arch.vset ∧ t.arch.hold = 0) ∧
     (840 ≤ v → 1024 * s.arch.govLow ≤ 100 * v → 0 < s.get F.RT_STS.APPLIED_LVL → t.arch.vset = s.arch.vset))) ∧
  (∀ s : State, s.proctors = false → exec .governorEvaluation s = .next s) ∧
  (∀ (mv : Nat) (s : State), s.arch.pend = some (mv, false) →
    (∃ t, exec (.avsbusWriteDone true) s = .next t ∧ t.arch.pend = none ∧ t.arch.vack = mv ∧ t.regs = s.regs) ∧
    (∃ t, exec (.avsbusWriteDone false) s = .next t ∧ t.arch.pend = some (mv, true) ∧ t.arch.vack = s.arch.vack)) ∧
  (∀ (mv : Nat) (s : State), s.arch.pend = some (mv, true) → s.coreUp = true → (s.fcSrc 122).wire = false →
    ∃ t, exec (.avsbusWriteDone false) s = .next t ∧ t.arch.pend = none ∧ t.arch.vack = s.arch.vack ∧
    t.regsAre (s.set F.PSQ_VCORE.VCORE s.arch.vack) ∧ t.fltSeen 122 Kind.LINK = true) ∧
  (∀ (differ : BitVec 110) (s : State), s.coreUp = true → (∀ p, (s.fcSrc p).wire = false) →
    ∃ t, exec (.tickCopyCompare differ) s = .next t ∧ t.tick = s.tick ∧ t.regsAre s ∧
    ∀ p, p < 110 → p ≠ 0 → differ.getLsbD p = true → t.fltSeen p Kind.CHECK = true) ∧
  (∀ s : State, s.refclk = true → ∃ t, exec .refclkAbsent s = .next t ∧ t.refclk = false ∧ t.tick = s.tick ∧
    ∀ p, p < 8 → t.bit (F.HP_STS.LINK_UP p) = false) ∧
  (∀ s : State, ∃ t, exec .refclkReturn s = .next t ∧ t = { s with refclk := true })

/-- The count-clear commands of the data path (TS_CNT_CLR, LC_CNT_CLR, MAPC_CNT_CLR, TE_CNT_CLR, TE_UPK_CNT_CLR, MG_OBP_CNT_CLR,
MG_CDC_CNT_CLR, MC_CNT_CLR, CE_CNT_CLR, DC_CNT_CLR, SIR_CNT_CLR, RT_HELD_CLR, RT_LVL_CLR, RT_LATE_CLR, SIR_LAG_CLR, RT_MIN_CLR):
through the manager port each clears the counters that its bits select, and no other register changes. -/
def Obligations.DataPathCountersClear : Prop :=
  ∀ (path : Path) (v : Word) (s : State), s.isManager path = true →
  (∃ t, exec (.tsCntClr path v) s = .next t ∧ t.cleared s [(v.getLsbD 0, [R.TS_HELD_CNT]), (v.getLsbD 1, [R.TS_OVER_CNT]),
    (v.getLsbD 2, [R.TS_PAD_CNT]), (v.getLsbD 3, [R.TS_FILL_RD_CNT])]) ∧
  (∃ t, exec (.lcCntClr path v) s = .next t ∧ t.cleared s [
    (v.getLsbD 0, [R.LC_HIT_RD, R.LC_MISS_RD, R.LC_HIT_WR, R.LC_MISS_WR, R.LC_BYPASS_WR]), (v.getLsbD 1, [R.LC_FILL_DROP]),
    (v.getLsbD 2, [R.LC_LOCK_FAIL]), (v.getLsbD 3, [R.LC_CE_CNT, R.LC_UE_CNT, R.LC_TAG_PE_CNT])]) ∧
  (∃ t, exec (.mapcCntClr path v) s = .next t ∧ t.cleared s [(v.getLsbD 0, [R.MAPC_HIT, R.MAPC_MISS]),
    (v.getLsbD 1, [R.MAPC_CE_CNT, R.MAPC_UE_CNT])]) ∧
  (∃ t, exec (.teCntClr path v) s = .next t ∧ t.cleared s [(v.getLsbD 0, [R.TE_MAP_REPAIR]),
    (v.getLsbD 1, [R.TE_JRN_FLUSH_CNT])]) ∧
  (∃ t, exec (.teUpkCntClr path v) s = .next t ∧ t.cleared s [(v.getLsbD 0, [R.TE_GC_COPIED, R.TE_WL_COPIED]),
    (v.getLsbD 1, [R.TE_PGM_FAIL, R.TE_ERS_FAIL, R.TE_GC_ABORT])]) ∧
  (∀ g : Fin 5, ∃ t, exec (.mgObpCntClr g path v) s = .next t ∧ t.cleared s [
    (v.getLsbD 0, [R.MG_OBP_STRIPES g, R.MG_OBP_SHORT g, R.MG_OBP_NOPAR g]), (v.getLsbD 1, [R.MG_OBP_RECON g, R.MG_OBP_FAIL g])]) ∧
  (∀ g : Fin 5, ∃ t, exec (.mgCdcCntClr g path v) s = .next t ∧ t.cleared s [
    (v.getLsbD 0, [R.MG_CE_LINES g, R.MG_CE_BITS g, R.MG_UE_LINES g, R.MG_RETRY1 g, R.MG_RETRY2 g, R.MG_RETRY3 g]),
    (v.getLsbD 1, [R.MG_LCHK_CNT g])]) ∧
  (∀ c : Fin 40, ∃ t, exec (.mcCntClr c path v) s = .next t ∧ t.cleared s [
    (v.getLsbD 0, [R.MC_RD_H_CNT c, R.MC_RD_B_CNT c, R.MC_PGM_CNT c, R.MC_ERS_CNT c, R.MC_SUSP_CNT c, R.MC_SUSP_MAX c]),
    (v.getLsbD 1, [R.MC_RD_TO_CNT c, R.MC_ERR_CNT c])]) ∧
  (∃ t, exec (.ceCntClr path v) s = .next t ∧ t.cleared s [(v.getLsbD 0, [R.CE_SLOTS_PEAK, R.CE_DERIVE_CNT, R.CE_TAG_FAIL_CNT]),
    (v.getLsbD 1, [R.CE_CHUNK_OK, R.CE_CHUNK_BAD, R.CE_XF_DROP]), (v.getLsbD 2, [R.CE_SEED_LATE, R.CE_ENT_FAIL, R.CE_RESEED_CNT])]) ∧
  (∀ ch : Fin 6, ∃ t, exec (.dcCntClr ch path v) s = .next t ∧ t.cleared s [
    (v.getLsbD 0, [R.DC_CE_CNT ch, R.DC_UE_CNT ch, R.DC_REBUILD ch, R.DC_RECON_RD ch, R.DC_CRC_RETRY ch]),
    (v.getLsbD 1, [R.DC_SCRUB_PASS ch])]) ∧
  (∃ t, exec (.sirCntClr path v) s = .next t ∧ t.cleared s [
    (v.getLsbD 0, [R.SIR_SCRUB_PAGES, R.SIR_SCRUB_COPY, R.SIR_UE_FOUND, R.SIR_RECOV_RETRY, R.SIR_RECOV_OBP, R.SIR_RECOV_PEER,
      R.SIR_POISONED, R.SIR_REFRESH_BLK]), (v.getLsbD 1, [R.SIR_SRAM_FIX])]) ∧
  (∃ t, exec (.rtHeldClr path) s = .next t ∧ t.cleared s [(true, [R.RT_HELD_CNT, R.RT_HELD_MAX])]) ∧
  (∃ t, exec (.rtLvlClr path) s = .next t ∧
    t.cleared s [(true, [R.RT_LVL_WIN_CNT0, R.RT_LVL_WIN_CNT1, R.RT_LVL_WIN_CNT2, R.RT_LVL_WIN_CNT3])]) ∧
  (s.coreUp = true → ∃ t, exec (.rtLateClr path v) s = .next t ∧ t.cleared s [(v.getLsbD 0, [R.RT_LATE_STATE]),
    (v.getLsbD 1, [R.RT_LATE_FAILOVER]), (v.getLsbD 2, [R.RT_LATE_AGE]), (v.getLsbD 3, [R.RT_LATE_OBP]),
    (v.getLsbD 4, [R.RT_LATE_RETRY]), (v.getLsbD 5, [R.RT_LATE_DIE]), (v.getLsbD 6, [R.RT_LATE_BP]),
    (v.getLsbD 7, [R.RT_LATE_UNEXPL]), (v.getLsbD 8, [R.RT_STRAY_CNT]), (v.getLsbD 9, [R.RT_WR_DROP_STATE])]) ∧
  (∃ t, exec (.sirLagClr path) s = .next t ∧ t.regsAre (s.wr R.SIR_LAG_MAX (s.rd R.SIR_LAG))) ∧
  (∃ t, exec (.rtMinClr path) s = .next t ∧ t.regsAre (s.set F.RT_SPD.SPD_MIN (s.get F.RT_SPD.SPD_IDX)))

/-- The count-clear commands of the other blocks (CAR_CNT_CLR, HP_CNT_CLR, CORE_CNT_CLR, PSQ_CNT_CLR, CIS_CNT_CLR, HK_CNT_CLR,
PST_CNT_CLR, RB_CNT_CLR, FC_CNT_CLR, FC_FIRST_CLR, MQ_CNT_CLR) do the same through the manager port. -/
def Obligations.OtherCountersClear : Prop :=
  ∀ (path : Path) (v : Word) (s : State), s.isManager path = true →
  (∃ t, exec (.carCntClr path v) s = .next t ∧ t.cleared s [
    (v.getLsbD 0, [R.CAR_FO_CNT, R.CAR_FO_LAST, R.CAR_FO_MAX, R.CAR_LINK_DOWN]),
    (v.getLsbD 1, [R.CAR_MIR_CNT, R.CAR_FWD_CNT, R.CAR_REP_OK, R.CAR_REP_FAIL, R.CAR_RSYNC_CHUNKS])]) ∧
  (∀ p : Fin 8, ∃ t, exec (.hpCntClr path p v) s = .next t ∧ t.cleared s [
    (v.getLsbD 0, [R.HP_RD_CNT p, R.HP_WR_CNT p, R.HP_POISON_RSP p]),
    (v.getLsbD 1, [R.HP_IDE_ERR p, R.HP_LINK_DOWN p, R.HP_MBOX_CNT p, R.HP_EVT_DROP p])]) ∧
  (∀ c : Fin 28, ∃ t, exec (.coreCntClr c path v) s = .next t ∧ t.cleared s [(v.getLsbD 0, [R.CORE_CE_CNT c, R.CORE_UE_CNT c])]) ∧
  (∃ t, exec (.psqCntClr path v) s = .next t ∧
    t.cleared s [(v.getLsbD 0, [R.PSQ_PUP_FAIL_CNT, R.PSQ_RAIL_FLT_CNT, R.PSQ_DRAIN_CNT, R.PSQ_PMB_ERR])]) ∧
  (∃ t, exec (.cisCntClr path v) s = .next t ∧
    t.cleared s [(v.getLsbD 0, [R.CIS_TEST_CNT, R.CIS_TEST_BAD_CNT, R.CIS_DEFER_CNT])]) ∧
  (∃ t, exec (.hkCntClr path v) s = .next t ∧ t.cleared s [(v.getLsbD 0, [R.HK_THROT_CNT, R.HK_EXCL_CNT, R.HK_TRIP_CNT])]) ∧
  (∃ t, exec (.pstCntClr path v) s = .next t ∧ t.cleared s [(v.getLsbD 0, [R.PST_WEAK_CNT, R.PST_WR_FAIL, R.PST_SUPPLY_FAIL])]) ∧
  (∃ t, exec (.rbCntClr path v) s = .next t ∧ t.rd R.RB_DROPPED = (if v.getLsbD 0 then 0 else s.rd R.RB_DROPPED) ∧ t.regsAre s) ∧
  (∃ t, exec (.fcCntClr path v) s = .next t ∧ (∀ k, k < 4 → t.rd (R.FC_CNT_SEV k) = if v.getLsbD 0 then 0 else s.rd (R.FC_CNT_SEV k)) ∧
    t.rd R.FC_ESC_CNT = (if v.getLsbD 0 then 0 else s.rd R.FC_ESC_CNT) ∧
    t.rd R.FC_REVOKE_CNT = (if v.getLsbD 0 then 0 else s.rd R.FC_REVOKE_CNT) ∧
    t.rd R.FC_WIRE_CNT = (if v.getLsbD 0 then 0 else s.rd R.FC_WIRE_CNT) ∧
    t.rd R.FC_CONTAIN_CNT = (if v.getLsbD 1 then 0 else s.rd R.FC_CONTAIN_CNT) ∧ t.regsAre s) ∧
  (∃ t, exec (.fcFirstClr path) s = .next t ∧ t.rd R.FC_FIRST = 0 ∧ t.rd R.FC_FIRST_TICK_LO = 0 ∧ t.rd R.FC_FIRST_TICK_HI = 0 ∧
    t.regsAre s) ∧
  (∀ q : Fin 8, ∃ t, exec (.mqCntClr q path v) s = .next t ∧ t.cleared s [(v.getLsbD 0, [R.MQ_DROP_PKT q, R.MQ_PTR_CNT q])])

/-- A count-clear command through a path that is not the manager port, and not the out-of-band target where the table grants it
that access, changes no register of any block. -/
def Obligations.CounterClearsNeedTheManager : Prop :=
  ∀ (path : Path) (v : Word) (s : State), s.isManager path = false →
  (∃ t, exec (.tsCntClr path v) s = .next t ∧ t.regsAre s) ∧
  (∃ t, exec (.lcCntClr path v) s = .next t ∧ t.regsAre s) ∧
  (∃ t, exec (.mapcCntClr path v) s = .next t ∧ t.regsAre s) ∧
  (∃ t, exec (.teCntClr path v) s = .next t ∧ t.regsAre s) ∧
  (∃ t, exec (.teUpkCntClr path v) s = .next t ∧ t.regsAre s) ∧
  (∀ g : Fin 5, ∃ t, exec (.mgObpCntClr g path v) s = .next t ∧ t.regsAre s) ∧
  (∀ g : Fin 5, ∃ t, exec (.mgCdcCntClr g path v) s = .next t ∧ t.regsAre s) ∧
  (∀ c : Fin 40, ∃ t, exec (.mcCntClr c path v) s = .next t ∧ t.regsAre s) ∧
  (∃ t, exec (.ceCntClr path v) s = .next t ∧ t.regsAre s) ∧
  (∀ ch : Fin 6, ∃ t, exec (.dcCntClr ch path v) s = .next t ∧ t.regsAre s) ∧
  (∃ t, exec (.sirCntClr path v) s = .next t ∧ t.regsAre s) ∧
  (∃ t, exec (.carCntClr path v) s = .next t ∧ t.regsAre s) ∧
  (∀ c : Fin 28, ∃ t, exec (.coreCntClr c path v) s = .next t ∧ t.regsAre s) ∧
  (path ≠ .oob → (∃ t, exec (.psqCntClr path v) s = .next t ∧ t.regsAre s) ∧ (∃ t, exec (.cisCntClr path v) s = .next t ∧ t.regsAre s) ∧
    (∃ t, exec (.hkCntClr path v) s = .next t ∧ t.regsAre s) ∧ (∃ t, exec (.pstCntClr path v) s = .next t ∧ t.regsAre s) ∧
    (∃ t, exec (.rtLateClr path v) s = .next t ∧ t.regsAre s))

/-- The media commands READ_LINE, SEND_H, SEND_B, PROG_SETUP, DATA_IN, PROG_CONFIRM, PROG_CANCEL and ERASE, accepted by a die of
a channel that has not failed it, change exactly the die's slots, page image and state (R241–R245, Tables 8.2–8.5). -/
def Obligations.MediaReadAndProgramCommands : Prop :=
  ∀ (die : Fin 320) (crc : BitVec 8) (s : State),
  (∀ slot line page block set : Nat, slot < 12 → line ≤ 256 → page < 2048 → block < 2048 → set < 8 →
    (∀ arg : BitVec 40, arg.toNat = slot + 2 ^ 4 * line + 2 ^ 13 * page + 2 ^ 24 * block + 2 ^ 37 * set →
    s.dieTakes die 0x10 (argBytes 5 arg.toNat) crc [Ds.idle, Ds.loading, Ds.suspending, Ds.suspended] →
    (s.mdie die).occupied slot = false →
    exec (.readLine die arg crc) s = .next (s.setMdie die (
      let r : DRead := ⟨slot, line, page, block, sget 0 (s.mdie die).refs set, none⟩
      if slot < 8 then { s.mdie die with host := (s.mdie die).host ++ [r] } else { s.mdie die with bg := (s.mdie die).bg ++ [r] })))) ∧
  (∀ (r : DRead) (rest : List DRead) (w : StoredLine), s.dieTakes die 0x11 [] crc Ds.awake → (s.mdie die).host = r :: rest →
    r.sensed = some w →
    exec (.sendH die crc) s = .next ((s.setMdie die { s.mdie die with host := rest }).emit (.dq die [w.toNat]))) ∧
  (∀ (r : DRead) (rest : List DRead) (w : StoredLine), s.dieTakes die 0x12 [] crc Ds.awake → (s.mdie die).bg = r :: rest →
    r.sensed = some w →
    exec (.sendB die crc) s = .next ((s.setMdie die { s.mdie die with bg := rest }).emit (.dq die [w.toNat]))) ∧
  (∀ (page block : Nat) (arg : BitVec 24), page < 2048 → block < 2048 → arg.toNat = page + 2 ^ 11 * block →
    s.dieTakes die 0x20 (argBytes 3 arg.toNat) crc [Ds.idle] → (s.mdie die).waiting = false →
    exec (.progSetup die arg crc) s =
      .next (s.setMdie die { s.mdie die with st := Ds.loading, page := page, block := block, bursts := [], got := [] })) ∧
  (∀ (idx : BitVec 8) (data : BitVec 2048), idx.toNat ≤ 88 → s.dieTakes die 0x21 [idx.toNat] crc [Ds.loading] →
    (s.mdie die).waiting = false →
    exec (.dataIn die idx data crc) s = .next (s.setMdie die { s.mdie die with
      bursts := sset 0 (s.mdie die).bursts idx.toNat data, got := setIns idx.toNat (s.mdie die).got })) ∧
  (s.dieTakes die 0x22 [] crc [Ds.loading] → (s.mdie die).waiting = false → 89 ≤ (s.mdie die).got.length →
    ∃ m, exec (.progConfirm die crc) s = .next (s.setMdie die m) ∧
    m.dcrc = BitVec.ofNat 32 (crc32c (s.mdie die).imageBytes) ∧ m.kind = false ∧
    (m.st, m.waiting) = if (s.mdie die).allSensed then (Ds.progBusy, false) else (Ds.loading, true)) ∧
  (s.dieTakes die 0x23 [] crc [Ds.loading] → (s.mdie die).waiting = false →
    exec (.progCancel die crc) s = .next (s.setMdie die { s.mdie die with st := Ds.idle, bursts := [], got := [] })) ∧
  (∀ arg : BitVec 16, arg.toNat < 2048 → s.dieTakes die 0x28 (argBytes 2 arg.toNat) crc [Ds.idle] → (s.mdie die).waiting = false →
    ∃ m, exec (.erase die arg crc) s = .next (s.setMdie die m) ∧ m.block = arg.toNat ∧ m.kind = true ∧
    (m.st, m.waiting) = if (s.mdie die).allSensed then (Ds.eraseBusy, false) else (Ds.idle, true))

/-- The media commands SUSPEND, RESUME, STATUS, FEATURE_SET, FEATURE_GET, REF_ADJ, TRAIN, SYNC and RESET and the line RST_N change
exactly the dies they address, and STATUS and FEATURE_GET drive DQ (R245–R253, Tables 8.3–8.7). -/
def Obligations.MediaControlCommands : Prop :=
  ∀ (die : Fin 320) (crc : BitVec 8) (s : State),
  (s.dieTakes die 0x30 [] crc [Ds.progBusy, Ds.eraseBusy] →
    exec (.suspend die crc) s = .next (s.setMdie die { s.mdie die with st := Ds.suspending })) ∧
  (s.dieTakes die 0x31 [] crc [Ds.suspending, Ds.suspended] → (s.mdie die).waiting = false →
    exec (.resume die crc) s = .next (s.setMdie die { s.mdie die with
      st := if (s.mdie die).allSensed then (if (s.mdie die).kind then Ds.eraseBusy else Ds.progBusy) else Ds.resuming })) ∧
  (s.dieTakes die 0x40 [] crc Ds.notReset →
    exec (.status die crc) s = .next ((s.setMdie die { s.mdie die with
      d := false, caErr := false, stateErr := false, addrErr := false, sendErr := false }).emit
        (.dq die [(s.mdie die).status, (s.mdie die).dcrc.toNat]))) ∧
  (∀ v : Word, s.dieTakes die 0x50 (1 :: argBytes 4 v.toNat) crc [Ds.idle, Ds.suspended] →
    exec (.featureSet die 1 v crc) s = .next (s.setMdie die { s.mdie die with drive := v.toNat % 4 })) ∧
  (∀ v : Word, s.dieTakes die 0x50 (2 :: argBytes 4 v.toNat) crc [Ds.idle, Ds.suspended] →
    exec (.featureSet die 2 v crc) s = .next (s.setMdie die { s.mdie die with odt := v.toNat % 4 })) ∧
  (∀ v : Word, s.dieTakes die 0x50 (4 :: argBytes 4 v.toNat) crc [Ds.idle, Ds.suspended] →
    ∃ t, exec (.featureSet die 4 v crc) s = .next t ∧ (t.mdie die).patCtl = v.toNat % 32) ∧
  (s.dieTakes die 0x51 [1] crc Ds.notReset →
    exec (.featureGet die 1 crc) s = .next (s.emit (.dq die [(s.mdie die).drive]))) ∧
  (∀ (set : BitVec 8) (offs : BitVec 24), set.toNat < 8 →
    s.dieTakes die 0x60 (set.toNat :: argBytes 3 offs.toNat) crc [Ds.idle, Ds.loading, Ds.suspended] →
    exec (.refAdj die set offs crc) s = .next (s.setMdie die { s.mdie die with refs := sset 0 (s.mdie die).refs set.toNat offs })) ∧
  (∀ (ch : Fin 40) (k : Nat) (ce param : BitVec 8), ceDies ch.val ce = [8 * ch.val + k] →
    s.dieTakes (8 * ch.val + k) 0x70 [2, param.toNat] crc [Ds.idle] →
    exec (.train ch ce 2 param crc) s = .next (s.setMdie (8 * ch.val + k)
      { s.mdie (8 * ch.val + k) with st := Ds.training, former := Ds.idle, patErr := 0 })) ∧
  (∀ (ch : Fin 40) (k : Nat) (ce : BitVec 8), ceDies ch.val ce = [8 * ch.val + k] →
    s.dieTakes (8 * ch.val + k) 0x7E [] crc [Ds.caTrain] →
    exec (.sync ch ce crc) s = .next (s.setMdie (8 * ch.val + k)
      { s.mdie (8 * ch.val + k) with aligned := true, st := Ds.idle })) ∧
  (∀ (ch : Fin 40) (k : Nat) (ce : BitVec 8), ceDies ch.val ce = [8 * ch.val + k] →
    s.dieTakes (8 * ch.val + k) 0x7F [] crc [Ds.caTrain, Ds.idle, Ds.loading, Ds.training] →
    exec (.reset ch ce crc) s = .next (s.setMdie (8 * ch.val + k) (MDie.inReset false))) ∧
  (∀ ch : Fin 40, ∃ t, exec (.rstN ch false) s = .next t ∧ ∀ k, k < 8 → t.mdie (8 * ch.val + k) = MDie.inReset true) ∧
  (∀ ch : Fin 40, ∃ t, exec (.rstN ch true) s = .next t ∧
    (∀ k, k < 8 → (s.mdie (8 * ch.val + k)).st = Ds.reset → (s.mdie (8 * ch.val + k)).hard = true →
      (t.mdie (8 * ch.val + k)).st = Ds.caTrain) ∧
    ∀ d, (∀ k, k < 8 → d ≠ 8 * ch.val + k) → t.mdie d = s.mdie d)

/-- The events of a die — LINE_SENSED, OPERATION_ENDS, SUSPENSION_POINT_REACHED, DIE_RESET_DONE and TRAIN_PATTERN_END — move the die
through Table 8.5, a program that ends puts the image's lines on the page, and an erase that ends leaves the block's pages
erased (R243–R247). -/
def Obligations.MediaDieEvents : Prop :=
  ∀ (die : Fin 320) (s : State),
  (∀ (slot : Fin 12) (err : StoredLine) (r : DRead), (s.mdie die).host = [r] → (s.mdie die).bg = [] → r.slot = slot.val →
    r.sensed = none → (s.mdie die).st = Ds.idle → (s.mdie die).waiting = false →
    ∃ t, exec (.lineSensed die slot err) s = .next t ∧
    (t.mdie die).host = [{ r with sensed := some (sget 0 (s.mpage die r.block r.page).lines r.line ^^^ err) }] ∧ t.te = s.te) ∧
  ((s.mdie die).st = Ds.progBusy →
    ∃ t, exec (.operationEnds die false) s = .next t ∧ (t.mdie die).st = Ds.idle ∧ (t.mdie die).d = true ∧ (t.mdie die).pf = false ∧
    (t.mpage die (s.mdie die).block (s.mdie die).page).lines = (s.mdie die).imageLines) ∧
  ((s.mdie die).st = Ds.eraseBusy →
    ∃ t, exec (.operationEnds die false) s = .next t ∧ (t.mdie die).st = Ds.idle ∧ (t.mdie die).d = true ∧ (t.mdie die).pf = false ∧
    ∀ page, page < 2048 → t.mpage die (s.mdie die).block page = MPage.erased) ∧
  ((s.mdie die).st = Ds.suspending →
    exec (.suspensionPointReached die) s = .next (s.setMdie die { s.mdie die with st := Ds.suspended })) ∧
  ((s.mdie die).st = Ds.reset → (s.mdie die).hard = false →
    exec (.dieResetDone die) s = .next (s.setMdie die { s.mdie die with st := Ds.idle })) ∧
  ((s.mdie die).st = Ds.training →
    exec (.trainPatternEnd die) s = .next (s.setMdie die { s.mdie die with st := (s.mdie die).former }))

/-- The commands of a media channel — CHANNEL_TRAINING, READY_ROUND_REPORT, READ_TIMEOUT, TRACK_INTERVAL, SUSPEND_WARN, MC_RETRAIN,
MC_PAT_START and MC_PAT_STOP — complete with their effects (R242, R243, R252–R259, Tables 8.10, 8.12, 8.14). -/
def Obligations.MediaChannelCommands : Prop :=
  (∀ (ch : Fin 40) (r : ChanTrain) (s : State), s.bit (F.MC_STS.TRAIN_BUSY ch) = true → r.fail = none →
    ∃ t, exec (.channelTraining ch r) s = .next t ∧ t.mcTry = setDel ch.val s.mcTry ∧
    ∀ k, k < s.num (R.MC_DIES ch) % 16 → k < 8 → r.present.getLsbD k = true → r.geom.getLsbD k = true →
      (t.mdie (8 * ch.val + k)).st = Ds.idle ∧ (t.mdie (8 * ch.val + k)).aligned = true) ∧
  (∀ (ch : Fin 40) (r : ChanTrain) (step : Fin 8) (s : State), s.bit (F.MC_STS.TRAIN_BUSY ch) = true → r.fail = some step →
    s.mcTry.contains ch.val = false →
    ∃ t, exec (.channelTraining ch r) s = .next t ∧ t.mcTry = setIns ch.val s.mcTry ∧
    ∀ k, k < 8 → t.mdie (8 * ch.val + k) = MDie.inReset true) ∧
  (∀ (die : Fin 320) (hc : Fin 4) (b d : Bool) (s : State), (s.die die).failed = false →
    ∃ t, exec (.readyRoundReport die hc b d) s = .next t ∧ t.regsAre s ∧
    (let all := s.te.reads.filter (fun m => m.loc.die == die.val && m.issued)
     let host := all.filter (fun m => match m.purpose with | .host _ => true | _ => false)
     t.out = s.out ++ List.replicate (min hc.val host.length) (.media (chanOf die) Cmd.sendH [die.val]) ++
      (if b && decide (host.length < all.length) then [.media (chanOf die) Cmd.sendB [die.val]] else []) ++
      (if d then [.media (chanOf die) Cmd.status [die.val]] else []))) ∧
  (∀ (id : Nat) (occupied : Bool) (m : MRead) (s : State), s.te.reads.find? (fun m => m.id == id && m.issued) = some m →
    (s.die m.loc.die).failed = false → (s.die m.loc.die).step = 0 →
    ((s.die m.loc.die).recoveries.filter (fun t => decide (s.tick.toNat < t + 100000000))).length < 2 →
    ∃ t, exec (.readTimeout id true occupied) s = .next t ∧ (t.die m.loc.die).step = (if occupied then 2 else 3) ∧
    t.te.reads = s.te.reads) ∧
  (∀ (die : Fin 320) (up down : Bool) (s : State), s.bit (F.MG_CTL.TRACK_EN (groupOf die)) = true →
    s.bit (F.MC_STS.TRAINED (chanOf die)) = true → (s.die die).failed = false → s.te.reads.all (fun m => m.loc.die != die.val) = true →
    ∃ t, exec (.trackInterval die up down) s = .next t ∧ t.regsAre s ∧
    (t.die die).phase = if up && !down then min 63 ((s.die die).phase + 1) else if down && !up then (s.die die).phase - 1
      else (s.die die).phase) ∧
  (∀ (die : Fin 320) (s : State), (s.die die).suspended = true → (s.die die).suspRec = false →
    ∃ t, exec (.suspendWarn die) s = .next t ∧ (t.die die).suspRec = true ∧ (t.die die).suspended = true ∧ t.regsAre s) ∧
  (∀ (ch : Fin 40) (path : Path) (s : State), s.isManager path = true → s.bit (F.MC_CTL.EN ch) = false →
    s.num (R.MC_DIES ch) % 16 ≠ 0 → s.fencedSrc (32 + ch.val) = false →
    ∃ t, exec (.mcRetrain ch path) s = .next t ∧ t.bit (F.MC_STS.TRAIN_BUSY ch) = true ∧ t.mcTry = setDel ch.val s.mcTry ∧
    ∀ k, k < 8 → t.mdie (8 * ch.val + k) = MDie.inReset true) ∧
  (∀ (ch : Fin 40) (path : Path) (v : Word) (s : State), s.isManager path = true → s.bit (F.MC_CTL.EN ch) = false →
    ∃ t, exec (.mcPatStart ch path v) s = .next t ∧ t.num (R.MC_PAT_CTL ch) = v.toNat % 128 + 128 ∧ t.rd (R.MC_PAT_ERR ch) = 0 ∧
    t.rd (R.MC_PAT_LANES ch) = 0 ∧
    (t.mdie (8 * ch.val + v.toNat / 16 % 8)).patCtl = v.toNat % 8 + 8 * (v.toNat / 8 % 2) + 16) ∧
  (∀ (ch : Fin 40) (path : Path) (errs : Word) (lanes : BitVec 16) (s : State), s.isManager path = true →
    s.bit (F.MC_CTL.EN ch) = false → s.bit (F.MC_PAT_CTL.START ch) = true →
    ∃ t, exec (.mcPatStop ch path errs lanes) s = .next t ∧ t.bit (F.MC_PAT_CTL.START ch) = false ∧ t.rd (R.MC_PAT_ERR ch) = errs ∧
    (s.bit (F.MC_PAT_CTL.DIR ch) = true → t.num (R.MC_PAT_LANES ch) = lanes.toNat))

/-- The commands of the read path and of the persistence flush — MEM_READ_REQUEST (a hit in the line cache, and a device that is
booting or fenced), DRAM_READ_COMPLETE, HELD_MISS_DISPATCH, MEDIA_LINE_RECEIVED, CIPHER_REQUEST_DONE, GPF_PHASE1 and GPF_PHASE2 — complete
with their effects (R64, R73, R87, R90, R92–R95, R102, R129, Table 3.3). -/
def Obligations.ReadPathCommands : Prop :=
  (∀ (port : Fin 8) (tag : BitVec 16) (line : BitVec 38) (n w : Nat) (s : State), s.rt.reqs = [] → s.hasCredit port false = true →
    s.reaches port line.toNat n → s.sealedOff n = false → s.lcOn = true → s.lcFind line.toNat = some w →
    s.wayLost (lcSet line.toNat) w = false →
    ∃ t, exec (.memReadRequest port tag line []) s = .next t ∧ t.rt.reqs = [] ∧
    Output.memData (.host port tag.toNat) (s.way (lcSet line.toNat) w).data
      ((s.way (lcSet line.toNat) w).p || (s.entry (tileOf line.toNat)).ptile) ∈ t.out) ∧
  (∀ (port : Fin 8) (tag : BitVec 16) (line : BitVec 38) (n : Nat) (s : State), s.hasCredit port false = true →
    (s.booting = true ∨ s.fenced = true ∨ s.reaches port line.toNat n ∧ s.sealedOff n = true) → ∃ t, exec (.memReadRequest port tag line []) s = .next t ∧
    Output.memData (.host port tag.toNat) 0 true ∈ t.out) ∧
  (∀ (id : Nat) (ch : Fin 6) (r : Req) (s : State), s.rt.reqs = [r] → r.id = id → r.kind = .read → r.stage = .second →
    (∃ p g, r.src = .host p g) → (s.entry (tileOf r.line)).st = 2 → (s.entry (tileOf r.line)).ptile = false →
    (s.entry (tileOf r.line)).pline = false → (s.slot (s.entry (tileOf r.line)).slot).lineSt (r.line % 64) ≠ 0 →
    ∃ t, exec (.dramReadComplete id ch .ok) s = .next t ∧
    Output.memData r.src (if r.zero then 0 else s.slotLine (s.entry (tileOf r.line)).slot (r.line % 64)) false ∈ t.out) ∧
  (∀ (die : Fin 320) (r : Req) (l : Loc) (s : State), s.rt.reqs = [r] → r.stage = .held die.val →
    (s.entry (tileOf r.line)).loc = some l → l.die = die.val →
    s.te.reads.all (fun m => m.loc.die != die.val || m.issued) = true →
    ∃ t, exec (.heldMissDispatch die) s = .next t ∧ t.rt.reqs = [{ r with stage := .media die.val }] ∧
    t.bit F.RT_STS.HELD_ANY = false ∧ ∃ m, t.te.reads = s.te.reads ++ [m] ∧ m.purpose = .host r.id ∧ m.loc = l ∧
      m.pos = 64 * l.tip + r.line % 64 ∧ m.retry = 0 ∧ m.issued = true ∧ m.buf = s.fillBuf die.val) ∧
  (∀ (id : Nat) (err : StoredLine) (slotErr seedDue : Bool) (m : MRead) (rid : Nat) (s : State),
    s.te.reads.find? (fun m => m.id == id && m.issued && s.readNext m) = some m → m.purpose = .host rid → s.rt.reqs = [] →
    s.te.reads.all (fun x => x.loc.die != m.loc.die || x.issued) = true →
    ∃ t, exec (.mediaLineReceived id err slotErr seedDue) s = .next t ∧ t.te.reads = s.te.reads.filter (fun x => x.id != id) ∧
    (t.die m.loc.die).step = 0) ∧
  (∀ (id : Nat) (err : StoredLine) (m : MRead) (r : Req) (d : Line) (bits : Nat) (s : State),
    s.te.reads.find? (fun m => m.id == id && m.issued && s.readNext m) = some m → m.purpose = .host r.id → s.rt.reqs = [r] →
    r.kind = .read → r.zero = false → (∃ p g, r.src = .host p g) → (s.entry (tileOf r.line)).ptile = false → m.retry = 0 →
    (m.key = 0 ∨ s.keyGate m.key = 0) →
    s.checkLine (groupOf m.loc.die) r.line (s.pageSeq m.loc) m.pos m.key (s.rawLine m err) = .ok d bits →
    ∃ t, exec (.mediaLineReceived id err false false) s = .next t ∧ t.rt.reqs = [] ∧ Output.memData r.src d false ∈ t.out) ∧
  (∀ (id pid : Nat) (bad : Bool) (s : State), 8 ≤ s.ce.seeds → s.ce.jobs.find? (fun j => j.1 == id) = some (id, .program pid) →
    s.jobWaits (.program pid) = false → ∃ t, exec (.cipherRequestDone id none false bad) s = .next t ∧ t.ce.jobs = s.ce.jobs.filter (fun j => j.1 != id) ∧
    t.te.progs = s.te.progs.map (fun p => if p.id = pid then { p with stage := .ready } else p)) ∧
  (∀ (id : Nat) (s : State), 8 ≤ s.ce.seeds → s.coreUp = true → (s.fcSrc 6).wire = false →
    s.ce.jobs.find? (fun j => j.1 == id) = some (id, .kat) →
    ∃ t, exec (.cipherRequestDone id none false true) s = .next t ∧ t.bit F.CE_STS.KAT_FAIL = true ∧
    t.bit F.CE_STS.KAT_BUSY = false ∧ t.fltSeen 6 Kind.CHECK = true) ∧
  (∀ (port : Fin 8) (s : State), s.bit (F.HP_STS.LINK_UP port) = true →
    ∃ t, exec (.gpfPhase1 port) s = .next t ∧ t = { s with rt.gpf := List.range 8 } ∧
    ∀ p wr, p < 8 → t.grant.credOf p wr = s.credOf p wr) ∧
  (∀ (port : Fin 8) (s : State), s.rt.gpf.contains port.val = true →
    ∃ t, exec (.gpfPhase2 port) s = .next t ∧ t.rt.gpf = [] ∧ t.te = s.te ∧
    t.lc = s.lc ∧ Output.hostMsg port.val 2 [] ∈ t.out ∧ ∀ p ∈ s.rt.gpf, p < 8 → t.bit (F.HP_STS.GPF_HELD p) = true)

/-- The commands of the write path and of the tile stage — MEM_WRITE_REQUEST (a hit on a dirty way, and a region that nothing maps),
BP_HOLD_EXPIRY, LINE_EVICTION, TILE_AGE_LIMIT, PAGE_WAIT_EXPIRY, PAGE_PROGRAM_START, PAGE_PROGRAM_ISSUE, STATUS_WORD_RECEIVED and TS_FLUSH —
complete with their effects (R73, R114, R116, R123, R127, R130–R132, R218, R248, Tables 4.4, 4.5). -/
def Obligations.WritePathAndTileStageCommands : Prop :=
  (∀ (port : Fin 8) (tag : BitVec 16) (line : BitVec 38) (d : Line) (n w : Nat) (s : State), s.rt.reqs = [] →
    s.hasCredit port true = true → s.reaches port line.toNat n → s.roState = false → s.mirroring = false → s.lcOn = true →
    s.lcFind line.toNat = some w → (s.way (lcSet line.toNat) w).d = true →
    ∃ t, exec (.memWriteRequest port tag line d (BitVec.allOnes 64) []) s = .next t ∧
    Output.memDone (.host port tag.toNat) ∈ t.out ∧ (t.way (lcSet line.toNat) w).data = d ∧
    (t.way (lcSet line.toNat) w).v = true ∧ (t.way (lcSet line.toNat) w).d = true ∧
    (t.way (lcSet line.toNat) w).tag = lcTag line.toNat) ∧
  (∀ (port : Fin 8) (tag : BitVec 16) (line : BitVec 38) (d : Line) (be : BitVec 64) (s : State),
    s.hasCredit port true = true → s.booting = false → s.fenced = false → s.roState = false → s.regionOf line.toNat = none →
    ∃ t, exec (.memWriteRequest port tag line d be []) s = .next t ∧ Output.memDone (.host port tag.toNat) ∈ t.out ∧
    t.te = s.te ∧ t.lc = s.lc ∧ t.num R.RT_STRAY_CNT = min (s.num R.RT_STRAY_CNT + 1) 0xFFFFFFFF) ∧
  (∀ (id : Nat) (r : Req) (d : Line) (w : Nat) (s : State), s.rt.reqs = [r] → r.id = id → r.stage = .budget → r.kind = .write d →
    (∃ p g, r.src = .host p g) → s.mirroring = false → s.lcOn = true → s.lcFind r.line = some w →
    ∃ t, exec (.bpHoldExpiry id) s = .next t ∧ Output.memDone r.src ∈ t.out ∧ (t.way (lcSet r.line) w).data = d) ∧
  (∀ (line : BitVec 38) (b : EvBuf) (s : State), s.rt.reqs = [] → s.bit F.TE_STS.MAP_READY = true →
    s.te.bad.contains (tileOf line.toNat) = false →
    s.lc.bufs.find? (fun b => b.line == line.toNat) = some b → (s.entry (tileOf line.toNat)).slot ≠ 0 →
    ∃ t, exec (.lineEviction line) s = .next t ∧ t.lc.bufs = s.lc.bufs.erase b ∧
    (t.entry (tileOf line.toNat)).st = 2 ∧
    (let n := (s.entry (tileOf line.toNat)).slot
     t.slotLine n (line.toNat % 64) = b.data ∧
     (t.slot n).lineSt (line.toNat % 64) = (let o := (s.slot n).lineSt (line.toNat % 64); if o = 3 ∨ o = 4 then 4 else 2))) ∧
  (∀ (tile : BitVec 32) (s : State), (s.entry tile.toNat).st = 2 → (s.slot (s.entry tile.toNat).slot).anyDirty = true →
    ∃ t, exec (.tileAgeLimit tile) s = .next t ∧ (t.slot (s.entry tile.toNat).slot).due = true) ∧
  (∀ (die : Fin 320) (s : State), 1 ≤ (s.dueOf die).length → s.bufFree.isSome = true →
    (∃ t, exec (if (s.dueOf die).length < 4 then .pageWaitExpiry die else .pageProgramStart die) s = .next t ∧
    t.te.nextProg = s.te.nextProg + 1 ∧ ∃ p ∈ t.te.progs, p.id = s.te.nextProg ∧ p.die = die.val ∧ p.kind = .host ∧
      p.drain = false)) ∧
  (∀ (p : Prog) (b pg : Nat) (str : Option Nat) (s u v : State), s.te.progs = [p] → p.kind = .host → p.stage = .ready →
    s.dieBusy (s.progDie p) = false → (s.die (s.progDie p)).failed = false →
    s.nextPage (s.progDie p) 1 p.seq = some (b, pg, u) → u.stripeFor (s.progDie p) = some (str, v) →
    ∃ t, exec (.pageProgramIssue p.id) s = .next t ∧
    Output.media (chanOf (s.progDie p)) Cmd.program [s.progDie p, b, pg, p.seq] ∈ t.out ∧
    t.mpage (s.progDie p) b pg =
      makePage 0x5A01 (tileFlags p.tiles) p.drain p.seq (tileBody p.tiles) (v.encodePage p)) ∧
  (∀ (die : Fin 320) (sw : Word) (dcrcOk : Bool) (b : Nat) (s : State), s.rt.reqs = [] → sw.toNat / 2 ^ 28 = 5 →
    sw.getLsbD 5 = true → sw.getLsbD 4 = false → sw.getLsbD 15 = false → sw.getLsbD 18 = false →
    s.te.progs.all (fun p => p.die != die.val) = true → (s.die die).erase = some b →
    16 ≤ b →
    ∃ t, exec (.statusWordReceived die sw dcrcOk) s = .next t ∧ (t.die die).erase = none ∧ (t.die die).sts = sw ∧
    (t.blk die b).st = 0 ∧ (t.blk die b).erases = min 65535 ((s.blk die b).erases + 1)) ∧
  (∀ (path : Path) (s : State), s.isManager path = true →
    ∃ t, exec (.tsFlush path) s = .next t ∧ t.te.slots = s.te.slots ∧ ∀ x a, x ∈ s.te.slots → x.2.anyDirty = true → x.2.tile = some a →
      x.2.st.all (fun e => decide (e.1 < 64)) = true →
      ⟨a, slotMask x.2 (fun c => c == 2), slotMask x.2 (fun c => c == 4)⟩ ∈ t.te.flushTiles ∧ t.bit F.TS_STS.FLUSH_BUSY = true ∧ t.bit F.TS_CTL.FLUSH = true)

/-- The commands of the line cache — LC_EN_CLEAR, LC_EN_SET, SAFE_DISABLE, the six range operations, WALKER_TAKE_OPERATION,
WALKER_VISIT and LC_CHECK_WALK_DONE — complete with their effects; a range operation with an error of Table 5.4 shows it and starts
nothing (R148–R158, R163). -/
def Obligations.LineCacheCommands : Prop :=
  (∀ (path : Path) (s : State), s.rt.reqs = [] → s.isManager path = true → s.bit F.LC_CTL.EN = true → s.bit F.LC_STS.SAFE_BUSY = false →
    ∃ t, exec (.lcEnClear path) s = .next t ∧ t.bit F.LC_CTL.EN = false ∧ t.lc.ways = s.lc.ways ∧
    ((∃ x ∈ s.lc.ways, x.2.v = true) → t.bit F.LC_STS.STALE_HELD = true)) ∧
  (∀ (path : Path) (s : State), s.isManager path = true → s.bit F.LC_CTL.EN = false → s.bit F.LC_STS.SAFE_BUSY = false →
    s.bit F.SIR_CHK_STS.ACTIVE = false → ∃ t, exec (.lcEnSet path) s = .next t ∧ t.bit F.LC_CTL.EN = true ∧ t.lc = s.lc ∧
    t.bit F.LC_STS.STALE_HELD = false ∧ (s.bit F.LC_STS.STALE_HELD = true → t.bit F.LC_STS.STALE_REENABLED = true)) ∧
  (∀ (path : Path) (s : State), s.isManager path = true → s.bit F.LC_CTL.EN = true → s.bit F.LC_STS.SAFE_BUSY = false →
    ∃ t, exec (.safeDisable path) s = .next t ∧
    t.regsAre ((s.setBit F.LC_STS.SAFE_BUSY true).setBit F.LC_CTL.SAFE_DISABLE true) ∧
    t.lc = { s.lc with walkQ := s.lc.walkQ ++ [⟨.safeDisable, 0, imageLines, none, 0, 0, 0, 0, false⟩] }) ∧
  (∀ x ∈ [(0, Instr.rangeInvalidate), (1, .rangeClean), (2, .rangeCleanInv), (3, .rangeLock), (4, .rangeUnlock), (5, .rangeZero)],
    ∀ (path : Path) (ovr all : Bool) (s : State), s.isManager path = true → s.bit F.LC_RANGE_STS.BUSY = false →
    let first := if all then 0 else (s.num R.LC_RANGE_BASE_LO + 2 ^ 32 * (s.num R.LC_RANGE_BASE_HI % 4096)) / 64
    let count := if all then s.capLines else s.num R.LC_RANGE_LEN_LO + 2 ^ 32 * (s.num R.LC_RANGE_LEN_HI % 128)
    ∃ t, exec (x.2 (.reg path ovr all)) s = .next t ∧
    (s.rangeErr x.1 first count all false = 0 → t.bit F.LC_RANGE_STS.BUSY = true ∧ t.bit F.LC_RANGE_CTL.START = true ∧
      t.rd R.LC_RANGE_DONE = 0 ∧ t.rd R.LC_RANGE_SKIPPED = 0 ∧
      t.lc.walkQ = s.lc.walkQ ++ [⟨.range x.1 ovr, first, count, none, 0, 0, 0, 0, false⟩]) ∧
    (s.rangeErr x.1 first count all false ≠ 0 → t.get F.LC_RANGE_STS.ERR = s.rangeErr x.1 first count all false ∧ t.lc = s.lc)) ∧
  (∀ (s : State) (o : WalkOp), s.fencedSrc 10 = false → s.lc.walker = none → s.lc.walkQ = [o] →
    ∃ t, exec .walkerTakeOperation s = .next t ∧ t.lc.walker = some o ∧ t.lc.walkQ = [] ∧
    (o.isReg = true → t.bit F.LC_RANGE_STS.RUN = true)) ∧
  (∀ (s : State) (o p : WalkOp) (id op : Nat) (b : Bool), s.fencedSrc 10 = false → s.lc.walker = none → s.lc.walkQ = [o, p] →
    o.kind = .range op b → p.kind = .discard id →
    ∃ t, exec .walkerTakeOperation s = .next t ∧ t.lc.walker = some p ∧ t.lc.walkQ = [o]) ∧
  (∀ (s : State) (o : WalkOp), s.rt.reqs = [] → s.fencedSrc 10 = false → s.lc.walker = some o → o.kind = .range 0 true → o.pos < 65535 →
    o.way = 0 → ∃ t, exec (.walkerVisit []) s = .next t ∧ (t.lc.walker.map (·.pos)) = some (o.pos + 1) ∧
    ∀ w ∈ s.waysOf o.pos, (t.way o.pos w).v = false ∨ o.covers (wayLine o.pos (t.way o.pos w)) = false) ∧
  (∀ (s : State) (o : WalkOp), s.rt.reqs = [] → s.fencedSrc 10 = false → s.lc.walker = some o → o.kind = .range 0 true → o.port = none →
    o.pos = 65535 → ∃ t, exec (.walkerVisit []) s = .next t ∧ t.lc.walker = none ∧ t.bit F.LC_RANGE_STS.BUSY = false ∧
    t.bit F.LC_RANGE_STS.DONE = true ∧ t.get F.LC_RANGE_STS.PCT = 100) ∧
  (∀ (found : List (Fin 65536 × Upset)) (s : State), s.coreUp = true → s.bit F.LC_STS.CHECK_BUSY = true →
    ∃ t, exec (.lcCheckWalkDone found) s = .next t ∧ t.bit F.LC_STS.CHECK_BUSY = false ∧
    t.rd R.LC_DIRTY_CNT = BitVec.ofNat 32 (t.lc.ways.filter (fun w => w.2.v && w.2.d)).length ∧
    t.rd R.LC_LOCK_CNT = BitVec.ofNat 32 (t.lc.ways.filter (fun w => w.2.v && w.2.l)).length)

/-- The commands of the map cache and of the translation engine — MAPC_EN_CLEAR, MAPC_INV, MAPC_INV_DONE, MAP_REPAIR_DONE,
PTILE_CONVERT, SEQ_HW_RAISED, JOURNAL_INTERVAL_EXPIRY, TE_FLUSH, TE_CKPT_ALL, CHECKPOINT_WRITE and REBUILD (formatting) — complete with their
effects (R162, R175, R178, R189, R194–R196, R552). -/
def Obligations.MapCommands : Prop :=
  (∀ (path : Path) (s : State), s.isManager path = true → s.bit F.MAPC_CTL.EN = true →
    ∃ t, exec (.mapcEnClear path) s = .next t ∧ t.regsAre (((s.setBit F.MAPC_CTL.EN false).setBit F.MAPC_STS.INV_BUSY true).setBit F.MAPC_CTL.INV true)) ∧
  (∀ (path : Path) (s : State), s.isManager path = true →
    ∃ t, exec (.mapcInv path) s = .next t ∧ t.regsAre ((s.setBit F.MAPC_CTL.INV true).setBit F.MAPC_STS.INV_BUSY true)) ∧
  (∀ s : State, s.coreUp = true → s.bit F.MAPC_STS.INV_BUSY = true → ∃ t, exec .mapcInvDone s = .next t ∧ t.te.mapc = [] ∧
    t.bit F.MAPC_STS.INV_BUSY = false ∧ t.bit F.MAPC_CTL.INV = false ∧ t.rd R.MAPC_VALID_CNT = 0 ∧ t.te.map = s.te.map) ∧
  (∀ (tile : BitVec 32) (s : State), s.rt.reqs = [] → s.te.bad.contains tile.toNat = true →
    s.te.slots.all (fun x => x.2.tile != some tile.toNat) = true →
    ∃ t, exec (.mapRepairDone tile true) s = .next t ∧ t.te.bad.contains tile.toNat = false ∧
    t.entry tile.toNat = { s.replayEntry tile.toNat with pline := s.ptMask tile.toNat != 0, slot := 0 }) ∧
  (∀ (tile : BitVec 32) (s : State), (s.entry tile.toNat).ptile = true → sget 0 s.te.since tile.toNat = BitVec.allOnes 64 →
    s.num R.TE_PT_LINES ≤ 65536 → ∃ t, exec (.ptileConvert tile) s = .next t ∧ (t.entry tile.toNat).ptile = false ∧
    t.te.buckets = s.te.buckets ∧ sget 0 t.te.since tile.toNat = 0) ∧
  (∀ s : State, s.rt.reqs = [] → s.te.progs = [] → s.te.flushWait = false → s.seqHw < s.counter 3 * 2 ^ 20 →
    ∃ t, exec .seqHwRaised s = .next t ∧ t.rd R.TE_SEQ_HW_LO = BitVec.ofNat 32 (s.counter 3 * 2 ^ 20) ∧
    t.rd R.TE_SEQ_HW_HI = BitVec.ofNat 32 (s.counter 3 * 2 ^ 20 / 2 ^ 32)) ∧
  (∀ (path : Path) (pos d pg : Nat) (s : State), s.te.jbuf ≠ [] → s.te.jbuf.length ≤ 1024 → s.ringSpot = some (pos, d, pg) →
    s.mpage d ringBlock pg = MPage.erased → s.jseq + 1024 ≤ s.jrnFloor + s.jrnSpan → s.seqNext < s.seqHw → s.seqNext < 2 ^ 48 →
    let done := fun (t : State) => t.te.jbuf = [] ∧ t.te.flushWait = false ∧ t.mpage d ringBlock pg =
      makePage 0x5A02 0 s.te.drainMode s.seqNext (areaBody pos s.te.jbuf.length s.jseq) (areaLines s.seqNext (journalLine s.te.jbuf)) ∧
      Output.media (chanOf d) Cmd.program [d, ringBlock, pg, s.seqNext] ∈ t.out
    (∃ t, exec .journalIntervalExpiry s = .next t ∧ done t) ∧
    (s.isManager path = true → ∃ t, exec (.teFlush path) s = .next t ∧ done t)) ∧
  (∀ (path : Path) (s : State), s.isManager path = true →
    let todo := (s.te.changed.map (fun x => x.1) ++ s.te.ckptJobs.map (fun c => c.seg)).foldl (fun l g => setIns g l) s.te.ckptTodo
    ∃ t, exec (.teCkptAll path) s = .next t ∧ t.te.ckptTodo = todo ∧ t.regsAre (s.setBit F.TE_CTL.CKPT_ALL (!todo.isEmpty))) ∧
  (∀ (seg : Nat) (s : State), s.bit F.TE_STS.MAP_READY = true → s.draining = false → seg < ptSegment 0 → sget 0 s.te.changed seg ≠ 0 →
    s.te.ckptJobs.all (fun c => c.seg != seg) = true → 64 ≤ (s.bufsFree 64).length →
    ∃ t, exec (.checkpointWrite seg) s = .next t ∧ t.te.changed = serase s.te.changed seg ∧
    (∃ j, t.te.ckptJobs = s.te.ckptJobs ++ [j] ∧ j.seg = seg ∧ j.jseq = s.jseq + s.te.jbuf.length ∧ j.pages = []) ∧
    ∀ k, k < 64 → ∃ p ∈ t.te.progs, p.kind = .ckpt seg k ∧ p.die = s.ckptDie seg k) ∧
  (∀ (noise : ReadNoise) (s : State), s.rt.reqs = [] → s.coreUp = true → s.get F.BOOT_STS.PHASE = 4 → s.bit F.BOOT_STS.HALT = false →
    (∀ c, c < 40 → s.bit (F.MC_STS.TRAIN_BUSY c) = false) → s.ce.derives = [] → s.anchor = none → s.te.media = [] →
    ∃ t, exec (.rebuild noise) s = .next t ∧ t.bit F.TE_STS.MAP_READY = true ∧ t.get F.BOOT_STS.PHASE = 5 ∧ t.te.fmt = s.presentDies)

/-- The commands of media upkeep — STRIPE_CLOSE_TIMEOUT, VERIFY_ELIGIBLE, PAGE_VERIFY, BLOCK_ERASE, GC_COPY, WEAR_LEVEL_COPY,
ROTATION_COPY, SECURE_DISCARD_RELOCATE, SPARE_RECOMPUTE and RETIRED_DIE_TILE_WORK — complete with their effects (R66, R211, R215, R216, R218,
R220, R223, R226, R227, R308). -/
def Obligations.UpkeepCommands : Prop :=
  (∀ (id : Nat) (x : Stripe) (s : State), s.te.stripes.find? (fun x => x.id == id) = some x →
    ∃ t, exec (.stripeCloseTimeout id) s = .next t ∧ ∃ y ∈ t.te.stripes, y.id = id ∧ y.closed = true) ∧
  (∀ (die : Fin 320) (b p : Fin 2048) (s : State), (s.blk die b).st = 1 ∨ (s.blk die b).st = 2 → p.val + 3 < (s.blk die b).next →
    (s.blk die b).verified.contains p.val = false → (s.blk die b).copying.contains p.val = false → s.te.progs.all (fun q => q.die != die.val) = true →
    ∃ t, exec (.verifyEligible die b p) s = .next t ∧
    t.blk die b = { s.blk die b with eligible := setIns p.val (s.blk die b).eligible }) ∧
  (∀ (die : Fin 320) (b p : Fin 2048) (s : State), s.fencedSrc 10 = false → (s.blk die b).eligible.contains p.val = true →
    s.sirWorks = true → s.sirTurn 2 die = true → s.bgCan die = true → ∃ t, exec (.pageVerify die b p [] []) s = .next t ∧ (t.blk die b).verified = setIns p.val (s.blk die b).verified ∧
    (t.blk die b).eligible = setDel p.val (s.blk die b).eligible ∧
    ((s.blk die b).st = 4 → (∀ q, q < (s.blk die b).next → (setIns p.val (s.blk die b).verified).contains q = true) →
      (s.validTiles die b).isEmpty = false → (t.blk die b).st = 5)) ∧
  (∀ (die : Fin 320) (b : Fin 2048) (s : State), (s.blk die b).st = 7 → (s.blk die b).erasing = false → (s.blk die b).copiedTo = [] →
    (s.blk die b).flushAt ≤ s.jseq → s.te.reads.all (fun m => m.loc.die != die.val) = true → s.dieBusy die = false →
    (s.die die).failed = false → ∃ t, exec (.blockErase die b) s = .next t ∧ (t.die die).erase = some b.val ∧
    (t.blk die b).erasing = true ∧ Output.media (chanOf die) Cmd.erase [die.val, b.val] ∈ t.out) ∧
  (∀ (die : Fin 320) (tu : Fin 24) (g : GcJob) (s : State), s.tutorsRun tu = true → s.bufFree.isSome = true →
    s.copying die = false → (s.die die).failed = false → s.te.gc.find? (fun g => g.die == die.val && !g.wear) = some g →
    s.copyTiles g ≠ [] → ∃ t, exec (.gcCopy die tu) s = .next t ∧ ∃ p ∈ t.te.progs, p.id = s.te.nextProg ∧ p.kind = .copy g.wear) ∧
  (∀ (die : Fin 320) (tu : Fin 24) (g : GcJob) (s : State), s.tutorsRun tu = true → s.bufFree.isSome = true →
    s.bit F.TE_UPK_CTL.WL_EN = true → (s.die die).urgent = false → s.num R.TE_WL_SPREAD % 16384 < s.spread die →
    s.copying die = false → (s.die die).failed = false → s.te.gc.find? (fun g => g.die == die.val && g.wear) = some g →
    s.copyTiles g ≠ [] → ∃ t, exec (.wearLevelCopy die tu) s = .next t ∧
    ∃ p ∈ t.te.progs, p.id = s.te.nextProg ∧ p.kind = .copy g.wear) ∧
  (∀ (n : Fin 16) (die : Fin 320) (tu : Fin 24) (g : GcJob) (s : State), s.tutorsRun tu = true → s.bufFree.isSome = true →
    s.bit (F.CE_RG_SLOT.ROTATING n) = true → (s.die die).urgent = false →
    s.copying die = false → (s.die die).failed = false →
    s.te.gc.find? (fun g => g.die == die.val && g.only && g.tutor != 24) = some g → s.copyTiles g ≠ [] →
    ∃ t, exec (.rotationCopy n die tu) s = .next t ∧ ∃ p ∈ t.te.progs, p.id = s.te.nextProg ∧ p.kind = .copy g.wear) ∧
  (∀ (die : Fin 320) (b : Nat) (x : Discard) (s : State), s.fencedSrc 10 = false → s.te.discards = [x] → x.secure = true → x.accepted = true →
    x.blocks = [2048 * die + b] → b < 2048 → s.bit F.TE_STS.MAP_READY = true → s.draining = false → s.copying die = false →
    (s.die die).failed = false → (s.blk die b).st = 5 → (s.blk die b).condemned = false → s.te.gc = [] → s.validTiles die b = [] →
    ∃ t, exec (.secureDiscardRelocate x.id die) s = .next t ∧ (t.blk die b).st = 7) ∧
  (∀ s : State, s.te.fmt ≠ [] → ∃ t, exec .spareRecompute s = .next t ∧
    t.rd R.TE_SPARE_TOTAL = BitVec.ofNat 32 ((s.diesLive.map s.spareOf).foldl (· + ·) 0)) ∧
  (∀ (die : Fin 320) (tile lost : Nat) (l : Loc) (s : State), (List.range 24).any s.tutorsRun = true → s.te.dieWork = [(die.val, [tile], lost)] → (s.entry tile).loc = some l →
    l.die = die.val → (s.entry tile).st = 1 → s.obpHolds l = false → s.partnerCopy (64 * tile) = false →
    ∃ t, exec (.retiredDieTileWork die none) s = .next t ∧ t.te.dieWork = [] ∧ (t.entry tile).ptile = true)

/-- The drift commands — DRIFT_CLOCK_SECOND, AGE_LEDGER_ENTRY, DRAM_LEDGER_ENTRY, BLOCK_AGE_RECOMPUTE, REFERENCE_SET_LOAD,
READ_REFERENCE_TRACKING, AGE_SWEEP and DRIFT_REFRESH — complete with their effects (R273–R277, R279, R282, R284). -/
def Obligations.DriftCommands : Prop :=
  (∀ s : State, s.coreUp = true → ∃ t, exec .driftClockSecond s = .next t ∧ t.regs = s.regs ∧
    ∀ z, z < 8 → t.driftOf z = (s.driftOf z + s.factor16 (s.band z)) % 2 ^ 52) ∧
  (∀ (c : PstOp) (s : State), s.pst.cur = some c → c.job.isErase = false → ∃ t, exec .ageLedgerEntry s = .next t ∧ t.regsAre s ∧
    t.pst.queue = s.pst.queue ++ [⟨.ledger ((s.seqNext / 65536 :: (List.range 8).map (fun z =>
      s.driftMin z % 2 ^ 28 + (if z = 7 then 5 * 2 ^ 28 else 0))).map (BitVec.ofNat 32)), [], false, false⟩]) ∧
  (∀ s : State, s.bit F.TE_STS.MAP_READY = true → ∃ t, exec .dramLedgerEntry s = .next t ∧
    t = { s with sir.ledger := s.sir.ledger ++ [(s.seqNext, (List.range 8).map s.driftOf)] }) ∧
  (∀ s : State, s.bit F.TE_STS.MAP_READY = true → ∃ t, exec .blockAgeRecompute s = .next t ∧ t.regs = s.regs ∧ t.te = s.te ∧
    ∀ k ∈ s.usedBlocks, sget 0 t.sir.ages k =
      s.ageClass (s.pageDrift s.ledgers (zoneOf (k / 2048)) ((s.blk (k / 2048) (k % 2048)).seqs.getLastD 0))) ∧
  (∀ (die : Fin 320) (s : State), s.sir.refPend.contains die.val = true → (s.die die).failed = false → s.dieBusy die = false →
    ∃ t, exec (.referenceSetLoad die) s = .next t ∧ t.sir.refPend = setDel die.val s.sir.refPend ∧
    ∀ n, n < 7 → sget 0 (t.mdie die).refs n = s.refOf die (s.band (zoneOf die)) n) ∧
  (∀ (die : Fin 320) (scores : List (Fin 5 × Nat × List Nat)) (s : State), s.fencedSrc 10 = false → s.bit F.SIR_CTL.TRACK_EN = true →
    s.sirWorks = true → s.sirTurn 5 die = true → sget 0 s.sir.trkDue die ≤ s.tick.toNat → s.bgCan die = true →
    ∃ t, exec (.readReferenceTracking die scores) s = .next t ∧
    sget 0 t.sir.trkDue die = (if sget 0 s.sir.trkDue die = 0 then s.tick.toNat else sget 0 s.sir.trkDue die) +
      s.num R.SIR_TRACK_INT % 2048 * 60000 * msTicks) ∧
  (∀ (die : Fin 320) (b : Fin 2048) (bits : List Nat) (k : Nat) (s : State), s.fencedSrc 10 = false → s.bit F.SIR_STS.SWEEP_BUSY = true →
    (s.blk die b).unknown = true → s.sir.swept = [] → s.sirWorks = true → s.sirTurn 4 die = true → s.bgCan die = true →
    k ∈ s.unknownBlocks → k ≠ 2048 * die.val + b.val →
    ∃ t, exec (.ageSweep die b bits) s = .next t ∧ t.sir.swept = [(2048 * die.val + b.val, sweepClass bits)] ∧
    t.bit F.SIR_STS.SWEEP_BUSY = true) ∧
  (∀ (die : Fin 320) (b : Fin 2048) (s : State), s.fencedSrc 10 = false → s.bit F.TE_STS.MAP_READY = true →
    s.draining = false → (s.blk die b).unknown = false → (s.die die).failed = false → s.sir.refresh = [] → (s.blk die b).st = 5 →
    (s.blk die b).seqs ≠ [] → s.refreshDue (zoneOf die) ((s.blk die b).seqs.headD 0) = true → s.copying die = true →
    s.validTiles die b ≠ [] → ∃ t, exec (.driftRefresh die b) s = .next t ∧ t.te.gc = s.te.gc ++
      [⟨die.val, b.val, false, 24, (s.validTiles die b).map (fun x => (x.1, x.2, x.2)), true⟩] ∧
    ∃ n, t.sir.refresh = [(2048 * die.val + b.val, n, s.validTiles die b)])

/-- The patrol and test commands of the Sirocco engine and the codec — SCRUB_PASS, MEDIA_SCRUB_READ, UNREQUESTED_RECOVERY,
SRAM_PATROL_PASS, SRAM_PATROL_WORD, SIROCCO_DEADLINE_PASSED, SIR_CHK_WRITE, SIR_CHK_READ, SIR_CHK_END, MG_CW_ENCODE and MG_CW_DECODE —
complete with their effects (R268–R271, R285–R287, Table 9.15). -/
def Obligations.PatrolAndTestCommands : Prop :=
  (∀ s : State, s.fencedSrc 10 = false → s.bit F.SIR_CTL.SCRUB_EN = true → s.sirWorks = true → s.sir.scrub.due ≤ s.tick.toNat →
    s.sir.scrubTodo = [] → s.te.media ≠ [] → ∃ t, exec .scrubPass s = .next t ∧ t.sir.scrubTodo = s.scrubPages ∧
    t.sir.scrub = ⟨true, (if s.sir.scrub.due = 0 then s.tick.toNat else s.sir.scrub.due) +
      s.num R.SIR_SCRUB_PERIOD % 1024 * 3600000 * msTicks⟩) ∧
  (∀ (key : Nat) (rest : List Nat) (s : State), s.fencedSrc 10 = false → s.bit F.SIR_CTL.SCRUB_EN = true →
    s.sirWorks = true → s.sir.scrub.on = true → s.sir.scrubTodo = key :: rest → rest ≠ [] →
    s.te.media.any (fun x => x.1 == key) = true → s.sirTurn 6 (key / 2048 / 2048) = true → s.bgCan (key / 2048 / 2048) = true →
    ∃ t, exec (.mediaScrubRead { bits := [], bad := [] }) s = .next t ∧
    t.sir.scrubTodo = rest ∧ t.rd R.SIR_SCRUB_PAGES = (s.bump R.SIR_SCRUB_PAGES).rd R.SIR_SCRUB_PAGES) ∧
  (∀ (l : Loc) (pos : Nat) (rest : List (Loc × Nat)) (x : Stripe) (tag : Bool) (s : State), s.fencedSrc 10 = false →
    s.sir.recover = (l, pos) :: rest → s.sirWorks = true → s.bgCan l.die = true → (s.mpage l.die l.block l.page).typ = 0x5A04 →
    s.parityRemade (packPage l.die l.block l.page) pos = false →
    s.te.stripes.find? (fun y => y.parity == some (packPage l.die l.block l.page) && !y.released) = some x →
    ∃ t, exec (.unrequestedRecovery (.no tag)) s = .next t ∧ t.sir.recover = rest ∧
    ∀ y ∈ t.te.stripes, y.id = x.id → y.released = true) ∧
  (∀ s : State, s.fencedSrc 10 = false → s.bit F.SIR_CTL.SRAM_EN = true → s.sir.sram.due ≤ s.tick.toNat → ∃ t, exec .sramPatrolPass s = .next t ∧
    t.sir.sram = ⟨true, (if s.sir.sram.due = 0 then s.tick.toNat else s.sir.sram.due) +
      s.num R.SIR_SRAM_PERIOD % 1024 * 100 * msTicks⟩) ∧
  (∀ s : State, s.fencedSrc 10 = false → s.sir.sram.on = true →
    (∃ t, exec (.sramPatrolWord .clean) s = .next t ∧ t.regsAre s) ∧
    (∃ t, exec (.sramPatrolWord (.fix false)) s = .next t ∧ t.regsAre (s.bump R.SIR_SRAM_FIX)) ∧
    (∃ t, exec (.sramPatrolWord (.fix true)) s = .next t ∧ t.regsAre s)) ∧
  (∀ (ms : Word) (s : State), s.fencedSrc 10 = false → s.sir.refresh ≠ [] →
    ∃ t, exec (.siroccoDeadlinePassed 3 ms) s = .next t ∧ t.rd R.SIR_LAG_REF = ms ∧ (ms ≠ 0 → t.bit F.SIR_STS.LATE = true)) ∧
  (∀ (path : Path) (a : Fin 8) (s : State), s.isManager path = true → s.chkErr a s.chkIdx = 0 →
    ∃ t, exec (.sirChkWrite path a) s = .next t ∧ t.bit F.SIR_CHK_STS.ACTIVE = true ∧ t.bit F.SIR_CHK_STS.DONE = true ∧
    t.get F.SIR_CHK_STS.ERR = 0 ∧ (a.val, s.chkIdx,
      (s.num (R.SIR_CHK_D 0) + s.num (R.SIR_CHK_D 1) * 2 ^ 32 + s.num (R.SIR_CHK_D 2) * 2 ^ 64 + s.num (R.SIR_CHK_D 3) * 2 ^ 96) %
        2 ^ (chkWidth a).1, s.num R.SIR_CHK_CB % 2 ^ (chkWidth a).2) ∈ t.lc.test) ∧
  (∀ (path : Path) (a : Fin 8) (d c : Nat) (s : State), s.isManager path = true → s.chkErr a s.chkIdx = 0 →
    s.lc.test.find? (fun x => x.1 == a.val && x.2.1 == s.chkIdx) = some (a.val, s.chkIdx, d, c) →
    ∃ t, exec (.sirChkRead path a) s = .next t ∧ t.bit F.SIR_CHK_STS.DONE = true ∧ t.get F.SIR_CHK_STS.ERR = 0 ∧
    t.get F.SIR_CHK_STS.RESULT = (chkDecode a d c).1 ∧ t.rd (R.SIR_CHK_D 0) = BitVec.ofNat 32 (chkDecode a d c).2.1 ∧
    t.rd R.SIR_CHK_CB = BitVec.ofNat 32 c) ∧
  (∀ (path : Path) (s : State), s.isManager path = true → s.lc.enWait = false → s.lc.mapcEnWait = false →
    ∃ t, exec (.sirChkEnd path) s = .next t ∧
    t.regsAre ((s.setBit F.SIR_CHK_STS.ACTIVE false).setBit F.SIR_CHK_STS.DONE true) ∧
    t.lc.test = s.lc.test.filter (fun x => decide (4 ≤ x.1))) ∧
  (∀ (g : Fin 5) (path : Path) (s : State), s.isManager path = true → ∃ t, exec (.mgCwEncode g path) s = .next t ∧
    t.regsAre ((s.setCw g (bchEncode (s.cwBuf g))).setBit ⟨R.MG_CW_RES g, 5, 1⟩ true)) ∧
  (∀ (g : Fin 5) (path : Path) (wb : Bool) (s : State), s.isManager path = true → ∃ t, exec (.mgCwDecode g path wb) s = .next t ∧
    match bchDecode (s.cwBuf g) with
    | some (w, n) => t.regsAre ((if wb then s.setCw g w else s).wrN (R.MG_CW_RES g) (n + 32))
    | none => t.regsAre (s.wrN (R.MG_CW_RES g) 48))

/-- The commands of the cipher engine — KEY_DERIVATION_DONE, SLOT_FREED, ROTATION_RECORD_WRITTEN, ENTROPY_HEALTH_TEST, ENTROPY_RETRY,
DRBG_RESEED, EXPORT_CHUNK_PRODUCE, IMPORT_LINE_WRITE, IMPORT_TRAILER, IMPORT_CHUNK_COMMIT and KAT_RUN — complete with their effects
(R300, R301, R308, R314, R315, R317, R318, R321–R323, R326). -/
def Obligations.CipherCommands : Prop :=
  (∀ (q : Derive) (rest : List Derive) (s : State), s.bit F.CE_STS.KAT_FAIL = false → s.bit F.CE_STS.DRBG_OK = true →
    s.ce.derives = q :: rest → s.ce.enables = [] → q.why = .again → s.ce.waits = [] → s.rt.reqs = [] → s.hp.serialQ = [] → ∃ t, exec .keyDerivationDone s = .next t ∧ t.ce.derives = rest ∧
    (t.keySlot q.slot).st = 2 ∧ (t.keySlot q.slot).key = kdf (s.prfKey q.prf) q.purpose q.ctx) ∧
  (∀ (slot : Fin 4096) (s : State), (s.keySlot slot).st = 3 → s.slotRefs slot = 0 →
    ∃ t, exec (.slotFreed slot) s = .next t ∧ (t.keySlot slot).st = 0 ∧
    t.rd R.CE_SLOTS_USED = BitVec.ofNat 32 (t.ce.slots.filter (fun x => x.2.st != 0)).length) ∧
  (∀ (n : Fin 16) (slot rot : Nat) (s : State), s.rt.reqs = [] → s.te.progs = [] → s.te.flushWait = false →
    s.ce.rotations = [(n.val, slot, rot)] → slot < 4096 → ∃ t, exec (.rotationRecordWritten n) s = .next t ∧ t.ce.rotations = [] ∧
    t.get ⟨R.CE_RG_SLOT n, 0, 12⟩ = slot ∧ t.rd (R.CE_RG_LBL0 n) = BitVec.ofNat 32 (s.keySlot slot).label ∧
    t.rd (R.CE_RG_ROTSEQ_LO n) = BitVec.ofNat 32 rot) ∧
  (∀ s : State, s.ce.entFailed = false →
    (∃ t, exec (.entropyHealthTest true) s = .next t ∧ t = { s with ce.entFails := 0, ce.entPasses := s.ce.entPasses + 1 }) ∧
    (s.ce.entFails < 2 → ∃ t, exec (.entropyHealthTest false) s = .next t ∧ t.regsAre (s.bump R.CE_ENT_FAIL) ∧
      t.ce = { s.ce with entFails := s.ce.entFails + 1, entPasses := 0 }) ∧
    (2 ≤ s.ce.entFails → s.coreUp = true → (s.fcSrc 123).wire = false → ∃ t, exec (.entropyHealthTest false) s = .next t ∧
      t.ce.entFailed = true ∧ t.bit F.CE_STS.ENT_DEGRADED = true ∧ t.fltSeen 123 Kind.LIMIT = true)) ∧
  (∀ s : State, s.ce.entFailed = true → 15 ≤ s.ce.entPasses → ∃ t, exec (.entropyRetry true) s = .next t ∧ t.ce.entFailed = false ∧
    t.regsAre (s.setBit F.CE_STS.ENT_DEGRADED false)) ∧
  (∀ s : State, s.bit F.CE_STS.DRBG_OK = true →
    (s.ce.entFailed = false → ∃ t, exec .drbgReseed s = .next t ∧ t.ce = { s.ce with drbgUse := 0, drbg := s.ce.drbg + 1 } ∧
      t.regsAre (s.bump R.CE_RESEED_CNT)) ∧
    (s.ce.entFailed = true → s.coreUp = true → (s.fcSrc 124).wire = false → ∃ t, exec .drbgReseed s = .next t ∧
      t.bit F.CE_STS.DRBG_OK = false ∧ t.fltSeen 124 Kind.STALL = true)) ∧
  (∀ (w : Fin 16) (x : Stream) (s : State), s.streamOf w = some x → s.streamBy x.slot = some x → s.exportDue x = true →
    let l := s.exportLines x
    ∃ t, exec (.exportChunkProduce w) s = .next t ∧
      match ((s.linesRead (x.first + x.chunk * 16384) l.length).keyUse x.slot).streamPuts x.slot (s.frameLinesOf x l) with
      | none => t = s
      | some u => t.te = u.te ∧ Output.other 6 [x.chunk, w.val + (decide (x.count ≤ x.chunk * 16384 + 16384)).toNat * 8192] ∈ t.out ∧
        ∃ y, t.streamBy x.slot = some y ∧ y.chunk = x.chunk + 1 ∧ y.unread = x.unread + 1 ∧ y.lastOk = some x.chunk) ∧
  (∀ (port : Fin 8) (tag : BitVec 16) (line : BitVec 38) (d : Line) (n : Fin 16) (x : Stream) (s : State), s.hasCredit port true = true →
    s.booting = false → s.fenced = false → s.roState = false → s.rt.reqs = [] → s.regionOf line.toNat = some n.val →
    s.get (F.RT_RG_CTL.PORT n) = port.val → s.bit (F.RT_RG_CTL.XFER n) = true → s.streamOf n = some x → s.streamBy x.slot = some x →
    x.dir = 1 → x.st = 1 → s.windowTakes n (line.toNat - s.rgFirst n) = true → line.toNat - s.rgFirst n < s.frames n * frameLines →
    let off := line.toNat - s.rgFirst n
    let f := off / frameLines
    let k := x.frameChunk (s.frames x.window) f
    (off % frameLines < 16384 → x.seen.contains off = false →
      ∃ t y, exec (.importLineWrite port tag line d (BitVec.allOnes 64)) s = .next t ∧ Output.memDone (.host port tag.toNat) ∈ t.out ∧
      t.streamBy x.slot = some y ∧ y.seen = setIns off x.seen ∧
      t.streamLine y off = d ^^^ gcmStream (s.keySlot x.slot).key (chunkIv k) (off % frameLines)) ∧
    (off % frameLines = 16384 → x.seen = [] → 0 < trLen d → trLen d ≤ 16384 →
      ∃ t, exec (.importTrailer port tag line d (BitVec.allOnes 64)) s = .next t ∧ Output.memDone (.host port tag.toNat) ∈ t.out ∧
      t.ce.streams = s.ce.streams.filter (fun y => y.slot != x.slot)) ∧
    (off % frameLines = 16384 → (∀ m, m < trLen d → x.seen.contains (frameLines * f + m) = true) →
      (∀ m, m < 32 → x.seen.contains (frameLines * f + (16385 + m)) = true) → 0 < trLen d → trLen d ≤ 16384 → trFinal d = true →
      64 * trToff d + trLen d ≤ x.count → x.lastOk = none →
      gcmTag (s.keySlot x.slot).key (s.keySlot x.slot).h (chunkIv k) (chunkAad d (s.framePmap x f)) (s.importCt x f k (trLen d)) = trTag d →
      ∃ t y, exec (.importTrailer port tag line d (BitVec.allOnes 64)) s = .next t ∧ Output.memDone (.host port tag.toNat) ∈ t.out ∧
      t.streamBy x.slot = some y ∧ y.ready = x.ready ++ [(k, d)] ∧ y.seen = x.seen)) ∧
  (∀ (w : Fin 16) (x : Stream) (k : Nat) (tr : Line) (rest : List (Nat × Line)) (s : State), s.rt.reqs = [] → s.streamOf w = some x →
    s.streamBy x.slot = some x → x.st = 1 → 8 ≤ s.ce.seeds → x.ready = (k, tr) :: rest →
    let r := s.xtsUse.commitLines true (s.chunkLines x k tr)
    (r.1 = (s.chunkLines x k tr).length → trFinal tr = false →
      ∃ t y, exec (.importChunkCommit w) s = .next t ∧ t.streamBy x.slot = some y ∧ y.chunk = k + 1 ∧ y.ready = rest ∧ y.placed = 0 ∧
      y.seen = x.seen.filter (fun o => o / frameLines != k % s.frames x.window) ∧ y.lastOk = some k ∧
      Output.other 6 [k, w.val] ∈ t.out) ∧
    (r.1 = (s.chunkLines x k tr).length → trFinal tr = true →
      ∃ t, exec (.importChunkCommit w) s = .next t ∧ t.ce.streams.all (fun y => y.slot != x.slot) = true ∧
      Output.other 6 [k, w.val + 8192] ∈ t.out) ∧
    (r.1 < (s.chunkLines x k tr).length →
      ∃ t y, exec (.importChunkCommit w) s = .next t ∧ t.streamBy x.slot = some y ∧ y.placed = x.placed + r.1 ∧ y.ready = x.ready)) ∧
  (∀ (path : Path) (s : State), s.isManager path = true → s.get F.CE_STS.LCS = 0 → s.bit F.CE_STS.KAT_BUSY = false →
    ∃ t, exec (.katRun path) s = .next t ∧
    t.regsAre ((s.setBit F.CE_CTL.KAT_RUN true).setBit F.CE_STS.KAT_BUSY true) ∧ t.ce.jobs = s.ce.jobs ++ [(s.ce.nextJob, .kat)])

/-- The packets of attachment and forwarding — HELLO, PROOF, HB, CRD, DOWN, FWD_RD, FWD_WR, FWD_RSP and FWD_CMP — complete with their
effects (R336, R343, R345, R346, R354, R357, R567). -/
def Obligations.AttachAndForwardPackets : Prop :=
  (∀ (h : Hello) (b : Bool) (s : State), s.carOn = true → ∃ t, exec (.hello h b) s = .next t ∧ t.tw.hello = some h ∧
    t.get F.CAR_STS.ATTACH_ERR = s.attachErr h ∧ (s.attachErr h = 0 → t.tw.fwdOut = s.fwdShare ∧ t.tw.twinList = b)) ∧
  (∀ (h : Hello) (k : Nat) (s : State), s.carOn = true → s.tw.hello = some h → s.pairKey = some k → s.get F.CAR_STS.ATTACH_ERR = 0 →
    s.bit F.CAR_STS.PAIRED = false → s.tw.decided = false →
    ∃ t, exec (.proof ((cmac k (proofOf h.side h.nonce.toNat s.tw.nonce)).toNat)) s = .next t ∧ t.tw.proof = true ∧
    t.bit F.CAR_STS.PAIRED = true) ∧
  (∀ (dev : Fin 6) (role : Fin 4) (token drain : Bool) (s : State), s.carOn = true → s.twinUp = true → s.tw.twinState ≠ 3 →
    ∃ t, exec (.hb dev role token drain) s = .next t ∧ t.tw.twinState = dev.val ∧
    (dev = 3 → t.tw.bmapOn = true ∧ t.bit F.CAR_STS.BMAP_VALID = true ∧ t.get F.CAR_RG_STS.EFF_OWN = s.get F.CAR_RG_STS.EFF_OWN)) ∧
  (∀ (f m : BitVec 16) (p r : BitVec 8) (s : State), s.carOn = true → s.tw.waits = [] → ∃ t, exec (.crd f m p r) s = .next t ∧
    sget 0 t.tw.cred 0 = sget 0 s.tw.cred 0 + f.toNat ∧ sget 0 t.tw.cred 1 = sget 0 s.tw.cred 1 + m.toNat ∧
    sget 0 t.tw.cred 2 = sget 0 s.tw.cred 2 + p.toNat ∧ sget 0 t.tw.cred 3 = sget 0 s.tw.cred 3 + r.toNat) ∧
  (∀ (c : Fin 4) (s : State), s.carOn = true → s.bit F.CAR_STS.PAIRED = true → s.bit F.CAR_STS.FENCED = false → s.rt.reqs = [] →
    s.tw.cmds = [] → s.te.discards = [] → s.tw.src = none → s.tw.tgt = none → s.tw.mwr = [] →
    ∃ t, exec (.down c) s = .next t ∧ t.bit F.CAR_STS.TOKEN_HELD = true ∧ t.bit F.CAR_STS.PAIRED = false ∧
    t.bit F.CAR_STS.FAILOVER = false ∧ t.get F.CAR_RG_STS.EFF_OWN = 0xFFFF ∧ t.tw.bmapOn = true) ∧
  (∀ (tag : BitVec 32) (line : BitVec 38) (port : Fin 8) (n w : Nat) (s : State), s.carOn = true → s.booting = false → s.fenced = false →
    s.regionOf line.toNat = some n → s.rt.reqs = [] → s.lcOn = true → s.lcFind line.toNat = some w → s.wayLost (lcSet line.toNat) w = false →
    (∃ t fl, exec (.fwdRd tag line port []) s = .next t ∧
      Output.caravan ⟨0x12, tag.toNat, [fl, (s.way (lcSet line.toNat) w).data.toNat]⟩ ∈ t.out) ∧
    ∀ d, s.roState = false → (s.way (lcSet line.toNat) w).d = true →
      ∃ t, exec (.fwdWr tag line port (BitVec.allOnes 64) d []) s = .next t ∧ (t.way (lcSet line.toNat) w).data = d) ∧
  (∀ (tag : Nat) (b : Bool) (cls : Fin 8) (rank : Fin 16) (d : Line) (r : Req) (s : State), s.carOn = true → s.forwarded tag = some r →
    (∃ p g, r.src = .host p g) →
    (r.kind = .read → ∃ t, exec (.fwdRsp tag b cls rank d) s = .next t ∧ Output.memData r.src d b ∈ t.out) ∧
    (r.kind ≠ .read → ∃ t, exec (.fwdCmp tag b cls rank) s = .next t ∧ Output.memDone r.src ∈ t.out))

/-- The packets of mirroring, repair and the token — MWR, MCMD, MACK, MCMD_ACK, REP_REQ, REP_RSP, TOKEN_OFFER, TOKEN_TAKE and
TOKEN_DONE — complete with their effects (R134–R136, R337, R339, R349). -/
def Obligations.MirrorRepairAndTokenPackets : Prop :=
  (∀ (seq w : Nat) (line : BitVec 38) (d : Line) (s : State), s.carOn = true → s.bit F.CAR_STS.PAIRED = true →
    s.bit F.CAR_STS.FENCED = false → s.roState = false → s.rt.reqs = [] → s.tw.tgt = none → s.lcOn = true →
    s.lcFind line.toNat = some w → (s.way (lcSet line.toNat) w).d = true →
    ∃ t, exec (.mwr seq line d false []) s = .next t ∧ (t.way (lcSet line.toNat) w).data = d ∧
    Output.caravan ⟨0x22, max seq s.tw.placedMax, []⟩ ∈ t.out) ∧
  (∀ (tag : Nat) (line : BitVec 38) (s : State), s.carOn = true → s.bit F.CAR_STS.PAIRED = true → s.bit F.CAR_STS.FENCED = false →
    s.tw.cmds = [] → ∃ t, exec (.mcmd tag (.inject line)) s = .next t ∧ sget 0 t.hp.psrc line.toNat = 1 ∧
    Output.caravan ⟨0x23, tag, [Rc.success.code % 128 + 128]⟩ ∈ t.out) ∧
  (∀ (seq q : Nat) (held : Bool) (r : Req) (d : Line) (s : State), s.carOn = true → s.rt.reqs = [r] → r.stage = .mirror q → q ≤ seq → r.kind = .write d →
    (∃ p g, r.src = .host p g) → ∃ t, exec (.mack seq held) s = .next t ∧ t.rt.reqs = [] ∧ Output.memDone r.src ∈ t.out ∧
    t.tw.mwr = s.tw.mwr.filter (fun x => decide (seq < x.1))) ∧
  (∀ (tag id : Nat) (status : BitVec 7) (c : TwCmd) (s : State), s.carOn = true → s.tw.cmds.find? (fun c => c.seq == tag) = some c →
    c.ack = none → c.disc = some id → s.hp.serialQ = [] → ∃ t, exec (.mcmdAck tag status false) s = .next t ∧
    t.tw.cmds = s.tw.cmds.map (fun x => if x.seq = tag then { x with ack := some status.toNat } else x)) ∧
  (∀ (tag w : Nat) (line : BitVec 38) (s : State), s.carOn = true → s.bit F.CAR_STS.PAIRED = true → s.rt.reqs = [] → s.lcOn = true →
    s.lcFind line.toNat = some w → s.wayLost (lcSet line.toNat) w = false → (s.way (lcSet line.toNat) w).p = false →
    ∃ t, exec (.repReq tag line []) s = .next t ∧
      Output.caravan ⟨0x31, tag, [0, (s.way (lcSet line.toNat) w).data.toNat]⟩ ∈ t.out) ∧
  (∀ (tag line : Nat) (loc : Option Loc) (b : Bool) (d : Line) (s : State), s.carOn = true →
    s.tw.reps.find? (fun x => x.1 == tag) = some (tag, .background line loc b) →
    s.slotCounts line = true → ∃ t, exec (.repRsp tag false d) s = .next t ∧ t.tw.reps = s.tw.reps.filter (fun x => x.1 != tag) ∧
    t.slotLine (s.entry (tileOf line)).slot (line % 64) = d ∧
    t.regsAre ((s.bump R.CAR_REP_OK).when loc.isSome (fun s => s.bump R.SIR_RECOV_PEER))) ∧
  (∀ s : State, s.carOn = true → s.bit F.CAR_STS.PAIRED = true → s.bit F.CAR_STS.TOKEN_HELD = false →
    ∃ t, exec .tokenOffer s = .next t ∧ t.tw.tokMove = 2 ∧ t.tw.pull = true ∧ Output.caravan ⟨0x41, 0, []⟩ ∈ t.out ∧ t.regsAre s) ∧
  (∀ s : State, s.carOn = true → s.tw.tokMove = 1 → s.tw.leaving = none → ∃ t, exec .tokenTake s = .next t ∧ t.tw.tokMove = 0 ∧
    t.tw.pull = false ∧ t.bit F.CAR_STS.TOKEN_HELD = false ∧ Output.caravan ⟨0x42, 0, []⟩ ∈ t.out) ∧
  (∀ s : State, s.carOn = true → s.tw.tokMove = 2 → ∃ t, exec .tokenDone s = .next t ∧ t.tw.tokMove = 0 ∧ t.tw.pull = true ∧
    t.regsAre (s.setBit F.CAR_STS.TOKEN_HELD true))

/-- The packets and the scan of a resync — RS_START, RS_CHUNK, RS_CHUNK_COMMIT, RS_RES, RS_SUSPECT, RS_END and RESYNC_SCAN — complete
with their effects (R359–R361). -/
def Obligations.ResyncPackets : Prop :=
  (∀ (n : Fin 16) (full : Bool) (gen : Word) (nonce : BitVec 64) (k slot : Nat) (s : State), s.carOn = true →
    s.bit F.CAR_STS.PAIRED = true → s.bit F.CAR_STS.FENCED = false → s.tw.tgt = none → s.pairKey = some k →
    s.keySlotFree false = some slot → ∃ t, exec (.rsStart n full gen nonce) s = .next t ∧ t.tw.tgt = some ⟨n.val, slot, none, []⟩ ∧
    t.get F.CAR_STS.ROLE = 3 ∧ t.num R.CAR_RSYNC = n.val * 256 + 4096 * full.toNat + 8192) ∧
  (∀ (chunk : BitVec 64) (tile : BitVec 32) (staged : Bool) (pmap : BitVec 64) (x : RsTarget) (s : State), s.carOn = true →
    s.tw.tgt = some x → x.last = none → ∃ t, exec (.rsChunk chunk tile true staged pmap
      (gcmTag (s.keySlot x.slot).key (s.keySlot x.slot).h (chunkIv chunk.toNat) (rsAad chunk.toNat tile.toNat true staged pmap) []) []) s = .next t ∧
    t.tw.tgt = some { x with last := some chunk.toNat, ready := x.ready ++ [⟨chunk.toNat, tile.toNat, pmap, List.replicate 64 0, [], 0⟩] }) ∧
  (∀ (chunk : BitVec 64) (x : RsTarget) (c : RsChunk) (s : State), s.rt.reqs = [] → s.bit F.CAR_STS.LINK_UP = true → s.tw.tgt = some x →
    x.ready.find? (fun c => c.chunk == chunk.toNat) = some c →
    let n := (s.commitLines false (rsLines c)).1
    (c.data.length ≤ c.placed + n → ∃ t, exec (.rsChunkCommit chunk) s = .next t ∧ Output.caravan ⟨0x52, 0, [0, c.chunk]⟩ ∈ t.out ∧
      t.tw.tgt = some { x with ready := x.ready.filter (fun z => z.chunk != c.chunk) }) ∧
    (c.placed + n < c.data.length → ∃ t, exec (.rsChunkCommit chunk) s = .next t ∧
      t.tw.tgt = some { x with ready := x.ready.map (fun z => if z.chunk = c.chunk then { z with placed := z.placed + n } else z) })) ∧
  (∀ (chunk : BitVec 64) (n : Nat) (x : RsSource) (s : State), s.carOn = true → s.tw.src = some x → x.region = some n →
    chunk.toNat ≠ rsEndMark → ∃ t, exec (.rsRes chunk 0) s = .next t ∧ t.regsAre (s.bump R.CAR_RSYNC_CHUNKS) ∧
    t.tw.src = some { x with sent := x.sent.filter (fun y => y.1 != chunk.toNat) }) ∧
  (∀ (tiles : List (BitVec 32)) (s : State), s.carOn = true → s.bit F.CAR_STS.PAIRED = true → s.bit F.CAR_STS.TOKEN_HELD = true →
    s.tw.admitted = true → s.tw.bmapOn = true → ∃ t, exec (.rsSuspect tiles) s = .next t ∧ ∀ x ∈ tiles, x.toNat ∈ t.tw.bmap) ∧
  (∀ (n : Fin 16) (x : RsTarget) (s : State), s.carOn = true → s.tw.tgt = some x → x.region = n.val → x.ready = [] →
    ∃ t, exec (.rsEnd n false) s = .next t ∧ t.tw.tgt = none ∧ t.bit ⟨R.CAR_RG_STS, 16 + n.val, 1⟩ = true ∧
    Output.caravan ⟨0x52, 0, [0, rsEndMark]⟩ ∈ t.out) ∧
  (∀ (x : RsSource) (n : Nat) (s : State), s.fencedSrc 10 = false → s.twinUp = true → s.bit F.CAR_STS.LINK_UP = true → s.tw.src = some x →
    x.region = some n → x.ended = false →
    (s.rsNext x n = none → x.sent = [] → ∃ t, exec .resyncScan s = .next t ∧ t.tw.src = some { x with ended := true } ∧
      Output.caravan ⟨0x54, 0, [n, x.left.isEmpty.toNat]⟩ ∈ t.out) ∧
    (∀ tile y, s.rsNext x n = some (tile, y) → s.linesCan (64 * tile) 64 = true → ∃ t z, exec .resyncScan s = .next t ∧ t.tw.src = some z ∧
      z.sent = y.sent ++ [(y.chunk, tile)] ∧ z.chunk = y.chunk + 1 ∧ tile ∉ t.tw.bmap))

/-- The timers and losses of Caravan — CAR_IDLE_TO, CAR_RSP_TO, MCMD_TIMEOUT, FLIT_REPLAY_LIMIT, ALIVE_TIMEOUT, CARAVAN_SIGNAL_LOSS and
CARAVAN_BAD_PACKET (link loss with the cause of Table 11.6), REPAIR_TIMEOUT and TWIN_ALIVE_IN_EDGE — complete with their effects
(R339, R348, R350). -/
def Obligations.CaravanLinkLoss : Prop :=
  (∀ x ∈ [(Instr.carIdleTo, 2), (.carRspTo, 3), (.mcmdTimeout, 3), (.flitReplayLimit, 4), (.aliveTimeout, 5), (.caravanSignalLoss, 1),
      (.caravanBadPacket, 4)], ∀ s : State, s.bit F.CAR_STS.LINK_UP = true → (x.1 = .carRspTo → s.tw.mwr ≠ [] ∨ s.tw.tokMove ≠ 0) →
    (x.1 = .mcmdTimeout → s.tw.cmds.any (fun c => c.ack.isNone) = true) →
    ∃ t, exec x.1 s = .next t ∧ t.bit F.CAR_STS.LINK_UP = false ∧ t.get F.CAR_STS.LAST_DOWN = x.2 ∧ t.tw.hello = none ∧ t.tw.cred = [] ∧
    (s.bit F.CAR_STS.PAIRED = false → t.bit F.CAR_STS.PAIRED = false ∧ t.tw.admitted = false) ∧
    (s.bit F.CAR_STS.PAIRED = true → s.bit F.CAR_STS.FENCED = false → s.draining = false →
      t.bit F.CAR_STS.FAILOVER = true ∧ ∃ ph, t.tw.fo = some ⟨s.tick.toNat, ph, x.2⟩)) ∧
  (∀ (tag line : Nat) (b : Bool) (s : State), s.tw.reps.find? (fun x => x.1 == tag) = some (tag, .background line none b) → s.slotCounts line = true →
    ∃ t, exec (.repairTimeout tag) s = .next t ∧ t.tw.reps = s.tw.reps.filter (fun x => x.1 != tag) ∧
    t.num R.CAR_REP_FAIL = min (s.num R.CAR_REP_FAIL + 1) 0xFFFFFFFF) ∧
  (∀ s : State, ∃ t, exec .twinAliveInEdge s = .next t ∧ t = s.setBit F.CAR_STS.ALIVE_IN_OK true)

/-- The commands of the failover and of the link — FAILOVER_SETTLE, FAILOVER_WINDOW_END, SIDE1_TOKEN_WAIT, TWIN_TOKEN_CHANGE,
ALIVE_TOGGLE, HB_SEND, CARAVAN_LINK_UP, CARAVAN_TRAIN_RETRY, CAR_RETRAIN and ROLE_DECISION — complete with their effects
(R340, R345–R348, R352, R353, R363, R367, Table 11.7). -/
def Obligations.FailoverAndLinkCommands : Prop :=
  (∀ (f : Failover) (s : State), s.tw.fo = some f → s.rt.reqs = [] → s.tw.cmds = [] → s.te.discards = [] → s.tw.src = none →
    s.tw.tgt = none → s.tw.mwr = [] → s.hp.serialQ = [] →
    (f.phase = .settle → ∃ t, exec .failoverSettle s = .next t ∧ t.bit F.CAR_STS.TOKEN_HELD = true ∧ t.bit F.CAR_STS.PAIRED = false ∧
      t.bit F.CAR_STS.FAILOVER = false ∧ t.get F.CAR_RG_STS.EFF_OWN = 0xFFFF ∧ t.tw.bmapOn = true ∧ t.tw.fo = none) ∧
    (f.phase = .window → ∃ t, exec .failoverWindowEnd s = .next t ∧ t.bit F.CAR_STS.FENCED = true ∧
      t.bit F.CAR_STS.TOKEN_HELD = false ∧ t.bit F.CAR_STS.FAILOVER = false ∧ t.get F.CAR_RG_STS.EFF_OWN = 0 ∧ t.tw.fo = none)) ∧
  (∀ (f : Failover) (s : State), s.tw.fo = some f → f.phase = .wait → s.bit F.CAR_STS.FAILOVER = true → s.bit F.CAR_STS.TOKEN_LINE = true →
    ∃ t, exec .side1TokenWait s = .next t ∧ t.bit F.CAR_STS.TOKEN_HELD = true ∧ t.tw.pull = true ∧
    t.tw.fo = some { f with phase := .settle }) ∧
  (∀ (high : Bool) (s : State), s.tw.fo = none → ∃ t, exec (.twinTokenChange high) s = .next t ∧ t = s.setBit F.CAR_STS.TOKEN_LINE high) ∧
  (∀ (f : Failover) (s : State), s.tw.fo = some f → f.phase = .window → s.bit F.CAR_STS.SIDE = false →
    ∃ t, exec (.twinTokenChange true) s = .next t ∧ t.bit F.CAR_STS.TOKEN_HELD = true ∧ t.tw.fo = some { f with phase := .settle }) ∧
  (∀ s : State, s.coreUp = true → s.bit F.FC_STS.CONTAINING = false → ∃ t, exec .aliveToggle s = .next t ∧
    t = { s.emit (.pin .twinAliveOut (some (!s.tw.alive))) with tw.alive := !s.tw.alive }) ∧
  (∀ s : State, s.bit F.CAR_STS.LINK_UP = true → ∃ t, exec .hbSend s = .next t ∧ t = s.emit (.caravan ⟨0x03, 0,
    [s.devState, s.get F.CAR_STS.ROLE, (s.bit F.CAR_STS.TOKEN_HELD).toNat + 2 * s.draining.toNat, s.tick.toNat % 2 ^ 32]⟩)) ∧
  (∀ s : State, s.bit F.CAR_CFG.EN = true → s.coreUp = true → s.refclk = true → s.bit F.CAR_STS.LINK_UP = false →
    s.bit F.CAR_STS.FAILOVER = false → s.draining = false → s.bit ⟨R.TST_PHY_CTL, 4, 1⟩ = false →
    ∃ t ws, exec .caravanLinkUp s = .next t ∧ t.bit F.CAR_STS.LINK_UP = true ∧ t.tw.hello = none ∧ t.tw.proof = false ∧
    Output.caravan ⟨0x01, 0, ws⟩ ∈ t.out) ∧
  (∀ s : State, s.bit F.CAR_CFG.EN = true → s.coreUp = true → s.bit F.CAR_STS.LINK_UP = false → s.bit ⟨R.TST_PHY_CTL, 4, 1⟩ = false →
    ∃ t, exec .caravanTrainRetry s = .next t ∧ t = s.emit (.other 11 [1])) ∧
  (∀ (path : Path) (s : State), s.isManager path = true → s.bit F.CAR_STS.PAIRED = false → ∃ t, exec (.carRetrain path) s = .next t ∧
    t.bit F.CAR_STS.LINK_UP = false ∧ t.bit F.CAR_CTL.RETRAIN = true ∧ Output.other 11 [1] ∈ t.out) ∧
  (∀ s : State, s.tw.decided = false → s.bit F.TE_STS.MAP_READY = true → s.coreUp = true → s.bit F.CAR_CFG.EN = false →
    ∃ t, exec .roleDecision s = .next t ∧ t.tw.decided = true ∧
    t.regsAre ((s.set F.CAR_STS.ROLE 0).set F.CAR_RG_STS.EFF_OWN 0xFFFF))

/-- ADMIT_PAIR, ADMIT_SOLO, ADMIT_KEEP and DETACH of the manager complete with their effects (R355, R356, R359, R364). -/
def Obligations.AdmitAndDetach : Prop :=
  (∀ (p : Fin 8) (s : State), s.serialFree p → s.bit F.CAR_STS.FAILOVER = false → s.bit F.CAR_STS.LINK_UP = true →
    s.bit F.CAR_STS.PAIRED = true → s.tw.hello.isSome = true → s.bit F.CAR_STS.FENCED = false → s.bit F.CAR_STS.TOKEN_HELD = true →
    s.tw.admitted = false → ∃ t, exec (.admitPair p) s = .next t ∧ t.replied p .success 0 [] ∧ t.tw.admitted = true ∧
    t.get F.CAR_STS.ROLE = 2 ∧ t.tw.bmapOn = true) ∧
  (∀ (p : Fin 8) (s : State), s.serialFree p → s.bit F.CAR_STS.FAILOVER = false → s.bit F.CAR_STS.LINK_UP = false →
    s.bit F.CAR_STS.FENCED = true → s.bit F.CAR_STS.TOKEN_LINE = true → ∃ t, exec (.admitSolo p) s = .next t ∧
    t.replied p .success 0 [] ∧ t.bit F.CAR_STS.FENCED = false ∧ t.bit F.CAR_STS.TOKEN_HELD = true ∧
    t.get F.CAR_RG_STS.EFF_OWN = 0xFFFF ∧ t.tw.flist = []) ∧
  (∀ (p : Fin 8) (side : Fin 2) (s : State), s.serialFree p → s.bit F.CAR_STS.FAILOVER = false → s.get F.CAR_STS.ATTACH_ERR = 4 →
    side.val ≠ s.get F.CAR_STS.SIDE → s.rt.reqs = [] → s.te.discards = [] → s.tw.src = none → s.tw.tgt = none →
    ∃ t, exec (.admitKeep p side) s = .next t ∧ t.replied p .success 0 [] ∧ t.bit F.CAR_STS.FENCED = true ∧
    t.bit F.CAR_STS.TOKEN_HELD = false) ∧
  (∀ (p : Fin 8) (side : Fin 2) (s : State), s.managerMail p → s.hp.serial = none → s.hp.serialQ = [] → s.twinUp = true →
    s.bit F.CAR_STS.LINK_UP = true → side.val = s.get F.CAR_STS.SIDE → s.bit F.CAR_STS.TOKEN_HELD = true → s.tw.tokMove = 0 →
    ∃ t, exec (.detach p side) s = .next t ∧ t.tw.leaving = some (.mbox p.val) ∧ t.tw.tokMove = 1 ∧ t.hp.serial = some (.mbox p.val) ∧
    Output.caravan ⟨0x40, 0, []⟩ ∈ t.out)

/-- The events of the host links — PERST_N_ASSERT, PERST_N_RELEASE, HOST_LINK_UP, HOST_LINK_DOWN, HP_RETRAIN, POWER_STATE_CHANGE,
HDM_DECODER_COMMIT, IDE_INTEGRITY_FAILURE, IDE_KM, SPDM_REQUEST, HP_BW_WIN_WRITE and BANDWIDTH_WINDOW_END — complete with their effects
(R106, R370, R372, R376, R383, R384, R396). -/
def Obligations.HostLinkCommands : Prop :=
  (∀ (p : Fin 8) (s : State), s.bit (F.HP_STS.PRESENT p) = true →
    (∃ t, exec (.perstNAssert p) s = .next t ∧ t.bit (F.HP_STS.LINK_UP p) = false ∧ t.bit (F.HP_STS.MEM_ON p) = false ∧
      p.val ∈ t.hp.perst ∧ ∀ x ∈ t.rt.reqs, ∀ g, x.src ≠ .host p g) ∧
    (∃ t, exec (.perstNRelease p) s = .next t ∧ t.hp.perst = setDel p.val s.hp.perst ∧
      t.rt.reqPool = s.rt.reqPool.set p.val (s.num R.RT_CRD_REQ % 1024) ∧
      t.rt.rwdPool = s.rt.rwdPool.set p.val (s.num R.RT_CRD_RWD % 1024))) ∧
  (∀ (p : Fin 8) (width : Fin 17) (rate : Fin 7) (flit lopt : Bool) (s : State), s.bit (F.HP_STS.PRESENT p) = true →
    s.hp.perst.contains p.val = false → s.bit (F.HP_STS.LINK_UP p) = false → s.coreUp = true → s.refclk = true →
    2 ≤ s.get F.BOOT_STS.PHASE → 0 < width.val → 0 < rate.val → width.val ≤ s.portLanes p →
    s.bit ⟨R.TST_PHY_CTL, p.val / 2, 1⟩ = false → s.hp.lost = [] →
    ∃ t, exec (.hostLinkUp p width rate flit lopt) s = .next t ∧ t.bit (F.HP_STS.LINK_UP p) = true ∧
    t.get (F.HP_STS.WIDTH p) = width.val ∧ t.get (F.HP_STS.RATE p) = rate.val ∧ t.bit (F.HP_STS.MEM_ON p) = (rate == 6 && flit)) ∧
  (∀ (p : Fin 8) (s : State), s.bit (F.HP_STS.LINK_UP p) = true →
    (∃ t, exec (.hostLinkDown p) s = .next t ∧ t.bit (F.HP_STS.LINK_UP p) = false ∧ t.bit (F.HP_STS.MEM_ON p) = false ∧
      t.num (R.HP_LINK_DOWN p) = min (s.num (R.HP_LINK_DOWN p) + 1) 0xFFFFFFFF ∧ t.rt = s.rt) ∧
    (∀ d3, ∃ t, exec (.powerStateChange p d3) s = .next t ∧ t = s.setBit (F.HP_STS.D3HOT p) d3)) ∧
  (∀ (path : Path) (p : Fin 8) (s : State), s.isManager path = true → s.bit (F.HP_STS.PRESENT p) = true →
    ∃ t, exec (.hpRetrain path p) s = .next t ∧ t.bit (F.HP_STS.LINK_UP p) = false ∧ t.bit (F.HP_CTL.RETRAIN p) = true) ∧
  (∀ (p k : Fin 8) (base size skip : BitVec 64) (ways gran : Nat) (lock : Bool) (s : State), s.bit (F.HP_STS.LINK_UP p) = true →
    sget none s.hp.decs (8 * p.val + k.val) = none → decWays.contains ways = true → decGrans.contains gran = true → size ≠ 0 →
    size.toNat % (2 ^ 28 * ways) = 0 → base.toNat % 2 ^ 28 = 0 →
    s.dpaBelow p k + skip.toNat + size.toNat / ways ≤ s.capUnits * 2 ^ 28 →
    ∃ t, exec (.hdmDecoderCommit p k base size ways gran skip lock) s = .next t ∧ Output.hostMsg p.val 0x20 [k.val, 1] ∈ t.out ∧
    sget none t.hp.decs (8 * p.val + k.val) = some ⟨base.toNat, size.toNat, ways, gran, skip.toNat, lock⟩) ∧
  (∀ (p : Fin 8) (mem : Bool) (s : State), s.bit (ideFld p mem) = true → s.coreUp = true → (s.fcSrc (12 + p.val)).wire = false →
    ∃ t, exec (.ideIntegrityFailure p mem) s = .next t ∧ t.bit (ideFld p mem) = false ∧ t.fltSeen (12 + p.val) Kind.LINK = true) ∧
  (∀ (p : Fin 8) (id : Nat) (mem : Bool) (s : State), s.mail p = true → s.session p id = true →
    (∀ k, ∃ t, exec (.ideKm p id mem (.prog k)) s = .next t ∧ sget none t.hp.ideKeys (2 * p.val + mem.toNat) = some k.toNat ∧
      Output.hostMsg p.val 0x30 [mem.toNat, 0] ∈ t.out) ∧
    (∀ k, sget none s.hp.ideKeys (2 * p.val + mem.toNat) = some k → ∃ t, exec (.ideKm p id mem .go) s = .next t ∧
      t.bit (ideFld p mem) = true) ∧
    (∃ t, exec (.ideKm p id mem .stop) s = .next t ∧ t.bit (ideFld p mem) = false ∧
      sget none t.hp.ideKeys (2 * p.val + mem.toNat) = none)) ∧
  (∀ (p : Fin 8) (s : State), s.mail p = true →
    (∃ t, exec (.spdmRequest p .version) s = .next t ∧ Output.hostMsg p.val 0x04 [0x12, 0x11] ∈ t.out ∧ t.hp = s.hp) ∧
    ((s.hp.spdm.filter (fun x => x.1 == p.val)).length < 4 → ∃ t, exec (.spdmRequest p .keyExchange) s = .next t ∧
      t.session p s.hp.nextSess = true ∧ t.hp.nextSess = s.hp.nextSess + 1) ∧
    (∀ id, s.session p id = true → ∃ t, exec (.spdmRequest p (.endSession id)) s = .next t ∧ t.session p id = false)) ∧
  (∀ (path : Path) (p : Fin 8) (v : Word) (s : State), s.ownOrManager path p = true → ∃ t, exec (.hpBwWinWrite path p v) s = .next t ∧
    t.regsAre (s.wrN (R.HP_BW_WIN p) (min 10000 (max 1 (v.toNat % 16384)))) ∧ sget 0 t.hp.bwRd p = 0 ∧ sget 0 t.hp.bwWr p = 0) ∧
  (∀ (p : Fin 8) (s : State), s.bit (F.HP_STS.PRESENT p) = true → ∃ t, exec (.bandwidthWindowEnd p) s = .next t ∧
    t.num64 (R.HP_BW_RD_LO p) = sget 0 s.hp.bwRd p % 2 ^ 48 ∧ t.num64 (R.HP_BW_WR_LO p) = sget 0 s.hp.bwWr p % 2 ^ 48 ∧
    t.num (R.HP_BW_SEQ p) = min (s.num (R.HP_BW_SEQ p) + 1) 0xFFFFFFFF ∧ sget 0 t.hp.bwRd p = 0)

/-- The mailbox commands that only report — GET_EVENT_RECORDS, GET_EVENT_INTERRUPT_POLICY, GET_TIMESTAMP, GET_SUPPORTED_LOGS,
IDENTIFY_MEMORY_DEVICE, GET_POISON_LIST, GET_SCAN_MEDIA_RESULTS, GET_DC_CONFIGURATION, GET_DC_EXTENT_LIST and GET_HEALTH_INFO of every
assigned port; GET_FW_INFO, GET_ALERT_CONFIGURATION, GET_SHUTDOWN_STATE and GET_REPORT_CARD of the manager; and UNSUPPORTED_OPCODE — are
answered, count in HP_MBOX_CNT, and change nothing else (R377, R389, R390, R393, R394, Table 12.6). -/
def Obligations.ReportingMailboxCommands : Prop :=
  (∀ (p : Fin 8) (log : Fin 5) (s : State), s.hostMail p →
    ∀ x ∈ [(Instr.getEventRecords p log, (sget [] s.hp.logs (logKey p log)).flatMap (fun r => r.kind :: r.words)),
      (.getEventInterruptPolicy p, [sget 0 s.hp.policy p]), (.getTimestamp p, [s.timeNow]),
      (.getSupportedLogs p, [1, 4 * opcodes.length]), (.identifyMemoryDevice p, [s.capUnits, 0, 0, 65536]),
      (.getScanMediaResults p, sget [] s.hp.scans p), (.getDcConfiguration p, [1, 0, s.capUnits, 1]),
      (.getDcExtentList p, (List.range 16).flatMap (fun n => if s.bit (F.RT_RG_CTL.EN n) && s.get (F.RT_RG_CTL.PORT n) == p.val &&
        s.extent n == 2 then [s.rgBase n, s.rgSize n, n] else [])),
      (.getHealthInfo p, if s.role p = 2 then [s.healthStatus, s.mediaStatus, s.num R.TE_LIFE_USED % 128, s.num R.HK_HOT % 4096,
        s.counter 2, s.volatileFixed, s.mediaFixed] else [0, s.mediaStatus, s.num R.TE_LIFE_USED % 128, 0, s.counter 2, 0, 0])],
    ∃ t, exec x.1 s = .next t ∧ t = (s.emit (.mailbox p .success 0 x.2)).bump (R.HP_MBOX_CNT p)) ∧
  (∀ (p : Fin 8) (first : BitVec 38) (count : BitVec 39) (s : State), s.hostMail p → s.bit F.TE_STS.PT_FULL = false →
    ∃ t, exec (.getPoisonList p first count) s = .next t ∧
    t = (s.emit (.mailbox p .success 0 ([0, 0] ++ s.poisonRecords p first.toNat count.toNat))).bump (R.HP_MBOX_CNT p)) ∧
  (∀ (p : Fin 8) (s : State), s.managerMail p →
    ∀ x ∈ [(Instr.getFwInfo p, [2, s.get F.BOOT_STS.FW_SLOT, s.hp.fwNext] ++
        (List.range 2).map (fun k => Config.digest (sget [] s.hp.fwImg k))),
      (.getAlertConfiguration p, s.hp.alerts), (.getShutdownState p, [(s.statusWord 3).getD 0]), (.getReportCard p, s.reportCard)],
    ∃ t, exec x.1 s = .next t ∧ t = (s.emit (.mailbox p .success 0 x.2)).bump (R.HP_MBOX_CNT p)) ∧
  (∀ (p : Fin 8) (op : BitVec 16) (s : State), s.mail p = true → ∃ t, exec (.unsupportedOpcode p op) s = .next t ∧
    t = (s.emit (.mailbox p .unsupported 0 [])).bump (R.HP_MBOX_CNT p))

/-- The mailbox commands of the published set that act — CLEAR_EVENT_RECORDS, SET_EVENT_INTERRUPT_POLICY, TRANSFER_FW, ACTIVATE_FW,
SET_TIMESTAMP, GET_LOG, SET_ALERT_CONFIGURATION, SET_SHUTDOWN_STATE, INJECT_POISON, CLEAR_POISON, GET_SCAN_MEDIA_CAPABILITIES, SCAN_MEDIA,
SANITIZE, SECURE_ERASE, ADD_DC_RESPONSE and RELEASE_DC — complete with their effects (R378, R379, R381, R389, R393, R394, R549). -/
def Obligations.ActingMailboxCommands : Prop :=
  (∀ (p : Fin 8) (log : Fin 5) (n : Nat) (v : BitVec 40) (ns : BitVec 64) (s : State), s.hostMail p →
    (n ≤ (sget [] s.hp.logs (logKey p log)).length → ∃ t, exec (.clearEventRecords p log n) s = .next t ∧ t.replied p .success 0 [] ∧
      sget [] t.hp.logs (logKey p log) = (sget [] s.hp.logs (logKey p log)).drop n) ∧
    (∃ t, exec (.setEventInterruptPolicy p v) s = .next t ∧ t.replied p .success 0 [] ∧ sget 0 t.hp.policy p = v.toNat) ∧
    (∃ t, exec (.setTimestamp p ns) s = .next t ∧ t.replied p .success 0 [] ∧ t.hp.stamp = some (ns.toNat, s.tick.toNat)) ∧
    (∃ t k, exec (.getLog p true) s = .next t ∧ t.replied p .success 0 (opcodes ++ [k]))) ∧
  (∀ (p : Fin 8) (part v : List Nat) (first clean : Bool) (c : PstOp) (s : State), s.managerMail p →
    (∃ t, exec (.transferFw p part first false) s = .next t ∧ t.replied p .success 0 [] ∧
      t.hp.fwParts = (if first then [] else s.hp.fwParts) ++ [part]) ∧
    (sget [] s.hp.fwImg (1 - s.hp.fwNext % 2) ≠ [] → ∃ t, exec (.activateFw p) s = .next t ∧ t.replied p .success 0 [] ∧
      t.hp.fwNext = 1 - s.hp.fwNext % 2) ∧
    (∃ t, exec (.setAlertConfiguration p v) s = .next t ∧ t.replied p .success 0 [] ∧ t.hp.alerts = v) ∧
    (s.pst.cur = some c → c.job.isErase = false → ∃ t, exec (.setShutdownState p clean) s = .next t ∧ t.replied p .success 0 [] ∧
      t.pst.queue = s.pst.queue ++ [⟨.status 3 clean.toNat, [], false, false⟩]) ∧
    (s.bit F.CAR_STS.PAIRED = false → ∃ t, exec (.secureErase p) s = .next t ∧ t.replied p .success 0 [] ∧
      t.rk = Config.drbg s.ce.drbg % 2 ^ 256 ∧ t.bit F.CE_STS.RK_VALID = true)) ∧
  (∀ (p : Fin 8) (line : BitVec 38) (count : BitVec 39) (d : Line) (w : Nat) (s : State), s.hostMail p → s.sees p line.toNat = true →
    (s.twinUp = false → s.tw.cmds = [] → s.lcFind line.toNat = some w →
      (s.rt.reqs = [] → ∃ t, exec (.injectPoison p line) s = .next t ∧ t.replied p .success 0 [] ∧ sget 0 t.hp.psrc line.toNat = 1 ∧
        (t.way (lcSet line.toNat) w).p = true ∧ (t.way (lcSet line.toNat) w).data = 0) ∧
      (s.rt.reqs = [] → s.lcOn = true → (s.holding = false ∨ (s.way (lcSet line.toNat) w).d = true) → ∃ t, exec (.clearPoison p line d) s = .next t ∧ t.replied p .success 0 [] ∧
        (t.way (lcSet line.toNat) w).p = false ∧ (t.way (lcSet line.toNat) w).data = d)) ∧
    (count ≠ 0 → ∃ t k, exec (.getScanMediaCapabilities p line count) s = .next t ∧ t.replied p .success 0 [k]) ∧
    (count ≠ 0 → s.hp.bg.contains p.val = false → s.hp.muted = [] → ∃ t, exec (.scanMedia p line count []) s = .next t ∧
      t.replied p .background 0 [] ∧ t.replied p .success 0 [] ∧ sget [] t.hp.scans p = [])) ∧
  (∀ (p : Fin 8) (x : BitVec 16 × BitVec 17) (n q : Nat) (s : State), s.hostMail p → s.extentOf p x = some n →
    (s.extent n ≠ 0 → ∃ t, exec (.addDcResponse p [x]) s = .next t ∧ t.replied p .success 0 [] ∧ t.extent n = 2) ∧
    (s.hp.releases = [(n, .mbox q)] → q < 8 → s.twinUp = false → s.tw.cmds = [] → s.hp.serialQ = [] → s.ce.streams = [] →
      ∃ t, exec (.releaseDc p [x]) s = .next t ∧ t.replied p .success 0 [] ∧ t.replied q .success 0 [] ∧
      t.bit (F.RT_RG_CTL.EN n) = false ∧ t.extent n = 0 ∧ t.hp.releases = [])) ∧
  (∀ (p : Fin 8) (s : State), s.managerMail p →
    (s.bit F.CAR_STS.PAIRED = true → ∃ t, exec (.sanitize p) s = .next t ∧ t.replied p .busy 0 []) ∧
    (s.bit F.CAR_STS.PAIRED = false → s.rt.reqs = [] → ∃ t, exec (.sanitize p) s = .next t ∧ t.replied p .background 0 [] ∧
      t.lc.ways = [] ∧ t.lc.bufs = [] ∧ t.te.map = [] ∧ t.te.slots = [] ∧
      ∀ x ∈ t.te.media, x.1 / 2048 % 2048 = ringBlock))

/-- The region commands of the mailbox — REGION_SET, CONTEXT_SET, REGION_ENABLE, REGION_DISABLE, REGION_DISABLE_FORCE,
REGION_DISABLE_TIMEOUT, REGION_QUERY and GET_LATENCY_REPORT — complete with their effects (R52–R54, R297, R300, R378, R379, R391, R392). -/
def Obligations.RegionCommands : Prop :=
  (∀ (p : Fin 8) (n : Fin 16) (s : State), s.serialFree p → s.bit (F.RT_RG_CTL.EN n) = false →
    (∀ a : RgAttr, s.get (F.HP_STS.ROLE (s.attrPort a)) ≠ 0 → a.size ≠ 0 → a.size.toNat ≤ 65536 → a.xfer = false →
      ∃ t, exec (.regionSet p n a) s = .next t ∧ t.replied p .success 0 [] ∧ t.rgBase n = a.base.toNat ∧ t.rgSize n = a.size.toNat ∧
      t.get (F.RT_RG_CTL.PORT n) = s.attrPort a ∧ t.bit (F.RT_RG_CTL.OWNER n) = a.owner ∧
      t.bit (F.RT_RG_CTL.NOALLOC n) = a.noalloc ∧ t.bit (F.RT_RG_CTL.DISCARD n) = a.discard ∧
      t.bit (F.RT_RG_CTL.LOCK_OK n) = a.lockOk ∧ t.bit (F.RT_RG_CTL.XFER n) = false ∧ t.bit (F.RT_RG_CTL.EN n) = false) ∧
    (∀ (epoch : BitVec 16) (tenant : BitVec 96), s.retired = false → s.bit (F.RT_RG_CTL.XFER n) = false →
      ∃ t, exec (.contextSet p n true epoch tenant) s = .next t ∧ t.replied p .success 0 [] ∧ t.bit (F.RT_RG_CTL.CTX_EN n) = true ∧
      t.label n = s.get (F.RT_RG_CTL.PORT n) + n.val * 2 ^ 8 + epoch.toNat * 2 ^ 16 + tenant.toNat * 2 ^ 32) ∧
    (∀ (epoch : BitVec 16) (tenant : BitVec 96), ∃ t, exec (.contextSet p n false epoch tenant) s = .next t ∧
      t.replied p .success 0 [] ∧ t.bit (F.RT_RG_CTL.CTX_EN n) = false ∧ t.label n = 0) ∧
    (s.rgSize n ≠ 0 → s.rgOverlap n = false → s.bit (F.RT_RG_CTL.CTX_EN n) = false →
      ∃ t, exec (.regionEnable p n) s = .next t ∧ t.replied p .success 0 [] ∧ t.bit (F.RT_RG_CTL.EN n) = true ∧
      t.bit (F.RT_RG_STS.ACCEPT n) = true ∧ t.extent n = 1)) ∧
  (∀ (p : Fin 8) (n : Fin 16) (s : State), s.serialFree p → s.bit (F.RT_RG_CTL.EN n) = true → s.hp.bg.contains p.val = false →
    (∃ t, exec (.regionDisable p n) s = .next t ∧ t.replied p .background 0 [] ∧ t.bit (F.RT_RG_CTL.EN n) = true ∧
      t.hp.releases = s.hp.releases ++ [(n.val, .bg p.val)] ∧ t.hp.serial = some (.bg p.val)) ∧
    (s.hp.muted = [] → s.ce.streams = [] → ∃ t, exec (.regionDisableForce p n) s = .next t ∧ t.replied p .background 0 [] ∧
      t.replied p .success 0 [] ∧ t.bit (F.RT_RG_CTL.EN n) = false ∧ t.bit (F.RT_RG_STS.ACCEPT n) = false ∧ t.extent n = 0)) ∧
  (∀ (n : Fin 16) (q : Nat) (s : State), s.hp.releases = [(n.val, .mbox q)] → q < 8 → s.tw.cmds = [] → s.hp.serialQ = [] →
    ∃ t, exec (.regionDisableTimeout n) s = .next t ∧ t.replied q .aborted Ext.TIMEOUT [] ∧ t.hp.releases = [] ∧
    t.bit (F.RT_RG_CTL.EN n) = s.bit (F.RT_RG_CTL.EN n)) ∧
  (∀ (p : Fin 8) (n : Fin 16) (s : State), s.mail p = true → s.role p = 2 ∨ (s.role p = 1 ∧ s.get (F.RT_RG_CTL.PORT n) = p.val) →
    ∃ t, exec (.regionQuery p n) s = .next t ∧ t = (s.emit (.mailbox p .success 0 [s.num (R.RT_RG_CTL n), s.num (R.RT_RG_STS n),
      s.extent n, s.num (R.CE_RG_SLOT n), s.num (R.CE_RG_ROT_PCT n)])).bump (R.HP_MBOX_CNT p)) ∧
  (∀ (p : Fin 8) (clear : Bool) (s : State), s.managerMail p → ∃ t, exec (.getLatencyReport p clear) s = .next t ∧
    t.replied p .success 0 ((regRange R.RT_LATE_STATE 8).map s.num ++
      [s.num R.RT_STRAY_CNT, s.num R.RT_WR_DROP_STATE, s.tick.toNat, s.num R.RT_STS % 256, s.num R.RT_SPD]) ∧
    (∀ k, k < 8 → t.num (R.RT_LATE_STATE + 4 * k) = if clear then 0 else s.num (R.RT_LATE_STATE + 4 * k)))

/-- The vendor commands over contexts, roles and discards — CONTEXT_PREPARE, REKEY, REKEY_ERASE, DISCARD (secure),
SECURE_DISCARD_ACCEPT, SET_READ_WRITE, PORT_ROLE_SET and LIFECYCLE_SET — complete with their effects (R66, R229, R295, R299, R307, R387). -/
def Obligations.ContextAndDiscardCommands : Prop :=
  (∀ (p : Fin 8) (label : BitVec 128) (k : Nat) (s : State), s.serialFree p → s.retired = false → s.dataSlot label.toNat = some k →
    ∃ t, exec (.contextPrepare p label) s = .next t ∧ t.replied p .success 0 [k] ∧ (t.keySlot k).prepared = true) ∧
  (∀ x ∈ [(Instr.rekey, false), (.rekeyErase, true)], ∀ (p : Fin 8) (n : Fin 16) (k : Nat) (s : State), s.serialFree p → s.retired = false →
    s.bit (F.RT_RG_STS.CLOSING n) = false → s.bit (F.RT_RG_CTL.EN n) = true → s.bit (F.RT_RG_CTL.CTX_EN n) = true →
    epochOf (s.label n) ≠ 65535 → s.bit (F.CE_RG_SLOT.ROTATING n) = false → s.ce.rotations = [] → s.ce.derives = [] →
    s.keySlotFree true = some k → ∃ t, exec (x.1 p n) s = .next t ∧ t.replied p .success 0 [] ∧
    t.ce.derives = [⟨k, .rekey n x.2, 0, none, s.label n + 2 ^ 16⟩] ∧ (t.keySlot k).st = 1 ∧
    (t.keySlot k).label = s.label n + 2 ^ 16) ∧
  (∀ (p : Fin 8) (first : BitVec 32) (count : BitVec 33) (n : Nat) (s : State), s.managerMail p →
    s.rangeRegion first.toNat count.toNat = some n → s.bit (F.RT_RG_CTL.XFER n) = false → s.bit (F.RT_RG_CTL.DISCARD n) = true →
    s.hp.bg.contains p.val = false → s.twinUp = false → ∃ t, exec (.discard p first count) s = .next t ∧ t.replied p .background 0 [] ∧
    t.bit (F.RT_RG_STS.SDISC n) = true ∧ t.get (F.RT_RG_STS.SDISC_PCT n) = 0 ∧ t.te.discards = s.te.discards ++
      [⟨s.te.nextDiscard, first.toNat, count.toNat, true, .bg p.val, some n, false, false, false, [], 0⟩] ∧
    t.lc.walkQ = s.lc.walkQ ++ [⟨.discard s.te.nextDiscard, 64 * first.toNat, 64 * count.toNat, none, 0, 0, 0, 0, false⟩]) ∧
  (∀ (d : Discard) (s : State), s.te.discards = [d] → d.secure = true → d.pass = true → d.accepted = false → d.twinWait = true →
    s.rt.reqs = [] → ((s.discardRange d.first d.count true).journalFlush).te.flushWait = false → ∃ t, exec (.secureDiscardAccept d.id) s = .next t ∧ t.te.jbuf = [] ∧
    (let b := s.rangeBlocks d.first d.count
     t.te.discards = [{ d with accepted := true, blocks := b, total := b.length }])) ∧
  (∀ (p : Fin 8) (s : State), s.managerMail p → s.bit F.TE_UPK_STS.CRITICAL = false → s.bit F.TE_STS.SEQ_RO = false →
    ∃ t, exec (.setReadWrite p) s = .next t ∧ t.replied p .success 0 [] ∧ t.te.readOnly = false ∧ t.roState = false) ∧
  (∀ (p : Fin 8) (r : BitVec 16) (s : State), s.serialFree p → ((List.range 8).filter (fun q => roleOf r q == 2)).length = 1 →
    (∀ q, q < 8 → roleOf r q ≠ 3) → (∀ n, n < 16 → s.bit (F.RT_RG_CTL.EN n) = false) →
    ∃ t, exec (.portRoleSet p r) s = .next t ∧ t.replied p .success 0 [] ∧ ∀ q, q < 8 → t.get (F.HP_STS.ROLE q) = roleOf r q) ∧
  (∀ (p : Fin 8) (s : State), s.serialFree p →
    (s.get F.CE_STS.LCS = 0 → ∃ t, exec (.lifecycleSet p 1) s = .next t ∧ t.replied p .success 0 [] ∧ t.get F.CE_STS.LCS = 1) ∧
    (s.get F.CE_STS.LCS < 2 → s.ce.streams = [] → ∃ t, exec (.lifecycleSet p 2) s = .next t ∧ t.replied p .success 0 [] ∧
      t.get F.CE_STS.LCS = 2 ∧ t.rk = 0 ∧ t.ce.slots = s.ce.slots.filter (fun x => x.2.kind == 0 || x.2.kind == 3) ∧ t.bit F.CE_STS.RK_VALID = false))

/-- The vendor commands over keys, streams, the Roll book and parameters — LOAD_TRANSFER_KEY, LOAD_PAIR_KEY, STREAM_OPEN, STREAM_RUN,
STREAM_SAVE, STREAM_RESTORE, STREAM_ABORT, ROLL_BOOK_READ, ROLL_BOOK_ARCHIVE_AND_CLEAR, PARAMETER_READ and PARAMETER_WRITE — complete with
their effects (R317, R319–R321, R323–R325, R345, R385, R475, R482, R491). -/
def Obligations.KeyStreamAndBookCommands : Prop :=
  (∀ (p : Fin 8) (id k : Nat) (key : BitVec 256) (s : State), s.managerMail p → s.session p id = true → s.retired = false →
    (s.keySlotFree false = some k → ∃ t, exec (.loadTransferKey p (.clear (some id) key)) s = .next t ∧ t.replied p .success 0 [k] ∧
      (t.keySlot k).st = 2 ∧ (t.keySlot k).kind = 5 ∧ (t.keySlot k).key = key.toNat) ∧
    (∃ t, exec (.loadPairKey p (some id) key) s = .next t ∧ t.replied p .success 0 [] ∧ t.pairKey = some key.toNat)) ∧
  (∀ (p : Fin 8) (w : Fin 16) (slot : Fin 4096) (tag : Word) (first : BitVec 38) (count : BitVec 39) (k : Nat) (s : State),
    s.managerMail p → s.retired = false → s.bit F.CE_STS.DRBG_OK = true → s.bit (F.RT_RG_CTL.EN w) = true →
    s.bit (F.RT_RG_CTL.XFER w) = true → (s.keySlot slot).kind = 5 → (s.keySlot slot).st = 2 →
    s.streamRange p first.toNat count.toNat = true → s.keySlotFree false = some k →
    ∃ t x, exec (.streamOpen p w false slot tag first count) s = .next t ∧ t.replied p .success 0 [Config.drbg s.ce.drbg % 2 ^ 64, k] ∧
    t.ce.streams = s.ce.streams ++ [x] ∧ x.window = w.val ∧ x.dir = 0 ∧ x.st = 3 ∧ x.slot = k ∧ x.first = first.toNat ∧
    x.count = count.toNat ∧ x.chunk = 0 ∧ ∃ q, t.ce.derives = s.ce.derives ++ [q] ∧ q.slot = k ∧ q.prf = some slot.val) ∧
  (∀ (p : Fin 8) (h : Fin 4096) (x : Stream) (s : State), s.managerMail p → s.streamBy h = some x →
    (∀ k, x.st = 3 → s.hp.bg.contains p.val = false → s.windowBusy x.window = false → s.streamPlace = some k →
      ∃ t y, exec (.streamRun p h) s = .next t ∧ t.replied p .background 0 [] ∧ t.streamBy h = some y ∧ y.port = p.val ∧ y.place = k ∧
      y.st = if (s.keySlot h).st = 2 then 1 else 4) ∧
    (∀ wr, x.st = 1 → s.formOk wr = true → (s.ce.streams.filter (fun (y : Stream) => y.st == 2)).length < 64 →
      ∃ t y, exec (.streamSave p h wr) s = .next t ∧ t.replied p .success 0 (s.streamRecord x wr) ∧ t.streamBy h = some y ∧ y.st = 2 ∧
      y.saves = x.saves + 1) ∧
    (∀ (rec : List Word) (ws : List Nat) (k : Nat), rec.length = 544 ∨ rec.length = 546 → s.formOk (rec.length == 546) = true →
      s.recordOpen rec = some ws → ws.getD 0 0 + 2 ^ 32 * ws.getD 1 0 + 2 ^ 64 * ws.getD 2 0 + 2 ^ 96 * ws.getD 3 0 = s.ce.bootNonce →
      ws.getD 5 0 % 4096 = h.val → ws.getD 6 0 = x.saves → x.st = 2 → s.windowBusy x.window = false →
      s.hp.bg.contains p.val = false → s.streamPlace = some k →
      ∃ t y, exec (.streamRestore p rec) s = .next t ∧ t.replied p .background 0 [] ∧ t.streamBy h = some y ∧ y.port = p.val ∧
      y.place = k ∧ y.st = if (s.keySlot h).st = 2 then 1 else 4) ∧
    (∃ t, exec (.streamAbort p h) s = .next t ∧ t.replied p .success 0 [] ∧
      t.ce.streams = s.ce.streams.filter (fun y => y.slot != h.val))) ∧
  (∀ (p : Fin 8) (first : Fin 8192) (count : Fin 257) (s : State), s.managerMail p → ∃ t, exec (.rollBookRead p first count) s = .next t ∧
    t = (s.emit (.mailbox p .success 0 ((List.range (min count.val (s.num R.RB_COUNT - (first.val + 8192 - s.num R.RB_HEAD % 8192) %
      8192))).flatMap (fun k => s.rbSlot ((first.val + k) % 8192))))).bump (R.HP_MBOX_CNT p)) ∧
  (∀ (p : Fin 8) (last : Fin 8192) (s : State), s.managerMail p → s.hp.bg.contains p.val = false → s.rb.clearing = none →
    let n := (last.val + 8192 - s.num R.RB_HEAD % 8192) % 8192 + 1
    n ≤ s.num R.RB_COUNT → 8 ≤ n → ∃ t, exec (.rollBookArchiveAndClear p last) s = .next t ∧ t.replied p .background 0 [] ∧
    t.num R.RB_HEAD = 8 * ((s.num R.RB_HEAD / 8 + n / 8) % 1024) ∧ t.bit F.RB_STS.CLEARING = true ∧ t.hp.archiver = some p.val ∧
    t.rb.clearing = some ((List.range (n / 8)).map (fun k => (s.num R.RB_HEAD / 8 + k) % 1024), n / 8, last.val)) ∧
  (∀ (p : Fin 8) (addr : BitVec 17) (count : Fin 2049) (s : State), s.managerMail p → addr.toNat + count.val ≤ 2 ^ 17 →
    ∃ t, exec (.parameterRead p addr count) s = .next t ∧ t = (s.emit (.mailbox p .success 0 ((List.range count).map (fun k =>
      (sget erasedWord s.pst.words (addr.toNat + k)).toNat)))).bump (R.HP_MBOX_CNT p)) ∧
  (∀ (p : Fin 8) (addr : BitVec 17) (ws d : List Word) (c : PstOp) (s : State), s.managerMail p → 1446 ≤ addr.toNat / 64 →
    addr.toNat / 64 ≤ 1461 → ws ≠ [] → ws.length ≤ 16 → addr.toNat % 64 + ws.length ≤ 62 →
    s.configOf ((addr.toNat / 64 - 1446) / 2) = some d → s.pst.cur = some c → c.job.isErase = false →
    ∃ t, exec (.parameterWrite p addr ws) s = .next t ∧ t.replied p .success 0 [] ∧ t.pst.queue = s.pst.queue ++
      [⟨.config ((addr.toNat / 64 - 1446) / 2) (d.take (addr.toNat % 64) ++ ws ++ d.drop (addr.toNat % 64 + ws.length)) false, [],
        false, false⟩])

/-- The events of the DRAM channels — DRAM_TRAINING, DRAM_REFRESH, MR4_POLL, DRAM_SCRUB_WORD, DRAM_PHY_LOCK_LOSS and
DRAM_WRITE_CRC_ERROR — complete with their effects (R398, R403, R404, R407–R409, R411). -/
def Obligations.DramCommands : Prop :=
  (∀ (ch : Fin 6) (s : State), s.coreUp = true → s.get F.BOOT_STS.PHASE = 2 → s.bit (F.DC_STS.TRAINED ch) = false →
    s.bit (F.DC_STS.FAILED ch) = false →
    (24 * capOf s.dieCount ≤ s.dramGiB * 4096 → ∃ t, exec (.dramTraining ch true true) s = .next t ∧
      t.bit (F.DC_STS.TRAINED ch) = true ∧ t.bit (F.DC_STS.TRAIN_BUSY ch) = false ∧ t.bit (F.DC_STS.SELF_REF ch) = false ∧
      t.bit (F.DC_STS.KEPT ch) = s.bit (F.DC_STS.SELF_REF ch) ∧ Output.pin (.dcResetN ch.val) (some true) ∈ t.out) ∧
    (s.dc.again.contains ch.val = false → ∀ b, ∃ t, exec (.dramTraining ch false b) s = .next t ∧
      t.dc.again = setIns ch.val s.dc.again ∧ t.regsAre (s.setBit (F.DC_STS.TRAIN_BUSY ch) true))) ∧
  (∀ (g : Fin 2) (b : Fin 32) (s : State), s.coreUp = true → s.bit (F.DC_STS.TRAINED (sget 0 s.dc.turn (g.val * 32 + b.val))) = true →
    ∃ t, exec (.dramRefresh g b) s = .next t ∧ t.regsAre s ∧
    sget 0 t.dc.turn (g.val * 32 + b.val) = (sget 0 s.dc.turn (g.val * 32 + b.val) + 1) % 6 ∧
    Output.other 13 [sget 0 s.dc.turn (g.val * 32 + b.val), g.val, b.val] ∈ t.out) ∧
  (∀ (ch : Fin 6) (code : BitVec 3) (s : State), s.coreUp = true → s.bit (F.DC_STS.TRAINED ch) = true →
    (∃ t, exec (.mr4Poll ch code true false) s = .next t ∧ t.num (R.DC_MR4 ch) = code.toNat ∧ t.bit (F.DC_STS.HOT ch) = true ∧
      sget 0 t.dc.hotAt ch = s.tick.toNat) ∧
    (sget 0 s.dc.hotAt ch + 100000000 ≤ s.tick.toNat → ∃ t, exec (.mr4Poll ch code false false) s = .next t ∧
      t.bit (F.DC_STS.HOT ch) = false)) ∧
  (∀ (ch : Fin 6) (area : DramArea) (s : State), s.coreUp = true → s.bit (F.DC_STS.TRAINED ch) = true →
    s.bit (F.DC_STS.FAILED ch) = false → s.bit (F.DC_CTL.SCRUB_EN ch) = true →
    let lag := min ((s.tick.toNat - (sget 0 s.dc.passAt ch + s.num (R.DC_SCRUB_PERIOD ch) * 360000000000)) / 100000) 0xFFFFFFFF
    (∃ t, exec (.dramScrubWord ch .ok area false) s = .next t ∧ t.regsAre (s.wrN (R.DC_SCRUB_LAG ch) lag)) ∧
    (∃ t, exec (.dramScrubWord ch .ce area false) s = .next t ∧
      t.regsAre ((s.bump (R.DC_CE_CNT ch)).wrN (R.DC_SCRUB_LAG ch) lag)) ∧
    (∃ t, exec (.dramScrubWord ch .ok area true) s = .next t ∧ t.rd (R.DC_SCRUB_LAG ch) = 0 ∧
      t.num (R.DC_SCRUB_PASS ch) = min (s.num (R.DC_SCRUB_PASS ch) + 1) 0xFFFFFFFF ∧ sget 0 t.dc.passAt ch = s.tick.toNat)) ∧
  (∀ (ch : Fin 6) (s : State), s.coreUp = true → s.bit (F.DC_STS.TRAINED ch) = true → s.bit (F.DC_STS.FAILED ch) = false →
    (s.fcSrc (20 + ch.val)).wire = false →
    (∃ t, exec (.dramPhyLockLoss ch) s = .next t ∧ t.regsAre (s.setBit (F.DC_STS.FAILED ch) true) ∧
      t.fltSeen (20 + ch.val) Kind.UE = true) ∧
    (∃ t, exec (.dramWriteCrcError ch true) s = .next t ∧ t.regsAre (s.setBit (F.DC_STS.FAILED ch) true) ∧
      t.fltSeen (20 + ch.val) Kind.UE = true) ∧
    (∃ t, exec (.dramWriteCrcError ch false) s = .next t ∧ t = s.bump (R.DC_CRC_RETRY ch)))

/-- No command changes a register outside its list of parts (`Instr.parts`): for every block of registers that a command's list does
not hold, every register of the block reads as before (R579, R580; the registers of `bookReg` apart). -/
def Obligations.RegistersOutsideTheCommandsParts : Prop :=
  ∀ (c : Instr) (s t : State), exec c s = .next t → ∀ p ∈ Part.registers, p ∉ c.parts → p.kept s t

/-- No command changes the data path, the media or their upkeep outside its list of parts (`Instr.parts`). -/
def Obligations.DataPathOutsideTheCommandsParts : Prop :=
  ∀ (c : Instr) (s t : State), exec c s = .next t → ∀ p ∈ Part.dataPath, p ∉ c.parts → p.kept s t

/-- No command changes the host ports, the twin pair, the management queues, the fault collector, the Roll book or the parameter
store outside its list of parts (`Instr.parts`). -/
def Obligations.ServicesOutsideTheCommandsParts : Prop :=
  ∀ (c : Instr) (s t : State), exec c s = .next t → ∀ p ∈ Part.service, p ∉ c.parts → p.kept s t

/-- No command changes the time base, the domains, the power sequencer, the monitors, start-up or the test page outside its list of
parts (`Instr.parts`). -/
def Obligations.AonStateOutsideTheCommandsParts : Prop :=
  ∀ (c : Instr) (s t : State), exec c s = .next t → ∀ p ∈ Part.aon, p ∉ c.parts → p.kept s t

/-- The on and off requests and the power-up commands — MOD_EN_RISE, MOD_EN_FALL, PSQ_ON, PSQ_OFF, PSQ_CLR_LOCK, INPUT_FAIL,
INPUT_GOOD, POWER_UP_START, DISCH_WAIT_TIMEOUT, RAIL_ENABLE_DELAY and RAIL_POWER_GOOD — complete with the phases, the kept
request and the rails of Tables 14.4 and 14.5 (R419, R421, R422, R424, R426). -/
def Obligations.PowerRequestAndPowerUpCommands : Prop :=
  (∀ s : State, s.dom.aon = true →
    (s.phase = Ph.on ∨ s.phase = Ph.dischWait → exec .modEnRise s = .next (s.setBit F.PSQ_STS.MOD_EN true)) ∧
    (s.phase ∈ [Ph.shutdown, Ph.drain, Ph.down, Ph.minOff, Ph.lockout] →
      exec .modEnRise s = .next ((s.setBit F.PSQ_STS.MOD_EN true).setBit F.PSQ_STS.ON_KEPT true)) ∧
    (s.phase = Ph.up → ∃ t, exec .modEnFall s = .next t ∧ t.psq.offReq = true ∧
      t.regsAre ((s.setBit F.PSQ_STS.MOD_EN false).setBit F.PSQ_STS.ON_KEPT false)) ∧
    (s.phase = Ph.dischWait → ∃ t, exec .modEnFall s = .next t ∧ t.phase = Ph.off ∧ t.bit F.PSQ_STS.ON_KEPT = false)) ∧
  (∀ (path : Path) (s : State), s.dom.aon = true → s.mgrOrOob path = true →
    (s.phase = Ph.on ∨ s.phase = Ph.dischWait → exec (.psqOn path) s = .next (s.regAcc 2)) ∧
    (s.phase ∈ [Ph.shutdown, Ph.drain, Ph.down, Ph.minOff, Ph.lockout] →
      exec (.psqOn path) s = .next ((s.regAcc 2).setBit F.PSQ_STS.ON_KEPT true)) ∧
    (s.phase = Ph.up → ∃ t, exec (.psqOff path) s = .next t ∧ t.psq.offReq = true ∧
      t.regsAre (s.setBit F.PSQ_STS.ON_KEPT false)) ∧
    (s.phase = Ph.dischWait → ∃ t, exec (.psqOff path) s = .next t ∧ t.phase = Ph.off)) ∧
  (∀ (path : Path) (s : State), s.mgrOrOob path = true → s.phase = Ph.lockout → s.bit F.PSQ_STS.IN_GOOD = false →
    (s.get F.PSQ_STS.LOCK_CAUSE ∈ [1, 2, 4] → ∃ t, exec (.psqClrLock path) s = .next t ∧ t.phase = Ph.off ∧
      t.get F.PSQ_STS.LOCK_CAUSE = 0 ∧ t.psq.fails = 0) ∧
    (s.get F.PSQ_STS.LOCK_CAUSE = 3 → exec (.psqClrLock path) s = .next (s.regAcc 2))) ∧
  (∀ s : State, s.dom.aon = true →
    (s.bit F.PSQ_STS.IN_GOOD = true → s.phase = Ph.drain →
      exec .inputFail s = .next { s.setBit F.PSQ_STS.IN_GOOD false with psq.toDown := true }) ∧
    (s.bit F.PSQ_STS.IN_GOOD = true → s.phase ∈ [Ph.off, Ph.down, Ph.minOff, Ph.dischWait, Ph.lockout] →
      exec .inputFail s = .next (s.setBit F.PSQ_STS.IN_GOOD false)) ∧
    (s.phase ≠ Ph.off ∨ s.wantUp = false → exec .inputGood s = .next (s.setBit F.PSQ_STS.IN_GOOD true)) ∧
    (s.phase = Ph.dischWait → s.allLow = true → s.bit F.PSQ_STS.IN_GOOD = true → ∃ t, exec .powerUpStart s = .next t ∧
      t.phase = Ph.up ∧ t.get F.PSQ_STS.STEP = 0 ∧ t.psq.on = [] ∧ t.psq.good = 0 ∧ t.arch.vset = 800 ∧
      t.bit F.PSQ_STS.ON_KEPT = false)) ∧
  (∀ s : State, s.phase = Ph.dischWait → s.allLow = false → ∃ t, exec .dischWaitTimeout s = .next t ∧ t.phase = Ph.lockout ∧
    t.get F.PSQ_STS.LOCK_CAUSE = 2) ∧
  (∀ s : State, let e := s.get F.PSQ_STS.STEP
    s.phase = Ph.up → e < s.entCount → s.entCount ≤ 16 →
    (e ∉ s.psq.on → ∃ t, exec .railEnableDelay s = .next t ∧ t.psq.on = s.psq.on ++ [e] ∧
      Output.pin (.railEn (s.entEn e)) (some true) ∈ t.out ∧ t.regsAre (s.setBit ⟨R.PSQ_RAIL, s.entEn e, 1⟩ true)) ∧
    (e ∈ s.psq.on → s.psq.good = e → s.psq.offReq = false → ∀ kat,
      (e + 1 < s.entCount → ∃ t, exec (.railPowerGood kat) s = .next t ∧ t.psq.good = e + 1 ∧
        t.get F.PSQ_STS.STEP = e + 1 ∧ t.phase = Ph.up ∧
        (s.entPgUse e = true → t.bit ⟨R.PSQ_RAIL, 16 + s.entPg e, 1⟩ = true)) ∧
      (e + 1 = s.entCount → s.boot.rstN = true → ∃ t, exec (.railPowerGood kat) s = .next t ∧ t.phase = Ph.on ∧
        t.bit F.PSQ_STS.RAILS_UP = true ∧ t.psq.fails = 0 ∧ t.get F.BOOT_STS.PHASE = 1)))

/-- The commands of the rails, the margins and the PMBus — PG_TIMEOUT, RAIL_DISCHARGED, DIS_TIMEOUT, MIN_OFF_END,
RAIL_PG_FALL, MARGIN_APPLY, MARGIN_STOP, MARGIN_TIMEOUT and PMBUS_TRANSACTION_DONE — complete with their effects (R423–R425,
R427, R430–R432). -/
def Obligations.RailAndMarginCommands : Prop :=
  (∀ s : State, let e := s.get F.PSQ_STS.STEP
    s.phase = Ph.up → e ∈ s.psq.on → s.psq.good = e → s.psq.offReq = false → ∃ t, exec .pgTimeout s = .next t ∧
      t.psq.fails = s.psq.fails + 1 ∧
      (if s.get ⟨R.PSQ_RETRY, 0, 2⟩ < s.psq.fails + 1 then t.psq.lock = 1 else t.psq.retry = true)) ∧
  (∀ (s : State) (e : Nat), s.phase = Ph.down → s.psq.on.getLast? = some e →
    (∃ t, exec .railDischarged s = .next t ∧ t.psq.on = s.psq.on.dropLast ∧
      (s.psq.on = [e] → t.phase = Ph.minOff) ∧
      (∀ d, s.psq.on.dropLast.getLast? = some d → t.get F.PSQ_STS.STEP = d % 16 ∧
        Output.pin (.railEn (s.entEn d)) (some false) ∈ t.out)) ∧
    (e < 16 → s.coreUp = false → ∃ t, exec .disTimeout s = .next t ∧ t.psq.on = s.psq.on.dropLast ∧
      t.bit ⟨R.PSQ_RAIL_FLT, 16 + e, 1⟩ = true ∧ 2 ∈ t.fc.aonSeen)) ∧
  (∀ s : State, s.phase = Ph.minOff →
    (s.psq.lock = 0 → s.bit F.PSQ_STS.IN_GOOD = false → ∃ t, exec .minOffEnd s = .next t ∧ t.phase = Ph.off) ∧
    (s.psq.lock = 1 ∨ s.psq.lock = 3 → ∃ t, exec .minOffEnd s = .next t ∧ t.phase = Ph.lockout ∧
      t.get F.PSQ_STS.LOCK_CAUSE = s.psq.lock)) ∧
  (∀ (pg : Fin 16) (s : State),
    let f := s.psq.on.find? (fun e => s.entPgUse e && s.entPg e == pg.val && decide (e < s.psq.good))
    (f = none → exec (.railPgFall pg) s = .next (s.setBit ⟨R.PSQ_RAIL, 16 + pg.val, 1⟩ false)) ∧
    (∀ e, f = some e → e < 16 → s.phase = Ph.on → s.entCrit e = false → s.entPmb e = false → s.entVcore e = false →
      s.psq.marg = [] → s.coreUp = true → (s.fcSrc 2).wire = false → ∃ t, exec (.railPgFall pg) s = .next t ∧ t.bit ⟨R.PSQ_RAIL_FLT, e, 1⟩ = true ∧
      t.bit ⟨R.PSQ_RAIL, 16 + pg.val, 1⟩ = false ∧ t.num R.PSQ_RAIL_FLT_CNT = min (s.num R.PSQ_RAIL_FLT_CNT + 1) 0xFFFFFFFF ∧
      t.fltSeen 2 Kind.SUPPLY = true)) ∧
  (∀ (path : Path) (entry : Fin 16) (off : BitVec 8) (lvl : Fin 4) (s : State), s.mgrOrOob path = true →
    let m : Int := s.entMarg entry
    let o := max (-m) (min m off.toInt)
    (s.phase ≠ Ph.on → ∃ t, exec (.marginApply path entry off lvl) s = .next t ∧ t.get F.PSQ_MARG_STS.ERR = 3 ∧
      t.psq.marg = s.psq.marg) ∧
    (s.phase = Ph.on → s.draining = false → entry.val < s.entCount → s.entVcore entry = true → s.entPmb entry = false →
      ∃ t, exec (.marginApply path entry off lvl) s = .next t ∧
      t.psq.marg = s.psq.marg.filter (fun (x : Nat × Int) => x.1 != entry.val) ++ (if o = 0 then [] else [(entry.val, o)]) ∧
      t.get F.PSQ_MARG_STS.ERR = (if o = off.toInt then 0 else 1) ∧
      Output.avs 0 (max 680 (min 850 ((s.arch.vset : Int) + 5 * o))).toNat ∈ t.out) ∧
    (s.phase = Ph.on → s.draining = false → entry.val < s.entCount → s.entVcore entry = false → s.entPmb entry = true →
      entry.val ∈ s.psq.linear → 0 < o → ∃ t, exec (.marginApply path entry off lvl) s = .next t ∧
      t.psq.pmb = s.psq.pmb ++ [⟨entry.val, 0x25, ((s.entNom entry : Int) * (200 + o) / 200).toNat⟩, ⟨entry.val, 0x01, 0xA8⟩] ∧
      t.bit F.PSQ_MARG_STS.BUSY = true)) ∧
  (∀ (path : Path) (s : State), s.mgrOrOob path = true →
    (s.psq.marg = [] → exec (.marginStop path) s = .next (s.regAcc 2)) ∧
    (∀ (e : Nat) (o : Int), s.psq.marg = [(e, o)] → s.entVcore e = false → ∃ t, exec (.marginStop path) s = .next t ∧ t.psq.marg = [] ∧
      t.psq.pmb = s.psq.pmb ++ [⟨e, 0x01, 0x80⟩] ∧ t.get F.PSQ_MARG_STS.ACTIVE = 0 ∧ t.bit F.PSQ_STS.MARGIN = false)) ∧
  (∀ s : State, (s.psq.marg = [] → exec .marginTimeout s = .next s) ∧
    (∀ (e : Nat) (o : Int), s.psq.marg = [(e, o)] → s.entVcore e = true → ∃ t, exec .marginTimeout s = .next t ∧ t.psq.marg = [] ∧
      t.psq.pmb = s.psq.pmb ∧ Output.avs 0 s.arch.vset ∈ t.out)) ∧
  (∀ (op : PmbOp) (rest : List PmbOp) (d : BitVec 16) (s : State), s.psq.pmb = op :: rest →
    (s.psq.pmbTry = false → exec (.pmbusTransactionDone false d) s = .next { s with psq.pmbTry := true }) ∧
    (s.psq.pmbTry = true → s.coreUp = true → (s.fcSrc 2).wire = false → ∃ t, exec (.pmbusTransactionDone false d) s = .next t ∧ t.psq.pmb = rest ∧
      t.psq.pmbTry = false ∧ t.num R.PSQ_PMB_ERR = min (s.num R.PSQ_PMB_ERR + 1) 0xFFFFFFFF ∧
      t.fltSeen 2 Kind.LINK = true) ∧
    (∃ t, exec (.pmbusTransactionDone true d) s = .next t ∧ t.psq.pmb = rest ∧ t.psq.pmbTry = false ∧
      t.psq.linear = if op.code = 0x20 ∧ d.toNat / 32 % 8 = 0 then setIns op.entry s.psq.linear else s.psq.linear))

/-- The commands of the Cistern, the drain and the shutdown — CISTERN_AVERAGE, BUDGET_COMPUTE, CIS_TEST, CIS_CHARGE_DEADLINE,
CIS_TEST_INTERVAL, CIS_TEST_DEFER_RETRY, CIS_TEST_REPEAT, CAP_TEST_STEP, DRAIN_STEP_DONE, THERMAL_DRAIN_LIMIT and
SHUTDOWN_STEP_DONE — complete with their effects (R433–R437, R439, R442). -/
def Obligations.CisternAndDrainCommands : Prop :=
  (∀ (sum : BitVec 16) (s : State), s.dom.aon = true →
    let mv := min 65535 (sum.toNat * (s.num R.CIS_DIV % 65536) / 65536)
    s.num R.CIS_VMIN % 65536 ≤ mv → exec (.cisternAverage sum) s = .next (s.wrN R.CIS_V mv)) ∧
  (∀ s : State, s.dom.aon = true → s.phase = Ph.up ∨ s.phase = Ph.on ∨ s.phase = Ph.shutdown →
    let b := s.budgetAt (s.num R.CIS_V % 65536)
    (s.coreUp = false → exec .budgetCompute s =
      .next (((s.wrN R.CIS_E s.energyMj).wrN R.CIS_BUDGET_LO b).wrN R.CIS_BUDGET_HI (b / 2 ^ 32))) ∧
    (∃ t, exec .budgetCompute s = .next t ∧ t.rd R.CIS_BUDGET_LO = BitVec.ofNat 32 b ∧
      t.rd R.CIS_BUDGET_HI = BitVec.ofNat 32 (b / 2 ^ 32) ∧ t.rd R.CIS_E = BitVec.ofNat 32 s.energyMj)) ∧
  (∀ (path : Path) (s : State), s.dom.aon = true → s.mgrOrOob path = true → s.psq.test = none →
    (s.cisMay = true → ∃ t, exec (.cisTest path) s = .next t ∧ t.psq.test = some ⟨1, 0, 0, 0, !s.refclk⟩ ∧
      t.bit F.CIS_STS.TEST_BUSY = true ∧ t.bit F.CIS_STS.DEFER = false) ∧
    (s.cisMay = false → s.bit F.CIS_STS.DEFER = false →
      exec (.cisTest path) s = .next (((s.regAcc 2).setBit F.CIS_STS.DEFER true).bump R.CIS_DEFER_CNT))) ∧
  (∀ s : State, s.dom.aon = true → s.psq.test = none →
    (s.psq.firstTest = false → s.cisMay = false → s.bit F.CIS_STS.DEFER = false →
      s.num R.CIS_V % 65536 < s.num R.CIS_VFULL % 65536 → ∃ t, exec (.cisChargeDeadline true) s = .next t ∧
      t.psq.firstTest = true ∧
      t.regsAre (((s.setBit F.CIS_STS.CHG_TO true).setBit F.CIS_STS.DEFER true).bump R.CIS_DEFER_CNT)) ∧
    (s.cisMay = true → ∃ t, exec .cisTestInterval s = .next t ∧ t.psq.test = some ⟨1, 0, 0, 0, !s.refclk⟩) ∧
    (s.cisMay = true → s.bit F.CIS_STS.DEFER = true → ∃ t, exec .cisTestDeferRetry s = .next t ∧
      t.psq.test = some ⟨1, 0, 0, 0, !s.refclk⟩ ∧ t.bit F.CIS_STS.DEFER = false) ∧
    (s.cisMay = true → s.psq.again = true → ∃ t, exec .cisTestRepeat s = .next t ∧ t.psq.again = false ∧ t.psq.second = true ∧
      t.psq.test = some ⟨1, 0, 0, 0, !s.refclk⟩)) ∧
  (∀ (x : CisTest) (s : State), s.psq.test = some x →
    let v := s.num R.CIS_V % 65536
    let osc := x.osc || !s.refclk
    (x.step = 1 → exec .capTestStep s = .next { s with psq.test := some { x with osc := osc, step := 2, va := v } }) ∧
    (x.step = 2 → ∃ t, exec .capTestStep s = .next t ∧ t.psq.test = some { x with osc := osc, step := 3, vb := v } ∧
      Output.pin .cisTest (some true) ∈ t.out ∧ t.regsAre s) ∧
    (x.step = 3 → exec .capTestStep s = .next { s with psq.test := some { x with osc := osc, step := 4, v1 := v } }) ∧
    (x.step = 4 → ∃ t, exec .capTestStep s = .next t ∧ t.psq.test = none ∧ t.bit F.CIS_STS.TEST_BUSY = false ∧
      Output.pin .cisTest (some false) ∈ t.out)) ∧
  (∀ s : State, s.rt.reqs = [] → s.te.progs = [] →
    (s.phase = Ph.drain → s.psq.step = 2 → ∃ t, exec .drainStepDone s = .next t ∧ t.psq.step = 3) ∧
    (s.phase = Ph.drain → s.psq.step = 3 → ∃ t, exec .drainStepDone s = .next t ∧ t.psq.step = 4 ∧ t.te.gc = []) ∧
    (s.phase = Ph.shutdown → s.psq.step = 1 → ∃ t, exec .shutdownStepDone s = .next t ∧ t.psq.step = 2 ∧ t.te.gc = [])) ∧
  (∀ s : State, s.phase = Ph.drain → s.psq.thermLim = true → s.psq.trigger ≠ 3 → 2 ≤ s.psq.step → s.psq.step ≤ 6 →
    ∃ t, exec .thermalDrainLimit s = .next t ∧ t.psq.short = true ∧ t.psq.thermLim = false)

/-- The commands of the monitors — HOUSEKEEPING_READING, THROTTLE_LEVEL_FALL, ROR_ARM, RESTART_HOLD_RELEASE, HK_READMIT and
OPERATING_SECOND — complete with their effects (R453, R456–R459, R462). -/
def Obligations.MonitorCommands : Prop :=
  (∀ (ch : Fin 64) (raw : BitVec 12) (s : State), s.dom.aon = true →
    (24 ≤ ch.val → ch.val < 56 → s.phase < 2 ∨ 4 < s.phase → ∃ t, exec (.housekeepingReading ch raw) s = .next t ∧
      t.regsAre (((s.set (F.HK_CH.CODE ch) raw.toNat).setBit (F.HK_CH.VALID ch) true).set (F.HK_CH.ROUND ch) (s.num R.HK_ROUND_CNT))) ∧
    (56 ≤ ch.val → ch.val < 63 → ∃ t, exec (.housekeepingReading ch raw) s = .next t ∧
      t.regsAre (((s.set (F.HK_CH.CODE ch) (s.arch.mons.getD (ch.val - 56) 0 % 2048)).setBit (F.HK_CH.VALID ch) true).set
        (F.HK_CH.ROUND ch) (s.num R.HK_ROUND_CNT))) ∧
    (16 ≤ ch.val ∧ ch.val < 24 ∨ ch.val < 16 ∧ s.hk.hotOn = true ∧ s.hk.tripOn = true →
      ∃ t, exec (.housekeepingReading ch raw) s = .next t ∧ t.get (F.HK_CH.CODE ch) = s.hkConvert ch raw.toNat ∧
      t.bit (F.HK_CH.VALID ch) = true) ∧
    (16 ≤ ch.val → ch.val < 24 → s.hkConvert ch raw.toNat =
      thermistorCode (s.num R.HK_TH_B % 8192) (s.num R.HK_TH_NOM % 2 ^ 18) raw.toNat) ∧ (ch.val < 16 → s.hkConvert ch raw.toNat = raw.toNat) ∧
    (ch.val = 63 → ∃ t, exec (.housekeepingReading ch raw) s = .next t ∧ t.hk.rounds = s.hk.rounds + 1 ∧
      t.num R.HK_ROUND_CNT = min (s.num R.HK_ROUND_CNT + 1) 0xFFFFFFFF)) ∧
  (∀ s : State, 125 < s.hk.below → s.thermWant < s.get F.HK_STS.THERM_LVL → ∃ t, exec .throttleLevelFall s = .next t ∧
    t.get F.HK_STS.THERM_LVL = s.get F.HK_STS.THERM_LVL - 1 ∧ t.get F.RT_STS.THERM_LVL = s.get F.HK_STS.THERM_LVL - 1) ∧
  (∀ s : State, (4 ≤ s.hk.rounds → s.bit F.HK_STS.ARMED = false → ∃ t, exec .rorArm s = .next t ∧
      t.regsAre (s.setBit F.HK_STS.ARMED true) ∧ t.hk.past = s.hk.past.map (fun (x : Nat × List Nat) => (x.1, x.2.take 3))) ∧
    (s.hk.rounds < 4 → exec .rorArm s = .next s)) ∧
  (∀ (tb : List Word) (s : State), s.bit F.HK_STS.RST_WAIT = true → s.phase = Ph.off → 2 ≤ s.sensLeft →
    s.bit F.PSQ_STS.IN_GOOD = true → s.bit F.PSQ_STS.MOD_EN = true → s.psq.offSince = false → s.readTable = some tb →
    (3750 ≤ s.hk.cool → ∃ t, exec .restartHoldRelease s = .next t ∧
      (if ({ s with psq.table := tb } : State).allLow then t.phase = Ph.up ∧ t.bit F.HK_STS.RST_WAIT = false
        else t.phase = Ph.dischWait)) ∧
    (s.hk.cool < 3750 → exec .restartHoldRelease s = .next s)) ∧
  (∀ (path : Path) (v : Word) (s : State), s.mgrOrOob path = true → ∃ t, exec (.hkReadmit path v) s = .next t ∧
    ∀ n, n < 24 → t.bit (F.HK_CH.EXCL n) = (s.bit (F.HK_CH.EXCL n) && !v.getLsbD n)) ∧
  (∀ s : State, (s.bit F.PSQ_STS.RAILS_UP = false → exec .operatingSecond s = .next s) ∧
    (s.bit F.PSQ_STS.RAILS_UP = true → ∃ t, exec .operatingSecond s = .next t ∧
      t.opSecs = (if 360 ≤ s.opSecs + 1 then 0 else s.opSecs + 1) ∧
      t.hk.histSecs = (if 3600 ≤ s.hk.histSecs + 1 then 0 else s.hk.histSecs + 1) ∧
      t.hk.coreSecs = s.hk.coreSecs + s.coreUp.toNat))

/-- The commands of the parameter store and the Roll book's words — PST_PROGRAM_DONE, PST_ERASE_DONE, PST_SUPPLY_RETRY,
PST_SUPPLY_ABANDON, PST_WRITE_REREQUEST, PST_WIN_READ, PST_WIN_WRITE, PST_ERASE, PST_LOAD, PST_COMMIT, PST_PATROL_ROW,
ROLL_BOOK_RECORD_WRITE and RB_REC_READ — complete with their effects (R468, R471–R475, R482–R484, R488, R493). -/
def Obligations.ParameterStoreCommands : Prop :=
  (∀ (o : PstOp) (rest : List PstStep) (aux cap : BitVec 12) (s : State), s.pst.cur = some o → s.pst.failing = false →
    (∀ (a : Nat) (w r : Word), o.steps = .program a w :: rest → ∃ t, exec (.pstProgramDone r aux cap) s = .next t ∧
      t.pst.words = sset erasedWord s.pst.words a r ∧
      (r ≠ w → s.coreUp = true → (s.fcSrc 4).wire = false →
        t.num R.PST_WR_FAIL = min (s.num R.PST_WR_FAIL + 1) 0xFFFFFFFF ∧ t.fltSeen 4 Kind.UE = true)) ∧
    (∀ r : Nat, o.steps = .erase r :: rest → ∃ t, exec (.pstEraseDone aux cap) s = .next t ∧
      (∀ a, a / 64 = r → sget erasedWord t.pst.words a = erasedWord) ∧
      (∀ a, a / 64 ≠ r → sget erasedWord t.pst.words a = sget erasedWord s.pst.words a))) ∧
  (∀ (o : PstOp) (aux cap : BitVec 12) (s : State), s.pst.cur = some o → s.pst.failing = true →
    (s.num R.PST_AUX_MIN * 10 ≤ aux.toNat → 2800 ≤ cap.toNat → ∃ t, exec (.pstSupplyRetry aux cap) s = .next t ∧
      t.pst.failing = false ∧ t.bit F.PST_STS.BUSY = true ∧ t.bit F.PST_STS.SUPPLY_LOW = false) ∧
    (aux.toNat < s.num R.PST_AUX_MIN * 10 ∨ cap.toNat < 2800 → ∃ t, exec (.pstSupplyRetry aux cap) s = .next t ∧
      t.pst.failing = true ∧ t.bit F.PST_STS.BUSY = false) ∧
    (s.pst.queue = [] → s.coreUp = true → (s.fcSrc 4).wire = false → ∃ t, exec .pstSupplyAbandon s = .next t ∧ t.pst.failing = false ∧
      t.pst.cur = none ∧ t.bit F.PST_STS.SUPPLY_LOW = true ∧ t.fltSeen 4 Kind.SUPPLY = true ∧
      t.num R.PST_SUPPLY_FAIL = min (s.num R.PST_SUPPLY_FAIL + 1) 0xFFFFFFFF)) ∧
  (∀ (c : PstOp) (s : State), s.pst.cur = some c → c.job.isErase = false →
    (∀ (j : PstJob) (l : List PstJob), s.pst.rereq = j :: l → ∃ t, exec .pstWriteRerequest s = .next t ∧ t.pst.rereq = l ∧
      t.pst.queue = s.pst.queue ++ [⟨j, [], false, false⟩] ∧ t.regsAre s) ∧
    (∀ (path : Path) (k : Fin 64) (w : Word), s.mgrOrOob path = true → userRow (s.num R.PST_ROW) = true →
      s.pstWord (s.num R.PST_ROW) k = erasedWord → s.pst.queue = [] → ∃ t, exec (.pstWinWrite path k w) s = .next t ∧
      t.pst.queue = [⟨.window (64 * s.num R.PST_ROW + k) w, [], false, false⟩] ∧ t.regsAre s) ∧
    (∀ path : Path, s.mgrOrOob path = true → userRow (s.num R.PST_ROW) = true → ∃ t, exec (.pstErase path) s = .next t ∧
      t.pst.queue = s.pst.queue ++ [⟨.userErase (s.num R.PST_ROW), [], false, false⟩] ∧
      t.regsAre (s.setBit F.PST_STS.ERASE_BUSY true)) ∧
    (∀ num : Fin 8, s.phase = Ph.off ∨ s.phase = Ph.lockout → ∃ t, exec (.pstCommit .oob num) s = .next t ∧
      t.pst.queue = s.pst.queue ++ [⟨.config num ((List.range 62).map (fun k => s.rd (R.PST_STG k))) true, [], false, false⟩] ∧
      t.regsAre (s.setBit F.PST_STS.COMMIT_BUSY true))) ∧
  (∀ (path : Path) (s : State), s.mgrOrOob path = true →
    (∀ (k : Fin 64) (w : Word), userRow (s.num R.PST_ROW) = false ∨ s.pstWord (s.num R.PST_ROW) k ≠ erasedWord →
      exec (.pstWinWrite path k w) s = .next ((s.regAcc 4).setBit F.PST_STS.WIN_REFUSED true)) ∧
    (userRow (s.num R.PST_ROW) = false →
      exec (.pstErase path) s = .next ((s.regAcc 4).setBit F.PST_STS.WIN_REFUSED true)) ∧
    (∀ num : Fin 8, s.phase ≠ Ph.off → s.phase ≠ Ph.lockout →
      exec (.pstCommit path num) s = .next ((s.regAcc 4).setBit F.PST_STS.WIN_REFUSED true)) ∧
    (s.pst.cur = none → s.pst.reads = [] →
      (∀ k : Fin 64, ∃ t, exec (.pstWinRead path k) s = .next t ∧ t.regsAre s ∧
        Output.regRead path (R.PST_WIN k) (s.pstWord (s.num R.PST_ROW) k) ∈ t.out) ∧
      (∀ k : Fin 8, s.rb.opened = none → ∃ t, exec (.rbRecRead path k) s = .next t ∧ t.regsAre s ∧
        Output.regRead path (R.RB_REC k) (sget erasedWord s.pst.words (8 * s.num R.RB_SEL + k.val)) ∈ t.out)) ∧
    (∀ (num : Fin 8) (ws : List Word), s.configOf num = some ws → ws.length ≤ 62 → ∃ t, exec (.pstLoad path num) s = .next t ∧
      ∀ k, k < ws.length → t.rd (R.PST_STG k) = ws.getD k 0)) ∧
  (∀ s : State, s.bit F.PST_CTL.PATROL_EN = true →
    let r := s.num R.PST_PATROL_ROW
    exec (.pstPatrolRow none) s = .next (s.wrN R.PST_PATROL_ROW ((r + 1) % 2048)) ∧
    (∀ n : Fin 64, s.pstWord r n ≠ erasedWord → userRow r = true → ∃ t, exec (.pstPatrolRow (some n)) s = .next t ∧
      t.bit F.PST_STS.USER_WEAK = true ∧ t.num R.PST_WEAK_CNT = min (s.num R.PST_WEAK_CNT + 1) 0xFFFFFFFF ∧
      t.num R.PST_PATROL_ROW = (r + 1) % 2048)) ∧
  (∀ (x : RbRec) (rest : List RbRec) (s : State), s.bit F.RB_STS.READY = true → s.bit F.PST_STS.RESCUE = false →
    s.supplyGood = true → s.pst.cur = none → s.pst.queue = [] → s.rb.closing = none → s.rb.queue = x :: rest → s.num R.RB_COUNT < 8192 →
    ∃ t, exec (.rollBookRecordWrite none) s = .next t ∧ t.rb.queue = rest ∧
    t.num R.RB_TAIL = (s.num R.RB_TAIL + 1) % 8192 ∧ t.num R.RB_COUNT = s.num R.RB_COUNT + 1 ∧
    ∀ n ∈ [0, 2, 3, 4, 5, 6, 7], sget erasedWord t.pst.words (8 * s.num R.RB_TAIL + n) = recWord x n)

/-- The commands by which faults arrive and are answered — FAULT_RAISE, WIRE_FAULT, FAULT_WORD_POLL, FLT_FORCE_GO,
FLT_FORCE_WIRE, ESCALATION_TIMEOUT, FC_ACK, FC_RESOLVE, FC_ESC and FC_REVOKE — complete with their effects (R498–R505, R509). -/
def Obligations.FaultArrivalCommands : Prop :=
  (∀ (w : FltWord) (s : State), w.bad = false → w.src.toNat ≤ 124 → s.coreUp = true → (s.fcSrc w.src.toNat).wire = false →
    let n := w.src.toNat
    let x := s.fcSrc n
    (2 ≤ w.sev.val → x.sev < w.sev.val → ∃ t, exec (.faultRaise [w]) s = .next t ∧ t.fltSeen n w.kind = true ∧
      t.fcSrc n = { x with sev := w.sev.val, kind := w.kind.val, detail := w.detail.toNat, acked := false, timerAt := s.tick.toNat, timer := some (if w.sev.val = 2 then s.num R.FC_ESC_T2 else s.num R.FC_ESC_T3) } ∧
      t.bit ⟨R.FC_SEEN 0 + 4 * (n / 32), n % 32, 1⟩ = true ∧ t.bit ⟨R.FC_ACTIVE 0 + 4 * (n / 32), n % 32, 1⟩ = true) ∧
    (w.sev.val ≤ 1 → ∃ t, exec (.faultRaise [w]) s = .next t ∧ t.fltSeen n w.kind = true ∧ t.fcSrc n = x ∧
      t.num (R.FC_CNT_SEV w.sev) = if s.fltMasked ⟨n, w.sev, w.kind, w.detail.toNat⟩ then s.num (R.FC_CNT_SEV w.sev)
        else min (s.num (R.FC_CNT_SEV w.sev) + 1) 0xFFFFFFFF)) ∧
  (∀ (src : BitVec 8) (s : State), src.toNat ≤ 124 → s.coreUp = true → (s.fcSrc src.toNat).wire = false →
    ∃ t, exec (.wireFault src) s = .next t ∧ (t.fcSrc src.toNat).wire = true ∧ t.fltSeen 1 Kind.WIRE = true ∧
    t.num R.FC_WIRE_CNT = min (s.num R.FC_WIRE_CNT + 1) 0xFFFFFFFF) ∧
  (∀ (src : BitVec 8) (s : State), src.toNat ≤ 124 → s.coreUp = true → (s.fcSrc src.toNat).wire = true →
    ((s.fcSrc src.toNat).word = none → exec (.faultWordPoll src) s = .next s) ∧
    (∀ f : Flt, (s.fcSrc src.toNat).word = some f → f.src = src.toNat → f.kind < 16 → ∃ t, exec (.faultWordPoll src) s = .next t ∧
      (t.fcSrc src.toNat).wire = true ∧ (t.fcSrc src.toNat).word = none ∧ t.fltSeen src.toNat f.kind = true)) ∧
  (∀ (page : Fin 110) (path : Path) (sev sub : Fin 4) (s : State), s.isManager path = true →
    (∀ n, pageSrc page sub = some n → s.coreUp = true → (s.fcSrc n).wire = false →
      (∃ t, exec (.fltForceGo page path sev sub) s = .next t ∧ t.fltSeen n Kind.INJECT = true ∧
        (2 ≤ sev.val → (s.fcSrc n).sev < sev.val → (t.fcSrc n).sev = sev.val ∧ (t.fcSrc n).kind = Kind.INJECT)) ∧
      (∃ t, exec (.fltForceWire page path sub) s = .next t ∧ (t.fcSrc n).wire = true ∧ t.fltSeen 1 Kind.WIRE = true)) ∧
    (pageSrc page sub = none → exec (.fltForceGo page path sev sub) s = .next (s.regAcc page) ∧
      exec (.fltForceWire page path sub) s = .next (s.regAcc page))) ∧
  (∀ (src : BitVec 8) (s : State), (s.fcSrc src.toNat).kind ≠ Kind.INJECT ∨ s.bit F.FC_CTL.INJ_NOACT = false →
    let n := src.toNat
    (n ≤ 5 → (s.fcSrc n).sev ≠ 3 →
      (s.coreUp = true → (s.fcSrc n).timer.isSome = true → ∃ t, exec (.escalationTimeout src) s = .next t ∧
        t.bit F.FC_STS.DEGRADED = true ∧ (t.fcSrc n).timer = none ∧ t.num R.FC_ESC_CNT = min (s.num R.FC_ESC_CNT + 1) 0xFFFFFFFF) ∧
      (s.proctors = true → (s.fcSrc n).sev ≠ 0 → ∃ t, exec (.fcEsc src) s = .next t ∧ t.bit F.FC_STS.DEGRADED = true ∧
        (t.fcSrc n).timer = none)) ∧
    (72 ≤ n → n ≤ 95 → s.fencedSrc n = false →
      (s.coreUp = true → (s.fcSrc n).timer.isSome = true → ∃ t, exec (.escalationTimeout src) s = .next t ∧
        t.fencedSrc n = true ∧ (t.fcSrc n).timer = none ∧ t.get (F.CORE_STS.STATE (n - 72)) = 2) ∧
      (s.proctors = true → (s.fcSrc n).sev ≠ 0 → ∃ t, exec (.fcEsc src) s = .next t ∧ t.fencedSrc n = true ∧
        t.get (F.CORE_STS.STATE (n - 72)) = 2))) ∧
  (∀ (src : BitVec 8) (s : State), s.proctors = true →
    let n := src.toNat
    ((s.fcSrc n).sev = 2 → (s.fcSrc n).timer.isSome = true → ∃ t, exec (.fcAck src) s = .next t ∧ t.regs = s.regs ∧
      t.fcSrc n = { s.fcSrc n with timer := none, acked := true }) ∧
    ((s.fcSrc n).sev = 3 → (s.fcSrc n).timer.isSome = true → exec (.fcAck src) s = .next s ∧ exec (.fcResolve src) s = .next s) ∧
    ((s.fcSrc n).sev = 2 → n ≤ 124 → ∃ t, exec (.fcResolve src) s = .next t ∧
      t.fcSrc n = { s.fcSrc n with sev := 0, kind := 0, detail := 0, acked := false, timer := none, timerAt := 0 } ∧
      t.bit ⟨R.FC_ACTIVE 0 + 4 * (n / 32), n % 32, 1⟩ = false) ∧
    ((s.fcSrc n).fenced = true → s.fc.revoking = none → ∃ t, exec (.fcRevoke src) s = .next t ∧ t.fc.revoking = some n ∧
      (t.fcSrc n).revoked = true ∧ t.num R.FC_REV_STS = n + 256) ∧
    ((s.fcSrc n).fenced = false → n < 96 → exec (.fcRevoke src) s = .next (s.setBit F.FC_REV_STS.REFUSED true)))

/-- The commands of fences, leases, Proctors and containment — REVOCATION_DONE, FC_UNFENCE, FC_PROC_BEAT,
PROCTOR_BEAT_MISSING, REVOKE_OVERDUE, FC_CONTAIN_NOW and FC_DRAIN_LIMIT — complete with their effects (R507–R510, R512, R514,
Table 17.8). -/
def Obligations.FenceAndContainmentCommands : Prop :=
  (∀ (h : Nat) (s : State), s.fc.revoking = some h → h < 256 → h < 12 ∨ 19 < h → s.hp.serialQ = [] →
    (s.fc.revokeQ = [] → ∃ t, exec (.revocationDone []) s = .next t ∧ t.fc.revoking = none ∧
      t.fc.leases = s.fc.leases.filter (fun x => x.holder != h) ∧
      t.num R.FC_REV_STS = h + 512 + min (s.held h).length 65535 * 65536) ∧
    (∀ (k : Nat) (rest : List Nat), s.fc.revokeQ = k :: rest → k < 256 → ∃ t, exec (.revocationDone []) s = .next t ∧
      t.fc.revoking = some k ∧ t.fc.revokeQ = rest ∧ t.num R.FC_REV_STS = k + 256)) ∧
  (∀ (src : BitVec 8) (s : State), s.proctors = true → s.fencedSrc src.toNat = true →
    (returnable src.toNat = true → (s.fcSrc src.toNat).stuck = false → s.held src.toNat = [] →
      ∃ t, exec (.fcUnfence src) s = .next t ∧ t.fencedSrc src.toNat = false ∧
      (72 ≤ src.toNat → src.toNat ≤ 95 → t.get (F.CORE_STS.STATE (src.toNat - 72)) = 1)) ∧
    (returnable src.toNat = false ∨ (s.fcSrc src.toNat).stuck = true ∨ s.held src.toNat ≠ [] →
      exec (.fcUnfence src) s = .next s)) ∧
  (∀ (p : Fin 4) (s : State), s.coreUp = true →
    (s.healthy p = true → exec (.fcProcBeat p) s = .next { s with fc.beats := sset 0 s.fc.beats p s.tick.toNat }) ∧
    (s.healthy p = false → exec (.fcProcBeat p) s = .next s) ∧
    (s.healthy p = true → 3 ≤ s.get F.BOOT_STS.PHASE → (s.fcSrc (96 + p.val)).wire = false →
      (s.refclk = false ∨ sget 0 s.fc.beats p + 400000 ≤ s.tick.toNat → ∃ t, exec (.proctorBeatMissing p) s = .next t ∧
        t.fltSeen (96 + p.val) Kind.STALL = true ∧ t.regsAre s) ∧
      (s.refclk = true → s.tick.toNat < sget 0 s.fc.beats p + 400000 → exec (.proctorBeatMissing p) s = .next s))) ∧
  (∀ (src : BitVec 8) (s : State), s.coreUp = true → s.fencedSrc src.toNat = true →
    ((s.fcSrc src.toNat).revoked = true → exec (.revokeOverdue src) s = .next s) ∧
    ((s.fcSrc src.toNat).revoked = false → (s.fcSrc (96 + s.lead)).wire = false → ∃ t, exec (.revokeOverdue src) s = .next t ∧
      t.fltSeen (96 + s.lead) Kind.STALL = true ∧ t.regsAre s)) ∧
  (∀ (path : Path) (s : State), s.isManager path = true →
    (s.bit F.FC_STS.CONTAINING = true → exec (.fcContainNow path) s = .next (s.regAcc 1)) ∧
    (s.coreUp = true → s.bit F.FC_STS.CONTAINING = false → s.phase = Ph.drain → ∃ t, exec (.fcContainNow path) s = .next t ∧
      t.phase = Ph.drain ∧ ∀ p, p < 8 → t.bit (F.HP_STS.VIRAL p) = (s.bit (F.HP_STS.VIRAL p) || s.bit (F.HP_STS.PRESENT p))) ∧
    (s.coreUp = true → s.bit F.FC_STS.CONTAINING = false → s.phase = Ph.on → s.psq.drained = false → s.psq.marg = [] →
      s.psq.test = none → ∃ t, exec (.fcContainNow path) s = .next t ∧ t.phase = Ph.drain ∧ t.psq.trigger = 3 ∧
      t.bit F.FC_STS.CONTAINING = true ∧ t.te.drainMode = true)) ∧
  (∀ s : State, (s.psq.contLim = false → exec .fcDrainLimit s = .next s) ∧
    (s.psq.contLim = true → s.phase = Ph.drain → 2 ≤ s.psq.step → s.psq.step ≤ 6 → s.psq.trigger = 3 → s.psq.toDown = false →
      (s.memActive = true → s.fc.contains.length < 3 → ∃ t, exec .fcDrainLimit s = .next t ∧ t.phase = Ph.on ∧
        t.boot.resetReq = true ∧ t.psq.contLim = false ∧ t.psq.short = true) ∧
      (s.memActive = false ∨ 3 ≤ s.fc.contains.length → ∃ t, exec .fcDrainLimit s = .next t ∧ t.bit F.FC_STS.HELD = true ∧
        t.bit F.FC_STS.CONTAINING = false ∧ t.get F.BOOT_STS.LAST_RST = 3)))

/-- The commands of the management queues — MQ_PUSH_LO, MQ_PUSH_HI, MQ_PUSH_HI_END, MQ_POP_LO, MQ_POP_HI, MQ_FLUSH_DN,
MQ_FLUSH_UP, MQ_RESET, MQ_COMMAND and MQ_REPLY — complete with their effects (R523–R527, R529). -/
def Obligations.ManagementQueueCommands : Prop :=
  (∀ (q : Fin 8) (path : Path) (v : Word) (k : Nat) (s : State), s.mqPath q path = some k → s.fencedSrc (100 + q.val) = false →
    let m := s.mqOf q
    (∃ t, exec (.mqPushLo q path v) s = .next t ∧ t.regsAre s ∧ t.mqOf q = { m with hold := sset 0 m.hold k v }) ∧
    (m.skip = false → m.dn.length < 2048 → s.bit (F.MQ_STS.FLUSH_PEND_DN q) = false →
      (∃ t, exec (.mqPushHi q path v false) s = .next t ∧
        t.mqOf q = { m with hold := sset 0 m.hold k 0, dn := m.dn ++ [(false, v ++ sget 0 m.hold k)] } ∧
        t.get (F.MQ_SPACE.DN_FREE q) = 2047 - m.dn.length) ∧
      (∃ t, exec (.mqPushHiEnd q path v false) s = .next t ∧
        t.mqOf q = { m with hold := sset 0 m.hold k 0, dn := m.dn ++ [(true, v ++ sget 0 m.hold k)] } ∧
        t.get (F.MQ_SPACE.DN_FREE q) = 2047 - m.dn.length)) ∧
    (m.skip = false → 2048 ≤ m.dn.length → ∃ t, exec (.mqPushHi q path v false) s = .next t ∧
      t.mqOf q = { m with hold := sset 0 m.hold k 0, dn := dropOpen m.dn, skip := true } ∧ t.bit (F.MQ_STS.OVERRUN q) = true ∧
      t.num (R.MQ_DROP_PKT q) = min (s.num (R.MQ_DROP_PKT q) + 1) 0xFFFFFFFF)) ∧
  (∀ (q : Fin 8) (path : Path) (k : Nat) (s : State), s.mqPath q path = some k →
    let m := s.mqOf q
    (m.up = [] → ∃ t, exec (.mqPopLo q path) s = .next t ∧ t.bit (F.MQ_STS.UNDERRUN q) = true ∧
      Output.regRead path (R.MQ_POP_LO q) (sget 0 m.lastLo k) ∈ t.out) ∧
    (∀ (w : Bool × BitVec 64) (rest : List (Bool × BitVec 64)), m.up = w :: rest →
      (∃ t, exec (.mqPopLo q path) s = .next t ∧ t.mqOf q = { m with lastLo := sset 0 m.lastLo k (w.2.setWidth 32) } ∧
        Output.regRead path (R.MQ_POP_LO q) (w.2.setWidth 32) ∈ t.out) ∧
      (s.bit (F.MQ_STS.FLUSH_PEND_UP q) = false → ∃ t, exec (.mqPopHi q path false) s = .next t ∧
        t.mqOf q = { m with up := rest, inPkt := !w.1, lastHi := sset 0 m.lastHi k ((w.2 >>> 32).setWidth 32) } ∧
        Output.regRead path (R.MQ_POP_HI q) ((w.2 >>> 32).setWidth 32) ∈ t.out)) ∧
    (s.coreUp = true → (s.fcSrc (100 + q.val)).wire = false → ∃ t, exec (.mqPopHi q path true) s = .next t ∧
      (t.mqOf q).up = [] ∧ (t.mqOf q).dn = [] ∧ t.bit (F.MQ_STS.PTR_FAULT q) = true ∧ t.fltSeen (100 + q.val) Kind.PTR = true ∧
      t.num (R.MQ_PTR_CNT q) = min (s.num (R.MQ_PTR_CNT q) + 1) 0xFFFFFFFF) ∧
    (if m.dnOpen then ∃ t, exec (.mqFlushDn q path) s = .next t ∧ t.bit (F.MQ_STS.FLUSH_PEND_DN q) = true ∧ t.mqOf q = m
      else ∃ t, exec (.mqFlushDn q path) s = .next t ∧ t.mqOf q = { m with dn := [] } ∧ t.bit (F.MQ_STS.FLUSH_PEND_DN q) = false) ∧
    (if m.inPkt then ∃ t, exec (.mqFlushUp q path) s = .next t ∧ t.bit (F.MQ_STS.FLUSH_PEND_UP q) = true ∧ t.mqOf q = m
      else ∃ t, exec (.mqFlushUp q path) s = .next t ∧ (t.mqOf q).up = [] ∧ (t.mqOf q).dn = m.dn ∧
        t.bit (F.MQ_STS.FLUSH_PEND_UP q) = false) ∧
    (∃ t, exec (.mqReset q path) s = .next t ∧ (t.mqOf q).up = [] ∧ (t.mqOf q).dn = [] ∧ (t.mqOf q).hold = [] ∧ (t.mqOf q).cur = m.cur ∧
      t.get (F.MQ_STS.EPOCH q) = (s.get (F.MQ_STS.EPOCH q) + 1) % 256 ∧ t.bit (F.MQ_STS.FLUSH_PEND_DN q) = false ∧
      t.bit (F.MQ_STS.FLUSH_PEND_UP q) = false)) ∧
  (∀ (q : Fin 8) (w : Bool × BitVec 64) (ws rest : List (Bool × BitVec 64)) (op : Option MboxOp) (s : State), s.coreUp = true →
    3 ≤ s.get F.BOOT_STS.PHASE → s.fencedSrc (100 + q.val) = false →
    let m := s.mqOf q
    let code := w.2.toNat % 2 ^ 16
    let tag := w.2.toNat / 2 ^ 16 % 2 ^ 16
    let len := w.2.toNat / 2 ^ 32 % 2 ^ 11
    let ends := fun (o : Option MboxOp) (rc : Rc) (l : List Nat) => ∃ t, exec (.mqCommand q o) s = .next t ∧
      t.mqOf q = { m with dn := rest, replies := m.replies ++ [replyPacket (code, tag) rc 0 l] }
    m.cur = none → takePacket m.dn = some (w :: ws, rest) →
    (1024 < len ∨ len ≠ ws.length → ends op .invalidInput []) ∧
    (len ≤ 1024 → len = ws.length →
      (code ∉ opcodes → ends op .unsupported []) ∧
      (code = 0x0300 → ends (some .getTime) .success [s.timeNow] ∧ ends none .invalidInput []))) ∧
  (∀ (q : Fin 8) (r : List (Bool × BitVec 64)) (rest : List (List (Bool × BitVec 64))) (s : State), s.coreUp = true →
    s.fencedSrc (100 + q.val) = false → (s.mqOf q).replies = r :: rest → (s.mqOf q).up.length < 2048 →
    let room := 2048 - (s.mqOf q).up.length
    ∃ t, exec (.mqReply q) s = .next t ∧ (t.mqOf q).up = (s.mqOf q).up ++ r.take room ∧
    (t.mqOf q).replies = (if r.length ≤ room then rest else r.drop room :: rest) ∧
    t.get (F.MQ_SPACE.UP_WORDS q) = min 2048 ((s.mqOf q).up.length + r.length))

/-- The commands of the counting windows, the link patterns, lane margining and boundary scan — PC_WIN_START, PC_WIN_STOP,
PC_WIN_CLR, PC_WINDOW_END, TST_PC_START, TST_PC_STOP, TST_PHY_CTL_WRITE, TST_PAT_START, TST_PAT_STOP, TST_PAT_INJ,
PATTERN_SYNC_GAIN, PATTERN_SYNC_LOSS, TST_MARG_START, TST_MARG_STOP, MARGIN_STEP_END, LANE_MARGIN_COMMAND,
PCIE_LOOPBACK_ENTRY, JTAG_INSTRUCTION_UPDATE and TRST_N — complete with their effects (R534–R541). -/
def Obligations.WindowAndTestCommands : Prop :=
  (∀ (page : Fin 110) (path : Path) (v : Word) (s : State), s.isManager path = true →
    (v.getLsbD 0 = true → v.getLsbD 1 = false → v.getLsbD 2 = false → ∃ t, exec (.pcWinStart page path v) s = .next t ∧
      t.bit (F.PC_WIN_CTL.START page) = true ∧ t.get (F.PC_WIN_CTL.LEN page) = v.toNat / 2 ^ 16 ∧
      sget 0 t.tst.winAt page = s.tick.toNat) ∧
    (v.getLsbD 0 = false → v.getLsbD 1 = true → v.getLsbD 2 = false → ∃ t, exec (.pcWinStop page path v) s = .next t ∧
      t.bit (F.PC_WIN_CTL.START page) = false ∧ ∀ k, k < 16 → t.rd (R.PC_CNT page 0 + 4 * k) = (s.regAcc page).rd (R.PC_CNT page 0 + 4 * k)) ∧
    (v.getLsbD 0 = false → v.getLsbD 1 = false → v.getLsbD 2 = true → ∃ t, exec (.pcWinClr page path v) s = .next t ∧
      t.get (F.PC_WIN_CTL.OVF page) = 0 ∧ t.bit (F.PC_WIN_CTL.START page) = s.bit (F.PC_WIN_CTL.START page) ∧
      ∀ k, k < 16 → t.rd (R.PC_CNT page 0 + 4 * k) = 0)) ∧
  (∀ (page : Fin 110) (s : State), (s.winDue page = true →
      exec (.pcWindowEnd page) s = .next (s.setBit (F.PC_WIN_CTL.START page) false)) ∧
    (s.winDue page = false → exec (.pcWindowEnd page) s = .next s)) ∧
  (∀ (path : Path) (s : State), s.isManager path = true →
    (∃ t, exec (.tstPcStart path) s = .next t ∧ ∀ p, p < 110 → t.bit (F.PC_WIN_CTL.START p) = true ∧ sget 0 t.tst.winAt p = s.tick.toNat) ∧
    (∃ t, exec (.tstPcStop path) s = .next t ∧ ∀ p, p < 110 → t.bit (F.PC_WIN_CTL.START p) = false)) ∧
  (∀ (path : Path) (k : Nat) (s : State), s.isManager path = true → k < 4 →
    ((∀ j, j < 5 → s.phyHeld j = false) →
      (s.mayHold k = true → ∃ t, exec (.tstPhyCtlWrite path (BitVec.ofNat 32 (2 ^ k))) s = .next t ∧ t.phyHeld k = true ∧
        t.bit F.TST_PAT_STS.REFUSED = false) ∧
      (s.mayHold k = false → ∃ t, exec (.tstPhyCtlWrite path (BitVec.ofNat 32 (2 ^ k))) s = .next t ∧ t.phyHeld k = false ∧
        t.bit F.TST_PAT_STS.REFUSED = true)) ∧
    (s.phyHeld k = true → ∃ t, exec (.tstPhyCtlWrite path 0) s = .next t ∧ t.phyHeld k = false ∧
      ∀ l, 16 * k ≤ l → l < 16 * k + 16 → (t.lane l).run = false)) ∧
  (∀ (path : Path) (n : Nat) (v : Word) (s : State), s.isManager path = true → s.laneSel = some n →
    (v.getLsbD 14 = false → s.mayStart n v = true → ∃ t, exec (.tstPatStart path v) s = .next t ∧
      t.lane n = ⟨true, false, v.toNat % 2048, 0, 0⟩ ∧ t.bit F.TST_PAT_STS.REFUSED = false ∧ t.bit F.TST_PAT_STS.RUN = true) ∧
    (s.mayStart n v = false → ∃ t, exec (.tstPatStart path v) s = .next t ∧ (t.lane n).run = (s.lane n).run ∧
      t.bit F.TST_PAT_STS.REFUSED = true) ∧
    ((s.lane n).ctl / 2 ^ 14 % 2 = 0 → (s.lane n).run = true → (s.lane n).sync = true → ∀ bits errs : Nat, (s.lane n).bits + bits < 2 ^ 48 →
      ∃ t, exec (.tstPatStop path [(bits, errs)]) s = .next t ∧ t.bit F.TST_PAT_STS.REFUSED = false ∧
      t.lane n = ⟨false, false, (s.lane n).ctl, (s.lane n).bits + bits, min ((s.lane n).errs + errs) 0xFFFFFFFF⟩) ∧
    ((s.lane n).run = true → (s.lane n).ctl / 8 % 2 = 1 →
      exec (.tstPatInj path) s = .next ((s.regAcc 108).emit (.other 108 [n])))) ∧
  (∀ (lane : Fin 120) (s : State),
    (lane.val < 80 → (s.lane lane).run = true → (s.lane lane).ctl / 16 % 2 = 1 → ∃ t, exec (.patternSyncGain lane) s = .next t ∧
      t.lane lane = { s.lane lane with sync := true }) ∧
    (80 ≤ lane.val → s.bit (F.MC_PAT_CTL.START (lane.val - 80)) = true →
      exec (.patternSyncGain lane) s = .next (s.setBit (F.MC_STS.PAT_SYNC (lane.val - 80)) true))) ∧
  (∀ (lane : Fin 80) (bits errs : Nat) (s : State), (s.lane lane).run = true → (s.lane lane).sync = true →
    (s.lane lane).bits + bits < 2 ^ 48 → ∃ t, exec (.patternSyncLoss lane bits errs) s = .next t ∧
    t.lane lane = { s.lane lane with sync := false, bits := (s.lane lane).bits + bits, errs := min ((s.lane lane).errs + errs) 0xFFFFFFFF }) ∧
  (∀ (path : Path) (l : Nat) (v : Word) (s : State), s.isManager path = true → s.laneSel = some l →
    (64 ≤ l → s.bit F.CAR_STS.LINK_UP = true → s.bit F.CAR_STS.PAIRED = false → 1 ≤ v.toNat / 4 % 32 →
      v.toNat / 4 % 32 ≤ (if v.toNat % 2 = 0 then 16 else 32) → 2 ^ 16 ≤ v.toNat → s.fencedSrc 108 = false →
      ∃ t, exec (.tstMargStart path v) s = .next t ∧ t.tst.marg = some l ∧ t.num R.TST_MARG_STS = 0 ∧
      t.bit F.TST_MARG_CTL.START = true) ∧
    (l < 64 → ∃ t, exec (.tstMargStart path v) s = .next t ∧ t.tst.marg = s.tst.marg ∧ t.bit F.TST_MARG_STS.REFUSED = true)) ∧
  (∀ (path : Path) (l : Nat) (errs : BitVec 6) (s : State), s.tst.marg = some l →
    (∃ t, exec (.marginStepEnd errs) s = .next t ∧ t.tst.marg = none ∧ t.get ⟨R.TST_MARG_STS, 0, 6⟩ = errs.toNat ∧
      t.bit F.TST_MARG_STS.DONE = true ∧ t.bit F.TST_MARG_CTL.START = false) ∧
    (s.isManager path = true → ∃ t, exec (.tstMargStop path errs) s = .next t ∧ t.tst.marg = none ∧
      t.get ⟨R.TST_MARG_STS, 0, 6⟩ = errs.toNat ∧ t.bit F.TST_MARG_STS.DONE = true)) ∧
  (∀ (port : Fin 8) (lane : Fin 16) (s : State), s.bit (F.HP_STS.LINK_UP port) = true → 4 ≤ s.get (F.HP_STS.RATE port) →
    lane.val < s.get (F.HP_STS.WIDTH port) →
    exec (.laneMarginCommand port lane .caps) s = .next (s.emit (.hostMsg port 0x40 [lane.val, 16, 30, 32, 120, 1, 1])) ∧
    (∀ (v side : Bool) (n : BitVec 7) (e : BitVec 6), n.toNat ≤ (if v then 32 else 16) →
      exec (.laneMarginCommand port lane (.step v side n e)) s =
        .next (s.emit (.hostMsg port 0x41 [lane.val, v.toNat, side.toNat, n.toNat, e.toNat])))) ∧
  (∀ (port : Fin 8) (s : State), s.bit (F.HP_STS.PRESENT port) = true → s.coreUp = true → s.hp.perst.contains port.val = false →
    ∃ t, exec (.pcieLoopbackEntry port) s = .next t ∧ t.bit (F.HP_STS.LINK_UP port) = false ∧ Output.hostMsg port 0x43 [] ∈ t.out) ∧
  (∀ (code : BitVec 8) (kat : Bool) (s : State),
    (s.bit F.PSQ_STS.RAILS_UP = false → exec (.jtagInstructionUpdate code kat) s = .next s ∧ exec (.trstN kat) s = .next s) ∧
    (s.dom.aux = true → s.bit F.PSQ_STS.RAILS_UP = true → s.boot.jtag = false →
      exec (.trstN kat) s = .next { s with tst.jtag := 1 } ∧
      (code.toNat ∈ [0, 3, 4, 5, 6] → ∃ t, exec (.jtagInstructionUpdate code kat) s = .next t ∧ t.dom.coreUp = false) ∧
      (code.toNat = 1 ∨ code.toNat = 2 → exec (.jtagInstructionUpdate code kat) s = .next { s with tst.jtag := code.toNat }) ∧
      (7 ≤ code.toNat → exec (.jtagInstructionUpdate code kat) s = .next { s with tst.jtag := 0xFF })) ∧
    (s.dom.aux = true → s.bit F.PSQ_STS.RAILS_UP = true → s.boot.jtag = true → s.phase = Ph.on → s.coreUp = false →
      s.boot.rstN = false → s.dom.aon = true → ∃ t, exec (.trstN kat) s = .next t ∧ t.boot.jtag = false ∧ t.dom.coreUp = true))

/-- The commands of start-up and reset — AUX_RISE, AUX_FALL, AON_READY, CONFIGURATION_LOADED, FIRMWARE_VERIFIED,
MEMORY_ACTIVE, DEV_RST_N_ASSERT, DEV_RST_N_RELEASE, BOOT_CTL_RESET and REGISTER_RESET_EXECUTE — complete with their effects
(R35, R544, R547–R549, R555, R556, R598, Table 19.1). -/
def Obligations.StartUpAndResetCommands : Prop :=
  (∀ s : State, exec .auxRise s = .next { s with dom.aux := true } ∧
    (s.dom.aux = false → exec .auxFall s = .next s) ∧
    (s.dom.aux = true → ∃ t, exec .auxFall s = .next t ∧ t.dom.aux = false ∧ t.dom.aon = false ∧ t.dom.coreUp = false ∧
      t.dom.memActive = false ∧ t.pst.words = s.pst.words ∧ (s.coreUp = false → t.te.media = s.te.media) ∧
      ∀ k, k < 16 → Output.pin (.railEn k) none ∈ t.out)) ∧
  (∀ (side : Bool) (cfg : List (BitVec 24 × Word)) (s : State), s.dom.aux = true → s.dom.aon = false →
    ∃ t, exec (.aonReady side cfg) s = .next t ∧ t.dom.aon = true ∧ t.boot.side = side ∧ t.dom.coreUp = s.dom.coreUp) ∧
  (∀ (a b : Option CfgImage) (records : List (BitVec 24 × Word)) (s : State), s.coreUp = true → s.get F.BOOT_STS.PHASE = 1 →
    s.bit F.BOOT_STS.HALT = false →
    (a = none → b = none → ∃ t, exec (.configurationLoaded a b records) s = .next t ∧ t.bit F.BOOT_STS.HALT = true ∧
      t.get F.BOOT_STS.CAUSE = 1 ∧ t.get F.BOOT_STS.PHASE = 1) ∧
    (∀ i : CfgImage, a = some i ∧ (b = none ∨ ∃ j, b = some j ∧ j.gen.toNat ≤ i.gen.toNat) ∨
        b = some i ∧ (a = none ∨ ∃ j, a = some j ∧ j.gen.toNat < i.gen.toNat) →
      ∃ t, exec (.configurationLoaded a b records) s = .next t ∧ t.get F.BOOT_STS.PHASE = 2 ∧ t.boot.lockActive = i.lockActive ∧
      t.arch.govLow = near 82 90 i.govLow.toNat ∧ t.arch.govHigh = near (t.arch.govLow + 4) 100 i.govHigh.toNat ∧
      t.arch.govStep = near 5 20 (i.govStep.toNat / 5 * 5) ∧ t.arch.govHold = near 4 64 i.govHold.toNat ∧ ∀ ch, ch < 6 → t.bit (F.DC_STS.TRAIN_BUSY ch) = true)) ∧
  (∀ (ok1 : Bool) (s : State), s.coreUp = true → s.get F.BOOT_STS.PHASE = 2 → s.bit F.BOOT_STS.HALT = false →
    (∃ t, exec (.firmwareVerified false true ok1) s = .next t ∧ t.get F.FC_STS.HEALTHY = 15 ∧ t.bit F.BOOT_STS.FW_SLOT = false ∧
      t.bit F.BOOT_STS.FW_ALT = false ∧ 3 ≤ t.get F.BOOT_STS.PHASE ∧
      ∀ k, k < 28 → t.get (F.CORE_STS.STATE k) = 1 ∧ t.bit (F.CORE_STS.IMAGE_OK k) = true) ∧
    (∃ t, exec (.firmwareVerified false false true) s = .next t ∧ t.get F.FC_STS.HEALTHY = 15 ∧ t.bit F.BOOT_STS.FW_SLOT = true ∧
      t.bit F.BOOT_STS.FW_ALT = true ∧ 3 ≤ t.get F.BOOT_STS.PHASE) ∧
    (∃ t, exec (.firmwareVerified false false false) s = .next t ∧ t.bit F.BOOT_STS.HALT = true ∧ t.get F.BOOT_STS.CAUSE = 2 ∧
      t.get F.BOOT_STS.PHASE = 2)) ∧
  (∀ s : State, s.coreUp = true → s.get F.BOOT_STS.PHASE = 5 → s.bit F.TE_STS.MAP_READY = true → s.seqNext < s.seqHw →
    s.tw.decided = true → s.bit F.LC_STS.KEPT = false → s.rt.reqs = [] →
    (∀ n, n < 16 → s.bit (F.RT_RG_CTL.EN n) = true → s.bit (F.RT_RG_CTL.CTX_EN n) = false) →
    ∃ t, exec .memoryActive s = .next t ∧ t.dom.memActive = true ∧ t.get F.BOOT_STS.PHASE = 6 ∧
    ∀ p, p < 8 → s.bit (F.HP_STS.PRESENT p) = true → t.bit (F.HP_STS.MEM_ACTIVE p) = true) ∧
  (∀ (kat : Bool) (s : State),
    (s.boot.rstN = true → exec .devRstNAssert s = .next s) ∧
    (s.boot.rstN = false → s.bit F.PSQ_STS.RAILS_UP = false → exec .devRstNAssert s = .next { s with boot.rstN := true, tick := 0 }) ∧
    (s.boot.rstN = false → s.bit F.PSQ_STS.RAILS_UP = true → ∃ t, exec .devRstNAssert s = .next t ∧ t.boot.rstN = true ∧
      t.dom.coreUp = false ∧ t.tick = 0) ∧
    (s.boot.rstN = false → exec (.devRstNRelease kat) s = .next s) ∧
    (s.boot.rstN = true → s.bit F.PSQ_STS.RAILS_UP = true → s.phase = Ph.on → s.coreUp = false → s.boot.jtag = false →
      s.dom.aon = true → ∃ t, exec (.devRstNRelease kat) s = .next t ∧ t.boot.rstN = false ∧ t.dom.coreUp = true)) ∧
  (∀ (path : Path) (v : Word) (s : State),
    (s.isManager path = true → s.coreUp = true → s.phase = Ph.on → v.toNat / 65536 = 0xD0E5 → v.getLsbD 0 = true →
      s.boot.resetReq = false → ∃ t, exec (.bootCtlReset path v) s = .next t ∧ t.boot.resetReq = true ∧
      t.bit F.CAR_STS.TOKEN_HELD = false) ∧
    (s.isManager path = false ∨ v.toNat / 65536 ≠ 0xD0E5 ∨ v.getLsbD 0 = false →
      exec (.bootCtlReset path v) s = .next (s.regAcc 0))) ∧
  (∀ (kat : Bool) (s : State),
    (s.boot.resetReq = false → exec (.registerResetExecute kat) s = .next s) ∧
    (s.boot.resetReq = true → s.coreUp = true → s.rt.reqs = [] → s.bit F.FC_STS.CONTAINING = false →
      (s.boot.rstN = true → ∃ t, exec (.registerResetExecute kat) s = .next t ∧ t.dom.coreUp = false ∧
        t.get F.BOOT_STS.LAST_RST = 2 ∧ t.get F.BOOT_STS.PHASE = 1) ∧
      (s.boot.rstN = false → s.boot.jtag = false → s.dom.aon = true → ∃ t, exec (.registerResetExecute kat) s = .next t ∧
        t.dom.coreUp = true ∧ t.dom.memActive = false)))

/-- The commands of the register window and of the out-of-band target — SOFT_RST, LOCK_SET, DEV_LOCK_ALL, REGISTER_WRITE,
SPLIT_VALUE_LO_READ, OOB_READ, OOB_WRITE, I3C_DYNAMIC_ADDRESS, I3C_RSTDAA and ALERT_RESPONSE_READ — complete with their
effects (R12–R16, R579, R583–R585, R589–R591). -/
def Obligations.RegisterWindowCommands : Prop :=
  (∀ (page : Fin 110) (path : Path) (s : State), s.isManager path = true → s.coreUp = true →
    (page.val ≤ 6 → exec (.softRst page (some path)) s = .next s) ∧
    (100 ≤ page.val → page.val ≤ 107 → s.fencedSrc page = true → ∃ t, exec (.softRst page (some path)) s = .next t ∧
      t.mqOf (page.val - 100) = Mq.empty) ∧
    (26 ≤ page.val → page.val ≤ 30 → s.fencedSrc (page.val + 89) = true → ∃ t, exec (.softRst page (some path)) s = .next t ∧
      t = (s.zero (regRange (R.MG_OBP_STRIPES (page.val - 26)) 5)).wireEnd page) ∧
    (26 ≤ page.val → page.val ≤ 30 → s.fencedSrc (page.val + 89) = false → exec (.softRst page (some path)) s = .next s)) ∧
  (∀ (page : Fin 110) (path : Path) (s : State),
    (lockOff page = none → exec (.lockSet page path) s = .next (s.regAcc page)) ∧
    (∀ o, lockOff page = some o →
      (s.writable path (page.val * 0x1000 + o) = true →
        exec (.lockSet page path) s = .next ((s.regAcc page).setBit ⟨page.val * 0x1000 + o, 0, 1⟩ true)) ∧
      (s.writable path (page.val * 0x1000 + o) = false → exec (.lockSet page path) s = .next (s.regAcc page)))) ∧
  (∀ (path : Path) (s : State), s.writable path R.DEV_LOCK_ALL = true → s.coreUp = true → ∃ t, exec (.devLockAll path) s = .next t ∧
    ∀ page o, page < 110 → lockOff page = some o → t.bit ⟨page * 0x1000 + o, 0, 1⟩ = true) ∧
  (∀ (path : Path) (off : BitVec 24) (v : Word) (be : BitVec 4) (s : State),
    let o := off.toNat
    let u := s.regAcc (pageOf o)
    (be ≠ 15 ∨ o % 4 ≠ 0 ∨ s.writable path o = false → exec (.registerWrite path off v be) s = .next u) ∧
    (be = 15 → s.writable path o = true → o % 0x1000 = 0xC0 →
      exec (.registerWrite path off v be) s = .next ((u.winWrite (pageOf o) v).keepOwn o (s.wrapsOf (pageOf o)))) ∧
    (∀ d, defAt o = some d → be = 15 → o % 4 = 0 → s.writable path o = true → R.LC_RANGE_BASE_LO ≤ o → o ≤ R.LC_RANGE_CTL →
      exec (.registerWrite path off v be) s = .next (u.rangeWrite o v (u.stored d o v))) ∧
    (∀ d, defAt o = some d → be = 15 → o % 4 = 0 → s.writable path o = true → bookReg o = false → pageOf o < 100 ∨ pageOf o = 109 →
      pageOf o ≠ 9 → ¬(26 ≤ pageOf o ∧ pageOf o ≤ 30 ∧ o % 0x1000 = 0x22C) → o ≠ R.MAPC_CTL → o ≠ R.SIR_CTL →
      o ≠ R.PSQ_MARG_CTL → ¬(R.LC_RANGE_BASE_LO ≤ o ∧ o ≤ R.LC_RANGE_CTL) → o % 0x1000 ≠ 0xC0 →
      exec (.registerWrite path off v be) s = .next (u.wr o (u.stored d o v)) ∧
      (d.clamps = [] → ownBits o = 0 → (∀ w, u.ordered o w = w) → ∀ k, k < 32 → (u.stored d o v).getLsbD k =
        ((if d.rw.getLsbD k || (d.rwl.getLsbD k && !s.locked (pageOf o)) then v.getLsbD k else (s.rd o).getLsbD k) &&
          !(v.getLsbD k && d.w1c.getLsbD k))))) ∧
  (∀ (path : Path) (off : BitVec 24) (s : State),
    let o := off.toNat
    let u := s.regAcc (pageOf o)
    (o % 4 ≠ 0 ∨ ownRead o = true → exec (.splitValueLoRead path off) s = .next u) ∧
    (o % 4 = 0 → ownRead o = false →
      (wideLo o = true → u.laneOpen o = false → ∃ t, exec (.splitValueLoRead path off) s = .next t ∧
        Output.regRead path o (u.readValue path o) ∈ t.out ∧ (path, o + 4, u.readValue path (o + 4)) ∈ t.boot.caps) ∧
      (wideLo o = false → (∀ x ∈ s.boot.caps, x.1 ≠ path ∨ x.2.1 ≠ o) → u.laneOpen o = false →
        exec (.splitValueLoRead path off) s = .next (u.emit (.regRead path o (u.readValue path o)))) ∧
      (∀ hi : Word, wideLo o = false → s.boot.caps.find? (fun x => x.1 == path && x.2.1 == o) = some (path, o, hi) →
        ∃ t, exec (.splitValueLoRead path off) s = .next t ∧ Output.regRead path o hi ∈ t.out ∧ ∀ w, (path, o, w) ∉ t.boot.caps))) ∧
  (∀ (off : BitVec 24) (n : Fin 65) (v : Word) (pec : Bool) (s : State),
    let o := off.toNat
    (s.dom.aon = false ∨ s.boot.i3c = false ∧ pec = false →
      exec (.oobRead off n pec) s = .next s ∧ exec (.oobWrite off v pec) s = .next s) ∧
    (s.dom.aon = true → s.boot.i3c = true ∨ pec = true → o % 4 ≠ 0 →
      exec (.oobRead off n pec) s = .next (s.emit (.other 104 [o])) ∧
      exec (.oobWrite off v pec) s = .next (s.emit (.other 104 [o]))) ∧
    (s.dom.aon = true → s.boot.i3c = true ∨ pec = true → o % 4 = 0 → pageOf o ∉ [4, 5] → pageOf o < 100 ∨ pageOf o = 109 → wideLo o = false →
      s.boot.caps = [] → ∃ t, exec (.oobRead off 1 pec) s = .next t ∧
      Output.regRead .oob o (({ s.regAcc (pageOf o) with tst.quiet := true } : State).readValue .oob o) ∈ t.out) ∧
    (s.dom.aon = true → s.boot.i3c = true ∨ pec = true → o = R.PSQ_CNT_CLR → v.getLsbD 0 = true →
      ∃ t, exec (.oobWrite off v pec) s = .next t ∧ t.rd R.PSQ_DRAIN_CNT = 0 ∧ t.rd R.PSQ_PMB_ERR = 0 ∧
      t.rd R.PSQ_PUP_FAIL_CNT = 0 ∧ t.rd R.PSQ_RAIL_FLT_CNT = 0)) ∧
  (∀ (addr : BitVec 7) (s : State), s.dom.aon = true →
    (addr ≠ 0 → ∃ t, exec (.i3cDynamicAddress addr) s = .next t ∧ t.boot.i3c = true ∧ t.regsAre s) ∧
    (addr = 0 → exec (.i3cDynamicAddress addr) s = .next s) ∧
    (∃ t, exec .i3cRstdaa s = .next t ∧ t.boot.i3c = false ∧ t.regsAre s) ∧
    (s.boot.i3c = false → s.boot.alert = true → ∃ t, exec (.alertResponseRead true) s = .next t ∧
      Output.other 102 [s.num R.OOB_ADDR % 128] ∈ t.out ∧ t.boot.alert = s.alertCause) ∧
    (s.boot.i3c = true ∨ s.boot.alert = false → exec (.alertResponseRead true) s = .next s))

/-- A step takes the command at the front of the queue and is exec of it on the state with the queue's rest. -/
def Obligations.StepTakesTheFrontCommand : Prop :=
  ∀ (c : Instr) (rest : List Instr) (s : State), s.pending = c :: rest → step s = exec c { s with pending := rest }

/-- With an empty queue a step is one tick of REFCLK (log entry 2, the model's choice): the tick counts one on while REFCLK is present,
AUX_3V3 is valid and DEV_RST_N is high, and otherwise nothing changes (R20, R45, R47). -/
def Obligations.EmptyQueueIsOneTick : Prop :=
  ∀ s : State, s.pending = [] →
    (s.refclk = true → s.dom.aux = true → s.boot.rstN = false → ∃ t, step s = .next t ∧ t.tick = s.tick + 1 ∧ t.regsAre s ∧
      t.pending = [] ∧ t.dom = s.dom ∧ t.out = s.out) ∧
    (s.refclk = false ∨ s.dom.aux = false ∨ s.boot.rstN = true → step s = .next s)

/-- The domains in service at State.reset are a legal combination. -/
def Obligations.ResetDomainsAreLegal : Prop := State.reset.domainsLegal

/-- Every step from a state with a legal combination of domains leaves one (R34, R35, R550, R598): no command takes memory active
without the core domain, the core domain without the AON domain, or the AON domain without AUX_3V3. -/
def Obligations.EveryStepKeepsTheDomainsLegal : Prop :=
  ∀ s t : State, s.domainsLegal → step s = .next t → t.domainsLegal

/-- Every command completes with a next state in every state, and leaves the queue as it is. -/
def Obligations.EveryCommandCompletesAndKeepsTheQueue : Prop :=
  ∀ (c : Instr) (s : State), ∃ t, exec c s = .next t ∧ t.pending = s.pending

/-- The tick is a free-running count: a step with a command leaves it or sets it to 0, and a step with an empty queue leaves it or
counts one on (R20, R45). -/
def Obligations.TickIsKeptZeroedOrCountedOn : Prop :=
  ∀ s t : State, step s = .next t → t.tick = s.tick ∨ (s.pending ≠ [] ∧ t.tick = 0) ∨ (s.pending = [] ∧ t.tick = s.tick + 1)

/-- What State.reset holds: AUX_3V3 valid and no other domain in service, an empty queue, and register resets that the tables give. -/
def Obligations.ResetValues : Prop :=
  State.reset.dom = ⟨true, false, false, false⟩ ∧ State.reset.pending = [] ∧ State.reset.tick = 0 ∧ State.reset.phase = Ph.off ∧
  State.reset.rd R.DEV_ID = 0x56537464 ∧ State.reset.rd R.DEV_REV = 0x000000B0 ∧ State.reset.get F.BOOT_STS.PHASE = 0 ∧
  State.reset.bit F.TS_STS.BUDGET_VALID = false ∧ State.reset.get F.FC_STS.HEALTHY = 15 ∧ State.reset.num R.RB_COUNT = 0 ∧
  State.reset.bit F.CAR_STS.PAIRED = false ∧ State.reset.bit F.TE_STS.MAP_READY = false ∧ State.reset.get F.CE_STS.LCS = 0 ∧
  State.reset.te.map = [] ∧ State.reset.rt.reqs = [] ∧ State.reset.lc.ways = []

/-- R508: REVOKE_OVERDUE, with no FC_REVOKE since the fence, raises a severity-3 fault of kind STALL against the lead Proctor. -/
def Obligations.OverdueRevocationStallsTheLeadProctor : Prop :=
  ∀ (src : BitVec 8) (s : State), s.coreUp = true → s.fencedSrc src.toNat = true → (s.fcSrc src.toNat).revoked = false →
    exec (.revokeOverdue src) s = .next (s.raise (96 + s.lead) 3 Kind.STALL) ∧
    ((s.fcSrc (96 + s.lead)).wire = false → (s.fcSrc (96 + s.lead)).sev < 3 → ∃ t, exec (.revokeOverdue src) s = .next t ∧
      (t.fcSrc (96 + s.lead)).sev = 3 ∧ (t.fcSrc (96 + s.lead)).kind = Kind.STALL ∧ t.fltSeen (96 + s.lead) Kind.STALL = true)

/-- R530: while IRQ_EN is 1 a rise of MQ_PKTS.UP from 0 signals: the vector for a manager-port queue, the in-band interrupt for an
I3C-path queue. -/
def Obligations.QueueRepliesSignalTheirFirstPacket : Prop :=
  ∀ (q : Fin 8) (r : List (Bool × BitVec 64)) (rest : List (List (Bool × BitVec 64))) (s : State), s.coreUp = true →
    s.fencedSrc (100 + q.val) = false → (s.mqOf q).replies = r :: rest → (s.mqOf q).up = [] → s.get (F.MQ_PKTS.UP q) = 0 →
    r.length ≤ 2048 → r.any (fun w => w.1) = true → s.bit (F.MQ_CTL.IRQ_EN q) = true →
    (s.get (F.MQ_CFG.PATH q) = 0 → ∃ t, exec (.mqReply q) s = .next t ∧ Output.other 100 [q.val, s.get (F.MQ_CFG.VEC q)] ∈ t.out) ∧
    (s.get (F.MQ_CFG.PATH q) = 1 → s.boot.i3c = true → ∃ t, exec (.mqReply q) s = .next t ∧ Output.other 101 [q.val] ∈ t.out)

/-- R472: a failing check is retried; an abandoned operation is counted, sets SUPPLY_LOW and raises a severity-2 fault against the
store, a write of the device's own is requested again, and SUPPLY_LOW clears at the next operation whose checks pass. -/
def Obligations.SupplyChecksRetryAndAbandon : Prop :=
  (∀ (o : PstOp) (s : State), s.pst.cur = some o → s.pst.failing = true →
    (∀ aux cap : BitVec 12, aux.toNat < s.num R.PST_AUX_MIN * 10 ∨ cap.toNat < 2800 → ∃ t, exec (.pstSupplyRetry aux cap) s = .next t ∧
      t.pst.cur = some o ∧ t.pst.failing = true ∧ t.pst.words = s.pst.words) ∧
    (∀ aux cap : BitVec 12, s.num R.PST_AUX_MIN * 10 ≤ aux.toNat → 2800 ≤ cap.toNat → ∃ t, exec (.pstSupplyRetry aux cap) s = .next t ∧
      t.pst.cur = some o ∧ t.pst.failing = false ∧ t.bit F.PST_STS.SUPPLY_LOW = false) ∧
    (s.pst.queue = [] → s.coreUp = true → (s.fcSrc 4).wire = false → ∃ t, exec .pstSupplyAbandon s = .next t ∧ t.pst.cur = none ∧
      t.num R.PST_SUPPLY_FAIL = min (s.num R.PST_SUPPLY_FAIL + 1) 0xFFFFFFFF ∧ t.bit F.PST_STS.SUPPLY_LOW = true ∧
      t.fltSeen 4 Kind.SUPPLY = true ∧ 2 ≤ (t.fcSrc 4).sev ∧ t.pst.words = s.pst.words ∧
      ((∀ a w, o.job ≠ .window a w) → (∀ r, o.job ≠ .userErase r) → (∀ n ws, o.job ≠ .config n ws true) →
        t.pst.rereq = s.pst.rereq ++ [o.job]))) ∧
  (∀ (c : PstOp) (j : PstJob) (l : List PstJob) (s : State), s.pst.cur = some c → c.job.isErase = false → s.pst.rereq = j :: l →
    ∃ t, exec .pstWriteRerequest s = .next t ∧ t.pst.rereq = l ∧ t.pst.queue = s.pst.queue ++ [⟨j, [], false, false⟩])

/-- R526: a flush acts at once where no packet is open on the host path and otherwise at the packet's END; RESET discards both
directions at once and counts EPOCH on. -/
def Obligations.FlushesActAtPacketBoundaries : Prop :=
  ∀ (q : Fin 8) (path : Path) (k : Nat) (v : Word) (s : State), s.mqPath q path = some k → s.fencedSrc (100 + q.val) = false →
    let m := s.mqOf q
    (m.dnOpen = false → ∃ t, exec (.mqFlushDn q path) s = .next t ∧ (t.mqOf q).dn = [] ∧ t.bit (F.MQ_STS.FLUSH_PEND_DN q) = false) ∧
    (m.dnOpen = true → ∃ t, exec (.mqFlushDn q path) s = .next t ∧ t.mqOf q = m ∧ t.bit (F.MQ_STS.FLUSH_PEND_DN q) = true) ∧
    (s.bit (F.MQ_STS.FLUSH_PEND_DN q) = true →
      (∃ t, exec (.mqPushHiEnd q path v false) s = .next t ∧ (t.mqOf q).dn = [] ∧ (t.mqOf q).cur = m.cur ∧
        t.bit (F.MQ_STS.FLUSH_PEND_DN q) = false) ∧
      (∃ t, exec (.mqPushHi q path v false) s = .next t ∧ t.bit (F.MQ_STS.FLUSH_PEND_DN q) = true)) ∧
    (m.inPkt = false → ∃ t, exec (.mqFlushUp q path) s = .next t ∧ (t.mqOf q).up = [] ∧ (t.mqOf q).replies = m.dropBegun ∧
      t.bit (F.MQ_STS.FLUSH_PEND_UP q) = false) ∧
    (m.inPkt = true → ∃ t, exec (.mqFlushUp q path) s = .next t ∧ t.mqOf q = m ∧ t.bit (F.MQ_STS.FLUSH_PEND_UP q) = true) ∧
    (s.bit (F.MQ_STS.FLUSH_PEND_UP q) = true → ∀ (w : Bool × BitVec 64) (rest : List (Bool × BitVec 64)), m.up = w :: rest →
      ∃ t, exec (.mqPopHi q path false) s = .next t ∧ (t.mqOf q).up = (if w.1 then [] else rest) ∧
      t.bit (F.MQ_STS.FLUSH_PEND_UP q) = !w.1) ∧
    (∃ t, exec (.mqReset q path) s = .next t ∧ (t.mqOf q).up = [] ∧ (t.mqOf q).dn = [] ∧ (t.mqOf q).hold = [] ∧
      t.get (F.MQ_STS.EPOCH q) = (s.get (F.MQ_STS.EPOCH q) + 1) % 256)

/-- R495: while the core domain is out of service, the faults of the sources whose page lies in the AON domain go to the Roll book and
are kept, other faults are not taken, and FC_SEEN shows what was kept once the core domain is back. -/
def Obligations.FaultsOutsideTheCoreDomain : Prop :=
  (∀ (w : FltWord) (s : State), s.coreUp = false → w.bad = false →
    (w.src.toNat ∈ [0, 2, 3, 4, 5, 121, 122] → exec (.faultRaise [w]) s =
      .next { s.rbEvent (fltEvent ⟨w.src.toNat, w.sev, w.kind, w.detail.toNat⟩ 0 0) with fc.aonSeen := setIns w.src.toNat s.fc.aonSeen }) ∧
    (w.src.toNat ∉ [0, 2, 3, 4, 5, 121, 122] → exec (.faultRaise [w]) s = .next s)) ∧
  (∀ (path : Path) (o : Nat) (s : State), s.coreUp = false → pageOf o = 1 → s.writable path o = false) ∧
  (∀ (kat : Bool) (n : Nat) (s : State), s.boot.rstN = true → s.bit F.PSQ_STS.RAILS_UP = true → s.phase = Ph.on → s.coreUp = false →
    s.boot.jtag = false → s.dom.aon = true → n ∈ s.fc.aonSeen → n < 128 → ∃ t, exec (.devRstNRelease kat) s = .next t ∧
    t.bit ⟨R.FC_SEEN 0 + 4 * (n / 32), n % 32, 1⟩ = true ∧ t.fc.aonSeen = [])

/-- A wire fault on the pair of source s is counted and raised against source 1 with s as the detail; from then on the pair of s is
ignored, its fault word waits for the poll, and the poll acts on it; the severity of s is not raised (R498). -/
def Obligations.WireFaultsAreRaisedAgainstTheCollector : Prop :=
  ∀ (src : BitVec 8) (s : State), src.toNat ≤ 124 → s.coreUp = true →
    let n := src.toNat
    ((s.fcSrc n).wire = false → n ≠ 1 → (s.fcSrc 1).sev < 2 → ∃ t, exec (.wireFault src) s = .next t ∧ (t.fcSrc n).wire = true ∧
      (t.fcSrc n).sev = (s.fcSrc n).sev ∧ (t.fcSrc 1).sev = 2 ∧ (t.fcSrc 1).kind = Kind.WIRE ∧ (t.fcSrc 1).detail = n ∧
      t.num R.FC_WIRE_CNT = min (s.num R.FC_WIRE_CNT + 1) 0xFFFFFFFF) ∧
    ((s.fcSrc n).wire = true →
      exec (.wireFault src) s = .next s ∧
      (∀ w : FltWord, w.src = src → exec (.faultRaise [w]) s = .next (s.fcMod n (fun x => { x with word := some (fltOf w) }))) ∧
      (∀ f : Flt, (s.fcSrc n).word = some f → f.src = n → 2 ≤ f.sev → (s.fcSrc n).sev < f.sev → ∃ t, exec (.faultWordPoll src) s = .next t ∧
        (t.fcSrc n).sev = f.sev ∧ (t.fcSrc n).kind = f.kind ∧ (t.fcSrc n).word = none))

/-- A logical port that is not the manager's changes nothing by a write that is the manager's (R12, R13, R150, R374): beside the counted
register access each of these commands has no effect. -/
def Obligations.OtherPortsHaveNoManagerWrites : Prop :=
  ∀ (p : Fin 8) (v : Word) (s : State), s.isManager (.port p) = false →
    (∀ x ∈ [(Instr.tsFlush (.port p), 9), (.lcEnClear (.port p), 7), (.lcEnSet (.port p), 7), (.safeDisable (.port p), 7),
        (.mapcEnClear (.port p), 8), (.mapcInv (.port p), 8), (.teFlush (.port p), 8), (.teCkptAll (.port p), 8),
        (.sirChkEnd (.port p), 10), (.katRun (.port p), 6), (.carRetrain (.port p), 11), (.psqOn (.port p), 2), (.psqOff (.port p), 2),
        (.psqClrLock (.port p), 2), (.marginStop (.port p), 2), (.cisTest (.port p), 2), (.hkReadmit (.port p) v, 3),
        (.pstErase (.port p), 4), (.fcContainNow (.port p), 1), (.fcFirstClr (.port p), 1), (.tstPcStart (.port p), 108),
        (.tstPcStop (.port p), 108), (.tstPhyCtlWrite (.port p) v, 108), (.tstPatInj (.port p), 108), (.tstPatStart (.port p) v, 108),
        (.bootCtlReset (.port p) v, 0), (.devLockAll (.port p), 0)], exec x.1 s = .next (s.regAcc x.2)) ∧
    (∀ c : Fin 40, exec (.mcRetrain c (.port p)) s = .next (s.regAcc (32 + c)) ∧
      exec (.mcPatStart c (.port p) v) s = .next (s.regAcc (32 + c))) ∧
    (∀ page : Fin 110, exec (.lockSet page (.port p)) s = .next (s.regAcc page) ∧
      exec (.pcWinStart page (.port p) v) s = .next (s.regAcc page) ∧ exec (.softRst page (some (.port p))) s = .next s) ∧
    (∀ (off : BitVec 24) (be : BitVec 4), exec (.registerWrite (.port p) off v be) s = .next (s.regAcc (pageOf off.toNat))) ∧
    (∀ q : Fin 8, exec (.mqPushLo q (.port p) v) s = .next (s.regAcc (100 + q)) ∧
      exec (.mqPushHiEnd q (.port p) v false) s = .next (s.regAcc (100 + q)) ∧
      exec (.mqReset q (.port p)) s = .next (s.regAcc (100 + q))) ∧
    (∀ (k : Fin 64) (num : Fin 8), exec (.pstWinWrite (.port p) k v) s = .next (s.regAcc 4) ∧
      exec (.pstLoad (.port p) num) s = .next (s.regAcc 4) ∧ exec (.pstCommit (.port p) num) s = .next (s.regAcc 4))

/-- A read of a _LO register captures the upper half for the next read of the matching _HI register through the same path, once;
another path reads the live value (R16). -/
def Obligations.LowReadCapturesTheUpperHalf : Prop :=
  ∀ (path : Path) (off : BitVec 24) (s : State), wideLo off.toNat = true → off.toNat ≠ R.TST_PAT_BITS_LO → s.boot.caps = [] →
    let o := off.toNat
    ∃ t, exec (.splitValueLoRead path off) s = .next t ∧
    (t.readAny path (o + 4)).1 = (s.regAcc (pageOf o)).readValue path (o + 4) ∧
    (let h := (t.readAny path (o + 4)).2
     (h.readAny path (o + 4)).1 = h.readValue path (o + 4)) ∧
    ∀ other, other ≠ path → (t.readAny other (o + 4)).1 = t.readValue other (o + 4)

/-- When the last healthy Proctor is taken out, NO_PROCTOR is set and device containment starts with the drain (R512–R514). -/
def Obligations.ProctorsGoneStartContainment : Prop :=
  ∀ (p : Fin 4) (src : BitVec 8) (s : State), src.toNat = 96 + p.val → s.coreUp = true → s.get F.FC_STS.HEALTHY = 2 ^ p.val →
    (s.fcSrc src.toNat).timer.isSome = true → (s.fcSrc src.toNat).kind ≠ Kind.INJECT → s.bit F.FC_STS.CONTAINING = false →
    s.phase = Ph.on → s.psq.drained = false → s.psq.marg = [] → s.psq.test = none →
    ∃ t, exec (.escalationTimeout src) s = .next t ∧ t.get F.FC_STS.HEALTHY = 0 ∧ t.bit F.FC_STS.NO_PROCTOR = true ∧
    t.bit F.FC_STS.CONTAINING = true ∧ t.phase = Ph.drain ∧ t.psq.trigger = 3 ∧ Output.pin .twinAliveOut (some false) ∈ t.out
end

