-- ==== Sys2Proof/Laws/State.lean ====
section
/-! SUPPORT. Laws of the sparse lists, of reading and writing registers, and of which fields and registers a named operation leaves alone. -/

set_option autoImplicit false

namespace Sys2Proof.Machine

theorem sget_serase_ne {α : Type} (d : α) (l : Sparse α) {k j : Nat} (h : j ≠ k) : sget d (serase l k) j = sget d l j := by
  induction l with
  | nil => rfl
  | cons e l ih =>
    obtain ⟨k', v⟩ := e
    by_cases hk : k' = k
    · subst hk; simp [serase, sget, Ne.symm h] at *; exact ih
    · simp [serase, sget, hk] at *; rw [ih]

theorem sget_serase_self {α : Type} (d : α) (l : Sparse α) (k : Nat) : sget d (serase l k) k = d := by
  induction l with
  | nil => rfl
  | cons e l ih =>
    obtain ⟨k', v⟩ := e
    by_cases hk : k' = k
    · subst hk; simpa [serase] using ih
    · simp [serase, sget, hk] at *; exact ih

theorem sget_sins_self {α : Type} (d : α) (l : Sparse α) (k : Nat) (v : α) (h : ∀ e ∈ l, e.1 ≠ k) : sget d (sins k v l) k = v := by
  induction l with
  | nil => simp [sins, sget]
  | cons e l ih =>
    obtain ⟨k', v'⟩ := e
    have h1 : k' ≠ k := h (k', v') (by simp)
    unfold sins; split
    · simp [sget]
    · simp only [sget, h1, if_false]; exact ih (fun e he => h e (List.mem_cons_of_mem _ he))

theorem sget_sins_ne {α : Type} (d : α) (l : Sparse α) {k j : Nat} (v : α) (h : j ≠ k) : sget d (sins k v l) j = sget d l j := by
  induction l with
  | nil => simp [sins, sget, Ne.symm h]
  | cons e l ih =>
    obtain ⟨k', v'⟩ := e
    unfold sins; split
    · simp [sget, Ne.symm h]
    · simp only [sget]; rw [ih]

@[simp] theorem sget_sset_self {α : Type} [DecidableEq α] (d : α) (l : Sparse α) (k : Nat) (v : α) : sget d (sset d l k v) k = v := by
  unfold sset; split
  · next h => rw [sget_serase_self, h]
  · exact sget_sins_self d _ k v (fun e he => by simpa [serase] using (List.mem_filter.mp he).2)

theorem sget_sset_ne {α : Type} [DecidableEq α] (d : α) (l : Sparse α) {k j : Nat} (v : α) (h : j ≠ k) :
    sget d (sset d l k v) j = sget d l j := by
  unfold sset; split
  · exact sget_serase_ne d l h
  · rw [sget_sins_ne d _ v h, sget_serase_ne d l h]

theorem sget_sset {α : Type} [DecidableEq α] (d : α) (l : Sparse α) (k j : Nat) (v : α) :
    sget d (sset d l k v) j = if j = k then v else sget d l j := by
  split
  · next h => subst h; simp
  · next h => exact sget_sset_ne d l v h

theorem State.rd_wr (s : State) (o o' : Nat) (v : Word) : (s.wr o v).rd o' = if o' = o then v else s.rd o' := sget_sset _ _ _ _ _
@[simp] theorem State.rd_wr_self (s : State) (o : Nat) (v : Word) : (s.wr o v).rd o = v := by simp [rd_wr]
theorem State.rd_wr_ne (s : State) {o o' : Nat} (v : Word) (h : o' ≠ o) : (s.wr o v).rd o' = s.rd o' := by simp [rd_wr, h]


theorem fldPut_toNat (f : Fld) (w : Word) (v : Nat) (h : f.lo + f.width ≤ 32) :
    (fldPut f w v).toNat =
      w.toNat % 2 ^ f.lo + 2 ^ f.lo * (v % 2 ^ f.width + 2 ^ f.width * (w.toNat / 2 ^ (f.lo + f.width))) := by
  have hw : w.toNat < 2 ^ 32 := w.isLt
  have e1 : w.toNat = w.toNat % 2 ^ f.lo + 2 ^ f.lo * (fldOf f w + 2 ^ f.width * (w.toNat / 2 ^ (f.lo + f.width))) := by
    unfold fldOf
    rw [Nat.pow_add, ← Nat.div_div_eq_div_mul, Nat.mod_add_div, Nat.mod_add_div]
  have hv : v % 2 ^ f.width < 2 ^ f.width := Nat.mod_lt _ (Nat.two_pow_pos _)
  have hr : w.toNat % 2 ^ f.lo < 2 ^ f.lo := Nat.mod_lt _ (Nat.two_pow_pos _)
  have hc : w.toNat / 2 ^ (f.lo + f.width) < 2 ^ (32 - (f.lo + f.width)) := by
    apply Nat.div_lt_of_lt_mul
    rw [← Nat.pow_add]
    rwa [Nat.add_sub_cancel' h]
  have hb : w.toNat % 2 ^ f.lo + 2 ^ f.lo * (v % 2 ^ f.width + 2 ^ f.width * (w.toNat / 2 ^ (f.lo + f.width))) < 2 ^ 32 := by
    have a1 : v % 2 ^ f.width + 2 ^ f.width * (w.toNat / 2 ^ (f.lo + f.width)) < 2 ^ f.width * 2 ^ (32 - (f.lo + f.width)) := by
      have := Nat.mul_le_mul_left (2 ^ f.width) hc
      rw [Nat.mul_succ] at this; omega
    have a2 := Nat.mul_le_mul_left (2 ^ f.lo) a1
    rw [Nat.mul_succ, ← Nat.mul_assoc, ← Nat.pow_add, ← Nat.pow_add, Nat.add_sub_cancel' h] at a2
    omega
  unfold fldPut
  rw [BitVec.toNat_ofNat]
  have e2 : w.toNat - fldOf f w * 2 ^ f.lo + v % 2 ^ f.width * 2 ^ f.lo =
      w.toNat % 2 ^ f.lo + 2 ^ f.lo * (v % 2 ^ f.width + 2 ^ f.width * (w.toNat / 2 ^ (f.lo + f.width))) := by
    rw [Nat.mul_add] at e1 ⊢
    rw [Nat.mul_comm (fldOf f w), Nat.mul_comm (v % 2 ^ f.width)]
    omega
  rw [e2, Nat.mod_eq_of_lt hb]

/-- A field reads back what was put, cut to its width. -/
theorem fldOf_fldPut_self (f : Fld) (w : Word) (v : Nat) (h : f.lo + f.width ≤ 32) : fldOf f (fldPut f w v) = v % 2 ^ f.width := by
  unfold fldOf
  rw [fldPut_toNat f w v h, Nat.add_mul_div_left _ _ (Nat.two_pow_pos _),
    Nat.div_eq_of_lt (Nat.mod_lt _ (Nat.two_pow_pos _)), Nat.zero_add, Nat.add_mul_mod_self_left, Nat.mod_mod]

/-- A field below or above the one put reads as before. -/
theorem fldOf_fldPut_ne (f g : Fld) (w : Word) (v : Nat) (h : f.lo + f.width ≤ 32)
    (hd : g.lo + g.width ≤ f.lo ∨ f.lo + f.width ≤ g.lo) : fldOf g (fldPut f w v) = fldOf g w := by
  unfold fldOf
  rw [fldPut_toNat f w v h]
  rcases hd with hd | hd
  · obtain ⟨k, hk⟩ := Nat.exists_eq_add_of_le hd
    generalize v % 2 ^ f.width + 2 ^ f.width * (w.toNat / 2 ^ (f.lo + f.width)) = z
    have : ∀ n : Nat, n / 2 ^ g.lo % 2 ^ g.width = n % 2 ^ (g.lo + g.width) / 2 ^ g.lo := by
      intro n; rw [Nat.pow_add, Nat.mod_mul_right_div_self]
    rw [this, this, hk, Nat.pow_add 2 (g.lo + g.width) k, Nat.mul_assoc, Nat.add_mul_mod_self_left,
      Nat.mod_mul_right_mod]
  · obtain ⟨k, hk⟩ := Nat.exists_eq_add_of_le hd
    have e : (w.toNat % 2 ^ f.lo + 2 ^ f.lo * (v % 2 ^ f.width + 2 ^ f.width * (w.toNat / 2 ^ (f.lo + f.width)))) / 2 ^ g.lo =
        w.toNat / 2 ^ g.lo := by
      rw [hk, Nat.pow_add 2 (f.lo + f.width) k, ← Nat.div_div_eq_div_mul, ← Nat.div_div_eq_div_mul]
      congr 1
      rw [Nat.pow_add 2 f.lo f.width, ← Nat.div_div_eq_div_mul, Nat.add_mul_div_left _ _ (Nat.two_pow_pos _),
        Nat.div_eq_of_lt (Nat.mod_lt _ (Nat.two_pow_pos _)), Nat.zero_add, Nat.add_mul_div_left _ _ (Nat.two_pow_pos _),
        Nat.div_eq_of_lt (Nat.mod_lt _ (Nat.two_pow_pos _)), Nat.zero_add]
    rw [e]

theorem State.get_set_self (s : State) (f : Fld) (v : Nat) (h : f.lo + f.width ≤ 32) : (s.set f v).get f = v % 2 ^ f.width := by
  simp [State.get, State.set, fldOf_fldPut_self f _ v h]

theorem State.get_set_ne (s : State) (f g : Fld) (v : Nat) (h : f.lo + f.width ≤ 32)
    (hd : g.off ≠ f.off ∨ g.lo + g.width ≤ f.lo ∨ f.lo + f.width ≤ g.lo) : (s.set f v).get g = s.get g := by
  by_cases ho : g.off = f.off
  · have hd' := hd.resolve_left (not_not_intro ho)
    simp only [State.get, State.set, ho, State.rd_wr_self]
    exact fldOf_fldPut_ne f g _ v h hd'
  · simp [State.get, State.set, State.rd_wr_ne _ _ ho]

theorem State.bit_set_ne (s : State) (f g : Fld) (v : Nat) (h : f.lo + f.width ≤ 32)
    (hd : g.off ≠ f.off ∨ g.lo + g.width ≤ f.lo ∨ f.lo + f.width ≤ g.lo) : (s.set f v).bit g = s.bit g := by
  simp [State.bit, State.get_set_ne s f g v h hd]

theorem State.bit_setBit_self (s : State) (f : Fld) (b : Bool) (h : f.lo + f.width ≤ 32) (hw : 0 < f.width) : (s.setBit f b).bit f = b := by
  have h2 : 1 < 2 ^ f.width := Nat.one_lt_two_pow (by omega)
  cases b <;> simp [State.bit, State.setBit, State.get_set_self s f _ h, Nat.mod_eq_of_lt h2]

theorem State.rd_set_ne (s : State) (f : Fld) (v : Nat) {o : Nat} (h : o ≠ f.off) : (s.set f v).rd o = s.rd o := State.rd_wr_ne _ _ h

/-- The registers of `bookReg` but FLT_STS and the other registers below 0x100 of pages 1 and 5. -/
def book1 (o : Nat) : Bool :=
  ((pageOf o == 1 || pageOf o == 5) && decide (0x100 ≤ o % 0x1000)) || o % 0x1000 == 0x34 ||
    (decide (0x80 ≤ o % 0x1000) && decide (o % 0x1000 ≤ 0xC0))

def State.regs1 (t u : State) : Prop := ∀ o, book1 o = false → t.rd o = u.rd o

theorem State.regs1_refl (s : State) : s.regs1 s := fun _ _ => rfl
theorem State.regs1.trans {s t u : State} (a : s.regs1 t) (b : t.regs1 u) : s.regs1 u := fun o h => (a o h).trans (b o h)
theorem State.regs1_of_eq {s t : State} (h : s.regs = t.regs) : s.regs1 t := fun o _ => by unfold State.rd; rw [h]

theorem State.regs1_wr_book1 {s : State} {o : Nat} {v : Word} (h : book1 o = true) : (s.wr o v).regs1 s := fun o' h' => by
  rw [State.rd_wr_ne]; intro e; rw [e, h] at h'; cases h'

theorem State.regs1_wr {s t : State} {o : Nat} {v : Word} (h : s.regs1 t) : (s.wr o v).regs1 (t.wr o v) := fun o' h' => by
  rw [State.rd_wr, State.rd_wr, h o' h']

theorem State.regs1_foldl {α : Type} {l : List α} {f : State → α → State} {s u : State} (hs : s.regs1 u)
    (hf : ∀ (t : State) (a : α), t.regs1 u → (f t a).regs1 u) : (l.foldl f s).regs1 u := by
  induction l generalizing s with
  | nil => exact hs
  | cons a l ih => exact ih (hf s a hs)

theorem State.regs1_foldl_mem {α : Type} {l : List α} {f : State → α → State} {s u : State} (hs : s.regs1 u)
    (hf : ∀ (t : State) (a : α), a ∈ l → t.regs1 u → (f t a).regs1 u) : (l.foldl f s).regs1 u := by
  induction l generalizing s with
  | nil => exact hs
  | cons a l ih => exact ih (hf s a (by simp) hs) (fun t b hb => hf t b (by simp [hb]))

theorem State.pcAdd_book1 (s : State) (p k n : Nat) (hk : k < 8) : (s.pcAdd p k n).regs1 s := by
  have h0 : book1 (R.PC_CNT p (2 * k)) = true := by
    have e : R.PC_CNT p (2 * k) % 0x1000 = 0x80 + 8 * k := by unfold R.PC_CNT; omega
    simp [book1, e]; omega
  have h1 : book1 (R.PC_CNT p (2 * k) + 4) = true := by
    have e : (R.PC_CNT p (2 * k) + 4) % 0x1000 = 0x84 + 8 * k := by unfold R.PC_CNT; omega
    simp [book1, e]; omega
  have h2 : book1 (R.PC_WIN_CTL p) = true := by
    simp [book1, R.PC_WIN_CTL, pageOf]
  have h3 : ((s.wr64 (R.PC_CNT p (2 * k)) ((s.num64 (R.PC_CNT p (2 * k)) + n) % 2 ^ 48))).regs1 s :=
    (State.regs1_wr_book1 h1).trans (State.regs1_wr_book1 h0)
  unfold State.pcAdd
  dsimp only
  split
  · exact State.regs1.trans (State.regs1_wr_book1 h2) h3
  · exact h3

theorem State.pcEvent_book1 (s : State) (p ev n : Nat) : (s.pcEvent p ev n).regs1 s := by
  unfold State.pcEvent
  refine State.regs1_foldl_mem (State.regs1_refl s) ?_
  intro t k hk ht
  have hk : k < 8 := by simpa using hk
  split
  · split
    · exact State.regs1.trans (State.regs1_of_eq rfl) ht
    · exact (State.pcAdd_book1 t p k n hk).trans ht
  · exact ht

theorem State.pcItem_book1 (s : State) (p : Nat) : (s.pcItem p).regs1 s := (State.pcEvent_book1 _ _ _ _).trans (State.pcEvent_book1 _ _ _ _)

theorem State.regAcc_book1 (s : State) (p : Nat) : (s.regAcc p).regs1 s := by
  unfold State.regAcc; split
  · exact State.regs1_refl s
  · exact (State.pcItem_book1 _ _).trans (State.pcEvent_book1 _ _ _ _)

theorem State.pcOut_book1 (s : State) (o : Output) : (s.pcOut o).regs1 s := by
  cases o with
  | memData p => cases p <;> first | exact (State.pcEvent_book1 _ _ _ _).trans (State.pcEvent_book1 _ _ _ _) | exact State.regs1_refl s
  | memDone p => cases p <;> first | exact (State.pcEvent_book1 _ _ _ _).trans (State.pcEvent_book1 _ _ _ _) | exact State.regs1_refl s
  | media => exact State.pcEvent_book1 _ _ _ _
  | caravan => exact State.pcEvent_book1 _ _ _ _
  | carCmd => exact State.pcEvent_book1 _ _ _ _
  | _ => exact State.regs1_refl s

theorem State.emit_book1 (s : State) (o : Output) : (s.emit o).regs1 s := (State.pcOut_book1 _ _).trans (State.regs1_of_eq rfl)

theorem book1_page5 (f : Nat) (h : f / 0x1000 = 5 ∧ 0x100 ≤ f % 0x1000) : book1 f = true := by simp [book1, pageOf, h]
theorem book1_page1 (f : Nat) (h : f / 0x1000 = 1 ∧ 0x100 ≤ f % 0x1000) : book1 f = true := by simp [book1, pageOf, h]

theorem State.rbClose_book1 (s : State) : s.rbClose.regs1 s := by
  unfold State.rbClose
  split
  · exact State.regs1_refl s
  · exact State.regs1_wr_book1 (book1_page5 _ (by decide))
  · exact State.regs1_wr_book1 (book1_page5 _ (by decide))

theorem State.rbEvent_book1 (s : State) (e : RbEvent) : (s.rbEvent e).regs1 s := by
  unfold State.rbEvent
  split
  · have h : (s.addCnt R.RB_OPEN_REPEAT 1).regs1 s := State.regs1_wr_book1 (book1_page5 _ (by decide))
    dsimp only
    split
    · exact (State.rbClose_book1 _).trans h
    · exact h
  · split
    · exact State.regs1_wr_book1 (book1_page5 _ (by decide))
    · dsimp only
      refine (State.pcEvent_book1 _ _ _ _).trans ((State.regs1_wr_book1 (book1_page5 _ (by decide))).trans ?_)
      refine State.regs1.trans (State.regs1_of_eq rfl) ((State.regs1_wr_book1 (book1_page5 _ (by decide))).trans ?_)
      exact (State.regs1_wr_book1 (book1_page5 _ (by decide))).trans (State.rbClose_book1 s)

theorem State.roll_book1 (s : State) (a b c d e f : Nat) : (s.roll a b c d e f).regs1 s := State.rbEvent_book1 _ _

theorem State.rbEventSnap_book1 (s : State) (e : RbEvent) (l : List RbEvent) : (s.rbEventSnap e l).regs1 s := by
  unfold State.rbEventSnap
  dsimp only
  refine State.regs1.trans (State.regs1_wr_book1 (book1_page5 _ (by decide))) ?_
  have key : ∀ t : State, t.regs1 s → (if t.rb.queue.length + 8 > 64 ∨ t.rbFree < 8 then t.addCnt R.RB_DROPPED 8 else
      State.pcEvent { t.rbClose with rb.queue := t.rbClose.rb.queue ++ l.map (fun x => t.rbClose.rbRecord x (some 1) true) } 5 2 8).regs1 s := by
    intro t ht
    split
    · exact (State.regs1_wr_book1 (book1_page5 _ (by decide))).trans ht
    · exact (State.pcEvent_book1 _ _ _ _).trans (State.regs1.trans (State.regs1_of_eq rfl) ((State.rbClose_book1 t).trans ht))
  refine key _ ?_
  split
  · exact State.regs1_wr_book1 (book1_page5 _ (by decide))
  · refine State.regs1.trans (State.regs1_of_eq rfl) ((State.regs1_wr_book1 (book1_page5 _ (by decide))).trans ?_)
    exact (State.regs1_wr_book1 (book1_page5 _ (by decide))).trans (State.rbClose_book1 s)

theorem State.alertShow_book1 (s : State) : s.alertShow.regs1 s := by
  unfold State.alertShow; split
  · exact State.regs1_refl s
  · exact State.regs1.trans (State.regs1_of_eq rfl) (State.emit_book1 _ _)

theorem State.fltTake_book1 (s : State) (f : Flt) (aff : Nat) : (s.fltTake f aff).regs1 s := by
  unfold State.fltTake
  dsimp only
  have hb : ∀ t : State, ∀ b : Nat, b = R.FC_SEEN 0 ∨ b = R.FC_ACTIVE 0 → (t.bankBit b f.src true).regs1 t := by
    intro t b h
    refine State.regs1_wr_book1 (book1_page1 _ ?_)
    rcases h with h | h <;> subst h <;> simp [R.FC_SEEN, R.FC_ACTIVE] <;> omega
  have h1 := (State.pcItem_book1 (s.pcEvent (srcPage f.src).1 7 1) 1).trans (State.pcEvent_book1 s _ _ _)
  generalize (s.pcEvent (srcPage f.src).1 7 1).pcItem 1 = s1 at h1
  have h2 : ((s1.bankBit (R.FC_SEEN 0) f.src true).bump (R.FC_CNT_SEV f.sev)).regs1 s :=
    (State.regs1_wr_book1 (book1_page1 _ (by simp [R.FC_CNT_SEV]; omega))).trans ((hb s1 _ (.inl rfl)).trans h1)
  generalize (s1.bankBit (R.FC_SEEN 0) f.src true).bump (R.FC_CNT_SEV f.sev) = s2 at h2
  have h3 : (s2.wrN (R.FLT_DETAIL (srcPage f.src).1)
      (f.kind % 16 + f.sev % 4 * 16 + (srcPage f.src).2 % 4 * 64 + f.detail % 2 ^ 24 * 256)).regs1 s :=
    (State.regs1_wr_book1 (by simp [book1, R.FLT_DETAIL, pageOf])).trans h2
  generalize s2.wrN (R.FLT_DETAIL (srcPage f.src).1) _ = s3 at h3 ⊢
  have h4 : (s3.when (decide (s3.get F.FC_CTL.RB_MIN ≤ f.sev)) (fun s => s.rbEvent (fltEvent f 0 aff))).regs1 s := by
    unfold State.when; split
    · exact (State.rbEvent_book1 _ _).trans h3
    · exact h3
  generalize s3.when (decide (s3.get F.FC_CTL.RB_MIN ≤ f.sev)) _ = s4 at h4 ⊢
  split
  · exact (State.alertShow_book1 _).trans ((hb _ _ (.inr rfl)).trans (State.regs1.trans (State.regs1_of_eq rfl) h4))
  · exact h4

theorem State.fltFirstTake_book1 (s : State) (l : List Flt) : (s.fltFirstTake l).regs1 s := by
  unfold State.fltFirstTake
  split
  · exact State.regs1_refl s
  · split
    · exact State.regs1_refl s
    · exact State.regs1.trans (State.regs1_wr_book1 (book1_page1 _ (by decide))) (State.regs1.trans (State.regs1_wr_book1 (book1_page1 _ (by decide)))
        (State.regs1_wr_book1 (book1_page1 _ (by decide))))


theorem State.regsAre_refl (s : State) : s.regsAre s := fun _ _ => rfl
theorem State.regsAre.trans {s t u : State} (a : s.regsAre t) (b : t.regsAre u) : s.regsAre u := fun o h => (a o h).trans (b o h)
theorem State.regsAre_of_eq {s t : State} (h : s.regs = t.regs) : s.regsAre t := fun o _ => by unfold State.rd; rw [h]
theorem book1_book {o : Nat} (h : book1 o = true) : bookReg o = true := by
  simp only [book1, bookReg, Bool.or_eq_true, Bool.and_eq_true] at *
  rcases h with (⟨h | h, -⟩ | h) | h <;> simp [h]
theorem State.regs1.are {s t : State} (h : s.regs1 t) : s.regsAre t := fun o ho => h o (by
  rcases e : book1 o with _ | _
  · rfl
  · rw [book1_book e] at ho; cases ho)
theorem State.regsAre_wr {s t : State} {o : Nat} {v : Word} (h : s.regsAre t) : (s.wr o v).regsAre (t.wr o v) := fun o' h' => by
  rw [State.rd_wr, State.rd_wr, h o' h']
theorem State.regsAre_set {s t : State} {f : Fld} {v : Nat} (hf : bookReg f.off = false) (h : s.regsAre t) : (s.set f v).regsAre (t.set f v) := by
  unfold State.set; rw [h _ hf]; exact State.regsAre_wr h
theorem State.regsAre_setBit {s t : State} {f : Fld} {b : Bool} (hf : bookReg f.off = false) (h : s.regsAre t) : (s.setBit f b).regsAre (t.setBit f b) :=
  State.regsAre_set hf h
theorem State.regsAre_bump {s t : State} {o : Nat} (ho : bookReg o = false) (h : s.regsAre t) : (s.bump o).regsAre (t.bump o) := by
  unfold State.bump State.addCnt State.wrN State.num; rw [h o ho]; exact State.regsAre_wr h
theorem State.regsAre.get {s t : State} (h : s.regsAre t) {f : Fld} (hf : bookReg f.off = false) : s.get f = t.get f := by
  unfold State.get; rw [h _ hf]
theorem State.regsAre.bit {s t : State} (h : s.regsAre t) {f : Fld} (hf : bookReg f.off = false) : s.bit f = t.bit f := by
  unfold State.bit; rw [h.get hf]

theorem State.regsAre_foldl {α : Type} {l : List α} {f : State → α → State} {s u : State} (hs : s.regsAre u)
    (hf : ∀ (t : State) (a : α), t.regsAre u → (f t a).regsAre u) : (l.foldl f s).regsAre u := by
  induction l generalizing s with
  | nil => exact hs
  | cons a l ih => exact ih (hf s a hs)
theorem State.fltSts_book (s : State) (f : Flt) : (s.fltSts f).regsAre s := fun o' h' => by
  refine State.rd_wr_ne _ _ ?_; intro e; rw [e] at h'; simp [bookReg, R.FLT_STS, pageOf] at h'
theorem State.pcEvent_book (s : State) (p e n : Nat) : (s.pcEvent p e n).regsAre s := (State.pcEvent_book1 s p e n).are
theorem State.pcItem_book (s : State) (p : Nat) : (s.pcItem p).regsAre s := (State.pcItem_book1 s p).are
theorem State.regAcc_book (s : State) (p : Nat) : (s.regAcc p).regsAre s := (State.regAcc_book1 s p).are
theorem State.emit_book (s : State) (o : Output) : (s.emit o).regsAre s := (State.emit_book1 s o).are
theorem State.rbEvent_book (s : State) (e : RbEvent) : (s.rbEvent e).regsAre s := (State.rbEvent_book1 s e).are
theorem State.roll_book (s : State) (a b c d e f : Nat) : (s.roll a b c d e f).regsAre s := (State.roll_book1 s a b c d e f).are
theorem State.alertShow_book (s : State)  : s.alertShow.regsAre s := (State.alertShow_book1 s ).are
theorem State.rbEventSnap_book (s : State) (e : RbEvent) (l : List RbEvent) : (s.rbEventSnap e l).regsAre s := (State.rbEventSnap_book1 s e l).are
theorem State.raiseWindow_book (s : State) (fs : List Flt) : (s.raiseWindow fs).regsAre s := by
  unfold State.raiseWindow
  dsimp only
  split
  · refine State.regsAre_foldl ?_ ?_
    · refine (State.fltFirstTake_book1 _ _).are.trans ?_
      refine State.regsAre_foldl (State.regsAre_foldl (State.regsAre_refl s) ?_) ?_
      · intro t a ht; exact State.regsAre.trans (State.regsAre_of_eq rfl) ht
      · intro t a ht; exact (State.fltSts_book _ _).trans ht
    · intro t f ht
      exact (State.fltTake_book1 t f 0).are.trans ht
  · refine State.regsAre_foldl (State.regsAre_refl s) ?_
    intro t a ht
    exact State.regsAre.trans (State.regsAre_of_eq rfl) ((State.rbEvent_book1 _ _).are.trans ht)

theorem State.raise_book (s : State) (src sev kind : Nat) : (s.raise src sev kind).regsAre s :=
  (State.raiseWindow_book _ _).trans (State.regsAre_of_eq rfl)


/-- FLT_STS of the source's page has the kind's bit (R501). -/
theorem State.fltSts_seen (s : State) (f : Flt) (hk : f.kind < 32) : (s.fltSts f).bit ⟨R.FLT_STS (srcPage f.src).1, f.kind, 1⟩ = true :=
  State.bit_setBit_self _ _ _ (by simp; omega) (by simp)
theorem State.regs1.seen {s t : State} (h : s.regs1 t) (p k : Nat) : s.bit ⟨R.FLT_STS p, k, 1⟩ = t.bit ⟨R.FLT_STS p, k, 1⟩ := by
  unfold State.bit State.get
  rw [h _ (by
    have e : R.FLT_STS p % 0x1000 = 0x20 := by unfold R.FLT_STS; omega
    simp [book1, e])]
theorem State.raiseWindow_seen (s : State) (f : Flt) (hc : s.coreUp = true) (hw : (s.fcSrc f.src).wire = false) (hn : f.src ≤ 124) (hk : f.kind < 32) :
    (s.raiseWindow [f]).bit ⟨R.FLT_STS (srcPage f.src).1, f.kind, 1⟩ = true := by
  unfold State.raiseWindow
  have hn' : decide (f.src ≤ 124) = true := by simpa using hn
  simp only [List.filter, hn', hc, if_true, hw, Bool.not_false, List.foldl]
  refine Eq.trans (State.regs1.seen (t := s.fltSts f) ?_ _ _) (State.fltSts_seen _ _ hk)
  refine State.regs1_foldl (u := s.fltSts f) (State.fltFirstTake_book1 _ _) ?_
  intro t a ht; exact (State.fltTake_book1 t a 0).trans ht
theorem State.raise_seen (s : State) (src sev kind : Nat) (hc : s.coreUp = true) (hw : (s.fcSrc src).wire = false) (hn : src ≤ 124) (hk : kind < 32) :
    (s.raise src sev kind).bit ⟨R.FLT_STS (srcPage src).1, kind, 1⟩ = true :=
  State.raiseWindow_seen s.drawn _ hc hw hn hk

end Sys2Proof.Machine
end

