-- ==== Sys2Proof/Laws/Frame.lean ====
section
/-! SUPPORT. Frames by kind of state: `Same m x s` says that s differs from x at most in the kinds of state of the mask m (bit i is the i-th field of State, bit 27 + b the registers of block b), with the rules that the files FrameX use. -/

set_option autoImplicit false
set_option linter.unusedTactic false
set_option linter.unreachableTactic false
set_option linter.unnecessarySeqFocus false
set_option linter.unusedSimpArgs false
set_option linter.unusedVariables false

namespace Sys2Proof.Machine

/-- `x &&& y = x`: the kinds of state of the mask `x` are among those of `y`. -/
theorem sub_of {a b m : Nat} (hb : Nat.land b m = b) (ha : Nat.land a b = a) : Nat.land a m = a := by
  have e : a &&& b = a := ha
  have f : b &&& m = b := hb
  show a &&& m = a
  rw [← e, Nat.and_assoc, f]

theorem sub_bit {a m i : Nat} (h : Nat.land a m = a) (ha : a.testBit i = true) : m.testBit i = true := by
  have e : a &&& m = a := h
  rw [← e, Nat.testBit_and, Bool.and_eq_true] at ha
  exact ha.2

/-- The two states differ at most in the kinds of state whose bit is set in the mask `m`. -/
structure Same (m : Nat) (x s : State) : Prop where
  pending : m.testBit 0 = false → s.pending = x.pending
  out : m.testBit 1 = false → s.out = x.out
  freeCtr : m.testBit 2 = false → s.freeCtr = x.freeCtr
  regs : m.testBit 3 = false → s.regs = x.regs
  tick : m.testBit 4 = false → s.tick = x.tick
  refclk : m.testBit 5 = false → s.refclk = x.refclk
  dom : m.testBit 6 = false → s.dom = x.dom
  opSecs : m.testBit 7 = false → s.opSecs = x.opSecs
  pst : m.testBit 8 = false → s.pst = x.pst
  rb : m.testBit 9 = false → s.rb = x.rb
  fc : m.testBit 10 = false → s.fc = x.fc
  rt : m.testBit 11 = false → s.rt = x.rt
  lc : m.testBit 12 = false → s.lc = x.lc
  te : m.testBit 13 = false → s.te = x.te
  ce : m.testBit 14 = false → s.ce = x.ce
  hp : m.testBit 15 = false → s.hp = x.hp
  tw : m.testBit 16 = false → s.tw = x.tw
  dc : m.testBit 17 = false → s.dc = x.dc
  md : m.testBit 18 = false → s.md = x.md
  mcTry : m.testBit 19 = false → s.mcTry = x.mcTry
  sir : m.testBit 20 = false → s.sir = x.sir
  hk : m.testBit 21 = false → s.hk = x.hk
  arch : m.testBit 22 = false → s.arch = x.arch
  psq : m.testBit 23 = false → s.psq = x.psq
  boot : m.testBit 24 = false → s.boot = x.boot
  mq : m.testBit 25 = false → s.mq = x.mq
  tst : m.testBit 26 = false → s.tst = x.tst
  own : ∀ o, bookReg o = false → m.testBit (27 + regBlk o) = false → s.rd o = x.rd o

theorem Same.refl (m : Nat) (s : State) : Same m s s :=
  ⟨fun _ => rfl, fun _ => rfl, fun _ => rfl, fun _ => rfl, fun _ => rfl, fun _ => rfl, fun _ => rfl, fun _ => rfl, fun _ => rfl, fun _ => rfl, fun _ => rfl, fun _ => rfl, fun _ => rfl, fun _ => rfl, fun _ => rfl, fun _ => rfl, fun _ => rfl, fun _ => rfl, fun _ => rfl, fun _ => rfl, fun _ => rfl, fun _ => rfl, fun _ => rfl, fun _ => rfl, fun _ => rfl, fun _ => rfl, fun _ => rfl, fun _ _ _ => rfl⟩

theorem Same.trans {m : Nat} {x y z : State} (a : Same m x y) (b : Same m y z) : Same m x z :=
  ⟨fun h => (b.pending h).trans (a.pending h),
    fun h => (b.out h).trans (a.out h),
    fun h => (b.freeCtr h).trans (a.freeCtr h),
    fun h => (b.regs h).trans (a.regs h),
    fun h => (b.tick h).trans (a.tick h),
    fun h => (b.refclk h).trans (a.refclk h),
    fun h => (b.dom h).trans (a.dom h),
    fun h => (b.opSecs h).trans (a.opSecs h),
    fun h => (b.pst h).trans (a.pst h),
    fun h => (b.rb h).trans (a.rb h),
    fun h => (b.fc h).trans (a.fc h),
    fun h => (b.rt h).trans (a.rt h),
    fun h => (b.lc h).trans (a.lc h),
    fun h => (b.te h).trans (a.te h),
    fun h => (b.ce h).trans (a.ce h),
    fun h => (b.hp h).trans (a.hp h),
    fun h => (b.tw h).trans (a.tw h),
    fun h => (b.dc h).trans (a.dc h),
    fun h => (b.md h).trans (a.md h),
    fun h => (b.mcTry h).trans (a.mcTry h),
    fun h => (b.sir h).trans (a.sir h),
    fun h => (b.hk h).trans (a.hk h),
    fun h => (b.arch h).trans (a.arch h),
    fun h => (b.psq h).trans (a.psq h),
    fun h => (b.boot h).trans (a.boot h),
    fun h => (b.mq h).trans (a.mq h),
    fun h => (b.tst h).trans (a.tst h),
    fun o h k => (b.own o h k).trans (a.own o h k)⟩

theorem Same.mono {a m : Nat} {x s : State} (hm : Nat.land a m = a) (h : Same a x s) : Same m x s := by
  have k : ∀ i, m.testBit i = false → a.testBit i = false := fun i e => by
    rcases ha : a.testBit i with _ | _
    · rfl
    · exact absurd (sub_bit hm ha) (by simp [e])
  exact ⟨fun e => h.pending (k _ e),
    fun e => h.out (k _ e),
    fun e => h.freeCtr (k _ e),
    fun e => h.regs (k _ e),
    fun e => h.tick (k _ e),
    fun e => h.refclk (k _ e),
    fun e => h.dom (k _ e),
    fun e => h.opSecs (k _ e),
    fun e => h.pst (k _ e),
    fun e => h.rb (k _ e),
    fun e => h.fc (k _ e),
    fun e => h.rt (k _ e),
    fun e => h.lc (k _ e),
    fun e => h.te (k _ e),
    fun e => h.ce (k _ e),
    fun e => h.hp (k _ e),
    fun e => h.tw (k _ e),
    fun e => h.dc (k _ e),
    fun e => h.md (k _ e),
    fun e => h.mcTry (k _ e),
    fun e => h.sir (k _ e),
    fun e => h.hk (k _ e),
    fun e => h.arch (k _ e),
    fun e => h.psq (k _ e),
    fun e => h.boot (k _ e),
    fun e => h.mq (k _ e),
    fun e => h.tst (k _ e),
    fun o b e => h.own o b (k _ e)⟩

theorem no_bit {a m i : Nat} {q : Prop} (hm : Nat.land a m = a) (ha : a.testBit i = true) : m.testBit i = false → q :=
  fun e => absurd (sub_bit hm ha) (by simp [e])

theorem blk0 {o : Nat} (h0 : o % 0x1000 < 0x100) : regBlk o = 0 := by simp [regBlk, h0]

theorem blk1 {o : Nat} (h0 : 0x100 ≤ o % 0x1000) (h1 : o / 0x1000 = 0) : regBlk o = 1 := by
  unfold regBlk pageOf; rw [h1]; simp; omega

theorem blk2 {o : Nat} (h0 : 0x100 ≤ o % 0x1000) (h1 : o / 0x1000 = 1) : regBlk o = 2 := by
  unfold regBlk pageOf; rw [h1]; simp; omega

theorem blk3 {o : Nat} (h0 : 0x100 ≤ o % 0x1000) (h1 : o / 0x1000 = 2) : regBlk o = 3 := by
  unfold regBlk pageOf; rw [h1]; simp; omega

theorem blk4 {o : Nat} (h0 : 0x100 ≤ o % 0x1000) (h1 : o / 0x1000 = 3) : regBlk o = 4 := by
  unfold regBlk pageOf; rw [h1]; simp; omega

theorem blk5 {o : Nat} (h0 : 0x100 ≤ o % 0x1000) (h1 : o / 0x1000 = 4) : regBlk o = 5 := by
  unfold regBlk pageOf; rw [h1]; simp; omega

theorem blk6 {o : Nat} (h0 : 0x100 ≤ o % 0x1000) (h1 : o / 0x1000 = 5) : regBlk o = 6 := by
  unfold regBlk pageOf; rw [h1]; simp; omega

theorem blk7 {o : Nat} (h0 : 0x100 ≤ o % 0x1000) (h1 : o / 0x1000 = 6) : regBlk o = 7 := by
  unfold regBlk pageOf; rw [h1]; simp; omega

theorem blk8 {o : Nat} (h0 : 0x100 ≤ o % 0x1000) (h1 : o / 0x1000 = 7) : regBlk o = 8 := by
  unfold regBlk pageOf; rw [h1]; simp; omega

theorem blk9 {o : Nat} (h0 : 0x100 ≤ o % 0x1000) (h1 : o / 0x1000 = 8) : regBlk o = 9 := by
  unfold regBlk pageOf; rw [h1]; simp; omega

theorem blk10 {o : Nat} (h0 : 0x100 ≤ o % 0x1000) (h1 : o / 0x1000 = 9) : regBlk o = 10 := by
  unfold regBlk pageOf; rw [h1]; simp; omega

theorem blk11 {o : Nat} (h0 : 0x100 ≤ o % 0x1000) (h1 : o / 0x1000 = 10) : regBlk o = 11 := by
  unfold regBlk pageOf; rw [h1]; simp; omega

theorem blk12 {o : Nat} (h0 : 0x100 ≤ o % 0x1000) (h1 : o / 0x1000 = 11) : regBlk o = 12 := by
  unfold regBlk pageOf; rw [h1]; simp; omega

theorem blk13 {o : Nat} (h0 : 0x100 ≤ o % 0x1000) (h1 : 12 ≤ o / 0x1000 ∧ o / 0x1000 ≤ 19) : regBlk o = 13 := by
  unfold regBlk pageOf
  repeat' split
  all_goals omega

theorem blk14 {o : Nat} (h0 : 0x100 ≤ o % 0x1000) (h1 : 20 ≤ o / 0x1000 ∧ o / 0x1000 ≤ 25) : regBlk o = 14 := by
  unfold regBlk pageOf
  repeat' split
  all_goals omega

theorem blk15 {o : Nat} (h0 : 0x100 ≤ o % 0x1000) (h1 : 26 ≤ o / 0x1000 ∧ o / 0x1000 ≤ 30) : regBlk o = 15 := by
  unfold regBlk pageOf
  repeat' split
  all_goals omega

theorem blk16 {o : Nat} (h0 : 0x100 ≤ o % 0x1000) (h1 : 31 ≤ o / 0x1000 ∧ o / 0x1000 ≤ 31) : regBlk o = 16 := by
  unfold regBlk pageOf
  repeat' split
  all_goals omega

theorem blk17 {o : Nat} (h0 : 0x100 ≤ o % 0x1000) (h1 : 32 ≤ o / 0x1000 ∧ o / 0x1000 ≤ 71) : regBlk o = 17 := by
  unfold regBlk pageOf
  repeat' split
  all_goals omega

theorem blk18 {o : Nat} (h0 : 0x100 ≤ o % 0x1000) (h1 : 72 ≤ o / 0x1000 ∧ o / 0x1000 ≤ 99) : regBlk o = 18 := by
  unfold regBlk pageOf
  repeat' split
  all_goals omega

theorem blk19 {o : Nat} (h0 : 0x100 ≤ o % 0x1000) (h1 : 100 ≤ o / 0x1000 ∧ o / 0x1000 ≤ 107) : regBlk o = 19 := by
  unfold regBlk pageOf
  repeat' split
  all_goals omega

theorem blk20 {o : Nat} (h0 : 0x100 ≤ o % 0x1000) (h1 : 108 ≤ o / 0x1000 ∧ o / 0x1000 ≤ 108) : regBlk o = 20 := by
  unfold regBlk pageOf
  repeat' split
  all_goals omega

theorem blk21 {o : Nat} (h0 : 0x100 ≤ o % 0x1000) (h1 : 109 ≤ o / 0x1000 ∧ o / 0x1000 ≤ 200) : regBlk o = 21 := by
  unfold regBlk pageOf
  repeat' split
  all_goals omega

/-- A register of an offset may change under the mask. -/
def RegOk (m o : Nat) : Prop := bookReg o = true ∨ m.testBit (27 + regBlk o) = true

theorem list_ok_nil {m : Nat} : ∀ o ∈ ([] : List Nat), RegOk m o := fun _ h => nomatch h

theorem list_ok_cons {m a : Nat} {l : List Nat} (h : RegOk m a) (hl : ∀ o ∈ l, RegOk m o) : ∀ o ∈ a :: l, RegOk m o := by
  intro o ho
  rcases List.mem_cons.mp ho with rfl | ho
  · exact h
  · exact hl o ho

theorem list_ok_append {m : Nat} {k l : List Nat} (hk : ∀ o ∈ k, RegOk m o) (hl : ∀ o ∈ l, RegOk m o) :
    ∀ o ∈ k ++ l, RegOk m o := by
  intro o ho
  rcases List.mem_append.mp ho with ho | ho
  · exact hk o ho
  · exact hl o ho

theorem range_ok {m a n : Nat} (h : ∀ k, k < n → RegOk m (a + 4 * k)) : ∀ o ∈ regRange a n, RegOk m o := by
  intro o ho
  simp only [regRange, List.mem_map, List.mem_range] at ho
  obtain ⟨k, hk, rfl⟩ := ho
  exact h k hk

theorem book1_ok {m o : Nat} (h : o / 0x1000 = 1) : RegOk m o := .inl (by simp [bookReg, pageOf, h])

theorem pc_ok {m p : Nat} : ∀ o ∈ regRange (R.PC_CNT p 0) 16, RegOk m o := range_ok fun k hk => .inl (by
  have e : (R.PC_CNT p 0 + 4 * k) % 0x1000 = 0x80 + 4 * k := by unfold R.PC_CNT; omega
  simp [bookReg, e]; omega)

theorem regBlk_lt (o : Nat) : regBlk o < 22 := by
  unfold regBlk
  repeat' split
  all_goals omega

theorem all_bit {m : Nat} (h : Nat.land 562949819203584 m = 562949819203584) (o : Nat) : m.testBit (27 + regBlk o) = true := by
  refine sub_bit h ?_
  have := regBlk_lt o
  generalize regBlk o = k at this
  interval_cases k <;> rfl

theorem regOk_all {m : Nat} (h : Nat.land 562949819203584 m = 562949819203584) (o : Nat) : RegOk m o := .inr (all_bit h o)

theorem regOk_of {m o c : Nat} (h : Nat.land (2 ^ (27 + c)) m = 2 ^ (27 + c)) (hc : regBlk o = c) : RegOk m o :=
  .inr (hc ▸ sub_bit h Nat.testBit_two_pow_self)

theorem own_all {m : Nat} {q : Nat → Prop} (h : Nat.land 562949819203584 m = 562949819203584) :
    ∀ o, bookReg o = false → m.testBit (27 + regBlk o) = false → q o :=
  fun o _ e => absurd (all_bit h o) (by simp [e])

theorem State.wr_keeps {m : Nat} {x s : State} {o : Nat} {v : Word} (hm : Nat.land 8 m = 8) (hc : RegOk m o) (h : Same m x s) :
    Same m x (s.wr o v) :=
  ⟨h.pending, h.out, h.freeCtr, no_bit hm rfl, h.tick, h.refclk, h.dom, h.opSecs, h.pst, h.rb, h.fc, h.rt, h.lc, h.te, h.ce, h.hp, h.tw, h.dc, h.md, h.mcTry, h.sir, h.hk, h.arch, h.psq, h.boot, h.mq, h.tst, fun o' hb he => by
    have hne : o' ≠ o := by
      rintro rfl
      rcases hc with hc | hc
      · rw [hb] at hc; cases hc
      · rw [he] at hc; cases hc
    exact (sget_sset_ne 0 s.regs v hne).trans (h.own o' hb he)⟩

theorem State.wrN_keeps {m : Nat} {x s : State} {o v : Nat} (hm : Nat.land 8 m = 8) (hc : RegOk m o) (h : Same m x s) :
    Same m x (s.wrN o v) := State.wr_keeps hm hc h

theorem State.set_keeps {m : Nat} {x s : State} {f : Fld} {v : Nat} (hm : Nat.land 8 m = 8) (hc : RegOk m f.off) (h : Same m x s) :
    Same m x (s.set f v) := State.wr_keeps hm hc h

theorem State.setBit_keeps {m : Nat} {x s : State} {f : Fld} {b : Bool} (hm : Nat.land 8 m = 8) (hc : RegOk m f.off) (h : Same m x s) :
    Same m x (s.setBit f b) := State.wr_keeps hm hc h

theorem State.addCnt_keeps {m : Nat} {x s : State} {o n : Nat} (hm : Nat.land 8 m = 8) (hc : RegOk m o) (h : Same m x s) :
    Same m x (s.addCnt o n) := State.wr_keeps hm hc h

theorem State.bump_keeps {m : Nat} {x s : State} {o : Nat} (hm : Nat.land 8 m = 8) (hc : RegOk m o) (h : Same m x s) :
    Same m x (s.bump o) := State.wr_keeps hm hc h

theorem State.maxIn_keeps {m : Nat} {x s : State} {o n : Nat} (hm : Nat.land 8 m = 8) (hc : RegOk m o) (h : Same m x s) :
    Same m x (s.maxIn o n) := State.wr_keeps hm hc h

theorem State.wr64_keeps {m : Nat} {x s : State} {o n : Nat} (hm : Nat.land 8 m = 8) (hc : RegOk m o) (hd : RegOk m (o + 4)) (h : Same m x s) :
    Same m x (s.wr64 o n) := State.wr_keeps hm hd (State.wr_keeps hm hc h)

theorem State.zero_keeps {m : Nat} {x s : State} {l : List Nat} (hm : Nat.land 8 m = 8) (hc : ∀ o ∈ l, RegOk m o) (h : Same m x s) :
    Same m x (s.zero l) := by
  unfold State.zero
  induction l generalizing s with
  | nil => exact h
  | cons o l ih => exact ih (fun o' ho => hc o' (by simp [ho])) (State.wr_keeps hm (hc o (by simp)) h)

theorem R.RT_LATE_STATE_ok {m : Nat}  (hm : Nat.land 8796093022208 m = 8796093022208) : RegOk m (R.RT_LATE_STATE ) :=
  regOk_of (c := 16) hm rfl

theorem R.RT_LATE_FAILOVER_ok {m : Nat}  (hm : Nat.land 8796093022208 m = 8796093022208) : RegOk m (R.RT_LATE_FAILOVER ) :=
  regOk_of (c := 16) hm rfl

theorem R.RT_LATE_AGE_ok {m : Nat}  (hm : Nat.land 8796093022208 m = 8796093022208) : RegOk m (R.RT_LATE_AGE ) :=
  regOk_of (c := 16) hm rfl

theorem R.RT_LATE_OBP_ok {m : Nat}  (hm : Nat.land 8796093022208 m = 8796093022208) : RegOk m (R.RT_LATE_OBP ) :=
  regOk_of (c := 16) hm rfl

theorem R.RT_LATE_RETRY_ok {m : Nat}  (hm : Nat.land 8796093022208 m = 8796093022208) : RegOk m (R.RT_LATE_RETRY ) :=
  regOk_of (c := 16) hm rfl

theorem R.RT_LATE_DIE_ok {m : Nat}  (hm : Nat.land 8796093022208 m = 8796093022208) : RegOk m (R.RT_LATE_DIE ) :=
  regOk_of (c := 16) hm rfl

theorem R.RT_LATE_BP_ok {m : Nat}  (hm : Nat.land 8796093022208 m = 8796093022208) : RegOk m (R.RT_LATE_BP ) :=
  regOk_of (c := 16) hm rfl

theorem R.RT_LATE_UNEXPL_ok {m : Nat}  (hm : Nat.land 8796093022208 m = 8796093022208) : RegOk m (R.RT_LATE_UNEXPL ) :=
  regOk_of (c := 16) hm rfl

theorem R.RT_LATE_CLR_ok {m : Nat}  (hm : Nat.land 8796093022208 m = 8796093022208) : RegOk m (R.RT_LATE_CLR ) :=
  regOk_of (c := 16) hm rfl

theorem R.RT_STRAY_CNT_ok {m : Nat}  (hm : Nat.land 8796093022208 m = 8796093022208) : RegOk m (R.RT_STRAY_CNT ) :=
  regOk_of (c := 16) hm rfl

theorem R.RT_WR_DROP_STATE_ok {m : Nat}  (hm : Nat.land 8796093022208 m = 8796093022208) : RegOk m (R.RT_WR_DROP_STATE ) :=
  regOk_of (c := 16) hm rfl

theorem R.RT_LATE_CTL_ok {m : Nat}  (hm : Nat.land 8796093022208 m = 8796093022208) : RegOk m (R.RT_LATE_CTL ) :=
  regOk_of (c := 16) hm rfl

theorem R.RT_CTL_ok {m : Nat}  (hm : Nat.land 8796093022208 m = 8796093022208) : RegOk m (R.RT_CTL ) :=
  regOk_of (c := 16) hm rfl

theorem R.RT_STS_ok {m : Nat}  (hm : Nat.land 8796093022208 m = 8796093022208) : RegOk m (R.RT_STS ) :=
  regOk_of (c := 16) hm rfl

theorem R.RT_SPD_ok {m : Nat}  (hm : Nat.land 8796093022208 m = 8796093022208) : RegOk m (R.RT_SPD ) :=
  regOk_of (c := 16) hm rfl

theorem R.RT_LVL_WIN_CNT0_ok {m : Nat}  (hm : Nat.land 8796093022208 m = 8796093022208) : RegOk m (R.RT_LVL_WIN_CNT0 ) :=
  regOk_of (c := 16) hm rfl

theorem R.RT_LVL_WIN_CNT1_ok {m : Nat}  (hm : Nat.land 8796093022208 m = 8796093022208) : RegOk m (R.RT_LVL_WIN_CNT1 ) :=
  regOk_of (c := 16) hm rfl

theorem R.RT_LVL_WIN_CNT2_ok {m : Nat}  (hm : Nat.land 8796093022208 m = 8796093022208) : RegOk m (R.RT_LVL_WIN_CNT2 ) :=
  regOk_of (c := 16) hm rfl

theorem R.RT_LVL_WIN_CNT3_ok {m : Nat}  (hm : Nat.land 8796093022208 m = 8796093022208) : RegOk m (R.RT_LVL_WIN_CNT3 ) :=
  regOk_of (c := 16) hm rfl

theorem R.RT_CRD_REQ_ok {m : Nat}  (hm : Nat.land 8796093022208 m = 8796093022208) : RegOk m (R.RT_CRD_REQ ) :=
  regOk_of (c := 16) hm rfl

theorem R.RT_CRD_RWD_ok {m : Nat}  (hm : Nat.land 8796093022208 m = 8796093022208) : RegOk m (R.RT_CRD_RWD ) :=
  regOk_of (c := 16) hm rfl

theorem R.RT_CRD_FWD_ok {m : Nat}  (hm : Nat.land 8796093022208 m = 8796093022208) : RegOk m (R.RT_CRD_FWD ) :=
  regOk_of (c := 16) hm rfl

theorem R.RT_LOCK_ok {m : Nat}  (hm : Nat.land 8796093022208 m = 8796093022208) : RegOk m (R.RT_LOCK ) :=
  regOk_of (c := 16) hm rfl

theorem R.RT_DIE_SEL_ok {m : Nat}  (hm : Nat.land 8796093022208 m = 8796093022208) : RegOk m (R.RT_DIE_SEL ) :=
  regOk_of (c := 16) hm rfl

theorem R.RT_DIE_CNT_ok {m : Nat}  (hm : Nat.land 8796093022208 m = 8796093022208) : RegOk m (R.RT_DIE_CNT ) :=
  regOk_of (c := 16) hm rfl

theorem R.RT_HELD_CNT_ok {m : Nat}  (hm : Nat.land 8796093022208 m = 8796093022208) : RegOk m (R.RT_HELD_CNT ) :=
  regOk_of (c := 16) hm rfl

theorem R.RT_HELD_MAX_ok {m : Nat}  (hm : Nat.land 8796093022208 m = 8796093022208) : RegOk m (R.RT_HELD_MAX ) :=
  regOk_of (c := 16) hm rfl

theorem R.RT_RG_CTL_ok {m : Nat} {i0 : Nat} (hm : Nat.land 281474976710656 m = 281474976710656) : RegOk m (R.RT_RG_CTL i0) :=
  regOk_of (c := 21) hm (blk21 (by unfold R.RT_RG_CTL; omega) (by unfold R.RT_RG_CTL; omega))

theorem R.RT_RG_BASE_ok {m : Nat} {i0 : Nat} (hm : Nat.land 281474976710656 m = 281474976710656) : RegOk m (R.RT_RG_BASE i0) :=
  regOk_of (c := 21) hm (blk21 (by unfold R.RT_RG_BASE; omega) (by unfold R.RT_RG_BASE; omega))

theorem R.RT_RG_SIZE_ok {m : Nat} {i0 : Nat} (hm : Nat.land 281474976710656 m = 281474976710656) : RegOk m (R.RT_RG_SIZE i0) :=
  regOk_of (c := 21) hm (blk21 (by unfold R.RT_RG_SIZE; omega) (by unfold R.RT_RG_SIZE; omega))

theorem R.RT_RG_STS_ok {m : Nat} {i0 : Nat} (hm : Nat.land 281474976710656 m = 281474976710656) : RegOk m (R.RT_RG_STS i0) :=
  regOk_of (c := 21) hm (blk21 (by unfold R.RT_RG_STS; omega) (by unfold R.RT_RG_STS; omega))

theorem R.TS_CTL_ok {m : Nat}  (hm : Nat.land 137438953472 m = 137438953472) : RegOk m (R.TS_CTL ) :=
  regOk_of (c := 10) hm rfl

theorem R.TS_STS_ok {m : Nat}  (hm : Nat.land 137438953472 m = 137438953472) : RegOk m (R.TS_STS ) :=
  regOk_of (c := 10) hm rfl

theorem R.TS_DB_LO_ok {m : Nat}  (hm : Nat.land 137438953472 m = 137438953472) : RegOk m (R.TS_DB_LO ) :=
  regOk_of (c := 10) hm rfl

theorem R.TS_DB_HI_ok {m : Nat}  (hm : Nat.land 137438953472 m = 137438953472) : RegOk m (R.TS_DB_HI ) :=
  regOk_of (c := 10) hm rfl

theorem R.TS_DB_CAP_LO_ok {m : Nat}  (hm : Nat.land 137438953472 m = 137438953472) : RegOk m (R.TS_DB_CAP_LO ) :=
  regOk_of (c := 10) hm rfl

theorem R.TS_DB_CAP_HI_ok {m : Nat}  (hm : Nat.land 137438953472 m = 137438953472) : RegOk m (R.TS_DB_CAP_HI ) :=
  regOk_of (c := 10) hm rfl

theorem R.TS_DIRTY_LO_ok {m : Nat}  (hm : Nat.land 137438953472 m = 137438953472) : RegOk m (R.TS_DIRTY_LO ) :=
  regOk_of (c := 10) hm rfl

theorem R.TS_DIRTY_HI_ok {m : Nat}  (hm : Nat.land 137438953472 m = 137438953472) : RegOk m (R.TS_DIRTY_HI ) :=
  regOk_of (c := 10) hm rfl

theorem R.TS_DB_GUARD_ok {m : Nat}  (hm : Nat.land 137438953472 m = 137438953472) : RegOk m (R.TS_DB_GUARD ) :=
  regOk_of (c := 10) hm rfl

theorem R.TS_DB_PRESS_ok {m : Nat}  (hm : Nat.land 137438953472 m = 137438953472) : RegOk m (R.TS_DB_PRESS ) :=
  regOk_of (c := 10) hm rfl

theorem R.TS_AGE_LIM_ok {m : Nat}  (hm : Nat.land 137438953472 m = 137438953472) : RegOk m (R.TS_AGE_LIM ) :=
  regOk_of (c := 10) hm rfl

theorem R.TS_PAGE_WAIT_ok {m : Nat}  (hm : Nat.land 137438953472 m = 137438953472) : RegOk m (R.TS_PAGE_WAIT ) :=
  regOk_of (c := 10) hm rfl

theorem R.TS_BP_HOLD_ok {m : Nat}  (hm : Nat.land 137438953472 m = 137438953472) : RegOk m (R.TS_BP_HOLD ) :=
  regOk_of (c := 10) hm rfl

theorem R.TS_SLOT_CNT_ok {m : Nat}  (hm : Nat.land 137438953472 m = 137438953472) : RegOk m (R.TS_SLOT_CNT ) :=
  regOk_of (c := 10) hm rfl

theorem R.TS_SLOT_FREE_ok {m : Nat}  (hm : Nat.land 137438953472 m = 137438953472) : RegOk m (R.TS_SLOT_FREE ) :=
  regOk_of (c := 10) hm rfl

theorem R.TS_SLOT_DIRTY_ok {m : Nat}  (hm : Nat.land 137438953472 m = 137438953472) : RegOk m (R.TS_SLOT_DIRTY ) :=
  regOk_of (c := 10) hm rfl

theorem R.TS_DUE_CNT_ok {m : Nat}  (hm : Nat.land 137438953472 m = 137438953472) : RegOk m (R.TS_DUE_CNT ) :=
  regOk_of (c := 10) hm rfl

theorem R.TS_HELD_CNT_ok {m : Nat}  (hm : Nat.land 137438953472 m = 137438953472) : RegOk m (R.TS_HELD_CNT ) :=
  regOk_of (c := 10) hm rfl

theorem R.TS_OVER_CNT_ok {m : Nat}  (hm : Nat.land 137438953472 m = 137438953472) : RegOk m (R.TS_OVER_CNT ) :=
  regOk_of (c := 10) hm rfl

theorem R.TS_PAD_CNT_ok {m : Nat}  (hm : Nat.land 137438953472 m = 137438953472) : RegOk m (R.TS_PAD_CNT ) :=
  regOk_of (c := 10) hm rfl

theorem R.TS_FILL_RD_CNT_ok {m : Nat}  (hm : Nat.land 137438953472 m = 137438953472) : RegOk m (R.TS_FILL_RD_CNT ) :=
  regOk_of (c := 10) hm rfl

theorem R.TS_CNT_CLR_ok {m : Nat}  (hm : Nat.land 137438953472 m = 137438953472) : RegOk m (R.TS_CNT_CLR ) :=
  regOk_of (c := 10) hm rfl

theorem R.TS_LOCK_ok {m : Nat}  (hm : Nat.land 137438953472 m = 137438953472) : RegOk m (R.TS_LOCK ) :=
  regOk_of (c := 10) hm rfl

theorem R.LC_CTL_ok {m : Nat}  (hm : Nat.land 34359738368 m = 34359738368) : RegOk m (R.LC_CTL ) :=
  regOk_of (c := 8) hm rfl

theorem R.LC_STS_ok {m : Nat}  (hm : Nat.land 34359738368 m = 34359738368) : RegOk m (R.LC_STS ) :=
  regOk_of (c := 8) hm rfl

theorem R.LC_DIRTY_CNT_ok {m : Nat}  (hm : Nat.land 34359738368 m = 34359738368) : RegOk m (R.LC_DIRTY_CNT ) :=
  regOk_of (c := 8) hm rfl

theorem R.LC_LOCK_CNT_ok {m : Nat}  (hm : Nat.land 34359738368 m = 34359738368) : RegOk m (R.LC_LOCK_CNT ) :=
  regOk_of (c := 8) hm rfl

theorem R.LC_LOCK_WAYS_ok {m : Nat}  (hm : Nat.land 34359738368 m = 34359738368) : RegOk m (R.LC_LOCK_WAYS ) :=
  regOk_of (c := 8) hm rfl

theorem R.LC_LOCK_MAX_ok {m : Nat}  (hm : Nat.land 34359738368 m = 34359738368) : RegOk m (R.LC_LOCK_MAX ) :=
  regOk_of (c := 8) hm rfl

theorem R.LC_LOCK_ok {m : Nat}  (hm : Nat.land 34359738368 m = 34359738368) : RegOk m (R.LC_LOCK ) :=
  regOk_of (c := 8) hm rfl

theorem R.LC_RANGE_BASE_LO_ok {m : Nat}  (hm : Nat.land 34359738368 m = 34359738368) : RegOk m (R.LC_RANGE_BASE_LO ) :=
  regOk_of (c := 8) hm rfl

theorem R.LC_RANGE_BASE_HI_ok {m : Nat}  (hm : Nat.land 34359738368 m = 34359738368) : RegOk m (R.LC_RANGE_BASE_HI ) :=
  regOk_of (c := 8) hm rfl

theorem R.LC_RANGE_LEN_LO_ok {m : Nat}  (hm : Nat.land 34359738368 m = 34359738368) : RegOk m (R.LC_RANGE_LEN_LO ) :=
  regOk_of (c := 8) hm rfl

theorem R.LC_RANGE_LEN_HI_ok {m : Nat}  (hm : Nat.land 34359738368 m = 34359738368) : RegOk m (R.LC_RANGE_LEN_HI ) :=
  regOk_of (c := 8) hm rfl

theorem R.LC_RANGE_CTL_ok {m : Nat}  (hm : Nat.land 34359738368 m = 34359738368) : RegOk m (R.LC_RANGE_CTL ) :=
  regOk_of (c := 8) hm rfl

theorem R.LC_RANGE_STS_ok {m : Nat}  (hm : Nat.land 34359738368 m = 34359738368) : RegOk m (R.LC_RANGE_STS ) :=
  regOk_of (c := 8) hm rfl

theorem R.LC_RANGE_DONE_ok {m : Nat}  (hm : Nat.land 34359738368 m = 34359738368) : RegOk m (R.LC_RANGE_DONE ) :=
  regOk_of (c := 8) hm rfl

theorem R.LC_RANGE_SKIPPED_ok {m : Nat}  (hm : Nat.land 34359738368 m = 34359738368) : RegOk m (R.LC_RANGE_SKIPPED ) :=
  regOk_of (c := 8) hm rfl

theorem R.LC_HIT_RD_ok {m : Nat}  (hm : Nat.land 34359738368 m = 34359738368) : RegOk m (R.LC_HIT_RD ) :=
  regOk_of (c := 8) hm rfl

theorem R.LC_MISS_RD_ok {m : Nat}  (hm : Nat.land 34359738368 m = 34359738368) : RegOk m (R.LC_MISS_RD ) :=
  regOk_of (c := 8) hm rfl

theorem R.LC_HIT_WR_ok {m : Nat}  (hm : Nat.land 34359738368 m = 34359738368) : RegOk m (R.LC_HIT_WR ) :=
  regOk_of (c := 8) hm rfl

theorem R.LC_MISS_WR_ok {m : Nat}  (hm : Nat.land 34359738368 m = 34359738368) : RegOk m (R.LC_MISS_WR ) :=
  regOk_of (c := 8) hm rfl

theorem R.LC_BYPASS_WR_ok {m : Nat}  (hm : Nat.land 34359738368 m = 34359738368) : RegOk m (R.LC_BYPASS_WR ) :=
  regOk_of (c := 8) hm rfl

theorem R.LC_FILL_DROP_ok {m : Nat}  (hm : Nat.land 34359738368 m = 34359738368) : RegOk m (R.LC_FILL_DROP ) :=
  regOk_of (c := 8) hm rfl

theorem R.LC_LOCK_FAIL_ok {m : Nat}  (hm : Nat.land 34359738368 m = 34359738368) : RegOk m (R.LC_LOCK_FAIL ) :=
  regOk_of (c := 8) hm rfl

theorem R.LC_CE_CNT_ok {m : Nat}  (hm : Nat.land 34359738368 m = 34359738368) : RegOk m (R.LC_CE_CNT ) :=
  regOk_of (c := 8) hm rfl

theorem R.LC_UE_CNT_ok {m : Nat}  (hm : Nat.land 34359738368 m = 34359738368) : RegOk m (R.LC_UE_CNT ) :=
  regOk_of (c := 8) hm rfl

theorem R.LC_TAG_PE_CNT_ok {m : Nat}  (hm : Nat.land 34359738368 m = 34359738368) : RegOk m (R.LC_TAG_PE_CNT ) :=
  regOk_of (c := 8) hm rfl

theorem R.LC_RST_LOST_ok {m : Nat}  (hm : Nat.land 34359738368 m = 34359738368) : RegOk m (R.LC_RST_LOST ) :=
  regOk_of (c := 8) hm rfl

theorem R.LC_CNT_CLR_ok {m : Nat}  (hm : Nat.land 34359738368 m = 34359738368) : RegOk m (R.LC_CNT_CLR ) :=
  regOk_of (c := 8) hm rfl

theorem R.MAPC_CTL_ok {m : Nat}  (hm : Nat.land 68719476736 m = 68719476736) : RegOk m (R.MAPC_CTL ) :=
  regOk_of (c := 9) hm rfl

theorem R.MAPC_STS_ok {m : Nat}  (hm : Nat.land 68719476736 m = 68719476736) : RegOk m (R.MAPC_STS ) :=
  regOk_of (c := 9) hm rfl

theorem R.MAPC_HIT_ok {m : Nat}  (hm : Nat.land 68719476736 m = 68719476736) : RegOk m (R.MAPC_HIT ) :=
  regOk_of (c := 9) hm rfl

theorem R.MAPC_MISS_ok {m : Nat}  (hm : Nat.land 68719476736 m = 68719476736) : RegOk m (R.MAPC_MISS ) :=
  regOk_of (c := 9) hm rfl

theorem R.MAPC_CE_CNT_ok {m : Nat}  (hm : Nat.land 68719476736 m = 68719476736) : RegOk m (R.MAPC_CE_CNT ) :=
  regOk_of (c := 9) hm rfl

theorem R.MAPC_UE_CNT_ok {m : Nat}  (hm : Nat.land 68719476736 m = 68719476736) : RegOk m (R.MAPC_UE_CNT ) :=
  regOk_of (c := 9) hm rfl

theorem R.MAPC_VALID_CNT_ok {m : Nat}  (hm : Nat.land 68719476736 m = 68719476736) : RegOk m (R.MAPC_VALID_CNT ) :=
  regOk_of (c := 9) hm rfl

theorem R.MAPC_CNT_CLR_ok {m : Nat}  (hm : Nat.land 68719476736 m = 68719476736) : RegOk m (R.MAPC_CNT_CLR ) :=
  regOk_of (c := 9) hm rfl

theorem R.TE_CTL_ok {m : Nat}  (hm : Nat.land 68719476736 m = 68719476736) : RegOk m (R.TE_CTL ) :=
  regOk_of (c := 9) hm rfl

theorem R.TE_STS_ok {m : Nat}  (hm : Nat.land 68719476736 m = 68719476736) : RegOk m (R.TE_STS ) :=
  regOk_of (c := 9) hm rfl

theorem R.TE_SEQ_LO_ok {m : Nat}  (hm : Nat.land 68719476736 m = 68719476736) : RegOk m (R.TE_SEQ_LO ) :=
  regOk_of (c := 9) hm rfl

theorem R.TE_SEQ_HI_ok {m : Nat}  (hm : Nat.land 68719476736 m = 68719476736) : RegOk m (R.TE_SEQ_HI ) :=
  regOk_of (c := 9) hm rfl

theorem R.TE_SEQ_HW_LO_ok {m : Nat}  (hm : Nat.land 68719476736 m = 68719476736) : RegOk m (R.TE_SEQ_HW_LO ) :=
  regOk_of (c := 9) hm rfl

theorem R.TE_SEQ_HW_HI_ok {m : Nat}  (hm : Nat.land 68719476736 m = 68719476736) : RegOk m (R.TE_SEQ_HW_HI ) :=
  regOk_of (c := 9) hm rfl

theorem R.TE_JSEQ_LO_ok {m : Nat}  (hm : Nat.land 68719476736 m = 68719476736) : RegOk m (R.TE_JSEQ_LO ) :=
  regOk_of (c := 9) hm rfl

theorem R.TE_JSEQ_HI_ok {m : Nat}  (hm : Nat.land 68719476736 m = 68719476736) : RegOk m (R.TE_JSEQ_HI ) :=
  regOk_of (c := 9) hm rfl

theorem R.TE_JRN_INT_ok {m : Nat}  (hm : Nat.land 68719476736 m = 68719476736) : RegOk m (R.TE_JRN_INT ) :=
  regOk_of (c := 9) hm rfl

theorem R.TE_JRN_BATCH_ok {m : Nat}  (hm : Nat.land 68719476736 m = 68719476736) : RegOk m (R.TE_JRN_BATCH ) :=
  regOk_of (c := 9) hm rfl

theorem R.TE_JRN_SPAN_ok {m : Nat}  (hm : Nat.land 68719476736 m = 68719476736) : RegOk m (R.TE_JRN_SPAN ) :=
  regOk_of (c := 9) hm rfl

theorem R.TE_DIES_ok {m : Nat}  (hm : Nat.land 68719476736 m = 68719476736) : RegOk m (R.TE_DIES ) :=
  regOk_of (c := 9) hm rfl

theorem R.TE_SUB_SEL_ok {m : Nat}  (hm : Nat.land 68719476736 m = 68719476736) : RegOk m (R.TE_SUB_SEL ) :=
  regOk_of (c := 9) hm rfl

theorem R.TE_SUB_ok {m : Nat}  (hm : Nat.land 68719476736 m = 68719476736) : RegOk m (R.TE_SUB ) :=
  regOk_of (c := 9) hm rfl

theorem R.TE_PT_LINES_ok {m : Nat}  (hm : Nat.land 68719476736 m = 68719476736) : RegOk m (R.TE_PT_LINES ) :=
  regOk_of (c := 9) hm rfl

theorem R.TE_PT_TILES_ok {m : Nat}  (hm : Nat.land 68719476736 m = 68719476736) : RegOk m (R.TE_PT_TILES ) :=
  regOk_of (c := 9) hm rfl

theorem R.TE_PT_WHOLE_ok {m : Nat}  (hm : Nat.land 68719476736 m = 68719476736) : RegOk m (R.TE_PT_WHOLE ) :=
  regOk_of (c := 9) hm rfl

theorem R.TE_BLD_PAGES_ok {m : Nat}  (hm : Nat.land 68719476736 m = 68719476736) : RegOk m (R.TE_BLD_PAGES ) :=
  regOk_of (c := 9) hm rfl

theorem R.TE_BLD_TORN_ok {m : Nat}  (hm : Nat.land 68719476736 m = 68719476736) : RegOk m (R.TE_BLD_TORN ) :=
  regOk_of (c := 9) hm rfl

theorem R.TE_BLD_RECON_ok {m : Nat}  (hm : Nat.land 68719476736 m = 68719476736) : RegOk m (R.TE_BLD_RECON ) :=
  regOk_of (c := 9) hm rfl

theorem R.TE_BLD_MERGED_ok {m : Nat}  (hm : Nat.land 68719476736 m = 68719476736) : RegOk m (R.TE_BLD_MERGED ) :=
  regOk_of (c := 9) hm rfl

theorem R.TE_BLD_REPLAY_ok {m : Nat}  (hm : Nat.land 68719476736 m = 68719476736) : RegOk m (R.TE_BLD_REPLAY ) :=
  regOk_of (c := 9) hm rfl

theorem R.TE_BLD_MS_ok {m : Nat}  (hm : Nat.land 68719476736 m = 68719476736) : RegOk m (R.TE_BLD_MS ) :=
  regOk_of (c := 9) hm rfl

theorem R.TE_MAP_REPAIR_ok {m : Nat}  (hm : Nat.land 68719476736 m = 68719476736) : RegOk m (R.TE_MAP_REPAIR ) :=
  regOk_of (c := 9) hm rfl

theorem R.TE_JRN_FLUSH_CNT_ok {m : Nat}  (hm : Nat.land 68719476736 m = 68719476736) : RegOk m (R.TE_JRN_FLUSH_CNT ) :=
  regOk_of (c := 9) hm rfl

theorem R.TE_CNT_CLR_ok {m : Nat}  (hm : Nat.land 68719476736 m = 68719476736) : RegOk m (R.TE_CNT_CLR ) :=
  regOk_of (c := 9) hm rfl

theorem R.TE_LOCK_ok {m : Nat}  (hm : Nat.land 68719476736 m = 68719476736) : RegOk m (R.TE_LOCK ) :=
  regOk_of (c := 9) hm rfl

theorem R.TE_UPK_CTL_ok {m : Nat}  (hm : Nat.land 68719476736 m = 68719476736) : RegOk m (R.TE_UPK_CTL ) :=
  regOk_of (c := 9) hm rfl

theorem R.TE_UPK_STS_ok {m : Nat}  (hm : Nat.land 68719476736 m = 68719476736) : RegOk m (R.TE_UPK_STS ) :=
  regOk_of (c := 9) hm rfl

theorem R.TE_GC_START_ok {m : Nat}  (hm : Nat.land 68719476736 m = 68719476736) : RegOk m (R.TE_GC_START ) :=
  regOk_of (c := 9) hm rfl

theorem R.TE_GC_URGENT_ok {m : Nat}  (hm : Nat.land 68719476736 m = 68719476736) : RegOk m (R.TE_GC_URGENT ) :=
  regOk_of (c := 9) hm rfl

theorem R.TE_GC_STOP_ok {m : Nat}  (hm : Nat.land 68719476736 m = 68719476736) : RegOk m (R.TE_GC_STOP ) :=
  regOk_of (c := 9) hm rfl

theorem R.TE_GC_WEAR_W_ok {m : Nat}  (hm : Nat.land 68719476736 m = 68719476736) : RegOk m (R.TE_GC_WEAR_W ) :=
  regOk_of (c := 9) hm rfl

theorem R.TE_WL_SPREAD_ok {m : Nat}  (hm : Nat.land 68719476736 m = 68719476736) : RegOk m (R.TE_WL_SPREAD ) :=
  regOk_of (c := 9) hm rfl

theorem R.TE_VFY_BITS_ok {m : Nat}  (hm : Nat.land 68719476736 m = 68719476736) : RegOk m (R.TE_VFY_BITS ) :=
  regOk_of (c := 9) hm rfl

theorem R.TE_VFY_DEADLINE_ok {m : Nat}  (hm : Nat.land 68719476736 m = 68719476736) : RegOk m (R.TE_VFY_DEADLINE ) :=
  regOk_of (c := 9) hm rfl

theorem R.TE_SPARE_LOW_ok {m : Nat}  (hm : Nat.land 68719476736 m = 68719476736) : RegOk m (R.TE_SPARE_LOW ) :=
  regOk_of (c := 9) hm rfl

theorem R.TE_SPARE_CRIT_ok {m : Nat}  (hm : Nat.land 68719476736 m = 68719476736) : RegOk m (R.TE_SPARE_CRIT ) :=
  regOk_of (c := 9) hm rfl

theorem R.TE_SPARE_TOTAL_ok {m : Nat}  (hm : Nat.land 68719476736 m = 68719476736) : RegOk m (R.TE_SPARE_TOTAL ) :=
  regOk_of (c := 9) hm rfl

theorem R.TE_SPARE_PCT_ok {m : Nat}  (hm : Nat.land 68719476736 m = 68719476736) : RegOk m (R.TE_SPARE_PCT ) :=
  regOk_of (c := 9) hm rfl

theorem R.TE_UPK_DIE_SEL_ok {m : Nat}  (hm : Nat.land 68719476736 m = 68719476736) : RegOk m (R.TE_UPK_DIE_SEL ) :=
  regOk_of (c := 9) hm rfl

theorem R.TE_DIE_SPARE_ok {m : Nat}  (hm : Nat.land 68719476736 m = 68719476736) : RegOk m (R.TE_DIE_SPARE ) :=
  regOk_of (c := 9) hm rfl

theorem R.TE_DIE_ERASE_ok {m : Nat}  (hm : Nat.land 68719476736 m = 68719476736) : RegOk m (R.TE_DIE_ERASE ) :=
  regOk_of (c := 9) hm rfl

theorem R.TE_GC_COPIED_ok {m : Nat}  (hm : Nat.land 68719476736 m = 68719476736) : RegOk m (R.TE_GC_COPIED ) :=
  regOk_of (c := 9) hm rfl

theorem R.TE_WL_COPIED_ok {m : Nat}  (hm : Nat.land 68719476736 m = 68719476736) : RegOk m (R.TE_WL_COPIED ) :=
  regOk_of (c := 9) hm rfl

theorem R.TE_BLK_RETIRED_ok {m : Nat}  (hm : Nat.land 68719476736 m = 68719476736) : RegOk m (R.TE_BLK_RETIRED ) :=
  regOk_of (c := 9) hm rfl

theorem R.TE_PGM_FAIL_ok {m : Nat}  (hm : Nat.land 68719476736 m = 68719476736) : RegOk m (R.TE_PGM_FAIL ) :=
  regOk_of (c := 9) hm rfl

theorem R.TE_ERS_FAIL_ok {m : Nat}  (hm : Nat.land 68719476736 m = 68719476736) : RegOk m (R.TE_ERS_FAIL ) :=
  regOk_of (c := 9) hm rfl

theorem R.TE_GC_ABORT_ok {m : Nat}  (hm : Nat.land 68719476736 m = 68719476736) : RegOk m (R.TE_GC_ABORT ) :=
  regOk_of (c := 9) hm rfl

theorem R.TE_LIFE_USED_ok {m : Nat}  (hm : Nat.land 68719476736 m = 68719476736) : RegOk m (R.TE_LIFE_USED ) :=
  regOk_of (c := 9) hm rfl

theorem R.TE_UPK_CNT_CLR_ok {m : Nat}  (hm : Nat.land 68719476736 m = 68719476736) : RegOk m (R.TE_UPK_CNT_CLR ) :=
  regOk_of (c := 9) hm rfl

theorem R.MG_OBP_WAIT_ok {m : Nat} {i0 : Nat} (hm : Nat.land 4398046511104 m = 4398046511104) : RegOk m (R.MG_OBP_WAIT i0) :=
  regOk_of (c := 15) hm (blk15 (by unfold R.MG_OBP_WAIT; omega) (by unfold R.MG_OBP_WAIT; omega))

theorem R.MG_OBP_STS_ok {m : Nat} {i0 : Nat} (hm : Nat.land 4398046511104 m = 4398046511104) : RegOk m (R.MG_OBP_STS i0) :=
  regOk_of (c := 15) hm (blk15 (by unfold R.MG_OBP_STS; omega) (by unfold R.MG_OBP_STS; omega))

theorem R.MG_OBP_STRIPES_ok {m : Nat} {i0 : Nat} (hm : Nat.land 4398046511104 m = 4398046511104) : RegOk m (R.MG_OBP_STRIPES i0) :=
  regOk_of (c := 15) hm (blk15 (by unfold R.MG_OBP_STRIPES; omega) (by unfold R.MG_OBP_STRIPES; omega))

theorem R.MG_OBP_SHORT_ok {m : Nat} {i0 : Nat} (hm : Nat.land 4398046511104 m = 4398046511104) : RegOk m (R.MG_OBP_SHORT i0) :=
  regOk_of (c := 15) hm (blk15 (by unfold R.MG_OBP_SHORT; omega) (by unfold R.MG_OBP_SHORT; omega))

theorem R.MG_OBP_NOPAR_ok {m : Nat} {i0 : Nat} (hm : Nat.land 4398046511104 m = 4398046511104) : RegOk m (R.MG_OBP_NOPAR i0) :=
  regOk_of (c := 15) hm (blk15 (by unfold R.MG_OBP_NOPAR; omega) (by unfold R.MG_OBP_NOPAR; omega))

theorem R.MG_OBP_RECON_ok {m : Nat} {i0 : Nat} (hm : Nat.land 4398046511104 m = 4398046511104) : RegOk m (R.MG_OBP_RECON i0) :=
  regOk_of (c := 15) hm (blk15 (by unfold R.MG_OBP_RECON; omega) (by unfold R.MG_OBP_RECON; omega))

theorem R.MG_OBP_FAIL_ok {m : Nat} {i0 : Nat} (hm : Nat.land 4398046511104 m = 4398046511104) : RegOk m (R.MG_OBP_FAIL i0) :=
  regOk_of (c := 15) hm (blk15 (by unfold R.MG_OBP_FAIL; omega) (by unfold R.MG_OBP_FAIL; omega))

theorem R.MG_OBP_HELD_ok {m : Nat} {i0 : Nat} (hm : Nat.land 4398046511104 m = 4398046511104) : RegOk m (R.MG_OBP_HELD i0) :=
  regOk_of (c := 15) hm (blk15 (by unfold R.MG_OBP_HELD; omega) (by unfold R.MG_OBP_HELD; omega))

theorem R.MG_OBP_CNT_CLR_ok {m : Nat} {i0 : Nat} (hm : Nat.land 4398046511104 m = 4398046511104) : RegOk m (R.MG_OBP_CNT_CLR i0) :=
  regOk_of (c := 15) hm (blk15 (by unfold R.MG_OBP_CNT_CLR; omega) (by unfold R.MG_OBP_CNT_CLR; omega))

theorem R.MG_CTL_ok {m : Nat} {i0 : Nat} (hm : Nat.land 4398046511104 m = 4398046511104) : RegOk m (R.MG_CTL i0) :=
  regOk_of (c := 15) hm (blk15 (by unfold R.MG_CTL; omega) (by unfold R.MG_CTL; omega))

theorem R.MG_STS_ok {m : Nat} {i0 : Nat} (hm : Nat.land 4398046511104 m = 4398046511104) : RegOk m (R.MG_STS i0) :=
  regOk_of (c := 15) hm (blk15 (by unfold R.MG_STS; omega) (by unfold R.MG_STS; omega))

theorem R.MG_IO_CFG_ok {m : Nat} {i0 : Nat} (hm : Nat.land 4398046511104 m = 4398046511104) : RegOk m (R.MG_IO_CFG i0) :=
  regOk_of (c := 15) hm (blk15 (by unfold R.MG_IO_CFG; omega) (by unfold R.MG_IO_CFG; omega))

theorem R.MG_RD_TO_ok {m : Nat} {i0 : Nat} (hm : Nat.land 4398046511104 m = 4398046511104) : RegOk m (R.MG_RD_TO i0) :=
  regOk_of (c := 15) hm (blk15 (by unfold R.MG_RD_TO; omega) (by unfold R.MG_RD_TO; omega))

theorem R.MG_DIE_RET_LIM_ok {m : Nat} {i0 : Nat} (hm : Nat.land 4398046511104 m = 4398046511104) : RegOk m (R.MG_DIE_RET_LIM i0) :=
  regOk_of (c := 15) hm (blk15 (by unfold R.MG_DIE_RET_LIM; omega) (by unfold R.MG_DIE_RET_LIM; omega))

theorem R.MG_SUSP_WARN_ok {m : Nat} {i0 : Nat} (hm : Nat.land 4398046511104 m = 4398046511104) : RegOk m (R.MG_SUSP_WARN i0) :=
  regOk_of (c := 15) hm (blk15 (by unfold R.MG_SUSP_WARN; omega) (by unfold R.MG_SUSP_WARN; omega))

theorem R.MG_TRACK_INT_ok {m : Nat} {i0 : Nat} (hm : Nat.land 4398046511104 m = 4398046511104) : RegOk m (R.MG_TRACK_INT i0) :=
  regOk_of (c := 15) hm (blk15 (by unfold R.MG_TRACK_INT; omega) (by unfold R.MG_TRACK_INT; omega))

theorem R.MG_LOCK_ok {m : Nat} {i0 : Nat} (hm : Nat.land 4398046511104 m = 4398046511104) : RegOk m (R.MG_LOCK i0) :=
  regOk_of (c := 15) hm (blk15 (by unfold R.MG_LOCK; omega) (by unfold R.MG_LOCK; omega))

theorem R.MC_CTL_ok {m : Nat} {i0 : Nat} (hm : Nat.land 17592186044416 m = 17592186044416) : RegOk m (R.MC_CTL i0) :=
  regOk_of (c := 17) hm (blk17 (by unfold R.MC_CTL; omega) (by unfold R.MC_CTL; omega))

theorem R.MC_STS_ok {m : Nat} {i0 : Nat} (hm : Nat.land 17592186044416 m = 17592186044416) : RegOk m (R.MC_STS i0) :=
  regOk_of (c := 17) hm (blk17 (by unfold R.MC_STS; omega) (by unfold R.MC_STS; omega))

theorem R.MC_DIES_ok {m : Nat} {i0 : Nat} (hm : Nat.land 17592186044416 m = 17592186044416) : RegOk m (R.MC_DIES i0) :=
  regOk_of (c := 17) hm (blk17 (by unfold R.MC_DIES; omega) (by unfold R.MC_DIES; omega))

theorem R.MC_DIE_SEL_ok {m : Nat} {i0 : Nat} (hm : Nat.land 17592186044416 m = 17592186044416) : RegOk m (R.MC_DIE_SEL i0) :=
  regOk_of (c := 17) hm (blk17 (by unfold R.MC_DIE_SEL; omega) (by unfold R.MC_DIE_SEL; omega))

theorem R.MC_DIE_STS_ok {m : Nat} {i0 : Nat} (hm : Nat.land 17592186044416 m = 17592186044416) : RegOk m (R.MC_DIE_STS i0) :=
  regOk_of (c := 17) hm (blk17 (by unfold R.MC_DIE_STS; omega) (by unfold R.MC_DIE_STS; omega))

theorem R.MC_DIE_TRN_ok {m : Nat} {i0 : Nat} (hm : Nat.land 17592186044416 m = 17592186044416) : RegOk m (R.MC_DIE_TRN i0) :=
  regOk_of (c := 17) hm (blk17 (by unfold R.MC_DIE_TRN; omega) (by unfold R.MC_DIE_TRN; omega))

theorem R.MC_PAT_CTL_ok {m : Nat} {i0 : Nat} (hm : Nat.land 17592186044416 m = 17592186044416) : RegOk m (R.MC_PAT_CTL i0) :=
  regOk_of (c := 17) hm (blk17 (by unfold R.MC_PAT_CTL; omega) (by unfold R.MC_PAT_CTL; omega))

theorem R.MC_PAT_ERR_ok {m : Nat} {i0 : Nat} (hm : Nat.land 17592186044416 m = 17592186044416) : RegOk m (R.MC_PAT_ERR i0) :=
  regOk_of (c := 17) hm (blk17 (by unfold R.MC_PAT_ERR; omega) (by unfold R.MC_PAT_ERR; omega))

theorem R.MC_PAT_LANES_ok {m : Nat} {i0 : Nat} (hm : Nat.land 17592186044416 m = 17592186044416) : RegOk m (R.MC_PAT_LANES i0) :=
  regOk_of (c := 17) hm (blk17 (by unfold R.MC_PAT_LANES; omega) (by unfold R.MC_PAT_LANES; omega))

theorem R.MC_RD_H_CNT_ok {m : Nat} {i0 : Nat} (hm : Nat.land 17592186044416 m = 17592186044416) : RegOk m (R.MC_RD_H_CNT i0) :=
  regOk_of (c := 17) hm (blk17 (by unfold R.MC_RD_H_CNT; omega) (by unfold R.MC_RD_H_CNT; omega))

theorem R.MC_RD_B_CNT_ok {m : Nat} {i0 : Nat} (hm : Nat.land 17592186044416 m = 17592186044416) : RegOk m (R.MC_RD_B_CNT i0) :=
  regOk_of (c := 17) hm (blk17 (by unfold R.MC_RD_B_CNT; omega) (by unfold R.MC_RD_B_CNT; omega))

theorem R.MC_PGM_CNT_ok {m : Nat} {i0 : Nat} (hm : Nat.land 17592186044416 m = 17592186044416) : RegOk m (R.MC_PGM_CNT i0) :=
  regOk_of (c := 17) hm (blk17 (by unfold R.MC_PGM_CNT; omega) (by unfold R.MC_PGM_CNT; omega))

theorem R.MC_ERS_CNT_ok {m : Nat} {i0 : Nat} (hm : Nat.land 17592186044416 m = 17592186044416) : RegOk m (R.MC_ERS_CNT i0) :=
  regOk_of (c := 17) hm (blk17 (by unfold R.MC_ERS_CNT; omega) (by unfold R.MC_ERS_CNT; omega))

theorem R.MC_SUSP_CNT_ok {m : Nat} {i0 : Nat} (hm : Nat.land 17592186044416 m = 17592186044416) : RegOk m (R.MC_SUSP_CNT i0) :=
  regOk_of (c := 17) hm (blk17 (by unfold R.MC_SUSP_CNT; omega) (by unfold R.MC_SUSP_CNT; omega))

theorem R.MC_SUSP_MAX_ok {m : Nat} {i0 : Nat} (hm : Nat.land 17592186044416 m = 17592186044416) : RegOk m (R.MC_SUSP_MAX i0) :=
  regOk_of (c := 17) hm (blk17 (by unfold R.MC_SUSP_MAX; omega) (by unfold R.MC_SUSP_MAX; omega))

theorem R.MC_RD_TO_CNT_ok {m : Nat} {i0 : Nat} (hm : Nat.land 17592186044416 m = 17592186044416) : RegOk m (R.MC_RD_TO_CNT i0) :=
  regOk_of (c := 17) hm (blk17 (by unfold R.MC_RD_TO_CNT; omega) (by unfold R.MC_RD_TO_CNT; omega))

theorem R.MC_ERR_CNT_ok {m : Nat} {i0 : Nat} (hm : Nat.land 17592186044416 m = 17592186044416) : RegOk m (R.MC_ERR_CNT i0) :=
  regOk_of (c := 17) hm (blk17 (by unfold R.MC_ERR_CNT; omega) (by unfold R.MC_ERR_CNT; omega))

theorem R.MC_CNT_CLR_ok {m : Nat} {i0 : Nat} (hm : Nat.land 17592186044416 m = 17592186044416) : RegOk m (R.MC_CNT_CLR i0) :=
  regOk_of (c := 17) hm (blk17 (by unfold R.MC_CNT_CLR; omega) (by unfold R.MC_CNT_CLR; omega))

theorem R.MG_CDC_CTL_ok {m : Nat} {i0 : Nat} (hm : Nat.land 4398046511104 m = 4398046511104) : RegOk m (R.MG_CDC_CTL i0) :=
  regOk_of (c := 15) hm (blk15 (by unfold R.MG_CDC_CTL; omega) (by unfold R.MG_CDC_CTL; omega))

theorem R.MG_CDC_STS_ok {m : Nat} {i0 : Nat} (hm : Nat.land 4398046511104 m = 4398046511104) : RegOk m (R.MG_CDC_STS i0) :=
  regOk_of (c := 15) hm (blk15 (by unfold R.MG_CDC_STS; omega) (by unfold R.MG_CDC_STS; omega))

theorem R.MG_CE_LINES_ok {m : Nat} {i0 : Nat} (hm : Nat.land 4398046511104 m = 4398046511104) : RegOk m (R.MG_CE_LINES i0) :=
  regOk_of (c := 15) hm (blk15 (by unfold R.MG_CE_LINES; omega) (by unfold R.MG_CE_LINES; omega))

theorem R.MG_CE_BITS_ok {m : Nat} {i0 : Nat} (hm : Nat.land 4398046511104 m = 4398046511104) : RegOk m (R.MG_CE_BITS i0) :=
  regOk_of (c := 15) hm (blk15 (by unfold R.MG_CE_BITS; omega) (by unfold R.MG_CE_BITS; omega))

theorem R.MG_RETRY1_ok {m : Nat} {i0 : Nat} (hm : Nat.land 4398046511104 m = 4398046511104) : RegOk m (R.MG_RETRY1 i0) :=
  regOk_of (c := 15) hm (blk15 (by unfold R.MG_RETRY1; omega) (by unfold R.MG_RETRY1; omega))

theorem R.MG_RETRY2_ok {m : Nat} {i0 : Nat} (hm : Nat.land 4398046511104 m = 4398046511104) : RegOk m (R.MG_RETRY2 i0) :=
  regOk_of (c := 15) hm (blk15 (by unfold R.MG_RETRY2; omega) (by unfold R.MG_RETRY2; omega))

theorem R.MG_RETRY3_ok {m : Nat} {i0 : Nat} (hm : Nat.land 4398046511104 m = 4398046511104) : RegOk m (R.MG_RETRY3 i0) :=
  regOk_of (c := 15) hm (blk15 (by unfold R.MG_RETRY3; omega) (by unfold R.MG_RETRY3; omega))

theorem R.MG_UE_LINES_ok {m : Nat} {i0 : Nat} (hm : Nat.land 4398046511104 m = 4398046511104) : RegOk m (R.MG_UE_LINES i0) :=
  regOk_of (c := 15) hm (blk15 (by unfold R.MG_UE_LINES; omega) (by unfold R.MG_UE_LINES; omega))

theorem R.MG_LCHK_CNT_ok {m : Nat} {i0 : Nat} (hm : Nat.land 4398046511104 m = 4398046511104) : RegOk m (R.MG_LCHK_CNT i0) :=
  regOk_of (c := 15) hm (blk15 (by unfold R.MG_LCHK_CNT; omega) (by unfold R.MG_LCHK_CNT; omega))

theorem R.MG_CDC_CNT_CLR_ok {m : Nat} {i0 : Nat} (hm : Nat.land 4398046511104 m = 4398046511104) : RegOk m (R.MG_CDC_CNT_CLR i0) :=
  regOk_of (c := 15) hm (blk15 (by unfold R.MG_CDC_CNT_CLR; omega) (by unfold R.MG_CDC_CNT_CLR; omega))

theorem R.MG_REF_SEL_ok {m : Nat} {i0 : Nat} (hm : Nat.land 4398046511104 m = 4398046511104) : RegOk m (R.MG_REF_SEL i0) :=
  regOk_of (c := 15) hm (blk15 (by unfold R.MG_REF_SEL; omega) (by unfold R.MG_REF_SEL; omega))

theorem R.MG_REF_VAL_ok {m : Nat} {i0 : Nat} (hm : Nat.land 4398046511104 m = 4398046511104) : RegOk m (R.MG_REF_VAL i0) :=
  regOk_of (c := 15) hm (blk15 (by unfold R.MG_REF_VAL; omega) (by unfold R.MG_REF_VAL; omega))

theorem R.MG_AGE_SEL_ok {m : Nat} {i0 : Nat} (hm : Nat.land 4398046511104 m = 4398046511104) : RegOk m (R.MG_AGE_SEL i0) :=
  regOk_of (c := 15) hm (blk15 (by unfold R.MG_AGE_SEL; omega) (by unfold R.MG_AGE_SEL; omega))

theorem R.MG_AGE_VAL_ok {m : Nat} {i0 : Nat} (hm : Nat.land 4398046511104 m = 4398046511104) : RegOk m (R.MG_AGE_VAL i0) :=
  regOk_of (c := 15) hm (blk15 (by unfold R.MG_AGE_VAL; omega) (by unfold R.MG_AGE_VAL; omega))

theorem R.MG_CW_ok {m : Nat} {i0 : Nat} {i1 : Nat} (hm : Nat.land 4398046511104 m = 4398046511104) : RegOk m (R.MG_CW i0 i1) :=
  regOk_of (c := 15) hm (blk15 (by unfold R.MG_CW; omega) (by unfold R.MG_CW; omega))

theorem R.MG_CW_CTL_ok {m : Nat} {i0 : Nat} (hm : Nat.land 4398046511104 m = 4398046511104) : RegOk m (R.MG_CW_CTL i0) :=
  regOk_of (c := 15) hm (blk15 (by unfold R.MG_CW_CTL; omega) (by unfold R.MG_CW_CTL; omega))

theorem R.MG_CW_RES_ok {m : Nat} {i0 : Nat} (hm : Nat.land 4398046511104 m = 4398046511104) : RegOk m (R.MG_CW_RES i0) :=
  regOk_of (c := 15) hm (blk15 (by unfold R.MG_CW_RES; omega) (by unfold R.MG_CW_RES; omega))

theorem R.SIR_CTL_ok {m : Nat}  (hm : Nat.land 274877906944 m = 274877906944) : RegOk m (R.SIR_CTL ) :=
  regOk_of (c := 11) hm rfl

theorem R.SIR_STS_ok {m : Nat}  (hm : Nat.land 274877906944 m = 274877906944) : RegOk m (R.SIR_STS ) :=
  regOk_of (c := 11) hm rfl

theorem R.SIR_LAG_ok {m : Nat}  (hm : Nat.land 274877906944 m = 274877906944) : RegOk m (R.SIR_LAG ) :=
  regOk_of (c := 11) hm rfl

theorem R.SIR_LAG_MAX_ok {m : Nat}  (hm : Nat.land 274877906944 m = 274877906944) : RegOk m (R.SIR_LAG_MAX ) :=
  regOk_of (c := 11) hm rfl

theorem R.SIR_SCRUB_PERIOD_ok {m : Nat}  (hm : Nat.land 274877906944 m = 274877906944) : RegOk m (R.SIR_SCRUB_PERIOD ) :=
  regOk_of (c := 11) hm rfl

theorem R.SIR_SRAM_PERIOD_ok {m : Nat}  (hm : Nat.land 274877906944 m = 274877906944) : RegOk m (R.SIR_SRAM_PERIOD ) :=
  regOk_of (c := 11) hm rfl

theorem R.SIR_TRACK_INT_ok {m : Nat}  (hm : Nat.land 274877906944 m = 274877906944) : RegOk m (R.SIR_TRACK_INT ) :=
  regOk_of (c := 11) hm rfl

theorem R.SIR_TRACK_LIM_ok {m : Nat}  (hm : Nat.land 274877906944 m = 274877906944) : RegOk m (R.SIR_TRACK_LIM ) :=
  regOk_of (c := 11) hm rfl

theorem R.SIR_SCRUB_BITS_ok {m : Nat}  (hm : Nat.land 274877906944 m = 274877906944) : RegOk m (R.SIR_SCRUB_BITS ) :=
  regOk_of (c := 11) hm rfl

theorem R.SIR_REFRESH_B_ok {m : Nat} {i0 : Nat} (hm : Nat.land 274877906944 m = 274877906944) : RegOk m (R.SIR_REFRESH_B i0) :=
  regOk_of (c := 11) hm (blk11 (by unfold R.SIR_REFRESH_B; omega) (by unfold R.SIR_REFRESH_B; omega))

theorem R.SIR_AGE_BND_ok {m : Nat} {i0 : Nat} (hm : Nat.land 274877906944 m = 274877906944) : RegOk m (R.SIR_AGE_BND i0) :=
  regOk_of (c := 11) hm (blk11 (by unfold R.SIR_AGE_BND; omega) (by unfold R.SIR_AGE_BND; omega))

theorem R.SIR_OFF_BAND_ok {m : Nat}  (hm : Nat.land 274877906944 m = 274877906944) : RegOk m (R.SIR_OFF_BAND ) :=
  regOk_of (c := 11) hm rfl

theorem R.SIR_ZONE_BAND_ok {m : Nat}  (hm : Nat.land 274877906944 m = 274877906944) : RegOk m (R.SIR_ZONE_BAND ) :=
  regOk_of (c := 11) hm rfl

theorem R.SIR_ZONE_SEL_ok {m : Nat}  (hm : Nat.land 274877906944 m = 274877906944) : RegOk m (R.SIR_ZONE_SEL ) :=
  regOk_of (c := 11) hm rfl

theorem R.SIR_DRIFT_LO_ok {m : Nat}  (hm : Nat.land 274877906944 m = 274877906944) : RegOk m (R.SIR_DRIFT_LO ) :=
  regOk_of (c := 11) hm rfl

theorem R.SIR_DRIFT_HI_ok {m : Nat}  (hm : Nat.land 274877906944 m = 274877906944) : RegOk m (R.SIR_DRIFT_HI ) :=
  regOk_of (c := 11) hm rfl

theorem R.SIR_LAG_VFY_ok {m : Nat}  (hm : Nat.land 274877906944 m = 274877906944) : RegOk m (R.SIR_LAG_VFY ) :=
  regOk_of (c := 11) hm rfl

theorem R.SIR_LAG_REF_ok {m : Nat}  (hm : Nat.land 274877906944 m = 274877906944) : RegOk m (R.SIR_LAG_REF ) :=
  regOk_of (c := 11) hm rfl

theorem R.SIR_LAG_TRK_ok {m : Nat}  (hm : Nat.land 274877906944 m = 274877906944) : RegOk m (R.SIR_LAG_TRK ) :=
  regOk_of (c := 11) hm rfl

theorem R.SIR_LAG_SCR_ok {m : Nat}  (hm : Nat.land 274877906944 m = 274877906944) : RegOk m (R.SIR_LAG_SCR ) :=
  regOk_of (c := 11) hm rfl

theorem R.SIR_LAG_SRAM_ok {m : Nat}  (hm : Nat.land 274877906944 m = 274877906944) : RegOk m (R.SIR_LAG_SRAM ) :=
  regOk_of (c := 11) hm rfl

theorem R.SIR_SCRUB_PAGES_ok {m : Nat}  (hm : Nat.land 274877906944 m = 274877906944) : RegOk m (R.SIR_SCRUB_PAGES ) :=
  regOk_of (c := 11) hm rfl

theorem R.SIR_SCRUB_COPY_ok {m : Nat}  (hm : Nat.land 274877906944 m = 274877906944) : RegOk m (R.SIR_SCRUB_COPY ) :=
  regOk_of (c := 11) hm rfl

theorem R.SIR_UE_FOUND_ok {m : Nat}  (hm : Nat.land 274877906944 m = 274877906944) : RegOk m (R.SIR_UE_FOUND ) :=
  regOk_of (c := 11) hm rfl

theorem R.SIR_RECOV_RETRY_ok {m : Nat}  (hm : Nat.land 274877906944 m = 274877906944) : RegOk m (R.SIR_RECOV_RETRY ) :=
  regOk_of (c := 11) hm rfl

theorem R.SIR_RECOV_OBP_ok {m : Nat}  (hm : Nat.land 274877906944 m = 274877906944) : RegOk m (R.SIR_RECOV_OBP ) :=
  regOk_of (c := 11) hm rfl

theorem R.SIR_RECOV_PEER_ok {m : Nat}  (hm : Nat.land 274877906944 m = 274877906944) : RegOk m (R.SIR_RECOV_PEER ) :=
  regOk_of (c := 11) hm rfl

theorem R.SIR_POISONED_ok {m : Nat}  (hm : Nat.land 274877906944 m = 274877906944) : RegOk m (R.SIR_POISONED ) :=
  regOk_of (c := 11) hm rfl

theorem R.SIR_REFRESH_BLK_ok {m : Nat}  (hm : Nat.land 274877906944 m = 274877906944) : RegOk m (R.SIR_REFRESH_BLK ) :=
  regOk_of (c := 11) hm rfl

theorem R.SIR_SRAM_FIX_ok {m : Nat}  (hm : Nat.land 274877906944 m = 274877906944) : RegOk m (R.SIR_SRAM_FIX ) :=
  regOk_of (c := 11) hm rfl

theorem R.SIR_CNT_CLR_ok {m : Nat}  (hm : Nat.land 274877906944 m = 274877906944) : RegOk m (R.SIR_CNT_CLR ) :=
  regOk_of (c := 11) hm rfl

theorem R.SIR_LOCK_ok {m : Nat}  (hm : Nat.land 274877906944 m = 274877906944) : RegOk m (R.SIR_LOCK ) :=
  regOk_of (c := 11) hm rfl

theorem R.SIR_CHK_CTL_ok {m : Nat}  (hm : Nat.land 274877906944 m = 274877906944) : RegOk m (R.SIR_CHK_CTL ) :=
  regOk_of (c := 11) hm rfl

theorem R.SIR_CHK_STS_ok {m : Nat}  (hm : Nat.land 274877906944 m = 274877906944) : RegOk m (R.SIR_CHK_STS ) :=
  regOk_of (c := 11) hm rfl

theorem R.SIR_CHK_IDX_ok {m : Nat}  (hm : Nat.land 274877906944 m = 274877906944) : RegOk m (R.SIR_CHK_IDX ) :=
  regOk_of (c := 11) hm rfl

theorem R.SIR_CHK_D_ok {m : Nat} {i0 : Nat} (hm : Nat.land 274877906944 m = 274877906944) : RegOk m (R.SIR_CHK_D i0) :=
  regOk_of (c := 11) hm (blk11 (by unfold R.SIR_CHK_D; omega) (by unfold R.SIR_CHK_D; omega))

theorem R.SIR_CHK_CB_ok {m : Nat}  (hm : Nat.land 274877906944 m = 274877906944) : RegOk m (R.SIR_CHK_CB ) :=
  regOk_of (c := 11) hm rfl

theorem R.CE_CTL_ok {m : Nat}  (hm : Nat.land 17179869184 m = 17179869184) : RegOk m (R.CE_CTL ) :=
  regOk_of (c := 7) hm rfl

theorem R.CE_STS_ok {m : Nat}  (hm : Nat.land 17179869184 m = 17179869184) : RegOk m (R.CE_STS ) :=
  regOk_of (c := 7) hm rfl

theorem R.CE_SLOTS_USED_ok {m : Nat}  (hm : Nat.land 17179869184 m = 17179869184) : RegOk m (R.CE_SLOTS_USED ) :=
  regOk_of (c := 7) hm rfl

theorem R.CE_SLOTS_PEAK_ok {m : Nat}  (hm : Nat.land 17179869184 m = 17179869184) : RegOk m (R.CE_SLOTS_PEAK ) :=
  regOk_of (c := 7) hm rfl

theorem R.CE_DERIVE_CNT_ok {m : Nat}  (hm : Nat.land 17179869184 m = 17179869184) : RegOk m (R.CE_DERIVE_CNT ) :=
  regOk_of (c := 7) hm rfl

theorem R.CE_TAG_FAIL_CNT_ok {m : Nat}  (hm : Nat.land 17179869184 m = 17179869184) : RegOk m (R.CE_TAG_FAIL_CNT ) :=
  regOk_of (c := 7) hm rfl

theorem R.CE_TAGFAIL_LIM_ok {m : Nat}  (hm : Nat.land 17179869184 m = 17179869184) : RegOk m (R.CE_TAGFAIL_LIM ) :=
  regOk_of (c := 7) hm rfl

theorem R.CE_XF_AHEAD_ok {m : Nat}  (hm : Nat.land 17179869184 m = 17179869184) : RegOk m (R.CE_XF_AHEAD ) :=
  regOk_of (c := 7) hm rfl

theorem R.CE_XF_SEL_ok {m : Nat}  (hm : Nat.land 17179869184 m = 17179869184) : RegOk m (R.CE_XF_SEL ) :=
  regOk_of (c := 7) hm rfl

theorem R.CE_XF_STS_ok {m : Nat}  (hm : Nat.land 17179869184 m = 17179869184) : RegOk m (R.CE_XF_STS ) :=
  regOk_of (c := 7) hm rfl

theorem R.CE_CHUNK_OK_ok {m : Nat}  (hm : Nat.land 17179869184 m = 17179869184) : RegOk m (R.CE_CHUNK_OK ) :=
  regOk_of (c := 7) hm rfl

theorem R.CE_CHUNK_BAD_ok {m : Nat}  (hm : Nat.land 17179869184 m = 17179869184) : RegOk m (R.CE_CHUNK_BAD ) :=
  regOk_of (c := 7) hm rfl

theorem R.CE_XF_DROP_ok {m : Nat}  (hm : Nat.land 17179869184 m = 17179869184) : RegOk m (R.CE_XF_DROP ) :=
  regOk_of (c := 7) hm rfl

theorem R.CE_SEED_LATE_ok {m : Nat}  (hm : Nat.land 17179869184 m = 17179869184) : RegOk m (R.CE_SEED_LATE ) :=
  regOk_of (c := 7) hm rfl

theorem R.CE_ENT_FAIL_ok {m : Nat}  (hm : Nat.land 17179869184 m = 17179869184) : RegOk m (R.CE_ENT_FAIL ) :=
  regOk_of (c := 7) hm rfl

theorem R.CE_RESEED_CNT_ok {m : Nat}  (hm : Nat.land 17179869184 m = 17179869184) : RegOk m (R.CE_RESEED_CNT ) :=
  regOk_of (c := 7) hm rfl

theorem R.CE_CNT_CLR_ok {m : Nat}  (hm : Nat.land 17179869184 m = 17179869184) : RegOk m (R.CE_CNT_CLR ) :=
  regOk_of (c := 7) hm rfl

theorem R.CE_LOCK_ok {m : Nat}  (hm : Nat.land 17179869184 m = 17179869184) : RegOk m (R.CE_LOCK ) :=
  regOk_of (c := 7) hm rfl

theorem R.CE_RG_LBL0_ok {m : Nat} {i0 : Nat} (hm : Nat.land 281474976710656 m = 281474976710656) : RegOk m (R.CE_RG_LBL0 i0) :=
  regOk_of (c := 21) hm (blk21 (by unfold R.CE_RG_LBL0; omega) (by unfold R.CE_RG_LBL0; omega))

theorem R.CE_RG_LBL1_ok {m : Nat} {i0 : Nat} (hm : Nat.land 281474976710656 m = 281474976710656) : RegOk m (R.CE_RG_LBL1 i0) :=
  regOk_of (c := 21) hm (blk21 (by unfold R.CE_RG_LBL1; omega) (by unfold R.CE_RG_LBL1; omega))

theorem R.CE_RG_LBL2_ok {m : Nat} {i0 : Nat} (hm : Nat.land 281474976710656 m = 281474976710656) : RegOk m (R.CE_RG_LBL2 i0) :=
  regOk_of (c := 21) hm (blk21 (by unfold R.CE_RG_LBL2; omega) (by unfold R.CE_RG_LBL2; omega))

theorem R.CE_RG_LBL3_ok {m : Nat} {i0 : Nat} (hm : Nat.land 281474976710656 m = 281474976710656) : RegOk m (R.CE_RG_LBL3 i0) :=
  regOk_of (c := 21) hm (blk21 (by unfold R.CE_RG_LBL3; omega) (by unfold R.CE_RG_LBL3; omega))

theorem R.CE_RG_SLOT_ok {m : Nat} {i0 : Nat} (hm : Nat.land 281474976710656 m = 281474976710656) : RegOk m (R.CE_RG_SLOT i0) :=
  regOk_of (c := 21) hm (blk21 (by unfold R.CE_RG_SLOT; omega) (by unfold R.CE_RG_SLOT; omega))

theorem R.CE_RG_ROTSEQ_LO_ok {m : Nat} {i0 : Nat} (hm : Nat.land 281474976710656 m = 281474976710656) : RegOk m (R.CE_RG_ROTSEQ_LO i0) :=
  regOk_of (c := 21) hm (blk21 (by unfold R.CE_RG_ROTSEQ_LO; omega) (by unfold R.CE_RG_ROTSEQ_LO; omega))

theorem R.CE_RG_ROTSEQ_HI_ok {m : Nat} {i0 : Nat} (hm : Nat.land 281474976710656 m = 281474976710656) : RegOk m (R.CE_RG_ROTSEQ_HI i0) :=
  regOk_of (c := 21) hm (blk21 (by unfold R.CE_RG_ROTSEQ_HI; omega) (by unfold R.CE_RG_ROTSEQ_HI; omega))

theorem R.CE_RG_ROT_PCT_ok {m : Nat} {i0 : Nat} (hm : Nat.land 281474976710656 m = 281474976710656) : RegOk m (R.CE_RG_ROT_PCT i0) :=
  regOk_of (c := 21) hm (blk21 (by unfold R.CE_RG_ROT_PCT; omega) (by unfold R.CE_RG_ROT_PCT; omega))

theorem R.CE_SLOT_SEL_ok {m : Nat}  (hm : Nat.land 281474976710656 m = 281474976710656) : RegOk m (R.CE_SLOT_SEL ) :=
  regOk_of (c := 21) hm rfl

theorem R.CE_SLOT_INFO_ok {m : Nat}  (hm : Nat.land 281474976710656 m = 281474976710656) : RegOk m (R.CE_SLOT_INFO ) :=
  regOk_of (c := 21) hm rfl

theorem R.CE_SLOT_LBL_ok {m : Nat} {i0 : Nat} (hm : Nat.land 281474976710656 m = 281474976710656) : RegOk m (R.CE_SLOT_LBL i0) :=
  regOk_of (c := 21) hm (blk21 (by unfold R.CE_SLOT_LBL; omega) (by unfold R.CE_SLOT_LBL; omega))

theorem R.CAR_CTL_ok {m : Nat}  (hm : Nat.land 549755813888 m = 549755813888) : RegOk m (R.CAR_CTL ) :=
  regOk_of (c := 12) hm rfl

theorem R.CAR_STS_ok {m : Nat}  (hm : Nat.land 549755813888 m = 549755813888) : RegOk m (R.CAR_STS ) :=
  regOk_of (c := 12) hm rfl

theorem R.CAR_CFG_ok {m : Nat}  (hm : Nat.land 549755813888 m = 549755813888) : RegOk m (R.CAR_CFG ) :=
  regOk_of (c := 12) hm rfl

theorem R.CAR_IDLE_TO_ok {m : Nat}  (hm : Nat.land 549755813888 m = 549755813888) : RegOk m (R.CAR_IDLE_TO ) :=
  regOk_of (c := 12) hm rfl

theorem R.CAR_RSP_TO_ok {m : Nat}  (hm : Nat.land 549755813888 m = 549755813888) : RegOk m (R.CAR_RSP_TO ) :=
  regOk_of (c := 12) hm rfl

theorem R.CAR_SETTLE_ok {m : Nat}  (hm : Nat.land 549755813888 m = 549755813888) : RegOk m (R.CAR_SETTLE ) :=
  regOk_of (c := 12) hm rfl

theorem R.CAR_ATTACH_TO_ok {m : Nat}  (hm : Nat.land 549755813888 m = 549755813888) : RegOk m (R.CAR_ATTACH_TO ) :=
  regOk_of (c := 12) hm rfl

theorem R.CAR_CRD_MIR_ok {m : Nat}  (hm : Nat.land 549755813888 m = 549755813888) : RegOk m (R.CAR_CRD_MIR ) :=
  regOk_of (c := 12) hm rfl

theorem R.CAR_RSYNC_BW_ok {m : Nat}  (hm : Nat.land 549755813888 m = 549755813888) : RegOk m (R.CAR_RSYNC_BW ) :=
  regOk_of (c := 12) hm rfl

theorem R.CAR_RG_STS_ok {m : Nat}  (hm : Nat.land 549755813888 m = 549755813888) : RegOk m (R.CAR_RG_STS ) :=
  regOk_of (c := 12) hm rfl

theorem R.CAR_BMAP_LO_ok {m : Nat}  (hm : Nat.land 549755813888 m = 549755813888) : RegOk m (R.CAR_BMAP_LO ) :=
  regOk_of (c := 12) hm rfl

theorem R.CAR_BMAP_HI_ok {m : Nat}  (hm : Nat.land 549755813888 m = 549755813888) : RegOk m (R.CAR_BMAP_HI ) :=
  regOk_of (c := 12) hm rfl

theorem R.CAR_RSYNC_ok {m : Nat}  (hm : Nat.land 549755813888 m = 549755813888) : RegOk m (R.CAR_RSYNC ) :=
  regOk_of (c := 12) hm rfl

theorem R.CAR_PAIR_GEN_ok {m : Nat}  (hm : Nat.land 549755813888 m = 549755813888) : RegOk m (R.CAR_PAIR_GEN ) :=
  regOk_of (c := 12) hm rfl

theorem R.CAR_FO_CNT_ok {m : Nat}  (hm : Nat.land 549755813888 m = 549755813888) : RegOk m (R.CAR_FO_CNT ) :=
  regOk_of (c := 12) hm rfl

theorem R.CAR_FO_LAST_ok {m : Nat}  (hm : Nat.land 549755813888 m = 549755813888) : RegOk m (R.CAR_FO_LAST ) :=
  regOk_of (c := 12) hm rfl

theorem R.CAR_FO_MAX_ok {m : Nat}  (hm : Nat.land 549755813888 m = 549755813888) : RegOk m (R.CAR_FO_MAX ) :=
  regOk_of (c := 12) hm rfl

theorem R.CAR_LINK_DOWN_ok {m : Nat}  (hm : Nat.land 549755813888 m = 549755813888) : RegOk m (R.CAR_LINK_DOWN ) :=
  regOk_of (c := 12) hm rfl

theorem R.CAR_MIR_CNT_ok {m : Nat}  (hm : Nat.land 549755813888 m = 549755813888) : RegOk m (R.CAR_MIR_CNT ) :=
  regOk_of (c := 12) hm rfl

theorem R.CAR_FWD_CNT_ok {m : Nat}  (hm : Nat.land 549755813888 m = 549755813888) : RegOk m (R.CAR_FWD_CNT ) :=
  regOk_of (c := 12) hm rfl

theorem R.CAR_REP_OK_ok {m : Nat}  (hm : Nat.land 549755813888 m = 549755813888) : RegOk m (R.CAR_REP_OK ) :=
  regOk_of (c := 12) hm rfl

theorem R.CAR_REP_FAIL_ok {m : Nat}  (hm : Nat.land 549755813888 m = 549755813888) : RegOk m (R.CAR_REP_FAIL ) :=
  regOk_of (c := 12) hm rfl

theorem R.CAR_RSYNC_CHUNKS_ok {m : Nat}  (hm : Nat.land 549755813888 m = 549755813888) : RegOk m (R.CAR_RSYNC_CHUNKS ) :=
  regOk_of (c := 12) hm rfl

theorem R.CAR_CNT_CLR_ok {m : Nat}  (hm : Nat.land 549755813888 m = 549755813888) : RegOk m (R.CAR_CNT_CLR ) :=
  regOk_of (c := 12) hm rfl

theorem R.CAR_LOCK_ok {m : Nat}  (hm : Nat.land 549755813888 m = 549755813888) : RegOk m (R.CAR_LOCK ) :=
  regOk_of (c := 12) hm rfl

theorem R.HP_CFG_ok {m : Nat} {i0 : Nat} (hm : Nat.land 1099511627776 m = 1099511627776) : RegOk m (R.HP_CFG i0) :=
  regOk_of (c := 13) hm (blk13 (by unfold R.HP_CFG; omega) (by unfold R.HP_CFG; omega))

theorem R.HP_CTL_ok {m : Nat} {i0 : Nat} (hm : Nat.land 1099511627776 m = 1099511627776) : RegOk m (R.HP_CTL i0) :=
  regOk_of (c := 13) hm (blk13 (by unfold R.HP_CTL; omega) (by unfold R.HP_CTL; omega))

theorem R.HP_STS_ok {m : Nat} {i0 : Nat} (hm : Nat.land 1099511627776 m = 1099511627776) : RegOk m (R.HP_STS i0) :=
  regOk_of (c := 13) hm (blk13 (by unfold R.HP_STS; omega) (by unfold R.HP_STS; omega))

theorem R.HP_BW_WIN_ok {m : Nat} {i0 : Nat} (hm : Nat.land 1099511627776 m = 1099511627776) : RegOk m (R.HP_BW_WIN i0) :=
  regOk_of (c := 13) hm (blk13 (by unfold R.HP_BW_WIN; omega) (by unfold R.HP_BW_WIN; omega))

theorem R.HP_BW_RD_LO_ok {m : Nat} {i0 : Nat} (hm : Nat.land 1099511627776 m = 1099511627776) : RegOk m (R.HP_BW_RD_LO i0) :=
  regOk_of (c := 13) hm (blk13 (by unfold R.HP_BW_RD_LO; omega) (by unfold R.HP_BW_RD_LO; omega))

theorem R.HP_BW_RD_HI_ok {m : Nat} {i0 : Nat} (hm : Nat.land 1099511627776 m = 1099511627776) : RegOk m (R.HP_BW_RD_HI i0) :=
  regOk_of (c := 13) hm (blk13 (by unfold R.HP_BW_RD_HI; omega) (by unfold R.HP_BW_RD_HI; omega))

theorem R.HP_BW_WR_LO_ok {m : Nat} {i0 : Nat} (hm : Nat.land 1099511627776 m = 1099511627776) : RegOk m (R.HP_BW_WR_LO i0) :=
  regOk_of (c := 13) hm (blk13 (by unfold R.HP_BW_WR_LO; omega) (by unfold R.HP_BW_WR_LO; omega))

theorem R.HP_BW_WR_HI_ok {m : Nat} {i0 : Nat} (hm : Nat.land 1099511627776 m = 1099511627776) : RegOk m (R.HP_BW_WR_HI i0) :=
  regOk_of (c := 13) hm (blk13 (by unfold R.HP_BW_WR_HI; omega) (by unfold R.HP_BW_WR_HI; omega))

theorem R.HP_BW_SEQ_ok {m : Nat} {i0 : Nat} (hm : Nat.land 1099511627776 m = 1099511627776) : RegOk m (R.HP_BW_SEQ i0) :=
  regOk_of (c := 13) hm (blk13 (by unfold R.HP_BW_SEQ; omega) (by unfold R.HP_BW_SEQ; omega))

theorem R.HP_RD_CNT_ok {m : Nat} {i0 : Nat} (hm : Nat.land 1099511627776 m = 1099511627776) : RegOk m (R.HP_RD_CNT i0) :=
  regOk_of (c := 13) hm (blk13 (by unfold R.HP_RD_CNT; omega) (by unfold R.HP_RD_CNT; omega))

theorem R.HP_WR_CNT_ok {m : Nat} {i0 : Nat} (hm : Nat.land 1099511627776 m = 1099511627776) : RegOk m (R.HP_WR_CNT i0) :=
  regOk_of (c := 13) hm (blk13 (by unfold R.HP_WR_CNT; omega) (by unfold R.HP_WR_CNT; omega))

theorem R.HP_POISON_RSP_ok {m : Nat} {i0 : Nat} (hm : Nat.land 1099511627776 m = 1099511627776) : RegOk m (R.HP_POISON_RSP i0) :=
  regOk_of (c := 13) hm (blk13 (by unfold R.HP_POISON_RSP; omega) (by unfold R.HP_POISON_RSP; omega))

theorem R.HP_IDE_ERR_ok {m : Nat} {i0 : Nat} (hm : Nat.land 1099511627776 m = 1099511627776) : RegOk m (R.HP_IDE_ERR i0) :=
  regOk_of (c := 13) hm (blk13 (by unfold R.HP_IDE_ERR; omega) (by unfold R.HP_IDE_ERR; omega))

theorem R.HP_LINK_DOWN_ok {m : Nat} {i0 : Nat} (hm : Nat.land 1099511627776 m = 1099511627776) : RegOk m (R.HP_LINK_DOWN i0) :=
  regOk_of (c := 13) hm (blk13 (by unfold R.HP_LINK_DOWN; omega) (by unfold R.HP_LINK_DOWN; omega))

theorem R.HP_MBOX_CNT_ok {m : Nat} {i0 : Nat} (hm : Nat.land 1099511627776 m = 1099511627776) : RegOk m (R.HP_MBOX_CNT i0) :=
  regOk_of (c := 13) hm (blk13 (by unfold R.HP_MBOX_CNT; omega) (by unfold R.HP_MBOX_CNT; omega))

theorem R.HP_EVT_DROP_ok {m : Nat} {i0 : Nat} (hm : Nat.land 1099511627776 m = 1099511627776) : RegOk m (R.HP_EVT_DROP i0) :=
  regOk_of (c := 13) hm (blk13 (by unfold R.HP_EVT_DROP; omega) (by unfold R.HP_EVT_DROP; omega))

theorem R.HP_CNT_CLR_ok {m : Nat} {i0 : Nat} (hm : Nat.land 1099511627776 m = 1099511627776) : RegOk m (R.HP_CNT_CLR i0) :=
  regOk_of (c := 13) hm (blk13 (by unfold R.HP_CNT_CLR; omega) (by unfold R.HP_CNT_CLR; omega))

theorem R.HP_LOCK_ok {m : Nat} {i0 : Nat} (hm : Nat.land 1099511627776 m = 1099511627776) : RegOk m (R.HP_LOCK i0) :=
  regOk_of (c := 13) hm (blk13 (by unfold R.HP_LOCK; omega) (by unfold R.HP_LOCK; omega))

theorem R.DC_CTL_ok {m : Nat} {i0 : Nat} (hm : Nat.land 2199023255552 m = 2199023255552) : RegOk m (R.DC_CTL i0) :=
  regOk_of (c := 14) hm (blk14 (by unfold R.DC_CTL; omega) (by unfold R.DC_CTL; omega))

theorem R.DC_STS_ok {m : Nat} {i0 : Nat} (hm : Nat.land 2199023255552 m = 2199023255552) : RegOk m (R.DC_STS i0) :=
  regOk_of (c := 14) hm (blk14 (by unfold R.DC_STS; omega) (by unfold R.DC_STS; omega))

theorem R.DC_CFG_ok {m : Nat} {i0 : Nat} (hm : Nat.land 2199023255552 m = 2199023255552) : RegOk m (R.DC_CFG i0) :=
  regOk_of (c := 14) hm (blk14 (by unfold R.DC_CFG; omega) (by unfold R.DC_CFG; omega))

theorem R.DC_SCRUB_PERIOD_ok {m : Nat} {i0 : Nat} (hm : Nat.land 2199023255552 m = 2199023255552) : RegOk m (R.DC_SCRUB_PERIOD i0) :=
  regOk_of (c := 14) hm (blk14 (by unfold R.DC_SCRUB_PERIOD; omega) (by unfold R.DC_SCRUB_PERIOD; omega))

theorem R.DC_SCRUB_LAG_ok {m : Nat} {i0 : Nat} (hm : Nat.land 2199023255552 m = 2199023255552) : RegOk m (R.DC_SCRUB_LAG i0) :=
  regOk_of (c := 14) hm (blk14 (by unfold R.DC_SCRUB_LAG; omega) (by unfold R.DC_SCRUB_LAG; omega))

theorem R.DC_MR4_ok {m : Nat} {i0 : Nat} (hm : Nat.land 2199023255552 m = 2199023255552) : RegOk m (R.DC_MR4 i0) :=
  regOk_of (c := 14) hm (blk14 (by unfold R.DC_MR4; omega) (by unfold R.DC_MR4; omega))

theorem R.DC_CE_CNT_ok {m : Nat} {i0 : Nat} (hm : Nat.land 2199023255552 m = 2199023255552) : RegOk m (R.DC_CE_CNT i0) :=
  regOk_of (c := 14) hm (blk14 (by unfold R.DC_CE_CNT; omega) (by unfold R.DC_CE_CNT; omega))

theorem R.DC_UE_CNT_ok {m : Nat} {i0 : Nat} (hm : Nat.land 2199023255552 m = 2199023255552) : RegOk m (R.DC_UE_CNT i0) :=
  regOk_of (c := 14) hm (blk14 (by unfold R.DC_UE_CNT; omega) (by unfold R.DC_UE_CNT; omega))

theorem R.DC_RECON_RD_ok {m : Nat} {i0 : Nat} (hm : Nat.land 2199023255552 m = 2199023255552) : RegOk m (R.DC_RECON_RD i0) :=
  regOk_of (c := 14) hm (blk14 (by unfold R.DC_RECON_RD; omega) (by unfold R.DC_RECON_RD; omega))

theorem R.DC_REBUILD_ok {m : Nat} {i0 : Nat} (hm : Nat.land 2199023255552 m = 2199023255552) : RegOk m (R.DC_REBUILD i0) :=
  regOk_of (c := 14) hm (blk14 (by unfold R.DC_REBUILD; omega) (by unfold R.DC_REBUILD; omega))

theorem R.DC_CRC_RETRY_ok {m : Nat} {i0 : Nat} (hm : Nat.land 2199023255552 m = 2199023255552) : RegOk m (R.DC_CRC_RETRY i0) :=
  regOk_of (c := 14) hm (blk14 (by unfold R.DC_CRC_RETRY; omega) (by unfold R.DC_CRC_RETRY; omega))

theorem R.DC_SCRUB_PASS_ok {m : Nat} {i0 : Nat} (hm : Nat.land 2199023255552 m = 2199023255552) : RegOk m (R.DC_SCRUB_PASS i0) :=
  regOk_of (c := 14) hm (blk14 (by unfold R.DC_SCRUB_PASS; omega) (by unfold R.DC_SCRUB_PASS; omega))

theorem R.DC_CNT_CLR_ok {m : Nat} {i0 : Nat} (hm : Nat.land 2199023255552 m = 2199023255552) : RegOk m (R.DC_CNT_CLR i0) :=
  regOk_of (c := 14) hm (blk14 (by unfold R.DC_CNT_CLR; omega) (by unfold R.DC_CNT_CLR; omega))

theorem R.DC_LOCK_ok {m : Nat} {i0 : Nat} (hm : Nat.land 2199023255552 m = 2199023255552) : RegOk m (R.DC_LOCK i0) :=
  regOk_of (c := 14) hm (blk14 (by unfold R.DC_LOCK; omega) (by unfold R.DC_LOCK; omega))

theorem R.PSQ_CTL_ok {m : Nat}  (hm : Nat.land 1073741824 m = 1073741824) : RegOk m (R.PSQ_CTL ) :=
  regOk_of (c := 3) hm rfl

theorem R.PSQ_STS_ok {m : Nat}  (hm : Nat.land 1073741824 m = 1073741824) : RegOk m (R.PSQ_STS ) :=
  regOk_of (c := 3) hm rfl

theorem R.PSQ_RAIL_ok {m : Nat}  (hm : Nat.land 1073741824 m = 1073741824) : RegOk m (R.PSQ_RAIL ) :=
  regOk_of (c := 3) hm rfl

theorem R.PSQ_RAIL_FLT_ok {m : Nat}  (hm : Nat.land 1073741824 m = 1073741824) : RegOk m (R.PSQ_RAIL_FLT ) :=
  regOk_of (c := 3) hm rfl

theorem R.PSQ_IN_CFG_ok {m : Nat}  (hm : Nat.land 1073741824 m = 1073741824) : RegOk m (R.PSQ_IN_CFG ) :=
  regOk_of (c := 3) hm rfl

theorem R.PSQ_RETRY_ok {m : Nat}  (hm : Nat.land 1073741824 m = 1073741824) : RegOk m (R.PSQ_RETRY ) :=
  regOk_of (c := 3) hm rfl

theorem R.PSQ_MARG_CTL_ok {m : Nat}  (hm : Nat.land 1073741824 m = 1073741824) : RegOk m (R.PSQ_MARG_CTL ) :=
  regOk_of (c := 3) hm rfl

theorem R.PSQ_MARG_STS_ok {m : Nat}  (hm : Nat.land 1073741824 m = 1073741824) : RegOk m (R.PSQ_MARG_STS ) :=
  regOk_of (c := 3) hm rfl

theorem R.PSQ_MARG_TO_ok {m : Nat}  (hm : Nat.land 1073741824 m = 1073741824) : RegOk m (R.PSQ_MARG_TO ) :=
  regOk_of (c := 3) hm rfl

theorem R.PSQ_VCORE_ok {m : Nat}  (hm : Nat.land 1073741824 m = 1073741824) : RegOk m (R.PSQ_VCORE ) :=
  regOk_of (c := 3) hm rfl

theorem R.PSQ_UP_US_ok {m : Nat}  (hm : Nat.land 1073741824 m = 1073741824) : RegOk m (R.PSQ_UP_US ) :=
  regOk_of (c := 3) hm rfl

theorem R.PSQ_DRAIN_US_ok {m : Nat}  (hm : Nat.land 1073741824 m = 1073741824) : RegOk m (R.PSQ_DRAIN_US ) :=
  regOk_of (c := 3) hm rfl

theorem R.PSQ_DRAIN_LINES_LO_ok {m : Nat}  (hm : Nat.land 1073741824 m = 1073741824) : RegOk m (R.PSQ_DRAIN_LINES_LO ) :=
  regOk_of (c := 3) hm rfl

theorem R.PSQ_DRAIN_LINES_HI_ok {m : Nat}  (hm : Nat.land 1073741824 m = 1073741824) : RegOk m (R.PSQ_DRAIN_LINES_HI ) :=
  regOk_of (c := 3) hm rfl

theorem R.PSQ_PUP_FAIL_CNT_ok {m : Nat}  (hm : Nat.land 1073741824 m = 1073741824) : RegOk m (R.PSQ_PUP_FAIL_CNT ) :=
  regOk_of (c := 3) hm rfl

theorem R.PSQ_RAIL_FLT_CNT_ok {m : Nat}  (hm : Nat.land 1073741824 m = 1073741824) : RegOk m (R.PSQ_RAIL_FLT_CNT ) :=
  regOk_of (c := 3) hm rfl

theorem R.PSQ_DRAIN_CNT_ok {m : Nat}  (hm : Nat.land 1073741824 m = 1073741824) : RegOk m (R.PSQ_DRAIN_CNT ) :=
  regOk_of (c := 3) hm rfl

theorem R.PSQ_PMB_ERR_ok {m : Nat}  (hm : Nat.land 1073741824 m = 1073741824) : RegOk m (R.PSQ_PMB_ERR ) :=
  regOk_of (c := 3) hm rfl

theorem R.PSQ_CNT_CLR_ok {m : Nat}  (hm : Nat.land 1073741824 m = 1073741824) : RegOk m (R.PSQ_CNT_CLR ) :=
  regOk_of (c := 3) hm rfl

theorem R.PSQ_LOCK_ok {m : Nat}  (hm : Nat.land 1073741824 m = 1073741824) : RegOk m (R.PSQ_LOCK ) :=
  regOk_of (c := 3) hm rfl

theorem R.CIS_CTL_ok {m : Nat}  (hm : Nat.land 1073741824 m = 1073741824) : RegOk m (R.CIS_CTL ) :=
  regOk_of (c := 3) hm rfl

theorem R.CIS_STS_ok {m : Nat}  (hm : Nat.land 1073741824 m = 1073741824) : RegOk m (R.CIS_STS ) :=
  regOk_of (c := 3) hm rfl

theorem R.CIS_V_ok {m : Nat}  (hm : Nat.land 1073741824 m = 1073741824) : RegOk m (R.CIS_V ) :=
  regOk_of (c := 3) hm rfl

theorem R.CIS_C_ok {m : Nat}  (hm : Nat.land 1073741824 m = 1073741824) : RegOk m (R.CIS_C ) :=
  regOk_of (c := 3) hm rfl

theorem R.CIS_ESR_ok {m : Nat}  (hm : Nat.land 1073741824 m = 1073741824) : RegOk m (R.CIS_ESR ) :=
  regOk_of (c := 3) hm rfl

theorem R.CIS_E_ok {m : Nat}  (hm : Nat.land 1073741824 m = 1073741824) : RegOk m (R.CIS_E ) :=
  regOk_of (c := 3) hm rfl

theorem R.CIS_BUDGET_LO_ok {m : Nat}  (hm : Nat.land 1073741824 m = 1073741824) : RegOk m (R.CIS_BUDGET_LO ) :=
  regOk_of (c := 3) hm rfl

theorem R.CIS_BUDGET_HI_ok {m : Nat}  (hm : Nat.land 1073741824 m = 1073741824) : RegOk m (R.CIS_BUDGET_HI ) :=
  regOk_of (c := 3) hm rfl

theorem R.CIS_DIV_ok {m : Nat}  (hm : Nat.land 1073741824 m = 1073741824) : RegOk m (R.CIS_DIV ) :=
  regOk_of (c := 3) hm rfl

theorem R.CIS_VMIN_ok {m : Nat}  (hm : Nat.land 1073741824 m = 1073741824) : RegOk m (R.CIS_VMIN ) :=
  regOk_of (c := 3) hm rfl

theorem R.CIS_VFULL_ok {m : Nat}  (hm : Nat.land 1073741824 m = 1073741824) : RegOk m (R.CIS_VFULL ) :=
  regOk_of (c := 3) hm rfl

theorem R.CIS_ETA_ok {m : Nat}  (hm : Nat.land 1073741824 m = 1073741824) : RegOk m (R.CIS_ETA ) :=
  regOk_of (c := 3) hm rfl

theorem R.CIS_EFIX_ok {m : Nat}  (hm : Nat.land 1073741824 m = 1073741824) : RegOk m (R.CIS_EFIX ) :=
  regOk_of (c := 3) hm rfl

theorem R.CIS_PDRAIN_ok {m : Nat}  (hm : Nat.land 1073741824 m = 1073741824) : RegOk m (R.CIS_PDRAIN ) :=
  regOk_of (c := 3) hm rfl

theorem R.CIS_TEST_I_ok {m : Nat}  (hm : Nat.land 1073741824 m = 1073741824) : RegOk m (R.CIS_TEST_I ) :=
  regOk_of (c := 3) hm rfl

theorem R.CIS_TEST_T_ok {m : Nat}  (hm : Nat.land 1073741824 m = 1073741824) : RegOk m (R.CIS_TEST_T ) :=
  regOk_of (c := 3) hm rfl

theorem R.CIS_TEST_INT_ok {m : Nat}  (hm : Nat.land 1073741824 m = 1073741824) : RegOk m (R.CIS_TEST_INT ) :=
  regOk_of (c := 3) hm rfl

theorem R.CIS_C_MIN_ok {m : Nat}  (hm : Nat.land 1073741824 m = 1073741824) : RegOk m (R.CIS_C_MIN ) :=
  regOk_of (c := 3) hm rfl

theorem R.CIS_ESR_MAX_ok {m : Nat}  (hm : Nat.land 1073741824 m = 1073741824) : RegOk m (R.CIS_ESR_MAX ) :=
  regOk_of (c := 3) hm rfl

theorem R.CIS_CHG_TO_ok {m : Nat}  (hm : Nat.land 1073741824 m = 1073741824) : RegOk m (R.CIS_CHG_TO ) :=
  regOk_of (c := 3) hm rfl

theorem R.CIS_TEST_CNT_ok {m : Nat}  (hm : Nat.land 1073741824 m = 1073741824) : RegOk m (R.CIS_TEST_CNT ) :=
  regOk_of (c := 3) hm rfl

theorem R.CIS_TEST_BAD_CNT_ok {m : Nat}  (hm : Nat.land 1073741824 m = 1073741824) : RegOk m (R.CIS_TEST_BAD_CNT ) :=
  regOk_of (c := 3) hm rfl

theorem R.CIS_DEFER_CNT_ok {m : Nat}  (hm : Nat.land 1073741824 m = 1073741824) : RegOk m (R.CIS_DEFER_CNT ) :=
  regOk_of (c := 3) hm rfl

theorem R.CIS_CNT_CLR_ok {m : Nat}  (hm : Nat.land 1073741824 m = 1073741824) : RegOk m (R.CIS_CNT_CLR ) :=
  regOk_of (c := 3) hm rfl

theorem R.HK_CTL_ok {m : Nat}  (hm : Nat.land 2147483648 m = 2147483648) : RegOk m (R.HK_CTL ) :=
  regOk_of (c := 4) hm rfl

theorem R.HK_STS_ok {m : Nat}  (hm : Nat.land 2147483648 m = 2147483648) : RegOk m (R.HK_STS ) :=
  regOk_of (c := 4) hm rfl

theorem R.HK_TRIP_ok {m : Nat}  (hm : Nat.land 2147483648 m = 2147483648) : RegOk m (R.HK_TRIP ) :=
  regOk_of (c := 4) hm rfl

theorem R.HK_THR_ok {m : Nat}  (hm : Nat.land 2147483648 m = 2147483648) : RegOk m (R.HK_THR ) :=
  regOk_of (c := 4) hm rfl

theorem R.HK_ROR_LIM_ok {m : Nat}  (hm : Nat.land 2147483648 m = 2147483648) : RegOk m (R.HK_ROR_LIM ) :=
  regOk_of (c := 4) hm rfl

theorem R.HK_MZ_THR_ok {m : Nat}  (hm : Nat.land 2147483648 m = 2147483648) : RegOk m (R.HK_MZ_THR ) :=
  regOk_of (c := 4) hm rfl

theorem R.HK_TH_B_ok {m : Nat}  (hm : Nat.land 2147483648 m = 2147483648) : RegOk m (R.HK_TH_B ) :=
  regOk_of (c := 4) hm rfl

theorem R.HK_TH_NOM_ok {m : Nat}  (hm : Nat.land 2147483648 m = 2147483648) : RegOk m (R.HK_TH_NOM ) :=
  regOk_of (c := 4) hm rfl

theorem R.HK_EXCL_ok {m : Nat}  (hm : Nat.land 2147483648 m = 2147483648) : RegOk m (R.HK_EXCL ) :=
  regOk_of (c := 4) hm rfl

theorem R.HK_READMIT_ok {m : Nat}  (hm : Nat.land 2147483648 m = 2147483648) : RegOk m (R.HK_READMIT ) :=
  regOk_of (c := 4) hm rfl

theorem R.HK_HOT_ok {m : Nat}  (hm : Nat.land 2147483648 m = 2147483648) : RegOk m (R.HK_HOT ) :=
  regOk_of (c := 4) hm rfl

theorem R.HK_ROR_ok {m : Nat}  (hm : Nat.land 2147483648 m = 2147483648) : RegOk m (R.HK_ROR ) :=
  regOk_of (c := 4) hm rfl

theorem R.HK_ROUND_CNT_ok {m : Nat}  (hm : Nat.land 2147483648 m = 2147483648) : RegOk m (R.HK_ROUND_CNT ) :=
  regOk_of (c := 4) hm rfl

theorem R.HK_THROT_CNT_ok {m : Nat}  (hm : Nat.land 2147483648 m = 2147483648) : RegOk m (R.HK_THROT_CNT ) :=
  regOk_of (c := 4) hm rfl

theorem R.HK_EXCL_CNT_ok {m : Nat}  (hm : Nat.land 2147483648 m = 2147483648) : RegOk m (R.HK_EXCL_CNT ) :=
  regOk_of (c := 4) hm rfl

theorem R.HK_TRIP_CNT_ok {m : Nat}  (hm : Nat.land 2147483648 m = 2147483648) : RegOk m (R.HK_TRIP_CNT ) :=
  regOk_of (c := 4) hm rfl

theorem R.HK_CNT_CLR_ok {m : Nat}  (hm : Nat.land 2147483648 m = 2147483648) : RegOk m (R.HK_CNT_CLR ) :=
  regOk_of (c := 4) hm rfl

theorem R.HK_LOCK_ok {m : Nat}  (hm : Nat.land 2147483648 m = 2147483648) : RegOk m (R.HK_LOCK ) :=
  regOk_of (c := 4) hm rfl

theorem R.HK_CH_ok {m : Nat} {i0 : Nat} (hm : Nat.land 2147483648 m = 2147483648) : RegOk m (R.HK_CH i0) :=
  regOk_of (c := 4) hm (blk4 (by unfold R.HK_CH; omega) (by unfold R.HK_CH; omega))

theorem R.HK_RS_DIV_ok {m : Nat} {i0 : Nat} (hm : Nat.land 2147483648 m = 2147483648) : RegOk m (R.HK_RS_DIV i0) :=
  regOk_of (c := 4) hm (blk4 (by unfold R.HK_RS_DIV; omega) (by unfold R.HK_RS_DIV; omega))

theorem R.PST_CTL_ok {m : Nat}  (hm : Nat.land 4294967296 m = 4294967296) : RegOk m (R.PST_CTL ) :=
  regOk_of (c := 5) hm rfl

theorem R.PST_STS_ok {m : Nat}  (hm : Nat.land 4294967296 m = 4294967296) : RegOk m (R.PST_STS ) :=
  regOk_of (c := 5) hm rfl

theorem R.PST_CMD_ok {m : Nat}  (hm : Nat.land 4294967296 m = 4294967296) : RegOk m (R.PST_CMD ) :=
  regOk_of (c := 5) hm rfl

theorem R.PST_ROW_ok {m : Nat}  (hm : Nat.land 4294967296 m = 4294967296) : RegOk m (R.PST_ROW ) :=
  regOk_of (c := 5) hm rfl

theorem R.PST_AUX_MIN_ok {m : Nat}  (hm : Nat.land 4294967296 m = 4294967296) : RegOk m (R.PST_AUX_MIN ) :=
  regOk_of (c := 5) hm rfl

theorem R.PST_SUPPLY_ok {m : Nat}  (hm : Nat.land 4294967296 m = 4294967296) : RegOk m (R.PST_SUPPLY ) :=
  regOk_of (c := 5) hm rfl

theorem R.PST_CNT_SEL_ok {m : Nat}  (hm : Nat.land 4294967296 m = 4294967296) : RegOk m (R.PST_CNT_SEL ) :=
  regOk_of (c := 5) hm rfl

theorem R.PST_CNT_VAL_ok {m : Nat}  (hm : Nat.land 4294967296 m = 4294967296) : RegOk m (R.PST_CNT_VAL ) :=
  regOk_of (c := 5) hm rfl

theorem R.PST_PATROL_ROW_ok {m : Nat}  (hm : Nat.land 4294967296 m = 4294967296) : RegOk m (R.PST_PATROL_ROW ) :=
  regOk_of (c := 5) hm rfl

theorem R.PST_WEAK_CNT_ok {m : Nat}  (hm : Nat.land 4294967296 m = 4294967296) : RegOk m (R.PST_WEAK_CNT ) :=
  regOk_of (c := 5) hm rfl

theorem R.PST_WR_FAIL_ok {m : Nat}  (hm : Nat.land 4294967296 m = 4294967296) : RegOk m (R.PST_WR_FAIL ) :=
  regOk_of (c := 5) hm rfl

theorem R.PST_SUPPLY_FAIL_ok {m : Nat}  (hm : Nat.land 4294967296 m = 4294967296) : RegOk m (R.PST_SUPPLY_FAIL ) :=
  regOk_of (c := 5) hm rfl

theorem R.PST_CNT_CLR_ok {m : Nat}  (hm : Nat.land 4294967296 m = 4294967296) : RegOk m (R.PST_CNT_CLR ) :=
  regOk_of (c := 5) hm rfl

theorem R.PST_LOCK_ok {m : Nat}  (hm : Nat.land 4294967296 m = 4294967296) : RegOk m (R.PST_LOCK ) :=
  regOk_of (c := 5) hm rfl

theorem R.PST_WIN_ok {m : Nat} {i0 : Nat} (hm : Nat.land 4294967296 m = 4294967296) : RegOk m (R.PST_WIN i0) :=
  regOk_of (c := 5) hm (blk5 (by unfold R.PST_WIN; omega) (by unfold R.PST_WIN; omega))

theorem R.PST_STG_ok {m : Nat} {i0 : Nat} (hm : Nat.land 4294967296 m = 4294967296) : RegOk m (R.PST_STG i0) :=
  regOk_of (c := 5) hm (blk5 (by unfold R.PST_STG; omega) (by unfold R.PST_STG; omega))

theorem R.RB_STS_ok {m : Nat} : RegOk m R.RB_STS := .inl rfl

theorem R.RB_HEAD_ok {m : Nat} : RegOk m R.RB_HEAD := .inl rfl

theorem R.RB_TAIL_ok {m : Nat} : RegOk m R.RB_TAIL := .inl rfl

theorem R.RB_COUNT_ok {m : Nat} : RegOk m R.RB_COUNT := .inl rfl

theorem R.RB_OPEN_REPEAT_ok {m : Nat} : RegOk m R.RB_OPEN_REPEAT := .inl rfl

theorem R.RB_DROPPED_ok {m : Nat} : RegOk m R.RB_DROPPED := .inl rfl

theorem R.RB_SEL_ok {m : Nat} : RegOk m R.RB_SEL := .inl rfl

theorem R.RB_CNT_CLR_ok {m : Nat} : RegOk m R.RB_CNT_CLR := .inl rfl

theorem R.RB_REC_ok {m : Nat} {i0 : Nat} : RegOk m (R.RB_REC i0) := .inl (by unfold R.RB_REC bookReg pageOf; simp <;> omega)

theorem R.FLT_STS_ok {m : Nat} {i0 : Nat} : RegOk m (R.FLT_STS i0) := .inl (by unfold R.FLT_STS bookReg pageOf; simp <;> omega)

theorem R.FLT_MASK_ok {m : Nat} {i0 : Nat} (hm : Nat.land 134217728 m = 134217728) : RegOk m (R.FLT_MASK i0) :=
  regOk_of (c := 0) hm (blk0 (by unfold R.FLT_MASK; omega))

theorem R.FLT_FORCE_ok {m : Nat} {i0 : Nat} (hm : Nat.land 134217728 m = 134217728) : RegOk m (R.FLT_FORCE i0) :=
  regOk_of (c := 0) hm (blk0 (by unfold R.FLT_FORCE; omega))

theorem R.FLT_SEV_ok {m : Nat} {i0 : Nat} (hm : Nat.land 134217728 m = 134217728) : RegOk m (R.FLT_SEV i0) :=
  regOk_of (c := 0) hm (blk0 (by unfold R.FLT_SEV; omega))

theorem R.FLT_TIMER_ok {m : Nat} {i0 : Nat} (hm : Nat.land 134217728 m = 134217728) : RegOk m (R.FLT_TIMER i0) :=
  regOk_of (c := 0) hm (blk0 (by unfold R.FLT_TIMER; omega))

theorem R.FLT_DETAIL_ok {m : Nat} {i0 : Nat} : RegOk m (R.FLT_DETAIL i0) := .inl (by unfold R.FLT_DETAIL bookReg pageOf; simp <;> omega)

theorem R.FC_CTL_ok {m : Nat} : RegOk m R.FC_CTL := .inl rfl

theorem R.FC_STS_ok {m : Nat} : RegOk m R.FC_STS := .inl rfl

theorem R.FC_FIRST_ok {m : Nat} : RegOk m R.FC_FIRST := .inl rfl

theorem R.FC_FIRST_TICK_LO_ok {m : Nat} : RegOk m R.FC_FIRST_TICK_LO := .inl rfl

theorem R.FC_FIRST_TICK_HI_ok {m : Nat} : RegOk m R.FC_FIRST_TICK_HI := .inl rfl

theorem R.FC_ESC_T2_ok {m : Nat} : RegOk m R.FC_ESC_T2 := .inl rfl

theorem R.FC_ESC_T3_ok {m : Nat} : RegOk m R.FC_ESC_T3 := .inl rfl

theorem R.FC_DRAIN_LIM_ok {m : Nat} : RegOk m R.FC_DRAIN_LIM := .inl rfl

theorem R.FC_SRC_SEL_ok {m : Nat} : RegOk m R.FC_SRC_SEL := .inl rfl

theorem R.FC_SRC_INFO_ok {m : Nat} : RegOk m R.FC_SRC_INFO := .inl rfl

theorem R.FC_ACK_ok {m : Nat} : RegOk m R.FC_ACK := .inl rfl

theorem R.FC_RESOLVE_ok {m : Nat} : RegOk m R.FC_RESOLVE := .inl rfl

theorem R.FC_ESC_ok {m : Nat} : RegOk m R.FC_ESC := .inl rfl

theorem R.FC_REVOKE_ok {m : Nat} : RegOk m R.FC_REVOKE := .inl rfl

theorem R.FC_REV_STS_ok {m : Nat} : RegOk m R.FC_REV_STS := .inl rfl

theorem R.FC_UNFENCE_ok {m : Nat} : RegOk m R.FC_UNFENCE := .inl rfl

theorem R.FC_PROC_BEAT_ok {m : Nat} : RegOk m R.FC_PROC_BEAT := .inl rfl

theorem R.FC_SEEN_ok {m : Nat} {i0 : Nat} : RegOk m (R.FC_SEEN i0) := .inl (by unfold R.FC_SEEN bookReg pageOf; simp <;> omega)

theorem R.FC_ACTIVE_ok {m : Nat} {i0 : Nat} : RegOk m (R.FC_ACTIVE i0) := .inl (by unfold R.FC_ACTIVE bookReg pageOf; simp <;> omega)

theorem R.FC_CNT_SEV_ok {m : Nat} {i0 : Nat} : RegOk m (R.FC_CNT_SEV i0) := .inl (by unfold R.FC_CNT_SEV bookReg pageOf; simp <;> omega)

theorem R.FC_ESC_CNT_ok {m : Nat} : RegOk m R.FC_ESC_CNT := .inl rfl

theorem R.FC_REVOKE_CNT_ok {m : Nat} : RegOk m R.FC_REVOKE_CNT := .inl rfl

theorem R.FC_WIRE_CNT_ok {m : Nat} : RegOk m R.FC_WIRE_CNT := .inl rfl

theorem R.FC_CONTAIN_CNT_ok {m : Nat} : RegOk m R.FC_CONTAIN_CNT := .inl rfl

theorem R.FC_CNT_CLR_ok {m : Nat} : RegOk m R.FC_CNT_CLR := .inl rfl

theorem R.FC_LOCK_ok {m : Nat} : RegOk m R.FC_LOCK := .inl rfl

theorem R.MQ_CFG_ok {m : Nat} {i0 : Nat} (hm : Nat.land 70368744177664 m = 70368744177664) : RegOk m (R.MQ_CFG i0) :=
  regOk_of (c := 19) hm (blk19 (by unfold R.MQ_CFG; omega) (by unfold R.MQ_CFG; omega))

theorem R.MQ_CTL_ok {m : Nat} {i0 : Nat} (hm : Nat.land 70368744177664 m = 70368744177664) : RegOk m (R.MQ_CTL i0) :=
  regOk_of (c := 19) hm (blk19 (by unfold R.MQ_CTL; omega) (by unfold R.MQ_CTL; omega))

theorem R.MQ_STS_ok {m : Nat} {i0 : Nat} (hm : Nat.land 70368744177664 m = 70368744177664) : RegOk m (R.MQ_STS i0) :=
  regOk_of (c := 19) hm (blk19 (by unfold R.MQ_STS; omega) (by unfold R.MQ_STS; omega))

theorem R.MQ_PKTS_ok {m : Nat} {i0 : Nat} (hm : Nat.land 70368744177664 m = 70368744177664) : RegOk m (R.MQ_PKTS i0) :=
  regOk_of (c := 19) hm (blk19 (by unfold R.MQ_PKTS; omega) (by unfold R.MQ_PKTS; omega))

theorem R.MQ_SPACE_ok {m : Nat} {i0 : Nat} (hm : Nat.land 70368744177664 m = 70368744177664) : RegOk m (R.MQ_SPACE i0) :=
  regOk_of (c := 19) hm (blk19 (by unfold R.MQ_SPACE; omega) (by unfold R.MQ_SPACE; omega))

theorem R.MQ_PUSH_LO_ok {m : Nat} {i0 : Nat} (hm : Nat.land 70368744177664 m = 70368744177664) : RegOk m (R.MQ_PUSH_LO i0) :=
  regOk_of (c := 19) hm (blk19 (by unfold R.MQ_PUSH_LO; omega) (by unfold R.MQ_PUSH_LO; omega))

theorem R.MQ_PUSH_HI_ok {m : Nat} {i0 : Nat} (hm : Nat.land 70368744177664 m = 70368744177664) : RegOk m (R.MQ_PUSH_HI i0) :=
  regOk_of (c := 19) hm (blk19 (by unfold R.MQ_PUSH_HI; omega) (by unfold R.MQ_PUSH_HI; omega))

theorem R.MQ_PUSH_HI_END_ok {m : Nat} {i0 : Nat} (hm : Nat.land 70368744177664 m = 70368744177664) : RegOk m (R.MQ_PUSH_HI_END i0) :=
  regOk_of (c := 19) hm (blk19 (by unfold R.MQ_PUSH_HI_END; omega) (by unfold R.MQ_PUSH_HI_END; omega))

theorem R.MQ_POP_LO_ok {m : Nat} {i0 : Nat} (hm : Nat.land 70368744177664 m = 70368744177664) : RegOk m (R.MQ_POP_LO i0) :=
  regOk_of (c := 19) hm (blk19 (by unfold R.MQ_POP_LO; omega) (by unfold R.MQ_POP_LO; omega))

theorem R.MQ_POP_HI_ok {m : Nat} {i0 : Nat} (hm : Nat.land 70368744177664 m = 70368744177664) : RegOk m (R.MQ_POP_HI i0) :=
  regOk_of (c := 19) hm (blk19 (by unfold R.MQ_POP_HI; omega) (by unfold R.MQ_POP_HI; omega))

theorem R.MQ_POP_FLG_ok {m : Nat} {i0 : Nat} (hm : Nat.land 70368744177664 m = 70368744177664) : RegOk m (R.MQ_POP_FLG i0) :=
  regOk_of (c := 19) hm (blk19 (by unfold R.MQ_POP_FLG; omega) (by unfold R.MQ_POP_FLG; omega))

theorem R.MQ_DROP_PKT_ok {m : Nat} {i0 : Nat} (hm : Nat.land 70368744177664 m = 70368744177664) : RegOk m (R.MQ_DROP_PKT i0) :=
  regOk_of (c := 19) hm (blk19 (by unfold R.MQ_DROP_PKT; omega) (by unfold R.MQ_DROP_PKT; omega))

theorem R.MQ_PTR_CNT_ok {m : Nat} {i0 : Nat} (hm : Nat.land 70368744177664 m = 70368744177664) : RegOk m (R.MQ_PTR_CNT i0) :=
  regOk_of (c := 19) hm (blk19 (by unfold R.MQ_PTR_CNT; omega) (by unfold R.MQ_PTR_CNT; omega))

theorem R.MQ_CNT_CLR_ok {m : Nat} {i0 : Nat} (hm : Nat.land 70368744177664 m = 70368744177664) : RegOk m (R.MQ_CNT_CLR i0) :=
  regOk_of (c := 19) hm (blk19 (by unfold R.MQ_CNT_CLR; omega) (by unfold R.MQ_CNT_CLR; omega))

theorem R.MQ_LOCK_ok {m : Nat} {i0 : Nat} (hm : Nat.land 70368744177664 m = 70368744177664) : RegOk m (R.MQ_LOCK i0) :=
  regOk_of (c := 19) hm (blk19 (by unfold R.MQ_LOCK; omega) (by unfold R.MQ_LOCK; omega))

theorem R.TST_PC_CTL_ok {m : Nat}  (hm : Nat.land 140737488355328 m = 140737488355328) : RegOk m (R.TST_PC_CTL ) :=
  regOk_of (c := 20) hm rfl

theorem R.TST_PHY_CTL_ok {m : Nat}  (hm : Nat.land 140737488355328 m = 140737488355328) : RegOk m (R.TST_PHY_CTL ) :=
  regOk_of (c := 20) hm rfl

theorem R.TST_LANE_SEL_ok {m : Nat}  (hm : Nat.land 140737488355328 m = 140737488355328) : RegOk m (R.TST_LANE_SEL ) :=
  regOk_of (c := 20) hm rfl

theorem R.TST_PAT_CTL_ok {m : Nat}  (hm : Nat.land 140737488355328 m = 140737488355328) : RegOk m (R.TST_PAT_CTL ) :=
  regOk_of (c := 20) hm rfl

theorem R.TST_PAT_STS_ok {m : Nat}  (hm : Nat.land 140737488355328 m = 140737488355328) : RegOk m (R.TST_PAT_STS ) :=
  regOk_of (c := 20) hm rfl

theorem R.TST_PAT_ERR_ok {m : Nat}  (hm : Nat.land 140737488355328 m = 140737488355328) : RegOk m (R.TST_PAT_ERR ) :=
  regOk_of (c := 20) hm rfl

theorem R.TST_PAT_BITS_LO_ok {m : Nat}  (hm : Nat.land 140737488355328 m = 140737488355328) : RegOk m (R.TST_PAT_BITS_LO ) :=
  regOk_of (c := 20) hm rfl

theorem R.TST_PAT_BITS_HI_ok {m : Nat}  (hm : Nat.land 140737488355328 m = 140737488355328) : RegOk m (R.TST_PAT_BITS_HI ) :=
  regOk_of (c := 20) hm rfl

theorem R.TST_MARG_CTL_ok {m : Nat}  (hm : Nat.land 140737488355328 m = 140737488355328) : RegOk m (R.TST_MARG_CTL ) :=
  regOk_of (c := 20) hm rfl

theorem R.TST_MARG_STS_ok {m : Nat}  (hm : Nat.land 140737488355328 m = 140737488355328) : RegOk m (R.TST_MARG_STS ) :=
  regOk_of (c := 20) hm rfl

theorem R.BOOT_STS_ok {m : Nat}  (hm : Nat.land 268435456 m = 268435456) : RegOk m (R.BOOT_STS ) :=
  regOk_of (c := 1) hm rfl

theorem R.BOOT_CTL_ok {m : Nat}  (hm : Nat.land 268435456 m = 268435456) : RegOk m (R.BOOT_CTL ) :=
  regOk_of (c := 1) hm rfl

theorem R.BOOT_MS_MAP_ok {m : Nat}  (hm : Nat.land 268435456 m = 268435456) : RegOk m (R.BOOT_MS_MAP ) :=
  regOk_of (c := 1) hm rfl

theorem R.BOOT_MS_ACTIVE_ok {m : Nat}  (hm : Nat.land 268435456 m = 268435456) : RegOk m (R.BOOT_MS_ACTIVE ) :=
  regOk_of (c := 1) hm rfl

theorem R.BOOT_RST_CNT_ok {m : Nat}  (hm : Nat.land 268435456 m = 268435456) : RegOk m (R.BOOT_RST_CNT ) :=
  regOk_of (c := 1) hm rfl

theorem R.DEV_MODE_ok {m : Nat}  (hm : Nat.land 268435456 m = 268435456) : RegOk m (R.DEV_MODE ) :=
  regOk_of (c := 1) hm rfl

theorem R.PG_TYPE_ok {m : Nat} {i0 : Nat} (hm : Nat.land 134217728 m = 134217728) : RegOk m (R.PG_TYPE i0) :=
  regOk_of (c := 0) hm (blk0 (by unfold R.PG_TYPE; omega))

theorem R.PG_INST_ok {m : Nat} {i0 : Nat} (hm : Nat.land 134217728 m = 134217728) : RegOk m (R.PG_INST i0) :=
  regOk_of (c := 0) hm (blk0 (by unfold R.PG_INST; omega))

theorem R.PG_CTL_ok {m : Nat} {i0 : Nat} (hm : Nat.land 134217728 m = 134217728) : RegOk m (R.PG_CTL i0) :=
  regOk_of (c := 0) hm (blk0 (by unfold R.PG_CTL; omega))

theorem R.PG_STS_ok {m : Nat} {i0 : Nat} (hm : Nat.land 134217728 m = 134217728) : RegOk m (R.PG_STS i0) :=
  regOk_of (c := 0) hm (blk0 (by unfold R.PG_STS; omega))

theorem R.PC_TICK_ok {m : Nat} {i0 : Nat} {i1 : Nat} (hm : Nat.land 134217728 m = 134217728) : RegOk m (R.PC_TICK i0 i1) :=
  regOk_of (c := 0) hm (blk0 (by unfold R.PC_TICK; omega))

theorem R.PC_SEL_ok {m : Nat} {i0 : Nat} {i1 : Nat} (hm : Nat.land 134217728 m = 134217728) : RegOk m (R.PC_SEL i0 i1) :=
  regOk_of (c := 0) hm (blk0 (by unfold R.PC_SEL; omega))

theorem R.PC_CNT_ok {m : Nat} {i0 : Nat} {i1 : Nat} : RegOk m (R.PC_CNT i0 i1) := .inl (by unfold R.PC_CNT bookReg pageOf; simp <;> omega)

theorem R.PC_WIN_CTL_ok {m : Nat} {i0 : Nat} : RegOk m (R.PC_WIN_CTL i0) := .inl (by unfold R.PC_WIN_CTL bookReg pageOf; simp <;> omega)

theorem R.DEV_ID_ok {m : Nat}  (hm : Nat.land 268435456 m = 268435456) : RegOk m (R.DEV_ID ) :=
  regOk_of (c := 1) hm rfl

theorem R.DEV_REV_ok {m : Nat}  (hm : Nat.land 268435456 m = 268435456) : RegOk m (R.DEV_REV ) :=
  regOk_of (c := 1) hm rfl

theorem R.DEV_SN_LO_ok {m : Nat}  (hm : Nat.land 268435456 m = 268435456) : RegOk m (R.DEV_SN_LO ) :=
  regOk_of (c := 1) hm rfl

theorem R.DEV_SN_HI_ok {m : Nat}  (hm : Nat.land 268435456 m = 268435456) : RegOk m (R.DEV_SN_HI ) :=
  regOk_of (c := 1) hm rfl

theorem R.DEV_CAP_ok {m : Nat}  (hm : Nat.land 268435456 m = 268435456) : RegOk m (R.DEV_CAP ) :=
  regOk_of (c := 1) hm rfl

theorem R.DEV_LOCK_ALL_ok {m : Nat}  (hm : Nat.land 268435456 m = 268435456) : RegOk m (R.DEV_LOCK_ALL ) :=
  regOk_of (c := 1) hm rfl

theorem R.DEV_LOCK_ok {m : Nat}  (hm : Nat.land 268435456 m = 268435456) : RegOk m (R.DEV_LOCK ) :=
  regOk_of (c := 1) hm rfl

theorem R.OOB_ADDR_ok {m : Nat}  (hm : Nat.land 268435456 m = 268435456) : RegOk m (R.OOB_ADDR ) :=
  regOk_of (c := 1) hm rfl

theorem R.CORE_STS_ok {m : Nat} {i0 : Nat} (hm : Nat.land 35184372088832 m = 35184372088832) : RegOk m (R.CORE_STS i0) :=
  regOk_of (c := 18) hm (blk18 (by unfold R.CORE_STS; omega) (by unfold R.CORE_STS; omega))

theorem R.CORE_CE_CNT_ok {m : Nat} {i0 : Nat} (hm : Nat.land 35184372088832 m = 35184372088832) : RegOk m (R.CORE_CE_CNT i0) :=
  regOk_of (c := 18) hm (blk18 (by unfold R.CORE_CE_CNT; omega) (by unfold R.CORE_CE_CNT; omega))

theorem R.CORE_UE_CNT_ok {m : Nat} {i0 : Nat} (hm : Nat.land 35184372088832 m = 35184372088832) : RegOk m (R.CORE_UE_CNT i0) :=
  regOk_of (c := 18) hm (blk18 (by unfold R.CORE_UE_CNT; omega) (by unfold R.CORE_UE_CNT; omega))

theorem R.CORE_LEASES_ok {m : Nat} {i0 : Nat} (hm : Nat.land 35184372088832 m = 35184372088832) : RegOk m (R.CORE_LEASES i0) :=
  regOk_of (c := 18) hm (blk18 (by unfold R.CORE_LEASES; omega) (by unfold R.CORE_LEASES; omega))

theorem R.CORE_CNT_CLR_ok {m : Nat} {i0 : Nat} (hm : Nat.land 35184372088832 m = 35184372088832) : RegOk m (R.CORE_CNT_CLR i0) :=
  regOk_of (c := 18) hm (blk18 (by unfold R.CORE_CNT_CLR; omega) (by unfold R.CORE_CNT_CLR; omega))

theorem ideFld_ok {m p : Nat} {b : Bool} (hm : Nat.land (2 ^ 40) m = 2 ^ 40) : RegOk m (ideFld p b).off := by
  unfold ideFld
  split <;> exact R.HP_STS_ok hm

theorem upd_arch {m : Nat} {x s : State} {v_arch : ArchSt} (hm : Nat.land 4194304 m = 4194304) (h : Same m x s) :
    Same m x (State.mk s.pending s.out s.freeCtr s.regs s.tick s.refclk s.dom s.opSecs s.pst s.rb s.fc s.rt s.lc s.te s.ce s.hp s.tw s.dc s.md s.mcTry s.sir s.hk v_arch s.psq s.boot s.mq s.tst) :=
  ⟨h.pending, h.out, h.freeCtr, h.regs, h.tick, h.refclk, h.dom, h.opSecs, h.pst, h.rb, h.fc, h.rt, h.lc, h.te, h.ce, h.hp, h.tw, h.dc, h.md, h.mcTry, h.sir, h.hk, no_bit hm rfl, h.psq, h.boot, h.mq, h.tst, h.own⟩

theorem upd_arch_psq {m : Nat} {x s : State} {v_arch : ArchSt} {v_psq : PsqSt} (hm : Nat.land 12582912 m = 12582912) (h : Same m x s) :
    Same m x (State.mk s.pending s.out s.freeCtr s.regs s.tick s.refclk s.dom s.opSecs s.pst s.rb s.fc s.rt s.lc s.te s.ce s.hp s.tw s.dc s.md s.mcTry s.sir s.hk v_arch v_psq s.boot s.mq s.tst) :=
  ⟨h.pending, h.out, h.freeCtr, h.regs, h.tick, h.refclk, h.dom, h.opSecs, h.pst, h.rb, h.fc, h.rt, h.lc, h.te, h.ce, h.hp, h.tw, h.dc, h.md, h.mcTry, h.sir, h.hk, no_bit hm rfl, no_bit hm rfl, h.boot, h.mq, h.tst, h.own⟩

theorem upd_boot {m : Nat} {x s : State} {v_boot : BootSt} (hm : Nat.land 16777216 m = 16777216) (h : Same m x s) :
    Same m x (State.mk s.pending s.out s.freeCtr s.regs s.tick s.refclk s.dom s.opSecs s.pst s.rb s.fc s.rt s.lc s.te s.ce s.hp s.tw s.dc s.md s.mcTry s.sir s.hk s.arch s.psq v_boot s.mq s.tst) :=
  ⟨h.pending, h.out, h.freeCtr, h.regs, h.tick, h.refclk, h.dom, h.opSecs, h.pst, h.rb, h.fc, h.rt, h.lc, h.te, h.ce, h.hp, h.tw, h.dc, h.md, h.mcTry, h.sir, h.hk, h.arch, h.psq, no_bit hm rfl, h.mq, h.tst, h.own⟩

theorem upd_ce {m : Nat} {x s : State} {v_ce : CeSt} (hm : Nat.land 16384 m = 16384) (h : Same m x s) :
    Same m x (State.mk s.pending s.out s.freeCtr s.regs s.tick s.refclk s.dom s.opSecs s.pst s.rb s.fc s.rt s.lc s.te v_ce s.hp s.tw s.dc s.md s.mcTry s.sir s.hk s.arch s.psq s.boot s.mq s.tst) :=
  ⟨h.pending, h.out, h.freeCtr, h.regs, h.tick, h.refclk, h.dom, h.opSecs, h.pst, h.rb, h.fc, h.rt, h.lc, h.te, no_bit hm rfl, h.hp, h.tw, h.dc, h.md, h.mcTry, h.sir, h.hk, h.arch, h.psq, h.boot, h.mq, h.tst, h.own⟩

theorem upd_dc {m : Nat} {x s : State} {v_dc : DcSt} (hm : Nat.land 131072 m = 131072) (h : Same m x s) :
    Same m x (State.mk s.pending s.out s.freeCtr s.regs s.tick s.refclk s.dom s.opSecs s.pst s.rb s.fc s.rt s.lc s.te s.ce s.hp s.tw v_dc s.md s.mcTry s.sir s.hk s.arch s.psq s.boot s.mq s.tst) :=
  ⟨h.pending, h.out, h.freeCtr, h.regs, h.tick, h.refclk, h.dom, h.opSecs, h.pst, h.rb, h.fc, h.rt, h.lc, h.te, h.ce, h.hp, h.tw, no_bit hm rfl, h.md, h.mcTry, h.sir, h.hk, h.arch, h.psq, h.boot, h.mq, h.tst, h.own⟩

theorem upd_dom {m : Nat} {x s : State} {v_dom : DomSt} (hm : Nat.land 64 m = 64) (h : Same m x s) :
    Same m x (State.mk s.pending s.out s.freeCtr s.regs s.tick s.refclk v_dom s.opSecs s.pst s.rb s.fc s.rt s.lc s.te s.ce s.hp s.tw s.dc s.md s.mcTry s.sir s.hk s.arch s.psq s.boot s.mq s.tst) :=
  ⟨h.pending, h.out, h.freeCtr, h.regs, h.tick, h.refclk, no_bit hm rfl, h.opSecs, h.pst, h.rb, h.fc, h.rt, h.lc, h.te, h.ce, h.hp, h.tw, h.dc, h.md, h.mcTry, h.sir, h.hk, h.arch, h.psq, h.boot, h.mq, h.tst, h.own⟩

theorem upd_dom_boot {m : Nat} {x s : State} {v_dom : DomSt} {v_boot : BootSt} (hm : Nat.land 16777280 m = 16777280) (h : Same m x s) :
    Same m x (State.mk s.pending s.out s.freeCtr s.regs s.tick s.refclk v_dom s.opSecs s.pst s.rb s.fc s.rt s.lc s.te s.ce s.hp s.tw s.dc s.md s.mcTry s.sir s.hk s.arch s.psq v_boot s.mq s.tst) :=
  ⟨h.pending, h.out, h.freeCtr, h.regs, h.tick, h.refclk, no_bit hm rfl, h.opSecs, h.pst, h.rb, h.fc, h.rt, h.lc, h.te, h.ce, h.hp, h.tw, h.dc, h.md, h.mcTry, h.sir, h.hk, h.arch, h.psq, no_bit hm rfl, h.mq, h.tst, h.own⟩

theorem upd_dom_fc_rt_ce_hp_tw_dc_mcTry_sir_hk_arch_boot_mq_tst {m : Nat} {x s : State} {v_dom : DomSt} {v_fc : FcSt} {v_rt : RtSt} {v_ce : CeSt} {v_hp : HpSt} {v_tw : TwSt} {v_dc : DcSt} {v_mcTry : List Nat} {v_sir : SirSt} {v_hk : HkSt} {v_arch : ArchSt} {v_boot : BootSt} {v_mq : Sparse Mq} {v_tst : TstSt} (hm : Nat.land 125553728 m = 125553728) (h : Same m x s) :
    Same m x (State.mk s.pending s.out s.freeCtr s.regs s.tick s.refclk v_dom s.opSecs s.pst s.rb v_fc v_rt s.lc s.te v_ce v_hp v_tw v_dc s.md v_mcTry v_sir v_hk v_arch s.psq v_boot v_mq v_tst) :=
  ⟨h.pending, h.out, h.freeCtr, h.regs, h.tick, h.refclk, no_bit hm rfl, h.opSecs, h.pst, h.rb, no_bit hm rfl, no_bit hm rfl, h.lc, h.te, no_bit hm rfl, no_bit hm rfl, no_bit hm rfl, no_bit hm rfl, h.md, no_bit hm rfl, no_bit hm rfl, no_bit hm rfl, no_bit hm rfl, h.psq, no_bit hm rfl, no_bit hm rfl, no_bit hm rfl, h.own⟩

theorem upd_fc {m : Nat} {x s : State} {v_fc : FcSt} (hm : Nat.land 1024 m = 1024) (h : Same m x s) :
    Same m x (State.mk s.pending s.out s.freeCtr s.regs s.tick s.refclk s.dom s.opSecs s.pst s.rb v_fc s.rt s.lc s.te s.ce s.hp s.tw s.dc s.md s.mcTry s.sir s.hk s.arch s.psq s.boot s.mq s.tst) :=
  ⟨h.pending, h.out, h.freeCtr, h.regs, h.tick, h.refclk, h.dom, h.opSecs, h.pst, h.rb, no_bit hm rfl, h.rt, h.lc, h.te, h.ce, h.hp, h.tw, h.dc, h.md, h.mcTry, h.sir, h.hk, h.arch, h.psq, h.boot, h.mq, h.tst, h.own⟩

theorem upd_fc_sir {m : Nat} {x s : State} {v_fc : FcSt} {v_sir : SirSt} (hm : Nat.land 1049600 m = 1049600) (h : Same m x s) :
    Same m x (State.mk s.pending s.out s.freeCtr s.regs s.tick s.refclk s.dom s.opSecs s.pst s.rb v_fc s.rt s.lc s.te s.ce s.hp s.tw s.dc s.md s.mcTry v_sir s.hk s.arch s.psq s.boot s.mq s.tst) :=
  ⟨h.pending, h.out, h.freeCtr, h.regs, h.tick, h.refclk, h.dom, h.opSecs, h.pst, h.rb, no_bit hm rfl, h.rt, h.lc, h.te, h.ce, h.hp, h.tw, h.dc, h.md, h.mcTry, no_bit hm rfl, h.hk, h.arch, h.psq, h.boot, h.mq, h.tst, h.own⟩

theorem upd_freeCtr {m : Nat} {x s : State} {v_freeCtr : Nat} (hm : Nat.land 4 m = 4) (h : Same m x s) :
    Same m x (State.mk s.pending s.out v_freeCtr s.regs s.tick s.refclk s.dom s.opSecs s.pst s.rb s.fc s.rt s.lc s.te s.ce s.hp s.tw s.dc s.md s.mcTry s.sir s.hk s.arch s.psq s.boot s.mq s.tst) :=
  ⟨h.pending, h.out, no_bit hm rfl, h.regs, h.tick, h.refclk, h.dom, h.opSecs, h.pst, h.rb, h.fc, h.rt, h.lc, h.te, h.ce, h.hp, h.tw, h.dc, h.md, h.mcTry, h.sir, h.hk, h.arch, h.psq, h.boot, h.mq, h.tst, h.own⟩

theorem upd_hk {m : Nat} {x s : State} {v_hk : HkSt} (hm : Nat.land 2097152 m = 2097152) (h : Same m x s) :
    Same m x (State.mk s.pending s.out s.freeCtr s.regs s.tick s.refclk s.dom s.opSecs s.pst s.rb s.fc s.rt s.lc s.te s.ce s.hp s.tw s.dc s.md s.mcTry s.sir v_hk s.arch s.psq s.boot s.mq s.tst) :=
  ⟨h.pending, h.out, h.freeCtr, h.regs, h.tick, h.refclk, h.dom, h.opSecs, h.pst, h.rb, h.fc, h.rt, h.lc, h.te, h.ce, h.hp, h.tw, h.dc, h.md, h.mcTry, h.sir, no_bit hm rfl, h.arch, h.psq, h.boot, h.mq, h.tst, h.own⟩

theorem upd_hk_psq {m : Nat} {x s : State} {v_hk : HkSt} {v_psq : PsqSt} (hm : Nat.land 10485760 m = 10485760) (h : Same m x s) :
    Same m x (State.mk s.pending s.out s.freeCtr s.regs s.tick s.refclk s.dom s.opSecs s.pst s.rb s.fc s.rt s.lc s.te s.ce s.hp s.tw s.dc s.md s.mcTry s.sir v_hk s.arch v_psq s.boot s.mq s.tst) :=
  ⟨h.pending, h.out, h.freeCtr, h.regs, h.tick, h.refclk, h.dom, h.opSecs, h.pst, h.rb, h.fc, h.rt, h.lc, h.te, h.ce, h.hp, h.tw, h.dc, h.md, h.mcTry, h.sir, no_bit hm rfl, h.arch, no_bit hm rfl, h.boot, h.mq, h.tst, h.own⟩

theorem upd_hp {m : Nat} {x s : State} {v_hp : HpSt} (hm : Nat.land 32768 m = 32768) (h : Same m x s) :
    Same m x (State.mk s.pending s.out s.freeCtr s.regs s.tick s.refclk s.dom s.opSecs s.pst s.rb s.fc s.rt s.lc s.te s.ce v_hp s.tw s.dc s.md s.mcTry s.sir s.hk s.arch s.psq s.boot s.mq s.tst) :=
  ⟨h.pending, h.out, h.freeCtr, h.regs, h.tick, h.refclk, h.dom, h.opSecs, h.pst, h.rb, h.fc, h.rt, h.lc, h.te, h.ce, no_bit hm rfl, h.tw, h.dc, h.md, h.mcTry, h.sir, h.hk, h.arch, h.psq, h.boot, h.mq, h.tst, h.own⟩

theorem upd_lc {m : Nat} {x s : State} {v_lc : LcSt} (hm : Nat.land 4096 m = 4096) (h : Same m x s) :
    Same m x (State.mk s.pending s.out s.freeCtr s.regs s.tick s.refclk s.dom s.opSecs s.pst s.rb s.fc s.rt v_lc s.te s.ce s.hp s.tw s.dc s.md s.mcTry s.sir s.hk s.arch s.psq s.boot s.mq s.tst) :=
  ⟨h.pending, h.out, h.freeCtr, h.regs, h.tick, h.refclk, h.dom, h.opSecs, h.pst, h.rb, h.fc, h.rt, no_bit hm rfl, h.te, h.ce, h.hp, h.tw, h.dc, h.md, h.mcTry, h.sir, h.hk, h.arch, h.psq, h.boot, h.mq, h.tst, h.own⟩

theorem upd_lc_sir {m : Nat} {x s : State} {v_lc : LcSt} {v_sir : SirSt} (hm : Nat.land 1052672 m = 1052672) (h : Same m x s) :
    Same m x (State.mk s.pending s.out s.freeCtr s.regs s.tick s.refclk s.dom s.opSecs s.pst s.rb s.fc s.rt v_lc s.te s.ce s.hp s.tw s.dc s.md s.mcTry v_sir s.hk s.arch s.psq s.boot s.mq s.tst) :=
  ⟨h.pending, h.out, h.freeCtr, h.regs, h.tick, h.refclk, h.dom, h.opSecs, h.pst, h.rb, h.fc, h.rt, no_bit hm rfl, h.te, h.ce, h.hp, h.tw, h.dc, h.md, h.mcTry, no_bit hm rfl, h.hk, h.arch, h.psq, h.boot, h.mq, h.tst, h.own⟩

theorem upd_lc_te {m : Nat} {x s : State} {v_lc : LcSt} {v_te : TeSt} (hm : Nat.land 12288 m = 12288) (h : Same m x s) :
    Same m x (State.mk s.pending s.out s.freeCtr s.regs s.tick s.refclk s.dom s.opSecs s.pst s.rb s.fc s.rt v_lc v_te s.ce s.hp s.tw s.dc s.md s.mcTry s.sir s.hk s.arch s.psq s.boot s.mq s.tst) :=
  ⟨h.pending, h.out, h.freeCtr, h.regs, h.tick, h.refclk, h.dom, h.opSecs, h.pst, h.rb, h.fc, h.rt, no_bit hm rfl, no_bit hm rfl, h.ce, h.hp, h.tw, h.dc, h.md, h.mcTry, h.sir, h.hk, h.arch, h.psq, h.boot, h.mq, h.tst, h.own⟩

theorem upd_mcTry {m : Nat} {x s : State} {v_mcTry : List Nat} (hm : Nat.land 524288 m = 524288) (h : Same m x s) :
    Same m x (State.mk s.pending s.out s.freeCtr s.regs s.tick s.refclk s.dom s.opSecs s.pst s.rb s.fc s.rt s.lc s.te s.ce s.hp s.tw s.dc s.md v_mcTry s.sir s.hk s.arch s.psq s.boot s.mq s.tst) :=
  ⟨h.pending, h.out, h.freeCtr, h.regs, h.tick, h.refclk, h.dom, h.opSecs, h.pst, h.rb, h.fc, h.rt, h.lc, h.te, h.ce, h.hp, h.tw, h.dc, h.md, no_bit hm rfl, h.sir, h.hk, h.arch, h.psq, h.boot, h.mq, h.tst, h.own⟩

theorem upd_md {m : Nat} {x s : State} {v_md : Sparse MDie} (hm : Nat.land 262144 m = 262144) (h : Same m x s) :
    Same m x (State.mk s.pending s.out s.freeCtr s.regs s.tick s.refclk s.dom s.opSecs s.pst s.rb s.fc s.rt s.lc s.te s.ce s.hp s.tw s.dc v_md s.mcTry s.sir s.hk s.arch s.psq s.boot s.mq s.tst) :=
  ⟨h.pending, h.out, h.freeCtr, h.regs, h.tick, h.refclk, h.dom, h.opSecs, h.pst, h.rb, h.fc, h.rt, h.lc, h.te, h.ce, h.hp, h.tw, h.dc, no_bit hm rfl, h.mcTry, h.sir, h.hk, h.arch, h.psq, h.boot, h.mq, h.tst, h.own⟩

theorem upd_mq {m : Nat} {x s : State} {v_mq : Sparse Mq} (hm : Nat.land 33554432 m = 33554432) (h : Same m x s) :
    Same m x (State.mk s.pending s.out s.freeCtr s.regs s.tick s.refclk s.dom s.opSecs s.pst s.rb s.fc s.rt s.lc s.te s.ce s.hp s.tw s.dc s.md s.mcTry s.sir s.hk s.arch s.psq s.boot v_mq s.tst) :=
  ⟨h.pending, h.out, h.freeCtr, h.regs, h.tick, h.refclk, h.dom, h.opSecs, h.pst, h.rb, h.fc, h.rt, h.lc, h.te, h.ce, h.hp, h.tw, h.dc, h.md, h.mcTry, h.sir, h.hk, h.arch, h.psq, h.boot, no_bit hm rfl, h.tst, h.own⟩

theorem upd_opSecs {m : Nat} {x s : State} {v_opSecs : Nat} (hm : Nat.land 128 m = 128) (h : Same m x s) :
    Same m x (State.mk s.pending s.out s.freeCtr s.regs s.tick s.refclk s.dom v_opSecs s.pst s.rb s.fc s.rt s.lc s.te s.ce s.hp s.tw s.dc s.md s.mcTry s.sir s.hk s.arch s.psq s.boot s.mq s.tst) :=
  ⟨h.pending, h.out, h.freeCtr, h.regs, h.tick, h.refclk, h.dom, no_bit hm rfl, h.pst, h.rb, h.fc, h.rt, h.lc, h.te, h.ce, h.hp, h.tw, h.dc, h.md, h.mcTry, h.sir, h.hk, h.arch, h.psq, h.boot, h.mq, h.tst, h.own⟩

theorem upd_out {m : Nat} {x s : State} {v_out : List Output} (hm : Nat.land 2 m = 2) (h : Same m x s) :
    Same m x (State.mk s.pending v_out s.freeCtr s.regs s.tick s.refclk s.dom s.opSecs s.pst s.rb s.fc s.rt s.lc s.te s.ce s.hp s.tw s.dc s.md s.mcTry s.sir s.hk s.arch s.psq s.boot s.mq s.tst) :=
  ⟨h.pending, no_bit hm rfl, h.freeCtr, h.regs, h.tick, h.refclk, h.dom, h.opSecs, h.pst, h.rb, h.fc, h.rt, h.lc, h.te, h.ce, h.hp, h.tw, h.dc, h.md, h.mcTry, h.sir, h.hk, h.arch, h.psq, h.boot, h.mq, h.tst, h.own⟩

theorem upd_pending {m : Nat} {x s : State} {v_pending : List Instr} (hm : Nat.land 1 m = 1) (h : Same m x s) :
    Same m x (State.mk v_pending s.out s.freeCtr s.regs s.tick s.refclk s.dom s.opSecs s.pst s.rb s.fc s.rt s.lc s.te s.ce s.hp s.tw s.dc s.md s.mcTry s.sir s.hk s.arch s.psq s.boot s.mq s.tst) :=
  ⟨no_bit hm rfl, h.out, h.freeCtr, h.regs, h.tick, h.refclk, h.dom, h.opSecs, h.pst, h.rb, h.fc, h.rt, h.lc, h.te, h.ce, h.hp, h.tw, h.dc, h.md, h.mcTry, h.sir, h.hk, h.arch, h.psq, h.boot, h.mq, h.tst, h.own⟩

theorem upd_psq {m : Nat} {x s : State} {v_psq : PsqSt} (hm : Nat.land 8388608 m = 8388608) (h : Same m x s) :
    Same m x (State.mk s.pending s.out s.freeCtr s.regs s.tick s.refclk s.dom s.opSecs s.pst s.rb s.fc s.rt s.lc s.te s.ce s.hp s.tw s.dc s.md s.mcTry s.sir s.hk s.arch v_psq s.boot s.mq s.tst) :=
  ⟨h.pending, h.out, h.freeCtr, h.regs, h.tick, h.refclk, h.dom, h.opSecs, h.pst, h.rb, h.fc, h.rt, h.lc, h.te, h.ce, h.hp, h.tw, h.dc, h.md, h.mcTry, h.sir, h.hk, h.arch, no_bit hm rfl, h.boot, h.mq, h.tst, h.own⟩

theorem upd_psq_boot {m : Nat} {x s : State} {v_psq : PsqSt} {v_boot : BootSt} (hm : Nat.land 25165824 m = 25165824) (h : Same m x s) :
    Same m x (State.mk s.pending s.out s.freeCtr s.regs s.tick s.refclk s.dom s.opSecs s.pst s.rb s.fc s.rt s.lc s.te s.ce s.hp s.tw s.dc s.md s.mcTry s.sir s.hk s.arch v_psq v_boot s.mq s.tst) :=
  ⟨h.pending, h.out, h.freeCtr, h.regs, h.tick, h.refclk, h.dom, h.opSecs, h.pst, h.rb, h.fc, h.rt, h.lc, h.te, h.ce, h.hp, h.tw, h.dc, h.md, h.mcTry, h.sir, h.hk, h.arch, no_bit hm rfl, no_bit hm rfl, h.mq, h.tst, h.own⟩

theorem upd_pst {m : Nat} {x s : State} {v_pst : PstSt} (hm : Nat.land 256 m = 256) (h : Same m x s) :
    Same m x (State.mk s.pending s.out s.freeCtr s.regs s.tick s.refclk s.dom s.opSecs v_pst s.rb s.fc s.rt s.lc s.te s.ce s.hp s.tw s.dc s.md s.mcTry s.sir s.hk s.arch s.psq s.boot s.mq s.tst) :=
  ⟨h.pending, h.out, h.freeCtr, h.regs, h.tick, h.refclk, h.dom, h.opSecs, no_bit hm rfl, h.rb, h.fc, h.rt, h.lc, h.te, h.ce, h.hp, h.tw, h.dc, h.md, h.mcTry, h.sir, h.hk, h.arch, h.psq, h.boot, h.mq, h.tst, h.own⟩

theorem upd_pst_rb {m : Nat} {x s : State} {v_pst : PstSt} {v_rb : RbSt} (hm : Nat.land 768 m = 768) (h : Same m x s) :
    Same m x (State.mk s.pending s.out s.freeCtr s.regs s.tick s.refclk s.dom s.opSecs v_pst v_rb s.fc s.rt s.lc s.te s.ce s.hp s.tw s.dc s.md s.mcTry s.sir s.hk s.arch s.psq s.boot s.mq s.tst) :=
  ⟨h.pending, h.out, h.freeCtr, h.regs, h.tick, h.refclk, h.dom, h.opSecs, no_bit hm rfl, no_bit hm rfl, h.fc, h.rt, h.lc, h.te, h.ce, h.hp, h.tw, h.dc, h.md, h.mcTry, h.sir, h.hk, h.arch, h.psq, h.boot, h.mq, h.tst, h.own⟩

theorem upd_rb {m : Nat} {x s : State} {v_rb : RbSt} (hm : Nat.land 512 m = 512) (h : Same m x s) :
    Same m x (State.mk s.pending s.out s.freeCtr s.regs s.tick s.refclk s.dom s.opSecs s.pst v_rb s.fc s.rt s.lc s.te s.ce s.hp s.tw s.dc s.md s.mcTry s.sir s.hk s.arch s.psq s.boot s.mq s.tst) :=
  ⟨h.pending, h.out, h.freeCtr, h.regs, h.tick, h.refclk, h.dom, h.opSecs, h.pst, no_bit hm rfl, h.fc, h.rt, h.lc, h.te, h.ce, h.hp, h.tw, h.dc, h.md, h.mcTry, h.sir, h.hk, h.arch, h.psq, h.boot, h.mq, h.tst, h.own⟩

theorem upd_rb_hp {m : Nat} {x s : State} {v_rb : RbSt} {v_hp : HpSt} (hm : Nat.land 33280 m = 33280) (h : Same m x s) :
    Same m x (State.mk s.pending s.out s.freeCtr s.regs s.tick s.refclk s.dom s.opSecs s.pst v_rb s.fc s.rt s.lc s.te s.ce v_hp s.tw s.dc s.md s.mcTry s.sir s.hk s.arch s.psq s.boot s.mq s.tst) :=
  ⟨h.pending, h.out, h.freeCtr, h.regs, h.tick, h.refclk, h.dom, h.opSecs, h.pst, no_bit hm rfl, h.fc, h.rt, h.lc, h.te, h.ce, no_bit hm rfl, h.tw, h.dc, h.md, h.mcTry, h.sir, h.hk, h.arch, h.psq, h.boot, h.mq, h.tst, h.own⟩

theorem upd_refclk {m : Nat} {x s : State} {v_refclk : Bool} (hm : Nat.land 32 m = 32) (h : Same m x s) :
    Same m x (State.mk s.pending s.out s.freeCtr s.regs s.tick v_refclk s.dom s.opSecs s.pst s.rb s.fc s.rt s.lc s.te s.ce s.hp s.tw s.dc s.md s.mcTry s.sir s.hk s.arch s.psq s.boot s.mq s.tst) :=
  ⟨h.pending, h.out, h.freeCtr, h.regs, h.tick, no_bit hm rfl, h.dom, h.opSecs, h.pst, h.rb, h.fc, h.rt, h.lc, h.te, h.ce, h.hp, h.tw, h.dc, h.md, h.mcTry, h.sir, h.hk, h.arch, h.psq, h.boot, h.mq, h.tst, h.own⟩

theorem upd_regs {m : Nat} {x s : State} {v_regs : Sparse Word} (hm : Nat.land 8 m = 8) (hal : Nat.land 562949819203584 m = 562949819203584) (h : Same m x s) :
    Same m x (State.mk s.pending s.out s.freeCtr v_regs s.tick s.refclk s.dom s.opSecs s.pst s.rb s.fc s.rt s.lc s.te s.ce s.hp s.tw s.dc s.md s.mcTry s.sir s.hk s.arch s.psq s.boot s.mq s.tst) :=
  ⟨h.pending, h.out, h.freeCtr, no_bit hm rfl, h.tick, h.refclk, h.dom, h.opSecs, h.pst, h.rb, h.fc, h.rt, h.lc, h.te, h.ce, h.hp, h.tw, h.dc, h.md, h.mcTry, h.sir, h.hk, h.arch, h.psq, h.boot, h.mq, h.tst, own_all hal⟩

theorem upd_regs_tick_dom_opSecs_pst_rb_fc_rt_lc_te_ce_hp_tw_dc_md_mcTry_sir_hk_arch_psq_boot_mq_tst {m : Nat} {x s : State} {v_regs : Sparse Word} {v_tick : BitVec 64} {v_dom : DomSt} {v_opSecs : Nat} {v_pst : PstSt} {v_rb : RbSt} {v_fc : FcSt} {v_rt : RtSt} {v_lc : LcSt} {v_te : TeSt} {v_ce : CeSt} {v_hp : HpSt} {v_tw : TwSt} {v_dc : DcSt} {v_md : Sparse MDie} {v_mcTry : List Nat} {v_sir : SirSt} {v_hk : HkSt} {v_arch : ArchSt} {v_psq : PsqSt} {v_boot : BootSt} {v_mq : Sparse Mq} {v_tst : TstSt} (hm : Nat.land 134217688 m = 134217688) (hal : Nat.land 562949819203584 m = 562949819203584) (h : Same m x s) :
    Same m x (State.mk s.pending s.out s.freeCtr v_regs v_tick s.refclk v_dom v_opSecs v_pst v_rb v_fc v_rt v_lc v_te v_ce v_hp v_tw v_dc v_md v_mcTry v_sir v_hk v_arch v_psq v_boot v_mq v_tst) :=
  ⟨h.pending, h.out, h.freeCtr, no_bit hm rfl, no_bit hm rfl, h.refclk, no_bit hm rfl, no_bit hm rfl, no_bit hm rfl, no_bit hm rfl, no_bit hm rfl, no_bit hm rfl, no_bit hm rfl, no_bit hm rfl, no_bit hm rfl, no_bit hm rfl, no_bit hm rfl, no_bit hm rfl, no_bit hm rfl, no_bit hm rfl, no_bit hm rfl, no_bit hm rfl, no_bit hm rfl, no_bit hm rfl, no_bit hm rfl, no_bit hm rfl, no_bit hm rfl, own_all hal⟩

theorem upd_rt {m : Nat} {x s : State} {v_rt : RtSt} (hm : Nat.land 2048 m = 2048) (h : Same m x s) :
    Same m x (State.mk s.pending s.out s.freeCtr s.regs s.tick s.refclk s.dom s.opSecs s.pst s.rb s.fc v_rt s.lc s.te s.ce s.hp s.tw s.dc s.md s.mcTry s.sir s.hk s.arch s.psq s.boot s.mq s.tst) :=
  ⟨h.pending, h.out, h.freeCtr, h.regs, h.tick, h.refclk, h.dom, h.opSecs, h.pst, h.rb, h.fc, no_bit hm rfl, h.lc, h.te, h.ce, h.hp, h.tw, h.dc, h.md, h.mcTry, h.sir, h.hk, h.arch, h.psq, h.boot, h.mq, h.tst, h.own⟩

theorem upd_rt_ce {m : Nat} {x s : State} {v_rt : RtSt} {v_ce : CeSt} (hm : Nat.land 18432 m = 18432) (h : Same m x s) :
    Same m x (State.mk s.pending s.out s.freeCtr s.regs s.tick s.refclk s.dom s.opSecs s.pst s.rb s.fc v_rt s.lc s.te v_ce s.hp s.tw s.dc s.md s.mcTry s.sir s.hk s.arch s.psq s.boot s.mq s.tst) :=
  ⟨h.pending, h.out, h.freeCtr, h.regs, h.tick, h.refclk, h.dom, h.opSecs, h.pst, h.rb, h.fc, no_bit hm rfl, h.lc, h.te, no_bit hm rfl, h.hp, h.tw, h.dc, h.md, h.mcTry, h.sir, h.hk, h.arch, h.psq, h.boot, h.mq, h.tst, h.own⟩

theorem upd_rt_hp {m : Nat} {x s : State} {v_rt : RtSt} {v_hp : HpSt} (hm : Nat.land 34816 m = 34816) (h : Same m x s) :
    Same m x (State.mk s.pending s.out s.freeCtr s.regs s.tick s.refclk s.dom s.opSecs s.pst s.rb s.fc v_rt s.lc s.te s.ce v_hp s.tw s.dc s.md s.mcTry s.sir s.hk s.arch s.psq s.boot s.mq s.tst) :=
  ⟨h.pending, h.out, h.freeCtr, h.regs, h.tick, h.refclk, h.dom, h.opSecs, h.pst, h.rb, h.fc, no_bit hm rfl, h.lc, h.te, h.ce, no_bit hm rfl, h.tw, h.dc, h.md, h.mcTry, h.sir, h.hk, h.arch, h.psq, h.boot, h.mq, h.tst, h.own⟩

theorem upd_rt_tw {m : Nat} {x s : State} {v_rt : RtSt} {v_tw : TwSt} (hm : Nat.land 67584 m = 67584) (h : Same m x s) :
    Same m x (State.mk s.pending s.out s.freeCtr s.regs s.tick s.refclk s.dom s.opSecs s.pst s.rb s.fc v_rt s.lc s.te s.ce s.hp v_tw s.dc s.md s.mcTry s.sir s.hk s.arch s.psq s.boot s.mq s.tst) :=
  ⟨h.pending, h.out, h.freeCtr, h.regs, h.tick, h.refclk, h.dom, h.opSecs, h.pst, h.rb, h.fc, no_bit hm rfl, h.lc, h.te, h.ce, h.hp, no_bit hm rfl, h.dc, h.md, h.mcTry, h.sir, h.hk, h.arch, h.psq, h.boot, h.mq, h.tst, h.own⟩

theorem upd_sir {m : Nat} {x s : State} {v_sir : SirSt} (hm : Nat.land 1048576 m = 1048576) (h : Same m x s) :
    Same m x (State.mk s.pending s.out s.freeCtr s.regs s.tick s.refclk s.dom s.opSecs s.pst s.rb s.fc s.rt s.lc s.te s.ce s.hp s.tw s.dc s.md s.mcTry v_sir s.hk s.arch s.psq s.boot s.mq s.tst) :=
  ⟨h.pending, h.out, h.freeCtr, h.regs, h.tick, h.refclk, h.dom, h.opSecs, h.pst, h.rb, h.fc, h.rt, h.lc, h.te, h.ce, h.hp, h.tw, h.dc, h.md, h.mcTry, no_bit hm rfl, h.hk, h.arch, h.psq, h.boot, h.mq, h.tst, h.own⟩

theorem upd_sir_boot {m : Nat} {x s : State} {v_sir : SirSt} {v_boot : BootSt} (hm : Nat.land 17825792 m = 17825792) (h : Same m x s) :
    Same m x (State.mk s.pending s.out s.freeCtr s.regs s.tick s.refclk s.dom s.opSecs s.pst s.rb s.fc s.rt s.lc s.te s.ce s.hp s.tw s.dc s.md s.mcTry v_sir s.hk s.arch s.psq v_boot s.mq s.tst) :=
  ⟨h.pending, h.out, h.freeCtr, h.regs, h.tick, h.refclk, h.dom, h.opSecs, h.pst, h.rb, h.fc, h.rt, h.lc, h.te, h.ce, h.hp, h.tw, h.dc, h.md, h.mcTry, no_bit hm rfl, h.hk, h.arch, h.psq, no_bit hm rfl, h.mq, h.tst, h.own⟩

theorem upd_te {m : Nat} {x s : State} {v_te : TeSt} (hm : Nat.land 8192 m = 8192) (h : Same m x s) :
    Same m x (State.mk s.pending s.out s.freeCtr s.regs s.tick s.refclk s.dom s.opSecs s.pst s.rb s.fc s.rt s.lc v_te s.ce s.hp s.tw s.dc s.md s.mcTry s.sir s.hk s.arch s.psq s.boot s.mq s.tst) :=
  ⟨h.pending, h.out, h.freeCtr, h.regs, h.tick, h.refclk, h.dom, h.opSecs, h.pst, h.rb, h.fc, h.rt, h.lc, no_bit hm rfl, h.ce, h.hp, h.tw, h.dc, h.md, h.mcTry, h.sir, h.hk, h.arch, h.psq, h.boot, h.mq, h.tst, h.own⟩

theorem upd_te_hp {m : Nat} {x s : State} {v_te : TeSt} {v_hp : HpSt} (hm : Nat.land 40960 m = 40960) (h : Same m x s) :
    Same m x (State.mk s.pending s.out s.freeCtr s.regs s.tick s.refclk s.dom s.opSecs s.pst s.rb s.fc s.rt s.lc v_te s.ce v_hp s.tw s.dc s.md s.mcTry s.sir s.hk s.arch s.psq s.boot s.mq s.tst) :=
  ⟨h.pending, h.out, h.freeCtr, h.regs, h.tick, h.refclk, h.dom, h.opSecs, h.pst, h.rb, h.fc, h.rt, h.lc, no_bit hm rfl, h.ce, no_bit hm rfl, h.tw, h.dc, h.md, h.mcTry, h.sir, h.hk, h.arch, h.psq, h.boot, h.mq, h.tst, h.own⟩

theorem upd_te_psq {m : Nat} {x s : State} {v_te : TeSt} {v_psq : PsqSt} (hm : Nat.land 8396800 m = 8396800) (h : Same m x s) :
    Same m x (State.mk s.pending s.out s.freeCtr s.regs s.tick s.refclk s.dom s.opSecs s.pst s.rb s.fc s.rt s.lc v_te s.ce s.hp s.tw s.dc s.md s.mcTry s.sir s.hk s.arch v_psq s.boot s.mq s.tst) :=
  ⟨h.pending, h.out, h.freeCtr, h.regs, h.tick, h.refclk, h.dom, h.opSecs, h.pst, h.rb, h.fc, h.rt, h.lc, no_bit hm rfl, h.ce, h.hp, h.tw, h.dc, h.md, h.mcTry, h.sir, h.hk, h.arch, no_bit hm rfl, h.boot, h.mq, h.tst, h.own⟩

theorem upd_te_psq_boot {m : Nat} {x s : State} {v_te : TeSt} {v_psq : PsqSt} {v_boot : BootSt} (hm : Nat.land 25174016 m = 25174016) (h : Same m x s) :
    Same m x (State.mk s.pending s.out s.freeCtr s.regs s.tick s.refclk s.dom s.opSecs s.pst s.rb s.fc s.rt s.lc v_te s.ce s.hp s.tw s.dc s.md s.mcTry s.sir s.hk s.arch v_psq v_boot s.mq s.tst) :=
  ⟨h.pending, h.out, h.freeCtr, h.regs, h.tick, h.refclk, h.dom, h.opSecs, h.pst, h.rb, h.fc, h.rt, h.lc, no_bit hm rfl, h.ce, h.hp, h.tw, h.dc, h.md, h.mcTry, h.sir, h.hk, h.arch, no_bit hm rfl, no_bit hm rfl, h.mq, h.tst, h.own⟩

theorem upd_tick {m : Nat} {x s : State} {v_tick : BitVec 64} (hm : Nat.land 16 m = 16) (h : Same m x s) :
    Same m x (State.mk s.pending s.out s.freeCtr s.regs v_tick s.refclk s.dom s.opSecs s.pst s.rb s.fc s.rt s.lc s.te s.ce s.hp s.tw s.dc s.md s.mcTry s.sir s.hk s.arch s.psq s.boot s.mq s.tst) :=
  ⟨h.pending, h.out, h.freeCtr, h.regs, no_bit hm rfl, h.refclk, h.dom, h.opSecs, h.pst, h.rb, h.fc, h.rt, h.lc, h.te, h.ce, h.hp, h.tw, h.dc, h.md, h.mcTry, h.sir, h.hk, h.arch, h.psq, h.boot, h.mq, h.tst, h.own⟩

theorem upd_tick_boot {m : Nat} {x s : State} {v_tick : BitVec 64} {v_boot : BootSt} (hm : Nat.land 16777232 m = 16777232) (h : Same m x s) :
    Same m x (State.mk s.pending s.out s.freeCtr s.regs v_tick s.refclk s.dom s.opSecs s.pst s.rb s.fc s.rt s.lc s.te s.ce s.hp s.tw s.dc s.md s.mcTry s.sir s.hk s.arch s.psq v_boot s.mq s.tst) :=
  ⟨h.pending, h.out, h.freeCtr, h.regs, no_bit hm rfl, h.refclk, h.dom, h.opSecs, h.pst, h.rb, h.fc, h.rt, h.lc, h.te, h.ce, h.hp, h.tw, h.dc, h.md, h.mcTry, h.sir, h.hk, h.arch, h.psq, no_bit hm rfl, h.mq, h.tst, h.own⟩

theorem upd_tick_psq {m : Nat} {x s : State} {v_tick : BitVec 64} {v_psq : PsqSt} (hm : Nat.land 8388624 m = 8388624) (h : Same m x s) :
    Same m x (State.mk s.pending s.out s.freeCtr s.regs v_tick s.refclk s.dom s.opSecs s.pst s.rb s.fc s.rt s.lc s.te s.ce s.hp s.tw s.dc s.md s.mcTry s.sir s.hk s.arch v_psq s.boot s.mq s.tst) :=
  ⟨h.pending, h.out, h.freeCtr, h.regs, no_bit hm rfl, h.refclk, h.dom, h.opSecs, h.pst, h.rb, h.fc, h.rt, h.lc, h.te, h.ce, h.hp, h.tw, h.dc, h.md, h.mcTry, h.sir, h.hk, h.arch, no_bit hm rfl, h.boot, h.mq, h.tst, h.own⟩

theorem upd_tst {m : Nat} {x s : State} {v_tst : TstSt} (hm : Nat.land 67108864 m = 67108864) (h : Same m x s) :
    Same m x (State.mk s.pending s.out s.freeCtr s.regs s.tick s.refclk s.dom s.opSecs s.pst s.rb s.fc s.rt s.lc s.te s.ce s.hp s.tw s.dc s.md s.mcTry s.sir s.hk s.arch s.psq s.boot s.mq v_tst) :=
  ⟨h.pending, h.out, h.freeCtr, h.regs, h.tick, h.refclk, h.dom, h.opSecs, h.pst, h.rb, h.fc, h.rt, h.lc, h.te, h.ce, h.hp, h.tw, h.dc, h.md, h.mcTry, h.sir, h.hk, h.arch, h.psq, h.boot, h.mq, no_bit hm rfl, h.own⟩

theorem upd_tw {m : Nat} {x s : State} {v_tw : TwSt} (hm : Nat.land 65536 m = 65536) (h : Same m x s) :
    Same m x (State.mk s.pending s.out s.freeCtr s.regs s.tick s.refclk s.dom s.opSecs s.pst s.rb s.fc s.rt s.lc s.te s.ce s.hp v_tw s.dc s.md s.mcTry s.sir s.hk s.arch s.psq s.boot s.mq s.tst) :=
  ⟨h.pending, h.out, h.freeCtr, h.regs, h.tick, h.refclk, h.dom, h.opSecs, h.pst, h.rb, h.fc, h.rt, h.lc, h.te, h.ce, h.hp, no_bit hm rfl, h.dc, h.md, h.mcTry, h.sir, h.hk, h.arch, h.psq, h.boot, h.mq, h.tst, h.own⟩

theorem same_ite {m : Nat} {x : State} {c : Prop} [Decidable c] {a b : State} (ha : Same m x a) (hb : Same m x b) :
    Same m x (if c then a else b) := by split <;> assumption

theorem same_dite {m : Nat} {x : State} {c : Prop} [Decidable c] {a : c → State} {b : ¬c → State} (ha : ∀ h, Same m x (a h))
    (hb : ∀ h, Same m x (b h)) : Same m x (if h : c then a h else b h) := by split <;> apply_assumption

theorem same_when {m : Nat} {x s : State} {c : Bool} {f : State → State} (h : Same m x s)
    (hf : ∀ t : State, Same m x t → Same m x (f t)) : Same m x (s.when c f) := by
  unfold State.when; split
  · exact hf s h
  · exact h

theorem same_foldl {m : Nat} {x : State} {α : Type} {l : List α} {f : State → α → State} {s : State} (h : Same m x s)
    (hf : ∀ (t : State) (a : α), Same m x t → Same m x (f t a)) : Same m x (l.foldl f s) := by
  induction l generalizing s with
  | nil => exact h
  | cons a l ih => exact ih (hf s a h)

theorem same2_ite {m : Nat} {x : State} {α : Type} {c : Prop} [Decidable c] {a b : α × State} (ha : Same m x a.2)
    (hb : Same m x b.2) : Same m x (if c then a else b).2 := by split <;> assumption

theorem same_foldl2 {m : Nat} {x : State} {α β : Type} {l : List α} {f : β × State → α → β × State} {p : β × State}
    (h : Same m x p.2) (hf : ∀ (q : β × State) (a : α), Same m x q.2 → Same m x (f q a).2) : Same m x (l.foldl f p).2 := by
  induction l generalizing p with
  | nil => exact h
  | cons a l ih => exact ih (hf p a h)

/-- The outcome is a next state that differs from `x` at most in the kinds of state of the mask. -/
def Ends (m : Nat) (x : State) (o : Out) : Prop := ∃ t : State, o = .next t ∧ Same m x t

theorem ends_next {m : Nat} {x s : State} (h : Same m x s) : Ends m x (.next s) := ⟨s, rfl, h⟩

theorem ends_ite {m : Nat} {x : State} {c : Prop} [Decidable c] {a b : Out} (ha : Ends m x a) (hb : Ends m x b) :
    Ends m x (if c then a else b) := by split <;> assumption

theorem thenState_keeps {m : Nat} {x s : State} {o : Out} (h : Ends m x o) : Same m x (thenState o s) := by
  obtain ⟨t, rfl, ht⟩ := h
  exact ht

end Sys2Proof.Machine
end

