-- ==== Sys2Proof/Laws/FrameOps.lean ====
section
/-! SUPPORT. The frame of every operation of Machine/Ops.lean, as a mask of the kinds of state that it may change. -/

set_option autoImplicit false
set_option linter.unusedTactic false
set_option linter.unreachableTactic false
set_option linter.unnecessarySeqFocus false
set_option linter.unusedSimpArgs false
set_option linter.unusedVariables false

namespace Sys2Proof.Machine

theorem State.fcMod_keeps {m : Nat} {x : State} {s : State} {a1 : Nat} {a2 : FcSrc → FcSrc} (hm : Nat.land 1024 m = 1024)
    (h : Same m x s) : Same m x (State.fcMod s a1 a2) := by
  unfold State.fcMod
  repeat' (first | with_reducible assumption | intro _ | fail_if_no_progress with_reducible refine upd_fc (sub_of hm rfl) ?_ | split | dsimp only)

theorem State.fltSts_keeps {m : Nat} {x : State} {s : State} {a1 : Flt} (hm : Nat.land 8 m = 8)
    (h : Same m x s) : Same m x (State.fltSts s a1) := by
  unfold State.fltSts
  repeat' (first | with_reducible assumption | intro _ | with_reducible refine State.setBit_keeps (sub_of hm rfl) ?_ ?_ | with_reducible exact R.FLT_STS_ok | split | dsimp only)

theorem State.fltFirstTake_keeps {m : Nat} {x : State} {s : State} {a1 : List Flt} (hm : Nat.land 8 m = 8)
    (h : Same m x s) : Same m x (State.fltFirstTake s a1) := by
  unfold State.fltFirstTake
  repeat' (first | with_reducible assumption | intro _ | with_reducible apply same_ite | with_reducible refine State.wr64_keeps (sub_of hm rfl) ?_ ?_ ?_ | with_reducible refine State.wrN_keeps (sub_of hm rfl) ?_ ?_ | with_reducible exact R.FC_FIRST_ok | with_reducible exact R.FC_FIRST_TICK_LO_ok | exact .inl rfl | (with_reducible refine book1_ok ?_ <;> simp only [R.FC_FIRST, R.FC_FIRST_TICK_LO] <;> omega) | split | dsimp only)

theorem State.pcAdd_keeps {m : Nat} {x : State} {s : State} {a1 a2 a3 : Nat} (hm : Nat.land 8 m = 8) (h : Same m x s) : Same m x (s.pcAdd a1 a2 a3) := by
  have h0 : RegOk m (R.PC_CNT a1 (2 * a2)) := R.PC_CNT_ok
  have h1 : RegOk m (R.PC_CNT a1 (2 * a2) + 4) := .inl (by
    have e : (R.PC_CNT a1 (2 * a2) + 4) % 0x1000 = 0x84 + 2 * a2 % 16 * 4 := by unfold R.PC_CNT; omega
    simp [bookReg, e]; omega)
  have hs := State.wr64_keeps (n := (s.num64 (R.PC_CNT a1 (2 * a2)) + a3) % 2 ^ 48) (sub_of hm rfl) h0 h1 h
  unfold State.pcAdd
  dsimp only
  split
  · exact State.setBit_keeps (sub_of hm rfl) R.PC_WIN_CTL_ok hs
  · exact hs

theorem State.pcEvent_keeps {m : Nat} {x : State} {s : State} {a1 : Nat} {a2 : Nat} {a3 : Nat} (hm : Nat.land 67108872 m = 67108872)
    (h : Same m x s) : Same m x (State.pcEvent s a1 a2 a3) := by
  unfold State.pcEvent
  repeat' (first | with_reducible assumption | intro _ | with_reducible apply same_ite | with_reducible apply same_foldl | with_reducible refine State.pcAdd_keeps (sub_of hm rfl) ?_ | fail_if_no_progress with_reducible refine upd_tst (sub_of hm rfl) ?_ | split | dsimp only)

theorem State.pcItem_keeps {m : Nat} {x : State} {s : State} {a1 : Nat} (hm : Nat.land 67108872 m = 67108872)
    (h : Same m x s) : Same m x (State.pcItem s a1) := by
  unfold State.pcItem
  repeat' (first | with_reducible assumption | intro _ | with_reducible refine State.pcEvent_keeps (sub_of hm rfl) ?_ | split | dsimp only)

theorem State.bankBit_keeps {m : Nat} {x : State} {s : State} {a1 a2 : Nat} {a3 : Bool} (hm : Nat.land 8 m = 8) (hb : a1 = R.FC_SEEN 0 ∨ a1 = R.FC_ACTIVE 0)
    (h : Same m x s) : Same m x (s.bankBit a1 a2 a3) := by
  refine State.setBit_keeps (sub_of hm rfl) (.inl ?_) h
  have e : (a1 + 4 * (a2 / 32 % 4)) / 0x1000 = 1 := by
    rcases hb with rfl | rfl <;> simp [R.FC_SEEN, R.FC_ACTIVE] <;> omega
  simp [bookReg, pageOf, e]

theorem State.rbClose_keeps {m : Nat} {x : State} {s : State} (hm : Nat.land 520 m = 520)
    (h : Same m x s) : Same m x (State.rbClose s) := by
  unfold State.rbClose
  repeat' (first | with_reducible assumption | intro _ | with_reducible apply same_ite | with_reducible refine State.setBit_keeps (sub_of hm rfl) ?_ ?_ | fail_if_no_progress with_reducible refine upd_rb (sub_of hm rfl) ?_ | with_reducible exact R.RB_OPEN_REPEAT_ok | with_reducible exact R.RB_STS_ok | split | dsimp only)

theorem State.rbCountQueue_keeps {m : Nat} {x : State} {s : State} (hm : Nat.land 8 m = 8)
    (h : Same m x s) : Same m x (State.rbCountQueue s) := by
  unfold State.rbCountQueue
  repeat' (first | with_reducible assumption | intro _ | with_reducible refine State.set_keeps (sub_of hm rfl) ?_ ?_ | with_reducible exact R.RB_STS_ok | split | dsimp only)

theorem State.rbEvent_keeps {m : Nat} {x : State} {s : State} {a1 : RbEvent} (hm : Nat.land 67109384 m = 67109384)
    (h : Same m x s) : Same m x (State.rbEvent s a1) := by
  unfold State.rbEvent
  repeat' (first | with_reducible assumption | intro _ | with_reducible apply same_ite | with_reducible refine State.addCnt_keeps (sub_of hm rfl) ?_ ?_ | with_reducible refine State.rbClose_keeps (sub_of hm rfl) ?_ | with_reducible refine State.bump_keeps (sub_of hm rfl) ?_ ?_ | with_reducible refine State.pcEvent_keeps (sub_of hm rfl) ?_ | with_reducible refine State.rbCountQueue_keeps (sub_of hm rfl) ?_ | with_reducible refine State.setBit_keeps (sub_of hm rfl) ?_ ?_ | with_reducible refine State.wrN_keeps (sub_of hm rfl) ?_ ?_ | fail_if_no_progress with_reducible refine upd_rb (sub_of hm rfl) ?_ | with_reducible exact R.RB_DROPPED_ok | with_reducible exact R.RB_OPEN_REPEAT_ok | with_reducible exact R.RB_STS_ok | split | dsimp only)

theorem State.pcOut_keeps {m : Nat} {x : State} {s : State} {a1 : Output} (hm : Nat.land 67108872 m = 67108872)
    (h : Same m x s) : Same m x (State.pcOut s a1) := by
  unfold State.pcOut
  repeat' (first | with_reducible assumption | intro _ | with_reducible refine State.pcEvent_keeps (sub_of hm rfl) ?_ | split | dsimp only)

theorem State.emit_keeps {m : Nat} {x : State} {s : State} {a1 : Output} (hm : Nat.land 67108874 m = 67108874)
    (h : Same m x s) : Same m x (State.emit s a1) := by
  unfold State.emit
  repeat' (first | with_reducible assumption | intro _ | with_reducible refine State.pcOut_keeps (sub_of hm rfl) ?_ | fail_if_no_progress with_reducible refine upd_out (sub_of hm rfl) ?_ | split | dsimp only)

theorem State.alertShow_keeps {m : Nat} {x : State} {s : State} (hm : Nat.land 83886090 m = 83886090)
    (h : Same m x s) : Same m x (State.alertShow s) := by
  unfold State.alertShow
  repeat' (first | with_reducible assumption | intro _ | with_reducible apply same_ite | with_reducible refine State.emit_keeps (sub_of hm rfl) ?_ | fail_if_no_progress with_reducible refine upd_boot (sub_of hm rfl) ?_ | split | dsimp only)

theorem State.fltTake_keeps {m : Nat} {x : State} {s : State} {a1 : Flt} {a2 : Nat} (hm : Nat.land 83887626 m = 83887626)
    (h : Same m x s) : Same m x (State.fltTake s a1 a2) := by
  unfold State.fltTake
  repeat' (first | with_reducible assumption | intro _ | with_reducible apply same_ite | with_reducible apply same_when | with_reducible refine State.pcItem_keeps (sub_of hm rfl) ?_ | with_reducible refine State.pcEvent_keeps (sub_of hm rfl) ?_ | with_reducible refine State.bump_keeps (sub_of hm rfl) ?_ ?_ | with_reducible refine State.bankBit_keeps (sub_of hm rfl) (.inl rfl) ?_ | with_reducible refine State.bankBit_keeps (sub_of hm rfl) (.inr rfl) ?_ | with_reducible refine State.wrN_keeps (sub_of hm rfl) ?_ ?_ | with_reducible refine State.rbEvent_keeps (sub_of hm rfl) ?_ | with_reducible refine State.alertShow_keeps (sub_of hm rfl) ?_ | with_reducible refine State.fcMod_keeps (sub_of hm rfl) ?_ | with_reducible exact R.FC_ACTIVE_ok | with_reducible exact R.FC_CNT_SEV_ok | with_reducible exact R.FC_CTL_ok | with_reducible exact R.FC_ESC_T2_ok | with_reducible exact R.FC_ESC_T3_ok | with_reducible exact R.FC_SEEN_ok | with_reducible exact R.FLT_DETAIL_ok | split | dsimp only)

theorem State.raiseWindow_keeps {m : Nat} {x : State} {s : State} {a1 : List Flt} (hm : Nat.land 83887626 m = 83887626)
    (h : Same m x s) : Same m x (State.raiseWindow s a1) := by
  unfold State.raiseWindow
  repeat' (first | with_reducible assumption | intro _ | with_reducible apply same_ite | with_reducible apply same_foldl | with_reducible refine State.fcMod_keeps (sub_of hm rfl) ?_ | with_reducible refine State.fltSts_keeps (sub_of hm rfl) ?_ | with_reducible refine State.fltFirstTake_keeps (sub_of hm rfl) ?_ | with_reducible refine State.fltTake_keeps (sub_of hm rfl) ?_ | with_reducible refine State.rbEvent_keeps (sub_of hm rfl) ?_ | fail_if_no_progress with_reducible refine upd_fc (sub_of hm rfl) ?_ | split | dsimp only)

theorem State.drawn_keeps {m : Nat} {x : State} {s : State} (hm : Nat.land 4 m = 4)
    (h : Same m x s) : Same m x (State.drawn s) := by
  unfold State.drawn
  repeat' (first | with_reducible assumption | intro _ | fail_if_no_progress with_reducible refine upd_freeCtr (sub_of hm rfl) ?_ | split | dsimp only)

theorem State.raise_keeps {m : Nat} {x : State} {s : State} {a1 : Nat} {a2 : Nat} {a3 : Nat} (hm : Nat.land 83887630 m = 83887630)
    (h : Same m x s) : Same m x (State.raise s a1 a2 a3) := by
  unfold State.raise
  repeat' (first | with_reducible assumption | intro _ | with_reducible refine State.raiseWindow_keeps (sub_of hm rfl) ?_ | with_reducible refine State.drawn_keeps (sub_of hm rfl) ?_ | split | dsimp only)

theorem State.roll_keeps {m : Nat} {x : State} {s : State} {a1 : Nat} {a2 : Nat} {a3 : Nat} {a4 : Nat} {a5 : Nat} {a6 : Nat} (hm : Nat.land 67109384 m = 67109384)
    (h : Same m x s) : Same m x (State.roll s a1 a2 a3 a4 a5 a6) := by
  unfold State.roll
  repeat' (first | with_reducible assumption | intro _ | with_reducible refine State.rbEvent_keeps (sub_of hm rfl) ?_ | split | dsimp only)

theorem State.pstAnswer_keeps {m : Nat} {x : State} {s : State} (hm : Nat.land 67109130 m = 67109130)
    (h : Same m x s) : Same m x (State.pstAnswer s) := by
  unfold State.pstAnswer
  repeat' (first | with_reducible assumption | intro _ | with_reducible apply same_foldl | with_reducible refine State.emit_keeps (sub_of hm rfl) ?_ | fail_if_no_progress with_reducible refine upd_pst (sub_of hm rfl) ?_ | split | dsimp only)

theorem State.supplyLatch_keeps {m : Nat} {x : State} {s : State} (hm : Nat.land 4294967304 m = 4294967304)
    (h : Same m x s) : Same m x (State.supplyLatch s) := by
  unfold State.supplyLatch
  repeat' (first | with_reducible assumption | intro _ | with_reducible refine State.set_keeps (sub_of hm rfl) ?_ ?_ | with_reducible exact R.PST_SUPPLY_ok (sub_of hm rfl) | (with_reducible refine regOk_of (c := 5) (sub_of hm rfl) (blk5 ?_ ?_) <;> simp only [R.PST_SUPPLY] <;> omega) | split | dsimp only)

theorem State.pstCheck_keeps {m : Nat} {x : State} {s : State} (hm : Nat.land 4294967560 m = 4294967560)
    (h : Same m x s) : Same m x (State.pstCheck s) := by
  unfold State.pstCheck
  repeat' (first | with_reducible assumption | intro _ | with_reducible apply same_ite | with_reducible refine State.setBit_keeps (sub_of hm rfl) ?_ ?_ | with_reducible refine State.supplyLatch_keeps (sub_of hm rfl) ?_ | fail_if_no_progress with_reducible refine upd_pst (sub_of hm rfl) ?_ | with_reducible exact R.PST_STS_ok (sub_of hm rfl) | (with_reducible refine regOk_of (c := 5) (sub_of hm rfl) (blk5 ?_ ?_) <;> simp only [R.PST_STS] <;> omega) | split | dsimp only)

theorem State.pstNextN_keeps {m : Nat} {x : State} {n : Nat} {s : State} (hm : Nat.land 4362076426 m = 4362076426) (h : Same m x s) : Same m x (State.pstNextN n s) := by
  induction n generalizing s with
  | zero => exact h
  | succ n ih =>
    unfold State.pstNextN
    split
    · exact h
    · split
      · exact State.pstAnswer_keeps (sub_of hm rfl) (State.setBit_keeps (sub_of hm rfl) (R.PST_STS_ok (sub_of hm rfl)) h)
      · dsimp only
        split <;> split <;> first
          | exact ih (upd_pst (sub_of hm rfl) h)
          | exact State.pstAnswer_keeps (sub_of hm rfl) (State.pstCheck_keeps (sub_of hm rfl) (upd_pst (sub_of hm rfl) h))

theorem State.pstNext_keeps {m : Nat} {x : State} {s : State} (hm : Nat.land 4362076426 m = 4362076426)
    (h : Same m x s) : Same m x (State.pstNext s) := by
  unfold State.pstNext
  repeat' (first | with_reducible assumption | intro _ | with_reducible refine State.pstNextN_keeps (sub_of hm rfl) ?_ | split | dsimp only)

theorem State.pstAdd_keeps {m : Nat} {x : State} {s : State} {a1 : PstJob} (hm : Nat.land 4362076426 m = 4362076426)
    (h : Same m x s) : Same m x (State.pstAdd s a1) := by
  unfold State.pstAdd
  repeat' (first | with_reducible assumption | intro _ | with_reducible apply same_ite | with_reducible refine State.pcEvent_keeps (sub_of hm rfl) ?_ | with_reducible refine State.pstNext_keeps (sub_of hm rfl) ?_ | fail_if_no_progress with_reducible refine upd_pst (sub_of hm rfl) ?_ | split | dsimp only)

theorem State.leased_keeps {m : Nat} {x : State} {s : State} {a1 : Nat} (hm : Nat.land 67108872 m = 67108872)
    (h : Same m x s) : Same m x (State.leased s a1) := by
  unfold State.leased
  repeat' (first | with_reducible assumption | intro _ | with_reducible refine State.pcEvent_keeps (sub_of hm rfl) ?_ | split | dsimp only)

theorem State.unfence_keeps {m : Nat} {x : State} {s : State} {a1 : Nat} (hm : Nat.land 1024 m = 1024)
    (h : Same m x s) : Same m x (State.unfence s a1) := by
  unfold State.unfence
  repeat' (first | with_reducible assumption | intro _ | with_reducible refine State.fcMod_keeps (sub_of hm rfl) ?_ | split | dsimp only)

theorem State.rbEventSnap_keeps {m : Nat} {x : State} {s : State} {a1 : RbEvent} {a2 : List RbEvent} (hm : Nat.land 67109384 m = 67109384)
    (h : Same m x s) : Same m x (State.rbEventSnap s a1 a2) := by
  unfold State.rbEventSnap
  repeat' (first | with_reducible assumption | intro _ | with_reducible apply same_ite | with_reducible refine State.bump_keeps (sub_of hm rfl) ?_ ?_ | with_reducible refine State.rbClose_keeps (sub_of hm rfl) ?_ | with_reducible refine State.setBit_keeps (sub_of hm rfl) ?_ ?_ | with_reducible refine State.wrN_keeps (sub_of hm rfl) ?_ ?_ | with_reducible refine State.rbCountQueue_keeps (sub_of hm rfl) ?_ | with_reducible refine State.addCnt_keeps (sub_of hm rfl) ?_ ?_ | with_reducible refine State.pcEvent_keeps (sub_of hm rfl) ?_ | fail_if_no_progress with_reducible refine upd_rb (sub_of hm rfl) ?_ | with_reducible exact R.RB_DROPPED_ok | with_reducible exact R.RB_OPEN_REPEAT_ok | with_reducible exact R.RB_STS_ok | split | dsimp only)

theorem State.eraseRow_keeps {m : Nat} {x : State} {s : State} {a1 : Nat} (hm : Nat.land 256 m = 256)
    (h : Same m x s) : Same m x (State.eraseRow s a1) := by
  unfold State.eraseRow
  repeat' (first | with_reducible assumption | intro _ | fail_if_no_progress with_reducible refine upd_pst (sub_of hm rfl) ?_ | split | dsimp only)

theorem State.pcTick_keeps {m : Nat} {x : State} {s : State} (hm : Nat.land 67108872 m = 67108872)
    (h : Same m x s) : Same m x (State.pcTick s) := by
  unfold State.pcTick
  repeat' (first | with_reducible assumption | intro _ | with_reducible apply same_foldl | with_reducible refine State.pcAdd_keeps (sub_of hm rfl) ?_ | with_reducible refine State.pcEvent_keeps (sub_of hm rfl) ?_ | fail_if_no_progress with_reducible refine upd_tst (sub_of hm rfl) ?_ | split | dsimp only)

theorem State.regAcc_keeps {m : Nat} {x : State} {s : State} {a1 : Nat} (hm : Nat.land 67108872 m = 67108872)
    (h : Same m x s) : Same m x (State.regAcc s a1) := by
  unfold State.regAcc
  repeat' (first | with_reducible assumption | intro _ | with_reducible apply same_ite | with_reducible refine State.pcItem_keeps (sub_of hm rfl) ?_ | with_reducible refine State.pcEvent_keeps (sub_of hm rfl) ?_ | split | dsimp only)

theorem State.wireEnd_keeps {m : Nat} {x : State} {s : State} {a1 : Nat} (hm : Nat.land 1024 m = 1024)
    (h : Same m x s) : Same m x (State.wireEnd s a1) := by
  unfold State.wireEnd
  repeat' (first | with_reducible assumption | intro _ | with_reducible apply same_ite | fail_if_no_progress with_reducible refine upd_fc (sub_of hm rfl) ?_ | split | dsimp only)

end Sys2Proof.Machine
end

