-- ==== Sys2Proof/Laws/FrameLinkOps.lean ====
section
/-! SUPPORT. The frame of every operation of Machine/LinkOps.lean, as a mask of the kinds of state that it may change. -/

set_option autoImplicit false
set_option linter.unusedTactic false
set_option linter.unreachableTactic false
set_option linter.unnecessarySeqFocus false
set_option linter.unusedSimpArgs false
set_option linter.unusedVariables false

namespace Sys2Proof.Machine

theorem State.car_keeps {m : Nat} {x : State} {s : State} {a1 : Nat} {a2 : Nat} {a3 : List Nat} (hm : Nat.land 67108874 m = 67108874)
    (h : Same m x s) : Same m x (State.car s a1 a2 a3) := by
  unfold State.car
  repeat' (first | with_reducible assumption | intro _ | with_reducible apply same_ite | with_reducible refine State.emit_keeps (sub_of hm rfl) ?_ | split | dsimp only)

theorem State.crd_keeps {m : Nat} {x : State} {s : State} {a1 : Nat} {a2 : Nat} {a3 : Nat} {a4 : Nat} (hm : Nat.land 67108874 m = 67108874)
    (h : Same m x s) : Same m x (State.crd s a1 a2 a3 a4) := by
  unfold State.crd
  repeat' (first | with_reducible assumption | intro _ | with_reducible apply same_ite | with_reducible refine State.car_keeps (sub_of hm rfl) ?_ | split | dsimp only)

theorem State.flistAdd_keeps {m : Nat} {x : State} {s : State} {a1 : Nat} (hm : Nat.land 549755879432 m = 549755879432)
    (h : Same m x s) : Same m x (State.flistAdd s a1) := by
  unfold State.flistAdd
  repeat' (first | with_reducible assumption | intro _ | with_reducible apply same_ite | with_reducible refine State.setBit_keeps (sub_of hm rfl) ?_ ?_ | fail_if_no_progress with_reducible refine upd_tw (sub_of hm rfl) ?_ | with_reducible exact R.CAR_STS_ok (sub_of hm rfl) | (with_reducible refine regOk_of (c := 12) (sub_of hm rfl) (blk12 ?_ ?_) <;> simp only [R.CAR_STS] <;> omega) | split | dsimp only)

theorem State.bmapShow_keeps {m : Nat} {x : State} {s : State} (hm : Nat.land 549755813896 m = 549755813896)
    (h : Same m x s) : Same m x (State.bmapShow s) := by
  unfold State.bmapShow
  repeat' (first | with_reducible assumption | intro _ | with_reducible refine State.wrN_keeps (sub_of hm rfl) ?_ ?_ | with_reducible exact R.CAR_BMAP_HI_ok (sub_of hm rfl) | with_reducible exact R.CAR_BMAP_LO_ok (sub_of hm rfl) | (with_reducible refine regOk_of (c := 12) (sub_of hm rfl) (blk12 ?_ ?_) <;> simp only [R.CAR_BMAP_HI, R.CAR_BMAP_LO] <;> omega) | split | dsimp only)

theorem State.bmapSet_keeps {m : Nat} {x : State} {s : State} {a1 : Nat} (hm : Nat.land 549755879432 m = 549755879432)
    (h : Same m x s) : Same m x (State.bmapSet s a1) := by
  unfold State.bmapSet
  repeat' (first | with_reducible assumption | intro _ | with_reducible apply same_ite | with_reducible refine State.bmapShow_keeps (sub_of hm rfl) ?_ | fail_if_no_progress with_reducible refine upd_tw (sub_of hm rfl) ?_ | split | dsimp only)

theorem State.fwdReturn_keeps {m : Nat} {x : State} {s : State} (hm : Nat.land 67174410 m = 67174410)
    (h : Same m x s) : Same m x (State.fwdReturn s) := by
  unfold State.fwdReturn
  repeat' (first | with_reducible assumption | intro _ | with_reducible apply same_ite | with_reducible refine State.crd_keeps (sub_of hm rfl) ?_ | fail_if_no_progress with_reducible refine upd_tw (sub_of hm rfl) ?_ | split | dsimp only)

theorem State.carSend_keeps {m : Nat} {x : State} {s : State} {a1 : Nat} {a2 : Output} (hm : Nat.land 67174410 m = 67174410)
    (h : Same m x s) : Same m x (State.carSend s a1 a2) := by
  unfold State.carSend
  repeat' (first | with_reducible assumption | intro _ | with_reducible apply same_ite | with_reducible refine State.emit_keeps (sub_of hm rfl) ?_ | fail_if_no_progress with_reducible refine upd_tw (sub_of hm rfl) ?_ | split | dsimp only)

theorem State.sendMwr_keeps {m : Nat} {x : State} {s : State} {a1 : Nat} {a2 : Line} {a3 : Bool} (hm : Nat.land 549822988298 m = 549822988298)
    (h : Same m x s) : Same m x (State.sendMwr s a1 a2 a3).2 := by
  unfold State.sendMwr
  repeat' (first | with_reducible assumption | intro _ | with_reducible apply same_ite | with_reducible apply same2_ite | with_reducible refine State.carSend_keeps (sub_of hm rfl) ?_ | with_reducible refine State.bump_keeps (sub_of hm rfl) ?_ ?_ | fail_if_no_progress with_reducible refine upd_tw (sub_of hm rfl) ?_ | with_reducible exact R.CAR_MIR_CNT_ok (sub_of hm rfl) | (with_reducible refine regOk_of (c := 12) (sub_of hm rfl) (blk12 ?_ ?_) <;> simp only [R.CAR_MIR_CNT] <;> omega) | split | dsimp only)

theorem State.sendMwr_keeps_eq {m : Nat} {x : State} {s : State} {a1 : Nat} {a2 : Line} {a3 : Bool} {u : Nat} {t : State} (hm : Nat.land 549822988298 m = 549822988298)
    (e : State.sendMwr s a1 a2 a3 = (u, t)) (h : Same m x s) : Same m x t := by
  have := State.sendMwr_keeps hm h (a1 := a1) (a2 := a2) (a3 := a3)
  rwa [e] at this

theorem State.touched_keeps {m : Nat} {x : State} {s : State} {a1 : Nat} (hm : Nat.land 549755879432 m = 549755879432)
    (h : Same m x s) : Same m x (State.touched s a1) := by
  unfold State.touched
  repeat' (first | with_reducible assumption | intro _ | with_reducible apply same_ite | with_reducible refine State.bmapSet_keeps (sub_of hm rfl) ?_ | with_reducible refine State.flistAdd_keeps (sub_of hm rfl) ?_ | split | dsimp only)

theorem State.fwdGrant_keeps {m : Nat} {x : State} {s : State} (hm : Nat.land 67174410 m = 67174410)
    (h : Same m x s) : Same m x (State.fwdGrant s) := by
  unfold State.fwdGrant
  repeat' (first | with_reducible assumption | intro _ | with_reducible apply same_ite | with_reducible refine State.crd_keeps (sub_of hm rfl) ?_ | fail_if_no_progress with_reducible refine upd_tw (sub_of hm rfl) ?_ | split | dsimp only)

theorem State.carCredits_keeps {m : Nat} {x : State} {s : State} {a1 : Nat} {a2 : Nat} {a3 : Nat} {a4 : Nat} (hm : Nat.land 67174410 m = 67174410)
    (h : Same m x s) : Same m x (State.carCredits s a1 a2 a3 a4) := by
  unfold State.carCredits
  repeat' (first | with_reducible assumption | intro _ | with_reducible apply same_foldl | with_reducible refine State.carSend_keeps (sub_of hm rfl) ?_ | fail_if_no_progress with_reducible refine upd_tw (sub_of hm rfl) ?_ | split | dsimp only)

theorem State.carGot_keeps {m : Nat} {x : State} {s : State} (hm : Nat.land 67108872 m = 67108872)
    (h : Same m x s) : Same m x (State.carGot s) := by
  unfold State.carGot
  repeat' (first | with_reducible assumption | intro _ | with_reducible apply same_when | with_reducible refine State.pcEvent_keeps (sub_of hm rfl) ?_ | split | dsimp only)

end Sys2Proof.Machine
end

