-- ==== Sys2Proof/Laws/FrameBudgetOps.lean ====
section
/-! SUPPORT. The frame of every operation of Machine/BudgetOps.lean, as a mask of the kinds of state that it may change. -/

set_option autoImplicit false
set_option linter.unusedTactic false
set_option linter.unreachableTactic false
set_option linter.unnecessarySeqFocus false
set_option linter.unusedSimpArgs false
set_option linter.unusedVariables false

namespace Sys2Proof.Machine

theorem State.keepBack_keeps {m : Nat} {x : State} {s : State} {a1 : Nat} (hm : Nat.land 2048 m = 2048)
    (h : Same m x s) : Same m x (State.keepBack s a1) := by
  unfold State.keepBack
  repeat' (first | with_reducible assumption | intro _ | fail_if_no_progress with_reducible refine upd_rt (sub_of hm rfl) ?_ | split | dsimp only)

theorem State.mirReturn_keeps {m : Nat} {x : State} {s : State} (hm : Nat.land 67110922 m = 67110922)
    (h : Same m x s) : Same m x (State.mirReturn s) := by
  unfold State.mirReturn
  repeat' (first | with_reducible assumption | intro _ | with_reducible apply same_ite | with_reducible refine State.keepBack_keeps (sub_of hm rfl) ?_ | with_reducible refine State.crd_keeps (sub_of hm rfl) ?_ | split | dsimp only)

theorem State.grant_keeps {m : Nat} {x : State} {s : State} (hm : Nat.land 2048 m = 2048)
    (h : Same m x s) : Same m x (State.grant s) := by
  unfold State.grant
  repeat' (first | with_reducible assumption | intro _ | fail_if_no_progress with_reducible refine upd_rt (sub_of hm rfl) ?_ | split | dsimp only)

theorem State.creditBack_keeps {m : Nat} {x : State} {s : State} {a1 : Req} (hm : Nat.land 67176458 m = 67176458)
    (h : Same m x s) : Same m x (State.creditBack s a1) := by
  unfold State.creditBack
  repeat' (first | with_reducible assumption | intro _ | with_reducible apply same_ite | with_reducible refine State.grant_keeps (sub_of hm rfl) ?_ | with_reducible refine State.keepBack_keeps (sub_of hm rfl) ?_ | with_reducible refine State.fwdReturn_keeps (sub_of hm rfl) ?_ | with_reducible refine State.mirReturn_keeps (sub_of hm rfl) ?_ | split | dsimp only)

theorem State.tsStatus_keeps {m : Nat} {x : State} {s : State} (hm : Nat.land 137438953480 m = 137438953480)
    (h : Same m x s) : Same m x (State.tsStatus s) := by
  unfold State.tsStatus
  repeat' (first | with_reducible assumption | intro _ | with_reducible apply same_ite | with_reducible refine State.setBit_keeps (sub_of hm rfl) ?_ ?_ | with_reducible refine State.wrN_keeps (sub_of hm rfl) ?_ ?_ | with_reducible exact R.TS_DB_GUARD_ok (sub_of hm rfl) | with_reducible exact R.TS_DUE_CNT_ok (sub_of hm rfl) | with_reducible exact R.TS_SLOT_DIRTY_ok (sub_of hm rfl) | with_reducible exact R.TS_SLOT_FREE_ok (sub_of hm rfl) | with_reducible exact R.TS_STS_ok (sub_of hm rfl) | (with_reducible refine regOk_of (c := 10) (sub_of hm rfl) (blk10 ?_ ?_) <;> simp only [R.TS_DB_GUARD, R.TS_DUE_CNT, R.TS_SLOT_DIRTY, R.TS_SLOT_FREE, R.TS_STS] <;> omega) | split | dsimp only)

theorem State.setDirty_keeps {m : Nat} {x : State} {s : State} {a1 : Nat} (hm : Nat.land 137438953480 m = 137438953480)
    (h : Same m x s) : Same m x (State.setDirty s a1) := by
  unfold State.setDirty
  repeat' (first | with_reducible assumption | intro _ | with_reducible refine State.wrN_keeps (sub_of hm rfl) ?_ ?_ | with_reducible exact R.TS_DIRTY_HI_ok (sub_of hm rfl) | with_reducible exact R.TS_DIRTY_LO_ok (sub_of hm rfl) | (with_reducible refine regOk_of (c := 10) (sub_of hm rfl) (blk10 ?_ ?_) <;> simp only [R.TS_DIRTY_HI, R.TS_DIRTY_LO] <;> omega) | split | dsimp only)

theorem State.letOne_keeps {m : Nat} {x : State} {s : State} (hm : Nat.land 2048 m = 2048)
    (h : Same m x s) : Same m x (State.letOne s) := by
  unfold State.letOne
  repeat' (first | with_reducible assumption | intro _ | with_reducible apply same_ite | fail_if_no_progress with_reducible refine upd_rt (sub_of hm rfl) ?_ | split | dsimp only)

theorem State.unhold_keeps {m : Nat} {x : State} {s : State} {a1 : Nat} (hm : Nat.land 67176458 m = 67176458)
    (h : Same m x s) : Same m x (State.unhold s a1) := by
  unfold State.unhold
  repeat' (first | with_reducible assumption | intro _ | with_reducible apply same_foldl | with_reducible refine State.fwdReturn_keeps (sub_of hm rfl) ?_ | with_reducible refine State.crd_keeps (sub_of hm rfl) ?_ | fail_if_no_progress with_reducible refine upd_rt (sub_of hm rfl) ?_ | split | dsimp only)

theorem State.letAll_keeps {m : Nat} {x : State} {s : State} (hm : Nat.land 2048 m = 2048)
    (h : Same m x s) : Same m x (State.letAll s) := by
  unfold State.letAll
  repeat' (first | with_reducible assumption | intro _ | with_reducible apply same_ite | fail_if_no_progress with_reducible refine upd_rt (sub_of hm rfl) ?_ | split | dsimp only)

theorem State.unholdAll_keeps {m : Nat} {x : State} {s : State} (hm : Nat.land 67176458 m = 67176458)
    (h : Same m x s) : Same m x (State.unholdAll s) := by
  unfold State.unholdAll
  repeat' (first | with_reducible assumption | intro _ | with_reducible refine State.unhold_keeps (sub_of hm rfl) ?_ | with_reducible refine State.grant_keeps (sub_of hm rfl) ?_ | fail_if_no_progress with_reducible refine upd_rt (sub_of hm rfl) ?_ | split | dsimp only)

theorem State.release_keeps {m : Nat} {x : State} {s : State} {a1 : Nat} (hm : Nat.land 137506129930 m = 137506129930)
    (h : Same m x s) : Same m x (State.release s a1) := by
  unfold State.release
  repeat' (first | with_reducible assumption | intro _ | with_reducible apply same_ite | with_reducible apply same_foldl | with_reducible refine State.tsStatus_keeps (sub_of hm rfl) ?_ | with_reducible refine State.setDirty_keeps (sub_of hm rfl) ?_ | with_reducible refine State.letOne_keeps (sub_of hm rfl) ?_ | with_reducible refine State.unhold_keeps (sub_of hm rfl) ?_ | with_reducible refine State.letAll_keeps (sub_of hm rfl) ?_ | with_reducible refine State.unholdAll_keeps (sub_of hm rfl) ?_ | split | dsimp only)

theorem State.overEnter_keeps {m : Nat} {x : State} {s : State} (hm : Nat.land 137506062856 m = 137506062856)
    (h : Same m x s) : Same m x (State.overEnter s) := by
  unfold State.overEnter
  repeat' (first | with_reducible assumption | intro _ | with_reducible apply same_ite | with_reducible apply same_when | with_reducible refine State.bump_keeps (sub_of hm rfl) ?_ ?_ | with_reducible refine State.setBit_keeps (sub_of hm rfl) ?_ ?_ | with_reducible refine State.tsStatus_keeps (sub_of hm rfl) ?_ | with_reducible refine State.roll_keeps (sub_of hm rfl) ?_ | with_reducible exact R.TS_CTL_ok (sub_of hm rfl) | with_reducible exact R.TS_OVER_CNT_ok (sub_of hm rfl) | with_reducible exact R.TS_STS_ok (sub_of hm rfl) | (with_reducible refine regOk_of (c := 10) (sub_of hm rfl) (blk10 ?_ ?_) <;> simp only [R.TS_CTL, R.TS_OVER_CNT, R.TS_STS] <;> omega) | split | dsimp only)

theorem State.showBudget_keeps {m : Nat} {x : State} {s : State} (hm : Nat.land 137506062856 m = 137506062856)
    (h : Same m x s) : Same m x (State.showBudget s) := by
  unfold State.showBudget
  repeat' (first | with_reducible assumption | intro _ | with_reducible apply same_when | with_reducible refine State.wrN_keeps (sub_of hm rfl) ?_ ?_ | with_reducible refine State.roll_keeps (sub_of hm rfl) ?_ | with_reducible refine State.overEnter_keeps (sub_of hm rfl) ?_ | with_reducible refine State.tsStatus_keeps (sub_of hm rfl) ?_ | with_reducible exact R.TS_CTL_ok (sub_of hm rfl) | with_reducible exact R.TS_DB_HI_ok (sub_of hm rfl) | with_reducible exact R.TS_DB_LO_ok (sub_of hm rfl) | (with_reducible refine regOk_of (c := 10) (sub_of hm rfl) (blk10 ?_ ?_) <;> simp only [R.TS_CTL, R.TS_DB_HI, R.TS_DB_LO] <;> omega) | split | dsimp only)

theorem State.charge_keeps {m : Nat} {x : State} {s : State} {a1 : Nat} (hm : Nat.land 137438953480 m = 137438953480)
    (h : Same m x s) : Same m x (State.charge s a1) := by
  unfold State.charge
  repeat' (first | with_reducible assumption | intro _ | with_reducible refine State.tsStatus_keeps (sub_of hm rfl) ?_ | with_reducible refine State.setDirty_keeps (sub_of hm rfl) ?_ | split | dsimp only)

theorem State.spend_keeps {m : Nat} {x : State} {s : State} {a1 : Fin 8} {a2 : Bool} (hm : Nat.land 1099511629832 m = 1099511629832)
    (h : Same m x s) : Same m x (State.spend s a1 a2) := by
  unfold State.spend
  repeat' (first | with_reducible assumption | intro _ | with_reducible apply same_ite | with_reducible refine State.grant_keeps (sub_of hm rfl) ?_ | with_reducible refine State.setBit_keeps (sub_of hm rfl) ?_ ?_ | fail_if_no_progress with_reducible refine upd_rt (sub_of hm rfl) ?_ | with_reducible exact R.HP_STS_ok (sub_of hm rfl) | (with_reducible refine regOk_of (c := 13) (sub_of hm rfl) (blk13 ?_ ?_) <;> simp only [R.HP_STS] <;> omega) | split | dsimp only)

end Sys2Proof.Machine
end

