-- ==== Sys2Proof/Laws/FrameMailOps.lean ====
section
/-! SUPPORT. The frame of every operation of Machine/MailOps.lean, as a mask of the kinds of state that it may change. -/

set_option autoImplicit false
set_option linter.unusedTactic false
set_option linter.unreachableTactic false
set_option linter.unnecessarySeqFocus false
set_option linter.unusedSimpArgs false
set_option linter.unusedVariables false

namespace Sys2Proof.Machine

theorem State.mqMod_keeps {m : Nat} {x : State} {s : State} {a1 : Nat} {a2 : Mq → Mq} (hm : Nat.land 33554432 m = 33554432)
    (h : Same m x s) : Same m x (State.mqMod s a1 a2) := by
  unfold State.mqMod
  repeat' (first | with_reducible assumption | intro _ | fail_if_no_progress with_reducible refine upd_mq (sub_of hm rfl) ?_ | split | dsimp only)

theorem State.mbox_keeps {m : Nat} {x : State} {s : State} {a1 : Nat} {a2 : Rc} {a3 : Nat} {a4 : List Nat} (hm : Nat.land 1099612291082 m = 1099612291082)
    (h : Same m x s) : Same m x (State.mbox s a1 a2 a3 a4) := by
  unfold State.mbox
  repeat' (first | with_reducible assumption | intro _ | with_reducible apply same_ite | with_reducible refine State.bump_keeps (sub_of hm rfl) ?_ ?_ | with_reducible refine State.emit_keeps (sub_of hm rfl) ?_ | with_reducible refine State.mqMod_keeps (sub_of hm rfl) ?_ | with_reducible exact R.HP_MBOX_CNT_ok (sub_of hm rfl) | (with_reducible refine regOk_of (c := 13) (sub_of hm rfl) (blk13 ?_ ?_) <;> simp only [R.HP_MBOX_CNT] <;> omega) | split | dsimp only)

theorem State.bgDone_keeps {m : Nat} {x : State} {s : State} {a1 : Nat} {a2 : Rc} {a3 : Nat} {a4 : List Nat} (hm : Nat.land 1099612323850 m = 1099612323850)
    (h : Same m x s) : Same m x (State.bgDone s a1 a2 a3 a4) := by
  unfold State.bgDone
  repeat' (first | with_reducible assumption | intro _ | with_reducible apply same_ite | with_reducible refine State.mqMod_keeps (sub_of hm rfl) ?_ | with_reducible refine State.mbox_keeps (sub_of hm rfl) ?_ | fail_if_no_progress with_reducible refine upd_hp (sub_of hm rfl) ?_ | split | dsimp only)

theorem State.answer_keeps {m : Nat} {x : State} {s : State} {a1 : ReplyTo} {a2 : Rc} {a3 : Nat} {a4 : List Nat} (hm : Nat.land 1099612325898 m = 1099612325898)
    (h : Same m x s) : Same m x (State.answer s a1 a2 a3 a4) := by
  unfold State.answer
  repeat' (first | with_reducible assumption | intro _ | with_reducible apply same_ite | with_reducible refine State.mbox_keeps (sub_of hm rfl) ?_ | with_reducible refine State.bgDone_keeps (sub_of hm rfl) ?_ | with_reducible refine State.mirReturn_keeps (sub_of hm rfl) ?_ | with_reducible refine State.car_keeps (sub_of hm rfl) ?_ | fail_if_no_progress with_reducible refine upd_hp (sub_of hm rfl) ?_ | split | dsimp only)

theorem State.twinSettle_keeps {m : Nat} {x : State} {s : State} (hm : Nat.land 1099612391434 m = 1099612391434)
    (h : Same m x s) : Same m x (State.twinSettle s) := by
  unfold State.twinSettle
  repeat' (first | with_reducible assumption | intro _ | with_reducible apply same_dite | with_reducible apply same_foldl | with_reducible refine State.answer_keeps (sub_of hm rfl) ?_ | fail_if_no_progress with_reducible refine upd_tw (sub_of hm rfl) ?_ | split | dsimp only)

theorem State.reply_keeps {m : Nat} {x : State} {s : State} {a1 : ReplyTo} {a2 : Rc} {a3 : Nat} {a4 : List Nat} (hm : Nat.land 1099612391434 m = 1099612391434)
    (h : Same m x s) : Same m x (State.reply s a1 a2 a3 a4) := by
  unfold State.reply
  repeat' (first | with_reducible assumption | intro _ | with_reducible apply same_ite | with_reducible refine State.answer_keeps (sub_of hm rfl) ?_ | with_reducible refine State.twinSettle_keeps (sub_of hm rfl) ?_ | fail_if_no_progress with_reducible refine upd_tw (sub_of hm rfl) ?_ | split | dsimp only)

theorem State.sendCmd_keeps {m : Nat} {x : State} {s : State} {a1 : ReplyTo} {a2 : TwinCmd} {a3 : Option Nat} (hm : Nat.land 67174410 m = 67174410)
    (h : Same m x s) : Same m x (State.sendCmd s a1 a2 a3) := by
  unfold State.sendCmd
  repeat' (first | with_reducible assumption | intro _ | with_reducible refine State.carSend_keeps (sub_of hm rfl) ?_ | fail_if_no_progress with_reducible refine upd_tw (sub_of hm rfl) ?_ | split | dsimp only)

theorem State.bgStart_keeps {m : Nat} {x : State} {s : State} {a1 : Nat} (hm : Nat.land 100696074 m = 100696074)
    (h : Same m x s) : Same m x (State.bgStart s a1) := by
  unfold State.bgStart
  repeat' (first | with_reducible assumption | intro _ | with_reducible apply same_ite | with_reducible refine State.leased_keeps (sub_of hm rfl) ?_ | with_reducible refine State.emit_keeps (sub_of hm rfl) ?_ | with_reducible refine State.mqMod_keeps (sub_of hm rfl) ?_ | fail_if_no_progress with_reducible refine upd_hp (sub_of hm rfl) ?_ | split | dsimp only)

end Sys2Proof.Machine
end

