-- ==== Sys2Proof/Laws/FrameKeyOps.lean ====
section
/-! SUPPORT. The frame of every operation of Machine/KeyOps.lean, as a mask of the kinds of state that it may change. -/

set_option autoImplicit false
set_option linter.unusedTactic false
set_option linter.unreachableTactic false
set_option linter.unnecessarySeqFocus false
set_option linter.unusedSimpArgs false
set_option linter.unusedVariables false

namespace Sys2Proof.Machine

theorem State.keyMod_keeps {m : Nat} {x : State} {s : State} {a1 : Nat} {a2 : KeySlot → KeySlot} (hm : Nat.land 16384 m = 16384)
    (h : Same m x s) : Same m x (State.keyMod s a1 a2) := by
  unfold State.keyMod
  repeat' (first | with_reducible assumption | intro _ | fail_if_no_progress with_reducible refine upd_ce (sub_of hm rfl) ?_ | split | dsimp only)

theorem State.keyUse_keeps {m : Nat} {x : State} {s : State} {a1 : Nat} (hm : Nat.land 16388 m = 16388)
    (h : Same m x s) : Same m x (State.keyUse s a1) := by
  unfold State.keyUse
  repeat' (first | with_reducible assumption | intro _ | with_reducible apply same_ite | with_reducible refine State.drawn_keeps (sub_of hm rfl) ?_ | with_reducible refine State.keyMod_keeps (sub_of hm rfl) ?_ | split | dsimp only)

theorem State.xtsUse_keeps {m : Nat} {x : State} {s : State} (hm : Nat.land 16388 m = 16388)
    (h : Same m x s) : Same m x (State.xtsUse s) := by
  unfold State.xtsUse
  repeat' (first | with_reducible assumption | intro _ | with_reducible refine State.keyUse_keeps (sub_of hm rfl) ?_ | split | dsimp only)

theorem State.drbgTake_keeps {m : Nat} {x : State} {s : State} (hm : Nat.land 16384 m = 16384)
    (h : Same m x s) : Same m x (State.drbgTake s).2 := by
  unfold State.drbgTake
  repeat' (first | with_reducible assumption | intro _ | fail_if_no_progress with_reducible refine upd_ce (sub_of hm rfl) ?_ | split | dsimp only)

theorem State.drbgTake_keeps_eq {m : Nat} {x : State} {s : State} {u : Nat} {t : State} (hm : Nat.land 16384 m = 16384)
    (e : State.drbgTake s = (u, t)) (h : Same m x s) : Same m x t := by
  have := State.drbgTake_keeps hm h
  rwa [e] at this

theorem State.keyLoad_keeps {m : Nat} {x : State} {s : State} {a1 : Nat} {a2 : Nat} (hm : Nat.land 16388 m = 16388)
    (h : Same m x s) : Same m x (State.keyLoad s a1 a2) := by
  unfold State.keyLoad
  repeat' (first | with_reducible assumption | intro _ | with_reducible refine State.drawn_keeps (sub_of hm rfl) ?_ | with_reducible refine State.keyMod_keeps (sub_of hm rfl) ?_ | split | dsimp only)

theorem State.fixSlot_keeps {m : Nat} {x : State} {s : State} {a1 : Nat} {a2 : Nat} {a3 : Nat} (hm : Nat.land 16388 m = 16388)
    (h : Same m x s) : Same m x (State.fixSlot s a1 a2 a3) := by
  unfold State.fixSlot
  repeat' (first | with_reducible assumption | intro _ | with_reducible refine State.keyLoad_keeps (sub_of hm rfl) ?_ | with_reducible refine State.keyMod_keeps (sub_of hm rfl) ?_ | split | dsimp only)

theorem State.rkLoad_keeps {m : Nat} {x : State} {s : State} {a1 : Nat} (hm : Nat.land 16388 m = 16388)
    (h : Same m x s) : Same m x (State.rkLoad s a1) := by
  unfold State.rkLoad
  repeat' (first | with_reducible assumption | intro _ | with_reducible refine State.drawn_keeps (sub_of hm rfl) ?_ | fail_if_no_progress with_reducible refine upd_ce (sub_of hm rfl) ?_ | split | dsimp only)

theorem State.rkUse_keeps {m : Nat} {x : State} {s : State} (hm : Nat.land 16388 m = 16388)
    (h : Same m x s) : Same m x (State.rkUse s) := by
  unfold State.rkUse
  repeat' (first | with_reducible assumption | intro _ | with_reducible refine State.drawn_keeps (sub_of hm rfl) ?_ | fail_if_no_progress with_reducible refine upd_ce (sub_of hm rfl) ?_ | split | dsimp only)

end Sys2Proof.Machine
end

