-- ==== Sys2Proof/Laws/FrameMapOps.lean ====
section
/-! SUPPORT. The frame of every operation of Machine/MapOps.lean, as a mask of the kinds of state that it may change. -/

set_option autoImplicit false
set_option linter.unusedTactic false
set_option linter.unreachableTactic false
set_option linter.unnecessarySeqFocus false
set_option linter.unusedSimpArgs false
set_option linter.unusedVariables false

namespace Sys2Proof.Machine

theorem State.mapcDrop_keeps {m : Nat} {x : State} {s : State} {a1 : Nat} (hm : Nat.land 68719484936 m = 68719484936)
    (h : Same m x s) : Same m x (State.mapcDrop s a1) := by
  unfold State.mapcDrop
  repeat' (first | with_reducible assumption | intro _ | with_reducible apply same_ite | with_reducible refine State.wrN_keeps (sub_of hm rfl) ?_ ?_ | fail_if_no_progress with_reducible refine upd_te (sub_of hm rfl) ?_ | with_reducible exact R.MAPC_VALID_CNT_ok (sub_of hm rfl) | (with_reducible refine regOk_of (c := 9) (sub_of hm rfl) (blk9 ?_ ?_) <;> simp only [R.MAPC_VALID_CNT] <;> omega) | split | dsimp only)

theorem State.mapcMark_keeps {m : Nat} {x : State} {s : State} {a1 : Nat} {a2 : Bool} (hm : Nat.land 8192 m = 8192)
    (h : Same m x s) : Same m x (State.mapcMark s a1 a2) := by
  unfold State.mapcMark
  repeat' (first | with_reducible assumption | intro _ | with_reducible apply same_ite | fail_if_no_progress with_reducible refine upd_te (sub_of hm rfl) ?_ | split | dsimp only)

theorem State.mapcFront_keeps {m : Nat} {x : State} {s : State} {a1 : Nat} {a2 : MapWay} (hm : Nat.land 8192 m = 8192)
    (h : Same m x s) : Same m x (State.mapcFront s a1 a2) := by
  unfold State.mapcFront
  repeat' (first | with_reducible assumption | intro _ | fail_if_no_progress with_reducible refine upd_te (sub_of hm rfl) ?_ | split | dsimp only)

theorem State.mapcTouch_keeps {m : Nat} {x : State} {s : State} {a1 : Nat} (hm : Nat.land 8192 m = 8192)
    (h : Same m x s) : Same m x (State.mapcTouch s a1) := by
  unfold State.mapcTouch
  repeat' (first | with_reducible assumption | intro _ | with_reducible refine State.mapcFront_keeps (sub_of hm rfl) ?_ | split | dsimp only)

theorem State.lineKeyUse_keeps {m : Nat} {x : State} {s : State} {a1 : Nat} {a2 : Nat} {a3 : Nat} (hm : Nat.land 16388 m = 16388)
    (h : Same m x s) : Same m x (State.lineKeyUse s a1 a2 a3) := by
  unfold State.lineKeyUse
  repeat' (first | with_reducible assumption | intro _ | with_reducible apply same_ite | with_reducible refine State.keyUse_keeps (sub_of hm rfl) ?_ | split | dsimp only)

theorem State.slotMod_keeps {m : Nat} {x : State} {s : State} {a1 : Nat} {a2 : Slot → Slot} (hm : Nat.land 8192 m = 8192)
    (h : Same m x s) : Same m x (State.slotMod s a1 a2) := by
  unfold State.slotMod
  repeat' (first | with_reducible assumption | intro _ | fail_if_no_progress with_reducible refine upd_te (sub_of hm rfl) ?_ | split | dsimp only)

theorem State.logEvent_keeps {m : Nat} {x : State} {s : State} {a1 : Nat} {a2 : Nat} {a3 : CxlRec} (hm : Nat.land 1099511660552 m = 1099511660552)
    (h : Same m x s) : Same m x (State.logEvent s a1 a2 a3) := by
  unfold State.logEvent
  repeat' (first | with_reducible assumption | intro _ | with_reducible apply same_ite | with_reducible refine State.bump_keeps (sub_of hm rfl) ?_ ?_ | fail_if_no_progress with_reducible refine upd_hp (sub_of hm rfl) ?_ | with_reducible exact R.HP_EVT_DROP_ok (sub_of hm rfl) | (with_reducible refine regOk_of (c := 13) (sub_of hm rfl) (blk13 ?_ ?_) <;> simp only [R.HP_EVT_DROP] <;> omega) | split | dsimp only)

theorem State.logTo_keeps {m : Nat} {x : State} {s : State} {a1 : List Nat} {a2 : Nat} {a3 : CxlRec} (hm : Nat.land 1099511660552 m = 1099511660552)
    (h : Same m x s) : Same m x (State.logTo s a1 a2 a3) := by
  unfold State.logTo
  repeat' (first | with_reducible assumption | intro _ | with_reducible apply same_foldl | with_reducible refine State.logEvent_keeps (sub_of hm rfl) ?_ | split | dsimp only)

theorem State.gmDevice_keeps {m : Nat} {x : State} {s : State} {a1 : List Nat} (hm : Nat.land 1099511660552 m = 1099511660552)
    (h : Same m x s) : Same m x (State.gmDevice s a1) := by
  unfold State.gmDevice
  repeat' (first | with_reducible assumption | intro _ | with_reducible refine State.logTo_keeps (sub_of hm rfl) ?_ | split | dsimp only)

theorem State.enterReadOnly_keeps {m : Nat} {x : State} {s : State} (hm : Nat.land 549822996490 m = 549822996490)
    (h : Same m x s) : Same m x (State.enterReadOnly s) := by
  unfold State.enterReadOnly
  repeat' (first | with_reducible assumption | intro _ | with_reducible apply same_ite | with_reducible apply same_foldl | with_reducible refine State.set_keeps (sub_of hm rfl) ?_ ?_ | with_reducible refine State.car_keeps (sub_of hm rfl) ?_ | fail_if_no_progress with_reducible refine upd_te (sub_of hm rfl) ?_ | fail_if_no_progress with_reducible refine upd_tw (sub_of hm rfl) ?_ | with_reducible exact R.CAR_RG_STS_ok (sub_of hm rfl) | with_reducible exact R.CAR_STS_ok (sub_of hm rfl) | (with_reducible refine regOk_of (c := 12) (sub_of hm rfl) (blk12 ?_ ?_) <;> simp only [R.CAR_RG_STS, R.CAR_STS] <;> omega) | split | dsimp only)

theorem State.seqMarks_keeps {m : Nat} {x : State} {s : State} (hm : Nat.land 1859788055306 m = 1859788055306)
    (h : Same m x s) : Same m x (State.seqMarks s) := by
  unfold State.seqMarks
  repeat' (first | with_reducible assumption | intro _ | with_reducible apply same_when | with_reducible refine State.showBudget_keeps (sub_of hm rfl) ?_ | with_reducible refine State.gmDevice_keeps (sub_of hm rfl) ?_ | with_reducible refine State.roll_keeps (sub_of hm rfl) ?_ | with_reducible refine State.setBit_keeps (sub_of hm rfl) ?_ ?_ | with_reducible refine State.enterReadOnly_keeps (sub_of hm rfl) ?_ | with_reducible refine State.pstAdd_keeps (sub_of hm rfl) ?_ | fail_if_no_progress with_reducible refine upd_te (sub_of hm rfl) ?_ | with_reducible exact R.TE_STS_ok (sub_of hm rfl) | (with_reducible refine regOk_of (c := 9) (sub_of hm rfl) (blk9 ?_ ?_) <;> simp only [R.TE_STS] <;> omega) | split | dsimp only)

theorem State.seqTake_keeps {m : Nat} {x : State} {s : State} {a1 : SeqUse} {t : State} {u0 : Nat} (hm : Nat.land 1859788055306 m = 1859788055306)
    (e : State.seqTake s a1 = some (u0, t)) (h : Same m x s) : Same m x t := by
  unfold State.seqTake at e
  (try dsimp only at e)
  (repeat' split at e) <;> (try cases e) <;> repeat' (first | with_reducible assumption | intro _ | with_reducible apply same_ite | with_reducible refine State.seqMarks_keeps (sub_of hm rfl) ?_ | with_reducible refine State.wrN_keeps (sub_of hm rfl) ?_ ?_ | with_reducible exact R.TE_SEQ_HI_ok (sub_of hm rfl) | with_reducible exact R.TE_SEQ_LO_ok (sub_of hm rfl) | (with_reducible refine regOk_of (c := 9) (sub_of hm rfl) (blk9 ?_ ?_) <;> simp only [R.TE_SEQ_HI, R.TE_SEQ_LO] <;> omega) | split | dsimp only)

theorem State.segChanged_keeps {m : Nat} {x : State} {s : State} {a1 : Nat} (hm : Nat.land 8192 m = 8192)
    (h : Same m x s) : Same m x (State.segChanged s a1) := by
  unfold State.segChanged
  repeat' (first | with_reducible assumption | intro _ | with_reducible apply same_ite | fail_if_no_progress with_reducible refine upd_te (sub_of hm rfl) ?_ | split | dsimp only)

theorem State.ptChanged_keeps {m : Nat} {x : State} {s : State} {a1 : Nat} (hm : Nat.land 8192 m = 8192)
    (h : Same m x s) : Same m x (State.ptChanged s a1) := by
  unfold State.ptChanged
  repeat' (first | with_reducible assumption | intro _ | with_reducible refine State.segChanged_keeps (sub_of hm rfl) ?_ | split | dsimp only)

theorem State.ptAllChanged_keeps {m : Nat} {x : State} {s : State} (hm : Nat.land 8192 m = 8192)
    (h : Same m x s) : Same m x (State.ptAllChanged s) := by
  unfold State.ptAllChanged
  repeat' (first | with_reducible assumption | intro _ | with_reducible refine State.segChanged_keeps (sub_of hm rfl) ?_ | split | dsimp only)

theorem State.ptPut_keeps {m : Nat} {x : State} {s : State} {a1 : Nat} {t : State}  (hm : Nat.land 68719484936 m = 68719484936)
    (e : State.ptPut s a1 = some t) (h : Same m x s) : Same m x t := by
  unfold State.ptPut at e
  (try dsimp only at e)
  (repeat' split at e) <;> (try cases e) <;> repeat' (first | with_reducible assumption | intro _ | with_reducible apply same_ite | with_reducible refine State.ptChanged_keeps (sub_of hm rfl) ?_ | with_reducible refine State.addCnt_keeps (sub_of hm rfl) ?_ ?_ | with_reducible refine State.ptAllChanged_keeps (sub_of hm rfl) ?_ | fail_if_no_progress with_reducible refine upd_te (sub_of hm rfl) ?_ | with_reducible exact R.TE_PT_LINES_ok (sub_of hm rfl) | with_reducible exact R.TE_PT_TILES_ok (sub_of hm rfl) | (with_reducible refine regOk_of (c := 9) (sub_of hm rfl) (blk9 ?_ ?_) <;> simp only [R.TE_PT_LINES, R.TE_PT_TILES] <;> omega) | split | dsimp only)

theorem State.setEntry_keeps {m : Nat} {x : State} {s : State} {a1 : Nat} {a2 : TEntry} (hm : Nat.land 8192 m = 8192)
    (h : Same m x s) : Same m x (State.setEntry s a1 a2) := by
  unfold State.setEntry
  repeat' (first | with_reducible assumption | intro _ | with_reducible apply same_ite | with_reducible refine State.segChanged_keeps (sub_of hm rfl) ?_ | fail_if_no_progress with_reducible refine upd_te (sub_of hm rfl) ?_ | split | dsimp only)

theorem State.ringReady_keeps {m : Nat} {x : State} {s : State} {a1 : Nat} {a2 : Nat} {t : State}  (hm : Nat.land 8192 m = 8192)
    (e : State.ringReady s a1 a2 = some t) (h : Same m x s) : Same m x t := by
  unfold State.ringReady at e
  (try dsimp only at e)
  (repeat' split at e) <;> (try cases e) <;> repeat' (first | with_reducible assumption | intro _ | with_reducible apply same_ite | fail_if_no_progress with_reducible refine upd_te (sub_of hm rfl) ?_ | split | dsimp only)

theorem State.flushPage_keeps {m : Nat} {x : State} {s : State} {a1 : List JEntry} {t : State}  (hm : Nat.land 19451974099722 m = 19451974099722)
    (e : State.flushPage s a1 = some t) (h : Same m x s) : Same m x t := by
  unfold State.flushPage at e
  (try dsimp only at e)
  (repeat' split at e) <;> (try cases e) <;> repeat' (first | with_reducible assumption | intro _ | with_reducible apply same_ite | with_reducible refine State.ringReady_keeps (sub_of hm rfl) (by assumption) ?_ | with_reducible refine State.seqTake_keeps (sub_of hm rfl) (by assumption) ?_ | with_reducible refine State.emit_keeps (sub_of hm rfl) ?_ | with_reducible refine State.bump_keeps (sub_of hm rfl) ?_ ?_ | with_reducible refine State.wr64_keeps (sub_of hm rfl) ?_ ?_ ?_ | fail_if_no_progress with_reducible refine upd_te (sub_of hm rfl) ?_ | with_reducible exact R.MC_PGM_CNT_ok (sub_of hm rfl) | with_reducible exact R.TE_JSEQ_LO_ok (sub_of hm rfl) | (with_reducible refine regOk_of (c := 9) (sub_of hm rfl) (blk9 ?_ ?_) <;> simp only [R.TE_JSEQ_LO] <;> omega) | (with_reducible refine regOk_of (c := 17) (sub_of hm rfl) (blk17 ?_ ?_) <;> simp only [R.MC_PGM_CNT] <;> omega) | split | dsimp only)

theorem State.flushPages_keeps {m : Nat} {x : State} {l : List (List JEntry)} {s t : State} (hm : Nat.land 19451974099722 m = 19451974099722)
    (e : State.flushPages l s = some t) (h : Same m x s) : Same m x t := by
  induction l generalizing s with
  | nil => cases e; exact h
  | cons es l ih =>
    unfold State.flushPages at e
    split at e
    · cases e
    · exact ih e (State.flushPage_keeps (sub_of hm rfl) (by assumption) h)

theorem State.journalFlush_keeps {m : Nat} {x : State} {s : State} (hm : Nat.land 19451974099722 m = 19451974099722)
    (h : Same m x s) : Same m x (State.journalFlush s) := by
  unfold State.journalFlush
  repeat' (first | with_reducible assumption | intro _ | with_reducible refine State.flushPages_keeps (sub_of hm rfl) (by assumption) ?_ | with_reducible refine State.bump_keeps (sub_of hm rfl) ?_ ?_ | fail_if_no_progress with_reducible refine upd_te (sub_of hm rfl) ?_ | with_reducible exact R.TE_JRN_FLUSH_CNT_ok (sub_of hm rfl) | (with_reducible refine regOk_of (c := 9) (sub_of hm rfl) (blk9 ?_ ?_) <;> simp only [R.TE_JRN_FLUSH_CNT] <;> omega) | split | dsimp only)

theorem State.journal_keeps {m : Nat} {x : State} {s : State} {a1 : List JEntry} (hm : Nat.land 19451974099722 m = 19451974099722)
    (h : Same m x s) : Same m x (State.journal s a1) := by
  unfold State.journal
  repeat' (first | with_reducible assumption | intro _ | with_reducible apply same_ite | with_reducible refine State.journalFlush_keeps (sub_of hm rfl) ?_ | fail_if_no_progress with_reducible refine upd_te (sub_of hm rfl) ?_ | split | dsimp only)

theorem State.ptFull_keeps {m : Nat} {x : State} {s : State} {a1 : Nat} (hm : Nat.land 68786618888 m = 68786618888)
    (h : Same m x s) : Same m x (State.ptFull s a1) := by
  unfold State.ptFull
  repeat' (first | with_reducible assumption | intro _ | with_reducible apply same_when | with_reducible refine State.roll_keeps (sub_of hm rfl) ?_ | with_reducible refine State.setBit_keeps (sub_of hm rfl) ?_ ?_ | fail_if_no_progress with_reducible refine upd_hp (sub_of hm rfl) ?_ | with_reducible exact R.TE_STS_ok (sub_of hm rfl) | (with_reducible refine regOk_of (c := 9) (sub_of hm rfl) (blk9 ?_ ?_) <;> simp only [R.TE_STS] <;> omega) | split | dsimp only)

theorem State.ptWhole_keeps {m : Nat} {x : State} {s : State} {a1 : Nat} (hm : Nat.land 19451974099722 m = 19451974099722)
    (h : Same m x s) : Same m x (State.ptWhole s a1) := by
  unfold State.ptWhole
  repeat' (first | with_reducible assumption | intro _ | with_reducible apply same_ite | with_reducible refine State.setEntry_keeps (sub_of hm rfl) ?_ | with_reducible refine State.journal_keeps (sub_of hm rfl) ?_ | with_reducible refine State.addCnt_keeps (sub_of hm rfl) ?_ ?_ | fail_if_no_progress with_reducible refine upd_te (sub_of hm rfl) ?_ | with_reducible exact R.TE_PT_WHOLE_ok (sub_of hm rfl) | (with_reducible refine regOk_of (c := 9) (sub_of hm rfl) (blk9 ?_ ?_) <;> simp only [R.TE_PT_WHOLE] <;> omega) | split | dsimp only)

theorem State.poisonLine_keeps {m : Nat} {x : State} {s : State} {a1 : Nat} (hm : Nat.land 19451974099722 m = 19451974099722)
    (h : Same m x s) : Same m x (State.poisonLine s a1) := by
  unfold State.poisonLine
  repeat' (first | with_reducible assumption | intro _ | with_reducible apply same_ite | with_reducible refine State.bmapSet_keeps (sub_of hm rfl) ?_ | with_reducible refine State.ptPut_keeps (sub_of hm rfl) (by assumption) ?_ | with_reducible refine State.setEntry_keeps (sub_of hm rfl) ?_ | with_reducible refine State.journal_keeps (sub_of hm rfl) ?_ | with_reducible refine State.addCnt_keeps (sub_of hm rfl) ?_ ?_ | with_reducible refine State.ptFull_keeps (sub_of hm rfl) ?_ | with_reducible refine State.ptWhole_keeps (sub_of hm rfl) ?_ | fail_if_no_progress with_reducible refine upd_hp (sub_of hm rfl) ?_ | fail_if_no_progress with_reducible refine upd_te (sub_of hm rfl) ?_ | with_reducible exact R.TE_PT_LINES_ok (sub_of hm rfl) | (with_reducible refine regOk_of (c := 9) (sub_of hm rfl) (blk9 ?_ ?_) <;> simp only [R.TE_PT_LINES] <;> omega) | split | dsimp only)

theorem State.lineEvents_keeps {m : Nat} {x : State} {s : State} {a1 : Nat} {a2 : Nat} (hm : Nat.land 1099578769928 m = 1099578769928)
    (h : Same m x s) : Same m x (State.lineEvents s a1 a2) := by
  unfold State.lineEvents
  repeat' (first | with_reducible assumption | intro _ | with_reducible apply same_ite | with_reducible refine State.logTo_keeps (sub_of hm rfl) ?_ | with_reducible refine State.roll_keeps (sub_of hm rfl) ?_ | split | dsimp only)

theorem State.dieMod_keeps {m : Nat} {x : State} {s : State} {a1 : Nat} {a2 : DieCtl → DieCtl} (hm : Nat.land 8192 m = 8192)
    (h : Same m x s) : Same m x (State.dieMod s a1 a2) := by
  unfold State.dieMod
  repeat' (first | with_reducible assumption | intro _ | fail_if_no_progress with_reducible refine upd_te (sub_of hm rfl) ?_ | split | dsimp only)

theorem State.unpoisonLine_keeps {m : Nat} {x : State} {s : State} {a1 : Nat} (hm : Nat.land 19451974099722 m = 19451974099722)
    (h : Same m x s) : Same m x (State.unpoisonLine s a1) := by
  unfold State.unpoisonLine
  repeat' (first | with_reducible assumption | intro _ | with_reducible apply same_ite | with_reducible apply same_when | with_reducible refine State.bmapSet_keeps (sub_of hm rfl) ?_ | with_reducible refine State.ptChanged_keeps (sub_of hm rfl) ?_ | with_reducible refine State.wrN_keeps (sub_of hm rfl) ?_ ?_ | with_reducible refine State.setEntry_keeps (sub_of hm rfl) ?_ | with_reducible refine State.journal_keeps (sub_of hm rfl) ?_ | with_reducible refine State.setBit_keeps (sub_of hm rfl) ?_ ?_ | fail_if_no_progress with_reducible refine upd_hp (sub_of hm rfl) ?_ | fail_if_no_progress with_reducible refine upd_te (sub_of hm rfl) ?_ | with_reducible exact R.TE_PT_LINES_ok (sub_of hm rfl) | with_reducible exact R.TE_PT_TILES_ok (sub_of hm rfl) | with_reducible exact R.TE_STS_ok (sub_of hm rfl) | (with_reducible refine regOk_of (c := 9) (sub_of hm rfl) (blk9 ?_ ?_) <;> simp only [R.TE_PT_LINES, R.TE_PT_TILES, R.TE_STS] <;> omega) | split | dsimp only)

theorem State.slotDrop_keeps {m : Nat} {x : State} {s : State} {a1 : Nat} (hm : Nat.land 8192 m = 8192)
    (h : Same m x s) : Same m x (State.slotDrop s a1) := by
  unfold State.slotDrop
  repeat' (first | with_reducible assumption | intro _ | with_reducible apply same_ite | with_reducible refine State.setEntry_keeps (sub_of hm rfl) ?_ | fail_if_no_progress with_reducible refine upd_te (sub_of hm rfl) ?_ | split | dsimp only)

theorem State.slotNext_keeps {m : Nat} {x : State} {s t : State} {n : Nat} {b : Bool} (hm : Nat.land 8192 m = 8192)
    (e : s.slotNext b = some (n, t)) (h : Same m x s) : Same m x t := by
  unfold State.slotNext at e
  dsimp only at e
  split at e
  · obtain ⟨k, -, hk⟩ := Option.map_eq_some_iff.mp e
    cases hk
    exact h
  · split at e
    · cases e
      exact State.slotDrop_keeps (sub_of hm rfl) h
    · split at e
      · obtain ⟨k, -, hk⟩ := Option.map_eq_some_iff.mp e
        cases hk
        exact h
      · cases e

theorem State.slotTake_keeps {m : Nat} {x : State} {s t : State} {k n : Nat} {b : Bool} (hm : Nat.land 8192 m = 8192)
    (e : s.slotTake k b = some (n, t)) (h : Same m x s) : Same m x t := by
  unfold State.slotTake at e
  split at e
  · cases e
  · next n u hu =>
    have hu' : Same m x u := State.slotNext_keeps (sub_of hm rfl) hu h
    cases e
    exact upd_te (sub_of hm rfl) hu'

theorem State.slotOf_keeps {m : Nat} {x : State} {s : State} {a1 : Nat} {a2 : Bool} {t : State} {u0 : Nat} (hm : Nat.land 8192 m = 8192)
    (e : State.slotOf s a1 a2 = some (u0, t)) (h : Same m x s) : Same m x t := by
  unfold State.slotOf at e
  (try dsimp only at e)
  (repeat' split at e) <;> (try cases e) <;> repeat' (first | with_reducible assumption | intro _ | with_reducible apply same_ite | with_reducible refine State.slotTake_keeps (sub_of hm rfl) (by assumption) ?_ | split | dsimp only)

theorem State.slotPutDirty_keeps {m : Nat} {x : State} {s t : State} {line n : Nat} {d : Line} {b : Bool}
    (hm : Nat.land 67133452 m = 67133452) (e : s.slotPutDirty line d b = some (n, t)) (h : Same m x s) : Same m x t := by
  unfold State.slotPutDirty at e
  dsimp only at e
  split at e
  · cases e
  · next k u hu =>
    have hu' : Same m x u := State.slotOf_keeps (sub_of hm rfl) hu h
    clear hu
    cases e
    refine State.pcItem_keeps (sub_of hm rfl) ?_
    split <;> repeat' (first | exact hu' | with_reducible refine State.xtsUse_keeps (sub_of hm rfl) ?_ | with_reducible refine State.slotMod_keeps (sub_of hm rfl) ?_ | with_reducible refine State.setEntry_keeps (sub_of hm rfl) ?_)

theorem State.blkMod_keeps {m : Nat} {x : State} {s : State} {a1 : Nat} {a2 : Nat} {a3 : Blk → Blk} (hm : Nat.land 8192 m = 8192)
    (h : Same m x s) : Same m x (State.blkMod s a1 a2 a3) := by
  unfold State.blkMod
  repeat' (first | with_reducible assumption | intro _ | with_reducible refine State.segChanged_keeps (sub_of hm rfl) ?_ | fail_if_no_progress with_reducible refine upd_te (sub_of hm rfl) ?_ | split | dsimp only)

theorem State.pageSettle_keeps {m : Nat} {x : State} {s : State} {a1 : Nat} {a2 : Nat} (hm : Nat.land 19451974099722 m = 19451974099722)
    (h : Same m x s) : Same m x (State.pageSettle s a1 a2) := by
  unfold State.pageSettle
  repeat' (first | with_reducible assumption | intro _ | with_reducible apply same_ite | with_reducible apply same_foldl | with_reducible refine State.blkMod_keeps (sub_of hm rfl) ?_ | with_reducible refine State.journal_keeps (sub_of hm rfl) ?_ | split | dsimp only)

theorem State.blkSettle_keeps {m : Nat} {x : State} {s : State} {a1 : Nat} {a2 : Nat} (hm : Nat.land 19451974099722 m = 19451974099722)
    (h : Same m x s) : Same m x (State.blkSettle s a1 a2) := by
  unfold State.blkSettle
  repeat' (first | with_reducible assumption | intro _ | with_reducible apply same_ite | with_reducible refine State.pageSettle_keeps (sub_of hm rfl) ?_ | with_reducible refine State.roll_keeps (sub_of hm rfl) ?_ | with_reducible refine State.addCnt_keeps (sub_of hm rfl) ?_ ?_ | with_reducible refine State.journal_keeps (sub_of hm rfl) ?_ | with_reducible refine State.blkMod_keeps (sub_of hm rfl) ?_ | with_reducible exact R.TE_BLK_RETIRED_ok (sub_of hm rfl) | (with_reducible refine regOk_of (c := 9) (sub_of hm rfl) (blk9 ?_ ?_) <;> simp only [R.TE_BLK_RETIRED] <;> omega) | split | dsimp only)

theorem State.areaPage_keeps {m : Nat} {x : State} {s : State} {a1 : Nat} {a2 : Nat} {a3 : Nat} {a4 : Nat} (hm : Nat.land 8192 m = 8192)
    (h : Same m x s) : Same m x (State.areaPage s a1 a2 a3 a4) := by
  unfold State.areaPage
  repeat' (first | with_reducible assumption | intro _ | fail_if_no_progress with_reducible refine upd_te (sub_of hm rfl) ?_ | split | dsimp only)

theorem State.moduleEvent_keeps {m : Nat} {x : State} {s : State} {a1 : List Nat} (hm : Nat.land 1099511660552 m = 1099511660552)
    (h : Same m x s) : Same m x (State.moduleEvent s a1) := by
  unfold State.moduleEvent
  repeat' (first | with_reducible assumption | intro _ | with_reducible refine State.logTo_keeps (sub_of hm rfl) ?_ | split | dsimp only)

theorem State.fatalEvent_keeps {m : Nat} {x : State} {s : State} {a1 : List Nat} (hm : Nat.land 1099511660552 m = 1099511660552)
    (h : Same m x s) : Same m x (State.fatalEvent s a1) := by
  unfold State.fatalEvent
  repeat' (first | with_reducible assumption | intro _ | with_reducible refine State.logTo_keeps (sub_of hm rfl) ?_ | split | dsimp only)

theorem State.mapcInvStart_keeps {m : Nat} {x : State} {s : State} (hm : Nat.land 68719476744 m = 68719476744)
    (h : Same m x s) : Same m x (State.mapcInvStart s) := by
  unfold State.mapcInvStart
  repeat' (first | with_reducible assumption | intro _ | with_reducible refine State.setBit_keeps (sub_of hm rfl) ?_ ?_ | with_reducible exact R.MAPC_CTL_ok (sub_of hm rfl) | with_reducible exact R.MAPC_STS_ok (sub_of hm rfl) | (with_reducible refine regOk_of (c := 9) (sub_of hm rfl) (blk9 ?_ ?_) <;> simp only [R.MAPC_CTL, R.MAPC_STS] <;> omega) | split | dsimp only)

theorem State.dramEvent_keeps {m : Nat} {x : State} {s : State} {a1 : List Nat} (hm : Nat.land 1099511660552 m = 1099511660552)
    (h : Same m x s) : Same m x (State.dramEvent s a1) := by
  unfold State.dramEvent
  repeat' (first | with_reducible assumption | intro _ | with_reducible refine State.logTo_keeps (sub_of hm rfl) ?_ | split | dsimp only)

theorem State.mapcFill_keeps {m : Nat} {x : State} {s : State} {a1 : Nat} (hm : Nat.land 68719484936 m = 68719484936)
    (h : Same m x s) : Same m x (State.mapcFill s a1) := by
  unfold State.mapcFill
  repeat' (first | with_reducible assumption | intro _ | with_reducible apply same_ite | with_reducible refine State.mapcTouch_keeps (sub_of hm rfl) ?_ | with_reducible refine State.wrN_keeps (sub_of hm rfl) ?_ ?_ | with_reducible refine State.mapcFront_keeps (sub_of hm rfl) ?_ | with_reducible exact R.MAPC_VALID_CNT_ok (sub_of hm rfl) | (with_reducible refine regOk_of (c := 9) (sub_of hm rfl) (blk9 ?_ ?_) <;> simp only [R.MAPC_VALID_CNT] <;> omega) | split | dsimp only)

theorem State.ptWholeClear_keeps {m : Nat} {x : State} {s : State} {a1 : Nat} (hm : Nat.land 19451974099722 m = 19451974099722)
    (h : Same m x s) : Same m x (State.ptWholeClear s a1) := by
  unfold State.ptWholeClear
  repeat' (first | with_reducible assumption | intro _ | with_reducible apply same_ite | with_reducible refine State.setEntry_keeps (sub_of hm rfl) ?_ | with_reducible refine State.journal_keeps (sub_of hm rfl) ?_ | with_reducible refine State.wrN_keeps (sub_of hm rfl) ?_ ?_ | fail_if_no_progress with_reducible refine upd_te (sub_of hm rfl) ?_ | with_reducible exact R.TE_PT_WHOLE_ok (sub_of hm rfl) | (with_reducible refine regOk_of (c := 9) (sub_of hm rfl) (blk9 ?_ ?_) <;> simp only [R.TE_PT_WHOLE] <;> omega) | split | dsimp only)

theorem State.slotPutClean_keeps {m : Nat} {x : State} {s : State} {a1 : Nat} {a2 : Line} (hm : Nat.land 137506086924 m = 137506086924)
    (h : Same m x s) : Same m x (State.slotPutClean s a1 a2) := by
  unfold State.slotPutClean
  repeat' (first | with_reducible assumption | intro _ | with_reducible apply same_ite | with_reducible refine State.slotTake_keeps (sub_of hm rfl) (by assumption) ?_ | with_reducible refine State.setEntry_keeps (sub_of hm rfl) ?_ | with_reducible refine State.pcItem_keeps (sub_of hm rfl) ?_ | with_reducible refine State.tsStatus_keeps (sub_of hm rfl) ?_ | with_reducible refine State.slotMod_keeps (sub_of hm rfl) ?_ | with_reducible refine State.xtsUse_keeps (sub_of hm rfl) ?_ | split | dsimp only)

end Sys2Proof.Machine
end

