-- ==== Sys2Proof/Laws/FrameCacheOps.lean ====
section
/-! SUPPORT. The frame of every operation of Machine/CacheOps.lean, as a mask of the kinds of state that it may change. -/

set_option autoImplicit false
set_option linter.unusedTactic false
set_option linter.unreachableTactic false
set_option linter.unnecessarySeqFocus false
set_option linter.unusedSimpArgs false
set_option linter.unusedVariables false

namespace Sys2Proof.Machine

theorem State.lcFault_keeps {m : Nat} {x : State} {s : State} {a1 : Nat} {a2 : Nat} (hm : Nat.land 83887630 m = 83887630)
    (h : Same m x s) : Same m x (State.lcFault s a1 a2) := by
  unfold State.lcFault
  repeat' (first | with_reducible assumption | intro _ | with_reducible refine State.raise_keeps (sub_of hm rfl) ?_ | split | dsimp only)

theorem State.setWay_keeps {m : Nat} {x : State} {s : State} {a1 : Nat} {a2 : Nat} {a3 : Way} (hm : Nat.land 4096 m = 4096)
    (h : Same m x s) : Same m x (State.setWay s a1 a2 a3) := by
  unfold State.setWay
  repeat' (first | with_reducible assumption | intro _ | fail_if_no_progress with_reducible refine upd_lc (sub_of hm rfl) ?_ | split | dsimp only)

theorem State.lcTagRepair_keeps {m : Nat} {x : State} {s : State} {a1 : Nat} {a2 : Nat} (hm : Nat.land 34443630094 m = 34443630094)
    (h : Same m x s) : Same m x (State.lcTagRepair s a1 a2) := by
  unfold State.lcTagRepair
  repeat' (first | with_reducible assumption | intro _ | with_reducible refine State.lcFault_keeps (sub_of hm rfl) ?_ | with_reducible refine State.bump_keeps (sub_of hm rfl) ?_ ?_ | with_reducible refine State.setWay_keeps (sub_of hm rfl) ?_ | with_reducible exact R.LC_TAG_PE_CNT_ok (sub_of hm rfl) | (with_reducible refine regOk_of (c := 8) (sub_of hm rfl) (blk8 ?_ ?_) <;> simp only [R.LC_TAG_PE_CNT] <;> omega) | split | dsimp only)

theorem State.wayFetch_keeps {m : Nat} {x : State} {s : State} {a1 : Nat} {a2 : Nat} {a3 : Bool} (hm : Nat.land 4096 m = 4096)
    (h : Same m x s) : Same m x (State.wayFetch s a1 a2 a3) := by
  unfold State.wayFetch
  repeat' (first | with_reducible assumption | intro _ | with_reducible apply same_ite | fail_if_no_progress with_reducible refine upd_lc (sub_of hm rfl) ?_ | split | dsimp only)

theorem State.subCnt_keeps {m : Nat} {x : State} {s : State} {a1 a2 : Nat} (hm : Nat.land 8 m = 8) (hc : RegOk m a1)
    (h : Same m x s) : Same m x (s.subCnt a1 a2) := State.wr_keeps (sub_of hm rfl) hc h

theorem State.staleShow_keeps {m : Nat} {x : State} {s : State} (hm : Nat.land 34359738376 m = 34359738376)
    (h : Same m x s) : Same m x (State.staleShow s) := by
  unfold State.staleShow
  repeat' (first | with_reducible assumption | intro _ | with_reducible apply same_ite | with_reducible refine State.setBit_keeps (sub_of hm rfl) ?_ ?_ | with_reducible exact R.LC_STS_ok (sub_of hm rfl) | (with_reducible refine regOk_of (c := 8) (sub_of hm rfl) (blk8 ?_ ?_) <;> simp only [R.LC_STS] <;> omega) | split | dsimp only)

theorem State.lcClear_keeps {m : Nat} {x : State} {s : State} {a1 : Nat} {a2 : Nat} (hm : Nat.land 171865872394 m = 171865872394)
    (h : Same m x s) : Same m x (State.lcClear s a1 a2) := by
  unfold State.lcClear
  repeat' (first | with_reducible assumption | intro _ | with_reducible apply same_ite | with_reducible refine State.wayFetch_keeps (sub_of hm rfl) ?_ | with_reducible refine State.setWay_keeps (sub_of hm rfl) ?_ | with_reducible refine State.subCnt_keeps (sub_of hm rfl) ?_ ?_ | with_reducible refine State.release_keeps (sub_of hm rfl) ?_ | with_reducible refine State.staleShow_keeps (sub_of hm rfl) ?_ | with_reducible exact R.LC_DIRTY_CNT_ok (sub_of hm rfl) | with_reducible exact R.LC_LOCK_CNT_ok (sub_of hm rfl) | with_reducible exact R.LC_STS_ok (sub_of hm rfl) | (with_reducible refine regOk_of (c := 8) (sub_of hm rfl) (blk8 ?_ ?_) <;> simp only [R.LC_DIRTY_CNT, R.LC_LOCK_CNT, R.LC_STS] <;> omega) | split | dsimp only)

theorem State.lcWithdraw_keeps {m : Nat} {x : State} {s : State} {a1 : Nat} {a2 : Nat} (hm : Nat.land 171882651150 m = 171882651150)
    (h : Same m x s) : Same m x (State.lcWithdraw s a1 a2) := by
  unfold State.lcWithdraw
  repeat' (first | with_reducible assumption | intro _ | with_reducible refine State.lcFault_keeps (sub_of hm rfl) ?_ | with_reducible refine State.lcClear_keeps (sub_of hm rfl) ?_ | fail_if_no_progress with_reducible refine upd_lc (sub_of hm rfl) ?_ | split | dsimp only)

theorem State.lcMark_keeps {m : Nat} {x : State} {s : State} {a1 : Nat} {a2 : Nat} {a3 : Nat} {a4 : Bool} (hm : Nat.land 4096 m = 4096)
    (h : Same m x s) : Same m x (State.lcMark s a1 a2 a3 a4) := by
  unfold State.lcMark
  repeat' (first | with_reducible assumption | intro _ | with_reducible apply same_ite | with_reducible refine State.setWay_keeps (sub_of hm rfl) ?_ | split | dsimp only)

theorem State.lcTouch_keeps {m : Nat} {x : State} {s : State} {a1 : Nat} {a2 : Nat} (hm : Nat.land 4096 m = 4096)
    (h : Same m x s) : Same m x (State.lcTouch s a1 a2) := by
  unfold State.lcTouch
  repeat' (first | with_reducible assumption | intro _ | fail_if_no_progress with_reducible refine upd_lc (sub_of hm rfl) ?_ | split | dsimp only)

theorem State.lcPut_keeps {m : Nat} {x : State} {s : State} {a1 : Nat} {a2 : Nat} {a3 : Line} {a4 : Bool} {a5 : Bool} (hm : Nat.land 34359742472 m = 34359742472)
    (h : Same m x s) : Same m x (State.lcPut s a1 a2 a3 a4 a5) := by
  unfold State.lcPut
  repeat' (first | with_reducible assumption | intro _ | with_reducible apply same_ite | with_reducible refine State.addCnt_keeps (sub_of hm rfl) ?_ ?_ | with_reducible refine State.lcTouch_keeps (sub_of hm rfl) ?_ | with_reducible refine State.wayFetch_keeps (sub_of hm rfl) ?_ | with_reducible refine State.setWay_keeps (sub_of hm rfl) ?_ | with_reducible exact R.LC_DIRTY_CNT_ok (sub_of hm rfl) | (with_reducible refine regOk_of (c := 8) (sub_of hm rfl) (blk8 ?_ ?_) <;> simp only [R.LC_DIRTY_CNT] <;> omega) | split | dsimp only)

theorem State.lcWriteBack_keeps {m : Nat} {x : State} {s : State} {a1 : Nat} {a2 : Nat} (hm : Nat.land 34359742472 m = 34359742472)
    (h : Same m x s) : Same m x (State.lcWriteBack s a1 a2) := by
  unfold State.lcWriteBack
  repeat' (first | with_reducible assumption | intro _ | with_reducible apply same_ite | with_reducible refine State.addCnt_keeps (sub_of hm rfl) ?_ ?_ | with_reducible refine State.subCnt_keeps (sub_of hm rfl) ?_ ?_ | with_reducible refine State.setWay_keeps (sub_of hm rfl) ?_ | fail_if_no_progress with_reducible refine upd_lc (sub_of hm rfl) ?_ | with_reducible exact R.LC_CE_CNT_ok (sub_of hm rfl) | with_reducible exact R.LC_DIRTY_CNT_ok (sub_of hm rfl) | (with_reducible refine regOk_of (c := 8) (sub_of hm rfl) (blk8 ?_ ?_) <;> simp only [R.LC_CE_CNT, R.LC_DIRTY_CNT] <;> omega) | split | dsimp only)

theorem State.lcEmpty_keeps {m : Nat} {x : State} {s : State} {a1 : Nat} {a2 : Nat} (hm : Nat.land 34359742472 m = 34359742472)
    (h : Same m x s) : Same m x (State.lcEmpty s a1 a2) := by
  unfold State.lcEmpty
  repeat' (first | with_reducible assumption | intro _ | with_reducible refine State.lcWriteBack_keeps (sub_of hm rfl) ?_ | with_reducible refine State.wayFetch_keeps (sub_of hm rfl) ?_ | with_reducible refine State.setWay_keeps (sub_of hm rfl) ?_ | split | dsimp only)

theorem State.lcFill_keeps {m : Nat} {x : State} {s : State} {a1 : Nat} {a2 : Line} (hm : Nat.land 34359742472 m = 34359742472)
    (h : Same m x s) : Same m x (State.lcFill s a1 a2) := by
  unfold State.lcFill
  repeat' (first | with_reducible assumption | intro _ | with_reducible apply same_ite | with_reducible refine State.bump_keeps (sub_of hm rfl) ?_ ?_ | with_reducible refine State.lcPut_keeps (sub_of hm rfl) ?_ | with_reducible refine State.lcEmpty_keeps (sub_of hm rfl) ?_ | with_reducible exact R.LC_FILL_DROP_ok (sub_of hm rfl) | with_reducible exact R.LC_STS_ok (sub_of hm rfl) | (with_reducible refine regOk_of (c := 8) (sub_of hm rfl) (blk8 ?_ ?_) <;> simp only [R.LC_FILL_DROP, R.LC_STS] <;> omega) | split | dsimp only)

theorem State.lcInvalidate_keeps {m : Nat} {x : State} {s : State} {a1 : Nat} {a2 : Nat} (hm : Nat.land 171865872394 m = 171865872394)
    (h : Same m x s) : Same m x (State.lcInvalidate s a1 a2) := by
  unfold State.lcInvalidate
  repeat' (first | with_reducible assumption | intro _ | with_reducible apply same_ite | with_reducible refine State.lcClear_keeps (sub_of hm rfl) ?_ | split | dsimp only)

theorem State.lcLoseDirty_keeps {m : Nat} {x : State} {s : State} {a1 : Nat} {a2 : Nat} (hm : Nat.land 19486350622478 m = 19486350622478)
    (h : Same m x s) : Same m x (State.lcLoseDirty s a1 a2) := by
  unfold State.lcLoseDirty
  repeat' (first | with_reducible assumption | intro _ | with_reducible refine State.lcFault_keeps (sub_of hm rfl) ?_ | with_reducible refine State.lineEvents_keeps (sub_of hm rfl) ?_ | with_reducible refine State.lcInvalidate_keeps (sub_of hm rfl) ?_ | with_reducible refine State.poisonLine_keeps (sub_of hm rfl) ?_ | split | dsimp only)

theorem State.poisonNow_keeps {m : Nat} {x : State} {s : State} {a1 : Nat} (hm : Nat.land 19451974120206 m = 19451974120206)
    (h : Same m x s) : Same m x (State.poisonNow s a1) := by
  unfold State.poisonNow
  repeat' (first | with_reducible assumption | intro _ | with_reducible apply same_ite | with_reducible refine State.poisonLine_keeps (sub_of hm rfl) ?_ | with_reducible refine State.wayFetch_keeps (sub_of hm rfl) ?_ | with_reducible refine State.setWay_keeps (sub_of hm rfl) ?_ | with_reducible refine State.slotMod_keeps (sub_of hm rfl) ?_ | with_reducible refine State.xtsUse_keeps (sub_of hm rfl) ?_ | fail_if_no_progress with_reducible refine upd_lc (sub_of hm rfl) ?_ | split | dsimp only)

end Sys2Proof.Machine
end

