-- ==== Sys2Proof/Laws/FramePathOps.lean ====
section
/-! SUPPORT. The frame of every operation of Machine/PathOps.lean, as a mask of the kinds of state that it may change. -/

set_option autoImplicit false
set_option linter.unusedTactic false
set_option linter.unreachableTactic false
set_option linter.unnecessarySeqFocus false
set_option linter.unusedSimpArgs false
set_option linter.unusedVariables false

namespace Sys2Proof.Machine

theorem State.reqDel_keeps {m : Nat} {x : State} {s : State} {a1 : Nat} (hm : Nat.land 2048 m = 2048)
    (h : Same m x s) : Same m x (State.reqDel s a1) := by
  unfold State.reqDel
  repeat' (first | with_reducible assumption | intro _ | fail_if_no_progress with_reducible refine upd_rt (sub_of hm rfl) ?_ | split | dsimp only)

theorem State.countLate_keeps {m : Nat} {x : State} {s : State} {a1 : Nat} (hm : Nat.land 8796176909838 m = 8796176909838) (h : Same m x s) : Same m x (s.countLate a1) := by
  have ho : RegOk m (lateReg a1) := regOk_of (c := 16) (sub_of hm rfl)
    (blk16 (by unfold lateReg R.RT_LATE_STATE; omega) (by unfold lateReg R.RT_LATE_STATE; omega))
  unfold State.countLate
  repeat' (first | with_reducible assumption | intro _ | with_reducible apply same_ite | with_reducible apply same_when | with_reducible refine State.roll_keeps (sub_of hm rfl) ?_ | with_reducible refine State.bump_keeps (sub_of hm rfl) ?_ ?_ | with_reducible refine State.raise_keeps (sub_of hm rfl) ?_ | with_reducible exact R.RT_LATE_CTL_ok (sub_of hm rfl) | (with_reducible refine regOk_of (c := 16) (sub_of hm rfl) (blk16 ?_ ?_) <;> simp only [R.RT_LATE_CTL] <;> omega) | split | dsimp only)

theorem State.measure_keeps {m : Nat} {x : State} {s : State} {a1 : Req} {a2 : Bool} (hm : Nat.land 8796176909838 m = 8796176909838)
    (h : Same m x s) : Same m x (State.measure s a1 a2) := by
  unfold State.measure
  repeat' (first | with_reducible assumption | intro _ | with_reducible apply same_ite | with_reducible refine State.countLate_keeps (sub_of hm rfl) ?_ | split | dsimp only)

theorem State.respond_keeps {m : Nat} {x : State} {s : State} {a1 : Req} {a2 : Line} {a3 : Bool} {a4 : Bool} (hm : Nat.land 9895722192398 m = 9895722192398)
    (h : Same m x s) : Same m x (State.respond s a1 a2 a3 a4) := by
  unfold State.respond
  repeat' (first | with_reducible assumption | intro _ | with_reducible apply same_ite | with_reducible refine State.reqDel_keeps (sub_of hm rfl) ?_ | with_reducible refine State.emit_keeps (sub_of hm rfl) ?_ | with_reducible refine State.bump_keeps (sub_of hm rfl) ?_ ?_ | with_reducible refine State.measure_keeps (sub_of hm rfl) ?_ | with_reducible refine State.car_keeps (sub_of hm rfl) ?_ | with_reducible refine State.crd_keeps (sub_of hm rfl) ?_ | with_reducible refine State.reply_keeps (sub_of hm rfl) ?_ | with_reducible refine State.creditBack_keeps (sub_of hm rfl) ?_ | fail_if_no_progress with_reducible refine upd_hp (sub_of hm rfl) ?_ | fail_if_no_progress with_reducible refine upd_tw (sub_of hm rfl) ?_ | with_reducible exact R.HP_POISON_RSP_ok (sub_of hm rfl) | (with_reducible refine regOk_of (c := 13) (sub_of hm rfl) (blk13 ?_ ?_) <;> simp only [R.HP_POISON_RSP] <;> omega) | split | dsimp only)

theorem State.wakeAfter_keeps {m : Nat} {x : State} {s : State} {a1 : Nat} (hm : Nat.land 2048 m = 2048)
    (h : Same m x s) : Same m x (State.wakeAfter s a1) := by
  unfold State.wakeAfter
  repeat' (first | with_reducible assumption | intro _ | with_reducible apply same_ite | fail_if_no_progress with_reducible refine upd_rt (sub_of hm rfl) ?_ | split | dsimp only)

theorem State.reqMod_keeps {m : Nat} {x : State} {s : State} {a1 : Nat} {a2 : Req → Req} (hm : Nat.land 2048 m = 2048)
    (h : Same m x s) : Same m x (State.reqMod s a1 a2) := by
  unfold State.reqMod
  repeat' (first | with_reducible assumption | intro _ | with_reducible apply same_ite | fail_if_no_progress with_reducible refine upd_rt (sub_of hm rfl) ?_ | split | dsimp only)

theorem State.supplyOne_keeps {m : Nat} {x : State} {s : State} {a1 : Req} {a2 : Line} {a3 : Bool} {a4 : Nat} (hm : Nat.land 9895722192398 m = 9895722192398)
    (h : Same m x s) : Same m x (State.supplyOne s a1 a2 a3 a4) := by
  unfold State.supplyOne
  repeat' (first | with_reducible assumption | intro _ | with_reducible apply same_ite | with_reducible refine State.respond_keeps (sub_of hm rfl) ?_ | with_reducible refine State.reqMod_keeps (sub_of hm rfl) ?_ | split | dsimp only)

theorem State.supplyJoined_keeps {m : Nat} {x : State} {s : State} {a1 : Req} {a2 : Line} {a3 : Bool} {a4 : Nat} (hm : Nat.land 9895722192398 m = 9895722192398)
    (h : Same m x s) : Same m x (State.supplyJoined s a1 a2 a3 a4) := by
  unfold State.supplyJoined
  repeat' (first | with_reducible assumption | intro _ | with_reducible apply same_foldl | with_reducible refine State.supplyOne_keeps (sub_of hm rfl) ?_ | split | dsimp only)

theorem State.supplyBehind_keeps {m : Nat} {x : State} {s : State} {a1 : Req} {a2 : Nat} (hm : Nat.land 9895722192398 m = 9895722192398)
    (h : Same m x s) : Same m x (State.supplyBehind s a1 a2) := by
  unfold State.supplyBehind
  repeat' (first | with_reducible assumption | intro _ | with_reducible refine State.supplyJoined_keeps (sub_of hm rfl) ?_ | split | dsimp only)

theorem State.supply_keeps {m : Nat} {x : State} {s : State} {a1 : Req} {a2 : Line} {a3 : Bool} {a4 : Nat} (hm : Nat.land 9895722192398 m = 9895722192398)
    (h : Same m x s) : Same m x (State.supply s a1 a2 a3 a4) := by
  unfold State.supply
  repeat' (first | with_reducible assumption | intro _ | with_reducible apply same_foldl | with_reducible refine State.supplyOne_keeps (sub_of hm rfl) ?_ | with_reducible refine State.wakeAfter_keeps (sub_of hm rfl) ?_ | with_reducible refine State.supplyBehind_keeps (sub_of hm rfl) ?_ | with_reducible refine State.supplyJoined_keeps (sub_of hm rfl) ?_ | split | dsimp only)

theorem State.fillFor_keeps {m : Nat} {x : State} {s : State} {a1 : Req} {a2 : Line} (hm : Nat.land 34359742472 m = 34359742472)
    (h : Same m x s) : Same m x (State.fillFor s a1 a2) := by
  unfold State.fillFor
  repeat' (first | with_reducible assumption | intro _ | with_reducible apply same_ite | with_reducible refine State.lcFill_keeps (sub_of hm rfl) ?_ | split | dsimp only)

theorem State.tagFailed_keeps {m : Nat} {x : State} {s : State} {a1 : Nat} {a2 : Option Nat} (hm : Nat.land 282591735366152 m = 282591735366152)
    (h : Same m x s) : Same m x (State.tagFailed s a1 a2) := by
  unfold State.tagFailed
  repeat' (first | with_reducible assumption | intro _ | with_reducible apply same_ite | with_reducible refine State.bump_keeps (sub_of hm rfl) ?_ ?_ | with_reducible refine State.keyMod_keeps (sub_of hm rfl) ?_ | with_reducible refine State.gmDevice_keeps (sub_of hm rfl) ?_ | with_reducible refine State.roll_keeps (sub_of hm rfl) ?_ | with_reducible refine State.setBit_keeps (sub_of hm rfl) ?_ ?_ | with_reducible exact R.CE_RG_SLOT_ok (sub_of hm rfl) | with_reducible exact R.CE_TAGFAIL_LIM_ok (sub_of hm rfl) | with_reducible exact R.CE_TAG_FAIL_CNT_ok (sub_of hm rfl) | (with_reducible refine regOk_of (c := 7) (sub_of hm rfl) (blk7 ?_ ?_) <;> simp only [R.CE_TAGFAIL_LIM, R.CE_TAG_FAIL_CNT] <;> omega) | (with_reducible refine regOk_of (c := 21) (sub_of hm rfl) (blk21 ?_ ?_) <;> simp only [R.CE_RG_SLOT] <;> omega) | split | dsimp only)

theorem State.repReq_keeps {m : Nat} {x : State} {s : State} {a1 : Nat} {a2 : RepFor} (hm : Nat.land 67174410 m = 67174410)
    (h : Same m x s) : Same m x (State.repReq s a1 a2) := by
  unfold State.repReq
  repeat' (first | with_reducible assumption | intro _ | with_reducible refine State.carSend_keeps (sub_of hm rfl) ?_ | fail_if_no_progress with_reducible refine upd_tw (sub_of hm rfl) ?_ | split | dsimp only)

theorem State.loseLine_keeps {m : Nat} {x : State} {s : State} {a1 : Nat} {a2 : Nat} {a3 : Bool} {a4 : Bool} (hm : Nat.land 19451991926542 m = 19451991926542)
    (h : Same m x s) : Same m x (State.loseLine s a1 a2 a3 a4) := by
  unfold State.loseLine
  repeat' (first | with_reducible assumption | intro _ | with_reducible apply same_ite | with_reducible refine State.poisonLine_keeps (sub_of hm rfl) ?_ | with_reducible refine State.lineEvents_keeps (sub_of hm rfl) ?_ | with_reducible refine State.raise_keeps (sub_of hm rfl) ?_ | fail_if_no_progress with_reducible refine upd_sir (sub_of hm rfl) ?_ | split | dsimp only)

theorem State.suspendDie_keeps {m : Nat} {x : State} {s : State} {a1 : Nat} (hm : Nat.land 17592253161482 m = 17592253161482)
    (h : Same m x s) : Same m x (State.suspendDie s a1) := by
  unfold State.suspendDie
  repeat' (first | with_reducible assumption | intro _ | with_reducible apply same_ite | with_reducible refine State.dieMod_keeps (sub_of hm rfl) ?_ | with_reducible refine State.bump_keeps (sub_of hm rfl) ?_ ?_ | with_reducible refine State.emit_keeps (sub_of hm rfl) ?_ | with_reducible exact R.MC_SUSP_CNT_ok (sub_of hm rfl) | (with_reducible refine regOk_of (c := 17) (sub_of hm rfl) (blk17 ?_ ?_) <;> simp only [R.MC_SUSP_CNT] <;> omega) | split | dsimp only)

theorem State.readCmd_keeps {m : Nat} {x : State} {s : State} {a1 : MRead} (hm : Nat.land 67108874 m = 67108874)
    (h : Same m x s) : Same m x (State.readCmd s a1) := by
  unfold State.readCmd
  repeat' (first | with_reducible assumption | intro _ | with_reducible refine State.emit_keeps (sub_of hm rfl) ?_ | split | dsimp only)

theorem State.bgOne_keeps {m : Nat} {x : State} {s : State} {a1 : MRead} (hm : Nat.land 17592253161482 m = 17592253161482)
    (h : Same m x s) : Same m x (State.bgOne s a1) := by
  unfold State.bgOne
  repeat' (first | with_reducible assumption | intro _ | with_reducible apply same_ite | with_reducible refine State.suspendDie_keeps (sub_of hm rfl) ?_ | with_reducible refine State.leased_keeps (sub_of hm rfl) ?_ | with_reducible refine State.readCmd_keeps (sub_of hm rfl) ?_ | fail_if_no_progress with_reducible refine upd_te (sub_of hm rfl) ?_ | split | dsimp only)

theorem State.bgIssue_keeps {m : Nat} {x : State} {s : State} {a1 : Nat} (hm : Nat.land 17592253161482 m = 17592253161482)
    (h : Same m x s) : Same m x (State.bgIssue s a1) := by
  unfold State.bgIssue
  repeat' (first | with_reducible assumption | intro _ | with_reducible apply same_foldl | with_reducible refine State.bgOne_keeps (sub_of hm rfl) ?_ | split | dsimp only)

theorem State.sendRead_keeps {m : Nat} {x : State} {s : State} {a1 : MRead} (hm : Nat.land 17592253161482 m = 17592253161482)
    (h : Same m x s) : Same m x (State.sendRead s a1) := by
  unfold State.sendRead
  repeat' (first | with_reducible assumption | intro _ | with_reducible apply same_ite | with_reducible refine State.bgIssue_keeps (sub_of hm rfl) ?_ | with_reducible refine State.leased_keeps (sub_of hm rfl) ?_ | with_reducible refine State.readCmd_keeps (sub_of hm rfl) ?_ | with_reducible refine State.suspendDie_keeps (sub_of hm rfl) ?_ | fail_if_no_progress with_reducible refine upd_te (sub_of hm rfl) ?_ | split | dsimp only)

theorem State.issueRead_keeps {m : Nat} {x : State} {s : State} {a1 : MPurpose} {a2 : Loc} {a3 : Nat} (hm : Nat.land 17592253161482 m = 17592253161482)
    (h : Same m x s) : Same m x (State.issueRead s a1 a2 a3) := by
  unfold State.issueRead
  repeat' (first | with_reducible assumption | intro _ | with_reducible refine State.sendRead_keeps (sub_of hm rfl) ?_ | fail_if_no_progress with_reducible refine upd_te (sub_of hm rfl) ?_ | split | dsimp only)

theorem State.reconStart_keeps {m : Nat} {x : State} {s : State} {a1 : MPurpose} {a2 : Nat} {a3 : Loc} {a4 : Nat} (hm : Nat.land 17592253161482 m = 17592253161482)
    (h : Same m x s) : Same m x (State.reconStart s a1 a2 a3 a4) := by
  unfold State.reconStart
  repeat' (first | with_reducible assumption | intro _ | with_reducible apply same_ite | with_reducible apply same_foldl | with_reducible refine State.issueRead_keeps (sub_of hm rfl) ?_ | fail_if_no_progress with_reducible refine upd_te (sub_of hm rfl) ?_ | split | dsimp only)

theorem State.heldShow_keeps {m : Nat} {x : State} {s : State} (hm : Nat.land 8796093022216 m = 8796093022216)
    (h : Same m x s) : Same m x (State.heldShow s) := by
  unfold State.heldShow
  repeat' (first | with_reducible assumption | intro _ | with_reducible refine State.setBit_keeps (sub_of hm rfl) ?_ ?_ | with_reducible exact R.RT_STS_ok (sub_of hm rfl) | (with_reducible refine regOk_of (c := 16) (sub_of hm rfl) (blk16 ?_ ?_) <;> simp only [R.RT_STS] <;> omega) | split | dsimp only)

theorem State.closeReads_keeps {m : Nat} {x : State} {s : State} {a1 : Nat} (hm : Nat.land 18432 m = 18432)
    (h : Same m x s) : Same m x (State.closeReads s a1) := by
  unfold State.closeReads
  repeat' (first | with_reducible assumption | intro _ | with_reducible apply same_ite | fail_if_no_progress with_reducible refine upd_rt_ce (sub_of hm rfl) ?_ | split | dsimp only)

theorem State.suspEnd_keeps {m : Nat} {x : State} {s : State} {a1 : Nat} (hm : Nat.land 17592186052616 m = 17592186052616)
    (h : Same m x s) : Same m x (State.suspEnd s a1) := by
  unfold State.suspEnd
  repeat' (first | with_reducible assumption | intro _ | with_reducible apply same_ite | with_reducible refine State.dieMod_keeps (sub_of hm rfl) ?_ | with_reducible refine State.maxIn_keeps (sub_of hm rfl) ?_ ?_ | with_reducible exact R.MC_SUSP_MAX_ok (sub_of hm rfl) | (with_reducible refine regOk_of (c := 17) (sub_of hm rfl) (blk17 ?_ ?_) <;> simp only [R.MC_SUSP_MAX] <;> omega) | split | dsimp only)

theorem State.suspClear_keeps {m : Nat} {x : State} {s : State} {a1 : Nat} (hm : Nat.land 17592186052616 m = 17592186052616)
    (h : Same m x s) : Same m x (State.suspClear s a1) := by
  unfold State.suspClear
  repeat' (first | with_reducible assumption | intro _ | with_reducible refine State.dieMod_keeps (sub_of hm rfl) ?_ | with_reducible refine State.suspEnd_keeps (sub_of hm rfl) ?_ | split | dsimp only)

theorem State.retryRead_keeps {m : Nat} {x : State} {s : State} {a1 : MRead} (hm : Nat.land 17592253161482 m = 17592253161482)
    (h : Same m x s) : Same m x (State.retryRead s a1) := by
  unfold State.retryRead
  repeat' (first | with_reducible assumption | intro _ | with_reducible refine State.sendRead_keeps (sub_of hm rfl) ?_ | split | dsimp only)

theorem State.resumeIdle_keeps {m : Nat} {x : State} {s : State} {a1 : Nat} (hm : Nat.land 17592253161482 m = 17592253161482)
    (h : Same m x s) : Same m x (State.resumeIdle s a1) := by
  unfold State.resumeIdle
  repeat' (first | with_reducible assumption | intro _ | with_reducible apply same_ite | with_reducible refine State.suspEnd_keeps (sub_of hm rfl) ?_ | with_reducible refine State.emit_keeps (sub_of hm rfl) ?_ | split | dsimp only)

end Sys2Proof.Machine
end

