-- ==== Sys2Proof/Laws/FrameDramOps.lean ====
section
/-! SUPPORT. The frame of every operation of Machine/DramOps.lean, as a mask of the kinds of state that it may change. -/

set_option autoImplicit false
set_option linter.unusedTactic false
set_option linter.unreachableTactic false
set_option linter.unnecessarySeqFocus false
set_option linter.unusedSimpArgs false
set_option linter.unusedVariables false

namespace Sys2Proof.Machine

theorem State.dramLost_keeps {m : Nat} {x : State} {s : State} {a1 : Nat} (hm : Nat.land 2199107143182 m = 2199107143182)
    (h : Same m x s) : Same m x (State.dramLost s a1) := by
  unfold State.dramLost
  repeat' (first | with_reducible assumption | intro _ | with_reducible refine State.raise_keeps (sub_of hm rfl) ?_ | with_reducible refine State.setBit_keeps (sub_of hm rfl) ?_ ?_ | with_reducible exact R.DC_STS_ok (sub_of hm rfl) | (with_reducible refine regOk_of (c := 14) (sub_of hm rfl) (blk14 ?_ ?_) <;> simp only [R.DC_STS] <;> omega) | split | dsimp only)

theorem State.dramUeCount_keeps {m : Nat} {x : State} {s : State} {a1 : Nat} (hm : Nat.land 3298618934798 m = 3298618934798)
    (h : Same m x s) : Same m x (State.dramUeCount s a1) := by
  unfold State.dramUeCount
  repeat' (first | with_reducible assumption | intro _ | with_reducible apply same_ite | with_reducible refine State.dramEvent_keeps (sub_of hm rfl) ?_ | with_reducible refine State.bump_keeps (sub_of hm rfl) ?_ ?_ | with_reducible refine State.dramLost_keeps (sub_of hm rfl) ?_ | fail_if_no_progress with_reducible refine upd_dc (sub_of hm rfl) ?_ | with_reducible exact R.DC_STS_ok (sub_of hm rfl) | with_reducible exact R.DC_UE_CNT_ok (sub_of hm rfl) | (with_reducible refine regOk_of (c := 14) (sub_of hm rfl) (blk14 ?_ ?_) <;> simp only [R.DC_STS, R.DC_UE_CNT] <;> omega) | split | dsimp only)

theorem State.dramRebuilt_keeps {m : Nat} {x : State} {s : State} {a1 : Nat} (hm : Nat.land 3298618934798 m = 3298618934798)
    (h : Same m x s) : Same m x (State.dramRebuilt s a1) := by
  unfold State.dramRebuilt
  repeat' (first | with_reducible assumption | intro _ | with_reducible apply same_when | with_reducible refine State.raise_keeps (sub_of hm rfl) ?_ | with_reducible refine State.bump_keeps (sub_of hm rfl) ?_ ?_ | with_reducible refine State.dramUeCount_keeps (sub_of hm rfl) ?_ | with_reducible refine State.roll_keeps (sub_of hm rfl) ?_ | with_reducible exact R.DC_CTL_ok (sub_of hm rfl) | with_reducible exact R.DC_REBUILD_ok (sub_of hm rfl) | (with_reducible refine regOk_of (c := 14) (sub_of hm rfl) (blk14 ?_ ?_) <;> simp only [R.DC_CTL, R.DC_REBUILD] <;> omega) | split | dsimp only)

theorem State.dramUe_keeps {m : Nat} {x : State} {s : State} {a1 : Nat} (hm : Nat.land 3298618934798 m = 3298618934798)
    (h : Same m x s) : Same m x (State.dramUe s a1) := by
  unfold State.dramUe
  repeat' (first | with_reducible assumption | intro _ | with_reducible refine State.raise_keeps (sub_of hm rfl) ?_ | with_reducible refine State.dramUeCount_keeps (sub_of hm rfl) ?_ | split | dsimp only)

theorem State.dramRead_keeps {m : Nat} {x : State} {s : State} {a1 : Nat} {a2 : DramRes} (hm : Nat.land 3298618934798 m = 3298618934798)
    (h : Same m x s) : Same m x (State.dramRead s a1 a2) := by
  unfold State.dramRead
  repeat' (first | with_reducible assumption | intro _ | with_reducible refine State.pcItem_keeps (sub_of hm rfl) ?_ | with_reducible refine State.bump_keeps (sub_of hm rfl) ?_ ?_ | with_reducible refine State.dramRebuilt_keeps (sub_of hm rfl) ?_ | with_reducible refine State.dramUe_keeps (sub_of hm rfl) ?_ | with_reducible exact R.DC_CE_CNT_ok (sub_of hm rfl) | with_reducible exact R.DC_RECON_RD_ok (sub_of hm rfl) | (with_reducible refine regOk_of (c := 14) (sub_of hm rfl) (blk14 ?_ ?_) <;> simp only [R.DC_CE_CNT, R.DC_RECON_RD] <;> omega) | split | dsimp only)

end Sys2Proof.Machine
end

