-- ==== Sys2Proof/Laws/FrameCipherOps.lean ====
section
/-! SUPPORT. The frame of every operation of Machine/CipherOps.lean, as a mask of the kinds of state that it may change. -/

set_option autoImplicit false
set_option linter.unusedTactic false
set_option linter.unreachableTactic false
set_option linter.unnecessarySeqFocus false
set_option linter.unusedSimpArgs false
set_option linter.unusedVariables false

namespace Sys2Proof.Machine

theorem State.keyRelease_keeps {m : Nat} {x : State} {s : State} {a1 : Nat} (hm : Nat.land 16384 m = 16384)
    (h : Same m x s) : Same m x (State.keyRelease s a1) := by
  unfold State.keyRelease
  repeat' (first | with_reducible assumption | intro _ | with_reducible apply same_ite | with_reducible refine State.keyMod_keeps (sub_of hm rfl) ?_ | split | dsimp only)

theorem State.streamMod_keeps {m : Nat} {x : State} {s : State} {a1 : Nat} {a2 : Stream → Stream} (hm : Nat.land 16384 m = 16384)
    (h : Same m x s) : Same m x (State.streamMod s a1 a2) := by
  unfold State.streamMod
  repeat' (first | with_reducible assumption | intro _ | with_reducible apply same_ite | fail_if_no_progress with_reducible refine upd_ce (sub_of hm rfl) ?_ | split | dsimp only)

theorem State.streamFree_keeps {m : Nat} {x : State} {s : State} {a1 : Nat} {a2 : Nat → Bool} (hm : Nat.land 137438978056 m = 137438978056)
    (h : Same m x s) : Same m x (State.streamFree s a1 a2) := by
  unfold State.streamFree
  repeat' (first | with_reducible assumption | intro _ | with_reducible apply same_foldl | with_reducible refine State.tsStatus_keeps (sub_of hm rfl) ?_ | with_reducible refine State.streamMod_keeps (sub_of hm rfl) ?_ | fail_if_no_progress with_reducible refine upd_te (sub_of hm rfl) ?_ | split | dsimp only)

theorem State.streamEnd_keeps {m : Nat} {x : State} {s : State} {a1 : Nat} {a2 : Nat} (hm : Nat.land 282712028013066 m = 282712028013066)
    (h : Same m x s) : Same m x (State.streamEnd s a1 a2) := by
  unfold State.streamEnd
  repeat' (first | with_reducible assumption | intro _ | with_reducible apply same_ite | with_reducible refine State.streamFree_keeps (sub_of hm rfl) ?_ | with_reducible refine State.keyRelease_keeps (sub_of hm rfl) ?_ | with_reducible refine State.setBit_keeps (sub_of hm rfl) ?_ ?_ | with_reducible refine State.bgDone_keeps (sub_of hm rfl) ?_ | with_reducible refine State.roll_keeps (sub_of hm rfl) ?_ | fail_if_no_progress with_reducible refine upd_ce (sub_of hm rfl) ?_ | with_reducible exact R.RT_RG_STS_ok (sub_of hm rfl) | (with_reducible refine regOk_of (c := 21) (sub_of hm rfl) (blk21 ?_ ?_) <;> simp only [R.RT_RG_STS] <;> omega) | split | dsimp only)

theorem State.chunkPacket_keeps {m : Nat} {x : State} {s : State} {a1 : Nat} {a2 : Nat} {a3 : Nat} {a4 : Bool} (hm : Nat.land 17246978058 m = 17246978058)
    (h : Same m x s) : Same m x (State.chunkPacket s a1 a2 a3 a4) := by
  unfold State.chunkPacket
  repeat' (first | with_reducible assumption | intro _ | with_reducible apply same_ite | with_reducible refine State.bump_keeps (sub_of hm rfl) ?_ ?_ | with_reducible refine State.emit_keeps (sub_of hm rfl) ?_ | with_reducible exact R.CE_CHUNK_BAD_ok (sub_of hm rfl) | with_reducible exact R.CE_CHUNK_OK_ok (sub_of hm rfl) | (with_reducible refine regOk_of (c := 7) (sub_of hm rfl) (blk7 ?_ ?_) <;> simp only [R.CE_CHUNK_BAD, R.CE_CHUNK_OK] <;> omega) | split | dsimp only)

theorem State.importStop_keeps {m : Nat} {x : State} {s : State} {a1 : Stream} {a2 : Nat} {a3 : Nat} {a4 : Bool} (hm : Nat.land 282729207882250 m = 282729207882250)
    (h : Same m x s) : Same m x (State.importStop s a1 a2 a3 a4) := by
  unfold State.importStop
  repeat' (first | with_reducible assumption | intro _ | with_reducible refine State.streamEnd_keeps (sub_of hm rfl) ?_ | with_reducible refine State.chunkPacket_keeps (sub_of hm rfl) ?_ | split | dsimp only)

theorem State.windowFree_keeps {m : Nat} {x : State} {s : State} {a1 : Nat} {a2 : Nat} (hm : Nat.land 137438978056 m = 137438978056)
    (h : Same m x s) : Same m x (State.windowFree s a1 a2) := by
  unfold State.windowFree
  repeat' (first | with_reducible assumption | intro _ | with_reducible refine State.streamMod_keeps (sub_of hm rfl) ?_ | with_reducible refine State.streamFree_keeps (sub_of hm rfl) ?_ | split | dsimp only)

theorem State.importTrailer_keeps {m : Nat} {x : State} {s : State} {a1 : Stream} {a2 : Nat} {a3 : Line} {a4 : Bool} (hm : Nat.land 282729207882254 m = 282729207882254)
    (h : Same m x s) : Same m x (State.importTrailer s a1 a2 a3 a4) := by
  unfold State.importTrailer
  repeat' (first | with_reducible assumption | intro _ | with_reducible apply same_ite | with_reducible refine State.importStop_keeps (sub_of hm rfl) ?_ | with_reducible refine State.windowFree_keeps (sub_of hm rfl) ?_ | with_reducible refine State.chunkPacket_keeps (sub_of hm rfl) ?_ | with_reducible refine State.streamMod_keeps (sub_of hm rfl) ?_ | with_reducible refine State.keyUse_keeps (sub_of hm rfl) ?_ | split | dsimp only)

theorem State.streamTile_keeps {m : Nat} {x : State} {s : State} {a1 : Nat} {a2 : Nat} {t : State}  (hm : Nat.land 137438978056 m = 137438978056)
    (e : State.streamTile s a1 a2 = some t) (h : Same m x s) : Same m x t := by
  unfold State.streamTile at e
  (try dsimp only at e)
  (repeat' split at e) <;> (try cases e) <;> repeat' (first | with_reducible assumption | intro _ | with_reducible apply same_ite | with_reducible refine State.slotNext_keeps (sub_of hm rfl) (by assumption) ?_ | with_reducible refine State.tsStatus_keeps (sub_of hm rfl) ?_ | with_reducible refine State.streamMod_keeps (sub_of hm rfl) ?_ | fail_if_no_progress with_reducible refine upd_te (sub_of hm rfl) ?_ | split | dsimp only)

theorem State.streamPut_keeps {m : Nat} {x : State} {s : State} {a1 : Nat} {a2 : Nat} {a3 : Line} {t : State}  (hm : Nat.land 137438978060 m = 137438978060)
    (e : State.streamPut s a1 a2 a3 = some t) (h : Same m x s) : Same m x t := by
  unfold State.streamPut at e
  (try dsimp only at e)
  (repeat' split at e) <;> (try cases e) <;> repeat' (first | with_reducible assumption | intro _ | with_reducible refine State.streamTile_keeps (sub_of hm rfl) (by assumption) ?_ | with_reducible refine State.slotMod_keeps (sub_of hm rfl) ?_ | with_reducible refine State.xtsUse_keeps (sub_of hm rfl) ?_ | split | dsimp only)

theorem State.importLine_keeps {m : Nat} {x : State} {s : State} {a1 : Stream} {a2 : Nat} {a3 : Line} {a4 : Bool} (hm : Nat.land 282729207882254 m = 282729207882254)
    (h : Same m x s) : Same m x (State.importLine s a1 a2 a3 a4) := by
  unfold State.importLine
  repeat' (first | with_reducible assumption | intro _ | with_reducible apply same_ite | with_reducible refine State.importStop_keeps (sub_of hm rfl) ?_ | with_reducible refine State.streamPut_keeps (sub_of hm rfl) (by assumption) ?_ | with_reducible refine State.keyUse_keeps (sub_of hm rfl) ?_ | with_reducible refine State.streamMod_keeps (sub_of hm rfl) ?_ | split | dsimp only)

theorem State.importWrite_keeps {m : Nat} {x : State} {s : State} {a1 : Nat} {a2 : Nat} {a3 : Line} {a4 : Bool} (hm : Nat.land 282729207882254 m = 282729207882254)
    (h : Same m x s) : Same m x (State.importWrite s a1 a2 a3 a4) := by
  unfold State.importWrite
  repeat' (first | with_reducible assumption | intro _ | with_reducible apply same_ite | with_reducible refine State.importTrailer_keeps (sub_of hm rfl) ?_ | with_reducible refine State.importLine_keeps (sub_of hm rfl) ?_ | with_reducible refine State.bump_keeps (sub_of hm rfl) ?_ ?_ | with_reducible exact R.CE_XF_DROP_ok (sub_of hm rfl) | (with_reducible refine regOk_of (c := 7) (sub_of hm rfl) (blk7 ?_ ?_) <;> simp only [R.CE_XF_DROP] <;> omega) | split | dsimp only)

theorem State.slotCountShow_keeps {m : Nat} {x : State} {s : State} (hm : Nat.land 17179869192 m = 17179869192)
    (h : Same m x s) : Same m x (State.slotCountShow s) := by
  unfold State.slotCountShow
  repeat' (first | with_reducible assumption | intro _ | with_reducible refine State.maxIn_keeps (sub_of hm rfl) ?_ ?_ | with_reducible refine State.wrN_keeps (sub_of hm rfl) ?_ ?_ | with_reducible exact R.CE_SLOTS_PEAK_ok (sub_of hm rfl) | with_reducible exact R.CE_SLOTS_USED_ok (sub_of hm rfl) | (with_reducible refine regOk_of (c := 7) (sub_of hm rfl) (blk7 ?_ ?_) <;> simp only [R.CE_SLOTS_PEAK, R.CE_SLOTS_USED] <;> omega) | split | dsimp only)

theorem State.keySlotTake_keeps {m : Nat} {x : State} {s : State} {a1 : Nat} {a2 : Nat} {a3 : Nat} {a4 : Nat} (hm : Nat.land 17179885576 m = 17179885576)
    (h : Same m x s) : Same m x (State.keySlotTake s a1 a2 a3 a4) := by
  unfold State.keySlotTake
  repeat' (first | with_reducible assumption | intro _ | with_reducible refine State.slotCountShow_keeps (sub_of hm rfl) ?_ | with_reducible refine State.keyMod_keeps (sub_of hm rfl) ?_ | split | dsimp only)

theorem State.noSlot_keeps {m : Nat} {x : State} {s : State} (hm : Nat.land 67109384 m = 67109384)
    (h : Same m x s) : Same m x (State.noSlot s) := by
  unfold State.noSlot
  repeat' (first | with_reducible assumption | intro _ | with_reducible apply same_when | with_reducible refine State.roll_keeps (sub_of hm rfl) ?_ | split | dsimp only)

theorem State.derive_keeps {m : Nat} {x : State} {s : State} {a1 : Derive} (hm : Nat.land 16384 m = 16384)
    (h : Same m x s) : Same m x (State.derive s a1) := by
  unfold State.derive
  repeat' (first | with_reducible assumption | intro _ | fail_if_no_progress with_reducible refine upd_ce (sub_of hm rfl) ?_ | split | dsimp only)

theorem State.setLabel_keeps {m : Nat} {x : State} {s : State} {a1 : Nat} {a2 : Nat} (hm : Nat.land 281474976710664 m = 281474976710664)
    (h : Same m x s) : Same m x (State.setLabel s a1 a2) := by
  unfold State.setLabel
  repeat' (first | with_reducible assumption | intro _ | with_reducible refine State.wrN_keeps (sub_of hm rfl) ?_ ?_ | with_reducible exact R.CE_RG_LBL0_ok (sub_of hm rfl) | with_reducible exact R.CE_RG_LBL1_ok (sub_of hm rfl) | with_reducible exact R.CE_RG_LBL2_ok (sub_of hm rfl) | with_reducible exact R.CE_RG_LBL3_ok (sub_of hm rfl) | (with_reducible refine regOk_of (c := 21) (sub_of hm rfl) (blk21 ?_ ?_) <;> simp only [R.CE_RG_LBL0, R.CE_RG_LBL1, R.CE_RG_LBL2, R.CE_RG_LBL3] <;> omega) | split | dsimp only)

theorem State.streamAbort_keeps {m : Nat} {x : State} {s : State} {a1 : Stream} (hm : Nat.land 282729207882250 m = 282729207882250)
    (h : Same m x s) : Same m x (State.streamAbort s a1) := by
  unfold State.streamAbort
  repeat' (first | with_reducible assumption | intro _ | with_reducible refine State.streamEnd_keeps (sub_of hm rfl) ?_ | with_reducible refine State.chunkPacket_keeps (sub_of hm rfl) ?_ | split | dsimp only)

theorem State.prfUse_keeps {m : Nat} {x : State} {s : State} {a1 : Option Nat} (hm : Nat.land 16388 m = 16388)
    (h : Same m x s) : Same m x (State.prfUse s a1) := by
  unfold State.prfUse
  repeat' (first | with_reducible assumption | intro _ | with_reducible refine State.rkUse_keeps (sub_of hm rfl) ?_ | with_reducible refine State.keyUse_keeps (sub_of hm rfl) ?_ | split | dsimp only)

theorem State.keyFree_keeps {m : Nat} {x : State} {s : State} {a1 : Nat} (hm : Nat.land 17179885576 m = 17179885576)
    (h : Same m x s) : Same m x (State.keyFree s a1) := by
  unfold State.keyFree
  repeat' (first | with_reducible assumption | intro _ | with_reducible refine State.slotCountShow_keeps (sub_of hm rfl) ?_ | fail_if_no_progress with_reducible refine upd_ce (sub_of hm rfl) ?_ | split | dsimp only)

theorem State.streamPuts_keeps {m : Nat} {x : State} {s t : State} {k : Nat} {l : List (Nat × Line)} (hm : Nat.land 137438978060 m = 137438978060)
    (e : s.streamPuts k l = some t) (h : Same m x s) : Same m x t := by
  unfold State.streamPuts at e
  have g : ∀ (l : List (Nat × Line)) (o : Option State), (∀ u, o = some u → Same m x u) →
      ∀ u, l.foldl (fun (o : Option State) (y : Nat × Line) => o.bind (fun s => s.streamPut k y.1 y.2)) o = some u → Same m x u := by
    intro l
    induction l with
    | nil => exact fun o ho u hu => ho u hu
    | cons b l ih =>
      refine fun o ho u hu => ih _ ?_ u hu
      intro v hv
      obtain ⟨w, hw, hv⟩ := Option.bind_eq_some_iff.mp hv
      exact State.streamPut_keeps (sub_of hm rfl) hv (ho w hw)
  exact g _ _ (fun u hu => by cases hu; exact h) t e

theorem State.windowRead_keeps {m : Nat} {x : State} {s : State} {a1 : Nat} {a2 : Nat} (hm : Nat.land 282712028013070 m = 282712028013070)
    (h : Same m x s) : Same m x (State.windowRead s a1 a2).2.2.2 := by
  unfold State.windowRead
  repeat' (first | with_reducible assumption | intro _ | with_reducible apply same_ite | with_reducible apply same2_ite | with_reducible refine State.xtsUse_keeps (sub_of hm rfl) ?_ | with_reducible refine State.streamMod_keeps (sub_of hm rfl) ?_ | with_reducible refine State.windowFree_keeps (sub_of hm rfl) ?_ | with_reducible refine State.streamEnd_keeps (sub_of hm rfl) ?_ | split | dsimp only)

end Sys2Proof.Machine
end

