-- ==== Sys2Proof/Laws/FrameProgOps.lean ====
section
/-! SUPPORT. The frame of every operation of Machine/ProgOps.lean, as a mask of the kinds of state that it may change. -/

set_option autoImplicit false
set_option linter.unusedTactic false
set_option linter.unreachableTactic false
set_option linter.unnecessarySeqFocus false
set_option linter.unusedSimpArgs false
set_option linter.unusedVariables false

namespace Sys2Proof.Machine

theorem State.obpShow_keeps {m : Nat} {x : State} {s : State} {a1 : Nat} (hm : Nat.land 4398046511112 m = 4398046511112)
    (h : Same m x s) : Same m x (State.obpShow s a1) := by
  unfold State.obpShow
  repeat' (first | with_reducible assumption | intro _ | with_reducible refine State.set_keeps (sub_of hm rfl) ?_ ?_ | with_reducible exact R.MG_OBP_STS_ok (sub_of hm rfl) | (with_reducible refine regOk_of (c := 15) (sub_of hm rfl) (blk15 ?_ ?_) <;> simp only [R.MG_OBP_STS] <;> omega) | split | dsimp only)

theorem State.stripeMod_keeps {m : Nat} {x : State} {s : State} {a1 : Nat} {a2 : Stripe → Stripe} (hm : Nat.land 8192 m = 8192)
    (h : Same m x s) : Same m x (State.stripeMod s a1 a2) := by
  unfold State.stripeMod
  repeat' (first | with_reducible assumption | intro _ | with_reducible apply same_ite | fail_if_no_progress with_reducible refine upd_te (sub_of hm rfl) ?_ | split | dsimp only)

theorem State.stripeNoParity_keeps {m : Nat} {x : State} {s : State} {a1 : Nat} (hm : Nat.land 4398046519304 m = 4398046519304)
    (h : Same m x s) : Same m x (State.stripeNoParity s a1) := by
  unfold State.stripeNoParity
  repeat' (first | with_reducible assumption | intro _ | with_reducible refine State.obpShow_keeps (sub_of hm rfl) ?_ | with_reducible refine State.bump_keeps (sub_of hm rfl) ?_ ?_ | with_reducible refine State.stripeMod_keeps (sub_of hm rfl) ?_ | with_reducible exact R.MG_OBP_NOPAR_ok (sub_of hm rfl) | (with_reducible refine regOk_of (c := 15) (sub_of hm rfl) (blk15 ?_ ?_) <;> simp only [R.MG_OBP_NOPAR] <;> omega) | split | dsimp only)

theorem State.progMod_keeps {m : Nat} {x : State} {s : State} {a1 : Nat} {a2 : Prog → Prog} (hm : Nat.land 8192 m = 8192)
    (h : Same m x s) : Same m x (State.progMod s a1 a2) := by
  unfold State.progMod
  repeat' (first | with_reducible assumption | intro _ | with_reducible apply same_ite | fail_if_no_progress with_reducible refine upd_te (sub_of hm rfl) ?_ | split | dsimp only)

theorem State.progDel_keeps {m : Nat} {x : State} {s : State} {a1 : Nat} (hm : Nat.land 8192 m = 8192)
    (h : Same m x s) : Same m x (State.progDel s a1) := by
  unfold State.progDel
  repeat' (first | with_reducible assumption | intro _ | fail_if_no_progress with_reducible refine upd_te (sub_of hm rfl) ?_ | split | dsimp only)

theorem State.progCipher_keeps {m : Nat} {x : State} {s : State} {a1 : Nat} (hm : Nat.land 24576 m = 24576)
    (h : Same m x s) : Same m x (State.progCipher s a1) := by
  unfold State.progCipher
  repeat' (first | with_reducible assumption | intro _ | with_reducible refine State.progMod_keeps (sub_of hm rfl) ?_ | fail_if_no_progress with_reducible refine upd_ce (sub_of hm rfl) ?_ | split | dsimp only)

theorem State.progNumber_keeps {m : Nat} {x : State} {s : State} {a1 : Prog} (hm : Nat.land 1859788071690 m = 1859788071690)
    (h : Same m x s) : Same m x (State.progNumber s a1) := by
  unfold State.progNumber
  repeat' (first | with_reducible assumption | intro _ | with_reducible apply same_ite | with_reducible refine State.progDel_keeps (sub_of hm rfl) ?_ | with_reducible refine State.seqTake_keeps (sub_of hm rfl) (by assumption) ?_ | with_reducible refine State.progMod_keeps (sub_of hm rfl) ?_ | with_reducible refine State.progCipher_keeps (sub_of hm rfl) ?_ | split | dsimp only)

theorem State.progGathered_keeps {m : Nat} {x : State} {s : State} {a1 : Nat} (hm : Nat.land 1859788071690 m = 1859788071690)
    (h : Same m x s) : Same m x (State.progGathered s a1) := by
  unfold State.progGathered
  repeat' (first | with_reducible assumption | intro _ | with_reducible apply same_ite | with_reducible refine State.progNumber_keeps (sub_of hm rfl) ?_ | with_reducible refine State.progMod_keeps (sub_of hm rfl) ?_ | split | dsimp only)

theorem State.gathered_keeps {m : Nat} {x : State} {s : State} {a1 : Nat} {a2 : Nat} {a3 : Nat} {a4 : Line} (hm : Nat.land 1859788071694 m = 1859788071694)
    (h : Same m x s) : Same m x (State.gathered s a1 a2 a3 a4) := by
  unfold State.gathered
  repeat' (first | with_reducible assumption | intro _ | with_reducible apply same_ite | with_reducible refine State.progMod_keeps (sub_of hm rfl) ?_ | with_reducible refine State.xtsUse_keeps (sub_of hm rfl) ?_ | with_reducible refine State.progGathered_keeps (sub_of hm rfl) ?_ | split | dsimp only)

theorem State.rotSave_keeps {m : Nat} {x : State} {s : State} {a1 : Nat} {a2 : Nat} (hm : Nat.land 4362076426 m = 4362076426)
    (h : Same m x s) : Same m x (State.rotSave s a1 a2) := by
  unfold State.rotSave
  repeat' (first | with_reducible assumption | intro _ | with_reducible refine State.pstAdd_keeps (sub_of hm rfl) ?_ | split | dsimp only)

theorem State.rotationEnd_keeps {m : Nat} {x : State} {s : State} {a1 : Nat} (hm : Nat.land 281479338803978 m = 281479338803978)
    (h : Same m x s) : Same m x (State.rotationEnd s a1) := by
  unfold State.rotationEnd
  repeat' (first | with_reducible assumption | intro _ | with_reducible apply same_ite | with_reducible refine State.keyRelease_keeps (sub_of hm rfl) ?_ | with_reducible refine State.set_keeps (sub_of hm rfl) ?_ ?_ | with_reducible refine State.setBit_keeps (sub_of hm rfl) ?_ ?_ | with_reducible refine State.roll_keeps (sub_of hm rfl) ?_ | with_reducible refine State.rotSave_keeps (sub_of hm rfl) ?_ | with_reducible exact R.CE_RG_ROTSEQ_HI_ok (sub_of hm rfl) | with_reducible exact R.CE_RG_ROTSEQ_LO_ok (sub_of hm rfl) | with_reducible exact R.CE_RG_ROT_PCT_ok (sub_of hm rfl) | with_reducible exact R.CE_RG_SLOT_ok (sub_of hm rfl) | (with_reducible refine regOk_of (c := 21) (sub_of hm rfl) (blk21 ?_ ?_) <;> simp only [R.CE_RG_ROTSEQ_HI, R.CE_RG_ROTSEQ_LO, R.CE_RG_ROT_PCT, R.CE_RG_SLOT] <;> omega) | split | dsimp only)

theorem State.closingDone_keeps {m : Nat} {x : State} {s : State} (hm : Nat.land 24576 m = 24576)
    (h : Same m x s) : Same m x (State.closingDone s) := by
  unfold State.closingDone
  repeat' (first | with_reducible assumption | intro _ | with_reducible apply same_ite | with_reducible apply same_foldl | with_reducible refine State.keyRelease_keeps (sub_of hm rfl) ?_ | fail_if_no_progress with_reducible refine upd_te (sub_of hm rfl) ?_ | split | dsimp only)

theorem State.closeRegions_keeps {m : Nat} {x : State} {s : State} (hm : Nat.land 281474976735240 m = 281474976735240)
    (h : Same m x s) : Same m x (State.closeRegions s) := by
  unfold State.closeRegions
  repeat' (first | with_reducible assumption | intro _ | with_reducible apply same_ite | with_reducible apply same_foldl | with_reducible refine State.closingDone_keeps (sub_of hm rfl) ?_ | with_reducible refine State.setBit_keeps (sub_of hm rfl) ?_ ?_ | with_reducible exact R.RT_RG_STS_ok (sub_of hm rfl) | (with_reducible refine regOk_of (c := 21) (sub_of hm rfl) (blk21 ?_ ?_) <;> simp only [R.RT_RG_STS] <;> omega) | split | dsimp only)

theorem State.refreshDone_keeps {m : Nat} {x : State} {s : State} (hm : Nat.land 274946064392 m = 274946064392)
    (h : Same m x s) : Same m x (State.refreshDone s) := by
  unfold State.refreshDone
  repeat' (first | with_reducible assumption | intro _ | with_reducible apply same_ite | with_reducible apply same_foldl | with_reducible refine State.pcEvent_keeps (sub_of hm rfl) ?_ | with_reducible refine State.bump_keeps (sub_of hm rfl) ?_ ?_ | fail_if_no_progress with_reducible refine upd_sir (sub_of hm rfl) ?_ | with_reducible exact R.SIR_REFRESH_BLK_ok (sub_of hm rfl) | with_reducible exact R.SIR_ZONE_BAND_ok (sub_of hm rfl) | (with_reducible refine regOk_of (c := 11) (sub_of hm rfl) (blk11 ?_ ?_) <;> simp only [R.SIR_REFRESH_BLK, R.SIR_ZONE_BAND] <;> omega) | split | dsimp only)

theorem State.flushDone_keeps {m : Nat} {x : State} {s : State} (hm : Nat.land 137438961672 m = 137438961672)
    (h : Same m x s) : Same m x (State.flushDone s) := by
  unfold State.flushDone
  repeat' (first | with_reducible assumption | intro _ | with_reducible apply same_ite | with_reducible refine State.setBit_keeps (sub_of hm rfl) ?_ ?_ | fail_if_no_progress with_reducible refine upd_te (sub_of hm rfl) ?_ | with_reducible exact R.TS_CTL_ok (sub_of hm rfl) | with_reducible exact R.TS_STS_ok (sub_of hm rfl) | (with_reducible refine regOk_of (c := 10) (sub_of hm rfl) (blk10 ?_ ?_) <;> simp only [R.TS_CTL, R.TS_STS] <;> omega) | split | dsimp only)

theorem State.afterMap_keeps {m : Nat} {x : State} {s : State} {a1 : List (Nat × Nat)} (hm : Nat.land 301201829782282 m = 301201829782282)
    (h : Same m x s) : Same m x (State.afterMap s a1) := by
  unfold State.afterMap
  repeat' (first | with_reducible assumption | intro _ | with_reducible apply same_foldl | with_reducible refine State.blkSettle_keeps (sub_of hm rfl) ?_ | with_reducible refine State.rotationEnd_keeps (sub_of hm rfl) ?_ | with_reducible refine State.closeRegions_keeps (sub_of hm rfl) ?_ | with_reducible refine State.refreshDone_keeps (sub_of hm rfl) ?_ | with_reducible refine State.flushDone_keeps (sub_of hm rfl) ?_ | split | dsimp only)

theorem State.ckptBegin_keeps {m : Nat} {x : State} {s : State} {a1 : Nat} (hm : Nat.land 1859788071690 m = 1859788071690)
    (h : Same m x s) : Same m x (State.ckptBegin s a1) := by
  unfold State.ckptBegin
  repeat' (first | with_reducible assumption | intro _ | with_reducible apply same_ite | with_reducible apply same_foldl | with_reducible refine State.progNumber_keeps (sub_of hm rfl) ?_ | fail_if_no_progress with_reducible refine upd_te (sub_of hm rfl) ?_ | split | dsimp only)

theorem State.checkpoint_keeps {m : Nat} {x : State} {s : State} {a1 : Nat} (hm : Nat.land 1859788071690 m = 1859788071690)
    (h : Same m x s) : Same m x (State.checkpoint s a1) := by
  unfold State.checkpoint
  repeat' (first | with_reducible assumption | intro _ | with_reducible apply same_ite | with_reducible refine State.segChanged_keeps (sub_of hm rfl) ?_ | with_reducible refine State.ckptBegin_keeps (sub_of hm rfl) ?_ | split | dsimp only)

theorem State.closeBlock_keeps {m : Nat} {x : State} {s : State} {a1 : Nat} {a2 : Nat} (hm : Nat.land 19451974099722 m = 19451974099722)
    (h : Same m x s) : Same m x (State.closeBlock s a1 a2) := by
  unfold State.closeBlock
  repeat' (first | with_reducible assumption | intro _ | with_reducible apply same_ite | with_reducible refine State.blkSettle_keeps (sub_of hm rfl) ?_ | with_reducible refine State.journal_keeps (sub_of hm rfl) ?_ | with_reducible refine State.blkMod_keeps (sub_of hm rfl) ?_ | split | dsimp only)

theorem State.closeLong_keeps {m : Nat} {x : State} {s : State} {a1 : Nat} {a2 : Nat} {a3 : Nat} (hm : Nat.land 19451974099722 m = 19451974099722)
    (h : Same m x s) : Same m x (State.closeLong s a1 a2 a3) := by
  unfold State.closeLong
  repeat' (first | with_reducible assumption | intro _ | with_reducible apply same_ite | with_reducible refine State.closeBlock_keeps (sub_of hm rfl) ?_ | split | dsimp only)

theorem State.openBlock_keeps {m : Nat} {x : State} {s : State} {a1 : Nat} {a2 : Nat} {t : State} {u0 : Nat} (hm : Nat.land 19451974099722 m = 19451974099722)
    (e : State.openBlock s a1 a2 = some (u0, t)) (h : Same m x s) : Same m x t := by
  unfold State.openBlock at e
  (try dsimp only at e)
  (repeat' split at e) <;> (try cases e) <;> repeat' (first | with_reducible assumption | intro _ | with_reducible apply same_ite | with_reducible refine State.blkMod_keeps (sub_of hm rfl) ?_ | with_reducible refine State.journalFlush_keeps (sub_of hm rfl) ?_ | with_reducible refine State.journal_keeps (sub_of hm rfl) ?_ | split | dsimp only)

theorem State.nextPage_keeps {m : Nat} {x : State} {s t : State} {d st seq b p : Nat} (hm : Nat.land 19451974099722 m = 19451974099722)
    (e : s.nextPage d st seq = some (b, p, t)) (h : Same m x s) : Same m x t := by
  have hc : Same m x (s.closeLong d st seq) := State.closeLong_keeps (sub_of hm rfl) h
  unfold State.nextPage at e
  generalize s.closeLong d st seq = c at e hc
  dsimp only at e
  split at e
  · simp only [Option.some.injEq, Prod.mk.injEq] at e
    obtain ⟨-, -, rfl⟩ := e
    exact hc
  · split at e
    · next r hr =>
      simp only [Option.some.injEq, Prod.mk.injEq] at e
      obtain ⟨-, -, rfl⟩ := e
      exact State.openBlock_keeps (sub_of hm rfl) hr hc
    · cases e

theorem State.openShow_keeps {m : Nat} {x : State} {s : State} (hm : Nat.land 19451974099722 m = 19451974099722)
    (h : Same m x s) : Same m x (State.openShow s) := by
  unfold State.openShow
  repeat' (first | with_reducible assumption | intro _ | with_reducible refine State.setBit_keeps (sub_of hm rfl) ?_ ?_ | with_reducible refine State.nextPage_keeps (sub_of hm rfl) (by assumption) ?_ | with_reducible exact R.TE_UPK_STS_ok (sub_of hm rfl) | (with_reducible refine regOk_of (c := 9) (sub_of hm rfl) (blk9 ?_ ?_) <;> simp only [R.TE_UPK_STS] <;> omega) | split | dsimp only)

theorem State.stripeParity_keeps {m : Nat} {x : State} {s : State} {a1 : Nat} (hm : Nat.land 4398046519304 m = 4398046519304)
    (h : Same m x s) : Same m x (State.stripeParity s a1) := by
  unfold State.stripeParity
  repeat' (first | with_reducible assumption | intro _ | with_reducible apply same_ite | with_reducible refine State.stripeNoParity_keeps (sub_of hm rfl) ?_ | fail_if_no_progress with_reducible refine upd_te (sub_of hm rfl) ?_ | split | dsimp only)

theorem State.stripeClose_keeps {m : Nat} {x : State} {s : State} {a1 : Nat} (hm : Nat.land 4398046519304 m = 4398046519304)
    (h : Same m x s) : Same m x (State.stripeClose s a1) := by
  unfold State.stripeClose
  repeat' (first | with_reducible assumption | intro _ | with_reducible apply same_ite | with_reducible refine State.bump_keeps (sub_of hm rfl) ?_ ?_ | with_reducible refine State.stripeParity_keeps (sub_of hm rfl) ?_ | with_reducible refine State.stripeMod_keeps (sub_of hm rfl) ?_ | with_reducible exact R.MG_OBP_SHORT_ok (sub_of hm rfl) | (with_reducible refine regOk_of (c := 15) (sub_of hm rfl) (blk15 ?_ ?_) <;> simp only [R.MG_OBP_SHORT] <;> omega) | split | dsimp only)

theorem State.discardIssue_keeps {m : Nat} {x : State} {s : State} {a1 : Prog} {a2 : Nat} (hm : Nat.land 8192 m = 8192)
    (h : Same m x s) : Same m x (State.discardIssue s a1 a2) := by
  unfold State.discardIssue
  repeat' (first | with_reducible assumption | intro _ | with_reducible apply same_ite | fail_if_no_progress with_reducible refine upd_te (sub_of hm rfl) ?_ | split | dsimp only)

theorem State.issueOn_keeps {m : Nat} {x : State} {s : State} {a1 : Prog} {a2 : Nat} {a3 : Nat} {a4 : Nat} {a5 : Option Nat} (hm : Nat.land 21990299688974 m = 21990299688974)
    (h : Same m x s) : Same m x (State.issueOn s a1 a2 a3 a4 a5) := by
  unfold State.issueOn
  repeat' (first | with_reducible assumption | intro _ | with_reducible apply same_ite | with_reducible apply same_foldl | with_reducible refine State.lineKeyUse_keeps (sub_of hm rfl) ?_ | with_reducible refine State.xtsUse_keeps (sub_of hm rfl) ?_ | with_reducible refine State.areaPage_keeps (sub_of hm rfl) ?_ | with_reducible refine State.blkMod_keeps (sub_of hm rfl) ?_ | with_reducible refine State.stripeMod_keeps (sub_of hm rfl) ?_ | with_reducible refine State.stripeClose_keeps (sub_of hm rfl) ?_ | with_reducible refine State.progMod_keeps (sub_of hm rfl) ?_ | with_reducible refine State.discardIssue_keeps (sub_of hm rfl) ?_ | with_reducible refine State.emit_keeps (sub_of hm rfl) ?_ | with_reducible refine State.bump_keeps (sub_of hm rfl) ?_ ?_ | fail_if_no_progress with_reducible refine upd_te (sub_of hm rfl) ?_ | with_reducible exact R.MC_PGM_CNT_ok (sub_of hm rfl) | (with_reducible refine regOk_of (c := 17) (sub_of hm rfl) (blk17 ?_ ?_) <;> simp only [R.MC_PGM_CNT] <;> omega) | split | dsimp only)

theorem State.mapSpot_keeps {m : Nat} {x : State} {s : State} {a1 : Nat} {t : State} {u0 : Nat} {u1 : Nat} (hm : Nat.land 8192 m = 8192)
    (e : State.mapSpot s a1 = some (u0, u1, t)) (h : Same m x s) : Same m x t := by
  unfold State.mapSpot at e
  (try dsimp only at e)
  (repeat' split at e) <;> (try cases e) <;> repeat' (first | with_reducible assumption | intro _ | fail_if_no_progress with_reducible refine upd_te (sub_of hm rfl) ?_ | split | dsimp only)

theorem State.stripeFor_keeps {m : Nat} {x : State} {s : State} {a1 : Nat} {t : State} {u0 : Option Nat} (hm : Nat.land 4398046519304 m = 4398046519304)
    (e : State.stripeFor s a1 = some (u0, t)) (h : Same m x s) : Same m x t := by
  unfold State.stripeFor at e
  (try dsimp only at e)
  (repeat' split at e) <;> (try cases e) <;> repeat' (first | with_reducible assumption | intro _ | with_reducible apply same_ite | with_reducible refine State.obpShow_keeps (sub_of hm rfl) ?_ | fail_if_no_progress with_reducible refine upd_te (sub_of hm rfl) ?_ | split | dsimp only)

theorem State.stallShow_keeps {m : Nat} {x : State} {s : State} {a1 : Nat} (hm : Nat.land 4398046519304 m = 4398046519304)
    (h : Same m x s) : Same m x (State.stallShow s a1) := by
  unfold State.stallShow
  repeat' (first | with_reducible assumption | intro _ | with_reducible refine State.setBit_keeps (sub_of hm rfl) ?_ ?_ | with_reducible refine State.stripeFor_keeps (sub_of hm rfl) (by assumption) ?_ | with_reducible exact R.MG_OBP_STS_ok (sub_of hm rfl) | (with_reducible refine regOk_of (c := 15) (sub_of hm rfl) (blk15 ?_ ?_) <;> simp only [R.MG_OBP_STS] <;> omega) | split | dsimp only)

theorem State.issueProg_keeps {m : Nat} {x : State} {s : State} {a1 : Prog} (hm : Nat.land 23850020627214 m = 23850020627214)
    (h : Same m x s) : Same m x (State.issueProg s a1) := by
  unfold State.issueProg
  repeat' (first | with_reducible assumption | intro _ | with_reducible apply same_ite | with_reducible refine State.progDel_keeps (sub_of hm rfl) ?_ | with_reducible refine State.openShow_keeps (sub_of hm rfl) ?_ | with_reducible refine State.stripeNoParity_keeps (sub_of hm rfl) ?_ | with_reducible refine State.nextPage_keeps (sub_of hm rfl) (by assumption) ?_ | with_reducible refine State.issueOn_keeps (sub_of hm rfl) ?_ | with_reducible refine State.mapSpot_keeps (sub_of hm rfl) (by assumption) ?_ | with_reducible refine State.stripeFor_keeps (sub_of hm rfl) (by assumption) ?_ | with_reducible refine State.stallShow_keeps (sub_of hm rfl) ?_ | split | dsimp only)

theorem State.ckptShow_keeps {m : Nat} {x : State} {s : State} (hm : Nat.land 68719476744 m = 68719476744)
    (h : Same m x s) : Same m x (State.ckptShow s) := by
  unfold State.ckptShow
  repeat' (first | with_reducible assumption | intro _ | with_reducible apply same_ite | with_reducible refine State.setBit_keeps (sub_of hm rfl) ?_ ?_ | with_reducible exact R.TE_CTL_ok (sub_of hm rfl) | (with_reducible refine regOk_of (c := 9) (sub_of hm rfl) (blk9 ?_ ?_) <;> simp only [R.TE_CTL] <;> omega) | split | dsimp only)

theorem State.ckptPass_keeps {m : Nat} {x : State} {s : State} {a1 : Nat} {a2 : Nat} {a3 : Nat} (hm : Nat.land 19451974099722 m = 19451974099722)
    (h : Same m x s) : Same m x (State.ckptPass s a1 a2 a3) := by
  unfold State.ckptPass
  repeat' (first | with_reducible assumption | intro _ | with_reducible apply same_ite | with_reducible apply same_when | with_reducible refine State.ckptShow_keeps (sub_of hm rfl) ?_ | with_reducible refine State.journalFlush_keeps (sub_of hm rfl) ?_ | fail_if_no_progress with_reducible refine upd_te (sub_of hm rfl) ?_ | split | dsimp only)

theorem State.flushCommit_keeps {m : Nat} {x : State} {s : State} {a1 : Nat} {a2 : BitVec 64} (hm : Nat.land 8192 m = 8192)
    (h : Same m x s) : Same m x (State.flushCommit s a1 a2) := by
  unfold State.flushCommit
  repeat' (first | with_reducible assumption | intro _ | with_reducible apply same_ite | fail_if_no_progress with_reducible refine upd_te (sub_of hm rfl) ?_ | split | dsimp only)

theorem State.commitTile_keeps {m : Nat} {x : State} {s : State} {a1 : PTile} {a2 : Loc} (hm : Nat.land 137506138122 m = 137506138122)
    (h : Same m x s) : Same m x (State.commitTile s a1 a2).2 := by
  unfold State.commitTile
  repeat' (first | with_reducible assumption | intro _ | with_reducible apply same_ite | with_reducible apply same2_ite | with_reducible refine State.blkMod_keeps (sub_of hm rfl) ?_ | with_reducible refine State.setEntry_keeps (sub_of hm rfl) ?_ | with_reducible refine State.slotMod_keeps (sub_of hm rfl) ?_ | with_reducible refine State.tsStatus_keeps (sub_of hm rfl) ?_ | with_reducible refine State.flushCommit_keeps (sub_of hm rfl) ?_ | with_reducible refine State.release_keeps (sub_of hm rfl) ?_ | fail_if_no_progress with_reducible refine upd_te (sub_of hm rfl) ?_ | split | dsimp only)

theorem State.commitTile_keeps_eq {m : Nat} {x : State} {s : State} {a1 : PTile} {a2 : Loc} {u : Bool} {t : State} (hm : Nat.land 137506138122 m = 137506138122)
    (e : State.commitTile s a1 a2 = (u, t)) (h : Same m x s) : Same m x t := by
  have := State.commitTile_keeps hm h (a1 := a1) (a2 := a2)
  rwa [e] at this

theorem State.progNumbers_keeps {m : Nat} {x : State} {s : State} (hm : Nat.land 19451974116106 m = 19451974116106)
    (h : Same m x s) : Same m x (State.progNumbers s) := by
  unfold State.progNumbers
  repeat' (first | with_reducible assumption | intro _ | with_reducible apply same_ite | with_reducible apply same_foldl | with_reducible refine State.journalFlush_keeps (sub_of hm rfl) ?_ | with_reducible refine State.progNumber_keeps (sub_of hm rfl) ?_ | split | dsimp only)

theorem State.parityRelease_keeps {m : Nat} {x : State} {s : State} (hm : Nat.land 23850020610826 m = 23850020610826)
    (h : Same m x s) : Same m x (State.parityRelease s) := by
  unfold State.parityRelease
  repeat' (first | with_reducible assumption | intro _ | with_reducible apply same_ite | with_reducible apply same_foldl | with_reducible refine State.stripeMod_keeps (sub_of hm rfl) ?_ | with_reducible refine State.wrN_keeps (sub_of hm rfl) ?_ ?_ | with_reducible refine State.blkSettle_keeps (sub_of hm rfl) ?_ | with_reducible exact R.MG_OBP_HELD_ok (sub_of hm rfl) | (with_reducible refine regOk_of (c := 15) (sub_of hm rfl) (blk15 ?_ ?_) <;> simp only [R.MG_OBP_HELD] <;> omega) | split | dsimp only)

theorem State.progPass_keeps {m : Nat} {x : State} {s : State} {a1 : Prog} (hm : Nat.land 305599876295434 m = 305599876295434)
    (h : Same m x s) : Same m x (State.progPass s a1) := by
  unfold State.progPass
  repeat' (first | with_reducible assumption | intro _ | with_reducible apply same_ite | with_reducible apply same_foldl | with_reducible apply same2_ite | with_reducible apply same_foldl2 | with_reducible refine State.stripeMod_keeps (sub_of hm rfl) ?_ | with_reducible refine State.obpShow_keeps (sub_of hm rfl) ?_ | with_reducible refine State.addCnt_keeps (sub_of hm rfl) ?_ ?_ | with_reducible refine State.bump_keeps (sub_of hm rfl) ?_ ?_ | with_reducible refine State.journal_keeps (sub_of hm rfl) ?_ | with_reducible refine State.progDel_keeps (sub_of hm rfl) ?_ | with_reducible refine State.ckptPass_keeps (sub_of hm rfl) ?_ | with_reducible refine State.commitTile_keeps (sub_of hm rfl) ?_ | with_reducible refine State.commitTile_keeps_eq (sub_of hm rfl) (by assumption) ?_ | with_reducible refine State.stripeParity_keeps (sub_of hm rfl) ?_ | with_reducible refine State.afterMap_keeps (sub_of hm rfl) ?_ | with_reducible refine State.closeBlock_keeps (sub_of hm rfl) ?_ | with_reducible refine State.progNumbers_keeps (sub_of hm rfl) ?_ | with_reducible refine State.parityRelease_keeps (sub_of hm rfl) ?_ | fail_if_no_progress with_reducible refine upd_sir (sub_of hm rfl) ?_ | fail_if_no_progress with_reducible refine upd_te (sub_of hm rfl) ?_ | with_reducible exact R.MG_OBP_HELD_ok (sub_of hm rfl) | with_reducible exact R.MG_OBP_STRIPES_ok (sub_of hm rfl) | with_reducible exact R.TE_GC_COPIED_ok (sub_of hm rfl) | with_reducible exact R.TE_WL_COPIED_ok (sub_of hm rfl) | (with_reducible refine regOk_of (c := 9) (sub_of hm rfl) (blk9 ?_ ?_) <;> simp only [R.TE_GC_COPIED, R.TE_WL_COPIED] <;> omega) | (with_reducible refine regOk_of (c := 15) (sub_of hm rfl) (blk15 ?_ ?_) <;> simp only [R.MG_OBP_HELD, R.MG_OBP_STRIPES] <;> omega) | split | dsimp only)

theorem State.ckptAll_keeps {m : Nat} {x : State} {s : State} (hm : Nat.land 68719484936 m = 68719484936)
    (h : Same m x s) : Same m x (State.ckptAll s) := by
  unfold State.ckptAll
  repeat' (first | with_reducible assumption | intro _ | with_reducible apply same_foldl | with_reducible refine State.ckptShow_keeps (sub_of hm rfl) ?_ | with_reducible refine State.setBit_keeps (sub_of hm rfl) ?_ ?_ | fail_if_no_progress with_reducible refine upd_te (sub_of hm rfl) ?_ | with_reducible exact R.TE_CTL_ok (sub_of hm rfl) | (with_reducible refine regOk_of (c := 9) (sub_of hm rfl) (blk9 ?_ ?_) <;> simp only [R.TE_CTL] <;> omega) | split | dsimp only)

theorem State.ckptDrop_keeps {m : Nat} {x : State} {s : State} (hm : Nat.land 8192 m = 8192)
    (h : Same m x s) : Same m x (State.ckptDrop s) := by
  unfold State.ckptDrop
  repeat' (first | with_reducible assumption | intro _ | with_reducible apply same_foldl | fail_if_no_progress with_reducible refine upd_te (sub_of hm rfl) ?_ | split | dsimp only)

theorem State.progStart_keeps {m : Nat} {x : State} {s : State} {a1 : PKind} {a2 : Nat} {a3 : List (Option PTile)} {a4 : List (Nat × Nat)} {a5 : Bool} {a6 : Nat → Option Loc} (hm : Nat.land 19451974116106 m = 19451974116106)
    (h : Same m x s) : Same m x (State.progStart s a1 a2 a3 a4 a5 a6) := by
  unfold State.progStart
  repeat' (first | with_reducible assumption | intro _ | with_reducible apply same_foldl | with_reducible refine State.leased_keeps (sub_of hm rfl) ?_ | with_reducible refine State.issueRead_keeps (sub_of hm rfl) ?_ | with_reducible refine State.progGathered_keeps (sub_of hm rfl) ?_ | fail_if_no_progress with_reducible refine upd_te (sub_of hm rfl) ?_ | split | dsimp only)

theorem State.progReturn_keeps {m : Nat} {x : State} {s : State} {a1 : Prog} (hm : Nat.land 137506138122 m = 137506138122)
    (h : Same m x s) : Same m x (State.progReturn s a1) := by
  unfold State.progReturn
  repeat' (first | with_reducible assumption | intro _ | with_reducible apply same_ite | with_reducible apply same_foldl | with_reducible refine State.progDel_keeps (sub_of hm rfl) ?_ | with_reducible refine State.tsStatus_keeps (sub_of hm rfl) ?_ | with_reducible refine State.release_keeps (sub_of hm rfl) ?_ | with_reducible refine State.slotMod_keeps (sub_of hm rfl) ?_ | fail_if_no_progress with_reducible refine upd_te (sub_of hm rfl) ?_ | split | dsimp only)

theorem State.progAgain_keeps {m : Nat} {x : State} {s : State} {a1 : Prog} (hm : Nat.land 1859788073738 m = 1859788073738)
    (h : Same m x s) : Same m x (State.progAgain s a1) := by
  unfold State.progAgain
  repeat' (first | with_reducible assumption | intro _ | with_reducible apply same_ite | with_reducible refine State.progReturn_keeps (sub_of hm rfl) ?_ | with_reducible refine State.progNumber_keeps (sub_of hm rfl) ?_ | with_reducible refine State.progMod_keeps (sub_of hm rfl) ?_ | split | dsimp only)

theorem State.stripeRemove_keeps {m : Nat} {x : State} {s : State} {a1 : Nat} {a2 : Sparse StoredLine} (hm : Nat.land 4398046519304 m = 4398046519304)
    (h : Same m x s) : Same m x (State.stripeRemove s a1 a2) := by
  unfold State.stripeRemove
  repeat' (first | with_reducible assumption | intro _ | with_reducible refine State.stripeParity_keeps (sub_of hm rfl) ?_ | with_reducible refine State.stripeMod_keeps (sub_of hm rfl) ?_ | split | dsimp only)

theorem State.progFail_keeps {m : Nat} {x : State} {s : State} {a1 : Prog} (hm : Nat.land 23850020629258 m = 23850020629258)
    (h : Same m x s) : Same m x (State.progFail s a1) := by
  unfold State.progFail
  repeat' (first | with_reducible assumption | intro _ | with_reducible apply same_ite | with_reducible refine State.bump_keeps (sub_of hm rfl) ?_ ?_ | with_reducible refine State.blkMod_keeps (sub_of hm rfl) ?_ | with_reducible refine State.closeBlock_keeps (sub_of hm rfl) ?_ | with_reducible refine State.progAgain_keeps (sub_of hm rfl) ?_ | with_reducible refine State.stripeRemove_keeps (sub_of hm rfl) ?_ | with_reducible refine State.progDel_keeps (sub_of hm rfl) ?_ | fail_if_no_progress with_reducible refine upd_te (sub_of hm rfl) ?_ | with_reducible exact R.TE_GC_ABORT_ok (sub_of hm rfl) | with_reducible exact R.TE_PGM_FAIL_ok (sub_of hm rfl) | (with_reducible refine regOk_of (c := 9) (sub_of hm rfl) (blk9 ?_ ?_) <;> simp only [R.TE_GC_ABORT, R.TE_PGM_FAIL] <;> omega) | split | dsimp only)

theorem State.takeTile_keeps {m : Nat} {x : State} {s : State} {a1 : Option Nat} {a2 : Nat} {a3 : Nat} {a4 : Bool} (hm : Nat.land 24580 m = 24580)
    (h : Same m x s) : Same m x (State.takeTile s a1 a2 a3 a4).2 := by
  unfold State.takeTile
  repeat' (first | with_reducible assumption | intro _ | with_reducible apply same_ite | with_reducible apply same2_ite | with_reducible refine State.slotMod_keeps (sub_of hm rfl) ?_ | with_reducible refine State.xtsUse_keeps (sub_of hm rfl) ?_ | split | dsimp only)

theorem State.takeTile_keeps_eq {m : Nat} {x : State} {s : State} {a1 : Option Nat} {a2 : Nat} {a3 : Nat} {a4 : Bool} {u : PTile} {t : State} (hm : Nat.land 24580 m = 24580)
    (e : State.takeTile s a1 a2 a3 a4 = (u, t)) (h : Same m x s) : Same m x t := by
  have := State.takeTile_keeps hm h (a1 := a1) (a2 := a2) (a3 := a3) (a4 := a4)
  rwa [e] at this

theorem State.startPage_keeps {m : Nat} {x : State} {s : State} {a1 : Nat} {a2 : Bool} (hm : Nat.land 19451974116110 m = 19451974116110)
    (h : Same m x s) : Same m x (State.startPage s a1 a2) := by
  unfold State.startPage
  repeat' (first | with_reducible assumption | intro _ | with_reducible apply same_ite | with_reducible apply same_foldl | with_reducible apply same2_ite | with_reducible apply same_foldl2 | with_reducible refine State.takeTile_keeps (sub_of hm rfl) ?_ | with_reducible refine State.takeTile_keeps_eq (sub_of hm rfl) (by assumption) ?_ | with_reducible refine State.addCnt_keeps (sub_of hm rfl) ?_ ?_ | with_reducible refine State.tsStatus_keeps (sub_of hm rfl) ?_ | with_reducible refine State.progStart_keeps (sub_of hm rfl) ?_ | with_reducible exact R.TS_FILL_RD_CNT_ok (sub_of hm rfl) | with_reducible exact R.TS_PAD_CNT_ok (sub_of hm rfl) | (with_reducible refine regOk_of (c := 10) (sub_of hm rfl) (blk10 ?_ ?_) <;> simp only [R.TS_FILL_RD_CNT, R.TS_PAD_CNT] <;> omega) | split | dsimp only)

end Sys2Proof.Machine
end

