-- ==== Sys2Proof/Laws/FrameRecoverOps.lean ====
section
/-! SUPPORT. The frame of every operation of Machine/RecoverOps.lean, as a mask of the kinds of state that it may change. -/

set_option autoImplicit false
set_option linter.unusedTactic false
set_option linter.unreachableTactic false
set_option linter.unnecessarySeqFocus false
set_option linter.unusedSimpArgs false
set_option linter.unusedVariables false

namespace Sys2Proof.Machine

theorem State.sdiscShow_keeps {m : Nat} {x : State} {s : State} {a1 : Nat} (hm : Nat.land 281474976710664 m = 281474976710664)
    (h : Same m x s) : Same m x (State.sdiscShow s a1) := by
  unfold State.sdiscShow
  repeat' (first | with_reducible assumption | intro _ | with_reducible refine State.set_keeps (sub_of hm rfl) ?_ ?_ | with_reducible refine State.setBit_keeps (sub_of hm rfl) ?_ ?_ | with_reducible exact R.RT_RG_STS_ok (sub_of hm rfl) | (with_reducible refine regOk_of (c := 21) (sub_of hm rfl) (blk21 ?_ ?_) <;> simp only [R.RT_RG_STS] <;> omega) | split | dsimp only)

theorem State.discardShow_keeps {m : Nat} {x : State} {s : State} {a1 : Discard} (hm : Nat.land 282574589044746 m = 282574589044746)
    (h : Same m x s) : Same m x (State.discardShow s a1) := by
  unfold State.discardShow
  repeat' (first | with_reducible assumption | intro _ | with_reducible apply same_ite | with_reducible refine State.sdiscShow_keeps (sub_of hm rfl) ?_ | with_reducible refine State.car_keeps (sub_of hm rfl) ?_ | with_reducible refine State.answer_keeps (sub_of hm rfl) ?_ | fail_if_no_progress with_reducible refine upd_te (sub_of hm rfl) ?_ | split | dsimp only)

theorem State.releaseLine_keeps {m : Nat} {x : State} {s : State} {a1 : Req} {a2 : Line} (hm : Nat.land 9930081951246 m = 9930081951246)
    (h : Same m x s) : Same m x (State.releaseLine s a1 a2) := by
  unfold State.releaseLine
  repeat' (first | with_reducible assumption | intro _ | with_reducible apply same_ite | with_reducible refine State.fillFor_keeps (sub_of hm rfl) ?_ | with_reducible refine State.supply_keeps (sub_of hm rfl) ?_ | fail_if_no_progress with_reducible refine upd_ce (sub_of hm rfl) ?_ | split | dsimp only)

theorem State.rewriteTile_keeps {m : Nat} {x : State} {s : State} {a1 : Nat} (hm : Nat.land 137506070536 m = 137506070536)
    (h : Same m x s) : Same m x (State.rewriteTile s a1) := by
  unfold State.rewriteTile
  repeat' (first | with_reducible assumption | intro _ | with_reducible apply same_ite | with_reducible refine State.leased_keeps (sub_of hm rfl) ?_ | with_reducible refine State.tsStatus_keeps (sub_of hm rfl) ?_ | with_reducible refine State.slotMod_keeps (sub_of hm rfl) ?_ | fail_if_no_progress with_reducible refine upd_te (sub_of hm rfl) ?_ | split | dsimp only)

theorem State.tileNext_keeps {m : Nat} {x : State} {s : State} {a1 : Nat} (hm : Nat.land 8192 m = 8192)
    (h : Same m x s) : Same m x (State.tileNext s a1) := by
  unfold State.tileNext
  repeat' (first | with_reducible assumption | intro _ | with_reducible apply same_ite | fail_if_no_progress with_reducible refine upd_te (sub_of hm rfl) ?_ | split | dsimp only)

theorem State.loseHost_keeps {m : Nat} {x : State} {s : State} {a1 : Req} {a2 : Nat} {a3 : Bool} (hm : Nat.land 28248118505230 m = 28248118505230)
    (h : Same m x s) : Same m x (State.loseHost s a1 a2 a3) := by
  unfold State.loseHost
  repeat' (first | with_reducible assumption | intro _ | with_reducible apply same_ite | with_reducible refine State.supply_keeps (sub_of hm rfl) ?_ | with_reducible refine State.tileNext_keeps (sub_of hm rfl) ?_ | with_reducible refine State.loseLine_keeps (sub_of hm rfl) ?_ | split | dsimp only)

theorem State.afterObp_keeps {m : Nat} {x : State} {s : State} {a1 : Req} {a2 : Nat} {a3 : Bool} (hm : Nat.land 28248118505230 m = 28248118505230)
    (h : Same m x s) : Same m x (State.afterObp s a1 a2 a3) := by
  unfold State.afterObp
  repeat' (first | with_reducible assumption | intro _ | with_reducible apply same_ite | with_reducible refine State.reqMod_keeps (sub_of hm rfl) ?_ | with_reducible refine State.repReq_keeps (sub_of hm rfl) ?_ | with_reducible refine State.loseHost_keeps (sub_of hm rfl) ?_ | split | dsimp only)

theorem State.gatherLose_keeps {m : Nat} {x : State} {s : State} {a1 : Nat} {a2 : Nat} {a3 : Nat} {a4 : Nat} {a5 : Loc} {a6 : Bool} (hm : Nat.land 19726869849870 m = 19726869849870)
    (h : Same m x s) : Same m x (State.gatherLose s a1 a2 a3 a4 a5 a6) := by
  unfold State.gatherLose
  repeat' (first | with_reducible assumption | intro _ | with_reducible apply same_ite | with_reducible apply same_when | with_reducible refine State.loseLine_keeps (sub_of hm rfl) ?_ | with_reducible refine State.bump_keeps (sub_of hm rfl) ?_ ?_ | with_reducible refine State.gathered_keeps (sub_of hm rfl) ?_ | with_reducible exact R.SIR_POISONED_ok (sub_of hm rfl) | (with_reducible refine regOk_of (c := 11) (sub_of hm rfl) (blk11 ?_ ?_) <;> simp only [R.SIR_POISONED] <;> omega) | split | dsimp only)

theorem State.gatherPartner_keeps {m : Nat} {x : State} {s : State} {a1 : Nat} {a2 : Nat} {a3 : Nat} {a4 : Nat} {a5 : Loc} {a6 : Bool} (hm : Nat.land 19726869849870 m = 19726869849870)
    (h : Same m x s) : Same m x (State.gatherPartner s a1 a2 a3 a4 a5 a6) := by
  unfold State.gatherPartner
  repeat' (first | with_reducible assumption | intro _ | with_reducible apply same_ite | with_reducible refine State.gathered_keeps (sub_of hm rfl) ?_ | with_reducible refine State.repReq_keeps (sub_of hm rfl) ?_ | with_reducible refine State.gatherLose_keeps (sub_of hm rfl) ?_ | fail_if_no_progress with_reducible refine upd_sir (sub_of hm rfl) ?_ | split | dsimp only)

theorem State.reconDone_keeps {m : Nat} {x : State} {s : State} {a1 : Nat} (hm : Nat.land 314447559261966 m = 314447559261966)
    (h : Same m x s) : Same m x (State.reconDone s a1) := by
  unfold State.reconDone
  repeat' (first | with_reducible assumption | intro _ | with_reducible apply same_ite | with_reducible apply same_when | with_reducible refine State.lineKeyUse_keeps (sub_of hm rfl) ?_ | with_reducible refine State.bump_keeps (sub_of hm rfl) ?_ ?_ | with_reducible refine State.releaseLine_keeps (sub_of hm rfl) ?_ | with_reducible refine State.rewriteTile_keeps (sub_of hm rfl) ?_ | with_reducible refine State.gathered_keeps (sub_of hm rfl) ?_ | with_reducible refine State.tagFailed_keeps (sub_of hm rfl) ?_ | with_reducible refine State.afterObp_keeps (sub_of hm rfl) ?_ | with_reducible refine State.gatherPartner_keeps (sub_of hm rfl) ?_ | fail_if_no_progress with_reducible refine upd_te (sub_of hm rfl) ?_ | with_reducible exact R.MG_OBP_FAIL_ok (sub_of hm rfl) | with_reducible exact R.MG_OBP_RECON_ok (sub_of hm rfl) | with_reducible exact R.SIR_RECOV_OBP_ok (sub_of hm rfl) | (with_reducible refine regOk_of (c := 11) (sub_of hm rfl) (blk11 ?_ ?_) <;> simp only [R.SIR_RECOV_OBP] <;> omega) | (with_reducible refine regOk_of (c := 15) (sub_of hm rfl) (blk15 ?_ ?_) <;> simp only [R.MG_OBP_FAIL, R.MG_OBP_RECON] <;> omega) | split | dsimp only)

theorem State.hostRecover_keeps {m : Nat} {x : State} {s : State} {a1 : Req} {a2 : Loc} {a3 : Nat} {a4 : Bool} (hm : Nat.land 314447559261966 m = 314447559261966)
    (h : Same m x s) : Same m x (State.hostRecover s a1 a2 a3 a4) := by
  unfold State.hostRecover
  repeat' (first | with_reducible assumption | intro _ | with_reducible apply same_ite | with_reducible refine State.supply_keeps (sub_of hm rfl) ?_ | with_reducible refine State.reconDone_keeps (sub_of hm rfl) ?_ | with_reducible refine State.reconStart_keeps (sub_of hm rfl) ?_ | with_reducible refine State.reqMod_keeps (sub_of hm rfl) ?_ | with_reducible refine State.afterObp_keeps (sub_of hm rfl) ?_ | fail_if_no_progress with_reducible refine upd_sir (sub_of hm rfl) ?_ | split | dsimp only)

theorem State.lostMiss_keeps {m : Nat} {x : State} {s : State} {a1 : Req} {a2 : Loc} (hm : Nat.land 314447559261966 m = 314447559261966)
    (h : Same m x s) : Same m x (State.lostMiss s a1 a2) := by
  unfold State.lostMiss
  repeat' (first | with_reducible assumption | intro _ | with_reducible refine State.hostRecover_keeps (sub_of hm rfl) ?_ | split | dsimp only)

theorem State.codecBad_keeps {m : Nat} {x : State} {s : State} {a1 : Nat} {a2 : Nat} {a3 : Decoded} (hm : Nat.land 286989781877256 m = 286989781877256)
    (h : Same m x s) : Same m x (State.codecBad s a1 a2 a3) := by
  unfold State.codecBad
  repeat' (first | with_reducible assumption | intro _ | with_reducible refine State.pcItem_keeps (sub_of hm rfl) ?_ | with_reducible refine State.bump_keeps (sub_of hm rfl) ?_ ?_ | with_reducible refine State.tagFailed_keeps (sub_of hm rfl) ?_ | with_reducible exact R.MG_LCHK_CNT_ok (sub_of hm rfl) | (with_reducible refine regOk_of (c := 15) (sub_of hm rfl) (blk15 ?_ ?_) <;> simp only [R.MG_LCHK_CNT] <;> omega) | split | dsimp only)

theorem State.codecOk_keeps {m : Nat} {x : State} {s : State} {a1 : Nat} {a2 : Nat} {a3 : Nat} (hm : Nat.land 4398114668552 m = 4398114668552)
    (h : Same m x s) : Same m x (State.codecOk s a1 a2 a3) := by
  unfold State.codecOk
  repeat' (first | with_reducible assumption | intro _ | with_reducible apply same_ite | with_reducible refine State.pcItem_keeps (sub_of hm rfl) ?_ | with_reducible refine State.addCnt_keeps (sub_of hm rfl) ?_ ?_ | with_reducible refine State.bump_keeps (sub_of hm rfl) ?_ ?_ | fail_if_no_progress with_reducible refine upd_sir (sub_of hm rfl) ?_ | with_reducible exact R.MG_CE_BITS_ok (sub_of hm rfl) | with_reducible exact R.MG_CE_LINES_ok (sub_of hm rfl) | with_reducible exact R.MG_RETRY1_ok (sub_of hm rfl) | (with_reducible refine regOk_of (c := 15) (sub_of hm rfl) (blk15 ?_ ?_) <;> simp only [R.MG_CE_BITS, R.MG_CE_LINES, R.MG_RETRY1] <;> omega) | split | dsimp only)

theorem State.codecUe_keeps {m : Nat} {x : State} {s : State} {a1 : Loc} {a2 : Nat} (hm : Nat.land 4398113620488 m = 4398113620488)
    (h : Same m x s) : Same m x (State.codecUe s a1 a2) := by
  unfold State.codecUe
  repeat' (first | with_reducible assumption | intro _ | with_reducible apply same_when | with_reducible refine State.bump_keeps (sub_of hm rfl) ?_ ?_ | with_reducible refine State.roll_keeps (sub_of hm rfl) ?_ | with_reducible exact R.MG_CDC_CTL_ok (sub_of hm rfl) | with_reducible exact R.MG_UE_LINES_ok (sub_of hm rfl) | (with_reducible refine regOk_of (c := 15) (sub_of hm rfl) (blk15 ?_ ?_) <;> simp only [R.MG_CDC_CTL, R.MG_UE_LINES] <;> omega) | split | dsimp only)

theorem State.gatherRecover_keeps {m : Nat} {x : State} {s : State} {a1 : Nat} {a2 : Nat} {a3 : Nat} {a4 : Nat} {a5 : Loc} {a6 : Nat} {a7 : Bool} (hm : Nat.land 314447559261966 m = 314447559261966)
    (h : Same m x s) : Same m x (State.gatherRecover s a1 a2 a3 a4 a5 a6 a7) := by
  unfold State.gatherRecover
  repeat' (first | with_reducible assumption | intro _ | with_reducible apply same_ite | with_reducible refine State.reconDone_keeps (sub_of hm rfl) ?_ | with_reducible refine State.reconStart_keeps (sub_of hm rfl) ?_ | with_reducible refine State.gatherPartner_keeps (sub_of hm rfl) ?_ | split | dsimp only)

theorem State.reconLine_keeps {m : Nat} {x : State} {s : State} {a1 : Nat} {a2 : Option StoredLine} (hm : Nat.land 314447559261966 m = 314447559261966)
    (h : Same m x s) : Same m x (State.reconLine s a1 a2) := by
  unfold State.reconLine
  repeat' (first | with_reducible assumption | intro _ | with_reducible apply same_ite | with_reducible refine State.reconDone_keeps (sub_of hm rfl) ?_ | fail_if_no_progress with_reducible refine upd_te (sub_of hm rfl) ?_ | split | dsimp only)

theorem State.readLost_keeps {m : Nat} {x : State} {s : State} {a1 : MRead} (hm : Nat.land 314447559261966 m = 314447559261966)
    (h : Same m x s) : Same m x (State.readLost s a1) := by
  unfold State.readLost
  repeat' (first | with_reducible assumption | intro _ | with_reducible refine State.lostMiss_keeps (sub_of hm rfl) ?_ | with_reducible refine State.gatherRecover_keeps (sub_of hm rfl) ?_ | with_reducible refine State.reconLine_keeps (sub_of hm rfl) ?_ | fail_if_no_progress with_reducible refine upd_te (sub_of hm rfl) ?_ | split | dsimp only)

theorem State.discardErased_keeps {m : Nat} {x : State} {s : State} {a1 : Nat} (hm : Nat.land 282574589044746 m = 282574589044746)
    (h : Same m x s) : Same m x (State.discardErased s a1) := by
  unfold State.discardErased
  repeat' (first | with_reducible assumption | intro _ | with_reducible apply same_ite | with_reducible apply same_foldl | with_reducible refine State.discardShow_keeps (sub_of hm rfl) ?_ | fail_if_no_progress with_reducible refine upd_te (sub_of hm rfl) ?_ | split | dsimp only)

theorem State.retireBlock_keeps {m : Nat} {x : State} {s : State} {a1 : Nat} {a2 : Nat} (hm : Nat.land 19451974099722 m = 19451974099722)
    (h : Same m x s) : Same m x (State.retireBlock s a1 a2) := by
  unfold State.retireBlock
  repeat' (first | with_reducible assumption | intro _ | with_reducible refine State.blkMod_keeps (sub_of hm rfl) ?_ | with_reducible refine State.roll_keeps (sub_of hm rfl) ?_ | with_reducible refine State.bump_keeps (sub_of hm rfl) ?_ ?_ | with_reducible refine State.journal_keeps (sub_of hm rfl) ?_ | with_reducible exact R.TE_BLK_RETIRED_ok (sub_of hm rfl) | (with_reducible refine regOk_of (c := 9) (sub_of hm rfl) (blk9 ?_ ?_) <;> simp only [R.TE_BLK_RETIRED] <;> omega) | split | dsimp only)

theorem State.eraseFail_keeps {m : Nat} {x : State} {s : State} {a1 : Nat} {a2 : Nat} (hm : Nat.land 305325030877962 m = 305325030877962)
    (h : Same m x s) : Same m x (State.eraseFail s a1 a2) := by
  unfold State.eraseFail
  repeat' (first | with_reducible assumption | intro _ | with_reducible refine State.dieMod_keeps (sub_of hm rfl) ?_ | with_reducible refine State.bump_keeps (sub_of hm rfl) ?_ ?_ | with_reducible refine State.parityRelease_keeps (sub_of hm rfl) ?_ | with_reducible refine State.discardErased_keeps (sub_of hm rfl) ?_ | with_reducible refine State.retireBlock_keeps (sub_of hm rfl) ?_ | with_reducible exact R.TE_ERS_FAIL_ok (sub_of hm rfl) | (with_reducible refine regOk_of (c := 9) (sub_of hm rfl) (blk9 ?_ ?_) <;> simp only [R.TE_ERS_FAIL] <;> omega) | split | dsimp only)

theorem State.reclaim_keeps {m : Nat} {x : State} {s : State} {a1 : Nat} {a2 : Nat} (hm : Nat.land 8192 m = 8192)
    (h : Same m x s) : Same m x (State.reclaim s a1 a2) := by
  unfold State.reclaim
  repeat' (first | with_reducible assumption | intro _ | with_reducible apply same_ite | with_reducible apply same_foldl | with_reducible refine State.setEntry_keeps (sub_of hm rfl) ?_ | split | dsimp only)

theorem State.erasePass_keeps {m : Nat} {x : State} {s : State} {a1 : Nat} {a2 : Nat} (hm : Nat.land 305325030877962 m = 305325030877962)
    (h : Same m x s) : Same m x (State.erasePass s a1 a2) := by
  unfold State.erasePass
  repeat' (first | with_reducible assumption | intro _ | with_reducible refine State.blkMod_keeps (sub_of hm rfl) ?_ | with_reducible refine State.reclaim_keeps (sub_of hm rfl) ?_ | with_reducible refine State.dieMod_keeps (sub_of hm rfl) ?_ | with_reducible refine State.journal_keeps (sub_of hm rfl) ?_ | with_reducible refine State.parityRelease_keeps (sub_of hm rfl) ?_ | with_reducible refine State.discardErased_keeps (sub_of hm rfl) ?_ | fail_if_no_progress with_reducible refine upd_te (sub_of hm rfl) ?_ | split | dsimp only)

theorem State.hostUnread_keeps {m : Nat} {x : State} {s : State} {a1 : Req} {a2 : MRead} {a3 : Bool} (hm : Nat.land 314447559261966 m = 314447559261966)
    (h : Same m x s) : Same m x (State.hostUnread s a1 a2 a3) := by
  unfold State.hostUnread
  repeat' (first | with_reducible assumption | intro _ | with_reducible apply same_ite | with_reducible refine State.hostRecover_keeps (sub_of hm rfl) ?_ | with_reducible refine State.codecUe_keeps (sub_of hm rfl) ?_ | split | dsimp only)

theorem State.obpTry_keeps {m : Nat} {x : State} {s : State} {a1 : Nat} {a2 : Loc} {a3 : Nat} (hm : Nat.land 286989781877260 m = 286989781877260)
    (h : Same m x s) : Same m x (State.obpTry s a1 a2 a3).2 := by
  unfold State.obpTry
  repeat' (first | with_reducible assumption | intro _ | with_reducible refine State.lineKeyUse_keeps (sub_of hm rfl) ?_ | with_reducible refine State.bump_keeps (sub_of hm rfl) ?_ ?_ | with_reducible refine State.tagFailed_keeps (sub_of hm rfl) ?_ | with_reducible exact R.MG_OBP_FAIL_ok (sub_of hm rfl) | with_reducible exact R.MG_OBP_RECON_ok (sub_of hm rfl) | (with_reducible refine regOk_of (c := 15) (sub_of hm rfl) (blk15 ?_ ?_) <;> simp only [R.MG_OBP_FAIL, R.MG_OBP_RECON] <;> omega) | split | dsimp only)

theorem State.obpTry_keeps_eq {m : Nat} {x : State} {s : State} {a1 : Nat} {a2 : Loc} {a3 : Nat} {u : Decoded} {t : State} (hm : Nat.land 286989781877260 m = 286989781877260)
    (e : State.obpTry s a1 a2 a3 = (u, t)) (h : Same m x s) : Same m x t := by
  have := State.obpTry_keeps hm h (a1 := a1) (a2 := a2) (a3 := a3)
  rwa [e] at this

theorem State.sirTurnEnd_keeps {m : Nat} {x : State} {s : State} {a1 : Nat} {a2 : Bool} (hm : Nat.land 17592253161482 m = 17592253161482)
    (h : Same m x s) : Same m x (State.sirTurnEnd s a1 a2) := by
  unfold State.sirTurnEnd
  repeat' (first | with_reducible assumption | intro _ | with_reducible apply same_ite | with_reducible refine State.bgIssue_keeps (sub_of hm rfl) ?_ | with_reducible refine State.dieMod_keeps (sub_of hm rfl) ?_ | split | dsimp only)

end Sys2Proof.Machine
end

