-- ==== Sys2Proof/Laws/FrameRouteOps.lean ====
section
/-! SUPPORT. The frame of every operation of Machine/RouteOps.lean, as a mask of the kinds of state that it may change. -/

set_option autoImplicit false
set_option linter.unusedTactic false
set_option linter.unreachableTactic false
set_option linter.unnecessarySeqFocus false
set_option linter.unusedSimpArgs false
set_option linter.unusedVariables false

namespace Sys2Proof.Machine

theorem State.tagUpsets_keeps {m : Nat} {x : State} {s : State} {a1 : Nat} {a2 : List Upset} (hm : Nat.land 171882651150 m = 171882651150)
    (h : Same m x s) : Same m x (State.tagUpsets s a1 a2) := by
  unfold State.tagUpsets
  repeat' (first | with_reducible assumption | intro _ | with_reducible apply same_ite | with_reducible apply same_foldl | with_reducible refine State.lcTagRepair_keeps (sub_of hm rfl) ?_ | with_reducible refine State.lcWithdraw_keeps (sub_of hm rfl) ?_ | with_reducible refine State.lcMark_keeps (sub_of hm rfl) ?_ | split | dsimp only)

theorem State.mapcLookup_keeps {m : Nat} {x : State} {s : State} {a1 : Nat} {a2 : List Upset} (hm : Nat.land 68803372558 m = 68803372558)
    (h : Same m x s) : Same m x (State.mapcLookup s a1 a2).2 := by
  unfold State.mapcLookup
  repeat' (first | with_reducible assumption | intro _ | with_reducible apply same_ite | with_reducible apply same_when | with_reducible apply same2_ite | with_reducible refine State.bump_keeps (sub_of hm rfl) ?_ ?_ | with_reducible refine State.raise_keeps (sub_of hm rfl) ?_ | with_reducible refine State.mapcDrop_keeps (sub_of hm rfl) ?_ | with_reducible refine State.mapcMark_keeps (sub_of hm rfl) ?_ | with_reducible refine State.mapcTouch_keeps (sub_of hm rfl) ?_ | with_reducible exact R.MAPC_CE_CNT_ok (sub_of hm rfl) | with_reducible exact R.MAPC_HIT_ok (sub_of hm rfl) | with_reducible exact R.MAPC_MISS_ok (sub_of hm rfl) | with_reducible exact R.MAPC_UE_CNT_ok (sub_of hm rfl) | (with_reducible refine regOk_of (c := 9) (sub_of hm rfl) (blk9 ?_ ?_) <;> simp only [R.MAPC_CE_CNT, R.MAPC_HIT, R.MAPC_MISS, R.MAPC_UE_CNT] <;> omega) | split | dsimp only)

theorem State.mapcLookup_keeps_eq {m : Nat} {x : State} {s : State} {a1 : Nat} {a2 : List Upset} {u : Bool} {t : State} (hm : Nat.land 68803372558 m = 68803372558)
    (e : State.mapcLookup s a1 a2 = (u, t)) (h : Same m x s) : Same m x t := by
  have := State.mapcLookup_keeps hm h (a1 := a1) (a2 := a2)
  rwa [e] at this

theorem State.dispatch_keeps {m : Nat} {x : State} {s : State} {a1 : Req} {a2 : Loc} (hm : Nat.land 314447559261966 m = 314447559261966)
    (h : Same m x s) : Same m x (State.dispatch s a1 a2) := by
  unfold State.dispatch
  repeat' (first | with_reducible assumption | intro _ | with_reducible apply same_ite | with_reducible apply same_when | with_reducible refine State.lostMiss_keeps (sub_of hm rfl) ?_ | with_reducible refine State.roll_keeps (sub_of hm rfl) ?_ | with_reducible refine State.maxIn_keeps (sub_of hm rfl) ?_ ?_ | with_reducible refine State.bump_keeps (sub_of hm rfl) ?_ ?_ | with_reducible refine State.heldShow_keeps (sub_of hm rfl) ?_ | with_reducible refine State.reqMod_keeps (sub_of hm rfl) ?_ | with_reducible refine State.issueRead_keeps (sub_of hm rfl) ?_ | with_reducible exact R.RT_CTL_ok (sub_of hm rfl) | with_reducible exact R.RT_HELD_CNT_ok (sub_of hm rfl) | with_reducible exact R.RT_HELD_MAX_ok (sub_of hm rfl) | (with_reducible refine regOk_of (c := 16) (sub_of hm rfl) (blk16 ?_ ?_) <;> simp only [R.RT_CTL, R.RT_HELD_CNT, R.RT_HELD_MAX] <;> omega) | split | dsimp only)

theorem State.byEntry_keeps {m : Nat} {x : State} {s : State} {a1 : Req} (hm : Nat.land 314447559261966 m = 314447559261966)
    (h : Same m x s) : Same m x (State.byEntry s a1) := by
  unfold State.byEntry
  repeat' (first | with_reducible assumption | intro _ | with_reducible apply same_ite | with_reducible refine State.supply_keeps (sub_of hm rfl) ?_ | with_reducible refine State.dispatch_keeps (sub_of hm rfl) ?_ | with_reducible refine State.reqMod_keeps (sub_of hm rfl) ?_ | split | dsimp only)

theorem State.mapPath_keeps {m : Nat} {x : State} {s : State} {a1 : Req} {a2 : List Upset} (hm : Nat.land 314447559261966 m = 314447559261966)
    (h : Same m x s) : Same m x (State.mapPath s a1 a2) := by
  unfold State.mapPath
  repeat' (first | with_reducible assumption | intro _ | with_reducible apply same_ite | with_reducible apply same2_ite | with_reducible refine State.pcItem_keeps (sub_of hm rfl) ?_ | with_reducible refine State.mapcLookup_keeps (sub_of hm rfl) ?_ | with_reducible refine State.mapcLookup_keeps_eq (sub_of hm rfl) (by assumption) ?_ | with_reducible refine State.byEntry_keeps (sub_of hm rfl) ?_ | with_reducible refine State.reqMod_keeps (sub_of hm rfl) ?_ | split | dsimp only)

theorem State.wayAsk_keeps {m : Nat} {x : State} {s : State} {a1 : Nat} {a2 : Nat} {a3 : Option Nat} (hm : Nat.land 67178506 m = 67178506)
    (h : Same m x s) : Same m x (State.wayAsk s a1 a2 a3) := by
  unfold State.wayAsk
  repeat' (first | with_reducible assumption | intro _ | with_reducible refine State.wayFetch_keeps (sub_of hm rfl) ?_ | with_reducible refine State.repReq_keeps (sub_of hm rfl) ?_ | split | dsimp only)

theorem State.lookup_keeps {m : Nat} {x : State} {s : State} {a1 : Req} {a2 : List Upset} (hm : Nat.land 314447559261966 m = 314447559261966)
    (h : Same m x s) : Same m x (State.lookup s a1 a2) := by
  unfold State.lookup
  repeat' (first | with_reducible assumption | intro _ | with_reducible apply same_ite | with_reducible apply same2_ite | with_reducible refine State.pcItem_keeps (sub_of hm rfl) ?_ | with_reducible refine State.tagUpsets_keeps (sub_of hm rfl) ?_ | with_reducible refine State.addCnt_keeps (sub_of hm rfl) ?_ ?_ | with_reducible refine State.mapPath_keeps (sub_of hm rfl) ?_ | with_reducible refine State.lcInvalidate_keeps (sub_of hm rfl) ?_ | with_reducible refine State.supply_keeps (sub_of hm rfl) ?_ | with_reducible refine State.wayAsk_keeps (sub_of hm rfl) ?_ | with_reducible refine State.reqMod_keeps (sub_of hm rfl) ?_ | with_reducible refine State.lcLoseDirty_keeps (sub_of hm rfl) ?_ | with_reducible refine State.bump_keeps (sub_of hm rfl) ?_ ?_ | with_reducible refine State.lcTouch_keeps (sub_of hm rfl) ?_ | with_reducible refine State.mapcLookup_keeps (sub_of hm rfl) ?_ | with_reducible refine State.mapcLookup_keeps_eq (sub_of hm rfl) (by assumption) ?_ | with_reducible exact R.LC_CE_CNT_ok (sub_of hm rfl) | with_reducible exact R.LC_HIT_RD_ok (sub_of hm rfl) | with_reducible exact R.LC_MISS_RD_ok (sub_of hm rfl) | with_reducible exact R.LC_UE_CNT_ok (sub_of hm rfl) | (with_reducible refine regOk_of (c := 8) (sub_of hm rfl) (blk8 ?_ ?_) <;> simp only [R.LC_CE_CNT, R.LC_HIT_RD, R.LC_MISS_RD, R.LC_UE_CNT] <;> omega) | split | dsimp only)

theorem State.holdWrite_keeps {m : Nat} {x : State} {s : State} {a1 : Req} (hm : Nat.land 137438955528 m = 137438955528)
    (h : Same m x s) : Same m x (State.holdWrite s a1) := by
  unfold State.holdWrite
  repeat' (first | with_reducible assumption | intro _ | with_reducible refine State.reqMod_keeps (sub_of hm rfl) ?_ | with_reducible refine State.bump_keeps (sub_of hm rfl) ?_ ?_ | with_reducible exact R.TS_HELD_CNT_ok (sub_of hm rfl) | (with_reducible refine regOk_of (c := 10) (sub_of hm rfl) (blk10 ?_ ?_) <;> simp only [R.TS_HELD_CNT] <;> omega) | split | dsimp only)

theorem State.placed_keeps {m : Nat} {x : State} {s : State} {a1 : Req} (hm : Nat.land 10445478022670 m = 10445478022670)
    (h : Same m x s) : Same m x (State.placed s a1) := by
  unfold State.placed
  repeat' (first | with_reducible assumption | intro _ | with_reducible apply same_ite | with_reducible apply same2_ite | with_reducible refine State.supplyJoined_keeps (sub_of hm rfl) ?_ | with_reducible refine State.closeReads_keeps (sub_of hm rfl) ?_ | with_reducible refine State.bmapSet_keeps (sub_of hm rfl) ?_ | with_reducible refine State.wakeAfter_keeps (sub_of hm rfl) ?_ | with_reducible refine State.sendMwr_keeps (sub_of hm rfl) ?_ | with_reducible refine State.sendMwr_keeps_eq (sub_of hm rfl) (by assumption) ?_ | with_reducible refine State.reqMod_keeps (sub_of hm rfl) ?_ | with_reducible refine State.respond_keeps (sub_of hm rfl) ?_ | split | dsimp only)

theorem State.placePoison_keeps {m : Nat} {x : State} {s : State} {a1 : Req} (hm : Nat.land 19451974099722 m = 19451974099722)
    (h : Same m x s) : Same m x (State.placePoison s a1) := by
  unfold State.placePoison
  repeat' (first | with_reducible assumption | intro _ | with_reducible apply same_ite | with_reducible refine State.unpoisonLine_keeps (sub_of hm rfl) ?_ | split | dsimp only)

theorem State.wayRead_keeps {m : Nat} {x : State} {s : State} {a1 : Nat} {a2 : Nat} {a3 : List Upset} (hm : Nat.land 19486350622478 m = 19486350622478)
    (h : Same m x s) : Same m x (State.wayRead s a1 a2 a3).2 := by
  unfold State.wayRead
  repeat' (first | with_reducible assumption | intro _ | with_reducible apply same_ite | with_reducible apply same2_ite | with_reducible refine State.addCnt_keeps (sub_of hm rfl) ?_ ?_ | with_reducible refine State.wayAsk_keeps (sub_of hm rfl) ?_ | with_reducible refine State.lcLoseDirty_keeps (sub_of hm rfl) ?_ | with_reducible exact R.LC_UE_CNT_ok (sub_of hm rfl) | (with_reducible refine regOk_of (c := 8) (sub_of hm rfl) (blk8 ?_ ?_) <;> simp only [R.LC_UE_CNT] <;> omega) | split | dsimp only)

theorem State.wayRead_keeps_eq {m : Nat} {x : State} {s : State} {a1 : Nat} {a2 : Nat} {a3 : List Upset} {u : Bool} {t : State} (hm : Nat.land 19486350622478 m = 19486350622478)
    (e : State.wayRead s a1 a2 a3 = (u, t)) (h : Same m x s) : Same m x t := by
  have := State.wayRead_keeps hm h (a1 := a1) (a2 := a2) (a3 := a3)
  rwa [e] at this

theorem State.lcAllocate_keeps {m : Nat} {x : State} {s : State} {a1 : Nat} {a2 : List Upset} (hm : Nat.land 19486350622478 m = 19486350622478)
    (h : Same m x s) : Same m x (State.lcAllocate s a1 a2).2 := by
  unfold State.lcAllocate
  repeat' (first | with_reducible assumption | intro _ | with_reducible apply same_ite | with_reducible apply same2_ite | with_reducible refine State.wayRead_keeps (sub_of hm rfl) ?_ | with_reducible refine State.wayRead_keeps_eq (sub_of hm rfl) (by assumption) ?_ | split | dsimp only)

theorem State.lcAllocate_keeps_eq {m : Nat} {x : State} {s : State} {a1 : Nat} {a2 : List Upset} {u : Option Nat} {t : State} (hm : Nat.land 19486350622478 m = 19486350622478)
    (e : State.lcAllocate s a1 a2 = (u, t)) (h : Same m x s) : Same m x t := by
  have := State.lcAllocate_keeps hm h (a1 := a1) (a2 := a2)
  rwa [e] at this

theorem State.evictLine_keeps {m : Nat} {x : State} {s : State} {a1 : Nat} {t : State}  (hm : Nat.land 137506158606 m = 137506158606)
    (e : State.evictLine s a1 = some t) (h : Same m x s) : Same m x t := by
  unfold State.evictLine at e
  (try dsimp only at e)
  (repeat' split at e) <;> (try cases e) <;> repeat' (first | with_reducible assumption | intro _ | with_reducible apply same_ite | with_reducible refine State.slotPutDirty_keeps (sub_of hm rfl) (by assumption) ?_ | with_reducible refine State.release_keeps (sub_of hm rfl) ?_ | with_reducible refine State.tsStatus_keeps (sub_of hm rfl) ?_ | fail_if_no_progress with_reducible refine upd_lc (sub_of hm rfl) ?_ | split | dsimp only)

theorem State.evictAll_keeps {m : Nat} {x : State} {s t : State} {line : Nat} (hm : Nat.land 137506158606 m = 137506158606)
    (e : s.evictAll line = some t) (h : Same m x s) : Same m x t := by
  unfold State.evictAll at e
  have g : ∀ (l : List EvBuf) (o : Option State), (∀ u, o = some u → Same m x u) →
      ∀ u, l.foldl (fun (o : Option State) _ => o.bind (fun s => s.evictLine line)) o = some u → Same m x u := by
    intro l
    induction l with
    | nil => exact fun o ho u hu => ho u hu
    | cons b l ih =>
      refine fun o ho u hu => ih _ ?_ u hu
      intro v hv
      obtain ⟨w, hw, hv⟩ := Option.bind_eq_some_iff.mp hv
      exact State.evictLine_keeps (sub_of hm rfl) hv (ho w hw)
  exact g _ _ (fun u hu => by cases hu; exact h) t e

theorem State.evictPut_keeps {m : Nat} {x : State} {s : State} {a1 : Nat} {a2 : Line} {a3 : Bool} {t : State} {u0 : Nat} (hm : Nat.land 137506158606 m = 137506158606)
    (e : State.evictPut s a1 a2 a3 = some (u0, t)) (h : Same m x s) : Same m x t := by
  unfold State.evictPut at e
  (try dsimp only at e)
  (repeat' split at e) <;> (try cases e) <;> repeat' (first | with_reducible assumption | intro _ | with_reducible refine State.evictAll_keeps (sub_of hm rfl) (by assumption) ?_ | with_reducible refine State.slotPutDirty_keeps (sub_of hm rfl) (by assumption) ?_ | split | dsimp only)

theorem State.bypass_keeps {m : Nat} {x : State} {s : State} {a1 : Req} (hm : Nat.land 28282477215502 m = 28282477215502)
    (h : Same m x s) : Same m x (State.bypass s a1) := by
  unfold State.bypass
  repeat' (first | with_reducible assumption | intro _ | with_reducible apply same_ite | with_reducible refine State.evictPut_keeps (sub_of hm rfl) (by assumption) ?_ | with_reducible refine State.reqMod_keeps (sub_of hm rfl) ?_ | with_reducible refine State.tsStatus_keeps (sub_of hm rfl) ?_ | with_reducible refine State.charge_keeps (sub_of hm rfl) ?_ | with_reducible refine State.placed_keeps (sub_of hm rfl) ?_ | with_reducible refine State.placePoison_keeps (sub_of hm rfl) ?_ | with_reducible refine State.bump_keeps (sub_of hm rfl) ?_ ?_ | with_reducible exact R.LC_BYPASS_WR_ok (sub_of hm rfl) | (with_reducible refine regOk_of (c := 8) (sub_of hm rfl) (blk8 ?_ ?_) <;> simp only [R.LC_BYPASS_WR] <;> omega) | split | dsimp only)

theorem State.place_keeps {m : Nat} {x : State} {s : State} {a1 : Req} {a2 : List Upset} {a3 : Bool} (hm : Nat.land 28282477215502 m = 28282477215502)
    (h : Same m x s) : Same m x (State.place s a1 a2 a3) := by
  unfold State.place
  repeat' (first | with_reducible assumption | intro _ | with_reducible apply same_ite | with_reducible apply same2_ite | with_reducible refine State.holdWrite_keeps (sub_of hm rfl) ?_ | with_reducible refine State.lcPut_keeps (sub_of hm rfl) ?_ | with_reducible refine State.charge_keeps (sub_of hm rfl) ?_ | with_reducible refine State.placed_keeps (sub_of hm rfl) ?_ | with_reducible refine State.placePoison_keeps (sub_of hm rfl) ?_ | with_reducible refine State.bump_keeps (sub_of hm rfl) ?_ ?_ | with_reducible refine State.lcAllocate_keeps (sub_of hm rfl) ?_ | with_reducible refine State.lcAllocate_keeps_eq (sub_of hm rfl) (by assumption) ?_ | with_reducible refine State.lcEmpty_keeps (sub_of hm rfl) ?_ | with_reducible refine State.reqMod_keeps (sub_of hm rfl) ?_ | with_reducible refine State.bypass_keeps (sub_of hm rfl) ?_ | with_reducible exact R.LC_HIT_WR_ok (sub_of hm rfl) | with_reducible exact R.LC_MISS_WR_ok (sub_of hm rfl) | with_reducible exact R.LC_STS_ok (sub_of hm rfl) | with_reducible exact R.TS_CTL_ok (sub_of hm rfl) | (with_reducible refine regOk_of (c := 8) (sub_of hm rfl) (blk8 ?_ ?_) <;> simp only [R.LC_HIT_WR, R.LC_MISS_WR, R.LC_STS] <;> omega) | split | dsimp only)

theorem State.placeInject_keeps {m : Nat} {x : State} {s : State} {a1 : Req} (hm : Nat.land 28248117477134 m = 28248117477134)
    (h : Same m x s) : Same m x (State.placeInject s a1) := by
  unfold State.placeInject
  repeat' (first | with_reducible assumption | intro _ | with_reducible refine State.reqMod_keeps (sub_of hm rfl) ?_ | with_reducible refine State.wakeAfter_keeps (sub_of hm rfl) ?_ | with_reducible refine State.touched_keeps (sub_of hm rfl) ?_ | with_reducible refine State.poisonNow_keeps (sub_of hm rfl) ?_ | with_reducible refine State.closeReads_keeps (sub_of hm rfl) ?_ | with_reducible refine State.respond_keeps (sub_of hm rfl) ?_ | fail_if_no_progress with_reducible refine upd_hp (sub_of hm rfl) ?_ | split | dsimp only)

theorem State.runReq_keeps {m : Nat} {x : State} {s : State} {a1 : Req} {a2 : List Upset} (hm : Nat.land 314447559261966 m = 314447559261966)
    (h : Same m x s) : Same m x (State.runReq s a1 a2) := by
  unfold State.runReq
  repeat' (first | with_reducible assumption | intro _ | with_reducible apply same_ite | with_reducible apply same2_ite | with_reducible refine State.lookup_keeps (sub_of hm rfl) ?_ | with_reducible refine State.wakeAfter_keeps (sub_of hm rfl) ?_ | with_reducible refine State.respond_keeps (sub_of hm rfl) ?_ | with_reducible refine State.tagUpsets_keeps (sub_of hm rfl) ?_ | with_reducible refine State.mapcLookup_keeps (sub_of hm rfl) ?_ | with_reducible refine State.mapcLookup_keeps_eq (sub_of hm rfl) (by assumption) ?_ | with_reducible refine State.place_keeps (sub_of hm rfl) ?_ | with_reducible refine State.reqMod_keeps (sub_of hm rfl) ?_ | with_reducible refine State.placeInject_keeps (sub_of hm rfl) ?_ | with_reducible refine State.importWrite_keeps (sub_of hm rfl) ?_ | split | dsimp only)

theorem State.pumpN_keeps {m : Nat} {x : State} {n : Nat} {s : State} (hm : Nat.land 314447559261966 m = 314447559261966) (h : Same m x s) : Same m x (State.pumpN n s) := by
  induction n generalizing s with
  | zero => exact h
  | succ n ih =>
    unfold State.pumpN
    split
    · exact h
    · exact ih (State.runReq_keeps (sub_of hm rfl) h)

theorem State.pump_keeps {m : Nat} {x : State} {s : State} (hm : Nat.land 314447559261966 m = 314447559261966)
    (h : Same m x s) : Same m x (State.pump s) := by
  unfold State.pump
  repeat' (first | with_reducible assumption | intro _ | with_reducible refine State.pumpN_keeps (sub_of hm rfl) ?_ | split | dsimp only)

theorem State.admitP_keeps {m : Nat} {x : State} {s : State} {a1 : ReqFrom} {a2 : Nat} {a3 : ReqKind} {a4 : Option Nat} {a5 : List Nat} {a6 : List Upset} {a7 : Bool} (hm : Nat.land 314447559261966 m = 314447559261966)
    (h : Same m x s) : Same m x (State.admitP s a1 a2 a3 a4 a5 a6 a7) := by
  unfold State.admitP
  repeat' (first | with_reducible assumption | intro _ | with_reducible refine State.pcEvent_keeps (sub_of hm rfl) ?_ | with_reducible refine State.leased_keeps (sub_of hm rfl) ?_ | with_reducible refine State.pump_keeps (sub_of hm rfl) ?_ | with_reducible refine State.supplyOne_keeps (sub_of hm rfl) ?_ | with_reducible refine State.runReq_keeps (sub_of hm rfl) ?_ | fail_if_no_progress with_reducible refine upd_rt (sub_of hm rfl) ?_ | split | dsimp only)

theorem State.bySecond_keeps {m : Nat} {x : State} {s : State} {a1 : Req} (hm : Nat.land 314447559261966 m = 314447559261966)
    (h : Same m x s) : Same m x (State.bySecond s a1) := by
  unfold State.bySecond
  repeat' (first | with_reducible assumption | intro _ | with_reducible apply same_ite | with_reducible refine State.supply_keeps (sub_of hm rfl) ?_ | with_reducible refine State.slotMod_keeps (sub_of hm rfl) ?_ | with_reducible refine State.xtsUse_keeps (sub_of hm rfl) ?_ | with_reducible refine State.fillFor_keeps (sub_of hm rfl) ?_ | with_reducible refine State.dispatch_keeps (sub_of hm rfl) ?_ | split | dsimp only)

theorem State.enqueue_keeps {m : Nat} {x : State} {s : State} {a1 : ReqFrom} {a2 : Nat} {a3 : ReqKind} {a4 : Option Nat} {a5 : List Nat} {a6 : List Upset} (hm : Nat.land 314447559261966 m = 314447559261966)
    (h : Same m x s) : Same m x (State.enqueue s a1 a2 a3 a4 a5 a6) := by
  unfold State.enqueue
  repeat' (first | with_reducible assumption | intro _ | with_reducible refine State.admitP_keeps (sub_of hm rfl) ?_ | split | dsimp only)

theorem State.sirLines_keeps {m : Nat} {x : State} {s : State} {a1 : Nat} {a2 : Nat} (hm : Nat.land 17592253153288 m = 17592253153288)
    (h : Same m x s) : Same m x (State.sirLines s a1 a2) := by
  unfold State.sirLines
  repeat' (first | with_reducible assumption | intro _ | with_reducible refine State.pcEvent_keeps (sub_of hm rfl) ?_ | with_reducible refine State.addCnt_keeps (sub_of hm rfl) ?_ ?_ | with_reducible exact R.MC_RD_B_CNT_ok (sub_of hm rfl) | (with_reducible refine regOk_of (c := 17) (sub_of hm rfl) (blk17 ?_ ?_) <;> simp only [R.MC_RD_B_CNT] <;> omega) | split | dsimp only)

theorem State.linesRead_keeps {m : Nat} {x : State} {s : State} {a1 : Nat} {a2 : Nat} (hm : Nat.land 17592253153288 m = 17592253153288)
    (h : Same m x s) : Same m x (State.linesRead s a1 a2) := by
  unfold State.linesRead
  repeat' (first | with_reducible assumption | intro _ | with_reducible apply same_foldl | with_reducible refine State.sirLines_keeps (sub_of hm rfl) ?_ | split | dsimp only)

end Sys2Proof.Machine
end

