-- ==== Sys2Proof/Laws/FrameUpkeepOps.lean ====
section
/-! SUPPORT. The frame of every operation of Machine/UpkeepOps.lean, as a mask of the kinds of state that it may change. -/

set_option autoImplicit false
set_option linter.unusedTactic false
set_option linter.unreachableTactic false
set_option linter.unnecessarySeqFocus false
set_option linter.unusedSimpArgs false
set_option linter.unusedVariables false

namespace Sys2Proof.Machine

theorem State.copyStep_keeps {m : Nat} {x : State} {s : State} {a1 : GcJob} (hm : Nat.land 19451974116106 m = 19451974116106)
    (h : Same m x s) : Same m x (State.copyStep s a1) := by
  unfold State.copyStep
  repeat' (first | with_reducible assumption | intro _ | with_reducible apply same_ite | with_reducible refine State.blkSettle_keeps (sub_of hm rfl) ?_ | with_reducible refine State.progStart_keeps (sub_of hm rfl) ?_ | fail_if_no_progress with_reducible refine upd_te (sub_of hm rfl) ?_ | split | dsimp only)

theorem State.substitute_keeps {m : Nat} {x : State} {s : State} {a1 : Nat} (hm : Nat.land 19451974099722 m = 19451974099722)
    (h : Same m x s) : Same m x (State.substitute s a1) := by
  unfold State.substitute
  repeat' (first | with_reducible assumption | intro _ | with_reducible refine State.journal_keeps (sub_of hm rfl) ?_ | fail_if_no_progress with_reducible refine upd_te (sub_of hm rfl) ?_ | split | dsimp only)

theorem State.retireDie_keeps {m : Nat} {x : State} {s : State} {a1 : Nat} (hm : Nat.land 19451974099722 m = 19451974099722)
    (h : Same m x s) : Same m x (State.retireDie s a1) := by
  unfold State.retireDie
  repeat' (first | with_reducible assumption | intro _ | with_reducible apply same_ite | with_reducible refine State.setBit_keeps (sub_of hm rfl) ?_ ?_ | with_reducible refine State.dieMod_keeps (sub_of hm rfl) ?_ | with_reducible refine State.substitute_keeps (sub_of hm rfl) ?_ | fail_if_no_progress with_reducible refine upd_te (sub_of hm rfl) ?_ | with_reducible exact R.TE_UPK_STS_ok (sub_of hm rfl) | (with_reducible refine regOk_of (c := 9) (sub_of hm rfl) (blk9 ?_ ?_) <;> simp only [R.TE_UPK_STS] <;> omega) | split | dsimp only)

theorem State.loseReads_keeps {m : Nat} {x : State} {s : State} {a1 : Nat} (hm : Nat.land 314447559261966 m = 314447559261966)
    (h : Same m x s) : Same m x (State.loseReads s a1) := by
  unfold State.loseReads
  repeat' (first | with_reducible assumption | intro _ | with_reducible apply same_foldl | with_reducible refine State.readLost_keeps (sub_of hm rfl) ?_ | with_reducible refine State.heldShow_keeps (sub_of hm rfl) ?_ | with_reducible refine State.dispatch_keeps (sub_of hm rfl) ?_ | with_reducible refine State.supply_keeps (sub_of hm rfl) ?_ | split | dsimp only)

theorem State.dieFail_keeps {m : Nat} {x : State} {s : State} {a1 : Nat} (hm : Nat.land 314447559261966 m = 314447559261966)
    (h : Same m x s) : Same m x (State.dieFail s a1) := by
  unfold State.dieFail
  repeat' (first | with_reducible assumption | intro _ | with_reducible apply same_ite | with_reducible apply same_foldl | with_reducible refine State.dieMod_keeps (sub_of hm rfl) ?_ | with_reducible refine State.setBit_keeps (sub_of hm rfl) ?_ ?_ | with_reducible refine State.raise_keeps (sub_of hm rfl) ?_ | with_reducible refine State.roll_keeps (sub_of hm rfl) ?_ | with_reducible refine State.retireDie_keeps (sub_of hm rfl) ?_ | with_reducible refine State.progFail_keeps (sub_of hm rfl) ?_ | with_reducible refine State.pump_keeps (sub_of hm rfl) ?_ | with_reducible refine State.loseReads_keeps (sub_of hm rfl) ?_ | with_reducible exact R.MC_STS_ok (sub_of hm rfl) | (with_reducible refine regOk_of (c := 17) (sub_of hm rfl) (blk17 ?_ ?_) <;> simp only [R.MC_STS] <;> omega) | split | dsimp only)

theorem State.retLimit_keeps {m : Nat} {x : State} {s : State} {a1 : Nat} (hm : Nat.land 314447559261966 m = 314447559261966)
    (h : Same m x s) : Same m x (State.retLimit s a1) := by
  unfold State.retLimit
  repeat' (first | with_reducible assumption | intro _ | with_reducible apply same_ite | with_reducible refine State.dieFail_keeps (sub_of hm rfl) ?_ | split | dsimp only)

theorem State.spareFlag_keeps {m : Nat} {x : State} {s : State} {a1 : Fld} {a2 a3 a4 : Nat} (hm : Nat.land 1099578769928 m = 1099578769928) (hc : RegOk m a1.off)
    (h : Same m x s) : Same m x (s.spareFlag a1 a2 a3 a4) := by
  have hs : ∀ b, Same m x (s.setBit a1 b) := fun b => State.setBit_keeps (sub_of hm rfl) hc h
  unfold State.spareFlag
  repeat' split
  all_goals first | exact h | exact State.moduleEvent_keeps (sub_of hm rfl) (State.roll_keeps (sub_of hm rfl) (hs _)) | exact State.roll_keeps (sub_of hm rfl) (hs _)

theorem State.urgentFlags_keeps {m : Nat} {x : State} {s : State} (hm : Nat.land 68786594312 m = 68786594312)
    (h : Same m x s) : Same m x (State.urgentFlags s) := by
  unfold State.urgentFlags
  repeat' (first | with_reducible assumption | intro _ | with_reducible apply same_ite | with_reducible apply same_when | with_reducible apply same_foldl | with_reducible refine State.dieMod_keeps (sub_of hm rfl) ?_ | with_reducible refine State.roll_keeps (sub_of hm rfl) ?_ | with_reducible refine State.setBit_keeps (sub_of hm rfl) ?_ ?_ | with_reducible exact R.TE_GC_URGENT_ok (sub_of hm rfl) | with_reducible exact R.TE_UPK_CTL_ok (sub_of hm rfl) | with_reducible exact R.TE_UPK_STS_ok (sub_of hm rfl) | (with_reducible refine regOk_of (c := 9) (sub_of hm rfl) (blk9 ?_ ?_) <;> simp only [R.TE_GC_URGENT, R.TE_UPK_CTL, R.TE_UPK_STS] <;> omega) | split | dsimp only)

theorem State.spares_keeps {m : Nat} {x : State} {s : State} (hm : Nat.land 1718070912526 m = 1718070912526)
    (h : Same m x s) : Same m x (State.spares s) := by
  unfold State.spares
  repeat' (first | with_reducible assumption | intro _ | with_reducible apply same_ite | with_reducible apply same_foldl | with_reducible refine State.wrN_keeps (sub_of hm rfl) ?_ ?_ | with_reducible refine State.spareFlag_keeps (sub_of hm rfl) ?_ ?_ | with_reducible refine State.enterReadOnly_keeps (sub_of hm rfl) ?_ | with_reducible refine State.raise_keeps (sub_of hm rfl) ?_ | with_reducible refine State.urgentFlags_keeps (sub_of hm rfl) ?_ | with_reducible exact R.TE_LIFE_USED_ok (sub_of hm rfl) | with_reducible exact R.TE_SPARE_CRIT_ok (sub_of hm rfl) | with_reducible exact R.TE_SPARE_LOW_ok (sub_of hm rfl) | with_reducible exact R.TE_SPARE_PCT_ok (sub_of hm rfl) | with_reducible exact R.TE_SPARE_TOTAL_ok (sub_of hm rfl) | with_reducible exact R.TE_UPK_STS_ok (sub_of hm rfl) | (with_reducible refine regOk_of (c := 9) (sub_of hm rfl) (blk9 ?_ ?_) <;> simp only [R.TE_LIFE_USED, R.TE_SPARE_CRIT, R.TE_SPARE_LOW, R.TE_SPARE_PCT, R.TE_SPARE_TOTAL, R.TE_UPK_STS] <;> omega) | split | dsimp only)

end Sys2Proof.Machine
end

