-- ==== Sys2Proof/Laws/FrameMemory.lean ====
section
/-! SUPPORT. The frame of every operation of Machine/Memory.lean, as a mask of the kinds of state that it may change. -/

set_option autoImplicit false
set_option linter.unusedTactic false
set_option linter.unreachableTactic false
set_option linter.unnecessarySeqFocus false
set_option linter.unusedSimpArgs false
set_option linter.unusedVariables false

namespace Sys2Proof.Machine

theorem State.dropWrite_keeps {m : Nat} {x : State} {s : State} {a1 : ReqFrom} {a2 : Nat} {a3 : List Nat} (hm : Nat.land 9895722192398 m = 9895722192398)
    (h : Same m x s) : Same m x (State.dropWrite s a1 a2 a3) := by
  unfold State.dropWrite
  repeat' (first | with_reducible assumption | intro _ | with_reducible refine State.respond_keeps (sub_of hm rfl) ?_ | split | dsimp only)

theorem State.handRepair_keeps {m : Nat} {x : State} {s : State} {a1 : Nat} (hm : Nat.land 68719484936 m = 68719484936)
    (h : Same m x s) : Same m x (State.handRepair s a1) := by
  unfold State.handRepair
  repeat' (first | with_reducible assumption | intro _ | with_reducible refine State.setBit_keeps (sub_of hm rfl) ?_ ?_ | fail_if_no_progress with_reducible refine upd_te (sub_of hm rfl) ?_ | with_reducible exact R.TE_STS_ok (sub_of hm rfl) | (with_reducible refine regOk_of (c := 9) (sub_of hm rfl) (blk9 ?_ ?_) <;> simp only [R.TE_STS] <;> omega) | split | dsimp only)

theorem State.entryLost_keeps {m : Nat} {x : State} {s : State} {a1 : Req} (hm : Nat.land 9964441677326 m = 9964441677326)
    (h : Same m x s) : Same m x (State.entryLost s a1) := by
  unfold State.entryLost
  repeat' (first | with_reducible assumption | intro _ | with_reducible refine State.handRepair_keeps (sub_of hm rfl) ?_ | with_reducible refine State.reqMod_keeps (sub_of hm rfl) ?_ | with_reducible refine State.supply_keeps (sub_of hm rfl) ?_ | split | dsimp only)

theorem State.sendForward_keeps {m : Nat} {x : State} {s : State} {a1 : Req} (hm : Nat.land 67174410 m = 67174410)
    (h : Same m x s) : Same m x (State.sendForward s a1) := by
  unfold State.sendForward
  repeat' (first | with_reducible assumption | intro _ | with_reducible refine State.carSend_keeps (sub_of hm rfl) ?_ | split | dsimp only)

theorem State.forward_keeps {m : Nat} {x : State} {s : State} {a1 : ReqFrom} {a2 : Nat} {a3 : ReqKind} {a4 : Nat} (hm : Nat.land 549822990346 m = 549822990346)
    (h : Same m x s) : Same m x (State.forward s a1 a2 a3 a4) := by
  unfold State.forward
  repeat' (first | with_reducible assumption | intro _ | with_reducible refine State.sendForward_keeps (sub_of hm rfl) ?_ | with_reducible refine State.bump_keeps (sub_of hm rfl) ?_ ?_ | fail_if_no_progress with_reducible refine upd_rt (sub_of hm rfl) ?_ | with_reducible exact R.CAR_FWD_CNT_ok (sub_of hm rfl) | (with_reducible refine regOk_of (c := 12) (sub_of hm rfl) (blk12 ?_ ?_) <;> simp only [R.CAR_FWD_CNT] <;> omega) | split | dsimp only)

theorem State.holdFailover_keeps {m : Nat} {x : State} {s : State} {a1 : ReqFrom} {a2 : Nat} {a3 : ReqKind} {a4 : Nat} (hm : Nat.land 2048 m = 2048)
    (h : Same m x s) : Same m x (State.holdFailover s a1 a2 a3 a4) := by
  unfold State.holdFailover
  repeat' (first | with_reducible assumption | intro _ | with_reducible apply same_ite | fail_if_no_progress with_reducible refine upd_rt (sub_of hm rfl) ?_ | split | dsimp only)

theorem State.windowWrite_keeps {m : Nat} {x : State} {s : State} {a1 : ReqFrom} {a2 : Nat} {a3 : Nat} {a4 : ReqKind} (hm : Nat.land 314447559261966 m = 314447559261966)
    (h : Same m x s) : Same m x (State.windowWrite s a1 a2 a3 a4) := by
  unfold State.windowWrite
  repeat' (first | with_reducible assumption | intro _ | with_reducible apply same_ite | with_reducible refine State.pump_keeps (sub_of hm rfl) ?_ | with_reducible refine State.dropWrite_keeps (sub_of hm rfl) ?_ | with_reducible refine State.importWrite_keeps (sub_of hm rfl) ?_ | fail_if_no_progress with_reducible refine upd_rt (sub_of hm rfl) ?_ | split | dsimp only)

theorem State.lineHost_keeps {m : Nat} {x : State} {s : State} {a1 : MRead} {a2 : Nat} {a3 : Req} {a4 : StoredLine} (hm : Nat.land 314447559261966 m = 314447559261966)
    (h : Same m x s) : Same m x (State.lineHost s a1 a2 a3 a4) := by
  unfold State.lineHost
  repeat' (first | with_reducible assumption | intro _ | with_reducible apply same_ite | with_reducible refine State.lineKeyUse_keeps (sub_of hm rfl) ?_ | with_reducible refine State.releaseLine_keeps (sub_of hm rfl) ?_ | with_reducible refine State.codecOk_keeps (sub_of hm rfl) ?_ | with_reducible refine State.rewriteTile_keeps (sub_of hm rfl) ?_ | with_reducible refine State.codecBad_keeps (sub_of hm rfl) ?_ | with_reducible refine State.retryRead_keeps (sub_of hm rfl) ?_ | with_reducible refine State.reqMod_keeps (sub_of hm rfl) ?_ | with_reducible refine State.hostUnread_keeps (sub_of hm rfl) ?_ | split | dsimp only)

theorem State.lineGather_keeps {m : Nat} {x : State} {s : State} {a1 : MRead} {a2 : Nat} {a3 : Nat} {a4 : Nat} {a5 : StoredLine} (hm : Nat.land 314447559261966 m = 314447559261966)
    (h : Same m x s) : Same m x (State.lineGather s a1 a2 a3 a4 a5) := by
  unfold State.lineGather
  repeat' (first | with_reducible assumption | intro _ | with_reducible apply same_ite | with_reducible apply same_when | with_reducible refine State.lineKeyUse_keeps (sub_of hm rfl) ?_ | with_reducible refine State.bump_keeps (sub_of hm rfl) ?_ ?_ | with_reducible refine State.gathered_keeps (sub_of hm rfl) ?_ | with_reducible refine State.codecOk_keeps (sub_of hm rfl) ?_ | with_reducible refine State.codecBad_keeps (sub_of hm rfl) ?_ | with_reducible refine State.retryRead_keeps (sub_of hm rfl) ?_ | with_reducible refine State.gatherRecover_keeps (sub_of hm rfl) ?_ | with_reducible refine State.codecUe_keeps (sub_of hm rfl) ?_ | with_reducible exact R.SIR_RECOV_RETRY_ok (sub_of hm rfl) | with_reducible exact R.SIR_UE_FOUND_ok (sub_of hm rfl) | (with_reducible refine regOk_of (c := 11) (sub_of hm rfl) (blk11 ?_ ?_) <;> simp only [R.SIR_RECOV_RETRY, R.SIR_UE_FOUND] <;> omega) | split | dsimp only)

theorem State.lineMember_keeps {m : Nat} {x : State} {s : State} {a1 : MRead} {a2 : Nat} {a3 : StoredLine} (hm : Nat.land 314447559261966 m = 314447559261966)
    (h : Same m x s) : Same m x (State.lineMember s a1 a2 a3) := by
  unfold State.lineMember
  repeat' (first | with_reducible assumption | intro _ | with_reducible apply same_ite | with_reducible refine State.reconLine_keeps (sub_of hm rfl) ?_ | with_reducible refine State.codecOk_keeps (sub_of hm rfl) ?_ | with_reducible refine State.retryRead_keeps (sub_of hm rfl) ?_ | split | dsimp only)

theorem State.lineTaken_keeps {m : Nat} {x : State} {s : State} {a1 : MRead} {a2 : StoredLine} (hm : Nat.land 314447559261966 m = 314447559261966)
    (h : Same m x s) : Same m x (State.lineTaken s a1 a2) := by
  unfold State.lineTaken
  repeat' (first | with_reducible assumption | intro _ | with_reducible refine State.lineHost_keeps (sub_of hm rfl) ?_ | with_reducible refine State.lineGather_keeps (sub_of hm rfl) ?_ | with_reducible refine State.lineMember_keeps (sub_of hm rfl) ?_ | split | dsimp only)

theorem State.lineKeyed_keeps {m : Nat} {x : State} {s : State} {a1 : MRead} {a2 : StoredLine} (hm : Nat.land 314447559261966 m = 314447559261966)
    (h : Same m x s) : Same m x (State.lineKeyed s a1 a2) := by
  unfold State.lineKeyed
  repeat' (first | with_reducible assumption | intro _ | with_reducible apply same_ite | with_reducible refine State.lineTaken_keeps (sub_of hm rfl) ?_ | with_reducible refine State.raise_keeps (sub_of hm rfl) ?_ | fail_if_no_progress with_reducible refine upd_ce (sub_of hm rfl) ?_ | split | dsimp only)

theorem execRtLateClr_keeps {m : Nat} {x : State} {a0 : Path} {a1 : Word} {s : State} (hm : Nat.land 8796160131080 m = 8796160131080) (h : Same m x s) :
    Ends m x (execRtLateClr a0 a1 s) := by
  have hl : ∀ o ∈ (List.range 8).filterMap (fun k => if a1.getLsbD k then some (R.RT_LATE_STATE + 4 * k) else none), RegOk m o := by
    intro o ho
    obtain ⟨k, hk, e⟩ := List.mem_filterMap.mp ho
    have hk : k < 8 := List.mem_range.mp hk
    split at e <;> cases e
    exact regOk_of (c := 16) (sub_of hm rfl) (blk16 (by unfold R.RT_LATE_STATE; omega) (by unfold R.RT_LATE_STATE; omega))
  unfold execRtLateClr
  repeat' (first | with_reducible exact list_ok_nil | with_reducible refine list_ok_cons ?_ ?_ | with_reducible refine list_ok_append ?_ ?_ | with_reducible exact pc_ok | with_reducible refine range_ok ?_ | with_reducible assumption | intro _ | with_reducible apply ends_next | with_reducible apply ends_ite | with_reducible apply same_ite | with_reducible apply same_when | with_reducible refine State.regAcc_keeps (sub_of hm rfl) ?_ | with_reducible refine State.zero_keeps (sub_of hm rfl) ?_ ?_ | with_reducible exact R.RT_LATE_STATE_ok (sub_of hm rfl) | with_reducible exact R.RT_STRAY_CNT_ok (sub_of hm rfl) | with_reducible exact R.RT_WR_DROP_STATE_ok (sub_of hm rfl) | (with_reducible refine regOk_of (c := 16) (sub_of hm rfl) (blk16 ?_ ?_) <;> simp only [R.RT_LATE_STATE, R.RT_STRAY_CNT, R.RT_WR_DROP_STATE] <;> omega) | split | dsimp only)

theorem State.rereadChan_keeps {m : Nat} {x : State} {s : State} {a1 : Nat} (hm : Nat.land 17592253161482 m = 17592253161482)
    (h : Same m x s) : Same m x (State.rereadChan s a1) := by
  unfold State.rereadChan
  repeat' (first | with_reducible assumption | intro _ | with_reducible apply same_foldl | with_reducible refine State.sendRead_keeps (sub_of hm rfl) ?_ | fail_if_no_progress with_reducible refine upd_te (sub_of hm rfl) ?_ | split | dsimp only)

theorem State.reissue_keeps {m : Nat} {x : State} {s : State} {a1 : Req} (hm : Nat.land 28248117477134 m = 28248117477134)
    (h : Same m x s) : Same m x (State.reissue s a1) := by
  unfold State.reissue
  repeat' (first | with_reducible assumption | intro _ | with_reducible apply same_ite | with_reducible refine State.supply_keeps (sub_of hm rfl) ?_ | with_reducible refine State.respond_keeps (sub_of hm rfl) ?_ | with_reducible refine State.wakeAfter_keeps (sub_of hm rfl) ?_ | with_reducible refine State.poisonNow_keeps (sub_of hm rfl) ?_ | with_reducible refine State.reqMod_keeps (sub_of hm rfl) ?_ | with_reducible refine State.sendForward_keeps (sub_of hm rfl) ?_ | with_reducible refine State.issueRead_keeps (sub_of hm rfl) ?_ | fail_if_no_progress with_reducible refine upd_te (sub_of hm rfl) ?_ | split | dsimp only)

theorem State.queueReset_keeps {m : Nat} {x : State} {s : State} {a1 : DataQueue} (hm : Nat.land 314447559261966 m = 314447559261966)
    (h : Same m x s) : Same m x (State.queueReset s a1) := by
  unfold State.queueReset
  repeat' (first | with_reducible assumption | intro _ | with_reducible apply same_foldl | with_reducible refine State.raise_keeps (sub_of hm rfl) ?_ | with_reducible refine State.rereadChan_keeps (sub_of hm rfl) ?_ | with_reducible refine State.pump_keeps (sub_of hm rfl) ?_ | with_reducible refine State.heldShow_keeps (sub_of hm rfl) ?_ | with_reducible refine State.reissue_keeps (sub_of hm rfl) ?_ | split | dsimp only)

theorem State.ptrUpset_keeps {m : Nat} {x : State} {s : State} {a1 : List Upset} (hm : Nat.land 314447559261966 m = 314447559261966)
    (h : Same m x s) : Same m x (State.ptrUpset s a1) := by
  unfold State.ptrUpset
  repeat' (first | with_reducible assumption | intro _ | with_reducible apply same_foldl | with_reducible refine State.queueReset_keeps (sub_of hm rfl) ?_ | split | dsimp only)

theorem State.roWrite_keeps {m : Nat} {x : State} {s : State} {a1 : Nat} {a2 : Bool} (hm : Nat.land 28248067142414 m = 28248067142414)
    (h : Same m x s) : Same m x (State.roWrite s a1 a2) := by
  unfold State.roWrite
  repeat' (first | with_reducible assumption | intro _ | with_reducible apply same_ite | with_reducible apply same2_ite | with_reducible refine State.bump_keeps (sub_of hm rfl) ?_ ?_ | with_reducible refine State.poisonNow_keeps (sub_of hm rfl) ?_ | with_reducible refine State.sendMwr_keeps (sub_of hm rfl) ?_ | with_reducible refine State.sendMwr_keeps_eq (sub_of hm rfl) (by assumption) ?_ | fail_if_no_progress with_reducible refine upd_hp (sub_of hm rfl) ?_ | with_reducible exact R.RT_WR_DROP_STATE_ok (sub_of hm rfl) | (with_reducible refine regOk_of (c := 16) (sub_of hm rfl) (blk16 ?_ ?_) <;> simp only [R.RT_WR_DROP_STATE] <;> omega) | split | dsimp only)

theorem State.seedTake_keeps {m : Nat} {x : State} {s : State} (hm : Nat.land 17246994952 m = 17246994952)
    (h : Same m x s) : Same m x (State.seedTake s) := by
  unfold State.seedTake
  repeat' (first | with_reducible assumption | intro _ | with_reducible apply same_ite | with_reducible apply same_when | with_reducible apply same2_ite | with_reducible refine State.bump_keeps (sub_of hm rfl) ?_ ?_ | with_reducible refine State.roll_keeps (sub_of hm rfl) ?_ | with_reducible refine State.drbgTake_keeps (sub_of hm rfl) ?_ | with_reducible refine State.drbgTake_keeps_eq (sub_of hm rfl) (by assumption) ?_ | with_reducible refine State.setBit_keeps (sub_of hm rfl) ?_ ?_ | fail_if_no_progress with_reducible refine upd_ce (sub_of hm rfl) ?_ | with_reducible exact R.CE_CTL_ok (sub_of hm rfl) | with_reducible exact R.CE_SEED_LATE_ok (sub_of hm rfl) | with_reducible exact R.CE_STS_ok (sub_of hm rfl) | (with_reducible refine regOk_of (c := 7) (sub_of hm rfl) (blk7 ?_ ?_) <;> simp only [R.CE_CTL, R.CE_SEED_LATE, R.CE_STS] <;> omega) | split | dsimp only)

theorem State.slotFailed_keeps {m : Nat} {x : State} {s : State} {a1 : Nat} {a2 : Bool} (hm : Nat.land 282729224660494 m = 282729224660494)
    (h : Same m x s) : Same m x (State.slotFailed s a1 a2) := by
  unfold State.slotFailed
  repeat' (first | with_reducible assumption | intro _ | with_reducible apply same_ite | with_reducible refine State.raise_keeps (sub_of hm rfl) ?_ | with_reducible refine State.fixSlot_keeps (sub_of hm rfl) ?_ | with_reducible refine State.keyFree_keeps (sub_of hm rfl) ?_ | with_reducible refine State.streamAbort_keeps (sub_of hm rfl) ?_ | with_reducible refine State.derive_keeps (sub_of hm rfl) ?_ | with_reducible refine State.keyMod_keeps (sub_of hm rfl) ?_ | split | dsimp only)

theorem State.slotLost_keeps {m : Nat} {x : State} {s : State} {a1 : Req} (hm : Nat.land 28248117456654 m = 28248117456654)
    (h : Same m x s) : Same m x (State.slotLost s a1) := by
  unfold State.slotLost
  repeat' (first | with_reducible assumption | intro _ | with_reducible apply same_ite | with_reducible refine State.supply_keeps (sub_of hm rfl) ?_ | with_reducible refine State.repReq_keeps (sub_of hm rfl) ?_ | with_reducible refine State.reqMod_keeps (sub_of hm rfl) ?_ | with_reducible refine State.handRepair_keeps (sub_of hm rfl) ?_ | with_reducible refine State.lineEvents_keeps (sub_of hm rfl) ?_ | with_reducible refine State.poisonLine_keeps (sub_of hm rfl) ?_ | with_reducible refine State.slotMod_keeps (sub_of hm rfl) ?_ | split | dsimp only)

theorem execMemReadRequest_keeps {m : Nat} {x : State} {a0 : Fin 8} {a1 : BitVec 16} {a2 : BitVec 38} {a3 : List Upset} {s : State} (hm : Nat.land 314447559261966 m = 314447559261966)
    (h : Same m x s) : Ends m x (execMemReadRequest a0 a1 a2 a3 s) := by
  unfold execMemReadRequest
  repeat' (first | with_reducible assumption | intro _ | with_reducible apply ends_next | with_reducible apply ends_ite | with_reducible apply same_ite | with_reducible apply same2_ite | with_reducible refine State.ptrUpset_keeps (sub_of hm rfl) ?_ | with_reducible refine State.pcEvent_keeps (sub_of hm rfl) ?_ | with_reducible refine State.bump_keeps (sub_of hm rfl) ?_ ?_ | with_reducible refine State.spend_keeps (sub_of hm rfl) ?_ | with_reducible refine State.respond_keeps (sub_of hm rfl) ?_ | with_reducible refine State.windowRead_keeps (sub_of hm rfl) ?_ | with_reducible refine State.enqueue_keeps (sub_of hm rfl) ?_ | with_reducible refine State.holdFailover_keeps (sub_of hm rfl) ?_ | with_reducible refine State.forward_keeps (sub_of hm rfl) ?_ | with_reducible exact R.CAR_STS_ok (sub_of hm rfl) | with_reducible exact R.HP_RD_CNT_ok (sub_of hm rfl) | with_reducible exact R.RT_RG_CTL_ok (sub_of hm rfl) | with_reducible exact R.RT_STRAY_CNT_ok (sub_of hm rfl) | (with_reducible refine regOk_of (c := 13) (sub_of hm rfl) (blk13 ?_ ?_) <;> simp only [R.HP_RD_CNT] <;> omega) | (with_reducible refine regOk_of (c := 16) (sub_of hm rfl) (blk16 ?_ ?_) <;> simp only [R.RT_STRAY_CNT] <;> omega) | split | dsimp only)

theorem execDramReadComplete_keeps {m : Nat} {x : State} {a0 : Nat} {a1 : Fin 6} {a2 : DramRes} {s : State} (hm : Nat.land 316646582648590 m = 316646582648590)
    (h : Same m x s) : Ends m x (execDramReadComplete a0 a1 a2 s) := by
  unfold execDramReadComplete
  repeat' (first | with_reducible assumption | intro _ | with_reducible apply ends_next | with_reducible apply ends_ite | with_reducible apply same_ite | with_reducible refine State.dramRead_keeps (sub_of hm rfl) ?_ | with_reducible refine State.pump_keeps (sub_of hm rfl) ?_ | with_reducible refine State.entryLost_keeps (sub_of hm rfl) ?_ | with_reducible refine State.reqMod_keeps (sub_of hm rfl) ?_ | with_reducible refine State.byEntry_keeps (sub_of hm rfl) ?_ | with_reducible refine State.mapcFill_keeps (sub_of hm rfl) ?_ | with_reducible refine State.supply_keeps (sub_of hm rfl) ?_ | with_reducible refine State.slotLost_keeps (sub_of hm rfl) ?_ | with_reducible refine State.bySecond_keeps (sub_of hm rfl) ?_ | fail_if_no_progress with_reducible refine upd_te (sub_of hm rfl) ?_ | split | dsimp only)

theorem execHeldMissDispatch_keeps {m : Nat} {x : State} {a0 : Fin 320} {s : State} (hm : Nat.land 314447559261966 m = 314447559261966)
    (h : Same m x s) : Ends m x (execHeldMissDispatch a0 s) := by
  unfold execHeldMissDispatch
  repeat' (first | with_reducible assumption | intro _ | with_reducible apply ends_next | with_reducible apply ends_ite | with_reducible apply same_ite | with_reducible refine State.issueRead_keeps (sub_of hm rfl) ?_ | with_reducible refine State.reqMod_keeps (sub_of hm rfl) ?_ | with_reducible refine State.byEntry_keeps (sub_of hm rfl) ?_ | with_reducible refine State.pump_keeps (sub_of hm rfl) ?_ | with_reducible refine State.resumeIdle_keeps (sub_of hm rfl) ?_ | with_reducible refine State.heldShow_keeps (sub_of hm rfl) ?_ | split | dsimp only)

theorem execMediaLineReceived_keeps {m : Nat} {x : State} {a0 : Nat} {a1 : StoredLine} {a2 : Bool} {a3 : Bool} {s : State} (hm : Nat.land 314447559261966 m = 314447559261966)
    (h : Same m x s) : Ends m x (execMediaLineReceived a0 a1 a2 a3 s) := by
  unfold execMediaLineReceived
  repeat' (first | with_reducible assumption | intro _ | with_reducible apply ends_next | with_reducible apply ends_ite | with_reducible apply same_ite | with_reducible refine State.pcEvent_keeps (sub_of hm rfl) ?_ | with_reducible refine State.pcItem_keeps (sub_of hm rfl) ?_ | with_reducible refine State.seedTake_keeps (sub_of hm rfl) ?_ | with_reducible refine State.dieMod_keeps (sub_of hm rfl) ?_ | with_reducible refine State.bump_keeps (sub_of hm rfl) ?_ ?_ | with_reducible refine State.slotFailed_keeps (sub_of hm rfl) ?_ | with_reducible refine State.pump_keeps (sub_of hm rfl) ?_ | with_reducible refine State.resumeIdle_keeps (sub_of hm rfl) ?_ | with_reducible refine State.bgIssue_keeps (sub_of hm rfl) ?_ | with_reducible refine State.lineKeyed_keeps (sub_of hm rfl) ?_ | fail_if_no_progress with_reducible refine upd_te (sub_of hm rfl) ?_ | with_reducible exact R.MC_RD_B_CNT_ok (sub_of hm rfl) | with_reducible exact R.MC_RD_H_CNT_ok (sub_of hm rfl) | (with_reducible refine regOk_of (c := 17) (sub_of hm rfl) (blk17 ?_ ?_) <;> simp only [R.MC_RD_B_CNT, R.MC_RD_H_CNT] <;> omega) | split | dsimp only)

theorem execCipherRequestDone_keeps {m : Nat} {x : State} {a0 : Nat} {a1 : Option (Fin 4096 × Bool)} {a2 : Bool} {a3 : Bool} {s : State} (hm : Nat.land 282729224660494 m = 282729224660494)
    (h : Same m x s) : Ends m x (execCipherRequestDone a0 a1 a2 a3 s) := by
  unfold execCipherRequestDone
  repeat' (first | with_reducible assumption | intro _ | with_reducible apply ends_next | with_reducible apply ends_ite | with_reducible apply same_ite | with_reducible apply same_when | with_reducible apply same_foldl | with_reducible refine State.seedTake_keeps (sub_of hm rfl) ?_ | with_reducible refine State.slotFailed_keeps (sub_of hm rfl) ?_ | with_reducible refine State.raise_keeps (sub_of hm rfl) ?_ | with_reducible refine State.pcItem_keeps (sub_of hm rfl) ?_ | with_reducible refine State.progMod_keeps (sub_of hm rfl) ?_ | with_reducible refine State.slotPutClean_keeps (sub_of hm rfl) ?_ | with_reducible refine State.keyUse_keeps (sub_of hm rfl) ?_ | with_reducible refine State.setBit_keeps (sub_of hm rfl) ?_ ?_ | fail_if_no_progress with_reducible refine upd_ce (sub_of hm rfl) ?_ | with_reducible exact R.CE_CTL_ok (sub_of hm rfl) | with_reducible exact R.CE_STS_ok (sub_of hm rfl) | (with_reducible refine regOk_of (c := 7) (sub_of hm rfl) (blk7 ?_ ?_) <;> simp only [R.CE_CTL, R.CE_STS] <;> omega) | split | dsimp only)

theorem execGpfPhase1_keeps {m : Nat} {x : State} {a0 : Fin 8} {s : State} (hm : Nat.land 2048 m = 2048)
    (h : Same m x s) : Ends m x (execGpfPhase1 a0 s) := by
  unfold execGpfPhase1
  repeat' (first | with_reducible assumption | intro _ | with_reducible apply ends_next | with_reducible apply ends_ite | with_reducible apply same_ite | fail_if_no_progress with_reducible refine upd_rt (sub_of hm rfl) ?_ | split | dsimp only)

theorem execGpfPhase2_keeps {m : Nat} {x : State} {a0 : Fin 8} {s : State} (hm : Nat.land 1099578738698 m = 1099578738698)
    (h : Same m x s) : Ends m x (execGpfPhase2 a0 s) := by
  unfold execGpfPhase2
  repeat' (first | with_reducible assumption | intro _ | with_reducible apply ends_next | with_reducible apply ends_ite | with_reducible apply same_ite | with_reducible apply same_foldl | with_reducible refine State.setBit_keeps (sub_of hm rfl) ?_ ?_ | with_reducible refine State.emit_keeps (sub_of hm rfl) ?_ | fail_if_no_progress with_reducible refine upd_rt (sub_of hm rfl) ?_ | with_reducible exact R.HP_STS_ok (sub_of hm rfl) | (with_reducible refine regOk_of (c := 13) (sub_of hm rfl) (blk13 ?_ ?_) <;> simp only [R.HP_STS] <;> omega) | split | dsimp only)

theorem execMemWriteRequest_keeps {m : Nat} {x : State} {a0 : Fin 8} {a1 : BitVec 16} {a2 : BitVec 38} {a3 : Line} {a4 : BitVec 64} {a5 : List Upset} {s : State} (hm : Nat.land 314447559261966 m = 314447559261966)
    (h : Same m x s) : Ends m x (execMemWriteRequest a0 a1 a2 a3 a4 a5 s) := by
  unfold execMemWriteRequest
  repeat' (first | with_reducible assumption | intro _ | with_reducible apply ends_next | with_reducible apply ends_ite | with_reducible apply same_ite | with_reducible refine State.ptrUpset_keeps (sub_of hm rfl) ?_ | with_reducible refine State.pcEvent_keeps (sub_of hm rfl) ?_ | with_reducible refine State.bump_keeps (sub_of hm rfl) ?_ ?_ | with_reducible refine State.spend_keeps (sub_of hm rfl) ?_ | with_reducible refine State.dropWrite_keeps (sub_of hm rfl) ?_ | with_reducible refine State.roWrite_keeps (sub_of hm rfl) ?_ | with_reducible refine State.windowWrite_keeps (sub_of hm rfl) ?_ | with_reducible refine State.holdFailover_keeps (sub_of hm rfl) ?_ | with_reducible refine State.enqueue_keeps (sub_of hm rfl) ?_ | with_reducible refine State.forward_keeps (sub_of hm rfl) ?_ | fail_if_no_progress with_reducible refine upd_hp (sub_of hm rfl) ?_ | with_reducible exact R.CAR_STS_ok (sub_of hm rfl) | with_reducible exact R.HP_WR_CNT_ok (sub_of hm rfl) | with_reducible exact R.RT_RG_CTL_ok (sub_of hm rfl) | with_reducible exact R.RT_STRAY_CNT_ok (sub_of hm rfl) | with_reducible exact R.RT_WR_DROP_STATE_ok (sub_of hm rfl) | (with_reducible refine regOk_of (c := 13) (sub_of hm rfl) (blk13 ?_ ?_) <;> simp only [R.HP_WR_CNT] <;> omega) | (with_reducible refine regOk_of (c := 16) (sub_of hm rfl) (blk16 ?_ ?_) <;> simp only [R.RT_STRAY_CNT, R.RT_WR_DROP_STATE] <;> omega) | split | dsimp only)

theorem execBpHoldExpiry_keeps {m : Nat} {x : State} {a0 : Nat} {s : State} (hm : Nat.land 314447559261966 m = 314447559261966)
    (h : Same m x s) : Ends m x (execBpHoldExpiry a0 s) := by
  unfold execBpHoldExpiry
  repeat' (first | with_reducible assumption | intro _ | with_reducible apply ends_next | with_reducible apply ends_ite | with_reducible apply same_ite | with_reducible refine State.pump_keeps (sub_of hm rfl) ?_ | with_reducible refine State.reqMod_keeps (sub_of hm rfl) ?_ | split | dsimp only)

theorem execLineEviction_keeps {m : Nat} {x : State} {a0 : BitVec 38} {s : State} (hm : Nat.land 314447559261966 m = 314447559261966)
    (h : Same m x s) : Ends m x (execLineEviction a0 s) := by
  unfold execLineEviction
  repeat' (first | with_reducible assumption | intro _ | with_reducible apply ends_next | with_reducible apply ends_ite | with_reducible apply same_ite | with_reducible refine State.evictLine_keeps (sub_of hm rfl) (by assumption) ?_ | with_reducible refine State.pump_keeps (sub_of hm rfl) ?_ | split | dsimp only)

theorem execTileAgeLimit_keeps {m : Nat} {x : State} {a0 : BitVec 32} {s : State} (hm : Nat.land 137438961672 m = 137438961672)
    (h : Same m x s) : Ends m x (execTileAgeLimit a0 s) := by
  unfold execTileAgeLimit
  repeat' (first | with_reducible assumption | intro _ | with_reducible apply ends_next | with_reducible apply ends_ite | with_reducible apply same_ite | with_reducible refine State.tsStatus_keeps (sub_of hm rfl) ?_ | with_reducible refine State.slotMod_keeps (sub_of hm rfl) ?_ | split | dsimp only)

theorem execPageWaitExpiry_keeps {m : Nat} {x : State} {a0 : Fin 320} {s : State} (hm : Nat.land 19451974116110 m = 19451974116110)
    (h : Same m x s) : Ends m x (execPageWaitExpiry a0 s) := by
  unfold execPageWaitExpiry
  repeat' (first | with_reducible assumption | intro _ | with_reducible apply ends_next | with_reducible apply ends_ite | with_reducible apply same_ite | with_reducible refine State.startPage_keeps (sub_of hm rfl) ?_ | split | dsimp only)

theorem execPageProgramStart_keeps {m : Nat} {x : State} {a0 : Fin 320} {s : State} (hm : Nat.land 19451974116110 m = 19451974116110)
    (h : Same m x s) : Ends m x (execPageProgramStart a0 s) := by
  unfold execPageProgramStart
  repeat' (first | with_reducible assumption | intro _ | with_reducible apply ends_next | with_reducible apply ends_ite | with_reducible apply same_ite | with_reducible refine State.startPage_keeps (sub_of hm rfl) ?_ | split | dsimp only)

theorem execPageProgramIssue_keeps {m : Nat} {x : State} {a0 : Nat} {s : State} (hm : Nat.land 23850020627214 m = 23850020627214)
    (h : Same m x s) : Ends m x (execPageProgramIssue a0 s) := by
  unfold execPageProgramIssue
  repeat' (first | with_reducible assumption | intro _ | with_reducible apply ends_next | with_reducible refine State.issueProg_keeps (sub_of hm rfl) ?_ | split | dsimp only)

theorem execStatusWordReceived_keeps {m : Nat} {x : State} {a0 : Fin 320} {a1 : Word} {a2 : Bool} {s : State} (hm : Nat.land 314447559261966 m = 314447559261966)
    (h : Same m x s) : Ends m x (execStatusWordReceived a0 a1 a2 s) := by
  unfold execStatusWordReceived
  repeat' (first | with_reducible assumption | intro _ | with_reducible apply ends_next | with_reducible apply ends_ite | with_reducible apply same_ite | with_reducible refine State.pcEvent_keeps (sub_of hm rfl) ?_ | with_reducible refine State.dieMod_keeps (sub_of hm rfl) ?_ | with_reducible refine State.addCnt_keeps (sub_of hm rfl) ?_ ?_ | with_reducible refine State.raise_keeps (sub_of hm rfl) ?_ | with_reducible refine State.suspClear_keeps (sub_of hm rfl) ?_ | with_reducible refine State.pump_keeps (sub_of hm rfl) ?_ | with_reducible refine State.bgIssue_keeps (sub_of hm rfl) ?_ | with_reducible refine State.retLimit_keeps (sub_of hm rfl) ?_ | with_reducible refine State.progFail_keeps (sub_of hm rfl) ?_ | with_reducible refine State.bump_keeps (sub_of hm rfl) ?_ ?_ | with_reducible refine State.progPass_keeps (sub_of hm rfl) ?_ | with_reducible refine State.eraseFail_keeps (sub_of hm rfl) ?_ | with_reducible refine State.erasePass_keeps (sub_of hm rfl) ?_ | with_reducible exact R.MC_ERR_CNT_ok (sub_of hm rfl) | (with_reducible refine regOk_of (c := 17) (sub_of hm rfl) (blk17 ?_ ?_) <;> simp only [R.MC_ERR_CNT] <;> omega) | split | dsimp only)

theorem execTsFlush_keeps {m : Nat} {x : State} {a0 : Path} {s : State} (hm : Nat.land 137506070536 m = 137506070536)
    (h : Same m x s) : Ends m x (execTsFlush a0 s) := by
  unfold execTsFlush
  repeat' (first | with_reducible assumption | intro _ | with_reducible apply ends_next | with_reducible apply ends_ite | with_reducible apply same_ite | with_reducible refine State.regAcc_keeps (sub_of hm rfl) ?_ | with_reducible refine State.flushDone_keeps (sub_of hm rfl) ?_ | with_reducible refine State.tsStatus_keeps (sub_of hm rfl) ?_ | with_reducible refine State.setBit_keeps (sub_of hm rfl) ?_ ?_ | fail_if_no_progress with_reducible refine upd_te (sub_of hm rfl) ?_ | with_reducible exact R.TS_CTL_ok (sub_of hm rfl) | with_reducible exact R.TS_STS_ok (sub_of hm rfl) | (with_reducible refine regOk_of (c := 10) (sub_of hm rfl) (blk10 ?_ ?_) <;> simp only [R.TS_CTL, R.TS_STS] <;> omega) | split | dsimp only)

theorem execTsCntClr_keeps {m : Nat} {x : State} {a0 : Path} {a1 : Word} {s : State} (hm : Nat.land 137506062344 m = 137506062344)
    (h : Same m x s) : Ends m x (execTsCntClr a0 a1 s) := by
  unfold execTsCntClr
  repeat' (first | with_reducible exact list_ok_nil | with_reducible refine list_ok_cons ?_ ?_ | with_reducible refine list_ok_append ?_ ?_ | with_reducible exact pc_ok | with_reducible refine range_ok ?_ | with_reducible assumption | intro _ | with_reducible apply ends_next | with_reducible apply same_when | with_reducible refine State.regAcc_keeps (sub_of hm rfl) ?_ | with_reducible refine State.zero_keeps (sub_of hm rfl) ?_ ?_ | with_reducible exact R.TS_FILL_RD_CNT_ok (sub_of hm rfl) | with_reducible exact R.TS_HELD_CNT_ok (sub_of hm rfl) | with_reducible exact R.TS_OVER_CNT_ok (sub_of hm rfl) | with_reducible exact R.TS_PAD_CNT_ok (sub_of hm rfl) | (with_reducible refine regOk_of (c := 10) (sub_of hm rfl) (blk10 ?_ ?_) <;> simp only [R.TS_FILL_RD_CNT, R.TS_HELD_CNT, R.TS_OVER_CNT, R.TS_PAD_CNT] <;> omega) | split | dsimp only)

theorem execRtMinClr_keeps {m : Nat} {x : State} {a0 : Path} {s : State} (hm : Nat.land 8796160131080 m = 8796160131080)
    (h : Same m x s) : Ends m x (execRtMinClr a0 s) := by
  unfold execRtMinClr
  repeat' (first | with_reducible assumption | intro _ | with_reducible apply ends_next | with_reducible apply same_when | with_reducible refine State.regAcc_keeps (sub_of hm rfl) ?_ | with_reducible refine State.set_keeps (sub_of hm rfl) ?_ ?_ | with_reducible exact R.RT_SPD_ok (sub_of hm rfl) | (with_reducible refine regOk_of (c := 16) (sub_of hm rfl) (blk16 ?_ ?_) <;> simp only [R.RT_SPD] <;> omega) | split | dsimp only)

theorem execRtHeldClr_keeps {m : Nat} {x : State} {a0 : Path} {s : State} (hm : Nat.land 8796160131080 m = 8796160131080)
    (h : Same m x s) : Ends m x (execRtHeldClr a0 s) := by
  unfold execRtHeldClr
  repeat' (first | with_reducible exact list_ok_nil | with_reducible refine list_ok_cons ?_ ?_ | with_reducible refine list_ok_append ?_ ?_ | with_reducible exact pc_ok | with_reducible refine range_ok ?_ | with_reducible assumption | intro _ | with_reducible apply ends_next | with_reducible apply same_when | with_reducible refine State.regAcc_keeps (sub_of hm rfl) ?_ | with_reducible refine State.zero_keeps (sub_of hm rfl) ?_ ?_ | with_reducible exact R.RT_HELD_CNT_ok (sub_of hm rfl) | with_reducible exact R.RT_HELD_MAX_ok (sub_of hm rfl) | (with_reducible refine regOk_of (c := 16) (sub_of hm rfl) (blk16 ?_ ?_) <;> simp only [R.RT_HELD_CNT, R.RT_HELD_MAX] <;> omega) | split | dsimp only)

theorem execRtLvlClr_keeps {m : Nat} {x : State} {a0 : Path} {s : State} (hm : Nat.land 8796160131080 m = 8796160131080)
    (h : Same m x s) : Ends m x (execRtLvlClr a0 s) := by
  unfold execRtLvlClr
  repeat' (first | with_reducible exact list_ok_nil | with_reducible refine list_ok_cons ?_ ?_ | with_reducible refine list_ok_append ?_ ?_ | with_reducible exact pc_ok | with_reducible refine range_ok ?_ | with_reducible assumption | intro _ | with_reducible apply ends_next | with_reducible apply same_when | with_reducible refine State.regAcc_keeps (sub_of hm rfl) ?_ | with_reducible refine State.zero_keeps (sub_of hm rfl) ?_ ?_ | with_reducible exact R.RT_LVL_WIN_CNT0_ok (sub_of hm rfl) | (with_reducible refine regOk_of (c := 16) (sub_of hm rfl) (blk16 ?_ ?_) <;> simp only [R.RT_LVL_WIN_CNT0] <;> omega) | split | dsimp only)

end Sys2Proof.Machine
end

