-- ==== Sys2Proof/Laws/FrameDieOps.lean ====
section
/-! SUPPORT. The frame of every operation of Machine/DieOps.lean, as a mask of the kinds of state that it may change. -/

set_option autoImplicit false
set_option linter.unusedTactic false
set_option linter.unreachableTactic false
set_option linter.unnecessarySeqFocus false
set_option linter.unusedSimpArgs false
set_option linter.unusedVariables false

namespace Sys2Proof.Machine

theorem State.scramble_keeps {m : Nat} {x : State} {s : State} {d b p : Nat} (hm : Nat.land 8196 m = 8196) (h : Same m x s) :
    Same m x (s.scramble d b p) := by
  unfold State.scramble
  dsimp only
  refine upd_te (sub_of hm rfl) (same_foldl2 h ?_)
  intro q a hq
  exact State.drawn_keeps (sub_of hm rfl) hq

theorem State.mayScramble_keeps {m : Nat} {x : State} {s : State} {a1 : Nat} {a2 : Nat} {a3 : Nat} (hm : Nat.land 8196 m = 8196)
    (h : Same m x s) : Same m x (State.mayScramble s a1 a2 a3) := by
  unfold State.mayScramble
  repeat' (first | with_reducible assumption | intro _ | with_reducible apply same_ite | with_reducible refine State.scramble_keeps (sub_of hm rfl) ?_ | with_reducible refine State.drawn_keeps (sub_of hm rfl) ?_ | split | dsimp only)

theorem State.setMdie_keeps {m : Nat} {x : State} {s : State} {a1 : Nat} {a2 : MDie} (hm : Nat.land 262144 m = 262144)
    (h : Same m x s) : Same m x (State.setMdie s a1 a2) := by
  unfold State.setMdie
  repeat' (first | with_reducible assumption | intro _ | fail_if_no_progress with_reducible refine upd_md (sub_of hm rfl) ?_ | split | dsimp only)

theorem State.dieCut_keeps {m : Nat} {x : State} {s : State} {a1 : Nat} (hm : Nat.land 8196 m = 8196)
    (h : Same m x s) : Same m x (State.dieCut s a1) := by
  unfold State.dieCut
  repeat' (first | with_reducible assumption | intro _ | with_reducible apply same_ite | with_reducible apply same_foldl | with_reducible refine State.scramble_keeps (sub_of hm rfl) ?_ | with_reducible refine State.mayScramble_keeps (sub_of hm rfl) ?_ | split | dsimp only)

theorem State.dieReset_keeps {m : Nat} {x : State} {s : State} {a1 : Nat} {a2 : Bool} (hm : Nat.land 270340 m = 270340)
    (h : Same m x s) : Same m x (State.dieReset s a1 a2) := by
  unfold State.dieReset
  repeat' (first | with_reducible assumption | intro _ | with_reducible refine State.setMdie_keeps (sub_of hm rfl) ?_ | with_reducible refine State.dieCut_keeps (sub_of hm rfl) ?_ | split | dsimp only)

theorem State.dieCmd_keeps {m : Nat} {x : State} {s : State} {d op : Nat} {args : List Nat} {crc : BitVec 8} {ok : List Nat}
    {addr : Bool} {f : MDie → State → State} (hm : Nat.land 262144 m = 262144) (h : Same m x s) (hf : ∀ (r : MDie) (t : State), Same m x t → Same m x (f r t)) :
    Same m x (s.dieCmd d op args crc ok addr f) := by
  unfold State.dieCmd
  dsimp only
  split
  · exact h
  · split
    · exact State.setMdie_keeps (sub_of hm rfl) h
    · split
      · exact State.setMdie_keeps (sub_of hm rfl) h
      · split
        · exact State.setMdie_keeps (sub_of hm rfl) h
        · exact hf _ _ h

theorem State.dieSend_keeps {m : Nat} {x : State} {s : State} {a1 : Nat} {a2 : MDie} {a3 : Bool} (hm : Nat.land 67371018 m = 67371018)
    (h : Same m x s) : Same m x (State.dieSend s a1 a2 a3) := by
  unfold State.dieSend
  repeat' (first | with_reducible assumption | intro _ | with_reducible apply same_ite | with_reducible refine State.setMdie_keeps (sub_of hm rfl) ?_ | with_reducible refine State.emit_keeps (sub_of hm rfl) ?_ | split | dsimp only)

theorem State.dieStateErr_keeps {m : Nat} {x : State} {s : State} {a1 : Nat} {a2 : MDie} (hm : Nat.land 262144 m = 262144)
    (h : Same m x s) : Same m x (State.dieStateErr s a1 a2) := by
  unfold State.dieStateErr
  repeat' (first | with_reducible assumption | intro _ | with_reducible refine State.setMdie_keeps (sub_of hm rfl) ?_ | split | dsimp only)

end Sys2Proof.Machine
end

