-- ==== Sys2Proof/Laws/FrameSirOps.lean ====
section
/-! SUPPORT. The frame of every operation of Machine/SirOps.lean, as a mask of the kinds of state that it may change. -/

set_option autoImplicit false
set_option linter.unusedTactic false
set_option linter.unreachableTactic false
set_option linter.unnecessarySeqFocus false
set_option linter.unusedSimpArgs false
set_option linter.unusedVariables false

namespace Sys2Proof.Machine

theorem State.ledgerWrite_keeps {m : Nat} {x : State} {s : State} (hm : Nat.land 4362076426 m = 4362076426)
    (h : Same m x s) : Same m x (State.ledgerWrite s) := by
  unfold State.ledgerWrite
  repeat' (first | with_reducible assumption | intro _ | with_reducible apply same_ite | with_reducible refine State.pstAdd_keeps (sub_of hm rfl) ?_ | split | dsimp only)

theorem State.agesAll_keeps {m : Nat} {x : State} {s : State} (hm : Nat.land 1048576 m = 1048576)
    (h : Same m x s) : Same m x (State.agesAll s) := by
  unfold State.agesAll
  repeat' (first | with_reducible assumption | intro _ | with_reducible apply same_foldl | fail_if_no_progress with_reducible refine upd_sir (sub_of hm rfl) ?_ | split | dsimp only)

theorem State.unknownEnd_keeps {m : Nat} {x : State} {s : State} {a1 : Nat} (hm : Nat.land 279241040650 m = 279241040650)
    (h : Same m x s) : Same m x (State.unknownEnd s a1) := by
  unfold State.unknownEnd
  repeat' (first | with_reducible assumption | intro _ | with_reducible apply same_ite | with_reducible apply same_foldl | with_reducible refine State.blkMod_keeps (sub_of hm rfl) ?_ | with_reducible refine State.setBit_keeps (sub_of hm rfl) ?_ ?_ | with_reducible refine State.ledgerWrite_keeps (sub_of hm rfl) ?_ | with_reducible refine State.roll_keeps (sub_of hm rfl) ?_ | with_reducible refine State.agesAll_keeps (sub_of hm rfl) ?_ | fail_if_no_progress with_reducible refine upd_sir (sub_of hm rfl) ?_ | with_reducible exact R.SIR_STS_ok (sub_of hm rfl) | (with_reducible refine regOk_of (c := 11) (sub_of hm rfl) (blk11 ?_ ?_) <;> simp only [R.SIR_STS] <;> omega) | split | dsimp only)

theorem State.driftAdd_keeps {m : Nat} {x : State} {s : State} {a1 : Nat} {a2 : Nat} (hm : Nat.land 1048576 m = 1048576)
    (h : Same m x s) : Same m x (State.driftAdd s a1 a2) := by
  unfold State.driftAdd
  repeat' (first | with_reducible assumption | intro _ | fail_if_no_progress with_reducible refine upd_sir (sub_of hm rfl) ?_ | split | dsimp only)

theorem State.ageByTimestamp_keeps {m : Nat} {x : State} {s : State} {a1 : Option Nat} {a2 : Option Nat} {a3 : Nat} (hm : Nat.land 279241040650 m = 279241040650)
    (h : Same m x s) : Same m x (State.ageByTimestamp s a1 a2 a3) := by
  unfold State.ageByTimestamp
  repeat' (first | with_reducible assumption | intro _ | with_reducible apply same_ite | with_reducible apply same_foldl | with_reducible refine State.roll_keeps (sub_of hm rfl) ?_ | with_reducible refine State.setBit_keeps (sub_of hm rfl) ?_ ?_ | with_reducible refine State.unknownEnd_keeps (sub_of hm rfl) ?_ | with_reducible refine State.driftAdd_keeps (sub_of hm rfl) ?_ | with_reducible exact R.SIR_OFF_BAND_ok (sub_of hm rfl) | with_reducible exact R.SIR_STS_ok (sub_of hm rfl) | (with_reducible refine regOk_of (c := 11) (sub_of hm rfl) (blk11 ?_ ?_) <;> simp only [R.SIR_OFF_BAND, R.SIR_STS] <;> omega) | split | dsimp only)

theorem State.refShow_keeps {m : Nat} {x : State} {s : State} {a1 : Nat} (hm : Nat.land 4398046511112 m = 4398046511112)
    (h : Same m x s) : Same m x (State.refShow s a1) := by
  unfold State.refShow
  repeat' (first | with_reducible assumption | intro _ | with_reducible apply same_ite | with_reducible apply same_foldl | with_reducible refine State.set_keeps (sub_of hm rfl) ?_ ?_ | with_reducible exact R.MG_CDC_STS_ok (sub_of hm rfl) | (with_reducible refine regOk_of (c := 15) (sub_of hm rfl) (blk15 ?_ ?_) <;> simp only [R.MG_CDC_STS] <;> omega) | split | dsimp only)

theorem State.refChanged_keeps {m : Nat} {x : State} {s : State} {a1 : Nat} (hm : Nat.land 4398047559688 m = 4398047559688)
    (h : Same m x s) : Same m x (State.refChanged s a1) := by
  unfold State.refChanged
  repeat' (first | with_reducible assumption | intro _ | with_reducible refine State.refShow_keeps (sub_of hm rfl) ?_ | fail_if_no_progress with_reducible refine upd_sir (sub_of hm rfl) ?_ | split | dsimp only)

theorem State.setBand_keeps {m : Nat} {x : State} {s : State} {a1 : Nat} {a2 : Nat} (hm : Nat.land 4672925466632 m = 4672925466632)
    (h : Same m x s) : Same m x (State.setBand s a1 a2) := by
  unfold State.setBand
  repeat' (first | with_reducible assumption | intro _ | with_reducible apply same_ite | with_reducible apply same_foldl | with_reducible refine State.set_keeps (sub_of hm rfl) ?_ ?_ | with_reducible refine State.refChanged_keeps (sub_of hm rfl) ?_ | with_reducible exact R.SIR_ZONE_BAND_ok (sub_of hm rfl) | (with_reducible refine regOk_of (c := 11) (sub_of hm rfl) (blk11 ?_ ?_) <;> simp only [R.SIR_ZONE_BAND] <;> omega) | split | dsimp only)

theorem State.dramLedger_keeps {m : Nat} {x : State} {s : State} (hm : Nat.land 1048576 m = 1048576)
    (h : Same m x s) : Same m x (State.dramLedger s) := by
  unfold State.dramLedger
  repeat' (first | with_reducible assumption | intro _ | fail_if_no_progress with_reducible refine upd_sir (sub_of hm rfl) ?_ | split | dsimp only)

theorem State.lagShow_keeps {m : Nat} {x : State} {s : State} (hm : Nat.land 274877906952 m = 274877906952)
    (h : Same m x s) : Same m x (State.lagShow s) := by
  unfold State.lagShow
  repeat' (first | with_reducible assumption | intro _ | with_reducible apply same_ite | with_reducible apply same_foldl | with_reducible refine State.maxIn_keeps (sub_of hm rfl) ?_ ?_ | with_reducible refine State.set_keeps (sub_of hm rfl) ?_ ?_ | with_reducible refine State.setBit_keeps (sub_of hm rfl) ?_ ?_ | with_reducible refine State.wrN_keeps (sub_of hm rfl) ?_ ?_ | with_reducible exact R.SIR_LAG_ok (sub_of hm rfl) | with_reducible exact R.SIR_LAG_MAX_ok (sub_of hm rfl) | with_reducible exact R.SIR_STS_ok (sub_of hm rfl) | (with_reducible refine regOk_of (c := 11) (sub_of hm rfl) (blk11 ?_ ?_) <;> simp only [R.SIR_LAG, R.SIR_LAG_MAX, R.SIR_STS] <;> omega) | split | dsimp only)

theorem State.setLag_keeps {m : Nat} {x : State} {s : State} {a1 a2 : Nat} (hm : Nat.land 274945016328 m = 274945016328) (h : Same m x s) : Same m x (s.setLag a1 a2) := by
  unfold State.setLag
  split
  · exact h
  · next r hr =>
    have ho : RegOk m r := by
      unfold lagReg at hr
      split at hr <;> cases hr <;> exact regOk_of (c := 11) (sub_of hm rfl) rfl
    repeat' (first | with_reducible assumption | intro _ | with_reducible apply same_ite | with_reducible apply same_when | with_reducible refine State.wrN_keeps (sub_of hm rfl) ?_ ?_ | with_reducible refine State.roll_keeps (sub_of hm rfl) ?_ | with_reducible refine State.lagShow_keeps (sub_of hm rfl) ?_ | with_reducible exact R.SIR_CTL_ok (sub_of hm rfl) | (with_reducible refine regOk_of (c := 11) (sub_of hm rfl) (blk11 ?_ ?_) <;> simp only [R.SIR_CTL] <;> omega) | split | dsimp only)

theorem State.itemLag_keeps {m : Nat} {x : State} {s : State} {a1 : Nat} (hm : Nat.land 274945016328 m = 274945016328)
    (h : Same m x s) : Same m x (State.itemLag s a1) := by
  unfold State.itemLag
  repeat' (first | with_reducible assumption | intro _ | with_reducible apply same_ite | with_reducible refine State.setLag_keeps (sub_of hm rfl) ?_ | split | dsimp only)

theorem State.unknownEnter_keeps {m : Nat} {x : State} {s : State} {a1 : Nat} (hm : Nat.land 279241040650 m = 279241040650)
    (h : Same m x s) : Same m x (State.unknownEnter s a1) := by
  unfold State.unknownEnter
  repeat' (first | with_reducible assumption | intro _ | with_reducible apply same_ite | with_reducible apply same_foldl | with_reducible refine State.blkMod_keeps (sub_of hm rfl) ?_ | with_reducible refine State.unknownEnd_keeps (sub_of hm rfl) ?_ | with_reducible refine State.set_keeps (sub_of hm rfl) ?_ ?_ | with_reducible refine State.setBit_keeps (sub_of hm rfl) ?_ ?_ | fail_if_no_progress with_reducible refine upd_sir (sub_of hm rfl) ?_ | with_reducible exact R.SIR_STS_ok (sub_of hm rfl) | (with_reducible refine regOk_of (c := 11) (sub_of hm rfl) (blk11 ?_ ?_) <;> simp only [R.SIR_STS] <;> omega) | split | dsimp only)

theorem State.passLag_keeps {m : Nat} {x : State} {s : State} {a1 : Nat} {a2 : SirPass} (hm : Nat.land 274945016328 m = 274945016328)
    (h : Same m x s) : Same m x (State.passLag s a1 a2) := by
  unfold State.passLag
  repeat' (first | with_reducible assumption | intro _ | with_reducible apply same_ite | with_reducible refine State.setLag_keeps (sub_of hm rfl) ?_ | split | dsimp only)

theorem State.sirEnables_keeps {m : Nat} {x : State} {s : State} (hm : Nat.land 274946064904 m = 274946064904)
    (h : Same m x s) : Same m x (State.sirEnables s) := by
  unfold State.sirEnables
  repeat' (first | with_reducible assumption | intro _ | with_reducible apply same_when | with_reducible refine State.setLag_keeps (sub_of hm rfl) ?_ | fail_if_no_progress with_reducible refine upd_sir (sub_of hm rfl) ?_ | split | dsimp only)

theorem State.sirBad_keeps {m : Nat} {x : State} {s : State} {a1 : Loc} {a2 : Nat} {a3 : RecoverBy} (hm : Nat.land 305617072940814 m = 305617072940814)
    (h : Same m x s) : Same m x (State.sirBad s a1 a2 a3) := by
  unfold State.sirBad
  repeat' (first | with_reducible assumption | intro _ | with_reducible apply same_ite | with_reducible apply same2_ite | with_reducible refine State.bump_keeps (sub_of hm rfl) ?_ ?_ | with_reducible refine State.rewriteTile_keeps (sub_of hm rfl) ?_ | with_reducible refine State.codecOk_keeps (sub_of hm rfl) ?_ | with_reducible refine State.codecUe_keeps (sub_of hm rfl) ?_ | with_reducible refine State.obpTry_keeps (sub_of hm rfl) ?_ | with_reducible refine State.obpTry_keeps_eq (sub_of hm rfl) (by assumption) ?_ | with_reducible refine State.repReq_keeps (sub_of hm rfl) ?_ | with_reducible refine State.loseLine_keeps (sub_of hm rfl) ?_ | with_reducible exact R.SIR_POISONED_ok (sub_of hm rfl) | with_reducible exact R.SIR_RECOV_OBP_ok (sub_of hm rfl) | with_reducible exact R.SIR_RECOV_RETRY_ok (sub_of hm rfl) | with_reducible exact R.SIR_UE_FOUND_ok (sub_of hm rfl) | (with_reducible refine regOk_of (c := 11) (sub_of hm rfl) (blk11 ?_ ?_) <;> simp only [R.SIR_POISONED, R.SIR_RECOV_OBP, R.SIR_RECOV_RETRY, R.SIR_UE_FOUND] <;> omega) | split | dsimp only)

end Sys2Proof.Machine
end

