-- ==== Sys2Proof/Laws/FrameRegionOps.lean ====
section
/-! SUPPORT. The frame of every operation of Machine/RegionOps.lean, as a mask of the kinds of state that it may change. -/

set_option autoImplicit false
set_option linter.unusedTactic false
set_option linter.unreachableTactic false
set_option linter.unnecessarySeqFocus false
set_option linter.unusedSimpArgs false
set_option linter.unusedVariables false

namespace Sys2Proof.Machine

theorem State.dataSlotFor_keeps {m : Nat} {x : State} {s : State} {a1 : Nat} {a2 : Bool} {t : State} {u0 : Nat} {u1 : Bool} (hm : Nat.land 17179885576 m = 17179885576)
    (e : State.dataSlotFor s a1 a2 = some (u0, u1, t)) (h : Same m x s) : Same m x t := by
  unfold State.dataSlotFor at e
  (try dsimp only at e)
  (repeat' split at e) <;> (try cases e) <;> repeat' (first | with_reducible assumption | intro _ | with_reducible refine State.keySlotTake_keeps (sub_of hm rfl) ?_ | split | dsimp only)

theorem State.regionSave_keeps {m : Nat} {x : State} {s : State} {a1 : Nat} (hm : Nat.land 4362076426 m = 4362076426)
    (h : Same m x s) : Same m x (State.regionSave s a1) := by
  unfold State.regionSave
  repeat' (first | with_reducible assumption | intro _ | with_reducible refine State.pstAdd_keeps (sub_of hm rfl) ?_ | with_reducible refine State.pcItem_keeps (sub_of hm rfl) ?_ | split | dsimp only)

theorem State.dcRecord_keeps {m : Nat} {x : State} {s : State} {a1 : Nat} {a2 : Nat} (hm : Nat.land 1099511660552 m = 1099511660552)
    (h : Same m x s) : Same m x (State.dcRecord s a1 a2) := by
  unfold State.dcRecord
  repeat' (first | with_reducible assumption | intro _ | with_reducible refine State.logEvent_keeps (sub_of hm rfl) ?_ | split | dsimp only)

theorem State.setRgSlot_keeps {m : Nat} {x : State} {s : State} {a1 : Nat} {a2 : Nat} {a3 : Bool} (hm : Nat.land 281474976710664 m = 281474976710664)
    (h : Same m x s) : Same m x (State.setRgSlot s a1 a2 a3) := by
  unfold State.setRgSlot
  repeat' (first | with_reducible assumption | intro _ | with_reducible refine State.setBit_keeps (sub_of hm rfl) ?_ ?_ | with_reducible refine State.set_keeps (sub_of hm rfl) ?_ ?_ | with_reducible exact R.CE_RG_SLOT_ok (sub_of hm rfl) | (with_reducible refine regOk_of (c := 21) (sub_of hm rfl) (blk21 ?_ ?_) <;> simp only [R.CE_RG_SLOT] <;> omega) | split | dsimp only)

theorem State.regionUnlock_keeps {m : Nat} {x : State} {s : State} {a1 : Nat} (hm : Nat.land 67112968 m = 67112968)
    (h : Same m x s) : Same m x (State.regionUnlock s a1) := by
  unfold State.regionUnlock
  repeat' (first | with_reducible assumption | intro _ | with_reducible apply same_ite | with_reducible refine State.leased_keeps (sub_of hm rfl) ?_ | fail_if_no_progress with_reducible refine upd_lc (sub_of hm rfl) ?_ | split | dsimp only)

theorem State.regionDue_keeps {m : Nat} {x : State} {s : State} {a1 : Nat} (hm : Nat.land 8192 m = 8192)
    (h : Same m x s) : Same m x (State.regionDue s a1) := by
  unfold State.regionDue
  repeat' (first | with_reducible assumption | intro _ | with_reducible apply same_ite | fail_if_no_progress with_reducible refine upd_te (sub_of hm rfl) ?_ | split | dsimp only)

theorem State.setExtent_keeps {m : Nat} {x : State} {s : State} {a1 : Nat} {a2 : Nat} (hm : Nat.land 32768 m = 32768)
    (h : Same m x s) : Same m x (State.setExtent s a1 a2) := by
  unfold State.setExtent
  repeat' (first | with_reducible assumption | intro _ | fail_if_no_progress with_reducible refine upd_hp (sub_of hm rfl) ?_ | split | dsimp only)

theorem State.regionOff_keeps {m : Nat} {x : State} {s : State} {a1 : Nat} (hm : Nat.land 283283258667786 m = 283283258667786)
    (h : Same m x s) : Same m x (State.regionOff s a1) := by
  unfold State.regionOff
  repeat' (first | with_reducible assumption | intro _ | with_reducible apply same_ite | with_reducible apply same_foldl | with_reducible refine State.streamAbort_keeps (sub_of hm rfl) ?_ | with_reducible refine State.setBit_keeps (sub_of hm rfl) ?_ ?_ | with_reducible refine State.setRgSlot_keeps (sub_of hm rfl) ?_ | with_reducible refine State.closeRegions_keeps (sub_of hm rfl) ?_ | with_reducible refine State.tsStatus_keeps (sub_of hm rfl) ?_ | with_reducible refine State.regionUnlock_keeps (sub_of hm rfl) ?_ | with_reducible refine State.regionDue_keeps (sub_of hm rfl) ?_ | with_reducible refine State.regionSave_keeps (sub_of hm rfl) ?_ | with_reducible refine State.setExtent_keeps (sub_of hm rfl) ?_ | fail_if_no_progress with_reducible refine upd_te (sub_of hm rfl) ?_ | with_reducible exact R.CAR_RG_STS_ok (sub_of hm rfl) | with_reducible exact R.CE_RG_SLOT_ok (sub_of hm rfl) | with_reducible exact R.RT_RG_CTL_ok (sub_of hm rfl) | with_reducible exact R.RT_RG_STS_ok (sub_of hm rfl) | (with_reducible refine regOk_of (c := 12) (sub_of hm rfl) (blk12 ?_ ?_) <;> simp only [R.CAR_RG_STS] <;> omega) | (with_reducible refine regOk_of (c := 21) (sub_of hm rfl) (blk21 ?_ ?_) <;> simp only [R.CE_RG_SLOT, R.RT_RG_CTL, R.RT_RG_STS] <;> omega) | split | dsimp only)

theorem State.regionOn_keeps {m : Nat} {x : State} {s : State} {a1 : Nat} (hm : Nat.land 283128606269706 m = 283128606269706)
    (h : Same m x s) : Same m x (State.regionOn s a1) := by
  unfold State.regionOn
  repeat' (first | with_reducible assumption | intro _ | with_reducible refine State.setBit_keeps (sub_of hm rfl) ?_ ?_ | with_reducible refine State.dcRecord_keeps (sub_of hm rfl) ?_ | with_reducible refine State.regionSave_keeps (sub_of hm rfl) ?_ | with_reducible refine State.setExtent_keeps (sub_of hm rfl) ?_ | fail_if_no_progress with_reducible refine upd_te (sub_of hm rfl) ?_ | with_reducible exact R.CAR_RG_STS_ok (sub_of hm rfl) | with_reducible exact R.CAR_STS_ok (sub_of hm rfl) | with_reducible exact R.RT_RG_CTL_ok (sub_of hm rfl) | with_reducible exact R.RT_RG_STS_ok (sub_of hm rfl) | (with_reducible refine regOk_of (c := 12) (sub_of hm rfl) (blk12 ?_ ?_) <;> simp only [R.CAR_RG_STS, R.CAR_STS] <;> omega) | (with_reducible refine regOk_of (c := 21) (sub_of hm rfl) (blk21 ?_ ?_) <;> simp only [R.RT_RG_CTL, R.RT_RG_STS] <;> omega) | split | dsimp only)

theorem State.enableDone_keeps {m : Nat} {x : State} {s : State} {a1 : Nat} (hm : Nat.land 283128639908106 m = 283128639908106)
    (h : Same m x s) : Same m x (State.enableDone s a1) := by
  unfold State.enableDone
  repeat' (first | with_reducible assumption | intro _ | with_reducible refine State.reply_keeps (sub_of hm rfl) ?_ | with_reducible refine State.regionOn_keeps (sub_of hm rfl) ?_ | fail_if_no_progress with_reducible refine upd_ce (sub_of hm rfl) ?_ | split | dsimp only)

theorem State.secureStart_keeps {m : Nat} {x : State} {s : State} {a1 : Nat} {a2 : Nat} {a3 : Option Nat} {a4 : ReplyTo} {a5 : Bool} (hm : Nat.land 281475043831816 m = 281475043831816)
    (h : Same m x s) : Same m x (State.secureStart s a1 a2 a3 a4 a5) := by
  unfold State.secureStart
  repeat' (first | with_reducible assumption | intro _ | with_reducible refine State.leased_keeps (sub_of hm rfl) ?_ | with_reducible refine State.sdiscShow_keeps (sub_of hm rfl) ?_ | fail_if_no_progress with_reducible refine upd_lc_te (sub_of hm rfl) ?_ | split | dsimp only)

end Sys2Proof.Machine
end

