-- ==== Sys2Proof/Laws/FrameCipher.lean ====
section
/-! SUPPORT. The frame of every operation of Machine/Cipher.lean, as a mask of the kinds of state that it may change. -/

set_option autoImplicit false
set_option linter.unusedTactic false
set_option linter.unreachableTactic false
set_option linter.unnecessarySeqFocus false
set_option linter.unusedSimpArgs false
set_option linter.unusedVariables false

namespace Sys2Proof.Machine

theorem State.commitLine_keeps {m : Nat} {x : State} {s : State} {a1 : Nat} {a2 : Line} {a3 : Bool} {a4 : Bool} {t : State}  (hm : Nat.land 19486333860622 m = 19486333860622)
    (e : State.commitLine s a1 a2 a3 a4 = some t) (h : Same m x s) : Same m x t := by
  unfold State.commitLine at e
  (try dsimp only at e)
  (repeat' split at e) <;> (try cases e) <;> repeat' (first | with_reducible assumption | intro _ | with_reducible apply same_ite | with_reducible apply same2_ite | with_reducible refine State.lcInvalidate_keeps (sub_of hm rfl) ?_ | with_reducible refine State.evictPut_keeps (sub_of hm rfl) (by assumption) ?_ | with_reducible refine State.tsStatus_keeps (sub_of hm rfl) ?_ | with_reducible refine State.charge_keeps (sub_of hm rfl) ?_ | with_reducible refine State.closeReads_keeps (sub_of hm rfl) ?_ | with_reducible refine State.bmapSet_keeps (sub_of hm rfl) ?_ | with_reducible refine State.poisonLine_keeps (sub_of hm rfl) ?_ | with_reducible refine State.unpoisonLine_keeps (sub_of hm rfl) ?_ | with_reducible refine State.sendMwr_keeps (sub_of hm rfl) ?_ | with_reducible refine State.sendMwr_keeps_eq (sub_of hm rfl) (by assumption) ?_ | split | dsimp only)

theorem State.commitLines_keeps {m : Nat} {x : State} {b : Bool} {l : List (Nat × Option (Line × Bool))} {s : State} (hm : Nat.land 19486333860622 m = 19486333860622)
    (h : Same m x s) : Same m x (s.commitLines b l).2 := by
  induction l generalizing s with
  | nil => exact h
  | cons a l ih =>
    unfold State.commitLines
    split
    · exact h
    · next u hu =>
      refine ih ?_
      split at hu
      · cases hu; exact h
      · exact State.commitLine_keeps (sub_of hm rfl) hu h

theorem State.importCmd_keeps {m : Nat} {x : State} {s : State} {a1 : Fin 8} {a2 : BitVec 16} {a3 : BitVec 38} {a4 : Line} {a5 : BitVec 64} {a6 : Bool} (hm : Nat.land 314447559261966 m = 314447559261966)
    (h : Same m x s) : Same m x (State.importCmd s a1 a2 a3 a4 a5 a6) := by
  unfold State.importCmd
  repeat' (first | with_reducible assumption | intro _ | with_reducible apply same_ite | with_reducible refine State.bump_keeps (sub_of hm rfl) ?_ ?_ | with_reducible refine State.spend_keeps (sub_of hm rfl) ?_ | with_reducible refine State.windowWrite_keeps (sub_of hm rfl) ?_ | fail_if_no_progress with_reducible refine upd_hp (sub_of hm rfl) ?_ | with_reducible exact R.HP_WR_CNT_ok (sub_of hm rfl) | with_reducible exact R.RT_RG_CTL_ok (sub_of hm rfl) | (with_reducible refine regOk_of (c := 13) (sub_of hm rfl) (blk13 ?_ ?_) <;> simp only [R.HP_WR_CNT] <;> omega) | split | dsimp only)

theorem State.rekeyValid_keeps {m : Nat} {x : State} {s : State} {a1 : Nat} {a2 : Nat} {a3 : Bool} (hm : Nat.land 281479338815754 m = 281479338815754)
    (h : Same m x s) : Same m x (State.rekeyValid s a1 a2 a3) := by
  unfold State.rekeyValid
  repeat' (first | with_reducible assumption | intro _ | with_reducible apply same_ite | with_reducible refine State.pcItem_keeps (sub_of hm rfl) ?_ | with_reducible refine State.setRgSlot_keeps (sub_of hm rfl) ?_ | with_reducible refine State.setLabel_keeps (sub_of hm rfl) ?_ | with_reducible refine State.setBit_keeps (sub_of hm rfl) ?_ ?_ | with_reducible refine State.rotSave_keeps (sub_of hm rfl) ?_ | with_reducible refine State.keyRelease_keeps (sub_of hm rfl) ?_ | with_reducible refine State.secureStart_keeps (sub_of hm rfl) ?_ | with_reducible refine State.pstAdd_keeps (sub_of hm rfl) ?_ | fail_if_no_progress with_reducible refine upd_ce (sub_of hm rfl) ?_ | with_reducible exact R.CE_RG_SLOT_ok (sub_of hm rfl) | (with_reducible refine regOk_of (c := 21) (sub_of hm rfl) (blk21 ?_ ?_) <;> simp only [R.CE_RG_SLOT] <;> omega) | split | dsimp only)

theorem State.keyWaits_keeps {m : Nat} {x : State} {s : State} {a1 : Nat} (hm : Nat.land 314447559261966 m = 314447559261966)
    (h : Same m x s) : Same m x (State.keyWaits s a1) := by
  unfold State.keyWaits
  repeat' (first | with_reducible assumption | intro _ | with_reducible apply same_foldl | with_reducible refine State.lineTaken_keeps (sub_of hm rfl) ?_ | fail_if_no_progress with_reducible refine upd_ce (sub_of hm rfl) ?_ | split | dsimp only)

theorem State.keyDerivationDone_keeps {m : Nat} {x : State} {s : State} (hm : Nat.land 314447559261966 m = 314447559261966)
    (h : Same m x s) : Same m x (State.keyDerivationDone s) := by
  unfold State.keyDerivationDone
  repeat' (first | with_reducible assumption | intro _ | with_reducible apply same_ite | with_reducible apply same_foldl | with_reducible refine State.bump_keeps (sub_of hm rfl) ?_ ?_ | with_reducible refine State.keyLoad_keeps (sub_of hm rfl) ?_ | with_reducible refine State.prfUse_keeps (sub_of hm rfl) ?_ | with_reducible refine State.enableDone_keeps (sub_of hm rfl) ?_ | with_reducible refine State.setRgSlot_keeps (sub_of hm rfl) ?_ | with_reducible refine State.pump_keeps (sub_of hm rfl) ?_ | with_reducible refine State.rekeyValid_keeps (sub_of hm rfl) ?_ | with_reducible refine State.streamMod_keeps (sub_of hm rfl) ?_ | with_reducible refine State.keyWaits_keeps (sub_of hm rfl) ?_ | with_reducible refine State.set_keeps (sub_of hm rfl) ?_ ?_ | fail_if_no_progress with_reducible refine upd_ce (sub_of hm rfl) ?_ | with_reducible exact R.CE_DERIVE_CNT_ok (sub_of hm rfl) | with_reducible exact R.CE_RG_SLOT_ok (sub_of hm rfl) | with_reducible exact R.CE_STS_ok (sub_of hm rfl) | (with_reducible refine regOk_of (c := 7) (sub_of hm rfl) (blk7 ?_ ?_) <;> simp only [R.CE_DERIVE_CNT, R.CE_STS] <;> omega) | (with_reducible refine regOk_of (c := 21) (sub_of hm rfl) (blk21 ?_ ?_) <;> simp only [R.CE_RG_SLOT] <;> omega) | split | dsimp only)

theorem execSlotFreed_keeps {m : Nat} {x : State} {a0 : Fin 4096} {s : State} (hm : Nat.land 17179885576 m = 17179885576)
    (h : Same m x s) : Ends m x (execSlotFreed a0 s) := by
  unfold execSlotFreed
  repeat' (first | with_reducible assumption | intro _ | with_reducible apply ends_next | with_reducible apply ends_ite | with_reducible apply same_ite | with_reducible refine State.keyFree_keeps (sub_of hm rfl) ?_ | split | dsimp only)

theorem execRotationRecordWritten_keeps {m : Nat} {x : State} {a0 : Fin 16} {s : State} (hm : Nat.land 314447559261966 m = 314447559261966)
    (h : Same m x s) : Ends m x (execRotationRecordWritten a0 s) := by
  unfold execRotationRecordWritten
  repeat' (first | with_reducible assumption | intro _ | with_reducible apply ends_next | with_reducible refine State.setRgSlot_keeps (sub_of hm rfl) ?_ | with_reducible refine State.setLabel_keeps (sub_of hm rfl) ?_ | with_reducible refine State.setBit_keeps (sub_of hm rfl) ?_ ?_ | with_reducible refine State.set_keeps (sub_of hm rfl) ?_ ?_ | with_reducible refine State.wrN_keeps (sub_of hm rfl) ?_ ?_ | with_reducible refine State.pump_keeps (sub_of hm rfl) ?_ | with_reducible refine State.progNumbers_keeps (sub_of hm rfl) ?_ | with_reducible refine State.rotationEnd_keeps (sub_of hm rfl) ?_ | fail_if_no_progress with_reducible refine upd_ce (sub_of hm rfl) ?_ | with_reducible exact R.CE_RG_ROTSEQ_HI_ok (sub_of hm rfl) | with_reducible exact R.CE_RG_ROTSEQ_LO_ok (sub_of hm rfl) | with_reducible exact R.CE_RG_ROT_PCT_ok (sub_of hm rfl) | with_reducible exact R.CE_RG_SLOT_ok (sub_of hm rfl) | (with_reducible refine regOk_of (c := 21) (sub_of hm rfl) (blk21 ?_ ?_) <;> simp only [R.CE_RG_ROTSEQ_HI, R.CE_RG_ROTSEQ_LO, R.CE_RG_ROT_PCT, R.CE_RG_SLOT] <;> omega) | split | dsimp only)

theorem execEntropyHealthTest_keeps {m : Nat} {x : State} {a0 : Bool} {s : State} (hm : Nat.land 17263773198 m = 17263773198)
    (h : Same m x s) : Ends m x (execEntropyHealthTest a0 s) := by
  unfold execEntropyHealthTest
  repeat' (first | with_reducible assumption | intro _ | with_reducible apply ends_next | with_reducible apply ends_ite | with_reducible apply same_ite | with_reducible refine State.bump_keeps (sub_of hm rfl) ?_ ?_ | with_reducible refine State.raise_keeps (sub_of hm rfl) ?_ | with_reducible refine State.setBit_keeps (sub_of hm rfl) ?_ ?_ | fail_if_no_progress with_reducible refine upd_ce (sub_of hm rfl) ?_ | with_reducible exact R.CE_ENT_FAIL_ok (sub_of hm rfl) | with_reducible exact R.CE_STS_ok (sub_of hm rfl) | (with_reducible refine regOk_of (c := 7) (sub_of hm rfl) (blk7 ?_ ?_) <;> simp only [R.CE_ENT_FAIL, R.CE_STS] <;> omega) | split | dsimp only)

theorem execEntropyRetry_keeps {m : Nat} {x : State} {a0 : Bool} {s : State} (hm : Nat.land 17179885576 m = 17179885576)
    (h : Same m x s) : Ends m x (execEntropyRetry a0 s) := by
  unfold execEntropyRetry
  repeat' (first | with_reducible assumption | intro _ | with_reducible apply ends_next | with_reducible apply ends_ite | with_reducible apply same_ite | with_reducible refine State.setBit_keeps (sub_of hm rfl) ?_ ?_ | with_reducible refine State.bump_keeps (sub_of hm rfl) ?_ ?_ | fail_if_no_progress with_reducible refine upd_ce (sub_of hm rfl) ?_ | with_reducible exact R.CE_ENT_FAIL_ok (sub_of hm rfl) | with_reducible exact R.CE_STS_ok (sub_of hm rfl) | (with_reducible refine regOk_of (c := 7) (sub_of hm rfl) (blk7 ?_ ?_) <;> simp only [R.CE_ENT_FAIL, R.CE_STS] <;> omega) | split | dsimp only)

theorem execDrbgReseed_keeps {m : Nat} {x : State} {s : State} (hm : Nat.land 17263773198 m = 17263773198)
    (h : Same m x s) : Ends m x (execDrbgReseed s) := by
  unfold execDrbgReseed
  repeat' (first | with_reducible assumption | intro _ | with_reducible apply ends_next | with_reducible apply ends_ite | with_reducible apply same_ite | with_reducible refine State.raise_keeps (sub_of hm rfl) ?_ | with_reducible refine State.setBit_keeps (sub_of hm rfl) ?_ ?_ | with_reducible refine State.bump_keeps (sub_of hm rfl) ?_ ?_ | fail_if_no_progress with_reducible refine upd_ce (sub_of hm rfl) ?_ | with_reducible exact R.CE_RESEED_CNT_ok (sub_of hm rfl) | with_reducible exact R.CE_STS_ok (sub_of hm rfl) | (with_reducible refine regOk_of (c := 7) (sub_of hm rfl) (blk7 ?_ ?_) <;> simp only [R.CE_RESEED_CNT, R.CE_STS] <;> omega) | split | dsimp only)

theorem execExportChunkProduce_keeps {m : Nat} {x : State} {a0 : Fin 16} {s : State} (hm : Nat.land 17746872000526 m = 17746872000526)
    (h : Same m x s) : Ends m x (execExportChunkProduce a0 s) := by
  unfold execExportChunkProduce
  repeat' (first | with_reducible assumption | intro _ | with_reducible apply ends_next | with_reducible apply ends_ite | with_reducible apply same_ite | with_reducible refine State.streamPuts_keeps (sub_of hm rfl) (by assumption) ?_ | with_reducible refine State.keyUse_keeps (sub_of hm rfl) ?_ | with_reducible refine State.linesRead_keeps (sub_of hm rfl) ?_ | with_reducible refine State.streamMod_keeps (sub_of hm rfl) ?_ | with_reducible refine State.chunkPacket_keeps (sub_of hm rfl) ?_ | split | dsimp only)

theorem execImportLineWrite_keeps {m : Nat} {x : State} {a0 : Fin 8} {a1 : BitVec 16} {a2 : BitVec 38} {a3 : Line} {a4 : BitVec 64} {s : State} (hm : Nat.land 314447559261966 m = 314447559261966)
    (h : Same m x s) : Ends m x (execImportLineWrite a0 a1 a2 a3 a4 s) := by
  unfold execImportLineWrite
  repeat' (first | with_reducible assumption | intro _ | with_reducible apply ends_next | with_reducible refine State.importCmd_keeps (sub_of hm rfl) ?_ | split | dsimp only)

theorem execImportTrailer_keeps {m : Nat} {x : State} {a0 : Fin 8} {a1 : BitVec 16} {a2 : BitVec 38} {a3 : Line} {a4 : BitVec 64} {s : State} (hm : Nat.land 314447559261966 m = 314447559261966)
    (h : Same m x s) : Ends m x (execImportTrailer a0 a1 a2 a3 a4 s) := by
  unfold execImportTrailer
  repeat' (first | with_reducible assumption | intro _ | with_reducible apply ends_next | with_reducible refine State.importCmd_keeps (sub_of hm rfl) ?_ | split | dsimp only)

theorem execImportChunkCommit_keeps {m : Nat} {x : State} {a0 : Fin 16} {s : State} (hm : Nat.land 314447559261966 m = 314447559261966)
    (h : Same m x s) : Ends m x (execImportChunkCommit a0 s) := by
  unfold execImportChunkCommit
  repeat' (first | with_reducible assumption | intro _ | with_reducible apply ends_next | with_reducible apply ends_ite | with_reducible apply same_ite | with_reducible apply same2_ite | with_reducible refine State.commitLines_keeps (sub_of hm rfl) ?_ | with_reducible refine State.commitLines_keeps_eq (sub_of hm rfl) (by assumption) ?_ | with_reducible refine State.xtsUse_keeps (sub_of hm rfl) ?_ | with_reducible refine State.pump_keeps (sub_of hm rfl) ?_ | with_reducible refine State.streamMod_keeps (sub_of hm rfl) ?_ | with_reducible refine State.windowFree_keeps (sub_of hm rfl) ?_ | with_reducible refine State.chunkPacket_keeps (sub_of hm rfl) ?_ | with_reducible refine State.streamEnd_keeps (sub_of hm rfl) ?_ | split | dsimp only)

theorem execKatRun_keeps {m : Nat} {x : State} {a0 : Path} {s : State} (hm : Nat.land 17246994440 m = 17246994440)
    (h : Same m x s) : Ends m x (execKatRun a0 s) := by
  unfold execKatRun
  repeat' (first | with_reducible assumption | intro _ | with_reducible apply ends_next | with_reducible apply ends_ite | with_reducible apply same_ite | with_reducible refine State.regAcc_keeps (sub_of hm rfl) ?_ | with_reducible refine State.setBit_keeps (sub_of hm rfl) ?_ ?_ | fail_if_no_progress with_reducible refine upd_ce (sub_of hm rfl) ?_ | with_reducible exact R.CE_CTL_ok (sub_of hm rfl) | with_reducible exact R.CE_STS_ok (sub_of hm rfl) | (with_reducible refine regOk_of (c := 7) (sub_of hm rfl) (blk7 ?_ ?_) <;> simp only [R.CE_CTL, R.CE_STS] <;> omega) | split | dsimp only)

theorem execCeCntClr_keeps {m : Nat} {x : State} {a0 : Path} {a1 : Word} {s : State} (hm : Nat.land 17246978056 m = 17246978056)
    (h : Same m x s) : Ends m x (execCeCntClr a0 a1 s) := by
  unfold execCeCntClr
  repeat' (first | with_reducible exact list_ok_nil | with_reducible refine list_ok_cons ?_ ?_ | with_reducible refine list_ok_append ?_ ?_ | with_reducible exact pc_ok | with_reducible refine range_ok ?_ | with_reducible assumption | intro _ | with_reducible apply ends_next | with_reducible apply same_when | with_reducible refine State.regAcc_keeps (sub_of hm rfl) ?_ | with_reducible refine State.zero_keeps (sub_of hm rfl) ?_ ?_ | with_reducible exact R.CE_CHUNK_BAD_ok (sub_of hm rfl) | with_reducible exact R.CE_CHUNK_OK_ok (sub_of hm rfl) | with_reducible exact R.CE_DERIVE_CNT_ok (sub_of hm rfl) | with_reducible exact R.CE_ENT_FAIL_ok (sub_of hm rfl) | with_reducible exact R.CE_RESEED_CNT_ok (sub_of hm rfl) | with_reducible exact R.CE_SEED_LATE_ok (sub_of hm rfl) | with_reducible exact R.CE_SLOTS_PEAK_ok (sub_of hm rfl) | with_reducible exact R.CE_TAG_FAIL_CNT_ok (sub_of hm rfl) | with_reducible exact R.CE_XF_DROP_ok (sub_of hm rfl) | (with_reducible refine regOk_of (c := 7) (sub_of hm rfl) (blk7 ?_ ?_) <;> simp only [R.CE_CHUNK_BAD, R.CE_CHUNK_OK, R.CE_DERIVE_CNT, R.CE_ENT_FAIL, R.CE_RESEED_CNT, R.CE_SEED_LATE, R.CE_SLOTS_PEAK, R.CE_TAG_FAIL_CNT, R.CE_XF_DROP] <;> omega) | split | dsimp only)

end Sys2Proof.Machine
end

