-- ==== Sys2Proof/Laws/FrameHostOps.lean ====
section
/-! SUPPORT. The frame of every operation of Machine/HostOps.lean, as a mask of the kinds of state that it may change. -/

set_option autoImplicit false
set_option linter.unusedTactic false
set_option linter.unreachableTactic false
set_option linter.unnecessarySeqFocus false
set_option linter.unusedSimpArgs false
set_option linter.unusedVariables false

namespace Sys2Proof.Machine

theorem State.clearPoison_keeps {m : Nat} {x : State} {s : State} {a1 : ReplyTo} {a2 : Nat} {a3 : Line} (hm : Nat.land 314447559261966 m = 314447559261966)
    (h : Same m x s) : Same m x (State.clearPoison s a1 a2 a3) := by
  unfold State.clearPoison
  repeat' (first | with_reducible assumption | intro _ | with_reducible refine State.enqueue_keeps (sub_of hm rfl) ?_ | with_reducible refine State.touched_keeps (sub_of hm rfl) ?_ | split | dsimp only)

theorem State.contextPrepare_keeps {m : Nat} {x : State} {s : State} {a1 : ReplyTo} {a2 : Nat} (hm : Nat.land 1116792277514 m = 1116792277514)
    (h : Same m x s) : Same m x (State.contextPrepare s a1 a2) := by
  unfold State.contextPrepare
  repeat' (first | with_reducible assumption | intro _ | with_reducible apply same_ite | with_reducible refine State.reply_keeps (sub_of hm rfl) ?_ | with_reducible refine State.dataSlotFor_keeps (sub_of hm rfl) (by assumption) ?_ | with_reducible refine State.noSlot_keeps (sub_of hm rfl) ?_ | with_reducible refine State.pcItem_keeps (sub_of hm rfl) ?_ | with_reducible refine State.keyMod_keeps (sub_of hm rfl) ?_ | with_reducible refine State.derive_keeps (sub_of hm rfl) ?_ | split | dsimp only)

theorem State.contextSet_keeps {m : Nat} {x : State} {s : State} {a1 : ReplyTo} {a2 : Nat} {a3 : Bool} {a4 : Nat} {a5 : Nat} (hm : Nat.land 282578884069642 m = 282578884069642)
    (h : Same m x s) : Same m x (State.contextSet s a1 a2 a3 a4 a5) := by
  unfold State.contextSet
  repeat' (first | with_reducible assumption | intro _ | with_reducible apply same_ite | with_reducible refine State.reply_keeps (sub_of hm rfl) ?_ | with_reducible refine State.setLabel_keeps (sub_of hm rfl) ?_ | with_reducible refine State.setBit_keeps (sub_of hm rfl) ?_ ?_ | with_reducible refine State.rotSave_keeps (sub_of hm rfl) ?_ | with_reducible refine State.regionSave_keeps (sub_of hm rfl) ?_ | with_reducible exact R.RT_RG_CTL_ok (sub_of hm rfl) | (with_reducible refine regOk_of (c := 21) (sub_of hm rfl) (blk21 ?_ ?_) <;> simp only [R.RT_RG_CTL] <;> omega) | split | dsimp only)

theorem State.disableNow_keeps {m : Nat} {x : State} {s : State} {a1 : Nat} (hm : Nat.land 283283258667786 m = 283283258667786)
    (h : Same m x s) : Same m x (State.disableNow s a1) := by
  unfold State.disableNow
  repeat' (first | with_reducible assumption | intro _ | with_reducible refine State.dcRecord_keeps (sub_of hm rfl) ?_ | with_reducible refine State.regionOff_keeps (sub_of hm rfl) ?_ | split | dsimp only)

theorem State.discardAbove_keeps {m : Nat} {x : State} {s : State} {a1 : Nat} {a2 : Nat} {a3 : Bool} (hm : Nat.land 171865888778 m = 171865888778)
    (h : Same m x s) : Same m x (State.discardAbove s a1 a2 a3) := by
  unfold State.discardAbove
  repeat' (first | with_reducible assumption | intro _ | with_reducible apply same_ite | with_reducible apply same_foldl | with_reducible refine State.lcInvalidate_keeps (sub_of hm rfl) ?_ | with_reducible refine State.release_keeps (sub_of hm rfl) ?_ | fail_if_no_progress with_reducible refine upd_lc (sub_of hm rfl) ?_ | fail_if_no_progress with_reducible refine upd_rt_ce (sub_of hm rfl) ?_ | split | dsimp only)

theorem State.discardSlot_keeps {m : Nat} {x : State} {s : State} {a1 : Nat} (hm : Nat.land 137506138122 m = 137506138122)
    (h : Same m x s) : Same m x (State.discardSlot s a1) := by
  unfold State.discardSlot
  repeat' (first | with_reducible assumption | intro _ | with_reducible apply same_ite | with_reducible refine State.slotMod_keeps (sub_of hm rfl) ?_ | with_reducible refine State.release_keeps (sub_of hm rfl) ?_ | fail_if_no_progress with_reducible refine upd_te (sub_of hm rfl) ?_ | split | dsimp only)

theorem State.discardTile_keeps {m : Nat} {x : State} {s : State} {a1 : Nat} (hm : Nat.land 755981461514 m = 755981461514)
    (h : Same m x s) : Same m x (State.discardTile s a1) := by
  unfold State.discardTile
  repeat' (first | with_reducible assumption | intro _ | with_reducible apply same_ite | with_reducible refine State.discardSlot_keeps (sub_of hm rfl) ?_ | with_reducible refine State.ptChanged_keeps (sub_of hm rfl) ?_ | with_reducible refine State.setBit_keeps (sub_of hm rfl) ?_ ?_ | with_reducible refine State.subCnt_keeps (sub_of hm rfl) ?_ ?_ | with_reducible refine State.touched_keeps (sub_of hm rfl) ?_ | with_reducible refine State.setEntry_keeps (sub_of hm rfl) ?_ | fail_if_no_progress with_reducible refine upd_te (sub_of hm rfl) ?_ | fail_if_no_progress with_reducible refine upd_te_hp (sub_of hm rfl) ?_ | with_reducible exact R.TE_PT_LINES_ok (sub_of hm rfl) | with_reducible exact R.TE_PT_TILES_ok (sub_of hm rfl) | with_reducible exact R.TE_PT_WHOLE_ok (sub_of hm rfl) | with_reducible exact R.TE_STS_ok (sub_of hm rfl) | (with_reducible refine regOk_of (c := 9) (sub_of hm rfl) (blk9 ?_ ?_) <;> simp only [R.TE_PT_LINES, R.TE_PT_TILES, R.TE_PT_WHOLE, R.TE_STS] <;> omega) | split | dsimp only)

theorem State.discardRange_keeps {m : Nat} {x : State} {s : State} {a1 : Nat} {a2 : Nat} {a3 : Bool} (hm : Nat.land 314447559261966 m = 314447559261966)
    (h : Same m x s) : Same m x (State.discardRange s a1 a2 a3) := by
  unfold State.discardRange
  repeat' (first | with_reducible assumption | intro _ | with_reducible apply same_foldl | with_reducible refine State.discardTile_keeps (sub_of hm rfl) ?_ | with_reducible refine State.discardAbove_keeps (sub_of hm rfl) ?_ | with_reducible refine State.pump_keeps (sub_of hm rfl) ?_ | with_reducible refine State.tsStatus_keeps (sub_of hm rfl) ?_ | with_reducible refine State.afterMap_keeps (sub_of hm rfl) ?_ | with_reducible refine State.journal_keeps (sub_of hm rfl) ?_ | split | dsimp only)

theorem State.injectPoison_keeps {m : Nat} {x : State} {s : State} {a1 : ReplyTo} {a2 : Nat} (hm : Nat.land 314447559261966 m = 314447559261966)
    (h : Same m x s) : Same m x (State.injectPoison s a1 a2) := by
  unfold State.injectPoison
  repeat' (first | with_reducible assumption | intro _ | with_reducible refine State.enqueue_keeps (sub_of hm rfl) ?_ | split | dsimp only)

theorem State.regionDisable_keeps {m : Nat} {x : State} {s : State} {a1 : ReplyTo} {a2 : Nat} {a3 : Bool} (hm : Nat.land 283283258735370 m = 283283258735370)
    (h : Same m x s) : Same m x (State.regionDisable s a1 a2 a3) := by
  unfold State.regionDisable
  repeat' (first | with_reducible assumption | intro _ | with_reducible apply same_ite | with_reducible refine State.reply_keeps (sub_of hm rfl) ?_ | with_reducible refine State.disableNow_keeps (sub_of hm rfl) ?_ | with_reducible refine State.dcRecord_keeps (sub_of hm rfl) ?_ | fail_if_no_progress with_reducible refine upd_hp (sub_of hm rfl) ?_ | split | dsimp only)

theorem State.regionEnable_keeps {m : Nat} {x : State} {s : State} {a1 : ReplyTo} {a2 : Nat} (hm : Nat.land 283145819777802 m = 283145819777802)
    (h : Same m x s) : Same m x (State.regionEnable s a1 a2) := by
  unfold State.regionEnable
  repeat' (first | with_reducible assumption | intro _ | with_reducible apply same_ite | with_reducible refine State.reply_keeps (sub_of hm rfl) ?_ | with_reducible refine State.dataSlotFor_keeps (sub_of hm rfl) (by assumption) ?_ | with_reducible refine State.noSlot_keeps (sub_of hm rfl) ?_ | with_reducible refine State.regionOn_keeps (sub_of hm rfl) ?_ | with_reducible refine State.setRgSlot_keeps (sub_of hm rfl) ?_ | with_reducible refine State.derive_keeps (sub_of hm rfl) ?_ | fail_if_no_progress with_reducible refine upd_ce (sub_of hm rfl) ?_ | split | dsimp only)

theorem State.rgStore_keeps {m : Nat} {x : State} {s : State} {a1 : Nat} {a2 : RgAttr} (hm : Nat.land 281479338819850 m = 281479338819850)
    (h : Same m x s) : Same m x (State.rgStore s a1 a2) := by
  unfold State.rgStore
  repeat' (first | with_reducible assumption | intro _ | with_reducible apply same_ite | with_reducible refine State.setBit_keeps (sub_of hm rfl) ?_ ?_ | with_reducible refine State.wrN_keeps (sub_of hm rfl) ?_ ?_ | with_reducible refine State.set_keeps (sub_of hm rfl) ?_ ?_ | with_reducible refine State.regionSave_keeps (sub_of hm rfl) ?_ | with_reducible refine State.setLabel_keeps (sub_of hm rfl) ?_ | fail_if_no_progress with_reducible refine upd_hp (sub_of hm rfl) ?_ | with_reducible exact R.CAR_STS_ok (sub_of hm rfl) | with_reducible exact R.RT_RG_BASE_ok (sub_of hm rfl) | with_reducible exact R.RT_RG_CTL_ok (sub_of hm rfl) | with_reducible exact R.RT_RG_SIZE_ok (sub_of hm rfl) | (with_reducible refine regOk_of (c := 21) (sub_of hm rfl) (blk21 ?_ ?_) <;> simp only [R.RT_RG_BASE, R.RT_RG_CTL, R.RT_RG_SIZE] <;> omega) | split | dsimp only)

theorem State.regionSet_keeps {m : Nat} {x : State} {s : State} {a1 : ReplyTo} {a2 : Nat} {a3 : RgAttr} (hm : Nat.land 282578884069642 m = 282578884069642)
    (h : Same m x s) : Same m x (State.regionSet s a1 a2 a3) := by
  unfold State.regionSet
  repeat' (first | with_reducible assumption | intro _ | with_reducible apply same_ite | with_reducible refine State.reply_keeps (sub_of hm rfl) ?_ | with_reducible refine State.rgStore_keeps (sub_of hm rfl) ?_ | split | dsimp only)

theorem State.rekey_keeps {m : Nat} {x : State} {s : State} {a1 : ReplyTo} {a2 : Nat} {a3 : Bool} (hm : Nat.land 1116792277514 m = 1116792277514)
    (h : Same m x s) : Same m x (State.rekey s a1 a2 a3) := by
  unfold State.rekey
  repeat' (first | with_reducible assumption | intro _ | with_reducible apply same_ite | with_reducible refine State.reply_keeps (sub_of hm rfl) ?_ | with_reducible refine State.noSlot_keeps (sub_of hm rfl) ?_ | with_reducible refine State.derive_keeps (sub_of hm rfl) ?_ | with_reducible refine State.keySlotTake_keeps (sub_of hm rfl) ?_ | split | dsimp only)

theorem State.secureAccept_keeps {m : Nat} {x : State} {s : State} {a1 : Discard} (hm : Nat.land 314447559261966 m = 314447559261966)
    (h : Same m x s) : Same m x (State.secureAccept s a1) := by
  unfold State.secureAccept
  repeat' (first | with_reducible assumption | intro _ | with_reducible apply same_ite | with_reducible refine State.journalFlush_keeps (sub_of hm rfl) ?_ | with_reducible refine State.discardRange_keeps (sub_of hm rfl) ?_ | with_reducible refine State.crd_keeps (sub_of hm rfl) ?_ | with_reducible refine State.car_keeps (sub_of hm rfl) ?_ | with_reducible refine State.discardShow_keeps (sub_of hm rfl) ?_ | fail_if_no_progress with_reducible refine upd_te (sub_of hm rfl) ?_ | split | dsimp only)

end Sys2Proof.Machine
end

