-- ==== Sys2Proof/Laws/FrameTwinOps.lean ====
section
/-! SUPPORT. The frame of every operation of Machine/TwinOps.lean, as a mask of the kinds of state that it may change. -/

set_option autoImplicit false
set_option linter.unusedTactic false
set_option linter.unreachableTactic false
set_option linter.unnecessarySeqFocus false
set_option linter.unusedSimpArgs false
set_option linter.unusedVariables false

namespace Sys2Proof.Machine

theorem State.recordRole_keeps {m : Nat} {x : State} {s : State} {a1 : Nat} (hm : Nat.land 4362076426 m = 4362076426)
    (h : Same m x s) : Same m x (State.recordRole s a1) := by
  unfold State.recordRole
  repeat' (first | with_reducible assumption | intro _ | with_reducible refine State.pstAdd_keeps (sub_of hm rfl) ?_ | split | dsimp only)

theorem State.pullToken_keeps {m : Nat} {x : State} {s : State} {a1 : Bool} (hm : Nat.land 67174410 m = 67174410)
    (h : Same m x s) : Same m x (State.pullToken s a1) := by
  unfold State.pullToken
  repeat' (first | with_reducible assumption | intro _ | with_reducible apply same_ite | with_reducible refine State.emit_keeps (sub_of hm rfl) ?_ | fail_if_no_progress with_reducible refine upd_tw (sub_of hm rfl) ?_ | split | dsimp only)

theorem State.holdToken_keeps {m : Nat} {x : State} {s : State} {a1 : Bool} (hm : Nat.land 549822988298 m = 549822988298)
    (h : Same m x s) : Same m x (State.holdToken s a1) := by
  unfold State.holdToken
  repeat' (first | with_reducible assumption | intro _ | with_reducible refine State.setBit_keeps (sub_of hm rfl) ?_ ?_ | with_reducible refine State.pullToken_keeps (sub_of hm rfl) ?_ | with_reducible exact R.CAR_STS_ok (sub_of hm rfl) | (with_reducible refine regOk_of (c := 12) (sub_of hm rfl) (blk12 ?_ ?_) <;> simp only [R.CAR_STS] <;> omega) | split | dsimp only)

theorem State.cmdsAlone_keeps {m : Nat} {x : State} {s : State} (hm : Nat.land 282574589110282 m = 282574589110282)
    (h : Same m x s) : Same m x (State.cmdsAlone s) := by
  unfold State.cmdsAlone
  repeat' (first | with_reducible assumption | intro _ | with_reducible apply same_ite | with_reducible apply same_foldl | with_reducible refine State.twinSettle_keeps (sub_of hm rfl) ?_ | with_reducible refine State.discardShow_keeps (sub_of hm rfl) ?_ | fail_if_no_progress with_reducible refine upd_te (sub_of hm rfl) ?_ | fail_if_no_progress with_reducible refine upd_tw (sub_of hm rfl) ?_ | split | dsimp only)

theorem State.unpair_keeps {m : Nat} {x : State} {s : State} (hm : Nat.land 549755895816 m = 549755895816)
    (h : Same m x s) : Same m x (State.unpair s) := by
  unfold State.unpair
  repeat' (first | with_reducible assumption | intro _ | with_reducible apply same_foldl | with_reducible refine State.bmapSet_keeps (sub_of hm rfl) ?_ | with_reducible refine State.keyRelease_keeps (sub_of hm rfl) ?_ | with_reducible refine State.wrN_keeps (sub_of hm rfl) ?_ ?_ | with_reducible refine State.setBit_keeps (sub_of hm rfl) ?_ ?_ | fail_if_no_progress with_reducible refine upd_tw (sub_of hm rfl) ?_ | with_reducible exact R.CAR_RSYNC_ok (sub_of hm rfl) | with_reducible exact R.CAR_STS_ok (sub_of hm rfl) | (with_reducible refine regOk_of (c := 12) (sub_of hm rfl) (blk12 ?_ ?_) <;> simp only [R.CAR_RSYNC, R.CAR_STS] <;> omega) | split | dsimp only)

theorem State.disown_keeps {m : Nat} {x : State} {s : State} (hm : Nat.land 2048 m = 2048)
    (h : Same m x s) : Same m x (State.disown s) := by
  unfold State.disown
  repeat' (first | with_reducible assumption | intro _ | fail_if_no_progress with_reducible refine upd_rt (sub_of hm rfl) ?_ | split | dsimp only)

theorem State.dropAccepted_keeps {m : Nat} {x : State} {s : State} {a1 : Req} (hm : Nat.land 9895722192398 m = 9895722192398)
    (h : Same m x s) : Same m x (State.dropAccepted s a1) := by
  unfold State.dropAccepted
  repeat' (first | with_reducible assumption | intro _ | with_reducible apply same_ite | with_reducible refine State.wakeAfter_keeps (sub_of hm rfl) ?_ | with_reducible refine State.respond_keeps (sub_of hm rfl) ?_ | with_reducible refine State.bump_keeps (sub_of hm rfl) ?_ ?_ | fail_if_no_progress with_reducible refine upd_rt (sub_of hm rfl) ?_ | with_reducible exact R.RT_WR_DROP_STATE_ok (sub_of hm rfl) | (with_reducible refine regOk_of (c := 16) (sub_of hm rfl) (blk16 ?_ ?_) <;> simp only [R.RT_WR_DROP_STATE] <;> omega) | split | dsimp only)

theorem State.fence_keeps {m : Nat} {x : State} {s : State} (hm : Nat.land 314447559261966 m = 314447559261966)
    (h : Same m x s) : Same m x (State.fence s) := by
  unfold State.fence
  repeat' (first | with_reducible assumption | intro _ | with_reducible apply same_ite | with_reducible apply same_foldl | with_reducible refine State.setBit_keeps (sub_of hm rfl) ?_ ?_ | with_reducible refine State.flistAdd_keeps (sub_of hm rfl) ?_ | with_reducible refine State.recordRole_keeps (sub_of hm rfl) ?_ | with_reducible refine State.set_keeps (sub_of hm rfl) ?_ ?_ | with_reducible refine State.holdToken_keeps (sub_of hm rfl) ?_ | with_reducible refine State.cmdsAlone_keeps (sub_of hm rfl) ?_ | with_reducible refine State.unpair_keeps (sub_of hm rfl) ?_ | with_reducible refine State.disown_keeps (sub_of hm rfl) ?_ | with_reducible refine State.respond_keeps (sub_of hm rfl) ?_ | with_reducible refine State.dropAccepted_keeps (sub_of hm rfl) ?_ | with_reducible refine State.pump_keeps (sub_of hm rfl) ?_ | fail_if_no_progress with_reducible refine upd_tw (sub_of hm rfl) ?_ | with_reducible exact R.CAR_RG_STS_ok (sub_of hm rfl) | with_reducible exact R.CAR_STS_ok (sub_of hm rfl) | (with_reducible refine regOk_of (c := 12) (sub_of hm rfl) (blk12 ?_ ?_) <;> simp only [R.CAR_RG_STS, R.CAR_STS] <;> omega) | split | dsimp only)

theorem State.raiseGen_keeps {m : Nat} {x : State} {s : State} {a1 : Nat} (hm : Nat.land 554117890314 m = 554117890314)
    (h : Same m x s) : Same m x (State.raiseGen s a1) := by
  unfold State.raiseGen
  repeat' (first | with_reducible assumption | intro _ | with_reducible refine State.pstAdd_keeps (sub_of hm rfl) ?_ | with_reducible refine State.wrN_keeps (sub_of hm rfl) ?_ ?_ | with_reducible exact R.CAR_PAIR_GEN_ok (sub_of hm rfl) | (with_reducible refine regOk_of (c := 12) (sub_of hm rfl) (blk12 ?_ ?_) <;> simp only [R.CAR_PAIR_GEN] <;> omega) | split | dsimp only)

theorem State.linkDown_keeps {m : Nat} {x : State} {s : State} {a1 : Nat} (hm : Nat.land 549755879432 m = 549755879432)
    (h : Same m x s) : Same m x (State.linkDown s a1) := by
  unfold State.linkDown
  repeat' (first | with_reducible assumption | intro _ | with_reducible refine State.set_keeps (sub_of hm rfl) ?_ ?_ | with_reducible refine State.setBit_keeps (sub_of hm rfl) ?_ ?_ | fail_if_no_progress with_reducible refine upd_tw (sub_of hm rfl) ?_ | with_reducible exact R.CAR_STS_ok (sub_of hm rfl) | (with_reducible refine regOk_of (c := 12) (sub_of hm rfl) (blk12 ?_ ?_) <;> simp only [R.CAR_STS] <;> omega) | split | dsimp only)

theorem State.admitSelf_keeps {m : Nat} {x : State} {s : State} (hm : Nat.land 549822989322 m = 549822989322)
    (h : Same m x s) : Same m x (State.admitSelf s) := by
  unfold State.admitSelf
  repeat' (first | with_reducible assumption | intro _ | with_reducible apply same_foldl | with_reducible refine State.set_keeps (sub_of hm rfl) ?_ ?_ | with_reducible refine State.setBit_keeps (sub_of hm rfl) ?_ ?_ | with_reducible refine State.unfence_keeps (sub_of hm rfl) ?_ | with_reducible refine State.car_keeps (sub_of hm rfl) ?_ | fail_if_no_progress with_reducible refine upd_tw (sub_of hm rfl) ?_ | with_reducible exact R.CAR_RG_STS_ok (sub_of hm rfl) | with_reducible exact R.CAR_STS_ok (sub_of hm rfl) | (with_reducible refine regOk_of (c := 12) (sub_of hm rfl) (blk12 ?_ ?_) <;> simp only [R.CAR_RG_STS, R.CAR_STS] <;> omega) | split | dsimp only)

theorem State.startSource_keeps {m : Nat} {x : State} {s : State} {a1 : List Nat} {a2 : Bool} (hm : Nat.land 549755880456 m = 549755880456)
    (h : Same m x s) : Same m x (State.startSource s a1 a2) := by
  unfold State.startSource
  repeat' (first | with_reducible assumption | intro _ | with_reducible apply same_ite | with_reducible apply same_foldl | with_reducible refine State.unfence_keeps (sub_of hm rfl) ?_ | with_reducible refine State.wrN_keeps (sub_of hm rfl) ?_ ?_ | with_reducible refine State.set_keeps (sub_of hm rfl) ?_ ?_ | with_reducible refine State.setBit_keeps (sub_of hm rfl) ?_ ?_ | fail_if_no_progress with_reducible refine upd_tw (sub_of hm rfl) ?_ | with_reducible exact R.CAR_RSYNC_ok (sub_of hm rfl) | with_reducible exact R.CAR_STS_ok (sub_of hm rfl) | (with_reducible refine regOk_of (c := 12) (sub_of hm rfl) (blk12 ?_ ?_) <;> simp only [R.CAR_RSYNC, R.CAR_STS] <;> omega) | split | dsimp only)

theorem State.admitTwin_keeps {m : Nat} {x : State} {s : State} (hm : Nat.land 549822989322 m = 549822989322)
    (h : Same m x s) : Same m x (State.admitTwin s) := by
  unfold State.admitTwin
  repeat' (first | with_reducible assumption | intro _ | with_reducible apply same_ite | with_reducible apply same_foldl | with_reducible refine State.set_keeps (sub_of hm rfl) ?_ ?_ | with_reducible refine State.startSource_keeps (sub_of hm rfl) ?_ | with_reducible refine State.sendCmd_keeps (sub_of hm rfl) ?_ | with_reducible exact R.CAR_RG_STS_ok (sub_of hm rfl) | with_reducible exact R.CAR_STS_ok (sub_of hm rfl) | with_reducible exact R.RT_RG_CTL_ok (sub_of hm rfl) | (with_reducible refine regOk_of (c := 12) (sub_of hm rfl) (blk12 ?_ ?_) <;> simp only [R.CAR_RG_STS, R.CAR_STS] <;> omega) | split | dsimp only)

theorem State.recordSolo_keeps {m : Nat} {x : State} {s : State} (hm : Nat.land 554117890314 m = 554117890314)
    (h : Same m x s) : Same m x (State.recordSolo s) := by
  unfold State.recordSolo
  repeat' (first | with_reducible assumption | intro _ | with_reducible refine State.recordRole_keeps (sub_of hm rfl) ?_ | with_reducible refine State.pstAdd_keeps (sub_of hm rfl) ?_ | with_reducible refine State.wrN_keeps (sub_of hm rfl) ?_ ?_ | with_reducible exact R.CAR_PAIR_GEN_ok (sub_of hm rfl) | (with_reducible refine regOk_of (c := 12) (sub_of hm rfl) (blk12 ?_ ?_) <;> simp only [R.CAR_PAIR_GEN] <;> omega) | split | dsimp only)

theorem State.attach_keeps {m : Nat} {x : State} {s : State} (hm : Nat.land 549822989322 m = 549822989322)
    (h : Same m x s) : Same m x (State.attach s) := by
  unfold State.attach
  repeat' (first | with_reducible assumption | intro _ | with_reducible apply same_ite | with_reducible refine State.set_keeps (sub_of hm rfl) ?_ ?_ | with_reducible refine State.setBit_keeps (sub_of hm rfl) ?_ ?_ | with_reducible refine State.admitTwin_keeps (sub_of hm rfl) ?_ | fail_if_no_progress with_reducible refine upd_tw (sub_of hm rfl) ?_ | with_reducible exact R.CAR_STS_ok (sub_of hm rfl) | (with_reducible refine regOk_of (c := 12) (sub_of hm rfl) (blk12 ?_ ?_) <;> simp only [R.CAR_STS] <;> omega) | split | dsimp only)

theorem State.linkEvent_keeps {m : Nat} {x : State} {s : State} {a1 : Bool} (hm : Nat.land 67109384 m = 67109384)
    (h : Same m x s) : Same m x (State.linkEvent s a1) := by
  unfold State.linkEvent
  repeat' (first | with_reducible assumption | intro _ | with_reducible apply same_when | with_reducible refine State.roll_keeps (sub_of hm rfl) ?_ | split | dsimp only)

theorem State.becomePaired_keeps {m : Nat} {x : State} {s : State} (hm : Nat.land 554117956874 m = 554117956874)
    (h : Same m x s) : Same m x (State.becomePaired s) := by
  unfold State.becomePaired
  repeat' (first | with_reducible assumption | intro _ | with_reducible refine State.bmapShow_keeps (sub_of hm rfl) ?_ | with_reducible refine State.recordRole_keeps (sub_of hm rfl) ?_ | with_reducible refine State.set_keeps (sub_of hm rfl) ?_ ?_ | with_reducible refine State.unfence_keeps (sub_of hm rfl) ?_ | fail_if_no_progress with_reducible refine upd_tw (sub_of hm rfl) ?_ | with_reducible exact R.CAR_STS_ok (sub_of hm rfl) | (with_reducible refine regOk_of (c := 12) (sub_of hm rfl) (blk12 ?_ ?_) <;> simp only [R.CAR_STS] <;> omega) | split | dsimp only)

theorem State.startBitmap_keeps {m : Nat} {x : State} {s : State} (hm : Nat.land 549755879432 m = 549755879432)
    (h : Same m x s) : Same m x (State.startBitmap s) := by
  unfold State.startBitmap
  repeat' (first | with_reducible assumption | intro _ | with_reducible apply same_ite | with_reducible apply same_foldl | with_reducible refine State.bmapShow_keeps (sub_of hm rfl) ?_ | with_reducible refine State.setBit_keeps (sub_of hm rfl) ?_ ?_ | fail_if_no_progress with_reducible refine upd_tw (sub_of hm rfl) ?_ | with_reducible exact R.CAR_STS_ok (sub_of hm rfl) | (with_reducible refine regOk_of (c := 12) (sub_of hm rfl) (blk12 ?_ ?_) <;> simp only [R.CAR_STS] <;> omega) | split | dsimp only)

theorem State.becomeSolo_keeps {m : Nat} {x : State} {s : State} (hm : Nat.land 314447559261966 m = 314447559261966)
    (h : Same m x s) : Same m x (State.becomeSolo s) := by
  unfold State.becomeSolo
  repeat' (first | with_reducible assumption | intro _ | with_reducible apply same_ite | with_reducible apply same_foldl | with_reducible refine State.recordSolo_keeps (sub_of hm rfl) ?_ | with_reducible refine State.startBitmap_keeps (sub_of hm rfl) ?_ | with_reducible refine State.set_keeps (sub_of hm rfl) ?_ ?_ | with_reducible refine State.holdToken_keeps (sub_of hm rfl) ?_ | with_reducible refine State.unpair_keeps (sub_of hm rfl) ?_ | with_reducible refine State.disown_keeps (sub_of hm rfl) ?_ | with_reducible refine State.cmdsAlone_keeps (sub_of hm rfl) ?_ | with_reducible refine State.respond_keeps (sub_of hm rfl) ?_ | with_reducible refine State.pump_keeps (sub_of hm rfl) ?_ | fail_if_no_progress with_reducible refine upd_rt (sub_of hm rfl) ?_ | fail_if_no_progress with_reducible refine upd_tw (sub_of hm rfl) ?_ | with_reducible exact R.CAR_RG_STS_ok (sub_of hm rfl) | with_reducible exact R.CAR_STS_ok (sub_of hm rfl) | (with_reducible refine regOk_of (c := 12) (sub_of hm rfl) (blk12 ?_ ?_) <;> simp only [R.CAR_RG_STS, R.CAR_STS] <;> omega) | split | dsimp only)

theorem State.sendDown_keeps {m : Nat} {x : State} {s : State} {a1 : Nat} (hm : Nat.land 549822988298 m = 549822988298)
    (h : Same m x s) : Same m x (State.sendDown s a1) := by
  unfold State.sendDown
  repeat' (first | with_reducible assumption | intro _ | with_reducible apply same_ite | with_reducible refine State.holdToken_keeps (sub_of hm rfl) ?_ | with_reducible refine State.bump_keeps (sub_of hm rfl) ?_ ?_ | with_reducible refine State.linkDown_keeps (sub_of hm rfl) ?_ | with_reducible refine State.car_keeps (sub_of hm rfl) ?_ | with_reducible exact R.CAR_LINK_DOWN_ok (sub_of hm rfl) | with_reducible exact R.CAR_STS_ok (sub_of hm rfl) | (with_reducible refine regOk_of (c := 12) (sub_of hm rfl) (blk12 ?_ ?_) <;> simp only [R.CAR_LINK_DOWN, R.CAR_STS] <;> omega) | split | dsimp only)

theorem State.failoverSample_keeps {m : Nat} {x : State} {s : State} {a1 : Nat} {a2 : Nat} (hm : Nat.land 549822988298 m = 549822988298)
    (h : Same m x s) : Same m x (State.failoverSample s a1 a2) := by
  unfold State.failoverSample
  repeat' (first | with_reducible assumption | intro _ | with_reducible apply same_ite | with_reducible refine State.pullToken_keeps (sub_of hm rfl) ?_ | with_reducible refine State.holdToken_keeps (sub_of hm rfl) ?_ | fail_if_no_progress with_reducible refine upd_tw (sub_of hm rfl) ?_ | split | dsimp only)

theorem State.linkLoss_keeps {m : Nat} {x : State} {s : State} {a1 : Nat} (hm : Nat.land 549823005194 m = 549823005194)
    (h : Same m x s) : Same m x (State.linkLoss s a1) := by
  unfold State.linkLoss
  repeat' (first | with_reducible assumption | intro _ | with_reducible apply same_ite | with_reducible refine State.bump_keeps (sub_of hm rfl) ?_ ?_ | with_reducible refine State.linkDown_keeps (sub_of hm rfl) ?_ | with_reducible refine State.failoverSample_keeps (sub_of hm rfl) ?_ | with_reducible refine State.setBit_keeps (sub_of hm rfl) ?_ ?_ | with_reducible refine State.emit_keeps (sub_of hm rfl) ?_ | with_reducible refine State.linkEvent_keeps (sub_of hm rfl) ?_ | with_reducible refine State.unpair_keeps (sub_of hm rfl) ?_ | with_reducible exact R.CAR_LINK_DOWN_ok (sub_of hm rfl) | with_reducible exact R.CAR_STS_ok (sub_of hm rfl) | (with_reducible refine regOk_of (c := 12) (sub_of hm rfl) (blk12 ?_ ?_) <;> simp only [R.CAR_LINK_DOWN, R.CAR_STS] <;> omega) | split | dsimp only)

theorem State.failoverEnd_keeps {m : Nat} {x : State} {s : State} (hm : Nat.land 1649334649352 m = 1649334649352)
    (h : Same m x s) : Same m x (State.failoverEnd s) := by
  unfold State.failoverEnd
  repeat' (first | with_reducible assumption | intro _ | with_reducible refine State.wrN_keeps (sub_of hm rfl) ?_ ?_ | with_reducible refine State.setBit_keeps (sub_of hm rfl) ?_ ?_ | with_reducible refine State.roll_keeps (sub_of hm rfl) ?_ | with_reducible refine State.bump_keeps (sub_of hm rfl) ?_ ?_ | with_reducible refine State.maxIn_keeps (sub_of hm rfl) ?_ ?_ | with_reducible refine State.moduleEvent_keeps (sub_of hm rfl) ?_ | fail_if_no_progress with_reducible refine upd_tw (sub_of hm rfl) ?_ | with_reducible exact R.CAR_FO_CNT_ok (sub_of hm rfl) | with_reducible exact R.CAR_FO_LAST_ok (sub_of hm rfl) | with_reducible exact R.CAR_FO_MAX_ok (sub_of hm rfl) | with_reducible exact R.CAR_STS_ok (sub_of hm rfl) | (with_reducible refine regOk_of (c := 12) (sub_of hm rfl) (blk12 ?_ ?_) <;> simp only [R.CAR_FO_CNT, R.CAR_FO_LAST, R.CAR_FO_MAX, R.CAR_STS] <;> omega) | split | dsimp only)

theorem State.failoverHigh_keeps {m : Nat} {x : State} {s : State} {a1 : Failover} (hm : Nat.land 549822988298 m = 549822988298)
    (h : Same m x s) : Same m x (State.failoverHigh s a1) := by
  unfold State.failoverHigh
  repeat' (first | with_reducible assumption | intro _ | with_reducible apply same_ite | with_reducible refine State.holdToken_keeps (sub_of hm rfl) ?_ | fail_if_no_progress with_reducible refine upd_tw (sub_of hm rfl) ?_ | split | dsimp only)

theorem State.inSyncAll_keeps {m : Nat} {x : State} {s : State} (hm : Nat.land 549755813896 m = 549755813896)
    (h : Same m x s) : Same m x (State.inSyncAll s) := by
  unfold State.inSyncAll
  repeat' (first | with_reducible assumption | intro _ | with_reducible apply same_foldl | with_reducible refine State.set_keeps (sub_of hm rfl) ?_ ?_ | with_reducible exact R.CAR_RG_STS_ok (sub_of hm rfl) | with_reducible exact R.CAR_STS_ok (sub_of hm rfl) | with_reducible exact R.RT_RG_CTL_ok (sub_of hm rfl) | (with_reducible refine regOk_of (c := 12) (sub_of hm rfl) (blk12 ?_ ?_) <;> simp only [R.CAR_RG_STS, R.CAR_STS] <;> omega) | split | dsimp only)

theorem State.pairStream_keeps {m : Nat} {x : State} {s : State} {a1 : Nat} {a2 : Nat} {a3 : Nat} {t : State} {u0 : Nat} (hm : Nat.land 17179885580 m = 17179885580)
    (e : State.pairStream s a1 a2 a3 = some (u0, t)) (h : Same m x s) : Same m x t := by
  unfold State.pairStream at e
  (try dsimp only at e)
  (repeat' split at e) <;> (try cases e) <;> repeat' (first | with_reducible assumption | intro _ | with_reducible refine State.keyLoad_keeps (sub_of hm rfl) ?_ | with_reducible refine State.keySlotTake_keeps (sub_of hm rfl) ?_ | with_reducible refine State.keyUse_keeps (sub_of hm rfl) ?_ | with_reducible refine State.bump_keeps (sub_of hm rfl) ?_ ?_ | with_reducible exact R.CE_DERIVE_CNT_ok (sub_of hm rfl) | (with_reducible refine regOk_of (c := 7) (sub_of hm rfl) (blk7 ?_ ?_) <;> simp only [R.CE_DERIVE_CNT] <;> omega) | split | dsimp only)

theorem State.resyncEnd_keeps {m : Nat} {x : State} {s : State} (hm : Nat.land 554117956874 m = 554117956874)
    (h : Same m x s) : Same m x (State.resyncEnd s) := by
  unfold State.resyncEnd
  repeat' (first | with_reducible assumption | intro _ | with_reducible apply same_ite | with_reducible refine State.becomePaired_keeps (sub_of hm rfl) ?_ | with_reducible refine State.raiseGen_keeps (sub_of hm rfl) ?_ | with_reducible refine State.setBit_keeps (sub_of hm rfl) ?_ ?_ | with_reducible refine State.wrN_keeps (sub_of hm rfl) ?_ ?_ | with_reducible refine State.car_keeps (sub_of hm rfl) ?_ | fail_if_no_progress with_reducible refine upd_tw (sub_of hm rfl) ?_ | with_reducible exact R.CAR_PAIR_GEN_ok (sub_of hm rfl) | with_reducible exact R.CAR_RSYNC_ok (sub_of hm rfl) | with_reducible exact R.CAR_STS_ok (sub_of hm rfl) | (with_reducible refine regOk_of (c := 12) (sub_of hm rfl) (blk12 ?_ ?_) <;> simp only [R.CAR_PAIR_GEN, R.CAR_RSYNC, R.CAR_STS] <;> omega) | split | dsimp only)

theorem State.rsShow_keeps {m : Nat} {x : State} {s : State} {a1 : RsSource} (hm : Nat.land 549755813896 m = 549755813896)
    (h : Same m x s) : Same m x (State.rsShow s a1) := by
  unfold State.rsShow
  repeat' (first | with_reducible assumption | intro _ | with_reducible refine State.setBit_keeps (sub_of hm rfl) ?_ ?_ | with_reducible refine State.set_keeps (sub_of hm rfl) ?_ ?_ | with_reducible exact R.CAR_RSYNC_ok (sub_of hm rfl) | (with_reducible refine regOk_of (c := 12) (sub_of hm rfl) (blk12 ?_ ?_) <;> simp only [R.CAR_RSYNC] <;> omega) | split | dsimp only)

theorem State.rsBegin_keeps {m : Nat} {x : State} {s : State} {a1 : RsSource} {a2 : Nat} {a3 : List Nat} (hm : Nat.land 567002873870 m = 567002873870)
    (h : Same m x s) : Same m x (State.rsBegin s a1 a2 a3) := by
  unfold State.rsBegin
  repeat' (first | with_reducible assumption | intro _ | with_reducible refine State.pairStream_keeps (sub_of hm rfl) (by assumption) ?_ | with_reducible refine State.car_keeps (sub_of hm rfl) ?_ | with_reducible refine State.drawn_keeps (sub_of hm rfl) ?_ | with_reducible refine State.rsShow_keeps (sub_of hm rfl) ?_ | fail_if_no_progress with_reducible refine upd_tw (sub_of hm rfl) ?_ | split | dsimp only)

theorem State.rsRegionDone_keeps {m : Nat} {x : State} {s : State} {a1 : RsSource} {a2 : Nat} (hm : Nat.land 554117973258 m = 554117973258)
    (h : Same m x s) : Same m x (State.rsRegionDone s a1 a2) := by
  unfold State.rsRegionDone
  repeat' (first | with_reducible assumption | intro _ | with_reducible apply same_ite | with_reducible refine State.keyRelease_keeps (sub_of hm rfl) ?_ | with_reducible refine State.setBit_keeps (sub_of hm rfl) ?_ ?_ | with_reducible refine State.resyncEnd_keeps (sub_of hm rfl) ?_ | fail_if_no_progress with_reducible refine upd_tw (sub_of hm rfl) ?_ | with_reducible exact R.CAR_RG_STS_ok (sub_of hm rfl) | (with_reducible refine regOk_of (c := 12) (sub_of hm rfl) (blk12 ?_ ?_) <;> simp only [R.CAR_RG_STS] <;> omega) | split | dsimp only)

theorem State.rsSend_keeps {m : Nat} {x : State} {s : State} {a1 : RsSource} {a2 : Nat} (hm : Nat.land 18142009049102 m = 18142009049102)
    (h : Same m x s) : Same m x (State.rsSend s a1 a2) := by
  unfold State.rsSend
  repeat' (first | with_reducible assumption | intro _ | with_reducible apply same_ite | with_reducible apply same_foldl | with_reducible refine State.bmapShow_keeps (sub_of hm rfl) ?_ | with_reducible refine State.carSend_keeps (sub_of hm rfl) ?_ | with_reducible refine State.keyUse_keeps (sub_of hm rfl) ?_ | with_reducible refine State.xtsUse_keeps (sub_of hm rfl) ?_ | with_reducible refine State.linesRead_keeps (sub_of hm rfl) ?_ | with_reducible refine State.rsShow_keeps (sub_of hm rfl) ?_ | fail_if_no_progress with_reducible refine upd_tw (sub_of hm rfl) ?_ | split | dsimp only)

theorem State.sendHello_keeps {m : Nat} {x : State} {s : State} (hm : Nat.land 67174414 m = 67174414)
    (h : Same m x s) : Same m x (State.sendHello s) := by
  unfold State.sendHello
  repeat' (first | with_reducible assumption | intro _ | with_reducible refine State.drawn_keeps (sub_of hm rfl) ?_ | with_reducible refine State.car_keeps (sub_of hm rfl) ?_ | fail_if_no_progress with_reducible refine upd_tw (sub_of hm rfl) ?_ | split | dsimp only)

theorem State.targetWake_keeps {m : Nat} {x : State} {s : State} (hm : Nat.land 549822989322 m = 549822989322)
    (h : Same m x s) : Same m x (State.targetWake s) := by
  unfold State.targetWake
  repeat' (first | with_reducible assumption | intro _ | with_reducible apply same_ite | with_reducible refine State.admitSelf_keeps (sub_of hm rfl) ?_ | split | dsimp only)

end Sys2Proof.Machine
end

