-- ==== Sys2Proof/Laws/FrameSerOps.lean ====
section
/-! SUPPORT. The frame of every operation of Machine/SerOps.lean, as a mask of the kinds of state that it may change. -/

set_option autoImplicit false
set_option linter.unusedTactic false
set_option linter.unreachableTactic false
set_option linter.unnecessarySeqFocus false
set_option linter.unusedSimpArgs false
set_option linter.unusedVariables false

namespace Sys2Proof.Machine

theorem State.admitKeep_keeps {m : Nat} {x : State} {s : State} {a1 : ReplyTo} {a2 : Nat} (hm : Nat.land 314447559261966 m = 314447559261966)
    (h : Same m x s) : Same m x (State.admitKeep s a1 a2) := by
  unfold State.admitKeep
  repeat' (first | with_reducible assumption | intro _ | with_reducible apply same_ite | with_reducible refine State.reply_keeps (sub_of hm rfl) ?_ | with_reducible refine State.roll_keeps (sub_of hm rfl) ?_ | with_reducible refine State.fence_keeps (sub_of hm rfl) ?_ | with_reducible refine State.raiseGen_keeps (sub_of hm rfl) ?_ | with_reducible refine State.holdToken_keeps (sub_of hm rfl) ?_ | with_reducible refine State.setBit_keeps (sub_of hm rfl) ?_ ?_ | with_reducible refine State.linkDown_keeps (sub_of hm rfl) ?_ | fail_if_no_progress with_reducible refine upd_tw (sub_of hm rfl) ?_ | with_reducible exact R.CAR_CTL_ok (sub_of hm rfl) | with_reducible exact R.CAR_PAIR_GEN_ok (sub_of hm rfl) | with_reducible exact R.CAR_STS_ok (sub_of hm rfl) | (with_reducible refine regOk_of (c := 12) (sub_of hm rfl) (blk12 ?_ ?_) <;> simp only [R.CAR_CTL, R.CAR_PAIR_GEN, R.CAR_STS] <;> omega) | split | dsimp only)

theorem State.admitPair_keeps {m : Nat} {x : State} {s : State} {a1 : ReplyTo} (hm : Nat.land 1649368206346 m = 1649368206346)
    (h : Same m x s) : Same m x (State.admitPair s a1) := by
  unfold State.admitPair
  repeat' (first | with_reducible assumption | intro _ | with_reducible apply same_ite | with_reducible refine State.reply_keeps (sub_of hm rfl) ?_ | with_reducible refine State.admitSelf_keeps (sub_of hm rfl) ?_ | with_reducible refine State.admitTwin_keeps (sub_of hm rfl) ?_ | split | dsimp only)

theorem State.soloAlone_keeps {m : Nat} {x : State} {s : State} (hm : Nat.land 554117955850 m = 554117955850)
    (h : Same m x s) : Same m x (State.soloAlone s) := by
  unfold State.soloAlone
  repeat' (first | with_reducible assumption | intro _ | with_reducible refine State.setBit_keeps (sub_of hm rfl) ?_ ?_ | with_reducible refine State.set_keeps (sub_of hm rfl) ?_ ?_ | with_reducible refine State.holdToken_keeps (sub_of hm rfl) ?_ | with_reducible refine State.recordSolo_keeps (sub_of hm rfl) ?_ | with_reducible exact R.CAR_RG_STS_ok (sub_of hm rfl) | with_reducible exact R.CAR_STS_ok (sub_of hm rfl) | (with_reducible refine regOk_of (c := 12) (sub_of hm rfl) (blk12 ?_ ?_) <;> simp only [R.CAR_RG_STS, R.CAR_STS] <;> omega) | split | dsimp only)

theorem State.admitSolo_keeps {m : Nat} {x : State} {s : State} {a1 : ReplyTo} (hm : Nat.land 1653663173386 m = 1653663173386)
    (h : Same m x s) : Same m x (State.admitSolo s a1) := by
  unfold State.admitSolo
  repeat' (first | with_reducible assumption | intro _ | with_reducible apply same_ite | with_reducible refine State.reply_keeps (sub_of hm rfl) ?_ | with_reducible refine State.soloAlone_keeps (sub_of hm rfl) ?_ | with_reducible refine State.roll_keeps (sub_of hm rfl) ?_ | fail_if_no_progress with_reducible refine upd_tw (sub_of hm rfl) ?_ | split | dsimp only)

theorem State.leave_keeps {m : Nat} {x : State} {s : State} {a1 : ReplyTo} (hm : Nat.land 314447559261966 m = 314447559261966)
    (h : Same m x s) : Same m x (State.leave s a1) := by
  unfold State.leave
  repeat' (first | with_reducible assumption | intro _ | with_reducible refine State.fence_keeps (sub_of hm rfl) ?_ | with_reducible refine State.sendDown_keeps (sub_of hm rfl) ?_ | with_reducible refine State.reply_keeps (sub_of hm rfl) ?_ | fail_if_no_progress with_reducible refine upd_tw (sub_of hm rfl) ?_ | split | dsimp only)

theorem State.detach_keeps {m : Nat} {x : State} {s : State} {a1 : ReplyTo} {a2 : Nat} (hm : Nat.land 314447559261966 m = 314447559261966)
    (h : Same m x s) : Same m x (State.detach s a1 a2) := by
  unfold State.detach
  repeat' (first | with_reducible assumption | intro _ | with_reducible apply same_ite | with_reducible refine State.reply_keeps (sub_of hm rfl) ?_ | with_reducible refine State.sendCmd_keeps (sub_of hm rfl) ?_ | with_reducible refine State.car_keeps (sub_of hm rfl) ?_ | with_reducible refine State.leave_keeps (sub_of hm rfl) ?_ | fail_if_no_progress with_reducible refine upd_tw (sub_of hm rfl) ?_ | split | dsimp only)

theorem State.retire_keeps {m : Nat} {x : State} {s : State} (hm : Nat.land 282733502849802 m = 282733502849802)
    (h : Same m x s) : Same m x (State.retire s) := by
  unfold State.retire
  repeat' (first | with_reducible assumption | intro _ | with_reducible apply same_foldl | with_reducible refine State.streamAbort_keeps (sub_of hm rfl) ?_ | with_reducible refine State.slotCountShow_keeps (sub_of hm rfl) ?_ | with_reducible refine State.wrN_keeps (sub_of hm rfl) ?_ ?_ | with_reducible refine State.setBit_keeps (sub_of hm rfl) ?_ ?_ | with_reducible refine State.pstAdd_keeps (sub_of hm rfl) ?_ | fail_if_no_progress with_reducible refine upd_ce (sub_of hm rfl) ?_ | with_reducible exact R.CE_RG_SLOT_ok (sub_of hm rfl) | with_reducible exact R.CE_STS_ok (sub_of hm rfl) | (with_reducible refine regOk_of (c := 7) (sub_of hm rfl) (blk7 ?_ ?_) <;> simp only [R.CE_STS] <;> omega) | (with_reducible refine regOk_of (c := 21) (sub_of hm rfl) (blk21 ?_ ?_) <;> simp only [R.CE_RG_SLOT] <;> omega) | split | dsimp only)

theorem State.lifecycleSet_keeps {m : Nat} {x : State} {s : State} {a1 : ReplyTo} {a2 : Nat} (hm : Nat.land 282733502917386 m = 282733502917386)
    (h : Same m x s) : Same m x (State.lifecycleSet s a1 a2) := by
  unfold State.lifecycleSet
  repeat' (first | with_reducible assumption | intro _ | with_reducible apply same_ite | with_reducible refine State.reply_keeps (sub_of hm rfl) ?_ | with_reducible refine State.retire_keeps (sub_of hm rfl) ?_ | with_reducible refine State.pstAdd_keeps (sub_of hm rfl) ?_ | with_reducible refine State.set_keeps (sub_of hm rfl) ?_ ?_ | with_reducible exact R.CE_STS_ok (sub_of hm rfl) | (with_reducible refine regOk_of (c := 7) (sub_of hm rfl) (blk7 ?_ ?_) <;> simp only [R.CE_STS] <;> omega) | split | dsimp only)

theorem State.roleSet_keeps {m : Nat} {x : State} {s : State} {a1 : ReplyTo} {a2 : BitVec 16} (hm : Nat.land 1103907358986 m = 1103907358986)
    (h : Same m x s) : Same m x (State.roleSet s a1 a2) := by
  unfold State.roleSet
  repeat' (first | with_reducible assumption | intro _ | with_reducible apply same_ite | with_reducible apply same_foldl | with_reducible refine State.reply_keeps (sub_of hm rfl) ?_ | with_reducible refine State.set_keeps (sub_of hm rfl) ?_ ?_ | with_reducible refine State.pstAdd_keeps (sub_of hm rfl) ?_ | with_reducible exact R.HP_STS_ok (sub_of hm rfl) | with_reducible exact R.RT_RG_CTL_ok (sub_of hm rfl) | (with_reducible refine regOk_of (c := 13) (sub_of hm rfl) (blk13 ?_ ?_) <;> simp only [R.HP_STS] <;> omega) | split | dsimp only)

theorem State.takeRegion_keeps {m : Nat} {x : State} {s : State} {a1 : ReplyTo} {a2 : Nat} {a3 : RgAttr} {a4 : Bool} {a5 : Nat} (hm : Nat.land 283283258735370 m = 283283258735370)
    (h : Same m x s) : Same m x (State.takeRegion s a1 a2 a3 a4 a5) := by
  unfold State.takeRegion
  repeat' (first | with_reducible assumption | intro _ | with_reducible apply same_ite | with_reducible refine State.reply_keeps (sub_of hm rfl) ?_ | with_reducible refine State.secureStart_keeps (sub_of hm rfl) ?_ | with_reducible refine State.disableNow_keeps (sub_of hm rfl) ?_ | with_reducible refine State.rgStore_keeps (sub_of hm rfl) ?_ | with_reducible refine State.setBit_keeps (sub_of hm rfl) ?_ ?_ | with_reducible refine State.setLabel_keeps (sub_of hm rfl) ?_ | with_reducible refine State.regionEnable_keeps (sub_of hm rfl) ?_ | with_reducible refine State.rotSave_keeps (sub_of hm rfl) ?_ | with_reducible refine State.regionSave_keeps (sub_of hm rfl) ?_ | with_reducible exact R.RT_RG_CTL_ok (sub_of hm rfl) | (with_reducible refine regOk_of (c := 21) (sub_of hm rfl) (blk21 ?_ ?_) <;> simp only [R.RT_RG_CTL] <;> omega) | split | dsimp only)

theorem State.serDo_keeps {m : Nat} {x : State} {s : State} {a1 : ReplyTo} {a2 : SerCmd} (hm : Nat.land 314447559261966 m = 314447559261966)
    (h : Same m x s) : Same m x (State.serDo s a1 a2) := by
  unfold State.serDo
  repeat' (first | with_reducible assumption | intro _ | with_reducible refine State.regionSet_keeps (sub_of hm rfl) ?_ | with_reducible refine State.contextSet_keeps (sub_of hm rfl) ?_ | with_reducible refine State.regionEnable_keeps (sub_of hm rfl) ?_ | with_reducible refine State.regionDisable_keeps (sub_of hm rfl) ?_ | with_reducible refine State.contextPrepare_keeps (sub_of hm rfl) ?_ | with_reducible refine State.rekey_keeps (sub_of hm rfl) ?_ | with_reducible refine State.roleSet_keeps (sub_of hm rfl) ?_ | with_reducible refine State.lifecycleSet_keeps (sub_of hm rfl) ?_ | with_reducible refine State.admitPair_keeps (sub_of hm rfl) ?_ | with_reducible refine State.admitSolo_keeps (sub_of hm rfl) ?_ | with_reducible refine State.admitKeep_keeps (sub_of hm rfl) ?_ | with_reducible refine State.detach_keeps (sub_of hm rfl) ?_ | with_reducible refine State.takeRegion_keeps (sub_of hm rfl) ?_ | split | dsimp only)

theorem State.serStart_keeps {m : Nat} {x : State} {s : State} {a1 : ReplyTo} {a2 : SerCmd} (hm : Nat.land 314447559261966 m = 314447559261966)
    (h : Same m x s) : Same m x (State.serStart s a1 a2) := by
  unfold State.serStart
  repeat' (first | with_reducible assumption | intro _ | with_reducible apply same_ite | with_reducible refine State.sendCmd_keeps (sub_of hm rfl) ?_ | with_reducible refine State.serDo_keeps (sub_of hm rfl) ?_ | fail_if_no_progress with_reducible refine upd_hp (sub_of hm rfl) ?_ | split | dsimp only)

theorem State.serPumpN_keeps {m : Nat} {x : State} {n : Nat} {s : State} (hm : Nat.land 314447559261966 m = 314447559261966) (h : Same m x s) : Same m x (State.serPumpN n s) := by
  induction n generalizing s with
  | zero => exact h
  | succ n ih =>
    unfold State.serPumpN
    split
    · exact ih (State.serStart_keeps (sub_of hm rfl) (upd_hp (sub_of hm rfl) h))
    · exact h

theorem State.serPump_keeps {m : Nat} {x : State} {s : State} (hm : Nat.land 314447559261966 m = 314447559261966)
    (h : Same m x s) : Same m x (State.serPump s) := by
  unfold State.serPump
  repeat' (first | with_reducible assumption | intro _ | with_reducible refine State.serPumpN_keeps (sub_of hm rfl) ?_ | split | dsimp only)

theorem State.serCmd_keeps {m : Nat} {x : State} {s : State} {a1 : Nat} {a2 : SerCmd} (hm : Nat.land 314447559261966 m = 314447559261966)
    (h : Same m x s) : Same m x (State.serCmd s a1 a2) := by
  unfold State.serCmd
  repeat' (first | with_reducible assumption | intro _ | with_reducible apply same_ite | with_reducible refine State.mbox_keeps (sub_of hm rfl) ?_ | with_reducible refine State.serPump_keeps (sub_of hm rfl) ?_ | fail_if_no_progress with_reducible refine upd_hp (sub_of hm rfl) ?_ | split | dsimp only)

theorem State.serCmdBg_keeps {m : Nat} {x : State} {s : State} {a1 : Nat} {a2 : SerCmd} (hm : Nat.land 314447559261966 m = 314447559261966)
    (h : Same m x s) : Same m x (State.serCmdBg s a1 a2) := by
  unfold State.serCmdBg
  repeat' (first | with_reducible assumption | intro _ | with_reducible apply same_ite | with_reducible refine State.mbox_keeps (sub_of hm rfl) ?_ | with_reducible refine State.serPump_keeps (sub_of hm rfl) ?_ | with_reducible refine State.bgStart_keeps (sub_of hm rfl) ?_ | fail_if_no_progress with_reducible refine upd_hp (sub_of hm rfl) ?_ | split | dsimp only)

end Sys2Proof.Machine
end

