-- ==== Sys2Proof/Laws/FrameHost.lean ====
section
/-! SUPPORT. The frame of every operation of Machine/Host.lean, as a mask of the kinds of state that it may change. -/

set_option autoImplicit false
set_option linter.unusedTactic false
set_option linter.unreachableTactic false
set_option linter.unnecessarySeqFocus false
set_option linter.unusedSimpArgs false
set_option linter.unusedVariables false

namespace Sys2Proof.Machine

theorem State.hostEvent_keeps {m : Nat} {x : State} {s : State} {a1 : Nat} {a2 : Bool} (hm : Nat.land 67109384 m = 67109384)
    (h : Same m x s) : Same m x (State.hostEvent s a1 a2) := by
  unfold State.hostEvent
  repeat' (first | with_reducible assumption | intro _ | with_reducible apply same_when | with_reducible refine State.roll_keeps (sub_of hm rfl) ?_ | split | dsimp only)

theorem State.linkGone_keeps {m : Nat} {x : State} {s : State} {a1 : Nat} (hm : Nat.land 1099511627784 m = 1099511627784)
    (h : Same m x s) : Same m x (State.linkGone s a1) := by
  unfold State.linkGone
  repeat' (first | with_reducible assumption | intro _ | with_reducible refine State.setBit_keeps (sub_of hm rfl) ?_ ?_ | with_reducible refine State.set_keeps (sub_of hm rfl) ?_ ?_ | with_reducible exact R.HP_STS_ok (sub_of hm rfl) | (with_reducible refine regOk_of (c := 13) (sub_of hm rfl) (blk13 ?_ ?_) <;> simp only [R.HP_STS] <;> omega) | split | dsimp only)

theorem State.hostLinkDown_keeps {m : Nat} {x : State} {s : State} {a1 : Nat} (hm : Nat.land 1099578737160 m = 1099578737160)
    (h : Same m x s) : Same m x (State.hostLinkDown s a1) := by
  unfold State.hostLinkDown
  repeat' (first | with_reducible assumption | intro _ | with_reducible apply same_ite | with_reducible refine State.hostEvent_keeps (sub_of hm rfl) ?_ | with_reducible refine State.bump_keeps (sub_of hm rfl) ?_ ?_ | with_reducible refine State.linkGone_keeps (sub_of hm rfl) ?_ | with_reducible exact R.HP_LINK_DOWN_ok (sub_of hm rfl) | with_reducible exact R.HP_STS_ok (sub_of hm rfl) | (with_reducible refine regOk_of (c := 13) (sub_of hm rfl) (blk13 ?_ ?_) <;> simp only [R.HP_LINK_DOWN, R.HP_STS] <;> omega) | split | dsimp only)

theorem State.bwStart_keeps {m : Nat} {x : State} {s : State} {a1 : Nat} (hm : Nat.land 32768 m = 32768)
    (h : Same m x s) : Same m x (State.bwStart s a1) := by
  unfold State.bwStart
  repeat' (first | with_reducible assumption | intro _ | fail_if_no_progress with_reducible refine upd_hp (sub_of hm rfl) ?_ | split | dsimp only)

theorem State.done_keeps {m : Nat} {x : State} {s : State} {a1 : Nat} {a2 : List Nat} (hm : Nat.land 1099612291082 m = 1099612291082)
    (h : Same m x s) : Same m x (State.done s a1 a2) := by
  unfold State.done
  repeat' (first | with_reducible assumption | intro _ | with_reducible refine State.mbox_keeps (sub_of hm rfl) ?_ | split | dsimp only)

theorem State.wrapKey_keeps {m : Nat} {x : State} {s : State} {a1 : Nat} {a2 : Nat} (hm : Nat.land 4362076426 m = 4362076426)
    (h : Same m x s) : Same m x (State.wrapKey s a1 a2) := by
  unfold State.wrapKey
  repeat' (first | with_reducible assumption | intro _ | with_reducible refine State.pstAdd_keeps (sub_of hm rfl) ?_ | split | dsimp only)

theorem State.newRk_keeps {m : Nat} {x : State} {s : State} (hm : Nat.land 21541961998 m = 21541961998)
    (h : Same m x s) : Same m x (State.newRk s) := by
  unfold State.newRk
  repeat' (first | with_reducible assumption | intro _ | with_reducible apply same_foldl | with_reducible apply same_foldl2 | with_reducible refine State.drbgTake_keeps (sub_of hm rfl) ?_ | with_reducible refine State.drbgTake_keeps_eq (sub_of hm rfl) (by assumption) ?_ | with_reducible refine State.wrapKey_keeps (sub_of hm rfl) ?_ | with_reducible refine State.rkLoad_keeps (sub_of hm rfl) ?_ | with_reducible refine State.setBit_keeps (sub_of hm rfl) ?_ ?_ | with_reducible refine State.derive_keeps (sub_of hm rfl) ?_ | with_reducible refine State.keyMod_keeps (sub_of hm rfl) ?_ | with_reducible exact R.CE_STS_ok (sub_of hm rfl) | (with_reducible refine regOk_of (c := 7) (sub_of hm rfl) (blk7 ?_ ?_) <;> simp only [R.CE_STS] <;> omega) | split | dsimp only)

theorem State.hostCmd_keeps {m : Nat} {x : State} {s : State} {p : Nat} {f : State → State} (hm : Nat.land 1099612291082 m = 1099612291082) (h : Same m x s)
    (hf : ∀ t : State, Same m x t → Same m x (f t)) : Ends m x (s.hostCmd p f) := by
  unfold State.hostCmd
  apply ends_next
  split
  · exact h
  · split
    · exact State.mbox_keeps (sub_of hm rfl) h
    · exact hf _ h

theorem State.mgrCmd_keeps {m : Nat} {x : State} {s : State} {p : Nat} {f : State → State} (hm : Nat.land 1099612291082 m = 1099612291082) (h : Same m x s)
    (hf : ∀ t : State, Same m x t → Same m x (f t)) : Ends m x (s.mgrCmd p f) := by
  unfold State.mgrCmd
  apply ends_next
  split
  · exact h
  · split
    · exact State.mbox_keeps (sub_of hm rfl) h
    · exact hf _ h

theorem State.poisonCmd_keeps {m : Nat} {x : State} {s : State} {p line : Nat} {c : TwinCmd} {f : State → State}
    (hm : Nat.land 1099612356618 m = 1099612356618) (h : Same m x s) (hf : ∀ t : State, Same m x t → Same m x (f t)) : Same m x (s.poisonCmd p line c f) := by
  unfold State.poisonCmd
  split
  · exact State.mbox_keeps (sub_of hm rfl) h
  · apply hf
    split
    · exact State.sendCmd_keeps (sub_of hm rfl) h
    · exact h

theorem State.portLost_keeps {m : Nat} {x : State} {s : State} {a1 : Nat} (hm : Nat.land 2048 m = 2048)
    (h : Same m x s) : Same m x (State.portLost s a1) := by
  unfold State.portLost
  repeat' (first | with_reducible assumption | intro _ | with_reducible apply same_ite | fail_if_no_progress with_reducible refine upd_rt (sub_of hm rfl) ?_ | split | dsimp only)

theorem State.portRegs_keeps {m : Nat} {x : State} {s : State} {a1 : Nat} (hm : Nat.land 1099645845512 m = 1099645845512)
    (h : Same m x s) : Same m x (State.portRegs s a1) := by
  unfold State.portRegs
  repeat' (first | with_reducible exact list_ok_nil | with_reducible refine list_ok_cons ?_ ?_ | with_reducible refine list_ok_append ?_ ?_ | with_reducible exact pc_ok | with_reducible refine range_ok ?_ | with_reducible assumption | intro _ | with_reducible refine State.wrN_keeps (sub_of hm rfl) ?_ ?_ | with_reducible refine State.zero_keeps (sub_of hm rfl) ?_ ?_ | with_reducible exact R.HP_BW_RD_LO_ok (sub_of hm rfl) | with_reducible exact R.HP_BW_WIN_ok (sub_of hm rfl) | with_reducible exact R.HP_CTL_ok (sub_of hm rfl) | with_reducible exact R.PC_CNT_ok | with_reducible exact R.PC_SEL_ok (sub_of hm rfl) | with_reducible exact R.PC_WIN_CTL_ok | (with_reducible refine regOk_of (c := 0) (sub_of hm rfl) (blk0 ?_) <;> simp only [R.PC_SEL] <;> omega) | (with_reducible refine regOk_of (c := 13) (sub_of hm rfl) (blk13 ?_ ?_) <;> simp only [R.HP_BW_RD_LO, R.HP_BW_WIN, R.HP_CTL] <;> omega) | exact .inl rfl | (with_reducible refine book1_ok ?_ <;> simp only [R.PC_CNT, R.PC_WIN_CTL] <;> omega) | split | dsimp only)

theorem State.portReset_keeps {m : Nat} {x : State} {s : State} {a1 : Nat} (hm : Nat.land 1099511662600 m = 1099511662600)
    (h : Same m x s) : Same m x (State.portReset s a1) := by
  unfold State.portReset
  repeat' (first | with_reducible assumption | intro _ | with_reducible refine State.setBit_keeps (sub_of hm rfl) ?_ ?_ | with_reducible refine State.portLost_keeps (sub_of hm rfl) ?_ | with_reducible refine State.linkGone_keeps (sub_of hm rfl) ?_ | fail_if_no_progress with_reducible refine upd_hp (sub_of hm rfl) ?_ | with_reducible exact R.HP_STS_ok (sub_of hm rfl) | (with_reducible refine regOk_of (c := 13) (sub_of hm rfl) (blk13 ?_ ?_) <;> simp only [R.HP_STS] <;> omega) | split | dsimp only)

theorem State.regionCmd_keeps {m : Nat} {x : State} {s : State} {p n : Nat} {f : State → State} (hm : Nat.land 1099612291082 m = 1099612291082) (h : Same m x s)
    (hf : ∀ t : State, Same m x t → Same m x (f t)) : Ends m x (s.regionCmd p n f) := by
  unfold State.regionCmd
  apply ends_next
  split
  · exact h
  · split
    · exact hf _ h
    · exact State.mbox_keeps (sub_of hm rfl) h

theorem State.releaseOne_keeps {m : Nat} {x : State} {s : State} {a1 : Fin 16} (hm : Nat.land 283283258735370 m = 283283258735370)
    (h : Same m x s) : Same m x (State.releaseOne s a1) := by
  unfold State.releaseOne
  repeat' (first | with_reducible assumption | intro _ | with_reducible apply same_ite | with_reducible refine State.sendCmd_keeps (sub_of hm rfl) ?_ | with_reducible refine State.reply_keeps (sub_of hm rfl) ?_ | with_reducible refine State.regionOff_keeps (sub_of hm rfl) ?_ | fail_if_no_progress with_reducible refine upd_hp (sub_of hm rfl) ?_ | split | dsimp only)

theorem execPerstNAssert_keeps {m : Nat} {x : State} {a0 : Fin 8} {s : State} (hm : Nat.land 1168432467464 m = 1168432467464)
    (h : Same m x s) : Ends m x (execPerstNAssert a0 s) := by
  unfold execPerstNAssert
  repeat' (first | with_reducible assumption | intro _ | with_reducible apply ends_next | with_reducible apply ends_ite | with_reducible apply same_ite | with_reducible apply same_when | with_reducible refine State.wireEnd_keeps (sub_of hm rfl) ?_ | with_reducible refine State.unfence_keeps (sub_of hm rfl) ?_ | with_reducible refine State.portReset_keeps (sub_of hm rfl) ?_ | with_reducible refine State.portRegs_keeps (sub_of hm rfl) ?_ | with_reducible refine State.hostEvent_keeps (sub_of hm rfl) ?_ | with_reducible refine State.mapcInvStart_keeps (sub_of hm rfl) ?_ | fail_if_no_progress with_reducible refine upd_hp (sub_of hm rfl) ?_ | split | dsimp only)

theorem execPerstNRelease_keeps {m : Nat} {x : State} {a0 : Fin 8} {s : State} (hm : Nat.land 137438988296 m = 137438988296)
    (h : Same m x s) : Ends m x (execPerstNRelease a0 s) := by
  unfold execPerstNRelease
  repeat' (first | with_reducible assumption | intro _ | with_reducible apply ends_next | with_reducible apply ends_ite | with_reducible apply same_ite | with_reducible refine State.tsStatus_keeps (sub_of hm rfl) ?_ | fail_if_no_progress with_reducible refine upd_rt_hp (sub_of hm rfl) ?_ | split | dsimp only)

theorem execHostLinkUp_keeps {m : Nat} {x : State} {a0 : Fin 8} {a1 : Fin 17} {a2 : Fin 7} {a3 : Bool} {a4 : Bool} {s : State} (hm : Nat.land 1099578769930 m = 1099578769930)
    (h : Same m x s) : Ends m x (execHostLinkUp a0 a1 a2 a3 a4 s) := by
  unfold execHostLinkUp
  repeat' (first | with_reducible assumption | intro _ | with_reducible apply ends_next | with_reducible apply ends_ite | with_reducible apply same_ite | with_reducible apply same_foldl | with_reducible refine State.set_keeps (sub_of hm rfl) ?_ ?_ | with_reducible refine State.setBit_keeps (sub_of hm rfl) ?_ ?_ | with_reducible refine State.emit_keeps (sub_of hm rfl) ?_ | with_reducible refine State.hostEvent_keeps (sub_of hm rfl) ?_ | with_reducible refine State.dcRecord_keeps (sub_of hm rfl) ?_ | fail_if_no_progress with_reducible refine upd_hp (sub_of hm rfl) ?_ | with_reducible exact R.BOOT_STS_ok (sub_of hm rfl) | with_reducible exact R.HP_CFG_ok (sub_of hm rfl) | with_reducible exact R.HP_CTL_ok (sub_of hm rfl) | with_reducible exact R.HP_STS_ok (sub_of hm rfl) | with_reducible exact R.RT_RG_CTL_ok (sub_of hm rfl) | with_reducible exact R.TST_PHY_CTL_ok (sub_of hm rfl) | (with_reducible refine regOk_of (c := 13) (sub_of hm rfl) (blk13 ?_ ?_) <;> simp only [R.HP_CFG, R.HP_CTL, R.HP_STS] <;> omega) | split | dsimp only)

theorem execHostLinkDown_keeps {m : Nat} {x : State} {a0 : Fin 8} {s : State} (hm : Nat.land 1099578737160 m = 1099578737160)
    (h : Same m x s) : Ends m x (execHostLinkDown a0 s) := by
  unfold execHostLinkDown
  repeat' (first | with_reducible assumption | intro _ | with_reducible apply ends_next | with_reducible refine State.hostLinkDown_keeps (sub_of hm rfl) ?_ | split | dsimp only)

theorem execIdeIntegrityFailure_keeps {m : Nat} {x : State} {a0 : Fin 8} {a1 : Bool} {s : State} (hm : Nat.land 1099595515406 m = 1099595515406)
    (h : Same m x s) : Ends m x (execIdeIntegrityFailure a0 a1 s) := by
  unfold execIdeIntegrityFailure
  repeat' (first | with_reducible assumption | intro _ | with_reducible apply ends_next | with_reducible apply ends_ite | with_reducible apply same_ite | with_reducible refine State.raise_keeps (sub_of hm rfl) ?_ | with_reducible refine State.bump_keeps (sub_of hm rfl) ?_ ?_ | with_reducible refine State.setBit_keeps (sub_of hm rfl) ?_ ?_ | with_reducible exact R.HP_IDE_ERR_ok (sub_of hm rfl) | exact ideFld_ok (sub_of hm rfl) | (with_reducible refine regOk_of (c := 13) (sub_of hm rfl) (blk13 ?_ ?_) <;> simp only [R.HP_IDE_ERR] <;> omega) | split | dsimp only)

theorem execIdeKm_keeps {m : Nat} {x : State} {a0 : Fin 8} {a1 : Nat} {a2 : Bool} {a3 : IdeMsg} {s : State} (hm : Nat.land 1099578769418 m = 1099578769418)
    (h : Same m x s) : Ends m x (execIdeKm a0 a1 a2 a3 s) := by
  unfold execIdeKm
  repeat' (first | with_reducible assumption | intro _ | with_reducible apply ends_next | with_reducible apply ends_ite | with_reducible apply same_ite | with_reducible refine State.emit_keeps (sub_of hm rfl) ?_ | with_reducible refine State.setBit_keeps (sub_of hm rfl) ?_ ?_ | fail_if_no_progress with_reducible refine upd_hp (sub_of hm rfl) ?_ | exact ideFld_ok (sub_of hm rfl) | (with_reducible refine regOk_of (c := 13) (sub_of hm rfl) (blk13 ?_ ?_) <;> simp only [] <;> omega) | split | dsimp only)

theorem execSpdmRequest_keeps {m : Nat} {x : State} {a0 : Fin 8} {a1 : SpdmReq} {s : State} (hm : Nat.land 67141642 m = 67141642)
    (h : Same m x s) : Ends m x (execSpdmRequest a0 a1 s) := by
  unfold execSpdmRequest
  repeat' (first | with_reducible assumption | intro _ | with_reducible apply ends_next | with_reducible apply ends_ite | with_reducible apply same_ite | with_reducible refine State.emit_keeps (sub_of hm rfl) ?_ | fail_if_no_progress with_reducible refine upd_hp (sub_of hm rfl) ?_ | split | dsimp only)

theorem execGetEventRecords_keeps {m : Nat} {x : State} {a0 : Nat} {a1 : Fin 5} {s : State} (hm : Nat.land 1099612291082 m = 1099612291082)
    (h : Same m x s) : Ends m x (execGetEventRecords a0 a1 s) := by
  unfold execGetEventRecords
  repeat' (first | with_reducible assumption | intro _ | with_reducible apply ends_next | with_reducible apply thenState_keeps | with_reducible refine State.hostCmd_keeps (sub_of hm rfl) ?_ ?_ | with_reducible refine State.done_keeps (sub_of hm rfl) ?_ | split | dsimp only)

theorem execClearEventRecords_keeps {m : Nat} {x : State} {a0 : Nat} {a1 : Fin 5} {a2 : Nat} {s : State} (hm : Nat.land 1099612323850 m = 1099612323850)
    (h : Same m x s) : Ends m x (execClearEventRecords a0 a1 a2 s) := by
  unfold execClearEventRecords
  repeat' (first | with_reducible assumption | intro _ | with_reducible apply ends_next | with_reducible apply ends_ite | with_reducible apply same_ite | with_reducible apply thenState_keeps | with_reducible refine State.hostCmd_keeps (sub_of hm rfl) ?_ ?_ | with_reducible refine State.mbox_keeps (sub_of hm rfl) ?_ | with_reducible refine State.done_keeps (sub_of hm rfl) ?_ | fail_if_no_progress with_reducible refine upd_hp (sub_of hm rfl) ?_ | split | dsimp only)

theorem execGetEventInterruptPolicy_keeps {m : Nat} {x : State} {a0 : Nat} {s : State} (hm : Nat.land 1099612291082 m = 1099612291082)
    (h : Same m x s) : Ends m x (execGetEventInterruptPolicy a0 s) := by
  unfold execGetEventInterruptPolicy
  repeat' (first | with_reducible assumption | intro _ | with_reducible apply ends_next | with_reducible apply thenState_keeps | with_reducible refine State.hostCmd_keeps (sub_of hm rfl) ?_ ?_ | with_reducible refine State.done_keeps (sub_of hm rfl) ?_ | split | dsimp only)

theorem execSetEventInterruptPolicy_keeps {m : Nat} {x : State} {a0 : Nat} {a1 : BitVec 40} {s : State} (hm : Nat.land 1099612323850 m = 1099612323850)
    (h : Same m x s) : Ends m x (execSetEventInterruptPolicy a0 a1 s) := by
  unfold execSetEventInterruptPolicy
  repeat' (first | with_reducible assumption | intro _ | with_reducible apply ends_next | with_reducible apply thenState_keeps | with_reducible refine State.hostCmd_keeps (sub_of hm rfl) ?_ ?_ | with_reducible refine State.done_keeps (sub_of hm rfl) ?_ | fail_if_no_progress with_reducible refine upd_hp (sub_of hm rfl) ?_ | split | dsimp only)

theorem execGetFwInfo_keeps {m : Nat} {x : State} {a0 : Nat} {s : State} (hm : Nat.land 1099612291082 m = 1099612291082)
    (h : Same m x s) : Ends m x (execGetFwInfo a0 s) := by
  unfold execGetFwInfo
  repeat' (first | with_reducible assumption | intro _ | with_reducible apply ends_next | with_reducible apply thenState_keeps | with_reducible refine State.mgrCmd_keeps (sub_of hm rfl) ?_ ?_ | with_reducible refine State.done_keeps (sub_of hm rfl) ?_ | split | dsimp only)

theorem execTransferFw_keeps {m : Nat} {x : State} {a0 : Nat} {a1 : List Nat} {a2 : Bool} {a3 : Bool} {s : State} (hm : Nat.land 1099612323850 m = 1099612323850)
    (h : Same m x s) : Ends m x (execTransferFw a0 a1 a2 a3 s) := by
  unfold execTransferFw
  repeat' (first | with_reducible assumption | intro _ | with_reducible apply ends_next | with_reducible apply ends_ite | with_reducible apply same_ite | with_reducible apply thenState_keeps | with_reducible refine State.mgrCmd_keeps (sub_of hm rfl) ?_ ?_ | with_reducible refine State.done_keeps (sub_of hm rfl) ?_ | with_reducible refine State.mbox_keeps (sub_of hm rfl) ?_ | fail_if_no_progress with_reducible refine upd_hp (sub_of hm rfl) ?_ | split | dsimp only)

theorem execActivateFw_keeps {m : Nat} {x : State} {a0 : Nat} {s : State} (hm : Nat.land 1099612323850 m = 1099612323850)
    (h : Same m x s) : Ends m x (execActivateFw a0 s) := by
  unfold execActivateFw
  repeat' (first | with_reducible assumption | intro _ | with_reducible apply ends_next | with_reducible apply ends_ite | with_reducible apply same_ite | with_reducible apply thenState_keeps | with_reducible refine State.mgrCmd_keeps (sub_of hm rfl) ?_ ?_ | with_reducible refine State.mbox_keeps (sub_of hm rfl) ?_ | with_reducible refine State.done_keeps (sub_of hm rfl) ?_ | fail_if_no_progress with_reducible refine upd_hp (sub_of hm rfl) ?_ | split | dsimp only)

theorem execGetTimestamp_keeps {m : Nat} {x : State} {a0 : Nat} {s : State} (hm : Nat.land 1099612291082 m = 1099612291082)
    (h : Same m x s) : Ends m x (execGetTimestamp a0 s) := by
  unfold execGetTimestamp
  repeat' (first | with_reducible assumption | intro _ | with_reducible apply ends_next | with_reducible apply thenState_keeps | with_reducible refine State.hostCmd_keeps (sub_of hm rfl) ?_ ?_ | with_reducible refine State.done_keeps (sub_of hm rfl) ?_ | split | dsimp only)

theorem execSetTimestamp_keeps {m : Nat} {x : State} {a0 : Nat} {a1 : BitVec 64} {s : State} (hm : Nat.land 1378786255626 m = 1378786255626)
    (h : Same m x s) : Ends m x (execSetTimestamp a0 a1 s) := by
  unfold execSetTimestamp
  repeat' (first | with_reducible assumption | intro _ | with_reducible apply ends_next | with_reducible apply ends_ite | with_reducible apply same_ite | with_reducible apply thenState_keeps | with_reducible refine State.hostCmd_keeps (sub_of hm rfl) ?_ ?_ | with_reducible refine State.done_keeps (sub_of hm rfl) ?_ | with_reducible refine State.ageByTimestamp_keeps (sub_of hm rfl) ?_ | fail_if_no_progress with_reducible refine upd_hp (sub_of hm rfl) ?_ | split | dsimp only)

theorem execGetSupportedLogs_keeps {m : Nat} {x : State} {a0 : Nat} {s : State} (hm : Nat.land 1099612291082 m = 1099612291082)
    (h : Same m x s) : Ends m x (execGetSupportedLogs a0 s) := by
  unfold execGetSupportedLogs
  repeat' (first | with_reducible assumption | intro _ | with_reducible apply ends_next | with_reducible apply thenState_keeps | with_reducible refine State.hostCmd_keeps (sub_of hm rfl) ?_ ?_ | with_reducible refine State.done_keeps (sub_of hm rfl) ?_ | split | dsimp only)

theorem execGetLog_keeps {m : Nat} {x : State} {a0 : Nat} {a1 : Bool} {s : State} (hm : Nat.land 1099612291086 m = 1099612291086)
    (h : Same m x s) : Ends m x (execGetLog a0 a1 s) := by
  unfold execGetLog
  repeat' (first | with_reducible assumption | intro _ | with_reducible apply ends_next | with_reducible apply ends_ite | with_reducible apply same_ite | with_reducible apply thenState_keeps | with_reducible refine State.hostCmd_keeps (sub_of hm rfl) ?_ ?_ | with_reducible refine State.done_keeps (sub_of hm rfl) ?_ | with_reducible refine State.drawn_keeps (sub_of hm rfl) ?_ | with_reducible refine State.mbox_keeps (sub_of hm rfl) ?_ | split | dsimp only)

theorem execIdentifyMemoryDevice_keeps {m : Nat} {x : State} {a0 : Nat} {s : State} (hm : Nat.land 1099612291082 m = 1099612291082)
    (h : Same m x s) : Ends m x (execIdentifyMemoryDevice a0 s) := by
  unfold execIdentifyMemoryDevice
  repeat' (first | with_reducible assumption | intro _ | with_reducible apply ends_next | with_reducible apply thenState_keeps | with_reducible refine State.hostCmd_keeps (sub_of hm rfl) ?_ ?_ | with_reducible refine State.done_keeps (sub_of hm rfl) ?_ | exact ideFld_ok (sub_of hm rfl) | split | dsimp only)

theorem execGetHealthInfo_keeps {m : Nat} {x : State} {a0 : Nat} {s : State} (hm : Nat.land 1099612291082 m = 1099612291082)
    (h : Same m x s) : Ends m x (execGetHealthInfo a0 s) := by
  unfold execGetHealthInfo
  repeat' (first | with_reducible assumption | intro _ | with_reducible apply ends_next | with_reducible apply ends_ite | with_reducible apply same_ite | with_reducible refine State.done_keeps (sub_of hm rfl) ?_ | split | dsimp only)

theorem execGetAlertConfiguration_keeps {m : Nat} {x : State} {a0 : Nat} {s : State} (hm : Nat.land 1099612291082 m = 1099612291082)
    (h : Same m x s) : Ends m x (execGetAlertConfiguration a0 s) := by
  unfold execGetAlertConfiguration
  repeat' (first | with_reducible assumption | intro _ | with_reducible apply ends_next | with_reducible apply thenState_keeps | with_reducible refine State.mgrCmd_keeps (sub_of hm rfl) ?_ ?_ | with_reducible refine State.done_keeps (sub_of hm rfl) ?_ | split | dsimp only)

theorem execSetAlertConfiguration_keeps {m : Nat} {x : State} {a0 : Nat} {a1 : List Nat} {s : State} (hm : Nat.land 1099612323850 m = 1099612323850)
    (h : Same m x s) : Ends m x (execSetAlertConfiguration a0 a1 s) := by
  unfold execSetAlertConfiguration
  repeat' (first | with_reducible assumption | intro _ | with_reducible apply ends_next | with_reducible apply thenState_keeps | with_reducible refine State.mgrCmd_keeps (sub_of hm rfl) ?_ ?_ | with_reducible refine State.done_keeps (sub_of hm rfl) ?_ | fail_if_no_progress with_reducible refine upd_hp (sub_of hm rfl) ?_ | split | dsimp only)

theorem execGetShutdownState_keeps {m : Nat} {x : State} {a0 : Nat} {s : State} (hm : Nat.land 1099612291082 m = 1099612291082)
    (h : Same m x s) : Ends m x (execGetShutdownState a0 s) := by
  unfold execGetShutdownState
  repeat' (first | with_reducible assumption | intro _ | with_reducible apply ends_next | with_reducible apply thenState_keeps | with_reducible refine State.mgrCmd_keeps (sub_of hm rfl) ?_ ?_ | with_reducible refine State.done_keeps (sub_of hm rfl) ?_ | split | dsimp only)

theorem execSetShutdownState_keeps {m : Nat} {x : State} {a0 : Nat} {a1 : Bool} {s : State} (hm : Nat.land 1103907258634 m = 1103907258634)
    (h : Same m x s) : Ends m x (execSetShutdownState a0 a1 s) := by
  unfold execSetShutdownState
  repeat' (first | with_reducible assumption | intro _ | with_reducible apply ends_next | with_reducible apply thenState_keeps | with_reducible refine State.mgrCmd_keeps (sub_of hm rfl) ?_ ?_ | with_reducible refine State.done_keeps (sub_of hm rfl) ?_ | with_reducible refine State.pstAdd_keeps (sub_of hm rfl) ?_ | split | dsimp only)

theorem execGetPoisonList_keeps {m : Nat} {x : State} {a0 : Nat} {a1 : BitVec 38} {a2 : BitVec 39} {s : State} (hm : Nat.land 1099612291082 m = 1099612291082)
    (h : Same m x s) : Ends m x (execGetPoisonList a0 a1 a2 s) := by
  unfold execGetPoisonList
  repeat' (first | with_reducible assumption | intro _ | with_reducible apply ends_next | with_reducible apply ends_ite | with_reducible apply same_ite | with_reducible apply thenState_keeps | with_reducible refine State.hostCmd_keeps (sub_of hm rfl) ?_ ?_ | with_reducible refine State.done_keeps (sub_of hm rfl) ?_ | split | dsimp only)

theorem execInjectPoison_keeps {m : Nat} {x : State} {a0 : Nat} {a1 : BitVec 38} {s : State} (hm : Nat.land 314447559261966 m = 314447559261966)
    (h : Same m x s) : Ends m x (execInjectPoison a0 a1 s) := by
  unfold execInjectPoison
  repeat' (first | with_reducible assumption | intro _ | with_reducible apply ends_next | with_reducible apply thenState_keeps | with_reducible refine State.hostCmd_keeps (sub_of hm rfl) ?_ ?_ | with_reducible refine State.poisonCmd_keeps (sub_of hm rfl) ?_ ?_ | with_reducible refine State.injectPoison_keeps (sub_of hm rfl) ?_ | split | dsimp only)

theorem execClearPoison_keeps {m : Nat} {x : State} {a0 : Nat} {a1 : BitVec 38} {a2 : Line} {s : State} (hm : Nat.land 314447559261966 m = 314447559261966)
    (h : Same m x s) : Ends m x (execClearPoison a0 a1 a2 s) := by
  unfold execClearPoison
  repeat' (first | with_reducible assumption | intro _ | with_reducible apply ends_next | with_reducible apply thenState_keeps | with_reducible refine State.hostCmd_keeps (sub_of hm rfl) ?_ ?_ | with_reducible refine State.poisonCmd_keeps (sub_of hm rfl) ?_ ?_ | with_reducible refine State.clearPoison_keeps (sub_of hm rfl) ?_ | split | dsimp only)

theorem execGetScanMediaCapabilities_keeps {m : Nat} {x : State} {a0 : Nat} {a1 : BitVec 38} {a2 : BitVec 39} {s : State} (hm : Nat.land 1099612291086 m = 1099612291086)
    (h : Same m x s) : Ends m x (execGetScanMediaCapabilities a0 a1 a2 s) := by
  unfold execGetScanMediaCapabilities
  repeat' (first | with_reducible assumption | intro _ | with_reducible apply ends_next | with_reducible apply ends_ite | with_reducible apply same_ite | with_reducible apply thenState_keeps | with_reducible refine State.hostCmd_keeps (sub_of hm rfl) ?_ ?_ | with_reducible refine State.done_keeps (sub_of hm rfl) ?_ | with_reducible refine State.drawn_keeps (sub_of hm rfl) ?_ | with_reducible refine State.mbox_keeps (sub_of hm rfl) ?_ | split | dsimp only)

theorem execScanMedia_keeps {m : Nat} {x : State} {a0 : Nat} {a1 : BitVec 38} {a2 : BitVec 39} {a3 : List (BitVec 38)} {s : State} (hm : Nat.land 1099613372426 m = 1099613372426)
    (h : Same m x s) : Ends m x (execScanMedia a0 a1 a2 a3 s) := by
  unfold execScanMedia
  repeat' (first | with_reducible assumption | intro _ | with_reducible apply ends_next | with_reducible apply ends_ite | with_reducible apply same_ite | with_reducible apply same_foldl | with_reducible apply thenState_keeps | with_reducible refine State.hostCmd_keeps (sub_of hm rfl) ?_ ?_ | with_reducible refine State.mbox_keeps (sub_of hm rfl) ?_ | with_reducible refine State.bgStart_keeps (sub_of hm rfl) ?_ | with_reducible refine State.bgDone_keeps (sub_of hm rfl) ?_ | fail_if_no_progress with_reducible refine upd_hp (sub_of hm rfl) ?_ | fail_if_no_progress with_reducible refine upd_sir (sub_of hm rfl) ?_ | split | dsimp only)

theorem execGetScanMediaResults_keeps {m : Nat} {x : State} {a0 : Nat} {s : State} (hm : Nat.land 1099612291082 m = 1099612291082)
    (h : Same m x s) : Ends m x (execGetScanMediaResults a0 s) := by
  unfold execGetScanMediaResults
  repeat' (first | with_reducible assumption | intro _ | with_reducible apply ends_next | with_reducible apply thenState_keeps | with_reducible refine State.hostCmd_keeps (sub_of hm rfl) ?_ ?_ | with_reducible refine State.done_keeps (sub_of hm rfl) ?_ | split | dsimp only)

theorem execSecureErase_keeps {m : Nat} {x : State} {a0 : Nat} {s : State} (hm : Nat.land 1121087144206 m = 1121087144206)
    (h : Same m x s) : Ends m x (execSecureErase a0 s) := by
  unfold execSecureErase
  repeat' (first | with_reducible assumption | intro _ | with_reducible apply ends_next | with_reducible apply ends_ite | with_reducible apply same_ite | with_reducible apply thenState_keeps | with_reducible refine State.mgrCmd_keeps (sub_of hm rfl) ?_ ?_ | with_reducible refine State.mbox_keeps (sub_of hm rfl) ?_ | with_reducible refine State.done_keeps (sub_of hm rfl) ?_ | with_reducible refine State.newRk_keeps (sub_of hm rfl) ?_ | split | dsimp only)

theorem execGetDcConfiguration_keeps {m : Nat} {x : State} {a0 : Nat} {s : State} (hm : Nat.land 1099612291082 m = 1099612291082)
    (h : Same m x s) : Ends m x (execGetDcConfiguration a0 s) := by
  unfold execGetDcConfiguration
  repeat' (first | with_reducible assumption | intro _ | with_reducible apply ends_next | with_reducible apply thenState_keeps | with_reducible refine State.hostCmd_keeps (sub_of hm rfl) ?_ ?_ | with_reducible refine State.done_keeps (sub_of hm rfl) ?_ | split | dsimp only)

theorem execGetDcExtentList_keeps {m : Nat} {x : State} {a0 : Nat} {s : State} (hm : Nat.land 1099612291082 m = 1099612291082)
    (h : Same m x s) : Ends m x (execGetDcExtentList a0 s) := by
  unfold execGetDcExtentList
  repeat' (first | with_reducible assumption | intro _ | with_reducible apply ends_next | with_reducible apply ends_ite | with_reducible apply same_ite | with_reducible apply thenState_keeps | with_reducible refine State.hostCmd_keeps (sub_of hm rfl) ?_ ?_ | with_reducible refine State.done_keeps (sub_of hm rfl) ?_ | split | dsimp only)

theorem execAddDcResponse_keeps {m : Nat} {x : State} {a0 : Nat} {a1 : List (BitVec 16 × BitVec 17)} {s : State} (hm : Nat.land 1103907291402 m = 1103907291402)
    (h : Same m x s) : Ends m x (execAddDcResponse a0 a1 s) := by
  unfold execAddDcResponse
  repeat' (first | with_reducible assumption | intro _ | with_reducible apply ends_next | with_reducible apply ends_ite | with_reducible apply same_ite | with_reducible apply same_foldl | with_reducible apply thenState_keeps | with_reducible refine State.hostCmd_keeps (sub_of hm rfl) ?_ ?_ | with_reducible refine State.done_keeps (sub_of hm rfl) ?_ | with_reducible refine State.regionSave_keeps (sub_of hm rfl) ?_ | with_reducible refine State.setExtent_keeps (sub_of hm rfl) ?_ | with_reducible refine State.mbox_keeps (sub_of hm rfl) ?_ | split | dsimp only)

theorem execReleaseDc_keeps {m : Nat} {x : State} {a0 : Nat} {a1 : List (BitVec 16 × BitVec 17)} {s : State} (hm : Nat.land 314447559261966 m = 314447559261966)
    (h : Same m x s) : Ends m x (execReleaseDc a0 a1 s) := by
  unfold execReleaseDc
  repeat' (first | with_reducible assumption | intro _ | with_reducible apply ends_next | with_reducible apply ends_ite | with_reducible apply same_ite | with_reducible apply same_dite | with_reducible apply same_foldl | with_reducible apply thenState_keeps | with_reducible refine State.hostCmd_keeps (sub_of hm rfl) ?_ ?_ | with_reducible refine State.releaseOne_keeps (sub_of hm rfl) ?_ | with_reducible refine State.serPump_keeps (sub_of hm rfl) ?_ | with_reducible refine State.done_keeps (sub_of hm rfl) ?_ | with_reducible refine State.mbox_keeps (sub_of hm rfl) ?_ | split | dsimp only)

theorem execUnsupportedOpcode_keeps {m : Nat} {x : State} {a0 : Nat} {a1 : BitVec 16} {s : State} (hm : Nat.land 1099612291082 m = 1099612291082)
    (h : Same m x s) : Ends m x (execUnsupportedOpcode a0 a1 s) := by
  unfold execUnsupportedOpcode
  repeat' (first | with_reducible assumption | intro _ | with_reducible apply ends_next | with_reducible apply ends_ite | with_reducible apply same_ite | with_reducible refine State.mbox_keeps (sub_of hm rfl) ?_ | split | dsimp only)

theorem execHpRetrain_keeps {m : Nat} {x : State} {a0 : Path} {a1 : Fin 8} {s : State} (hm : Nat.land 1099578737160 m = 1099578737160)
    (h : Same m x s) : Ends m x (execHpRetrain a0 a1 s) := by
  unfold execHpRetrain
  repeat' (first | with_reducible assumption | intro _ | with_reducible apply ends_next | with_reducible apply ends_ite | with_reducible apply same_ite | with_reducible refine State.regAcc_keeps (sub_of hm rfl) ?_ | with_reducible refine State.setBit_keeps (sub_of hm rfl) ?_ ?_ | with_reducible refine State.hostLinkDown_keeps (sub_of hm rfl) ?_ | with_reducible exact R.HP_CTL_ok (sub_of hm rfl) | with_reducible exact R.HP_STS_ok (sub_of hm rfl) | (with_reducible refine regOk_of (c := 13) (sub_of hm rfl) (blk13 ?_ ?_) <;> simp only [R.HP_CTL, R.HP_STS] <;> omega) | split | dsimp only)

theorem execHpCntClr_keeps {m : Nat} {x : State} {a0 : Path} {a1 : Fin 8} {a2 : Word} {s : State} (hm : Nat.land 1099578736648 m = 1099578736648)
    (h : Same m x s) : Ends m x (execHpCntClr a0 a1 a2 s) := by
  unfold execHpCntClr
  repeat' (first | with_reducible exact list_ok_nil | with_reducible refine list_ok_cons ?_ ?_ | with_reducible refine list_ok_append ?_ ?_ | with_reducible exact pc_ok | with_reducible refine range_ok ?_ | with_reducible assumption | intro _ | with_reducible apply ends_next | with_reducible apply same_when | with_reducible refine State.regAcc_keeps (sub_of hm rfl) ?_ | with_reducible refine State.zero_keeps (sub_of hm rfl) ?_ ?_ | with_reducible exact R.HP_IDE_ERR_ok (sub_of hm rfl) | with_reducible exact R.HP_RD_CNT_ok (sub_of hm rfl) | (with_reducible refine regOk_of (c := 13) (sub_of hm rfl) (blk13 ?_ ?_) <;> simp only [R.HP_IDE_ERR, R.HP_RD_CNT] <;> omega) | split | dsimp only)

theorem execHpBwWinWrite_keeps {m : Nat} {x : State} {a0 : Path} {a1 : Fin 8} {a2 : Word} {s : State} (hm : Nat.land 1099578769416 m = 1099578769416)
    (h : Same m x s) : Ends m x (execHpBwWinWrite a0 a1 a2 s) := by
  unfold execHpBwWinWrite
  repeat' (first | with_reducible assumption | intro _ | with_reducible apply ends_next | with_reducible apply ends_ite | with_reducible apply same_ite | with_reducible refine State.regAcc_keeps (sub_of hm rfl) ?_ | with_reducible refine State.bwStart_keeps (sub_of hm rfl) ?_ | with_reducible refine State.wrN_keeps (sub_of hm rfl) ?_ ?_ | with_reducible exact R.HP_BW_WIN_ok (sub_of hm rfl) | (with_reducible refine regOk_of (c := 13) (sub_of hm rfl) (blk13 ?_ ?_) <;> simp only [R.HP_BW_WIN] <;> omega) | split | dsimp only)

theorem execBandwidthWindowEnd_keeps {m : Nat} {x : State} {a0 : Fin 8} {s : State} (hm : Nat.land 1099511660552 m = 1099511660552)
    (h : Same m x s) : Ends m x (execBandwidthWindowEnd a0 s) := by
  unfold execBandwidthWindowEnd
  repeat' (first | with_reducible assumption | intro _ | with_reducible apply ends_next | with_reducible apply ends_ite | with_reducible apply same_ite | with_reducible refine State.bwStart_keeps (sub_of hm rfl) ?_ | with_reducible refine State.bump_keeps (sub_of hm rfl) ?_ ?_ | with_reducible refine State.wr64_keeps (sub_of hm rfl) ?_ ?_ ?_ | with_reducible exact R.HP_BW_RD_LO_ok (sub_of hm rfl) | with_reducible exact R.HP_BW_SEQ_ok (sub_of hm rfl) | with_reducible exact R.HP_BW_WR_LO_ok (sub_of hm rfl) | with_reducible exact R.HP_STS_ok (sub_of hm rfl) | (with_reducible refine regOk_of (c := 13) (sub_of hm rfl) (blk13 ?_ ?_) <;> simp only [R.HP_BW_RD_LO, R.HP_BW_SEQ, R.HP_BW_WR_LO, R.HP_STS] <;> omega) | split | dsimp only)

theorem execHdmDecoderCommit_keeps {m : Nat} {x : State} {a0 : Fin 8} {a1 : Fin 8} {a2 : BitVec 64} {a3 : BitVec 64} {a4 : Nat} {a5 : Nat} {a6 : BitVec 64} {a7 : Bool} {s : State} (hm : Nat.land 67141642 m = 67141642)
    (h : Same m x s) : Ends m x (execHdmDecoderCommit a0 a1 a2 a3 a4 a5 a6 a7 s) := by
  unfold execHdmDecoderCommit
  repeat' (first | with_reducible assumption | intro _ | with_reducible apply ends_next | with_reducible apply ends_ite | with_reducible apply same_ite | with_reducible refine State.emit_keeps (sub_of hm rfl) ?_ | fail_if_no_progress with_reducible refine upd_hp (sub_of hm rfl) ?_ | split | dsimp only)

theorem execPowerStateChange_keeps {m : Nat} {x : State} {a0 : Fin 8} {a1 : Bool} {s : State} (hm : Nat.land 1099511627784 m = 1099511627784)
    (h : Same m x s) : Ends m x (execPowerStateChange a0 a1 s) := by
  unfold execPowerStateChange
  repeat' (first | with_reducible assumption | intro _ | with_reducible apply ends_next | with_reducible apply ends_ite | with_reducible apply same_ite | with_reducible refine State.setBit_keeps (sub_of hm rfl) ?_ ?_ | with_reducible exact R.HP_STS_ok (sub_of hm rfl) | (with_reducible refine regOk_of (c := 13) (sub_of hm rfl) (blk13 ?_ ?_) <;> simp only [R.HP_STS] <;> omega) | split | dsimp only)

end Sys2Proof.Machine
end

