-- ==== Sys2Proof/Laws/FrameVendor.lean ====
section
/-! SUPPORT. The frame of every operation of Machine/Vendor.lean, as a mask of the kinds of state that it may change. -/

set_option autoImplicit false
set_option linter.unusedTactic false
set_option linter.unreachableTactic false
set_option linter.unnecessarySeqFocus false
set_option linter.unusedSimpArgs false
set_option linter.unusedVariables false

namespace Sys2Proof.Machine

theorem State.freeWords_keeps {m : Nat} {x : State} {s : State} {n : Nat} (hm : Nat.land 4 m = 4) (h : Same m x s) : Same m x (s.freeWords n).2 := by
  induction n with
  | zero => exact h
  | succ n ih => exact State.drawn_keeps (sub_of hm rfl) ih

theorem State.streamActive_keeps {m : Nat} {x : State} {s : State} {a1 : Stream} {a2 : Nat} {a3 : Nat} (hm : Nat.land 281474976727048 m = 281474976727048)
    (h : Same m x s) : Same m x (State.streamActive s a1 a2 a3) := by
  unfold State.streamActive
  repeat' (first | with_reducible assumption | intro _ | with_reducible apply same_ite | with_reducible refine State.streamMod_keeps (sub_of hm rfl) ?_ | with_reducible refine State.setBit_keeps (sub_of hm rfl) ?_ ?_ | with_reducible exact R.RT_RG_STS_ok (sub_of hm rfl) | (with_reducible refine regOk_of (c := 21) (sub_of hm rfl) (blk21 ?_ ?_) <;> simp only [R.RT_RG_STS] <;> omega) | split | dsimp only)

theorem State.streamCmd_keeps {m : Nat} {x : State} {s : State} {p n : Nat} {f : State → Stream → State} (hm : Nat.land 1099612291082 m = 1099612291082) (h : Same m x s)
    (hf : ∀ (t : State) (y : Stream), Same m x t → Same m x (f t y)) : Ends m x (s.streamCmd p n f) := by
  unfold State.streamCmd
  split
  · exact State.regionCmd_keeps (sub_of hm rfl) h (fun t ht => hf t _ ht)
  · exact State.hostCmd_keeps (sub_of hm rfl) h (fun t ht => State.mbox_keeps (sub_of hm rfl) ht)

theorem State.transferKey_keeps {m : Nat} {x : State} {s : State} {a1 : Nat} {a2 : Nat} (hm : Nat.land 1116792177166 m = 1116792177166)
    (h : Same m x s) : Same m x (State.transferKey s a1 a2) := by
  unfold State.transferKey
  repeat' (first | with_reducible assumption | intro _ | with_reducible refine State.mbox_keeps (sub_of hm rfl) ?_ | with_reducible refine State.noSlot_keeps (sub_of hm rfl) ?_ | with_reducible refine State.done_keeps (sub_of hm rfl) ?_ | with_reducible refine State.keyLoad_keeps (sub_of hm rfl) ?_ | with_reducible refine State.keySlotTake_keeps (sub_of hm rfl) ?_ | split | dsimp only)

theorem execKeyDerivationDone_keeps {m : Nat} {x : State} {s : State} (hm : Nat.land 314447559261966 m = 314447559261966)
    (h : Same m x s) : Ends m x (execKeyDerivationDone s) := by
  unfold execKeyDerivationDone
  repeat' (first | with_reducible assumption | intro _ | with_reducible apply ends_next | with_reducible refine State.serPump_keeps (sub_of hm rfl) ?_ | with_reducible refine State.keyDerivationDone_keeps (sub_of hm rfl) ?_ | split | dsimp only)

theorem execGetLatencyReport_keeps {m : Nat} {x : State} {a0 : Nat} {a1 : Bool} {s : State} (hm : Nat.land 9895705313290 m = 9895705313290)
    (h : Same m x s) : Ends m x (execGetLatencyReport a0 a1 s) := by
  unfold execGetLatencyReport
  repeat' (first | with_reducible exact list_ok_nil | with_reducible refine list_ok_cons ?_ ?_ | with_reducible refine list_ok_append ?_ ?_ | with_reducible exact pc_ok | with_reducible refine range_ok ?_ | with_reducible assumption | intro _ | with_reducible apply ends_next | with_reducible apply same_when | with_reducible apply thenState_keeps | with_reducible refine State.mgrCmd_keeps (sub_of hm rfl) ?_ ?_ | with_reducible refine State.done_keeps (sub_of hm rfl) ?_ | with_reducible refine State.zero_keeps (sub_of hm rfl) ?_ ?_ | with_reducible exact R.RT_LATE_STATE_ok (sub_of hm rfl) | with_reducible exact R.RT_SPD_ok (sub_of hm rfl) | with_reducible exact R.RT_STRAY_CNT_ok (sub_of hm rfl) | with_reducible exact R.RT_STS_ok (sub_of hm rfl) | with_reducible exact R.RT_WR_DROP_STATE_ok (sub_of hm rfl) | (with_reducible refine regOk_of (c := 16) (sub_of hm rfl) (blk16 ?_ ?_) <;> simp only [R.RT_LATE_STATE, R.RT_SPD, R.RT_STRAY_CNT, R.RT_STS, R.RT_WR_DROP_STATE] <;> omega) | split | dsimp only)

theorem execRegionSet_keeps {m : Nat} {x : State} {a0 : Nat} {a1 : Fin 16} {a2 : RgAttr} {s : State} (hm : Nat.land 314447559261966 m = 314447559261966)
    (h : Same m x s) : Ends m x (execRegionSet a0 a1 a2 s) := by
  unfold execRegionSet
  repeat' (first | with_reducible assumption | intro _ | with_reducible apply ends_next | with_reducible refine State.serCmd_keeps (sub_of hm rfl) ?_ | split | dsimp only)

theorem execContextSet_keeps {m : Nat} {x : State} {a0 : Nat} {a1 : Fin 16} {a2 : Bool} {a3 : BitVec 16} {a4 : BitVec 96} {s : State} (hm : Nat.land 314447559261966 m = 314447559261966)
    (h : Same m x s) : Ends m x (execContextSet a0 a1 a2 a3 a4 s) := by
  unfold execContextSet
  repeat' (first | with_reducible assumption | intro _ | with_reducible apply ends_next | with_reducible refine State.serCmd_keeps (sub_of hm rfl) ?_ | split | dsimp only)

theorem execRegionEnable_keeps {m : Nat} {x : State} {a0 : Nat} {a1 : Fin 16} {s : State} (hm : Nat.land 314447559261966 m = 314447559261966)
    (h : Same m x s) : Ends m x (execRegionEnable a0 a1 s) := by
  unfold execRegionEnable
  repeat' (first | with_reducible assumption | intro _ | with_reducible apply ends_next | with_reducible refine State.serCmd_keeps (sub_of hm rfl) ?_ | split | dsimp only)

theorem execRegionDisable_keeps {m : Nat} {x : State} {a0 : Nat} {a1 : Fin 16} {s : State} (hm : Nat.land 314447559261966 m = 314447559261966)
    (h : Same m x s) : Ends m x (execRegionDisable a0 a1 s) := by
  unfold execRegionDisable
  repeat' (first | with_reducible assumption | intro _ | with_reducible apply ends_next | with_reducible refine State.serCmdBg_keeps (sub_of hm rfl) ?_ | split | dsimp only)

theorem execRegionDisableForce_keeps {m : Nat} {x : State} {a0 : Nat} {a1 : Fin 16} {s : State} (hm : Nat.land 314447559261966 m = 314447559261966)
    (h : Same m x s) : Ends m x (execRegionDisableForce a0 a1 s) := by
  unfold execRegionDisableForce
  repeat' (first | with_reducible assumption | intro _ | with_reducible apply ends_next | with_reducible refine State.serCmdBg_keeps (sub_of hm rfl) ?_ | split | dsimp only)

theorem execRegionDisableTimeout_keeps {m : Nat} {x : State} {a0 : Fin 16} {s : State} (hm : Nat.land 314447559261966 m = 314447559261966)
    (h : Same m x s) : Ends m x (execRegionDisableTimeout a0 s) := by
  unfold execRegionDisableTimeout
  repeat' (first | with_reducible assumption | intro _ | with_reducible apply ends_next | with_reducible refine State.serPump_keeps (sub_of hm rfl) ?_ | with_reducible refine State.reply_keeps (sub_of hm rfl) ?_ | fail_if_no_progress with_reducible refine upd_hp (sub_of hm rfl) ?_ | split | dsimp only)

theorem execRegionQuery_keeps {m : Nat} {x : State} {a0 : Nat} {a1 : Fin 16} {s : State} (hm : Nat.land 1099612291082 m = 1099612291082)
    (h : Same m x s) : Ends m x (execRegionQuery a0 a1 s) := by
  unfold execRegionQuery
  repeat' (first | with_reducible assumption | intro _ | with_reducible apply ends_next | with_reducible apply thenState_keeps | with_reducible refine State.regionCmd_keeps (sub_of hm rfl) ?_ ?_ | with_reducible refine State.done_keeps (sub_of hm rfl) ?_ | split | dsimp only)

theorem execContextPrepare_keeps {m : Nat} {x : State} {a0 : Nat} {a1 : BitVec 128} {s : State} (hm : Nat.land 314447559261966 m = 314447559261966)
    (h : Same m x s) : Ends m x (execContextPrepare a0 a1 s) := by
  unfold execContextPrepare
  repeat' (first | with_reducible assumption | intro _ | with_reducible apply ends_next | with_reducible refine State.serCmd_keeps (sub_of hm rfl) ?_ | split | dsimp only)

theorem execRekey_keeps {m : Nat} {x : State} {a0 : Nat} {a1 : Fin 16} {s : State} (hm : Nat.land 314447559261966 m = 314447559261966)
    (h : Same m x s) : Ends m x (execRekey a0 a1 s) := by
  unfold execRekey
  repeat' (first | with_reducible assumption | intro _ | with_reducible apply ends_next | with_reducible refine State.serCmd_keeps (sub_of hm rfl) ?_ | split | dsimp only)

theorem execRekeyErase_keeps {m : Nat} {x : State} {a0 : Nat} {a1 : Fin 16} {s : State} (hm : Nat.land 314447559261966 m = 314447559261966)
    (h : Same m x s) : Ends m x (execRekeyErase a0 a1 s) := by
  unfold execRekeyErase
  repeat' (first | with_reducible assumption | intro _ | with_reducible apply ends_next | with_reducible refine State.serCmd_keeps (sub_of hm rfl) ?_ | split | dsimp only)

theorem execDiscard_keeps {m : Nat} {x : State} {a0 : Nat} {a1 : BitVec 32} {a2 : BitVec 33} {s : State} (hm : Nat.land 314447559261966 m = 314447559261966)
    (h : Same m x s) : Ends m x (execDiscard a0 a1 a2 s) := by
  unfold execDiscard
  repeat' (first | with_reducible assumption | intro _ | with_reducible apply ends_next | with_reducible apply ends_ite | with_reducible apply same_ite | with_reducible apply thenState_keeps | with_reducible refine State.hostCmd_keeps (sub_of hm rfl) ?_ ?_ | with_reducible refine State.mbox_keeps (sub_of hm rfl) ?_ | with_reducible refine State.regionCmd_keeps (sub_of hm rfl) ?_ ?_ | with_reducible refine State.bgStart_keeps (sub_of hm rfl) ?_ | with_reducible refine State.sendCmd_keeps (sub_of hm rfl) ?_ | with_reducible refine State.secureStart_keeps (sub_of hm rfl) ?_ | with_reducible refine State.reply_keeps (sub_of hm rfl) ?_ | with_reducible refine State.discardRange_keeps (sub_of hm rfl) ?_ | split | dsimp only)

theorem execSecureDiscardAccept_keeps {m : Nat} {x : State} {a0 : Nat} {s : State} (hm : Nat.land 314447559261966 m = 314447559261966)
    (h : Same m x s) : Ends m x (execSecureDiscardAccept a0 s) := by
  unfold execSecureDiscardAccept
  repeat' (first | with_reducible assumption | intro _ | with_reducible apply ends_next | with_reducible apply ends_ite | with_reducible apply same_ite | with_reducible refine State.pump_keeps (sub_of hm rfl) ?_ | with_reducible refine State.secureAccept_keeps (sub_of hm rfl) ?_ | split | dsimp only)

theorem execGetReportCard_keeps {m : Nat} {x : State} {a0 : Nat} {s : State} (hm : Nat.land 1099612291082 m = 1099612291082)
    (h : Same m x s) : Ends m x (execGetReportCard a0 s) := by
  unfold execGetReportCard
  repeat' (first | with_reducible assumption | intro _ | with_reducible apply ends_next | with_reducible apply thenState_keeps | with_reducible refine State.mgrCmd_keeps (sub_of hm rfl) ?_ ?_ | with_reducible refine State.done_keeps (sub_of hm rfl) ?_ | split | dsimp only)

theorem execSetReadWrite_keeps {m : Nat} {x : State} {a0 : Nat} {s : State} (hm : Nat.land 1099612299274 m = 1099612299274)
    (h : Same m x s) : Ends m x (execSetReadWrite a0 s) := by
  unfold execSetReadWrite
  repeat' (first | with_reducible assumption | intro _ | with_reducible apply ends_next | with_reducible apply ends_ite | with_reducible apply same_ite | with_reducible apply thenState_keeps | with_reducible refine State.mgrCmd_keeps (sub_of hm rfl) ?_ ?_ | with_reducible refine State.mbox_keeps (sub_of hm rfl) ?_ | with_reducible refine State.done_keeps (sub_of hm rfl) ?_ | fail_if_no_progress with_reducible refine upd_te (sub_of hm rfl) ?_ | split | dsimp only)

theorem execPortRoleSet_keeps {m : Nat} {x : State} {a0 : Nat} {a1 : BitVec 16} {s : State} (hm : Nat.land 314447559261966 m = 314447559261966)
    (h : Same m x s) : Ends m x (execPortRoleSet a0 a1 s) := by
  unfold execPortRoleSet
  repeat' (first | with_reducible assumption | intro _ | with_reducible apply ends_next | with_reducible refine State.serCmd_keeps (sub_of hm rfl) ?_ | split | dsimp only)

theorem execLifecycleSet_keeps {m : Nat} {x : State} {a0 : Nat} {a1 : Fin 3} {s : State} (hm : Nat.land 314447559261966 m = 314447559261966)
    (h : Same m x s) : Ends m x (execLifecycleSet a0 a1 s) := by
  unfold execLifecycleSet
  repeat' (first | with_reducible assumption | intro _ | with_reducible apply ends_next | with_reducible refine State.serCmd_keeps (sub_of hm rfl) ?_ | split | dsimp only)

theorem execLoadTransferKey_keeps {m : Nat} {x : State} {a0 : Nat} {a1 : KeyLoad} {s : State} (hm : Nat.land 1116792177166 m = 1116792177166)
    (h : Same m x s) : Ends m x (execLoadTransferKey a0 a1 s) := by
  unfold execLoadTransferKey
  repeat' (first | with_reducible assumption | intro _ | with_reducible apply ends_next | with_reducible apply ends_ite | with_reducible apply same_ite | with_reducible apply thenState_keeps | with_reducible refine State.mgrCmd_keeps (sub_of hm rfl) ?_ ?_ | with_reducible refine State.mbox_keeps (sub_of hm rfl) ?_ | with_reducible refine State.transferKey_keeps (sub_of hm rfl) ?_ | with_reducible refine State.keyUse_keeps (sub_of hm rfl) ?_ | split | dsimp only)

theorem execLoadPairKey_keeps {m : Nat} {x : State} {a0 : Nat} {a1 : Option Nat} {a2 : BitVec 256} {s : State} (hm : Nat.land 1121087144206 m = 1121087144206)
    (h : Same m x s) : Ends m x (execLoadPairKey a0 a1 a2 s) := by
  unfold execLoadPairKey
  repeat' (first | with_reducible assumption | intro _ | with_reducible apply ends_next | with_reducible apply ends_ite | with_reducible apply same_ite | with_reducible apply thenState_keeps | with_reducible refine State.mgrCmd_keeps (sub_of hm rfl) ?_ ?_ | with_reducible refine State.mbox_keeps (sub_of hm rfl) ?_ | with_reducible refine State.done_keeps (sub_of hm rfl) ?_ | with_reducible refine State.wrapKey_keeps (sub_of hm rfl) ?_ | with_reducible refine State.slotCountShow_keeps (sub_of hm rfl) ?_ | with_reducible refine State.fixSlot_keeps (sub_of hm rfl) ?_ | split | dsimp only)

theorem execStreamOpen_keeps {m : Nat} {x : State} {a0 : Nat} {a1 : Fin 16} {a2 : Bool} {a3 : Fin 4096} {a4 : Word} {a5 : BitVec 38} {a6 : BitVec 39} {s : State} (hm : Nat.land 1116792177162 m = 1116792177162)
    (h : Same m x s) : Ends m x (execStreamOpen a0 a1 a2 a3 a4 a5 a6 s) := by
  unfold execStreamOpen
  repeat' (first | with_reducible assumption | intro _ | with_reducible apply ends_next | with_reducible apply ends_ite | with_reducible apply same_ite | with_reducible apply same2_ite | with_reducible apply thenState_keeps | with_reducible refine State.regionCmd_keeps (sub_of hm rfl) ?_ ?_ | with_reducible refine State.mbox_keeps (sub_of hm rfl) ?_ | with_reducible refine State.noSlot_keeps (sub_of hm rfl) ?_ | with_reducible refine State.drbgTake_keeps (sub_of hm rfl) ?_ | with_reducible refine State.drbgTake_keeps_eq (sub_of hm rfl) (by assumption) ?_ | with_reducible refine State.derive_keeps (sub_of hm rfl) ?_ | with_reducible refine State.keySlotTake_keeps (sub_of hm rfl) ?_ | with_reducible refine State.done_keeps (sub_of hm rfl) ?_ | fail_if_no_progress with_reducible refine upd_ce (sub_of hm rfl) ?_ | split | dsimp only)

theorem execStreamRun_keeps {m : Nat} {x : State} {a0 : Nat} {a1 : Fin 4096} {s : State} (hm : Nat.land 282574589050890 m = 282574589050890)
    (h : Same m x s) : Ends m x (execStreamRun a0 a1 s) := by
  unfold execStreamRun
  repeat' (first | with_reducible assumption | intro _ | with_reducible apply ends_next | with_reducible apply ends_ite | with_reducible apply same_ite | with_reducible apply thenState_keeps | with_reducible refine State.streamCmd_keeps (sub_of hm rfl) ?_ ?_ | with_reducible refine State.mbox_keeps (sub_of hm rfl) ?_ | with_reducible refine State.streamActive_keeps (sub_of hm rfl) ?_ | with_reducible refine State.bgStart_keeps (sub_of hm rfl) ?_ | split | dsimp only)

theorem execStreamSave_keeps {m : Nat} {x : State} {a0 : Nat} {a1 : Fin 4096} {a2 : Bool} {s : State} (hm : Nat.land 282574589050894 m = 282574589050894)
    (h : Same m x s) : Ends m x (execStreamSave a0 a1 a2 s) := by
  unfold execStreamSave
  repeat' (first | with_reducible assumption | intro _ | with_reducible apply ends_next | with_reducible apply ends_ite | with_reducible apply same_ite | with_reducible apply thenState_keeps | with_reducible refine State.streamCmd_keeps (sub_of hm rfl) ?_ ?_ | with_reducible refine State.mbox_keeps (sub_of hm rfl) ?_ | with_reducible refine State.keyUse_keeps (sub_of hm rfl) ?_ | with_reducible refine State.streamMod_keeps (sub_of hm rfl) ?_ | with_reducible refine State.setBit_keeps (sub_of hm rfl) ?_ ?_ | with_reducible refine State.done_keeps (sub_of hm rfl) ?_ | with_reducible refine State.bgDone_keeps (sub_of hm rfl) ?_ | with_reducible exact R.RT_RG_STS_ok (sub_of hm rfl) | (with_reducible refine regOk_of (c := 21) (sub_of hm rfl) (blk21 ?_ ?_) <;> simp only [R.RT_RG_STS] <;> omega) | split | dsimp only)

theorem execStreamRestore_keeps {m : Nat} {x : State} {a0 : Nat} {a1 : List Word} {s : State} (hm : Nat.land 282574589050890 m = 282574589050890)
    (h : Same m x s) : Ends m x (execStreamRestore a0 a1 s) := by
  unfold execStreamRestore
  repeat' (first | with_reducible assumption | intro _ | with_reducible apply ends_next | with_reducible apply ends_ite | with_reducible apply same_ite | with_reducible apply thenState_keeps | with_reducible refine State.hostCmd_keeps (sub_of hm rfl) ?_ ?_ | with_reducible refine State.mbox_keeps (sub_of hm rfl) ?_ | with_reducible refine State.streamActive_keeps (sub_of hm rfl) ?_ | with_reducible refine State.bgStart_keeps (sub_of hm rfl) ?_ | split | dsimp only)

theorem execStreamAbort_keeps {m : Nat} {x : State} {a0 : Nat} {a1 : Fin 4096} {s : State} (hm : Nat.land 282729207882250 m = 282729207882250)
    (h : Same m x s) : Ends m x (execStreamAbort a0 a1 s) := by
  unfold execStreamAbort
  repeat' (first | with_reducible assumption | intro _ | with_reducible apply ends_next | with_reducible apply thenState_keeps | with_reducible refine State.streamCmd_keeps (sub_of hm rfl) ?_ ?_ | with_reducible refine State.done_keeps (sub_of hm rfl) ?_ | with_reducible refine State.streamAbort_keeps (sub_of hm rfl) ?_ | split | dsimp only)

theorem execRollBookRead_keeps {m : Nat} {x : State} {a0 : Nat} {a1 : Fin 8192} {a2 : Fin 257} {s : State} (hm : Nat.land 1099612291082 m = 1099612291082)
    (h : Same m x s) : Ends m x (execRollBookRead a0 a1 a2 s) := by
  unfold execRollBookRead
  repeat' (first | with_reducible assumption | intro _ | with_reducible apply ends_next | with_reducible apply thenState_keeps | with_reducible refine State.mgrCmd_keeps (sub_of hm rfl) ?_ ?_ | with_reducible refine State.done_keeps (sub_of hm rfl) ?_ | split | dsimp only)

theorem execRollBookArchiveAndClear_keeps {m : Nat} {x : State} {a0 : Nat} {a1 : Fin 8192} {s : State} (hm : Nat.land 1103907291914 m = 1103907291914)
    (h : Same m x s) : Ends m x (execRollBookArchiveAndClear a0 a1 s) := by
  unfold execRollBookArchiveAndClear
  repeat' (first | with_reducible assumption | intro _ | with_reducible apply ends_next | with_reducible apply ends_ite | with_reducible apply same_ite | with_reducible apply same_foldl | with_reducible apply thenState_keeps | with_reducible refine State.mgrCmd_keeps (sub_of hm rfl) ?_ ?_ | with_reducible refine State.mbox_keeps (sub_of hm rfl) ?_ | with_reducible refine State.rbClose_keeps (sub_of hm rfl) ?_ | with_reducible refine State.bgStart_keeps (sub_of hm rfl) ?_ | with_reducible refine State.bgDone_keeps (sub_of hm rfl) ?_ | with_reducible refine State.pstAdd_keeps (sub_of hm rfl) ?_ | with_reducible refine State.setBit_keeps (sub_of hm rfl) ?_ ?_ | with_reducible refine State.wrN_keeps (sub_of hm rfl) ?_ ?_ | fail_if_no_progress with_reducible refine upd_rb_hp (sub_of hm rfl) ?_ | with_reducible exact R.RB_COUNT_ok | with_reducible exact R.RB_HEAD_ok | with_reducible exact R.RB_STS_ok | split | dsimp only)

theorem execParameterRead_keeps {m : Nat} {x : State} {a0 : Nat} {a1 : BitVec 17} {a2 : Fin 2049} {s : State} (hm : Nat.land 1099612291082 m = 1099612291082)
    (h : Same m x s) : Ends m x (execParameterRead a0 a1 a2 s) := by
  unfold execParameterRead
  repeat' (first | with_reducible assumption | intro _ | with_reducible apply ends_next | with_reducible apply ends_ite | with_reducible apply same_ite | with_reducible apply thenState_keeps | with_reducible refine State.mgrCmd_keeps (sub_of hm rfl) ?_ ?_ | with_reducible refine State.mbox_keeps (sub_of hm rfl) ?_ | with_reducible refine State.done_keeps (sub_of hm rfl) ?_ | split | dsimp only)

theorem execParameterWrite_keeps {m : Nat} {x : State} {a0 : Nat} {a1 : BitVec 17} {a2 : List Word} {s : State} (hm : Nat.land 1103907258638 m = 1103907258638)
    (h : Same m x s) : Ends m x (execParameterWrite a0 a1 a2 s) := by
  unfold execParameterWrite
  repeat' (first | with_reducible assumption | intro _ | with_reducible apply ends_next | with_reducible apply ends_ite | with_reducible apply same_ite | with_reducible apply same2_ite | with_reducible apply thenState_keeps | with_reducible refine State.mgrCmd_keeps (sub_of hm rfl) ?_ ?_ | with_reducible refine State.mbox_keeps (sub_of hm rfl) ?_ | with_reducible refine State.freeWords_keeps (sub_of hm rfl) ?_ | with_reducible refine State.freeWords_keeps_eq (sub_of hm rfl) (by assumption) ?_ | with_reducible refine State.done_keeps (sub_of hm rfl) ?_ | with_reducible refine State.pstAdd_keeps (sub_of hm rfl) ?_ | split | dsimp only)

end Sys2Proof.Machine
end

