-- ==== Sys2Proof/Laws/FrameResetOps.lean ====
section
/-! SUPPORT. The frame of every operation of Machine/ResetOps.lean, as a mask of the kinds of state that it may change. -/

set_option autoImplicit false
set_option linter.unusedTactic false
set_option linter.unreachableTactic false
set_option linter.unnecessarySeqFocus false
set_option linter.unusedSimpArgs false
set_option linter.unusedVariables false

namespace Sys2Proof.Machine

theorem State.applyLevel_keeps {m : Nat} {x : State} {s : State} (hm : Nat.land 8796160196618 m = 8796160196618)
    (h : Same m x s) : Same m x (State.applyLevel s) := by
  unfold State.applyLevel
  repeat' (first | with_reducible assumption | intro _ | with_reducible apply same_ite | with_reducible refine State.set_keeps (sub_of hm rfl) ?_ ?_ | with_reducible refine State.fwdGrant_keeps (sub_of hm rfl) ?_ | with_reducible exact R.RT_STS_ok (sub_of hm rfl) | (with_reducible refine regOk_of (c := 16) (sub_of hm rfl) (blk16 ?_ ?_) <;> simp only [R.RT_STS] <;> omega) | split | dsimp only)

theorem State.cutMedia_keeps {m : Nat} {x : State} {s : State} (hm : Nat.land 270340 m = 270340)
    (h : Same m x s) : Same m x (State.cutMedia s) := by
  unfold State.cutMedia
  repeat' (first | with_reducible assumption | intro _ | with_reducible apply same_ite | with_reducible apply same_foldl | with_reducible refine State.mayScramble_keeps (sub_of hm rfl) ?_ | with_reducible refine State.scramble_keeps (sub_of hm rfl) ?_ | with_reducible refine State.dieReset_keeps (sub_of hm rfl) ?_ | split | dsimp only)

theorem State.pinsDown_keeps {m : Nat} {x : State} {s : State} {a1 : List Bool} (hm : Nat.land 67108874 m = 67108874)
    (h : Same m x s) : Same m x (State.pinsDown s a1) := by
  unfold State.pinsDown
  repeat' (first | with_reducible assumption | intro _ | with_reducible apply same_ite | with_reducible apply same_foldl | with_reducible refine State.emit_keeps (sub_of hm rfl) ?_ | split | dsimp only)

theorem State.lcReset_keeps {m : Nat} {x : State} {s : State} {a1 : Bool} (hm : Nat.land 34426851848 m = 34426851848)
    (h : Same m x s) : Same m x (State.lcReset s a1) := by
  unfold State.lcReset
  repeat' (first | with_reducible assumption | intro _ | with_reducible apply same_ite | with_reducible refine State.staleShow_keeps (sub_of hm rfl) ?_ | with_reducible refine State.roll_keeps (sub_of hm rfl) ?_ | with_reducible refine State.wrN_keeps (sub_of hm rfl) ?_ ?_ | fail_if_no_progress with_reducible refine upd_lc (sub_of hm rfl) ?_ | with_reducible exact R.LC_CTL_ok (sub_of hm rfl) | with_reducible exact R.LC_RST_LOST_ok (sub_of hm rfl) | (with_reducible refine regOk_of (c := 8) (sub_of hm rfl) (blk8 ?_ ?_) <;> simp only [R.LC_CTL, R.LC_RST_LOST] <;> omega) | split | dsimp only)

theorem State.coreRegs_keeps {m : Nat} {x : State} {s : State} {a1 : Bool} (hm : Nat.land 562949819203592 m = 562949819203592)
    (h : Same m x s) : Same m x (State.coreRegs s a1) := by
  unfold State.coreRegs
  repeat' (first | with_reducible assumption | intro _ | with_reducible apply same_ite | with_reducible apply same_foldl | with_reducible refine State.set_keeps (sub_of hm rfl) ?_ ?_ | with_reducible refine State.wr_keeps (sub_of hm rfl) ?_ ?_ | with_reducible refine State.setBit_keeps (sub_of hm rfl) ?_ ?_ | fail_if_no_progress with_reducible refine upd_regs (sub_of hm rfl) (sub_of hm rfl) ?_ | with_reducible exact R.CAR_STS_ok (sub_of hm rfl) | with_reducible exact R.HP_STS_ok (sub_of hm rfl) | with_reducible exact R.LC_CTL_ok (sub_of hm rfl) | with_reducible exact R.LC_STS_ok (sub_of hm rfl) | with_reducible exact R.RT_STS_ok (sub_of hm rfl) | (with_reducible refine regOk_of (c := 0) (sub_of hm rfl) (blk0 ?_) <;> simp only [] <;> omega) | (with_reducible refine regOk_of (c := 1) (sub_of hm rfl) (blk1 ?_ ?_) <;> simp only [] <;> omega) | (with_reducible refine regOk_of (c := 2) (sub_of hm rfl) (blk2 ?_ ?_) <;> simp only [] <;> omega) | (with_reducible refine regOk_of (c := 3) (sub_of hm rfl) (blk3 ?_ ?_) <;> simp only [] <;> omega) | (with_reducible refine regOk_of (c := 4) (sub_of hm rfl) (blk4 ?_ ?_) <;> simp only [] <;> omega) | (with_reducible refine regOk_of (c := 5) (sub_of hm rfl) (blk5 ?_ ?_) <;> simp only [] <;> omega) | (with_reducible refine regOk_of (c := 6) (sub_of hm rfl) (blk6 ?_ ?_) <;> simp only [] <;> omega) | (with_reducible refine regOk_of (c := 7) (sub_of hm rfl) (blk7 ?_ ?_) <;> simp only [] <;> omega) | (with_reducible refine regOk_of (c := 8) (sub_of hm rfl) (blk8 ?_ ?_) <;> simp only [R.LC_CTL, R.LC_STS] <;> omega) | (with_reducible refine regOk_of (c := 9) (sub_of hm rfl) (blk9 ?_ ?_) <;> simp only [] <;> omega) | (with_reducible refine regOk_of (c := 10) (sub_of hm rfl) (blk10 ?_ ?_) <;> simp only [] <;> omega) | (with_reducible refine regOk_of (c := 11) (sub_of hm rfl) (blk11 ?_ ?_) <;> simp only [] <;> omega) | (with_reducible refine regOk_of (c := 12) (sub_of hm rfl) (blk12 ?_ ?_) <;> simp only [R.CAR_STS] <;> omega) | (with_reducible refine regOk_of (c := 13) (sub_of hm rfl) (blk13 ?_ ?_) <;> simp only [R.HP_STS] <;> omega) | (with_reducible refine regOk_of (c := 14) (sub_of hm rfl) (blk14 ?_ ?_) <;> simp only [] <;> omega) | (with_reducible refine regOk_of (c := 15) (sub_of hm rfl) (blk15 ?_ ?_) <;> simp only [] <;> omega) | (with_reducible refine regOk_of (c := 16) (sub_of hm rfl) (blk16 ?_ ?_) <;> simp only [R.RT_STS] <;> omega) | (with_reducible refine regOk_of (c := 17) (sub_of hm rfl) (blk17 ?_ ?_) <;> simp only [] <;> omega) | (with_reducible refine regOk_of (c := 18) (sub_of hm rfl) (blk18 ?_ ?_) <;> simp only [] <;> omega) | (with_reducible refine regOk_of (c := 19) (sub_of hm rfl) (blk19 ?_ ?_) <;> simp only [] <;> omega) | (with_reducible refine regOk_of (c := 20) (sub_of hm rfl) (blk20 ?_ ?_) <;> simp only [] <;> omega) | (with_reducible refine regOk_of (c := 21) (sub_of hm rfl) (blk21 ?_ ?_) <;> simp only [] <;> omega) | exact regOk_all (sub_of hm rfl) _ | split | dsimp only)

theorem State.teReset_keeps {m : Nat} {x : State} {s : State} {a1 : Bool} (hm : Nat.land 8192 m = 8192)
    (h : Same m x s) : Same m x (State.teReset s a1) := by
  unfold State.teReset
  repeat' (first | with_reducible assumption | intro _ | with_reducible apply same_ite | fail_if_no_progress with_reducible refine upd_te (sub_of hm rfl) ?_ | split | dsimp only)

theorem State.coreDown_keeps {m : Nat} {x : State} {s : State} {a1 : Nat} (hm : Nat.land 562949945032270 m = 562949945032270)
    (h : Same m x s) : Same m x (State.coreDown s a1) := by
  unfold State.coreDown
  repeat' (first | with_reducible assumption | intro _ | with_reducible apply same_ite | with_reducible apply same_when | with_reducible apply same_foldl | with_reducible refine State.streamEnd_keeps (sub_of hm rfl) ?_ | with_reducible refine State.hostLinkDown_keeps (sub_of hm rfl) ?_ | with_reducible refine State.holdToken_keeps (sub_of hm rfl) ?_ | with_reducible refine State.linkEvent_keeps (sub_of hm rfl) ?_ | with_reducible refine State.cutMedia_keeps (sub_of hm rfl) ?_ | with_reducible refine State.pinsDown_keeps (sub_of hm rfl) ?_ | with_reducible refine State.lcReset_keeps (sub_of hm rfl) ?_ | with_reducible refine State.coreRegs_keeps (sub_of hm rfl) ?_ | with_reducible refine State.teReset_keeps (sub_of hm rfl) ?_ | with_reducible refine State.setBit_keeps (sub_of hm rfl) ?_ ?_ | with_reducible refine State.bmapShow_keeps (sub_of hm rfl) ?_ | with_reducible refine State.alertShow_keeps (sub_of hm rfl) ?_ | fail_if_no_progress with_reducible refine upd_dom_fc_rt_ce_hp_tw_dc_mcTry_sir_hk_arch_boot_mq_tst (sub_of hm rfl) ?_ | with_reducible exact R.CAR_STS_ok (sub_of hm rfl) | with_reducible exact R.DC_STS_ok (sub_of hm rfl) | with_reducible exact R.HP_STS_ok (sub_of hm rfl) | with_reducible exact R.LC_CTL_ok (sub_of hm rfl) | with_reducible exact R.LC_STS_ok (sub_of hm rfl) | with_reducible exact R.TS_STS_ok (sub_of hm rfl) | (with_reducible refine regOk_of (c := 8) (sub_of hm rfl) (blk8 ?_ ?_) <;> simp only [R.LC_CTL, R.LC_STS] <;> omega) | (with_reducible refine regOk_of (c := 12) (sub_of hm rfl) (blk12 ?_ ?_) <;> simp only [R.CAR_STS] <;> omega) | (with_reducible refine regOk_of (c := 14) (sub_of hm rfl) (blk14 ?_ ?_) <;> simp only [R.DC_STS] <;> omega) | exact regOk_all (sub_of hm rfl) _ | split | dsimp only)

theorem State.bootHalt_keeps {m : Nat} {x : State} {s : State} {a1 : Nat} (hm : Nat.land 268435464 m = 268435464)
    (h : Same m x s) : Same m x (State.bootHalt s a1) := by
  unfold State.bootHalt
  repeat' (first | with_reducible assumption | intro _ | with_reducible refine State.set_keeps (sub_of hm rfl) ?_ ?_ | with_reducible refine State.setBit_keeps (sub_of hm rfl) ?_ ?_ | with_reducible exact R.BOOT_STS_ok (sub_of hm rfl) | (with_reducible refine regOk_of (c := 1) (sub_of hm rfl) (blk1 ?_ ?_) <;> simp only [R.BOOT_STS] <;> omega) | split | dsimp only)

theorem State.pdWrite_keeps {m : Nat} {x : State} {s : State} {a1 : Nat} (hm : Nat.land 4362076938 m = 4362076938)
    (h : Same m x s) : Same m x (State.pdWrite s a1) := by
  unfold State.pdWrite
  repeat' (first | with_reducible assumption | intro _ | with_reducible apply same_ite | with_reducible refine State.pstAdd_keeps (sub_of hm rfl) ?_ | with_reducible refine State.rbClose_keeps (sub_of hm rfl) ?_ | split | dsimp only)

theorem State.keysStart_keeps {m : Nat} {x : State} {s : State} {a1 : Bool} (hm : Nat.land 17263773198 m = 17263773198)
    (h : Same m x s) : Same m x (State.keysStart s a1) := by
  unfold State.keysStart
  repeat' (first | with_reducible assumption | intro _ | with_reducible apply same_ite | with_reducible apply same_foldl | with_reducible apply same2_ite | with_reducible apply same_foldl2 | with_reducible refine State.setBit_keeps (sub_of hm rfl) ?_ ?_ | with_reducible refine State.set_keeps (sub_of hm rfl) ?_ ?_ | with_reducible refine State.drbgTake_keeps (sub_of hm rfl) ?_ | with_reducible refine State.drbgTake_keeps_eq (sub_of hm rfl) (by assumption) ?_ | with_reducible refine State.fixSlot_keeps (sub_of hm rfl) ?_ | with_reducible refine State.rkLoad_keeps (sub_of hm rfl) ?_ | with_reducible refine State.raise_keeps (sub_of hm rfl) ?_ | with_reducible refine State.derive_keeps (sub_of hm rfl) ?_ | with_reducible refine State.keySlotTake_keeps (sub_of hm rfl) ?_ | with_reducible refine State.slotCountShow_keeps (sub_of hm rfl) ?_ | fail_if_no_progress with_reducible refine upd_ce (sub_of hm rfl) ?_ | with_reducible exact R.CE_STS_ok (sub_of hm rfl) | (with_reducible refine regOk_of (c := 7) (sub_of hm rfl) (blk7 ?_ ?_) <;> simp only [R.CE_STS] <;> omega) | split | dsimp only)

theorem State.dirtyShutdown_keeps {m : Nat} {x : State} {s : State} {a1 : List Nat} (hm : Nat.land 1103873736970 m = 1103873736970)
    (h : Same m x s) : Same m x (State.dirtyShutdown s a1) := by
  unfold State.dirtyShutdown
  repeat' (first | with_reducible assumption | intro _ | with_reducible refine State.moduleEvent_keeps (sub_of hm rfl) ?_ | with_reducible refine State.pstAdd_keeps (sub_of hm rfl) ?_ | split | dsimp only)

theorem State.coreBegin_keeps {m : Nat} {x : State} {s : State} {a1 : Option Nat} {a2 : Bool} (hm : Nat.land 10467188786958 m = 10467188786958)
    (h : Same m x s) : Same m x (State.coreBegin s a1 a2) := by
  unfold State.coreBegin
  repeat' (first | with_reducible assumption | intro _ | with_reducible apply same_ite | with_reducible apply same_foldl | with_reducible refine State.bankBit_keeps (sub_of hm rfl) (.inl rfl) ?_ | with_reducible refine State.bankBit_keeps (sub_of hm rfl) (.inr rfl) ?_ | with_reducible refine State.setBit_keeps (sub_of hm rfl) ?_ ?_ | with_reducible refine State.set_keeps (sub_of hm rfl) ?_ ?_ | with_reducible refine State.wrN_keeps (sub_of hm rfl) ?_ ?_ | with_reducible refine State.applyLevel_keeps (sub_of hm rfl) ?_ | with_reducible refine State.keysStart_keeps (sub_of hm rfl) ?_ | with_reducible refine State.bootHalt_keeps (sub_of hm rfl) ?_ | with_reducible refine State.dirtyShutdown_keeps (sub_of hm rfl) ?_ | with_reducible refine State.roll_keeps (sub_of hm rfl) ?_ | with_reducible refine State.pdWrite_keeps (sub_of hm rfl) ?_ | fail_if_no_progress with_reducible refine upd_fc_sir (sub_of hm rfl) ?_ | with_reducible exact R.BOOT_STS_ok (sub_of hm rfl) | with_reducible exact R.CAR_PAIR_GEN_ok (sub_of hm rfl) | with_reducible exact R.CAR_STS_ok (sub_of hm rfl) | with_reducible exact R.FC_SEEN_ok | with_reducible exact R.HK_STS_ok (sub_of hm rfl) | with_reducible exact R.PSQ_UP_US_ok (sub_of hm rfl) | with_reducible exact R.RT_STS_ok (sub_of hm rfl) | (with_reducible refine regOk_of (c := 1) (sub_of hm rfl) (blk1 ?_ ?_) <;> simp only [R.BOOT_STS] <;> omega) | (with_reducible refine regOk_of (c := 12) (sub_of hm rfl) (blk12 ?_ ?_) <;> simp only [R.CAR_PAIR_GEN, R.CAR_STS] <;> omega) | (with_reducible refine regOk_of (c := 16) (sub_of hm rfl) (blk16 ?_ ?_) <;> simp only [R.RT_STS] <;> omega) | split | dsimp only)

theorem State.coreRelease_keeps {m : Nat} {x : State} {s : State} (hm : Nat.land 104169734216 m = 104169734216)
    (h : Same m x s) : Same m x (State.coreRelease s) := by
  unfold State.coreRelease
  repeat' (first | with_reducible assumption | intro _ | with_reducible refine State.mapcInvStart_keeps (sub_of hm rfl) ?_ | with_reducible refine State.setBit_keeps (sub_of hm rfl) ?_ ?_ | with_reducible refine State.set_keeps (sub_of hm rfl) ?_ ?_ | fail_if_no_progress with_reducible refine upd_dom_boot (sub_of hm rfl) ?_ | with_reducible exact R.LC_STS_ok (sub_of hm rfl) | with_reducible exact R.PSQ_STS_ok (sub_of hm rfl) | (with_reducible refine regOk_of (c := 3) (sub_of hm rfl) (blk3 ?_ ?_) <;> simp only [R.PSQ_STS] <;> omega) | (with_reducible refine regOk_of (c := 8) (sub_of hm rfl) (blk8 ?_ ?_) <;> simp only [R.LC_STS] <;> omega) | split | dsimp only)

theorem State.coreReset_keeps {m : Nat} {x : State} {s : State} {a1 : Nat} (hm : Nat.land 562949953421150 m = 562949953421150)
    (h : Same m x s) : Same m x (State.coreReset s a1) := by
  unfold State.coreReset
  repeat' (first | with_reducible assumption | intro _ | with_reducible apply same_ite | with_reducible refine State.pdWrite_keeps (sub_of hm rfl) ?_ | with_reducible refine State.coreDown_keeps (sub_of hm rfl) ?_ | with_reducible refine State.bump_keeps (sub_of hm rfl) ?_ ?_ | with_reducible refine State.setBit_keeps (sub_of hm rfl) ?_ ?_ | with_reducible refine State.set_keeps (sub_of hm rfl) ?_ ?_ | fail_if_no_progress with_reducible refine upd_tick_psq (sub_of hm rfl) ?_ | with_reducible exact R.BOOT_RST_CNT_ok (sub_of hm rfl) | with_reducible exact R.BOOT_STS_ok (sub_of hm rfl) | with_reducible exact R.FC_STS_ok | (with_reducible refine regOk_of (c := 1) (sub_of hm rfl) (blk1 ?_ ?_) <;> simp only [R.BOOT_RST_CNT, R.BOOT_STS] <;> omega) | exact regOk_all (sub_of hm rfl) _ | split | dsimp only)

theorem State.coreStart_keeps {m : Nat} {x : State} {s : State} {a1 : Bool} (hm : Nat.land 10571341743950 m = 10571341743950)
    (h : Same m x s) : Same m x (State.coreStart s a1) := by
  unfold State.coreStart
  repeat' (first | with_reducible assumption | intro _ | with_reducible apply same_ite | with_reducible refine State.coreBegin_keeps (sub_of hm rfl) ?_ | with_reducible refine State.coreRelease_keeps (sub_of hm rfl) ?_ | split | dsimp only)

theorem State.latchedLoss_keeps {m : Nat} {x : State} {s : State} (hm : Nat.land 1104158949642 m = 1104158949642)
    (h : Same m x s) : Same m x (State.latchedLoss s) := by
  unfold State.latchedLoss
  repeat' (first | with_reducible assumption | intro _ | with_reducible apply same_ite | with_reducible refine State.dirtyShutdown_keeps (sub_of hm rfl) ?_ | with_reducible refine State.setBit_keeps (sub_of hm rfl) ?_ ?_ | fail_if_no_progress with_reducible refine upd_boot (sub_of hm rfl) ?_ | with_reducible exact R.BOOT_STS_ok (sub_of hm rfl) | (with_reducible refine regOk_of (c := 1) (sub_of hm rfl) (blk1 ?_ ?_) <;> simp only [R.BOOT_STS] <;> omega) | split | dsimp only)

end Sys2Proof.Machine
end

