-- ==== Sys2Proof/Laws/FrameThermOps.lean ====
section
/-! SUPPORT. The frame of every operation of Machine/ThermOps.lean, as a mask of the kinds of state that it may change. -/

set_option autoImplicit false
set_option linter.unusedTactic false
set_option linter.unreachableTactic false
set_option linter.unnecessarySeqFocus false
set_option linter.unusedSimpArgs false
set_option linter.unusedVariables false

namespace Sys2Proof.Machine

theorem State.condShow_keeps {m : Nat} {x : State} {s : State} (hm : Nat.land 2147483656 m = 2147483656)
    (h : Same m x s) : Same m x (State.condShow s) := by
  unfold State.condShow
  repeat' (first | with_reducible assumption | intro _ | with_reducible refine State.setBit_keeps (sub_of hm rfl) ?_ ?_ | with_reducible exact R.HK_STS_ok (sub_of hm rfl) | (with_reducible refine regOk_of (c := 4) (sub_of hm rfl) (blk4 ?_ ?_) <;> simp only [R.HK_STS] <;> omega) | split | dsimp only)

theorem State.setTherm_keeps {m : Nat} {x : State} {s : State} {a1 : Nat} (hm : Nat.land 9897819341322 m = 9897819341322)
    (h : Same m x s) : Same m x (State.setTherm s a1) := by
  unfold State.setTherm
  repeat' (first | with_reducible assumption | intro _ | with_reducible apply same_ite | with_reducible apply same_when | with_reducible refine State.set_keeps (sub_of hm rfl) ?_ ?_ | with_reducible refine State.roll_keeps (sub_of hm rfl) ?_ | with_reducible refine State.bump_keeps (sub_of hm rfl) ?_ ?_ | with_reducible refine State.moduleEvent_keeps (sub_of hm rfl) ?_ | with_reducible refine State.applyLevel_keeps (sub_of hm rfl) ?_ | with_reducible exact R.HK_CTL_ok (sub_of hm rfl) | with_reducible exact R.HK_STS_ok (sub_of hm rfl) | with_reducible exact R.HK_THROT_CNT_ok (sub_of hm rfl) | with_reducible exact R.RT_STS_ok (sub_of hm rfl) | (with_reducible refine regOk_of (c := 4) (sub_of hm rfl) (blk4 ?_ ?_) <;> simp only [R.HK_CTL, R.HK_STS, R.HK_THROT_CNT] <;> omega) | (with_reducible refine regOk_of (c := 16) (sub_of hm rfl) (blk16 ?_ ?_) <;> simp only [R.RT_STS] <;> omega) | split | dsimp only)

theorem State.throttle_keeps {m : Nat} {x : State} {s : State} (hm : Nat.land 9897821438474 m = 9897821438474)
    (h : Same m x s) : Same m x (State.throttle s) := by
  unfold State.throttle
  repeat' (first | with_reducible assumption | intro _ | with_reducible apply same_ite | with_reducible refine State.setTherm_keeps (sub_of hm rfl) ?_ | fail_if_no_progress with_reducible refine upd_hk (sub_of hm rfl) ?_ | split | dsimp only)

theorem State.setCond_keeps {m : Nat} {x : State} {s : State} {a1 : Nat} {a2 : ThermCond} (hm : Nat.land 2097152 m = 2097152)
    (h : Same m x s) : Same m x (State.setCond s a1 a2) := by
  unfold State.setCond
  repeat' (first | with_reducible assumption | intro _ | fail_if_no_progress with_reducible refine upd_hk (sub_of hm rfl) ?_ | split | dsimp only)

theorem State.condsNow_keeps {m : Nat} {x : State} {s : State} (hm : Nat.land 9897821438474 m = 9897821438474)
    (h : Same m x s) : Same m x (State.condsNow s) := by
  unfold State.condsNow
  repeat' (first | with_reducible assumption | intro _ | with_reducible apply same_ite | with_reducible apply same_foldl | with_reducible refine State.throttle_keeps (sub_of hm rfl) ?_ | with_reducible refine State.condShow_keeps (sub_of hm rfl) ?_ | with_reducible refine State.setCond_keeps (sub_of hm rfl) ?_ | split | dsimp only)

theorem State.condsRound_keeps {m : Nat} {x : State} {s : State} (hm : Nat.land 9897821438474 m = 9897821438474)
    (h : Same m x s) : Same m x (State.condsRound s) := by
  unfold State.condsRound
  repeat' (first | with_reducible assumption | intro _ | with_reducible apply same_ite | with_reducible apply same_foldl | with_reducible refine State.setCond_keeps (sub_of hm rfl) ?_ | with_reducible refine State.throttle_keeps (sub_of hm rfl) ?_ | with_reducible refine State.condShow_keeps (sub_of hm rfl) ?_ | fail_if_no_progress with_reducible refine upd_hk (sub_of hm rfl) ?_ | split | dsimp only)

theorem State.exclude_keeps {m : Nat} {x : State} {s : State} {a1 : Nat} (hm : Nat.land 5774668498446 m = 5774668498446)
    (h : Same m x s) : Same m x (State.exclude s a1) := by
  unfold State.exclude
  repeat' (first | with_reducible assumption | intro _ | with_reducible apply same_ite | with_reducible refine State.setBit_keeps (sub_of hm rfl) ?_ ?_ | with_reducible refine State.roll_keeps (sub_of hm rfl) ?_ | with_reducible refine State.raise_keeps (sub_of hm rfl) ?_ | with_reducible refine State.bump_keeps (sub_of hm rfl) ?_ ?_ | with_reducible refine State.moduleEvent_keeps (sub_of hm rfl) ?_ | with_reducible refine State.setBand_keeps (sub_of hm rfl) ?_ | with_reducible exact R.HK_CH_ok (sub_of hm rfl) | with_reducible exact R.HK_EXCL_ok (sub_of hm rfl) | with_reducible exact R.HK_EXCL_CNT_ok (sub_of hm rfl) | with_reducible exact R.HK_STS_ok (sub_of hm rfl) | (with_reducible refine regOk_of (c := 4) (sub_of hm rfl) (blk4 ?_ ?_) <;> simp only [R.HK_CH, R.HK_EXCL, R.HK_EXCL_CNT, R.HK_STS] <;> omega) | split | dsimp only)

theorem State.oddRound_keeps {m : Nat} {x : State} {s : State} {a1 : Nat} {a2 : Bool} (hm : Nat.land 5774670595598 m = 5774670595598)
    (h : Same m x s) : Same m x (State.oddRound s a1 a2) := by
  unfold State.oddRound
  repeat' (first | with_reducible assumption | intro _ | with_reducible apply same_ite | with_reducible refine State.exclude_keeps (sub_of hm rfl) ?_ | fail_if_no_progress with_reducible refine upd_hk (sub_of hm rfl) ?_ | split | dsimp only)

theorem State.crossCheck_keeps {m : Nat} {x : State} {s : State} {a1 : Nat} {a2 : Nat} (hm : Nat.land 5774670595598 m = 5774670595598)
    (h : Same m x s) : Same m x (State.crossCheck s a1 a2) := by
  unfold State.crossCheck
  repeat' (first | with_reducible assumption | intro _ | with_reducible apply same_ite | with_reducible refine State.oddRound_keeps (sub_of hm rfl) ?_ | with_reducible refine State.exclude_keeps (sub_of hm rfl) ?_ | with_reducible refine State.setBit_keeps (sub_of hm rfl) ?_ ?_ | with_reducible exact R.HK_CH_ok (sub_of hm rfl) | (with_reducible refine regOk_of (c := 4) (sub_of hm rfl) (blk4 ?_ ?_) <;> simp only [R.HK_CH] <;> omega) | split | dsimp only)

theorem State.hotShow_keeps {m : Nat} {x : State} {s : State} (hm : Nat.land 2147483656 m = 2147483656)
    (h : Same m x s) : Same m x (State.hotShow s) := by
  unfold State.hotShow
  repeat' (first | with_reducible assumption | intro _ | with_reducible refine State.wrN_keeps (sub_of hm rfl) ?_ ?_ | with_reducible exact R.HK_HOT_ok (sub_of hm rfl) | (with_reducible refine regOk_of (c := 4) (sub_of hm rfl) (blk4 ?_ ?_) <;> simp only [R.HK_HOT] <;> omega) | split | dsimp only)

theorem State.rorDisarm_keeps {m : Nat} {x : State} {s : State} (hm : Nat.land 9897821438474 m = 9897821438474)
    (h : Same m x s) : Same m x (State.rorDisarm s) := by
  unfold State.rorDisarm
  repeat' (first | with_reducible assumption | intro _ | with_reducible refine State.condShow_keeps (sub_of hm rfl) ?_ | with_reducible refine State.setBit_keeps (sub_of hm rfl) ?_ ?_ | with_reducible refine State.setTherm_keeps (sub_of hm rfl) ?_ | fail_if_no_progress with_reducible refine upd_hk (sub_of hm rfl) ?_ | with_reducible exact R.HK_STS_ok (sub_of hm rfl) | (with_reducible refine regOk_of (c := 4) (sub_of hm rfl) (blk4 ?_ ?_) <;> simp only [R.HK_STS] <;> omega) | split | dsimp only)

theorem State.rorShow_keeps {m : Nat} {x : State} {s : State} (hm : Nat.land 2147483656 m = 2147483656)
    (h : Same m x s) : Same m x (State.rorShow s) := by
  unfold State.rorShow
  repeat' (first | with_reducible assumption | intro _ | with_reducible apply same_ite | with_reducible apply same_foldl | with_reducible refine State.wrN_keeps (sub_of hm rfl) ?_ ?_ | with_reducible exact R.HK_ROR_ok (sub_of hm rfl) | with_reducible exact R.HK_STS_ok (sub_of hm rfl) | (with_reducible refine regOk_of (c := 4) (sub_of hm rfl) (blk4 ?_ ?_) <;> simp only [R.HK_ROR, R.HK_STS] <;> omega) | split | dsimp only)

end Sys2Proof.Machine
end

