-- ==== Sys2Proof/Laws/FrameTranslation.lean ====
section
/-! SUPPORT. The frame of every operation of Machine/Translation.lean, as a mask of the kinds of state that it may change. -/

set_option autoImplicit false
set_option linter.unusedTactic false
set_option linter.unreachableTactic false
set_option linter.unnecessarySeqFocus false
set_option linter.unusedSimpArgs false
set_option linter.unusedVariables false

namespace Sys2Proof.Machine

theorem State.wakeRepair_keeps {m : Nat} {x : State} {s : State} {a1 : Nat} (hm : Nat.land 314447559261966 m = 314447559261966)
    (h : Same m x s) : Same m x (State.wakeRepair s a1) := by
  unfold State.wakeRepair
  repeat' (first | with_reducible assumption | intro _ | with_reducible apply same_ite | with_reducible refine State.pump_keeps (sub_of hm rfl) ?_ | fail_if_no_progress with_reducible refine upd_rt (sub_of hm rfl) ?_ | split | dsimp only)

theorem execMapRepairDone_keeps {m : Nat} {x : State} {a0 : BitVec 32} {a1 : Bool} {s : State} (hm : Nat.land 314447559261966 m = 314447559261966)
    (h : Same m x s) : Ends m x (execMapRepairDone a0 a1 s) := by
  unfold execMapRepairDone
  repeat' (first | with_reducible assumption | intro _ | with_reducible apply ends_next | with_reducible apply ends_ite | with_reducible apply same_ite | with_reducible refine State.setBit_keeps (sub_of hm rfl) ?_ ?_ | with_reducible refine State.bump_keeps (sub_of hm rfl) ?_ ?_ | with_reducible refine State.wakeRepair_keeps (sub_of hm rfl) ?_ | with_reducible refine State.setEntry_keeps (sub_of hm rfl) ?_ | with_reducible refine State.roll_keeps (sub_of hm rfl) ?_ | with_reducible refine State.ptWhole_keeps (sub_of hm rfl) ?_ | fail_if_no_progress with_reducible refine upd_te (sub_of hm rfl) ?_ | with_reducible exact R.TE_MAP_REPAIR_ok (sub_of hm rfl) | with_reducible exact R.TE_STS_ok (sub_of hm rfl) | (with_reducible refine regOk_of (c := 9) (sub_of hm rfl) (blk9 ?_ ?_) <;> simp only [R.TE_MAP_REPAIR, R.TE_STS] <;> omega) | split | dsimp only)

theorem execPtileConvert_keeps {m : Nat} {x : State} {a0 : BitVec 32} {s : State} (hm : Nat.land 19451974099722 m = 19451974099722)
    (h : Same m x s) : Ends m x (execPtileConvert a0 s) := by
  unfold execPtileConvert
  repeat' (first | with_reducible assumption | intro _ | with_reducible apply ends_next | with_reducible apply ends_ite | with_reducible apply same_ite | with_reducible apply same_foldl | with_reducible refine State.poisonLine_keeps (sub_of hm rfl) ?_ | with_reducible refine State.ptWholeClear_keeps (sub_of hm rfl) ?_ | split | dsimp only)

theorem execSeqHwRaised_keeps {m : Nat} {x : State} {s : State} (hm : Nat.land 314447559261966 m = 314447559261966)
    (h : Same m x s) : Ends m x (execSeqHwRaised s) := by
  unfold execSeqHwRaised
  repeat' (first | with_reducible assumption | intro _ | with_reducible apply ends_next | with_reducible apply ends_ite | with_reducible apply same_ite | with_reducible refine State.wrN_keeps (sub_of hm rfl) ?_ ?_ | with_reducible refine State.pump_keeps (sub_of hm rfl) ?_ | with_reducible refine State.progNumbers_keeps (sub_of hm rfl) ?_ | with_reducible refine State.seqMarks_keeps (sub_of hm rfl) ?_ | with_reducible refine State.dramLedger_keeps (sub_of hm rfl) ?_ | fail_if_no_progress with_reducible refine upd_te (sub_of hm rfl) ?_ | with_reducible exact R.TE_SEQ_HW_HI_ok (sub_of hm rfl) | with_reducible exact R.TE_SEQ_HW_LO_ok (sub_of hm rfl) | (with_reducible refine regOk_of (c := 9) (sub_of hm rfl) (blk9 ?_ ?_) <;> simp only [R.TE_SEQ_HW_HI, R.TE_SEQ_HW_LO] <;> omega) | split | dsimp only)

theorem execJournalIntervalExpiry_keeps {m : Nat} {x : State} {s : State} (hm : Nat.land 19451974099722 m = 19451974099722)
    (h : Same m x s) : Ends m x (execJournalIntervalExpiry s) := by
  unfold execJournalIntervalExpiry
  repeat' (first | with_reducible assumption | intro _ | with_reducible apply ends_next | with_reducible apply ends_ite | with_reducible apply same_ite | with_reducible refine State.journalFlush_keeps (sub_of hm rfl) ?_ | split | dsimp only)

theorem execTeFlush_keeps {m : Nat} {x : State} {a0 : Path} {s : State} (hm : Nat.land 19451974099722 m = 19451974099722)
    (h : Same m x s) : Ends m x (execTeFlush a0 s) := by
  unfold execTeFlush
  repeat' (first | with_reducible assumption | intro _ | with_reducible apply ends_next | with_reducible apply ends_ite | with_reducible apply same_ite | with_reducible refine State.regAcc_keeps (sub_of hm rfl) ?_ | with_reducible refine State.journalFlush_keeps (sub_of hm rfl) ?_ | split | dsimp only)

theorem execTeCkptAll_keeps {m : Nat} {x : State} {a0 : Path} {s : State} (hm : Nat.land 68786593800 m = 68786593800)
    (h : Same m x s) : Ends m x (execTeCkptAll a0 s) := by
  unfold execTeCkptAll
  repeat' (first | with_reducible assumption | intro _ | with_reducible apply ends_next | with_reducible apply ends_ite | with_reducible apply same_ite | with_reducible refine State.regAcc_keeps (sub_of hm rfl) ?_ | with_reducible refine State.ckptAll_keeps (sub_of hm rfl) ?_ | split | dsimp only)

theorem execCheckpointWrite_keeps {m : Nat} {x : State} {a0 : Nat} {s : State} (hm : Nat.land 1859788071690 m = 1859788071690)
    (h : Same m x s) : Ends m x (execCheckpointWrite a0 s) := by
  unfold execCheckpointWrite
  repeat' (first | with_reducible assumption | intro _ | with_reducible apply ends_next | with_reducible apply ends_ite | with_reducible apply same_ite | with_reducible refine State.checkpoint_keeps (sub_of hm rfl) ?_ | split | dsimp only)

theorem execTeCntClr_keeps {m : Nat} {x : State} {a0 : Path} {a1 : Word} {s : State} (hm : Nat.land 68786585608 m = 68786585608)
    (h : Same m x s) : Ends m x (execTeCntClr a0 a1 s) := by
  unfold execTeCntClr
  repeat' (first | with_reducible exact list_ok_nil | with_reducible refine list_ok_cons ?_ ?_ | with_reducible refine list_ok_append ?_ ?_ | with_reducible exact pc_ok | with_reducible refine range_ok ?_ | with_reducible assumption | intro _ | with_reducible apply ends_next | with_reducible apply same_when | with_reducible refine State.regAcc_keeps (sub_of hm rfl) ?_ | with_reducible refine State.zero_keeps (sub_of hm rfl) ?_ ?_ | with_reducible exact R.TE_JRN_FLUSH_CNT_ok (sub_of hm rfl) | with_reducible exact R.TE_MAP_REPAIR_ok (sub_of hm rfl) | (with_reducible refine regOk_of (c := 9) (sub_of hm rfl) (blk9 ?_ ?_) <;> simp only [R.TE_JRN_FLUSH_CNT, R.TE_MAP_REPAIR] <;> omega) | split | dsimp only)

end Sys2Proof.Machine
end

