-- ==== Sys2Proof/Laws/FramePowerOps.lean ====
section
/-! SUPPORT. The frame of every operation of Machine/PowerOps.lean, as a mask of the kinds of state that it may change. -/

set_option autoImplicit false
set_option linter.unusedTactic false
set_option linter.unreachableTactic false
set_option linter.unnecessarySeqFocus false
set_option linter.unusedSimpArgs false
set_option linter.unusedVariables false

namespace Sys2Proof.Machine

theorem State.allDue_keeps {m : Nat} {x : State} {s : State} (hm : Nat.land 8192 m = 8192)
    (h : Same m x s) : Same m x (State.allDue s) := by
  unfold State.allDue
  repeat' (first | with_reducible assumption | intro _ | with_reducible apply same_ite | fail_if_no_progress with_reducible refine upd_te (sub_of hm rfl) ?_ | split | dsimp only)

theorem State.finishProg_keeps {m : Nat} {x : State} {s : State} {a1 : Nat} {a2 : Bool} (hm : Nat.land 305599876295438 m = 305599876295438)
    (h : Same m x s) : Same m x (State.finishProg s a1 a2) := by
  unfold State.finishProg
  repeat' (first | with_reducible assumption | intro _ | with_reducible apply same_ite | with_reducible refine State.progMod_keeps (sub_of hm rfl) ?_ | with_reducible refine State.progGathered_keeps (sub_of hm rfl) ?_ | with_reducible refine State.issueProg_keeps (sub_of hm rfl) ?_ | with_reducible refine State.progPass_keeps (sub_of hm rfl) ?_ | fail_if_no_progress with_reducible refine upd_ce (sub_of hm rfl) ?_ | fail_if_no_progress with_reducible refine upd_te (sub_of hm rfl) ?_ | split | dsimp only)

theorem State.checkpointNow_keeps {m : Nat} {x : State} {s : State} (hm : Nat.land 305599876295438 m = 305599876295438)
    (h : Same m x s) : Same m x (State.checkpointNow s) := by
  unfold State.checkpointNow
  repeat' (first | with_reducible assumption | intro _ | with_reducible apply same_foldl | with_reducible refine State.checkpoint_keeps (sub_of hm rfl) ?_ | with_reducible refine State.finishProg_keeps (sub_of hm rfl) ?_ | split | dsimp only)

theorem State.railEn_keeps {m : Nat} {x : State} {s : State} {a1 : Nat} {a2 : Bool} (hm : Nat.land 1140850698 m = 1140850698)
    (h : Same m x s) : Same m x (State.railEn s a1 a2) := by
  unfold State.railEn
  repeat' (first | with_reducible assumption | intro _ | with_reducible refine State.setBit_keeps (sub_of hm rfl) ?_ ?_ | with_reducible refine State.emit_keeps (sub_of hm rfl) ?_ | with_reducible exact R.PSQ_RAIL_ok (sub_of hm rfl) | (with_reducible refine regOk_of (c := 3) (sub_of hm rfl) (blk3 ?_ ?_) <;> simp only [R.PSQ_RAIL] <;> omega) | split | dsimp only)

theorem State.cisAbort_keeps {m : Nat} {x : State} {s : State} (hm : Nat.land 1149239306 m = 1149239306)
    (h : Same m x s) : Same m x (State.cisAbort s) := by
  unfold State.cisAbort
  repeat' (first | with_reducible assumption | intro _ | with_reducible apply same_ite | with_reducible apply same_foldl | with_reducible refine State.emit_keeps (sub_of hm rfl) ?_ | with_reducible refine State.railEn_keeps (sub_of hm rfl) ?_ | with_reducible refine State.setBit_keeps (sub_of hm rfl) ?_ ?_ | fail_if_no_progress with_reducible refine upd_psq (sub_of hm rfl) ?_ | with_reducible exact R.CIS_CTL_ok (sub_of hm rfl) | with_reducible exact R.CIS_STS_ok (sub_of hm rfl) | (with_reducible refine regOk_of (c := 3) (sub_of hm rfl) (blk3 ?_ ?_) <;> simp only [R.CIS_CTL, R.CIS_STS] <;> omega) | split | dsimp only)

theorem State.cisStart_keeps {m : Nat} {x : State} {s : State} (hm : Nat.land 1149239306 m = 1149239306)
    (h : Same m x s) : Same m x (State.cisStart s) := by
  unfold State.cisStart
  repeat' (first | with_reducible assumption | intro _ | with_reducible apply same_ite | with_reducible apply same_foldl | with_reducible refine State.railEn_keeps (sub_of hm rfl) ?_ | with_reducible refine State.setBit_keeps (sub_of hm rfl) ?_ ?_ | fail_if_no_progress with_reducible refine upd_psq (sub_of hm rfl) ?_ | with_reducible exact R.CIS_CTL_ok (sub_of hm rfl) | with_reducible exact R.CIS_STS_ok (sub_of hm rfl) | (with_reducible refine regOk_of (c := 3) (sub_of hm rfl) (blk3 ?_ ?_) <;> simp only [R.CIS_CTL, R.CIS_STS] <;> omega) | split | dsimp only)

theorem State.cisRequest_keeps {m : Nat} {x : State} {s : State} (hm : Nat.land 1149239306 m = 1149239306)
    (h : Same m x s) : Same m x (State.cisRequest s) := by
  unfold State.cisRequest
  repeat' (first | with_reducible assumption | intro _ | with_reducible apply same_ite | with_reducible refine State.cisStart_keeps (sub_of hm rfl) ?_ | with_reducible refine State.bump_keeps (sub_of hm rfl) ?_ ?_ | with_reducible refine State.setBit_keeps (sub_of hm rfl) ?_ ?_ | with_reducible exact R.CIS_DEFER_CNT_ok (sub_of hm rfl) | with_reducible exact R.CIS_STS_ok (sub_of hm rfl) | (with_reducible refine regOk_of (c := 3) (sub_of hm rfl) (blk3 ?_ ?_) <;> simp only [R.CIS_DEFER_CNT, R.CIS_STS] <;> omega) | split | dsimp only)

theorem State.closeOpen_keeps {m : Nat} {x : State} {s : State} (hm : Nat.land 19451974099722 m = 19451974099722)
    (h : Same m x s) : Same m x (State.closeOpen s) := by
  unfold State.closeOpen
  repeat' (first | with_reducible assumption | intro _ | with_reducible apply same_foldl | with_reducible refine State.closeBlock_keeps (sub_of hm rfl) ?_ | split | dsimp only)

theorem State.closeStripes_keeps {m : Nat} {x : State} {s : State} (hm : Nat.land 305599876295438 m = 305599876295438)
    (h : Same m x s) : Same m x (State.closeStripes s) := by
  unfold State.closeStripes
  repeat' (first | with_reducible assumption | intro _ | with_reducible apply same_foldl | with_reducible refine State.stripeClose_keeps (sub_of hm rfl) ?_ | with_reducible refine State.finishProg_keeps (sub_of hm rfl) ?_ | split | dsimp only)

theorem State.viralAll_keeps {m : Nat} {x : State} {s : State} (hm : Nat.land 1099511627784 m = 1099511627784)
    (h : Same m x s) : Same m x (State.viralAll s) := by
  unfold State.viralAll
  repeat' (first | with_reducible assumption | intro _ | with_reducible apply same_when | with_reducible apply same_foldl | with_reducible refine State.setBit_keeps (sub_of hm rfl) ?_ ?_ | with_reducible exact R.HP_STS_ok (sub_of hm rfl) | (with_reducible refine regOk_of (c := 13) (sub_of hm rfl) (blk13 ?_ ?_) <;> simp only [R.HP_STS] <;> omega) | split | dsimp only)

theorem State.setPhase_keeps {m : Nat} {x : State} {s : State} {a1 : Nat} (hm : Nat.land 1140851208 m = 1140851208)
    (h : Same m x s) : Same m x (State.setPhase s a1) := by
  unfold State.setPhase
  repeat' (first | with_reducible assumption | intro _ | with_reducible apply same_when | with_reducible refine State.set_keeps (sub_of hm rfl) ?_ ?_ | with_reducible refine State.roll_keeps (sub_of hm rfl) ?_ | with_reducible refine State.pcItem_keeps (sub_of hm rfl) ?_ | with_reducible exact R.PSQ_CTL_ok (sub_of hm rfl) | with_reducible exact R.PSQ_STS_ok (sub_of hm rfl) | (with_reducible refine regOk_of (c := 3) (sub_of hm rfl) (blk3 ?_ ?_) <;> simp only [R.PSQ_CTL, R.PSQ_STS] <;> omega) | split | dsimp only)

theorem State.histSave_keeps {m : Nat} {x : State} {s : State} (hm : Nat.land 4364173578 m = 4364173578)
    (h : Same m x s) : Same m x (State.histSave s) := by
  unfold State.histSave
  repeat' (first | with_reducible assumption | intro _ | with_reducible apply same_foldl | with_reducible refine State.pstAdd_keeps (sub_of hm rfl) ?_ | fail_if_no_progress with_reducible refine upd_hk (sub_of hm rfl) ?_ | split | dsimp only)

theorem State.downNext_keeps {m : Nat} {x : State} {s : State} (hm : Nat.land 1140851210 m = 1140851210)
    (h : Same m x s) : Same m x (State.downNext s) := by
  unfold State.downNext
  repeat' (first | with_reducible assumption | intro _ | with_reducible refine State.set_keeps (sub_of hm rfl) ?_ ?_ | with_reducible refine State.railEn_keeps (sub_of hm rfl) ?_ | with_reducible refine State.setPhase_keeps (sub_of hm rfl) ?_ | with_reducible exact R.PSQ_STS_ok (sub_of hm rfl) | (with_reducible refine regOk_of (c := 3) (sub_of hm rfl) (blk3 ?_ ?_) <;> simp only [R.PSQ_STS] <;> omega) | split | dsimp only)

theorem State.coreOff_keeps {m : Nat} {x : State} {s : State} (hm : Nat.land 562949945032270 m = 562949945032270)
    (h : Same m x s) : Same m x (State.coreOff s) := by
  unfold State.coreOff
  repeat' (first | with_reducible assumption | intro _ | with_reducible apply same_ite | with_reducible refine State.setBit_keeps (sub_of hm rfl) ?_ ?_ | with_reducible refine State.coreDown_keeps (sub_of hm rfl) ?_ | with_reducible refine State.set_keeps (sub_of hm rfl) ?_ ?_ | with_reducible refine State.bump_keeps (sub_of hm rfl) ?_ ?_ | with_reducible exact R.BOOT_RST_CNT_ok (sub_of hm rfl) | with_reducible exact R.BOOT_STS_ok (sub_of hm rfl) | with_reducible exact R.PSQ_STS_ok (sub_of hm rfl) | (with_reducible refine regOk_of (c := 1) (sub_of hm rfl) (blk1 ?_ ?_) <;> simp only [R.BOOT_RST_CNT, R.BOOT_STS] <;> omega) | (with_reducible refine regOk_of (c := 3) (sub_of hm rfl) (blk3 ?_ ?_) <;> simp only [R.PSQ_STS] <;> omega) | exact regOk_all (sub_of hm rfl) _ | split | dsimp only)

theorem State.startDown_keeps {m : Nat} {x : State} {s : State} (hm : Nat.land 562949953421134 m = 562949953421134)
    (h : Same m x s) : Same m x (State.startDown s) := by
  unfold State.startDown
  repeat' (first | with_reducible assumption | intro _ | with_reducible refine State.rbClose_keeps (sub_of hm rfl) ?_ | with_reducible refine State.setPhase_keeps (sub_of hm rfl) ?_ | with_reducible refine State.histSave_keeps (sub_of hm rfl) ?_ | with_reducible refine State.downNext_keeps (sub_of hm rfl) ?_ | with_reducible refine State.coreOff_keeps (sub_of hm rfl) ?_ | fail_if_no_progress with_reducible refine upd_te_psq (sub_of hm rfl) ?_ | exact regOk_all (sub_of hm rfl) _ | split | dsimp only)

theorem State.resetDown_keeps {m : Nat} {x : State} {s : State} (hm : Nat.land 562949953421134 m = 562949953421134)
    (h : Same m x s) : Same m x (State.resetDown s) := by
  unfold State.resetDown
  repeat' (first | with_reducible assumption | intro _ | with_reducible refine State.startDown_keeps (sub_of hm rfl) ?_ | with_reducible refine State.pdWrite_keeps (sub_of hm rfl) ?_ | exact regOk_all (sub_of hm rfl) _ | split | dsimp only)

theorem State.vcoreWrite_keeps {m : Nat} {x : State} {s : State} {a1 : Nat} (hm : Nat.land 1145045002 m = 1145045002)
    (h : Same m x s) : Same m x (State.vcoreWrite s a1) := by
  unfold State.vcoreWrite
  repeat' (first | with_reducible assumption | intro _ | with_reducible refine State.set_keeps (sub_of hm rfl) ?_ ?_ | with_reducible refine State.emit_keeps (sub_of hm rfl) ?_ | fail_if_no_progress with_reducible refine upd_arch (sub_of hm rfl) ?_ | with_reducible exact R.PSQ_VCORE_ok (sub_of hm rfl) | (with_reducible refine regOk_of (c := 3) (sub_of hm rfl) (blk3 ?_ ?_) <;> simp only [R.PSQ_VCORE] <;> omega) | split | dsimp only)

theorem State.pmbPut_keeps {m : Nat} {x : State} {s : State} {a1 : List PmbOp} (hm : Nat.land 8388608 m = 8388608)
    (h : Same m x s) : Same m x (State.pmbPut s a1) := by
  unfold State.pmbPut
  repeat' (first | with_reducible assumption | intro _ | fail_if_no_progress with_reducible refine upd_psq (sub_of hm rfl) ?_ | split | dsimp only)

theorem State.margShow_keeps {m : Nat} {x : State} {s : State} (hm : Nat.land 8797233938442 m = 8797233938442)
    (h : Same m x s) : Same m x (State.margShow s) := by
  unfold State.margShow
  repeat' (first | with_reducible assumption | intro _ | with_reducible apply same_ite | with_reducible apply same_foldl | with_reducible refine State.setBit_keeps (sub_of hm rfl) ?_ ?_ | with_reducible refine State.set_keeps (sub_of hm rfl) ?_ ?_ | with_reducible refine State.applyLevel_keeps (sub_of hm rfl) ?_ | with_reducible exact R.PSQ_MARG_CTL_ok (sub_of hm rfl) | with_reducible exact R.PSQ_MARG_STS_ok (sub_of hm rfl) | with_reducible exact R.PSQ_STS_ok (sub_of hm rfl) | with_reducible exact R.RT_STS_ok (sub_of hm rfl) | (with_reducible refine regOk_of (c := 3) (sub_of hm rfl) (blk3 ?_ ?_) <;> simp only [R.PSQ_MARG_CTL, R.PSQ_MARG_STS, R.PSQ_STS] <;> omega) | (with_reducible refine regOk_of (c := 16) (sub_of hm rfl) (blk16 ?_ ?_) <;> simp only [R.RT_STS] <;> omega) | split | dsimp only)

theorem State.margDrop_keeps {m : Nat} {x : State} {s : State} {a1 : Nat} (hm : Nat.land 8797246521354 m = 8797246521354)
    (h : Same m x s) : Same m x (State.margDrop s a1) := by
  unfold State.margDrop
  repeat' (first | with_reducible assumption | intro _ | with_reducible apply same_ite | with_reducible refine State.vcoreWrite_keeps (sub_of hm rfl) ?_ | with_reducible refine State.setBit_keeps (sub_of hm rfl) ?_ ?_ | with_reducible refine State.pmbPut_keeps (sub_of hm rfl) ?_ | with_reducible refine State.margShow_keeps (sub_of hm rfl) ?_ | fail_if_no_progress with_reducible refine upd_psq (sub_of hm rfl) ?_ | with_reducible exact R.PSQ_MARG_STS_ok (sub_of hm rfl) | (with_reducible refine regOk_of (c := 3) (sub_of hm rfl) (blk3 ?_ ?_) <;> simp only [R.PSQ_MARG_STS] <;> omega) | split | dsimp only)

theorem State.margClear_keeps {m : Nat} {x : State} {s : State} (hm : Nat.land 8797246521354 m = 8797246521354)
    (h : Same m x s) : Same m x (State.margClear s) := by
  unfold State.margClear
  repeat' (first | with_reducible assumption | intro _ | with_reducible apply same_foldl | with_reducible refine State.margDrop_keeps (sub_of hm rfl) ?_ | split | dsimp only)

theorem State.lastAlive_keeps {m : Nat} {x : State} {s : State} (hm : Nat.land 4362076426 m = 4362076426)
    (h : Same m x s) : Same m x (State.lastAlive s) := by
  unfold State.lastAlive
  repeat' (first | with_reducible assumption | intro _ | with_reducible refine State.pstAdd_keeps (sub_of hm rfl) ?_ | split | dsimp only)

theorem State.rollSnap_keeps {m : Nat} {x : State} {s : State} {a1 : Nat} {a2 : Nat} {a3 : Nat} {a4 : Nat} {a5 : Nat} (hm : Nat.land 67109384 m = 67109384)
    (h : Same m x s) : Same m x (State.rollSnap s a1 a2 a3 a4 a5) := by
  unfold State.rollSnap
  repeat' (first | with_reducible assumption | intro _ | with_reducible refine State.rbEventSnap_keeps (sub_of hm rfl) ?_ | split | dsimp only)

theorem State.drainStart_keeps {m : Nat} {x : State} {s : State} {a1 : Nat} (hm : Nat.land 562949953421134 m = 562949953421134)
    (h : Same m x s) : Same m x (State.drainStart s a1) := by
  unfold State.drainStart
  repeat' (first | with_reducible assumption | intro _ | with_reducible apply same_ite | with_reducible refine State.resetDown_keeps (sub_of hm rfl) ?_ | with_reducible refine State.cisAbort_keeps (sub_of hm rfl) ?_ | with_reducible refine State.setPhase_keeps (sub_of hm rfl) ?_ | with_reducible refine State.margClear_keeps (sub_of hm rfl) ?_ | with_reducible refine State.sendDown_keeps (sub_of hm rfl) ?_ | with_reducible refine State.lastAlive_keeps (sub_of hm rfl) ?_ | with_reducible refine State.pdWrite_keeps (sub_of hm rfl) ?_ | with_reducible refine State.rollSnap_keeps (sub_of hm rfl) ?_ | with_reducible refine State.bump_keeps (sub_of hm rfl) ?_ ?_ | fail_if_no_progress with_reducible refine upd_te_psq_boot (sub_of hm rfl) ?_ | with_reducible exact R.PSQ_DRAIN_CNT_ok (sub_of hm rfl) | with_reducible exact R.TE_STS_ok (sub_of hm rfl) | (with_reducible refine regOk_of (c := 3) (sub_of hm rfl) (blk3 ?_ ?_) <;> simp only [R.PSQ_DRAIN_CNT] <;> omega) | exact regOk_all (sub_of hm rfl) _ | split | dsimp only)

theorem State.contain_keeps {m : Nat} {x : State} {s : State} (hm : Nat.land 562949953421134 m = 562949953421134)
    (h : Same m x s) : Same m x (State.contain s) := by
  unfold State.contain
  repeat' (first | with_reducible assumption | intro _ | with_reducible apply same_ite | with_reducible refine State.rbEvent_keeps (sub_of hm rfl) ?_ | with_reducible refine State.viralAll_keeps (sub_of hm rfl) ?_ | with_reducible refine State.setBit_keeps (sub_of hm rfl) ?_ ?_ | with_reducible refine State.emit_keeps (sub_of hm rfl) ?_ | with_reducible refine State.drainStart_keeps (sub_of hm rfl) ?_ | with_reducible refine State.fatalEvent_keeps (sub_of hm rfl) ?_ | with_reducible refine State.bump_keeps (sub_of hm rfl) ?_ ?_ | fail_if_no_progress with_reducible refine upd_fc (sub_of hm rfl) ?_ | fail_if_no_progress with_reducible refine upd_tw (sub_of hm rfl) ?_ | with_reducible exact R.FC_CONTAIN_CNT_ok | with_reducible exact R.FC_STS_ok | exact regOk_all (sub_of hm rfl) _ | split | dsimp only)

theorem State.containEnd_keeps {m : Nat} {x : State} {s : State} (hm : Nat.land 562949953420878 m = 562949953420878)
    (h : Same m x s) : Same m x (State.containEnd s) := by
  unfold State.containEnd
  repeat' (first | with_reducible assumption | intro _ | with_reducible apply same_ite | with_reducible refine State.setPhase_keeps (sub_of hm rfl) ?_ | with_reducible refine State.coreDown_keeps (sub_of hm rfl) ?_ | with_reducible refine State.set_keeps (sub_of hm rfl) ?_ ?_ | with_reducible refine State.setBit_keeps (sub_of hm rfl) ?_ ?_ | fail_if_no_progress with_reducible refine upd_boot (sub_of hm rfl) ?_ | fail_if_no_progress with_reducible refine upd_te_psq (sub_of hm rfl) ?_ | with_reducible exact R.BOOT_STS_ok (sub_of hm rfl) | with_reducible exact R.FC_STS_ok | (with_reducible refine regOk_of (c := 1) (sub_of hm rfl) (blk1 ?_ ?_) <;> simp only [R.BOOT_STS] <;> omega) | exact regOk_all (sub_of hm rfl) _ | split | dsimp only)

theorem State.dieProgram_keeps {m : Nat} {x : State} {a0 : Bool} {s : State} {a2 : Nat} (hm : Nat.land 305599876295438 m = 305599876295438)
    (h : Same m x s) : Same m x (State.dieProgram a0 s a2) := by
  unfold State.dieProgram
  repeat' (first | with_reducible assumption | intro _ | with_reducible apply same_foldl | with_reducible refine State.finishProg_keeps (sub_of hm rfl) ?_ | with_reducible refine State.startPage_keeps (sub_of hm rfl) ?_ | split | dsimp only)

theorem State.programAll_keeps {m : Nat} {x : State} {s : State} {a1 : Bool} (hm : Nat.land 305599876295438 m = 305599876295438)
    (h : Same m x s) : Same m x (State.programAll s a1) := by
  unfold State.programAll
  repeat' (first | with_reducible assumption | intro _ | with_reducible apply same_foldl | with_reducible refine State.finishProg_keeps (sub_of hm rfl) ?_ | with_reducible refine State.dieProgram_keeps (sub_of hm rfl) ?_ | with_reducible refine State.allDue_keeps (sub_of hm rfl) ?_ | split | dsimp only)

theorem State.moveDirty_keeps {m : Nat} {x : State} {s : State} {t : State}  (hm : Nat.land 19486350638862 m = 19486350638862)
    (e : State.moveDirty s = some t) (h : Same m x s) : Same m x t := by
  unfold State.moveDirty at e
  (try dsimp only at e)
  (repeat' split at e) <;> (try cases e) <;> repeat' (first | with_reducible assumption | intro _ | with_reducible apply same_ite | with_reducible refine State.slotPutDirty_keeps (sub_of hm rfl) (by assumption) ?_ | with_reducible refine State.release_keeps (sub_of hm rfl) ?_ | with_reducible refine State.tsStatus_keeps (sub_of hm rfl) ?_ | with_reducible refine State.lcLoseDirty_keeps (sub_of hm rfl) ?_ | with_reducible refine State.subCnt_keeps (sub_of hm rfl) ?_ ?_ | with_reducible refine State.setWay_keeps (sub_of hm rfl) ?_ | fail_if_no_progress with_reducible refine upd_lc (sub_of hm rfl) ?_ | with_reducible exact R.LC_DIRTY_CNT_ok (sub_of hm rfl) | with_reducible exact R.LC_STS_ok (sub_of hm rfl) | (with_reducible refine regOk_of (c := 8) (sub_of hm rfl) (blk8 ?_ ?_) <;> simp only [R.LC_DIRTY_CNT, R.LC_STS] <;> omega) | split | dsimp only)

theorem State.moveDirtyN_keeps {m : Nat} {x : State} {n : Nat} {s : State} (hm : Nat.land 19486350638862 m = 19486350638862) (h : Same m x s) :
    Same m x (State.moveDirtyN n s) := by
  induction n generalizing s with
  | zero => exact h
  | succ n ih =>
    unfold State.moveDirtyN
    split
    · exact h
    · exact ih (State.moveDirty_keeps (sub_of hm rfl) (by assumption) h)

theorem State.drainRounds_keeps {m : Nat} {x : State} {b : Bool} {n : Nat} {s : State} (hm : Nat.land 305634252816142 m = 305634252816142) (h : Same m x s) :
    Same m x (State.drainRounds b n s) := by
  induction n generalizing s with
  | zero => exact h
  | succ n ih =>
    unfold State.drainRounds
    dsimp only
    split
    · exact State.programAll_keeps (sub_of hm rfl) (State.moveDirtyN_keeps (sub_of hm rfl) h)
    · exact ih (State.programAll_keeps (sub_of hm rfl) (State.moveDirtyN_keeps (sub_of hm rfl) h))

theorem State.drainAll_keeps {m : Nat} {x : State} {s : State} {a1 : Bool} (hm : Nat.land 305634252816142 m = 305634252816142)
    (h : Same m x s) : Same m x (State.drainAll s a1) := by
  unfold State.drainAll
  repeat' (first | with_reducible assumption | intro _ | with_reducible refine State.programAll_keeps (sub_of hm rfl) ?_ | with_reducible refine State.drainRounds_keeps (sub_of hm rfl) ?_ | split | dsimp only)

theorem State.drainEnd_keeps {m : Nat} {x : State} {s : State} (hm : Nat.land 562949953421134 m = 562949953421134)
    (h : Same m x s) : Same m x (State.drainEnd s) := by
  unfold State.drainEnd
  repeat' (first | with_reducible assumption | intro _ | with_reducible apply same_ite | with_reducible refine State.wrN_keeps (sub_of hm rfl) ?_ ?_ | with_reducible refine State.roll_keeps (sub_of hm rfl) ?_ | with_reducible refine State.containEnd_keeps (sub_of hm rfl) ?_ | with_reducible refine State.startDown_keeps (sub_of hm rfl) ?_ | with_reducible exact R.PSQ_DRAIN_LINES_HI_ok (sub_of hm rfl) | with_reducible exact R.PSQ_DRAIN_LINES_LO_ok (sub_of hm rfl) | with_reducible exact R.PSQ_DRAIN_US_ok (sub_of hm rfl) | (with_reducible refine regOk_of (c := 3) (sub_of hm rfl) (blk3 ?_ ?_) <;> simp only [R.PSQ_DRAIN_LINES_HI, R.PSQ_DRAIN_LINES_LO, R.PSQ_DRAIN_US] <;> omega) | exact regOk_all (sub_of hm rfl) _ | split | dsimp only)

theorem State.drainShort_keeps {m : Nat} {x : State} {s : State} (hm : Nat.land 562949953421134 m = 562949953421134)
    (h : Same m x s) : Same m x (State.drainShort s) := by
  unfold State.drainShort
  repeat' (first | with_reducible assumption | intro _ | with_reducible apply same_ite | with_reducible refine State.drainEnd_keeps (sub_of hm rfl) ?_ | fail_if_no_progress with_reducible refine upd_psq (sub_of hm rfl) ?_ | exact regOk_all (sub_of hm rfl) _ | split | dsimp only)

theorem State.drainSix_keeps {m : Nat} {x : State} {s : State} (hm : Nat.land 305599876295438 m = 305599876295438)
    (h : Same m x s) : Same m x (State.drainSix s) := by
  unfold State.drainSix
  repeat' (first | with_reducible assumption | intro _ | with_reducible apply same_ite | with_reducible refine State.pdWrite_keeps (sub_of hm rfl) ?_ | with_reducible refine State.journalFlush_keeps (sub_of hm rfl) ?_ | with_reducible refine State.closeOpen_keeps (sub_of hm rfl) ?_ | with_reducible refine State.closeStripes_keeps (sub_of hm rfl) ?_ | split | dsimp only)

theorem State.settleReqs_keeps {m : Nat} {x : State} {s : State} (hm : Nat.land 314447559261966 m = 314447559261966)
    (h : Same m x s) : Same m x (State.settleReqs s) := by
  unfold State.settleReqs
  repeat' (first | with_reducible assumption | intro _ | with_reducible apply same_ite | with_reducible apply same_foldl | with_reducible refine State.respond_keeps (sub_of hm rfl) ?_ | with_reducible refine State.bump_keeps (sub_of hm rfl) ?_ ?_ | with_reducible refine State.pump_keeps (sub_of hm rfl) ?_ | with_reducible refine State.letAll_keeps (sub_of hm rfl) ?_ | with_reducible exact R.RT_WR_DROP_STATE_ok (sub_of hm rfl) | (with_reducible refine regOk_of (c := 16) (sub_of hm rfl) (blk16 ?_ ?_) <;> simp only [R.RT_WR_DROP_STATE] <;> omega) | split | dsimp only)

theorem State.stopMedia_keeps {m : Nat} {x : State} {s : State} (hm : Nat.land 8192 m = 8192)
    (h : Same m x s) : Same m x (State.stopMedia s) := by
  unfold State.stopMedia
  repeat' (first | with_reducible assumption | intro _ | with_reducible apply same_ite | with_reducible apply same_foldl | with_reducible refine State.progDel_keeps (sub_of hm rfl) ?_ | with_reducible refine State.dieMod_keeps (sub_of hm rfl) ?_ | with_reducible refine State.ckptDrop_keeps (sub_of hm rfl) ?_ | fail_if_no_progress with_reducible refine upd_te (sub_of hm rfl) ?_ | split | dsimp only)

theorem State.drainStep_keeps {m : Nat} {x : State} {s : State} (hm : Nat.land 562949953421134 m = 562949953421134)
    (h : Same m x s) : Same m x (State.drainStep s) := by
  unfold State.drainStep
  repeat' (first | with_reducible assumption | intro _ | with_reducible apply same_ite | with_reducible apply same_dite | with_reducible refine State.settleReqs_keeps (sub_of hm rfl) ?_ | with_reducible refine State.stopMedia_keeps (sub_of hm rfl) ?_ | with_reducible refine State.journalFlush_keeps (sub_of hm rfl) ?_ | with_reducible refine State.drainAll_keeps (sub_of hm rfl) ?_ | with_reducible refine State.drainEnd_keeps (sub_of hm rfl) ?_ | with_reducible refine State.drainSix_keeps (sub_of hm rfl) ?_ | fail_if_no_progress with_reducible refine upd_psq (sub_of hm rfl) ?_ | exact regOk_all (sub_of hm rfl) _ | split | dsimp only)

theorem State.restartsPut_keeps {m : Nat} {x : State} {s : State} {a1 : List Nat} {a2 : Bool} (hm : Nat.land 4362076426 m = 4362076426)
    (h : Same m x s) : Same m x (State.restartsPut s a1 a2) := by
  unfold State.restartsPut
  repeat' (first | with_reducible assumption | intro _ | with_reducible apply same_ite | with_reducible refine State.pstAdd_keeps (sub_of hm rfl) ?_ | split | dsimp only)

theorem State.lockout_keeps {m : Nat} {x : State} {s : State} {a1 : Nat} (hm : Nat.land 1149239816 m = 1149239816)
    (h : Same m x s) : Same m x (State.lockout s a1) := by
  unfold State.lockout
  repeat' (first | with_reducible assumption | intro _ | with_reducible refine State.set_keeps (sub_of hm rfl) ?_ ?_ | with_reducible refine State.setPhase_keeps (sub_of hm rfl) ?_ | with_reducible refine State.rollSnap_keeps (sub_of hm rfl) ?_ | fail_if_no_progress with_reducible refine upd_psq (sub_of hm rfl) ?_ | with_reducible exact R.PSQ_STS_ok (sub_of hm rfl) | (with_reducible refine regOk_of (c := 3) (sub_of hm rfl) (blk3 ?_ ?_) <;> simp only [R.PSQ_STS] <;> omega) | split | dsimp only)

theorem State.restartHold_keeps {m : Nat} {x : State} {s : State} (hm : Nat.land 7593788170 m = 7593788170)
    (h : Same m x s) : Same m x (State.restartHold s) := by
  unfold State.restartHold
  repeat' (first | with_reducible assumption | intro _ | with_reducible apply same_ite | with_reducible refine State.setBit_keeps (sub_of hm rfl) ?_ ?_ | with_reducible refine State.roll_keeps (sub_of hm rfl) ?_ | with_reducible refine State.restartsPut_keeps (sub_of hm rfl) ?_ | with_reducible refine State.lockout_keeps (sub_of hm rfl) ?_ | with_reducible refine State.set_keeps (sub_of hm rfl) ?_ ?_ | fail_if_no_progress with_reducible refine upd_psq (sub_of hm rfl) ?_ | fail_if_no_progress with_reducible refine upd_hk_psq (sub_of hm rfl) ?_ | with_reducible exact R.HK_STS_ok (sub_of hm rfl) | with_reducible exact R.PSQ_STS_ok (sub_of hm rfl) | (with_reducible refine regOk_of (c := 3) (sub_of hm rfl) (blk3 ?_ ?_) <;> simp only [R.PSQ_STS] <;> omega) | (with_reducible refine regOk_of (c := 4) (sub_of hm rfl) (blk4 ?_ ?_) <;> simp only [R.HK_STS] <;> omega) | split | dsimp only)

theorem State.inputFail_keeps {m : Nat} {x : State} {s : State} (hm : Nat.land 562949953421134 m = 562949953421134)
    (h : Same m x s) : Same m x (State.inputFail s) := by
  unfold State.inputFail
  repeat' (first | with_reducible assumption | intro _ | with_reducible apply same_ite | with_reducible refine State.setBit_keeps (sub_of hm rfl) ?_ ?_ | with_reducible refine State.startDown_keeps (sub_of hm rfl) ?_ | with_reducible refine State.drainStart_keeps (sub_of hm rfl) ?_ | fail_if_no_progress with_reducible refine upd_psq (sub_of hm rfl) ?_ | with_reducible exact R.PSQ_STS_ok (sub_of hm rfl) | (with_reducible refine regOk_of (c := 3) (sub_of hm rfl) (blk3 ?_ ?_) <;> simp only [R.PSQ_STS] <;> omega) | exact regOk_all (sub_of hm rfl) _ | split | dsimp only)

theorem State.rst24_keeps {m : Nat} {x : State} {s : State} (hm : Nat.land 2147483656 m = 2147483656)
    (h : Same m x s) : Same m x (State.rst24 s) := by
  unfold State.rst24
  repeat' (first | with_reducible assumption | intro _ | with_reducible refine State.set_keeps (sub_of hm rfl) ?_ ?_ | with_reducible exact R.HK_STS_ok (sub_of hm rfl) | (with_reducible refine regOk_of (c := 4) (sub_of hm rfl) (blk4 ?_ ?_) <;> simp only [R.HK_STS] <;> omega) | split | dsimp only)

theorem State.shutdownStart_keeps {m : Nat} {x : State} {s : State} (hm : Nat.land 562949953421134 m = 562949953421134)
    (h : Same m x s) : Same m x (State.shutdownStart s) := by
  unfold State.shutdownStart
  repeat' (first | with_reducible assumption | intro _ | with_reducible apply same_ite | with_reducible refine State.resetDown_keeps (sub_of hm rfl) ?_ | with_reducible refine State.margClear_keeps (sub_of hm rfl) ?_ | with_reducible refine State.sendDown_keeps (sub_of hm rfl) ?_ | with_reducible refine State.setPhase_keeps (sub_of hm rfl) ?_ | fail_if_no_progress with_reducible refine upd_psq_boot (sub_of hm rfl) ?_ | exact regOk_all (sub_of hm rfl) _ | split | dsimp only)

theorem State.offRequest_keeps {m : Nat} {x : State} {s : State} (hm : Nat.land 562949953421134 m = 562949953421134)
    (h : Same m x s) : Same m x (State.offRequest s) := by
  unfold State.offRequest
  repeat' (first | with_reducible assumption | intro _ | with_reducible apply same_ite | with_reducible refine State.setBit_keeps (sub_of hm rfl) ?_ ?_ | with_reducible refine State.shutdownStart_keeps (sub_of hm rfl) ?_ | with_reducible refine State.setPhase_keeps (sub_of hm rfl) ?_ | fail_if_no_progress with_reducible refine upd_psq (sub_of hm rfl) ?_ | with_reducible exact R.PSQ_STS_ok (sub_of hm rfl) | (with_reducible refine regOk_of (c := 3) (sub_of hm rfl) (blk3 ?_ ?_) <;> simp only [R.PSQ_STS] <;> omega) | exact regOk_all (sub_of hm rfl) _ | split | dsimp only)

theorem State.thermRestart_keeps {m : Nat} {x : State} {s : State} (hm : Nat.land 6509560586 m = 6509560586)
    (h : Same m x s) : Same m x (State.thermRestart s) := by
  unfold State.thermRestart
  repeat' (first | with_reducible assumption | intro _ | with_reducible apply same_ite | with_reducible refine State.restartsPut_keeps (sub_of hm rfl) ?_ | with_reducible refine State.pstAdd_keeps (sub_of hm rfl) ?_ | with_reducible refine State.setBit_keeps (sub_of hm rfl) ?_ ?_ | with_reducible refine State.roll_keeps (sub_of hm rfl) ?_ | with_reducible refine State.set_keeps (sub_of hm rfl) ?_ ?_ | with_reducible exact R.HK_STS_ok (sub_of hm rfl) | (with_reducible refine regOk_of (c := 4) (sub_of hm rfl) (blk4 ?_ ?_) <;> simp only [R.HK_STS] <;> omega) | split | dsimp only)

theorem State.startUp_keeps {m : Nat} {x : State} {s : State} (hm : Nat.land 8803688973066 m = 8803688973066)
    (h : Same m x s) : Same m x (State.startUp s) := by
  unfold State.startUp
  repeat' (first | with_reducible assumption | intro _ | with_reducible refine State.setBit_keeps (sub_of hm rfl) ?_ ?_ | with_reducible refine State.setPhase_keeps (sub_of hm rfl) ?_ | with_reducible refine State.vcoreWrite_keeps (sub_of hm rfl) ?_ | with_reducible refine State.margShow_keeps (sub_of hm rfl) ?_ | with_reducible refine State.set_keeps (sub_of hm rfl) ?_ ?_ | with_reducible refine State.thermRestart_keeps (sub_of hm rfl) ?_ | with_reducible refine State.pmbPut_keeps (sub_of hm rfl) ?_ | fail_if_no_progress with_reducible refine upd_arch_psq (sub_of hm rfl) ?_ | with_reducible exact R.PSQ_STS_ok (sub_of hm rfl) | (with_reducible refine regOk_of (c := 3) (sub_of hm rfl) (blk3 ?_ ?_) <;> simp only [R.PSQ_STS] <;> omega) | split | dsimp only)

theorem State.powerUp_keeps {m : Nat} {x : State} {s : State} (hm : Nat.land 8803688973066 m = 8803688973066)
    (h : Same m x s) : Same m x (State.powerUp s) := by
  unfold State.powerUp
  repeat' (first | with_reducible assumption | intro _ | with_reducible apply same_ite | with_reducible refine State.lockout_keeps (sub_of hm rfl) ?_ | with_reducible refine State.setBit_keeps (sub_of hm rfl) ?_ ?_ | with_reducible refine State.startUp_keeps (sub_of hm rfl) ?_ | with_reducible refine State.setPhase_keeps (sub_of hm rfl) ?_ | fail_if_no_progress with_reducible refine upd_psq (sub_of hm rfl) ?_ | with_reducible exact R.PSQ_STS_ok (sub_of hm rfl) | (with_reducible refine regOk_of (c := 3) (sub_of hm rfl) (blk3 ?_ ?_) <;> simp only [R.PSQ_STS] <;> omega) | split | dsimp only)

theorem State.tryUp_keeps {m : Nat} {x : State} {s : State} (hm : Nat.land 8803688973066 m = 8803688973066)
    (h : Same m x s) : Same m x (State.tryUp s) := by
  unfold State.tryUp
  repeat' (first | with_reducible assumption | intro _ | with_reducible apply same_ite | with_reducible refine State.powerUp_keeps (sub_of hm rfl) ?_ | split | dsimp only)

theorem State.onRequest_keeps {m : Nat} {x : State} {s : State} (hm : Nat.land 8803688973066 m = 8803688973066)
    (h : Same m x s) : Same m x (State.onRequest s) := by
  unfold State.onRequest
  repeat' (first | with_reducible assumption | intro _ | with_reducible apply same_ite | with_reducible refine State.tryUp_keeps (sub_of hm rfl) ?_ | with_reducible refine State.setBit_keeps (sub_of hm rfl) ?_ ?_ | with_reducible exact R.PSQ_STS_ok (sub_of hm rfl) | (with_reducible refine regOk_of (c := 3) (sub_of hm rfl) (blk3 ?_ ?_) <;> simp only [R.PSQ_STS] <;> omega) | split | dsimp only)

theorem State.upFail_keeps {m : Nat} {x : State} {s : State} {a1 : Nat} (hm : Nat.land 562949953421134 m = 562949953421134)
    (h : Same m x s) : Same m x (State.upFail s a1) := by
  unfold State.upFail
  repeat' (first | with_reducible assumption | intro _ | with_reducible apply same_ite | with_reducible refine State.rollSnap_keeps (sub_of hm rfl) ?_ | with_reducible refine State.raise_keeps (sub_of hm rfl) ?_ | with_reducible refine State.bump_keeps (sub_of hm rfl) ?_ ?_ | with_reducible refine State.startDown_keeps (sub_of hm rfl) ?_ | fail_if_no_progress with_reducible refine upd_psq (sub_of hm rfl) ?_ | with_reducible exact R.PSQ_PUP_FAIL_CNT_ok (sub_of hm rfl) | with_reducible exact R.PSQ_RETRY_ok (sub_of hm rfl) | (with_reducible refine regOk_of (c := 3) (sub_of hm rfl) (blk3 ?_ ?_) <;> simp only [R.PSQ_PUP_FAIL_CNT, R.PSQ_RETRY] <;> omega) | exact regOk_all (sub_of hm rfl) _ | split | dsimp only)

theorem State.railFault_keeps {m : Nat} {x : State} {s : State} {a1 : Nat} (hm : Nat.land 562949953421134 m = 562949953421134)
    (h : Same m x s) : Same m x (State.railFault s a1) := by
  unfold State.railFault
  repeat' (first | with_reducible assumption | intro _ | with_reducible apply same_ite | with_reducible refine State.bump_keeps (sub_of hm rfl) ?_ ?_ | with_reducible refine State.upFail_keeps (sub_of hm rfl) ?_ | with_reducible refine State.setBit_keeps (sub_of hm rfl) ?_ ?_ | with_reducible refine State.pmbPut_keeps (sub_of hm rfl) ?_ | with_reducible refine State.drawn_keeps (sub_of hm rfl) ?_ | with_reducible refine State.margDrop_keeps (sub_of hm rfl) ?_ | with_reducible refine State.rollSnap_keeps (sub_of hm rfl) ?_ | with_reducible refine State.holdToken_keeps (sub_of hm rfl) ?_ | with_reducible refine State.drainStart_keeps (sub_of hm rfl) ?_ | with_reducible refine State.raise_keeps (sub_of hm rfl) ?_ | with_reducible exact R.PSQ_RAIL_FLT_ok (sub_of hm rfl) | with_reducible exact R.PSQ_RAIL_FLT_CNT_ok (sub_of hm rfl) | (with_reducible refine regOk_of (c := 3) (sub_of hm rfl) (blk3 ?_ ?_) <;> simp only [R.PSQ_RAIL_FLT, R.PSQ_RAIL_FLT_CNT] <;> omega) | exact regOk_all (sub_of hm rfl) _ | split | dsimp only)

theorem State.railsUp_keeps {m : Nat} {x : State} {s : State} {a1 : Bool} (hm : Nat.land 10573499713358 m = 10573499713358)
    (h : Same m x s) : Same m x (State.railsUp s a1) := by
  unfold State.railsUp
  repeat' (first | with_reducible assumption | intro _ | with_reducible apply same_ite | with_reducible refine State.set_keeps (sub_of hm rfl) ?_ ?_ | with_reducible refine State.setPhase_keeps (sub_of hm rfl) ?_ | with_reducible refine State.setBit_keeps (sub_of hm rfl) ?_ ?_ | with_reducible refine State.pstAdd_keeps (sub_of hm rfl) ?_ | with_reducible refine State.wrN_keeps (sub_of hm rfl) ?_ ?_ | with_reducible refine State.rorDisarm_keeps (sub_of hm rfl) ?_ | with_reducible refine State.coreStart_keeps (sub_of hm rfl) ?_ | fail_if_no_progress with_reducible refine upd_psq (sub_of hm rfl) ?_ | with_reducible exact R.BOOT_STS_ok (sub_of hm rfl) | with_reducible exact R.PSQ_STS_ok (sub_of hm rfl) | with_reducible exact R.PSQ_UP_US_ok (sub_of hm rfl) | (with_reducible refine regOk_of (c := 1) (sub_of hm rfl) (blk1 ?_ ?_) <;> simp only [R.BOOT_STS] <;> omega) | (with_reducible refine regOk_of (c := 3) (sub_of hm rfl) (blk3 ?_ ?_) <;> simp only [R.PSQ_STS, R.PSQ_UP_US] <;> omega) | split | dsimp only)

theorem State.shutdownStep_keeps {m : Nat} {x : State} {s : State} (hm : Nat.land 562949953421134 m = 562949953421134)
    (h : Same m x s) : Same m x (State.shutdownStep s) := by
  unfold State.shutdownStep
  repeat' (first | with_reducible assumption | intro _ | with_reducible apply same_ite | with_reducible apply same_dite | with_reducible refine State.settleReqs_keeps (sub_of hm rfl) ?_ | with_reducible refine State.stopMedia_keeps (sub_of hm rfl) ?_ | with_reducible refine State.closeStripes_keeps (sub_of hm rfl) ?_ | with_reducible refine State.drainAll_keeps (sub_of hm rfl) ?_ | with_reducible refine State.checkpointNow_keeps (sub_of hm rfl) ?_ | with_reducible refine State.journalFlush_keeps (sub_of hm rfl) ?_ | with_reducible refine State.ledgerWrite_keeps (sub_of hm rfl) ?_ | with_reducible refine State.journal_keeps (sub_of hm rfl) ?_ | with_reducible refine State.pdWrite_keeps (sub_of hm rfl) ?_ | with_reducible refine State.lastAlive_keeps (sub_of hm rfl) ?_ | with_reducible refine State.startDown_keeps (sub_of hm rfl) ?_ | fail_if_no_progress with_reducible refine upd_psq (sub_of hm rfl) ?_ | exact regOk_all (sub_of hm rfl) _ | split | dsimp only)

end Sys2Proof.Machine
end

