-- ==== Sys2Proof/Laws/FrameTwin.lean ====
section
/-! SUPPORT. The frame of every operation of Machine/Twin.lean, as a mask of the kinds of state that it may change. -/

set_option autoImplicit false
set_option linter.unusedTactic false
set_option linter.unreachableTactic false
set_option linter.unnecessarySeqFocus false
set_option linter.unusedSimpArgs false
set_option linter.unusedVariables false

namespace Sys2Proof.Machine

theorem State.mendLine_keeps {m : Nat} {x : State} {s : State} {a1 : Nat} {a2 : Line} (hm : Nat.land 137506086924 m = 137506086924)
    (h : Same m x s) : Same m x (State.mendLine s a1 a2) := by
  unfold State.mendLine
  repeat' (first | with_reducible assumption | intro _ | with_reducible apply same_ite | with_reducible refine State.slotMod_keeps (sub_of hm rfl) ?_ | with_reducible refine State.xtsUse_keeps (sub_of hm rfl) ?_ | with_reducible refine State.rewriteTile_keeps (sub_of hm rfl) ?_ | split | dsimp only)

theorem State.repairFailed_keeps {m : Nat} {x : State} {s : State} {a1 : RepFor} (hm : Nat.land 314447559261966 m = 314447559261966)
    (h : Same m x s) : Same m x (State.repairFailed s a1) := by
  unfold State.repairFailed
  repeat' (first | with_reducible assumption | intro _ | with_reducible apply same_ite | with_reducible refine State.bump_keeps (sub_of hm rfl) ?_ ?_ | with_reducible refine State.pump_keeps (sub_of hm rfl) ?_ | with_reducible refine State.supply_keeps (sub_of hm rfl) ?_ | with_reducible refine State.handRepair_keeps (sub_of hm rfl) ?_ | with_reducible refine State.lineEvents_keeps (sub_of hm rfl) ?_ | with_reducible refine State.poisonLine_keeps (sub_of hm rfl) ?_ | with_reducible refine State.loseHost_keeps (sub_of hm rfl) ?_ | with_reducible refine State.lcLoseDirty_keeps (sub_of hm rfl) ?_ | with_reducible refine State.loseLine_keeps (sub_of hm rfl) ?_ | with_reducible refine State.gatherLose_keeps (sub_of hm rfl) ?_ | with_reducible exact R.CAR_REP_FAIL_ok (sub_of hm rfl) | with_reducible exact R.SIR_POISONED_ok (sub_of hm rfl) | (with_reducible refine regOk_of (c := 11) (sub_of hm rfl) (blk11 ?_ ?_) <;> simp only [R.SIR_POISONED] <;> omega) | (with_reducible refine regOk_of (c := 12) (sub_of hm rfl) (blk12 ?_ ?_) <;> simp only [R.CAR_REP_FAIL] <;> omega) | split | dsimp only)

theorem State.rsRes_keeps {m : Nat} {x : State} {s : State} {a1 : Nat} {a2 : Nat} (hm : Nat.land 67108874 m = 67108874)
    (h : Same m x s) : Same m x (State.rsRes s a1 a2) := by
  unfold State.rsRes
  repeat' (first | with_reducible assumption | intro _ | with_reducible refine State.crd_keeps (sub_of hm rfl) ?_ | with_reducible refine State.car_keeps (sub_of hm rfl) ?_ | split | dsimp only)

theorem execHello_keeps {m : Nat} {x : State} {a0 : Hello} {a1 : Bool} {s : State} (hm : Nat.land 549823005198 m = 549823005198)
    (h : Same m x s) : Ends m x (execHello a0 a1 s) := by
  unfold execHello
  repeat' (first | with_reducible assumption | intro _ | with_reducible apply ends_next | with_reducible apply ends_ite | with_reducible apply same_ite | with_reducible refine State.carGot_keeps (sub_of hm rfl) ?_ | with_reducible refine State.car_keeps (sub_of hm rfl) ?_ | with_reducible refine State.keyUse_keeps (sub_of hm rfl) ?_ | with_reducible refine State.set_keeps (sub_of hm rfl) ?_ ?_ | with_reducible refine State.linkEvent_keeps (sub_of hm rfl) ?_ | with_reducible refine State.crd_keeps (sub_of hm rfl) ?_ | fail_if_no_progress with_reducible refine upd_tw (sub_of hm rfl) ?_ | with_reducible exact R.CAR_STS_ok (sub_of hm rfl) | (with_reducible refine regOk_of (c := 12) (sub_of hm rfl) (blk12 ?_ ?_) <;> simp only [R.CAR_STS] <;> omega) | split | dsimp only)

theorem execProof_keeps {m : Nat} {x : State} {a0 : Nat} {s : State} (hm : Nat.land 549823006222 m = 549823006222)
    (h : Same m x s) : Ends m x (execProof a0 s) := by
  unfold execProof
  repeat' (first | with_reducible assumption | intro _ | with_reducible apply ends_next | with_reducible apply ends_ite | with_reducible apply same_ite | with_reducible refine State.carGot_keeps (sub_of hm rfl) ?_ | with_reducible refine State.keyUse_keeps (sub_of hm rfl) ?_ | with_reducible refine State.attach_keeps (sub_of hm rfl) ?_ | with_reducible refine State.linkEvent_keeps (sub_of hm rfl) ?_ | with_reducible refine State.set_keeps (sub_of hm rfl) ?_ ?_ | fail_if_no_progress with_reducible refine upd_tw (sub_of hm rfl) ?_ | with_reducible exact R.CAR_STS_ok (sub_of hm rfl) | (with_reducible refine regOk_of (c := 12) (sub_of hm rfl) (blk12 ?_ ?_) <;> simp only [R.CAR_STS] <;> omega) | split | dsimp only)

theorem execHb_keeps {m : Nat} {x : State} {a0 : Fin 6} {a1 : Fin 4} {a2 : Bool} {a3 : Bool} {s : State} (hm : Nat.land 549822989322 m = 549822989322)
    (h : Same m x s) : Ends m x (execHb a0 a1 a2 a3 s) := by
  unfold execHb
  repeat' (first | with_reducible assumption | intro _ | with_reducible apply ends_next | with_reducible apply ends_ite | with_reducible apply same_ite | with_reducible apply same_foldl | with_reducible refine State.carGot_keeps (sub_of hm rfl) ?_ | with_reducible refine State.setBit_keeps (sub_of hm rfl) ?_ ?_ | with_reducible refine State.set_keeps (sub_of hm rfl) ?_ ?_ | with_reducible refine State.startSource_keeps (sub_of hm rfl) ?_ | with_reducible refine State.admitTwin_keeps (sub_of hm rfl) ?_ | fail_if_no_progress with_reducible refine upd_tw (sub_of hm rfl) ?_ | with_reducible exact R.CAR_RG_STS_ok (sub_of hm rfl) | with_reducible exact R.CAR_STS_ok (sub_of hm rfl) | with_reducible exact R.RT_RG_CTL_ok (sub_of hm rfl) | (with_reducible refine regOk_of (c := 12) (sub_of hm rfl) (blk12 ?_ ?_) <;> simp only [R.CAR_RG_STS, R.CAR_STS] <;> omega) | split | dsimp only)

theorem execCrd_keeps {m : Nat} {x : State} {a0 : BitVec 16} {a1 : BitVec 16} {a2 : BitVec 8} {a3 : BitVec 8} {s : State} (hm : Nat.land 67174410 m = 67174410)
    (h : Same m x s) : Ends m x (execCrd a0 a1 a2 a3 s) := by
  unfold execCrd
  repeat' (first | with_reducible assumption | intro _ | with_reducible apply ends_next | with_reducible apply ends_ite | with_reducible apply same_ite | with_reducible refine State.carGot_keeps (sub_of hm rfl) ?_ | with_reducible refine State.carCredits_keeps (sub_of hm rfl) ?_ | split | dsimp only)

theorem execDown_keeps {m : Nat} {x : State} {a0 : Fin 4} {s : State} (hm : Nat.land 314447559261966 m = 314447559261966)
    (h : Same m x s) : Ends m x (execDown a0 s) := by
  unfold execDown
  repeat' (first | with_reducible assumption | intro _ | with_reducible apply ends_next | with_reducible apply ends_ite | with_reducible apply same_ite | with_reducible refine State.carGot_keeps (sub_of hm rfl) ?_ | with_reducible refine State.bump_keeps (sub_of hm rfl) ?_ ?_ | with_reducible refine State.linkDown_keeps (sub_of hm rfl) ?_ | with_reducible refine State.setBit_keeps (sub_of hm rfl) ?_ ?_ | with_reducible refine State.failoverEnd_keeps (sub_of hm rfl) ?_ | with_reducible refine State.becomeSolo_keeps (sub_of hm rfl) ?_ | with_reducible refine State.linkEvent_keeps (sub_of hm rfl) ?_ | with_reducible refine State.unpair_keeps (sub_of hm rfl) ?_ | fail_if_no_progress with_reducible refine upd_tw (sub_of hm rfl) ?_ | with_reducible exact R.CAR_LINK_DOWN_ok (sub_of hm rfl) | with_reducible exact R.CAR_STS_ok (sub_of hm rfl) | (with_reducible refine regOk_of (c := 12) (sub_of hm rfl) (blk12 ?_ ?_) <;> simp only [R.CAR_LINK_DOWN, R.CAR_STS] <;> omega) | split | dsimp only)

theorem execFwdRd_keeps {m : Nat} {x : State} {a0 : BitVec 32} {a1 : BitVec 38} {a2 : Fin 8} {a3 : List Upset} {s : State} (hm : Nat.land 314447559261966 m = 314447559261966)
    (h : Same m x s) : Ends m x (execFwdRd a0 a1 a2 a3 s) := by
  unfold execFwdRd
  repeat' (first | with_reducible assumption | intro _ | with_reducible apply ends_next | with_reducible apply ends_ite | with_reducible apply same_ite | with_reducible refine State.carGot_keeps (sub_of hm rfl) ?_ | with_reducible refine State.ptrUpset_keeps (sub_of hm rfl) ?_ | with_reducible refine State.respond_keeps (sub_of hm rfl) ?_ | with_reducible refine State.bump_keeps (sub_of hm rfl) ?_ ?_ | with_reducible refine State.enqueue_keeps (sub_of hm rfl) ?_ | with_reducible exact R.RT_STRAY_CNT_ok (sub_of hm rfl) | (with_reducible refine regOk_of (c := 16) (sub_of hm rfl) (blk16 ?_ ?_) <;> simp only [R.RT_STRAY_CNT] <;> omega) | split | dsimp only)

theorem execFwdWr_keeps {m : Nat} {x : State} {a0 : BitVec 32} {a1 : BitVec 38} {a2 : Fin 8} {a3 : BitVec 64} {a4 : Line} {a5 : List Upset} {s : State} (hm : Nat.land 314447559261966 m = 314447559261966)
    (h : Same m x s) : Ends m x (execFwdWr a0 a1 a2 a3 a4 a5 s) := by
  unfold execFwdWr
  repeat' (first | with_reducible assumption | intro _ | with_reducible apply ends_next | with_reducible apply ends_ite | with_reducible apply same_ite | with_reducible refine State.carGot_keeps (sub_of hm rfl) ?_ | with_reducible refine State.ptrUpset_keeps (sub_of hm rfl) ?_ | with_reducible refine State.dropWrite_keeps (sub_of hm rfl) ?_ | with_reducible refine State.bump_keeps (sub_of hm rfl) ?_ ?_ | with_reducible refine State.roWrite_keeps (sub_of hm rfl) ?_ | with_reducible refine State.enqueue_keeps (sub_of hm rfl) ?_ | with_reducible exact R.RT_STRAY_CNT_ok (sub_of hm rfl) | with_reducible exact R.RT_WR_DROP_STATE_ok (sub_of hm rfl) | (with_reducible refine regOk_of (c := 16) (sub_of hm rfl) (blk16 ?_ ?_) <;> simp only [R.RT_STRAY_CNT, R.RT_WR_DROP_STATE] <;> omega) | split | dsimp only)

theorem execFwdRsp_keeps {m : Nat} {x : State} {a0 : Nat} {a1 : Bool} {a2 : Fin 8} {a3 : Fin 16} {a4 : Line} {s : State} (hm : Nat.land 9895722192398 m = 9895722192398)
    (h : Same m x s) : Ends m x (execFwdRsp a0 a1 a2 a3 a4 s) := by
  unfold execFwdRsp
  repeat' (first | with_reducible assumption | intro _ | with_reducible apply ends_next | with_reducible apply ends_ite | with_reducible apply same_ite | with_reducible refine State.carGot_keeps (sub_of hm rfl) ?_ | with_reducible refine State.respond_keeps (sub_of hm rfl) ?_ | split | dsimp only)

theorem execFwdCmp_keeps {m : Nat} {x : State} {a0 : Nat} {a1 : Bool} {a2 : Fin 8} {a3 : Fin 16} {s : State} (hm : Nat.land 9895722192398 m = 9895722192398)
    (h : Same m x s) : Ends m x (execFwdCmp a0 a1 a2 a3 s) := by
  unfold execFwdCmp
  repeat' (first | with_reducible assumption | intro _ | with_reducible apply ends_next | with_reducible apply ends_ite | with_reducible apply same_ite | with_reducible refine State.carGot_keeps (sub_of hm rfl) ?_ | with_reducible refine State.respond_keeps (sub_of hm rfl) ?_ | split | dsimp only)

theorem execMwr_keeps {m : Nat} {x : State} {a0 : Nat} {a1 : BitVec 38} {a2 : Line} {a3 : Bool} {a4 : List Upset} {s : State} (hm : Nat.land 314447559261966 m = 314447559261966)
    (h : Same m x s) : Ends m x (execMwr a0 a1 a2 a3 a4 s) := by
  unfold execMwr
  repeat' (first | with_reducible assumption | intro _ | with_reducible apply ends_next | with_reducible apply ends_ite | with_reducible apply same_ite | with_reducible refine State.carGot_keeps (sub_of hm rfl) ?_ | with_reducible refine State.ptrUpset_keeps (sub_of hm rfl) ?_ | with_reducible refine State.targetWake_keeps (sub_of hm rfl) ?_ | with_reducible refine State.respond_keeps (sub_of hm rfl) ?_ | with_reducible refine State.poisonNow_keeps (sub_of hm rfl) ?_ | with_reducible refine State.poisonLine_keeps (sub_of hm rfl) ?_ | with_reducible refine State.admitP_keeps (sub_of hm rfl) ?_ | with_reducible refine State.enqueue_keeps (sub_of hm rfl) ?_ | fail_if_no_progress with_reducible refine upd_tw (sub_of hm rfl) ?_ | split | dsimp only)

theorem execMcmd_keeps {m : Nat} {x : State} {a0 : Nat} {a1 : TwinCmd} {s : State} (hm : Nat.land 314447559261966 m = 314447559261966)
    (h : Same m x s) : Ends m x (execMcmd a0 a1 s) := by
  unfold execMcmd
  repeat' (first | with_reducible assumption | intro _ | with_reducible apply ends_next | with_reducible apply ends_ite | with_reducible apply same_ite | with_reducible refine State.carGot_keeps (sub_of hm rfl) ?_ | with_reducible refine State.targetWake_keeps (sub_of hm rfl) ?_ | with_reducible refine State.reply_keeps (sub_of hm rfl) ?_ | with_reducible refine State.discardRange_keeps (sub_of hm rfl) ?_ | with_reducible refine State.secureStart_keeps (sub_of hm rfl) ?_ | with_reducible refine State.injectPoison_keeps (sub_of hm rfl) ?_ | with_reducible refine State.clearPoison_keeps (sub_of hm rfl) ?_ | with_reducible refine State.serPump_keeps (sub_of hm rfl) ?_ | with_reducible refine State.serDo_keeps (sub_of hm rfl) ?_ | split | dsimp only)

theorem execMack_keeps {m : Nat} {x : State} {a0 : Nat} {a1 : Bool} {s : State} (hm : Nat.land 314447559261966 m = 314447559261966)
    (h : Same m x s) : Ends m x (execMack a0 a1 s) := by
  unfold execMack
  repeat' (first | with_reducible assumption | intro _ | with_reducible apply ends_next | with_reducible apply ends_ite | with_reducible apply same_ite | with_reducible apply same_foldl | with_reducible refine State.carGot_keeps (sub_of hm rfl) ?_ | with_reducible refine State.pump_keeps (sub_of hm rfl) ?_ | with_reducible refine State.respond_keeps (sub_of hm rfl) ?_ | fail_if_no_progress with_reducible refine upd_tw (sub_of hm rfl) ?_ | split | dsimp only)

theorem execMcmdAck_keeps {m : Nat} {x : State} {a0 : Nat} {a1 : BitVec 7} {a2 : Bool} {s : State} (hm : Nat.land 314447559261966 m = 314447559261966)
    (h : Same m x s) : Ends m x (execMcmdAck a0 a1 a2 s) := by
  unfold execMcmdAck
  repeat' (first | with_reducible assumption | intro _ | with_reducible apply ends_next | with_reducible apply ends_ite | with_reducible apply same_ite | with_reducible apply same_foldl | with_reducible refine State.carGot_keeps (sub_of hm rfl) ?_ | with_reducible refine State.discardShow_keeps (sub_of hm rfl) ?_ | with_reducible refine State.twinSettle_keeps (sub_of hm rfl) ?_ | with_reducible refine State.serPump_keeps (sub_of hm rfl) ?_ | fail_if_no_progress with_reducible refine upd_te (sub_of hm rfl) ?_ | fail_if_no_progress with_reducible refine upd_tw (sub_of hm rfl) ?_ | split | dsimp only)

theorem execRepReq_keeps {m : Nat} {x : State} {a0 : Nat} {a1 : BitVec 38} {a2 : List Upset} {s : State} (hm : Nat.land 314447559261966 m = 314447559261966)
    (h : Same m x s) : Ends m x (execRepReq a0 a1 a2 s) := by
  unfold execRepReq
  repeat' (first | with_reducible assumption | intro _ | with_reducible apply ends_next | with_reducible apply ends_ite | with_reducible apply same_ite | with_reducible refine State.carGot_keeps (sub_of hm rfl) ?_ | with_reducible refine State.enqueue_keeps (sub_of hm rfl) ?_ | with_reducible refine State.ptrUpset_keeps (sub_of hm rfl) ?_ | split | dsimp only)

theorem execRepRsp_keeps {m : Nat} {x : State} {a0 : Nat} {a1 : Bool} {a2 : Line} {s : State} (hm : Nat.land 314447559261966 m = 314447559261966)
    (h : Same m x s) : Ends m x (execRepRsp a0 a1 a2 s) := by
  unfold execRepRsp
  repeat' (first | with_reducible assumption | intro _ | with_reducible apply ends_next | with_reducible apply ends_ite | with_reducible apply same_ite | with_reducible apply same_when | with_reducible refine State.carGot_keeps (sub_of hm rfl) ?_ | with_reducible refine State.repairFailed_keeps (sub_of hm rfl) ?_ | with_reducible refine State.bump_keeps (sub_of hm rfl) ?_ ?_ | with_reducible refine State.pump_keeps (sub_of hm rfl) ?_ | with_reducible refine State.releaseLine_keeps (sub_of hm rfl) ?_ | with_reducible refine State.mendLine_keeps (sub_of hm rfl) ?_ | with_reducible refine State.wayFetch_keeps (sub_of hm rfl) ?_ | with_reducible refine State.setWay_keeps (sub_of hm rfl) ?_ | with_reducible refine State.supply_keeps (sub_of hm rfl) ?_ | with_reducible refine State.gathered_keeps (sub_of hm rfl) ?_ | fail_if_no_progress with_reducible refine upd_sir (sub_of hm rfl) ?_ | fail_if_no_progress with_reducible refine upd_tw (sub_of hm rfl) ?_ | with_reducible exact R.CAR_REP_OK_ok (sub_of hm rfl) | with_reducible exact R.SIR_RECOV_PEER_ok (sub_of hm rfl) | (with_reducible refine regOk_of (c := 11) (sub_of hm rfl) (blk11 ?_ ?_) <;> simp only [R.SIR_RECOV_PEER] <;> omega) | (with_reducible refine regOk_of (c := 12) (sub_of hm rfl) (blk12 ?_ ?_) <;> simp only [R.CAR_REP_OK] <;> omega) | split | dsimp only)

theorem execTokenOffer_keeps {m : Nat} {x : State} {s : State} (hm : Nat.land 67174410 m = 67174410)
    (h : Same m x s) : Ends m x (execTokenOffer s) := by
  unfold execTokenOffer
  repeat' (first | with_reducible assumption | intro _ | with_reducible apply ends_next | with_reducible apply ends_ite | with_reducible apply same_ite | with_reducible refine State.carGot_keeps (sub_of hm rfl) ?_ | with_reducible refine State.car_keeps (sub_of hm rfl) ?_ | with_reducible refine State.pullToken_keeps (sub_of hm rfl) ?_ | fail_if_no_progress with_reducible refine upd_tw (sub_of hm rfl) ?_ | split | dsimp only)

theorem execTokenTake_keeps {m : Nat} {x : State} {s : State} (hm : Nat.land 314447559261966 m = 314447559261966)
    (h : Same m x s) : Ends m x (execTokenTake s) := by
  unfold execTokenTake
  repeat' (first | with_reducible assumption | intro _ | with_reducible apply ends_next | with_reducible apply ends_ite | with_reducible apply same_ite | with_reducible refine State.carGot_keeps (sub_of hm rfl) ?_ | with_reducible refine State.car_keeps (sub_of hm rfl) ?_ | with_reducible refine State.holdToken_keeps (sub_of hm rfl) ?_ | with_reducible refine State.serPump_keeps (sub_of hm rfl) ?_ | with_reducible refine State.leave_keeps (sub_of hm rfl) ?_ | fail_if_no_progress with_reducible refine upd_tw (sub_of hm rfl) ?_ | split | dsimp only)

theorem execTokenDone_keeps {m : Nat} {x : State} {s : State} (hm : Nat.land 549822988298 m = 549822988298)
    (h : Same m x s) : Ends m x (execTokenDone s) := by
  unfold execTokenDone
  repeat' (first | with_reducible assumption | intro _ | with_reducible apply ends_next | with_reducible apply ends_ite | with_reducible apply same_ite | with_reducible refine State.carGot_keeps (sub_of hm rfl) ?_ | with_reducible refine State.holdToken_keeps (sub_of hm rfl) ?_ | fail_if_no_progress with_reducible refine upd_tw (sub_of hm rfl) ?_ | split | dsimp only)

theorem execRsStart_keeps {m : Nat} {x : State} {a0 : Fin 16} {a1 : Bool} {a2 : Word} {a3 : BitVec 64} {s : State} (hm : Nat.land 567002874894 m = 567002874894)
    (h : Same m x s) : Ends m x (execRsStart a0 a1 a2 a3 s) := by
  unfold execRsStart
  repeat' (first | with_reducible assumption | intro _ | with_reducible apply ends_next | with_reducible apply ends_ite | with_reducible apply same_ite | with_reducible refine State.carGot_keeps (sub_of hm rfl) ?_ | with_reducible refine State.targetWake_keeps (sub_of hm rfl) ?_ | with_reducible refine State.keyRelease_keeps (sub_of hm rfl) ?_ | with_reducible refine State.pairStream_keeps (sub_of hm rfl) (by assumption) ?_ | with_reducible refine State.setBit_keeps (sub_of hm rfl) ?_ ?_ | with_reducible refine State.wrN_keeps (sub_of hm rfl) ?_ ?_ | with_reducible refine State.set_keeps (sub_of hm rfl) ?_ ?_ | fail_if_no_progress with_reducible refine upd_tw (sub_of hm rfl) ?_ | with_reducible exact R.CAR_RG_STS_ok (sub_of hm rfl) | with_reducible exact R.CAR_RSYNC_ok (sub_of hm rfl) | with_reducible exact R.CAR_STS_ok (sub_of hm rfl) | (with_reducible refine regOk_of (c := 12) (sub_of hm rfl) (blk12 ?_ ?_) <;> simp only [R.CAR_RG_STS, R.CAR_RSYNC, R.CAR_STS] <;> omega) | split | dsimp only)

theorem execRsChunk_keeps {m : Nat} {x : State} {a0 : BitVec 64} {a1 : BitVec 32} {a2 : Bool} {a3 : Bool} {a4 : BitVec 64} {a5 : BitVec 128} {a6 : List Line} {s : State} (hm : Nat.land 67190798 m = 67190798)
    (h : Same m x s) : Ends m x (execRsChunk a0 a1 a2 a3 a4 a5 a6 s) := by
  unfold execRsChunk
  repeat' (first | with_reducible assumption | intro _ | with_reducible apply ends_next | with_reducible apply ends_ite | with_reducible apply same_ite | with_reducible refine State.carGot_keeps (sub_of hm rfl) ?_ | with_reducible refine State.keyUse_keeps (sub_of hm rfl) ?_ | with_reducible refine State.rsRes_keeps (sub_of hm rfl) ?_ | with_reducible refine State.keyRelease_keeps (sub_of hm rfl) ?_ | fail_if_no_progress with_reducible refine upd_tw (sub_of hm rfl) ?_ | split | dsimp only)

theorem execRsChunkCommit_keeps {m : Nat} {x : State} {a0 : BitVec 64} {s : State} (hm : Nat.land 314447559261966 m = 314447559261966)
    (h : Same m x s) : Ends m x (execRsChunkCommit a0 s) := by
  unfold execRsChunkCommit
  repeat' (first | with_reducible assumption | intro _ | with_reducible apply ends_next | with_reducible apply ends_ite | with_reducible apply same_ite | with_reducible apply same2_ite | with_reducible refine State.commitLines_keeps (sub_of hm rfl) ?_ | with_reducible refine State.commitLines_keeps_eq (sub_of hm rfl) (by assumption) ?_ | with_reducible refine State.pump_keeps (sub_of hm rfl) ?_ | with_reducible refine State.rsRes_keeps (sub_of hm rfl) ?_ | fail_if_no_progress with_reducible refine upd_tw (sub_of hm rfl) ?_ | split | dsimp only)

theorem execRsRes_keeps {m : Nat} {x : State} {a0 : BitVec 64} {a1 : Fin 16} {s : State} (hm : Nat.land 554117973258 m = 554117973258)
    (h : Same m x s) : Ends m x (execRsRes a0 a1 s) := by
  unfold execRsRes
  repeat' (first | with_reducible assumption | intro _ | with_reducible apply ends_next | with_reducible apply ends_ite | with_reducible apply same_ite | with_reducible apply same_foldl | with_reducible refine State.carGot_keeps (sub_of hm rfl) ?_ | with_reducible refine State.keyRelease_keeps (sub_of hm rfl) ?_ | with_reducible refine State.rsRegionDone_keeps (sub_of hm rfl) ?_ | with_reducible refine State.bump_keeps (sub_of hm rfl) ?_ ?_ | with_reducible refine State.bmapSet_keeps (sub_of hm rfl) ?_ | fail_if_no_progress with_reducible refine upd_tw (sub_of hm rfl) ?_ | with_reducible exact R.CAR_RSYNC_CHUNKS_ok (sub_of hm rfl) | (with_reducible refine regOk_of (c := 12) (sub_of hm rfl) (blk12 ?_ ?_) <;> simp only [R.CAR_RSYNC_CHUNKS] <;> omega) | split | dsimp only)

theorem execRsSuspect_keeps {m : Nat} {x : State} {a0 : List (BitVec 32)} {s : State} (hm : Nat.land 549822989322 m = 549822989322)
    (h : Same m x s) : Ends m x (execRsSuspect a0 s) := by
  unfold execRsSuspect
  repeat' (first | with_reducible assumption | intro _ | with_reducible apply ends_next | with_reducible apply ends_ite | with_reducible apply same_ite | with_reducible apply same_foldl | with_reducible refine State.carGot_keeps (sub_of hm rfl) ?_ | with_reducible refine State.admitTwin_keeps (sub_of hm rfl) ?_ | with_reducible refine State.bmapSet_keeps (sub_of hm rfl) ?_ | split | dsimp only)

theorem execRsEnd_keeps {m : Nat} {x : State} {a0 : Fin 16} {a1 : Bool} {s : State} (hm : Nat.land 554117973258 m = 554117973258)
    (h : Same m x s) : Ends m x (execRsEnd a0 a1 s) := by
  unfold execRsEnd
  repeat' (first | with_reducible assumption | intro _ | with_reducible apply ends_next | with_reducible apply ends_ite | with_reducible apply same_ite | with_reducible refine State.carGot_keeps (sub_of hm rfl) ?_ | with_reducible refine State.setBit_keeps (sub_of hm rfl) ?_ ?_ | with_reducible refine State.keyRelease_keeps (sub_of hm rfl) ?_ | with_reducible refine State.car_keeps (sub_of hm rfl) ?_ | with_reducible refine State.resyncEnd_keeps (sub_of hm rfl) ?_ | fail_if_no_progress with_reducible refine upd_tw (sub_of hm rfl) ?_ | with_reducible exact R.CAR_RG_STS_ok (sub_of hm rfl) | (with_reducible refine regOk_of (c := 12) (sub_of hm rfl) (blk12 ?_ ?_) <;> simp only [R.CAR_RG_STS] <;> omega) | split | dsimp only)

theorem execCarIdleTo_keeps {m : Nat} {x : State} {s : State} (hm : Nat.land 549823005194 m = 549823005194)
    (h : Same m x s) : Ends m x (execCarIdleTo s) := by
  unfold execCarIdleTo
  repeat' (first | with_reducible assumption | intro _ | with_reducible apply ends_next | with_reducible refine State.linkLoss_keeps (sub_of hm rfl) ?_ | split | dsimp only)

theorem execCarRspTo_keeps {m : Nat} {x : State} {s : State} (hm : Nat.land 549823005194 m = 549823005194)
    (h : Same m x s) : Ends m x (execCarRspTo s) := by
  unfold execCarRspTo
  repeat' (first | with_reducible assumption | intro _ | with_reducible apply ends_next | with_reducible apply ends_ite | with_reducible apply same_ite | with_reducible refine State.linkLoss_keeps (sub_of hm rfl) ?_ | split | dsimp only)

theorem execMcmdTimeout_keeps {m : Nat} {x : State} {s : State} (hm : Nat.land 549823005194 m = 549823005194)
    (h : Same m x s) : Ends m x (execMcmdTimeout s) := by
  unfold execMcmdTimeout
  repeat' (first | with_reducible assumption | intro _ | with_reducible apply ends_next | with_reducible apply ends_ite | with_reducible apply same_ite | with_reducible refine State.linkLoss_keeps (sub_of hm rfl) ?_ | split | dsimp only)

theorem execRepairTimeout_keeps {m : Nat} {x : State} {a0 : Nat} {s : State} (hm : Nat.land 314447559261966 m = 314447559261966)
    (h : Same m x s) : Ends m x (execRepairTimeout a0 s) := by
  unfold execRepairTimeout
  repeat' (first | with_reducible assumption | intro _ | with_reducible apply ends_next | with_reducible refine State.repairFailed_keeps (sub_of hm rfl) ?_ | fail_if_no_progress with_reducible refine upd_tw (sub_of hm rfl) ?_ | split | dsimp only)

theorem execFlitReplayLimit_keeps {m : Nat} {x : State} {s : State} (hm : Nat.land 549823005194 m = 549823005194)
    (h : Same m x s) : Ends m x (execFlitReplayLimit s) := by
  unfold execFlitReplayLimit
  repeat' (first | with_reducible assumption | intro _ | with_reducible apply ends_next | with_reducible refine State.linkLoss_keeps (sub_of hm rfl) ?_ | split | dsimp only)

theorem execAliveTimeout_keeps {m : Nat} {x : State} {s : State} (hm : Nat.land 549823005194 m = 549823005194)
    (h : Same m x s) : Ends m x (execAliveTimeout s) := by
  unfold execAliveTimeout
  repeat' (first | with_reducible assumption | intro _ | with_reducible apply ends_next | with_reducible refine State.linkLoss_keeps (sub_of hm rfl) ?_ | with_reducible refine State.setBit_keeps (sub_of hm rfl) ?_ ?_ | with_reducible exact R.CAR_STS_ok (sub_of hm rfl) | (with_reducible refine regOk_of (c := 12) (sub_of hm rfl) (blk12 ?_ ?_) <;> simp only [R.CAR_STS] <;> omega) | split | dsimp only)

theorem execCaravanSignalLoss_keeps {m : Nat} {x : State} {s : State} (hm : Nat.land 549823005194 m = 549823005194)
    (h : Same m x s) : Ends m x (execCaravanSignalLoss s) := by
  unfold execCaravanSignalLoss
  repeat' (first | with_reducible assumption | intro _ | with_reducible apply ends_next | with_reducible refine State.linkLoss_keeps (sub_of hm rfl) ?_ | split | dsimp only)

theorem execFailoverSettle_keeps {m : Nat} {x : State} {s : State} (hm : Nat.land 314447559261966 m = 314447559261966)
    (h : Same m x s) : Ends m x (execFailoverSettle s) := by
  unfold execFailoverSettle
  repeat' (first | with_reducible assumption | intro _ | with_reducible apply ends_next | with_reducible apply ends_ite | with_reducible apply same_ite | with_reducible refine State.serPump_keeps (sub_of hm rfl) ?_ | with_reducible refine State.failoverEnd_keeps (sub_of hm rfl) ?_ | with_reducible refine State.becomeSolo_keeps (sub_of hm rfl) ?_ | split | dsimp only)

theorem execFailoverWindowEnd_keeps {m : Nat} {x : State} {s : State} (hm : Nat.land 314447559261966 m = 314447559261966)
    (h : Same m x s) : Ends m x (execFailoverWindowEnd s) := by
  unfold execFailoverWindowEnd
  repeat' (first | with_reducible assumption | intro _ | with_reducible apply ends_next | with_reducible apply ends_ite | with_reducible apply same_ite | with_reducible refine State.serPump_keeps (sub_of hm rfl) ?_ | with_reducible refine State.failoverEnd_keeps (sub_of hm rfl) ?_ | with_reducible refine State.fence_keeps (sub_of hm rfl) ?_ | split | dsimp only)

theorem execSide1TokenWait_keeps {m : Nat} {x : State} {s : State} (hm : Nat.land 314447559261966 m = 314447559261966)
    (h : Same m x s) : Ends m x (execSide1TokenWait s) := by
  unfold execSide1TokenWait
  repeat' (first | with_reducible assumption | intro _ | with_reducible apply ends_next | with_reducible apply ends_ite | with_reducible apply same_ite | with_reducible refine State.soloAlone_keeps (sub_of hm rfl) ?_ | with_reducible refine State.fence_keeps (sub_of hm rfl) ?_ | with_reducible refine State.holdToken_keeps (sub_of hm rfl) ?_ | with_reducible refine State.serPump_keeps (sub_of hm rfl) ?_ | with_reducible refine State.failoverEnd_keeps (sub_of hm rfl) ?_ | fail_if_no_progress with_reducible refine upd_tw (sub_of hm rfl) ?_ | split | dsimp only)

theorem execTwinTokenChange_keeps {m : Nat} {x : State} {a0 : Bool} {s : State} (hm : Nat.land 549822988298 m = 549822988298)
    (h : Same m x s) : Ends m x (execTwinTokenChange a0 s) := by
  unfold execTwinTokenChange
  repeat' (first | with_reducible assumption | intro _ | with_reducible apply ends_next | with_reducible apply ends_ite | with_reducible apply same_ite | with_reducible refine State.setBit_keeps (sub_of hm rfl) ?_ ?_ | with_reducible refine State.failoverHigh_keeps (sub_of hm rfl) ?_ | with_reducible exact R.CAR_STS_ok (sub_of hm rfl) | (with_reducible refine regOk_of (c := 12) (sub_of hm rfl) (blk12 ?_ ?_) <;> simp only [R.CAR_STS] <;> omega) | split | dsimp only)

theorem execAliveToggle_keeps {m : Nat} {x : State} {s : State} (hm : Nat.land 67174410 m = 67174410)
    (h : Same m x s) : Ends m x (execAliveToggle s) := by
  unfold execAliveToggle
  repeat' (first | with_reducible assumption | intro _ | with_reducible apply ends_next | with_reducible apply ends_ite | with_reducible apply same_ite | with_reducible refine State.emit_keeps (sub_of hm rfl) ?_ | fail_if_no_progress with_reducible refine upd_tw (sub_of hm rfl) ?_ | split | dsimp only)

theorem execHbSend_keeps {m : Nat} {x : State} {s : State} (hm : Nat.land 67108874 m = 67108874)
    (h : Same m x s) : Ends m x (execHbSend s) := by
  unfold execHbSend
  repeat' (first | with_reducible assumption | intro _ | with_reducible apply ends_next | with_reducible refine State.car_keeps (sub_of hm rfl) ?_ | split | dsimp only)

theorem execCaravanLinkUp_keeps {m : Nat} {x : State} {s : State} (hm : Nat.land 687261944334 m = 687261944334)
    (h : Same m x s) : Ends m x (execCaravanLinkUp s) := by
  unfold execCaravanLinkUp
  repeat' (first | with_reducible assumption | intro _ | with_reducible apply ends_next | with_reducible apply ends_ite | with_reducible apply same_ite | with_reducible refine State.setBit_keeps (sub_of hm rfl) ?_ ?_ | with_reducible refine State.tsStatus_keeps (sub_of hm rfl) ?_ | with_reducible refine State.sendHello_keeps (sub_of hm rfl) ?_ | with_reducible refine State.linkEvent_keeps (sub_of hm rfl) ?_ | fail_if_no_progress with_reducible refine upd_rt_tw (sub_of hm rfl) ?_ | with_reducible exact R.CAR_CFG_ok (sub_of hm rfl) | with_reducible exact R.CAR_CRD_MIR_ok (sub_of hm rfl) | with_reducible exact R.CAR_CTL_ok (sub_of hm rfl) | with_reducible exact R.CAR_STS_ok (sub_of hm rfl) | with_reducible exact R.RT_CRD_FWD_ok (sub_of hm rfl) | with_reducible exact R.TST_PHY_CTL_ok (sub_of hm rfl) | (with_reducible refine regOk_of (c := 12) (sub_of hm rfl) (blk12 ?_ ?_) <;> simp only [R.CAR_CFG, R.CAR_CRD_MIR, R.CAR_CTL, R.CAR_STS] <;> omega) | split | dsimp only)

theorem execCaravanTrainRetry_keeps {m : Nat} {x : State} {s : State} (hm : Nat.land 67108874 m = 67108874)
    (h : Same m x s) : Ends m x (execCaravanTrainRetry s) := by
  unfold execCaravanTrainRetry
  repeat' (first | with_reducible assumption | intro _ | with_reducible apply ends_next | with_reducible apply ends_ite | with_reducible apply same_ite | with_reducible refine State.emit_keeps (sub_of hm rfl) ?_ | split | dsimp only)

theorem execRoleDecision_keeps {m : Nat} {x : State} {s : State} (hm : Nat.land 314447559261966 m = 314447559261966)
    (h : Same m x s) : Ends m x (execRoleDecision s) := by
  unfold execRoleDecision
  repeat' (first | with_reducible assumption | intro _ | with_reducible apply ends_next | with_reducible apply ends_ite | with_reducible apply same_ite | with_reducible refine State.set_keeps (sub_of hm rfl) ?_ ?_ | with_reducible refine State.soloAlone_keeps (sub_of hm rfl) ?_ | with_reducible refine State.fence_keeps (sub_of hm rfl) ?_ | with_reducible refine State.holdToken_keeps (sub_of hm rfl) ?_ | with_reducible refine State.admitTwin_keeps (sub_of hm rfl) ?_ | with_reducible refine State.setBit_keeps (sub_of hm rfl) ?_ ?_ | with_reducible refine State.recordRole_keeps (sub_of hm rfl) ?_ | with_reducible refine State.becomePaired_keeps (sub_of hm rfl) ?_ | with_reducible refine State.inSyncAll_keeps (sub_of hm rfl) ?_ | with_reducible refine State.startSource_keeps (sub_of hm rfl) ?_ | with_reducible refine State.unfence_keeps (sub_of hm rfl) ?_ | fail_if_no_progress with_reducible refine upd_tw (sub_of hm rfl) ?_ | with_reducible exact R.CAR_CFG_ok (sub_of hm rfl) | with_reducible exact R.CAR_RG_STS_ok (sub_of hm rfl) | with_reducible exact R.CAR_STS_ok (sub_of hm rfl) | with_reducible exact R.RT_RG_CTL_ok (sub_of hm rfl) | with_reducible exact R.TE_STS_ok (sub_of hm rfl) | (with_reducible refine regOk_of (c := 12) (sub_of hm rfl) (blk12 ?_ ?_) <;> simp only [R.CAR_CFG, R.CAR_RG_STS, R.CAR_STS] <;> omega) | split | dsimp only)

theorem execAdmitPair_keeps {m : Nat} {x : State} {a0 : Nat} {s : State} (hm : Nat.land 314447559261966 m = 314447559261966)
    (h : Same m x s) : Ends m x (execAdmitPair a0 s) := by
  unfold execAdmitPair
  repeat' (first | with_reducible assumption | intro _ | with_reducible apply ends_next | with_reducible refine State.serCmd_keeps (sub_of hm rfl) ?_ | split | dsimp only)

theorem execAdmitSolo_keeps {m : Nat} {x : State} {a0 : Nat} {s : State} (hm : Nat.land 314447559261966 m = 314447559261966)
    (h : Same m x s) : Ends m x (execAdmitSolo a0 s) := by
  unfold execAdmitSolo
  repeat' (first | with_reducible assumption | intro _ | with_reducible apply ends_next | with_reducible refine State.serCmd_keeps (sub_of hm rfl) ?_ | split | dsimp only)

theorem execAdmitKeep_keeps {m : Nat} {x : State} {a0 : Nat} {a1 : Fin 2} {s : State} (hm : Nat.land 314447559261966 m = 314447559261966)
    (h : Same m x s) : Ends m x (execAdmitKeep a0 a1 s) := by
  unfold execAdmitKeep
  repeat' (first | with_reducible assumption | intro _ | with_reducible apply ends_next | with_reducible refine State.serCmd_keeps (sub_of hm rfl) ?_ | split | dsimp only)

theorem execDetach_keeps {m : Nat} {x : State} {a0 : Nat} {a1 : Fin 2} {s : State} (hm : Nat.land 314447559261966 m = 314447559261966)
    (h : Same m x s) : Ends m x (execDetach a0 a1 s) := by
  unfold execDetach
  repeat' (first | with_reducible assumption | intro _ | with_reducible apply ends_next | with_reducible refine State.serCmd_keeps (sub_of hm rfl) ?_ | split | dsimp only)

theorem execCarRetrain_keeps {m : Nat} {x : State} {a0 : Path} {s : State} (hm : Nat.land 549822988298 m = 549822988298)
    (h : Same m x s) : Ends m x (execCarRetrain a0 s) := by
  unfold execCarRetrain
  repeat' (first | with_reducible assumption | intro _ | with_reducible apply ends_next | with_reducible apply ends_ite | with_reducible apply same_ite | with_reducible refine State.regAcc_keeps (sub_of hm rfl) ?_ | with_reducible refine State.emit_keeps (sub_of hm rfl) ?_ | with_reducible refine State.setBit_keeps (sub_of hm rfl) ?_ ?_ | with_reducible refine State.linkDown_keeps (sub_of hm rfl) ?_ | with_reducible exact R.CAR_CTL_ok (sub_of hm rfl) | with_reducible exact R.CAR_STS_ok (sub_of hm rfl) | (with_reducible refine regOk_of (c := 12) (sub_of hm rfl) (blk12 ?_ ?_) <;> simp only [R.CAR_CTL, R.CAR_STS] <;> omega) | split | dsimp only)

theorem execCarCntClr_keeps {m : Nat} {x : State} {a0 : Path} {a1 : Word} {s : State} (hm : Nat.land 549822922760 m = 549822922760)
    (h : Same m x s) : Ends m x (execCarCntClr a0 a1 s) := by
  unfold execCarCntClr
  repeat' (first | with_reducible exact list_ok_nil | with_reducible refine list_ok_cons ?_ ?_ | with_reducible refine list_ok_append ?_ ?_ | with_reducible exact pc_ok | with_reducible refine range_ok ?_ | with_reducible assumption | intro _ | with_reducible apply ends_next | with_reducible apply same_when | with_reducible refine State.regAcc_keeps (sub_of hm rfl) ?_ | with_reducible refine State.zero_keeps (sub_of hm rfl) ?_ ?_ | with_reducible exact R.CAR_FO_CNT_ok (sub_of hm rfl) | with_reducible exact R.CAR_MIR_CNT_ok (sub_of hm rfl) | (with_reducible refine regOk_of (c := 12) (sub_of hm rfl) (blk12 ?_ ?_) <;> simp only [R.CAR_FO_CNT, R.CAR_MIR_CNT] <;> omega) | split | dsimp only)

theorem execTwinAliveInEdge_keeps {m : Nat} {x : State} {s : State} (hm : Nat.land 549755813896 m = 549755813896)
    (h : Same m x s) : Ends m x (execTwinAliveInEdge s) := by
  unfold execTwinAliveInEdge
  repeat' (first | with_reducible assumption | intro _ | with_reducible apply ends_next | with_reducible refine State.setBit_keeps (sub_of hm rfl) ?_ ?_ | with_reducible exact R.CAR_STS_ok (sub_of hm rfl) | (with_reducible refine regOk_of (c := 12) (sub_of hm rfl) (blk12 ?_ ?_) <;> simp only [R.CAR_STS] <;> omega) | split | dsimp only)

theorem execCaravanBadPacket_keeps {m : Nat} {x : State} {s : State} (hm : Nat.land 549823005194 m = 549823005194)
    (h : Same m x s) : Ends m x (execCaravanBadPacket s) := by
  unfold execCaravanBadPacket
  repeat' (first | with_reducible assumption | intro _ | with_reducible apply ends_next | with_reducible refine State.linkLoss_keeps (sub_of hm rfl) ?_ | with_reducible refine State.carGot_keeps (sub_of hm rfl) ?_ | split | dsimp only)

theorem execResyncScan_keeps {m : Nat} {x : State} {s : State} (hm : Nat.land 18163483886862 m = 18163483886862)
    (h : Same m x s) : Ends m x (execResyncScan s) := by
  unfold execResyncScan
  repeat' (first | with_reducible assumption | intro _ | with_reducible apply ends_next | with_reducible apply ends_ite | with_reducible apply same_ite | with_reducible refine State.resyncEnd_keeps (sub_of hm rfl) ?_ | with_reducible refine State.rsBegin_keeps (sub_of hm rfl) ?_ | with_reducible refine State.rsSend_keeps (sub_of hm rfl) ?_ | with_reducible refine State.car_keeps (sub_of hm rfl) ?_ | fail_if_no_progress with_reducible refine upd_tw (sub_of hm rfl) ?_ | split | dsimp only)

end Sys2Proof.Machine
end

