-- ==== Sys2Proof/Laws/FrameQueueOps.lean ====
section
/-! SUPPORT. The frame of every operation of Machine/QueueOps.lean, as a mask of the kinds of state that it may change. -/

set_option autoImplicit false
set_option linter.unusedTactic false
set_option linter.unreachableTactic false
set_option linter.unnecessarySeqFocus false
set_option linter.unusedSimpArgs false
set_option linter.unusedVariables false

namespace Sys2Proof.Machine

theorem State.coreRetire_keeps {m : Nat} {x : State} {s : State} {a1 : Nat} (hm : Nat.land 67108876 m = 67108876)
    (h : Same m x s) : Same m x (State.coreRetire s a1) := by
  unfold State.coreRetire
  repeat' (first | with_reducible assumption | intro _ | with_reducible apply same_ite | with_reducible apply same_when | with_reducible refine State.drawn_keeps (sub_of hm rfl) ?_ | with_reducible refine State.pcEvent_keeps (sub_of hm rfl) ?_ | split | dsimp only)

theorem State.mqShow_keeps {m : Nat} {x : State} {s : State} {a1 : Nat} (hm : Nat.land 70368744177672 m = 70368744177672)
    (h : Same m x s) : Same m x (State.mqShow s a1) := by
  unfold State.mqShow
  repeat' (first | with_reducible assumption | intro _ | with_reducible refine State.set_keeps (sub_of hm rfl) ?_ ?_ | with_reducible refine State.setBit_keeps (sub_of hm rfl) ?_ ?_ | with_reducible exact R.MQ_PKTS_ok (sub_of hm rfl) | with_reducible exact R.MQ_POP_FLG_ok (sub_of hm rfl) | with_reducible exact R.MQ_SPACE_ok (sub_of hm rfl) | with_reducible exact R.MQ_STS_ok (sub_of hm rfl) | (with_reducible refine regOk_of (c := 19) (sub_of hm rfl) (blk19 ?_ ?_) <;> simp only [R.MQ_PKTS, R.MQ_POP_FLG, R.MQ_SPACE, R.MQ_STS] <;> omega) | split | dsimp only)

theorem State.mqPut_keeps {m : Nat} {x : State} {s : State} {a1 : Nat} {a2 : Mq → Mq} (hm : Nat.land 70368861618186 m = 70368861618186)
    (h : Same m x s) : Same m x (State.mqPut s a1 a2) := by
  unfold State.mqPut
  repeat' (first | with_reducible assumption | intro _ | with_reducible refine State.alertShow_keeps (sub_of hm rfl) ?_ | with_reducible refine State.mqShow_keeps (sub_of hm rfl) ?_ | with_reducible refine State.mqMod_keeps (sub_of hm rfl) ?_ | split | dsimp only)

theorem State.mqReset_keeps {m : Nat} {x : State} {s : State} {a1 : Nat} (hm : Nat.land 70368861618186 m = 70368861618186)
    (h : Same m x s) : Same m x (State.mqReset s a1) := by
  unfold State.mqReset
  repeat' (first | with_reducible assumption | intro _ | with_reducible refine State.mqPut_keeps (sub_of hm rfl) ?_ | with_reducible refine State.set_keeps (sub_of hm rfl) ?_ ?_ | with_reducible refine State.setBit_keeps (sub_of hm rfl) ?_ ?_ | with_reducible exact R.MQ_CTL_ok (sub_of hm rfl) | with_reducible exact R.MQ_STS_ok (sub_of hm rfl) | (with_reducible refine regOk_of (c := 19) (sub_of hm rfl) (blk19 ?_ ?_) <;> simp only [R.MQ_CTL, R.MQ_STS] <;> omega) | split | dsimp only)

theorem State.mqPtrReset_keeps {m : Nat} {x : State} {s : State} {a1 : Nat} (hm : Nat.land 70368861618186 m = 70368861618186)
    (h : Same m x s) : Same m x (State.mqPtrReset s a1) := by
  unfold State.mqPtrReset
  repeat' (first | with_reducible assumption | intro _ | with_reducible refine State.bump_keeps (sub_of hm rfl) ?_ ?_ | with_reducible refine State.setBit_keeps (sub_of hm rfl) ?_ ?_ | with_reducible refine State.mqReset_keeps (sub_of hm rfl) ?_ | with_reducible exact R.MQ_PTR_CNT_ok (sub_of hm rfl) | with_reducible exact R.MQ_STS_ok (sub_of hm rfl) | (with_reducible refine regOk_of (c := 19) (sub_of hm rfl) (blk19 ?_ ?_) <;> simp only [R.MQ_PTR_CNT, R.MQ_STS] <;> omega) | split | dsimp only)

theorem State.laneMod_keeps {m : Nat} {x : State} {s : State} {a1 : Nat} {a2 : Lane → Lane} (hm : Nat.land 67108864 m = 67108864)
    (h : Same m x s) : Same m x (State.laneMod s a1 a2) := by
  unfold State.laneMod
  repeat' (first | with_reducible assumption | intro _ | fail_if_no_progress with_reducible refine upd_tst (sub_of hm rfl) ?_ | split | dsimp only)

theorem State.laneStop_keeps {m : Nat} {x : State} {s : State} {a1 : Nat} (hm : Nat.land 67108876 m = 67108876)
    (h : Same m x s) : Same m x (State.laneStop s a1) := by
  unfold State.laneStop
  repeat' (first | with_reducible assumption | intro _ | with_reducible apply same_ite | with_reducible refine State.pcEvent_keeps (sub_of hm rfl) ?_ | with_reducible refine State.laneMod_keeps (sub_of hm rfl) ?_ | with_reducible refine State.drawn_keeps (sub_of hm rfl) ?_ | split | dsimp only)

theorem State.laneShow_keeps {m : Nat} {x : State} {s : State} (hm : Nat.land 140737488355336 m = 140737488355336)
    (h : Same m x s) : Same m x (State.laneShow s) := by
  unfold State.laneShow
  repeat' (first | with_reducible exact list_ok_nil | with_reducible refine list_ok_cons ?_ ?_ | with_reducible refine list_ok_append ?_ ?_ | with_reducible exact pc_ok | with_reducible refine range_ok ?_ | with_reducible assumption | intro _ | with_reducible apply same_ite | with_reducible refine State.setBit_keeps (sub_of hm rfl) ?_ ?_ | with_reducible refine State.wrN_keeps (sub_of hm rfl) ?_ ?_ | with_reducible refine State.zero_keeps (sub_of hm rfl) ?_ ?_ | with_reducible exact R.TST_LANE_SEL_ok (sub_of hm rfl) | with_reducible exact R.TST_PAT_BITS_HI_ok (sub_of hm rfl) | with_reducible exact R.TST_PAT_BITS_LO_ok (sub_of hm rfl) | with_reducible exact R.TST_PAT_CTL_ok (sub_of hm rfl) | with_reducible exact R.TST_PAT_ERR_ok (sub_of hm rfl) | with_reducible exact R.TST_PAT_STS_ok (sub_of hm rfl) | (with_reducible refine regOk_of (c := 20) (sub_of hm rfl) (blk20 ?_ ?_) <;> simp only [R.TST_LANE_SEL, R.TST_PAT_BITS_HI, R.TST_PAT_BITS_LO, R.TST_PAT_CTL, R.TST_PAT_ERR, R.TST_PAT_STS] <;> omega) | split | dsimp only)

theorem State.margEnd_keeps {m : Nat} {x : State} {s : State} {a1 : Nat} (hm : Nat.land 140737555464200 m = 140737555464200)
    (h : Same m x s) : Same m x (State.margEnd s a1) := by
  unfold State.margEnd
  repeat' (first | with_reducible assumption | intro _ | with_reducible refine State.setBit_keeps (sub_of hm rfl) ?_ ?_ | with_reducible refine State.set_keeps (sub_of hm rfl) ?_ ?_ | fail_if_no_progress with_reducible refine upd_tst (sub_of hm rfl) ?_ | with_reducible exact R.TST_MARG_CTL_ok (sub_of hm rfl) | with_reducible exact R.TST_MARG_STS_ok (sub_of hm rfl) | (with_reducible refine regOk_of (c := 20) (sub_of hm rfl) (blk20 ?_ ?_) <;> simp only [R.TST_MARG_CTL, R.TST_MARG_STS] <;> omega) | split | dsimp only)

theorem State.testStop_keeps {m : Nat} {x : State} {s : State} (hm : Nat.land 140737555464204 m = 140737555464204)
    (h : Same m x s) : Same m x (State.testStop s) := by
  unfold State.testStop
  repeat' (first | with_reducible assumption | intro _ | with_reducible apply same_foldl | with_reducible refine State.laneStop_keeps (sub_of hm rfl) ?_ | with_reducible refine State.laneShow_keeps (sub_of hm rfl) ?_ | with_reducible refine State.margEnd_keeps (sub_of hm rfl) ?_ | with_reducible refine State.drawn_keeps (sub_of hm rfl) ?_ | split | dsimp only)

theorem State.levelCount_keeps {m : Nat} {x : State} {s : State} {a1 : Nat} {a2 : Bool} (hm : Nat.land 8 m = 8)
    (h : Same m x s) : Same m x (State.levelCount s a1 a2) := by
  unfold State.levelCount
  repeat' (first | with_reducible assumption | intro _ | with_reducible apply same_ite | with_reducible apply same_foldl | with_reducible refine State.pcAdd_keeps (sub_of hm rfl) ?_ | split | dsimp only)

theorem State.levelTick_keeps {m : Nat} {x : State} {s : State} (hm : Nat.land 67108872 m = 67108872)
    (h : Same m x s) : Same m x (State.levelTick s) := by
  unfold State.levelTick
  repeat' (first | with_reducible assumption | intro _ | with_reducible apply same_foldl | with_reducible refine State.levelCount_keeps (sub_of hm rfl) ?_ | fail_if_no_progress with_reducible refine upd_tst (sub_of hm rfl) ?_ | split | dsimp only)

theorem State.pcTicks_keeps {m : Nat} {x : State} {s : State} (hm : Nat.land 67108876 m = 67108876)
    (h : Same m x s) : Same m x (State.pcTicks s) := by
  unfold State.pcTicks
  repeat' (first | with_reducible assumption | intro _ | with_reducible apply same_foldl | with_reducible refine State.levelTick_keeps (sub_of hm rfl) ?_ | with_reducible refine State.pcTick_keeps (sub_of hm rfl) ?_ | with_reducible refine State.coreRetire_keeps (sub_of hm rfl) ?_ | split | dsimp only)

theorem State.keepWraps_keeps {m : Nat} {x : State} {s : State} {a1 : Nat} {a2 : Nat} (hm : Nat.land 8 m = 8)
    (h : Same m x s) : Same m x (State.keepWraps s a1 a2) := by
  unfold State.keepWraps
  repeat' (first | with_reducible assumption | intro _ | with_reducible apply same_ite | with_reducible refine State.set_keeps (sub_of hm rfl) ?_ ?_ | with_reducible exact R.PC_WIN_CTL_ok | split | dsimp only)

theorem State.laneCount_keeps {m : Nat} {x : State} {s : State} {a1 : Nat} {a2 : Nat} {a3 : Nat} (hm : Nat.land 67108868 m = 67108868)
    (h : Same m x s) : Same m x (State.laneCount s a1 a2 a3) := by
  unfold State.laneCount
  repeat' (first | with_reducible assumption | intro _ | with_reducible apply same_ite | with_reducible refine State.laneMod_keeps (sub_of hm rfl) ?_ | with_reducible refine State.drawn_keeps (sub_of hm rfl) ?_ | split | dsimp only)

theorem State.mqFlushDn_keeps {m : Nat} {x : State} {s : State} {a1 : Nat} (hm : Nat.land 70368861618186 m = 70368861618186)
    (h : Same m x s) : Same m x (State.mqFlushDn s a1) := by
  unfold State.mqFlushDn
  repeat' (first | with_reducible assumption | intro _ | with_reducible refine State.setBit_keeps (sub_of hm rfl) ?_ ?_ | with_reducible refine State.mqPut_keeps (sub_of hm rfl) ?_ | with_reducible exact R.MQ_CTL_ok (sub_of hm rfl) | with_reducible exact R.MQ_STS_ok (sub_of hm rfl) | (with_reducible refine regOk_of (c := 19) (sub_of hm rfl) (blk19 ?_ ?_) <;> simp only [R.MQ_CTL, R.MQ_STS] <;> omega) | split | dsimp only)

theorem State.mqFlushUp_keeps {m : Nat} {x : State} {s : State} {a1 : Nat} (hm : Nat.land 70368861618186 m = 70368861618186)
    (h : Same m x s) : Same m x (State.mqFlushUp s a1) := by
  unfold State.mqFlushUp
  repeat' (first | with_reducible assumption | intro _ | with_reducible refine State.setBit_keeps (sub_of hm rfl) ?_ ?_ | with_reducible refine State.mqPut_keeps (sub_of hm rfl) ?_ | with_reducible exact R.MQ_CTL_ok (sub_of hm rfl) | with_reducible exact R.MQ_STS_ok (sub_of hm rfl) | (with_reducible refine regOk_of (c := 19) (sub_of hm rfl) (blk19 ?_ ?_) <;> simp only [R.MQ_CTL, R.MQ_STS] <;> omega) | split | dsimp only)

theorem State.mqPtrFault_keeps {m : Nat} {x : State} {s : State} {a1 : Nat} (hm : Nat.land 70368861619726 m = 70368861619726)
    (h : Same m x s) : Same m x (State.mqPtrFault s a1) := by
  unfold State.mqPtrFault
  repeat' (first | with_reducible assumption | intro _ | with_reducible refine State.raise_keeps (sub_of hm rfl) ?_ | with_reducible refine State.mqPtrReset_keeps (sub_of hm rfl) ?_ | split | dsimp only)

theorem State.mqPush_keeps {m : Nat} {x : State} {s : State} {a1 : Nat} {a2 : Nat} {a3 : Word} {a4 : Bool} (hm : Nat.land 70368861618186 m = 70368861618186)
    (h : Same m x s) : Same m x (State.mqPush s a1 a2 a3 a4) := by
  unfold State.mqPush
  repeat' (first | with_reducible assumption | intro _ | with_reducible apply same_ite | with_reducible apply same_when | with_reducible refine State.mqMod_keeps (sub_of hm rfl) ?_ | with_reducible refine State.pcEvent_keeps (sub_of hm rfl) ?_ | with_reducible refine State.mqPut_keeps (sub_of hm rfl) ?_ | with_reducible refine State.bump_keeps (sub_of hm rfl) ?_ ?_ | with_reducible refine State.setBit_keeps (sub_of hm rfl) ?_ ?_ | with_reducible refine State.mqFlushDn_keeps (sub_of hm rfl) ?_ | with_reducible exact R.MQ_DROP_PKT_ok (sub_of hm rfl) | with_reducible exact R.MQ_STS_ok (sub_of hm rfl) | (with_reducible refine regOk_of (c := 19) (sub_of hm rfl) (blk19 ?_ ?_) <;> simp only [R.MQ_DROP_PKT, R.MQ_STS] <;> omega) | split | dsimp only)

theorem State.winWrite_keeps {m : Nat} {x : State} {s : State} {a1 : Nat} {a2 : Word} (hm : Nat.land 8 m = 8)
    (h : Same m x s) : Same m x (State.winWrite s a1 a2) := by
  unfold State.winWrite
  repeat' (first | with_reducible assumption | intro _ | with_reducible refine State.set_keeps (sub_of hm rfl) ?_ ?_ | with_reducible exact R.PC_WIN_CTL_ok | split | dsimp only)

theorem State.winClose_keeps {m : Nat} {x : State} {s : State} {a1 : Nat} (hm : Nat.land 8 m = 8)
    (h : Same m x s) : Same m x (State.winClose s a1) := by
  unfold State.winClose
  repeat' (first | with_reducible assumption | intro _ | with_reducible refine State.setBit_keeps (sub_of hm rfl) ?_ ?_ | with_reducible exact R.PC_WIN_CTL_ok | split | dsimp only)

theorem State.winOpen_keeps {m : Nat} {x : State} {s : State} {a1 : Nat} (hm : Nat.land 67108872 m = 67108872)
    (h : Same m x s) : Same m x (State.winOpen s a1) := by
  unfold State.winOpen
  repeat' (first | with_reducible assumption | intro _ | with_reducible refine State.setBit_keeps (sub_of hm rfl) ?_ ?_ | fail_if_no_progress with_reducible refine upd_tst (sub_of hm rfl) ?_ | with_reducible exact R.PC_WIN_CTL_ok | split | dsimp only)

end Sys2Proof.Machine
end

