-- ==== Sys2Proof/Laws/FrameChannel.lean ====
section
/-! SUPPORT. The frame of every operation of Machine/Channel.lean, as a mask of the kinds of state that it may change. -/

set_option autoImplicit false
set_option linter.unusedTactic false
set_option linter.unreachableTactic false
set_option linter.unnecessarySeqFocus false
set_option linter.unusedSimpArgs false
set_option linter.unusedVariables false

namespace Sys2Proof.Machine

theorem State.dieRecover_keeps {m : Nat} {x : State} {s : State} {a1 : Nat} (hm : Nat.land 305325030894346 m = 305325030894346)
    (h : Same m x s) : Same m x (State.dieRecover s a1) := by
  unfold State.dieRecover
  repeat' (first | with_reducible assumption | intro _ | with_reducible apply same_ite | with_reducible apply same_when | with_reducible apply same_foldl | with_reducible refine State.dieMod_keeps (sub_of hm rfl) ?_ | with_reducible refine State.emit_keeps (sub_of hm rfl) ?_ | with_reducible refine State.suspClear_keeps (sub_of hm rfl) ?_ | with_reducible refine State.progFail_keeps (sub_of hm rfl) ?_ | with_reducible refine State.eraseFail_keeps (sub_of hm rfl) ?_ | with_reducible refine State.roll_keeps (sub_of hm rfl) ?_ | with_reducible refine State.bgIssue_keeps (sub_of hm rfl) ?_ | with_reducible refine State.readCmd_keeps (sub_of hm rfl) ?_ | split | dsimp only)

theorem State.mgShow_keeps {m : Nat} {x : State} {s : State} {a1 : Nat} (hm : Nat.land 4398046511112 m = 4398046511112)
    (h : Same m x s) : Same m x (State.mgShow s a1) := by
  unfold State.mgShow
  repeat' (first | with_reducible assumption | intro _ | with_reducible apply same_ite | with_reducible apply same_foldl | with_reducible refine State.setBit_keeps (sub_of hm rfl) ?_ ?_ | with_reducible refine State.set_keeps (sub_of hm rfl) ?_ ?_ | with_reducible exact R.MC_STS_ok (sub_of hm rfl) | with_reducible exact R.MG_STS_ok (sub_of hm rfl) | (with_reducible refine regOk_of (c := 15) (sub_of hm rfl) (blk15 ?_ ?_) <;> simp only [R.MG_STS] <;> omega) | split | dsimp only)

theorem State.trainDie_keeps {m : Nat} {x : State} {s : State} {a1 : Nat} {a2 : BitVec 6 × BitVec 5 × BitVec 6} (hm : Nat.land 270336 m = 270336)
    (h : Same m x s) : Same m x (State.trainDie s a1 a2) := by
  unfold State.trainDie
  repeat' (first | with_reducible assumption | intro _ | with_reducible refine State.dieMod_keeps (sub_of hm rfl) ?_ | with_reducible refine State.setMdie_keeps (sub_of hm rfl) ?_ | split | dsimp only)

theorem State.trainDieFail_keeps {m : Nat} {x : State} {s : State} {a1 : Nat} (hm : Nat.land 314447559261966 m = 314447559261966)
    (h : Same m x s) : Same m x (State.trainDieFail s a1) := by
  unfold State.trainDieFail
  repeat' (first | with_reducible assumption | intro _ | with_reducible apply same_ite | with_reducible refine State.setBit_keeps (sub_of hm rfl) ?_ ?_ | with_reducible refine State.dieMod_keeps (sub_of hm rfl) ?_ | with_reducible refine State.loseReads_keeps (sub_of hm rfl) ?_ | with_reducible refine State.retireDie_keeps (sub_of hm rfl) ?_ | with_reducible exact R.MC_STS_ok (sub_of hm rfl) | with_reducible exact R.TE_STS_ok (sub_of hm rfl) | (with_reducible refine regOk_of (c := 17) (sub_of hm rfl) (blk17 ?_ ?_) <;> simp only [R.MC_STS] <;> omega) | split | dsimp only)

theorem State.trainStart_keeps {m : Nat} {x : State} {s : State} {a1 : Nat} (hm : Nat.land 21990299934734 m = 21990299934734)
    (h : Same m x s) : Same m x (State.trainStart s a1) := by
  unfold State.trainStart
  repeat' (first | with_reducible assumption | intro _ | with_reducible apply same_foldl | with_reducible refine State.dieReset_keeps (sub_of hm rfl) ?_ | with_reducible refine State.emit_keeps (sub_of hm rfl) ?_ | with_reducible refine State.mgShow_keeps (sub_of hm rfl) ?_ | with_reducible refine State.setBit_keeps (sub_of hm rfl) ?_ ?_ | with_reducible exact R.MC_STS_ok (sub_of hm rfl) | (with_reducible refine regOk_of (c := 17) (sub_of hm rfl) (blk17 ?_ ?_) <;> simp only [R.MC_STS] <;> omega) | split | dsimp only)

theorem execChannelTraining_keeps {m : Nat} {x : State} {a0 : Fin 40} {a1 : ChanTrain} {s : State} (hm : Nat.land 314447560048398 m = 314447560048398)
    (h : Same m x s) : Ends m x (execChannelTraining a0 a1 s) := by
  unfold execChannelTraining
  repeat' (first | with_reducible assumption | intro _ | with_reducible apply ends_next | with_reducible apply ends_ite | with_reducible apply same_ite | with_reducible apply same_when | with_reducible apply same_foldl | with_reducible refine State.roll_keeps (sub_of hm rfl) ?_ | with_reducible refine State.setBit_keeps (sub_of hm rfl) ?_ ?_ | with_reducible refine State.trainDieFail_keeps (sub_of hm rfl) ?_ | with_reducible refine State.pump_keeps (sub_of hm rfl) ?_ | with_reducible refine State.mgShow_keeps (sub_of hm rfl) ?_ | with_reducible refine State.raise_keeps (sub_of hm rfl) ?_ | with_reducible refine State.trainStart_keeps (sub_of hm rfl) ?_ | with_reducible refine State.set_keeps (sub_of hm rfl) ?_ ?_ | with_reducible refine State.trainDie_keeps (sub_of hm rfl) ?_ | with_reducible refine State.emit_keeps (sub_of hm rfl) ?_ | fail_if_no_progress with_reducible refine upd_mcTry (sub_of hm rfl) ?_ | with_reducible exact R.MC_CTL_ok (sub_of hm rfl) | with_reducible exact R.MC_DIES_ok (sub_of hm rfl) | with_reducible exact R.MC_STS_ok (sub_of hm rfl) | (with_reducible refine regOk_of (c := 17) (sub_of hm rfl) (blk17 ?_ ?_) <;> simp only [R.MC_CTL, R.MC_DIES, R.MC_STS] <;> omega) | split | dsimp only)

theorem execReadyRoundReport_keeps {m : Nat} {x : State} {a0 : Fin 320} {a1 : Fin 4} {a2 : Bool} {a3 : Bool} {s : State} (hm : Nat.land 67108874 m = 67108874)
    (h : Same m x s) : Ends m x (execReadyRoundReport a0 a1 a2 a3 s) := by
  unfold execReadyRoundReport
  repeat' (first | with_reducible assumption | intro _ | with_reducible apply ends_next | with_reducible apply ends_ite | with_reducible apply same_ite | with_reducible apply same_when | with_reducible apply same_foldl | with_reducible refine State.emit_keeps (sub_of hm rfl) ?_ | split | dsimp only)

theorem execReadTimeout_keeps {m : Nat} {x : State} {a0 : Nat} {a1 : Bool} {a2 : Bool} {s : State} (hm : Nat.land 314447559261966 m = 314447559261966)
    (h : Same m x s) : Ends m x (execReadTimeout a0 a1 a2 s) := by
  unfold execReadTimeout
  repeat' (first | with_reducible assumption | intro _ | with_reducible apply ends_next | with_reducible apply ends_ite | with_reducible apply same_ite | with_reducible apply same_dite | with_reducible apply same_when | with_reducible refine State.roll_keeps (sub_of hm rfl) ?_ | with_reducible refine State.emit_keeps (sub_of hm rfl) ?_ | with_reducible refine State.bump_keeps (sub_of hm rfl) ?_ ?_ | with_reducible refine State.dieMod_keeps (sub_of hm rfl) ?_ | with_reducible refine State.dieFail_keeps (sub_of hm rfl) ?_ | with_reducible refine State.pump_keeps (sub_of hm rfl) ?_ | with_reducible refine State.dieRecover_keeps (sub_of hm rfl) ?_ | with_reducible refine State.readCmd_keeps (sub_of hm rfl) ?_ | with_reducible exact R.MC_RD_TO_CNT_ok (sub_of hm rfl) | with_reducible exact R.MG_CTL_ok (sub_of hm rfl) | (with_reducible refine regOk_of (c := 17) (sub_of hm rfl) (blk17 ?_ ?_) <;> simp only [R.MC_RD_TO_CNT] <;> omega) | split | dsimp only)

theorem execTrackInterval_keeps {m : Nat} {x : State} {a0 : Fin 320} {a1 : Bool} {a2 : Bool} {s : State} (hm : Nat.land 67117066 m = 67117066)
    (h : Same m x s) : Ends m x (execTrackInterval a0 a1 a2 s) := by
  unfold execTrackInterval
  repeat' (first | with_reducible assumption | intro _ | with_reducible apply ends_next | with_reducible apply ends_ite | with_reducible apply same_ite | with_reducible refine State.dieMod_keeps (sub_of hm rfl) ?_ | with_reducible refine State.emit_keeps (sub_of hm rfl) ?_ | split | dsimp only)

theorem execSuspendWarn_keeps {m : Nat} {x : State} {a0 : Fin 320} {s : State} (hm : Nat.land 67117576 m = 67117576)
    (h : Same m x s) : Ends m x (execSuspendWarn a0 s) := by
  unfold execSuspendWarn
  repeat' (first | with_reducible assumption | intro _ | with_reducible apply ends_next | with_reducible apply ends_ite | with_reducible apply same_ite | with_reducible refine State.roll_keeps (sub_of hm rfl) ?_ | with_reducible refine State.dieMod_keeps (sub_of hm rfl) ?_ | split | dsimp only)

theorem execMcRetrain_keeps {m : Nat} {x : State} {a0 : Fin 40} {a1 : Path} {s : State} (hm : Nat.land 21990300459022 m = 21990300459022)
    (h : Same m x s) : Ends m x (execMcRetrain a0 a1 s) := by
  unfold execMcRetrain
  repeat' (first | with_reducible assumption | intro _ | with_reducible apply ends_next | with_reducible apply ends_ite | with_reducible apply same_ite | with_reducible refine State.regAcc_keeps (sub_of hm rfl) ?_ | with_reducible refine State.trainStart_keeps (sub_of hm rfl) ?_ | with_reducible refine State.setBit_keeps (sub_of hm rfl) ?_ ?_ | fail_if_no_progress with_reducible refine upd_mcTry (sub_of hm rfl) ?_ | with_reducible exact R.MC_CTL_ok (sub_of hm rfl) | with_reducible exact R.MC_DIES_ok (sub_of hm rfl) | (with_reducible refine regOk_of (c := 17) (sub_of hm rfl) (blk17 ?_ ?_) <;> simp only [R.MC_CTL, R.MC_DIES] <;> omega) | split | dsimp only)

theorem execMcPatStart_keeps {m : Nat} {x : State} {a0 : Fin 40} {a1 : Path} {a2 : Word} {s : State} (hm : Nat.land 17592253415434 m = 17592253415434)
    (h : Same m x s) : Ends m x (execMcPatStart a0 a1 a2 s) := by
  unfold execMcPatStart
  repeat' (first | with_reducible exact list_ok_nil | with_reducible refine list_ok_cons ?_ ?_ | with_reducible refine list_ok_append ?_ ?_ | with_reducible exact pc_ok | with_reducible refine range_ok ?_ | with_reducible assumption | intro _ | with_reducible apply ends_next | with_reducible apply ends_ite | with_reducible apply same_ite | with_reducible refine State.regAcc_keeps (sub_of hm rfl) ?_ | with_reducible refine State.wrN_keeps (sub_of hm rfl) ?_ ?_ | with_reducible refine State.setBit_keeps (sub_of hm rfl) ?_ ?_ | with_reducible refine State.zero_keeps (sub_of hm rfl) ?_ ?_ | with_reducible refine State.emit_keeps (sub_of hm rfl) ?_ | with_reducible refine State.setMdie_keeps (sub_of hm rfl) ?_ | with_reducible exact R.MC_CTL_ok (sub_of hm rfl) | with_reducible exact R.MC_PAT_CTL_ok (sub_of hm rfl) | with_reducible exact R.MC_PAT_ERR_ok (sub_of hm rfl) | with_reducible exact R.MC_PAT_LANES_ok (sub_of hm rfl) | with_reducible exact R.MC_STS_ok (sub_of hm rfl) | (with_reducible refine regOk_of (c := 17) (sub_of hm rfl) (blk17 ?_ ?_) <;> simp only [R.MC_CTL, R.MC_PAT_CTL, R.MC_PAT_ERR, R.MC_PAT_LANES, R.MC_STS] <;> omega) | split | dsimp only)

theorem execMcPatStop_keeps {m : Nat} {x : State} {a0 : Fin 40} {a1 : Path} {a2 : Word} {a3 : BitVec 16} {s : State} (hm : Nat.land 17592253415434 m = 17592253415434)
    (h : Same m x s) : Ends m x (execMcPatStop a0 a1 a2 a3 s) := by
  unfold execMcPatStop
  repeat' (first | with_reducible assumption | intro _ | with_reducible apply ends_next | with_reducible apply ends_ite | with_reducible apply same_ite | with_reducible refine State.regAcc_keeps (sub_of hm rfl) ?_ | with_reducible refine State.setMdie_keeps (sub_of hm rfl) ?_ | with_reducible refine State.wrN_keeps (sub_of hm rfl) ?_ ?_ | with_reducible refine State.wr_keeps (sub_of hm rfl) ?_ ?_ | with_reducible refine State.emit_keeps (sub_of hm rfl) ?_ | with_reducible refine State.setBit_keeps (sub_of hm rfl) ?_ ?_ | with_reducible exact R.MC_CTL_ok (sub_of hm rfl) | with_reducible exact R.MC_PAT_CTL_ok (sub_of hm rfl) | with_reducible exact R.MC_PAT_ERR_ok (sub_of hm rfl) | with_reducible exact R.MC_PAT_LANES_ok (sub_of hm rfl) | with_reducible exact R.MC_STS_ok (sub_of hm rfl) | (with_reducible refine regOk_of (c := 17) (sub_of hm rfl) (blk17 ?_ ?_) <;> simp only [R.MC_CTL, R.MC_PAT_CTL, R.MC_PAT_ERR, R.MC_PAT_LANES, R.MC_STS] <;> omega) | split | dsimp only)

theorem execMcCntClr_keeps {m : Nat} {x : State} {a0 : Fin 40} {a1 : Path} {a2 : Word} {s : State} (hm : Nat.land 17592253153288 m = 17592253153288)
    (h : Same m x s) : Ends m x (execMcCntClr a0 a1 a2 s) := by
  unfold execMcCntClr
  repeat' (first | with_reducible exact list_ok_nil | with_reducible refine list_ok_cons ?_ ?_ | with_reducible refine list_ok_append ?_ ?_ | with_reducible exact pc_ok | with_reducible refine range_ok ?_ | with_reducible assumption | intro _ | with_reducible apply ends_next | with_reducible apply same_when | with_reducible refine State.regAcc_keeps (sub_of hm rfl) ?_ | with_reducible refine State.zero_keeps (sub_of hm rfl) ?_ ?_ | with_reducible exact R.MC_ERR_CNT_ok (sub_of hm rfl) | with_reducible exact R.MC_RD_H_CNT_ok (sub_of hm rfl) | with_reducible exact R.MC_RD_TO_CNT_ok (sub_of hm rfl) | (with_reducible refine regOk_of (c := 17) (sub_of hm rfl) (blk17 ?_ ?_) <;> simp only [R.MC_ERR_CNT, R.MC_RD_H_CNT, R.MC_RD_TO_CNT] <;> omega) | split | dsimp only)

end Sys2Proof.Machine
end

