-- ==== Sys2Proof/Laws/FrameFaultOps.lean ====
section
/-! SUPPORT. The frame of every operation of Machine/FaultOps.lean, as a mask of the kinds of state that it may change. -/

set_option autoImplicit false
set_option linter.unusedTactic false
set_option linter.unreachableTactic false
set_option linter.unnecessarySeqFocus false
set_option linter.unusedSimpArgs false
set_option linter.unusedVariables false

namespace Sys2Proof.Machine

theorem State.escRecord_keeps {m : Nat} {x : State} {s : State} {a1 : Nat} {a2 : Nat} (hm : Nat.land 67109384 m = 67109384)
    (h : Same m x s) : Same m x (State.escRecord s a1 a2) := by
  unfold State.escRecord
  repeat' (first | with_reducible assumption | intro _ | with_reducible refine State.rbEvent_keeps (sub_of hm rfl) ?_ | with_reducible refine State.bump_keeps (sub_of hm rfl) ?_ ?_ | with_reducible exact R.FC_ESC_CNT_ok | split | dsimp only)

theorem State.leaseKeep_keeps {m : Nat} {x : State} {s : State} {a1 : Nat} (hm : Nat.land 1024 m = 1024)
    (h : Same m x s) : Same m x (State.leaseKeep s a1) := by
  unfold State.leaseKeep
  repeat' (first | with_reducible assumption | intro _ | fail_if_no_progress with_reducible refine upd_fc (sub_of hm rfl) ?_ | split | dsimp only)

theorem State.walkAbandon_keeps {m : Nat} {x : State} {s : State} {a1 : WalkOp} (hm : Nat.land 1133972066826 m = 1133972066826)
    (h : Same m x s) : Same m x (State.walkAbandon s a1) := by
  unfold State.walkAbandon
  repeat' (first | with_reducible assumption | intro _ | with_reducible apply same_when | with_reducible refine State.bgDone_keeps (sub_of hm rfl) ?_ | with_reducible refine State.roll_keeps (sub_of hm rfl) ?_ | with_reducible refine State.set_keeps (sub_of hm rfl) ?_ ?_ | with_reducible refine State.setBit_keeps (sub_of hm rfl) ?_ ?_ | fail_if_no_progress with_reducible refine upd_lc (sub_of hm rfl) ?_ | with_reducible exact R.LC_CTL_ok (sub_of hm rfl) | with_reducible exact R.LC_RANGE_CTL_ok (sub_of hm rfl) | with_reducible exact R.LC_RANGE_SKIPPED_ok (sub_of hm rfl) | with_reducible exact R.LC_RANGE_STS_ok (sub_of hm rfl) | (with_reducible refine regOk_of (c := 8) (sub_of hm rfl) (blk8 ?_ ?_) <;> simp only [R.LC_CTL, R.LC_RANGE_CTL, R.LC_RANGE_SKIPPED, R.LC_RANGE_STS] <;> omega) | split | dsimp only)

theorem State.siroccoAbandon_keeps {m : Nat} {x : State} {s : State} (hm : Nat.land 1133973115402 m = 1133973115402)
    (h : Same m x s) : Same m x (State.siroccoAbandon s) := by
  unfold State.siroccoAbandon
  repeat' (first | with_reducible assumption | intro _ | with_reducible apply same_foldl | with_reducible refine State.walkAbandon_keeps (sub_of hm rfl) ?_ | fail_if_no_progress with_reducible refine upd_lc_sir (sub_of hm rfl) ?_ | split | dsimp only)

theorem State.tutorAbandon_keeps {m : Nat} {x : State} {s : State} {a1 : Nat} (hm : Nat.land 8192 m = 8192)
    (h : Same m x s) : Same m x (State.tutorAbandon s a1) := by
  unfold State.tutorAbandon
  repeat' (first | with_reducible assumption | intro _ | with_reducible apply same_foldl | with_reducible refine State.progDel_keeps (sub_of hm rfl) ?_ | fail_if_no_progress with_reducible refine upd_te (sub_of hm rfl) ?_ | split | dsimp only)

theorem State.fenceEffect_keeps {m : Nat} {x : State} {s : State} {a1 : Nat} (hm : Nat.land 560738163883790 m = 560738163883790)
    (h : Same m x s) : Same m x (State.fenceEffect s a1) := by
  unfold State.fenceEffect
  repeat' (first | with_reducible assumption | intro _ | with_reducible apply same_ite | with_reducible apply same_foldl | with_reducible refine State.siroccoAbandon_keeps (sub_of hm rfl) ?_ | with_reducible refine State.linkLoss_keeps (sub_of hm rfl) ?_ | with_reducible refine State.drawn_keeps (sub_of hm rfl) ?_ | with_reducible refine State.setBit_keeps (sub_of hm rfl) ?_ ?_ | with_reducible refine State.pump_keeps (sub_of hm rfl) ?_ | with_reducible refine State.mgShow_keeps (sub_of hm rfl) ?_ | with_reducible refine State.dieFail_keeps (sub_of hm rfl) ?_ | with_reducible refine State.tutorAbandon_keeps (sub_of hm rfl) ?_ | with_reducible refine State.set_keeps (sub_of hm rfl) ?_ ?_ | with_reducible refine State.mqPtrReset_keeps (sub_of hm rfl) ?_ | with_reducible refine State.testStop_keeps (sub_of hm rfl) ?_ | with_reducible refine State.stripeNoParity_keeps (sub_of hm rfl) ?_ | with_reducible exact R.CORE_STS_ok (sub_of hm rfl) | with_reducible exact R.HP_STS_ok (sub_of hm rfl) | with_reducible exact R.MC_DIES_ok (sub_of hm rfl) | with_reducible exact R.MC_STS_ok (sub_of hm rfl) | (with_reducible refine regOk_of (c := 13) (sub_of hm rfl) (blk13 ?_ ?_) <;> simp only [R.HP_STS] <;> omega) | (with_reducible refine regOk_of (c := 17) (sub_of hm rfl) (blk17 ?_ ?_) <;> simp only [R.MC_DIES, R.MC_STS] <;> omega) | (with_reducible refine regOk_of (c := 18) (sub_of hm rfl) (blk18 ?_ ?_) <;> simp only [R.CORE_STS] <;> omega) | split | dsimp only)

theorem State.fenceSrc_keeps {m : Nat} {x : State} {s : State} {a1 : Nat} (hm : Nat.land 560738163883790 m = 560738163883790)
    (h : Same m x s) : Same m x (State.fenceSrc s a1) := by
  unfold State.fenceSrc
  repeat' (first | with_reducible assumption | intro _ | with_reducible apply same_ite | with_reducible refine State.fcMod_keeps (sub_of hm rfl) ?_ | with_reducible refine State.leaseKeep_keeps (sub_of hm rfl) ?_ | with_reducible refine State.fenceEffect_keeps (sub_of hm rfl) ?_ | split | dsimp only)

theorem State.leadShow_keeps {m : Nat} {x : State} {s : State} (hm : Nat.land 35184372088840 m = 35184372088840)
    (h : Same m x s) : Same m x (State.leadShow s) := by
  unfold State.leadShow
  repeat' (first | with_reducible assumption | intro _ | with_reducible apply same_foldl | with_reducible refine State.set_keeps (sub_of hm rfl) ?_ ?_ | with_reducible refine State.setBit_keeps (sub_of hm rfl) ?_ ?_ | with_reducible exact R.CORE_STS_ok (sub_of hm rfl) | with_reducible exact R.FC_STS_ok | (with_reducible refine regOk_of (c := 18) (sub_of hm rfl) (blk18 ?_ ?_) <;> simp only [R.CORE_STS] <;> omega) | split | dsimp only)

theorem State.proctorOut_keeps {m : Nat} {x : State} {s : State} {a1 : Nat} (hm : Nat.land 562949953421134 m = 562949953421134)
    (h : Same m x s) : Same m x (State.proctorOut s a1) := by
  unfold State.proctorOut
  repeat' (first | with_reducible assumption | intro _ | with_reducible apply same_ite | with_reducible refine State.setBit_keeps (sub_of hm rfl) ?_ ?_ | with_reducible refine State.leaseKeep_keeps (sub_of hm rfl) ?_ | with_reducible refine State.leadShow_keeps (sub_of hm rfl) ?_ | with_reducible refine State.set_keeps (sub_of hm rfl) ?_ ?_ | with_reducible refine State.contain_keeps (sub_of hm rfl) ?_ | with_reducible exact R.CORE_STS_ok (sub_of hm rfl) | with_reducible exact R.FC_STS_ok | (with_reducible refine regOk_of (c := 18) (sub_of hm rfl) (blk18 ?_ ?_) <;> simp only [R.CORE_STS] <;> omega) | exact regOk_all (sub_of hm rfl) _ | split | dsimp only)

theorem State.escalate_keeps {m : Nat} {x : State} {s : State} {a1 : Nat} (hm : Nat.land 562949953421134 m = 562949953421134)
    (h : Same m x s) : Same m x (State.escalate s a1) := by
  unfold State.escalate
  repeat' (first | with_reducible assumption | intro _ | with_reducible apply same_ite | with_reducible refine State.fcMod_keeps (sub_of hm rfl) ?_ | with_reducible refine State.escRecord_keeps (sub_of hm rfl) ?_ | with_reducible refine State.contain_keeps (sub_of hm rfl) ?_ | with_reducible refine State.setBit_keeps (sub_of hm rfl) ?_ ?_ | with_reducible refine State.fenceSrc_keeps (sub_of hm rfl) ?_ | with_reducible refine State.proctorOut_keeps (sub_of hm rfl) ?_ | with_reducible exact R.FC_CTL_ok | with_reducible exact R.FC_STS_ok | exact regOk_all (sub_of hm rfl) _ | split | dsimp only)

theorem State.leaseFree_keeps {m : Nat} {x : State} {s : State} {a1 : LeaseOf} (hm : Nat.land 1099612323850 m = 1099612323850)
    (h : Same m x s) : Same m x (State.leaseFree s a1) := by
  unfold State.leaseFree
  repeat' (first | with_reducible assumption | intro _ | with_reducible apply same_ite | with_reducible refine State.bgDone_keeps (sub_of hm rfl) ?_ | fail_if_no_progress with_reducible refine upd_hp (sub_of hm rfl) ?_ | split | dsimp only)

theorem State.revokeEnd_keeps {m : Nat} {x : State} {s : State} {a1 : Nat} {a2 : List Bool} (hm : Nat.land 314447559261966 m = 314447559261966)
    (h : Same m x s) : Same m x (State.revokeEnd s a1 a2) := by
  unfold State.revokeEnd
  repeat' (first | with_reducible assumption | intro _ | with_reducible apply same_ite | with_reducible apply same_when | with_reducible apply same_foldl | with_reducible refine State.leaseFree_keeps (sub_of hm rfl) ?_ | with_reducible refine State.raise_keeps (sub_of hm rfl) ?_ | with_reducible refine State.portLost_keeps (sub_of hm rfl) ?_ | with_reducible refine State.addCnt_keeps (sub_of hm rfl) ?_ ?_ | with_reducible refine State.wrN_keeps (sub_of hm rfl) ?_ ?_ | with_reducible refine State.serPump_keeps (sub_of hm rfl) ?_ | fail_if_no_progress with_reducible refine upd_fc (sub_of hm rfl) ?_ | with_reducible exact R.FC_REVOKE_CNT_ok | with_reducible exact R.FC_REV_STS_ok | split | dsimp only)

theorem State.revokeStart_keeps {m : Nat} {x : State} {s : State} {a1 : Nat} (hm : Nat.land 1032 m = 1032)
    (h : Same m x s) : Same m x (State.revokeStart s a1) := by
  unfold State.revokeStart
  repeat' (first | with_reducible assumption | intro _ | with_reducible apply same_ite | with_reducible refine State.fcMod_keeps (sub_of hm rfl) ?_ | with_reducible refine State.wrN_keeps (sub_of hm rfl) ?_ ?_ | fail_if_no_progress with_reducible refine upd_fc (sub_of hm rfl) ?_ | with_reducible exact R.FC_REV_STS_ok | split | dsimp only)

theorem State.wireFault_keeps {m : Nat} {x : State} {s : State} {a1 : Nat} (hm : Nat.land 83887626 m = 83887626)
    (h : Same m x s) : Same m x (State.wireFault s a1) := by
  unfold State.wireFault
  repeat' (first | with_reducible assumption | intro _ | with_reducible apply same_ite | with_reducible refine State.bump_keeps (sub_of hm rfl) ?_ ?_ | with_reducible refine State.fcMod_keeps (sub_of hm rfl) ?_ | with_reducible refine State.fltTake_keeps (sub_of hm rfl) ?_ | with_reducible refine State.fltFirstTake_keeps (sub_of hm rfl) ?_ | with_reducible refine State.fltSts_keeps (sub_of hm rfl) ?_ | with_reducible exact R.FC_WIRE_CNT_ok | split | dsimp only)

theorem State.wirePoll_keeps {m : Nat} {x : State} {s : State} {a1 : Nat} (hm : Nat.land 83887626 m = 83887626)
    (h : Same m x s) : Same m x (State.wirePoll s a1) := by
  unfold State.wirePoll
  repeat' (first | with_reducible assumption | intro _ | with_reducible refine State.raiseWindow_keeps (sub_of hm rfl) ?_ | with_reducible refine State.fcMod_keeps (sub_of hm rfl) ?_ | split | dsimp only)

end Sys2Proof.Machine
end

