-- ==== Sys2Proof/Laws/FrameArch.lean ====
section
/-! SUPPORT. The frame of every operation of Machine/Arch.lean, as a mask of the kinds of state that it may change. -/

set_option autoImplicit false
set_option linter.unusedTactic false
set_option linter.unreachableTactic false
set_option linter.unnecessarySeqFocus false
set_option linter.unusedSimpArgs false
set_option linter.unusedVariables false

namespace Sys2Proof.Machine

theorem State.setVcore_keeps {m : Nat} {x : State} {s : State} {a1 : Nat} (hm : Nat.land 1145045002 m = 1145045002)
    (h : Same m x s) : Same m x (State.setVcore s a1) := by
  unfold State.setVcore
  repeat' (first | with_reducible assumption | intro _ | with_reducible refine State.vcoreWrite_keeps (sub_of hm rfl) ?_ | fail_if_no_progress with_reducible refine upd_arch (sub_of hm rfl) ?_ | split | dsimp only)

theorem execSpeedWindowEnd_keeps {m : Nat} {x : State} {a0 : BitVec 88} {s : State} (hm : Nat.land 8796181169678 m = 8796181169678) (h : Same m x s) :
    Ends m x (execSpeedWindowEnd a0 s) := by
  have ho : RegOk m (R.RT_LVL_WIN_CNT0 + 4 * s.get F.RT_STS.APPLIED_LVL) := by
    have hg : s.get F.RT_STS.APPLIED_LVL < 4 := Nat.mod_lt _ (by decide)
    generalize s.get F.RT_STS.APPLIED_LVL = k at hg
    exact regOk_of (c := 16) (sub_of hm rfl) (blk16 (by unfold R.RT_LVL_WIN_CNT0; omega) (by unfold R.RT_LVL_WIN_CNT0; omega))
  unfold execSpeedWindowEnd
  repeat' (first | with_reducible assumption | intro _ | with_reducible apply ends_next | with_reducible apply ends_ite | with_reducible apply same_ite | with_reducible apply same_when | with_reducible refine State.bump_keeps (sub_of hm rfl) ?_ ?_ | with_reducible refine State.set_keeps (sub_of hm rfl) ?_ ?_ | with_reducible refine State.setBit_keeps (sub_of hm rfl) ?_ ?_ | with_reducible refine State.applyLevel_keeps (sub_of hm rfl) ?_ | with_reducible refine State.raise_keeps (sub_of hm rfl) ?_ | fail_if_no_progress with_reducible refine upd_arch (sub_of hm rfl) ?_ | with_reducible exact R.RT_LVL_WIN_CNT0_ok (sub_of hm rfl) | with_reducible exact R.RT_SPD_ok (sub_of hm rfl) | with_reducible exact R.RT_STS_ok (sub_of hm rfl) | (with_reducible refine regOk_of (c := 16) (sub_of hm rfl) (blk16 ?_ ?_) <;> simp only [R.RT_LVL_WIN_CNT0, R.RT_SPD, R.RT_STS] <;> omega) | split | dsimp only)

theorem execGuardLevelReturn_keeps {m : Nat} {x : State} {s : State} (hm : Nat.land 8796164390922 m = 8796164390922)
    (h : Same m x s) : Ends m x (execGuardLevelReturn s) := by
  unfold execGuardLevelReturn
  repeat' (first | with_reducible assumption | intro _ | with_reducible apply ends_next | with_reducible apply ends_ite | with_reducible apply same_ite | with_reducible refine State.applyLevel_keeps (sub_of hm rfl) ?_ | with_reducible refine State.set_keeps (sub_of hm rfl) ?_ ?_ | fail_if_no_progress with_reducible refine upd_arch (sub_of hm rfl) ?_ | with_reducible exact R.RT_STS_ok (sub_of hm rfl) | (with_reducible refine regOk_of (c := 16) (sub_of hm rfl) (blk16 ?_ ?_) <;> simp only [R.RT_STS] <;> omega) | split | dsimp only)

theorem execSpeedMonitorOdd_keeps {m : Nat} {x : State} {a0 : Fin 8} {s : State} (hm : Nat.land 2231371278 m = 2231371278)
    (h : Same m x s) : Ends m x (execSpeedMonitorOdd a0 s) := by
  unfold execSpeedMonitorOdd
  repeat' (first | with_reducible assumption | intro _ | with_reducible apply ends_next | with_reducible apply ends_ite | with_reducible apply same_ite | with_reducible refine State.raise_keeps (sub_of hm rfl) ?_ | with_reducible refine State.setBit_keeps (sub_of hm rfl) ?_ ?_ | with_reducible exact R.HK_STS_ok (sub_of hm rfl) | (with_reducible refine regOk_of (c := 4) (sub_of hm rfl) (blk4 ?_ ?_) <;> simp only [R.HK_STS] <;> omega) | split | dsimp only)

theorem execGovernorEvaluation_keeps {m : Nat} {x : State} {s : State} (hm : Nat.land 1145045002 m = 1145045002)
    (h : Same m x s) : Ends m x (execGovernorEvaluation s) := by
  unfold execGovernorEvaluation
  repeat' (first | with_reducible assumption | intro _ | with_reducible apply ends_next | with_reducible apply ends_ite | with_reducible apply same_ite | with_reducible refine State.setVcore_keeps (sub_of hm rfl) ?_ | fail_if_no_progress with_reducible refine upd_arch (sub_of hm rfl) ?_ | split | dsimp only)

theorem execAvsbusWriteDone_keeps {m : Nat} {x : State} {a0 : Bool} {s : State} (hm : Nat.land 1161823758 m = 1161823758)
    (h : Same m x s) : Ends m x (execAvsbusWriteDone a0 s) := by
  unfold execAvsbusWriteDone
  repeat' (first | with_reducible assumption | intro _ | with_reducible apply ends_next | with_reducible apply ends_ite | with_reducible apply same_ite | with_reducible refine State.emit_keeps (sub_of hm rfl) ?_ | with_reducible refine State.raise_keeps (sub_of hm rfl) ?_ | with_reducible refine State.set_keeps (sub_of hm rfl) ?_ ?_ | fail_if_no_progress with_reducible refine upd_arch (sub_of hm rfl) ?_ | with_reducible exact R.PSQ_VCORE_ok (sub_of hm rfl) | (with_reducible refine regOk_of (c := 3) (sub_of hm rfl) (blk3 ?_ ?_) <;> simp only [R.PSQ_VCORE] <;> omega) | split | dsimp only)

theorem execTickCopyCompare_keeps {m : Nat} {x : State} {a0 : BitVec 110} {s : State} (hm : Nat.land 83887630 m = 83887630)
    (h : Same m x s) : Ends m x (execTickCopyCompare a0 s) := by
  unfold execTickCopyCompare
  repeat' (first | with_reducible assumption | intro _ | with_reducible apply ends_next | with_reducible apply same_foldl | with_reducible refine State.raise_keeps (sub_of hm rfl) ?_ | split | dsimp only)

theorem execRefclkAbsent_keeps {m : Nat} {x : State} {s : State} (hm : Nat.land 1649351411246 m = 1649351411246)
    (h : Same m x s) : Ends m x (execRefclkAbsent s) := by
  unfold execRefclkAbsent
  repeat' (first | with_reducible assumption | intro _ | with_reducible apply ends_next | with_reducible apply ends_ite | with_reducible apply same_ite | with_reducible apply same_when | with_reducible apply same_foldl | with_reducible refine State.raise_keeps (sub_of hm rfl) ?_ | with_reducible refine State.hostLinkDown_keeps (sub_of hm rfl) ?_ | with_reducible refine State.linkLoss_keeps (sub_of hm rfl) ?_ | fail_if_no_progress with_reducible refine upd_refclk (sub_of hm rfl) ?_ | split | dsimp only)

theorem execRefclkReturn_keeps {m : Nat} {x : State} {s : State} (hm : Nat.land 32 m = 32)
    (h : Same m x s) : Ends m x (execRefclkReturn s) := by
  unfold execRefclkReturn
  repeat' (first | with_reducible assumption | intro _ | with_reducible apply ends_next | fail_if_no_progress with_reducible refine upd_refclk (sub_of hm rfl) ?_ | split | dsimp only)

end Sys2Proof.Machine
end

