-- ==== Sys2Proof/Laws/FrameDram.lean ====
section
/-! SUPPORT. The frame of every operation of Machine/Dram.lean, as a mask of the kinds of state that it may change. -/

set_option autoImplicit false
set_option linter.unusedTactic false
set_option linter.unreachableTactic false
set_option linter.unnecessarySeqFocus false
set_option linter.unusedSimpArgs false
set_option linter.unusedVariables false

namespace Sys2Proof.Machine

theorem State.seqShow_keeps {m : Nat} {x : State} {s : State} (hm : Nat.land 68719484936 m = 68719484936)
    (h : Same m x s) : Same m x (State.seqShow s) := by
  unfold State.seqShow
  repeat' (first | with_reducible assumption | intro _ | with_reducible apply same_ite | with_reducible refine State.setBit_keeps (sub_of hm rfl) ?_ ?_ | fail_if_no_progress with_reducible refine upd_te (sub_of hm rfl) ?_ | with_reducible exact R.TE_STS_ok (sub_of hm rfl) | (with_reducible refine regOk_of (c := 9) (sub_of hm rfl) (blk9 ?_ ?_) <;> simp only [R.TE_STS] <;> omega) | split | dsimp only)

theorem State.seqResume_keeps {m : Nat} {x : State} {s : State} (hm : Nat.land 73081561354 m = 73081561354)
    (h : Same m x s) : Same m x (State.seqResume s) := by
  unfold State.seqResume
  repeat' (first | with_reducible assumption | intro _ | with_reducible refine State.wrN_keeps (sub_of hm rfl) ?_ ?_ | with_reducible refine State.pstAdd_keeps (sub_of hm rfl) ?_ | with_reducible refine State.seqShow_keeps (sub_of hm rfl) ?_ | fail_if_no_progress with_reducible refine upd_te (sub_of hm rfl) ?_ | with_reducible exact R.TE_SEQ_HI_ok (sub_of hm rfl) | with_reducible exact R.TE_SEQ_HW_HI_ok (sub_of hm rfl) | with_reducible exact R.TE_SEQ_HW_LO_ok (sub_of hm rfl) | with_reducible exact R.TE_SEQ_LO_ok (sub_of hm rfl) | (with_reducible refine regOk_of (c := 9) (sub_of hm rfl) (blk9 ?_ ?_) <;> simp only [R.TE_SEQ_HI, R.TE_SEQ_HW_HI, R.TE_SEQ_HW_LO, R.TE_SEQ_LO] <;> omega) | split | dsimp only)

theorem State.dramPhase_keeps {m : Nat} {x : State} {s : State} (hm : Nat.land 1310317388042 m = 1310317388042)
    (h : Same m x s) : Same m x (State.dramPhase s) := by
  unfold State.dramPhase
  repeat' (first | with_reducible assumption | intro _ | with_reducible apply same_ite | with_reducible refine State.wrN_keeps (sub_of hm rfl) ?_ ?_ | with_reducible refine State.set_keeps (sub_of hm rfl) ?_ ?_ | with_reducible refine State.seqResume_keeps (sub_of hm rfl) ?_ | with_reducible refine State.setBit_keeps (sub_of hm rfl) ?_ ?_ | with_reducible refine State.tsStatus_keeps (sub_of hm rfl) ?_ | with_reducible refine State.latchedLoss_keeps (sub_of hm rfl) ?_ | fail_if_no_progress with_reducible refine upd_boot (sub_of hm rfl) ?_ | with_reducible exact R.BOOT_STS_ok (sub_of hm rfl) | with_reducible exact R.DC_STS_ok (sub_of hm rfl) | with_reducible exact R.TE_STS_ok (sub_of hm rfl) | with_reducible exact R.TS_SLOT_CNT_ok (sub_of hm rfl) | (with_reducible refine regOk_of (c := 1) (sub_of hm rfl) (blk1 ?_ ?_) <;> simp only [R.BOOT_STS] <;> omega) | (with_reducible refine regOk_of (c := 9) (sub_of hm rfl) (blk9 ?_ ?_) <;> simp only [R.TE_STS] <;> omega) | (with_reducible refine regOk_of (c := 10) (sub_of hm rfl) (blk10 ?_ ?_) <;> simp only [R.TS_SLOT_CNT] <;> omega) | split | dsimp only)

theorem State.progRestart_keeps {m : Nat} {x : State} {s : State} {a1 : Nat} (hm : Nat.land 19451974116110 m = 19451974116110)
    (h : Same m x s) : Same m x (State.progRestart s a1) := by
  unfold State.progRestart
  repeat' (first | with_reducible assumption | intro _ | with_reducible apply same_foldl | with_reducible refine State.progMod_keeps (sub_of hm rfl) ?_ | with_reducible refine State.xtsUse_keeps (sub_of hm rfl) ?_ | with_reducible refine State.progGathered_keeps (sub_of hm rfl) ?_ | with_reducible refine State.bump_keeps (sub_of hm rfl) ?_ ?_ | with_reducible refine State.issueRead_keeps (sub_of hm rfl) ?_ | with_reducible refine State.progNumber_keeps (sub_of hm rfl) ?_ | fail_if_no_progress with_reducible refine upd_ce (sub_of hm rfl) ?_ | fail_if_no_progress with_reducible refine upd_te (sub_of hm rfl) ?_ | with_reducible exact R.TS_FILL_RD_CNT_ok (sub_of hm rfl) | (with_reducible refine regOk_of (c := 10) (sub_of hm rfl) (blk10 ?_ ?_) <;> simp only [R.TS_FILL_RD_CNT] <;> omega) | split | dsimp only)

theorem State.scrubLost_keeps {m : Nat} {x : State} {s : State} {a1 : DramArea} (hm : Nat.land 23850021675790 m = 23850021675790)
    (h : Same m x s) : Same m x (State.scrubLost s a1) := by
  unfold State.scrubLost
  repeat' (first | with_reducible assumption | intro _ | with_reducible apply same_ite | with_reducible apply same_foldl | with_reducible refine State.repReq_keeps (sub_of hm rfl) ?_ | with_reducible refine State.lineEvents_keeps (sub_of hm rfl) ?_ | with_reducible refine State.poisonLine_keeps (sub_of hm rfl) ?_ | with_reducible refine State.slotMod_keeps (sub_of hm rfl) ?_ | with_reducible refine State.setBit_keeps (sub_of hm rfl) ?_ ?_ | with_reducible refine State.bmapSet_keeps (sub_of hm rfl) ?_ | with_reducible refine State.progRestart_keeps (sub_of hm rfl) ?_ | with_reducible refine State.ckptAll_keeps (sub_of hm rfl) ?_ | with_reducible refine State.refChanged_keeps (sub_of hm rfl) ?_ | fail_if_no_progress with_reducible refine upd_sir (sub_of hm rfl) ?_ | fail_if_no_progress with_reducible refine upd_te (sub_of hm rfl) ?_ | fail_if_no_progress with_reducible refine upd_tw (sub_of hm rfl) ?_ | with_reducible exact R.CAR_STS_ok (sub_of hm rfl) | with_reducible exact R.TE_STS_ok (sub_of hm rfl) | (with_reducible refine regOk_of (c := 9) (sub_of hm rfl) (blk9 ?_ ?_) <;> simp only [R.TE_STS] <;> omega) | (with_reducible refine regOk_of (c := 12) (sub_of hm rfl) (blk12 ?_ ?_) <;> simp only [R.CAR_STS] <;> omega) | split | dsimp only)

theorem State.scrubPassEnd_keeps {m : Nat} {x : State} {s : State} {a1 : Nat} (hm : Nat.land 2199023386632 m = 2199023386632)
    (h : Same m x s) : Same m x (State.scrubPassEnd s a1) := by
  unfold State.scrubPassEnd
  repeat' (first | with_reducible assumption | intro _ | with_reducible refine State.wrN_keeps (sub_of hm rfl) ?_ ?_ | with_reducible refine State.bump_keeps (sub_of hm rfl) ?_ ?_ | fail_if_no_progress with_reducible refine upd_dc (sub_of hm rfl) ?_ | with_reducible exact R.DC_SCRUB_LAG_ok (sub_of hm rfl) | with_reducible exact R.DC_SCRUB_PASS_ok (sub_of hm rfl) | (with_reducible refine regOk_of (c := 14) (sub_of hm rfl) (blk14 ?_ ?_) <;> simp only [R.DC_SCRUB_LAG, R.DC_SCRUB_PASS] <;> omega) | split | dsimp only)

theorem execDramTraining_keeps {m : Nat} {x : State} {a0 : Fin 6} {a1 : Bool} {a2 : Bool} {s : State} (hm : Nat.land 3509340776206 m = 3509340776206)
    (h : Same m x s) : Ends m x (execDramTraining a0 a1 a2 s) := by
  unfold execDramTraining
  repeat' (first | with_reducible assumption | intro _ | with_reducible apply ends_next | with_reducible apply ends_ite | with_reducible apply same_ite | with_reducible refine State.bootHalt_keeps (sub_of hm rfl) ?_ | with_reducible refine State.raise_keeps (sub_of hm rfl) ?_ | with_reducible refine State.setBit_keeps (sub_of hm rfl) ?_ ?_ | with_reducible refine State.emit_keeps (sub_of hm rfl) ?_ | with_reducible refine State.dramPhase_keeps (sub_of hm rfl) ?_ | fail_if_no_progress with_reducible refine upd_dc (sub_of hm rfl) ?_ | with_reducible exact R.BOOT_STS_ok (sub_of hm rfl) | with_reducible exact R.DC_STS_ok (sub_of hm rfl) | (with_reducible refine regOk_of (c := 14) (sub_of hm rfl) (blk14 ?_ ?_) <;> simp only [R.DC_STS] <;> omega) | split | dsimp only)

theorem execDramRefresh_keeps {m : Nat} {x : State} {a0 : Fin 2} {a1 : Fin 32} {s : State} (hm : Nat.land 67239946 m = 67239946)
    (h : Same m x s) : Ends m x (execDramRefresh a0 a1 s) := by
  unfold execDramRefresh
  repeat' (first | with_reducible assumption | intro _ | with_reducible apply ends_next | with_reducible apply ends_ite | with_reducible apply same_ite | with_reducible refine State.emit_keeps (sub_of hm rfl) ?_ | fail_if_no_progress with_reducible refine upd_dc (sub_of hm rfl) ?_ | split | dsimp only)

theorem execMr4Poll_keeps {m : Nat} {x : State} {a0 : Fin 6} {a1 : BitVec 3} {a2 : Bool} {a3 : Bool} {s : State} (hm : Nat.land 12096861603342 m = 12096861603342)
    (h : Same m x s) : Ends m x (execMr4Poll a0 a1 a2 a3 s) := by
  unfold execMr4Poll
  repeat' (first | with_reducible assumption | intro _ | with_reducible apply ends_next | with_reducible apply ends_ite | with_reducible apply same_ite | with_reducible apply same_when | with_reducible refine State.wrN_keeps (sub_of hm rfl) ?_ ?_ | with_reducible refine State.setBit_keeps (sub_of hm rfl) ?_ ?_ | with_reducible refine State.roll_keeps (sub_of hm rfl) ?_ | with_reducible refine State.moduleEvent_keeps (sub_of hm rfl) ?_ | with_reducible refine State.raise_keeps (sub_of hm rfl) ?_ | with_reducible refine State.condsNow_keeps (sub_of hm rfl) ?_ | fail_if_no_progress with_reducible refine upd_dc (sub_of hm rfl) ?_ | with_reducible exact R.DC_CTL_ok (sub_of hm rfl) | with_reducible exact R.DC_MR4_ok (sub_of hm rfl) | with_reducible exact R.DC_STS_ok (sub_of hm rfl) | (with_reducible refine regOk_of (c := 14) (sub_of hm rfl) (blk14 ?_ ?_) <;> simp only [R.DC_CTL, R.DC_MR4, R.DC_STS] <;> omega) | split | dsimp only)

theorem execDramScrubWord_keeps {m : Nat} {x : State} {a0 : Fin 6} {a1 : DramRes} {a2 : DramArea} {a3 : Bool} {s : State} (hm : Nat.land 26049061840654 m = 26049061840654)
    (h : Same m x s) : Ends m x (execDramScrubWord a0 a1 a2 a3 s) := by
  unfold execDramScrubWord
  repeat' (first | with_reducible assumption | intro _ | with_reducible apply ends_next | with_reducible apply ends_ite | with_reducible apply same_ite | with_reducible refine State.dramRead_keeps (sub_of hm rfl) ?_ | with_reducible refine State.scrubLost_keeps (sub_of hm rfl) ?_ | with_reducible refine State.wrN_keeps (sub_of hm rfl) ?_ ?_ | with_reducible refine State.scrubPassEnd_keeps (sub_of hm rfl) ?_ | with_reducible exact R.DC_CTL_ok (sub_of hm rfl) | with_reducible exact R.DC_SCRUB_LAG_ok (sub_of hm rfl) | with_reducible exact R.DC_SCRUB_PERIOD_ok (sub_of hm rfl) | with_reducible exact R.DC_STS_ok (sub_of hm rfl) | (with_reducible refine regOk_of (c := 14) (sub_of hm rfl) (blk14 ?_ ?_) <;> simp only [R.DC_CTL, R.DC_SCRUB_LAG, R.DC_SCRUB_PERIOD, R.DC_STS] <;> omega) | split | dsimp only)

theorem execDcCntClr_keeps {m : Nat} {x : State} {a0 : Fin 6} {a1 : Path} {a2 : Word} {s : State} (hm : Nat.land 2199090364424 m = 2199090364424)
    (h : Same m x s) : Ends m x (execDcCntClr a0 a1 a2 s) := by
  unfold execDcCntClr
  repeat' (first | with_reducible exact list_ok_nil | with_reducible refine list_ok_cons ?_ ?_ | with_reducible refine list_ok_append ?_ ?_ | with_reducible exact pc_ok | with_reducible refine range_ok ?_ | with_reducible assumption | intro _ | with_reducible apply ends_next | with_reducible apply same_when | with_reducible refine State.regAcc_keeps (sub_of hm rfl) ?_ | with_reducible refine State.zero_keeps (sub_of hm rfl) ?_ ?_ | with_reducible exact R.DC_CE_CNT_ok (sub_of hm rfl) | with_reducible exact R.DC_SCRUB_PASS_ok (sub_of hm rfl) | (with_reducible refine regOk_of (c := 14) (sub_of hm rfl) (blk14 ?_ ?_) <;> simp only [R.DC_CE_CNT, R.DC_SCRUB_PASS] <;> omega) | split | dsimp only)

theorem execDramPhyLockLoss_keeps {m : Nat} {x : State} {a0 : Fin 6} {s : State} (hm : Nat.land 2199107143182 m = 2199107143182)
    (h : Same m x s) : Ends m x (execDramPhyLockLoss a0 s) := by
  unfold execDramPhyLockLoss
  repeat' (first | with_reducible assumption | intro _ | with_reducible apply ends_next | with_reducible apply ends_ite | with_reducible apply same_ite | with_reducible refine State.dramLost_keeps (sub_of hm rfl) ?_ | split | dsimp only)

theorem execDramWriteCrcError_keeps {m : Nat} {x : State} {a0 : Fin 6} {a1 : Bool} {s : State} (hm : Nat.land 2199107143182 m = 2199107143182)
    (h : Same m x s) : Ends m x (execDramWriteCrcError a0 a1 s) := by
  unfold execDramWriteCrcError
  repeat' (first | with_reducible assumption | intro _ | with_reducible apply ends_next | with_reducible apply ends_ite | with_reducible apply same_ite | with_reducible refine State.dramLost_keeps (sub_of hm rfl) ?_ | with_reducible refine State.bump_keeps (sub_of hm rfl) ?_ ?_ | with_reducible exact R.DC_CRC_RETRY_ok (sub_of hm rfl) | with_reducible exact R.DC_STS_ok (sub_of hm rfl) | (with_reducible refine regOk_of (c := 14) (sub_of hm rfl) (blk14 ?_ ?_) <;> simp only [R.DC_CRC_RETRY, R.DC_STS] <;> omega) | split | dsimp only)

end Sys2Proof.Machine
end

