-- ==== Sys2Proof/Laws/FrameStore.lean ====
section
/-! SUPPORT. The frame of every operation of Machine/Store.lean, as a mask of the kinds of state that it may change. -/

set_option autoImplicit false
set_option linter.unusedTactic false
set_option linter.unreachableTactic false
set_option linter.unnecessarySeqFocus false
set_option linter.unusedSimpArgs false
set_option linter.unusedVariables false

namespace Sys2Proof.Machine

theorem State.clearStep_keeps {m : Nat} {x : State} {s : State} {a1 : Nat} (hm : Nat.land 1099612324362 m = 1099612324362)
    (h : Same m x s) : Same m x (State.clearStep s a1) := by
  unfold State.clearStep
  repeat' (first | with_reducible assumption | intro _ | with_reducible apply same_ite | with_reducible refine State.setBit_keeps (sub_of hm rfl) ?_ ?_ | with_reducible refine State.wrN_keeps (sub_of hm rfl) ?_ ?_ | with_reducible refine State.roll_keeps (sub_of hm rfl) ?_ | with_reducible refine State.bgDone_keeps (sub_of hm rfl) ?_ | fail_if_no_progress with_reducible refine upd_hp (sub_of hm rfl) ?_ | fail_if_no_progress with_reducible refine upd_rb (sub_of hm rfl) ?_ | with_reducible exact R.RB_COUNT_ok | with_reducible exact R.RB_HEAD_ok | with_reducible exact R.RB_STS_ok | split | dsimp only)

theorem execPstErase_keeps {m : Nat} {x : State} {a0 : Path} {s : State} (hm : Nat.land 4362076426 m = 4362076426)
    (h : Same m x s) : Ends m x (execPstErase a0 s) := by
  unfold execPstErase
  repeat' (first | with_reducible assumption | intro _ | with_reducible apply ends_next | with_reducible apply ends_ite | with_reducible apply same_ite | with_reducible refine State.regAcc_keeps (sub_of hm rfl) ?_ | with_reducible refine State.pstAdd_keeps (sub_of hm rfl) ?_ | with_reducible refine State.setBit_keeps (sub_of hm rfl) ?_ ?_ | with_reducible exact R.PST_ROW_ok (sub_of hm rfl) | with_reducible exact R.PST_STS_ok (sub_of hm rfl) | (with_reducible refine regOk_of (c := 5) (sub_of hm rfl) (blk5 ?_ ?_) <;> simp only [R.PST_ROW, R.PST_STS] <;> omega) | split | dsimp only)

theorem State.stageFree_keeps {m : Nat} {x : State} {s : State} (hm : Nat.land 4294967308 m = 4294967308)
    (h : Same m x s) : Same m x (State.stageFree s) := by
  unfold State.stageFree
  repeat' (first | with_reducible assumption | intro _ | with_reducible apply same_foldl | with_reducible refine State.drawn_keeps (sub_of hm rfl) ?_ | with_reducible refine State.wrN_keeps (sub_of hm rfl) ?_ ?_ | with_reducible exact R.PST_STG_ok (sub_of hm rfl) | (with_reducible refine regOk_of (c := 5) (sub_of hm rfl) (blk5 ?_ ?_) <;> simp only [R.PST_STG] <;> omega) | split | dsimp only)

theorem execPstLoad_keeps {m : Nat} {x : State} {a0 : Path} {a1 : Fin 8} {s : State} (hm : Nat.land 4362076172 m = 4362076172)
    (h : Same m x s) : Ends m x (execPstLoad a0 a1 s) := by
  unfold execPstLoad
  repeat' (first | with_reducible assumption | intro _ | with_reducible apply ends_next | with_reducible apply ends_ite | with_reducible apply same_ite | with_reducible apply same_foldl | with_reducible refine State.regAcc_keeps (sub_of hm rfl) ?_ | with_reducible refine State.stageFree_keeps (sub_of hm rfl) ?_ | with_reducible refine State.wr_keeps (sub_of hm rfl) ?_ ?_ | with_reducible exact R.PST_STG_ok (sub_of hm rfl) | (with_reducible refine regOk_of (c := 5) (sub_of hm rfl) (blk5 ?_ ?_) <;> simp only [R.PST_STG] <;> omega) | split | dsimp only)

theorem execPstCommit_keeps {m : Nat} {x : State} {a0 : Path} {a1 : Fin 8} {s : State} (hm : Nat.land 4362076426 m = 4362076426)
    (h : Same m x s) : Ends m x (execPstCommit a0 a1 s) := by
  unfold execPstCommit
  repeat' (first | with_reducible assumption | intro _ | with_reducible apply ends_next | with_reducible apply ends_ite | with_reducible apply same_ite | with_reducible refine State.regAcc_keeps (sub_of hm rfl) ?_ | with_reducible refine State.pstAdd_keeps (sub_of hm rfl) ?_ | with_reducible refine State.setBit_keeps (sub_of hm rfl) ?_ ?_ | with_reducible exact R.PSQ_STS_ok (sub_of hm rfl) | with_reducible exact R.PST_STG_ok (sub_of hm rfl) | with_reducible exact R.PST_STS_ok (sub_of hm rfl) | (with_reducible refine regOk_of (c := 5) (sub_of hm rfl) (blk5 ?_ ?_) <;> simp only [R.PST_STG, R.PST_STS] <;> omega) | split | dsimp only)

theorem execPstWinWrite_keeps {m : Nat} {x : State} {a0 : Path} {a1 : Fin 64} {a2 : Word} {s : State} (hm : Nat.land 4362076426 m = 4362076426)
    (h : Same m x s) : Ends m x (execPstWinWrite a0 a1 a2 s) := by
  unfold execPstWinWrite
  repeat' (first | with_reducible assumption | intro _ | with_reducible apply ends_next | with_reducible apply ends_ite | with_reducible apply same_ite | with_reducible refine State.regAcc_keeps (sub_of hm rfl) ?_ | with_reducible refine State.pstAdd_keeps (sub_of hm rfl) ?_ | with_reducible refine State.setBit_keeps (sub_of hm rfl) ?_ ?_ | with_reducible exact R.PST_ROW_ok (sub_of hm rfl) | with_reducible exact R.PST_STS_ok (sub_of hm rfl) | (with_reducible refine regOk_of (c := 5) (sub_of hm rfl) (blk5 ?_ ?_) <;> simp only [R.PST_ROW, R.PST_STS] <;> omega) | split | dsimp only)

theorem execPstCntClr_keeps {m : Nat} {x : State} {a0 : Path} {a1 : Word} {s : State} (hm : Nat.land 4362076168 m = 4362076168)
    (h : Same m x s) : Ends m x (execPstCntClr a0 a1 s) := by
  unfold execPstCntClr
  repeat' (first | with_reducible exact list_ok_nil | with_reducible refine list_ok_cons ?_ ?_ | with_reducible refine list_ok_append ?_ ?_ | with_reducible exact pc_ok | with_reducible refine range_ok ?_ | with_reducible assumption | intro _ | with_reducible apply ends_next | with_reducible apply same_when | with_reducible refine State.regAcc_keeps (sub_of hm rfl) ?_ | with_reducible refine State.zero_keeps (sub_of hm rfl) ?_ ?_ | with_reducible exact R.PST_SUPPLY_FAIL_ok (sub_of hm rfl) | with_reducible exact R.PST_WEAK_CNT_ok (sub_of hm rfl) | with_reducible exact R.PST_WR_FAIL_ok (sub_of hm rfl) | (with_reducible refine regOk_of (c := 5) (sub_of hm rfl) (blk5 ?_ ?_) <;> simp only [R.PST_SUPPLY_FAIL, R.PST_WEAK_CNT, R.PST_WR_FAIL] <;> omega) | split | dsimp only)

theorem execRbCntClr_keeps {m : Nat} {x : State} {a0 : Path} {a1 : Word} {s : State} (hm : Nat.land 67108872 m = 67108872)
    (h : Same m x s) : Ends m x (execRbCntClr a0 a1 s) := by
  unfold execRbCntClr
  repeat' (first | with_reducible exact list_ok_nil | with_reducible refine list_ok_cons ?_ ?_ | with_reducible refine list_ok_append ?_ ?_ | with_reducible exact pc_ok | with_reducible refine range_ok ?_ | with_reducible assumption | intro _ | with_reducible apply ends_next | with_reducible apply same_when | with_reducible refine State.regAcc_keeps (sub_of hm rfl) ?_ | with_reducible refine State.zero_keeps (sub_of hm rfl) ?_ ?_ | with_reducible exact R.RB_DROPPED_ok | exact .inl rfl | (with_reducible refine book1_ok ?_ <;> simp only [R.RB_DROPPED] <;> omega) | split | dsimp only)

theorem execPstWinRead_keeps {m : Nat} {x : State} {a0 : Path} {a1 : Fin 64} {s : State} (hm : Nat.land 67109130 m = 67109130)
    (h : Same m x s) : Ends m x (execPstWinRead a0 a1 s) := by
  unfold execPstWinRead
  repeat' (first | with_reducible assumption | intro _ | with_reducible apply ends_next | with_reducible apply ends_ite | with_reducible apply same_ite | with_reducible refine State.regAcc_keeps (sub_of hm rfl) ?_ | with_reducible refine State.emit_keeps (sub_of hm rfl) ?_ | with_reducible refine State.pstAnswer_keeps (sub_of hm rfl) ?_ | fail_if_no_progress with_reducible refine upd_pst (sub_of hm rfl) ?_ | split | dsimp only)

theorem execRbRecRead_keeps {m : Nat} {x : State} {a0 : Path} {a1 : Fin 8} {s : State} (hm : Nat.land 67109130 m = 67109130)
    (h : Same m x s) : Ends m x (execRbRecRead a0 a1 s) := by
  unfold execRbRecRead
  repeat' (first | with_reducible assumption | intro _ | with_reducible apply ends_next | with_reducible apply ends_ite | with_reducible apply same_ite | with_reducible refine State.regAcc_keeps (sub_of hm rfl) ?_ | with_reducible refine State.emit_keeps (sub_of hm rfl) ?_ | with_reducible refine State.pstAnswer_keeps (sub_of hm rfl) ?_ | fail_if_no_progress with_reducible refine upd_pst (sub_of hm rfl) ?_ | split | dsimp only)

theorem State.pstAbandon_keeps {m : Nat} {x : State} {s : State} {a1 : PstJob} (hm : Nat.land 4294967560 m = 4294967560)
    (h : Same m x s) : Same m x (State.pstAbandon s a1) := by
  unfold State.pstAbandon
  repeat' (first | with_reducible assumption | intro _ | with_reducible refine State.setBit_keeps (sub_of hm rfl) ?_ ?_ | fail_if_no_progress with_reducible refine upd_pst (sub_of hm rfl) ?_ | with_reducible exact R.PST_STS_ok (sub_of hm rfl) | (with_reducible refine regOk_of (c := 5) (sub_of hm rfl) (blk5 ?_ ?_) <;> simp only [R.PST_STS] <;> omega) | split | dsimp only)

theorem State.rbReadyShow_keeps {m : Nat} {x : State} {s : State} (hm : Nat.land 8 m = 8)
    (h : Same m x s) : Same m x (State.rbReadyShow s) := by
  unfold State.rbReadyShow
  repeat' (first | with_reducible assumption | intro _ | with_reducible apply same_ite | with_reducible refine State.setBit_keeps (sub_of hm rfl) ?_ ?_ | with_reducible exact R.PST_STS_ok (sub_of hm rfl) | with_reducible exact R.RB_STS_ok | split | dsimp only)

theorem State.pstFinish_keeps {m : Nat} {x : State} {s : State} {a1 : PstJob} {a2 : Nat} (hm : Nat.land 1103907291914 m = 1103907291914)
    (h : Same m x s) : Same m x (State.pstFinish s a1 a2) := by
  unfold State.pstFinish
  repeat' (first | with_reducible assumption | intro _ | with_reducible apply same_ite | with_reducible refine State.pstAdd_keeps (sub_of hm rfl) ?_ | with_reducible refine State.setBit_keeps (sub_of hm rfl) ?_ ?_ | with_reducible refine State.clearStep_keeps (sub_of hm rfl) ?_ | with_reducible refine State.rbReadyShow_keeps (sub_of hm rfl) ?_ | fail_if_no_progress with_reducible refine upd_rb (sub_of hm rfl) ?_ | with_reducible exact R.PST_STS_ok (sub_of hm rfl) | (with_reducible refine regOk_of (c := 5) (sub_of hm rfl) (blk5 ?_ ?_) <;> simp only [R.PST_STS] <;> omega) | split | dsimp only)

theorem State.pstStepped_keeps {m : Nat} {x : State} {s : State} {a1 : PstOp} {a2 : Nat} (hm : Nat.land 1103907291914 m = 1103907291914)
    (h : Same m x s) : Same m x (State.pstStepped s a1 a2) := by
  unfold State.pstStepped
  repeat' (first | with_reducible assumption | intro _ | with_reducible refine State.pstNext_keeps (sub_of hm rfl) ?_ | with_reducible refine State.pstFinish_keeps (sub_of hm rfl) ?_ | with_reducible refine State.pcEvent_keeps (sub_of hm rfl) ?_ | fail_if_no_progress with_reducible refine upd_pst (sub_of hm rfl) ?_ | split | dsimp only)

theorem State.pstVerifyFail_keeps {m : Nat} {x : State} {s : State} {a1 : Nat} (hm : Nat.land 4378854926 m = 4378854926)
    (h : Same m x s) : Same m x (State.pstVerifyFail s a1) := by
  unfold State.pstVerifyFail
  repeat' (first | with_reducible assumption | intro _ | with_reducible refine State.roll_keeps (sub_of hm rfl) ?_ | with_reducible refine State.raise_keeps (sub_of hm rfl) ?_ | with_reducible refine State.bump_keeps (sub_of hm rfl) ?_ ?_ | with_reducible exact R.PST_WR_FAIL_ok (sub_of hm rfl) | (with_reducible refine regOk_of (c := 5) (sub_of hm rfl) (blk5 ?_ ?_) <;> simp only [R.PST_WR_FAIL] <;> omega) | split | dsimp only)

theorem State.rbWriteClosing_keeps {m : Nat} {x : State} {s : State} (hm : Nat.land 768 m = 768)
    (h : Same m x s) : Same m x (State.rbWriteClosing s) := by
  unfold State.rbWriteClosing
  repeat' (first | with_reducible assumption | intro _ | fail_if_no_progress with_reducible refine upd_pst_rb (sub_of hm rfl) ?_ | split | dsimp only)

theorem State.rbWriteFront_keeps {m : Nat} {x : State} {s : State} {a1 : Option (Fin 8 × Word)} (hm : Nat.land 4378855182 m = 4378855182)
    (h : Same m x s) : Same m x (State.rbWriteFront s a1) := by
  unfold State.rbWriteFront
  repeat' (first | with_reducible assumption | intro _ | with_reducible apply same_ite | with_reducible apply same_foldl | with_reducible refine State.wrN_keeps (sub_of hm rfl) ?_ ?_ | with_reducible refine State.rbCountQueue_keeps (sub_of hm rfl) ?_ | with_reducible refine State.setBit_keeps (sub_of hm rfl) ?_ ?_ | with_reducible refine State.pcEvent_keeps (sub_of hm rfl) ?_ | with_reducible refine State.pstVerifyFail_keeps (sub_of hm rfl) ?_ | fail_if_no_progress with_reducible refine upd_pst (sub_of hm rfl) ?_ | fail_if_no_progress with_reducible refine upd_rb (sub_of hm rfl) ?_ | with_reducible exact R.RB_COUNT_ok | with_reducible exact R.RB_STS_ok | with_reducible exact R.RB_TAIL_ok | split | dsimp only)

theorem State.supplyReading_keeps {m : Nat} {x : State} {s : State} {a1 : BitVec 12} {a2 : BitVec 12} (hm : Nat.land 256 m = 256)
    (h : Same m x s) : Same m x (State.supplyReading s a1 a2) := by
  unfold State.supplyReading
  repeat' (first | with_reducible assumption | intro _ | fail_if_no_progress with_reducible refine upd_pst (sub_of hm rfl) ?_ | split | dsimp only)

theorem execPstProgramDone_keeps {m : Nat} {x : State} {a0 : Word} {a1 : BitVec 12} {a2 : BitVec 12} {s : State} (hm : Nat.land 1103924070158 m = 1103924070158)
    (h : Same m x s) : Ends m x (execPstProgramDone a0 a1 a2 s) := by
  unfold execPstProgramDone
  repeat' (first | with_reducible assumption | intro _ | with_reducible apply ends_next | with_reducible apply ends_ite | with_reducible apply same_ite | with_reducible refine State.supplyReading_keeps (sub_of hm rfl) ?_ | with_reducible refine State.pstStepped_keeps (sub_of hm rfl) ?_ | with_reducible refine State.pstVerifyFail_keeps (sub_of hm rfl) ?_ | with_reducible refine State.pstNext_keeps (sub_of hm rfl) ?_ | fail_if_no_progress with_reducible refine upd_pst (sub_of hm rfl) ?_ | split | dsimp only)

theorem execPstEraseDone_keeps {m : Nat} {x : State} {a0 : BitVec 12} {a1 : BitVec 12} {s : State} (hm : Nat.land 1103907291914 m = 1103907291914)
    (h : Same m x s) : Ends m x (execPstEraseDone a0 a1 s) := by
  unfold execPstEraseDone
  repeat' (first | with_reducible assumption | intro _ | with_reducible apply ends_next | with_reducible refine State.supplyReading_keeps (sub_of hm rfl) ?_ | with_reducible refine State.pstStepped_keeps (sub_of hm rfl) ?_ | with_reducible refine State.eraseRow_keeps (sub_of hm rfl) ?_ | split | dsimp only)

theorem execPstSupplyRetry_keeps {m : Nat} {x : State} {a0 : BitVec 12} {a1 : BitVec 12} {s : State} (hm : Nat.land 4362076426 m = 4362076426)
    (h : Same m x s) : Ends m x (execPstSupplyRetry a0 a1 s) := by
  unfold execPstSupplyRetry
  repeat' (first | with_reducible assumption | intro _ | with_reducible apply ends_next | with_reducible apply ends_ite | with_reducible apply same_ite | with_reducible refine State.supplyReading_keeps (sub_of hm rfl) ?_ | with_reducible refine State.pstAnswer_keeps (sub_of hm rfl) ?_ | with_reducible refine State.pstCheck_keeps (sub_of hm rfl) ?_ | split | dsimp only)

theorem execPstSupplyAbandon_keeps {m : Nat} {x : State} {s : State} (hm : Nat.land 4378855182 m = 4378855182)
    (h : Same m x s) : Ends m x (execPstSupplyAbandon s) := by
  unfold execPstSupplyAbandon
  repeat' (first | with_reducible assumption | intro _ | with_reducible apply ends_next | with_reducible refine State.raise_keeps (sub_of hm rfl) ?_ | with_reducible refine State.setBit_keeps (sub_of hm rfl) ?_ ?_ | with_reducible refine State.bump_keeps (sub_of hm rfl) ?_ ?_ | with_reducible refine State.pstNext_keeps (sub_of hm rfl) ?_ | with_reducible refine State.pstAbandon_keeps (sub_of hm rfl) ?_ | fail_if_no_progress with_reducible refine upd_pst (sub_of hm rfl) ?_ | with_reducible exact R.PST_STS_ok (sub_of hm rfl) | with_reducible exact R.PST_SUPPLY_FAIL_ok (sub_of hm rfl) | (with_reducible refine regOk_of (c := 5) (sub_of hm rfl) (blk5 ?_ ?_) <;> simp only [R.PST_STS, R.PST_SUPPLY_FAIL] <;> omega) | split | dsimp only)

theorem execPstWriteRerequest_keeps {m : Nat} {x : State} {s : State} (hm : Nat.land 4362076426 m = 4362076426)
    (h : Same m x s) : Ends m x (execPstWriteRerequest s) := by
  unfold execPstWriteRerequest
  repeat' (first | with_reducible assumption | intro _ | with_reducible apply ends_next | with_reducible refine State.pstAdd_keeps (sub_of hm rfl) ?_ | fail_if_no_progress with_reducible refine upd_pst (sub_of hm rfl) ?_ | split | dsimp only)

theorem execPstPatrolRow_keeps {m : Nat} {x : State} {a0 : Option (Fin 64)} {s : State} (hm : Nat.land 4362076938 m = 4362076938)
    (h : Same m x s) : Ends m x (execPstPatrolRow a0 s) := by
  unfold execPstPatrolRow
  repeat' (first | with_reducible assumption | intro _ | with_reducible apply ends_next | with_reducible apply ends_ite | with_reducible apply same_ite | with_reducible apply same_when | with_reducible refine State.wrN_keeps (sub_of hm rfl) ?_ ?_ | with_reducible refine State.roll_keeps (sub_of hm rfl) ?_ | with_reducible refine State.bump_keeps (sub_of hm rfl) ?_ ?_ | with_reducible refine State.setBit_keeps (sub_of hm rfl) ?_ ?_ | with_reducible refine State.pstAdd_keeps (sub_of hm rfl) ?_ | with_reducible exact R.PST_CTL_ok (sub_of hm rfl) | with_reducible exact R.PST_PATROL_ROW_ok (sub_of hm rfl) | with_reducible exact R.PST_STS_ok (sub_of hm rfl) | with_reducible exact R.PST_WEAK_CNT_ok (sub_of hm rfl) | (with_reducible refine regOk_of (c := 5) (sub_of hm rfl) (blk5 ?_ ?_) <;> simp only [R.PST_CTL, R.PST_PATROL_ROW, R.PST_STS, R.PST_WEAK_CNT] <;> omega) | split | dsimp only)

theorem execRollBookRecordWrite_keeps {m : Nat} {x : State} {a0 : Option (Fin 8 × Word)} {s : State} (hm : Nat.land 4378855182 m = 4378855182)
    (h : Same m x s) : Ends m x (execRollBookRecordWrite a0 s) := by
  unfold execRollBookRecordWrite
  repeat' (first | with_reducible assumption | intro _ | with_reducible apply ends_next | with_reducible apply ends_ite | with_reducible apply same_ite | with_reducible refine State.rbWriteClosing_keeps (sub_of hm rfl) ?_ | with_reducible refine State.rbWriteFront_keeps (sub_of hm rfl) ?_ | split | dsimp only)

end Sys2Proof.Machine
end

