-- ==== Sys2Proof/Laws/FrameBootOps.lean ====
section
/-! SUPPORT. The frame of every operation of Machine/BootOps.lean, as a mask of the kinds of state that it may change. -/

set_option autoImplicit false
set_option linter.unusedTactic false
set_option linter.unreachableTactic false
set_option linter.unnecessarySeqFocus false
set_option linter.unusedSimpArgs false
set_option linter.unusedVariables false

namespace Sys2Proof.Machine

theorem State.auxReset_keeps {m : Nat} {x : State} {s : State} (hm : Nat.land 562949953421278 m = 562949953421278) (h : Same m x s) : Same m x (s.auxReset) := by
  have hs : Same m x (if s.coreUp = true then s.coreDown 5 else s) := by
    split
    · exact State.coreDown_keeps (sub_of hm rfl) h
    · exact h
  unfold State.auxReset
  dsimp only
  exact upd_regs_tick_dom_opSecs_pst_rb_fc_rt_lc_te_ce_hp_tw_dc_md_mcTry_sir_hk_arch_psq_boot_mq_tst (sub_of hm rfl) (sub_of hm rfl) hs

theorem State.cfgLoad_keeps {m : Nat} {x : State} {s : State} {a1 : Bool} {a2 : List Nat} {a3 : List (BitVec 24 × Word)} (hm : Nat.land 562949819203592 m = 562949819203592)
    (h : Same m x s) : Same m x (State.cfgLoad s a1 a2 a3) := by
  unfold State.cfgLoad
  repeat' (first | with_reducible assumption | intro _ | with_reducible apply same_ite | with_reducible apply same_foldl | fail_if_no_progress with_reducible refine upd_regs (sub_of hm rfl) (sub_of hm rfl) ?_ | (with_reducible refine regOk_of (c := 0) (sub_of hm rfl) (blk0 ?_) <;> simp only [] <;> omega) | (with_reducible refine regOk_of (c := 1) (sub_of hm rfl) (blk1 ?_ ?_) <;> simp only [] <;> omega) | (with_reducible refine regOk_of (c := 2) (sub_of hm rfl) (blk2 ?_ ?_) <;> simp only [] <;> omega) | (with_reducible refine regOk_of (c := 3) (sub_of hm rfl) (blk3 ?_ ?_) <;> simp only [] <;> omega) | (with_reducible refine regOk_of (c := 4) (sub_of hm rfl) (blk4 ?_ ?_) <;> simp only [] <;> omega) | (with_reducible refine regOk_of (c := 5) (sub_of hm rfl) (blk5 ?_ ?_) <;> simp only [] <;> omega) | (with_reducible refine regOk_of (c := 6) (sub_of hm rfl) (blk6 ?_ ?_) <;> simp only [] <;> omega) | (with_reducible refine regOk_of (c := 7) (sub_of hm rfl) (blk7 ?_ ?_) <;> simp only [] <;> omega) | (with_reducible refine regOk_of (c := 8) (sub_of hm rfl) (blk8 ?_ ?_) <;> simp only [] <;> omega) | (with_reducible refine regOk_of (c := 9) (sub_of hm rfl) (blk9 ?_ ?_) <;> simp only [] <;> omega) | (with_reducible refine regOk_of (c := 10) (sub_of hm rfl) (blk10 ?_ ?_) <;> simp only [] <;> omega) | (with_reducible refine regOk_of (c := 11) (sub_of hm rfl) (blk11 ?_ ?_) <;> simp only [] <;> omega) | (with_reducible refine regOk_of (c := 12) (sub_of hm rfl) (blk12 ?_ ?_) <;> simp only [] <;> omega) | (with_reducible refine regOk_of (c := 13) (sub_of hm rfl) (blk13 ?_ ?_) <;> simp only [] <;> omega) | (with_reducible refine regOk_of (c := 14) (sub_of hm rfl) (blk14 ?_ ?_) <;> simp only [] <;> omega) | (with_reducible refine regOk_of (c := 15) (sub_of hm rfl) (blk15 ?_ ?_) <;> simp only [] <;> omega) | (with_reducible refine regOk_of (c := 16) (sub_of hm rfl) (blk16 ?_ ?_) <;> simp only [] <;> omega) | (with_reducible refine regOk_of (c := 17) (sub_of hm rfl) (blk17 ?_ ?_) <;> simp only [] <;> omega) | (with_reducible refine regOk_of (c := 18) (sub_of hm rfl) (blk18 ?_ ?_) <;> simp only [] <;> omega) | (with_reducible refine regOk_of (c := 19) (sub_of hm rfl) (blk19 ?_ ?_) <;> simp only [] <;> omega) | (with_reducible refine regOk_of (c := 20) (sub_of hm rfl) (blk20 ?_ ?_) <;> simp only [] <;> omega) | (with_reducible refine regOk_of (c := 21) (sub_of hm rfl) (blk21 ?_ ?_) <;> simp only [] <;> omega) | exact regOk_all (sub_of hm rfl) _ | split | dsimp only)

theorem State.lockPage_keeps {m : Nat} {x : State} {s : State} {a1 : Nat} (hm : Nat.land 562949819203592 m = 562949819203592)
    (h : Same m x s) : Same m x (State.lockPage s a1) := by
  unfold State.lockPage
  repeat' (first | with_reducible assumption | intro _ | with_reducible apply same_ite | with_reducible refine State.setBit_keeps (sub_of hm rfl) ?_ ?_ | (with_reducible refine regOk_of (c := 0) (sub_of hm rfl) (blk0 ?_) <;> simp only [] <;> omega) | (with_reducible refine regOk_of (c := 1) (sub_of hm rfl) (blk1 ?_ ?_) <;> simp only [] <;> omega) | (with_reducible refine regOk_of (c := 2) (sub_of hm rfl) (blk2 ?_ ?_) <;> simp only [] <;> omega) | (with_reducible refine regOk_of (c := 3) (sub_of hm rfl) (blk3 ?_ ?_) <;> simp only [] <;> omega) | (with_reducible refine regOk_of (c := 4) (sub_of hm rfl) (blk4 ?_ ?_) <;> simp only [] <;> omega) | (with_reducible refine regOk_of (c := 5) (sub_of hm rfl) (blk5 ?_ ?_) <;> simp only [] <;> omega) | (with_reducible refine regOk_of (c := 6) (sub_of hm rfl) (blk6 ?_ ?_) <;> simp only [] <;> omega) | (with_reducible refine regOk_of (c := 7) (sub_of hm rfl) (blk7 ?_ ?_) <;> simp only [] <;> omega) | (with_reducible refine regOk_of (c := 8) (sub_of hm rfl) (blk8 ?_ ?_) <;> simp only [] <;> omega) | (with_reducible refine regOk_of (c := 9) (sub_of hm rfl) (blk9 ?_ ?_) <;> simp only [] <;> omega) | (with_reducible refine regOk_of (c := 10) (sub_of hm rfl) (blk10 ?_ ?_) <;> simp only [] <;> omega) | (with_reducible refine regOk_of (c := 11) (sub_of hm rfl) (blk11 ?_ ?_) <;> simp only [] <;> omega) | (with_reducible refine regOk_of (c := 12) (sub_of hm rfl) (blk12 ?_ ?_) <;> simp only [] <;> omega) | (with_reducible refine regOk_of (c := 13) (sub_of hm rfl) (blk13 ?_ ?_) <;> simp only [] <;> omega) | (with_reducible refine regOk_of (c := 14) (sub_of hm rfl) (blk14 ?_ ?_) <;> simp only [] <;> omega) | (with_reducible refine regOk_of (c := 15) (sub_of hm rfl) (blk15 ?_ ?_) <;> simp only [] <;> omega) | (with_reducible refine regOk_of (c := 16) (sub_of hm rfl) (blk16 ?_ ?_) <;> simp only [] <;> omega) | (with_reducible refine regOk_of (c := 17) (sub_of hm rfl) (blk17 ?_ ?_) <;> simp only [] <;> omega) | (with_reducible refine regOk_of (c := 18) (sub_of hm rfl) (blk18 ?_ ?_) <;> simp only [] <;> omega) | (with_reducible refine regOk_of (c := 19) (sub_of hm rfl) (blk19 ?_ ?_) <;> simp only [] <;> omega) | (with_reducible refine regOk_of (c := 20) (sub_of hm rfl) (blk20 ?_ ?_) <;> simp only [] <;> omega) | (with_reducible refine regOk_of (c := 21) (sub_of hm rfl) (blk21 ?_ ?_) <;> simp only [] <;> omega) | exact regOk_all (sub_of hm rfl) _ | split | dsimp only)

theorem State.lockAll_keeps {m : Nat} {x : State} {s : State} (hm : Nat.land 562949819203592 m = 562949819203592)
    (h : Same m x s) : Same m x (State.lockAll s) := by
  unfold State.lockAll
  repeat' (first | with_reducible assumption | intro _ | with_reducible apply same_foldl | with_reducible refine State.lockPage_keeps (sub_of hm rfl) ?_ | exact regOk_all (sub_of hm rfl) _ | split | dsimp only)

theorem State.monitorReady_keeps {m : Nat} {x : State} {s : State} (hm : Nat.land 9903190147850 m = 9903190147850)
    (h : Same m x s) : Same m x (State.monitorReady s) := by
  unfold State.monitorReady
  repeat' (first | with_reducible assumption | intro _ | with_reducible apply same_ite | with_reducible apply same_foldl | with_reducible refine State.setBit_keeps (sub_of hm rfl) ?_ ?_ | with_reducible refine State.set_keeps (sub_of hm rfl) ?_ ?_ | with_reducible refine State.roll_keeps (sub_of hm rfl) ?_ | with_reducible refine State.restartsPut_keeps (sub_of hm rfl) ?_ | with_reducible refine State.rorDisarm_keeps (sub_of hm rfl) ?_ | with_reducible refine State.rst24_keeps (sub_of hm rfl) ?_ | fail_if_no_progress with_reducible refine upd_hk (sub_of hm rfl) ?_ | with_reducible exact R.CIS_C_ok (sub_of hm rfl) | with_reducible exact R.CIS_STS_ok (sub_of hm rfl) | (with_reducible refine regOk_of (c := 3) (sub_of hm rfl) (blk3 ?_ ?_) <;> simp only [R.CIS_C, R.CIS_STS] <;> omega) | split | dsimp only)

theorem State.portsLoad_keeps {m : Nat} {x : State} {s : State} {a1 : BitVec 16} (hm : Nat.land 1099528405000 m = 1099528405000)
    (h : Same m x s) : Same m x (State.portsLoad s a1) := by
  unfold State.portsLoad
  repeat' (first | with_reducible assumption | intro _ | with_reducible apply same_ite | with_reducible apply same_foldl | with_reducible refine State.setBit_keeps (sub_of hm rfl) ?_ ?_ | with_reducible refine State.set_keeps (sub_of hm rfl) ?_ ?_ | fail_if_no_progress with_reducible refine upd_boot (sub_of hm rfl) ?_ | with_reducible exact R.HP_CFG_ok (sub_of hm rfl) | with_reducible exact R.HP_STS_ok (sub_of hm rfl) | (with_reducible refine regOk_of (c := 13) (sub_of hm rfl) (blk13 ?_ ?_) <;> simp only [R.HP_CFG, R.HP_STS] <;> omega) | split | dsimp only)

theorem State.restartSlot_keeps {m : Nat} {x : State} {s : State} {a1 : Nat} {a2 : Nat} {a3 : Bool} (hm : Nat.land 17246994952 m = 17246994952)
    (h : Same m x s) : Same m x (State.restartSlot s a1 a2 a3).2 := by
  unfold State.restartSlot
  repeat' (first | with_reducible assumption | intro _ | with_reducible apply same_ite | with_reducible apply same2_ite | with_reducible refine State.dataSlotFor_keeps (sub_of hm rfl) (by assumption) ?_ | with_reducible refine State.noSlot_keeps (sub_of hm rfl) ?_ | with_reducible refine State.derive_keeps (sub_of hm rfl) ?_ | split | dsimp only)

theorem State.restartSlot_keeps_eq {m : Nat} {x : State} {s : State} {a1 : Nat} {a2 : Nat} {a3 : Bool} {u : Option Nat} {t : State} (hm : Nat.land 17246994952 m = 17246994952)
    (e : State.restartSlot s a1 a2 a3 = (u, t)) (h : Same m x s) : Same m x t := by
  have := State.restartSlot_keeps hm h (a1 := a1) (a2 := a2) (a3 := a3)
  rwa [e] at this

theorem State.regionLoad_keeps {m : Nat} {x : State} {s : State} {a1 : Nat} (hm : Nat.land 281492223738376 m = 281492223738376)
    (h : Same m x s) : Same m x (State.regionLoad s a1) := by
  unfold State.regionLoad
  repeat' (first | with_reducible assumption | intro _ | with_reducible apply same_ite | with_reducible apply same2_ite | with_reducible refine State.wrN_keeps (sub_of hm rfl) ?_ ?_ | with_reducible refine State.setLabel_keeps (sub_of hm rfl) ?_ | with_reducible refine State.setBit_keeps (sub_of hm rfl) ?_ ?_ | with_reducible refine State.restartSlot_keeps (sub_of hm rfl) ?_ | with_reducible refine State.restartSlot_keeps_eq (sub_of hm rfl) (by assumption) ?_ | with_reducible refine State.setRgSlot_keeps (sub_of hm rfl) ?_ | with_reducible refine State.set_keeps (sub_of hm rfl) ?_ ?_ | fail_if_no_progress with_reducible refine upd_hp (sub_of hm rfl) ?_ | with_reducible exact R.CE_RG_ROTSEQ_HI_ok (sub_of hm rfl) | with_reducible exact R.CE_RG_ROTSEQ_LO_ok (sub_of hm rfl) | with_reducible exact R.CE_RG_SLOT_ok (sub_of hm rfl) | with_reducible exact R.CE_STS_ok (sub_of hm rfl) | with_reducible exact R.RT_RG_BASE_ok (sub_of hm rfl) | with_reducible exact R.RT_RG_CTL_ok (sub_of hm rfl) | with_reducible exact R.RT_RG_SIZE_ok (sub_of hm rfl) | with_reducible exact R.RT_RG_STS_ok (sub_of hm rfl) | (with_reducible refine regOk_of (c := 21) (sub_of hm rfl) (blk21 ?_ ?_) <;> simp only [R.CE_RG_ROTSEQ_HI, R.CE_RG_ROTSEQ_LO, R.CE_RG_SLOT, R.RT_RG_BASE, R.RT_RG_CTL, R.RT_RG_SIZE, R.RT_RG_STS] <;> omega) | split | dsimp only)

theorem State.storeReady_keeps {m : Nat} {x : State} {s : State} (hm : Nat.land 4362076938 m = 4362076938)
    (h : Same m x s) : Same m x (State.storeReady s) := by
  unfold State.storeReady
  repeat' (first | with_reducible assumption | intro _ | with_reducible apply same_ite | with_reducible apply same_foldl | with_reducible refine State.wrN_keeps (sub_of hm rfl) ?_ ?_ | with_reducible refine State.setBit_keeps (sub_of hm rfl) ?_ ?_ | with_reducible refine State.pstAdd_keeps (sub_of hm rfl) ?_ | with_reducible refine State.rbReadyShow_keeps (sub_of hm rfl) ?_ | fail_if_no_progress with_reducible refine upd_rb (sub_of hm rfl) ?_ | with_reducible exact R.PST_STS_ok (sub_of hm rfl) | with_reducible exact R.RB_COUNT_ok | with_reducible exact R.RB_HEAD_ok | with_reducible exact R.RB_STS_ok | with_reducible exact R.RB_TAIL_ok | (with_reducible refine regOk_of (c := 5) (sub_of hm rfl) (blk5 ?_ ?_) <;> simp only [R.PST_STS] <;> omega) | split | dsimp only)

end Sys2Proof.Machine
end

