-- ==== Sys2Proof/Laws/FrameRebuildOps.lean ====
section
/-! SUPPORT. The frame of every operation of Machine/RebuildOps.lean, as a mask of the kinds of state that it may change. -/

set_option autoImplicit false
set_option linter.unusedTactic false
set_option linter.unreachableTactic false
set_option linter.unnecessarySeqFocus false
set_option linter.unusedSimpArgs false
set_option linter.unusedVariables false

namespace Sys2Proof.Machine

theorem State.anchorWrite_keeps {m : Nat} {x : State} {s : State} {a1 : List Nat} (hm : Nat.land 4362076426 m = 4362076426)
    (h : Same m x s) : Same m x (State.anchorWrite s a1) := by
  unfold State.anchorWrite
  repeat' (first | with_reducible assumption | intro _ | with_reducible apply same_foldl | with_reducible refine State.pstAdd_keeps (sub_of hm rfl) ?_ | split | dsimp only)

theorem State.stageLines_keeps {m : Nat} {x : State} {s : State} {a1 : Nat} {a2 : List (Nat × Option Line)} (hm : Nat.land 19451974116110 m = 19451974116110)
    (h : Same m x s) : Same m x (State.stageLines s a1 a2) := by
  unfold State.stageLines
  repeat' (first | with_reducible assumption | intro _ | with_reducible apply same_ite | with_reducible apply same_foldl | with_reducible refine State.poisonLine_keeps (sub_of hm rfl) ?_ | with_reducible refine State.slotPutDirty_keeps (sub_of hm rfl) (by assumption) ?_ | with_reducible refine State.charge_keeps (sub_of hm rfl) ?_ | split | dsimp only)

theorem State.attachKept_keeps {m : Nat} {x : State} {s : State} {a1 : Sparse Slot} (hm : Nat.land 19451974116110 m = 19451974116110)
    (h : Same m x s) : Same m x (State.attachKept s a1) := by
  unfold State.attachKept
  repeat' (first | with_reducible assumption | intro _ | with_reducible apply same_ite | with_reducible apply same_foldl | with_reducible refine State.stageLines_keeps (sub_of hm rfl) ?_ | split | dsimp only)

theorem State.chooseTile_keeps {m : Nat} {x : State} {s : State} {a1 : List (Nat × JEntry)} {a2 : List Nat} {a3 : List Nat} {a4 : List TCopy} {a5 : Nat} (hm : Nat.land 19451974116110 m = 19451974116110)
    (h : Same m x s) : Same m x (State.chooseTile s a1 a2 a3 a4 a5) := by
  unfold State.chooseTile
  repeat' (first | with_reducible assumption | intro _ | with_reducible apply same_ite | with_reducible apply same_foldl | with_reducible refine State.segChanged_keeps (sub_of hm rfl) ?_ | with_reducible refine State.bump_keeps (sub_of hm rfl) ?_ ?_ | with_reducible refine State.stageLines_keeps (sub_of hm rfl) ?_ | fail_if_no_progress with_reducible refine upd_te (sub_of hm rfl) ?_ | with_reducible exact R.TE_BLD_MERGED_ok (sub_of hm rfl) | (with_reducible refine regOk_of (c := 9) (sub_of hm rfl) (blk9 ?_ ?_) <;> simp only [R.TE_BLD_MERGED] <;> omega) | split | dsimp only)

theorem State.derived_keeps {m : Nat} {x : State} {s : State} (hm : Nat.land 19451974099722 m = 19451974099722)
    (h : Same m x s) : Same m x (State.derived s) := by
  unfold State.derived
  repeat' (first | with_reducible assumption | intro _ | with_reducible apply same_ite | with_reducible apply same_foldl | with_reducible refine State.blkSettle_keeps (sub_of hm rfl) ?_ | with_reducible refine State.blkMod_keeps (sub_of hm rfl) ?_ | split | dsimp only)

theorem State.showDies_keeps {m : Nat} {x : State} {s : State} (hm : Nat.land 68987912200 m = 68987912200)
    (h : Same m x s) : Same m x (State.showDies s) := by
  unfold State.showDies
  repeat' (first | with_reducible assumption | intro _ | with_reducible refine State.wrN_keeps (sub_of hm rfl) ?_ ?_ | with_reducible exact R.DEV_CAP_ok (sub_of hm rfl) | with_reducible exact R.TE_DIES_ok (sub_of hm rfl) | (with_reducible refine regOk_of (c := 1) (sub_of hm rfl) (blk1 ?_ ?_) <;> simp only [R.DEV_CAP] <;> omega) | (with_reducible refine regOk_of (c := 9) (sub_of hm rfl) (blk9 ?_ ?_) <;> simp only [R.TE_DIES] <;> omega) | split | dsimp only)

theorem State.format_keeps {m : Nat} {x : State} {s : State} {a1 : Nat → Nat} (hm : Nat.land 19469422420750 m = 19469422420750)
    (h : Same m x s) : Same m x (State.format s a1) := by
  unfold State.format
  repeat' (first | with_reducible exact list_ok_nil | with_reducible refine list_ok_cons ?_ ?_ | with_reducible refine list_ok_append ?_ ?_ | with_reducible exact pc_ok | with_reducible refine range_ok ?_ | with_reducible assumption | intro _ | with_reducible apply same_ite | with_reducible refine State.setBit_keeps (sub_of hm rfl) ?_ ?_ | with_reducible refine State.wr64_keeps (sub_of hm rfl) ?_ ?_ ?_ | with_reducible refine State.zero_keeps (sub_of hm rfl) ?_ ?_ | with_reducible refine State.journal_keeps (sub_of hm rfl) ?_ | with_reducible refine State.showDies_keeps (sub_of hm rfl) ?_ | with_reducible refine State.anchorWrite_keeps (sub_of hm rfl) ?_ | with_reducible refine State.newRk_keeps (sub_of hm rfl) ?_ | fail_if_no_progress with_reducible refine upd_te (sub_of hm rfl) ?_ | with_reducible exact R.BOOT_STS_ok (sub_of hm rfl) | with_reducible exact R.TE_JSEQ_LO_ok (sub_of hm rfl) | with_reducible exact R.TE_PT_LINES_ok (sub_of hm rfl) | with_reducible exact R.TE_PT_TILES_ok (sub_of hm rfl) | with_reducible exact R.TE_PT_WHOLE_ok (sub_of hm rfl) | with_reducible exact R.TE_STS_ok (sub_of hm rfl) | (with_reducible refine regOk_of (c := 1) (sub_of hm rfl) (blk1 ?_ ?_) <;> simp only [R.BOOT_STS] <;> omega) | (with_reducible refine regOk_of (c := 9) (sub_of hm rfl) (blk9 ?_ ?_) <;> simp only [R.TE_JSEQ_LO, R.TE_PT_LINES, R.TE_PT_TILES, R.TE_PT_WHOLE, R.TE_STS] <;> omega) | split | dsimp only)

theorem State.loadAreas_keeps {m : Nat} {x : State} {s : State} {a1 : ReadNoise} (hm : Nat.land 68719484936 m = 68719484936)
    (h : Same m x s) : Same m x (State.loadAreas s a1) := by
  unfold State.loadAreas
  repeat' (first | with_reducible assumption | intro _ | with_reducible apply same_foldl | with_reducible refine State.wr64_keeps (sub_of hm rfl) ?_ ?_ ?_ | fail_if_no_progress with_reducible refine upd_te (sub_of hm rfl) ?_ | with_reducible exact R.TE_JSEQ_LO_ok (sub_of hm rfl) | (with_reducible refine regOk_of (c := 9) (sub_of hm rfl) (blk9 ?_ ?_) <;> simp only [R.TE_JSEQ_LO] <;> omega) | split | dsimp only)

theorem State.retireLost_keeps {m : Nat} {x : State} {s : State} (hm : Nat.land 19451974099722 m = 19451974099722)
    (h : Same m x s) : Same m x (State.retireLost s) := by
  unfold State.retireLost
  repeat' (first | with_reducible assumption | intro _ | with_reducible apply same_foldl | with_reducible refine State.retireDie_keeps (sub_of hm rfl) ?_ | with_reducible refine State.setBit_keeps (sub_of hm rfl) ?_ ?_ | with_reducible refine State.dieMod_keeps (sub_of hm rfl) ?_ | fail_if_no_progress with_reducible refine upd_te (sub_of hm rfl) ?_ | with_reducible exact R.MC_STS_ok (sub_of hm rfl) | with_reducible exact R.TE_UPK_STS_ok (sub_of hm rfl) | (with_reducible refine regOk_of (c := 9) (sub_of hm rfl) (blk9 ?_ ?_) <;> simp only [R.TE_UPK_STS] <;> omega) | (with_reducible refine regOk_of (c := 17) (sub_of hm rfl) (blk17 ?_ ?_) <;> simp only [R.MC_STS] <;> omega) | split | dsimp only)

theorem State.mapReady_keeps {m : Nat} {x : State} {s : State} {a1 : Nat} {a2 : Nat} {a3 : Bool} {a4 : List Nat} (hm : Nat.land 314447827697422 m = 314447827697422)
    (h : Same m x s) : Same m x (State.mapReady s a1 a2 a3 a4) := by
  unfold State.mapReady
  repeat' (first | with_reducible assumption | intro _ | with_reducible apply same_when | with_reducible apply same_foldl | with_reducible refine State.setBit_keeps (sub_of hm rfl) ?_ ?_ | with_reducible refine State.set_keeps (sub_of hm rfl) ?_ ?_ | with_reducible refine State.showDies_keeps (sub_of hm rfl) ?_ | with_reducible refine State.wrN_keeps (sub_of hm rfl) ?_ ?_ | with_reducible refine State.roll_keeps (sub_of hm rfl) ?_ | with_reducible refine State.pdWrite_keeps (sub_of hm rfl) ?_ | with_reducible refine State.unknownEnter_keeps (sub_of hm rfl) ?_ | with_reducible refine State.retireLost_keeps (sub_of hm rfl) ?_ | with_reducible refine State.discardShow_keeps (sub_of hm rfl) ?_ | with_reducible refine State.pump_keeps (sub_of hm rfl) ?_ | with_reducible refine State.tsStatus_keeps (sub_of hm rfl) ?_ | fail_if_no_progress with_reducible refine upd_sir (sub_of hm rfl) ?_ | with_reducible exact R.BOOT_MS_MAP_ok (sub_of hm rfl) | with_reducible exact R.BOOT_STS_ok (sub_of hm rfl) | with_reducible exact R.TE_BLD_MS_ok (sub_of hm rfl) | with_reducible exact R.TE_BLD_TORN_ok (sub_of hm rfl) | with_reducible exact R.TE_CTL_ok (sub_of hm rfl) | with_reducible exact R.TE_STS_ok (sub_of hm rfl) | (with_reducible refine regOk_of (c := 1) (sub_of hm rfl) (blk1 ?_ ?_) <;> simp only [R.BOOT_MS_MAP, R.BOOT_STS] <;> omega) | (with_reducible refine regOk_of (c := 9) (sub_of hm rfl) (blk9 ?_ ?_) <;> simp only [R.TE_BLD_MS, R.TE_BLD_TORN, R.TE_CTL, R.TE_STS] <;> omega) | split | dsimp only)

theorem State.ptLoad_keeps {m : Nat} {x : State} {s : State} {a1 : Nat × BitVec 64} (hm : Nat.land 68719484936 m = 68719484936)
    (h : Same m x s) : Same m x (State.ptLoad s a1) := by
  unfold State.ptLoad
  repeat' (first | with_reducible assumption | intro _ | with_reducible refine State.addCnt_keeps (sub_of hm rfl) ?_ ?_ | fail_if_no_progress with_reducible refine upd_te (sub_of hm rfl) ?_ | with_reducible exact R.TE_PT_LINES_ok (sub_of hm rfl) | with_reducible exact R.TE_PT_TILES_ok (sub_of hm rfl) | (with_reducible refine regOk_of (c := 9) (sub_of hm rfl) (blk9 ?_ ?_) <;> simp only [R.TE_PT_LINES, R.TE_PT_TILES] <;> omega) | split | dsimp only)

theorem State.stripesFound_keeps {m : Nat} {x : State} {s : State} {a1 : ReadNoise} (hm : Nat.land 4398046519304 m = 4398046519304)
    (h : Same m x s) : Same m x (State.stripesFound s a1) := by
  unfold State.stripesFound
  repeat' (first | with_reducible assumption | intro _ | with_reducible apply same_ite | with_reducible apply same_foldl | with_reducible refine State.wrN_keeps (sub_of hm rfl) ?_ ?_ | fail_if_no_progress with_reducible refine upd_te (sub_of hm rfl) ?_ | with_reducible exact R.MG_OBP_HELD_ok (sub_of hm rfl) | (with_reducible refine regOk_of (c := 15) (sub_of hm rfl) (blk15 ?_ ?_) <;> simp only [R.MG_OBP_HELD] <;> omega) | split | dsimp only)

theorem State.restoreSeqs_keeps {m : Nat} {x : State} {s : State} {a1 : Nat} {a2 : List Nat} (hm : Nat.land 8192 m = 8192)
    (h : Same m x s) : Same m x (State.restoreSeqs s a1 a2) := by
  unfold State.restoreSeqs
  repeat' (first | with_reducible assumption | intro _ | with_reducible apply same_foldl | fail_if_no_progress with_reducible refine upd_te (sub_of hm rfl) ?_ | split | dsimp only)

theorem State.rebuildPages_keeps {m : Nat} {x : State} {s : State} {a1 : ReadNoise} {a2 : List (Nat × JEntry)} {a3 : List Nat} (hm : Nat.land 23850020627214 m = 23850020627214)
    (h : Same m x s) : Same m x (State.rebuildPages s a1 a2 a3).2 := by
  unfold State.rebuildPages
  repeat' (first | with_reducible assumption | intro _ | with_reducible apply same_ite | with_reducible apply same_foldl | with_reducible apply same2_ite | with_reducible apply same_foldl2 | with_reducible refine State.stripesFound_keeps (sub_of hm rfl) ?_ | with_reducible refine State.restoreSeqs_keeps (sub_of hm rfl) ?_ | with_reducible refine State.wrN_keeps (sub_of hm rfl) ?_ ?_ | with_reducible refine State.chooseTile_keeps (sub_of hm rfl) ?_ | with_reducible refine State.journal_keeps (sub_of hm rfl) ?_ | with_reducible refine State.derived_keeps (sub_of hm rfl) ?_ | with_reducible exact R.TE_BLD_PAGES_ok (sub_of hm rfl) | with_reducible exact R.TE_BLD_RECON_ok (sub_of hm rfl) | with_reducible exact R.TE_BLD_TORN_ok (sub_of hm rfl) | (with_reducible refine regOk_of (c := 9) (sub_of hm rfl) (blk9 ?_ ?_) <;> simp only [R.TE_BLD_PAGES, R.TE_BLD_RECON, R.TE_BLD_TORN] <;> omega) | split | dsimp only)

theorem State.rebuildPages_keeps_eq {m : Nat} {x : State} {s : State} {a1 : ReadNoise} {a2 : List (Nat × JEntry)} {a3 : List Nat} {u : List Nat} {t : State} (hm : Nat.land 23850020627214 m = 23850020627214)
    (e : State.rebuildPages s a1 a2 a3 = (u, t)) (h : Same m x s) : Same m x t := by
  have := State.rebuildPages_keeps hm h (a1 := a1) (a2 := a2) (a3 := a3)
  rwa [e] at this

theorem State.replay_keeps {m : Nat} {x : State} {s : State} {a1 : ReadNoise} {a2 : List (Nat × JEntry)} (hm : Nat.land 68719484936 m = 68719484936)
    (h : Same m x s) : Same m x (State.replay s a1 a2) := by
  unfold State.replay
  repeat' (first | with_reducible exact list_ok_nil | with_reducible refine list_ok_cons ?_ ?_ | with_reducible refine list_ok_append ?_ ?_ | with_reducible exact pc_ok | with_reducible refine range_ok ?_ | with_reducible assumption | intro _ | with_reducible apply same_ite | with_reducible apply same_foldl | with_reducible refine State.zero_keeps (sub_of hm rfl) ?_ ?_ | with_reducible refine State.ptLoad_keeps (sub_of hm rfl) ?_ | with_reducible refine State.wrN_keeps (sub_of hm rfl) ?_ ?_ | fail_if_no_progress with_reducible refine upd_te (sub_of hm rfl) ?_ | with_reducible exact R.TE_PT_LINES_ok (sub_of hm rfl) | with_reducible exact R.TE_PT_TILES_ok (sub_of hm rfl) | with_reducible exact R.TE_PT_WHOLE_ok (sub_of hm rfl) | (with_reducible refine regOk_of (c := 9) (sub_of hm rfl) (blk9 ?_ ?_) <;> simp only [R.TE_PT_LINES, R.TE_PT_TILES, R.TE_PT_WHOLE] <;> omega) | split | dsimp only)

end Sys2Proof.Machine
end

