-- ==== Sys2Proof/Laws/FrameBoot.lean ====
section
/-! SUPPORT. The frame of every operation of Machine/Boot.lean, as a mask of the kinds of state that it may change. -/

set_option autoImplicit false
set_option linter.unusedTactic false
set_option linter.unreachableTactic false
set_option linter.unnecessarySeqFocus false
set_option linter.unusedSimpArgs false
set_option linter.unusedVariables false

namespace Sys2Proof.Machine

theorem State.govLoad_keeps {m : Nat} {x : State} {s : State} {a1 : CfgImage} (hm : Nat.land 4194304 m = 4194304)
    (h : Same m x s) : Same m x (State.govLoad s a1) := by
  unfold State.govLoad
  repeat' (first | with_reducible assumption | intro _ | fail_if_no_progress with_reducible refine upd_arch (sub_of hm rfl) ?_ | split | dsimp only)

theorem State.poolsLoad_keeps {m : Nat} {x : State} {s : State} (hm : Nat.land 2048 m = 2048)
    (h : Same m x s) : Same m x (State.poolsLoad s) := by
  unfold State.poolsLoad
  repeat' (first | with_reducible assumption | intro _ | fail_if_no_progress with_reducible refine upd_rt (sub_of hm rfl) ?_ | split | dsimp only)

theorem execRebuild_keeps {m : Nat} {x : State} {a0 : ReadNoise} {s : State} (hm : Nat.land 314447827697422 m = 314447827697422)
    (h : Same m x s) : Ends m x (execRebuild a0 s) := by
  unfold execRebuild
  repeat' (first | with_reducible exact list_ok_nil | with_reducible refine list_ok_cons ?_ ?_ | with_reducible refine list_ok_append ?_ ?_ | with_reducible exact pc_ok | with_reducible refine range_ok ?_ | with_reducible assumption | intro _ | with_reducible apply ends_next | with_reducible apply ends_ite | with_reducible apply same_ite | with_reducible apply same2_ite | with_reducible refine State.bootHalt_keeps (sub_of hm rfl) ?_ | with_reducible refine State.set_keeps (sub_of hm rfl) ?_ ?_ | with_reducible refine State.setBit_keeps (sub_of hm rfl) ?_ ?_ | with_reducible refine State.mapReady_keeps (sub_of hm rfl) ?_ | with_reducible refine State.format_keeps (sub_of hm rfl) ?_ | with_reducible refine State.loadAreas_keeps (sub_of hm rfl) ?_ | with_reducible refine State.zero_keeps (sub_of hm rfl) ?_ ?_ | with_reducible refine State.wrN_keeps (sub_of hm rfl) ?_ ?_ | with_reducible refine State.stripesFound_keeps (sub_of hm rfl) ?_ | with_reducible refine State.replay_keeps (sub_of hm rfl) ?_ | with_reducible refine State.derived_keeps (sub_of hm rfl) ?_ | with_reducible refine State.rebuildPages_keeps (sub_of hm rfl) ?_ | with_reducible refine State.rebuildPages_keeps_eq (sub_of hm rfl) (by assumption) ?_ | with_reducible refine State.journalFlush_keeps (sub_of hm rfl) ?_ | with_reducible refine State.programAll_keeps (sub_of hm rfl) ?_ | with_reducible refine State.attachKept_keeps (sub_of hm rfl) ?_ | fail_if_no_progress with_reducible refine upd_te (sub_of hm rfl) ?_ | with_reducible exact R.BOOT_STS_ok (sub_of hm rfl) | with_reducible exact R.LC_STS_ok (sub_of hm rfl) | with_reducible exact R.MC_STS_ok (sub_of hm rfl) | with_reducible exact R.TE_BLD_MERGED_ok (sub_of hm rfl) | with_reducible exact R.TE_BLD_PAGES_ok (sub_of hm rfl) | with_reducible exact R.TE_BLD_RECON_ok (sub_of hm rfl) | with_reducible exact R.TE_BLD_REPLAY_ok (sub_of hm rfl) | with_reducible exact R.TE_BLD_TORN_ok (sub_of hm rfl) | with_reducible exact R.TE_STS_ok (sub_of hm rfl) | (with_reducible refine regOk_of (c := 9) (sub_of hm rfl) (blk9 ?_ ?_) <;> simp only [R.TE_BLD_MERGED, R.TE_BLD_PAGES, R.TE_BLD_RECON, R.TE_BLD_REPLAY, R.TE_BLD_TORN, R.TE_STS] <;> omega) | split | dsimp only)

theorem execSanitize_keeps {m : Nat} {x : State} {a0 : Nat} {s : State} (hm : Nat.land 314447827697422 m = 314447827697422)
    (h : Same m x s) : Ends m x (execSanitize a0 s) := by
  unfold execSanitize
  repeat' (first | with_reducible exact list_ok_nil | with_reducible refine list_ok_cons ?_ ?_ | with_reducible refine list_ok_append ?_ ?_ | with_reducible exact pc_ok | with_reducible refine range_ok ?_ | with_reducible assumption | intro _ | with_reducible apply ends_next | with_reducible apply ends_ite | with_reducible apply same_ite | with_reducible apply same_foldl | with_reducible apply thenState_keeps | with_reducible refine State.mgrCmd_keeps (sub_of hm rfl) ?_ ?_ | with_reducible refine State.mbox_keeps (sub_of hm rfl) ?_ | with_reducible refine State.bgStart_keeps (sub_of hm rfl) ?_ | with_reducible refine State.disableNow_keeps (sub_of hm rfl) ?_ | with_reducible refine State.supply_keeps (sub_of hm rfl) ?_ | with_reducible refine State.zero_keeps (sub_of hm rfl) ?_ ?_ | with_reducible refine State.staleShow_keeps (sub_of hm rfl) ?_ | with_reducible refine State.format_keeps (sub_of hm rfl) ?_ | with_reducible refine State.closeRegions_keeps (sub_of hm rfl) ?_ | with_reducible refine State.tsStatus_keeps (sub_of hm rfl) ?_ | with_reducible refine State.setDirty_keeps (sub_of hm rfl) ?_ | with_reducible refine State.setBit_keeps (sub_of hm rfl) ?_ ?_ | with_reducible refine State.bgDone_keeps (sub_of hm rfl) ?_ | with_reducible refine State.pump_keeps (sub_of hm rfl) ?_ | fail_if_no_progress with_reducible refine upd_lc (sub_of hm rfl) ?_ | with_reducible exact R.BOOT_STS_ok (sub_of hm rfl) | with_reducible exact R.CAR_STS_ok (sub_of hm rfl) | with_reducible exact R.LC_DIRTY_CNT_ok (sub_of hm rfl) | with_reducible exact R.LC_LOCK_CNT_ok (sub_of hm rfl) | with_reducible exact R.RT_RG_CTL_ok (sub_of hm rfl) | (with_reducible refine regOk_of (c := 1) (sub_of hm rfl) (blk1 ?_ ?_) <;> simp only [R.BOOT_STS] <;> omega) | (with_reducible refine regOk_of (c := 8) (sub_of hm rfl) (blk8 ?_ ?_) <;> simp only [R.LC_DIRTY_CNT, R.LC_LOCK_CNT] <;> omega) | split | dsimp only)

theorem execAuxRise_keeps {m : Nat} {x : State} {s : State} (hm : Nat.land 64 m = 64)
    (h : Same m x s) : Ends m x (execAuxRise s) := by
  unfold execAuxRise
  repeat' (first | with_reducible assumption | intro _ | with_reducible apply ends_next | fail_if_no_progress with_reducible refine upd_dom (sub_of hm rfl) ?_ | split | dsimp only)

theorem execAuxFall_keeps {m : Nat} {x : State} {s : State} (hm : Nat.land 562949953421278 m = 562949953421278)
    (h : Same m x s) : Ends m x (execAuxFall s) := by
  unfold execAuxFall
  repeat' (first | with_reducible assumption | intro _ | with_reducible apply ends_next | with_reducible apply ends_ite | with_reducible apply same_ite | with_reducible apply same_foldl | with_reducible refine State.auxReset_keeps (sub_of hm rfl) ?_ | with_reducible refine State.emit_keeps (sub_of hm rfl) ?_ | exact regOk_all (sub_of hm rfl) _ | split | dsimp only)

theorem execAonReady_keeps {m : Nat} {x : State} {a0 : Bool} {a1 : List (BitVec 24 × Word)} {s : State} (hm : Nat.land 562949917868874 m = 562949917868874)
    (h : Same m x s) : Ends m x (execAonReady a0 a1 s) := by
  unfold execAonReady
  repeat' (first | with_reducible assumption | intro _ | with_reducible apply ends_next | with_reducible apply ends_ite | with_reducible apply same_ite | with_reducible apply same_foldl | with_reducible refine State.cfgLoad_keeps (sub_of hm rfl) ?_ | with_reducible refine State.wrN_keeps (sub_of hm rfl) ?_ ?_ | with_reducible refine State.emit_keeps (sub_of hm rfl) ?_ | with_reducible refine State.monitorReady_keeps (sub_of hm rfl) ?_ | with_reducible refine State.storeReady_keeps (sub_of hm rfl) ?_ | with_reducible refine State.lockout_keeps (sub_of hm rfl) ?_ | with_reducible refine State.setBit_keeps (sub_of hm rfl) ?_ ?_ | with_reducible refine State.onRequest_keeps (sub_of hm rfl) ?_ | fail_if_no_progress with_reducible refine upd_psq (sub_of hm rfl) ?_ | fail_if_no_progress with_reducible refine upd_dom_boot (sub_of hm rfl) ?_ | with_reducible exact R.OOB_ADDR_ok (sub_of hm rfl) | with_reducible exact R.PSQ_STS_ok (sub_of hm rfl) | (with_reducible refine regOk_of (c := 1) (sub_of hm rfl) (blk1 ?_ ?_) <;> simp only [R.OOB_ADDR] <;> omega) | (with_reducible refine regOk_of (c := 3) (sub_of hm rfl) (blk3 ?_ ?_) <;> simp only [R.PSQ_STS] <;> omega) | exact regOk_all (sub_of hm rfl) _ | split | dsimp only)

theorem execConfigurationLoaded_keeps {m : Nat} {x : State} {a0 : Option CfgImage} {a1 : Option CfgImage} {a2 : List (BitVec 24 × Word)} {s : State} (hm : Nat.land 562949908654606 m = 562949908654606)
    (h : Same m x s) : Ends m x (execConfigurationLoaded a0 a1 a2 s) := by
  unfold execConfigurationLoaded
  repeat' (first | with_reducible assumption | intro _ | with_reducible apply ends_next | with_reducible apply ends_ite | with_reducible apply same_ite | with_reducible apply same_foldl | with_reducible refine State.bootHalt_keeps (sub_of hm rfl) ?_ | with_reducible refine State.cfgLoad_keeps (sub_of hm rfl) ?_ | with_reducible refine State.portsLoad_keeps (sub_of hm rfl) ?_ | with_reducible refine State.poolsLoad_keeps (sub_of hm rfl) ?_ | with_reducible refine State.govLoad_keeps (sub_of hm rfl) ?_ | with_reducible refine State.regionLoad_keeps (sub_of hm rfl) ?_ | with_reducible refine State.setBit_keeps (sub_of hm rfl) ?_ ?_ | with_reducible refine State.mgShow_keeps (sub_of hm rfl) ?_ | with_reducible refine State.trainStart_keeps (sub_of hm rfl) ?_ | with_reducible refine State.set_keeps (sub_of hm rfl) ?_ ?_ | with_reducible refine State.emit_keeps (sub_of hm rfl) ?_ | fail_if_no_progress with_reducible refine upd_sir_boot (sub_of hm rfl) ?_ | with_reducible exact R.BOOT_STS_ok (sub_of hm rfl) | with_reducible exact R.DC_STS_ok (sub_of hm rfl) | with_reducible exact R.MC_CTL_ok (sub_of hm rfl) | with_reducible exact R.MC_DIES_ok (sub_of hm rfl) | with_reducible exact R.MC_STS_ok (sub_of hm rfl) | (with_reducible refine regOk_of (c := 1) (sub_of hm rfl) (blk1 ?_ ?_) <;> simp only [R.BOOT_STS] <;> omega) | (with_reducible refine regOk_of (c := 14) (sub_of hm rfl) (blk14 ?_ ?_) <;> simp only [R.DC_STS] <;> omega) | (with_reducible refine regOk_of (c := 17) (sub_of hm rfl) (blk17 ?_ ?_) <;> simp only [R.MC_CTL, R.MC_DIES, R.MC_STS] <;> omega) | exact regOk_all (sub_of hm rfl) _ | split | dsimp only)

theorem execFirmwareVerified_keeps {m : Nat} {x : State} {a0 : Bool} {a1 : Bool} {a2 : Bool} {s : State} (hm : Nat.land 36494689477390 m = 36494689477390)
    (h : Same m x s) : Ends m x (execFirmwareVerified a0 a1 a2 s) := by
  unfold execFirmwareVerified
  repeat' (first | with_reducible assumption | intro _ | with_reducible apply ends_next | with_reducible apply ends_ite | with_reducible apply same_ite | with_reducible apply same_foldl | with_reducible refine State.drawn_keeps (sub_of hm rfl) ?_ | with_reducible refine State.roll_keeps (sub_of hm rfl) ?_ | with_reducible refine State.bootHalt_keeps (sub_of hm rfl) ?_ | with_reducible refine State.setBit_keeps (sub_of hm rfl) ?_ ?_ | with_reducible refine State.set_keeps (sub_of hm rfl) ?_ ?_ | with_reducible refine State.leadShow_keeps (sub_of hm rfl) ?_ | with_reducible refine State.dramPhase_keeps (sub_of hm rfl) ?_ | with_reducible exact R.BOOT_STS_ok (sub_of hm rfl) | with_reducible exact R.CORE_STS_ok (sub_of hm rfl) | with_reducible exact R.FC_STS_ok | (with_reducible refine regOk_of (c := 1) (sub_of hm rfl) (blk1 ?_ ?_) <;> simp only [R.BOOT_STS] <;> omega) | (with_reducible refine regOk_of (c := 18) (sub_of hm rfl) (blk18 ?_ ?_) <;> simp only [R.CORE_STS] <;> omega) | split | dsimp only)

theorem execMemoryActive_keeps {m : Nat} {x : State} {s : State} (hm : Nat.land 562949937823566 m = 562949937823566)
    (h : Same m x s) : Ends m x (execMemoryActive s) := by
  unfold execMemoryActive
  repeat' (first | with_reducible assumption | intro _ | with_reducible apply ends_next | with_reducible apply ends_ite | with_reducible apply same_ite | with_reducible apply same_when | with_reducible apply same_foldl | with_reducible refine State.set_keeps (sub_of hm rfl) ?_ ?_ | with_reducible refine State.setBit_keeps (sub_of hm rfl) ?_ ?_ | with_reducible refine State.wrN_keeps (sub_of hm rfl) ?_ ?_ | with_reducible refine State.pump_keeps (sub_of hm rfl) ?_ | with_reducible refine State.tsStatus_keeps (sub_of hm rfl) ?_ | with_reducible refine State.lockAll_keeps (sub_of hm rfl) ?_ | fail_if_no_progress with_reducible refine upd_dom (sub_of hm rfl) ?_ | with_reducible exact R.BOOT_MS_ACTIVE_ok (sub_of hm rfl) | with_reducible exact R.BOOT_STS_ok (sub_of hm rfl) | with_reducible exact R.CE_RG_SLOT_ok (sub_of hm rfl) | with_reducible exact R.HP_STS_ok (sub_of hm rfl) | with_reducible exact R.LC_STS_ok (sub_of hm rfl) | with_reducible exact R.RT_RG_CTL_ok (sub_of hm rfl) | with_reducible exact R.TE_STS_ok (sub_of hm rfl) | (with_reducible refine regOk_of (c := 1) (sub_of hm rfl) (blk1 ?_ ?_) <;> simp only [R.BOOT_MS_ACTIVE, R.BOOT_STS] <;> omega) | (with_reducible refine regOk_of (c := 13) (sub_of hm rfl) (blk13 ?_ ?_) <;> simp only [R.HP_STS] <;> omega) | exact regOk_all (sub_of hm rfl) _ | split | dsimp only)

theorem execDevRstNAssert_keeps {m : Nat} {x : State} {s : State} (hm : Nat.land 562949953421150 m = 562949953421150)
    (h : Same m x s) : Ends m x (execDevRstNAssert s) := by
  unfold execDevRstNAssert
  repeat' (first | with_reducible assumption | intro _ | with_reducible apply ends_next | with_reducible apply ends_ite | with_reducible apply same_ite | with_reducible refine State.coreReset_keeps (sub_of hm rfl) ?_ | with_reducible refine State.resetDown_keeps (sub_of hm rfl) ?_ | fail_if_no_progress with_reducible refine upd_boot (sub_of hm rfl) ?_ | fail_if_no_progress with_reducible refine upd_tick (sub_of hm rfl) ?_ | exact regOk_all (sub_of hm rfl) _ | split | dsimp only)

theorem execDevRstNRelease_keeps {m : Nat} {x : State} {a0 : Bool} {s : State} (hm : Nat.land 10571341743950 m = 10571341743950)
    (h : Same m x s) : Ends m x (execDevRstNRelease a0 s) := by
  unfold execDevRstNRelease
  repeat' (first | with_reducible assumption | intro _ | with_reducible apply ends_next | with_reducible apply ends_ite | with_reducible apply same_ite | with_reducible refine State.coreStart_keeps (sub_of hm rfl) ?_ | fail_if_no_progress with_reducible refine upd_boot (sub_of hm rfl) ?_ | split | dsimp only)

theorem execBootCtlReset_keeps {m : Nat} {x : State} {a0 : Path} {a1 : Word} {s : State} (hm : Nat.land 549839765514 m = 549839765514)
    (h : Same m x s) : Ends m x (execBootCtlReset a0 a1 s) := by
  unfold execBootCtlReset
  repeat' (first | with_reducible assumption | intro _ | with_reducible apply ends_next | with_reducible apply ends_ite | with_reducible apply same_ite | with_reducible refine State.regAcc_keeps (sub_of hm rfl) ?_ | with_reducible refine State.sendDown_keeps (sub_of hm rfl) ?_ | fail_if_no_progress with_reducible refine upd_boot (sub_of hm rfl) ?_ | split | dsimp only)

theorem execRegisterResetExecute_keeps {m : Nat} {x : State} {a0 : Bool} {s : State} (hm : Nat.land 562949953421150 m = 562949953421150)
    (h : Same m x s) : Ends m x (execRegisterResetExecute a0 s) := by
  unfold execRegisterResetExecute
  repeat' (first | with_reducible assumption | intro _ | with_reducible apply ends_next | with_reducible apply ends_ite | with_reducible apply same_ite | with_reducible refine State.settleReqs_keeps (sub_of hm rfl) ?_ | with_reducible refine State.coreReset_keeps (sub_of hm rfl) ?_ | with_reducible refine State.coreStart_keeps (sub_of hm rfl) ?_ | exact regOk_all (sub_of hm rfl) _ | split | dsimp only)

end Sys2Proof.Machine
end

