-- ==== Sys2Proof/Laws/FrameCache.lean ====
section
/-! SUPPORT. The frame of every operation of Machine/Cache.lean, as a mask of the kinds of state that it may change. -/

set_option autoImplicit false
set_option linter.unusedTactic false
set_option linter.unreachableTactic false
set_option linter.unnecessarySeqFocus false
set_option linter.unusedSimpArgs false
set_option linter.unusedVariables false

namespace Sys2Proof.Machine

theorem State.dropBufs_keeps {m : Nat} {x : State} {s : State} {a1 : WalkOp} (hm : Nat.land 137506134026 m = 137506134026)
    (h : Same m x s) : Same m x (State.dropBufs s a1) := by
  unfold State.dropBufs
  repeat' (first | with_reducible assumption | intro _ | with_reducible refine State.release_keeps (sub_of hm rfl) ?_ | fail_if_no_progress with_reducible refine upd_lc (sub_of hm rfl) ?_ | split | dsimp only)

theorem State.lcEnable_keeps {m : Nat} {x : State} {s : State} (hm : Nat.land 171865801224 m = 171865801224)
    (h : Same m x s) : Same m x (State.lcEnable s) := by
  unfold State.lcEnable
  repeat' (first | with_reducible assumption | intro _ | with_reducible apply same_ite | with_reducible refine State.setBit_keeps (sub_of hm rfl) ?_ ?_ | with_reducible refine State.roll_keeps (sub_of hm rfl) ?_ | with_reducible refine State.overEnter_keeps (sub_of hm rfl) ?_ | with_reducible refine State.tsStatus_keeps (sub_of hm rfl) ?_ | with_reducible refine State.charge_keeps (sub_of hm rfl) ?_ | with_reducible exact R.LC_CTL_ok (sub_of hm rfl) | with_reducible exact R.LC_STS_ok (sub_of hm rfl) | (with_reducible refine regOk_of (c := 8) (sub_of hm rfl) (blk8 ?_ ?_) <;> simp only [R.LC_CTL, R.LC_STS] <;> omega) | split | dsimp only)

theorem State.lcUnlock_keeps {m : Nat} {x : State} {s : State} {a1 : Nat} {a2 : Nat} (hm : Nat.land 34359742472 m = 34359742472)
    (h : Same m x s) : Same m x (State.lcUnlock s a1 a2) := by
  unfold State.lcUnlock
  repeat' (first | with_reducible assumption | intro _ | with_reducible apply same_ite | with_reducible refine State.subCnt_keeps (sub_of hm rfl) ?_ ?_ | with_reducible refine State.setWay_keeps (sub_of hm rfl) ?_ | with_reducible exact R.LC_LOCK_CNT_ok (sub_of hm rfl) | (with_reducible refine regOk_of (c := 8) (sub_of hm rfl) (blk8 ?_ ?_) <;> simp only [R.LC_LOCK_CNT] <;> omega) | split | dsimp only)

theorem State.lockLine_keeps {m : Nat} {x : State} {s : State} {a1 : Nat} {a2 : List Upset} (hm : Nat.land 19486350622478 m = 19486350622478)
    (h : Same m x s) : Same m x (State.lockLine s a1 a2).2 := by
  unfold State.lockLine
  repeat' (first | with_reducible assumption | intro _ | with_reducible apply same_ite | with_reducible apply same2_ite | with_reducible refine State.bump_keeps (sub_of hm rfl) ?_ ?_ | with_reducible refine State.addCnt_keeps (sub_of hm rfl) ?_ ?_ | with_reducible refine State.setWay_keeps (sub_of hm rfl) ?_ | with_reducible refine State.lcAllocate_keeps (sub_of hm rfl) ?_ | with_reducible refine State.lcAllocate_keeps_eq (sub_of hm rfl) (by assumption) ?_ | with_reducible refine State.lcPut_keeps (sub_of hm rfl) ?_ | with_reducible refine State.lcEmpty_keeps (sub_of hm rfl) ?_ | with_reducible exact R.LC_CTL_ok (sub_of hm rfl) | with_reducible exact R.LC_FILL_DROP_ok (sub_of hm rfl) | with_reducible exact R.LC_LOCK_CNT_ok (sub_of hm rfl) | with_reducible exact R.LC_LOCK_FAIL_ok (sub_of hm rfl) | with_reducible exact R.LC_LOCK_MAX_ok (sub_of hm rfl) | with_reducible exact R.LC_LOCK_WAYS_ok (sub_of hm rfl) | with_reducible exact R.LC_STS_ok (sub_of hm rfl) | with_reducible exact R.RT_RG_CTL_ok (sub_of hm rfl) | (with_reducible refine regOk_of (c := 8) (sub_of hm rfl) (blk8 ?_ ?_) <;> simp only [R.LC_CTL, R.LC_FILL_DROP, R.LC_LOCK_CNT, R.LC_LOCK_FAIL, R.LC_LOCK_MAX, R.LC_LOCK_WAYS, R.LC_STS] <;> omega) | split | dsimp only)

theorem State.lockLine_keeps_eq {m : Nat} {x : State} {s : State} {a1 : Nat} {a2 : List Upset} {u : Bool} {t : State} (hm : Nat.land 19486350622478 m = 19486350622478)
    (e : State.lockLine s a1 a2 = (u, t)) (h : Same m x s) : Same m x t := by
  have := State.lockLine_keeps hm h (a1 := a1) (a2 := a2)
  rwa [e] at this

theorem State.rangeStart_keeps {m : Nat} {x : State} {s : State} {a1 : Nat} {a2 : RangeSrc} (hm : Nat.land 1133972066314 m = 1133972066314)
    (h : Same m x s) : Same m x (State.rangeStart s a1 a2) := by
  unfold State.rangeStart
  repeat' (first | with_reducible exact list_ok_nil | with_reducible refine list_ok_cons ?_ ?_ | with_reducible refine list_ok_append ?_ ?_ | with_reducible exact pc_ok | with_reducible refine range_ok ?_ | with_reducible assumption | intro _ | with_reducible apply same_ite | with_reducible refine State.regAcc_keeps (sub_of hm rfl) ?_ | with_reducible refine State.set_keeps (sub_of hm rfl) ?_ ?_ | with_reducible refine State.setBit_keeps (sub_of hm rfl) ?_ ?_ | with_reducible refine State.wrN_keeps (sub_of hm rfl) ?_ ?_ | with_reducible refine State.leased_keeps (sub_of hm rfl) ?_ | with_reducible refine State.zero_keeps (sub_of hm rfl) ?_ ?_ | with_reducible refine State.mbox_keeps (sub_of hm rfl) ?_ | with_reducible refine State.bgStart_keeps (sub_of hm rfl) ?_ | fail_if_no_progress with_reducible refine upd_lc (sub_of hm rfl) ?_ | with_reducible exact R.HP_STS_ok (sub_of hm rfl) | with_reducible exact R.LC_RANGE_BASE_HI_ok (sub_of hm rfl) | with_reducible exact R.LC_RANGE_BASE_LO_ok (sub_of hm rfl) | with_reducible exact R.LC_RANGE_CTL_ok (sub_of hm rfl) | with_reducible exact R.LC_RANGE_DONE_ok (sub_of hm rfl) | with_reducible exact R.LC_RANGE_LEN_HI_ok (sub_of hm rfl) | with_reducible exact R.LC_RANGE_LEN_LO_ok (sub_of hm rfl) | with_reducible exact R.LC_RANGE_SKIPPED_ok (sub_of hm rfl) | with_reducible exact R.LC_RANGE_STS_ok (sub_of hm rfl) | with_reducible exact R.RT_RG_CTL_ok (sub_of hm rfl) | (with_reducible refine regOk_of (c := 8) (sub_of hm rfl) (blk8 ?_ ?_) <;> simp only [R.LC_RANGE_BASE_HI, R.LC_RANGE_BASE_LO, R.LC_RANGE_CTL, R.LC_RANGE_DONE, R.LC_RANGE_LEN_HI, R.LC_RANGE_LEN_LO, R.LC_RANGE_SKIPPED, R.LC_RANGE_STS] <;> omega) | split | dsimp only)

theorem State.walkBack_keeps {m : Nat} {x : State} {s : State} {a1 : Nat} {a2 : Nat} {a3 : List Upset} (hm : Nat.land 19486350622478 m = 19486350622478)
    (h : Same m x s) : Same m x (State.walkBack s a1 a2 a3).2 := by
  unfold State.walkBack
  repeat' (first | with_reducible assumption | intro _ | with_reducible apply same_ite | with_reducible apply same2_ite | with_reducible refine State.wayRead_keeps (sub_of hm rfl) ?_ | with_reducible refine State.wayRead_keeps_eq (sub_of hm rfl) (by assumption) ?_ | with_reducible refine State.lcWriteBack_keeps (sub_of hm rfl) ?_ | split | dsimp only)

theorem State.walkBack_keeps_eq {m : Nat} {x : State} {s : State} {a1 : Nat} {a2 : Nat} {a3 : List Upset} {u : Bool} {t : State} (hm : Nat.land 19486350622478 m = 19486350622478)
    (e : State.walkBack s a1 a2 a3 = (u, t)) (h : Same m x s) : Same m x t := by
  have := State.walkBack_keeps hm h (a1 := a1) (a2 := a2) (a3 := a3)
  rwa [e] at this

theorem State.walkEnd_keeps {m : Nat} {x : State} {s : State} {a1 : WalkOp} (hm : Nat.land 1133972075018 m = 1133972075018)
    (h : Same m x s) : Same m x (State.walkEnd s a1) := by
  unfold State.walkEnd
  repeat' (first | with_reducible assumption | intro _ | with_reducible apply same_ite | with_reducible apply same_when | with_reducible refine State.pcEvent_keeps (sub_of hm rfl) ?_ | with_reducible refine State.bgDone_keeps (sub_of hm rfl) ?_ | with_reducible refine State.roll_keeps (sub_of hm rfl) ?_ | with_reducible refine State.setBit_keeps (sub_of hm rfl) ?_ ?_ | with_reducible refine State.set_keeps (sub_of hm rfl) ?_ ?_ | fail_if_no_progress with_reducible refine upd_lc (sub_of hm rfl) ?_ | fail_if_no_progress with_reducible refine upd_te (sub_of hm rfl) ?_ | with_reducible exact R.LC_CTL_ok (sub_of hm rfl) | with_reducible exact R.LC_RANGE_CTL_ok (sub_of hm rfl) | with_reducible exact R.LC_RANGE_SKIPPED_ok (sub_of hm rfl) | with_reducible exact R.LC_RANGE_STS_ok (sub_of hm rfl) | with_reducible exact R.LC_STS_ok (sub_of hm rfl) | (with_reducible refine regOk_of (c := 8) (sub_of hm rfl) (blk8 ?_ ?_) <;> simp only [R.LC_CTL, R.LC_RANGE_CTL, R.LC_RANGE_SKIPPED, R.LC_RANGE_STS, R.LC_STS] <;> omega) | split | dsimp only)

theorem State.walkWay_keeps {m : Nat} {x : State} {s : State} {a1 : WalkOp} {a2 : Nat} {a3 : Nat} {a4 : List Upset} (hm : Nat.land 19486350622478 m = 19486350622478)
    (h : Same m x s) : Same m x (State.walkWay s a1 a2 a3 a4).2 := by
  unfold State.walkWay
  repeat' (first | with_reducible assumption | intro _ | with_reducible apply same_ite | with_reducible apply same_dite | with_reducible apply same2_ite | with_reducible refine State.walkBack_keeps (sub_of hm rfl) ?_ | with_reducible refine State.walkBack_keeps_eq (sub_of hm rfl) (by assumption) ?_ | with_reducible refine State.lcInvalidate_keeps (sub_of hm rfl) ?_ | with_reducible refine State.lcUnlock_keeps (sub_of hm rfl) ?_ | split | dsimp only)

theorem State.walkWay_keeps_eq {m : Nat} {x : State} {s : State} {a1 : WalkOp} {a2 : Nat} {a3 : Nat} {a4 : List Upset} {u : (Bool × Nat × Nat)} {t : State} (hm : Nat.land 19486350622478 m = 19486350622478)
    (e : State.walkWay s a1 a2 a3 a4 = (u, t)) (h : Same m x s) : Same m x t := by
  have := State.walkWay_keeps hm h (a1 := a1) (a2 := a2) (a3 := a3) (a4 := a4)
  rwa [e] at this

theorem State.walkSet_keeps {m : Nat} {x : State} {s : State} {a1 : WalkOp} {a2 : Nat} {a3 : Nat} {a4 : List Upset} (hm : Nat.land 19486350622478 m = 19486350622478)
    (h : Same m x s) : Same m x (State.walkSet s a1 a2 a3 a4).2 := by
  unfold State.walkSet
  repeat' (first | with_reducible assumption | intro _ | with_reducible apply same_ite | with_reducible apply same_foldl | with_reducible apply same2_ite | with_reducible apply same_foldl2 | with_reducible refine State.walkWay_keeps (sub_of hm rfl) ?_ | with_reducible refine State.walkWay_keeps_eq (sub_of hm rfl) (by assumption) ?_ | split | dsimp only)

theorem State.walkSet_keeps_eq {m : Nat} {x : State} {s : State} {a1 : WalkOp} {a2 : Nat} {a3 : Nat} {a4 : List Upset} {u : SetVisit} {t : State} (hm : Nat.land 19486350622478 m = 19486350622478)
    (e : State.walkSet s a1 a2 a3 a4 = (u, t)) (h : Same m x s) : Same m x t := by
  have := State.walkSet_keeps hm h (a1 := a1) (a2 := a2) (a3 := a3) (a4 := a4)
  rwa [e] at this

theorem State.walkShow_keeps {m : Nat} {x : State} {s : State} {a1 : WalkOp} {a2 : Nat} (hm : Nat.land 34359738376 m = 34359738376)
    (h : Same m x s) : Same m x (State.walkShow s a1 a2) := by
  unfold State.walkShow
  repeat' (first | with_reducible assumption | intro _ | with_reducible apply same_ite | with_reducible refine State.setBit_keeps (sub_of hm rfl) ?_ ?_ | with_reducible refine State.set_keeps (sub_of hm rfl) ?_ ?_ | with_reducible refine State.wrN_keeps (sub_of hm rfl) ?_ ?_ | with_reducible exact R.LC_RANGE_DONE_ok (sub_of hm rfl) | with_reducible exact R.LC_RANGE_SKIPPED_ok (sub_of hm rfl) | with_reducible exact R.LC_RANGE_STS_ok (sub_of hm rfl) | (with_reducible refine regOk_of (c := 8) (sub_of hm rfl) (blk8 ?_ ?_) <;> simp only [R.LC_RANGE_DONE, R.LC_RANGE_SKIPPED, R.LC_RANGE_STS] <;> omega) | split | dsimp only)

theorem execLcEnClear_keeps {m : Nat} {x : State} {a0 : Path} {s : State} (hm : Nat.land 314447559261966 m = 314447559261966)
    (h : Same m x s) : Ends m x (execLcEnClear a0 s) := by
  unfold execLcEnClear
  repeat' (first | with_reducible assumption | intro _ | with_reducible apply ends_next | with_reducible apply ends_ite | with_reducible apply same_ite | with_reducible refine State.regAcc_keeps (sub_of hm rfl) ?_ | with_reducible refine State.setBit_keeps (sub_of hm rfl) ?_ ?_ | with_reducible refine State.pump_keeps (sub_of hm rfl) ?_ | with_reducible refine State.release_keeps (sub_of hm rfl) ?_ | with_reducible exact R.LC_CTL_ok (sub_of hm rfl) | with_reducible exact R.LC_STS_ok (sub_of hm rfl) | (with_reducible refine regOk_of (c := 8) (sub_of hm rfl) (blk8 ?_ ?_) <;> simp only [R.LC_CTL, R.LC_STS] <;> omega) | split | dsimp only)

theorem execLcEnSet_keeps {m : Nat} {x : State} {a0 : Path} {s : State} (hm : Nat.land 171865805320 m = 171865805320)
    (h : Same m x s) : Ends m x (execLcEnSet a0 s) := by
  unfold execLcEnSet
  repeat' (first | with_reducible assumption | intro _ | with_reducible apply ends_next | with_reducible apply ends_ite | with_reducible apply same_ite | with_reducible refine State.regAcc_keeps (sub_of hm rfl) ?_ | with_reducible refine State.lcEnable_keeps (sub_of hm rfl) ?_ | fail_if_no_progress with_reducible refine upd_lc (sub_of hm rfl) ?_ | split | dsimp only)

theorem execSafeDisable_keeps {m : Nat} {x : State} {a0 : Path} {s : State} (hm : Nat.land 34426851336 m = 34426851336)
    (h : Same m x s) : Ends m x (execSafeDisable a0 s) := by
  unfold execSafeDisable
  repeat' (first | with_reducible assumption | intro _ | with_reducible apply ends_next | with_reducible apply ends_ite | with_reducible apply same_ite | with_reducible refine State.regAcc_keeps (sub_of hm rfl) ?_ | with_reducible refine State.setBit_keeps (sub_of hm rfl) ?_ ?_ | with_reducible refine State.leased_keeps (sub_of hm rfl) ?_ | fail_if_no_progress with_reducible refine upd_lc (sub_of hm rfl) ?_ | with_reducible exact R.LC_CTL_ok (sub_of hm rfl) | with_reducible exact R.LC_STS_ok (sub_of hm rfl) | (with_reducible refine regOk_of (c := 8) (sub_of hm rfl) (blk8 ?_ ?_) <;> simp only [R.LC_CTL, R.LC_STS] <;> omega) | split | dsimp only)

theorem execRangeInvalidate_keeps {m : Nat} {x : State} {a0 : RangeSrc} {s : State} (hm : Nat.land 1133972066314 m = 1133972066314)
    (h : Same m x s) : Ends m x (execRangeInvalidate a0 s) := by
  unfold execRangeInvalidate
  repeat' (first | with_reducible assumption | intro _ | with_reducible apply ends_next | with_reducible refine State.rangeStart_keeps (sub_of hm rfl) ?_ | split | dsimp only)

theorem execRangeClean_keeps {m : Nat} {x : State} {a0 : RangeSrc} {s : State} (hm : Nat.land 1133972066314 m = 1133972066314)
    (h : Same m x s) : Ends m x (execRangeClean a0 s) := by
  unfold execRangeClean
  repeat' (first | with_reducible assumption | intro _ | with_reducible apply ends_next | with_reducible refine State.rangeStart_keeps (sub_of hm rfl) ?_ | split | dsimp only)

theorem execRangeCleanInv_keeps {m : Nat} {x : State} {a0 : RangeSrc} {s : State} (hm : Nat.land 1133972066314 m = 1133972066314)
    (h : Same m x s) : Ends m x (execRangeCleanInv a0 s) := by
  unfold execRangeCleanInv
  repeat' (first | with_reducible assumption | intro _ | with_reducible apply ends_next | with_reducible refine State.rangeStart_keeps (sub_of hm rfl) ?_ | split | dsimp only)

theorem execRangeLock_keeps {m : Nat} {x : State} {a0 : RangeSrc} {s : State} (hm : Nat.land 1133972066314 m = 1133972066314)
    (h : Same m x s) : Ends m x (execRangeLock a0 s) := by
  unfold execRangeLock
  repeat' (first | with_reducible assumption | intro _ | with_reducible apply ends_next | with_reducible refine State.rangeStart_keeps (sub_of hm rfl) ?_ | split | dsimp only)

theorem execRangeUnlock_keeps {m : Nat} {x : State} {a0 : RangeSrc} {s : State} (hm : Nat.land 1133972066314 m = 1133972066314)
    (h : Same m x s) : Ends m x (execRangeUnlock a0 s) := by
  unfold execRangeUnlock
  repeat' (first | with_reducible assumption | intro _ | with_reducible apply ends_next | with_reducible refine State.rangeStart_keeps (sub_of hm rfl) ?_ | split | dsimp only)

theorem execRangeZero_keeps {m : Nat} {x : State} {a0 : RangeSrc} {s : State} (hm : Nat.land 1133972066314 m = 1133972066314)
    (h : Same m x s) : Ends m x (execRangeZero a0 s) := by
  unfold execRangeZero
  repeat' (first | with_reducible assumption | intro _ | with_reducible apply ends_next | with_reducible refine State.rangeStart_keeps (sub_of hm rfl) ?_ | split | dsimp only)

theorem execWalkerTakeOperation_keeps {m : Nat} {x : State} {s : State} (hm : Nat.land 34426851336 m = 34426851336)
    (h : Same m x s) : Ends m x (execWalkerTakeOperation s) := by
  unfold execWalkerTakeOperation
  repeat' (first | with_reducible assumption | intro _ | with_reducible apply ends_next | with_reducible apply ends_ite | with_reducible apply same_ite | with_reducible refine State.pcEvent_keeps (sub_of hm rfl) ?_ | with_reducible refine State.setBit_keeps (sub_of hm rfl) ?_ ?_ | fail_if_no_progress with_reducible refine upd_lc (sub_of hm rfl) ?_ | with_reducible exact R.LC_RANGE_STS_ok (sub_of hm rfl) | (with_reducible refine regOk_of (c := 8) (sub_of hm rfl) (blk8 ?_ ?_) <;> simp only [R.LC_RANGE_STS] <;> omega) | split | dsimp only)

theorem execWalkerVisit_keeps {m : Nat} {x : State} {a0 : List Upset} {s : State} (hm : Nat.land 314447559261966 m = 314447559261966)
    (h : Same m x s) : Ends m x (execWalkerVisit a0 s) := by
  unfold execWalkerVisit
  repeat' (first | with_reducible assumption | intro _ | with_reducible apply ends_next | with_reducible apply ends_ite | with_reducible apply same_ite | with_reducible apply same2_ite | with_reducible refine State.lockLine_keeps (sub_of hm rfl) ?_ | with_reducible refine State.lockLine_keeps_eq (sub_of hm rfl) (by assumption) ?_ | with_reducible refine State.enqueue_keeps (sub_of hm rfl) ?_ | with_reducible refine State.walkShow_keeps (sub_of hm rfl) ?_ | with_reducible refine State.pump_keeps (sub_of hm rfl) ?_ | with_reducible refine State.walkEnd_keeps (sub_of hm rfl) ?_ | with_reducible refine State.walkSet_keeps (sub_of hm rfl) ?_ | with_reducible refine State.walkSet_keeps_eq (sub_of hm rfl) (by assumption) ?_ | with_reducible refine State.dropBufs_keeps (sub_of hm rfl) ?_ | fail_if_no_progress with_reducible refine upd_lc (sub_of hm rfl) ?_ | split | dsimp only)

theorem execLcCheckWalkDone_keeps {m : Nat} {x : State} {a0 : List (Fin 65536 × Upset)} {s : State} (hm : Nat.land 171882651150 m = 171882651150)
    (h : Same m x s) : Ends m x (execLcCheckWalkDone a0 s) := by
  unfold execLcCheckWalkDone
  repeat' (first | with_reducible assumption | intro _ | with_reducible apply ends_next | with_reducible apply ends_ite | with_reducible apply same_ite | with_reducible apply same_foldl | with_reducible refine State.tagUpsets_keeps (sub_of hm rfl) ?_ | with_reducible refine State.setBit_keeps (sub_of hm rfl) ?_ ?_ | with_reducible refine State.wrN_keeps (sub_of hm rfl) ?_ ?_ | with_reducible exact R.LC_DIRTY_CNT_ok (sub_of hm rfl) | with_reducible exact R.LC_LOCK_CNT_ok (sub_of hm rfl) | with_reducible exact R.LC_STS_ok (sub_of hm rfl) | (with_reducible refine regOk_of (c := 8) (sub_of hm rfl) (blk8 ?_ ?_) <;> simp only [R.LC_DIRTY_CNT, R.LC_LOCK_CNT, R.LC_STS] <;> omega) | split | dsimp only)

theorem execLcCntClr_keeps {m : Nat} {x : State} {a0 : Path} {a1 : Word} {s : State} (hm : Nat.land 34426847240 m = 34426847240)
    (h : Same m x s) : Ends m x (execLcCntClr a0 a1 s) := by
  unfold execLcCntClr
  repeat' (first | with_reducible exact list_ok_nil | with_reducible refine list_ok_cons ?_ ?_ | with_reducible refine list_ok_append ?_ ?_ | with_reducible exact pc_ok | with_reducible refine range_ok ?_ | with_reducible assumption | intro _ | with_reducible apply ends_next | with_reducible apply same_when | with_reducible refine State.regAcc_keeps (sub_of hm rfl) ?_ | with_reducible refine State.zero_keeps (sub_of hm rfl) ?_ ?_ | with_reducible exact R.LC_BYPASS_WR_ok (sub_of hm rfl) | with_reducible exact R.LC_CE_CNT_ok (sub_of hm rfl) | with_reducible exact R.LC_FILL_DROP_ok (sub_of hm rfl) | with_reducible exact R.LC_HIT_RD_ok (sub_of hm rfl) | with_reducible exact R.LC_HIT_WR_ok (sub_of hm rfl) | with_reducible exact R.LC_LOCK_FAIL_ok (sub_of hm rfl) | with_reducible exact R.LC_MISS_RD_ok (sub_of hm rfl) | with_reducible exact R.LC_MISS_WR_ok (sub_of hm rfl) | with_reducible exact R.LC_TAG_PE_CNT_ok (sub_of hm rfl) | with_reducible exact R.LC_UE_CNT_ok (sub_of hm rfl) | (with_reducible refine regOk_of (c := 8) (sub_of hm rfl) (blk8 ?_ ?_) <;> simp only [R.LC_BYPASS_WR, R.LC_CE_CNT, R.LC_FILL_DROP, R.LC_HIT_RD, R.LC_HIT_WR, R.LC_LOCK_FAIL, R.LC_MISS_RD, R.LC_MISS_WR, R.LC_TAG_PE_CNT, R.LC_UE_CNT] <;> omega) | split | dsimp only)

theorem execMapcEnClear_keeps {m : Nat} {x : State} {a0 : Path} {s : State} (hm : Nat.land 68786585608 m = 68786585608)
    (h : Same m x s) : Ends m x (execMapcEnClear a0 s) := by
  unfold execMapcEnClear
  repeat' (first | with_reducible assumption | intro _ | with_reducible apply ends_next | with_reducible apply ends_ite | with_reducible apply same_ite | with_reducible refine State.regAcc_keeps (sub_of hm rfl) ?_ | with_reducible refine State.mapcInvStart_keeps (sub_of hm rfl) ?_ | with_reducible refine State.setBit_keeps (sub_of hm rfl) ?_ ?_ | with_reducible exact R.MAPC_CTL_ok (sub_of hm rfl) | (with_reducible refine regOk_of (c := 9) (sub_of hm rfl) (blk9 ?_ ?_) <;> simp only [R.MAPC_CTL] <;> omega) | split | dsimp only)

theorem execMapcInv_keeps {m : Nat} {x : State} {a0 : Path} {s : State} (hm : Nat.land 68786585608 m = 68786585608)
    (h : Same m x s) : Ends m x (execMapcInv a0 s) := by
  unfold execMapcInv
  repeat' (first | with_reducible assumption | intro _ | with_reducible apply ends_next | with_reducible apply ends_ite | with_reducible apply same_ite | with_reducible refine State.regAcc_keeps (sub_of hm rfl) ?_ | with_reducible refine State.mapcInvStart_keeps (sub_of hm rfl) ?_ | split | dsimp only)

theorem execMapcInvDone_keeps {m : Nat} {x : State} {s : State} (hm : Nat.land 68719489032 m = 68719489032)
    (h : Same m x s) : Ends m x (execMapcInvDone s) := by
  unfold execMapcInvDone
  repeat' (first | with_reducible assumption | intro _ | with_reducible apply ends_next | with_reducible apply ends_ite | with_reducible apply same_ite | with_reducible refine State.wrN_keeps (sub_of hm rfl) ?_ ?_ | with_reducible refine State.setBit_keeps (sub_of hm rfl) ?_ ?_ | fail_if_no_progress with_reducible refine upd_lc (sub_of hm rfl) ?_ | fail_if_no_progress with_reducible refine upd_te (sub_of hm rfl) ?_ | with_reducible exact R.MAPC_CTL_ok (sub_of hm rfl) | with_reducible exact R.MAPC_STS_ok (sub_of hm rfl) | with_reducible exact R.MAPC_VALID_CNT_ok (sub_of hm rfl) | with_reducible exact R.SIR_CHK_CTL_ok (sub_of hm rfl) | with_reducible exact R.SIR_CHK_STS_ok (sub_of hm rfl) | (with_reducible refine regOk_of (c := 9) (sub_of hm rfl) (blk9 ?_ ?_) <;> simp only [R.MAPC_CTL, R.MAPC_STS, R.MAPC_VALID_CNT] <;> omega) | split | dsimp only)

theorem execMapcCntClr_keeps {m : Nat} {x : State} {a0 : Path} {a1 : Word} {s : State} (hm : Nat.land 68786585608 m = 68786585608)
    (h : Same m x s) : Ends m x (execMapcCntClr a0 a1 s) := by
  unfold execMapcCntClr
  repeat' (first | with_reducible exact list_ok_nil | with_reducible refine list_ok_cons ?_ ?_ | with_reducible refine list_ok_append ?_ ?_ | with_reducible exact pc_ok | with_reducible refine range_ok ?_ | with_reducible assumption | intro _ | with_reducible apply ends_next | with_reducible apply same_when | with_reducible refine State.regAcc_keeps (sub_of hm rfl) ?_ | with_reducible refine State.zero_keeps (sub_of hm rfl) ?_ ?_ | with_reducible exact R.MAPC_CE_CNT_ok (sub_of hm rfl) | with_reducible exact R.MAPC_HIT_ok (sub_of hm rfl) | with_reducible exact R.MAPC_MISS_ok (sub_of hm rfl) | with_reducible exact R.MAPC_UE_CNT_ok (sub_of hm rfl) | (with_reducible refine regOk_of (c := 9) (sub_of hm rfl) (blk9 ?_ ?_) <;> simp only [R.MAPC_CE_CNT, R.MAPC_HIT, R.MAPC_MISS, R.MAPC_UE_CNT] <;> omega) | split | dsimp only)

end Sys2Proof.Machine
end

