-- ==== Sys2Proof/Laws/FrameDie.lean ====
section
/-! SUPPORT. The frame of every operation of Machine/Die.lean, as a mask of the kinds of state that it may change. -/

set_option autoImplicit false
set_option linter.unusedTactic false
set_option linter.unreachableTactic false
set_option linter.unnecessarySeqFocus false
set_option linter.unusedSimpArgs false
set_option linter.unusedVariables false

namespace Sys2Proof.Machine

theorem State.sense_keeps {m : Nat} {x : State} {s : State} {a1 : Nat} {a2 : MDie} {a3 : DRead} {a4 : StoredLine} (hm : Nat.land 4 m = 4)
    (h : Same m x s) : Same m x (State.sense s a1 a2 a3 a4).2 := by
  unfold State.sense
  repeat' (first | with_reducible assumption | intro _ | with_reducible apply same_ite | with_reducible apply same2_ite | with_reducible refine State.drawn_keeps (sub_of hm rfl) ?_ | split | dsimp only)

theorem State.sense_keeps_eq {m : Nat} {x : State} {s : State} {a1 : Nat} {a2 : MDie} {a3 : DRead} {a4 : StoredLine} {u : StoredLine} {t : State} (hm : Nat.land 4 m = 4)
    (e : State.sense s a1 a2 a3 a4 = (u, t)) (h : Same m x s) : Same m x t := by
  have := State.sense_keeps hm h (a1 := a1) (a2 := a2) (a3 := a3) (a4 := a4)
  rwa [e] at this

theorem execReadLine_keeps {m : Nat} {x : State} {a0 : Fin 320} {a1 : BitVec 40} {a2 : BitVec 8} {s : State} (hm : Nat.land 262144 m = 262144)
    (h : Same m x s) : Ends m x (execReadLine a0 a1 a2 s) := by
  unfold execReadLine
  repeat' (first | with_reducible assumption | intro _ | with_reducible apply ends_next | with_reducible apply ends_ite | with_reducible apply same_ite | with_reducible refine State.dieCmd_keeps (sub_of hm rfl) ?_ ?_ | with_reducible refine State.dieStateErr_keeps (sub_of hm rfl) ?_ | with_reducible refine State.setMdie_keeps (sub_of hm rfl) ?_ | split | dsimp only)

theorem execSendH_keeps {m : Nat} {x : State} {a0 : Fin 320} {a1 : BitVec 8} {s : State} (hm : Nat.land 67371018 m = 67371018)
    (h : Same m x s) : Ends m x (execSendH a0 a1 s) := by
  unfold execSendH
  repeat' (first | with_reducible assumption | intro _ | with_reducible apply ends_next | with_reducible refine State.dieCmd_keeps (sub_of hm rfl) ?_ ?_ | with_reducible refine State.dieSend_keeps (sub_of hm rfl) ?_ | split | dsimp only)

theorem execSendB_keeps {m : Nat} {x : State} {a0 : Fin 320} {a1 : BitVec 8} {s : State} (hm : Nat.land 67371018 m = 67371018)
    (h : Same m x s) : Ends m x (execSendB a0 a1 s) := by
  unfold execSendB
  repeat' (first | with_reducible assumption | intro _ | with_reducible apply ends_next | with_reducible refine State.dieCmd_keeps (sub_of hm rfl) ?_ ?_ | with_reducible refine State.dieSend_keeps (sub_of hm rfl) ?_ | split | dsimp only)

theorem execProgSetup_keeps {m : Nat} {x : State} {a0 : Fin 320} {a1 : BitVec 24} {a2 : BitVec 8} {s : State} (hm : Nat.land 262144 m = 262144)
    (h : Same m x s) : Ends m x (execProgSetup a0 a1 a2 s) := by
  unfold execProgSetup
  repeat' (first | with_reducible assumption | intro _ | with_reducible apply ends_next | with_reducible apply ends_ite | with_reducible apply same_ite | with_reducible refine State.dieCmd_keeps (sub_of hm rfl) ?_ ?_ | with_reducible refine State.dieStateErr_keeps (sub_of hm rfl) ?_ | with_reducible refine State.setMdie_keeps (sub_of hm rfl) ?_ | split | dsimp only)

theorem execDataIn_keeps {m : Nat} {x : State} {a0 : Fin 320} {a1 : BitVec 8} {a2 : BitVec 2048} {a3 : BitVec 8} {s : State} (hm : Nat.land 262144 m = 262144)
    (h : Same m x s) : Ends m x (execDataIn a0 a1 a2 a3 s) := by
  unfold execDataIn
  repeat' (first | with_reducible assumption | intro _ | with_reducible apply ends_next | with_reducible apply ends_ite | with_reducible apply same_ite | with_reducible refine State.dieCmd_keeps (sub_of hm rfl) ?_ ?_ | with_reducible refine State.dieStateErr_keeps (sub_of hm rfl) ?_ | with_reducible refine State.setMdie_keeps (sub_of hm rfl) ?_ | split | dsimp only)

theorem execProgConfirm_keeps {m : Nat} {x : State} {a0 : Fin 320} {a1 : BitVec 8} {s : State} (hm : Nat.land 262144 m = 262144)
    (h : Same m x s) : Ends m x (execProgConfirm a0 a1 s) := by
  unfold execProgConfirm
  repeat' (first | with_reducible assumption | intro _ | with_reducible apply ends_next | with_reducible apply ends_ite | with_reducible apply same_ite | with_reducible refine State.dieCmd_keeps (sub_of hm rfl) ?_ ?_ | with_reducible refine State.dieStateErr_keeps (sub_of hm rfl) ?_ | with_reducible refine State.setMdie_keeps (sub_of hm rfl) ?_ | split | dsimp only)

theorem execProgCancel_keeps {m : Nat} {x : State} {a0 : Fin 320} {a1 : BitVec 8} {s : State} (hm : Nat.land 262144 m = 262144)
    (h : Same m x s) : Ends m x (execProgCancel a0 a1 s) := by
  unfold execProgCancel
  repeat' (first | with_reducible assumption | intro _ | with_reducible apply ends_next | with_reducible apply ends_ite | with_reducible apply same_ite | with_reducible refine State.dieCmd_keeps (sub_of hm rfl) ?_ ?_ | with_reducible refine State.dieStateErr_keeps (sub_of hm rfl) ?_ | with_reducible refine State.setMdie_keeps (sub_of hm rfl) ?_ | split | dsimp only)

theorem execErase_keeps {m : Nat} {x : State} {a0 : Fin 320} {a1 : BitVec 16} {a2 : BitVec 8} {s : State} (hm : Nat.land 262144 m = 262144)
    (h : Same m x s) : Ends m x (execErase a0 a1 a2 s) := by
  unfold execErase
  repeat' (first | with_reducible assumption | intro _ | with_reducible apply ends_next | with_reducible apply ends_ite | with_reducible apply same_ite | with_reducible refine State.dieCmd_keeps (sub_of hm rfl) ?_ ?_ | with_reducible refine State.dieStateErr_keeps (sub_of hm rfl) ?_ | with_reducible refine State.setMdie_keeps (sub_of hm rfl) ?_ | split | dsimp only)

theorem execSuspend_keeps {m : Nat} {x : State} {a0 : Fin 320} {a1 : BitVec 8} {s : State} (hm : Nat.land 262144 m = 262144)
    (h : Same m x s) : Ends m x (execSuspend a0 a1 s) := by
  unfold execSuspend
  repeat' (first | with_reducible assumption | intro _ | with_reducible apply ends_next | with_reducible apply ends_ite | with_reducible apply same_ite | with_reducible refine State.dieCmd_keeps (sub_of hm rfl) ?_ ?_ | with_reducible refine State.setMdie_keeps (sub_of hm rfl) ?_ | split | dsimp only)

theorem execResume_keeps {m : Nat} {x : State} {a0 : Fin 320} {a1 : BitVec 8} {s : State} (hm : Nat.land 262144 m = 262144)
    (h : Same m x s) : Ends m x (execResume a0 a1 s) := by
  unfold execResume
  repeat' (first | with_reducible assumption | intro _ | with_reducible apply ends_next | with_reducible apply ends_ite | with_reducible apply same_ite | with_reducible refine State.dieCmd_keeps (sub_of hm rfl) ?_ ?_ | with_reducible refine State.setMdie_keeps (sub_of hm rfl) ?_ | split | dsimp only)

theorem execStatus_keeps {m : Nat} {x : State} {a0 : Fin 320} {a1 : BitVec 8} {s : State} (hm : Nat.land 67371018 m = 67371018)
    (h : Same m x s) : Ends m x (execStatus a0 a1 s) := by
  unfold execStatus
  repeat' (first | with_reducible assumption | intro _ | with_reducible apply ends_next | with_reducible refine State.dieCmd_keeps (sub_of hm rfl) ?_ ?_ | with_reducible refine State.emit_keeps (sub_of hm rfl) ?_ | with_reducible refine State.setMdie_keeps (sub_of hm rfl) ?_ | split | dsimp only)

theorem execFeatureSet_keeps {m : Nat} {x : State} {a0 : Fin 320} {a1 : BitVec 8} {a2 : Word} {a3 : BitVec 8} {s : State} (hm : Nat.land 262144 m = 262144)
    (h : Same m x s) : Ends m x (execFeatureSet a0 a1 a2 a3 s) := by
  unfold execFeatureSet
  repeat' (first | with_reducible assumption | intro _ | with_reducible apply ends_next | with_reducible apply ends_ite | with_reducible apply same_ite | with_reducible refine State.dieCmd_keeps (sub_of hm rfl) ?_ ?_ | with_reducible refine State.setMdie_keeps (sub_of hm rfl) ?_ | split | dsimp only)

theorem execFeatureGet_keeps {m : Nat} {x : State} {a0 : Fin 320} {a1 : BitVec 8} {a2 : BitVec 8} {s : State} (hm : Nat.land 67371018 m = 67371018)
    (h : Same m x s) : Ends m x (execFeatureGet a0 a1 a2 s) := by
  unfold execFeatureGet
  repeat' (first | with_reducible assumption | intro _ | with_reducible apply ends_next | with_reducible apply same_dite | with_reducible refine State.dieCmd_keeps (sub_of hm rfl) ?_ ?_ | with_reducible refine State.emit_keeps (sub_of hm rfl) ?_ | split | dsimp only)

theorem execRefAdj_keeps {m : Nat} {x : State} {a0 : Fin 320} {a1 : BitVec 8} {a2 : BitVec 24} {a3 : BitVec 8} {s : State} (hm : Nat.land 262144 m = 262144)
    (h : Same m x s) : Ends m x (execRefAdj a0 a1 a2 a3 s) := by
  unfold execRefAdj
  repeat' (first | with_reducible assumption | intro _ | with_reducible apply ends_next | with_reducible refine State.dieCmd_keeps (sub_of hm rfl) ?_ ?_ | with_reducible refine State.setMdie_keeps (sub_of hm rfl) ?_ | split | dsimp only)

theorem execTrain_keeps {m : Nat} {x : State} {a0 : Fin 40} {a1 : BitVec 8} {a2 : BitVec 8} {a3 : BitVec 8} {a4 : BitVec 8} {s : State} (hm : Nat.land 67371018 m = 67371018)
    (h : Same m x s) : Ends m x (execTrain a0 a1 a2 a3 a4 s) := by
  unfold execTrain
  repeat' (first | with_reducible assumption | intro _ | with_reducible apply ends_next | with_reducible apply ends_ite | with_reducible apply same_ite | with_reducible apply same_foldl | with_reducible refine State.dieCmd_keeps (sub_of hm rfl) ?_ ?_ | with_reducible refine State.setMdie_keeps (sub_of hm rfl) ?_ | with_reducible refine State.emit_keeps (sub_of hm rfl) ?_ | split | dsimp only)

theorem execSync_keeps {m : Nat} {x : State} {a0 : Fin 40} {a1 : BitVec 8} {a2 : BitVec 8} {s : State} (hm : Nat.land 262144 m = 262144)
    (h : Same m x s) : Ends m x (execSync a0 a1 a2 s) := by
  unfold execSync
  repeat' (first | with_reducible assumption | intro _ | with_reducible apply ends_next | with_reducible apply ends_ite | with_reducible apply same_ite | with_reducible apply same_foldl | with_reducible refine State.dieCmd_keeps (sub_of hm rfl) ?_ ?_ | with_reducible refine State.setMdie_keeps (sub_of hm rfl) ?_ | split | dsimp only)

theorem execReset_keeps {m : Nat} {x : State} {a0 : Fin 40} {a1 : BitVec 8} {a2 : BitVec 8} {s : State} (hm : Nat.land 270340 m = 270340)
    (h : Same m x s) : Ends m x (execReset a0 a1 a2 s) := by
  unfold execReset
  repeat' (first | with_reducible assumption | intro _ | with_reducible apply ends_next | with_reducible apply ends_ite | with_reducible apply same_ite | with_reducible apply same_foldl | with_reducible refine State.dieCmd_keeps (sub_of hm rfl) ?_ ?_ | with_reducible refine State.dieReset_keeps (sub_of hm rfl) ?_ | split | dsimp only)

theorem execRstN_keeps {m : Nat} {x : State} {a0 : Fin 40} {a1 : Bool} {s : State} (hm : Nat.land 270340 m = 270340)
    (h : Same m x s) : Ends m x (execRstN a0 a1 s) := by
  unfold execRstN
  repeat' (first | with_reducible assumption | intro _ | with_reducible apply ends_next | with_reducible apply ends_ite | with_reducible apply same_ite | with_reducible apply same_foldl | with_reducible refine State.setMdie_keeps (sub_of hm rfl) ?_ | with_reducible refine State.dieReset_keeps (sub_of hm rfl) ?_ | split | dsimp only)

theorem execLineSensed_keeps {m : Nat} {x : State} {a0 : Fin 320} {a1 : Fin 12} {a2 : StoredLine} {s : State} (hm : Nat.land 262148 m = 262148)
    (h : Same m x s) : Ends m x (execLineSensed a0 a1 a2 s) := by
  unfold execLineSensed
  repeat' (first | with_reducible assumption | intro _ | with_reducible apply ends_next | with_reducible apply ends_ite | with_reducible apply same_ite | with_reducible apply same2_ite | with_reducible refine State.sense_keeps (sub_of hm rfl) ?_ | with_reducible refine State.sense_keeps_eq (sub_of hm rfl) (by assumption) ?_ | with_reducible refine State.setMdie_keeps (sub_of hm rfl) ?_ | split | dsimp only)

theorem execOperationEnds_keeps {m : Nat} {x : State} {a0 : Fin 320} {a1 : Bool} {s : State} (hm : Nat.land 270340 m = 270340)
    (h : Same m x s) : Ends m x (execOperationEnds a0 a1 s) := by
  unfold execOperationEnds
  repeat' (first | with_reducible assumption | intro _ | with_reducible apply ends_next | with_reducible apply ends_ite | with_reducible apply same_ite | with_reducible apply same_foldl | with_reducible refine State.setMdie_keeps (sub_of hm rfl) ?_ | with_reducible refine State.scramble_keeps (sub_of hm rfl) ?_ | fail_if_no_progress with_reducible refine upd_te (sub_of hm rfl) ?_ | split | dsimp only)

theorem execSuspensionPointReached_keeps {m : Nat} {x : State} {a0 : Fin 320} {s : State} (hm : Nat.land 262144 m = 262144)
    (h : Same m x s) : Ends m x (execSuspensionPointReached a0 s) := by
  unfold execSuspensionPointReached
  repeat' (first | with_reducible assumption | intro _ | with_reducible apply ends_next | with_reducible apply ends_ite | with_reducible apply same_ite | with_reducible refine State.setMdie_keeps (sub_of hm rfl) ?_ | split | dsimp only)

theorem execDieResetDone_keeps {m : Nat} {x : State} {a0 : Fin 320} {s : State} (hm : Nat.land 262144 m = 262144)
    (h : Same m x s) : Ends m x (execDieResetDone a0 s) := by
  unfold execDieResetDone
  repeat' (first | with_reducible assumption | intro _ | with_reducible apply ends_next | with_reducible apply ends_ite | with_reducible apply same_ite | with_reducible refine State.setMdie_keeps (sub_of hm rfl) ?_ | split | dsimp only)

theorem execTrainPatternEnd_keeps {m : Nat} {x : State} {a0 : Fin 320} {s : State} (hm : Nat.land 262144 m = 262144)
    (h : Same m x s) : Ends m x (execTrainPatternEnd a0 s) := by
  unfold execTrainPatternEnd
  repeat' (first | with_reducible assumption | intro _ | with_reducible apply ends_next | with_reducible apply ends_ite | with_reducible apply same_ite | with_reducible refine State.setMdie_keeps (sub_of hm rfl) ?_ | split | dsimp only)

end Sys2Proof.Machine
end

