-- ==== Sys2Proof/Laws/FrameFault.lean ====
section
/-! SUPPORT. The frame of every operation of Machine/Fault.lean, as a mask of the kinds of state that it may change. -/

set_option autoImplicit false
set_option linter.unusedTactic false
set_option linter.unreachableTactic false
set_option linter.unnecessarySeqFocus false
set_option linter.unusedSimpArgs false
set_option linter.unusedVariables false

namespace Sys2Proof.Machine

theorem execFaultRaise_keeps {m : Nat} {x : State} {a0 : List FltWord} {s : State} (hm : Nat.land 83887626 m = 83887626)
    (h : Same m x s) : Ends m x (execFaultRaise a0 s) := by
  unfold execFaultRaise
  repeat' (first | with_reducible assumption | intro _ | with_reducible apply ends_next | with_reducible refine State.raiseWindow_keeps (sub_of hm rfl) ?_ | split | dsimp only)

theorem execWireFault_keeps {m : Nat} {x : State} {a0 : BitVec 8} {s : State} (hm : Nat.land 83887626 m = 83887626)
    (h : Same m x s) : Ends m x (execWireFault a0 s) := by
  unfold execWireFault
  repeat' (first | with_reducible assumption | intro _ | with_reducible apply ends_next | with_reducible apply same_when | with_reducible refine State.wireFault_keeps (sub_of hm rfl) ?_ | split | dsimp only)

theorem execFaultWordPoll_keeps {m : Nat} {x : State} {a0 : BitVec 8} {s : State} (hm : Nat.land 83887626 m = 83887626)
    (h : Same m x s) : Ends m x (execFaultWordPoll a0 s) := by
  unfold execFaultWordPoll
  repeat' (first | with_reducible assumption | intro _ | with_reducible apply ends_next | with_reducible apply same_when | with_reducible refine State.wirePoll_keeps (sub_of hm rfl) ?_ | split | dsimp only)

theorem execFltForceGo_keeps {m : Nat} {x : State} {a0 : Fin 110} {a1 : Path} {a2 : Fin 4} {a3 : Fin 4} {s : State} (hm : Nat.land 83887630 m = 83887630)
    (h : Same m x s) : Ends m x (execFltForceGo a0 a1 a2 a3 s) := by
  unfold execFltForceGo
  repeat' (first | with_reducible assumption | intro _ | with_reducible apply ends_next | with_reducible apply ends_ite | with_reducible apply same_ite | with_reducible refine State.regAcc_keeps (sub_of hm rfl) ?_ | with_reducible refine State.raise_keeps (sub_of hm rfl) ?_ | split | dsimp only)

theorem execFltForceWire_keeps {m : Nat} {x : State} {a0 : Fin 110} {a1 : Path} {a2 : Fin 4} {s : State} (hm : Nat.land 83887626 m = 83887626)
    (h : Same m x s) : Ends m x (execFltForceWire a0 a1 a2 s) := by
  unfold execFltForceWire
  repeat' (first | with_reducible assumption | intro _ | with_reducible apply ends_next | with_reducible apply ends_ite | with_reducible apply same_ite | with_reducible refine State.regAcc_keeps (sub_of hm rfl) ?_ | with_reducible refine State.wireFault_keeps (sub_of hm rfl) ?_ | split | dsimp only)

theorem execEscalationTimeout_keeps {m : Nat} {x : State} {a0 : BitVec 8} {s : State} (hm : Nat.land 562949953421134 m = 562949953421134)
    (h : Same m x s) : Ends m x (execEscalationTimeout a0 s) := by
  unfold execEscalationTimeout
  repeat' (first | with_reducible assumption | intro _ | with_reducible apply ends_next | with_reducible apply same_when | with_reducible refine State.escalate_keeps (sub_of hm rfl) ?_ | exact regOk_all (sub_of hm rfl) _ | split | dsimp only)

theorem execFcAck_keeps {m : Nat} {x : State} {a0 : BitVec 8} {s : State} (hm : Nat.land 1024 m = 1024)
    (h : Same m x s) : Ends m x (execFcAck a0 s) := by
  unfold execFcAck
  repeat' (first | with_reducible assumption | intro _ | with_reducible apply ends_next | with_reducible apply ends_ite | with_reducible apply same_ite | with_reducible refine State.fcMod_keeps (sub_of hm rfl) ?_ | split | dsimp only)

theorem execFcResolve_keeps {m : Nat} {x : State} {a0 : BitVec 8} {s : State} (hm : Nat.land 83887114 m = 83887114)
    (h : Same m x s) : Ends m x (execFcResolve a0 s) := by
  unfold execFcResolve
  repeat' (first | with_reducible assumption | intro _ | with_reducible apply ends_next | with_reducible apply ends_ite | with_reducible apply same_ite | with_reducible refine State.alertShow_keeps (sub_of hm rfl) ?_ | with_reducible refine State.bankBit_keeps (sub_of hm rfl) (.inl rfl) ?_ | with_reducible refine State.bankBit_keeps (sub_of hm rfl) (.inr rfl) ?_ | with_reducible refine State.fcMod_keeps (sub_of hm rfl) ?_ | with_reducible exact R.FC_ACTIVE_ok | split | dsimp only)

theorem execFcEsc_keeps {m : Nat} {x : State} {a0 : BitVec 8} {s : State} (hm : Nat.land 562949953421134 m = 562949953421134)
    (h : Same m x s) : Ends m x (execFcEsc a0 s) := by
  unfold execFcEsc
  repeat' (first | with_reducible assumption | intro _ | with_reducible apply ends_next | with_reducible apply same_when | with_reducible refine State.escalate_keeps (sub_of hm rfl) ?_ | exact regOk_all (sub_of hm rfl) _ | split | dsimp only)

theorem execFcRevoke_keeps {m : Nat} {x : State} {a0 : BitVec 8} {s : State} (hm : Nat.land 1032 m = 1032)
    (h : Same m x s) : Ends m x (execFcRevoke a0 s) := by
  unfold execFcRevoke
  repeat' (first | with_reducible assumption | intro _ | with_reducible apply ends_next | with_reducible apply ends_ite | with_reducible apply same_ite | with_reducible refine State.revokeStart_keeps (sub_of hm rfl) ?_ | with_reducible refine State.setBit_keeps (sub_of hm rfl) ?_ ?_ | with_reducible exact R.FC_REV_STS_ok | split | dsimp only)

theorem execRevocationDone_keeps {m : Nat} {x : State} {a0 : List Bool} {s : State} (hm : Nat.land 314447559261966 m = 314447559261966)
    (h : Same m x s) : Ends m x (execRevocationDone a0 s) := by
  unfold execRevocationDone
  repeat' (first | with_reducible assumption | intro _ | with_reducible apply ends_next | with_reducible refine State.revokeEnd_keeps (sub_of hm rfl) ?_ | with_reducible refine State.wrN_keeps (sub_of hm rfl) ?_ ?_ | fail_if_no_progress with_reducible refine upd_fc (sub_of hm rfl) ?_ | with_reducible exact R.FC_REV_STS_ok | split | dsimp only)

theorem execFcUnfence_keeps {m : Nat} {x : State} {a0 : BitVec 8} {s : State} (hm : Nat.land 35184372089864 m = 35184372089864)
    (h : Same m x s) : Ends m x (execFcUnfence a0 s) := by
  unfold execFcUnfence
  repeat' (first | with_reducible assumption | intro _ | with_reducible apply ends_next | with_reducible apply ends_ite | with_reducible apply same_ite | with_reducible refine State.fcMod_keeps (sub_of hm rfl) ?_ | with_reducible refine State.set_keeps (sub_of hm rfl) ?_ ?_ | with_reducible exact R.CORE_STS_ok (sub_of hm rfl) | (with_reducible refine regOk_of (c := 18) (sub_of hm rfl) (blk18 ?_ ?_) <;> simp only [R.CORE_STS] <;> omega) | split | dsimp only)

theorem execFcProcBeat_keeps {m : Nat} {x : State} {a0 : Fin 4} {s : State} (hm : Nat.land 1024 m = 1024)
    (h : Same m x s) : Ends m x (execFcProcBeat a0 s) := by
  unfold execFcProcBeat
  repeat' (first | with_reducible assumption | intro _ | with_reducible apply ends_next | with_reducible apply ends_ite | with_reducible apply same_ite | fail_if_no_progress with_reducible refine upd_fc (sub_of hm rfl) ?_ | split | dsimp only)

theorem execProctorBeatMissing_keeps {m : Nat} {x : State} {a0 : Fin 4} {s : State} (hm : Nat.land 83887630 m = 83887630)
    (h : Same m x s) : Ends m x (execProctorBeatMissing a0 s) := by
  unfold execProctorBeatMissing
  repeat' (first | with_reducible assumption | intro _ | with_reducible apply ends_next | with_reducible apply same_when | with_reducible refine State.raise_keeps (sub_of hm rfl) ?_ | split | dsimp only)

theorem execRevokeOverdue_keeps {m : Nat} {x : State} {a0 : BitVec 8} {s : State} (hm : Nat.land 83887630 m = 83887630)
    (h : Same m x s) : Ends m x (execRevokeOverdue a0 s) := by
  unfold execRevokeOverdue
  repeat' (first | with_reducible assumption | intro _ | with_reducible apply ends_next | with_reducible apply same_when | with_reducible refine State.raise_keeps (sub_of hm rfl) ?_ | split | dsimp only)

theorem execFcFirstClr_keeps {m : Nat} {x : State} {a0 : Path} {s : State} (hm : Nat.land 67108872 m = 67108872)
    (h : Same m x s) : Ends m x (execFcFirstClr a0 s) := by
  unfold execFcFirstClr
  repeat' (first | with_reducible exact list_ok_nil | with_reducible refine list_ok_cons ?_ ?_ | with_reducible refine list_ok_append ?_ ?_ | with_reducible exact pc_ok | with_reducible refine range_ok ?_ | with_reducible assumption | intro _ | with_reducible apply ends_next | with_reducible apply same_when | with_reducible refine State.regAcc_keeps (sub_of hm rfl) ?_ | with_reducible refine State.zero_keeps (sub_of hm rfl) ?_ ?_ | with_reducible exact R.FC_FIRST_ok | with_reducible exact R.FC_FIRST_TICK_HI_ok | with_reducible exact R.FC_FIRST_TICK_LO_ok | exact .inl rfl | (with_reducible refine book1_ok ?_ <;> simp only [R.FC_FIRST, R.FC_FIRST_TICK_HI, R.FC_FIRST_TICK_LO] <;> omega) | split | dsimp only)

theorem execFcContainNow_keeps {m : Nat} {x : State} {a0 : Path} {s : State} (hm : Nat.land 562949953421134 m = 562949953421134)
    (h : Same m x s) : Ends m x (execFcContainNow a0 s) := by
  unfold execFcContainNow
  repeat' (first | with_reducible assumption | intro _ | with_reducible apply ends_next | with_reducible apply same_when | with_reducible refine State.regAcc_keeps (sub_of hm rfl) ?_ | with_reducible refine State.contain_keeps (sub_of hm rfl) ?_ | exact regOk_all (sub_of hm rfl) _ | split | dsimp only)

theorem execFcDrainLimit_keeps {m : Nat} {x : State} {s : State} (hm : Nat.land 562949953421134 m = 562949953421134)
    (h : Same m x s) : Ends m x (execFcDrainLimit s) := by
  unfold execFcDrainLimit
  repeat' (first | with_reducible assumption | intro _ | with_reducible apply ends_next | with_reducible apply same_when | with_reducible refine State.drainShort_keeps (sub_of hm rfl) ?_ | exact regOk_all (sub_of hm rfl) _ | split | dsimp only)

theorem execFcCntClr_keeps {m : Nat} {x : State} {a0 : Path} {a1 : Word} {s : State} (hm : Nat.land 67108872 m = 67108872)
    (h : Same m x s) : Ends m x (execFcCntClr a0 a1 s) := by
  unfold execFcCntClr
  repeat' (first | with_reducible exact list_ok_nil | with_reducible refine list_ok_cons ?_ ?_ | with_reducible refine list_ok_append ?_ ?_ | with_reducible exact pc_ok | with_reducible refine range_ok ?_ | with_reducible assumption | intro _ | with_reducible apply ends_next | with_reducible apply same_when | with_reducible refine State.regAcc_keeps (sub_of hm rfl) ?_ | with_reducible refine State.zero_keeps (sub_of hm rfl) ?_ ?_ | with_reducible exact R.FC_CNT_SEV_ok | with_reducible exact R.FC_CONTAIN_CNT_ok | exact .inl rfl | (with_reducible refine book1_ok ?_ <;> simp only [R.FC_CNT_SEV, R.FC_CONTAIN_CNT] <;> omega) | split | dsimp only)

end Sys2Proof.Machine
end

