-- ==== Sys2Proof/Laws/FramePower.lean ====
section
/-! SUPPORT. The frame of every operation of Machine/Power.lean, as a mask of the kinds of state that it may change. -/

set_option autoImplicit false
set_option linter.unusedTactic false
set_option linter.unreachableTactic false
set_option linter.unnecessarySeqFocus false
set_option linter.unusedSimpArgs false
set_option linter.unusedVariables false

namespace Sys2Proof.Machine

theorem State.cisResult_keeps {m : Nat} {x : State} {s : State} {a1 : CisTest} {a2 : Nat} (hm : Nat.land 1104972646158 m = 1104972646158)
    (h : Same m x s) : Same m x (State.cisResult s a1 a2) := by
  unfold State.cisResult
  repeat' (first | with_reducible assumption | intro _ | with_reducible apply same_ite | with_reducible apply same_when | with_reducible refine State.setBit_keeps (sub_of hm rfl) ?_ ?_ | with_reducible refine State.set_keeps (sub_of hm rfl) ?_ ?_ | with_reducible refine State.bump_keeps (sub_of hm rfl) ?_ ?_ | with_reducible refine State.pstAdd_keeps (sub_of hm rfl) ?_ | with_reducible refine State.wrN_keeps (sub_of hm rfl) ?_ ?_ | with_reducible refine State.raise_keeps (sub_of hm rfl) ?_ | with_reducible refine State.moduleEvent_keeps (sub_of hm rfl) ?_ | with_reducible refine State.roll_keeps (sub_of hm rfl) ?_ | fail_if_no_progress with_reducible refine upd_psq (sub_of hm rfl) ?_ | with_reducible exact R.CIS_C_ok (sub_of hm rfl) | with_reducible exact R.CIS_CTL_ok (sub_of hm rfl) | with_reducible exact R.CIS_C_MIN_ok (sub_of hm rfl) | with_reducible exact R.CIS_ESR_ok (sub_of hm rfl) | with_reducible exact R.CIS_ESR_MAX_ok (sub_of hm rfl) | with_reducible exact R.CIS_STS_ok (sub_of hm rfl) | with_reducible exact R.CIS_TEST_BAD_CNT_ok (sub_of hm rfl) | with_reducible exact R.CIS_TEST_CNT_ok (sub_of hm rfl) | with_reducible exact R.CIS_TEST_I_ok (sub_of hm rfl) | with_reducible exact R.CIS_TEST_T_ok (sub_of hm rfl) | (with_reducible refine regOk_of (c := 3) (sub_of hm rfl) (blk3 ?_ ?_) <;> simp only [R.CIS_C, R.CIS_CTL, R.CIS_C_MIN, R.CIS_ESR, R.CIS_ESR_MAX, R.CIS_STS, R.CIS_TEST_BAD_CNT, R.CIS_TEST_CNT, R.CIS_TEST_I, R.CIS_TEST_T] <;> omega) | split | dsimp only)

theorem State.downDone_keeps {m : Nat} {x : State} {s : State} (hm : Nat.land 1149239818 m = 1149239818)
    (h : Same m x s) : Same m x (State.downDone s) := by
  unfold State.downDone
  repeat' (first | with_reducible assumption | intro _ | with_reducible refine State.downNext_keeps (sub_of hm rfl) ?_ | with_reducible refine State.setBit_keeps (sub_of hm rfl) ?_ ?_ | fail_if_no_progress with_reducible refine upd_psq (sub_of hm rfl) ?_ | with_reducible exact R.PSQ_RAIL_ok (sub_of hm rfl) | (with_reducible refine regOk_of (c := 3) (sub_of hm rfl) (blk3 ?_ ?_) <;> simp only [R.PSQ_RAIL] <;> omega) | split | dsimp only)

theorem State.firstBudget_keeps {m : Nat} {x : State} {s : State} (hm : Nat.land 137438957576 m = 137438957576)
    (h : Same m x s) : Same m x (State.firstBudget s) := by
  unfold State.firstBudget
  repeat' (first | with_reducible assumption | intro _ | with_reducible apply same_ite | with_reducible refine State.setBit_keeps (sub_of hm rfl) ?_ ?_ | with_reducible refine State.charge_keeps (sub_of hm rfl) ?_ | fail_if_no_progress with_reducible refine upd_lc (sub_of hm rfl) ?_ | with_reducible exact R.TS_STS_ok (sub_of hm rfl) | (with_reducible refine regOk_of (c := 10) (sub_of hm rfl) (blk10 ?_ ?_) <;> simp only [R.TS_STS] <;> omega) | split | dsimp only)

theorem execPsqOn_keeps {m : Nat} {x : State} {a0 : Path} {s : State} (hm : Nat.land 8803688973066 m = 8803688973066)
    (h : Same m x s) : Ends m x (execPsqOn a0 s) := by
  unfold execPsqOn
  repeat' (first | with_reducible assumption | intro _ | with_reducible apply ends_next | with_reducible apply same_when | with_reducible refine State.regAcc_keeps (sub_of hm rfl) ?_ | with_reducible refine State.onRequest_keeps (sub_of hm rfl) ?_ | split | dsimp only)

theorem execPsqOff_keeps {m : Nat} {x : State} {a0 : Path} {s : State} (hm : Nat.land 562949953421134 m = 562949953421134)
    (h : Same m x s) : Ends m x (execPsqOff a0 s) := by
  unfold execPsqOff
  repeat' (first | with_reducible assumption | intro _ | with_reducible apply ends_next | with_reducible apply same_when | with_reducible refine State.regAcc_keeps (sub_of hm rfl) ?_ | with_reducible refine State.offRequest_keeps (sub_of hm rfl) ?_ | exact regOk_all (sub_of hm rfl) _ | split | dsimp only)

theorem execPsqClrLock_keeps {m : Nat} {x : State} {a0 : Path} {s : State} (hm : Nat.land 8803688973066 m = 8803688973066)
    (h : Same m x s) : Ends m x (execPsqClrLock a0 s) := by
  unfold execPsqClrLock
  repeat' (first | with_reducible assumption | intro _ | with_reducible apply ends_next | with_reducible apply ends_ite | with_reducible apply same_ite | with_reducible refine State.regAcc_keeps (sub_of hm rfl) ?_ | with_reducible refine State.tryUp_keeps (sub_of hm rfl) ?_ | with_reducible refine State.set_keeps (sub_of hm rfl) ?_ ?_ | with_reducible refine State.setPhase_keeps (sub_of hm rfl) ?_ | fail_if_no_progress with_reducible refine upd_psq (sub_of hm rfl) ?_ | with_reducible exact R.PSQ_STS_ok (sub_of hm rfl) | (with_reducible refine regOk_of (c := 3) (sub_of hm rfl) (blk3 ?_ ?_) <;> simp only [R.PSQ_STS] <;> omega) | split | dsimp only)

theorem execMarginApply_keeps {m : Nat} {x : State} {a0 : Path} {a1 : Fin 16} {a2 : BitVec 8} {a3 : Fin 4} {s : State} (hm : Nat.land 8797246521354 m = 8797246521354)
    (h : Same m x s) : Ends m x (execMarginApply a0 a1 a2 a3 s) := by
  unfold execMarginApply
  repeat' (first | with_reducible assumption | intro _ | with_reducible apply ends_next | with_reducible apply ends_ite | with_reducible apply same_ite | with_reducible refine State.regAcc_keeps (sub_of hm rfl) ?_ | with_reducible refine State.set_keeps (sub_of hm rfl) ?_ ?_ | with_reducible refine State.margShow_keeps (sub_of hm rfl) ?_ | with_reducible refine State.vcoreWrite_keeps (sub_of hm rfl) ?_ | with_reducible refine State.setBit_keeps (sub_of hm rfl) ?_ ?_ | with_reducible refine State.pmbPut_keeps (sub_of hm rfl) ?_ | fail_if_no_progress with_reducible refine upd_psq (sub_of hm rfl) ?_ | with_reducible exact R.PSQ_MARG_CTL_ok (sub_of hm rfl) | with_reducible exact R.PSQ_MARG_STS_ok (sub_of hm rfl) | (with_reducible refine regOk_of (c := 3) (sub_of hm rfl) (blk3 ?_ ?_) <;> simp only [R.PSQ_MARG_CTL, R.PSQ_MARG_STS] <;> omega) | split | dsimp only)

theorem execMarginStop_keeps {m : Nat} {x : State} {a0 : Path} {s : State} (hm : Nat.land 8797246521354 m = 8797246521354)
    (h : Same m x s) : Ends m x (execMarginStop a0 s) := by
  unfold execMarginStop
  repeat' (first | with_reducible assumption | intro _ | with_reducible apply ends_next | with_reducible apply same_when | with_reducible refine State.regAcc_keeps (sub_of hm rfl) ?_ | with_reducible refine State.margClear_keeps (sub_of hm rfl) ?_ | split | dsimp only)

theorem execPsqCntClr_keeps {m : Nat} {x : State} {a0 : Path} {a1 : Word} {s : State} (hm : Nat.land 1140850696 m = 1140850696)
    (h : Same m x s) : Ends m x (execPsqCntClr a0 a1 s) := by
  unfold execPsqCntClr
  repeat' (first | with_reducible exact list_ok_nil | with_reducible refine list_ok_cons ?_ ?_ | with_reducible refine list_ok_append ?_ ?_ | with_reducible exact pc_ok | with_reducible refine range_ok ?_ | with_reducible assumption | intro _ | with_reducible apply ends_next | with_reducible apply same_when | with_reducible refine State.regAcc_keeps (sub_of hm rfl) ?_ | with_reducible refine State.zero_keeps (sub_of hm rfl) ?_ ?_ | with_reducible exact R.PSQ_DRAIN_CNT_ok (sub_of hm rfl) | with_reducible exact R.PSQ_PMB_ERR_ok (sub_of hm rfl) | with_reducible exact R.PSQ_PUP_FAIL_CNT_ok (sub_of hm rfl) | with_reducible exact R.PSQ_RAIL_FLT_CNT_ok (sub_of hm rfl) | (with_reducible refine regOk_of (c := 3) (sub_of hm rfl) (blk3 ?_ ?_) <;> simp only [R.PSQ_DRAIN_CNT, R.PSQ_PMB_ERR, R.PSQ_PUP_FAIL_CNT, R.PSQ_RAIL_FLT_CNT] <;> omega) | split | dsimp only)

theorem execCisTest_keeps {m : Nat} {x : State} {a0 : Path} {s : State} (hm : Nat.land 1149239306 m = 1149239306)
    (h : Same m x s) : Ends m x (execCisTest a0 s) := by
  unfold execCisTest
  repeat' (first | with_reducible assumption | intro _ | with_reducible apply ends_next | with_reducible apply same_when | with_reducible refine State.regAcc_keeps (sub_of hm rfl) ?_ | with_reducible refine State.cisRequest_keeps (sub_of hm rfl) ?_ | split | dsimp only)

theorem execCisCntClr_keeps {m : Nat} {x : State} {a0 : Path} {a1 : Word} {s : State} (hm : Nat.land 1140850696 m = 1140850696)
    (h : Same m x s) : Ends m x (execCisCntClr a0 a1 s) := by
  unfold execCisCntClr
  repeat' (first | with_reducible exact list_ok_nil | with_reducible refine list_ok_cons ?_ ?_ | with_reducible refine list_ok_append ?_ ?_ | with_reducible exact pc_ok | with_reducible refine range_ok ?_ | with_reducible assumption | intro _ | with_reducible apply ends_next | with_reducible apply same_when | with_reducible refine State.regAcc_keeps (sub_of hm rfl) ?_ | with_reducible refine State.zero_keeps (sub_of hm rfl) ?_ ?_ | with_reducible exact R.CIS_DEFER_CNT_ok (sub_of hm rfl) | with_reducible exact R.CIS_TEST_BAD_CNT_ok (sub_of hm rfl) | with_reducible exact R.CIS_TEST_CNT_ok (sub_of hm rfl) | (with_reducible refine regOk_of (c := 3) (sub_of hm rfl) (blk3 ?_ ?_) <;> simp only [R.CIS_DEFER_CNT, R.CIS_TEST_BAD_CNT, R.CIS_TEST_CNT] <;> omega) | split | dsimp only)

theorem execModEnRise_keeps {m : Nat} {x : State} {s : State} (hm : Nat.land 8803688973066 m = 8803688973066)
    (h : Same m x s) : Ends m x (execModEnRise s) := by
  unfold execModEnRise
  repeat' (first | with_reducible assumption | intro _ | with_reducible apply ends_next | with_reducible apply same_when | with_reducible refine State.setBit_keeps (sub_of hm rfl) ?_ ?_ | with_reducible refine State.onRequest_keeps (sub_of hm rfl) ?_ | with_reducible exact R.PSQ_STS_ok (sub_of hm rfl) | (with_reducible refine regOk_of (c := 3) (sub_of hm rfl) (blk3 ?_ ?_) <;> simp only [R.PSQ_STS] <;> omega) | split | dsimp only)

theorem execModEnFall_keeps {m : Nat} {x : State} {s : State} (hm : Nat.land 562949953421134 m = 562949953421134)
    (h : Same m x s) : Ends m x (execModEnFall s) := by
  unfold execModEnFall
  repeat' (first | with_reducible assumption | intro _ | with_reducible apply ends_next | with_reducible apply same_when | with_reducible refine State.setBit_keeps (sub_of hm rfl) ?_ ?_ | with_reducible refine State.offRequest_keeps (sub_of hm rfl) ?_ | with_reducible exact R.PSQ_STS_ok (sub_of hm rfl) | (with_reducible refine regOk_of (c := 3) (sub_of hm rfl) (blk3 ?_ ?_) <;> simp only [R.PSQ_STS] <;> omega) | exact regOk_all (sub_of hm rfl) _ | split | dsimp only)

theorem execInputFail_keeps {m : Nat} {x : State} {s : State} (hm : Nat.land 562949953421134 m = 562949953421134)
    (h : Same m x s) : Ends m x (execInputFail s) := by
  unfold execInputFail
  repeat' (first | with_reducible assumption | intro _ | with_reducible apply ends_next | with_reducible apply same_when | with_reducible refine State.inputFail_keeps (sub_of hm rfl) ?_ | exact regOk_all (sub_of hm rfl) _ | split | dsimp only)

theorem execInputGood_keeps {m : Nat} {x : State} {s : State} (hm : Nat.land 8803688973066 m = 8803688973066)
    (h : Same m x s) : Ends m x (execInputGood s) := by
  unfold execInputGood
  repeat' (first | with_reducible assumption | intro _ | with_reducible apply ends_next | with_reducible apply same_when | with_reducible refine State.tryUp_keeps (sub_of hm rfl) ?_ | with_reducible refine State.setBit_keeps (sub_of hm rfl) ?_ ?_ | with_reducible exact R.PSQ_STS_ok (sub_of hm rfl) | (with_reducible refine regOk_of (c := 3) (sub_of hm rfl) (blk3 ?_ ?_) <;> simp only [R.PSQ_STS] <;> omega) | split | dsimp only)

theorem execPowerUpStart_keeps {m : Nat} {x : State} {s : State} (hm : Nat.land 8803688973066 m = 8803688973066)
    (h : Same m x s) : Ends m x (execPowerUpStart s) := by
  unfold execPowerUpStart
  repeat' (first | with_reducible assumption | intro _ | with_reducible apply ends_next | with_reducible apply ends_ite | with_reducible apply same_ite | with_reducible apply same_when | with_reducible refine State.startUp_keeps (sub_of hm rfl) ?_ | with_reducible refine State.tryUp_keeps (sub_of hm rfl) ?_ | split | dsimp only)

theorem execDischWaitTimeout_keeps {m : Nat} {x : State} {s : State} (hm : Nat.land 1149239816 m = 1149239816)
    (h : Same m x s) : Ends m x (execDischWaitTimeout s) := by
  unfold execDischWaitTimeout
  repeat' (first | with_reducible assumption | intro _ | with_reducible apply ends_next | with_reducible apply same_when | with_reducible refine State.lockout_keeps (sub_of hm rfl) ?_ | split | dsimp only)

theorem execRailEnableDelay_keeps {m : Nat} {x : State} {s : State} (hm : Nat.land 1149239306 m = 1149239306)
    (h : Same m x s) : Ends m x (execRailEnableDelay s) := by
  unfold execRailEnableDelay
  repeat' (first | with_reducible assumption | intro _ | with_reducible apply ends_next | with_reducible apply ends_ite | with_reducible apply same_ite | with_reducible refine State.railEn_keeps (sub_of hm rfl) ?_ | fail_if_no_progress with_reducible refine upd_psq (sub_of hm rfl) ?_ | split | dsimp only)

theorem execRailPowerGood_keeps {m : Nat} {x : State} {a0 : Bool} {s : State} (hm : Nat.land 562949953421134 m = 562949953421134)
    (h : Same m x s) : Ends m x (execRailPowerGood a0 s) := by
  unfold execRailPowerGood
  repeat' (first | with_reducible assumption | intro _ | with_reducible apply ends_next | with_reducible apply ends_ite | with_reducible apply same_ite | with_reducible refine State.setBit_keeps (sub_of hm rfl) ?_ ?_ | with_reducible refine State.startDown_keeps (sub_of hm rfl) ?_ | with_reducible refine State.set_keeps (sub_of hm rfl) ?_ ?_ | with_reducible refine State.railsUp_keeps (sub_of hm rfl) ?_ | fail_if_no_progress with_reducible refine upd_psq (sub_of hm rfl) ?_ | with_reducible exact R.PSQ_RAIL_ok (sub_of hm rfl) | with_reducible exact R.PSQ_STS_ok (sub_of hm rfl) | (with_reducible refine regOk_of (c := 3) (sub_of hm rfl) (blk3 ?_ ?_) <;> simp only [R.PSQ_RAIL, R.PSQ_STS] <;> omega) | exact regOk_all (sub_of hm rfl) _ | split | dsimp only)

theorem execPgTimeout_keeps {m : Nat} {x : State} {s : State} (hm : Nat.land 562949953421134 m = 562949953421134)
    (h : Same m x s) : Ends m x (execPgTimeout s) := by
  unfold execPgTimeout
  repeat' (first | with_reducible assumption | intro _ | with_reducible apply ends_next | with_reducible apply ends_ite | with_reducible apply same_ite | with_reducible refine State.startDown_keeps (sub_of hm rfl) ?_ | with_reducible refine State.upFail_keeps (sub_of hm rfl) ?_ | exact regOk_all (sub_of hm rfl) _ | split | dsimp only)

theorem execRailDischarged_keeps {m : Nat} {x : State} {s : State} (hm : Nat.land 1149239818 m = 1149239818)
    (h : Same m x s) : Ends m x (execRailDischarged s) := by
  unfold execRailDischarged
  repeat' (first | with_reducible assumption | intro _ | with_reducible apply ends_next | with_reducible apply same_when | with_reducible refine State.downDone_keeps (sub_of hm rfl) ?_ | split | dsimp only)

theorem execDisTimeout_keeps {m : Nat} {x : State} {s : State} (hm : Nat.land 1166018062 m = 1166018062)
    (h : Same m x s) : Ends m x (execDisTimeout s) := by
  unfold execDisTimeout
  repeat' (first | with_reducible assumption | intro _ | with_reducible apply ends_next | with_reducible apply ends_ite | with_reducible apply same_ite | with_reducible refine State.setBit_keeps (sub_of hm rfl) ?_ ?_ | with_reducible refine State.downDone_keeps (sub_of hm rfl) ?_ | with_reducible refine State.rollSnap_keeps (sub_of hm rfl) ?_ | with_reducible refine State.raise_keeps (sub_of hm rfl) ?_ | with_reducible exact R.PSQ_RAIL_FLT_ok (sub_of hm rfl) | (with_reducible refine regOk_of (c := 3) (sub_of hm rfl) (blk3 ?_ ?_) <;> simp only [R.PSQ_RAIL_FLT] <;> omega) | split | dsimp only)

theorem execMinOffEnd_keeps {m : Nat} {x : State} {s : State} (hm : Nat.land 8803688973066 m = 8803688973066)
    (h : Same m x s) : Ends m x (execMinOffEnd s) := by
  unfold execMinOffEnd
  repeat' (first | with_reducible assumption | intro _ | with_reducible apply ends_next | with_reducible apply ends_ite | with_reducible apply same_ite | with_reducible refine State.lockout_keeps (sub_of hm rfl) ?_ | with_reducible refine State.tryUp_keeps (sub_of hm rfl) ?_ | with_reducible refine State.setPhase_keeps (sub_of hm rfl) ?_ | split | dsimp only)

theorem execRailPgFall_keeps {m : Nat} {x : State} {a0 : Fin 16} {s : State} (hm : Nat.land 562949953421134 m = 562949953421134)
    (h : Same m x s) : Ends m x (execRailPgFall a0 s) := by
  unfold execRailPgFall
  repeat' (first | with_reducible assumption | intro _ | with_reducible apply ends_next | with_reducible apply same_when | with_reducible refine State.setBit_keeps (sub_of hm rfl) ?_ ?_ | with_reducible refine State.railFault_keeps (sub_of hm rfl) ?_ | with_reducible exact R.PSQ_RAIL_ok (sub_of hm rfl) | (with_reducible refine regOk_of (c := 3) (sub_of hm rfl) (blk3 ?_ ?_) <;> simp only [R.PSQ_RAIL] <;> omega) | exact regOk_all (sub_of hm rfl) _ | split | dsimp only)

theorem execMarginTimeout_keeps {m : Nat} {x : State} {s : State} (hm : Nat.land 8797246521354 m = 8797246521354)
    (h : Same m x s) : Ends m x (execMarginTimeout s) := by
  unfold execMarginTimeout
  repeat' (first | with_reducible assumption | intro _ | with_reducible apply ends_next | with_reducible refine State.margClear_keeps (sub_of hm rfl) ?_ | split | dsimp only)

theorem execPmbusTransactionDone_keeps {m : Nat} {x : State} {a0 : Bool} {a1 : BitVec 16} {s : State} (hm : Nat.land 1166018062 m = 1166018062)
    (h : Same m x s) : Ends m x (execPmbusTransactionDone a0 a1 s) := by
  unfold execPmbusTransactionDone
  repeat' (first | with_reducible assumption | intro _ | with_reducible apply ends_next | with_reducible apply ends_ite | with_reducible apply same_ite | with_reducible apply same_when | with_reducible refine State.raise_keeps (sub_of hm rfl) ?_ | with_reducible refine State.bump_keeps (sub_of hm rfl) ?_ ?_ | with_reducible refine State.set_keeps (sub_of hm rfl) ?_ ?_ | with_reducible refine State.setBit_keeps (sub_of hm rfl) ?_ ?_ | fail_if_no_progress with_reducible refine upd_psq (sub_of hm rfl) ?_ | with_reducible exact R.PSQ_MARG_CTL_ok (sub_of hm rfl) | with_reducible exact R.PSQ_MARG_STS_ok (sub_of hm rfl) | with_reducible exact R.PSQ_PMB_ERR_ok (sub_of hm rfl) | (with_reducible refine regOk_of (c := 3) (sub_of hm rfl) (blk3 ?_ ?_) <;> simp only [R.PSQ_MARG_CTL, R.PSQ_MARG_STS, R.PSQ_PMB_ERR] <;> omega) | split | dsimp only)

theorem execCisternAverage_keeps {m : Nat} {x : State} {a0 : BitVec 16} {s : State} (hm : Nat.land 562949953421134 m = 562949953421134)
    (h : Same m x s) : Ends m x (execCisternAverage a0 s) := by
  unfold execCisternAverage
  repeat' (first | with_reducible assumption | intro _ | with_reducible apply ends_next | with_reducible apply ends_ite | with_reducible apply same_ite | with_reducible apply same_when | with_reducible refine State.wrN_keeps (sub_of hm rfl) ?_ ?_ | with_reducible refine State.drainShort_keeps (sub_of hm rfl) ?_ | with_reducible exact R.CIS_DIV_ok (sub_of hm rfl) | with_reducible exact R.CIS_V_ok (sub_of hm rfl) | with_reducible exact R.CIS_VMIN_ok (sub_of hm rfl) | (with_reducible refine regOk_of (c := 3) (sub_of hm rfl) (blk3 ?_ ?_) <;> simp only [R.CIS_DIV, R.CIS_V, R.CIS_VMIN] <;> omega) | exact regOk_all (sub_of hm rfl) _ | split | dsimp only)

theorem execBudgetCompute_keeps {m : Nat} {x : State} {s : State} (hm : Nat.land 314448633003790 m = 314448633003790)
    (h : Same m x s) : Ends m x (execBudgetCompute s) := by
  unfold execBudgetCompute
  repeat' (first | with_reducible assumption | intro _ | with_reducible apply ends_next | with_reducible apply ends_ite | with_reducible apply same_ite | with_reducible refine State.wrN_keeps (sub_of hm rfl) ?_ ?_ | with_reducible refine State.showBudget_keeps (sub_of hm rfl) ?_ | with_reducible refine State.firstBudget_keeps (sub_of hm rfl) ?_ | with_reducible refine State.pump_keeps (sub_of hm rfl) ?_ | with_reducible refine State.release_keeps (sub_of hm rfl) ?_ | fail_if_no_progress with_reducible refine upd_te (sub_of hm rfl) ?_ | with_reducible exact R.CIS_BUDGET_HI_ok (sub_of hm rfl) | with_reducible exact R.CIS_BUDGET_LO_ok (sub_of hm rfl) | with_reducible exact R.CIS_E_ok (sub_of hm rfl) | with_reducible exact R.CIS_V_ok (sub_of hm rfl) | with_reducible exact R.LC_STS_ok (sub_of hm rfl) | with_reducible exact R.TS_STS_ok (sub_of hm rfl) | (with_reducible refine regOk_of (c := 3) (sub_of hm rfl) (blk3 ?_ ?_) <;> simp only [R.CIS_BUDGET_HI, R.CIS_BUDGET_LO, R.CIS_E, R.CIS_V] <;> omega) | split | dsimp only)

theorem execCisChargeDeadline_keeps {m : Nat} {x : State} {a0 : Bool} {s : State} (hm : Nat.land 1149239306 m = 1149239306)
    (h : Same m x s) : Ends m x (execCisChargeDeadline a0 s) := by
  unfold execCisChargeDeadline
  repeat' (first | with_reducible assumption | intro _ | with_reducible apply ends_next | with_reducible apply ends_ite | with_reducible apply same_ite | with_reducible apply same_when | with_reducible refine State.cisRequest_keeps (sub_of hm rfl) ?_ | with_reducible refine State.setBit_keeps (sub_of hm rfl) ?_ ?_ | fail_if_no_progress with_reducible refine upd_psq (sub_of hm rfl) ?_ | with_reducible exact R.CIS_STS_ok (sub_of hm rfl) | with_reducible exact R.CIS_V_ok (sub_of hm rfl) | with_reducible exact R.CIS_VFULL_ok (sub_of hm rfl) | (with_reducible refine regOk_of (c := 3) (sub_of hm rfl) (blk3 ?_ ?_) <;> simp only [R.CIS_STS, R.CIS_V, R.CIS_VFULL] <;> omega) | split | dsimp only)

theorem execCisTestInterval_keeps {m : Nat} {x : State} {s : State} (hm : Nat.land 1149239306 m = 1149239306)
    (h : Same m x s) : Ends m x (execCisTestInterval s) := by
  unfold execCisTestInterval
  repeat' (first | with_reducible assumption | intro _ | with_reducible apply ends_next | with_reducible apply same_when | with_reducible refine State.cisRequest_keeps (sub_of hm rfl) ?_ | split | dsimp only)

theorem execCisTestDeferRetry_keeps {m : Nat} {x : State} {s : State} (hm : Nat.land 1149239306 m = 1149239306)
    (h : Same m x s) : Ends m x (execCisTestDeferRetry s) := by
  unfold execCisTestDeferRetry
  repeat' (first | with_reducible assumption | intro _ | with_reducible apply ends_next | with_reducible apply same_when | with_reducible refine State.cisStart_keeps (sub_of hm rfl) ?_ | split | dsimp only)

theorem execCisTestRepeat_keeps {m : Nat} {x : State} {s : State} (hm : Nat.land 1149239306 m = 1149239306)
    (h : Same m x s) : Ends m x (execCisTestRepeat s) := by
  unfold execCisTestRepeat
  repeat' (first | with_reducible assumption | intro _ | with_reducible apply ends_next | with_reducible apply same_when | with_reducible refine State.cisRequest_keeps (sub_of hm rfl) ?_ | fail_if_no_progress with_reducible refine upd_psq (sub_of hm rfl) ?_ | split | dsimp only)

theorem execCapTestStep_keeps {m : Nat} {x : State} {s : State} (hm : Nat.land 1104972646158 m = 1104972646158)
    (h : Same m x s) : Ends m x (execCapTestStep s) := by
  unfold execCapTestStep
  repeat' (first | with_reducible assumption | intro _ | with_reducible apply ends_next | with_reducible apply ends_ite | with_reducible apply same_ite | with_reducible apply same_dite | with_reducible apply same_foldl | with_reducible refine State.emit_keeps (sub_of hm rfl) ?_ | with_reducible refine State.railEn_keeps (sub_of hm rfl) ?_ | with_reducible refine State.cisResult_keeps (sub_of hm rfl) ?_ | fail_if_no_progress with_reducible refine upd_psq (sub_of hm rfl) ?_ | split | dsimp only)

theorem execDrainStepDone_keeps {m : Nat} {x : State} {s : State} (hm : Nat.land 562949953421134 m = 562949953421134)
    (h : Same m x s) : Ends m x (execDrainStepDone s) := by
  unfold execDrainStepDone
  repeat' (first | with_reducible assumption | intro _ | with_reducible apply ends_next | with_reducible apply same_when | with_reducible refine State.drainStep_keeps (sub_of hm rfl) ?_ | exact regOk_all (sub_of hm rfl) _ | split | dsimp only)

theorem execThermalDrainLimit_keeps {m : Nat} {x : State} {s : State} (hm : Nat.land 562949953421134 m = 562949953421134)
    (h : Same m x s) : Ends m x (execThermalDrainLimit s) := by
  unfold execThermalDrainLimit
  repeat' (first | with_reducible assumption | intro _ | with_reducible apply ends_next | with_reducible apply same_when | with_reducible refine State.drainShort_keeps (sub_of hm rfl) ?_ | exact regOk_all (sub_of hm rfl) _ | split | dsimp only)

theorem execShutdownStepDone_keeps {m : Nat} {x : State} {s : State} (hm : Nat.land 562949953421134 m = 562949953421134)
    (h : Same m x s) : Ends m x (execShutdownStepDone s) := by
  unfold execShutdownStepDone
  repeat' (first | with_reducible assumption | intro _ | with_reducible apply ends_next | with_reducible apply same_when | with_reducible refine State.shutdownStep_keeps (sub_of hm rfl) ?_ | exact regOk_all (sub_of hm rfl) _ | split | dsimp only)

end Sys2Proof.Machine
end

