-- ==== Sys2Proof/Laws/FrameQueue.lean ====
section
/-! SUPPORT. The frame of every operation of Machine/Queue.lean, as a mask of the kinds of state that it may change. -/

set_option autoImplicit false
set_option linter.unusedTactic false
set_option linter.unreachableTactic false
set_option linter.unnecessarySeqFocus false
set_option linter.unusedSimpArgs false
set_option linter.unusedVariables false

namespace Sys2Proof.Machine

theorem State.holdPhy_keeps {m : Nat} {x : State} {s : State} {a1 : Nat} (hm : Nat.land 141287311360526 m = 141287311360526)
    (h : Same m x s) : Same m x (State.holdPhy s a1) := by
  unfold State.holdPhy
  repeat' (first | with_reducible assumption | intro _ | with_reducible apply same_ite | with_reducible refine State.setBit_keeps (sub_of hm rfl) ?_ ?_ | with_reducible refine State.linkLoss_keeps (sub_of hm rfl) ?_ | with_reducible refine State.drawn_keeps (sub_of hm rfl) ?_ | with_reducible exact R.TST_PHY_CTL_ok (sub_of hm rfl) | (with_reducible refine regOk_of (c := 20) (sub_of hm rfl) (blk20 ?_ ?_) <;> simp only [R.TST_PHY_CTL] <;> omega) | split | dsimp only)

theorem State.jtagLoad_keeps {m : Nat} {x : State} {s : State} {a1 : Nat} {a2 : Bool} (hm : Nat.land 562949953421150 m = 562949953421150)
    (h : Same m x s) : Same m x (State.jtagLoad s a1 a2) := by
  unfold State.jtagLoad
  repeat' (first | with_reducible assumption | intro _ | with_reducible apply same_ite | with_reducible refine State.coreReset_keeps (sub_of hm rfl) ?_ | with_reducible refine State.resetDown_keeps (sub_of hm rfl) ?_ | with_reducible refine State.coreStart_keeps (sub_of hm rfl) ?_ | fail_if_no_progress with_reducible refine upd_boot (sub_of hm rfl) ?_ | fail_if_no_progress with_reducible refine upd_tst (sub_of hm rfl) ?_ | fail_if_no_progress with_reducible refine upd_tick_boot (sub_of hm rfl) ?_ | exact regOk_all (sub_of hm rfl) _ | split | dsimp only)

theorem execMqFlushDn_keeps {m : Nat} {x : State} {a0 : Fin 8} {a1 : Path} {s : State} (hm : Nat.land 70368861618186 m = 70368861618186)
    (h : Same m x s) : Ends m x (execMqFlushDn a0 a1 s) := by
  unfold execMqFlushDn
  repeat' (first | with_reducible assumption | intro _ | with_reducible apply ends_next | with_reducible apply ends_ite | with_reducible apply same_ite | with_reducible refine State.regAcc_keeps (sub_of hm rfl) ?_ | with_reducible refine State.setBit_keeps (sub_of hm rfl) ?_ ?_ | with_reducible refine State.mqFlushDn_keeps (sub_of hm rfl) ?_ | with_reducible exact R.MQ_CTL_ok (sub_of hm rfl) | with_reducible exact R.MQ_STS_ok (sub_of hm rfl) | (with_reducible refine regOk_of (c := 19) (sub_of hm rfl) (blk19 ?_ ?_) <;> simp only [R.MQ_CTL, R.MQ_STS] <;> omega) | split | dsimp only)

theorem execMqFlushUp_keeps {m : Nat} {x : State} {a0 : Fin 8} {a1 : Path} {s : State} (hm : Nat.land 70368861618186 m = 70368861618186)
    (h : Same m x s) : Ends m x (execMqFlushUp a0 a1 s) := by
  unfold execMqFlushUp
  repeat' (first | with_reducible assumption | intro _ | with_reducible apply ends_next | with_reducible apply ends_ite | with_reducible apply same_ite | with_reducible refine State.regAcc_keeps (sub_of hm rfl) ?_ | with_reducible refine State.setBit_keeps (sub_of hm rfl) ?_ ?_ | with_reducible refine State.mqFlushUp_keeps (sub_of hm rfl) ?_ | with_reducible exact R.MQ_CTL_ok (sub_of hm rfl) | with_reducible exact R.MQ_STS_ok (sub_of hm rfl) | (with_reducible refine regOk_of (c := 19) (sub_of hm rfl) (blk19 ?_ ?_) <;> simp only [R.MQ_CTL, R.MQ_STS] <;> omega) | split | dsimp only)

theorem execMqReset_keeps {m : Nat} {x : State} {a0 : Fin 8} {a1 : Path} {s : State} (hm : Nat.land 70368861618186 m = 70368861618186)
    (h : Same m x s) : Ends m x (execMqReset a0 a1 s) := by
  unfold execMqReset
  repeat' (first | with_reducible assumption | intro _ | with_reducible apply ends_next | with_reducible refine State.regAcc_keeps (sub_of hm rfl) ?_ | with_reducible refine State.mqReset_keeps (sub_of hm rfl) ?_ | split | dsimp only)

theorem execMqPushLo_keeps {m : Nat} {x : State} {a0 : Fin 8} {a1 : Path} {a2 : Word} {s : State} (hm : Nat.land 100663304 m = 100663304)
    (h : Same m x s) : Ends m x (execMqPushLo a0 a1 a2 s) := by
  unfold execMqPushLo
  repeat' (first | with_reducible assumption | intro _ | with_reducible apply ends_next | with_reducible apply ends_ite | with_reducible apply same_ite | with_reducible refine State.regAcc_keeps (sub_of hm rfl) ?_ | with_reducible refine State.mqMod_keeps (sub_of hm rfl) ?_ | split | dsimp only)

theorem State.pushHigh_keeps {m : Nat} {x : State} {s : State} {a1 : Nat} {a2 : Path} {a3 : Word} {a4 : Bool} {a5 : Bool} (hm : Nat.land 70368861619726 m = 70368861619726)
    (h : Same m x s) : Same m x (State.pushHigh s a1 a2 a3 a4 a5) := by
  unfold State.pushHigh
  repeat' (first | with_reducible assumption | intro _ | with_reducible apply same_ite | with_reducible refine State.mqPtrFault_keeps (sub_of hm rfl) ?_ | with_reducible refine State.mqPush_keeps (sub_of hm rfl) ?_ | split | dsimp only)

theorem execMqPushHi_keeps {m : Nat} {x : State} {a0 : Fin 8} {a1 : Path} {a2 : Word} {a3 : Bool} {s : State} (hm : Nat.land 70368861619726 m = 70368861619726)
    (h : Same m x s) : Ends m x (execMqPushHi a0 a1 a2 a3 s) := by
  unfold execMqPushHi
  repeat' (first | with_reducible assumption | intro _ | with_reducible apply ends_next | with_reducible refine State.regAcc_keeps (sub_of hm rfl) ?_ | with_reducible refine State.pushHigh_keeps (sub_of hm rfl) ?_ | split | dsimp only)

theorem execMqPushHiEnd_keeps {m : Nat} {x : State} {a0 : Fin 8} {a1 : Path} {a2 : Word} {a3 : Bool} {s : State} (hm : Nat.land 70368861619726 m = 70368861619726)
    (h : Same m x s) : Ends m x (execMqPushHiEnd a0 a1 a2 a3 s) := by
  unfold execMqPushHiEnd
  repeat' (first | with_reducible assumption | intro _ | with_reducible apply ends_next | with_reducible refine State.regAcc_keeps (sub_of hm rfl) ?_ | with_reducible refine State.pushHigh_keeps (sub_of hm rfl) ?_ | split | dsimp only)

theorem execMqCntClr_keeps {m : Nat} {x : State} {a0 : Fin 8} {a1 : Path} {a2 : Word} {s : State} (hm : Nat.land 70368811286536 m = 70368811286536)
    (h : Same m x s) : Ends m x (execMqCntClr a0 a1 a2 s) := by
  unfold execMqCntClr
  repeat' (first | with_reducible exact list_ok_nil | with_reducible refine list_ok_cons ?_ ?_ | with_reducible refine list_ok_append ?_ ?_ | with_reducible exact pc_ok | with_reducible refine range_ok ?_ | with_reducible assumption | intro _ | with_reducible apply ends_next | with_reducible apply same_when | with_reducible refine State.regAcc_keeps (sub_of hm rfl) ?_ | with_reducible refine State.zero_keeps (sub_of hm rfl) ?_ ?_ | with_reducible exact R.MQ_DROP_PKT_ok (sub_of hm rfl) | with_reducible exact R.MQ_PTR_CNT_ok (sub_of hm rfl) | (with_reducible refine regOk_of (c := 19) (sub_of hm rfl) (blk19 ?_ ?_) <;> simp only [R.MQ_DROP_PKT, R.MQ_PTR_CNT] <;> omega) | split | dsimp only)

theorem execMqPopLo_keeps {m : Nat} {x : State} {a0 : Fin 8} {a1 : Path} {s : State} (hm : Nat.land 70368844840970 m = 70368844840970)
    (h : Same m x s) : Ends m x (execMqPopLo a0 a1 s) := by
  unfold execMqPopLo
  repeat' (first | with_reducible assumption | intro _ | with_reducible apply ends_next | with_reducible refine State.regAcc_keeps (sub_of hm rfl) ?_ | with_reducible refine State.emit_keeps (sub_of hm rfl) ?_ | with_reducible refine State.setBit_keeps (sub_of hm rfl) ?_ ?_ | with_reducible refine State.mqMod_keeps (sub_of hm rfl) ?_ | with_reducible exact R.MQ_POP_LO_ok (sub_of hm rfl) | with_reducible exact R.MQ_STS_ok (sub_of hm rfl) | (with_reducible refine regOk_of (c := 19) (sub_of hm rfl) (blk19 ?_ ?_) <;> simp only [R.MQ_POP_LO, R.MQ_STS] <;> omega) | split | dsimp only)

theorem execMqPopHi_keeps {m : Nat} {x : State} {a0 : Fin 8} {a1 : Path} {a2 : Bool} {s : State} (hm : Nat.land 70368861619726 m = 70368861619726)
    (h : Same m x s) : Ends m x (execMqPopHi a0 a1 a2 s) := by
  unfold execMqPopHi
  repeat' (first | with_reducible assumption | intro _ | with_reducible apply ends_next | with_reducible apply ends_ite | with_reducible apply same_ite | with_reducible apply same_when | with_reducible refine State.regAcc_keeps (sub_of hm rfl) ?_ | with_reducible refine State.emit_keeps (sub_of hm rfl) ?_ | with_reducible refine State.mqMod_keeps (sub_of hm rfl) ?_ | with_reducible refine State.mqPtrFault_keeps (sub_of hm rfl) ?_ | with_reducible refine State.drawn_keeps (sub_of hm rfl) ?_ | with_reducible refine State.setBit_keeps (sub_of hm rfl) ?_ ?_ | with_reducible refine State.mqPut_keeps (sub_of hm rfl) ?_ | with_reducible refine State.pcEvent_keeps (sub_of hm rfl) ?_ | with_reducible refine State.mqFlushUp_keeps (sub_of hm rfl) ?_ | with_reducible exact R.MQ_POP_HI_ok (sub_of hm rfl) | with_reducible exact R.MQ_STS_ok (sub_of hm rfl) | (with_reducible refine regOk_of (c := 19) (sub_of hm rfl) (blk19 ?_ ?_) <;> simp only [R.MQ_POP_HI, R.MQ_STS] <;> omega) | split | dsimp only)

theorem State.releasePhy_keeps {m : Nat} {x : State} {s : State} {a1 : Nat} (hm : Nat.land 140737555464204 m = 140737555464204)
    (h : Same m x s) : Same m x (State.releasePhy s a1) := by
  unfold State.releasePhy
  repeat' (first | with_reducible assumption | intro _ | with_reducible apply same_foldl | with_reducible refine State.setBit_keeps (sub_of hm rfl) ?_ ?_ | with_reducible refine State.laneStop_keeps (sub_of hm rfl) ?_ | with_reducible exact R.TST_PHY_CTL_ok (sub_of hm rfl) | (with_reducible refine regOk_of (c := 20) (sub_of hm rfl) (blk20 ?_ ?_) <;> simp only [R.TST_PHY_CTL] <;> omega) | split | dsimp only)

theorem State.winCtl_keeps {m : Nat} {x : State} {s : State} {a1 : Nat} {a2 : Word} {a3 : Nat} (hm : Nat.land 67108872 m = 67108872)
    (h : Same m x s) : Same m x (State.winCtl s a1 a2 a3) := by
  unfold State.winCtl
  repeat' (first | with_reducible exact list_ok_nil | with_reducible refine list_ok_cons ?_ ?_ | with_reducible refine list_ok_append ?_ ?_ | with_reducible exact pc_ok | with_reducible refine range_ok ?_ | with_reducible assumption | intro _ | with_reducible apply same_when | with_reducible refine State.keepWraps_keeps (sub_of hm rfl) ?_ | with_reducible refine State.winWrite_keeps (sub_of hm rfl) ?_ | with_reducible refine State.set_keeps (sub_of hm rfl) ?_ ?_ | with_reducible refine State.zero_keeps (sub_of hm rfl) ?_ ?_ | with_reducible refine State.winOpen_keeps (sub_of hm rfl) ?_ | with_reducible refine State.winClose_keeps (sub_of hm rfl) ?_ | with_reducible exact R.PC_CNT_ok | with_reducible exact R.PC_WIN_CTL_ok | exact .inl rfl | (with_reducible refine book1_ok ?_ <;> simp only [R.PC_CNT, R.PC_WIN_CTL] <;> omega) | split | dsimp only)

theorem runMbox_keeps {m : Nat} {x : State} {a0 : MboxOp} {a1 : Fin 8} {s : State} (hm : Nat.land 314447827697422 m = 314447827697422)
    (h : Same m x s) : Ends m x (runMbox a0 a1 s) := by
  unfold runMbox
  repeat' (first | with_reducible assumption | intro _ | with_reducible apply ends_next | with_reducible apply ends_ite | with_reducible apply same_ite | with_reducible apply thenState_keeps | with_reducible refine execGetEventRecords_keeps (sub_of hm rfl) ?_ | with_reducible refine execClearEventRecords_keeps (sub_of hm rfl) ?_ | with_reducible refine execGetEventInterruptPolicy_keeps (sub_of hm rfl) ?_ | with_reducible refine execSetEventInterruptPolicy_keeps (sub_of hm rfl) ?_ | with_reducible refine execGetFwInfo_keeps (sub_of hm rfl) ?_ | with_reducible refine execTransferFw_keeps (sub_of hm rfl) ?_ | with_reducible refine execActivateFw_keeps (sub_of hm rfl) ?_ | with_reducible refine execGetTimestamp_keeps (sub_of hm rfl) ?_ | with_reducible refine execSetTimestamp_keeps (sub_of hm rfl) ?_ | with_reducible refine execGetSupportedLogs_keeps (sub_of hm rfl) ?_ | with_reducible refine execGetLog_keeps (sub_of hm rfl) ?_ | with_reducible refine execIdentifyMemoryDevice_keeps (sub_of hm rfl) ?_ | with_reducible refine execGetHealthInfo_keeps (sub_of hm rfl) ?_ | with_reducible refine execGetAlertConfiguration_keeps (sub_of hm rfl) ?_ | with_reducible refine execSetAlertConfiguration_keeps (sub_of hm rfl) ?_ | with_reducible refine execGetShutdownState_keeps (sub_of hm rfl) ?_ | with_reducible refine execSetShutdownState_keeps (sub_of hm rfl) ?_ | with_reducible refine execGetPoisonList_keeps (sub_of hm rfl) ?_ | with_reducible refine execInjectPoison_keeps (sub_of hm rfl) ?_ | with_reducible refine execClearPoison_keeps (sub_of hm rfl) ?_ | with_reducible refine execGetScanMediaCapabilities_keeps (sub_of hm rfl) ?_ | with_reducible refine execScanMedia_keeps (sub_of hm rfl) ?_ | with_reducible refine execGetScanMediaResults_keeps (sub_of hm rfl) ?_ | with_reducible refine execSanitize_keeps (sub_of hm rfl) ?_ | with_reducible refine execSecureErase_keeps (sub_of hm rfl) ?_ | with_reducible refine execGetDcConfiguration_keeps (sub_of hm rfl) ?_ | with_reducible refine execGetDcExtentList_keeps (sub_of hm rfl) ?_ | with_reducible refine execAddDcResponse_keeps (sub_of hm rfl) ?_ | with_reducible refine execReleaseDc_keeps (sub_of hm rfl) ?_ | with_reducible refine execGetLatencyReport_keeps (sub_of hm rfl) ?_ | with_reducible refine execRegionSet_keeps (sub_of hm rfl) ?_ | with_reducible refine execContextSet_keeps (sub_of hm rfl) ?_ | with_reducible refine execRegionEnable_keeps (sub_of hm rfl) ?_ | with_reducible refine execRegionDisableForce_keeps (sub_of hm rfl) ?_ | with_reducible refine execRegionDisable_keeps (sub_of hm rfl) ?_ | with_reducible refine execRegionQuery_keeps (sub_of hm rfl) ?_ | with_reducible refine execContextPrepare_keeps (sub_of hm rfl) ?_ | with_reducible refine execRekeyErase_keeps (sub_of hm rfl) ?_ | with_reducible refine execRekey_keeps (sub_of hm rfl) ?_ | with_reducible refine execDiscard_keeps (sub_of hm rfl) ?_ | with_reducible refine execRangeInvalidate_keeps (sub_of hm rfl) ?_ | with_reducible refine execRangeClean_keeps (sub_of hm rfl) ?_ | with_reducible refine execRangeCleanInv_keeps (sub_of hm rfl) ?_ | with_reducible refine execRangeLock_keeps (sub_of hm rfl) ?_ | with_reducible refine execRangeUnlock_keeps (sub_of hm rfl) ?_ | with_reducible refine execRangeZero_keeps (sub_of hm rfl) ?_ | with_reducible refine execGetReportCard_keeps (sub_of hm rfl) ?_ | with_reducible refine execSetReadWrite_keeps (sub_of hm rfl) ?_ | with_reducible refine execPortRoleSet_keeps (sub_of hm rfl) ?_ | with_reducible refine execLifecycleSet_keeps (sub_of hm rfl) ?_ | with_reducible refine execLoadTransferKey_keeps (sub_of hm rfl) ?_ | with_reducible refine execStreamOpen_keeps (sub_of hm rfl) ?_ | with_reducible refine execStreamRun_keeps (sub_of hm rfl) ?_ | with_reducible refine execStreamSave_keeps (sub_of hm rfl) ?_ | with_reducible refine execStreamRestore_keeps (sub_of hm rfl) ?_ | with_reducible refine execStreamAbort_keeps (sub_of hm rfl) ?_ | with_reducible refine execAdmitPair_keeps (sub_of hm rfl) ?_ | with_reducible refine execAdmitSolo_keeps (sub_of hm rfl) ?_ | with_reducible refine execAdmitKeep_keeps (sub_of hm rfl) ?_ | with_reducible refine execDetach_keeps (sub_of hm rfl) ?_ | with_reducible refine execRollBookRead_keeps (sub_of hm rfl) ?_ | with_reducible refine execRollBookArchiveAndClear_keeps (sub_of hm rfl) ?_ | with_reducible refine execParameterRead_keeps (sub_of hm rfl) ?_ | with_reducible refine execParameterWrite_keeps (sub_of hm rfl) ?_ | split | dsimp only)

theorem execMqCommand_keeps {m : Nat} {x : State} {a0 : Fin 8} {a1 : Option MboxOp} {s : State} (hm : Nat.land 384816571875086 m = 384816571875086)
    (h : Same m x s) : Ends m x (execMqCommand a0 a1 s) := by
  unfold execMqCommand
  repeat' (first | with_reducible assumption | intro _ | with_reducible apply ends_next | with_reducible apply ends_ite | with_reducible apply same_ite | with_reducible apply thenState_keeps | with_reducible refine State.mqPut_keeps (sub_of hm rfl) ?_ | with_reducible refine State.mbox_keeps (sub_of hm rfl) ?_ | with_reducible refine runMbox_keeps (sub_of hm rfl) ?_ | split | dsimp only)

theorem execMqReply_keeps {m : Nat} {x : State} {a0 : Fin 8} {s : State} (hm : Nat.land 70368861618186 m = 70368861618186)
    (h : Same m x s) : Ends m x (execMqReply a0 s) := by
  unfold execMqReply
  repeat' (first | with_reducible assumption | intro _ | with_reducible apply ends_next | with_reducible apply ends_ite | with_reducible apply same_ite | with_reducible apply same_when | with_reducible refine State.mqPut_keeps (sub_of hm rfl) ?_ | with_reducible refine State.emit_keeps (sub_of hm rfl) ?_ | split | dsimp only)

theorem execPcWinStart_keeps {m : Nat} {x : State} {a0 : Fin 110} {a1 : Path} {a2 : Word} {s : State} (hm : Nat.land 67108872 m = 67108872)
    (h : Same m x s) : Ends m x (execPcWinStart a0 a1 a2 s) := by
  unfold execPcWinStart
  repeat' (first | with_reducible assumption | intro _ | with_reducible apply ends_next | with_reducible apply same_when | with_reducible refine State.regAcc_keeps (sub_of hm rfl) ?_ | with_reducible refine State.winCtl_keeps (sub_of hm rfl) ?_ | split | dsimp only)

theorem execPcWinStop_keeps {m : Nat} {x : State} {a0 : Fin 110} {a1 : Path} {a2 : Word} {s : State} (hm : Nat.land 67108872 m = 67108872)
    (h : Same m x s) : Ends m x (execPcWinStop a0 a1 a2 s) := by
  unfold execPcWinStop
  repeat' (first | with_reducible assumption | intro _ | with_reducible apply ends_next | with_reducible apply same_when | with_reducible refine State.regAcc_keeps (sub_of hm rfl) ?_ | with_reducible refine State.winCtl_keeps (sub_of hm rfl) ?_ | split | dsimp only)

theorem execPcWinClr_keeps {m : Nat} {x : State} {a0 : Fin 110} {a1 : Path} {a2 : Word} {s : State} (hm : Nat.land 67108872 m = 67108872)
    (h : Same m x s) : Ends m x (execPcWinClr a0 a1 a2 s) := by
  unfold execPcWinClr
  repeat' (first | with_reducible assumption | intro _ | with_reducible apply ends_next | with_reducible apply same_when | with_reducible refine State.regAcc_keeps (sub_of hm rfl) ?_ | with_reducible refine State.winCtl_keeps (sub_of hm rfl) ?_ | split | dsimp only)

theorem execPcWindowEnd_keeps {m : Nat} {x : State} {a0 : Fin 110} {s : State} (hm : Nat.land 8 m = 8)
    (h : Same m x s) : Ends m x (execPcWindowEnd a0 s) := by
  unfold execPcWindowEnd
  repeat' (first | with_reducible assumption | intro _ | with_reducible apply ends_next | with_reducible apply same_when | with_reducible refine State.winClose_keeps (sub_of hm rfl) ?_ | split | dsimp only)

theorem execTstPcStart_keeps {m : Nat} {x : State} {a0 : Path} {s : State} (hm : Nat.land 67108872 m = 67108872)
    (h : Same m x s) : Ends m x (execTstPcStart a0 s) := by
  unfold execTstPcStart
  repeat' (first | with_reducible assumption | intro _ | with_reducible apply ends_next | with_reducible apply same_when | with_reducible apply same_foldl | with_reducible refine State.regAcc_keeps (sub_of hm rfl) ?_ | with_reducible refine State.winOpen_keeps (sub_of hm rfl) ?_ | split | dsimp only)

theorem execTstPcStop_keeps {m : Nat} {x : State} {a0 : Path} {s : State} (hm : Nat.land 67108872 m = 67108872)
    (h : Same m x s) : Ends m x (execTstPcStop a0 s) := by
  unfold execTstPcStop
  repeat' (first | with_reducible assumption | intro _ | with_reducible apply ends_next | with_reducible apply same_when | with_reducible apply same_foldl | with_reducible refine State.regAcc_keeps (sub_of hm rfl) ?_ | with_reducible refine State.winClose_keeps (sub_of hm rfl) ?_ | split | dsimp only)

theorem execTstPhyCtlWrite_keeps {m : Nat} {x : State} {a0 : Path} {a1 : Word} {s : State} (hm : Nat.land 141287311360526 m = 141287311360526)
    (h : Same m x s) : Ends m x (execTstPhyCtlWrite a0 a1 s) := by
  unfold execTstPhyCtlWrite
  repeat' (first | with_reducible assumption | intro _ | with_reducible apply ends_next | with_reducible apply ends_ite | with_reducible apply same_ite | with_reducible apply same_foldl | with_reducible refine State.regAcc_keeps (sub_of hm rfl) ?_ | with_reducible refine State.releasePhy_keeps (sub_of hm rfl) ?_ | with_reducible refine State.holdPhy_keeps (sub_of hm rfl) ?_ | with_reducible refine State.setBit_keeps (sub_of hm rfl) ?_ ?_ | with_reducible refine State.laneShow_keeps (sub_of hm rfl) ?_ | with_reducible exact R.TST_PAT_STS_ok (sub_of hm rfl) | (with_reducible refine regOk_of (c := 20) (sub_of hm rfl) (blk20 ?_ ?_) <;> simp only [R.TST_PAT_STS] <;> omega) | split | dsimp only)

theorem execTstPatStart_keeps {m : Nat} {x : State} {a0 : Path} {a1 : Word} {s : State} (hm : Nat.land 140737555464200 m = 140737555464200)
    (h : Same m x s) : Ends m x (execTstPatStart a0 a1 s) := by
  unfold execTstPatStart
  repeat' (first | with_reducible assumption | intro _ | with_reducible apply ends_next | with_reducible apply ends_ite | with_reducible apply same_ite | with_reducible apply same_foldl | with_reducible refine State.regAcc_keeps (sub_of hm rfl) ?_ | with_reducible refine State.pcEvent_keeps (sub_of hm rfl) ?_ | with_reducible refine State.laneMod_keeps (sub_of hm rfl) ?_ | with_reducible refine State.laneShow_keeps (sub_of hm rfl) ?_ | with_reducible refine State.setBit_keeps (sub_of hm rfl) ?_ ?_ | with_reducible exact R.TST_PAT_STS_ok (sub_of hm rfl) | (with_reducible refine regOk_of (c := 20) (sub_of hm rfl) (blk20 ?_ ?_) <;> simp only [R.TST_PAT_STS] <;> omega) | split | dsimp only)

theorem execTstPatStop_keeps {m : Nat} {x : State} {a0 : Path} {a1 : List (Nat × Nat)} {s : State} (hm : Nat.land 140737555464204 m = 140737555464204)
    (h : Same m x s) : Ends m x (execTstPatStop a0 a1 s) := by
  unfold execTstPatStop
  repeat' (first | with_reducible assumption | intro _ | with_reducible apply ends_next | with_reducible apply ends_ite | with_reducible apply same_ite | with_reducible apply same_foldl | with_reducible refine State.regAcc_keeps (sub_of hm rfl) ?_ | with_reducible refine State.laneMod_keeps (sub_of hm rfl) ?_ | with_reducible refine State.laneCount_keeps (sub_of hm rfl) ?_ | with_reducible refine State.laneStop_keeps (sub_of hm rfl) ?_ | with_reducible refine State.laneShow_keeps (sub_of hm rfl) ?_ | with_reducible refine State.setBit_keeps (sub_of hm rfl) ?_ ?_ | with_reducible exact R.TST_PAT_STS_ok (sub_of hm rfl) | (with_reducible refine regOk_of (c := 20) (sub_of hm rfl) (blk20 ?_ ?_) <;> simp only [R.TST_PAT_STS] <;> omega) | split | dsimp only)

theorem execTstPatInj_keeps {m : Nat} {x : State} {a0 : Path} {s : State} (hm : Nat.land 67108874 m = 67108874)
    (h : Same m x s) : Ends m x (execTstPatInj a0 s) := by
  unfold execTstPatInj
  repeat' (first | with_reducible assumption | intro _ | with_reducible apply ends_next | with_reducible apply same_when | with_reducible refine State.regAcc_keeps (sub_of hm rfl) ?_ | with_reducible refine State.emit_keeps (sub_of hm rfl) ?_ | split | dsimp only)

theorem execTstMargStart_keeps {m : Nat} {x : State} {a0 : Path} {a1 : Word} {s : State} (hm : Nat.land 140737555464200 m = 140737555464200)
    (h : Same m x s) : Ends m x (execTstMargStart a0 a1 s) := by
  unfold execTstMargStart
  repeat' (first | with_reducible assumption | intro _ | with_reducible apply ends_next | with_reducible apply ends_ite | with_reducible apply same_ite | with_reducible refine State.regAcc_keeps (sub_of hm rfl) ?_ | with_reducible refine State.wrN_keeps (sub_of hm rfl) ?_ ?_ | with_reducible refine State.setBit_keeps (sub_of hm rfl) ?_ ?_ | fail_if_no_progress with_reducible refine upd_tst (sub_of hm rfl) ?_ | with_reducible exact R.CAR_STS_ok (sub_of hm rfl) | with_reducible exact R.TST_MARG_CTL_ok (sub_of hm rfl) | with_reducible exact R.TST_MARG_STS_ok (sub_of hm rfl) | (with_reducible refine regOk_of (c := 20) (sub_of hm rfl) (blk20 ?_ ?_) <;> simp only [R.TST_MARG_CTL, R.TST_MARG_STS] <;> omega) | split | dsimp only)

theorem execTstMargStop_keeps {m : Nat} {x : State} {a0 : Path} {a1 : BitVec 6} {s : State} (hm : Nat.land 140737555464200 m = 140737555464200)
    (h : Same m x s) : Ends m x (execTstMargStop a0 a1 s) := by
  unfold execTstMargStop
  repeat' (first | with_reducible assumption | intro _ | with_reducible apply ends_next | with_reducible apply same_when | with_reducible refine State.regAcc_keeps (sub_of hm rfl) ?_ | with_reducible refine State.margEnd_keeps (sub_of hm rfl) ?_ | split | dsimp only)

theorem execMarginStepEnd_keeps {m : Nat} {x : State} {a0 : BitVec 6} {s : State} (hm : Nat.land 140737555464200 m = 140737555464200)
    (h : Same m x s) : Ends m x (execMarginStepEnd a0 s) := by
  unfold execMarginStepEnd
  repeat' (first | with_reducible assumption | intro _ | with_reducible apply ends_next | with_reducible refine State.margEnd_keeps (sub_of hm rfl) ?_ | split | dsimp only)

theorem execLaneMarginCommand_keeps {m : Nat} {x : State} {a0 : Fin 8} {a1 : Fin 16} {a2 : MargCmd} {s : State} (hm : Nat.land 67108878 m = 67108878)
    (h : Same m x s) : Ends m x (execLaneMarginCommand a0 a1 a2 s) := by
  unfold execLaneMarginCommand
  repeat' (first | with_reducible assumption | intro _ | with_reducible apply ends_next | with_reducible apply ends_ite | with_reducible apply same_ite | with_reducible refine State.emit_keeps (sub_of hm rfl) ?_ | with_reducible refine State.drawn_keeps (sub_of hm rfl) ?_ | split | dsimp only)

theorem execPcieLoopbackEntry_keeps {m : Nat} {x : State} {a0 : Fin 8} {s : State} (hm : Nat.land 1099578737162 m = 1099578737162)
    (h : Same m x s) : Ends m x (execPcieLoopbackEntry a0 s) := by
  unfold execPcieLoopbackEntry
  repeat' (first | with_reducible assumption | intro _ | with_reducible apply ends_next | with_reducible apply ends_ite | with_reducible apply same_ite | with_reducible refine State.emit_keeps (sub_of hm rfl) ?_ | with_reducible refine State.hostLinkDown_keeps (sub_of hm rfl) ?_ | split | dsimp only)

theorem execJtagInstructionUpdate_keeps {m : Nat} {x : State} {a0 : BitVec 8} {a1 : Bool} {s : State} (hm : Nat.land 562949953421150 m = 562949953421150)
    (h : Same m x s) : Ends m x (execJtagInstructionUpdate a0 a1 s) := by
  unfold execJtagInstructionUpdate
  repeat' (first | with_reducible assumption | intro _ | with_reducible apply ends_next | with_reducible refine State.jtagLoad_keeps (sub_of hm rfl) ?_ | exact regOk_all (sub_of hm rfl) _ | split | dsimp only)

theorem execTrstN_keeps {m : Nat} {x : State} {a0 : Bool} {s : State} (hm : Nat.land 562949953421150 m = 562949953421150)
    (h : Same m x s) : Ends m x (execTrstN a0 s) := by
  unfold execTrstN
  repeat' (first | with_reducible assumption | intro _ | with_reducible apply ends_next | with_reducible refine State.jtagLoad_keeps (sub_of hm rfl) ?_ | exact regOk_all (sub_of hm rfl) _ | split | dsimp only)

theorem execPatternSyncGain_keeps {m : Nat} {x : State} {a0 : Fin 120} {s : State} (hm : Nat.land 158329741508616 m = 158329741508616)
    (h : Same m x s) : Ends m x (execPatternSyncGain a0 s) := by
  unfold execPatternSyncGain
  repeat' (first | with_reducible assumption | intro _ | with_reducible apply ends_next | with_reducible apply ends_ite | with_reducible apply same_ite | with_reducible refine State.laneShow_keeps (sub_of hm rfl) ?_ | with_reducible refine State.laneMod_keeps (sub_of hm rfl) ?_ | with_reducible refine State.setBit_keeps (sub_of hm rfl) ?_ ?_ | with_reducible exact R.MC_PAT_CTL_ok (sub_of hm rfl) | with_reducible exact R.MC_STS_ok (sub_of hm rfl) | (with_reducible refine regOk_of (c := 17) (sub_of hm rfl) (blk17 ?_ ?_) <;> simp only [R.MC_PAT_CTL, R.MC_STS] <;> omega) | split | dsimp only)

theorem execPatternSyncLoss_keeps {m : Nat} {x : State} {a0 : Fin 80} {a1 : Nat} {a2 : Nat} {s : State} (hm : Nat.land 140737555464204 m = 140737555464204)
    (h : Same m x s) : Ends m x (execPatternSyncLoss a0 a1 a2 s) := by
  unfold execPatternSyncLoss
  repeat' (first | with_reducible assumption | intro _ | with_reducible apply ends_next | with_reducible apply ends_ite | with_reducible apply same_ite | with_reducible refine State.laneShow_keeps (sub_of hm rfl) ?_ | with_reducible refine State.laneMod_keeps (sub_of hm rfl) ?_ | with_reducible refine State.laneCount_keeps (sub_of hm rfl) ?_ | split | dsimp only)

end Sys2Proof.Machine
end

