-- ==== Sys2Proof/Laws/FrameOperands.lean ====
section
/-! SUPPORT. The frame of every operation of Machine/Operands.lean, as a mask of the kinds of state that it may change. -/

set_option autoImplicit false
set_option linter.unusedTactic false
set_option linter.unreachableTactic false
set_option linter.unnecessarySeqFocus false
set_option linter.unusedSimpArgs false
set_option linter.unusedVariables false

namespace Sys2Proof.Machine

theorem State.keepOwn_keeps {m : Nat} {x : State} {s : State} {a1 : Nat} {a2 : Nat} (hm : Nat.land 8 m = 8)
    (h : Same m x s) : Same m x (State.keepOwn s a1 a2) := by
  unfold State.keepOwn
  repeat' (first | with_reducible assumption | intro _ | with_reducible apply same_ite | with_reducible refine State.keepWraps_keeps (sub_of hm rfl) ?_ | split | dsimp only)

theorem State.mapcEnWrite_keeps {m : Nat} {x : State} {s : State} {a1 : Word} (hm : Nat.land 68719480840 m = 68719480840)
    (h : Same m x s) : Same m x (State.mapcEnWrite s a1) := by
  unfold State.mapcEnWrite
  repeat' (first | with_reducible assumption | intro _ | with_reducible apply same_ite | with_reducible refine State.setBit_keeps (sub_of hm rfl) ?_ ?_ | fail_if_no_progress with_reducible refine upd_lc (sub_of hm rfl) ?_ | with_reducible exact R.MAPC_CTL_ok (sub_of hm rfl) | with_reducible exact R.MAPC_STS_ok (sub_of hm rfl) | with_reducible exact R.SIR_CHK_CTL_ok (sub_of hm rfl) | with_reducible exact R.SIR_CHK_STS_ok (sub_of hm rfl) | (with_reducible refine regOk_of (c := 9) (sub_of hm rfl) (blk9 ?_ ?_) <;> simp only [R.MAPC_CTL, R.MAPC_STS] <;> omega) | split | dsimp only)

theorem State.readLo_keeps {m : Nat} {x : State} {s : State} {a1 : Path} {a2 : Nat} (hm : Nat.land 16777220 m = 16777220)
    (h : Same m x s) : Same m x (State.readLo s a1 a2).2 := by
  unfold State.readLo
  repeat' (first | with_reducible assumption | intro _ | with_reducible apply same_ite | with_reducible apply same2_ite | with_reducible refine State.drawn_keeps (sub_of hm rfl) ?_ | fail_if_no_progress with_reducible refine upd_boot (sub_of hm rfl) ?_ | split | dsimp only)

theorem State.readLo_keeps_eq {m : Nat} {x : State} {s : State} {a1 : Path} {a2 : Nat} {u : Word} {t : State} (hm : Nat.land 16777220 m = 16777220)
    (e : State.readLo s a1 a2 = (u, t)) (h : Same m x s) : Same m x t := by
  have := State.readLo_keeps hm h (a1 := a1) (a2 := a2)
  rwa [e] at this

theorem State.readAny_keeps {m : Nat} {x : State} {s : State} {a1 : Path} {a2 : Nat} (hm : Nat.land 16777220 m = 16777220)
    (h : Same m x s) : Same m x (State.readAny s a1 a2).2 := by
  unfold State.readAny
  repeat' (first | with_reducible assumption | intro _ | with_reducible apply same_ite | with_reducible apply same2_ite | with_reducible refine State.readLo_keeps (sub_of hm rfl) ?_ | with_reducible refine State.readLo_keeps_eq (sub_of hm rfl) (by assumption) ?_ | with_reducible refine State.drawn_keeps (sub_of hm rfl) ?_ | fail_if_no_progress with_reducible refine upd_boot (sub_of hm rfl) ?_ | split | dsimp only)

theorem State.readAny_keeps_eq {m : Nat} {x : State} {s : State} {a1 : Path} {a2 : Nat} {u : Word} {t : State} (hm : Nat.land 16777220 m = 16777220)
    (e : State.readAny s a1 a2 = (u, t)) (h : Same m x s) : Same m x t := by
  have := State.readAny_keeps hm h (a1 := a1) (a2 := a2)
  rwa [e] at this

theorem State.rangeWrite_keeps {m : Nat} {x : State} {s : State} {a1 : Nat} {a2 : Word} {a3 : Word} (hm : Nat.land 562949819203592 m = 562949819203592)
    (h : Same m x s) : Same m x (State.rangeWrite s a1 a2 a3) := by
  unfold State.rangeWrite
  repeat' (first | with_reducible assumption | intro _ | with_reducible apply same_ite | with_reducible apply same_when | with_reducible refine State.set_keeps (sub_of hm rfl) ?_ ?_ | with_reducible refine State.wr_keeps (sub_of hm rfl) ?_ ?_ | with_reducible exact R.LC_RANGE_CTL_ok (sub_of hm rfl) | with_reducible exact R.LC_RANGE_STS_ok (sub_of hm rfl) | (with_reducible refine regOk_of (c := 0) (sub_of hm rfl) (blk0 ?_) <;> simp only [] <;> omega) | (with_reducible refine regOk_of (c := 1) (sub_of hm rfl) (blk1 ?_ ?_) <;> simp only [] <;> omega) | (with_reducible refine regOk_of (c := 2) (sub_of hm rfl) (blk2 ?_ ?_) <;> simp only [] <;> omega) | (with_reducible refine regOk_of (c := 3) (sub_of hm rfl) (blk3 ?_ ?_) <;> simp only [] <;> omega) | (with_reducible refine regOk_of (c := 4) (sub_of hm rfl) (blk4 ?_ ?_) <;> simp only [] <;> omega) | (with_reducible refine regOk_of (c := 5) (sub_of hm rfl) (blk5 ?_ ?_) <;> simp only [] <;> omega) | (with_reducible refine regOk_of (c := 6) (sub_of hm rfl) (blk6 ?_ ?_) <;> simp only [] <;> omega) | (with_reducible refine regOk_of (c := 7) (sub_of hm rfl) (blk7 ?_ ?_) <;> simp only [] <;> omega) | (with_reducible refine regOk_of (c := 8) (sub_of hm rfl) (blk8 ?_ ?_) <;> simp only [R.LC_RANGE_CTL, R.LC_RANGE_STS] <;> omega) | (with_reducible refine regOk_of (c := 9) (sub_of hm rfl) (blk9 ?_ ?_) <;> simp only [] <;> omega) | (with_reducible refine regOk_of (c := 10) (sub_of hm rfl) (blk10 ?_ ?_) <;> simp only [] <;> omega) | (with_reducible refine regOk_of (c := 11) (sub_of hm rfl) (blk11 ?_ ?_) <;> simp only [] <;> omega) | (with_reducible refine regOk_of (c := 12) (sub_of hm rfl) (blk12 ?_ ?_) <;> simp only [] <;> omega) | (with_reducible refine regOk_of (c := 13) (sub_of hm rfl) (blk13 ?_ ?_) <;> simp only [] <;> omega) | (with_reducible refine regOk_of (c := 14) (sub_of hm rfl) (blk14 ?_ ?_) <;> simp only [] <;> omega) | (with_reducible refine regOk_of (c := 15) (sub_of hm rfl) (blk15 ?_ ?_) <;> simp only [] <;> omega) | (with_reducible refine regOk_of (c := 16) (sub_of hm rfl) (blk16 ?_ ?_) <;> simp only [] <;> omega) | (with_reducible refine regOk_of (c := 17) (sub_of hm rfl) (blk17 ?_ ?_) <;> simp only [] <;> omega) | (with_reducible refine regOk_of (c := 18) (sub_of hm rfl) (blk18 ?_ ?_) <;> simp only [] <;> omega) | (with_reducible refine regOk_of (c := 19) (sub_of hm rfl) (blk19 ?_ ?_) <;> simp only [] <;> omega) | (with_reducible refine regOk_of (c := 20) (sub_of hm rfl) (blk20 ?_ ?_) <;> simp only [] <;> omega) | (with_reducible refine regOk_of (c := 21) (sub_of hm rfl) (blk21 ?_ ?_) <;> simp only [] <;> omega) | exact regOk_all (sub_of hm rfl) _ | split | dsimp only)

theorem State.refWrite_keeps {m : Nat} {x : State} {s : State} {a1 : Nat} {a2 : Word} (hm : Nat.land 1048576 m = 1048576)
    (h : Same m x s) : Same m x (State.refWrite s a1 a2) := by
  unfold State.refWrite
  repeat' (first | with_reducible assumption | intro _ | with_reducible apply same_ite | fail_if_no_progress with_reducible refine upd_sir (sub_of hm rfl) ?_ | split | dsimp only)

theorem State.regWrite_keeps {m : Nat} {x : State} {s : State} {a1 : Path} {a2 : Nat} {a3 : Word} (hm : Nat.land 562949937823502 m = 562949937823502)
    (h : Same m x s) : Same m x (State.regWrite s a1 a2 a3) := by
  unfold State.regWrite
  repeat' (first | with_reducible assumption | intro _ | with_reducible apply same_ite | with_reducible apply same_when | with_reducible refine State.winWrite_keeps (sub_of hm rfl) ?_ | with_reducible refine State.refWrite_keeps (sub_of hm rfl) ?_ | with_reducible refine State.mapcEnWrite_keeps (sub_of hm rfl) ?_ | with_reducible refine State.laneShow_keeps (sub_of hm rfl) ?_ | with_reducible refine State.laneMod_keeps (sub_of hm rfl) ?_ | with_reducible refine State.rangeWrite_keeps (sub_of hm rfl) ?_ | with_reducible refine State.wr_keeps (sub_of hm rfl) ?_ ?_ | with_reducible refine State.sirEnables_keeps (sub_of hm rfl) ?_ | with_reducible refine State.margShow_keeps (sub_of hm rfl) ?_ | with_reducible refine State.pump_keeps (sub_of hm rfl) ?_ | with_reducible refine State.showBudget_keeps (sub_of hm rfl) ?_ | with_reducible refine State.letAll_keeps (sub_of hm rfl) ?_ | with_reducible refine State.alertShow_keeps (sub_of hm rfl) ?_ | with_reducible exact R.LC_RANGE_BASE_LO_ok (sub_of hm rfl) | with_reducible exact R.LC_RANGE_CTL_ok (sub_of hm rfl) | with_reducible exact R.MAPC_CTL_ok (sub_of hm rfl) | with_reducible exact R.PSQ_MARG_CTL_ok (sub_of hm rfl) | with_reducible exact R.SIR_CTL_ok (sub_of hm rfl) | with_reducible exact R.TST_LANE_SEL_ok (sub_of hm rfl) | with_reducible exact R.TST_PAT_CTL_ok (sub_of hm rfl) | with_reducible exact R.TS_CTL_ok (sub_of hm rfl) | (with_reducible refine regOk_of (c := 0) (sub_of hm rfl) (blk0 ?_) <;> simp only [] <;> omega) | (with_reducible refine regOk_of (c := 1) (sub_of hm rfl) (blk1 ?_ ?_) <;> simp only [] <;> omega) | (with_reducible refine regOk_of (c := 2) (sub_of hm rfl) (blk2 ?_ ?_) <;> simp only [] <;> omega) | (with_reducible refine regOk_of (c := 3) (sub_of hm rfl) (blk3 ?_ ?_) <;> simp only [R.PSQ_MARG_CTL] <;> omega) | (with_reducible refine regOk_of (c := 4) (sub_of hm rfl) (blk4 ?_ ?_) <;> simp only [] <;> omega) | (with_reducible refine regOk_of (c := 5) (sub_of hm rfl) (blk5 ?_ ?_) <;> simp only [] <;> omega) | (with_reducible refine regOk_of (c := 6) (sub_of hm rfl) (blk6 ?_ ?_) <;> simp only [] <;> omega) | (with_reducible refine regOk_of (c := 7) (sub_of hm rfl) (blk7 ?_ ?_) <;> simp only [] <;> omega) | (with_reducible refine regOk_of (c := 8) (sub_of hm rfl) (blk8 ?_ ?_) <;> simp only [R.LC_RANGE_BASE_LO, R.LC_RANGE_CTL] <;> omega) | (with_reducible refine regOk_of (c := 9) (sub_of hm rfl) (blk9 ?_ ?_) <;> simp only [R.MAPC_CTL] <;> omega) | (with_reducible refine regOk_of (c := 10) (sub_of hm rfl) (blk10 ?_ ?_) <;> simp only [R.TS_CTL] <;> omega) | (with_reducible refine regOk_of (c := 11) (sub_of hm rfl) (blk11 ?_ ?_) <;> simp only [R.SIR_CTL] <;> omega) | (with_reducible refine regOk_of (c := 12) (sub_of hm rfl) (blk12 ?_ ?_) <;> simp only [] <;> omega) | (with_reducible refine regOk_of (c := 13) (sub_of hm rfl) (blk13 ?_ ?_) <;> simp only [] <;> omega) | (with_reducible refine regOk_of (c := 14) (sub_of hm rfl) (blk14 ?_ ?_) <;> simp only [] <;> omega) | (with_reducible refine regOk_of (c := 15) (sub_of hm rfl) (blk15 ?_ ?_) <;> simp only [] <;> omega) | (with_reducible refine regOk_of (c := 16) (sub_of hm rfl) (blk16 ?_ ?_) <;> simp only [] <;> omega) | (with_reducible refine regOk_of (c := 17) (sub_of hm rfl) (blk17 ?_ ?_) <;> simp only [] <;> omega) | (with_reducible refine regOk_of (c := 18) (sub_of hm rfl) (blk18 ?_ ?_) <;> simp only [] <;> omega) | (with_reducible refine regOk_of (c := 19) (sub_of hm rfl) (blk19 ?_ ?_) <;> simp only [] <;> omega) | (with_reducible refine regOk_of (c := 20) (sub_of hm rfl) (blk20 ?_ ?_) <;> simp only [R.TST_LANE_SEL, R.TST_PAT_CTL] <;> omega) | (with_reducible refine regOk_of (c := 21) (sub_of hm rfl) (blk21 ?_ ?_) <;> simp only [] <;> omega) | exact regOk_all (sub_of hm rfl) _ | split | dsimp only)

end Sys2Proof.Machine
end

