-- ==== Sys2Proof/Laws/FrameThermal.lean ====
section
/-! SUPPORT. The frame of every operation of Machine/Thermal.lean, as a mask of the kinds of state that it may change. -/

set_option autoImplicit false
set_option linter.unusedTactic false
set_option linter.unreachableTactic false
set_option linter.unnecessarySeqFocus false
set_option linter.unusedSimpArgs false
set_option linter.unusedVariables false

namespace Sys2Proof.Machine

theorem State.histAdd_keeps {m : Nat} {x : State} {s : State} {a1 : Nat} {a2 : Option Nat} (hm : Nat.land 2097152 m = 2097152)
    (h : Same m x s) : Same m x (State.histAdd s a1 a2) := by
  unfold State.histAdd
  repeat' (first | with_reducible assumption | intro _ | fail_if_no_progress with_reducible refine upd_hk (sub_of hm rfl) ?_ | split | dsimp only)

theorem State.hotRemoval_keeps {m : Nat} {x : State} {s : State} {a1 : Nat} (hm : Nat.land 562949953421134 m = 562949953421134)
    (h : Same m x s) : Same m x (State.hotRemoval s a1) := by
  unfold State.hotRemoval
  repeat' (first | with_reducible assumption | intro _ | with_reducible apply same_ite | with_reducible apply same_foldl | with_reducible refine State.railEn_keeps (sub_of hm rfl) ?_ | with_reducible refine State.pstAdd_keeps (sub_of hm rfl) ?_ | with_reducible refine State.bump_keeps (sub_of hm rfl) ?_ ?_ | with_reducible refine State.setBit_keeps (sub_of hm rfl) ?_ ?_ | with_reducible refine State.coreOff_keeps (sub_of hm rfl) ?_ | with_reducible refine State.rollSnap_keeps (sub_of hm rfl) ?_ | with_reducible refine State.restartHold_keeps (sub_of hm rfl) ?_ | with_reducible refine State.setPhase_keeps (sub_of hm rfl) ?_ | fail_if_no_progress with_reducible refine upd_te_psq (sub_of hm rfl) ?_ | with_reducible exact R.HK_STS_ok (sub_of hm rfl) | with_reducible exact R.HK_TRIP_CNT_ok (sub_of hm rfl) | (with_reducible refine regOk_of (c := 4) (sub_of hm rfl) (blk4 ?_ ?_) <;> simp only [R.HK_STS, R.HK_TRIP_CNT] <;> omega) | exact regOk_all (sub_of hm rfl) _ | split | dsimp only)

theorem execHkReadmit_keeps {m : Nat} {x : State} {a0 : Path} {a1 : Word} {s : State} (hm : Nat.land 2216689672 m = 2216689672)
    (h : Same m x s) : Ends m x (execHkReadmit a0 a1 s) := by
  unfold execHkReadmit
  repeat' (first | with_reducible assumption | intro _ | with_reducible apply ends_next | with_reducible apply ends_ite | with_reducible apply same_ite | with_reducible apply same_foldl | with_reducible refine State.regAcc_keeps (sub_of hm rfl) ?_ | with_reducible refine State.setBit_keeps (sub_of hm rfl) ?_ ?_ | with_reducible refine State.hotShow_keeps (sub_of hm rfl) ?_ | fail_if_no_progress with_reducible refine upd_hk (sub_of hm rfl) ?_ | with_reducible exact R.HK_CH_ok (sub_of hm rfl) | with_reducible exact R.HK_EXCL_ok (sub_of hm rfl) | with_reducible exact R.HK_STS_ok (sub_of hm rfl) | (with_reducible refine regOk_of (c := 4) (sub_of hm rfl) (blk4 ?_ ?_) <;> simp only [R.HK_CH, R.HK_EXCL, R.HK_STS] <;> omega) | split | dsimp only)

theorem execHkCntClr_keeps {m : Nat} {x : State} {a0 : Path} {a1 : Word} {s : State} (hm : Nat.land 2214592520 m = 2214592520)
    (h : Same m x s) : Ends m x (execHkCntClr a0 a1 s) := by
  unfold execHkCntClr
  repeat' (first | with_reducible exact list_ok_nil | with_reducible refine list_ok_cons ?_ ?_ | with_reducible refine list_ok_append ?_ ?_ | with_reducible exact pc_ok | with_reducible refine range_ok ?_ | with_reducible assumption | intro _ | with_reducible apply ends_next | with_reducible apply same_when | with_reducible refine State.regAcc_keeps (sub_of hm rfl) ?_ | with_reducible refine State.zero_keeps (sub_of hm rfl) ?_ ?_ | with_reducible exact R.HK_EXCL_CNT_ok (sub_of hm rfl) | with_reducible exact R.HK_THROT_CNT_ok (sub_of hm rfl) | with_reducible exact R.HK_TRIP_CNT_ok (sub_of hm rfl) | (with_reducible refine regOk_of (c := 4) (sub_of hm rfl) (blk4 ?_ ?_) <;> simp only [R.HK_EXCL_CNT, R.HK_THROT_CNT, R.HK_TRIP_CNT] <;> omega) | split | dsimp only)

theorem State.railSense_keeps {m : Nat} {x : State} {s : State} {a1 : Nat} (hm : Nat.land 562949953421134 m = 562949953421134)
    (h : Same m x s) : Same m x (State.railSense s a1) := by
  unfold State.railSense
  repeat' (first | with_reducible assumption | intro _ | with_reducible apply same_ite | with_reducible refine State.railFault_keeps (sub_of hm rfl) ?_ | fail_if_no_progress with_reducible refine upd_psq (sub_of hm rfl) ?_ | exact regOk_all (sub_of hm rfl) _ | split | dsimp only)

theorem State.roundEnd_keeps {m : Nat} {x : State} {s : State} (hm : Nat.land 9897821438474 m = 9897821438474)
    (h : Same m x s) : Same m x (State.roundEnd s) := by
  unfold State.roundEnd
  repeat' (first | with_reducible assumption | intro _ | with_reducible apply same_ite | with_reducible refine State.bump_keeps (sub_of hm rfl) ?_ ?_ | with_reducible refine State.condsRound_keeps (sub_of hm rfl) ?_ | fail_if_no_progress with_reducible refine upd_hk (sub_of hm rfl) ?_ | with_reducible exact R.HK_ROUND_CNT_ok (sub_of hm rfl) | (with_reducible refine regOk_of (c := 4) (sub_of hm rfl) (blk4 ?_ ?_) <;> simp only [R.HK_ROUND_CNT] <;> omega) | split | dsimp only)

theorem State.trip_keeps {m : Nat} {x : State} {s : State} (hm : Nat.land 562949953421134 m = 562949953421134)
    (h : Same m x s) : Same m x (State.trip s) := by
  unfold State.trip
  repeat' (first | with_reducible assumption | intro _ | with_reducible apply same_ite | with_reducible refine State.pstAdd_keeps (sub_of hm rfl) ?_ | with_reducible refine State.bump_keeps (sub_of hm rfl) ?_ ?_ | with_reducible refine State.setBit_keeps (sub_of hm rfl) ?_ ?_ | with_reducible refine State.rollSnap_keeps (sub_of hm rfl) ?_ | with_reducible refine State.drainStart_keeps (sub_of hm rfl) ?_ | with_reducible refine State.startDown_keeps (sub_of hm rfl) ?_ | with_reducible refine State.setPhase_keeps (sub_of hm rfl) ?_ | with_reducible refine State.restartHold_keeps (sub_of hm rfl) ?_ | fail_if_no_progress with_reducible refine upd_psq (sub_of hm rfl) ?_ | with_reducible exact R.HK_STS_ok (sub_of hm rfl) | with_reducible exact R.HK_TRIP_CNT_ok (sub_of hm rfl) | with_reducible exact R.PSQ_STS_ok (sub_of hm rfl) | (with_reducible refine regOk_of (c := 3) (sub_of hm rfl) (blk3 ?_ ?_) <;> simp only [R.PSQ_STS] <;> omega) | (with_reducible refine regOk_of (c := 4) (sub_of hm rfl) (blk4 ?_ ?_) <;> simp only [R.HK_STS, R.HK_TRIP_CNT] <;> omega) | exact regOk_all (sub_of hm rfl) _ | split | dsimp only)

theorem State.tripCheck_keeps {m : Nat} {x : State} {s : State} {a1 : Nat} (hm : Nat.land 562949953421134 m = 562949953421134)
    (h : Same m x s) : Same m x (State.tripCheck s a1) := by
  unfold State.tripCheck
  repeat' (first | with_reducible assumption | intro _ | with_reducible apply same_ite | with_reducible refine State.hotRemoval_keeps (sub_of hm rfl) ?_ | with_reducible refine State.trip_keeps (sub_of hm rfl) ?_ | fail_if_no_progress with_reducible refine upd_hk (sub_of hm rfl) ?_ | exact regOk_all (sub_of hm rfl) _ | split | dsimp only)

theorem execHousekeepingReading_keeps {m : Nat} {x : State} {a0 : Fin 64} {a1 : BitVec 12} {s : State} (hm : Nat.land 562949953421134 m = 562949953421134)
    (h : Same m x s) : Ends m x (execHousekeepingReading a0 a1 s) := by
  unfold execHousekeepingReading
  repeat' (first | with_reducible assumption | intro _ | with_reducible apply ends_next | with_reducible apply ends_ite | with_reducible apply same_ite | with_reducible refine State.pcItem_keeps (sub_of hm rfl) ?_ | with_reducible refine State.set_keeps (sub_of hm rfl) ?_ ?_ | with_reducible refine State.setBit_keeps (sub_of hm rfl) ?_ ?_ | with_reducible refine State.crossCheck_keeps (sub_of hm rfl) ?_ | with_reducible refine State.tripCheck_keeps (sub_of hm rfl) ?_ | with_reducible refine State.condsNow_keeps (sub_of hm rfl) ?_ | with_reducible refine State.rorShow_keeps (sub_of hm rfl) ?_ | with_reducible refine State.hotShow_keeps (sub_of hm rfl) ?_ | with_reducible refine State.setBand_keeps (sub_of hm rfl) ?_ | with_reducible refine State.railSense_keeps (sub_of hm rfl) ?_ | with_reducible refine State.roundEnd_keeps (sub_of hm rfl) ?_ | fail_if_no_progress with_reducible refine upd_hk (sub_of hm rfl) ?_ | with_reducible exact R.HK_CH_ok (sub_of hm rfl) | with_reducible exact R.HK_ROUND_CNT_ok (sub_of hm rfl) | (with_reducible refine regOk_of (c := 4) (sub_of hm rfl) (blk4 ?_ ?_) <;> simp only [R.HK_CH, R.HK_ROUND_CNT] <;> omega) | exact regOk_all (sub_of hm rfl) _ | split | dsimp only)

theorem execThrottleLevelFall_keeps {m : Nat} {x : State} {s : State} (hm : Nat.land 9897821438474 m = 9897821438474)
    (h : Same m x s) : Ends m x (execThrottleLevelFall s) := by
  unfold execThrottleLevelFall
  repeat' (first | with_reducible assumption | intro _ | with_reducible apply ends_next | with_reducible apply ends_ite | with_reducible apply same_ite | with_reducible refine State.setTherm_keeps (sub_of hm rfl) ?_ | fail_if_no_progress with_reducible refine upd_hk (sub_of hm rfl) ?_ | split | dsimp only)

theorem execRorArm_keeps {m : Nat} {x : State} {s : State} (hm : Nat.land 2149580808 m = 2149580808)
    (h : Same m x s) : Ends m x (execRorArm s) := by
  unfold execRorArm
  repeat' (first | with_reducible assumption | intro _ | with_reducible apply ends_next | with_reducible apply ends_ite | with_reducible apply same_ite | with_reducible refine State.setBit_keeps (sub_of hm rfl) ?_ ?_ | fail_if_no_progress with_reducible refine upd_hk (sub_of hm rfl) ?_ | with_reducible exact R.HK_STS_ok (sub_of hm rfl) | (with_reducible refine regOk_of (c := 4) (sub_of hm rfl) (blk4 ?_ ?_) <;> simp only [R.HK_STS] <;> omega) | split | dsimp only)

theorem execRestartHoldRelease_keeps {m : Nat} {x : State} {s : State} (hm : Nat.land 8803688973066 m = 8803688973066)
    (h : Same m x s) : Ends m x (execRestartHoldRelease s) := by
  unfold execRestartHoldRelease
  repeat' (first | with_reducible assumption | intro _ | with_reducible apply ends_next | with_reducible apply ends_ite | with_reducible apply same_ite | with_reducible refine State.powerUp_keeps (sub_of hm rfl) ?_ | split | dsimp only)

theorem execOperatingSecond_keeps {m : Nat} {x : State} {s : State} (hm : Nat.land 6511657354 m = 6511657354)
    (h : Same m x s) : Ends m x (execOperatingSecond s) := by
  unfold execOperatingSecond
  repeat' (first | with_reducible assumption | intro _ | with_reducible apply ends_next | with_reducible apply ends_ite | with_reducible apply same_ite | with_reducible apply same_when | with_reducible apply same_foldl | with_reducible refine State.histAdd_keeps (sub_of hm rfl) ?_ | with_reducible refine State.pstAdd_keeps (sub_of hm rfl) ?_ | with_reducible refine State.lastAlive_keeps (sub_of hm rfl) ?_ | with_reducible refine State.rst24_keeps (sub_of hm rfl) ?_ | with_reducible refine State.histSave_keeps (sub_of hm rfl) ?_ | fail_if_no_progress with_reducible refine upd_hk (sub_of hm rfl) ?_ | fail_if_no_progress with_reducible refine upd_opSecs (sub_of hm rfl) ?_ | split | dsimp only)

end Sys2Proof.Machine
end

