-- ==== Sys2Proof/Laws/FrameRegs.lean ====
section
/-! SUPPORT. The frame of every operation of Machine/Regs.lean, as a mask of the kinds of state that it may change. -/

set_option autoImplicit false
set_option linter.unusedTactic false
set_option linter.unreachableTactic false
set_option linter.unnecessarySeqFocus false
set_option linter.unusedSimpArgs false
set_option linter.unusedVariables false

namespace Sys2Proof.Machine

theorem execDevLockAll_keeps {m : Nat} {x : State} {a0 : Path} {s : State} (hm : Nat.land 562949886312456 m = 562949886312456)
    (h : Same m x s) : Ends m x (execDevLockAll a0 s) := by
  unfold execDevLockAll
  repeat' (first | with_reducible assumption | intro _ | with_reducible apply ends_next | with_reducible apply same_when | with_reducible refine State.regAcc_keeps (sub_of hm rfl) ?_ | with_reducible refine State.lockAll_keeps (sub_of hm rfl) ?_ | exact regOk_all (sub_of hm rfl) _ | split | dsimp only)

theorem execLockSet_keeps {m : Nat} {x : State} {a0 : Fin 110} {a1 : Path} {s : State} (hm : Nat.land 562949886312456 m = 562949886312456)
    (h : Same m x s) : Ends m x (execLockSet a0 a1 s) := by
  unfold execLockSet
  repeat' (first | with_reducible assumption | intro _ | with_reducible apply ends_next | with_reducible apply ends_ite | with_reducible apply same_ite | with_reducible refine State.regAcc_keeps (sub_of hm rfl) ?_ | with_reducible refine State.lockPage_keeps (sub_of hm rfl) ?_ | exact regOk_all (sub_of hm rfl) _ | split | dsimp only)

theorem State.oobAct_keeps {m : Nat} {x : State} {s : State} {a1 : Nat} {a2 : Word} (hm : Nat.land 562949953421134 m = 562949953421134)
    (h : Same m x s) : Same m x (State.oobAct s a1 a2) := by
  unfold State.oobAct
  repeat' (first | with_reducible assumption | intro _ | with_reducible apply ends_next | with_reducible apply ends_ite | with_reducible apply same_ite | with_reducible apply same_dite | with_reducible apply thenState_keeps | with_reducible refine execDevLockAll_keeps (sub_of hm rfl) ?_ | with_reducible refine execLockSet_keeps (sub_of hm rfl) ?_ | with_reducible refine execPsqOn_keeps (sub_of hm rfl) ?_ | with_reducible refine execPsqOff_keeps (sub_of hm rfl) ?_ | with_reducible refine execPsqClrLock_keeps (sub_of hm rfl) ?_ | with_reducible refine execMarginApply_keeps (sub_of hm rfl) ?_ | with_reducible refine execMarginStop_keeps (sub_of hm rfl) ?_ | with_reducible refine execPsqCntClr_keeps (sub_of hm rfl) ?_ | with_reducible refine execCisTest_keeps (sub_of hm rfl) ?_ | with_reducible refine execCisCntClr_keeps (sub_of hm rfl) ?_ | with_reducible refine execHkReadmit_keeps (sub_of hm rfl) ?_ | with_reducible refine execHkCntClr_keeps (sub_of hm rfl) ?_ | with_reducible refine execPstErase_keeps (sub_of hm rfl) ?_ | with_reducible refine execPstLoad_keeps (sub_of hm rfl) ?_ | with_reducible refine execPstCommit_keeps (sub_of hm rfl) ?_ | with_reducible refine execPstWinWrite_keeps (sub_of hm rfl) ?_ | with_reducible refine execPstCntClr_keeps (sub_of hm rfl) ?_ | with_reducible refine execRbCntClr_keeps (sub_of hm rfl) ?_ | with_reducible refine execRtLateClr_keeps (sub_of hm rfl) ?_ | with_reducible refine execMqFlushDn_keeps (sub_of hm rfl) ?_ | with_reducible refine execMqFlushUp_keeps (sub_of hm rfl) ?_ | with_reducible refine execMqReset_keeps (sub_of hm rfl) ?_ | with_reducible refine execMqPushLo_keeps (sub_of hm rfl) ?_ | with_reducible refine execMqPushHi_keeps (sub_of hm rfl) ?_ | with_reducible refine execMqPushHiEnd_keeps (sub_of hm rfl) ?_ | with_reducible refine execMqCntClr_keeps (sub_of hm rfl) ?_ | exact regOk_all (sub_of hm rfl) _ | split | dsimp only)

theorem State.oobWord_keeps {m : Nat} {x : State} {s : State} {a1 : Nat} (hm : Nat.land 70368861619982 m = 70368861619982)
    (h : Same m x s) : Same m x (State.oobWord s a1) := by
  unfold State.oobWord
  repeat' (first | with_reducible assumption | intro _ | with_reducible apply ends_next | with_reducible apply same_dite | with_reducible apply thenState_keeps | with_reducible refine State.readAny_keeps (sub_of hm rfl) ?_ | with_reducible refine State.readAny_keeps_eq (sub_of hm rfl) (by assumption) ?_ | with_reducible refine State.emit_keeps (sub_of hm rfl) ?_ | with_reducible refine execMqPopLo_keeps (sub_of hm rfl) ?_ | with_reducible refine execMqPopHi_keeps (sub_of hm rfl) ?_ | with_reducible refine execPstWinRead_keeps (sub_of hm rfl) ?_ | with_reducible refine execRbRecRead_keeps (sub_of hm rfl) ?_ | split | dsimp only)

theorem State.pcReset_keeps {m : Nat} {x : State} {s : State} {a1 : Nat} (hm : Nat.land 134217736 m = 134217736) (h : Same m x s) : Same m x (s.pcReset a1) := by
  refine State.zero_keeps (sub_of hm rfl) (list_ok_append (list_ok_append (range_ok ?_) (range_ok ?_)) (list_ok_cons R.PC_WIN_CTL_ok list_ok_nil)) h
  · intro k hk
    exact regOk_of (c := 0) (sub_of hm rfl) (blk0 (by simp only [R.PC_SEL]; omega))
  · intro k hk
    have e : (R.PC_CNT a1 0 + 4 * k) % 0x1000 = 0x80 + 4 * k := by unfold R.PC_CNT; omega
    exact .inl (by simp [bookReg, e]; omega)

theorem State.softRegs_keeps {m : Nat} {x : State} {s : State} {a1 : Nat} {a2 : List Nat} (hm : Nat.land 562949819203592 m = 562949819203592)
    (h : Same m x s) : Same m x (State.softRegs s a1 a2) := by
  unfold State.softRegs
  repeat' (first | with_reducible assumption | intro _ | with_reducible apply same_ite | with_reducible apply same_foldl | with_reducible refine State.wr_keeps (sub_of hm rfl) ?_ ?_ | with_reducible refine State.pcReset_keeps (sub_of hm rfl) ?_ | (with_reducible refine regOk_of (c := 0) (sub_of hm rfl) (blk0 ?_) <;> simp only [] <;> omega) | (with_reducible refine regOk_of (c := 1) (sub_of hm rfl) (blk1 ?_ ?_) <;> simp only [] <;> omega) | (with_reducible refine regOk_of (c := 2) (sub_of hm rfl) (blk2 ?_ ?_) <;> simp only [] <;> omega) | (with_reducible refine regOk_of (c := 3) (sub_of hm rfl) (blk3 ?_ ?_) <;> simp only [] <;> omega) | (with_reducible refine regOk_of (c := 4) (sub_of hm rfl) (blk4 ?_ ?_) <;> simp only [] <;> omega) | (with_reducible refine regOk_of (c := 5) (sub_of hm rfl) (blk5 ?_ ?_) <;> simp only [] <;> omega) | (with_reducible refine regOk_of (c := 6) (sub_of hm rfl) (blk6 ?_ ?_) <;> simp only [] <;> omega) | (with_reducible refine regOk_of (c := 7) (sub_of hm rfl) (blk7 ?_ ?_) <;> simp only [] <;> omega) | (with_reducible refine regOk_of (c := 8) (sub_of hm rfl) (blk8 ?_ ?_) <;> simp only [] <;> omega) | (with_reducible refine regOk_of (c := 9) (sub_of hm rfl) (blk9 ?_ ?_) <;> simp only [] <;> omega) | (with_reducible refine regOk_of (c := 10) (sub_of hm rfl) (blk10 ?_ ?_) <;> simp only [] <;> omega) | (with_reducible refine regOk_of (c := 11) (sub_of hm rfl) (blk11 ?_ ?_) <;> simp only [] <;> omega) | (with_reducible refine regOk_of (c := 12) (sub_of hm rfl) (blk12 ?_ ?_) <;> simp only [] <;> omega) | (with_reducible refine regOk_of (c := 13) (sub_of hm rfl) (blk13 ?_ ?_) <;> simp only [] <;> omega) | (with_reducible refine regOk_of (c := 14) (sub_of hm rfl) (blk14 ?_ ?_) <;> simp only [] <;> omega) | (with_reducible refine regOk_of (c := 15) (sub_of hm rfl) (blk15 ?_ ?_) <;> simp only [] <;> omega) | (with_reducible refine regOk_of (c := 16) (sub_of hm rfl) (blk16 ?_ ?_) <;> simp only [] <;> omega) | (with_reducible refine regOk_of (c := 17) (sub_of hm rfl) (blk17 ?_ ?_) <;> simp only [] <;> omega) | (with_reducible refine regOk_of (c := 18) (sub_of hm rfl) (blk18 ?_ ?_) <;> simp only [] <;> omega) | (with_reducible refine regOk_of (c := 19) (sub_of hm rfl) (blk19 ?_ ?_) <;> simp only [] <;> omega) | (with_reducible refine regOk_of (c := 20) (sub_of hm rfl) (blk20 ?_ ?_) <;> simp only [] <;> omega) | (with_reducible refine regOk_of (c := 21) (sub_of hm rfl) (blk21 ?_ ?_) <;> simp only [] <;> omega) | exact regOk_all (sub_of hm rfl) _ | split | dsimp only)

theorem State.softLc_keeps {m : Nat} {x : State} {s : State} (hm : Nat.land 562949937823502 m = 562949937823502)
    (h : Same m x s) : Same m x (State.softLc s) := by
  unfold State.softLc
  repeat' (first | with_reducible assumption | intro _ | with_reducible apply same_ite | with_reducible apply same_foldl | with_reducible refine State.walkAbandon_keeps (sub_of hm rfl) ?_ | with_reducible refine State.lcReset_keeps (sub_of hm rfl) ?_ | with_reducible refine State.release_keeps (sub_of hm rfl) ?_ | with_reducible refine State.softRegs_keeps (sub_of hm rfl) ?_ | with_reducible refine State.setBit_keeps (sub_of hm rfl) ?_ ?_ | with_reducible refine State.pump_keeps (sub_of hm rfl) ?_ | with_reducible refine State.mapcInvStart_keeps (sub_of hm rfl) ?_ | fail_if_no_progress with_reducible refine upd_lc (sub_of hm rfl) ?_ | fail_if_no_progress with_reducible refine upd_te_hp (sub_of hm rfl) ?_ | with_reducible exact R.LC_CTL_ok (sub_of hm rfl) | with_reducible exact R.LC_LOCK_MAX_ok (sub_of hm rfl) | with_reducible exact R.LC_LOCK_WAYS_ok (sub_of hm rfl) | with_reducible exact R.LC_RST_LOST_ok (sub_of hm rfl) | with_reducible exact R.LC_STS_ok (sub_of hm rfl) | (with_reducible refine regOk_of (c := 8) (sub_of hm rfl) (blk8 ?_ ?_) <;> simp only [R.LC_CTL, R.LC_LOCK_MAX, R.LC_LOCK_WAYS, R.LC_RST_LOST, R.LC_STS] <;> omega) | exact regOk_all (sub_of hm rfl) _ | split | dsimp only)

theorem State.softMapc_keeps {m : Nat} {x : State} {s : State} (hm : Nat.land 68853698568 m = 68853698568)
    (h : Same m x s) : Same m x (State.softMapc s) := by
  unfold State.softMapc
  repeat' (first | with_reducible exact list_ok_nil | with_reducible refine list_ok_cons ?_ ?_ | with_reducible refine list_ok_append ?_ ?_ | with_reducible exact pc_ok | with_reducible refine range_ok ?_ | with_reducible assumption | intro _ | with_reducible refine State.zero_keeps (sub_of hm rfl) ?_ ?_ | with_reducible refine State.mapcInvStart_keeps (sub_of hm rfl) ?_ | with_reducible refine State.pcReset_keeps (sub_of hm rfl) ?_ | with_reducible refine State.wrN_keeps (sub_of hm rfl) ?_ ?_ | with_reducible refine State.wr_keeps (sub_of hm rfl) ?_ ?_ | fail_if_no_progress with_reducible refine upd_lc (sub_of hm rfl) ?_ | with_reducible exact R.MAPC_CE_CNT_ok (sub_of hm rfl) | with_reducible exact R.MAPC_CTL_ok (sub_of hm rfl) | with_reducible exact R.MAPC_HIT_ok (sub_of hm rfl) | with_reducible exact R.MAPC_MISS_ok (sub_of hm rfl) | with_reducible exact R.MAPC_STS_ok (sub_of hm rfl) | with_reducible exact R.MAPC_UE_CNT_ok (sub_of hm rfl) | (with_reducible refine regOk_of (c := 9) (sub_of hm rfl) (blk9 ?_ ?_) <;> simp only [R.MAPC_CE_CNT, R.MAPC_CTL, R.MAPC_HIT, R.MAPC_MISS, R.MAPC_STS, R.MAPC_UE_CNT] <;> omega) | split | dsimp only)

theorem State.softSir_keeps {m : Nat} {x : State} {s : State} (hm : Nat.land 562949820252168 m = 562949820252168)
    (h : Same m x s) : Same m x (State.softSir s) := by
  unfold State.softSir
  repeat' (first | with_reducible assumption | intro _ | with_reducible refine State.softRegs_keeps (sub_of hm rfl) ?_ | fail_if_no_progress with_reducible refine upd_sir (sub_of hm rfl) ?_ | exact regOk_all (sub_of hm rfl) _ | split | dsimp only)

theorem State.softReset_keeps {m : Nat} {x : State} {s : State} {a1 : Nat} (hm : Nat.land 562949937823502 m = 562949937823502)
    (h : Same m x s) : Same m x (State.softReset s a1) := by
  unfold State.softReset
  repeat' (first | with_reducible exact list_ok_nil | with_reducible refine list_ok_cons ?_ ?_ | with_reducible refine list_ok_append ?_ ?_ | with_reducible exact pc_ok | with_reducible refine range_ok ?_ | with_reducible assumption | intro _ | with_reducible apply ends_next | with_reducible apply ends_ite | with_reducible apply same_ite | with_reducible apply same_dite | with_reducible apply same_foldl | with_reducible apply thenState_keeps | with_reducible refine State.softLc_keeps (sub_of hm rfl) ?_ | with_reducible refine State.softMapc_keeps (sub_of hm rfl) ?_ | with_reducible refine State.softRegs_keeps (sub_of hm rfl) ?_ | with_reducible refine State.linkLoss_keeps (sub_of hm rfl) ?_ | with_reducible refine State.drawn_keeps (sub_of hm rfl) ?_ | with_reducible refine execPerstNAssert_keeps (sub_of hm rfl) ?_ | with_reducible refine execPerstNRelease_keeps (sub_of hm rfl) ?_ | with_reducible refine State.softSir_keeps (sub_of hm rfl) ?_ | with_reducible refine State.alertShow_keeps (sub_of hm rfl) ?_ | with_reducible refine State.releasePhy_keeps (sub_of hm rfl) ?_ | with_reducible refine State.testStop_keeps (sub_of hm rfl) ?_ | with_reducible refine State.zero_keeps (sub_of hm rfl) ?_ ?_ | fail_if_no_progress with_reducible refine upd_mq (sub_of hm rfl) ?_ | fail_if_no_progress with_reducible refine upd_tst (sub_of hm rfl) ?_ | with_reducible exact R.CAR_BMAP_HI_ok (sub_of hm rfl) | with_reducible exact R.CAR_BMAP_LO_ok (sub_of hm rfl) | with_reducible exact R.CAR_PAIR_GEN_ok (sub_of hm rfl) | with_reducible exact R.CAR_RG_STS_ok (sub_of hm rfl) | with_reducible exact R.CAR_RSYNC_ok (sub_of hm rfl) | with_reducible exact R.CAR_STS_ok (sub_of hm rfl) | with_reducible exact R.CORE_STS_ok (sub_of hm rfl) | with_reducible exact R.MG_OBP_STRIPES_ok (sub_of hm rfl) | (with_reducible refine regOk_of (c := 15) (sub_of hm rfl) (blk15 ?_ ?_) <;> simp only [R.MG_OBP_STRIPES] <;> omega) | exact regOk_all (sub_of hm rfl) _ | split | dsimp only)

theorem execSoftRst_keeps {m : Nat} {x : State} {a0 : Fin 110} {a1 : Option Path} {s : State} (hm : Nat.land 562949937823502 m = 562949937823502)
    (h : Same m x s) : Ends m x (execSoftRst a0 a1 s) := by
  unfold execSoftRst
  repeat' (first | with_reducible assumption | intro _ | with_reducible apply ends_next | with_reducible apply ends_ite | with_reducible apply same_ite | with_reducible apply same_when | with_reducible refine State.softReset_keeps (sub_of hm rfl) ?_ | with_reducible refine State.wireEnd_keeps (sub_of hm rfl) ?_ | exact regOk_all (sub_of hm rfl) _ | split | dsimp only)

theorem execCoreCntClr_keeps {m : Nat} {x : State} {a0 : Fin 28} {a1 : Path} {a2 : Word} {s : State} (hm : Nat.land 35184439197704 m = 35184439197704)
    (h : Same m x s) : Ends m x (execCoreCntClr a0 a1 a2 s) := by
  unfold execCoreCntClr
  repeat' (first | with_reducible exact list_ok_nil | with_reducible refine list_ok_cons ?_ ?_ | with_reducible refine list_ok_append ?_ ?_ | with_reducible exact pc_ok | with_reducible refine range_ok ?_ | with_reducible assumption | intro _ | with_reducible apply ends_next | with_reducible apply same_when | with_reducible refine State.regAcc_keeps (sub_of hm rfl) ?_ | with_reducible refine State.zero_keeps (sub_of hm rfl) ?_ ?_ | with_reducible exact R.CORE_CE_CNT_ok (sub_of hm rfl) | with_reducible exact R.CORE_UE_CNT_ok (sub_of hm rfl) | (with_reducible refine regOk_of (c := 18) (sub_of hm rfl) (blk18 ?_ ?_) <;> simp only [R.CORE_CE_CNT, R.CORE_UE_CNT] <;> omega) | split | dsimp only)

theorem execOobRead_keeps {m : Nat} {x : State} {a0 : BitVec 24} {a1 : Fin 65} {a2 : Bool} {s : State} (hm : Nat.land 70368861619982 m = 70368861619982)
    (h : Same m x s) : Ends m x (execOobRead a0 a1 a2 s) := by
  unfold execOobRead
  repeat' (first | with_reducible assumption | intro _ | with_reducible apply ends_next | with_reducible apply ends_ite | with_reducible apply same_ite | with_reducible apply same_foldl | with_reducible refine State.emit_keeps (sub_of hm rfl) ?_ | with_reducible refine State.oobWord_keeps (sub_of hm rfl) ?_ | with_reducible refine State.regAcc_keeps (sub_of hm rfl) ?_ | fail_if_no_progress with_reducible refine upd_tst (sub_of hm rfl) ?_ | split | dsimp only)

theorem execOobWrite_keeps {m : Nat} {x : State} {a0 : BitVec 24} {a1 : Word} {a2 : Bool} {s : State} (hm : Nat.land 562949953421134 m = 562949953421134)
    (h : Same m x s) : Ends m x (execOobWrite a0 a1 a2 s) := by
  unfold execOobWrite
  repeat' (first | with_reducible assumption | intro _ | with_reducible apply ends_next | with_reducible apply ends_ite | with_reducible apply same_ite | with_reducible refine State.emit_keeps (sub_of hm rfl) ?_ | with_reducible refine State.regAcc_keeps (sub_of hm rfl) ?_ | with_reducible refine State.keepOwn_keeps (sub_of hm rfl) ?_ | with_reducible refine State.regWrite_keeps (sub_of hm rfl) ?_ | with_reducible refine State.oobAct_keeps (sub_of hm rfl) ?_ | fail_if_no_progress with_reducible refine upd_tst (sub_of hm rfl) ?_ | exact regOk_all (sub_of hm rfl) _ | split | dsimp only)

theorem execI3cDynamicAddress_keeps {m : Nat} {x : State} {a0 : BitVec 7} {s : State} (hm : Nat.land 83886090 m = 83886090)
    (h : Same m x s) : Ends m x (execI3cDynamicAddress a0 s) := by
  unfold execI3cDynamicAddress
  repeat' (first | with_reducible assumption | intro _ | with_reducible apply ends_next | with_reducible apply ends_ite | with_reducible apply same_ite | with_reducible refine State.alertShow_keeps (sub_of hm rfl) ?_ | fail_if_no_progress with_reducible refine upd_boot (sub_of hm rfl) ?_ | split | dsimp only)

theorem execI3cRstdaa_keeps {m : Nat} {x : State} {s : State} (hm : Nat.land 83886090 m = 83886090)
    (h : Same m x s) : Ends m x (execI3cRstdaa s) := by
  unfold execI3cRstdaa
  repeat' (first | with_reducible assumption | intro _ | with_reducible apply ends_next | with_reducible apply ends_ite | with_reducible apply same_ite | with_reducible refine State.alertShow_keeps (sub_of hm rfl) ?_ | fail_if_no_progress with_reducible refine upd_boot (sub_of hm rfl) ?_ | split | dsimp only)

theorem execAlertResponseRead_keeps {m : Nat} {x : State} {a0 : Bool} {s : State} (hm : Nat.land 83886090 m = 83886090)
    (h : Same m x s) : Ends m x (execAlertResponseRead a0 s) := by
  unfold execAlertResponseRead
  repeat' (first | with_reducible assumption | intro _ | with_reducible apply ends_next | with_reducible apply ends_ite | with_reducible apply same_ite | with_reducible refine State.alertShow_keeps (sub_of hm rfl) ?_ | with_reducible refine State.emit_keeps (sub_of hm rfl) ?_ | split | dsimp only)

theorem execRegisterWrite_keeps {m : Nat} {x : State} {a0 : Path} {a1 : BitVec 24} {a2 : Word} {a3 : BitVec 4} {s : State} (hm : Nat.land 562949937823502 m = 562949937823502)
    (h : Same m x s) : Ends m x (execRegisterWrite a0 a1 a2 a3 s) := by
  unfold execRegisterWrite
  repeat' (first | with_reducible assumption | intro _ | with_reducible apply ends_next | with_reducible apply ends_ite | with_reducible apply same_ite | with_reducible refine State.regAcc_keeps (sub_of hm rfl) ?_ | with_reducible refine State.keepOwn_keeps (sub_of hm rfl) ?_ | with_reducible refine State.regWrite_keeps (sub_of hm rfl) ?_ | exact regOk_all (sub_of hm rfl) _ | split | dsimp only)

theorem execSplitValueLoRead_keeps {m : Nat} {x : State} {a0 : Path} {a1 : BitVec 24} {s : State} (hm : Nat.land 83886094 m = 83886094)
    (h : Same m x s) : Ends m x (execSplitValueLoRead a0 a1 s) := by
  unfold execSplitValueLoRead
  repeat' (first | with_reducible assumption | intro _ | with_reducible apply ends_next | with_reducible apply ends_ite | with_reducible apply same_ite | with_reducible apply same2_ite | with_reducible refine State.regAcc_keeps (sub_of hm rfl) ?_ | with_reducible refine State.readAny_keeps (sub_of hm rfl) ?_ | with_reducible refine State.readAny_keeps_eq (sub_of hm rfl) (by assumption) ?_ | with_reducible refine State.emit_keeps (sub_of hm rfl) ?_ | split | dsimp only)

end Sys2Proof.Machine
end

