-- ==== Sys2Proof/Laws/FrameSirocco.lean ====
section
/-! SUPPORT. The frame of every operation of Machine/Sirocco.lean, as a mask of the kinds of state that it may change. -/

set_option autoImplicit false
set_option linter.unusedTactic false
set_option linter.unreachableTactic false
set_option linter.unnecessarySeqFocus false
set_option linter.unusedSimpArgs false
set_option linter.unusedVariables false

namespace Sys2Proof.Machine

theorem State.accuLost_keeps {m : Nat} {x : State} {s : State} {a1 : Nat} (hm : Nat.land 4398130406926 m = 4398130406926)
    (h : Same m x s) : Same m x (State.accuLost s a1) := by
  unfold State.accuLost
  repeat' (first | with_reducible assumption | intro _ | with_reducible refine State.raise_keeps (sub_of hm rfl) ?_ | with_reducible refine State.stripeNoParity_keeps (sub_of hm rfl) ?_ | split | dsimp only)

theorem State.ckptAgain_keeps {m : Nat} {x : State} {s : State} {a1 : Nat} {a2 : Nat} {a3 : Nat} (hm : Nat.land 1859788071690 m = 1859788071690)
    (h : Same m x s) : Same m x (State.ckptAgain s a1 a2 a3) := by
  unfold State.ckptAgain
  repeat' (first | with_reducible assumption | intro _ | with_reducible refine State.checkpoint_keeps (sub_of hm rfl) ?_ | with_reducible refine State.segChanged_keeps (sub_of hm rfl) ?_ | split | dsimp only)

theorem State.copyPage_keeps {m : Nat} {x : State} {s : State} {a1 : Nat} {a2 : Nat} {a3 : Nat} (hm : Nat.land 137506070536 m = 137506070536)
    (h : Same m x s) : Same m x (State.copyPage s a1 a2 a3) := by
  unfold State.copyPage
  repeat' (first | with_reducible assumption | intro _ | with_reducible apply same_ite | with_reducible apply same_foldl | with_reducible refine State.rewriteTile_keeps (sub_of hm rfl) ?_ | split | dsimp only)

theorem State.parityGone_keeps {m : Nat} {x : State} {s : State} {a1 : Nat} (hm : Nat.land 23850020610826 m = 23850020610826)
    (h : Same m x s) : Same m x (State.parityGone s a1) := by
  unfold State.parityGone
  repeat' (first | with_reducible assumption | intro _ | with_reducible refine State.blkSettle_keeps (sub_of hm rfl) ?_ | with_reducible refine State.wrN_keeps (sub_of hm rfl) ?_ ?_ | with_reducible refine State.stripeMod_keeps (sub_of hm rfl) ?_ | with_reducible exact R.MG_OBP_HELD_ok (sub_of hm rfl) | (with_reducible refine regOk_of (c := 15) (sub_of hm rfl) (blk15 ?_ ?_) <;> simp only [R.MG_OBP_HELD] <;> omega) | split | dsimp only)

theorem State.scrubEnd_keeps {m : Nat} {x : State} {s : State} (hm : Nat.land 274946064904 m = 274946064904)
    (h : Same m x s) : Same m x (State.scrubEnd s) := by
  unfold State.scrubEnd
  repeat' (first | with_reducible assumption | intro _ | with_reducible apply same_ite | with_reducible refine State.setLag_keeps (sub_of hm rfl) ?_ | fail_if_no_progress with_reducible refine upd_sir (sub_of hm rfl) ?_ | split | dsimp only)

theorem State.scrubPage_keeps {m : Nat} {x : State} {s : State} {a1 : Nat} {a2 : ScrubRead} (hm : Nat.land 24124899582730 m = 24124899582730)
    (h : Same m x s) : Same m x (State.scrubPage s a1 a2) := by
  unfold State.scrubPage
  repeat' (first | with_reducible assumption | intro _ | with_reducible apply same_when | with_reducible apply same_foldl | with_reducible refine State.sirLines_keeps (sub_of hm rfl) ?_ | with_reducible refine State.bump_keeps (sub_of hm rfl) ?_ ?_ | with_reducible refine State.codecOk_keeps (sub_of hm rfl) ?_ | with_reducible refine State.copyPage_keeps (sub_of hm rfl) ?_ | with_reducible refine State.ckptAgain_keeps (sub_of hm rfl) ?_ | fail_if_no_progress with_reducible refine upd_sir (sub_of hm rfl) ?_ | with_reducible exact R.SIR_SCRUB_BITS_ok (sub_of hm rfl) | with_reducible exact R.SIR_SCRUB_COPY_ok (sub_of hm rfl) | with_reducible exact R.SIR_SCRUB_PAGES_ok (sub_of hm rfl) | (with_reducible refine regOk_of (c := 11) (sub_of hm rfl) (blk11 ?_ ?_) <;> simp only [R.SIR_SCRUB_BITS, R.SIR_SCRUB_COPY, R.SIR_SCRUB_PAGES] <;> omega) | split | dsimp only)

theorem State.setCw_keeps {m : Nat} {x : State} {s : State} {a1 : Nat} {a2 : StoredLine} (hm : Nat.land 4398046511112 m = 4398046511112)
    (h : Same m x s) : Same m x (State.setCw s a1 a2) := by
  unfold State.setCw
  repeat' (first | with_reducible assumption | intro _ | with_reducible apply same_foldl | with_reducible refine State.wrN_keeps (sub_of hm rfl) ?_ ?_ | with_reducible exact R.MG_CW_ok (sub_of hm rfl) | (with_reducible refine regOk_of (c := 15) (sub_of hm rfl) (blk15 ?_ ?_) <;> simp only [R.MG_CW] <;> omega) | split | dsimp only)

theorem State.sirArea_keeps {m : Nat} {x : State} {s : State} {a1 : Loc} {a2 : Nat} (hm : Nat.land 24124898534154 m = 24124898534154)
    (h : Same m x s) : Same m x (State.sirArea s a1 a2) := by
  unfold State.sirArea
  repeat' (first | with_reducible assumption | intro _ | with_reducible apply same_ite | with_reducible apply same_dite | with_reducible refine State.ckptAll_keeps (sub_of hm rfl) ?_ | with_reducible refine State.ckptAgain_keeps (sub_of hm rfl) ?_ | with_reducible refine State.bump_keeps (sub_of hm rfl) ?_ ?_ | with_reducible refine State.parityGone_keeps (sub_of hm rfl) ?_ | with_reducible exact R.MG_OBP_FAIL_ok (sub_of hm rfl) | with_reducible exact R.MG_OBP_RECON_ok (sub_of hm rfl) | with_reducible exact R.SIR_RECOV_OBP_ok (sub_of hm rfl) | (with_reducible refine regOk_of (c := 11) (sub_of hm rfl) (blk11 ?_ ?_) <;> simp only [R.SIR_RECOV_OBP] <;> omega) | (with_reducible refine regOk_of (c := 15) (sub_of hm rfl) (blk15 ?_ ?_) <;> simp only [R.MG_OBP_FAIL, R.MG_OBP_RECON] <;> omega) | split | dsimp only)

theorem State.trackRef_keeps {m : Nat} {x : State} {s : State} {a1 : Nat} {a2 : Nat} {a3 : Nat} {a4 : Nat} {a5 : Nat} {a6 : Nat} {a7 : Nat} (hm : Nat.land 4398047559688 m = 4398047559688)
    (h : Same m x s) : Same m x (State.trackRef s a1 a2 a3 a4 a5 a6 a7) := by
  unfold State.trackRef
  repeat' (first | with_reducible assumption | intro _ | with_reducible apply same_ite | with_reducible refine State.refChanged_keeps (sub_of hm rfl) ?_ | fail_if_no_progress with_reducible refine upd_sir (sub_of hm rfl) ?_ | split | dsimp only)

theorem execDriftClockSecond_keeps {m : Nat} {x : State} {s : State} (hm : Nat.land 1048576 m = 1048576)
    (h : Same m x s) : Ends m x (execDriftClockSecond s) := by
  unfold execDriftClockSecond
  repeat' (first | with_reducible assumption | intro _ | with_reducible apply ends_next | with_reducible apply same_when | with_reducible apply same_foldl | with_reducible refine State.driftAdd_keeps (sub_of hm rfl) ?_ | split | dsimp only)

theorem execAgeLedgerEntry_keeps {m : Nat} {x : State} {s : State} (hm : Nat.land 4362076426 m = 4362076426)
    (h : Same m x s) : Ends m x (execAgeLedgerEntry s) := by
  unfold execAgeLedgerEntry
  repeat' (first | with_reducible assumption | intro _ | with_reducible apply ends_next | with_reducible refine State.ledgerWrite_keeps (sub_of hm rfl) ?_ | split | dsimp only)

theorem execDramLedgerEntry_keeps {m : Nat} {x : State} {s : State} (hm : Nat.land 1048576 m = 1048576)
    (h : Same m x s) : Ends m x (execDramLedgerEntry s) := by
  unfold execDramLedgerEntry
  repeat' (first | with_reducible assumption | intro _ | with_reducible apply ends_next | with_reducible apply same_when | with_reducible refine State.dramLedger_keeps (sub_of hm rfl) ?_ | split | dsimp only)

theorem execBlockAgeRecompute_keeps {m : Nat} {x : State} {s : State} (hm : Nat.land 1048576 m = 1048576)
    (h : Same m x s) : Ends m x (execBlockAgeRecompute s) := by
  unfold execBlockAgeRecompute
  repeat' (first | with_reducible assumption | intro _ | with_reducible apply ends_next | with_reducible apply same_when | with_reducible refine State.agesAll_keeps (sub_of hm rfl) ?_ | split | dsimp only)

theorem execReferenceSetLoad_keeps {m : Nat} {x : State} {a0 : Fin 320} {s : State} (hm : Nat.land 4398114930698 m = 4398114930698)
    (h : Same m x s) : Ends m x (execReferenceSetLoad a0 s) := by
  unfold execReferenceSetLoad
  repeat' (first | with_reducible assumption | intro _ | with_reducible apply ends_next | with_reducible apply ends_ite | with_reducible apply same_ite | with_reducible apply same_foldl | with_reducible refine State.emit_keeps (sub_of hm rfl) ?_ | with_reducible refine State.setMdie_keeps (sub_of hm rfl) ?_ | with_reducible refine State.refShow_keeps (sub_of hm rfl) ?_ | fail_if_no_progress with_reducible refine upd_sir (sub_of hm rfl) ?_ | split | dsimp only)

theorem execReadReferenceTracking_keeps {m : Nat} {x : State} {a0 : Fin 320} {a1 : List (Fin 5 × Nat × List Nat)} {s : State} (hm : Nat.land 22265178628618 m = 22265178628618)
    (h : Same m x s) : Ends m x (execReadReferenceTracking a0 a1 s) := by
  unfold execReadReferenceTracking
  repeat' (first | with_reducible assumption | intro _ | with_reducible apply ends_next | with_reducible apply ends_ite | with_reducible apply same_ite | with_reducible apply same_foldl | with_reducible refine State.sirTurnEnd_keeps (sub_of hm rfl) ?_ | with_reducible refine State.setLag_keeps (sub_of hm rfl) ?_ | with_reducible refine State.pcItem_keeps (sub_of hm rfl) ?_ | with_reducible refine State.sirLines_keeps (sub_of hm rfl) ?_ | with_reducible refine State.trackRef_keeps (sub_of hm rfl) ?_ | fail_if_no_progress with_reducible refine upd_sir (sub_of hm rfl) ?_ | split | dsimp only)

theorem execAgeSweep_keeps {m : Nat} {x : State} {a0 : Fin 320} {a1 : Fin 2048} {a2 : List Nat} {s : State} (hm : Nat.land 17871427085066 m = 17871427085066)
    (h : Same m x s) : Ends m x (execAgeSweep a0 a1 a2 s) := by
  unfold execAgeSweep
  repeat' (first | with_reducible assumption | intro _ | with_reducible apply ends_next | with_reducible apply ends_ite | with_reducible apply same_ite | with_reducible apply same_foldl | with_reducible refine State.sirTurnEnd_keeps (sub_of hm rfl) ?_ | with_reducible refine State.sirLines_keeps (sub_of hm rfl) ?_ | with_reducible refine State.pcItem_keeps (sub_of hm rfl) ?_ | with_reducible refine State.set_keeps (sub_of hm rfl) ?_ ?_ | with_reducible refine State.unknownEnd_keeps (sub_of hm rfl) ?_ | with_reducible refine State.driftAdd_keeps (sub_of hm rfl) ?_ | fail_if_no_progress with_reducible refine upd_sir (sub_of hm rfl) ?_ | with_reducible exact R.SIR_STS_ok (sub_of hm rfl) | (with_reducible refine regOk_of (c := 11) (sub_of hm rfl) (blk11 ?_ ?_) <;> simp only [R.SIR_STS] <;> omega) | split | dsimp only)

theorem execDriftRefresh_keeps {m : Nat} {x : State} {a0 : Fin 320} {a1 : Fin 2048} {s : State} (hm : Nat.land 19726853071626 m = 19726853071626)
    (h : Same m x s) : Ends m x (execDriftRefresh a0 a1 s) := by
  unfold execDriftRefresh
  repeat' (first | with_reducible assumption | intro _ | with_reducible apply ends_next | with_reducible apply ends_ite | with_reducible apply same_ite | with_reducible apply same_foldl | with_reducible refine State.copyStep_keeps (sub_of hm rfl) ?_ | with_reducible refine State.itemLag_keeps (sub_of hm rfl) ?_ | with_reducible refine State.refreshDone_keeps (sub_of hm rfl) ?_ | with_reducible refine State.leased_keeps (sub_of hm rfl) ?_ | with_reducible refine State.pcEvent_keeps (sub_of hm rfl) ?_ | fail_if_no_progress with_reducible refine upd_sir (sub_of hm rfl) ?_ | fail_if_no_progress with_reducible refine upd_te (sub_of hm rfl) ?_ | split | dsimp only)

theorem execScrubPass_keeps {m : Nat} {x : State} {s : State} (hm : Nat.land 274946064904 m = 274946064904)
    (h : Same m x s) : Ends m x (execScrubPass s) := by
  unfold execScrubPass
  repeat' (first | with_reducible assumption | intro _ | with_reducible apply ends_next | with_reducible apply ends_ite | with_reducible apply same_ite | with_reducible refine State.scrubEnd_keeps (sub_of hm rfl) ?_ | fail_if_no_progress with_reducible refine upd_sir (sub_of hm rfl) ?_ | split | dsimp only)

theorem execUnrequestedRecovery_keeps {m : Nat} {x : State} {a0 : RecoverBy} {s : State} (hm : Nat.land 305617072940814 m = 305617072940814)
    (h : Same m x s) : Ends m x (execUnrequestedRecovery a0 s) := by
  unfold execUnrequestedRecovery
  repeat' (first | with_reducible assumption | intro _ | with_reducible apply ends_next | with_reducible apply ends_ite | with_reducible apply same_ite | with_reducible refine State.sirTurnEnd_keeps (sub_of hm rfl) ?_ | with_reducible refine State.sirLines_keeps (sub_of hm rfl) ?_ | with_reducible refine State.pcItem_keeps (sub_of hm rfl) ?_ | with_reducible refine State.bump_keeps (sub_of hm rfl) ?_ ?_ | with_reducible refine State.codecOk_keeps (sub_of hm rfl) ?_ | with_reducible refine State.sirArea_keeps (sub_of hm rfl) ?_ | with_reducible refine State.codecUe_keeps (sub_of hm rfl) ?_ | with_reducible refine State.sirBad_keeps (sub_of hm rfl) ?_ | fail_if_no_progress with_reducible refine upd_sir (sub_of hm rfl) ?_ | with_reducible exact R.SIR_RECOV_RETRY_ok (sub_of hm rfl) | with_reducible exact R.SIR_UE_FOUND_ok (sub_of hm rfl) | (with_reducible refine regOk_of (c := 11) (sub_of hm rfl) (blk11 ?_ ?_) <;> simp only [R.SIR_RECOV_RETRY, R.SIR_UE_FOUND] <;> omega) | split | dsimp only)

theorem execSramPatrolPass_keeps {m : Nat} {x : State} {s : State} (hm : Nat.land 274946064904 m = 274946064904)
    (h : Same m x s) : Ends m x (execSramPatrolPass s) := by
  unfold execSramPatrolPass
  repeat' (first | with_reducible assumption | intro _ | with_reducible apply ends_next | with_reducible apply ends_ite | with_reducible apply same_ite | with_reducible refine State.passLag_keeps (sub_of hm rfl) ?_ | fail_if_no_progress with_reducible refine upd_sir (sub_of hm rfl) ?_ | split | dsimp only)

theorem execSramPatrolWord_keeps {m : Nat} {x : State} {a0 : Patrol} {s : State} (hm : Nat.land 349631931350798 m = 349631931350798)
    (h : Same m x s) : Ends m x (execSramPatrolWord a0 s) := by
  unfold execSramPatrolWord
  repeat' (first | with_reducible assumption | intro _ | with_reducible apply ends_next | with_reducible apply ends_ite | with_reducible apply same_ite | with_reducible refine State.pcItem_keeps (sub_of hm rfl) ?_ | with_reducible refine State.bump_keeps (sub_of hm rfl) ?_ ?_ | with_reducible refine State.lcInvalidate_keeps (sub_of hm rfl) ?_ | with_reducible refine State.wayAsk_keeps (sub_of hm rfl) ?_ | with_reducible refine State.pump_keeps (sub_of hm rfl) ?_ | with_reducible refine State.lcLoseDirty_keeps (sub_of hm rfl) ?_ | with_reducible refine State.lcMark_keeps (sub_of hm rfl) ?_ | with_reducible refine State.tagUpsets_keeps (sub_of hm rfl) ?_ | with_reducible refine State.raise_keeps (sub_of hm rfl) ?_ | with_reducible refine State.mapcDrop_keeps (sub_of hm rfl) ?_ | with_reducible refine State.mapcMark_keeps (sub_of hm rfl) ?_ | with_reducible refine State.accuLost_keeps (sub_of hm rfl) ?_ | with_reducible exact R.CORE_CE_CNT_ok (sub_of hm rfl) | with_reducible exact R.CORE_UE_CNT_ok (sub_of hm rfl) | with_reducible exact R.LC_UE_CNT_ok (sub_of hm rfl) | with_reducible exact R.MAPC_UE_CNT_ok (sub_of hm rfl) | with_reducible exact R.SIR_SRAM_FIX_ok (sub_of hm rfl) | (with_reducible refine regOk_of (c := 8) (sub_of hm rfl) (blk8 ?_ ?_) <;> simp only [R.LC_UE_CNT] <;> omega) | (with_reducible refine regOk_of (c := 9) (sub_of hm rfl) (blk9 ?_ ?_) <;> simp only [R.MAPC_UE_CNT] <;> omega) | (with_reducible refine regOk_of (c := 11) (sub_of hm rfl) (blk11 ?_ ?_) <;> simp only [R.SIR_SRAM_FIX] <;> omega) | (with_reducible refine regOk_of (c := 18) (sub_of hm rfl) (blk18 ?_ ?_) <;> simp only [R.CORE_CE_CNT, R.CORE_UE_CNT] <;> omega) | split | dsimp only)

theorem execSirChkWrite_keeps {m : Nat} {x : State} {a0 : Path} {a1 : Fin 8} {s : State} (hm : Nat.land 274945019912 m = 274945019912)
    (h : Same m x s) : Ends m x (execSirChkWrite a0 a1 s) := by
  unfold execSirChkWrite
  repeat' (first | with_reducible assumption | intro _ | with_reducible apply ends_next | with_reducible apply ends_ite | with_reducible apply same_ite | with_reducible refine State.regAcc_keeps (sub_of hm rfl) ?_ | with_reducible refine State.setBit_keeps (sub_of hm rfl) ?_ ?_ | with_reducible refine State.set_keeps (sub_of hm rfl) ?_ ?_ | fail_if_no_progress with_reducible refine upd_lc (sub_of hm rfl) ?_ | with_reducible exact R.SIR_CHK_CB_ok (sub_of hm rfl) | with_reducible exact R.SIR_CHK_CTL_ok (sub_of hm rfl) | with_reducible exact R.SIR_CHK_D_ok (sub_of hm rfl) | with_reducible exact R.SIR_CHK_STS_ok (sub_of hm rfl) | (with_reducible refine regOk_of (c := 11) (sub_of hm rfl) (blk11 ?_ ?_) <;> simp only [R.SIR_CHK_CB, R.SIR_CHK_CTL, R.SIR_CHK_D, R.SIR_CHK_STS] <;> omega) | split | dsimp only)

theorem execSirChkRead_keeps {m : Nat} {x : State} {a0 : Path} {a1 : Fin 8} {s : State} (hm : Nat.land 274945019916 m = 274945019916)
    (h : Same m x s) : Ends m x (execSirChkRead a0 a1 s) := by
  unfold execSirChkRead
  repeat' (first | with_reducible assumption | intro _ | with_reducible apply ends_next | with_reducible apply ends_ite | with_reducible apply same_ite | with_reducible apply same_foldl | with_reducible refine State.regAcc_keeps (sub_of hm rfl) ?_ | with_reducible refine State.setBit_keeps (sub_of hm rfl) ?_ ?_ | with_reducible refine State.set_keeps (sub_of hm rfl) ?_ ?_ | with_reducible refine State.drawn_keeps (sub_of hm rfl) ?_ | with_reducible refine State.wrN_keeps (sub_of hm rfl) ?_ ?_ | fail_if_no_progress with_reducible refine upd_lc (sub_of hm rfl) ?_ | with_reducible exact R.SIR_CHK_CB_ok (sub_of hm rfl) | with_reducible exact R.SIR_CHK_CTL_ok (sub_of hm rfl) | with_reducible exact R.SIR_CHK_D_ok (sub_of hm rfl) | with_reducible exact R.SIR_CHK_STS_ok (sub_of hm rfl) | (with_reducible refine regOk_of (c := 11) (sub_of hm rfl) (blk11 ?_ ?_) <;> simp only [R.SIR_CHK_CB, R.SIR_CHK_CTL, R.SIR_CHK_D, R.SIR_CHK_STS] <;> omega) | split | dsimp only)

theorem execSirChkEnd_keeps {m : Nat} {x : State} {a0 : Path} {s : State} (hm : Nat.land 515463189000 m = 515463189000)
    (h : Same m x s) : Ends m x (execSirChkEnd a0 s) := by
  unfold execSirChkEnd
  repeat' (first | with_reducible assumption | intro _ | with_reducible apply ends_next | with_reducible apply ends_ite | with_reducible apply same_ite | with_reducible refine State.regAcc_keeps (sub_of hm rfl) ?_ | with_reducible refine State.setBit_keeps (sub_of hm rfl) ?_ ?_ | with_reducible refine State.lcEnable_keeps (sub_of hm rfl) ?_ | fail_if_no_progress with_reducible refine upd_lc (sub_of hm rfl) ?_ | with_reducible exact R.MAPC_CTL_ok (sub_of hm rfl) | with_reducible exact R.MAPC_STS_ok (sub_of hm rfl) | with_reducible exact R.SIR_CHK_STS_ok (sub_of hm rfl) | (with_reducible refine regOk_of (c := 9) (sub_of hm rfl) (blk9 ?_ ?_) <;> simp only [R.MAPC_CTL, R.MAPC_STS] <;> omega) | (with_reducible refine regOk_of (c := 11) (sub_of hm rfl) (blk11 ?_ ?_) <;> simp only [R.SIR_CHK_STS] <;> omega) | split | dsimp only)

theorem execMgCwEncode_keeps {m : Nat} {x : State} {a0 : Fin 5} {a1 : Path} {s : State} (hm : Nat.land 4398113619976 m = 4398113619976)
    (h : Same m x s) : Ends m x (execMgCwEncode a0 a1 s) := by
  unfold execMgCwEncode
  repeat' (first | with_reducible assumption | intro _ | with_reducible apply ends_next | with_reducible apply same_when | with_reducible refine State.regAcc_keeps (sub_of hm rfl) ?_ | with_reducible refine State.setBit_keeps (sub_of hm rfl) ?_ ?_ | with_reducible refine State.setCw_keeps (sub_of hm rfl) ?_ | with_reducible exact R.MG_CW_RES_ok (sub_of hm rfl) | (with_reducible refine regOk_of (c := 15) (sub_of hm rfl) (blk15 ?_ ?_) <;> simp only [R.MG_CW_RES] <;> omega) | split | dsimp only)

theorem execMgCwDecode_keeps {m : Nat} {x : State} {a0 : Fin 5} {a1 : Path} {a2 : Bool} {s : State} (hm : Nat.land 4398113619976 m = 4398113619976)
    (h : Same m x s) : Ends m x (execMgCwDecode a0 a1 a2 s) := by
  unfold execMgCwDecode
  repeat' (first | with_reducible assumption | intro _ | with_reducible apply ends_next | with_reducible apply ends_ite | with_reducible apply same_ite | with_reducible apply same_when | with_reducible refine State.regAcc_keeps (sub_of hm rfl) ?_ | with_reducible refine State.wrN_keeps (sub_of hm rfl) ?_ ?_ | with_reducible refine State.setCw_keeps (sub_of hm rfl) ?_ | with_reducible exact R.MG_CW_RES_ok (sub_of hm rfl) | (with_reducible refine regOk_of (c := 15) (sub_of hm rfl) (blk15 ?_ ?_) <;> simp only [R.MG_CW_RES] <;> omega) | split | dsimp only)

theorem execSirLagClr_keeps {m : Nat} {x : State} {a0 : Path} {s : State} (hm : Nat.land 274945015816 m = 274945015816)
    (h : Same m x s) : Ends m x (execSirLagClr a0 s) := by
  unfold execSirLagClr
  repeat' (first | with_reducible assumption | intro _ | with_reducible apply ends_next | with_reducible apply same_when | with_reducible refine State.regAcc_keeps (sub_of hm rfl) ?_ | with_reducible refine State.wr_keeps (sub_of hm rfl) ?_ ?_ | with_reducible exact R.SIR_LAG_ok (sub_of hm rfl) | with_reducible exact R.SIR_LAG_MAX_ok (sub_of hm rfl) | (with_reducible refine regOk_of (c := 11) (sub_of hm rfl) (blk11 ?_ ?_) <;> simp only [R.SIR_LAG, R.SIR_LAG_MAX] <;> omega) | split | dsimp only)

theorem execSirCntClr_keeps {m : Nat} {x : State} {a0 : Path} {a1 : Word} {s : State} (hm : Nat.land 274945015816 m = 274945015816)
    (h : Same m x s) : Ends m x (execSirCntClr a0 a1 s) := by
  unfold execSirCntClr
  repeat' (first | with_reducible exact list_ok_nil | with_reducible refine list_ok_cons ?_ ?_ | with_reducible refine list_ok_append ?_ ?_ | with_reducible exact pc_ok | with_reducible refine range_ok ?_ | with_reducible assumption | intro _ | with_reducible apply ends_next | with_reducible apply same_when | with_reducible refine State.regAcc_keeps (sub_of hm rfl) ?_ | with_reducible refine State.zero_keeps (sub_of hm rfl) ?_ ?_ | with_reducible exact R.SIR_SCRUB_PAGES_ok (sub_of hm rfl) | with_reducible exact R.SIR_SRAM_FIX_ok (sub_of hm rfl) | (with_reducible refine regOk_of (c := 11) (sub_of hm rfl) (blk11 ?_ ?_) <;> simp only [R.SIR_SCRUB_PAGES, R.SIR_SRAM_FIX] <;> omega) | split | dsimp only)

theorem execMgCdcCntClr_keeps {m : Nat} {x : State} {a0 : Fin 5} {a1 : Path} {a2 : Word} {s : State} (hm : Nat.land 4398113619976 m = 4398113619976)
    (h : Same m x s) : Ends m x (execMgCdcCntClr a0 a1 a2 s) := by
  unfold execMgCdcCntClr
  repeat' (first | with_reducible exact list_ok_nil | with_reducible refine list_ok_cons ?_ ?_ | with_reducible refine list_ok_append ?_ ?_ | with_reducible exact pc_ok | with_reducible refine range_ok ?_ | with_reducible assumption | intro _ | with_reducible apply ends_next | with_reducible apply same_when | with_reducible refine State.regAcc_keeps (sub_of hm rfl) ?_ | with_reducible refine State.zero_keeps (sub_of hm rfl) ?_ ?_ | with_reducible exact R.MG_CE_LINES_ok (sub_of hm rfl) | with_reducible exact R.MG_LCHK_CNT_ok (sub_of hm rfl) | (with_reducible refine regOk_of (c := 15) (sub_of hm rfl) (blk15 ?_ ?_) <;> simp only [R.MG_CE_LINES, R.MG_LCHK_CNT] <;> omega) | split | dsimp only)

theorem execMediaScrubRead_keeps {m : Nat} {x : State} {a0 : ScrubRead} {s : State} (hm : Nat.land 24124899582730 m = 24124899582730)
    (h : Same m x s) : Ends m x (execMediaScrubRead a0 s) := by
  unfold execMediaScrubRead
  repeat' (first | with_reducible assumption | intro _ | with_reducible apply ends_next | with_reducible apply ends_ite | with_reducible apply same_ite | with_reducible refine State.sirTurnEnd_keeps (sub_of hm rfl) ?_ | with_reducible refine State.pcItem_keeps (sub_of hm rfl) ?_ | with_reducible refine State.scrubPage_keeps (sub_of hm rfl) ?_ | with_reducible refine State.scrubEnd_keeps (sub_of hm rfl) ?_ | fail_if_no_progress with_reducible refine upd_sir (sub_of hm rfl) ?_ | split | dsimp only)

theorem execSiroccoDeadlinePassed_keeps {m : Nat} {x : State} {a0 : Fin 10} {a1 : Word} {s : State} (hm : Nat.land 274945016328 m = 274945016328)
    (h : Same m x s) : Ends m x (execSiroccoDeadlinePassed a0 a1 s) := by
  unfold execSiroccoDeadlinePassed
  repeat' (first | with_reducible assumption | intro _ | with_reducible apply ends_next | with_reducible apply ends_ite | with_reducible apply same_ite | with_reducible apply same_foldl | with_reducible refine State.setLag_keeps (sub_of hm rfl) ?_ | split | dsimp only)

end Sys2Proof.Machine
end

