-- ==== Sys2Proof/Laws/FrameUpkeep.lean ====
section
/-! SUPPORT. The frame of every operation of Machine/Upkeep.lean, as a mask of the kinds of state that it may change. -/

set_option autoImplicit false
set_option linter.unusedTactic false
set_option linter.unreachableTactic false
set_option linter.unnecessarySeqFocus false
set_option linter.unusedSimpArgs false
set_option linter.unusedVariables false

namespace Sys2Proof.Machine

theorem State.dieWorkEnd_keeps {m : Nat} {x : State} {s : State} {a1 : Nat} (hm : Nat.land 1099578769928 m = 1099578769928)
    (h : Same m x s) : Same m x (State.dieWorkEnd s a1) := by
  unfold State.dieWorkEnd
  repeat' (first | with_reducible assumption | intro _ | with_reducible refine State.gmDevice_keeps (sub_of hm rfl) ?_ | with_reducible refine State.roll_keeps (sub_of hm rfl) ?_ | split | dsimp only)

theorem execStripeCloseTimeout_keeps {m : Nat} {x : State} {a0 : Nat} {s : State} (hm : Nat.land 23850020627210 m = 23850020627210)
    (h : Same m x s) : Ends m x (execStripeCloseTimeout a0 s) := by
  unfold execStripeCloseTimeout
  repeat' (first | with_reducible assumption | intro _ | with_reducible apply ends_next | with_reducible refine State.progNumbers_keeps (sub_of hm rfl) ?_ | with_reducible refine State.stripeClose_keeps (sub_of hm rfl) ?_ | split | dsimp only)

theorem execVerifyEligible_keeps {m : Nat} {x : State} {a0 : Fin 320} {a1 : Fin 2048} {a2 : Fin 2048} {s : State} (hm : Nat.land 8192 m = 8192)
    (h : Same m x s) : Ends m x (execVerifyEligible a0 a1 a2 s) := by
  unfold execVerifyEligible
  repeat' (first | with_reducible assumption | intro _ | with_reducible apply ends_next | with_reducible apply ends_ite | with_reducible apply same_ite | with_reducible refine State.blkMod_keeps (sub_of hm rfl) ?_ | split | dsimp only)

theorem execPageVerify_keeps {m : Nat} {x : State} {a0 : Fin 320} {a1 : Fin 2048} {a2 : Fin 2048} {a3 : List (Fin 257 × Fin 10)} {a4 : List (Fin 257 × RecoverBy)} {s : State} (hm : Nat.land 305617072940814 m = 305617072940814)
    (h : Same m x s) : Ends m x (execPageVerify a0 a1 a2 a3 a4 s) := by
  unfold execPageVerify
  repeat' (first | with_reducible assumption | intro _ | with_reducible apply ends_next | with_reducible apply ends_ite | with_reducible apply same_ite | with_reducible apply same_foldl | with_reducible refine State.sirTurnEnd_keeps (sub_of hm rfl) ?_ | with_reducible refine State.sirLines_keeps (sub_of hm rfl) ?_ | with_reducible refine State.pcItem_keeps (sub_of hm rfl) ?_ | with_reducible refine State.codecOk_keeps (sub_of hm rfl) ?_ | with_reducible refine State.sirBad_keeps (sub_of hm rfl) ?_ | with_reducible refine State.rewriteTile_keeps (sub_of hm rfl) ?_ | with_reducible refine State.blkMod_keeps (sub_of hm rfl) ?_ | with_reducible refine State.itemLag_keeps (sub_of hm rfl) ?_ | with_reducible refine State.parityRelease_keeps (sub_of hm rfl) ?_ | with_reducible refine State.blkSettle_keeps (sub_of hm rfl) ?_ | split | dsimp only)

theorem execBlockErase_keeps {m : Nat} {x : State} {a0 : Fin 320} {a1 : Fin 2048} {s : State} (hm : Nat.land 17592253161482 m = 17592253161482)
    (h : Same m x s) : Ends m x (execBlockErase a0 a1 s) := by
  unfold execBlockErase
  repeat' (first | with_reducible assumption | intro _ | with_reducible apply ends_next | with_reducible apply ends_ite | with_reducible apply same_ite | with_reducible refine State.emit_keeps (sub_of hm rfl) ?_ | with_reducible refine State.bump_keeps (sub_of hm rfl) ?_ ?_ | with_reducible refine State.dieMod_keeps (sub_of hm rfl) ?_ | with_reducible refine State.blkMod_keeps (sub_of hm rfl) ?_ | with_reducible exact R.MC_ERS_CNT_ok (sub_of hm rfl) | (with_reducible refine regOk_of (c := 17) (sub_of hm rfl) (blk17 ?_ ?_) <;> simp only [R.MC_ERS_CNT] <;> omega) | split | dsimp only)

theorem execGcCopy_keeps {m : Nat} {x : State} {a0 : Fin 320} {a1 : Fin 24} {s : State} (hm : Nat.land 19451974116106 m = 19451974116106)
    (h : Same m x s) : Ends m x (execGcCopy a0 a1 s) := by
  unfold execGcCopy
  repeat' (first | with_reducible assumption | intro _ | with_reducible apply ends_next | with_reducible apply ends_ite | with_reducible apply same_ite | with_reducible refine State.urgentFlags_keeps (sub_of hm rfl) ?_ | with_reducible refine State.dieMod_keeps (sub_of hm rfl) ?_ | with_reducible refine State.copyStep_keeps (sub_of hm rfl) ?_ | with_reducible refine State.leased_keeps (sub_of hm rfl) ?_ | fail_if_no_progress with_reducible refine upd_te (sub_of hm rfl) ?_ | split | dsimp only)

theorem execWearLevelCopy_keeps {m : Nat} {x : State} {a0 : Fin 320} {a1 : Fin 24} {s : State} (hm : Nat.land 19451974116106 m = 19451974116106)
    (h : Same m x s) : Ends m x (execWearLevelCopy a0 a1 s) := by
  unfold execWearLevelCopy
  repeat' (first | with_reducible assumption | intro _ | with_reducible apply ends_next | with_reducible apply ends_ite | with_reducible apply same_ite | with_reducible refine State.dieMod_keeps (sub_of hm rfl) ?_ | with_reducible refine State.setBit_keeps (sub_of hm rfl) ?_ ?_ | with_reducible refine State.copyStep_keeps (sub_of hm rfl) ?_ | with_reducible refine State.leased_keeps (sub_of hm rfl) ?_ | fail_if_no_progress with_reducible refine upd_te (sub_of hm rfl) ?_ | with_reducible exact R.TE_UPK_CTL_ok (sub_of hm rfl) | with_reducible exact R.TE_UPK_STS_ok (sub_of hm rfl) | with_reducible exact R.TE_WL_SPREAD_ok (sub_of hm rfl) | (with_reducible refine regOk_of (c := 9) (sub_of hm rfl) (blk9 ?_ ?_) <;> simp only [R.TE_UPK_CTL, R.TE_UPK_STS, R.TE_WL_SPREAD] <;> omega) | split | dsimp only)

theorem execSpareRecompute_keeps {m : Nat} {x : State} {s : State} (hm : Nat.land 1718070912526 m = 1718070912526)
    (h : Same m x s) : Ends m x (execSpareRecompute s) := by
  unfold execSpareRecompute
  repeat' (first | with_reducible assumption | intro _ | with_reducible apply ends_next | with_reducible refine State.spares_keeps (sub_of hm rfl) ?_ | split | dsimp only)

theorem execRetiredDieTileWork_keeps {m : Nat} {x : State} {a0 : Fin 320} {a1 : Option (List Line)} {s : State} (hm : Nat.land 305342177207054 m = 305342177207054)
    (h : Same m x s) : Ends m x (execRetiredDieTileWork a0 a1 s) := by
  unfold execRetiredDieTileWork
  repeat' (first | with_reducible assumption | intro _ | with_reducible apply ends_next | with_reducible apply ends_ite | with_reducible apply same_ite | with_reducible apply same_foldl | with_reducible apply same2_ite | with_reducible apply same_foldl2 | with_reducible refine State.dieWorkEnd_keeps (sub_of hm rfl) ?_ | with_reducible refine State.obpTry_keeps (sub_of hm rfl) ?_ | with_reducible refine State.obpTry_keeps_eq (sub_of hm rfl) (by assumption) ?_ | with_reducible refine State.rewriteTile_keeps (sub_of hm rfl) ?_ | with_reducible refine State.progStart_keeps (sub_of hm rfl) ?_ | with_reducible refine State.xtsUse_keeps (sub_of hm rfl) ?_ | with_reducible refine State.ptWhole_keeps (sub_of hm rfl) ?_ | fail_if_no_progress with_reducible refine upd_te (sub_of hm rfl) ?_ | split | dsimp only)

theorem execTeUpkCntClr_keeps {m : Nat} {x : State} {a0 : Path} {a1 : Word} {s : State} (hm : Nat.land 68786585608 m = 68786585608)
    (h : Same m x s) : Ends m x (execTeUpkCntClr a0 a1 s) := by
  unfold execTeUpkCntClr
  repeat' (first | with_reducible exact list_ok_nil | with_reducible refine list_ok_cons ?_ ?_ | with_reducible refine list_ok_append ?_ ?_ | with_reducible exact pc_ok | with_reducible refine range_ok ?_ | with_reducible assumption | intro _ | with_reducible apply ends_next | with_reducible apply same_when | with_reducible refine State.regAcc_keeps (sub_of hm rfl) ?_ | with_reducible refine State.zero_keeps (sub_of hm rfl) ?_ ?_ | with_reducible exact R.TE_ERS_FAIL_ok (sub_of hm rfl) | with_reducible exact R.TE_GC_ABORT_ok (sub_of hm rfl) | with_reducible exact R.TE_GC_COPIED_ok (sub_of hm rfl) | with_reducible exact R.TE_PGM_FAIL_ok (sub_of hm rfl) | with_reducible exact R.TE_WL_COPIED_ok (sub_of hm rfl) | (with_reducible refine regOk_of (c := 9) (sub_of hm rfl) (blk9 ?_ ?_) <;> simp only [R.TE_ERS_FAIL, R.TE_GC_ABORT, R.TE_GC_COPIED, R.TE_PGM_FAIL, R.TE_WL_COPIED] <;> omega) | split | dsimp only)

theorem execMgObpCntClr_keeps {m : Nat} {x : State} {a0 : Fin 5} {a1 : Path} {a2 : Word} {s : State} (hm : Nat.land 4398113619976 m = 4398113619976)
    (h : Same m x s) : Ends m x (execMgObpCntClr a0 a1 a2 s) := by
  unfold execMgObpCntClr
  repeat' (first | with_reducible exact list_ok_nil | with_reducible refine list_ok_cons ?_ ?_ | with_reducible refine list_ok_append ?_ ?_ | with_reducible exact pc_ok | with_reducible refine range_ok ?_ | with_reducible assumption | intro _ | with_reducible apply ends_next | with_reducible apply same_when | with_reducible refine State.regAcc_keeps (sub_of hm rfl) ?_ | with_reducible refine State.zero_keeps (sub_of hm rfl) ?_ ?_ | with_reducible exact R.MG_OBP_FAIL_ok (sub_of hm rfl) | with_reducible exact R.MG_OBP_NOPAR_ok (sub_of hm rfl) | with_reducible exact R.MG_OBP_RECON_ok (sub_of hm rfl) | with_reducible exact R.MG_OBP_SHORT_ok (sub_of hm rfl) | with_reducible exact R.MG_OBP_STRIPES_ok (sub_of hm rfl) | (with_reducible refine regOk_of (c := 15) (sub_of hm rfl) (blk15 ?_ ?_) <;> simp only [R.MG_OBP_FAIL, R.MG_OBP_NOPAR, R.MG_OBP_RECON, R.MG_OBP_SHORT, R.MG_OBP_STRIPES] <;> omega) | split | dsimp only)

theorem execRotationCopy_keeps {m : Nat} {x : State} {a0 : Fin 16} {a1 : Fin 320} {a2 : Fin 24} {s : State} (hm : Nat.land 19451974116106 m = 19451974116106)
    (h : Same m x s) : Ends m x (execRotationCopy a0 a1 a2 s) := by
  unfold execRotationCopy
  repeat' (first | with_reducible assumption | intro _ | with_reducible apply ends_next | with_reducible apply ends_ite | with_reducible apply same_ite | with_reducible refine State.copyStep_keeps (sub_of hm rfl) ?_ | with_reducible refine State.leased_keeps (sub_of hm rfl) ?_ | fail_if_no_progress with_reducible refine upd_te (sub_of hm rfl) ?_ | split | dsimp only)

theorem execSecureDiscardRelocate_keeps {m : Nat} {x : State} {a0 : Nat} {a1 : Fin 320} {s : State} (hm : Nat.land 19451974116106 m = 19451974116106)
    (h : Same m x s) : Ends m x (execSecureDiscardRelocate a0 a1 s) := by
  unfold execSecureDiscardRelocate
  repeat' (first | with_reducible assumption | intro _ | with_reducible apply ends_next | with_reducible apply ends_ite | with_reducible apply same_ite | with_reducible refine State.copyStep_keeps (sub_of hm rfl) ?_ | with_reducible refine State.blkSettle_keeps (sub_of hm rfl) ?_ | with_reducible refine State.leased_keeps (sub_of hm rfl) ?_ | fail_if_no_progress with_reducible refine upd_te (sub_of hm rfl) ?_ | split | dsimp only)

end Sys2Proof.Machine
end

