-- ==== Sys2Proof/Laws/FrameStep.lean ====
section
/-! SUPPORT. The frame of every operation of Machine/Step.lean, as a mask of the kinds of state that it may change. -/

set_option autoImplicit false
set_option linter.unusedTactic false
set_option linter.unreachableTactic false
set_option linter.unnecessarySeqFocus false
set_option linter.unusedSimpArgs false
set_option linter.unusedVariables false

namespace Sys2Proof.Machine

theorem State.idle_keeps {m : Nat} {x : State} {s : State} (hm : Nat.land 67108892 m = 67108892)
    (h : Same m x s) : Same m x (State.idle s) := by
  unfold State.idle
  repeat' (first | with_reducible assumption | intro _ | with_reducible apply same_ite | with_reducible refine State.pcTicks_keeps (sub_of hm rfl) ?_ | fail_if_no_progress with_reducible refine upd_tick (sub_of hm rfl) ?_ | split | dsimp only)

theorem State.withFetchWord_keeps {m : Nat} {x : State} {s : State} {nbits w : Nat} (hm : Nat.land 1 m = 1) (h : Same m x s) :
    Same m x (s.withFetchWord nbits w) := upd_pending (sub_of hm rfl) h

end Sys2Proof.Machine
end

