-- ==== Sys2Proof/Laws/Domains.lean ====
section
/-! SUPPORT. What every operation that may change the domains keeps: the queue, a legal combination of domains, and the tick or 0. -/

set_option autoImplicit false
set_option linter.unusedTactic false
set_option linter.unreachableTactic false
set_option linter.unnecessarySeqFocus false
set_option linter.unusedSimpArgs false
set_option linter.unusedVariables false

namespace Sys2Proof.Machine

/-- The queue is the given one, the domains in service are a legal combination, and the tick is the given one or 0. -/
def State.ok (p : List Instr × BitVec 64) (s : State) : Prop := s.pending = p.1 ∧ s.domainsLegal ∧ (s.tick = p.2 ∨ s.tick = 0)

theorem off_bit {a b i : Nat} (h : Nat.land a b = 0) (hb : b.testBit i = true) : a.testBit i = false := by
  have e : a &&& b = 0 := h
  have f := congrArg (Nat.testBit · i) e
  simpa [Nat.testBit_and, hb] using f

theorem ok_of {m : Nat} {p : List Instr × BitVec 64} {s t : State} (e : Same m s t) (hm : Nat.land m 81 = 0)
    (h : s.ok p) : t.ok p :=
  have h0 : m.testBit 0 = false := off_bit hm rfl
  have h6 : m.testBit 6 = false := off_bit hm rfl
  have h4 : m.testBit 4 = false := off_bit hm rfl
  ⟨(e.pending h0).trans h.1, by unfold State.domainsLegal; rw [e.dom h6]; exact h.2.1, by rw [e.tick h4]; exact h.2.2⟩

theorem ok_ite {p : List Instr × BitVec 64} {c : Prop} [Decidable c] {a b : State} (ha : a.ok p) (hb : b.ok p) :
    (if c then a else b).ok p := by split <;> assumption

theorem ok_dite {p : List Instr × BitVec 64} {c : Prop} [Decidable c] {a : c → State} {b : ¬c → State} (ha : ∀ h, (a h).ok p)
    (hb : ∀ h, (b h).ok p) : (if h : c then a h else b h).ok p := by split <;> apply_assumption

theorem ok_when {p : List Instr × BitVec 64} {s : State} {c : Bool} {f : State → State} (h : s.ok p) (hf : ∀ t : State, t.ok p → (f t).ok p) :
    (s.when c f).ok p := by
  unfold State.when; split
  · exact hf s h
  · exact h

theorem ok_foldl {p : List Instr × BitVec 64} {α : Type} {l : List α} {f : State → α → State} {s : State} (h : s.ok p)
    (hf : ∀ (t : State) (a : α), t.ok p → (f t a).ok p) : (l.foldl f s).ok p := by
  induction l generalizing s with
  | nil => exact h
  | cons a l ih => exact ih (hf s a h)

/-- The outcome is a next state for which `State.ok` holds. -/
def EndsOk (p : List Instr × BitVec 64) (o : Out) : Prop := ∃ t : State, o = .next t ∧ t.ok p

theorem endsOk_next {p : List Instr × BitVec 64} {s : State} (h : s.ok p) : EndsOk p (.next s) := ⟨s, rfl, h⟩

theorem endsOk_ite {p : List Instr × BitVec 64} {c : Prop} [Decidable c] {a b : Out} (ha : EndsOk p a) (hb : EndsOk p b) :
    EndsOk p (if c then a else b) := by split <;> assumption

theorem endsOk_of {m : Nat} {p : List Instr × BitVec 64} {s : State} {o : Out} (e : Ends m s o) (hm : Nat.land m 81 = 0)
    (h : s.ok p) : EndsOk p o := by
  obtain ⟨t, rfl, ht⟩ := e
  exact ⟨t, rfl, ok_of ht hm h⟩

theorem thenState_ok {p : List Instr × BitVec 64} {o : Out} {s : State} (h : EndsOk p o) : (thenState o s).ok p := by
  obtain ⟨t, rfl, ht⟩ := h
  exact ht

theorem ok_upd {p : List Instr × BitVec 64} {s : State} {v_out : List Output} {v_freeCtr : Nat} {v_regs : Sparse Word} {v_refclk : Bool} {v_opSecs : Nat} {v_pst : PstSt} {v_rb : RbSt} {v_fc : FcSt} {v_rt : RtSt} {v_lc : LcSt} {v_te : TeSt} {v_ce : CeSt} {v_hp : HpSt} {v_tw : TwSt} {v_dc : DcSt} {v_md : Sparse MDie} {v_mcTry : List Nat} {v_sir : SirSt} {v_hk : HkSt} {v_arch : ArchSt} {v_psq : PsqSt} {v_boot : BootSt} {v_mq : Sparse Mq} {v_tst : TstSt} (h : s.ok p) :
    (State.mk s.pending v_out v_freeCtr v_regs s.tick v_refclk s.dom v_opSecs v_pst v_rb v_fc v_rt v_lc v_te v_ce v_hp v_tw v_dc v_md v_mcTry v_sir v_hk v_arch v_psq v_boot v_mq v_tst).ok p := h

theorem ok_down {p : List Instr × BitVec 64} {s : State} {v_out : List Output} {v_freeCtr : Nat} {v_regs : Sparse Word} {v_refclk : Bool} {v_opSecs : Nat} {v_pst : PstSt} {v_rb : RbSt} {v_fc : FcSt} {v_rt : RtSt} {v_lc : LcSt} {v_te : TeSt} {v_ce : CeSt} {v_hp : HpSt} {v_tw : TwSt} {v_dc : DcSt} {v_md : Sparse MDie} {v_mcTry : List Nat} {v_sir : SirSt} {v_hk : HkSt} {v_arch : ArchSt} {v_psq : PsqSt} {v_boot : BootSt} {v_mq : Sparse Mq} {v_tst : TstSt} (h : s.ok p) :
    (State.mk s.pending v_out v_freeCtr v_regs s.tick v_refclk ⟨s.dom.aux, s.dom.aon, false, false⟩ v_opSecs v_pst v_rb v_fc v_rt v_lc v_te v_ce v_hp v_tw v_dc v_md v_mcTry v_sir v_hk v_arch v_psq v_boot v_mq v_tst).ok p := ⟨h.1, (show DomSt.legal ⟨s.dom.aux, s.dom.aon, false, false⟩ from ⟨(fun e => nomatch e), (fun e => nomatch e), h.2.1.2.2⟩), h.2.2⟩

theorem ok_tick {p : List Instr × BitVec 64} {s : State} {t : BitVec 64} {v_out : List Output} {v_freeCtr : Nat} {v_regs : Sparse Word} {v_refclk : Bool} {v_opSecs : Nat} {v_pst : PstSt} {v_rb : RbSt} {v_fc : FcSt} {v_rt : RtSt} {v_lc : LcSt} {v_te : TeSt} {v_ce : CeSt} {v_hp : HpSt} {v_tw : TwSt} {v_dc : DcSt} {v_md : Sparse MDie} {v_mcTry : List Nat} {v_sir : SirSt} {v_hk : HkSt} {v_arch : ArchSt} {v_psq : PsqSt} {v_boot : BootSt} {v_mq : Sparse Mq} {v_tst : TstSt} (ht : t = p.2 ∨ t = 0) (h : s.ok p) :
    (State.mk s.pending v_out v_freeCtr v_regs t v_refclk s.dom v_opSecs v_pst v_rb v_fc v_rt v_lc v_te v_ce v_hp v_tw v_dc v_md v_mcTry v_sir v_hk v_arch v_psq v_boot v_mq v_tst).ok p := ⟨h.1, h.2.1, ht⟩

theorem State.alertShow_ok {p : List Instr × BitVec 64} (s : State) (h : s.ok p) : (State.alertShow s).ok p :=
  ok_of (State.alertShow_keeps (m := 83886090) rfl (Same.refl _ _)) rfl h

theorem State.bmapShow_ok {p : List Instr × BitVec 64} (s : State) (h : s.ok p) : (State.bmapShow s).ok p :=
  ok_of (State.bmapShow_keeps (m := 549755813896) rfl (Same.refl _ _)) rfl h

theorem State.coreRegs_ok {p : List Instr × BitVec 64} (s : State) (a1 : Bool) (h : s.ok p) : (State.coreRegs s a1).ok p :=
  ok_of (State.coreRegs_keeps (m := 562949819203592) rfl (Same.refl _ _)) rfl h

theorem State.cutMedia_ok {p : List Instr × BitVec 64} (s : State) (h : s.ok p) : (State.cutMedia s).ok p :=
  ok_of (State.cutMedia_keeps (m := 270340) rfl (Same.refl _ _)) rfl h

theorem State.holdToken_ok {p : List Instr × BitVec 64} (s : State) (a1 : Bool) (h : s.ok p) : (State.holdToken s a1).ok p :=
  ok_of (State.holdToken_keeps (m := 549822988298) rfl (Same.refl _ _)) rfl h

theorem State.hostLinkDown_ok {p : List Instr × BitVec 64} (s : State) (a1 : Nat) (h : s.ok p) : (State.hostLinkDown s a1).ok p :=
  ok_of (State.hostLinkDown_keeps (m := 1099578737160) rfl (Same.refl _ _)) rfl h

theorem State.lcReset_ok {p : List Instr × BitVec 64} (s : State) (a1 : Bool) (h : s.ok p) : (State.lcReset s a1).ok p :=
  ok_of (State.lcReset_keeps (m := 34426851848) rfl (Same.refl _ _)) rfl h

theorem State.linkEvent_ok {p : List Instr × BitVec 64} (s : State) (a1 : Bool) (h : s.ok p) : (State.linkEvent s a1).ok p :=
  ok_of (State.linkEvent_keeps (m := 67109384) rfl (Same.refl _ _)) rfl h

theorem State.pinsDown_ok {p : List Instr × BitVec 64} (s : State) (a1 : List Bool) (h : s.ok p) : (State.pinsDown s a1).ok p :=
  ok_of (State.pinsDown_keeps (m := 67108874) rfl (Same.refl _ _)) rfl h

theorem State.setBit_ok {p : List Instr × BitVec 64} (s : State) (a1 : Fld) (a2 : Bool) (h : s.ok p) : (State.setBit s a1 a2).ok p :=
  ok_of (State.setBit_keeps (m := 562949819203592) rfl (regOk_all rfl _) (Same.refl _ _)) rfl h

theorem State.streamEnd_ok {p : List Instr × BitVec 64} (s : State) (a1 : Nat) (a2 : Nat) (h : s.ok p) : (State.streamEnd s a1 a2).ok p :=
  ok_of (State.streamEnd_keeps (m := 282712028013066) rfl (Same.refl _ _)) rfl h

theorem State.teReset_ok {p : List Instr × BitVec 64} (s : State) (a1 : Bool) (h : s.ok p) : (State.teReset s a1).ok p :=
  ok_of (State.teReset_keeps (m := 8192) rfl (Same.refl _ _)) rfl h

theorem State.coreDown_ok {p : List Instr × BitVec 64} (s : State) (a1 : Nat) (h : s.ok p) : (State.coreDown s a1).ok p := by
  unfold State.coreDown
  dsimp only
  refine ok_of (State.alertShow_keeps (m := 83886090) rfl (Same.refl _ _)) rfl ?_
  with_reducible apply ok_down
  repeat' (first | intro _ | with_reducible assumption | with_reducible apply ok_ite | with_reducible apply ok_when | with_reducible apply ok_foldl | with_reducible apply State.streamEnd_ok | with_reducible apply State.hostLinkDown_ok | with_reducible apply State.holdToken_ok | with_reducible apply State.linkEvent_ok | with_reducible apply State.cutMedia_ok | with_reducible apply State.pinsDown_ok | with_reducible apply State.lcReset_ok | with_reducible apply State.coreRegs_ok | with_reducible apply State.teReset_ok | with_reducible apply State.setBit_ok | with_reducible apply State.bmapShow_ok | with_reducible apply State.alertShow_ok | fail_if_no_progress with_reducible apply ok_upd | with_reducible refine ok_tick (.inr rfl) ?_ | split | dsimp only)

theorem State.auxReset_ok {p : List Instr × BitVec 64} (s : State) (h : s.ok p) : (State.auxReset s).ok p := by
  have hs : (if s.coreUp = true then s.coreDown 5 else s).ok p := by
    split
    · exact State.coreDown_ok _ _ h
    · exact h
  unfold State.auxReset
  exact ⟨hs.1, (show DomSt.legal ⟨false, false, false, false⟩ from ⟨(fun e => nomatch e), (fun e => nomatch e), (fun e => nomatch e)⟩), .inr rfl⟩

theorem State.bump_ok {p : List Instr × BitVec 64} (s : State) (a1 : Nat) (h : s.ok p) : (State.bump s a1).ok p :=
  ok_of (State.bump_keeps (m := 562949819203592) rfl (regOk_all rfl _) (Same.refl _ _)) rfl h

theorem State.set_ok {p : List Instr × BitVec 64} (s : State) (a1 : Fld) (a2 : Nat) (h : s.ok p) : (State.set s a1 a2).ok p :=
  ok_of (State.set_keeps (m := 562949819203592) rfl (regOk_all rfl _) (Same.refl _ _)) rfl h

theorem State.coreOff_ok {p : List Instr × BitVec 64} (s : State) (h : s.ok p) : (State.coreOff s).ok p := by
  unfold State.coreOff
  repeat' (first | intro _ | with_reducible assumption | with_reducible apply ok_ite | with_reducible apply State.setBit_ok | with_reducible apply State.coreDown_ok | with_reducible apply State.set_ok | with_reducible apply State.bump_ok | fail_if_no_progress with_reducible apply ok_upd | with_reducible refine ok_tick (.inr rfl) ?_ | split | dsimp only)

theorem State.downNext_ok {p : List Instr × BitVec 64} (s : State) (h : s.ok p) : (State.downNext s).ok p :=
  ok_of (State.downNext_keeps (m := 1140851210) rfl (Same.refl _ _)) rfl h

theorem State.histSave_ok {p : List Instr × BitVec 64} (s : State) (h : s.ok p) : (State.histSave s).ok p :=
  ok_of (State.histSave_keeps (m := 4364173578) rfl (Same.refl _ _)) rfl h

theorem State.rbClose_ok {p : List Instr × BitVec 64} (s : State) (h : s.ok p) : (State.rbClose s).ok p :=
  ok_of (State.rbClose_keeps (m := 520) rfl (Same.refl _ _)) rfl h

theorem State.setPhase_ok {p : List Instr × BitVec 64} (s : State) (a1 : Nat) (h : s.ok p) : (State.setPhase s a1).ok p :=
  ok_of (State.setPhase_keeps (m := 1140851208) rfl (Same.refl _ _)) rfl h

theorem State.startDown_ok {p : List Instr × BitVec 64} (s : State) (h : s.ok p) : (State.startDown s).ok p := by
  unfold State.startDown
  repeat' (first | intro _ | with_reducible assumption | with_reducible apply State.rbClose_ok | with_reducible apply State.setPhase_ok | with_reducible apply State.histSave_ok | with_reducible apply State.downNext_ok | with_reducible apply State.coreOff_ok | fail_if_no_progress with_reducible apply ok_upd | with_reducible refine ok_tick (.inr rfl) ?_ | split | dsimp only)

theorem State.pdWrite_ok {p : List Instr × BitVec 64} (s : State) (a1 : Nat) (h : s.ok p) : (State.pdWrite s a1).ok p :=
  ok_of (State.pdWrite_keeps (m := 4362076938) rfl (Same.refl _ _)) rfl h

theorem State.resetDown_ok {p : List Instr × BitVec 64} (s : State) (h : s.ok p) : (State.resetDown s).ok p := by
  unfold State.resetDown
  repeat' (first | intro _ | with_reducible assumption | with_reducible apply State.startDown_ok | with_reducible apply State.pdWrite_ok | fail_if_no_progress with_reducible apply ok_upd | with_reducible refine ok_tick (.inr rfl) ?_ | split | dsimp only)

theorem State.cisAbort_ok {p : List Instr × BitVec 64} (s : State) (h : s.ok p) : (State.cisAbort s).ok p :=
  ok_of (State.cisAbort_keeps (m := 1149239306) rfl (Same.refl _ _)) rfl h

theorem State.lastAlive_ok {p : List Instr × BitVec 64} (s : State) (h : s.ok p) : (State.lastAlive s).ok p :=
  ok_of (State.lastAlive_keeps (m := 4362076426) rfl (Same.refl _ _)) rfl h

theorem State.margClear_ok {p : List Instr × BitVec 64} (s : State) (h : s.ok p) : (State.margClear s).ok p :=
  ok_of (State.margClear_keeps (m := 8797246521354) rfl (Same.refl _ _)) rfl h

theorem State.rollSnap_ok {p : List Instr × BitVec 64} (s : State) (a1 : Nat) (a2 : Nat) (a3 : Nat) (a4 : Nat) (a5 : Nat) (h : s.ok p) : (State.rollSnap s a1 a2 a3 a4 a5).ok p :=
  ok_of (State.rollSnap_keeps (m := 67109384) rfl (Same.refl _ _)) rfl h

theorem State.sendDown_ok {p : List Instr × BitVec 64} (s : State) (a1 : Nat) (h : s.ok p) : (State.sendDown s a1).ok p :=
  ok_of (State.sendDown_keeps (m := 549822988298) rfl (Same.refl _ _)) rfl h

theorem State.drainStart_ok {p : List Instr × BitVec 64} (s : State) (a1 : Nat) (h : s.ok p) : (State.drainStart s a1).ok p := by
  unfold State.drainStart
  repeat' (first | intro _ | with_reducible assumption | with_reducible apply ok_ite | with_reducible apply State.resetDown_ok | with_reducible apply State.cisAbort_ok | with_reducible apply State.setPhase_ok | with_reducible apply State.margClear_ok | with_reducible apply State.sendDown_ok | with_reducible apply State.lastAlive_ok | with_reducible apply State.pdWrite_ok | with_reducible apply State.rollSnap_ok | with_reducible apply State.bump_ok | fail_if_no_progress with_reducible apply ok_upd | with_reducible refine ok_tick (.inr rfl) ?_ | split | dsimp only)

theorem State.emit_ok {p : List Instr × BitVec 64} (s : State) (a1 : Output) (h : s.ok p) : (State.emit s a1).ok p :=
  ok_of (State.emit_keeps (m := 67108874) rfl (Same.refl _ _)) rfl h

theorem State.fatalEvent_ok {p : List Instr × BitVec 64} (s : State) (a1 : List Nat) (h : s.ok p) : (State.fatalEvent s a1).ok p :=
  ok_of (State.fatalEvent_keeps (m := 1099511660552) rfl (Same.refl _ _)) rfl h

theorem State.rbEvent_ok {p : List Instr × BitVec 64} (s : State) (a1 : RbEvent) (h : s.ok p) : (State.rbEvent s a1).ok p :=
  ok_of (State.rbEvent_keeps (m := 67109384) rfl (Same.refl _ _)) rfl h

theorem State.viralAll_ok {p : List Instr × BitVec 64} (s : State) (h : s.ok p) : (State.viralAll s).ok p :=
  ok_of (State.viralAll_keeps (m := 1099511627784) rfl (Same.refl _ _)) rfl h

theorem State.contain_ok {p : List Instr × BitVec 64} (s : State) (h : s.ok p) : (State.contain s).ok p := by
  unfold State.contain
  repeat' (first | intro _ | with_reducible assumption | with_reducible apply ok_ite | with_reducible apply State.rbEvent_ok | with_reducible apply State.viralAll_ok | with_reducible apply State.setBit_ok | with_reducible apply State.emit_ok | with_reducible apply State.drainStart_ok | with_reducible apply State.fatalEvent_ok | with_reducible apply State.bump_ok | fail_if_no_progress with_reducible apply ok_upd | with_reducible refine ok_tick (.inr rfl) ?_ | split | dsimp only)

theorem State.containEnd_ok {p : List Instr × BitVec 64} (s : State) (h : s.ok p) : (State.containEnd s).ok p := by
  unfold State.containEnd
  repeat' (first | intro _ | with_reducible assumption | with_reducible apply ok_ite | with_reducible apply State.setPhase_ok | with_reducible apply State.coreDown_ok | with_reducible apply State.set_ok | with_reducible apply State.setBit_ok | fail_if_no_progress with_reducible apply ok_upd | with_reducible refine ok_tick (.inr rfl) ?_ | split | dsimp only)

theorem State.mapcInvStart_ok {p : List Instr × BitVec 64} (s : State) (h : s.ok p) : (State.mapcInvStart s).ok p :=
  ok_of (State.mapcInvStart_keeps (m := 68719476744) rfl (Same.refl _ _)) rfl h

theorem State.coreRelease_ok {p : List Instr × BitVec 64} (s : State) (ha : s.dom.aon = true) (h : s.ok p) : s.coreRelease.ok p := by
  have hu : (((s.set F.PSQ_STS.PD_LAST (s.pdRecord.getD 4)).setBit F.LC_STS.CHECK_BUSY true).mapcInvStart).ok p :=
    State.mapcInvStart_ok _ (State.setBit_ok _ _ _ (State.set_ok _ _ _ h))
  have ha : (((s.set F.PSQ_STS.PD_LAST (s.pdRecord.getD 4)).setBit F.LC_STS.CHECK_BUSY true).mapcInvStart).dom.aon = true := by
    have e := (State.mapcInvStart_keeps (m := 68719476744) rfl (Same.refl _ ((s.set F.PSQ_STS.PD_LAST (s.pdRecord.getD 4)).setBit F.LC_STS.CHECK_BUSY true))).dom rfl
    rw [e]
    exact ha
  unfold State.coreRelease
  generalize ((s.set F.PSQ_STS.PD_LAST (s.pdRecord.getD 4)).setBit F.LC_STS.CHECK_BUSY true).mapcInvStart = u at hu ha
  refine ⟨hu.1, ?_, hu.2.2⟩
  have hl := hu.2.1
  simp only [State.domainsLegal, DomSt.legal] at hl ⊢
  simp [ha] at hl ⊢
  exact hl.2

theorem State.coreReset_ok {p : List Instr × BitVec 64} (s : State) (a1 : Nat) (h : s.ok p) : (State.coreReset s a1).ok p := by
  have hu : (if s.coreUp = true then (s.coreDown a1).pdWrite 0 else s).ok p := by
    split
    · exact State.pdWrite_ok _ _ (State.coreDown_ok _ _ h)
    · exact h
  unfold State.coreReset
  dsimp only
  generalize (if s.coreUp = true then (s.coreDown a1).pdWrite 0 else s) = u at hu
  have hb : (u.bump R.BOOT_RST_CNT).ok p := State.bump_ok _ _ hu
  refine State.set_ok _ _ _ (State.set_ok _ _ _ (State.setBit_ok _ _ _ (State.set_ok _ _ _ (State.setBit_ok _ _ _ (State.setBit_ok _ _ _ ?_)))))
  refine ok_tick ?_ hb
  split
  · exact hu.2.2
  · exact .inr rfl

theorem State.coreBegin_ok {p : List Instr × BitVec 64} (s : State) (a1 : Option Nat) (a2 : Bool) (h : s.ok p) : (State.coreBegin s a1 a2).ok p :=
  ok_of (State.coreBegin_keeps (m := 10467188786958) rfl (Same.refl _ _)) rfl h

theorem State.coreStart_ok {p : List Instr × BitVec 64} (s : State) (a1 : Bool) (h : s.ok p) : (State.coreStart s a1).ok p := by
  unfold State.coreStart
  split
  · exact h
  · next ha =>
    have ha : s.dom.aon = true := by simpa using ha
    exact ok_of (State.coreBegin_keeps (m := 10467188786958) rfl (Same.refl _ _)) rfl (State.coreRelease_ok s ha h)

theorem State.roll_ok {p : List Instr × BitVec 64} (s : State) (a1 : Nat) (a2 : Nat) (a3 : Nat) (a4 : Nat) (a5 : Nat) (a6 : Nat) (h : s.ok p) : (State.roll s a1 a2 a3 a4 a5 a6).ok p :=
  ok_of (State.roll_keeps (m := 67109384) rfl (Same.refl _ _)) rfl h

theorem State.wrN_ok {p : List Instr × BitVec 64} (s : State) (a1 : Nat) (a2 : Nat) (h : s.ok p) : (State.wrN s a1 a2).ok p :=
  ok_of (State.wrN_keeps (m := 562949819203592) rfl (regOk_all rfl _) (Same.refl _ _)) rfl h

theorem State.drainEnd_ok {p : List Instr × BitVec 64} (s : State) (h : s.ok p) : (State.drainEnd s).ok p := by
  unfold State.drainEnd
  repeat' (first | intro _ | with_reducible assumption | with_reducible apply ok_ite | with_reducible apply State.wrN_ok | with_reducible apply State.roll_ok | with_reducible apply State.containEnd_ok | with_reducible apply State.startDown_ok | fail_if_no_progress with_reducible apply ok_upd | with_reducible refine ok_tick (.inr rfl) ?_ | split | dsimp only)

theorem State.drainShort_ok {p : List Instr × BitVec 64} (s : State) (h : s.ok p) : (State.drainShort s).ok p := by
  unfold State.drainShort
  repeat' (first | intro _ | with_reducible assumption | with_reducible apply ok_ite | with_reducible apply State.drainEnd_ok | fail_if_no_progress with_reducible apply ok_upd | with_reducible refine ok_tick (.inr rfl) ?_ | split | dsimp only)

theorem State.drainAll_ok {p : List Instr × BitVec 64} (s : State) (a1 : Bool) (h : s.ok p) : (State.drainAll s a1).ok p :=
  ok_of (State.drainAll_keeps (m := 305634252816142) rfl (Same.refl _ _)) rfl h

theorem State.drainSix_ok {p : List Instr × BitVec 64} (s : State) (h : s.ok p) : (State.drainSix s).ok p :=
  ok_of (State.drainSix_keeps (m := 305599876295438) rfl (Same.refl _ _)) rfl h

theorem State.journalFlush_ok {p : List Instr × BitVec 64} (s : State) (h : s.ok p) : (State.journalFlush s).ok p :=
  ok_of (State.journalFlush_keeps (m := 19451974099722) rfl (Same.refl _ _)) rfl h

theorem State.settleReqs_ok {p : List Instr × BitVec 64} (s : State) (h : s.ok p) : (State.settleReqs s).ok p :=
  ok_of (State.settleReqs_keeps (m := 314447559261966) rfl (Same.refl _ _)) rfl h

theorem State.stopMedia_ok {p : List Instr × BitVec 64} (s : State) (h : s.ok p) : (State.stopMedia s).ok p :=
  ok_of (State.stopMedia_keeps (m := 8192) rfl (Same.refl _ _)) rfl h

theorem State.drainStep_ok {p : List Instr × BitVec 64} (s : State) (h : s.ok p) : (State.drainStep s).ok p := by
  unfold State.drainStep
  repeat' (first | intro _ | with_reducible assumption | with_reducible apply ok_ite | with_reducible apply ok_dite | with_reducible apply State.settleReqs_ok | with_reducible apply State.stopMedia_ok | with_reducible apply State.journalFlush_ok | with_reducible apply State.drainAll_ok | with_reducible apply State.drainEnd_ok | with_reducible apply State.drainSix_ok | fail_if_no_progress with_reducible apply ok_upd | with_reducible refine ok_tick (.inr rfl) ?_ | split | dsimp only)

theorem State.leadShow_ok {p : List Instr × BitVec 64} (s : State) (h : s.ok p) : (State.leadShow s).ok p :=
  ok_of (State.leadShow_keeps (m := 35184372088840) rfl (Same.refl _ _)) rfl h

theorem State.leaseKeep_ok {p : List Instr × BitVec 64} (s : State) (a1 : Nat) (h : s.ok p) : (State.leaseKeep s a1).ok p :=
  ok_of (State.leaseKeep_keeps (m := 1024) rfl (Same.refl _ _)) rfl h

theorem State.proctorOut_ok {p : List Instr × BitVec 64} (s : State) (a1 : Nat) (h : s.ok p) : (State.proctorOut s a1).ok p := by
  unfold State.proctorOut
  repeat' (first | intro _ | with_reducible assumption | with_reducible apply ok_ite | with_reducible apply State.setBit_ok | with_reducible apply State.leaseKeep_ok | with_reducible apply State.leadShow_ok | with_reducible apply State.set_ok | with_reducible apply State.contain_ok | fail_if_no_progress with_reducible apply ok_upd | with_reducible refine ok_tick (.inr rfl) ?_ | split | dsimp only)

theorem State.escRecord_ok {p : List Instr × BitVec 64} (s : State) (a1 : Nat) (a2 : Nat) (h : s.ok p) : (State.escRecord s a1 a2).ok p :=
  ok_of (State.escRecord_keeps (m := 67109384) rfl (Same.refl _ _)) rfl h

theorem State.fcMod_ok {p : List Instr × BitVec 64} (s : State) (a1 : Nat) (a2 : FcSrc → FcSrc) (h : s.ok p) : (State.fcMod s a1 a2).ok p :=
  ok_of (State.fcMod_keeps (m := 1024) rfl (Same.refl _ _)) rfl h

theorem State.fenceSrc_ok {p : List Instr × BitVec 64} (s : State) (a1 : Nat) (h : s.ok p) : (State.fenceSrc s a1).ok p :=
  ok_of (State.fenceSrc_keeps (m := 560738163883790) rfl (Same.refl _ _)) rfl h

theorem State.escalate_ok {p : List Instr × BitVec 64} (s : State) (a1 : Nat) (h : s.ok p) : (State.escalate s a1).ok p := by
  unfold State.escalate
  repeat' (first | intro _ | with_reducible assumption | with_reducible apply ok_ite | with_reducible apply State.fcMod_ok | with_reducible apply State.escRecord_ok | with_reducible apply State.contain_ok | with_reducible apply State.setBit_ok | with_reducible apply State.fenceSrc_ok | with_reducible apply State.proctorOut_ok | fail_if_no_progress with_reducible apply ok_upd | with_reducible refine ok_tick (.inr rfl) ?_ | split | dsimp only)

theorem State.pstAdd_ok {p : List Instr × BitVec 64} (s : State) (a1 : PstJob) (h : s.ok p) : (State.pstAdd s a1).ok p :=
  ok_of (State.pstAdd_keeps (m := 4362076426) rfl (Same.refl _ _)) rfl h

theorem State.railEn_ok {p : List Instr × BitVec 64} (s : State) (a1 : Nat) (a2 : Bool) (h : s.ok p) : (State.railEn s a1 a2).ok p :=
  ok_of (State.railEn_keeps (m := 1140850698) rfl (Same.refl _ _)) rfl h

theorem State.restartHold_ok {p : List Instr × BitVec 64} (s : State) (h : s.ok p) : (State.restartHold s).ok p :=
  ok_of (State.restartHold_keeps (m := 7593788170) rfl (Same.refl _ _)) rfl h

theorem State.hotRemoval_ok {p : List Instr × BitVec 64} (s : State) (a1 : Nat) (h : s.ok p) : (State.hotRemoval s a1).ok p := by
  unfold State.hotRemoval
  repeat' (first | intro _ | with_reducible assumption | with_reducible apply ok_ite | with_reducible apply ok_foldl | with_reducible apply State.railEn_ok | with_reducible apply State.pstAdd_ok | with_reducible apply State.bump_ok | with_reducible apply State.setBit_ok | with_reducible apply State.coreOff_ok | with_reducible apply State.rollSnap_ok | with_reducible apply State.restartHold_ok | with_reducible apply State.setPhase_ok | fail_if_no_progress with_reducible apply ok_upd | with_reducible refine ok_tick (.inr rfl) ?_ | split | dsimp only)

theorem State.inputFail_ok {p : List Instr × BitVec 64} (s : State) (h : s.ok p) : (State.inputFail s).ok p := by
  unfold State.inputFail
  repeat' (first | intro _ | with_reducible assumption | with_reducible apply ok_ite | with_reducible apply State.setBit_ok | with_reducible apply State.startDown_ok | with_reducible apply State.drainStart_ok | fail_if_no_progress with_reducible apply ok_upd | with_reducible refine ok_tick (.inr rfl) ?_ | split | dsimp only)

theorem State.jtagLoad_ok {p : List Instr × BitVec 64} (s : State) (a1 : Nat) (a2 : Bool) (h : s.ok p) : (State.jtagLoad s a1 a2).ok p := by
  unfold State.jtagLoad
  repeat' (first | intro _ | with_reducible assumption | with_reducible apply ok_ite | with_reducible apply State.coreReset_ok | with_reducible apply State.resetDown_ok | with_reducible apply State.coreStart_ok | fail_if_no_progress with_reducible apply ok_upd | with_reducible refine ok_tick (.inr rfl) ?_ | split | dsimp only)

theorem State.shutdownStart_ok {p : List Instr × BitVec 64} (s : State) (h : s.ok p) : (State.shutdownStart s).ok p := by
  unfold State.shutdownStart
  repeat' (first | intro _ | with_reducible assumption | with_reducible apply ok_ite | with_reducible apply State.resetDown_ok | with_reducible apply State.margClear_ok | with_reducible apply State.sendDown_ok | with_reducible apply State.setPhase_ok | fail_if_no_progress with_reducible apply ok_upd | with_reducible refine ok_tick (.inr rfl) ?_ | split | dsimp only)

theorem State.offRequest_ok {p : List Instr × BitVec 64} (s : State) (h : s.ok p) : (State.offRequest s).ok p := by
  unfold State.offRequest
  repeat' (first | intro _ | with_reducible assumption | with_reducible apply ok_ite | with_reducible apply State.setBit_ok | with_reducible apply State.shutdownStart_ok | with_reducible apply State.setPhase_ok | fail_if_no_progress with_reducible apply ok_upd | with_reducible refine ok_tick (.inr rfl) ?_ | split | dsimp only)

theorem State.regAcc_ok {p : List Instr × BitVec 64} (s : State) (a1 : Nat) (h : s.ok p) : (State.regAcc s a1).ok p :=
  ok_of (State.regAcc_keeps (m := 67108872) rfl (Same.refl _ _)) rfl h

theorem execPsqOff_ok {p : List Instr × BitVec 64} (a0 : Path) (s : State) (h : s.ok p) : EndsOk p (execPsqOff a0 s) := by
  unfold execPsqOff
  repeat' (first | intro _ | with_reducible assumption | with_reducible apply endsOk_next | with_reducible apply ok_when | with_reducible apply State.regAcc_ok | with_reducible apply State.offRequest_ok | fail_if_no_progress with_reducible apply ok_upd | with_reducible refine ok_tick (.inr rfl) ?_ | split | dsimp only)

theorem execCisCntClr_ok {p : List Instr × BitVec 64} (a0 : Path) (a1 : Word) (s : State) (h : s.ok p) : EndsOk p (execCisCntClr a0 a1 s) :=
  endsOk_of (execCisCntClr_keeps (m := 1140850696) rfl (Same.refl _ _)) rfl h

theorem execCisTest_ok {p : List Instr × BitVec 64} (a0 : Path) (s : State) (h : s.ok p) : EndsOk p (execCisTest a0 s) :=
  endsOk_of (execCisTest_keeps (m := 1149239306) rfl (Same.refl _ _)) rfl h

theorem execDevLockAll_ok {p : List Instr × BitVec 64} (a0 : Path) (s : State) (h : s.ok p) : EndsOk p (execDevLockAll a0 s) :=
  endsOk_of (execDevLockAll_keeps (m := 562949886312456) rfl (Same.refl _ _)) rfl h

theorem execHkCntClr_ok {p : List Instr × BitVec 64} (a0 : Path) (a1 : Word) (s : State) (h : s.ok p) : EndsOk p (execHkCntClr a0 a1 s) :=
  endsOk_of (execHkCntClr_keeps (m := 2214592520) rfl (Same.refl _ _)) rfl h

theorem execHkReadmit_ok {p : List Instr × BitVec 64} (a0 : Path) (a1 : Word) (s : State) (h : s.ok p) : EndsOk p (execHkReadmit a0 a1 s) :=
  endsOk_of (execHkReadmit_keeps (m := 2216689672) rfl (Same.refl _ _)) rfl h

theorem execLockSet_ok {p : List Instr × BitVec 64} (a0 : Fin 110) (a1 : Path) (s : State) (h : s.ok p) : EndsOk p (execLockSet a0 a1 s) :=
  endsOk_of (execLockSet_keeps (m := 562949886312456) rfl (Same.refl _ _)) rfl h

theorem execMarginApply_ok {p : List Instr × BitVec 64} (a0 : Path) (a1 : Fin 16) (a2 : BitVec 8) (a3 : Fin 4) (s : State) (h : s.ok p) : EndsOk p (execMarginApply a0 a1 a2 a3 s) :=
  endsOk_of (execMarginApply_keeps (m := 8797246521354) rfl (Same.refl _ _)) rfl h

theorem execMarginStop_ok {p : List Instr × BitVec 64} (a0 : Path) (s : State) (h : s.ok p) : EndsOk p (execMarginStop a0 s) :=
  endsOk_of (execMarginStop_keeps (m := 8797246521354) rfl (Same.refl _ _)) rfl h

theorem execMqCntClr_ok {p : List Instr × BitVec 64} (a0 : Fin 8) (a1 : Path) (a2 : Word) (s : State) (h : s.ok p) : EndsOk p (execMqCntClr a0 a1 a2 s) :=
  endsOk_of (execMqCntClr_keeps (m := 70368811286536) rfl (Same.refl _ _)) rfl h

theorem execMqFlushDn_ok {p : List Instr × BitVec 64} (a0 : Fin 8) (a1 : Path) (s : State) (h : s.ok p) : EndsOk p (execMqFlushDn a0 a1 s) :=
  endsOk_of (execMqFlushDn_keeps (m := 70368861618186) rfl (Same.refl _ _)) rfl h

theorem execMqFlushUp_ok {p : List Instr × BitVec 64} (a0 : Fin 8) (a1 : Path) (s : State) (h : s.ok p) : EndsOk p (execMqFlushUp a0 a1 s) :=
  endsOk_of (execMqFlushUp_keeps (m := 70368861618186) rfl (Same.refl _ _)) rfl h

theorem execMqPushHi_ok {p : List Instr × BitVec 64} (a0 : Fin 8) (a1 : Path) (a2 : Word) (a3 : Bool) (s : State) (h : s.ok p) : EndsOk p (execMqPushHi a0 a1 a2 a3 s) :=
  endsOk_of (execMqPushHi_keeps (m := 70368861619726) rfl (Same.refl _ _)) rfl h

theorem execMqPushHiEnd_ok {p : List Instr × BitVec 64} (a0 : Fin 8) (a1 : Path) (a2 : Word) (a3 : Bool) (s : State) (h : s.ok p) : EndsOk p (execMqPushHiEnd a0 a1 a2 a3 s) :=
  endsOk_of (execMqPushHiEnd_keeps (m := 70368861619726) rfl (Same.refl _ _)) rfl h

theorem execMqPushLo_ok {p : List Instr × BitVec 64} (a0 : Fin 8) (a1 : Path) (a2 : Word) (s : State) (h : s.ok p) : EndsOk p (execMqPushLo a0 a1 a2 s) :=
  endsOk_of (execMqPushLo_keeps (m := 100663304) rfl (Same.refl _ _)) rfl h

theorem execMqReset_ok {p : List Instr × BitVec 64} (a0 : Fin 8) (a1 : Path) (s : State) (h : s.ok p) : EndsOk p (execMqReset a0 a1 s) :=
  endsOk_of (execMqReset_keeps (m := 70368861618186) rfl (Same.refl _ _)) rfl h

theorem execPsqClrLock_ok {p : List Instr × BitVec 64} (a0 : Path) (s : State) (h : s.ok p) : EndsOk p (execPsqClrLock a0 s) :=
  endsOk_of (execPsqClrLock_keeps (m := 8803688973066) rfl (Same.refl _ _)) rfl h

theorem execPsqCntClr_ok {p : List Instr × BitVec 64} (a0 : Path) (a1 : Word) (s : State) (h : s.ok p) : EndsOk p (execPsqCntClr a0 a1 s) :=
  endsOk_of (execPsqCntClr_keeps (m := 1140850696) rfl (Same.refl _ _)) rfl h

theorem execPsqOn_ok {p : List Instr × BitVec 64} (a0 : Path) (s : State) (h : s.ok p) : EndsOk p (execPsqOn a0 s) :=
  endsOk_of (execPsqOn_keeps (m := 8803688973066) rfl (Same.refl _ _)) rfl h

theorem execPstCntClr_ok {p : List Instr × BitVec 64} (a0 : Path) (a1 : Word) (s : State) (h : s.ok p) : EndsOk p (execPstCntClr a0 a1 s) :=
  endsOk_of (execPstCntClr_keeps (m := 4362076168) rfl (Same.refl _ _)) rfl h

theorem execPstCommit_ok {p : List Instr × BitVec 64} (a0 : Path) (a1 : Fin 8) (s : State) (h : s.ok p) : EndsOk p (execPstCommit a0 a1 s) :=
  endsOk_of (execPstCommit_keeps (m := 4362076426) rfl (Same.refl _ _)) rfl h

theorem execPstErase_ok {p : List Instr × BitVec 64} (a0 : Path) (s : State) (h : s.ok p) : EndsOk p (execPstErase a0 s) :=
  endsOk_of (execPstErase_keeps (m := 4362076426) rfl (Same.refl _ _)) rfl h

theorem execPstLoad_ok {p : List Instr × BitVec 64} (a0 : Path) (a1 : Fin 8) (s : State) (h : s.ok p) : EndsOk p (execPstLoad a0 a1 s) :=
  endsOk_of (execPstLoad_keeps (m := 4362076172) rfl (Same.refl _ _)) rfl h

theorem execPstWinWrite_ok {p : List Instr × BitVec 64} (a0 : Path) (a1 : Fin 64) (a2 : Word) (s : State) (h : s.ok p) : EndsOk p (execPstWinWrite a0 a1 a2 s) :=
  endsOk_of (execPstWinWrite_keeps (m := 4362076426) rfl (Same.refl _ _)) rfl h

theorem execRbCntClr_ok {p : List Instr × BitVec 64} (a0 : Path) (a1 : Word) (s : State) (h : s.ok p) : EndsOk p (execRbCntClr a0 a1 s) :=
  endsOk_of (execRbCntClr_keeps (m := 67108872) rfl (Same.refl _ _)) rfl h

theorem execRtLateClr_ok {p : List Instr × BitVec 64} (a0 : Path) (a1 : Word) (s : State) (h : s.ok p) : EndsOk p (execRtLateClr a0 a1 s) :=
  endsOk_of (execRtLateClr_keeps (m := 8796160131080) rfl (Same.refl _ _)) rfl h

theorem State.oobAct_ok {p : List Instr × BitVec 64} (s : State) (a1 : Nat) (a2 : Word) (h : s.ok p) : (State.oobAct s a1 a2).ok p := by
  unfold State.oobAct
  repeat' (first | intro _ | with_reducible assumption | with_reducible apply endsOk_next | with_reducible apply endsOk_ite | with_reducible apply ok_ite | with_reducible apply ok_dite | with_reducible apply thenState_ok | with_reducible apply execDevLockAll_ok | with_reducible apply execLockSet_ok | with_reducible apply execPsqOn_ok | with_reducible apply execPsqOff_ok | with_reducible apply execPsqClrLock_ok | with_reducible apply execMarginApply_ok | with_reducible apply execMarginStop_ok | with_reducible apply execPsqCntClr_ok | with_reducible apply execCisTest_ok | with_reducible apply execCisCntClr_ok | with_reducible apply execHkReadmit_ok | with_reducible apply execHkCntClr_ok | with_reducible apply execPstErase_ok | with_reducible apply execPstLoad_ok | with_reducible apply execPstCommit_ok | with_reducible apply execPstWinWrite_ok | with_reducible apply execPstCntClr_ok | with_reducible apply execRbCntClr_ok | with_reducible apply execRtLateClr_ok | with_reducible apply execMqFlushDn_ok | with_reducible apply execMqFlushUp_ok | with_reducible apply execMqReset_ok | with_reducible apply execMqPushLo_ok | with_reducible apply execMqPushHi_ok | with_reducible apply execMqPushHiEnd_ok | with_reducible apply execMqCntClr_ok | fail_if_no_progress with_reducible apply ok_upd | with_reducible refine ok_tick (.inr rfl) ?_ | split | dsimp only)

theorem State.raise_ok {p : List Instr × BitVec 64} (s : State) (a1 : Nat) (a2 : Nat) (a3 : Nat) (h : s.ok p) : (State.raise s a1 a2 a3).ok p :=
  ok_of (State.raise_keeps (m := 83887630) rfl (Same.refl _ _)) rfl h

theorem State.upFail_ok {p : List Instr × BitVec 64} (s : State) (a1 : Nat) (h : s.ok p) : (State.upFail s a1).ok p := by
  unfold State.upFail
  repeat' (first | intro _ | with_reducible assumption | with_reducible apply ok_ite | with_reducible apply State.rollSnap_ok | with_reducible apply State.raise_ok | with_reducible apply State.bump_ok | with_reducible apply State.startDown_ok | fail_if_no_progress with_reducible apply ok_upd | with_reducible refine ok_tick (.inr rfl) ?_ | split | dsimp only)

theorem State.drawn_ok {p : List Instr × BitVec 64} (s : State) (h : s.ok p) : (State.drawn s).ok p :=
  ok_of (State.drawn_keeps (m := 4) rfl (Same.refl _ _)) rfl h

theorem State.margDrop_ok {p : List Instr × BitVec 64} (s : State) (a1 : Nat) (h : s.ok p) : (State.margDrop s a1).ok p :=
  ok_of (State.margDrop_keeps (m := 8797246521354) rfl (Same.refl _ _)) rfl h

theorem State.pmbPut_ok {p : List Instr × BitVec 64} (s : State) (a1 : List PmbOp) (h : s.ok p) : (State.pmbPut s a1).ok p :=
  ok_of (State.pmbPut_keeps (m := 8388608) rfl (Same.refl _ _)) rfl h

theorem State.railFault_ok {p : List Instr × BitVec 64} (s : State) (a1 : Nat) (h : s.ok p) : (State.railFault s a1).ok p := by
  unfold State.railFault
  repeat' (first | intro _ | with_reducible assumption | with_reducible apply ok_ite | with_reducible apply State.bump_ok | with_reducible apply State.upFail_ok | with_reducible apply State.setBit_ok | with_reducible apply State.pmbPut_ok | with_reducible apply State.drawn_ok | with_reducible apply State.margDrop_ok | with_reducible apply State.rollSnap_ok | with_reducible apply State.holdToken_ok | with_reducible apply State.drainStart_ok | with_reducible apply State.raise_ok | fail_if_no_progress with_reducible apply ok_upd | with_reducible refine ok_tick (.inr rfl) ?_ | split | dsimp only)

theorem State.railSense_ok {p : List Instr × BitVec 64} (s : State) (a1 : Nat) (h : s.ok p) : (State.railSense s a1).ok p := by
  unfold State.railSense
  repeat' (first | intro _ | with_reducible assumption | with_reducible apply ok_ite | with_reducible apply State.railFault_ok | fail_if_no_progress with_reducible apply ok_upd | with_reducible refine ok_tick (.inr rfl) ?_ | split | dsimp only)

theorem State.rorDisarm_ok {p : List Instr × BitVec 64} (s : State) (h : s.ok p) : (State.rorDisarm s).ok p :=
  ok_of (State.rorDisarm_keeps (m := 9897821438474) rfl (Same.refl _ _)) rfl h

theorem State.railsUp_ok {p : List Instr × BitVec 64} (s : State) (a1 : Bool) (h : s.ok p) : (State.railsUp s a1).ok p := by
  unfold State.railsUp
  repeat' (first | intro _ | with_reducible assumption | with_reducible apply ok_ite | with_reducible apply State.set_ok | with_reducible apply State.setPhase_ok | with_reducible apply State.setBit_ok | with_reducible apply State.pstAdd_ok | with_reducible apply State.wrN_ok | with_reducible apply State.rorDisarm_ok | with_reducible apply State.coreStart_ok | fail_if_no_progress with_reducible apply ok_upd | with_reducible refine ok_tick (.inr rfl) ?_ | split | dsimp only)

theorem State.checkpointNow_ok {p : List Instr × BitVec 64} (s : State) (h : s.ok p) : (State.checkpointNow s).ok p :=
  ok_of (State.checkpointNow_keeps (m := 305599876295438) rfl (Same.refl _ _)) rfl h

theorem State.closeStripes_ok {p : List Instr × BitVec 64} (s : State) (h : s.ok p) : (State.closeStripes s).ok p :=
  ok_of (State.closeStripes_keeps (m := 305599876295438) rfl (Same.refl _ _)) rfl h

theorem State.journal_ok {p : List Instr × BitVec 64} (s : State) (a1 : List JEntry) (h : s.ok p) : (State.journal s a1).ok p :=
  ok_of (State.journal_keeps (m := 19451974099722) rfl (Same.refl _ _)) rfl h

theorem State.ledgerWrite_ok {p : List Instr × BitVec 64} (s : State) (h : s.ok p) : (State.ledgerWrite s).ok p :=
  ok_of (State.ledgerWrite_keeps (m := 4362076426) rfl (Same.refl _ _)) rfl h

theorem State.shutdownStep_ok {p : List Instr × BitVec 64} (s : State) (h : s.ok p) : (State.shutdownStep s).ok p := by
  unfold State.shutdownStep
  repeat' (first | intro _ | with_reducible assumption | with_reducible apply ok_ite | with_reducible apply ok_dite | with_reducible apply State.settleReqs_ok | with_reducible apply State.stopMedia_ok | with_reducible apply State.closeStripes_ok | with_reducible apply State.drainAll_ok | with_reducible apply State.checkpointNow_ok | with_reducible apply State.journalFlush_ok | with_reducible apply State.ledgerWrite_ok | with_reducible apply State.journal_ok | with_reducible apply State.pdWrite_ok | with_reducible apply State.lastAlive_ok | with_reducible apply State.startDown_ok | fail_if_no_progress with_reducible apply ok_upd | with_reducible refine ok_tick (.inr rfl) ?_ | split | dsimp only)

theorem State.trip_ok {p : List Instr × BitVec 64} (s : State) (h : s.ok p) : (State.trip s).ok p := by
  unfold State.trip
  repeat' (first | intro _ | with_reducible assumption | with_reducible apply ok_ite | with_reducible apply State.pstAdd_ok | with_reducible apply State.bump_ok | with_reducible apply State.setBit_ok | with_reducible apply State.rollSnap_ok | with_reducible apply State.drainStart_ok | with_reducible apply State.startDown_ok | with_reducible apply State.setPhase_ok | with_reducible apply State.restartHold_ok | fail_if_no_progress with_reducible apply ok_upd | with_reducible refine ok_tick (.inr rfl) ?_ | split | dsimp only)

theorem State.tripCheck_ok {p : List Instr × BitVec 64} (s : State) (a1 : Nat) (h : s.ok p) : (State.tripCheck s a1).ok p := by
  unfold State.tripCheck
  repeat' (first | intro _ | with_reducible assumption | with_reducible apply ok_ite | with_reducible apply State.hotRemoval_ok | with_reducible apply State.trip_ok | fail_if_no_progress with_reducible apply ok_upd | with_reducible refine ok_tick (.inr rfl) ?_ | split | dsimp only)

theorem execModEnFall_ok {p : List Instr × BitVec 64} (s : State) (h : s.ok p) : EndsOk p (execModEnFall s) := by
  unfold execModEnFall
  repeat' (first | intro _ | with_reducible assumption | with_reducible apply endsOk_next | with_reducible apply ok_when | with_reducible apply State.setBit_ok | with_reducible apply State.offRequest_ok | fail_if_no_progress with_reducible apply ok_upd | with_reducible refine ok_tick (.inr rfl) ?_ | split | dsimp only)

theorem execInputFail_ok {p : List Instr × BitVec 64} (s : State) (h : s.ok p) : EndsOk p (execInputFail s) := by
  unfold execInputFail
  repeat' (first | intro _ | with_reducible assumption | with_reducible apply endsOk_next | with_reducible apply ok_when | with_reducible apply State.inputFail_ok | fail_if_no_progress with_reducible apply ok_upd | with_reducible refine ok_tick (.inr rfl) ?_ | split | dsimp only)

theorem execRailPowerGood_ok {p : List Instr × BitVec 64} (a0 : Bool) (s : State) (h : s.ok p) : EndsOk p (execRailPowerGood a0 s) := by
  unfold execRailPowerGood
  repeat' (first | intro _ | with_reducible assumption | with_reducible apply endsOk_next | with_reducible apply endsOk_ite | with_reducible apply ok_ite | with_reducible apply State.setBit_ok | with_reducible apply State.startDown_ok | with_reducible apply State.set_ok | with_reducible apply State.railsUp_ok | fail_if_no_progress with_reducible apply ok_upd | with_reducible refine ok_tick (.inr rfl) ?_ | split | dsimp only)

theorem execPgTimeout_ok {p : List Instr × BitVec 64} (s : State) (h : s.ok p) : EndsOk p (execPgTimeout s) := by
  unfold execPgTimeout
  repeat' (first | intro _ | with_reducible assumption | with_reducible apply endsOk_next | with_reducible apply endsOk_ite | with_reducible apply ok_ite | with_reducible apply State.startDown_ok | with_reducible apply State.upFail_ok | fail_if_no_progress with_reducible apply ok_upd | with_reducible refine ok_tick (.inr rfl) ?_ | split | dsimp only)

theorem execRailPgFall_ok {p : List Instr × BitVec 64} (a0 : Fin 16) (s : State) (h : s.ok p) : EndsOk p (execRailPgFall a0 s) := by
  unfold execRailPgFall
  repeat' (first | intro _ | with_reducible assumption | with_reducible apply endsOk_next | with_reducible apply ok_when | with_reducible apply State.setBit_ok | with_reducible apply State.railFault_ok | fail_if_no_progress with_reducible apply ok_upd | with_reducible refine ok_tick (.inr rfl) ?_ | split | dsimp only)

theorem execCisternAverage_ok {p : List Instr × BitVec 64} (a0 : BitVec 16) (s : State) (h : s.ok p) : EndsOk p (execCisternAverage a0 s) := by
  unfold execCisternAverage
  repeat' (first | intro _ | with_reducible assumption | with_reducible apply endsOk_next | with_reducible apply endsOk_ite | with_reducible apply ok_ite | with_reducible apply ok_when | with_reducible apply State.wrN_ok | with_reducible apply State.drainShort_ok | fail_if_no_progress with_reducible apply ok_upd | with_reducible refine ok_tick (.inr rfl) ?_ | split | dsimp only)

theorem execDrainStepDone_ok {p : List Instr × BitVec 64} (s : State) (h : s.ok p) : EndsOk p (execDrainStepDone s) := by
  unfold execDrainStepDone
  repeat' (first | intro _ | with_reducible assumption | with_reducible apply endsOk_next | with_reducible apply ok_when | with_reducible apply State.drainStep_ok | fail_if_no_progress with_reducible apply ok_upd | with_reducible refine ok_tick (.inr rfl) ?_ | split | dsimp only)

theorem execThermalDrainLimit_ok {p : List Instr × BitVec 64} (s : State) (h : s.ok p) : EndsOk p (execThermalDrainLimit s) := by
  unfold execThermalDrainLimit
  repeat' (first | intro _ | with_reducible assumption | with_reducible apply endsOk_next | with_reducible apply ok_when | with_reducible apply State.drainShort_ok | fail_if_no_progress with_reducible apply ok_upd | with_reducible refine ok_tick (.inr rfl) ?_ | split | dsimp only)

theorem execShutdownStepDone_ok {p : List Instr × BitVec 64} (s : State) (h : s.ok p) : EndsOk p (execShutdownStepDone s) := by
  unfold execShutdownStepDone
  repeat' (first | intro _ | with_reducible assumption | with_reducible apply endsOk_next | with_reducible apply ok_when | with_reducible apply State.shutdownStep_ok | fail_if_no_progress with_reducible apply ok_upd | with_reducible refine ok_tick (.inr rfl) ?_ | split | dsimp only)

theorem State.condsNow_ok {p : List Instr × BitVec 64} (s : State) (h : s.ok p) : (State.condsNow s).ok p :=
  ok_of (State.condsNow_keeps (m := 9897821438474) rfl (Same.refl _ _)) rfl h

theorem State.crossCheck_ok {p : List Instr × BitVec 64} (s : State) (a1 : Nat) (a2 : Nat) (h : s.ok p) : (State.crossCheck s a1 a2).ok p :=
  ok_of (State.crossCheck_keeps (m := 5774670595598) rfl (Same.refl _ _)) rfl h

theorem State.hotShow_ok {p : List Instr × BitVec 64} (s : State) (h : s.ok p) : (State.hotShow s).ok p :=
  ok_of (State.hotShow_keeps (m := 2147483656) rfl (Same.refl _ _)) rfl h

theorem State.pcItem_ok {p : List Instr × BitVec 64} (s : State) (a1 : Nat) (h : s.ok p) : (State.pcItem s a1).ok p :=
  ok_of (State.pcItem_keeps (m := 67108872) rfl (Same.refl _ _)) rfl h

theorem State.rorShow_ok {p : List Instr × BitVec 64} (s : State) (h : s.ok p) : (State.rorShow s).ok p :=
  ok_of (State.rorShow_keeps (m := 2147483656) rfl (Same.refl _ _)) rfl h

theorem State.roundEnd_ok {p : List Instr × BitVec 64} (s : State) (h : s.ok p) : (State.roundEnd s).ok p :=
  ok_of (State.roundEnd_keeps (m := 9897821438474) rfl (Same.refl _ _)) rfl h

theorem State.setBand_ok {p : List Instr × BitVec 64} (s : State) (a1 : Nat) (a2 : Nat) (h : s.ok p) : (State.setBand s a1 a2).ok p :=
  ok_of (State.setBand_keeps (m := 4672925466632) rfl (Same.refl _ _)) rfl h

theorem execHousekeepingReading_ok {p : List Instr × BitVec 64} (a0 : Fin 64) (a1 : BitVec 12) (s : State) (h : s.ok p) : EndsOk p (execHousekeepingReading a0 a1 s) := by
  unfold execHousekeepingReading
  repeat' (first | intro _ | with_reducible assumption | with_reducible apply endsOk_next | with_reducible apply endsOk_ite | with_reducible apply ok_ite | with_reducible apply State.pcItem_ok | with_reducible apply State.set_ok | with_reducible apply State.setBit_ok | with_reducible apply State.crossCheck_ok | with_reducible apply State.tripCheck_ok | with_reducible apply State.condsNow_ok | with_reducible apply State.rorShow_ok | with_reducible apply State.hotShow_ok | with_reducible apply State.setBand_ok | with_reducible apply State.railSense_ok | with_reducible apply State.roundEnd_ok | fail_if_no_progress with_reducible apply ok_upd | with_reducible refine ok_tick (.inr rfl) ?_ | split | dsimp only)

theorem execEscalationTimeout_ok {p : List Instr × BitVec 64} (a0 : BitVec 8) (s : State) (h : s.ok p) : EndsOk p (execEscalationTimeout a0 s) := by
  unfold execEscalationTimeout
  repeat' (first | intro _ | with_reducible assumption | with_reducible apply endsOk_next | with_reducible apply ok_when | with_reducible apply State.escalate_ok | fail_if_no_progress with_reducible apply ok_upd | with_reducible refine ok_tick (.inr rfl) ?_ | split | dsimp only)

theorem execFcEsc_ok {p : List Instr × BitVec 64} (a0 : BitVec 8) (s : State) (h : s.ok p) : EndsOk p (execFcEsc a0 s) := by
  unfold execFcEsc
  repeat' (first | intro _ | with_reducible assumption | with_reducible apply endsOk_next | with_reducible apply ok_when | with_reducible apply State.escalate_ok | fail_if_no_progress with_reducible apply ok_upd | with_reducible refine ok_tick (.inr rfl) ?_ | split | dsimp only)

theorem execFcContainNow_ok {p : List Instr × BitVec 64} (a0 : Path) (s : State) (h : s.ok p) : EndsOk p (execFcContainNow a0 s) := by
  unfold execFcContainNow
  repeat' (first | intro _ | with_reducible assumption | with_reducible apply endsOk_next | with_reducible apply ok_when | with_reducible apply State.regAcc_ok | with_reducible apply State.contain_ok | fail_if_no_progress with_reducible apply ok_upd | with_reducible refine ok_tick (.inr rfl) ?_ | split | dsimp only)

theorem execFcDrainLimit_ok {p : List Instr × BitVec 64} (s : State) (h : s.ok p) : EndsOk p (execFcDrainLimit s) := by
  unfold execFcDrainLimit
  repeat' (first | intro _ | with_reducible assumption | with_reducible apply endsOk_next | with_reducible apply ok_when | with_reducible apply State.drainShort_ok | fail_if_no_progress with_reducible apply ok_upd | with_reducible refine ok_tick (.inr rfl) ?_ | split | dsimp only)

theorem execJtagInstructionUpdate_ok {p : List Instr × BitVec 64} (a0 : BitVec 8) (a1 : Bool) (s : State) (h : s.ok p) : EndsOk p (execJtagInstructionUpdate a0 a1 s) := by
  unfold execJtagInstructionUpdate
  repeat' (first | intro _ | with_reducible assumption | with_reducible apply endsOk_next | with_reducible apply State.jtagLoad_ok | fail_if_no_progress with_reducible apply ok_upd | with_reducible refine ok_tick (.inr rfl) ?_ | split | dsimp only)

theorem execTrstN_ok {p : List Instr × BitVec 64} (a0 : Bool) (s : State) (h : s.ok p) : EndsOk p (execTrstN a0 s) := by
  unfold execTrstN
  repeat' (first | intro _ | with_reducible assumption | with_reducible apply endsOk_next | with_reducible apply State.jtagLoad_ok | fail_if_no_progress with_reducible apply ok_upd | with_reducible refine ok_tick (.inr rfl) ?_ | split | dsimp only)

theorem execAuxRise_ok {p : List Instr × BitVec 64} (s : State) (h : s.ok p) : EndsOk p (execAuxRise s) := by
  exact endsOk_next ⟨h.1, ⟨h.2.1.1, h.2.1.2.1, fun _ => rfl⟩, h.2.2⟩

theorem execAuxFall_ok {p : List Instr × BitVec 64} (s : State) (h : s.ok p) : EndsOk p (execAuxFall s) := by
  unfold execAuxFall
  repeat' (first | intro _ | with_reducible assumption | with_reducible apply endsOk_next | with_reducible apply endsOk_ite | with_reducible apply ok_ite | with_reducible apply ok_foldl | with_reducible apply State.auxReset_ok | with_reducible apply State.emit_ok | fail_if_no_progress with_reducible apply ok_upd | with_reducible refine ok_tick (.inr rfl) ?_ | split | dsimp only)

theorem State.cfgLoad_ok {p : List Instr × BitVec 64} (s : State) (a1 : Bool) (a2 : List Nat) (a3 : List (BitVec 24 × Word)) (h : s.ok p) : (State.cfgLoad s a1 a2 a3).ok p :=
  ok_of (State.cfgLoad_keeps (m := 562949819203592) rfl (Same.refl _ _)) rfl h

theorem State.lockout_ok {p : List Instr × BitVec 64} (s : State) (a1 : Nat) (h : s.ok p) : (State.lockout s a1).ok p :=
  ok_of (State.lockout_keeps (m := 1149239816) rfl (Same.refl _ _)) rfl h

theorem State.monitorReady_ok {p : List Instr × BitVec 64} (s : State) (h : s.ok p) : (State.monitorReady s).ok p :=
  ok_of (State.monitorReady_keeps (m := 9903190147850) rfl (Same.refl _ _)) rfl h

theorem State.onRequest_ok {p : List Instr × BitVec 64} (s : State) (h : s.ok p) : (State.onRequest s).ok p :=
  ok_of (State.onRequest_keeps (m := 8803688973066) rfl (Same.refl _ _)) rfl h

theorem State.storeReady_ok {p : List Instr × BitVec 64} (s : State) (h : s.ok p) : (State.storeReady s).ok p :=
  ok_of (State.storeReady_keeps (m := 4362076938) rfl (Same.refl _ _)) rfl h

theorem execAonReady_ok {p : List Instr × BitVec 64} (a0 : Bool) (a1 : List (BitVec 24 × Sys2Proof.Word)) (s : State) (h : s.ok p) :
    EndsOk p (execAonReady a0 a1 s) := by
  unfold execAonReady
  split
  · exact endsOk_next h
  · next hc =>
    have hx : s.dom.aux = true := by simp at hc; exact hc.1
    have hu : ({ s with dom.aon := true, boot.side := a0 } : State).ok p :=
      ⟨h.1, ⟨h.2.1.1, fun _ => rfl, fun _ => hx⟩, h.2.2⟩
    revert hu
    generalize ({ s with dom.aon := true, boot.side := a0 } : State) = u
    intro hu
    repeat' (first | intro _ | with_reducible assumption | with_reducible apply endsOk_next | with_reducible apply endsOk_ite | with_reducible apply ok_ite | with_reducible apply ok_foldl | with_reducible apply State.cfgLoad_ok | with_reducible apply State.wrN_ok | with_reducible apply State.emit_ok | with_reducible apply State.monitorReady_ok | with_reducible apply State.storeReady_ok | with_reducible apply State.lockout_ok | with_reducible apply State.setBit_ok | with_reducible apply State.onRequest_ok | fail_if_no_progress with_reducible apply ok_upd | with_reducible refine ok_tick (.inr rfl) ?_ | split | dsimp only)

theorem State.lockAll_ok {p : List Instr × BitVec 64} (s : State) (h : s.ok p) : (State.lockAll s).ok p :=
  ok_of (State.lockAll_keeps (m := 562949819203592) rfl (Same.refl _ _)) rfl h

theorem State.pump_ok {p : List Instr × BitVec 64} (s : State) (h : s.ok p) : (State.pump s).ok p :=
  ok_of (State.pump_keeps (m := 314447559261966) rfl (Same.refl _ _)) rfl h

theorem State.tsStatus_ok {p : List Instr × BitVec 64} (s : State) (h : s.ok p) : (State.tsStatus s).ok p :=
  ok_of (State.tsStatus_keeps (m := 137438953480) rfl (Same.refl _ _)) rfl h

theorem execMemoryActive_ok {p : List Instr × BitVec 64} (s : State) (h : s.ok p) : EndsOk p (execMemoryActive s) := by
  unfold execMemoryActive
  dsimp only
  split
  · next hc =>
    have hc : s.dom.coreUp = true := by simp only [Bool.and_eq_true] at hc; exact hc.1.1.1.1.1.1
    have e : Same 268435464 s (s.set F.BOOT_STS.PHASE 6) := State.set_keeps rfl (R.BOOT_STS_ok rfl) (Same.refl _ _)
    have hd := e.dom rfl
    have hp := e.pending rfl
    have ht := e.tick rfl
    have hu : ({ s.set F.BOOT_STS.PHASE 6 with dom.memActive := true } : State).ok p := by
      refine ⟨hp.trans h.1, ?_, (show (s.set F.BOOT_STS.PHASE 6).tick = p.2 ∨ (s.set F.BOOT_STS.PHASE 6).tick = 0 by rw [ht]; exact h.2.2)⟩
      have hl := h.2.1
      simp only [State.domainsLegal, DomSt.legal, hd] at hl ⊢
      simp [hc] at hl ⊢
      exact hl
    revert hu
    generalize ({ s.set F.BOOT_STS.PHASE 6 with dom.memActive := true } : State) = u
    intro hu
    repeat' (first | intro _ | with_reducible assumption | with_reducible apply endsOk_next | with_reducible apply endsOk_ite | with_reducible apply ok_ite | with_reducible apply ok_when | with_reducible apply ok_foldl | with_reducible apply State.set_ok | with_reducible apply State.setBit_ok | with_reducible apply State.wrN_ok | with_reducible apply State.pump_ok | with_reducible apply State.tsStatus_ok | with_reducible apply State.lockAll_ok | fail_if_no_progress with_reducible apply ok_upd | with_reducible refine ok_tick (.inr rfl) ?_ | split | dsimp only)
  · exact endsOk_next h

theorem execDevRstNAssert_ok {p : List Instr × BitVec 64} (s : State) (h : s.ok p) : EndsOk p (execDevRstNAssert s) := by
  unfold execDevRstNAssert
  repeat' (first | intro _ | with_reducible assumption | with_reducible apply endsOk_next | with_reducible apply endsOk_ite | with_reducible apply ok_ite | with_reducible apply State.coreReset_ok | with_reducible apply State.resetDown_ok | fail_if_no_progress with_reducible apply ok_upd | with_reducible refine ok_tick (.inr rfl) ?_ | split | dsimp only)

theorem execDevRstNRelease_ok {p : List Instr × BitVec 64} (a0 : Bool) (s : State) (h : s.ok p) : EndsOk p (execDevRstNRelease a0 s) := by
  unfold execDevRstNRelease
  repeat' (first | intro _ | with_reducible assumption | with_reducible apply endsOk_next | with_reducible apply endsOk_ite | with_reducible apply ok_ite | with_reducible apply State.coreStart_ok | fail_if_no_progress with_reducible apply ok_upd | with_reducible refine ok_tick (.inr rfl) ?_ | split | dsimp only)

theorem execRegisterResetExecute_ok {p : List Instr × BitVec 64} (a0 : Bool) (s : State) (h : s.ok p) : EndsOk p (execRegisterResetExecute a0 s) := by
  unfold execRegisterResetExecute
  repeat' (first | intro _ | with_reducible assumption | with_reducible apply endsOk_next | with_reducible apply endsOk_ite | with_reducible apply ok_ite | with_reducible apply State.settleReqs_ok | with_reducible apply State.coreReset_ok | with_reducible apply State.coreStart_ok | fail_if_no_progress with_reducible apply ok_upd | with_reducible refine ok_tick (.inr rfl) ?_ | split | dsimp only)

theorem State.keepOwn_ok {p : List Instr × BitVec 64} (s : State) (a1 : Nat) (a2 : Nat) (h : s.ok p) : (State.keepOwn s a1 a2).ok p :=
  ok_of (State.keepOwn_keeps (m := 8) rfl (Same.refl _ _)) rfl h

theorem State.regWrite_ok {p : List Instr × BitVec 64} (s : State) (a1 : Path) (a2 : Nat) (a3 : Word) (h : s.ok p) : (State.regWrite s a1 a2 a3).ok p :=
  ok_of (State.regWrite_keeps (m := 562949937823502) rfl (Same.refl _ _)) rfl h

theorem execOobWrite_ok {p : List Instr × BitVec 64} (a0 : BitVec 24) (a1 : Word) (a2 : Bool) (s : State) (h : s.ok p) : EndsOk p (execOobWrite a0 a1 a2 s) := by
  unfold execOobWrite
  repeat' (first | intro _ | with_reducible assumption | with_reducible apply endsOk_next | with_reducible apply endsOk_ite | with_reducible apply ok_ite | with_reducible apply State.emit_ok | with_reducible apply State.regAcc_ok | with_reducible apply State.keepOwn_ok | with_reducible apply State.regWrite_ok | with_reducible apply State.oobAct_ok | fail_if_no_progress with_reducible apply ok_upd | with_reducible refine ok_tick (.inr rfl) ?_ | split | dsimp only)

end Sys2Proof.Machine
end

