-- ==== Sys2Proof/Laws/Fields.lean ====
section
/-! SUPPORT. For each shared operation, the fields of State that it leaves alone, one lemma an operation. -/

set_option autoImplicit false
set_option linter.unusedTactic false
set_option linter.unreachableTactic false
set_option linter.unnecessarySeqFocus false
set_option linter.unusedSimpArgs false
set_option linter.unusedVariables false

namespace Sys2Proof.Machine

@[simp] theorem State.drawn_fields (s : State) :
    (State.drawn s).pending = s.pending ∧ (State.drawn s).out = s.out ∧ (State.drawn s).regs = s.regs ∧ (State.drawn s).tick = s.tick ∧ (State.drawn s).refclk = s.refclk ∧ (State.drawn s).dom = s.dom ∧ (State.drawn s).opSecs = s.opSecs ∧ (State.drawn s).pst = s.pst ∧ (State.drawn s).rb = s.rb ∧ (State.drawn s).fc = s.fc ∧ (State.drawn s).rt = s.rt ∧ (State.drawn s).lc = s.lc ∧ (State.drawn s).te = s.te ∧ (State.drawn s).ce = s.ce ∧ (State.drawn s).hp = s.hp ∧ (State.drawn s).tw = s.tw ∧ (State.drawn s).dc = s.dc ∧ (State.drawn s).md = s.md ∧ (State.drawn s).mcTry = s.mcTry ∧ (State.drawn s).sir = s.sir ∧ (State.drawn s).hk = s.hk ∧ (State.drawn s).arch = s.arch ∧ (State.drawn s).psq = s.psq ∧ (State.drawn s).boot = s.boot ∧ (State.drawn s).mq = s.mq ∧ (State.drawn s).tst = s.tst := by
  have h := State.drawn_keeps (m := 4)  rfl (Same.refl _ s)
  exact ⟨h.pending rfl, h.out rfl, h.regs rfl, h.tick rfl, h.refclk rfl, h.dom rfl, h.opSecs rfl, h.pst rfl, h.rb rfl, h.fc rfl, h.rt rfl, h.lc rfl, h.te rfl, h.ce rfl, h.hp rfl, h.tw rfl, h.dc rfl, h.md rfl, h.mcTry rfl, h.sir rfl, h.hk rfl, h.arch rfl, h.psq rfl, h.boot rfl, h.mq rfl, h.tst rfl⟩

@[simp] theorem State.pcEvent_fields (s : State) (a1 : Nat) (a2 : Nat) (a3 : Nat) :
    (State.pcEvent s a1 a2 a3).pending = s.pending ∧ (State.pcEvent s a1 a2 a3).out = s.out ∧ (State.pcEvent s a1 a2 a3).freeCtr = s.freeCtr ∧ (State.pcEvent s a1 a2 a3).tick = s.tick ∧ (State.pcEvent s a1 a2 a3).refclk = s.refclk ∧ (State.pcEvent s a1 a2 a3).dom = s.dom ∧ (State.pcEvent s a1 a2 a3).opSecs = s.opSecs ∧ (State.pcEvent s a1 a2 a3).pst = s.pst ∧ (State.pcEvent s a1 a2 a3).rb = s.rb ∧ (State.pcEvent s a1 a2 a3).fc = s.fc ∧ (State.pcEvent s a1 a2 a3).rt = s.rt ∧ (State.pcEvent s a1 a2 a3).lc = s.lc ∧ (State.pcEvent s a1 a2 a3).te = s.te ∧ (State.pcEvent s a1 a2 a3).ce = s.ce ∧ (State.pcEvent s a1 a2 a3).hp = s.hp ∧ (State.pcEvent s a1 a2 a3).tw = s.tw ∧ (State.pcEvent s a1 a2 a3).dc = s.dc ∧ (State.pcEvent s a1 a2 a3).md = s.md ∧ (State.pcEvent s a1 a2 a3).mcTry = s.mcTry ∧ (State.pcEvent s a1 a2 a3).sir = s.sir ∧ (State.pcEvent s a1 a2 a3).hk = s.hk ∧ (State.pcEvent s a1 a2 a3).arch = s.arch ∧ (State.pcEvent s a1 a2 a3).psq = s.psq ∧ (State.pcEvent s a1 a2 a3).boot = s.boot ∧ (State.pcEvent s a1 a2 a3).mq = s.mq := by
  have h := State.pcEvent_keeps (m := 67108872) (a1 := a1) (a2 := a2) (a3 := a3) rfl (Same.refl _ s)
  exact ⟨h.pending rfl, h.out rfl, h.freeCtr rfl, h.tick rfl, h.refclk rfl, h.dom rfl, h.opSecs rfl, h.pst rfl, h.rb rfl, h.fc rfl, h.rt rfl, h.lc rfl, h.te rfl, h.ce rfl, h.hp rfl, h.tw rfl, h.dc rfl, h.md rfl, h.mcTry rfl, h.sir rfl, h.hk rfl, h.arch rfl, h.psq rfl, h.boot rfl, h.mq rfl⟩

@[simp] theorem State.pcItem_fields (s : State) (a1 : Nat) :
    (State.pcItem s a1).pending = s.pending ∧ (State.pcItem s a1).out = s.out ∧ (State.pcItem s a1).freeCtr = s.freeCtr ∧ (State.pcItem s a1).tick = s.tick ∧ (State.pcItem s a1).refclk = s.refclk ∧ (State.pcItem s a1).dom = s.dom ∧ (State.pcItem s a1).opSecs = s.opSecs ∧ (State.pcItem s a1).pst = s.pst ∧ (State.pcItem s a1).rb = s.rb ∧ (State.pcItem s a1).fc = s.fc ∧ (State.pcItem s a1).rt = s.rt ∧ (State.pcItem s a1).lc = s.lc ∧ (State.pcItem s a1).te = s.te ∧ (State.pcItem s a1).ce = s.ce ∧ (State.pcItem s a1).hp = s.hp ∧ (State.pcItem s a1).tw = s.tw ∧ (State.pcItem s a1).dc = s.dc ∧ (State.pcItem s a1).md = s.md ∧ (State.pcItem s a1).mcTry = s.mcTry ∧ (State.pcItem s a1).sir = s.sir ∧ (State.pcItem s a1).hk = s.hk ∧ (State.pcItem s a1).arch = s.arch ∧ (State.pcItem s a1).psq = s.psq ∧ (State.pcItem s a1).boot = s.boot ∧ (State.pcItem s a1).mq = s.mq := by
  have h := State.pcItem_keeps (m := 67108872) (a1 := a1) rfl (Same.refl _ s)
  exact ⟨h.pending rfl, h.out rfl, h.freeCtr rfl, h.tick rfl, h.refclk rfl, h.dom rfl, h.opSecs rfl, h.pst rfl, h.rb rfl, h.fc rfl, h.rt rfl, h.lc rfl, h.te rfl, h.ce rfl, h.hp rfl, h.tw rfl, h.dc rfl, h.md rfl, h.mcTry rfl, h.sir rfl, h.hk rfl, h.arch rfl, h.psq rfl, h.boot rfl, h.mq rfl⟩

@[simp] theorem State.regAcc_fields (s : State) (a1 : Nat) :
    (State.regAcc s a1).pending = s.pending ∧ (State.regAcc s a1).out = s.out ∧ (State.regAcc s a1).freeCtr = s.freeCtr ∧ (State.regAcc s a1).tick = s.tick ∧ (State.regAcc s a1).refclk = s.refclk ∧ (State.regAcc s a1).dom = s.dom ∧ (State.regAcc s a1).opSecs = s.opSecs ∧ (State.regAcc s a1).pst = s.pst ∧ (State.regAcc s a1).rb = s.rb ∧ (State.regAcc s a1).fc = s.fc ∧ (State.regAcc s a1).rt = s.rt ∧ (State.regAcc s a1).lc = s.lc ∧ (State.regAcc s a1).te = s.te ∧ (State.regAcc s a1).ce = s.ce ∧ (State.regAcc s a1).hp = s.hp ∧ (State.regAcc s a1).tw = s.tw ∧ (State.regAcc s a1).dc = s.dc ∧ (State.regAcc s a1).md = s.md ∧ (State.regAcc s a1).mcTry = s.mcTry ∧ (State.regAcc s a1).sir = s.sir ∧ (State.regAcc s a1).hk = s.hk ∧ (State.regAcc s a1).arch = s.arch ∧ (State.regAcc s a1).psq = s.psq ∧ (State.regAcc s a1).boot = s.boot ∧ (State.regAcc s a1).mq = s.mq := by
  have h := State.regAcc_keeps (m := 67108872) (a1 := a1) rfl (Same.refl _ s)
  exact ⟨h.pending rfl, h.out rfl, h.freeCtr rfl, h.tick rfl, h.refclk rfl, h.dom rfl, h.opSecs rfl, h.pst rfl, h.rb rfl, h.fc rfl, h.rt rfl, h.lc rfl, h.te rfl, h.ce rfl, h.hp rfl, h.tw rfl, h.dc rfl, h.md rfl, h.mcTry rfl, h.sir rfl, h.hk rfl, h.arch rfl, h.psq rfl, h.boot rfl, h.mq rfl⟩

@[simp] theorem State.pcOut_fields (s : State) (a1 : Output) :
    (State.pcOut s a1).pending = s.pending ∧ (State.pcOut s a1).out = s.out ∧ (State.pcOut s a1).freeCtr = s.freeCtr ∧ (State.pcOut s a1).tick = s.tick ∧ (State.pcOut s a1).refclk = s.refclk ∧ (State.pcOut s a1).dom = s.dom ∧ (State.pcOut s a1).opSecs = s.opSecs ∧ (State.pcOut s a1).pst = s.pst ∧ (State.pcOut s a1).rb = s.rb ∧ (State.pcOut s a1).fc = s.fc ∧ (State.pcOut s a1).rt = s.rt ∧ (State.pcOut s a1).lc = s.lc ∧ (State.pcOut s a1).te = s.te ∧ (State.pcOut s a1).ce = s.ce ∧ (State.pcOut s a1).hp = s.hp ∧ (State.pcOut s a1).tw = s.tw ∧ (State.pcOut s a1).dc = s.dc ∧ (State.pcOut s a1).md = s.md ∧ (State.pcOut s a1).mcTry = s.mcTry ∧ (State.pcOut s a1).sir = s.sir ∧ (State.pcOut s a1).hk = s.hk ∧ (State.pcOut s a1).arch = s.arch ∧ (State.pcOut s a1).psq = s.psq ∧ (State.pcOut s a1).boot = s.boot ∧ (State.pcOut s a1).mq = s.mq := by
  have h := State.pcOut_keeps (m := 67108872) (a1 := a1) rfl (Same.refl _ s)
  exact ⟨h.pending rfl, h.out rfl, h.freeCtr rfl, h.tick rfl, h.refclk rfl, h.dom rfl, h.opSecs rfl, h.pst rfl, h.rb rfl, h.fc rfl, h.rt rfl, h.lc rfl, h.te rfl, h.ce rfl, h.hp rfl, h.tw rfl, h.dc rfl, h.md rfl, h.mcTry rfl, h.sir rfl, h.hk rfl, h.arch rfl, h.psq rfl, h.boot rfl, h.mq rfl⟩

@[simp] theorem State.emit_fields (s : State) (a1 : Output) :
    (State.emit s a1).pending = s.pending ∧ (State.emit s a1).freeCtr = s.freeCtr ∧ (State.emit s a1).tick = s.tick ∧ (State.emit s a1).refclk = s.refclk ∧ (State.emit s a1).dom = s.dom ∧ (State.emit s a1).opSecs = s.opSecs ∧ (State.emit s a1).pst = s.pst ∧ (State.emit s a1).rb = s.rb ∧ (State.emit s a1).fc = s.fc ∧ (State.emit s a1).rt = s.rt ∧ (State.emit s a1).lc = s.lc ∧ (State.emit s a1).te = s.te ∧ (State.emit s a1).ce = s.ce ∧ (State.emit s a1).hp = s.hp ∧ (State.emit s a1).tw = s.tw ∧ (State.emit s a1).dc = s.dc ∧ (State.emit s a1).md = s.md ∧ (State.emit s a1).mcTry = s.mcTry ∧ (State.emit s a1).sir = s.sir ∧ (State.emit s a1).hk = s.hk ∧ (State.emit s a1).arch = s.arch ∧ (State.emit s a1).psq = s.psq ∧ (State.emit s a1).boot = s.boot ∧ (State.emit s a1).mq = s.mq := by
  have h := State.emit_keeps (m := 67108874) (a1 := a1) rfl (Same.refl _ s)
  exact ⟨h.pending rfl, h.freeCtr rfl, h.tick rfl, h.refclk rfl, h.dom rfl, h.opSecs rfl, h.pst rfl, h.rb rfl, h.fc rfl, h.rt rfl, h.lc rfl, h.te rfl, h.ce rfl, h.hp rfl, h.tw rfl, h.dc rfl, h.md rfl, h.mcTry rfl, h.sir rfl, h.hk rfl, h.arch rfl, h.psq rfl, h.boot rfl, h.mq rfl⟩

@[simp] theorem State.rbClose_fields (s : State) :
    (State.rbClose s).pending = s.pending ∧ (State.rbClose s).out = s.out ∧ (State.rbClose s).freeCtr = s.freeCtr ∧ (State.rbClose s).tick = s.tick ∧ (State.rbClose s).refclk = s.refclk ∧ (State.rbClose s).dom = s.dom ∧ (State.rbClose s).opSecs = s.opSecs ∧ (State.rbClose s).pst = s.pst ∧ (State.rbClose s).fc = s.fc ∧ (State.rbClose s).rt = s.rt ∧ (State.rbClose s).lc = s.lc ∧ (State.rbClose s).te = s.te ∧ (State.rbClose s).ce = s.ce ∧ (State.rbClose s).hp = s.hp ∧ (State.rbClose s).tw = s.tw ∧ (State.rbClose s).dc = s.dc ∧ (State.rbClose s).md = s.md ∧ (State.rbClose s).mcTry = s.mcTry ∧ (State.rbClose s).sir = s.sir ∧ (State.rbClose s).hk = s.hk ∧ (State.rbClose s).arch = s.arch ∧ (State.rbClose s).psq = s.psq ∧ (State.rbClose s).boot = s.boot ∧ (State.rbClose s).mq = s.mq ∧ (State.rbClose s).tst = s.tst := by
  have h := State.rbClose_keeps (m := 520)  rfl (Same.refl _ s)
  exact ⟨h.pending rfl, h.out rfl, h.freeCtr rfl, h.tick rfl, h.refclk rfl, h.dom rfl, h.opSecs rfl, h.pst rfl, h.fc rfl, h.rt rfl, h.lc rfl, h.te rfl, h.ce rfl, h.hp rfl, h.tw rfl, h.dc rfl, h.md rfl, h.mcTry rfl, h.sir rfl, h.hk rfl, h.arch rfl, h.psq rfl, h.boot rfl, h.mq rfl, h.tst rfl⟩

@[simp] theorem State.rbEvent_fields (s : State) (a1 : RbEvent) :
    (State.rbEvent s a1).pending = s.pending ∧ (State.rbEvent s a1).out = s.out ∧ (State.rbEvent s a1).freeCtr = s.freeCtr ∧ (State.rbEvent s a1).tick = s.tick ∧ (State.rbEvent s a1).refclk = s.refclk ∧ (State.rbEvent s a1).dom = s.dom ∧ (State.rbEvent s a1).opSecs = s.opSecs ∧ (State.rbEvent s a1).pst = s.pst ∧ (State.rbEvent s a1).fc = s.fc ∧ (State.rbEvent s a1).rt = s.rt ∧ (State.rbEvent s a1).lc = s.lc ∧ (State.rbEvent s a1).te = s.te ∧ (State.rbEvent s a1).ce = s.ce ∧ (State.rbEvent s a1).hp = s.hp ∧ (State.rbEvent s a1).tw = s.tw ∧ (State.rbEvent s a1).dc = s.dc ∧ (State.rbEvent s a1).md = s.md ∧ (State.rbEvent s a1).mcTry = s.mcTry ∧ (State.rbEvent s a1).sir = s.sir ∧ (State.rbEvent s a1).hk = s.hk ∧ (State.rbEvent s a1).arch = s.arch ∧ (State.rbEvent s a1).psq = s.psq ∧ (State.rbEvent s a1).boot = s.boot ∧ (State.rbEvent s a1).mq = s.mq := by
  have h := State.rbEvent_keeps (m := 67109384) (a1 := a1) rfl (Same.refl _ s)
  exact ⟨h.pending rfl, h.out rfl, h.freeCtr rfl, h.tick rfl, h.refclk rfl, h.dom rfl, h.opSecs rfl, h.pst rfl, h.fc rfl, h.rt rfl, h.lc rfl, h.te rfl, h.ce rfl, h.hp rfl, h.tw rfl, h.dc rfl, h.md rfl, h.mcTry rfl, h.sir rfl, h.hk rfl, h.arch rfl, h.psq rfl, h.boot rfl, h.mq rfl⟩

@[simp] theorem State.roll_fields (s : State) (a1 : Nat) (a2 : Nat) (a3 : Nat) (a4 : Nat) (a5 : Nat) (a6 : Nat) :
    (State.roll s a1 a2 a3 a4 a5 a6).pending = s.pending ∧ (State.roll s a1 a2 a3 a4 a5 a6).out = s.out ∧ (State.roll s a1 a2 a3 a4 a5 a6).freeCtr = s.freeCtr ∧ (State.roll s a1 a2 a3 a4 a5 a6).tick = s.tick ∧ (State.roll s a1 a2 a3 a4 a5 a6).refclk = s.refclk ∧ (State.roll s a1 a2 a3 a4 a5 a6).dom = s.dom ∧ (State.roll s a1 a2 a3 a4 a5 a6).opSecs = s.opSecs ∧ (State.roll s a1 a2 a3 a4 a5 a6).pst = s.pst ∧ (State.roll s a1 a2 a3 a4 a5 a6).fc = s.fc ∧ (State.roll s a1 a2 a3 a4 a5 a6).rt = s.rt ∧ (State.roll s a1 a2 a3 a4 a5 a6).lc = s.lc ∧ (State.roll s a1 a2 a3 a4 a5 a6).te = s.te ∧ (State.roll s a1 a2 a3 a4 a5 a6).ce = s.ce ∧ (State.roll s a1 a2 a3 a4 a5 a6).hp = s.hp ∧ (State.roll s a1 a2 a3 a4 a5 a6).tw = s.tw ∧ (State.roll s a1 a2 a3 a4 a5 a6).dc = s.dc ∧ (State.roll s a1 a2 a3 a4 a5 a6).md = s.md ∧ (State.roll s a1 a2 a3 a4 a5 a6).mcTry = s.mcTry ∧ (State.roll s a1 a2 a3 a4 a5 a6).sir = s.sir ∧ (State.roll s a1 a2 a3 a4 a5 a6).hk = s.hk ∧ (State.roll s a1 a2 a3 a4 a5 a6).arch = s.arch ∧ (State.roll s a1 a2 a3 a4 a5 a6).psq = s.psq ∧ (State.roll s a1 a2 a3 a4 a5 a6).boot = s.boot ∧ (State.roll s a1 a2 a3 a4 a5 a6).mq = s.mq := by
  have h := State.roll_keeps (m := 67109384) (a1 := a1) (a2 := a2) (a3 := a3) (a4 := a4) (a5 := a5) (a6 := a6) rfl (Same.refl _ s)
  exact ⟨h.pending rfl, h.out rfl, h.freeCtr rfl, h.tick rfl, h.refclk rfl, h.dom rfl, h.opSecs rfl, h.pst rfl, h.fc rfl, h.rt rfl, h.lc rfl, h.te rfl, h.ce rfl, h.hp rfl, h.tw rfl, h.dc rfl, h.md rfl, h.mcTry rfl, h.sir rfl, h.hk rfl, h.arch rfl, h.psq rfl, h.boot rfl, h.mq rfl⟩

@[simp] theorem State.rbEventSnap_fields (s : State) (a1 : RbEvent) (a2 : List RbEvent) :
    (State.rbEventSnap s a1 a2).pending = s.pending ∧ (State.rbEventSnap s a1 a2).out = s.out ∧ (State.rbEventSnap s a1 a2).freeCtr = s.freeCtr ∧ (State.rbEventSnap s a1 a2).tick = s.tick ∧ (State.rbEventSnap s a1 a2).refclk = s.refclk ∧ (State.rbEventSnap s a1 a2).dom = s.dom ∧ (State.rbEventSnap s a1 a2).opSecs = s.opSecs ∧ (State.rbEventSnap s a1 a2).pst = s.pst ∧ (State.rbEventSnap s a1 a2).fc = s.fc ∧ (State.rbEventSnap s a1 a2).rt = s.rt ∧ (State.rbEventSnap s a1 a2).lc = s.lc ∧ (State.rbEventSnap s a1 a2).te = s.te ∧ (State.rbEventSnap s a1 a2).ce = s.ce ∧ (State.rbEventSnap s a1 a2).hp = s.hp ∧ (State.rbEventSnap s a1 a2).tw = s.tw ∧ (State.rbEventSnap s a1 a2).dc = s.dc ∧ (State.rbEventSnap s a1 a2).md = s.md ∧ (State.rbEventSnap s a1 a2).mcTry = s.mcTry ∧ (State.rbEventSnap s a1 a2).sir = s.sir ∧ (State.rbEventSnap s a1 a2).hk = s.hk ∧ (State.rbEventSnap s a1 a2).arch = s.arch ∧ (State.rbEventSnap s a1 a2).psq = s.psq ∧ (State.rbEventSnap s a1 a2).boot = s.boot ∧ (State.rbEventSnap s a1 a2).mq = s.mq := by
  have h := State.rbEventSnap_keeps (m := 67109384) (a1 := a1) (a2 := a2) rfl (Same.refl _ s)
  exact ⟨h.pending rfl, h.out rfl, h.freeCtr rfl, h.tick rfl, h.refclk rfl, h.dom rfl, h.opSecs rfl, h.pst rfl, h.fc rfl, h.rt rfl, h.lc rfl, h.te rfl, h.ce rfl, h.hp rfl, h.tw rfl, h.dc rfl, h.md rfl, h.mcTry rfl, h.sir rfl, h.hk rfl, h.arch rfl, h.psq rfl, h.boot rfl, h.mq rfl⟩

@[simp] theorem State.fcMod_fields (s : State) (a1 : Nat) (a2 : FcSrc → FcSrc) :
    (State.fcMod s a1 a2).pending = s.pending ∧ (State.fcMod s a1 a2).out = s.out ∧ (State.fcMod s a1 a2).freeCtr = s.freeCtr ∧ (State.fcMod s a1 a2).regs = s.regs ∧ (State.fcMod s a1 a2).tick = s.tick ∧ (State.fcMod s a1 a2).refclk = s.refclk ∧ (State.fcMod s a1 a2).dom = s.dom ∧ (State.fcMod s a1 a2).opSecs = s.opSecs ∧ (State.fcMod s a1 a2).pst = s.pst ∧ (State.fcMod s a1 a2).rb = s.rb ∧ (State.fcMod s a1 a2).rt = s.rt ∧ (State.fcMod s a1 a2).lc = s.lc ∧ (State.fcMod s a1 a2).te = s.te ∧ (State.fcMod s a1 a2).ce = s.ce ∧ (State.fcMod s a1 a2).hp = s.hp ∧ (State.fcMod s a1 a2).tw = s.tw ∧ (State.fcMod s a1 a2).dc = s.dc ∧ (State.fcMod s a1 a2).md = s.md ∧ (State.fcMod s a1 a2).mcTry = s.mcTry ∧ (State.fcMod s a1 a2).sir = s.sir ∧ (State.fcMod s a1 a2).hk = s.hk ∧ (State.fcMod s a1 a2).arch = s.arch ∧ (State.fcMod s a1 a2).psq = s.psq ∧ (State.fcMod s a1 a2).boot = s.boot ∧ (State.fcMod s a1 a2).mq = s.mq ∧ (State.fcMod s a1 a2).tst = s.tst := by
  have h := State.fcMod_keeps (m := 1024) (a1 := a1) (a2 := a2) rfl (Same.refl _ s)
  exact ⟨h.pending rfl, h.out rfl, h.freeCtr rfl, h.regs rfl, h.tick rfl, h.refclk rfl, h.dom rfl, h.opSecs rfl, h.pst rfl, h.rb rfl, h.rt rfl, h.lc rfl, h.te rfl, h.ce rfl, h.hp rfl, h.tw rfl, h.dc rfl, h.md rfl, h.mcTry rfl, h.sir rfl, h.hk rfl, h.arch rfl, h.psq rfl, h.boot rfl, h.mq rfl, h.tst rfl⟩

@[simp] theorem State.unfence_fields (s : State) (a1 : Nat) :
    (State.unfence s a1).pending = s.pending ∧ (State.unfence s a1).out = s.out ∧ (State.unfence s a1).freeCtr = s.freeCtr ∧ (State.unfence s a1).regs = s.regs ∧ (State.unfence s a1).tick = s.tick ∧ (State.unfence s a1).refclk = s.refclk ∧ (State.unfence s a1).dom = s.dom ∧ (State.unfence s a1).opSecs = s.opSecs ∧ (State.unfence s a1).pst = s.pst ∧ (State.unfence s a1).rb = s.rb ∧ (State.unfence s a1).rt = s.rt ∧ (State.unfence s a1).lc = s.lc ∧ (State.unfence s a1).te = s.te ∧ (State.unfence s a1).ce = s.ce ∧ (State.unfence s a1).hp = s.hp ∧ (State.unfence s a1).tw = s.tw ∧ (State.unfence s a1).dc = s.dc ∧ (State.unfence s a1).md = s.md ∧ (State.unfence s a1).mcTry = s.mcTry ∧ (State.unfence s a1).sir = s.sir ∧ (State.unfence s a1).hk = s.hk ∧ (State.unfence s a1).arch = s.arch ∧ (State.unfence s a1).psq = s.psq ∧ (State.unfence s a1).boot = s.boot ∧ (State.unfence s a1).mq = s.mq ∧ (State.unfence s a1).tst = s.tst := by
  have h := State.unfence_keeps (m := 1024) (a1 := a1) rfl (Same.refl _ s)
  exact ⟨h.pending rfl, h.out rfl, h.freeCtr rfl, h.regs rfl, h.tick rfl, h.refclk rfl, h.dom rfl, h.opSecs rfl, h.pst rfl, h.rb rfl, h.rt rfl, h.lc rfl, h.te rfl, h.ce rfl, h.hp rfl, h.tw rfl, h.dc rfl, h.md rfl, h.mcTry rfl, h.sir rfl, h.hk rfl, h.arch rfl, h.psq rfl, h.boot rfl, h.mq rfl, h.tst rfl⟩

@[simp] theorem State.fltSts_fields (s : State) (a1 : Flt) :
    (State.fltSts s a1).pending = s.pending ∧ (State.fltSts s a1).out = s.out ∧ (State.fltSts s a1).freeCtr = s.freeCtr ∧ (State.fltSts s a1).tick = s.tick ∧ (State.fltSts s a1).refclk = s.refclk ∧ (State.fltSts s a1).dom = s.dom ∧ (State.fltSts s a1).opSecs = s.opSecs ∧ (State.fltSts s a1).pst = s.pst ∧ (State.fltSts s a1).rb = s.rb ∧ (State.fltSts s a1).fc = s.fc ∧ (State.fltSts s a1).rt = s.rt ∧ (State.fltSts s a1).lc = s.lc ∧ (State.fltSts s a1).te = s.te ∧ (State.fltSts s a1).ce = s.ce ∧ (State.fltSts s a1).hp = s.hp ∧ (State.fltSts s a1).tw = s.tw ∧ (State.fltSts s a1).dc = s.dc ∧ (State.fltSts s a1).md = s.md ∧ (State.fltSts s a1).mcTry = s.mcTry ∧ (State.fltSts s a1).sir = s.sir ∧ (State.fltSts s a1).hk = s.hk ∧ (State.fltSts s a1).arch = s.arch ∧ (State.fltSts s a1).psq = s.psq ∧ (State.fltSts s a1).boot = s.boot ∧ (State.fltSts s a1).mq = s.mq ∧ (State.fltSts s a1).tst = s.tst := by
  have h := State.fltSts_keeps (m := 8) (a1 := a1) rfl (Same.refl _ s)
  exact ⟨h.pending rfl, h.out rfl, h.freeCtr rfl, h.tick rfl, h.refclk rfl, h.dom rfl, h.opSecs rfl, h.pst rfl, h.rb rfl, h.fc rfl, h.rt rfl, h.lc rfl, h.te rfl, h.ce rfl, h.hp rfl, h.tw rfl, h.dc rfl, h.md rfl, h.mcTry rfl, h.sir rfl, h.hk rfl, h.arch rfl, h.psq rfl, h.boot rfl, h.mq rfl, h.tst rfl⟩

@[simp] theorem State.alertShow_fields (s : State) :
    (State.alertShow s).pending = s.pending ∧ (State.alertShow s).freeCtr = s.freeCtr ∧ (State.alertShow s).tick = s.tick ∧ (State.alertShow s).refclk = s.refclk ∧ (State.alertShow s).dom = s.dom ∧ (State.alertShow s).opSecs = s.opSecs ∧ (State.alertShow s).pst = s.pst ∧ (State.alertShow s).rb = s.rb ∧ (State.alertShow s).fc = s.fc ∧ (State.alertShow s).rt = s.rt ∧ (State.alertShow s).lc = s.lc ∧ (State.alertShow s).te = s.te ∧ (State.alertShow s).ce = s.ce ∧ (State.alertShow s).hp = s.hp ∧ (State.alertShow s).tw = s.tw ∧ (State.alertShow s).dc = s.dc ∧ (State.alertShow s).md = s.md ∧ (State.alertShow s).mcTry = s.mcTry ∧ (State.alertShow s).sir = s.sir ∧ (State.alertShow s).hk = s.hk ∧ (State.alertShow s).arch = s.arch ∧ (State.alertShow s).psq = s.psq ∧ (State.alertShow s).mq = s.mq := by
  have h := State.alertShow_keeps (m := 83886090)  rfl (Same.refl _ s)
  exact ⟨h.pending rfl, h.freeCtr rfl, h.tick rfl, h.refclk rfl, h.dom rfl, h.opSecs rfl, h.pst rfl, h.rb rfl, h.fc rfl, h.rt rfl, h.lc rfl, h.te rfl, h.ce rfl, h.hp rfl, h.tw rfl, h.dc rfl, h.md rfl, h.mcTry rfl, h.sir rfl, h.hk rfl, h.arch rfl, h.psq rfl, h.mq rfl⟩

@[simp] theorem State.fltTake_fields (s : State) (a1 : Flt) (a2 : Nat) :
    (State.fltTake s a1 a2).pending = s.pending ∧ (State.fltTake s a1 a2).freeCtr = s.freeCtr ∧ (State.fltTake s a1 a2).tick = s.tick ∧ (State.fltTake s a1 a2).refclk = s.refclk ∧ (State.fltTake s a1 a2).dom = s.dom ∧ (State.fltTake s a1 a2).opSecs = s.opSecs ∧ (State.fltTake s a1 a2).pst = s.pst ∧ (State.fltTake s a1 a2).rt = s.rt ∧ (State.fltTake s a1 a2).lc = s.lc ∧ (State.fltTake s a1 a2).te = s.te ∧ (State.fltTake s a1 a2).ce = s.ce ∧ (State.fltTake s a1 a2).hp = s.hp ∧ (State.fltTake s a1 a2).tw = s.tw ∧ (State.fltTake s a1 a2).dc = s.dc ∧ (State.fltTake s a1 a2).md = s.md ∧ (State.fltTake s a1 a2).mcTry = s.mcTry ∧ (State.fltTake s a1 a2).sir = s.sir ∧ (State.fltTake s a1 a2).hk = s.hk ∧ (State.fltTake s a1 a2).arch = s.arch ∧ (State.fltTake s a1 a2).psq = s.psq ∧ (State.fltTake s a1 a2).mq = s.mq := by
  have h := State.fltTake_keeps (m := 83887626) (a1 := a1) (a2 := a2) rfl (Same.refl _ s)
  exact ⟨h.pending rfl, h.freeCtr rfl, h.tick rfl, h.refclk rfl, h.dom rfl, h.opSecs rfl, h.pst rfl, h.rt rfl, h.lc rfl, h.te rfl, h.ce rfl, h.hp rfl, h.tw rfl, h.dc rfl, h.md rfl, h.mcTry rfl, h.sir rfl, h.hk rfl, h.arch rfl, h.psq rfl, h.mq rfl⟩

@[simp] theorem State.raiseWindow_fields (s : State) (a1 : List Flt) :
    (State.raiseWindow s a1).pending = s.pending ∧ (State.raiseWindow s a1).freeCtr = s.freeCtr ∧ (State.raiseWindow s a1).tick = s.tick ∧ (State.raiseWindow s a1).refclk = s.refclk ∧ (State.raiseWindow s a1).dom = s.dom ∧ (State.raiseWindow s a1).opSecs = s.opSecs ∧ (State.raiseWindow s a1).pst = s.pst ∧ (State.raiseWindow s a1).rt = s.rt ∧ (State.raiseWindow s a1).lc = s.lc ∧ (State.raiseWindow s a1).te = s.te ∧ (State.raiseWindow s a1).ce = s.ce ∧ (State.raiseWindow s a1).hp = s.hp ∧ (State.raiseWindow s a1).tw = s.tw ∧ (State.raiseWindow s a1).dc = s.dc ∧ (State.raiseWindow s a1).md = s.md ∧ (State.raiseWindow s a1).mcTry = s.mcTry ∧ (State.raiseWindow s a1).sir = s.sir ∧ (State.raiseWindow s a1).hk = s.hk ∧ (State.raiseWindow s a1).arch = s.arch ∧ (State.raiseWindow s a1).psq = s.psq ∧ (State.raiseWindow s a1).mq = s.mq := by
  have h := State.raiseWindow_keeps (m := 83887626) (a1 := a1) rfl (Same.refl _ s)
  exact ⟨h.pending rfl, h.freeCtr rfl, h.tick rfl, h.refclk rfl, h.dom rfl, h.opSecs rfl, h.pst rfl, h.rt rfl, h.lc rfl, h.te rfl, h.ce rfl, h.hp rfl, h.tw rfl, h.dc rfl, h.md rfl, h.mcTry rfl, h.sir rfl, h.hk rfl, h.arch rfl, h.psq rfl, h.mq rfl⟩

@[simp] theorem State.raise_fields (s : State) (a1 : Nat) (a2 : Nat) (a3 : Nat) :
    (State.raise s a1 a2 a3).pending = s.pending ∧ (State.raise s a1 a2 a3).tick = s.tick ∧ (State.raise s a1 a2 a3).refclk = s.refclk ∧ (State.raise s a1 a2 a3).dom = s.dom ∧ (State.raise s a1 a2 a3).opSecs = s.opSecs ∧ (State.raise s a1 a2 a3).pst = s.pst ∧ (State.raise s a1 a2 a3).rt = s.rt ∧ (State.raise s a1 a2 a3).lc = s.lc ∧ (State.raise s a1 a2 a3).te = s.te ∧ (State.raise s a1 a2 a3).ce = s.ce ∧ (State.raise s a1 a2 a3).hp = s.hp ∧ (State.raise s a1 a2 a3).tw = s.tw ∧ (State.raise s a1 a2 a3).dc = s.dc ∧ (State.raise s a1 a2 a3).md = s.md ∧ (State.raise s a1 a2 a3).mcTry = s.mcTry ∧ (State.raise s a1 a2 a3).sir = s.sir ∧ (State.raise s a1 a2 a3).hk = s.hk ∧ (State.raise s a1 a2 a3).arch = s.arch ∧ (State.raise s a1 a2 a3).psq = s.psq ∧ (State.raise s a1 a2 a3).mq = s.mq := by
  have h := State.raise_keeps (m := 83887630) (a1 := a1) (a2 := a2) (a3 := a3) rfl (Same.refl _ s)
  exact ⟨h.pending rfl, h.tick rfl, h.refclk rfl, h.dom rfl, h.opSecs rfl, h.pst rfl, h.rt rfl, h.lc rfl, h.te rfl, h.ce rfl, h.hp rfl, h.tw rfl, h.dc rfl, h.md rfl, h.mcTry rfl, h.sir rfl, h.hk rfl, h.arch rfl, h.psq rfl, h.mq rfl⟩

@[simp] theorem State.pstAdd_fields (s : State) (a1 : PstJob) :
    (State.pstAdd s a1).pending = s.pending ∧ (State.pstAdd s a1).freeCtr = s.freeCtr ∧ (State.pstAdd s a1).tick = s.tick ∧ (State.pstAdd s a1).refclk = s.refclk ∧ (State.pstAdd s a1).dom = s.dom ∧ (State.pstAdd s a1).opSecs = s.opSecs ∧ (State.pstAdd s a1).rb = s.rb ∧ (State.pstAdd s a1).fc = s.fc ∧ (State.pstAdd s a1).rt = s.rt ∧ (State.pstAdd s a1).lc = s.lc ∧ (State.pstAdd s a1).te = s.te ∧ (State.pstAdd s a1).ce = s.ce ∧ (State.pstAdd s a1).hp = s.hp ∧ (State.pstAdd s a1).tw = s.tw ∧ (State.pstAdd s a1).dc = s.dc ∧ (State.pstAdd s a1).md = s.md ∧ (State.pstAdd s a1).mcTry = s.mcTry ∧ (State.pstAdd s a1).sir = s.sir ∧ (State.pstAdd s a1).hk = s.hk ∧ (State.pstAdd s a1).arch = s.arch ∧ (State.pstAdd s a1).psq = s.psq ∧ (State.pstAdd s a1).boot = s.boot ∧ (State.pstAdd s a1).mq = s.mq := by
  have h := State.pstAdd_keeps (m := 4362076426) (a1 := a1) rfl (Same.refl _ s)
  exact ⟨h.pending rfl, h.freeCtr rfl, h.tick rfl, h.refclk rfl, h.dom rfl, h.opSecs rfl, h.rb rfl, h.fc rfl, h.rt rfl, h.lc rfl, h.te rfl, h.ce rfl, h.hp rfl, h.tw rfl, h.dc rfl, h.md rfl, h.mcTry rfl, h.sir rfl, h.hk rfl, h.arch rfl, h.psq rfl, h.boot rfl, h.mq rfl⟩

@[simp] theorem State.pstNext_fields (s : State) :
    (State.pstNext s).pending = s.pending ∧ (State.pstNext s).freeCtr = s.freeCtr ∧ (State.pstNext s).tick = s.tick ∧ (State.pstNext s).refclk = s.refclk ∧ (State.pstNext s).dom = s.dom ∧ (State.pstNext s).opSecs = s.opSecs ∧ (State.pstNext s).rb = s.rb ∧ (State.pstNext s).fc = s.fc ∧ (State.pstNext s).rt = s.rt ∧ (State.pstNext s).lc = s.lc ∧ (State.pstNext s).te = s.te ∧ (State.pstNext s).ce = s.ce ∧ (State.pstNext s).hp = s.hp ∧ (State.pstNext s).tw = s.tw ∧ (State.pstNext s).dc = s.dc ∧ (State.pstNext s).md = s.md ∧ (State.pstNext s).mcTry = s.mcTry ∧ (State.pstNext s).sir = s.sir ∧ (State.pstNext s).hk = s.hk ∧ (State.pstNext s).arch = s.arch ∧ (State.pstNext s).psq = s.psq ∧ (State.pstNext s).boot = s.boot ∧ (State.pstNext s).mq = s.mq := by
  have h := State.pstNext_keeps (m := 4362076426)  rfl (Same.refl _ s)
  exact ⟨h.pending rfl, h.freeCtr rfl, h.tick rfl, h.refclk rfl, h.dom rfl, h.opSecs rfl, h.rb rfl, h.fc rfl, h.rt rfl, h.lc rfl, h.te rfl, h.ce rfl, h.hp rfl, h.tw rfl, h.dc rfl, h.md rfl, h.mcTry rfl, h.sir rfl, h.hk rfl, h.arch rfl, h.psq rfl, h.boot rfl, h.mq rfl⟩

@[simp] theorem State.applyLevel_fields (s : State) :
    (State.applyLevel s).pending = s.pending ∧ (State.applyLevel s).freeCtr = s.freeCtr ∧ (State.applyLevel s).tick = s.tick ∧ (State.applyLevel s).refclk = s.refclk ∧ (State.applyLevel s).dom = s.dom ∧ (State.applyLevel s).opSecs = s.opSecs ∧ (State.applyLevel s).pst = s.pst ∧ (State.applyLevel s).rb = s.rb ∧ (State.applyLevel s).fc = s.fc ∧ (State.applyLevel s).rt = s.rt ∧ (State.applyLevel s).lc = s.lc ∧ (State.applyLevel s).te = s.te ∧ (State.applyLevel s).ce = s.ce ∧ (State.applyLevel s).hp = s.hp ∧ (State.applyLevel s).dc = s.dc ∧ (State.applyLevel s).md = s.md ∧ (State.applyLevel s).mcTry = s.mcTry ∧ (State.applyLevel s).sir = s.sir ∧ (State.applyLevel s).hk = s.hk ∧ (State.applyLevel s).arch = s.arch ∧ (State.applyLevel s).psq = s.psq ∧ (State.applyLevel s).boot = s.boot ∧ (State.applyLevel s).mq = s.mq := by
  have h := State.applyLevel_keeps (m := 8796160196618)  rfl (Same.refl _ s)
  exact ⟨h.pending rfl, h.freeCtr rfl, h.tick rfl, h.refclk rfl, h.dom rfl, h.opSecs rfl, h.pst rfl, h.rb rfl, h.fc rfl, h.rt rfl, h.lc rfl, h.te rfl, h.ce rfl, h.hp rfl, h.dc rfl, h.md rfl, h.mcTry rfl, h.sir rfl, h.hk rfl, h.arch rfl, h.psq rfl, h.boot rfl, h.mq rfl⟩

@[simp] theorem State.vcoreWrite_fields (s : State) (a1 : Nat) :
    (State.vcoreWrite s a1).pending = s.pending ∧ (State.vcoreWrite s a1).freeCtr = s.freeCtr ∧ (State.vcoreWrite s a1).tick = s.tick ∧ (State.vcoreWrite s a1).refclk = s.refclk ∧ (State.vcoreWrite s a1).dom = s.dom ∧ (State.vcoreWrite s a1).opSecs = s.opSecs ∧ (State.vcoreWrite s a1).pst = s.pst ∧ (State.vcoreWrite s a1).rb = s.rb ∧ (State.vcoreWrite s a1).fc = s.fc ∧ (State.vcoreWrite s a1).rt = s.rt ∧ (State.vcoreWrite s a1).lc = s.lc ∧ (State.vcoreWrite s a1).te = s.te ∧ (State.vcoreWrite s a1).ce = s.ce ∧ (State.vcoreWrite s a1).hp = s.hp ∧ (State.vcoreWrite s a1).tw = s.tw ∧ (State.vcoreWrite s a1).dc = s.dc ∧ (State.vcoreWrite s a1).md = s.md ∧ (State.vcoreWrite s a1).mcTry = s.mcTry ∧ (State.vcoreWrite s a1).sir = s.sir ∧ (State.vcoreWrite s a1).hk = s.hk ∧ (State.vcoreWrite s a1).psq = s.psq ∧ (State.vcoreWrite s a1).boot = s.boot ∧ (State.vcoreWrite s a1).mq = s.mq := by
  have h := State.vcoreWrite_keeps (m := 1145045002) (a1 := a1) rfl (Same.refl _ s)
  exact ⟨h.pending rfl, h.freeCtr rfl, h.tick rfl, h.refclk rfl, h.dom rfl, h.opSecs rfl, h.pst rfl, h.rb rfl, h.fc rfl, h.rt rfl, h.lc rfl, h.te rfl, h.ce rfl, h.hp rfl, h.tw rfl, h.dc rfl, h.md rfl, h.mcTry rfl, h.sir rfl, h.hk rfl, h.psq rfl, h.boot rfl, h.mq rfl⟩

@[simp] theorem State.mbox_fields (s : State) (a1 : Nat) (a2 : Rc) (a3 : Nat) (a4 : List Nat) :
    (State.mbox s a1 a2 a3 a4).pending = s.pending ∧ (State.mbox s a1 a2 a3 a4).freeCtr = s.freeCtr ∧ (State.mbox s a1 a2 a3 a4).tick = s.tick ∧ (State.mbox s a1 a2 a3 a4).refclk = s.refclk ∧ (State.mbox s a1 a2 a3 a4).dom = s.dom ∧ (State.mbox s a1 a2 a3 a4).opSecs = s.opSecs ∧ (State.mbox s a1 a2 a3 a4).pst = s.pst ∧ (State.mbox s a1 a2 a3 a4).rb = s.rb ∧ (State.mbox s a1 a2 a3 a4).fc = s.fc ∧ (State.mbox s a1 a2 a3 a4).rt = s.rt ∧ (State.mbox s a1 a2 a3 a4).lc = s.lc ∧ (State.mbox s a1 a2 a3 a4).te = s.te ∧ (State.mbox s a1 a2 a3 a4).ce = s.ce ∧ (State.mbox s a1 a2 a3 a4).hp = s.hp ∧ (State.mbox s a1 a2 a3 a4).tw = s.tw ∧ (State.mbox s a1 a2 a3 a4).dc = s.dc ∧ (State.mbox s a1 a2 a3 a4).md = s.md ∧ (State.mbox s a1 a2 a3 a4).mcTry = s.mcTry ∧ (State.mbox s a1 a2 a3 a4).sir = s.sir ∧ (State.mbox s a1 a2 a3 a4).hk = s.hk ∧ (State.mbox s a1 a2 a3 a4).arch = s.arch ∧ (State.mbox s a1 a2 a3 a4).psq = s.psq ∧ (State.mbox s a1 a2 a3 a4).boot = s.boot := by
  have h := State.mbox_keeps (m := 1099612291082) (a1 := a1) (a2 := a2) (a3 := a3) (a4 := a4) rfl (Same.refl _ s)
  exact ⟨h.pending rfl, h.freeCtr rfl, h.tick rfl, h.refclk rfl, h.dom rfl, h.opSecs rfl, h.pst rfl, h.rb rfl, h.fc rfl, h.rt rfl, h.lc rfl, h.te rfl, h.ce rfl, h.hp rfl, h.tw rfl, h.dc rfl, h.md rfl, h.mcTry rfl, h.sir rfl, h.hk rfl, h.arch rfl, h.psq rfl, h.boot rfl⟩

end Sys2Proof.Machine
end

