-- ==== Sys2Proof/Laws/Xts.lean ====
section
/-! SUPPORT. Laws of the key slots and of XTS: what is encrypted decrypts at its own place, and a use of a key leaves the key. -/

set_option autoImplicit false

namespace Sys2Proof.Machine

/-- Exchanging two blocks twice leaves a block as it was. -/
@[simp] theorem exchange_exchange (p : BitVec 128 × BitVec 128) (x : BitVec 128) : exchange p (exchange p x) = x := by
  unfold exchange
  split
  · next h => by_cases h2 : p.2 = p.1 <;> simp_all
  · split <;> simp_all

/-- A product of exchanges undone in reverse. -/
theorem foldr_foldl_exchange (l : List (BitVec 128 × BitVec 128)) (x : BitVec 128) :
    l.foldr exchange (l.foldl (fun y p => exchange p y) x) = x := by
  induction l generalizing x with
  | nil => rfl
  | cons p l ih => simp [ih]

/-- AES-256 decrypts what it encrypts. -/
@[simp] theorem aesDec_aesEnc (key : Nat) (x : BitVec 128) : aesDec key (aesEnc key x) = x := foldr_foldl_exchange _ x

/-- The blocks of a line made of four blocks. -/
theorem lineBlock_lineOf (b : Nat → BitVec 128) (j : Nat) (h : j < 4) : lineBlock (lineOf b) j = b j := by
  apply BitVec.eq_of_getLsbD_eq
  intro i hi
  have hj : j = 0 ∨ j = 1 ∨ j = 2 ∨ j = 3 := by omega
  simp only [lineOf, lineBlock, BitVec.getLsbD_append, BitVec.getLsbD_extractLsb', hi]
  rcases hj with rfl | rfl | rfl | rfl
  all_goals repeat' split
  all_goals first | omega | simp

/-- A line is made of its four blocks. -/
theorem lineOf_lineBlock (d : Line) : lineOf (lineBlock d) = d := by
  apply BitVec.eq_of_getLsbD_eq
  intro i hi
  simp only [lineOf, lineBlock, BitVec.getLsbD_append, BitVec.getLsbD_extractLsb']
  repeat' split
  all_goals simp_all
  all_goals omega

/-- What is encrypted in XTS decrypts at the same place under the same pair (R311, R312). -/
@[simp] theorem xtsOpen_xtsSeal (k1 k2 unit : Nat) (d : Line) : xtsOpen k1 k2 unit (xtsSeal k1 k2 unit d) = d := by
  unfold xtsOpen
  conv => rhs; rw [← lineOf_lineBlock d]
  have h : ∀ j, j < 4 → aesDec k1 (lineBlock (xtsSeal k1 k2 unit d) j ^^^ xtsTweak k2 unit j) ^^^ xtsTweak k2 unit j = lineBlock d j := by
    intro j hj
    rw [xtsSeal, lineBlock_lineOf _ j hj]
    simp
  simp [lineOf, h]

/-- A re-randomisation leaves the key (R313). -/
@[simp] theorem KeySlot.key_remask (k : KeySlot) (m : BitVec 256) (mh : BitVec 128) : (k.remask m mh).key = k.key := by
  unfold KeySlot.remask KeySlot.key
  congr 1
  ext i hi
  simp only [BitVec.getElem_xor]
  cases m[i] <;> simp

/-- A re-randomisation leaves the hash subkey. -/
@[simp] theorem KeySlot.h_remask (k : KeySlot) (m : BitVec 256) (mh : BitVec 128) : (k.remask m mh).h = k.h := by
  unfold KeySlot.remask KeySlot.h
  ext i hi
  simp only [BitVec.getElem_xor]
  cases mh[i] <;> simp

/-- A slot holds the key that it took (R298). -/
@[simp] theorem KeySlot.key_load (k : KeySlot) (key : Nat) (m : BitVec 256) (mh : BitVec 128) : (k.load key m mh).key = key % 2 ^ 256 := by
  unfold KeySlot.load KeySlot.key
  simp

end Sys2Proof.Machine
end

