-- ==== Sys2Proof/WellFormed.lean ====
section
/-! DEFINITION. When a command's operands are what a sender can bring (notes/assumptions/1): lists of the length that the packet,
the page or the mailbox payload has, ranges inside the address space. The bounds that a type already states are not repeated. -/

set_option autoImplicit false

namespace Sys2Proof

/-- Tiles of the address space (R50). -/
def tileSpace : Nat := 2 ^ 32

/-- Lines of the address space (R50). -/
def lineSpace : Nat := 2 ^ 38

/-- A range lies in a space. -/
def rangeIn (space first count : Nat) : Bool := decide (first + count ≤ space)

/-- A resync chunk carries the 64 lines of its tile, or none when ZERO is set (Table 11.4). -/
def chunkOk (zero : Bool) (data : List Line) : Bool := if zero then data.isEmpty else data.length == 64

/-- The operands that an area of the DRAM scrub names exist (Table 13.2). -/
def DramArea.wf : DramArea → Bool
  | .slotLine slot _ => slot != 0
  | _ => true

/-- A mailbox command's arguments fit their payload (Table 12.6, Table 12.7). -/
def MboxOp.wf : MboxOp → Bool
  | .poisonList f c => rangeIn lineSpace f.toNat c.toNat
  | .scanCaps f c => rangeIn lineSpace f.toNat c.toNat
  | .scan f c bad => rangeIn lineSpace f.toNat c.toNat && bad.all (fun b => decide (f.toNat ≤ b.toNat) && decide (b.toNat < f.toNat + c.toNat))
  | .discard f c => rangeIn tileSpace f.toNat c.toNat
  | .range _ _ f c => rangeIn lineSpace f.toNat c.toNat
  | .streamOpen _ _ _ _ f c => rangeIn lineSpace f.toNat c.toNat
  | .paramRead a n => rangeIn (2 ^ 17) a.toNat n.val
  | .paramWrite a ws => rangeIn (2 ^ 17) a.toNat ws.length && decide (ws.length ≤ 2048)
  | _ => true

/-- A command is well formed. -/
def Instr.wf : Instr → Bool
  | .retiredDieTileWork _ twin => twin.all (fun l => l.length == 64)
  | .readReferenceTracking _ scores => scores.all (fun x => x.2.2.length == 6)
  | .ageSweep _ _ bits => bits.length == 6
  | .rsChunk _ _ zero _ _ _ data => chunkOk zero data
  | .faultRaise fs => !fs.isEmpty
  | .dramScrubWord _ _ area _ => area.wf
  | .getPoisonList _ f c => rangeIn lineSpace f.toNat c.toNat
  | .getScanMediaCapabilities _ f c => rangeIn lineSpace f.toNat c.toNat
  | .scanMedia _ f c bad =>
    rangeIn lineSpace f.toNat c.toNat && bad.all (fun b => decide (f.toNat ≤ b.toNat) && decide (b.toNat < f.toNat + c.toNat))
  | .discard _ f c => rangeIn tileSpace f.toNat c.toNat
  | .streamOpen _ _ _ _ _ f c => rangeIn lineSpace f.toNat c.toNat
  | .parameterRead _ a n => rangeIn (2 ^ 17) a.toNat n.val
  | .parameterWrite _ a ws => rangeIn (2 ^ 17) a.toNat ws.length && decide (ws.length ≤ 2048)
  | .mqCommand _ op => op.all MboxOp.wf
  | .patternSyncLoss _ bits errs => decide (256 ≤ errs) && decide (errs ≤ bits) && decide (bits ≤ 4096)
  | .hdmDecoderCommit _ _ _ _ ways _ _ _ => decide (0 < ways)
  | _ => true

end Sys2Proof
end

