-- ==== Sys2Proof/Tests/Slice0.lean ====
section
/-! SUPPORT. The author's tests: a smoke test of the well-formedness checks, a few single steps with results from the spec, and for
every statement that has hypotheses a theorem that shows states and operands which meet them, clause by clause. -/

set_option autoImplicit false

open Sys2Proof Sys2Proof.Machine

namespace Sys2Proof.Tests

set_option Elab.async false

/-- The state of these tests: every domain in service, the manager on port 0 with its link up, region 0 enabled over the first
lines, caches and services on; then the given fields. -/
def w (l : List (Fld × Nat)) : State :=
  ([(F.HP_STS.ROLE 0, 2), (F.HP_STS.LINK_UP 0, 1), (F.HP_STS.MEM_ON 0, 1), (F.HP_STS.PRESENT 0, 1), (F.LC_CTL.EN, 1),
    (F.TE_STS.MAP_READY, 1), (F.PSQ_STS.PHASE, 2), (F.PSQ_STS.IN_GOOD, 1), (F.PSQ_STS.RAILS_UP, 1), (F.BOOT_STS.PHASE, 7),
    (F.TS_STS.BUDGET_VALID, 1), (F.FC_STS.HEALTHY, 15), (F.RT_RG_CTL.EN 0, 1), (⟨R.RT_RG_SIZE 0, 0, 32⟩, 1),
    (F.CE_STS.DRBG_OK, 1), (F.SIR_CTL.SCRUB_EN, 1), (F.SIR_CTL.SRAM_EN, 1), (F.SIR_CTL.TRACK_EN, 1), (F.RB_STS.READY, 1),
    (⟨R.TE_SEQ_HW_LO, 0, 32⟩, 0xFFFFFFFF), (⟨R.TS_SLOT_CNT, 0, 32⟩, 4096)] ++ l).foldl (fun (s : State) (x : Fld × Nat) => s.set x.1 x.2)
    { State.reset with
      dom := ⟨true, true, true, true⟩, rt.reqCred := List.replicate 8 1, rt.rwdCred := List.replicate 8 1 }

/-! ### Well-formedness: an ill-formed command for each check -/

theorem wf_refuses :
    [Instr.retiredDieTileWork 0 (some []), .readReferenceTracking 0 [(0, 0, [])], .ageSweep 0 0 [], .rsChunk 0 0 true false 0 0 [0],
      .rsChunk 0 0 false false 0 0 [], .faultRaise [], .dramScrubWord 0 .ok (.slotLine 0 0) false,
      .getPoisonList 0 0x3FFFFFFFFF 2, .getScanMediaCapabilities 0 0x3FFFFFFFFF 2, .scanMedia 0 0x3FFFFFFFFF 2 [], .scanMedia 0 0 1 [1],
      .discard 0 0xFFFFFFFF 2, .streamOpen 0 0 false 0 0 0x3FFFFFFFFF 2, .parameterRead 0 0x1FFFF 2, .parameterWrite 0 0x1FFFF [0, 0],
      .parameterWrite 0 0 (List.replicate 2049 0), .mqCommand 0 (some (.poisonList 0x3FFFFFFFFF 2)),
      .mqCommand 0 (some (.scanCaps 0x3FFFFFFFFF 2)), .mqCommand 0 (some (.scan 0x3FFFFFFFFF 2 [])), .mqCommand 0 (some (.scan 0 1 [1])),
      .mqCommand 0 (some (.discard 0xFFFFFFFF 2)), .mqCommand 0 (some (.range 0 false 0x3FFFFFFFFF 2)),
      .mqCommand 0 (some (.streamOpen 0 false 0 0 0x3FFFFFFFFF 2)), .mqCommand 0 (some (.paramRead 0x1FFFF 2)),
      .mqCommand 0 (some (.paramWrite 0x1FFFF [0, 0])), .patternSyncLoss 0 4096 255, .patternSyncLoss 0 256 257, .patternSyncLoss 0 4097 256,
      .hdmDecoderCommit 0 0 0 0 0 256 0 false].all (fun c => !c.wf) = true := by decide +kernel

theorem wf_accepts :
    [Instr.faultRaise [⟨0, 0, 0, 0, false⟩], .rsChunk 0 0 true false 0 0 [], .discard 0 0xFFFFFFFF 1, .parameterRead 0 0x1FFFF 1,
      .patternSyncLoss 0 256 256, .refclkReturn].all (fun c => c.wf) = true := by decide +kernel

/-! ### Single steps -/

/-- No row of the table gives bits, so no word spells a command. -/
theorem test_no_word_spells_a_command : decodeTableWord 32 0 = none ∧ (w []).withFetchWord 32 0 = w [] := ⟨rfl, rfl⟩

/-- The oldest waiting command goes first, and the next one waits on. -/
theorem test_step_takes_the_front :
    (match step { State.reset with pending := [.refclkAbsent, .refclkReturn] } with
      | .next t => t.refclk == false && t.pending == [.refclkReturn]
      | _ => false) = true := by decide +kernel

/-- Without REFCLK the counter keeps its value (R47). -/
theorem test_no_tick_without_refclk : step { State.reset with refclk := false } = .next { State.reset with refclk := false } := rfl

/-- The check value of CRC-32C over the digits 1 to 9 (R476 names the code). -/
theorem test_crc32c : crc32c [49, 50, 51, 52, 53, 54, 55, 56, 57] = 0xE3069283 := by decide +kernel

/-- A register write by a port that is not the manager changes nothing it names (R12, R13). -/
theorem test_write_needs_the_manager :
    (match exec (.registerWrite (.port 1) 0xB048 1 15) (w []) with | .next t => t.rd 0xB048 == (w []).rd 0xB048 | _ => false) = true := by
  decide +kernel

/-- A write stores the RW bits alone (R12): register 0xB048 has 11 of them. -/
theorem test_write_stores_rw_bits :
    (match exec (.registerWrite (.port 0) 0xB048 0xFFFFFFFF 15) (w []) with | .next t => t.rd 0xB048 == 0x7FF | _ => false) = true := by
  decide +kernel

/-- LC_CTL.EN 0 leaves the lines where they are and says so (R151). -/
theorem test_cache_off_keeps_lines :
    (match exec (.lcEnClear (.port 0)) { w [] with lc.ways := [(0, { Way.none with v := true, tag := 0, d := true, data := 7 })] } with
      | .next t => t.lc.ways.length == 1 && t.bit F.LC_STS.STALE_HELD
      | _ => false) = true := by decide +kernel

/-- A die held in RESET takes no command but reset (Table 8.7): its state stays. -/
theorem test_die_in_reset : (match exec (.suspend 0 0) (w []) with | .next t => (t.mdie 0).st == Ds.reset | _ => false) = true := by
  decide +kernel

/-- A boundary-scan or other event that is not due leaves the state as it is: the guard level stays below 1024 clean windows. -/
theorem test_guard_level_not_due :
    (match exec .guardLevelReturn { w [(F.RT_STS.GUARD_LVL, 1)] with arch.retCnt := 1023 } with
      | .next t => t.get F.RT_STS.GUARD_LVL == 1
      | _ => false) = true := by decide +kernel

/-! ### Witnesses of the statements' hypotheses -/

/-- A die whose one open program is ready for its next page. -/
def wProg : State :=
  { w [] with te.fmt := [0], te.progs := [⟨0, .host, 0, [], 0, .ready, false, [], 0, 0, [], some 0⟩] }

/-- `wProg` after the choice of its page, then of its stripe. -/
def wPage : State := ((wProg.nextPage 0 1 0).getD (0, 0, wProg)).2.2

def wStripe : State := ((wPage.stripeFor 0).getD (none, wPage)).2

theorem wDie : wProg.progDie ⟨0, .host, 0, [], 0, .ready, false, [], 0, 0, [], some 0⟩ = 0 := by decide +kernel

theorem wPage_eq : wProg.nextPage 0 1 0 = some (((wProg.nextPage 0 1 0).getD (0, 0, wProg)).1, ((wProg.nextPage 0 1 0).getD (0, 0, wProg)).2.1, wPage) := by
  have h : (wProg.nextPage 0 1 0).isSome = true := by decide +kernel
  cases e : wProg.nextPage 0 1 0 with
  | none => rw [e] at h; cases h
  | some x => simp only [wPage, e, Option.getD_some]

theorem wStripe_eq : wPage.stripeFor 0 = some (((wPage.stripeFor 0).getD (none, wPage)).1, wStripe) := by
  have h : (wPage.stripeFor 0).isSome = true := by decide +kernel
  cases e : wPage.stripeFor 0 with
  | none => rw [e] at h; cases h
  | some x => simp only [wStripe, e, Option.getD_some]

/-- A die with one block erased more often than the others. -/
def wWorn : State :=
  { w [(F.TE_UPK_CTL.WL_EN, 1), (⟨R.TE_WL_SPREAD, 0, 14⟩, 0)] with te.gc := [⟨0, 0, true, 0, [], false⟩], te.map := [(0, ⟨1, false, false, some ⟨0, 0, 0, 0⟩, 0⟩)], te.blocks := [(0, { Blk.fresh with st := 5, erases := 5 })] }

theorem le_foldl_max (l : List Nat) (a x : Nat) (h : x ≤ a ∨ x ∈ l) : x ≤ l.foldl max a := by
  induction l generalizing a with
  | nil => simpa using h
  | cons y l ih =>
    refine ih _ ?_
    rcases h with h | h
    · exact .inl (by omega)
    · rcases List.mem_cons.mp h with rfl | h
      · exact .inl (by omega)
      · exact .inr h

theorem foldl_min_le (l : List Nat) (a x : Nat) (h : a ≤ x ∨ x ∈ l) : l.foldl min a ≤ x := by
  induction l generalizing a with
  | nil => simpa using h
  | cons y l ih =>
    refine ih _ ?_
    rcases h with h | h
    · exact .inl (by omega)
    · rcases List.mem_cons.mp h with rfl | h
      · exact .inl (by omega)
      · exact .inr h

theorem spread_ge (s : State) (d x y : Nat) (hx : x ∈ s.eraseCounts d (fun st => st != 8 && st != 9))
    (hy : y ∈ s.eraseCounts d (fun st => st != 8 && st != 9)) : x - y ≤ s.spread d := by
  have a := le_foldl_max _ 0 x (.inr hx)
  have b := foldl_min_le _ 65535 y (.inr hy)
  simp only [State.spread, lowest]
  omega

theorem wWorn_spread : wWorn.num R.TE_WL_SPREAD % 16384 < wWorn.spread 0 :=
  Nat.lt_of_lt_of_le (by decide +kernel : wWorn.num R.TE_WL_SPREAD % 16384 < 5 - 1) (spread_ge wWorn 0 5 1
    (List.mem_map.mpr ⟨0, List.mem_filter.mpr ⟨List.mem_range.mpr (by decide), by decide +kernel⟩, by decide +kernel⟩)
    (List.mem_map.mpr ⟨1, List.mem_filter.mpr ⟨List.mem_range.mpr (by decide), by decide +kernel⟩, by decide +kernel⟩))

/-- A state whose parameter store holds configuration record 7 and performs a program. -/
def wCfg : State :=
  { w [] with pst.words := layCell (configRow 7) 0 (crcCell (padWords 62 [])) (markWord 1), pst.cur := some ⟨.counterInc 0, [], false, false⟩ }

/-- Configuration record 0 with a rail table of one entry. -/
def wTableRow : Sparse Word :=
  layCell (configRow 0) 0 (crcCell (padWords 62 ([1, 0x1900, 0, 0] ++ [BitVec.ofNat 32 (crc32c (([1, 0x1900, 0, 0] : List Word).flatMap wordBytes))]))) (markWord 1)


/-- A stripe whose only member's die has failed. -/
def wStr : Stripe := ⟨0, 0, 0, [packPage 8 0 0], [], true, [], 0, some (packPage 0 0 0), false⟩

/-- The header line of a parity page without members. -/
def wHdr : StoredLine := BitVec.ofNat 704 (0xc01a036bc04f0490fc649ec400000004000000000000000091080b710000000000003a36e4410000000000000000000000000000000000000000000000000000000000000000000000000000000000000000000000005a04)

/-- A state with that stripe's parity page, of which a line waits for recovery. -/
def wParity : State :=
  { w [] with
    te.media := [(0, ⟨[(256, wHdr)]⟩)], te.stripes := [wStr], te.dies := [(8, { DieCtl.ok with failed := true })]
    sir.recover := [(⟨0, 0, 0, 0⟩, 0)] }

/-- Line 0 of a trailer: LEN 1, FINAL 1, and the tag. -/
def wTrailer (t : BitVec 128) : Line := BitVec.ofNat 512 (t.toNat * 2 ^ 256 + (2 ^ 160 + 2 ^ 128))

theorem wTrailer_toNat (t : BitVec 128) : (wTrailer t).toNat = t.toNat * 2 ^ 256 + (2 ^ 160 + 2 ^ 128) := by
  have h : t.toNat * 2 ^ 256 + (2 ^ 160 + 2 ^ 128) < 2 ^ 256 * 2 ^ 256 := by have := t.isLt; omega
  rw [wTrailer, BitVec.toNat_ofNat, Nat.pow_add 2 256 256]
  exact Nat.mod_eq_of_lt h

def wLow : Nat := 2 ^ 160 + 2 ^ 128

theorem wTrailer_low (t : BitVec 128) : (wTrailer t).toNat % 2 ^ 256 = wLow := by
  rw [wTrailer_toNat, wLow]; omega

theorem wTrailer_len (t : BitVec 128) : trLen (wTrailer t) = 1 := by
  rw [trLen, wTrailer_toNat]; omega

theorem wTrailer_toff (t : BitVec 128) : trToff (wTrailer t) = 0 := by
  rw [trToff, wTrailer_toNat]; omega

theorem wTrailer_final (t : BitVec 128) : trFinal (wTrailer t) = true := by
  rw [trFinal, BitVec.getLsbD, wTrailer_toNat, Nat.testBit_eq_decide_div_mod_eq, decide_eq_true_eq]; omega

theorem wTrailer_tag (t : BitVec 128) : trTag (wTrailer t) = t := by
  apply BitVec.eq_of_toNat_eq
  rw [trTag, BitVec.extractLsb'_toNat, wTrailer_toNat, Nat.shiftRight_eq_div_pow]; omega

/-- An import stream whose first chunk lacks only its last line. -/
def wImport : Stream :=
  ⟨0, 1, 1, 0, 0, 0, 1, 0, 0, none, 0, 0, [], 0 :: (List.range 32).map (fun k => 16385 + k), [], 0, 0, 0⟩

/-- The state with that stream, and the line that completes the chunk under the model's own tag. -/
def wImporting : State := { w [(F.RT_RG_CTL.XFER 0, 1)] with ce.streams := [wImport] }

def wTagOf (d : Line) (len : Nat) : BitVec 128 :=
  gcmTag (wImporting.keySlot wImport.slot).key (wImporting.keySlot wImport.slot).h (chunkIv (wImport.frameChunk (wImporting.frames wImport.window) 0))
    (chunkAad d (wImporting.framePmap wImport 0))
    (wImporting.importCt wImport 0 (wImport.frameChunk (wImporting.frames wImport.window) 0) len)

def wLast : Line := wTrailer (wTagOf (wTrailer 0) 1)

/-- Bytes of a number that only its low 256 bits give. -/
theorem leBytes_low (v : Nat) : leBytes 32 v = leBytes 32 (v % 2 ^ 256) := by
  refine List.map_congr_left fun k hk => BitVec.eq_of_toNat_eq ?_
  have hk := List.mem_range.mp hk
  rw [BitVec.toNat_ofNat, BitVec.toNat_ofNat]
  interval_cases k <;> omega

theorem chunkAad_low (d e : Line) (p : Nat → Line) (h : d.toNat % 2 ^ 256 = e.toNat % 2 ^ 256) : chunkAad d p = chunkAad e p := by
  rw [chunkAad, chunkAad, leBytes_low d.toNat, h, ← leBytes_low]

theorem wLast_tag : wTagOf wLast (trLen wLast) = trTag wLast := by
  rw [wLast, wTrailer_len, wTrailer_tag, wTagOf, wTagOf, chunkAad_low _ (wTrailer 0) _ (by rw [wTrailer_low, wTrailer_low])]

theorem witness_speed_monitors_governor_and_time_base :
    (∃ (s : State), s.coreUp = true ∧ s.refclk = true) ∧
    (∃ (s : State), 0 < s.get F.RT_STS.GUARD_LVL ∧ 1024 ≤ s.arch.retCnt) ∧
    (∃ (mon : Fin 8) (s : State), s.coreUp = true ∧ 128 ≤ s.arch.odd.getD mon.val 0 ∧ s.bit ⟨R.HK_STS, 16 + mon.val, 1⟩ = false ∧
      (s.fcSrc 120).wire = false) ∧
    (∃ (s : State), s.proctors = true ∧ 3 ≤ s.get F.BOOT_STS.PHASE ∧ s.arch.pend = none ∧ s.bit F.RT_STS.SPD_VALID = true) ∧
    (∃ (s : State), s.proctors = false) ∧
    (∃ (mv : Nat) (s : State), s.arch.pend = some (mv, false)) ∧
    (∃ (mv : Nat) (s : State), s.arch.pend = some (mv, true) ∧ s.coreUp = true ∧ (s.fcSrc 122).wire = false) ∧
    (∃ (s : State), (∀ p, (s.fcSrc p).wire = false) ∧ s.coreUp = true) ∧
    (∃ (s : State), s.refclk = true) :=
  ⟨⟨w [], by decide +kernel⟩,
⟨{ w [(F.RT_STS.GUARD_LVL, 1)] with arch.retCnt := 1024 }, by decide +kernel⟩,
⟨0, { w [] with arch.odd := [128, 0, 0, 0, 0, 0, 0, 0] }, by decide +kernel⟩,
⟨w [(F.RT_STS.SPD_VALID, 1)], by decide +kernel⟩,
⟨w [(F.FC_STS.HEALTHY, 0)], by decide +kernel⟩,
⟨0, { w [] with arch.pend := some (0, false) }, by decide +kernel⟩,
⟨0, { w [] with arch.pend := some (0, true) }, by decide +kernel⟩,
⟨w [], fun _ => rfl, by decide +kernel⟩,
⟨w [], by decide +kernel⟩⟩

theorem witness_data_path_counters_clear :
    (∃ (path : Path) (s : State), s.isManager path = true) ∧
    (∃ (path : Path) (s : State), s.isManager path = true) ∧
    (∃ (path : Path) (s : State), s.isManager path = true) ∧
    (∃ (path : Path) (s : State), s.isManager path = true ∧ s.coreUp = true) :=
  ⟨⟨.port 0, w [], by decide +kernel⟩,
⟨.port 0, w [], by decide +kernel⟩,
⟨.port 0, w [], by decide +kernel⟩,
⟨.port 0, w [], by decide +kernel⟩⟩

theorem witness_other_counters_clear :
    (∃ (path : Path) (s : State), s.isManager path = true) ∧
    (∃ (path : Path) (s : State), s.isManager path = true) ∧
    (∃ (path : Path) (s : State), s.isManager path = true) :=
  ⟨⟨.port 0, w [], by decide +kernel⟩,
⟨.port 0, w [], by decide +kernel⟩,
⟨.port 0, w [], by decide +kernel⟩⟩

theorem witness_counter_clears_need_the_manager :
    (∃ (path : Path) (s : State), s.isManager path = false) ∧
    (∃ (path : Path) (s : State), s.isManager path = false) ∧
    (∃ (path : Path) (s : State), s.isManager path = false) ∧
    (∃ (path : Path) (s : State), s.isManager path = false) ∧
    (∃ (path : Path) (s : State), s.isManager path = false ∧ path ≠ .oob) :=
  ⟨⟨.port 1, w [], by decide +kernel⟩,
⟨.port 1, w [], by decide +kernel⟩,
⟨.port 1, w [], by decide +kernel⟩,
⟨.port 1, w [], by decide +kernel⟩,
⟨.port 1, w [], by decide +kernel⟩⟩

theorem witness_media_read_and_program_commands :
    (∃ (die : Fin 320) (crc : BitVec 8) (s : State) (slot : Nat) (line : Nat) (page : Nat) (block : Nat) (set : Nat) (arg : BitVec 40), slot < 12 ∧ line ≤ 256 ∧ page < 2048 ∧ block < 2048 ∧ set < 8 ∧ arg.toNat = slot + 2 ^ 4 * line + 2 ^ 13 * page + 2 ^ 24 * block + 2 ^ 37 * set ∧ s.dieTakes die 0x10 (argBytes 5 arg.toNat) crc [Ds.idle, Ds.loading, Ds.suspending, Ds.suspended] ∧ (s.mdie die).occupied slot = false) ∧
    (∃ (die : Fin 320) (crc : BitVec 8) (s : State) (r : DRead) (rest : List DRead) (w : StoredLine),
      s.dieTakes die 0x11 [] crc Ds.awake ∧ (s.mdie die).host = r :: rest ∧ r.sensed = some w) ∧
    (∃ (die : Fin 320) (crc : BitVec 8) (s : State) (r : DRead) (rest : List DRead) (w : StoredLine),
      s.dieTakes die 0x12 [] crc Ds.awake ∧ (s.mdie die).bg = r :: rest ∧ r.sensed = some w) ∧
    (∃ (die : Fin 320) (crc : BitVec 8) (s : State) (page : Nat) (block : Nat) (arg : BitVec 24), page < 2048 ∧ block < 2048 ∧
      arg.toNat = page + 2 ^ 11 * block ∧ s.dieTakes die 0x20 (argBytes 3 arg.toNat) crc [Ds.idle] ∧ (s.mdie die).waiting = false) ∧
    (∃ (die : Fin 320) (crc : BitVec 8) (s : State) (idx : BitVec 8), idx.toNat ≤ 88 ∧
      s.dieTakes die 0x21 [idx.toNat] crc [Ds.loading] ∧ (s.mdie die).waiting = false) ∧
    (∃ (die : Fin 320) (crc : BitVec 8) (s : State), s.dieTakes die 0x22 [] crc [Ds.loading] ∧ (s.mdie die).waiting = false ∧
      89 ≤ (s.mdie die).got.length) ∧
    (∃ (die : Fin 320) (crc : BitVec 8) (s : State), s.dieTakes die 0x23 [] crc [Ds.loading] ∧ (s.mdie die).waiting = false) ∧
    (∃ (die : Fin 320) (crc : BitVec 8) (s : State) (arg : BitVec 16), arg.toNat < 2048 ∧
      s.dieTakes die 0x28 (argBytes 2 arg.toNat) crc [Ds.idle] ∧ (s.mdie die).waiting = false) :=
  ⟨⟨0, BitVec.ofNat 8 (crc8 (0x10 :: argBytes 5 (11 + 2 ^ 4 * 256 + 2 ^ 13 * 2047 + 2 ^ 24 * 2047 + 2 ^ 37 * 7))),
     { w [] with md := [(0, { MDie.inReset false with st := Ds.idle })] }, 11, 256, 2047, 2047, 7,
     BitVec.ofNat 40 (11 + 2 ^ 4 * 256 + 2 ^ 13 * 2047 + 2 ^ 24 * 2047 + 2 ^ 37 * 7), by unfold State.dieTakes; decide +kernel⟩,
⟨0, BitVec.ofNat 8 (crc8 (0x11 :: [])),
     { w [] with md := [(0, { MDie.inReset false with st := Ds.idle, host := [⟨0, 0, 0, 0, 0, some 0⟩] })] }, ⟨0, 0, 0, 0, 0,
     some 0⟩, [], 0, by unfold State.dieTakes; decide +kernel⟩,
⟨0, BitVec.ofNat 8 (crc8 (0x12 :: [])),
     { w [] with md := [(0, { MDie.inReset false with st := Ds.idle, bg := [⟨0, 0, 0, 0, 0, some 0⟩] })] }, ⟨0, 0, 0, 0, 0, some 0⟩,
     [], 0, by unfold State.dieTakes; decide +kernel⟩,
⟨0, BitVec.ofNat 8 (crc8 (0x20 :: argBytes 3 (2047 + 2048 * 2047))),
     { w [] with md := [(0, { MDie.inReset false with st := Ds.idle })] }, 2047, 2047, BitVec.ofNat 24 (2047 + 2048 * 2047),
     by unfold State.dieTakes; decide +kernel⟩,
⟨0, BitVec.ofNat 8 (crc8 (0x21 :: [88])), { w [] with md := [(0, { MDie.inReset false with st := Ds.loading })] }, 88,
     by unfold State.dieTakes; decide +kernel⟩,
⟨0, BitVec.ofNat 8 (crc8 (0x22 :: [])),
     { w [] with md := [(0, { MDie.inReset false with st := Ds.loading, got := List.range 89 })] },
     by unfold State.dieTakes; decide +kernel⟩,
⟨0, BitVec.ofNat 8 (crc8 (0x23 :: [])), { w [] with md := [(0, { MDie.inReset false with st := Ds.loading })] },
     by unfold State.dieTakes; decide +kernel⟩,
⟨0, BitVec.ofNat 8 (crc8 (0x28 :: argBytes 2 2047)), { w [] with md := [(0, { MDie.inReset false with st := Ds.idle })] }, 2047,
     by unfold State.dieTakes; decide +kernel⟩⟩

theorem witness_media_control_commands :
    (∃ (die : Fin 320) (crc : BitVec 8) (s : State), s.dieTakes die 0x30 [] crc [Ds.progBusy, Ds.eraseBusy]) ∧
    (∃ (die : Fin 320) (crc : BitVec 8) (s : State), s.dieTakes die 0x31 [] crc [Ds.suspending, Ds.suspended] ∧
      (s.mdie die).waiting = false) ∧
    (∃ (die : Fin 320) (crc : BitVec 8) (s : State), s.dieTakes die 0x40 [] crc Ds.notReset) ∧
    (∃ (die : Fin 320) (crc : BitVec 8) (s : State) (v : Word), s.dieTakes die 0x50 (1 :: argBytes 4 v.toNat) crc [Ds.idle,
      Ds.suspended]) ∧
    (∃ (die : Fin 320) (crc : BitVec 8) (s : State) (v : Word), s.dieTakes die 0x50 (2 :: argBytes 4 v.toNat) crc [Ds.idle,
      Ds.suspended]) ∧
    (∃ (die : Fin 320) (crc : BitVec 8) (s : State) (v : Word), s.dieTakes die 0x50 (4 :: argBytes 4 v.toNat) crc [Ds.idle,
      Ds.suspended]) ∧
    (∃ (die : Fin 320) (crc : BitVec 8) (s : State), s.dieTakes die 0x51 [1] crc Ds.notReset) ∧
    (∃ (die : Fin 320) (crc : BitVec 8) (s : State) (set : BitVec 8) (offs : BitVec 24), set.toNat < 8 ∧
      s.dieTakes die 0x60 (set.toNat :: argBytes 3 offs.toNat) crc [Ds.idle, Ds.loading, Ds.suspended]) ∧
    (∃ (crc : BitVec 8) (s : State) (ch : Fin 40) (k : Nat) (ce : BitVec 8) (param : BitVec 8), ceDies ch.val ce = [8 * ch.val + k] ∧
      s.dieTakes (8 * ch.val + k) 0x70 [2, param.toNat] crc [Ds.idle]) ∧
    (∃ (crc : BitVec 8) (s : State) (ch : Fin 40) (k : Nat) (ce : BitVec 8), ceDies ch.val ce = [8 * ch.val + k] ∧
      s.dieTakes (8 * ch.val + k) 0x7E [] crc [Ds.caTrain]) ∧
    (∃ (crc : BitVec 8) (s : State) (ch : Fin 40) (k : Nat) (ce : BitVec 8), ceDies ch.val ce = [8 * ch.val + k] ∧
      s.dieTakes (8 * ch.val + k) 0x7F [] crc [Ds.caTrain, Ds.idle, Ds.loading, Ds.training]) :=
  ⟨⟨0, BitVec.ofNat 8 (crc8 (0x30 :: [])), { w [] with md := [(0, { MDie.inReset false with st := Ds.progBusy })] },
     by unfold State.dieTakes; decide +kernel⟩,
⟨0, BitVec.ofNat 8 (crc8 (0x31 :: [])), { w [] with md := [(0, { MDie.inReset false with st := Ds.suspended })] },
     by unfold State.dieTakes; decide +kernel⟩,
⟨0, BitVec.ofNat 8 (crc8 (0x40 :: [])), { w [] with md := [(0, { MDie.inReset false with st := Ds.idle })] },
     by unfold State.dieTakes; decide +kernel⟩,
⟨0, BitVec.ofNat 8 (crc8 (0x50 :: (1 :: argBytes 4 0))), { w [] with md := [(0, { MDie.inReset false with st := Ds.idle })] }, 0,
     by unfold State.dieTakes; decide +kernel⟩,
⟨0, BitVec.ofNat 8 (crc8 (0x50 :: (2 :: argBytes 4 0))), { w [] with md := [(0, { MDie.inReset false with st := Ds.idle })] }, 0,
     by unfold State.dieTakes; decide +kernel⟩,
⟨0, BitVec.ofNat 8 (crc8 (0x50 :: (4 :: argBytes 4 0))), { w [] with md := [(0, { MDie.inReset false with st := Ds.idle })] }, 0,
     by unfold State.dieTakes; decide +kernel⟩,
⟨0, BitVec.ofNat 8 (crc8 (0x51 :: [1])), { w [] with md := [(0, { MDie.inReset false with st := Ds.idle })] },
     by unfold State.dieTakes; decide +kernel⟩,
⟨0, BitVec.ofNat 8 (crc8 (0x60 :: (7 :: argBytes 3 0))), { w [] with md := [(0, { MDie.inReset false with st := Ds.idle })] }, 7,
     0, by unfold State.dieTakes; decide +kernel⟩,
⟨BitVec.ofNat 8 (crc8 (0x70 :: [2, 0])), { w [] with md := [(0, { MDie.inReset false with st := Ds.idle })] }, 0, 0, 1, 0,
     by unfold State.dieTakes; decide +kernel⟩,
⟨BitVec.ofNat 8 (crc8 (0x7E :: [])), { w [] with md := [(0, { MDie.inReset false with st := Ds.caTrain })] }, 0, 0, 1,
     by unfold State.dieTakes; decide +kernel⟩,
⟨BitVec.ofNat 8 (crc8 (0x7F :: [])), { w [] with md := [(0, { MDie.inReset false with st := Ds.idle })] }, 0, 0, 1,
     by unfold State.dieTakes; decide +kernel⟩⟩

theorem witness_media_die_events :
    (∃ (die : Fin 320) (s : State) (slot : Fin 12) (r : DRead), (s.mdie die).host = [r] ∧ (s.mdie die).bg = [] ∧ r.slot = slot.val ∧
      r.sensed = none ∧ (s.mdie die).st = Ds.idle ∧ (s.mdie die).waiting = false) ∧
    (∃ (die : Fin 320) (s : State), (s.mdie die).st = Ds.progBusy) ∧
    (∃ (die : Fin 320) (s : State), (s.mdie die).st = Ds.eraseBusy) ∧
    (∃ (die : Fin 320) (s : State), (s.mdie die).st = Ds.suspending) ∧
    (∃ (die : Fin 320) (s : State), (s.mdie die).st = Ds.reset ∧ (s.mdie die).hard = false) ∧
    (∃ (die : Fin 320) (s : State), (s.mdie die).st = Ds.training) :=
  ⟨⟨0, { w [] with md := [(0, { MDie.inReset false with st := Ds.idle, host := [⟨0, 0, 0, 0, 0, none⟩] })] }, 0, ⟨0, 0, 0, 0, 0,
     none⟩, by decide +kernel⟩,
⟨0, { w [] with md := [(0, { MDie.inReset false with st := Ds.progBusy })] }, by decide +kernel⟩,
⟨0, { w [] with md := [(0, { MDie.inReset false with st := Ds.eraseBusy })] }, by decide +kernel⟩,
⟨0, { w [] with md := [(0, { MDie.inReset false with st := Ds.suspending })] }, by decide +kernel⟩,
⟨0, { w [] with md := [(0, { MDie.inReset false with st := Ds.reset })] }, by decide +kernel⟩,
⟨0, { w [] with md := [(0, { MDie.inReset false with st := Ds.training })] }, by decide +kernel⟩⟩

theorem witness_media_channel_commands :
    (∃ (ch : Fin 40) (r : ChanTrain) (s : State), s.bit (F.MC_STS.TRAIN_BUSY ch) = true ∧ r.fail = none) ∧
    (∃ (ch : Fin 40) (r : ChanTrain) (step : Fin 8) (s : State), s.bit (F.MC_STS.TRAIN_BUSY ch) = true ∧ r.fail = some step ∧
      s.mcTry.contains ch.val = false) ∧
    (∃ (die : Fin 320) (s : State), (s.die die).failed = false) ∧
    (∃ (id : Nat) (m : MRead) (s : State), s.te.reads.find? (fun m => m.id == id && m.issued) = some m ∧
      (s.die m.loc.die).failed = false ∧ (s.die m.loc.die).step = 0 ∧
      ((s.die m.loc.die).recoveries.filter (fun t => decide (s.tick.toNat < t + 100000000))).length < 2) ∧
    (∃ (die : Fin 320) (s : State), s.bit (F.MG_CTL.TRACK_EN (groupOf die)) = true ∧ s.bit (F.MC_STS.TRAINED (chanOf die)) = true ∧
      (s.die die).failed = false ∧ s.te.reads.all (fun m => m.loc.die != die.val) = true) ∧
    (∃ (die : Fin 320) (s : State), (s.die die).suspended = true ∧ (s.die die).suspRec = false) ∧
    (∃ (ch : Fin 40) (path : Path) (s : State), s.isManager path = true ∧ s.bit (F.MC_CTL.EN ch) = false ∧
      s.num (R.MC_DIES ch) % 16 ≠ 0 ∧ s.fencedSrc (32 + ch.val) = false) ∧
    (∃ (ch : Fin 40) (path : Path) (s : State), s.isManager path = true ∧ s.bit (F.MC_CTL.EN ch) = false) ∧
    (∃ (ch : Fin 40) (path : Path) (s : State), s.isManager path = true ∧ s.bit (F.MC_CTL.EN ch) = false ∧
      s.bit (F.MC_PAT_CTL.START ch) = true) :=
  ⟨⟨0, ⟨none, 0, 0, []⟩, w [(F.MC_STS.TRAIN_BUSY 0, 1)], by decide +kernel⟩,
⟨0, ⟨some 0, 0, 0, []⟩, 0, w [(F.MC_STS.TRAIN_BUSY 0, 1)], by decide +kernel⟩,
⟨0, w [], by decide +kernel⟩,
⟨0, ⟨0, .host 0, ⟨0, 0, 0, 0⟩, 0, 0, 0, true, some 0⟩,
     { w [] with te.reads := [⟨0, .host 0, ⟨0, 0, 0, 0⟩, 0, 0, 0, true, some 0⟩] }, by decide +kernel⟩,
⟨0, w [(F.MG_CTL.TRACK_EN (groupOf 0), 1), (F.MC_STS.TRAINED (chanOf 0), 1)], by decide +kernel⟩,
⟨0, { w [] with te.dies := [(0, { DieCtl.ok with suspended := true })] }, by decide +kernel⟩,
⟨0, .port 0, w [(F.MC_CTL.EN 0, 0), (⟨R.MC_DIES 0, 0, 4⟩, 8)], by decide +kernel⟩,
⟨0, .port 0, w [(F.MC_CTL.EN 0, 0)], by decide +kernel⟩,
⟨0, .port 0, w [(F.MC_CTL.EN 0, 0), (F.MC_PAT_CTL.START 0, 1)], by decide +kernel⟩⟩

theorem witness_read_path_commands :
    (∃ (port : Fin 8) (line : BitVec 38) (n : Nat) (w : Nat) (s : State), s.rt.reqs = [] ∧ s.hasCredit port false = true ∧
      s.reaches port line.toNat n ∧ s.sealedOff n = false ∧ s.lcOn = true ∧ s.lcFind line.toNat = some w ∧
      s.wayLost (lcSet line.toNat) w = false) ∧
    (∃ (port : Fin 8) (line : BitVec 38) (n : Nat) (s : State), s.hasCredit port false = true ∧
      (s.booting = true ∨ s.fenced = true ∨ s.reaches port line.toNat n ∧ s.sealedOff n = true)) ∧
    (∃ (id : Nat) (r : Req) (s : State), (∃ p g, r.src = .host p g) ∧ s.rt.reqs = [r] ∧ r.id = id ∧ r.kind = .read ∧
      r.stage = .second ∧ (s.entry (tileOf r.line)).st = 2 ∧ (s.entry (tileOf r.line)).ptile = false ∧
      (s.entry (tileOf r.line)).pline = false ∧ (s.slot (s.entry (tileOf r.line)).slot).lineSt (r.line % 64) ≠ 0) ∧
    (∃ (die : Fin 320) (r : Req) (l : Loc) (s : State), s.rt.reqs = [r] ∧ r.stage = .held die.val ∧
      (s.entry (tileOf r.line)).loc = some l ∧ l.die = die.val ∧ s.te.reads.all (fun m => m.loc.die != die.val || m.issued) = true) ∧
    (∃ (id : Nat) (m : MRead) (rid : Nat) (s : State), s.te.reads.find? (fun m => m.id == id && m.issued && s.readNext m) = some m ∧
      m.purpose = .host rid ∧ s.rt.reqs = [] ∧ s.te.reads.all (fun x => x.loc.die != m.loc.die || x.issued) = true) ∧
    (∃ (id : Nat) (err : StoredLine) (m : MRead) (r : Req) (d : Line) (bits : Nat) (s : State), (∃ p g, r.src = .host p g) ∧
      s.te.reads.find? (fun m => m.id == id && m.issued && s.readNext m) = some m ∧ m.purpose = .host r.id ∧ s.rt.reqs = [r] ∧
      r.kind = .read ∧ r.zero = false ∧ (s.entry (tileOf r.line)).ptile = false ∧ m.retry = 0 ∧ (m.key = 0 ∨ s.keyGate m.key = 0) ∧
      s.checkLine (groupOf m.loc.die) r.line (s.pageSeq m.loc) m.pos m.key (s.rawLine m err) = .ok d bits) ∧
    (∃ (id : Nat) (pid : Nat) (s : State), 8 ≤ s.ce.seeds ∧ s.ce.jobs.find? (fun j => j.1 == id) = some (id, .program pid) ∧
      s.jobWaits (.program pid) = false) ∧
    (∃ (id : Nat) (s : State), 8 ≤ s.ce.seeds ∧ s.coreUp = true ∧ (s.fcSrc 6).wire = false ∧
      s.ce.jobs.find? (fun j => j.1 == id) = some (id, .kat)) ∧
    (∃ (port : Fin 8) (s : State), s.bit (F.HP_STS.LINK_UP port) = true) ∧
    (∃ (port : Fin 8) (s : State), s.rt.gpf.contains port.val = true) :=
  ⟨⟨0, 0, 0, 0, { w [] with lc.ways := [(16 * lcSet 0, { Way.none with v := true, tag := lcTag 0, d := true })] },
     by unfold State.reaches; decide +kernel⟩,
⟨0, 0, 0, w [(F.CAR_STS.FENCED, 1)], by unfold State.reaches; decide +kernel⟩,
⟨0, (Req.new 0 (.host 0 0) 0 (.read) (.second) (some 0) 0 0),
     { w [] with rt.reqs := [(Req.new 0 (.host 0 0) 0 (.read) (.second) (some 0) 0 0)], te.map := [(0, ⟨2, false, false, none, 1⟩)], te.slots := [(1, ⟨some 0, [(0, 2)], [], none, 0, false, 0, 0, false, none⟩)] }, ⟨0, 0, rfl⟩, by decide +kernel⟩,
⟨0, (Req.new 0 (.host 0 0) 0 (.read) (.held 0) (some 0) 0 0), ⟨0, 0, 0, 0⟩,
     { w [] with rt.reqs := [(Req.new 0 (.host 0 0) 0 (.read) (.held 0) (some 0) 0 0)], te.map := [(0, ⟨1, false, false, some ⟨0, 0, 0, 0⟩, 0⟩)] }, by decide +kernel⟩,
⟨0, ⟨0, .host 0, ⟨0, 0, 0, 0⟩, 0, 0, 0, true, some 0⟩, 0,
     { w [] with te.reads := [⟨0, .host 0, ⟨0, 0, 0, 0⟩, 0, 0, 0, true, some 0⟩] }, by decide +kernel⟩,
⟨0, 0, ⟨0, .host 0, ⟨0, 0, 0, 0⟩, 0, 0, 0, true, some 0⟩, (Req.new 0 (.host 0 0) 0 (.read) (.media 0) (some 0) 0 0), 0, 0,
     { w [] with te.reads := [⟨0, .host 0, ⟨0, 0, 0, 0⟩, 0, 0, 0, true, some 0⟩], rt.reqs := [(Req.new 0 (.host 0 0) 0 (.read) (.media 0) (some 0) 0 0)] }, ⟨0, 0, rfl⟩, by decide +kernel⟩,
⟨0, 0, { w [] with ce.seeds := 8, ce.jobs := [(0, .program 0)] }, by decide +kernel⟩,
⟨0, { w [] with ce.seeds := 8, ce.jobs := [(0, .kat)] }, by decide +kernel⟩,
⟨0, w [], by decide +kernel⟩,
⟨0, { w [] with rt.gpf := [0] }, by decide +kernel⟩⟩

theorem witness_write_path_and_tile_stage_commands :
    (∃ (port : Fin 8) (line : BitVec 38) (n : Nat) (w : Nat) (s : State), s.rt.reqs = [] ∧ s.hasCredit port true = true ∧
      s.reaches port line.toNat n ∧ s.roState = false ∧ s.mirroring = false ∧ s.lcOn = true ∧ s.lcFind line.toNat = some w ∧
      (s.way (lcSet line.toNat) w).d = true) ∧
    (∃ (port : Fin 8) (line : BitVec 38) (s : State), s.hasCredit port true = true ∧ s.booting = false ∧ s.fenced = false ∧
      s.roState = false ∧ s.regionOf line.toNat = none) ∧
    (∃ (id : Nat) (r : Req) (d : Line) (w : Nat) (s : State), (∃ p g, r.src = .host p g) ∧ s.rt.reqs = [r] ∧ r.id = id ∧
      r.stage = .budget ∧ r.kind = .write d ∧ s.mirroring = false ∧ s.lcOn = true ∧ s.lcFind r.line = some w) ∧
    (∃ (line : BitVec 38) (b : EvBuf) (s : State), s.rt.reqs = [] ∧ s.bit F.TE_STS.MAP_READY = true ∧
      s.te.bad.contains (tileOf line.toNat) = false ∧ s.lc.bufs.find? (fun b => b.line == line.toNat) = some b ∧
      (s.entry (tileOf line.toNat)).slot ≠ 0) ∧
    (∃ (tile : BitVec 32) (s : State), (s.entry tile.toNat).st = 2 ∧ (s.slot (s.entry tile.toNat).slot).anyDirty = true) ∧
    (∃ (die : Fin 320) (s : State), 1 ≤ (s.dueOf die).length ∧ s.bufFree.isSome = true) ∧
    (∃ (p : Prog) (b : Nat) (pg : Nat) (str : Option Nat) (s : State) (u : State) (v : State), s.te.progs = [p] ∧ p.kind = .host ∧
      p.stage = .ready ∧ s.dieBusy (s.progDie p) = false ∧ (s.die (s.progDie p)).failed = false ∧
      s.nextPage (s.progDie p) 1 p.seq = some (b, pg, u) ∧ u.stripeFor (s.progDie p) = some (str, v)) ∧
    (∃ (die : Fin 320) (sw : Word) (b : Nat) (s : State), s.rt.reqs = [] ∧ sw.toNat / 2 ^ 28 = 5 ∧ sw.getLsbD 5 = true ∧
      sw.getLsbD 4 = false ∧ sw.getLsbD 15 = false ∧ sw.getLsbD 18 = false ∧ s.te.progs.all (fun p => p.die != die.val) = true ∧
      (s.die die).erase = some b ∧ 16 ≤ b) ∧
    (∃ (path : Path) (s : State), s.isManager path = true) :=
  ⟨⟨0, 0, 0, 0, { w [] with lc.ways := [(16 * lcSet 0, { Way.none with v := true, tag := lcTag 0, d := true })] },
     by unfold State.reaches; decide +kernel⟩,
⟨0, 0x3FFFFFFFFF, w [], by decide +kernel⟩,
⟨0, (Req.new 0 (.host 0 0) 0 (.write 0) (.budget) (some 0) 0 0), 0, 0,
     { w [] with lc.ways := [(16 * lcSet 0, { Way.none with v := true, tag := lcTag 0, d := true })], rt.reqs := [(Req.new 0 (.host 0 0) 0 (.write 0) (.budget) (some 0) 0 0)] }, ⟨0, 0, rfl⟩, by decide +kernel⟩,
⟨0, ⟨0, 0⟩, { w [] with lc.bufs := [⟨0, 0⟩], te.map := [(0, ⟨2, false, false, none, 1⟩)] }, by decide +kernel⟩,
⟨0, { w [] with te.map := [(0, ⟨2, false, false, none, 1⟩)], te.slots := [(1, ⟨some 0, [(0, 2)], [], none, 0, false, 0, 0, false, none⟩)] }, by decide +kernel⟩,
⟨0, { w [] with te.fmt := [0], te.slots := [(1, ⟨some 0, [(0, 2)], [], none, 0, true, 0, 0, false, none⟩)] }, by decide +kernel⟩,
⟨⟨0, .host, 0, [], 0, .ready, false, [], 0, 0, [], some 0⟩, ((wProg.nextPage 0 1 0).getD (0, 0, wProg)).1,
     ((wProg.nextPage 0 1 0).getD (0, 0, wProg)).2.1, ((wPage.stripeFor 0).getD (none, wPage)).1, wProg, wPage, wStripe,
     by decide +kernel, by decide +kernel, by decide +kernel, by decide +kernel, by decide +kernel, by rw [wDie]; exact wPage_eq,
     by rw [wDie]; exact wStripe_eq⟩,
⟨0, 0x50000020, 16, { w [] with te.dies := [(0, { DieCtl.ok with erase := some 16 })] }, by decide +kernel⟩,
⟨.port 0, w [], by decide +kernel⟩⟩

theorem witness_line_cache_commands :
    (∃ (path : Path) (s : State), s.rt.reqs = [] ∧ s.isManager path = true ∧ s.bit F.LC_CTL.EN = true ∧
      s.bit F.LC_STS.SAFE_BUSY = false) ∧
    (∃ (path : Path) (s : State), s.isManager path = true ∧ s.bit F.LC_CTL.EN = false ∧ s.bit F.LC_STS.SAFE_BUSY = false ∧
      s.bit F.SIR_CHK_STS.ACTIVE = false) ∧
    (∃ (path : Path) (s : State), s.isManager path = true ∧ s.bit F.LC_CTL.EN = true ∧ s.bit F.LC_STS.SAFE_BUSY = false) ∧
    (∃ (path : Path) (s : State), s.isManager path = true ∧ s.bit F.LC_RANGE_STS.BUSY = false) ∧
    (∃ (s : State) (o : WalkOp), s.fencedSrc 10 = false ∧ s.lc.walker = none ∧ s.lc.walkQ = [o]) ∧
    (∃ (s : State) (o : WalkOp) (p : WalkOp) (id : Nat) (op : Nat) (b : Bool), s.fencedSrc 10 = false ∧ s.lc.walker = none ∧
      s.lc.walkQ = [o, p] ∧ o.kind = .range op b ∧ p.kind = .discard id) ∧
    (∃ (s : State) (o : WalkOp), s.rt.reqs = [] ∧ s.fencedSrc 10 = false ∧ s.lc.walker = some o ∧ o.kind = .range 0 true ∧
      o.pos < 65535 ∧ o.way = 0) ∧
    (∃ (s : State) (o : WalkOp), s.rt.reqs = [] ∧ s.fencedSrc 10 = false ∧ s.lc.walker = some o ∧ o.kind = .range 0 true ∧
      o.port = none ∧ o.pos = 65535) ∧
    (∃ (s : State), s.coreUp = true ∧ s.bit F.LC_STS.CHECK_BUSY = true) :=
  ⟨⟨.port 0, w [], by decide +kernel⟩,
⟨.port 0, w [(F.LC_CTL.EN, 0)], by decide +kernel⟩,
⟨.port 0, w [], by decide +kernel⟩,
⟨.port 0, w [], by decide +kernel⟩,
⟨{ w [] with lc.walkQ := [⟨.range 0 true, 0, 0, none, 0, 0, 0, 0, false⟩] }, ⟨.range 0 true, 0, 0, none, 0, 0, 0, 0, false⟩,
     by decide +kernel⟩,
⟨{ w [] with lc.walkQ := [⟨.range 0 true, 0, 0, none, 0, 0, 0, 0, false⟩, ⟨.discard 0, 0, 0, none, 0, 0, 0, 0, false⟩] },
     ⟨.range 0 true, 0, 0, none, 0, 0, 0, 0, false⟩, ⟨.discard 0, 0, 0, none, 0, 0, 0, 0, false⟩, 0, 0, true, by decide +kernel⟩,
⟨{ w [] with lc.walker := some ⟨.range 0 true, 0, 0, none, 65534, 0, 0, 0, false⟩ }, ⟨.range 0 true, 0, 0, none, 65534, 0, 0, 0,
     false⟩, by decide +kernel⟩,
⟨{ w [] with lc.walker := some ⟨.range 0 true, 0, 0, none, 65535, 0, 0, 0, false⟩ }, ⟨.range 0 true, 0, 0, none, 65535, 0, 0, 0,
     false⟩, by decide +kernel⟩,
⟨w [(F.LC_STS.CHECK_BUSY, 1)], by decide +kernel⟩⟩

theorem witness_map_commands :
    (∃ (path : Path) (s : State), s.isManager path = true ∧ s.bit F.MAPC_CTL.EN = true) ∧
    (∃ (s : State), s.coreUp = true ∧ s.bit F.MAPC_STS.INV_BUSY = true) ∧
    (∃ (tile : BitVec 32) (s : State), s.rt.reqs = [] ∧ s.te.bad.contains tile.toNat = true ∧
      s.te.slots.all (fun x => x.2.tile != some tile.toNat) = true) ∧
    (∃ (tile : BitVec 32) (s : State), (s.entry tile.toNat).ptile = true ∧ sget 0 s.te.since tile.toNat = BitVec.allOnes 64 ∧
      s.num R.TE_PT_LINES ≤ 65536) ∧
    (∃ (s : State), s.rt.reqs = [] ∧ s.te.progs = [] ∧ s.te.flushWait = false ∧ s.seqHw < s.counter 3 * 2 ^ 20) ∧
    (∃ (path : Path) (pos : Nat) (d : Nat) (pg : Nat) (s : State), s.te.jbuf ≠ [] ∧ s.te.jbuf.length ≤ 1024 ∧
      s.ringSpot = some (pos, d, pg) ∧ s.mpage d ringBlock pg = MPage.erased ∧ s.jseq + 1024 ≤ s.jrnFloor + s.jrnSpan ∧
      s.seqNext < s.seqHw ∧ s.seqNext < 2 ^ 48 ∧ s.isManager path = true) ∧
    (∃ (path : Path) (s : State), s.isManager path = true) ∧
    (∃ (seg : Nat) (s : State), s.bit F.TE_STS.MAP_READY = true ∧ s.draining = false ∧ seg < ptSegment 0 ∧
      sget 0 s.te.changed seg ≠ 0 ∧ s.te.ckptJobs.all (fun c => c.seg != seg) = true ∧ 64 ≤ (s.bufsFree 64).length) ∧
    (∃ (s : State), s.rt.reqs = [] ∧ s.coreUp = true ∧ s.get F.BOOT_STS.PHASE = 4 ∧ s.bit F.BOOT_STS.HALT = false ∧ (∀ c,
      c < 40 → s.bit (F.MC_STS.TRAIN_BUSY c) = false) ∧ s.ce.derives = [] ∧ s.anchor = none ∧ s.te.media = []) :=
  ⟨⟨.port 0, w [(F.MAPC_CTL.EN, 1)], by decide +kernel⟩,
⟨w [(F.MAPC_STS.INV_BUSY, 1)], by decide +kernel⟩,
⟨0, { w [] with te.bad := [0] }, by decide +kernel⟩,
⟨0, { w [] with te.map := [(0, ⟨2, false, true, none, 1⟩)], te.since := [(0, BitVec.allOnes 64)] }, by decide +kernel⟩,
⟨{ w [(⟨R.TE_SEQ_HW_LO, 0, 32⟩, 0)] with pst.words := [(64 * counterRow 3, 0x50000001)] }, by decide +kernel⟩,
⟨.port 0, 0, 0, 0, { w [] with te.fmt := [0], te.jbuf := [.clean 0] }, by decide +kernel⟩,
⟨.port 0, w [], by decide +kernel⟩,
⟨0, { w [] with te.changed := [(0, 1)] }, by decide +kernel⟩,
⟨w [(F.BOOT_STS.PHASE, 4)], by decide +kernel⟩⟩

theorem witness_upkeep_commands :
    (∃ (id : Nat) (x : Stripe) (s : State), s.te.stripes.find? (fun x => x.id == id) = some x) ∧
    (∃ (die : Fin 320) (b : Fin 2048) (p : Fin 2048) (s : State), (s.blk die b).st = 1 ∨ (s.blk die b).st = 2 ∧
      p.val + 3 < (s.blk die b).next ∧ (s.blk die b).verified.contains p.val = false ∧ (s.blk die b).copying.contains p.val = false ∧
      s.te.progs.all (fun q => q.die != die.val) = true) ∧
    (∃ (die : Fin 320) (b : Fin 2048) (p : Fin 2048) (s : State), s.fencedSrc 10 = false ∧
      (s.blk die b).eligible.contains p.val = true ∧ s.sirWorks = true ∧ s.sirTurn 2 die = true ∧ s.bgCan die = true) ∧
    (∃ (die : Fin 320) (b : Fin 2048) (s : State), (s.blk die b).st = 7 ∧ (s.blk die b).erasing = false ∧
      (s.blk die b).copiedTo = [] ∧ (s.blk die b).flushAt ≤ s.jseq ∧ s.te.reads.all (fun m => m.loc.die != die.val) = true ∧
      s.dieBusy die = false ∧ (s.die die).failed = false) ∧
    (∃ (die : Fin 320) (tu : Fin 24) (g : GcJob) (s : State), s.tutorsRun tu = true ∧ s.bufFree.isSome = true ∧
      s.copying die = false ∧ (s.die die).failed = false ∧ s.te.gc.find? (fun g => g.die == die.val && !g.wear) = some g ∧
      s.copyTiles g ≠ []) ∧
    (∃ (die : Fin 320) (tu : Fin 24) (g : GcJob) (s : State), s.num R.TE_WL_SPREAD % 16384 < s.spread die ∧ s.tutorsRun tu = true ∧
      s.bufFree.isSome = true ∧ s.bit F.TE_UPK_CTL.WL_EN = true ∧ (s.die die).urgent = false ∧ s.copying die = false ∧
      (s.die die).failed = false ∧ s.te.gc.find? (fun g => g.die == die.val && g.wear) = some g ∧ s.copyTiles g ≠ []) ∧
    (∃ (n : Fin 16) (die : Fin 320) (tu : Fin 24) (g : GcJob) (s : State), s.tutorsRun tu = true ∧ s.bufFree.isSome = true ∧
      s.bit (F.CE_RG_SLOT.ROTATING n) = true ∧ (s.die die).urgent = false ∧ s.copying die = false ∧ (s.die die).failed = false ∧
      s.te.gc.find? (fun g => g.die == die.val && g.only && g.tutor != 24) = some g ∧ s.copyTiles g ≠ []) ∧
    (∃ (die : Fin 320) (b : Nat) (x : Discard) (s : State), s.fencedSrc 10 = false ∧ s.te.discards = [x] ∧ x.secure = true ∧
      x.accepted = true ∧ x.blocks = [2048 * die + b] ∧ b < 2048 ∧ s.bit F.TE_STS.MAP_READY = true ∧ s.draining = false ∧
      s.copying die = false ∧ (s.die die).failed = false ∧ (s.blk die b).st = 5 ∧ (s.blk die b).condemned = false ∧ s.te.gc = [] ∧
      s.validTiles die b = []) ∧
    (∃ (s : State), s.te.fmt ≠ []) ∧
    (∃ (die : Fin 320) (tile : Nat) (lost : Nat) (l : Loc) (s : State), (List.range 24).any s.tutorsRun = true ∧
      s.te.dieWork = [(die.val, [tile], lost)] ∧ (s.entry tile).loc = some l ∧ l.die = die.val ∧ (s.entry tile).st = 1 ∧
      s.obpHolds l = false ∧ s.partnerCopy (64 * tile) = false) :=
  ⟨⟨0, ⟨0, 0, 0, [], [], false, [], 0, none, false⟩, { w [] with te.stripes := [⟨0, 0, 0, [], [], false, [], 0, none, false⟩] },
     by decide +kernel⟩,
⟨0, 0, 0, { w [] with te.blocks := [(0, { Blk.fresh with st := 1, next := 4 })] }, by decide +kernel⟩,
⟨0, 0, 0, { w [] with te.blocks := [(0, { Blk.fresh with st := 1, eligible := [0] })] }, by decide +kernel⟩,
⟨0, 0, { w [] with te.blocks := [(0, { Blk.fresh with st := 7 })] }, by decide +kernel⟩,
⟨0, 0, ⟨0, 0, false, 0, [], false⟩,
     { w [] with te.gc := [⟨0, 0, false, 0, [], false⟩], te.map := [(0, ⟨1, false, false, some ⟨0, 0, 0, 0⟩, 0⟩)] }, by decide +kernel⟩,
⟨0, 0, ⟨0, 0, true, 0, [], false⟩, wWorn, wWorn_spread, by decide +kernel⟩,
⟨0, 0, 0, ⟨0, 0, false, 0, [(0, ⟨0, 0, 0, 0⟩, ⟨0, 0, 0, 0⟩)], true⟩,
     { w [(F.CE_RG_SLOT.ROTATING 0, 1)] with te.gc := [⟨0, 0, false, 0, [(0, ⟨0, 0, 0, 0⟩, ⟨0, 0, 0, 0⟩)], true⟩], te.map := [(0, ⟨1, false, false, some ⟨0, 0, 0, 0⟩, 0⟩)] }, by decide +kernel⟩,
⟨0, 0, ⟨0, 0, 0, true, .none, none, false, true, false, [0], 1⟩,
     { w [] with te.discards := [⟨0, 0, 0, true, .none, none, false, true, false, [0], 1⟩], te.blocks := [(0, { Blk.fresh with st := 5 })] }, by decide +kernel⟩,
⟨{ w [] with te.fmt := [0] }, by decide +kernel⟩,
⟨0, 0, 0, ⟨0, 0, 0, 0⟩, { w [] with te.dieWork := [(0, [0], 0)], te.map := [(0, ⟨1, false, false, some ⟨0, 0, 0, 0⟩, 0⟩)] },
     by decide +kernel⟩⟩

theorem witness_drift_commands :
    (∃ (s : State), s.coreUp = true) ∧
    (∃ (c : PstOp) (s : State), s.pst.cur = some c ∧ c.job.isErase = false) ∧
    (∃ (s : State), s.bit F.TE_STS.MAP_READY = true) ∧
    (∃ (die : Fin 320) (s : State), s.sir.refPend.contains die.val = true ∧ (s.die die).failed = false ∧ s.dieBusy die = false) ∧
    (∃ (die : Fin 320) (s : State), s.fencedSrc 10 = false ∧ s.bit F.SIR_CTL.TRACK_EN = true ∧ s.sirWorks = true ∧
      s.sirTurn 5 die = true ∧ sget 0 s.sir.trkDue die ≤ s.tick.toNat ∧ s.bgCan die = true) ∧
    (∃ (die : Fin 320) (b : Fin 2048) (k : Nat) (s : State), s.fencedSrc 10 = false ∧ s.bit F.SIR_STS.SWEEP_BUSY = true ∧
      (s.blk die b).unknown = true ∧ s.sir.swept = [] ∧ s.sirWorks = true ∧ s.sirTurn 4 die = true ∧ s.bgCan die = true ∧
      k ∈ s.unknownBlocks ∧ k ≠ 2048 * die.val + b.val) ∧
    (∃ (die : Fin 320) (b : Fin 2048) (s : State), s.fencedSrc 10 = false ∧ s.bit F.TE_STS.MAP_READY = true ∧ s.draining = false ∧
      (s.blk die b).unknown = false ∧ (s.die die).failed = false ∧ s.sir.refresh = [] ∧ (s.blk die b).st = 5 ∧
      (s.blk die b).seqs ≠ [] ∧ s.refreshDue (zoneOf die) ((s.blk die b).seqs.headD 0) = true ∧ s.copying die = true ∧
      s.validTiles die b ≠ []) :=
  ⟨⟨w [], by decide +kernel⟩,
⟨⟨.counterInc 0, [], false, false⟩, { w [] with pst.cur := some ⟨.counterInc 0, [], false, false⟩ }, by decide +kernel⟩,
⟨w [], by decide +kernel⟩,
⟨0, { w [] with sir.refPend := [0] }, by decide +kernel⟩,
⟨0, w [], by decide +kernel⟩,
⟨0, 0, 5, { w [(F.SIR_STS.SWEEP_BUSY, 1)] with te.blocks := [(0, { Blk.fresh with unknown := true }), (5, { Blk.fresh with unknown := true })] }, by decide +kernel⟩,
⟨0, 0, { w [] with te.blocks := [(0, { Blk.fresh with st := 5, seqs := [0] })], te.progs := [⟨0, .copy false, 0, [], 0, .number, false, [], 0, 0, [], none⟩], te.map := [(0, ⟨1, false, false, some ⟨0, 0, 0, 0⟩, 0⟩)] }, by decide +kernel⟩⟩

theorem witness_patrol_and_test_commands :
    (∃ (s : State), s.fencedSrc 10 = false ∧ s.bit F.SIR_CTL.SCRUB_EN = true ∧ s.sirWorks = true ∧ s.sir.scrub.due ≤ s.tick.toNat ∧
      s.sir.scrubTodo = [] ∧ s.te.media ≠ []) ∧
    (∃ (key : Nat) (rest : List Nat) (s : State), s.fencedSrc 10 = false ∧ s.bit F.SIR_CTL.SCRUB_EN = true ∧ s.sirWorks = true ∧
      s.sir.scrub.on = true ∧ s.sir.scrubTodo = key :: rest ∧ rest ≠ [] ∧ s.te.media.any (fun x => x.1 == key) = true ∧
      s.sirTurn 6 (key / 2048 / 2048) = true ∧ s.bgCan (key / 2048 / 2048) = true) ∧
    (∃ (l : Loc) (pos : Nat) (rest : List (Loc × Nat)) (x : Stripe) (s : State), s.fencedSrc 10 = false ∧ s.sir.recover = (l,
      pos) :: rest ∧ s.sirWorks = true ∧ s.bgCan l.die = true ∧ (s.mpage l.die l.block l.page).typ = 0x5A04 ∧
      s.parityRemade (packPage l.die l.block l.page) pos = false ∧
      s.te.stripes.find? (fun y => y.parity == some (packPage l.die l.block l.page) && !y.released) = some x) ∧
    (∃ (s : State), s.fencedSrc 10 = false ∧ s.bit F.SIR_CTL.SRAM_EN = true ∧ s.sir.sram.due ≤ s.tick.toNat) ∧
    (∃ (s : State), s.fencedSrc 10 = false ∧ s.sir.sram.on = true) ∧
    (∃ (s : State), s.fencedSrc 10 = false ∧ s.sir.refresh ≠ []) ∧
    (∃ (path : Path) (a : Fin 8) (s : State), s.isManager path = true ∧ s.chkErr a s.chkIdx = 0) ∧
    (∃ (path : Path) (a : Fin 8) (d : Nat) (c : Nat) (s : State), s.isManager path = true ∧ s.chkErr a s.chkIdx = 0 ∧
      s.lc.test.find? (fun x => x.1 == a.val && x.2.1 == s.chkIdx) = some (a.val, s.chkIdx, d, c)) ∧
    (∃ (path : Path) (s : State), s.isManager path = true ∧ s.lc.enWait = false ∧ s.lc.mapcEnWait = false) ∧
    (∃ (path : Path) (s : State), s.isManager path = true) ∧
    (∃ (path : Path) (s : State), s.isManager path = true) :=
  ⟨⟨{ w [] with te.media := [(0, MPage.erased)] }, by decide +kernel⟩,
⟨0, [1], { w [] with te.media := [(0, MPage.erased)], sir.scrub.on := true, sir.scrubTodo := [0, 1] }, by decide +kernel⟩,
⟨⟨0, 0, 0, 0⟩, 0, [], wStr, wParity, by decide +kernel⟩,
⟨w [], by decide +kernel⟩,
⟨{ w [] with sir.sram.on := true }, by decide +kernel⟩,
⟨{ w [] with sir.refresh := [(0, 0, [])] }, by decide +kernel⟩,
⟨.port 0, 7, w [], by decide +kernel⟩,
⟨.port 0, 7, 0, 0, { w [] with lc.test := [(7, 0, 0, 0)] }, by decide +kernel⟩,
⟨.port 0, w [], by decide +kernel⟩,
⟨.port 0, w [], by decide +kernel⟩,
⟨.port 0, w [], by decide +kernel⟩⟩

theorem witness_cipher_commands :
    (∃ (q : Derive) (rest : List Derive) (s : State), s.bit F.CE_STS.KAT_FAIL = false ∧ s.bit F.CE_STS.DRBG_OK = true ∧
      s.ce.derives = q :: rest ∧ s.ce.enables = [] ∧ q.why = .again ∧ s.ce.waits = [] ∧ s.rt.reqs = [] ∧ s.hp.serialQ = []) ∧
    (∃ (slot : Fin 4096) (s : State), (s.keySlot slot).st = 3 ∧ s.slotRefs slot = 0) ∧
    (∃ (n : Fin 16) (slot : Nat) (rot : Nat) (s : State), s.rt.reqs = [] ∧ s.te.progs = [] ∧ s.te.flushWait = false ∧
      s.ce.rotations = [(n.val, slot, rot)] ∧ slot < 4096) ∧
    (∃ (s : State), s.ce.entFailed = false ∧ s.ce.entFails < 2) ∧
    (∃ (s : State), s.ce.entFailed = false ∧ 2 ≤ s.ce.entFails ∧ s.coreUp = true ∧ (s.fcSrc 123).wire = false) ∧
    (∃ (s : State), s.ce.entFailed = true ∧ 15 ≤ s.ce.entPasses) ∧
    (∃ (s : State), s.bit F.CE_STS.DRBG_OK = true ∧ s.ce.entFailed = false) ∧
    (∃ (s : State), s.bit F.CE_STS.DRBG_OK = true ∧ s.ce.entFailed = true ∧ s.coreUp = true ∧ (s.fcSrc 124).wire = false) ∧
    (∃ (w : Fin 16) (x : Stream) (s : State), s.streamOf w = some x ∧ s.streamBy x.slot = some x ∧ s.exportDue x = true) ∧
    (∃ (port : Fin 8) (line : BitVec 38) (n : Fin 16) (x : Stream) (s : State), s.hasCredit port true = true ∧ s.booting = false ∧
      s.fenced = false ∧ s.roState = false ∧ s.rt.reqs = [] ∧ s.regionOf line.toNat = some n.val ∧
      s.get (F.RT_RG_CTL.PORT n) = port.val ∧ s.bit (F.RT_RG_CTL.XFER n) = true ∧ s.streamOf n = some x ∧
      s.streamBy x.slot = some x ∧ x.dir = 1 ∧ x.st = 1 ∧ s.windowTakes n (line.toNat - s.rgFirst n) = true ∧
      line.toNat - s.rgFirst n < s.frames n * frameLines ∧ (line.toNat - s.rgFirst n) % frameLines < 16384 ∧
      x.seen.contains (line.toNat - s.rgFirst n) = false) ∧
    (∃ (port : Fin 8) (line : BitVec 38) (d : Line) (n : Fin 16) (x : Stream) (s : State), s.hasCredit port true = true ∧
      s.booting = false ∧ s.fenced = false ∧ s.roState = false ∧ s.rt.reqs = [] ∧ s.regionOf line.toNat = some n.val ∧
      s.get (F.RT_RG_CTL.PORT n) = port.val ∧ s.bit (F.RT_RG_CTL.XFER n) = true ∧ s.streamOf n = some x ∧
      s.streamBy x.slot = some x ∧ x.dir = 1 ∧ x.st = 1 ∧ s.windowTakes n (line.toNat - s.rgFirst n) = true ∧
      line.toNat - s.rgFirst n < s.frames n * frameLines ∧ (line.toNat - s.rgFirst n) % frameLines = 16384 ∧ x.seen = [] ∧
      0 < trLen d ∧ trLen d ≤ 16384) ∧
    (∃ (w : Fin 16) (x : Stream) (k : Nat) (tr : Line) (rest : List (Nat × Line)) (s : State), s.rt.reqs = [] ∧
      s.streamOf w = some x ∧ s.streamBy x.slot = some x ∧ x.st = 1 ∧ 8 ≤ s.ce.seeds ∧ x.ready = (k, tr) :: rest ∧
      (s.xtsUse.commitLines true (s.chunkLines x k tr)).1 = (s.chunkLines x k tr).length ∧ trFinal tr = false) ∧
    (∃ (w : Fin 16) (x : Stream) (k : Nat) (tr : Line) (rest : List (Nat × Line)) (s : State), s.rt.reqs = [] ∧
      s.streamOf w = some x ∧ s.streamBy x.slot = some x ∧ x.st = 1 ∧ 8 ≤ s.ce.seeds ∧ x.ready = (k, tr) :: rest ∧
      (s.xtsUse.commitLines true (s.chunkLines x k tr)).1 = (s.chunkLines x k tr).length ∧ trFinal tr = true) ∧
    (∃ (w : Fin 16) (x : Stream) (k : Nat) (tr : Line) (rest : List (Nat × Line)) (s : State), s.rt.reqs = [] ∧
      s.streamOf w = some x ∧ s.streamBy x.slot = some x ∧ x.st = 1 ∧ 8 ≤ s.ce.seeds ∧ x.ready = (k, tr) :: rest ∧
      (s.xtsUse.commitLines true (s.chunkLines x k tr)).1 < (s.chunkLines x k tr).length) ∧
    (∃ (path : Path) (s : State), s.isManager path = true ∧ s.get F.CE_STS.LCS = 0 ∧ s.bit F.CE_STS.KAT_BUSY = false) :=
  ⟨⟨⟨0, .again, 0, none, 0⟩, [], { w [] with ce.derives := [⟨0, .again, 0, none, 0⟩] }, by decide +kernel⟩,
⟨0, { w [] with ce.slots := [(0, { KeySlot.free with st := 3, kind := 0 })] }, by decide +kernel⟩,
⟨0, 0, 0, { w [] with ce.rotations := [(0, 0, 0)] }, by decide +kernel⟩,
⟨w [], by decide +kernel⟩,
⟨{ w [] with ce.entFails := 2 }, by decide +kernel⟩,
⟨{ w [] with ce.entFailed := true, ce.entPasses := 15 }, by decide +kernel⟩,
⟨w [], by decide +kernel⟩,
⟨{ w [] with ce.entFailed := true }, by decide +kernel⟩,
⟨0, ⟨0, 0, 1, 0, 0, 0, 1, 0, 0, none, 0, 0, [], [], [], 0, 0, 0⟩,
     { w [(⟨R.CE_XF_AHEAD, 0, 4⟩, 1)] with ce.seeds := 8, ce.streams := [⟨0, 0, 1, 0, 0, 0, 1, 0, 0, none, 0, 0, [], [], [], 0, 0, 0⟩] }, by decide +kernel⟩,
⟨0, 16383, 0, ⟨0, 1, 1, 0, 0, 0, 1, 0, 0, none, 0, 0, [], [], [], 0, 0, 0⟩,
     { w [(F.RT_RG_CTL.XFER 0, 1)] with ce.streams := [⟨0, 1, 1, 0, 0, 0, 1, 0, 0, none, 0, 0, [], [], [], 0, 0, 0⟩] },
     by decide +kernel⟩,
⟨0, 16384, BitVec.ofNat 512 (16384 * 2 ^ 128), 0, ⟨0, 1, 1, 0, 0, 0, 1, 0, 0, none, 0, 0, [], [], [], 0, 0, 0⟩,
     { w [(F.RT_RG_CTL.XFER 0, 1)] with ce.streams := [⟨0, 1, 1, 0, 0, 0, 1, 0, 0, none, 0, 0, [], [], [], 0, 0, 0⟩] },
     by decide +kernel⟩,
⟨0, ⟨0, 1, 1, 0, 0, 0, 1, 0, 0, none, 0, 0, [], [], [(0, 2 ^ 128)], 0, 0, 0⟩, 0, 2 ^ 128, [],
     { w [(⟨R.TS_DB_CAP_LO, 0, 32⟩, 0xFFFFFFFF)] with te.budget := 2 ^ 30, ce.seeds := 8, ce.streams := [⟨0, 1, 1, 0, 0, 0, 1, 0, 0, none, 0, 0, [], [], [(0, 2 ^ 128)], 0, 0, 0⟩] }, by decide +kernel⟩,
⟨0, ⟨0, 1, 1, 0, 0, 0, 1, 0, 0, none, 0, 0, [], [], [(0, 2 ^ 160 + 2 ^ 128)], 0, 0, 0⟩, 0, 2 ^ 160 + 2 ^ 128, [],
     { w [(⟨R.TS_DB_CAP_LO, 0, 32⟩, 0xFFFFFFFF)] with te.budget := 2 ^ 30, ce.seeds := 8, ce.streams := [⟨0, 1, 1, 0, 0, 0, 1, 0, 0, none, 0, 0, [], [], [(0, 2 ^ 160 + 2 ^ 128)], 0, 0, 0⟩] }, by decide +kernel⟩,
⟨0, ⟨0, 1, 1, 0, 0, 0, 1, 0, 0, none, 0, 0, [], [], [(0, 2 ^ 128)], 0, 0, 0⟩, 0, 2 ^ 128, [],
     { w [] with ce.seeds := 8, ce.streams := [⟨0, 1, 1, 0, 0, 0, 1, 0, 0, none, 0, 0, [], [], [(0, 2 ^ 128)], 0, 0, 0⟩] },
     by decide +kernel⟩,
⟨.port 0, w [], by decide +kernel⟩⟩

theorem witness_cipher_commands_last_line :
    ∃ (port : Fin 8) (line : BitVec 38) (d : Line) (n : Fin 16) (x : Stream) (s : State), (s.hasCredit port true = true ∧
      s.booting = false ∧ s.fenced = false ∧ s.roState = false ∧ s.rt.reqs = [] ∧ s.regionOf line.toNat = some n.val ∧
      s.get (F.RT_RG_CTL.PORT n) = port.val ∧ s.bit (F.RT_RG_CTL.XFER n) = true ∧ s.streamOf n = some x ∧
      s.streamBy x.slot = some x ∧ x.dir = 1 ∧ x.st = 1 ∧ s.windowTakes n (line.toNat - s.rgFirst n) = true ∧
      line.toNat - s.rgFirst n < s.frames n * frameLines ∧ (line.toNat - s.rgFirst n) % frameLines = 16384 ∧
      (line.toNat - s.rgFirst n) / frameLines = 0 ∧ (∀ m, m < 32 → x.seen.contains (16385 + m) = true) ∧ x.lastOk = none) ∧ (∀ m,
      m < trLen d → x.seen.contains m = true) ∧ 0 < trLen d ∧ trLen d ≤ 16384 ∧ trFinal d = true ∧
      64 * trToff d + trLen d ≤ x.count ∧
      gcmTag (s.keySlot x.slot).key (s.keySlot x.slot).h (chunkIv (x.frameChunk (s.frames x.window) 0)) (chunkAad d (s.framePmap x 0)) (s.importCt x 0 (x.frameChunk (s.frames x.window) 0) (trLen d)) = trTag d :=
  ⟨0, 16384, wLast, 0, wImport, wImporting, by decide +kernel,
   by rw [wLast, wTrailer_len]; decide, by rw [wLast, wTrailer_len]; decide, by rw [wLast, wTrailer_len]; decide, wTrailer_final _,
   by rw [wLast, wTrailer_len, wTrailer_toff]; decide, wLast_tag⟩

theorem witness_attach_and_forward_packets :
    (∃ (s : State), s.carOn = true) ∧
    (∃ (h : Hello) (k : Nat) (s : State), s.carOn = true ∧ s.tw.hello = some h ∧ s.pairKey = some k ∧
      s.get F.CAR_STS.ATTACH_ERR = 0 ∧ s.bit F.CAR_STS.PAIRED = false ∧ s.tw.decided = false) ∧
    (∃ (s : State), s.carOn = true ∧ s.twinUp = true ∧ s.tw.twinState ≠ 3) ∧
    (∃ (s : State), s.carOn = true ∧ s.tw.waits = []) ∧
    (∃ (s : State), s.carOn = true ∧ s.bit F.CAR_STS.PAIRED = true ∧ s.bit F.CAR_STS.FENCED = false ∧ s.rt.reqs = [] ∧
      s.tw.cmds = [] ∧ s.te.discards = [] ∧ s.tw.src = none ∧ s.tw.tgt = none ∧ s.tw.mwr = []) ∧
    (∃ (line : BitVec 38) (n : Nat) (w : Nat) (s : State), s.carOn = true ∧ s.booting = false ∧ s.fenced = false ∧
      s.regionOf line.toNat = some n ∧ s.rt.reqs = [] ∧ s.lcOn = true ∧ s.lcFind line.toNat = some w ∧
      s.wayLost (lcSet line.toNat) w = false ∧ s.roState = false ∧ (s.way (lcSet line.toNat) w).d = true) ∧
    (∃ (tag : Nat) (r : Req) (s : State), (∃ p g, r.src = .host p g) ∧ s.carOn = true ∧ s.forwarded tag = some r ∧ r.kind = .read) ∧
    (∃ (tag : Nat) (r : Req) (s : State), (∃ p g, r.src = .host p g) ∧ s.carOn = true ∧ s.forwarded tag = some r ∧ r.kind ≠ .read) :=
  ⟨⟨w [(F.CAR_STS.LINK_UP, 1)], by decide +kernel⟩,
⟨⟨0, 0, 0, 0, 0, 0, 0, 0, 0, 0⟩, 0,
     { w [(F.CAR_STS.LINK_UP, 1)] with ce.slots := [(3, { KeySlot.free with st := 2 })], tw.hello := some ⟨0, 0, 0, 0, 0, 0, 0, 0, 0, 0⟩ }, by decide +kernel⟩,
⟨{ w [(F.CAR_STS.LINK_UP, 1), (F.CAR_STS.PAIRED, 1)] with tw.admitted := true }, by decide +kernel⟩,
⟨w [(F.CAR_STS.LINK_UP, 1)], by decide +kernel⟩,
⟨w [(F.CAR_STS.LINK_UP, 1), (F.CAR_STS.PAIRED, 1)], by decide +kernel⟩,
⟨0, 0, 0, { w [(F.CAR_STS.LINK_UP, 1)] with lc.ways := [(16 * lcSet 0, { Way.none with v := true, tag := lcTag 0, d := true })] }, by decide +kernel⟩,
⟨0, (Req.new 0 (.host 0 0) 0 (.read) (.forward) (some 0) 0 0),
     { w [(F.CAR_STS.LINK_UP, 1)] with rt.reqs := [(Req.new 0 (.host 0 0) 0 (.read) (.forward) (some 0) 0 0)] }, ⟨0, 0, rfl⟩,
     by decide +kernel⟩,
⟨0, (Req.new 0 (.host 0 0) 0 (.write 0) (.forward) (some 0) 0 0),
     { w [(F.CAR_STS.LINK_UP, 1)] with rt.reqs := [(Req.new 0 (.host 0 0) 0 (.write 0) (.forward) (some 0) 0 0)] }, ⟨0, 0, rfl⟩,
     by decide +kernel⟩⟩

theorem witness_mirror_repair_and_token_packets :
    (∃ (w : Nat) (line : BitVec 38) (s : State), s.carOn = true ∧ s.bit F.CAR_STS.PAIRED = true ∧ s.bit F.CAR_STS.FENCED = false ∧
      s.roState = false ∧ s.rt.reqs = [] ∧ s.tw.tgt = none ∧ s.lcOn = true ∧ s.lcFind line.toNat = some w ∧
      (s.way (lcSet line.toNat) w).d = true) ∧
    (∃ (s : State), s.carOn = true ∧ s.bit F.CAR_STS.PAIRED = true ∧ s.bit F.CAR_STS.FENCED = false ∧ s.tw.cmds = []) ∧
    (∃ (seq : Nat) (q : Nat) (r : Req) (d : Line) (s : State), (∃ p g, r.src = .host p g) ∧ s.carOn = true ∧ s.rt.reqs = [r] ∧
      r.stage = .mirror q ∧ q ≤ seq ∧ r.kind = .write d) ∧
    (∃ (tag : Nat) (id : Nat) (c : TwCmd) (s : State), s.carOn = true ∧ s.tw.cmds.find? (fun c => c.seq == tag) = some c ∧
      c.ack = none ∧ c.disc = some id ∧ s.hp.serialQ = []) ∧
    (∃ (w : Nat) (line : BitVec 38) (s : State), s.carOn = true ∧ s.bit F.CAR_STS.PAIRED = true ∧ s.rt.reqs = [] ∧ s.lcOn = true ∧
      s.lcFind line.toNat = some w ∧ s.wayLost (lcSet line.toNat) w = false ∧ (s.way (lcSet line.toNat) w).p = false) ∧
    (∃ (tag : Nat) (line : Nat) (loc : Option Loc) (b : Bool) (s : State), s.carOn = true ∧
      s.tw.reps.find? (fun x => x.1 == tag) = some (tag, .background line loc b) ∧ s.slotCounts line = true) ∧
    (∃ (s : State), s.carOn = true ∧ s.bit F.CAR_STS.PAIRED = true ∧ s.bit F.CAR_STS.TOKEN_HELD = false) ∧
    (∃ (s : State), s.carOn = true ∧ s.tw.tokMove = 1 ∧ s.tw.leaving = none) ∧
    (∃ (s : State), s.carOn = true ∧ s.tw.tokMove = 2) :=
  ⟨⟨0, 0, { w [(F.CAR_STS.LINK_UP, 1), (F.CAR_STS.PAIRED, 1)] with lc.ways := [(16 * lcSet 0, { Way.none with v := true, tag := lcTag 0, d := true })] }, by decide +kernel⟩,
⟨w [(F.CAR_STS.LINK_UP, 1), (F.CAR_STS.PAIRED, 1)], by decide +kernel⟩,
⟨0, 0, (Req.new 0 (.host 0 0) 0 (.write 0) (.mirror 0) (some 0) 0 0), 0,
     { w [(F.CAR_STS.LINK_UP, 1)] with rt.reqs := [(Req.new 0 (.host 0 0) 0 (.write 0) (.mirror 0) (some 0) 0 0)] }, ⟨0, 0, rfl⟩,
     by decide +kernel⟩,
⟨0, 0, ⟨0, .none, none, none, some 0⟩, { w [(F.CAR_STS.LINK_UP, 1)] with tw.cmds := [⟨0, .none, none, none, some 0⟩] },
     by decide +kernel⟩,
⟨0, 0, { w [(F.CAR_STS.LINK_UP, 1), (F.CAR_STS.PAIRED, 1)] with lc.ways := [(16 * lcSet 0, { Way.none with v := true, tag := lcTag 0, d := true })] }, by decide +kernel⟩,
⟨0, 0, none, false, { w [(F.CAR_STS.LINK_UP, 1)] with tw.reps := [(0, .background 0 none false)], te.map := [(0, ⟨2, false, false, none, 1⟩)], te.slots := [(1, ⟨some 0, [(0, 2)], [], none, 0, false, 0, 0, false, none⟩)] }, by decide +kernel⟩,
⟨w [(F.CAR_STS.LINK_UP, 1), (F.CAR_STS.PAIRED, 1)], by decide +kernel⟩,
⟨{ w [(F.CAR_STS.LINK_UP, 1), (F.CAR_STS.PAIRED, 1)] with tw.tokMove := 1 }, by decide +kernel⟩,
⟨{ w [(F.CAR_STS.LINK_UP, 1), (F.CAR_STS.PAIRED, 1)] with tw.tokMove := 2 }, by decide +kernel⟩⟩

theorem witness_resync_packets :
    (∃ (k : Nat) (slot : Nat) (s : State), s.carOn = true ∧ s.bit F.CAR_STS.PAIRED = true ∧ s.bit F.CAR_STS.FENCED = false ∧
      s.tw.tgt = none ∧ s.pairKey = some k ∧ s.keySlotFree false = some slot) ∧
    (∃ (x : RsTarget) (s : State), s.carOn = true ∧ s.tw.tgt = some x ∧ x.last = none) ∧
    (∃ (chunk : BitVec 64) (x : RsTarget) (c : RsChunk) (s : State), s.rt.reqs = [] ∧ s.bit F.CAR_STS.LINK_UP = true ∧
      s.tw.tgt = some x ∧ x.ready.find? (fun c => c.chunk == chunk.toNat) = some c ∧
      c.data.length ≤ c.placed + ((s.commitLines false (rsLines c)).1)) ∧
    (∃ (chunk : BitVec 64) (x : RsTarget) (c : RsChunk) (s : State), s.rt.reqs = [] ∧ s.bit F.CAR_STS.LINK_UP = true ∧
      s.tw.tgt = some x ∧ x.ready.find? (fun c => c.chunk == chunk.toNat) = some c ∧
      c.placed + ((s.commitLines false (rsLines c)).1) < c.data.length) ∧
    (∃ (chunk : BitVec 64) (n : Nat) (x : RsSource) (s : State), s.carOn = true ∧ s.tw.src = some x ∧ x.region = some n ∧
      chunk.toNat ≠ rsEndMark) ∧
    (∃ (s : State), s.carOn = true ∧ s.bit F.CAR_STS.PAIRED = true ∧ s.bit F.CAR_STS.TOKEN_HELD = true ∧ s.tw.admitted = true ∧
      s.tw.bmapOn = true) ∧
    (∃ (n : Fin 16) (x : RsTarget) (s : State), s.carOn = true ∧ s.tw.tgt = some x ∧ x.region = n.val ∧ x.ready = []) ∧
    (∃ (x : RsSource) (n : Nat) (s : State), s.fencedSrc 10 = false ∧ s.twinUp = true ∧ s.bit F.CAR_STS.LINK_UP = true ∧
      s.tw.src = some x ∧ x.region = some n ∧ x.ended = false ∧ s.rsNext x n = none ∧ x.sent = []) ∧
    (∃ (x : RsSource) (n : Nat) (s : State) (tile : _) (y : _), s.fencedSrc 10 = false ∧ s.twinUp = true ∧
      s.bit F.CAR_STS.LINK_UP = true ∧ s.tw.src = some x ∧ x.region = some n ∧ x.ended = false ∧ s.rsNext x n = some (tile, y) ∧
      s.linesCan (64 * tile) 64 = true) :=
  ⟨⟨0, 8, { w [(F.CAR_STS.LINK_UP, 1), (F.CAR_STS.PAIRED, 1)] with ce.slots := [(3, { KeySlot.free with st := 2 })] },
     by decide +kernel⟩,
⟨⟨0, 0, none, []⟩, { w [(F.CAR_STS.LINK_UP, 1)] with tw.tgt := some ⟨0, 0, none, []⟩ }, by decide +kernel⟩,
⟨0, ⟨0, 0, none, [⟨0, 0, 0, [], [], 0⟩]⟩, ⟨0, 0, 0, [], [], 0⟩,
     { w [(F.CAR_STS.LINK_UP, 1), (⟨R.TS_DB_CAP_LO, 0, 32⟩, 0xFFFFFFFF)] with te.budget := 2 ^ 30, tw.tgt := some ⟨0, 0, none, [⟨0, 0, 0, [], [], 0⟩]⟩ }, by decide +kernel⟩,
⟨0, ⟨0, 0, none, [⟨0, 0, 0, [0], [], 0⟩]⟩, ⟨0, 0, 0, [0], [], 0⟩,
     { w [(F.CAR_STS.LINK_UP, 1)] with tw.tgt := some ⟨0, 0, none, [⟨0, 0, 0, [0], [], 0⟩]⟩ }, by decide +kernel⟩,
⟨0, 0, ⟨[], some 0, 0, 0, [], false, 0, false, 0, 0⟩,
     { w [(F.CAR_STS.LINK_UP, 1)] with tw.src := some ⟨[], some 0, 0, 0, [], false, 0, false, 0, 0⟩ }, by decide +kernel⟩,
⟨{ w [(F.CAR_STS.LINK_UP, 1), (F.CAR_STS.PAIRED, 1), (F.CAR_STS.TOKEN_HELD, 1)] with tw.admitted := true, tw.bmapOn := true },
     by decide +kernel⟩,
⟨0, ⟨0, 0, none, []⟩, { w [(F.CAR_STS.LINK_UP, 1)] with tw.tgt := some ⟨0, 0, none, []⟩ }, by decide +kernel⟩,
⟨⟨[], some 0, 0, 0, [], false, 0, false, 0, 0⟩, 0,
     { w [(F.CAR_STS.LINK_UP, 1), (F.CAR_STS.PAIRED, 1)] with tw.admitted := true, tw.src := some ⟨[], some 0, 0, 0, [], false, 0, false, 0, 0⟩ }, by decide +kernel⟩,
⟨⟨[], some 0, 0, 0, [], false, 0, false, 0, 0⟩, 0,
     { w [(F.CAR_STS.LINK_UP, 1), (F.CAR_STS.PAIRED, 1)] with tw.admitted := true, tw.bmap := [0], tw.src := some ⟨[], some 0, 0, 0, [], false, 0, false, 0, 0⟩ }, 0, ⟨[], some 0, 0, 0, [], false, 0, false, 0, 0⟩, by decide +kernel⟩⟩

theorem witness_caravan_link_loss :
    (∃ (s : State), s.bit F.CAR_STS.LINK_UP = true ∧ (Instr.carIdleTo = .carRspTo → s.tw.mwr ≠ [] ∨ s.tw.tokMove ≠ 0) ∧
      (Instr.carIdleTo = .mcmdTimeout → s.tw.cmds.any (fun c => c.ack.isNone) = true)) ∧
    (∃ (tag : Nat) (line : Nat) (b : Bool) (s : State), s.tw.reps.find? (fun x => x.1 == tag) = some (tag, .background line none b) ∧
      s.slotCounts line = true) :=
  ⟨⟨w [(F.CAR_STS.LINK_UP, 1)], by decide +kernel⟩,
⟨0, 0, false, { w [] with tw.reps := [(0, .background 0 none false)], te.map := [(0, ⟨2, false, false, none, 1⟩)], te.slots := [(1, ⟨some 0, [(0, 2)], [], none, 0, false, 0, 0, false, none⟩)] }, by decide +kernel⟩⟩

theorem witness_failover_and_link_commands :
    (∃ (f : Failover) (s : State), s.tw.fo = some f ∧ s.rt.reqs = [] ∧ s.tw.cmds = [] ∧ s.te.discards = [] ∧ s.tw.src = none ∧
      s.tw.tgt = none ∧ s.tw.mwr = [] ∧ s.hp.serialQ = [] ∧ f.phase = .settle) ∧
    (∃ (f : Failover) (s : State), s.tw.fo = some f ∧ s.rt.reqs = [] ∧ s.tw.cmds = [] ∧ s.te.discards = [] ∧ s.tw.src = none ∧
      s.tw.tgt = none ∧ s.tw.mwr = [] ∧ s.hp.serialQ = [] ∧ f.phase = .window) ∧
    (∃ (f : Failover) (s : State), s.tw.fo = some f ∧ f.phase = .wait ∧ s.bit F.CAR_STS.FAILOVER = true ∧
      s.bit F.CAR_STS.TOKEN_LINE = true) ∧
    (∃ (s : State), s.tw.fo = none) ∧
    (∃ (f : Failover) (s : State), s.tw.fo = some f ∧ f.phase = .window ∧ s.bit F.CAR_STS.SIDE = false) ∧
    (∃ (s : State), s.coreUp = true ∧ s.bit F.FC_STS.CONTAINING = false) ∧
    (∃ (s : State), s.bit F.CAR_STS.LINK_UP = true) ∧
    (∃ (s : State), s.bit F.CAR_CFG.EN = true ∧ s.coreUp = true ∧ s.refclk = true ∧ s.bit F.CAR_STS.LINK_UP = false ∧
      s.bit F.CAR_STS.FAILOVER = false ∧ s.draining = false ∧ s.bit ⟨R.TST_PHY_CTL, 4, 1⟩ = false) ∧
    (∃ (s : State), s.bit F.CAR_CFG.EN = true ∧ s.coreUp = true ∧ s.bit F.CAR_STS.LINK_UP = false ∧ s.bit ⟨R.TST_PHY_CTL, 4,
      1⟩ = false) ∧
    (∃ (path : Path) (s : State), s.isManager path = true ∧ s.bit F.CAR_STS.PAIRED = false) ∧
    (∃ (s : State), s.tw.decided = false ∧ s.bit F.TE_STS.MAP_READY = true ∧ s.coreUp = true ∧ s.bit F.CAR_CFG.EN = false) :=
  ⟨⟨⟨0, .settle, 0⟩, { w [] with tw.fo := some ⟨0, .settle, 0⟩ }, by decide +kernel⟩,
⟨⟨0, .window, 0⟩, { w [] with tw.fo := some ⟨0, .window, 0⟩ }, by decide +kernel⟩,
⟨⟨0, .wait, 0⟩, { w [(F.CAR_STS.FAILOVER, 1), (F.CAR_STS.TOKEN_LINE, 1)] with tw.fo := some ⟨0, .wait, 0⟩ }, by decide +kernel⟩,
⟨w [], by decide +kernel⟩,
⟨⟨0, .window, 0⟩, { w [] with tw.fo := some ⟨0, .window, 0⟩ }, by decide +kernel⟩,
⟨w [], by decide +kernel⟩,
⟨w [(F.CAR_STS.LINK_UP, 1)], by decide +kernel⟩,
⟨w [(F.CAR_CFG.EN, 1)], by decide +kernel⟩,
⟨w [(F.CAR_CFG.EN, 1)], by decide +kernel⟩,
⟨.port 0, w [], by decide +kernel⟩,
⟨w [], by decide +kernel⟩⟩

theorem witness_admit_and_detach :
    (∃ (p : Fin 8) (s : State), s.serialFree p ∧ s.bit F.CAR_STS.FAILOVER = false ∧ s.bit F.CAR_STS.LINK_UP = true ∧
      s.bit F.CAR_STS.PAIRED = true ∧ s.tw.hello.isSome = true ∧ s.bit F.CAR_STS.FENCED = false ∧ s.bit F.CAR_STS.TOKEN_HELD = true ∧
      s.tw.admitted = false) ∧
    (∃ (p : Fin 8) (s : State), s.serialFree p ∧ s.bit F.CAR_STS.FAILOVER = false ∧ s.bit F.CAR_STS.LINK_UP = false ∧
      s.bit F.CAR_STS.FENCED = true ∧ s.bit F.CAR_STS.TOKEN_LINE = true) ∧
    (∃ (p : Fin 8) (side : Fin 2) (s : State), s.serialFree p ∧ s.bit F.CAR_STS.FAILOVER = false ∧ s.get F.CAR_STS.ATTACH_ERR = 4 ∧
      side.val ≠ s.get F.CAR_STS.SIDE ∧ s.rt.reqs = [] ∧ s.te.discards = [] ∧ s.tw.src = none ∧ s.tw.tgt = none) ∧
    (∃ (p : Fin 8) (side : Fin 2) (s : State), s.managerMail p ∧ s.hp.serial = none ∧ s.hp.serialQ = [] ∧ s.twinUp = true ∧
      s.bit F.CAR_STS.LINK_UP = true ∧ side.val = s.get F.CAR_STS.SIDE ∧ s.bit F.CAR_STS.TOKEN_HELD = true ∧ s.tw.tokMove = 0) :=
  ⟨⟨0, { w [(F.CAR_STS.LINK_UP, 1), (F.CAR_STS.PAIRED, 1), (F.CAR_STS.TOKEN_HELD, 1)] with tw.hello := some ⟨0, 0, 0, 0, 0, 0, 0, 0, 0, 0⟩ }, by unfold State.serialFree; unfold State.managerMail; decide +kernel⟩,
⟨0, w [(F.CAR_STS.FENCED, 1), (F.CAR_STS.TOKEN_LINE, 1)], by unfold State.serialFree; unfold State.managerMail; decide +kernel⟩,
⟨0, 1, w [(F.CAR_STS.ATTACH_ERR, 4)], by unfold State.serialFree; unfold State.managerMail; decide +kernel⟩,
⟨0, 0, { w [(F.CAR_STS.LINK_UP, 1), (F.CAR_STS.PAIRED, 1), (F.CAR_STS.TOKEN_HELD, 1)] with tw.admitted := true },
     by unfold State.managerMail; decide +kernel⟩⟩

theorem witness_host_link_commands :
    (∃ (p : Fin 8) (s : State), s.bit (F.HP_STS.PRESENT p) = true) ∧
    (∃ (p : Fin 8) (width : Fin 17) (rate : Fin 7) (s : State), s.bit (F.HP_STS.PRESENT p) = true ∧
      s.hp.perst.contains p.val = false ∧ s.bit (F.HP_STS.LINK_UP p) = false ∧ s.coreUp = true ∧ s.refclk = true ∧
      2 ≤ s.get F.BOOT_STS.PHASE ∧ 0 < width.val ∧ 0 < rate.val ∧ width.val ≤ s.portLanes p ∧ s.bit ⟨R.TST_PHY_CTL, p.val / 2,
      1⟩ = false ∧ s.hp.lost = []) ∧
    (∃ (p : Fin 8) (s : State), s.bit (F.HP_STS.LINK_UP p) = true) ∧
    (∃ (path : Path) (p : Fin 8) (s : State), s.isManager path = true ∧ s.bit (F.HP_STS.PRESENT p) = true) ∧
    (∃ (p : Fin 8) (k : Fin 8) (base : BitVec 64) (size : BitVec 64) (skip : BitVec 64) (ways : Nat) (gran : Nat) (s : State),
      s.bit (F.HP_STS.LINK_UP p) = true ∧ sget none s.hp.decs (8 * p.val + k.val) = none ∧ decWays.contains ways = true ∧
      decGrans.contains gran = true ∧ size ≠ 0 ∧ size.toNat % (2 ^ 28 * ways) = 0 ∧ base.toNat % 2 ^ 28 = 0 ∧
      s.dpaBelow p k + skip.toNat + size.toNat / ways ≤ s.capUnits * 2 ^ 28) ∧
    (∃ (p : Fin 8) (mem : Bool) (s : State), s.bit (ideFld p mem) = true ∧ s.coreUp = true ∧ (s.fcSrc (12 + p.val)).wire = false) ∧
    (∃ (p : Fin 8) (id : Nat) (mem : Bool) (s : State) (k : _), s.mail p = true ∧ s.session p id = true ∧
      sget none s.hp.ideKeys (2 * p.val + mem.toNat) = some k) ∧
    (∃ (p : Fin 8) (s : State), s.mail p = true ∧ (s.hp.spdm.filter (fun x => x.1 == p.val)).length < 4) ∧
    (∃ (p : Fin 8) (s : State) (id : _), s.mail p = true ∧ s.session p id = true) ∧
    (∃ (path : Path) (p : Fin 8) (s : State), s.ownOrManager path p = true) :=
  ⟨⟨0, w [], by decide +kernel⟩,
⟨0, 16, 6, w [(F.HP_STS.LINK_UP 0, 0)], by decide +kernel⟩,
⟨0, w [], by decide +kernel⟩,
⟨.port 0, 0, w [], by decide +kernel⟩,
⟨0, 0, 0, BitVec.ofNat 64 (2 ^ 28), 0, 1, 256, w [(⟨R.DEV_CAP, 0, 17⟩, 1)], by decide +kernel⟩,
⟨0, false, w [(F.HP_STS.IDE_IO 0, 1)], by decide +kernel⟩,
⟨0, 0, false, { w [] with hp.spdm := [(0, 0)], hp.ideKeys := [(0, some 0)] }, 0, by decide +kernel⟩,
⟨0, w [], by decide +kernel⟩,
⟨0, { w [] with hp.spdm := [(0, 0)] }, 0, by decide +kernel⟩,
⟨.port 0, 0, w [], by decide +kernel⟩⟩

theorem witness_reporting_mailbox_commands :
    (∃ (p : Fin 8) (s : State), s.hostMail p) ∧
    (∃ (p : Fin 8) (s : State), s.hostMail p ∧ s.bit F.TE_STS.PT_FULL = false) ∧
    (∃ (p : Fin 8) (s : State), s.managerMail p) ∧
    (∃ (p : Fin 8) (s : State), s.mail p = true) :=
  ⟨⟨0, w [], by unfold State.hostMail; decide +kernel⟩,
⟨0, w [], by unfold State.hostMail; decide +kernel⟩,
⟨0, w [], by unfold State.managerMail; decide +kernel⟩,
⟨0, w [], by decide +kernel⟩⟩

theorem witness_acting_mailbox_commands :
    (∃ (p : Fin 8) (log : Fin 5) (n : Nat) (s : State), s.hostMail p ∧ n ≤ (sget [] s.hp.logs (logKey p log)).length) ∧
    (∃ (p : Fin 8) (s : State), s.managerMail p ∧ sget [] s.hp.fwImg (1 - s.hp.fwNext % 2) ≠ []) ∧
    (∃ (p : Fin 8) (c : PstOp) (s : State), s.managerMail p ∧ s.pst.cur = some c ∧ c.job.isErase = false) ∧
    (∃ (p : Fin 8) (s : State), s.managerMail p ∧ s.bit F.CAR_STS.PAIRED = false) ∧
    (∃ (p : Fin 8) (line : BitVec 38) (w : Nat) (s : State), s.hostMail p ∧ s.sees p line.toNat = true ∧ s.twinUp = false ∧
      s.tw.cmds = [] ∧ s.lcFind line.toNat = some w ∧ s.rt.reqs = [] ∧ s.lcOn = true ∧
      (s.holding = false ∨ (s.way (lcSet line.toNat) w).d = true)) ∧
    (∃ (p : Fin 8) (line : BitVec 38) (count : BitVec 39) (s : State), s.hostMail p ∧ s.sees p line.toNat = true ∧ count ≠ 0 ∧
      s.hp.bg.contains p.val = false ∧ s.hp.muted = []) ∧
    (∃ (p : Fin 8) (x : BitVec 16 × BitVec 17) (n : Nat) (s : State), s.hostMail p ∧ s.extentOf p x = some n ∧ s.extent n ≠ 0) ∧
    (∃ (p : Fin 8) (x : BitVec 16 × BitVec 17) (n : Nat) (q : Nat) (s : State), s.hostMail p ∧ s.extentOf p x = some n ∧
      s.hp.releases = [(n, .mbox q)] ∧ q < 8 ∧ s.twinUp = false ∧ s.tw.cmds = [] ∧ s.hp.serialQ = [] ∧ s.ce.streams = []) ∧
    (∃ (p : Fin 8) (s : State), s.managerMail p ∧ s.bit F.CAR_STS.PAIRED = true) ∧
    (∃ (p : Fin 8) (s : State), s.managerMail p ∧ s.bit F.CAR_STS.PAIRED = false ∧ s.rt.reqs = []) :=
  ⟨⟨0, 0, 0, w [], by unfold State.hostMail; decide +kernel⟩,
⟨0, { w [] with hp.fwImg := [(1, [1])] }, by unfold State.managerMail; decide +kernel⟩,
⟨0, ⟨.counterInc 0, [], false, false⟩, { w [] with pst.cur := some ⟨.counterInc 0, [], false, false⟩ },
     by unfold State.managerMail; decide +kernel⟩,
⟨0, w [], by unfold State.managerMail; decide +kernel⟩,
⟨0, 0, 0, { w [] with lc.ways := [(16 * lcSet 0, { Way.none with v := true, tag := lcTag 0, d := true })] },
     by unfold State.hostMail; decide +kernel⟩,
⟨0, 0, 1, w [], by unfold State.hostMail; decide +kernel⟩,
⟨0, (0, 1), 0, { w [] with hp.ext := [(0, 1)] }, by unfold State.hostMail; decide +kernel⟩,
⟨0, (0, 1), 0, 0, { w [] with hp.ext := [(0, 1)], hp.releases := [(0, .mbox 0)] }, by unfold State.hostMail; decide +kernel⟩,
⟨0, w [(F.CAR_STS.LINK_UP, 1), (F.CAR_STS.PAIRED, 1)], by unfold State.managerMail; decide +kernel⟩,
⟨0, w [], by unfold State.managerMail; decide +kernel⟩⟩

theorem witness_region_commands :
    (∃ (p : Fin 8) (n : Fin 16) (s : State) (a : RgAttr), s.serialFree p ∧ s.bit (F.RT_RG_CTL.EN n) = false ∧
      s.get (F.HP_STS.ROLE (s.attrPort a)) ≠ 0 ∧ a.size ≠ 0 ∧ a.size.toNat ≤ 65536 ∧ a.xfer = false) ∧
    (∃ (p : Fin 8) (n : Fin 16) (s : State), s.serialFree p ∧ s.bit (F.RT_RG_CTL.EN n) = false ∧ s.retired = false ∧
      s.bit (F.RT_RG_CTL.XFER n) = false) ∧
    (∃ (p : Fin 8) (n : Fin 16) (s : State), s.serialFree p ∧ s.bit (F.RT_RG_CTL.EN n) = false ∧ s.rgSize n ≠ 0 ∧
      s.rgOverlap n = false ∧ s.bit (F.RT_RG_CTL.CTX_EN n) = false) ∧
    (∃ (p : Fin 8) (n : Fin 16) (s : State), s.serialFree p ∧ s.bit (F.RT_RG_CTL.EN n) = true ∧ s.hp.bg.contains p.val = false ∧
      s.hp.muted = [] ∧ s.ce.streams = []) ∧
    (∃ (n : Fin 16) (q : Nat) (s : State), s.hp.releases = [(n.val, .mbox q)] ∧ q < 8 ∧ s.tw.cmds = [] ∧ s.hp.serialQ = []) ∧
    (∃ (p : Fin 8) (n : Fin 16) (s : State), s.mail p = true ∧ (s.role p = 2 ∨ (s.role p = 1 ∧ s.get (F.RT_RG_CTL.PORT n) = p.val))) ∧
    (∃ (p : Fin 8) (s : State), s.managerMail p) :=
  ⟨⟨0, 1, w [], ⟨0, 65536, 0, 0, false, false, false, false, false⟩,
     by unfold State.serialFree; unfold State.managerMail; decide +kernel⟩,
⟨0, 1, w [], by unfold State.serialFree; unfold State.managerMail; decide +kernel⟩,
⟨0, 1, w [(⟨R.DEV_CAP, 0, 17⟩, 2), (⟨R.RT_RG_BASE 1, 0, 32⟩, 1), (⟨R.RT_RG_SIZE 1, 0, 32⟩, 1)],
     by unfold State.serialFree; unfold State.managerMail; decide +kernel⟩,
⟨0, 0, w [], by unfold State.serialFree; unfold State.managerMail; decide +kernel⟩,
⟨0, 7, { w [] with hp.releases := [(0, .mbox 7)] }, by decide +kernel⟩,
⟨0, 0, w [], by decide +kernel⟩,
⟨0, w [], by unfold State.managerMail; decide +kernel⟩⟩

theorem witness_context_and_discard_commands :
    (∃ (p : Fin 8) (label : BitVec 128) (k : Nat) (s : State), s.serialFree p ∧ s.retired = false ∧ s.dataSlot label.toNat = some k) ∧
    (∃ (p : Fin 8) (n : Fin 16) (k : Nat) (s : State), s.serialFree p ∧ s.retired = false ∧ s.bit (F.RT_RG_STS.CLOSING n) = false ∧
      s.bit (F.RT_RG_CTL.EN n) = true ∧ s.bit (F.RT_RG_CTL.CTX_EN n) = true ∧ epochOf (s.label n) ≠ 65535 ∧
      s.bit (F.CE_RG_SLOT.ROTATING n) = false ∧ s.ce.rotations = [] ∧ s.ce.derives = [] ∧ s.keySlotFree true = some k) ∧
    (∃ (p : Fin 8) (first : BitVec 32) (count : BitVec 33) (n : Nat) (s : State), s.managerMail p ∧
      s.rangeRegion first.toNat count.toNat = some n ∧ s.bit (F.RT_RG_CTL.XFER n) = false ∧ s.bit (F.RT_RG_CTL.DISCARD n) = true ∧
      s.hp.bg.contains p.val = false ∧ s.twinUp = false) ∧
    (∃ (d : Discard) (s : State), s.te.discards = [d] ∧ d.secure = true ∧ d.pass = true ∧ d.accepted = false ∧ d.twinWait = true ∧
      s.rt.reqs = [] ∧ ((s.discardRange d.first d.count true).journalFlush).te.flushWait = false) ∧
    (∃ (p : Fin 8) (s : State), s.managerMail p ∧ s.bit F.TE_UPK_STS.CRITICAL = false ∧ s.bit F.TE_STS.SEQ_RO = false) ∧
    (∃ (p : Fin 8) (r : BitVec 16) (s : State), s.serialFree p ∧ ((List.range 8).filter (fun q => roleOf r q == 2)).length = 1 ∧
      (∀ q, q < 8 → roleOf r q ≠ 3) ∧ (∀ n, n < 16 → s.bit (F.RT_RG_CTL.EN n) = false)) ∧
    (∃ (p : Fin 8) (s : State), s.serialFree p ∧ s.get F.CE_STS.LCS = 0) ∧
    (∃ (p : Fin 8) (s : State), s.serialFree p ∧ s.get F.CE_STS.LCS < 2 ∧ s.ce.streams = []) :=
  ⟨⟨0, 0, 8, { w [] with ce.slots := [(8, { KeySlot.free with st := 2, kind := 4 })] },
     by unfold State.serialFree; unfold State.managerMail; decide +kernel⟩,
⟨0, 0, 8, w [(F.RT_RG_CTL.CTX_EN 0, 1)], by unfold State.serialFree; unfold State.managerMail; decide +kernel⟩,
⟨0, 0, 1, 0, w [(F.RT_RG_CTL.DISCARD 0, 1)], by unfold State.managerMail; decide +kernel⟩,
⟨⟨0, 0, 1, true, .none, none, true, false, true, [], 0⟩,
     { w [] with te.fmt := [0], te.discards := [⟨0, 0, 1, true, .none, none, true, false, true, [], 0⟩] }, by decide +kernel⟩,
⟨0, w [], by unfold State.managerMail; decide +kernel⟩,
⟨0, 2, w [(F.RT_RG_CTL.EN 0, 0)], by unfold State.serialFree; unfold State.managerMail; decide +kernel⟩,
⟨0, w [], by unfold State.serialFree; unfold State.managerMail; decide +kernel⟩,
⟨0, w [], by unfold State.serialFree; unfold State.managerMail; decide +kernel⟩⟩

theorem witness_key_stream_and_book_commands :
    (∃ (p : Fin 8) (id : Nat) (k : Nat) (s : State), s.managerMail p ∧ s.session p id = true ∧ s.retired = false ∧
      s.keySlotFree false = some k) ∧
    (∃ (p : Fin 8) (w : Fin 16) (slot : Fin 4096) (first : BitVec 38) (count : BitVec 39) (k : Nat) (s : State), s.managerMail p ∧
      s.retired = false ∧ s.bit F.CE_STS.DRBG_OK = true ∧ s.bit (F.RT_RG_CTL.EN w) = true ∧ s.bit (F.RT_RG_CTL.XFER w) = true ∧
      (s.keySlot slot).kind = 5 ∧ (s.keySlot slot).st = 2 ∧ s.streamRange p first.toNat count.toNat = true ∧
      s.keySlotFree false = some k) ∧
    (∃ (p : Fin 8) (h : Fin 4096) (x : Stream) (s : State) (k : _), s.managerMail p ∧ s.streamBy h = some x ∧ x.st = 3 ∧
      s.hp.bg.contains p.val = false ∧ s.windowBusy x.window = false ∧ s.streamPlace = some k) ∧
    (∃ (p : Fin 8) (h : Fin 4096) (x : Stream) (s : State) (wr : _), s.managerMail p ∧ s.streamBy h = some x ∧ x.st = 1 ∧
      s.formOk wr = true ∧ (s.ce.streams.filter (fun (y : Stream) => y.st == 2)).length < 64) ∧
    (∃ (p : Fin 8) (h : Fin 4096) (x : Stream) (s : State) (rec : List Word) (ws : List Nat) (k : Nat), s.managerMail p ∧
      s.streamBy h = some x ∧ (rec.length = 544 ∨ rec.length = 546) ∧ s.formOk (rec.length == 546) = true ∧
      s.recordOpen rec = some ws ∧
      ws.getD 0 0 + 2 ^ 32 * ws.getD 1 0 + 2 ^ 64 * ws.getD 2 0 + 2 ^ 96 * ws.getD 3 0 = s.ce.bootNonce ∧
      ws.getD 5 0 % 4096 = h.val ∧ ws.getD 6 0 = x.saves ∧ x.st = 2 ∧ s.windowBusy x.window = false ∧
      s.hp.bg.contains p.val = false ∧ s.streamPlace = some k) ∧
    (∃ (p : Fin 8) (s : State), s.managerMail p) ∧
    (∃ (p : Fin 8) (last : Fin 8192) (s : State), s.managerMail p ∧ s.hp.bg.contains p.val = false ∧ s.rb.clearing = none ∧
      ((last.val + 8192 - s.num R.RB_HEAD % 8192) % 8192 + 1) ≤ s.num R.RB_COUNT ∧
      8 ≤ ((last.val + 8192 - s.num R.RB_HEAD % 8192) % 8192 + 1)) ∧
    (∃ (p : Fin 8) (addr : BitVec 17) (count : Fin 2049) (s : State), s.managerMail p ∧ addr.toNat + count.val ≤ 2 ^ 17) ∧
    (∃ (p : Fin 8) (addr : BitVec 17) (ws : List Word) (d : List Word) (c : PstOp) (s : State), s.managerMail p ∧
      1446 ≤ addr.toNat / 64 ∧ addr.toNat / 64 ≤ 1461 ∧ ws ≠ [] ∧ ws.length ≤ 16 ∧ addr.toNat % 64 + ws.length ≤ 62 ∧
      s.configOf ((addr.toNat / 64 - 1446) / 2) = some d ∧ s.pst.cur = some c ∧ c.job.isErase = false) :=
  ⟨⟨0, 0, 8, { w [] with hp.spdm := [(0, 0)] }, by unfold State.managerMail; decide +kernel⟩,
⟨0, 0, 8, BitVec.ofNat 38 (2 ^ 22), 1, 9,
     { w [(F.RT_RG_CTL.XFER 0, 1), (⟨R.RT_RG_BASE 1, 0, 32⟩, 1), (⟨R.RT_RG_SIZE 1, 0, 32⟩, 1), (F.RT_RG_CTL.EN 1, 1)] with ce.slots := [(8, { KeySlot.free with st := 2, kind := 5 })] }, by unfold State.managerMail; decide +kernel⟩,
⟨0, 0, ⟨0, 0, 3, 0, 0, 0, 1, 0, 0, none, 0, 0, [], [], [], 0, 0, 0⟩,
     { w [] with ce.streams := [⟨0, 0, 3, 0, 0, 0, 1, 0, 0, none, 0, 0, [], [], [], 0, 0, 0⟩] }, 0,
     by unfold State.managerMail; decide +kernel⟩,
⟨0, 0, ⟨0, 0, 1, 0, 0, 0, 1, 0, 0, none, 0, 0, [], [], [], 0, 0, 0⟩,
     { w [] with ce.streams := [⟨0, 0, 1, 0, 0, 0, 1, 0, 0, none, 0, 0, [], [], [], 0, 0, 0⟩] }, true,
     by unfold State.managerMail; decide +kernel⟩,
⟨0, 0, ⟨0, 0, 2, 0, 0, 0, 1, 0, 0, none, 0, 0, [], [], [], 0, 0, 0⟩,
     { w [] with ce.streams := [⟨0, 0, 2, 0, 0, 0, 1, 0, 0, none, 0, 0, [], [], [], 0, 0, 0⟩] }, List.replicate 544 0,
     List.replicate 544 0, 0, by unfold State.managerMail; decide +kernel⟩,
⟨0, w [], by unfold State.managerMail; decide +kernel⟩,
⟨0, 7, w [(⟨R.RB_COUNT, 0, 32⟩, 8)], by unfold State.managerMail; decide +kernel⟩,
⟨0, 0x1F800, 2048, w [], by unfold State.managerMail; decide +kernel⟩,
⟨0, BitVec.ofNat 17 (64 * 1461 + 46), List.replicate 16 0, (wCfg.configOf 7).getD [], ⟨.counterInc 0, [], false, false⟩, wCfg,
     by unfold State.managerMail; decide +kernel⟩⟩

theorem witness_dram_commands :
    (∃ (ch : Fin 6) (s : State), s.coreUp = true ∧ s.get F.BOOT_STS.PHASE = 2 ∧ s.bit (F.DC_STS.TRAINED ch) = false ∧
      s.bit (F.DC_STS.FAILED ch) = false ∧ 24 * capOf s.dieCount ≤ s.dramGiB * 4096) ∧
    (∃ (ch : Fin 6) (s : State), s.coreUp = true ∧ s.get F.BOOT_STS.PHASE = 2 ∧ s.bit (F.DC_STS.TRAINED ch) = false ∧
      s.bit (F.DC_STS.FAILED ch) = false ∧ s.dc.again.contains ch.val = false) ∧
    (∃ (g : Fin 2) (b : Fin 32) (s : State), s.coreUp = true ∧ s.bit (F.DC_STS.TRAINED (sget 0 s.dc.turn (g.val * 32 + b.val))) = true) ∧
    (∃ (ch : Fin 6) (s : State), s.coreUp = true ∧ s.bit (F.DC_STS.TRAINED ch) = true ∧
      sget 0 s.dc.hotAt ch + 100000000 ≤ s.tick.toNat) ∧
    (∃ (ch : Fin 6) (s : State), s.coreUp = true ∧ s.bit (F.DC_STS.TRAINED ch) = true ∧ s.bit (F.DC_STS.FAILED ch) = false ∧
      s.bit (F.DC_CTL.SCRUB_EN ch) = true) ∧
    (∃ (ch : Fin 6) (s : State), s.coreUp = true ∧ s.bit (F.DC_STS.TRAINED ch) = true ∧ s.bit (F.DC_STS.FAILED ch) = false ∧
      (s.fcSrc (20 + ch.val)).wire = false) :=
  ⟨⟨0, w [(F.BOOT_STS.PHASE, 2)], by decide +kernel⟩,
⟨0, w [(F.BOOT_STS.PHASE, 2)], by decide +kernel⟩,
⟨0, 0, w [(F.DC_STS.TRAINED 0, 1)], by decide +kernel⟩,
⟨0, { w [(F.DC_STS.TRAINED 0, 1)] with tick := 100000000 }, by decide +kernel⟩,
⟨0, w [(F.DC_STS.TRAINED 0, 1), (F.DC_CTL.SCRUB_EN 0, 1)], by decide +kernel⟩,
⟨0, w [(F.DC_STS.TRAINED 0, 1)], by decide +kernel⟩⟩

theorem witness_power_request_and_power_up_commands :
    (∃ (s : State), s.dom.aon = true ∧ (s.phase = Ph.on ∨ s.phase = Ph.dischWait)) ∧
    (∃ (s : State), s.dom.aon = true ∧ s.phase ∈ [Ph.shutdown, Ph.drain, Ph.down, Ph.minOff, Ph.lockout]) ∧
    (∃ (s : State), s.dom.aon = true ∧ s.phase = Ph.up) ∧
    (∃ (path : Path) (s : State), s.dom.aon = true ∧ s.mgrOrOob path = true ∧ (s.phase = Ph.on ∨ s.phase = Ph.dischWait)) ∧
    (∃ (path : Path) (s : State), s.dom.aon = true ∧ s.mgrOrOob path = true ∧ s.phase ∈ [Ph.shutdown, Ph.drain, Ph.down, Ph.minOff,
      Ph.lockout]) ∧
    (∃ (path : Path) (s : State), s.dom.aon = true ∧ s.mgrOrOob path = true ∧ s.phase = Ph.up) ∧
    (∃ (path : Path) (s : State), s.dom.aon = true ∧ s.mgrOrOob path = true ∧ s.phase = Ph.dischWait) ∧
    (∃ (path : Path) (s : State), s.mgrOrOob path = true ∧ s.phase = Ph.lockout ∧ s.bit F.PSQ_STS.IN_GOOD = false ∧
      s.get F.PSQ_STS.LOCK_CAUSE ∈ [1, 2, 4]) ∧
    (∃ (path : Path) (s : State), s.mgrOrOob path = true ∧ s.phase = Ph.lockout ∧ s.bit F.PSQ_STS.IN_GOOD = false ∧
      s.get F.PSQ_STS.LOCK_CAUSE = 3) ∧
    (∃ (s : State), s.dom.aon = true ∧ s.bit F.PSQ_STS.IN_GOOD = true ∧ s.phase = Ph.drain) ∧
    (∃ (s : State), s.dom.aon = true ∧ s.bit F.PSQ_STS.IN_GOOD = true ∧ s.phase ∈ [Ph.off, Ph.down, Ph.minOff, Ph.dischWait,
      Ph.lockout]) ∧
    (∃ (s : State), s.dom.aon = true ∧ (s.phase ≠ Ph.off ∨ s.wantUp = false)) ∧
    (∃ (s : State), s.dom.aon = true ∧ s.phase = Ph.dischWait ∧ s.allLow = true ∧ s.bit F.PSQ_STS.IN_GOOD = true) ∧
    (∃ (s : State), s.phase = Ph.dischWait ∧ s.allLow = false) ∧
    (∃ (s : State), s.phase = Ph.up ∧ (s.get F.PSQ_STS.STEP) < s.entCount ∧ s.entCount ≤ 16 ∧ (s.get F.PSQ_STS.STEP) ∉ s.psq.on) ∧
    (∃ (s : State), s.phase = Ph.up ∧ (s.get F.PSQ_STS.STEP) < s.entCount ∧ s.entCount ≤ 16 ∧ (s.get F.PSQ_STS.STEP) ∈ s.psq.on ∧
      s.psq.good = (s.get F.PSQ_STS.STEP) ∧ s.psq.offReq = false ∧ (s.get F.PSQ_STS.STEP) + 1 < s.entCount) ∧
    (∃ (s : State), s.phase = Ph.up ∧ (s.get F.PSQ_STS.STEP) < s.entCount ∧ s.entCount ≤ 16 ∧ (s.get F.PSQ_STS.STEP) ∈ s.psq.on ∧
      s.psq.good = (s.get F.PSQ_STS.STEP) ∧ s.psq.offReq = false ∧ (s.get F.PSQ_STS.STEP) + 1 = s.entCount ∧ s.boot.rstN = true) :=
  ⟨⟨w [], by decide +kernel⟩,
⟨w [(F.PSQ_STS.PHASE, 8)], by decide +kernel⟩,
⟨w [(F.PSQ_STS.PHASE, 1)], by decide +kernel⟩,
⟨.port 0, w [(F.PSQ_STS.PHASE, 7)], by decide +kernel⟩,
⟨.port 0, w [(F.PSQ_STS.PHASE, 8)], by decide +kernel⟩,
⟨.port 0, w [(F.PSQ_STS.PHASE, 1)], by decide +kernel⟩,
⟨.port 0, w [(F.PSQ_STS.PHASE, 7)], by decide +kernel⟩,
⟨.port 0, w [(F.PSQ_STS.PHASE, 8), (F.PSQ_STS.IN_GOOD, 0), (F.PSQ_STS.LOCK_CAUSE, 1)], by decide +kernel⟩,
⟨.port 0, w [(F.PSQ_STS.PHASE, 8), (F.PSQ_STS.IN_GOOD, 0), (F.PSQ_STS.LOCK_CAUSE, 3)], by decide +kernel⟩,
⟨w [(F.PSQ_STS.PHASE, 4)], by decide +kernel⟩,
⟨w [(F.PSQ_STS.PHASE, 0)], by decide +kernel⟩,
⟨w [], by decide +kernel⟩,
⟨w [(F.PSQ_STS.PHASE, 7)], by decide +kernel⟩,
⟨{ w [(F.PSQ_STS.PHASE, 7)] with psq.table := [0, 2 ^ 13, 0] }, by decide +kernel⟩,
⟨{ w [(F.PSQ_STS.PHASE, 1)] with psq.table := [0, 0, 0] }, by decide +kernel⟩,
⟨{ w [(F.PSQ_STS.PHASE, 1)] with psq.table := [0, 0, 0, 0, 0, 0], psq.on := [0] }, by decide +kernel⟩,
⟨{ w [(F.PSQ_STS.PHASE, 1)] with psq.table := [0, 0, 0], psq.on := [0], boot.rstN := true }, by decide +kernel⟩⟩

theorem witness_rail_and_margin_commands :
    (∃ (s : State), s.phase = Ph.up ∧ (s.get F.PSQ_STS.STEP) ∈ s.psq.on ∧ s.psq.good = (s.get F.PSQ_STS.STEP) ∧ s.psq.offReq = false) ∧
    (∃ (s : State) (e : Nat), s.phase = Ph.down ∧ s.psq.on.getLast? = some e ∧ e < 16 ∧ s.coreUp = false) ∧
    (∃ (s : State), s.phase = Ph.minOff ∧ s.psq.lock = 0 ∧ s.bit F.PSQ_STS.IN_GOOD = false) ∧
    (∃ (s : State), s.phase = Ph.minOff ∧ (s.psq.lock = 1 ∨ s.psq.lock = 3)) ∧
    (∃ (pg : Fin 16) (s : State), (s.psq.on.find? (fun e => s.entPgUse e && s.entPg e == pg.val && decide (e < s.psq.good))) = none) ∧
    (∃ (pg : Fin 16) (s : State) (e : _),
      (s.psq.on.find? (fun e => s.entPgUse e && s.entPg e == pg.val && decide (e < s.psq.good))) = some e ∧ e < 16 ∧
      s.phase = Ph.on ∧ s.entCrit e = false ∧ s.entPmb e = false ∧ s.entVcore e = false ∧ s.psq.marg = [] ∧ s.coreUp = true ∧
      (s.fcSrc 2).wire = false) ∧
    (∃ (path : Path) (s : State), s.mgrOrOob path = true ∧ s.phase ≠ Ph.on) ∧
    (∃ (path : Path) (entry : Fin 16) (s : State), s.mgrOrOob path = true ∧ s.phase = Ph.on ∧ s.draining = false ∧
      entry.val < s.entCount ∧ s.entVcore entry = true ∧ s.entPmb entry = false) ∧
    (∃ (path : Path) (entry : Fin 16) (off : BitVec 8) (s : State), s.mgrOrOob path = true ∧ s.phase = Ph.on ∧ s.draining = false ∧
      entry.val < s.entCount ∧ s.entVcore entry = false ∧ s.entPmb entry = true ∧ entry.val ∈ s.psq.linear ∧
      0 < (max (-(s.entMarg entry : Int)) (min (s.entMarg entry : Int) off.toInt))) ∧
    (∃ (path : Path) (s : State), s.mgrOrOob path = true ∧ s.psq.marg = []) ∧
    (∃ (path : Path) (s : State) (e : Nat) (o : Int), s.mgrOrOob path = true ∧ s.psq.marg = [(e, o)] ∧ s.entVcore e = false) ∧
    (∃ (s : State), s.psq.marg = []) ∧
    (∃ (s : State) (e : Nat) (o : Int), s.psq.marg = [(e, o)] ∧ s.entVcore e = true) ∧
    (∃ (op : PmbOp) (rest : List PmbOp) (s : State), s.psq.pmb = op :: rest ∧ s.psq.pmbTry = false) ∧
    (∃ (op : PmbOp) (rest : List PmbOp) (s : State), s.psq.pmb = op :: rest ∧ s.psq.pmbTry = true ∧ s.coreUp = true ∧
      (s.fcSrc 2).wire = false) :=
  ⟨⟨{ w [(F.PSQ_STS.PHASE, 1)] with psq.on := [0] }, by decide +kernel⟩,
⟨{ w [(F.PSQ_STS.PHASE, 5)] with psq.on := [15], dom := ⟨true, true, false, false⟩ }, 15, by decide +kernel⟩,
⟨w [(F.PSQ_STS.PHASE, 6), (F.PSQ_STS.IN_GOOD, 0)], by decide +kernel⟩,
⟨{ w [(F.PSQ_STS.PHASE, 6)] with psq.lock := 1 }, by decide +kernel⟩,
⟨0, w [], by decide +kernel⟩,
⟨0, { w [] with psq.on := [0], psq.good := 1, psq.table := [2 ^ 8, 0, 0] }, 0, by decide +kernel⟩,
⟨.port 0, w [(F.PSQ_STS.PHASE, 1)], by decide +kernel⟩,
⟨.port 0, 0, { w [] with psq.table := [2 ^ 11, 0, 0] }, by decide +kernel⟩,
⟨.port 0, 0, 1, { w [] with psq.table := [2 ^ 10, 0, 2 ^ 24], psq.linear := [0] }, by decide +kernel⟩,
⟨.port 0, w [], by decide +kernel⟩,
⟨.port 0, { w [] with psq.marg := [(0, 0)] }, 0, 0, by decide +kernel⟩,
⟨w [], by decide +kernel⟩,
⟨{ w [] with psq.marg := [(0, 0)], psq.table := [2 ^ 11, 0, 0] }, 0, 0, by decide +kernel⟩,
⟨⟨0, 0, 0⟩, [], { w [] with psq.pmb := [⟨0, 0, 0⟩] }, by decide +kernel⟩,
⟨⟨0, 0, 0⟩, [], { w [] with psq.pmb := [⟨0, 0, 0⟩], psq.pmbTry := true }, by decide +kernel⟩⟩

theorem witness_cistern_and_drain_commands :
    (∃ (sum : BitVec 16) (s : State), s.dom.aon = true ∧
      s.num R.CIS_VMIN % 65536 ≤ (min 65535 (sum.toNat * (s.num R.CIS_DIV % 65536) / 65536))) ∧
    (∃ (s : State), s.dom.aon = true ∧ (s.phase = Ph.up ∨ s.phase = Ph.on ∨ s.phase = Ph.shutdown) ∧ s.coreUp = false) ∧
    (∃ (path : Path) (s : State), s.dom.aon = true ∧ s.mgrOrOob path = true ∧ s.psq.test = none ∧ s.cisMay = true) ∧
    (∃ (path : Path) (s : State), s.dom.aon = true ∧ s.mgrOrOob path = true ∧ s.psq.test = none ∧ s.cisMay = false ∧
      s.bit F.CIS_STS.DEFER = false) ∧
    (∃ (s : State), s.dom.aon = true ∧ s.psq.test = none ∧ s.psq.firstTest = false ∧ s.cisMay = false ∧
      s.bit F.CIS_STS.DEFER = false ∧ s.num R.CIS_V % 65536 < s.num R.CIS_VFULL % 65536) ∧
    (∃ (s : State), s.dom.aon = true ∧ s.psq.test = none ∧ s.cisMay = true ∧ s.bit F.CIS_STS.DEFER = true) ∧
    (∃ (s : State), s.dom.aon = true ∧ s.psq.test = none ∧ s.cisMay = true ∧ s.psq.again = true) ∧
    (∃ (x : CisTest) (s : State), s.psq.test = some x ∧ x.step = 1) ∧
    (∃ (x : CisTest) (s : State), s.psq.test = some x ∧ x.step = 2) ∧
    (∃ (x : CisTest) (s : State), s.psq.test = some x ∧ x.step = 3) ∧
    (∃ (x : CisTest) (s : State), s.psq.test = some x ∧ x.step = 4) ∧
    (∃ (s : State), s.rt.reqs = [] ∧ s.te.progs = [] ∧ s.phase = Ph.drain ∧ s.psq.step = 2) ∧
    (∃ (s : State), s.rt.reqs = [] ∧ s.te.progs = [] ∧ s.phase = Ph.drain ∧ s.psq.step = 3) ∧
    (∃ (s : State), s.rt.reqs = [] ∧ s.te.progs = [] ∧ s.phase = Ph.shutdown ∧ s.psq.step = 1) ∧
    (∃ (s : State), s.phase = Ph.drain ∧ s.psq.thermLim = true ∧ s.psq.trigger ≠ 3 ∧ 2 ≤ s.psq.step ∧ s.psq.step ≤ 6) :=
  ⟨⟨0, w [], by decide +kernel⟩,
⟨{ w [(F.PSQ_STS.PHASE, 3)] with dom := ⟨true, true, false, false⟩ }, by decide +kernel⟩,
⟨.port 0, w [], by decide +kernel⟩,
⟨.port 0, w [(F.PSQ_STS.IN_GOOD, 0)], by decide +kernel⟩,
⟨w [(F.PSQ_STS.IN_GOOD, 0), (⟨R.CIS_VFULL, 0, 16⟩, 1)], by decide +kernel⟩,
⟨w [(F.CIS_STS.DEFER, 1)], by decide +kernel⟩,
⟨{ w [] with psq.again := true }, by decide +kernel⟩,
⟨⟨1, 0, 0, 0, false⟩, { w [] with psq.test := some ⟨1, 0, 0, 0, false⟩ }, by decide +kernel⟩,
⟨⟨2, 0, 0, 0, false⟩, { w [] with psq.test := some ⟨2, 0, 0, 0, false⟩ }, by decide +kernel⟩,
⟨⟨3, 0, 0, 0, false⟩, { w [] with psq.test := some ⟨3, 0, 0, 0, false⟩ }, by decide +kernel⟩,
⟨⟨4, 0, 0, 0, false⟩, { w [] with psq.test := some ⟨4, 0, 0, 0, false⟩ }, by decide +kernel⟩,
⟨{ w [(F.PSQ_STS.PHASE, 4)] with psq.step := 2 }, by decide +kernel⟩,
⟨{ w [(F.PSQ_STS.PHASE, 4)] with psq.step := 3 }, by decide +kernel⟩,
⟨{ w [(F.PSQ_STS.PHASE, 3)] with psq.step := 1 }, by decide +kernel⟩,
⟨{ w [(F.PSQ_STS.PHASE, 4)] with psq.step := 6, psq.thermLim := true }, by decide +kernel⟩⟩

theorem witness_monitor_commands :
    (∃ (ch : Fin 64) (s : State), s.dom.aon = true ∧ 24 ≤ ch.val ∧ ch.val < 56 ∧ (s.phase < 2 ∨ 4 < s.phase)) ∧
    (∃ (ch : Fin 64) (s : State), s.dom.aon = true ∧ 56 ≤ ch.val ∧ ch.val < 63) ∧
    (∃ (ch : Fin 64) (s : State), s.dom.aon = true ∧ (16 ≤ ch.val ∧ ch.val < 24 ∨ ch.val < 16 ∧ s.hk.hotOn = true ∧
      s.hk.tripOn = true)) ∧
    (∃ (ch : Fin 64) (s : State), s.dom.aon = true ∧ 16 ≤ ch.val ∧ ch.val < 24) ∧
    (∃ (ch : Fin 64) (s : State), s.dom.aon = true ∧ ch.val < 16) ∧
    (∃ (ch : Fin 64) (s : State), s.dom.aon = true ∧ ch.val = 63) ∧
    (∃ (s : State), 125 < s.hk.below ∧ s.thermWant < s.get F.HK_STS.THERM_LVL) ∧
    (∃ (s : State), 4 ≤ s.hk.rounds ∧ s.bit F.HK_STS.ARMED = false) ∧
    (∃ (s : State), s.hk.rounds < 4) ∧
    (∃ (tb : List Word) (s : State), s.bit F.HK_STS.RST_WAIT = true ∧ s.phase = Ph.off ∧ 2 ≤ s.sensLeft ∧
      s.bit F.PSQ_STS.IN_GOOD = true ∧ s.bit F.PSQ_STS.MOD_EN = true ∧ s.psq.offSince = false ∧ s.readTable = some tb ∧
      3750 ≤ s.hk.cool) ∧
    (∃ (tb : List Word) (s : State), s.bit F.HK_STS.RST_WAIT = true ∧ s.phase = Ph.off ∧ 2 ≤ s.sensLeft ∧
      s.bit F.PSQ_STS.IN_GOOD = true ∧ s.bit F.PSQ_STS.MOD_EN = true ∧ s.psq.offSince = false ∧ s.readTable = some tb ∧
      s.hk.cool < 3750) ∧
    (∃ (path : Path) (s : State), s.mgrOrOob path = true) ∧
    (∃ (s : State), s.bit F.PSQ_STS.RAILS_UP = false) ∧
    (∃ (s : State), s.bit F.PSQ_STS.RAILS_UP = true) :=
  ⟨⟨55, w [(F.PSQ_STS.PHASE, 1)], by decide +kernel⟩,
⟨62, w [], by decide +kernel⟩,
⟨23, w [], by decide +kernel⟩,
⟨23, w [], by decide +kernel⟩,
⟨15, w [], by decide +kernel⟩,
⟨63, w [], by decide +kernel⟩,
⟨{ w [(F.HK_STS.THERM_LVL, 1)] with hk.below := 126 }, by decide +kernel⟩,
⟨{ w [] with hk.rounds := 4 }, by decide +kernel⟩,
⟨w [], by decide +kernel⟩,
⟨[0x1900, 0, 0], { w [(F.PSQ_STS.PHASE, 0), (F.HK_STS.RST_WAIT, 1), (F.PSQ_STS.MOD_EN, 1)] with hk.cool := 3750, pst.words := wTableRow }, by decide +kernel⟩,
⟨[0x1900, 0, 0], { w [(F.PSQ_STS.PHASE, 0), (F.HK_STS.RST_WAIT, 1), (F.PSQ_STS.MOD_EN, 1)] with hk.cool := 3749, pst.words := wTableRow }, by decide +kernel⟩,
⟨.port 0, w [], by decide +kernel⟩,
⟨w [(F.PSQ_STS.RAILS_UP, 0)], by decide +kernel⟩,
⟨w [], by decide +kernel⟩⟩

theorem witness_parameter_store_commands :
    (∃ (o : PstOp) (rest : List PstStep) (s : State) (a : Nat) (w : Word), s.pst.cur = some o ∧ s.pst.failing = false ∧
      o.steps = .program a w :: rest) ∧
    (∃ (o : PstOp) (rest : List PstStep) (s : State) (r : Nat), s.pst.cur = some o ∧ s.pst.failing = false ∧
      o.steps = .erase r :: rest) ∧
    (∃ (o : PstOp) (aux : BitVec 12) (cap : BitVec 12) (s : State), s.pst.cur = some o ∧ s.pst.failing = true ∧
      s.num R.PST_AUX_MIN * 10 ≤ aux.toNat ∧ 2800 ≤ cap.toNat) ∧
    (∃ (o : PstOp) (aux : BitVec 12) (cap : BitVec 12) (s : State), s.pst.cur = some o ∧ s.pst.failing = true ∧
      (aux.toNat < s.num R.PST_AUX_MIN * 10 ∨ cap.toNat < 2800)) ∧
    (∃ (o : PstOp) (s : State), s.pst.cur = some o ∧ s.pst.failing = true ∧ s.pst.queue = [] ∧ s.coreUp = true ∧
      (s.fcSrc 4).wire = false) ∧
    (∃ (c : PstOp) (s : State) (j : PstJob) (l : List PstJob), s.pst.cur = some c ∧ c.job.isErase = false ∧ s.pst.rereq = j :: l) ∧
    (∃ (c : PstOp) (s : State) (path : Path) (k : Fin 64), s.pst.cur = some c ∧ c.job.isErase = false ∧ s.mgrOrOob path = true ∧
      userRow (s.num R.PST_ROW) = true ∧ s.pstWord (s.num R.PST_ROW) k = erasedWord ∧ s.pst.queue = []) ∧
    (∃ (c : PstOp) (s : State) (path : Path), s.pst.cur = some c ∧ c.job.isErase = false ∧ s.mgrOrOob path = true ∧
      userRow (s.num R.PST_ROW) = true) ∧
    (∃ (c : PstOp) (s : State), s.pst.cur = some c ∧ c.job.isErase = false ∧ (s.phase = Ph.off ∨ s.phase = Ph.lockout)) ∧
    (∃ (path : Path) (s : State) (k : Fin 64), s.mgrOrOob path = true ∧
      (userRow (s.num R.PST_ROW) = false ∨ s.pstWord (s.num R.PST_ROW) k ≠ erasedWord)) ∧
    (∃ (path : Path) (s : State), s.mgrOrOob path = true ∧ userRow (s.num R.PST_ROW) = false) ∧
    (∃ (path : Path) (s : State), s.mgrOrOob path = true ∧ s.phase ≠ Ph.off ∧ s.phase ≠ Ph.lockout) ∧
    (∃ (path : Path) (s : State), s.mgrOrOob path = true ∧ s.pst.cur = none ∧ s.pst.reads = []) ∧
    (∃ (path : Path) (s : State), s.mgrOrOob path = true ∧ s.pst.cur = none ∧ s.pst.reads = [] ∧ s.rb.opened = none) ∧
    (∃ (path : Path) (s : State) (num : Fin 8) (ws : List Word), s.mgrOrOob path = true ∧ s.configOf num = some ws ∧ ws.length ≤ 62) ∧
    (∃ (s : State) (n : Fin 64), s.bit F.PST_CTL.PATROL_EN = true ∧ s.pstWord (s.num R.PST_PATROL_ROW) n ≠ erasedWord ∧
      userRow (s.num R.PST_PATROL_ROW) = true) ∧
    (∃ (x : RbRec) (rest : List RbRec) (s : State), s.bit F.RB_STS.READY = true ∧ s.bit F.PST_STS.RESCUE = false ∧
      s.supplyGood = true ∧ s.pst.cur = none ∧ s.pst.queue = [] ∧ s.rb.closing = none ∧ s.rb.queue = x :: rest ∧
      s.num R.RB_COUNT < 8192) :=
  ⟨⟨⟨.counterInc 0, [.program 0 0], false, false⟩, [], { w [] with pst.cur := some ⟨.counterInc 0, [.program 0 0], false, false⟩ },
     0, 0, by decide +kernel⟩,
⟨⟨.counterInc 0, [.erase 0], false, false⟩, [], { w [] with pst.cur := some ⟨.counterInc 0, [.erase 0], false, false⟩ }, 0,
     by decide +kernel⟩,
⟨⟨.counterInc 0, [], false, false⟩, 0xFFF, 2800,
     { w [] with pst.failing := true, pst.cur := some ⟨.counterInc 0, [], false, false⟩ }, by decide +kernel⟩,
⟨⟨.counterInc 0, [], false, false⟩, 0, 2799,
     { w [] with pst.failing := true, pst.cur := some ⟨.counterInc 0, [], false, false⟩ }, by decide +kernel⟩,
⟨⟨.counterInc 0, [], false, false⟩, { w [] with pst.failing := true, pst.cur := some ⟨.counterInc 0, [], false, false⟩ },
     by decide +kernel⟩,
⟨⟨.counterInc 0, [], false, false⟩,
     { w [] with pst.rereq := [.counterInc 0], pst.cur := some ⟨.counterInc 0, [], false, false⟩ }, .counterInc 0, [],
     by decide +kernel⟩,
⟨⟨.counterInc 0, [], false, false⟩, { w [(⟨R.PST_ROW, 0, 32⟩, 1984)] with pst.cur := some ⟨.counterInc 0, [], false, false⟩ },
     .port 0, 0, by decide +kernel⟩,
⟨⟨.counterInc 0, [], false, false⟩, { w [(⟨R.PST_ROW, 0, 32⟩, 1984)] with pst.cur := some ⟨.counterInc 0, [], false, false⟩ },
     .port 0, by decide +kernel⟩,
⟨⟨.counterInc 0, [], false, false⟩, { w [(F.PSQ_STS.PHASE, 8)] with pst.cur := some ⟨.counterInc 0, [], false, false⟩ },
     by decide +kernel⟩,
⟨.port 0, w [], 0, by decide +kernel⟩,
⟨.port 0, w [(⟨R.PST_ROW, 0, 32⟩, 1983)], by decide +kernel⟩,
⟨.port 0, w [], by decide +kernel⟩,
⟨.port 0, w [], by decide +kernel⟩,
⟨.port 0, w [], by decide +kernel⟩,
⟨.port 0, wCfg, 7, (wCfg.configOf 7).getD [], by decide +kernel⟩,
⟨{ w [(F.PST_CTL.PATROL_EN, 1), (⟨R.PST_PATROL_ROW, 0, 32⟩, 1984)] with pst.words := [(64 * 1984, 0)] }, 0, by decide +kernel⟩,
⟨⟨⟨0, 0, 0, 0, 0, 0⟩, 0, 0, 0, none, false⟩, [], { w [] with rb.queue := [⟨⟨0, 0, 0, 0, 0, 0⟩, 0, 0, 0, none, false⟩] },
     by decide +kernel⟩⟩

theorem witness_fault_arrival_commands :
    (∃ (w : FltWord) (s : State), w.bad = false ∧ w.src.toNat ≤ 124 ∧ s.coreUp = true ∧ (s.fcSrc w.src.toNat).wire = false ∧
      2 ≤ w.sev.val ∧ (s.fcSrc (w.src.toNat)).sev < w.sev.val) ∧
    (∃ (w : FltWord) (s : State), w.bad = false ∧ w.src.toNat ≤ 124 ∧ s.coreUp = true ∧ (s.fcSrc w.src.toNat).wire = false ∧
      w.sev.val ≤ 1) ∧
    (∃ (src : BitVec 8) (s : State), src.toNat ≤ 124 ∧ s.coreUp = true ∧ (s.fcSrc src.toNat).wire = false) ∧
    (∃ (src : BitVec 8) (s : State), src.toNat ≤ 124 ∧ s.coreUp = true ∧ (s.fcSrc src.toNat).wire = true ∧
      (s.fcSrc src.toNat).word = none) ∧
    (∃ (src : BitVec 8) (s : State) (f : Flt), src.toNat ≤ 124 ∧ s.coreUp = true ∧ (s.fcSrc src.toNat).wire = true ∧
      (s.fcSrc src.toNat).word = some f ∧ f.src = src.toNat ∧ f.kind < 16) ∧
    (∃ (page : Fin 110) (path : Path) (sub : Fin 4) (s : State) (n : _), s.isManager path = true ∧ pageSrc page sub = some n ∧
      s.coreUp = true ∧ (s.fcSrc n).wire = false) ∧
    (∃ (page : Fin 110) (path : Path) (sub : Fin 4) (s : State), s.isManager path = true ∧ pageSrc page sub = none) ∧
    (∃ (src : BitVec 8) (s : State), (s.fcSrc src.toNat).kind ≠ Kind.INJECT ∨ s.bit F.FC_CTL.INJ_NOACT = false ∧ (src.toNat) ≤ 5 ∧
      (s.fcSrc (src.toNat)).sev ≠ 3 ∧ s.coreUp = true ∧ (s.fcSrc (src.toNat)).timer.isSome = true) ∧
    (∃ (src : BitVec 8) (s : State), (s.fcSrc src.toNat).kind ≠ Kind.INJECT ∨ s.bit F.FC_CTL.INJ_NOACT = false ∧ (src.toNat) ≤ 5 ∧
      (s.fcSrc (src.toNat)).sev ≠ 3 ∧ s.proctors = true ∧ (s.fcSrc (src.toNat)).sev ≠ 0) ∧
    (∃ (src : BitVec 8) (s : State), (s.fcSrc src.toNat).kind ≠ Kind.INJECT ∨ s.bit F.FC_CTL.INJ_NOACT = false ∧ 72 ≤ (src.toNat) ∧
      (src.toNat) ≤ 95 ∧ s.fencedSrc (src.toNat) = false ∧ s.coreUp = true ∧ (s.fcSrc (src.toNat)).timer.isSome = true) ∧
    (∃ (src : BitVec 8) (s : State), (s.fcSrc src.toNat).kind ≠ Kind.INJECT ∨ s.bit F.FC_CTL.INJ_NOACT = false ∧ 72 ≤ (src.toNat) ∧
      (src.toNat) ≤ 95 ∧ s.fencedSrc (src.toNat) = false ∧ s.proctors = true ∧ (s.fcSrc (src.toNat)).sev ≠ 0) ∧
    (∃ (src : BitVec 8) (s : State), s.proctors = true ∧ (s.fcSrc (src.toNat)).sev = 2 ∧ (s.fcSrc (src.toNat)).timer.isSome = true) ∧
    (∃ (src : BitVec 8) (s : State), s.proctors = true ∧ (s.fcSrc (src.toNat)).sev = 3 ∧ (s.fcSrc (src.toNat)).timer.isSome = true) ∧
    (∃ (src : BitVec 8) (s : State), s.proctors = true ∧ (s.fcSrc (src.toNat)).sev = 2 ∧ (src.toNat) ≤ 124) ∧
    (∃ (src : BitVec 8) (s : State), s.proctors = true ∧ (s.fcSrc (src.toNat)).fenced = true ∧ s.fc.revoking = none) ∧
    (∃ (src : BitVec 8) (s : State), s.proctors = true ∧ (s.fcSrc (src.toNat)).fenced = false ∧ (src.toNat) < 96) :=
  ⟨⟨⟨124, 2, 0, 0, false⟩, w [], by decide +kernel⟩,
⟨⟨124, 0, 0, 0, false⟩, w [], by decide +kernel⟩,
⟨124, w [], by decide +kernel⟩,
⟨0, { w [] with fc.src := [(0, { FcSrc.idle with wire := true })] }, by decide +kernel⟩,
⟨0, { w [] with fc.src := [(0, { FcSrc.idle with wire := true, word := some ⟨0, 0, 15, 0⟩ })] }, ⟨0, 0, 15, 0⟩, by decide +kernel⟩,
⟨2, .port 0, 0, w [], 2, by decide +kernel⟩,
⟨1, .port 0, 3, w [], by decide +kernel⟩,
⟨5, { w [] with fc.src := [(5, { FcSrc.idle with timer := some 1 })] }, by decide +kernel⟩,
⟨0, { w [] with fc.src := [(0, { FcSrc.idle with sev := 1 })] }, by decide +kernel⟩,
⟨95, { w [] with fc.src := [(95, { FcSrc.idle with timer := some 1 })] }, by decide +kernel⟩,
⟨72, { w [] with fc.src := [(72, { FcSrc.idle with sev := 1 })] }, by decide +kernel⟩,
⟨0, { w [] with fc.src := [(0, { FcSrc.idle with sev := 2, timer := some 1 })] }, by decide +kernel⟩,
⟨0, { w [] with fc.src := [(0, { FcSrc.idle with sev := 3, timer := some 1 })] }, by decide +kernel⟩,
⟨0, { w [] with fc.src := [(0, { FcSrc.idle with sev := 2 })] }, by decide +kernel⟩,
⟨0, { w [] with fc.src := [(0, { FcSrc.idle with fenced := true })] }, by decide +kernel⟩,
⟨95, w [], by decide +kernel⟩⟩

theorem witness_fence_and_containment_commands :
    (∃ (h : Nat) (s : State), s.fc.revoking = some h ∧ h < 256 ∧ (h < 12 ∨ 19 < h) ∧ s.hp.serialQ = [] ∧ s.fc.revokeQ = []) ∧
    (∃ (h : Nat) (s : State) (k : Nat) (rest : List Nat), s.fc.revoking = some h ∧ h < 256 ∧ (h < 12 ∨ 19 < h) ∧ s.hp.serialQ = [] ∧
      s.fc.revokeQ = k :: rest ∧ k < 256) ∧
    (∃ (src : BitVec 8) (s : State), s.proctors = true ∧ s.fencedSrc src.toNat = true ∧ returnable src.toNat = true ∧
      (s.fcSrc src.toNat).stuck = false ∧ s.held src.toNat = []) ∧
    (∃ (src : BitVec 8) (s : State), s.proctors = true ∧ s.fencedSrc src.toNat = true ∧
      (returnable src.toNat = false ∨ (s.fcSrc src.toNat).stuck = true ∨ s.held src.toNat ≠ [])) ∧
    (∃ (p : Fin 4) (s : State), s.coreUp = true ∧ s.healthy p = false) ∧
    (∃ (p : Fin 4) (s : State), s.coreUp = true ∧ s.healthy p = true ∧ 3 ≤ s.get F.BOOT_STS.PHASE ∧
      (s.fcSrc (96 + p.val)).wire = false ∧ (s.refclk = false ∨ sget 0 s.fc.beats p + 400000 ≤ s.tick.toNat)) ∧
    (∃ (p : Fin 4) (s : State), s.coreUp = true ∧ s.healthy p = true ∧ 3 ≤ s.get F.BOOT_STS.PHASE ∧
      (s.fcSrc (96 + p.val)).wire = false ∧ s.refclk = true ∧ s.tick.toNat < sget 0 s.fc.beats p + 400000) ∧
    (∃ (src : BitVec 8) (s : State), s.coreUp = true ∧ s.fencedSrc src.toNat = true ∧ (s.fcSrc src.toNat).revoked = true) ∧
    (∃ (src : BitVec 8) (s : State), s.coreUp = true ∧ s.fencedSrc src.toNat = true ∧ (s.fcSrc src.toNat).revoked = false ∧
      (s.fcSrc (96 + s.lead)).wire = false) ∧
    (∃ (path : Path) (s : State), s.isManager path = true ∧ s.bit F.FC_STS.CONTAINING = true) ∧
    (∃ (path : Path) (s : State), s.isManager path = true ∧ s.coreUp = true ∧ s.bit F.FC_STS.CONTAINING = false ∧ s.phase = Ph.drain) ∧
    (∃ (path : Path) (s : State), s.isManager path = true ∧ s.coreUp = true ∧ s.bit F.FC_STS.CONTAINING = false ∧ s.phase = Ph.on ∧
      s.psq.drained = false ∧ s.psq.marg = [] ∧ s.psq.test = none) ∧
    (∃ (s : State), s.psq.contLim = false) ∧
    (∃ (s : State), s.psq.contLim = true ∧ s.phase = Ph.drain ∧ 2 ≤ s.psq.step ∧ s.psq.step ≤ 6 ∧ s.psq.trigger = 3 ∧
      s.psq.toDown = false ∧ s.memActive = true ∧ s.fc.contains.length < 3) ∧
    (∃ (s : State), s.psq.contLim = true ∧ s.phase = Ph.drain ∧ 2 ≤ s.psq.step ∧ s.psq.step ≤ 6 ∧ s.psq.trigger = 3 ∧
      s.psq.toDown = false ∧ (s.memActive = false ∨ 3 ≤ s.fc.contains.length)) :=
  ⟨⟨0, { w [] with fc.revoking := some 0 }, by decide +kernel⟩,
⟨0, { w [] with fc.revoking := some 0, fc.revokeQ := [0] }, 0, [], by decide +kernel⟩,
⟨10, { w [] with fc.src := [(10, { FcSrc.idle with fenced := true })] }, by decide +kernel⟩,
⟨0, { w [] with fc.src := [(0, { FcSrc.idle with fenced := true })] }, by decide +kernel⟩,
⟨0, w [(F.FC_STS.HEALTHY, 14)], by decide +kernel⟩,
⟨0, { w [] with tick := 400000 }, by decide +kernel⟩,
⟨0, w [], by decide +kernel⟩,
⟨0, { w [] with fc.src := [(0, { FcSrc.idle with fenced := true, revoked := true })] }, by decide +kernel⟩,
⟨0, { w [] with fc.src := [(0, { FcSrc.idle with fenced := true })] }, by decide +kernel⟩,
⟨.port 0, w [(F.FC_STS.CONTAINING, 1)], by decide +kernel⟩,
⟨.port 0, w [(F.PSQ_STS.PHASE, 4)], by decide +kernel⟩,
⟨.port 0, w [], by decide +kernel⟩,
⟨w [], by decide +kernel⟩,
⟨{ w [(F.PSQ_STS.PHASE, 4)] with psq.contLim := true, psq.step := 2, psq.trigger := 3 }, by decide +kernel⟩,
⟨{ w [(F.PSQ_STS.PHASE, 4)] with psq.contLim := true, psq.step := 6, psq.trigger := 3, fc.contains := [0, 0, 0] },
     by decide +kernel⟩⟩

theorem witness_management_queue_commands :
    (∃ (q : Fin 8) (path : Path) (k : Nat) (s : State), s.mqPath q path = some k ∧ s.fencedSrc (100 + q.val) = false ∧
      (s.mqOf q).skip = false ∧ (s.mqOf q).dn.length < 2048 ∧ s.bit (F.MQ_STS.FLUSH_PEND_DN q) = false) ∧
    (∃ (q : Fin 8) (path : Path) (k : Nat) (s : State), s.mqPath q path = some k ∧ s.fencedSrc (100 + q.val) = false ∧
      (s.mqOf q).skip = false ∧ 2048 ≤ (s.mqOf q).dn.length) ∧
    (∃ (q : Fin 8) (path : Path) (k : Nat) (s : State), s.mqPath q path = some k ∧ (s.mqOf q).up = []) ∧
    (∃ (q : Fin 8) (path : Path) (k : Nat) (s : State) (w : Bool × BitVec 64) (rest : List (Bool × BitVec 64)),
      s.mqPath q path = some k ∧ (s.mqOf q).up = w :: rest ∧ s.bit (F.MQ_STS.FLUSH_PEND_UP q) = false) ∧
    (∃ (q : Fin 8) (path : Path) (k : Nat) (s : State), s.mqPath q path = some k ∧ s.coreUp = true ∧
      (s.fcSrc (100 + q.val)).wire = false) ∧
    (∃ (q : Fin 8) (w : Bool × BitVec 64) (ws : List (Bool × BitVec 64)) (rest : List (Bool × BitVec 64)) (s : State),
      s.coreUp = true ∧ 3 ≤ s.get F.BOOT_STS.PHASE ∧ s.fencedSrc (100 + q.val) = false ∧ (s.mqOf q).cur = none ∧
      takePacket (s.mqOf q).dn = some (w :: ws, rest) ∧
      (1024 < (w.2.toNat / 2 ^ 32 % 2 ^ 11) ∨ (w.2.toNat / 2 ^ 32 % 2 ^ 11) ≠ ws.length)) ∧
    (∃ (q : Fin 8) (w : Bool × BitVec 64) (ws : List (Bool × BitVec 64)) (rest : List (Bool × BitVec 64)) (s : State),
      s.coreUp = true ∧ 3 ≤ s.get F.BOOT_STS.PHASE ∧ s.fencedSrc (100 + q.val) = false ∧ (s.mqOf q).cur = none ∧
      takePacket (s.mqOf q).dn = some (w :: ws, rest) ∧ (w.2.toNat / 2 ^ 32 % 2 ^ 11) ≤ 1024 ∧
      (w.2.toNat / 2 ^ 32 % 2 ^ 11) = ws.length ∧ (w.2.toNat % 2 ^ 16) ∉ opcodes) ∧
    (∃ (q : Fin 8) (w : Bool × BitVec 64) (ws : List (Bool × BitVec 64)) (rest : List (Bool × BitVec 64)) (s : State),
      s.coreUp = true ∧ 3 ≤ s.get F.BOOT_STS.PHASE ∧ s.fencedSrc (100 + q.val) = false ∧ (s.mqOf q).cur = none ∧
      takePacket (s.mqOf q).dn = some (w :: ws, rest) ∧ (w.2.toNat / 2 ^ 32 % 2 ^ 11) ≤ 1024 ∧
      (w.2.toNat / 2 ^ 32 % 2 ^ 11) = ws.length ∧ (w.2.toNat % 2 ^ 16) = 0x0300) ∧
    (∃ (q : Fin 8) (r : List (Bool × BitVec 64)) (rest : List (List (Bool × BitVec 64))) (s : State), s.coreUp = true ∧
      s.fencedSrc (100 + q.val) = false ∧ (s.mqOf q).replies = r :: rest ∧ (s.mqOf q).up.length < 2048) :=
  ⟨⟨0, .port 0, 0, w [], by decide +kernel⟩,
⟨0, .port 0, 0, { w [] with mq := [(0, { Mq.empty with dn := List.replicate 2048 (true, 0) })] }, by decide +kernel⟩,
⟨0, .port 0, 0, w [], by decide +kernel⟩,
⟨0, .port 0, 0, { w [] with mq := [(0, { Mq.empty with up := [(true, 0)] })] }, (true, 0), [], by decide +kernel⟩,
⟨0, .port 0, 0, w [], by decide +kernel⟩,
⟨0, (true, BitVec.ofNat 64 (2 ^ 32)), [], [],
     { w [] with mq := [(0, { Mq.empty with dn := [(true, BitVec.ofNat 64 (2 ^ 32))] })] }, by decide +kernel⟩,
⟨0, (true, 0xFFFF), [], [], { w [] with mq := [(0, { Mq.empty with dn := [(true, 0xFFFF)] })] }, by decide +kernel⟩,
⟨0, (true, 0x300), [], [], { w [] with mq := [(0, { Mq.empty with dn := [(true, 0x300)] })] }, by decide +kernel⟩,
⟨0, [(true, 0)], [], { w [] with mq := [(0, { Mq.empty with replies := [[(true, 0)]] })] }, by decide +kernel⟩⟩

theorem witness_window_and_test_commands :
    (∃ (path : Path) (v : Word) (s : State), s.isManager path = true ∧ v.getLsbD 0 = true ∧ v.getLsbD 1 = false ∧ v.getLsbD 2 = false) ∧
    (∃ (path : Path) (v : Word) (s : State), s.isManager path = true ∧ v.getLsbD 0 = false ∧ v.getLsbD 1 = true ∧ v.getLsbD 2 = false) ∧
    (∃ (path : Path) (v : Word) (s : State), s.isManager path = true ∧ v.getLsbD 0 = false ∧ v.getLsbD 1 = false ∧ v.getLsbD 2 = true) ∧
    (∃ (page : Fin 110) (s : State), s.winDue page = true) ∧
    (∃ (page : Fin 110) (s : State), s.winDue page = false) ∧
    (∃ (path : Path) (s : State), s.isManager path = true) ∧
    (∃ (path : Path) (k : Nat) (s : State), s.isManager path = true ∧ k < 4 ∧ (∀ j, j < 5 → s.phyHeld j = false) ∧ s.mayHold k = true) ∧
    (∃ (path : Path) (k : Nat) (s : State), s.isManager path = true ∧ k < 4 ∧ (∀ j, j < 5 → s.phyHeld j = false) ∧ s.mayHold k = false) ∧
    (∃ (path : Path) (k : Nat) (s : State), s.isManager path = true ∧ k < 4 ∧ s.phyHeld k = true) ∧
    (∃ (path : Path) (n : Nat) (v : Word) (s : State), s.isManager path = true ∧ s.laneSel = some n ∧ v.getLsbD 14 = false ∧
      s.mayStart n v = true) ∧
    (∃ (path : Path) (n : Nat) (v : Word) (s : State), s.isManager path = true ∧ s.laneSel = some n ∧ s.mayStart n v = false) ∧
    (∃ (path : Path) (n : Nat) (s : State) (bits : Nat), s.isManager path = true ∧ s.laneSel = some n ∧
      (s.lane n).ctl / 2 ^ 14 % 2 = 0 ∧ (s.lane n).run = true ∧ (s.lane n).sync = true ∧ (s.lane n).bits + bits < 2 ^ 48) ∧
    (∃ (path : Path) (n : Nat) (s : State), s.isManager path = true ∧ s.laneSel = some n ∧ (s.lane n).run = true ∧
      (s.lane n).ctl / 8 % 2 = 1) ∧
    (∃ (lane : Fin 120) (s : State), lane.val < 80 ∧ (s.lane lane).run = true ∧ (s.lane lane).ctl / 16 % 2 = 1) ∧
    (∃ (lane : Fin 120) (s : State), 80 ≤ lane.val ∧ s.bit (F.MC_PAT_CTL.START (lane.val - 80)) = true) ∧
    (∃ (lane : Fin 80) (bits : Nat) (s : State), (s.lane lane).run = true ∧ (s.lane lane).sync = true ∧
      (s.lane lane).bits + bits < 2 ^ 48) ∧
    (∃ (path : Path) (l : Nat) (v : Word) (s : State), s.isManager path = true ∧ s.laneSel = some l ∧ 64 ≤ l ∧
      s.bit F.CAR_STS.LINK_UP = true ∧ s.bit F.CAR_STS.PAIRED = false ∧ 1 ≤ v.toNat / 4 % 32 ∧
      (v.toNat / 4 % 32 ≤ (if v.toNat % 2 = 0 then 16 else 32)) ∧ 2 ^ 16 ≤ v.toNat ∧ s.fencedSrc 108 = false) ∧
    (∃ (path : Path) (l : Nat) (s : State), s.isManager path = true ∧ s.laneSel = some l ∧ l < 64) ∧
    (∃ (path : Path) (l : Nat) (s : State), s.tst.marg = some l ∧ s.isManager path = true) ∧
    (∃ (port : Fin 8) (lane : Fin 16) (s : State) (v : Bool) (n : BitVec 7), s.bit (F.HP_STS.LINK_UP port) = true ∧
      4 ≤ s.get (F.HP_STS.RATE port) ∧ lane.val < s.get (F.HP_STS.WIDTH port) ∧ (n.toNat ≤ (if v then 32 else 16))) ∧
    (∃ (port : Fin 8) (s : State), s.bit (F.HP_STS.PRESENT port) = true ∧ s.coreUp = true ∧ s.hp.perst.contains port.val = false) ∧
    (∃ (s : State), s.bit F.PSQ_STS.RAILS_UP = false) ∧
    (∃ (code : BitVec 8) (s : State), s.dom.aux = true ∧ s.bit F.PSQ_STS.RAILS_UP = true ∧ s.boot.jtag = false ∧ code.toNat ∈ [0, 3,
      4, 5, 6]) ∧
    (∃ (code : BitVec 8) (s : State), s.dom.aux = true ∧ s.bit F.PSQ_STS.RAILS_UP = true ∧ s.boot.jtag = false ∧
      (code.toNat = 1 ∨ code.toNat = 2)) ∧
    (∃ (code : BitVec 8) (s : State), s.dom.aux = true ∧ s.bit F.PSQ_STS.RAILS_UP = true ∧ s.boot.jtag = false ∧ 7 ≤ code.toNat) ∧
    (∃ (s : State), s.dom.aux = true ∧ s.bit F.PSQ_STS.RAILS_UP = true ∧ s.boot.jtag = true ∧ s.phase = Ph.on ∧ s.coreUp = false ∧
      s.boot.rstN = false ∧ s.dom.aon = true) :=
  ⟨⟨.port 0, 1, w [], by decide +kernel⟩,
⟨.port 0, 2, w [], by decide +kernel⟩,
⟨.port 0, 4, w [], by decide +kernel⟩,
⟨0, { w [(F.PC_WIN_CTL.START 0, 1), (F.PC_WIN_CTL.LEN 0, 1)] with tick := 10000 }, by decide +kernel⟩,
⟨0, { w [(F.PC_WIN_CTL.START 0, 1), (F.PC_WIN_CTL.LEN 0, 1)] with tick := 9999 }, by decide +kernel⟩,
⟨.port 0, w [], by decide +kernel⟩,
⟨.port 0, 3, w [], by decide +kernel⟩,
⟨.port 0, 0, w [], by decide +kernel⟩,
⟨.port 0, 3, w [(⟨R.TST_PHY_CTL, 3, 1⟩, 1)], by decide +kernel⟩,
⟨.port 0, 0, 256, w [(⟨R.TST_PHY_CTL, 0, 1⟩, 1)], by decide +kernel⟩,
⟨.port 0, 0, 0, w [], by decide +kernel⟩,
⟨.port 0, 0, { w [] with tst.lanes := [(0, ⟨true, true, 0, 0, 0⟩)] }, 2 ^ 48 - 1, by decide +kernel⟩,
⟨.port 0, 0, { w [] with tst.lanes := [(0, ⟨true, true, 8, 0, 0⟩)] }, by decide +kernel⟩,
⟨79, { w [] with tst.lanes := [(79, ⟨true, true, 16, 0, 0⟩)] }, by decide +kernel⟩,
⟨119, w [(F.MC_PAT_CTL.START 39, 1)], by decide +kernel⟩,
⟨0, 0, { w [] with tst.lanes := [(0, ⟨true, true, 0, 0, 0⟩)] }, by decide +kernel⟩,
⟨.port 0, 64, BitVec.ofNat 32 (2 ^ 16 + 64), w [(⟨R.TST_LANE_SEL, 0, 7⟩, 64), (F.CAR_STS.LINK_UP, 1)], by decide +kernel⟩,
⟨.port 0, 0, w [], by decide +kernel⟩,
⟨.port 0, 0, { w [] with tst.marg := some 0 }, by decide +kernel⟩,
⟨0, 0, w [(F.HP_STS.RATE 0, 4), (F.HP_STS.WIDTH 0, 1)], false, 16, by decide +kernel⟩,
⟨0, w [], by decide +kernel⟩,
⟨w [(F.PSQ_STS.RAILS_UP, 0)], by decide +kernel⟩,
⟨0, w [], by decide +kernel⟩,
⟨2, w [], by decide +kernel⟩,
⟨7, w [], by decide +kernel⟩,
⟨{ w [] with boot.jtag := true, dom := ⟨true, true, false, false⟩ }, by decide +kernel⟩⟩

theorem witness_start_up_and_reset_commands :
    (∃ (s : State), s.dom.aux = false) ∧
    (∃ (s : State), s.dom.aux = true) ∧
    (∃ (s : State), s.dom.aux = true ∧ s.dom.aon = false) ∧
    (∃ (a : Option CfgImage) (b : Option CfgImage) (s : State), s.coreUp = true ∧ s.get F.BOOT_STS.PHASE = 1 ∧
      s.bit F.BOOT_STS.HALT = false ∧ a = none ∧ b = none) ∧
    (∃ (a : Option CfgImage) (b : Option CfgImage) (s : State) (i : CfgImage), (a = some i ∧ (b = none ∨ ∃ j, b = some j ∧
      j.gen.toNat ≤ i.gen.toNat) ∨ b = some i ∧ (a = none ∨ ∃ j, a = some j ∧ j.gen.toNat < i.gen.toNat)) ∧ s.coreUp = true ∧
      s.get F.BOOT_STS.PHASE = 1 ∧ s.bit F.BOOT_STS.HALT = false) ∧
    (∃ (s : State), s.coreUp = true ∧ s.get F.BOOT_STS.PHASE = 2 ∧ s.bit F.BOOT_STS.HALT = false) ∧
    (∃ (s : State), s.coreUp = true ∧ s.get F.BOOT_STS.PHASE = 5 ∧ s.bit F.TE_STS.MAP_READY = true ∧ s.seqNext < s.seqHw ∧
      s.tw.decided = true ∧ s.bit F.LC_STS.KEPT = false ∧ s.rt.reqs = [] ∧ (∀ n,
      n < 16 → s.bit (F.RT_RG_CTL.EN n) = true → s.bit (F.RT_RG_CTL.CTX_EN n) = false)) ∧
    (∃ (s : State), s.boot.rstN = false ∧ s.bit F.PSQ_STS.RAILS_UP = false) ∧
    (∃ (s : State), s.boot.rstN = false ∧ s.bit F.PSQ_STS.RAILS_UP = true) ∧
    (∃ (s : State), s.boot.rstN = true ∧ s.bit F.PSQ_STS.RAILS_UP = true ∧ s.phase = Ph.on ∧ s.coreUp = false ∧ s.boot.jtag = false ∧
      s.dom.aon = true) ∧
    (∃ (path : Path) (v : Word) (s : State), s.isManager path = true ∧ s.coreUp = true ∧ s.phase = Ph.on ∧ v.toNat / 65536 = 0xD0E5 ∧
      v.getLsbD 0 = true ∧ s.boot.resetReq = false) ∧
    (∃ (path : Path) (v : Word) (s : State), (s.isManager path = false ∨ v.toNat / 65536 ≠ 0xD0E5 ∨ v.getLsbD 0 = false)) ∧
    (∃ (s : State), s.boot.resetReq = false) ∧
    (∃ (s : State), s.boot.resetReq = true ∧ s.coreUp = true ∧ s.rt.reqs = [] ∧ s.bit F.FC_STS.CONTAINING = false ∧ s.boot.rstN = true) ∧
    (∃ (s : State), s.boot.resetReq = true ∧ s.coreUp = true ∧ s.rt.reqs = [] ∧ s.bit F.FC_STS.CONTAINING = false ∧
      s.boot.rstN = false ∧ s.boot.jtag = false ∧ s.dom.aon = true) :=
  ⟨⟨{ w [] with dom := ⟨false, false, false, false⟩ }, by decide +kernel⟩,
⟨w [], by decide +kernel⟩,
⟨{ w [] with dom := ⟨true, false, false, false⟩ }, by decide +kernel⟩,
⟨none, none, w [(F.BOOT_STS.PHASE, 1)], by decide +kernel⟩,
⟨some ⟨0, [], 0, 0, 0, 0, 0, [], false⟩, none, w [(F.BOOT_STS.PHASE, 1)], ⟨0, [], 0, 0, 0, 0, 0, [], false⟩, .inl ⟨rfl,
     .inl rfl⟩, by decide +kernel⟩,
⟨w [(F.BOOT_STS.PHASE, 2)], by decide +kernel⟩,
⟨{ w [(F.BOOT_STS.PHASE, 5)] with tw.decided := true }, by decide +kernel⟩,
⟨w [(F.PSQ_STS.RAILS_UP, 0)], by decide +kernel⟩,
⟨w [], by decide +kernel⟩,
⟨{ w [] with boot.rstN := true, dom := ⟨true, true, false, false⟩ }, by decide +kernel⟩,
⟨.port 0, 0xD0E50001, w [], by decide +kernel⟩,
⟨.port 0, 0, w [], by decide +kernel⟩,
⟨w [], by decide +kernel⟩,
⟨{ w [] with boot.resetReq := true, boot.rstN := true }, by decide +kernel⟩,
⟨{ w [] with boot.resetReq := true }, by decide +kernel⟩⟩

theorem witness_register_window_commands :
    (∃ (page : Fin 110) (path : Path) (s : State), s.isManager path = true ∧ s.coreUp = true ∧ page.val ≤ 6) ∧
    (∃ (page : Fin 110) (path : Path) (s : State), s.isManager path = true ∧ s.coreUp = true ∧ 100 ≤ page.val ∧ page.val ≤ 107 ∧
      s.fencedSrc page = true) ∧
    (∃ (page : Fin 110) (path : Path) (s : State), s.isManager path = true ∧ s.coreUp = true ∧ 26 ≤ page.val ∧ page.val ≤ 30 ∧
      s.fencedSrc (page.val + 89) = true) ∧
    (∃ (page : Fin 110) (path : Path) (s : State), s.isManager path = true ∧ s.coreUp = true ∧ 26 ≤ page.val ∧ page.val ≤ 30 ∧
      s.fencedSrc (page.val + 89) = false) ∧
    (∃ (page : Fin 110), lockOff page = none) ∧
    (∃ (page : Fin 110) (path : Path) (s : State) (o : _), lockOff page = some o ∧ s.writable path (page.val * 0x1000 + o) = true) ∧
    (∃ (page : Fin 110) (path : Path) (s : State) (o : _), lockOff page = some o ∧ s.writable path (page.val * 0x1000 + o) = false) ∧
    (∃ (path : Path) (s : State), s.writable path R.DEV_LOCK_ALL = true ∧ s.coreUp = true) ∧
    (∃ (path : Path) (off : BitVec 24) (be : BitVec 4) (s : State),
      (be ≠ 15 ∨ (off.toNat) % 4 ≠ 0 ∨ s.writable path (off.toNat) = false)) ∧
    (∃ (path : Path) (off : BitVec 24) (be : BitVec 4) (s : State), be = 15 ∧ s.writable path (off.toNat) = true ∧
      (off.toNat) % 0x1000 = 0xC0) ∧
    (∃ (path : Path) (off : BitVec 24) (be : BitVec 4) (s : State) (d : _), defAt (off.toNat) = some d ∧ be = 15 ∧
      (off.toNat) % 4 = 0 ∧ s.writable path (off.toNat) = true ∧ R.LC_RANGE_BASE_LO ≤ (off.toNat) ∧ (off.toNat) ≤ R.LC_RANGE_CTL) ∧
    (∃ (path : Path) (off : BitVec 24) (be : BitVec 4) (s : State) (d : _) (k : _), (∀ w,
      (s.regAcc (pageOf (off.toNat))).ordered (off.toNat) w = w) ∧ defAt (off.toNat) = some d ∧ be = 15 ∧ (off.toNat) % 4 = 0 ∧
      s.writable path (off.toNat) = true ∧ bookReg (off.toNat) = false ∧ (pageOf (off.toNat) < 100 ∨ pageOf (off.toNat) = 109) ∧
      pageOf (off.toNat) ≠ 9 ∧ ¬(26 ≤ pageOf (off.toNat) ∧ pageOf (off.toNat) ≤ 30 ∧ (off.toNat) % 0x1000 = 0x22C) ∧
      (off.toNat) ≠ R.MAPC_CTL ∧ (off.toNat) ≠ R.SIR_CTL ∧ (off.toNat) ≠ R.PSQ_MARG_CTL ∧ ¬(R.LC_RANGE_BASE_LO ≤ (off.toNat) ∧
      (off.toNat) ≤ R.LC_RANGE_CTL) ∧ (off.toNat) % 0x1000 ≠ 0xC0 ∧ d.clamps = [] ∧ ownBits (off.toNat) = 0 ∧ k < 32) ∧
    (∃ (off : BitVec 24), (off.toNat) % 4 ≠ 0 ∨ ownRead (off.toNat) = true) ∧
    (∃ (off : BitVec 24) (s : State), (off.toNat) % 4 = 0 ∧ ownRead (off.toNat) = false ∧ wideLo (off.toNat) = true ∧
      (s.regAcc (pageOf (off.toNat))).laneOpen (off.toNat) = false) ∧
    (∃ (path : Path) (off : BitVec 24) (s : State), (off.toNat) % 4 = 0 ∧ ownRead (off.toNat) = false ∧ wideLo (off.toNat) = false ∧
      (∀ x ∈ s.boot.caps, x.1 ≠ path ∨ x.2.1 ≠ (off.toNat)) ∧ (s.regAcc (pageOf (off.toNat))).laneOpen (off.toNat) = false) ∧
    (∃ (path : Path) (off : BitVec 24) (s : State) (hi : Word), (off.toNat) % 4 = 0 ∧ ownRead (off.toNat) = false ∧
      wideLo (off.toNat) = false ∧ s.boot.caps.find? (fun x => x.1 == path && x.2.1 == (off.toNat)) = some (path, (off.toNat), hi)) ∧
    (∃ (pec : Bool) (s : State), (s.dom.aon = false ∨ s.boot.i3c = false ∧ pec = false)) ∧
    (∃ (off : BitVec 24) (pec : Bool) (s : State), s.dom.aon = true ∧ (s.boot.i3c = true ∨ pec = true) ∧ (off.toNat) % 4 ≠ 0) ∧
    (∃ (off : BitVec 24) (pec : Bool) (s : State), s.dom.aon = true ∧ (s.boot.i3c = true ∨ pec = true) ∧ (off.toNat) % 4 = 0 ∧
      pageOf (off.toNat) ∉ [4, 5] ∧ (pageOf (off.toNat) < 100 ∨ pageOf (off.toNat) = 109) ∧ wideLo (off.toNat) = false ∧
      s.boot.caps = []) ∧
    (∃ (off : BitVec 24) (v : Word) (pec : Bool) (s : State), s.dom.aon = true ∧ (s.boot.i3c = true ∨ pec = true) ∧
      (off.toNat) = R.PSQ_CNT_CLR ∧ v.getLsbD 0 = true) ∧
    (∃ (addr : BitVec 7) (s : State), s.dom.aon = true ∧ addr ≠ 0) ∧
    (∃ (addr : BitVec 7) (s : State), s.dom.aon = true ∧ addr = 0) ∧
    (∃ (s : State), s.dom.aon = true ∧ s.boot.i3c = false ∧ s.boot.alert = true) ∧
    (∃ (s : State), s.dom.aon = true ∧ (s.boot.i3c = true ∨ s.boot.alert = false)) :=
  ⟨⟨6, .port 0, w [], by decide +kernel⟩,
⟨107, .port 0, { w [] with fc.src := [(107, { FcSrc.idle with fenced := true })] }, by decide +kernel⟩,
⟨30, .port 0, { w [] with fc.src := [(119, { FcSrc.idle with fenced := true })] }, by decide +kernel⟩,
⟨30, .port 0, w [], by decide +kernel⟩,
⟨5, by decide +kernel⟩,
⟨1, .port 0, w [], 0x1C4, by decide +kernel⟩,
⟨1, .port 1, w [], 0x1C4, by decide +kernel⟩,
⟨.port 0, w [], by decide +kernel⟩,
⟨.port 0, 0, 0, w [], by decide +kernel⟩,
⟨.port 0, 0x70C0, 15, w [], by decide +kernel⟩,
⟨.port 0, BitVec.ofNat 24 R.LC_RANGE_BASE_LO, 15, w [], (defAt R.LC_RANGE_BASE_LO).get (by decide +kernel), by decide +kernel⟩,
⟨.port 0, 0xB048, 15, w [], (defAt 0xB048).get (by decide +kernel), 31, fun _ => rfl, by decide +kernel⟩,
⟨0x64130, by decide +kernel⟩,
⟨0x108, w [], by decide +kernel⟩,
⟨.port 0, 0, w [], by decide +kernel⟩,
⟨.port 0, 0x10C, { w [] with boot.caps := [(.port 0, 0x10C, 7)] }, 7, by decide +kernel⟩,
⟨false, w [], by decide +kernel⟩,
⟨1, true, w [], by decide +kernel⟩,
⟨0, true, w [], by decide +kernel⟩,
⟨BitVec.ofNat 24 R.PSQ_CNT_CLR, 1, true, w [], by decide +kernel⟩,
⟨127, w [], by decide +kernel⟩,
⟨0, w [], by decide +kernel⟩,
⟨{ w [] with boot.alert := true }, by decide +kernel⟩,
⟨w [], by decide +kernel⟩⟩

theorem witness_step_takes_the_front_command :
    ∃ (c : Instr) (rest : List Instr) (s : State), s.pending = c :: rest :=
  ⟨.refclkReturn, [], { w [] with pending := [.refclkReturn] }, by decide +kernel⟩

theorem witness_empty_queue_is_one_tick :
    (∃ (s : State), s.pending = [] ∧ s.refclk = true ∧ s.dom.aux = true ∧ s.boot.rstN = false) ∧
    (∃ (s : State), s.pending = [] ∧ (s.refclk = false ∨ s.dom.aux = false ∨ s.boot.rstN = true)) :=
  ⟨⟨w [], by decide +kernel⟩,
⟨{ w [] with refclk := false }, by decide +kernel⟩⟩

theorem witness_every_step_keeps_the_domains_legal :
    ∃ (s : State) (t : State), s.domainsLegal ∧ step s = .next t :=
  ⟨{ State.reset with refclk := false }, { State.reset with refclk := false },
    ⟨by unfold State.domainsLegal DomSt.legal; decide +kernel, rfl⟩⟩

theorem witness_tick_is_kept_zeroed_or_counted_on :
    ∃ (s : State) (t : State), step s = .next t :=
  ⟨{ State.reset with refclk := false }, { State.reset with refclk := false }, rfl⟩

theorem witness_overdue_revocation_stalls_the_lead_proctor :
    ∃ (src : BitVec 8) (s : State), s.coreUp = true ∧ s.fencedSrc src.toNat = true ∧ (s.fcSrc src.toNat).revoked = false ∧
      (s.fcSrc (96 + s.lead)).wire = false ∧ (s.fcSrc (96 + s.lead)).sev < 3 :=
  ⟨0, { w [] with fc.src := [(0, { FcSrc.idle with fenced := true })] }, by decide +kernel⟩

theorem witness_queue_replies_signal_their_first_packet :
    (∃ (q : Fin 8) (r : List (Bool × BitVec 64)) (rest : List (List (Bool × BitVec 64))) (s : State), s.coreUp = true ∧
      s.fencedSrc (100 + q.val) = false ∧ (s.mqOf q).replies = r :: rest ∧ (s.mqOf q).up = [] ∧ s.get (F.MQ_PKTS.UP q) = 0 ∧
      r.length ≤ 2048 ∧ r.any (fun w => w.1) = true ∧ s.bit (F.MQ_CTL.IRQ_EN q) = true ∧ s.get (F.MQ_CFG.PATH q) = 0) ∧
    (∃ (q : Fin 8) (r : List (Bool × BitVec 64)) (rest : List (List (Bool × BitVec 64))) (s : State), s.coreUp = true ∧
      s.fencedSrc (100 + q.val) = false ∧ (s.mqOf q).replies = r :: rest ∧ (s.mqOf q).up = [] ∧ s.get (F.MQ_PKTS.UP q) = 0 ∧
      r.length ≤ 2048 ∧ r.any (fun w => w.1) = true ∧ s.bit (F.MQ_CTL.IRQ_EN q) = true ∧ s.get (F.MQ_CFG.PATH q) = 1 ∧
      s.boot.i3c = true) :=
  ⟨⟨0, [(true, 0)], [], { w [(F.MQ_CTL.IRQ_EN 0, 1)] with mq := [(0, { Mq.empty with replies := [[(true, 0)]] })] }, by decide +kernel⟩,
⟨0, [(true, 0)], [],
     { w [(F.MQ_CTL.IRQ_EN 0, 1), (F.MQ_CFG.PATH 0, 1)] with boot.i3c := true, mq := [(0, { Mq.empty with replies := [[(true, 0)]] })] }, by decide +kernel⟩⟩

theorem witness_supply_checks_retry_and_abandon :
    (∃ (o : PstOp) (s : State) (aux : BitVec 12) (cap : BitVec 12), s.pst.cur = some o ∧ s.pst.failing = true ∧
      (aux.toNat < s.num R.PST_AUX_MIN * 10 ∨ cap.toNat < 2800)) ∧
    (∃ (o : PstOp) (s : State) (aux : BitVec 12) (cap : BitVec 12), s.pst.cur = some o ∧ s.pst.failing = true ∧
      s.num R.PST_AUX_MIN * 10 ≤ aux.toNat ∧ 2800 ≤ cap.toNat) ∧
    (∃ (o : PstOp) (s : State), s.pst.cur = some o ∧ s.pst.failing = true ∧ s.pst.queue = [] ∧ s.coreUp = true ∧
      (s.fcSrc 4).wire = false) ∧
    (∃ (c : PstOp) (j : PstJob) (l : List PstJob) (s : State), s.pst.cur = some c ∧ c.job.isErase = false ∧ s.pst.rereq = j :: l) :=
  ⟨⟨⟨.counterInc 0, [], false, false⟩, { w [] with pst.failing := true, pst.cur := some ⟨.counterInc 0, [], false, false⟩ }, 0,
     2799, by decide +kernel⟩,
⟨⟨.counterInc 0, [], false, false⟩, { w [] with pst.failing := true, pst.cur := some ⟨.counterInc 0, [], false, false⟩ }, 0xFFF,
     2800, by decide +kernel⟩,
⟨⟨.counterInc 0, [], false, false⟩, { w [] with pst.failing := true, pst.cur := some ⟨.counterInc 0, [], false, false⟩ },
     by decide +kernel⟩,
⟨⟨.counterInc 0, [], false, false⟩, .counterInc 0, [],
     { w [] with pst.rereq := [.counterInc 0], pst.cur := some ⟨.counterInc 0, [], false, false⟩ }, by decide +kernel⟩⟩

theorem witness_flushes_act_at_packet_boundaries :
    (∃ (q : Fin 8) (path : Path) (k : Nat) (s : State), s.mqPath q path = some k ∧ s.fencedSrc (100 + q.val) = false ∧
      (s.mqOf q).dnOpen = false) ∧
    (∃ (q : Fin 8) (path : Path) (k : Nat) (s : State), s.mqPath q path = some k ∧ s.fencedSrc (100 + q.val) = false ∧
      (s.mqOf q).dnOpen = true) ∧
    (∃ (q : Fin 8) (path : Path) (k : Nat) (s : State), s.mqPath q path = some k ∧ s.fencedSrc (100 + q.val) = false ∧
      s.bit (F.MQ_STS.FLUSH_PEND_DN q) = true) ∧
    (∃ (q : Fin 8) (path : Path) (k : Nat) (s : State), s.mqPath q path = some k ∧ s.fencedSrc (100 + q.val) = false ∧
      (s.mqOf q).inPkt = false) ∧
    (∃ (q : Fin 8) (path : Path) (k : Nat) (s : State), s.mqPath q path = some k ∧ s.fencedSrc (100 + q.val) = false ∧
      (s.mqOf q).inPkt = true) ∧
    (∃ (q : Fin 8) (path : Path) (k : Nat) (s : State) (w : Bool × BitVec 64) (rest : List (Bool × BitVec 64)),
      s.mqPath q path = some k ∧ s.fencedSrc (100 + q.val) = false ∧ s.bit (F.MQ_STS.FLUSH_PEND_UP q) = true ∧
      (s.mqOf q).up = w :: rest) :=
  ⟨⟨0, .port 0, 0, w [], by decide +kernel⟩,
⟨0, .port 0, 0, { w [] with mq := [(0, { Mq.empty with dn := [(false, 0)] })] }, by decide +kernel⟩,
⟨0, .port 0, 0, w [(F.MQ_STS.FLUSH_PEND_DN 0, 1)], by decide +kernel⟩,
⟨0, .port 0, 0, w [], by decide +kernel⟩,
⟨0, .port 0, 0, { w [] with mq := [(0, { Mq.empty with inPkt := true })] }, by decide +kernel⟩,
⟨0, .port 0, 0, { w [(F.MQ_STS.FLUSH_PEND_UP 0, 1)] with mq := [(0, { Mq.empty with up := [(true, 0)] })] }, (true, 0), [],
     by decide +kernel⟩⟩

theorem witness_faults_outside_the_core_domain :
    (∃ (w : FltWord) (s : State), s.coreUp = false ∧ w.bad = false ∧ w.src.toNat ∈ [0, 2, 3, 4, 5, 121, 122]) ∧
    (∃ (w : FltWord) (s : State), s.coreUp = false ∧ w.bad = false ∧ w.src.toNat ∉ [0, 2, 3, 4, 5, 121, 122]) ∧
    (∃ (o : Nat) (s : State), s.coreUp = false ∧ pageOf o = 1) ∧
    (∃ (n : Nat) (s : State), s.boot.rstN = true ∧ s.bit F.PSQ_STS.RAILS_UP = true ∧ s.phase = Ph.on ∧ s.coreUp = false ∧
      s.boot.jtag = false ∧ s.dom.aon = true ∧ n ∈ s.fc.aonSeen ∧ n < 128) :=
  ⟨⟨⟨122, 0, 0, 0, false⟩, { w [] with dom := ⟨true, true, false, false⟩ }, by decide +kernel⟩,
⟨⟨1, 0, 0, 0, false⟩, { w [] with dom := ⟨true, true, false, false⟩ }, by decide +kernel⟩,
⟨0x1000, { w [] with dom := ⟨true, true, false, false⟩ }, by decide +kernel⟩,
⟨127, { w [] with dom := ⟨true, true, false, false⟩, boot.rstN := true, fc.aonSeen := [127] }, by decide +kernel⟩⟩

theorem witness_wire_faults_are_raised_against_the_collector :
    (∃ (src : BitVec 8) (s : State), src.toNat ≤ 124 ∧ s.coreUp = true ∧ (s.fcSrc (src.toNat)).wire = false ∧ (src.toNat) ≠ 1 ∧
      (s.fcSrc 1).sev < 2) ∧
    (∃ (src : BitVec 8) (s : State) (w : FltWord), src.toNat ≤ 124 ∧ s.coreUp = true ∧ (s.fcSrc (src.toNat)).wire = true ∧ w.src = src) ∧
    (∃ (src : BitVec 8) (s : State) (f : Flt), src.toNat ≤ 124 ∧ s.coreUp = true ∧ (s.fcSrc (src.toNat)).wire = true ∧
      (s.fcSrc (src.toNat)).word = some f ∧ f.src = (src.toNat) ∧ 2 ≤ f.sev ∧ (s.fcSrc (src.toNat)).sev < f.sev) :=
  ⟨⟨124, w [], by decide +kernel⟩,
⟨0, { w [] with fc.src := [(0, { FcSrc.idle with wire := true })] }, ⟨0, 0, 0, 0, false⟩, by decide +kernel⟩,
⟨0, { w [] with fc.src := [(0, { FcSrc.idle with wire := true, word := some ⟨0, 3, 0, 0⟩ })] }, ⟨0, 3, 0, 0⟩, by decide +kernel⟩⟩

theorem witness_other_ports_have_no_manager_writes :
    (∃ (p : Fin 8) (s : State), s.isManager (.port p) = false) ∧
    (∃ (p : Fin 8) (s : State), s.isManager (.port p) = false) ∧
    (∃ (p : Fin 8) (s : State), s.isManager (.port p) = false) ∧
    (∃ (p : Fin 8) (s : State), s.isManager (.port p) = false) ∧
    (∃ (p : Fin 8) (s : State), s.isManager (.port p) = false) ∧
    (∃ (p : Fin 8) (s : State), s.isManager (.port p) = false) :=
  ⟨⟨1, w [], by decide +kernel⟩,
⟨1, w [], by decide +kernel⟩,
⟨1, w [], by decide +kernel⟩,
⟨1, w [], by decide +kernel⟩,
⟨1, w [], by decide +kernel⟩,
⟨1, w [], by decide +kernel⟩⟩

theorem witness_low_read_captures_the_upper_half :
    ∃ (off : BitVec 24) (s : State), wideLo off.toNat = true ∧ off.toNat ≠ R.TST_PAT_BITS_LO ∧ s.boot.caps = [] :=
  ⟨0x108, w [], by decide +kernel⟩

theorem witness_proctors_gone_start_containment :
    ∃ (p : Fin 4) (src : BitVec 8) (s : State), src.toNat = 96 + p.val ∧ s.coreUp = true ∧ s.get F.FC_STS.HEALTHY = 2 ^ p.val ∧
      (s.fcSrc src.toNat).timer.isSome = true ∧ (s.fcSrc src.toNat).kind ≠ Kind.INJECT ∧ s.bit F.FC_STS.CONTAINING = false ∧
      s.phase = Ph.on ∧ s.psq.drained = false ∧ s.psq.marg = [] ∧ s.psq.test = none :=
  ⟨3, 99, { w [(F.FC_STS.HEALTHY, 8)] with fc.src := [(99, { FcSrc.idle with timer := some 1 })] }, by decide +kernel⟩

theorem witness_outside_the_commands_parts :
    ∃ (c : Instr) (s t : State) (p q r k : Part), exec c s = .next t ∧ (p ∈ Part.registers ∧ p ∉ c.parts) ∧
      (q ∈ Part.dataPath ∧ q ∉ c.parts) ∧ (r ∈ Part.service ∧ r ∉ c.parts) ∧ k ∈ Part.aon ∧ k ∉ c.parts :=
  ⟨.refclkReturn, w [], { w [] with refclk := true }, .regs 21, .rt, .hp, .tick, rfl, by decide +kernel⟩

end Sys2Proof.Tests
end

section
/-! SUPPORT. The frame of every command in the terms of Footprint.lean: `exec` leaves each part that the command's list does not hold. -/

set_option autoImplicit false

namespace Sys2Proof.Machine

/-- The bit of a part in the masks of `Same`. -/
def Part.index : Part → Nat
  | .tick => 4 | .refclk => 5 | .domains => 6 | .opSecs => 7 | .pst => 8 | .rb => 9 | .fc => 10 | .rt => 11 | .lc => 12 | .te => 13
  | .ce => 14 | .hp => 15 | .tw => 16 | .dc => 17 | .media => 18 | .mcTry => 19 | .sir => 20 | .hk => 21 | .arch => 22 | .psq => 23
  | .boot => 24 | .mq => 25 | .test => 26
  | .regs b => 27 + b

/-- The part whose bit it is; the bits 0 to 3 (queue, outputs, free values, register file) are no part's. -/
def Part.ofIndex : Nat → Option Part
  | 4 => some .tick | 5 => some .refclk | 6 => some .domains | 7 => some .opSecs | 8 => some .pst | 9 => some .rb | 10 => some .fc
  | 11 => some .rt | 12 => some .lc | 13 => some .te | 14 => some .ce | 15 => some .hp | 16 => some .tw | 17 => some .dc
  | 18 => some .media | 19 => some .mcTry | 20 => some .sir | 21 => some .hk | 22 => some .arch | 23 => some .psq | 24 => some .boot
  | 25 => some .mq | 26 => some .test
  | b + 27 => some (.regs b)
  | _ => none

theorem Part.ofIndex_index (p : Part) : Part.ofIndex p.index = some p := by
  cases p with
  | regs b => simp only [index, Nat.add_comm 27 b, ofIndex]
  | _ => rfl

theorem Part.index_inj {p q : Part} (h : p.index = q.index) : p = q :=
  Option.some.inj ((ofIndex_index p).symm.trans ((congrArg ofIndex h).trans (ofIndex_index q)))

theorem Part.four_le_index (p : Part) : 4 ≤ p.index := by
  cases p <;> simp only [index] <;> omega

/-- The mask of the parts of a list; the outputs, the free values and the register file (bits 1 to 3) may change with any of them. -/
def partsMask (l : List Part) : Nat := l.foldr (fun p m => 2 ^ p.index ||| m) 14

theorem partsMask_testBit {l : List Part} {p : Part} (h : p ∉ l) : (partsMask l).testBit p.index = false := by
  induction l with
  | nil => exact Nat.testBit_lt_two_pow (Nat.lt_of_lt_of_le (by decide : 14 < 2 ^ 4) (Nat.pow_le_pow_right (by decide) p.four_le_index))
  | cons q l ih =>
    obtain ⟨hq, hl⟩ := List.ne_and_not_mem_of_not_mem_cons h
    have hne : q.index ≠ p.index := fun e => hq (Part.index_inj e).symm
    simp only [partsMask, List.foldr_cons, Nat.testBit_or, Nat.testBit_two_pow_of_ne hne, Bool.false_or]
    exact ih hl

/-- States that differ at most in the kinds of state of a mask agree on each part whose bit it does not hold. -/
theorem Same.kept {m : Nat} {s t : State} (h : Same m s t) {p : Part} (hp : m.testBit p.index = false) : p.kept s t := by
  cases p with
  | tick => exact h.tick hp
  | refclk => exact h.refclk hp
  | domains => exact h.dom hp
  | opSecs => exact h.opSecs hp
  | pst => exact h.pst hp
  | rb => exact h.rb hp
  | fc => exact h.fc hp
  | rt => exact h.rt hp
  | lc => exact h.lc hp
  | te => exact h.te hp
  | ce => exact h.ce hp
  | hp => exact h.hp hp
  | tw => exact h.tw hp
  | dc => exact h.dc hp
  | media => exact h.md hp
  | mcTry => exact h.mcTry hp
  | sir => exact h.sir hp
  | hk => exact h.hk hp
  | arch => exact h.arch hp
  | psq => exact h.psq hp
  | boot => exact h.boot hp
  | mq => exact h.mq hp
  | test => exact h.tst hp
  | regs b => exact fun o ho hb => h.own o ho (hb ▸ hp)

/-- Every command ends in a next state that differs at most in the command's parts: its meaning's frame, one command a line. -/
theorem exec_ends (c : Instr) (s : State) : Ends (partsMask c.parts) s (exec c s) := by
  cases c with dsimp only [exec, Instr.parts]
  | speedWindowEnd => exact execSpeedWindowEnd_keeps rfl (Same.refl _ _)
  | guardLevelReturn => exact execGuardLevelReturn_keeps rfl (Same.refl _ _)
  | speedMonitorOdd => exact execSpeedMonitorOdd_keeps rfl (Same.refl _ _)
  | governorEvaluation => exact execGovernorEvaluation_keeps rfl (Same.refl _ _)
  | avsbusWriteDone => exact execAvsbusWriteDone_keeps rfl (Same.refl _ _)
  | tickCopyCompare => exact execTickCopyCompare_keeps rfl (Same.refl _ _)
  | refclkAbsent => exact execRefclkAbsent_keeps rfl (Same.refl _ _)
  | refclkReturn => exact execRefclkReturn_keeps rfl (Same.refl _ _)
  | memReadRequest => exact execMemReadRequest_keeps rfl (Same.refl _ _)
  | dramReadComplete => exact execDramReadComplete_keeps rfl (Same.refl _ _)
  | heldMissDispatch => exact execHeldMissDispatch_keeps rfl (Same.refl _ _)
  | mediaLineReceived => exact execMediaLineReceived_keeps rfl (Same.refl _ _)
  | cipherRequestDone => exact execCipherRequestDone_keeps rfl (Same.refl _ _)
  | gpfPhase1 => exact execGpfPhase1_keeps rfl (Same.refl _ _)
  | gpfPhase2 => exact execGpfPhase2_keeps rfl (Same.refl _ _)
  | memWriteRequest => exact execMemWriteRequest_keeps rfl (Same.refl _ _)
  | bpHoldExpiry => exact execBpHoldExpiry_keeps rfl (Same.refl _ _)
  | lineEviction => exact execLineEviction_keeps rfl (Same.refl _ _)
  | tileAgeLimit => exact execTileAgeLimit_keeps rfl (Same.refl _ _)
  | pageWaitExpiry => exact execPageWaitExpiry_keeps rfl (Same.refl _ _)
  | pageProgramStart => exact execPageProgramStart_keeps rfl (Same.refl _ _)
  | pageProgramIssue => exact execPageProgramIssue_keeps rfl (Same.refl _ _)
  | statusWordReceived => exact execStatusWordReceived_keeps rfl (Same.refl _ _)
  | tsFlush => exact execTsFlush_keeps rfl (Same.refl _ _)
  | tsCntClr => exact execTsCntClr_keeps rfl (Same.refl _ _)
  | lcEnClear => exact execLcEnClear_keeps rfl (Same.refl _ _)
  | lcEnSet => exact execLcEnSet_keeps rfl (Same.refl _ _)
  | safeDisable => exact execSafeDisable_keeps rfl (Same.refl _ _)
  | rangeInvalidate => exact execRangeInvalidate_keeps rfl (Same.refl _ _)
  | rangeClean => exact execRangeClean_keeps rfl (Same.refl _ _)
  | rangeCleanInv => exact execRangeCleanInv_keeps rfl (Same.refl _ _)
  | rangeLock => exact execRangeLock_keeps rfl (Same.refl _ _)
  | rangeUnlock => exact execRangeUnlock_keeps rfl (Same.refl _ _)
  | rangeZero => exact execRangeZero_keeps rfl (Same.refl _ _)
  | walkerTakeOperation => exact execWalkerTakeOperation_keeps rfl (Same.refl _ _)
  | walkerVisit => exact execWalkerVisit_keeps rfl (Same.refl _ _)
  | lcCheckWalkDone => exact execLcCheckWalkDone_keeps rfl (Same.refl _ _)
  | lcCntClr => exact execLcCntClr_keeps rfl (Same.refl _ _)
  | mapcEnClear => exact execMapcEnClear_keeps rfl (Same.refl _ _)
  | mapcInv => exact execMapcInv_keeps rfl (Same.refl _ _)
  | mapcInvDone => exact execMapcInvDone_keeps rfl (Same.refl _ _)
  | mapcCntClr => exact execMapcCntClr_keeps rfl (Same.refl _ _)
  | mapRepairDone => exact execMapRepairDone_keeps rfl (Same.refl _ _)
  | ptileConvert => exact execPtileConvert_keeps rfl (Same.refl _ _)
  | seqHwRaised => exact execSeqHwRaised_keeps rfl (Same.refl _ _)
  | journalIntervalExpiry => exact execJournalIntervalExpiry_keeps rfl (Same.refl _ _)
  | teFlush => exact execTeFlush_keeps rfl (Same.refl _ _)
  | teCkptAll => exact execTeCkptAll_keeps rfl (Same.refl _ _)
  | checkpointWrite => exact execCheckpointWrite_keeps rfl (Same.refl _ _)
  | teCntClr => exact execTeCntClr_keeps rfl (Same.refl _ _)
  | rebuild => exact execRebuild_keeps rfl (Same.refl _ _)
  | stripeCloseTimeout => exact execStripeCloseTimeout_keeps rfl (Same.refl _ _)
  | verifyEligible => exact execVerifyEligible_keeps rfl (Same.refl _ _)
  | pageVerify => exact execPageVerify_keeps rfl (Same.refl _ _)
  | blockErase => exact execBlockErase_keeps rfl (Same.refl _ _)
  | gcCopy => exact execGcCopy_keeps rfl (Same.refl _ _)
  | wearLevelCopy => exact execWearLevelCopy_keeps rfl (Same.refl _ _)
  | spareRecompute => exact execSpareRecompute_keeps rfl (Same.refl _ _)
  | retiredDieTileWork => exact execRetiredDieTileWork_keeps rfl (Same.refl _ _)
  | teUpkCntClr => exact execTeUpkCntClr_keeps rfl (Same.refl _ _)
  | mgObpCntClr => exact execMgObpCntClr_keeps rfl (Same.refl _ _)
  | channelTraining => exact execChannelTraining_keeps rfl (Same.refl _ _)
  | readyRoundReport => exact execReadyRoundReport_keeps rfl (Same.refl _ _)
  | readTimeout => exact execReadTimeout_keeps rfl (Same.refl _ _)
  | trackInterval => exact execTrackInterval_keeps rfl (Same.refl _ _)
  | suspendWarn => exact execSuspendWarn_keeps rfl (Same.refl _ _)
  | mcRetrain => exact execMcRetrain_keeps rfl (Same.refl _ _)
  | mcPatStart => exact execMcPatStart_keeps rfl (Same.refl _ _)
  | mcPatStop => exact execMcPatStop_keeps rfl (Same.refl _ _)
  | mcCntClr => exact execMcCntClr_keeps rfl (Same.refl _ _)
  | readLine => exact execReadLine_keeps rfl (Same.refl _ _)
  | sendH => exact execSendH_keeps rfl (Same.refl _ _)
  | sendB => exact execSendB_keeps rfl (Same.refl _ _)
  | progSetup => exact execProgSetup_keeps rfl (Same.refl _ _)
  | dataIn => exact execDataIn_keeps rfl (Same.refl _ _)
  | progConfirm => exact execProgConfirm_keeps rfl (Same.refl _ _)
  | progCancel => exact execProgCancel_keeps rfl (Same.refl _ _)
  | erase => exact execErase_keeps rfl (Same.refl _ _)
  | suspend => exact execSuspend_keeps rfl (Same.refl _ _)
  | resume => exact execResume_keeps rfl (Same.refl _ _)
  | status => exact execStatus_keeps rfl (Same.refl _ _)
  | featureSet => exact execFeatureSet_keeps rfl (Same.refl _ _)
  | featureGet => exact execFeatureGet_keeps rfl (Same.refl _ _)
  | refAdj => exact execRefAdj_keeps rfl (Same.refl _ _)
  | train => exact execTrain_keeps rfl (Same.refl _ _)
  | sync => exact execSync_keeps rfl (Same.refl _ _)
  | reset => exact execReset_keeps rfl (Same.refl _ _)
  | rstN => exact execRstN_keeps rfl (Same.refl _ _)
  | lineSensed => exact execLineSensed_keeps rfl (Same.refl _ _)
  | operationEnds => exact execOperationEnds_keeps rfl (Same.refl _ _)
  | suspensionPointReached => exact execSuspensionPointReached_keeps rfl (Same.refl _ _)
  | dieResetDone => exact execDieResetDone_keeps rfl (Same.refl _ _)
  | driftClockSecond => exact execDriftClockSecond_keeps rfl (Same.refl _ _)
  | ageLedgerEntry => exact execAgeLedgerEntry_keeps rfl (Same.refl _ _)
  | dramLedgerEntry => exact execDramLedgerEntry_keeps rfl (Same.refl _ _)
  | blockAgeRecompute => exact execBlockAgeRecompute_keeps rfl (Same.refl _ _)
  | referenceSetLoad => exact execReferenceSetLoad_keeps rfl (Same.refl _ _)
  | readReferenceTracking => exact execReadReferenceTracking_keeps rfl (Same.refl _ _)
  | ageSweep => exact execAgeSweep_keeps rfl (Same.refl _ _)
  | driftRefresh => exact execDriftRefresh_keeps rfl (Same.refl _ _)
  | scrubPass => exact execScrubPass_keeps rfl (Same.refl _ _)
  | unrequestedRecovery => exact execUnrequestedRecovery_keeps rfl (Same.refl _ _)
  | sramPatrolPass => exact execSramPatrolPass_keeps rfl (Same.refl _ _)
  | sramPatrolWord => exact execSramPatrolWord_keeps rfl (Same.refl _ _)
  | sirChkWrite => exact execSirChkWrite_keeps rfl (Same.refl _ _)
  | sirChkRead => exact execSirChkRead_keeps rfl (Same.refl _ _)
  | sirChkEnd => exact execSirChkEnd_keeps rfl (Same.refl _ _)
  | mgCwEncode => exact execMgCwEncode_keeps rfl (Same.refl _ _)
  | mgCwDecode => exact execMgCwDecode_keeps rfl (Same.refl _ _)
  | sirLagClr => exact execSirLagClr_keeps rfl (Same.refl _ _)
  | sirCntClr => exact execSirCntClr_keeps rfl (Same.refl _ _)
  | mgCdcCntClr => exact execMgCdcCntClr_keeps rfl (Same.refl _ _)
  | keyDerivationDone => exact execKeyDerivationDone_keeps rfl (Same.refl _ _)
  | slotFreed => exact execSlotFreed_keeps rfl (Same.refl _ _)
  | rotationRecordWritten => exact execRotationRecordWritten_keeps rfl (Same.refl _ _)
  | entropyHealthTest => exact execEntropyHealthTest_keeps rfl (Same.refl _ _)
  | entropyRetry => exact execEntropyRetry_keeps rfl (Same.refl _ _)
  | drbgReseed => exact execDrbgReseed_keeps rfl (Same.refl _ _)
  | exportChunkProduce => exact execExportChunkProduce_keeps rfl (Same.refl _ _)
  | importLineWrite => exact execImportLineWrite_keeps rfl (Same.refl _ _)
  | importTrailer => exact execImportTrailer_keeps rfl (Same.refl _ _)
  | importChunkCommit => exact execImportChunkCommit_keeps rfl (Same.refl _ _)
  | katRun => exact execKatRun_keeps rfl (Same.refl _ _)
  | ceCntClr => exact execCeCntClr_keeps rfl (Same.refl _ _)
  | hello => exact execHello_keeps rfl (Same.refl _ _)
  | proof => exact execProof_keeps rfl (Same.refl _ _)
  | hb => exact execHb_keeps rfl (Same.refl _ _)
  | crd => exact execCrd_keeps rfl (Same.refl _ _)
  | down cause => exact execDown_keeps (a0 := cause) rfl (Same.refl _ _)
  | fwdRd => exact execFwdRd_keeps rfl (Same.refl _ _)
  | fwdWr => exact execFwdWr_keeps rfl (Same.refl _ _)
  | fwdRsp => exact execFwdRsp_keeps rfl (Same.refl _ _)
  | fwdCmp => exact execFwdCmp_keeps rfl (Same.refl _ _)
  | mwr => exact execMwr_keeps rfl (Same.refl _ _)
  | mcmd => exact execMcmd_keeps rfl (Same.refl _ _)
  | mack => exact execMack_keeps rfl (Same.refl _ _)
  | mcmdAck => exact execMcmdAck_keeps rfl (Same.refl _ _)
  | repReq => exact execRepReq_keeps rfl (Same.refl _ _)
  | repRsp => exact execRepRsp_keeps rfl (Same.refl _ _)
  | tokenOffer => exact execTokenOffer_keeps rfl (Same.refl _ _)
  | tokenTake => exact execTokenTake_keeps rfl (Same.refl _ _)
  | tokenDone => exact execTokenDone_keeps rfl (Same.refl _ _)
  | rsStart => exact execRsStart_keeps rfl (Same.refl _ _)
  | rsChunk => exact execRsChunk_keeps rfl (Same.refl _ _)
  | rsChunkCommit => exact execRsChunkCommit_keeps rfl (Same.refl _ _)
  | rsRes => exact execRsRes_keeps rfl (Same.refl _ _)
  | rsSuspect => exact execRsSuspect_keeps rfl (Same.refl _ _)
  | rsEnd => exact execRsEnd_keeps rfl (Same.refl _ _)
  | carIdleTo => exact execCarIdleTo_keeps rfl (Same.refl _ _)
  | carRspTo => exact execCarRspTo_keeps rfl (Same.refl _ _)
  | mcmdTimeout => exact execMcmdTimeout_keeps rfl (Same.refl _ _)
  | repairTimeout => exact execRepairTimeout_keeps rfl (Same.refl _ _)
  | flitReplayLimit => exact execFlitReplayLimit_keeps rfl (Same.refl _ _)
  | aliveTimeout => exact execAliveTimeout_keeps rfl (Same.refl _ _)
  | caravanSignalLoss => exact execCaravanSignalLoss_keeps rfl (Same.refl _ _)
  | failoverSettle => exact execFailoverSettle_keeps rfl (Same.refl _ _)
  | failoverWindowEnd => exact execFailoverWindowEnd_keeps rfl (Same.refl _ _)
  | side1TokenWait => exact execSide1TokenWait_keeps rfl (Same.refl _ _)
  | twinTokenChange => exact execTwinTokenChange_keeps rfl (Same.refl _ _)
  | aliveToggle => exact execAliveToggle_keeps rfl (Same.refl _ _)
  | hbSend => exact execHbSend_keeps rfl (Same.refl _ _)
  | caravanLinkUp => exact execCaravanLinkUp_keeps rfl (Same.refl _ _)
  | caravanTrainRetry => exact execCaravanTrainRetry_keeps rfl (Same.refl _ _)
  | roleDecision => exact execRoleDecision_keeps rfl (Same.refl _ _)
  | admitPair => exact execAdmitPair_keeps rfl (Same.refl _ _)
  | admitSolo => exact execAdmitSolo_keeps rfl (Same.refl _ _)
  | admitKeep => exact execAdmitKeep_keeps rfl (Same.refl _ _)
  | detach => exact execDetach_keeps rfl (Same.refl _ _)
  | carRetrain => exact execCarRetrain_keeps rfl (Same.refl _ _)
  | carCntClr => exact execCarCntClr_keeps rfl (Same.refl _ _)
  | perstNAssert => exact execPerstNAssert_keeps rfl (Same.refl _ _)
  | perstNRelease => exact execPerstNRelease_keeps rfl (Same.refl _ _)
  | hostLinkUp => exact execHostLinkUp_keeps rfl (Same.refl _ _)
  | hostLinkDown => exact execHostLinkDown_keeps rfl (Same.refl _ _)
  | ideIntegrityFailure => exact execIdeIntegrityFailure_keeps rfl (Same.refl _ _)
  | ideKm => exact execIdeKm_keeps rfl (Same.refl _ _)
  | spdmRequest => exact execSpdmRequest_keeps rfl (Same.refl _ _)
  | getEventRecords => exact execGetEventRecords_keeps rfl (Same.refl _ _)
  | clearEventRecords => exact execClearEventRecords_keeps rfl (Same.refl _ _)
  | getEventInterruptPolicy => exact execGetEventInterruptPolicy_keeps rfl (Same.refl _ _)
  | setEventInterruptPolicy => exact execSetEventInterruptPolicy_keeps rfl (Same.refl _ _)
  | getFwInfo => exact execGetFwInfo_keeps rfl (Same.refl _ _)
  | transferFw => exact execTransferFw_keeps rfl (Same.refl _ _)
  | activateFw => exact execActivateFw_keeps rfl (Same.refl _ _)
  | getTimestamp => exact execGetTimestamp_keeps rfl (Same.refl _ _)
  | setTimestamp => exact execSetTimestamp_keeps rfl (Same.refl _ _)
  | getSupportedLogs => exact execGetSupportedLogs_keeps rfl (Same.refl _ _)
  | getLog => exact execGetLog_keeps rfl (Same.refl _ _)
  | identifyMemoryDevice => exact execIdentifyMemoryDevice_keeps rfl (Same.refl _ _)
  | getHealthInfo => exact execGetHealthInfo_keeps rfl (Same.refl _ _)
  | getAlertConfiguration => exact execGetAlertConfiguration_keeps rfl (Same.refl _ _)
  | setAlertConfiguration => exact execSetAlertConfiguration_keeps rfl (Same.refl _ _)
  | getShutdownState => exact execGetShutdownState_keeps rfl (Same.refl _ _)
  | setShutdownState => exact execSetShutdownState_keeps rfl (Same.refl _ _)
  | getPoisonList => exact execGetPoisonList_keeps rfl (Same.refl _ _)
  | injectPoison => exact execInjectPoison_keeps rfl (Same.refl _ _)
  | clearPoison => exact execClearPoison_keeps rfl (Same.refl _ _)
  | getScanMediaCapabilities => exact execGetScanMediaCapabilities_keeps rfl (Same.refl _ _)
  | scanMedia => exact execScanMedia_keeps rfl (Same.refl _ _)
  | getScanMediaResults => exact execGetScanMediaResults_keeps rfl (Same.refl _ _)
  | sanitize => exact execSanitize_keeps rfl (Same.refl _ _)
  | secureErase => exact execSecureErase_keeps rfl (Same.refl _ _)
  | getDcConfiguration => exact execGetDcConfiguration_keeps rfl (Same.refl _ _)
  | getDcExtentList => exact execGetDcExtentList_keeps rfl (Same.refl _ _)
  | addDcResponse => exact execAddDcResponse_keeps rfl (Same.refl _ _)
  | releaseDc => exact execReleaseDc_keeps rfl (Same.refl _ _)
  | unsupportedOpcode => exact execUnsupportedOpcode_keeps rfl (Same.refl _ _)
  | getLatencyReport => exact execGetLatencyReport_keeps rfl (Same.refl _ _)
  | regionSet => exact execRegionSet_keeps rfl (Same.refl _ _)
  | contextSet => exact execContextSet_keeps rfl (Same.refl _ _)
  | regionEnable => exact execRegionEnable_keeps rfl (Same.refl _ _)
  | regionDisable => exact execRegionDisable_keeps rfl (Same.refl _ _)
  | regionDisableForce => exact execRegionDisableForce_keeps rfl (Same.refl _ _)
  | regionDisableTimeout => exact execRegionDisableTimeout_keeps rfl (Same.refl _ _)
  | regionQuery => exact execRegionQuery_keeps rfl (Same.refl _ _)
  | contextPrepare => exact execContextPrepare_keeps rfl (Same.refl _ _)
  | rekey => exact execRekey_keeps rfl (Same.refl _ _)
  | rekeyErase => exact execRekeyErase_keeps rfl (Same.refl _ _)
  | discard => exact execDiscard_keeps rfl (Same.refl _ _)
  | secureDiscardAccept => exact execSecureDiscardAccept_keeps rfl (Same.refl _ _)
  | getReportCard => exact execGetReportCard_keeps rfl (Same.refl _ _)
  | setReadWrite => exact execSetReadWrite_keeps rfl (Same.refl _ _)
  | portRoleSet => exact execPortRoleSet_keeps rfl (Same.refl _ _)
  | lifecycleSet => exact execLifecycleSet_keeps rfl (Same.refl _ _)
  | loadTransferKey => exact execLoadTransferKey_keeps rfl (Same.refl _ _)
  | loadPairKey => exact execLoadPairKey_keeps rfl (Same.refl _ _)
  | streamOpen => exact execStreamOpen_keeps rfl (Same.refl _ _)
  | streamRun => exact execStreamRun_keeps rfl (Same.refl _ _)
  | streamSave => exact execStreamSave_keeps rfl (Same.refl _ _)
  | streamRestore => exact execStreamRestore_keeps rfl (Same.refl _ _)
  | streamAbort => exact execStreamAbort_keeps rfl (Same.refl _ _)
  | rollBookRead => exact execRollBookRead_keeps rfl (Same.refl _ _)
  | rollBookArchiveAndClear => exact execRollBookArchiveAndClear_keeps rfl (Same.refl _ _)
  | parameterRead => exact execParameterRead_keeps rfl (Same.refl _ _)
  | parameterWrite => exact execParameterWrite_keeps rfl (Same.refl _ _)
  | hpRetrain => exact execHpRetrain_keeps rfl (Same.refl _ _)
  | hpCntClr => exact execHpCntClr_keeps rfl (Same.refl _ _)
  | hpBwWinWrite => exact execHpBwWinWrite_keeps rfl (Same.refl _ _)
  | bandwidthWindowEnd => exact execBandwidthWindowEnd_keeps rfl (Same.refl _ _)
  | dramTraining => exact execDramTraining_keeps rfl (Same.refl _ _)
  | dramRefresh => exact execDramRefresh_keeps rfl (Same.refl _ _)
  | mr4Poll => exact execMr4Poll_keeps rfl (Same.refl _ _)
  | dramScrubWord => exact execDramScrubWord_keeps rfl (Same.refl _ _)
  | dcCntClr => exact execDcCntClr_keeps rfl (Same.refl _ _)
  | modEnRise => exact execModEnRise_keeps rfl (Same.refl _ _)
  | modEnFall => exact execModEnFall_keeps rfl (Same.refl _ _)
  | psqOn => exact execPsqOn_keeps rfl (Same.refl _ _)
  | psqOff => exact execPsqOff_keeps rfl (Same.refl _ _)
  | psqClrLock => exact execPsqClrLock_keeps rfl (Same.refl _ _)
  | inputFail => exact execInputFail_keeps rfl (Same.refl _ _)
  | inputGood => exact execInputGood_keeps rfl (Same.refl _ _)
  | powerUpStart => exact execPowerUpStart_keeps rfl (Same.refl _ _)
  | dischWaitTimeout => exact execDischWaitTimeout_keeps rfl (Same.refl _ _)
  | railEnableDelay => exact execRailEnableDelay_keeps rfl (Same.refl _ _)
  | railPowerGood => exact execRailPowerGood_keeps rfl (Same.refl _ _)
  | pgTimeout => exact execPgTimeout_keeps rfl (Same.refl _ _)
  | railDischarged => exact execRailDischarged_keeps rfl (Same.refl _ _)
  | disTimeout => exact execDisTimeout_keeps rfl (Same.refl _ _)
  | minOffEnd => exact execMinOffEnd_keeps rfl (Same.refl _ _)
  | railPgFall => exact execRailPgFall_keeps rfl (Same.refl _ _)
  | marginApply => exact execMarginApply_keeps rfl (Same.refl _ _)
  | marginStop => exact execMarginStop_keeps rfl (Same.refl _ _)
  | marginTimeout => exact execMarginTimeout_keeps rfl (Same.refl _ _)
  | pmbusTransactionDone => exact execPmbusTransactionDone_keeps rfl (Same.refl _ _)
  | cisternAverage => exact execCisternAverage_keeps rfl (Same.refl _ _)
  | budgetCompute => exact execBudgetCompute_keeps rfl (Same.refl _ _)
  | cisTest => exact execCisTest_keeps rfl (Same.refl _ _)
  | cisChargeDeadline => exact execCisChargeDeadline_keeps rfl (Same.refl _ _)
  | cisTestInterval => exact execCisTestInterval_keeps rfl (Same.refl _ _)
  | cisTestDeferRetry => exact execCisTestDeferRetry_keeps rfl (Same.refl _ _)
  | cisTestRepeat => exact execCisTestRepeat_keeps rfl (Same.refl _ _)
  | capTestStep => exact execCapTestStep_keeps rfl (Same.refl _ _)
  | drainStepDone => exact execDrainStepDone_keeps rfl (Same.refl _ _)
  | thermalDrainLimit => exact execThermalDrainLimit_keeps rfl (Same.refl _ _)
  | shutdownStepDone => exact execShutdownStepDone_keeps rfl (Same.refl _ _)
  | psqCntClr => exact execPsqCntClr_keeps rfl (Same.refl _ _)
  | cisCntClr => exact execCisCntClr_keeps rfl (Same.refl _ _)
  | housekeepingReading => exact execHousekeepingReading_keeps rfl (Same.refl _ _)
  | throttleLevelFall => exact execThrottleLevelFall_keeps rfl (Same.refl _ _)
  | rorArm => exact execRorArm_keeps rfl (Same.refl _ _)
  | restartHoldRelease => exact execRestartHoldRelease_keeps rfl (Same.refl _ _)
  | hkReadmit => exact execHkReadmit_keeps rfl (Same.refl _ _)
  | hkCntClr => exact execHkCntClr_keeps rfl (Same.refl _ _)
  | operatingSecond => exact execOperatingSecond_keeps rfl (Same.refl _ _)
  | pstProgramDone => exact execPstProgramDone_keeps rfl (Same.refl _ _)
  | pstEraseDone => exact execPstEraseDone_keeps rfl (Same.refl _ _)
  | pstSupplyRetry => exact execPstSupplyRetry_keeps rfl (Same.refl _ _)
  | pstSupplyAbandon => exact execPstSupplyAbandon_keeps rfl (Same.refl _ _)
  | pstWriteRerequest => exact execPstWriteRerequest_keeps rfl (Same.refl _ _)
  | pstWinRead => exact execPstWinRead_keeps rfl (Same.refl _ _)
  | pstWinWrite => exact execPstWinWrite_keeps rfl (Same.refl _ _)
  | pstErase => exact execPstErase_keeps rfl (Same.refl _ _)
  | pstLoad => exact execPstLoad_keeps rfl (Same.refl _ _)
  | pstCommit => exact execPstCommit_keeps rfl (Same.refl _ _)
  | pstPatrolRow => exact execPstPatrolRow_keeps rfl (Same.refl _ _)
  | pstCntClr => exact execPstCntClr_keeps rfl (Same.refl _ _)
  | rollBookRecordWrite => exact execRollBookRecordWrite_keeps rfl (Same.refl _ _)
  | rbRecRead => exact execRbRecRead_keeps rfl (Same.refl _ _)
  | rbCntClr => exact execRbCntClr_keeps rfl (Same.refl _ _)
  | faultRaise => exact execFaultRaise_keeps rfl (Same.refl _ _)
  | wireFault => exact execWireFault_keeps rfl (Same.refl _ _)
  | faultWordPoll => exact execFaultWordPoll_keeps rfl (Same.refl _ _)
  | fltForceGo => exact execFltForceGo_keeps rfl (Same.refl _ _)
  | fltForceWire => exact execFltForceWire_keeps rfl (Same.refl _ _)
  | escalationTimeout => exact execEscalationTimeout_keeps rfl (Same.refl _ _)
  | fcAck => exact execFcAck_keeps rfl (Same.refl _ _)
  | fcResolve => exact execFcResolve_keeps rfl (Same.refl _ _)
  | fcEsc => exact execFcEsc_keeps rfl (Same.refl _ _)
  | fcRevoke => exact execFcRevoke_keeps rfl (Same.refl _ _)
  | revocationDone => exact execRevocationDone_keeps rfl (Same.refl _ _)
  | fcUnfence => exact execFcUnfence_keeps rfl (Same.refl _ _)
  | fcProcBeat => exact execFcProcBeat_keeps rfl (Same.refl _ _)
  | proctorBeatMissing => exact execProctorBeatMissing_keeps rfl (Same.refl _ _)
  | revokeOverdue => exact execRevokeOverdue_keeps rfl (Same.refl _ _)
  | fcFirstClr => exact execFcFirstClr_keeps rfl (Same.refl _ _)
  | fcContainNow => exact execFcContainNow_keeps rfl (Same.refl _ _)
  | fcDrainLimit => exact execFcDrainLimit_keeps rfl (Same.refl _ _)
  | fcCntClr => exact execFcCntClr_keeps rfl (Same.refl _ _)
  | mqPushLo => exact execMqPushLo_keeps rfl (Same.refl _ _)
  | mqPushHi => exact execMqPushHi_keeps rfl (Same.refl _ _)
  | mqPushHiEnd => exact execMqPushHiEnd_keeps rfl (Same.refl _ _)
  | mqPopLo => exact execMqPopLo_keeps rfl (Same.refl _ _)
  | mqPopHi => exact execMqPopHi_keeps rfl (Same.refl _ _)
  | mqFlushDn => exact execMqFlushDn_keeps rfl (Same.refl _ _)
  | mqFlushUp => exact execMqFlushUp_keeps rfl (Same.refl _ _)
  | mqReset => exact execMqReset_keeps rfl (Same.refl _ _)
  | mqCntClr => exact execMqCntClr_keeps rfl (Same.refl _ _)
  | mqCommand => exact execMqCommand_keeps rfl (Same.refl _ _)
  | mqReply => exact execMqReply_keeps rfl (Same.refl _ _)
  | pcWinStart => exact execPcWinStart_keeps rfl (Same.refl _ _)
  | pcWinStop => exact execPcWinStop_keeps rfl (Same.refl _ _)
  | pcWinClr => exact execPcWinClr_keeps rfl (Same.refl _ _)
  | pcWindowEnd => exact execPcWindowEnd_keeps rfl (Same.refl _ _)
  | tstPcStart => exact execTstPcStart_keeps rfl (Same.refl _ _)
  | tstPcStop => exact execTstPcStop_keeps rfl (Same.refl _ _)
  | tstPhyCtlWrite => exact execTstPhyCtlWrite_keeps rfl (Same.refl _ _)
  | tstPatStart => exact execTstPatStart_keeps rfl (Same.refl _ _)
  | tstPatStop => exact execTstPatStop_keeps rfl (Same.refl _ _)
  | tstPatInj => exact execTstPatInj_keeps rfl (Same.refl _ _)
  | tstMargStart => exact execTstMargStart_keeps rfl (Same.refl _ _)
  | tstMargStop => exact execTstMargStop_keeps rfl (Same.refl _ _)
  | marginStepEnd => exact execMarginStepEnd_keeps rfl (Same.refl _ _)
  | laneMarginCommand => exact execLaneMarginCommand_keeps rfl (Same.refl _ _)
  | pcieLoopbackEntry => exact execPcieLoopbackEntry_keeps rfl (Same.refl _ _)
  | jtagInstructionUpdate => exact execJtagInstructionUpdate_keeps rfl (Same.refl _ _)
  | trstN => exact execTrstN_keeps rfl (Same.refl _ _)
  | auxRise => exact execAuxRise_keeps rfl (Same.refl _ _)
  | auxFall => exact execAuxFall_keeps rfl (Same.refl _ _)
  | aonReady => exact execAonReady_keeps rfl (Same.refl _ _)
  | configurationLoaded => exact execConfigurationLoaded_keeps rfl (Same.refl _ _)
  | firmwareVerified => exact execFirmwareVerified_keeps rfl (Same.refl _ _)
  | memoryActive => exact execMemoryActive_keeps rfl (Same.refl _ _)
  | devRstNAssert => exact execDevRstNAssert_keeps rfl (Same.refl _ _)
  | devRstNRelease => exact execDevRstNRelease_keeps rfl (Same.refl _ _)
  | bootCtlReset => exact execBootCtlReset_keeps rfl (Same.refl _ _)
  | registerResetExecute => exact execRegisterResetExecute_keeps rfl (Same.refl _ _)
  | softRst => exact execSoftRst_keeps rfl (Same.refl _ _)
  | lockSet => exact execLockSet_keeps rfl (Same.refl _ _)
  | devLockAll => exact execDevLockAll_keeps rfl (Same.refl _ _)
  | coreCntClr => exact execCoreCntClr_keeps rfl (Same.refl _ _)
  | rtLateClr => exact execRtLateClr_keeps rfl (Same.refl _ _)
  | rtMinClr => exact execRtMinClr_keeps rfl (Same.refl _ _)
  | rtHeldClr => exact execRtHeldClr_keeps rfl (Same.refl _ _)
  | rtLvlClr => exact execRtLvlClr_keeps rfl (Same.refl _ _)
  | oobRead => exact execOobRead_keeps rfl (Same.refl _ _)
  | oobWrite => exact execOobWrite_keeps rfl (Same.refl _ _)
  | i3cDynamicAddress => exact execI3cDynamicAddress_keeps rfl (Same.refl _ _)
  | i3cRstdaa => exact execI3cRstdaa_keeps rfl (Same.refl _ _)
  | alertResponseRead => exact execAlertResponseRead_keeps rfl (Same.refl _ _)
  | registerWrite => exact execRegisterWrite_keeps rfl (Same.refl _ _)
  | twinAliveInEdge => exact execTwinAliveInEdge_keeps rfl (Same.refl _ _)
  | caravanBadPacket => exact execCaravanBadPacket_keeps rfl (Same.refl _ _)
  | resyncScan => exact execResyncScan_keeps rfl (Same.refl _ _)
  | rotationCopy => exact execRotationCopy_keeps rfl (Same.refl _ _)
  | secureDiscardRelocate => exact execSecureDiscardRelocate_keeps rfl (Same.refl _ _)
  | mediaScrubRead => exact execMediaScrubRead_keeps rfl (Same.refl _ _)
  | siroccoDeadlinePassed => exact execSiroccoDeadlinePassed_keeps rfl (Same.refl _ _)
  | patternSyncGain => exact execPatternSyncGain_keeps rfl (Same.refl _ _)
  | patternSyncLoss => exact execPatternSyncLoss_keeps rfl (Same.refl _ _)
  | trainPatternEnd => exact execTrainPatternEnd_keeps rfl (Same.refl _ _)
  | dramPhyLockLoss => exact execDramPhyLockLoss_keeps rfl (Same.refl _ _)
  | dramWriteCrcError => exact execDramWriteCrcError_keeps rfl (Same.refl _ _)
  | hdmDecoderCommit => exact execHdmDecoderCommit_keeps rfl (Same.refl _ _)
  | powerStateChange => exact execPowerStateChange_keeps rfl (Same.refl _ _)
  | splitValueLoRead => exact execSplitValueLoRead_keeps rfl (Same.refl _ _)

/-- A part that a command's list does not hold is as before. -/
theorem exec_kept {c : Instr} {s t : State} (h : exec c s = .next t) {p : Part} (hp : p ∉ c.parts) : p.kept s t := by
  obtain ⟨u, hu, hsame⟩ := exec_ends c s
  obtain rfl : u = t := Host.Outcome.next.inj (hu.symm.trans h)
  exact hsame.kept (partsMask_testBit hp)

end Sys2Proof.Machine
end

section
/-! SUPPORT. The tick of REFCLK: what a step with an empty queue does (R20, R45, R47), and that a command keeps the tick or sets it to 0. -/

set_option autoImplicit false

namespace Sys2Proof.Machine

/-! ### A step with an empty queue -/

theorem step_of_empty {s : State} (h : s.pending = []) : step s = .next s.idle := by unfold step; rw [h]

theorem step_of_cons {s : State} {c : Instr} {rest : List Instr} (h : s.pending = c :: rest) :
    step s = exec c { s with pending := rest } := by unfold step; rw [h]

/-- States that differ at most in fields, the mask holding no block of registers, agree on every register but those of `bookReg`. -/
theorem Same.regsAre {m : Nat} {x s : State} (h : Same m x s) (hm : m < 2 ^ 27) : s.regsAre x := fun o ho =>
  h.own o ho (Nat.testBit_lt_two_pow (Nat.lt_of_lt_of_le hm (Nat.pow_le_pow_right (by decide) (Nat.le_add_right 27 _))))

theorem State.pcTicks_same (s : State) : Same 67108876 s s.pcTicks := State.pcTicks_keeps rfl (Same.refl _ s)

theorem State.idle_of_running {s : State} (hr : s.refclk = true) (hx : s.dom.aux = true) (hd : s.boot.rstN = false) :
    s.idle = ({ s with tick := s.tick + 1 } : State).pcTicks := by
  simp [State.idle, hr, hx, hd]

theorem State.idle_of_stopped {s : State} (h : s.refclk = false ∨ s.dom.aux = false ∨ s.boot.rstN = true) : s.idle = s := by
  rcases h with h | h | h <;> simp [State.idle, h]

theorem State.idle_tick (s : State) : s.idle.tick = s.tick ∨ s.idle.tick = s.tick + 1 := by
  unfold State.idle
  split
  · exact .inr ((State.pcTicks_same _).tick rfl)
  · exact .inl rfl

/-- Settles O46: while the tick runs the step is the tick and its performance counters, which change no other field or register. -/
theorem emptyQueueIsOneTick : Obligations.EmptyQueueIsOneTick := by
  intro s hq
  constructor
  · intro hr hx hd
    have h := State.pcTicks_same { s with tick := s.tick + 1 }
    refine ⟨_, (step_of_empty hq).trans (congrArg _ (State.idle_of_running hr hx hd)), h.tick rfl, ?_, ?_, h.dom rfl, h.out rfl⟩
    · exact (h.regsAre (by decide)).trans (State.regsAre_of_eq rfl)
    · exact (h.pending rfl).trans hq
  · intro h
    rw [step_of_empty hq, State.idle_of_stopped h]

/-! ### The five commands that may zero the tick (R20, R45, R541, R558) -/

theorem State.coreReset_tick (s : State) (kind : Nat) : (s.coreReset kind).tick = s.tick ∨ (s.coreReset kind).tick = 0 := by
  have hdown : ((s.coreDown kind).pdWrite 0).tick = s.tick :=
    (State.pdWrite_keeps (m := 562949945032270 ||| 4362076938) rfl (State.coreDown_keeps rfl (Same.refl _ s))).tick rfl
  by_cases hk : kind = 4
  · left
    show (if kind = 4 then (if s.coreUp then (s.coreDown kind).pdWrite 0 else s).tick else 0) = s.tick
    rw [if_pos hk]
    split
    · exact hdown
    · rfl
  · exact .inr (if_neg hk)

theorem State.resetDown_tick (s : State) : s.resetDown.tick = s.tick :=
  (State.resetDown_keeps (m := 562949953421134) rfl (Same.refl _ s)).tick rfl

theorem State.coreStart_tick (s : State) (kat : Bool) : (s.coreStart kat).tick = s.tick :=
  (State.coreStart_keeps (m := 10571341743950) rfl (Same.refl _ s)).tick rfl

theorem State.settleReqs_tick (s : State) : s.settleReqs.tick = s.tick :=
  (State.settleReqs_keeps (m := 314447559261966) rfl (Same.refl _ s)).tick rfl

theorem State.jtagLoad_tick (s : State) (c : Nat) (kat : Bool) : (s.jtagLoad c kat).tick = s.tick ∨ (s.jtagLoad c kat).tick = 0 := by
  unfold State.jtagLoad
  dsimp only
  split
  · exact .inl rfl
  split
  · split
    · rw [State.resetDown_tick]; exact State.coreReset_tick _ 4
    · exact State.coreReset_tick _ 4
  split
  · split
    · exact .inr (State.coreStart_tick _ kat)
    · exact .inr rfl
  · exact .inl rfl

theorem execDevRstNAssert_tick {s t : State} (h : execDevRstNAssert s = .next t) : t.tick = s.tick ∨ t.tick = 0 := by
  unfold execDevRstNAssert at h
  dsimp only at h
  split at h
  · cases h; exact .inl rfl
  split at h
  · cases h; exact .inr rfl
  cases h
  split
  · rw [State.resetDown_tick]; exact State.coreReset_tick _ 1
  · exact State.coreReset_tick _ 1

theorem execRegisterResetExecute_tick {kat : Bool} {s t : State} (h : execRegisterResetExecute kat s = .next t) :
    t.tick = s.tick ∨ t.tick = 0 := by
  unfold execRegisterResetExecute at h
  dsimp only at h
  split at h
  · cases h; exact .inl rfl
  split at h
  · cases h; exact .inl s.settleReqs_tick
  cases h
  have hstart (u : State) : (if u.boot.rstN || u.boot.jtag then u else u.coreStart kat).tick = u.tick := by
    split
    · rfl
    · exact u.coreStart_tick kat
  rw [hstart, ← s.settleReqs_tick]
  exact State.coreReset_tick _ _

theorem execAuxFall_tick {s t : State} (h : execAuxFall s = .next t) : t.tick = s.tick ∨ t.tick = 0 := by
  unfold execAuxFall at h
  dsimp only at h
  split at h
  · cases h; exact .inl rfl
  cases h
  refine .inr (Same.tick (m := 67108874) (x := s.auxReset) ?_ rfl)
  refine State.emit_keeps rfl (State.emit_keeps rfl (State.emit_keeps rfl ?_))
  exact same_foldl (State.emit_keeps rfl (Same.refl _ _)) fun _ _ ht => State.emit_keeps rfl ht

theorem exec_tick {c : Instr} {s t : State} (h : exec c s = .next t) : t.tick = s.tick ∨ t.tick = 0 := by
  by_cases hc : Part.tick ∈ c.parts
  · cases c with dsimp only [Instr.parts] at hc
    | devRstNAssert => exact execDevRstNAssert_tick h
    | registerResetExecute => exact execRegisterResetExecute_tick h
    | auxFall => exact execAuxFall_tick h
    | jtagInstructionUpdate =>
      cases h; exact State.jtagLoad_tick _ _ _
    | trstN => cases h; exact State.jtagLoad_tick _ _ _
    | _ => exact absurd hc (by decide)
  · exact .inl (exec_kept h hc)

/-- Settles O50, by the kind of step: a command keeps the tick or zeroes it, an empty queue keeps it or counts one on. -/
theorem tickIsKeptZeroedOrCountedOn : Obligations.TickIsKeptZeroedOrCountedOn := by
  intro s t h
  cases hq : s.pending with
  | nil =>
    obtain rfl : s.idle = t := Host.Outcome.next.inj ((step_of_empty hq).symm.trans h)
    exact s.idle_tick.imp_right fun e => .inr ⟨rfl, e⟩
  | cons c rest =>
    exact (exec_tick ((step_of_cons hq).symm.trans h)).imp_right fun e => .inl ⟨List.cons_ne_nil c rest, e⟩

end Sys2Proof.Machine
end

section
/-! SUPPORT. The capture of the upper half of a split value by a read of its _LO register (R16). -/

set_option autoImplicit false

namespace Sys2Proof.Machine

/-! ### Where the _LO registers lie -/

/-- A _LO register lies in the first half of 8 bytes, but for those of the pages 1 and 109, which lie in the second; beside those of the
common layout, pages 4 and 5 and the queues' pages have none. -/
theorem wideLo_place {o : Nat} (h : wideLo o = true) : o % 0x1000 < 0x600 ∧
    (o % 0x1000 < 0xC0 ∧ o % 8 = 0 ∨ 0xC0 ≤ o % 0x1000 ∧ (o % 8 = if pageOf o = 1 ∨ pageOf o = 109 then 4 else 0) ∧
      pageOf o ≠ 4 ∧ pageOf o ≠ 5 ∧ ¬(100 ≤ pageOf o ∧ pageOf o ≤ 107)) := by
  have hmod : o % 8 = o % 0x1000 % 8 := by omega
  rw [hmod]
  simp only [wideLo, ite_eq_iff, Bool.or_eq_true, Bool.and_eq_true, beq_iff_eq, decide_eq_true_eq, Bool.false_eq_true,
    and_true, and_false, false_or] at h
  generalize o % 0x1000 = x at h ⊢
  generalize pageOf o = p at h ⊢
  split <;> omega

theorem wideLo_aligned {o : Nat} (h : wideLo o = true) : o % 4 = 0 := by
  have := wideLo_place h
  split at this <;> omega

theorem wideLo_ownRead {o : Nat} (h : wideLo o = true) : ownRead o = false := by
  have := wideLo_place h
  simp only [ownRead, Bool.or_eq_false_iff, Bool.and_eq_false_iff, decide_eq_false_iff_not, beq_eq_false_iff_ne]
  omega

/-- The register after a _LO register is its _HI register and no _LO register itself. -/
theorem wideLo_hi {o : Nat} (h : wideLo o = true) : wideLo (o + 4) = false := by
  by_contra hne
  have hlo := wideLo_place h
  have hhi := wideLo_place (o := o + 4) (by simpa using hne)
  have hp : pageOf (o + 4) = pageOf o := by unfold pageOf; omega
  rw [hp] at hhi
  omega

theorem laneOpen_of_ne {s : State} {o : Nat} (h0 : o ≠ R.TST_PAT_BITS_LO) (h1 : o ≠ R.TST_PAT_BITS_LO + 4) (h2 : o ≠ R.TST_PAT_ERR) :
    s.laneOpen o = false := by
  simp [State.laneOpen, h0, h1, h2]

/-- Of the split values only the bit count of a lane's pattern is left open while the lane runs (R537). -/
theorem wideLo_laneOpen {o : Nat} (h : wideLo o = true) (ho : o ≠ R.TST_PAT_BITS_LO) (s : State) :
    s.laneOpen o = false ∧ s.laneOpen (o + 4) = false := by
  have hsts : o ≠ R.TST_PAT_STS := by rintro rfl; exact absurd h (by decide)
  have herr : o ≠ R.TST_PAT_ERR := by rintro rfl; exact absurd h (by decide)
  have hhi : o ≠ R.TST_PAT_BITS_LO + 4 := by rintro rfl; exact absurd h (by decide)
  refine ⟨laneOpen_of_ne ho hhi herr, laneOpen_of_ne ?_ ?_ ?_⟩
  · intro e; exact herr (Nat.add_right_cancel (m := 4) e)
  · intro e; exact ho (Nat.add_right_cancel e)
  · intro e; exact hsts (Nat.add_right_cancel (m := 4) e)

/-! ### Reads with and without a capture -/

theorem State.readAny_lo {s : State} {path : Path} {o : Nat} (h : wideLo o = true) (hl : s.laneOpen o = false) :
    (s.readAny path o).2.boot.caps =
      s.boot.caps.filter (fun c => !(c.1 == path && c.2.1 == o + 4)) ++ [(path, o + 4, s.readValue path (o + 4))] := by
  simp [State.readAny, State.readLo, h, hl]

/-- A register for which the path holds a capture reads as it, and the capture is used up. -/
theorem State.readAny_captured {s : State} {path : Path} {o : Nat} {c : Path × Nat × Word} (h : wideLo o = false)
    (hc : s.boot.caps.find? (fun c => c.1 == path && c.2.1 == o) = some c) :
    s.readAny path o =
      (c.2.2, { s with boot.caps := s.boot.caps.filter (fun x => !(x.1 == path && x.2.1 == o)) }) := by
  simp [State.readAny, h, hc]

theorem State.readAny_live {s : State} {path : Path} {o : Nat} (h : wideLo o = false) (hl : s.laneOpen o = false)
    (hc : s.boot.caps.find? (fun c => c.1 == path && c.2.1 == o) = none) : s.readAny path o = (s.readValue path o, s) := by
  simp [State.readAny, h, hc, hl]

theorem exec_splitValueLoRead {path : Path} {off : BitVec 24} (h : wideLo off.toNat = true) (s : State) :
    exec (.splitValueLoRead path off) s = .next (((s.regAcc (pageOf off.toNat)).readAny path off.toNat).2.emit
      (.regRead path off.toNat ((s.regAcc (pageOf off.toNat)).readAny path off.toNat).1)) := by
  show execSplitValueLoRead path off s = _
  simp [execSplitValueLoRead, wideLo_aligned h, wideLo_ownRead h]

/-- Settles O59: the read of _LO leaves one capture, of its path and its _HI register, which the next read of that register by the path
uses up; a read by another path finds none. -/
theorem lowReadCapturesTheUpperHalf : Obligations.LowReadCapturesTheUpperHalf := by
  intro path off s hw hb hcaps o
  have hhi : wideLo (o + 4) = false := wideLo_hi hw
  have hopen (u : State) : u.laneOpen o = false ∧ u.laneOpen (o + 4) = false := wideLo_laneOpen hw hb u
  refine ⟨_, exec_splitValueLoRead hw s, ?_⟩
  generalize ht : State.emit _ _ = t
  have hcap : t.boot.caps = [(path, o + 4, (s.regAcc (pageOf o)).readValue path (o + 4))] := by
    rw [← ht]
    simp [State.readAny_lo hw (hopen _).1, hcaps, o]
  have hread : t.readAny path (o + 4) = ((s.regAcc (pageOf o)).readValue path (o + 4), { t with boot.caps := [] }) := by
    rw [State.readAny_captured (c := (path, o + 4, (s.regAcc (pageOf o)).readValue path (o + 4))) hhi (by simp [hcap])]
    simp [hcap]
  refine ⟨congrArg Prod.fst hread, ?_, fun other hne => ?_⟩
  · rw [hread]
    exact congrArg Prod.fst (State.readAny_live hhi (hopen _).2 rfl)
  · exact congrArg Prod.fst (State.readAny_live hhi (hopen _).2 (by simp [hcap, hne.symm]))

end Sys2Proof.Machine
end

section
/-! SUPPORT. The events of the DRAM channels and their effects (R398, R403, R404, R407–R409, R411). -/

set_option autoImplicit false

namespace Sys2Proof.Machine

/-! ### The registers of a DRAM channel -/

/-- No block-specific register of a DRAM channel is among those that an event of any block may change. -/
theorem bookReg_dc (i : Nat) {x : Nat} (h : 0x100 ≤ x) (hx : x < 0x1000) : bookReg ((20 + i % 6) * 0x1000 + x) = false := by
  have hp : pageOf ((20 + i % 6) * 0x1000 + x) = 20 + i % 6 := by unfold pageOf; omega
  have hm : ((20 + i % 6) * 0x1000 + x) % 0x1000 = x := by omega
  simp only [bookReg, hp, hm, Bool.or_eq_false_iff, Bool.and_eq_false_iff, beq_eq_false_iff_ne, decide_eq_false_iff_not]
  omega

theorem regBlk_dc (i : Nat) {x : Nat} (h : 0x100 ≤ x) (hx : x < 0x1000) : regBlk ((20 + i % 6) * 0x1000 + x) = 14 :=
  blk14 (by omega) (by omega)

/-- An operation whose mask holds no register of the DRAM channels leaves them. -/
theorem Same.rd_dc {m : Nat} {s t : State} (h : Same m s t) (hm : m.testBit 41 = false) (i : Nat) {x : Nat} (hl : 0x100 ≤ x)
    (hx : x < 0x1000) : t.rd ((20 + i % 6) * 0x1000 + x) = s.rd ((20 + i % 6) * 0x1000 + x) :=
  h.own _ (bookReg_dc i hl hx) (by rw [regBlk_dc i hl hx]; exact hm)

theorem bookReg_dcSts (i : Nat) : bookReg (R.DC_STS i) = false := bookReg_dc i (by decide) (by decide)

theorem Same.dcSts {m : Nat} {s t : State} (h : Same m s t) (hm : m.testBit 41 = false) (i : Nat) : t.rd (R.DC_STS i) = s.rd (R.DC_STS i) :=
  h.rd_dc hm i (by decide) (by decide)

theorem State.bit_setBit_ne (s : State) (f g : Fld) (b : Bool) (h : f.lo + f.width ≤ 32)
    (hd : g.off ≠ f.off ∨ g.lo + g.width ≤ f.lo ∨ f.lo + f.width ≤ g.lo) : (s.setBit f b).bit g = s.bit g :=
  State.bit_set_ne s f g b.toNat h hd

theorem State.get_setBit_off (s : State) (f g : Fld) (b : Bool) (h : f.lo + f.width ≤ 32) (hd : g.off ≠ f.off) :
    (s.setBit f b).get g = s.get g := State.get_set_ne s f g b.toNat h (.inl hd)

@[simp] theorem State.wrN_tick (s : State) (o v : Nat) : (s.wrN o v).tick = s.tick := rfl
@[simp] theorem State.wrN_dc (s : State) (o v : Nat) : (s.wrN o v).dc = s.dc := rfl

theorem State.num_wrN_self (s : State) (o : Nat) {v : Nat} (h : v < 2 ^ 32) : (s.wrN o v).num o = v := by
  rw [State.num, State.wrN, State.rd_wr_self, BitVec.toNat_ofNat, Nat.mod_eq_of_lt h]

theorem State.emit_out (s : State) (o : Output) : (s.emit o).out = s.out ++ [o] :=
  (State.pcOut_keeps (m := 67108872) rfl (Same.refl _ ({ s with out := s.out ++ [o] } : State))).out rfl

/-! ### Training (R398, R407, R408) -/

/-- The registers of a channel whose training has passed: what it held in self-refresh is kept. -/
def State.dramTrained (s : State) (ch : Nat) : State :=
  (((s.setBit (F.DC_STS.TRAIN_BUSY ch) false).setBit (F.DC_STS.SELF_REF ch) false).setBit (F.DC_STS.KEPT ch)
    (s.bit (F.DC_STS.SELF_REF ch))).setBit (F.DC_STS.TRAINED ch) true

theorem State.dramTrained_bits (s : State) (ch : Nat) :
    (s.dramTrained ch).bit (F.DC_STS.TRAINED ch) = true ∧ (s.dramTrained ch).bit (F.DC_STS.TRAIN_BUSY ch) = false ∧
    (s.dramTrained ch).bit (F.DC_STS.SELF_REF ch) = false ∧
    (s.dramTrained ch).bit (F.DC_STS.KEPT ch) = s.bit (F.DC_STS.SELF_REF ch) := by
  simp [State.dramTrained, State.bit_setBit_ne, State.bit_setBit_self]

theorem State.dramTrained_phase (s : State) (ch : Nat) : (s.dramTrained ch).get F.BOOT_STS.PHASE = s.get F.BOOT_STS.PHASE := by
  have hd : R.BOOT_STS ≠ R.DC_STS ch := by unfold R.BOOT_STS R.DC_STS; omega
  simp [State.dramTrained, State.get_setBit_off, hd]

theorem bookReg_bootSts : bookReg R.BOOT_STS = false := by decide

/-- Phase 4 is entered from phase 3 only. -/
theorem State.dramPhase_of_ne {s : State} (h : s.get F.BOOT_STS.PHASE ≠ 3) : s.dramPhase = s := if_neg fun hc => h hc.1

section
variable {ch : Fin 6} {s : State} (hup : s.coreUp = true) (hphase : s.get F.BOOT_STS.PHASE = 2)
  (htr : s.bit (F.DC_STS.TRAINED ch) = false) (hfail : s.bit (F.DC_STS.FAILED ch) = false)
include hup hphase htr hfail

theorem exec_dramTraining_passed (hcap : 24 * capOf s.dieCount ≤ s.dramGiB * 4096) :
    ∃ t, exec (.dramTraining ch true true) s = .next t ∧ t.regsAre (s.dramTrained ch) ∧
      Output.pin (.dcResetN ch.val) (some true) ∈ t.out := by
  let u := (s.dramTrained ch).emit (.pin (.dcResetN ch.val) (some true))
  let v : State := { u with dc.passAt := sset 0 u.dc.passAt ch u.tick.toNat, dc.again := setDel ch.val u.dc.again }
  have hregs : v.regsAre (s.dramTrained ch) := State.regsAre.trans (State.regsAre_of_eq rfl) (State.emit_book _ _)
  have hv : v.dramPhase = v := State.dramPhase_of_ne (by
    rw [hregs.get bookReg_bootSts, State.dramTrained_phase, hphase]
    decide)
  have hcap' : ¬(s.dramGiB * 4096 < 24 * capOf s.dieCount) := Nat.not_lt.mpr hcap
  have hexec : execDramTraining ch true true s = .next v.dramPhase := by
    simp only [execDramTraining, hup, hphase, htr, hfail, hcap', Nat.lt_irrefl, decide_false, Bool.not_true, Bool.or_self,
      Bool.false_eq_true, if_false]
    rfl
  exact ⟨v, hexec.trans (congrArg _ hv), hregs, by simp [v, u, State.emit_out]⟩

theorem exec_dramTraining_repeated (hagain : s.dc.again.contains ch.val = false) (b : Bool) :
    exec (.dramTraining ch false b) s = .next
      (({ s with dc.again := setIns ch.val s.dc.again }.setBit (F.DC_STS.TRAIN_BUSY ch) true).emit (.pin (.dcResetN ch.val) (some true))) := by
  show execDramTraining ch false b s = _
  simp only [execDramTraining, hup, hphase, htr, hfail, hagain, Nat.lt_irrefl, decide_false, Bool.not_true, Bool.not_false,
    Bool.or_self, Bool.false_eq_true, if_false, if_true]

end

/-! ### Refresh and MR4 (R403, R404) -/

theorem exec_dramRefresh {g : Fin 2} {b : Fin 32} {s : State} (hup : s.coreUp = true)
    (htr : s.bit (F.DC_STS.TRAINED (sget 0 s.dc.turn (g.val * 32 + b.val))) = true) :
    let k := g.val * 32 + b.val
    let ch := sget 0 s.dc.turn k
    exec (.dramRefresh g b) s = .next
      (({ s with dc.turn := sset 0 s.dc.turn k ((ch + 1) % 6) } : State).emit (.other 13 [ch, g.val, b.val])) := by
  intro k ch
  show execDramRefresh g b s = _
  simp only [execDramRefresh, hup, htr, Bool.and_self, if_true, k, ch]

/-- The code that was read is shown, and the hot indication takes its moment. -/
def State.mr4Read (s : State) (ch : Fin 6) (code : BitVec 3) (hot : Bool) : State :=
  let u := s.wrN (R.DC_MR4 ch) code.toNat
  if hot then { u with dc.hotAt := sset 0 u.dc.hotAt ch u.tick.toNat } else u

/-- The doubled rate: with the indication, and for 1 s after the last one. -/
def State.mr4Hot (s : State) (ch : Fin 6) (hot : Bool) : Bool :=
  hot || (s.bit (F.DC_STS.HOT ch) && decide (s.tick.toNat < sget 0 s.dc.hotAt ch + 100000000))

theorem State.mr4Read_num (s : State) (ch : Fin 6) (code : BitVec 3) (hot : Bool) :
    (s.mr4Read ch code hot).num (R.DC_MR4 ch) = code.toNat := by
  have hcode : code.toNat < 2 ^ 32 := Nat.lt_trans code.isLt (by decide)
  cases hot <;> exact s.num_wrN_self _ hcode

theorem exec_mr4Poll {ch : Fin 6} {s : State} (hup : s.coreUp = true) (htr : s.bit (F.DC_STS.TRAINED ch) = true) (code : BitVec 3)
    (hot : Bool) : ∃ t, exec (.mr4Poll ch code hot false) s = .next t ∧ t.num (R.DC_MR4 ch) = code.toNat ∧
      t.bit (F.DC_STS.HOT ch) = s.mr4Hot ch hot ∧ t.dc = (s.mr4Read ch code hot).dc := by
  let v := (s.mr4Read ch code hot).setBit (F.DC_STS.HOT ch) (s.mr4Hot ch hot)
  obtain ⟨b, hexec⟩ : ∃ b, execMr4Poll ch code hot false s = .next (v.when b (fun s => s.roll 0x0B00 0 (20 + ch) ch 0 0)).condsNow := by
    refine ⟨s.bit (F.DC_STS.HOT ch) != s.mr4Hot ch hot && v.bit (F.DC_CTL.EVT_EN ch), ?_⟩
    cases hot <;> simp [execMr4Poll, hup, htr, v, State.mr4Read, State.mr4Hot, State.when]
  have hsame : Same 9897821438474 v (v.when b (fun s => s.roll 0x0B00 0 (20 + ch) ch 0 0)).condsNow :=
    State.condsNow_keeps rfl (same_when (Same.refl _ v) fun _ ht => State.roll_keeps rfl ht)
  refine ⟨_, hexec, ?_, ?_, hsame.dc rfl⟩
  · have hrd : v.rd (R.DC_MR4 ch) = (s.mr4Read ch code hot).rd (R.DC_MR4 ch) :=
      State.rd_set_ne _ _ _ (show R.DC_MR4 ch ≠ R.DC_STS ch by unfold R.DC_MR4 R.DC_STS; omega)
    exact (congrArg BitVec.toNat ((hsame.rd_dc rfl ch (by decide) (by decide)).trans hrd)).trans (s.mr4Read_num ch code hot)
  · refine Eq.trans ?_ (State.bit_setBit_self (s.mr4Read ch code hot) (F.DC_STS.HOT ch) (s.mr4Hot ch hot) (by simp) (by simp))
    exact congrArg (fun w => fldOf (F.DC_STS.HOT ch) w != 0) (hsame.dcSts rfl ch)

/-! ### The scrub (R409) -/

/-- The time that the pass of the scrub is behind its period, in the unit of DC_SCRUB_LAG. -/
def State.scrubLag (s : State) (ch : Nat) : Nat :=
  min ((s.tick.toNat - (sget 0 s.dc.passAt ch + s.num (R.DC_SCRUB_PERIOD ch) * 360000000000)) / 100000) 0xFFFFFFFF

theorem State.scrubLag_congr {s t : State} {ch : Nat} (ht : t.tick = s.tick) (hd : t.dc = s.dc)
    (hp : t.rd (R.DC_SCRUB_PERIOD ch) = s.rd (R.DC_SCRUB_PERIOD ch)) : t.scrubLag ch = s.scrubLag ch := by
  simp only [State.scrubLag, State.num, ht, hd, hp]

theorem State.dramRead_ok (s : State) (ch : Fin 6) :
    (s.dramRead ch .ok).regsAre s ∧ (s.dramRead ch .ok).tick = s.tick ∧ (s.dramRead ch .ok).scrubLag ch = s.scrubLag ch := by
  have hregs : (s.dramRead ch .ok).regsAre s := State.pcItem_book _ _
  have ht : (s.dramRead ch .ok).tick = s.tick := by simp [State.dramRead]
  exact ⟨hregs, ht, State.scrubLag_congr ht (by simp [State.dramRead]) (hregs _ (bookReg_dc ch (by decide) (by decide)))⟩

theorem State.dramRead_ce (s : State) (ch : Fin 6) :
    (s.dramRead ch .ce).regsAre (s.bump (R.DC_CE_CNT ch)) ∧ (s.dramRead ch .ce).scrubLag ch = s.scrubLag ch := by
  have hregs : (s.dramRead ch .ce).regsAre (s.bump (R.DC_CE_CNT ch)) :=
    State.regsAre_bump (bookReg_dc ch (by decide) (by decide)) (State.pcItem_book _ _)
  have hne : R.DC_SCRUB_PERIOD ch ≠ R.DC_CE_CNT ch := by unfold R.DC_SCRUB_PERIOD R.DC_CE_CNT; omega
  exact ⟨hregs, State.scrubLag_congr (State.dramRead_ok s ch).2.1 (by simp [State.dramRead, State.bump, State.addCnt, State.wrN, State.wr])
    ((hregs _ (bookReg_dc ch (by decide) (by decide))).trans (State.rd_wr_ne _ _ hne))⟩

theorem dcScrubPass_ne_lag (i : Nat) : R.DC_SCRUB_PASS i ≠ R.DC_SCRUB_LAG i := by unfold R.DC_SCRUB_PASS R.DC_SCRUB_LAG; omega

theorem State.scrubPassEnd_shows (s : State) (ch : Nat) : (s.scrubPassEnd ch).rd (R.DC_SCRUB_LAG ch) = 0 ∧
    (s.scrubPassEnd ch).num (R.DC_SCRUB_PASS ch) = min (s.num (R.DC_SCRUB_PASS ch) + 1) 0xFFFFFFFF ∧
    sget 0 (s.scrubPassEnd ch).dc.passAt ch = s.tick.toNat := by
  have hrd (o : Nat) : (s.scrubPassEnd ch).rd o = ((s.bump (R.DC_SCRUB_PASS ch)).wrN (R.DC_SCRUB_LAG ch) 0).rd o := rfl
  refine ⟨(hrd _).trans (State.rd_wr_self _ _ _), ?_, sget_sset_self _ _ _ _⟩
  rw [State.num, hrd, State.wrN, State.rd_wr_ne _ _ (dcScrubPass_ne_lag ch)]
  exact State.num_wrN_self s _ (by omega)

section
variable {ch : Fin 6} {s : State} (hup : s.coreUp = true) (htr : s.bit (F.DC_STS.TRAINED ch) = true)
  (hfail : s.bit (F.DC_STS.FAILED ch) = false) (hen : s.bit (F.DC_CTL.SCRUB_EN ch) = true) (area : DramArea)
include hup htr hfail hen

/-- A word that needs no repair, before the last of its pass: what the read counts, and the lag. -/
theorem exec_dramScrubWord_inside {res : DramRes} (hres : res = .ok ∨ res = .ce) : exec (.dramScrubWord ch res area false) s =
    .next ((s.dramRead ch res).wrN (R.DC_SCRUB_LAG ch) ((s.dramRead ch res).scrubLag ch)) := by
  show execDramScrubWord ch res area false s = _
  rcases hres with rfl | rfl <;> simp [execDramScrubWord, hup, htr, hfail, hen, State.scrubLag]

theorem exec_dramScrubWord_last : ∃ t, exec (.dramScrubWord ch .ok area true) s = .next t ∧ t.rd (R.DC_SCRUB_LAG ch) = 0 ∧
    t.num (R.DC_SCRUB_PASS ch) = min (s.num (R.DC_SCRUB_PASS ch) + 1) 0xFFFFFFFF ∧ sget 0 t.dc.passAt ch = s.tick.toNat := by
  let u := (s.dramRead ch .ok).wrN (R.DC_SCRUB_LAG ch) ((s.dramRead ch .ok).scrubLag ch)
  have hexec : execDramScrubWord ch .ok area true s = .next (u.scrubPassEnd ch) := by
    simp [execDramScrubWord, hup, htr, hfail, hen, State.scrubLag, u]
  obtain ⟨hregs, htick, -⟩ := s.dramRead_ok ch
  obtain ⟨hlag, hpass, hat⟩ := u.scrubPassEnd_shows ch
  have hu : u.rd (R.DC_SCRUB_PASS ch) = s.rd (R.DC_SCRUB_PASS ch) :=
    (State.rd_wr_ne _ _ (dcScrubPass_ne_lag ch)).trans (hregs _ (bookReg_dc ch (by decide) (by decide)))
  refine ⟨_, hexec, hlag, hpass.trans ?_, hat.trans (by rw [State.wrN_tick, htick])⟩
  rw [State.num, hu, State.num]

end

/-! ### The loss of a channel (R411) -/

theorem State.dramLost_regsAre (s : State) (ch : Nat) : (s.dramLost ch).regsAre (s.setBit (F.DC_STS.FAILED ch) true) :=
  State.raise_book _ _ _ _

theorem State.dramLost_seen {s : State} {ch : Fin 6} (hup : s.coreUp = true) (hw : (s.fcSrc (20 + ch.val)).wire = false) :
    (s.dramLost ch).fltSeen (20 + ch.val) Kind.UE = true :=
  State.raise_seen _ _ _ _ hup hw (by omega) (by decide)

theorem exec_dramPhyLockLoss {ch : Fin 6} {s : State} (hup : s.coreUp = true) (htr : s.bit (F.DC_STS.TRAINED ch) = true)
    (hfail : s.bit (F.DC_STS.FAILED ch) = false) : exec (.dramPhyLockLoss ch) s = .next (s.dramLost ch) := by
  show execDramPhyLockLoss ch s = _
  simp [execDramPhyLockLoss, hup, htr, hfail]

theorem exec_dramWriteCrcError {ch : Fin 6} {s : State} (hup : s.coreUp = true) (htr : s.bit (F.DC_STS.TRAINED ch) = true)
    (hfail : s.bit (F.DC_STS.FAILED ch) = false) (again : Bool) :
    exec (.dramWriteCrcError ch again) s = .next (if again then s.dramLost ch else s.bump (R.DC_CRC_RETRY ch)) := by
  show execDramWriteCrcError ch again s = _
  simp [execDramWriteCrcError, hup, htr, hfail]

/-- Settles O29, event by event. -/
theorem dramCommands : Obligations.DramCommands := by
  refine ⟨fun ch s hup hphase htr hfail => ⟨fun hcap => ?_, fun hagain b => ?_⟩, fun g b s hup htr => ?_, fun ch code s hup htr => ?_,
    fun ch area s hup htr hfail hen => ?_, fun ch s hup htr hfail hw => ?_⟩
  · obtain ⟨t, ht, hregs, hout⟩ := exec_dramTraining_passed hup hphase htr hfail hcap
    obtain ⟨htrained, hbusy, hself, hkept⟩ := s.dramTrained_bits ch
    have hsts := bookReg_dcSts ch
    exact ⟨t, ht, (hregs.bit hsts).trans htrained, (hregs.bit hsts).trans hbusy, (hregs.bit hsts).trans hself,
      (hregs.bit hsts).trans hkept, hout⟩
  · refine ⟨_, exec_dramTraining_repeated hup hphase htr hfail hagain b, ?_, (State.emit_book _ _).trans ?_⟩
    · simp [State.setBit, State.set, State.wr]
    · exact State.regsAre_setBit (bookReg_dcSts ch) (State.regsAre_of_eq rfl)
  · exact ⟨_, exec_dramRefresh hup htr, (State.emit_book _ _).trans (State.regsAre_of_eq rfl), by simp, by simp [State.emit_out]⟩
  · refine ⟨?_, fun hcold => ?_⟩
    · obtain ⟨t, ht, hnum, hhot, hdc⟩ := exec_mr4Poll hup htr code true
      exact ⟨t, ht, hnum, hhot, by simp [hdc, State.mr4Read, State.wrN, State.wr]⟩
    · obtain ⟨t, ht, -, hhot, -⟩ := exec_mr4Poll hup htr code false
      exact ⟨t, ht, hhot.trans (by simp [State.mr4Hot, Nat.not_lt.mpr hcold])⟩
  · intro lag
    obtain ⟨hok, -, hlag⟩ := s.dramRead_ok ch
    obtain ⟨hce, hlagCe⟩ := s.dramRead_ce ch
    have hdef : s.scrubLag ch = lag := rfl
    refine ⟨⟨_, exec_dramScrubWord_inside hup htr hfail hen area (.inl rfl), ?_⟩,
      ⟨_, exec_dramScrubWord_inside hup htr hfail hen area (.inr rfl), ?_⟩, exec_dramScrubWord_last hup htr hfail hen area⟩
    · rw [hlag, hdef]; exact State.regsAre_wr hok
    · rw [hlagCe, hdef]; exact State.regsAre_wr hce
  · have hlost := And.intro (s.dramLost_regsAre ch) (State.dramLost_seen hup hw)
    have hcrc := exec_dramWriteCrcError hup htr hfail
    exact ⟨⟨_, exec_dramPhyLockLoss hup htr hfail, hlost⟩, ⟨_, hcrc true, hlost⟩, ⟨_, hcrc false, rfl⟩⟩

end Sys2Proof.Machine
end

section
/-! SUPPORT. The domains in service: every command, and every step, keeps their combination legal (R34, R35, R550, R598). -/

set_option autoImplicit false

namespace Sys2Proof.Machine

/-- The commands that may change the domains: each ends in a next state with a legal combination, by its own lemma of Domains.lean. -/
theorem exec_ok_of_domains {c : Instr} {p : List Instr × BitVec 64} {s : State} (hc : Part.domains ∈ c.parts) (h : s.ok p) :
    EndsOk p (exec c s) := by
  cases c with dsimp only [Instr.parts] at hc
  | modEnFall => exact execModEnFall_ok _ h
  | psqOff => exact execPsqOff_ok _ _ h
  | inputFail => exact execInputFail_ok _ h
  | railPowerGood => exact execRailPowerGood_ok _ _ h
  | pgTimeout => exact execPgTimeout_ok _ h
  | railPgFall => exact execRailPgFall_ok _ _ h
  | cisternAverage => exact execCisternAverage_ok _ _ h
  | drainStepDone => exact execDrainStepDone_ok _ h
  | thermalDrainLimit => exact execThermalDrainLimit_ok _ h
  | shutdownStepDone => exact execShutdownStepDone_ok _ h
  | housekeepingReading => exact execHousekeepingReading_ok _ _ _ h
  | escalationTimeout => exact execEscalationTimeout_ok _ _ h
  | fcEsc => exact execFcEsc_ok _ _ h
  | fcContainNow => exact execFcContainNow_ok _ _ h
  | fcDrainLimit => exact execFcDrainLimit_ok _ h
  | oobWrite => exact execOobWrite_ok _ _ _ _ h
  | jtagInstructionUpdate => exact execJtagInstructionUpdate_ok _ _ _ h
  | trstN => exact execTrstN_ok _ _ h
  | devRstNAssert => exact execDevRstNAssert_ok _ h
  | devRstNRelease => exact execDevRstNRelease_ok _ _ h
  | registerResetExecute => exact execRegisterResetExecute_ok _ _ h
  | auxRise => exact execAuxRise_ok _ h
  | auxFall => exact execAuxFall_ok _ h
  | aonReady => exact execAonReady_ok _ _ _ h
  | memoryActive => exact execMemoryActive_ok _ h
  | _ => exact absurd hc (by decide)

theorem exec_domainsLegal {c : Instr} {s t : State} (h : exec c s = .next t) (hl : s.domainsLegal) : t.domainsLegal := by
  by_cases hc : Part.domains ∈ c.parts
  · obtain ⟨u, hu, -, hlegal, -⟩ := exec_ok_of_domains (p := (s.pending, s.tick)) hc ⟨rfl, hl, .inl rfl⟩
    obtain rfl : u = t := Host.Outcome.next.inj (hu.symm.trans h)
    exact hlegal
  · have hdom : t.dom = s.dom := exec_kept h hc
    exact (congrArg DomSt.legal hdom).mpr hl

theorem State.idle_dom (s : State) : s.idle.dom = s.dom := (State.idle_keeps (m := 67108892) rfl (Same.refl _ s)).dom rfl

/-- Settles O48, by the kind of step: a command keeps the combination legal, an empty queue keeps the domains. -/
theorem everyStepKeepsTheDomainsLegal : Obligations.EveryStepKeepsTheDomainsLegal := by
  intro s t hl h
  cases hq : s.pending with
  | nil =>
    obtain rfl : s.idle = t := Host.Outcome.next.inj ((step_of_empty hq).symm.trans h)
    exact (congrArg DomSt.legal s.idle_dom).mpr hl
  | cons c rest => exact exec_domainsLegal ((step_of_cons hq).symm.trans h) hl

end Sys2Proof.Machine
end

section
/-! SUPPORT. The speed monitors, the admission guard, the governor and the time base (01_architecture.md R26, R37–R41, R46, R47, R464). -/

set_option autoImplicit false

namespace Sys2Proof.Machine

/-! ### Registers through an operation's frame -/

/-- A field of a register that the mask does not hold reads as before. -/
theorem Same.get {m : Nat} {x s : State} (h : Same m x s) {f : Fld} (hb : bookReg f.off = false)
    (hm : m.testBit (27 + regBlk f.off) = false) : s.get f = x.get f :=
  congrArg (fldOf f) (h.own f.off hb hm)

theorem Same.bit {m : Nat} {x s : State} (h : Same m x s) {f : Fld} (hb : bookReg f.off = false)
    (hm : m.testBit (27 + regBlk f.off) = false) : s.bit f = x.bit f :=
  congrArg (· != 0) (h.get hb hm)

@[simp] theorem State.set_arch (s : State) (f : Fld) (v : Nat) : (s.set f v).arch = s.arch := rfl
@[simp] theorem State.setBit_arch (s : State) (f : Fld) (b : Bool) : (s.setBit f b).arch = s.arch := rfl
@[simp] theorem State.bump_arch (s : State) (o : Nat) : (s.bump o).arch = s.arch := rfl

/-- The applied admission level is the only field that the choice of it changes. -/
theorem State.applyLevel_get (s : State) {f : Fld} (hb : bookReg f.off = false)
    (hd : f.off ≠ R.RT_STS ∨ f.lo + f.width ≤ 6 ∨ 8 ≤ f.lo) : s.applyLevel.get f = s.get f := by
  have hset (v : Nat) : (s.set F.RT_STS.APPLIED_LVL v).get f = s.get f := State.get_set_ne s _ f v (by decide) hd
  have hgrant (u : State) : u.fwdGrant.get f = u.get f :=
    ((State.fwdGrant_keeps (m := 67174410) rfl (Same.refl _ u)).regsAre (by decide)).get hb
  unfold State.applyLevel
  dsimp only
  split
  · rw [hgrant, hset]
  · rw [hset]

theorem State.whenRaise_same (s : State) (b : Bool) (src sev kind : Nat) :
    Same 83887630 s (s.when b fun s => s.raise src sev kind) :=
  same_when (Same.refl _ s) fun _ ht => State.raise_keeps rfl ht

/-! ### The window of the speed monitors (R37, R41) -/

/-- The lower of two readings; the first of readings that tie. -/
def lowerOf (b x : Nat × Nat) : Nat × Nat := if x.1 < b.1 then x else b

theorem lowerOf_mem (b x : Nat × Nat) : lowerOf b x = b ∨ lowerOf b x = x := by unfold lowerOf; split <;> simp

theorem lowerOf_le (b x : Nat × Nat) : (lowerOf b x).1 ≤ b.1 ∧ (lowerOf b x).1 ≤ x.1 := by unfold lowerOf; split <;> omega

/-- The lowest of readings is one of them, and none of them lies below it. -/
theorem foldl_lowerOf (l : List (Nat × Nat)) (b : Nat × Nat) :
    (l.foldl lowerOf b = b ∨ l.foldl lowerOf b ∈ l) ∧ (l.foldl lowerOf b).1 ≤ b.1 ∧ ∀ x ∈ l, (l.foldl lowerOf b).1 ≤ x.1 := by
  induction l generalizing b with
  | nil => simp
  | cons x l ih =>
    obtain ⟨hmem, hle, hall⟩ := ih (lowerOf b x)
    obtain ⟨hb, hx⟩ := lowerOf_le b x
    refine ⟨?_, hle.trans hb, List.forall_mem_cons.mpr ⟨hle.trans hx, hall⟩⟩
    rcases hmem with h | h
    · exact (lowerOf_mem b x).imp h.trans fun e => List.mem_cons.mpr (.inl (h.trans e))
    · exact .inr (List.mem_cons_of_mem x h)

/-- The lowest of the monitors is the reading of the monitor that it names, and no monitor reads below it. -/
theorem lowestMon_spec {l : List Nat} (hl : l ≠ []) : l[(lowestMon l).2]? = some (lowestMon l).1 ∧ ∀ v ∈ l, (lowestMon l).1 ≤ v := by
  obtain ⟨hmem, -, hall⟩ := foldl_lowerOf l.zipIdx (l.getD 0 0, 0)
  have hdef : lowestMon l = l.zipIdx.foldl lowerOf (l.getD 0 0, 0) := rfl
  rw [← hdef] at hmem hall
  constructor
  · rcases hmem with h | h
    · obtain ⟨a, l, rfl⟩ := List.exists_cons_of_ne_nil hl
      simp [h]
    · exact List.mem_zipIdx_iff_getElem?.mp h
  · intro v hv
    obtain ⟨i, hi⟩ := List.mem_iff_getElem?.mp hv
    exact hall (v, i) (List.mem_zipIdx_iff_getElem?.mpr hi)

/-- The eight readings of a window (R37). -/
def monsOf (idx : BitVec 88) : List Nat := (List.range 8).map (monOf idx)

theorem lowestMon_monsOf (idx : BitVec 88) : (lowestMon (monsOf idx)).2 < 8 ∧
    monOf idx (lowestMon (monsOf idx)).2 = (lowestMon (monsOf idx)).1 ∧ ∀ k, k < 8 → (lowestMon (monsOf idx)).1 ≤ monOf idx k := by
  obtain ⟨hat, hle⟩ := lowestMon_spec (l := monsOf idx) (by simp [monsOf])
  obtain ⟨k, hk, hmon⟩ : ∃ k, (List.range 8)[(lowestMon (monsOf idx)).2]? = some k ∧ monOf idx k = (lowestMon (monsOf idx)).1 := by
    simpa only [monsOf, List.getElem?_map, Option.map_eq_some_iff] using hat
  obtain ⟨hlt, rfl⟩ := List.getElem?_eq_some_iff.mp hk
  rw [List.getElem_range] at hmon
  exact ⟨by simpa using hlt, hmon, fun k hk => hle _ (List.mem_map.mpr ⟨k, List.mem_range.mpr hk, rfl⟩)⟩

theorem monOf_lt (idx : BitVec 88) (k : Nat) : monOf idx k < 2048 := Nat.mod_lt _ (by decide)

theorem guardCalls_lt (v : Nat) : guardCalls v < 4 := by
  unfold guardCalls
  split_ifs <;> omega

/-- The device index of a window is shown in RT_SPD (R37). -/
def State.spdShow (s : State) (m : Nat × Nat) : State :=
  let u := (s.set F.RT_SPD.SPD_IDX m.1).set F.RT_SPD.SPD_MON m.2
  (u.set F.RT_SPD.SPD_MIN (min m.1 (u.get F.RT_SPD.SPD_MIN))).setBit F.RT_STS.SPD_VALID true

theorem State.spdShow_get (s : State) {m : Nat × Nat} (hv : m.1 < 2048) (hk : m.2 < 8) :
    (s.spdShow m).get F.RT_SPD.SPD_IDX = m.1 ∧ (s.spdShow m).get F.RT_SPD.SPD_MON = m.2 ∧
    (s.spdShow m).get F.RT_STS.GUARD_LVL = s.get F.RT_STS.GUARD_LVL := by
  have hidx : (s.set F.RT_SPD.SPD_IDX m.1).get F.RT_SPD.SPD_IDX = m.1 :=
    (State.get_set_self _ _ _ (by decide)).trans (Nat.mod_eq_of_lt hv)
  have hmon : ((s.set F.RT_SPD.SPD_IDX m.1).set F.RT_SPD.SPD_MON m.2).get F.RT_SPD.SPD_MON = m.2 :=
    (State.get_set_self _ _ _ (by decide)).trans (Nat.mod_eq_of_lt hk)
  have hne : R.RT_SPD ≠ R.RT_STS := by decide
  simp only [State.spdShow, State.setBit]
  refine ⟨?_, ?_, ?_⟩ <;> simp [State.get_set_ne, hidx, hmon, hne, hne.symm]

/-- The guard rises at once to the level that a window calls for; below that it counts the windows at its return threshold (R41). -/
def State.guardWindow (s : State) (v : Nat) : State :=
  let g := s.get F.RT_STS.GUARD_LVL
  if g < guardCalls v then { s.set F.RT_STS.GUARD_LVL (guardCalls v) with arch.retCnt := 0 }.applyLevel
  else { s with arch.retCnt := if 0 < g ∧ guardReturn g ≤ v then s.arch.retCnt + 1 else 0 }

theorem State.guardWindow_guard (s : State) (v : Nat) :
    (s.guardWindow v).get F.RT_STS.GUARD_LVL = max (s.get F.RT_STS.GUARD_LVL) (guardCalls v) := by
  unfold State.guardWindow
  dsimp only
  split
  · next h =>
    rw [State.applyLevel_get _ (by decide) (by decide), max_eq_right h.le]
    exact (State.get_set_self _ _ _ (by decide)).trans (Nat.mod_eq_of_lt (guardCalls_lt v))
  · next h => exact (max_eq_left (Nat.le_of_not_lt h)).symm

theorem State.guardWindow_spd (s : State) (v : Nat) {f : Fld} (hf : f.off = R.RT_SPD) : (s.guardWindow v).get f = s.get f := by
  unfold State.guardWindow
  dsimp only
  split
  · have hne : f.off ≠ R.RT_STS := by rw [hf]; decide
    rw [State.applyLevel_get _ (by rw [hf]; decide) (.inl hne)]
    exact State.get_set_ne s _ f _ (by decide) (.inl hne)
  · rfl

theorem State.guardWindow_mons (s : State) (v : Nat) : (s.guardWindow v).arch.mons = s.arch.mons := by
  unfold State.guardWindow
  dsimp only
  split <;> simp

/-- What a window counts before it is shown: the window of the applied level, and the windows in which a monitor is odd (R464). -/
def State.windowCount (s : State) (idx : BitVec 88) : State :=
  let u := s.bump (R.RT_LVL_WIN_CNT0 + 4 * s.get F.RT_STS.APPLIED_LVL)
  { u with
    arch.mons := monsOf idx
    arch.odd := (monsOf idx).zipIdx.map fun x => if monOdd (monsOf idx) x.1 then u.arch.odd.getD x.2 0 + 1 else 0 }

theorem State.windowCount_guard (s : State) (idx : BitVec 88) :
    (s.windowCount idx).get F.RT_STS.GUARD_LVL = s.get F.RT_STS.GUARD_LVL := by
  have hne : R.RT_STS ≠ R.RT_LVL_WIN_CNT0 + 4 * s.get F.RT_STS.APPLIED_LVL := by unfold R.RT_STS R.RT_LVL_WIN_CNT0; omega
  exact congrArg (fldOf F.RT_STS.GUARD_LVL) (State.rd_wr_ne s _ hne)

theorem exec_speedWindowEnd {s : State} (idx : BitVec 88) (hup : s.coreUp = true) (hclk : s.refclk = true) :
    exec (.speedWindowEnd idx) s = .next ((((s.windowCount idx).spdShow (lowestMon (monsOf idx))).guardWindow
      (lowestMon (monsOf idx)).1).when (decide ((lowestMon (monsOf idx)).1 < 635)) fun s => s.raise 120 3 Kind.SUPPLY) := by
  have hrun : (!s.coreUp || !s.refclk) = false := by simp [hup, hclk]
  show execSpeedWindowEnd idx s = _
  unfold execSpeedWindowEnd
  rw [if_neg (by simp [hrun])]
  rfl

/-- The device index is the lowest of the eight, and the guard rises to the level that it calls for. -/
theorem exec_speedWindowEnd_shows {s : State} (idx : BitVec 88) (hup : s.coreUp = true) (hclk : s.refclk = true) :
    ∃ t, exec (.speedWindowEnd idx) s = .next t ∧ (∀ k, k < 8 → t.get F.RT_SPD.SPD_IDX ≤ monOf idx k) ∧
      monOf idx (t.get F.RT_SPD.SPD_MON) = t.get F.RT_SPD.SPD_IDX ∧ t.arch.mons = monsOf idx ∧
      t.get F.RT_STS.GUARD_LVL = max (s.get F.RT_STS.GUARD_LVL) (guardCalls (t.get F.RT_SPD.SPD_IDX)) := by
  obtain ⟨hlt, hmon, hle⟩ := lowestMon_monsOf idx
  have hexec := exec_speedWindowEnd idx hup hclk
  generalize lowestMon (monsOf idx) = m at hlt hmon hle hexec
  obtain ⟨hidx, hnum, hguard⟩ := (s.windowCount idx).spdShow_get (m := m) (hmon ▸ monOf_lt idx _) hlt
  have hsame := (((s.windowCount idx).spdShow m).guardWindow m.1).whenRaise_same (decide (m.1 < 635)) 120 3 Kind.SUPPLY
  refine ⟨_, hexec, ?_⟩
  rw [hsame.get (f := F.RT_SPD.SPD_IDX) rfl rfl, hsame.get (f := F.RT_SPD.SPD_MON) rfl rfl, hsame.get (f := F.RT_STS.GUARD_LVL) rfl rfl,
    hsame.arch rfl, State.guardWindow_spd _ _ rfl, State.guardWindow_spd _ _ rfl, State.guardWindow_guard, State.guardWindow_mons,
    hidx, hnum, hguard, State.windowCount_guard]
  exact ⟨hle, hmon, rfl, rfl⟩

/-! ### The guard and an odd monitor (R41, R464) -/

theorem exec_guardLevelReturn {s : State} (hg : 0 < s.get F.RT_STS.GUARD_LVL) (hret : 1024 ≤ s.arch.retCnt) :
    exec .guardLevelReturn s = .next
      { s.set F.RT_STS.GUARD_LVL (s.get F.RT_STS.GUARD_LVL - 1) with arch.retCnt := 0 }.applyLevel := by
  show execGuardLevelReturn s = _
  unfold execGuardLevelReturn
  dsimp only
  rw [if_pos ⟨hg, hret⟩]

theorem State.guardDown_shows (s : State) :
    let t := { s.set F.RT_STS.GUARD_LVL (s.get F.RT_STS.GUARD_LVL - 1) with arch.retCnt := 0 }.applyLevel
    t.get F.RT_STS.GUARD_LVL = s.get F.RT_STS.GUARD_LVL - 1 ∧ t.arch.retCnt = 0 := by
  have hlt : s.get F.RT_STS.GUARD_LVL < 4 := Nat.mod_lt _ (by decide)
  have hput : (s.set F.RT_STS.GUARD_LVL (s.get F.RT_STS.GUARD_LVL - 1)).get F.RT_STS.GUARD_LVL = s.get F.RT_STS.GUARD_LVL - 1 :=
    (State.get_set_self _ _ _ (by decide)).trans (Nat.mod_eq_of_lt (show _ < 4 by omega))
  exact ⟨(State.applyLevel_get _ (by decide) (by decide)).trans hput, by simp⟩

theorem exec_speedMonitorOdd {mon : Fin 8} {s : State} (hup : s.coreUp = true) (hodd : 128 ≤ s.arch.odd.getD mon.val 0)
    (hsts : s.bit ⟨R.HK_STS, 16 + mon.val, 1⟩ = false) : exec (.speedMonitorOdd mon) s = .next
      ((s.setBit ⟨R.HK_STS, 16 + mon.val, 1⟩ true).raise 120 1 Kind.SUPPLY) := by
  show execSpeedMonitorOdd mon s = _
  unfold execSpeedMonitorOdd
  rw [if_pos ⟨hup, hodd, by simp [hsts]⟩]

/-! ### The governor and its voltage writes (R26, R39, R40) -/

@[simp] theorem State.setVcore_vset (s : State) (mv : Nat) : (s.setVcore mv).arch.vset = mv := by
  simp [State.setVcore, State.vcoreWrite]

@[simp] theorem State.setVcore_hold (s : State) (mv : Nat) : (s.setVcore mv).arch.hold = s.arch.hold := by
  simp [State.setVcore, State.vcoreWrite]

/-- The state after an evaluation by a healthy Proctor (R39): by the device index, the set point rises by four steps or by one, falls by
one step after the hold, or stays. -/
def State.governed (s : State) : State :=
  let v := s.get F.RT_SPD.SPD_IDX
  let a := s.arch
  if v < 840 then { s with arch.hold := 0 }.setVcore (min (a.vset + 4 * a.govStep) 850)
  else if 100 * v < 1024 * a.govLow then { s with arch.hold := 0 }.setVcore (min (a.vset + a.govStep) 850)
  else if 1024 * a.govHigh < 100 * v ∧ s.get F.RT_STS.APPLIED_LVL = 0 ∧ !(s.psq.marg.any fun x => s.entVcore x.1) then
    if a.govHold ≤ a.hold + 1 then { s with arch.hold := 0 }.setVcore (max (a.vset - a.govStep) 680)
    else { s with arch.hold := a.hold + 1 }
  else { s with arch.hold := 0 }

theorem exec_governorEvaluation {s : State} (hproc : s.proctors = true) (hphase : 3 ≤ s.get F.BOOT_STS.PHASE) (hpend : s.arch.pend = none)
    (hvalid : s.bit F.RT_STS.SPD_VALID = true) : exec .governorEvaluation s = .next s.governed := by
  have hrun : (!s.proctors || decide (s.get F.BOOT_STS.PHASE < 3) || s.arch.pend.isSome || !s.bit F.RT_STS.SPD_VALID) = false := by
    simp [hproc, hphase, hpend, hvalid]
  show execGovernorEvaluation s = _
  unfold execGovernorEvaluation State.governed
  rw [if_neg (by simp [hrun])]
  dsimp only
  repeat' split
  all_goals rfl

section
variable (s : State)

theorem State.governed_sag (h : s.get F.RT_SPD.SPD_IDX < 840) :
    s.governed.arch.vset = min (s.arch.vset + 4 * s.arch.govStep) 850 ∧ s.governed.arch.hold = 0 := by
  simp [State.governed, h]

theorem State.governed_low (h : 840 ≤ s.get F.RT_SPD.SPD_IDX) (hlow : 100 * s.get F.RT_SPD.SPD_IDX < 1024 * s.arch.govLow) :
    s.governed.arch.vset = min (s.arch.vset + s.arch.govStep) 850 ∧ s.governed.arch.hold = 0 := by
  simp [State.governed, Nat.not_lt.mpr h, hlow]

theorem State.governed_band (h : 840 ≤ s.get F.RT_SPD.SPD_IDX) (hlow : 1024 * s.arch.govLow ≤ 100 * s.get F.RT_SPD.SPD_IDX)
    (hhigh : 100 * s.get F.RT_SPD.SPD_IDX ≤ 1024 * s.arch.govHigh) : s.governed.arch.vset = s.arch.vset ∧ s.governed.arch.hold = 0 := by
  simp [State.governed, Nat.not_lt.mpr h, Nat.not_lt.mpr hlow, Nat.not_lt.mpr hhigh]

/-- No step down while an admission level is applied. -/
theorem State.governed_applied (h : 840 ≤ s.get F.RT_SPD.SPD_IDX) (hlow : 1024 * s.arch.govLow ≤ 100 * s.get F.RT_SPD.SPD_IDX)
    (hlvl : 0 < s.get F.RT_STS.APPLIED_LVL) : s.governed.arch.vset = s.arch.vset := by
  simp [State.governed, Nat.not_lt.mpr h, Nat.not_lt.mpr hlow, hlvl.ne']

end

theorem exec_governorEvaluation_alone {s : State} (hproc : s.proctors = false) : exec .governorEvaluation s = .next s := by
  show execGovernorEvaluation s = _
  simp [execGovernorEvaluation, hproc]

theorem exec_avsbusWriteDone_settled {s : State} {mv : Nat} {retry : Bool} (hpend : s.arch.pend = some (mv, retry)) :
    exec (.avsbusWriteDone true) s = .next { s with arch.pend := none, arch.vack := mv } := by
  show execAvsbusWriteDone true s = _
  simp [execAvsbusWriteDone, hpend]

theorem exec_avsbusWriteDone_again {s : State} {mv : Nat} (hpend : s.arch.pend = some (mv, false)) :
    exec (.avsbusWriteDone false) s = .next ({ s with arch.pend := some (mv, true) }.emit (.avs 0 mv)) := by
  show execAvsbusWriteDone false s = _
  simp [execAvsbusWriteDone, hpend]

/-- The second failure of a write: the last acknowledged value stands, with a fault of the rail's source. -/
theorem exec_avsbusWriteDone_failed {s : State} {mv : Nat} (hpend : s.arch.pend = some (mv, true)) :
    let u := (s.set F.PSQ_VCORE.VCORE s.arch.vack).raise 122 2 Kind.LINK
    exec (.avsbusWriteDone false) s = .next { u with
      arch.pend := none, arch.vset := if u.vcoreOff = 0 then u.arch.vack else u.arch.vset } := by
  show execAvsbusWriteDone false s = _
  simp [execAvsbusWriteDone, hpend]

/-! ### Faults of several pages in one command -/

/-- What each step of a fold brings about for its element, and every other step keeps, holds of every element at the end. -/
theorem foldl_reaches {α : Type} {f : State → α → State} {I : State → Prop} {Q : α → State → Prop} {l : List α}
    (hI : ∀ t, ∀ a ∈ l, I t → I (f t a)) (hQ : ∀ t, ∀ a ∈ l, I t → Q a (f t a)) (hkeep : ∀ t a, ∀ b ∈ l, Q a t → Q a (f t b))
    {s : State} (hs : I s) : ∀ a ∈ l, Q a (l.foldl f s) := by
  induction l generalizing s with
  | nil => simp
  | cons b l ih =>
    have hmem {a : α} (h : a ∈ l) : a ∈ b :: l := List.mem_cons_of_mem b h
    have hb : b ∈ b :: l := List.mem_cons_self
    refine List.forall_mem_cons.mpr ⟨?_, ?_⟩
    · exact List.foldlRecOn l f (hQ s b hb hs) fun t ht c hc => hkeep t b c (hmem hc) ht
    · exact ih (fun t a ha => hI t a (hmem ha)) (fun t a ha => hQ t a (hmem ha)) (fun t a c hc => hkeep t a c (hmem hc)) (hI s b hb hs)

theorem State.fcSrc_congr {s t : State} (h : t.fc = s.fc) (p : Nat) : t.fcSrc p = s.fcSrc p := by unfold State.fcSrc; rw [h]

/-- A change of a source that leaves its wire fault leaves every wire fault. -/
theorem State.fcMod_wire (s : State) (n p : Nat) {f : FcSrc → FcSrc} (hf : ∀ x, (f x).wire = x.wire) :
    ((s.fcMod n f).fcSrc p).wire = (s.fcSrc p).wire := by
  show (sget FcSrc.idle (sset FcSrc.idle s.fc.src n (f (s.fcSrc n))) p).wire = _
  rw [sget_sset]
  split
  · next h => rw [hf, h]
  · rfl

/-- A fold whose steps leave a reading as it is leaves it. -/
theorem foldl_eq {α β : Type} (g : State → β) {f : State → α → State} (hf : ∀ t a, g (f t a) = g t) (l : List α) (s : State) :
    g (l.foldl f s) = g s := by
  induction l generalizing s with
  | nil => rfl
  | cons a l ih => exact (ih (f s a)).trans (hf s a)

theorem foldl_wire {α : Type} {f : State → α → State} {p : Nat} (hf : ∀ t a, ((f t a).fcSrc p).wire = (t.fcSrc p).wire) (l : List α)
    (s : State) : ((l.foldl f s).fcSrc p).wire = (s.fcSrc p).wire :=
  foldl_eq (fun t => (t.fcSrc p).wire) hf l s

/-- What the collector notes of every fault that it takes: FC_SEEN, the severity's count, FLT_DETAIL and the record (R501). -/
def State.fltNoted (s : State) (f : Flt) (aff : Nat) : State :=
  let u := (((s.pcEvent (srcPage f.src).1 7 1).pcItem 1).bankBit (R.FC_SEEN 0) f.src true).bump (R.FC_CNT_SEV f.sev)
  let v := u.wrN (R.FLT_DETAIL (srcPage f.src).1)
    (f.kind % 16 + f.sev % 4 * 16 + (srcPage f.src).2 % 4 * 64 + f.detail % 2 ^ 24 * 256)
  v.when (decide (v.get F.FC_CTL.RB_MIN ≤ f.sev)) fun s => s.rbEvent (fltEvent f 0 aff)

theorem State.fltNoted_fc (s : State) (f : Flt) (aff : Nat) : (s.fltNoted f aff).fc = s.fc := by
  unfold State.fltNoted
  dsimp only
  refine ((same_when (m := 67109384) (Same.refl _ _) fun _ ht => State.rbEvent_keeps rfl ht).fc rfl).trans ?_
  exact (State.pcItem_keeps (m := 67108872) rfl (State.pcEvent_keeps rfl (Same.refl _ s))).fc rfl

/-- A fault that is taken is noted; one that raises its source's severity also makes the source active, its wire fault as before. -/
theorem State.fltTake_cases (s : State) (f : Flt) (aff : Nat) :
    s.fltTake f aff = s.fltNoted f aff ∨ ∃ g : FcSrc → FcSrc, (∀ x, (g x).wire = x.wire) ∧
      s.fltTake f aff = (((s.fltNoted f aff).fcMod f.src g).bankBit (R.FC_ACTIVE 0) f.src true).alertShow := by
  unfold State.fltTake
  dsimp only
  split
  · refine .inr ⟨_, ?_, rfl⟩
    exact fun _ => rfl
  · exact .inl rfl

theorem State.fltTake_wire (s : State) (f : Flt) (aff p : Nat) : ((s.fltTake f aff).fcSrc p).wire = (s.fcSrc p).wire := by
  have hnoted := congrArg FcSrc.wire (State.fcSrc_congr (s.fltNoted_fc f aff) p)
  rcases s.fltTake_cases f aff with h | ⟨g, hg, h⟩
  · rw [h, hnoted]
  · have hshow (x : State) : x.alertShow.fc = x.fc := (State.alertShow_keeps (m := 83886090) rfl (Same.refl _ x)).fc rfl
    rw [h, State.fcSrc_congr (hshow _)]
    exact (State.fcMod_wire _ f.src p hg).trans hnoted

/-- A fault that a block raises begins and ends no wire fault. -/
theorem State.raise_wire (s : State) (src sev kind p : Nat) : ((s.raise src sev kind).fcSrc p).wire = (s.fcSrc p).wire := by
  unfold State.raise State.raiseWindow
  dsimp only
  split
  · have hfirst (t : State) (l : List Flt) : (t.fltFirstTake l).fc = t.fc :=
      (State.fltFirstTake_keeps (m := 8) rfl (Same.refl _ t)).fc rfl
    rw [foldl_wire fun t f => t.fltTake_wire f 0 p, State.fcSrc_congr (hfirst _ _), foldl_wire (f := State.fltSts) fun t f => rfl]
    refine foldl_wire (α := Flt) (fun t f => State.fcMod_wire t f.src p ?_) _ _
    exact fun _ => rfl
  · refine foldl_wire (fun t f => ?_) _ _
    have hfc : (t.rbEvent (fltEvent f 0 0)).fc = t.fc := (State.rbEvent_keeps (m := 67109384) rfl (Same.refl _ t)).fc rfl
    exact congrArg FcSrc.wire (State.fcSrc_congr hfc p)

theorem State.fltSts_keepsSeen {s : State} {f : Flt} {p k : Nat} (hk : f.kind < 32) (h : s.bit ⟨R.FLT_STS p, k, 1⟩ = true) :
    (s.fltSts f).bit ⟨R.FLT_STS p, k, 1⟩ = true := by
  by_cases he : R.FLT_STS p = R.FLT_STS (srcPage f.src).1 ∧ k = f.kind
  · rw [he.1, he.2]
    exact s.fltSts_seen f hk
  · refine (State.bit_setBit_ne _ _ _ _ (by simp; omega) ?_).trans h
    simp only
    omega

theorem foldl_keepsBit {α : Type} {f : State → α → State} {g : Fld} {l : List α}
    (hf : ∀ t, ∀ a ∈ l, t.bit g = true → (f t a).bit g = true) {s : State} (h : s.bit g = true) : (l.foldl f s).bit g = true :=
  List.foldlRecOn l f (motive := fun t => t.bit g = true) h fun t ht a ha => hf t a ha ht

/-- FLT_STS keeps what a page has raised while further faults arrive (R501). -/
theorem State.raise_keepsSeen {s : State} {src sev kind p k : Nat} (hk : kind < 32) (h : s.fltSeen p k = true) :
    (s.raise src sev kind).fltSeen p k = true := by
  unfold State.fltSeen at h ⊢
  generalize (srcPage p).1 = page at h ⊢
  unfold State.raise State.raiseWindow
  dsimp only
  split
  · refine foldl_keepsBit (fun t f _ ht => ?_) ?_
    · exact ((t.fltTake_book1 f 0).seen page k).trans ht
    rw [(State.fltFirstTake_book1 _ _).seen]
    refine foldl_keepsBit (fun t f hf ht => ?_) (foldl_keepsBit (fun t f _ ht => ?_) ?_)
    · obtain rfl := List.mem_singleton.mp (List.mem_of_mem_filter (List.mem_of_mem_filter hf))
      exact State.fltSts_keepsSeen hk ht
    · exact ht
    · exact h
  · refine foldl_keepsBit (fun t f _ ht => ?_) h
    exact ((t.rbEvent_book1 _).seen page k).trans ht

/-! ### The time base (R46, R47) -/

/-- The pages whose copy of the tick differs from page 0. -/
def copiesThatDiffer (differ : BitVec 110) : List Nat := (List.range 110).filter fun p => p != 0 && differ.getLsbD p

theorem exec_tickCopyCompare (differ : BitVec 110) (s : State) :
    exec (.tickCopyCompare differ) s = .next ((copiesThatDiffer differ).foldl (fun s p => s.raise p 1 Kind.CHECK) s) := rfl

theorem foldl_raiseCheck_seen {l : List Nat} (hl : ∀ p ∈ l, p ≤ 124) {s : State} (hup : s.coreUp = true)
    (hw : ∀ p, (s.fcSrc p).wire = false) : ∀ p ∈ l, (l.foldl (fun s p => s.raise p 1 Kind.CHECK) s).fltSeen p Kind.CHECK = true := by
  refine foldl_reaches (I := fun t => t.coreUp = true ∧ ∀ p, (t.fcSrc p).wire = false) (Q := fun p t => t.fltSeen p Kind.CHECK = true)
    ?_ ?_ ?_ ⟨hup, hw⟩
  · rintro t a - ⟨hc, hn⟩
    exact ⟨(congrArg DomSt.coreUp ((State.raise_keeps (m := 83887630) rfl (Same.refl _ t)).dom rfl)).trans hc, fun p => (t.raise_wire _ _ _ _).trans (hn p)⟩
  · rintro t a ha ⟨hc, hn⟩
    exact t.raise_seen a 1 _ hc (hn a) (hl a ha) (by decide)
  · exact fun t a b _ h => State.raise_keepsSeen (by decide) h

theorem bookReg_of {o : Nat} (h1 : pageOf o ≠ 1) (h5 : pageOf o ≠ 5) (h : 0xC0 < o % 0x1000) : bookReg o = false := by
  simp only [bookReg, Bool.or_eq_false_iff, Bool.and_eq_false_iff, beq_eq_false_iff_ne, decide_eq_false_iff_not]
  omega

theorem bookReg_hpSts (p : Nat) : bookReg (R.HP_STS p) = false :=
  bookReg_of (by unfold pageOf R.HP_STS; omega) (by unfold pageOf R.HP_STS; omega) (by unfold R.HP_STS; omega)

theorem regBlk_hpSts (p : Nat) : regBlk (R.HP_STS p) = 13 := blk13 (by unfold R.HP_STS; omega) (by unfold R.HP_STS; omega)

theorem State.linkGone_linkUp (s : State) (p : Nat) : (s.linkGone p).bit (F.HP_STS.LINK_UP p) = false := by
  simp [State.linkGone, State.bit_setBit_ne, State.bit_set_ne, State.bit_setBit_self]

theorem State.linkGone_keepsDown {s : State} {p : Nat} (q : Nat) (h : s.bit (F.HP_STS.LINK_UP p) = false) :
    (s.linkGone q).bit (F.HP_STS.LINK_UP p) = false := by
  by_cases he : R.HP_STS p = R.HP_STS q
  · rw [show F.HP_STS.LINK_UP p = F.HP_STS.LINK_UP q by rw [F.HP_STS.LINK_UP, he]]
    exact s.linkGone_linkUp q
  · simp [State.linkGone, State.bit_setBit_ne, State.bit_set_ne, he, h]

/-- What a link's end does after LINK_UP: the count and the event. -/
theorem State.linkCount_bit (s : State) (q p : Nat) :
    ((s.bump (R.HP_LINK_DOWN q)).hostEvent q false).bit (F.HP_STS.LINK_UP p) = s.bit (F.HP_STS.LINK_UP p) := by
  have hevent := (State.hostEvent_keeps (m := 67109384) (a1 := q) (a2 := false) rfl (Same.refl _ (s.bump (R.HP_LINK_DOWN q)))).regsAre (by decide)
  have hne : R.HP_STS p ≠ R.HP_LINK_DOWN q := by unfold R.HP_STS R.HP_LINK_DOWN; omega
  exact (hevent.bit (bookReg_hpSts p)).trans (congrArg (fun w => fldOf (F.HP_STS.LINK_UP p) w != 0) (State.rd_wr_ne s _ hne))

theorem State.hostLinkDown_linkUp (s : State) (p : Nat) : (s.hostLinkDown p).bit (F.HP_STS.LINK_UP p) = false := by
  unfold State.hostLinkDown
  split
  · exact (State.linkCount_bit _ p p).trans (s.linkGone_linkUp p)
  · next h => simpa using h

theorem State.hostLinkDown_keepsDown {s : State} {p : Nat} (q : Nat) (h : s.bit (F.HP_STS.LINK_UP p) = false) :
    (s.hostLinkDown q).bit (F.HP_STS.LINK_UP p) = false := by
  unfold State.hostLinkDown
  split
  · exact (State.linkCount_bit _ q p).trans (s.linkGone_keepsDown q h)
  · exact h

/-- REFCLK is gone: its fault, and the host links down. -/
def State.clockLost (s : State) : State :=
  (List.range 8).foldl (fun s p => s.hostLinkDown p) ({ s with refclk := false }.raise 121 2 Kind.SUPPLY)

theorem exec_refclkAbsent {s : State} (hclk : s.refclk = true) :
    exec .refclkAbsent s = .next (s.clockLost.when s.clockLost.coreUp fun s => s.linkLoss 1) := by
  show execRefclkAbsent s = _
  unfold execRefclkAbsent
  rw [if_neg (by simp [hclk])]
  rfl

theorem State.clockLost_links (s : State) (p : Nat) (hp : p < 8) : s.clockLost.bit (F.HP_STS.LINK_UP p) = false :=
  foldl_reaches (I := fun _ => True) (Q := fun p t => t.bit (F.HP_STS.LINK_UP p) = false) (fun _ _ _ h => h)
    (fun t q _ _ => t.hostLinkDown_linkUp q) (fun _ _ q _ h => State.hostLinkDown_keepsDown q h) trivial p (List.mem_range.mpr hp)

theorem State.clockLost_same (s : State) : Same 1099595515406 { s with refclk := false } s.clockLost :=
  same_foldl (State.raise_keeps rfl (Same.refl _ _)) fun _ _ ht => State.hostLinkDown_keeps rfl ht

theorem State.whenLinkLoss_same (s : State) (b : Bool) (cause : Nat) : Same 549823005194 s (s.when b fun s => s.linkLoss cause) :=
  same_when (Same.refl _ s) fun _ ht => State.linkLoss_keeps rfl ht

/-- Settles O1, command by command. -/
theorem speedMonitorsGovernorAndTimeBase : Obligations.SpeedMonitorsGovernorAndTimeBase := by
  refine ⟨fun idx s hup hclk => exec_speedWindowEnd_shows idx hup hclk, fun s hg hret => ?_, fun mon s hup hodd hsts hw => ?_,
    fun s hproc hphase hpend hvalid => ?_, fun s hproc => exec_governorEvaluation_alone hproc, fun mv s hpend => ⟨?_, ?_⟩,
    fun mv s hpend hup hw => ?_, fun differ s hup hw => ?_, fun s hclk => ?_, fun s => ⟨_, rfl, rfl⟩⟩
  · exact ⟨_, exec_guardLevelReturn hg hret, s.guardDown_shows⟩
  · exact ⟨_, exec_speedMonitorOdd hup hodd hsts, State.raise_book _ _ _ _, State.raise_seen _ _ _ _ hup hw (by decide) (by decide)⟩
  · exact ⟨_, exec_governorEvaluation hproc hphase hpend hvalid, fun h => s.governed_sag h, fun h hlow => s.governed_low h hlow,
      fun h hlow hhigh => s.governed_band h hlow hhigh, fun h hlow hlvl => s.governed_applied h hlow hlvl⟩
  · exact ⟨_, exec_avsbusWriteDone_settled hpend, rfl, rfl, rfl⟩
  · exact ⟨_, exec_avsbusWriteDone_again hpend, by simp, by simp⟩
  · exact ⟨_, exec_avsbusWriteDone_failed hpend, rfl, by simp, State.raise_book _ _ _ _,
      State.raise_seen _ _ _ _ hup hw (by decide) (by decide)⟩
  · refine ⟨_, exec_tickCopyCompare differ s, ?_, ?_, fun p hp h0 hd => ?_⟩
    · exact (same_foldl (m := 83887630) (Same.refl _ s) fun _ _ ht => State.raise_keeps rfl ht).tick rfl
    · exact State.regsAre_foldl s.regsAre_refl fun t p ht => (t.raise_book _ _ _).trans ht
    · have hle : ∀ p ∈ copiesThatDiffer differ, p ≤ 124 := fun p h => by
        have := List.mem_range.mp (List.mem_of_mem_filter h)
        omega
      exact foldl_raiseCheck_seen hle hup hw p (List.mem_filter.mpr ⟨List.mem_range.mpr hp, by simp [h0, hd]⟩)
  · have hlost := s.clockLost_same
    have hloss := s.clockLost.whenLinkLoss_same s.clockLost.coreUp 1
    refine ⟨_, exec_refclkAbsent hclk, (hloss.refclk rfl).trans (hlost.refclk rfl), (hloss.tick rfl).trans (hlost.tick rfl), fun p hp => ?_⟩
    exact (hloss.bit (bookReg_hpSts p) (by rw [regBlk_hpSts]; rfl)).trans (s.clockLost_links p hp)

end Sys2Proof.Machine
end

section
/-! SUPPORT. Start-up and the resets (01_architecture.md R35; 16_parameter_store_and_roll_book.md R482; 19_startup_reset_and_pin_states.md
R544, R547–R549, R555, R556, R598, Table 19.1). -/

set_option autoImplicit false
namespace Sys2Proof.Machine

@[simp] theorem State.set_boot (s : State) (f : Fld) (v : Nat) : (s.set f v).boot = s.boot := rfl
@[simp] theorem State.setBit_boot (s : State) (f : Fld) (b : Bool) : (s.setBit f b).boot = s.boot := rfl
@[simp] theorem State.wrN_boot (s : State) (o v : Nat) : (s.wrN o v).boot = s.boot := rfl
@[simp] theorem State.bump_boot (s : State) (o : Nat) : (s.bump o).boot = s.boot := rfl
@[simp] theorem State.set_dom (s : State) (f : Fld) (v : Nat) : (s.set f v).dom = s.dom := rfl
@[simp] theorem State.setBit_dom (s : State) (f : Fld) (b : Bool) : (s.setBit f b).dom = s.dom := rfl
@[simp] theorem State.wrN_dom (s : State) (o v : Nat) : (s.wrN o v).dom = s.dom := rfl
@[simp] theorem State.bump_dom (s : State) (o : Nat) : (s.bump o).dom = s.dom := rfl

/-! ### DEV_RST_N through a fault and through the start of the core domain -/

theorem State.alertShow_boot (s : State) : s.alertShow.boot = { s.boot with alert := s.alertCause } := by
  unfold State.alertShow
  split
  · next h => rw [beq_iff_eq.mp h]
  · have hemit (o : Output) : (s.emit o).boot = s.boot := (State.emit_keeps (m := 67108874) rfl (Same.refl _ s)).boot rfl
    exact congrArg (fun b : BootSt => { b with alert := s.alertCause }) (hemit _)

theorem State.alertShow_rstN (s : State) : s.alertShow.boot.rstN = s.boot.rstN := by rw [State.alertShow_boot]

theorem State.alertShow_jtag (s : State) : s.alertShow.boot.jtag = s.boot.jtag := by rw [State.alertShow_boot]

theorem State.fltNoted_boot (s : State) (f : Flt) (aff : Nat) : (s.fltNoted f aff).boot = s.boot := by
  unfold State.fltNoted
  dsimp only
  refine ((same_when (m := 67109384) (Same.refl _ _) fun _ ht => State.rbEvent_keeps rfl ht).boot rfl).trans ?_
  exact (State.pcItem_keeps (m := 67108872) rfl (State.pcEvent_keeps rfl (Same.refl _ s))).boot rfl

theorem State.fltTake_rstN (s : State) (f : Flt) (aff : Nat) : (s.fltTake f aff).boot.rstN = s.boot.rstN := by
  have hnoted := congrArg BootSt.rstN (s.fltNoted_boot f aff)
  rcases s.fltTake_cases f aff with h | ⟨g, -, h⟩
  · rw [h, hnoted]
  · rw [h, State.alertShow_rstN]
    exact hnoted

/-- A fault drives ALERT_N and no other part of start-up. -/
theorem State.raise_rstN (s : State) (src sev kind : Nat) : (s.raise src sev kind).boot.rstN = s.boot.rstN := by
  unfold State.raise State.raiseWindow
  dsimp only
  split
  · have hfirst (t : State) (l : List Flt) : (t.fltFirstTake l).boot = t.boot :=
      (State.fltFirstTake_keeps (m := 8) rfl (Same.refl _ t)).boot rfl
    refine (foldl_eq (fun t => t.boot.rstN) (fun t f => t.fltTake_rstN f 0) _ _).trans ((congrArg BootSt.rstN (hfirst _ _)).trans ?_)
    refine (foldl_eq (fun t => t.boot.rstN) (fun t f => ?_) _ _).trans (foldl_eq (fun t => t.boot.rstN) (fun t f => ?_) _ _)
    · rfl
    · rfl
  · refine foldl_eq (fun t => t.boot.rstN) (fun t f => ?_) _ _
    exact congrArg BootSt.rstN ((State.rbEvent_keeps (m := 67109384) rfl (Same.refl _ t)).boot rfl)

/-- The keys of a start touch no part of start-up; only a failed known-answer test raises a fault. -/
theorem State.keysStart_rstN (s : State) (kat : Bool) : (s.keysStart kat).boot.rstN = s.boot.rstN := by
  unfold State.keysStart
  extract_lets s1 ce1 s2 s3 a b s4 s5 s6 s7 s8 n sn cen s9
  have h3 : Same 17179885580 s3 s3 := Same.refl _ s3
  have h4 : Same 17179885580 s3 s4 := by
    unfold s4
    split
    · exact h3
    · exact State.fixSlot_keeps rfl (State.fixSlot_keeps rfl (State.drbgTake_keeps rfl (State.drbgTake_keeps rfl h3)))
  have h6 : Same 17179885580 s3 s6 :=
    same_foldl (State.setBit_keeps rfl (R.CE_STS_ok rfl) h4) fun _ _ ht => State.fixSlot_keeps rfl ht
  have h7 : Same 17179885580 s3 s7 := by
    unfold s7
    split
    · exact State.setBit_keeps rfl (R.CE_STS_ok rfl) (State.rkLoad_keeps rfl h6)
    · exact h6
  have h8 : Same 17179885580 s3 s8 := by
    unfold s8
    split
    · exact State.fixSlot_keeps rfl h7
    · exact h7
  have h9 : s9.boot = s.boot := (State.drbgTake_keeps (m := 17179885580) rfl h8).boot rfl
  split
  · exact (State.raise_rstN _ _ _ _).trans (congrArg BootSt.rstN h9)
  · refine congrArg BootSt.rstN (Eq.trans ?_ h9)
    split
    · exact (State.derive_keeps (m := 17179885580) rfl (State.keySlotTake_keeps rfl (Same.refl _ s9))).boot rfl
    · exact (State.slotCountShow_keeps (m := 17179885580) rfl (Same.refl _ s9)).boot rfl

theorem State.coreBegin_rstN (s : State) (old : Option Nat) (kat : Bool) : (s.coreBegin old kat).boot.rstN = s.boot.rstN := by
  unfold State.coreBegin
  extract_lets s1 fc1 sir1 s2 s3 s4 s5 s6 s7 s8 s9
  have h1 : s1.boot = s.boot := by
    refine foldl_eq State.boot (fun _ _ => ?_) _ s
    rfl
  have h4 : s4.boot = s1.boot := by simp only [s4, s3, s2, State.setBit_boot, State.set_boot, State.wrN_boot]
  have hlevel : Same 8796160196618 s4 s5 := State.applyLevel_keeps rfl (State.set_keeps rfl (R.RT_STS_ok rfl) (Same.refl _ s4))
  have h5 : s5.boot = s.boot := (hlevel.boot rfl).trans (h4.trans h1)
  have h6 : s6.boot.rstN = s.boot.rstN := (s5.keysStart_rstN kat).trans (congrArg BootSt.rstN h5)
  have h7 : s7.boot = s6.boot := by unfold s7; split <;> rfl
  have h8 : s8.boot = s7.boot := by
    unfold s8
    split
    · exact (State.dirtyShutdown_keeps (m := 1103873736970) rfl (Same.refl _ s7)).boot rfl
    · rfl
  have h9 : s9.boot = s8.boot := (State.roll_keeps (m := 67109384) rfl (Same.refl _ s8)).boot rfl
  have hend (v : Nat) : (s9.pdWrite v).boot = s9.boot := (State.pdWrite_keeps (m := 4362076938) rfl (Same.refl _ s9)).boot rfl
  rw [hend, h9, h8, h7, h6]

/-! ### The core domain in and out of service -/

theorem State.coreRelease_shows (s : State) :
    s.coreRelease.dom = { s.dom with coreUp := true } ∧ s.coreRelease.boot.rstN = s.boot.rstN := by
  let u := ((s.set F.PSQ_STS.PD_LAST (s.pdRecord.getD 4)).setBit F.LC_STS.CHECK_BUSY true).mapcInvStart
  have h : Same 562949819203592 s u := State.mapcInvStart_keeps rfl
    (State.setBit_keeps rfl (regOk_all rfl _) (State.set_keeps rfl (regOk_all rfl _) (Same.refl _ s)))
  have hdom : ({ u.dom with coreUp := true } : DomSt) = { s.dom with coreUp := true } := by rw [h.dom rfl]
  have hrst : u.boot.rstN = s.boot.rstN := by rw [h.boot rfl]
  exact ⟨hdom, hrst⟩

/-- A start with the AON domain ready puts the core domain in service (R35) and leaves DEV_RST_N as it is. -/
theorem State.coreStart_of_aon {s : State} (haon : s.dom.aon = true) (kat : Bool) :
    (s.coreStart kat).dom = { s.dom with coreUp := true } ∧ (s.coreStart kat).boot.rstN = s.boot.rstN := by
  have hstart : s.coreStart kat = s.coreRelease.coreBegin s.pdRecord kat := if_neg (by simp [haon])
  have hdom := (State.coreBegin_keeps (m := 10467188786958) (a1 := s.pdRecord) (a2 := kat) rfl (Same.refl _ s.coreRelease)).dom rfl
  rw [hstart]
  exact ⟨hdom.trans s.coreRelease_shows.1, (State.coreBegin_rstN _ _ _).trans s.coreRelease_shows.2⟩

/-- The core domain out of service: neither it nor memory is left in service, and the levels of DEV_RST_N and the JTAG hold stay, the hold
only where the power does (Table 19.4). -/
theorem State.coreDown_left (s : State) (kind : Nat) :
    (s.coreDown kind).dom = { s.dom with coreUp := false, memActive := false } ∧ (s.coreDown kind).boot.rstN = s.boot.rstN ∧
    (s.coreDown kind).boot.jtag = (kind != 5 && s.boot.jtag) := by
  unfold State.coreDown
  extract_lets power held dram ups s1 s2 s3 latched s4 s5 lcKept s6 s7 s8 s9 w
  have h2 : Same 562949928254990 s s2 := same_foldl (same_foldl (Same.refl _ s) fun _ _ ht => State.streamEnd_keeps rfl ht)
    fun _ _ ht => State.hostLinkDown_keeps rfl ht
  have h3 : Same 562949928254990 s s3 :=
    State.holdToken_keeps rfl (same_when h2 fun _ ht => State.linkEvent_keeps rfl ht)
  have h5 : Same 562949928254990 s s5 := State.lcReset_keeps rfl (State.cutMedia_keeps rfl (State.pinsDown_keeps rfl h3))
  have h7 : Same 562949928254990 s s7 := State.setBit_keeps rfl (regOk_all rfl _) (State.coreRegs_keeps rfl (State.teReset_keeps rfl h5))
  have h8 : Same 562949928254990 s s8 := same_foldl h7 fun _ _ ht => same_when ht fun _ hu => State.setBit_keeps rfl (regOk_all rfl _) hu
  have h9 : Same 562949928254990 s s9 := by
    unfold s9
    split
    · exact State.bmapShow_keeps rfl (State.setBit_keeps rfl (regOk_all rfl _) (State.setBit_keeps rfl (regOk_all rfl _) h8))
    · exact h8
  have hdom : s9.dom = s.dom := h9.dom rfl
  have hrst : s9.boot.rstN = s.boot.rstN := congrArg BootSt.rstN (h9.boot rfl)
  have hjtag : (power && s9.boot.jtag) = (power && s.boot.jtag) := congrArg (fun b : BootSt => power && b.jtag) (h9.boot rfl)
  refine ⟨?_, ?_, ?_⟩
  · refine ((State.alertShow_keeps (m := 83886090) rfl (Same.refl _ _)).dom rfl).trans ?_
    exact congrArg (fun d : DomSt => { d with coreUp := false, memActive := false }) hdom
  · exact (State.alertShow_rstN _).trans hrst
  · exact (State.alertShow_jtag _).trans hjtag

/-- A reset of the core domain with its rails on (R555, R557) takes it out of service and leaves DEV_RST_N as it is. -/
theorem State.coreReset_left (s : State) (kind : Nat) :
    (s.coreReset kind).coreUp = false ∧ (s.coreReset kind).dom.aon = s.dom.aon ∧
    (s.coreUp = true → (s.coreReset kind).memActive = false) ∧ (s.coreReset kind).boot.rstN = s.boot.rstN ∧
    (s.boot.jtag = false → (s.coreReset kind).boot.jtag = false) := by
  obtain ⟨hdom, hrst, hjtag⟩ := s.coreDown_left kind
  have hpd : Same 4362076938 (s.coreDown kind) ((s.coreDown kind).pdWrite 0) := State.pdWrite_keeps rfl (Same.refl _ _)
  have hend : (s.coreReset kind).dom = (if s.coreUp then (s.coreDown kind).pdWrite 0 else s).dom ∧
      (s.coreReset kind).boot = (if s.coreUp then (s.coreDown kind).pdWrite 0 else s).boot := by simp [State.coreReset]
  unfold State.coreUp State.memActive
  rw [hend.1, hend.2]
  split
  · rw [hpd.dom rfl, hpd.boot rfl, hdom]
    exact ⟨rfl, rfl, fun _ => rfl, hrst, fun h => by rw [hjtag, h, Bool.and_false]⟩
  · next h => exact ⟨by simpa using h, rfl, fun hup => absurd hup h, rfl, id⟩

/-- The tick is 0 but for boundary scan, and start-up shows the kind of the reset. -/
theorem State.coreReset_shows (s : State) {kind : Nat} (hk : kind < 8) :
    (s.coreReset kind).get F.BOOT_STS.LAST_RST = kind ∧ (s.coreReset kind).get F.BOOT_STS.PHASE = 1 ∧
    (kind ≠ 4 → (s.coreReset kind).tick = 0) := by
  unfold State.coreReset
  extract_lets s1 ps s2 s3
  refine ⟨(State.get_set_self _ _ _ (by decide)).trans (Nat.mod_eq_of_lt hk), ?_, fun h4 => ?_⟩
  · simp only [State.setBit]
    rw [State.get_set_ne, State.get_set_ne, State.get_set_ne, State.get_set_self]
    all_goals decide
  · exact if_neg h4

/-! ### A power-down of a device whose core domain is out of service (R425, R557) -/

/-- The core domain is out of service, and DEV_RST_N is as in the other state. -/
def State.downAs (t s : State) : Prop := t.coreUp = false ∧ t.boot.rstN = s.boot.rstN

theorem Same.downAs {m : Nat} {s t u : State} (h : Same m s t) (hdom : m.testBit 6 = false) (hboot : m.testBit 24 = false)
    (hs : s.downAs u) : t.downAs u :=
  ⟨(congrArg DomSt.coreUp (h.dom hdom)).trans hs.1, (congrArg BootSt.rstN (h.boot hboot)).trans hs.2⟩

theorem State.coreOff_downAs {s u : State} (h : s.downAs u) : s.coreOff.downAs u := by
  obtain ⟨hdom, hrst, -⟩ := s.coreDown_left 5
  unfold State.coreOff
  split
  · have hup : (s.coreDown 5).dom.coreUp = false := congrArg DomSt.coreUp hdom
    exact ⟨by simpa [State.coreUp] using hup, by simpa [h.2] using hrst⟩
  · exact h

theorem State.startDown_downAs {s u : State} (h : s.downAs u) : s.startDown.downAs u := by
  have hsave : Same 562949936643854 s ((s.histSave).setPhase Ph.down).rbClose :=
    State.rbClose_keeps rfl (State.setPhase_keeps rfl (State.histSave_keeps rfl (Same.refl _ s)))
  have hnext (t : State) : Same 1140851210 t t.downNext := State.downNext_keeps rfl (Same.refl _ t)
  exact (hnext _).downAs rfl rfl (State.coreOff_downAs (hsave.downAs rfl rfl h))

theorem State.resetDown_downAs {s u : State} (h : s.downAs u) : s.resetDown.downAs u :=
  State.startDown_downAs ((State.pdWrite_keeps (m := 4362076938) (a1 := 1) rfl (Same.refl _ s)).downAs rfl rfl h)

/-! ### DEV_RST_N and the register device reset (R555, R556) -/

/-- The filtered level of DEV_RST_N changes. -/
def State.rstTo (s : State) (low : Bool) : State := { s with boot.rstN := low }

@[simp] theorem State.rstTo_bit (s : State) (low : Bool) (f : Fld) : (s.rstTo low).bit f = s.bit f := rfl
@[simp] theorem State.rstTo_phase (s : State) (low : Bool) : (s.rstTo low).phase = s.phase := rfl
@[simp] theorem State.rstTo_dom (s : State) (low : Bool) : (s.rstTo low).dom = s.dom := rfl
@[simp] theorem State.rstTo_rstN (s : State) (low : Bool) : (s.rstTo low).boot.rstN = low := rfl
@[simp] theorem State.rstTo_jtag (s : State) (low : Bool) : (s.rstTo low).boot.jtag = s.boot.jtag := rfl

theorem exec_devRstNAssert_again {s : State} (h : s.boot.rstN = true) : exec .devRstNAssert s = .next s := if_pos h

section
variable {s : State} (h : s.boot.rstN = false)
include h

theorem exec_devRstNAssert_railsDown (hrails : s.bit F.PSQ_STS.RAILS_UP = false) :
    exec .devRstNAssert s = .next { s with boot.rstN := true, tick := 0 } := by
  show execDevRstNAssert s = _
  unfold execDevRstNAssert
  rw [if_neg (by simp [h])]
  exact if_pos (show (!(s.rstTo true).bit F.PSQ_STS.RAILS_UP) = true by simp [hrails])

/-- With the rails up the core domain enters its reset, and a power-down that was running goes on to DOWN. -/
theorem exec_devRstNAssert_reset (hrails : s.bit F.PSQ_STS.RAILS_UP = true) :
    ∃ t, exec .devRstNAssert s = .next t ∧ t.boot.rstN = true ∧ t.coreUp = false ∧ t.tick = 0 := by
  obtain ⟨hup, -, -, hrst, -⟩ := (s.rstTo true).coreReset_left 1
  obtain ⟨-, -, htick⟩ := (s.rstTo true).coreReset_shows (kind := 1) (by decide)
  have hexec : execDevRstNAssert s = .next (let u := (s.rstTo true).coreReset 1
      if u.phase = Ph.drain ∨ u.phase = Ph.shutdown then u.resetDown else u) := by
    unfold execDevRstNAssert
    rw [if_neg (by simp [h])]
    exact if_neg (show ¬(!(s.rstTo true).bit F.PSQ_STS.RAILS_UP) = true by simp [hrails])
  refine ⟨_, hexec, ?_⟩
  dsimp only
  split
  · obtain ⟨hup', hrst'⟩ := State.resetDown_downAs (u := s.rstTo true) ⟨hup, hrst⟩
    exact ⟨hrst', hup', (State.resetDown_tick _).trans (htick (by decide))⟩
  · exact ⟨hrst, hup, htick (by decide)⟩

theorem exec_devRstNRelease_again (kat : Bool) : exec (.devRstNRelease kat) s = .next s := if_pos (by simp [h])

end

theorem exec_devRstNRelease_start {s : State} (h : s.boot.rstN = true) (hrails : s.bit F.PSQ_STS.RAILS_UP = true) (hon : s.phase = Ph.on)
    (hup : s.coreUp = false) (hjtag : s.boot.jtag = false) (kat : Bool) :
    exec (.devRstNRelease kat) s = .next ((s.rstTo false).coreStart kat) := by
  show execDevRstNRelease kat s = _
  unfold execDevRstNRelease
  rw [if_neg (by simp [h])]
  refine congrArg _ (if_pos (show ((s.rstTo false).bit F.PSQ_STS.RAILS_UP && (s.rstTo false).phase == Ph.on &&
    !(s.rstTo false).coreUp && !(s.rstTo false).boot.jtag) = true from ?_))
  simp [State.coreUp] at hup ⊢
  simp [hrails, hon, hup, hjtag]

theorem State.regAcc_isManager (s : State) (page : Nat) (path : Path) : (s.regAcc page).isManager path = s.isManager path := by
  cases path with
  | oob => rfl
  | port p => exact congrArg (· == 2) ((s.regAcc_book page).get (bookReg_hpSts p.val))

theorem State.regAcc_phase (s : State) (page : Nat) : (s.regAcc page).phase = s.phase :=
  (s.regAcc_book page).get (f := F.PSQ_STS.PHASE) (by decide)

theorem State.regAcc_coreUp (s : State) (page : Nat) : (s.regAcc page).coreUp = s.coreUp := by simp [State.coreUp]

theorem State.sendDown_tokenHeld (s : State) (cause : Nat) : (s.sendDown cause).bit F.CAR_STS.TOKEN_HELD = false := by
  unfold State.sendDown
  split
  · exact State.bit_setBit_self _ _ _ (by decide) (by decide)
  · exact State.bit_setBit_self _ _ _ (by decide) (by decide)

section
variable {path : Path} {v : Word} {s : State}

/-- The register device reset is asked for: DOWN is sent. -/
theorem exec_bootCtlReset_taken (hmgr : s.isManager path = true) (hup : s.coreUp = true) (hon : s.phase = Ph.on)
    (hkey : v.toNat / 65536 = 0xD0E5) (hbit : v.getLsbD 0 = true) (hreq : s.boot.resetReq = false) :
    exec (.bootCtlReset path v) s = .next { (s.regAcc 0).sendDown 3 with boot.resetReq := true } := by
  refine if_pos ?_
  simp [State.regAcc_isManager, State.regAcc_phase, State.regAcc_coreUp, hmgr, hup, hon, hkey, hbit, hreq]

theorem exec_bootCtlReset_ignored (h : s.isManager path = false ∨ v.toNat / 65536 ≠ 0xD0E5 ∨ v.getLsbD 0 = false) :
    exec (.bootCtlReset path v) s = .next (s.regAcc 0) := by
  refine if_neg ?_
  rw [State.regAcc_isManager]
  rcases h with h | h | h
  · simp [h]
  · simp [h]
  · simp only [h, Bool.and_false, Bool.false_and, Bool.false_eq_true, not_false_eq_true]

end

theorem State.pump_of_noReqs {s : State} (h : s.rt.reqs = []) : s.pump = s := by
  simp [State.pump, State.pumpN, State.nextReady, h]

theorem State.settleReqs_of_noReqs {s : State} (h : s.rt.reqs = []) : s.settleReqs = s := by
  have hlet : s.letAll = s := by
    unfold State.letAll
    rw [h]
    exact congrArg (fun l => ({ s with rt.reqs := l } : State)) h.symm
  simp only [State.settleReqs, h, List.filter_nil, List.foldl_nil, hlet, State.pump_of_noReqs h]

theorem exec_registerResetExecute_unasked {s : State} (h : s.boot.resetReq = false) (kat : Bool) :
    exec (.registerResetExecute kat) s = .next s := if_pos (by simp [h])

section
variable {s : State} (hreq : s.boot.resetReq = true) (hup : s.coreUp = true) (hnone : s.rt.reqs = [])
  (hcont : s.bit F.FC_STS.CONTAINING = false) (kat : Bool)
include hreq hup hnone hcont

theorem exec_registerResetExecute : exec (.registerResetExecute kat) s = .next (let u := s.coreReset 2
    if u.boot.rstN || u.boot.jtag then u else u.coreStart kat) := by
  show execRegisterResetExecute kat s = _
  unfold execRegisterResetExecute
  rw [if_neg (by simp [hreq, hup])]
  dsimp only
  rw [State.settleReqs_of_noReqs hnone, if_neg (by simp [hnone]), hcont]
  rfl

theorem exec_registerResetExecute_held (hrst : s.boot.rstN = true) : exec (.registerResetExecute kat) s = .next (s.coreReset 2) := by
  rw [exec_registerResetExecute hreq hup hnone hcont]
  obtain ⟨-, -, -, hrst', -⟩ := s.coreReset_left 2
  exact congrArg _ (if_pos (by simp [hrst', hrst]))

theorem exec_registerResetExecute_restarts (hrst : s.boot.rstN = false) (hjtag : s.boot.jtag = false) :
    exec (.registerResetExecute kat) s = .next ((s.coreReset 2).coreStart kat) := by
  rw [exec_registerResetExecute hreq hup hnone hcont]
  obtain ⟨-, -, -, hrst', hjtag'⟩ := s.coreReset_left 2
  exact congrArg _ (if_neg (by simp [hrst', hrst, hjtag' hjtag]))

end

/-! ### The AUX power-on reset (R558, R598) -/

/-- The pins at high impedance after the AUX power-on reset (Table 19.6). -/
def State.auxLost (s : State) : State :=
  let u := (List.range 16).foldl (fun s k => s.emit (.pin (.railEn k) none)) (s.auxReset.emit (.pin .cisTest none))
  ((u.emit (.pin .twinToken none)).emit (.pin .twinAliveOut none)).emit (.pin .alertN none)

theorem exec_auxFall_lost {s : State} (h : s.dom.aux = true) : exec .auxFall s = .next s.auxLost := if_neg (by simp [h])

theorem exec_auxFall_again {s : State} (h : s.dom.aux = false) : exec .auxFall s = .next s := if_pos (by simp [h])

theorem State.auxLost_same (s : State) : Same 67108874 s.auxReset s.auxLost :=
  State.emit_keeps rfl (State.emit_keeps rfl (State.emit_keeps rfl
    (same_foldl (State.emit_keeps rfl (Same.refl _ _)) fun _ _ ht => State.emit_keeps rfl ht)))

theorem State.auxReset_keeps_pst (s : State) : s.auxReset.pst.words = s.pst.words := by
  have hdown : (s.coreDown 5).pst = s.pst := (State.coreDown_keeps (m := 562949945032270) rfl (Same.refl _ s)).pst rfl
  show (if s.coreUp then s.coreDown 5 else s).pst.words = s.pst.words
  split
  · rw [hdown]
  · rfl

theorem State.auxReset_keeps_media {s : State} (h : s.coreUp = false) : s.auxReset.te.media = s.te.media := by
  show (if s.coreUp then s.coreDown 5 else s).te.media = s.te.media
  rw [if_neg (by simp [h])]

theorem State.mem_emit {s : State} {o : Output} (p : Output) (h : o ∈ s.out) : o ∈ (s.emit p).out := by
  rw [State.emit_out]
  exact List.mem_append_left _ h

theorem State.auxLost_rails (s : State) (k : Nat) (hk : k < 16) : Output.pin (.railEn k) none ∈ s.auxLost.out := by
  refine State.mem_emit _ (State.mem_emit _ (State.mem_emit _ ?_))
  refine foldl_reaches (I := fun _ => True) (Q := fun k t => Output.pin (.railEn k) none ∈ t.out) (fun _ _ _ h => h) (fun t k _ _ => ?_)
    (fun t k j _ h => State.mem_emit _ h) trivial k (List.mem_range.mpr hk)
  simp [State.emit_out]

/-! ### The AON domain is ready (R35) -/

/-- The tasks of AON ready leave the domains and the sampled TWIN_SIDE. -/
theorem exec_aonReady {s : State} (haux : s.dom.aux = true) (haon : s.dom.aon = false) (side : Bool) (cfg : List (BitVec 24 × Word)) :
    ∃ t, exec (.aonReady side cfg) s = .next t ∧ t.dom = { s.dom with aon := true } ∧ t.boot = { s.boot with side := side } := by
  have hready : ¬(!s.dom.aux || s.dom.aon) = true := by simp [haux, haon]
  show ∃ t, execAonReady side cfg s = .next t ∧ _
  unfold execAonReady
  rw [if_neg hready]
  extract_lets d b s1 s2 s3 s4 p s5
  have h2 : Same 562949901091594 s1 s2 := same_ite (State.wrN_keeps rfl (regOk_all rfl _) (Same.refl _ s1)) (Same.refl _ s1)
  have h3 : Same 562949901091594 s1 s3 := same_foldl (State.emit_keeps rfl h2) fun _ _ ht => State.emit_keeps rfl ht
  have h4 : Same 562949901091594 s1 s4 := State.monitorReady_keeps rfl (State.storeReady_keeps rfl h3)
  have h5 : Same 562949901091594 s1 s5 := by
    unfold s5
    split
    · exact State.lockout_keeps rfl (State.setBit_keeps rfl (regOk_all rfl _) h4)
    · exact upd_psq rfl h4
  have h : Same 562949901091594 s1 (if s5.bit F.PSQ_STS.MOD_EN then s5.onRequest else s5) := same_ite (State.onRequest_keeps rfl h5) h5
  exact ⟨_, rfl, h.dom rfl, h.boot rfl⟩

/-! ### The configuration is loaded (R482, R547, Table 19.1) -/

/-- The copy taken is the valid one with the higher generation, copy A where both have the same (assumption 36). -/
theorem imageOf_eq_some {a b : Option CfgImage} {i : CfgImage}
    (h : a = some i ∧ (b = none ∨ ∃ j, b = some j ∧ j.gen.toNat ≤ i.gen.toNat) ∨
      b = some i ∧ (a = none ∨ ∃ j, a = some j ∧ j.gen.toNat < i.gen.toNat)) : imageOf a b = some i := by
  rcases h with ⟨rfl, rfl | ⟨j, rfl, hj⟩⟩ | ⟨rfl, rfl | ⟨j, rfl, hj⟩⟩
  · rfl
  · exact if_neg (Nat.not_lt.mpr hj)
  · rfl
  · exact if_pos hj

/-- The values of an image in force, but for the regions: configuration fields, governor, pools and ports. -/
def State.imageTaken (s : State) (i : CfgImage) (records : List (BitVec 24 × Sys2Proof.Word)) : State :=
  let u := s.cfgLoad false (if s.boot.lcCfg then lcKeptRegs else []) (i.regs ++ records)
  let refs := i.refs.foldl (fun (l : Sparse (BitVec 24)) (x : Fin 160 × BitVec 24) => sset 0 l x.1.val x.2) ([] : Sparse (BitVec 24))
  (({ u with
    boot.lockActive := i.lockActive, boot.lcCfg := true, sir.refDef := refs, sir.refStart := refs } : State).govLoad i).poolsLoad.portsLoad i.roles

/-- The training of every DRAM channel starts. -/
def State.dramTrains (s : State) : State := (List.range 6).foldl (fun s c => s.setBit (F.DC_STS.TRAIN_BUSY c) true) s

/-- The training of every media channel starts; one without dies is off, and a fenced one has failed. -/
def State.mediaTrains (s : State) : State :=
  (List.range 40).foldl (fun s c => if s.num (R.MC_DIES c) % 16 = 0 then s.setBit (F.MC_CTL.EN c) false
    else if s.fencedSrc (32 + c) then (s.setBit (F.MC_STS.FAILED c) true).mgShow c else s.trainStart c) s

theorem State.portsLoad_lockActive (s : State) (roles : BitVec 16) : (s.portsLoad roles).boot.lockActive = s.boot.lockActive := by
  unfold State.portsLoad
  extract_lets b p s1 s2 r
  have h2 : Same 1099511627784 s1 s2 := same_foldl (Same.refl _ s1) fun _ _ ht => State.setBit_keeps rfl (R.HP_CFG_ok rfl) ht
  have h1 : s1.boot.lockActive = s.boot.lockActive := rfl
  refine (congrArg BootSt.lockActive (Same.boot (m := 1099511627784) (x := s1) (same_foldl h2 fun _ _ ht => ?_) rfl)).trans h1
  exact State.set_keeps rfl (R.HP_STS_ok rfl) (State.setBit_keeps rfl (R.HP_STS_ok rfl) ht)

theorem State.imageTaken_shows (s : State) (i : CfgImage) (records : List (BitVec 24 × Sys2Proof.Word)) :
    let t := s.imageTaken i records
    t.boot.lockActive = i.lockActive ∧ t.arch.govLow = near 82 90 i.govLow.toNat ∧
    t.arch.govHigh = near (t.arch.govLow + 4) 100 i.govHigh.toNat ∧ t.arch.govStep = near 5 20 (i.govStep.toNat / 5 * 5) ∧
    t.arch.govHold = near 4 64 i.govHold.toNat := by
  have harch (u : State) : (u.portsLoad i.roles).arch = u.arch := (State.portsLoad_keeps (m := 1099528405000) rfl (Same.refl _ u)).arch rfl
  unfold State.imageTaken
  dsimp only
  rw [State.portsLoad_lockActive, harch]
  exact ⟨rfl, rfl, rfl, rfl, rfl⟩

theorem State.dramTrains_same (s : State) : Same 2199023255560 s s.dramTrains :=
  same_foldl (Same.refl _ s) fun _ _ ht => State.setBit_keeps rfl (R.DC_STS_ok rfl) ht

theorem State.mediaTrains_same (s : State) : Same 21990299934734 s s.mediaTrains := by
  refine same_foldl (Same.refl _ s) fun t c ht => ?_
  split
  · exact State.setBit_keeps rfl (R.MC_CTL_ok rfl) ht
  split
  · exact State.mgShow_keeps rfl (State.setBit_keeps rfl (R.MC_STS_ok rfl) ht)
  · exact State.trainStart_keeps rfl ht

/-- A field set in one channel's register keeps the same field set in another's, whichever registers they are. -/
theorem State.setBit_keepsBit {s : State} {f : Fld} (g : Fld) (h : s.bit f = true) (hlo : g.lo = f.lo) (hw : g.width = 1)
    (hf : f.width = 1) (hfit : f.lo < 32) : (s.setBit g true).bit f = true := by
  by_cases ho : f.off = g.off
  · obtain rfl : f = g := by cases f; cases g; simp_all
    exact State.bit_setBit_self s f true (by omega) (by omega)
  · exact (State.bit_setBit_ne s g f true (by omega) (.inl ho)).trans h

theorem State.dramTrains_busy (s : State) (ch : Nat) (hch : ch < 6) : s.dramTrains.bit (F.DC_STS.TRAIN_BUSY ch) = true :=
  foldl_reaches (I := fun _ => True) (Q := fun c t => t.bit (F.DC_STS.TRAIN_BUSY c) = true) (fun _ _ _ h => h)
    (fun t c _ _ => State.bit_setBit_self t (F.DC_STS.TRAIN_BUSY c) true (by simp) (by simp))
    (fun _ _ c _ h => State.setBit_keepsBit (F.DC_STS.TRAIN_BUSY c) h rfl rfl rfl (by simp)) trivial ch (List.mem_range.mpr hch)

/-- The state in which DRAM and media train under an image (phase 2). -/
def State.configured (s : State) (i : CfgImage) (records : List (BitVec 24 × Sys2Proof.Word)) : State :=
  ((((List.range 16).foldl State.regionLoad (s.imageTaken i records)).dramTrains.mediaTrains).emit (.pin .spi (some true))).set
    F.BOOT_STS.PHASE 2

theorem State.configured_shows (s : State) (i : CfgImage) (records : List (BitVec 24 × Sys2Proof.Word)) :
    let t := s.configured i records
    t.get F.BOOT_STS.PHASE = 2 ∧ t.boot.lockActive = i.lockActive ∧ t.arch.govLow = near 82 90 i.govLow.toNat ∧
    t.arch.govHigh = near (t.arch.govLow + 4) 100 i.govHigh.toNat ∧ t.arch.govStep = near 5 20 (i.govStep.toNat / 5 * 5) ∧
    t.arch.govHold = near 4 64 i.govHold.toNat ∧ ∀ ch, ch < 6 → t.bit (F.DC_STS.TRAIN_BUSY ch) = true := by
  let u := (List.range 16).foldl State.regionLoad (s.imageTaken i records)
  have hu : Same 281492223738376 (s.imageTaken i records) u :=
    same_foldl (Same.refl _ _) fun _ _ ht => State.regionLoad_keeps rfl ht
  have hdram := u.dramTrains_same
  have hend : Same 21990568370190 u.dramTrains (s.configured i records) :=
    State.set_keeps rfl (R.BOOT_STS_ok rfl) (State.emit_keeps rfl (u.dramTrains.mediaTrains_same.mono rfl))
  have hboot : (s.configured i records).boot = (s.imageTaken i records).boot :=
    (hend.boot rfl).trans ((hdram.boot rfl).trans (hu.boot rfl))
  have harch : (s.configured i records).arch = (s.imageTaken i records).arch :=
    (hend.arch rfl).trans ((hdram.arch rfl).trans (hu.arch rfl))
  dsimp only
  rw [hboot, harch]
  obtain ⟨hlock, hlow, hhigh, hstep, hhold⟩ := s.imageTaken_shows i records
  refine ⟨State.get_set_self _ _ _ (by decide), hlock, hlow, hhigh, hstep, hhold, fun ch hch => ?_⟩
  have hbusy := u.dramTrains_busy ch hch
  have hkept : (s.configured i records).rd (R.DC_STS ch) = u.dramTrains.rd (R.DC_STS ch) := hend.dcSts rfl ch
  exact (congrArg (fun w => fldOf (F.DC_STS.TRAIN_BUSY ch) w != 0) hkept).trans hbusy

section
variable {a b : Option CfgImage} {records : List (BitVec 24 × Sys2Proof.Word)} {s : State} (hup : s.coreUp = true)
  (hphase : s.get F.BOOT_STS.PHASE = 1) (hhalt : s.bit F.BOOT_STS.HALT = false)
include hup hphase hhalt

theorem exec_configurationLoaded_none : exec (.configurationLoaded none none records) s = .next (s.bootHalt 1) :=
  if_neg (by simp [hup, hphase, hhalt])

theorem exec_configurationLoaded {i : CfgImage} (h : imageOf a b = some i) :
    exec (.configurationLoaded a b records) s = .next (s.configured i records) := by
  show execConfigurationLoaded a b records s = _
  unfold execConfigurationLoaded
  rw [if_neg (by simp [hup, hphase, hhalt]), h]
  rfl

end

theorem State.bootHalt_shows (s : State) {cause : Nat} (h : cause < 8) : (s.bootHalt cause).bit F.BOOT_STS.HALT = true ∧
    (s.bootHalt cause).get F.BOOT_STS.CAUSE = cause ∧ (s.bootHalt cause).get F.BOOT_STS.PHASE = s.get F.BOOT_STS.PHASE := by
  unfold State.bootHalt
  refine ⟨?_, (State.get_set_self _ _ _ (by decide)).trans (Nat.mod_eq_of_lt h), ?_⟩
  · rw [State.bit_set_ne _ _ _ _ (by decide) (by decide), State.bit_setBit_self _ _ _ (by decide) (by decide)]
  · rw [State.get_set_ne _ _ _ _ (by decide) (by decide), State.setBit, State.get_set_ne _ _ _ _ (by decide) (by decide)]

/-! ### FC_STS through start-up -/

theorem State.pcAdd_fcSts (s : State) (p k n : Nat) : (s.pcAdd p k n).rd R.FC_STS = s.rd R.FC_STS := by
  have hlo : R.FC_STS ≠ R.PC_CNT p (2 * k) := by unfold R.FC_STS R.PC_CNT; omega
  have hhi : R.FC_STS ≠ R.PC_CNT p (2 * k) + 4 := by unfold R.FC_STS R.PC_CNT; omega
  have hctl : R.FC_STS ≠ R.PC_WIN_CTL p := by unfold R.FC_STS R.PC_WIN_CTL; omega
  have hcnt (v : Nat) : (s.wr64 (R.PC_CNT p (2 * k)) v).rd R.FC_STS = s.rd R.FC_STS :=
    (State.rd_wr_ne _ _ hhi).trans (State.rd_wr_ne _ _ hlo)
  unfold State.pcAdd
  dsimp only
  split
  · exact (State.rd_set_ne _ _ _ hctl).trans (hcnt _)
  · exact hcnt _

theorem State.pcEvent_fcSts (s : State) (p ev n : Nat) : (s.pcEvent p ev n).rd R.FC_STS = s.rd R.FC_STS := by
  refine foldl_eq (fun t : State => t.rd R.FC_STS) (fun t k => ?_) _ _
  dsimp only
  split
  · split
    · rfl
    · exact t.pcAdd_fcSts p k n
  · rfl

theorem State.pcOut_fcSts (s : State) (o : Output) : (s.pcOut o).rd R.FC_STS = s.rd R.FC_STS := by
  have htwo (p q : Nat) : ((s.pcEvent p 3 1).pcEvent q 3 1).rd R.FC_STS = s.rd R.FC_STS :=
    (State.pcEvent_fcSts _ _ _ _).trans (State.pcEvent_fcSts _ _ _ _)
  unfold State.pcOut
  split
  · exact s.pcEvent_fcSts _ _ _
  · exact s.pcEvent_fcSts _ _ _
  · exact s.pcEvent_fcSts _ _ _
  · exact htwo _ _
  · exact htwo _ _
  · rfl

theorem State.emit_fcSts (s : State) (o : Output) : (s.emit o).rd R.FC_STS = s.rd R.FC_STS := State.pcOut_fcSts _ o

theorem State.pstAnswer_fcSts (s : State) : s.pstAnswer.rd R.FC_STS = s.rd R.FC_STS :=
  foldl_eq (fun t : State => t.rd R.FC_STS) (fun t _ => t.emit_fcSts _) _ _

theorem State.rd_setBit_ne (s : State) (f : Fld) (b : Bool) {o : Nat} (h : o ≠ f.off) : (s.setBit f b).rd o = s.rd o :=
  State.rd_set_ne s f b.toNat h

theorem State.rd_wrN_ne (s : State) {o o' : Nat} (v : Nat) (h : o' ≠ o) : (s.wrN o v).rd o' = s.rd o' := State.rd_wr_ne s _ h

theorem State.rd_pst (s : State) (q : PstSt) (o : Nat) : ({ s with pst := q } : State).rd o = s.rd o := rfl

theorem State.rd_te (s : State) (e : TeSt) (o : Nat) : ({ s with te := e } : State).rd o = s.rd o := rfl

theorem State.rd_boot (s : State) (b : BootSt) (o : Nat) : ({ s with boot := b } : State).rd o = s.rd o := rfl

theorem State.get_boot (s : State) (b : BootSt) (f : Fld) : ({ s with boot := b } : State).get f = s.get f := rfl

theorem State.supplyLatch_fcSts (s : State) : s.supplyLatch.rd R.FC_STS = s.rd R.FC_STS := by
  rw [State.supplyLatch, State.rd_set_ne _ _ _ (by decide), State.rd_set_ne _ _ _ (by decide)]

theorem State.pstCheck_fcSts (s : State) : s.pstCheck.rd R.FC_STS = s.rd R.FC_STS := by
  unfold State.pstCheck
  split
  · rw [State.rd_setBit_ne _ _ _ (by decide)]
  · extract_lets t
    split
    · rw [State.rd_pst, State.rd_setBit_ne _ _ _ (by decide), State.rd_setBit_ne _ _ _ (by decide), State.supplyLatch_fcSts]
    · rw [State.rd_pst, State.rd_setBit_ne _ _ _ (by decide), State.supplyLatch_fcSts]

theorem State.pstNextN_fcSts (n : Nat) (s : State) : (State.pstNextN n s).rd R.FC_STS = s.rd R.FC_STS := by
  induction n generalizing s with
  | zero => rfl
  | succ n ih =>
    unfold State.pstNextN
    split
    · rfl
    split
    · rw [State.pstAnswer_fcSts, State.rd_setBit_ne _ _ _ (by decide)]
    · extract_lets steps
      split
      · exact ih _
      · exact (State.pstAnswer_fcSts _).trans (State.pstCheck_fcSts _)

theorem State.pstAdd_fcSts (s : State) (j : PstJob) : (s.pstAdd j).rd R.FC_STS = s.rd R.FC_STS := by
  have hcount (t : State) : (t.pcEvent 4 2 1).rd R.FC_STS = t.rd R.FC_STS := t.pcEvent_fcSts 4 2 1
  unfold State.pstAdd
  extract_lets op p t
  have ht : t.rd R.FC_STS = s.rd R.FC_STS := hcount _
  split
  · exact (State.pstNextN_fcSts _ _).trans ht
  · split
    · exact (State.pstNextN_fcSts _ _).trans ht
    · exact ht

theorem State.logEvent_fcSts (s : State) (p log : Nat) (r : CxlRec) : (s.logEvent p log r).rd R.FC_STS = s.rd R.FC_STS := by
  have hdrop : R.FC_STS ≠ R.HP_EVT_DROP p := by unfold R.FC_STS R.HP_EVT_DROP; omega
  unfold State.logEvent
  split
  · exact State.rd_wr_ne _ _ hdrop
  · rfl

theorem State.dirtyShutdown_fcSts (s : State) (words : List Nat) : (s.dirtyShutdown words).rd R.FC_STS = s.rd R.FC_STS :=
  (foldl_eq (fun t : State => t.rd R.FC_STS) (fun t p => t.logEvent_fcSts p _ _) _ _).trans (s.pstAdd_fcSts _)

theorem State.latchedLoss_fcSts (s : State) : s.latchedLoss.rd R.FC_STS = s.rd R.FC_STS := by
  unfold State.latchedLoss
  split
  · rfl
  · extract_lets t
    split
    · rw [State.dirtyShutdown_fcSts, State.rd_setBit_ne _ _ _ (by decide)]
      rfl
    · rfl

theorem State.seqShow_fcSts (s : State) : s.seqShow.rd R.FC_STS = s.rd R.FC_STS := by
  have hro (t : State) : (t.setBit F.TE_STS.SEQ_RO true).rd R.FC_STS = t.rd R.FC_STS :=
    State.rd_setBit_ne t F.TE_STS.SEQ_RO true (by decide)
  unfold State.seqShow
  extract_lets n t
  have ht : t.rd R.FC_STS = s.rd R.FC_STS := State.rd_setBit_ne s _ _ (by decide)
  split
  · exact (State.rd_te _ _ _).trans ((hro t).trans ht)
  · exact ht

theorem State.seqResume_fcSts (s : State) : s.seqResume.rd R.FC_STS = s.rd R.FC_STS := by
  unfold State.seqResume
  extract_lets k n t
  have ht : t.rd R.FC_STS = s.rd R.FC_STS := by
    rw [State.rd_wrN_ne _ _ (by decide), State.rd_wrN_ne _ _ (by decide), State.rd_wrN_ne _ _ (by decide),
      State.rd_wrN_ne _ _ (by decide)]
  rw [State.pstAdd_fcSts, State.pstAdd_fcSts, State.rd_te, State.seqShow_fcSts, ht]

theorem State.tsStatus_same (s : State) : Same 137438953480 s s.tsStatus := State.tsStatus_keeps rfl (Same.refl _ s)

/-! ### DRAM is ready in start-up (R557) -/

theorem State.tsStatus_fcSts (s : State) : s.tsStatus.rd R.FC_STS = s.rd R.FC_STS := by
  have hbit (t : State) (f : Fld) (b : Bool) (hf : f.off = R.TS_STS) : (t.setBit f b).rd R.FC_STS = t.rd R.FC_STS :=
    State.rd_setBit_ne t f b (by rw [hf]; decide)
  unfold State.tsStatus
  extract_lets d s1 s2 s3 s4 s5 s6
  have h1 : s1.rd R.FC_STS = s.rd R.FC_STS := hbit s _ _ rfl
  have h2 : s2.rd R.FC_STS = s.rd R.FC_STS := by
    unfold s2
    split
    · exact (hbit s1 _ _ rfl).trans h1
    · exact h1
  have h3 : s3.rd R.FC_STS = s.rd R.FC_STS := by
    unfold s3
    split
    · exact (hbit s2 _ _ rfl).trans h2
    split
    · exact (hbit s2 _ _ rfl).trans h2
    · exact h2
  have h4 : s4.rd R.FC_STS = s.rd R.FC_STS := by
    unfold s4
    split
    · exact (hbit s3 _ _ rfl).trans h3
    split
    · exact (hbit s3 _ _ rfl).trans h3
    · exact h3
  rw [State.rd_wrN_ne _ _ (by decide), State.rd_wrN_ne _ _ (by decide), State.rd_wrN_ne _ _ (by decide),
    State.rd_wrN_ne _ _ (by decide), h4]

/-- A field of BOOT_STS below DIRTY_LOST. -/
def bootField (f : Fld) : Prop := f.off = R.BOOT_STS ∧ f.lo + f.width ≤ 15

theorem Same.bootField {m : Nat} {x s : State} (h : Same m x s) (hm : m.testBit 28 = false) {f : Fld} (hf : bootField f) :
    s.get f = x.get f :=
  h.get (hf.1 ▸ bookReg_bootSts) (by rw [hf.1]; exact hm)

theorem Same.coreSts {m : Nat} {x s : State} (h : Same m x s) (hm : m.testBit 45 = false) (k : Nat) :
    s.rd (R.CORE_STS k) = x.rd (R.CORE_STS k) := by
  have hblk : regBlk (R.CORE_STS k) = 18 := blk18 (by unfold R.CORE_STS; omega) (by unfold R.CORE_STS; omega)
  have hbook : bookReg (R.CORE_STS k) = false :=
    bookReg_of (by unfold pageOf R.CORE_STS; omega) (by unfold pageOf R.CORE_STS; omega) (by unfold R.CORE_STS; omega)
  exact h.own _ hbook (by rw [hblk]; exact hm)

theorem State.latchedLoss_bootField (s : State) {f : Fld} (hf : bootField f) : s.latchedLoss.get f = s.get f := by
  unfold State.latchedLoss
  split
  · rfl
  · extract_lets b t
    split
    · have hlost (words : List Nat) : Same 1103873736970 (t.setBit F.BOOT_STS.DIRTY_LOST true)
          ((t.setBit F.BOOT_STS.DIRTY_LOST true).dirtyShutdown words) := State.dirtyShutdown_keeps rfl (Same.refl _ _)
      have hoff : (t.setBit F.BOOT_STS.DIRTY_LOST true).get f = t.get f :=
        State.get_set_ne t F.BOOT_STS.DIRTY_LOST f _ (by decide) (.inr (.inl hf.2))
      exact ((hlost _).bootField rfl hf).trans (hoff.trans (s.get_boot b f))
    · rfl

/-- DRAM ready changes the fields of BOOT_STS below DIRTY_LOST in the phase only. -/
theorem State.dramPhase_bootField (s : State) {f : Fld} (hf : bootField f) :
    s.dramPhase.get f = s.get f ∨ s.dramPhase.get f = (s.set F.BOOT_STS.PHASE 4).get f := by
  unfold State.dramPhase
  split
  · extract_lets all t b u v
    have hu : Same 73081561354 u v :=
      State.seqResume_keeps rfl (State.set_keeps rfl (R.TE_STS_ok rfl) (State.setBit_keeps rfl (R.TE_STS_ok rfl) (Same.refl _ u)))
    have ht : t.get f = (s.set F.BOOT_STS.PHASE 4).get f :=
      (State.wrN_keeps (m := 137438953480) rfl (R.TS_SLOT_CNT_ok rfl) (Same.refl _ _)).bootField rfl hf
    refine .inr ?_
    have hv : v.get f = t.get f := (hu.bootField rfl hf).trans (t.get_boot b f)
    rw [v.latchedLoss.tsStatus_same.bootField rfl hf, v.latchedLoss_bootField hf, hv, ht]
  · exact .inl rfl

theorem State.dramPhase_fcSts (s : State) : s.dramPhase.rd R.FC_STS = s.rd R.FC_STS := by
  unfold State.dramPhase
  split
  · extract_lets all t b u v
    have ht : t.rd R.FC_STS = s.rd R.FC_STS :=
      (State.rd_wrN_ne (s.set F.BOOT_STS.PHASE 4) s.slotRoom (by decide)).trans (State.rd_set_ne s F.BOOT_STS.PHASE 4 (by decide))
    have hu : u.rd R.FC_STS = t.rd R.FC_STS := t.rd_boot b R.FC_STS
    rw [State.tsStatus_fcSts, State.latchedLoss_fcSts, State.seqResume_fcSts, State.rd_set_ne _ _ _ (by decide),
      State.rd_setBit_ne _ _ _ (by decide), hu, ht]
  · rfl

theorem State.dramPhase_same (s : State) : Same 1310317388042 s s.dramPhase := State.dramPhase_keeps rfl (Same.refl _ s)

/-! ### The Proctors start (R26, R548) -/

/-- Every core runs its image. -/
def State.coresStart (s : State) : State :=
  (List.range 28).foldl (fun s k => (s.set (F.CORE_STS.STATE k) 1).setBit (F.CORE_STS.IMAGE_OK k) true) s

/-- The Proctors run from a slot, the alternate one or not; phase 3. -/
def State.proctorsStart (s : State) (slot alt : Bool) : State :=
  (((s.setBit F.BOOT_STS.FW_SLOT slot).setBit F.BOOT_STS.FW_ALT alt).coresStart.set F.FC_STS.HEALTHY 15).leadShow.set
    F.BOOT_STS.PHASE 3

theorem State.coresStart_same (s : State) : Same 35184372088840 s s.coresStart :=
  same_foldl (Same.refl _ s) fun _ _ ht => State.setBit_keeps rfl (R.CORE_STS_ok rfl) (State.set_keeps rfl (R.CORE_STS_ok rfl) ht)

theorem State.coresStart_shows (s : State) (k : Nat) (hk : k < 28) :
    s.coresStart.get (F.CORE_STS.STATE k) = 1 ∧ s.coresStart.bit (F.CORE_STS.IMAGE_OK k) = true := by
  refine foldl_reaches (I := fun _ => True) (Q := fun k t => t.get (F.CORE_STS.STATE k) = 1 ∧ t.bit (F.CORE_STS.IMAGE_OK k) = true)
    (fun _ _ _ h => h) (fun t k _ _ => ?_) (fun t k j _ h => ?_) trivial k (List.mem_range.mpr hk)
  · constructor
    · rw [State.setBit, State.get_set_ne _ _ _ _ (by simp) (by simp), State.get_set_self _ _ _ (by simp), Nat.mod_eq_of_lt (by simp)]
    · exact State.bit_setBit_self _ _ _ (by simp) (by simp)
  · constructor
    · rw [State.setBit, State.get_set_ne _ _ _ _ (by simp) (by simp)]
      by_cases hoff : R.CORE_STS k = R.CORE_STS j
      · rw [show F.CORE_STS.STATE k = F.CORE_STS.STATE j from congrArg (Fld.mk · 0 2) hoff, State.get_set_self _ _ _ (by simp),
          Nat.mod_eq_of_lt (by simp)]
      · rw [State.get_set_ne _ _ _ _ (by simp) (.inl hoff), h.1]
    · refine State.setBit_keepsBit (F.CORE_STS.IMAGE_OK j) ?_ rfl rfl rfl (by simp)
      rw [State.bit_set_ne _ _ _ _ (by simp) (by simp), h.2]

/-- The lead of the Proctors shows in LEAD of FC_STS and of the core pages. -/
theorem State.leadShow_get (s : State) {f : Fld} (hfc : f.off ≠ R.FC_STS ∨ f.lo + f.width ≤ 4)
    (hcore : (∀ p, f.off ≠ R.CORE_STS p) ∨ f.lo + f.width ≤ 2 ∨ 3 ≤ f.lo) : s.leadShow.get f = s.get f := by
  unfold State.leadShow
  extract_lets t
  have ht : t.get f = s.get f := by
    unfold t
    split
    · exact State.get_set_ne s F.FC_STS.LEAD f _ (by decide) (hfc.imp_right .inl)
    · rfl
  refine (foldl_eq (fun u : State => u.get f) (fun u p => ?_) _ _).trans ht
  exact State.get_set_ne u (F.CORE_STS.LEAD (24 + p)) f _ (by simp) (hcore.imp_left (· _))

theorem State.proctorsStart_shows (s : State) (slot alt : Bool) :
    let t := s.proctorsStart slot alt
    t.get F.FC_STS.HEALTHY = 15 ∧ t.bit F.BOOT_STS.FW_SLOT = slot ∧ t.bit F.BOOT_STS.FW_ALT = alt ∧ t.get F.BOOT_STS.PHASE = 3 ∧
    ∀ k, k < 28 → t.get (F.CORE_STS.STATE k) = 1 ∧ t.bit (F.CORE_STS.IMAGE_OK k) = true := by
  intro t
  let u := (s.setBit F.BOOT_STS.FW_SLOT slot).setBit F.BOOT_STS.FW_ALT alt
  have hkeep {f : Fld} (hphase : f.off ≠ R.BOOT_STS ∨ 3 ≤ f.lo) (hfc : f.off ≠ R.FC_STS)
      (hcore : (∀ p, f.off ≠ R.CORE_STS p) ∨ f.lo + f.width ≤ 2 ∨ 3 ≤ f.lo) : t.get f = u.coresStart.get f := by
    unfold t State.proctorsStart
    rw [State.get_set_ne _ _ _ _ (by decide) (hphase.imp_right .inr), State.leadShow_get _ (.inl hfc) hcore,
      State.get_set_ne _ _ _ _ (by decide) (.inl hfc)]
  have hboot {f : Fld} (hf : bootField f) (hlo : 3 ≤ f.lo) : t.get f = u.get f :=
    (hkeep (.inr hlo) (by rw [hf.1]; decide) (.inr (.inr hlo))).trans (u.coresStart_same.bootField rfl hf)
  have hslot : u.bit F.BOOT_STS.FW_SLOT = slot := by
    rw [State.bit_setBit_ne _ _ _ _ (by decide) (by decide), State.bit_setBit_self _ _ _ (by decide) (by decide)]
  refine ⟨?_, (congrArg (· != 0) (hboot (f := F.BOOT_STS.FW_SLOT) ⟨rfl, by decide⟩ (by decide))).trans hslot,
    (congrArg (· != 0) (hboot (f := F.BOOT_STS.FW_ALT) ⟨rfl, by decide⟩ (by decide))).trans
      (State.bit_setBit_self _ _ _ (by decide) (by decide)),
    State.get_set_self _ _ _ (by decide), fun k hk => ?_⟩
  · have hcore (p : Nat) : R.FC_STS ≠ R.CORE_STS p := by unfold R.FC_STS R.CORE_STS; omega
    unfold t State.proctorsStart
    rw [State.get_set_ne _ _ _ _ (by decide) (by decide), State.leadShow_get _ (by decide) (.inl hcore),
      State.get_set_self _ _ _ (by decide)]
    rfl
  · have hfc : R.CORE_STS k ≠ R.FC_STS := by unfold R.FC_STS R.CORE_STS; omega
    have hb : R.CORE_STS k ≠ R.BOOT_STS := by unfold R.BOOT_STS R.CORE_STS; omega
    obtain ⟨hstate, himage⟩ := u.coresStart_shows k hk
    exact ⟨(hkeep (f := F.CORE_STS.STATE k) (.inl hb) hfc (.inr (.inl (by simp)))).trans hstate,
      (congrArg (· != 0) (hkeep (f := F.CORE_STS.IMAGE_OK k) (.inl hb) hfc (.inr (.inr (by simp))))).trans himage⟩

theorem State.dramPhase_keeps_proctors (s : State) (h : s.get F.BOOT_STS.PHASE = 3) :
    let t := s.dramPhase
    t.get F.FC_STS.HEALTHY = s.get F.FC_STS.HEALTHY ∧ t.bit F.BOOT_STS.FW_SLOT = s.bit F.BOOT_STS.FW_SLOT ∧
    t.bit F.BOOT_STS.FW_ALT = s.bit F.BOOT_STS.FW_ALT ∧ 3 ≤ t.get F.BOOT_STS.PHASE ∧
    ∀ k, t.get (F.CORE_STS.STATE k) = s.get (F.CORE_STS.STATE k) ∧ t.bit (F.CORE_STS.IMAGE_OK k) = s.bit (F.CORE_STS.IMAGE_OK k) := by
  have hslot {f : Fld} (hf : bootField f) (hlo : 3 ≤ f.lo) : s.dramPhase.get f = s.get f :=
    (s.dramPhase_bootField hf).elim id (·.trans (State.get_set_ne s F.BOOT_STS.PHASE f 4 (by decide) (.inr (.inr hlo))))
  have hphase : 3 ≤ s.dramPhase.get F.BOOT_STS.PHASE := by
    rcases s.dramPhase_bootField (f := F.BOOT_STS.PHASE) ⟨rfl, by decide⟩ with hp | hp
    · rw [hp, h]
    · rw [hp, State.get_set_self _ _ _ (by decide)]
      decide
  have hcore (k : Nat) : s.dramPhase.rd (R.CORE_STS k) = s.rd (R.CORE_STS k) := s.dramPhase_same.coreSts rfl k
  exact ⟨congrArg (fldOf F.FC_STS.HEALTHY) s.dramPhase_fcSts, congrArg (· != 0) (hslot (f := F.BOOT_STS.FW_SLOT) ⟨rfl, by decide⟩ (by decide)),
    congrArg (· != 0) (hslot (f := F.BOOT_STS.FW_ALT) ⟨rfl, by decide⟩ (by decide)), hphase,
    fun k => ⟨congrArg (fldOf (F.CORE_STS.STATE k)) (hcore k), congrArg (fldOf (F.CORE_STS.IMAGE_OK k) · != 0) (hcore k)⟩⟩

/-- What the start of the Proctors shows, whether DRAM was ready before it or not. -/
theorem State.proctorsStart_dramPhase_shows (s : State) (slot alt : Bool) :
    let t := (s.proctorsStart slot alt).dramPhase
    t.get F.FC_STS.HEALTHY = 15 ∧ t.bit F.BOOT_STS.FW_SLOT = slot ∧ t.bit F.BOOT_STS.FW_ALT = alt ∧ 3 ≤ t.get F.BOOT_STS.PHASE ∧
    ∀ k, k < 28 → t.get (F.CORE_STS.STATE k) = 1 ∧ t.bit (F.CORE_STS.IMAGE_OK k) = true := by
  obtain ⟨hhealthy, hslot, halt, hphase, hcores⟩ := s.proctorsStart_shows slot alt
  obtain ⟨ehealthy, eslot, ealt, hafter, ecores⟩ := (s.proctorsStart slot alt).dramPhase_keeps_proctors hphase
  exact ⟨ehealthy.trans hhealthy, eslot.trans hslot, ealt.trans halt, hafter,
    fun k hk => ⟨(ecores k).1.trans (hcores k hk).1, (ecores k).2.trans (hcores k hk).2⟩⟩

section
variable {s : State} (hup : s.coreUp = true) (hphase : s.get F.BOOT_STS.PHASE = 2) (hhalt : s.bit F.BOOT_STS.HALT = false)
include hup hphase hhalt

theorem exec_firmwareVerified_first (ok1 : Bool) :
    exec (.firmwareVerified false true ok1) s = .next (s.proctorsStart false false).dramPhase :=
  if_neg (by simp [hup, hphase, hhalt])

theorem exec_firmwareVerified_alternate : exec (.firmwareVerified false false true) s =
    .next ((s.roll (s.free 16) 0 (96 + s.lead) 0 0 0).drawn.proctorsStart true true).dramPhase :=
  if_neg (by simp [hup, hphase, hhalt])

theorem exec_firmwareVerified_none : exec (.firmwareVerified false false false) s =
    .next ((s.roll (s.free 16) 0 (96 + s.lead) 0 0 0).drawn.bootHalt 2) :=
  if_neg (by simp [hup, hphase, hhalt])

end

/-! ### Memory Active (R544, R585) -/

/-- What holds of the value of both branches holds of the value of the whole. -/
theorem forall_ite_some {c : Prop} [Decidable c] {P : Nat → Prop} {v : Nat} {e : Option Nat} (hv : P v)
    (he : ∀ o, e = some o → P o) : ∀ o, (if c then some v else e) = some o → P o := by
  intro o h
  split at h
  · exact Option.some.inj h ▸ hv
  · exact he o h

/-- No lock register stands at the offset of HP_STS or of BOOT_STS in a page. -/
theorem lockOff_elsewhere (page : Nat) : ∀ o, lockOff page = some o → o < 0x1000 ∧ o ≠ 0x108 ∧ o ≠ 0x140 := by
  unfold lockOff
  iterate 14 refine forall_ite_some (by decide) ?_
  exact fun _ h => nomatch h

theorem State.lockAll_rd (s : State) {o : Nat} (ho : o % 0x1000 = 0x108 ∨ o % 0x1000 = 0x140) : s.lockAll.rd o = s.rd o := by
  refine foldl_eq (fun t : State => t.rd o) (fun t page => ?_) _ _
  unfold State.lockPage
  split
  case h_1 lock hlock =>
    obtain ⟨hlt, hport, hboot⟩ := lockOff_elsewhere page lock hlock
    split
    · exact State.rd_setBit_ne t _ true (by dsimp only; omega)
    · rfl
  case h_2 => rfl

/-- Memory is active on every port that is present. -/
def State.portsActive (s : State) : State :=
  (List.range 8).foldl (fun s p => s.when (s.bit (F.HP_STS.PRESENT p)) (fun s => s.setBit (F.HP_STS.MEM_ACTIVE p) true)) s

/-- Phase 6, before LOCK_AT_ACTIVE. -/
def State.memoryOpened (s : State) : State :=
  let u := ({ s.set F.BOOT_STS.PHASE 6 with dom.memActive := true } : State).portsActive
  u.wrN R.BOOT_MS_ACTIVE (u.msSince u.boot.upAt)

theorem State.portsActive_same (s : State) : Same 1099511627784 s s.portsActive :=
  same_foldl (Same.refl _ s) fun _ _ ht => same_when ht fun _ hu => State.setBit_keeps rfl (R.HP_STS_ok rfl) hu

theorem State.portsActive_shows (s : State) (p : Nat) (hp : p < 8) (h : s.bit (F.HP_STS.PRESENT p) = true) :
    s.portsActive.bit (F.HP_STS.MEM_ACTIVE p) = true := by
  have hkeep {f : Fld} (t : State) (q : Nat) (hf : f.lo + f.width ≤ 14) (ht : t.bit f = true) :
      (t.when (t.bit (F.HP_STS.PRESENT q)) (fun s => s.setBit (F.HP_STS.MEM_ACTIVE q) true)).bit f = true := by
    unfold State.when
    split
    · exact (State.bit_setBit_ne t (F.HP_STS.MEM_ACTIVE q) f true (by simp) (.inr (.inl hf))).trans ht
    · exact ht
  refine foldl_reaches (I := fun t => t.bit (F.HP_STS.PRESENT p) = true)
    (Q := fun q t => q = p → t.bit (F.HP_STS.MEM_ACTIVE q) = true)
    (fun t q _ => hkeep t q (by simp)) (fun t q _ ht hq => ?_) (fun t q r _ h hq => ?_)
    h p (List.mem_range.mpr hp) rfl
  · rw [State.when, if_pos (hq ▸ ht), State.bit_setBit_self _ _ _ (by simp) (by simp)]
  · unfold State.when
    split
    · exact State.setBit_keepsBit (F.HP_STS.MEM_ACTIVE r) (h hq) rfl rfl rfl (by simp)
    · exact h hq

theorem State.memoryOpened_shows (s : State) :
    let t := s.memoryOpened
    t.dom.memActive = true ∧ t.get F.BOOT_STS.PHASE = 6 ∧ t.rt = s.rt ∧
    ∀ p, p < 8 → s.bit (F.HP_STS.PRESENT p) = true → t.bit (F.HP_STS.MEM_ACTIVE p) = true := by
  let v : State := { s.set F.BOOT_STS.PHASE 6 with dom.memActive := true }
  have hu : Same 1099511627784 v v.portsActive := v.portsActive_same
  have ht {f : Fld} (ho : f.off ≠ R.BOOT_MS_ACTIVE) : s.memoryOpened.get f = v.portsActive.get f :=
    congrArg (fldOf f) (State.rd_wrN_ne _ _ ho)
  have hdom : s.memoryOpened.dom = v.dom := (State.wrN_dom _ _ _).trans (hu.dom rfl)
  have hrt : s.memoryOpened.rt = v.rt := (State.wrN_keeps (m := 1099511627784 ||| 2 ^ 28) rfl (R.BOOT_MS_ACTIVE_ok rfl) (hu.mono rfl)).rt rfl
  have hphase : v.get F.BOOT_STS.PHASE = 6 := State.get_set_self s F.BOOT_STS.PHASE 6 (by decide)
  refine ⟨congrArg DomSt.memActive hdom, (ht (by decide)).trans ((hu.bootField rfl ⟨rfl, by decide⟩).trans hphase), hrt, fun p hp h => ?_⟩
  have hboot : R.HP_STS p ≠ R.BOOT_STS := by unfold R.HP_STS R.BOOT_STS; omega
  have hms : R.HP_STS p ≠ R.BOOT_MS_ACTIVE := by unfold R.HP_STS R.BOOT_MS_ACTIVE; omega
  have hpresent : v.bit (F.HP_STS.PRESENT p) = true :=
    (State.bit_set_ne s F.BOOT_STS.PHASE (F.HP_STS.PRESENT p) 6 (by decide) (.inl hboot)).trans h
  exact (congrArg (· != 0) (ht (f := F.HP_STS.MEM_ACTIVE p) hms)).trans (v.portsActive_shows p hp hpresent)

/-- Memory active, its locks and the slot status. -/
def State.memoryStarted (s : State) : State :=
  let u := s.memoryOpened
  (u.when u.boot.lockActive State.lockAll).tsStatus

theorem State.memoryStarted_keeps_opened (s : State) : s.memoryStarted.dom = s.memoryOpened.dom ∧
    s.memoryStarted.rt = s.memoryOpened.rt ∧
    ∀ f : Fld, f.off = R.BOOT_STS ∨ (∃ p, f.off = R.HP_STS p) → s.memoryStarted.get f = s.memoryOpened.get f := by
  let u := s.memoryOpened
  have hall : Same 562949819203592 u s.memoryStarted :=
    State.tsStatus_keeps rfl (same_when (Same.refl _ u) fun _ ht => State.lockAll_keeps rfl ht)
  refine ⟨hall.dom rfl, hall.rt rfl, fun f hf => ?_⟩
  have hlock : (u.when u.boot.lockActive State.lockAll).get f = u.get f := by
    unfold State.when
    split
    · exact congrArg (fldOf f) (u.lockAll_rd (by rcases hf with h | ⟨p, h⟩ <;> rw [h] <;> simp [R.BOOT_STS, R.HP_STS]))
    · rfl
  refine Eq.trans ?_ hlock
  rcases hf with h | ⟨p, h⟩
  · exact (State.tsStatus_same _).get (h ▸ bookReg_bootSts) (by rw [h]; rfl)
  · exact (State.tsStatus_same _).get (h ▸ bookReg_hpSts p) (by rw [h, regBlk_hpSts]; rfl)

theorem State.memoryStarted_shows (s : State) :
    let t := s.memoryStarted
    t.dom.memActive = true ∧ t.get F.BOOT_STS.PHASE = 6 ∧ t.rt = s.rt ∧
    ∀ p, p < 8 → s.bit (F.HP_STS.PRESENT p) = true → t.bit (F.HP_STS.MEM_ACTIVE p) = true := by
  obtain ⟨hdom, hrt, hget⟩ := s.memoryStarted_keeps_opened
  obtain ⟨hactive, hphase, hreqs, hports⟩ := s.memoryOpened_shows
  exact ⟨(congrArg DomSt.memActive hdom).trans hactive, (hget F.BOOT_STS.PHASE (.inl rfl)).trans hphase, hrt.trans hreqs,
    fun p hp h => (congrArg (· != 0) (hget (F.HP_STS.MEM_ACTIVE p) (.inr ⟨p, rfl⟩))).trans (hports p hp h)⟩

/-- Memory Active once every condition holds; no region has a context and no request waits. -/
theorem exec_memoryActive {s : State} (hup : s.coreUp = true) (hphase : s.get F.BOOT_STS.PHASE = 5)
    (hmap : s.bit F.TE_STS.MAP_READY = true) (hseq : s.seqNext < s.seqHw) (hrole : s.tw.decided = true)
    (hkept : s.bit F.LC_STS.KEPT = false) (hnone : s.rt.reqs = [])
    (hkeys : ∀ n, n < 16 → s.bit (F.RT_RG_CTL.EN n) = true → s.bit (F.RT_RG_CTL.CTX_EN n) = false) :
    exec .memoryActive s = .next s.memoryStarted := by
  have hall : ((List.range 16).all fun n => !s.bit (F.RT_RG_CTL.EN n) || !s.bit (F.RT_RG_CTL.CTX_EN n) ||
      (s.bit (F.CE_RG_SLOT.VALID n) && (!s.bit (F.CE_RG_SLOT.ROTATING n) || (s.keySlot (s.get ⟨R.CE_RG_SLOT n, 12, 12⟩)).st == 2))) = true := by
    refine List.all_eq_true.mpr fun n hn => ?_
    rcases hen : s.bit (F.RT_RG_CTL.EN n)
    · rfl
    · rw [hkeys n (List.mem_range.mp hn) hen]
      rfl
  obtain ⟨-, -, hrt, -⟩ := s.memoryStarted_shows
  have hpump : s.memoryStarted.pump = s.memoryStarted := State.pump_of_noReqs ((congrArg RtSt.reqs hrt).trans hnone)
  show execMemoryActive s = _
  unfold execMemoryActive
  rw [hall]
  refine (if_pos (by simp [hup, hphase, hmap, hseq, hrole, hkept])).trans ?_
  exact congrArg Host.Outcome.next hpump

/-! ### O43 -/

/-- The AUX power-on reset: every domain is out of service, the store is kept, the media too where the core domain was out
of service before it, and the rail pins are at high impedance. -/
theorem State.auxLost_shows (s : State) :
    let t := s.auxLost
    t.dom.aux = false ∧ t.dom.aon = false ∧ t.dom.coreUp = false ∧ t.dom.memActive = false ∧ t.pst.words = s.pst.words ∧
    (s.coreUp = false → t.te.media = s.te.media) ∧ ∀ k, k < 16 → Output.pin (.railEn k) none ∈ t.out := by
  have hsame := s.auxLost_same
  have hdom := hsame.dom rfl
  exact ⟨congrArg DomSt.aux hdom, congrArg DomSt.aon hdom, congrArg DomSt.coreUp hdom, congrArg DomSt.memActive hdom,
    (congrArg PstSt.words (hsame.pst rfl)).trans s.auxReset_keeps_pst,
    fun h => (congrArg TeSt.media (hsame.te rfl)).trans (State.auxReset_keeps_media h), s.auxLost_rails⟩

/-- No image can be started: start-up halts with FW in the phase in which it was. -/
theorem State.firmwareLost_shows (s : State) (hphase : s.get F.BOOT_STS.PHASE = 2) :
    let t := (s.roll (s.free 16) 0 (96 + s.lead) 0 0 0).drawn.bootHalt 2
    t.bit F.BOOT_STS.HALT = true ∧ t.get F.BOOT_STS.CAUSE = 2 ∧ t.get F.BOOT_STS.PHASE = 2 := by
  obtain ⟨hhalt, hcause, hkept⟩ := (s.roll (s.free 16) 0 (96 + s.lead) 0 0 0).drawn.bootHalt_shows (cause := 2) (by decide)
  have hroll : Same 67109388 s (s.roll (s.free 16) 0 (96 + s.lead) 0 0 0).drawn :=
    State.drawn_keeps rfl (State.roll_keeps rfl (Same.refl _ s))
  exact ⟨hhalt, hcause, hkept.trans ((hroll.bootField rfl ⟨rfl, by decide⟩).trans hphase)⟩

/-- The restart of the core domain after a release of DEV_RST_N leaves it up, with DEV_RST_N high. -/
theorem State.coreStart_released {s : State} (haon : s.dom.aon = true) (kat : Bool) :
    ((s.rstTo false).coreStart kat).boot.rstN = false ∧ ((s.rstTo false).coreStart kat).dom.coreUp = true := by
  obtain ⟨hdom, hrst⟩ := State.coreStart_of_aon (s := s.rstTo false) haon kat
  exact ⟨hrst, congrArg DomSt.coreUp hdom⟩

/-- The restart of the core domain after the register device reset leaves memory inactive. -/
theorem State.coreStart_restarted {s : State} (hup : s.coreUp = true) (haon : s.dom.aon = true) (kat : Bool) :
    ((s.coreReset 2).coreStart kat).dom.coreUp = true ∧ ((s.coreReset 2).coreStart kat).dom.memActive = false := by
  obtain ⟨-, haon', hmem, -, -⟩ := s.coreReset_left 2
  obtain ⟨hdom, -⟩ := State.coreStart_of_aon (s := s.coreReset 2) (haon'.trans haon) kat
  exact ⟨congrArg DomSt.coreUp hdom, (congrArg DomSt.memActive hdom).trans (hmem hup)⟩

/-- Settles O43: what each command of start-up and reset makes of a state that meets its conditions, by the equations of
`exec` and what the states that they name show. -/
theorem startUpAndResetCommands : Obligations.StartUpAndResetCommands := by
  unfold Obligations.StartUpAndResetCommands
  refine ⟨fun s => ⟨rfl, exec_auxFall_again, fun h => ⟨_, exec_auxFall_lost h, s.auxLost_shows⟩⟩, ?aonReady, ?configuration,
    ?firmware, ?memory, ?devRst, ?bootCtl, ?execute⟩
  case aonReady =>
    intro side cfg s haux haon
    obtain ⟨t, hexec, hdom, hboot⟩ := exec_aonReady haux haon side cfg
    exact ⟨t, hexec, congrArg DomSt.aon hdom, congrArg BootSt.side hboot, by rw [hdom]⟩
  case configuration =>
    intro a b records s hup hphase hhalt
    refine ⟨?_, fun i hi => ⟨_, exec_configurationLoaded hup hphase hhalt (imageOf_eq_some hi), s.configured_shows i records⟩⟩
    rintro rfl rfl
    obtain ⟨hhalted, hcause, hkept⟩ := s.bootHalt_shows (cause := 1) (by decide)
    exact ⟨_, exec_configurationLoaded_none hup hphase hhalt, hhalted, hcause, hkept.trans hphase⟩
  case firmware =>
    intro ok1 s hup hphase hhalt
    refine ⟨⟨_, exec_firmwareVerified_first hup hphase hhalt ok1, s.proctorsStart_dramPhase_shows false false⟩, ?_,
      ⟨_, exec_firmwareVerified_none hup hphase hhalt, s.firmwareLost_shows hphase⟩⟩
    obtain ⟨hhealthy, hslot, halt, hafter, -⟩ :=
      (s.roll (s.free 16) 0 (96 + s.lead) 0 0 0).drawn.proctorsStart_dramPhase_shows true true
    exact ⟨_, exec_firmwareVerified_alternate hup hphase hhalt, hhealthy, hslot, halt, hafter⟩
  case memory =>
    intro s hup hphase hmap hseq hrole hkept hnone hkeys
    obtain ⟨hactive, hsix, -, hports⟩ := s.memoryStarted_shows
    exact ⟨_, exec_memoryActive hup hphase hmap hseq hrole hkept hnone hkeys, hactive, hsix, hports⟩
  case devRst =>
    exact fun kat s => ⟨exec_devRstNAssert_again, exec_devRstNAssert_railsDown, exec_devRstNAssert_reset,
      fun h => exec_devRstNRelease_again h kat, fun h hrails hon hup hjtag haon =>
        ⟨_, exec_devRstNRelease_start h hrails hon hup hjtag kat, State.coreStart_released haon kat⟩⟩
  case bootCtl =>
    exact fun path v s => ⟨fun hmgr hup hon hkey hbit hreq =>
      ⟨_, exec_bootCtlReset_taken hmgr hup hon hkey hbit hreq, rfl, (s.regAcc 0).sendDown_tokenHeld 3⟩, exec_bootCtlReset_ignored⟩
  case execute =>
    intro kat s
    refine ⟨fun h => exec_registerResetExecute_unasked h kat, fun hreq hup hnone hcont => ⟨fun hrst => ?held, fun hrst hjtag haon => ?_⟩⟩
    case held =>
      obtain ⟨hdown, -⟩ := s.coreReset_left 2
      obtain ⟨hlast, hphase, -⟩ := s.coreReset_shows (kind := 2) (by decide)
      exact ⟨_, exec_registerResetExecute_held hreq hup hnone hcont kat hrst, hdown, hlast, hphase⟩
    · exact ⟨_, exec_registerResetExecute_restarts hreq hup hnone hcont kat hrst hjtag, State.coreStart_restarted hup haon kat⟩

end Sys2Proof.Machine
end

section
/-! SUPPORT. The memory model's commands: counterexamples to the statements about discards, page verifies and page waits. -/
set_option autoImplicit false
namespace Sys2Proof.Machine

/-! ### A device in service, and a query of the state that a command leaves -/

/-- Every domain ready, the manager on port 0 and the device started, with the given fields. -/
def serviceState (fields : List (Fld × Nat)) : State :=
  ([(F.HP_STS.ROLE 0, 2), (F.HP_STS.LINK_UP 0, 1), (F.BOOT_STS.PHASE, 7), (F.TE_STS.MAP_READY, 1), (F.SIR_CTL.SCRUB_EN, 1)] ++ fields).foldl
    (fun (s : State) (x : Fld × Nat) => s.set x.1 x.2) { State.reset with dom := ⟨true, true, true, true⟩ }

/-- The test of the next state after a command; false of a command that stops. -/
def State.leaves (s : State) (c : Instr) (test : State → Bool) : Bool :=
  match exec c s with
  | .next t => test t
  | _ => false

theorem State.test_of_leaves {c : Instr} {s t : State} {test : State → Bool} (hleaves : s.leaves c test = true)
    (hexec : exec c s = .next t) : test t = true := by
  simpa [State.leaves, hexec] using hleaves

/-! ### DISCARD beside an older secure discard of the region -/

/-- The secure discard 5 of region 0 has erased one of its two blocks, and the region takes secure discards. -/
def olderSecureDiscard : State :=
  { serviceState [(F.RT_RG_CTL.EN 0, 1), (⟨R.RT_RG_SIZE 0, 0, 32⟩, 1), (F.RT_RG_CTL.DISCARD 0, 1)] with
    te.discards := [⟨5, 0, 1, true, .none, some 0, true, true, true, [1], 2⟩] }

theorem discard_shows_older_percent :
    olderSecureDiscard.leaves (.discard 0 0 1) (fun t => t.get (F.RT_RG_STS.SDISC_PCT 0) == 50) = true := by decide +kernel

/-- Refutes O27: SDISC_PCT follows the oldest secure discard of the region, so a DISCARD accepted beside one that is
half done leaves the percent at 50, not at 0. -/
theorem not_contextAndDiscardCommands : ¬ Obligations.ContextAndDiscardCommands := by
  unfold Obligations.ContextAndDiscardCommands
  rintro ⟨-, -, hdiscard, -⟩
  obtain ⟨t, hexec, -, -, hpct, -⟩ := hdiscard 0 0 1 0 olderSecureDiscard (by unfold State.managerMail; decide +kernel)
    (by decide +kernel) (by decide +kernel) (by decide +kernel) (by decide +kernel) (by decide +kernel)
  have hfifty : t.get (F.RT_RG_STS.SDISC_PCT 0) = 50 := eq_of_beq (State.test_of_leaves discard_shows_older_percent hexec)
  exact absurd (hpct.symm.trans hfifty) (by decide)

/-! ### PAGE_VERIFY beside a copying page that holds no tile -/

/-- In block 0 of die 0 page 0 waits for its verify and page 7, which holds no tile, for its copies. -/
def eligibleBesideCopying : State :=
  { serviceState [] with te.blocks := [(0, { Blk.fresh with st := 1, eligible := [0], copying := [7] })] }

theorem pageVerify_settles_copying_page :
    eligibleBesideCopying.leaves (.pageVerify 0 0 0 [] []) (fun t => (t.blk 0 0).verified == [0, 7]) = true := by
  decide +kernel

/-- Refutes O13: PAGE_VERIFY settles the whole block, so page 7, whose copies are all done, becomes verified beside page 0. -/
theorem not_upkeepCommands : ¬ Obligations.UpkeepCommands := by
  unfold Obligations.UpkeepCommands
  rintro ⟨-, -, hverify, -⟩
  obtain ⟨t, hexec, hverified, -⟩ := hverify 0 0 0 eligibleBesideCopying (by decide +kernel) (by decide +kernel)
    (by decide +kernel) (by decide +kernel) (by decide +kernel)
  have hboth : (t.blk 0 0).verified = [0, 7] := eq_of_beq (State.test_of_leaves pageVerify_settles_copying_page hexec)
  have hone : setIns 0 (eligibleBesideCopying.blk 0 0).verified = [0] := by decide +kernel
  exact absurd ((hverified.trans hone).symm.trans hboth) (by decide)

/-! ### PAGE_WAIT_EXPIRY while another program carries the next number -/

/-- Slot 1 waits for die 0, sequence numbers are used up, and a copy for die 1 carries the next program's number 0. -/
def nextProgTaken : State :=
  { serviceState [(F.TE_STS.SEQ_RO, 1)] with
    te.fmt := [0], te.slots := [(1, ⟨some 0, [(0, 2)], [], none, 0, true, 0, 0, false, none⟩)],
    te.progs := [⟨0, .copy false, 1, [], 0, .gather, false, [], 0, 0, [], none⟩] }

theorem pageWaitExpiry_drops_numbered_progs :
    nextProgTaken.leaves (.pageWaitExpiry 0) (fun t => t.te.progs.all (fun p => p.id != 0)) = true := by decide +kernel

/-- Refutes O10: with sequence numbers used up, PAGE_WAIT_EXPIRY finds the older program of the same number and drops every
program of that number, the new one too. -/
theorem not_writePathAndTileStageCommands : ¬ Obligations.WritePathAndTileStageCommands := by
  unfold Obligations.WritePathAndTileStageCommands
  rintro ⟨-, -, -, -, -, hexpiry, -⟩
  obtain ⟨t, hexec, -, p, hmem, hid, -⟩ := hexpiry 0 nextProgTaken (by decide +kernel) (by decide +kernel)
  have hfew : (nextProgTaken.dueOf (0 : Fin 320)).length < 4 := by decide +kernel
  have hnext : nextProgTaken.te.nextProg = 0 := by decide +kernel
  rw [if_pos hfew] at hexec
  have hnone : t.te.progs.all (fun p => p.id != 0) = true :=
    State.test_of_leaves pageWaitExpiry_drops_numbered_progs hexec
  exact absurd (hid.trans hnext) (by simpa using List.all_eq_true.mp hnone p hmem)

end Sys2Proof.Machine
end

section
/-! SUPPORT. The region commands of the mailbox (03_read_path.md R111; 12_host_ports.md R378, R379, R388, R391, R392). -/
set_option autoImplicit false
namespace Sys2Proof.Machine

/-! ### Outputs that an operation adds -/

theorem State.emit_mem (s : State) (o : Output) : o ∈ (s.emit o).out := by simp [State.emit_out]

/-- Every output of s is one of t. -/
def OutGrows (s t : State) : Prop := s.out ⊆ t.out

theorem OutGrows.refl (s : State) : OutGrows s s := List.Subset.refl _

theorem OutGrows.trans {s t u : State} (h : OutGrows s t) (k : OutGrows t u) : OutGrows s u := List.Subset.trans h k

theorem OutGrows.of_eq {s t : State} (h : t.out = s.out) : OutGrows s t :=
  List.subset_def.mpr fun hmem => h ▸ hmem

theorem OutGrows.after {s t u : State} (k : OutGrows t u) (h : t.out = s.out) : OutGrows s u := (OutGrows.of_eq h).trans k

theorem OutGrows.replied {s t : State} (h : OutGrows s t) {p : Nat} {rc : Rc} {ext : Nat} {ws : List Nat}
    (hreplied : s.replied p rc ext ws) : t.replied p rc ext ws := h hreplied

theorem State.emit_grows (s : State) (o : Output) : OutGrows s (s.emit o) := by
  simp [OutGrows, State.emit_out]

theorem foldl_grows {α : Type} {f : State → α → State} (hf : ∀ s a, OutGrows s (f s a)) (l : List α) (s : State) :
    OutGrows s (l.foldl f s) := by
  induction l generalizing s with
  | nil => exact OutGrows.refl s
  | cons a l ih => exact (hf s a).trans (ih (f s a))

theorem State.pstAnswer_grows (s : State) : OutGrows s s.pstAnswer :=
  (foldl_grows (fun s (r : Path × Nat × Nat) => s.emit_grows (.regRead r.1 r.2.1 (sget erasedWord s.pst.words r.2.2))) _ _).after rfl

theorem State.pstCheck_out (s : State) : s.pstCheck.out = s.out :=
  (State.pstCheck_keeps (m := 4294967560) rfl (Same.refl _ s)).out rfl

theorem State.pstNextN_grows (n : Nat) (s : State) : OutGrows s (s.pstNextN n) := by
  induction n generalizing s with
  | zero => exact OutGrows.refl s
  | succ n ih =>
    unfold State.pstNextN
    cases s.pst.cur with
    | some c => exact OutGrows.refl s
    | none =>
      cases pickOp s.pst.queue with
      | none => exact (State.pstAnswer_grows _).after rfl
      | some x =>
        dsimp only
        generalize (if x.1.planned then x.1.steps else s.planJob x.1.job) = steps
        cases steps with
        | nil => exact (ih _).after rfl
        | cons step steps => exact (State.pstAnswer_grows _).after (State.pstCheck_out _)

theorem State.pstAdd_grows (s : State) (j : PstJob) : OutGrows s (s.pstAdd j) := by
  unfold State.pstAdd
  refine OutGrows.after (t := ({ s with pst.queue := s.pst.queue ++ [⟨j, [], false, false⟩] } : State).pcEvent 4 2 1) ?_ (by simp)
  dsimp only
  split
  · exact State.pstNextN_grows _ _
  · split
    · exact (State.pstNextN_grows _ _).after rfl
    · exact OutGrows.refl _

theorem Same.grows {m : Nat} {x s : State} (h : Same m x s) (hm : m.testBit 1 = false) : OutGrows x s := .of_eq (h.out hm)

/-! ### The registers of the region page -/

/-- A block-specific register of page 109 (R580). -/
def regionReg (o : Nat) : Prop := 0x6D100 ≤ o ∧ o < 0x6E000

theorem regionReg_ctl (n : Nat) : regionReg (R.RT_RG_CTL n) := by unfold regionReg R.RT_RG_CTL; omega
theorem regionReg_base (n : Nat) : regionReg (R.RT_RG_BASE n) := by unfold regionReg R.RT_RG_BASE; omega
theorem regionReg_size (n : Nat) : regionReg (R.RT_RG_SIZE n) := by unfold regionReg R.RT_RG_SIZE; omega
theorem regionReg_sts (n : Nat) : regionReg (R.RT_RG_STS n) := by unfold regionReg R.RT_RG_STS; omega
theorem regionReg_lbl0 (n : Nat) : regionReg (R.CE_RG_LBL0 n) := by unfold regionReg R.CE_RG_LBL0; omega
theorem regionReg_lbl1 (n : Nat) : regionReg (R.CE_RG_LBL1 n) := by unfold regionReg R.CE_RG_LBL1; omega
theorem regionReg_lbl2 (n : Nat) : regionReg (R.CE_RG_LBL2 n) := by unfold regionReg R.CE_RG_LBL2; omega
theorem regionReg_lbl3 (n : Nat) : regionReg (R.CE_RG_LBL3 n) := by unfold regionReg R.CE_RG_LBL3; omega

/-- The registers of the region page are those of x. -/
def State.regionPageIs (s x : State) : Prop := ∀ o, regionReg o → s.rd o = x.rd o

theorem State.regionPageIs.refl (s : State) : s.regionPageIs s := fun _ _ => rfl

theorem State.regionPageIs.trans {x y z : State} (h : z.regionPageIs y) (k : y.regionPageIs x) : z.regionPageIs x :=
  fun o ho => (h o ho).trans (k o ho)

theorem State.regionPageIs.num {s x : State} (h : s.regionPageIs x) {o : Nat} (ho : regionReg o) : s.num o = x.num o :=
  congrArg BitVec.toNat (h o ho)

theorem State.regionPageIs.get {s x : State} (h : s.regionPageIs x) {f : Fld} (ho : regionReg f.off) : s.get f = x.get f :=
  congrArg (fldOf f) (h f.off ho)

theorem State.regionPageIs.bit {s x : State} (h : s.regionPageIs x) {f : Fld} (ho : regionReg f.off) : s.bit f = x.bit f :=
  congrArg (· != 0) (h.get ho)

theorem State.regionPageIs.label {s x : State} (h : s.regionPageIs x) (n : Nat) : s.label n = x.label n := by
  simp only [State.label, h.num (regionReg_lbl0 n), h.num (regionReg_lbl1 n), h.num (regionReg_lbl2 n), h.num (regionReg_lbl3 n)]

theorem Same.regionPageIs {m : Nat} {x s : State} (h : Same m x s) (hm : m.testBit 48 = false) : s.regionPageIs x := by
  rintro o ⟨hlow, hhigh⟩
  have hbook : bookReg o = false := bookReg_of (by unfold pageOf; omega) (by unfold pageOf; omega) (by omega)
  have hblk : regBlk o = 21 := blk21 (by omega) (by omega)
  exact h.own o hbook (hblk ▸ hm)

/-! ### Answers to a port -/

theorem State.mbox_replied (s : State) {p : Nat} (hp : p < 8) (rc : Rc) (ext : Nat) (ws : List Nat) :
    (s.mbox p rc ext ws).replied p rc ext ws := by
  unfold State.mbox
  rw [if_pos hp]
  exact s.emit_mem (.mailbox p rc ext ws)

theorem State.mbox_grows (s : State) {p : Nat} (hp : p < 8) (rc : Rc) (ext : Nat) (ws : List Nat) :
    OutGrows s (s.mbox p rc ext ws) := by
  unfold State.mbox
  rw [if_pos hp]
  exact (s.emit_grows _).trans (.of_eq rfl)

/-- A command without a twin's part is answered to its port, and the turn of the commands that run one at a time ends. -/
theorem State.reply_mbox {s : State} (hcmds : s.tw.cmds = []) (p : Nat) (rc : Rc) (ext : Nat) (ws : List Nat) :
    s.reply (.mbox p) rc ext ws =
      ({ s with hp.serial := if s.hp.serial = some (.mbox p) then none else s.hp.serial } : State).mbox p rc ext ws := by
  unfold State.reply
  rw [hcmds]
  dsimp only [List.find?, State.answer]
  split <;> rfl

theorem State.reply_same (s : State) (dst : ReplyTo) (rc : Rc) (ext : Nat) (ws : List Nat) :
    Same 1099612391434 s (s.reply dst rc ext ws) := State.reply_keeps rfl (Same.refl _ s)

theorem State.reply_mbox_shows {s : State} (hcmds : s.tw.cmds = []) {p : Nat} (hp : p < 8) (rc : Rc) (ext : Nat) (ws : List Nat) :
    (s.reply (.mbox p) rc ext ws).replied p rc ext ws ∧ (s.reply (.mbox p) rc ext ws).hp.ext = s.hp.ext ∧
      (s.reply (.mbox p) rc ext ws).hp.releases = s.hp.releases ∧ (s.reply (.mbox p) rc ext ws).hp.serialQ = s.hp.serialQ ∧
      (s.reply (.mbox p) rc ext ws).regionPageIs s := by
  refine ⟨?_, ?_, ?_, ?_, (s.reply_same _ rc ext ws).regionPageIs rfl⟩
  · rw [State.reply_mbox hcmds]
    exact State.mbox_replied _ hp rc ext ws
  all_goals rw [State.reply_mbox hcmds]; simp

/-! ### A command that runs one at a time, alone -/

/-- The turn of a command that nothing else waits behind (R388). -/
def State.serTurn (s : State) (dst : ReplyTo) : State := { s with hp.serial := some dst, hp.serialQ := [] }

theorem State.serPump_nil {s : State} (hempty : s.hp.serialQ = []) : s.serPump = s := by
  unfold State.serPump
  rw [hempty]
  rfl

theorem State.serPump_single {s : State} {dst : ReplyTo} {c : SerCmd} (hidle : s.hp.serial = none)
    (hqueue : s.hp.serialQ = [(dst, c)]) (htwin : s.twinUp = false) : s.serPump = (s.serTurn dst).serDo dst c := by
  have hnotwin : ({ s with hp.serial := some dst, hp.serialQ := [] } : State).twinUp = false := htwin
  unfold State.serPump
  simp only [hqueue, List.length_cons, List.length_nil, State.serPumpN, hidle, State.serStart, hnotwin, Bool.false_and,
    Bool.false_eq_true, ↓reduceIte]
  rfl

theorem State.managerMail.hpRole {s : State} {p : Fin 8} (h : s.managerMail p) : s.get (F.HP_STS.ROLE p) = 2 := by
  obtain ⟨-, hrole⟩ := h
  rwa [State.role, if_pos p.isLt] at hrole

theorem State.serCmd_free {s : State} {p : Fin 8} (h : s.serialFree p) (c : SerCmd) :
    s.serCmd p c = (s.serTurn (.mbox p)).serDo (.mbox p) c := by
  obtain ⟨hmgr, hidle, hempty, -, htwin⟩ := h
  have hqueue : ({ s with hp.serialQ := s.hp.serialQ ++ [(ReplyTo.mbox p, c)] } : State).serPump =
      (s.serTurn (.mbox p)).serDo (.mbox p) c := State.serPump_single hidle (by simp [hempty]) htwin
  simp [State.serCmd, hmgr.1, hmgr.hpRole, hqueue]

theorem State.bgStart_shows (s : State) {p : Nat} (hp : p < 8) :
    (s.bgStart p).replied p .background 0 [] ∧ (s.bgStart p).hp = { s.hp with bg := setIns p s.hp.bg } ∧ (s.bgStart p).tw = s.tw ∧
      (s.bgStart p).ce = s.ce ∧ (s.bgStart p).regsAre s := by
  unfold State.bgStart State.leased
  rw [if_pos hp, if_pos hp]
  refine ⟨State.emit_mem _ _, by simp, by simp, by simp, ?_⟩
  exact (State.emit_book _ _).trans (State.pcEvent_book _ _ _ _)

theorem State.regsAre.regionPageIs {s x : State} (h : s.regsAre x) : s.regionPageIs x := by
  rintro o ⟨hlow, hhigh⟩
  exact h o (bookReg_of (by unfold pageOf; omega) (by unfold pageOf; omega) (by omega))

theorem State.twinUp_congr {s t : State} (hregs : t.regsAre s) (htw : t.tw = s.tw) : t.twinUp = s.twinUp := by
  have hbook : bookReg R.CAR_STS = false := rfl
  rw [State.twinUp, State.mirroring, hregs.bit (f := F.CAR_STS.PAIRED) hbook, hregs.bit (f := F.CAR_STS.FAILOVER) hbook, htw]
  rfl

theorem State.serCmdBg_free {s : State} {p : Fin 8} (h : s.serialFree p) (hbg : s.hp.bg.contains p.val = false) (c : SerCmd) :
    s.serCmdBg p c = ((s.bgStart p).serTurn (.bg p)).serDo (.bg p) c := by
  obtain ⟨hmgr, hidle, hempty, -, htwin⟩ := h
  obtain ⟨-, hhp, htw, -, hregs⟩ := s.bgStart_shows p.isLt
  have hidle : (s.bgStart p).hp.serial = none := by rw [hhp]; exact hidle
  have hqueue : ({ s.bgStart p with hp.serialQ := s.hp.serialQ ++ [(ReplyTo.bg p, c)] } : State).serPump =
      ((s.bgStart p).serTurn (.bg p)).serDo (.bg p) c :=
    State.serPump_single hidle (by simp [hempty]) ((State.twinUp_congr hregs htw).trans htwin)
  have hnone : p.val ∉ s.hp.bg := by simpa using hbg
  simp [State.serCmdBg, hmgr.1, hmgr.hpRole, hqueue, hnone]

/-! ### The stored attributes of a region -/

theorem State.get_wrN_ne (s : State) {o : Nat} (f : Fld) (v : Nat) (h : f.off ≠ o) : (s.wrN o v).get f = s.get f :=
  congrArg (fldOf f) (s.rd_wrN_ne v h)

theorem State.bit_wrN_ne (s : State) {o : Nat} (f : Fld) (v : Nat) (h : f.off ≠ o) : (s.wrN o v).bit f = s.bit f :=
  congrArg (· != 0) (s.get_wrN_ne f v h)

theorem State.num_wrN_ne (s : State) {o o' : Nat} (v : Nat) (h : o' ≠ o) : (s.wrN o v).num o' = s.num o' :=
  congrArg BitVec.toNat (s.rd_wrN_ne v h)

/-- The attributes of a region in its registers (Table 3.10). -/
def State.rgAttrs (s : State) (n : Nat) (a : RgAttr) : State :=
  let flags := ((((s.setBit (F.RT_RG_CTL.OWNER n) a.owner).setBit (F.RT_RG_CTL.NOALLOC n) a.noalloc).setBit
    (F.RT_RG_CTL.DISCARD n) a.discard).setBit (F.RT_RG_CTL.LOCK_OK n) a.lockOk).setBit (F.RT_RG_CTL.XFER n) a.xfer
  ((flags.set (F.RT_RG_CTL.PORT n) (s.attrPort a)).wrN (R.RT_RG_BASE n) a.base.toNat).wrN (R.RT_RG_SIZE n) a.size.toNat

theorem State.attrPort_lt (s : State) (a : RgAttr) : s.attrPort a < 8 := by
  unfold State.attrPort
  split <;> exact Fin.isLt _

theorem rgCtl_ne_base (n : Nat) : R.RT_RG_CTL n ≠ R.RT_RG_BASE n := by unfold R.RT_RG_CTL R.RT_RG_BASE; omega
theorem rgCtl_ne_size (n : Nat) : R.RT_RG_CTL n ≠ R.RT_RG_SIZE n := by unfold R.RT_RG_CTL R.RT_RG_SIZE; omega
theorem rgBase_ne_size (n : Nat) : R.RT_RG_BASE n ≠ R.RT_RG_SIZE n := by unfold R.RT_RG_BASE R.RT_RG_SIZE; omega

/-- The registers of region n show the attributes a. -/
structure State.showsAttrs (s : State) (n : Nat) (a : RgAttr) (port : Nat) : Prop where
  base : s.rgBase n = a.base.toNat
  size : s.rgSize n = a.size.toNat
  port : s.get (F.RT_RG_CTL.PORT n) = port
  owner : s.bit (F.RT_RG_CTL.OWNER n) = a.owner
  noalloc : s.bit (F.RT_RG_CTL.NOALLOC n) = a.noalloc
  discard : s.bit (F.RT_RG_CTL.DISCARD n) = a.discard
  lockOk : s.bit (F.RT_RG_CTL.LOCK_OK n) = a.lockOk
  xfer : s.bit (F.RT_RG_CTL.XFER n) = a.xfer

theorem State.rgAttrs_ctl (s : State) (n : Nat) (a : RgAttr) :
    (s.rgAttrs n a).get (F.RT_RG_CTL.PORT n) = s.attrPort a ∧ (s.rgAttrs n a).bit (F.RT_RG_CTL.OWNER n) = a.owner ∧
      (s.rgAttrs n a).bit (F.RT_RG_CTL.NOALLOC n) = a.noalloc ∧ (s.rgAttrs n a).bit (F.RT_RG_CTL.DISCARD n) = a.discard ∧
      (s.rgAttrs n a).bit (F.RT_RG_CTL.LOCK_OK n) = a.lockOk ∧ (s.rgAttrs n a).bit (F.RT_RG_CTL.XFER n) = a.xfer ∧
      (s.rgAttrs n a).bit (F.RT_RG_CTL.EN n) = s.bit (F.RT_RG_CTL.EN n) := by
  unfold State.rgAttrs
  simp (disch := simp [rgCtl_ne_base, rgCtl_ne_size]) only [State.bit_wrN_ne, State.get_wrN_ne, State.get_set_self,
    State.bit_set_ne, State.bit_setBit_ne, State.bit_setBit_self, and_true]
  exact Nat.mod_eq_of_lt (s.attrPort_lt a)

theorem State.rgAttrs_shows (s : State) (n : Nat) (a : RgAttr) : (s.rgAttrs n a).showsAttrs n a (s.attrPort a) := by
  obtain ⟨hport, howner, hnoalloc, hdiscard, hlock, hxfer, -⟩ := s.rgAttrs_ctl n a
  refine ⟨?base, ?size, hport, howner, hnoalloc, hdiscard, hlock, hxfer⟩
  case base =>
    have hnum : (s.rgAttrs n a).num (R.RT_RG_BASE n) = a.base.toNat :=
      (State.num_wrN_ne _ _ (rgBase_ne_size n)).trans (State.num_wrN_self _ _ (by omega))
    rw [State.rgBase, hnum, Nat.mod_eq_of_lt a.base.isLt]
  case size =>
    have hnum : (s.rgAttrs n a).num (R.RT_RG_SIZE n) = a.size.toNat := State.num_wrN_self _ _ (by omega)
    rw [State.rgSize, hnum, Nat.mod_eq_of_lt a.size.isLt]

theorem State.showsAttrs.congr {s t : State} {n port : Nat} {a : RgAttr} (h : s.showsAttrs n a port)
    (hctl : t.rd (R.RT_RG_CTL n) = s.rd (R.RT_RG_CTL n)) (hbase : t.rd (R.RT_RG_BASE n) = s.rd (R.RT_RG_BASE n))
    (hsize : t.rd (R.RT_RG_SIZE n) = s.rd (R.RT_RG_SIZE n)) : t.showsAttrs n a port := by
  have hget : ∀ lo w, t.get ⟨R.RT_RG_CTL n, lo, w⟩ = s.get ⟨R.RT_RG_CTL n, lo, w⟩ := fun lo w => congrArg (fldOf ⟨_, lo, w⟩) hctl
  have hbit : ∀ lo, t.bit ⟨R.RT_RG_CTL n, lo, 1⟩ = s.bit ⟨R.RT_RG_CTL n, lo, 1⟩ := fun lo => congrArg (· != 0) (hget lo 1)
  exact ⟨(congrArg (fun w : Word => w.toNat % 65536) hbase).trans h.base, (congrArg (fun w : Word => w.toNat % 2 ^ 17) hsize).trans h.size,
    (hget 8 3).trans h.port, (hbit 1).trans h.owner, (hbit 2).trans h.noalloc, (hbit 3).trans h.discard, (hbit 4).trans h.lockOk,
    (hbit 5).trans h.xfer⟩

theorem State.showsAttrs.page {s t : State} {n port : Nat} {a : RgAttr} (h : s.showsAttrs n a port) (hpage : t.regionPageIs s) :
    t.showsAttrs n a port :=
  h.congr (hpage _ (regionReg_ctl n)) (hpage _ (regionReg_base n)) (hpage _ (regionReg_size n))

/-! ### The label of a region -/

theorem State.rd_setLabel (s : State) (n l : Nat) {o : Nat} (ho : o < 0x6D400) : (s.setLabel n l).rd o = s.rd o := by
  have hne : ∀ b, 0x6D400 ≤ b → o ≠ b := fun b hb => by omega
  unfold State.setLabel
  rw [State.rd_wrN_ne _ _ (hne _ (by unfold R.CE_RG_LBL3; omega)), State.rd_wrN_ne _ _ (hne _ (by unfold R.CE_RG_LBL2; omega)),
    State.rd_wrN_ne _ _ (hne _ (by unfold R.CE_RG_LBL1; omega)), State.rd_wrN_ne _ _ (hne _ (by unfold R.CE_RG_LBL0; omega))]

theorem State.rd_setLabel_if (s : State) (c : Bool) (n l : Nat) {o : Nat} (ho : o < 0x6D400) :
    (if c then s.setLabel n l else s).rd o = s.rd o := by
  cases c
  · rfl
  · exact s.rd_setLabel n l ho

theorem State.num_wrN_mod (s : State) (o v : Nat) : (s.wrN o v).num o = v % 2 ^ 32 := by
  rw [State.num, State.wrN, State.rd_wr_self, BitVec.toNat_ofNat]

/-- A label of 128 bits is kept whole in its four registers (R297). -/
theorem State.label_setLabel (s : State) (n : Nat) {l : Nat} (hl : l < 2 ^ 128) : (s.setLabel n l).label n = l := by
  have h01 : R.CE_RG_LBL0 n ≠ R.CE_RG_LBL1 n := by unfold R.CE_RG_LBL0 R.CE_RG_LBL1; omega
  have h02 : R.CE_RG_LBL0 n ≠ R.CE_RG_LBL2 n := by unfold R.CE_RG_LBL0 R.CE_RG_LBL2; omega
  have h03 : R.CE_RG_LBL0 n ≠ R.CE_RG_LBL3 n := by unfold R.CE_RG_LBL0 R.CE_RG_LBL3; omega
  have h12 : R.CE_RG_LBL1 n ≠ R.CE_RG_LBL2 n := by unfold R.CE_RG_LBL1 R.CE_RG_LBL2; omega
  have h13 : R.CE_RG_LBL1 n ≠ R.CE_RG_LBL3 n := by unfold R.CE_RG_LBL1 R.CE_RG_LBL3; omega
  have h23 : R.CE_RG_LBL2 n ≠ R.CE_RG_LBL3 n := by unfold R.CE_RG_LBL2 R.CE_RG_LBL3; omega
  unfold State.label State.setLabel
  simp only [State.num_wrN_ne _ _ h01, State.num_wrN_ne _ _ h02, State.num_wrN_ne _ _ h03, State.num_wrN_ne _ _ h12,
    State.num_wrN_ne _ _ h13, State.num_wrN_ne _ _ h23, State.num_wrN_mod]
  omega

/-! ### REGION_SET and CONTEXT_SET on a disabled region -/

theorem State.regionSave_same (s : State) (n : Nat) : Same 4362076426 s (s.regionSave n) := State.regionSave_keeps rfl (Same.refl _ s)

theorem State.rotSave_same (s : State) (n rot : Nat) : Same 4362076426 s (s.rotSave n rot) := State.rotSave_keeps rfl (Same.refl _ s)

theorem State.rd_hp (s : State) (q : HpSt) (o : Nat) : ({ s with hp := q } : State).rd o = s.rd o := rfl

theorem State.rgStore_below (s : State) (n : Nat) (a : RgAttr) {o : Nat} (ho : regionReg o) (hlabel : o < 0x6D400) :
    (s.rgStore n a).rd o = (s.rgAttrs n a).rd o := by
  unfold State.rgStore
  extract_lets port other flags attrs hp stored label
  have hattrs : attrs = s.rgAttrs n a := rfl
  have hsave := fun (x : State) => (x.regionSave_same n).regionPageIs rfl o ho
  rw [hsave, State.rd_setLabel_if _ _ _ _ hlabel, ← hattrs]
  exact attrs.rd_hp _ o

theorem State.rgStore_shows (s : State) (n : Nat) (a : RgAttr) :
    (s.rgStore n a).showsAttrs n a (s.attrPort a) ∧ (s.rgStore n a).bit (F.RT_RG_CTL.EN n) = s.bit (F.RT_RG_CTL.EN n) := by
  have hctl := s.rgStore_below n a (regionReg_ctl n) (by unfold R.RT_RG_CTL; omega)
  have hbase := s.rgStore_below n a (regionReg_base n) (by unfold R.RT_RG_BASE; omega)
  have hsize := s.rgStore_below n a (regionReg_size n) (by unfold R.RT_RG_SIZE; omega)
  obtain ⟨-, -, -, -, -, -, hen⟩ := s.rgAttrs_ctl n a
  exact ⟨(s.rgAttrs_shows n a).congr hctl hbase hsize, (congrArg (fun w => fldOf (F.RT_RG_CTL.EN n) w != 0) hctl).trans hen⟩

theorem fldOf_lt (f : Fld) (w : Word) : fldOf f w < 2 ^ f.width := Nat.mod_lt _ (Nat.two_pow_pos _)

theorem State.regionSet_shows {s : State} {p : Nat} (hp : p < 8) {n : Nat} {a : RgAttr} (hcmds : s.tw.cmds = [])
    (hen : s.bit (F.RT_RG_CTL.EN n) = false) (hrole : s.get (F.HP_STS.ROLE (s.attrPort a)) ≠ 0) (hsize : a.size ≠ 0)
    (hmax : a.size.toNat ≤ 65536) (hxfer : a.xfer = false) :
    (s.regionSet (.mbox p) n a).replied p .success 0 [] ∧ (s.regionSet (.mbox p) n a).showsAttrs n a (s.attrPort a) ∧
      (s.regionSet (.mbox p) n a).bit (F.RT_RG_CTL.EN n) = false := by
  have hstore : Same 281479338819850 s (s.rgStore n a) := State.rgStore_keeps rfl (Same.refl _ s)
  obtain ⟨hreplied, -, -, -, hpage⟩ :=
    State.reply_mbox_shows (s := s.rgStore n a) (by rw [hstore.tw rfl]; exact hcmds) hp .success 0 []
  obtain ⟨hattrs, hkept⟩ := s.rgStore_shows n a
  have hsize : a.size ≠ 0#17 := hsize
  have hset : s.regionSet (.mbox p) n a = (s.rgStore n a).reply (.mbox p) .success 0 [] := by
    simp [State.regionSet, hen, hrole, hsize, hxfer, Nat.not_lt.mpr hmax]
  rw [hset]
  exact ⟨hreplied, hattrs.page hpage, (hpage.bit (regionReg_ctl n)).trans (hkept.trans hen)⟩

theorem State.contextSet_shows {s : State} {p : Nat} (hp : p < 8) {n : Nat} {en : Bool} (hn : n < 16) (hcmds : s.tw.cmds = [])
    (hen : s.bit (F.RT_RG_CTL.EN n) = false)
    (hon : en = true → s.retired = false ∧ s.bit (F.RT_RG_CTL.XFER n) = false) (epoch : BitVec 16) (tenant : BitVec 96) :
    let t := s.contextSet (.mbox p) n en epoch.toNat tenant.toNat
    t.replied p .success 0 [] ∧ t.bit (F.RT_RG_CTL.CTX_EN n) = en ∧
      t.label n = if en then s.get (F.RT_RG_CTL.PORT n) + n * 2 ^ 8 + epoch.toNat * 2 ^ 16 + tenant.toNat * 2 ^ 32 else 0 := by
  intro t
  have hport : s.get (F.RT_RG_CTL.PORT n) < 8 := fldOf_lt (F.RT_RG_CTL.PORT n) _
  generalize hlabel : (if en then s.get (F.RT_RG_CTL.PORT n) + n * 2 ^ 8 + epoch.toNat * 2 ^ 16 + tenant.toNat * 2 ^ 32 else 0) = l
  have hl : l < 2 ^ 128 := by
    have := epoch.isLt
    have := tenant.isLt
    subst hlabel
    split <;> omega
  let labelled := (s.setBit (F.RT_RG_CTL.CTX_EN n) en).setLabel n l
  have hset : t = ((labelled.regionSave n).rotSave n 0).reply (.mbox p) .success 0 [] := by
    cases en with
    | false => simp [t, labelled, State.contextSet, hen, ← hlabel]
    | true =>
      obtain ⟨hretired, hxfer⟩ := hon rfl
      simp [t, labelled, State.contextSet, hen, hretired, hxfer, ← hlabel]
  have hsaved : Same 4362076426 labelled ((labelled.regionSave n).rotSave n 0) :=
    (labelled.regionSave_same n).trans (State.rotSave_same _ n 0)
  have htw : labelled.tw = s.tw := rfl
  obtain ⟨hreplied, -, -, -, hpage⟩ := State.reply_mbox_shows (s := (labelled.regionSave n).rotSave n 0)
    (by rw [hsaved.tw rfl, htw]; exact hcmds) hp .success 0 []
  have hkept := hpage.trans (hsaved.regionPageIs rfl)
  rw [hset]
  refine ⟨hreplied, (hkept.bit (regionReg_ctl n)).trans ?_, (hkept.label n).trans (State.label_setLabel _ n hl)⟩
  have hctl : labelled.rd (R.RT_RG_CTL n) = (s.setBit (F.RT_RG_CTL.CTX_EN n) en).rd (R.RT_RG_CTL n) :=
    State.rd_setLabel _ n l (by unfold R.RT_RG_CTL; omega)
  exact (congrArg (fun w => fldOf (F.RT_RG_CTL.CTX_EN n) w != 0) hctl).trans
    (State.bit_setBit_self s (F.RT_RG_CTL.CTX_EN n) en (by simp) (by simp))

/-! ### EN of a region is set and cleared -/

/-- A Dynamic Capacity record changes the port logs and a counter of dropped records. -/
theorem State.dcRecord_shows (s : State) (n kind : Nat) :
    (∃ logs, (s.dcRecord n kind).hp = { s.hp with logs := logs }) ∧ (s.dcRecord n kind).tw = s.tw ∧
      (s.dcRecord n kind).out = s.out ∧ (s.dcRecord n kind).regionPageIs s := by
  have hsame : Same 1099511660552 s (s.dcRecord n kind) := State.dcRecord_keeps rfl (Same.refl _ s)
  refine ⟨?_, hsame.tw rfl, hsame.out rfl, hsame.regionPageIs rfl⟩
  unfold State.dcRecord State.logEvent
  split
  · exact ⟨s.hp.logs, rfl⟩
  · exact ⟨_, rfl⟩

theorem State.regionSave_shows (s : State) (n : Nat) :
    (s.regionSave n).hp = s.hp ∧ (s.regionSave n).tw = s.tw ∧ OutGrows s (s.regionSave n) ∧ (s.regionSave n).regionPageIs s := by
  have hsame := s.regionSave_same n
  refine ⟨hsame.hp rfl, hsame.tw rfl, ?_, hsame.regionPageIs rfl⟩
  unfold State.regionSave
  exact (State.pstAdd_grows _ _).after (by simp)

/-- The registers and the list of closing regions once EN is set (R53). -/
def State.rgOpened (s : State) (n : Nat) : State :=
  let s := (s.setBit (F.RT_RG_CTL.EN n) true).setBit (F.RT_RG_STS.ACCEPT n) true
  let s := { s.setBit (F.RT_RG_STS.CLOSING n) false with te.closing := s.te.closing.filter (fun (c : Nat × Nat) => c.1 != n) }
  let mine := !s.bit F.CAR_STS.PAIRED || s.get (F.RT_RG_CTL.OWNER n) == s.get F.CAR_STS.SIDE
  s.setBit ⟨R.CAR_RG_STS, n, 1⟩ mine

theorem rgCtl_ne_sts (n k : Nat) : R.RT_RG_CTL n ≠ R.RT_RG_STS k := by unfold R.RT_RG_CTL R.RT_RG_STS; omega
theorem rgCtl_ne_carRg (n : Nat) : R.RT_RG_CTL n ≠ R.CAR_RG_STS := by unfold R.RT_RG_CTL R.CAR_RG_STS; omega
theorem rgSts_ne_carRg (n : Nat) : R.RT_RG_STS n ≠ R.CAR_RG_STS := by unfold R.RT_RG_STS R.CAR_RG_STS; omega

theorem State.bit_te (s : State) (q : TeSt) (f : Fld) : ({ s with te := q } : State).bit f = s.bit f := rfl

theorem State.rgOpened_shows (s : State) {n : Nat} (hn : n < 16) :
    (s.rgOpened n).bit (F.RT_RG_CTL.EN n) = true ∧ (s.rgOpened n).bit (F.RT_RG_STS.ACCEPT n) = true ∧ (s.rgOpened n).hp = s.hp ∧
      (s.rgOpened n).tw = s.tw := by
  have hfits : n + 1 ≤ 32 := by omega
  refine ⟨?_, ?_, rfl, rfl⟩ <;> unfold State.rgOpened <;>
    simp (disch := simp [rgCtl_ne_sts, rgCtl_ne_carRg, rgSts_ne_carRg, hfits]) only [State.bit_te, State.bit_setBit_ne,
      State.bit_setBit_self]

theorem State.regionOn_eq (s : State) (n : Nat) :
    s.regionOn n = ((((s.rgOpened n).setExtent n 1).regionSave n).dcRecord n 0) := rfl

theorem State.regionOn_shows (s : State) {n : Nat} (hn : n < 16) :
    (s.regionOn n).bit (F.RT_RG_CTL.EN n) = true ∧ (s.regionOn n).bit (F.RT_RG_STS.ACCEPT n) = true ∧ (s.regionOn n).extent n = 1 ∧
      (s.regionOn n).tw = s.tw := by
  obtain ⟨hen, haccept, hhp, htw⟩ := s.rgOpened_shows hn
  obtain ⟨hshp, hstw, -, hsaved⟩ := ((s.rgOpened n).setExtent n 1).regionSave_shows n
  obtain ⟨⟨logs, hlogs⟩, hdtw, -, hrecord⟩ := (((s.rgOpened n).setExtent n 1).regionSave n).dcRecord_shows n 0
  have hpage := hrecord.trans hsaved
  rw [State.regionOn_eq]
  refine ⟨(hpage.bit (regionReg_ctl n)).trans hen, (hpage.bit (regionReg_sts n)).trans haccept, ?_, ?_⟩
  · rw [State.extent, hlogs, hshp]
    exact sget_sset_self 0 (s.rgOpened n).hp.ext n 1
  · rw [hdtw, hstw]
    exact htw

theorem State.regionEnable_shows {s : State} {p : Nat} (hp : p < 8) {n : Nat} (hn : n < 16) (hcmds : s.tw.cmds = [])
    (hen : s.bit (F.RT_RG_CTL.EN n) = false) (hsize : s.rgSize n ≠ 0) (hfree : s.rgOverlap n = false)
    (hctx : s.bit (F.RT_RG_CTL.CTX_EN n) = false) :
    let t := s.regionEnable (.mbox p) n
    t.replied p .success 0 [] ∧ t.bit (F.RT_RG_CTL.EN n) = true ∧ t.bit (F.RT_RG_STS.ACCEPT n) = true ∧ t.extent n = 1 := by
  intro t
  obtain ⟨hon, haccept, hextent, htw⟩ := s.regionOn_shows hn
  obtain ⟨hreplied, hext, -, -, hpage⟩ :=
    State.reply_mbox_shows (s := s.regionOn n) (by rw [htw]; exact hcmds) hp .success 0 []
  have henable : t = (s.regionOn n).reply (.mbox p) .success 0 [] := by
    simp [t, State.regionEnable, hen, hsize, hfree, hctx]
  rw [henable]
  exact ⟨hreplied, (hpage.bit (regionReg_ctl n)).trans hon, (hpage.bit (regionReg_sts n)).trans haccept,
    (congrArg (sget 0 · n) hext).trans hextent⟩

/-- The registers and the list of closing regions once EN goes to 0 (R54). -/
def State.rgClosing (s : State) (n : Nat) : State :=
  let slot := if s.bit (F.RT_RG_CTL.CTX_EN n) then s.num (R.CE_RG_SLOT n) % 4096 else 0
  let s := ((s.setBit (F.RT_RG_CTL.EN n) false).setBit (F.RT_RG_STS.ACCEPT n) false).setBit (F.RT_RG_STS.CLOSING n) true
  let s := { s with te.closing := s.te.closing.filter (fun (c : Nat × Nat) => c.1 != n) ++ [(n, slot)] }
  (s.setRgSlot n (s.num (R.CE_RG_SLOT n) % 4096) false).setBit ⟨R.CAR_RG_STS, n, 1⟩ false

theorem rgCtl_ne_ceSlot (n : Nat) : R.RT_RG_CTL n ≠ R.CE_RG_SLOT n := by unfold R.RT_RG_CTL R.CE_RG_SLOT; omega
theorem rgSts_ne_ceSlot (n : Nat) : R.RT_RG_STS n ≠ R.CE_RG_SLOT n := by unfold R.RT_RG_STS R.CE_RG_SLOT; omega

theorem State.rgClosing_same (s : State) (n : Nat) : Same 282024732532744 s (s.rgClosing n) := by
  unfold State.rgClosing
  exact State.setBit_keeps rfl (R.CAR_RG_STS_ok rfl) (State.setRgSlot_keeps rfl (upd_te rfl
    (State.setBit_keeps rfl (R.RT_RG_STS_ok rfl) (State.setBit_keeps rfl (R.RT_RG_STS_ok rfl)
      (State.setBit_keeps rfl (R.RT_RG_CTL_ok rfl) (Same.refl _ s))))))

theorem State.rgClosing_shows (s : State) {n : Nat} (hn : n < 16) :
    (s.rgClosing n).bit (F.RT_RG_CTL.EN n) = false ∧ (s.rgClosing n).bit (F.RT_RG_STS.ACCEPT n) = false := by
  have hfits : n + 1 ≤ 32 := by omega
  unfold State.rgClosing State.setRgSlot
  constructor <;>
    simp (disch := simp [rgCtl_ne_sts, rgCtl_ne_carRg, rgSts_ne_carRg, rgCtl_ne_ceSlot, rgSts_ne_ceSlot, hfits]) only
      [State.bit_te, State.bit_setBit_ne, State.bit_set_ne, State.bit_setBit_self]

/-- A region whose requests have completed loses its CLOSING bit only. -/
theorem State.closeRegions_shows (s : State) (n : Nat) :
    s.closeRegions.bit (F.RT_RG_CTL.EN n) = s.bit (F.RT_RG_CTL.EN n) ∧
      s.closeRegions.bit (F.RT_RG_STS.ACCEPT n) = s.bit (F.RT_RG_STS.ACCEPT n) := by
  have hdone : ∀ (t : State) (f : Fld), t.closingDone.bit f = t.bit f := fun t f => by
    have hregs : t.closingDone.regs = t.regs := (State.closingDone_keeps (m := 24576) rfl (Same.refl _ t)).regs rfl
    simp only [State.bit, State.get, State.rd, hregs]
  have hfold : ∀ (f : Fld), (∀ (t : State) k, (t.setBit (F.RT_RG_STS.CLOSING k) false).bit f = t.bit f) →
      s.closeRegions.bit f = s.bit f := fun f hf => by
    unfold State.closeRegions
    rw [hdone]
    refine foldl_eq (fun t => t.bit f) (fun t k => ?_) _ s
    split
    · exact hf t k
    · rfl
  exact ⟨hfold _ fun t k => State.bit_setBit_ne t _ _ _ (by simp) (.inl (rgCtl_ne_sts n k)),
    hfold _ fun t k => State.bit_setBit_ne t _ _ _ (by simp) (.inr (.inl (by simp)))⟩

theorem State.regionOff_eq {s : State} (hstreams : s.ce.streams = []) (n : Nat) :
    s.regionOff n =
      (((((s.rgClosing n).setExtent n 0).regionSave n).regionDue n).regionUnlock n).tsStatus.closeRegions := by
  unfold State.regionOff
  rw [hstreams]
  rfl

/-- The last steps of a disable: tiles become due, locked ways are handed to the walker, and completed regions lose CLOSING. -/
theorem State.regionEnd_shows (s : State) (n : Nat) :
    let t := ((s.regionDue n).regionUnlock n).tsStatus.closeRegions
    t.bit (F.RT_RG_CTL.EN n) = s.bit (F.RT_RG_CTL.EN n) ∧ t.bit (F.RT_RG_STS.ACCEPT n) = s.bit (F.RT_RG_STS.ACCEPT n) ∧
      t.hp = s.hp ∧ t.tw = s.tw ∧ t.out = s.out := by
  have hdue : Same 137506074632 s ((s.regionDue n).regionUnlock n).tsStatus :=
    State.tsStatus_keeps rfl (State.regionUnlock_keeps rfl (State.regionDue_keeps rfl (Same.refl _ s)))
  generalize ((s.regionDue n).regionUnlock n).tsStatus = shown at hdue ⊢
  have hclosed : Same 281474976735240 shown shown.closeRegions := State.closeRegions_keeps rfl (Same.refl _ shown)
  obtain ⟨hen, haccept⟩ := shown.closeRegions_shows n
  have hpage := hdue.regionPageIs rfl
  exact ⟨hen.trans (hpage.bit (regionReg_ctl n)), haccept.trans (hpage.bit (regionReg_sts n)), (hclosed.hp rfl).trans (hdue.hp rfl),
    (hclosed.tw rfl).trans (hdue.tw rfl), (hclosed.out rfl).trans (hdue.out rfl)⟩

theorem State.setExtent_hp (s : State) (n e : Nat) : (s.setExtent n e).hp = { s.hp with ext := sset 0 s.hp.ext n e } := rfl
theorem State.setExtent_tw (s : State) (n e : Nat) : (s.setExtent n e).tw = s.tw := rfl
theorem State.setExtent_out (s : State) (n e : Nat) : (s.setExtent n e).out = s.out := rfl
theorem State.setExtent_page (s : State) (n e : Nat) : (s.setExtent n e).regionPageIs s := fun _ _ => rfl

theorem State.regionOff_shows {s : State} (hstreams : s.ce.streams = []) {n : Nat} (hn : n < 16) :
    (s.regionOff n).bit (F.RT_RG_CTL.EN n) = false ∧ (s.regionOff n).bit (F.RT_RG_STS.ACCEPT n) = false ∧
      (s.regionOff n).hp = { s.hp with ext := sset 0 s.hp.ext n 0 } ∧ (s.regionOff n).tw = s.tw ∧ OutGrows s (s.regionOff n) := by
  have hclosing := s.rgClosing_same n
  obtain ⟨hen, haccept⟩ := s.rgClosing_shows hn
  rw [State.regionOff_eq hstreams]
  generalize s.rgClosing n = closing at hclosing hen haccept ⊢
  have hextent := closing.setExtent_page n 0
  obtain ⟨hshp, hstw, hgrows, hsaved⟩ := (closing.setExtent n 0).regionSave_shows n
  rw [State.setExtent_hp, hclosing.hp rfl] at hshp
  rw [State.setExtent_tw, hclosing.tw rfl] at hstw
  have hgrows := hgrows.after ((State.setExtent_out closing n 0).trans (hclosing.out rfl))
  have hpage := hsaved.trans hextent
  generalize (closing.setExtent n 0).regionSave n = saved at hshp hstw hgrows hpage ⊢
  obtain ⟨hkeepEn, hkeepAccept, hhp, htw, hout⟩ := saved.regionEnd_shows n
  exact ⟨hkeepEn.trans ((hpage.bit (regionReg_ctl n)).trans hen), hkeepAccept.trans ((hpage.bit (regionReg_sts n)).trans haccept),
    hhp.trans hshp, htw.trans hstw, hgrows.trans (.of_eq hout)⟩

/-! ### REGION_DISABLE -/

/-- A background command of a port ends with its answer. -/
theorem State.reply_bg_shows {s : State} (hcmds : s.tw.cmds = []) {p : Nat} (hp : p < 8) (hbg : s.hp.bg.contains p = true)
    (hmuted : s.hp.muted = []) (rc : Rc) (ext : Nat) (ws : List Nat) :
    (s.reply (.bg p) rc ext ws).replied p rc ext ws ∧ OutGrows s (s.reply (.bg p) rc ext ws) ∧
      (s.reply (.bg p) rc ext ws).hp.ext = s.hp.ext ∧ (s.reply (.bg p) rc ext ws).regionPageIs s := by
  let ended : State := { s with
    hp.serial := if s.hp.serial = some (.bg p) then none else s.hp.serial
    hp.bg := setDel p s.hp.bg
    hp.muted := setDel p s.hp.muted }
  have hreply : s.reply (.bg p) rc ext ws = ended.mbox p rc ext ws := by
    unfold State.reply
    rw [hcmds]
    dsimp only [List.find?, State.answer]
    split <;> simp only [State.bgDone, hbg, hmuted, hp, ended] <;> simp_all
  have hsame := s.reply_same (.bg p) rc ext ws
  refine ⟨?_, ?_, ?_, hsame.regionPageIs rfl⟩
  · rw [hreply]; exact ended.mbox_replied hp rc ext ws
  · rw [hreply]; exact (ended.mbox_grows hp rc ext ws).after rfl
  · rw [hreply]; simp [ended]

theorem State.disableNow_shows {s : State} (hstreams : s.ce.streams = []) {n : Nat} (hn : n < 16) :
    (s.disableNow n).bit (F.RT_RG_CTL.EN n) = false ∧ (s.disableNow n).bit (F.RT_RG_STS.ACCEPT n) = false ∧
      (s.disableNow n).extent n = 0 ∧ (s.disableNow n).hp.bg = s.hp.bg ∧ (s.disableNow n).hp.muted = s.hp.muted ∧
      (s.disableNow n).tw = s.tw ∧ OutGrows s (s.disableNow n) := by
  obtain ⟨hen, haccept, hhp, htw, hgrows⟩ := State.regionOff_shows hstreams hn
  obtain ⟨⟨logs, hlogs⟩, hdtw, hout, hpage⟩ := (s.regionOff n).dcRecord_shows n 2
  unfold State.disableNow
  refine ⟨(hpage.bit (regionReg_ctl n)).trans hen, (hpage.bit (regionReg_sts n)).trans haccept, ?_, ?_, ?_, hdtw.trans htw,
    hgrows.trans (.of_eq hout)⟩
  · rw [State.extent, hlogs, hhp]
    exact sget_sset_self 0 s.hp.ext n 0
  all_goals rw [hlogs, hhp]

/-! ### The region commands -/

theorem mem_sins {α : Type} (k : Nat) (v : α) (l : List (Nat × α)) : (k, v) ∈ sins k v l := by
  induction l with
  | nil => exact List.mem_singleton_self _
  | cons x l ih => unfold sins; split <;> simp [ih]

theorem mem_setIns (k : Nat) (l : List Nat) : k ∈ setIns k l := List.mem_map_of_mem (f := Prod.fst) (mem_sins k () _)

theorem State.serTurn_hp (s : State) (dst : ReplyTo) :
    (s.serTurn dst).hp = { s.hp with serial := some dst, serialQ := [] } := rfl
theorem State.serTurn_page (s : State) (dst : ReplyTo) : (s.serTurn dst).regionPageIs s := fun _ _ => rfl

/-- The turn of a background command: the port has its answer that the command runs. -/
theorem State.bgTurn_shows (s : State) {p : Nat} (hp : p < 8) :
    let u := (s.bgStart p).serTurn (.bg p)
    u.replied p .background 0 [] ∧ u.hp.bg.contains p = true ∧ u.hp.muted = s.hp.muted ∧ u.hp.releases = s.hp.releases ∧
      u.hp.serial = some (.bg p) ∧ u.tw = s.tw ∧ u.ce = s.ce ∧ u.regionPageIs s := by
  intro u
  obtain ⟨hstarted, hhp, htw, hce, hregs⟩ := s.bgStart_shows hp
  have hu : u.hp = { s.hp with bg := setIns p s.hp.bg, serial := some (.bg p), serialQ := [] } := by
    rw [State.serTurn_hp, hhp]
  refine ⟨hstarted, ?_, ?_, ?_, ?_, htw, hce, (State.serTurn_page _ _).trans hregs.regionPageIs⟩
  · rw [hu]
    simpa using mem_setIns p s.hp.bg
  all_goals rw [hu]

theorem State.regionDisable_waits {s : State} {n : Nat} (hen : s.bit (F.RT_RG_CTL.EN n) = true) (dst : ReplyTo) :
    let t := s.regionDisable dst n false
    OutGrows s t ∧ t.bit (F.RT_RG_CTL.EN n) = true ∧ t.hp.releases = s.hp.releases ++ [(n, dst)] ∧ t.hp.serial = s.hp.serial := by
  intro t
  obtain ⟨⟨logs, hlogs⟩, -, hout, hpage⟩ := s.dcRecord_shows n 1
  have ht : t = { s.dcRecord n 1 with hp.releases := s.hp.releases ++ [(n, dst)] } := by simp [t, State.regionDisable, hen]
  rw [ht]
  refine ⟨.of_eq hout, (hpage.bit (regionReg_ctl n)).trans hen, rfl, ?_⟩
  show (s.dcRecord n 1).hp.serial = s.hp.serial
  rw [hlogs]

theorem State.regionDisable_forced {s : State} {n : Nat} (hn : n < 16) {p : Nat} (hp : p < 8) (hcmds : s.tw.cmds = [])
    (hbg : s.hp.bg.contains p = true) (hmuted : s.hp.muted = []) (hstreams : s.ce.streams = [])
    (hen : s.bit (F.RT_RG_CTL.EN n) = true) :
    let t := s.regionDisable (.bg p) n true
    OutGrows s t ∧ t.replied p .success 0 [] ∧ t.bit (F.RT_RG_CTL.EN n) = false ∧ t.bit (F.RT_RG_STS.ACCEPT n) = false ∧
      t.extent n = 0 := by
  intro t
  obtain ⟨hoff, haccept, hextent, hkeptBg, hkeptMuted, htw, hgrows⟩ := State.disableNow_shows hstreams hn
  obtain ⟨hreplied, hanswered, hext, hpage⟩ := State.reply_bg_shows (s := s.disableNow n) (by rw [htw]; exact hcmds) hp
    (by rw [hkeptBg]; exact hbg) (hkeptMuted.trans hmuted) .success 0 []
  have ht : t = (s.disableNow n).reply (.bg p) .success 0 [] := by simp [t, State.regionDisable, hen]
  rw [ht]
  exact ⟨hgrows.trans hanswered, hreplied, (hpage.bit (regionReg_ctl n)).trans hoff, (hpage.bit (regionReg_sts n)).trans haccept,
    (congrArg (sget 0 · n) hext).trans hextent⟩

/-- A release that has not arrived in time is answered with TIMEOUT, and EN stays (R379). -/
theorem exec_regionDisableTimeout_alone {s : State} {n : Fin 16} {q : Nat} (hreleases : s.hp.releases = [(n.val, .mbox q)]) (hq : q < 8)
    (hcmds : s.tw.cmds = []) (hempty : s.hp.serialQ = []) :
    ∃ t, exec (.regionDisableTimeout n) s = .next t ∧ t.replied q .aborted Ext.TIMEOUT [] ∧ t.hp.releases = [] ∧
      t.bit (F.RT_RG_CTL.EN n) = s.bit (F.RT_RG_CTL.EN n) := by
  obtain ⟨hreplied, -, hnone, hqueue, hpage⟩ :=
    State.reply_mbox_shows (s := { s with hp.releases := [] }) hcmds hq .aborted Ext.TIMEOUT []
  refine ⟨_, ?_, hreplied, hnone, hpage.bit (regionReg_ctl n)⟩
  show execRegionDisableTimeout n s = _
  simp [execRegionDisableTimeout, hreleases, State.serPump_nil (hqueue.trans hempty)]

/-! ### The latency report -/

theorem State.rd_zero (os : List Nat) (s : State) (o : Nat) : (s.zero os).rd o = if o ∈ os then 0 else s.rd o := by
  induction os generalizing s with
  | nil => rfl
  | cons a os ih =>
    show ((s.wr a 0).zero os).rd o = _
    rw [ih]
    by_cases ho : o = a
    · subst ho; simp
    · rw [State.rd_wr_ne s _ ho]
      simp [ho]

theorem mem_regRange {o n k : Nat} (hk : k < n) : o + 4 * k ∈ regRange o n :=
  List.mem_map.mpr ⟨k, List.mem_range.mpr hk, rfl⟩

/-- A mailbox answer leaves the counters of the router. -/
theorem State.mbox_lateState (s : State) (p : Nat) (rc : Rc) (ext : Nat) (ws : List Nat) {k : Nat} (hk : k < 8) :
    (s.mbox p rc ext ws).num (R.RT_LATE_STATE + 4 * k) = s.num (R.RT_LATE_STATE + 4 * k) := by
  have hbook : bookReg (R.RT_LATE_STATE + 4 * k) = false :=
    bookReg_of (by unfold pageOf R.RT_LATE_STATE; omega) (by unfold pageOf R.RT_LATE_STATE; omega) (by unfold R.RT_LATE_STATE; omega)
  have hblk : regBlk (R.RT_LATE_STATE + 4 * k) = 16 := blk16 (by unfold R.RT_LATE_STATE; omega) (by unfold R.RT_LATE_STATE; omega)
  have hsame : Same 1099612291082 s (s.mbox p rc ext ws) := State.mbox_keeps rfl (Same.refl _ s)
  exact congrArg BitVec.toNat (hsame.own _ hbook (hblk ▸ rfl))

theorem exec_getLatencyReport_manager {p : Fin 8} {s : State} (h : s.managerMail p) (clear : Bool) :
    exec (.getLatencyReport p clear) s = .next ((s.when clear (fun s => s.zero (regRange R.RT_LATE_STATE 8 ++
      [R.RT_STRAY_CNT, R.RT_WR_DROP_STATE]))).mbox p .success 0 ((regRange R.RT_LATE_STATE 8).map s.num ++
        [s.num R.RT_STRAY_CNT, s.num R.RT_WR_DROP_STATE, s.tick.toNat, s.num R.RT_STS % 256, s.num R.RT_SPD])) := by
  obtain ⟨hmail, hrole⟩ := h
  show execGetLatencyReport p clear s = _
  simp [execGetLatencyReport, State.mgrCmd, State.done, hmail, hrole]

theorem exec_regionQuery_allowed {p : Fin 8} {n : Fin 16} {s : State} (hmail : s.mail p = true)
    (hport : s.role p = 2 ∨ (s.role p = 1 ∧ s.get (F.RT_RG_CTL.PORT n) = p.val)) :
    exec (.regionQuery p n) s = .next ((s.emit (.mailbox p .success 0 [s.num (R.RT_RG_CTL n), s.num (R.RT_RG_STS n),
      s.extent n, s.num (R.CE_RG_SLOT n), s.num (R.CE_RG_ROT_PCT n)])).bump (R.HP_MBOX_CNT p)) := by
  show execRegionQuery p n s = _
  simp [execRegionQuery, State.regionCmd, State.done, State.mbox, hmail, hport]

theorem exec_regionSet_free {p : Fin 8} {s : State} (h : s.serialFree p) (n : Fin 16) (a : RgAttr) :
    exec (.regionSet p n a) s = .next ((s.serTurn (.mbox p)).regionSet (.mbox p) n a) :=
  congrArg Host.Outcome.next (State.serCmd_free h (.regionSet n a))

theorem exec_contextSet_free {p : Fin 8} {s : State} (h : s.serialFree p) (n : Fin 16) (en : Bool) (epoch : BitVec 16)
    (tenant : BitVec 96) : exec (.contextSet p n en epoch tenant) s =
      .next ((s.serTurn (.mbox p)).contextSet (.mbox p) n en epoch.toNat tenant.toNat) :=
  congrArg Host.Outcome.next (State.serCmd_free h (.contextSet n en epoch tenant))

theorem exec_regionEnable_free {p : Fin 8} {s : State} (h : s.serialFree p) (n : Fin 16) :
    exec (.regionEnable p n) s = .next ((s.serTurn (.mbox p)).regionEnable (.mbox p) n) :=
  congrArg Host.Outcome.next (State.serCmd_free h (.enable n))

theorem exec_regionDisable_free {p : Fin 8} {s : State} (h : s.serialFree p) (hbg : s.hp.bg.contains p.val = false) (n : Fin 16) :
    exec (.regionDisable p n) s = .next (((s.bgStart p).serTurn (.bg p)).regionDisable (.bg p) n false) :=
  congrArg Host.Outcome.next (State.serCmdBg_free h hbg (.disable n false))

theorem exec_regionDisableForce_free {p : Fin 8} {s : State} (h : s.serialFree p) (hbg : s.hp.bg.contains p.val = false)
    (n : Fin 16) : exec (.regionDisableForce p n) s = .next (((s.bgStart p).serTurn (.bg p)).regionDisable (.bg p) n true) :=
  congrArg Host.Outcome.next (State.serCmdBg_free h hbg (.disable n true))

theorem State.serialFree.noTwinPart {s : State} {p : Nat} (h : s.serialFree p) : s.tw.cmds = [] := by
  obtain ⟨-, -, -, hcmds, -⟩ := h
  exact hcmds

/-- Settles O26: alone in the order of R388 each command runs at once, and its answer and effects are those of its operation. -/
theorem regionCommands : Obligations.RegionCommands := by
  unfold Obligations.RegionCommands
  refine ⟨?disabled, ?enabled, ?timeout, ?query, ?report⟩
  case disabled =>
    intro p n s hfree hen
    have hcmds := hfree.noTwinPart
    refine ⟨?set, ?context, ?noContext, ?enable⟩
    case set =>
      intro a hrole hsize hmax hxfer
      obtain ⟨hreplied, hattrs, hoff⟩ := State.regionSet_shows (s := s.serTurn (.mbox p)) p.isLt hcmds hen hrole hsize hmax hxfer
      exact ⟨_, exec_regionSet_free hfree n a, hreplied, hattrs.base, hattrs.size, hattrs.port, hattrs.owner,
        hattrs.noalloc, hattrs.discard, hattrs.lockOk, hattrs.xfer.trans hxfer, hoff⟩
    case context =>
      intro epoch tenant hretired hxfer
      obtain ⟨hreplied, hctx, hlabel⟩ := State.contextSet_shows (s := s.serTurn (.mbox p)) (en := true) p.isLt n.isLt hcmds hen
        (fun _ => ⟨hretired, hxfer⟩) epoch tenant
      exact ⟨_, exec_contextSet_free hfree n true epoch tenant, hreplied, hctx, hlabel⟩
    case noContext =>
      intro epoch tenant
      obtain ⟨hreplied, hctx, hlabel⟩ := State.contextSet_shows (s := s.serTurn (.mbox p)) (en := false) p.isLt n.isLt hcmds hen
        (fun h => absurd h (by decide)) epoch tenant
      exact ⟨_, exec_contextSet_free hfree n false epoch tenant, hreplied, hctx, hlabel⟩
    case enable =>
      intro hsize hoverlap hctx
      obtain ⟨hreplied, hon, haccept, hextent⟩ :=
        State.regionEnable_shows (s := s.serTurn (.mbox p)) p.isLt n.isLt hcmds hen hsize hoverlap hctx
      exact ⟨_, exec_regionEnable_free hfree n, hreplied, hon, haccept, hextent⟩
  case enabled =>
    intro p n s hfree hen hbg
    have hcmds := hfree.noTwinPart
    obtain ⟨hstarted, hin, hkeptMuted, hkeptReleases, hserial, htw, hce, hpage⟩ := s.bgTurn_shows p.isLt
    have hen := (hpage.bit (regionReg_ctl n)).trans hen
    rw [← htw] at hcmds
    refine ⟨?waits, ?forced⟩
    case waits =>
      obtain ⟨hgrows, hon, hreleases, hkept⟩ := State.regionDisable_waits hen (.bg p)
      rw [hkeptReleases] at hreleases
      exact ⟨_, exec_regionDisable_free hfree hbg n, hgrows.replied hstarted, hon, hreleases, hkept.trans hserial⟩
    case forced =>
      intro hmuted hstreams
      rw [← hkeptMuted] at hmuted
      rw [← hce] at hstreams
      obtain ⟨hgrows, hreplied, hoff, haccept, hextent⟩ := State.regionDisable_forced n.isLt p.isLt hcmds hin hmuted hstreams hen
      exact ⟨_, exec_regionDisableForce_free hfree hbg n, hgrows.replied hstarted, hreplied, hoff, haccept, hextent⟩
  case timeout => exact fun n q s => exec_regionDisableTimeout_alone
  case query => exact fun p n s hmail hport => ⟨_, exec_regionQuery_allowed hmail hport, rfl⟩
  case report =>
    intro p clear s hmgr
    refine ⟨_, exec_getLatencyReport_manager hmgr clear, State.mbox_replied _ p.isLt _ _ _, fun k hk => ?_⟩
    rw [State.mbox_lateState _ _ _ _ _ hk]
    cases clear with
    | false => rfl
    | true =>
      have hmem : R.RT_LATE_STATE + 4 * k ∈ regRange R.RT_LATE_STATE 8 ++ [R.RT_STRAY_CNT, R.RT_WR_DROP_STATE] :=
        List.mem_append_left _ (mem_regRange hk)
      exact congrArg BitVec.toNat ((State.rd_zero _ s _).trans (if_pos hmem))

end Sys2Proof.Machine
end

section
/-! SUPPORT. The commands of the read path and of the persistence flush (02_memory_model.md R64; 03_read_path.md R73, R87, R90, R92–R95,
R102, R129). -/
set_option autoImplicit false
namespace Sys2Proof.Machine

/-! ### A fault adds outputs only -/

theorem State.alertShow_grows (s : State) : OutGrows s s.alertShow := by
  unfold State.alertShow
  split
  · exact OutGrows.refl s
  · exact (s.emit_grows _).trans (.of_eq rfl)

theorem State.fltTake_grows (s : State) (f : Flt) (aff : Nat) : OutGrows s (s.fltTake f aff) := by
  unfold State.fltTake
  extract_lets page counted seen detailed rolled time
  have hrolled : rolled.out = s.out := by
    have hcounted : counted.out = s.out := by simp [counted]
    refine Eq.trans ?_ hcounted
    by_cases h : detailed.get F.FC_CTL.RB_MIN ≤ f.sev
    · simp [rolled, State.when, h]; rfl
    · simp [rolled, State.when, h]; rfl
  split
  · exact (State.alertShow_grows _).after hrolled
  · exact .of_eq hrolled

theorem State.fltFirstTake_out (s : State) (fs : List Flt) : (s.fltFirstTake fs).out = s.out := by
  unfold State.fltFirstTake
  split
  · rfl
  · split <;> rfl

theorem State.raiseWindow_grows (s : State) (fs : List Flt) : OutGrows s (s.raiseWindow fs) := by
  unfold State.raiseWindow
  extract_lets known wired words live after shown first
  split
  · have hwords : OutGrows s words :=
      foldl_grows (f := fun t (f : Flt) => t.fcMod f.src (fun x => { x with word := some f })) (fun _ _ => .of_eq rfl) _ _
    have hshown : OutGrows words shown := foldl_grows (fun t f => .of_eq (State.fltSts_keeps (m := 8) rfl (Same.refl _ t)|>.out rfl)) _ _
    have hfirst : OutGrows shown first := .of_eq (State.fltFirstTake_out _ _)
    exact ((hwords.trans hshown).trans hfirst).trans (foldl_grows (fun t f => t.fltTake_grows f 0) _ _)
  · exact foldl_grows (fun t f => .of_eq (by simp)) _ _

theorem State.raise_grows (s : State) (src sev kind : Nat) : OutGrows s (s.raise src sev kind) :=
  (State.raiseWindow_grows _ _).after rfl

/-! ### The answer to a read of a host -/

theorem State.countLate_grows (s : State) (rank : Nat) : OutGrows s (s.countLate rank) := by
  have hroll : ∀ c, ((s.when c (fun s => s.roll 0x0300 0 31 0 (lateReg rank % 4096) 0)).bump (lateReg rank)).out = s.out := by
    rintro (_ | _)
    · rfl
    · exact (State.roll_keeps (m := 67109384) rfl (Same.refl _ s)).out rfl
  unfold State.countLate
  dsimp only
  split
  · exact (State.raise_grows _ _ _ _).after (hroll _)
  · exact .of_eq (hroll _)

theorem State.measure_grows (s : State) (r : Req) (fwd : Bool) : OutGrows s (s.measure r fwd) := by
  unfold State.measure
  split
  · exact s.countLate_grows _
  · exact OutGrows.refl s

theorem State.creditBack_host_shows {s : State} {r : Req} {p : Fin 8} {g : Nat} (hsrc : r.src = .host p g) :
    (s.creditBack r).out = s.out ∧ (s.creditBack r).rt.reqs = s.rt.reqs := by
  unfold State.creditBack
  rw [hsrc]
  dsimp only
  split <;> exact ⟨rfl, rfl⟩

/-- The data of a read leaves for port p, counted in its bandwidth and, poisoned, in HP_POISON_RSP (Table 12.11). -/
def State.sendData (s : State) (p : Fin 8) (src : ReqFrom) (d : Line) (poison : Bool) : State :=
  let s := { s.emit (.memData src d poison) with hp.bwRd := smod 0 s.hp.bwRd p.val (fun n => n + 64) }
  if poison then s.bump (R.HP_POISON_RSP p) else s

theorem State.sendData_shows (s : State) (p : Fin 8) (src : ReqFrom) (d : Line) (poison : Bool) :
    Output.memData src d poison ∈ (s.sendData p src d poison).out ∧ (s.sendData p src d poison).rt = s.rt := by
  have hrt : (s.emit (.memData src d poison)).rt = s.rt := by simp
  cases poison with
  | false => exact ⟨s.emit_mem (.memData src d false), hrt⟩
  | true => exact ⟨s.emit_mem (.memData src d true), hrt⟩

theorem State.respond_hostRead_eq (s : State) {r : Req} {p : Fin 8} {g : Nat} (hsrc : r.src = .host p g) (hkind : r.kind = .read)
    (d : Line) (poison np : Bool) : s.respond r d poison np =
      (((s.reqDel r.id).sendData p r.src d poison).measure r (r.stage == Stage.forward)).creditBack r := by
  simp only [State.respond, State.sendData, hkind, hsrc, beq_self_eq_true, ↓reduceIte]

/-- The data of a read goes to its host, and the request is over (R64, R90). -/
theorem State.respond_hostRead_shows (s : State) {r : Req} {p : Fin 8} {g : Nat} (hsrc : r.src = .host p g) (hkind : r.kind = .read)
    (d : Line) (poison np : Bool) :
    Output.memData r.src d poison ∈ (s.respond r d poison np).out ∧
      (s.respond r d poison np).rt.reqs = s.rt.reqs.filter (fun x => x.id != r.id) := by
  rw [State.respond_hostRead_eq s hsrc hkind]
  obtain ⟨hsent, hrt⟩ := (s.reqDel r.id).sendData_shows p r.src d poison
  generalize (s.reqDel r.id).sendData p r.src d poison = sent at hsent hrt ⊢
  obtain ⟨hout, hreqs⟩ := State.creditBack_host_shows (s := sent.measure r (r.stage == Stage.forward)) hsrc
  have hmeasured : Same 8796176909838 sent (sent.measure r (r.stage == Stage.forward)) := State.measure_keeps rfl (Same.refl _ sent)
  refine ⟨?_, ?_⟩
  · rw [hout]
    exact sent.measure_grows r _ hsent
  · rw [hreqs, hmeasured.rt rfl, hrt]
    rfl

/-- A lone read is supplied: its data leaves, poisoned where the line or the tile is, and no request is left (R90). -/
theorem State.supply_hostRead_alone {s : State} {r x : Req} {p : Fin 8} {g : Nat} (hreqs : s.rt.reqs = [x]) (hid : x.id = r.id)
    (hread : x.kind = .read) (hsrc : r.src = .host p g) (hkind : r.kind = .read) (d : Line) (poison : Bool) (cls : Nat) :
    Output.memData r.src (if r.zero then 0 else d) (!r.zero && (poison || (s.entry (tileOf r.line)).ptile)) ∈
        (s.supply r d poison cls).out ∧ (s.supply r d poison cls).rt.reqs = [] := by
  have hparts : s.rt.reqs.filter (fun (x : Req) => x.stage == .joined r.id && x.kind != .read) = [] := by
    simp [hreqs, hread]
  obtain ⟨hsent, hleft⟩ := s.respond_hostRead_shows (r := { r with cls := cls }) hsrc hkind (if r.zero then 0 else d)
    (!r.zero && (poison || (s.entry (tileOf r.line)).ptile)) false
  generalize hanswered : s.respond { r with cls := cls } (if r.zero then 0 else d)
    (!r.zero && (poison || (s.entry (tileOf r.line)).ptile)) false = answered at hsent hleft
  have hone : s.supplyOne r d poison cls = answered := by
    rw [← hanswered]
    simp only [State.supplyOne, hkind]
  have hnone : answered.rt.reqs = [] := by
    rw [hleft, hreqs]
    simp [hid]
  have hjoined : answered.supplyJoined r d poison cls = answered := by simp [State.supplyJoined, hnone]
  have hsupply : s.supply r d poison cls = answered.wakeAfter r.id := by
    simp only [State.supply, hparts, hone, hkind, hjoined, List.foldl_nil]
  rw [hsupply]
  exact ⟨hsent, by simp [State.wakeAfter, hnone]⟩

/-! ### A read request is taken from a port -/

/-- A read of a port takes a credit and is counted (R73, Table 12.11). -/
def State.readTaken (s : State) (port : Fin 8) : State :=
  ((s.spend port false).bump (R.HP_RD_CNT port)).pcEvent (12 + port) 2 1

theorem State.readTaken_same (s : State) (port : Fin 8) : Same 1099578738696 s (s.readTaken port) :=
  State.pcEvent_keeps rfl (State.bump_keeps rfl (R.HP_RD_CNT_ok rfl) (State.spend_keeps rfl (Same.refl _ s)))

theorem State.readTaken_reqs (s : State) (port : Fin 8) : (s.readTaken port).rt.reqs = s.rt.reqs := by
  have hspend : ((s.spend port false).bump (R.HP_RD_CNT port)).rt.reqs = s.rt.reqs := rfl
  simpa [State.readTaken] using hspend

theorem State.spend_get (s : State) (port : Fin 8) (f : Fld)
    (hd : f.off ≠ R.HP_STS port ∨ f.lo + f.width ≤ 16 ∨ 17 ≤ f.lo) : (s.spend port false).get f = s.get f := by
  have hset : (s.setBit (F.HP_STS.GPF_HELD port) false).get f = s.get f :=
    s.get_set_ne (F.HP_STS.GPF_HELD port) f false.toNat (by simp) hd
  unfold State.spend State.grant
  generalize s.setBit (F.HP_STS.GPF_HELD port) false = cleared at hset ⊢
  exact hset

/-- Of the fields that decide what a read meets, taking the read touches GPF_HELD of HP_STS only. -/
theorem State.readTaken_bit (s : State) (port : Fin 8) {f : Fld} (hbook : bookReg f.off = false)
    (hd : f.off ≠ R.HP_STS port ∨ f.lo + f.width ≤ 16 ∨ 17 ≤ f.lo) (hcnt : f.off ≠ R.HP_RD_CNT port) :
    (s.readTaken port).bit f = s.bit f := by
  have hget : (s.readTaken port).get f = s.get f := by
    calc
      (s.readTaken port).get f = ((s.spend port false).bump (R.HP_RD_CNT port)).get f := (State.pcEvent_book _ _ _ _).get hbook
      _ = (s.spend port false).get f := State.get_wrN_ne _ f _ hcnt
      _ = s.get f := s.spend_get port f hd
  exact congrArg (· != 0) hget

/-- A bit outside the host ports. -/
theorem State.readTaken_bit_page (s : State) (port : Fin 8) {f : Fld} (hbook : bookReg f.off = false) (hpage : f.off < 0xC000) :
    (s.readTaken port).bit f = s.bit f :=
  s.readTaken_bit port hbook (.inl (by unfold R.HP_STS; omega)) (by unfold R.HP_RD_CNT; omega)

theorem State.readTaken_page (s : State) (port : Fin 8) : (s.readTaken port).regionPageIs s := (s.readTaken_same port).regionPageIs rfl

theorem State.readTaken_booting (s : State) (port : Fin 8) : (s.readTaken port).booting = s.booting := by
  have hspend : ((s.spend port false).bump (R.HP_RD_CNT port)).rd R.FC_STS = s.rd R.FC_STS := by
    refine (State.rd_wrN_ne _ _ (by unfold R.FC_STS R.HP_RD_CNT; omega)).trans ?_
    have hset := s.rd_setBit_ne (F.HP_STS.GPF_HELD port) false (show R.FC_STS ≠ R.HP_STS port by unfold R.FC_STS R.HP_STS; omega)
    unfold State.spend State.grant
    generalize s.setBit (F.HP_STS.GPF_HELD port) false = cleared at hset ⊢
    exact hset
  have hheld : (s.readTaken port).bit F.FC_STS.HELD = s.bit F.FC_STS.HELD :=
    congrArg (fun w => fldOf F.FC_STS.HELD w != 0) ((State.pcEvent_fcSts _ _ _ _).trans hspend)
  rw [State.booting, hheld, State.memActive, (s.readTaken_same port).dom rfl]
  rfl

theorem State.readTaken_fenced (s : State) (port : Fin 8) : (s.readTaken port).fenced = s.fenced :=
  s.readTaken_bit_page port (f := F.CAR_STS.FENCED) rfl (by decide)

theorem State.readTaken_ideOk (s : State) (port : Fin 8) : (s.readTaken port).ideOk port = s.ideOk port := by
  have hcfg : bookReg (R.HP_CFG port) = false :=
    bookReg_of (by unfold pageOf R.HP_CFG; omega) (by unfold pageOf R.HP_CFG; omega) (by unfold R.HP_CFG; omega)
  have hcfgSts : R.HP_CFG port ≠ R.HP_STS port := by unfold R.HP_CFG R.HP_STS; omega
  have hcfgCnt : R.HP_CFG port ≠ R.HP_RD_CNT port := by unfold R.HP_CFG R.HP_RD_CNT; omega
  have hne : R.HP_STS port ≠ R.HP_RD_CNT port := by unfold R.HP_STS R.HP_RD_CNT; omega
  unfold State.ideOk
  rw [s.readTaken_bit port (f := F.HP_CFG.IDE_REQ port) hcfg (.inl hcfgSts) hcfgCnt,
    s.readTaken_bit port (f := F.HP_STS.IDE_IO port) (bookReg_hpSts port) (.inr (.inl (by simp))) hne,
    s.readTaken_bit port (f := F.HP_STS.IDE_MEM port) (bookReg_hpSts port) (.inr (.inl (by simp))) hne]

theorem State.regionPageIs.inRegion {s x : State} (h : s.regionPageIs x) (n line : Nat) : s.inRegion n line = x.inRegion n line := by
  unfold State.inRegion State.rgFirst State.rgLines
  rw [h.num (regionReg_base n), h.num (regionReg_size n)]

theorem State.regionPageIs.regionOf {s x : State} (h : s.regionPageIs x) (line : Nat) : s.regionOf line = x.regionOf line := by
  simp only [State.regionOf, h.inRegion, fun n => h.bit (f := F.RT_RG_CTL.EN n) (regionReg_ctl n)]

theorem State.readTaken_owns (s : State) (port : Fin 8) (n : Nat) : (s.readTaken port).owns n = s.owns n := by
  have hown : (s.readTaken port).rd R.CAR_RG_STS = s.rd R.CAR_RG_STS := (s.readTaken_same port).own _ rfl rfl
  simp only [State.owns, hown, s.readTaken_bit_page port (f := F.CAR_STS.PAIRED) rfl (by decide)]

theorem State.readTaken_sealedOff (s : State) (port : Fin 8) (n : Nat) : (s.readTaken port).sealedOff n = s.sealedOff n := by
  have hlcs : (s.readTaken port).rd R.CE_STS = s.rd R.CE_STS := (s.readTaken_same port).own _ rfl rfl
  simp only [State.sealedOff, State.retired, State.get, hlcs, (s.readTaken_page port).bit (f := F.RT_RG_CTL.CTX_EN n) (regionReg_ctl n)]

theorem State.readTaken_reaches {s : State} {port : Fin 8} {line n : Nat} (h : s.reaches port line n) :
    (s.readTaken port).reaches port line n := by
  obtain ⟨hboot, hfence, hide, hregion, hport, hxfer, hown⟩ := h
  have hpage := s.readTaken_page port
  exact ⟨(s.readTaken_booting port).trans hboot, (s.readTaken_fenced port).trans hfence, (s.readTaken_ideOk port).trans hide,
    (hpage.regionOf line).trans hregion, (hpage.get (f := F.RT_RG_CTL.PORT n) (regionReg_ctl n)).trans hport,
    (hpage.bit (f := F.RT_RG_CTL.XFER n) (regionReg_ctl n)).trans hxfer, (s.readTaken_owns port n).trans hown⟩

/-! ### MEM_READ_REQUEST -/

/-- A read that the device refuses as a whole is answered at once with poison (R73). -/
theorem exec_memReadRequest_refused {s : State} {port : Fin 8} (hcredit : s.hasCredit port false = true)
    (hrefused : s.booting = true ∨ s.fenced = true) (tag : BitVec 16) (line : BitVec 38) :
    exec (.memReadRequest port tag line []) s = .next ((s.readTaken port).respond
      { (s.readTaken port).quickReq (.host port tag.toNat) line.toNat .read 0 with excs := [1] } 0 true false) := by
  show execMemReadRequest port tag line [] s = _
  have hrefused : ((s.readTaken port).booting || (s.readTaken port).fenced) = true := by
    rw [s.readTaken_booting, s.readTaken_fenced]
    simpa using hrefused
  unfold State.readTaken at hrefused ⊢
  simp only [execMemReadRequest, hcredit, State.ptrUpset, List.foldl_nil, hrefused]
  rfl

/-- A read of a region whose keys are gone is answered with poison (R295). -/
theorem exec_memReadRequest_sealed {s : State} {port : Fin 8} {line : BitVec 38} {n : Nat} (hcredit : s.hasCredit port false = true)
    (hreach : s.reaches port line.toNat n) (hsealed : s.sealedOff n = true) (tag : BitVec 16) :
    exec (.memReadRequest port tag line []) s = .next ((s.readTaken port).respond
      ((s.readTaken port).quickReq (.host port tag.toNat) line.toNat .read 0) 0 true false) := by
  obtain ⟨hboot, hfence, hide, hregion, hport, -, -⟩ := State.readTaken_reaches hreach
  rw [← s.readTaken_sealedOff port] at hsealed
  show execMemReadRequest port tag line [] s = _
  unfold State.readTaken at *
  simp [execMemReadRequest, hcredit, State.ptrUpset, hboot, hfence, hide, hregion, hport, hsealed]

/-- A read of a region that this controller serves joins the router's requests (R87). -/
theorem exec_memReadRequest_owned {s : State} {port : Fin 8} {line : BitVec 38} {n : Nat} (hcredit : s.hasCredit port false = true)
    (hreach : s.reaches port line.toNat n) (hsealed : s.sealedOff n = false) (tag : BitVec 16) :
    exec (.memReadRequest port tag line []) s = .next ((s.readTaken port).enqueue (.host port tag.toNat) line.toNat .read (some n)
      (s.readTaken port).stateExc []) := by
  obtain ⟨hboot, hfence, hide, hregion, hport, hxfer, hown⟩ := State.readTaken_reaches hreach
  rw [← s.readTaken_sealedOff port] at hsealed
  show execMemReadRequest port tag line [] s = _
  unfold State.readTaken at *
  simp [execMemReadRequest, hcredit, State.ptrUpset, hboot, hfence, hide, hregion, hport, hsealed, hxfer, hown]

/-! ### A hit in the line cache -/

theorem State.lcOn_congr {s t : State} (h : t.regsAre s) : t.lcOn = s.lcOn := by
  simp only [State.lcOn, h.bit (f := F.LC_CTL.EN) rfl, h.bit (f := F.LC_STS.CHECK_BUSY) rfl]

theorem State.lcFind_congr {s t : State} (h : t.lc = s.lc) (line : Nat) : t.lcFind line = s.lcFind line := by
  simp only [State.lcFind, State.waysOf, State.way, h]

theorem State.way_congr {s t : State} (h : t.lc = s.lc) (set w : Nat) : t.way set w = s.way set w := by
  simp only [State.way, h]

theorem State.wayLost_congr {s t : State} (h : t.lc = s.lc) (set w : Nat) : t.wayLost set w = s.wayLost set w := by
  simp only [State.wayLost, h]

/-- A look into the map cache leaves the map (R152). -/
theorem State.mapcLookup_map (s : State) (t : Nat) : (s.mapcLookup t []).2.te.map = s.te.map := by
  have htouch : ∀ u : State, (u.mapcTouch t).te.map = u.te.map := fun u => by
    unfold State.mapcTouch
    split <;> rfl
  unfold State.mapcLookup
  simp only [List.contains_nil, Bool.false_eq_true, ↓reduceIte]
  split
  · refine (htouch _).trans ?_
    generalize (s.mapcWay t).any (fun w => w.ce) = c
    cases c <;> rfl
  · rfl

/-- What a hit of a read leaves of the router and of the map: counters, map cache and replacement order change (R90). -/
def State.readHit (s : State) (line w : Nat) : State :=
  ((((s.pcItem 7).addCnt R.LC_CE_CNT (popBits 4 (s.way (lcSet line) w).ce.toNat)).bump R.LC_HIT_RD).mapcLookup (tileOf line) []).2.lcTouch
    (lcSet line) w

theorem State.readHit_shows (s : State) (line w : Nat) : (s.readHit line w).rt = s.rt ∧ (s.readHit line w).te.map = s.te.map := by
  let counted := ((s.pcItem 7).addCnt R.LC_CE_CNT (popBits 4 (s.way (lcSet line) w).ce.toNat)).bump R.LC_HIT_RD
  have hcounted : counted.rt = s.rt ∧ counted.te = s.te :=
    ⟨(State.pcItem_keeps (m := 67108872) rfl (Same.refl _ s)).rt rfl, (State.pcItem_keeps (m := 67108872) rfl (Same.refl _ s)).te rfl⟩
  have hlookup : Same 68803372558 counted (counted.mapcLookup (tileOf line) []).2 := State.mapcLookup_keeps rfl (Same.refl _ counted)
  refine ⟨(hlookup.rt rfl).trans hcounted.1, ?_⟩
  calc
    (s.readHit line w).te.map = (counted.mapcLookup (tileOf line) []).2.te.map := rfl
    _ = counted.te.map := counted.mapcLookup_map _
    _ = s.te.map := congrArg TeSt.map hcounted.2

theorem State.lookup_readHit {s : State} {r : Req} {w : Nat} (hkind : r.kind = .read) (hon : s.lcOn = true)
    (hfind : s.lcFind r.line = some w) (hkept : s.wayLost (lcSet r.line) w = false) :
    s.lookup r [] = (s.readHit r.line w).supply r (s.way (lcSet r.line) w).data (s.way (lcSet r.line) w).p 0 := by
  have hlc : (s.pcItem 7).lc = s.lc := by simp
  have hon := (State.lcOn_congr (s.pcItem_book 7)).trans hon
  have hfind := (State.lcFind_congr hlc r.line).trans hfind
  have hkept := (State.wayLost_congr hlc (lcSet r.line) w).trans hkept
  simp [State.lookup, State.tagUpsets, ueWords, hon, hfind, hkept, hkind, State.way_congr hlc, State.readHit]

/-- A lone read that hits is answered at once (R87, R90). -/
theorem State.runReq_readHit {s : State} {r : Req} {w : Nat} {p : Fin 8} {g : Nat} (hreqs : s.rt.reqs = [r]) (hstage : r.stage = .ready)
    (hsrc : r.src = .host p g) (hkind : r.kind = .read) (hzero : r.zero = false) (hon : s.lcOn = true)
    (hfind : s.lcFind r.line = some w) (hkept : s.wayLost (lcSet r.line) w = false) :
    Output.memData r.src (s.way (lcSet r.line) w).data ((s.way (lcSet r.line) w).p || (s.entry (tileOf r.line)).ptile) ∈
      (s.runReq r []).out ∧ (s.runReq r []).rt.reqs = [] := by
  obtain ⟨hrt, hmap⟩ := s.readHit_shows r.line w
  have hone : (s.readHit r.line w).rt.reqs = [r] := by rw [hrt]; exact hreqs
  have hentry : (s.readHit r.line w).entry (tileOf r.line) = s.entry (tileOf r.line) := by rw [State.entry, hmap, State.entry]
  obtain ⟨hsent, hnone⟩ := State.supply_hostRead_alone hone rfl hkind hsrc hkind (s.way (lcSet r.line) w).data
    (s.way (lcSet r.line) w).p 0
  have hrun : s.runReq r [] = (s.readHit r.line w).supply r (s.way (lcSet r.line) w).data (s.way (lcSet r.line) w).p 0 := by
    simp only [State.runReq, hstage, hkind]
    exact State.lookup_readHit hkind hon hfind hkept
  rw [hrun]
  refine ⟨?_, hnone⟩
  simpa [hzero, hentry] using hsent

/-- The request of a read as the router takes it. -/
def State.readReq (s : State) (src : ReqFrom) (line : Nat) (region : Option Nat) (excs : List Nat) : Req :=
  { Req.new s.rt.nextId src line .read .ready region s.tick.toNat 0 with excs := excs, merged := false, poison := false }

/-- The router holds this request alone. -/
def State.reqQueued (s : State) (r : Req) : State :=
  (({ s with rt.reqs := [r], rt.nextId := s.rt.nextId + 1 } : State).pcEvent 31 2 1).leased 31

theorem State.reqQueued_shows (s : State) (r : Req) :
    (s.reqQueued r).rt.reqs = [r] ∧ (s.reqQueued r).lc = s.lc ∧ (s.reqQueued r).te = s.te ∧ (s.reqQueued r).regsAre s := by
  unfold State.reqQueued
  generalize hq : ({ s with rt.reqs := [r], rt.nextId := s.rt.nextId + 1 } : State) = queued
  have hleased : Same 67108872 queued ((queued.pcEvent 31 2 1).leased 31) :=
    State.leased_keeps rfl (State.pcEvent_keeps rfl (Same.refl _ queued))
  refine ⟨?_, ?_, ?_, ((State.pcEvent_book _ _ _ _).trans (State.pcEvent_book queued 31 2 1)).trans ?_⟩
  · rw [hleased.rt rfl, ← hq]
  · rw [hleased.lc rfl, ← hq]
  · rw [hleased.te rfl, ← hq]
  · rw [← hq]
    exact fun _ _ => rfl

theorem State.enqueue_read_alone {s : State} (hreqs : s.rt.reqs = []) (p : Fin 8) (g line : Nat) (region : Option Nat) (excs : List Nat) :
    s.enqueue (.host p g) line .read region excs [] =
      ((s.reqQueued (s.readReq (.host p g) line region excs)).runReq (s.readReq (.host p g) line region excs) []).pump := by
  have horder : s.order line .read = (.ready, none) := by
    unfold State.order
    rw [hreqs]
    rfl
  unfold State.enqueue State.admitP
  rw [horder, hreqs]
  rfl

/-- A read that hits is answered at once, and no request is left (R87, R90). -/
theorem State.enqueue_readHit {s : State} {line w : Nat} (hreqs : s.rt.reqs = []) (hon : s.lcOn = true) (hfind : s.lcFind line = some w)
    (hkept : s.wayLost (lcSet line) w = false) (p : Fin 8) (g : Nat) (region : Option Nat) (excs : List Nat) :
    (s.enqueue (.host p g) line .read region excs []).rt.reqs = [] ∧
      Output.memData (.host p g) (s.way (lcSet line) w).data ((s.way (lcSet line) w).p || (s.entry (tileOf line)).ptile) ∈
        (s.enqueue (.host p g) line .read region excs []).out := by
  obtain ⟨hone, hlc, hte, hregs⟩ := s.reqQueued_shows (s.readReq (.host p g) line region excs)
  obtain ⟨hsent, hnone⟩ := State.runReq_readHit hone rfl rfl rfl rfl ((State.lcOn_congr hregs).trans hon)
    ((State.lcFind_congr hlc line).trans hfind) ((State.wayLost_congr hlc _ _).trans hkept)
  rw [State.enqueue_read_alone hreqs, State.pump_of_noReqs hnone]
  refine ⟨hnone, ?_⟩
  rw [State.way_congr hlc, State.entry, hte] at hsent
  exact hsent

/-! ### DRAM_READ_COMPLETE of a line in its slot -/

theorem State.slotLine_congr {s t : State} (hte : t.te = s.te) (hce : t.ce = s.ce) (n k : Nat) : t.slotLine n k = s.slotLine n k := by
  simp only [State.slotLine, State.xtsIn, State.keySlot, State.slot, hte, hce]

theorem State.slotMod_map (s : State) (n : Nat) (f : Slot → Slot) : (s.slotMod n f).te.map = s.te.map := rfl

/-- A lone read of a tile that is not poisoned as a whole gets clean data (R90). -/
theorem State.supply_cleanRead_alone {s : State} {r x : Req} {p : Fin 8} {g : Nat} (hreqs : s.rt.reqs = [x]) (hid : x.id = r.id)
    (hread : x.kind = .read) (hsrc : r.src = .host p g) (hkind : r.kind = .read) (hptile : (s.entry (tileOf r.line)).ptile = false)
    (d : Line) (cls : Nat) :
    Output.memData r.src (if r.zero then 0 else d) false ∈ (s.supply r d false cls).out ∧ (s.supply r d false cls).rt.reqs = [] := by
  have hsent := State.supply_hostRead_alone hreqs hid hread hsrc hkind d false cls
  rwa [hptile, Bool.false_or, Bool.and_false] at hsent

/-- A read takes its line from the slot (R92, R93). -/
theorem State.bySecond_slotRead {s : State} {r x : Req} {p : Fin 8} {g : Nat} (hreqs : s.rt.reqs = [x]) (hid : x.id = r.id)
    (hread : x.kind = .read) (hsrc : r.src = .host p g) (hkind : r.kind = .read) (hst : (s.entry (tileOf r.line)).st = 2)
    (hptile : (s.entry (tileOf r.line)).ptile = false) (hpline : (s.entry (tileOf r.line)).pline = false)
    (hline : (s.slot (s.entry (tileOf r.line)).slot).lineSt (r.line % 64) ≠ 0) :
    Output.memData r.src (if r.zero then 0 else s.slotLine (s.entry (tileOf r.line)).slot (r.line % 64)) false ∈ (s.bySecond r).out ∧
      (s.bySecond r).rt.reqs = [] := by
  generalize hd : s.slotLine (s.entry (tileOf r.line)).slot (r.line % 64) = d
  generalize hused : s.xtsUse.slotMod (s.entry (tileOf r.line)).slot (fun x => { x with lru := s.tick.toNat }) = used
  have hsame : Same 24580 s used := hused ▸ State.slotMod_keeps rfl (State.xtsUse_keeps rfl (Same.refl _ s))
  have hmap : used.te.map = s.te.map := by
    have hxts : s.xtsUse.te = s.te := (State.xtsUse_keeps (m := 16388) rfl (Same.refl _ s)).te rfl
    rw [← hused, State.slotMod_map, hxts]
  have hfill : Same 34359742472 used (used.fillFor { r with cls := 1 } d) := State.fillFor_keeps rfl (Same.refl _ used)
  have hsecond : s.bySecond r = (used.fillFor { r with cls := 1 } d).supply { r with cls := 1 } d false 1 := by
    simp [State.bySecond, hst, hptile, hpline, hline, hkind, hd, hused]
  have hentry : ((used.fillFor { r with cls := 1 } d).entry (tileOf r.line)).ptile = false := by
    rw [State.entry, hfill.te rfl, hmap]
    exact hptile
  rw [hsecond]
  exact State.supply_cleanRead_alone (r := { r with cls := 1 }) (by rw [hfill.rt rfl, hsame.rt rfl]; exact hreqs) hid hread hsrc hkind
    hentry d 1

theorem exec_dramReadComplete_slotRead {id : Nat} (ch : Fin 6) {r : Req} {s : State} (hreqs : s.rt.reqs = [r]) (hid : r.id = id)
    (hkind : r.kind = .read) (hstage : r.stage = .second) {p : Fin 8} {g : Nat} (hsrc : r.src = .host p g)
    (hst : (s.entry (tileOf r.line)).st = 2)
    (hptile : (s.entry (tileOf r.line)).ptile = false) (hpline : (s.entry (tileOf r.line)).pline = false)
    (hline : (s.slot (s.entry (tileOf r.line)).slot).lineSt (r.line % 64) ≠ 0) :
    ∃ t, exec (.dramReadComplete id ch .ok) s = .next t ∧
      Output.memData r.src (if r.zero then 0 else s.slotLine (s.entry (tileOf r.line)).slot (r.line % 64)) false ∈ t.out := by
  have hread : Same 67108872 s (s.pcItem (20 + ch)) := State.pcItem_keeps rfl (Same.refl _ s)
  have hte := hread.te rfl
  have hentry : ∀ a, (s.pcItem (20 + ch)).entry a = s.entry a := fun a => by rw [State.entry, hte, State.entry]
  have hslot : ∀ a, (s.pcItem (20 + ch)).slot a = s.slot a := fun a => by rw [State.slot, hte, State.slot]
  obtain ⟨hsent, hnone⟩ := State.bySecond_slotRead (s := s.pcItem (20 + ch)) (r := { r with stage := .ready }) (x := r)
    (by rw [hread.rt rfl]; exact hreqs) rfl hkind hsrc hkind (by rw [hentry]; exact hst) (by rw [hentry]; exact hptile)
    (by rw [hentry]; exact hpline) (by rw [hentry, hslot]; exact hline)
  have hreq : s.req id = some r := by simp [State.req, hreqs, hid]
  refine ⟨(s.pcItem (20 + ch)).bySecond { r with stage := .ready }, ?_, ?_⟩
  · show execDramReadComplete id ch .ok s = _
    have hok : s.dramRead ch .ok = s.pcItem (20 + ch) := rfl
    simp [execDramReadComplete, hreq, hstage, hok, State.pump_of_noReqs hnone]
  · rw [hentry, State.slotLine_congr hte (hread.ce rfl)] at hsent
    exact hsent

/-! ### HELD_MISS_DISPATCH -/

theorem State.bgIssue_allIssued {s : State} {d : Nat} (h : s.te.reads.all (fun m => m.loc.die != d || m.issued) = true) :
    s.bgIssue d = s := by
  have hnone : s.te.reads.filter (fun m => m.loc.die == d && !m.issued) = [] := by
    rw [List.filter_eq_nil_iff]
    intro m hm
    have hor : m.loc.die ≠ d ∨ m.issued = true := by simpa using List.all_eq_true.mp h m hm
    simpa [imp_iff_not_or] using hor
  rw [State.bgIssue, hnone]
  rfl

theorem State.suspendDie_shows (s : State) (d : Nat) :
    (s.suspendDie d).te.reads = s.te.reads ∧ (s.suspendDie d).rt = s.rt := by
  refine ⟨?_, (State.suspendDie_keeps (m := 17592253161482) rfl (Same.refl _ s)).rt rfl⟩
  unfold State.suspendDie
  split
  · show (s.emit (.media (chanOf d) Cmd.suspend [d])).te.reads = s.te.reads
    simp
  · rfl

theorem State.fillBuf_congr {s t : State} (h : t.te.reads = s.te.reads) (d : Nat) : t.fillBuf d = s.fillBuf d := by
  simp only [State.fillBuf, h]

/-- A miss takes its host slot and a fill buffer at once (R94, R96, R97). -/
theorem State.issueRead_host {s : State} {id pos : Nat} {l : Loc}
    (h : s.te.reads.all (fun m => m.loc.die != l.die || m.issued) = true) :
    (s.issueRead (.host id) l pos).te.reads =
        s.te.reads ++ [⟨s.te.nextRead, .host id, l, pos, 0, s.readKey l, true, s.fillBuf l.die⟩] ∧
      (s.issueRead (.host id) l pos).rt = s.rt := by
  generalize hm : (⟨s.te.nextRead, .host id, l, pos, 0, s.readKey l, true, s.fillBuf l.die⟩ : MRead) = m
  generalize hqueued : ({ s with te.nextRead := s.te.nextRead + 1, te.reads := s.te.reads ++ [m] } : State) = queued
  have hreads : queued.te.reads = s.te.reads ++ [m] := by rw [← hqueued]
  have hrt : queued.rt = s.rt := by rw [← hqueued]
  obtain ⟨hsusp, hsuspRt⟩ := queued.suspendDie_shows l.die
  have hsent : Same 67108874 (queued.suspendDie l.die) (((queued.suspendDie l.die).readCmd m).leased 31) :=
    State.leased_keeps rfl (State.readCmd_keeps rfl (Same.refl _ _))
  have hissued : (((queued.suspendDie l.die).readCmd m).leased 31).te.reads = s.te.reads ++ [m] := by
    rw [hsent.te rfl, hsusp, hreads]
  have hissue : s.issueRead (.host id) l pos = ((queued.suspendDie l.die).readCmd m).leased 31 := by
    have hall : (((queued.suspendDie l.die).readCmd m).leased 31).te.reads.all (fun m => m.loc.die != l.die || m.issued) = true := by
      rw [hissued, List.all_append, h]
      simp [← hm]
    have hplain : s.issueRead (.host id) l pos = (((queued.suspendDie l.die).readCmd m).leased 31).bgIssue l.die := by
      rw [← hqueued, ← hm]
      rfl
    rw [hplain, State.bgIssue_allIssued hall]
  rw [hissue]
  exact ⟨hissued, by rw [hsent.rt rfl, hsuspRt, hrt]⟩

/-- A held miss goes to its die, which has no other miss (R94, R95). -/
theorem exec_heldMissDispatch_alone {die : Fin 320} {r : Req} {l : Loc} {s : State} (hreqs : s.rt.reqs = [r])
    (hstage : r.stage = .held die.val) (hloc : (s.entry (tileOf r.line)).loc = some l) (hdie : l.die = die.val)
    (hissued : s.te.reads.all (fun m => m.loc.die != die.val || m.issued) = true) :
    ∃ t, exec (.heldMissDispatch die) s = .next t ∧ t.rt.reqs = [{ r with stage := .media die.val }] ∧
      t.bit F.RT_STS.HELD_ANY = false ∧ t.te.reads = s.te.reads ++
        [⟨s.te.nextRead, .host r.id, l, 64 * l.tip + r.line % 64, 0, s.readKey l, true, s.fillBuf die.val⟩] := by
  let r' : Req := { r with stage := .media die.val }
  generalize hmoved : s.reqMod r.id (fun x => { x with stage := .media die.val }) = moved
  have hsame : Same 2048 s moved := hmoved ▸ State.reqMod_keeps rfl (Same.refl _ s)
  have hmovedReqs : moved.rt.reqs = [r'] := by
    rw [← hmoved]
    simp [State.reqMod, hreqs, r']
  have hkey : moved.readKey l = s.readKey l := by rw [← hmoved]; rfl
  obtain ⟨hreads, hrt⟩ := State.issueRead_host (s := moved) (id := r.id) (pos := 64 * l.tip + r.line % 64) (l := l)
    (by rw [hsame.te rfl, hdie]; exact hissued)
  generalize hsent : moved.issueRead (.host r.id) l (64 * l.tip + r.line % 64) = sent at hreads hrt
  rw [hsame.te rfl, hkey, State.fillBuf_congr (congrArg TeSt.reads (hsame.te rfl)), hdie] at hreads
  have hsentReqs : sent.heldShow.rt.reqs = [r'] := by
    show sent.rt.reqs = [r']
    rw [hrt, hmovedReqs]
  have hheld : sent.heldShow.bit F.RT_STS.HELD_ANY = false := by
    unfold State.heldShow
    rw [State.bit_setBit_self _ _ _ (by decide) (by decide), hrt, hmovedReqs]
    rfl
  have hidle : sent.heldShow.resumeIdle die = sent.heldShow := by
    have hout : sent.heldShow.dieOut die = 1 := by simp [State.dieOut, hsentReqs, r']
    simp [State.resumeIdle, hout]
  have hpump : sent.heldShow.pump = sent.heldShow := by
    simp [State.pump, State.pumpN, State.nextReady, State.windowReady, hsentReqs, r']
  refine ⟨sent.heldShow, ?_, hsentReqs, hheld, hreads⟩
  have hnoMiss : s.dieOut die = 0 := by simp [State.dieOut, hreqs, hstage]
  show execHeldMissDispatch die s = _
  simp [execHeldMissDispatch, hnoMiss, hreqs, hstage, hloc, hdie, hmoved, hsent, hidle, hpump]

/-! ### The reads of the media and the control of the dies -/

/-- The line reads under way and the control of the dies. -/
def State.onMedia (s : State) : List MRead × Sparse DieCtl := (s.te.reads, s.te.dies)

theorem Same.onMedia {m : Nat} {x s : State} (h : Same m x s) (hm : m.testBit 13 = false) : s.onMedia = x.onMedia := by
  rw [State.onMedia, h.te hm, State.onMedia]

theorem State.streamFree_onMedia (s : State) (h : Nat) (f : Nat → Bool) : (s.streamFree h f).onMedia = s.onMedia := by
  unfold State.streamFree
  split
  · rfl
  · refine ((State.tsStatus_same _).onMedia rfl).trans ?_
    exact foldl_eq (f := fun t (y : Nat × Nat) => { t with te.slots := serase t.te.slots y.2 }) State.onMedia (fun _ _ => rfl) _ s

theorem State.bgDone_same (s : State) (p : Nat) (rc : Rc) (ext : Nat) (ws : List Nat) : Same 1099612323850 s (s.bgDone p rc ext ws) :=
  State.bgDone_keeps rfl (Same.refl _ s)

theorem State.roll_same (s : State) (c v r a b d : Nat) : Same 67109384 s (s.roll c v r a b d) := State.roll_keeps rfl (Same.refl _ s)

theorem State.streamEnd_onMedia (s : State) (h res : Nat) : (s.streamEnd h res).onMedia = s.onMedia := by
  unfold State.streamEnd
  split
  · rfl
  · extract_lets last freed cipher dropped shown ended
    have hrelease : ∀ u : State, (u.keyRelease h).onMedia = u.onMedia := fun u =>
      (State.keyRelease_keeps (m := 16384) rfl (Same.refl _ u)).onMedia rfl
    have hset : ∀ (u : State) f b, (u.setBit f b).onMedia = u.onMedia := fun _ _ _ => rfl
    have hfreed : freed.onMedia = s.onMedia := s.streamFree_onMedia h _
    clear_value freed
    have hdropped : dropped.onMedia = s.onMedia := hfreed
    clear_value dropped
    have hshown : shown.onMedia = s.onMedia := ((hrelease _).trans (hset _ _ _)).trans hdropped
    clear_value shown
    have hended : ended.onMedia = shown.onMedia := by
      unfold ended
      repeat' split
      · rfl
      · exact (State.bgDone_same _ _ _ _ _).onMedia rfl
      · exact (State.bgDone_same _ _ _ _ _).onMedia rfl
    split
    · exact hended.trans hshown
    · exact ((State.roll_same _ _ _ _ _ _ _).onMedia rfl).trans (hended.trans hshown)

theorem State.streamAbort_onMedia (s : State) (x : Stream) : (s.streamAbort x).onMedia = s.onMedia :=
  (State.streamEnd_onMedia _ _ _).trans ((State.chunkPacket_keeps (m := 17246978058) rfl (Same.refl _ s)).onMedia rfl)

theorem State.raise_same (s : State) (src sev kind : Nat) : Same 83887630 s (s.raise src sev kind) := State.raise_keeps rfl (Same.refl _ s)

/-- The failure of a key slot leaves the media's reads and dies (R302). -/
theorem State.slotFailed_onMedia (s : State) (n : Nat) (shadow : Bool) : (s.slotFailed n shadow).onMedia = s.onMedia := by
  have hraised := (s.raise_same 6 1 Kind.UE).onMedia rfl
  have hfree : ∀ u : State, (u.keyFree n).onMedia = u.onMedia := fun u => rfl
  unfold State.slotFailed
  extract_lets k raised
  repeat' split
  · exact hraised
  · exact ((raised.raise_same 6 3 Kind.UE).onMedia rfl).trans hraised
  · exact hraised
  · exact ((State.fixSlot_keeps (m := 16388) rfl (Same.refl _ raised)).onMedia rfl).trans hraised
  · exact (hfree _).trans ((raised.streamAbort_onMedia _).trans hraised)
  · exact (hfree _).trans hraised
  all_goals exact hraised

theorem sget_smod_self {α : Type} [DecidableEq α] (d : α) (l : Sparse α) (k : Nat) (f : α → α) :
    sget d (smod d l k f) k = f (sget d l k) := sget_sset_self d l k _

theorem State.die_dieMod (s : State) (d : Nat) (f : DieCtl → DieCtl) : (s.dieMod d f).die d = f (s.die d) :=
  sget_smod_self DieCtl.ok s.te.dies d f

/-- Resuming a die leaves the reads and the place of its step (R98). -/
theorem State.resumeIdle_shows (s : State) (d : Nat) :
    (s.resumeIdle d).te.reads = s.te.reads ∧ ((s.resumeIdle d).die d).step = (s.die d).step := by
  have hsent : Same 67108874 s (s.emit (.media (chanOf d) Cmd.resume [d])) := State.emit_keeps rfl (Same.refl _ s)
  have hend : ∀ u : State, (u.suspEnd d).te.reads = u.te.reads ∧ ((u.suspEnd d).die d).step = (u.die d).step := fun u => by
    unfold State.suspEnd
    split
    · extract_lets total ended
      have hdie : ended.die d = _ := u.die_dieMod d (fun x => { x with suspended := false, suspTot := total })
      refine ⟨rfl, ?_⟩
      show (ended.die d).step = (u.die d).step
      rw [hdie]
    · exact ⟨rfl, rfl⟩
  unfold State.resumeIdle
  split
  · obtain ⟨hreads, hstep⟩ := hend (s.emit (.media (chanOf d) Cmd.resume [d]))
    rw [hsent.te rfl] at hreads
    rw [State.die, State.die, hsent.te rfl] at hstep
    exact ⟨hreads, hstep⟩
  · exact ⟨rfl, rfl⟩

/-! ### MEDIA_LINE_RECEIVED -/

/-- The line of a read has left its die: the read is over, and the die is back at the first step of its ladder (R243). -/
def State.lineOut (s : State) (m : MRead) : State :=
  { s with te.reads := s.te.reads.filter (fun x => x.id != m.id) }.dieMod m.loc.die (fun x => { x with step := 0 })

theorem State.lineOut_onMedia (s : State) (m : MRead) : (s.lineOut m).onMedia =
    (s.te.reads.filter (fun x => x.id != m.id), smod DieCtl.ok s.te.dies m.loc.die (fun x => { x with step := 0 })) := rfl

/-- What MEDIA_LINE_RECEIVED does of a read before its line is checked. -/
def State.lineArrived (s : State) (m : MRead) (slotErr seedDue : Bool) : State :=
  let s := ((if seedDue then s.seedTake else s).pcItem 6).pcEvent (32 + chanOf m.loc.die) 3 1
  let s := (s.lineOut m).bump (match m.purpose with
    | .host _ => R.MC_RD_H_CNT (chanOf m.loc.die)
    | _ => R.MC_RD_B_CNT (chanOf m.loc.die))
  if slotErr && m.key != 0 then s.slotFailed m.key false else s

theorem exec_mediaLineReceived_found {id : Nat} {m : MRead} {s : State}
    (hfind : s.te.reads.find? (fun m => m.id == id && m.issued && s.readNext m) = some m) (err : StoredLine) (slotErr seedDue : Bool) :
    exec (.mediaLineReceived id err slotErr seedDue) s = .next
      (((((s.lineArrived m slotErr seedDue).lineKeyed m err).bgIssue m.loc.die).resumeIdle m.loc.die).pump) ∧ m.id = id := by
  have hid : m.id = id := by
    have hm := List.find?_some hfind
    simp only [Bool.and_eq_true, beq_iff_eq] at hm
    exact hm.1.1
  refine ⟨?_, hid⟩
  subst hid
  show execMediaLineReceived m.id err slotErr seedDue s = _
  unfold execMediaLineReceived
  rw [hfind]
  rfl

/-- The line of a read as the state that its arrival leaves sees it. -/
theorem State.lineArrived_shows (s : State) (m : MRead) (slotErr seedDue : Bool) :
    (s.lineArrived m slotErr seedDue).onMedia = (s.lineOut m).onMedia ∧ (s.lineArrived m slotErr seedDue).rt = s.rt := by
  have htaken : Same 17246994952 s (((if seedDue then s.seedTake else s).pcItem 6).pcEvent (32 + chanOf m.loc.die) 3 1) := by
    refine State.pcEvent_keeps rfl (State.pcItem_keeps rfl ?_)
    cases seedDue
    · exact Same.refl _ s
    · exact State.seedTake_keeps rfl (Same.refl _ s)
  unfold State.lineArrived
  generalize ((if seedDue then s.seedTake else s).pcItem 6).pcEvent (32 + chanOf m.loc.die) 3 1 = taken at htaken ⊢
  have hout : (taken.lineOut m).onMedia = (s.lineOut m).onMedia := by
    rw [State.lineOut_onMedia, State.lineOut_onMedia, htaken.te rfl]
  have hrt : (taken.lineOut m).rt = s.rt := htaken.rt rfl
  extract_lets arrived counted
  have hcounted : counted.onMedia = (taken.lineOut m).onMedia ∧ counted.rt = (taken.lineOut m).rt := ⟨rfl, rfl⟩
  split
  · have hfailed : Same 282729224660494 counted (counted.slotFailed m.key false) := State.slotFailed_keeps rfl (Same.refl _ counted)
    exact ⟨(counted.slotFailed_onMedia _ _).trans (hcounted.1.trans hout), (hfailed.rt rfl).trans (hcounted.2.trans hrt)⟩
  · exact ⟨hcounted.1.trans hout, hcounted.2.trans hrt⟩

theorem State.lineOut_step (s : State) (m : MRead) : ((s.lineOut m).die m.loc.die).step = 0 := by
  unfold State.lineOut
  rw [State.die_dieMod]

/-- The line of a read whose request is gone is dropped (R105). -/
theorem State.lineKeyed_noReqs {s : State} {m : MRead} {rid : Nat} (hpurpose : m.purpose = .host rid) (hreqs : s.rt.reqs = [])
    (err : StoredLine) : (s.lineKeyed m err).onMedia = s.onMedia ∧ (s.lineKeyed m err).rt = s.rt := by
  have htaken : ∀ u : State, u.rt.reqs = [] → u.lineTaken m err = u := fun u hu => by
    simp [State.lineTaken, hpurpose, State.req, hu]
  have hraised := s.raise_same 6 2 Kind.CHECK
  unfold State.lineKeyed
  split
  · rw [htaken s hreqs]
    exact ⟨rfl, rfl⟩
  · split
    · exact ⟨rfl, rfl⟩
    · split
      · rw [htaken _ (by rw [hraised.rt rfl]; exact hreqs)]
        exact ⟨hraised.onMedia rfl, hraised.rt rfl⟩
      · rw [htaken s hreqs]
        exact ⟨rfl, rfl⟩

theorem State.onMedia_reads {s t : State} (h : t.onMedia = s.onMedia) : t.te.reads = s.te.reads := congrArg Prod.fst h

theorem State.onMedia_die {s t : State} (h : t.onMedia = s.onMedia) (d : Nat) : t.die d = s.die d :=
  congrArg (fun x : List MRead × Sparse DieCtl => sget DieCtl.ok x.2 d) h

theorem exec_mediaLineReceived_noReqs {id rid : Nat} {m : MRead} {s : State}
    (hfind : s.te.reads.find? (fun m => m.id == id && m.issued && s.readNext m) = some m) (hpurpose : m.purpose = .host rid)
    (hreqs : s.rt.reqs = []) (hissued : s.te.reads.all (fun x => x.loc.die != m.loc.die || x.issued) = true) (err : StoredLine)
    (slotErr seedDue : Bool) :
    ∃ t, exec (.mediaLineReceived id err slotErr seedDue) s = .next t ∧ t.te.reads = s.te.reads.filter (fun x => x.id != id) ∧
      (t.die m.loc.die).step = 0 := by
  obtain ⟨hexec, rfl⟩ := exec_mediaLineReceived_found hfind err slotErr seedDue
  obtain ⟨hmedia, hrt⟩ := s.lineArrived_shows m slotErr seedDue
  generalize s.lineArrived m slotErr seedDue = arrived at hexec hmedia hrt
  obtain ⟨hkeyMedia, hkeyRt⟩ := State.lineKeyed_noReqs (s := arrived) hpurpose (by rw [hrt]; exact hreqs) err
  generalize arrived.lineKeyed m err = keyed at hexec hkeyMedia hkeyRt
  have hreads : keyed.te.reads = s.te.reads.filter (fun x => x.id != m.id) := State.onMedia_reads (hkeyMedia.trans hmedia)
  have hstep : (keyed.die m.loc.die).step = 0 := by
    rw [State.onMedia_die (hkeyMedia.trans hmedia)]
    exact s.lineOut_step m
  have hidle : keyed.bgIssue m.loc.die = keyed := by
    refine State.bgIssue_allIssued (List.all_eq_true.mpr fun x hx => ?_)
    rw [hreads] at hx
    exact List.all_eq_true.mp hissued x (List.mem_of_mem_filter hx)
  obtain ⟨hkeptReads, hkeptStep⟩ := keyed.resumeIdle_shows m.loc.die
  have hresumed : Same 17592253161482 keyed (keyed.resumeIdle m.loc.die) := State.resumeIdle_keeps rfl (Same.refl _ keyed)
  have hpump : (keyed.resumeIdle m.loc.die).pump = keyed.resumeIdle m.loc.die :=
    State.pump_of_noReqs (by rw [hresumed.rt rfl, hkeyRt, hrt]; exact hreqs)
  rw [hidle, hpump] at hexec
  exact ⟨_, hexec, hkeptReads.trans hreads, hkeptStep.trans hstep⟩

/-! ### A media line that checks -/

theorem State.regionPageIs.keyFor {s x : State} (h : s.regionPageIs x) (n seq : Nat) : s.keyFor n seq = x.keyFor n seq := by
  have hslot : regionReg (R.CE_RG_SLOT n) := by unfold regionReg R.CE_RG_SLOT; omega
  have hlow : regionReg (R.CE_RG_ROTSEQ_LO n) := by unfold regionReg R.CE_RG_ROTSEQ_LO; omega
  have hhigh : regionReg (R.CE_RG_ROTSEQ_HI n) := by unfold regionReg R.CE_RG_ROTSEQ_HI; omega
  unfold State.keyFor
  rw [h.num hslot, h.num hlow, h.num hhigh, h.bit (f := F.CE_RG_SLOT.ROTATING n) hslot]

theorem State.regionPageIs.regionAny {s x : State} (h : s.regionPageIs x) (hclosing : s.te.closing = x.te.closing) (line : Nat) :
    s.regionAny line = x.regionAny line := by
  simp only [State.regionAny, h.inRegion, hclosing, fun n => h.bit (f := F.RT_RG_CTL.EN n) (regionReg_ctl n),
    fun n => h.bit (f := F.RT_RG_STS.CLOSING n) (regionReg_sts n)]

/-- The check of a stored line asks the region page, the check of the address and the key slots (R102). -/
theorem State.checkLine_congr {s x : State} (hpage : s.regionPageIs x) (hclosing : s.te.closing = x.te.closing) (hce : s.ce = x.ce)
    {group : Nat} (hctl : s.rd (R.MG_CDC_CTL group) = x.rd (R.MG_CDC_CTL group)) (line seq pos own : Nat) (w : StoredLine) :
    s.checkLine group line seq pos own w = x.checkLine group line seq pos own w := by
  have hlchk : s.bit (F.MG_CDC_CTL.LCHK_EN group) = x.bit (F.MG_CDC_CTL.LCHK_EN group) :=
    congrArg (fun w => fldOf (F.MG_CDC_CTL.LCHK_EN group) w != 0) hctl
  have hctx : ∀ n, s.bit (F.RT_RG_CTL.CTX_EN n) = x.bit (F.RT_RG_CTL.CTX_EN n) := fun n => hpage.bit (regionReg_ctl n)
  have hslot : ∀ k, s.keySlot k = x.keySlot k := fun k => by rw [State.keySlot, hce, State.keySlot]
  have hgate : ∀ k, s.keyGate k = x.keyGate k := fun k => by rw [State.keyGate, hslot, State.keyGate]
  unfold State.checkLine
  rw [hlchk, hpage.regionAny hclosing]
  cases bchDecode w with
  | none => rfl
  | some decoded =>
    cases x.regionAny line with
    | none => rfl
    | some n =>
      dsimp only
      rw [hctx n, hpage.keyFor n seq, hslot, hgate]

/-- The line of a read comes from the media: it may fill the line cache and the slot, and its data leaves (R102, R103). -/
theorem State.releaseLine_cleanRead {s : State} {r : Req} {p : Fin 8} {g : Nat} (hreqs : s.rt.reqs = [r]) (hsrc : r.src = .host p g)
    (hkind : r.kind = .read) (hzero : r.zero = false) (hptile : (s.entry (tileOf r.line)).ptile = false) (d : Line) :
    Output.memData r.src d false ∈ (s.releaseLine r d).out ∧ (s.releaseLine r d).rt.reqs = [] := by
  have hfill : Same 34359742472 s (s.fillFor r d) := State.fillFor_keeps rfl (Same.refl _ s)
  unfold State.releaseLine
  rw [if_pos hkind]
  extract_lets filled cipher kept
  have hkept : kept.rt = s.rt ∧ kept.te = s.te := by
    unfold kept
    split <;> exact ⟨hfill.rt rfl, hfill.te rfl⟩
  clear_value kept
  have hsent := State.supply_cleanRead_alone (s := kept) (by rw [hkept.1]; exact hreqs) rfl hkind hsrc hkind
    (by rw [State.entry, hkept.2]; exact hptile) d 2
  rwa [hzero] at hsent

/-- A line that checks goes to the read that waits for it (R102, R105). -/
theorem State.lineKeyed_okRead {s : State} {m : MRead} {r : Req} {p : Fin 8} {g : Nat} {d : Line} {bits : Nat} {err : StoredLine}
    (hpurpose : m.purpose = .host r.id) (hreqs : s.rt.reqs = [r]) (hsrc : r.src = .host p g) (hkind : r.kind = .read)
    (hzero : r.zero = false) (hptile : (s.entry (tileOf r.line)).ptile = false) (hretry : m.retry = 0)
    (hkey : m.key = 0 ∨ s.keyGate m.key = 0)
    (hcheck : s.checkLine (groupOf m.loc.die) r.line (s.pageSeq m.loc) m.pos m.key (s.rawLine m err) = .ok d bits) :
    Output.memData r.src d false ∈ (s.lineKeyed m err).out ∧ (s.lineKeyed m err).rt.reqs = [] := by
  have hkeyed : s.lineKeyed m err = s.lineTaken m err := by
    rcases hkey with hkey | hkey <;> simp [State.lineKeyed, hkey]
  have htaken : s.lineTaken m err = s.lineHost m r.id r err := by
    simp [State.lineTaken, hpurpose, State.req, hreqs]
  let used := s.lineKeyUse r.line (s.pageSeq m.loc) m.key
  have hused : Same 4398114684940 s (used.codecOk (chanOf m.loc.die) bits m.retry) :=
    State.codecOk_keeps rfl (State.lineKeyUse_keeps rfl (Same.refl _ s))
  have hhost : s.lineHost m r.id r err = (used.codecOk (chanOf m.loc.die) bits m.retry).releaseLine r d := by
    unfold State.lineHost
    dsimp only
    rw [hcheck]
    exact if_pos hretry
  rw [hkeyed, htaken, hhost]
  exact State.releaseLine_cleanRead (by rw [hused.rt rfl]; exact hreqs) hsrc hkind hzero
    (by rw [State.entry, hused.te rfl]; exact hptile) d

theorem OutGrows.ite {s t u : State} {c : Prop} [Decidable c] (ht : OutGrows s t) (hu : OutGrows s u) :
    OutGrows s (if c then t else u) := by
  split
  · exact ht
  · exact hu

theorem State.suspendDie_grows (s : State) (d : Nat) : OutGrows s (s.suspendDie d) :=
  .ite ((s.emit_grows (.media (chanOf d) Cmd.suspend [d])).trans (.of_eq rfl)) (.refl s)

theorem State.readIssued_grows (s : State) (m : MRead) : OutGrows s ((s.readCmd m).leased 31) :=
  (s.emit_grows _).trans (.of_eq ((State.leased_keeps (m := 67108872) rfl (Same.refl _ (s.readCmd m))).out rfl))

theorem State.bgOne_grows (s : State) (m : MRead) : OutGrows s (s.bgOne m) := by
  have hsuspended : OutGrows s (if s.urgentRead m.purpose then s.suspendDie m.loc.die else s) :=
    .ite (s.suspendDie_grows _) (.refl s)
  exact .ite (hsuspended.trans ((State.readIssued_grows _ _).after rfl)) (.refl s)

theorem State.bgIssue_grows (s : State) (d : Nat) : OutGrows s (s.bgIssue d) := foldl_grows State.bgOne_grows _ _

theorem State.resumeIdle_grows (s : State) (d : Nat) : OutGrows s (s.resumeIdle d) := by
  have hend : ∀ u : State, (u.suspEnd d).out = u.out := fun u => (State.suspEnd_keeps (m := 17592186052616) rfl (Same.refl _ u)).out rfl
  unfold State.resumeIdle
  split
  · exact (s.emit_grows _).trans (.of_eq (hend _))
  · exact OutGrows.refl s

theorem State.lineOut_te (s : State) (m : MRead) : (s.lineOut m).te = { s.te with
    reads := s.te.reads.filter (fun x => x.id != m.id)
    dies := smod DieCtl.ok s.te.dies m.loc.die (fun x => { x with step := 0 }) } := rfl

/-- The arrival of a line leaves what its check asks. -/
theorem State.lineArrived_plain_shows (s : State) {m : MRead} {rid : Nat} (hpurpose : m.purpose = .host rid) :
    (s.lineArrived m false false).ce = s.ce ∧ (s.lineArrived m false false).te.map = s.te.map ∧
      (s.lineArrived m false false).te.blocks = s.te.blocks ∧ (s.lineArrived m false false).te.media = s.te.media ∧
      (s.lineArrived m false false).te.closing = s.te.closing ∧ (s.lineArrived m false false).regionPageIs s ∧
      ∀ g, (s.lineArrived m false false).rd (R.MG_CDC_CTL g) = s.rd (R.MG_CDC_CTL g) := by
  let taken := (s.pcItem 6).pcEvent (32 + chanOf m.loc.die) 3 1
  have htaken : Same 67108872 s taken := State.pcEvent_keeps rfl (State.pcItem_keeps rfl (Same.refl _ s))
  have hcount : Same 17592186044424 (taken.lineOut m) (s.lineArrived m false false) := by
    unfold State.lineArrived
    simp only [hpurpose, Bool.false_and, Bool.false_eq_true, ↓reduceIte]
    exact State.bump_keeps rfl (R.MC_RD_H_CNT_ok rfl) (Same.refl _ _)
  have hte := hcount.te rfl
  have hregs : ∀ o, (taken.lineOut m).rd o = taken.rd o := fun _ => rfl
  refine ⟨(hcount.ce rfl).trans (htaken.ce rfl), ?_, ?_, ?_, ?_, fun o ho => ?_, fun g => ?_⟩
  · rw [hte, State.lineOut_te, htaken.te rfl]
  · rw [hte, State.lineOut_te, htaken.te rfl]
  · rw [hte, State.lineOut_te, htaken.te rfl]
  · rw [hte, State.lineOut_te, htaken.te rfl]
  · exact (hcount.regionPageIs rfl o ho).trans ((hregs o).trans (htaken.regionPageIs rfl o ho))
  · have hbook : bookReg (R.MG_CDC_CTL g) = false :=
      bookReg_of (by unfold pageOf R.MG_CDC_CTL; omega) (by unfold pageOf R.MG_CDC_CTL; omega) (by unfold R.MG_CDC_CTL; omega)
    have hblk : regBlk (R.MG_CDC_CTL g) = 15 := blk15 (by unfold R.MG_CDC_CTL; omega) (by unfold R.MG_CDC_CTL; omega)
    exact (hcount.own _ hbook (hblk ▸ rfl)).trans ((hregs _).trans (htaken.own _ hbook (hblk ▸ rfl)))

theorem exec_mediaLineReceived_okRead {id : Nat} {err : StoredLine} {m : MRead} {r : Req} {d : Line} {bits : Nat} {s : State}
    (hfind : s.te.reads.find? (fun m => m.id == id && m.issued && s.readNext m) = some m) (hpurpose : m.purpose = .host r.id)
    (hreqs : s.rt.reqs = [r]) (hkind : r.kind = .read) (hzero : r.zero = false) {p : Fin 8} {g : Nat} (hsrc : r.src = .host p g)
    (hptile : (s.entry (tileOf r.line)).ptile = false) (hretry : m.retry = 0) (hkey : m.key = 0 ∨ s.keyGate m.key = 0)
    (hcheck : s.checkLine (groupOf m.loc.die) r.line (s.pageSeq m.loc) m.pos m.key (s.rawLine m err) = .ok d bits) :
    ∃ t, exec (.mediaLineReceived id err false false) s = .next t ∧ t.rt.reqs = [] ∧ Output.memData r.src d false ∈ t.out := by
  obtain ⟨hexec, -⟩ := exec_mediaLineReceived_found hfind err false false
  obtain ⟨-, hrt⟩ := s.lineArrived_shows m false false
  obtain ⟨hce, hmap, hblocks, hmedia, hclosing, hpage, hctl⟩ := s.lineArrived_plain_shows hpurpose
  generalize s.lineArrived m false false = arrived at hexec hrt hce hmap hblocks hmedia hclosing hpage hctl
  have hseq : arrived.pageSeq m.loc = s.pageSeq m.loc := by rw [State.pageSeq, State.blk, hblocks, State.pageSeq, State.blk]
  have hraw : arrived.rawLine m err = s.rawLine m err := by rw [State.rawLine, State.mpage, hmedia, State.rawLine, State.mpage]
  have hgate : arrived.keyGate m.key = s.keyGate m.key := by rw [State.keyGate, State.keySlot, hce, State.keyGate, State.keySlot]
  rw [← State.checkLine_congr hpage hclosing hce (hctl _), ← hseq, ← hraw] at hcheck
  obtain ⟨hsent, hnone⟩ := State.lineKeyed_okRead hpurpose (by rw [hrt]; exact hreqs) hsrc hkind hzero
    (by rw [State.entry, hmap]; exact hptile) hretry (by rw [hgate]; exact hkey) hcheck
  generalize arrived.lineKeyed m err = keyed at hexec hsent hnone
  have hresumed : Same 17592253161482 keyed ((keyed.bgIssue m.loc.die).resumeIdle m.loc.die) :=
    State.resumeIdle_keeps rfl (State.bgIssue_keeps rfl (Same.refl _ keyed))
  have hgrows := (keyed.bgIssue_grows m.loc.die).trans (State.resumeIdle_grows _ m.loc.die)
  have hleft : ((keyed.bgIssue m.loc.die).resumeIdle m.loc.die).rt.reqs = [] := by rw [hresumed.rt rfl, hnone]
  rw [State.pump_of_noReqs hleft] at hexec
  exact ⟨_, hexec, hleft, hgrows hsent⟩

/-! ### MEM_READ_REQUEST: a hit, and a device that answers with poison -/

theorem State.readTaken_lcOn (s : State) (port : Fin 8) : (s.readTaken port).lcOn = s.lcOn := by
  simp only [State.lcOn, s.readTaken_bit_page port (f := F.LC_CTL.EN) rfl (by decide),
    s.readTaken_bit_page port (f := F.LC_STS.CHECK_BUSY) rfl (by decide)]

theorem exec_memReadRequest_hit {s : State} {port : Fin 8} {line : BitVec 38} {n w : Nat} (hreqs : s.rt.reqs = [])
    (hcredit : s.hasCredit port false = true) (hreach : s.reaches port line.toNat n) (hsealed : s.sealedOff n = false)
    (hon : s.lcOn = true) (hfind : s.lcFind line.toNat = some w) (hkept : s.wayLost (lcSet line.toNat) w = false) (tag : BitVec 16) :
    ∃ t, exec (.memReadRequest port tag line []) s = .next t ∧ t.rt.reqs = [] ∧
      Output.memData (.host port tag.toNat) (s.way (lcSet line.toNat) w).data
        ((s.way (lcSet line.toNat) w).p || (s.entry (tileOf line.toNat)).ptile) ∈ t.out := by
  have hlc := (s.readTaken_same port).lc rfl
  obtain ⟨hnone, hsent⟩ := State.enqueue_readHit ((s.readTaken_reqs port).trans hreqs) ((s.readTaken_lcOn port).trans hon)
    ((State.lcFind_congr hlc _).trans hfind) ((State.wayLost_congr hlc _ _).trans hkept) port tag.toNat (some n)
    (s.readTaken port).stateExc
  rw [State.way_congr hlc, State.entry, (s.readTaken_same port).te rfl] at hsent
  exact ⟨_, exec_memReadRequest_owned hcredit hreach hsealed tag, hnone, hsent⟩

theorem exec_memReadRequest_poisoned {s : State} {port : Fin 8} {line : BitVec 38} {n : Nat} (hcredit : s.hasCredit port false = true)
    (hrefused : s.booting = true ∨ s.fenced = true ∨ s.reaches port line.toNat n ∧ s.sealedOff n = true) (tag : BitVec 16) :
    ∃ t, exec (.memReadRequest port tag line []) s = .next t ∧ Output.memData (.host port tag.toNat) 0 true ∈ t.out := by
  rcases hrefused with hboot | hfence | ⟨hreach, hsealed⟩
  · exact ⟨_, exec_memReadRequest_refused hcredit (.inl hboot) tag line, (State.respond_hostRead_shows _ rfl rfl _ _ _).1⟩
  · exact ⟨_, exec_memReadRequest_refused hcredit (.inr hfence) tag line, (State.respond_hostRead_shows _ rfl rfl _ _ _).1⟩
  · exact ⟨_, exec_memReadRequest_sealed hcredit hreach hsealed tag, (State.respond_hostRead_shows _ rfl rfl _ _ _).1⟩

/-! ### CIPHER_REQUEST_DONE -/

theorem exec_cipherRequestDone_program {id pid : Nat} {s : State} (hseeds : 8 ≤ s.ce.seeds)
    (hjob : s.ce.jobs.find? (fun j => j.1 == id) = some (id, .program pid)) (hwaits : s.jobWaits (.program pid) = false) (bad : Bool) :
    ∃ t, exec (.cipherRequestDone id none false bad) s = .next t ∧ t.ce.jobs = s.ce.jobs.filter (fun j => j.1 != id) ∧
      t.te.progs = s.te.progs.map (fun p => if p.id = pid then { p with stage := .ready } else p) := by
  generalize hraised : s.when (s.jobRefused (.program pid)) (fun s => s.raise 6 2 Kind.CHECK) = raised
  have hsame : Same 83887630 s raised := by
    rw [← hraised]
    unfold State.when
    split
    · exact s.raise_same 6 2 Kind.CHECK
    · exact Same.refl _ s
  generalize hdone : ({ raised with ce.jobs := raised.ce.jobs.filter (fun j => j.1 != id) } : State).pcItem 6 = done
  have hdoneCe : done.ce.jobs = s.ce.jobs.filter (fun j => j.1 != id) := by
    rw [← hdone, ← hsame.ce rfl]
    simp
  have hdoneTe : done.te = s.te := by
    rw [← hdone, ← hsame.te rfl]
    simp
  refine ⟨done.progMod pid (fun p => { p with stage := .ready }), ?_, hdoneCe, ?_⟩
  · show execCipherRequestDone id none false bad s = _
    simp [execCipherRequestDone, Nat.not_lt.mpr hseeds, hjob, hwaits, hraised, hdone]
  · rw [State.progMod, hdoneTe]

/-- A known-answer test that fails stops the engine with KAT_FAIL and a fault (Table 10.11). -/
theorem exec_cipherRequestDone_katFails {id : Nat} {s : State} (hseeds : 8 ≤ s.ce.seeds) (hup : s.coreUp = true)
    (hwire : (s.fcSrc 6).wire = false) (hjob : s.ce.jobs.find? (fun j => j.1 == id) = some (id, .kat)) :
    ∃ t, exec (.cipherRequestDone id none false true) s = .next t ∧ t.bit F.CE_STS.KAT_FAIL = true ∧
      t.bit F.CE_STS.KAT_BUSY = false ∧ t.fltSeen 6 Kind.CHECK = true := by
  generalize hused : [4, 5, 6, 7].foldl State.keyUse
    (({ s with ce.jobs := s.ce.jobs.filter (fun j => j.1 != id) } : State).pcItem 6) = used
  generalize hfailed : (((used.setBit F.CE_STS.KAT_BUSY false).setBit F.CE_CTL.KAT_RUN false).setBit F.CE_STS.KAT_FAIL true) = failed
  have hsame : Same 67125260 s used := by
    rw [← hused]
    exact same_foldl (State.pcItem_keeps rfl (upd_ce rfl (Same.refl _ s))) fun u k h => State.keyUse_keeps rfl h
  have hfail : failed.bit F.CE_STS.KAT_FAIL = true := by
    rw [← hfailed]
    exact State.bit_setBit_self _ _ _ (by decide) (by decide)
  have hbusy : failed.bit F.CE_STS.KAT_BUSY = false := by
    rw [← hfailed, State.bit_setBit_ne _ _ _ _ (by decide) (by decide), State.bit_setBit_ne _ _ _ _ (by decide) (by decide)]
    exact State.bit_setBit_self _ _ _ (by decide) (by decide)
  have hfc : failed.fc = s.fc := by rw [← hfailed]; exact hsame.fc rfl
  have hdom : failed.dom = s.dom := by rw [← hfailed]; exact hsame.dom rfl
  have hbook := State.raise_book failed 6 3 Kind.CHECK
  refine ⟨failed.raise 6 3 Kind.CHECK, ?_, (hbook.bit rfl).trans hfail, (hbook.bit rfl).trans hbusy, ?_⟩
  · show execCipherRequestDone id none false true s = _
    have hruns : s.jobWaits .kat = false ∧ s.jobRefused .kat = false := ⟨rfl, rfl⟩
    simp only [execCipherRequestDone, if_neg (Nat.not_lt.mpr hseeds), hjob, hruns, State.when, Bool.false_eq_true, ↓reduceIte, hused,
      hfailed]
  · exact State.raise_seen failed 6 3 Kind.CHECK (by rw [State.coreUp, hdom]; exact hup) (by rw [State.fcSrc, hfc]; exact hwire)
      (by decide) (by decide)

/-! ### The persistence flush -/

/-- While a flush runs, its ports grant no credit (R129). -/
theorem State.topUp_flushing {s : State} {p : Nat} (h : s.rt.gpf.contains p = true) (wr : Bool) : s.topUp p wr = s.credOf p wr := by
  have hgrants : s.portGrants p = false := by simp only [State.portGrants, h, Bool.not_true, Bool.and_false]
  cases wr <;> simp [State.topUp, State.rwdGrants, hgrants]

theorem State.grant_credOf (s : State) {p : Nat} (hp : p < 8) (wr : Bool) : s.grant.credOf p wr = s.topUp p wr := by
  cases wr <;> simp [State.grant, State.credOf, List.getD, hp]

/-- All eight ports flush: no credit is given out (R129). -/
theorem State.grant_flushing (s : State) {p : Nat} (hp : p < 8) (wr : Bool) :
    ({ s with rt.gpf := List.range 8 } : State).grant.credOf p wr = s.credOf p wr := by
  rw [State.grant_credOf _ hp, State.topUp_flushing (by simpa using hp)]
  rfl

theorem exec_gpfPhase1_linkUp {port : Fin 8} {s : State} (h : s.bit (F.HP_STS.LINK_UP port) = true) :
    exec (.gpfPhase1 port) s = .next { s with rt.gpf := List.range 8 } := by
  show execGpfPhase1 port s = _
  simp [execGpfPhase1, h]

theorem exec_gpfPhase2_flushing {port : Fin 8} {s : State} (h : s.rt.gpf.contains port.val = true) :
    exec (.gpfPhase2 port) s = .next (({ s.rt.gpf.foldl (fun s p => s.setBit (F.HP_STS.GPF_HELD p) true) s with rt.gpf := [] } : State).emit
      (.hostMsg port 2 [])) := by
  show execGpfPhase2 port s = _
  unfold execGpfPhase2
  exact if_pos h

/-- The ports that held their credit in a flush say so once it ends (R129). -/
def State.flushHeld (s : State) : State := s.rt.gpf.foldl (fun s p => s.setBit (F.HP_STS.GPF_HELD p) true) s

theorem State.flushHeld_same (s : State) : Same 1099511627784 s s.flushHeld :=
  same_foldl (Same.refl _ s) fun _ _ h => State.setBit_keeps rfl (R.HP_STS_ok rfl) h

theorem State.flushHeld_bit {s : State} {p : Nat} (h : p ∈ s.rt.gpf) : s.flushHeld.bit (F.HP_STS.GPF_HELD p) = true :=
  foldl_reaches (I := fun _ => True) (Q := fun p t => t.bit (F.HP_STS.GPF_HELD p) = true) (fun _ _ _ _ => trivial)
    (fun t a _ _ => t.bit_setBit_self _ true (by simp) (by simp)) (fun t a b _ h => t.setBit_keepsBit _ h rfl rfl rfl (by simp))
    trivial p h

theorem exec_gpfPhase2_shows {port : Fin 8} {s : State} (h : s.rt.gpf.contains port.val = true) :
    ∃ t, exec (.gpfPhase2 port) s = .next t ∧ t.rt.gpf = [] ∧ t.te = s.te ∧ t.lc = s.lc ∧ Output.hostMsg port.val 2 [] ∈ t.out ∧
      ∀ p ∈ s.rt.gpf, p < 8 → t.bit (F.HP_STS.GPF_HELD p) = true := by
  let ended : State := { s.flushHeld with rt.gpf := [] }
  have hbook := ended.emit_book (.hostMsg port 2 [])
  refine ⟨ended.emit (.hostMsg port 2 []), exec_gpfPhase2_flushing h, by simp [ended], ?_, ?_, ended.emit_mem _, fun p hp _ => ?_⟩
  · simpa [ended] using s.flushHeld_same.te rfl
  · simpa [ended] using s.flushHeld_same.lc rfl
  · exact (hbook.bit (bookReg_hpSts p)).trans (State.flushHeld_bit hp)

/-- Settles O9: each command's effect is its own lemma above. -/
theorem readPathCommands : Obligations.ReadPathCommands := by
  unfold Obligations.ReadPathCommands
  refine ⟨?readHit, ?readRefused, ?dramRead, ?heldMiss, ?lineDropped, ?lineChecks, ?programDone, ?katFails, ?gpf1, ?gpf2⟩
  case readHit =>
    intro port tag line n w s hreqs hcredit hreach hsealed hon hfind hkept
    exact exec_memReadRequest_hit hreqs hcredit hreach hsealed hon hfind hkept tag
  case readRefused =>
    intro port tag line n s hcredit hrefused
    exact exec_memReadRequest_poisoned hcredit hrefused tag
  case dramRead =>
    rintro id ch r s hreqs hid hkind hstage ⟨p, g, hsrc⟩ hst hptile hpline hline
    exact exec_dramReadComplete_slotRead ch hreqs hid hkind hstage hsrc hst hptile hpline hline
  case heldMiss =>
    intro die r l s hreqs hstage hloc hdie hissued
    obtain ⟨t, hexec, hleft, hheld, hreads⟩ := exec_heldMissDispatch_alone hreqs hstage hloc hdie hissued
    exact ⟨t, hexec, hleft, hheld, _, hreads, rfl, rfl, rfl, rfl, rfl, rfl⟩
  case lineDropped =>
    intro id err slotErr seedDue m rid s hfind hpurpose hreqs hissued
    exact exec_mediaLineReceived_noReqs hfind hpurpose hreqs hissued err slotErr seedDue
  case lineChecks =>
    rintro id err m r d bits s hfind hpurpose hreqs hkind hzero ⟨p, g, hsrc⟩ hptile hretry hkey hcheck
    exact exec_mediaLineReceived_okRead hfind hpurpose hreqs hkind hzero hsrc hptile hretry hkey hcheck
  case programDone =>
    intro id pid bad s hseeds hjob hwaits
    exact exec_cipherRequestDone_program hseeds hjob hwaits bad
  case katFails =>
    intro id s hseeds hup hwire hjob
    exact exec_cipherRequestDone_katFails hseeds hup hwire hjob
  case gpf1 =>
    intro port s hlink
    exact ⟨_, exec_gpfPhase1_linkUp hlink, rfl, fun p wr hp => State.grant_flushing s hp wr⟩
  case gpf2 =>
    intro port s hflush
    exact exec_gpfPhase2_shows hflush

end Sys2Proof.Machine
end

section
/-! SUPPORT. The events of the host links (03_read_path.md R106; 12_host_ports.md R370, R372, R376, R383, R384, R396). -/
set_option autoImplicit false
namespace Sys2Proof.Machine

/-! ### The registers of a host port -/

theorem bookReg_hpLinkDown (p : Nat) : bookReg (R.HP_LINK_DOWN p) = false :=
  bookReg_of (by unfold pageOf R.HP_LINK_DOWN; omega) (by unfold pageOf R.HP_LINK_DOWN; omega) (by unfold R.HP_LINK_DOWN; omega)

theorem State.regsAre.num {s t : State} (h : s.regsAre t) {o : Nat} (ho : bookReg o = false) : s.num o = t.num o :=
  congrArg BitVec.toNat (h o ho)

/-- A field reads the same where its register does. -/
theorem State.bit_congr {s t : State} {f : Fld} (h : s.rd f.off = t.rd f.off) : s.bit f = t.bit f :=
  congrArg (fun w => fldOf f w != 0) h

theorem State.bit_hp (s : State) (q : HpSt) (f : Fld) : ({ s with hp := q } : State).bit f = s.bit f := rfl
theorem State.bit_rt (s : State) (q : RtSt) (f : Fld) : ({ s with rt := q } : State).bit f = s.bit f := rfl

@[simp] theorem State.set_hp (s : State) (f : Fld) (v : Nat) : (s.set f v).hp = s.hp := rfl
@[simp] theorem State.setBit_hp (s : State) (f : Fld) (b : Bool) : (s.setBit f b).hp = s.hp := rfl
theorem State.bump_rt (s : State) (o : Nat) : (s.bump o).rt = s.rt := rfl

theorem State.num_bump (s : State) (o : Nat) : (s.bump o).num o = min (s.num o + 1) 0xFFFFFFFF :=
  s.num_wrN_self o (Nat.lt_succ_of_le (Nat.min_le_right _ _))

theorem State.num_wr64_ne (s : State) {o lo : Nat} (v : Nat) (hlo : o ≠ lo) (hhi : o ≠ lo + 4) : (s.wr64 lo v).num o = s.num o :=
  (State.num_wrN_ne _ _ hhi).trans (s.num_wrN_ne _ hlo)

/-- A _LO and _HI pair reads back the value stored, cut to 64 bits. -/
theorem State.num64_wr64_self (s : State) (lo : Nat) {v : Nat} (h : v < 2 ^ 64) : (s.wr64 lo v).num64 lo = v := by
  have hlo : (s.wr64 lo v).num lo = v % 2 ^ 32 := (State.num_wrN_ne _ _ (by omega)).trans (s.num_wrN_mod lo v)
  have hhi : (s.wr64 lo v).num (lo + 4) = v / 2 ^ 32 % 2 ^ 32 := State.num_wrN_mod _ _ _
  rw [State.num64, hlo, hhi]
  omega

theorem State.hostEvent_same (s : State) (p : Nat) (up : Bool) : Same 67109384 s (s.hostEvent p up) :=
  State.hostEvent_keeps rfl (Same.refl _ s)

theorem State.hostEvent_book (s : State) (p : Nat) (up : Bool) : (s.hostEvent p up).regsAre s := (s.hostEvent_same p up).regsAre (by decide)

theorem State.regAcc_ownOrManager (s : State) (page : Nat) (path : Path) (p : Fin 8) :
    (s.regAcc page).ownOrManager path p = s.ownOrManager path p := by
  simp only [State.ownOrManager.eq_def, State.regAcc_isManager]

/-! ### The end of a link -/

theorem State.linkGone_memOn (s : State) (p : Nat) : (s.linkGone p).bit (F.HP_STS.MEM_ON p) = false := by
  simp [State.linkGone, State.bit_setBit_ne, State.bit_setBit_self]

theorem State.linkGone_num (s : State) (p : Nat) {o : Nat} (h : o ≠ R.HP_STS p) : (s.linkGone p).num o = s.num o := by
  simp [State.linkGone, State.num, State.rd_setBit_ne, State.rd_set_ne, h]

/-- LINK_DOWN counts the link's end, which leaves the requests of its host as they are. -/
theorem State.hostLinkDown_shows {s : State} {p : Nat} (h : s.bit (F.HP_STS.LINK_UP p) = true) :
    (s.hostLinkDown p).bit (F.HP_STS.LINK_UP p) = false ∧ (s.hostLinkDown p).bit (F.HP_STS.MEM_ON p) = false ∧
      (s.hostLinkDown p).num (R.HP_LINK_DOWN p) = min (s.num (R.HP_LINK_DOWN p) + 1) 0xFFFFFFFF ∧ (s.hostLinkDown p).rt = s.rt := by
  have heq : s.hostLinkDown p = ((s.linkGone p).bump (R.HP_LINK_DOWN p)).hostEvent p false := if_pos h
  have hne : R.HP_STS p ≠ R.HP_LINK_DOWN p := by unfold R.HP_STS R.HP_LINK_DOWN; omega
  have hbook := ((s.linkGone p).bump (R.HP_LINK_DOWN p)).hostEvent_book p false
  refine ⟨s.hostLinkDown_linkUp p, ?_, ?_, ?_⟩
  · rw [heq, hbook.bit (bookReg_hpSts p)]
    exact (State.bit_wrN_ne _ _ _ hne).trans (s.linkGone_memOn p)
  · rw [heq, hbook.num (bookReg_hpLinkDown p), State.num_bump, s.linkGone_num p hne.symm]
  · have hgone := State.linkGone_keeps (m := 1099511627784) (a1 := p) rfl (Same.refl _ s)
    rw [heq, ← hgone.rt rfl]
    exact ((State.hostEvent_same _ p false).rt rfl).trans (State.bump_rt _ _)

theorem exec_powerStateChange_linkUp {p : Fin 8} {s : State} (h : s.bit (F.HP_STS.LINK_UP p) = true) (d3 : Bool) :
    exec (.powerStateChange p d3) s = .next (s.setBit (F.HP_STS.D3HOT p) d3) := congrArg Host.Outcome.next (if_pos h)

theorem exec_hpRetrain_manager {path : Path} {p : Fin 8} {s : State} (hmgr : s.isManager path = true)
    (hpresent : s.bit (F.HP_STS.PRESENT p) = true) :
    exec (.hpRetrain path p) s = .next (((s.regAcc (12 + p)).hostLinkDown p).setBit (F.HP_CTL.RETRAIN p) true) := by
  refine congrArg Host.Outcome.next (if_pos ?_)
  rw [State.regAcc_isManager, (s.regAcc_book _).bit (bookReg_hpSts p), hmgr, hpresent]
  rfl

theorem exec_hpRetrain_shows {path : Path} {p : Fin 8} {s : State} (hmgr : s.isManager path = true)
    (hpresent : s.bit (F.HP_STS.PRESENT p) = true) :
    ∃ t, exec (.hpRetrain path p) s = .next t ∧ t.bit (F.HP_STS.LINK_UP p) = false ∧ t.bit (F.HP_CTL.RETRAIN p) = true := by
  refine ⟨_, exec_hpRetrain_manager hmgr hpresent, ?_, State.bit_setBit_self _ _ _ (by simp) (by simp)⟩
  rw [State.bit_setBit_ne _ _ _ _ (by simp) (.inl (by simp only [R.HP_STS, R.HP_CTL]; omega))]
  exact State.hostLinkDown_linkUp _ p

/-! ### PERST_N -/

theorem State.portLost_reqs (s : State) (p : Fin 8) : ∀ x ∈ (s.portLost p).rt.reqs, ∀ g, x.src ≠ .host p g := by
  intro x hx g hsrc
  obtain ⟨r, -, rfl⟩ := List.mem_map.mp hx
  rcases r with ⟨id, src⟩
  cases src with
  | host q h =>
    by_cases hq : q.val = p.val
    · simp [hq] at hsrc
    · simp only [hq, if_false] at hsrc
      injection hsrc with hp
      exact hq (congrArg Fin.val hp)
  | _ => simp at hsrc

theorem State.portReset_shows (s : State) (p : Fin 8) :
    (s.portReset p).bit (F.HP_STS.LINK_UP p) = false ∧ (s.portReset p).bit (F.HP_STS.MEM_ON p) = false ∧
      ∀ x ∈ (s.portReset p).rt.reqs, ∀ g, x.src ≠ .host p g := by
  have hkept {f : Fld} (hf : f.lo + f.width ≤ 15) : (s.portReset p).bit f = (s.linkGone p).bit f := by
    unfold State.portReset
    rw [State.bit_hp, State.bit_setBit_ne _ _ _ _ (by simp) (by simp; omega), State.bit_setBit_ne _ _ _ _ (by simp) (by simp; omega),
      State.bit_setBit_ne _ _ _ _ (by simp) (by simp; omega), State.portLost, State.bit_rt]
  exact ⟨(hkept (by simp)).trans (s.linkGone_linkUp p), (hkept (by simp)).trans (s.linkGone_memOn p), (s.linkGone p).portLost_reqs p⟩

theorem State.portRegs_hpSts (s : State) (p : Nat) : (s.portRegs p).rd (R.HP_STS p) = s.rd (R.HP_STS p) := by
  refine (State.rd_wrN_ne _ _ (by unfold R.HP_STS R.HP_BW_WIN; omega)).trans ((State.rd_zero _ s _).trans (if_neg ?_))
  simp only [regRange, List.mem_append, List.mem_map, List.mem_range, List.mem_singleton, R.HP_STS, R.HP_BW_RD_LO, R.HP_CTL, R.PC_SEL,
    R.PC_CNT, R.PC_WIN_CTL]
  rintro ((((⟨k, hk, h⟩ | h) | ⟨k, hk, h⟩) | ⟨k, hk, h⟩) | h) <;> omega

/-- What PERST_N of a port ends and resets (R372), but for the record that it stands asserted. -/
def State.perstFallen (s : State) (p : Fin 8) : State :=
  let u := ((s.portReset p).unfence (12 + p)).wireEnd (12 + p)
  ((u.when (s.bit (F.HP_STS.LINK_UP p)) (fun s => s.hostEvent p false)).portRegs p).mapcInvStart

theorem State.perstFallen_shows (s : State) (p : Fin 8) :
    (s.perstFallen p).rd (R.HP_STS p) = (s.portReset p).rd (R.HP_STS p) ∧ (s.perstFallen p).rt = (s.portReset p).rt := by
  unfold State.perstFallen
  extract_lets u
  have hu : Same 1024 (s.portReset p) u := State.wireEnd_keeps rfl (State.unfence_keeps rfl (Same.refl _ _))
  have hevent : Same 67109384 u (u.when (s.bit (F.HP_STS.LINK_UP p)) (fun s => s.hostEvent p false)) :=
    same_when (Same.refl _ u) fun _ h => State.hostEvent_keeps rfl h
  generalize u.when _ _ = v at hevent ⊢
  have hinv : Same 68719476744 (v.portRegs p) (v.portRegs p).mapcInvStart := State.mapcInvStart_keeps rfl (Same.refl _ _)
  constructor
  · calc (v.portRegs p).mapcInvStart.rd (R.HP_STS p)
      _ = (v.portRegs p).rd (R.HP_STS p) := hinv.own _ (bookReg_hpSts p) (by rw [regBlk_hpSts]; rfl)
      _ = v.rd (R.HP_STS p) := v.portRegs_hpSts p
      _ = u.rd (R.HP_STS p) := hevent.regsAre (by decide) _ (bookReg_hpSts p)
      _ = (s.portReset p).rd (R.HP_STS p) := hu.regsAre (by decide) _ (bookReg_hpSts p)
  · calc (v.portRegs p).mapcInvStart.rt
      _ = (v.portRegs p).rt := hinv.rt rfl
      _ = v.rt := (State.portRegs_keeps (m := 1099645845512) rfl (Same.refl _ v)).rt rfl
      _ = u.rt := hevent.rt rfl
      _ = (s.portReset p).rt := hu.rt rfl

theorem exec_perstNAssert_shows {p : Fin 8} {s : State} (h : s.bit (F.HP_STS.PRESENT p) = true) :
    ∃ t, exec (.perstNAssert p) s = .next t ∧ t.bit (F.HP_STS.LINK_UP p) = false ∧ t.bit (F.HP_STS.MEM_ON p) = false ∧
      p.val ∈ t.hp.perst ∧ ∀ x ∈ t.rt.reqs, ∀ g, x.src ≠ .host p g := by
  obtain ⟨hrd, hrt⟩ := s.perstFallen_shows p
  obtain ⟨hdown, hoff, hreqs⟩ := s.portReset_shows p
  refine ⟨{ s.perstFallen p with
    hp.perst := setIns p.val (s.perstFallen p).hp.perst
    hp.muted := if (s.perstFallen p).hp.bg.contains p.val then setIns p.val (s.perstFallen p).hp.muted else (s.perstFallen p).hp.muted },
    if_neg (by simp [h]), ?_, ?_, mem_setIns p.val _, ?_⟩
  · rw [State.bit_hp, State.bit_congr hrd, hdown]
  · rw [State.bit_hp, State.bit_congr hrd, hoff]
  · rw [← hrt] at hreqs
    exact hreqs

/-- The credit pools of a port whose PERST_N rises take the sizes written (R106). -/
theorem exec_perstNRelease_shows {p : Fin 8} {s : State} (h : s.bit (F.HP_STS.PRESENT p) = true) :
    ∃ t, exec (.perstNRelease p) s = .next t ∧ t.hp.perst = setDel p.val s.hp.perst ∧
      t.rt.reqPool = s.rt.reqPool.set p.val (s.num R.RT_CRD_REQ % 1024) ∧
      t.rt.rwdPool = s.rt.rwdPool.set p.val (s.num R.RT_CRD_RWD % 1024) := by
  have hsame := State.tsStatus_same { s with
    hp.perst := setDel p.val s.hp.perst
    rt.reqPool := s.rt.reqPool.set p.val (s.num R.RT_CRD_REQ % 1024)
    rt.rwdPool := s.rt.rwdPool.set p.val (s.num R.RT_CRD_RWD % 1024) }
  have hrt := hsame.rt rfl
  exact ⟨_, (if_neg (by simp [h]) : execPerstNRelease p s = _), congrArg HpSt.perst (hsame.hp rfl), congrArg RtSt.reqPool hrt,
    congrArg RtSt.rwdPool hrt⟩

/-! ### HOST_LINK_UP -/

/-- What a link that reaches L0 shows in HP_STS (R370). -/
def State.linkShown (s : State) (p width rate : Nat) (lopt mem : Bool) : State :=
  let u := ((s.setBit (F.HP_STS.LINK_UP p) true).set (F.HP_STS.WIDTH p) width).set (F.HP_STS.RATE p) rate
  (u.setBit (F.HP_STS.LOPT p) (mem && lopt && u.bit (F.HP_CFG.LOPT_EN p))).setBit (F.HP_STS.MEM_ON p) mem

theorem State.linkShown_shows (s : State) (p : Nat) {width rate : Nat} (hw : width < 32) (hr : rate < 8) (lopt mem : Bool) :
    (s.linkShown p width rate lopt mem).get (F.HP_STS.LINK_UP p) = 1 ∧
      (s.linkShown p width rate lopt mem).get (F.HP_STS.WIDTH p) = width ∧
      (s.linkShown p width rate lopt mem).get (F.HP_STS.RATE p) = rate ∧
      (s.linkShown p width rate lopt mem).get (F.HP_STS.MEM_ON p) = mem.toNat := by
  unfold State.linkShown
  extract_lets u
  have hup : u.get (F.HP_STS.LINK_UP p) = 1 := by simp [u, State.setBit, State.get_set_ne, State.get_set_self]
  have hwidth : u.get (F.HP_STS.WIDTH p) = width := by simp [u, State.get_set_ne, State.get_set_self, Nat.mod_eq_of_lt hw]
  have hrate : u.get (F.HP_STS.RATE p) = rate := by simp [u, State.get_set_self, Nat.mod_eq_of_lt hr]
  have hkept {f : Fld} (b c : Bool) (hf : f.lo + f.width ≤ 10) :
      ((u.setBit (F.HP_STS.LOPT p) b).setBit (F.HP_STS.MEM_ON p) c).get f = u.get f :=
    (State.get_set_ne _ _ _ _ (by simp) (by simp; omega)).trans (State.get_set_ne _ _ _ _ (by simp) (by simp; omega))
  refine ⟨(hkept _ _ (by simp)).trans hup, (hkept _ _ (by simp)).trans hwidth, (hkept _ _ (by simp)).trans hrate, ?_⟩
  exact (State.get_set_self _ _ _ (by simp)).trans (Nat.mod_eq_of_lt mem.toNat_lt)

/-- A link in L0: HP_STS shows it, RETRAIN has ended, the event is written and the host finds the port's function. -/
def State.linkRaised (s : State) (p : Fin 8) (width rate : Nat) (lopt mem : Bool) : State :=
  (((s.linkShown p width rate lopt mem).setBit (F.HP_CTL.RETRAIN p) false).hostEvent p true).emit (.function p portFn)

theorem State.linkRaised_get (s : State) (p : Fin 8) (width rate : Nat) (lopt mem : Bool) {f : Fld} (hf : f.off = R.HP_STS p) :
    (s.linkRaised p width rate lopt mem).get f = (s.linkShown p width rate lopt mem).get f := by
  have hsts : bookReg f.off = false := hf ▸ bookReg_hpSts p
  have hne : f.off ≠ R.HP_CTL p := by rw [hf]; unfold R.HP_STS R.HP_CTL; omega
  unfold State.linkRaised
  rw [(State.emit_book _ _).get hsts, (State.hostEvent_book _ p true).get hsts, State.get_setBit_off _ _ _ _ (by simp) hne]

theorem State.linkRaised_hp (s : State) (p : Fin 8) (width rate : Nat) (lopt mem : Bool) :
    (s.linkRaised p width rate lopt mem).hp = s.hp := by
  have hevent (u : State) : (u.hostEvent p true).hp = u.hp := (u.hostEvent_same p true).hp rfl
  simp [State.linkRaised, State.linkShown, hevent]

section
variable {p : Fin 8} {width : Fin 17} {rate : Fin 7} {s : State} (hpresent : s.bit (F.HP_STS.PRESENT p) = true)
  (hperst : s.hp.perst.contains p.val = false) (hdown : s.bit (F.HP_STS.LINK_UP p) = false) (hcore : s.coreUp = true)
  (hclk : s.refclk = true) (hphase : 2 ≤ s.get F.BOOT_STS.PHASE) (hwidth : 0 < width.val) (hrate : 0 < rate.val)
  (hlanes : width.val ≤ s.portLanes p) (hloop : s.bit ⟨R.TST_PHY_CTL, p.val / 2, 1⟩ = false) (hlost : s.hp.lost = [])
  (flit lopt : Bool)
include hpresent hperst hdown hcore hclk hphase hwidth hrate hlanes hloop hlost

theorem exec_hostLinkUp_trained :
    exec (.hostLinkUp p width rate flit lopt) s = .next (s.linkRaised p width rate lopt (rate == 6 && flit)) := by
  show execHostLinkUp p width rate flit lopt s = _
  refine (if_neg ?trains).trans (if_neg ?logged)
  case trains =>
    have hw : width ≠ 0 := fun h => by simp [h] at hwidth
    have hr : rate ≠ 0 := fun h => by simp [h] at hrate
    have hout : p.val ∉ s.hp.perst := by simpa using hperst
    have hstarted : 1 < s.get F.BOOT_STS.PHASE := hphase
    simp [hpresent, hout, hdown, hcore, hclk, hloop, hw, hr, hstarted, hlanes]
  case logged =>
    have hkept := s.linkRaised_hp p width rate lopt (rate == 6 && flit)
    change ¬(s.linkRaised p width rate lopt (rate == 6 && flit)).hp.lost.contains p.val = true
    simp [hkept, hlost]

theorem exec_hostLinkUp_shows : ∃ t, exec (.hostLinkUp p width rate flit lopt) s = .next t ∧ t.bit (F.HP_STS.LINK_UP p) = true ∧
    t.get (F.HP_STS.WIDTH p) = width.val ∧ t.get (F.HP_STS.RATE p) = rate.val ∧ t.bit (F.HP_STS.MEM_ON p) = (rate == 6 && flit) := by
  have hexec := exec_hostLinkUp_trained hpresent hperst hdown hcore hclk hphase hwidth hrate hlanes hloop hlost flit lopt
  generalize (rate == 6 && flit) = mem at hexec ⊢
  obtain ⟨hup, hw, hr, hmem⟩ := s.linkShown_shows p (width := width) (rate := rate) (by omega) (by omega) lopt mem
  have hget {f : Fld} := s.linkRaised_get p width rate lopt mem (f := f)
  refine ⟨_, hexec, ?_, (hget rfl).trans hw, (hget rfl).trans hr, ?_⟩
  · rw [State.bit, hget rfl, hup]
    rfl
  · rw [State.bit, hget rfl, hmem]
    cases mem <;> rfl

end

/-! ### HDM_DECODER_COMMIT -/

theorem exec_hdmDecoderCommit_shows {p k : Fin 8} {base size skip : BitVec 64} {ways gran : Nat} {s : State}
    (hup : s.bit (F.HP_STS.LINK_UP p) = true) (hfree : sget none s.hp.decs (8 * p.val + k.val) = none)
    (hways : decWays.contains ways = true) (hgran : decGrans.contains gran = true) (hsize : size ≠ 0) (hunit : size.toNat % (2 ^ 28 * ways) = 0)
    (hbase : base.toNat % 2 ^ 28 = 0)
    (hcap : s.dpaBelow p k + skip.toNat + size.toNat / ways ≤ s.capUnits * 2 ^ 28) (lock : Bool) :
    ∃ t, exec (.hdmDecoderCommit p k base size ways gran skip lock) s = .next t ∧ Output.hostMsg p.val 0x20 [k.val, 1] ∈ t.out ∧
      sget none t.hp.decs (8 * p.val + k.val) = some ⟨base.toNat, size.toNat, ways, gran, skip.toNat, lock⟩ := by
  let committed : State :=
    { s with hp.decs := sset none s.hp.decs (8 * p.val + k.val) (some ⟨base.toNat, size.toNat, ways, gran, skip.toNat, lock⟩) }
  refine ⟨committed.emit (.hostMsg p 0x20 [k, 1]), ?_, State.emit_mem _ _, by simp [committed]⟩
  show execHdmDecoderCommit p k base size ways gran skip lock s = _
  simp only [execHdmDecoderCommit, hup, hfree, hways, hgran, hunit, hbase, hcap, bne_iff_ne.mpr hsize]
  rfl

/-! ### IDE -/

theorem ideFld_off (p : Nat) (mem : Bool) : (ideFld p mem).off = R.HP_STS p := by cases mem <;> rfl

theorem State.bit_setBit_ideFld (s : State) (p : Nat) (mem b : Bool) : (s.setBit (ideFld p mem) b).bit (ideFld p mem) = b := by
  cases mem <;> exact State.bit_setBit_self _ _ _ (by simp [ideFld]) (by simp [ideFld])

theorem srcPage_port (p : Fin 8) : (srcPage (12 + p.val)).1 = 12 + p.val := by
  simp [srcPage, show 12 + p.val ≤ 109 by omega]

theorem exec_ideIntegrityFailure_shows {p : Fin 8} {mem : Bool} {s : State} (hsecure : s.bit (ideFld p mem) = true)
    (hcore : s.coreUp = true) (hwire : (s.fcSrc (12 + p.val)).wire = false) :
    ∃ t, exec (.ideIntegrityFailure p mem) s = .next t ∧ t.bit (ideFld p mem) = false ∧ t.fltSeen (12 + p.val) Kind.LINK = true := by
  have hsts : bookReg (ideFld p mem).off = false := ideFld_off p mem ▸ bookReg_hpSts p
  refine ⟨_, (if_neg (by simp [hsecure]) : execIdeIntegrityFailure p mem s = _), ?_, ?_⟩
  · rw [(State.raise_book _ _ _ _).bit hsts]
    refine (State.bit_wrN_ne _ _ _ ?_).trans (s.bit_setBit_ideFld p mem false)
    rw [ideFld_off]
    unfold R.HP_STS R.HP_IDE_ERR
    omega
  · exact State.raise_seen _ (12 + p.val) 2 Kind.LINK hcore hwire (by omega) (by decide)

section
variable {p : Fin 8} {id : Nat} {s : State} (hmail : s.mail p = true) (hsession : s.session p id = true) (mem : Bool)
include hmail hsession

theorem exec_ideKm_prog (k : BitVec 256) : ∃ t, exec (.ideKm p id mem (.prog k)) s = .next t ∧
    sget none t.hp.ideKeys (2 * p.val + mem.toNat) = some k.toNat ∧ Output.hostMsg p.val 0x30 [mem.toNat, 0] ∈ t.out :=
  ⟨_, (if_neg (by simp [State.spdmOn, hmail, hsession]) : execIdeKm p id mem (.prog k) s = _), by simp, State.emit_mem _ _⟩

theorem exec_ideKm_go {k : Nat} (hkey : sget none s.hp.ideKeys (2 * p.val + mem.toNat) = some k) :
    ∃ t, exec (.ideKm p id mem .go) s = .next t ∧ t.bit (ideFld p mem) = true := by
  refine ⟨(s.setBit (ideFld p mem) true).emit (.hostMsg p 0x30 [mem.toNat, 0]), ?_, ?_⟩
  · refine (if_neg (by simp [State.spdmOn, hmail, hsession]) : execIdeKm p id mem .go s = _).trans ?_
    simp [hkey]
  · rw [(State.emit_book _ _).bit (ideFld_off p mem ▸ bookReg_hpSts p), State.bit_setBit_ideFld]

theorem exec_ideKm_stop : ∃ t, exec (.ideKm p id mem .stop) s = .next t ∧ t.bit (ideFld p mem) = false ∧
    sget none t.hp.ideKeys (2 * p.val + mem.toNat) = none := by
  refine ⟨_, (if_neg (by simp [State.spdmOn, hmail, hsession]) : execIdeKm p id mem .stop s = _), ?_, ?_⟩
  · rw [(State.emit_book _ _).bit (ideFld_off p mem ▸ bookReg_hpSts p), State.bit_setBit_ideFld]
  · rw [((State.emit_keeps (m := 67108874) rfl (Same.refl _ _)).hp rfl)]
    exact sget_serase_self _ _ _

end

/-! ### SPDM -/

section
variable {p : Fin 8} {s : State} (hmail : s.mail p = true)
include hmail

theorem exec_spdmRequest_version : exec (.spdmRequest p .version) s = .next (s.emit (.hostMsg p.val 0x04 [0x12, 0x11])) :=
  if_neg (by simp [State.spdmOn, hmail])

theorem exec_spdmRequest_keyExchange (hroom : (s.hp.spdm.filter (fun x => x.1 == p.val)).length < 4) :
    ∃ t, exec (.spdmRequest p .keyExchange) s = .next t ∧ t.session p s.hp.nextSess = true ∧ t.hp.nextSess = s.hp.nextSess + 1 := by
  refine ⟨_, ((if_neg (by simp [State.spdmOn, hmail])).trans (if_neg (by omega)) : execSpdmRequest p .keyExchange s = _), ?_, by simp⟩
  simp [State.session]

theorem exec_spdmRequest_endSession {id : Nat} (hsession : s.session p id = true) :
    ∃ t, exec (.spdmRequest p (.endSession id)) s = .next t ∧ t.session p id = false := by
  refine ⟨({ s with hp.spdm := s.hp.spdm.filter (fun x => x != (p.val, id)) } : State).emit (.hostMsg p.val 0x6C [id]), ?_, ?_⟩
  · refine (if_neg (by simp [State.spdmOn, hmail]) : execSpdmRequest p (.endSession id) s = _).trans ?_
    simp [hsession]
  · simp [State.session]

end

/-! ### The bandwidth window -/

theorem exec_hpBwWinWrite_shows {path : Path} {p : Fin 8} {s : State} (h : s.ownOrManager path p = true) (v : Word) :
    ∃ t, exec (.hpBwWinWrite path p v) s = .next t ∧ t.regsAre (s.wrN (R.HP_BW_WIN p) (min 10000 (max 1 (v.toNat % 16384)))) ∧
      sget 0 t.hp.bwRd p = 0 ∧ sget 0 t.hp.bwWr p = 0 :=
  ⟨_, congrArg Host.Outcome.next (if_pos ((s.regAcc_ownOrManager _ path p).trans h)), State.regsAre_wr (s.regAcc_book (12 + p)),
    sget_serase_self _ _ _, sget_serase_self _ _ _⟩

/-- The counts of a bandwidth window in its registers (R396). -/
def State.windowShown (s : State) (p rd wr : Nat) : State :=
  ((s.wr64 (R.HP_BW_RD_LO p) rd).wr64 (R.HP_BW_WR_LO p) wr).bump (R.HP_BW_SEQ p)

theorem State.windowShown_shows (s : State) (p : Nat) {rd wr : Nat} (hrd : rd < 2 ^ 48) (hwr : wr < 2 ^ 48) :
    (s.windowShown p rd wr).num64 (R.HP_BW_RD_LO p) = rd ∧ (s.windowShown p rd wr).num64 (R.HP_BW_WR_LO p) = wr ∧
      (s.windowShown p rd wr).num (R.HP_BW_SEQ p) = min (s.num (R.HP_BW_SEQ p) + 1) 0xFFFFFFFF := by
  have hpage : R.HP_BW_WR_LO p = R.HP_BW_RD_LO p + 8 ∧ R.HP_BW_SEQ p = R.HP_BW_RD_LO p + 16 := ⟨rfl, rfl⟩
  obtain ⟨hwrLo, hseq⟩ := hpage
  unfold State.windowShown
  rw [hwrLo, hseq]
  generalize R.HP_BW_RD_LO p = o
  refine ⟨?_, ?_, ?_⟩
  · have hnum {x : Nat} (h : x < o + 8) : (((s.wr64 o rd).wr64 (o + 8) wr).bump (o + 16)).num x = (s.wr64 o rd).num x :=
      (State.num_wrN_ne _ _ (by omega)).trans (State.num_wr64_ne _ _ (by omega) (by omega))
    rw [State.num64, hnum (by omega), hnum (by omega)]
    exact s.num64_wr64_self o (by omega)
  · have hnum {x : Nat} (h : x < o + 16) : (((s.wr64 o rd).wr64 (o + 8) wr).bump (o + 16)).num x = ((s.wr64 o rd).wr64 (o + 8) wr).num x :=
      State.num_wrN_ne _ _ (by omega)
    rw [State.num64, hnum (by omega), hnum (by omega)]
    exact State.num64_wr64_self _ _ (by omega)
  · rw [State.num_bump, State.num_wr64_ne _ _ (by omega) (by omega), State.num_wr64_ne _ _ (by omega) (by omega)]

theorem exec_bandwidthWindowEnd_shows {p : Fin 8} {s : State} (h : s.bit (F.HP_STS.PRESENT p) = true) :
    ∃ t, exec (.bandwidthWindowEnd p) s = .next t ∧ t.num64 (R.HP_BW_RD_LO p) = sget 0 s.hp.bwRd p % 2 ^ 48 ∧
      t.num64 (R.HP_BW_WR_LO p) = sget 0 s.hp.bwWr p % 2 ^ 48 ∧ t.num (R.HP_BW_SEQ p) = min (s.num (R.HP_BW_SEQ p) + 1) 0xFFFFFFFF ∧
      sget 0 t.hp.bwRd p = 0 := by
  obtain ⟨hrd, hwr, hseq⟩ := s.windowShown_shows p (rd := sget 0 s.hp.bwRd p % 2 ^ 48) (wr := sget 0 s.hp.bwWr p % 2 ^ 48)
    (Nat.mod_lt _ (by decide)) (Nat.mod_lt _ (by decide))
  exact ⟨_, (if_neg (by simp [h]) : execBandwidthWindowEnd p s = _), hrd, hwr, hseq, sget_serase_self _ _ _⟩

/-- Settles O23, event by event. -/
theorem hostLinkCommands : Obligations.HostLinkCommands := by
  unfold Obligations.HostLinkCommands
  refine ⟨?perst, ?linkUp, ?linkDown, ?retrain, ?decoder, ?integrity, ?keys, ?spdm, ?window, ?windowEnd⟩
  case perst => exact fun p s hpresent => ⟨exec_perstNAssert_shows hpresent, exec_perstNRelease_shows hpresent⟩
  case linkUp =>
    intro p width rate flit lopt s hpresent hperst hdown hcore hclk hphase hwidth hrate hlanes hloop hlost
    exact exec_hostLinkUp_shows hpresent hperst hdown hcore hclk hphase hwidth hrate hlanes hloop hlost flit lopt
  case linkDown =>
    exact fun p s hup => ⟨⟨_, rfl, State.hostLinkDown_shows hup⟩, fun d3 => ⟨_, exec_powerStateChange_linkUp hup d3, rfl⟩⟩
  case retrain => exact fun path p s hmgr hpresent => exec_hpRetrain_shows hmgr hpresent
  case decoder =>
    intro p k base size skip ways gran lock s hup hfree hways hgran hsize hunit hbase hcap
    exact exec_hdmDecoderCommit_shows hup hfree hways hgran hsize hunit hbase hcap lock
  case integrity => exact fun p mem s hsecure hcore hwire => exec_ideIntegrityFailure_shows hsecure hcore hwire
  case keys =>
    intro p id mem s hmail hsession
    exact ⟨exec_ideKm_prog hmail hsession mem, fun k => exec_ideKm_go hmail hsession mem, exec_ideKm_stop hmail hsession mem⟩
  case spdm =>
    intro p s hmail
    refine ⟨⟨_, exec_spdmRequest_version hmail, State.emit_mem _ _, by simp⟩, exec_spdmRequest_keyExchange hmail, fun id => ?_⟩
    exact exec_spdmRequest_endSession hmail
  case window => exact fun path p v s h => exec_hpBwWinWrite_shows h v
  case windowEnd => exact fun p s hpresent => exec_bandwidthWindowEnd_shows hpresent

end Sys2Proof.Machine
end

section
/-! SUPPORT. The packets of mirroring, repair and the token: a counterexample to the statement about REP_REQ
(02_memory_model.md R72; 11_twin_pair.md R339). -/
set_option autoImplicit false
namespace Sys2Proof.Machine

/-! ### REP_REQ for a cached line of a tile that is poisoned whole -/

/-- The twin is attached, line 0 is cached without poison, and its tile is poisoned whole (R72). -/
def cachedLineOfPoisonedTile : State :=
  { serviceState [(F.LC_CTL.EN, 1), (F.CAR_STS.LINK_UP, 1), (F.CAR_STS.PAIRED, 1)] with
    lc.ways := [(0, { Way.none with v := true, data := 0x5A })], te.map := [(0, { TEntry.unmapped with ptile := true })] }

/-- REP_RSP carries FAIL and no data; the credit of the request follows it. -/
theorem repReq_fails_in_poisoned_tile :
    cachedLineOfPoisonedTile.leaves (.repReq 0 0 [])
      (fun t => t.out == [.caravan ⟨0x31, 0, [1, 0]⟩, .caravan ⟨0x04, 0, [0, 0, 1, 0]⟩]) = true := by decide +kernel

/-- Refutes O18: a line of a tile that is poisoned whole reads with poison even where its cached copy has none, so
REP_RSP answers FAIL and not the way's data. -/
theorem not_mirrorRepairAndTokenPackets : ¬ Obligations.MirrorRepairAndTokenPackets := by
  unfold Obligations.MirrorRepairAndTokenPackets
  rintro ⟨-, -, -, -, hrepair, -⟩
  obtain ⟨t, hexec, hsent⟩ := hrepair 0 0 0 cachedLineOfPoisonedTile (by decide +kernel) (by decide +kernel)
    (by decide +kernel) (by decide +kernel) (by decide +kernel) (by decide +kernel) (by decide +kernel)
  have hfail : t.out = [.caravan ⟨0x31, 0, [1, 0]⟩, .caravan ⟨0x04, 0, [0, 0, 1, 0]⟩] :=
    eq_of_beq (State.test_of_leaves repReq_fails_in_poisoned_tile hexec)
  simp [hfail] at hsent

end Sys2Proof.Machine
end

section
/-! SUPPORT. The commands of the line cache and of its walker (05_on_die_caches.md R148–R158, R163). -/

set_option autoImplicit false
namespace Sys2Proof.Machine

/-! ### Released lines, where no request waits -/

theorem State.release_same (s : State) (n : Nat) : Same 137506129930 s (s.release n) := State.release_keeps rfl (Same.refl _ s)

theorem State.unhold_reqs (s : State) (n : Nat) : (s.unhold n).rt.reqs = s.rt.reqs := by
  unfold State.unhold
  extract_lets gone rt t u
  have hback : Same 67174410 t (u.crd 0 (gone.filter fun k => k == 9).length 0 0) :=
    State.crd_keeps rfl (same_foldl (Same.refl _ t) fun _ _ h => State.fwdReturn_keeps rfl h)
  have ht : t.rt.reqs = s.rt.reqs := rfl
  exact (congrArg RtSt.reqs (hback.rt rfl)).trans ht

theorem State.grant_reqs (s : State) : s.grant.rt.reqs = s.rt.reqs := rfl

theorem State.letOne_of_noReqs {s : State} (h : s.rt.reqs = []) : s.letOne = s := by simp [State.letOne, h]

/-- A release with no request in the router leaves it without one. -/
theorem State.release_noReqs {s : State} (h : s.rt.reqs = []) (n : Nat) : (s.release n).rt.reqs = [] := by
  unfold State.release
  extract_lets t u
  have ht : t.rt.reqs = [] := (congrArg RtSt.reqs ((s.setDirty (s.dirty - n)).tsStatus_same.rt rfl)).trans h
  have hu : u.rt.reqs = [] := List.foldlRecOn _ _ (motive := fun x : State => x.rt.reqs = []) ht
    fun x hx _ _ => by rw [State.letOne_of_noReqs hx]; exact hx
  split
  · split
    · exact hu
    · rw [State.unhold_reqs, hu]
  · have hall : t.unholdAll.rt.reqs = [] := by rw [State.unholdAll, State.grant_reqs, State.unhold_reqs, ht]
    simp [State.letAll, hall]

@[simp] theorem State.set_lc (s : State) (f : Fld) (v : Nat) : (s.set f v).lc = s.lc := rfl
@[simp] theorem State.setBit_lc (s : State) (f : Fld) (b : Bool) : (s.setBit f b).lc = s.lc := rfl

theorem State.regAcc_bit (s : State) (page : Nat) {f : Fld} (hf : bookReg f.off = false) : (s.regAcc page).bit f = s.bit f :=
  (s.regAcc_book page).bit hf

/-! ### LC_CTL (R155, R156, R158, R163) -/

section
variable {path : Path} {s : State}

/-- The line cache off, after a counted access. -/
def State.lcOff (s : State) : State := (s.regAcc 7).setBit F.LC_CTL.EN false

/-- The dirty lines of a line cache that was turned off leave the count; they are held. -/
def State.lcHeld (s : State) : State :=
  (s.lcOff.release (if s.lcOff.lc.keptUncharged then 0 else s.lcOff.lcDirty)).setBit F.LC_STS.STALE_HELD true

theorem State.lcOff_lc (s : State) : s.lcOff.lc = s.lc := by simp [State.lcOff]

theorem State.lcOff_reqs (s : State) : s.lcOff.rt.reqs = s.rt.reqs := by
  show (s.regAcc 7).rt.reqs = _
  simp

theorem State.lcOff_en (s : State) : s.lcOff.bit F.LC_CTL.EN = false := State.bit_setBit_self _ _ _ (by decide) (by decide)

theorem State.lcHeld_shows (s : State) :
    s.lcHeld.bit F.LC_CTL.EN = false ∧ s.lcHeld.lc = s.lc ∧ s.lcHeld.bit F.LC_STS.STALE_HELD = true := by
  have hrel := s.lcOff.release_same (if s.lcOff.lc.keptUncharged then 0 else s.lcOff.lcDirty)
  refine ⟨?_, (hrel.lc rfl).trans s.lcOff_lc, State.bit_setBit_self _ _ _ (by decide) (by decide)⟩
  exact (State.bit_setBit_ne _ _ _ _ (by decide) (by decide)).trans ((hrel.bit rfl rfl).trans s.lcOff_en)

theorem exec_lcEnClear (hreqs : s.rt.reqs = []) (hmgr : s.isManager path = true) (hen : s.bit F.LC_CTL.EN = true)
    (hsafe : s.bit F.LC_STS.SAFE_BUSY = false) : exec (.lcEnClear path) s =
      .next (if s.lc.ways.all (fun x => !x.2.v) then s.lcOff else s.lcHeld) := by
  have hreqs' : s.lcOff.rt.reqs = [] := s.lcOff_reqs.trans hreqs
  have hheld : s.lcHeld.rt.reqs = [] := State.release_noReqs hreqs' _
  refine (if_pos ?_).trans ?_
  · rw [State.regAcc_isManager, State.regAcc_bit _ _ rfl, State.regAcc_bit _ _ rfl, hmgr, hen, hsafe]
    rfl
  · show (if s.lcOff.lc.ways.all (fun x => !x.2.v) then Host.Outcome.next s.lcOff.pump else .next s.lcHeld.pump) = _
    rw [State.pump_of_noReqs hreqs', State.pump_of_noReqs hheld, s.lcOff_lc]
    split <;> rfl

theorem exec_lcEnClear_shows (hreqs : s.rt.reqs = []) (hmgr : s.isManager path = true) (hen : s.bit F.LC_CTL.EN = true)
    (hsafe : s.bit F.LC_STS.SAFE_BUSY = false) : ∃ t, exec (.lcEnClear path) s = .next t ∧ t.bit F.LC_CTL.EN = false ∧
      t.lc.ways = s.lc.ways ∧ ((∃ x ∈ s.lc.ways, x.2.v = true) → t.bit F.LC_STS.STALE_HELD = true) := by
  refine ⟨_, exec_lcEnClear hreqs hmgr hen hsafe, ?_⟩
  split
  · next hnone =>
    refine ⟨s.lcOff_en, congrArg LcSt.ways s.lcOff_lc, fun ⟨x, hx, hv⟩ => ?_⟩
    have hinvalid := List.all_eq_true.mp hnone x hx
    simp [hv] at hinvalid
  · obtain ⟨hoff, hlc, hstale⟩ := s.lcHeld_shows
    exact ⟨hoff, congrArg LcSt.ways hlc, fun _ => hstale⟩

/-- Held lines are charged again, their record is written. -/
def State.lcRecharge (s : State) (n : Nat) : State :=
  (s.charge (if s.lc.keptUncharged then 0 else n)).tsStatus.overEnter.roll 0x0401 0 7 0 n 0

theorem State.lcRecharge_same (s : State) (n : Nat) : Same 137506062856 s (s.lcRecharge n) :=
  State.roll_keeps rfl (State.overEnter_keeps rfl (State.tsStatus_keeps rfl (State.charge_keeps rfl (Same.refl _ s))))

theorem State.lcEnable_shows (s : State) :
    s.lcEnable.bit F.LC_CTL.EN = true ∧ s.lcEnable.lc = s.lc ∧ s.lcEnable.bit F.LC_STS.STALE_HELD = false ∧
    (s.bit F.LC_STS.STALE_HELD = true → s.lcEnable.bit F.LC_STS.STALE_REENABLED = true) := by
  let on := s.setBit F.LC_CTL.EN true
  have hon : on.bit F.LC_CTL.EN = true := State.bit_setBit_self _ _ _ (by decide) (by decide)
  by_cases hstale : s.bit F.LC_STS.STALE_HELD = true
  · let shown := (on.setBit F.LC_STS.STALE_HELD false).setBit F.LC_STS.STALE_REENABLED true
    have hall : s.lcEnable = shown.lcRecharge on.lcDirty := if_pos hstale
    have hsame := shown.lcRecharge_same on.lcDirty
    rw [hall, hsame.bit rfl rfl, hsame.bit rfl rfl, hsame.bit rfl rfl, hsame.lc rfl]
    refine ⟨?_, rfl, ?_, fun _ => State.bit_setBit_self _ _ _ (by decide) (by decide)⟩
    · rw [State.bit_setBit_ne _ _ _ _ (by decide) (by decide), State.bit_setBit_ne _ _ _ _ (by decide) (by decide), hon]
    · rw [State.bit_setBit_ne _ _ _ _ (by decide) (by decide), State.bit_setBit_self _ _ _ (by decide) (by decide)]
  · have hall : s.lcEnable = on := if_neg hstale
    rw [hall]
    refine ⟨hon, rfl, ?_, fun h => absurd h hstale⟩
    exact (State.bit_setBit_ne _ _ _ _ (by decide) (by decide)).trans (Bool.eq_false_iff.mpr hstale)

theorem exec_lcEnSet_shows (hmgr : s.isManager path = true) (hen : s.bit F.LC_CTL.EN = false)
    (hsafe : s.bit F.LC_STS.SAFE_BUSY = false) (htest : s.bit F.SIR_CHK_STS.ACTIVE = false) :
    ∃ t, exec (.lcEnSet path) s = .next t ∧ t.bit F.LC_CTL.EN = true ∧ t.lc = s.lc ∧
    t.bit F.LC_STS.STALE_HELD = false ∧ (s.bit F.LC_STS.STALE_HELD = true → t.bit F.LC_STS.STALE_REENABLED = true) := by
  have hexec : exec (.lcEnSet path) s = .next (s.regAcc 7).lcEnable := by
    refine (if_pos ?_).trans (if_neg ?_)
    · rw [State.regAcc_isManager, State.regAcc_bit _ _ rfl, State.regAcc_bit _ _ rfl, hmgr, hen, hsafe]
      rfl
    · rw [State.regAcc_bit _ _ rfl, htest]
      simp
  obtain ⟨hon, hlc, hstale, hagain⟩ := (s.regAcc 7).lcEnable_shows
  exact ⟨_, hexec, hon, hlc.trans (by simp), hstale, fun h => hagain ((s.regAcc_bit 7 rfl).trans h)⟩

theorem exec_safeDisable_shows (hmgr : s.isManager path = true) (hen : s.bit F.LC_CTL.EN = true)
    (hsafe : s.bit F.LC_STS.SAFE_BUSY = false) : ∃ t, exec (.safeDisable path) s = .next t ∧
    t.regsAre ((s.setBit F.LC_STS.SAFE_BUSY true).setBit F.LC_CTL.SAFE_DISABLE true) ∧
    t.lc = { s.lc with walkQ := s.lc.walkQ ++ [⟨.safeDisable, 0, imageLines, none, 0, 0, 0, 0, false⟩] } := by
  refine ⟨_, if_pos ?_, ?_, ?_⟩
  · rw [State.regAcc_isManager, State.regAcc_bit _ _ rfl, State.regAcc_bit _ _ rfl, hmgr, hen, hsafe]
    rfl
  · refine (State.pcEvent_book _ _ _ _).trans ?_
    have hacc : (((s.regAcc 7).setBit F.LC_STS.SAFE_BUSY true).setBit F.LC_CTL.SAFE_DISABLE true).regsAre
        ((s.setBit F.LC_STS.SAFE_BUSY true).setBit F.LC_CTL.SAFE_DISABLE true) :=
      State.regsAre_setBit rfl (State.regsAre_setBit rfl (s.regAcc_book 7))
    exact hacc
  · simp [State.leased]

end

end Sys2Proof.Machine
end

section
/-! SUPPORT. The start of a range operation by the registers (05_on_die_caches.md R150, R151, Table 5.4). -/

set_option autoImplicit false
namespace Sys2Proof.Machine

/-! ### The start of a range operation (R150, R151) -/

section
variable {s t : State}

/-- What the errors of Table 5.4 are read from: the registers of this and the region page, the device state and the time of its domains. -/
def State.errSame (t s : State) : Prop := t.regsAre s ∧ t.rd R.FC_STS = s.rd R.FC_STS ∧ t.te = s.te ∧ t.dom = s.dom

theorem State.regAcc_fcSts (s : State) (page : Nat) : (s.regAcc page).rd R.FC_STS = s.rd R.FC_STS := by
  unfold State.regAcc State.pcItem
  split
  · rfl
  · rw [State.pcEvent_fcSts, State.pcEvent_fcSts, State.pcEvent_fcSts]

theorem State.regAcc_errSame (s : State) (page : Nat) : (s.regAcc page).errSame s :=
  ⟨s.regAcc_book page, s.regAcc_fcSts page, by simp, by simp⟩

theorem State.errSame.booting (h : t.errSame s) : t.booting = s.booting := by
  obtain ⟨-, hfc, -, hdom⟩ := h
  simp only [State.booting, State.memActive, hdom, State.bit, State.get, hfc]

theorem State.errSame.draining (h : t.errSame s) : t.draining = s.draining := by
  obtain ⟨hregs, hfc, -, -⟩ := h
  have hbit (f : Fld) (hf : f.off = R.FC_STS) : t.bit f = s.bit f := by rw [State.bit, State.bit, State.get, State.get, hf, hfc]
  simp only [State.draining, hregs.get (f := F.PSQ_STS.PHASE) rfl, hbit F.FC_STS.CONTAINING rfl, hbit F.FC_STS.HELD rfl]

theorem State.errSame.roState (h : t.errSame s) : t.roState = s.roState := by
  obtain ⟨hregs, -, hte, -⟩ := h
  simp only [State.roState, hte, hregs.bit (f := F.TE_UPK_STS.CRITICAL) rfl, hregs.bit (f := F.TE_STS.SEQ_RO) rfl]

theorem State.regsAre.covered (h : t.regsAre s) (first count : Nat) {p q : Nat → Bool} (hpq : ∀ k, p k = q k) :
    t.covered first count p = s.covered first count q := by
  have hpage := h.regionPageIs
  unfold State.covered State.rgFirst State.rgLines
  simp only [hpq, fun k => hpage.bit (f := F.RT_RG_CTL.EN k) (regionReg_ctl k), fun k => hpage.num (regionReg_base k),
    fun k => hpage.num (regionReg_size k)]

theorem State.regsAre.capLines (h : t.regsAre s) : t.capLines = s.capLines := by
  rw [State.capLines, State.capLines, h.num rfl]

theorem State.errSame.rangeErr (h : t.errSame s) (op first count : Nat) (all busy : Bool) :
    t.rangeErr op first count all busy = s.rangeErr op first count all busy := by
  have hregs : t.regsAre s := h.1
  have hlock (k : Nat) : t.bit (F.RT_RG_CTL.LOCK_OK k) = s.bit (F.RT_RG_CTL.LOCK_OK k) := hregs.regionPageIs.bit (regionReg_ctl k)
  unfold State.rangeErr State.fenced
  rw [hregs.capLines, h.booting, h.draining, h.roState, hregs.covered first count hlock, hregs.covered first count (fun _ => rfl),
    hregs.bit (f := F.LC_CTL.EN) rfl, hregs.bit (f := F.CAR_STS.FENCED) rfl, hregs.bit (f := F.LC_STS.STALE_HELD) rfl]

theorem State.rangeErr_le (s : State) (op first count : Nat) (all busy : Bool) : s.rangeErr op first count all busy ≤ 6 := by
  unfold State.rangeErr
  repeat' split
  all_goals decide

theorem State.rangeErr_notBusy (s : State) (op first count : Nat) (all : Bool) : s.rangeErr op first count all false ≠ 1 := by
  unfold State.rangeErr
  rw [if_neg (by decide)]
  repeat' split
  all_goals decide

/-- The first line of the range that the registers name. -/
def State.rangeFirst (s : State) (all : Bool) : Nat :=
  if all then 0 else (s.num R.LC_RANGE_BASE_LO + 2 ^ 32 * (s.num R.LC_RANGE_BASE_HI % 4096)) / 64

/-- Its number of lines. -/
def State.rangeCount (s : State) (all : Bool) : Nat :=
  if all then s.capLines else s.num R.LC_RANGE_LEN_LO + 2 ^ 32 * (s.num R.LC_RANGE_LEN_HI % 128)

/-- The error of the range that the registers name. -/
def State.regRangeErr (s : State) (op : Nat) (all : Bool) : Nat :=
  s.rangeErr op (s.rangeFirst all) (s.rangeCount all) all (s.bit F.LC_RANGE_STS.BUSY)

theorem State.regsAre.rangeFirst (h : t.regsAre s) (all : Bool) : t.rangeFirst all = s.rangeFirst all := by
  unfold State.rangeFirst
  rw [h.num (o := R.LC_RANGE_BASE_LO) rfl, h.num (o := R.LC_RANGE_BASE_HI) rfl]

theorem State.regsAre.rangeCount (h : t.regsAre s) (all : Bool) : t.rangeCount all = s.rangeCount all := by
  unfold State.rangeCount
  rw [h.num (o := R.LC_RANGE_LEN_LO) rfl, h.num (o := R.LC_RANGE_LEN_HI) rfl, h.capLines]

theorem State.errSame.regRangeErr (h : t.errSame s) (op : Nat) (all : Bool) : t.regRangeErr op all = s.regRangeErr op all := by
  rw [State.regRangeErr, h.rangeErr, h.1.rangeFirst, h.1.rangeCount, h.1.bit (f := F.LC_RANGE_STS.BUSY) rfl, State.regRangeErr]

theorem State.regRangeErr_of_idle (h : s.bit F.LC_RANGE_STS.BUSY = false) (op : Nat) (all : Bool) :
    s.regRangeErr op all = s.rangeErr op (s.rangeFirst all) (s.rangeCount all) all false := by
  rw [State.regRangeErr, h]

/-- The operation that a manager asked for, as LC_RANGE_CTL shows it. -/
def State.rangeAsked (s : State) (op : Nat) (ovr all : Bool) : State :=
  ((s.set F.LC_RANGE_CTL.OP op).setBit F.LC_RANGE_CTL.OVERRIDE_LOCK ovr).setBit F.LC_RANGE_CTL.ALL all

/-- The operation refused with an error. -/
def State.rangeRefused (s : State) (op : Nat) (ovr all : Bool) : State :=
  (s.rangeAsked op ovr all).set F.LC_RANGE_STS.ERR (s.regRangeErr op all)

/-- The registers of an operation that starts. -/
def State.rangeBegun (s : State) (op : Nat) (ovr all : Bool) : State :=
  ((s.rangeAsked op ovr all).wrN R.LC_RANGE_STS 1).setBit F.LC_RANGE_CTL.START true

/-- The walk of the range that the registers name. -/
def State.rangeWalk (s : State) (op : Nat) (ovr all : Bool) : WalkOp :=
  ⟨.range op ovr, s.rangeFirst all, s.rangeCount all, none, 0, 0, 0, 0, false⟩

/-- The operation started: its walk is queued. -/
def State.rangeQueued (s : State) (op : Nat) (ovr all : Bool) : State :=
  { (s.rangeBegun op ovr all).zero [R.LC_RANGE_DONE, R.LC_RANGE_SKIPPED] with
      lc.walkQ := (s.rangeBegun op ovr all).lc.walkQ ++ [s.rangeWalk op ovr all] }

theorem State.rangeStart_reg {path : Path} {op : Nat} {ovr all : Bool} (hmgr : s.isManager path = true)
    (herr : (s.regAcc 7).regRangeErr op all ≠ 1) : s.rangeStart op (.reg path ovr all) =
      if (s.regAcc 7).regRangeErr op all ≠ 0 then (s.regAcc 7).rangeRefused op ovr all else ((s.regAcc 7).rangeQueued op ovr all).leased 7 := by
  have hnotMgr : ¬ (!(s.regAcc 7).isManager path) = true := by simp [State.regAcc_isManager, hmgr]
  exact (if_neg hnotMgr).trans (if_neg herr)

theorem State.rangeRefused_shows (s : State) (op : Nat) (ovr all : Bool) :
    (s.rangeRefused op ovr all).get F.LC_RANGE_STS.ERR = s.regRangeErr op all ∧ (s.rangeRefused op ovr all).lc = s.lc := by
  refine ⟨(State.get_set_self _ _ _ (by decide)).trans (Nat.mod_eq_of_lt ?_), rfl⟩
  exact Nat.lt_of_le_of_lt (s.rangeErr_le _ _ _ _ _) (by decide)

theorem State.rangeBegun_shows (s : State) (op : Nat) (ovr all : Bool) :
    (s.rangeBegun op ovr all).bit F.LC_RANGE_STS.BUSY = true ∧ (s.rangeBegun op ovr all).bit F.LC_RANGE_CTL.START = true := by
  refine ⟨(State.bit_setBit_ne _ _ _ _ (by decide) (by decide)).trans ?_, State.bit_setBit_self _ _ _ (by decide) (by decide)⟩
  exact congrArg (fun w => fldOf F.LC_RANGE_STS.BUSY w != 0) (State.rd_wr_self _ _ _)

theorem State.rangeQueued_rd (s : State) (op : Nat) (ovr all : Bool) (o : Nat) : (s.rangeQueued op ovr all).rd o =
    if o ∈ [R.LC_RANGE_DONE, R.LC_RANGE_SKIPPED] then 0 else (s.rangeBegun op ovr all).rd o :=
  (s.rangeBegun op ovr all).rd_zero _ o

theorem State.leased_regs (s : State) (page : Nat) : (s.leased page).regsAre s := s.pcEvent_book _ _ _

theorem State.leased_lc (s : State) (page : Nat) : (s.leased page).lc = s.lc := by simp [State.leased]

theorem State.rangeQueued_shows (s : State) (op : Nat) (ovr all : Bool) (ht : ((s.rangeQueued op ovr all).leased 7) = t) :
    t.bit F.LC_RANGE_STS.BUSY = true ∧ t.bit F.LC_RANGE_CTL.START = true ∧ t.rd R.LC_RANGE_DONE = 0 ∧
    t.rd R.LC_RANGE_SKIPPED = 0 ∧ t.lc.walkQ = s.lc.walkQ ++ [s.rangeWalk op ovr all] := by
  obtain ⟨hbusy, hstart⟩ := s.rangeBegun_shows op ovr all
  have hrd {o : Nat} (ho : bookReg o = false) : t.rd o =
      if o ∈ [R.LC_RANGE_DONE, R.LC_RANGE_SKIPPED] then 0 else (s.rangeBegun op ovr all).rd o :=
    ht ▸ (State.leased_regs _ 7 o ho).trans (s.rangeQueued_rd op ovr all o)
  refine ⟨?_, ?_, hrd rfl, hrd rfl, ?_⟩
  · exact (congrArg (fun w => fldOf F.LC_RANGE_STS.BUSY w != 0) (hrd rfl)).trans hbusy
  · exact (congrArg (fun w => fldOf F.LC_RANGE_CTL.START w != 0) (hrd rfl)).trans hstart
  · rw [← ht, State.leased_lc]
    rfl

/-- A range operation of the registers either shows its error and leaves the line cache, or is queued for the walker. -/
theorem State.rangeStart_shows {path : Path} (op : Nat) (ovr all : Bool) (hmgr : s.isManager path = true)
    (hbusy : s.bit F.LC_RANGE_STS.BUSY = false) (ht : s.rangeStart op (.reg path ovr all) = t) :
    (s.rangeErr op (s.rangeFirst all) (s.rangeCount all) all false = 0 → t.bit F.LC_RANGE_STS.BUSY = true ∧
      t.bit F.LC_RANGE_CTL.START = true ∧ t.rd R.LC_RANGE_DONE = 0 ∧ t.rd R.LC_RANGE_SKIPPED = 0 ∧
      t.lc.walkQ = s.lc.walkQ ++ [⟨.range op ovr, s.rangeFirst all, s.rangeCount all, none, 0, 0, 0, 0, false⟩]) ∧
    (s.rangeErr op (s.rangeFirst all) (s.rangeCount all) all false ≠ 0 →
      t.get F.LC_RANGE_STS.ERR = s.rangeErr op (s.rangeFirst all) (s.rangeCount all) all false ∧ t.lc = s.lc) := by
  have hsame := s.regAcc_errSame 7
  have hlc : (s.regAcc 7).lc = s.lc := by simp
  have herr : (s.regAcc 7).regRangeErr op all = s.rangeErr op (s.rangeFirst all) (s.rangeCount all) all false :=
    (hsame.regRangeErr op all).trans (State.regRangeErr_of_idle hbusy op all)
  subst ht
  rw [State.rangeStart_reg hmgr (by rw [herr]; exact s.rangeErr_notBusy _ _ _ _), herr]
  constructor
  · intro hok
    rw [if_neg (not_not_intro hok), ← hsame.1.rangeFirst, ← hsame.1.rangeCount, ← hlc]
    exact State.rangeQueued_shows _ op ovr all rfl
  · intro hbad
    rw [if_pos hbad, ← herr, ← hlc]
    exact (s.regAcc 7).rangeRefused_shows op ovr all

end
end Sys2Proof.Machine
end

section
/-! SUPPORT. The line cache's walker: the operation it takes, INVALIDATE, the end of a walk (05_on_die_caches.md R148, R152, R154, R158, R163). -/

set_option autoImplicit false
namespace Sys2Proof.Machine

/-! ### The walker takes an operation (R66, R154) -/

section
variable {s : State} {o : WalkOp}

/-- A secure discard's pass over the line cache. -/
def WalkOp.isPass (o : WalkOp) : Bool := match o.kind with | .discard _ => true | _ => false

/-- The walker takes an operation out of the queue. -/
def State.walkTaken (s : State) (o : WalkOp) : State :=
  ({ s with lc.walker := some o, lc.walkQ := s.lc.walkQ.erase o } : State).pcEvent 10 2 1

theorem State.walkTaken_lc (s : State) (o : WalkOp) :
    (s.walkTaken o).lc = { s.lc with walker := some o, walkQ := s.lc.walkQ.erase o } := by simp [State.walkTaken]

theorem exec_walkerTakeOperation (hrun : s.fencedSrc 10 = false) (hidle : s.lc.walker = none)
    (ho : (s.lc.walkQ.find? WalkOp.isPass).or s.lc.walkQ.head? = some o) : exec .walkerTakeOperation s =
      .next (if o.isReg then (s.walkTaken o).setBit F.LC_RANGE_STS.RUN true else s.walkTaken o) := by
  have hsel : (match s.lc.walkQ.find? WalkOp.isPass with | some p => some p | none => s.lc.walkQ.head?) = some o := by
    rw [← ho]
    cases s.lc.walkQ.find? WalkOp.isPass <;> rfl
  show execWalkerTakeOperation s = _
  unfold execWalkerTakeOperation
  rw [if_neg (by simp [hrun]), hidle]
  dsimp only
  split
  · next hnone => exact absurd (hnone.symm.trans hsel) (by simp)
  · next p hp => 
    obtain rfl : p = o := Option.some.inj (hp.symm.trans hsel)
    rfl

theorem exec_walkerTakeOperation_shows (hrun : s.fencedSrc 10 = false) (hidle : s.lc.walker = none)
    (ho : (s.lc.walkQ.find? WalkOp.isPass).or s.lc.walkQ.head? = some o) : ∃ t, exec .walkerTakeOperation s = .next t ∧
      t.lc.walker = some o ∧ t.lc.walkQ = s.lc.walkQ.erase o ∧ (o.isReg = true → t.bit F.LC_RANGE_STS.RUN = true) := by
  have hlc := s.walkTaken_lc o
  refine ⟨_, exec_walkerTakeOperation hrun hidle ho, ?_⟩
  split
  · exact ⟨congrArg LcSt.walker hlc, congrArg LcSt.walkQ hlc, fun _ => State.bit_setBit_self _ _ _ (by decide) (by decide)⟩
  · next hreg => exact ⟨congrArg LcSt.walker hlc, congrArg LcSt.walkQ hlc, fun h => absurd h hreg⟩

/-! ### A way emptied -/

theorem State.way_setWay (s : State) (set w v : Nat) (x : Way) :
    (s.setWay set w x).way set v = if v = w then x.sealed else s.way set v := by
  show sget Way.none (sset Way.none s.lc.ways (16 * set + w) x.sealed) (16 * set + v) = _
  rw [sget_sset]
  simp [State.way]

theorem State.way_wayFetch (s : State) (set w i v : Nat) (on : Bool) : (s.wayFetch set w on).way i v = s.way i v := rfl

theorem Way.sealed_of_invalid {x : Way} (h : x.v = false) : x.sealed = Way.none := by
  unfold Way.sealed
  rw [h]
  exact if_pos rfl

/-- A way emptied, before the counts follow. -/
def State.lcDropped (s : State) (set w : Nat) : State := (s.setWay set w Way.none).wayFetch set w false

/-- A way emptied, its lock released. -/
def State.lcUnlocked (s : State) (set w : Nat) : State :=
  if (s.way set w).v && (s.way set w).l then (s.lcDropped set w).subCnt R.LC_LOCK_CNT 1 else s.lcDropped set w

/-- A way emptied, its dirty line counted out. -/
def State.lcLessDirty (s : State) (set w : Nat) : State := (s.lcUnlocked set w).subCnt R.LC_DIRTY_CNT 1

theorem State.lcClear_eq (s : State) (set w : Nat) : s.lcClear set w =
    (if (s.way set w).v && (s.way set w).d then
      if (s.lcLessDirty set w).bit F.LC_STS.STALE_HELD || (s.lcLessDirty set w).lc.keptUncharged then s.lcLessDirty set w
      else (s.lcLessDirty set w).release 1
    else s.lcUnlocked set w).staleShow := rfl

/-- The counts that follow an emptied way leave the ways. -/
theorem State.lcClear_same (s : State) (set w : Nat) : Same 171865868298 (s.lcDropped set w) (s.lcClear set w) := by
  have hlock : Same 171865868298 (s.lcDropped set w) (s.lcUnlocked set w) :=
    same_ite (State.subCnt_keeps rfl (.inr rfl) (Same.refl _ _)) (Same.refl _ _)
  have hdirty : Same 171865868298 (s.lcDropped set w) (s.lcLessDirty set w) := State.subCnt_keeps rfl (.inr rfl) hlock
  rw [State.lcClear_eq]
  exact State.staleShow_keeps rfl (same_ite (same_ite hdirty (State.release_keeps rfl hdirty)) hlock)

theorem State.way_lcClear (s : State) (set w v : Nat) :
    (s.lcClear set w).way set v = if v = w then Way.none else s.way set v := by
  rw [State.way_congr ((s.lcClear_same set w).lc rfl), State.lcDropped, State.way_wayFetch, State.way_setWay,
    Way.sealed_of_invalid rfl]

/-- A way emptied lets no request in where none waits. -/
theorem State.lcClear_reqs (h : s.rt.reqs = []) (set w : Nat) : (s.lcClear set w).rt.reqs = [] := by
  have hstale (u : State) (hu : u.rt.reqs = []) : u.staleShow.rt.reqs = [] :=
    (congrArg RtSt.reqs ((State.staleShow_keeps rfl (Same.refl 34359738376 u)).rt rfl)).trans hu
  have hlock : (s.lcUnlocked set w).rt.reqs = [] := by
    unfold State.lcUnlocked
    split <;> exact h
  have hdirty : (s.lcLessDirty set w).rt.reqs = [] := hlock
  rw [State.lcClear_eq]
  refine hstale _ ?_
  split
  · split
    · exact hdirty
    · exact State.release_noReqs hdirty 1
  · exact hlock

/-! ### INVALIDATE walks a set -/

/-- What INVALIDATE with OVERRIDE_LOCK does to a way (Table 5.3). -/
def State.walkDrop (o : WalkOp) (set : Nat) (s : State) (w : Nat) : State :=
  if (s.way set w).v && o.covers (wayLine set (s.way set w)) then s.lcClear set w else s

/-- A way that INVALIDATE has passed over or emptied. -/
def State.wayGone (o : WalkOp) (set w : Nat) (s : State) : Prop :=
  (s.way set w).v = false ∨ o.covers (wayLine set (s.way set w)) = false

theorem State.walkWay_invalidate (hkind : o.kind = .range 0 true) (set w : Nat) :
    (s.walkWay o set w []).1.1 = true ∧ (s.walkWay o set w []).2 = s.walkDrop o set w := by
  unfold State.walkWay State.walkDrop State.lcInvalidate
  rw [hkind]
  cases hvalid : (s.way set w).v <;> cases hcovers : o.covers (wayLine set (s.way set w)) <;> simp [hvalid, hcovers]

theorem State.walkDrop_gone (o : WalkOp) (set : Nat) (s : State) (w : Nat) : State.wayGone o set w (s.walkDrop o set w) := by
  unfold State.walkDrop State.wayGone
  split
  · rw [State.way_lcClear, if_pos rfl]
    exact .inl rfl
  · next hout =>
    revert hout
    cases (s.way set w).v <;> simp

theorem State.walkDrop_keepsGone {set v : Nat} (h : State.wayGone o set v s) (w : Nat) : State.wayGone o set v (s.walkDrop o set w) := by
  unfold State.walkDrop
  split
  · unfold State.wayGone
    rw [State.way_lcClear]
    split
    · exact .inl rfl
    · exact h
  · exact h

theorem State.walkDrop_reqs (o : WalkOp) (set : Nat) (h : s.rt.reqs = []) (w : Nat) : (s.walkDrop o set w).rt.reqs = [] := by
  unfold State.walkDrop
  split
  · exact State.lcClear_reqs h set w
  · exact h

/-- A walk's visit of one way of a set, from a way on. -/
def State.visitWay (o : WalkOp) (set from_ : Nat) (acc : SetVisit × State) (w : Nat) : SetVisit × State :=
  if !acc.1.ok || decide (w < from_) then acc
  else
    (⟨(acc.2.walkWay o set w []).1.1, if (acc.2.walkWay o set w []).1.1 then w + 1 else w,
      acc.1.done + (acc.2.walkWay o set w []).1.2.1, acc.1.skipped + (acc.2.walkWay o set w []).1.2.2⟩, (acc.2.walkWay o set w []).2)

/-- INVALIDATE from a way on. -/
def State.dropFrom (o : WalkOp) (set from_ : Nat) (s : State) (w : Nat) : State := if w < from_ then s else s.walkDrop o set w

theorem State.visitWay_invalidate (hkind : o.kind = .range 0 true) (set from_ : Nat) {acc : SetVisit × State} (hok : acc.1.ok = true)
    (w : Nat) : (State.visitWay o set from_ acc w).1.ok = true ∧
      (State.visitWay o set from_ acc w).2 = State.dropFrom o set from_ acc.2 w := by
  obtain ⟨hway, hdrop⟩ := acc.2.walkWay_invalidate hkind set w
  unfold State.visitWay State.dropFrom
  by_cases hfrom : w < from_
  · simp [hok, hfrom]
  · simp [hok, hfrom, hway, hdrop]

theorem State.visitWays_invalidate (hkind : o.kind = .range 0 true) (set from_ : Nat) (l : List Nat) {acc : SetVisit × State}
    (hok : acc.1.ok = true) : (l.foldl (State.visitWay o set from_) acc).1.ok = true ∧
      (l.foldl (State.visitWay o set from_) acc).2 = l.foldl (State.dropFrom o set from_) acc.2 := by
  induction l generalizing acc with
  | nil => exact ⟨hok, rfl⟩
  | cons w l ih =>
    obtain ⟨hnext, hstate⟩ := State.visitWay_invalidate hkind set from_ hok w
    rw [List.foldl_cons, List.foldl_cons, ← hstate]
    exact ih hnext

/-- The state after INVALIDATE has visited a set. -/
def State.setDropped (s : State) (o : WalkOp) : State := (s.waysOf o.pos).foldl (State.dropFrom o o.pos o.way) s

theorem State.walkSet_invalidate (s : State) (hkind : o.kind = .range 0 true) :
    (s.walkSet o o.pos o.way []).1.ok = true ∧ (s.walkSet o o.pos o.way []).2 = s.setDropped o :=
  State.visitWays_invalidate hkind o.pos o.way (s.waysOf o.pos) (acc := (⟨true, o.way, o.done, o.skipped⟩, s)) rfl

theorem State.setDropped_reqs (h : s.rt.reqs = []) (o : WalkOp) : (s.setDropped o).rt.reqs = [] :=
  List.foldlRecOn _ _ (motive := fun t : State => t.rt.reqs = []) h fun t ht w _ => by
    unfold State.dropFrom
    split
    · exact ht
    · exact State.walkDrop_reqs o o.pos ht w

theorem State.setDropped_gone (s : State) (hway : o.way = 0) : ∀ w ∈ s.waysOf o.pos, State.wayGone o o.pos w (s.setDropped o) := by
  have hdrop (t : State) (w : Nat) : State.dropFrom o o.pos o.way t w = t.walkDrop o o.pos w := by
    rw [State.dropFrom, hway, if_neg (Nat.not_lt_zero w)]
  refine foldl_reaches (I := fun _ => True) (Q := fun w t => State.wayGone o o.pos w t) (fun _ _ _ _ => trivial) ?_ ?_ trivial
  · intro t w _ _
    rw [hdrop]
    exact State.walkDrop_gone o o.pos t w
  · intro t v w _ hgone
    rw [hdrop]
    exact State.walkDrop_keepsGone hgone w

/-- The operation past the set it has visited. -/
def WalkOp.nextSet (o : WalkOp) (done skipped : Nat) : WalkOp := { o with done := done, skipped := skipped, pos := o.pos + 1, way := 0 }

/-- The walker past the set it has visited, as the registers show it. -/
def State.walkPast (s : State) (o : WalkOp) : State := ({ s with lc.walker := some o } : State).walkShow o 65536

theorem State.walkPast_reqs (s : State) (o : WalkOp) : (s.walkPast o).rt.reqs = s.rt.reqs :=
  congrArg RtSt.reqs ((State.walkShow_keeps rfl (Same.refl 34359738376 ({ s with lc.walker := some o } : State))).rt rfl)

theorem State.walkPast_lc (s : State) (o : WalkOp) : (s.walkPast o).lc = { s.lc with walker := some o } :=
  (State.walkShow_keeps rfl (Same.refl 34359738376 ({ s with lc.walker := some o } : State))).lc rfl

/-- The end of a visit: past the last set the walk ends. -/
def State.visitEnd (s : State) (o : WalkOp) : State :=
  (if o.pos ≥ 65536 then (s.walkPast o).walkEnd o else s.walkPast o).pump

theorem exec_walkerVisit_invalidate (hrun : s.fencedSrc 10 = false) (ho : s.lc.walker = some o) (hkind : o.kind = .range 0 true) :
    ∃ done skipped, exec (.walkerVisit []) s = .next ((s.setDropped o).visitEnd (o.nextSet done skipped)) := by
  obtain ⟨hok, hstate⟩ := s.walkSet_invalidate hkind
  refine ⟨(s.walkSet o o.pos o.way []).1.done, (s.walkSet o o.pos o.way []).1.skipped, ?_⟩
  show execWalkerVisit [] s = _
  unfold execWalkerVisit
  rw [if_neg (by simp [hrun]), ho]
  obtain ⟨kind, first, count, port, pos, way, done, skipped, partl⟩ := o
  subst hkind
  refine (if_neg Bool.false_ne_true).trans ((if_neg (by simp [hok])).trans ?_)
  exact congrArg (fun v : State => Host.Outcome.next (v.visitEnd _)) ((ite_self _).trans hstate)

theorem State.walkEnd_reqs (s : State) (o : WalkOp) : (s.walkEnd o).rt.reqs = s.rt.reqs :=
  congrArg RtSt.reqs ((State.walkEnd_keeps rfl (Same.refl 1133972075018 s)).rt rfl)

theorem State.visitEnd_eq (hreqs : s.rt.reqs = []) (o : WalkOp) :
    s.visitEnd o = if o.pos ≥ 65536 then (s.walkPast o).walkEnd o else s.walkPast o := by
  have hpast : (s.walkPast o).rt.reqs = [] := (s.walkPast_reqs o).trans hreqs
  refine State.pump_of_noReqs ?_
  split
  · exact (State.walkEnd_reqs _ _).trans hpast
  · exact hpast

theorem exec_walkerVisit_set (hreqs : s.rt.reqs = []) (hrun : s.fencedSrc 10 = false) (ho : s.lc.walker = some o)
    (hkind : o.kind = .range 0 true) (hpos : o.pos < 65535) (hway : o.way = 0) :
    ∃ t, exec (.walkerVisit []) s = .next t ∧ (t.lc.walker.map (·.pos)) = some (o.pos + 1) ∧
    ∀ w ∈ s.waysOf o.pos, State.wayGone o o.pos w t := by
  obtain ⟨done, skipped, hexec⟩ := exec_walkerVisit_invalidate hrun ho hkind
  have hmore : ¬ (o.nextSet done skipped).pos ≥ 65536 := by simp only [WalkOp.nextSet]; omega
  have hlc := (s.setDropped o).walkPast_lc (o.nextSet done skipped)
  refine ⟨_, hexec, ?_⟩
  rw [State.visitEnd_eq (State.setDropped_reqs hreqs o), if_neg hmore, hlc]
  refine ⟨rfl, fun w hw => ?_⟩
  have hsame : ((s.setDropped o).walkPast (o.nextSet done skipped)).way o.pos w = (s.setDropped o).way o.pos w := by
    rw [State.way, hlc, State.way]
  have hgone := s.setDropped_gone hway w hw
  unfold State.wayGone at hgone ⊢
  rw [hsame]
  exact hgone

/-! ### The end of a walk (R152, R158) -/

/-- The registers of an operation that has ended. -/
def State.rangeDone (s : State) : State :=
  ((((((({ s with lc.walker := none } : State).pcEvent 10 3 1).setBit F.LC_RANGE_STS.BUSY false).setBit F.LC_RANGE_STS.RUN false).setBit
    F.LC_RANGE_STS.DONE true).setBit F.LC_RANGE_CTL.START false).set F.LC_RANGE_STS.PCT 100).set F.LC_RANGE_STS.ERR 0

theorem State.rangeDone_lc (s : State) : s.rangeDone.lc = { s.lc with walker := none } := by simp [State.rangeDone]

theorem State.rangeDone_shows (s : State) : s.rangeDone.bit F.LC_RANGE_STS.BUSY = false ∧
    s.rangeDone.bit F.LC_RANGE_STS.DONE = true ∧ s.rangeDone.get F.LC_RANGE_STS.PCT = 100 := by
  unfold State.rangeDone
  refine ⟨?_, ?_, ?_⟩
  · rw [State.bit_set_ne _ _ _ _ (by decide) (by decide), State.bit_set_ne _ _ _ _ (by decide) (by decide),
      State.bit_setBit_ne _ _ _ _ (by decide) (by decide), State.bit_setBit_ne _ _ _ _ (by decide) (by decide),
      State.bit_setBit_ne _ _ _ _ (by decide) (by decide), State.bit_setBit_self _ _ _ (by decide) (by decide)]
  · rw [State.bit_set_ne _ _ _ _ (by decide) (by decide), State.bit_set_ne _ _ _ _ (by decide) (by decide),
      State.bit_setBit_ne _ _ _ _ (by decide) (by decide), State.bit_setBit_self _ _ _ (by decide) (by decide)]
  · exact (State.get_set_ne _ _ _ _ (by decide) (by decide)).trans (State.get_set_self _ _ _ (by decide))

/-- The end of a register operation and its record leave the walker idle. -/
theorem State.walkEnd_same (s : State) {op : Nat} {ovr : Bool} (hkind : o.kind = .range op ovr) (hport : o.port = none) :
    Same 67109384 s.rangeDone (s.walkEnd o) := by
  unfold State.walkEnd
  rw [hkind, hport]
  exact same_when (Same.refl _ _) fun t ht => State.roll_keeps rfl ht

theorem exec_walkerVisit_last (hreqs : s.rt.reqs = []) (hrun : s.fencedSrc 10 = false) (ho : s.lc.walker = some o)
    (hkind : o.kind = .range 0 true) (hport : o.port = none) (hpos : o.pos = 65535) :
    ∃ t, exec (.walkerVisit []) s = .next t ∧ t.lc.walker = none ∧ t.bit F.LC_RANGE_STS.BUSY = false ∧
    t.bit F.LC_RANGE_STS.DONE = true ∧ t.get F.LC_RANGE_STS.PCT = 100 := by
  obtain ⟨done, skipped, hexec⟩ := exec_walkerVisit_invalidate hrun ho hkind
  have hlast : (o.nextSet done skipped).pos ≥ 65536 := by simp only [WalkOp.nextSet]; omega
  refine ⟨_, hexec, ?_⟩
  rw [State.visitEnd_eq (State.setDropped_reqs hreqs o), if_pos hlast]
  have hsame := ((s.setDropped o).walkPast (o.nextSet done skipped)).walkEnd_same (o := o.nextSet done skipped) hkind hport
  rw [hsame.bit rfl rfl, hsame.bit rfl rfl, hsame.get rfl rfl, hsame.lc rfl, State.rangeDone_lc]
  exact ⟨rfl, State.rangeDone_shows _⟩

/-! ### The end of the walk after a reset (R163) -/

theorem exec_lcCheckWalkDone_shows (found : List (Fin 65536 × Upset)) (hup : s.coreUp = true)
    (hcheck : s.bit F.LC_STS.CHECK_BUSY = true) :
    ∃ t, exec (.lcCheckWalkDone found) s = .next t ∧ t.bit F.LC_STS.CHECK_BUSY = false ∧
    t.rd R.LC_DIRTY_CNT = BitVec.ofNat 32 (t.lc.ways.filter (fun w => w.2.v && w.2.d)).length ∧
    t.rd R.LC_LOCK_CNT = BitVec.ofNat 32 (t.lc.ways.filter (fun w => w.2.v && w.2.l)).length := by
  refine ⟨_, if_pos (by rw [hup, hcheck]; rfl), State.bit_setBit_self _ _ _ (by decide) (by decide), ?_, ?_⟩
  · exact (State.rd_setBit_ne _ _ _ (by decide)).trans ((State.rd_wrN_ne _ _ (by decide)).trans (State.rd_wr_self _ _ _))
  · exact (State.rd_setBit_ne _ _ _ (by decide)).trans (State.rd_wr_self _ _ _)

end

/-- The six range operations start a walk of their own code. -/
theorem exec_rangeOperation {x : Nat × (RangeSrc → Instr)}
    (hx : x ∈ [(0, Instr.rangeInvalidate), (1, .rangeClean), (2, .rangeCleanInv), (3, .rangeLock), (4, .rangeUnlock), (5, .rangeZero)])
    (src : RangeSrc) (s : State) : exec (x.2 src) s = .next (s.rangeStart x.1 src) := by
  simp only [List.mem_cons, List.not_mem_nil, or_false] at hx
  obtain rfl | rfl | rfl | rfl | rfl | rfl := hx <;> rfl

/-- Settles O11: each command by its own lemma; a range operation by its error, a walk by what it does to one way. -/
theorem lineCacheCommands : Obligations.LineCacheCommands := by
  unfold Obligations.LineCacheCommands
  refine ⟨fun _ _ => exec_lcEnClear_shows, fun _ _ => exec_lcEnSet_shows, fun _ _ => exec_safeDisable_shows, ?_, ?_, ?_,
    fun _ _ => exec_walkerVisit_set, fun _ _ => exec_walkerVisit_last, fun found _ => exec_lcCheckWalkDone_shows found⟩
  · intro x hx path ovr all s hmgr hbusy
    exact ⟨_, exec_rangeOperation hx _ s, State.rangeStart_shows x.1 ovr all hmgr hbusy rfl⟩
  · intro s o hrun hidle hq
    have ho : (s.lc.walkQ.find? WalkOp.isPass).or s.lc.walkQ.head? = some o := by
      rw [hq]
      cases hpass : o.isPass <;> simp [hpass]
    obtain ⟨t, hexec, hwalker, hqueue, hreg⟩ := exec_walkerTakeOperation_shows hrun hidle ho
    exact ⟨t, hexec, hwalker, by simp [hqueue, hq], hreg⟩
  · intro s o p id op b hrun hidle hq ho hp
    have hopass : o.isPass = false := by simp [WalkOp.isPass, ho]
    have hppass : p.isPass = true := by simp [WalkOp.isPass, hp]
    have hne : o ≠ p := fun h => by simp [h, hppass] at hopass
    have hsel : (s.lc.walkQ.find? WalkOp.isPass).or s.lc.walkQ.head? = some p := by simp [hq, hopass, hppass]
    obtain ⟨t, hexec, hwalker, hqueue, -⟩ := exec_walkerTakeOperation_shows hrun hidle hsel
    exact ⟨t, hexec, hwalker, by simp [hqueue, hq, hne]⟩

end Sys2Proof.Machine
end

section
/-! SUPPORT. What the page sequence numbers and the journal leave of the translation engine (06_translation_layer.md R189–R194). -/

set_option autoImplicit false
namespace Sys2Proof.Machine

@[simp] theorem State.set_te (s : State) (f : Fld) (v : Nat) : (s.set f v).te = s.te := rfl
@[simp] theorem State.setBit_te (s : State) (f : Fld) (b : Bool) : (s.setBit f b).te = s.te := rfl
@[simp] theorem State.wrN_te (s : State) (o v : Nat) : (s.wrN o v).te = s.te := rfl

/-! ### The marks of the page sequence numbers (R189, R191) -/

theorem State.when_reads {α : Type} (φ : State → α) {s : State} {c : Bool} {f : State → State} (h : φ (f s) = φ s) :
    φ (s.when c f) = φ s := by
  unfold State.when
  split
  · exact h
  · rfl

theorem State.enterReadOnly_same (s : State) : Same 1791068570378 ({ s with te.readOnly := true } : State) s.enterReadOnly := by
  have hsync (u : State) (v : Nat) : Same 1791068570378 u (u.set F.CAR_RG_STS.IN_SYNC v) := State.set_keeps rfl (.inr rfl) (Same.refl _ u)
  unfold State.enterReadOnly
  exact same_ite (same_ite (upd_tw rfl (State.car_keeps rfl (hsync _ _))) (hsync _ _)) (Same.refl _ _)

/-- What a reading of the state must ignore to be left by the marks of the page sequence numbers: the fields and blocks beside page 8 that
the mask names, SEQ_WARN and SEQ_RO, the read-only state and the increments asked for. -/
structure IgnoresSeqMarks {α : Type} (φ : State → α) : Prop where
  others : ∀ {t u : State}, Same 1791068570378 t u → φ u = φ t
  warn : ∀ t : State, φ (t.setBit F.TE_STS.SEQ_WARN true) = φ t
  seqRo : ∀ t : State, φ (t.setBit F.TE_STS.SEQ_RO true) = φ t
  readOnly : ∀ t : State, φ { t with te.readOnly := true } = φ t
  asked : ∀ (t : State) (n : Nat), φ { t with te.hwAsked := n } = φ t

theorem IgnoresSeqMarks.seqMarks {α : Type} {φ : State → α} (h : IgnoresSeqMarks φ) (s : State) : φ s.seqMarks = φ s := by
  have hwarn (t : State) (n k : Nat) :
      φ ((((t.setBit F.TE_STS.SEQ_WARN true).roll 0x0503 0 8 0 n k).gmDevice [8]).showBudget) = φ t :=
    (h.others (State.showBudget_keeps rfl (State.gmDevice_keeps rfl (State.roll_keeps rfl (Same.refl _ _))))).trans (h.warn t)
  have hro (t : State) (n k : Nat) : φ (((t.setBit F.TE_STS.SEQ_RO true).roll 0x0503 0 8 1 n k).enterReadOnly) = φ t :=
    calc φ (((t.setBit F.TE_STS.SEQ_RO true).roll 0x0503 0 8 1 n k).enterReadOnly)
      _ = φ ((t.setBit F.TE_STS.SEQ_RO true).roll 0x0503 0 8 1 n k) :=
        (h.others (State.enterReadOnly_same _)).trans (h.readOnly _)
      _ = φ (t.setBit F.TE_STS.SEQ_RO true) := h.others (State.roll_keeps rfl (Same.refl _ _))
      _ = φ t := h.seqRo t
  have hasked (t : State) : φ (({ t with te.hwAsked := 1 } : State).pstAdd (.counterInc 3)) = φ t :=
    (h.others (State.pstAdd_keeps rfl (Same.refl _ _))).trans (h.asked t 1)
  unfold State.seqMarks
  exact (State.when_reads φ (hasked _)).trans ((State.when_reads φ (hro _ _ _)).trans (State.when_reads φ (hwarn _ _ _)))

/-- The translation engine without what the marks of the page sequence numbers change. -/
def TeSt.unmarked (e : TeSt) : TeSt := { e with readOnly := false, hwAsked := 0 }

theorem ignoresSeqMarks_unmarked : IgnoresSeqMarks (fun t : State => t.te.unmarked) where
  others h := congrArg TeSt.unmarked (h.te rfl)
  warn t := congrArg TeSt.unmarked (t.setBit_te _ true)
  seqRo t := congrArg TeSt.unmarked (t.setBit_te _ true)
  readOnly _ := rfl
  asked _ _ := rfl

theorem State.seqMarks_unmarked (s : State) : s.seqMarks.te.unmarked = s.te.unmarked := ignoresSeqMarks_unmarked.seqMarks s

/-- What is read of the translation engine apart from the marks is left by them. -/
theorem State.unmarked_reads {α : Type} {s t : State} (h : t.te.unmarked = s.te.unmarked) (φ : TeSt → α)
    (hφ : ∀ e : TeSt, φ e.unmarked = φ e) : φ t.te = φ s.te :=
  (hφ t.te).symm.trans ((congrArg φ h).trans (hφ s.te))

theorem State.seqMarks_rd (s : State) {o : Nat} (hbook : bookReg o = false) (hblk : regBlk o = 9) (ho : o ≠ R.TE_STS) :
    s.seqMarks.rd o = s.rd o :=
  IgnoresSeqMarks.seqMarks (φ := fun t : State => t.rd o)
    ⟨fun h => h.own o hbook (by rw [hblk]; rfl), fun _ => State.rd_setBit_ne _ _ _ ho, fun _ => State.rd_setBit_ne _ _ _ ho,
      fun _ => rfl, fun _ _ => rfl⟩ s

theorem State.seqMarks_mapReady (s : State) : s.seqMarks.bit F.TE_STS.MAP_READY = s.bit F.TE_STS.MAP_READY :=
  IgnoresSeqMarks.seqMarks (φ := fun t : State => t.bit F.TE_STS.MAP_READY)
    ⟨fun h => h.bit rfl rfl, fun _ => State.bit_setBit_ne _ _ _ _ (by decide) (by decide),
      fun _ => State.bit_setBit_ne _ _ _ _ (by decide) (by decide), fun _ => rfl, fun _ _ => rfl⟩ s

theorem State.seqMarks_rt (s : State) : s.seqMarks.rt = s.rt := (State.seqMarks_keeps rfl (Same.refl 1859788055306 s)).rt rfl

/-! ### A page sequence number taken (R187, R189) -/

/-- The next page sequence number taken. -/
def State.seqTaken (s : State) : State := ((s.wrN R.TE_SEQ_LO (s.seqNext + 1)).wrN R.TE_SEQ_HI ((s.seqNext + 1) / 2 ^ 32)).seqMarks

theorem State.seqTake_eq_some {s t : State} {u : SeqUse} {n : Nat} (h : s.seqTake u = some (n, t)) : n = s.seqNext ∧ t = s.seqTaken := by
  unfold State.seqTake at h
  dsimp only at h
  split at h
  · obtain ⟨rfl, rfl⟩ := Prod.mk.inj (Option.some.inj h)
    exact ⟨rfl, rfl⟩
  · contradiction

theorem State.seqTake_journal {s : State} (hhw : s.seqNext < s.seqHw) (hmax : s.seqNext < 2 ^ 48) :
    s.seqTake .journal = some (s.seqNext, s.seqTaken) := by
  have hmay : s.seqMay .journal = true := by simp [State.seqMay]
  exact if_pos ⟨hhw, hmax, hmay⟩

theorem State.seqTaken_unmarked (s : State) : s.seqTaken.te.unmarked = s.te.unmarked := State.seqMarks_unmarked _

theorem State.seqTaken_rd (s : State) {o : Nat} (hbook : bookReg o = false) (hblk : regBlk o = 9)
    (ho : o ≠ R.TE_STS ∧ o ≠ R.TE_SEQ_LO ∧ o ≠ R.TE_SEQ_HI) : s.seqTaken.rd o = s.rd o := by
  obtain ⟨hsts, hlo, hhi⟩ := ho
  exact (State.seqMarks_rd _ hbook hblk hsts).trans ((State.rd_wrN_ne _ _ hhi).trans (State.rd_wrN_ne _ _ hlo))

theorem State.seqTaken_mapReady (s : State) : s.seqTaken.bit F.TE_STS.MAP_READY = s.bit F.TE_STS.MAP_READY := by
  refine (State.seqMarks_mapReady _).trans ?_
  unfold State.bit State.get
  rw [State.rd_wrN_ne _ _ (by decide), State.rd_wrN_ne _ _ (by decide)]

/-! ### The journal (R192–R194) -/

/-- The translation engine without what the journal changes. -/
def TeSt.unjournalled (e : TeSt) : TeSt := { e.unmarked with media := [], blocks := [], ringNext := 0, jbuf := [], flushWait := false }

/-- What a step of the journal keeps. -/
def State.JournalStep (s t : State) : Prop := t.te.unjournalled = s.te.unjournalled ∧ t.bit F.TE_STS.MAP_READY = s.bit F.TE_STS.MAP_READY

theorem State.JournalStep.refl (s : State) : s.JournalStep s := ⟨rfl, rfl⟩

theorem State.JournalStep.trans {s t u : State} (h : s.JournalStep t) (k : t.JournalStep u) : s.JournalStep u :=
  ⟨k.1.trans h.1, k.2.trans h.2⟩

/-- What is read of the translation engine apart from the journal is left by it. -/
theorem State.JournalStep.reads {α : Type} {s t : State} (h : s.JournalStep t) (φ : TeSt → α)
    (hφ : ∀ e : TeSt, φ e.unjournalled = φ e) : φ t.te = φ s.te :=
  (hφ t.te).symm.trans ((congrArg φ h.1).trans (hφ s.te))

theorem State.seqTaken_journalStep (s : State) : s.JournalStep s.seqTaken :=
  ⟨congrArg (fun e : TeSt => { e with media := [], blocks := [], ringNext := 0, jbuf := [], flushWait := false }) s.seqTaken_unmarked,
    s.seqTaken_mapReady⟩

/-- The journal page of the entries `es` programmed at a ring position, under the number taken for it. -/
def State.ringWritten (s : State) (pos d pg q : Nat) (es : List JEntry) : State :=
  ((({ s with
      te.media := sset MPage.erased s.te.media (pageKey d ringBlock pg)
        (makePage 0x5A02 0 s.te.drainMode q (areaBody pos es.length s.jseq) (areaLines q (journalLine es)))
      te.blocks := smod Blk.fresh s.te.blocks (2048 * d + ringBlock) (fun k => { k with next := pg + 1, seqs := k.seqs ++ [q] })
      te.ringNext := (pos + 1) % max 1 (ringSize s.ringDies) } : State).wr64 R.TE_JSEQ_LO (s.jseq + 1024)).bump (R.MC_PGM_CNT (chanOf d))).emit
    (.media (chanOf d) Cmd.program [d, ringBlock, pg, q])

theorem State.flushPage_eq_some {s t : State} {es : List JEntry} (h : s.flushPage es = some t) : ∃ pos d pg r,
    s.ringReady d pg = some r ∧ t = r.seqTaken.ringWritten pos d pg r.seqNext es := by
  unfold State.flushPage at h
  split at h
  · contradiction
  · next pos d pg _ =>
    split at h
    · contradiction
    · split at h
      · contradiction
      · next r hready =>
        split at h
        · contradiction
        · next q v hq =>
          obtain ⟨rfl, rfl⟩ := State.seqTake_eq_some hq
          exact ⟨pos, d, pg, r, hready, (Option.some.inj h).symm⟩

/-- The translation engine once a ring page is written. -/
theorem State.ringWritten_te (s : State) (pos d pg q : Nat) (es : List JEntry) : (s.ringWritten pos d pg q es).te = { s.te with
    media := sset MPage.erased s.te.media (pageKey d ringBlock pg)
      (makePage 0x5A02 0 s.te.drainMode q (areaBody pos es.length s.jseq) (areaLines q (journalLine es)))
    blocks := smod Blk.fresh s.te.blocks (2048 * d + ringBlock) (fun k => { k with next := pg + 1, seqs := k.seqs ++ [q] })
    ringNext := (pos + 1) % max 1 (ringSize s.ringDies) } := by
  simp [State.ringWritten, State.bump, State.addCnt, State.wr64]

theorem State.ringWritten_mapReady (s : State) (pos d pg q : Nat) (es : List JEntry) :
    (s.ringWritten pos d pg q es).bit F.TE_STS.MAP_READY = s.bit F.TE_STS.MAP_READY := by
  have hcnt : R.TE_STS ≠ R.MC_PGM_CNT (chanOf d) := by unfold R.TE_STS R.MC_PGM_CNT; omega
  refine ((State.emit_book _ _).bit rfl).trans ?_
  unfold State.bit State.get State.bump State.addCnt State.wr64
  rw [State.rd_wrN_ne _ _ hcnt, State.rd_wrN_ne _ _ (by decide), State.rd_wrN_ne _ _ (by decide)]
  rfl

theorem State.ringWritten_journalStep (s : State) (pos d pg q : Nat) (es : List JEntry) : s.JournalStep (s.ringWritten pos d pg q es) :=
  ⟨(congrArg TeSt.unjournalled (s.ringWritten_te pos d pg q es)).trans rfl, s.ringWritten_mapReady pos d pg q es⟩

theorem State.ringReady_journalStep {s r : State} {d pg : Nat} (h : s.ringReady d pg = some r) : s.JournalStep r := by
  unfold State.ringReady at h
  split at h
  · exact Option.some.inj h ▸ State.JournalStep.refl s
  · split at h
    · exact Option.some.inj h ▸ ⟨rfl, rfl⟩
    · contradiction

theorem State.flushPage_journalStep {s t : State} {es : List JEntry} (h : s.flushPage es = some t) : s.JournalStep t := by
  obtain ⟨pos, d, pg, r, hready, rfl⟩ := State.flushPage_eq_some h
  exact ((State.ringReady_journalStep hready).trans r.seqTaken_journalStep).trans (State.ringWritten_journalStep _ _ _ _ _ _)

theorem State.flushPages_journalStep {pages : List (List JEntry)} {s t : State} (h : State.flushPages pages s = some t) :
    s.JournalStep t := by
  induction pages generalizing s with
  | nil => exact Option.some.inj h ▸ State.JournalStep.refl s
  | cons es rest ih =>
    unfold State.flushPages at h
    split at h
    · contradiction
    · next u hu => exact (State.flushPage_journalStep hu).trans (ih h)

theorem State.journalFlush_journalStep (s : State) : s.JournalStep s.journalFlush := by
  unfold State.journalFlush
  dsimp only
  split
  · exact ⟨rfl, rfl⟩
  · next t ht =>
    refine (State.flushPages_journalStep ht).trans ⟨rfl, ?_⟩
    unfold State.bit State.get State.bump State.addCnt
    rw [State.rd_wrN_ne _ _ (by decide)]
    rfl

theorem State.journal_journalStep (s : State) (es : List JEntry) : s.JournalStep (s.journal es) := by
  have hadded : s.JournalStep ({ s with te.jbuf := s.te.jbuf ++ es } : State) := ⟨rfl, rfl⟩
  unfold State.journal
  dsimp only
  split
  · exact hadded.trans (State.journalFlush_journalStep _)
  · exact hadded

end Sys2Proof.Machine
end

section
/-! SUPPORT. The commands of the map cache and of the journal (05_on_die_caches.md R162; 06_translation_layer.md R189, R194–R196). -/

set_option autoImplicit false
namespace Sys2Proof.Machine

section
variable {path : Path} {s : State}

/-! ### The map cache (R162) -/

theorem exec_mapcEnClear_shows (hmgr : s.isManager path = true) (hen : s.bit F.MAPC_CTL.EN = true) :
    ∃ t, exec (.mapcEnClear path) s = .next t ∧
      t.regsAre (((s.setBit F.MAPC_CTL.EN false).setBit F.MAPC_STS.INV_BUSY true).setBit F.MAPC_CTL.INV true) := by
  have hacc := s.regAcc_book 8
  refine ⟨_, if_pos ?_, State.regsAre_setBit rfl (State.regsAre_setBit rfl (State.regsAre_setBit rfl hacc))⟩
  rw [State.regAcc_isManager, hacc.bit rfl, hmgr, hen]
  rfl

/-- Bits of two registers are set in either order. -/
theorem State.setBit_comm_regs (s : State) {f g : Fld} (b c : Bool) (h : f.off ≠ g.off) :
    ((s.setBit f b).setBit g c).regsAre ((s.setBit g c).setBit f b) := by
  intro o _
  have hg : (s.setBit f b).rd g.off = s.rd g.off := State.rd_setBit_ne _ _ _ h.symm
  have hf : (s.setBit g c).rd f.off = s.rd f.off := State.rd_setBit_ne _ _ _ h
  show ((s.setBit f b).wr g.off (fldPut g ((s.setBit f b).rd g.off) c.toNat)).rd o =
    ((s.setBit g c).wr f.off (fldPut f ((s.setBit g c).rd f.off) b.toNat)).rd o
  rw [State.rd_wr, State.rd_wr, hg, hf]
  by_cases hof : o = f.off
  · subst hof
    rw [if_neg h, if_pos rfl]
    exact State.rd_wr_self _ _ _
  · rw [if_neg hof, State.rd_setBit_ne _ _ _ hof]
    split
    · next hog =>
      subst hog
      exact (State.rd_wr_self _ _ _).symm
    · next hog => exact (State.rd_setBit_ne _ _ _ hog).symm

theorem exec_mapcInv_shows (hmgr : s.isManager path = true) :
    ∃ t, exec (.mapcInv path) s = .next t ∧ t.regsAre ((s.setBit F.MAPC_CTL.INV true).setBit F.MAPC_STS.INV_BUSY true) := by
  have hacc : (((s.regAcc 8).setBit F.MAPC_STS.INV_BUSY true).setBit F.MAPC_CTL.INV true).regsAre
      ((s.setBit F.MAPC_STS.INV_BUSY true).setBit F.MAPC_CTL.INV true) :=
    State.regsAre_setBit rfl (State.regsAre_setBit rfl (s.regAcc_book 8))
  exact ⟨_, if_pos ((s.regAcc_isManager 8 path).trans hmgr), hacc.trans (s.setBit_comm_regs _ _ (by decide))⟩

/-- The map cache with every way invalid. -/
def State.mapcEmptied (s : State) : State :=
  ({ (s.setBit F.MAPC_STS.INV_BUSY false).setBit F.MAPC_CTL.INV false with te.mapc := [] } : State).wrN R.MAPC_VALID_CNT 0

theorem State.mapcEmptied_shows (s : State) : s.mapcEmptied.te.mapc = [] ∧ s.mapcEmptied.bit F.MAPC_STS.INV_BUSY = false ∧
    s.mapcEmptied.bit F.MAPC_CTL.INV = false ∧ s.mapcEmptied.rd R.MAPC_VALID_CNT = 0 ∧ s.mapcEmptied.te.map = s.te.map := by
  have hbit (f : Fld) (hf : f.off ≠ R.MAPC_VALID_CNT) : s.mapcEmptied.bit f =
      ((s.setBit F.MAPC_STS.INV_BUSY false).setBit F.MAPC_CTL.INV false).bit f :=
    congrArg (fun w => fldOf f w != 0) (State.rd_wrN_ne _ 0 hf)
  refine ⟨rfl, ?_, ?_, State.rd_wr_self _ _ _, rfl⟩
  · rw [hbit _ (by decide), State.bit_setBit_ne _ _ _ _ (by decide) (by decide), State.bit_setBit_self _ _ _ (by decide) (by decide)]
  · rw [hbit _ (by decide), State.bit_setBit_self _ _ _ (by decide) (by decide)]

/-- A write of EN = 1 made meanwhile takes effect. -/
def State.mapcEnabled (s : State) : State := { s.setBit F.MAPC_CTL.EN true with lc.mapcEnWait := false }

theorem State.mapcEnabled_te (s : State) : s.mapcEnabled.te = s.te := s.setBit_te F.MAPC_CTL.EN true

theorem State.mapcEnabled_rd (s : State) {o : Nat} (ho : o ≠ R.MAPC_CTL) : s.mapcEnabled.rd o = s.rd o := s.rd_setBit_ne _ _ ho

theorem State.mapcEnabled_bit (s : State) {f : Fld} (hf : f.off ≠ R.MAPC_CTL ∨ 1 ≤ f.lo) : s.mapcEnabled.bit f = s.bit f :=
  s.bit_setBit_ne _ f _ (by decide) (hf.imp_right .inr)

theorem exec_mapcInvDone (hup : s.coreUp = true) (hbusy : s.bit F.MAPC_STS.INV_BUSY = true) : exec .mapcInvDone s =
    if s.mapcEmptied.lc.mapcEnWait && !(s.mapcEmptied.bit F.SIR_CHK_STS.ACTIVE && decide (s.mapcEmptied.get F.SIR_CHK_CTL.ARRAY ≤ 3)) then
      .next s.mapcEmptied.mapcEnabled
    else .next s.mapcEmptied :=
  if_pos (by rw [hup, hbusy]; rfl)

theorem exec_mapcInvDone_shows (hup : s.coreUp = true) (hbusy : s.bit F.MAPC_STS.INV_BUSY = true) :
    ∃ t, exec .mapcInvDone s = .next t ∧ t.te.mapc = [] ∧ t.bit F.MAPC_STS.INV_BUSY = false ∧ t.bit F.MAPC_CTL.INV = false ∧
      t.rd R.MAPC_VALID_CNT = 0 ∧ t.te.map = s.te.map := by
  have hshows := s.mapcEmptied_shows
  rw [exec_mapcInvDone hup hbusy]
  split
  · refine ⟨_, rfl, ?_⟩
    rw [State.mapcEnabled_te, State.mapcEnabled_bit _ (by decide), State.mapcEnabled_bit _ (by decide), State.mapcEnabled_rd _ (by decide)]
    exact hshows
  · exact ⟨_, rfl, hshows⟩

/-! ### The high-water mark of the page sequence numbers (R189) -/

/-- A mark in force, with the increments still asked for. -/
def State.hwRaised (s : State) (hw asked : Nat) : State :=
  { (s.wrN R.TE_SEQ_HW_LO hw).wrN R.TE_SEQ_HW_HI (hw / 2 ^ 32) with te.hwAsked := asked }

theorem State.hwRaised_rd (s : State) (hw asked : Nat) (o : Nat) :
    (s.hwRaised hw asked).dramLedger.rd o = ((s.wrN R.TE_SEQ_HW_LO hw).wrN R.TE_SEQ_HW_HI (hw / 2 ^ 32)).rd o := rfl

theorem State.hwRaised_unmarked (s : State) (hw asked : Nat) : (s.hwRaised hw asked).dramLedger.te.unmarked = s.te.unmarked := rfl

/-- With no program and no flush that waits, a raised mark sets nothing going. -/
theorem State.progNumbers_of_none (hprogs : s.te.progs = []) (hflush : s.te.flushWait = false) : s.progNumbers = s := by
  simp [State.progNumbers, hflush, hprogs]

theorem State.hwRaised_shows (s : State) (hw asked : Nat) (hreqs : s.rt.reqs = []) (hprogs : s.te.progs = [])
    (hflush : s.te.flushWait = false) (t : State) (ht : (s.hwRaised hw asked).dramLedger.seqMarks.progNumbers.pump = t) :
    t.rd R.TE_SEQ_HW_LO = BitVec.ofNat 32 hw ∧ t.rd R.TE_SEQ_HW_HI = BitVec.ofNat 32 (hw / 2 ^ 32) := by
  let u := (s.hwRaised hw asked).dramLedger
  have hte : u.seqMarks.te.unmarked = s.te.unmarked := u.seqMarks_unmarked.trans (s.hwRaised_unmarked hw asked)
  have hprogs' : u.seqMarks.te.progs = [] := (State.unmarked_reads hte TeSt.progs fun _ => rfl).trans hprogs
  have hflush' : u.seqMarks.te.flushWait = false := (State.unmarked_reads hte TeSt.flushWait fun _ => rfl).trans hflush
  have hreqs' : u.seqMarks.rt.reqs = [] := (congrArg RtSt.reqs u.seqMarks_rt).trans hreqs
  rw [State.progNumbers_of_none hprogs' hflush',
    State.pump_of_noReqs hreqs'] at ht
  subst ht
  rw [State.seqMarks_rd _ rfl rfl (by decide), State.seqMarks_rd _ rfl rfl (by decide), State.hwRaised_rd, State.hwRaised_rd]
  exact ⟨(State.rd_wrN_ne _ _ (by decide)).trans (State.rd_wr_self _ _ _), State.rd_wr_self _ _ _⟩

theorem exec_seqHwRaised (hless : s.seqHw < s.counter 3 * 2 ^ 20) : exec .seqHwRaised s =
    .next (s.hwRaised (s.counter 3 * 2 ^ 20) (s.te.hwAsked - (s.counter 3 * 2 ^ 20 - s.seqHw) / 2 ^ 20)).dramLedger.seqMarks.progNumbers.pump :=
  if_pos hless

theorem exec_seqHwRaised_shows (hreqs : s.rt.reqs = []) (hprogs : s.te.progs = []) (hflush : s.te.flushWait = false)
    (hless : s.seqHw < s.counter 3 * 2 ^ 20) : ∃ t, exec .seqHwRaised s = .next t ∧
      t.rd R.TE_SEQ_HW_LO = BitVec.ofNat 32 (s.counter 3 * 2 ^ 20) ∧
      t.rd R.TE_SEQ_HW_HI = BitVec.ofNat 32 (s.counter 3 * 2 ^ 20 / 2 ^ 32) :=
  ⟨_, exec_seqHwRaised hless, s.hwRaised_shows _ _ hreqs hprogs hflush _ rfl⟩

end
end Sys2Proof.Machine
end

section
/-! SUPPORT. A flush of one journal page, and the checkpoints (06_translation_layer.md R193–R196). -/

set_option autoImplicit false
namespace Sys2Proof.Machine

section
variable {path : Path} {s t : State} {pos d pg seg : Nat}

/-! ### A flush of one page (R193, R194) -/

/-- The journal buffer fits one page, the ring's next page is erased and the span allows it, a number can be taken. -/
structure State.FlushReady (s : State) (pos d pg : Nat) : Prop where
  filled : s.te.jbuf ≠ []
  onePage : s.te.jbuf.length ≤ 1024
  spot : s.ringSpot = some (pos, d, pg)
  erased : s.mpage d ringBlock pg = MPage.erased
  span : s.jseq + 1024 ≤ s.jrnFloor + s.jrnSpan
  below : s.seqNext < s.seqHw
  limit : s.seqNext < 2 ^ 48

/-- The one page of the buffer is on the ring, the buffer is empty. -/
def State.PageFlushed (s : State) (pos d pg : Nat) (t : State) : Prop :=
  t.te.jbuf = [] ∧ t.te.flushWait = false ∧ t.mpage d ringBlock pg =
    makePage 0x5A02 0 s.te.drainMode s.seqNext (areaBody pos s.te.jbuf.length s.jseq) (areaLines s.seqNext (journalLine s.te.jbuf)) ∧
    Output.media (chanOf d) Cmd.program [d, ringBlock, pg, s.seqNext] ∈ t.out

/-- The buffer emptied, the flush counted. -/
def State.flushEnd (s : State) : State := ({ s with te.jbuf := [], te.flushWait := false } : State).bump R.TE_JRN_FLUSH_CNT

theorem State.flushEnd_te (s : State) : s.flushEnd.te = { s.te with jbuf := [], flushWait := false } := rfl

theorem State.flushEnd_out (s : State) : s.flushEnd.out = s.out := rfl

theorem State.FlushReady.flushPage (h : s.FlushReady pos d pg) :
    s.flushPage s.te.jbuf = some (s.seqTaken.ringWritten pos d pg s.seqNext s.te.jbuf) := by
  have hready : s.ringReady d pg = some s := if_pos h.erased
  unfold State.flushPage
  rw [h.spot]
  dsimp only
  rw [if_neg (Nat.not_lt.mpr h.span), hready]
  dsimp only
  rw [State.seqTake_journal h.below h.limit]
  rfl

theorem State.FlushReady.journalFlush (h : s.FlushReady pos d pg) :
    s.journalFlush = (s.seqTaken.ringWritten pos d pg s.seqNext s.te.jbuf).flushEnd := by
  have hlen : 0 < s.te.jbuf.length := List.length_pos_iff.mpr h.filled
  have hmax : s.te.jbuf.length ≤ 1024 := h.onePage
  have hpages : journalPages s.te.jbuf.length = 1 := by unfold journalPages; omega
  have hone : (List.range (journalPages s.te.jbuf.length)).map (fun k => (s.te.jbuf.drop (1024 * k)).take 1024) = [s.te.jbuf] := by
    simp [hpages, List.take_of_length_le hmax]
  unfold State.journalFlush
  rw [hone]
  simp only [State.flushPages, h.flushPage]
  rfl

theorem State.seqTaken_jseq (s : State) : s.seqTaken.jseq = s.jseq := by
  unfold State.jseq State.num64 State.num
  rw [State.seqTaken_rd _ rfl rfl (by decide), State.seqTaken_rd _ rfl rfl (by decide)]

theorem State.ringWritten_mpage (s : State) (pos d pg q : Nat) (es : List JEntry) :
    (s.ringWritten pos d pg q es).flushEnd.mpage d ringBlock pg =
      makePage 0x5A02 0 s.te.drainMode q (areaBody pos es.length s.jseq) (areaLines q (journalLine es)) := by
  rw [State.mpage, State.flushEnd_te, State.ringWritten_te]
  dsimp only
  rw [sget_sset_self]

theorem State.ringWritten_out (s : State) (pos d pg q : Nat) (es : List JEntry) :
    Output.media (chanOf d) Cmd.program [d, ringBlock, pg, q] ∈ (s.ringWritten pos d pg q es).flushEnd.out := by
  rw [State.flushEnd_out]
  exact State.emit_mem _ _

theorem State.FlushReady.flushed (h : s.FlushReady pos d pg) : s.PageFlushed pos d pg s.journalFlush := by
  have hdrain : s.seqTaken.te.drainMode = s.te.drainMode := State.unmarked_reads s.seqTaken_unmarked TeSt.drainMode fun _ => rfl
  unfold State.PageFlushed
  rw [h.journalFlush, State.ringWritten_mpage, hdrain, State.seqTaken_jseq, State.flushEnd_te]
  exact ⟨rfl, rfl, rfl, State.ringWritten_out _ _ _ _ _ _⟩

theorem State.ringSpot_congr (hte : t.te = s.te) : t.ringSpot = s.ringSpot := by
  unfold State.ringSpot State.ringDies State.die
  rw [hte]

theorem State.jseq_congr (hregs : t.regsAre s) : t.jseq = s.jseq := by
  unfold State.jseq State.num64
  rw [hregs.num rfl, hregs.num rfl]

theorem State.seqNext_congr (hregs : t.regsAre s) : t.seqNext = s.seqNext := by
  unfold State.seqNext
  rw [hregs.num rfl, hregs.num rfl]

theorem State.FlushReady.congr (h : s.FlushReady pos d pg) (hregs : t.regsAre s) (hte : t.te = s.te) : t.FlushReady pos d pg := by
  have hfloor : t.jrnFloor = s.jrnFloor := by rw [State.jrnFloor, State.jrnFloor, State.jseq_congr hregs, hte]
  have hspan : t.jrnSpan = s.jrnSpan := by rw [State.jrnSpan, State.jrnSpan, hregs.num rfl]
  have hhw : t.seqHw = s.seqHw := by
    unfold State.seqHw
    rw [hregs.num rfl, hregs.num rfl]
  obtain ⟨hfilled, hone, hspot, herased, hfits, hbelow, hlimit⟩ := h
  exact {
    filled := hte ▸ hfilled
    onePage := hte ▸ hone
    spot := (State.ringSpot_congr hte).trans hspot
    erased := by rw [State.mpage, hte]; exact herased
    span := by rw [State.jseq_congr hregs, hfloor, hspan]; exact hfits
    below := by rw [State.seqNext_congr hregs, hhw]; exact hbelow
    limit := by rw [State.seqNext_congr hregs]; exact hlimit }

theorem State.PageFlushed.congr {u : State} (h : t.PageFlushed pos d pg u) (hregs : t.regsAre s) (hte : t.te = s.te) :
    s.PageFlushed pos d pg u := by
  unfold State.PageFlushed at h
  rw [State.jseq_congr hregs, State.seqNext_congr hregs, hte] at h
  exact h

theorem exec_journalIntervalExpiry_flushes (h : s.FlushReady pos d pg) :
    ∃ t, exec .journalIntervalExpiry s = .next t ∧ s.PageFlushed pos d pg t := by
  have hfilled : ¬ s.te.jbuf.isEmpty = true := by simp [h.filled]
  exact ⟨_, congrArg Host.Outcome.next (if_neg hfilled), h.flushed⟩

theorem exec_teFlush_flushes (h : s.FlushReady pos d pg) (hmgr : s.isManager path = true) :
    ∃ t, exec (.teFlush path) s = .next t ∧ s.PageFlushed pos d pg t := by
  have hregs := s.regAcc_book 8
  have hte : (s.regAcc 8).te = s.te := by simp
  have hacc : (s.regAcc 8).FlushReady pos d pg := h.congr hregs hte
  have hasked : ((s.regAcc 8).isManager path && !(s.regAcc 8).te.jbuf.isEmpty) = true := by
    simp [State.regAcc_isManager, hmgr, h.filled]
  exact ⟨_, congrArg Host.Outcome.next (if_pos hasked), hacc.flushed.congr hregs hte⟩

/-! ### CKPT_ALL (R196, R204) -/

/-- The segments that CKPT_ALL asks for. -/
def State.ckptAsked (s : State) : List Nat :=
  (s.te.changed.map (fun x => x.1) ++ s.te.ckptJobs.map (fun c => c.seg)).foldl (fun l g => setIns g l) s.te.ckptTodo

/-- The later of two values put into a field stays. -/
theorem fldPut_fldPut (f : Fld) (w : Word) (a b : Nat) (h : f.lo + f.width ≤ 32) : fldPut f (fldPut f w a) b = fldPut f w b := by
  have habove {l m n v z : Nat} (hl : 0 < l) (hm : 0 < m) (hv : v < m) : (n % l + l * (v + m * z)) / (l * m) = z := by
    rw [← Nat.div_div_eq_div_mul, Nat.add_mul_div_left _ _ hl, Nat.div_eq_of_lt (Nat.mod_lt _ hl), Nat.zero_add,
      Nat.add_mul_div_left _ _ hm, Nat.div_eq_of_lt hv, Nat.zero_add]
  apply BitVec.eq_of_toNat_eq
  rw [fldPut_toNat f _ b h, fldPut_toNat f w a h, fldPut_toNat f w b h, Nat.pow_add,
    habove (Nat.two_pow_pos _) (Nat.two_pow_pos _) (Nat.mod_lt _ (Nat.two_pow_pos _)), Nat.add_mul_mod_self_left, Nat.mod_mod]

/-- A bit set twice reads as the second time. -/
theorem State.setBit_setBit_regs {f : Fld} (hf : f.lo + f.width ≤ 32) (s : State) (b c : Bool) :
    ((s.setBit f b).setBit f c).regsAre (s.setBit f c) := by
  intro o _
  by_cases ho : o = f.off
  · subst ho
    have hput : (s.setBit f b).rd f.off = fldPut f (s.rd f.off) b.toNat := State.rd_wr_self _ _ _
    calc ((s.setBit f b).setBit f c).rd f.off
      _ = fldPut f ((s.setBit f b).rd f.off) c.toNat := State.rd_wr_self _ _ _
      _ = fldPut f (s.rd f.off) c.toNat := by rw [hput, fldPut_fldPut f _ _ _ hf]
      _ = (s.setBit f c).rd f.off := (State.rd_wr_self _ _ _).symm
  · rw [State.rd_setBit_ne _ _ _ ho, State.rd_setBit_ne _ _ _ ho, State.rd_setBit_ne _ _ _ ho]

theorem State.ckptAll_shows (s : State) :
    s.ckptAll.te.ckptTodo = s.ckptAsked ∧ s.ckptAll.regsAre (s.setBit F.TE_CTL.CKPT_ALL (!s.ckptAsked.isEmpty)) := by
  let asked : State := ({ s with te.ckptTodo := s.ckptAsked } : State).setBit F.TE_CTL.CKPT_ALL true
  have hall : s.ckptAll = if s.ckptAsked.isEmpty then asked.setBit F.TE_CTL.CKPT_ALL false else asked := rfl
  have hset : asked.regsAre (s.setBit F.TE_CTL.CKPT_ALL true) := State.regsAre_setBit rfl (State.regsAre_of_eq rfl)
  rw [hall]
  split
  · next hnone =>
    refine ⟨rfl, ?_⟩
    rw [hnone]
    exact (State.regsAre_setBit rfl hset).trans (State.setBit_setBit_regs (by decide) s true false)
  · next hsome =>
    rw [Bool.eq_false_iff.mpr hsome]
    exact ⟨rfl, hset⟩

theorem exec_teCkptAll_shows (hmgr : s.isManager path = true) : ∃ t, exec (.teCkptAll path) s = .next t ∧
    t.te.ckptTodo = s.ckptAsked ∧ t.regsAre (s.setBit F.TE_CTL.CKPT_ALL (!s.ckptAsked.isEmpty)) := by
  have hte : (s.regAcc 8).te = s.te := by simp
  have hasked : (s.regAcc 8).ckptAsked = s.ckptAsked := by rw [State.ckptAsked, hte, State.ckptAsked]
  obtain ⟨htodo, hregs⟩ := (s.regAcc 8).ckptAll_shows
  rw [hasked] at htodo hregs
  exact ⟨_, congrArg Host.Outcome.next (if_pos ((s.regAcc_isManager 8 path).trans hmgr)), htodo,
    hregs.trans (State.regsAre_setBit rfl (s.regAcc_book 8))⟩

/-! ### The checkpoint writer (R195) -/

/-- What the numbering of its programs leaves of a checkpoint: the segments that changed, the checkpoints that run, the programs' kinds and
dies. -/
def TeSt.ckptView (e : TeSt) : Sparse Nat × List CkptJob × List (PKind × Nat) :=
  (e.changed, e.ckptJobs, e.progs.map (fun p => (p.kind, p.die)))

theorem State.progMod_ckptView (s : State) (id : Nat) {f : Prog → Prog} (hf : ∀ p, (f p).kind = p.kind ∧ (f p).die = p.die) :
    (s.progMod id f).te.ckptView = s.te.ckptView := by
  have hplace (p : Prog) : ((if p.id = id then f p else p).kind, (if p.id = id then f p else p).die) = (p.kind, p.die) := by
    split
    · rw [(hf p).1, (hf p).2]
    · rfl
  have hplaces : (s.te.progs.map (fun p => if p.id = id then f p else p)).map (fun p => (p.kind, p.die)) =
      s.te.progs.map (fun p => (p.kind, p.die)) := by
    rw [List.map_map]
    exact List.map_congr_left fun p _ => hplace p
  exact congrArg (fun l => (s.te.changed, s.te.ckptJobs, l)) hplaces

theorem State.seqTaken_ckptView (s : State) : s.seqTaken.te.ckptView = s.te.ckptView :=
  State.unmarked_reads s.seqTaken_unmarked TeSt.ckptView fun _ => rfl

theorem State.progNumber_ckptView (s : State) {p : Prog} {g k : Nat} (hp : p.kind = .ckpt g k) :
    (s.progNumber p).te.ckptView = s.te.ckptView := by
  unfold State.progNumber
  rw [hp]
  dsimp only
  split
  · rfl
  · rw [Bool.and_false, if_neg Bool.false_ne_true]
    split
    · rfl
    · next n v htake =>
      obtain ⟨rfl, rfl⟩ := State.seqTake_eq_some htake
      refine Eq.trans (State.progMod_ckptView _ _ ?_) s.seqTaken_ckptView
      exact fun _ => ⟨rfl, rfl⟩

/-- What a checkpoint of a segment of the map or of the blocks captures. -/
def State.ckptJob (s : State) (g : Nat) : CkptJob :=
  ⟨g, s.jseq + s.te.jbuf.length, sget 0 s.te.changed g - 1,
    if g < 32768 then s.te.map.filter (fun x => mapSegment x.1 == g) else [],
    if 32768 ≤ g ∧ g < ptSegment 0 then s.te.blocks.filter (fun x => blockSegment x.1 == g) else [],
    if ptSegment 0 ≤ g then s.te.buckets else [], []⟩

/-- The programs of its 64 pages. -/
def State.ckptProgs (s : State) (g : Nat) : List Prog :=
  (List.range 64).map (fun k =>
    ⟨s.te.nextProg + k, .ckpt g k, s.ckptDie g k, [], 0, .number, s.te.drainMode, [], 0, 0, [], (s.bufsFree 64)[k]?⟩)

/-- The checkpoint taken up, its programs not yet numbered. -/
def State.ckptQueued (s : State) (g : Nat) : State :=
  { s with
    te.changed := serase s.te.changed g, te.ckptJobs := s.te.ckptJobs ++ [s.ckptJob g], te.progs := s.te.progs ++ s.ckptProgs g
    te.nextProg := s.te.nextProg + 64 }

theorem State.ckptBegin_eq (hchanged : sget 0 s.te.changed seg ≠ 0) (hidle : s.te.ckptJobs.all (fun c => c.seg != seg) = true)
    (hbufs : 64 ≤ (s.bufsFree 64).length) : s.ckptBegin seg = (s.ckptProgs seg).foldl State.progNumber (s.ckptQueued seg) := by
  have hnone : ¬ (s.te.ckptJobs.any (fun c => c.seg == seg) = true) := by
    simpa using hidle
  exact if_neg (by simp [hchanged, hnone, hbufs])

theorem State.ckptBegin_ckptView (hchanged : sget 0 s.te.changed seg ≠ 0) (hidle : s.te.ckptJobs.all (fun c => c.seg != seg) = true)
    (hbufs : 64 ≤ (s.bufsFree 64).length) : (s.ckptBegin seg).te.ckptView = (s.ckptQueued seg).te.ckptView := by
  rw [State.ckptBegin_eq hchanged hidle hbufs]
  refine List.foldlRecOn _ _ (motive := fun t : State => t.te.ckptView = (s.ckptQueued seg).te.ckptView) rfl fun t ht p hp => ?_
  obtain ⟨k, -, rfl⟩ := List.mem_map.mp hp
  exact (t.progNumber_ckptView rfl).trans ht

theorem State.checkpoint_of_lt (hseg : seg < ptSegment 0) : s.checkpoint seg = s.ckptBegin seg := by
  have hpt : ¬ ptSegment 0 ≤ seg := Nat.not_le.mpr hseg
  rw [State.checkpoint, if_neg (fun h => hpt h.1), if_neg hpt]

theorem exec_checkpointWrite_shows (hready : s.bit F.TE_STS.MAP_READY = true) (hdrain : s.draining = false) (hseg : seg < ptSegment 0)
    (hchanged : sget 0 s.te.changed seg ≠ 0) (hidle : s.te.ckptJobs.all (fun c => c.seg != seg) = true)
    (hbufs : 64 ≤ (s.bufsFree 64).length) : ∃ t, exec (.checkpointWrite seg) s = .next t ∧ t.te.changed = serase s.te.changed seg ∧
      (∃ j, t.te.ckptJobs = s.te.ckptJobs ++ [j] ∧ j.seg = seg ∧ j.jseq = s.jseq + s.te.jbuf.length ∧ j.pages = []) ∧
      ∀ k, k < 64 → ∃ p ∈ t.te.progs, p.kind = .ckpt seg k ∧ p.die = s.ckptDie seg k := by
  have hexec : exec (.checkpointWrite seg) s = .next (s.ckptBegin seg) :=
    congrArg Host.Outcome.next ((if_pos (by rw [hready, hdrain]; rfl)).trans (State.checkpoint_of_lt hseg))
  obtain ⟨hsegs, hrest⟩ := Prod.mk.inj (State.ckptBegin_ckptView hchanged hidle hbufs)
  obtain ⟨hjobs, hplaces⟩ := Prod.mk.inj hrest
  refine ⟨_, hexec, hsegs, ⟨s.ckptJob seg, hjobs, rfl, rfl, rfl⟩, fun k hk => ?_⟩
  have hmem : (PKind.ckpt seg k, s.ckptDie seg k) ∈ (s.ckptBegin seg).te.progs.map (fun p => (p.kind, p.die)) := by
    rw [hplaces]
    refine List.mem_map.mpr ⟨_, List.mem_append_right _ (List.mem_map.mpr ⟨k, List.mem_range.mpr hk, rfl⟩), rfl⟩
  obtain ⟨p, hp, hplace⟩ := List.mem_map.mp hmem
  exact ⟨p, hp, (Prod.mk.inj hplace).1, (Prod.mk.inj hplace).2⟩

end
end Sys2Proof.Machine
end

section
/-! SUPPORT. The tile map's entries: the end of a repair, the conversion of PTILE (06_translation_layer.md R175, R178). -/

set_option autoImplicit false
namespace Sys2Proof.Machine

section
variable {s t : State} {tile : Nat}

/-! ### Entries -/

theorem State.setEntry_entry (s : State) (n : Nat) (e : TEntry) : (s.setEntry n e).entry n = e := by
  unfold State.setEntry State.segChanged
  split <;> exact sget_sset_self TEntry.unmapped _ _ _

/-- What a changed entry leaves of the translation engine: everything but the map, the map cache and the changed segments. -/
theorem State.setEntry_reads {α : Type} (φ : TeSt → α) (hφ : ∀ (e : TeSt) m c d, φ { e with map := m, mapc := c, changed := d } = φ e)
    (s : State) (n : Nat) (e : TEntry) : φ (s.setEntry n e).te = φ s.te := by
  unfold State.setEntry State.segChanged
  split <;> exact hφ s.te _ _ _

/-! ### PTILE (R178) -/

theorem State.ptWholeClear_shows (hptile : (s.entry tile).ptile = true) :
    ((s.ptWholeClear tile).entry tile).ptile = false ∧ (s.ptWholeClear tile).te.buckets = s.te.buckets ∧
    sget 0 (s.ptWholeClear tile).te.since tile = 0 := by
  let cleared := s.setEntry tile { s.entry tile with ptile := false }
  let u : State := ({ cleared with te.since := serase cleared.te.since tile } : State).wrN R.TE_PT_WHOLE (cleared.num R.TE_PT_WHOLE - 1)
  have hclear : s.ptWholeClear tile = u.journal [.tpoison tile false] := if_pos hptile
  have hjrn := u.journal_journalStep [.tpoison tile false]
  rw [hclear]
  refine ⟨?_, ?_, ?_⟩
  · show (sget TEntry.unmapped (u.journal [.tpoison tile false]).te.map tile).ptile = false
    rw [hjrn.reads TeSt.map fun _ => rfl]
    exact congrArg TEntry.ptile (s.setEntry_entry tile _)
  · rw [hjrn.reads TeSt.buckets fun _ => rfl]
    exact s.setEntry_reads TeSt.buckets (fun _ _ _ _ => rfl) tile _
  · rw [hjrn.reads TeSt.since fun _ => rfl]
    exact sget_serase_self 0 _ _

theorem exec_ptileConvert_shows {tile : BitVec 32} (hptile : (s.entry tile.toNat).ptile = true)
    (hsince : sget 0 s.te.since tile.toNat = BitVec.allOnes 64) (hlines : s.num R.TE_PT_LINES ≤ 65536) :
    ∃ t, exec (.ptileConvert tile) s = .next t ∧ (t.entry tile.toNat).ptile = false ∧ t.te.buckets = s.te.buckets ∧
      sget 0 t.te.since tile.toNat = 0 := by
  have hleft : (List.range 64).filter (fun k => !(sget 0 s.te.since tile.toNat).getLsbD k) = [] := by
    rw [hsince]
    decide
  refine ⟨s.ptWholeClear tile.toNat, ?_, State.ptWholeClear_shows hptile⟩
  show execPtileConvert tile s = _
  unfold execPtileConvert
  simp only [hleft]
  exact if_pos ⟨hptile, hlines, .inr (.inr trivial)⟩

/-! ### The repair of an entry (R175) -/

theorem contains_setDel_self (n : Nat) (l : List Nat) : (setDel n l).contains n = false := by
  simp [setDel]

/-- A tile's entry and buckets are no longer under repair, as the registers show it. -/
def State.repaired (s : State) (n : Nat) : State :=
  let u : State := { s with te.badBuckets := setDel (bucket1 n) (setDel (bucket2 n) s.te.badBuckets), te.bad := setDel n s.te.bad }
  (u.bump R.TE_MAP_REPAIR).setBit F.TE_STS.REPAIR_BUSY (!u.te.bad.isEmpty)

/-- The replay does not look at what is under repair. -/
theorem State.repaired_replayEntry (s : State) (n k : Nat) : (s.repaired n).replayEntry k = s.replayEntry k := rfl

theorem State.repaired_ptMask (s : State) (n k : Nat) : (s.repaired n).ptMask k = s.ptMask k := rfl

theorem State.wakeRepair_te (h : s.rt.reqs = []) (n : Nat) : (s.wakeRepair n).te = s.te := by
  unfold State.wakeRepair
  rw [State.pump_of_noReqs (by simp [h])]

/-- The entry that checkpoint and journal give. -/
def State.repairEntry (s : State) (n : Nat) : TEntry := { s.replayEntry n with pline := s.ptMask n != 0, slot := 0 }

theorem State.repaired_repairEntry (s : State) (n : Nat) : (s.repaired n).repairEntry n = s.repairEntry n := by
  rw [State.repairEntry, State.repaired_replayEntry, State.repaired_ptMask, State.repairEntry]

theorem exec_mapRepairDone {tile : BitVec 32} (hbad : s.te.bad.contains tile.toNat = true)
    (hslots : s.te.slots.all (fun x => x.2.tile != some tile.toNat) = true) : exec (.mapRepairDone tile true) s =
      .next (((s.repaired tile.toNat).setEntry tile.toNat ((s.repaired tile.toNat).repairEntry tile.toNat)).wakeRepair tile.toNat) := by
  have hnone : s.te.slots.find? (fun x => x.2.tile == some tile.toNat && !x.2.doomed) = none := by
    refine List.find?_eq_none.mpr fun x hx => ?_
    have hother := List.all_eq_true.mp hslots x hx
    simp only [bne_iff_ne] at hother
    simp [hother]
  refine (if_pos hbad).trans ?_
  dsimp only
  split
  · next hsome => exact absurd (hsome.symm.trans hnone) (by simp)
  · rfl

theorem exec_mapRepairDone_shows {tile : BitVec 32} (hreqs : s.rt.reqs = []) (hbad : s.te.bad.contains tile.toNat = true)
    (hslots : s.te.slots.all (fun x => x.2.tile != some tile.toNat) = true) : ∃ t, exec (.mapRepairDone tile true) s = .next t ∧
      t.te.bad.contains tile.toNat = false ∧
      t.entry tile.toNat = { s.replayEntry tile.toNat with pline := s.ptMask tile.toNat != 0, slot := 0 } := by
  let n := tile.toNat
  let u := (s.repaired n).setEntry n ((s.repaired n).repairEntry n)
  have hreqs' : u.rt.reqs = [] :=
    (congrArg RtSt.reqs ((State.setEntry_keeps rfl (Same.refl 8192 (s.repaired n))).rt rfl)).trans hreqs
  have hwake : (u.wakeRepair n).te = u.te := State.wakeRepair_te hreqs' n
  have hdel : u.te.bad = setDel n s.te.bad := (State.setEntry_reads TeSt.bad (fun _ _ _ _ => rfl) _ n _).trans rfl
  have hentry : u.entry n = s.repairEntry n := ((s.repaired n).setEntry_entry n _).trans (s.repaired_repairEntry n)
  refine ⟨_, exec_mapRepairDone hbad hslots, ?_, ?_⟩
  · show (u.wakeRepair n).te.bad.contains n = false
    rw [hwake, hdel]
    exact contains_setDel_self n _
  · show sget TEntry.unmapped (u.wakeRepair n).te.map n = _
    rw [hwake]
    exact hentry

end
end Sys2Proof.Machine
end

section
/-! SUPPORT. The formatting of a module and the map made ready (06_translation_layer.md R197; 19_startup_reset_and_pin_states.md R552). -/

set_option autoImplicit false
namespace Sys2Proof.Machine

section
variable {x s t : State}

/-- What the work after the map is ready keeps: the dies recorded, the discards, MAP_READY, the phase of start-up, the router. -/
structure State.MapStep (s t : State) : Prop where
  fmt : t.te.fmt = s.te.fmt
  discards : t.te.discards = s.te.discards
  ready : t.bit F.TE_STS.MAP_READY = s.bit F.TE_STS.MAP_READY
  phase : t.get F.BOOT_STS.PHASE = s.get F.BOOT_STS.PHASE
  rt : t.rt = s.rt

theorem State.MapStep.refl (s : State) : s.MapStep s := ⟨rfl, rfl, rfl, rfl, rfl⟩

theorem State.MapStep.trans (h : x.MapStep s) (k : s.MapStep t) : x.MapStep t :=
  ⟨k.fmt.trans h.fmt, k.discards.trans h.discards, k.ready.trans h.ready, k.phase.trans h.phase, k.rt.trans h.rt⟩

/-- A step whose frame holds neither page 0 nor page 8 nor the translation engine nor the router. -/
theorem State.MapStep.of_same {m : Nat} (h : Same m s t) (hrt : m.testBit 11 = false) (hte : m.testBit 13 = false)
    (hpage0 : m.testBit 28 = false) (hpage8 : m.testBit 36 = false) : s.MapStep t :=
  ⟨congrArg TeSt.fmt (h.te hte), congrArg TeSt.discards (h.te hte), h.bit rfl hpage8, h.get rfl hpage0, h.rt hrt⟩

/-- A change of the translation engine that leaves the dies recorded and the discards. -/
theorem State.MapStep.te {e : TeSt} (h : x.MapStep s) (hfmt : e.fmt = s.te.fmt) (hdiscards : e.discards = s.te.discards) :
    x.MapStep { s with te := e } := h.trans ⟨hfmt, hdiscards, rfl, rfl, rfl⟩

theorem State.MapStep.sir {q : SirSt} (h : x.MapStep s) : x.MapStep { s with sir := q } := h.trans ⟨rfl, rfl, rfl, rfl, rfl⟩

/-- A write of a register other than TE_STS and BOOT_STS. -/
theorem State.MapStep.wrN {o v : Nat} (h : x.MapStep s) (hready : o ≠ R.TE_STS) (hphase : o ≠ R.BOOT_STS) : x.MapStep (s.wrN o v) :=
  h.trans ⟨rfl, rfl, congrArg (fun w => fldOf F.TE_STS.MAP_READY w != 0) (State.rd_wrN_ne s v hready.symm),
    congrArg (fldOf F.BOOT_STS.PHASE) (State.rd_wrN_ne s v hphase.symm), rfl⟩

theorem State.MapStep.set {f : Fld} {v : Nat} (h : x.MapStep s) (hready : f.off ≠ R.TE_STS) (hphase : f.off ≠ R.BOOT_STS) :
    x.MapStep (s.set f v) :=
  h.trans ⟨rfl, rfl, congrArg (fun w => fldOf F.TE_STS.MAP_READY w != 0) (State.rd_set_ne s f v hready.symm),
    congrArg (fldOf F.BOOT_STS.PHASE) (State.rd_set_ne s f v hphase.symm), rfl⟩

theorem State.MapStep.setBit {f : Fld} {b : Bool} (h : x.MapStep s) (hready : f.off ≠ R.TE_STS) (hphase : f.off ≠ R.BOOT_STS) :
    x.MapStep (s.setBit f b) := State.MapStep.set h hready hphase

theorem State.MapStep.foldl {α : Type} {f : State → α → State} {l : List α} (h : x.MapStep s)
    (hf : ∀ (t : State) (a : α), x.MapStep t → x.MapStep (f t a)) : x.MapStep (l.foldl f s) :=
  List.foldlRecOn l f (motive := fun t : State => x.MapStep t) h fun t ht a _ => hf t a ht

theorem State.MapStep.journal {es : List JEntry} (h : x.MapStep s) : x.MapStep (s.journal es) := by
  have hstep := s.journal_journalStep es
  have hframe := State.journal_keeps (a1 := es) rfl (Same.refl 19451974099722 s)
  exact h.trans ⟨hstep.reads TeSt.fmt fun _ => rfl, hstep.reads TeSt.discards fun _ => rfl, hstep.2, hframe.get rfl rfl, hframe.rt rfl⟩

theorem State.MapStep.roll {c v r a b d : Nat} (h : x.MapStep s) : x.MapStep (s.roll c v r a b d) :=
  h.trans (.of_same (State.roll_same s c v r a b d) rfl rfl rfl rfl)

/-! ### Dies taken out of service (R226) -/

theorem State.MapStep.substitute {d : Nat} (h : x.MapStep s) : x.MapStep (s.substitute d) := by
  unfold State.substitute
  dsimp only
  split
  · exact h
  · exact .journal (.te h rfl rfl)

theorem State.MapStep.dieMod {d : Nat} {f : DieCtl → DieCtl} (h : x.MapStep s) : x.MapStep (s.dieMod d f) := .te h rfl rfl

theorem State.MapStep.retireDie {d : Nat} (h : x.MapStep s) : x.MapStep (s.retireDie d) :=
  .te (.substitute (.setBit (.dieMod h) (by decide) (by decide))) rfl rfl

theorem State.MapStep.retireLost (h : x.MapStep s) : x.MapStep s.retireLost := by
  have hsts (d : Nat) : R.MC_STS d ≠ R.TE_STS ∧ R.MC_STS d ≠ R.BOOT_STS := by
    unfold R.MC_STS R.TE_STS R.BOOT_STS
    omega
  refine .setBit (.te (.foldl h fun t d ht => ?_) rfl rfl) (by decide) (by decide)
  exact .retireDie (.setBit (.dieMod ht) (hsts _).1 (hsts _).2)

/-! ### Blocks of unknown age (R280) -/

theorem State.MapStep.blkMod {d b : Nat} {f : Blk → Blk} (h : x.MapStep s) : x.MapStep (s.blkMod d b f) := by
  unfold State.blkMod State.segChanged
  split
  · exact .te (.te h rfl rfl) rfl rfl
  · exact .te h rfl rfl

theorem State.MapStep.agesAll (h : x.MapStep s) : x.MapStep s.agesAll :=
  h.trans (.of_same (State.agesAll_keeps rfl (Same.refl 1048576 s)) rfl rfl rfl rfl)

theorem State.MapStep.ledgerWrite (h : x.MapStep s) : x.MapStep s.ledgerWrite :=
  h.trans (.of_same (State.ledgerWrite_keeps rfl (Same.refl 4362076426 s)) rfl rfl rfl rfl)

theorem State.MapStep.unknownEnd {how : Nat} (h : x.MapStep s) : x.MapStep (s.unknownEnd how) := by
  unfold State.unknownEnd
  dsimp only
  refine .ledgerWrite (.roll (.agesAll (.setBit (.setBit (.sir (.foldl h fun t k ht => ?_)) ?_ ?_) ?_ ?_)))
  · exact .blkMod ht
  all_goals decide

theorem State.MapStep.unknownEnter {resumed : Nat} (h : x.MapStep s) : x.MapStep (s.unknownEnter resumed) := by
  unfold State.unknownEnter
  dsimp only
  split
  · exact .unknownEnd (.foldl (.sir h) fun t k ht => .blkMod ht)
  · exact .set (.setBit (.setBit (.foldl (.sir h) fun t k ht => .blkMod ht) (by decide) (by decide)) (by decide) (by decide))
      (by decide) (by decide)

/-! ### The map is ready (step 9 of Table 6.9) -/

/-- The map shown as ready, in phase 5. -/
def State.mapMarked (s : State) (path : Nat) (fall : Bool) : State :=
  ((((((s.setBit F.TE_STS.MAP_READY true).setBit F.TE_STS.BLD_BUSY false).set F.TE_STS.BLD_STEP 0).setBit F.TE_STS.UNCLEAN
    (path == 1 || path == 2)).setBit F.TE_STS.FALLBACK fall).set F.BOOT_STS.PATH path).set F.BOOT_STS.PHASE 5

theorem State.mapMarked_shows (s : State) (path : Nat) (fall : Bool) :
    (s.mapMarked path fall).bit F.TE_STS.MAP_READY = true ∧ (s.mapMarked path fall).get F.BOOT_STS.PHASE = 5 := by
  refine ⟨?_, State.get_set_self _ _ _ (by decide)⟩
  unfold State.mapMarked
  rw [State.bit_set_ne _ _ _ _ (by decide) (by decide), State.bit_set_ne _ _ _ _ (by decide) (by decide),
    State.bit_setBit_ne _ _ _ _ (by decide) (by decide), State.bit_setBit_ne _ _ _ _ (by decide) (by decide),
    State.bit_set_ne _ _ _ _ (by decide) (by decide), State.bit_setBit_ne _ _ _ _ (by decide) (by decide),
    State.bit_setBit_self _ _ _ (by decide) (by decide)]

theorem State.mapMarked_te (s : State) (path : Nat) (fall : Bool) : (s.mapMarked path fall).te = s.te := by simp [State.mapMarked]

theorem State.MapStep.showDies (h : x.MapStep s) : x.MapStep s.showDies := .wrN (.wrN h (by decide) (by decide)) (by decide) (by decide)

theorem State.MapStep.when {c : Bool} {f : State → State} (h : x.MapStep s) (hf : ∀ t : State, x.MapStep t → x.MapStep (f t)) :
    x.MapStep (s.when c f) := by
  unfold State.when
  split
  · exact hf s h
  · exact h

theorem State.MapStep.pdWrite {v : Nat} (h : x.MapStep s) : x.MapStep (s.pdWrite v) :=
  h.trans (.of_same (State.pdWrite_keeps rfl (Same.refl 4362076938 s)) rfl rfl rfl rfl)

theorem State.MapStep.tsStatus (h : x.MapStep s) : x.MapStep s.tsStatus :=
  h.trans (.of_same s.tsStatus_same rfl rfl rfl rfl)

/-- The work once the map is shown as ready: the rebuild's times and records, lost dies, blocks of unknown age, the dirty mark in PST; then the
secure discards that go on and the requests that waited. -/
theorem State.mapReady_eq (s : State) (path resumed : Nat) (fall : Bool) (lost : List Nat) : ∃ t, (s.mapMarked path fall).MapStep t ∧
    s.mapReady path resumed fall lost = (t.te.discards.foldl (fun s d => s.discardShow d) t).tsStatus.pump := by
  unfold State.mapReady
  refine ⟨_, ?_, rfl⟩
  refine .pdWrite (.unknownEnter (.retireLost (.sir (.when (.wrN (.wrN (.showDies (.refl _)) ?_ ?_) ?_ ?_) fun t ht => ?_))))
  case refine_5 => exact .roll (.foldl ht fun u key hu => .roll hu)
  all_goals decide

/-- With no secure discard and no request, the map ready is shown and the dies recorded stay. -/
theorem State.mapReady_shows (s : State) (path resumed : Nat) (fall : Bool) (lost : List Nat) (hreqs : s.rt.reqs = [])
    (hdiscards : s.te.discards = []) : (s.mapReady path resumed fall lost).bit F.TE_STS.MAP_READY = true ∧
      (s.mapReady path resumed fall lost).get F.BOOT_STS.PHASE = 5 ∧ (s.mapReady path resumed fall lost).te.fmt = s.te.fmt := by
  obtain ⟨t, hstep, hready⟩ := s.mapReady_eq path resumed fall lost
  have hte := s.mapMarked_te path fall
  have hnone : t.te.discards = [] := hstep.discards.trans ((congrArg TeSt.discards hte).trans hdiscards)
  have hlast : (s.mapMarked path fall).MapStep t.tsStatus := .tsStatus hstep
  have hidle : t.tsStatus.rt.reqs = [] := (congrArg RtSt.reqs hlast.rt).trans hreqs
  obtain ⟨hmark, hphase⟩ := s.mapMarked_shows path fall
  rw [hready, hnone, List.foldl_nil, State.pump_of_noReqs hidle]
  exact ⟨hlast.ready.trans hmark, hlast.phase.trans hphase, hlast.fmt.trans (congrArg TeSt.fmt hte)⟩

/-! ### Formatting (R552) -/

/-- Formatting as its blocks are counted and the areas placed, before the journal takes them up. -/
theorem State.format_eq (s : State) (count : Nat → Nat) : ∃ (t : State) (es : List JEntry) (dies : List Nat),
    t.te.fmt = s.presentDies ∧ t.te.discards = [] ∧ t.rt = s.rt ∧ s.format count = ((((t.journal es).newRk.anchorWrite dies).showDies).setBit F.BOOT_STS.FORMAT true) := by
  unfold State.format
  refine ⟨_, _, _, ?_, ?_, ?_, rfl⟩
  · rw [State.setBit_te]
    rfl
  · rw [State.setBit_te]
    rfl
  · rfl

theorem State.MapStep.anchorWrite {dies : List Nat} (h : x.MapStep s) : x.MapStep (s.anchorWrite dies) :=
  h.trans (.of_same (State.anchorWrite_keeps rfl (Same.refl 4362076426 s)) rfl rfl rfl rfl)

theorem State.MapStep.newRk (h : x.MapStep s) : x.MapStep s.newRk :=
  h.trans (.of_same (State.newRk_keeps rfl (Same.refl 21541961998 s)) rfl rfl rfl rfl)

theorem State.format_shows (s : State) (count : Nat → Nat) : (s.format count).te.fmt = s.presentDies ∧
    (s.format count).te.discards = [] ∧ (s.format count).rt = s.rt := by
  obtain ⟨t, es, dies, hfmt, hdiscards, hrt, hformat⟩ := s.format_eq count
  have hstep : t.MapStep ((t.journal es).newRk.anchorWrite dies).showDies := .showDies (.anchorWrite (.newRk (.journal (.refl t))))
  rw [hformat]
  exact ⟨hstep.fmt.trans hfmt, hstep.discards.trans hdiscards, hstep.rt.trans hrt⟩

/-! ### The rebuild of a new module (R552) -/

theorem exec_rebuild_formats (noise : ReadNoise) (hup : s.coreUp = true) (hphase : s.get F.BOOT_STS.PHASE = 4)
    (hhalt : s.bit F.BOOT_STS.HALT = false) (htrain : ∀ c, c < 40 → s.bit (F.MC_STS.TRAIN_BUSY c) = false)
    (hderives : s.ce.derives = []) (hanchor : s.anchor = none) (hmedia : s.te.media = []) :
    ∃ resumed, exec (.rebuild noise) s = .next ((s.format (fun _ => 1)).mapReady 3 resumed false []) := by
  have htrained : (List.range 40).any (fun c => s.bit (F.MC_STS.TRAIN_BUSY c)) = false :=
    List.any_eq_false.mpr fun c hc => by simp [htrain c (List.mem_range.mp hc)]
  refine ⟨if s.seqNext < (s.counter 3 + 1) * 2 ^ 20 then s.seqNext else (s.counter 3 + 1) * 2 ^ 20, ?_⟩
  show execRebuild noise s = _
  unfold execRebuild
  simp only [hup, hphase, hhalt, htrained, hderives, hanchor, hmedia]
  rfl

theorem exec_rebuild_shows (noise : ReadNoise) (hreqs : s.rt.reqs = []) (hup : s.coreUp = true) (hphase : s.get F.BOOT_STS.PHASE = 4)
    (hhalt : s.bit F.BOOT_STS.HALT = false) (htrain : ∀ c, c < 40 → s.bit (F.MC_STS.TRAIN_BUSY c) = false)
    (hderives : s.ce.derives = []) (hanchor : s.anchor = none) (hmedia : s.te.media = []) :
    ∃ t, exec (.rebuild noise) s = .next t ∧ t.bit F.TE_STS.MAP_READY = true ∧ t.get F.BOOT_STS.PHASE = 5 ∧ t.te.fmt = s.presentDies := by
  obtain ⟨resumed, hexec⟩ := exec_rebuild_formats noise hup hphase hhalt htrain hderives hanchor hmedia
  obtain ⟨hfmt, hdiscards, hrt⟩ := s.format_shows (fun _ => 1)
  obtain ⟨hready, hphase5, hdies⟩ :=
    (s.format (fun _ => 1)).mapReady_shows 3 resumed false [] ((congrArg RtSt.reqs hrt).trans hreqs) hdiscards
  exact ⟨_, hexec, hready, hphase5, hdies.trans hfmt⟩

end
end Sys2Proof.Machine
end

section
/-! SUPPORT. The commands of the map cache and of the translation engine together. -/

set_option autoImplicit false
namespace Sys2Proof.Machine

/-- Settles O12: each command by its own lemma; a flush by the one page it programs, the rebuild by formatting and the steps that keep the
dies recorded. -/
theorem mapCommands : Obligations.MapCommands := by
  unfold Obligations.MapCommands
  refine ⟨fun _ _ => exec_mapcEnClear_shows, fun _ _ => exec_mapcInv_shows, fun _ => exec_mapcInvDone_shows,
    fun _ _ => exec_mapRepairDone_shows, fun _ _ => exec_ptileConvert_shows, fun _ => exec_seqHwRaised_shows, ?_,
    fun _ _ => exec_teCkptAll_shows, fun _ _ => exec_checkpointWrite_shows, fun noise _ => exec_rebuild_shows noise⟩
  intro path pos d pg s hfilled hone hspot herased hspan hbelow hlimit
  have hready : s.FlushReady pos d pg := ⟨hfilled, hone, hspot, herased, hspan, hbelow, hlimit⟩
  exact ⟨exec_journalIntervalExpiry_flushes hready, exec_teFlush_flushes hready⟩

end Sys2Proof.Machine
end

section
/-! SUPPORT. The commands that read, program and erase a media die (08_media_channels.md R239–R245, Tables 8.2–8.5). -/

set_option autoImplicit false
namespace Sys2Proof.Machine

/-! ### A die of the module -/

@[simp] theorem State.mdie_setMdie_self (s : State) (d : Nat) (m : MDie) : (s.setMdie d m).mdie d = m := sget_sset_self _ _ _ _

theorem State.mdie_setMdie_ne (s : State) {d e : Nat} (m : MDie) (h : e ≠ d) : (s.setMdie d m).mdie e = s.mdie e := sget_sset_ne _ _ _ h

@[simp] theorem State.setMdie_te (s : State) (d : Nat) (m : MDie) : (s.setMdie d m).te = s.te := rfl

/-! ### A command that a die takes (R239, R240) -/

/-- A command that the die takes has its effect on the die's record, where the command's own states cover the die's and its address
lies in the geometry. -/
theorem State.dieCmd_taken {s : State} {d op : Nat} {args states ok : List Nat} {crc : BitVec 8} {addr : Bool}
    (h : s.dieTakes d op args crc states) (hok : states ⊆ ok) (haddr : addr = true) (f : MDie → State → State) :
    s.dieCmd d op args crc ok addr f = f (s.mdie d) s := by
  obtain ⟨halive, hcrc, hst⟩ := h
  have haccepted : (s.mdie d).st ∈ ok := hok hst
  simp [State.dieCmd, halive, hcrc, haccepted, haddr]

theorem State.dieTakes.st_mem {s : State} {d op : Nat} {args states : List Nat} {crc : BitVec 8} (h : s.dieTakes d op args crc states) :
    (s.mdie d).st ∈ states := by
  obtain ⟨-, -, hst⟩ := h
  exact hst

theorem State.dieTakes.st_eq {s : State} {d op st : Nat} {args : List Nat} {crc : BitVec 8} (h : s.dieTakes d op args crc [st]) :
    (s.mdie d).st = st := List.mem_singleton.mp h.st_mem

/-! ### The wait for occupied slots (R245, Table 8.5) -/

/-- The busy state of the operation that a die runs. -/
def MDie.busy (m : MDie) : Nat := if m.kind then Ds.eraseBusy else Ds.progBusy

/-- An operation that was accepted starts once every occupied slot is sensed. -/
theorem MDie.settle_of_waiting {m : MDie} (h : m.waiting = true) :
    m.settle = if m.allSensed then { m with waiting := false, st := m.busy } else m := if_congr Iff.rfl (if_pos h) rfl

/-- A resumed operation goes on once every occupied slot is sensed. -/
theorem MDie.settle_of_resuming {m : MDie} (h : m.waiting = false) (hst : m.st = Ds.resuming) :
    m.settle = if m.allSensed then { m with st := m.busy } else m :=
  if_congr Iff.rfl ((if_neg (by simp [h])).trans (if_pos hst)) rfl

/-- A die that waits for nothing stays as it is. -/
theorem MDie.settle_of_still {m : MDie} (h : m.waiting = false) (hst : m.st ≠ Ds.resuming) : m.settle = m := by
  simp [MDie.settle, h, hst]

section
variable {die : Fin 320} {crc : BitVec 8} {s : State}

/-! ### Reads (R241, R243) -/

/-- A die with a slot that a READ_LINE occupies: host slots are 0 to 7, background slots 8 to 11 (R241). -/
def MDie.withRead (m : MDie) (r : DRead) : MDie :=
  if r.slot < 8 then { m with host := m.host ++ [r] } else { m with bg := m.bg ++ [r] }

theorem exec_readLine_taken {slot line page block set : Nat} {arg : BitVec 40} (hslot : slot < 12) (hline : line ≤ 256)
    (hpage : page < 2048) (hblock : block < 2048)
    (harg : arg.toNat = slot + 2 ^ 4 * line + 2 ^ 13 * page + 2 ^ 24 * block + 2 ^ 37 * set)
    (htakes : s.dieTakes die 0x10 (argBytes 5 arg.toNat) crc [Ds.idle, Ds.loading, Ds.suspending, Ds.suspended])
    (hfree : (s.mdie die).occupied slot = false) : exec (.readLine die arg crc) s =
      .next (s.setMdie die ((s.mdie die).withRead ⟨slot, line, page, block, sget 0 (s.mdie die).refs set, none⟩)) := by
  have hslotOf : arg.toNat % 16 = slot := by omega
  have hlineOf : arg.toNat / 16 % 512 = line := by omega
  have hpageOf : arg.toNat / 2 ^ 13 % 2048 = page := by omega
  have hblockOf : arg.toNat / 2 ^ 24 % 2048 = block := by omega
  have hzero : arg.toNat / 2 ^ 35 % 4 = 0 := by omega
  have hsetOf : arg.toNat / 2 ^ 37 = set := by omega
  show execReadLine die arg crc s = _
  unfold execReadLine
  dsimp only
  rw [hslotOf, hlineOf, hpageOf, hblockOf, hzero, hsetOf, State.dieCmd_taken htakes (List.Subset.refl _) (by simp [hslot, hline]),
    if_neg (by simp [hfree])]
  rfl

theorem exec_sendH_taken {r : DRead} {rest : List DRead} {w : StoredLine} (htakes : s.dieTakes die 0x11 [] crc Ds.awake)
    (hhost : (s.mdie die).host = r :: rest) (hsensed : r.sensed = some w) :
    exec (.sendH die crc) s = .next ((s.setMdie die { s.mdie die with host := rest }).emit (.dq die [w.toNat])) := by
  refine congrArg _ ((State.dieCmd_taken htakes (List.Subset.refl _) rfl _).trans ?_)
  simp [State.dieSend, hhost, hsensed]

theorem exec_sendB_taken {r : DRead} {rest : List DRead} {w : StoredLine} (htakes : s.dieTakes die 0x12 [] crc Ds.awake)
    (hbg : (s.mdie die).bg = r :: rest) (hsensed : r.sensed = some w) :
    exec (.sendB die crc) s = .next ((s.setMdie die { s.mdie die with bg := rest }).emit (.dq die [w.toNat])) := by
  refine congrArg _ ((State.dieCmd_taken htakes (List.Subset.refl _) rfl _).trans ?_)
  simp [State.dieSend, hbg, hsensed]

/-! ### Programs and erases (R244, R245) -/

theorem exec_progSetup_taken {page block : Nat} {arg : BitVec 24} (hpage : page < 2048) (hblock : block < 2048)
    (harg : arg.toNat = page + 2 ^ 11 * block) (htakes : s.dieTakes die 0x20 (argBytes 3 arg.toNat) crc [Ds.idle])
    (hwait : (s.mdie die).waiting = false) : exec (.progSetup die arg crc) s =
      .next (s.setMdie die { s.mdie die with st := Ds.loading, page := page, block := block, bursts := [], got := [] }) := by
  have hrange : arg.toNat < 2 ^ 22 := by omega
  have hpageOf : arg.toNat % 2048 = page := by omega
  have hblockOf : arg.toNat / 2048 % 2048 = block := by omega
  refine congrArg _ ((State.dieCmd_taken htakes (List.Subset.refl _) (decide_eq_true hrange) _).trans ?_)
  simp [hwait, hpageOf, hblockOf]

theorem exec_dataIn_taken {idx : BitVec 8} {data : BitVec 2048} (hidx : idx.toNat ≤ 88)
    (htakes : s.dieTakes die 0x21 [idx.toNat] crc [Ds.loading]) (hwait : (s.mdie die).waiting = false) :
    exec (.dataIn die idx data crc) s = .next (s.setMdie die { s.mdie die with
      bursts := sset 0 (s.mdie die).bursts idx.toNat data, got := setIns idx.toNat (s.mdie die).got }) := by
  refine congrArg _ ((State.dieCmd_taken htakes (List.Subset.refl _) (decide_eq_true hidx) _).trans ?_)
  simp [hwait]

/-- A die that has accepted PROG_CONFIRM: the image's CRC-32C is its DCRC (R244). -/
def MDie.confirmed (m : MDie) : MDie := { m with waiting := true, kind := false, dcrc := BitVec.ofNat 32 (crc32c m.imageBytes) }

theorem MDie.settle_confirmed (m : MDie) : m.confirmed.settle.dcrc = BitVec.ofNat 32 (crc32c m.imageBytes) ∧
    m.confirmed.settle.kind = false ∧
    (m.confirmed.settle.st, m.confirmed.settle.waiting) = if m.allSensed then (Ds.progBusy, false) else (m.st, true) := by
  have hsensed : m.confirmed.allSensed = m.allSensed := rfl
  rw [MDie.settle_of_waiting rfl, hsensed]
  split
  · exact ⟨rfl, rfl, rfl⟩
  · exact ⟨rfl, rfl, rfl⟩

theorem exec_progConfirm_taken (htakes : s.dieTakes die 0x22 [] crc [Ds.loading]) (hwait : (s.mdie die).waiting = false)
    (hfull : 89 ≤ (s.mdie die).got.length) : exec (.progConfirm die crc) s = .next (s.setMdie die (s.mdie die).confirmed.settle) := by
  refine congrArg _ ((State.dieCmd_taken htakes (List.Subset.refl _) rfl _).trans (if_neg ?_))
  simp [hwait, hfull]

theorem exec_progCancel_taken (htakes : s.dieTakes die 0x23 [] crc [Ds.loading]) (hwait : (s.mdie die).waiting = false) :
    exec (.progCancel die crc) s = .next (s.setMdie die { s.mdie die with st := Ds.idle, bursts := [], got := [] }) := by
  refine congrArg _ ((State.dieCmd_taken htakes (List.Subset.refl _) rfl _).trans (if_neg ?_))
  simp [hwait]

/-- A die that has accepted ERASE of a block. -/
def MDie.erasing (m : MDie) (block : Nat) : MDie := { m with waiting := true, kind := true, block := block }

theorem MDie.settle_erasing (m : MDie) (block : Nat) : (m.erasing block).settle.block = block ∧ (m.erasing block).settle.kind = true ∧
    ((m.erasing block).settle.st, (m.erasing block).settle.waiting) = if m.allSensed then (Ds.eraseBusy, false) else (m.st, true) := by
  have hsensed : (m.erasing block).allSensed = m.allSensed := rfl
  rw [MDie.settle_of_waiting rfl, hsensed]
  split
  · exact ⟨rfl, rfl, rfl⟩
  · exact ⟨rfl, rfl, rfl⟩

theorem exec_erase_taken {arg : BitVec 16} (harg : arg.toNat < 2048) (htakes : s.dieTakes die 0x28 (argBytes 2 arg.toNat) crc [Ds.idle])
    (hwait : (s.mdie die).waiting = false) :
    exec (.erase die arg crc) s = .next (s.setMdie die ((s.mdie die).erasing arg.toNat).settle) := by
  refine congrArg _ ((State.dieCmd_taken htakes (List.Subset.refl _) (decide_eq_true harg) _).trans (if_neg ?_))
  simp [hwait]

end

/-- Settles O5: each command by its own lemma; a program and an erase start at once or wait for the slots that are not yet sensed. -/
theorem mediaReadAndProgramCommands : Obligations.MediaReadAndProgramCommands := by
  unfold Obligations.MediaReadAndProgramCommands
  intro die crc s
  refine ⟨fun _ _ _ _ _ hslot hline hpage hblock _ _ harg => exec_readLine_taken hslot hline hpage hblock harg,
    fun _ _ _ => exec_sendH_taken, fun _ _ _ => exec_sendB_taken, fun _ _ _ => exec_progSetup_taken, fun _ _ => exec_dataIn_taken,
    ?confirm, exec_progCancel_taken, ?erase⟩
  case confirm =>
    intro htakes hwait hfull
    exact ⟨_, exec_progConfirm_taken htakes hwait hfull, htakes.st_eq ▸ (s.mdie die).settle_confirmed⟩
  case erase =>
    intro arg harg htakes hwait
    exact ⟨_, exec_erase_taken harg htakes hwait, htakes.st_eq ▸ (s.mdie die).settle_erasing arg.toNat⟩

end Sys2Proof.Machine
end

section
/-! SUPPORT. The control commands of a media die and the line RST_N (08_media_channels.md R245–R253, Tables 8.3–8.7). -/

set_option autoImplicit false
namespace Sys2Proof.Machine

/-! ### One die (R245–R250) -/

section
variable {die : Fin 320} {crc : BitVec 8} {s : State}

theorem exec_suspend_taken (htakes : s.dieTakes die 0x30 [] crc [Ds.progBusy, Ds.eraseBusy]) :
    exec (.suspend die crc) s = .next (s.setMdie die { s.mdie die with st := Ds.suspending }) := by
  have hbusy : (s.mdie die).st = Ds.progBusy ∨ (s.mdie die).st = Ds.eraseBusy := by simpa using htakes.st_mem
  exact congrArg _ ((State.dieCmd_taken htakes (by decide) rfl _).trans (if_pos hbusy))

theorem exec_resume_taken (htakes : s.dieTakes die 0x31 [] crc [Ds.suspending, Ds.suspended]) (hwait : (s.mdie die).waiting = false) :
    exec (.resume die crc) s = .next (s.setMdie die { s.mdie die with
      st := if (s.mdie die).allSensed then (s.mdie die).busy else Ds.resuming }) := by
  have hheld : (s.mdie die).st = Ds.suspending ∨ (s.mdie die).st = Ds.suspended := by simpa using htakes.st_mem
  have hsettle := MDie.settle_of_resuming (m := { s.mdie die with st := Ds.resuming }) hwait rfl
  have hsensed : ({ s.mdie die with st := Ds.resuming } : MDie).allSensed = (s.mdie die).allSensed := rfl
  refine congrArg _ ((State.dieCmd_taken htakes (by decide) rfl _).trans ((if_pos hheld).trans ?_))
  rw [hsettle, hsensed]
  split
  · rfl
  · rfl

theorem exec_status_taken (htakes : s.dieTakes die 0x40 [] crc Ds.notReset) :
    exec (.status die crc) s = .next ((s.setMdie die { s.mdie die with
      d := false, caErr := false, stateErr := false, addrErr := false, sendErr := false }).emit
        (.dq die [(s.mdie die).status, (s.mdie die).dcrc.toNat])) :=
  congrArg _ (State.dieCmd_taken htakes (List.Subset.refl _) rfl _)

theorem exec_featureSet_drive {v : Word} (htakes : s.dieTakes die 0x50 (1 :: argBytes 4 v.toNat) crc [Ds.idle, Ds.suspended]) :
    exec (.featureSet die 1 v crc) s = .next (s.setMdie die { s.mdie die with drive := v.toNat % 4 }) :=
  congrArg _ (State.dieCmd_taken htakes (List.Subset.refl _) rfl _)

theorem exec_featureSet_odt {v : Word} (htakes : s.dieTakes die 0x50 (2 :: argBytes 4 v.toNat) crc [Ds.idle, Ds.suspended]) :
    exec (.featureSet die 2 v crc) s = .next (s.setMdie die { s.mdie die with odt := v.toNat % 4 }) :=
  congrArg _ (State.dieCmd_taken htakes (List.Subset.refl _) rfl _)

/-- PAT_CTL: a checker that starts begins at no error (R254). -/
theorem exec_featureSet_patCtl {v : Word} (htakes : s.dieTakes die 0x50 (4 :: argBytes 4 v.toNat) crc [Ds.idle, Ds.suspended]) :
    exec (.featureSet die 4 v crc) s = .next (s.setMdie die { s.mdie die with
      patCtl := v.toNat % 32
      patErr := if v.toNat % 32 / 16 = 1 ∧ v.toNat % 32 / 8 % 2 = 0 then 0 else (s.mdie die).patErr }) :=
  congrArg _ (State.dieCmd_taken htakes (List.Subset.refl _) rfl _)

theorem exec_featureGet_drive (htakes : s.dieTakes die 0x51 [1] crc Ds.notReset) :
    exec (.featureGet die 1 crc) s = .next (s.emit (.dq die [(s.mdie die).drive])) :=
  congrArg _ (State.dieCmd_taken htakes (List.Subset.refl _) rfl _)

theorem exec_refAdj_taken {set : BitVec 8} {offs : BitVec 24} (hset : set.toNat < 8)
    (htakes : s.dieTakes die 0x60 (set.toNat :: argBytes 3 offs.toNat) crc [Ds.idle, Ds.loading, Ds.suspended]) :
    exec (.refAdj die set offs crc) s =
      .next (s.setMdie die { s.mdie die with refs := sset 0 (s.mdie die).refs set.toNat offs }) :=
  congrArg _ (State.dieCmd_taken htakes (List.Subset.refl _) (decide_eq_true hset) _)

end

/-! ### A broadcast that one die takes (R245, R252) -/

section
variable {ch : Fin 40} {ce crc : BitVec 8} {d : Nat} {s : State}

/-- Sub-operation 2: the die checks the pattern, from IDLE. -/
theorem exec_train_checked {sub param : BitVec 8} (hsub : sub.toNat = 2) (hone : ceDies ch ce = [d])
    (htakes : s.dieTakes d 0x70 [2, param.toNat] crc [Ds.idle]) : exec (.train ch ce sub param crc) s =
      .next (s.setMdie d { s.mdie d with st := Ds.training, former := Ds.idle, patErr := 0 }) := by
  have hstates : trainStates (s.mdie d) 2 = [Ds.idle] := rfl
  show execTrain ch ce sub param crc s = _
  unfold execTrain
  dsimp only
  rw [hone, hsub, if_neg (by simp), List.foldl_cons, List.foldl_nil, hstates, State.dieCmd_taken htakes (List.Subset.refl _) rfl,
    if_neg (by decide), if_pos rfl, if_pos rfl, htakes.st_eq]

theorem exec_sync_aligns (hone : ceDies ch ce = [d]) (htakes : s.dieTakes d 0x7E [] crc [Ds.caTrain]) :
    exec (.sync ch ce crc) s = .next (s.setMdie d { s.mdie d with aligned := true, st := Ds.idle }) := by
  show execSync ch ce crc s = _
  unfold execSync
  rw [hone, List.foldl_cons, List.foldl_nil, State.dieCmd_taken htakes (by decide) rfl, if_pos htakes.st_eq]

/-- A die on which no operation runs and none is suspended loses nothing by a reset (R247). -/
theorem State.dieCut_of_quiet (h : (s.mdie d).st ∈ [Ds.caTrain, Ds.idle, Ds.loading, Ds.training]) : s.dieCut d = s := by
  simp only [List.mem_cons, List.not_mem_nil, or_false, Ds.caTrain, Ds.idle, Ds.loading, Ds.training] at h
  unfold State.dieCut
  dsimp only
  rw [if_neg (by simp only [Ds.eraseBusy, Ds.suspending, Ds.resuming]; omega),
    if_neg (by simp only [Ds.progBusy, Ds.suspending, Ds.resuming]; omega)]

theorem exec_reset_quiet (hone : ceDies ch ce = [d])
    (htakes : s.dieTakes d 0x7F [] crc [Ds.caTrain, Ds.idle, Ds.loading, Ds.training]) :
    exec (.reset ch ce crc) s = .next (s.setMdie d (MDie.inReset false)) := by
  have hawake : (s.mdie d).st ≠ Ds.reset := fun h => absurd (h ▸ htakes.st_mem) (by decide)
  show execReset ch ce crc s = _
  unfold execReset
  rw [hone, List.foldl_cons, List.foldl_nil, State.dieCmd_taken htakes (by decide) rfl, if_neg fun h => hawake h.1, State.dieReset,
    State.dieCut_of_quiet htakes.st_mem]

end

/-! ### The dies of a channel (R245) -/

/-- An operation whose mask holds no die leaves every die. -/
theorem Same.mdie {m : Nat} {x s : State} (h : Same m x s) (hm : m.testBit 18 = false) (d : Nat) : s.mdie d = x.mdie d := by
  rw [State.mdie, h.md hm, State.mdie]

/-- Steps for different dies of a channel, each of which leaves every die but its own: what a step makes of its die's record is what the
fold makes of it, and every other die is left. -/
theorem foldl_dies {c : Nat} {f : State → Nat → State} {Q : MDie → Nat → MDie → Prop} {l : List Nat} (hl : l.Nodup)
    (hown : ∀ t, ∀ k ∈ l, Q (t.mdie (8 * c + k)) k ((f t k).mdie (8 * c + k)))
    (hother : ∀ t, ∀ k ∈ l, ∀ d, d ≠ 8 * c + k → (f t k).mdie d = t.mdie d) (s : State) :
    (∀ k ∈ l, Q (s.mdie (8 * c + k)) k ((l.foldl f s).mdie (8 * c + k))) ∧
    ∀ d, (∀ k ∈ l, d ≠ 8 * c + k) → (l.foldl f s).mdie d = s.mdie d := by
  induction l generalizing s with
  | nil => simp
  | cons j l ih =>
    obtain ⟨hj, hnodup⟩ := List.nodup_cons.mp hl
    have hmem {k : Nat} (h : k ∈ l) : k ∈ j :: l := List.mem_cons_of_mem j h
    obtain ⟨hdone, hleft⟩ := ih hnodup (fun t k hk => hown t k (hmem hk)) (fun t k hk => hother t k (hmem hk)) (f s j)
    have hfirst := hother s j List.mem_cons_self
    have hne : ∀ k ∈ l, 8 * c + k ≠ 8 * c + j := fun k hk h => hj (by rwa [← Nat.add_left_cancel h])
    constructor
    · refine List.forall_mem_cons.mpr ⟨?_, fun k hk => ?_⟩
      · rw [List.foldl_cons, hleft _ fun k hk => (hne k hk).symm]
        exact hown s j List.mem_cons_self
      · rw [← hfirst _ (hne k hk)]
        exact hdone k hk
    · intro d hd
      obtain ⟨hdj, hdl⟩ := List.forall_mem_cons.mp hd
      exact (hleft d hdl).trans (hfirst d hdj)

theorem State.mdie_dieReset_self (s : State) (d : Nat) (hard : Bool) : (s.dieReset d hard).mdie d = MDie.inReset hard :=
  State.mdie_setMdie_self _ _ _

theorem State.mdie_dieReset_ne (s : State) {d e : Nat} (hard : Bool) (h : e ≠ d) : (s.dieReset d hard).mdie e = s.mdie e :=
  (State.mdie_setMdie_ne _ _ h).trans ((State.dieCut_keeps (m := 8196) rfl (Same.refl _ s)).mdie rfl e)

/-- RST_N of a channel low: every die of it is in RESET. -/
theorem State.chanReset_mdie (s : State) (c : Nat) :
    ∀ k, k < 8 → ((List.range 8).foldl (fun s k => s.dieReset (8 * c + k) true) s).mdie (8 * c + k) = MDie.inReset true := by
  obtain ⟨hown, -⟩ := foldl_dies (c := c) (f := fun s k => s.dieReset (8 * c + k) true) (Q := fun _ _ m => m = MDie.inReset true)
    (List.nodup_range (n := 8)) (fun t k _ => t.mdie_dieReset_self _ _) (fun t k _ d hd => t.mdie_dieReset_ne _ hd) s
  exact fun k hk => hown k (List.mem_range.mpr hk)

/-- RST_N rises for a die: one that RST_N holds in RESET goes to CA_TRAIN (R245). -/
def State.rstRise (s : State) (d : Nat) : State :=
  if (s.mdie d).st = Ds.reset ∧ (s.mdie d).hard then s.setMdie d { s.mdie d with st := Ds.caTrain } else s

theorem State.mdie_rstRise_self {s : State} {d : Nat} (hst : (s.mdie d).st = Ds.reset) (hhard : (s.mdie d).hard = true) :
    ((s.rstRise d).mdie d).st = Ds.caTrain := by
  rw [State.rstRise, if_pos ⟨hst, hhard⟩, State.mdie_setMdie_self]

theorem State.mdie_rstRise_ne (s : State) {d e : Nat} (h : e ≠ d) : (s.rstRise d).mdie e = s.mdie e := by
  unfold State.rstRise
  split
  · exact s.mdie_setMdie_ne _ h
  · rfl

theorem exec_rstN_low (ch : Fin 40) (s : State) : ∃ t, exec (.rstN ch false) s = .next t ∧
    ∀ k, k < 8 → t.mdie (8 * ch.val + k) = MDie.inReset true := ⟨_, rfl, s.chanReset_mdie ch⟩

theorem exec_rstN_high (ch : Fin 40) (s : State) : ∃ t, exec (.rstN ch true) s = .next t ∧
    (∀ k, k < 8 → (s.mdie (8 * ch.val + k)).st = Ds.reset → (s.mdie (8 * ch.val + k)).hard = true →
      (t.mdie (8 * ch.val + k)).st = Ds.caTrain) ∧
    ∀ d, (∀ k, k < 8 → d ≠ 8 * ch.val + k) → t.mdie d = s.mdie d := by
  obtain ⟨hown, hother⟩ := foldl_dies (c := ch.val) (f := fun s k => s.rstRise (8 * ch.val + k))
    (Q := fun m _ m' => m.st = Ds.reset → m.hard = true → m'.st = Ds.caTrain) (List.nodup_range (n := 8))
    (fun t k _ => State.mdie_rstRise_self) (fun t k _ d hd => t.mdie_rstRise_ne hd) s
  exact ⟨_, rfl, fun k hk => hown k (List.mem_range.mpr hk), fun d hd => hother d fun k hk => hd k (List.mem_range.mp hk)⟩

/-- Settles O6: each command by its own lemma; RST_N by the fold over the channel's dies. -/
theorem mediaControlCommands : Obligations.MediaControlCommands := by
  unfold Obligations.MediaControlCommands
  intro die crc s
  refine ⟨exec_suspend_taken, exec_resume_taken, exec_status_taken, fun _ => exec_featureSet_drive, fun _ => exec_featureSet_odt,
    fun v htakes => ⟨_, exec_featureSet_patCtl htakes, ?_⟩, exec_featureGet_drive, fun _ _ => exec_refAdj_taken,
    fun _ _ _ _ => exec_train_checked rfl, fun _ _ _ => exec_sync_aligns, fun _ _ _ => exec_reset_quiet,
    fun ch => exec_rstN_low ch s, fun ch => exec_rstN_high ch s⟩
  rw [State.mdie_setMdie_self]

end Sys2Proof.Machine
end

section
/-! SUPPORT. The events of a media die (08_media_channels.md R243–R247, Table 8.5). -/

set_option autoImplicit false
namespace Sys2Proof.Machine

section
variable {die : Fin 320} {s : State}

/-! ### A line is sensed (R243, R246) -/

/-- A line that lies in no operation's place is sensed as it stands on the page, with the errors of the read. -/
theorem State.sense_stored {d : Nat} {m : MDie} (h : m.st < Ds.suspending) (r : DRead) (err : StoredLine) :
    s.sense d m r err = (sget 0 (s.mpage d r.block r.page).lines r.line ^^^ err, s) :=
  if_neg fun ⟨hlow, _⟩ => Nat.not_lt.mpr hlow h

/-- The only occupied slot of an idle die is sensed. -/
theorem exec_lineSensed_only {slot : Fin 12} {err : StoredLine} {r : DRead} (hhost : (s.mdie die).host = [r])
    (hbg : (s.mdie die).bg = []) (hslot : r.slot = slot.val) (hsensed : r.sensed = none) (hst : (s.mdie die).st = Ds.idle)
    (hwait : (s.mdie die).waiting = false) : exec (.lineSensed die slot err) s = .next (s.setMdie die { s.mdie die with
      host := [{ r with sensed := some (sget 0 (s.mpage die r.block r.page).lines r.line ^^^ err) }] }) := by
  have hawake : ¬((s.mdie die).st = Ds.reset ∨ (s.mdie die).st = Ds.suspending) := by rw [hst]; decide
  have hfind : ((s.mdie die).host ++ (s.mdie die).bg).find? (fun r => r.slot == slot.val && r.sensed.isNone) = some r := by
    simp [hhost, hbg, hslot, hsensed]
  have hstored := s.sense_stored (d := die) (m := s.mdie die) (by rw [hst]; decide) r err
  have hsettle (h b : List DRead) : ({ s.mdie die with host := h, bg := b } : MDie).settle = { s.mdie die with host := h, bg := b } :=
    MDie.settle_of_still hwait (by rw [hst]; decide)
  show execLineSensed die slot err s = _
  unfold execLineSensed
  dsimp only
  rw [if_neg hawake, hfind]
  dsimp only
  rw [hstored, hsettle, hhost, List.map_singleton, if_pos hslot, hbg]
  rfl

/-! ### An operation ends (R245, R247) -/

/-- The die's record where an operation has ended well. -/
def MDie.ended (m : MDie) : MDie := { m with st := Ds.idle, d := true, pf := false }

/-- A page on media is written whole. -/
def State.pagePut (s : State) (d b p : Nat) (pg : MPage) : State :=
  { s with te.media := sset MPage.erased s.te.media (pageKey d b p) pg }

theorem State.mpage_pagePut_self (s : State) (d b p : Nat) (pg : MPage) : (s.pagePut d b p pg).mpage d b p = pg := sget_sset_self _ _ _ _

/-- No page of a block is programmed. -/
def State.blockWiped (s : State) (d b : Nat) : State :=
  { s with te.media := skeep s.te.media (fun k => k / 2048 != 2048 * d + b) }

/-- An entry that is not kept reads as the default. -/
theorem sget_skeep_dropped {α : Type} (d : α) (l : Sparse α) {p : Nat → Bool} {k : Nat} (h : p k = false) :
    sget d (skeep l p) k = d := by
  induction l with
  | nil => rfl
  | cons e l ih =>
    by_cases he : p e.1
    · have hne : e.1 ≠ k := fun heq => by simp [heq, h] at he
      simpa [skeep, he, sget, hne] using ih
    · simpa [skeep, he] using ih

theorem pageKey_block (d b : Nat) {p : Nat} (h : p < 2048) : pageKey d b p / 2048 = 2048 * d + b := by unfold pageKey; omega

theorem State.mpage_blockWiped (s : State) (d b : Nat) {p : Nat} (h : p < 2048) : (s.blockWiped d b).mpage d b p = MPage.erased :=
  sget_skeep_dropped MPage.erased s.te.media (p := fun k => k / 2048 != 2048 * d + b) (by simp [pageKey_block d b h])

theorem exec_operationEnds_program (hst : (s.mdie die).st = Ds.progBusy) : exec (.operationEnds die false) s = .next
    ((s.setMdie die (s.mdie die).ended).pagePut die (s.mdie die).block (s.mdie die).page ⟨(s.mdie die).imageLines⟩) :=
  (if_pos (.inl hst)).trans (if_pos hst)

theorem exec_operationEnds_erase (hst : (s.mdie die).st = Ds.eraseBusy) : exec (.operationEnds die false) s = .next
    ((s.setMdie die (s.mdie die).ended).blockWiped die (s.mdie die).block) :=
  (if_pos (.inr hst)).trans (if_neg (by rw [hst]; decide))

/-- The record of a die whose operation has ended well shows it. -/
theorem State.ended_shows {t : State} {d : Nat} {m : MDie} (h : t.mdie d = m.ended) :
    (t.mdie d).st = Ds.idle ∧ (t.mdie d).d = true ∧ (t.mdie d).pf = false := by
  rw [h]
  exact ⟨rfl, rfl, rfl⟩

/-! ### Transitions of Table 8.5 -/

theorem exec_suspensionPointReached_suspends (hst : (s.mdie die).st = Ds.suspending) :
    exec (.suspensionPointReached die) s = .next (s.setMdie die { s.mdie die with st := Ds.suspended }) :=
  congrArg _ (if_pos hst)

theorem exec_dieResetDone_idles (hst : (s.mdie die).st = Ds.reset) (hhard : (s.mdie die).hard = false) :
    exec (.dieResetDone die) s = .next (s.setMdie die { s.mdie die with st := Ds.idle }) :=
  congrArg _ (if_pos ⟨hst, by rw [hhard]; rfl⟩)

theorem exec_trainPatternEnd_returns (hst : (s.mdie die).st = Ds.training) :
    exec (.trainPatternEnd die) s = .next (s.setMdie die { s.mdie die with st := (s.mdie die).former }) :=
  congrArg _ (if_pos hst)

end

/-- Settles O7: each event by its own lemma. -/
theorem mediaDieEvents : Obligations.MediaDieEvents := by
  unfold Obligations.MediaDieEvents
  intro die s
  refine ⟨?sensed, ?program, ?erase, exec_suspensionPointReached_suspends, exec_dieResetDone_idles, exec_trainPatternEnd_returns⟩
  case sensed =>
    intro slot err r hhost hbg hslot hsensed hst hwait
    exact ⟨_, exec_lineSensed_only hhost hbg hslot hsensed hst hwait, by rw [State.mdie_setMdie_self], rfl⟩
  case program =>
    intro hst
    obtain ⟨hidle, hd, hpf⟩ := State.ended_shows (s.mdie_setMdie_self die (s.mdie die).ended)
    exact ⟨_, exec_operationEnds_program hst, hidle, hd, hpf, congrArg MPage.lines (State.mpage_pagePut_self _ _ _ _ _)⟩
  case erase =>
    intro hst
    obtain ⟨hidle, hd, hpf⟩ := State.ended_shows (s.mdie_setMdie_self die (s.mdie die).ended)
    exact ⟨_, exec_operationEnds_erase hst, hidle, hd, hpf, fun _ => State.mpage_blockWiped _ _ _⟩

end Sys2Proof.Machine
end

section
/-! SUPPORT. The commands of a media channel (08_media_channels.md R242, R243, R252–R259, Tables 8.10, 8.12, 8.14). -/

set_option autoImplicit false
namespace Sys2Proof.Machine

/-! ### The registers of a channel and of its group -/

/-- No block-specific register of a media channel is among those that an event of any block may change. -/
theorem bookReg_mc (i : Nat) {x : Nat} (h : 0x100 ≤ x) (hx : x < 0x1000) : bookReg ((32 + i % 40) * 0x1000 + x) = false :=
  bookReg_of (by unfold pageOf; omega) (by unfold pageOf; omega) (by omega)

theorem regBlk_mc (i : Nat) {x : Nat} (h : 0x100 ≤ x) (hx : x < 0x1000) : regBlk ((32 + i % 40) * 0x1000 + x) = 17 :=
  blk17 (by omega) (by omega)

theorem bookReg_mcCtl (i : Nat) : bookReg (R.MC_CTL i) = false := bookReg_mc i (by decide) (by decide)
theorem bookReg_mcSts (i : Nat) : bookReg (R.MC_STS i) = false := bookReg_mc i (by decide) (by decide)
theorem bookReg_mcDies (i : Nat) : bookReg (R.MC_DIES i) = false := bookReg_mc i (by decide) (by decide)
theorem bookReg_mcPatCtl (i : Nat) : bookReg (R.MC_PAT_CTL i) = false := bookReg_mc i (by decide) (by decide)
theorem bookReg_mcPatErr (i : Nat) : bookReg (R.MC_PAT_ERR i) = false := bookReg_mc i (by decide) (by decide)
theorem bookReg_mcPatLanes (i : Nat) : bookReg (R.MC_PAT_LANES i) = false := bookReg_mc i (by decide) (by decide)

theorem regBlk_mcSts (i : Nat) : regBlk (R.MC_STS i) = 17 := regBlk_mc i (by decide) (by decide)

/-- A register access leaves a channel's enable bit (R259). -/
theorem State.regAcc_mcEn (s : State) (page c : Nat) : (s.regAcc page).bit (F.MC_CTL.EN c) = s.bit (F.MC_CTL.EN c) :=
  (s.regAcc_book page).bit (bookReg_mcCtl c)

@[simp] theorem State.mdie_emit (s : State) (o : Output) (d : Nat) : (s.emit o).mdie d = s.mdie d := by simp [State.mdie]

@[simp] theorem State.mdie_dieMod (s : State) (d : Nat) (f : DieCtl → DieCtl) (e : Nat) : (s.dieMod d f).mdie e = s.mdie e := rfl

theorem State.die_emit (s : State) (o : Output) (d : Nat) : (s.emit o).die d = s.die d := by simp [State.die]

theorem State.emit_te (s : State) (o : Output) : (s.emit o).te = s.te := by simp

theorem State.dieMod_reads (s : State) (d : Nat) (f : DieCtl → DieCtl) : (s.dieMod d f).te.reads = s.te.reads := rfl

theorem State.whenRoll_same (s : State) (b : Bool) (c v r x y z : Nat) : Same 67109384 s (s.when b fun s => s.roll c v r x y z) :=
  same_when (Same.refl _ s) fun _ ht => State.roll_keeps rfl ht

/-! ### Training starts (R252, Table 8.10) -/

theorem State.mgShow_same (s : State) (c : Nat) : Same 4398046511112 s (s.mgShow c) := State.mgShow_keeps rfl (Same.refl _ s)

theorem State.trainStart_busy (s : State) (c : Nat) : (s.trainStart c).bit (F.MC_STS.TRAIN_BUSY c) = true := by
  unfold State.trainStart
  extract_lets reset shown
  rw [(State.mgShow_same _ c).bit (bookReg_mcSts c) (by rw [regBlk_mcSts]; decide), State.bit_setBit_ne _ _ _ _ (by simp) (by simp),
    State.bit_setBit_self _ _ _ (by simp) (by simp)]

/-- Every die of a channel whose training starts is in RESET. -/
theorem State.trainStart_mdie (s : State) (c : Nat) {k : Nat} (hk : k < 8) : (s.trainStart c).mdie (8 * c + k) = MDie.inReset true := by
  have hset : ∀ (t : State) f b, (t.setBit f b).mdie (8 * c + k) = t.mdie (8 * c + k) := fun _ _ _ => rfl
  unfold State.trainStart
  extract_lets reset shown
  rw [(State.mgShow_same _ c).mdie rfl, hset, hset, State.mdie_emit, State.mdie_emit]
  exact s.chanReset_mdie c k hk

theorem State.trainStart_mcTry (s : State) (c : Nat) : (s.trainStart c).mcTry = s.mcTry :=
  (State.trainStart_keeps (m := 21990299934734) rfl (Same.refl _ s)).mcTry rfl

/-! ### Training ends (R252) -/

section
variable {ch : Fin 40} {r : ChanTrain} {s : State}

/-- A training that fails resets the channel for its second attempt. -/
theorem exec_channelTraining_again {step : Fin 8} (hbusy : s.bit (F.MC_STS.TRAIN_BUSY ch) = true) (hfail : r.fail = some step)
    (hfirst : s.mcTry.contains ch.val = false) : ∃ t, exec (.channelTraining ch r) s = .next t ∧ t.mcTry = setIns ch.val s.mcTry ∧
      ∀ k, k < 8 → t.mdie (8 * ch.val + k) = MDie.inReset true := by
  have htry := (s.whenRoll_same (s.bit (F.MC_CTL.EVT_EN ch)) 0x0604 0 (32 + ch) 0 ch step.val).mcTry rfl
  refine ⟨{ s.when (s.bit (F.MC_CTL.EVT_EN ch)) (fun s => s.roll 0x0604 0 (32 + ch) 0 ch step.val) with
    mcTry := setIns ch.val s.mcTry }.trainStart ch, ?_, State.trainStart_mcTry _ _, fun _ => State.trainStart_mdie _ _⟩
  show execChannelTraining ch r s = _
  unfold execChannelTraining
  dsimp only
  rw [if_neg (by simp [hbusy]), hfail]
  dsimp only
  rw [htry, hfirst]
  rfl

/-- What a passed training makes of the die at a position: one that is present and of the right geometry is trained, another has failed
(steps 3 to 6 of Table 8.10). -/
def State.trainAt (s : State) (c : Nat) (r : ChanTrain) (k : Nat) : State :=
  if r.present.getLsbD k && r.geom.getLsbD k then s.trainDie (8 * c + k) (r.trn.getD k (0, 0, 0)) else s.trainDieFail (8 * c + k)

theorem State.trainDieFail_mdie (s : State) (d e : Nat) : (s.trainDieFail d).mdie e = s.mdie e :=
  (State.trainDieFail_keeps (m := 314447559261966) rfl (Same.refl _ s)).mdie rfl e

theorem State.trainAt_mdie_self {c k : Nat} (hpresent : r.present.getLsbD k = true) (hgeom : r.geom.getLsbD k = true) :
    ((s.trainAt c r k).mdie (8 * c + k)).st = Ds.idle ∧ ((s.trainAt c r k).mdie (8 * c + k)).aligned = true := by
  rw [State.trainAt, if_pos (by rw [hpresent, hgeom]; rfl), State.trainDie, State.mdie_dieMod, State.mdie_setMdie_self]
  exact ⟨rfl, rfl⟩

theorem State.trainAt_mdie_ne {c k d : Nat} (h : d ≠ 8 * c + k) : (s.trainAt c r k).mdie d = s.mdie d := by
  unfold State.trainAt
  split
  · rw [State.trainDie, State.mdie_dieMod, State.mdie_setMdie_ne _ _ h]
  · exact s.trainDieFail_mdie _ _

theorem State.trainAt_same (s : State) (c : Nat) (r : ChanTrain) (k : Nat) : Same 314447559524110 s (s.trainAt c r k) :=
  same_ite (State.trainDie_keeps rfl (Same.refl _ s)) (State.trainDieFail_keeps rfl (Same.refl _ s))

/-- A channel that has passed its training shows it, RST_N is high, and waiting requests go on. -/
def State.trainShown (s : State) (c : Nat) : State :=
  let u := ((s.setBit (F.MC_STS.TRAINED c) true).setBit (F.MC_STS.TRAIN_BUSY c) false).setBit (F.MC_CTL.RETRAIN c) false
  ((u.emit (.pin (.mcRstN c) (some true))).mgShow c).pump

theorem State.trainShown_same (s : State) (c : Nat) : Same 314447559261966 s (s.trainShown c) :=
  State.pump_keeps rfl (State.mgShow_keeps rfl (State.emit_keeps rfl (State.setBit_keeps rfl (R.MC_CTL_ok rfl)
    (State.setBit_keeps rfl (R.MC_STS_ok rfl) (State.setBit_keeps rfl (R.MC_STS_ok rfl) (Same.refl _ s))))))

/-- The positions of a channel trained in their order. -/
def State.trainAll (s : State) (c n : Nat) (r : ChanTrain) : State := (List.range n).foldl (fun s k => s.trainAt c r k) s

theorem State.trainAll_mcTry (s : State) (c n : Nat) (r : ChanTrain) : (s.trainAll c n r).mcTry = s.mcTry :=
  foldl_eq State.mcTry (fun t k => (t.trainAt_same c r k).mcTry rfl) _ s

theorem State.trainAll_mdie {c n k : Nat} (hk : k < n) (hpresent : r.present.getLsbD k = true) (hgeom : r.geom.getLsbD k = true) :
    ((s.trainAll c n r).mdie (8 * c + k)).st = Ds.idle ∧ ((s.trainAll c n r).mdie (8 * c + k)).aligned = true := by
  obtain ⟨hown, -⟩ := foldl_dies (c := c) (f := fun s k => s.trainAt c r k)
    (Q := fun _ k m => r.present.getLsbD k = true → r.geom.getLsbD k = true → m.st = Ds.idle ∧ m.aligned = true)
    (List.nodup_range (n := n)) (fun t k _ => State.trainAt_mdie_self) (fun t k _ d => State.trainAt_mdie_ne) s
  exact hown k (List.mem_range.mpr hk) hpresent hgeom

theorem exec_channelTraining_passed (hbusy : s.bit (F.MC_STS.TRAIN_BUSY ch) = true) (hpass : r.fail = none) :
    ∃ t, exec (.channelTraining ch r) s = .next t ∧ t.mcTry = setDel ch.val s.mcTry ∧
      ∀ k, k < s.num (R.MC_DIES ch) % 16 → k < 8 → r.present.getLsbD k = true → r.geom.getLsbD k = true →
        (t.mdie (8 * ch.val + k)).st = Ds.idle ∧ (t.mdie (8 * ch.val + k)).aligned = true := by
  refine ⟨((({ s with mcTry := setDel ch.val s.mcTry } : State).set (F.MC_STS.PRESENT ch) r.present.toNat).trainAll ch
    (s.num (R.MC_DIES ch) % 16) r).trainShown ch, ?_, ?_, fun k hk _ hpresent hgeom => ?_⟩
  · show execChannelTraining ch r s = _
    unfold execChannelTraining
    dsimp only
    rw [if_neg (by simp [hbusy]), hpass]
    rfl
  · exact ((State.trainShown_same _ _).mcTry rfl).trans (State.trainAll_mcTry _ _ _ _)
  · rw [(State.trainShown_same _ _).mdie rfl]
    exact State.trainAll_mdie hk hpresent hgeom

end

/-! ### Reports and reads (R242, R243, R255, R256) -/

/-- A command given to a die so many times leaves so many times, and no register but those of `bookReg` changes. -/
theorem foldl_emit (o : Output) (n : Nat) (s : State) : ((List.range n).foldl (fun s _ => s.emit o) s).out = s.out ++ List.replicate n o ∧
    ((List.range n).foldl (fun s _ => s.emit o) s).regsAre s := by
  induction n with
  | zero => simp [State.regsAre_refl]
  | succ n ih =>
    obtain ⟨hout, hregs⟩ := ih
    rw [List.range_succ, List.foldl_append, List.foldl_cons, List.foldl_nil, State.emit_out, hout, List.replicate_succ', List.append_assoc]
    exact ⟨rfl, (State.emit_book _ _).trans hregs⟩

theorem State.whenEmit_shows (s : State) (c : Bool) (o : Output) : (s.when c fun s => s.emit o).out = s.out ++ (if c then [o] else []) ∧
    (s.when c fun s => s.emit o).regsAre s := by
  cases c
  · exact ⟨(List.append_nil _).symm, State.regsAre_refl s⟩
  · exact ⟨s.emit_out o, s.emit_book o⟩

/-- The reads that a die has been given. -/
def State.dieReads (s : State) (d : Nat) : List MRead := s.te.reads.filter fun m => m.loc.die == d && m.issued

/-- Of reads, those of misses of the host or of the twin. -/
def hostReads (l : List MRead) : List MRead := l.filter fun m => m.purpose.host?

/-- The state after a ready-round report of a die in service. -/
def State.reported (s : State) (d hc : Nat) (b st : Bool) : State :=
  let sent := (List.range (min hc (hostReads (s.dieReads d)).length)).foldl (fun s _ => s.emit (.media (chanOf d) Cmd.sendH [d])) s
  (sent.when (b && decide ((hostReads (s.dieReads d)).length < (s.dieReads d).length))
    fun s => s.emit (.media (chanOf d) Cmd.sendB [d])).when st fun s => s.emit (.media (chanOf d) Cmd.status [d])

theorem exec_readyRoundReport_alive {die : Fin 320} {s : State} (hc : Fin 4) (b d : Bool) (halive : (s.die die).failed = false) :
    exec (.readyRoundReport die hc b d) s = .next (s.reported die hc b d) := if_neg (by simp [halive])

theorem State.reported_shows (s : State) (d hc : Nat) (b st : Bool) : (s.reported d hc b st).regsAre s ∧
    (s.reported d hc b st).out = s.out ++
      List.replicate (min hc (hostReads (s.dieReads d)).length) (.media (chanOf d) Cmd.sendH [d]) ++
      (if b && decide ((hostReads (s.dieReads d)).length < (s.dieReads d).length) then [.media (chanOf d) Cmd.sendB [d]] else []) ++
      (if st then [.media (chanOf d) Cmd.status [d]] else []) := by
  unfold State.reported
  extract_lets sent
  obtain ⟨hsent, hsentRegs⟩ := foldl_emit (.media (chanOf d) Cmd.sendH [d]) (min hc (hostReads (s.dieReads d)).length) s
  obtain ⟨hbg, hbgRegs⟩ := sent.whenEmit_shows (b && decide ((hostReads (s.dieReads d)).length < (s.dieReads d).length))
    (.media (chanOf d) Cmd.sendB [d])
  generalize (sent.when _ fun s => s.emit (.media (chanOf d) Cmd.sendB [d])) = bg at hbg hbgRegs ⊢
  obtain ⟨hstatus, hstatusRegs⟩ := bg.whenEmit_shows st (.media (chanOf d) Cmd.status [d])
  exact ⟨hstatusRegs.trans (hbgRegs.trans hsentRegs), by rw [hstatus, hbg, hsent]⟩

/-- A read's timeout is counted and noted in the die's history, and the controller asks for the die's status (step 1 of Table 8.12). -/
def State.timeoutNoted (s : State) (d : Nat) : State :=
  let u := (s.bump (R.MC_RD_TO_CNT (chanOf d))).emit (.media (chanOf d) Cmd.status [d])
  u.dieMod d fun x => { x with recoveries :=
    (u.die d).recoveries.filter (fun t => decide (s.tick.toNat < t + 100000000)) ++ [s.tick.toNat] }

/-- The die goes to a step of its recovery, which is recorded where the group records events. -/
def State.timeoutStep (s : State) (d step : Nat) : State :=
  (s.when (s.bit (F.MG_CTL.EVT_EN (chanOf d / 8))) fun s => s.roll 0x0600 0 (32 + chanOf d) d step 0).dieMod d
    fun x => { x with step := step }

theorem State.timeoutStep_shows (s : State) (d step : Nat) : ((s.timeoutStep d step).die d).step = step ∧
    (s.timeoutStep d step).te.reads = s.te.reads := by
  have hte := (s.whenRoll_same (s.bit (F.MG_CTL.EVT_EN (chanOf d / 8))) 0x0600 0 (32 + chanOf d) d step 0).te rfl
  exact ⟨congrArg DieCtl.step (State.die_dieMod _ _ _), (State.dieMod_reads _ _ _).trans (congrArg TeSt.reads hte)⟩

theorem State.timeoutNoted_reads (s : State) (d : Nat) : (s.timeoutNoted d).te.reads = s.te.reads := by
  rw [State.timeoutNoted, State.dieMod_reads, State.emit_te]
  rfl

theorem exec_readTimeout_first {id : Nat} {m : MRead} {s : State} (occupied : Bool)
    (hfind : s.te.reads.find? (fun m => m.id == id && m.issued) = some m) (halive : (s.die m.loc.die).failed = false)
    (hstep : (s.die m.loc.die).step = 0)
    (hfew : ((s.die m.loc.die).recoveries.filter (fun t => decide (s.tick.toNat < t + 100000000))).length < 2) :
    exec (.readTimeout id true occupied) s = .next (
      if occupied then (s.timeoutNoted m.loc.die).timeoutStep m.loc.die 2
      else ((s.timeoutNoted m.loc.die).timeoutStep m.loc.die 3).readCmd m) := by
  have hdie : ((s.bump (R.MC_RD_TO_CNT (chanOf m.loc.die))).emit (.media (chanOf m.loc.die) Cmd.status [m.loc.die])).die m.loc.die =
    s.die m.loc.die := State.die_emit _ _ _
  have hless : ¬((s.die m.loc.die).recoveries.filter (fun t => decide (s.tick.toNat < t + 100000000)) ++
      [s.tick.toNat]).length ≥ 3 := by
    rw [List.length_append, List.length_singleton]
    omega
  show execReadTimeout id true occupied s = _
  unfold execReadTimeout
  rw [hfind]
  dsimp only
  rw [if_neg (by simp [halive]), hstep, State.timeoutNoted, hdie, if_neg hless]
  cases occupied with
  | true => rfl
  | false => rfl

/-- A read whose slot is occupied goes to step 2, another is sent again in step 3 (Table 8.12). -/
theorem exec_readTimeout_shows {id : Nat} {m : MRead} {s : State} (occupied : Bool)
    (hfind : s.te.reads.find? (fun m => m.id == id && m.issued) = some m) (halive : (s.die m.loc.die).failed = false)
    (hstep : (s.die m.loc.die).step = 0)
    (hfew : ((s.die m.loc.die).recoveries.filter (fun t => decide (s.tick.toNat < t + 100000000))).length < 2) :
    ∃ t, exec (.readTimeout id true occupied) s = .next t ∧ (t.die m.loc.die).step = (if occupied then 2 else 3) ∧
      t.te.reads = s.te.reads := by
  refine ⟨_, exec_readTimeout_first occupied hfind halive hstep hfew, ?_⟩
  have hnoted := s.timeoutNoted_reads m.loc.die
  cases occupied with
  | true =>
    obtain ⟨hdie, hreads⟩ := (s.timeoutNoted m.loc.die).timeoutStep_shows m.loc.die 2
    exact ⟨hdie, hreads.trans hnoted⟩
  | false =>
    obtain ⟨hdie, hreads⟩ := (s.timeoutNoted m.loc.die).timeoutStep_shows m.loc.die 3
    generalize (s.timeoutNoted m.loc.die).timeoutStep m.loc.die 3 = u at hdie hreads ⊢
    have hsent : (u.readCmd m).te = u.te := (State.readCmd_keeps (m := 67108874) rfl (Same.refl _ u)).te rfl
    have hkept : (u.readCmd m).die m.loc.die = u.die m.loc.die := congrArg (fun e : TeSt => sget DieCtl.ok e.dies m.loc.die) hsent
    exact ⟨(congrArg DieCtl.step hkept).trans hdie, (congrArg TeSt.reads hsent).trans (hreads.trans hnoted)⟩

/-! ### Tracking and suspension (R246, R253, R257) -/

section
variable {die : Fin 320} {s : State}

/-- The read phase after a check: one step up or down, in 0 to 63 (R253). -/
def trackedPhase (up down : Bool) (phase : Nat) : Nat :=
  if up && !down then min 63 (phase + 1) else if down && !up then phase - 1 else phase

theorem exec_trackInterval_shows (up down : Bool) (htrack : s.bit (F.MG_CTL.TRACK_EN (groupOf die)) = true)
    (htrained : s.bit (F.MC_STS.TRAINED (chanOf die)) = true) (halive : (s.die die).failed = false)
    (hquiet : s.te.reads.all (fun m => m.loc.die != die.val) = true) : ∃ t, exec (.trackInterval die up down) s = .next t ∧
      t.regsAre s ∧ (t.die die).phase = trackedPhase up down (s.die die).phase := by
  refine ⟨(s.emit (.media (chanOf die) Cmd.train [die.val, 3])).dieMod die fun x => { x with phase := trackedPhase up down x.phase },
    if_pos ?_, State.regsAre.trans (State.regsAre_of_eq rfl) (s.emit_book _), ?_⟩
  · rw [htrack, htrained, halive, hquiet]
    rfl
  · rw [State.die_dieMod, State.die_emit]

theorem exec_suspendWarn_shows (hsusp : (s.die die).suspended = true) (hrec : (s.die die).suspRec = false) :
    ∃ t, exec (.suspendWarn die) s = .next t ∧ (t.die die).suspRec = true ∧ (t.die die).suspended = true ∧ t.regsAre s := by
  have hmarked := s.die_dieMod die fun x => { x with suspRec := true }
  have hregs : (s.dieMod die fun x => { x with suspRec := true }).regsAre s := State.regsAre_of_eq rfl
  refine ⟨_, if_pos (by rw [hsusp, hrec]; rfl), ?_, ?_, (State.roll_book _ _ _ _ _ _ _).trans hregs⟩
  all_goals rw [State.onMedia_die ((State.roll_same _ _ _ _ _ _ _).onMedia rfl), hmarked]
  exact hsusp

end

/-! ### Retraining and the pattern (R254, R259) -/

section
variable {ch : Fin 40} {path : Path} {s : State}

theorem exec_mcRetrain_starts (hmgr : s.isManager path = true) (hen : s.bit (F.MC_CTL.EN ch) = false)
    (hdies : s.num (R.MC_DIES ch) % 16 ≠ 0) (hrun : s.fencedSrc (32 + ch.val) = false) : exec (.mcRetrain ch path) s = .next
      ({ (s.regAcc (32 + ch)).setBit (F.MC_CTL.RETRAIN ch) true with mcTry := setDel ch.val s.mcTry }.trainStart ch) := by
  have haccess : (s.regAcc (32 + ch)).num (R.MC_DIES ch) = s.num (R.MC_DIES ch) := (s.regAcc_book _).num (bookReg_mcDies ch)
  have hfence : (s.regAcc (32 + ch)).fencedSrc (32 + ch) = s.fencedSrc (32 + ch) := by simp [State.fencedSrc, State.fcSrc]
  have htry : (s.regAcc (32 + ch)).mcTry = s.mcTry := by simp
  show execMcRetrain ch path s = _
  unfold execMcRetrain
  dsimp only
  rw [State.regAcc_isManager, State.regAcc_mcEn, haccess, hfence, if_pos (by simp [hmgr, hen, hdies, hrun]), htry]

theorem exec_mcRetrain_shows (hmgr : s.isManager path = true) (hen : s.bit (F.MC_CTL.EN ch) = false)
    (hdies : s.num (R.MC_DIES ch) % 16 ≠ 0) (hrun : s.fencedSrc (32 + ch.val) = false) :
    ∃ t, exec (.mcRetrain ch path) s = .next t ∧ t.bit (F.MC_STS.TRAIN_BUSY ch) = true ∧ t.mcTry = setDel ch.val s.mcTry ∧
      ∀ k, k < 8 → t.mdie (8 * ch.val + k) = MDie.inReset true :=
  ⟨_, exec_mcRetrain_starts hmgr hen hdies hrun, State.trainStart_busy _ _, State.trainStart_mcTry _ _,
    fun _ => State.trainStart_mdie _ _⟩

/-- The channel's registers where a pattern starts: MC_PAT_CTL holds the fields written with START, and no error is counted (R261). -/
def State.patRegs (s : State) (c n : Nat) : State :=
  ((s.wrN (R.MC_PAT_CTL c) (n % 128 + 128)).zero [R.MC_PAT_ERR c, R.MC_PAT_LANES c]).setBit (F.MC_STS.PAT_SYNC c) false

theorem State.patRegs_shows (s : State) (c n : Nat) : (s.patRegs c n).num (R.MC_PAT_CTL c) = n % 128 + 128 ∧
    (s.patRegs c n).rd (R.MC_PAT_ERR c) = 0 ∧ (s.patRegs c n).rd (R.MC_PAT_LANES c) = 0 := by
  have hctl : R.MC_PAT_CTL c ≠ R.MC_STS c := by simp [R.MC_PAT_CTL, R.MC_STS]
  have hkept : R.MC_PAT_CTL c ∉ [R.MC_PAT_ERR c, R.MC_PAT_LANES c] := by simp [R.MC_PAT_CTL, R.MC_PAT_ERR, R.MC_PAT_LANES]
  have herr : R.MC_PAT_ERR c ≠ R.MC_STS c := by simp [R.MC_PAT_ERR, R.MC_STS]
  have hlanes : R.MC_PAT_LANES c ≠ R.MC_STS c := by simp [R.MC_PAT_LANES, R.MC_STS]
  refine ⟨?_, ?_, ?_⟩
  · rw [State.num, State.patRegs, State.rd_setBit_ne _ _ _ hctl, State.rd_zero, if_neg hkept]
    exact s.num_wrN_self _ (by omega)
  · rw [State.patRegs, State.rd_setBit_ne _ _ _ herr, State.rd_zero, if_pos (by simp)]
  · rw [State.patRegs, State.rd_setBit_ne _ _ _ hlanes, State.rd_zero, if_pos (by simp)]

/-- The die's side of a pattern: feature 0x04; a checker begins at no error (R254). -/
def MDie.patStarted (m : MDie) (n : Nat) : MDie :=
  { m with patCtl := n % 8 + 8 * (n / 8 % 2) + 16, patErr := if n / 8 % 2 = 0 then 0 else m.patErr }

theorem exec_mcPatStart_starts (v : Word) (hmgr : s.isManager path = true) (hen : s.bit (F.MC_CTL.EN ch) = false) :
    exec (.mcPatStart ch path v) s = .next (
      let d := 8 * ch.val + v.toNat / 16 % 8
      let u := (s.regAcc (32 + ch)).patRegs ch v.toNat
      (u.setMdie d ((u.mdie d).patStarted v.toNat)).emit (.media ch Cmd.featureSet [d, 4, ((u.mdie d).patStarted v.toNat).patCtl])) := by
  refine if_pos ?_
  simp [State.regAcc_isManager, State.regAcc_mcEn, hmgr, hen]

theorem exec_mcPatStart_shows (v : Word) (hmgr : s.isManager path = true) (hen : s.bit (F.MC_CTL.EN ch) = false) :
    ∃ t, exec (.mcPatStart ch path v) s = .next t ∧ t.num (R.MC_PAT_CTL ch) = v.toNat % 128 + 128 ∧ t.rd (R.MC_PAT_ERR ch) = 0 ∧
      t.rd (R.MC_PAT_LANES ch) = 0 ∧
      (t.mdie (8 * ch.val + v.toNat / 16 % 8)).patCtl = v.toNat % 8 + 8 * (v.toNat / 8 % 2) + 16 := by
  refine ⟨_, exec_mcPatStart_starts v hmgr hen, ?_⟩
  extract_lets d u
  obtain ⟨hctl, herr, hlanes⟩ := (s.regAcc (32 + ch)).patRegs_shows ch v.toNat
  have hregs := (u.setMdie d ((u.mdie d).patStarted v.toNat)).emit_book
    (.media ch Cmd.featureSet [d, 4, ((u.mdie d).patStarted v.toNat).patCtl])
  refine ⟨(hregs.num (bookReg_mcPatCtl ch)).trans hctl, (hregs _ (bookReg_mcPatErr ch)).trans herr,
    (hregs _ (bookReg_mcPatLanes ch)).trans hlanes, ?_⟩
  rw [State.mdie_emit, State.mdie_setMdie_self]
  rfl

/-- The channel's registers where a pattern stops, with what the active checker has counted (R261). -/
def State.patEnded (s : State) (c : Nat) (errs : Word) (lanes : Nat) : State :=
  (((s.wr (R.MC_PAT_ERR c) errs).wrN (R.MC_PAT_LANES c) lanes).setBit (F.MC_PAT_CTL.START c) false).setBit (F.MC_STS.PAT_SYNC c) false

theorem State.patEnded_shows (s : State) (c : Nat) (errs : Word) {lanes : Nat} (hlanes : lanes < 2 ^ 32) :
    (s.patEnded c errs lanes).bit (F.MC_PAT_CTL.START c) = false ∧ (s.patEnded c errs lanes).rd (R.MC_PAT_ERR c) = errs ∧
    (s.patEnded c errs lanes).num (R.MC_PAT_LANES c) = lanes := by
  have hctl : R.MC_PAT_CTL c ≠ R.MC_STS c := by simp [R.MC_PAT_CTL, R.MC_STS]
  obtain ⟨herrSts, herrCtl, herrLanes⟩ :
      R.MC_PAT_ERR c ≠ R.MC_STS c ∧ R.MC_PAT_ERR c ≠ R.MC_PAT_CTL c ∧ R.MC_PAT_ERR c ≠ R.MC_PAT_LANES c := by
    simp [R.MC_STS, R.MC_PAT_ERR, R.MC_PAT_CTL, R.MC_PAT_LANES]
  obtain ⟨hlaneSts, hlaneCtl⟩ : R.MC_PAT_LANES c ≠ R.MC_STS c ∧ R.MC_PAT_LANES c ≠ R.MC_PAT_CTL c := by
    simp [R.MC_STS, R.MC_PAT_CTL, R.MC_PAT_LANES]
  refine ⟨?_, ?_, ?_⟩
  · rw [State.patEnded, State.bit_setBit_ne _ _ _ _ (by simp) (.inl hctl), State.bit_setBit_self _ _ _ (by simp) (by simp)]
  · rw [State.patEnded, State.rd_setBit_ne _ _ _ herrSts, State.rd_setBit_ne _ _ _ herrCtl, State.wrN, State.rd_wr_ne _ _ herrLanes,
      State.rd_wr_self]
  · rw [State.num, State.patEnded, State.rd_setBit_ne _ _ _ hlaneSts, State.rd_setBit_ne _ _ _ hlaneCtl]
    exact State.num_wrN_self _ _ hlanes

/-- The die's side of a pattern that stops; where the die was the checker it holds the errors. -/
def MDie.patStopped (m : MDie) (toDie : Bool) (errs : Word) : MDie :=
  { m with patCtl := m.patCtl % 16, patErr := if toDie then errs.toNat else m.patErr }

theorem exec_mcPatStop_stops (errs : Word) (lanes : BitVec 16) (hmgr : s.isManager path = true)
    (hen : s.bit (F.MC_CTL.EN ch) = false) (hstart : s.bit (F.MC_PAT_CTL.START ch) = true) :
    exec (.mcPatStop ch path errs lanes) s = .next (
      let u := s.regAcc (32 + ch)
      let d := 8 * ch.val + u.get (F.MC_PAT_CTL.DIE ch)
      let toDie := !s.bit (F.MC_PAT_CTL.DIR ch)
      ((u.setMdie d ((u.mdie d).patStopped toDie errs)).patEnded ch errs (if toDie then u.num (R.MC_PAT_LANES ch) else lanes.toNat)).emit
        (.media ch Cmd.featureSet [d, 4, (u.mdie d).patCtl % 16])) := by
  have hctl (f : Fld) (hf : f.off = R.MC_PAT_CTL ch) : (s.regAcc (32 + ch)).bit f = s.bit f :=
    (s.regAcc_book _).bit (hf ▸ bookReg_mcPatCtl ch)
  rw [← hctl (F.MC_PAT_CTL.DIR ch) rfl]
  refine if_pos ?_
  simp [State.regAcc_isManager, State.regAcc_mcEn, hctl, hmgr, hen, hstart]

theorem exec_mcPatStop_shows (errs : Word) (lanes : BitVec 16) (hmgr : s.isManager path = true)
    (hen : s.bit (F.MC_CTL.EN ch) = false) (hstart : s.bit (F.MC_PAT_CTL.START ch) = true) :
    ∃ t, exec (.mcPatStop ch path errs lanes) s = .next t ∧ t.bit (F.MC_PAT_CTL.START ch) = false ∧ t.rd (R.MC_PAT_ERR ch) = errs ∧
      (s.bit (F.MC_PAT_CTL.DIR ch) = true → t.num (R.MC_PAT_LANES ch) = lanes.toNat) := by
  refine ⟨_, exec_mcPatStop_stops errs lanes hmgr hen hstart, ?_⟩
  extract_lets u d toDie
  have hcount : (if toDie then u.num (R.MC_PAT_LANES ch) else lanes.toNat) < 2 ^ 32 := by
    split
    · exact (u.rd _).isLt
    · exact lanes.isLt.trans (by decide)
  obtain ⟨hstop, herr, hlanes⟩ := (u.setMdie d ((u.mdie d).patStopped toDie errs)).patEnded_shows ch errs hcount
  have hregs := ((u.setMdie d ((u.mdie d).patStopped toDie errs)).patEnded ch errs
    (if toDie then u.num (R.MC_PAT_LANES ch) else lanes.toNat)).emit_book (.media ch Cmd.featureSet [d, 4, (u.mdie d).patCtl % 16])
  refine ⟨(hregs.bit (bookReg_mcPatCtl ch)).trans hstop, (hregs _ (bookReg_mcPatErr ch)).trans herr, fun hdir => ?_⟩
  rw [hregs.num (bookReg_mcPatLanes ch), hlanes]
  exact if_neg (by simp [toDie, hdir])

end

/-- Settles O8: each command by its own lemma; a failed training and RETRAIN start a training alike. -/
theorem mediaChannelCommands : Obligations.MediaChannelCommands := by
  unfold Obligations.MediaChannelCommands
  refine ⟨fun _ _ _ => exec_channelTraining_passed, fun _ _ _ _ => exec_channelTraining_again, ?report,
    fun _ occupied _ _ => exec_readTimeout_shows occupied, fun _ up down _ => exec_trackInterval_shows up down,
    fun _ _ => exec_suspendWarn_shows, fun _ _ _ => exec_mcRetrain_shows, fun _ _ v _ => exec_mcPatStart_shows v,
    fun _ _ errs lanes _ => exec_mcPatStop_shows errs lanes⟩
  case report =>
    intro die hc b d s halive
    obtain ⟨hregs, hout⟩ := s.reported_shows die hc b d
    exact ⟨_, exec_readyRoundReport_alive hc b d halive, hregs, hout⟩

end Sys2Proof.Machine
end

section
/-! SUPPORT. The Sirocco engine's turn at a die and its reads, and what they leave (09_integrity_and_drift.md R283, R286, R287). -/

set_option autoImplicit false
namespace Sys2Proof.Machine

/-! ### Frames of the engine's shared operations -/

theorem State.pcItem_same (s : State) (page : Nat) : Same 67108872 s (s.pcItem page) := State.pcItem_keeps rfl (Same.refl _ s)

theorem State.sirLines_same (s : State) (d n : Nat) : Same 17592253153288 s (s.sirLines d n) := State.sirLines_keeps rfl (Same.refl _ s)

theorem State.sirTurnEnd_same (s : State) (d : Nat) (waits : Bool) : Same 17592253161482 s (s.sirTurnEnd d waits) :=
  State.sirTurnEnd_keeps rfl (Same.refl _ s)

/-- An item of work that the engine reads at a die: the item, its lines and the end of its turn. -/
def State.sirItem (s : State) (d n : Nat) : State := ((s.pcItem 10).sirLines d n).sirTurnEnd d false

theorem State.sirItem_same (s : State) (d n : Nat) : Same 17592253161482 s (s.sirItem d n) :=
  State.sirTurnEnd_keeps rfl (State.sirLines_keeps rfl (State.pcItem_keeps rfl (Same.refl _ s)))

/-! ### Background reads leave what a page's reader goes by -/

/-- The translation engine without its reads and the dies' control. -/
def TeSt.unread (e : TeSt) : TeSt := { e with reads := [], dies := [] }

/-- What background reads leave: the translation engine but for its reads and the dies' control, and which dies are lost. -/
def State.ReadStep (s t : State) : Prop := t.te.unread = s.te.unread ∧ ∀ d, t.dieLost d = s.dieLost d

theorem State.ReadStep.refl (s : State) : s.ReadStep s := ⟨rfl, fun _ => rfl⟩

theorem State.ReadStep.trans {s t u : State} (h : s.ReadStep t) (k : t.ReadStep u) : s.ReadStep u :=
  ⟨k.1.trans h.1, fun d => (k.2 d).trans (h.2 d)⟩

theorem State.ReadStep.ite {s t u : State} {c : Prop} [Decidable c] (ht : s.ReadStep t) (hu : s.ReadStep u) :
    s.ReadStep (if c then t else u) := by split <;> assumption

/-- What is read of the translation engine apart from its reads and the dies is left. -/
theorem State.ReadStep.reads {α : Type} {s t : State} (h : s.ReadStep t) (φ : TeSt → α) (hφ : ∀ e : TeSt, φ e.unread = φ e) :
    φ t.te = φ s.te :=
  (hφ t.te).symm.trans ((congrArg φ h.1).trans (hφ s.te))

theorem State.dieLost_congr {s t : State} {d : Nat} (hfailed : (t.die d).failed = (s.die d).failed)
    (hretired : (t.die d).retired = (s.die d).retired)
    (hchan : t.rd (R.MC_STS (chanOf d)) = s.rd (R.MC_STS (chanOf d))) : t.dieLost d = s.dieLost d := by
  unfold State.dieLost
  rw [hfailed, hretired, State.bit_congr (f := F.MC_STS.FAILED (chanOf d)) hchan]

/-- An operation that leaves the translation engine and MC_STS of every channel. -/
theorem State.ReadStep.of_te {s t : State} (hte : t.te = s.te) (hchan : ∀ c, t.rd (R.MC_STS c) = s.rd (R.MC_STS c)) : s.ReadStep t :=
  have hdie (d : Nat) : t.die d = s.die d := congrArg (fun e : TeSt => sget DieCtl.ok e.dies d) hte
  ⟨congrArg TeSt.unread hte, fun d =>
    State.dieLost_congr (congrArg DieCtl.failed (hdie d)) (congrArg DieCtl.retired (hdie d)) (hchan _)⟩

theorem Same.readStep {m : Nat} {x s : State} (h : Same m x s) (hte : m.testBit 13 = false) (hchan : m.testBit 44 = false) :
    x.ReadStep s :=
  State.ReadStep.of_te (h.te hte) fun c => h.own _ (bookReg_mcSts c) (by rw [regBlk_mcSts]; exact hchan)

theorem State.emit_readStep (s : State) (o : Output) : s.ReadStep (s.emit o) :=
  (State.emit_keeps (m := 67108874) rfl (Same.refl _ s)).readStep rfl rfl

/-- A counter of a channel beside MC_STS counts on. -/
theorem State.addCnt_readStep (s : State) {o : Nat} (n : Nat) (ho : ∀ c, R.MC_STS c ≠ o) : s.ReadStep (s.addCnt o n) :=
  State.ReadStep.of_te rfl fun c => State.rd_wrN_ne _ _ (ho c)

/-- A change of a die's control that neither fails nor retires it. -/
theorem State.dieMod_readStep (s : State) (d : Nat) {f : DieCtl → DieCtl} (hfailed : ∀ x, (f x).failed = x.failed)
    (hretired : ∀ x, (f x).retired = x.retired) : s.ReadStep (s.dieMod d f) := by
  have hread (φ : DieCtl → Bool) (hφ : ∀ x, φ (f x) = φ x) (e : Nat) : φ ((s.dieMod d f).die e) = φ (s.die e) := by
    have hdie : (s.dieMod d f).die e = if e = d then f (s.die d) else s.die e := sget_sset _ _ _ _ _
    rw [hdie]
    split
    · next h => rw [h, hφ]
    · rfl
  exact ⟨rfl, fun e => State.dieLost_congr (hread DieCtl.failed hfailed e) (hread DieCtl.retired hretired e) rfl⟩

theorem State.suspendDie_readStep (s : State) (d : Nat) : s.ReadStep (s.suspendDie d) := by
  have hcnt (c : Nat) : R.MC_STS c ≠ R.MC_SUSP_CNT (chanOf d) := by unfold R.MC_STS R.MC_SUSP_CNT; omega
  exact .ite (((s.emit_readStep _).trans (State.addCnt_readStep _ 1 hcnt)).trans
    (State.dieMod_readStep _ d (fun _ => rfl) (fun _ => rfl))) (.refl s)

theorem State.bgOne_readStep (s : State) (m : MRead) : s.ReadStep (s.bgOne m) := by
  have hsent (u : State) (m' : MRead) (l : List MRead) :
      u.ReadStep ((({ u with te.reads := l } : State).readCmd m').leased 31) :=
    State.ReadStep.trans (t := { u with te.reads := l }) ⟨rfl, fun _ => rfl⟩
      ((State.emit_readStep _ _).trans ((State.leased_keeps (m := 67108872) rfl (Same.refl _ _)).readStep rfl rfl))
  have hawake : s.ReadStep (if s.urgentRead m.purpose then s.suspendDie m.loc.die else s) := .ite (s.suspendDie_readStep _) (.refl s)
  exact .ite (hawake.trans (hsent _ _ _)) (.refl s)

theorem State.bgIssue_readStep (s : State) (d : Nat) : s.ReadStep (s.bgIssue d) :=
  List.foldlRecOn _ State.bgOne (motive := fun t => s.ReadStep t) (State.ReadStep.refl s) fun t ht m _ => ht.trans (t.bgOne_readStep m)

theorem State.sirTurnEnd_readStep (s : State) (d : Nat) (waits : Bool) : s.ReadStep (s.sirTurnEnd d waits) := by
  have hturn : s.ReadStep (s.dieMod d fun x => { x with sirWait := waits }) := s.dieMod_readStep d (fun _ => rfl) (fun _ => rfl)
  exact .ite (.refl s) (hturn.trans (State.bgIssue_readStep _ d))

theorem State.sirLines_readStep (s : State) (d n : Nat) : s.ReadStep (s.sirLines d n) :=
  have hcnt (c : Nat) : R.MC_STS c ≠ R.MC_RD_B_CNT (chanOf d) := by unfold R.MC_STS R.MC_RD_B_CNT; omega
  (s.addCnt_readStep n hcnt).trans ((State.pcEvent_keeps (m := 67108872) rfl (Same.refl _ _)).readStep rfl rfl)

theorem State.sirItem_readStep (s : State) (d n : Nat) : s.ReadStep (s.sirItem d n) :=
  (((s.pcItem_same 10).readStep rfl rfl).trans (State.sirLines_readStep _ d n)).trans (State.sirTurnEnd_readStep _ d false)

end Sys2Proof.Machine
end

section
/-! SUPPORT. The drift commands: the drift clocks and ledgers, the block ages, the reference sets, the age sweep and drift refresh
(09_integrity_and_drift.md R273–R277, R279, R282, R284). -/

set_option autoImplicit false
namespace Sys2Proof.Machine

/-! ### The drift clocks and the ledgers (R273, R274) -/

theorem State.driftOf_driftAdd (s : State) (z n y : Nat) :
    (s.driftAdd z n).driftOf y = if y = z then (s.driftOf z + n) % 2 ^ 52 else s.driftOf y := sget_sset _ _ _ _ _

/-- A second of the drift clocks of the zones of a list, each by its band's factor. -/
def State.driftSecond (s : State) (zs : List Nat) : State := zs.foldl (fun s z => s.driftAdd z (s.factor16 (s.band z))) s

theorem State.driftSecond_regs (s : State) (zs : List Nat) : (s.driftSecond zs).regs = s.regs := by
  refine foldl_eq State.regs (fun t z => ?_) zs s
  rfl

theorem State.driftOf_driftSecond (s : State) {zs : List Nat} (hnodup : zs.Nodup) (y : Nat) :
    (s.driftSecond zs).driftOf y = if y ∈ zs then (s.driftOf y + s.factor16 (s.band y)) % 2 ^ 52 else s.driftOf y := by
  induction zs generalizing s with
  | nil => rfl
  | cons z zs ih =>
    obtain ⟨hz, hrest⟩ := List.nodup_cons.mp hnodup
    have hstep : (s.driftSecond (z :: zs)).driftOf y =
        if y ∈ zs then ((s.driftAdd z (s.factor16 (s.band z))).driftOf y + s.factor16 (s.band y)) % 2 ^ 52
        else (s.driftAdd z (s.factor16 (s.band z))).driftOf y := ih _ hrest
    rw [hstep, State.driftOf_driftAdd]
    by_cases hy : y = z
    · subst hy
      simp [hz]
    · simp [hy]

theorem exec_driftClockSecond_up {s : State} (hup : s.coreUp = true) : exec .driftClockSecond s = .next (s.driftSecond (List.range 8)) :=
  congrArg Host.Outcome.next (if_pos hup)

theorem exec_driftClockSecond_shows {s : State} (hup : s.coreUp = true) : ∃ t, exec .driftClockSecond s = .next t ∧ t.regs = s.regs ∧
    ∀ z, z < 8 → t.driftOf z = (s.driftOf z + s.factor16 (s.band z)) % 2 ^ 52 := by
  refine ⟨_, exec_driftClockSecond_up hup, s.driftSecond_regs _, fun z hz => ?_⟩
  rw [State.driftOf_driftSecond s List.nodup_range, if_pos (List.mem_range.mpr hz)]

/-- An operation asked of the store behind one that is no erase only waits (R473). -/
theorem State.pstAdd_waits {s : State} {c : PstOp} (hcur : s.pst.cur = some c) (herase : c.job.isErase = false) (j : PstJob) :
    s.pstAdd j = State.pcEvent { s with pst.queue := s.pst.queue ++ [⟨j, [], false, false⟩] } 4 2 1 := by
  have hpst : (State.pcEvent { s with pst.queue := s.pst.queue ++ [⟨j, [], false, false⟩] } 4 2 1).pst.cur = some c := by
    simpa using hcur
  unfold State.pstAdd
  dsimp only
  rw [hpst]
  simp [herase]

theorem exec_ageLedgerEntry_shows {c : PstOp} {s : State} (hcur : s.pst.cur = some c) (herase : c.job.isErase = false) :
    ∃ t, exec .ageLedgerEntry s = .next t ∧ t.regsAre s ∧
    t.pst.queue = s.pst.queue ++ [⟨.ledger ((s.seqNext / 65536 :: (List.range 8).map (fun z =>
      s.driftMin z % 2 ^ 28 + (if z = 7 then 5 * 2 ^ 28 else 0))).map (BitVec.ofNat 32)), [], false, false⟩] := by
  refine ⟨_, congrArg Host.Outcome.next (State.pstAdd_waits hcur herase _), State.pcEvent_book _ _ _ _, ?_⟩
  simp

theorem exec_dramLedgerEntry_ready {s : State} (hready : s.bit F.TE_STS.MAP_READY = true) :
    exec .dramLedgerEntry s = .next s.dramLedger := congrArg Host.Outcome.next (if_pos hready)

/-! ### The block ages (R276) -/

/-- The age class of a block by the ledgers `l`. -/
def State.blockAge (s : State) (l : List (Nat × List Nat)) (k : Nat) : Nat :=
  s.ageClass (s.pageDrift l (zoneOf (k / 2048)) ((s.blk (k / 2048) (k % 2048)).seqs.getLastD 0))

/-- The ages of the blocks of a list recorded, each by what `v` says of it. -/
def agesSet (v : Nat → Nat) (ks : List Nat) (ages : Sparse Nat) : Sparse Nat := ks.foldl (fun a k => sset 0 a k (v k)) ages

theorem sget_agesSet (v : Nat → Nat) (ks : List Nat) (ages : Sparse Nat) (j : Nat) :
    sget 0 (agesSet v ks ages) j = if j ∈ ks then v j else sget 0 ages j := by
  induction ks generalizing ages with
  | nil => rfl
  | cons k ks ih =>
    have hstep : sget 0 (agesSet v (k :: ks) ages) j = if j ∈ ks then v j else sget 0 (sset 0 ages k (v k)) j := ih _
    rw [hstep, sget_sset]
    by_cases hj : j = k
    · subst hj
      simp
    · simp [hj]

theorem State.foldl_blockAge (s : State) (l : List (Nat × List Nat)) (ks : List Nat) :
    ks.foldl (fun s k => ({ s with sir.ages := sset 0 s.sir.ages k (s.blockAge l k) } : State)) s =
      { s with sir.ages := agesSet (s.blockAge l) ks s.sir.ages } := by
  induction ks generalizing s with
  | nil => rfl
  | cons k ks ih => exact ih _

theorem State.agesAll_eq (s : State) : s.agesAll = { s with sir.ages := agesSet (s.blockAge s.ledgers) s.usedBlocks s.sir.ages } :=
  s.foldl_blockAge s.ledgers s.usedBlocks

theorem exec_blockAgeRecompute_ready {s : State} (hready : s.bit F.TE_STS.MAP_READY = true) :
    exec .blockAgeRecompute s = .next s.agesAll := congrArg Host.Outcome.next (if_pos hready)

theorem exec_blockAgeRecompute_shows {s : State} (hready : s.bit F.TE_STS.MAP_READY = true) :
    ∃ t, exec .blockAgeRecompute s = .next t ∧ t.regs = s.regs ∧ t.te = s.te ∧
    ∀ k ∈ s.usedBlocks, sget 0 t.sir.ages k = s.blockAge s.ledgers k := by
  refine ⟨_, (exec_blockAgeRecompute_ready hready).trans (congrArg Host.Outcome.next s.agesAll_eq), rfl, rfl, fun k hk => ?_⟩
  exact (sget_agesSet _ _ _ _).trans (if_pos hk)

/-! ### The reference sets (R277, R279) -/

section
variable {die : Fin 320} {s : State}

/-- REF_ADJ loads a die's set (R277). -/
def State.refLoad (s : State) (d k n : Nat) : State :=
  (s.setMdie d { s.mdie d with refs := sset 0 (s.mdie d).refs n (s.refOf d k n) }).emit
    (.media (chanOf d) Cmd.refAdj [d, n, (s.refOf d k n).toNat])

theorem State.refLoad_sir (s : State) (d k n : Nat) : (s.refLoad d k n).sir = s.sir := by simp [State.refLoad, State.setMdie]

theorem State.refLoad_mdie (s : State) (d k n : Nat) :
    (s.refLoad d k n).mdie d = { s.mdie d with refs := sset 0 (s.mdie d).refs n (s.refOf d k n) } := by
  rw [State.refLoad, State.mdie_emit, State.mdie_setMdie_self]

theorem State.refOf_congr {s t : State} (h : t.sir = s.sir) (d k n : Nat) : t.refOf d k n = s.refOf d k n := by
  unfold State.refOf
  rw [h]

/-- The die's first `count` sets loaded. -/
def State.refsLoad (s : State) (d k count : Nat) : State := (List.range count).foldl (fun s n => s.refLoad d k n) s

theorem State.refsLoad_sir (s : State) (d k count : Nat) : (s.refsLoad d k count).sir = s.sir :=
  foldl_eq State.sir (fun t n => t.refLoad_sir d k n) _ s

theorem State.refsLoad_refs (s : State) (d k : Nat) {n count : Nat} (hn : n < count) :
    sget 0 ((s.refsLoad d k count).mdie d).refs n = s.refOf d k n := by
  induction count with
  | zero => contradiction
  | succ c ih =>
    have hlast : s.refsLoad d k (c + 1) = (s.refsLoad d k c).refLoad d k c := by
      simp [State.refsLoad, List.range_succ]
    rw [hlast, State.refLoad_mdie, sget_sset, State.refOf_congr (s.refsLoad_sir d k c)]
    split
    · next h => rw [h]
    · next h => exact ih (by omega)

theorem exec_referenceSetLoad_idle (hpend : s.sir.refPend.contains die.val = true) (halive : (s.die die).failed = false)
    (hidle : s.dieBusy die = false) : exec (.referenceSetLoad die) s = .next (
      let t := s.refsLoad die (s.band (zoneOf die)) 7
      ({ t with sir.refPend := setDel die.val t.sir.refPend } : State).refShow (groupOf die)) := by
  refine if_pos ?_
  rw [hpend, halive, hidle]
  rfl

theorem exec_referenceSetLoad_shows (hpend : s.sir.refPend.contains die.val = true) (halive : (s.die die).failed = false)
    (hidle : s.dieBusy die = false) : ∃ t, exec (.referenceSetLoad die) s = .next t ∧
      t.sir.refPend = setDel die.val s.sir.refPend ∧ ∀ n, n < 7 → sget 0 (t.mdie die).refs n = s.refOf die (s.band (zoneOf die)) n :=
  have hsir : (s.refsLoad die (s.band (zoneOf die)) 7).sir.refPend = s.sir.refPend := congrArg SirSt.refPend (s.refsLoad_sir _ _ _)
  have hshown (u : State) (l : List Nat) (g : Nat) : (({ u with sir.refPend := l } : State).refShow g).mdie die = u.mdie die := rfl
  ⟨_, exec_referenceSetLoad_idle hpend halive hidle, congrArg (setDel die.val) hsir,
    fun n hn => (congrArg (fun m : MDie => sget 0 m.refs n) (hshown _ _ _)).trans (s.refsLoad_refs _ _ hn)⟩

theorem State.trackRef_trkDue (s : State) (d k n i base up down : Nat) : (s.trackRef d k n i base up down).sir.trkDue = s.sir.trkDue := by
  unfold State.trackRef
  dsimp only
  repeat' split
  all_goals rfl

/-- The lag that a tracking pass shows, and its deadline kept (R287). -/
def State.trackOn (s : State) (d next lag : Nat) : State :=
  let s := { s with
    sir.trkDue := sset 0 s.sir.trkDue d next
    sir.trkLag := sset 0 s.sir.trkLag d lag }
  (s.pcItem 10).setLag 5 (s.sir.trkLag.foldl (fun m (x : Nat × Nat) => max m x.2) 0)

theorem State.trackOn_trkDue (s : State) (d next lag : Nat) : sget 0 (s.trackOn d next lag).sir.trkDue d = next := by
  have hsir : (s.trackOn d next lag).sir = ({ s with
      sir.trkDue := sset 0 s.sir.trkDue d next
      sir.trkLag := sset 0 s.sir.trkLag d lag } : State).sir :=
    (State.setLag_keeps rfl (State.pcItem_keeps rfl (Same.refl 274945016328 _))).sir rfl
  rw [hsir]
  exact sget_sset_self _ _ _ _

/-- A die's sets refined from the scores of the classes that it holds (R279). -/
def State.trackScores (s : State) (d k : Nat) (scores : List (Fin 5 × Nat × List Nat)) : State :=
  scores.foldl (fun s (x : Fin 5 × Nat × List Nat) =>
    if s.classPresent d x.1.val then
      (List.range 3).foldl (fun s i => s.trackRef d k x.1.val i x.2.1 (x.2.2.getD (2 * i) x.2.1) (x.2.2.getD (2 * i + 1) x.2.1))
        (s.sirLines d (s.trackLines d x.1.val))
    else s) s

theorem State.trackScores_trkDue (s : State) (d k : Nat) (scores : List (Fin 5 × Nat × List Nat)) :
    (s.trackScores d k scores).sir.trkDue = s.sir.trkDue := by
  refine foldl_eq (fun t : State => t.sir.trkDue) (fun t x => ?_) scores s
  split
  · refine (foldl_eq (fun t : State => t.sir.trkDue) (fun u i => State.trackRef_trkDue u _ _ _ _ _ _ _) _ _).trans ?_
    exact congrArg SirSt.trkDue ((t.sirLines_same _ _).sir rfl)
  · rfl

/-- The next deadline of a die's tracking passes, on the grid of R287. -/
def State.trackNext (s : State) (d : Nat) : Nat :=
  (if sget 0 s.sir.trkDue d = 0 then s.tick.toNat else sget 0 s.sir.trkDue d) + s.num R.SIR_TRACK_INT % 2048 * 60000 * msTicks

variable (scores : List (Fin 5 × Nat × List Nat)) (hfence : s.fencedSrc 10 = false) (hen : s.bit F.SIR_CTL.TRACK_EN = true)
  (hworks : s.sirWorks = true) (hturn : s.sirTurn 5 die = true) (hdue : sget 0 s.sir.trkDue die ≤ s.tick.toNat)
  (hcan : s.bgCan die = true)
include hfence hen hworks hturn hdue hcan

theorem exec_readReferenceTracking_due : exec (.readReferenceTracking die scores) s = .next (
      let t := s.trackOn die (s.trackNext die) ((s.tick.toNat - s.trackNext die) / msTicks)
      (t.trackScores die (t.band (zoneOf die)) scores).sirTurnEnd die false) := by
  have hwait : (!s.bit F.SIR_CTL.TRACK_EN || !s.sirWorks || !s.sirTurn 5 die ||
      decide (s.tick.toNat < sget 0 s.sir.trkDue die)) = false := by
    simp [hen, hworks, hturn, hdue]
  show execReadReferenceTracking die scores s = _
  unfold execReadReferenceTracking
  dsimp only
  rw [if_neg (by simp [hfence]), hwait, if_neg (by decide), if_neg (by simp [hcan])]
  rfl

theorem exec_readReferenceTracking_shows :
    ∃ t, exec (.readReferenceTracking die scores) s = .next t ∧ sget 0 t.sir.trkDue die = s.trackNext die := by
  refine ⟨_, exec_readReferenceTracking_due scores hfence hen hworks hturn hdue hcan, ?_⟩
  rw [(State.sirTurnEnd_same _ _ _).sir rfl, State.trackScores_trkDue, State.trackOn_trkDue]

end

/-! ### The age sweep (R282) -/

section
variable {die : Fin 320} {b : Fin 2048} {s : State}

theorem State.ReadStep.unknownBlocks {s t : State} (h : s.ReadStep t) : t.unknownBlocks = s.unknownBlocks :=
  h.reads (fun e => e.blocks.filterMap fun (x : Nat × Blk) => if x.2.unknown then some x.1 else none) fun _ => rfl

/-- Blocks of unknown age that the sweep has still to read. -/
def State.unswept (s : State) : List Nat := s.unknownBlocks.filter fun b => !(s.sir.swept.any fun x => x.1 == b)

/-- SIR_STS shows the part of the blocks of unknown age that the sweep has read. -/
def State.sweepShown (s : State) : State :=
  s.set ⟨R.SIR_STS, 8, 7⟩ (100 * (s.unknownBlocks.length - s.unswept.length) / max 1 s.unknownBlocks.length)

/-- One more block swept, as the class of its best set (R282). -/
def State.sweepRead (s : State) (d k : Nat) (bits : List Nat) : State :=
  ({ s with sir.swept := s.sir.swept ++ [(k, sweepClass bits)] } : State).sirItem d 48

theorem State.sweepRead_swept (s : State) (d k : Nat) (bits : List Nat) :
    (s.sweepRead d k bits).sir.swept = s.sir.swept ++ [(k, sweepClass bits)] :=
  congrArg SirSt.swept ((State.sirItem_same _ d 48).sir rfl)

theorem State.sweepRead_unknownBlocks (s : State) (d k : Nat) (bits : List Nat) :
    (s.sweepRead d k bits).unknownBlocks = s.unknownBlocks := (State.sirItem_readStep _ d 48).unknownBlocks

theorem State.sweepRead_busy (s : State) (d k : Nat) (bits : List Nat) :
    (s.sweepRead d k bits).bit F.SIR_STS.SWEEP_BUSY = s.bit F.SIR_STS.SWEEP_BUSY := (State.sirItem_same _ d 48).bit rfl rfl

section
variable {bits : List Nat} {k : Nat} (hfence : s.fencedSrc 10 = false) (hbusy : s.bit F.SIR_STS.SWEEP_BUSY = true)
  (hunknown : (s.blk die b).unknown = true) (hswept : s.sir.swept = []) (hworks : s.sirWorks = true)
  (hturn : s.sirTurn 4 die = true) (hcan : s.bgCan die = true)
include hfence hbusy hunknown hswept hworks hturn hcan

theorem exec_ageSweep_more
    (hleft : (s.sweepRead die (2048 * die.val + b.val) bits).unswept ≠ []) :
    exec (.ageSweep die b bits) s = .next (s.sweepRead die (2048 * die.val + b.val) bits).sweepShown := by
  have hmore : (s.sweepRead die (2048 * die.val + b.val) bits).unswept.isEmpty = false := by simpa using hleft
  show execAgeSweep die b bits s = _
  unfold execAgeSweep
  dsimp only
  rw [if_neg (by simp [hfence]), if_neg (by simp [hbusy, hunknown, hswept, hworks, hturn]), if_neg (by simp [hcan])]
  exact if_neg (fun h => absurd (h.symm.trans hmore) (by decide))

theorem exec_ageSweep_shows (hk : k ∈ s.unknownBlocks) (hother : k ≠ 2048 * die.val + b.val) :
    ∃ t, exec (.ageSweep die b bits) s = .next t ∧ t.sir.swept = [(2048 * die.val + b.val, sweepClass bits)] ∧
      t.bit F.SIR_STS.SWEEP_BUSY = true := by
  have hread : (s.sweepRead die (2048 * die.val + b.val) bits).sir.swept = [(2048 * die.val + b.val, sweepClass bits)] := by
    rw [State.sweepRead_swept, hswept, List.nil_append]
  have hleft : k ∈ (s.sweepRead die (2048 * die.val + b.val) bits).unswept := by
    rw [State.unswept, State.sweepRead_unknownBlocks, hread]
    exact List.mem_filter.mpr ⟨hk, by simpa using hother.symm⟩
  refine ⟨_, exec_ageSweep_more hfence hbusy hunknown hswept hworks hturn hcan (List.ne_nil_of_mem hleft), hread, ?_⟩
  exact (State.bit_set_ne _ _ _ _ (by decide) (by decide)).trans ((s.sweepRead_busy _ _ _).trans hbusy)

end

/-! ### Drift refresh (R284) -/

theorem State.copying_congr {s t : State} (h : t.te.progs = s.te.progs) (d : Nat) : t.copying d = s.copying d := by
  unfold State.copying
  rw [h]

/-- The refresh of a whole block of the tiles `ts`, and the copy job that it hands on. -/
def State.refreshWhole (s : State) (d b pages : Nat) (ts : List (Nat × Loc)) : State :=
  let s := ({ s with sir.refresh := s.sir.refresh ++ [(2048 * d + b, pages, ts)] }.pcEvent 10 2 1).leased 10
  ({ s with te.gc := s.te.gc ++ [⟨d, b, false, 24, ts.map (fun x => (x.1, x.2, x.2)), true⟩] } : State).leased 8

theorem State.refreshWhole_shows (s : State) (d b pages : Nat) (ts : List (Nat × Loc)) :
    (s.refreshWhole d b pages ts).te = { s.te with
      gc := s.te.gc ++ [⟨d, b, false, 24, ts.map (fun x => (x.1, x.2, x.2)), true⟩] } ∧
    (s.refreshWhole d b pages ts).sir.refresh = s.sir.refresh ++ [(2048 * d + b, pages, ts)] := by
  constructor <;> simp [State.refreshWhole, State.leased]

variable (hfence : s.fencedSrc 10 = false) (hready : s.bit F.TE_STS.MAP_READY = true) (hrun : s.draining = false)
  (hknown : (s.blk die b).unknown = false) (halive : (s.die die).failed = false) (hnone : s.sir.refresh = [])
  (hst : (s.blk die b).st = 5) (hpages : (s.blk die b).seqs ≠ [])
  (hdue : s.refreshDue (zoneOf die) ((s.blk die b).seqs.headD 0) = true) (hcopying : s.copying die = true)
  (htiles : s.validTiles die b ≠ [])
include hfence hready hrun hknown halive hnone hst hpages hdue hcopying htiles

theorem exec_driftRefresh_verified : exec (.driftRefresh die b) s = .next (s.refreshWhole die b
      ((s.validTiles die b).foldl (fun (acc : List Nat) x => setIns x.2.page acc) []).length (s.validTiles die b)) := by
  have hwhole : (s.validTiles die b).filter (fun (x : Nat × Loc) => decide ((s.blk die b).st = 4 ∨ (s.blk die b).st = 5) ||
      s.refreshDue (zoneOf die) ((s.blk die b).seqs.getD x.2.page 0)) = s.validTiles die b := by
    simp [hst]
  have hempty : (s.validTiles die b).isEmpty = false := by simpa using htiles
  have hprogs (pages : Nat) : (s.refreshWhole die b pages (s.validTiles die b)).te.progs = s.te.progs := by
    rw [(s.refreshWhole_shows _ _ _ _).1]
  have hwaits (pages : Nat) : (s.refreshWhole die b pages (s.validTiles die b)).copying die = true :=
    (State.copying_congr (hprogs pages) _).trans hcopying
  show execDriftRefresh die b s = _
  unfold execDriftRefresh
  dsimp only
  rw [if_neg (by simp [hfence]), if_neg (by simp [hready, hrun, hknown, halive]), if_neg (by simp [hnone]),
    if_neg (by rw [hdue]; simp [hst, hpages]), hwhole, hempty, if_neg (by decide)]
  exact congrArg Host.Outcome.next (if_pos (hwaits _))

theorem exec_driftRefresh_shows : ∃ t, exec (.driftRefresh die b) s = .next t ∧ t.te.gc = s.te.gc ++
      [⟨die.val, b.val, false, 24, (s.validTiles die b).map (fun x => (x.1, x.2, x.2)), true⟩] ∧
      ∃ n, t.sir.refresh = [(2048 * die.val + b.val, n, s.validTiles die b)] := by
  obtain ⟨hte, hrefresh⟩ := s.refreshWhole_shows die b
    ((s.validTiles die b).foldl (fun (acc : List Nat) x => setIns x.2.page acc) []).length (s.validTiles die b)
  rw [hnone, List.nil_append] at hrefresh
  exact ⟨_, exec_driftRefresh_verified hfence hready hrun hknown halive hnone hst hpages hdue hcopying htiles,
    congrArg TeSt.gc hte, _, hrefresh⟩

end

/-- Settles O14: each command by its own lemma. -/
theorem driftCommands : Obligations.DriftCommands := by
  unfold Obligations.DriftCommands
  refine ⟨fun _ => exec_driftClockSecond_shows, fun _ _ => exec_ageLedgerEntry_shows,
    fun s hready => ⟨_, exec_dramLedgerEntry_ready hready, rfl⟩, fun _ => exec_blockAgeRecompute_shows,
    fun _ _ => exec_referenceSetLoad_shows, fun _ scores _ => exec_readReferenceTracking_shows scores,
    fun _ _ _ _ _ => exec_ageSweep_shows, fun _ _ _ => exec_driftRefresh_shows⟩

end Sys2Proof.Machine
end

section
/-! SUPPORT. The patrols of the Sirocco engine: scrub of the media and of the SRAMs, unrequested recovery, the lag of a late class
(09_integrity_and_drift.md R268, R285–R287). -/

set_option autoImplicit false
namespace Sys2Proof.Machine

/-! ### The grid of a class's passes (R287) -/

/-- The deadline of a pass of the period `p` that starts now, after a pass of the deadline `due`. -/
def passDue (now due p : Nat) : Nat := (if due = 0 then now else due) + p

theorem passDue_eq (now due p : Nat) : (if due = 0 then now + p else due + p) = passDue now due p := by
  unfold passDue
  split <;> rfl

/-! ### The media patrol (R285) -/

/-- A pass with a page left to read goes on. -/
theorem State.scrubEnd_unfinished {s : State} (h : s.sir.scrubTodo ≠ []) : s.scrubEnd = s := if_neg (by simp [h])

/-- A page read without a corrected bit (R285). -/
def State.scrubClean (s : State) (key : Nat) : State :=
  let t := s.bump R.SIR_SCRUB_PAGES
  t.sirLines (key / 2048 / 2048) (t.scrubLines (key / 2048 / 2048) (key / 2048 % 2048) (key % 2048))

theorem State.scrubPage_clean (s : State) (key : Nat) : s.scrubPage key { bits := [], bad := [] } = s.scrubClean key := by
  have hkept (u : State) : ({ u with sir.recover := u.sir.recover } : State) = u := rfl
  unfold State.scrubPage
  simp only [List.foldl_nil, List.any_nil, Bool.false_and, State.when, List.map_nil, List.append_nil, Bool.false_eq_true, if_false]
  exact hkept _

/-- The next page of the pass read without a corrected bit. -/
def State.scrubNext (s : State) (key : Nat) (rest : List Nat) : State :=
  ((({ s with sir.scrubTodo := rest } : State).pcItem 10).scrubClean key).sirTurnEnd (key / 2048 / 2048) false

theorem State.scrubNext_shows (s : State) (key : Nat) (rest : List Nat) : (s.scrubNext key rest).sir.scrubTodo = rest ∧
    (s.scrubNext key rest).rd R.SIR_SCRUB_PAGES = (s.bump R.SIR_SCRUB_PAGES).rd R.SIR_SCRUB_PAGES := by
  have hread : Same 17592253161482 ((({ s with sir.scrubTodo := rest } : State).pcItem 10).bump R.SIR_SCRUB_PAGES) (s.scrubNext key rest) :=
    State.sirTurnEnd_keeps rfl (State.sirLines_keeps rfl (Same.refl _ _))
  have hitem : (({ s with sir.scrubTodo := rest } : State).pcItem 10).regsAre s := State.pcItem_book _ 10
  constructor
  · exact congrArg SirSt.scrubTodo ((hread.sir rfl).trans ((State.pcItem_same _ 10).sir rfl))
  · exact (hread.own _ (by decide) (by decide)).trans (State.regsAre_bump (by decide) hitem _ (by decide))

section
variable {key : Nat} {rest : List Nat} {s : State} (hfence : s.fencedSrc 10 = false) (hen : s.bit F.SIR_CTL.SCRUB_EN = true)
  (hworks : s.sirWorks = true)
include hfence hen hworks

theorem exec_scrubPass_due (hdue : s.sir.scrub.due ≤ s.tick.toNat) (hnone : s.sir.scrubTodo = []) (hpages : s.te.media ≠ []) :
    exec .scrubPass s = .next { s with
      sir.scrub := ⟨true, passDue s.tick.toNat s.sir.scrub.due (s.num R.SIR_SCRUB_PERIOD % 1024 * 3600000 * msTicks)⟩
      sir.scrubTodo := s.scrubPages } := by
  have hmore : s.scrubPages ≠ [] := by simpa [State.scrubPages] using hpages
  show execScrubPass s = _
  unfold execScrubPass
  dsimp only
  rw [if_neg (by simp [hfence]), if_pos (by simp [hen, hworks, hnone, hdue]), passDue_eq]
  exact congrArg Host.Outcome.next (State.scrubEnd_unfinished hmore)

variable (hon : s.sir.scrub.on = true) (htodo : s.sir.scrubTodo = key :: rest) (hmore : rest ≠ [])
  (hthere : s.te.media.any (fun x => x.1 == key) = true) (hturn : s.sirTurn 6 (key / 2048 / 2048) = true)
  (hcan : s.bgCan (key / 2048 / 2048) = true)
include hon htodo hmore hthere hturn hcan

theorem exec_mediaScrubRead_clean : exec (.mediaScrubRead { bits := [], bad := [] }) s = .next (s.scrubNext key rest) := by
  have hgoes : (s.scrubNext key rest).scrubEnd = s.scrubNext key rest :=
    State.scrubEnd_unfinished ((s.scrubNext_shows key rest).1.trans_ne hmore)
  show execMediaScrubRead _ s = _
  unfold execMediaScrubRead
  rw [if_neg (by simp [hfence, hen, hworks, hon]), htodo]
  dsimp only
  rw [hthere, hturn, hcan, if_neg (by decide), if_neg (by decide), if_pos rfl, State.scrubPage_clean]
  exact congrArg Host.Outcome.next hgoes

theorem exec_mediaScrubRead_shows : ∃ t, exec (.mediaScrubRead { bits := [], bad := [] }) s = .next t ∧ t.sir.scrubTodo = rest ∧
    t.rd R.SIR_SCRUB_PAGES = (s.bump R.SIR_SCRUB_PAGES).rd R.SIR_SCRUB_PAGES :=
  ⟨_, exec_mediaScrubRead_clean hfence hen hworks hon htodo hmore hthere hturn hcan, s.scrubNext_shows key rest⟩

end

/-! ### Unrequested recovery of a parity page's line (R286) -/

theorem State.ReadStep.mpage {s t : State} (h : s.ReadStep t) (d b p : Nat) : t.mpage d b p = s.mpage d b p :=
  h.reads (fun e => sget MPage.erased e.media (pageKey d b p)) fun _ => rfl

theorem State.ReadStep.stripes {s t : State} (h : s.ReadStep t) : t.te.stripes = s.te.stripes := h.reads TeSt.stripes fun _ => rfl

theorem State.ReadStep.correctedLine {s t : State} (h : s.ReadStep t) (key i : Nat) : t.correctedLine key i = s.correctedLine key i := by
  unfold State.correctedLine
  dsimp only
  rw [h.2, h.mpage]

theorem State.ReadStep.parityRemade {s t : State} (h : s.ReadStep t) (key pos : Nat) : t.parityRemade key pos = s.parityRemade key pos := by
  unfold State.parityRemade
  simp only [h.stripes, h.correctedLine]

theorem State.blkMod_stripes (s : State) (d b : Nat) (f : Blk → Blk) : (s.blkMod d b f).te.stripes = s.te.stripes := by
  unfold State.blkMod State.segChanged
  split <;> rfl

theorem State.journal_stripes (s : State) (es : List JEntry) : (s.journal es).te.stripes = s.te.stripes :=
  (s.journal_journalStep es).reads TeSt.stripes fun _ => rfl

/-- What both branches of a choice read is what the choice reads. -/
theorem ite_reads {α : Type} (φ : State → α) {t u : State} {c : Prop} [Decidable c] {v : α} (ht : φ t = v) (hu : φ u = v) :
    φ (if c then t else u) = v := by split <;> assumption

theorem State.pageSettle_stripes (s : State) (d b : Nat) : (s.pageSettle d b).te.stripes = s.te.stripes := by
  have hcopied (c : Bool) (f : Blk → Blk) : (if c then s else s.blkMod d b f).te.stripes = s.te.stripes :=
    ite_reads (fun t => t.te.stripes) rfl (s.blkMod_stripes d b f)
  unfold State.pageSettle
  dsimp only
  refine ite_reads (fun t => t.te.stripes) ?_ (hcopied _ _)
  exact (State.journal_stripes _ _).trans ((State.blkMod_stripes _ _ _ _).trans (hcopied _ _))

theorem State.blkSettle_stripes (s : State) (d b : Nat) : (s.blkSettle d b).te.stripes = s.te.stripes := by
  have hpages := s.pageSettle_stripes d b
  unfold State.blkSettle
  dsimp only
  generalize s.pageSettle d b = u at hpages ⊢
  refine ite_reads (fun t => t.te.stripes) (ite_reads (fun t => t.te.stripes) ?_ ?_) hpages
  · refine (congrArg TeSt.stripes ((State.roll_same _ _ _ _ _ _ _).te rfl)).trans ?_
    exact (State.journal_stripes _ _).trans ((State.blkMod_stripes _ _ _ _).trans hpages)
  · exact (State.blkMod_stripes _ _ _ _).trans hpages

/-- The stripe whose parity page is given up is released (R286). -/
theorem State.parityGone_stripes {s : State} {key : Nat} {x : Stripe}
    (hfind : s.te.stripes.find? (fun y => y.parity == some key && !y.released) = some x) :
    (s.parityGone key).te.stripes = s.te.stripes.map fun y => if y.id = x.id then { y with released := true } else y := by
  unfold State.parityGone
  rw [hfind]
  exact State.blkSettle_stripes _ _ _

theorem State.sirArea_same (s : State) (l : Loc) (pos : Nat) : Same 24124898534154 s (s.sirArea l pos) :=
  State.sirArea_keeps rfl (Same.refl _ s)

theorem State.codecUe_same (s : State) (l : Loc) (pos : Nat) : Same 4398113620488 s (s.codecUe l pos) :=
  State.codecUe_keeps rfl (Same.refl _ s)

/-- A line of a parity page that its stripe's members cannot make again: the stripe counts as having none (R286). -/
theorem State.sirArea_parity {s : State} {l : Loc} {pos : Nat} (htyp : (s.mpage l.die l.block l.page).typ = 0x5A04)
    (hlost : s.parityRemade (packPage l.die l.block l.page) pos = false) :
    s.sirArea l pos = (s.bump (R.MG_OBP_FAIL (groupOf l.die))).parityGone (packPage l.die l.block l.page) := by
  unfold State.sirArea
  rw [htyp]
  exact if_neg (by simp [hlost])

/-- The oldest line found bad taken for recovery, with the three retries that fail. -/
def State.recoverTaken (s : State) (l : Loc) (pos : Nat) (rest : List (Loc × Nat)) : State :=
  (((({ s with sir.recover := rest } : State).sirItem l.die 3).bump R.SIR_UE_FOUND).codecUe l pos)

theorem State.recoverTaken_readStep (s : State) (l : Loc) (pos : Nat) (rest : List (Loc × Nat)) : s.ReadStep (s.recoverTaken l pos rest) :=
  have hcnt (c : Nat) : R.MC_STS c ≠ R.SIR_UE_FOUND := by unfold R.MC_STS R.SIR_UE_FOUND; omega
  have htaken : s.ReadStep ({ s with sir.recover := rest } : State) := ⟨rfl, fun _ => rfl⟩
  have hitem := htaken.trans (State.sirItem_readStep _ l.die 3)
  have hcounted := hitem.trans (State.addCnt_readStep _ 1 hcnt)
  hcounted.trans ((State.codecUe_same _ l pos).readStep rfl rfl)

theorem State.recoverTaken_recover (s : State) (l : Loc) (pos : Nat) (rest : List (Loc × Nat)) :
    (s.recoverTaken l pos rest).sir.recover = rest := by
  have hsame : Same 22265177580042 ({ s with sir.recover := rest } : State) (s.recoverTaken l pos rest) :=
    State.codecUe_keeps rfl (State.bump_keeps rfl (R.SIR_UE_FOUND_ok rfl)
      (State.sirTurnEnd_keeps rfl (State.sirLines_keeps rfl (State.pcItem_keeps rfl (Same.refl _ _)))))
  rw [hsame.sir rfl]

section
variable {l : Loc} {pos : Nat} {rest : List (Loc × Nat)} {x : Stripe} (tag : Bool) {s : State} (hfence : s.fencedSrc 10 = false)
  (hrecover : s.sir.recover = (l, pos) :: rest) (hworks : s.sirWorks = true) (hcan : s.bgCan l.die = true)
  (htyp : (s.mpage l.die l.block l.page).typ = 0x5A04)
include hfence hrecover hworks hcan htyp

theorem exec_unrequestedRecovery_parity :
    exec (.unrequestedRecovery (.no tag)) s = .next ((s.recoverTaken l pos rest).sirArea l pos) := by
  have htyp' : ((({ s with sir.recover := rest } : State).sirItem l.die 3).mpage l.die l.block l.page).typ = 0x5A04 :=
    (congrArg MPage.typ ((State.sirItem_readStep _ l.die 3).mpage _ _ _)).trans htyp
  show execUnrequestedRecovery _ s = _
  unfold execUnrequestedRecovery
  rw [if_neg (by simp [hfence]), hrecover]
  dsimp only
  rw [if_neg (by simp [hworks]), if_neg (by simp [hcan])]
  exact if_pos ((congrArg (List.contains _) htyp').trans rfl)

theorem exec_unrequestedRecovery_shows (hlost : s.parityRemade (packPage l.die l.block l.page) pos = false)
    (hfind : s.te.stripes.find? (fun y => y.parity == some (packPage l.die l.block l.page) && !y.released) = some x) :
    ∃ t, exec (.unrequestedRecovery (.no tag)) s = .next t ∧ t.sir.recover = rest ∧
      ∀ y ∈ t.te.stripes, y.id = x.id → y.released = true := by
  have hread := s.recoverTaken_readStep l pos rest
  have harea := State.sirArea_parity ((congrArg MPage.typ (hread.mpage _ _ _)).trans htyp) ((hread.parityRemade _ _).trans hlost)
  refine ⟨_, exec_unrequestedRecovery_parity tag hfence hrecover hworks hcan htyp, ?_, ?_⟩
  · exact (congrArg SirSt.recover ((State.sirArea_same _ l pos).sir rfl)).trans (s.recoverTaken_recover l pos rest)
  · intro y hy hid
    have hfound : ((s.recoverTaken l pos rest).bump (R.MG_OBP_FAIL (groupOf l.die))).te.stripes.find?
        (fun y => y.parity == some (packPage l.die l.block l.page) && !y.released) = some x :=
      (congrArg (List.find? _) hread.stripes).trans hfind
    rw [harea, State.parityGone_stripes hfound] at hy
    obtain ⟨z, -, rfl⟩ := List.mem_map.mp hy
    by_cases hz : z.id = x.id
    · rw [if_pos hz]
    · rw [if_neg hz] at hid
      exact absurd hid hz

end

/-! ### The SRAM patrol (R268) -/

section
variable {s : State} (hfence : s.fencedSrc 10 = false)
include hfence

theorem exec_sramPatrolPass_due (hen : s.bit F.SIR_CTL.SRAM_EN = true) (hdue : s.sir.sram.due ≤ s.tick.toNat) :
    exec .sramPatrolPass s = .next { s.passLag 7 s.sir.sram with
      sir.sram := ⟨true, passDue s.tick.toNat s.sir.sram.due (s.num R.SIR_SRAM_PERIOD % 1024 * 100 * msTicks)⟩ } := by
  show execSramPatrolPass s = _
  unfold execSramPatrolPass
  dsimp only
  rw [if_neg (by simp [hfence]), if_pos (by simp [hen, hdue]), passDue_eq]

theorem exec_sramPatrolWord_on (hon : s.sir.sram.on = true) :
    exec (.sramPatrolWord .clean) s = .next (s.pcItem 10) ∧
    ∀ changed, exec (.sramPatrolWord (.fix changed)) s =
      .next (if changed then s.pcItem 10 else (s.pcItem 10).bump R.SIR_SRAM_FIX) := by
  constructor
  · show execSramPatrolWord .clean s = _
    unfold execSramPatrolWord
    rw [if_neg (by simp [hfence]), if_neg (by simp [hon])]
  · intro changed
    show execSramPatrolWord (.fix changed) s = _
    unfold execSramPatrolWord
    rw [if_neg (by simp [hfence]), if_neg (by simp [hon])]

theorem exec_sramPatrolWord_shows (hon : s.sir.sram.on = true) :
    (∃ t, exec (.sramPatrolWord .clean) s = .next t ∧ t.regsAre s) ∧
    (∃ t, exec (.sramPatrolWord (.fix false)) s = .next t ∧ t.regsAre (s.bump R.SIR_SRAM_FIX)) ∧
    (∃ t, exec (.sramPatrolWord (.fix true)) s = .next t ∧ t.regsAre s) := by
  obtain ⟨hclean, hfix⟩ := exec_sramPatrolWord_on hfence hon
  have hitem := s.pcItem_book 10
  exact ⟨⟨_, hclean, hitem⟩, ⟨_, hfix false, State.regsAre_bump (by decide) hitem⟩, ⟨_, hfix true, hitem⟩⟩

end

/-! ### A class is late (R287) -/

/-- The later of the latest class so far and a class, with its lag. -/
def State.laterClass (s : State) (b : Nat × Nat) (c : Nat) : Nat × Nat := match lagReg c with
  | some r => if b.2 < s.num r then (c, s.num r) else b
  | none => b

theorem State.laterClass_ge (s : State) (b : Nat × Nat) (c : Nat) :
    b.2 ≤ (s.laterClass b c).2 ∧ ∀ r, lagReg c = some r → s.num r ≤ (s.laterClass b c).2 := by
  unfold State.laterClass
  split
  · next r hr =>
    rw [hr]
    split
    · next h => exact ⟨h.le, fun q hq => by cases hq; exact le_rfl⟩
    · next h => exact ⟨le_rfl, fun q hq => by cases hq; exact Nat.le_of_not_lt h⟩
  · next hr =>
    rw [hr]
    exact ⟨le_rfl, fun _ hq => nomatch hq⟩

/-- The lag that SIR_LAG shows is at least that of every class. -/
theorem State.foldl_laterClass_ge (s : State) (cs : List Nat) (b : Nat × Nat) : b.2 ≤ (cs.foldl s.laterClass b).2 ∧
    ∀ c ∈ cs, ∀ r, lagReg c = some r → s.num r ≤ (cs.foldl s.laterClass b).2 := by
  induction cs generalizing b with
  | nil => simp
  | cons c cs ih =>
    obtain ⟨hfrom, hown⟩ := s.laterClass_ge b c
    obtain ⟨hfrom', hown'⟩ := ih (s.laterClass b c)
    exact ⟨hfrom.trans hfrom', List.forall_mem_cons.mpr ⟨fun r hr => (hown r hr).trans hfrom', hown'⟩⟩

/-- A class with a lag makes the engine late, and its lag is left. -/
theorem State.lagShow_shows (s : State) : s.lagShow.rd R.SIR_LAG_REF = s.rd R.SIR_LAG_REF ∧
    (s.num R.SIR_LAG_REF ≠ 0 → s.lagShow.bit F.SIR_STS.LATE = true) := by
  constructor
  · exact (State.rd_wrN_ne _ _ (by decide)).trans ((State.rd_set_ne _ _ _ (by decide)).trans
      ((State.rd_setBit_ne _ _ _ (by decide)).trans (State.rd_wrN_ne _ _ (by decide))))
  · intro hlag
    have hworst := (s.foldl_laterClass_ge [2, 3, 5, 6, 7] (0, 0)).2 3 (by decide) R.SIR_LAG_REF rfl
    have hlate : (([2, 3, 5, 6, 7].foldl s.laterClass (0, 0)).2 != 0) = true := by
      rw [bne_iff_ne]
      omega
    refine (State.bit_congr (State.rd_wrN_ne _ _ (by decide))).trans ?_
    refine (State.bit_set_ne _ _ _ _ (by decide) (by decide)).trans ?_
    exact (State.bit_setBit_self _ _ _ (by decide) (by decide)).trans hlate

theorem State.setLag_refresh_shows (s : State) (ms : Word) : (s.setLag 3 ms.toNat).rd R.SIR_LAG_REF = ms ∧
    (ms ≠ 0 → (s.setLag 3 ms.toNat).bit F.SIR_STS.LATE = true) := by
  have hmin : min ms.toNat 0xFFFFFFFF = ms.toNat := by omega
  have hcalm (u : State) (c : Bool) (a b d e f g : Nat) :
      (u.when c fun u => u.roll a b d e f g).rd R.SIR_LAG_REF = u.rd R.SIR_LAG_REF :=
    ((u.whenRoll_same c a b d e f g).regsAre (by decide)) _ (by decide)
  have hset (u : State) (h : u.rd R.SIR_LAG_REF = ms) :
      u.lagShow.rd R.SIR_LAG_REF = ms ∧ (ms ≠ 0 → u.lagShow.bit F.SIR_STS.LATE = true) := by
    obtain ⟨hreg, hlate⟩ := u.lagShow_shows
    refine ⟨hreg.trans h, fun hne => hlate ?_⟩
    rw [State.num, h]
    exact fun hz => hne (BitVec.eq_of_toNat_eq hz)
  refine hset _ ((hcalm _ _ _ _ _ _ _ _).trans ?_)
  rw [hmin]
  exact (State.rd_wr_self _ _ _).trans (BitVec.ofNat_toNat 32 ms |>.trans (BitVec.setWidth_eq ms))

theorem exec_siroccoDeadlinePassed_refresh {s : State} (ms : Word) (hfence : s.fencedSrc 10 = false) (hitems : s.sir.refresh ≠ []) :
    exec (.siroccoDeadlinePassed 3 ms) s = .next (s.setLag 3 ms.toNat) := by
  show execSiroccoDeadlinePassed 3 ms s = _
  unfold execSiroccoDeadlinePassed
  rw [if_neg (by simp [hfence])]
  exact congrArg Host.Outcome.next (if_neg (by simpa using hitems))

end Sys2Proof.Machine
end

section
/-! SUPPORT. The checker test mode and the codec's test (09_integrity_and_drift.md R269–R271, Tables 9.3, 9.4, 9.15). -/

set_option autoImplicit false
namespace Sys2Proof.Machine

/-! ### An operation of the checker test (R270) -/

/-- A test operation begun on an array: it is done, with its error (Table 9.15). -/
def State.chkBegun (s : State) (a e : Nat) : State :=
  (((s.regAcc 10).set F.SIR_CHK_CTL.ARRAY a).setBit F.SIR_CHK_STS.DONE true).set F.SIR_CHK_STS.ERR e

theorem State.chkBegun_rd (s : State) (a e : Nat) {o : Nat} (hbook : bookReg o = false) (hctl : o ≠ R.SIR_CHK_CTL)
    (hsts : o ≠ R.SIR_CHK_STS) : (s.chkBegun a e).rd o = s.rd o :=
  (State.rd_set_ne _ _ _ hsts).trans ((State.rd_setBit_ne _ _ _ hsts).trans ((State.rd_set_ne _ _ _ hctl).trans (s.regAcc_book 10 o hbook)))

theorem State.chkBegun_sts (s : State) (a e : Nat) : (s.chkBegun a e).bit F.SIR_CHK_STS.DONE = true ∧
    (s.chkBegun a e).get F.SIR_CHK_STS.ERR = e % 4 :=
  ⟨(State.bit_set_ne _ _ _ _ (by decide) (by decide)).trans (State.bit_setBit_self _ _ _ (by decide) (by decide)),
    State.get_set_self _ _ _ (by decide)⟩

theorem State.get_lc (s : State) (q : LcSt) (f : Fld) : ({ s with lc := q } : State).get f = s.get f := rfl

theorem State.bit_lc (s : State) (q : LcSt) (f : Fld) : ({ s with lc := q } : State).bit f = s.bit f := rfl

theorem State.chkBegun_lc (s : State) (a e : Nat) : (s.chkBegun a e).lc = s.lc := by simp [State.chkBegun]

/-- Whether an array takes a test depends on nothing that the checker's own registers hold (Table 9.4). -/
theorem Same.chkErr {s t : State} (h : Same 274945015816 s t) (a i : Nat) : t.chkErr a i = s.chkErr a i := by
  have haccepts : t.chkAccepts a i = s.chkAccepts a i := by
    have htrained : t.bit (F.DC_STS.TRAINED (i % 8)) = s.bit (F.DC_STS.TRAINED (i % 8)) := State.bit_congr (h.dcSts rfl (i % 8))
    have hstripes (n : Nat) : t.stripesOf n = s.stripesOf n := by
      unfold State.stripesOf
      rw [h.te rfl]
    have hmapc : t.bit F.MAPC_CTL.EN = s.bit F.MAPC_CTL.EN ∧ t.bit F.MAPC_STS.INV_BUSY = s.bit F.MAPC_STS.INV_BUSY :=
      ⟨h.bit rfl rfl, h.bit rfl rfl⟩
    have hlc : t.bit F.LC_CTL.EN = s.bit F.LC_CTL.EN ∧ t.bit F.LC_STS.SAFE_BUSY = s.bit F.LC_STS.SAFE_BUSY ∧
        t.bit F.LC_STS.CHECK_BUSY = s.bit F.LC_STS.CHECK_BUSY := ⟨h.bit rfl rfl, h.bit rfl rfl, h.bit rfl rfl⟩
    unfold State.chkAccepts
    simp only [htrained, hstripes, hmapc, hlc, h.lc rfl]
  unfold State.chkErr
  rw [haccepts]

theorem bookReg_sirChkD (k : Nat) : bookReg (R.SIR_CHK_D k) = false :=
  bookReg_of (by unfold pageOf R.SIR_CHK_D; omega) (by unfold pageOf R.SIR_CHK_D; omega) (by unfold R.SIR_CHK_D; omega)

theorem sirChkD_ne (k : Nat) : R.SIR_CHK_D k ≠ R.SIR_CHK_STS ∧ R.SIR_CHK_D k ≠ R.SIR_CHK_CB := by
  unfold R.SIR_CHK_D R.SIR_CHK_STS R.SIR_CHK_CB
  omega

/-- The data of SIR_CHK_D, and the check bits of SIR_CHK_CB, cut to an array's widths. -/
def State.chkWord (s : State) (a : Nat) : Nat × Nat :=
  ((s.num (R.SIR_CHK_D 0) + s.num (R.SIR_CHK_D 1) * 2 ^ 32 + s.num (R.SIR_CHK_D 2) * 2 ^ 64 + s.num (R.SIR_CHK_D 3) * 2 ^ 96) %
    2 ^ (chkWidth a).1, s.num R.SIR_CHK_CB % 2 ^ (chkWidth a).2)

theorem State.chkBegun_chkWord (s : State) (a e n : Nat) : (s.chkBegun a e).chkWord n = s.chkWord n := by
  have hkept {o : Nat} (hbook : bookReg o = false) (hctl : o ≠ R.SIR_CHK_CTL) (hsts : o ≠ R.SIR_CHK_STS) :
      (s.chkBegun a e).num o = s.num o := congrArg BitVec.toNat (s.chkBegun_rd a e hbook hctl hsts)
  have hdata (k : Nat) : (s.chkBegun a e).num (R.SIR_CHK_D k) = s.num (R.SIR_CHK_D k) :=
    hkept (bookReg_sirChkD k) (by unfold R.SIR_CHK_D R.SIR_CHK_CTL; omega) (sirChkD_ne k).1
  have hbits : (s.chkBegun a e).num R.SIR_CHK_CB = s.num R.SIR_CHK_CB := hkept (by decide) (by decide) (by decide)
  simp only [State.chkWord, hdata, hbits]

theorem State.regAcc_chkIdx (s : State) : (s.regAcc 10).chkIdx = s.chkIdx := congrArg (· % 2 ^ 22) ((s.regAcc_book 10).num (by decide))

/-- An operation on an array that takes a test, on a word that exists, begins without an error. -/
theorem State.chkErr_accepted {a : Fin 8} {s : State} (herr : s.chkErr a s.chkIdx = 0) :
    (((s.regAcc 10).set F.SIR_CHK_CTL.ARRAY a).setBit F.SIR_CHK_STS.DONE true).chkErr a (s.regAcc 10).chkIdx = 0 := by
  have hsame : Same 274945015816 s (((s.regAcc 10).set F.SIR_CHK_CTL.ARRAY a).setBit F.SIR_CHK_STS.DONE true) :=
    State.setBit_keeps rfl (R.SIR_CHK_STS_ok rfl) (State.set_keeps rfl (R.SIR_CHK_CTL_ok rfl) (State.regAcc_keeps rfl (Same.refl _ s)))
  rw [hsame.chkErr, s.regAcc_chkIdx, herr]

theorem chkDecode_result_lt (n d c : Nat) : (chkDecode n d c).1 < 4 := by
  unfold chkDecode
  dsimp only
  repeat' split
  all_goals simp

/-- SIR_CHK_D holds a word's data, 32 bits a register. -/
def State.chkDataPut (s : State) (v : Nat) : State := (List.range 4).foldl (fun s k => s.wrN (R.SIR_CHK_D k) (v / 2 ^ (32 * k))) s

theorem State.chkDataPut_rd_ne (s : State) (v : Nat) {o : Nat} (ho : ∀ k, o ≠ R.SIR_CHK_D k) : (s.chkDataPut v).rd o = s.rd o :=
  foldl_eq (fun t : State => t.rd o) (fun _ k => State.rd_wrN_ne _ _ (ho k)) _ s

theorem State.chkDataPut_low (s : State) (v : Nat) : (s.chkDataPut v).rd (R.SIR_CHK_D 0) = BitVec.ofNat 32 v := by
  have hfirst : (s.chkDataPut v).rd (R.SIR_CHK_D 0) = (s.wrN (R.SIR_CHK_D 0) (v / 2 ^ (32 * 0))).rd (R.SIR_CHK_D 0) :=
    (State.rd_wrN_ne _ _ (by decide)).trans ((State.rd_wrN_ne _ _ (by decide)).trans (State.rd_wrN_ne _ _ (by decide)))
  rw [hfirst, Nat.mul_zero, Nat.pow_zero, Nat.div_one]
  exact State.rd_wr_self _ _ _

/-- What the checker makes of a word shown: data, check bits, result, position and syndrome (Table 9.15). -/
def State.chkShown (s : State) (c : Nat) (q : Nat × Nat × Nat × Nat) : State :=
  ((((s.chkDataPut q.2.1).wrN R.SIR_CHK_CB c).set F.SIR_CHK_STS.RESULT q.1).set F.SIR_CHK_STS.POS q.2.2.1).set F.SIR_CHK_STS.SYN q.2.2.2

theorem State.chkShown_rd (s : State) (c : Nat) (q : Nat × Nat × Nat × Nat) :
    (s.chkShown c q).rd (R.SIR_CHK_D 0) = BitVec.ofNat 32 q.2.1 ∧ (s.chkShown c q).rd R.SIR_CHK_CB = BitVec.ofNat 32 c := by
  have hsts {o : Nat} (ho : o ≠ R.SIR_CHK_STS) : (s.chkShown c q).rd o = ((s.chkDataPut q.2.1).wrN R.SIR_CHK_CB c).rd o :=
    (State.rd_set_ne _ _ _ ho).trans ((State.rd_set_ne _ _ _ ho).trans (State.rd_set_ne _ _ _ ho))
  refine ⟨?_, (hsts (by decide)).trans (State.rd_wr_self _ _ _)⟩
  rw [hsts (sirChkD_ne 0).1, State.rd_wrN_ne _ _ (sirChkD_ne 0).2, State.chkDataPut_low]

theorem State.chkShown_sts (s : State) (c : Nat) {q : Nat × Nat × Nat × Nat} (hq : q.1 < 4) :
    (s.chkShown c q).bit F.SIR_CHK_STS.DONE = s.bit F.SIR_CHK_STS.DONE ∧
    (s.chkShown c q).get F.SIR_CHK_STS.ERR = s.get F.SIR_CHK_STS.ERR ∧ (s.chkShown c q).get F.SIR_CHK_STS.RESULT = q.1 := by
  have hdata {f : Fld} (hf : f.off = R.SIR_CHK_STS) (hresult : f.lo + f.width ≤ 2 ∨ 4 ≤ f.lo) (hrest : f.lo + f.width ≤ 8) :
      (s.chkShown c q).get f = s.get f := by
    unfold State.chkShown
    rw [State.get_set_ne _ _ _ _ (by decide) (.inr (.inl (by show _ ≤ 16; omega))),
      State.get_set_ne _ _ _ _ (by decide) (.inr (.inl hrest)), State.get_set_ne _ _ _ _ (by decide) (.inr hresult)]
    refine congrArg (fldOf f) ?_
    rw [hf, State.rd_wrN_ne _ _ (by decide), State.chkDataPut_rd_ne _ _ fun k => (sirChkD_ne k).1.symm]
  refine ⟨congrArg (· != 0) (hdata rfl (by decide) (by decide)), hdata rfl (by decide) (by decide), ?_⟩
  unfold State.chkShown
  rw [State.get_set_ne _ _ _ _ (by decide) (by decide), State.get_set_ne _ _ _ _ (by decide) (by decide),
    State.get_set_self _ _ _ (by decide)]
  exact Nat.mod_eq_of_lt hq

section
variable {path : Path} {a : Fin 8} {s : State} (hmgr : s.isManager path = true)
include hmgr

section
variable (herr : s.chkErr a s.chkIdx = 0)
include herr

theorem exec_sirChkWrite_accepted : exec (.sirChkWrite path a) s = .next (State.setBit { s.chkBegun a 0 with
    lc.test := s.lc.test.filter (fun x => !(x.1 == a.val && x.2.1 == s.chkIdx)) ++
      [(a.val, s.chkIdx, (s.chkWord a).1, (s.chkWord a).2)] } F.SIR_CHK_STS.ACTIVE true) := by
  have hlc := s.chkBegun_lc a 0
  show execSirChkWrite path a s = _
  unfold execSirChkWrite
  dsimp only
  rw [if_neg (by simp [State.regAcc_isManager, hmgr]), State.chkErr_accepted herr, if_neg (by simp), s.regAcc_chkIdx,
    ← s.chkBegun_chkWord a 0 a, ← hlc]
  rfl

theorem exec_sirChkWrite_shows : ∃ t, exec (.sirChkWrite path a) s = .next t ∧ t.bit F.SIR_CHK_STS.ACTIVE = true ∧
    t.bit F.SIR_CHK_STS.DONE = true ∧ t.get F.SIR_CHK_STS.ERR = 0 ∧
    (a.val, s.chkIdx, (s.chkWord a).1, (s.chkWord a).2) ∈ t.lc.test := by
  obtain ⟨hdone, herr0⟩ := s.chkBegun_sts a 0
  refine ⟨_, exec_sirChkWrite_accepted hmgr herr, State.bit_setBit_self _ _ _ (by decide) (by decide), ?_, ?_, ?_⟩
  · exact (State.bit_setBit_ne _ _ _ _ (by decide) (by decide)).trans ((State.bit_lc _ _ _).trans hdone)
  · exact (State.get_set_ne _ _ _ _ (by decide) (by decide)).trans ((State.get_lc _ _ _).trans herr0)
  · exact List.mem_append_right _ (List.mem_singleton.mpr rfl)

variable {d c : Nat} (hword : s.lc.test.find? (fun x => x.1 == a.val && x.2.1 == s.chkIdx) = some (a.val, s.chkIdx, d, c))
include hword

theorem exec_sirChkRead_accepted : exec (.sirChkRead path a) s = .next ((s.chkBegun a 0).chkShown c (chkDecode a d c)) := by
  have hfind : (s.chkBegun a 0).lc.test.find? (fun x => x.1 == a.val && x.2.1 == s.chkIdx) = some (a.val, s.chkIdx, d, c) := by
    rw [s.chkBegun_lc, hword]
  show execSirChkRead path a s = _
  unfold execSirChkRead
  dsimp only
  rw [if_neg (by simp [State.regAcc_isManager, hmgr]), State.chkErr_accepted herr, if_neg (by simp), s.regAcc_chkIdx]
  unfold State.chkBegun at hfind
  rw [hfind]
  rfl

theorem exec_sirChkRead_shows : ∃ t, exec (.sirChkRead path a) s = .next t ∧ t.bit F.SIR_CHK_STS.DONE = true ∧
    t.get F.SIR_CHK_STS.ERR = 0 ∧ t.get F.SIR_CHK_STS.RESULT = (chkDecode a d c).1 ∧
    t.rd (R.SIR_CHK_D 0) = BitVec.ofNat 32 (chkDecode a d c).2.1 ∧ t.rd R.SIR_CHK_CB = BitVec.ofNat 32 c := by
  obtain ⟨hdone, herr0⟩ := s.chkBegun_sts a 0
  obtain ⟨hkeptDone, hkeptErr, hresult⟩ := (s.chkBegun a 0).chkShown_sts c (chkDecode_result_lt a d c)
  exact ⟨_, exec_sirChkRead_accepted hmgr herr hword, hkeptDone.trans hdone, hkeptErr.trans herr0, hresult,
    (s.chkBegun a 0).chkShown_rd c (chkDecode a d c)⟩

end

/-- The end of a test while no enable of a cache waits: the words of the caches go (R270). -/
theorem exec_sirChkEnd_shows (hlc : s.lc.enWait = false) (hmapc : s.lc.mapcEnWait = false) : ∃ t, exec (.sirChkEnd path) s = .next t ∧
    t.regsAre ((s.setBit F.SIR_CHK_STS.ACTIVE false).setBit F.SIR_CHK_STS.DONE true) ∧
    t.lc.test = s.lc.test.filter (fun x => decide (4 ≤ x.1)) := by
  refine ⟨(({ s.regAcc 10 with lc.test := s.lc.test.filter (fun x => decide (4 ≤ x.1)) } : State).setBit F.SIR_CHK_STS.ACTIVE
    false).setBit F.SIR_CHK_STS.DONE true, ?_, ?_, rfl⟩
  · show execSirChkEnd path s = _
    unfold execSirChkEnd
    dsimp only
    rw [if_neg (by simp [State.regAcc_isManager, hmgr])]
    simp [hlc, hmapc]
  · exact State.regsAre_setBit (by decide) (State.regsAre_setBit (by decide) (s.regAcc_book 10))

end

/-! ### The codec's test (R271) -/

theorem bookReg_mgCw (i k : Nat) : bookReg (R.MG_CW i k) = false :=
  bookReg_of (by unfold pageOf R.MG_CW; omega) (by unfold pageOf R.MG_CW; omega) (by unfold R.MG_CW; omega)

theorem bookReg_mgCwRes (i : Nat) : bookReg (R.MG_CW_RES i) = false :=
  bookReg_of (by unfold pageOf R.MG_CW_RES; omega) (by unfold pageOf R.MG_CW_RES; omega) (by unfold R.MG_CW_RES; omega)

theorem State.regsAre.cwBuf {s t : State} (h : t.regsAre s) (g : Nat) : t.cwBuf g = s.cwBuf g := by
  unfold State.cwBuf
  simp only [h.num (bookReg_mgCw g _)]

theorem State.regsAre.setCw {s t : State} (h : t.regsAre s) (g : Nat) (w : StoredLine) : (t.setCw g w).regsAre (s.setCw g w) := by
  unfold State.setCw
  generalize List.range 22 = ks
  induction ks generalizing s t with
  | nil => exact h
  | cons k ks ih => exact ih (State.regsAre_wr h)

section
variable {g : Fin 5} {path : Path} {s : State} (hmgr : s.isManager path = true)
include hmgr

theorem exec_mgCwEncode_shows : ∃ t, exec (.mgCwEncode g path) s = .next t ∧
    t.regsAre ((s.setCw g (bchEncode (s.cwBuf g))).setBit ⟨R.MG_CW_RES g, 5, 1⟩ true) := by
  have haccess := s.regAcc_book (26 + g)
  refine ⟨_, congrArg Host.Outcome.next (if_pos ((s.regAcc_isManager _ path).trans hmgr)), ?_⟩
  dsimp only
  rw [haccess.cwBuf]
  exact State.regsAre_setBit (bookReg_mgCwRes g) (haccess.setCw g _)

/-- The codec's result on the buffer: the corrected codeword stored with WB, the bits corrected, or the failure (R271). -/
def State.cwDecoded (s : State) (g : Nat) (wb : Bool) : Option (StoredLine × Nat) → State
  | some (w, n) => (if wb then s.setCw g w else s).wrN (R.MG_CW_RES g) (n + 32)
  | none => s.wrN (R.MG_CW_RES g) 48

omit hmgr in
theorem State.regsAre.cwDecoded {s t : State} (h : t.regsAre s) (g : Nat) (wb : Bool) (r : Option (StoredLine × Nat)) :
    (t.cwDecoded g wb r).regsAre (s.cwDecoded g wb r) := by
  rcases r with _ | ⟨w, n⟩
  · exact State.regsAre_wr h
  · cases wb
    · exact State.regsAre_wr h
    · exact State.regsAre_wr (h.setCw g w)

theorem exec_mgCwDecode_manager (wb : Bool) : exec (.mgCwDecode g path wb) s =
    .next ((s.regAcc (26 + g)).cwDecoded g wb (bchDecode (s.cwBuf g))) := by
  rw [← (s.regAcc_book (26 + g)).cwBuf g]
  show execMgCwDecode g path wb s = _
  unfold execMgCwDecode
  dsimp only
  rw [State.when, if_pos ((s.regAcc_isManager _ path).trans hmgr)]
  generalize bchDecode ((s.regAcc (26 + g)).cwBuf g) = r
  rcases r with _ | ⟨w, n⟩
  · simp only [State.cwDecoded]
  · simp only [State.cwDecoded]

theorem exec_mgCwDecode_shows (wb : Bool) : ∃ t, exec (.mgCwDecode g path wb) s = .next t ∧
    t.regsAre (s.cwDecoded g wb (bchDecode (s.cwBuf g))) :=
  ⟨_, exec_mgCwDecode_manager hmgr wb, (s.regAcc_book _).cwDecoded g wb _⟩

end

/-- Settles O15: each command by its own lemma. -/
theorem patrolAndTestCommands : Obligations.PatrolAndTestCommands := by
  unfold Obligations.PatrolAndTestCommands
  refine ⟨?scrub, fun _ _ _ => exec_mediaScrubRead_shows, fun _ _ _ _ tag _ => exec_unrequestedRecovery_shows tag, ?sram,
    fun _ => exec_sramPatrolWord_shows, ?late, fun _ _ _ => exec_sirChkWrite_shows,
    fun _ _ _ _ _ hmgr herr hword => exec_sirChkRead_shows hmgr herr hword,
   
    fun _ _ => exec_sirChkEnd_shows, fun _ _ _ => exec_mgCwEncode_shows, ?decode⟩
  case scrub =>
    intro s hfence hen hworks hdue hnone hpages
    exact ⟨_, exec_scrubPass_due hfence hen hworks hdue hnone hpages, rfl, rfl⟩
  case sram =>
    intro s hfence hen hdue
    exact ⟨_, exec_sramPatrolPass_due hfence hen hdue, rfl⟩
  case late =>
    intro ms s hfence hitems
    exact ⟨_, exec_siroccoDeadlinePassed_refresh ms hfence hitems, s.setLag_refresh_shows ms⟩
  case decode =>
    intro g path wb s hmgr
    obtain ⟨t, hexec, hregs⟩ := exec_mgCwDecode_shows (g := g) hmgr wb
    refine ⟨t, hexec, ?_⟩
    generalize bchDecode (s.cwBuf g) = r at hregs ⊢
    rcases r with _ | ⟨w, n⟩
    · simpa only [State.cwDecoded] using hregs
    · simpa only [State.cwDecoded] using hregs

end Sys2Proof.Machine
end

section
/-! SUPPORT. Key slots and sealed streams through the shared operations (10_cipher_engine.md R298, R313, R317–R323). -/

set_option autoImplicit false

namespace Sys2Proof.Machine

/-! ### Key slots (R298, R313) -/

theorem State.keySlot_keyMod (s : State) (n m : Nat) (f : KeySlot → KeySlot) :
    (s.keyMod n f).keySlot m = if m = n then f (s.keySlot n) else s.keySlot m := sget_sset _ _ _ _ _

theorem State.keySlot_congr {s t : State} (h : t.ce = s.ce) (n : Nat) : t.keySlot n = s.keySlot n := by
  unfold State.keySlot
  rw [h]

/-- A slot that takes a key is VALID and holds it; its kind stays (R298). -/
theorem State.keyLoad_shows (s : State) (n : Nat) {key : Nat} (hkey : key < 2 ^ 256) :
    ((s.keyLoad n key).keySlot n).st = 2 ∧ ((s.keyLoad n key).keySlot n).key = key ∧
      ((s.keyLoad n key).keySlot n).kind = (s.keySlot n).kind := by
  have hslot : (s.keyLoad n key).keySlot n =
      ({ s.keySlot n with st := 2 } : KeySlot).load key s.mask.1 s.mask.2 := (s.keySlot_keyMod n n _).trans (if_pos rfl)
  rw [hslot]
  exact ⟨rfl, (KeySlot.key_load _ _ _ _).trans (Nat.mod_eq_of_lt hkey), rfl⟩

theorem kdf_lt (key purpose ctx : Nat) : kdf key purpose ctx < 2 ^ 256 := by
  have hlow := (cmac key (kdfMessage 1 purpose ctx)).isLt
  have hhigh := (cmac key (kdfMessage 2 purpose ctx)).isLt
  unfold kdf
  omega

/-- t has the streams of s, and each key slot its state, its key and its hash subkey: what a use of keys leaves (R313). -/
structure State.KeyStep (s t : State) : Prop where
  streams : t.ce.streams = s.ce.streams
  st : ∀ n, (t.keySlot n).st = (s.keySlot n).st
  key : ∀ n, (t.keySlot n).key = (s.keySlot n).key
  hash : ∀ n, (t.keySlot n).h = (s.keySlot n).h

theorem State.KeyStep.of_ce {s t : State} (h : t.ce = s.ce) : s.KeyStep t :=
  ⟨by rw [h], fun n => by rw [State.keySlot_congr h], fun n => by rw [State.keySlot_congr h], fun n => by rw [State.keySlot_congr h]⟩

theorem State.KeyStep.refl (s : State) : s.KeyStep s := .of_ce rfl

theorem State.KeyStep.trans {s t u : State} (h : s.KeyStep t) (k : t.KeyStep u) : s.KeyStep u :=
  ⟨k.streams.trans h.streams, fun n => (k.st n).trans (h.st n), fun n => (k.key n).trans (h.key n),
    fun n => (k.hash n).trans (h.hash n)⟩

theorem State.keyUse_keyStep (s : State) (n : Nat) : s.KeyStep (s.keyUse n) := by
  unfold State.keyUse
  split
  · exact State.KeyStep.refl s
  · have hslot (m : Nat) : (((s.keyMod n fun k => k.remask s.mask.1 s.mask.2).drawn).drawn).keySlot m =
        if m = n then (s.keySlot n).remask s.mask.1 s.mask.2 else s.keySlot m := s.keySlot_keyMod n m _
    refine ⟨rfl, fun m => ?_, fun m => ?_, fun m => ?_⟩
    all_goals
      rw [hslot]
      split
    · next hm => rw [hm]; rfl
    · rfl
    · next hm => rw [hm, KeySlot.key_remask]
    · rfl
    · next hm => rw [hm, KeySlot.h_remask]
    · rfl

theorem State.xtsUse_keyStep (s : State) : s.KeyStep s.xtsUse := (s.keyUse_keyStep 0).trans (State.keyUse_keyStep _ 1)

theorem State.xtsUse_te (s : State) : s.xtsUse.te = s.te := (State.xtsUse_keeps (m := 16388) rfl (Same.refl _ s)).te rfl

theorem State.keyUse_same (s : State) (n : Nat) : Same 16388 s (s.keyUse n) := State.keyUse_keeps rfl (Same.refl _ s)

/-! ### The stream of a handle -/

theorem State.streamBy_slot {s : State} {h : Nat} {x : Stream} (hx : s.streamBy h = some x) : x.slot = h := by
  simpa using List.find?_some hx

theorem State.streamBy_congr {s t : State} (h : t.ce.streams = s.ce.streams) (k : Nat) : t.streamBy k = s.streamBy k := by
  unfold State.streamBy
  rw [h]

theorem State.streamBy_of_ce {s t : State} (h : t.ce = s.ce) (k : Nat) : t.streamBy k = s.streamBy k :=
  State.streamBy_congr (congrArg CeSt.streams h) k

/-- A change of the streams of a handle that keeps their slot changes the one that the handle finds. -/
theorem State.streamBy_streamMod {s : State} {h : Nat} {x : Stream} (hx : s.streamBy h = some x) {f : Stream → Stream}
    (hf : ∀ y, (f y).slot = y.slot) : (s.streamMod h f).streamBy h = some (f x) := by
  have hslot : x.slot = h := State.streamBy_slot hx
  have hsame : ((fun y : Stream => y.slot == h) ∘ fun y : Stream => if y.slot = h then f y else y) = fun y : Stream => y.slot == h := by
    funext y
    by_cases hy : y.slot = h
    · simp [hy, hf]
    · simp [hy]
  calc (s.streamMod h f).streamBy h
      = (s.streamBy h).map (fun y => if y.slot = h then f y else y) := by
        unfold State.streamBy State.streamMod
        rw [List.find?_map, hsame]
    _ = some (f x) := by simp [hx, hslot]

/-- The streams of other handles do not change with those of h. -/
theorem State.streamMod_filter (s : State) (h : Nat) {f : Stream → Stream} (hf : ∀ y, (f y).slot = y.slot) :
    (s.streamMod h f).ce.streams.filter (fun y => y.slot != h) = s.ce.streams.filter (fun y => y.slot != h) := by
  show (s.ce.streams.map fun y => if y.slot = h then f y else y).filter (fun y => y.slot != h) = _
  induction s.ce.streams with
  | nil => rfl
  | cons y l ih =>
    by_cases hy : y.slot = h
    · simp [hy, hf, ih]
    · simp [hy, ih]

/-- A stream but for the tile-stage slots of its window. -/
def Stream.bare (x : Stream) : Stream := { x with tiles := [] }

/-- What does not read the tiles is the same of streams that differ in their tiles only. -/
theorem Stream.eq_of_bare {α : Type} {x y : Stream} (h : y.bare = x.bare) (φ : Stream → α) (hφ : ∀ z : Stream, φ z.bare = φ z) :
    φ y = φ x :=
  (hφ y).symm.trans ((congrArg φ h).trans (hφ x))

/-! ### The lines of a window in the tile stage (R128, R312, R320, R321) -/

theorem State.slotNext_ce {s u : State} {n : Nat} {b : Bool} (h : s.slotNext b = some (n, u)) : u.ce = s.ce :=
  (State.slotNext_keeps (m := 8192) rfl h (Same.refl _ s)).ce rfl

theorem State.tsStatus_keyStep (s : State) : s.KeyStep s.tsStatus := .of_ce (s.tsStatus_same.ce rfl)

/-- A tile of a window with a slot keeps it; one without takes the next (R128). -/
theorem State.streamTile_eq {s : State} {h k : Nat} {x : Stream} (hx : s.streamBy h = some x) :
    s.streamTile h k = if sget 0 x.tiles k ≠ 0 then some s
      else (s.slotNext false).map fun r => (State.streamMod { r.2 with
        te.slots := sset Slot.free r.2.te.slots r.1 { Slot.free with stream := some h, lru := r.2.tick.toNat } } h
          (fun y => { y with tiles := sset 0 y.tiles k r.1 })).tsStatus := by
  unfold State.streamTile
  rw [hx]
  dsimp only
  split
  · rfl
  · rcases s.slotNext false with _ | ⟨n, u⟩ <;> rfl

/-- A stream whose window takes a slot changes in its tiles only. -/
theorem State.streamTile_shows {s t : State} {h k : Nat} {x : Stream} (hx : s.streamBy h = some x) (ht : s.streamTile h k = some t) :
    ∃ y, t.streamBy h = some y ∧ y.bare = x.bare := by
  rw [State.streamTile_eq hx] at ht
  split at ht
  · obtain rfl := Option.some.inj ht
    exact ⟨x, hx, rfl⟩
  · obtain ⟨⟨n, u⟩, hnext, rfl⟩ := Option.map_eq_some_iff.mp ht
    have hce : u.ce = s.ce := State.slotNext_ce hnext
    have hu : ({ u with
        te.slots := sset Slot.free u.te.slots n { Slot.free with stream := some h, lru := u.tick.toNat } } : State).streamBy h =
          some x := (State.streamBy_of_ce hce h).trans hx
    have hmod := State.streamBy_streamMod hu (f := fun y => { y with tiles := sset 0 y.tiles k n }) fun _ => rfl
    exact ⟨_, (State.streamBy_congr (State.tsStatus_keyStep _).streams h).trans hmod, rfl⟩

theorem State.slotLine_keyStep {s t : State} (h : s.KeyStep t) (hte : t.te = s.te) (n k : Nat) : t.slotLine n k = s.slotLine n k := by
  unfold State.slotLine State.xtsIn State.slot
  rw [h.key, h.key, hte]

theorem State.streamLine_keyStep {s t : State} (h : s.KeyStep t) (hte : t.te = s.te) (x : Stream) (off : Nat) :
    t.streamLine x off = s.streamLine x off := by
  unfold State.streamLine State.slot
  rw [hte]
  exact ite_congr rfl (fun _ => rfl) (fun _ => State.slotLine_keyStep h hte _ _)

theorem State.slot_slotMod (s : State) (n : Nat) (f : Slot → Slot) : (s.slotMod n f).slot n = f (s.slot n) :=
  sget_smod_self Slot.free s.te.slots n f

/-- A slot whose line k is clean, with the ciphertext c. -/
def Slot.withClean (x : Slot) (k : Nat) (c : Line) (now : Nat) : Slot :=
  { x with st := sset 0 x.st k 1, data := sset 0 x.data k c, lru := now }

/-- Line k of slot n takes d as a clean line, encrypted under the tile-stage pair (R312). -/
def State.cleanLinePut (s : State) (n k : Nat) (d : Line) : State :=
  s.xtsUse.slotMod n (fun y => y.withClean k (s.xtsOut (slotUnit n k) d) s.tick.toNat)

theorem State.cleanLinePut_keyStep (s : State) (n k : Nat) (d : Line) : s.KeyStep (s.cleanLinePut n k d) :=
  s.xtsUse_keyStep.trans (.of_ce rfl)

/-- What was put is read back (R311, R312). -/
theorem State.cleanLinePut_shows (s : State) (n k : Nat) (d : Line) :
    ((s.cleanLinePut n k d).slot n).lineSt k = 1 ∧ (s.cleanLinePut n k d).slotLine n k = d := by
  have hslot : (s.cleanLinePut n k d).slot n = (s.xtsUse.slot n).withClean k (s.xtsOut (slotUnit n k) d) s.tick.toNat := by
    unfold State.cleanLinePut
    exact s.xtsUse.slot_slotMod n _
  have hdata : sget 0 ((s.cleanLinePut n k d).slot n).data k = s.xtsOut (slotUnit n k) d := by
    rw [hslot]
    simp [Slot.withClean]
  constructor
  · rw [hslot]
    simp [Slot.lineSt, Slot.withClean]
  · have hstep := s.cleanLinePut_keyStep n k d
    rw [State.slotLine, hdata, State.xtsIn, hstep.key, hstep.key, State.xtsOut, xtsOpen_xtsSeal]

/-- The slot of a line of a stream's window, 0 where it has none. -/
def State.lineSlot (s : State) (h off : Nat) : Nat :=
  match s.streamBy h with | some x => sget 0 x.tiles (off / 64) | none => 0

theorem State.streamPut_eq (s : State) (h off : Nat) (d : Line) : s.streamPut h off d =
    (s.streamTile h (off / 64)).map (fun u => u.cleanLinePut (u.lineSlot h off) (off % 64) d) := by
  unfold State.streamPut
  rcases s.streamTile h (off / 64) with _ | u <;> rfl

/-- A line put into a stream's window is read back, and the stream changes in its tiles only (R320, R321). -/
theorem State.streamPut_shows {s t : State} {h off : Nat} {d : Line} {x : Stream} (hx : s.streamBy h = some x)
    (ht : s.streamPut h off d = some t) : ∃ y, t.streamBy h = some y ∧ y.bare = x.bare ∧ t.streamLine y off = d := by
  rw [State.streamPut_eq] at ht
  obtain ⟨u, hu, rfl⟩ := Option.map_eq_some_iff.mp ht
  obtain ⟨y, hy, hbare⟩ := State.streamTile_shows hx hu
  have hn : u.lineSlot h off = sget 0 y.tiles (off / 64) := by rw [State.lineSlot, hy]
  obtain ⟨hst, hline⟩ := u.cleanLinePut_shows (u.lineSlot h off) (off % 64) d
  refine ⟨y, (State.streamBy_congr (u.cleanLinePut_keyStep _ _ d).streams h).trans hy, hbare, ?_⟩
  rw [State.streamLine, ← hn]
  simp [hst, hline]

/-- A line can be put where its tile has a slot or the stage has one to give (R128). -/
theorem State.streamPut_room {s : State} {h off : Nat} {x : Stream} (hx : s.streamBy h = some x) (d : Line)
    (hroom : sget 0 x.tiles (off / 64) ≠ 0 ∨ (s.slotNext false).isSome = true) : ∃ t, s.streamPut h off d = some t := by
  have htile : ∃ u, s.streamTile h (off / 64) = some u := by
    rw [State.streamTile_eq hx]
    split
    · exact ⟨_, rfl⟩
    · next hnone =>
      obtain ⟨r, hr⟩ := Option.isSome_iff_exists.mp (hroom.resolve_left hnone)
      exact ⟨_, by rw [hr]; rfl⟩
  obtain ⟨u, hu⟩ := htile
  exact ⟨_, by rw [State.streamPut_eq, hu]; rfl⟩

theorem State.streamPuts_cons (s : State) (h off : Nat) (d : Line) (l : List (Nat × Line)) :
    s.streamPuts h ((off, d) :: l) = (s.streamPut h off d).bind fun u => u.streamPuts h l := by
  have hnone (l : List (Nat × Line)) : l.foldl (fun (o : Option State) (x : Nat × Line) => o.bind (fun s => s.streamPut h x.1 x.2)) none =
      none := by
    induction l with
    | nil => rfl
    | cons a l ih => exact ih
  unfold State.streamPuts
  rw [List.foldl_cons, Option.bind_some]
  rcases s.streamPut h off d with _ | u
  · exact hnone l
  · rfl

theorem State.streamPuts_shows {l : List (Nat × Line)} {s t : State} {h : Nat} {x : Stream} (hx : s.streamBy h = some x)
    (ht : s.streamPuts h l = some t) : ∃ y, t.streamBy h = some y ∧ y.bare = x.bare := by
  induction l generalizing s x with
  | nil => exact ⟨x, Option.some.inj ht ▸ hx, rfl⟩
  | cons a l ih =>
    obtain ⟨off, d⟩ := a
    rw [State.streamPuts_cons] at ht
    obtain ⟨u, hu, hrest⟩ := Option.bind_eq_some_iff.mp ht
    obtain ⟨y, hy, hbare, -⟩ := State.streamPut_shows hx hu
    obtain ⟨z, hz, hz'⟩ := ih hy hrest
    exact ⟨z, hz, hz'.trans hbare⟩

end Sys2Proof.Machine
end

section
/-! SUPPORT. Derivations, slots, rotations, randomness and the known-answer tests of the cipher engine
(10_cipher_engine.md R300, R301, R308, R314, R315, R326). -/

set_option autoImplicit false

namespace Sys2Proof.Machine

theorem State.set_ce (s : State) (f : Fld) (v : Nat) : (s.set f v).ce = s.ce := rfl
theorem State.setBit_ce (s : State) (f : Fld) (b : Bool) : (s.setBit f b).ce = s.ce := rfl
theorem State.wrN_ce (s : State) (o v : Nat) : (s.wrN o v).ce = s.ce := rfl
theorem State.bump_ce (s : State) (o : Nat) : (s.bump o).ce = s.ce := rfl

/-! ### KEY_DERIVATION_DONE (R300, R301) -/

/-- The cipher engine but for its keys. -/
def CeSt.unkeyed (e : CeSt) : CeSt := { e with slots := [], rk0 := 0, rk1 := 0 }

theorem State.prfUse_unkeyed (s : State) (p : Option Nat) : (s.prfUse p).ce.unkeyed = s.ce.unkeyed := by
  cases p with
  | none => rfl
  | some n =>
    show (s.keyUse n).ce.unkeyed = _
    unfold State.keyUse
    split <;> rfl

theorem State.prfUse_same (s : State) (p : Option Nat) : Same 16388 s (s.prfUse p) := State.prfUse_keeps rfl (Same.refl _ s)

theorem State.keyLoad_same (s : State) (n key : Nat) : Same 16388 s (s.keyLoad n key) := State.keyLoad_keeps rfl (Same.refl _ s)

theorem State.keyWaits_of_none {s : State} (h : s.ce.waits = []) (n : Nat) : s.keyWaits n = s := by
  unfold State.keyWaits
  rw [h]
  exact congrArg (fun l => ({ s with ce.waits := l } : State)) h.symm

/-- The derivation q gives its slot the key, the others of the queue left (R301). -/
def State.keyDerived (s : State) (q : Derive) (rest : List Derive) : State :=
  (({ s with ce.derives := rest }.bump R.CE_DERIVE_CNT).prfUse q.prf).keyLoad q.slot (kdf (s.prfKey q.prf) q.purpose q.ctx)

theorem State.keyDerived_unkeyed (s : State) (q : Derive) (rest : List Derive) :
    (s.keyDerived q rest).ce.unkeyed = { s.ce.unkeyed with derives := rest } := State.prfUse_unkeyed _ q.prf

theorem State.keyDerived_same (s : State) (q : Derive) (rest : List Derive) :
    Same 16388 ({ s with ce.derives := rest }.bump R.CE_DERIVE_CNT) (s.keyDerived q rest) :=
  (State.prfUse_same _ _).trans (State.keyLoad_same _ _ _)

theorem exec_keyDerivationDone_again {q : Derive} {rest : List Derive} {s : State} (hkat : s.bit F.CE_STS.KAT_FAIL = false)
    (hdrbg : s.bit F.CE_STS.DRBG_OK = true) (hq : s.ce.derives = q :: rest) (henables : s.ce.enables = []) (hwhy : q.why = .again)
    (hwaits : s.ce.waits = []) (hreqs : s.rt.reqs = []) (hserial : s.hp.serialQ = []) :
    exec .keyDerivationDone s = .next (s.keyDerived q rest) := by
  have hce := s.keyDerived_unkeyed q rest
  have hnoEnables : (s.keyDerived q rest).ce.enables = [] := (congrArg CeSt.enables hce).trans henables
  have hnoWaits : (s.keyDerived q rest).ce.waits = [] := (congrArg CeSt.waits hce).trans hwaits
  have hnoReqs : (s.keyDerived q rest).rt.reqs = [] := (congrArg RtSt.reqs ((s.keyDerived_same q rest).rt rfl)).trans hreqs
  have hnoSerial : (s.keyDerived q rest).hp.serialQ = [] := (congrArg HpSt.serialQ ((s.keyDerived_same q rest).hp rfl)).trans hserial
  have hdone : s.keyDerivationDone = ((s.keyDerived q rest).keyWaits q.slot).pump := by
    unfold State.keyDerivationDone
    rw [if_neg (by simp [hkat, hdrbg])]
    split
    · next hnil => cases hq.symm.trans hnil
    next q' rest' hcons =>
    obtain ⟨rfl, rfl⟩ := List.cons.inj (hq.symm.trans hcons)
    extract_lets e counted loaded enabled
    have hkey : counted.prfKey q.prf = s.prfKey q.prf := by cases q.prf <;> rfl
    have hloaded : loaded = s.keyDerived q rest := by
      unfold loaded State.keyDerived
      rw [hkey]
    have henabled : enabled = loaded := by
      have hnone : loaded.ce.enables = [] := hnoEnables
      unfold enabled
      rw [hnone]
      rfl
    rw [hwhy, henabled, hloaded]
  show Host.Outcome.next s.keyDerivationDone.serPump = _
  rw [hdone, State.keyWaits_of_none hnoWaits, State.pump_of_noReqs hnoReqs, State.serPump_nil hnoSerial]

theorem exec_keyDerivationDone_shows {q : Derive} {rest : List Derive} {s : State} (hkat : s.bit F.CE_STS.KAT_FAIL = false)
    (hdrbg : s.bit F.CE_STS.DRBG_OK = true) (hq : s.ce.derives = q :: rest) (henables : s.ce.enables = []) (hwhy : q.why = .again)
    (hwaits : s.ce.waits = []) (hreqs : s.rt.reqs = []) (hserial : s.hp.serialQ = []) :
    ∃ t, exec .keyDerivationDone s = .next t ∧ t.ce.derives = rest ∧ (t.keySlot q.slot).st = 2 ∧
      (t.keySlot q.slot).key = kdf (s.prfKey q.prf) q.purpose q.ctx := by
  obtain ⟨hst, hkey, -⟩ := State.keyLoad_shows (({ s with ce.derives := rest }.bump R.CE_DERIVE_CNT).prfUse q.prf) q.slot
    (kdf_lt (s.prfKey q.prf) q.purpose q.ctx)
  exact ⟨_, exec_keyDerivationDone_again hkat hdrbg hq henables hwhy hwaits hreqs hserial,
    congrArg CeSt.derives (s.keyDerived_unkeyed q rest), hst, hkey⟩

/-! ### SLOT_FREED (R300) -/

theorem State.slotCountShow_used (s : State) :
    s.slotCountShow.rd R.CE_SLOTS_USED = BitVec.ofNat 32 (s.ce.slots.filter (fun x => x.2.st != 0)).length := by
  unfold State.slotCountShow State.maxIn
  exact (State.rd_wrN_ne _ _ (by decide)).trans (State.rd_wr_self _ _ _)

theorem exec_slotFreed_shows {slot : Fin 4096} {s : State} (hst : (s.keySlot slot).st = 3) (hrefs : s.slotRefs slot = 0) :
    ∃ t, exec (.slotFreed slot) s = .next t ∧ (t.keySlot slot).st = 0 ∧
      t.rd R.CE_SLOTS_USED = BitVec.ofNat 32 (t.ce.slots.filter (fun x => x.2.st != 0)).length := by
  refine ⟨s.keyFree slot, congrArg Host.Outcome.next (if_pos ⟨hst, hrefs⟩), ?_, State.slotCountShow_used _⟩
  exact congrArg KeySlot.st (sget_serase_self KeySlot.free s.ce.slots slot)

/-! ### ROTATION_RECORD_WRITTEN (R308) -/

/-- The registers of region n that a starting rotation sets: the slot that the region uses, its label and ROT_SEQ. -/
def State.rotShown (t : State) (n slot label rot : Nat) : Prop :=
  t.get ⟨R.CE_RG_SLOT n, 0, 12⟩ = slot ∧ t.rd (R.CE_RG_LBL0 n) = BitVec.ofNat 32 label ∧
    t.rd (R.CE_RG_ROTSEQ_LO n) = BitVec.ofNat 32 rot

/-- The new key takes effect, the old slot kept beside it (R308). -/
def State.rotated (s : State) (n slot rot : Nat) : State :=
  let t := ({ s with ce.rotations := s.ce.rotations.filter (fun (x : Nat × Nat × Nat) => x.1 != n) }.setLabel n
    (s.keySlot slot).label).setRgSlot n slot true
  let t := (t.set ⟨R.CE_RG_SLOT n, 12, 12⟩ (s.num (R.CE_RG_SLOT n) % 4096)).setBit (F.CE_RG_SLOT.ROTATING n) true
  ((t.wrN (R.CE_RG_ROTSEQ_LO n) rot).wrN (R.CE_RG_ROTSEQ_HI n) (rot / 2 ^ 32 % 65536)).wrN (R.CE_RG_ROT_PCT n) 0

/-- A rotation at its end: the old slot is released and forgotten (R308). -/
def State.rotFinished (s : State) (n : Nat) : State :=
  ((((s.keyRelease (s.num (R.CE_RG_SLOT n) / 4096 % 4096)).set ⟨R.CE_RG_SLOT n, 12, 12⟩ 0).setBit (F.CE_RG_SLOT.ROTATING n) false).setBit
    (F.CE_RG_SLOT.SUSPECT n) false).set ⟨R.CE_RG_ROT_PCT n, 0, 7⟩ 100

/-- The check of a rotation does nothing, shows its progress, or ends it. -/
theorem State.rotationEnd_cases (s : State) (n : Nat) : s.rotationEnd n = s ∨
    (∃ pct, s.rotationEnd n = s.set ⟨R.CE_RG_ROT_PCT n, 0, 7⟩ pct) ∨
    ∃ epoch, s.rotationEnd n = ((s.rotFinished n).rotSave n 0).roll 0x0800 0 6 1 n epoch := by
  unfold State.rotationEnd
  split
  · extract_lets rot below flying w released cleared shown lbl all
    split
    · exact .inr (.inr ⟨_, rfl⟩)
    · exact .inr (.inl ⟨_, rfl⟩)
  · exact .inl rfl

theorem State.keyRelease_rotations (s : State) (k : Nat) : (s.keyRelease k).ce.rotations = s.ce.rotations := by
  unfold State.keyRelease
  split <;> rfl

theorem State.keyRelease_rd (s : State) (k o : Nat) : (s.keyRelease k).rd o = s.rd o := by
  unfold State.keyRelease
  split <;> rfl

theorem State.rotFinished_rotations (s : State) (n : Nat) : (s.rotFinished n).ce.rotations = s.ce.rotations := by
  rw [State.rotFinished, State.set_ce, State.setBit_ce, State.setBit_ce, State.set_ce, State.keyRelease_rotations]

theorem rotSeq_ne_slot (n : Nat) : R.CE_RG_ROTSEQ_LO n ≠ R.CE_RG_SLOT n := by unfold R.CE_RG_ROTSEQ_LO R.CE_RG_SLOT; omega
theorem rotSeq_ne_pct (n : Nat) : R.CE_RG_ROTSEQ_LO n ≠ R.CE_RG_ROT_PCT n := by unfold R.CE_RG_ROTSEQ_LO R.CE_RG_ROT_PCT; omega
theorem lbl0_ne_slot (n : Nat) : R.CE_RG_LBL0 n ≠ R.CE_RG_SLOT n := by unfold R.CE_RG_LBL0 R.CE_RG_SLOT; omega
theorem lbl0_ne_pct (n : Nat) : R.CE_RG_LBL0 n ≠ R.CE_RG_ROT_PCT n := by unfold R.CE_RG_LBL0 R.CE_RG_ROT_PCT; omega
theorem rgSlot_ne_pct (n : Nat) : R.CE_RG_SLOT n ≠ R.CE_RG_ROT_PCT n := by unfold R.CE_RG_SLOT R.CE_RG_ROT_PCT; omega

/-- t shows of region n's rotation what s shows: the slot in use, the label's low word and ROT_SEQ. -/
def State.rotAs (t s : State) (n : Nat) : Prop :=
  t.get ⟨R.CE_RG_SLOT n, 0, 12⟩ = s.get ⟨R.CE_RG_SLOT n, 0, 12⟩ ∧ t.rd (R.CE_RG_LBL0 n) = s.rd (R.CE_RG_LBL0 n) ∧
    t.rd (R.CE_RG_ROTSEQ_LO n) = s.rd (R.CE_RG_ROTSEQ_LO n)

theorem State.rotAs.of_page {s t : State} (h : t.regionPageIs s) (n : Nat) : t.rotAs s n := by
  have hin : regionReg (R.CE_RG_SLOT n) ∧ regionReg (R.CE_RG_ROTSEQ_LO n) := by
    unfold regionReg R.CE_RG_SLOT R.CE_RG_ROTSEQ_LO
    omega
  exact ⟨h.get hin.1, h _ (regionReg_lbl0 n), h _ hin.2⟩

theorem State.rotAs.trans {s t u : State} {n : Nat} (h : t.rotAs s n) (k : u.rotAs t n) : u.rotAs s n :=
  ⟨k.1.trans h.1, k.2.1.trans h.2.1, k.2.2.trans h.2.2⟩

theorem State.rotAs.set {s : State} {n : Nat} {f : Fld} (v : Nat) (hoff : f.off = R.CE_RG_SLOT n ∧ 12 ≤ f.lo ∨ f.off = R.CE_RG_ROT_PCT n)
    (hw : f.lo + f.width ≤ 32) : (s.set f v).rotAs s n := by
  refine ⟨s.get_set_ne _ _ v hw ?_, s.rd_set_ne _ v ?_, s.rd_set_ne _ v ?_⟩
  · rcases hoff with ⟨-, hlo⟩ | hoff
    · exact .inr (.inl (by simpa using hlo))
    · exact .inl (by rw [hoff]; exact rgSlot_ne_pct n)
  all_goals rcases hoff with ⟨hoff, -⟩ | hoff
  all_goals rw [hoff]
  · exact lbl0_ne_slot n
  · exact lbl0_ne_pct n
  · exact rotSeq_ne_slot n
  · exact rotSeq_ne_pct n

theorem State.rotFinished_rotAs (s : State) (n : Nat) : (s.rotFinished n).rotAs s n := by
  have hreleased : (s.keyRelease (s.num (R.CE_RG_SLOT n) / 4096 % 4096)).rotAs s n := .of_page (fun o _ => s.keyRelease_rd _ o) n
  unfold State.rotFinished
  refine (((hreleased.trans (.set 0 ?_ ?_)).trans (.set _ ?_ ?_)).trans (.set _ ?_ ?_)).trans (.set 100 ?_ ?_)
  all_goals simp

theorem State.rotationEnd_shows (s : State) (n : Nat) :
    (s.rotationEnd n).rotAs s n ∧ (s.rotationEnd n).ce.rotations = s.ce.rotations := by
  rcases s.rotationEnd_cases n with h | ⟨pct, h⟩ | ⟨epoch, h⟩
  · rw [h]
    exact ⟨.of_page (.refl s) n, rfl⟩
  · rw [h]
    exact ⟨.set pct (.inr rfl) (by simp), rfl⟩
  · rw [h]
    have hsaved := (s.rotFinished n).rotSave_same n 0
    have hrolled := State.roll_same ((s.rotFinished n).rotSave n 0) 0x0800 0 6 1 n epoch
    refine ⟨((s.rotFinished_rotAs n).trans (.of_page (hsaved.regionPageIs rfl) n)).trans (.of_page (hrolled.regionPageIs rfl) n), ?_⟩
    rw [hrolled.ce rfl, hsaved.ce rfl, s.rotFinished_rotations]

theorem State.rotationEnd_same (s : State) (n : Nat) : Same 281479338803978 s (s.rotationEnd n) :=
  State.rotationEnd_keeps rfl (Same.refl _ s)

theorem State.setLabel_lbl0 (s : State) (n l : Nat) : (s.setLabel n l).rd (R.CE_RG_LBL0 n) = BitVec.ofNat 32 l := by
  have hne : R.CE_RG_LBL0 n ≠ R.CE_RG_LBL1 n ∧ R.CE_RG_LBL0 n ≠ R.CE_RG_LBL2 n ∧ R.CE_RG_LBL0 n ≠ R.CE_RG_LBL3 n := by
    unfold R.CE_RG_LBL0 R.CE_RG_LBL1 R.CE_RG_LBL2 R.CE_RG_LBL3
    omega
  obtain ⟨h1, h2, h3⟩ := hne
  unfold State.setLabel
  rw [State.rd_wrN_ne _ _ h3, State.rd_wrN_ne _ _ h2, State.rd_wrN_ne _ _ h1]
  exact State.rd_wr_self _ _ _

theorem State.rotated_shows (s : State) (n : Nat) {slot : Nat} (hslot : slot < 4096) (rot : Nat) :
    (s.rotated n slot rot).rotShown n slot (s.keySlot slot).label rot := by
  have hseq : R.CE_RG_ROTSEQ_LO n ≠ R.CE_RG_ROTSEQ_HI n ∧ R.CE_RG_LBL0 n ≠ R.CE_RG_ROTSEQ_HI n ∧ R.CE_RG_LBL0 n ≠ R.CE_RG_ROTSEQ_LO n ∧
      R.CE_RG_SLOT n ≠ R.CE_RG_ROTSEQ_HI n := by
    unfold R.CE_RG_ROTSEQ_LO R.CE_RG_ROTSEQ_HI R.CE_RG_LBL0 R.CE_RG_SLOT
    omega
  obtain ⟨hhi, hlblHi, hlblLo, hslotHi⟩ := hseq
  unfold State.rotated State.setRgSlot
  refine ⟨?_, ?_, ?_⟩
  · simp (disch := simp [rgSlot_ne_pct, hslotHi, (rotSeq_ne_slot n).symm]) only [State.get_wrN_ne, State.setBit, State.get_set_ne,
      State.get_set_self]
    exact Nat.mod_eq_of_lt hslot
  · simp (disch := simp [lbl0_ne_pct, lbl0_ne_slot, hlblHi, hlblLo]) only [State.rd_wrN_ne, State.rd_setBit_ne, State.rd_set_ne,
      State.setLabel_lbl0]
  · rw [State.rd_wrN_ne _ _ (rotSeq_ne_pct n), State.rd_wrN_ne _ _ hhi]
    exact State.rd_wr_self _ _ _

theorem State.rotated_same (s : State) (n slot rot : Nat) : Same 281474976710664
    { s with ce.rotations := s.ce.rotations.filter (fun x => x.1 != n) } (s.rotated n slot rot) := by
  have hslot : RegOk 281474976710664 (R.CE_RG_SLOT n) := R.CE_RG_SLOT_ok rfl
  have htaken := State.setRgSlot_keeps (m := 281474976710664) (a1 := n) (a2 := slot) (a3 := true) rfl
    (State.setLabel_keeps (a1 := n) (a2 := (s.keySlot slot).label) rfl
      (Same.refl _ { s with ce.rotations := s.ce.rotations.filter (fun x => x.1 != n) }))
  have hrotating := State.setBit_keeps (f := F.CE_RG_SLOT.ROTATING n) (b := true) rfl hslot
    (State.set_keeps (f := ⟨R.CE_RG_SLOT n, 12, 12⟩) (v := s.num (R.CE_RG_SLOT n) % 4096) rfl hslot htaken)
  exact State.wrN_keeps rfl (R.CE_RG_ROT_PCT_ok rfl) (State.wrN_keeps rfl (R.CE_RG_ROTSEQ_HI_ok rfl)
    (State.wrN_keeps rfl (R.CE_RG_ROTSEQ_LO_ok rfl) hrotating))

theorem exec_rotationRecordWritten_shows {n : Fin 16} {slot rot : Nat} {s : State} (hreqs : s.rt.reqs = []) (hprogs : s.te.progs = [])
    (hflush : s.te.flushWait = false) (hrot : s.ce.rotations = [(n.val, slot, rot)]) (hslot : slot < 4096) :
    ∃ t, exec (.rotationRecordWritten n) s = .next t ∧ t.ce.rotations = [] ∧ t.get ⟨R.CE_RG_SLOT n, 0, 12⟩ = slot ∧
      t.rd (R.CE_RG_LBL0 n) = BitVec.ofNat 32 (s.keySlot slot).label ∧ t.rd (R.CE_RG_ROTSEQ_LO n) = BitVec.ofNat 32 rot := by
  have hrotated := s.rotated_same n slot rot
  have hend := (s.rotated n slot rot).rotationEnd_same n
  obtain ⟨⟨hgslot, hlbl, hseq⟩, hrots⟩ := (s.rotated n slot rot).rotationEnd_shows n
  obtain ⟨hgslot', hlbl', hseq'⟩ := s.rotated_shows n hslot rot
  have hexec : exec (.rotationRecordWritten n) s = .next (((s.rotated n slot rot).rotationEnd n).progNumbers).pump := by
    have hfind : s.ce.rotations.find? (fun x => x.1 == n.val) = some (n.val, slot, rot) := by simp [hrot]
    show execRotationRecordWritten n s = _
    unfold execRotationRecordWritten
    extract_lets k
    split
    · next hnone => cases hfind.symm.trans hnone
    · next hsome =>
      cases hfind.symm.trans hsome
      rfl
  refine ⟨(s.rotated n slot rot).rotationEnd n, ?_, ?_, hgslot.trans hgslot', hlbl.trans hlbl', hseq.trans hseq'⟩
  · rw [hexec, State.progNumbers_of_none, State.pump_of_noReqs]
    · rw [hend.rt rfl, hrotated.rt rfl, hreqs]
    · rw [hend.te rfl, hrotated.te rfl, hprogs]
    · rw [hend.te rfl, hrotated.te rfl, hflush]
  · rw [hrots, hrotated.ce rfl]
    simp [hrot]

/-! ### Entropy and the DRBG (R314, R315) -/

theorem exec_entropyHealthTest_passed {s : State} (hlive : s.ce.entFailed = false) :
    exec (.entropyHealthTest true) s = .next { s with ce.entFails := 0, ce.entPasses := s.ce.entPasses + 1 } :=
  if_neg (by simp [hlive])

/-- A failed window discarded and counted (R314). -/
def State.entropyMissed (s : State) : State :=
  { s.bump R.CE_ENT_FAIL with ce.entFails := s.ce.entFails + 1, ce.entPasses := 0 }

theorem exec_entropyHealthTest_missed {s : State} (hlive : s.ce.entFailed = false) :
    exec (.entropyHealthTest false) s = .next (if 3 ≤ s.ce.entFails + 1 then
      ({ s.entropyMissed with ce.entFailed := true }.setBit F.CE_STS.ENT_DEGRADED true).raise 123 2 Kind.LIMIT
    else s.entropyMissed) := if_neg (by simp [hlive])

/-- The third failed window in a row marks the source failed: ENT_DEGRADED is set and the fault of source 123 is seen. -/
theorem exec_entropyHealthTest_fails {s : State} (hlive : s.ce.entFailed = false) (hfails : 2 ≤ s.ce.entFails) (hup : s.coreUp = true)
    (hwire : (s.fcSrc 123).wire = false) : ∃ t, exec (.entropyHealthTest false) s = .next t ∧ t.ce.entFailed = true ∧
      t.bit F.CE_STS.ENT_DEGRADED = true ∧ t.fltSeen 123 Kind.LIMIT = true := by
  have hraise := State.raise_same ({ s.entropyMissed with ce.entFailed := true }.setBit F.CE_STS.ENT_DEGRADED true) 123 2 Kind.LIMIT
  refine ⟨_, (exec_entropyHealthTest_missed hlive).trans (congrArg _ (if_pos (by omega))), ?_, ?_, ?_⟩
  · rw [hraise.ce rfl]
    rfl
  · exact (hraise.bit rfl rfl).trans (State.bit_setBit_self _ _ _ (by decide) (by decide))
  · exact State.raise_seen _ 123 2 Kind.LIMIT hup hwire (by decide) (by decide)

/-- The sixteenth pass in a row ends the failure. -/
theorem exec_entropyRetry_recovers {s : State} (hfailed : s.ce.entFailed = true) (hpasses : 15 ≤ s.ce.entPasses) :
    ∃ t, exec (.entropyRetry true) s = .next t ∧ t.ce.entFailed = false ∧ t.regsAre (s.setBit F.CE_STS.ENT_DEGRADED false) := by
  have hexec : exec (.entropyRetry true) s = .next (State.setBit { s with
      ce.entFailed := false, ce.entFails := 0, ce.entPasses := s.ce.entPasses + 1 } F.CE_STS.ENT_DEGRADED false) := by
    show execEntropyRetry true s = _
    unfold execEntropyRetry
    rw [if_neg (by simp [hfailed]), if_pos rfl]
    exact congrArg Host.Outcome.next (if_pos (show 16 ≤ s.ce.entPasses + 1 by omega))
  exact ⟨_, hexec, rfl, State.regsAre_refl _⟩

theorem exec_drbgReseed_live {s : State} (hok : s.bit F.CE_STS.DRBG_OK = true) (hlive : s.ce.entFailed = false) :
    exec .drbgReseed s = .next ({ s with ce.drbgUse := 0, ce.drbg := s.ce.drbg + 1 }.bump R.CE_RESEED_CNT) := by
  show execDrbgReseed s = _
  unfold execDrbgReseed
  rw [if_neg (by simp [hok]), if_neg (by simp [hlive])]

theorem exec_drbgReseed_stops {s : State} (hok : s.bit F.CE_STS.DRBG_OK = true) (hfailed : s.ce.entFailed = true) (hup : s.coreUp = true)
    (hwire : (s.fcSrc 124).wire = false) : ∃ t, exec .drbgReseed s = .next t ∧ t.bit F.CE_STS.DRBG_OK = false ∧
      t.fltSeen 124 Kind.STALL = true := by
  have hexec : exec .drbgReseed s = .next ((s.setBit F.CE_STS.DRBG_OK false).raise 124 3 Kind.STALL) := by
    show execDrbgReseed s = _
    unfold execDrbgReseed
    rw [if_neg (by simp [hok]), if_pos hfailed]
  have hraise := State.raise_same (s.setBit F.CE_STS.DRBG_OK false) 124 3 Kind.STALL
  exact ⟨_, hexec, (hraise.bit rfl rfl).trans (State.bit_setBit_self _ _ _ (by decide) (by decide)),
    State.raise_seen _ 124 3 Kind.STALL hup hwire (by decide) (by decide)⟩

/-! ### KAT_RUN (R326) -/

/-- The known-answer tests asked for: a job of the cipher engine (R326). -/
def State.katStarted (s : State) : State :=
  { (s.setBit F.CE_CTL.KAT_RUN true).setBit F.CE_STS.KAT_BUSY true with
    ce.jobs := s.ce.jobs ++ [(s.ce.nextJob, .kat)], ce.nextJob := s.ce.nextJob + 1 }

theorem State.katStarted_regs (s : State) :
    s.katStarted.regsAre ((s.setBit F.CE_CTL.KAT_RUN true).setBit F.CE_STS.KAT_BUSY true) := State.regsAre_of_eq rfl

theorem State.katStarted_jobs (s : State) : s.katStarted.ce.jobs = s.ce.jobs ++ [(s.ce.nextJob, .kat)] := rfl

theorem exec_katRun_shows {path : Path} {s : State} (hmgr : s.isManager path = true) (hlcs : s.get F.CE_STS.LCS = 0)
    (hidle : s.bit F.CE_STS.KAT_BUSY = false) : ∃ t, exec (.katRun path) s = .next t ∧
      t.regsAre ((s.setBit F.CE_CTL.KAT_RUN true).setBit F.CE_STS.KAT_BUSY true) ∧ t.ce.jobs = s.ce.jobs ++ [(s.ce.nextJob, .kat)] := by
  have hacc : (s.regAcc 6).regsAre s := s.regAcc_book 6
  have htaken : ((s.regAcc 6).isManager path && (s.regAcc 6).get F.CE_STS.LCS == 0 && !(s.regAcc 6).bit F.CE_STS.KAT_BUSY) = true := by
    rw [State.regAcc_isManager, hacc.get rfl, hacc.bit rfl, hmgr, hlcs, hidle]
    rfl
  have hexec : exec (.katRun path) s = .next (s.regAcc 6).katStarted := by
    show execKatRun path s = _
    unfold execKatRun
    exact if_pos htaken
  have hce : (s.regAcc 6).ce = s.ce := by simp
  refine ⟨_, hexec, (State.katStarted_regs _).trans (State.regsAre_setBit rfl (State.regsAre_setBit rfl hacc)), ?_⟩
  rw [State.katStarted_jobs, hce]

end Sys2Proof.Machine
end

section
/-! SUPPORT. Sealed streams: their end, the chunks sent out and the writes to an import window (10_cipher_engine.md R317–R323). -/

set_option autoImplicit false

namespace Sys2Proof.Machine

/-! ### Result packets and the end of a stream (R323) -/

theorem State.chunkPacket_same (s : State) (w chunk res : Nat) (final : Bool) : Same 17246978058 s (s.chunkPacket w chunk res final) :=
  State.chunkPacket_keeps rfl (Same.refl _ s)

theorem State.chunkPacket_grows (s : State) (w chunk res : Nat) (final : Bool) : OutGrows s (s.chunkPacket w chunk res final) := by
  unfold State.chunkPacket
  split
  · exact (State.emit_grows _ _).after rfl
  · exact (State.emit_grows _ _).after rfl

/-- The packet of a chunk without a fault names the chunk, its window and whether it is the last (R323). -/
theorem State.chunkPacket_ok (s : State) (w : Fin 16) (chunk : Nat) (final : Bool) :
    Output.other 6 [chunk, w.val + final.toNat * 8192] ∈ (s.chunkPacket w chunk 0 final).out := by
  have hw : w.val % 256 = w.val := Nat.mod_eq_of_lt (by omega)
  have hsent := (s.bump R.CE_CHUNK_OK).emit_mem
    (.other 6 [chunk, w % 256 + 0 % 16 * 256 + (if 0 = 1 then 4096 else 0) + final.toNat * 8192])
  simpa [State.chunkPacket, hw] using hsent

/-- Freeing tiles of a window leaves the streams of other handles. -/
theorem State.streamFree_filter (s : State) (h : Nat) (f : Nat → Bool) :
    (s.streamFree h f).ce.streams.filter (fun y => y.slot != h) = s.ce.streams.filter (fun y => y.slot != h) := by
  unfold State.streamFree
  split
  · rfl
  · extract_lets gone freed
    have hfreed : freed.ce = s.ce :=
      foldl_eq State.ce (f := fun t (y : Nat × Nat) => { t with te.slots := serase t.te.slots y.2 }) (fun _ _ => rfl) gone s
    have hmod := freed.streamMod_filter h (f := fun y => { y with tiles := y.tiles.filter (fun (z : Nat × Nat) => !f z.1) }) fun _ => rfl
    rw [(State.tsStatus_same _).ce rfl, hmod, hfreed]

theorem State.keyRelease_streams (s : State) (n : Nat) : (s.keyRelease n).ce.streams = s.ce.streams := by
  unfold State.keyRelease
  split <;> rfl

/-- A stream that ends leaves the others (R323). -/
theorem State.streamEnd_streams {s : State} {h : Nat} {x : Stream} (hx : s.streamBy h = some x) (res : Nat) :
    (s.streamEnd h res).ce.streams = s.ce.streams.filter (fun y => y.slot != h) := by
  have hroll (t : State) (last : Nat) : (if res = 0 then t else t.roll 0x0801 0 6 x.window res last).ce = t.ce := by
    split
    · rfl
    · exact (State.roll_same _ _ _ _ _ _ _).ce rfl
  have hdone (t : State) (last : Nat) : (if x.st = 2 ∨ x.st = 3 then t else if res = 0 then t.bgDone x.port .success 0 [0, last]
      else t.bgDone x.port .aborted (Ext.STREAM + 256 * res) [res, last]).ce = t.ce := by
    split
    · rfl
    · split <;> exact (State.bgDone_same _ _ _ _ _).ce rfl
  unfold State.streamEnd
  rw [hx]
  dsimp only
  rw [hroll, hdone, State.keyRelease_streams, State.setBit_ce]
  exact s.streamFree_filter h _

/-! ### EXPORT_CHUNK_PRODUCE (R317, R318, R320) -/

/-- The stage after the lines of the next chunk to send out are read and the key of its stream is used, where it has the room. -/
def State.exportPut (s : State) (x : Stream) : Option State :=
  ((s.linesRead (x.first + x.chunk * 16384) (s.exportLines x).length).keyUse x.slot).streamPuts x.slot (s.frameLinesOf x (s.exportLines x))

/-- A chunk produced: the stream goes on to the next, and its packet goes out. -/
def State.chunkProduced (s : State) (w : Fin 16) (x : Stream) : State :=
  (s.streamMod x.slot (fun y => { y with chunk := y.chunk + 1, unread := y.unread + 1, lastOk := some x.chunk })).chunkPacket w x.chunk 0
    (decide (x.count ≤ x.chunk * 16384 + 16384))

section
variable {w : Fin 16} {x : Stream} {s : State} (hof : s.streamOf w = some x) (hx : s.streamBy x.slot = some x)
  (hdue : s.exportDue x = true)
include hof hdue

theorem exec_exportChunkProduce_full (hput : s.exportPut x = none) : exec (.exportChunkProduce w) s = .next s := by
  show execExportChunkProduce w s = _
  unfold execExportChunkProduce
  rw [hof]
  dsimp only
  rw [if_neg (by simp [hdue])]
  split
  · rfl
  · next hsome => cases hput.symm.trans hsome

theorem exec_exportChunkProduce_put {u : State} (hput : s.exportPut x = some u) :
    exec (.exportChunkProduce w) s = .next (u.chunkProduced w x) := by
  show execExportChunkProduce w s = _
  unfold execExportChunkProduce
  rw [hof]
  dsimp only
  rw [if_neg (by simp [hdue])]
  split
  · next hnone => cases hput.symm.trans hnone
  · next hsome =>
    cases hput.symm.trans hsome
    rfl

omit hof hdue in
include hx in
theorem State.exportPut_stream {u : State} (hput : s.exportPut x = some u) : ∃ y, u.streamBy x.slot = some y ∧ y.bare = x.bare := by
  have hread : (s.linesRead (x.first + x.chunk * 16384) (s.exportLines x).length).ce = s.ce :=
    (State.linesRead_keeps (m := 17592253153288) rfl (Same.refl _ s)).ce rfl
  have hused := (State.keyUse_keyStep (s.linesRead (x.first + x.chunk * 16384) (s.exportLines x).length) x.slot).streams
  exact State.streamPuts_shows ((State.streamBy_congr (hused.trans (congrArg CeSt.streams hread)) _).trans hx) hput

omit hof hx hdue in
/-- What the production of a chunk leaves in the stage, sends and changes in the stream. -/
theorem State.chunkProduced_shows {u : State} {y : Stream} (hy : u.streamBy x.slot = some y) (hbare : y.bare = x.bare) :
    (u.chunkProduced w x).te = u.te ∧
      Output.other 6 [x.chunk, w.val + (decide (x.count ≤ x.chunk * 16384 + 16384)).toNat * 8192] ∈ (u.chunkProduced w x).out ∧
      ∃ z, (u.chunkProduced w x).streamBy x.slot = some z ∧ z.chunk = x.chunk + 1 ∧ z.unread = x.unread + 1 ∧
        z.lastOk = some x.chunk := by
  have hchunk : y.chunk = x.chunk := Stream.eq_of_bare hbare Stream.chunk fun _ => rfl
  have hunread : y.unread = x.unread := Stream.eq_of_bare hbare Stream.unread fun _ => rfl
  have hmod := State.streamBy_streamMod hy
    (f := fun y => { y with chunk := y.chunk + 1, unread := y.unread + 1, lastOk := some x.chunk }) fun _ => rfl
  have hsent := State.chunkPacket_same (u.streamMod x.slot fun y =>
    { y with chunk := y.chunk + 1, unread := y.unread + 1, lastOk := some x.chunk }) w x.chunk 0
    (decide (x.count ≤ x.chunk * 16384 + 16384))
  refine ⟨hsent.te rfl, State.chunkPacket_ok _ w _ _, _, (State.streamBy_of_ce (hsent.ce rfl) _).trans hmod, ?_, ?_, rfl⟩
  · exact congrArg (· + 1) hchunk
  · exact congrArg (· + 1) hunread

end

end Sys2Proof.Machine
end

section
/-! SUPPORT. The writes of a host to an import window (10_cipher_engine.md R320, R321, Tables 10.7, 10.8). -/

set_option autoImplicit false

namespace Sys2Proof.Machine

/-! ### A write of a host is answered -/

theorem State.respond_hostWrite_eq (s : State) {r : Req} {p : Fin 8} {g : Nat} (hsrc : r.src = .host p g) (hkind : r.kind ≠ .read)
    (d : Line) (poison np : Bool) : s.respond r d poison np =
      (((s.reqDel r.id).emit (.memDone r.src)).measure r (r.stage == Stage.forward)).creditBack r := by
  simp only [State.respond, hsrc, beq_eq_false_iff_ne.mpr hkind, Bool.false_eq_true, ↓reduceIte]

/-- A write is completed to its host, and the request is over. -/
theorem State.respond_hostWrite_shows (s : State) {r : Req} {p : Fin 8} {g : Nat} (hsrc : r.src = .host p g) (hkind : r.kind ≠ .read)
    (d : Line) (poison np : Bool) :
    Output.memDone r.src ∈ (s.respond r d poison np).out ∧
      (s.respond r d poison np).rt.reqs = s.rt.reqs.filter (fun x => x.id != r.id) := by
  rw [State.respond_hostWrite_eq s hsrc hkind]
  have hsent : Output.memDone r.src ∈ ((s.reqDel r.id).emit (.memDone r.src)).out := State.emit_mem _ _
  have hrt : ((s.reqDel r.id).emit (.memDone r.src)).rt = (s.reqDel r.id).rt := by simp
  generalize (s.reqDel r.id).emit (.memDone r.src) = sent at hsent hrt ⊢
  obtain ⟨hout, hreqs⟩ := State.creditBack_host_shows (s := sent.measure r (r.stage == Stage.forward)) hsrc
  have hmeasured : Same 8796176909838 sent (sent.measure r (r.stage == Stage.forward)) := State.measure_keeps rfl (Same.refl _ sent)
  constructor
  · rw [hout]
    exact sent.measure_grows r _ hsent
  · rw [hreqs, hmeasured.rt rfl, hrt]
    rfl

/-- A write that is taken past the router is completed; no request is added, and the stage and the cipher engine stay. -/
theorem State.dropWrite_shows {s : State} (hreqs : s.rt.reqs = []) (p : Fin 8) (g line : Nat) :
    Output.memDone (.host p g) ∈ (s.dropWrite (.host p g) line []).out ∧ (s.dropWrite (.host p g) line []).rt.reqs = [] ∧
      (s.dropWrite (.host p g) line []).ce = s.ce ∧ (s.dropWrite (.host p g) line []).te = s.te := by
  have hsame : Same 9895722192398 s (s.dropWrite (.host p g) line []) := State.dropWrite_keeps rfl (Same.refl _ s)
  obtain ⟨hdone, hleft⟩ := s.respond_hostWrite_shows (r := { s.quickReq (.host p g) line (.write 0) 3 with excs := [] })
    (p := p) (g := g) rfl (by simp [State.quickReq, Req.new]) 0 false true
  exact ⟨hdone, hleft.trans (by simp [hreqs]), hsame.ce rfl, hsame.te rfl⟩

/-! ### A write is taken from a port -/

/-- A write of a port takes a credit and is counted (R73, Table 12.11). -/
def State.writeTaken (s : State) (port : Fin 8) : State :=
  { (s.spend port true).bump (R.HP_WR_CNT port) with hp.bwWr := smod 0 s.hp.bwWr port.val (fun n => n + 64) }

theorem State.writeTaken_same (s : State) (port : Fin 8) : Same 1099511662600 s (s.writeTaken port) :=
  upd_hp rfl (State.bump_keeps rfl (R.HP_WR_CNT_ok rfl) (State.spend_keeps rfl (Same.refl _ s)))

theorem State.setBit_rt (s : State) (f : Fld) (b : Bool) : (s.setBit f b).rt = s.rt := rfl

theorem State.writeTaken_rt (s : State) (port : Fin 8) :
    (s.writeTaken port).rt.reqs = s.rt.reqs ∧ (s.writeTaken port).guardG = s.guardG := by
  have hset := s.setBit_rt (F.HP_STS.GPF_HELD port) false
  unfold State.writeTaken State.spend State.grant State.guardG
  generalize s.setBit (F.HP_STS.GPF_HELD port) false = cleared at hset ⊢
  rw [← hset]
  exact ⟨rfl, rfl⟩

theorem State.regionPageIs.frames {s t : State} (h : t.regionPageIs s) (n : Nat) : t.frames n = s.frames n := by
  unfold State.frames State.rgLines
  rw [h.num (regionReg_size n)]

/-- Whether a slot can be given depends on the slots, their number and the guard (R128). -/
theorem State.slotNext_isSome_congr {s t : State} (hte : t.te = s.te) (hcnt : t.slotCnt = s.slotCnt) (hguard : t.guardG = s.guardG) :
    (t.slotNext false).isSome = (s.slotNext false).isSome := by
  have hclean : t.slotClean = s.slotClean := by unfold State.slotClean; rw [hte]
  have hlowest : t.slotLowest = s.slotLowest := by unfold State.slotLowest; rw [hte, hcnt]
  unfold State.slotNext
  rw [hte, hcnt, hguard, hclean, hlowest]
  dsimp only
  split
  · simp
  · cases s.slotClean <;> rfl

theorem State.streamOf_congr {s t : State} (h : t.ce = s.ce) (w : Nat) : t.streamOf w = s.streamOf w := by
  unfold State.streamOf
  rw [h]

theorem State.windowTakes_congr {s t : State} (hte : t.te = s.te) (hce : t.ce = s.ce) (hpage : t.regionPageIs s)
    (hcnt : t.slotCnt = s.slotCnt) (hguard : t.guardG = s.guardG) (w off : Nat) : t.windowTakes w off = s.windowTakes w off := by
  unfold State.windowTakes
  rw [State.streamOf_congr hce, hpage.frames]
  cases s.streamOf w with
  | none => rfl
  | some x => dsimp only; rw [State.slotNext_isSome_congr hte hcnt hguard]

theorem State.slotCnt_congr {s t : State} (h : t.regsAre s) : t.slotCnt = s.slotCnt := h.num rfl

theorem State.writeTaken_slotCnt (s : State) (port : Fin 8) : (s.writeTaken port).slotCnt = s.slotCnt :=
  congrArg BitVec.toNat ((s.writeTaken_same port).own R.TS_SLOT_CNT rfl rfl)

/-- An active import takes a line where its tile has a slot or the stage has one to give (R128, R321). -/
theorem State.windowTakes_room {s : State} {w off : Nat} {x : Stream} (hof : s.streamOf w = some x) (hdir : x.dir = 1) (hst : x.st = 1)
    (hoff : off < s.frames w * frameLines) (hline : off % frameLines ≠ 16384) (htakes : s.windowTakes w off = true) :
    sget 0 x.tiles (off / 64) ≠ 0 ∨ (s.slotNext false).isSome = true := by
  rw [State.windowTakes, hof] at htakes
  simp only [hdir, hst, hoff, hline, beq_self_eq_true, decide_true, Bool.and_self, Bool.not_true, Bool.false_or, Bool.and_eq_true,
    Bool.or_eq_true, bne_iff_ne, beq_iff_eq, or_false] at htakes
  exact htakes.2

/-! ### A line of a chunk (R321) -/

section
variable {u : State} {x : Stream} {off : Nat} {d : Line}

/-- A ciphertext line is decrypted into the stage and noted as arrived. -/
theorem State.importLine_shows (hx : u.streamBy x.slot = some x) (hnew : x.seen.contains off = false) (hline : off % frameLines < 16384)
    (hroom : sget 0 x.tiles (off / 64) ≠ 0 ∨ (u.slotNext false).isSome = true) :
    ∃ y, (u.importLine x off d true).streamBy x.slot = some y ∧ y.seen = setIns off x.seen ∧
      (u.importLine x off d true).streamLine y off = d ^^^ gcmStream (u.keySlot x.slot).key
        (chunkIv (x.frameChunk (u.frames x.window) (off / frameLines))) (off % frameLines) := by
  have hused := u.keyUse_same x.slot
  have hxUsed : (u.keyUse x.slot).streamBy x.slot = some x := (State.streamBy_congr (u.keyUse_keyStep x.slot).streams _).trans hx
  have hroomUsed : sget 0 x.tiles (off / 64) ≠ 0 ∨ ((u.keyUse x.slot).slotNext false).isSome = true := by
    rw [State.slotNext_isSome_congr (hused.te rfl) (State.slotCnt_congr (hused.regsAre (by decide)))
      (by unfold State.guardG; rw [hused.rt rfl])]
    exact hroom
  generalize hplain : d ^^^ gcmStream (u.keySlot x.slot).key (chunkIv (x.frameChunk (u.frames x.window) (off / frameLines)))
    (off % frameLines) = plain
  obtain ⟨t, hput⟩ := State.streamPut_room hxUsed plain hroomUsed
  obtain ⟨y, hy, hbare, hread⟩ := State.streamPut_shows hxUsed hput
  have heq : u.importLine x off d true = t.streamMod x.slot fun y => { y with seen := setIns off y.seen } := by
    unfold State.importLine
    extract_lets n k p
    have hp : p = plain := (if_pos hline).trans hplain
    rw [if_neg (by simp), if_neg (by simp only [hnew, Bool.false_eq_true, not_false_eq_true]), if_neg (by omega), hp, hput]
  have hseen : y.seen = x.seen := Stream.eq_of_bare hbare Stream.seen fun _ => rfl
  rw [heq]
  exact ⟨_, State.streamBy_streamMod hy fun _ => rfl, congrArg (setIns off) hseen, hread⟩

end

/-! ### Trailer line 0 (R321) -/

section
variable {u : State} {x : Stream} {f : Nat} {d : Line} (hx : u.streamBy x.slot = some x) (hlen : 0 < trLen d) (hmax : trLen d ≤ 16384)
include hx hlen hmax

/-- A trailer whose chunk has not arrived ends the stream (Table 10.8). -/
theorem State.importTrailer_early (hseen : x.seen = []) :
    (u.importTrailer x f d true).ce.streams = u.ce.streams.filter (fun y => y.slot != x.slot) := by
  have hmissing : (List.range (trLen d)).all (fun n => x.seen.contains (frameLines * f + n)) = false :=
    List.all_eq_false.mpr ⟨0, by simpa using hlen, by simp [hseen]⟩
  have heq : u.importTrailer x f d true = u.importStop x (x.frameChunk (u.frames x.window) f) 2 (trFinal d) := by
    unfold State.importTrailer
    extract_lets len final k has
    rw [if_neg (by simp only [Bool.not_true, Bool.false_eq_true, false_or]; omega), if_pos]
    show (!((List.range (trLen d)).all (fun n => x.seen.contains (frameLines * f + n)) && _)) = true
    rw [hmissing]
    rfl
  have hsent := u.chunkPacket_same x.window (x.frameChunk (u.frames x.window) f) 2 (trFinal d)
  rw [heq, State.importStop, State.streamEnd_streams ((State.streamBy_of_ce (hsent.ce rfl) _).trans hx), hsent.ce rfl]

/-- The trailer of a chunk that has arrived whole, with a tag that verifies, makes the chunk ready to commit (R321). -/
theorem State.importTrailer_ready (hct : ∀ m, m < trLen d → x.seen.contains (frameLines * f + m) = true)
    (hpmap : ∀ m, m < 32 → x.seen.contains (frameLines * f + (16385 + m)) = true) (hfinal : trFinal d = true)
    (hcount : 64 * trToff d + trLen d ≤ x.count) (hfirst : x.lastOk = none)
    (htag : gcmTag (u.keySlot x.slot).key (u.keySlot x.slot).h (chunkIv (x.frameChunk (u.frames x.window) f))
      (chunkAad d (u.framePmap x f)) (u.importCt x f (x.frameChunk (u.frames x.window) f) (trLen d)) = trTag d) :
    (u.importTrailer x f d true).streamBy x.slot =
      some { x with ready := x.ready ++ [(x.frameChunk (u.frames x.window) f, d)] } := by
  have hall : ((List.range (trLen d)).all (fun n => x.seen.contains (frameLines * f + n)) &&
      (List.range 32).all (fun j => x.seen.contains (frameLines * f + (16385 + j)))) = true := by
    rw [Bool.and_eq_true, List.all_eq_true, List.all_eq_true]
    exact ⟨fun m hm => hct m (List.mem_range.mp hm), fun m hm => hpmap m (List.mem_range.mp hm)⟩
  have hform : ¬(((!trFinal d) = true ∧ trLen d < 16384) ∨ x.count < 64 * trToff d + trLen d) := by
    simp only [hfinal, Bool.not_true, Bool.false_eq_true, false_and, false_or]
    omega
  have heq : u.importTrailer x f d true = (u.keyUse x.slot).streamMod x.slot fun y =>
      { y with ready := y.ready ++ [(x.frameChunk (u.frames x.window) f, d)] } := by
    unfold State.importTrailer
    extract_lets len final k has key
    rw [if_neg (by simp only [Bool.not_true, Bool.false_eq_true, false_or]; omega), if_neg (by simp only [has, len, hall]; decide),
      if_neg hform, if_neg (by simp [hfirst]), if_pos htag]
  rw [heq]
  exact State.streamBy_streamMod ((State.streamBy_congr (u.keyUse_keyStep x.slot).streams _).trans hx) fun _ => rfl

end

/-! ### IMPORT_LINE_WRITE and IMPORT_TRAILER (R321) -/

/-- What an active import makes of a whole line at an offset of its window. -/
def State.importTaken (s : State) (x : Stream) (off : Nat) (d : Line) : State :=
  if off % frameLines = 16384 then s.importTrailer x (off / frameLines) d true else s.importLine x off d true

theorem State.importTaken_rt (s : State) (x : Stream) (off : Nat) (d : Line) : (s.importTaken x off d).rt = s.rt := by
  have hsame : Same 282729207882254 s (s.importTaken x off d) :=
    same_ite (State.importTrailer_keeps rfl (Same.refl _ s)) (State.importLine_keeps rfl (Same.refl _ s))
  exact hsame.rt rfl

theorem State.importWrite_active {s : State} {w off : Nat} {x : Stream} (hof : s.streamOf w = some x) (hdir : x.dir = 1) (hst : x.st = 1)
    (hoff : off < s.frames w * frameLines) (d : Line) : s.importWrite w off d true = s.importTaken x off d := by
  rw [State.importWrite, hof]
  exact if_pos ⟨hdir, hst, hoff⟩

/-- A write whose line the window takes now is the stream's, and completes to its host (R321). -/
theorem State.windowWrite_taken {s : State} {line w : Nat} {x : Stream} (hreqs : s.rt.reqs = [])
    (htakes : s.windowTakes w (line - s.rgFirst w) = true) (hof : s.streamOf w = some x) (hdir : x.dir = 1) (hst : x.st = 1)
    (hoff : line - s.rgFirst w < s.frames w * frameLines) (p : Fin 8) (g : Nat) (d : Line) :
    ∃ t, s.windowWrite (.host p g) line w (.write d) = t ∧ Output.memDone (.host p g) ∈ t.out ∧
      t.ce = (s.importTaken x (line - s.rgFirst w) d).ce ∧ t.te = (s.importTaken x (line - s.rgFirst w) d).te := by
  have hnone : (s.importTaken x (line - s.rgFirst w) d).rt.reqs = [] := (congrArg RtSt.reqs (s.importTaken_rt x _ d)).trans hreqs
  obtain ⟨hdone, hleft, hce, hte⟩ := State.dropWrite_shows hnone p g line
  refine ⟨_, ?_, hdone, hce, hte⟩
  unfold State.windowWrite
  extract_lets off q r
  have hdata : r.wdata = d := rfl
  rw [if_pos htakes, hdata, State.importWrite_active hof hdir hst hoff, State.pump_of_noReqs hleft]

section
variable {port : Fin 8} {line : BitVec 38} {n : Fin 16} {x : Stream} {s : State}
  (hcredit : s.hasCredit port true = true) (hboot : s.booting = false) (hfence : s.fenced = false) (hwritable : s.roState = false)
  (hreqs : s.rt.reqs = []) (hregion : s.regionOf line.toNat = some n.val) (hport : s.get (F.RT_RG_CTL.PORT n) = port.val)
  (hxfer : s.bit (F.RT_RG_CTL.XFER n) = true) (hof : s.streamOf n = some x) (hdir : x.dir = 1) (hst : x.st = 1)
  (htakes : s.windowTakes n (line.toNat - s.rgFirst n) = true) (hoff : line.toNat - s.rgFirst n < s.frames n * frameLines)
include hcredit hboot hfence hwritable hreqs hregion hport hxfer hof hdir hst htakes hoff

omit hreqs hst htakes hoff hdir in
/-- A write of a host to the window of a stream goes to the window. -/
theorem State.importCmd_eq (tag : BitVec 16) (d : Line) (be : BitVec 64) (tr : Bool)
    (htr : ((line.toNat - s.rgFirst n) % frameLines = 16384) = (tr = true)) :
    s.importCmd port tag line d be tr = (s.writeTaken port).windowWrite (.host port tag.toNat) line.toNat n
      (if be = BitVec.allOnes 64 then .write d else .part d be) := by
  have hallowed : ¬((!s.hasCredit port true) = true ∨ s.booting = true ∨ s.fenced = true ∨ s.roState = true ∨
      s.get (F.RT_RG_CTL.PORT n) ≠ port.val ∨ (!s.bit (F.RT_RG_CTL.XFER n)) = true ∨ (s.streamOf n).isNone = true ∨
      ((line.toNat - s.rgFirst n) % frameLines = 16384) ≠ (tr = true)) := by
    simp [hcredit, hboot, hfence, hwritable, hport, hxfer, hof, htr]
  unfold State.importCmd
  extract_lets ln
  split
  · next hnone => cases hregion.symm.trans hnone
  · next m hsome =>
    cases hregion.symm.trans hsome
    exact if_neg hallowed

/-- A whole line of the window of an active import is the stream's, and completes to its host. -/
theorem State.importCmd_taken (tag : BitVec 16) (d : Line) (tr : Bool)
    (htr : ((line.toNat - s.rgFirst n) % frameLines = 16384) = (tr = true)) :
    ∃ t, s.importCmd port tag line d (BitVec.allOnes 64) tr = t ∧ Output.memDone (.host port tag.toNat) ∈ t.out ∧
      t.ce = ((s.writeTaken port).importTaken x (line.toNat - s.rgFirst n) d).ce ∧
      t.te = ((s.writeTaken port).importTaken x (line.toNat - s.rgFirst n) d).te := by
  have hsame := s.writeTaken_same port
  have hpage : (s.writeTaken port).regionPageIs s := hsame.regionPageIs rfl
  obtain ⟨hnone, hguard⟩ := s.writeTaken_rt port
  have hfirst : (s.writeTaken port).rgFirst n = s.rgFirst n := by
    unfold State.rgFirst
    rw [hpage.num (regionReg_base n)]
  have hheld := State.windowTakes_congr (hsame.te rfl) (hsame.ce rfl) hpage (s.writeTaken_slotCnt port) hguard
  obtain ⟨t, ht, hdone⟩ := State.windowWrite_taken (s := s.writeTaken port) (line := line.toNat) (hnone.trans hreqs)
    ((hheld n _).trans (by rw [hfirst]; exact htakes)) ((State.streamOf_congr (hsame.ce rfl) n).trans hof) hdir hst
    (by rw [hfirst, hpage.frames]; exact hoff) port tag.toNat d
  rw [hfirst] at hdone
  refine ⟨t, ?_, hdone⟩
  have hwhole (be : BitVec 64) : (if be = be then ReqKind.write d else .part d be) = .write d := if_pos rfl
  have htaken := State.importCmd_eq hcredit hboot hfence hwritable hregion hport hxfer hof tag d (BitVec.allOnes 64) tr htr
  rw [hwhole, ht] at htaken
  exact htaken

end

end Sys2Proof.Machine
end

section
/-! SUPPORT. IMPORT_LINE_WRITE and IMPORT_TRAILER (10_cipher_engine.md R320–R322). -/

set_option autoImplicit false

namespace Sys2Proof.Machine

theorem State.framePmap_keyStep {s t : State} (h : s.KeyStep t) (hte : t.te = s.te) (x : Stream) (f : Nat) :
    t.framePmap x f = s.framePmap x f := by
  unfold State.framePmap
  simp only [State.streamLine_keyStep h hte]

theorem State.importCt_keyStep {s t : State} (h : s.KeyStep t) (hte : t.te = s.te) (x : Stream) (f k len : Nat) :
    t.importCt x f k len = s.importCt x f k len := by
  unfold State.importCt
  simp only [State.streamLine_keyStep h hte, h.key]

section
variable {port : Fin 8} {line : BitVec 38} {n : Fin 16} {x : Stream} {s : State}
  (hcredit : s.hasCredit port true = true) (hboot : s.booting = false) (hfence : s.fenced = false) (hwritable : s.roState = false)
  (hreqs : s.rt.reqs = []) (hregion : s.regionOf line.toNat = some n.val) (hport : s.get (F.RT_RG_CTL.PORT n) = port.val)
  (hxfer : s.bit (F.RT_RG_CTL.XFER n) = true) (hof : s.streamOf n = some x) (hx : s.streamBy x.slot = some x) (hdir : x.dir = 1)
  (hst : x.st = 1) (htakes : s.windowTakes n (line.toNat - s.rgFirst n) = true)
  (hoff : line.toNat - s.rgFirst n < s.frames n * frameLines)
include hcredit hboot hfence hwritable hreqs hregion hport hxfer hof hx hdir hst htakes hoff

theorem exec_importLineWrite_shows (tag : BitVec 16) (d : Line) (hline : (line.toNat - s.rgFirst n) % frameLines < 16384)
    (hnew : x.seen.contains (line.toNat - s.rgFirst n) = false) :
    ∃ t y, exec (.importLineWrite port tag line d (BitVec.allOnes 64)) s = .next t ∧ Output.memDone (.host port tag.toNat) ∈ t.out ∧
      t.streamBy x.slot = some y ∧ y.seen = setIns (line.toNat - s.rgFirst n) x.seen ∧
      t.streamLine y (line.toNat - s.rgFirst n) = d ^^^ gcmStream (s.keySlot x.slot).key
        (chunkIv (x.frameChunk (s.frames x.window) ((line.toNat - s.rgFirst n) / frameLines)))
        ((line.toNat - s.rgFirst n) % frameLines) := by
  obtain ⟨t, ht, hdone, hce, hte⟩ := State.importCmd_taken hcredit hboot hfence hwritable hreqs hregion hport hxfer hof hdir hst htakes hoff
    tag d false (by simp; omega)
  generalize line.toNat - s.rgFirst n = off at hline hnew htakes hoff hce hte ⊢
  have hsame := s.writeTaken_same port
  have hroom : sget 0 x.tiles (off / 64) ≠ 0 ∨ ((s.writeTaken port).slotNext false).isSome = true := by
    rw [State.slotNext_isSome_congr (hsame.te rfl) (s.writeTaken_slotCnt port) (s.writeTaken_rt port).2]
    exact State.windowTakes_room hof hdir hst hoff (by omega) htakes
  have htaken : (s.writeTaken port).importTaken x off d = (s.writeTaken port).importLine x off d true := if_neg (by omega)
  obtain ⟨y, hy, hseen, hread⟩ := State.importLine_shows (d := d)
    ((State.streamBy_of_ce (hsame.ce rfl) _).trans hx) hnew hline hroom
  rw [State.keySlot_congr (hsame.ce rfl), (hsame.regionPageIs rfl).frames] at hread
  rw [htaken] at hce hte
  exact ⟨t, y, congrArg Host.Outcome.next ht, hdone, (State.streamBy_of_ce hce _).trans hy, hseen,
    (State.streamLine_keyStep (.of_ce hce) hte y off).trans hread⟩

omit hx in
theorem exec_importTrailer_taken (tag : BitVec 16) (d : Line) (htrailer : (line.toNat - s.rgFirst n) % frameLines = 16384) :
    ∃ t, exec (.importTrailer port tag line d (BitVec.allOnes 64)) s = .next t ∧ Output.memDone (.host port tag.toNat) ∈ t.out ∧
      t.ce = ((s.writeTaken port).importTrailer x ((line.toNat - s.rgFirst n) / frameLines) d true).ce := by
  obtain ⟨t, ht, hdone, hce, -⟩ := State.importCmd_taken hcredit hboot hfence hwritable hreqs hregion hport hxfer hof hdir hst htakes hoff
    tag d true (by simp [htrailer])
  exact ⟨t, congrArg Host.Outcome.next ht, hdone, hce.trans (congrArg State.ce (if_pos htrailer))⟩

theorem exec_importTrailer_early (tag : BitVec 16) (d : Line) (htrailer : (line.toNat - s.rgFirst n) % frameLines = 16384)
    (hseen : x.seen = []) (hlen : 0 < trLen d) (hmax : trLen d ≤ 16384) :
    ∃ t, exec (.importTrailer port tag line d (BitVec.allOnes 64)) s = .next t ∧ Output.memDone (.host port tag.toNat) ∈ t.out ∧
      t.ce.streams = s.ce.streams.filter (fun y => y.slot != x.slot) := by
  obtain ⟨t, ht, hdone, hce⟩ := exec_importTrailer_taken hcredit hboot hfence hwritable hreqs hregion hport hxfer hof hdir hst htakes hoff
    tag d htrailer
  have htaken : (s.writeTaken port).ce = s.ce := (s.writeTaken_same port).ce rfl
  have hended := State.importTrailer_early (f := (line.toNat - s.rgFirst n) / frameLines)
    ((State.streamBy_of_ce htaken _).trans hx) hlen hmax hseen
  rw [htaken] at hended
  exact ⟨t, ht, hdone, (congrArg CeSt.streams hce).trans hended⟩

theorem exec_importTrailer_ready (tag : BitVec 16) (d : Line) {f k : Nat} (hf : (line.toNat - s.rgFirst n) / frameLines = f)
    (hk : x.frameChunk (s.frames x.window) f = k) (htrailer : (line.toNat - s.rgFirst n) % frameLines = 16384)
    (hct : ∀ m, m < trLen d → x.seen.contains (frameLines * f + m) = true)
    (hpmap : ∀ m, m < 32 → x.seen.contains (frameLines * f + (16385 + m)) = true) (hlen : 0 < trLen d) (hmax : trLen d ≤ 16384)
    (hfinal : trFinal d = true) (hcount : 64 * trToff d + trLen d ≤ x.count) (hfirst : x.lastOk = none)
    (htag : gcmTag (s.keySlot x.slot).key (s.keySlot x.slot).h (chunkIv k) (chunkAad d (s.framePmap x f)) (s.importCt x f k (trLen d)) =
      trTag d) :
    ∃ t y, exec (.importTrailer port tag line d (BitVec.allOnes 64)) s = .next t ∧ Output.memDone (.host port tag.toNat) ∈ t.out ∧
      t.streamBy x.slot = some y ∧ y.ready = x.ready ++ [(k, d)] ∧ y.seen = x.seen := by
  obtain ⟨t, ht, hdone, hce⟩ := exec_importTrailer_taken hcredit hboot hfence hwritable hreqs hregion hport hxfer hof hdir hst htakes hoff
    tag d htrailer
  have hsame := s.writeTaken_same port
  have hkeys : s.KeyStep (s.writeTaken port) := .of_ce (hsame.ce rfl)
  have hchunk : x.frameChunk ((s.writeTaken port).frames x.window) f = k := by rw [(hsame.regionPageIs rfl).frames, hk]
  have hready := State.importTrailer_ready ((State.streamBy_congr hkeys.streams _).trans hx) hlen hmax hct hpmap hfinal hcount hfirst
    (by rw [hchunk, hkeys.key, hkeys.hash, State.framePmap_keyStep hkeys (hsame.te rfl), State.importCt_keyStep hkeys (hsame.te rfl), htag])
  rw [hchunk, ← hf] at hready
  exact ⟨t, _, ht, hdone, (State.streamBy_of_ce hce _).trans hready, rfl, rfl⟩

end

end Sys2Proof.Machine
end

section
/-! SUPPORT. The commit of a chunk of an import (10_cipher_engine.md R321–R323). -/

set_option autoImplicit false

namespace Sys2Proof.Machine

/-! ### What the placing of lines leaves -/

/-- t has the streams of s, and no request in the router where s has none. -/
structure State.CommitStep (s t : State) : Prop where
  streams : t.ce.streams = s.ce.streams
  noReqs : s.rt.reqs = [] → t.rt.reqs = []

theorem State.CommitStep.refl (s : State) : s.CommitStep s := ⟨rfl, id⟩

theorem State.CommitStep.trans {s t u : State} (h : s.CommitStep t) (k : t.CommitStep u) : s.CommitStep u :=
  ⟨k.streams.trans h.streams, fun hnone => k.noReqs (h.noReqs hnone)⟩

theorem State.CommitStep.of_eq {s t : State} (hce : t.ce.streams = s.ce.streams) (hrt : t.rt = s.rt) : s.CommitStep t :=
  ⟨hce, fun hnone => (congrArg RtSt.reqs hrt).trans hnone⟩

theorem Same.commitStep {m : Nat} {s t : State} (h : Same m s t) (hrt : m.testBit 11 = false) (hce : m.testBit 14 = false) :
    s.CommitStep t := .of_eq (congrArg CeSt.streams (h.ce hce)) (h.rt hrt)

theorem State.tsStatus_commitStep (s : State) : s.CommitStep s.tsStatus := s.tsStatus_same.commitStep rfl rfl

theorem State.release_commitStep (s : State) (n : Nat) : s.CommitStep (s.release n) :=
  ⟨congrArg CeSt.streams ((s.release_same n).ce rfl), fun hnone => State.release_noReqs hnone n⟩

theorem State.lcInvalidate_commitStep (s : State) (set w : Nat) : s.CommitStep (s.lcInvalidate set w) := by
  unfold State.lcInvalidate
  split
  · have hclear : Same 171865872394 s (s.lcClear set w) := State.lcClear_keeps rfl (Same.refl _ s)
    exact ⟨congrArg CeSt.streams (hclear.ce rfl), fun hnone => State.lcClear_reqs hnone set w⟩
  · exact State.CommitStep.refl s

theorem State.xtsUse_commitStep (s : State) : s.CommitStep s.xtsUse :=
  .of_eq s.xtsUse_keyStep.streams ((State.xtsUse_keeps (m := 16388) rfl (Same.refl _ s)).rt rfl)

/-- A dirty line is written into the stage with the pair of the tile stage only (R312). -/
theorem State.slotPutDirty_commitStep {s t : State} {line old : Nat} {d : Line} {reserve : Bool}
    (h : s.slotPutDirty line d reserve = some (old, t)) : s.CommitStep t := by
  unfold State.slotPutDirty at h
  extract_lets tile k at h
  split at h
  · cases h
  · next n u hslot =>
    obtain ⟨-, rfl⟩ := Prod.mk.inj (Option.some.inj h)
    have htaken : s.CommitStep u := (State.slotOf_keeps (m := 8192) rfl hslot (Same.refl _ s)).commitStep rfl rfl
    have hplaced (v : State) (y : Slot → Slot) (z : Slot → Slot) (e : TEntry) (c : Prop) [Decidable c] :
        v.CommitStep (State.pcItem (if c then (v.slotMod n y).slotMod n z else ((v.slotMod n y).slotMod n z).setEntry tile e) 9) := by
      have hput : v.CommitStep ((v.slotMod n y).slotMod n z) := .of_eq rfl rfl
      have hset : v.CommitStep (if c then (v.slotMod n y).slotMod n z else ((v.slotMod n y).slotMod n z).setEntry tile e) := by
        split
        · exact hput
        · exact hput.trans ((State.setEntry_keeps (m := 8192) rfl (Same.refl _ _)).commitStep rfl rfl)
      exact hset.trans ((State.pcItem_keeps (m := 67108872) rfl (Same.refl _ _)).commitStep rfl rfl)
    exact (htaken.trans u.xtsUse_commitStep).trans (hplaced _ _ _ _ _)

theorem State.evictLine_commitStep {s t : State} {line : Nat} (h : s.evictLine line = some t) : s.CommitStep t := by
  unfold State.evictLine at h
  split at h
  · exact Option.some.inj h ▸ State.CommitStep.refl s
  · next b _ =>
    split at h
    · cases h
    · next old u hput =>
      obtain rfl := Option.some.inj h
      have hout : s.CommitStep ({ u with lc.bufs := u.lc.bufs.erase b } : State) :=
        (State.slotPutDirty_commitStep hput).trans (.of_eq rfl rfl)
      dsimp only
      split
      · exact hout.trans (State.release_commitStep _ 1)
      · exact hout.trans (State.tsStatus_commitStep _)

theorem State.evictAll_commitStep {s t : State} {line : Nat} (h : s.evictAll line = some t) : s.CommitStep t := by
  unfold State.evictAll at h
  have hfold (l : List EvBuf) : ∀ o : Option State, (∀ v, o = some v → s.CommitStep v) →
      ∀ u, l.foldl (fun (o : Option State) _ => o.bind (fun s => s.evictLine line)) o = some u → s.CommitStep u := by
    induction l with
    | nil => exact fun o ho u hu => ho u hu
    | cons b l ih =>
      refine fun o ho u hu => ih _ (fun v hv => ?_) u hu
      obtain ⟨w, hw, hline⟩ := Option.bind_eq_some_iff.mp hv
      exact (ho w hw).trans (State.evictLine_commitStep hline)
  exact hfold _ (some s) (fun v hv => Option.some.inj hv ▸ State.CommitStep.refl s) t h

theorem State.evictPut_commitStep {s t : State} {line old : Nat} {d : Line} {reserve : Bool}
    (h : s.evictPut line d reserve = some (old, t)) : s.CommitStep t := by
  unfold State.evictPut at h
  split at h
  · cases h
  · next u hall => exact (State.evictAll_commitStep hall).trans (State.slotPutDirty_commitStep h)

/-! ### A line placed -/

/-- The counts of the stage after a line is put, dirty before (R142). -/
def State.putCounted (s : State) (old : Nat) : State := if old = 2 ∨ old = 4 then s.tsStatus else s.charge 1

/-- A line that has been put: its poison follows, and a read of it that runs finds it closed. -/
def State.putShown (s : State) (line : Nat) (poison : Bool) : State :=
  ((if poison then s.poisonLine line else s.unpoisonLine line).bmapSet (tileOf line)).closeReads line

theorem State.putCounted_commitStep (s : State) (old : Nat) : s.CommitStep (s.putCounted old) := by
  unfold State.putCounted
  split
  · exact s.tsStatus_commitStep
  · exact (State.charge_keeps (m := 137438953480) rfl (Same.refl _ s)).commitStep rfl rfl

theorem State.closeReads_commitStep (s : State) (line : Nat) : s.CommitStep (s.closeReads line) :=
  ⟨rfl, fun hnone => List.map_eq_nil_iff.mpr hnone⟩

theorem State.putShown_commitStep (s : State) (line : Nat) (poison : Bool) : s.CommitStep (s.putShown line poison) := by
  have hpoison : Same 19451974099722 s (if poison then s.poisonLine line else s.unpoisonLine line) :=
    same_ite (State.poisonLine_keeps rfl (Same.refl _ s)) (State.unpoisonLine_keeps rfl (Same.refl _ s))
  have hmap := State.bmapSet_keeps (m := 19451974099722) (a1 := tileOf line) rfl hpoison
  exact (hmap.commitStep rfl rfl).trans (State.closeReads_commitStep _ line)

theorem State.sendMwr_commitStep (s : State) (line : Nat) (d : Line) (poison : Bool) : s.CommitStep (s.sendMwr line d poison).2 :=
  (State.sendMwr_keeps (m := 549822988298) rfl (Same.refl _ s)).commitStep rfl rfl

/-- A line that a commit places leaves the streams, and no request where none was (R321). -/
theorem State.commitLine_commitStep {s t : State} {line : Nat} {d : Line} {poison mirror : Bool}
    (h : s.commitLine line d poison mirror = some t) : s.CommitStep t := by
  unfold State.commitLine at h
  split at h
  · cases h
  · extract_lets v at h
    have hv : s.CommitStep v := by
      unfold v
      split
      · exact s.lcInvalidate_commitStep _ _
      · exact State.CommitStep.refl s
    split at h
    · cases h
    · next old u hput =>
      obtain rfl := Option.some.inj h
      have hshown := ((hv.trans (State.evictPut_commitStep hput)).trans (u.putCounted_commitStep old)).trans
        (State.putShown_commitStep _ line poison)
      show s.CommitStep (if mirror && ((u.putCounted old).putShown line poison).mirroring then
        (((u.putCounted old).putShown line poison).sendMwr line d poison).2 else (u.putCounted old).putShown line poison)
      split
      · exact hshown.trans (State.sendMwr_commitStep _ line d poison)
      · exact hshown

theorem State.commitLines_commitStep (mirror : Bool) (l : List (Nat × Option (Line × Bool))) (s : State) :
    s.CommitStep (s.commitLines mirror l).2 := by
  induction l generalizing s with
  | nil => exact State.CommitStep.refl s
  | cons a l ih =>
    obtain ⟨line, x⟩ := a
    unfold State.commitLines
    split
    · exact State.CommitStep.refl s
    · next u hu =>
      have hline : s.CommitStep u := by
        cases x with
        | none => exact Option.some.inj hu ▸ State.CommitStep.refl s
        | some y => exact State.commitLine_commitStep hu
      exact hline.trans (ih u)

end Sys2Proof.Machine
end

section
/-! SUPPORT. IMPORT_CHUNK_COMMIT (10_cipher_engine.md R321, R323). -/

set_option autoImplicit false

namespace Sys2Proof.Machine

/-! ### The frame of a committed chunk is free again -/

/-- Freeing tiles of a stream's window changes the stream in its tiles only. -/
theorem State.streamFree_stream {s : State} {h : Nat} {x : Stream} (hx : s.streamBy h = some x) (f : Nat → Bool) :
    ∃ y, (s.streamFree h f).streamBy h = some y ∧ y.bare = x.bare := by
  unfold State.streamFree
  rw [hx]
  dsimp only
  generalize hfreed : (x.tiles.filter fun y => f y.1).foldl (fun (s : State) (y : Nat × Nat) =>
    { s with te.slots := serase s.te.slots y.2 }) s = freed
  have hce : freed.ce = s.ce := hfreed ▸ foldl_eq State.ce
    (f := fun (s : State) (y : Nat × Nat) => { s with te.slots := serase s.te.slots y.2 }) (fun _ _ => rfl) _ s
  have hmod := State.streamBy_streamMod ((State.streamBy_of_ce hce h).trans hx)
    (f := fun y => { y with tiles := y.tiles.filter (fun (z : Nat × Nat) => !f z.1) }) fun _ => rfl
  exact ⟨_, (State.streamBy_congr (State.tsStatus_keyStep _).streams h).trans hmod, rfl⟩

/-- A frame freed: its lines are no longer noted as arrived (R321). -/
theorem State.windowFree_stream {s : State} {h : Nat} {x : Stream} (hx : s.streamBy h = some x) (f : Nat) :
    ∃ y, (s.windowFree h f).streamBy h = some y ∧
      y.bare = ({ x with seen := x.seen.filter (fun o => o / frameLines != f) } : Stream).bare := by
  obtain ⟨y, hy, hbare⟩ := State.streamFree_stream hx fun k => k / frameTiles == f
  refine ⟨_, State.streamBy_streamMod hy fun _ => rfl, ?_⟩
  exact congrArg (fun z : Stream => { z with seen := z.seen.filter (fun o => o / frameLines != f) }) hbare

/-! ### The answer of a stream that ends -/

theorem State.bgDone_grows (s : State) (p : Nat) (rc : Rc) (ext : Nat) (ws : List Nat) : OutGrows s (s.bgDone p rc ext ws) := by
  unfold State.bgDone
  extract_lets quiet was hp ended
  refine OutGrows.after (t := ended) ?_ rfl
  split
  · exact OutGrows.refl _
  split
  · exact OutGrows.of_eq rfl
  split
  · next hp => exact State.mbox_grows _ hp rc ext ws
  split
  · exact OutGrows.of_eq rfl
  · exact OutGrows.refl _

theorem State.setBit_out (s : State) (f : Fld) (b : Bool) : (s.setBit f b).out = s.out := rfl

theorem State.keyRelease_out (s : State) (n : Nat) : (s.keyRelease n).out = s.out := by
  unfold State.keyRelease
  split <;> rfl

/-- The end of a stream takes no output back. -/
theorem State.streamEnd_grows (s : State) (h res : Nat) : OutGrows s (s.streamEnd h res) := by
  have hroll (t : State) (x : Stream) (last : Nat) : OutGrows t (if res = 0 then t else t.roll 0x0801 0 6 x.window res last) :=
    .ite (.refl t) (.of_eq ((t.roll_same _ _ _ _ _ _).out rfl))
  have hdone (t : State) (x : Stream) (last : Nat) : OutGrows t (if x.st = 2 ∨ x.st = 3 then t else if res = 0 then
      t.bgDone x.port .success 0 [0, last] else t.bgDone x.port .aborted (Ext.STREAM + 256 * res) [res, last]) :=
    .ite (.refl t) (.ite (t.bgDone_grows _ _ _ _) (t.bgDone_grows _ _ _ _))
  have hfreed : (s.streamFree h fun _ => true).out = s.out := (State.streamFree_keeps (m := 137438978056) rfl (Same.refl _ s)).out rfl
  unfold State.streamEnd
  split
  · exact OutGrows.refl s
  · refine OutGrows.trans (OutGrows.trans (.of_eq ?_) (hdone _ _ _)) (hroll _ _ _)
    rw [State.keyRelease_out, State.setBit_out]
    exact hfreed

/-! ### The command -/

/-- A chunk whose lines are all placed: its frame is free, the stream goes on, and its packet goes out (R321, R323). -/
def State.chunkCommitted (s : State) (w : Fin 16) (x : Stream) (k : Nat) (tr : Line) (rest : List (Nat × Line)) : State :=
  ((s.windowFree x.slot (k % s.frames x.window)).streamMod x.slot (fun y => { y with
    chunk := k + 1, lastOk := some k, ready := rest, placed := 0 })).chunkPacket w k 0 (trFinal tr)

theorem State.chunkCommitted_rt (s : State) (w : Fin 16) (x : Stream) (k : Nat) (tr : Line) (rest : List (Nat × Line)) :
    (s.chunkCommitted w x k tr rest).rt = s.rt := by
  have hfree : Same 137438978056 s (s.windowFree x.slot (k % s.frames x.window)) := State.windowFree_keeps rfl (Same.refl _ s)
  exact ((State.chunkPacket_same _ _ _ _ _).rt rfl).trans (hfree.rt rfl)

theorem State.chunkCommitted_shows {s : State} {x : Stream} (hx : s.streamBy x.slot = some x) (w : Fin 16) (k : Nat) (tr : Line)
    (rest : List (Nat × Line)) : Output.other 6 [k, w.val + (trFinal tr).toNat * 8192] ∈ (s.chunkCommitted w x k tr rest).out ∧
      ∃ y, (s.chunkCommitted w x k tr rest).streamBy x.slot = some y ∧ y.chunk = k + 1 ∧ y.ready = rest ∧ y.placed = 0 ∧
        y.seen = x.seen.filter (fun o => o / frameLines != k % s.frames x.window) ∧ y.lastOk = some k := by
  obtain ⟨y, hy, hbare⟩ := State.windowFree_stream hx (k % s.frames x.window)
  have hseen := Stream.eq_of_bare hbare Stream.seen fun _ => rfl
  have hmod := State.streamBy_streamMod hy
    (f := fun y => { y with chunk := k + 1, lastOk := some k, ready := rest, placed := 0 }) fun _ => rfl
  have hsent := State.chunkPacket_same ((s.windowFree x.slot (k % s.frames x.window)).streamMod x.slot fun y =>
    { y with chunk := k + 1, lastOk := some k, ready := rest, placed := 0 }) w k 0 (trFinal tr)
  exact ⟨State.chunkPacket_ok _ w k _, _, (State.streamBy_of_ce (hsent.ce rfl) _).trans hmod, rfl, rfl, rfl, hseen, rfl⟩

section
variable {w : Fin 16} {x : Stream} {k : Nat} {tr : Line} {rest : List (Nat × Line)} {s : State} (hreqs : s.rt.reqs = [])
  (hof : s.streamOf w = some x) (hx : s.streamBy x.slot = some x) (hst : x.st = 1) (hseeds : 8 ≤ s.ce.seeds)
  (hready : x.ready = (k, tr) :: rest)

/-- The lines of the chunk placed in order, as far as they go, and how many went. -/
def State.chunkPlace (s : State) (x : Stream) (k : Nat) (tr : Line) : Nat × State := s.xtsUse.commitLines true (s.chunkLines x k tr)

theorem State.chunkPlace_commitStep (s : State) (x : Stream) (k : Nat) (tr : Line) : s.CommitStep (s.chunkPlace x k tr).2 :=
  s.xtsUse_commitStep.trans (State.commitLines_commitStep true _ _)

theorem State.chunkPlace_frames (s : State) (x : Stream) (k : Nat) (tr : Line) (n : Nat) :
    (s.chunkPlace x k tr).2.frames n = s.frames n := by
  have hused : Same 16388 s s.xtsUse := State.xtsUse_keeps rfl (Same.refl _ s)
  have hplaced : Same 19486333860622 s.xtsUse (s.chunkPlace x k tr).2 := State.commitLines_keeps rfl (Same.refl _ s.xtsUse)
  exact ((hplaced.regionPageIs rfl).trans (hused.regionPageIs rfl)).frames n

section
include hof hst hseeds hready

theorem exec_importChunkCommit_eq : exec (.importChunkCommit w) s = .next
    (if (s.chunkPlace x k tr).1 < (s.chunkLines x k tr).length then
      ((s.chunkPlace x k tr).2.streamMod x.slot (fun y => { y with placed := y.placed + (s.chunkPlace x k tr).1 })).pump
    else (if trFinal tr then ((s.chunkPlace x k tr).2.chunkCommitted w x k tr rest).streamEnd x.slot 0
      else (s.chunkPlace x k tr).2.chunkCommitted w x k tr rest).pump) := by
  show execImportChunkCommit w s = _
  unfold execImportChunkCommit
  rw [hof]
  dsimp only
  rw [if_pos ⟨hst, hseeds⟩, hready]
  dsimp only
  rw [apply_ite Host.Outcome.next]
  rfl

include hreqs hx

theorem exec_importChunkCommit_partial (hpart : (s.chunkPlace x k tr).1 < (s.chunkLines x k tr).length) :
    ∃ t y, exec (.importChunkCommit w) s = .next t ∧ t.streamBy x.slot = some y ∧ y.placed = x.placed + (s.chunkPlace x k tr).1 ∧
      y.ready = x.ready := by
  obtain ⟨hstreams, hnone⟩ := s.chunkPlace_commitStep x k tr
  have hmod := State.streamBy_streamMod ((State.streamBy_congr hstreams _).trans hx)
    (f := fun y => { y with placed := y.placed + (s.chunkPlace x k tr).1 }) fun _ => rfl
  refine ⟨_, _, ?_, hmod, rfl, rfl⟩
  rw [exec_importChunkCommit_eq hof hst hseeds hready, if_pos hpart, State.pump_of_noReqs]
  exact hnone hreqs

theorem exec_importChunkCommit_whole (hwhole : (s.chunkPlace x k tr).1 = (s.chunkLines x k tr).length) (hmore : trFinal tr = false) :
    ∃ t y, exec (.importChunkCommit w) s = .next t ∧ t.streamBy x.slot = some y ∧ y.chunk = k + 1 ∧ y.ready = rest ∧ y.placed = 0 ∧
      y.seen = x.seen.filter (fun o => o / frameLines != k % s.frames x.window) ∧ y.lastOk = some k ∧
      Output.other 6 [k, w.val] ∈ t.out := by
  obtain ⟨hstreams, hnone⟩ := s.chunkPlace_commitStep x k tr
  obtain ⟨hsent, y, hy, hchunk, hrest, hplaced, hseen, hlast⟩ :=
    State.chunkCommitted_shows ((State.streamBy_congr hstreams _).trans hx) w k tr rest
  rw [State.chunkPlace_frames] at hseen
  have hquiet : ((s.chunkPlace x k tr).2.chunkCommitted w x k tr rest).rt.reqs = [] :=
    (congrArg RtSt.reqs (State.chunkCommitted_rt _ w x k tr rest)).trans (hnone hreqs)
  refine ⟨_, y, ?_, hy, hchunk, hrest, hplaced, hseen, hlast, by simpa [hmore] using hsent⟩
  rw [exec_importChunkCommit_eq hof hst hseeds hready, if_neg (by omega), if_neg (by simp [hmore]), State.pump_of_noReqs hquiet]

/-- The last chunk of an import ends its stream. -/
theorem exec_importChunkCommit_final (hwhole : (s.chunkPlace x k tr).1 = (s.chunkLines x k tr).length) (hfinal : trFinal tr = true) :
    ∃ t, exec (.importChunkCommit w) s = .next t ∧ t.ce.streams.all (fun y => y.slot != x.slot) = true ∧
      Output.other 6 [k, w.val + 8192] ∈ t.out := by
  obtain ⟨hstreams, hnone⟩ := s.chunkPlace_commitStep x k tr
  obtain ⟨hsent, y, hy, -⟩ := State.chunkCommitted_shows ((State.streamBy_congr hstreams _).trans hx) w k tr rest
  have hended : Same 282712028013066 _ (((s.chunkPlace x k tr).2.chunkCommitted w x k tr rest).streamEnd x.slot 0) :=
    State.streamEnd_keeps rfl (Same.refl _ ((s.chunkPlace x k tr).2.chunkCommitted w x k tr rest))
  have hquiet : (((s.chunkPlace x k tr).2.chunkCommitted w x k tr rest).streamEnd x.slot 0).rt.reqs = [] :=
    (congrArg RtSt.reqs ((hended.rt rfl).trans (State.chunkCommitted_rt _ w x k tr rest))).trans (hnone hreqs)
  refine ⟨((s.chunkPlace x k tr).2.chunkCommitted w x k tr rest).streamEnd x.slot 0, ?_, ?_,
    State.streamEnd_grows _ _ _ (by simpa [hfinal] using hsent)⟩
  · rw [exec_importChunkCommit_eq hof hst hseeds hready, if_neg (by omega), if_pos hfinal, State.pump_of_noReqs hquiet]
  · rw [State.streamEnd_streams hy]
    simp

end
end

end Sys2Proof.Machine
end

section
/-! The commands of the cipher engine (10_cipher_engine.md). -/

set_option autoImplicit false

namespace Sys2Proof.Machine

/-- Settles O16: each command is one step of the engine on its state; the writes to a window and the commit go through the lemmas about
the stage, and the commit by what the placing of lines leaves (`State.CommitStep`). -/
theorem cipherCommands : Obligations.CipherCommands := by
  unfold Obligations.CipherCommands
  refine ⟨?_, ?_, ?_, ?_, ?_, ?_, ?_, ?_, ?_, ?_⟩
  case refine_1 => exact fun q rest s => exec_keyDerivationDone_shows
  case refine_2 => exact fun slot s => exec_slotFreed_shows
  case refine_3 => exact fun n slot rot s => exec_rotationRecordWritten_shows
  case refine_4 =>
    refine fun s hlive => ⟨⟨_, exec_entropyHealthTest_passed hlive, rfl⟩, fun hfew => ?_, exec_entropyHealthTest_fails hlive⟩
    refine ⟨s.entropyMissed, (exec_entropyHealthTest_missed hlive).trans (congrArg _ (if_neg (by omega))), State.regsAre_of_eq rfl, ?_⟩
    rfl
  case refine_5 => exact fun s => exec_entropyRetry_recovers
  case refine_6 =>
    refine fun s hok => ⟨fun hlive => ⟨_, exec_drbgReseed_live hok hlive, ?_, State.regsAre_of_eq rfl⟩, exec_drbgReseed_stops hok⟩
    rfl
  case refine_7 =>
    intro w x s hof hx hdue
    have hput : ((s.linesRead (x.first + x.chunk * 16384) (s.exportLines x).length).keyUse x.slot).streamPuts x.slot
        (s.frameLinesOf x (s.exportLines x)) = s.exportPut x := rfl
    dsimp only
    rw [hput]
    rcases hroom : s.exportPut x with _ | u
    · exact ⟨s, exec_exportChunkProduce_full hof hdue hroom, rfl⟩
    · obtain ⟨y, hy, hbare⟩ := State.exportPut_stream hx hroom
      exact ⟨_, exec_exportChunkProduce_put hof hdue hroom, State.chunkProduced_shows hy hbare⟩
  case refine_8 =>
    intro port tag line d n x s hcredit hboot hfence hwritable hreqs hregion hport hxfer hof hx hdir hst htakes hoff
    refine ⟨?_, ?_, ?_⟩
    · exact exec_importLineWrite_shows hcredit hboot hfence hwritable hreqs hregion hport hxfer hof hx hdir hst htakes hoff tag d
    · exact exec_importTrailer_early hcredit hboot hfence hwritable hreqs hregion hport hxfer hof hx hdir hst htakes hoff tag d
    · exact exec_importTrailer_ready hcredit hboot hfence hwritable hreqs hregion hport hxfer hof hx hdir hst htakes hoff tag d rfl rfl
  case refine_9 =>
    intro w x k tr rest s hreqs hof hx hst hseeds hready
    refine ⟨?_, ?_, ?_⟩
    · exact exec_importChunkCommit_whole hreqs hof hx hst hseeds hready
    · exact exec_importChunkCommit_final hreqs hof hx hst hseeds hready
    · exact exec_importChunkCommit_partial hreqs hof hx hst hseeds hready
  case refine_10 => exact fun path s => exec_katRun_shows

end Sys2Proof.Machine
end

section
/-! SUPPORT. The mailbox commands over keys and sealed streams (10_cipher_engine.md R317–R325, 11_twin_pair.md R345,
12_host_ports.md R385). -/

set_option autoImplicit false

namespace Sys2Proof.Machine

/-! ### Commands of the manager port -/

section
variable {p : Fin 8} {s : State} (hmgr : s.managerMail p)
include hmgr

theorem State.mgrCmd_manager (f : State → State) : s.mgrCmd p f = .next (f s) := by
  obtain ⟨hmail, hrole⟩ := hmgr
  simp [State.mgrCmd, hmail, hrole]

theorem State.hostCmd_manager (f : State → State) : s.hostCmd p f = .next (f s) := by
  obtain ⟨hmail, hrole⟩ := hmgr
  simp [State.hostCmd, hmail, hrole]

theorem State.regionCmd_manager (n : Nat) (f : State → State) : s.regionCmd p n f = .next (f s) := by
  obtain ⟨hmail, hrole⟩ := hmgr
  simp [State.regionCmd, hmail, hrole]

theorem State.streamCmd_manager {h : Nat} {x : Stream} (hx : s.streamBy h = some x) (f : State → Stream → State) :
    s.streamCmd p h f = .next (f s x) := by
  unfold State.streamCmd
  rw [hx]
  exact State.regionCmd_manager hmgr x.window _

end

theorem State.done_replied (s : State) (p : Fin 8) (ws : List Nat) : (s.done p ws).replied p .success 0 ws :=
  s.mbox_replied p.isLt .success 0 ws

theorem State.done_ce (s : State) (p : Nat) (ws : List Nat) : (s.done p ws).ce = s.ce := by simp [State.done]

/-! ### LOAD_TRANSFER_KEY and LOAD_PAIR_KEY (R319, R345, R385) -/

theorem State.slotCountShow_ce (s : State) : s.slotCountShow.ce = s.ce := rfl

theorem State.keySlotTake_keySlot (s : State) (n kind label holder : Nat) : (s.keySlotTake n kind label holder).keySlot n =
    { KeySlot.free with st := 1, kind := kind, label := label, holder := holder } := by
  unfold State.keySlotTake
  rw [State.keySlot_congr (State.slotCountShow_ce _), State.keySlot_keyMod, if_pos rfl]

/-- A transfer key takes a free slot, and the answer names it. -/
theorem State.transferKey_shows (s : State) (p : Fin 8) {k : Nat} (hfree : s.keySlotFree false = some k) (key : BitVec 256) :
    (s.transferKey p key.toNat).replied p .success 0 [k] ∧ ((s.transferKey p key.toNat).keySlot k).st = 2 ∧
      ((s.transferKey p key.toNat).keySlot k).kind = 5 ∧ ((s.transferKey p key.toNat).keySlot k).key = key.toNat := by
  obtain ⟨hst, hkey, hkind⟩ := (s.keySlotTake k 5 0 0).keyLoad_shows k key.isLt
  have heq : s.transferKey p key.toNat = ((s.keySlotTake k 5 0 0).keyLoad k key.toNat).done p [k] := by
    unfold State.transferKey
    rw [hfree]
  rw [heq, State.keySlot_congr (State.done_ce _ _ _)]
  refine ⟨State.done_replied _ p _, hst, hkind.trans ?_, hkey⟩
  rw [State.keySlotTake_keySlot]

theorem State.fixSlot_shows (s : State) (n kind : Nat) (key : BitVec 256) :
    ((s.fixSlot n kind key.toNat).keySlot n).st = 2 ∧ ((s.fixSlot n kind key.toNat).keySlot n).key = key.toNat := by
  obtain ⟨hst, hkey, -⟩ := (s.keyMod n fun _ => { KeySlot.free with kind := kind }).keyLoad_shows n key.isLt
  exact ⟨hst, hkey⟩

theorem State.wrapKey_ce (s : State) (area key : Nat) : (s.wrapKey area key).ce = s.ce := by simp [State.wrapKey]

theorem State.pairKey_of_slot {s : State} {key : Nat} (hst : (s.keySlot 3).st = 2) (hkey : (s.keySlot 3).key = key) :
    s.pairKey = some key := by
  rw [State.pairKey, if_pos hst, hkey]

section
variable {p : Fin 8} {id : Nat} {s : State} (hmgr : s.managerMail p) (hsecured : s.session p id = true) (hlive : s.retired = false)
include hmgr hsecured hlive

theorem exec_loadTransferKey_shows {k : Nat} (hfree : s.keySlotFree false = some k) (key : BitVec 256) :
    ∃ t, exec (.loadTransferKey p (.clear (some id) key)) s = .next t ∧ t.replied p .success 0 [k] ∧ (t.keySlot k).st = 2 ∧
      (t.keySlot k).kind = 5 ∧ (t.keySlot k).key = key.toNat := by
  refine ⟨s.transferKey p key.toNat, ?_, s.transferKey_shows p hfree key⟩
  show execLoadTransferKey p (.clear (some id) key) s = _
  rw [execLoadTransferKey, State.mgrCmd_manager hmgr, if_neg (by simp [hlive])]
  dsimp only
  rw [if_pos (by simpa using hsecured)]

theorem exec_loadPairKey_shows (key : BitVec 256) :
    ∃ t, exec (.loadPairKey p (some id) key) s = .next t ∧ t.replied p .success 0 [] ∧ t.pairKey = some key.toNat := by
  obtain ⟨hst, hkey⟩ := s.fixSlot_shows 3 2 key
  have hce : (((s.fixSlot 3 2 key.toNat).slotCountShow.wrapKey 8 key.toNat).done p []).ce = (s.fixSlot 3 2 key.toNat).ce := by
    rw [State.done_ce, State.wrapKey_ce, State.slotCountShow_ce]
  rw [← State.keySlot_congr hce] at hst hkey
  refine ⟨_, ?_, State.done_replied _ p _, State.pairKey_of_slot hst hkey⟩
  show execLoadPairKey p (some id) key s = _
  rw [execLoadPairKey, State.mgrCmd_manager hmgr, if_neg (by simp [hsecured]), if_neg (by simp [hlive])]

end

/-! ### STREAM_OPEN (R317, R319) -/

/-- The context that the STREAM key of an opened stream is derived with, from a nonce of the DRBG. -/
def State.openCtx (s : State) (w tag : Nat) : Nat := streamCtx false w tag (Config.drbg s.ce.drbg % 2 ^ 64)

/-- The stream that an open makes: out of the device, from the first line of the range, not yet run. -/
def State.openedStream (s : State) (p w k tag first count : Nat) : Stream :=
  ⟨w, 0, 3, 0, k, first, count, p, 0, none, 0, 0, [], [], [], 0, tag, Config.drbg s.ce.drbg % 2 ^ 64⟩

/-- An open takes the slot k for a STREAM key and starts its derivation from the transfer key of another slot (R319). -/
def State.streamOpened (s : State) (p w slot k tag first count : Nat) : State :=
  let t := ((s.drbgTake.2).keySlotTake k 6 (s.openCtx w tag) 0).derive ⟨k, .stream k, 2, some slot, s.openCtx w tag⟩
  { t with ce.streams := s.ce.streams ++ [s.openedStream p w k tag first count] }

theorem State.streamOpened_ce (s : State) (p w slot k tag first count : Nat) :
    (s.streamOpened p w slot k tag first count).ce.streams = s.ce.streams ++ [s.openedStream p w k tag first count] ∧
      (s.streamOpened p w slot k tag first count).ce.derives =
        s.ce.derives ++ [⟨k, .stream k, 2, some slot, s.openCtx w tag⟩] := ⟨rfl, rfl⟩

theorem exec_streamOpen_free {p : Fin 8} {w : Fin 16} {slot : Fin 4096} {first : BitVec 38} {count : BitVec 39} {k : Nat} {s : State}
    (hmgr : s.managerMail p) (hlive : s.retired = false) (hdrbg : s.bit F.CE_STS.DRBG_OK = true) (hen : s.bit (F.RT_RG_CTL.EN w) = true)
    (hxfer : s.bit (F.RT_RG_CTL.XFER w) = true) (hkind : (s.keySlot slot).kind = 5) (hst : (s.keySlot slot).st = 2)
    (hrange : s.streamRange p first.toNat count.toNat = true) (hfree : s.keySlotFree false = some k) (tag : Word) :
    exec (.streamOpen p w false slot tag first count) s = .next
      ((s.streamOpened p w slot k tag.toNat first.toNat count.toNat).done p [Config.drbg s.ce.drbg % 2 ^ 64, k]) := by
  show execStreamOpen p w false slot tag first count s = _
  rw [execStreamOpen, State.regionCmd_manager hmgr]
  dsimp only
  rw [if_neg (by simp [hlive]), if_neg (by simp [hen, hxfer, hkind, hst, hrange]), if_neg (by simp [hdrbg]), hfree]
  rfl

/-! ### A stream becomes active (R317, R320, R321) -/

theorem State.streamActive_shows {s : State} {x : Stream} (hx : s.streamBy x.slot = some x) (p place : Nat) :
    (s.streamActive x p place).out = s.out ∧ ∃ y, (s.streamActive x p place).streamBy x.slot = some y ∧ y.port = p ∧ y.place = place ∧
      y.st = if (s.keySlot x.slot).st = 2 then 1 else 4 := by
  have hmod := State.streamBy_streamMod hx
    (f := fun y => { y with st := if (s.keySlot y.slot).st = 2 then 1 else 4, port := p, place := place }) fun _ => rfl
  refine ⟨State.setBit_out _ _ _, { x with st := if (s.keySlot x.slot).st = 2 then 1 else 4, port := p, place := place }, ?_, rfl, rfl, rfl⟩
  unfold State.streamActive
  rw [State.streamBy_of_ce (State.setBit_ce _ _ _), hmod]

/-- A stream that a command of the port runs in the background: the port is answered, and the stream holds a place. -/
theorem State.streamStarted_shows {s : State} {h : Nat} {x : Stream} (hx : s.streamBy h = some x) (p : Fin 8) (place : Nat) :
    ((s.bgStart p).streamActive x p place).replied p .background 0 [] ∧
      ∃ y, ((s.bgStart p).streamActive x p place).streamBy h = some y ∧ y.port = p.val ∧ y.place = place ∧
        y.st = if (s.keySlot h).st = 2 then 1 else 4 := by
  obtain ⟨hreplied, -, -, hce, -⟩ := s.bgStart_shows p.isLt
  obtain rfl : x.slot = h := State.streamBy_slot hx
  obtain ⟨hout, hactive⟩ := State.streamActive_shows ((State.streamBy_of_ce hce _).trans hx) p place
  rw [State.keySlot_congr hce] at hactive
  exact ⟨(OutGrows.of_eq hout).replied hreplied, hactive⟩

/-! ### The commands on a stream (R317, R320–R325) -/

section
variable {p : Fin 8} {x : Stream} {s : State} (hmgr : s.managerMail p)
include hmgr

theorem exec_streamRun_shows {h : Fin 4096} {k : Nat} (hx : s.streamBy h = some x) (hopen : x.st = 3)
    (hidle : s.hp.bg.contains p.val = false) (hfree : s.windowBusy x.window = false) (hplace : s.streamPlace = some k) :
    ∃ t y, exec (.streamRun p h) s = .next t ∧ t.replied p .background 0 [] ∧ t.streamBy h = some y ∧ y.port = p.val ∧ y.place = k ∧
      y.st = if (s.keySlot h).st = 2 then 1 else 4 := by
  obtain ⟨hreplied, y, hy⟩ := State.streamStarted_shows hx p k
  refine ⟨(s.bgStart p).streamActive x p k, y, ?_, hreplied, hy⟩
  show execStreamRun p h s = _
  rw [execStreamRun, State.streamCmd_manager hmgr hx, if_neg (by simp only [hidle, hfree]; decide), hplace]
  exact congrArg Host.Outcome.next (if_pos hopen)

/-- A stream parked: its next save counted, and the command that ran it ends with PARKED (R324). -/
def State.streamParked (s : State) (x : Stream) (wr : Bool) : State :=
  (((if wr then s.keyUse 2 else s).streamMod x.slot (fun y => { y with st := 2, saves := y.saves + 1 })).setBit
    (F.RT_RG_STS.EXPORT x.window) false).bgDone x.port .aborted Ext.PARKED []

omit hmgr in
theorem State.streamParked_stream (hx : s.streamBy x.slot = some x) (wr : Bool) :
    (s.streamParked x wr).streamBy x.slot = some { x with st := 2, saves := x.saves + 1 } := by
  have hused : (if wr then s.keyUse 2 else s).ce.streams = s.ce.streams := by
    split
    · exact (s.keyUse_keyStep 2).streams
    · rfl
  have hmod := State.streamBy_streamMod ((State.streamBy_congr hused _).trans hx) (f := fun y => { y with st := 2, saves := y.saves + 1 })
    fun _ => rfl
  unfold State.streamParked
  rw [State.streamBy_of_ce ((State.bgDone_same _ _ _ _ _).ce rfl), State.streamBy_congr
    (congrArg CeSt.streams (State.setBit_ce _ _ _)), hmod]

theorem exec_streamSave_shows {h : Fin 4096} {wr : Bool} (hx : s.streamBy h = some x) (hrun : x.st = 1) (hform : s.formOk wr = true)
    (hfew : (s.ce.streams.filter (fun (y : Stream) => y.st == 2)).length < 64) :
    ∃ t y, exec (.streamSave p h wr) s = .next t ∧ t.replied p .success 0 (s.streamRecord x wr) ∧ t.streamBy h = some y ∧ y.st = 2 ∧
      y.saves = x.saves + 1 := by
  have hslot : x.slot = h := State.streamBy_slot hx
  have hparked := State.streamParked_stream (x := x) (hslot.symm ▸ hx) wr
  rw [hslot] at hparked
  refine ⟨(s.streamParked x wr).done p (s.streamRecord x wr), _, ?_, State.done_replied _ p _,
    (State.streamBy_of_ce (State.done_ce _ _ _) _).trans hparked, rfl, rfl⟩
  show execStreamSave p h wr s = _
  rw [execStreamSave, State.streamCmd_manager hmgr hx, if_neg (by simp [hform]), if_neg (by simp [hrun]), if_neg (by omega)]
  rfl

theorem exec_streamRestore_shows {h k : Nat} {rec : List Word} {ws : List Nat} (hx : s.streamBy h = some x)
    (hlen : rec.length = 544 ∨ rec.length = 546) (hform : s.formOk (rec.length == 546) = true) (hrec : s.recordOpen rec = some ws)
    (hboot : ws.getD 0 0 + 2 ^ 32 * ws.getD 1 0 + 2 ^ 64 * ws.getD 2 0 + 2 ^ 96 * ws.getD 3 0 = s.ce.bootNonce)
    (hhandle : ws.getD 5 0 % 4096 = h) (hsaves : ws.getD 6 0 = x.saves) (hparked : x.st = 2) (hfree : s.windowBusy x.window = false)
    (hidle : s.hp.bg.contains p.val = false) (hplace : s.streamPlace = some k) :
    ∃ t y, exec (.streamRestore p rec) s = .next t ∧ t.replied p .background 0 [] ∧ t.streamBy h = some y ∧ y.port = p.val ∧
      y.place = k ∧ y.st = if (s.keySlot h).st = 2 then 1 else 4 := by
  obtain ⟨hreplied, y, hy⟩ := State.streamStarted_shows hx p k
  refine ⟨(s.bgStart p).streamActive x p k, y, ?_, hreplied, hy⟩
  have hfound : (s.streamBy h).filter (fun x => x.st == 2 && x.saves == ws.getD 6 0) = some x := by
    rw [hx, hsaves]
    simp [hparked]
  show execStreamRestore p rec s = _
  rw [execStreamRestore, State.hostCmd_manager hmgr, if_neg (by omega), if_neg (by simp [hform]), hrec]
  dsimp only
  rw [if_neg (not_not.mpr hboot), hhandle, hfound]
  dsimp only
  rw [if_neg (by simp [hmgr.2]), if_neg (by simp only [hfree, hidle]; decide), hplace]

theorem exec_streamAbort_shows {h : Fin 4096} (hx : s.streamBy h = some x) :
    ∃ t, exec (.streamAbort p h) s = .next t ∧ t.replied p .success 0 [] ∧
      t.ce.streams = s.ce.streams.filter (fun y => y.slot != h.val) := by
  have hslot : x.slot = h := State.streamBy_slot hx
  have hsent := s.chunkPacket_same x.window x.chunk 6 false
  refine ⟨(s.streamAbort x).done p [], State.streamCmd_manager hmgr hx _, State.done_replied _ p _, ?_⟩
  rw [State.done_ce, State.streamAbort, hslot,
    State.streamEnd_streams ((State.streamBy_of_ce (hsent.ce rfl) _).trans hx), hsent.ce rfl]

end

end Sys2Proof.Machine
end

section
/-! SUPPORT. The mailbox commands over the Roll book and the parameters (12_host_ports.md R385, 16_parameter_store_and_roll_book.md R475,
R482, R491). -/

set_option autoImplicit false

namespace Sys2Proof.Machine

/-! ### The block-specific registers of a page but the store's own, through an operation of the store -/

section
variable {o : Nat} (ho : 0x100 ≤ o % 0x1000)
include ho

theorem State.pcAdd_rd (s : State) (p k n : Nat) : (s.pcAdd p k n).rd o = s.rd o := by
  have hlo : o ≠ R.PC_CNT p (2 * k) := by unfold R.PC_CNT; omega
  have hhi : o ≠ R.PC_CNT p (2 * k) + 4 := by unfold R.PC_CNT; omega
  have hctl : o ≠ R.PC_WIN_CTL p := by unfold R.PC_WIN_CTL; omega
  have hcnt (v : Nat) : (s.wr64 (R.PC_CNT p (2 * k)) v).rd o = s.rd o := (State.rd_wr_ne _ _ hhi).trans (State.rd_wr_ne _ _ hlo)
  unfold State.pcAdd
  dsimp only
  split
  · exact (State.rd_set_ne _ _ _ hctl).trans (hcnt _)
  · exact hcnt _

theorem State.pcEvent_rd (s : State) (p ev n : Nat) : (s.pcEvent p ev n).rd o = s.rd o := by
  refine foldl_eq (fun t : State => t.rd o) (fun t k => ?_) _ _
  dsimp only
  split
  · split
    · rfl
    · exact t.pcAdd_rd ho p k n
  · rfl

theorem State.emit_rd (s : State) (a : Output) : (s.emit a).rd o = s.rd o := by
  have htwo (t : State) (p q : Nat) : ((t.pcEvent p 3 1).pcEvent q 3 1).rd o = t.rd o :=
    (State.pcEvent_rd ho _ _ _ _).trans (State.pcEvent_rd ho _ _ _ _)
  unfold State.emit State.pcOut
  split
  · exact State.pcEvent_rd ho _ _ _ _
  · exact State.pcEvent_rd ho _ _ _ _
  · exact State.pcEvent_rd ho _ _ _ _
  · exact htwo _ _ _
  · exact htwo _ _ _
  · rfl

theorem State.pstAnswer_rd (s : State) : s.pstAnswer.rd o = s.rd o := foldl_eq (fun t : State => t.rd o) (fun t _ => t.emit_rd ho _) _ _

variable (hsts : o ≠ R.PST_STS) (hsupply : o ≠ R.PST_SUPPLY)
include hsts hsupply

omit ho in
theorem State.pstCheck_rd (s : State) : s.pstCheck.rd o = s.rd o := by
  have hlatch : s.supplyLatch.rd o = s.rd o := by rw [State.supplyLatch, State.rd_set_ne _ _ _ hsupply, State.rd_set_ne _ _ _ hsupply]
  unfold State.pstCheck
  split
  · rw [State.rd_setBit_ne _ _ _ hsts]
  · extract_lets t
    split
    · rw [State.rd_pst, State.rd_setBit_ne _ _ _ hsts, State.rd_setBit_ne _ _ _ hsts, hlatch]
    · rw [State.rd_pst, State.rd_setBit_ne _ _ _ hsts, hlatch]

theorem State.pstNextN_rd (n : Nat) (s : State) : (State.pstNextN n s).rd o = s.rd o := by
  induction n generalizing s with
  | zero => rfl
  | succ n ih =>
    unfold State.pstNextN
    split
    · rfl
    split
    · rw [State.pstAnswer_rd ho, State.rd_setBit_ne _ _ _ hsts]
    · extract_lets steps
      split
      · exact ih _
      · exact (State.pstAnswer_rd ho _).trans (State.pstCheck_rd hsts hsupply _)

/-- An operation asked of the store writes no block-specific register but the store's status and supply. -/
theorem State.pstAdd_rd (s : State) (j : PstJob) : (s.pstAdd j).rd o = s.rd o := by
  have hcount (t : State) : (t.pcEvent 4 2 1).rd o = t.rd o := t.pcEvent_rd ho 4 2 1
  unfold State.pstAdd
  extract_lets op p t
  have ht : t.rd o = s.rd o := hcount _
  split
  · exact (State.pstNextN_rd ho hsts hsupply _ _).trans ht
  · split
    · exact (State.pstNextN_rd ho hsts hsupply _ _).trans ht
    · exact ht

end

/-! ### ROLL_BOOK_ARCHIVE_AND_CLEAR (R491) -/

/-- Rows asked of the store to be erased. -/
def State.rowsErase (s : State) (rows : List Nat) : State := rows.foldl (fun s r => s.pstAdd (.pingPong r)) s

theorem State.rowsErase_same (s : State) (rows : List Nat) : Same 4362076426 s (s.rowsErase rows) :=
  same_foldl (Same.refl _ s) fun _ _ h => State.pstAdd_keeps rfl h

theorem State.rowsErase_grows (s : State) (rows : List Nat) : OutGrows s (s.rowsErase rows) :=
  foldl_grows (fun s r => s.pstAdd_grows (.pingPong r)) rows s

theorem State.rowsErase_rd (s : State) (rows : List Nat) {o : Nat} (ho : 0x100 ≤ o % 0x1000) (hsts : o ≠ R.PST_STS)
    (hsupply : o ≠ R.PST_SUPPLY) : (s.rowsErase rows).rd o = s.rd o :=
  foldl_eq (fun t : State => t.rd o) (fun t _ => t.pstAdd_rd ho hsts hsupply _) rows s

/-- The head of the Roll book moved to a row, and kept in area 4. -/
def State.rollHead (s : State) (row : Nat) : State :=
  ((s.wrN R.RB_HEAD (8 * row)).setBit F.RB_STS.CLEARING true).pstAdd (.record 4 [BitVec.ofNat 32 row])

theorem State.rollHead_shows (s : State) {row : Nat} (hrow : row < 1024) :
    (s.rollHead row).num R.RB_HEAD = 8 * row ∧ (s.rollHead row).bit F.RB_STS.CLEARING = true := by
  have hadd {o : Nat} (ho : 0x100 ≤ o % 0x1000) (hsts : o ≠ R.PST_STS) (hsupply : o ≠ R.PST_SUPPLY) :
      (s.rollHead row).rd o = ((s.wrN R.RB_HEAD (8 * row)).setBit F.RB_STS.CLEARING true).rd o := State.pstAdd_rd ho hsts hsupply _ _
  constructor
  · have hhead : (s.rollHead row).rd R.RB_HEAD = (s.wrN R.RB_HEAD (8 * row)).rd R.RB_HEAD :=
      (hadd (by decide) (by decide) (by decide)).trans (State.rd_setBit_ne _ _ _ (by decide))
    exact (congrArg BitVec.toNat hhead).trans ((State.num_wrN_mod s R.RB_HEAD (8 * row)).trans (Nat.mod_eq_of_lt (by omega)))
  · have hbit : (s.rollHead row).bit F.RB_STS.CLEARING =
        ((s.wrN R.RB_HEAD (8 * row)).setBit F.RB_STS.CLEARING true).bit F.RB_STS.CLEARING :=
      congrArg (fun v => fldOf F.RB_STS.CLEARING v != 0) (hadd (o := R.RB_STS) (by decide) (by decide) (by decide))
    exact hbit.trans (State.bit_setBit_self _ _ _ (by decide) (by decide))

/-- The rows of a clear, oldest first, from the head in ring order. -/
def clearRows (head n : Nat) : List Nat := (List.range (n / 8)).map (fun k => (head / 8 + k) % 1024)

/-- The rows of a clear noted with its last slot, for the port that asked. -/
def State.clearMarked (s : State) (p : Nat) (rows : List Nat) (freed last : Nat) : State :=
  { s with rb.clearing := some (rows, freed, last), hp.archiver := some p }

theorem State.clearMarked_rd (s : State) (p : Nat) (rows : List Nat) (freed last o : Nat) :
    (s.clearMarked p rows freed last).rd o = s.rd o := rfl

/-- A clear begun on port p: the head moves past the rows, and the rows are asked to be erased (R491). -/
def State.clearBegun (s : State) (p head n last : Nat) : State :=
  (((s.bgStart p).rbClose.rollHead ((head / 8 + n / 8) % 1024)).clearMarked p (clearRows head n) (n / 8) last).rowsErase (clearRows head n)

theorem State.rollHead_grows (s : State) (row : Nat) : OutGrows s (s.rollHead row) :=
  (State.pstAdd_grows _ _).after (State.setBit_out _ _ _)

theorem State.clearBegun_shows (s : State) (p : Fin 8) (head n last : Nat) : (s.clearBegun p head n last).replied p .background 0 [] ∧
    (s.clearBegun p head n last).num R.RB_HEAD = 8 * ((head / 8 + n / 8) % 1024) ∧
    (s.clearBegun p head n last).bit F.RB_STS.CLEARING = true ∧ (s.clearBegun p head n last).hp.archiver = some p.val ∧
    (s.clearBegun p head n last).rb.clearing = some (clearRows head n, n / 8, last) := by
  obtain ⟨hreplied, -⟩ := s.bgStart_shows p.isLt
  obtain ⟨hhead, hbit⟩ := (s.bgStart p).rbClose.rollHead_shows (Nat.mod_lt (head / 8 + n / 8) (by decide))
  have hgrows : OutGrows (s.bgStart p) ((s.bgStart p).rbClose.rollHead ((head / 8 + n / 8) % 1024)) :=
    (State.rollHead_grows _ _).after (by simp)
  unfold State.clearBegun
  generalize (s.bgStart p).rbClose.rollHead ((head / 8 + n / 8) % 1024) = moved at hhead hbit hgrows ⊢
  have hrows := (moved.clearMarked p (clearRows head n) (n / 8) last).rowsErase_same (clearRows head n)
  have hrd {o : Nat} (ho : 0x100 ≤ o % 0x1000) (hsts : o ≠ R.PST_STS) (hsupply : o ≠ R.PST_SUPPLY) :
      ((moved.clearMarked p (clearRows head n) (n / 8) last).rowsErase (clearRows head n)).rd o = moved.rd o :=
    (State.rowsErase_rd _ _ ho hsts hsupply).trans (moved.clearMarked_rd _ _ _ _ _)
  have hout : OutGrows moved ((moved.clearMarked p (clearRows head n) (n / 8) last).rowsErase (clearRows head n)) :=
    (State.rowsErase_grows _ _).after rfl
  refine ⟨(hgrows.trans hout).replied hreplied, ?_, ?_, ?_, ?_⟩
  · exact (congrArg BitVec.toNat (hrd (by decide) (by decide) (by decide))).trans hhead
  · exact (congrArg (fun v => fldOf F.RB_STS.CLEARING v != 0) (hrd (o := R.RB_STS) (by decide) (by decide) (by decide))).trans hbit
  · exact congrArg HpSt.archiver (hrows.hp rfl)
  · exact congrArg RbSt.clearing (hrows.rb rfl)

section
variable {p : Fin 8} {s : State} (hmgr : s.managerMail p)
include hmgr

theorem exec_rollBookArchiveAndClear_begins {last : Fin 8192} {n : Nat} (hidle : s.hp.bg.contains p.val = false)
    (hfree : s.rb.clearing = none) (hn : (last.val + 8192 - s.num R.RB_HEAD % 8192) % 8192 + 1 = n) (hcount : n ≤ s.num R.RB_COUNT)
    (hrow : 8 ≤ n) : exec (.rollBookArchiveAndClear p last) s = .next (s.clearBegun p (s.num R.RB_HEAD) n last) := by
  have hrows : ¬((List.range (n / 8)).map (fun k => (s.num R.RB_HEAD / 8 + k) % 1024)).isEmpty = true := by
    simp only [List.isEmpty_iff, List.map_eq_nil_iff, List.range_eq_nil]
    omega
  show execRollBookArchiveAndClear p last s = _
  rw [execRollBookArchiveAndClear, State.mgrCmd_manager hmgr]
  dsimp only
  rw [hn, if_neg (by simp only [hidle, hfree]; decide), if_neg (by omega), if_neg hrows]
  rfl

/-! ### ROLL_BOOK_READ, PARAMETER_READ and PARAMETER_WRITE (R385, R475, R482) -/

theorem exec_rollBookRead_manager (first : Fin 8192) (count : Fin 257) : exec (.rollBookRead p first count) s =
    .next (s.done p ((List.range (min count.val (s.num R.RB_COUNT - (first.val + 8192 - s.num R.RB_HEAD % 8192) % 8192))).flatMap
      (fun k => s.rbSlot ((first.val + k) % 8192)))) := by
  show execRollBookRead p first count s = _
  rw [execRollBookRead, State.mgrCmd_manager hmgr]

theorem exec_parameterRead_manager {addr : BitVec 17} {count : Fin 2049} (hend : addr.toNat + count.val ≤ 2 ^ 17) :
    exec (.parameterRead p addr count) s =
      .next (s.done p ((List.range count).map (fun k => (sget erasedWord s.pst.words (addr.toNat + k)).toNat))) := by
  show execParameterRead p addr count s = _
  rw [execParameterRead, State.mgrCmd_manager hmgr, if_neg (by omega)]

theorem exec_parameterWrite_shows {addr : BitVec 17} {ws d : List Word} {c : PstOp} (hlow : 1446 ≤ addr.toNat / 64)
    (hhigh : addr.toNat / 64 ≤ 1461) (hsome : ws ≠ []) (hlen : ws.length ≤ 16) (hfit : addr.toNat % 64 + ws.length ≤ 62)
    (hconfig : s.configOf ((addr.toNat / 64 - 1446) / 2) = some d) (hcur : s.pst.cur = some c) (herase : c.job.isErase = false) :
    ∃ t, exec (.parameterWrite p addr ws) s = .next t ∧ t.replied p .success 0 [] ∧ t.pst.queue = s.pst.queue ++
      [⟨.config ((addr.toNat / 64 - 1446) / 2) (d.take (addr.toNat % 64) ++ ws ++ d.drop (addr.toNat % 64 + ws.length)) false, [],
        false, false⟩] := by
  refine ⟨(s.pstAdd (.config ((addr.toNat / 64 - 1446) / 2)
    (d.take (addr.toNat % 64) ++ ws ++ d.drop (addr.toNat % 64 + ws.length)) false)).done p [], ?_, State.done_replied _ p _, ?_⟩
  · have hform : ¬(addr.toNat / 64 < 1446 ∨ 1461 < addr.toNat / 64 ∨ ws = [] ∨ 16 < ws.length ∨ 62 < addr.toNat % 64 + ws.length) := by
      simp only [hsome, false_or]
      omega
    show execParameterWrite p addr ws s = _
    rw [execParameterWrite, State.mgrCmd_manager hmgr]
    dsimp only
    rw [if_neg hform, hconfig]
  · rw [State.done, State.pstAdd_waits hcur herase]
    simp

end

end Sys2Proof.Machine
end

section
/-! The vendor commands over keys, streams, the Roll book and parameters (12_host_ports.md). -/

set_option autoImplicit false

namespace Sys2Proof.Machine

theorem State.done_port (s : State) (p : Fin 8) (ws : List Nat) :
    s.done p ws = (s.emit (.mailbox p .success 0 ws)).bump (R.HP_MBOX_CNT p) := if_pos p.isLt

/-- Settles O28: the manager's command is its body on the state (`State.mgrCmd_manager`); the streams follow through
`State.streamBy_streamMod` and `State.streamEnd_streams`, and the Roll book's registers through the store's queue by `State.pstAdd_rd`. -/
theorem keyStreamAndBookCommands : Obligations.KeyStreamAndBookCommands := by
  unfold Obligations.KeyStreamAndBookCommands
  refine ⟨?keys, ?streamOpen, ?streams, ?bookRead, ?bookClear, ?parameterRead, ?parameterWrite⟩
  case keys =>
    exact fun p id k key s hmgr hsecured hlive =>
      ⟨fun hfree => exec_loadTransferKey_shows hmgr hsecured hlive hfree key, exec_loadPairKey_shows hmgr hsecured hlive key⟩
  case streamOpen =>
    intro p w slot tag first count k s hmgr hlive hdrbg hen hxfer hkind hst hrange hfree
    obtain ⟨hstreams, hderives⟩ := s.streamOpened_ce p w slot k tag.toNat first.toNat count.toNat
    refine ⟨_, s.openedStream p w k tag.toNat first.toNat count.toNat,
      exec_streamOpen_free hmgr hlive hdrbg hen hxfer hkind hst hrange hfree tag, State.done_replied _ p _, ?_, rfl, rfl, rfl, rfl,
      rfl, rfl, rfl,
      ⟨k, .stream k, 2, some slot.val, s.openCtx w tag.toNat⟩, ?_, rfl, rfl⟩
    · rw [State.done_ce, hstreams]
    · rw [State.done_ce, hderives]
  case streams =>
    refine fun p h x s hmgr hx => ⟨?_, ?_, ?_, exec_streamAbort_shows hmgr hx⟩
    · exact fun k hopen hidle hfree hplace => exec_streamRun_shows hmgr hx hopen hidle hfree hplace
    · exact fun wr hrun hform hfew => exec_streamSave_shows hmgr hx hrun hform hfew
    · exact fun rec ws k hlen hform hrec hboot hhandle hsaves hparked hfree hidle hplace =>
        exec_streamRestore_shows hmgr hx hlen hform hrec hboot hhandle hsaves hparked hfree hidle hplace
  case bookRead =>
    exact fun p first count s hmgr => ⟨_, exec_rollBookRead_manager hmgr first count, s.done_port p _⟩
  case bookClear =>
    intro p last s hmgr hidle hfree n hcount hrow
    exact ⟨_, exec_rollBookArchiveAndClear_begins hmgr hidle hfree rfl hcount hrow, s.clearBegun_shows p _ n last⟩
  case parameterRead =>
    exact fun p addr count s hmgr hend => ⟨_, exec_parameterRead_manager hmgr hend, s.done_port p _⟩
  case parameterWrite =>
    exact fun p addr ws d c s hmgr hlow hhigh hsome hlen hfit hconfig hcur herase =>
      exec_parameterWrite_shows hmgr hlow hhigh hsome hlen hfit hconfig hcur herase

end Sys2Proof.Machine
end

section
/-! SUPPORT. The packets of attachment and forwarding: a counterexample to the statement about FWD_RD
(10_cipher_engine.md Table 10.1; 11_twin_pair.md R336). -/
set_option autoImplicit false
namespace Sys2Proof.Machine

/-! ### FWD_RD for a cached line of a region whose keys are gone -/

/-- The device is RETIRED, the link is up, and line 0 of a region with a context is cached (Table 10.1). -/
def cachedLineOfSealedRegion : State :=
  { serviceState [(F.CE_STS.LCS, 2), (F.LC_CTL.EN, 1), (F.CAR_STS.LINK_UP, 1), (F.RT_RG_CTL.EN 0, 1),
      (⟨R.RT_RG_SIZE 0, 0, 32⟩, 1), (F.RT_RG_CTL.CTX_EN 0, 1)] with
    lc.ways := [(0, { Way.none with v := true, data := 0x5A })] }

/-- FWD_RSP is the only packet that leaves; it carries poison and no data. -/
theorem fwdRd_poisoned_in_sealed_region :
    cachedLineOfSealedRegion.leaves (.fwdRd 0 0 0 []) (fun t => t.out == [.caravan ⟨0x12, 0, [1, 0]⟩]) = true := by decide +kernel

/-- Refutes O17: a RETIRED device answers a forwarded read of a region with a context by poison, so FWD_RSP does not carry
the data of the way that holds the line. -/
theorem not_attachAndForwardPackets : ¬ Obligations.AttachAndForwardPackets := by
  unfold Obligations.AttachAndForwardPackets
  rintro ⟨-, -, -, -, -, hforward, -⟩
  obtain ⟨⟨t, fl, hexec, hsent⟩, -⟩ := hforward 0 0 0 0 0 cachedLineOfSealedRegion (by decide +kernel) (by decide +kernel)
    (by decide +kernel) (by decide +kernel) (by decide +kernel) (by decide +kernel) (by decide +kernel) (by decide +kernel)
  have hout : t.out = [.caravan ⟨0x12, 0, [1, 0]⟩] :=
    eq_of_beq (State.test_of_leaves fwdRd_poisoned_in_sealed_region hexec)
  obtain ⟨-, hnone⟩ : fl = 1 ∧ (cachedLineOfSealedRegion.way (lcSet 0) 0).data.toNat = 0 := by simpa [hout] using hsent
  exact absurd hnone (by decide +kernel)

end Sys2Proof.Machine
end

section
/-! SUPPORT. The status registers of the twin pair and its state beside the registers, through the operations of the link, of the
roles and of the failover (11_twin_pair.md R347, R350–R354, R362). -/
set_option autoImplicit false
namespace Sys2Proof.Machine

/-! ### The twin pair's state where an operation leaves it -/

@[simp] theorem State.set_tw (s : State) (f : Fld) (v : Nat) : (s.set f v).tw = s.tw := rfl
@[simp] theorem State.setBit_tw (s : State) (f : Fld) (b : Bool) : (s.setBit f b).tw = s.tw := rfl

theorem State.carGot_same (s : State) : Same 67108872 s s.carGot := State.carGot_keeps rfl (Same.refl _ s)

theorem State.draining_congr {s t : State} (hphase : t.rd R.PSQ_STS = s.rd R.PSQ_STS) (hfc : t.rd R.FC_STS = s.rd R.FC_STS) :
    t.draining = s.draining := by simp only [State.draining, State.bit, State.get, hphase, hfc]

theorem State.carGot_draining (s : State) : s.carGot.draining = s.draining := by
  refine State.draining_congr (s.carGot_same.own _ rfl rfl) ?_
  exact State.when_reads (fun t : State => t.rd R.FC_STS) (s.pcEvent_fcSts 11 2 1)

theorem State.carGot_bit (s : State) {f : Fld} (hf : f.off = R.CAR_STS) : s.carGot.bit f = s.bit f :=
  s.carGot_same.bit (by rw [hf]; rfl) (by rw [hf]; rfl)

theorem State.carGot_carOn (s : State) : s.carGot.carOn = s.carOn := by
  simp only [State.carOn, s.carGot_draining, s.carGot_bit (f := F.CAR_STS.LINK_UP) rfl]

theorem State.car_same (s : State) (typ tag : Nat) (words : List Nat) : Same 67108874 s (s.car typ tag words) :=
  State.car_keeps rfl (Same.refl _ s)

theorem State.linkEvent_same (s : State) (up : Bool) : Same 67109384 s (s.linkEvent up) := State.linkEvent_keeps rfl (Same.refl _ s)

theorem State.keyRelease_same (s : State) (n : Nat) : Same 16384 s (s.keyRelease n) := State.keyRelease_keeps rfl (Same.refl _ s)

/-! ### CAR_STS and CAR_RG_STS -/

/-- CAR_STS and CAR_RG_STS read as in x. -/
def State.pairStsAre (s x : State) : Prop := s.rd R.CAR_STS = x.rd R.CAR_STS ∧ s.rd R.CAR_RG_STS = x.rd R.CAR_RG_STS

theorem State.pairStsAre.refl (s : State) : s.pairStsAre s := ⟨rfl, rfl⟩

theorem State.pairStsAre.trans {s t u : State} (h : s.pairStsAre t) (k : t.pairStsAre u) : s.pairStsAre u :=
  ⟨h.1.trans k.1, h.2.trans k.2⟩

theorem State.pairStsAre.get {s x : State} (h : s.pairStsAre x) {f : Fld} (hf : f.off = R.CAR_STS ∨ f.off = R.CAR_RG_STS) :
    s.get f = x.get f := by
  refine congrArg (fldOf f) ?_
  rcases hf with hf | hf
  · rw [hf, h.1]
  · rw [hf, h.2]

theorem State.pairStsAre.bit {s x : State} (h : s.pairStsAre x) {f : Fld} (hf : f.off = R.CAR_STS ∨ f.off = R.CAR_RG_STS) :
    s.bit f = x.bit f := congrArg (· != 0) (h.get hf)

theorem State.rd_set_congr {s x : State} {o : Nat} (h : s.rd o = x.rd o) (f : Fld) (v : Nat) : (s.set f v).rd o = (x.set f v).rd o := by
  unfold State.set
  rw [State.rd_wr, State.rd_wr]
  split
  · next ho => rw [← ho, h]
  · exact h

theorem State.pairStsAre.set {s x : State} (h : s.pairStsAre x) (f : Fld) (v : Nat) : (s.set f v).pairStsAre (x.set f v) :=
  ⟨State.rd_set_congr h.1 f v, State.rd_set_congr h.2 f v⟩

theorem State.pairStsAre.setBit {s x : State} (h : s.pairStsAre x) (f : Fld) (b : Bool) : (s.setBit f b).pairStsAre (x.setBit f b) :=
  h.set f b.toNat

theorem State.pairStsAre_of_regs {s x : State} (h : s.regs = x.regs) : s.pairStsAre x := by
  unfold State.pairStsAre State.rd
  rw [h]
  exact ⟨rfl, rfl⟩

theorem Same.pairStsAre {m : Nat} {x s : State} (h : Same m x s) (hm : m.testBit 39 = false) : s.pairStsAre x :=
  ⟨h.own _ rfl hm, h.own _ rfl hm⟩

theorem State.wrN_pairSts (s : State) {o : Nat} (v : Nat) (hsts : R.CAR_STS ≠ o) (hrg : R.CAR_RG_STS ≠ o) : (s.wrN o v).pairStsAre s :=
  ⟨State.rd_wrN_ne s v hsts, State.rd_wrN_ne s v hrg⟩

/-! ### The token, the records of a role, the bitmap -/

theorem State.pullToken_same (s : State) (b : Bool) : Same 67174410 s (s.pullToken b) := State.pullToken_keeps rfl (Same.refl _ s)

theorem State.pullToken_tw (s : State) (b : Bool) : (s.pullToken b).tw = { s.tw with pull := b } := by
  unfold State.pullToken
  split
  · next h => rw [← eq_of_beq h]
  · simp

theorem State.holdToken_pairSts (s : State) (b : Bool) : (s.holdToken b).pairStsAre (s.setBit F.CAR_STS.TOKEN_HELD b) :=
  ((s.pullToken_same b).pairStsAre rfl).setBit _ b

theorem State.holdToken_tw (s : State) (b : Bool) : (s.holdToken b).tw = { s.tw with pull := b } := s.pullToken_tw b

theorem State.recordRole_same (s : State) (r : Nat) : Same 4362076426 s (s.recordRole r) := State.recordRole_keeps rfl (Same.refl _ s)

theorem State.recordSolo_same (s : State) : Same 554117890314 s s.recordSolo := State.recordSolo_keeps rfl (Same.refl _ s)

theorem State.recordSolo_pairSts (s : State) : s.recordSolo.pairStsAre s := by
  have hstore (t : State) (j : PstJob) : (t.pstAdd j).pairStsAre t :=
    (State.pstAdd_keeps (m := 4362076426) rfl (Same.refl _ t)).pairStsAre rfl
  unfold State.recordSolo State.recordRole
  exact (((hstore _ _).trans (hstore _ _)).trans (State.wrN_pairSts _ _ (by decide) (by decide))).trans (hstore _ _)

/-- The twin pair's state without the tiles of the bitmap. -/
def TwSt.unmapped (e : TwSt) : TwSt := { e with bmap := [] }

theorem TwSt.unmapped_reads {α : Type} {e e' : TwSt} (h : e.unmapped = e'.unmapped) (φ : TwSt → α)
    (hφ : ∀ e : TwSt, φ e.unmapped = φ e) : φ e = φ e' := (hφ e).symm.trans ((congrArg φ h).trans (hφ e'))

theorem State.bmapSet_unmapped (s : State) (t : Nat) : (s.bmapSet t).tw.unmapped = s.tw.unmapped := by
  unfold State.bmapSet
  split <;> rfl

theorem State.bmapSet_rd (s : State) (t : Nat) {o : Nat} (hlo : o ≠ R.CAR_BMAP_LO) (hhi : o ≠ R.CAR_BMAP_HI) :
    (s.bmapSet t).rd o = s.rd o := by
  unfold State.bmapSet
  split
  · exact (State.rd_wrN_ne _ _ hhi).trans (State.rd_wrN_ne _ _ hlo)
  · rfl

/-! ### The link is down, the attachment ends (R350, R352, R360) -/

/-- What the end of the attachment leaves of the twin pair's state. -/
def TwSt.unpaired (e : TwSt) : TwSt :=
  { e with admitted := false, src := none, tgt := none, tokMove := 0, mwr := [], reps := [], waits := [] }

theorem State.unpair_unmapped (s : State) : s.unpair.tw.unmapped = s.tw.unpaired.unmapped := by
  have hsent (l : List Nat) : (l.foldl State.bmapSet s).tw.unmapped = s.tw.unmapped :=
    foldl_eq (fun t : State => t.tw.unmapped) (fun t a => t.bmapSet_unmapped a) l s
  have hkey (t : State) (n : Nat) : (t.keyRelease n).tw = t.tw := (t.keyRelease_same n).tw rfl
  unfold State.unpair
  extract_lets again t u v
  have ht : t.tw.unmapped = s.tw.unmapped := hsent again
  have hu : u.tw = t.tw := by
    unfold u
    split
    · exact hkey _ _
    · rfl
  have hv : v.tw = u.tw := by
    unfold v
    split
    · exact hkey _ _
    · rfl
  show v.tw.unpaired.unmapped = _
  rw [hv, hu]
  exact congrArg TwSt.unpaired ht

theorem State.unpair_rd (s : State) {o : Nat} (hlo : o ≠ R.CAR_BMAP_LO) (hhi : o ≠ R.CAR_BMAP_HI) (hsync : o ≠ R.CAR_RSYNC) :
    s.unpair.rd o = (s.setBit F.CAR_STS.PAIRED false).rd o := by
  have hsent (l : List Nat) : (l.foldl State.bmapSet s).rd o = s.rd o :=
    foldl_eq (fun t : State => t.rd o) (fun t a => t.bmapSet_rd a hlo hhi) l s
  unfold State.unpair
  extract_lets again t u v
  have hu : u.rd o = t.rd o := by
    unfold u
    split
    · exact State.keyRelease_rd _ _ _
    · rfl
  have hv : v.rd o = u.rd o := by
    unfold v
    split
    · exact State.keyRelease_rd _ _ _
    · rfl
  show ((v.setBit F.CAR_STS.PAIRED false).wrN R.CAR_RSYNC 0).rd o = _
  refine (State.rd_wrN_ne _ _ hsync).trans (State.rd_set_congr ?_ _ _)
  exact (hv.trans hu).trans (hsent again)

theorem State.unpair_pairSts (s : State) : s.unpair.pairStsAre (s.setBit F.CAR_STS.PAIRED false) :=
  ⟨s.unpair_rd (by decide) (by decide) (by decide), s.unpair_rd (by decide) (by decide) (by decide)⟩

theorem State.unpair_same (s : State) : Same 549755895816 s s.unpair := State.unpair_keeps rfl (Same.refl _ s)

end Sys2Proof.Machine
end

section
/-! SUPPORT. The twin pair's registers and its open repairs through the translation engine's journal, the poison table and the lines
that a commit places (04_write_path_and_dirty_budget.md R124; 06_translation_layer.md R177, R178, R189–R194). -/
set_option autoImplicit false
namespace Sys2Proof.Machine

/-! ### Registers of the twin pair that the translation engine does not write -/

/-- A block-specific register of page 11 but CAR_RG_STS and the counts of the bitmap (R580). -/
def pairReg (o : Nat) : Prop :=
  0xB100 ≤ o ∧ o < 0xC000 ∧ o ≠ R.CAR_RG_STS ∧ o ≠ R.CAR_BMAP_LO ∧ o ≠ R.CAR_BMAP_HI

theorem pairReg_blk {o : Nat} (h : pairReg o) : bookReg o = false ∧ regBlk o = 12 := by
  obtain ⟨hlow, hhigh, -⟩ := h
  exact ⟨bookReg_of (by unfold pageOf; omega) (by unfold pageOf; omega) (by omega), blk12 (by omega) (by omega)⟩

/-- t has those registers of s, and the repairs asked of the twin. -/
structure State.PairKept (s t : State) : Prop where
  rd : ∀ {o : Nat}, pairReg o → t.rd o = s.rd o
  reps : t.tw.reps = s.tw.reps

theorem State.PairKept.refl (s : State) : s.PairKept s := ⟨fun _ => rfl, rfl⟩

theorem State.PairKept.trans {s t u : State} (h : s.PairKept t) (k : t.PairKept u) : s.PairKept u :=
  ⟨fun ho => (k.rd ho).trans (h.rd ho), k.reps.trans h.reps⟩

theorem State.PairKept.ite {s t u : State} {c : Prop} [Decidable c] (ht : s.PairKept t) (hu : s.PairKept u) :
    s.PairKept (if c then t else u) := by
  split
  · exact ht
  · exact hu

theorem State.PairKept.when {s : State} {c : Bool} {f : State → State} (h : s.PairKept (f s)) : s.PairKept (s.when c f) :=
  .ite h (.refl s)

theorem Same.pairRd {m : Nat} {s t : State} (h : Same m s t) (hm : m.testBit 39 = false) {o : Nat} (ho : pairReg o) : t.rd o = s.rd o := by
  obtain ⟨hbook, hblk⟩ := pairReg_blk ho
  exact h.own o hbook (hblk ▸ hm)

theorem Same.pairKept {m : Nat} {s t : State} (h : Same m s t) (hm : m.testBit 39 = false) (htw : m.testBit 16 = false) :
    s.PairKept t := ⟨h.pairRd hm, congrArg TwSt.reps (h.tw htw)⟩

/-! ### The journal (R189–R194) -/

/-- A controller that becomes read-only takes regions out of sync and offers the token: neither shows in these registers (R567). -/
theorem State.enterReadOnly_pairKept (s : State) : s.PairKept s.enterReadOnly := by
  have hsync (u : State) (v : Nat) : u.PairKept (u.set F.CAR_RG_STS.IN_SYNC v) :=
    ⟨fun ⟨_, _, hrg, _, _⟩ => State.rd_set_ne _ _ _ hrg, rfl⟩
  have hoffer (u : State) : u.PairKept { u.car 0x40 0 [] with tw.tokMove := 1 } :=
    ((u.car_same 0x40 0 []).pairKept rfl rfl).trans ⟨fun _ => rfl, rfl⟩
  unfold State.enterReadOnly
  extract_lets _ u own v
  have hu : s.PairKept u := ⟨fun _ => rfl, rfl⟩
  have hv : s.PairKept v := hu.trans (hsync u _)
  exact .ite (.ite (hv.trans (hoffer v)) hv) hu

theorem State.seqMarks_pairKept (s : State) : s.PairKept s.seqMarks := by
  have hpage8 {f : Fld} (hf : f.off = R.TE_STS) (t : State) : t.PairKept (t.setBit f true) :=
    ⟨fun ⟨hlow, _⟩ => State.rd_setBit_ne _ _ _ (by rw [hf]; unfold R.TE_STS; omega), rfl⟩
  have hroll (t : State) (c v a b d e : Nat) : t.PairKept (t.roll c v a b d e) :=
    (State.roll_keeps (m := 67109384) rfl (Same.refl _ t)).pairKept rfl rfl
  have hevent (t : State) (l : List Nat) : t.PairKept (t.gmDevice l).showBudget :=
    (State.showBudget_keeps (m := 1237017723400) rfl (State.gmDevice_keeps rfl (Same.refl _ t))).pairKept rfl rfl
  have hwarn (t : State) (n k : Nat) : t.PairKept ((((t.setBit F.TE_STS.SEQ_WARN true).roll 0x0503 0 8 0 n k).gmDevice [8]).showBudget) :=
    ((hpage8 rfl t).trans (hroll _ _ _ _ _ _ _)).trans (hevent _ _)
  have hro (t : State) (n k : Nat) : t.PairKept (((t.setBit F.TE_STS.SEQ_RO true).roll 0x0503 0 8 1 n k).enterReadOnly) :=
    ((hpage8 rfl t).trans (hroll _ _ _ _ _ _ _)).trans (State.enterReadOnly_pairKept _)
  have hasked (t : State) : t.PairKept (({ t with te.hwAsked := 1 } : State).pstAdd (.counterInc 3)) :=
    (State.pstAdd_keeps (m := 4362084618) rfl (upd_te rfl (Same.refl _ t))).pairKept rfl rfl
  unfold State.seqMarks
  exact ((State.PairKept.when (hwarn _ _ _)).trans (.when (hro _ _ _))).trans (.when (hasked _))

theorem State.seqTaken_pairKept (s : State) : s.PairKept s.seqTaken := by
  have hseq : s.PairKept ((s.wrN R.TE_SEQ_LO (s.seqNext + 1)).wrN R.TE_SEQ_HI ((s.seqNext + 1) / 2 ^ 32)) := by
    refine ⟨fun ⟨hlow, _⟩ => ?_, rfl⟩
    rw [State.rd_wrN_ne _ _ (by unfold R.TE_SEQ_HI; omega), State.rd_wrN_ne _ _ (by unfold R.TE_SEQ_LO; omega)]
  exact hseq.trans (State.seqMarks_pairKept _)

theorem State.ringWritten_pairKept (s : State) (pos d pg q : Nat) (es : List JEntry) : s.PairKept (s.ringWritten pos d pg q es) := by
  refine Same.pairKept (m := 17660972638218) ?_ rfl rfl
  unfold State.ringWritten
  exact State.emit_keeps rfl (State.bump_keeps rfl (R.MC_PGM_CNT_ok rfl) (State.wr64_keeps rfl (.inr rfl) (.inr rfl) (upd_te rfl (Same.refl _ s))))

theorem State.flushPage_pairKept {s t : State} {es : List JEntry} (h : s.flushPage es = some t) : s.PairKept t := by
  obtain ⟨pos, d, pg, r, hready, rfl⟩ := State.flushPage_eq_some h
  have hr : s.PairKept r := (State.ringReady_keeps (m := 8192) rfl hready (Same.refl _ s)).pairKept rfl rfl
  exact (hr.trans r.seqTaken_pairKept).trans (State.ringWritten_pairKept _ _ _ _ _ _)

theorem State.flushPages_pairKept {pages : List (List JEntry)} {s t : State} (h : State.flushPages pages s = some t) : s.PairKept t := by
  induction pages generalizing s with
  | nil => exact Option.some.inj h ▸ .refl s
  | cons es rest ih =>
    unfold State.flushPages at h
    split at h
    · contradiction
    · next u hu => exact (State.flushPage_pairKept hu).trans (ih h)

theorem State.journal_pairKept (s : State) (es : List JEntry) : s.PairKept (s.journal es) := by
  have hflush (t : State) : t.PairKept t.journalFlush := by
    unfold State.journalFlush
    dsimp only
    split
    · exact ⟨fun _ => rfl, rfl⟩
    · next u hu =>
      refine (State.flushPages_pairKept hu).trans ⟨fun ⟨hlow, _⟩ => ?_, rfl⟩
      exact State.rd_wrN_ne _ _ (by unfold R.TE_JRN_FLUSH_CNT; omega)
  have hadded : s.PairKept ({ s with te.jbuf := s.te.jbuf ++ es } : State) := ⟨fun _ => rfl, rfl⟩
  unfold State.journal
  exact .ite (hadded.trans (hflush _)) hadded

/-! ### The poison table (R177, R178) -/

theorem State.bmapSet_pairKept (s : State) (t : Nat) : s.PairKept (s.bmapSet t) :=
  ⟨fun ⟨_, _, _, hlo, hhi⟩ => s.bmapSet_rd t hlo hhi, TwSt.unmapped_reads (s.bmapSet_unmapped t) TwSt.reps fun _ => rfl⟩

theorem State.setEntry_pairKept (s : State) (t : Nat) (e : TEntry) : s.PairKept (s.setEntry t e) :=
  (State.setEntry_keeps (m := 8192) rfl (Same.refl _ s)).pairKept rfl rfl

theorem State.addCnt_pairKept (s : State) {o : Nat} (n : Nat) (ho : o < 0xB100) : s.PairKept (s.addCnt o n) :=
  ⟨fun ⟨hlow, _⟩ => State.rd_wrN_ne _ _ (by omega), rfl⟩

theorem State.ptWhole_pairKept (s : State) (t : Nat) : s.PairKept (s.ptWhole t) := by
  unfold State.ptWhole
  extract_lets e u _
  have hu : s.PairKept ({ u with te.since := serase u.te.since t } : State) := (s.setEntry_pairKept t _).trans ⟨fun _ => rfl, rfl⟩
  exact .ite (.refl s) ((hu.trans (State.addCnt_pairKept _ (o := R.TE_PT_WHOLE) 1 (by decide))).trans (State.journal_pairKept _ _))

theorem State.ptFull_pairKept (s : State) (t : Nat) : s.PairKept (s.ptFull t) :=
  (State.ptFull_keeps (m := 68786618888) rfl (Same.refl _ s)).pairKept rfl rfl

theorem State.poisonLine_pairKept (s : State) (line : Nat) : s.PairKept (s.poisonLine line) := by
  unfold State.poisonLine
  extract_lets tile _ _ u
  have hu : s.PairKept u := (s.bmapSet_pairKept tile).trans ⟨fun _ => rfl, rfl⟩
  clear_value u
  split
  · exact hu.trans ⟨fun _ => rfl, rfl⟩
  split
  · next v hput =>
    have hv : s.PairKept v := hu.trans ((State.ptPut_keeps (m := 68719484936) rfl hput (Same.refl _ _)).pairKept rfl rfl)
    have hlisted (e : TEntry) := ((hv.trans (v.setEntry_pairKept tile e)).trans (State.addCnt_pairKept _ (o := R.TE_PT_LINES) 1 (by decide))).trans
      (State.journal_pairKept _ [.poison line true])
    exact .ite ((hlisted _).trans (State.ptFull_pairKept _ _)) (hlisted _)
  · exact (hu.trans (u.ptFull_pairKept tile)).trans (State.ptWhole_pairKept _ tile)

theorem State.unpoisonLine_pairKept (s : State) (line : Nat) : s.PairKept (s.unpoisonLine line) := by
  have hte (u : State) (e : TeSt) : u.PairKept ({ u with te := e } : State) := ⟨fun _ => rfl, rfl⟩
  have hwr (u : State) {o : Nat} (v : Nat) (ho : o < 0xB100) : u.PairKept (u.wrN o v) := ⟨fun ⟨hlow, _⟩ => State.rd_wrN_ne _ _ (by omega), rfl⟩
  have hchanged (u : State) (t : Nat) : u.PairKept (u.ptChanged t) := (State.ptChanged_keeps (m := 8192) rfl (Same.refl _ u)).pairKept rfl rfl
  unfold State.unpoisonLine
  extract_lets tile e _ u _ _ v mask upd _ w x y
  have hu : s.PairKept u := .ite (hte _ _) (.refl s)
  have hv : u.PairKept v := (u.bmapSet_pairKept tile).trans ⟨fun _ => rfl, rfl⟩
  have hw : v.PairKept w := (hte v _).trans (hchanged _ tile)
  have hx : w.PairKept x := hwr w _ (by decide)
  have hy : x.PairKept y := .when ((hwr x _ (by decide)).trans (State.setEntry_pairKept _ _ _))
  have hfull : y.PairKept (y.setBit F.TE_STS.PT_FULL false) :=
    ⟨fun ⟨hlow, _⟩ => State.rd_setBit_ne _ _ _ (by show _ ≠ R.TE_STS; unfold R.TE_STS; omega), rfl⟩
  exact .ite ((((((hu.trans hv).trans hw).trans hx).trans hy).trans hfull).trans (State.journal_pairKept _ _)) hu

/-! ### The lines of a commit (R124, R360) -/

/-- A line that the twin sent is placed: the twin pair's registers are left. -/
theorem State.commitLine_pairRd {s t : State} {line : Nat} {d : Line} {poison : Bool} (h : s.commitLine line d poison false = some t)
    {o : Nat} (ho : pairReg o) : t.rd o = s.rd o := by
  unfold State.commitLine at h
  split at h
  · cases h
  · extract_lets v at h
    have hv : v.rd o = s.rd o := by
      unfold v
      split
      · exact (State.lcInvalidate_keeps (m := 171865872394) rfl (Same.refl _ s)).pairRd rfl ho
      · rfl
    split at h
    · cases h
    · next old u hput =>
      obtain rfl := Option.some.inj h
      have hu : u.rd o = v.rd o := (State.evictPut_keeps (m := 137506158606) rfl hput (Same.refl _ v)).pairRd rfl ho
      have hcounted : (u.putCounted old).rd o = u.rd o := by
        unfold State.putCounted
        split
        · exact u.tsStatus_same.pairRd rfl ho
        · exact (State.charge_keeps (m := 137438953480) rfl (Same.refl _ u)).pairRd rfl ho
      have hshown (w : State) : (w.putShown line poison).rd o = w.rd o := by
        have hpoison : w.PairKept (if poison then w.poisonLine line else w.unpoisonLine line) :=
          .ite (w.poisonLine_pairKept line) (w.unpoisonLine_pairKept line)
        exact (hpoison.trans (State.bmapSet_pairKept _ (tileOf line))).rd ho
      exact ((hshown _).trans hcounted).trans (hu.trans hv)

theorem State.commitLines_pairRd (l : List (Nat × Option (Line × Bool))) (s : State) {o : Nat} (ho : pairReg o) :
    (s.commitLines false l).2.rd o = s.rd o := by
  induction l generalizing s with
  | nil => rfl
  | cons a l ih =>
    obtain ⟨line, x⟩ := a
    unfold State.commitLines
    split
    · rfl
    · next u hu =>
      have hline : u.rd o = s.rd o := by
        cases x with
        | none => exact Option.some.inj hu ▸ rfl
        | some y => exact State.commitLine_pairRd hu ho
      exact (ih u).trans hline

end Sys2Proof.Machine
end

section
/-! SUPPORT. The loss of the Caravan link and its timers (11_twin_pair.md R339, R342, R348, R350, Tables 11.6, 11.7). -/
set_option autoImplicit false
namespace Sys2Proof.Machine

/-! ### The failover starts (Table 11.7) -/

/-- The failover of a link loss runs, in the phase that the token line decides (steps 3 and 4). -/
theorem State.failoverSample_shows (s : State) (t0 cause : Nat) :
    (∃ ph, (s.failoverSample t0 cause).tw.fo = some ⟨t0, ph, cause⟩) ∧ (s.failoverSample t0 cause).tw.hello = s.tw.hello ∧
      (s.failoverSample t0 cause).tw.cred = s.tw.cred ∧
      ∀ f : Fld, f.off = R.CAR_STS → (f.lo + f.width ≤ 5 ∨ 6 ≤ f.lo) → (s.failoverSample t0 cause).get f = s.get f := by
  unfold State.failoverSample
  extract_lets u start
  have hu : u.tw.hello = s.tw.hello ∧ u.tw.cred = s.tw.cred ∧ u.pairStsAre s := by
    unfold u
    split
    · have htw := s.pullToken_tw false
      exact ⟨by rw [htw], by rw [htw], (s.pullToken_same false).pairStsAre rfl⟩
    · exact ⟨rfl, rfl, .refl s⟩
  obtain ⟨hhello, hcred, hsts⟩ := hu
  have hstart (ph : FoPhase) : (∃ q, (start u ph).tw.fo = some ⟨t0, q, cause⟩) ∧ (start u ph).tw.hello = s.tw.hello ∧
      (start u ph).tw.cred = s.tw.cred ∧ ∀ f : Fld, f.off = R.CAR_STS → (f.lo + f.width ≤ 5 ∨ 6 ≤ f.lo) → (start u ph).get f = s.get f :=
    ⟨⟨ph, rfl⟩, hhello, hcred, fun f hf _ => hsts.get (.inl hf)⟩
  split
  · exact hstart _
  split
  · exact hstart _
  split
  · exact hstart _
  · have htw := u.holdToken_tw true
    refine ⟨⟨.settle, rfl⟩, hhello ▸ congrArg (·.hello) htw, hcred ▸ congrArg (·.cred) htw, fun f hf hd => ?_⟩
    calc (start (u.holdToken true) .settle).get f
      _ = (u.holdToken true).get f := rfl
      _ = (u.setBit F.CAR_STS.TOKEN_HELD true).get f := (u.holdToken_pairSts true).get (.inl hf)
      _ = u.get f := State.get_set_ne _ _ _ _ (by decide) (.inr hd)
      _ = s.get f := hsts.get (.inl hf)

/-! ### Link loss (R350) -/

/-- The link is lost for a cause: what Table 11.6 records, and the failover of an attached controller in service. -/
structure State.LinkLost (s t : State) (cause : Nat) : Prop where
  link : t.bit F.CAR_STS.LINK_UP = false
  lastDown : t.get F.CAR_STS.LAST_DOWN = cause
  hello : t.tw.hello = none
  cred : t.tw.cred = []
  alone : s.bit F.CAR_STS.PAIRED = false → t.bit F.CAR_STS.PAIRED = false ∧ t.tw.admitted = false
  failover : s.bit F.CAR_STS.PAIRED = true → s.bit F.CAR_STS.FENCED = false → s.draining = false →
    t.bit F.CAR_STS.FAILOVER = true ∧ ∃ ph, t.tw.fo = some ⟨s.tick.toNat, ph, cause⟩

/-- The link is down and the loss counted. -/
def State.linkCut (s : State) (cause : Nat) : State := (s.linkDown cause).bump R.CAR_LINK_DOWN

theorem State.linkCut_rd (s : State) (cause : Nat) {o : Nat} (ho : o ≠ R.CAR_LINK_DOWN) :
    (s.linkCut cause).rd o = ((s.setBit F.CAR_STS.LINK_UP false).set F.CAR_STS.LAST_DOWN cause).rd o :=
  (s.linkDown cause).rd_wrN_ne _ ho

theorem State.linkCut_get (s : State) (cause : Nat) {f : Fld} (hf : f.off = R.CAR_STS) :
    (s.linkCut cause).get f = ((s.setBit F.CAR_STS.LINK_UP false).set F.CAR_STS.LAST_DOWN cause).get f :=
  congrArg (fldOf f) (s.linkCut_rd cause (by rw [hf]; decide))

theorem State.linkCut_bit_ne (s : State) (cause : Nat) {f : Fld} (hf : f.off = R.CAR_STS) (hlo : 1 ≤ f.lo) (hhi : f.lo + f.width ≤ 16) :
    (s.linkCut cause).bit f = s.bit f := by
  unfold State.bit
  rw [s.linkCut_get cause hf, State.get_set_ne _ _ _ _ (by decide) (.inr (.inl hhi)),
    State.setBit, State.get_set_ne _ F.CAR_STS.LINK_UP _ _ (by decide) (.inr (.inr hlo))]

theorem State.linkCut_draining (s : State) (cause : Nat) : (s.linkCut cause).draining = s.draining := by
  have hrd {o : Nat} (hsts : o ≠ R.CAR_STS) (hcnt : o ≠ R.CAR_LINK_DOWN) : (s.linkCut cause).rd o = s.rd o := by
    rw [s.linkCut_rd cause hcnt, State.rd_set_ne _ _ _ hsts, State.rd_setBit_ne _ _ _ hsts]
  have hphase : (s.linkCut cause).rd R.PSQ_STS = s.rd R.PSQ_STS := hrd (by decide) (by decide)
  have hfc : (s.linkCut cause).rd R.FC_STS = s.rd R.FC_STS := hrd (by decide) (by decide)
  exact State.draining_congr hphase hfc

theorem State.linkLoss_linkLost {s : State} (hup : s.bit F.CAR_STS.LINK_UP = true) {cause : Nat} (hcause : cause < 16) :
    s.LinkLost (s.linkLoss cause) cause := by
  have hcutLink : (s.linkCut cause).bit F.CAR_STS.LINK_UP = false := by
    rw [State.bit, s.linkCut_get cause (f := F.CAR_STS.LINK_UP) rfl, State.get_set_ne _ _ _ _ (by decide) (by decide)]
    exact State.bit_setBit_self _ _ _ (by decide) (by decide)
  have hcutDown : (s.linkCut cause).get F.CAR_STS.LAST_DOWN = cause := by
    rw [s.linkCut_get cause (f := F.CAR_STS.LAST_DOWN) rfl, State.get_set_self _ _ _ (by decide)]
    exact Nat.mod_eq_of_lt hcause
  have hpaired : (s.linkCut cause).bit F.CAR_STS.PAIRED = s.bit F.CAR_STS.PAIRED := s.linkCut_bit_ne cause rfl (by decide) (by decide)
  have hfenced : (s.linkCut cause).bit F.CAR_STS.FENCED = s.bit F.CAR_STS.FENCED := s.linkCut_bit_ne cause rfl (by decide) (by decide)
  have hloss : s.linkLoss cause = if s.bit F.CAR_STS.PAIRED && !s.bit F.CAR_STS.FENCED && !s.draining then
      (((s.linkCut cause).emit (.other 11 [0])).setBit F.CAR_STS.FAILOVER true).failoverSample s.tick.toNat cause
      else (s.linkCut cause).unpair.linkEvent false := by
    rw [← hpaired, ← hfenced, ← s.linkCut_draining cause]
    simp only [State.linkLoss, hup]
    rfl
  rw [hloss]
  split
  · next hall =>
    generalize hidle : ((s.linkCut cause).emit (.other 11 [0])).setBit F.CAR_STS.FAILOVER true = idle
    have htw : idle.tw = (s.linkCut cause).tw := hidle ▸ rfl
    have hsts : idle.pairStsAre ((s.linkCut cause).setBit F.CAR_STS.FAILOVER true) :=
      hidle ▸ ((State.emit_keeps (m := 67108874) rfl (Same.refl _ _)).pairStsAre rfl).setBit _ _
    obtain ⟨hfo, hhello, hcred, hget⟩ := idle.failoverSample_shows s.tick.toNat cause
    have hbit {f : Fld} (hf : f.off = R.CAR_STS) (hd : f.lo + f.width ≤ 5 ∨ 6 ≤ f.lo) :
        (idle.failoverSample s.tick.toNat cause).get f = ((s.linkCut cause).setBit F.CAR_STS.FAILOVER true).get f :=
      (hget f hf hd).trans (hsts.get (.inl hf))
    refine ⟨?_, ?_, ?_, ?_, ?_, fun _ _ _ => ⟨?_, hfo⟩⟩
    · rw [State.bit, hbit rfl (by decide)]
      exact (State.bit_setBit_ne _ _ _ _ (by decide) (by decide)).trans hcutLink
    · rw [hbit rfl (by decide)]
      exact (State.get_set_ne _ _ _ _ (by decide) (by decide)).trans hcutDown
    · rw [hhello, htw]
      rfl
    · rw [hcred, htw]
      rfl
    · intro hnot
      simp [hnot] at hall
    · rw [State.bit, hbit rfl (by decide)]
      exact State.bit_setBit_self _ _ _ (by decide) (by decide)
  · next hnot =>
    have htw : ((s.linkCut cause).unpair.linkEvent false).tw.unmapped = (s.linkCut cause).tw.unpaired.unmapped :=
      (congrArg TwSt.unmapped ((State.linkEvent_same _ false).tw rfl)).trans (State.unpair_unmapped _)
    have hsts : ((s.linkCut cause).unpair.linkEvent false).pairStsAre ((s.linkCut cause).setBit F.CAR_STS.PAIRED false) :=
      ((State.linkEvent_same _ false).pairStsAre rfl).trans (State.unpair_pairSts _)
    refine ⟨?_, ?_, ?_, ?_, fun _ => ⟨?_, ?_⟩, fun hp hf hd => absurd (by simp [hp, hf, hd]) hnot⟩
    · rw [hsts.bit (.inl rfl)]
      exact (State.bit_setBit_ne _ _ _ _ (by decide) (by decide)).trans hcutLink
    · rw [hsts.get (.inl rfl)]
      exact (State.get_set_ne _ _ _ _ (by decide) (by decide)).trans hcutDown
    · exact TwSt.unmapped_reads htw TwSt.hello fun _ => rfl
    · exact TwSt.unmapped_reads htw TwSt.cred fun _ => rfl
    · rw [hsts.bit (.inl rfl)]
      exact State.bit_setBit_self _ _ _ (by decide) (by decide)
    · exact TwSt.unmapped_reads htw TwSt.admitted fun _ => rfl

/-! ### The timers and losses (Table 11.6) -/

/-- A loss counted from a state with the attachment, the device state and the tick of s. -/
theorem State.LinkLost.congr {s u t : State} {cause : Nat} (h : u.LinkLost t cause)
    (hpaired : u.bit F.CAR_STS.PAIRED = s.bit F.CAR_STS.PAIRED) (hfenced : u.bit F.CAR_STS.FENCED = s.bit F.CAR_STS.FENCED)
    (hdrain : u.draining = s.draining) (htick : u.tick = s.tick) : s.LinkLost t cause where
  link := h.link
  lastDown := h.lastDown
  hello := h.hello
  cred := h.cred
  alone hnot := h.alone (hpaired.trans hnot)
  failover hp hf hd := htick ▸ h.failover (hpaired.trans hp) (hfenced.trans hf) (hdrain.trans hd)

section
variable {s : State} (hup : s.bit F.CAR_STS.LINK_UP = true)
include hup

theorem exec_carRspTo_linkLost (hwait : s.tw.mwr ≠ [] ∨ s.tw.tokMove ≠ 0) : ∃ t, exec .carRspTo s = .next t ∧ s.LinkLost t 3 := by
  have hnot : ¬ (s.tw.mwr.isEmpty && s.tw.tokMove == 0) = true := by
    rcases hwait with h | h
    · simp [h]
    · simp [h]
  exact ⟨_, congrArg Host.Outcome.next (if_neg hnot), State.linkLoss_linkLost hup (by decide)⟩

theorem exec_mcmdTimeout_linkLost (hopen : s.tw.cmds.any (fun c => c.ack.isNone) = true) :
    ∃ t, exec .mcmdTimeout s = .next t ∧ s.LinkLost t 3 :=
  ⟨_, congrArg Host.Outcome.next (if_pos hopen), State.linkLoss_linkLost hup (by decide)⟩

/-- The missing edge is shown, and the link is lost (R348). -/
theorem exec_aliveTimeout_linkLost : ∃ t, exec .aliveTimeout s = .next t ∧ s.LinkLost t 5 := by
  have hbit {f : Fld} (hd : f.off ≠ R.CAR_STS ∨ f.lo + f.width ≤ 7 ∨ 8 ≤ f.lo) :
      (s.setBit F.CAR_STS.ALIVE_IN_OK false).bit f = s.bit f := State.bit_setBit_ne _ _ _ _ (by decide) hd
  refine ⟨_, rfl, (State.linkLoss_linkLost ((hbit (by decide)).trans hup) (by decide)).congr (hbit (by decide)) (hbit (by decide)) ?_ rfl⟩
  exact State.draining_congr (State.rd_setBit_ne _ _ _ (by decide)) (State.rd_setBit_ne _ _ _ (by decide))

/-- A packet that is none ends the link (R342). -/
theorem exec_caravanBadPacket_linkLost : ∃ t, exec .caravanBadPacket s = .next t ∧ s.LinkLost t 4 :=
  ⟨_, rfl, (State.linkLoss_linkLost ((s.carGot_bit rfl).trans hup) (by decide)).congr (s.carGot_bit rfl) (s.carGot_bit rfl)
    s.carGot_draining (s.carGot_same.tick rfl)⟩

end

/-! ### A repair without an answer, and the statement -/

theorem State.lineEvents_pairKept (s : State) (line src : Nat) : s.PairKept (s.lineEvents line src) :=
  (State.lineEvents_keeps (m := 1099578769928) rfl (Same.refl _ s)).pairKept rfl rfl

/-- A background repair of a line without a media location counts, and its line is poisoned (R105, R339). -/
theorem exec_repairTimeout_background (s : State) (tag line : Nat) (b : Bool)
    (hasked : s.tw.reps.find? (fun x => x.1 == tag) = some (tag, .background line none b)) (hslot : s.slotCounts line = true) :
    ∃ t, exec (.repairTimeout tag) s = .next t ∧ t.tw.reps = s.tw.reps.filter (fun x => x.1 != tag) ∧
      t.num R.CAR_REP_FAIL = min (s.num R.CAR_REP_FAIL + 1) 0xFFFFFFFF := by
  let u : State := ({ s with tw.reps := s.tw.reps.filter (fun x => x.1 != tag) } : State).bump R.CAR_REP_FAIL
  have hexec : exec (.repairTimeout tag) s = .next ((u.poisonLine line).lineEvents line 9) := by
    show execRepairTimeout tag s = _
    unfold execRepairTimeout
    rw [hasked]
    show Host.Outcome.next (if u.slotCounts line then _ else _) = _
    rw [if_pos (show u.slotCounts line = true from hslot)]
  have hkept : u.PairKept ((u.poisonLine line).lineEvents line 9) := (u.poisonLine_pairKept line).trans (State.lineEvents_pairKept _ _ _)
  refine ⟨_, hexec, hkept.reps, ?_⟩
  have hrd := hkept.rd (o := R.CAR_REP_FAIL) ⟨by decide, by decide, by decide, by decide, by decide⟩
  have hnum : ((u.poisonLine line).lineEvents line 9).num R.CAR_REP_FAIL = u.num R.CAR_REP_FAIL := congrArg BitVec.toNat hrd
  rw [hnum]
  exact State.num_bump _ _

/-- Settles O20: each timer or loss is the link's loss with its cause, and a repair that gets no answer counts. -/
theorem caravanLinkLoss : Obligations.CaravanLinkLoss := by
  unfold Obligations.CaravanLinkLoss
  have hloss {s : State} {i : Instr} {cause : Nat} (h : ∃ t, exec i s = .next t ∧ s.LinkLost t cause) :
      ∃ t, exec i s = .next t ∧ t.bit F.CAR_STS.LINK_UP = false ∧ t.get F.CAR_STS.LAST_DOWN = cause ∧ t.tw.hello = none ∧ t.tw.cred = [] ∧
        (s.bit F.CAR_STS.PAIRED = false → t.bit F.CAR_STS.PAIRED = false ∧ t.tw.admitted = false) ∧
        (s.bit F.CAR_STS.PAIRED = true → s.bit F.CAR_STS.FENCED = false → s.draining = false →
          t.bit F.CAR_STS.FAILOVER = true ∧ ∃ ph, t.tw.fo = some ⟨s.tick.toNat, ph, cause⟩) := by
    obtain ⟨t, hexec, hlost⟩ := h
    exact ⟨t, hexec, hlost.link, hlost.lastDown, hlost.hello, hlost.cred, hlost.alone, hlost.failover⟩
  refine ⟨?_, fun tag line b s => exec_repairTimeout_background s tag line b, fun s => ⟨_, rfl, rfl⟩⟩
  intro x hx s hup hwait hopen
  simp only [List.mem_cons, List.not_mem_nil, or_false] at hx
  rcases hx with rfl | rfl | rfl | rfl | rfl | rfl | rfl
  · exact hloss ⟨_, rfl, State.linkLoss_linkLost hup (by decide)⟩
  · exact hloss (exec_carRspTo_linkLost hup (hwait rfl))
  · exact hloss (exec_mcmdTimeout_linkLost hup (hopen rfl))
  · exact hloss ⟨_, rfl, State.linkLoss_linkLost hup (by decide)⟩
  · exact hloss (exec_aliveTimeout_linkLost hup)
  · exact hloss ⟨_, rfl, State.linkLoss_linkLost hup (by decide)⟩
  · exact hloss (exec_caravanBadPacket_linkLost hup)

end Sys2Proof.Machine
end

section
/-! SUPPORT. The packets and the scan of a resync (11_twin_pair.md R359–R361). -/
set_option autoImplicit false
namespace Sys2Proof.Machine

/-! ### What leaves on Caravan -/

theorem State.car_mem {s : State} (hup : s.bit F.CAR_STS.LINK_UP = true) (typ tag : Nat) (ws : List Nat) :
    Output.caravan ⟨typ, tag, ws⟩ ∈ (s.car typ tag ws).out := by
  rw [State.car, if_pos hup]
  exact s.emit_mem _

theorem State.car_grows (s : State) (typ tag : Nat) (ws : List Nat) : OutGrows s (s.car typ tag ws) := by
  unfold State.car
  split
  · exact s.emit_grows _
  · exact .refl s

theorem State.crd_grows (s : State) (f m p r : Nat) : OutGrows s (s.crd f m p r) := by
  unfold State.crd
  split
  · exact .refl s
  · exact s.car_grows _ _ _

theorem State.rsRes_mem {s : State} (hup : s.bit F.CAR_STS.LINK_UP = true) (chunk res : Nat) :
    Output.caravan ⟨0x52, 0, [res, chunk]⟩ ∈ (s.rsRes chunk res).out :=
  State.crd_grows _ _ _ _ _ (State.car_mem hup _ _ _)

theorem State.rsRes_same (s : State) (chunk res : Nat) : Same 67108874 s (s.rsRes chunk res) :=
  State.crd_keeps rfl (s.car_same _ _ _)

theorem State.carOn_up {s : State} (h : s.carOn = true) : s.bit F.CAR_STS.LINK_UP = true := (Bool.and_eq_true_iff.mp h).1

theorem State.carGot_book (s : State) : s.carGot.regsAre s := by
  unfold State.carGot State.when
  split
  · exact s.pcEvent_book _ _ _
  · exact fun _ _ => rfl

/-! ### RS_START (R360) -/

/-- The PAIR key and a free slot make a stream. -/
theorem State.pairStream_of_free {s : State} {k slot : Nat} (hkey : s.pairKey = some k) (hfree : s.keySlotFree false = some slot)
    (region gen nonce : Nat) : ∃ u, s.pairStream region gen nonce = some (slot, u) := by
  rw [State.pairStream, hkey, hfree]
  exact ⟨_, rfl⟩

theorem exec_rsStart_shows (n : Fin 16) (full : Bool) (gen : Word) (nonce : BitVec 64) (k slot : Nat) (s : State) (hon : s.carOn = true)
    (hpaired : s.bit F.CAR_STS.PAIRED = true) (hfenced : s.bit F.CAR_STS.FENCED = false) (htgt : s.tw.tgt = none)
    (hkey : s.pairKey = some k) (hfree : s.keySlotFree false = some slot) :
    ∃ t, exec (.rsStart n full gen nonce) s = .next t ∧ t.tw.tgt = some ⟨n.val, slot, none, []⟩ ∧ t.get F.CAR_STS.ROLE = 3 ∧
      t.num R.CAR_RSYNC = n.val * 256 + 4096 * full.toNat + 8192 := by
  have hce : s.carGot.ce = s.ce := s.carGot_same.ce rfl
  have hgkey : s.carGot.pairKey = some k := by rw [← hkey, State.pairKey, State.pairKey, State.keySlot_congr hce]
  have hgfree : s.carGot.keySlotFree false = some slot := by
    rw [← hfree]
    simp only [State.keySlotFree, State.keySlot_congr hce, hce]
  have hgon : s.carGot.carOn = true := s.carGot_carOn.trans hon
  have hgpaired : s.carGot.bit F.CAR_STS.PAIRED = true := (s.carGot_bit rfl).trans hpaired
  have hgfenced : s.carGot.bit F.CAR_STS.FENCED = false := (s.carGot_bit rfl).trans hfenced
  have hgtgt : s.carGot.tw.tgt = none := (congrArg TwSt.tgt (s.carGot_same.tw rfl)).trans htgt
  obtain ⟨u, hstream⟩ := State.pairStream_of_free hgkey hgfree n.val gen.toNat nonce.toNat
  have hexec : exec (.rsStart n full gen nonce) s = .next (((({ u with tw.tgt := some ⟨n.val, slot, none, []⟩ } : State).setBit
      ⟨R.CAR_RG_STS, 16 + n.val, 1⟩ false).set F.CAR_STS.ROLE 3).wrN R.CAR_RSYNC (n.val * 256 + 4096 * full.toNat + 8192)) := by
    show execRsStart n full gen nonce s = _
    simp [execRsStart, hgon, hgpaired, State.targetWake, hgfenced, hgtgt, hstream]
  refine ⟨_, hexec, rfl, ?_, State.num_wrN_self _ _ ?_⟩
  · rw [State.get_wrN_ne _ _ _ (by decide), State.get_set_self _ _ _ (by decide)]
    rfl
  · have hfull : full.toNat ≤ 1 := Bool.toNat_le full
    omega

/-! ### RS_CHUNK, RS_CHUNK_COMMIT, RS_RES (R360) -/

theorem exec_rsChunk_zero (chunk : BitVec 64) (tile : BitVec 32) (staged : Bool) (pmap : BitVec 64) (x : RsTarget) (s : State)
    (hon : s.carOn = true) (htgt : s.tw.tgt = some x) (hlast : x.last = none) :
    ∃ t, exec (.rsChunk chunk tile true staged pmap
        (gcmTag (s.keySlot x.slot).key (s.keySlot x.slot).h (chunkIv chunk.toNat) (rsAad chunk.toNat tile.toNat true staged pmap) []) []) s = .next t ∧
      t.tw.tgt = some { x with last := some chunk.toNat, ready := x.ready ++ [⟨chunk.toNat, tile.toNat, pmap, List.replicate 64 0, [], 0⟩] } := by
  have hgon : s.carGot.carOn = true := s.carGot_carOn.trans hon
  have hgtgt : s.carGot.tw.tgt = some x := (congrArg TwSt.tgt (s.carGot_same.tw rfl)).trans htgt
  have hslot : s.carGot.keySlot x.slot = s.keySlot x.slot := State.keySlot_congr (s.carGot_same.ce rfl) _
  let verified : List RsChunk := x.ready ++ [⟨chunk.toNat, tile.toNat, pmap, List.replicate 64 0, [], 0⟩]
  refine ⟨{ s.carGot.keyUse x.slot with tw.tgt := some { x with last := some chunk.toNat, ready := verified } }, ?_, rfl⟩
  show execRsChunk _ _ _ _ _ _ _ s = _
  unfold execRsChunk
  simp [hgon, hgtgt, hslot, hlast, verified]

/-- The lines placed of a chunk leave no request in the router and the link up. -/
theorem State.commitLines_ready {s : State} (hreqs : s.rt.reqs = []) (hup : s.bit F.CAR_STS.LINK_UP = true)
    (l : List (Nat × Option (Line × Bool))) :
    (s.commitLines false l).2.rt.reqs = [] ∧ (s.commitLines false l).2.bit F.CAR_STS.LINK_UP = true := by
  refine ⟨(State.commitLines_commitStep false l s).noReqs hreqs, Eq.trans ?_ hup⟩
  have hrd := State.commitLines_pairRd l s (o := R.CAR_STS) ⟨by decide, by decide, by decide, by decide, by decide⟩
  exact State.bit_congr hrd

theorem exec_rsChunkCommit_shows (chunk : BitVec 64) (x : RsTarget) (c : RsChunk) (s : State) (hreqs : s.rt.reqs = [])
    (hup : s.bit F.CAR_STS.LINK_UP = true) (htgt : s.tw.tgt = some x) (hfind : x.ready.find? (fun c => c.chunk == chunk.toNat) = some c) :
    let n := (s.commitLines false (rsLines c)).1
    (c.data.length ≤ c.placed + n → ∃ t, exec (.rsChunkCommit chunk) s = .next t ∧ Output.caravan ⟨0x52, 0, [0, c.chunk]⟩ ∈ t.out ∧
      t.tw.tgt = some { x with ready := x.ready.filter (fun z => z.chunk != c.chunk) }) ∧
    (c.placed + n < c.data.length → ∃ t, exec (.rsChunkCommit chunk) s = .next t ∧
      t.tw.tgt = some { x with ready := x.ready.map (fun z => if z.chunk = c.chunk then { z with placed := z.placed + n } else z) }) := by
  intro n
  obtain ⟨hnone, hlink⟩ := State.commitLines_ready hreqs hup (rsLines c)
  let u (ready : List RsChunk) : State := { (s.commitLines false (rsLines c)).2 with tw.tgt := some { x with ready := ready } }
  have hexec (left : Bool) (hleft : decide (c.placed + n < c.data.length) = left) : exec (.rsChunkCommit chunk) s = .next
      (if left then u (x.ready.map fun z => if z.chunk = c.chunk then { z with placed := z.placed + n } else z)
        else (u (x.ready.filter fun z => z.chunk != c.chunk)).rsRes c.chunk 0) := by
    subst hleft
    have hpump (v : State) (hv : v.rt.reqs = []) : (.next v.pump : Out) = .next v := by rw [State.pump_of_noReqs hv]
    show execRsChunkCommit chunk s = _
    unfold execRsChunkCommit
    rw [htgt]
    dsimp only
    rw [hfind]
    dsimp only
    split
    · exact hpump _ hnone
    · exact hpump _ ((congrArg RtSt.reqs ((State.rsRes_same _ _ _).rt rfl)).trans hnone)
  constructor
  · intro hall
    have hup (ready : List RsChunk) : (u ready).bit F.CAR_STS.LINK_UP = true := hlink
    exact ⟨_, hexec false (decide_eq_false (Nat.not_lt.mpr hall)), State.rsRes_mem (hup _) _ _,
      congrArg TwSt.tgt ((State.rsRes_same _ _ _).tw rfl)⟩
  · intro hleft
    exact ⟨_, hexec true (decide_eq_true hleft), rfl⟩

theorem exec_rsRes_ok (chunk : BitVec 64) (n : Nat) (x : RsSource) (s : State) (hon : s.carOn = true) (hsrc : s.tw.src = some x)
    (hregion : x.region = some n) (hmark : chunk.toNat ≠ rsEndMark) :
    ∃ t, exec (.rsRes chunk 0) s = .next t ∧ t.regsAre (s.bump R.CAR_RSYNC_CHUNKS) ∧
      t.tw.src = some { x with sent := x.sent.filter (fun y => y.1 != chunk.toNat) } := by
  have hgon : s.carGot.carOn = true := s.carGot_carOn.trans hon
  have hgsrc : s.carGot.tw.src = some x := (congrArg TwSt.src (s.carGot_same.tw rfl)).trans hsrc
  refine ⟨({ s.carGot with tw.src := some { x with sent := x.sent.filter (fun y => y.1 != chunk.toNat) } } : State).bump R.CAR_RSYNC_CHUNKS,
    ?_, State.regsAre_bump rfl s.carGot_book, rfl⟩
  show execRsRes _ _ s = _
  unfold execRsRes
  simp [hgon, hgsrc, hregion, hmark]

/-! ### RS_SUSPECT (R359) -/

theorem mem_setIns_of_mem {k t : Nat} {l : List Nat} (h : t ∈ l) : t ∈ setIns k l := by
  have hkept {e : Nat × Unit} {l : List (Nat × Unit)} (he : e ∈ l) : e ∈ sins k () l := by
    induction l with
    | nil => cases he
    | cons x l ih =>
      unfold sins
      split
      · exact List.mem_cons_of_mem _ he
      · rcases List.mem_cons.mp he with rfl | he
        · exact List.mem_cons_self
        · exact List.mem_cons_of_mem _ (ih he)
  by_cases hk : t = k
  · exact hk ▸ mem_setIns k l
  · have hold : (t, ()) ∈ serase (l.map fun x => (x, ())) k := by simp [serase, h, hk]
    exact List.mem_map_of_mem (f := Prod.fst) (hkept hold)

/-- The bitmap is on, and it holds the tiles in l. -/
def State.suspects (s : State) (l : List Nat) : Prop := s.tw.bmapOn = true ∧ l ⊆ s.tw.bmap

theorem State.suspects.bmapSet {s : State} {l : List Nat} (h : s.suspects l) (t : Nat) : (s.bmapSet t).suspects (t :: l) := by
  obtain ⟨hon, hmem⟩ := h
  rw [State.bmapSet, if_pos hon]
  exact ⟨hon, List.cons_subset.mpr ⟨mem_setIns _ _, fun x hx => mem_setIns_of_mem (hmem hx)⟩⟩

theorem State.foldl_bmapSet_suspects (tiles : List (BitVec 32)) {s : State} {l : List Nat} (h : s.suspects l) :
    ∀ x, x ∈ l ∨ x ∈ tiles.map BitVec.toNat → x ∈ (tiles.foldl (fun s (t : BitVec 32) => s.bmapSet t.toNat) s).tw.bmap := by
  induction tiles generalizing s l with
  | nil => simpa using fun x hx => h.2 hx
  | cons t tiles ih =>
    intro x hx
    refine ih (h.bmapSet t.toNat) x ?_
    simpa [or_assoc, or_left_comm] using hx

theorem exec_rsSuspect_marks (tiles : List (BitVec 32)) (s : State) (hon : s.carOn = true) (hpaired : s.bit F.CAR_STS.PAIRED = true)
    (hheld : s.bit F.CAR_STS.TOKEN_HELD = true) (hadmitted : s.tw.admitted = true) (hbmap : s.tw.bmapOn = true) :
    ∃ t, exec (.rsSuspect tiles) s = .next t ∧ ∀ x ∈ tiles, x.toNat ∈ t.tw.bmap := by
  have htw : s.carGot.tw = s.tw := s.carGot_same.tw rfl
  have hexec : exec (.rsSuspect tiles) s = .next (tiles.foldl (fun s (t : BitVec 32) => s.bmapSet t.toNat) s.carGot) := by
    show execRsSuspect tiles s = _
    simp [execRsSuspect, s.carGot_carOn.trans hon, (s.carGot_bit (f := F.CAR_STS.PAIRED) rfl).trans hpaired,
      (s.carGot_bit (f := F.CAR_STS.TOKEN_HELD) rfl).trans hheld, htw, hadmitted]
  have hempty : s.carGot.suspects [] := ⟨(congrArg TwSt.bmapOn htw).trans hbmap, List.nil_subset _⟩
  exact ⟨_, hexec, fun x hx => State.foldl_bmapSet_suspects tiles hempty _ (.inr (List.mem_map_of_mem hx))⟩

/-! ### RS_END and RESYNC_SCAN (R360, R361) -/

theorem exec_rsEnd_inSync (n : Fin 16) (x : RsTarget) (s : State) (hon : s.carOn = true) (htgt : s.tw.tgt = some x)
    (hregion : x.region = n.val) (hready : x.ready = []) :
    ∃ t, exec (.rsEnd n false) s = .next t ∧ t.tw.tgt = none ∧ t.bit ⟨R.CAR_RG_STS, 16 + n.val, 1⟩ = true ∧
      Output.caravan ⟨0x52, 0, [0, rsEndMark]⟩ ∈ t.out := by
  have hgon : s.carGot.carOn = true := s.carGot_carOn.trans hon
  have hgtgt : s.carGot.tw.tgt = some x := (congrArg TwSt.tgt (s.carGot_same.tw rfl)).trans htgt
  let u : State := ({ s.carGot.keyRelease x.slot with tw.tgt := none } : State).setBit ⟨R.CAR_RG_STS, 16 + n.val, 1⟩ true
  have hexec : exec (.rsEnd n false) s = .next (u.car 0x52 0 [0, rsEndMark]) := by
    show execRsEnd n false s = _
    simp [execRsEnd, hgon, hgtgt, hregion, hready, u]
  have hsync : u.bit ⟨R.CAR_RG_STS, 16 + n.val, 1⟩ = true :=
    State.bit_setBit_self _ _ _ (by show 16 + n.val + 1 ≤ 32; omega) (by show 0 < 1; decide)
  have hup : u.bit F.CAR_STS.LINK_UP = true :=
    calc u.bit F.CAR_STS.LINK_UP
      _ = (s.carGot.keyRelease x.slot).bit F.CAR_STS.LINK_UP := State.bit_congr (State.rd_setBit_ne _ _ _ (show R.CAR_STS ≠ R.CAR_RG_STS by decide))
      _ = s.carGot.bit F.CAR_STS.LINK_UP := State.bit_congr (State.keyRelease_rd _ _ _)
      _ = true := (s.carGot_bit rfl).trans (State.carOn_up hon)
  have hsame : Same 67108874 u (u.car 0x52 0 [0, rsEndMark]) := u.car_same _ _ _
  exact ⟨_, hexec, congrArg TwSt.tgt (hsame.tw rfl), ((hsame.pairStsAre rfl).bit (.inr rfl)).trans hsync, State.car_mem hup _ _ _⟩

/-- A credited packet, sent or kept back, changes the credits and the packets that wait only. -/
theorem State.carSend_tw (s : State) (k : Nat) (o : Output) :
    ∃ cred waits, (s.carSend k o).tw = { s.tw with cred := cred, waits := waits } := by
  unfold State.carSend
  split
  · split
    · have hemit : (s.emit o).tw = s.tw := (State.emit_keeps (m := 67108874) rfl (Same.refl _ s)).tw rfl
      exact ⟨_, (s.emit o).tw.waits, by rw [← hemit]⟩
    · exact ⟨_, _, rfl⟩
  · exact ⟨_, _, rfl⟩

theorem State.carSend_bmap (s : State) (k : Nat) (o : Output) : (s.carSend k o).tw.bmap = s.tw.bmap := by
  obtain ⟨cred, waits, htw⟩ := s.carSend_tw k o
  rw [htw]

/-- A tile that is sent leaves the bitmap (R360). -/
theorem State.rsSend_bmap (s : State) (x : RsSource) (tile : Nat) : (s.rsSend x tile).tw.bmap = setDel tile s.tw.bmap := by
  unfold State.rsSend
  extract_lets _ u zero cur pmap k ct staged tag v
  have hread : ((u.linesRead (64 * tile) 64).xtsUse.keyUse x.slot).tw = u.tw :=
    (State.keyUse_keeps (m := 17592253169676) rfl (State.xtsUse_keeps rfl (State.linesRead_keeps rfl (Same.refl _ u)))).tw rfl
  have hv : v.tw.bmap = u.tw.bmap := (State.carSend_bmap _ _ _).trans (congrArg TwSt.bmap hread)
  exact hv

section
variable {x : RsSource} {n : Nat} {s : State} (hfree : s.fencedSrc 10 = false) (htwin : s.twinUp = true)
  (hsrc : s.tw.src = some x) (hregion : x.region = some n) (hended : x.ended = false)
include hfree htwin hsrc hregion hended

theorem exec_resyncScan_end (hup : s.bit F.CAR_STS.LINK_UP = true) (hnext : s.rsNext x n = none) (hsent : x.sent = []) :
    ∃ t, exec .resyncScan s = .next t ∧ t.tw.src = some { x with ended := true } ∧
      Output.caravan ⟨0x54, 0, [n, x.left.isEmpty.toNat]⟩ ∈ t.out := by
  refine ⟨{ s.car 0x54 0 [n, x.left.isEmpty.toNat] with tw.src := some { x with ended := true } }, ?_, rfl, State.car_mem hup _ _ _⟩
  show execResyncScan s = _
  simp [execResyncScan, *]

theorem exec_resyncScan_send {tile : Nat} {y : RsSource} (hnext : s.rsNext x n = some (tile, y)) (hlines : s.linesCan (64 * tile) 64 = true) :
    ∃ t z, exec .resyncScan s = .next t ∧ t.tw.src = some z ∧ z.sent = y.sent ++ [(y.chunk, tile)] ∧ z.chunk = y.chunk + 1 ∧
      tile ∉ t.tw.bmap := by
  refine ⟨s.rsSend y tile, _, ?_, rfl, rfl, rfl, ?_⟩
  · show execResyncScan s = _
    simp [execResyncScan, *]
  · rw [State.rsSend_bmap]
    simp [setDel]

end

/-- Settles O19, packet by packet. -/
theorem resyncPackets : Obligations.ResyncPackets := by
  unfold Obligations.ResyncPackets
  exact ⟨exec_rsStart_shows, exec_rsChunk_zero, exec_rsChunkCommit_shows, exec_rsRes_ok, exec_rsSuspect_marks, exec_rsEnd_inSync,
    fun _ _ _ hfree htwin hup hsrc hregion hended => ⟨exec_resyncScan_end hfree htwin hsrc hregion hended hup,
      fun _ _ => exec_resyncScan_send hfree htwin hsrc hregion hended⟩⟩

end Sys2Proof.Machine
end

section
/-! SUPPORT. The roles of a controller that has lost its twin: SOLO and fenced (11_twin_pair.md R352, R353, R357, R358, Table 11.7). -/
set_option autoImplicit false
namespace Sys2Proof.Machine

/-! ### Nothing to take over -/

/-- No request is in the router, no command waits for the twin, and no discard runs. -/
structure State.Calm (s : State) : Prop where
  reqs : s.rt.reqs = []
  cmds : s.tw.cmds = []
  discards : s.te.discards = []

theorem State.reqs_nil_eta {s : State} (h : s.rt.reqs = []) : ({ s with rt.reqs := [] } : State) = s := by rw [← h]

theorem State.pump_reqs_map {s : State} (h : s.rt.reqs = []) (f : Req → Req) (reps : List (Nat × RepFor)) :
    ({ ({ s with rt.reqs := s.rt.reqs.map f } : State) with tw.reps := reps } : State).pump = { s with tw.reps := reps } := by
  rw [h]
  exact (congrArg (fun t : State => State.pump { t with tw.reps := reps }) (State.reqs_nil_eta h)).trans (State.pump_of_noReqs h)

theorem State.cmdsAlone_of_none {s : State} (hcmds : s.tw.cmds = []) (hdiscards : s.te.discards = []) : s.cmdsAlone = s := by
  have hnoCmds : ({ s with tw.cmds := [] } : State) = s := by rw [← hcmds]
  have hnoDiscards : ({ s with te.discards := [] } : State) = s := by rw [← hdiscards]
  simp [State.cmdsAlone, State.twinSettle, hcmds, hdiscards, hnoCmds, hnoDiscards]

theorem State.Calm.parted {s : State} (h : s.Calm) :
    s.disown.unpair.rt.reqs = [] ∧ s.disown.unpair.cmdsAlone = s.disown.unpair := by
  have hsame : Same 549755895816 s.disown s.disown.unpair := s.disown.unpair_same
  have hcmds : s.disown.unpair.tw.cmds = [] := (TwSt.unmapped_reads s.disown.unpair_unmapped TwSt.cmds fun _ => rfl).trans h.cmds
  have hdiscards : s.disown.unpair.te.discards = [] := (congrArg TeSt.discards (hsame.te rfl)).trans h.discards
  refine ⟨?_, State.cmdsAlone_of_none hcmds hdiscards⟩
  rw [hsame.rt rfl]
  simp [State.disown, h.reqs]

/-- What disowning the twin and the end of the attachment leave, with the repairs asked for kept. -/
def State.parted (s : State) : State := { s.disown.unpair with tw.reps := s.tw.reps }

theorem State.parted_pairSts (s : State) : s.parted.pairStsAre (s.setBit F.CAR_STS.PAIRED false) :=
  s.disown.unpair_pairSts.trans ((State.pairStsAre_of_regs rfl : s.disown.pairStsAre s).setBit _ _)

theorem State.parted_reads {α : Type} (s : State) (φ : TwSt → α) (hφ : ∀ e : TwSt, φ e.unmapped = φ e) :
    φ s.disown.unpair.tw = φ s.tw.unpaired := TwSt.unmapped_reads s.disown.unpair_unmapped φ hφ

theorem State.parted_hp (s : State) : s.parted.hp = s.hp := s.disown.unpair_same.hp rfl

/-! ### SOLO (R352) -/

/-- The registers and the records of a controller that becomes SOLO. -/
def State.soloStart (s : State) : State :=
  ((((s.startBitmap.recordSolo).holdToken true).set F.CAR_STS.ROLE 0).set F.CAR_RG_STS.EFF_OWN 0xFFFF).set F.CAR_RG_STS.IN_SYNC 0

theorem State.startBitmap_pairSts (s : State) : s.startBitmap.pairStsAre (s.setBit F.CAR_STS.BMAP_VALID true) :=
  (State.wrN_pairSts _ _ (by decide) (by decide)).trans (State.wrN_pairSts _ _ (by decide) (by decide))

theorem State.soloStart_pairSts (s : State) : s.soloStart.pairStsAre
    (((((s.setBit F.CAR_STS.BMAP_VALID true).setBit F.CAR_STS.TOKEN_HELD true).set F.CAR_STS.ROLE 0).set F.CAR_RG_STS.EFF_OWN 0xFFFF).set
      F.CAR_RG_STS.IN_SYNC 0) :=
  ((((State.holdToken_pairSts _ true).trans
    (((State.recordSolo_pairSts _).trans s.startBitmap_pairSts).setBit _ _)).set _ _).set _ _).set _ _

theorem State.soloStart_same (s : State) : Same 554117955850 s s.soloStart := by
  unfold State.soloStart
  refine State.set_keeps rfl (R.CAR_RG_STS_ok rfl) (State.set_keeps rfl (R.CAR_RG_STS_ok rfl) (State.set_keeps rfl (R.CAR_STS_ok rfl) ?_))
  exact State.holdToken_keeps rfl (State.recordSolo_keeps rfl (State.startBitmap_keeps rfl (Same.refl _ s)))

theorem State.soloStart_tw (s : State) : s.soloStart.tw = { s.startBitmap.tw with pull := true } := by
  unfold State.soloStart
  rw [State.set_tw, State.set_tw, State.set_tw, State.holdToken_tw, s.startBitmap.recordSolo_same.tw rfl]

theorem State.soloStart_calm {s : State} (h : s.Calm) : s.soloStart.Calm := by
  have hsame := s.soloStart_same
  refine ⟨?_, ?_, ?_⟩
  · rw [hsame.rt rfl, h.reqs]
  · rw [s.soloStart_tw]
    exact h.cmds
  · rw [hsame.te rfl, h.discards]

theorem State.becomeSolo_of_calm {s : State} (h : s.Calm) : s.becomeSolo = s.soloStart.parted := by
  have hcalm : s.soloStart.Calm := State.soloStart_calm h
  obtain ⟨hreqs, halone⟩ := hcalm.parted
  unfold State.becomeSolo
  extract_lets t a u failed x d done e
  have hd : d = s.soloStart.disown.unpair := halone
  have hdone : done = [] := by simp [done, hd, hreqs]
  have he : e = s.soloStart.disown.unpair := by simp [e, hdone, hd]
  have hfailed : failed = s.soloStart.tw.reps := rfl
  clear_value e failed
  subst he hfailed
  exact State.pump_reqs_map hreqs _ _

theorem State.becomeSolo_shows {s : State} (h : s.Calm) :
    s.becomeSolo.bit F.CAR_STS.TOKEN_HELD = true ∧ s.becomeSolo.bit F.CAR_STS.PAIRED = false ∧
      s.becomeSolo.get F.CAR_RG_STS.EFF_OWN = 0xFFFF ∧ s.becomeSolo.tw.bmapOn = true ∧ s.becomeSolo.tw.fo = s.tw.fo ∧
      s.becomeSolo.hp = s.hp := by
  rw [State.becomeSolo_of_calm h]
  have hsts := s.soloStart.parted_pairSts.trans (s.soloStart_pairSts.setBit F.CAR_STS.PAIRED false)
  refine ⟨?_, ?_, ?_, ?_, ?_, ?_⟩
  · rw [hsts.bit (.inl rfl)]
    simp (disch := decide) [State.bit, State.setBit, State.get_set_self, State.get_set_ne]
  · rw [hsts.bit (.inl rfl)]
    exact State.bit_setBit_self _ _ _ (by decide) (by decide)
  · rw [hsts.get (.inr rfl)]
    simp (disch := decide) [State.setBit, State.get_set_self, State.get_set_ne]
  · exact (s.soloStart.parted_reads TwSt.bmapOn fun _ => rfl).trans (congrArg TwSt.bmapOn s.soloStart_tw)
  · exact (s.soloStart.parted_reads TwSt.fo fun _ => rfl).trans (show s.soloStart.tw.fo = s.tw.fo by rw [s.soloStart_tw]; rfl)
  · rw [State.parted_hp, s.soloStart_same.hp rfl]

/-! ### Fenced (R353, R358) -/

/-- The registers, the fence list and the record of a controller that fences with no write under way. -/
def State.fenceStart (s : State) : State :=
  let u : State := { (s.setBit F.CAR_STS.FENCED true).setBit F.CAR_STS.FLIST_VALID true with tw.flist := [] }
  ((((u.holdToken false).set F.CAR_STS.ROLE 0).recordRole 3).set F.CAR_RG_STS.EFF_OWN 0).set F.CAR_RG_STS.IN_SYNC 0

theorem State.withTw_pairSts (s : State) (e : TwSt) : ({ s with tw := e } : State).pairStsAre s := ⟨rfl, rfl⟩

theorem State.fenceStart_pairSts (s : State) : s.fenceStart.pairStsAre
    ((((((s.setBit F.CAR_STS.FENCED true).setBit F.CAR_STS.FLIST_VALID true).setBit F.CAR_STS.TOKEN_HELD false).set F.CAR_STS.ROLE 0).set
      F.CAR_RG_STS.EFF_OWN 0).set F.CAR_RG_STS.IN_SYNC 0) := by
  unfold State.fenceStart
  extract_lets x _ u
  have hheld : (u.holdToken false).pairStsAre (u.setBit F.CAR_STS.TOKEN_HELD false) := u.holdToken_pairSts false
  have hu : u.pairStsAre x := x.withTw_pairSts _
  have hrole := (hheld.trans (hu.setBit _ _)).set F.CAR_STS.ROLE 0
  exact ((((State.recordRole_same _ 3).pairStsAre rfl).trans hrole).set _ _).set _ _

theorem State.fenceStart_same (s : State) : Same 554117955850 s s.fenceStart := by
  unfold State.fenceStart
  refine State.set_keeps rfl (R.CAR_RG_STS_ok rfl) (State.set_keeps rfl (R.CAR_RG_STS_ok rfl) (State.recordRole_keeps rfl ?_))
  refine State.set_keeps rfl (R.CAR_STS_ok rfl) (State.holdToken_keeps rfl (upd_tw rfl ?_))
  exact State.setBit_keeps rfl (R.CAR_STS_ok rfl) (State.setBit_keeps rfl (R.CAR_STS_ok rfl) (Same.refl _ s))

theorem State.fenceStart_tw (s : State) : s.fenceStart.tw = { s.tw with flist := [], pull := false } := by
  unfold State.fenceStart
  rw [State.set_tw, State.set_tw, (State.recordRole_same _ 3).tw rfl, State.set_tw, State.holdToken_tw]
  rfl

theorem State.fenceStart_calm {s : State} (h : s.Calm) : s.fenceStart.Calm := by
  have hsame := s.fenceStart_same
  refine ⟨?_, ?_, ?_⟩
  · rw [hsame.rt rfl, h.reqs]
  · rw [s.fenceStart_tw]
    exact h.cmds
  · rw [hsame.te rfl, h.discards]

theorem State.fence_of_calm {s : State} (h : s.Calm) : s.fence = { s.fenceStart.parted with tw.bmapOn := false } := by
  have hcalm : s.fenceStart.Calm := State.fenceStart_calm h
  obtain ⟨hreqs, halone⟩ := hcalm.parted
  unfold State.fence
  extract_lets writes _ _ t u v w failed d held e
  have hwrites : writes = [] := by simp [writes, h.reqs]
  have hw : w = s.fenceStart := by
    unfold w v u
    rw [hwrites]
    rfl
  have hfailed : failed = s.fenceStart.tw.reps := by rw [← hw]
  have hd : d = s.fenceStart.disown.unpair := by
    unfold d
    rw [hw]
    exact halone
  have hheld : held = [] := by simp [held, hd, hreqs]
  have he : e = s.fenceStart.disown.unpair := by
    unfold e
    rw [hheld]
    exact hd
  clear_value e failed
  subst he hfailed
  exact State.pump_of_noReqs hreqs

theorem State.fence_shows {s : State} (h : s.Calm) :
    s.fence.bit F.CAR_STS.FENCED = true ∧ s.fence.bit F.CAR_STS.TOKEN_HELD = false ∧ s.fence.get F.CAR_RG_STS.EFF_OWN = 0 ∧
      s.fence.tw.fo = s.tw.fo ∧ s.fence.tw.cmds = [] ∧ s.fence.hp = s.hp := by
  rw [State.fence_of_calm h]
  have hsts : ({ s.fenceStart.parted with tw.bmapOn := false } : State).pairStsAre _ :=
    s.fenceStart.parted_pairSts.trans (s.fenceStart_pairSts.setBit F.CAR_STS.PAIRED false)
  refine ⟨?_, ?_, ?_, ?_, ?_, ?_⟩
  · rw [hsts.bit (.inl rfl)]
    simp (disch := decide) [State.bit, State.setBit, State.get_set_self, State.get_set_ne]
  · rw [hsts.bit (.inl rfl)]
    simp (disch := decide) [State.bit, State.setBit, State.get_set_self, State.get_set_ne]
  · rw [hsts.get (.inr rfl)]
    simp (disch := decide) [State.setBit, State.get_set_self, State.get_set_ne]
  · exact (s.fenceStart.parted_reads TwSt.fo fun _ => rfl).trans (show s.fenceStart.tw.fo = s.tw.fo by rw [s.fenceStart_tw])
  · exact (s.fenceStart.parted_reads TwSt.cmds fun _ => rfl).trans ((congrArg TwSt.cmds s.fenceStart_tw).trans h.cmds)
  · exact s.fenceStart.parted_hp.trans (s.fenceStart_same.hp rfl)

/-! ### The failover ends (step 5 of Table 11.7) -/

theorem State.moduleEvent_serialQ (s : State) (ws : List Nat) : (s.moduleEvent ws).hp.serialQ = s.hp.serialQ := by
  refine foldl_eq (fun t : State => t.hp.serialQ) (fun t p => ?_) _ s
  unfold State.logEvent
  split <;> rfl

theorem State.failoverEnd_shows {s : State} {f : Failover} (h : s.tw.fo = some f) :
    s.failoverEnd.pairStsAre (s.setBit F.CAR_STS.FAILOVER false) ∧ s.failoverEnd.tw = { s.tw with fo := none } ∧
      s.failoverEnd.hp.serialQ = s.hp.serialQ := by
  unfold State.failoverEnd
  split
  · next hnone => cases h.symm.trans hnone
  next g hsome =>
  obtain rfl : f = g := Option.some.inj (h.symm.trans hsome)
  extract_lets us _ u v
  have hu : u.pairStsAre (s.setBit F.CAR_STS.FAILOVER false) := State.wrN_pairSts _ _ (by decide) (by decide)
  have hcounted : ((u.maxIn R.CAR_FO_MAX us).bump R.CAR_FO_CNT).pairStsAre u :=
    (State.wrN_pairSts _ _ (by decide) (by decide)).trans (State.wrN_pairSts _ _ (by decide) (by decide))
  have hv : Same 67109384 ((u.maxIn R.CAR_FO_MAX us).bump R.CAR_FO_CNT) v := State.roll_same _ _ _ _ _ _ _
  have hmodule : Same 1099511660552 v (v.moduleEvent [11, f.cause]) := State.moduleEvent_keeps rfl (Same.refl _ v)
  refine ⟨(hmodule.pairStsAre rfl).trans ((hv.pairStsAre rfl).trans (hcounted.trans hu)), ?_, ?_⟩
  · rw [hmodule.tw rfl, hv.tw rfl]
    rfl
  · rw [State.moduleEvent_serialQ, hv.hp rfl]
    rfl

end Sys2Proof.Machine
end

section
/-! SUPPORT. The commands of the failover and of the twin link (11_twin_pair.md R340, R345–R348, R352, R353, R363, R367, Table 11.7). -/
set_option autoImplicit false
namespace Sys2Proof.Machine

/-! ### The end of a failover -/

section
variable {f : Failover} {s : State} (hfo : s.tw.fo = some f) (hcalm : s.Calm) (hqueue : s.hp.serialQ = [])
include hfo hcalm hqueue

/-- Step 4a: the holder becomes SOLO (R352). -/
theorem exec_failoverSettle_solo (hphase : f.phase = .settle) :
    ∃ t, exec .failoverSettle s = .next t ∧ t.bit F.CAR_STS.TOKEN_HELD = true ∧ t.bit F.CAR_STS.PAIRED = false ∧
      t.bit F.CAR_STS.FAILOVER = false ∧ t.get F.CAR_RG_STS.EFF_OWN = 0xFFFF ∧ t.tw.bmapOn = true ∧ t.tw.fo = none := by
  obtain ⟨hheld, hpaired, hown, hbmap, hsame, hhp⟩ := State.becomeSolo_shows hcalm
  obtain ⟨hsts, htw, hq⟩ := State.failoverEnd_shows (hsame.trans hfo)
  have hpump : s.becomeSolo.failoverEnd.serPump = s.becomeSolo.failoverEnd :=
    State.serPump_nil (hq.trans ((congrArg HpSt.serialQ hhp).trans hqueue))
  refine ⟨s.becomeSolo.failoverEnd, ?_, ?_, ?_, ?_, ?_, ?_, ?_⟩
  · show execFailoverSettle s = _
    simp [execFailoverSettle, hfo, hphase, hpump]
  · exact (hsts.bit (.inl rfl)).trans ((State.bit_setBit_ne _ _ _ _ (by decide) (by decide)).trans hheld)
  · exact (hsts.bit (.inl rfl)).trans ((State.bit_setBit_ne _ _ _ _ (by decide) (by decide)).trans hpaired)
  · exact (hsts.bit (.inl rfl)).trans (State.bit_setBit_self _ _ _ (by decide) (by decide))
  · exact (hsts.get (.inr rfl)).trans ((State.get_set_ne _ _ _ _ (by decide) (by decide)).trans hown)
  · simp only [htw, hbmap]
  · exact congrArg TwSt.fo htw

/-- Step 4b: the controller fences (R353). -/
theorem exec_failoverWindowEnd_fenced (hphase : f.phase = .window) :
    ∃ t, exec .failoverWindowEnd s = .next t ∧ t.bit F.CAR_STS.FENCED = true ∧ t.bit F.CAR_STS.TOKEN_HELD = false ∧
      t.bit F.CAR_STS.FAILOVER = false ∧ t.get F.CAR_RG_STS.EFF_OWN = 0 ∧ t.tw.fo = none := by
  obtain ⟨hfenced, hheld, hown, hsame, -, hhp⟩ := State.fence_shows hcalm
  obtain ⟨hsts, htw, hq⟩ := State.failoverEnd_shows (hsame.trans hfo)
  have hpump : s.fence.failoverEnd.serPump = s.fence.failoverEnd :=
    State.serPump_nil (hq.trans ((congrArg HpSt.serialQ hhp).trans hqueue))
  refine ⟨s.fence.failoverEnd, ?_, ?_, ?_, ?_, ?_, ?_⟩
  · show execFailoverWindowEnd s = _
    simp [execFailoverWindowEnd, hfo, hphase, hpump]
  · exact (hsts.bit (.inl rfl)).trans ((State.bit_setBit_ne _ _ _ _ (by decide) (by decide)).trans hfenced)
  · exact (hsts.bit (.inl rfl)).trans ((State.bit_setBit_ne _ _ _ _ (by decide) (by decide)).trans hheld)
  · exact (hsts.bit (.inl rfl)).trans (State.bit_setBit_self _ _ _ (by decide) (by decide))
  · exact (hsts.get (.inr rfl)).trans ((State.get_set_ne _ _ _ _ (by decide) (by decide)).trans hown)
  · exact congrArg TwSt.fo htw

end

/-! ### The token line (R347, step 4c of Table 11.7) -/

theorem State.holdToken_held (s : State) (b : Bool) : (s.holdToken b).bit F.CAR_STS.TOKEN_HELD = b :=
  ((s.holdToken_pairSts b).bit (.inl rfl)).trans (State.bit_setBit_self _ _ _ (by decide) (by decide))

theorem exec_side1TokenWait_takes (f : Failover) (s : State) (hfo : s.tw.fo = some f) (hphase : f.phase = .wait)
    (hfailover : s.bit F.CAR_STS.FAILOVER = true) (hline : s.bit F.CAR_STS.TOKEN_LINE = true) :
    ∃ t, exec .side1TokenWait s = .next t ∧ t.bit F.CAR_STS.TOKEN_HELD = true ∧ t.tw.pull = true ∧
      t.tw.fo = some { f with phase := .settle } := by
  refine ⟨{ s.holdToken true with tw.fo := some { f with phase := .settle } }, ?_, s.holdToken_held true,
    congrArg TwSt.pull (s.holdToken_tw true), rfl⟩
  show execSide1TokenWait s = _
  simp [execSide1TokenWait, hfo, hphase, hfailover, hline]

theorem exec_twinTokenChange_idle (high : Bool) (s : State) (hfo : s.tw.fo = none) :
    ∃ t, exec (.twinTokenChange high) s = .next t ∧ t = s.setBit F.CAR_STS.TOKEN_LINE high := by
  refine ⟨_, ?_, rfl⟩
  show execTwinTokenChange high s = _
  simp [execTwinTokenChange, hfo]

theorem exec_twinTokenChange_takes (f : Failover) (s : State) (hfo : s.tw.fo = some f) (hphase : f.phase = .window)
    (hside : s.bit F.CAR_STS.SIDE = false) :
    ∃ t, exec (.twinTokenChange true) s = .next t ∧ t.bit F.CAR_STS.TOKEN_HELD = true ∧ t.tw.fo = some { f with phase := .settle } := by
  have hkept : (s.setBit F.CAR_STS.TOKEN_LINE true).bit F.CAR_STS.SIDE = false :=
    (State.bit_setBit_ne _ _ _ _ (by decide) (by decide)).trans hside
  refine ⟨{ (s.setBit F.CAR_STS.TOKEN_LINE true).holdToken true with tw.fo := some { f with phase := .settle } }, ?_,
    State.holdToken_held _ true, rfl⟩
  show execTwinTokenChange true s = _
  simp [execTwinTokenChange, State.failoverHigh, hfo, hphase, hkept]

/-! ### TWIN_ALIVE_OUT and the heartbeat (R346, R348) -/

theorem exec_aliveToggle_toggles (s : State) (hcore : s.coreUp = true) (hfree : s.bit F.FC_STS.CONTAINING = false) :
    ∃ t, exec .aliveToggle s = .next t ∧ t = { s.emit (.pin .twinAliveOut (some (!s.tw.alive))) with tw.alive := !s.tw.alive } := by
  refine ⟨_, ?_, rfl⟩
  show execAliveToggle s = _
  simp [execAliveToggle, hcore, hfree]

theorem exec_hbSend_sends (s : State) (hup : s.bit F.CAR_STS.LINK_UP = true) :
    ∃ t, exec .hbSend s = .next t ∧ t = s.emit (.caravan ⟨0x03, 0,
      [s.devState, s.get F.CAR_STS.ROLE, (s.bit F.CAR_STS.TOKEN_HELD).toNat + 2 * s.draining.toNat, s.tick.toNat % 2 ^ 32]⟩) := by
  refine ⟨_, ?_, rfl⟩
  show execHbSend s = _
  simp [execHbSend, State.car, hup]

/-! ### Training (R340, R345, R367) -/

/-- HELLO leaves over a link that is up, and the nonce is all that changes of the twin pair's state. -/
theorem State.sendHello_shows {s : State} (hup : s.bit F.CAR_STS.LINK_UP = true) :
    (∃ ws, Output.caravan ⟨0x01, 0, ws⟩ ∈ s.sendHello.out) ∧ s.sendHello.pairStsAre s ∧ s.sendHello.tw = { s.tw with nonce := s.free 64 } := by
  unfold State.sendHello
  extract_lets n d _ u
  have hsame (ws : List Nat) : Same 67108874 u (u.car 0x01 0 ws) := u.car_same _ _ _
  have hdrawn : d.pairStsAre s := State.pairStsAre_of_regs rfl
  have hu : u.pairStsAre s := (d.withTw_pairSts _).trans hdrawn
  exact ⟨⟨_, State.car_mem ((hu.bit (.inl rfl)).trans hup) _ _ _⟩, ((hsame _).pairStsAre rfl).trans hu, (hsame _).tw rfl⟩

theorem exec_caravanLinkUp_hello (s : State) (hen : s.bit F.CAR_CFG.EN = true) (hcore : s.coreUp = true) (hclk : s.refclk = true)
    (hdown : s.bit F.CAR_STS.LINK_UP = false) (hidle : s.bit F.CAR_STS.FAILOVER = false) (hdrain : s.draining = false)
    (hphy : s.bit ⟨R.TST_PHY_CTL, 4, 1⟩ = false) :
    ∃ t ws, exec .caravanLinkUp s = .next t ∧ t.bit F.CAR_STS.LINK_UP = true ∧ t.tw.hello = none ∧ t.tw.proof = false ∧
      Output.caravan ⟨0x01, 0, ws⟩ ∈ t.out := by
  have hexec : ∃ u : State, exec .caravanLinkUp s = .next ((u.linkEvent true).sendHello.tsStatus) ∧ u.bit F.CAR_STS.LINK_UP = true ∧
      u.tw.hello = none ∧ u.tw.proof = false := by
    refine ⟨_, if_pos (by simp [hen, hcore, hclk, hdown, hidle, hdrain, hphy]), ?_, rfl, rfl⟩
    exact (State.bit_setBit_ne (s.setBit F.CAR_STS.LINK_UP true) F.CAR_CTL.RETRAIN F.CAR_STS.LINK_UP _ (by decide) (by decide)).trans
      (State.bit_setBit_self _ _ _ (by decide) (by decide))
  obtain ⟨u, hexec, hup, hhello, hproof⟩ := hexec
  have hevent : Same 67109384 u (u.linkEvent true) := u.linkEvent_same true
  have hlink : (u.linkEvent true).bit F.CAR_STS.LINK_UP = true := ((hevent.pairStsAre rfl).bit (.inl rfl)).trans hup
  obtain ⟨⟨ws, hsent⟩, hsts, htw⟩ := State.sendHello_shows hlink
  have hstatus := (u.linkEvent true).sendHello.tsStatus_same
  have htw : (u.linkEvent true).sendHello.tsStatus.tw = { u.tw with nonce := (u.linkEvent true).free 64 } := by
    rw [hstatus.tw rfl, htw, hevent.tw rfl]
  refine ⟨_, ws, hexec, ?_, ?_, ?_, ?_⟩
  · exact ((hstatus.pairStsAre rfl).bit (.inl rfl)).trans ((hsts.bit (.inl rfl)).trans hlink)
  · exact (congrArg TwSt.hello htw).trans hhello
  · exact (congrArg TwSt.proof htw).trans hproof
  · rw [hstatus.out rfl]
    exact hsent

theorem exec_caravanTrainRetry_trains (s : State) (hen : s.bit F.CAR_CFG.EN = true) (hcore : s.coreUp = true)
    (hdown : s.bit F.CAR_STS.LINK_UP = false) (hphy : s.bit ⟨R.TST_PHY_CTL, 4, 1⟩ = false) :
    ∃ t, exec .caravanTrainRetry s = .next t ∧ t = s.emit (.other 11 [1]) := by
  refine ⟨_, ?_, rfl⟩
  show execCaravanTrainRetry s = _
  simp [execCaravanTrainRetry, hen, hcore, hdown, hphy]

theorem State.linkDown_link (s : State) (cause : Nat) : (s.linkDown cause).bit F.CAR_STS.LINK_UP = false := by
  have hsts : (s.linkDown cause).pairStsAre ((s.setBit F.CAR_STS.LINK_UP false).set F.CAR_STS.LAST_DOWN cause) := State.withTw_pairSts _ _
  exact (hsts.bit (.inl rfl)).trans
    ((State.bit_set_ne _ _ _ _ (by decide) (by decide)).trans (State.bit_setBit_self _ _ _ (by decide) (by decide)))

theorem exec_carRetrain_trains (path : Path) (s : State) (hmgr : s.isManager path = true) (hpaired : s.bit F.CAR_STS.PAIRED = false) :
    ∃ t, exec (.carRetrain path) s = .next t ∧ t.bit F.CAR_STS.LINK_UP = false ∧ t.bit F.CAR_CTL.RETRAIN = true ∧
      Output.other 11 [1] ∈ t.out := by
  let u : State := ((s.regAcc 11).linkDown ((s.regAcc 11).get F.CAR_STS.LAST_DOWN)).setBit F.CAR_CTL.RETRAIN true
  have hexec : exec (.carRetrain path) s = .next (u.emit (.other 11 [1])) := by
    show execCarRetrain path s = _
    simp [execCarRetrain, State.regAcc_isManager, hmgr, State.regAcc_bit (f := F.CAR_STS.PAIRED) s 11 rfl, hpaired, u]
  have hkept {f : Fld} (hf : bookReg f.off = false) : (u.emit (.other 11 [1])).bit f = u.bit f := (u.emit_book _).bit hf
  refine ⟨_, hexec, ?_, ?_, u.emit_mem _⟩
  · have hdown : ((s.regAcc 11).linkDown ((s.regAcc 11).get F.CAR_STS.LAST_DOWN)).bit F.CAR_STS.LINK_UP = false := State.linkDown_link _ _
    exact (hkept rfl).trans ((State.bit_setBit_ne _ _ _ _ (by decide) (by decide)).trans hdown)
  · rw [hkept rfl]
    exact State.bit_setBit_self _ _ _ (by decide) (by decide)

/-! ### ROLE_DECISION (R363) -/

theorem exec_roleDecision_unpaired (s : State) (hopen : s.tw.decided = false) (hmap : s.bit F.TE_STS.MAP_READY = true)
    (hcore : s.coreUp = true) (hoff : s.bit F.CAR_CFG.EN = false) :
    ∃ t, exec .roleDecision s = .next t ∧ t.tw.decided = true ∧
      t.regsAre ((s.set F.CAR_STS.ROLE 0).set F.CAR_RG_STS.EFF_OWN 0xFFFF) := by
  refine ⟨(({ s with tw.decided := true } : State).set F.CAR_STS.ROLE 0).set F.CAR_RG_STS.EFF_OWN 0xFFFF, ?_, rfl, fun _ _ => rfl⟩
  have hbit : ({ s with tw.decided := true } : State).bit F.CAR_CFG.EN = false := hoff
  show execRoleDecision s = _
  simp [execRoleDecision, hopen, hmap, hcore, hbit]

/-- Settles O21, command by command. -/
theorem failoverAndLinkCommands : Obligations.FailoverAndLinkCommands := by
  unfold Obligations.FailoverAndLinkCommands
  refine ⟨?_, exec_side1TokenWait_takes, exec_twinTokenChange_idle, exec_twinTokenChange_takes, exec_aliveToggle_toggles,
    exec_hbSend_sends, exec_caravanLinkUp_hello, exec_caravanTrainRetry_trains, exec_carRetrain_trains, exec_roleDecision_unpaired⟩
  intro f s hfo hreqs hcmds hdiscards _ _ _ hqueue
  have hcalm : s.Calm := ⟨hreqs, hcmds, hdiscards⟩
  exact ⟨exec_failoverSettle_solo hfo hcalm hqueue, exec_failoverWindowEnd_fenced hfo hcalm hqueue⟩

end Sys2Proof.Machine
end

section
/-! SUPPORT. Admit and Detach of the manager (11_twin_pair.md R355, R356, R359, R364; 12_host_ports.md R388). -/
set_option autoImplicit false
namespace Sys2Proof.Machine

/-! ### The answer of a command that does not wait for the twin (R334) -/

/-- No command mirrored to the twin belongs to a mailbox. -/
def State.unanswered (s : State) : Prop := ∀ c ∈ s.tw.cmds, c.dst = .none

theorem State.unanswered_of_none {s : State} (h : s.tw.cmds = []) : s.unanswered := by simp [State.unanswered, h]

theorem State.reply_alone {s : State} (h : s.unanswered) {p : Nat} (hp : p < 8) (rc : Rc) (ext : Nat) (ws : List Nat) :
    (s.reply (.mbox p) rc ext ws).replied p rc ext ws ∧ (s.reply (.mbox p) rc ext ws).tw = s.tw ∧
      (s.reply (.mbox p) rc ext ws).pairStsAre s := by
  have hnone : s.tw.cmds.find? (fun c => c.dst == .mbox p && c.own.isNone) = none := by
    refine List.find?_eq_none.mpr fun c hc => ?_
    simp [h c hc]
  have hreply : s.reply (.mbox p) rc ext ws = s.answer (.mbox p) rc ext ws := by
    unfold State.reply
    rw [hnone]
  have hsame : Same 1099612325898 s (s.answer (.mbox p) rc ext ws) := State.answer_keeps rfl (Same.refl _ s)
  rw [hreply]
  exact ⟨State.mbox_replied _ hp rc ext ws, hsame.tw rfl, hsame.pairStsAre rfl⟩

/-! ### ADMIT_PAIR (R359) -/

/-- t mirrors as s does, and its further commands to the twin are those of the admission. -/
structure State.AdmitStep (s t : State) : Prop where
  sts : t.pairStsAre s
  admitted : t.tw.admitted = s.tw.admitted
  bmapOn : t.tw.bmapOn = s.tw.bmapOn
  unanswered : s.unanswered → t.unanswered

theorem State.AdmitStep.trans {s t u : State} (h : s.AdmitStep t) (k : t.AdmitStep u) : s.AdmitStep u :=
  ⟨k.sts.trans h.sts, k.admitted.trans h.admitted, k.bmapOn.trans h.bmapOn, fun hs => k.unanswered (h.unanswered hs)⟩

theorem State.sendCmd_admitStep (s : State) (c : TwinCmd) : s.AdmitStep (s.sendCmd .none c none) := by
  let u : State := { s with tw.cmdSeq := s.tw.cmdSeq + 1, tw.cmds := s.tw.cmds ++ [⟨s.tw.cmdSeq, .none, none, none, none⟩] }
  have hcmd : s.sendCmd .none c none = u.carSend 1 (.carCmd s.tw.cmdSeq c) := rfl
  obtain ⟨cred, waits, htw⟩ := u.carSend_tw 1 (.carCmd s.tw.cmdSeq c)
  have hsent : (u.carSend 1 (.carCmd s.tw.cmdSeq c)).pairStsAre u :=
    (State.carSend_keeps (m := 67174410) rfl (Same.refl _ u)).pairStsAre rfl
  rw [hcmd]
  refine ⟨hsent.trans (s.withTw_pairSts _), ?_, ?_, fun hs x hx => ?_⟩
  · rw [htw]
  · rw [htw]
  · rw [htw] at hx
    rcases List.mem_append.mp hx with hold | hnew
    · exact hs x hold
    · rw [List.mem_singleton.mp hnew]

theorem State.foldl_admitStep {α : Type} {f : State → α → State} (hf : ∀ (t : State) (a : α), t.AdmitStep (f t a)) (l : List α) (s : State) :
    s.AdmitStep (l.foldl f s) := by
  induction l generalizing s with
  | nil => exact ⟨.refl s, rfl, rfl, id⟩
  | cons a l ih => exact (hf s a).trans (ih (f s a))

theorem State.startSource_shows (s : State) (regions : List Nat) (full : Bool) :
    (s.startSource regions full).pairStsAre ((s.setBit F.CAR_STS.BMAP_VALID true).set F.CAR_STS.ROLE 2) ∧
      (s.startSource regions full).tw.admitted = true ∧ (s.startSource regions full).tw.bmapOn = true ∧
      (s.startSource regions full).tw.cmds = s.tw.cmds := by
  unfold State.startSource
  extract_lets total x _ u
  have hu : u.pairStsAre s := (x.withTw_pairSts _).trans (State.pairStsAre_of_regs (by simp [x]))
  refine ⟨(State.wrN_pairSts _ _ (by decide) (by decide)).trans ((hu.setBit _ _).set _ _), rfl, rfl, ?_⟩
  show x.tw.cmds = s.tw.cmds
  simp [x]

/-- The source with a HELLO of its twin becomes holder, partner of a mirrored pair, with the bitmap on. -/
theorem State.admitTwin_shows {s : State} (hhello : s.tw.hello.isSome = true) (hs : s.unanswered) :
    s.admitTwin.get F.CAR_STS.ROLE = 2 ∧ s.admitTwin.tw.admitted = true ∧ s.admitTwin.tw.bmapOn = true ∧ s.admitTwin.unanswered := by
  obtain ⟨h, hsome⟩ := Option.isSome_iff_exists.mp hhello
  unfold State.admitTwin
  split
  · next hnone => cases hsome.symm.trans hnone
  next g _ =>
  extract_lets differ on full u v
  obtain ⟨hsts, hadmitted, hbmap, hcmds⟩ := s.startSource_shows on full
  have htw : v.tw = (s.startSource on full).tw := by
    unfold v u
    rw [State.set_tw, State.set_tw]
  have hrole : v.get F.CAR_STS.ROLE = 2 := by
    have hv := (hsts.set F.CAR_RG_STS.IN_SYNC 0).set F.CAR_RG_STS.EFF_OWN 0xFFFF
    refine (hv.get (.inl rfl)).trans ?_
    simp (disch := decide) [State.get_set_self, State.get_set_ne]
  have hvs : v.unanswered := fun c hc => hs c (by rwa [htw, hcmds] at hc)
  have hstep : ∀ t : State, v.AdmitStep t → t.get F.CAR_STS.ROLE = 2 ∧ t.tw.admitted = true ∧ t.tw.bmapOn = true ∧ t.unanswered :=
    fun t ht => ⟨(ht.sts.get (.inl rfl)).trans hrole, ht.admitted.trans ((congrArg TwSt.admitted htw).trans hadmitted),
      ht.bmapOn.trans ((congrArg TwSt.bmapOn htw).trans hbmap), ht.unanswered hvs⟩
  split
  · exact hstep _ (State.foldl_admitStep (fun _ _ => State.sendCmd_admitStep _ _) _ _)
  · exact hstep _ ⟨.refl v, rfl, rfl, id⟩

theorem exec_admitPair_admits (p : Fin 8) (s : State) (hfree : s.serialFree p) (hidle : s.bit F.CAR_STS.FAILOVER = false)
    (hup : s.bit F.CAR_STS.LINK_UP = true) (hpaired : s.bit F.CAR_STS.PAIRED = true) (hhello : s.tw.hello.isSome = true)
    (hfenced : s.bit F.CAR_STS.FENCED = false) (hheld : s.bit F.CAR_STS.TOKEN_HELD = true) (hnew : s.tw.admitted = false) :
    ∃ t, exec (.admitPair p) s = .next t ∧ t.replied p .success 0 [] ∧ t.tw.admitted = true ∧ t.get F.CAR_STS.ROLE = 2 ∧ t.tw.bmapOn = true := by
  let u : State := s.serTurn (.mbox p)
  have hturn (f : Fld) : u.bit f = s.bit f := rfl
  have hexec : exec (.admitPair p) s = .next (u.admitTwin.reply (.mbox p) .success 0 []) := by
    show Host.Outcome.next (s.serCmd p .admitPair) = _
    rw [State.serCmd_free hfree]
    show Host.Outcome.next (u.admitPair (.mbox p)) = _
    have hnone : u.tw.hello.isNone = false := by
      rw [← Option.not_isSome, show u.tw.hello.isSome = true from hhello]
      rfl
    simp [State.admitPair, hturn, hidle, hup, hpaired, hnone, hfenced, hheld, show u.tw.admitted = false from hnew]
  obtain ⟨-, -, -, hcmds, -⟩ := hfree
  obtain ⟨hrole, hadmitted, hbmap, hmine⟩ := State.admitTwin_shows (s := u) hhello (State.unanswered_of_none hcmds)
  obtain ⟨hreplied, htw, hsts⟩ := State.reply_alone hmine p.isLt .success 0 []
  exact ⟨_, hexec, hreplied, (congrArg TwSt.admitted htw).trans hadmitted, (hsts.get (.inl rfl)).trans hrole,
    (congrArg TwSt.bmapOn htw).trans hbmap⟩

/-! ### ADMIT_SOLO (R355) -/

theorem State.soloAlone_pairSts (s : State) : s.soloAlone.pairStsAre
    ((((((s.setBit F.CAR_STS.TOKEN_HELD true).set F.CAR_STS.ROLE 0).setBit F.CAR_STS.FENCED false).set F.CAR_RG_STS.EFF_OWN 0xFFFF).set
      F.CAR_RG_STS.IN_SYNC 0).setBit F.CAR_STS.FLIST_VALID false) :=
  (((((((State.holdToken_pairSts _ true).trans (s.recordSolo_pairSts.setBit _ _)).set _ _).setBit _ _).set _ _).set _ _).setBit _ _)

theorem State.soloAlone_tw (s : State) : s.soloAlone.tw = { s.tw with pull := true } := by
  unfold State.soloAlone
  dsimp only
  rw [State.setBit_tw, State.set_tw, State.set_tw, State.setBit_tw, State.set_tw, State.holdToken_tw, s.recordSolo_same.tw rfl]

theorem exec_admitSolo_serves (p : Fin 8) (s : State) (hfree : s.serialFree p) (hidle : s.bit F.CAR_STS.FAILOVER = false)
    (hdown : s.bit F.CAR_STS.LINK_UP = false) (hfenced : s.bit F.CAR_STS.FENCED = true) (hline : s.bit F.CAR_STS.TOKEN_LINE = true) :
    ∃ t, exec (.admitSolo p) s = .next t ∧ t.replied p .success 0 [] ∧ t.bit F.CAR_STS.FENCED = false ∧
      t.bit F.CAR_STS.TOKEN_HELD = true ∧ t.get F.CAR_RG_STS.EFF_OWN = 0xFFFF ∧ t.tw.flist = [] := by
  let u : State := s.serTurn (.mbox p)
  have hturn (f : Fld) : u.bit f = s.bit f := rfl
  let v : State := { u.soloAlone with tw.flist := [] }
  let w : State := v.roll 0x0900 0 11 1 0 (v.num R.CAR_FO_LAST)
  have hexec : exec (.admitSolo p) s = .next (w.reply (.mbox p) .success 0 []) := by
    show Host.Outcome.next (s.serCmd p .admitSolo) = _
    rw [State.serCmd_free hfree]
    show Host.Outcome.next (u.admitSolo (.mbox p)) = _
    simp [State.admitSolo, hturn, hidle, hdown, hfenced, hline, w, v]
  have hroll : Same 67109384 v w := State.roll_same _ _ _ _ _ _ _
  have hcmds : w.tw.cmds = [] := by
    obtain ⟨-, -, -, hcmds, -⟩ := hfree
    rw [hroll.tw rfl]
    exact (congrArg TwSt.cmds u.soloAlone_tw).trans hcmds
  obtain ⟨hreplied, htw, hreply⟩ := State.reply_alone (State.unanswered_of_none hcmds) p.isLt .success 0 []
  have hsts := hreply.trans ((hroll.pairStsAre rfl).trans ((State.withTw_pairSts _ _).trans u.soloAlone_pairSts))
  refine ⟨_, hexec, hreplied, ?_, ?_, ?_, ?_⟩
  · rw [hsts.bit (.inl rfl)]
    simp (disch := decide) [State.bit, State.setBit, State.get_set_self, State.get_set_ne]
  · rw [hsts.bit (.inl rfl)]
    simp (disch := decide) [State.bit, State.setBit, State.get_set_self, State.get_set_ne]
  · rw [hsts.get (.inr rfl)]
    simp (disch := decide) [State.setBit, State.get_set_self, State.get_set_ne]
  · rw [htw, hroll.tw rfl]

/-! ### ADMIT_KEEP and DETACH (R356, R364) -/

/-- The side that is not kept fences. -/
theorem exec_admitKeep_fences (p : Fin 8) (side : Fin 2) (s : State) (hfree : s.serialFree p) (hidle : s.bit F.CAR_STS.FAILOVER = false)
    (herr : s.get F.CAR_STS.ATTACH_ERR = 4) (hside : side.val ≠ s.get F.CAR_STS.SIDE) (hreqs : s.rt.reqs = []) (hdiscards : s.te.discards = []) :
    ∃ t, exec (.admitKeep p side) s = .next t ∧ t.replied p .success 0 [] ∧ t.bit F.CAR_STS.FENCED = true ∧
      t.bit F.CAR_STS.TOKEN_HELD = false := by
  let u : State := s.serTurn (.mbox p)
  let v : State := u.fence.roll 0x0900 0 11 1 side.val 0
  have hbit (f : Fld) : u.bit f = s.bit f := rfl
  have hget (f : Fld) : u.get f = s.get f := rfl
  have hexec : exec (.admitKeep p side) s = .next (v.reply (.mbox p) .success 0 []) := by
    show Host.Outcome.next (s.serCmd p (.admitKeep side)) = _
    rw [State.serCmd_free hfree]
    show Host.Outcome.next (u.admitKeep (.mbox p) side.val) = _
    simp [State.admitKeep, hbit, hget, hidle, herr, hside, v]
  have hcalm : u.Calm := by
    obtain ⟨-, -, -, hcmds, -⟩ := hfree
    exact ⟨hreqs, hcmds, hdiscards⟩
  obtain ⟨hfenced, hheld, -, -, hcmds, -⟩ := State.fence_shows hcalm
  have hroll : Same 67109384 u.fence v := State.roll_same _ _ _ _ _ _ _
  have hmine : v.unanswered := State.unanswered_of_none ((congrArg TwSt.cmds (hroll.tw rfl)).trans hcmds)
  obtain ⟨hreplied, -, hreply⟩ := State.reply_alone hmine p.isLt .success 0 []
  have hsts := hreply.trans (hroll.pairStsAre rfl)
  exact ⟨_, hexec, hreplied, (hsts.bit (.inl rfl)).trans hfenced, (hsts.bit (.inl rfl)).trans hheld⟩

/-- A command that is not mirrored has its turn at once, with an admitted twin as well. -/
theorem State.serCmd_own {s : State} {p : Fin 8} (hmgr : s.managerMail p) (hidle : s.hp.serial = none) (hempty : s.hp.serialQ = [])
    {c : SerCmd} (hown : serMirrored c = false) : s.serCmd p c = (s.serTurn (.mbox p)).serDo (.mbox p) c := by
  have hqueue : ({ s with hp.serialQ := s.hp.serialQ ++ [(ReplyTo.mbox p, c)] } : State).serPump =
      (s.serTurn (.mbox p)).serDo (.mbox p) c := by
    simp only [State.serPump, hempty, List.nil_append, List.length_cons, List.length_nil, State.serPumpN, hidle, State.serStart, hown,
      Bool.and_false, Bool.false_eq_true, ↓reduceIte]
    rfl
  simp [State.serCmd, hmgr.1, hmgr.hpRole, hqueue]

/-- The leaving holder first offers its token (R364). -/
theorem exec_detach_offers (p : Fin 8) (side : Fin 2) (s : State) (hmgr : s.managerMail p) (hidle : s.hp.serial = none)
    (hempty : s.hp.serialQ = []) (htwin : s.twinUp = true) (hup : s.bit F.CAR_STS.LINK_UP = true) (hside : side.val = s.get F.CAR_STS.SIDE)
    (hheld : s.bit F.CAR_STS.TOKEN_HELD = true) (hstill : s.tw.tokMove = 0) :
    ∃ t, exec (.detach p side) s = .next t ∧ t.tw.leaving = some (.mbox p.val) ∧ t.tw.tokMove = 1 ∧ t.hp.serial = some (.mbox p.val) ∧
      Output.caravan ⟨0x40, 0, []⟩ ∈ t.out := by
  let u : State := s.serTurn (.mbox p)
  let v : State := { u with tw.leaving := some (.mbox p) }
  have hexec : exec (.detach p side) s = .next { v.car 0x40 0 [] with tw.tokMove := 1 } := by
    show Host.Outcome.next (s.serCmd p (.detach side)) = _
    rw [State.serCmd_own hmgr hidle hempty rfl]
    show Host.Outcome.next (u.detach (.mbox p) side.val) = _
    simp [State.detach, show u.twinUp = true from htwin, show side.val = u.get F.CAR_STS.SIDE from hside,
      show u.bit F.CAR_STS.TOKEN_HELD = true from hheld, show u.tw.tokMove = 0 from hstill, v]
  have hsame : Same 67108874 v (v.car 0x40 0 []) := v.car_same _ _ _
  exact ⟨_, hexec, congrArg TwSt.leaving (hsame.tw rfl), rfl, congrArg HpSt.serial (hsame.hp rfl), State.car_mem (s := v) hup _ _ _⟩

/-- Settles O22, command by command. -/
theorem admitAndDetach : Obligations.AdmitAndDetach := by
  unfold Obligations.AdmitAndDetach
  exact ⟨exec_admitPair_admits, exec_admitSolo_serves,
    fun p side s hfree hidle herr hside hreqs hdiscards _ _ => exec_admitKeep_fences p side s hfree hidle herr hside hreqs hdiscards,
    exec_detach_offers⟩

end Sys2Proof.Machine
end
